-- ==== Sys2Proof/Word.lean ====
section
/-! DEFINITION. The word types of the machine: what the manual treats as bits. -/

namespace Sys2Proof

/-- A byte of a letter, of memory or of a record. -/
abbrev Byte := BitVec 8
/-- A 32-bit direct register word (R5). -/
abbrev Word := BitVec 32
/-- A postmark or other 64-bit value (R10, R108). -/
abbrev Wide := BitVec 64

end Sys2Proof
end

