-- ==== Sys2Proof/Syntax.lean ====
section
/-! DEFINITION. The commands of the block: every operation and event of the spec's table, one constructor each, with the
operands a sender gives it. A command that stands for something the surroundings do (an edge on a pin, a message from a
partner, the end of a timer) carries what the surroundings know and the block does not. -/

namespace Sys2Proof.Machine

/-- The ports that reach the register space (R15): the Postroom, the endpoint's BAR of PF0..PF3, the test access port
and the 40 region control ports. -/
inductive Port where
  | postroom
  | pf (f : Fin 4)
  | tap
  | region (n : Fin 40)
  deriving DecidableEq, Repr

/-- A letter as R355 lays it out: the mailbox it was taken from, its envelope and its body. `data` is what the firmware
read where the letter is INDIRECT and names memory of the owning host function (R361): none where that read failed. -/
structure Letter where
  mailbox : Fin 64
  opcode : BitVec 16
  flags : BitVec 16
  handle : BitVec 32
  seqTag : BitVec 32
  postmark : BitVec 64
  body : List Byte
  data : Option (List Byte)
  deriving DecidableEq, Repr

/-- The status codes (R377). -/
inductive Status where
  | OK | ACCEPTED | BAD_HANDLE | STALE_HANDLE | BAD_PARAM | BUSY | NO_RESOURCE | CANCELLED | DENIED | LOCKED
  | ABANDONED | NOT_READY | LEASE_EXHAUSTED | NO_QUORUM | POSITION_LOST | INTEGRITY | DRIVE_ERROR
  | TRANSFER_FAILED | NO_ANSWER
  deriving DecidableEq, Repr

/-- What a service answers: its status, the handle and postmark of the envelope, and the body. -/
structure Reply where
  status : Status
  handle : Nat
  postmark : Nat
  body : List Byte
  deriving DecidableEq, Repr

/-- The code on one input of a stage: a dual-rail bit (R23) or a 1-of-4 bit pair of a word channel (R56). -/
inductive Rail where
  | bit (rail1 rail0 : Bool)
  | pair (rails : BitVec 4)
  deriving DecidableEq, Repr

/-- The modes of a cell (R27). -/
inductive CellMode where
  | logic | chain | mem64 | mem32 | stage
  deriving DecidableEq, Repr

/-- The initial state the configuration gives a stage (R36). -/
inductive InitTok where
  | empty | token0 | token1
  deriving DecidableEq, Repr

/-- Where an input bit comes from (R53, R54, R61, R66): an output of a cell of its own tile, through the cluster's crossbar or the tile's switch; a bit
of the word that an ejection slot of its tile holds; a strobe tap; a crossing element; or a wire of a producer that the model does not hold. -/
inductive Source where
  | cell (index : Fin 65536)
  | eject (slot : Fin 16) (bit : Fin 36)
  | tap (tree : Fin 8) (index : Nat)
  | element (k bit : Nat)
  | outside (wire : Nat)
  deriving DecidableEq, Repr

/-- What an image configures of one cell: its mode; whether a LOGIC or CHAIN cell's output has a stage; the 64-entry truth table; for CHAIN the table of
its chain output and whether it takes its chain input from the cell below; its inputs, none for one marked as unused (in a memory mode the request: two
operation bits, the address, the data); the initial states of its stage and of a STAGE cell's second stage; its memory contents; and, in a clocked
cluster, the tree T4..T7 that clocks it (R27..R31, R33, R36, R64). -/
structure CellCfg where
  mode : CellMode
  staged : Bool
  table : BitVec 64
  chainTable : BitVec 32
  chained : Bool
  inputs : List (Option Source)
  init : InitTok
  init2 : InitTok
  memInit : BitVec 64
  clock : Option (Fin 4)
  deriving DecidableEq, Repr

/-- The aspect ratios of a block memory port (R68). -/
inductive Aspect where
  | w72 | ecc64 | w36 | w18 | w9 | w4 | w2 | w1
  deriving DecidableEq, Repr

/-- What an image configures of one block memory: each port's aspect ratio, INIT or KEEP, and the rows of its contents
that are not 0 (R68, R75). -/
structure BmCfg where
  aspectA : Aspect
  aspectB : Aspect
  keep : Bool
  rows : List (Nat × Nat)
  deriving DecidableEq, Repr

/-- The physical bits of a row that upsets have flipped since the last access, and the address word of a request that stands ready at the memory's other
port as the cycle starts (R72, R74). -/
structure BmMoment where
  flips : List (Fin 72)
  other : Option (BitVec 36)
  deriving DecidableEq, Repr

/-- The address of a read and how many bytes it asks for (R5). -/
structure ReadAt where
  addr : BitVec 25
  bytes : Fin 9
  deriving DecidableEq, Repr

/-- A multi-bit value that is published across crossings (chapter 04): an axis position, the timebase, the real-time clock (R12), a lane's status word or
the reading of a supply. -/
inductive PubValue where
  | axis (a : Fin 8)
  | timebase
  | rtc
  | lane (l : Fin 144)
  | supply (i : Fin 32)
  deriving DecidableEq, Repr

/-- A published copy (R88): its owner's, or where `remainder` holds the copy that the clockless remainder publishes of what it has accepted (R13). -/
structure Published where
  value : PubValue
  remainder : Bool
  deriving DecidableEq, Repr

/-- A receiver that samples a published copy (R88): its side (0..24 a domain, 25 the clockless remainder), and for a sample that falls into an update of
the copy the bits that it takes from the new value. -/
structure Receiver where
  side : Fin 26
  mix : Option (BitVec 64)
  deriving DecidableEq, Repr

/-- The result of the ECC check of a read (R74, R310): what the stored code shows. -/
inductive Ecc where
  | clean | corrected | uncorrectable
  deriving DecidableEq, Repr

/-- Which kind of border channel an isolation cell stands on (R60, R444). -/
inductive IsoKind where
  | fabric | agent | control | gate
  deriving DecidableEq, Repr

/-- An isolation cell: its channel's kind, the regions on its two sides (none: a hard port) and its slot. -/
structure IsoSite where
  kind : IsoKind
  producer : Option (Fin 40)
  consumer : Option (Fin 40)
  slot : Fin 768
  deriving DecidableEq, Repr

/-- The directions of the mesh: toward rising x and y, and falling. -/
inductive Dir where
  | east | north | west | south
  deriving DecidableEq, Repr

/-- The ports of a tile's router that a route passes (R55): from its cells, to its cells, or out toward another tile. -/
inductive RouterPort where
  | inject
  | eject
  | neighbour (d : Dir)
  | express (d : Dir)
  deriving DecidableEq, Repr

/-- A hop stage of a route, named by the port slot it holds, so that no two routes share a slot (R55, R59): the tile of the region (16 y + x), the port,
the word channel there, and of the two stages of an express hop whether it is the second. -/
structure Hop where
  tile : Fin 256
  port : RouterPort
  slot : Fin 16
  second : Bool
  deriving DecidableEq, Repr

/-- Where a hop stage takes its word from (R59, R60): bits of its tile's cells at injection, the stage before it, the isolation cell at the border it
crosses, the region's event channel or mailbox event channel (R533, R362), or, on 18 wires from a number on, a producer that the model does not hold. -/
inductive WordFrom where
  | bits (inputs : List (Option Source))
  | hop (h : Hop)
  | border (x : IsoSite)
  | events
  | mailboxes
  | outside (wire : Nat)
  deriving DecidableEq, Repr

/-- What an image configures of a hop stage: its source, which bit pairs its route uses, its initial state, the isolation cell that it leads into where it
crosses a border, and whether its route ends there at a block memory or a hard port, which takes its tokens (R26, R36, R56, R60). -/
structure WordCfg where
  source : WordFrom
  used : BitVec 18
  init : InitTok
  exit : Option IsoSite
  sink : Bool
  deriving DecidableEq, Repr

/-- What an image configures of a crossing element (R66): whether it leads into a clocked cluster or out of one, the tree that clocks the cluster, whether it
carries a multi-bit value, its tile and its inputs. -/
structure ElementCfg where
  into : Bool
  clock : Fin 4
  multi : Bool
  tile : Fin 256
  inputs : List (Option Source)
  deriving DecidableEq, Repr

/-- The source of one of the trees T4..T7 (R61): the timed pin mapped to its sink, or an output of a cell of any region. -/
inductive TreeSource where
  | pin
  | cell (region : Fin 40) (index : Fin 65536)
  deriving DecidableEq, Repr

/-- What an image sets of one of the trees T4..T7: a user strobe or a user clock, and its source (R61). -/
structure TreeCfg where
  strobe : Bool
  source : TreeSource
  deriving DecidableEq, Repr

/-- Where a token is captured: a cell's stage, a STAGE cell's second stage, a hop stage of a word channel, an isolation cell, a crossing element into a
clocked cluster, the pin crossbar at a fabric output (R148), the source of one of the trees T4..T7, the block memory or hard port at which a route's last hop
stage ends, or the hard port beyond an isolation cell. -/
inductive Site where
  | cell (region : Fin 40) (index : Fin 65536)
  | second (region : Fin 40) (index : Fin 65536)
  | word (region : Fin 40) (hop : Hop)
  | iso (i : IsoSite)
  | element (region : Fin 40) (k : Nat)
  | fout (region : Fin 40) (bit : Fin 8)
  | tree (t : Fin 4)
  | port (region : Fin 40) (hop : Hop)
  | hardPort (i : IsoSite)
  deriving DecidableEq, Repr

/-- Where a captured token came from: a stage of the fabric, a strobe tap (R63), the event channel or the mailbox event
channel of a region (R533, R362). -/
inductive TokenFrom where
  | stage (s : Site)
  | tap (region : Fin 40) (tree : Fin 8) (index : Nat)
  | eventChannel (region : Fin 40)
  | mailboxChannel (region : Fin 40)
  deriving DecidableEq, Repr

/-- What the model does not hold of the inputs that a stage meets: the codes on wires of outside producers, by number, and the inputs, by place, on which a
configuration upset or a defect leaves the illegal code (R24, R57). -/
structure Arrivals where
  wires : List (Nat × Rail)
  upset : List Nat
  deriving DecidableEq, Repr

/-- The ports of a block memory. -/
inductive BmPort where
  | A | B
  deriving DecidableEq, Repr

/-- How requests reach a cluster arbiter: on one input, or on both within its resolution window (R34). -/
inductive ArbReq where
  | one (input : Fin 2)
  | both
  deriving DecidableEq, Repr

/-- How a program of the non-volatile memory ended: done, done in a spare block, or with no spare to take it (R436,
R540). -/
inductive ProgResult where
  | done | replaced | unreplaceable
  deriving DecidableEq, Repr

/-- Who receives a poison token (R96); `requester`: a requester of stacked memory other than a fabric cache agent (R297). -/
inductive PoisonTo where
  | agentPort (agent port : Nat)
  | controlPort (region : Nat)
  | stream (id : Nat)
  | bar0
  | postroom
  | requester (who : Fin 39)
  deriving DecidableEq, Repr

/-- How a fault of R119 or a suspension of R122 ends: a pair of an encoder input (0 A, 1 B, 2 Z) has been valid for
4 µs, or the clearing condition of a fault code 2..5 is met on an axis. -/
inductive FaultEnd where
  | pair (input : Fin 8) (pair : Fin 3)
  | axis (a : Fin 8) (code : Fin 6)
  deriving DecidableEq, Repr

/-- How the load measurement of one pin ended (R142). -/
inductive LoadResult where
  | measured (sixteenths : Nat) | noEdge | aborted
  deriving DecidableEq, Repr

/-- A token of a word channel (R56, R58): its tag in bits [35:32], its data in bits [31:0]. -/
abbrev WordToken := BitVec 36

/-- The data words of a block memory request (R68). -/
structure BmData where
  low : WordToken
  high : WordToken
  deriving DecidableEq, Repr

/-- A data token of an agent port's bundle (R76): channel i carries bytes 4i..4i + 3 of a half-line, and on a request the mask of those bytes in its tag. -/
structure HalfLine where
  c0 : WordToken
  c1 : WordToken
  c2 : WordToken
  c3 : WordToken
  c4 : WordToken
  c5 : WordToken
  c6 : WordToken
  c7 : WordToken
  deriving DecidableEq, Repr

/-- What an access to the stack through its home and line seal engine meets (R310, R329, R330): the stack's error report,
the bits of a sealed line that come changed with no error reported, the level of a fetched metadata node that comes changed, or is what an uncorrectable
report is about (0: none), and the nodes evicted from the metadata cache, as (level, index in the stack). -/
structure Touch where
  ecc : Ecc
  upset : BitVec 512
  badLevel : Nat
  evicted : List (Nat × Nat)
  deriving DecidableEq, Repr

/-- An access that meets nothing: no error, and everything it needs in the metadata cache. -/
def Touch.clean : Touch := ⟨.clean, 0, 0, []⟩

/-- The requests of R302 that a slice serves, but for writebacks. -/
inductive HomeKind where
  | rdShared | rdOwn | rdCur | wrPtl
  deriving DecidableEq, Repr

/-- A request at a slice (R302): its requester (R297), for RD_OWN whether it is made from S, for WR_PTL its data and byte
mask, and what the stack access it causes meets. -/
structure HomeReq where
  kind : HomeKind
  who : Fin 39
  fromS : Bool
  data : BitVec 512
  mask : BitVec 64
  touch : Touch
  deriving DecidableEq, Repr
/-- A 4 KiB block of the store, byte 0 least significant (R338). -/
abbrev StoreBlock := BitVec 32768

/-- What a drive answers as a block is read (R338, R343): the block, and the nodes above it that the node cache lacks, as level, index and the content of the
current copy. -/
structure DriveRead where
  content : StoreBlock
  nodes : List (Fin 7 × Nat × StoreBlock)
  deriving DecidableEq, Repr

/-- A job product's data on its way into its slot (R392): the job product number and the data. -/
structure SpoolFill where
  product : BitVec 32
  data : List Byte
  deriving DecidableEq, Repr

/-- A volume as a label lists it (R336), and the current copy of a sealed one's top node as the drive holds it (R343). -/
structure LabelVol where
  uid : BitVec 64
  kind : Fin 6
  isSealed : Bool
  start : Nat
  size : Nat
  name : List Byte
  top : StoreBlock
  deriving DecidableEq, Repr

/-- A copy of a Kweath label (R336): whether its CRC-32 holds, and its volume table. -/
structure LabelCopy where
  sound : Bool
  vols : List LabelVol
  deriving DecidableEq, Repr

/-- A namespace of a drive (R335, R336): its identifier, whether its format is one that is used, its size in blocks, and what its store blocks 0..255 hold of the
two copies of a label. -/
structure SpaceInfo where
  nsid : Nat
  usable : Bool
  blocks : Nat
  first : Option LabelCopy
  second : Option LabelCopy
  deriving DecidableEq, Repr

/-- What the firmware finds on a drive that comes up (R335, R336): its serial number and its active namespaces. -/
structure DriveInfo where
  serial : List Byte
  spaces : List SpaceInfo
  deriving DecidableEq, Repr

/-- The writes that a drive completes (R341): the snapshot nodes of a volume's commit, or a label of a drive. -/
inductive DriveWrite where
  | nodes (uid : BitVec 64)
  | label (port : Fin 8)
  deriving DecidableEq, Repr

/-- A request at a drive that ends (R393): the volume, whether it wrote, its offset, how it ended and the bytes done, and of a write to a sealed volume the
plain blocks that passed through the seal engine (R338). -/
structure IoEnd where
  uid : BitVec 64
  write : Bool
  offset : Nat
  status : Status
  done : Nat
  blocks : List StoreBlock
  deriving DecidableEq, Repr

/-- What JOB.OPEN reads from the volume (R390, R391): the header and, where it has one, the product table; or how the read
failed. -/
inductive JobRead where
  | failed (status : Status)
  | data (header table : List Byte)
  deriving DecidableEq, Repr

/-- A message of a stitch partner (R203, R208): a follower's verdict on a product, map entries of the overlap as (nozzle, byte), or
that a follower has inhibited. -/
inductive StitchMsg where
  | verdict (index : Int) (code : Fin 4)
  | overlap (generation : Nat) (entries : List (Nat × Byte))
  | mismatch
  deriving DecidableEq, Repr

/-- A series definition as members exchange it (R224, R232). -/
structure SeriesDef where
  id : BitVec 32
  first : BitVec 64
  limit : BitVec 64
  proofFirst : BitVec 64
  proofLimit : BitVec 64
  size : Nat
  low : Nat
  step : Nat
  deriving DecidableEq, Repr

/-- What travels between members about what they journal: a proposed member table, an acknowledgement of a member, that all have acknowledged, or that it
is discarded (R233); and a series definition (R224). -/
inductive TableMsg where
  | propose (table : List (BitVec 64 × Fin 16))
  | ack (m : Fin 32)
  | force
  | discard
  | series (d : SeriesDef)
  deriving DecidableEq, Repr

/-- How a roll-call has come so far: its hop count and how its sender's last load ended (R216, R432). -/
structure RollHop where
  count : Nat
  outcome : Fin 4
  deriving DecidableEq, Repr

/-- A release as it arrives (R222): at the east port or the west one, the member that released, its hop count, and the highest sequence by origin. -/
structure StopRelease where
  east : Bool
  sender : Fin 32
  hop : Nat
  upTo : List (Fin 32 × BitVec 16)
  deriving DecidableEq, Repr

/-- What a lane reset, or a link's entry to DORMANT, discards of its octet's crossing queues, who receives a poison token for it, and the postmarks
of the fire lines among it (R94, R95, R247, R292). -/
structure Lost where
  entries : Fin 65
  targets : List PoisonTo
  lines : List (BitVec 64)
  deriving DecidableEq, Repr

/-- An express slot as a receiver decides it (R273, R275): its link, the lane it came on, its SEQ, and the 61 bytes of BODY and TYPE of its flit, as they
came off the line and as the decoding corrected them; a polarity that PROBE found inverted is not undone in them yet (R265). -/
structure Slot where
  link : Fin 144
  lane : Fin 8
  seq : BitVec 16
  raw : List Byte
  decoded : List Byte
  deriving DecidableEq, Repr

/-- A RING_STOP slot on a ring port, the east or the west one, as in `Slot`. -/
structure RingSlot where
  east : Bool
  seq : BitVec 16
  raw : List Byte
  decoded : List Byte
  deriving DecidableEq, Repr

/-- A frame that a lane of a link has decoded, and what became of it (R267). -/
structure FrameResult where
  lane : Fin 8
  ecc : Ecc
  deriving DecidableEq, Repr

/-- The 64 bytes of the training frame that came on each lane of a link, none where none did; for each lane of this end in ascending order, its number in the
partner's order; and the lanes whose polarity is inverted (R265, R283). -/
structure TrainedLanes where
  frames : List (List Byte)
  order : List (Fin 8)
  inverted : BitVec 8
  deriving DecidableEq, Repr

/-- Transmit taps as a protocol's training leaves them on a lane: PRE and POST in 1/64 (R241). -/
structure Taps where
  pre : BitVec 5
  post : BitVec 6
  deriving DecidableEq, Repr

/-- The rate that a PCI Express link trained to, 1..6 for 2.5..64.0 GT/s (R262), and the taps of its lanes in ascending order. -/
structure TrainedRate where
  code : BitVec 3
  taps : List Taps
  deriving DecidableEq, Repr

/-- Whether the link of an Ethernet port is up, and with what taps on its lanes in ascending order. -/
structure EthUp where
  up : Bool
  taps : List Taps
  deriving DecidableEq, Repr

/-- The lanes of a link on which EQUALIZE is met, and the taps that training left on each selected lane, by its number in the mask (R241, R283). -/
structure Equalized where
  lanes : BitVec 8
  taps : List Taps
  deriving DecidableEq, Repr

/-- A lane whose error count is read, and the bit errors that its PRBS checker has found since the count was last read or cleared (R261). -/
structure PrbsRead where
  lane : Fin 144
  errors : BitVec 32
  deriving DecidableEq, Repr

/-- An octet whose PLL loses lock, and whether it is its reference that it lost (R238). -/
structure PllLoss where
  octet : Fin 18
  reference : Bool
  deriving DecidableEq, Repr

/-- A partner's CAPABILITY (R287). -/
structure Capability where
  cls : BitVec 8
  flags : BitVec 8
  revision : BitVec 16
  credits : BitVec 8 × BitVec 8 × BitVec 8 × BitVec 8
  rxFix : BitVec 32
  prep : BitVec 32
  nozzles : BitVec 32
  nextSeq : BitVec 32
  deriving DecidableEq, Repr

/-- A flit as it is received (R266): its lane, its TYPE byte, the replayable sequence that counts it (R276), and its body, with its lane's polarity as it came. One of KIND 2 is an express slot
that neither check accepts or whose CODE is unknown (R275); the others and the markers have commands of their own. -/
structure RxFlit where
  lane : Fin 8
  type : Byte
  seq : BitVec 32
  body : List Byte
  deriving DecidableEq, Repr

/-- A segment record of an image (R410): the ciphertext, and of its trailer TAG_i, N(i+1) and the last four bytes. -/
structure Segment where
  cipher : List Byte
  tag : BitVec 128
  next : BitVec 96
  pad : BitVec 32
  deriving DecidableEq, Repr

/-- An image as its source gives it to the loader (R408): the header, the segment records and the trailer; the segment where a word is uncorrectable, with
its logical block, and how many words were corrected (R404); whether the flash answered without a bus error; whether a broadcast arrived whole; and the
segment that CFG_FAIL names where the image's CRC fails, which no rule fixes; and the logical blocks whose program failed its verification as a slot was
written (R436). -/
structure ImageFacts where
  header : List Byte
  segments : List Segment
  trailer : List Byte
  uncorr : Option (BitVec 16 × BitVec 12)
  corrected : Nat
  busOk : Bool
  whole : Bool
  crcAt : BitVec 16
  unprogrammed : List (BitVec 12)
  deriving DecidableEq, Repr

/-- What those sections of a region image configure whose encoding no rule gives (R412): its identifier, its cells, the ratios of its block memories, its
output monitors as (number, per count, constraint in tokens × 2^16), whether it declares an inspection port, its margin in percent and clocked floor as a
voltage code; the hop stages of its routes, its crossing elements, the bits that drive its
fabric outputs, each with its tile, and how many verdicts were overridden (R46). -/
structure RegionBody where
  ident : BitVec 64
  cells : List (Fin 65536 × CellCfg)
  memories : List (Fin 192 × Aspect × Aspect)
  monitors : List (Fin 8 × Bool × Nat)
  inspects : Bool
  margin : Option (BitVec 8)
  floor : BitVec 8
  words : List (Hop × WordCfg)
  elements : List (Nat × ElementCfg)
  fouts : List (Fin 8 × Fin 256 × Source)
  overridden : Nat
  deriving DecidableEq, Repr

/-- What a full image configures (R412): register settings of its DEVICE section as (address, word), its mailbox table, its regulator table as
(entry, address, page, rail: 0 VIN_FAB, 1 VAON, 2 + b VIO_BANKb, 14 a board rail), the isolation cells set to ABSORB, its regions, how many
verdicts were overridden, and the trees T4..T7 it sets (R61). -/
structure FullBody where
  settings : List (Nat × Word)
  owners : Option (List (BitVec 8))
  regulators : List (Fin 16 × BitVec 7 × BitVec 8 × Fin 15)
  absorb : List IsoSite
  regions : List (Fin 40 × RegionBody)
  overridden : Nat
  trees : List (Fin 4 × TreeCfg)
  deriving DecidableEq, Repr

/-- Which directory copies a start can use (R406): the one written last, only the one before it, or none. -/
inductive DirRead where
  | newest | older | none
  deriving DecidableEq, Repr

/-- What a start finds (R406, R415, R416, R502): the straps, which directory copies pass, the cause of R414 that each firmware copy fails
under (0 none), how many fuses of each group of R502 read blown, which wrapped-key records fail (bit 0 KI, 1 KV, 2 KS, 3 KA), and the GRADE and unique
identifier that the fuses hold (R19). -/
structure StartFacts where
  boot : BitVec 2
  directory : DirRead
  copyA : BitVec 8
  copyB : BitVec 8
  fuses : List Nat
  badKeys : BitVec 4
  franker : Bool
  newestLog : Option Nat
  grade : Bool
  uid : BitVec 64
  deriving DecidableEq, Repr

/-- What the scrubber finds in a frame (R452, R453): nothing, one flipped bit of a configuration byte, or a word with more. -/
inductive FrameRead where
  | clean
  | single (byte : Fin 4096)
  | double (word : Fin 64)
  deriving DecidableEq, Repr

/-- How an external regulator answers a poll (R464): not at all, or in a format (linear or not) with the fault flags of STATUS_WORD and its
voltage in mV. -/
inductive PollAnswer where
  | silent
  | answer (linear vout iout temp : Bool) (mv : BitVec 16)
  deriving DecidableEq, Repr

/-- The measurements of one millisecond (R481): rails in mV by monitor point, island voltages as codes, temperatures in 0.1 °C of the junction
sensors and the stacks, package power in 0.1 W, and its averages over 10 ms and 1 s. -/
structure Sense where
  rails : List Nat
  islands : List Nat
  temps : List Int
  power : Nat
  power10 : Nat
  power1000 : Nat
  deriving DecidableEq, Repr

/-- What a tick of the 1 GHz reference finds at a monitored channel beside the tokens that complete in it (R48): a token that the consumer has not acknowledged,
an empty channel with its consumer ready or not, or the return to spacer. -/
inductive TickPhase where
  | holds | empty (ready : Bool) | returning
  deriving DecidableEq, Repr

/-- Ticks of one kind in a window: how many tokens complete in each, and the phase beside them. -/
structure TickRun where
  completed : Nat
  phase : TickPhase
  ticks : Nat
  deriving DecidableEq, Repr

/-- One output monitor's window (R48, R49): its number and its ticks. -/
structure WindowCount where
  monitor : Fin 8
  runs : List TickRun
  deriving DecidableEq, Repr

/-- How a self-test slice ended (R517): its signature matched, a rerun matched, or a confirmed failure at a place: KIND and UNIT of
DEV_ST_FAIL, and both signatures. -/
inductive SliceEnd where
  | pass
  | transient
  | confirmed (kind : Fin 5) (unit : BitVec 13) (place signature expected : Nat)
  deriving DecidableEq, Repr

/-- A register access that the test access port makes (R513). -/
structure DebugAccess where
  write : Bool
  addr : BitVec 25
  bytes : Fin 9
  data : Word
  deriving DecidableEq, Repr

/-- A rising edge of a Z pair (R101, R122): its moment, and how long its level then lasts and the low level before it lasted. -/
structure ZEdge where
  time : Nat
  heldNs : Nat
  lowNs : Nat
  deriving DecidableEq, Repr
end Sys2Proof.Machine

namespace Sys2Proof
open Machine

/-- The commands of the block, one constructor per row of the table, in the table's order. -/
inductive Instr where
  | registerWrite (port : Port) (addr : BitVec 25) (bytes : Fin 9) (value : Word)
  | wideValueLowRead (port : Port) (addr : ReadAt)
  | regionControlAccess (region : Fin 40) (word0 word1 : BitVec 32)
  | tokenCapture (site : Site) (wires : List (Nat × Rail)) (upset : List Nat)
  | memCellRead (region : Fin 40) (cell : Fin 65536) (request : Arrivals)
  | memCellWrite (region : Fin 40) (cell : Fin 65536) (request data : Arrivals)
  | memCellSwap (region : Fin 40) (cell : Fin 65536) (request data : Arrivals)
  | arbiterRequest (region : Fin 40) (arbiter : Fin 8192) (req : ArbReq)
  | arbiterRelease (region : Fin 40) (arbiter : Fin 8192)
  | wakeStrobe (mask : BitVec 40)
  | monitorWindowEnd (region : Fin 40) (counts : List WindowCount)
  | strobeTapPulse (region : Fin 40) (tree : Fin 8) (index : Nat)
  | userClockLoss (tree : Fin 4)
  | userClockReturn (tree : Fin 4)
  | bmRead (region : Fin 40) (index : Fin 192) (port : BmPort) (word : WordToken) (moment : BmMoment)
  | bmWrite (region : Fin 40) (index : Fin 192) (port : BmPort) (word : WordToken) (data : BmData) (moment : BmMoment)
  | bmSwap (region : Fin 40) (index : Fin 192) (port : BmPort) (word low high : WordToken) (moment : BmMoment)
  | bmWriteAck (region : Fin 40) (index : Fin 192) (port : BmPort) (word : WordToken) (data : BmData) (moment : BmMoment)
  | agentRead (a p : Fin 16) (header : WordToken)
  | agentReadOwn (a p : Fin 16) (header : WordToken)
  | agentWrite (a p : Fin 16) (header : WordToken) (low high : HalfLine)
  | agentWriteNa (a p : Fin 16) (header : WordToken) (low high : HalfLine)
  | agentReadNa (a p : Fin 16) (header : WordToken)
  | agentFlush (a p : Fin 16) (header : WordToken)
  | agentStream (a p : Fin 16) (header : WordToken) (low high : HalfLine)
  | agentFence (a p : Fin 16) (header : WordToken)
  | agentReservedOp (a p : Fin 16) (header : WordToken)
  | domainStopped (domain : Fin 25)
  | domainRunning (domain : Fin 25)
  | freezeRequest (publisher : Published) (receiver : Receiver)
  | freezeTimeout (publisher : Published) (receiver : Fin 26)
  | crossingResetAssert (domain : Fin 25) (domainEnd : Bool)
  | crossingResetSeen (domain : Fin 25) (discarded : Fin 65) (targets : List PoisonTo)
  | crossingResetRelease (domain : Fin 25) (domainEnd : Bool)
  | crossingResyncSeen (domain : Fin 25)
  | crossingResyncAck (domain : Fin 25)
  | devXdropRead (port : Port) (domain : Fin 25)
  | encoderEdge (input : Fin 8) (pairA level : Bool) (time heldNs : Nat)
  | openFault (input : Fin 8) (pairA : Bool)
  | faultClear (what : FaultEnd)
  | deadReckoningEnd (axis : Fin 8)
  | velocityTimeout (axis : Fin 8)
  | positionWrap (axis : Fin 8) (forward : Bool)
  | zEdge (input : Fin 8) (edge : ZEdge)
  | zOpen (input : Fin 8)
  | beaconReceived (link : Fin 144) (baxis : Fin 8) (pos : BitVec 61) (vel : BitVec 32) (lost : Bool)
  | beaconTimeout (axis : Fin 8)
  | strobeCrossing (strobe : Fin 2) (forward : Bool) (time : Nat)
  | posAxStart (port : Port) (axis : Fin 8)
  | posAxStop (port : Port) (axis : Fin 8)
  | posAxRecover (port : Port) (axis : Fin 8)
  | axisCtlWrite (port : Port) (axis : Fin 8) (value : Word)
  | vspeedWrite (port : Port) (axis : Fin 8) (value : Word)
  | posSnap (port : Port)
  | axisPosRead (port : Port) (axis : Fin 8)
  | posAxErrcntRead (port : Port) (axis : Fin 8)
  | posStrbStatRead (port : Port) (strobe : Fin 2)
  | sorterInsert (port : Port) (n : Fin 64) (value : Word)
  | fabricSorterInsert (n : Fin 64) (entries : List (BitVec 128))
  | sorterRangeDrop (n : Fin 64)
  | sorterEntryDue (n : Fin 64) (postmark : BitVec 64)
  | sorterRelease (n : Fin 64) (after : Nat)
  | gateSpaceOpens (region : Fin 40) (gate : Fin 2)
  | sorterPop (port : Port) (n : Fin 64)
  | sorterPeek (port : Port) (n : Fin 64)
  | sorterFlush (port : Port) (n : Fin 64)
  | sorterCtlWrite (port : Port) (n : Fin 64) (value : Word)
  | srtErrRead (port : Port) (n : Fin 64)
  | placementHandover (n : Fin 64)
  | placementCommit (n : Fin 64) (moment : Nat)
  | edgePlaced (cell : Fin 192)
  | pulseReturnEdge (cell : Fin 192)
  | placementCellEnable (port : Port) (cell : Fin 192)
  | placementCellDisable (port : Port) (cell : Fin 192)
  | pinPlcCntRead (port : Port) (cell : Fin 192)
  | intrinsicDelayMeasure (bank : Fin 12) (delay : Nat)
  | pinCalLoad (port : Port) (value : Word)
  | pinCalPinDone (result : LoadResult)
  | gpioWrite (port : Port) (bank : Fin 12) (value : Word)
  | gpioMaskedWrite (port : Port) (group : Fin 3) (lanes : BitVec 8) (value : Word)
  | bankRangeWrite (port : Port) (bank : Fin 12) (value : Word)
  | bankRangeSwitch (bank : Fin 12)
  | bankRangeMismatch (bank : Fin 12)
  | pinLockArm (port : Port) (value : Word)
  | pinLockSet (port : Port) (value : Word)
  | bankSupplyRise (bank : Fin 12) (nominal : Fin 8)
  | pwmPeriodStart (generator : Fin 32)
  | channelCreate (letter : Letter)
  | channelBind (letter : Letter)
  | channelUnbind (letter : Letter)
  | channelRebind (letter : Letter)
  | channelStart (letter : Letter) (map : List Byte)
  | channelHold (letter : Letter)
  | channelResume (letter : Letter)
  | channelDrain (letter : Letter)
  | channelAbort (letter : Letter)
  | channelQuery (letter : Letter)
  | channelSetMode (letter : Letter)
  | productBegin (c : Fin 1024) (backward : Bool)
  | productLetterBudget
  | drainComplete (c : Fin 1024)
  | abortComplete (c : Fin 1024)
  | switchComplete (c : Fin 1024)
  | bindingCheck (c : Fin 1024)
  | underrunReport (c : Fin 1024)
  | linkDownTimeout (l : Fin 140)
  | volumeOfflineInhibit (c : Fin 1024)
  | vizonLine (l : Fin 140) (header data : List Byte)
  | productInspected (c : Fin 1024)
  | verdict (letter : Letter)
  | verdictDeadline (c : Fin 1024)
  | mapGenerationComplete (c : Fin 1024)
  | stitchCheck (link : Fin 144) (group : BitVec 16) (index : Int) (start : BitVec 64) (seed : BitVec 32) (modes : BitVec 4) (mapGen : BitVec 32)
  | stitchCheckMissing (c : Fin 1024)
  | triggerEdge (k : Fin 16) (rising held : Bool) (time : Nat)
  | ringJoinWrite (port : Port) (r : Fin 2) (value : Word)
  | bypassClose (r : Fin 2)
  | bypassOpen (r : Fin 2)
  | rollCallSend (r : Fin 2)
  | rollCallReceived (r : Fin 2) (east : Bool) (hop : RollHop) (m : Fin 32) (uid : BitVec 64) (crc : BitVec 32) (highs : List (BitVec 32 × BitVec 64)) (stops : List (Fin 32 × BitVec 16 × BitVec 8))
  | memberUnreachable (r : Fin 2) (m : Fin 32)
  | ringStateEvaluate (r : Fin 2)
  | ringStop (letter : Letter)
  | ringStopRegister (port : Port) (r : Fin 2)
  | ringReleaseStop (letter : Letter)
  | ringReleaseReceived (r : Fin 2) (upTo : StopRelease)
  | leaseSeriesDefine (letter : Letter)
  | leaseSeriesOpen (letter : Letter)
  | leaseRequest (letter : Letter)
  | leaseProposalReceived (r : Fin 2) (series : BitVec 32) (base : BitVec 64) (count : BitVec 32)
  | leaseAckReceived (r : Fin 2) (m : Fin 32) (series : BitVec 32) (base : BitVec 64) (ack : Bool) (high : BitVec 64)
  | leaseProposalTimeout (ring : Fin 3) (series : BitVec 32)
  | leaseRetry (ring : Fin 3) (series : BitVec 32)
  | leaseAutoRetry (ring : Fin 3) (series : BitVec 32)
  | leaseRetire (letter : Letter)
  | leaseQuery (letter : Letter)
  | auditFlush (ok : Bool)
  | reconcile (r : Fin 2) (defs : List SeriesDef) (highs : List (BitVec 32 × BitVec 64)) (leases : List (BitVec 32 × BitVec 64 × BitVec 32))
  | ringConfig (letter : Letter)
  | ringConfigTimeout (r : Fin 2)
  | ringQuery (letter : Letter)
  | octetEnable (port : Port) (octet : Fin 18) (value : Word)
  | octetPllLock (octet : Fin 18) (lost : List Lost)
  | octetDisable (port : Port) (octet : Fin 18) (value : Word) (lost : List Lost)
  | octetPllLoss (loss : PllLoss)
  | laneRateWrite (port : Port) (lane : Fin 144) (value : Word)
  | laneTxeqWrite (port : Port) (lane : Fin 144) (value : Word)
  | adaptDone (lane : Fin 144) (ctle : BitVec 5) (dfe : BitVec 96)
  | losAssert (lane : Fin 144) (announced : Bool)
  | losClear (lane : Fin 144)
  | laneLock (lane : Fin 144)
  | laneLol (lane : Fin 144)
  | laneReset (lane : Fin 144) (writer : Option Port) (lost : List Lost)
  | laneEnWrite (port : Port) (lane : Fin 144) (value : Word) (lost : List Lost)
  | laneCntRead (port : Port) (read : PrbsRead)
  | laneErrcntRead (port : Port) (lane : Fin 144)
  | octetProtoWrite (port : Port) (octet : Fin 18) (value : Word)
  | pciePerstAssert (lost : List Lost)
  | pciePerstRelease
  | hotReset
  | functionLevelReset (f : Fin 4)
  | drivePresent (j : Fin 8)
  | rpPerstRelease (j : Fin 8)
  | rpLinkUp (j : Fin 8) (width : BitVec 2) (rate : TrainedRate) (drive : Option DriveInfo)
  | rpContainment (j : Fin 8) (removed : Bool)
  | ethFrameReceived (e : Fin 80) (frame : List Byte) (fcsOk : Bool) (time : BitVec 64)
  | ethTxwrWrite (port : Port) (e : Fin 80) (q : Fin 16) (value : Word)
  | ethSlotSent (e : Fin 80) (q : Fin 16)
  | laneEthCntRead (port : Port) (e : Fin 80)
  | linkEnable (port : Port) (link : Fin 144) (value : Word)
  | linkDisable (port : Port) (link : Fin 144) (value : Word) (lost : List Lost)
  | frameDecoded (link : Fin 144) (result : FrameResult) (types : List Byte)
  | flitReceived (link : Fin 144) (flit : RxFlit)
  | markerReceived (link : Fin 144) (lane : Fin 8) (count : BitVec 32) (skew : Nat) (restripe : Bool)
  | flowSend (link : Fin 144)
  | expressStop (slot : Slot) (reason : BitVec 8)
  | expressGo (slot : Slot) (postmark : BitVec 64)
  | expressFlow (slot : Slot) (vl0 vl2 vl3 : BitVec 16)
  | expressAck (slot : Slot) (next : BitVec 32)
  | expressNak (slot : Slot) (missing : BitVec 32)
  | expressTiming (slot : Slot) (turnaround : BitVec 32)
  | expressTimingReply (slot : Slot) (turnaround : BitVec 32) (timing : BitVec 16) (arrived : BitVec 64) (lost : List Lost)
  | expressRingStop (r : Fin 2) (slot : RingSlot) (origin : Fin 32) (cause : BitVec 8) (seq : BitVec 16)
  | expressRetrainReq (slot : Slot)
  | expressWidthReq (slot : Slot) (mask : BitVec 8) (immediate : Bool) (missing : BitVec 32)
  | expressWidthAck (slot : Slot) (mask : BitVec 8)
  | expressLeave (slot : Slot) (lost : List Lost)
  | ackSend (link : Fin 144)
  | nakRepeat (link : Fin 144)
  | fireLineDeadline (lane : Fin 140) (postmark : BitVec 64)
  | beaconSend (link : Fin 144) (blocked : Bool)
  | timingSend (link : Fin 144)
  | timingTimeout (link : Fin 144)
  | trainingFrameReceived (link : Fin 144) (uid : BitVec 64) (lanes : TrainedLanes) (rate : BitVec 20) (lost : List Lost)
  | equalizeDone (link : Fin 144) (result : Equalized)
  | alignDone (link : Fin 144) (lanes : BitVec 8) (expects : BitVec 32)
  | capabilityReceived (link : Fin 144) (cap : Capability) (lost : List Lost)
  | linkStateTimeout (link : Fin 144) (lost : List Lost)
  | lnkCmdRetrain (port : Port) (link : Fin 144)
  | lnkCmdWidth (port : Port) (link : Fin 144) (mask : BitVec 8)
  | widthReqResend (link : Fin 144)
  | widthLanesAdded (link : Fin 144) (aligned : Equalized)
  | widthSwitchMarker (link : Fin 144)
  | laneFailure (link : Fin 144) (lanes : BitVec 8)
  | linkSilenceTimeout (link : Fin 144)
  | backoffExpired (link : Fin 144)
  | activeHeld (link : Fin 144)
  | lnkCntRead (port : Port) (link : Fin 144) (which : Fin 4)
  | homeRdShared (l : BitVec 32) (r : HomeReq) (same : List HomeReq)
  | homeRdOwn (l : BitVec 32) (r : HomeReq) (same : List HomeReq)
  | homeRdCur (l : BitVec 32) (r : HomeReq) (same : List HomeReq)
  | homeWrPtl (l : BitVec 32) (r : HomeReq) (same : List HomeReq)
  | homeWbDirty (l : BitVec 32) (who : Fin 20) (data : BitVec 512) (same : List HomeReq)
  | homeEvictClean (l : BitVec 32) (who : Fin 20)
  | homeRspI (l : BitVec 32) (who : Fin 20)
  | homeRspS (l : BitVec 32) (who : Fin 20)
  | homeRspData (l : BitVec 32) (who : Fin 20)
  | homeRspWbPending (l : BitVec 32) (who : Fin 20)
  | homeCmpAck (l : BitVec 32) (who : Fin 20)
  | agentSnpInv (l : BitVec 32) (a : Fin 20) (wrote : Option (BitVec 512))
  | agentSnpShare (l : BitVec 32) (a : Fin 20) (wrote : Option (BitVec 512))
  | agentSnpCur (l : BitVec 32) (a : Fin 20) (wrote : Option (BitVec 512))
  | agentDataS (l : BitVec 32) (a : Fin 20) (victim : Option (BitVec 32))
  | agentDataE (l : BitVec 32) (a : Fin 20) (victim : Option (BitVec 32))
  | agentCmp (l : BitVec 32) (who : Fin 39)
  | agentWbAck (l : BitVec 32) (a : Fin 20)
  | patrolRead (l : BitVec 32) (ecc : Ecc)
  | stackTempSample (k : Fin 4) (temp : BitVec 8)
  | stackResyncRequest (k : Fin 4) (a : Fin 20)
  | stackResyncDone (k : Fin 4)
  | stackFillDone (k : Fin 4)
  | memStkEcntRead (port : Port) (k : Fin 4)
  | memHomeCntRead (port : Port) (k : Fin 4)
  | granuleSeal (port : Port) (g : BitVec 8)
  | granuleUnseal (port : Port) (g : BitVec 8)
  | conversionComplete
  | commitStart (uid : BitVec 64)
  | commitFlushDone (uid : BitVec 64) (ok : Bool)
  | commitDone (uid : BitVec 64)
  | storeBlockRead (uid : BitVec 64) (block : BitVec 36) (content : DriveRead)
  | sealStoreCntRead (port : Port)
  | sealLineCntRead (port : Port) (k : Fin 4)
  | mailboxDoorbell (port : Port) (mailbox : Fin 64) (value : Word)
  | replyHeadWrite (port : Port) (mailbox : Fin 64) (value : Word)
  | mailboxSignal (mailbox : Fin 64)
  | ringPeerLetter (owner : BitVec 8) (mailbox : Fin 64) (bytes : List Byte)
  | mailboxReset (mailbox : Fin 64) (ownerEvent : Bool)
  | postroomRestart (outcomes : List (Letter × Reply))
  | lockAcquire (port : Port) (lock : Fin 256)
  | lockRelease (port : Port) (lock : Fin 256) (value : Word)
  | deviceInfo (letter : Letter)
  | deviceMailboxAssign (letter : Letter)
  | deviceTimeSet (letter : Letter)
  | deviceTimeGet (letter : Letter)
  | deviceReset (letter : Letter)
  | deviceShutdown (letter : Letter)
  | powerState (letter : Letter)
  | powerQuery (letter : Letter)
  | powerMargin (letter : Letter)
  | powerRail (letter : Letter)
  | regulatorPoll (answers : List (Fin 16 × PollAnswer))
  | regulatorAlert
  | configSlots (letter : Letter)
  | configWrite (letter : Letter)
  | configWriteComplete (facts : ImageFacts)
  | configSelect (letter : Letter)
  | configReload (letter : Letter)
  | configBroadcast (letter : Letter)
  | regionImageOpen (letter : Letter) (facts : ImageFacts)
  | regionImageClose (letter : Letter)
  | regionLoad (letter : Letter)
  | regionReset (letter : Letter)
  | regionQuery (letter : Letter)
  | regionLoadComplete (facts : ImageFacts) (body : RegionBody)
  | initRestoreDone (region : Fin 40) (ok : ImageFacts)
  | isolationEnd (region : Fin 40)
  | channelHealthSet (letter : Letter)
  | channelHealthQuery (letter : Letter)
  | jobOpen (letter : Letter) (read : JobRead)
  | jobClose (letter : Letter)
  | jobQuery (letter : Letter)
  | spoolSlotFilled (c : Fin 1024) (n : SpoolFill)
  | storeQuery (letter : Letter)
  | storeFormat (letter : Letter)
  | storeVolCreate (letter : Letter)
  | storeVolResize (letter : Letter)
  | storeVolDelete (letter : Letter)
  | storeVolOpen (letter : Letter)
  | storeVolClose (letter : Letter)
  | storeRead (letter : Letter)
  | storeWrite (letter : Letter)
  | storeIoComplete (e : IoEnd)
  | storeFlush (letter : Letter)
  | storeSetCommit (letter : Letter)
  | sealConvert (letter : Letter)
  | sealQuery (letter : Letter)
  | sealPool (letter : Letter)
  | axisSetup (letter : Letter)
  | axisStart (letter : Letter)
  | axisStop (letter : Letter)
  | axisRecover (letter : Letter)
  | axisQuery (letter : Letter)
  | pinCalibrate (letter : Letter)
  | pinHeaterSet (letter : Letter)
  | pinHeaterQuery (letter : Letter)
  | heaterPeriod (loop : Fin 32)
  | heaterAlarm (loop : Fin 32)
  | linkEthQueue (letter : Letter)
  | linkEthSteer (letter : Letter)
  | linkQuery (letter : Letter)
  | testSetBudget (letter : Letter)
  | testQuery (letter : Letter)
  | testRun (letter : Letter)
  | logRead (letter : Letter)
  | logRoute (letter : Letter)
  | logAuditBind (letter : Letter)
  | perfClaim (letter : Letter)
  | perfRelease (letter : Letter)
  | perfUser (letter : Letter)
  | keyStatus (letter : Letter)
  | keyAuditExport (letter : Letter)
  | keyAuditRotate (letter : Letter)
  | keyProvision (letter : Letter) (unprogrammed : List (Fin 16))
  | keyLock (letter : Letter)
  | keyReturn (letter : Letter)
  | keyScrap (letter : Letter)
  | keyGoldenWrite (letter : Letter)
  | firmwareWatchdog
  | imageStreamDone (facts : ImageFacts) (body : FullBody)
  | cfgRelease
  | cfgDoneHigh (outcomes : List (Fin 32 × Fin 3))
  | doneWaitTimeout
  | cfgGo (port : Port) (value : Word)
  | broadcastWaitTimeout
  | broadcastPollReceived (ring : Fin 2) (key : BitVec 8)
  | broadcastGapTimeout
  | xspiRequest (port : Port) (q : Fin 4) (addr : Word)
  | nvmEraseDone (block : Fin 4014) (verified : Bool)
  | nvmEraseResume
  | cfgNvmCntRead (port : Port)
  | scrubFrameRead (read : FrameRead)
  | frameRefetchDone (ok : ImageFacts)
  | cfgIsoCntRead (port : Port) (region : Fin 40)
  | cfgRgnUpsetRead (port : Port) (region : Fin 40)
  | cfgScrubCntRead (port : Port)
  | regFault (site : Fin 40 ⊕ Fin 32)
  | senseSample (sense : Sense)
  | monitorCrossing (point : Fin 32) (side : Fin 3) (deep : Bool)
  | bankSupplyLossHold (bank : Fin 12)
  | ageMeasure (region : Fin 40) (age : BitVec 12)
  | thermalTrip
  | wakeNLow
  | wakeAlarm
  | wakeAxisDistance
  | wakePerst
  | mainSupplyGood
  | ainConversion (input : Fin 16) (code : BitVec 16) (broken : Bool)
  | ainStale (input : Fin 16)
  | pwrRgnLoopRead (port : Port) (region : Fin 40)
  | vaonRise
  | vaonLoss
  | supplyStable (facts : StartFacts)
  | regulatorsUp (facts : StartFacts)
  | resetNLow
  | resetNHigh (facts : StartFacts)
  | stackTrained (stack : Fin 4)
  | devRstDevice (port : Port) (value : Word)
  | devRstFabric (port : Port) (value : Word)
  | deviceResetEntry (facts : StartFacts)
  | fabricResetDone
  | islandReset (port : Port) (value : Word) (lost : List (Fin 144 × Lost))
  | islandResetRelease (domain : Fin 25)
  | rngStartupTestDone (source : Fin 64) (rct apt : Bool)
  | rngHealthFail (source : Fin 64) (apt : Bool)
  | rngReseed
  | rngDataRead (port : Port)
  | devRngStatRead (port : Port)
  | tapInstruction (code : BitVec 8)
  | tapScan
  | tapDebugAccess (access : DebugAccess)
  | selfTestSliceDone (result : SliceEnd) (ms : Nat)
  | eventRaise (source : Fin 256)
  | evtUserWrite (port : Port) (value : Word)
  | perfClear (port : Port) (counter : Fin 256) (value : Word)
  | perfWrap (counter : Fin 256) (increment : Fin 65)
  | perfCountRead (port : Port) (counter : Fin 256)
  | perfSample (counter : Fin 256)
  | logRecordWrite (result : ProgResult)
  | logAllowanceTick
  | evtLogLostRead (port : Port)
  | frankerSave (port : Port) (value : Word) (result : ProgResult)
  | frankerLoad (port : Port) (value : Word)
  | frankerTrigger (postmark : BitVec 64)
  | frankerRestore
  | frankerRecoverRetry
  | devFrkMissRead (port : Port)
  | devFrkStatRead (port : Port)
  | userClockEdge (tree : Fin 4) (wires : List (Fin 40 × List (Nat × Rail)))
  | pinInputChange (pin : Fin 192) (drive : Option Bool)
  | firmwareReady
  | endpointLinkUp (width : BitVec 3) (rate : TrainedRate) (flit : Bool)
  | ethLinkChange (e : Fin 80) (link : EthUp) (localFault remoteFault : Bool)
  | headDriverStatus (l : Fin 140) (failed : List Nat)
  | stitchPartnerMessage (link : Fin 144) (group : BitVec 16) (m : StitchMsg)
  | stitchLinkTimeout (link : Fin 144)
  | ringConfigReceived (r : Fin 2) (m : TableMsg)
  | broadcastAnswerReceived (ring : Fin 2) (member : Fin 32) (accept : Bool)
  | broadcastPollTimeout
  | laneRejoin (lane : Fin 144)
  | driveWriteDone (w : DriveWrite) (ok : Bool)
  | testLogicReset
  deriving DecidableEq, Repr

end Sys2Proof
end

