-- ==== Sys2Proof/Decode.lean ====
section
/-! DEFINITION. The commands that words spell. No row of the block's table gives its command any bits: a command reaches the block as an operation or an
event with its operands, so that no word spells one. -/

namespace Sys2Proof

/-- The command that a word of the table's bits spells: none, as no row gives bits. -/
def decodeTableWord (_nbits _w : Nat) : Option Instr := none

end Sys2Proof
end

