-- ==== Sys2Proof/Config.lean ====
section
/-! DEFINITION. What the spec leaves free: values no rule fixes, as constants with no body, applied to a counter of the
state, so that a claim about them holds whatever they are. -/

namespace Sys2Proof.Config

/-- The n-th value that no rule fixes (a contested grant of R34, a draw of the random number generator of R512, an
undriven level), as a number; its user reduces it to the width it needs. -/
opaque freeValue : Nat → Nat

/-- AES-256 (R324, R325, R410, R505): a key names a permutation of the 128-bit blocks. No rule of the spec is about the numbers it gives. -/
opaque aes (key : BitVec 256) : Equiv.Perm (BitVec 128)

/-- SHA-256 (R231, R411, R505, R506). No rule of the spec is about the numbers it gives. -/
opaque sha256 (msg : List (BitVec 8)) : BitVec 256

/-- The keys that Kweath fuses into a device (R504): 0 the root key KR, 1 the provisioning key KP, 2 the firmware key. They are unique per unit, and no rule
gives them. -/
opaque fusedKey (which : Nat) : BitVec 256

/-- The load slope of R141 for a bank range and a DRIVE setting, in steps of 15.625 ps per 1/16 pF of load; no rule gives
its values. -/
opaque loadSlope (range drive : Nat) : Nat

/-- The CODE of a firmware logbook record (R537), by what it records (0 channel report, 1 marked product, 2 mapping not restored, 3 verdict
ignored, 4 overridden Colec verdict, 5 transient self-test failure, 6 TRIP, 7 confirmed self-test failure); no rule gives the codes. -/
opaque recordCode (what : Nat) : BitVec 16

/-- The byte that names a cause of R343 or R344 (1 FOREIGN, 2 RETIRED, 3 ROLLBACK, 4 DUPLICATE); no rule gives the codes. -/
opaque refusalCode (cause : Nat) : BitVec 8

/-- The volume index that SEAL_STORE_ERRVOL shows for a volume; no rule says how volumes are indexed. -/
opaque volumeIndex (uid : Nat) : BitVec 10

/-- The CRC-32 of a member table that a roll-call carries (R216); no rule says over which bytes it runs. -/
opaque tableCrc (table : List (Nat × Nat)) : BitVec 32

/-- The whole length in bytes of a message on a virtual lane that carries neither fire lines nor Vizon lines, from its first bytes:
each message's header fixes it (R272), and no rule gives the layout of those headers. -/
opaque messageLength (vl : Nat) (head : List (BitVec 8)) : Nat

/-- The device's own fixed transmit delay at a rate, in ps (R282); no rule gives its values. -/
opaque txFix (rate : Nat) : Nat

/-- The device's own fixed receive delay at a rate, in ps, as CAPABILITY carries it (R280, R287); no rule gives its values. -/
opaque rxFix (rate : Nat) : Nat

/-- The FLAGS that the device sends in CAPABILITY (R287); no rule says which it sets. -/
opaque capFlags : BitVec 8

/-- The receive buffer that the device declares for a virtual lane in CAPABILITY, in units of 16 flits beyond the least 1 (R271). -/
opaque capCredits (vl : Nat) : BitVec 8

/-- The PREP that the device sends in CAPABILITY (R287); no rule gives it. -/
opaque capPrep : BitVec 32

/-- The dots of one column of a glyph of the Franker's fonts (R547), dot i in bit i; no rule gives the glyphs. -/
opaque glyph (font code column : Nat) : Nat

/-- The width and height of a font code that R546 does not list. -/
opaque fontSize (font : Nat) : Nat × Nat

/-- What a Franker field with a KIND or FORMAT that R547 does not list prints. -/
opaque fieldText (kind format : Nat) : List (BitVec 8)

/-- The 64-byte lines of a channel's camera ring (R195); no rule gives its size. -/
opaque cameraLines : Nat

/-- The 64-byte lines of a channel's line-delay buffer (R207); no rule gives its size. -/
opaque delayLines : Nat

/-- The first 60 bytes of a training frame from what it carries (R283); no rule gives where each field stands. -/
opaque trainingBody (uid index present rate revision moment : Nat) : Fin 60 → BitVec 8

/-- The bytes of a message of the firmware on the control virtual lane (R269), by what it is and its contents: 0 on a ring, 1 to a stitch partner. No rule
gives their layout. -/
opaque controlMessage (what kind : Nat) (data : List Nat) : List (BitVec 8)

/-- The bytes of the broadcast of a slot on the bulk virtual lane (R431); no rule gives its framing. -/
opaque streamBytes (slot : Nat) : List (BitVec 8)

end Sys2Proof.Config
end

