-- ==== Sys2Proof/Machine/Operands.lean ====
section
/-! DEFINITION. The operand forms of commands and letters: little-endian fields of bodies (R372), two's complement
numbers of the manual's widths, and the modular difference of positions (R109). -/

namespace Sys2Proof.Machine

/-- The region that a slice tests (R515). -/
def sliceRegion (k : Nat) : Option Nat :=
  if k < 320 then some (k / 8) else if k < 400 then some ((k - 320) / 2) else none

/-- `n` bytes of `v`, least significant first (R5, R372). -/
def le : Nat → Nat → List Byte
  | 0, _ => []
  | n + 1, v => BitVec.ofNat 8 v :: le n (v / 256)

/-- The number that a list of bytes spells, least significant first. -/
def ofLe : List Byte → Nat
  | [] => 0
  | b :: t => b.toNat + 256 * ofLe t

/-- Bytes `off` to `off + n - 1` of a body, as a number; bytes past its end read as 0. -/
def rd (body : List Byte) (off n : Nat) : Nat := ofLe ((body.drop off).take n)

/-- The two's complement value of the low `w` bits of `v`. -/
def signed (w v : Nat) : Int :=
  let u := v % 2 ^ w
  if u < 2 ^ (w - 1) then (u : Int) else (u : Int) - (2 ^ w : Nat)

/-- The `w` bits that hold `x` in two's complement. -/
def bits (w : Nat) (x : Int) : Nat := (x % (2 ^ w : Nat)).toNat

/-- The difference d(p, x) of two positions of one axis, in 1/65,536 count (R109). -/
def pmDiff (p x : Nat) : Int := signed 61 (p % 2 ^ 61 + 2 ^ 61 - x % 2 ^ 61)

/-- A position moved by `d` 1/65,536 counts, in the 61 bits of R108. -/
def pmAdd (p : Nat) (d : Int) : Nat := bits 61 ((p % 2 ^ 61 : Nat) + d)

/-- The axis a postmark names (R108). -/
def pmAxis (p : Nat) : Nat := p / 2 ^ 61 % 8

/-- The postmark of a position on axis `a` (R108). -/
def pmMake (a p : Nat) : Nat := a % 8 * 2 ^ 61 + p % 2 ^ 61

/-- One count, in the units of d. -/
def oneCount : Nat := 65536

/-- Bit `b` of a mask. -/
def bitOf (m b : Nat) : Bool := m.testBit b

/-- A mask with bit `b` set. -/
def orBit (m b : Nat) : Nat := m ||| 2 ^ b

/-- A mask with bit `b` cleared. -/
def clearBit (m b : Nat) : Nat := if m.testBit b then m ^^^ 2 ^ b else m

/-- The data bits and the tag of a word token (R56, R58). -/
def WordToken.data (w : WordToken) : Nat := w.toNat % 2 ^ 32
def WordToken.tag (w : WordToken) : Nat := w.toNat / 2 ^ 32

/-- The channels of a half-line, in order. -/
def HalfLine.channels (h : HalfLine) : List WordToken := [h.c0, h.c1, h.c2, h.c3, h.c4, h.c5, h.c6, h.c7]

/-- The 256 bits of a half-line and the mask of its 32 bytes (R76). -/
def HalfLine.data (h : HalfLine) : Nat := h.channels.foldr (fun w v => v * 2 ^ 32 + w.toNat % 2 ^ 32) 0
def HalfLine.mask (h : HalfLine) : Nat := h.channels.foldr (fun w v => v * 2 ^ 4 + w.toNat / 2 ^ 32) 0

/-- 1 for true and 0 for false. -/
def b2n (b : Bool) : Nat := if b then 1 else 0

/-- The places of the 1 bits of a mask, below `n`, rising. -/
def bitsOf (n m : Nat) : List Nat := (List.range n).filter (bitOf m)

/-- One bit of CRC-32 with the IEEE 802.3 polynomial, least significant bit first. -/
def crcBit (c : Nat) : Nat := if c % 2 = 1 then c / 2 ^^^ 0xEDB88320 else c / 2

/-- CRC-32 of a list of bytes (R193, R390). -/
def crc32 (l : List Byte) : Nat :=
  (l.foldl (fun c b => (List.range 8).foldl (fun c _ => crcBit c) (c ^^^ b.toNat)) 0xFFFFFFFF) ^^^ 0xFFFFFFFF

/-- The first check of a list that fails gives the status (R373). -/
def firstFail : List (Bool × Status) → Option Status
  | [] => none
  | e :: t => if e.1 then some e.2 else firstFail t

/-- An owner identifier that mailbox `m` may be given (R350, R351): one that is issued and not the firmware's; mailbox 0 has a host function or a region. -/
def mayOwn (m owner : Nat) : Bool :=
  let function := decide (0x50 ≤ owner) && decide (owner ≤ 0x53)
  let region := decide (1 ≤ owner) && decide (owner ≤ 0x28)
  function || region || (m != 0 && (owner == 0 || owner == 0x41 || (decide (0x60 ≤ owner) && decide (owner ≤ 0x9F))))

end Sys2Proof.Machine
end

