-- ==== Sys2Proof/Machine/Regs.lean ====
section
/-! DEFINITION. The register map of spec/: every direct register of the 32 MiB register space (R7, R15) and every
field of it that is not reserved, with its bits, access type (R9), retention class (R11) and reset value (R8), one line
each, copied from the register tables of the chapters (R19, R51, R80, R81, R85, R94, R128, R153..R156, R234, R260..R262,
R293, R316, R317, R346, R369, R370, R438, R456, R482, R499, R520, R542, R543, R555). Names are the manual's own. -/

namespace Sys2Proof.Machine

/-- The access types of R9. -/
inductive Access where
  | RW | RO | WO | W1C | W1S | RC | RWL
  deriving DecidableEq, Repr

/-- The retention classes of R11. `B` is kept by VBAT and no reset clears it (DEV_RTC of R553, class "—" in R555). -/
inductive RClass where
  | K | D | F | L | V | B
  deriving DecidableEq, Repr

/-- The windows of R15, in the order of R7, which is the bit order of DEV_RGN_ACCESS (R19). -/
inductive Window where
  | DEV | PWR | POS | SRT | PIN | LANE | LNK | MEM | SEAL | PST | EVT | PERF | CFG | TST | MAILBOX
  deriving DecidableEq, Repr

/-- The registers, each an array over its index. -/
inductive Reg where
  | DEV_ID | DEV_UID | DEV_ACCESS_ERR | DEV_ACCESS_ADDR | DEV_RST_CAUSE | DEV_RST_CMD
  | DEV_RGN_ACCESS | DEV_ISL_RUN | DEV_ISL_STOP | DEV_ISL_HELD | DEV_ISL_RST | DEV_XDROP
  | DEV_OCT_CTL | DEV_OCT_CLK | DEV_OCT_PROTO | DEV_OCT_STAT | DEV_LC | DEV_SEC_STAT
  | DEV_RNG_STAT | DEV_RNG_DATA | DEV_ST_STAT | DEV_ST_FAIL | DEV_ST_DEFECT | DEV_FRK_REC
  | DEV_FRK_CMD | DEV_FRK_STAT | DEV_FRK_CNT | DEV_FRK_MISS | DEV_FRK_CTR | DEV_RTC
  | DEV_RTC_STAT | PWR_STATE | PWR_WAKE_CTL | PWR_WAKE_ALARM | PWR_PKG_STAT | PWR_PKG_CTL
  | PWR_THERM_CTL | PWR_THERM_STAT | PWR_RGN_CTL | PWR_RGN_STAT | PWR_RGN_LOOP | PWR_MON
  | PWR_TEMP | PWR_AIN | PWR_AIN_CTL | PWR_AIN_LIM | PWR_AIN_FLT | PWR_EXT
  | POS_AX_CTL | POS_AX_CMD | POS_AX_STAT | POS_AX_FLT | POS_AX_POS | POS_AX_EPOCH
  | POS_AX_VEL | POS_AX_HWM | POS_AX_LOAD | POS_AX_LOAD_EPOCH | POS_AX_DR | POS_AX_DRTIME
  | POS_AX_TUNE | POS_AX_VMIN | POS_AX_ZPERIOD | POS_AX_ZTOL | POS_AX_ZCAP | POS_AX_VSPEED
  | POS_AX_VACC | POS_AX_FOLLOW | POS_AX_ERRCNT | POS_AX_LOSTCNT | POS_AX_JUMP | POS_AX_SNAP
  | POS_AX_SNAP_EPOCH | POS_SNAP_CMD | POS_SNAP_TB | POS_STRB_CTL | POS_STRB_PITCH | POS_STRB_BASE
  | POS_STRB_STAT | POS_ENC_STAT | SRT_CTL | SRT_CMD | SRT_STAT | SRT_TGT
  | SRT_LATE_TOL | SRT_ERR | SRT_FLUSH_CNT | SRT_INS_RES | SRT_INS | SRT_HEAD
  | PIN_CFG | PIN_IMAP | PIN_OMAP | PIN_OUT | PIN_IN | PIN_BANK_CTL
  | PIN_BANK_STAT | PIN_OCONF | PIN_ICONF | PIN_LOCK_ARM | PIN_LOCK_SET | PIN_LOCK
  | PIN_GSTAT | PIN_OUT_MW | PIN_PLC_CTL | PIN_PLC_STAT | PIN_PLC_CNT | PIN_LOAD
  | PIN_CAL_STAT | PIN_CAL_CMD | PIN_PWM_PER | PIN_PWM_HI | LANE_CTL | LANE_RATE
  | LANE_TXEQ | LANE_RXEQ | LANE_STAT | LANE_ERR | LANE_CUR | LANE_DFE
  | LANE_CNT | LANE_ERRCNT | LANE_EP_STAT | LANE_EP_ID | LANE_RP_STAT | LANE_ETH_STAT
  | LANE_ETH_CNT | LANE_ETH_RXWR | LANE_ETH_RXRD | LANE_ETH_TXWR | LANE_ETH_TXRD | LNK_CTL
  | LNK_CMD | LNK_STAT | LNK_ERR | LNK_PARTNER_UID | LNK_PARTNER_CAP | LNK_PARTNER_PREP
  | LNK_LATENCY | LNK_CABLE | LNK_BEACON | LNK_FIRE | LNK_CNT_FEC | LNK_CNT_FLIT
  | LNK_CNT_LINK | LNK_CNT_EXP | LNK_RING_CTL | LNK_RING_CMD | LNK_RING_STAT | LNK_RING_REACH
  | LNK_RING_WEIGHT | LNK_RING_STOPSRC | MEM_STK_CTL | MEM_STK_STAT | MEM_STK_ERR | MEM_STK_ERRADDR
  | MEM_STK_ECNT | MEM_HOME_STAT | MEM_HOME_CNT | SEAL_GRAN | SEAL_GRAN_CMD | SEAL_GRAN_RES
  | SEAL_STORE_STAT | SEAL_STORE_ERR | SEAL_STORE_CNT | SEAL_STORE_ERRVOL | SEAL_LINE_STAT | SEAL_LINE_ERR
  | SEAL_LINE_ERRADDR | SEAL_LINE_CNT | PST_FW_STAT | PST_WHOAMI | PST_MB_OWNER | PST_LOCK_ACQ
  | PST_LOCK_REL | PST_LOCK | PST_LOCK_ERR | EVT_PEND | EVT_ROUTE | EVT_USER
  | EVT_LOG_CTL | EVT_LOG_STAT | EVT_LOG_LOST | EVT_LOG_NEWEST | EVT_LOG_OLDEST | PERF_CNT
  | PERF_SEL | PERF_FILT | PERF_OVF | PERF_TB | PERF_USER_EN | PERF_RANGE_LO
  | PERF_RANGE_HI | CFG_STAT | CFG_CMD | CFG_SRC | CFG_FAIL | CFG_DESIGN
  | CFG_XREQ | CFG_XSTAT | CFG_XSPI | CFG_NVM_STAT | CFG_NVM_SEL | CFG_NVM_WEAR
  | CFG_NVM_ERR | CFG_NVM_CNT | CFG_RGN_STAT | CFG_RGN_CTL | CFG_ISO_CNT | CFG_RGN_UPSET
  | CFG_SCRUB_CTL | CFG_SCRUB_STAT | CFG_SCRUB_LAST | CFG_SCRUB_CNT | CFG_FAB_STAT | CFG_BM_STAT
  | CFG_TREE_STAT | CFG_AGT_STAT | TST_TAP_STAT | PST_MB_DOORBELL | PST_MB_REQ | PST_MB_RPL
  | PST_MB_STAT | PST_MB_EVT
  deriving DecidableEq, Repr

/-- The fields that are not reserved, named REGISTER_FIELD. -/
inductive Fld where
  | DEV_ID_STEPPING | DEV_ID_PART | DEV_ID_GRADE | DEV_ID_VENDOR
  | DEV_UID_UID | DEV_ACCESS_ERR_ERR | DEV_ACCESS_ERR_LOCKED | DEV_ACCESS_ERR_DENIED
  | DEV_ACCESS_ERR_FORM | DEV_ACCESS_ERR_UNMAPPED | DEV_ACCESS_ERR_SOURCE | DEV_ACCESS_ERR_WRITE
  | DEV_ACCESS_ADDR_ADDR | DEV_RST_CAUSE_CAUSE | DEV_RST_CAUSE_COUNT | DEV_RST_CMD_KIND
  | DEV_RST_CMD_KEY | DEV_RGN_ACCESS_RD | DEV_RGN_ACCESS_WR | DEV_ISL_RUN_RUN
  | DEV_ISL_STOP_STOP | DEV_ISL_HELD_HELD | DEV_ISL_RST_RST | DEV_XDROP_DROP
  | DEV_XDROP_POISON | DEV_OCT_CTL_EN | DEV_OCT_CTL_REFSEL | DEV_OCT_CTL_SSC
  | DEV_OCT_CLK_WCLK | DEV_OCT_PROTO_EP_W | DEV_OCT_PROTO_RPA_W | DEV_OCT_PROTO_ETH_MODE
  | DEV_OCT_PROTO_RPB_W | DEV_OCT_PROTO_EP_GEN | DEV_OCT_PROTO_RP_GEN | DEV_OCT_PROTO_ETH_EN
  | DEV_OCT_STAT_LOCK | DEV_OCT_STAT_REF_OK | DEV_OCT_STAT_PLL_LOSS | DEV_OCT_STAT_CFG_REF
  | DEV_OCT_STAT_BIND_REF | DEV_OCT_STAT_FOLLOW | DEV_LC_STATE | DEV_LC_CYCLE
  | DEV_LC_PARTIAL | DEV_SEC_STAT_KEYS_LOST | DEV_SEC_STAT_ZEROISED | DEV_SEC_STAT_TAP_REFUSED
  | DEV_SEC_STAT_KEYS | DEV_RNG_STAT_STATE | DEV_RNG_STAT_HEALTHY | DEV_RNG_STAT_RCT_FAIL
  | DEV_RNG_STAT_APT_FAIL | DEV_RNG_DATA_DATA | DEV_ST_STAT_NEXT | DEV_ST_STAT_RUNNING
  | DEV_ST_STAT_RECORD_RO | DEV_ST_STAT_FAILS | DEV_ST_STAT_FUSE_LEFT | DEV_ST_FAIL_SLICE
  | DEV_ST_FAIL_KIND | DEV_ST_FAIL_REPAIR | DEV_ST_FAIL_RECUR | DEV_ST_FAIL_UNIT
  | DEV_ST_DEFECT_REGIONS | DEV_FRK_REC_REC | DEV_FRK_CMD_SAVE | DEV_FRK_CMD_LOAD
  | DEV_FRK_STAT_STATE | DEV_FRK_STAT_SAVE_BUSY | DEV_FRK_STAT_SAVE_FAIL | DEV_FRK_STAT_REC_BAD
  | DEV_FRK_STAT_OVERRIDE | DEV_FRK_CNT_PRINTED | DEV_FRK_MISS_MISSED | DEV_FRK_CTR_COUNTER
  | DEV_RTC_SECONDS | DEV_RTC_STAT_VALID | PWR_STATE_STATE | PWR_STATE_BUSY
  | PWR_STATE_WAKE | PWR_WAKE_CTL_WAKE_N_EN | PWR_WAKE_CTL_ALARM_EN | PWR_WAKE_CTL_AXIS_EN
  | PWR_WAKE_CTL_PERST_EN | PWR_WAKE_CTL_AXIS | PWR_WAKE_CTL_DIST | PWR_WAKE_ALARM_SECONDS
  | PWR_PKG_STAT_POWER | PWR_PKG_STAT_HOTTEST | PWR_PKG_CTL_COOLING | PWR_PKG_CTL_PLIMIT
  | PWR_THERM_CTL_WARN | PWR_THERM_STAT_WARN | PWR_THERM_STAT_HOT | PWR_THERM_STAT_OVER_AIR
  | PWR_THERM_STAT_OVER_PLIMIT | PWR_THERM_STAT_TRIP | PWR_THERM_STAT_SENSOR | PWR_RGN_CTL_MODE
  | PWR_RGN_CTL_MARGIN | PWR_RGN_CTL_CAP | PWR_RGN_CTL_FIXED_V | PWR_RGN_STAT_VSET
  | PWR_RGN_STAT_VMEAS | PWR_RGN_STAT_FLOOR | PWR_RGN_STAT_AT_CAP | PWR_RGN_STAT_NEAR_CAP
  | PWR_RGN_STAT_AGE_WARN | PWR_RGN_STAT_REG_FAULT | PWR_RGN_STAT_REF | PWR_RGN_STAT_RETAINED
  | PWR_RGN_LOOP_RATIO | PWR_RGN_LOOP_AGE | PWR_RGN_LOOP_SHORT | PWR_MON_MV
  | PWR_MON_UV | PWR_MON_OV | PWR_MON_UV_SEEN | PWR_MON_OV_SEEN
  | PWR_TEMP_TEMP | PWR_AIN_CODE | PWR_AIN_BROKEN | PWR_AIN_STALE
  | PWR_AIN_OUT | PWR_AIN_SEQ | PWR_AIN_CTL_EN | PWR_AIN_CTL_MODE
  | PWR_AIN_CTL_LIMIT_EN | PWR_AIN_LIM_LO | PWR_AIN_LIM_HI | PWR_AIN_FLT_BROKEN_SEEN
  | PWR_AIN_FLT_LIMIT_SEEN | PWR_EXT_ADDR | PWR_EXT_VALID | PWR_EXT_NO_ANSWER
  | PWR_EXT_VOUT_FLT | PWR_EXT_IOUT_FLT | PWR_EXT_TEMP_FLT | PWR_EXT_FORMAT
  | PWR_EXT_VOUT | POS_AX_CTL_SRC | POS_AX_CTL_ENC | POS_AX_CTL_MULT
  | POS_AX_CTL_INV | POS_AX_CTL_ZMODE | POS_AX_CMD_START | POS_AX_CMD_STOP
  | POS_AX_CMD_RECOVER | POS_AX_STAT_STATE | POS_AX_STAT_DIR | POS_AX_STAT_REVISIT
  | POS_AX_STAT_VVALID | POS_AX_STAT_PENDING | POS_AX_FLT_FAULT | POS_AX_FLT_LOST
  | POS_AX_FLT_RECOVER_FAIL | POS_AX_FLT_CMD_ERR | POS_AX_FLT_REANCHOR | POS_AX_FLT_Z_SLIP
  | POS_AX_FLT_Z_OPEN | POS_AX_FLT_WRAP | POS_AX_FLT_FIRST | POS_AX_POS_VALUE
  | POS_AX_EPOCH_VALUE | POS_AX_VEL_VALUE | POS_AX_HWM_VALUE | POS_AX_LOAD_VALUE
  | POS_AX_LOAD_EPOCH_VALUE | POS_AX_DR_DIST | POS_AX_DRTIME_TIME | POS_AX_TUNE_VWIN
  | POS_AX_TUNE_FILT | POS_AX_TUNE_HYST | POS_AX_TUNE_STUCK_N | POS_AX_TUNE_REANCHOR_MAX
  | POS_AX_VMIN_VMIN | POS_AX_ZPERIOD_VALUE | POS_AX_ZTOL_TOL | POS_AX_ZCAP_VALUE
  | POS_AX_VSPEED_VALUE | POS_AX_VACC_VALUE | POS_AX_FOLLOW_LINK | POS_AX_FOLLOW_BAXIS
  | POS_AX_ERRCNT_GLITCH | POS_AX_ERRCNT_ZSLIP | POS_AX_LOSTCNT_CNT | POS_AX_JUMP_JUMP
  | POS_AX_SNAP_VALUE | POS_AX_SNAP_EPOCH_VALUE | POS_SNAP_CMD_SNAP | POS_SNAP_TB_TB
  | POS_STRB_CTL_EN | POS_STRB_CTL_AXIS | POS_STRB_CTL_DIRSEL | POS_STRB_PITCH_PITCH
  | POS_STRB_BASE_BASE | POS_STRB_STAT_MERGE | POS_ENC_STAT_VALID | SRT_CTL_EN
  | SRT_CTL_MODE | SRT_CTL_ORDER | SRT_CTL_AXIS | SRT_CMD_FLUSH
  | SRT_STAT_COUNT | SRT_STAT_EMPTY | SRT_STAT_FULL | SRT_STAT_BAD
  | SRT_STAT_FULL_REF | SRT_STAT_LATE | SRT_STAT_RANGE | SRT_STAT_CFG_ERR
  | SRT_TGT_GROUP | SRT_TGT_PERMIT | SRT_TGT_REGION | SRT_TGT_GATE
  | SRT_TGT_KIND | SRT_LATE_TOL_TOL | SRT_ERR_LATE_DROP | SRT_ERR_RANGE_DROP
  | SRT_FLUSH_CNT_COUNT | SRT_INS_RES_RESULT | SRT_INS_ENTRY | SRT_HEAD_ENTRY
  | PIN_CFG_PULL | PIN_CFG_DRIVE | PIN_CFG_IDLE | PIN_CFG_OD
  | PIN_IMAP_SINK | PIN_OMAP_PIN | PIN_OUT_OUT | PIN_IN_IN
  | PIN_BANK_CTL_RANGE | PIN_BANK_CTL_PMB_EN | PIN_BANK_STAT_HOLD | PIN_BANK_STAT_MISMATCH
  | PIN_BANK_STAT_NOSUPPLY | PIN_BANK_STAT_BADRANGE | PIN_OCONF_OCONF | PIN_ICONF_ICONF
  | PIN_LOCK_ARM_ARM | PIN_LOCK_SET_SET | PIN_LOCK_LOCK | PIN_GSTAT_PHASE
  | PIN_GSTAT_OCONF | PIN_GSTAT_ICONF | PIN_GSTAT_LOCK_ABORT | PIN_OUT_MW_MW
  | PIN_PLC_CTL_EN | PIN_PLC_STAT_LATE | PIN_PLC_STAT_OVERLAP | PIN_PLC_STAT_BAD_ACT
  | PIN_PLC_STAT_UNCAL | PIN_PLC_CNT_LATE | PIN_PLC_CNT_HOLD_MISS | PIN_LOAD_LOAD
  | PIN_CAL_STAT_RESULT | PIN_CAL_CMD_MASK | PIN_CAL_CMD_BANK | PIN_CAL_CMD_KIND
  | PIN_CAL_CMD_BUSY | PIN_PWM_PER_PER | PIN_PWM_HI_HI | LANE_CTL_EN
  | LANE_CTL_POL_TX | LANE_CTL_POL_RX | LANE_CTL_LOOP | LANE_CTL_PRBS
  | LANE_CTL_RESET | LANE_CTL_AMP | LANE_CTL_LOS_THR | LANE_RATE_RATE
  | LANE_RATE_PAM4 | LANE_TXEQ_PRE | LANE_TXEQ_POST | LANE_TXEQ_MAIN
  | LANE_TXEQ_MODE | LANE_RXEQ_MODE | LANE_RXEQ_CTLE | LANE_RXEQ_CTLE_RD
  | LANE_STAT_LOS | LANE_STAT_LOCK | LANE_STAT_ADAPT_DONE | LANE_STAT_RESETTING
  | LANE_STAT_BIND | LANE_ERR_LOS | LANE_ERR_LOL | LANE_ERR_RATE_REF
  | LANE_ERR_TXEQ_REF | LANE_ERR_OWNED | LANE_ERR_FIRST | LANE_CUR_CUR
  | LANE_DFE_TAPS | LANE_CNT_PRBS_ERR | LANE_ERRCNT_LOS_N | LANE_ERRCNT_LOL_N
  | LANE_EP_STAT_LINK_UP | LANE_EP_STAT_WIDTH | LANE_EP_STAT_RATE | LANE_EP_STAT_FLIT
  | LANE_EP_ID_VENDOR | LANE_EP_ID_DEVICE | LANE_RP_STAT_PRESENT | LANE_RP_STAT_LINK_UP
  | LANE_RP_STAT_WIDTH | LANE_RP_STAT_RATE | LANE_RP_STAT_CONTAINED | LANE_RP_STAT_NOT_NVME
  | LANE_ETH_STAT_LINK_UP | LANE_ETH_STAT_LOCAL_FAULT | LANE_ETH_STAT_REMOTE_FAULT | LANE_ETH_CNT_RX_DROP
  | LANE_ETH_CNT_TX_BAD | LANE_ETH_RXWR_INDEX | LANE_ETH_RXRD_INDEX | LANE_ETH_TXWR_INDEX
  | LANE_ETH_TXRD_INDEX | LNK_CTL_EN | LNK_CTL_LANES | LNK_CTL_MIN_W
  | LNK_CTL_FALLBACK | LNK_CMD_RETRAIN | LNK_CMD_WIDTH | LNK_CMD_MASK
  | LNK_STAT_STATE | LNK_STAT_LEADER | LNK_STAT_MEMBER | LNK_STAT_MASK
  | LNK_STAT_REASON | LNK_STAT_ATTEMPT | LNK_ERR_DOWN | LNK_ERR_UNCORR
  | LNK_ERR_UNDERRUN | LNK_ERR_YIELD | LNK_ERR_CFG_REF | LNK_ERR_BEACON_DROP
  | LNK_ERR_EXPRESS_BAD | LNK_ERR_WIDTH_CHG | LNK_PARTNER_UID_UID | LNK_PARTNER_CAP_CLASS
  | LNK_PARTNER_CAP_FLAGS | LNK_PARTNER_CAP_REVISION | LNK_PARTNER_PREP_PREP | LNK_LATENCY_L
  | LNK_CABLE_LEN | LNK_CABLE_VF | LNK_BEACON_AXES | LNK_FIRE_GUARD
  | LNK_CNT_FEC_CORR | LNK_CNT_FEC_UNCORR | LNK_CNT_FLIT_REPLAY | LNK_CNT_FLIT_DROP
  | LNK_CNT_LINK_UNDERRUN | LNK_CNT_LINK_DOWN | LNK_CNT_EXP_BEACON_DROP | LNK_CNT_EXP_EXPRESS_BAD
  | LNK_RING_CTL_JOIN | LNK_RING_CTL_RATE | LNK_RING_CTL_LOST_STOP | LNK_RING_CTL_STOP_AXES
  | LNK_RING_CTL_MEMBER | LNK_RING_CMD_STOP | LNK_RING_STAT_STATE | LNK_RING_STAT_BYPASS
  | LNK_RING_STAT_WEST_UP | LNK_RING_STAT_EAST_UP | LNK_RING_STAT_STOPPED | LNK_RING_STAT_CHANGED
  | LNK_RING_STAT_CFG_MISMATCH | LNK_RING_REACH_REACH | LNK_RING_WEIGHT_REACH_W | LNK_RING_WEIGHT_TOTAL_W
  | LNK_RING_STOPSRC_ORIGIN | LNK_RING_STOPSRC_CAUSE | LNK_RING_STOPSRC_SEQ | MEM_STK_CTL_PATROL
  | MEM_STK_CTL_TEMP_WARN | MEM_STK_STAT_FILL_DONE | MEM_STK_STAT_SELF_REFRESH | MEM_STK_STAT_RESYNC
  | MEM_STK_STAT_TEMP | MEM_STK_ERR_CORR | MEM_STK_ERR_UNCORR | MEM_STK_ERR_TEMP_HI
  | MEM_STK_ERRADDR_LINE | MEM_STK_ECNT_CORR_CNT | MEM_STK_ECNT_UNCORR_CNT | MEM_HOME_STAT_WAITING
  | MEM_HOME_STAT_ENTRIES | MEM_HOME_CNT_RECALL | MEM_HOME_CNT_WB_RACE | MEM_HOME_CNT_STRAY
  | SEAL_GRAN_STATE | SEAL_GRAN_LOST | SEAL_GRAN_EPOCH | SEAL_GRAN_CMD_GRANULE
  | SEAL_GRAN_CMD_OP | SEAL_GRAN_RES_RESULT | SEAL_GRAN_RES_BUSY | SEAL_STORE_STAT_COMMITTING
  | SEAL_STORE_STAT_STRETCHED | SEAL_STORE_STAT_ONLINE | SEAL_STORE_ERR_INTEG | SEAL_STORE_ERR_TORN
  | SEAL_STORE_ERR_ROLLBACK | SEAL_STORE_ERR_FOREIGN | SEAL_STORE_ERR_COMMIT_FAIL | SEAL_STORE_CNT_INTEG_CNT
  | SEAL_STORE_CNT_TORN_CNT | SEAL_STORE_ERRVOL_VOLUME | SEAL_LINE_STAT_KEYS | SEAL_LINE_STAT_REENC
  | SEAL_LINE_STAT_ROOTS | SEAL_LINE_ERR_INTEG | SEAL_LINE_ERR_GROUP | SEAL_LINE_ERR_UNCORR
  | SEAL_LINE_ERRADDR_LINE | SEAL_LINE_CNT_INTEG_CNT | SEAL_LINE_CNT_REENC_CNT | PST_FW_STAT_READY
  | PST_FW_STAT_COPY | PST_FW_STAT_RECOVERY | PST_FW_STAT_CORES | PST_FW_STAT_RESTARTS
  | PST_WHOAMI_ID | PST_MB_OWNER_OWNER | PST_LOCK_ACQ_RESULT | PST_LOCK_ACQ_OWNER
  | PST_LOCK_REL_REL | PST_LOCK_OWNER | PST_LOCK_ABANDONED | PST_LOCK_ERR_NOT_OWNER
  | PST_LOCK_ERR_LOCK | PST_LOCK_ERR_WRITER | EVT_PEND_PEND | EVT_ROUTE_VECTOR
  | EVT_ROUTE_FUNC | EVT_ROUTE_MSIX_EN | EVT_ROUTE_TOKEN_EN | EVT_ROUTE_LOG
  | EVT_ROUTE_REGION | EVT_USER_RAISE | EVT_LOG_CTL_AXIS | EVT_LOG_CTL_AXIS_EN
  | EVT_LOG_STAT_QUEUE | EVT_LOG_STAT_WAITING | EVT_LOG_STAT_STOPPED | EVT_LOG_STAT_ALLOW
  | EVT_LOG_LOST_LOST | EVT_LOG_NEWEST_SEQ | EVT_LOG_OLDEST_SEQ | PERF_CNT_COUNT
  | PERF_CNT_OVF | PERF_SEL_BLOCK | PERF_SEL_INST | PERF_SEL_EVENT
  | PERF_SEL_EN | PERF_SEL_MODE | PERF_SEL_CLEAR | PERF_SEL_THRESH
  | PERF_FILT_MASTER | PERF_FILT_MASTER_EN | PERF_FILT_PRIV | PERF_FILT_CLASS
  | PERF_FILT_RANGE_EN | PERF_OVF_OVF | PERF_TB_TB | PERF_USER_EN_FABRIC
  | PERF_USER_EN_HOST | PERF_RANGE_LO_LO | PERF_RANGE_HI_HI | CFG_STAT_STATE
  | CFG_STAT_BOOT | CFG_STAT_RELEASED | CFG_STAT_LINE | CFG_STAT_FALLBACK
  | CFG_STAT_DONE_WAIT | CFG_STAT_BCAST_WAIT | CFG_STAT_HOST_WAIT | CFG_CMD_GO
  | CFG_SRC_SLOT | CFG_SRC_BCAST | CFG_FAIL_SLOT | CFG_FAIL_CAUSE
  | CFG_FAIL_SEGMENT | CFG_DESIGN_ID | CFG_XREQ_ADDR | CFG_XSTAT_RESULT
  | CFG_XSTAT_CAUSE | CFG_XSTAT_COUNT | CFG_XSPI_READY | CFG_XSPI_OCTAL
  | CFG_XSPI_FREQ | CFG_XSPI_BUS_ERR | CFG_NVM_STAT_BUSY | CFG_NVM_STAT_SUSPENDED
  | CFG_NVM_STAT_SPARES | CFG_NVM_STAT_RO_AREA | CFG_NVM_SEL_BLOCK | CFG_NVM_WEAR_ERASES
  | CFG_NVM_WEAR_STATE | CFG_NVM_WEAR_PHYS | CFG_NVM_ERR_CORR | CFG_NVM_ERR_UNCORR
  | CFG_NVM_ERR_INCOMPLETE | CFG_NVM_ERR_RETIRED | CFG_NVM_ERR_READ_ONLY | CFG_NVM_ERR_BLOCK
  | CFG_NVM_CNT_CORR_CNT | CFG_NVM_CNT_UNCORR_CNT | CFG_RGN_STAT_STATE | CFG_RGN_STAT_ISOLATED
  | CFG_RGN_STAT_XSPI | CFG_RGN_CTL_ESS_ACT | CFG_ISO_CNT_ABSORBED | CFG_ISO_CNT_PARTIAL
  | CFG_RGN_UPSET_ESSENTIAL | CFG_RGN_UPSET_OTHER | CFG_SCRUB_CTL_EN | CFG_SCRUB_STAT_CYCLES
  | CFG_SCRUB_STAT_RUNNING | CFG_SCRUB_LAST_FRAME | CFG_SCRUB_LAST_REGION | CFG_SCRUB_LAST_UNCORR
  | CFG_SCRUB_CNT_GLOBAL | CFG_SCRUB_CNT_REFETCH | CFG_FAB_STAT_DEFICIT | CFG_FAB_STAT_DEFICIT_NOW
  | CFG_FAB_STAT_CODE_ERR | CFG_FAB_STAT_CODE_CNT | CFG_BM_STAT_CORR | CFG_BM_STAT_UNCORR
  | CFG_BM_STAT_CORR_CNT | CFG_BM_STAT_FIRST_BM | CFG_TREE_STAT_STROBE_OVR | CFG_TREE_STAT_UCLK_LOSS
  | CFG_TREE_STAT_UCLK_RUN | CFG_TREE_STAT_UTAP_OVR | CFG_AGT_STAT_POISON | CFG_AGT_STAT_INTEG
  | CFG_AGT_STAT_REFUSED | CFG_AGT_STAT_DIRTY | TST_TAP_STAT_INSTRUCTION | TST_TAP_STAT_TAP_STATE
  | PST_MB_DOORBELL_TAIL | PST_MB_REQ_HEAD | PST_MB_REQ_TAIL | PST_MB_RPL_HEAD
  | PST_MB_RPL_TAIL | PST_MB_STAT_READY | PST_MB_STAT_WAIT | PST_MB_STAT_MALFORMED
  | PST_MB_STAT_OWNER | PST_MB_STAT_EPOCH | PST_MB_EVT_VECTOR | PST_MB_EVT_EN
  | PST_MB_EVT_HOLDOFF | PST_MB_EVT_PENDING
  deriving DecidableEq, Repr

/-- A register array: the byte address of element 0, its dimensions as (count, byte stride) from the outermost, and
how many consecutive 32-bit words one element takes (more than one: a wide value of R10). -/
structure RegSpec where
  base : Nat
  dims : List (Nat × Nat)
  words : Nat
  deriving DecidableEq, Repr

/-- Default owner of mailbox `m` where the image has no mailbox table (R351). -/
def mailboxDefaultOwner (m : Nat) : Nat :=
  if m < 16 then 0x50 else if m < 24 then 0x51 else if m < 32 then 0x52 else if m < 40 then 0x53
  else if m = 63 then 0x41 else 0

/-- How a Reset column gives the value of element `i`: one value, one value below an index and another from it, the axis in
bits 63:61 (R108), or the default owner of a mailbox. -/
inductive ResetVal where
  | val (n : Nat)
  | below (bound low high : Nat)
  | axis
  | owner
  deriving DecidableEq, Repr

/-- The reset value of element `i`. -/
def ResetVal.at (r : ResetVal) (i : Nat) : Nat :=
  match r with
  | .val n => n
  | .below b x y => if i < b then x else y
  | .axis => i <<< 61
  | .owner => mailboxDefaultOwner i

/-- A field: the register it lies in, its lowest bit, its width, its access type, its retention class and its reset value.
Fields whose Reset column reads "image", "strap", "stored", "fuse", "pad", "unit value" or "VBAT" take the default the rule
of their map gives (R260, R351, R482, R542); where it gives none, the value named in assumption 2 (DESIGN CHOICE). -/
structure FldSpec where
  reg : Reg
  lo : Nat
  width : Nat
  ty : Access
  cls : RClass
  rst : ResetVal
  deriving DecidableEq, Repr

/-- Where each register array lies. -/
def Reg.spec : Reg → RegSpec
  | .DEV_ID => ⟨0x0, [], 1⟩
  | .DEV_UID => ⟨0x8, [], 2⟩
  | .DEV_ACCESS_ERR => ⟨0x10, [], 1⟩
  | .DEV_ACCESS_ADDR => ⟨0x14, [], 1⟩
  | .DEV_RST_CAUSE => ⟨0x20, [], 1⟩
  | .DEV_RST_CMD => ⟨0x24, [], 1⟩
  | .DEV_RGN_ACCESS => ⟨0x100, [(40, 0x4)], 1⟩
  | .DEV_ISL_RUN => ⟨0x200, [], 1⟩
  | .DEV_ISL_STOP => ⟨0x204, [], 1⟩
  | .DEV_ISL_HELD => ⟨0x208, [], 1⟩
  | .DEV_ISL_RST => ⟨0x20C, [], 1⟩
  | .DEV_XDROP => ⟨0x300, [(25, 0x4)], 1⟩
  | .DEV_OCT_CTL => ⟨0x400, [(18, 0x10)], 1⟩
  | .DEV_OCT_CLK => ⟨0x404, [(18, 0x10)], 1⟩
  | .DEV_OCT_PROTO => ⟨0x408, [(18, 0x10)], 1⟩
  | .DEV_OCT_STAT => ⟨0x40C, [(18, 0x10)], 1⟩
  | .DEV_LC => ⟨0x600, [], 1⟩
  | .DEV_SEC_STAT => ⟨0x604, [], 1⟩
  | .DEV_RNG_STAT => ⟨0x610, [], 1⟩
  | .DEV_RNG_DATA => ⟨0x618, [], 2⟩
  | .DEV_ST_STAT => ⟨0x620, [], 1⟩
  | .DEV_ST_FAIL => ⟨0x624, [], 1⟩
  | .DEV_ST_DEFECT => ⟨0x628, [], 2⟩
  | .DEV_FRK_REC => ⟨0x700, [(64, 0x4)], 1⟩
  | .DEV_FRK_CMD => ⟨0x800, [], 1⟩
  | .DEV_FRK_STAT => ⟨0x804, [], 1⟩
  | .DEV_FRK_CNT => ⟨0x808, [], 1⟩
  | .DEV_FRK_MISS => ⟨0x80C, [], 1⟩
  | .DEV_FRK_CTR => ⟨0x810, [], 1⟩
  | .DEV_RTC => ⟨0x818, [], 2⟩
  | .DEV_RTC_STAT => ⟨0x820, [], 1⟩
  | .PWR_STATE => ⟨0x10000, [], 1⟩
  | .PWR_WAKE_CTL => ⟨0x10004, [], 1⟩
  | .PWR_WAKE_ALARM => ⟨0x10008, [], 2⟩
  | .PWR_PKG_STAT => ⟨0x10010, [], 1⟩
  | .PWR_PKG_CTL => ⟨0x10014, [], 1⟩
  | .PWR_THERM_CTL => ⟨0x10018, [], 1⟩
  | .PWR_THERM_STAT => ⟨0x1001C, [], 1⟩
  | .PWR_RGN_CTL => ⟨0x10100, [(40, 0x4)], 1⟩
  | .PWR_RGN_STAT => ⟨0x10200, [(40, 0x4)], 1⟩
  | .PWR_RGN_LOOP => ⟨0x10300, [(40, 0x4)], 1⟩
  | .PWR_MON => ⟨0x10400, [(32, 0x4)], 1⟩
  | .PWR_TEMP => ⟨0x10500, [(48, 0x4)], 1⟩
  | .PWR_AIN => ⟨0x10600, [(16, 0x8)], 1⟩
  | .PWR_AIN_CTL => ⟨0x10604, [(16, 0x8)], 1⟩
  | .PWR_AIN_LIM => ⟨0x10680, [(16, 0x4)], 1⟩
  | .PWR_AIN_FLT => ⟨0x106C0, [], 1⟩
  | .PWR_EXT => ⟨0x10700, [(16, 0x4)], 1⟩
  | .POS_AX_CTL => ⟨0x20000, [(8, 0x100)], 1⟩
  | .POS_AX_CMD => ⟨0x20004, [(8, 0x100)], 1⟩
  | .POS_AX_STAT => ⟨0x20008, [(8, 0x100)], 1⟩
  | .POS_AX_FLT => ⟨0x2000C, [(8, 0x100)], 1⟩
  | .POS_AX_POS => ⟨0x20010, [(8, 0x100)], 2⟩
  | .POS_AX_EPOCH => ⟨0x20018, [(8, 0x100)], 1⟩
  | .POS_AX_VEL => ⟨0x2001C, [(8, 0x100)], 1⟩
  | .POS_AX_HWM => ⟨0x20020, [(8, 0x100)], 2⟩
  | .POS_AX_LOAD => ⟨0x20028, [(8, 0x100)], 2⟩
  | .POS_AX_LOAD_EPOCH => ⟨0x20030, [(8, 0x100)], 1⟩
  | .POS_AX_DR => ⟨0x20034, [(8, 0x100)], 1⟩
  | .POS_AX_DRTIME => ⟨0x20038, [(8, 0x100)], 1⟩
  | .POS_AX_TUNE => ⟨0x2003C, [(8, 0x100)], 1⟩
  | .POS_AX_VMIN => ⟨0x20040, [(8, 0x100)], 1⟩
  | .POS_AX_ZPERIOD => ⟨0x20044, [(8, 0x100)], 1⟩
  | .POS_AX_ZTOL => ⟨0x20048, [(8, 0x100)], 1⟩
  | .POS_AX_ZCAP => ⟨0x20050, [(8, 0x100)], 2⟩
  | .POS_AX_VSPEED => ⟨0x20058, [(8, 0x100)], 1⟩
  | .POS_AX_VACC => ⟨0x2005C, [(8, 0x100)], 1⟩
  | .POS_AX_FOLLOW => ⟨0x20060, [(8, 0x100)], 1⟩
  | .POS_AX_ERRCNT => ⟨0x20064, [(8, 0x100)], 1⟩
  | .POS_AX_LOSTCNT => ⟨0x20068, [(8, 0x100)], 1⟩
  | .POS_AX_JUMP => ⟨0x2006C, [(8, 0x100)], 1⟩
  | .POS_AX_SNAP => ⟨0x20070, [(8, 0x100)], 2⟩
  | .POS_AX_SNAP_EPOCH => ⟨0x20078, [(8, 0x100)], 1⟩
  | .POS_SNAP_CMD => ⟨0x21000, [], 1⟩
  | .POS_SNAP_TB => ⟨0x21008, [], 2⟩
  | .POS_STRB_CTL => ⟨0x21020, [(2, 0x20)], 1⟩
  | .POS_STRB_PITCH => ⟨0x21024, [(2, 0x20)], 1⟩
  | .POS_STRB_BASE => ⟨0x21028, [(2, 0x20)], 2⟩
  | .POS_STRB_STAT => ⟨0x21030, [(2, 0x20)], 1⟩
  | .POS_ENC_STAT => ⟨0x21060, [], 1⟩
  | .SRT_CTL => ⟨0x30000, [(64, 0x400)], 1⟩
  | .SRT_CMD => ⟨0x30004, [(64, 0x400)], 1⟩
  | .SRT_STAT => ⟨0x30008, [(64, 0x400)], 1⟩
  | .SRT_TGT => ⟨0x3000C, [(64, 0x400)], 1⟩
  | .SRT_LATE_TOL => ⟨0x30010, [(64, 0x400)], 1⟩
  | .SRT_ERR => ⟨0x30014, [(64, 0x400)], 1⟩
  | .SRT_FLUSH_CNT => ⟨0x30018, [(64, 0x400)], 1⟩
  | .SRT_INS_RES => ⟨0x3001C, [(64, 0x400)], 1⟩
  | .SRT_INS => ⟨0x30020, [(64, 0x400)], 4⟩
  | .SRT_HEAD => ⟨0x30030, [(64, 0x400)], 4⟩
  | .PIN_CFG => ⟨0x40000, [(192, 0x4)], 1⟩
  | .PIN_IMAP => ⟨0x40400, [(192, 0x4)], 1⟩
  | .PIN_OMAP => ⟨0x40800, [(768, 0x4)], 1⟩
  | .PIN_OUT => ⟨0x41400, [(12, 0x4)], 1⟩
  | .PIN_IN => ⟨0x41440, [(12, 0x4)], 1⟩
  | .PIN_BANK_CTL => ⟨0x41480, [(12, 0x4)], 1⟩
  | .PIN_BANK_STAT => ⟨0x414C0, [(12, 0x4)], 1⟩
  | .PIN_OCONF => ⟨0x41500, [(12, 0x4)], 1⟩
  | .PIN_ICONF => ⟨0x41540, [(12, 0x4)], 1⟩
  | .PIN_LOCK_ARM => ⟨0x41600, [], 1⟩
  | .PIN_LOCK_SET => ⟨0x41604, [], 1⟩
  | .PIN_LOCK => ⟨0x41640, [(12, 0x4)], 1⟩
  | .PIN_GSTAT => ⟨0x41700, [], 1⟩
  | .PIN_OUT_MW => ⟨0x42000, [(3, 0x400)], 1⟩
  | .PIN_PLC_CTL => ⟨0x44000, [(192, 0x20)], 1⟩
  | .PIN_PLC_STAT => ⟨0x44004, [(192, 0x20)], 1⟩
  | .PIN_PLC_CNT => ⟨0x44008, [(192, 0x20)], 1⟩
  | .PIN_LOAD => ⟨0x46000, [(192, 0x10)], 1⟩
  | .PIN_CAL_STAT => ⟨0x46004, [(192, 0x10)], 1⟩
  | .PIN_CAL_CMD => ⟨0x47000, [], 1⟩
  | .PIN_PWM_PER => ⟨0x47100, [(32, 0x8)], 1⟩
  | .PIN_PWM_HI => ⟨0x47104, [(32, 0x8)], 1⟩
  | .LANE_CTL => ⟨0x80100, [(18, 0x4000), (8, 0x40)], 1⟩
  | .LANE_RATE => ⟨0x80104, [(18, 0x4000), (8, 0x40)], 1⟩
  | .LANE_TXEQ => ⟨0x80108, [(18, 0x4000), (8, 0x40)], 1⟩
  | .LANE_RXEQ => ⟨0x8010C, [(18, 0x4000), (8, 0x40)], 1⟩
  | .LANE_STAT => ⟨0x80110, [(18, 0x4000), (8, 0x40)], 1⟩
  | .LANE_ERR => ⟨0x80114, [(18, 0x4000), (8, 0x40)], 1⟩
  | .LANE_CUR => ⟨0x80118, [(18, 0x4000), (8, 0x40)], 1⟩
  | .LANE_DFE => ⟨0x8011C, [(18, 0x4000), (8, 0x40), (3, 0x4)], 1⟩
  | .LANE_CNT => ⟨0x80128, [(18, 0x4000), (8, 0x40)], 1⟩
  | .LANE_ERRCNT => ⟨0x8012C, [(18, 0x4000), (8, 0x40)], 1⟩
  | .LANE_EP_STAT => ⟨0x81000, [], 1⟩
  | .LANE_EP_ID => ⟨0x81004, [], 1⟩
  | .LANE_RP_STAT => ⟨0x89000, [(4, 0x4000), (2, 0x100)], 1⟩
  | .LANE_ETH_STAT => ⟨0x99000, [(4, 0x4000), (8, 0x40)], 1⟩
  | .LANE_ETH_CNT => ⟨0x99004, [(4, 0x4000), (8, 0x40)], 1⟩
  | .LANE_ETH_RXWR => ⟨0x9A000, [(4, 0x4000), (8, 0x400), (16, 0x8)], 1⟩
  | .LANE_ETH_RXRD => ⟨0x9A004, [(4, 0x4000), (8, 0x400), (16, 0x8)], 1⟩
  | .LANE_ETH_TXWR => ⟨0x9A100, [(4, 0x4000), (8, 0x400), (16, 0x8)], 1⟩
  | .LANE_ETH_TXRD => ⟨0x9A104, [(4, 0x4000), (8, 0x400), (16, 0x8)], 1⟩
  | .LNK_CTL => ⟨0x100000, [(144, 0x400)], 1⟩
  | .LNK_CMD => ⟨0x100004, [(144, 0x400)], 1⟩
  | .LNK_STAT => ⟨0x100008, [(144, 0x400)], 1⟩
  | .LNK_ERR => ⟨0x10000C, [(144, 0x400)], 1⟩
  | .LNK_PARTNER_UID => ⟨0x100010, [(144, 0x400)], 2⟩
  | .LNK_PARTNER_CAP => ⟨0x100018, [(144, 0x400)], 1⟩
  | .LNK_PARTNER_PREP => ⟨0x10001C, [(144, 0x400)], 1⟩
  | .LNK_LATENCY => ⟨0x100020, [(144, 0x400)], 1⟩
  | .LNK_CABLE => ⟨0x100024, [(144, 0x400)], 1⟩
  | .LNK_BEACON => ⟨0x100028, [(144, 0x400)], 1⟩
  | .LNK_FIRE => ⟨0x10002C, [(144, 0x400)], 1⟩
  | .LNK_CNT_FEC => ⟨0x100030, [(144, 0x400)], 1⟩
  | .LNK_CNT_FLIT => ⟨0x100034, [(144, 0x400)], 1⟩
  | .LNK_CNT_LINK => ⟨0x100038, [(144, 0x400)], 1⟩
  | .LNK_CNT_EXP => ⟨0x10003C, [(144, 0x400)], 1⟩
  | .LNK_RING_CTL => ⟨0x13F000, [(2, 0x40)], 1⟩
  | .LNK_RING_CMD => ⟨0x13F004, [(2, 0x40)], 1⟩
  | .LNK_RING_STAT => ⟨0x13F008, [(2, 0x40)], 1⟩
  | .LNK_RING_REACH => ⟨0x13F00C, [(2, 0x40)], 1⟩
  | .LNK_RING_WEIGHT => ⟨0x13F010, [(2, 0x40)], 1⟩
  | .LNK_RING_STOPSRC => ⟨0x13F014, [(2, 0x40)], 1⟩
  | .MEM_STK_CTL => ⟨0x140000, [(4, 0x10000)], 1⟩
  | .MEM_STK_STAT => ⟨0x140004, [(4, 0x10000)], 1⟩
  | .MEM_STK_ERR => ⟨0x140008, [(4, 0x10000)], 1⟩
  | .MEM_STK_ERRADDR => ⟨0x14000C, [(4, 0x10000)], 1⟩
  | .MEM_STK_ECNT => ⟨0x140010, [(4, 0x10000)], 1⟩
  | .MEM_HOME_STAT => ⟨0x140020, [(4, 0x10000)], 1⟩
  | .MEM_HOME_CNT => ⟨0x140024, [(4, 0x10000)], 1⟩
  | .SEAL_GRAN => ⟨0x180000, [(256, 0x4)], 1⟩
  | .SEAL_GRAN_CMD => ⟨0x180400, [], 1⟩
  | .SEAL_GRAN_RES => ⟨0x180404, [], 1⟩
  | .SEAL_STORE_STAT => ⟨0x180800, [], 1⟩
  | .SEAL_STORE_ERR => ⟨0x180804, [], 1⟩
  | .SEAL_STORE_CNT => ⟨0x180808, [], 1⟩
  | .SEAL_STORE_ERRVOL => ⟨0x18080C, [], 1⟩
  | .SEAL_LINE_STAT => ⟨0x190000, [(4, 0x1000)], 1⟩
  | .SEAL_LINE_ERR => ⟨0x190004, [(4, 0x1000)], 1⟩
  | .SEAL_LINE_ERRADDR => ⟨0x190008, [(4, 0x1000)], 1⟩
  | .SEAL_LINE_CNT => ⟨0x19000C, [(4, 0x1000)], 1⟩
  | .PST_FW_STAT => ⟨0x1C0000, [], 1⟩
  | .PST_WHOAMI => ⟨0x1C0004, [], 1⟩
  | .PST_MB_OWNER => ⟨0x1C0100, [(64, 0x4)], 1⟩
  | .PST_LOCK_ACQ => ⟨0x1C1000, [(256, 0x4)], 1⟩
  | .PST_LOCK_REL => ⟨0x1C1400, [(256, 0x4)], 1⟩
  | .PST_LOCK => ⟨0x1C1800, [(256, 0x4)], 1⟩
  | .PST_LOCK_ERR => ⟨0x1C1C00, [], 1⟩
  | .EVT_PEND => ⟨0x200000, [(8, 0x4)], 1⟩
  | .EVT_ROUTE => ⟨0x200100, [(256, 0x4)], 1⟩
  | .EVT_USER => ⟨0x200800, [], 1⟩
  | .EVT_LOG_CTL => ⟨0x200900, [], 1⟩
  | .EVT_LOG_STAT => ⟨0x200904, [], 1⟩
  | .EVT_LOG_LOST => ⟨0x200908, [], 1⟩
  | .EVT_LOG_NEWEST => ⟨0x200910, [], 2⟩
  | .EVT_LOG_OLDEST => ⟨0x200918, [], 2⟩
  | .PERF_CNT => ⟨0x210000, [(256, 0x10)], 2⟩
  | .PERF_SEL => ⟨0x210008, [(256, 0x10)], 1⟩
  | .PERF_FILT => ⟨0x21000C, [(256, 0x10)], 1⟩
  | .PERF_OVF => ⟨0x211000, [(8, 0x4)], 1⟩
  | .PERF_TB => ⟨0x211020, [], 2⟩
  | .PERF_USER_EN => ⟨0x211030, [], 1⟩
  | .PERF_RANGE_LO => ⟨0x212000, [(256, 0x8)], 1⟩
  | .PERF_RANGE_HI => ⟨0x212004, [(256, 0x8)], 1⟩
  | .CFG_STAT => ⟨0x220000, [], 1⟩
  | .CFG_CMD => ⟨0x220004, [], 1⟩
  | .CFG_SRC => ⟨0x220008, [], 1⟩
  | .CFG_FAIL => ⟨0x22000C, [], 1⟩
  | .CFG_DESIGN => ⟨0x220010, [], 2⟩
  | .CFG_XREQ => ⟨0x220200, [(4, 0x4)], 1⟩
  | .CFG_XSTAT => ⟨0x220210, [(4, 0x4)], 1⟩
  | .CFG_XSPI => ⟨0x220220, [], 1⟩
  | .CFG_NVM_STAT => ⟨0x221000, [], 1⟩
  | .CFG_NVM_SEL => ⟨0x221004, [], 1⟩
  | .CFG_NVM_WEAR => ⟨0x221008, [], 1⟩
  | .CFG_NVM_ERR => ⟨0x22100C, [], 1⟩
  | .CFG_NVM_CNT => ⟨0x221010, [], 1⟩
  | .CFG_RGN_STAT => ⟨0x222000, [(40, 0x4)], 1⟩
  | .CFG_RGN_CTL => ⟨0x222100, [(40, 0x4)], 1⟩
  | .CFG_ISO_CNT => ⟨0x222200, [(40, 0x4)], 1⟩
  | .CFG_RGN_UPSET => ⟨0x222300, [(40, 0x4)], 1⟩
  | .CFG_SCRUB_CTL => ⟨0x222400, [], 1⟩
  | .CFG_SCRUB_STAT => ⟨0x222404, [], 1⟩
  | .CFG_SCRUB_LAST => ⟨0x222408, [], 1⟩
  | .CFG_SCRUB_CNT => ⟨0x22240C, [], 1⟩
  | .CFG_FAB_STAT => ⟨0x228000, [(40, 0x4)], 1⟩
  | .CFG_BM_STAT => ⟨0x228100, [(40, 0x4)], 1⟩
  | .CFG_TREE_STAT => ⟨0x228200, [(40, 0x4)], 1⟩
  | .CFG_AGT_STAT => ⟨0x228300, [(16, 0x4)], 1⟩
  | .TST_TAP_STAT => ⟨0x240000, [], 1⟩
  | .PST_MB_DOORBELL => ⟨0x1000000, [(64, 0x10000)], 1⟩
  | .PST_MB_REQ => ⟨0x1000004, [(64, 0x10000)], 1⟩
  | .PST_MB_RPL => ⟨0x1000008, [(64, 0x10000)], 1⟩
  | .PST_MB_STAT => ⟨0x100000C, [(64, 0x10000)], 1⟩
  | .PST_MB_EVT => ⟨0x1000010, [(64, 0x10000)], 1⟩

/-- What each field is. -/
def Fld.spec : Fld → FldSpec
  | .DEV_ID_STEPPING => ⟨.DEV_ID, 0, 4, .RO, .K, .val 1⟩
  | .DEV_ID_PART => ⟨.DEV_ID, 4, 12, .RO, .K, .val 324⟩
  | .DEV_ID_GRADE => ⟨.DEV_ID, 16, 2, .RO, .K, .val 0⟩
  | .DEV_ID_VENDOR => ⟨.DEV_ID, 20, 12, .RO, .K, .val 1745⟩
  | .DEV_UID_UID => ⟨.DEV_UID, 0, 64, .RO, .K, .val 0⟩
  | .DEV_ACCESS_ERR_ERR => ⟨.DEV_ACCESS_ERR, 0, 1, .W1C, .D, .val 0⟩
  | .DEV_ACCESS_ERR_LOCKED => ⟨.DEV_ACCESS_ERR, 1, 1, .W1C, .D, .val 0⟩
  | .DEV_ACCESS_ERR_DENIED => ⟨.DEV_ACCESS_ERR, 2, 1, .W1C, .D, .val 0⟩
  | .DEV_ACCESS_ERR_FORM => ⟨.DEV_ACCESS_ERR, 3, 1, .W1C, .D, .val 0⟩
  | .DEV_ACCESS_ERR_UNMAPPED => ⟨.DEV_ACCESS_ERR, 4, 1, .W1C, .D, .val 0⟩
  | .DEV_ACCESS_ERR_SOURCE => ⟨.DEV_ACCESS_ERR, 8, 8, .RO, .D, .val 0⟩
  | .DEV_ACCESS_ERR_WRITE => ⟨.DEV_ACCESS_ERR, 16, 1, .RO, .D, .val 0⟩
  | .DEV_ACCESS_ADDR_ADDR => ⟨.DEV_ACCESS_ADDR, 0, 25, .RO, .D, .val 0⟩
  | .DEV_RST_CAUSE_CAUSE => ⟨.DEV_RST_CAUSE, 0, 4, .RO, .K, .val 1⟩
  | .DEV_RST_CAUSE_COUNT => ⟨.DEV_RST_CAUSE, 16, 16, .RO, .K, .val 0⟩
  | .DEV_RST_CMD_KIND => ⟨.DEV_RST_CMD, 0, 2, .WO, .D, .val 0⟩
  | .DEV_RST_CMD_KEY => ⟨.DEV_RST_CMD, 8, 24, .WO, .D, .val 0⟩
  | .DEV_RGN_ACCESS_RD => ⟨.DEV_RGN_ACCESS, 0, 14, .RW, .F, .val 0⟩
  | .DEV_RGN_ACCESS_WR => ⟨.DEV_RGN_ACCESS, 16, 14, .RW, .F, .val 0⟩
  | .DEV_ISL_RUN_RUN => ⟨.DEV_ISL_RUN, 0, 25, .RO, .D, .val 0⟩
  | .DEV_ISL_STOP_STOP => ⟨.DEV_ISL_STOP, 0, 25, .W1C, .D, .val 0⟩
  | .DEV_ISL_HELD_HELD => ⟨.DEV_ISL_HELD, 0, 25, .RO, .D, .val 33554431⟩
  | .DEV_ISL_RST_RST => ⟨.DEV_ISL_RST, 0, 25, .W1S, .D, .val 0⟩
  | .DEV_XDROP_DROP => ⟨.DEV_XDROP, 0, 16, .RC, .D, .val 0⟩
  | .DEV_XDROP_POISON => ⟨.DEV_XDROP, 16, 16, .RC, .D, .val 0⟩
  | .DEV_OCT_CTL_EN => ⟨.DEV_OCT_CTL, 0, 1, .RW, .D, .below 2 1 0⟩
  | .DEV_OCT_CTL_REFSEL => ⟨.DEV_OCT_CTL, 1, 2, .RW, .D, .below 2 0 2⟩
  | .DEV_OCT_CTL_SSC => ⟨.DEV_OCT_CTL, 3, 1, .RW, .D, .val 0⟩
  | .DEV_OCT_CLK_WCLK => ⟨.DEV_OCT_CLK, 0, 11, .RW, .D, .val 1024⟩
  | .DEV_OCT_PROTO_EP_W => ⟨.DEV_OCT_PROTO, 0, 3, .RW, .D, .below 1 5 0⟩
  | .DEV_OCT_PROTO_RPA_W => ⟨.DEV_OCT_PROTO, 0, 2, .RW, .D, .val 0⟩
  | .DEV_OCT_PROTO_ETH_MODE => ⟨.DEV_OCT_PROTO, 0, 3, .RW, .D, .val 0⟩
  | .DEV_OCT_PROTO_RPB_W => ⟨.DEV_OCT_PROTO, 2, 2, .RW, .D, .val 0⟩
  | .DEV_OCT_PROTO_EP_GEN => ⟨.DEV_OCT_PROTO, 3, 2, .RW, .D, .val 0⟩
  | .DEV_OCT_PROTO_RP_GEN => ⟨.DEV_OCT_PROTO, 4, 1, .RW, .D, .val 0⟩
  | .DEV_OCT_PROTO_ETH_EN => ⟨.DEV_OCT_PROTO, 8, 8, .RW, .D, .val 0⟩
  | .DEV_OCT_STAT_LOCK => ⟨.DEV_OCT_STAT, 0, 1, .RO, .D, .val 0⟩
  | .DEV_OCT_STAT_REF_OK => ⟨.DEV_OCT_STAT, 1, 1, .RO, .D, .val 0⟩
  | .DEV_OCT_STAT_PLL_LOSS => ⟨.DEV_OCT_STAT, 2, 1, .W1C, .D, .val 0⟩
  | .DEV_OCT_STAT_CFG_REF => ⟨.DEV_OCT_STAT, 3, 1, .W1C, .D, .val 0⟩
  | .DEV_OCT_STAT_BIND_REF => ⟨.DEV_OCT_STAT, 4, 1, .W1C, .D, .val 0⟩
  | .DEV_OCT_STAT_FOLLOW => ⟨.DEV_OCT_STAT, 5, 1, .RO, .D, .val 0⟩
  | .DEV_LC_STATE => ⟨.DEV_LC, 0, 3, .RO, .K, .val 0⟩
  | .DEV_LC_CYCLE => ⟨.DEV_LC, 4, 2, .RO, .K, .val 0⟩
  | .DEV_LC_PARTIAL => ⟨.DEV_LC, 8, 1, .W1C, .D, .val 0⟩
  | .DEV_SEC_STAT_KEYS_LOST => ⟨.DEV_SEC_STAT, 0, 1, .W1C, .D, .val 0⟩
  | .DEV_SEC_STAT_ZEROISED => ⟨.DEV_SEC_STAT, 1, 1, .W1C, .K, .val 0⟩
  | .DEV_SEC_STAT_TAP_REFUSED => ⟨.DEV_SEC_STAT, 2, 1, .W1C, .D, .val 0⟩
  | .DEV_SEC_STAT_KEYS => ⟨.DEV_SEC_STAT, 4, 4, .RO, .D, .val 0⟩
  | .DEV_RNG_STAT_STATE => ⟨.DEV_RNG_STAT, 0, 2, .RO, .D, .val 0⟩
  | .DEV_RNG_STAT_HEALTHY => ⟨.DEV_RNG_STAT, 8, 7, .RO, .D, .val 0⟩
  | .DEV_RNG_STAT_RCT_FAIL => ⟨.DEV_RNG_STAT, 16, 8, .RC, .D, .val 0⟩
  | .DEV_RNG_STAT_APT_FAIL => ⟨.DEV_RNG_STAT, 24, 8, .RC, .D, .val 0⟩
  | .DEV_RNG_DATA_DATA => ⟨.DEV_RNG_DATA, 0, 64, .RO, .D, .val 0⟩
  | .DEV_ST_STAT_NEXT => ⟨.DEV_ST_STAT, 0, 9, .RO, .K, .val 0⟩
  | .DEV_ST_STAT_RUNNING => ⟨.DEV_ST_STAT, 9, 1, .RO, .D, .val 0⟩
  | .DEV_ST_STAT_RECORD_RO => ⟨.DEV_ST_STAT, 10, 1, .RO, .K, .val 0⟩
  | .DEV_ST_STAT_FAILS => ⟨.DEV_ST_STAT, 16, 8, .RO, .D, .val 0⟩
  | .DEV_ST_STAT_FUSE_LEFT => ⟨.DEV_ST_STAT, 24, 7, .RO, .K, .val 96⟩
  | .DEV_ST_FAIL_SLICE => ⟨.DEV_ST_FAIL, 0, 9, .RO, .K, .val 0⟩
  | .DEV_ST_FAIL_KIND => ⟨.DEV_ST_FAIL, 9, 3, .RO, .K, .val 0⟩
  | .DEV_ST_FAIL_REPAIR => ⟨.DEV_ST_FAIL, 12, 2, .RO, .K, .val 0⟩
  | .DEV_ST_FAIL_RECUR => ⟨.DEV_ST_FAIL, 14, 2, .RO, .K, .val 0⟩
  | .DEV_ST_FAIL_UNIT => ⟨.DEV_ST_FAIL, 16, 13, .RO, .K, .val 0⟩
  | .DEV_ST_DEFECT_REGIONS => ⟨.DEV_ST_DEFECT, 0, 40, .RO, .K, .val 0⟩
  | .DEV_FRK_REC_REC => ⟨.DEV_FRK_REC, 0, 32, .RW, .D, .val 0⟩
  | .DEV_FRK_CMD_SAVE => ⟨.DEV_FRK_CMD, 0, 1, .WO, .D, .val 0⟩
  | .DEV_FRK_CMD_LOAD => ⟨.DEV_FRK_CMD, 1, 1, .WO, .D, .val 0⟩
  | .DEV_FRK_STAT_STATE => ⟨.DEV_FRK_STAT, 0, 2, .RO, .D, .val 0⟩
  | .DEV_FRK_STAT_SAVE_BUSY => ⟨.DEV_FRK_STAT, 2, 1, .RO, .D, .val 0⟩
  | .DEV_FRK_STAT_SAVE_FAIL => ⟨.DEV_FRK_STAT, 3, 1, .W1C, .D, .val 0⟩
  | .DEV_FRK_STAT_REC_BAD => ⟨.DEV_FRK_STAT, 4, 1, .W1C, .D, .val 0⟩
  | .DEV_FRK_STAT_OVERRIDE => ⟨.DEV_FRK_STAT, 16, 16, .RC, .D, .val 0⟩
  | .DEV_FRK_CNT_PRINTED => ⟨.DEV_FRK_CNT, 0, 32, .RO, .D, .val 0⟩
  | .DEV_FRK_MISS_MISSED => ⟨.DEV_FRK_MISS, 0, 32, .RC, .D, .val 0⟩
  | .DEV_FRK_CTR_COUNTER => ⟨.DEV_FRK_CTR, 0, 32, .RO, .D, .val 0⟩
  | .DEV_RTC_SECONDS => ⟨.DEV_RTC, 0, 40, .RO, .B, .val 0⟩
  | .DEV_RTC_STAT_VALID => ⟨.DEV_RTC_STAT, 0, 1, .RO, .B, .val 0⟩
  | .PWR_STATE_STATE => ⟨.PWR_STATE, 0, 3, .RO, .D, .val 0⟩
  | .PWR_STATE_BUSY => ⟨.PWR_STATE, 3, 1, .RO, .D, .val 0⟩
  | .PWR_STATE_WAKE => ⟨.PWR_STATE, 8, 4, .RO, .K, .val 0⟩
  | .PWR_WAKE_CTL_WAKE_N_EN => ⟨.PWR_WAKE_CTL, 0, 1, .RW, .K, .val 1⟩
  | .PWR_WAKE_CTL_ALARM_EN => ⟨.PWR_WAKE_CTL, 1, 1, .RW, .K, .val 0⟩
  | .PWR_WAKE_CTL_AXIS_EN => ⟨.PWR_WAKE_CTL, 2, 1, .RW, .K, .val 0⟩
  | .PWR_WAKE_CTL_PERST_EN => ⟨.PWR_WAKE_CTL, 3, 1, .RW, .K, .val 1⟩
  | .PWR_WAKE_CTL_AXIS => ⟨.PWR_WAKE_CTL, 4, 3, .RW, .K, .val 0⟩
  | .PWR_WAKE_CTL_DIST => ⟨.PWR_WAKE_CTL, 8, 24, .RW, .K, .val 1024⟩
  | .PWR_WAKE_ALARM_SECONDS => ⟨.PWR_WAKE_ALARM, 0, 40, .RW, .K, .val 0⟩
  | .PWR_PKG_STAT_POWER => ⟨.PWR_PKG_STAT, 0, 16, .RO, .D, .val 0⟩
  | .PWR_PKG_STAT_HOTTEST => ⟨.PWR_PKG_STAT, 16, 16, .RO, .D, .val 0⟩
  | .PWR_PKG_CTL_COOLING => ⟨.PWR_PKG_CTL, 0, 1, .RW, .D, .val 0⟩
  | .PWR_PKG_CTL_PLIMIT => ⟨.PWR_PKG_CTL, 16, 16, .RW, .D, .val 6500⟩
  | .PWR_THERM_CTL_WARN => ⟨.PWR_THERM_CTL, 0, 8, .RW, .D, .val 90⟩
  | .PWR_THERM_STAT_WARN => ⟨.PWR_THERM_STAT, 0, 1, .W1C, .D, .val 0⟩
  | .PWR_THERM_STAT_HOT => ⟨.PWR_THERM_STAT, 1, 1, .W1C, .D, .val 0⟩
  | .PWR_THERM_STAT_OVER_AIR => ⟨.PWR_THERM_STAT, 2, 1, .W1C, .D, .val 0⟩
  | .PWR_THERM_STAT_OVER_PLIMIT => ⟨.PWR_THERM_STAT, 3, 1, .W1C, .D, .val 0⟩
  | .PWR_THERM_STAT_TRIP => ⟨.PWR_THERM_STAT, 4, 1, .W1C, .K, .val 0⟩
  | .PWR_THERM_STAT_SENSOR => ⟨.PWR_THERM_STAT, 8, 6, .RO, .D, .val 0⟩
  | .PWR_RGN_CTL_MODE => ⟨.PWR_RGN_CTL, 0, 1, .RW, .D, .val 0⟩
  | .PWR_RGN_CTL_MARGIN => ⟨.PWR_RGN_CTL, 8, 6, .RW, .D, .val 8⟩
  | .PWR_RGN_CTL_CAP => ⟨.PWR_RGN_CTL, 16, 8, .RW, .D, .val 200⟩
  | .PWR_RGN_CTL_FIXED_V => ⟨.PWR_RGN_CTL, 24, 8, .RW, .D, .val 125⟩
  | .PWR_RGN_STAT_VSET => ⟨.PWR_RGN_STAT, 0, 8, .RO, .D, .val 25⟩
  | .PWR_RGN_STAT_VMEAS => ⟨.PWR_RGN_STAT, 8, 8, .RO, .D, .val 0⟩
  | .PWR_RGN_STAT_FLOOR => ⟨.PWR_RGN_STAT, 16, 8, .RO, .D, .val 25⟩
  | .PWR_RGN_STAT_AT_CAP => ⟨.PWR_RGN_STAT, 24, 1, .RO, .D, .val 0⟩
  | .PWR_RGN_STAT_NEAR_CAP => ⟨.PWR_RGN_STAT, 25, 1, .W1C, .D, .val 0⟩
  | .PWR_RGN_STAT_AGE_WARN => ⟨.PWR_RGN_STAT, 26, 1, .W1C, .D, .val 0⟩
  | .PWR_RGN_STAT_REG_FAULT => ⟨.PWR_RGN_STAT, 27, 1, .W1C, .D, .val 0⟩
  | .PWR_RGN_STAT_REF => ⟨.PWR_RGN_STAT, 28, 1, .W1C, .D, .val 0⟩
  | .PWR_RGN_STAT_RETAINED => ⟨.PWR_RGN_STAT, 29, 1, .RO, .D, .val 0⟩
  | .PWR_RGN_LOOP_RATIO => ⟨.PWR_RGN_LOOP, 0, 16, .RO, .D, .val 65535⟩
  | .PWR_RGN_LOOP_AGE => ⟨.PWR_RGN_LOOP, 16, 12, .RO, .D, .val 0⟩
  | .PWR_RGN_LOOP_SHORT => ⟨.PWR_RGN_LOOP, 28, 4, .RC, .D, .val 0⟩
  | .PWR_MON_MV => ⟨.PWR_MON, 0, 16, .RO, .D, .val 0⟩
  | .PWR_MON_UV => ⟨.PWR_MON, 16, 1, .RO, .D, .val 0⟩
  | .PWR_MON_OV => ⟨.PWR_MON, 17, 1, .RO, .D, .val 0⟩
  | .PWR_MON_UV_SEEN => ⟨.PWR_MON, 18, 1, .W1C, .D, .val 0⟩
  | .PWR_MON_OV_SEEN => ⟨.PWR_MON, 19, 1, .W1C, .D, .val 0⟩
  | .PWR_TEMP_TEMP => ⟨.PWR_TEMP, 0, 16, .RO, .D, .val 0⟩
  | .PWR_AIN_CODE => ⟨.PWR_AIN, 0, 16, .RO, .D, .val 0⟩
  | .PWR_AIN_BROKEN => ⟨.PWR_AIN, 16, 1, .RO, .D, .val 0⟩
  | .PWR_AIN_STALE => ⟨.PWR_AIN, 17, 1, .RO, .D, .val 0⟩
  | .PWR_AIN_OUT => ⟨.PWR_AIN, 18, 1, .RO, .D, .val 0⟩
  | .PWR_AIN_SEQ => ⟨.PWR_AIN, 24, 8, .RO, .D, .val 0⟩
  | .PWR_AIN_CTL_EN => ⟨.PWR_AIN_CTL, 0, 1, .RW, .D, .val 0⟩
  | .PWR_AIN_CTL_MODE => ⟨.PWR_AIN_CTL, 1, 1, .RW, .D, .val 0⟩
  | .PWR_AIN_CTL_LIMIT_EN => ⟨.PWR_AIN_CTL, 2, 1, .RW, .D, .val 0⟩
  | .PWR_AIN_LIM_LO => ⟨.PWR_AIN_LIM, 0, 16, .RW, .D, .val 0⟩
  | .PWR_AIN_LIM_HI => ⟨.PWR_AIN_LIM, 16, 16, .RW, .D, .val 65535⟩
  | .PWR_AIN_FLT_BROKEN_SEEN => ⟨.PWR_AIN_FLT, 0, 16, .W1C, .D, .val 0⟩
  | .PWR_AIN_FLT_LIMIT_SEEN => ⟨.PWR_AIN_FLT, 16, 16, .W1C, .D, .val 0⟩
  | .PWR_EXT_ADDR => ⟨.PWR_EXT, 0, 7, .RO, .D, .val 0⟩
  | .PWR_EXT_VALID => ⟨.PWR_EXT, 7, 1, .RO, .D, .val 0⟩
  | .PWR_EXT_NO_ANSWER => ⟨.PWR_EXT, 8, 1, .W1C, .D, .val 0⟩
  | .PWR_EXT_VOUT_FLT => ⟨.PWR_EXT, 9, 1, .W1C, .D, .val 0⟩
  | .PWR_EXT_IOUT_FLT => ⟨.PWR_EXT, 10, 1, .W1C, .D, .val 0⟩
  | .PWR_EXT_TEMP_FLT => ⟨.PWR_EXT, 11, 1, .W1C, .D, .val 0⟩
  | .PWR_EXT_FORMAT => ⟨.PWR_EXT, 12, 1, .RO, .D, .val 0⟩
  | .PWR_EXT_VOUT => ⟨.PWR_EXT, 16, 16, .RO, .D, .val 0⟩
  | .POS_AX_CTL_SRC => ⟨.POS_AX_CTL, 0, 2, .RW, .D, .val 0⟩
  | .POS_AX_CTL_ENC => ⟨.POS_AX_CTL, 2, 3, .RW, .D, .val 0⟩
  | .POS_AX_CTL_MULT => ⟨.POS_AX_CTL, 5, 2, .RW, .D, .val 0⟩
  | .POS_AX_CTL_INV => ⟨.POS_AX_CTL, 7, 1, .RW, .D, .val 0⟩
  | .POS_AX_CTL_ZMODE => ⟨.POS_AX_CTL, 8, 2, .RW, .D, .val 0⟩
  | .POS_AX_CMD_START => ⟨.POS_AX_CMD, 0, 1, .WO, .D, .val 0⟩
  | .POS_AX_CMD_STOP => ⟨.POS_AX_CMD, 1, 1, .WO, .D, .val 0⟩
  | .POS_AX_CMD_RECOVER => ⟨.POS_AX_CMD, 2, 1, .WO, .D, .val 0⟩
  | .POS_AX_STAT_STATE => ⟨.POS_AX_STAT, 0, 2, .RO, .D, .val 0⟩
  | .POS_AX_STAT_DIR => ⟨.POS_AX_STAT, 2, 1, .RO, .D, .val 0⟩
  | .POS_AX_STAT_REVISIT => ⟨.POS_AX_STAT, 3, 1, .RO, .D, .val 0⟩
  | .POS_AX_STAT_VVALID => ⟨.POS_AX_STAT, 4, 1, .RO, .D, .val 0⟩
  | .POS_AX_STAT_PENDING => ⟨.POS_AX_STAT, 5, 1, .RO, .D, .val 0⟩
  | .POS_AX_FLT_FAULT => ⟨.POS_AX_FLT, 0, 5, .W1C, .D, .val 0⟩
  | .POS_AX_FLT_LOST => ⟨.POS_AX_FLT, 5, 1, .W1C, .D, .val 0⟩
  | .POS_AX_FLT_RECOVER_FAIL => ⟨.POS_AX_FLT, 6, 1, .W1C, .D, .val 0⟩
  | .POS_AX_FLT_CMD_ERR => ⟨.POS_AX_FLT, 7, 1, .W1C, .D, .val 0⟩
  | .POS_AX_FLT_REANCHOR => ⟨.POS_AX_FLT, 8, 1, .W1C, .D, .val 0⟩
  | .POS_AX_FLT_Z_SLIP => ⟨.POS_AX_FLT, 9, 1, .W1C, .D, .val 0⟩
  | .POS_AX_FLT_Z_OPEN => ⟨.POS_AX_FLT, 10, 1, .W1C, .D, .val 0⟩
  | .POS_AX_FLT_WRAP => ⟨.POS_AX_FLT, 11, 1, .W1C, .D, .val 0⟩
  | .POS_AX_FLT_FIRST => ⟨.POS_AX_FLT, 16, 3, .RO, .D, .val 0⟩
  | .POS_AX_POS_VALUE => ⟨.POS_AX_POS, 0, 64, .RO, .D, .axis⟩
  | .POS_AX_EPOCH_VALUE => ⟨.POS_AX_EPOCH, 0, 32, .RO, .D, .val 0⟩
  | .POS_AX_VEL_VALUE => ⟨.POS_AX_VEL, 0, 32, .RO, .D, .val 0⟩
  | .POS_AX_HWM_VALUE => ⟨.POS_AX_HWM, 0, 64, .RO, .D, .axis⟩
  | .POS_AX_LOAD_VALUE => ⟨.POS_AX_LOAD, 0, 64, .RW, .D, .axis⟩
  | .POS_AX_LOAD_EPOCH_VALUE => ⟨.POS_AX_LOAD_EPOCH, 0, 32, .RW, .D, .val 0⟩
  | .POS_AX_DR_DIST => ⟨.POS_AX_DR, 0, 24, .RW, .D, .val 2048⟩
  | .POS_AX_DRTIME_TIME => ⟨.POS_AX_DRTIME, 0, 24, .RW, .D, .val 50000⟩
  | .POS_AX_TUNE_VWIN => ⟨.POS_AX_TUNE, 0, 3, .RW, .D, .val 0⟩
  | .POS_AX_TUNE_FILT => ⟨.POS_AX_TUNE, 4, 4, .RW, .D, .val 3⟩
  | .POS_AX_TUNE_HYST => ⟨.POS_AX_TUNE, 8, 8, .RW, .D, .val 4⟩
  | .POS_AX_TUNE_STUCK_N => ⟨.POS_AX_TUNE, 16, 8, .RW, .D, .val 16⟩
  | .POS_AX_TUNE_REANCHOR_MAX => ⟨.POS_AX_TUNE, 24, 8, .RW, .D, .val 16⟩
  | .POS_AX_VMIN_VMIN => ⟨.POS_AX_VMIN, 0, 24, .RW, .D, .val 100⟩
  | .POS_AX_ZPERIOD_VALUE => ⟨.POS_AX_ZPERIOD, 0, 32, .RW, .D, .val 0⟩
  | .POS_AX_ZTOL_TOL => ⟨.POS_AX_ZTOL, 0, 8, .RW, .D, .val 2⟩
  | .POS_AX_ZCAP_VALUE => ⟨.POS_AX_ZCAP, 0, 64, .RO, .D, .axis⟩
  | .POS_AX_VSPEED_VALUE => ⟨.POS_AX_VSPEED, 0, 32, .RW, .D, .val 0⟩
  | .POS_AX_VACC_VALUE => ⟨.POS_AX_VACC, 0, 32, .RW, .D, .val 0⟩
  | .POS_AX_FOLLOW_LINK => ⟨.POS_AX_FOLLOW, 0, 8, .RW, .D, .val 0⟩
  | .POS_AX_FOLLOW_BAXIS => ⟨.POS_AX_FOLLOW, 8, 3, .RW, .D, .val 0⟩
  | .POS_AX_ERRCNT_GLITCH => ⟨.POS_AX_ERRCNT, 0, 16, .RC, .D, .val 0⟩
  | .POS_AX_ERRCNT_ZSLIP => ⟨.POS_AX_ERRCNT, 16, 16, .RC, .D, .val 0⟩
  | .POS_AX_LOSTCNT_CNT => ⟨.POS_AX_LOSTCNT, 0, 16, .RO, .D, .val 0⟩
  | .POS_AX_JUMP_JUMP => ⟨.POS_AX_JUMP, 0, 16, .RO, .D, .val 0⟩
  | .POS_AX_SNAP_VALUE => ⟨.POS_AX_SNAP, 0, 64, .RO, .D, .axis⟩
  | .POS_AX_SNAP_EPOCH_VALUE => ⟨.POS_AX_SNAP_EPOCH, 0, 32, .RO, .D, .val 0⟩
  | .POS_SNAP_CMD_SNAP => ⟨.POS_SNAP_CMD, 0, 1, .WO, .D, .val 0⟩
  | .POS_SNAP_TB_TB => ⟨.POS_SNAP_TB, 0, 64, .RO, .D, .val 0⟩
  | .POS_STRB_CTL_EN => ⟨.POS_STRB_CTL, 0, 1, .RW, .D, .val 0⟩
  | .POS_STRB_CTL_AXIS => ⟨.POS_STRB_CTL, 1, 3, .RW, .D, .val 0⟩
  | .POS_STRB_CTL_DIRSEL => ⟨.POS_STRB_CTL, 4, 2, .RW, .D, .val 1⟩
  | .POS_STRB_PITCH_PITCH => ⟨.POS_STRB_PITCH, 0, 32, .RW, .D, .val 65536⟩
  | .POS_STRB_BASE_BASE => ⟨.POS_STRB_BASE, 0, 64, .RW, .D, .val 0⟩
  | .POS_STRB_STAT_MERGE => ⟨.POS_STRB_STAT, 0, 16, .RC, .D, .val 0⟩
  | .POS_ENC_STAT_VALID => ⟨.POS_ENC_STAT, 0, 24, .RO, .D, .val 0⟩
  | .SRT_CTL_EN => ⟨.SRT_CTL, 0, 1, .RW, .D, .val 0⟩
  | .SRT_CTL_MODE => ⟨.SRT_CTL, 1, 1, .RW, .D, .val 0⟩
  | .SRT_CTL_ORDER => ⟨.SRT_CTL, 2, 2, .RW, .D, .val 0⟩
  | .SRT_CTL_AXIS => ⟨.SRT_CTL, 4, 3, .RW, .D, .val 0⟩
  | .SRT_CMD_FLUSH => ⟨.SRT_CMD, 0, 1, .WO, .D, .val 0⟩
  | .SRT_STAT_COUNT => ⟨.SRT_STAT, 0, 13, .RO, .F, .val 0⟩
  | .SRT_STAT_EMPTY => ⟨.SRT_STAT, 13, 1, .RO, .F, .val 1⟩
  | .SRT_STAT_FULL => ⟨.SRT_STAT, 14, 1, .RO, .F, .val 0⟩
  | .SRT_STAT_BAD => ⟨.SRT_STAT, 16, 1, .W1C, .D, .val 0⟩
  | .SRT_STAT_FULL_REF => ⟨.SRT_STAT, 17, 1, .W1C, .D, .val 0⟩
  | .SRT_STAT_LATE => ⟨.SRT_STAT, 18, 1, .W1C, .D, .val 0⟩
  | .SRT_STAT_RANGE => ⟨.SRT_STAT, 19, 1, .W1C, .D, .val 0⟩
  | .SRT_STAT_CFG_ERR => ⟨.SRT_STAT, 20, 1, .W1C, .D, .val 0⟩
  | .SRT_TGT_GROUP => ⟨.SRT_TGT, 0, 4, .RW, .D, .val 0⟩
  | .SRT_TGT_PERMIT => ⟨.SRT_TGT, 4, 16, .RW, .D, .val 0⟩
  | .SRT_TGT_REGION => ⟨.SRT_TGT, 20, 6, .RW, .D, .val 0⟩
  | .SRT_TGT_GATE => ⟨.SRT_TGT, 26, 1, .RW, .D, .val 0⟩
  | .SRT_TGT_KIND => ⟨.SRT_TGT, 27, 1, .RW, .D, .val 0⟩
  | .SRT_LATE_TOL_TOL => ⟨.SRT_LATE_TOL, 0, 32, .RW, .D, .val 0⟩
  | .SRT_ERR_LATE_DROP => ⟨.SRT_ERR, 0, 16, .RC, .D, .val 0⟩
  | .SRT_ERR_RANGE_DROP => ⟨.SRT_ERR, 16, 16, .RC, .D, .val 0⟩
  | .SRT_FLUSH_CNT_COUNT => ⟨.SRT_FLUSH_CNT, 0, 13, .RO, .D, .val 0⟩
  | .SRT_INS_RES_RESULT => ⟨.SRT_INS_RES, 0, 3, .RO, .D, .val 0⟩
  | .SRT_INS_ENTRY => ⟨.SRT_INS, 0, 128, .WO, .F, .val 0⟩
  | .SRT_HEAD_ENTRY => ⟨.SRT_HEAD, 0, 128, .RO, .F, .val 0⟩
  | .PIN_CFG_PULL => ⟨.PIN_CFG, 0, 2, .RWL, .D, .val 2⟩
  | .PIN_CFG_DRIVE => ⟨.PIN_CFG, 2, 2, .RWL, .D, .val 1⟩
  | .PIN_CFG_IDLE => ⟨.PIN_CFG, 4, 2, .RWL, .D, .val 0⟩
  | .PIN_CFG_OD => ⟨.PIN_CFG, 6, 1, .RWL, .D, .val 0⟩
  | .PIN_IMAP_SINK => ⟨.PIN_IMAP, 0, 10, .RWL, .D, .val 0⟩
  | .PIN_OMAP_PIN => ⟨.PIN_OMAP, 0, 8, .RWL, .D, .val 255⟩
  | .PIN_OUT_OUT => ⟨.PIN_OUT, 0, 16, .RW, .D, .val 0⟩
  | .PIN_IN_IN => ⟨.PIN_IN, 0, 16, .RO, .D, .val 0⟩
  | .PIN_BANK_CTL_RANGE => ⟨.PIN_BANK_CTL, 0, 3, .RWL, .D, .val 7⟩
  | .PIN_BANK_CTL_PMB_EN => ⟨.PIN_BANK_CTL, 3, 1, .RWL, .D, .val 0⟩
  | .PIN_BANK_STAT_HOLD => ⟨.PIN_BANK_STAT, 0, 1, .RO, .D, .val 0⟩
  | .PIN_BANK_STAT_MISMATCH => ⟨.PIN_BANK_STAT, 1, 1, .W1C, .D, .val 0⟩
  | .PIN_BANK_STAT_NOSUPPLY => ⟨.PIN_BANK_STAT, 2, 1, .W1C, .D, .val 0⟩
  | .PIN_BANK_STAT_BADRANGE => ⟨.PIN_BANK_STAT, 3, 1, .W1C, .D, .val 0⟩
  | .PIN_OCONF_OCONF => ⟨.PIN_OCONF, 0, 16, .RO, .D, .val 0⟩
  | .PIN_ICONF_ICONF => ⟨.PIN_ICONF, 0, 16, .RO, .D, .val 0⟩
  | .PIN_LOCK_ARM_ARM => ⟨.PIN_LOCK_ARM, 0, 32, .WO, .D, .val 0⟩
  | .PIN_LOCK_SET_SET => ⟨.PIN_LOCK_SET, 0, 20, .WO, .D, .val 0⟩
  | .PIN_LOCK_LOCK => ⟨.PIN_LOCK, 0, 16, .RO, .D, .val 0⟩
  | .PIN_GSTAT_PHASE => ⟨.PIN_GSTAT, 0, 2, .RO, .D, .val 0⟩
  | .PIN_GSTAT_OCONF => ⟨.PIN_GSTAT, 2, 1, .W1C, .D, .val 0⟩
  | .PIN_GSTAT_ICONF => ⟨.PIN_GSTAT, 3, 1, .W1C, .D, .val 0⟩
  | .PIN_GSTAT_LOCK_ABORT => ⟨.PIN_GSTAT, 4, 1, .W1C, .D, .val 0⟩
  | .PIN_OUT_MW_MW => ⟨.PIN_OUT_MW, 0, 32, .WO, .D, .val 0⟩
  | .PIN_PLC_CTL_EN => ⟨.PIN_PLC_CTL, 0, 1, .RW, .D, .val 0⟩
  | .PIN_PLC_STAT_LATE => ⟨.PIN_PLC_STAT, 0, 1, .W1C, .D, .val 0⟩
  | .PIN_PLC_STAT_OVERLAP => ⟨.PIN_PLC_STAT, 1, 1, .W1C, .D, .val 0⟩
  | .PIN_PLC_STAT_BAD_ACT => ⟨.PIN_PLC_STAT, 2, 1, .W1C, .D, .val 0⟩
  | .PIN_PLC_STAT_UNCAL => ⟨.PIN_PLC_STAT, 3, 1, .RO, .D, .val 1⟩
  | .PIN_PLC_CNT_LATE => ⟨.PIN_PLC_CNT, 0, 16, .RC, .D, .val 0⟩
  | .PIN_PLC_CNT_HOLD_MISS => ⟨.PIN_PLC_CNT, 16, 16, .RC, .D, .val 0⟩
  | .PIN_LOAD_LOAD => ⟨.PIN_LOAD, 0, 10, .RO, .D, .val 160⟩
  | .PIN_CAL_STAT_RESULT => ⟨.PIN_CAL_STAT, 0, 3, .RO, .D, .val 0⟩
  | .PIN_CAL_CMD_MASK => ⟨.PIN_CAL_CMD, 0, 16, .RW, .D, .val 0⟩
  | .PIN_CAL_CMD_BANK => ⟨.PIN_CAL_CMD, 16, 4, .RW, .D, .val 0⟩
  | .PIN_CAL_CMD_KIND => ⟨.PIN_CAL_CMD, 20, 1, .RW, .D, .val 0⟩
  | .PIN_CAL_CMD_BUSY => ⟨.PIN_CAL_CMD, 31, 1, .RO, .D, .val 0⟩
  | .PIN_PWM_PER_PER => ⟨.PIN_PWM_PER, 0, 16, .RW, .D, .val 0⟩
  | .PIN_PWM_HI_HI => ⟨.PIN_PWM_HI, 0, 16, .RW, .D, .val 0⟩
  | .LANE_CTL_EN => ⟨.LANE_CTL, 0, 1, .RW, .D, .val 0⟩
  | .LANE_CTL_POL_TX => ⟨.LANE_CTL, 1, 1, .RW, .D, .val 0⟩
  | .LANE_CTL_POL_RX => ⟨.LANE_CTL, 2, 1, .RW, .D, .val 0⟩
  | .LANE_CTL_LOOP => ⟨.LANE_CTL, 3, 2, .RW, .D, .val 0⟩
  | .LANE_CTL_PRBS => ⟨.LANE_CTL, 5, 3, .RW, .D, .val 0⟩
  | .LANE_CTL_RESET => ⟨.LANE_CTL, 8, 1, .WO, .D, .val 0⟩
  | .LANE_CTL_AMP => ⟨.LANE_CTL, 9, 3, .RW, .D, .val 5⟩
  | .LANE_CTL_LOS_THR => ⟨.LANE_CTL, 12, 4, .RW, .D, .val 4⟩
  | .LANE_RATE_RATE => ⟨.LANE_RATE, 0, 19, .RW, .D, .val 1280⟩
  | .LANE_RATE_PAM4 => ⟨.LANE_RATE, 19, 1, .RW, .D, .val 0⟩
  | .LANE_TXEQ_PRE => ⟨.LANE_TXEQ, 0, 5, .RW, .D, .val 4⟩
  | .LANE_TXEQ_POST => ⟨.LANE_TXEQ, 8, 6, .RW, .D, .val 8⟩
  | .LANE_TXEQ_MAIN => ⟨.LANE_TXEQ, 16, 7, .RO, .D, .val 52⟩
  | .LANE_TXEQ_MODE => ⟨.LANE_TXEQ, 24, 1, .RW, .D, .val 1⟩
  | .LANE_RXEQ_MODE => ⟨.LANE_RXEQ, 0, 2, .RW, .D, .val 0⟩
  | .LANE_RXEQ_CTLE => ⟨.LANE_RXEQ, 8, 5, .RW, .D, .val 16⟩
  | .LANE_RXEQ_CTLE_RD => ⟨.LANE_RXEQ, 16, 5, .RO, .L, .val 0⟩
  | .LANE_STAT_LOS => ⟨.LANE_STAT, 0, 1, .RO, .L, .val 1⟩
  | .LANE_STAT_LOCK => ⟨.LANE_STAT, 1, 1, .RO, .L, .val 0⟩
  | .LANE_STAT_ADAPT_DONE => ⟨.LANE_STAT, 2, 1, .RO, .L, .val 0⟩
  | .LANE_STAT_RESETTING => ⟨.LANE_STAT, 3, 1, .RO, .L, .val 0⟩
  | .LANE_STAT_BIND => ⟨.LANE_STAT, 4, 4, .RO, .D, .val 0⟩
  | .LANE_ERR_LOS => ⟨.LANE_ERR, 0, 1, .W1C, .D, .val 0⟩
  | .LANE_ERR_LOL => ⟨.LANE_ERR, 1, 1, .W1C, .D, .val 0⟩
  | .LANE_ERR_RATE_REF => ⟨.LANE_ERR, 2, 1, .W1C, .D, .val 0⟩
  | .LANE_ERR_TXEQ_REF => ⟨.LANE_ERR, 3, 1, .W1C, .D, .val 0⟩
  | .LANE_ERR_OWNED => ⟨.LANE_ERR, 4, 1, .W1C, .D, .val 0⟩
  | .LANE_ERR_FIRST => ⟨.LANE_ERR, 8, 2, .RO, .D, .val 0⟩
  | .LANE_CUR_CUR => ⟨.LANE_CUR, 0, 20, .RO, .L, .val 0⟩
  | .LANE_DFE_TAPS => ⟨.LANE_DFE, 0, 32, .RW, .D, .val 0⟩
  | .LANE_CNT_PRBS_ERR => ⟨.LANE_CNT, 0, 32, .RC, .L, .val 0⟩
  | .LANE_ERRCNT_LOS_N => ⟨.LANE_ERRCNT, 0, 16, .RC, .D, .val 0⟩
  | .LANE_ERRCNT_LOL_N => ⟨.LANE_ERRCNT, 16, 16, .RC, .D, .val 0⟩
  | .LANE_EP_STAT_LINK_UP => ⟨.LANE_EP_STAT, 0, 1, .RO, .L, .val 0⟩
  | .LANE_EP_STAT_WIDTH => ⟨.LANE_EP_STAT, 1, 3, .RO, .L, .val 0⟩
  | .LANE_EP_STAT_RATE => ⟨.LANE_EP_STAT, 4, 3, .RO, .L, .val 0⟩
  | .LANE_EP_STAT_FLIT => ⟨.LANE_EP_STAT, 7, 1, .RO, .L, .val 0⟩
  | .LANE_EP_ID_VENDOR => ⟨.LANE_EP_ID, 0, 16, .RO, .K, .val 0⟩
  | .LANE_EP_ID_DEVICE => ⟨.LANE_EP_ID, 16, 16, .RO, .K, .val 324⟩
  | .LANE_RP_STAT_PRESENT => ⟨.LANE_RP_STAT, 0, 1, .RO, .L, .val 0⟩
  | .LANE_RP_STAT_LINK_UP => ⟨.LANE_RP_STAT, 1, 1, .RO, .L, .val 0⟩
  | .LANE_RP_STAT_WIDTH => ⟨.LANE_RP_STAT, 2, 2, .RO, .L, .val 0⟩
  | .LANE_RP_STAT_RATE => ⟨.LANE_RP_STAT, 4, 3, .RO, .L, .val 0⟩
  | .LANE_RP_STAT_CONTAINED => ⟨.LANE_RP_STAT, 8, 1, .W1C, .L, .val 0⟩
  | .LANE_RP_STAT_NOT_NVME => ⟨.LANE_RP_STAT, 9, 1, .W1C, .L, .val 0⟩
  | .LANE_ETH_STAT_LINK_UP => ⟨.LANE_ETH_STAT, 0, 1, .RO, .L, .val 0⟩
  | .LANE_ETH_STAT_LOCAL_FAULT => ⟨.LANE_ETH_STAT, 1, 1, .RO, .L, .val 0⟩
  | .LANE_ETH_STAT_REMOTE_FAULT => ⟨.LANE_ETH_STAT, 2, 1, .RO, .L, .val 0⟩
  | .LANE_ETH_CNT_RX_DROP => ⟨.LANE_ETH_CNT, 0, 16, .RC, .L, .val 0⟩
  | .LANE_ETH_CNT_TX_BAD => ⟨.LANE_ETH_CNT, 16, 16, .RC, .L, .val 0⟩
  | .LANE_ETH_RXWR_INDEX => ⟨.LANE_ETH_RXWR, 0, 16, .RO, .L, .val 0⟩
  | .LANE_ETH_RXRD_INDEX => ⟨.LANE_ETH_RXRD, 0, 16, .RW, .L, .val 0⟩
  | .LANE_ETH_TXWR_INDEX => ⟨.LANE_ETH_TXWR, 0, 16, .RW, .L, .val 0⟩
  | .LANE_ETH_TXRD_INDEX => ⟨.LANE_ETH_TXRD, 0, 16, .RO, .L, .val 0⟩
  | .LNK_CTL_EN => ⟨.LNK_CTL, 0, 1, .RW, .D, .val 0⟩
  | .LNK_CTL_LANES => ⟨.LNK_CTL, 8, 8, .RW, .D, .val 1⟩
  | .LNK_CTL_MIN_W => ⟨.LNK_CTL, 16, 4, .RW, .D, .val 1⟩
  | .LNK_CTL_FALLBACK => ⟨.LNK_CTL, 20, 2, .RW, .D, .val 2⟩
  | .LNK_CMD_RETRAIN => ⟨.LNK_CMD, 0, 1, .WO, .D, .val 0⟩
  | .LNK_CMD_WIDTH => ⟨.LNK_CMD, 1, 1, .WO, .D, .val 0⟩
  | .LNK_CMD_MASK => ⟨.LNK_CMD, 8, 8, .WO, .D, .val 0⟩
  | .LNK_STAT_STATE => ⟨.LNK_STAT, 0, 3, .RO, .L, .val 0⟩
  | .LNK_STAT_LEADER => ⟨.LNK_STAT, 3, 1, .RO, .L, .val 0⟩
  | .LNK_STAT_MEMBER => ⟨.LNK_STAT, 4, 1, .RO, .D, .val 0⟩
  | .LNK_STAT_MASK => ⟨.LNK_STAT, 8, 8, .RO, .L, .val 0⟩
  | .LNK_STAT_REASON => ⟨.LNK_STAT, 16, 8, .RO, .D, .val 0⟩
  | .LNK_STAT_ATTEMPT => ⟨.LNK_STAT, 24, 4, .RO, .D, .val 0⟩
  | .LNK_ERR_DOWN => ⟨.LNK_ERR, 0, 1, .W1C, .D, .val 0⟩
  | .LNK_ERR_UNCORR => ⟨.LNK_ERR, 1, 1, .W1C, .D, .val 0⟩
  | .LNK_ERR_UNDERRUN => ⟨.LNK_ERR, 2, 1, .W1C, .D, .val 0⟩
  | .LNK_ERR_YIELD => ⟨.LNK_ERR, 3, 1, .W1C, .D, .val 0⟩
  | .LNK_ERR_CFG_REF => ⟨.LNK_ERR, 4, 1, .W1C, .D, .val 0⟩
  | .LNK_ERR_BEACON_DROP => ⟨.LNK_ERR, 5, 1, .W1C, .D, .val 0⟩
  | .LNK_ERR_EXPRESS_BAD => ⟨.LNK_ERR, 6, 1, .W1C, .D, .val 0⟩
  | .LNK_ERR_WIDTH_CHG => ⟨.LNK_ERR, 7, 1, .W1C, .D, .val 0⟩
  | .LNK_PARTNER_UID_UID => ⟨.LNK_PARTNER_UID, 0, 64, .RO, .L, .val 0⟩
  | .LNK_PARTNER_CAP_CLASS => ⟨.LNK_PARTNER_CAP, 0, 8, .RO, .L, .val 0⟩
  | .LNK_PARTNER_CAP_FLAGS => ⟨.LNK_PARTNER_CAP, 8, 8, .RO, .L, .val 0⟩
  | .LNK_PARTNER_CAP_REVISION => ⟨.LNK_PARTNER_CAP, 16, 16, .RO, .L, .val 0⟩
  | .LNK_PARTNER_PREP_PREP => ⟨.LNK_PARTNER_PREP, 0, 32, .RO, .L, .val 0⟩
  | .LNK_LATENCY_L => ⟨.LNK_LATENCY, 0, 32, .RO, .L, .val 0⟩
  | .LNK_CABLE_LEN => ⟨.LNK_CABLE, 0, 20, .RO, .L, .val 0⟩
  | .LNK_CABLE_VF => ⟨.LNK_CABLE, 20, 11, .RW, .D, .val 717⟩
  | .LNK_BEACON_AXES => ⟨.LNK_BEACON, 0, 8, .RW, .D, .val 0⟩
  | .LNK_FIRE_GUARD => ⟨.LNK_FIRE, 0, 16, .RW, .D, .val 100⟩
  | .LNK_CNT_FEC_CORR => ⟨.LNK_CNT_FEC, 0, 16, .RC, .D, .val 0⟩
  | .LNK_CNT_FEC_UNCORR => ⟨.LNK_CNT_FEC, 16, 16, .RC, .D, .val 0⟩
  | .LNK_CNT_FLIT_REPLAY => ⟨.LNK_CNT_FLIT, 0, 16, .RC, .D, .val 0⟩
  | .LNK_CNT_FLIT_DROP => ⟨.LNK_CNT_FLIT, 16, 16, .RC, .D, .val 0⟩
  | .LNK_CNT_LINK_UNDERRUN => ⟨.LNK_CNT_LINK, 0, 16, .RC, .D, .val 0⟩
  | .LNK_CNT_LINK_DOWN => ⟨.LNK_CNT_LINK, 16, 16, .RC, .D, .val 0⟩
  | .LNK_CNT_EXP_BEACON_DROP => ⟨.LNK_CNT_EXP, 0, 16, .RC, .D, .val 0⟩
  | .LNK_CNT_EXP_EXPRESS_BAD => ⟨.LNK_CNT_EXP, 16, 16, .RC, .D, .val 0⟩
  | .LNK_RING_CTL_JOIN => ⟨.LNK_RING_CTL, 0, 1, .RW, .D, .val 0⟩
  | .LNK_RING_CTL_RATE => ⟨.LNK_RING_CTL, 1, 2, .RW, .D, .val 0⟩
  | .LNK_RING_CTL_LOST_STOP => ⟨.LNK_RING_CTL, 3, 1, .RW, .D, .val 0⟩
  | .LNK_RING_CTL_STOP_AXES => ⟨.LNK_RING_CTL, 8, 8, .RW, .D, .val 0⟩
  | .LNK_RING_CTL_MEMBER => ⟨.LNK_RING_CTL, 16, 5, .RO, .D, .val 0⟩
  | .LNK_RING_CMD_STOP => ⟨.LNK_RING_CMD, 0, 1, .WO, .D, .val 0⟩
  | .LNK_RING_STAT_STATE => ⟨.LNK_RING_STAT, 0, 3, .RO, .D, .val 0⟩
  | .LNK_RING_STAT_BYPASS => ⟨.LNK_RING_STAT, 3, 1, .RO, .D, .val 1⟩
  | .LNK_RING_STAT_WEST_UP => ⟨.LNK_RING_STAT, 4, 1, .RO, .D, .val 0⟩
  | .LNK_RING_STAT_EAST_UP => ⟨.LNK_RING_STAT, 5, 1, .RO, .D, .val 0⟩
  | .LNK_RING_STAT_STOPPED => ⟨.LNK_RING_STAT, 6, 1, .RO, .D, .val 0⟩
  | .LNK_RING_STAT_CHANGED => ⟨.LNK_RING_STAT, 7, 1, .W1C, .D, .val 0⟩
  | .LNK_RING_STAT_CFG_MISMATCH => ⟨.LNK_RING_STAT, 8, 1, .W1C, .D, .val 0⟩
  | .LNK_RING_REACH_REACH => ⟨.LNK_RING_REACH, 0, 32, .RO, .D, .val 0⟩
  | .LNK_RING_WEIGHT_REACH_W => ⟨.LNK_RING_WEIGHT, 0, 9, .RO, .D, .val 0⟩
  | .LNK_RING_WEIGHT_TOTAL_W => ⟨.LNK_RING_WEIGHT, 16, 9, .RO, .D, .val 0⟩
  | .LNK_RING_STOPSRC_ORIGIN => ⟨.LNK_RING_STOPSRC, 0, 5, .RO, .D, .val 0⟩
  | .LNK_RING_STOPSRC_CAUSE => ⟨.LNK_RING_STOPSRC, 8, 8, .RO, .D, .val 0⟩
  | .LNK_RING_STOPSRC_SEQ => ⟨.LNK_RING_STOPSRC, 16, 16, .RO, .D, .val 0⟩
  | .MEM_STK_CTL_PATROL => ⟨.MEM_STK_CTL, 0, 1, .RW, .D, .val 1⟩
  | .MEM_STK_CTL_TEMP_WARN => ⟨.MEM_STK_CTL, 8, 8, .RW, .D, .val 95⟩
  | .MEM_STK_STAT_FILL_DONE => ⟨.MEM_STK_STAT, 0, 1, .RO, .D, .val 0⟩
  | .MEM_STK_STAT_SELF_REFRESH => ⟨.MEM_STK_STAT, 1, 1, .RO, .L, .val 0⟩
  | .MEM_STK_STAT_RESYNC => ⟨.MEM_STK_STAT, 2, 1, .RO, .L, .val 0⟩
  | .MEM_STK_STAT_TEMP => ⟨.MEM_STK_STAT, 8, 8, .RO, .L, .val 0⟩
  | .MEM_STK_ERR_CORR => ⟨.MEM_STK_ERR, 0, 1, .W1C, .D, .val 0⟩
  | .MEM_STK_ERR_UNCORR => ⟨.MEM_STK_ERR, 1, 1, .W1C, .D, .val 0⟩
  | .MEM_STK_ERR_TEMP_HI => ⟨.MEM_STK_ERR, 2, 1, .W1C, .D, .val 0⟩
  | .MEM_STK_ERRADDR_LINE => ⟨.MEM_STK_ERRADDR, 0, 32, .RO, .D, .val 0⟩
  | .MEM_STK_ECNT_CORR_CNT => ⟨.MEM_STK_ECNT, 0, 16, .RC, .D, .val 0⟩
  | .MEM_STK_ECNT_UNCORR_CNT => ⟨.MEM_STK_ECNT, 16, 16, .RC, .D, .val 0⟩
  | .MEM_HOME_STAT_WAITING => ⟨.MEM_HOME_STAT, 0, 12, .RO, .L, .val 0⟩
  | .MEM_HOME_STAT_ENTRIES => ⟨.MEM_HOME_STAT, 12, 20, .RO, .L, .val 0⟩
  | .MEM_HOME_CNT_RECALL => ⟨.MEM_HOME_CNT, 0, 16, .RC, .D, .val 0⟩
  | .MEM_HOME_CNT_WB_RACE => ⟨.MEM_HOME_CNT, 16, 8, .RC, .D, .val 0⟩
  | .MEM_HOME_CNT_STRAY => ⟨.MEM_HOME_CNT, 24, 8, .RC, .D, .val 0⟩
  | .SEAL_GRAN_STATE => ⟨.SEAL_GRAN, 0, 2, .RO, .K, .val 0⟩
  | .SEAL_GRAN_LOST => ⟨.SEAL_GRAN, 2, 1, .W1C, .K, .val 0⟩
  | .SEAL_GRAN_EPOCH => ⟨.SEAL_GRAN, 8, 24, .RO, .K, .val 0⟩
  | .SEAL_GRAN_CMD_GRANULE => ⟨.SEAL_GRAN_CMD, 0, 8, .WO, .D, .val 0⟩
  | .SEAL_GRAN_CMD_OP => ⟨.SEAL_GRAN_CMD, 8, 2, .WO, .D, .val 0⟩
  | .SEAL_GRAN_RES_RESULT => ⟨.SEAL_GRAN_RES, 0, 3, .RO, .D, .val 0⟩
  | .SEAL_GRAN_RES_BUSY => ⟨.SEAL_GRAN_RES, 8, 1, .RO, .D, .val 0⟩
  | .SEAL_STORE_STAT_COMMITTING => ⟨.SEAL_STORE_STAT, 0, 1, .RO, .D, .val 0⟩
  | .SEAL_STORE_STAT_STRETCHED => ⟨.SEAL_STORE_STAT, 1, 1, .RO, .D, .val 0⟩
  | .SEAL_STORE_STAT_ONLINE => ⟨.SEAL_STORE_STAT, 16, 10, .RO, .D, .val 0⟩
  | .SEAL_STORE_ERR_INTEG => ⟨.SEAL_STORE_ERR, 0, 1, .W1C, .D, .val 0⟩
  | .SEAL_STORE_ERR_TORN => ⟨.SEAL_STORE_ERR, 1, 1, .W1C, .D, .val 0⟩
  | .SEAL_STORE_ERR_ROLLBACK => ⟨.SEAL_STORE_ERR, 2, 1, .W1C, .D, .val 0⟩
  | .SEAL_STORE_ERR_FOREIGN => ⟨.SEAL_STORE_ERR, 3, 1, .W1C, .D, .val 0⟩
  | .SEAL_STORE_ERR_COMMIT_FAIL => ⟨.SEAL_STORE_ERR, 4, 1, .W1C, .D, .val 0⟩
  | .SEAL_STORE_CNT_INTEG_CNT => ⟨.SEAL_STORE_CNT, 0, 16, .RC, .D, .val 0⟩
  | .SEAL_STORE_CNT_TORN_CNT => ⟨.SEAL_STORE_CNT, 16, 16, .RC, .D, .val 0⟩
  | .SEAL_STORE_ERRVOL_VOLUME => ⟨.SEAL_STORE_ERRVOL, 0, 10, .RO, .D, .val 0⟩
  | .SEAL_LINE_STAT_KEYS => ⟨.SEAL_LINE_STAT, 0, 1, .RO, .K, .val 0⟩
  | .SEAL_LINE_STAT_REENC => ⟨.SEAL_LINE_STAT, 1, 1, .RO, .L, .val 0⟩
  | .SEAL_LINE_STAT_ROOTS => ⟨.SEAL_LINE_STAT, 4, 4, .RO, .K, .val 0⟩
  | .SEAL_LINE_ERR_INTEG => ⟨.SEAL_LINE_ERR, 0, 1, .W1C, .D, .val 0⟩
  | .SEAL_LINE_ERR_GROUP => ⟨.SEAL_LINE_ERR, 1, 1, .W1C, .D, .val 0⟩
  | .SEAL_LINE_ERR_UNCORR => ⟨.SEAL_LINE_ERR, 2, 1, .W1C, .D, .val 0⟩
  | .SEAL_LINE_ERRADDR_LINE => ⟨.SEAL_LINE_ERRADDR, 0, 32, .RO, .D, .val 0⟩
  | .SEAL_LINE_CNT_INTEG_CNT => ⟨.SEAL_LINE_CNT, 0, 16, .RC, .D, .val 0⟩
  | .SEAL_LINE_CNT_REENC_CNT => ⟨.SEAL_LINE_CNT, 16, 16, .RC, .D, .val 0⟩
  | .PST_FW_STAT_READY => ⟨.PST_FW_STAT, 0, 1, .RO, .D, .val 0⟩
  | .PST_FW_STAT_COPY => ⟨.PST_FW_STAT, 1, 1, .RO, .D, .val 0⟩
  | .PST_FW_STAT_RECOVERY => ⟨.PST_FW_STAT, 2, 1, .RO, .D, .val 0⟩
  | .PST_FW_STAT_CORES => ⟨.PST_FW_STAT, 4, 4, .RO, .D, .val 0⟩
  | .PST_FW_STAT_RESTARTS => ⟨.PST_FW_STAT, 16, 16, .RO, .D, .val 0⟩
  | .PST_WHOAMI_ID => ⟨.PST_WHOAMI, 0, 8, .RO, .D, .val 0⟩
  | .PST_MB_OWNER_OWNER => ⟨.PST_MB_OWNER, 0, 8, .RO, .D, .owner⟩
  | .PST_LOCK_ACQ_RESULT => ⟨.PST_LOCK_ACQ, 0, 3, .RO, .D, .val 0⟩
  | .PST_LOCK_ACQ_OWNER => ⟨.PST_LOCK_ACQ, 8, 8, .RO, .D, .val 0⟩
  | .PST_LOCK_REL_REL => ⟨.PST_LOCK_REL, 0, 1, .WO, .D, .val 0⟩
  | .PST_LOCK_OWNER => ⟨.PST_LOCK, 0, 8, .RO, .D, .val 0⟩
  | .PST_LOCK_ABANDONED => ⟨.PST_LOCK, 8, 1, .RO, .K, .val 0⟩
  | .PST_LOCK_ERR_NOT_OWNER => ⟨.PST_LOCK_ERR, 0, 1, .W1C, .D, .val 0⟩
  | .PST_LOCK_ERR_LOCK => ⟨.PST_LOCK_ERR, 8, 8, .RO, .D, .val 0⟩
  | .PST_LOCK_ERR_WRITER => ⟨.PST_LOCK_ERR, 16, 8, .RO, .D, .val 0⟩
  | .EVT_PEND_PEND => ⟨.EVT_PEND, 0, 32, .W1C, .D, .val 0⟩
  | .EVT_ROUTE_VECTOR => ⟨.EVT_ROUTE, 0, 8, .RW, .D, .val 0⟩
  | .EVT_ROUTE_FUNC => ⟨.EVT_ROUTE, 8, 2, .RW, .D, .val 0⟩
  | .EVT_ROUTE_MSIX_EN => ⟨.EVT_ROUTE, 10, 1, .RW, .D, .val 0⟩
  | .EVT_ROUTE_TOKEN_EN => ⟨.EVT_ROUTE, 11, 1, .RW, .D, .val 0⟩
  | .EVT_ROUTE_LOG => ⟨.EVT_ROUTE, 12, 1, .RW, .D, .below 248 1 0⟩
  | .EVT_ROUTE_REGION => ⟨.EVT_ROUTE, 16, 6, .RW, .D, .val 0⟩
  | .EVT_USER_RAISE => ⟨.EVT_USER, 0, 8, .W1S, .D, .val 0⟩
  | .EVT_LOG_CTL_AXIS => ⟨.EVT_LOG_CTL, 0, 3, .RW, .D, .val 0⟩
  | .EVT_LOG_CTL_AXIS_EN => ⟨.EVT_LOG_CTL, 3, 1, .RW, .D, .val 0⟩
  | .EVT_LOG_STAT_QUEUE => ⟨.EVT_LOG_STAT, 0, 8, .RO, .V, .val 0⟩
  | .EVT_LOG_STAT_WAITING => ⟨.EVT_LOG_STAT, 8, 1, .RO, .V, .val 0⟩
  | .EVT_LOG_STAT_STOPPED => ⟨.EVT_LOG_STAT, 9, 1, .RO, .D, .val 0⟩
  | .EVT_LOG_STAT_ALLOW => ⟨.EVT_LOG_STAT, 16, 13, .RO, .K, .val 4096⟩
  | .EVT_LOG_LOST_LOST => ⟨.EVT_LOG_LOST, 0, 32, .RC, .D, .val 0⟩
  | .EVT_LOG_NEWEST_SEQ => ⟨.EVT_LOG_NEWEST, 0, 64, .RO, .D, .val 0⟩
  | .EVT_LOG_OLDEST_SEQ => ⟨.EVT_LOG_OLDEST, 0, 64, .RO, .D, .val 0⟩
  | .PERF_CNT_COUNT => ⟨.PERF_CNT, 0, 48, .RO, .D, .val 0⟩
  | .PERF_CNT_OVF => ⟨.PERF_CNT, 63, 1, .RO, .D, .val 0⟩
  | .PERF_SEL_BLOCK => ⟨.PERF_SEL, 0, 4, .RW, .D, .val 0⟩
  | .PERF_SEL_INST => ⟨.PERF_SEL, 4, 6, .RW, .D, .val 0⟩
  | .PERF_SEL_EVENT => ⟨.PERF_SEL, 10, 6, .RW, .D, .val 0⟩
  | .PERF_SEL_EN => ⟨.PERF_SEL, 16, 1, .RW, .D, .val 0⟩
  | .PERF_SEL_MODE => ⟨.PERF_SEL, 17, 1, .RW, .D, .val 0⟩
  | .PERF_SEL_CLEAR => ⟨.PERF_SEL, 18, 1, .WO, .D, .val 0⟩
  | .PERF_SEL_THRESH => ⟨.PERF_SEL, 20, 12, .RW, .D, .val 0⟩
  | .PERF_FILT_MASTER => ⟨.PERF_FILT, 0, 6, .RW, .D, .val 0⟩
  | .PERF_FILT_MASTER_EN => ⟨.PERF_FILT, 6, 1, .RW, .D, .val 0⟩
  | .PERF_FILT_PRIV => ⟨.PERF_FILT, 7, 2, .RW, .D, .val 0⟩
  | .PERF_FILT_CLASS => ⟨.PERF_FILT, 9, 3, .RW, .D, .val 0⟩
  | .PERF_FILT_RANGE_EN => ⟨.PERF_FILT, 12, 1, .RW, .D, .val 0⟩
  | .PERF_OVF_OVF => ⟨.PERF_OVF, 0, 32, .W1C, .D, .val 0⟩
  | .PERF_TB_TB => ⟨.PERF_TB, 0, 64, .RO, .K, .val 0⟩
  | .PERF_USER_EN_FABRIC => ⟨.PERF_USER_EN, 0, 1, .RW, .D, .val 0⟩
  | .PERF_USER_EN_HOST => ⟨.PERF_USER_EN, 1, 1, .RW, .D, .val 0⟩
  | .PERF_RANGE_LO_LO => ⟨.PERF_RANGE_LO, 0, 32, .RW, .D, .val 0⟩
  | .PERF_RANGE_HI_HI => ⟨.PERF_RANGE_HI, 0, 32, .RW, .D, .val 0⟩
  | .CFG_STAT_STATE => ⟨.CFG_STAT, 0, 2, .RO, .D, .val 0⟩
  | .CFG_STAT_BOOT => ⟨.CFG_STAT, 2, 2, .RO, .D, .val 0⟩
  | .CFG_STAT_RELEASED => ⟨.CFG_STAT, 4, 1, .RO, .D, .val 0⟩
  | .CFG_STAT_LINE => ⟨.CFG_STAT, 5, 1, .RO, .D, .val 0⟩
  | .CFG_STAT_FALLBACK => ⟨.CFG_STAT, 6, 1, .W1C, .D, .val 0⟩
  | .CFG_STAT_DONE_WAIT => ⟨.CFG_STAT, 7, 1, .W1C, .D, .val 0⟩
  | .CFG_STAT_BCAST_WAIT => ⟨.CFG_STAT, 8, 1, .RO, .D, .val 0⟩
  | .CFG_STAT_HOST_WAIT => ⟨.CFG_STAT, 9, 1, .RO, .D, .val 0⟩
  | .CFG_CMD_GO => ⟨.CFG_CMD, 0, 1, .WO, .D, .val 0⟩
  | .CFG_SRC_SLOT => ⟨.CFG_SRC, 0, 8, .RO, .D, .val 255⟩
  | .CFG_SRC_BCAST => ⟨.CFG_SRC, 8, 1, .RO, .D, .val 0⟩
  | .CFG_FAIL_SLOT => ⟨.CFG_FAIL, 0, 8, .RO, .D, .val 0⟩
  | .CFG_FAIL_CAUSE => ⟨.CFG_FAIL, 8, 8, .RO, .D, .val 0⟩
  | .CFG_FAIL_SEGMENT => ⟨.CFG_FAIL, 16, 16, .RO, .D, .val 0⟩
  | .CFG_DESIGN_ID => ⟨.CFG_DESIGN, 0, 64, .RO, .D, .val 0⟩
  | .CFG_XREQ_ADDR => ⟨.CFG_XREQ, 0, 32, .WO, .D, .val 0⟩
  | .CFG_XSTAT_RESULT => ⟨.CFG_XSTAT, 0, 3, .RO, .D, .val 0⟩
  | .CFG_XSTAT_CAUSE => ⟨.CFG_XSTAT, 8, 8, .RO, .D, .val 0⟩
  | .CFG_XSTAT_COUNT => ⟨.CFG_XSTAT, 16, 16, .RO, .D, .val 0⟩
  | .CFG_XSPI_READY => ⟨.CFG_XSPI, 0, 1, .RO, .D, .val 0⟩
  | .CFG_XSPI_OCTAL => ⟨.CFG_XSPI, 1, 1, .RO, .D, .val 0⟩
  | .CFG_XSPI_FREQ => ⟨.CFG_XSPI, 8, 8, .RO, .D, .val 0⟩
  | .CFG_XSPI_BUS_ERR => ⟨.CFG_XSPI, 16, 1, .W1C, .D, .val 0⟩
  | .CFG_NVM_STAT_BUSY => ⟨.CFG_NVM_STAT, 0, 1, .RO, .D, .val 0⟩
  | .CFG_NVM_STAT_SUSPENDED => ⟨.CFG_NVM_STAT, 1, 1, .RO, .D, .val 0⟩
  | .CFG_NVM_STAT_SPARES => ⟨.CFG_NVM_STAT, 8, 7, .RO, .K, .val 82⟩
  | .CFG_NVM_STAT_RO_AREA => ⟨.CFG_NVM_STAT, 16, 10, .RO, .K, .val 0⟩
  | .CFG_NVM_SEL_BLOCK => ⟨.CFG_NVM_SEL, 0, 12, .RW, .D, .val 0⟩
  | .CFG_NVM_WEAR_ERASES => ⟨.CFG_NVM_WEAR, 0, 18, .RO, .K, .val 0⟩
  | .CFG_NVM_WEAR_STATE => ⟨.CFG_NVM_WEAR, 18, 2, .RO, .K, .val 0⟩
  | .CFG_NVM_WEAR_PHYS => ⟨.CFG_NVM_WEAR, 20, 12, .RO, .K, .val 0⟩
  | .CFG_NVM_ERR_CORR => ⟨.CFG_NVM_ERR, 0, 1, .W1C, .D, .val 0⟩
  | .CFG_NVM_ERR_UNCORR => ⟨.CFG_NVM_ERR, 1, 1, .W1C, .D, .val 0⟩
  | .CFG_NVM_ERR_INCOMPLETE => ⟨.CFG_NVM_ERR, 2, 1, .W1C, .D, .val 0⟩
  | .CFG_NVM_ERR_RETIRED => ⟨.CFG_NVM_ERR, 3, 1, .W1C, .D, .val 0⟩
  | .CFG_NVM_ERR_READ_ONLY => ⟨.CFG_NVM_ERR, 4, 1, .W1C, .D, .val 0⟩
  | .CFG_NVM_ERR_BLOCK => ⟨.CFG_NVM_ERR, 16, 12, .RO, .D, .val 0⟩
  | .CFG_NVM_CNT_CORR_CNT => ⟨.CFG_NVM_CNT, 0, 16, .RC, .D, .val 0⟩
  | .CFG_NVM_CNT_UNCORR_CNT => ⟨.CFG_NVM_CNT, 16, 16, .RC, .D, .val 0⟩
  | .CFG_RGN_STAT_STATE => ⟨.CFG_RGN_STAT, 0, 2, .RO, .D, .val 0⟩
  | .CFG_RGN_STAT_ISOLATED => ⟨.CFG_RGN_STAT, 2, 1, .RO, .D, .val 1⟩
  | .CFG_RGN_STAT_XSPI => ⟨.CFG_RGN_STAT, 3, 1, .RO, .D, .val 0⟩
  | .CFG_RGN_CTL_ESS_ACT => ⟨.CFG_RGN_CTL, 0, 2, .RW, .D, .val 0⟩
  | .CFG_ISO_CNT_ABSORBED => ⟨.CFG_ISO_CNT, 0, 16, .RC, .D, .val 0⟩
  | .CFG_ISO_CNT_PARTIAL => ⟨.CFG_ISO_CNT, 16, 16, .RC, .D, .val 0⟩
  | .CFG_RGN_UPSET_ESSENTIAL => ⟨.CFG_RGN_UPSET, 0, 16, .RC, .D, .val 0⟩
  | .CFG_RGN_UPSET_OTHER => ⟨.CFG_RGN_UPSET, 16, 16, .RC, .D, .val 0⟩
  | .CFG_SCRUB_CTL_EN => ⟨.CFG_SCRUB_CTL, 0, 1, .RW, .D, .val 1⟩
  | .CFG_SCRUB_STAT_CYCLES => ⟨.CFG_SCRUB_STAT, 0, 16, .RO, .D, .val 0⟩
  | .CFG_SCRUB_STAT_RUNNING => ⟨.CFG_SCRUB_STAT, 16, 1, .RO, .D, .val 0⟩
  | .CFG_SCRUB_LAST_FRAME => ⟨.CFG_SCRUB_LAST, 0, 12, .RO, .D, .val 0⟩
  | .CFG_SCRUB_LAST_REGION => ⟨.CFG_SCRUB_LAST, 12, 6, .RO, .D, .val 0⟩
  | .CFG_SCRUB_LAST_UNCORR => ⟨.CFG_SCRUB_LAST, 18, 1, .RO, .D, .val 0⟩
  | .CFG_SCRUB_CNT_GLOBAL => ⟨.CFG_SCRUB_CNT, 0, 16, .RC, .D, .val 0⟩
  | .CFG_SCRUB_CNT_REFETCH => ⟨.CFG_SCRUB_CNT, 16, 16, .RC, .D, .val 0⟩
  | .CFG_FAB_STAT_DEFICIT => ⟨.CFG_FAB_STAT, 0, 8, .W1C, .L, .val 0⟩
  | .CFG_FAB_STAT_DEFICIT_NOW => ⟨.CFG_FAB_STAT, 8, 8, .RO, .L, .val 0⟩
  | .CFG_FAB_STAT_CODE_ERR => ⟨.CFG_FAB_STAT, 16, 1, .W1C, .L, .val 0⟩
  | .CFG_FAB_STAT_CODE_CNT => ⟨.CFG_FAB_STAT, 20, 8, .RO, .L, .val 0⟩
  | .CFG_BM_STAT_CORR => ⟨.CFG_BM_STAT, 0, 1, .W1C, .L, .val 0⟩
  | .CFG_BM_STAT_UNCORR => ⟨.CFG_BM_STAT, 1, 1, .W1C, .L, .val 0⟩
  | .CFG_BM_STAT_CORR_CNT => ⟨.CFG_BM_STAT, 8, 8, .RO, .L, .val 0⟩
  | .CFG_BM_STAT_FIRST_BM => ⟨.CFG_BM_STAT, 16, 8, .RO, .L, .val 0⟩
  | .CFG_TREE_STAT_STROBE_OVR => ⟨.CFG_TREE_STAT, 0, 2, .W1C, .L, .val 0⟩
  | .CFG_TREE_STAT_UCLK_LOSS => ⟨.CFG_TREE_STAT, 4, 4, .W1C, .L, .val 0⟩
  | .CFG_TREE_STAT_UCLK_RUN => ⟨.CFG_TREE_STAT, 8, 4, .RO, .L, .val 0⟩
  | .CFG_TREE_STAT_UTAP_OVR => ⟨.CFG_TREE_STAT, 12, 4, .W1C, .L, .val 0⟩
  | .CFG_AGT_STAT_POISON => ⟨.CFG_AGT_STAT, 0, 1, .W1C, .F, .val 0⟩
  | .CFG_AGT_STAT_INTEG => ⟨.CFG_AGT_STAT, 1, 1, .W1C, .F, .val 0⟩
  | .CFG_AGT_STAT_REFUSED => ⟨.CFG_AGT_STAT, 2, 1, .W1C, .F, .val 0⟩
  | .CFG_AGT_STAT_DIRTY => ⟨.CFG_AGT_STAT, 8, 16, .RO, .F, .val 0⟩
  | .TST_TAP_STAT_INSTRUCTION => ⟨.TST_TAP_STAT, 0, 8, .RO, .L, .val 1⟩
  | .TST_TAP_STAT_TAP_STATE => ⟨.TST_TAP_STAT, 8, 4, .RO, .L, .val 0⟩
  | .PST_MB_DOORBELL_TAIL => ⟨.PST_MB_DOORBELL, 0, 10, .WO, .D, .val 0⟩
  | .PST_MB_REQ_HEAD => ⟨.PST_MB_REQ, 0, 10, .RO, .D, .val 0⟩
  | .PST_MB_REQ_TAIL => ⟨.PST_MB_REQ, 16, 10, .RO, .D, .val 0⟩
  | .PST_MB_RPL_HEAD => ⟨.PST_MB_RPL, 0, 10, .RW, .D, .val 0⟩
  | .PST_MB_RPL_TAIL => ⟨.PST_MB_RPL, 16, 10, .RO, .D, .val 0⟩
  | .PST_MB_STAT_READY => ⟨.PST_MB_STAT, 0, 1, .RO, .D, .val 0⟩
  | .PST_MB_STAT_WAIT => ⟨.PST_MB_STAT, 1, 1, .RO, .D, .val 0⟩
  | .PST_MB_STAT_MALFORMED => ⟨.PST_MB_STAT, 2, 1, .W1C, .D, .val 0⟩
  | .PST_MB_STAT_OWNER => ⟨.PST_MB_STAT, 8, 8, .RO, .D, .owner⟩
  | .PST_MB_STAT_EPOCH => ⟨.PST_MB_STAT, 16, 16, .RO, .D, .val 0⟩
  | .PST_MB_EVT_VECTOR => ⟨.PST_MB_EVT, 0, 8, .RW, .D, .val 0⟩
  | .PST_MB_EVT_EN => ⟨.PST_MB_EVT, 8, 1, .RW, .D, .val 0⟩
  | .PST_MB_EVT_HOLDOFF => ⟨.PST_MB_EVT, 16, 8, .RW, .D, .val 0⟩
  | .PST_MB_EVT_PENDING => ⟨.PST_MB_EVT, 24, 1, .W1C, .D, .val 0⟩

/-- The fields of each register, from the lowest bit. -/
def Reg.fields : Reg → List Fld
  | .DEV_ID => [.DEV_ID_STEPPING, .DEV_ID_PART, .DEV_ID_GRADE, .DEV_ID_VENDOR]
  | .DEV_UID => [.DEV_UID_UID]
  | .DEV_ACCESS_ERR => [.DEV_ACCESS_ERR_ERR, .DEV_ACCESS_ERR_LOCKED, .DEV_ACCESS_ERR_DENIED, .DEV_ACCESS_ERR_FORM, .DEV_ACCESS_ERR_UNMAPPED, .DEV_ACCESS_ERR_SOURCE, .DEV_ACCESS_ERR_WRITE]
  | .DEV_ACCESS_ADDR => [.DEV_ACCESS_ADDR_ADDR]
  | .DEV_RST_CAUSE => [.DEV_RST_CAUSE_CAUSE, .DEV_RST_CAUSE_COUNT]
  | .DEV_RST_CMD => [.DEV_RST_CMD_KIND, .DEV_RST_CMD_KEY]
  | .DEV_RGN_ACCESS => [.DEV_RGN_ACCESS_RD, .DEV_RGN_ACCESS_WR]
  | .DEV_ISL_RUN => [.DEV_ISL_RUN_RUN]
  | .DEV_ISL_STOP => [.DEV_ISL_STOP_STOP]
  | .DEV_ISL_HELD => [.DEV_ISL_HELD_HELD]
  | .DEV_ISL_RST => [.DEV_ISL_RST_RST]
  | .DEV_XDROP => [.DEV_XDROP_DROP, .DEV_XDROP_POISON]
  | .DEV_OCT_CTL => [.DEV_OCT_CTL_EN, .DEV_OCT_CTL_REFSEL, .DEV_OCT_CTL_SSC]
  | .DEV_OCT_CLK => [.DEV_OCT_CLK_WCLK]
  | .DEV_OCT_PROTO => [.DEV_OCT_PROTO_EP_W, .DEV_OCT_PROTO_RPA_W, .DEV_OCT_PROTO_ETH_MODE, .DEV_OCT_PROTO_RPB_W, .DEV_OCT_PROTO_EP_GEN, .DEV_OCT_PROTO_RP_GEN, .DEV_OCT_PROTO_ETH_EN]
  | .DEV_OCT_STAT => [.DEV_OCT_STAT_LOCK, .DEV_OCT_STAT_REF_OK, .DEV_OCT_STAT_PLL_LOSS, .DEV_OCT_STAT_CFG_REF, .DEV_OCT_STAT_BIND_REF, .DEV_OCT_STAT_FOLLOW]
  | .DEV_LC => [.DEV_LC_STATE, .DEV_LC_CYCLE, .DEV_LC_PARTIAL]
  | .DEV_SEC_STAT => [.DEV_SEC_STAT_KEYS_LOST, .DEV_SEC_STAT_ZEROISED, .DEV_SEC_STAT_TAP_REFUSED, .DEV_SEC_STAT_KEYS]
  | .DEV_RNG_STAT => [.DEV_RNG_STAT_STATE, .DEV_RNG_STAT_HEALTHY, .DEV_RNG_STAT_RCT_FAIL, .DEV_RNG_STAT_APT_FAIL]
  | .DEV_RNG_DATA => [.DEV_RNG_DATA_DATA]
  | .DEV_ST_STAT => [.DEV_ST_STAT_NEXT, .DEV_ST_STAT_RUNNING, .DEV_ST_STAT_RECORD_RO, .DEV_ST_STAT_FAILS, .DEV_ST_STAT_FUSE_LEFT]
  | .DEV_ST_FAIL => [.DEV_ST_FAIL_SLICE, .DEV_ST_FAIL_KIND, .DEV_ST_FAIL_REPAIR, .DEV_ST_FAIL_RECUR, .DEV_ST_FAIL_UNIT]
  | .DEV_ST_DEFECT => [.DEV_ST_DEFECT_REGIONS]
  | .DEV_FRK_REC => [.DEV_FRK_REC_REC]
  | .DEV_FRK_CMD => [.DEV_FRK_CMD_SAVE, .DEV_FRK_CMD_LOAD]
  | .DEV_FRK_STAT => [.DEV_FRK_STAT_STATE, .DEV_FRK_STAT_SAVE_BUSY, .DEV_FRK_STAT_SAVE_FAIL, .DEV_FRK_STAT_REC_BAD, .DEV_FRK_STAT_OVERRIDE]
  | .DEV_FRK_CNT => [.DEV_FRK_CNT_PRINTED]
  | .DEV_FRK_MISS => [.DEV_FRK_MISS_MISSED]
  | .DEV_FRK_CTR => [.DEV_FRK_CTR_COUNTER]
  | .DEV_RTC => [.DEV_RTC_SECONDS]
  | .DEV_RTC_STAT => [.DEV_RTC_STAT_VALID]
  | .PWR_STATE => [.PWR_STATE_STATE, .PWR_STATE_BUSY, .PWR_STATE_WAKE]
  | .PWR_WAKE_CTL => [.PWR_WAKE_CTL_WAKE_N_EN, .PWR_WAKE_CTL_ALARM_EN, .PWR_WAKE_CTL_AXIS_EN, .PWR_WAKE_CTL_PERST_EN, .PWR_WAKE_CTL_AXIS, .PWR_WAKE_CTL_DIST]
  | .PWR_WAKE_ALARM => [.PWR_WAKE_ALARM_SECONDS]
  | .PWR_PKG_STAT => [.PWR_PKG_STAT_POWER, .PWR_PKG_STAT_HOTTEST]
  | .PWR_PKG_CTL => [.PWR_PKG_CTL_COOLING, .PWR_PKG_CTL_PLIMIT]
  | .PWR_THERM_CTL => [.PWR_THERM_CTL_WARN]
  | .PWR_THERM_STAT => [.PWR_THERM_STAT_WARN, .PWR_THERM_STAT_HOT, .PWR_THERM_STAT_OVER_AIR, .PWR_THERM_STAT_OVER_PLIMIT, .PWR_THERM_STAT_TRIP, .PWR_THERM_STAT_SENSOR]
  | .PWR_RGN_CTL => [.PWR_RGN_CTL_MODE, .PWR_RGN_CTL_MARGIN, .PWR_RGN_CTL_CAP, .PWR_RGN_CTL_FIXED_V]
  | .PWR_RGN_STAT => [.PWR_RGN_STAT_VSET, .PWR_RGN_STAT_VMEAS, .PWR_RGN_STAT_FLOOR, .PWR_RGN_STAT_AT_CAP, .PWR_RGN_STAT_NEAR_CAP, .PWR_RGN_STAT_AGE_WARN, .PWR_RGN_STAT_REG_FAULT, .PWR_RGN_STAT_REF, .PWR_RGN_STAT_RETAINED]
  | .PWR_RGN_LOOP => [.PWR_RGN_LOOP_RATIO, .PWR_RGN_LOOP_AGE, .PWR_RGN_LOOP_SHORT]
  | .PWR_MON => [.PWR_MON_MV, .PWR_MON_UV, .PWR_MON_OV, .PWR_MON_UV_SEEN, .PWR_MON_OV_SEEN]
  | .PWR_TEMP => [.PWR_TEMP_TEMP]
  | .PWR_AIN => [.PWR_AIN_CODE, .PWR_AIN_BROKEN, .PWR_AIN_STALE, .PWR_AIN_OUT, .PWR_AIN_SEQ]
  | .PWR_AIN_CTL => [.PWR_AIN_CTL_EN, .PWR_AIN_CTL_MODE, .PWR_AIN_CTL_LIMIT_EN]
  | .PWR_AIN_LIM => [.PWR_AIN_LIM_LO, .PWR_AIN_LIM_HI]
  | .PWR_AIN_FLT => [.PWR_AIN_FLT_BROKEN_SEEN, .PWR_AIN_FLT_LIMIT_SEEN]
  | .PWR_EXT => [.PWR_EXT_ADDR, .PWR_EXT_VALID, .PWR_EXT_NO_ANSWER, .PWR_EXT_VOUT_FLT, .PWR_EXT_IOUT_FLT, .PWR_EXT_TEMP_FLT, .PWR_EXT_FORMAT, .PWR_EXT_VOUT]
  | .POS_AX_CTL => [.POS_AX_CTL_SRC, .POS_AX_CTL_ENC, .POS_AX_CTL_MULT, .POS_AX_CTL_INV, .POS_AX_CTL_ZMODE]
  | .POS_AX_CMD => [.POS_AX_CMD_START, .POS_AX_CMD_STOP, .POS_AX_CMD_RECOVER]
  | .POS_AX_STAT => [.POS_AX_STAT_STATE, .POS_AX_STAT_DIR, .POS_AX_STAT_REVISIT, .POS_AX_STAT_VVALID, .POS_AX_STAT_PENDING]
  | .POS_AX_FLT => [.POS_AX_FLT_FAULT, .POS_AX_FLT_LOST, .POS_AX_FLT_RECOVER_FAIL, .POS_AX_FLT_CMD_ERR, .POS_AX_FLT_REANCHOR, .POS_AX_FLT_Z_SLIP, .POS_AX_FLT_Z_OPEN, .POS_AX_FLT_WRAP, .POS_AX_FLT_FIRST]
  | .POS_AX_POS => [.POS_AX_POS_VALUE]
  | .POS_AX_EPOCH => [.POS_AX_EPOCH_VALUE]
  | .POS_AX_VEL => [.POS_AX_VEL_VALUE]
  | .POS_AX_HWM => [.POS_AX_HWM_VALUE]
  | .POS_AX_LOAD => [.POS_AX_LOAD_VALUE]
  | .POS_AX_LOAD_EPOCH => [.POS_AX_LOAD_EPOCH_VALUE]
  | .POS_AX_DR => [.POS_AX_DR_DIST]
  | .POS_AX_DRTIME => [.POS_AX_DRTIME_TIME]
  | .POS_AX_TUNE => [.POS_AX_TUNE_VWIN, .POS_AX_TUNE_FILT, .POS_AX_TUNE_HYST, .POS_AX_TUNE_STUCK_N, .POS_AX_TUNE_REANCHOR_MAX]
  | .POS_AX_VMIN => [.POS_AX_VMIN_VMIN]
  | .POS_AX_ZPERIOD => [.POS_AX_ZPERIOD_VALUE]
  | .POS_AX_ZTOL => [.POS_AX_ZTOL_TOL]
  | .POS_AX_ZCAP => [.POS_AX_ZCAP_VALUE]
  | .POS_AX_VSPEED => [.POS_AX_VSPEED_VALUE]
  | .POS_AX_VACC => [.POS_AX_VACC_VALUE]
  | .POS_AX_FOLLOW => [.POS_AX_FOLLOW_LINK, .POS_AX_FOLLOW_BAXIS]
  | .POS_AX_ERRCNT => [.POS_AX_ERRCNT_GLITCH, .POS_AX_ERRCNT_ZSLIP]
  | .POS_AX_LOSTCNT => [.POS_AX_LOSTCNT_CNT]
  | .POS_AX_JUMP => [.POS_AX_JUMP_JUMP]
  | .POS_AX_SNAP => [.POS_AX_SNAP_VALUE]
  | .POS_AX_SNAP_EPOCH => [.POS_AX_SNAP_EPOCH_VALUE]
  | .POS_SNAP_CMD => [.POS_SNAP_CMD_SNAP]
  | .POS_SNAP_TB => [.POS_SNAP_TB_TB]
  | .POS_STRB_CTL => [.POS_STRB_CTL_EN, .POS_STRB_CTL_AXIS, .POS_STRB_CTL_DIRSEL]
  | .POS_STRB_PITCH => [.POS_STRB_PITCH_PITCH]
  | .POS_STRB_BASE => [.POS_STRB_BASE_BASE]
  | .POS_STRB_STAT => [.POS_STRB_STAT_MERGE]
  | .POS_ENC_STAT => [.POS_ENC_STAT_VALID]
  | .SRT_CTL => [.SRT_CTL_EN, .SRT_CTL_MODE, .SRT_CTL_ORDER, .SRT_CTL_AXIS]
  | .SRT_CMD => [.SRT_CMD_FLUSH]
  | .SRT_STAT => [.SRT_STAT_COUNT, .SRT_STAT_EMPTY, .SRT_STAT_FULL, .SRT_STAT_BAD, .SRT_STAT_FULL_REF, .SRT_STAT_LATE, .SRT_STAT_RANGE, .SRT_STAT_CFG_ERR]
  | .SRT_TGT => [.SRT_TGT_GROUP, .SRT_TGT_PERMIT, .SRT_TGT_REGION, .SRT_TGT_GATE, .SRT_TGT_KIND]
  | .SRT_LATE_TOL => [.SRT_LATE_TOL_TOL]
  | .SRT_ERR => [.SRT_ERR_LATE_DROP, .SRT_ERR_RANGE_DROP]
  | .SRT_FLUSH_CNT => [.SRT_FLUSH_CNT_COUNT]
  | .SRT_INS_RES => [.SRT_INS_RES_RESULT]
  | .SRT_INS => [.SRT_INS_ENTRY]
  | .SRT_HEAD => [.SRT_HEAD_ENTRY]
  | .PIN_CFG => [.PIN_CFG_PULL, .PIN_CFG_DRIVE, .PIN_CFG_IDLE, .PIN_CFG_OD]
  | .PIN_IMAP => [.PIN_IMAP_SINK]
  | .PIN_OMAP => [.PIN_OMAP_PIN]
  | .PIN_OUT => [.PIN_OUT_OUT]
  | .PIN_IN => [.PIN_IN_IN]
  | .PIN_BANK_CTL => [.PIN_BANK_CTL_RANGE, .PIN_BANK_CTL_PMB_EN]
  | .PIN_BANK_STAT => [.PIN_BANK_STAT_HOLD, .PIN_BANK_STAT_MISMATCH, .PIN_BANK_STAT_NOSUPPLY, .PIN_BANK_STAT_BADRANGE]
  | .PIN_OCONF => [.PIN_OCONF_OCONF]
  | .PIN_ICONF => [.PIN_ICONF_ICONF]
  | .PIN_LOCK_ARM => [.PIN_LOCK_ARM_ARM]
  | .PIN_LOCK_SET => [.PIN_LOCK_SET_SET]
  | .PIN_LOCK => [.PIN_LOCK_LOCK]
  | .PIN_GSTAT => [.PIN_GSTAT_PHASE, .PIN_GSTAT_OCONF, .PIN_GSTAT_ICONF, .PIN_GSTAT_LOCK_ABORT]
  | .PIN_OUT_MW => [.PIN_OUT_MW_MW]
  | .PIN_PLC_CTL => [.PIN_PLC_CTL_EN]
  | .PIN_PLC_STAT => [.PIN_PLC_STAT_LATE, .PIN_PLC_STAT_OVERLAP, .PIN_PLC_STAT_BAD_ACT, .PIN_PLC_STAT_UNCAL]
  | .PIN_PLC_CNT => [.PIN_PLC_CNT_LATE, .PIN_PLC_CNT_HOLD_MISS]
  | .PIN_LOAD => [.PIN_LOAD_LOAD]
  | .PIN_CAL_STAT => [.PIN_CAL_STAT_RESULT]
  | .PIN_CAL_CMD => [.PIN_CAL_CMD_MASK, .PIN_CAL_CMD_BANK, .PIN_CAL_CMD_KIND, .PIN_CAL_CMD_BUSY]
  | .PIN_PWM_PER => [.PIN_PWM_PER_PER]
  | .PIN_PWM_HI => [.PIN_PWM_HI_HI]
  | .LANE_CTL => [.LANE_CTL_EN, .LANE_CTL_POL_TX, .LANE_CTL_POL_RX, .LANE_CTL_LOOP, .LANE_CTL_PRBS, .LANE_CTL_RESET, .LANE_CTL_AMP, .LANE_CTL_LOS_THR]
  | .LANE_RATE => [.LANE_RATE_RATE, .LANE_RATE_PAM4]
  | .LANE_TXEQ => [.LANE_TXEQ_PRE, .LANE_TXEQ_POST, .LANE_TXEQ_MAIN, .LANE_TXEQ_MODE]
  | .LANE_RXEQ => [.LANE_RXEQ_MODE, .LANE_RXEQ_CTLE, .LANE_RXEQ_CTLE_RD]
  | .LANE_STAT => [.LANE_STAT_LOS, .LANE_STAT_LOCK, .LANE_STAT_ADAPT_DONE, .LANE_STAT_RESETTING, .LANE_STAT_BIND]
  | .LANE_ERR => [.LANE_ERR_LOS, .LANE_ERR_LOL, .LANE_ERR_RATE_REF, .LANE_ERR_TXEQ_REF, .LANE_ERR_OWNED, .LANE_ERR_FIRST]
  | .LANE_CUR => [.LANE_CUR_CUR]
  | .LANE_DFE => [.LANE_DFE_TAPS]
  | .LANE_CNT => [.LANE_CNT_PRBS_ERR]
  | .LANE_ERRCNT => [.LANE_ERRCNT_LOS_N, .LANE_ERRCNT_LOL_N]
  | .LANE_EP_STAT => [.LANE_EP_STAT_LINK_UP, .LANE_EP_STAT_WIDTH, .LANE_EP_STAT_RATE, .LANE_EP_STAT_FLIT]
  | .LANE_EP_ID => [.LANE_EP_ID_VENDOR, .LANE_EP_ID_DEVICE]
  | .LANE_RP_STAT => [.LANE_RP_STAT_PRESENT, .LANE_RP_STAT_LINK_UP, .LANE_RP_STAT_WIDTH, .LANE_RP_STAT_RATE, .LANE_RP_STAT_CONTAINED, .LANE_RP_STAT_NOT_NVME]
  | .LANE_ETH_STAT => [.LANE_ETH_STAT_LINK_UP, .LANE_ETH_STAT_LOCAL_FAULT, .LANE_ETH_STAT_REMOTE_FAULT]
  | .LANE_ETH_CNT => [.LANE_ETH_CNT_RX_DROP, .LANE_ETH_CNT_TX_BAD]
  | .LANE_ETH_RXWR => [.LANE_ETH_RXWR_INDEX]
  | .LANE_ETH_RXRD => [.LANE_ETH_RXRD_INDEX]
  | .LANE_ETH_TXWR => [.LANE_ETH_TXWR_INDEX]
  | .LANE_ETH_TXRD => [.LANE_ETH_TXRD_INDEX]
  | .LNK_CTL => [.LNK_CTL_EN, .LNK_CTL_LANES, .LNK_CTL_MIN_W, .LNK_CTL_FALLBACK]
  | .LNK_CMD => [.LNK_CMD_RETRAIN, .LNK_CMD_WIDTH, .LNK_CMD_MASK]
  | .LNK_STAT => [.LNK_STAT_STATE, .LNK_STAT_LEADER, .LNK_STAT_MEMBER, .LNK_STAT_MASK, .LNK_STAT_REASON, .LNK_STAT_ATTEMPT]
  | .LNK_ERR => [.LNK_ERR_DOWN, .LNK_ERR_UNCORR, .LNK_ERR_UNDERRUN, .LNK_ERR_YIELD, .LNK_ERR_CFG_REF, .LNK_ERR_BEACON_DROP, .LNK_ERR_EXPRESS_BAD, .LNK_ERR_WIDTH_CHG]
  | .LNK_PARTNER_UID => [.LNK_PARTNER_UID_UID]
  | .LNK_PARTNER_CAP => [.LNK_PARTNER_CAP_CLASS, .LNK_PARTNER_CAP_FLAGS, .LNK_PARTNER_CAP_REVISION]
  | .LNK_PARTNER_PREP => [.LNK_PARTNER_PREP_PREP]
  | .LNK_LATENCY => [.LNK_LATENCY_L]
  | .LNK_CABLE => [.LNK_CABLE_LEN, .LNK_CABLE_VF]
  | .LNK_BEACON => [.LNK_BEACON_AXES]
  | .LNK_FIRE => [.LNK_FIRE_GUARD]
  | .LNK_CNT_FEC => [.LNK_CNT_FEC_CORR, .LNK_CNT_FEC_UNCORR]
  | .LNK_CNT_FLIT => [.LNK_CNT_FLIT_REPLAY, .LNK_CNT_FLIT_DROP]
  | .LNK_CNT_LINK => [.LNK_CNT_LINK_UNDERRUN, .LNK_CNT_LINK_DOWN]
  | .LNK_CNT_EXP => [.LNK_CNT_EXP_BEACON_DROP, .LNK_CNT_EXP_EXPRESS_BAD]
  | .LNK_RING_CTL => [.LNK_RING_CTL_JOIN, .LNK_RING_CTL_RATE, .LNK_RING_CTL_LOST_STOP, .LNK_RING_CTL_STOP_AXES, .LNK_RING_CTL_MEMBER]
  | .LNK_RING_CMD => [.LNK_RING_CMD_STOP]
  | .LNK_RING_STAT => [.LNK_RING_STAT_STATE, .LNK_RING_STAT_BYPASS, .LNK_RING_STAT_WEST_UP, .LNK_RING_STAT_EAST_UP, .LNK_RING_STAT_STOPPED, .LNK_RING_STAT_CHANGED, .LNK_RING_STAT_CFG_MISMATCH]
  | .LNK_RING_REACH => [.LNK_RING_REACH_REACH]
  | .LNK_RING_WEIGHT => [.LNK_RING_WEIGHT_REACH_W, .LNK_RING_WEIGHT_TOTAL_W]
  | .LNK_RING_STOPSRC => [.LNK_RING_STOPSRC_ORIGIN, .LNK_RING_STOPSRC_CAUSE, .LNK_RING_STOPSRC_SEQ]
  | .MEM_STK_CTL => [.MEM_STK_CTL_PATROL, .MEM_STK_CTL_TEMP_WARN]
  | .MEM_STK_STAT => [.MEM_STK_STAT_FILL_DONE, .MEM_STK_STAT_SELF_REFRESH, .MEM_STK_STAT_RESYNC, .MEM_STK_STAT_TEMP]
  | .MEM_STK_ERR => [.MEM_STK_ERR_CORR, .MEM_STK_ERR_UNCORR, .MEM_STK_ERR_TEMP_HI]
  | .MEM_STK_ERRADDR => [.MEM_STK_ERRADDR_LINE]
  | .MEM_STK_ECNT => [.MEM_STK_ECNT_CORR_CNT, .MEM_STK_ECNT_UNCORR_CNT]
  | .MEM_HOME_STAT => [.MEM_HOME_STAT_WAITING, .MEM_HOME_STAT_ENTRIES]
  | .MEM_HOME_CNT => [.MEM_HOME_CNT_RECALL, .MEM_HOME_CNT_WB_RACE, .MEM_HOME_CNT_STRAY]
  | .SEAL_GRAN => [.SEAL_GRAN_STATE, .SEAL_GRAN_LOST, .SEAL_GRAN_EPOCH]
  | .SEAL_GRAN_CMD => [.SEAL_GRAN_CMD_GRANULE, .SEAL_GRAN_CMD_OP]
  | .SEAL_GRAN_RES => [.SEAL_GRAN_RES_RESULT, .SEAL_GRAN_RES_BUSY]
  | .SEAL_STORE_STAT => [.SEAL_STORE_STAT_COMMITTING, .SEAL_STORE_STAT_STRETCHED, .SEAL_STORE_STAT_ONLINE]
  | .SEAL_STORE_ERR => [.SEAL_STORE_ERR_INTEG, .SEAL_STORE_ERR_TORN, .SEAL_STORE_ERR_ROLLBACK, .SEAL_STORE_ERR_FOREIGN, .SEAL_STORE_ERR_COMMIT_FAIL]
  | .SEAL_STORE_CNT => [.SEAL_STORE_CNT_INTEG_CNT, .SEAL_STORE_CNT_TORN_CNT]
  | .SEAL_STORE_ERRVOL => [.SEAL_STORE_ERRVOL_VOLUME]
  | .SEAL_LINE_STAT => [.SEAL_LINE_STAT_KEYS, .SEAL_LINE_STAT_REENC, .SEAL_LINE_STAT_ROOTS]
  | .SEAL_LINE_ERR => [.SEAL_LINE_ERR_INTEG, .SEAL_LINE_ERR_GROUP, .SEAL_LINE_ERR_UNCORR]
  | .SEAL_LINE_ERRADDR => [.SEAL_LINE_ERRADDR_LINE]
  | .SEAL_LINE_CNT => [.SEAL_LINE_CNT_INTEG_CNT, .SEAL_LINE_CNT_REENC_CNT]
  | .PST_FW_STAT => [.PST_FW_STAT_READY, .PST_FW_STAT_COPY, .PST_FW_STAT_RECOVERY, .PST_FW_STAT_CORES, .PST_FW_STAT_RESTARTS]
  | .PST_WHOAMI => [.PST_WHOAMI_ID]
  | .PST_MB_OWNER => [.PST_MB_OWNER_OWNER]
  | .PST_LOCK_ACQ => [.PST_LOCK_ACQ_RESULT, .PST_LOCK_ACQ_OWNER]
  | .PST_LOCK_REL => [.PST_LOCK_REL_REL]
  | .PST_LOCK => [.PST_LOCK_OWNER, .PST_LOCK_ABANDONED]
  | .PST_LOCK_ERR => [.PST_LOCK_ERR_NOT_OWNER, .PST_LOCK_ERR_LOCK, .PST_LOCK_ERR_WRITER]
  | .EVT_PEND => [.EVT_PEND_PEND]
  | .EVT_ROUTE => [.EVT_ROUTE_VECTOR, .EVT_ROUTE_FUNC, .EVT_ROUTE_MSIX_EN, .EVT_ROUTE_TOKEN_EN, .EVT_ROUTE_LOG, .EVT_ROUTE_REGION]
  | .EVT_USER => [.EVT_USER_RAISE]
  | .EVT_LOG_CTL => [.EVT_LOG_CTL_AXIS, .EVT_LOG_CTL_AXIS_EN]
  | .EVT_LOG_STAT => [.EVT_LOG_STAT_QUEUE, .EVT_LOG_STAT_WAITING, .EVT_LOG_STAT_STOPPED, .EVT_LOG_STAT_ALLOW]
  | .EVT_LOG_LOST => [.EVT_LOG_LOST_LOST]
  | .EVT_LOG_NEWEST => [.EVT_LOG_NEWEST_SEQ]
  | .EVT_LOG_OLDEST => [.EVT_LOG_OLDEST_SEQ]
  | .PERF_CNT => [.PERF_CNT_COUNT, .PERF_CNT_OVF]
  | .PERF_SEL => [.PERF_SEL_BLOCK, .PERF_SEL_INST, .PERF_SEL_EVENT, .PERF_SEL_EN, .PERF_SEL_MODE, .PERF_SEL_CLEAR, .PERF_SEL_THRESH]
  | .PERF_FILT => [.PERF_FILT_MASTER, .PERF_FILT_MASTER_EN, .PERF_FILT_PRIV, .PERF_FILT_CLASS, .PERF_FILT_RANGE_EN]
  | .PERF_OVF => [.PERF_OVF_OVF]
  | .PERF_TB => [.PERF_TB_TB]
  | .PERF_USER_EN => [.PERF_USER_EN_FABRIC, .PERF_USER_EN_HOST]
  | .PERF_RANGE_LO => [.PERF_RANGE_LO_LO]
  | .PERF_RANGE_HI => [.PERF_RANGE_HI_HI]
  | .CFG_STAT => [.CFG_STAT_STATE, .CFG_STAT_BOOT, .CFG_STAT_RELEASED, .CFG_STAT_LINE, .CFG_STAT_FALLBACK, .CFG_STAT_DONE_WAIT, .CFG_STAT_BCAST_WAIT, .CFG_STAT_HOST_WAIT]
  | .CFG_CMD => [.CFG_CMD_GO]
  | .CFG_SRC => [.CFG_SRC_SLOT, .CFG_SRC_BCAST]
  | .CFG_FAIL => [.CFG_FAIL_SLOT, .CFG_FAIL_CAUSE, .CFG_FAIL_SEGMENT]
  | .CFG_DESIGN => [.CFG_DESIGN_ID]
  | .CFG_XREQ => [.CFG_XREQ_ADDR]
  | .CFG_XSTAT => [.CFG_XSTAT_RESULT, .CFG_XSTAT_CAUSE, .CFG_XSTAT_COUNT]
  | .CFG_XSPI => [.CFG_XSPI_READY, .CFG_XSPI_OCTAL, .CFG_XSPI_FREQ, .CFG_XSPI_BUS_ERR]
  | .CFG_NVM_STAT => [.CFG_NVM_STAT_BUSY, .CFG_NVM_STAT_SUSPENDED, .CFG_NVM_STAT_SPARES, .CFG_NVM_STAT_RO_AREA]
  | .CFG_NVM_SEL => [.CFG_NVM_SEL_BLOCK]
  | .CFG_NVM_WEAR => [.CFG_NVM_WEAR_ERASES, .CFG_NVM_WEAR_STATE, .CFG_NVM_WEAR_PHYS]
  | .CFG_NVM_ERR => [.CFG_NVM_ERR_CORR, .CFG_NVM_ERR_UNCORR, .CFG_NVM_ERR_INCOMPLETE, .CFG_NVM_ERR_RETIRED, .CFG_NVM_ERR_READ_ONLY, .CFG_NVM_ERR_BLOCK]
  | .CFG_NVM_CNT => [.CFG_NVM_CNT_CORR_CNT, .CFG_NVM_CNT_UNCORR_CNT]
  | .CFG_RGN_STAT => [.CFG_RGN_STAT_STATE, .CFG_RGN_STAT_ISOLATED, .CFG_RGN_STAT_XSPI]
  | .CFG_RGN_CTL => [.CFG_RGN_CTL_ESS_ACT]
  | .CFG_ISO_CNT => [.CFG_ISO_CNT_ABSORBED, .CFG_ISO_CNT_PARTIAL]
  | .CFG_RGN_UPSET => [.CFG_RGN_UPSET_ESSENTIAL, .CFG_RGN_UPSET_OTHER]
  | .CFG_SCRUB_CTL => [.CFG_SCRUB_CTL_EN]
  | .CFG_SCRUB_STAT => [.CFG_SCRUB_STAT_CYCLES, .CFG_SCRUB_STAT_RUNNING]
  | .CFG_SCRUB_LAST => [.CFG_SCRUB_LAST_FRAME, .CFG_SCRUB_LAST_REGION, .CFG_SCRUB_LAST_UNCORR]
  | .CFG_SCRUB_CNT => [.CFG_SCRUB_CNT_GLOBAL, .CFG_SCRUB_CNT_REFETCH]
  | .CFG_FAB_STAT => [.CFG_FAB_STAT_DEFICIT, .CFG_FAB_STAT_DEFICIT_NOW, .CFG_FAB_STAT_CODE_ERR, .CFG_FAB_STAT_CODE_CNT]
  | .CFG_BM_STAT => [.CFG_BM_STAT_CORR, .CFG_BM_STAT_UNCORR, .CFG_BM_STAT_CORR_CNT, .CFG_BM_STAT_FIRST_BM]
  | .CFG_TREE_STAT => [.CFG_TREE_STAT_STROBE_OVR, .CFG_TREE_STAT_UCLK_LOSS, .CFG_TREE_STAT_UCLK_RUN, .CFG_TREE_STAT_UTAP_OVR]
  | .CFG_AGT_STAT => [.CFG_AGT_STAT_POISON, .CFG_AGT_STAT_INTEG, .CFG_AGT_STAT_REFUSED, .CFG_AGT_STAT_DIRTY]
  | .TST_TAP_STAT => [.TST_TAP_STAT_INSTRUCTION, .TST_TAP_STAT_TAP_STATE]
  | .PST_MB_DOORBELL => [.PST_MB_DOORBELL_TAIL]
  | .PST_MB_REQ => [.PST_MB_REQ_HEAD, .PST_MB_REQ_TAIL]
  | .PST_MB_RPL => [.PST_MB_RPL_HEAD, .PST_MB_RPL_TAIL]
  | .PST_MB_STAT => [.PST_MB_STAT_READY, .PST_MB_STAT_WAIT, .PST_MB_STAT_MALFORMED, .PST_MB_STAT_OWNER, .PST_MB_STAT_EPOCH]
  | .PST_MB_EVT => [.PST_MB_EVT_VECTOR, .PST_MB_EVT_EN, .PST_MB_EVT_HOLDOFF, .PST_MB_EVT_PENDING]

/-- The value of element `i` of a field after the reset that clears its class. -/
def Fld.reset (f : Fld) (i : Nat) : Nat := f.spec.rst.at i

/-- Registers in address order, part 0. -/
def Reg.all0 : List Reg :=
  [.DEV_ID, .DEV_UID, .DEV_ACCESS_ERR, .DEV_ACCESS_ADDR, .DEV_RST_CAUSE, .DEV_RST_CMD, .DEV_RGN_ACCESS,
    .DEV_ISL_RUN, .DEV_ISL_STOP, .DEV_ISL_HELD, .DEV_ISL_RST, .DEV_XDROP, .DEV_OCT_CTL, .DEV_OCT_CLK,
    .DEV_OCT_PROTO, .DEV_OCT_STAT, .DEV_LC, .DEV_SEC_STAT, .DEV_RNG_STAT, .DEV_RNG_DATA, .DEV_ST_STAT,
    .DEV_ST_FAIL, .DEV_ST_DEFECT, .DEV_FRK_REC, .DEV_FRK_CMD, .DEV_FRK_STAT, .DEV_FRK_CNT, .DEV_FRK_MISS]

/-- Registers in address order, part 1. -/
def Reg.all1 : List Reg :=
  [.DEV_FRK_CTR, .DEV_RTC, .DEV_RTC_STAT, .PWR_STATE, .PWR_WAKE_CTL, .PWR_WAKE_ALARM, .PWR_PKG_STAT,
    .PWR_PKG_CTL, .PWR_THERM_CTL, .PWR_THERM_STAT, .PWR_RGN_CTL, .PWR_RGN_STAT, .PWR_RGN_LOOP, .PWR_MON,
    .PWR_TEMP, .PWR_AIN, .PWR_AIN_CTL, .PWR_AIN_LIM, .PWR_AIN_FLT, .PWR_EXT, .POS_AX_CTL,
    .POS_AX_CMD, .POS_AX_STAT, .POS_AX_FLT, .POS_AX_POS, .POS_AX_EPOCH, .POS_AX_VEL, .POS_AX_HWM]

/-- Registers in address order, part 2. -/
def Reg.all2 : List Reg :=
  [.POS_AX_LOAD, .POS_AX_LOAD_EPOCH, .POS_AX_DR, .POS_AX_DRTIME, .POS_AX_TUNE, .POS_AX_VMIN, .POS_AX_ZPERIOD,
    .POS_AX_ZTOL, .POS_AX_ZCAP, .POS_AX_VSPEED, .POS_AX_VACC, .POS_AX_FOLLOW, .POS_AX_ERRCNT, .POS_AX_LOSTCNT,
    .POS_AX_JUMP, .POS_AX_SNAP, .POS_AX_SNAP_EPOCH, .POS_SNAP_CMD, .POS_SNAP_TB, .POS_STRB_CTL, .POS_STRB_PITCH,
    .POS_STRB_BASE, .POS_STRB_STAT, .POS_ENC_STAT, .SRT_CTL, .SRT_CMD, .SRT_STAT, .SRT_TGT]

/-- Registers in address order, part 3. -/
def Reg.all3 : List Reg :=
  [.SRT_LATE_TOL, .SRT_ERR, .SRT_FLUSH_CNT, .SRT_INS_RES, .SRT_INS, .SRT_HEAD, .PIN_CFG,
    .PIN_IMAP, .PIN_OMAP, .PIN_OUT, .PIN_IN, .PIN_BANK_CTL, .PIN_BANK_STAT, .PIN_OCONF,
    .PIN_ICONF, .PIN_LOCK_ARM, .PIN_LOCK_SET, .PIN_LOCK, .PIN_GSTAT, .PIN_OUT_MW, .PIN_PLC_CTL,
    .PIN_PLC_STAT, .PIN_PLC_CNT, .PIN_LOAD, .PIN_CAL_STAT, .PIN_CAL_CMD, .PIN_PWM_PER, .PIN_PWM_HI]

/-- Registers in address order, part 4. -/
def Reg.all4 : List Reg :=
  [.LANE_CTL, .LANE_RATE, .LANE_TXEQ, .LANE_RXEQ, .LANE_STAT, .LANE_ERR, .LANE_CUR,
    .LANE_DFE, .LANE_CNT, .LANE_ERRCNT, .LANE_EP_STAT, .LANE_EP_ID, .LANE_RP_STAT, .LANE_ETH_STAT,
    .LANE_ETH_CNT, .LANE_ETH_RXWR, .LANE_ETH_RXRD, .LANE_ETH_TXWR, .LANE_ETH_TXRD, .LNK_CTL, .LNK_CMD,
    .LNK_STAT, .LNK_ERR, .LNK_PARTNER_UID, .LNK_PARTNER_CAP, .LNK_PARTNER_PREP, .LNK_LATENCY, .LNK_CABLE]

/-- Registers in address order, part 5. -/
def Reg.all5 : List Reg :=
  [.LNK_BEACON, .LNK_FIRE, .LNK_CNT_FEC, .LNK_CNT_FLIT, .LNK_CNT_LINK, .LNK_CNT_EXP, .LNK_RING_CTL,
    .LNK_RING_CMD, .LNK_RING_STAT, .LNK_RING_REACH, .LNK_RING_WEIGHT, .LNK_RING_STOPSRC, .MEM_STK_CTL, .MEM_STK_STAT,
    .MEM_STK_ERR, .MEM_STK_ERRADDR, .MEM_STK_ECNT, .MEM_HOME_STAT, .MEM_HOME_CNT, .SEAL_GRAN, .SEAL_GRAN_CMD,
    .SEAL_GRAN_RES, .SEAL_STORE_STAT, .SEAL_STORE_ERR, .SEAL_STORE_CNT, .SEAL_STORE_ERRVOL, .SEAL_LINE_STAT, .SEAL_LINE_ERR]

/-- Registers in address order, part 6. -/
def Reg.all6 : List Reg :=
  [.SEAL_LINE_ERRADDR, .SEAL_LINE_CNT, .PST_FW_STAT, .PST_WHOAMI, .PST_MB_OWNER, .PST_LOCK_ACQ, .PST_LOCK_REL,
    .PST_LOCK, .PST_LOCK_ERR, .EVT_PEND, .EVT_ROUTE, .EVT_USER, .EVT_LOG_CTL, .EVT_LOG_STAT,
    .EVT_LOG_LOST, .EVT_LOG_NEWEST, .EVT_LOG_OLDEST, .PERF_CNT, .PERF_SEL, .PERF_FILT, .PERF_OVF,
    .PERF_TB, .PERF_USER_EN, .PERF_RANGE_LO, .PERF_RANGE_HI, .CFG_STAT, .CFG_CMD, .CFG_SRC]

/-- Registers in address order, part 7. -/
def Reg.all7 : List Reg :=
  [.CFG_FAIL, .CFG_DESIGN, .CFG_XREQ, .CFG_XSTAT, .CFG_XSPI, .CFG_NVM_STAT, .CFG_NVM_SEL,
    .CFG_NVM_WEAR, .CFG_NVM_ERR, .CFG_NVM_CNT, .CFG_RGN_STAT, .CFG_RGN_CTL, .CFG_ISO_CNT, .CFG_RGN_UPSET,
    .CFG_SCRUB_CTL, .CFG_SCRUB_STAT, .CFG_SCRUB_LAST, .CFG_SCRUB_CNT, .CFG_FAB_STAT, .CFG_BM_STAT, .CFG_TREE_STAT,
    .CFG_AGT_STAT, .TST_TAP_STAT, .PST_MB_DOORBELL, .PST_MB_REQ, .PST_MB_RPL, .PST_MB_STAT, .PST_MB_EVT]

/-- Every register, in address order of its window. -/
def Reg.all : List Reg :=
  Reg.all0 ++ Reg.all1 ++ Reg.all2 ++ Reg.all3 ++ Reg.all4 ++ Reg.all5 ++ Reg.all6 ++ Reg.all7

end Sys2Proof.Machine
end

