-- ==== Sys2Proof/Machine/Table.lean ====
section
/-! DEFINITION. Sparse tables: plain data keyed by numbers, in one canonical form (keys strictly rising, no entry equal
to what an unlisted key reads as). The register file, the addressed memories and every indexed block of the machine are
such tables, so equal contents are equal data. -/

namespace Sys2Proof.Machine

/-- A sparse table from numbers to `α`. A table of bytes is a list of `Host.Cell`. -/
abbrev Tbl (α : Type) := List (Nat × α)

/-- Reads key `q`; an unlisted key reads as `d`. -/
def Tbl.find {α : Type} (d : α) : Tbl α → Nat → α
  | [], _ => d
  | e :: t, q => if e.1 = q then e.2 else Tbl.find d t q

/-- Removes every entry of key `q`. -/
def Tbl.drop {α : Type} : Tbl α → Nat → Tbl α
  | [], _ => []
  | e :: t, q => if e.1 = q then Tbl.drop t q else e :: Tbl.drop t q

/-- Puts an entry before the first larger key. -/
def Tbl.ins {α : Type} : Tbl α → Nat → α → Tbl α
  | [], q, v => [(q, v)]
  | e :: t, q, v => if q < e.1 then (q, v) :: e :: t else e :: Tbl.ins t q v

/-- Sets key `q` to `v`; writing what an unlisted key reads as removes the entry. -/
def Tbl.set {α : Type} [DecidableEq α] (d : α) (t : Tbl α) (q : Nat) (v : α) : Tbl α :=
  if v = d then Tbl.drop t q else Tbl.ins (Tbl.drop t q) q v

/-- Applies `g` to the entry of key `q`. -/
def Tbl.upd {α : Type} [DecidableEq α] (d : α) (t : Tbl α) (q : Nat) (g : α → α) : Tbl α :=
  Tbl.set d t q (g (Tbl.find d t q))

/-- Keeps the entries whose key satisfies `p`. -/
def Tbl.keep {α : Type} (p : Nat → Bool) : Tbl α → Tbl α
  | [] => []
  | e :: t => if p e.1 then e :: Tbl.keep p t else Tbl.keep p t

/-- Every key of the table is above `n`. -/
def Tbl.above {α : Type} (n : Nat) : Tbl α → Bool
  | [] => true
  | e :: t => decide (n < e.1) && Tbl.above n t

/-- The canonical form. -/
def Tbl.wf {α : Type} [DecidableEq α] (d : α) : Tbl α → Bool
  | [] => true
  | e :: t => decide (e.2 ≠ d) && Tbl.above e.1 t && Tbl.wf d t

end Sys2Proof.Machine
end

