-- ==== Sys2Proof/Machine/State.lean ====
section
/-! DEFINITION. The state of the device: the register file, every table, buffer, queue and mode that the spec gives it
beside the registers, the messages that have left it, and the queue of waiting commands. Plain data throughout. -/

namespace Sys2Proof.Machine

/-- How the machine stops: no command stops it (every rule of spec/ gives its commands an effect), so there is no way. -/
inductive Fault where
  deriving DecidableEq, Repr

/-- Why a command has no meaning. `notModelled`: raised by `exec` for a command this model has not reached; safe. -/
inductive Refusal where
  | notModelled (mnemonic : String)
  deriving DecidableEq, Repr

/-! ### Accesses and crossings (chapters 00, 01, 04) -/

/-- A register access that waits: for its stopped domain (R97), for a held one (R93), or behind an earlier access of its own port (R17). `held`: it
waits in the interconnect, where no reset of its domain poisons it; `queued`: it is an entry of the crossing queue into its domain (R92); `form`: its width or alignment is wrong (R5). -/
structure WaitingAccess where
  port : Port
  addr : Nat
  write : Bool
  data : Nat
  form : Bool
  held : Bool
  queued : Bool
  deriving DecidableEq, Repr

/-- The steps of a resynchronisation (R93): `opened` when none runs. -/
inductive XStep where
  | opened | asserted | discarded | requested | acknowledged
  deriving DecidableEq, Repr

/-- A crossing queue (R92): the Gray-coded write pointer on the sending side, the read pointer on the receiving side, and each as it has crossed to the
other side. -/
structure XQueue where
  wr : BitVec 6
  rd : BitVec 6
  wrSeen : BitVec 6
  rdSeen : BitVec 6
  deriving DecidableEq, Repr

/-- An empty queue with its pointers at 0. -/
def XQueue.zero : XQueue := ⟨0, 0, 0, 0⟩

/-- The crossing queues of one domain port (R92, R93): the step, which ends are held in reset, whether the discarded entries of this
resynchronisation have been counted (R94), the cause, whether the domain is its live end, and the queues into the domain and out of it. Entries that stand
in them are the `queued` accesses of State.waiting and the `queued` messages of State.memo; every other token is out again in the step that puts it in. -/
structure Crossing where
  step : XStep
  domainReset : Bool
  clocklessReset : Bool
  counted : Bool
  cause : Nat
  domainLive : Bool
  into : XQueue
  out : XQueue
  deriving DecidableEq, Repr

/-- At device reset every domain starts held (R85). -/
def Crossing.reset : Crossing := ⟨.asserted, true, false, false, 1, false, .zero, .zero⟩

/-- What a pulse into a domain stands for (R87): an MSI-X message or the signal of a mailbox, for the endpoint in D0, a beacon of a link, for D23, or an axis of
D23 that is LOST, for the ring stops of D17. -/
inductive Pulse where
  | msix (function vector : Nat)
  | signal (mailbox : Nat)
  | beacon (link axis pos vel : Nat) (lost : Bool)
  | lost (axis : Nat)
  deriving DecidableEq, Repr

/-- A pulse crossing (R87): the sender's toggle, the return toggle as the sender last saw it, and the pulses not yet delivered, oldest first. While
the toggles differ the oldest is on its way. -/
structure PulseX where
  toggle : Bool
  back : Bool
  kept : List Pulse
  deriving DecidableEq, Repr

/-- A pulse crossing at rest. -/
def PulseX.reset : PulseX := ⟨false, false, []⟩

/-- The published copy of a multi-bit value (R88): the copy, the one before it, the clock + 1 of its last update (0: none yet), and what it is a copy of. -/
structure PubCopy where
  now : Nat
  was : Nat
  since : Nat
  what : Published
  deriving DecidableEq, Repr

/-- No copy. -/
def PubCopy.none : PubCopy := ⟨0, 0, 0, ⟨.rtc, false⟩⟩

/-- A receiver of a published multi-bit value (R88..R90): the sample before, the value accepted, disagreements in a row, whether its freeze is in force,
the clock when that began, whether the publisher ended the freeze and the receiver has not sampled since, and the update (its clock + 1) into which its last
sample that caught one fell. -/
structure Sampler where
  last : Option Nat
  accepted : Option Nat
  misses : Nat
  frozen : Bool
  since : Nat
  thawed : Bool
  torn : Nat
  deriving DecidableEq, Repr

/-- A receiver that has taken no sample. -/
def Sampler.reset : Sampler := ⟨none, none, 0, false, 0, false, 0⟩

/-! ### Fabric (chapters 02, 03, 17) -/

/-- A cell: its configuration, the token its stage holds (none: a hole; in a clocked cluster its register), the token of a STAGE cell's second stage, and
its memory contents. -/
structure Cell where
  cfg : CellCfg
  tok : Option Nat
  tok2 : Option Nat
  mem : BitVec 64
  deriving DecidableEq, Repr

/-- The configuration of a cell that no image configures. -/
def CellCfg.blank : CellCfg := ⟨.stage, true, 0, 0, false, [], .empty, .empty, 0, none⟩

/-- A cell that no image configures. -/
def Cell.reset : Cell := ⟨.blank, none, none, 0⟩

/-- A hop stage of a word channel: its place, its configuration and the word it holds, + 1 (0: a hole). -/
structure WordStage where
  hop : Hop
  cfg : WordCfg
  tok : Nat
  deriving DecidableEq, Repr

/-- A crossing element (R66): its configuration, the word it holds, + 1; into a clocked cluster, how many edges have seen it; and the value last accepted
or published; out of one, the edges before it may publish again (R88). -/
structure Element where
  cfg : ElementCfg
  tok : Nat
  seen : Nat
  value : Nat
  age : Nat
  deriving DecidableEq, Repr

/-- One of the trees T4..T7: what an image sets of it, the level of its source, the rises of a user clock on their way to the clusters, whether that clock is
present, and whether its loss has been declared (R61, R67). -/
structure Tree where
  cfg : Option TreeCfg
  level : Bool
  edges : Nat
  present : Bool
  lost : Bool
  deriving DecidableEq, Repr

/-- A tree that no image sets. -/
def Tree.reset : Tree := ⟨none, false, 0, false, false⟩

/-- A request that waits at port B of a block memory behind a colliding access of port A (R72): its address word and its data words. -/
structure BmHeld where
  word : Nat
  low : Nat
  high : Nat
  deriving DecidableEq, Repr

/-- A block memory: its configuration, its rows of 72 bits, and the requests of port B that wait. -/
structure BlockMem where
  cfg : BmCfg
  rows : Tbl Nat
  held : List BmHeld
  deriving DecidableEq, Repr

/-- A block memory that no image configures. -/
def BlockMem.reset : BlockMem := ⟨⟨.w72, .w72, false, []⟩, [], []⟩

/-- A cluster arbiter (R34): the input that holds the grant, and which inputs have a request pending. -/
structure Arbiter where
  grant : Option (Fin 2)
  pending0 : Bool
  pending1 : Bool
  deriving DecidableEq, Repr

/-- An arbiter at rest. -/
def Arbiter.reset : Arbiter := ⟨none, false, false⟩

/-! ### Events and the logbook (chapter 21) -/

/-- A record in the staging queue (R536..R538). `count` merges the raises of an EVENT record. -/
structure LogRec where
  kind : Nat
  source : Nat
  timebase : Nat
  postmark : Nat
  time : Nat
  flags : Nat
  count : Nat
  detail : List Byte
  deriving DecidableEq, Repr

/-- The run of raises lost to a full queue (R538). -/
structure LostRun where
  count : Nat
  firstPost : Nat
  lastPost : Nat
  firstTime : Nat
  deriving DecidableEq, Repr

/-- Event paths and the logbook beside their registers. `tokens`: event tokens outstanding, as (region, source) (R533).
`routes`: the mailbox mask of each source (R534). `firmware`: records that wait in the firmware for 32 free entries.
`book`: the records held, by SEQ; `erasing`: the erase of the writer's next block runs (R539). `queueAtReset`: what the always-on logic recorded (R541).
`claims`: the mailbox + 1 that claims each performance counter (R528). -/
structure EventState where
  tokens : List (Nat × Nat)
  routes : Tbl Nat
  queue : List LogRec
  lost : Option LostRun
  firmware : List (List LogRec)
  book : List (Nat × LogRec)
  nextSeq : Nat
  erasing : Bool
  queueAtReset : Option Nat
  claims : Tbl Nat
  deriving DecidableEq, Repr

/-! ### The Postroom (chapter 14) -/

/-- What the firmware holds for a mailbox until it fits (R358): a letter, or the event notice of a source (R363). -/
inductive Held where
  | letter (bytes : List Byte)
  | notice (source count time : Nat)
  deriving DecidableEq, Repr

/-- A mailbox beside its registers. `taken`: letters taken whose reply is not written; `late`: those of them whose service runs and whose reply comes later;
`answers`: those of them that are answered behind one that is not, with the letters of their reply and completion, which wait for it (R358); `orphans`: letters
taken before a reset of the mailbox, whose replies are discarded (R364); `held`: letters and notices held until they fit (R358); `rung`: a doorbell rang while
READY was 0 (R349); `tokenOut`: a signal token stands unread (R362); `signalT`: when the owner was signalled last. -/
structure Mailbox where
  held : List Held
  taken : List Letter
  late : List Letter
  answers : List (Letter × List (List Byte))
  orphans : List Letter
  rung : Bool
  tokenOut : Bool
  signalT : Option Nat
  deriving DecidableEq, Repr

/-- A mailbox at reset. -/
def Mailbox.reset : Mailbox := ⟨[], [], [], [], [], false, false, none⟩

/-! ### Services and handles (chapters 07, 15) -/

/-- A service answered ACCEPTED whose completion letter is owed (R376, R380): where it goes, the envelope to echo, and
what the operation acts on (`kind` is the opcode, `object` and `args` as the service's row uses them). -/
structure PendingOp where
  letter : Letter
  object : Nat
  args : List Nat
  mute : Bool
  deriving DecidableEq, Repr

/-- The firmware's handles and pending services. `genBase`: the seed of the generation table and the resets since, added
to every index (R162); `genAdv`: the advances of each index, by kind × 4096 + index (R161); `live`: the mailbox + 1 that
created the object at each index, 0 where none is; `fresh`: the lowest index of each kind not yet used since power-on;
`freed`: the indices of each kind freed since, longest free first; `ops`: the services answered ACCEPTED; `shutdown`: a
DEVICE.SHUTDOWN has been accepted (R379); `stalled`: letters whose service waits for a domain, with that domain (R97). -/
structure Services where
  genBase : Nat
  genAdv : Tbl Nat
  live : Tbl Nat
  fresh : Tbl Nat
  freed : Tbl (List Nat)
  ops : List PendingOp
  shutdown : Bool
  stalled : List (Nat × Letter)
  deriving DecidableEq, Repr

/-! ### Position (chapter 05) -/

/-- An axis beside its registers. Times are in steps of 15.625 ps of the timebase; positions are words of R108 without
their axis field. `src`..`zmode`: the copies of R100. `lvlA`, `lvlB`: the decoder's filtered levels, `timeA`, `timeB` the
times + 1 of their last changes (0: none). `anchor`, `anchorT`: the last counted edge (or what stands for it) and its
time; `dir`: the direction of the last counted step, 0 none, 1 forward, 2 backward; `off`: what the count differs from
the quadrature state's by, modulo a cycle. `vnum` counts in `vden` steps: the last valid velocity (for a
profile axis `vnum` is in 10^-9 / 16 count/s), `vok` while it interpolates; `held`: the travel held under R105. `win`, `rate`: times of counted edges, newest first
(R105, R101). `faults`: the codes present, bit c; `legal`, `legalDir`: the run of legal steps; `calm`: counted edges in a
row within the rate; `stuckA`, `stuck`, `stuckFast`: the run of R119 code 3. `far`: the furthest point of R111. `zStep`:
the last quadrature step, 0 none, 1 forward, 2 backward; `zOff`: capture suspended; `zPrev`: a capture has been made. `acc`: the
fractional accumulator of R114; `slew`: what a beacon left to apply (R116); `beaconT`: time + 1 of the last valid beacon the axis took, or of the
accepted START or RECOVER. `drT`: when the last fault ended TRACKING. `bridged`: a re-anchor's velocity serves until the window refills (R121);
`stuckHit`: the run has faulted STUCK. `tickPos`, `tickHwm`: the position at the last tick and the high-water mark then, without their axis field (R113). -/
structure Axis where
  src : Nat
  enc : Nat
  mult : Nat
  inv : Bool
  zmode : Nat
  lvlA : Bool
  lvlB : Bool
  timeA : Nat
  timeB : Nat
  anchor : Nat
  anchorT : Nat
  dir : Nat
  off : Nat
  vnum : Int
  vden : Nat
  vok : Bool
  held : Option Int
  win : List Nat
  rate : List Nat
  faults : Nat
  legal : Nat
  legalDir : Nat
  calm : Nat
  stuckA : Bool
  stuck : Nat
  stuckFast : Bool
  far : Nat
  zStep : Nat
  zOff : Bool
  zPrev : Bool
  acc : Int
  slew : Int
  beaconT : Nat
  drT : Nat
  bridged : Bool
  stuckHit : Bool
  tickPos : Nat
  tickHwm : Nat
  deriving DecidableEq, Repr

/-- An axis at reset. -/
def Axis.reset : Axis :=
  { src := 0, enc := 0, mult := 0, inv := false, zmode := 0, lvlA := false, lvlB := false, timeA := 0, timeB := 0,
    anchor := 0, anchorT := 0, dir := 0, off := 0, vnum := 0, vden := 1, vok := false, held := none, win := [], rate := [],
    faults := 0, legal := 0, legalDir := 0, calm := 0, stuckA := false, stuck := 0, stuckFast := false, far := 0,
    zStep := 0, zOff := false, zPrev := false, acc := 0, slew := 0, beaconT := 0, drT := 0, bridged := false, stuckHit := false,
    tickPos := 0, tickHwm := 0 }

/-! ### Sorters and timed pins (chapter 06) -/

/-- An entry a sorter holds (R130): its postmark, payload and place in insertion order; `due` once its postmark has been
reached (R134), and `dueT` when; `late` where it entered late (R136). -/
structure Entry where
  pm : Nat
  payload : Nat
  seq : Nat
  due : Bool
  late : Bool
  dueT : Nat
  deriving DecidableEq, Repr

/-- A sorter: its entries in insertion order, one past the place of the last, the released entry that waits for a gate, as its place and the gate's (R137), the
entries of STREAMs that wait for space (R131), a STREAM's last one with 2^128 × (its port's place + 1) added, and when (+ 1) it last released (R134). -/
structure Sorter where
  entries : List Entry
  next : Nat
  stuck : Option (Nat × Nat)
  streams : List Nat
  lastRel : Nat
  deriving DecidableEq, Repr

/-- A sorter at reset. -/
def Sorter.reset : Sorter := ⟨[], 0, none, [], 0⟩

/-- A released entry in a gate's buffer (R137): its 128 bits, whether the tag of its word 0 is 0x1 already, and when it fell due. -/
structure GateEntry where
  raw : Nat
  late : Bool
  dueT : Nat
  deriving DecidableEq, Repr

/-- An entry armed at placement cells (R139): its sorter, the axis and the order under which it was handed over, itself and the cells that hold it. -/
structure Armed where
  sorter : Nat
  axis : Nat
  order : Nat
  entry : Entry
  cells : List Nat
  deriving DecidableEq, Repr

/-- An action committed at a cell (R139): the sorter that released it, its entry's postmark, its place in insertion order, when its edge leaves the pad, the moment the cell acts (that less the pin's
delay, R141), and whether it is late. -/
structure Commit where
  sorter : Nat
  pm : Nat
  seq : Nat
  action : Nat
  width : Nat
  at_ : Nat
  moment : Nat
  late : Bool
  deriving DecidableEq, Repr

/-- The return edge of a pulse: the sorter and the postmark of its action, its moment, its level, and whether the pulse has been counted as missed in HOLD
(R147). -/
structure PulseEnd where
  sorter : Nat
  pm : Nat
  at_ : Nat
  level : Bool
  missed : Bool
  deriving DecidableEq, Repr

/-- A placement cell beside its registers: its output level, its committed actions in the order of their moments, and the return edge of a pulse. -/
structure PlcCell where
  level : Bool
  commits : List Commit
  ret : Option PulseEnd
  deriving DecidableEq, Repr

/-- A cell at reset. -/
def PlcCell.reset : PlcCell := ⟨false, [], none⟩

/-- The timed pins beside their registers. `armed`: entries armed at cells; `lastEdge`: when (+ 1) a placement cell last
placed an edge on each pad; `extern`: what drives each pad from outside, as its level + 1; `shown`: the level each pad
last showed; `vio`: the range code + 1 of the nominal each bank's supply lies within, 0 below 0.6 V (7 + 1: none matches);
`inForce`: the range in force of each bank as its difference from 7; `changing`: banks whose range change waits for its
supply, `told`: those of them whose regulator has had its command; `armSeq`: each port's lock sequence, bank × 2 + steps done (R151); `calLeft`: the pins of a calibration still to do, `calNow`: the RESULT that the first of them
has met already, 0 none (R142), and `calOk`: the pins whose load stands as an OK run measured it (R140); `latch`: what each pad of a held bank is driven
to, 1 released, 2 low, 3 high, 0 not known (R147); `sinks`: the value + 1 that each sink last took (R148); `intrinsic`: each
bank's intrinsic delay (R141); `fouts`: the level + 1 that the last token of each fabric output set (R148); `pwm`: the period and high time each generator runs with, PER × 65,536 + HI (R156), `pwmT` when the period began, `hiFirst` the generators whose HI
has been written in it and `perLate` those whose PER was written after that; `standby`: the hold of
STANDBY is in force (R147). -/
structure PinState where
  armed : List Armed
  lastEdge : Tbl Nat
  extern : Tbl Nat
  shown : Tbl Nat
  vio : Tbl Nat
  inForce : Tbl Nat
  changing : List Nat
  told : List Nat
  armSeq : Tbl Nat
  calLeft : List Nat
  calNow : Nat
  calOk : List Nat
  latch : Tbl Nat
  sinks : Tbl Nat
  intrinsic : Tbl Nat
  fouts : Tbl Nat
  pwm : Tbl Nat
  pwmT : Tbl Nat
  hiFirst : List Nat
  perLate : List Nat
  standby : Bool
  deriving DecidableEq, Repr

/-- The timed pins at reset. -/
def PinState.reset : PinState :=
  { armed := [], lastEdge := [], extern := [], shown := [], vio := [], inForce := [], changing := [], told := [], armSeq := [], calLeft := [], calNow := 0,
    calOk := [], latch := [], sinks := [], intrinsic := [], fouts := [], pwm := [], pwmT := [], hiFirst := [], perLate := [], standby := false }

/-! ### Rings, series and leases (chapter 09) -/

/-- A series (R224): its definition, its high mark, and its next proof identifier (R230). -/
structure Series where
  id : Nat
  ring : Nat
  first : Nat
  limit : Nat
  proofFirst : Nat
  proofLimit : Nat
  size : Nat
  low : Nat
  step : Nat
  high : Nat
  proofNext : Nat
  deriving DecidableEq, Repr

/-- A lease held (R226, R229): its index among the leases, its series, its run, its draw mark, the next new identifier,
identifiers returned (rising), and identifiers drawn without an outcome. -/
structure Lease where
  idx : Nat
  series : Nat
  first : Nat
  count : Nat
  mark : Nat
  next : Nat
  returned : List Nat
  drawn : List Nat
  deriving DecidableEq, Repr

/-- A request for a lease on its way (R226): the letter it answers (none: automatic), the proposal, the acknowledged
weight, the highest mark returned, the attempts made, and whether it waits for a repeat. -/
structure LeaseReq where
  letter : Option Letter
  series : Nat
  wanted : Nat
  base : Nat
  count : Nat
  acked : List Nat
  high : Nat
  tries : Nat
  waiting : Bool
  deriving DecidableEq, Repr

/-- An audit record (R231), the log it goes to, and the place of its series. -/
structure Audit where
  seq : Nat
  ident : Nat
  count : Nat
  series : Nat
  kind : Nat
  flags : Nat
  channel : Nat
  postmark : Nat
  epoch : Nat
  time : Nat
  tag : Nat
  log : Nat
  place : Nat
  deriving DecidableEq, Repr

/-- A latched ring stop (R219, R223). -/
structure RingStop where
  origin : Nat
  seq : Nat
  cause : Nat
  deriving DecidableEq, Repr

/-- A ring beside its registers: the member table as (unique identifier, weight) (R215), the stop set (R223), the
sequence number of the device's own last stop, the 1 ms rounds since either port reached ACTIVE while FORMING (R218), a table
proposed with the members that have acknowledged it and the letter it answers (R233), and the RING.CONFIG letters that wait behind it (R378). -/
structure Ring where
  table : List (Nat × Nat)
  stops : List RingStop
  nextStop : Nat
  formed : Nat
  proposed : List (Nat × Nat)
  acks : List Nat
  letter : Option Letter
  later : List (Letter × List Byte)
  deriving DecidableEq, Repr

/-- A ring at reset. -/
def Ring.reset : Ring := ⟨[], [], 0, 0, [], [], none, []⟩

/-- Series, leases and audit. `series`: the journal's definitions, by place; `openSeries`: the place of each open series
by its handle index, + 1; `leases`; `reqs`; `staged`: audit records not yet flushed; `flushed`: how many have been; `auditSeq`: the next SEQ of each
log and `auditTag` its last TAG (log: VOLUME_UID + 1 of its volume, 0 while none is bound, × 2 for proof), `flushedTag` the last TAG on the volume; `auditVol`: VOLUME_UID + 1 of the volume bound to each series;
`refusing`: series whose automatic request is refused; `auditKey`: the audit key (R508), as a number; `heardHigh`: the highest mark of
each series that a roll-call carried (R226); `queued`: requests that wait for one of their series on its way, as (letter, series, count) (R378); `journalled`: how many records were written into the journal
(R228). -/
structure LeaseState where
  series : List Series
  openSeries : Tbl Nat
  leases : List Lease
  reqs : List LeaseReq
  staged : List Audit
  flushed : Nat
  auditSeq : Tbl Nat
  auditTag : Tbl Nat
  flushedTag : Tbl Nat
  auditVol : Tbl Nat
  refusing : List Nat
  auditKey : Nat
  heardHigh : Tbl Nat
  queued : List (Letter × Nat × Nat)
  journalled : Nat
  deriving DecidableEq, Repr

/-! ### Channels (chapters 07, 08) -/

/-- A resource binding (R163): the resource word, and a handle where its KIND is 0x8. -/
structure Binding where
  word : Nat
  handle : Nat
  deriving DecidableEq, Repr

/-- The identifier of a product: its series' place, its lease's index (none: proof range), and itself. -/
structure Ident where
  series : Nat
  lease : Option Nat
  id : Nat
  deriving DecidableEq, Repr

/-- A begun product (R166, R187): its index, span, how it began, its identifier and what became of it, its trigger, map
generation, stitch seed and job product, the mode word and block it runs under (R211), the mailboxes still owed its letter, its stored camera lines, its
verdicts, the bound region whose turn it is (R179), and the run of begun products it stands in (R183, R200). `stored`: the 64-byte lines that its camera
lines take; `gone`: it has been discarded (R174, R183). -/
structure Product where
  index : Int
  mode : Nat
  block : List Byte
  start : Nat
  stop : Option Nat
  backward : Bool
  ident : Option Ident
  consumed : Bool
  recorded : Bool
  marked : Bool
  trigAt : Nat
  mapGen : Nat
  mapLine : Nat
  seed : Nat
  job : Option Nat
  owed : List Nat
  lineFirst : Nat
  lines : Nat
  gap : Bool
  inspected : Bool
  verdicts : List (Nat × Nat)
  final : Option Nat
  rejecting : Bool
  missed : Bool
  settled : Bool
  region : Option Nat
  epoch : Nat
  stored : Nat
  gone : Bool
  deriving DecidableEq, Repr

/-- The nozzle health of a channel (R198, R388): the bytes by nozzle as their difference from GOOD with WEIGHT 32, how many nozzles
there are, nozzles under an edit, SUSPECT reports as (nozzle, product count), products judged, the service's parameters, the
current generation, whether one is being built, and the lines of the generations. `driver`: the nozzles that a head driver reported failed; `wanted`: a
generation is to be built once one of the four that exist is freed (R198); `partner`: what stitch partners reported of the overlap, as (link, generation, nozzle,
byte) (R208); `lanes`: the fire lanes that the map covers, each with its nozzles (R198); `sizes`: the nozzles of each generation. -/
structure Health where
  bytes : Tbl Nat
  nozzles : Nat
  edited : List Nat
  driver : List Nat
  reports : List (Nat × Nat)
  judged : Nat
  weakAfter : Nat
  failAfter : Nat
  window : Nat
  flags : Nat
  gen : Nat
  building : List Nat
  line : Nat
  wanted : Bool
  partner : List (Nat × Nat × Nat × Nat)
  lanes : List (Nat × Nat)
  sizes : Tbl Nat
  deriving DecidableEq, Repr

/-- The health of a new channel (R388). -/
def Health.reset : Health := ⟨[], 0, [], [], [], 0, 3, 10, 1000, 3, 0, [], 0, false, [], [], []⟩

/-- The spool of a channel's job (R387, R392): the lines of the product map and slot 0, the slots and their size, and the
job products wholly spooled. -/
structure Spool where
  mapBase : Nat
  spoolBase : Nat
  slots : Nat
  slotLines : Nat
  filled : List Nat
  deriving DecidableEq, Repr

/-- The one pending change of a channel (R177, R178, R211): its postmark, what is released and bound (with the spool of a job that is
bound), or the new mode word and block, the letter it completes, and whether it is in force. -/
structure Change where
  at_ : Nat
  old : Option Binding
  new : Option Binding
  spool : Option Spool
  mode : Option (Nat × List Byte)
  letter : Letter
  applied : Bool
  deriving DecidableEq, Repr

/-- A channel. `state`: 0 IDLE, 1 ARMED, 2 RUNNING, 3 INHIBITED, 4 DRAINING, 5 ABORTING; `causes` in the order they
arose. `base`, `baseIdx`: a boundary and its product's index; `floor`: the resume postmark of the last RESUME, before which no product
begins (R200); `next`, `nextIdx`: the start (at fixed boundaries) and index of the next product forward; `trigs`: accepted triggers not yet begun, as (start, T). `under`, `done`, `dropped`,
`firstDrop`, `lastDrop` (postmarks + 1, 0: none), `returned`, `marks`, `at_`, `reason`, `resource`: the report of R175. `counters`: R206. `underDue`: an UNDERRUN report is
owed. `saved`: crossbar mappings that PROOF set aside; `cams`: the SEQ + 1 of each camera's last line, and `gapped` the cameras with a gap open;
`camLine`: how far the camera ring is written; `checks`: stitch checks received, as (index, start, seed, generation); `noticed`: the
mailboxes that have had the binding notice of its job (R387); `offline`: E of R180; `camPm`: the postmark + 1 of each camera's last
kept line; `targets`: the word of SRT_TGT + 1 that each bound sorter was given (R164); `armPm`: S0, or the postmark of the last RESUME, less LEAD of which
the channel runs (R169); `turn`: products shared among its regions so far (R179); `epoch`: the run of begun products in force, one more at each RESUME
(R183, R200); `poisoned`: the stacks' domains whose poison inhibited it (R181). `ring`, `delay`: the first lines of its camera ring and its line-delay
buffer (R195, R207); `spare`: identifiers of products that settled without consuming them, whose index has begun again (R190); `olds`: the mode words and
blocks that products before a mode postmark run under, as (M, mode, block), the earliest M first (R211). -/
structure Channel where
  axis : Nat
  mode : Nat
  block : List Byte
  lead : Nat
  pitch : Nat
  policy : Nat
  state : Nat
  causes : List Nat
  bindings : List Binding
  s0 : Nat
  base : Nat
  baseIdx : Int
  floor : Option Nat
  next : Nat
  nextIdx : Int
  trigs : List (Nat × Nat)
  lastTrig : Option Nat
  products : List Product
  change : Option Change
  drain : Option Nat
  under : Nat
  done : Nat
  dropped : Nat
  firstDrop : Nat
  lastDrop : Nat
  returned : Nat
  marks : Nat
  at_ : Nat
  reason : Nat
  resource : Nat
  counters : List Nat
  underDue : Bool
  saved : List (Nat × Nat)
  health : Health
  spool : Option Spool
  cams : Tbl Nat
  gapped : List Nat
  camLine : Nat
  checks : List (Int × Nat × Nat × Nat)
  noticed : List Nat
  offline : Option Nat
  camPm : Tbl Nat
  targets : Tbl Nat
  armPm : Nat
  turn : Nat
  epoch : Nat
  poisoned : List Nat
  ring : Option Nat
  delay : Option Nat
  spare : List Ident
  olds : List (Nat × Nat × List Byte)
  deriving DecidableEq, Repr

/-- A channel that does not exist. -/
def Channel.blank : Channel :=
  { axis := 0, mode := 0, block := [], lead := 0, pitch := 0, policy := 0, state := 0, causes := [], bindings := [],
    s0 := 0, base := 0, baseIdx := 0, floor := Option.none, next := 0, nextIdx := 0, trigs := [], lastTrig := Option.none,
    products := [], change := Option.none, drain := Option.none, under := 0, done := 0, dropped := 0, firstDrop := 0,
    lastDrop := 0, returned := 0, marks := 0, at_ := 0, reason := 0, resource := 0,
    counters := [0, 0, 0, 0, 0, 0, 0, 0, 0, 0], underDue := false, saved := [], health := Health.reset,
    spool := Option.none, cams := [], gapped := [], camLine := 0, checks := [],
    noticed := [], offline := Option.none, camPm := [], targets := [],
    armPm := 0, turn := 0, epoch := 0, poisoned := [], ring := Option.none, delay := Option.none, spare := [], olds := [] }

/-- A job (R390, R391): its volume's index, its range, its header, the product table's lengths and sizes where it has one,
SPOOL_AHEAD, and the next job product to begin. -/
structure Job where
  volume : Nat
  offset : Nat
  length : Nat
  products : Nat
  span : Nat
  bytes : Nat
  table : List (Nat × Nat)
  repeats : Bool
  mapVolume : Nat
  mapOffset : Nat
  serialFirst : Nat
  serialLast : Nat
  ahead : Nat
  next : Nat
  deriving DecidableEq, Repr

/-- A job that does not exist. -/
def Job.blank : Job := ⟨0, 0, 0, 0, 0, 0, [], false, 0, 0, 0, 0, 0, 0⟩

/-- A fire line that the octet holds for a link (R278): its header and drop data. -/
structure FireLine where
  pm : Nat
  row : Nat
  length : Nat
  bits : Nat
  flags : Nat
  data : List Byte
  deriving DecidableEq, Repr

/-- A flit of a replayable virtual lane (R266): its virtual lane, FIRST, its body, and the fire line it is a part of, as (lane,
postmark, row). -/
structure Flit where
  vl : Nat
  first : Bool
  body : List Byte
  fire : Option (Nat × Nat × Nat)
  deriving DecidableEq, Repr

/-- The end's own WIDTH_REQ that is outstanding (R285, R286, R290): its mask, whether IMMEDIATE, its first missing sequence, its SEQ,
and how often it has been resent. -/
structure WidthReq where
  mask : Nat
  immediate : Bool
  missing : Nat
  seq : Nat
  resent : Nat
  deriving DecidableEq, Repr

/-- A link beside its registers (chapter 11). `held`: express slots that wait for ACTIVE, as (code, fields) (R275). Of its partner's
CAPABILITY (R287): `nozzles`, `rxFix`, and `room`, its buffers in flits; `rate`: its highest rate, coded as LANE_RATE; `common`: the
lanes both ends have. `fresh`: the link has never been ACTIVE. Out: `queue` the flits not yet sent, `replay` those not yet acknowledged with
their sequence, `txSeq` the next one, `sent` and `credited` the flits sent and the counts of FLOW, by virtual lane, modulo 2^16. In:
`rxSeq` the next sequence, `parts` unfinished messages by virtual lane as (flits, bytes), `freed` the flits freed and `owed` those since
the last FLOW, by virtual lane, `unacked` the replayable flits since the last ACK, `nak` a NAK in force as (missing, SEQ), `markers` the
last marker count + 1 by lane. Express: `expSeq` the next SEQ, `seen` the SEQs accepted, newest first. `lats`: the last values of
interval less turnaround (R281), `timing` a TIMING out as (SEQ, moment), `pairs` those answered in PROBE. `falls`: fall-backs made;
`aligning`: RETRAIN has done its EQUALIZE. `width`, `change`: a request out, and a change agreed as (mask, switch marker named);
`again`: a planned request to send again; `failed`: lanes that failed. `beacon`: bodies of an instant not yet sent; `instant`: the next
one's number. `sinceBulk`: the flits of other virtual lanes since the last one of bulk, while one of bulk could have gone (R270). `place`: the place of the
next striped flit in the mask, and `marks` the count of the next marker (R265, R268); `bad`: the instants of a lane's uncorrectable frames in the last 1 ms
(R286); `awaits`: a RESTRIPE marker of the partner's is awaited (R290); `rounds`: the flits of each lane since its last alignment marker (R268); `order`, `inverted`: the partner's number of each lane and the lanes of inverted polarity (R265); `got`, `acked`: the partner's CAPABILITY has come, and the
device's own is acknowledged (R283). -/
structure Link where
  held : List (Nat × List Nat)
  nozzles : Nat
  rxFix : Nat
  room : List Nat
  rate : Nat
  common : Nat
  fresh : Bool
  queue : List Flit
  replay : List (Nat × Flit)
  txSeq : Nat
  sent : List Nat
  credited : List Nat
  rxSeq : Nat
  parts : Tbl (Nat × List Byte)
  freed : List Nat
  owed : List Nat
  unacked : Nat
  nak : Option (Nat × Nat)
  markers : Tbl Nat
  expSeq : Nat
  seen : List Nat
  lats : List Nat
  timing : Option (Nat × Nat)
  pairs : Nat
  falls : Nat
  aligning : Bool
  width : Option WidthReq
  change : Option (Nat × Bool)
  again : Option Nat
  failed : Nat
  beacon : List (List Byte)
  instant : Nat
  sinceBulk : Nat
  place : Nat
  marks : Nat
  bad : Tbl (List Nat)
  order : List Nat
  inverted : Nat
  got : Bool
  acked : Bool
  awaits : Bool
  rounds : Nat
  deriving DecidableEq, Repr

/-- A link at reset. -/
def Link.reset : Link :=
  { held := [], nozzles := 0, rxFix := 0, room := [0, 0, 0, 0], rate := 0, common := 0, fresh := true, queue := [], replay := [],
    txSeq := 0, sent := [0, 0, 0, 0], credited := [0, 0, 0, 0], rxSeq := 0, parts := [], freed := [0, 0, 0, 0], owed := [0, 0, 0, 0],
    unacked := 0, nak := Option.none, markers := [], expSeq := 0, seen := [], lats := [], timing := Option.none, pairs := 0, falls := 0,
    aligning := false, width := Option.none, change := Option.none, again := Option.none, failed := 0, beacon := [], instant := 0, sinceBulk := 0,
    place := 0, marks := 0, bad := [], order := [], inverted := 0, got := false, acked := false, awaits := false, rounds := 0 }

/-! ### Standard protocols (chapter 10) -/

/-- An Ethernet queue (R259): its base line, slots, slot size in KiB and owner. -/
structure EthQueue where
  base : Nat
  slots : Nat
  size : Nat
  owner : Nat
  deriving DecidableEq, Repr

/-- A queue that has not been set. Receive queue 0 and every other belong to the firmware until then. -/
def EthQueue.blank : EthQueue := ⟨0, 0, 2, 0x40⟩

/-- A valid entry of a steering table (R259): MAC address, VLAN identifier and EtherType (none: any), and the queue. -/
structure Steer where
  mac : List Byte
  vlan : Option Nat
  etherType : Option Nat
  queue : Nat
  deriving DecidableEq, Repr

/-- What software wrote of a lane that training or adaptation may overrule: the starting taps (R241) and the DFE taps of manual mode (R242). -/
structure LaneSet where
  pre : Nat
  post : Nat
  dfe : List Nat
  deriving DecidableEq, Repr

/-- A lane's settings at reset (R261). -/
def LaneSet.reset : LaneSet := ⟨4, 8, [0, 0, 0]⟩

/-- A function's MSI-X table (R250): each vector's message address and data, and its mask bit. No command of the table reaches a function's
configuration, so only its resets act on it (R253). -/
structure FuncConfig where
  msix : Tbl (Nat × Nat × Bool)
  deriving DecidableEq, Repr

/-- A function's configuration at reset: every vector masked. -/
def FuncConfig.reset : FuncConfig := ⟨[]⟩

/-- The hard ports beside their registers. `width`, `gen`: EP_W and EP_GEN as they are in force (R249); `held`: PCIE_PERST_N holds the endpoint (R253);
`stage`: each root port's step of R255 (0 none, 1 present, 2 RP_PERST_N released, 3 up); `queues` by (port − 48) × 32 + direction × 16 +
queue (direction 1: transmit) and `steer` by (port − 48) × 64 + entry; `pauses` the instant until which a port is paused, by (port − 48) × 16, + 1 +
priority for one priority (R258); `sets` by lane; `funcs` by function. -/
structure HardPorts where
  width : Nat
  gen : Nat
  held : Bool
  stage : Tbl Nat
  queues : Tbl EthQueue
  steer : Tbl (Option Steer)
  pauses : Tbl Nat
  sets : Tbl LaneSet
  funcs : Tbl FuncConfig
  deriving DecidableEq, Repr

/-! ### Stacked memory and coherence (chapter 12) -/

/-- A line in a caching agent (R298): 0 I, 1 S, 2 E, 3 M; its data; and whether its writeback waits for WB_ACK. -/
structure CLine where
  st : Nat
  data : Nat
  wb : Bool
  deriving DecidableEq, Repr

/-- A line that an agent does not hold. -/
def CLine.invalid : CLine := ⟨0, 0, false⟩

/-- The operations of an agent port (R77). -/
inductive AgentOp where
  | read | readOwn | write | writeNa | readNa | flush | stream | fence | reserved
  deriving DecidableEq, Repr

/-- A request that an agent port has taken (R304): its operation, line, the header's word, write data and mask, whether its
message is on its way, and once it is done its status and reply data. -/
structure PortReq where
  op : AgentOp
  line : Nat
  word : Nat
  data : Nat
  mask : Nat
  sent : Bool
  done : Option (Nat × Nat)
  deriving DecidableEq, Repr

/-- The messages of R302. -/
inductive MsgKind where
  | rdShared | rdOwn | rdCur | wrPtl | wbDirty | evictClean | snpInv | snpShare | snpCur | rspI | rspS | rspData | rspWb
  | dataS | dataE | cmp | wbAck | cmpAck
  deriving DecidableEq, Repr

/-- A message on its way between a requester and a slice: `aux` is the mask of WR_PTL, fromS of RD_OWN, or the status of
DATA_S, DATA_E and CMP. `held`: it was sent while the stack's domain was held, and waits in the interconnect (R93); `queued`: it is an entry of a crossing
queue of the domain (R92). -/
structure Msg where
  kind : MsgKind
  who : Nat
  line : Nat
  data : Nat
  aux : Nat
  held : Bool
  queued : Bool
  deriving DecidableEq, Repr

/-- A request in service (none: a recall, with `discard` one for a conversion): the agents whose snoop answer is owed,
those of them whose writeback is awaited, dirty data obtained, whether it came in a writeback, whether the grant has been sent and its CMP_ACK is owed, and
whether the owner has given the line up and its WB_ACK is owed (R305). -/
structure HomeTxn where
  req : Option HomeReq
  discard : Bool
  await : List Nat
  wbWait : List Nat
  data : Option Nat
  viaWb : Bool
  granted : Bool
  gave : Bool
  deriving DecidableEq, Repr

/-- What a slice holds of a line: its directory state (0 UNCACHED, 1 SHARED, 2 OWNED), its sharers or owner, when its
entry was allocated, the request in service, and the requests that wait. -/
structure DirLine where
  st : Nat
  sharers : List Nat
  owner : Nat
  born : Nat
  txn : Option HomeTxn
  queue : List HomeReq
  deriving DecidableEq, Repr

/-- A line at rest. -/
def DirLine.idle : DirLine := ⟨0, [], 0, 0, none, []⟩

/-- A write by a requester that holds no lines (R297), which waits until the homes of its lines take it (R97, R313, R315, R322): the requester, the byte address,
the bytes, and for a frame received the queue and the RXWR that then shows it (R309). -/
structure MemWrite where
  who : Nat
  at_ : Nat
  bytes : List Byte
  shown : Option (Nat × Nat)
  deriving DecidableEq, Repr

/-- Memory and coherence beside the registers: the stacked memory by byte; cached lines by agent × 2^32 + line; port
requests by agent × 16 + port; messages on their way; the directory by line; each slice's priority pointer by
stack × 32 + slice; entries allocated so far; the agents that have reported done in a resynchronisation (R313); and the writes that wait for their homes, oldest first. -/
structure MemState where
  bytes : List Host.Cell
  caches : Tbl CLine
  ports : Tbl (List PortReq)
  wire : List Msg
  dir : Tbl DirLine
  ptr : Tbl Nat
  born : Nat
  resynced : Tbl (List Nat)
  writes : List MemWrite
  deriving DecidableEq, Repr

/-! ### Sealing and the store (chapter 13) -/

/-- Line sealing beside the registers: minor counters by line, the minors that a node's parent holds for it and each
node's major by (level × 4 + stack) × 2^24 + index, root entries by stack × 256 + granule, nodes in the metadata cache
that differ from the metadata area, nodes that do not check, lines whose tag does not match (1) or whose stack data is
uncorrectable (2), the conversion in progress as (granule, seal?), and the pool mask of R396 as its difference from its
start-up value. `keys`: the three keys of each engine in turn (R323); `tags`: the tag slot of each sealed line written since its granule's conversion, and
`nodeTags` the tag of each node written since (R325, R326); the others hold what the conversion made. `cache`: the nodes in the metadata cache, and its
tag lines at 2^40 + line / 8 (R329). -/
structure SealState where
  minors : Tbl Nat
  childMinor : Tbl Nat
  nodeMajor : Tbl Nat
  roots : Tbl Nat
  dirty : List Nat
  badNodes : List Nat
  failing : Tbl Nat
  converting : Option (Nat × Bool)
  pool : Nat
  keys : List Nat
  tags : Tbl (Option Nat)
  nodeTags : Tbl (Option Nat)
  cache : List Nat
  deriving DecidableEq, Repr

/-- A root record in force (R342): the volume, the store epoch of the record, its top node's counter, tag and copy, its flags, the volume's blocks, and its CRC-32. -/
structure RootRec where
  uid : Nat
  epoch : Nat
  counter : Nat
  tag : Nat
  slot : Bool
  unclean : Bool
  retired : Bool
  blocks : Nat
  crc : Nat
  deriving DecidableEq, Repr

/-- A volume that a label lists (R336, R337): where it lies, its kind, whether it is sealed, its extent and name; its
state (0 online, 1 offline, 2 refused, 3 in no label of a drive that is up, so that it is not known) and the cause (R343, R344: 1 FOREIGN, 2 RETIRED, 3 ROLLBACK, 4 DUPLICATE); whether a
writer's mailbox was reset while it was open (R394). Of a sealed volume: the committed counter of each block, the writes
since the last snapshot and those in the snapshot by block, the counters of its nodes by level × 2^36 + index, the step
of a commit in progress (0 none), and whether that commit closes the volume. `tags`: the tag of each block as last written, `snapTags` those that a commit
in progress takes, `leafTags` those that its committed leaves hold, and `nodeTags` those of its nodes, placed as their counters (R339, R340). `base`: where
its range of the store address space begins while it is online, in MiB (R337). -/
structure Volume where
  uid : Nat
  port : Nat
  nsid : Nat
  kind : Nat
  isSealed : Bool
  start : Nat
  size : Nat
  name : List Byte
  state : Nat
  cause : Nat
  abandoned : Bool
  ctr : Tbl Nat
  fresh : Tbl Nat
  snap : Tbl Nat
  nodes : Tbl Nat
  step : Nat
  closing : Bool
  leafTags : Tbl Nat
  tags : Tbl Nat
  snapTags : Tbl Nat
  nodeTags : Tbl Nat
  base : Nat
  deriving DecidableEq, Repr

/-- An open volume (R394): its handle index, the volume, whether for writing, and the mailbox that opened it. -/
structure OpenVol where
  idx : Nat
  uid : Nat
  write : Bool
  box : Nat
  deriving DecidableEq, Repr

/-- A drive (R335, R336): its serial number and its namespaces as (identifier, label: 0 none, 1 labelled, 2 unusable
format, size in blocks). -/
structure StoreDrive where
  serial : List Byte
  spaces : List (Nat × Nat × Nat)
  deriving DecidableEq, Repr

/-- No drive. -/
def StoreDrive.absent : StoreDrive := ⟨[], []⟩

/-- The store: drives by root port, volumes known, open volumes, the records of the root area from the oldest on and how many were written there, the store epoch, the commit interval of
R341 as its difference from 100 ms, and the nodes in the node cache as (volume, level × 2^36 + index), oldest first (R340). -/
structure StoreState where
  drives : Tbl StoreDrive
  vols : List Volume
  opens : List OpenVol
  roots : List RootRec
  written : Nat
  epoch : Nat
  interval : Nat
  nodeCache : List (Nat × Nat)
  deriving DecidableEq, Repr

/-! ### Region images (chapters 07, 16, 17) -/

/-- An output monitor as an image declares it (R48, R49): its number, whether its constraint is per count (else per second),
and the constraint as tokens × 2^16. -/
structure MonitorCfg where
  idx : Nat
  perCount : Bool
  rate : Nat
  deriving DecidableEq, Repr

/-- What a region's image tells the firmware: its identifier, its output monitors, and whether it declares an inspection
port (R165, R186, R384); its essence map, by byte (none: every bit is essential, R450); its DEV_RGN_ACCESS word (R19, R412); and the bits that drive its
fabric outputs, as (bit, tile, source) (R148). -/
structure RegionImg where
  ident : Nat
  monitors : List MonitorCfg
  inspects : Bool
  essence : Option (Tbl Nat)
  access : Nat
  fouts : List (Nat × Fin 256 × Source)
  deriving DecidableEq, Repr

/-- No image. -/
def RegionImg.blank : RegionImg := ⟨0, [], false, none, 0, []⟩

/-- A monitor at work (R49): its constraint, the axis of its channel, and the axis position at the start of its window. -/
structure Monitor where
  cfg : MonitorCfg
  axis : Nat
  since : Nat
  deriving DecidableEq, Repr


/-! ### Heater loops (chapter 15) -/

/-- A heater loop (R399, R400): its settings as PIN.HEATER_SET gives them, its integral in 2^-32 duty, the last code, the duty, its STATE and
whether it has reached its band; `outT`: the timebase of the first period in a row that found it outside its band. -/
structure Heater where
  input : Nat
  enabled : Bool
  period : Nat
  setpoint : Nat
  band : Nat
  maxDuty : Nat
  kp : Nat
  ki : Nat
  integ : Int
  code : Nat
  duty : Nat
  state : Nat
  reached : Bool
  outT : Option Nat
  deriving DecidableEq, Repr

/-- A loop that has never been set. -/
def Heater.off : Heater := ⟨0, false, 0, 0, 0, 0, 0, 0, 0, 0, 0, 0, false, none⟩

/-! ### Configuration, non-volatile memory and scrubbing (chapters 16, 17) -/

/-- A slot's record in the directory (R406, R409): VALID, and of its image the length, DESIGN_ID, VERSION, KEY and FLAGS.BROADCAST; and its write
count. -/
structure NvmSlot where
  valid : Bool
  length : Nat
  design : Nat
  version : Nat
  key : Nat
  broadcast : Bool
  writes : Nat
  deriving DecidableEq, Repr

/-- A slot that has never been written. -/
def NvmSlot.blank : NvmSlot := ⟨false, 0, 0, 0, 0, false, 0⟩

/-- A copy of the slot directory (R406): its sequence number, the slots' records and the selected full slot as `ConfigState` has them. -/
structure DirCopy where
  seq : Nat
  slots : Tbl NvmSlot
  selected : Nat
  deriving DecidableEq, Repr

/-- The status word of the physical block that serves a logical block (R433): its ERASES, its STATE (0 ERASED, 1 WRITTEN, 2 ERASING), and the spare that
serves it + 1 (0: its own block). -/
structure NvmBlock where
  erases : Nat
  state : Nat
  spare : Nat
  deriving DecidableEq, Repr

/-- A block as it is delivered. -/
def NvmBlock.fresh : NvmBlock := ⟨0, 0, 0⟩

/-- A CONFIG.WRITE under way (R422): its slot, the image's length, and the next of the slot's blocks to erase. -/
structure NvmWrite where
  slot : Nat
  length : Nat
  next : Nat
  deriving DecidableEq, Repr

/-- A load of a full image (R417, R418, R423, R431): the slot asked for (0xFE: a broadcast), whether a CONFIG.RELOAD or broadcast asked for it, the slot
being loaded now, and whether it has been checked (Step 4). -/
structure FullLoad where
  asked : Nat
  reload : Bool
  slot : Nat
  checked : Bool
  deriving DecidableEq, Repr

/-- An open region image (R384): its source (its slot, or 64 for the flash), its flash address, and loads made or queued from it. -/
structure ImageObj where
  source : Nat
  addr : Nat
  deriving DecidableEq, Repr

/-- A load of a region image (R424, R429): its region, its source and flash address, the handle index of its image, and the requesting port of
CFG_XREQ where it is one. `started`: its region has been isolated and reset; `again`: it reloads the earlier image. -/
structure RegionLoad where
  region : Nat
  source : Nat
  addr : Nat
  handle : Nat
  xreq : Option Nat
  started : Bool
  again : Bool
  deriving DecidableEq, Repr

/-- A broadcast that this device sends (R430..R432): its slot and ring, the members that have accepted, and whether the stream has begun. -/
structure Broadcast where
  slot : Nat
  ring : Nat
  accepted : List Nat
  streaming : Bool
  deriving DecidableEq, Repr

/-- What the scrubber refetches (R453): its region (40: a GLOBAL frame), its frame, and whether the failing word is essential. -/
structure Refetch where
  region : Nat
  frame : Nat
  essential : Bool
  deriving DecidableEq, Repr

/-- Configuration beside its registers. `slots` by number, as the difference from a slot never written; `selected`: the selected full slot as its
difference from 1; `blocks` by logical block; `erasing`: the blocks whose erase runs, `write` the CONFIG.WRITE under way; `load`, `regionLoads`: the loads;
`regionResets`: region resets to be applied once a load of the region ends, as (region, wake) (R426); `images`: open region images by handle index;
`sources`: where the image of each region came from, as source + 1, and `addrs` its flash address; `waking`: regions to be woken once their INIT restore ends, or at the end of a fabric reset; `announce`: regions woken under R445, the end of whose isolation
raises a source; `sending`: a broadcast sent; `joined`: the ring of a
broadcast accepted; `tried`: the firmware copies that the start has tried; `scrub`: the next frame of the scrub cycle, `refetch` a refetch
under way; `owners`: the mailbox table of the image in force, `overridden` its overridden verdicts; `segKeys`: the key table on the die, the segment keys of
the full image in force at 0 and of region n's own image at n + 1 (R411); `frameCrc`: each frame's CRC-32 recorded at its load, by its place in the scrub cycle (R445); `dirNew`, `dirOld`: the directory copy written last, and the other (R406); `settings`: settings of an image that wait for the domain of their register,
as (address, word) (R14, R413). -/
structure ConfigState where
  slots : Tbl NvmSlot
  selected : Nat
  blocks : Tbl NvmBlock
  erasing : List Nat
  write : Option NvmWrite
  load : Option FullLoad
  regionLoads : List RegionLoad
  regionResets : List (Nat × Bool)
  images : Tbl ImageObj
  sources : Tbl Nat
  addrs : Tbl Nat
  waking : List Nat
  sending : Option Broadcast
  joined : Option Nat
  tried : List Nat
  scrub : Nat
  refetch : Option Refetch
  owners : Option (List (BitVec 8))
  overridden : Nat
  announce : List Nat
  segKeys : Tbl (List (BitVec 256))
  frameCrc : Tbl Nat
  dirNew : DirCopy
  dirOld : DirCopy
  settings : List (Nat × Word)
  deriving DecidableEq, Repr

/-! ### Power, resets, security and the Franker (chapters 18, 19, 20, 22) -/

/-- Power beside its registers. `low`: windows in a row with r ≥ 1.04, by region, and `hold`: windows left before the next lowering (R466);
`capped`: regions whose VSET stood at the limit as the window began (R467); `rails` and `pages`: the rail + 1 and the page of each regulator entry (R464); `wake`: a wake source that fired during a change of state (R478);
`entry`: the wake axis's position at entry to STANDBY (R475); `reopen`: regions that restore and wake on return from STANDBY (R476);
`mainEn`: MAIN_EN; `recorded`: axes recorded on entry to HIBERNATE, as (axis, position, epoch) (R497); `leaving`: an orderly shut-down under way, as its target (0 HIBERNATE, 1 OFF, 2
POWER.STATE HIBERNATE), and `step` its step (R382, R477): 1 commits, 2 self-test, 3 the logbook's drain. -/
structure PowerState where
  low : Tbl Nat
  hold : Tbl Nat
  capped : List Nat
  rails : Tbl Nat
  pages : Tbl Nat
  wake : Nat
  entry : Nat
  reopen : List Nat
  mainEn : Bool
  recorded : List (Nat × Nat × Nat)
  leaving : Option Nat
  step : Nat
  deriving DecidableEq, Repr

/-- Resets beside their registers. `stage`: 0 started; 1 to 3 the steps of R489 that wait (1 for VIN_FAB, 2 for the regulators, 3 for RESET_N); 4 a pin
or brown-out reset is asserted (R491); 5 the write-back of a device reset runs; 6 VAON is absent; 7 stopped for good (SCRAPPED, R503) or in scan (R514). `resetN`: RESET_N is low; `brown`: a
brown-out lasts; `cause`: the CAUSE that the start will show (R499); `fabric`: a fabric reset is under way (R492); `lostStacks`: the stacks have lost their contents, so that they will be
filled (R491, R315); `facts`: what a start in progress found; `began`: the timebase at the last release (R381); `rebuild`: a pin reset has cost the metadata cache, and the sealed
granules are still to be rebuilt (R334). -/
structure ResetState where
  stage : Nat
  resetN : Bool
  brown : Bool
  cause : Nat
  fabric : Bool
  lostStacks : Bool
  facts : Option StartFacts
  began : Nat
  rebuild : Bool
  deriving DecidableEq, Repr

/-- A repair (R519): its slice, KIND and UNIT, the row or column that it replaces, recurrences (3: a soft repair that no fuse entry was left for, which is permanent), passes of its original place in a row, and whether it
is blown into fuses. -/
structure Repair where
  slice : Nat
  kind : Nat
  unit : Nat
  place : Nat
  recur : Nat
  passes : Nat
  fuse : Bool
  deriving DecidableEq, Repr

/-- Slices that run (R516): the slices still asked for by TEST.RUN (none: a shut-down), the regions they tested, and the slice that runs now. -/
structure TestRun where
  left : Option Nat
  regions : List Nat
  now : Nat
  deriving DecidableEq, Repr

/-- Security and self-test beside their registers. `fuses`: fuses blown in each group of R502, in its order; `records`: the wrapped-key
records present, 0 KI, 1 KV, 2 KS, 3 KA (R505), and `ki`, `kv`, `ks` the keys in use as numbers; `rng`: each entropy source that has passed its start-up test (1) or been disabled (2) (R510); `seeded`: the DRBG is
seeded; `scan`: the device is in scan (R514); `budget`: as its difference from 2,000 ms; `cycle`: slices run this self-test cycle; `elapsed`: ms of the present step or count of slices run; `failures`:
failures counted; `repairs`: the repairs in force; `run`: slices that run. -/
structure SecurityState where
  fuses : List Nat
  records : Tbl (List Byte)
  ki : Nat
  kv : Nat
  ks : Nat
  rng : Tbl Nat
  seeded : Bool
  scan : Bool
  budget : Nat
  cycle : Nat
  elapsed : Nat
  failures : Nat
  repairs : List Repair
  run : Option TestRun
  deriving DecidableEq, Repr

/-- The Franker beside its registers (chapter 22): the saved record (none: no copy passes), the record its start took, the saved counter mark and the
products printed since, whether that save is exact (R551), the COUNTER field that the counter started from, the end of the last accepted message, and messages with entries in sorter 0 or fire lines on lane 0, as (first column, last column) postmarks; and the
settings of held resources that wait for their domains. -/
structure FrankerState where
  saved : Option (List Byte)
  started : List Byte
  mark : Nat
  since : Nat
  clean : Bool
  base : Option Nat
  lastEnd : Option Nat
  messages : List (Nat × Nat)
  waiting : List (Fld × Nat × Nat)
  deriving DecidableEq, Repr

/-- Nothing is loaded, written, erased or broadcast. The two firmware slots are VALID as the device is delivered (assumption 36). -/
def ConfigState.reset : ConfigState :=
  let slots := [(3, { NvmSlot.blank with valid := true }), (4, { NvmSlot.blank with valid := true })]
  ⟨slots, 0, [], [], none, none, [], [], [], [], [], [], none, none, [], 0, none, none, 0, [], [], [], ⟨1, slots, 0⟩, ⟨0, slots, 0⟩, []⟩

/-- Power at rest, MAIN_EN high. -/
def PowerState.reset : PowerState := ⟨[], [], [], [], [], 0, 0, [], true, [], none, 0⟩

/-- Step 1 of R489 begins: VAON has risen. -/
def ResetState.reset : ResetState := ⟨1, false, false, 1, false, true, none, 0, false⟩

/-- No fuse blown, no key, nothing tested. -/
def SecurityState.reset : SecurityState := ⟨[], [], 0, 0, 0, [], false, false, 0, 0, 0, 0, [], none⟩

/-- No record saved, the counter at 1. -/
def FrankerState.reset : FrankerState := ⟨none, [], 1, 0, true, none, none, [], []⟩
/-! ### Times that run -/

/-- What a time given by a rule runs from; each is kept apart by a number. `cores`: the cores' start (R416); `release`: CFG_DONE's (R420); `bcastWait`: READY
under BOOT_MODE 0b10 (R415); `bcastFlit`: the last flit of a broadcast (R432); `poll`: the poll of a broadcast (R430); `table`: a ring's proposed table
(R233); `member`: a roll-call of a member, by ring × 32 + member (R216); `proposal`, `retry`: an attempt at a lease and its end without a majority, and
`refused`: a refused automatic request, by series (R226); `inactive`: a lane's link left ACTIVE (R181), `linkDown`: a link did (R203); `linkState`: a link entered its state
(R283, R291); `frame`: a frame decoded on it (R289); `nak`, `timing`, `width`: its last NAK, TIMING and WIDTH_REQ (R277, R281, R285); `lock`: a lane
gained LOCK (R286); `report`: the last UNDERRUN report of a channel (R182); `range`: step 1 of a bank's range change (R147); `outside`: a bank's supply left its
window (R462); `result`: the last result of an analog input (R480); `island`: an island reset was asserted (R493); `uclk`: the last edge of a user clock (R67). -/
inductive Timer where
  | cores | release | bcastWait | bcastFlit | poll | table | member | proposal | retry | refused | inactive | linkDown | linkState | frame | nak | timing
  | width | lock | report | range | outside | result | island | uclk | perst | started | present | adapt | added
  deriving DecidableEq, Repr

/-! ### What leaves the device -/

/-- A message, token, reply or pin action that left the block. `out` of the state lists them in order: it is the model's
own record of what the surroundings can see, not a piece of the device's state. -/
inductive Output where
  /-- The sideband outputs of a root port: whether RP_PERST_N is high and whether RP_REFCLK runs (R254, R255). -/
  | rootPort (j : Nat) (released clock : Bool)
  /-- An MSI-X message on a vector of a function (R362, R532). -/
  | msix (func vector : Nat)
  /-- A token on a region's event channel, carrying the source (R533). -/
  | eventToken (region source : Nat)
  /-- A token on a region's mailbox event channel, carrying the mailbox (R362). -/
  | mailboxToken (region mailbox : Nat)
  /-- The value a register read returned to its port (R9, R10, R17). -/
  | readValue (port : Port) (value : Nat)
  /-- The reply token of a region control port (R79). -/
  | controlReply (region tag data : Nat)
  /-- The reply tokens of a block memory port, one word per reply channel (R69). -/
  | bmReply (region index : Nat) (port : BmPort) (words : List Nat)
  /-- A poison token in a stream or in the Postroom (R95, R96): the other ports have it in the form of a reply. -/
  | poison (dest : PoisonTo) (word : Nat)
  /-- A read, or another non-posted request, of BAR0 completes with Completer Abort status (R96). -/
  | completerAbort
  /-- A letter returned to a ring peer (R352). -/
  | peerLetter (owner : Nat) (bytes : List Byte)
  /-- A token of a sorter's released entry into a gate (R137): tag of word 0 and the entry. -/
  | gateToken (region gate tag entry : Nat)
  /-- A pulse of a position strobe on tree T2 + k (R117). -/
  | strobe (k : Nat)
  /-- An edge a placement cell placed on a pad (R139): the pin, its level, the moment. -/
  | padEdge (pin : Nat) (level : Bool) (at_ : Nat)
  /-- The value an input sink sees (R148, R150). -/
  | sink (sink : Nat) (level : Bool)
  /-- Calibration pulses on a pin (R142). -/
  | calPulses (pin : Nat)
  /-- The firmware's letter to a stitch partner on a link's control virtual lane (R203, R208): kind and contents. -/
  | stitch (link kind : Nat) (data : List Nat)
  /-- A message on a ring port (R216..R233): 0 roll-call, 1 release, 2 series definition, 3 lease proposal, 4 its answer, 5 reconciliation,
  6 proposed table, 7 its acknowledgement, 8 table in force, 9 table discarded, 10 broadcast poll, 11 its answer, 12 a broadcast
  image, 13 a letter. -/
  | ring (port kind : Nat) (data : List Nat)
  /-- An express slot that leaves on every one of some lanes of a link (R273, R274): the 61 bytes of BODY and TYPE of its flit. -/
  | express (link : Nat) (lanes : List Nat) (bytes : List Byte)
  /-- A flit that leaves on a lane of a link (R265, R266): its replayable sequence where it has one (R276), and its 64 bytes: BODY, TYPE and PARITY. -/
  | flit (link lane : Nat) (seq : Option Nat) (bytes : List Byte)
  /-- The end with the higher identifier names the switch marker of a change to a mask (R285). -/
  | switchMarker (link mask : Nat)
  /-- The transmitter of a lane goes to electrical idle (R285). -/
  | laneIdle (lane : Nat)
  /-- A training frame that leaves on a lane of a link (R283): the device's identifier, the lane's index, the lanes present, the highest rate as LANE_RATE codes it,
  the protocol revision and the moment of R281, and its 64 bytes with their CRC-32. -/
  | training (link lane uid index present rate revision moment : Nat) (bytes : List Byte)
  /-- A block of the store that the seal engine releases to its destination (R338): the volume, its number, its bytes. -/
  | storeBlock (volume block content : Nat)
  /-- A block on its way from the store seal engine to its drive (R338, R339): the volume, its number, its bytes, sealed where the volume is. -/
  | driveBlock (volume block content : Nat)
  /-- A node written to one of its two copies (R340, R341): the volume, its level and index, the copy, its bytes. -/
  | driveNode (volume level index copy content : Nat)
  /-- A flush of a drive (R341). -/
  | driveFlush (port : Nat)
  /-- A nozzle-health map that the firmware writes back to its volume (R388): the volume, the byte offset, the bytes. -/
  | healthMap (volume offset : Nat) (bytes : List Byte)
  /-- A record of the audit or proof log that the firmware writes to its volume (R231): VOLUME_UID and the 64 bytes. -/
  | auditRecord (volume : Nat) (bytes : List Byte)
  /-- A whole message that a link delivers from a virtual lane to what takes it (R269, R272). -/
  | linkMessage (link vl : Nat) (bytes : List Byte)
  /-- A reply on a port of a fabric cache agent (R78): the status word's tag and data, and the line of a read. -/
  | agentReply (agent port tag word : Nat) (line : Option Nat)
  /-- A frame that an Ethernet port sends, with its FCS (R258, R259). -/
  | ethFrame (port : Nat) (bytes : List Byte)
  /-- FSPI_RESET_N is driven low for 10 µs (R427). -/
  | flashReset
  /-- An image is streamed on the bulk virtual lane of a ring's east port (R431), or a received flit of one forwarded. -/
  | stream (ring slot : Nat)
  /-- The level of MAIN_EN (R477) or the drive of CFG_DONE (R420) changes. -/
  | mainEn (high : Bool)
  | cfgDone (low : Bool)
  /-- A command to an external regulator (R464): VOUT_COMMAND of an entry, in mV. -/
  | vout (entry mv : Nat)
  /-- A poll of an external regulator (R464). -/
  | regulatorPoll (entry : Nat)
  /-- What the register that IDCODE selects presents to the test access port's TDO (R513). -/
  | tap (value : Nat)
  deriving DecidableEq, Repr

/-! ### The state -/

/-- The state of the device. `regs` holds every field of the register map as its difference (exclusive or) from its
reset value, so that an unlisted field stands at reset; `shadows` the upper words captured by a read of a low word, per
port (R10); `waiting` the accesses that wait, in the order they were made (R17, R93, R97); `crossings` the crossing queues of each domain (R92, R93);
`pulses` the pulse crossings by sender × 32 + receiver, `copies` the published values and `samplers` their receivers by Published.key (side 25: the clockless
remainder) (R87..R90); `cells`, `words`,
`elements`, `isos`, `taps`, `arbiters`, `bms` the fabric; `taken` which consumers have taken a token that others still want, or, of a chain that settled
early, one still to come (R25, R30); `trees` the trees T4..T7 and `flying` the pulses of T2..T7 on their way to taps, as (region, tree, tap) (R61, R63); `isoAbsorb` the isolation cells set to ABSORB (R443); `uclkUse` the regions
that use each user clock, one mask per tree (R67); `restoring` the regions whose INIT restore runs (R75, R425); `evt` the
event paths and the logbook; `boxes` the mailboxes and `boxMem` the mailbox memory by byte offset (R353);
`svc` the firmware's handles and pending services; `axes` the axes, `encLevel` the level that each encoder pair last had while valid (R101),
`encOpen` a bit for each pair under the OPEN condition (R119), `strobeT` when
(+ 1) each strobe last pulsed, `strobeAt` the position up to which its crossings have been judged (R117); `beaconAt` when (+ 1) the last valid beacon of a
link and axis came, by link + 256 × axis (R125); `sorters`, `insWords` (words 0..2 of SRT_INS by port and sorter), `insRes`, `gates` (the tagged
entries each gate buffers), `plcs` and `pins` the timed outputs; `rings` and `lease`; `chans`, `jobs`; `fires` the fire lines each link holds; `laneTx` the bytes of a message that a STREAM has not yet made whole, by lane × 8 + virtual lane, and `laneSkip` the units of a lost fire line still to come, by lane; `memo` the stacked memory and its caches, `seals` the line seal engines; `store` the drives and volumes; `images` what each region's image declares, `monitors` the output monitors at work by region × 8 + number; `links` the links; `ports` the endpoint, the root ports and the Ethernet ports; `letterBudget` and `letterQueue`
(channel, index, mailbox) of R187; `heaters` the heater loops; `config`, `power`, `resets`, `secure` and `franker` as their structures say. `out` and
`free` are the model's own: what has left the device, and how many free values have been drawn; so are `clock`, the ticks of 1 ns since power-on, and `timers`, the
clock + 1 at which each time of a rule began to run, by its place in `Timer` + 64 × its number (assumption 99). -/
structure State where
  regs : Tbl Nat
  shadows : Tbl Nat
  waiting : List WaitingAccess
  crossings : Tbl Crossing
  pulses : Tbl PulseX
  copies : Tbl PubCopy
  samplers : Tbl Sampler
  cells : Tbl Cell
  words : Tbl (Option WordStage)
  elements : Tbl (Option Element)
  isos : Tbl Nat
  taken : List (TokenFrom × Site)
  trees : Tbl Tree
  flying : List (Nat × Nat × Nat)
  taps : List (Nat × Nat × Nat)
  arbiters : Tbl Arbiter
  bms : Tbl BlockMem
  isoAbsorb : List Nat
  uclkUse : Tbl Nat
  restoring : List Nat
  evt : EventState
  boxes : Tbl Mailbox
  boxMem : Tbl Byte
  svc : Services
  axes : Tbl Axis
  encLevel : Tbl Nat
  encOpen : Nat
  strobeT : Tbl Nat
  strobeAt : Tbl Nat
  beaconAt : Tbl Nat
  sorters : Tbl Sorter
  insWords : Tbl Nat
  insRes : Tbl Nat
  gates : Tbl (List GateEntry)
  plcs : Tbl PlcCell
  pins : PinState
  rings : Tbl Ring
  lease : LeaseState
  chans : Tbl Channel
  jobs : Tbl Job
  letterBudget : Nat
  letterQueue : List (Nat × Int × Nat)
  fires : Tbl (List FireLine)
  memo : MemState
  seals : SealState
  laneTx : Tbl (List Byte)
  laneSkip : Tbl Nat
  store : StoreState
  images : Tbl RegionImg
  monitors : Tbl (Option Monitor)
  links : Tbl Link
  ports : HardPorts
  heaters : Tbl Heater
  config : ConfigState
  power : PowerState
  resets : ResetState
  secure : SecurityState
  franker : FrankerState
  out : List Output
  free : Nat
  clock : Nat
  timers : Tbl Nat
  pending : List Instr
  deriving DecidableEq, Repr

/-- The machine right after power-on reset: every field of the register map at its reset value, every table empty. -/
def State.reset : State :=
  { regs := [], shadows := [], waiting := [], crossings := [], pulses := [], copies := [], samplers := [], cells := [], words := [],
    elements := [], isos := [], taken := [], trees := [], flying := [], taps := [], arbiters := [], bms := [], isoAbsorb := [], uclkUse := [], restoring := [],
    evt := ⟨[], [], [], none, [], [], 0, false, none, []⟩, boxes := [], boxMem := [],
    svc := ⟨0, [], [], [], [], [], false, []⟩,
    axes := [], encLevel := [], encOpen := 0, strobeT := [], strobeAt := [], beaconAt := [], sorters := [], insWords := [], insRes := [], gates := [], plcs := [],
    pins := PinState.reset, rings := [],
    lease := ⟨[], [], [], [], [], 0, [], [], [], [], [], 0, [], [], 0⟩, chans := [], jobs := [], letterBudget := 64, letterQueue := [],
    fires := [],
    memo := ⟨[], [], [], [], [], [], 0, [], []⟩, seals := ⟨[], [], [], [], [], [], [], none, 0, [], [], [], []⟩,
    laneTx := [],
    laneSkip := [],
    store := ⟨[], [], [], [], 0, 0, 0, []⟩,
    images := [], monitors := [],
    links := [],
    ports := ⟨5, 0, false, [], [], [], [], [], []⟩,
    heaters := [],
    config := ConfigState.reset,
    power := PowerState.reset,
    resets := ResetState.reset,
    secure := SecurityState.reset,
    franker := FrankerState.reset,
    out := [], free := 0, clock := 0, timers := [], pending := [] }

end Sys2Proof.Machine
end

