-- ==== Sys2Proof/Machine/Ops.lean ====
section
/-! DEFINITION. The operations every meaning shares: reading and setting fields of the register map, free values,
outputs, event sources and the logbook queue (R531..R538), mailboxes and replies (R354..R363), access errors (R5, R6,
R18, R20), waiting accesses (R97), crossings and poison (R94, R95), and handles (R158..R162). -/

namespace Sys2Proof.Machine

/-! ### Fields of the register map -/

/-- The place of element `i` of a field in the register file. -/
def Fld.key (f : Fld) (i : Nat) : Nat := f.ctorIdx + 1024 * i

/-- The value of element `i` of a field. -/
def State.fld (s : State) (f : Fld) (i : Nat) : Nat :=
  (Tbl.find 0 s.regs (f.key i) ^^^ f.reset i) % 2 ^ f.spec.width

/-- Sets element `i` of a field, cut to its width. -/
def State.put (s : State) (f : Fld) (i v : Nat) : State :=
  { s with regs := Tbl.set 0 s.regs (f.key i) (v % 2 ^ f.spec.width ^^^ f.reset i) }

/-- Whether element `i` of a field is not 0. -/
def State.on (s : State) (f : Fld) (i : Nat) : Bool := s.fld f i != 0

/-- Sets bits of element `i` of a field. -/
def State.orFld (s : State) (f : Fld) (i m : Nat) : State := s.put f i (s.fld f i ||| m)

/-- Sets bit `b` of element `i` of a field to `v`. -/
def State.putBit (s : State) (f : Fld) (i b : Nat) (v : Bool) : State :=
  s.put f i (if v then orBit (s.fld f i) b else clearBit (s.fld f i) b)

/-- Adds `n` to a counter that saturates at the largest value of its field. -/
def State.bump (s : State) (f : Fld) (i n : Nat) : State :=
  s.put f i (min (s.fld f i + n) (2 ^ f.spec.width - 1))

/-- Adds `n` to a counter that wraps at the width of its field. -/
def State.addMod (s : State) (f : Fld) (i n : Nat) : State := s.put f i (s.fld f i + n)

/-- Returns a field to its reset value. -/
def State.clr (s : State) (f : Fld) (i : Nat) : State := s.put f i (f.reset i)

/-- Applies `g` for each element of a list, in order. -/
def State.each {α : Type} (s : State) (l : List α) (g : α → State → State) : State := l.foldl (fun t a => g a t) s

/-- Applies `g` when `c` holds. -/
def State.when (s : State) (c : Bool) (g : State → State) : State := if c then g s else s

/-! ### The model's own records -/

/-- Records that a message left the device. -/
def State.emit (s : State) (o : Output) : State := { s with out := s.out ++ [o] }

/-- A fresh free value (assumption 3). -/
def State.draw (s : State) : Nat := Config.freeValue s.free

/-- The state once a free value has been drawn. -/
def State.drew (s : State) : State := { s with free := s.free + 1 }

/-- A time begins to run now. -/
def State.startTimer (s : State) (t : Timer) (i : Nat) : State := { s with timers := Tbl.set 0 s.timers (t.ctorIdx + 64 * i) (s.clock + 1) }

/-- A time runs no more. -/
def State.stopTimer (s : State) (t : Timer) (i : Nat) : State := { s with timers := Tbl.set 0 s.timers (t.ctorIdx + 64 * i) 0 }

/-- A time has run for `ns` nanoseconds. -/
def State.ran (s : State) (t : Timer) (i ns : Nat) : Bool :=
  match Tbl.find 0 s.timers (t.ctorIdx + 64 * i) with
  | 0 => false
  | c + 1 => decide (c + ns ≤ s.clock)

/-- A time does not run, or has run for `ns` nanoseconds. -/
def State.lapsed (s : State) (t : Timer) (i ns : Nat) : Bool := Tbl.find 0 s.timers (t.ctorIdx + 64 * i) == 0 || s.ran t i ns

/-- The timebase (R522). -/
def State.tb (s : State) : Nat := s.fld .PERF_TB_TB 0

/-- The random number generator is READY (R511). -/
def State.rngReady (s : State) : Bool := s.fld .DEV_RNG_STAT_STATE 0 == 1

/-! ### Regions and islands, as every block sees them -/

/-- Region `n` is WOKEN (R440). -/
def State.woken (s : State) (n : Nat) : Bool := s.fld .CFG_RGN_STAT_STATE n == 3

/-- A bundle of several tokens from a region that is isolated, which the port can only have received in part when isolation began: it is discarded and
counted (R444; assumption 79). -/
def State.partBundle (s : State) (n : Nat) : State := s.when (s.on .CFG_RGN_STAT_ISOLATED n) fun s => s.bump .CFG_ISO_CNT_PARTIAL n 1

/-- Domain `d` runs (R84). -/
def State.runs (s : State) (d : Nat) : Bool := bitOf (s.fld .DEV_ISL_RUN_RUN 0) d

/-- Domain `d` is held in reset or resynchronising (R85). -/
def State.isHeld (s : State) (d : Nat) : Bool := bitOf (s.fld .DEV_ISL_HELD_HELD 0) d

/-- An access waits: its domain is stopped (R97) or held (R93). -/
def State.domainWaits (s : State) (d : Option Nat) : Bool :=
  match d with
  | none => false
  | some d => !s.runs d || s.isHeld d

/-- The number of the clockless remainder as a side of a crossing. -/
def clockless : Nat := 25

/-- A side of a crossing has its clock and is not held: the clockless remainder always. -/
def State.sideRuns (s : State) (side : Nat) : Bool := decide (clockless ≤ side) || !s.domainWaits (some side)

/-- The place of the pulse crossing from one side to another. -/
def pulseKey (sender receiver : Nat) : Nat := sender * 32 + receiver

/-- A pulse is sent across one crossing (R87): it is kept while the receiver does not run; else it crosses, and `deliver` acts. -/
def State.pulse (s : State) (sender receiver : Nat) (p : Pulse) (deliver : State → State) : State :=
  let k := pulseKey sender receiver
  let x := Tbl.find PulseX.reset s.pulses k
  if !s.sideRuns receiver then
    let x := { x with toggle := if x.kept.isEmpty then !x.toggle else x.toggle, kept := x.kept ++ [p] }
    { s with pulses := Tbl.set PulseX.reset s.pulses k x }
  else deliver { s with pulses := Tbl.set PulseX.reset s.pulses k { x with toggle := !x.toggle, back := !x.toggle } }

/-- A pulse from one domain to another: it leaves the first into the clockless remainder, which sends it on (R13). -/
def State.pulseVia (s : State) (sender receiver : Nat) (p : Pulse) (deliver : State → State) : State :=
  s.pulse sender clockless p fun s => s.pulse clockless receiver p deliver

/-! ### The Franker, as other blocks see it (R548, R552) -/

/-- The Franker runs and holds its resources (R548). -/
def State.frankerRuns (s : State) : Bool := s.on .DEV_FRK_STAT_STATE 0

/-- A ring stop is latched. -/
def State.ringStopped (s : State) : Bool := s.on .LNK_RING_STAT_STOPPED 0 || s.on .LNK_RING_STAT_STOPPED 1

/-- Keeps STATE of DEV_FRK_STAT true (R552): held while axis 0 is LOST or a ring stop is latched. -/
def State.showFranker (s : State) : State :=
  if s.frankerRuns then s.put .DEV_FRK_STAT_STATE 0 (if s.fld .POS_AX_STAT_STATE 0 == 3 || s.ringStopped then 2 else 1) else s

/-! ### The logbook queue (R536..R538, R540) -/

/-- The position of axis `a` as a postmark (R108). -/
def State.axisPm (s : State) (a : Nat) : Nat := s.fld .POS_AX_POS_VALUE a

/-- The postmark of a logbook record: the position of the log axis, or 0 (R536). -/
def State.logPostmark (s : State) : Nat :=
  if s.on .EVT_LOG_CTL_AXIS_EN 0 then s.axisPm (s.fld .EVT_LOG_CTL_AXIS 0) else 0

/-- The FLAGS of a logbook record (R536). -/
def State.logFlags (s : State) : Nat :=
  let st := s.fld .POS_AX_STAT_STATE (s.fld .EVT_LOG_CTL_AXIS 0)
  let en := s.on .EVT_LOG_CTL_AXIS_EN 0
  s.fld .DEV_RTC_STAT_VALID 0 + 2 * b2n (en && st == 1) + 4 * b2n (en && st == 2)

/-- A record stamped now (R536). -/
def State.stamp (s : State) (kind source count : Nat) (detail : List Byte) : LogRec :=
  ⟨kind, source, s.tb, s.logPostmark, s.fld .DEV_RTC_SECONDS 0 % 2 ^ 32, s.logFlags, count, detail⟩

/-- Keeps EVT_LOG_STAT.QUEUE equal to the entries held. -/
def State.setQueue (s : State) (q : List LogRec) : State :=
  { s with evt := { s.evt with queue := q } } |>.put .EVT_LOG_STAT_QUEUE 0 q.length

/-- One more raise lost to a full queue (R538). -/
def LostRun.more (r : Option LostRun) (pm t : Nat) : LostRun :=
  match r with
  | none => ⟨1, pm, pm, t⟩
  | some l => { l with count := l.count + 1, lastPost := pm }

/-- Adds 1 to the COUNT of the waiting EVENT record of a source. -/
def mergeRec (src : Nat) (q : List LogRec) : List LogRec :=
  q.map fun r => if r.kind == 1 && r.source == src then { r with count := r.count + 1 } else r

/-- Adds, merges or loses the EVENT record of a raise of a source whose LOG bit is set (R538, R540). -/
def State.logEvent (s : State) (src : Nat) (detail : List Byte) : State :=
  if s.on .EVT_LOG_STAT_STOPPED 0 then s.bump .EVT_LOG_LOST_LOST 0 1
  else if s.evt.queue.any (fun r => r.kind == 1 && r.source == src) then s.setQueue (mergeRec src s.evt.queue)
  else if s.evt.queue.length < 128 then s.setQueue (s.evt.queue ++ [s.stamp 1 src 1 detail])
  else { s with evt := { s.evt with lost := some (LostRun.more s.evt.lost s.logPostmark s.tb) } }
    |>.bump .EVT_LOG_LOST_LOST 0 1

/-- A firmware record enters the queue with its continuation records while at least 32 entries are free, and waits in
the firmware otherwise (R537, R538). -/
def State.logFirmware (s : State) (code : Nat) (bytes : List Byte) : State :=
  let head := s.stamp 4 0xFFFF 0 (le 2 code ++ (bytes.take 30))
  let chunk := fun k => s.stamp 5 0xFFFF 0 ((bytes.drop (30 + 32 * k)).take 32)
  let recs := head :: (List.range ((bytes.length - 30 + 31) / 32)).map chunk
  if s.on .EVT_LOG_STAT_STOPPED 0 then s.bump .EVT_LOG_LOST_LOST 0 recs.length
  else if s.evt.queue.length + 32 ≤ 128 && s.evt.firmware.isEmpty then s.setQueue (s.evt.queue ++ recs)
  else { s with evt := { s.evt with firmware := s.evt.firmware ++ [recs] } }

/-! ### Mailboxes (R353..R363) -/

/-- The mailbox `m` beside its registers. -/
def State.box (s : State) (m : Nat) : Mailbox := Tbl.find Mailbox.reset s.boxes m

/-- Sets mailbox `m`. -/
def State.setBox (s : State) (m : Nat) (b : Mailbox) : State := { s with boxes := Tbl.set Mailbox.reset s.boxes m b }

/-- The byte of mailbox memory at an offset; zeroed rings read 0 (R364, assumption 4). -/
def State.boxByte (s : State) (a : Nat) : Byte := Tbl.find 0 s.boxMem a

/-- Sets one byte of mailbox memory. -/
def State.setBoxByte (s : State) (a : Nat) (b : Byte) : State := { s with boxMem := Tbl.set 0 s.boxMem a b }

/-- Offset in the mailbox memory of byte `k` counted from unit `u` of a ring that starts at `base` (R353, R354). -/
def ringByte (m base u k : Nat) : Nat := m * 0x10000 + base + 32 * ((u + k / 32) % 1016) + k % 32

/-- The request ring's and the reply ring's first byte in a mailbox window (R353). -/
def requestBase : Nat := 0x0100
def replyBase : Nat := 0x8100

/-- Writes bytes from unit `u` of a ring on. -/
def State.putRing (s : State) (m base u : Nat) : List Byte → Nat → State
  | [], _ => s
  | b :: t, k => (s.setBoxByte (ringByte m base u k) b).putRing m base u t (k + 1)

/-- Reads `n` bytes from unit `u` of a ring on. -/
def State.getRing (s : State) (m base u off n : Nat) : List Byte :=
  (List.range n).map fun k => s.boxByte (ringByte m base u (off + k))

/-- Units that a letter with a body of `n` bytes takes (R354). -/
def letterUnits (n : Nat) : Nat := (32 + n + 31) / 32

/-- Free units of the reply ring of mailbox `m` (R354). -/
def State.replyFree (s : State) (m : Nat) : Nat :=
  (s.fld .PST_MB_RPL_HEAD m + 2 * 1016 - s.fld .PST_MB_RPL_TAIL m - 1) % 1016

/-- The bytes of a letter: envelope and body, padded to whole units (R355). -/
def letterBytes (opcode flags handle seqTag status postmark : Nat) (body : List Byte) : List Byte :=
  let raw := le 2 opcode ++ le 2 flags ++ le 4 handle ++ le 4 seqTag ++ le 2 body.length ++ le 2 status ++
    le 8 postmark ++ le 8 0 ++ body
  raw ++ List.replicate (32 * letterUnits body.length - raw.length) 0

/-- The owner of a mailbox is a ring peer (R350). -/
def isPeer (owner : Nat) : Bool := decide (0x60 ≤ owner) && decide (owner ≤ 0x9F)

/-- Writes a letter into the reply ring and advances TAIL, which sets PENDING while EN is 1 (R358, R362). The reply ring of a ring peer is the firmware's: it
returns the letter to the peer and frees its units (R352). -/
def State.writeReply (s : State) (m : Nat) (bytes : List Byte) : State :=
  let t := s.fld .PST_MB_RPL_TAIL m
  let u := (t + bytes.length / 32) % 1016
  let owner := s.fld .PST_MB_OWNER_OWNER m
  let s1 := (s.putRing m replyBase t bytes 0).put .PST_MB_RPL_TAIL m u
  if isPeer owner then (s1.put .PST_MB_RPL_HEAD m u).emit (.peerLetter owner bytes)
  else s1.when (s1.on .PST_MB_EVT_EN m) (·.put .PST_MB_EVT_PENDING m 1)

/-- The bytes of a held item; an event notice as R363 lays it out. -/
def Held.bytes : Held → List Byte
  | .letter b => b
  | .notice src n t =>
      letterBytes 0x0F40 0x0004 0 0 0 0 (le 2 src ++ le 2 0 ++ le 4 (min n 0xFFFFFFFF) ++ le 8 t)

/-- The mailbox is served: the firmware and the mailbox are READY (R349, R364), and D22 runs (R14, R87). -/
def State.served (s : State) (m : Nat) : Bool := s.on .PST_FW_STAT_READY 0 && s.on .PST_MB_STAT_READY m && s.sideRuns 22

/-- Writes held items while they fit, in order, and keeps the rest (R358). -/
def State.pumpList (s : State) (m : Nat) : List Held → State
  | [] => s.setBox m { s.box m with held := [] }
  | h :: t =>
    if s.served m && decide (h.bytes.length / 32 ≤ s.replyFree m) then (s.writeReply m h.bytes).pumpList m t
    else s.setBox m { s.box m with held := h :: t }

/-- Writes what fits of what the firmware holds for mailbox `m` and shows in WAIT whether some is left (R358). -/
def State.pump (s : State) (m : Nat) : State :=
  let s1 := s.pumpList m (s.box m).held
  s1.put .PST_MB_STAT_WAIT m (b2n (!(s1.box m).held.isEmpty))

/-- Merges a raise into the held notice of its source, or holds a new one (R363). -/
def addNotice (src t : Nat) : List Held → List Held
  | [] => [.notice src 1 t]
  | .notice s n u :: r => if s = src then .notice s (n + 1) u :: r else .notice s n u :: addNotice src t r
  | h :: r => h :: addNotice src t r

/-- Holds the event notice of a raise for mailbox `m` and writes what fits. -/
def State.notify (s : State) (src m : Nat) : State :=
  (s.setBox m { s.box m with held := addNotice src s.tb (s.box m).held }).pump m

/-! ### Event sources (R531..R535) -/

/-- The register whose word an EVENT record keeps for a source that sets one register only (R537; assumption 5). -/
def eventStatus (src : Nat) : Option (Reg × Nat) :=
  if src = 2 then some (.DEV_ACCESS_ERR, 0)
  else if src = 4 then some (.DEV_ISL_STOP, 0)
  else if src = 6 || src = 7 then some (.PIN_GSTAT, 0)
  else if 16 ≤ src && src ≤ 47 then some (.POS_AX_FLT, (src - 16) / 4)
  else if 48 ≤ src && src ≤ 111 then some (.SRT_STAT, src - 48)
  else if 148 ≤ src && src ≤ 155 then some (.MEM_STK_ERR, (src - 148) % 4)
  else if 156 ≤ src && src ≤ 159 then some (.SEAL_LINE_ERR, src - 156)
  else if 160 ≤ src && src ≤ 163 then some (.SEAL_STORE_ERR, 0)
  else if 164 ≤ src && src ≤ 203 then some (.CFG_FAB_STAT, src - 164)
  else if src = 204 then some (.PST_FW_STAT, 0)
  else if src = 208 then some (.PST_LOCK_ERR, 0)
  else if src = 212 || src = 213 then some (.LNK_RING_STAT, src - 212)
  else if 220 ≤ src && src ≤ 222 then some (.CFG_STAT, 0)
  else if src = 224 then some (.CFG_XSPI, 0)
  else if 226 ≤ src && src ≤ 230 then some (.CFG_NVM_ERR, 0)
  else if src = 233 || src = 234 then some (.CFG_SCRUB_CNT, 0)
  else if src = 236 || src = 237 then some (.DEV_RNG_STAT, 0)
  else if 238 ≤ src && src ≤ 241 then some (.DEV_ST_FAIL, 0)
  else if src = 242 then some (.DEV_LC, 0)
  else if 243 ≤ src && src ≤ 245 then some (.DEV_SEC_STAT, 0)
  else if src = 246 || src = 247 then some (.DEV_ST_STAT, 0)
  else if src = 3 then some (.DEV_ISL_RST, 0)
  else if src = 11 then some (.PWR_AIN_FLT, 0)
  else if src = 12 then some (.PWR_STATE, 0)
  else if src = 13 then some (.EVT_LOG_LOST, 0)
  else if src = 14 then some (.EVT_LOG_STAT, 0)
  else none

/-- The word of the register at element `i`: every field that is not write-only, in its place (R8, R9). -/
def State.regWord (s : State) (r : Reg) (i : Nat) : Nat :=
  r.fields.foldl (fun v f => if f.spec.ty = .WO then v else v + s.fld f i * 2 ^ f.spec.lo) 0

/-- DETAIL of the EVENT record of a raise after its COUNT: the word of the register that set the event (R537), a free value where no rule names one
(assumption 5). -/
def State.eventDetail (s : State) (reg : Option (Reg × Nat)) : State × List Byte :=
  match reg with
  | some (r, i) => (s, le 4 (s.regWord r i))
  | none => (s.drew, le 4 s.draw)

/-- A region's outstanding event tokens with one more: the token that stands at the channel stays first, and the others follow in ascending source order
(R533). -/
def addToken (n src : Nat) (l : List (Nat × Nat)) : List (Nat × Nat) :=
  match l.filter (·.1 == n) with
  | [] => l ++ [(n, src)]
  | h :: t => l.filter (·.1 != n) ++ h :: (t.filter (fun e => decide (e.2 < src)) ++ (n, src) :: t.filter fun e => decide (src < e.2))

/-- PEND, MSI-X, token and logbook of a raise (R531..R533, R538); `reg` is the register that set the event. -/
def State.raiseCore (s : State) (src : Nat) (reg : Option (Reg × Nat)) : State :=
  let w := src / 32
  let seen := bitOf (s.fld .EVT_PEND_PEND w) (src % 32)
  let s := s.putBit .EVT_PEND_PEND w (src % 32) true
  let s := s.when (s.on .EVT_ROUTE_MSIX_EN src && !seen)
    (let f := s.fld .EVT_ROUTE_FUNC src
     let v := s.fld .EVT_ROUTE_VECTOR src
     ·.pulse clockless 0 (.msix f v) (·.emit (.msix f v)))
  let n := s.fld .EVT_ROUTE_REGION src
  let s := s.when (s.on .EVT_ROUTE_TOKEN_EN src && decide (n < 40) && s.woken n && !s.evt.tokens.contains (n, src))
    (fun s => { s with evt := { s.evt with tokens := addToken n src s.evt.tokens } } |>.emit (.eventToken n src))
  if !s.on .EVT_ROUTE_LOG src then s
  else
    let d := s.eventDetail reg
    d.1.logEvent src d.2

/-- Delivers a raise to every mailbox that LOG.ROUTE has enabled for the source (R534). -/
def State.raiseNotices (s : State) (src : Nat) : State :=
  s.each (bitsOf 64 (Tbl.find 0 s.evt.routes src)) (fun m s => s.notify src m)

/-- The mailboxes whose WAIT is 1. -/
def State.waits (s : State) : List Nat := (List.range 64).filter (fun m => s.on .PST_MB_STAT_WAIT m)

/-- A raise of an event source on every path it enables (R531); `reg` is the register that set the event. A WAIT that rises while its notices are delivered
raises source 209; rises of one moment are one raise. -/
def State.raiseWith (s : State) (src : Nat) (reg : Option (Reg × Nat)) : State :=
  let s1 := s.raiseCore src reg
  if Tbl.find 0 s1.evt.routes src = 0 then s1
  else
    let s2 := s1.raiseNotices src
    match s2.waits.find? fun m => !s.waits.contains m with
    | none => s2
    | some m => (s2.raiseCore 209 (some (.PST_MB_STAT, m))).raiseNotices 209

/-- A raise of an event source that sets one register only. -/
def State.raise (s : State) (src : Nat) : State := s.raiseWith src (eventStatus src)

/-- A raise that a register's element sets. -/
def State.raiseOf (s : State) (src : Nat) (r : Reg) (i : Nat) : State := s.raiseWith src (some (r, i))

/-! ### Performance counters (R523..R527) -/

/-- What the filter of R524 sees of the transfer behind an event marked F: its requester, class (0 request, 1 response,
2 snoop) and line index. -/
structure Xfer where
  master : Nat
  cls : Nat
  line : Nat
  deriving DecidableEq, Repr

/-- Counter `i` counts `n`: it passes 2^48 - 1 to 0, with OVF set and source 15 raised (R527). -/
def State.perfAdd (s : State) (i n : Nat) : State :=
  let c := s.fld .PERF_CNT_COUNT i + n
  if c < 2 ^ 48 then s.put .PERF_CNT_COUNT i c
  else (((s.put .PERF_CNT_COUNT i (c - 2 ^ 48)).put .PERF_CNT_OVF i 1).orFld .PERF_OVF_OVF (i / 32)
    (2 ^ (i % 32))).raiseOf 15 .PERF_OVF (i / 32)

/-- The counters whose EN is 1. -/
def State.counters (s : State) : List Nat :=
  (s.regs.filter (fun e => e.1 % 1024 == Fld.PERF_SEL_EN.ctorIdx && e.2 != 0)).map (fun e => e.1 / 1024)

/-- Whether the filter of counter `i` matches a transfer (R524). -/
def State.perfMatch (s : State) (i : Nat) (x : Option Xfer) : Bool :=
  match x with
  | none => true
  | some x =>
    let privileged := (decide (16 ≤ x.master) && decide (x.master ≤ 19)) || x.master == 38
    let priv := s.fld .PERF_FILT_PRIV i
    let cls := s.fld .PERF_FILT_CLASS i
    (!s.on .PERF_FILT_MASTER_EN i || s.fld .PERF_FILT_MASTER i == x.master) &&
    (priv == 0 || priv == 3 || (priv == 1) == privileged) && (cls == 0 || bitOf cls x.cls) &&
    (!s.on .PERF_FILT_RANGE_EN i ||
      (decide (s.fld .PERF_RANGE_LO_LO i ≤ x.line) && decide (x.line ≤ s.fld .PERF_RANGE_HI_HI i)))

/-- An event of a block: every enabled counter in filter mode that selects it and whose filter it matches counts `n`
(R523, R524). Blocks 0, 7 and 8 ignore INST. -/
def State.perf (s : State) (block inst event n : Nat) (x : Option Xfer) : State :=
  s.each s.counters fun i s =>
    s.when (s.fld .PERF_SEL_BLOCK i == block && s.fld .PERF_SEL_EVENT i == event && !s.on .PERF_SEL_MODE i &&
      (block == 0 || block == 7 || block == 8 || s.fld .PERF_SEL_INST i == inst) && s.perfMatch i x)
      (·.perfAdd i n)

/-! ### Letters of the firmware (R358, R377) -/

/-- The code of a status (R377). -/
def Status.code : Status → Nat
  | .OK => 0x0000 | .ACCEPTED => 0x0001 | .BAD_HANDLE => 0x0100 | .STALE_HANDLE => 0x0101 | .BAD_PARAM => 0x0102
  | .BUSY => 0x0200 | .NO_RESOURCE => 0x0201 | .CANCELLED => 0x0202 | .DENIED => 0x0300 | .LOCKED => 0x0301
  | .ABANDONED => 0x0302 | .NOT_READY => 0x0400 | .LEASE_EXHAUSTED => 0x0500 | .NO_QUORUM => 0x0501
  | .POSITION_LOST => 0x0600 | .INTEGRITY => 0x0700 | .DRIVE_ERROR => 0x0701 | .TRANSFER_FAILED => 0x0702
  | .NO_ANSWER => 0x0703

/-- Sends a letter to mailbox `m`: written behind what is held, as soon as it fits (R358). WAIT that rises raises
source 209. -/
def State.send (s : State) (m : Nat) (bytes : List Byte) : State :=
  let s1 := (s.setBox m { s.box m with held := (s.box m).held ++ [.letter bytes] }).pump m
  if s1.on .PST_MB_STAT_WAIT m && !s.on .PST_MB_STAT_WAIT m then s1.raiseOf 209 .PST_MB_STAT m else s1

/-- FLAGS bits 3 and 4, which replies echo (R355). -/
def letterEcho (L : Letter) : Nat := L.flags.toNat &&& 0x18

/-- Bit 3, QUIET, of a letter's FLAGS. -/
def letterQuiet (L : Letter) : Bool := L.flags.toNat.testBit 3

/-- The letter of a reply (R358): none for OK under QUIET. -/
def replyLetters (L : Letter) (r : Reply) : List (List Byte) :=
  if letterQuiet L && r.status = .OK then []
  else [letterBytes L.opcode.toNat (1 + letterEcho L) r.handle L.seqTag.toNat r.status.code r.postmark r.body]

/-- Replies or completion letters leave for mailbox `m`, counted. -/
def State.postLetters (s : State) (m : Nat) (l : List (List Byte)) : State := s.each l fun b s => (s.perf 7 0 1 1 none).send m b

/-- The answers of mailbox `m` that no letter taken earlier holds up are written, in the order their letters were taken (R358). -/
def State.postAnswers (s : State) (m : Nat) : State :=
  s.each (s.box m).taken fun L s =>
    let b := s.box m
    match b.answers.find? (·.1 == L) with
    | none => s
    | some a =>
      if b.taken.head? == some L then
        (s.setBox m { b with taken := b.taken.drop 1, answers := b.answers.erase a }).postLetters m a.2
      else s

/-- Every copy of a letter that mailbox has taken is answered. -/
def Mailbox.answered (b : Mailbox) (L : Letter) : Bool := decide (b.taken.count L ≤ (b.answers.filter (·.1 == L)).length)

/-- The firmware's reply to a letter, behind the replies of those taken before it (R358); none where the mailbox was reset since the letter was taken (R364).
Either way the letter is answered. -/
def State.reply (s : State) (L : Letter) (r : Reply) : State :=
  let m := L.mailbox.val
  let b := s.box m
  if b.orphans.contains L then s.setBox m { b with orphans := b.orphans.erase L }
  else if !b.taken.contains L then s.postLetters m (replyLetters L r)
  else if b.answered L then s
  else (s.setBox m { b with late := b.late.erase L, answers := b.answers ++ [(L, replyLetters L r)] }).postAnswers m

/-- A reply with a status and nothing else but the letter's own handle. -/
def plain (L : Letter) (st : Status) : Reply := ⟨st, L.handle.toNat, 0, []⟩

/-- A notice to mailbox `m` (R358). -/
def State.notice (s : State) (m opcode handle postmark : Nat) (body : List Byte) : State :=
  (s.perf 7 0 2 1 none).send m (letterBytes opcode 0x0004 handle 0 0 postmark body)

/-! ### Access errors and waiting accesses (R5, R6, R9, R18, R20, R97) -/

/-- The owner identifier of a port (R350). -/
def portIdent : Port → Nat
  | .postroom => 0x40
  | .tap => 0x41
  | .pf f => 0x50 + f.val
  | .region n => n.val + 1

/-- SOURCE of DEV_ACCESS_ERR for a port (R19). -/
def portSource : Port → Nat
  | .postroom => 0x40
  | .tap => 0x41
  | .pf f => if f.val = 0 then 0 else 0x50 + f.val
  | .region n => n.val + 1

/-- The port whose per-port state an access uses: the endpoint counts as one (R17). -/
def portSeat : Port → Nat
  | .pf _ => 0x50
  | p => portIdent p

/-- What an access did wrong, beside ERR (R5, R6, R9, R18). -/
inductive AccessError where
  | form | unmapped | denied | locked | other
  deriving DecidableEq, Repr

/-- The flag of DEV_ACCESS_ERR that an error sets beside ERR. -/
def AccessError.flag : AccessError → Option Fld
  | .form => some .DEV_ACCESS_ERR_FORM
  | .unmapped => some .DEV_ACCESS_ERR_UNMAPPED
  | .denied => some .DEV_ACCESS_ERR_DENIED
  | .locked => some .DEV_ACCESS_ERR_LOCKED
  | .other => none

/-- An access error: captured while ERR is 0 (R20), flagged, and raised as source 2 (R5, R6, R18). -/
def State.accessError (s : State) (e : AccessError) (p : Port) (write : Bool) (addr : Nat) : State :=
  let s := s.when (!s.on .DEV_ACCESS_ERR_ERR 0) fun s =>
    s.put .DEV_ACCESS_ERR_SOURCE 0 (portSource p) |>.put .DEV_ACCESS_ERR_WRITE 0 (b2n write)
      |>.put .DEV_ACCESS_ADDR_ADDR 0 addr
  let s := s.put .DEV_ACCESS_ERR_ERR 0 1
  let s := match e.flag with
    | some f => s.put f 0 1
    | none => s
  s.raise 2

/-- The window an address lies in (R15). -/
def windowOf (a : Nat) : Option Window :=
  if a < 0x10000 then some .DEV else if a < 0x20000 then some .PWR else if a < 0x30000 then some .POS
  else if a < 0x40000 then some .SRT else if a < 0x80000 then some .PIN
  else if a < 0xC8000 then some .LANE else if a < 0x100000 then none
  else if a < 0x140000 then some .LNK else if a < 0x180000 then some .MEM else if a < 0x1C0000 then some .SEAL
  else if a < 0x200000 then some .PST else if a < 0x210000 then some .EVT else if a < 0x220000 then some .PERF
  else if a < 0x240000 then some .CFG else if a < 0x250000 then some .TST else if a < 0x1000000 then none
  else if a < 0x1400000 then some .MAILBOX else none

/-- The byte address of element `i` of a register array, by the dimensions of its row. -/
def dimOffset : List (Nat × Nat) → Nat → Nat
  | [], _ => 0
  | (_, st) :: ds, i =>
    let inner := ds.foldl (fun n d => n * d.1) 1
    i / inner * st + dimOffset ds (i % inner)

/-- The byte address of element `i` of a register (R7). -/
def Reg.addr (r : Reg) (i : Nat) : Nat := r.spec.base + dimOffset r.spec.dims i

/-- The domain that answers an address (R82), none for the clockless remainder: by the window, or the part of one that a link, a stack, an engine or the
placement cells have, whether or not a register lies there (assumption 89). -/
def addrDomain (a : Nat) : Option Nat :=
  match windowOf a with
  | some .LANE => some ((a - 0x80000) / 0x4000)
  | some .LNK => if 0x13F000 ≤ a then some 17 else if a < 0x124000 then some ((a - 0x100000) / 0x2000) else none
  | some .MEM => some (18 + (a - 0x140000) / 0x10000)
  | some .SEAL => if 0x190000 ≤ a && a < 0x194000 then some (18 + (a - 0x190000) / 0x1000) else none
  | some .PST | some .MAILBOX => some 22
  | some .POS => some 23
  | some .PIN => if 0x44000 ≤ a then some 23 else none
  | some .TST => some 24
  | _ => none

/-- The domain that answers a register (R82). -/
def Reg.domain (r : Reg) (i : Nat) : Option Nat := addrDomain (r.addr i)

/-- The bit of DEV_RGN_ACCESS that names a window (R19). -/
def Window.bit : Window → Nat
  | .DEV => 0 | .PWR => 1 | .POS => 2 | .SRT => 3 | .PIN => 4 | .LANE => 5 | .LNK => 6 | .MEM => 7 | .SEAL => 8
  | .PST => 9 | .EVT => 10 | .PERF => 11 | .CFG => 12 | .TST => 13 | .MAILBOX => 14

/-- Whether a region port may make an access outside the mailbox windows (R18, R19, R429, R493, R499, R528, R555). -/
def State.regionMay (s : State) (n : Nat) (write : Bool) (r : Reg) (i : Nat) : Bool :=
  match windowOf (r.addr i) with
  | none => false
  | some w =>
    let permits := bitOf (s.fld (if write then .DEV_RGN_ACCESS_WR else .DEV_RGN_ACCESS_RD) n) w.bit
    let claimed := match Tbl.find 0 s.evt.claims i with
      | 0 => false
      | m + 1 => s.fld .PST_MB_OWNER_OWNER m == n + 1
    match r with
    | .DEV_ID | .DEV_UID => if write then permits else true
    | .DEV_RGN_ACCESS | .DEV_RST_CMD | .DEV_ISL_RST | .DEV_FRK_REC | .DEV_FRK_CMD | .DEV_FRK_STAT | .DEV_FRK_MISS | .DEV_FRK_CNT | .DEV_FRK_CTR | .DEV_RTC | .DEV_RTC_STAT =>
      permits && !write
    | .CFG_XREQ => permits && (!write || (([0, 7, 32, 39] : List Nat)[i]? == some n))
    | .PERF_SEL | .PERF_FILT | .PERF_RANGE_LO | .PERF_RANGE_HI =>
      permits && s.on .PERF_USER_EN_FABRIC 0 && (!write || claimed)
    | .PERF_CNT | .PERF_OVF | .PERF_TB | .PERF_USER_EN => permits && s.on .PERF_USER_EN_FABRIC 0 && !write
    | _ => permits

/-- Whether a port may make an access to mailbox window `m` (R352). -/
def State.boxMay (s : State) (p : Port) (write : Bool) (m : Nat) : Bool :=
  match p with
  | .postroom => true
  | .pf f => s.fld .PST_MB_OWNER_OWNER m == portIdent p || (f.val == 0 && !write)
  | _ => s.fld .PST_MB_OWNER_OWNER m == portIdent p

/-- Whether the life cycle lets the test access port reach a window (R513): every window but in FIELD, where it reads the DEV window and has mailbox
63, and in SCRAPPED, where it reads the DEV window. -/
def State.tapMay (s : State) (write : Bool) (w : Option Window) (m : Nat) : Bool :=
  let dev := w == some .DEV && !write
  match s.fld .DEV_LC_STATE 0 with
  | 2 => dev || (w == some .MAILBOX && m == 63)
  | 4 => dev
  | _ => true

/-- Whether a port may access element `i` of a register (R18, R251, R352, R429, R513). -/
def State.may (s : State) (p : Port) (write : Bool) (r : Reg) (i : Nat) : Bool :=
  let w := windowOf (r.addr i)
  if w = some .MAILBOX then s.boxMay p write i && (p != .tap || s.tapMay write w i)
  else match p with
    | .postroom => true
    | .tap => s.tapMay write w i && !(write && r == .CFG_XREQ)
    | .pf f => f.val == 0 && !(write && r == .CFG_XREQ)
    | .region n => s.regionMay n.val write r i

/-! ### Crossing queues (R92) -/

/-- The crossing queues of domain `d`. -/
def State.crossing (s : State) (d : Nat) : Crossing := Tbl.find Crossing.reset s.crossings d

/-- Sets the crossing queues of domain `d`. -/
def State.setCrossing (s : State) (d : Nat) (c : Crossing) : State :=
  { s with crossings := Tbl.set Crossing.reset s.crossings d c }

/-- The Gray code of a pointer, and the pointer that a code stands for (R92). -/
def gray (n : BitVec 6) : BitVec 6 := n ^^^ (n >>> 1)
def ungray (g : BitVec 6) : BitVec 6 := g ^^^ (g >>> 1) ^^^ (g >>> 2) ^^^ (g >>> 3) ^^^ (g >>> 4) ^^^ (g >>> 5)

/-- The queue is full as its sender sees it, with 32 entries, or empty as its receiver sees it (R92). -/
def XQueue.full (q : XQueue) : Bool := (ungray q.wr - ungray q.rdSeen).toNat == 32
def XQueue.empty (q : XQueue) : Bool := q.wrSeen == q.rd

/-- The entries that a queue holds. -/
def XQueue.count (q : XQueue) : Nat := (ungray q.wr - ungray q.rd).toNat

/-- An entry is written or read: its pointer takes one step. A full queue takes none, an empty one gives none. -/
def XQueue.push (q : XQueue) : XQueue := if q.full then q else { q with wr := gray (ungray q.wr + 1) }
def XQueue.pop (q : XQueue) : XQueue := if q.empty then q else { q with rd := gray (ungray q.rd + 1) }

/-- Both pointers have crossed. -/
def XQueue.seen (q : XQueue) : XQueue := { q with wrSeen := q.wr, rdSeen := q.rd }

/-- An entry leaves the queue from its head, or the newest is taken back (R97). -/
def XQueue.leave (q : XQueue) : XQueue := q.seen.pop.seen
def XQueue.takeBack (q : XQueue) : XQueue := { q with wr := gray (ungray q.wr - 1) }

/-- An entry passes through a queue whose two sides run. -/
def XQueue.pass (q : XQueue) : XQueue := q.push.leave

/-- Both pointers of both queues are zeroed, with every entry gone (R93). -/
def Crossing.zeroed (c : Crossing) : Crossing := { c with into := .zero, out := .zero }

/-- A token passes into domain `d`, or out of it (R92). -/
def State.passInto (s : State) (d : Nat) : State := s.setCrossing d { s.crossing d with into := (s.crossing d).into.pass }
def State.passOut (s : State) (d : Nat) : State := s.setCrossing d { s.crossing d with out := (s.crossing d).out.pass }

/-- The domain that a port's accesses come from (R82): the endpoint's, the Postroom's and the test logic's own. A region's come from the remainder. -/
def portDomain : Port → Option Nat
  | .pf _ => some 0
  | .postroom => some 22
  | .tap => some 24
  | .region _ => none

/-- An access passes into the domain that answers it, and its reply, where it has one, out of it. -/
def State.passDomain (s : State) (d : Option Nat) (reply : Bool) : State :=
  match d with
  | none => s
  | some d => (s.passInto d).when reply (·.passOut d)

/-- A reply comes back to the port: a read's, or any of a region control port (R79). -/
def replies (p : Port) (write : Bool) : Bool :=
  match p with
  | .region _ => true
  | _ => !write

/-- An access of a port leaves the port's domain and passes into the one that answers it, and its reply comes back the same way (R13, R92). -/
def State.passAccess (s : State) (p : Port) (write : Bool) (d : Option Nat) : State :=
  let s := match portDomain p with
    | none => s
    | some o => (s.passOut o).when (replies p write) (·.passInto o)
  s.passDomain d (replies p write)

/-- An earlier access of the same port waits: accesses of one port complete in the order it made them (R17). This holds before R14's word that only
traffic to a stopped domain waits (assumption 89). -/
def State.portBusy (s : State) (p : Port) : Bool := s.waiting.any fun w => portSeat w.port == portSeat p

/-- An access of a port to an address that `d` answers waits: for the domain, or behind an earlier access of the port. -/
def State.mustWait (s : State) (p : Port) (d : Option Nat) : Bool := s.portBusy p || s.domainWaits d

/-- Queues an access that waits. It enters the crossing queue of a stopped domain while that has space, and waits in the interconnect otherwise (R92,
R93). One that is refused before it reaches a domain (`d` none) waits behind the port's earlier ones. -/
def State.wait (s : State) (p : Port) (addr : Nat) (write : Bool) (data : Nat) (form : Bool) (d : Option Nat) : State :=
  match d with
  | none => { s with waiting := s.waiting ++ [⟨p, addr, write, data, form, true, false⟩] }
  | some d =>
    let held := s.isHeld d || s.runs d
    let queued := !held && !(s.crossing d).into.full
    let s := { s with waiting := s.waiting ++ [(⟨p, addr, write, data, form, held, queued⟩ : WaitingAccess)] }
    s.when queued fun s => s.setCrossing d { s.crossing d with into := (s.crossing d).into.push }

/-- Accesses of a port reach the device: those of the endpoint do not while its own domain, D0 or for a ×16 endpoint also D1, is stopped or held (R98). -/
def State.reaches (s : State) (p : Port) : Bool :=
  match p with
  | .pf _ => !s.domainWaits (some 0) && (s.ports.width != 5 || !s.domainWaits (some 1))
  | _ => true

/-- The one way a register access with a row of its own takes place, at address `a` of the register's element: not made at all under R98, behind the port's earlier
ones under R17, refused under R18, waiting under R97, or `g`. A refused read returns 0. -/
def State.accessAt (s : State) (p : Port) (r : Reg) (i a : Nat) (write : Bool) (data : Nat) (g : State → State) : State :=
  let ok := s.may p write r i
  if !s.reaches p then s
  else if s.mustWait p (if ok then r.domain i else none) then s.wait p a write data false (if ok then r.domain i else none)
  else if !ok then (s.accessError .denied p write a).when (!write) (·.emit (.readValue p 0))
  else g (s.passAccess p write (r.domain i))

/-- An access at the register's own address, or that of its first word. -/
def State.access (s : State) (p : Port) (r : Reg) (i : Nat) (write : Bool) (data : Nat) (g : State → State) : State :=
  s.accessAt p r i (r.addr i) write data g

/-- A read that returns the word of a register and clears its RC fields (R9). -/
def State.readClear (s : State) (p : Port) (r : Reg) (i : Nat) : State :=
  (s.emit (.readValue p (s.regWord r i))).each (r.fields.filter (fun f => f.spec.ty = .RC)) (fun f s => s.put f i 0)

/-! ### Crossings and poison (R94..R96) -/

/-- Counts discards and poison of domain `d`; source 5 when either first leaves 0 (R94). -/
def State.countDrops (s : State) (d drops poisons : Nat) : State :=
  let first := (s.fld .DEV_XDROP_DROP d == 0 && drops != 0) || (s.fld .DEV_XDROP_POISON d == 0 && poisons != 0)
  let s := (s.bump .DEV_XDROP_DROP d drops).bump .DEV_XDROP_POISON d poisons
  s.when first (·.raiseOf 5 .DEV_XDROP d)

/-- The data bits of a poison token (R95). -/
def poisonWord (domain cause lane : Nat) : Nat := domain % 32 + 256 * (cause % 16) + 65536 * (lane % 256)

/-- A poison word as the 32 bits of one channel of a bundle, on the 16 channels of a line's two half-line data tokens (R76, R96). -/
def poisonLine (w : Nat) : Nat := (List.range 16).foldl (fun v k => v + w * 2 ^ (32 * k)) 0

/-- A poison token in the form of its port (R96): an agent port's reply carries a poison word on every channel of the data tokens that the request at its
front would have had. -/
def State.poisonForm (s : State) (t : PoisonTo) (w : Nat) : Output :=
  match t with
  | .agentPort a p =>
    let reads := fun (r : PortReq) => decide (r.op = .read) || decide (r.op = .readOwn) || decide (r.op = .readNa)
    .agentReply a p 15 w (if ((Tbl.find [] s.memo.ports (a * 16 + p)).head?.map reads).getD false then some (poisonLine w) else none)
  | .controlPort n => .controlReply n 15 w
  | .bar0 => .completerAbort
  | t => .poison t w

/-- Releases a poison token to each of a list of receivers and counts discards and poison (R94, R95). -/
def State.release (s : State) (d cause lane drops : Nat) (targets : List PoisonTo) : State :=
  (s.each targets fun t s => s.emit (s.poisonForm t (poisonWord d cause lane))).countDrops d drops targets.length

/-! ### Wide values (R10) -/

/-- The place of a port's shadow of a wide register (R10, R17). -/
def shadowKey (p : Port) (r : Reg) (i : Nat) : Nat := portSeat p + 256 * (r.ctorIdx + 256 * i)

/-- A read of the low word of a wide value (R10): the upper words go to the port's shadow. -/
def State.wideRead (s : State) (p : Port) (r : Reg) (i : Nat) : State :=
  let v := s.regWord r i
  { s with shadows := Tbl.set 0 s.shadows (shadowKey p r i) (v / 2 ^ 32) } |>.emit (.readValue p (v % 2 ^ 32))

end Sys2Proof.Machine
end

