-- ==== Sys2Proof/Machine/FlitOps.lean ====
section
/-! DEFINITION. What a Plynik link puts on its lanes and reads from them (R265, R266, R268..R276): flits and their striping, the order of the virtual
lanes, messages on the control and bulk virtual lanes, and express slots. -/

namespace Sys2Proof.Machine

/-- Link `m` beside its registers. -/
def State.link (s : State) (m : Nat) : Link := Tbl.find Link.reset s.links m

/-- Changes link `m`. -/
def State.updLink (s : State) (m : Nat) (g : Link → Link) : State := { s with links := Tbl.set Link.reset s.links m (g (s.link m)) }

/-- Event source 113 + 2k of the octet of lane `l` (R263, R294). -/
def octetSource (l : Nat) : Nat := 113 + 2 * (l / 8)

/-- A bit of LNK_ERR whose first setting raises the source (R294). -/
def State.linkErr (s : State) (m : Nat) (f : Fld) : State :=
  (s.put f m 1).when (!s.on f m) (·.raiseOf (octetSource m) .LNK_ERR m)

/-- The lanes of a mask of link `m`. -/
def maskLanes (m mask : Nat) : List Nat := (bitsOf 8 mask).map (m + ·)

/-- How many lanes a mask names. -/
def widthOf (mask : Nat) : Nat := (bitsOf 8 mask).length

/-- The receiver of lane `l` delivers words (R245): its octet runs, and the lane has LOCK and no LOS. -/
def State.receives (s : State) (l : Nat) : Bool := s.runs (l / 8) && s.on .LANE_STAT_LOCK l && !s.on .LANE_STAT_LOS l

/-- The ports of a ring whose bypass is closed carry nothing (R248). -/
def State.bypassed (s : State) (m : Nat) : Bool := decide (140 ≤ m) && s.on .LNK_RING_STAT_BYPASS ((m - 140) / 2)

/-- Words leave on the lanes of link `m`: its octet runs (R97, R238), and it is no port of a ring whose bypass is closed (R248). -/
def State.sends (s : State) (m : Nat) : Bool := s.sideRuns (m / 8) && !s.bypassed m

/-- A word rate lies within the octet's WCLK (R237). -/
def State.withinWclk (s : State) (k rate : Nat) (pam4 : Bool) : Bool :=
  decide (rate ≤ s.fld .DEV_OCT_CLK_WCLK k * (if pam4 then 256 else 64))

/-! ### Flits (R265, R266, R268) -/

/-- The TYPE byte of a flit (R266): KIND 0 IDLE, 1 DATA, 2 EXPRESS, 3 MARKER. -/
def typeByte (vl kind : Nat) (first : Bool) : Byte := BitVec.ofNat 8 (vl + 4 * kind + 16 * b2n first)

/-- The KIND of a TYPE byte. -/
def kindOf (t : Byte) : Nat := t.toNat / 4 % 4

/-- The flits of a message on a virtual lane: bodies of 60 bytes, the last padded with zeros (R272). -/
def flitsOf (vl : Nat) (bytes : List Byte) (fire : Option (Nat × Nat × Nat)) : List Flit :=
  (List.range ((bytes.length + 59) / 60)).map fun k =>
    let b := (bytes.drop (60 * k)).take 60
    ⟨vl, k == 0, b ++ List.replicate (60 - b.length) 0, fire⟩

/-- A flit leaves on a lane of link `m` with three parity bytes of the lane's previous frame (R266). These are a free value: the code's field polynomial and
generator are given by no rule, and the IDLE flits of a frame are not shown (assumption 64). -/
def State.putFlit (s : State) (m lane : Nat) (seq : Option Nat) (bytes : List Byte) : State :=
  s.when (s.sends m) fun s => (s.emit (.flit m lane seq (bytes ++ le 3 (s.draw % 2 ^ 24)))).drew

/-- A marker leaves on every lane of a mask at the same place (R268): index, width, count, place of the next flit, and RESTRIPE. -/
def State.sendMarker (s : State) (m mask : Nat) (restripe : Bool) : State :=
  let x := s.link m
  let body := fun (i : Nat) => le 2 i ++ le 2 (widthOf mask) ++ le 4 x.marks ++ le 4 x.place ++ le 1 (b2n restripe) ++ List.replicate 47 0
  (s.each (bitsOf 8 mask) fun i s => s.putFlit m (m + i) none (body i ++ [typeByte 0 3 false])).updLink m fun y =>
    { y with marks := (y.marks + 1) % 2 ^ 32 }

/-- Every lane of the mask has sent one flit more: the first of every 1,024th frame of 16 is a marker (R267, R268). The IDLE flits of a lane with nothing to send are
not shown and not counted (DESIGN CHOICE, assumption 64). -/
def State.round (s : State) (m : Nat) : State :=
  let n := (s.link m).rounds + 1
  if n < 16383 then s.updLink m ({ · with rounds := n })
  else (s.updLink m ({ · with rounds := 0 })).sendMarker m (s.fld .LNK_STAT_MASK m) false

/-- A striped flit leaves on the next lane of the mask in ascending order (R265). -/
def State.stripe (s : State) (m vl : Nat) (first : Bool) (seq : Option Nat) (body : List Byte) : State :=
  let lanes := bitsOf 8 (s.fld .LNK_STAT_MASK m)
  let k := (s.link m).place % max 1 lanes.length
  let next := (k + 1) % max 1 lanes.length
  ((s.updLink m fun x => { x with place := next }).putFlit m (m + lanes.getD k 0) seq (body ++ [typeByte vl 1 first])).when (next == 0) (·.round m)

/-! ### Sending (R270, R271, R276) -/

/-- Link `m` may send a flit on a virtual lane: it is ACTIVE, its octet runs (R97), its replay buffer has room, and it holds credit
(R271, R276). -/
def State.mayFlit (s : State) (m vl : Nat) : Bool :=
  let x := s.link m
  s.fld .LNK_STAT_STATE m == 6 && s.sends m && decide (x.replay.length < 1024 * widthOf (s.fld .LNK_STAT_MASK m)) &&
    decide ((x.sent.getD vl 0 + 2 ^ 16 - x.credited.getD vl 0) % 2 ^ 16 < x.room.getD vl 0)

/-- The first flit of virtual lane `v` that link `m` may send. -/
def State.readyFlit (s : State) (m v : Nat) : Option Flit :=
  if s.mayFlit m v then (s.link m).queue.find? (·.vl == v) else none

/-- Positions go to other virtual lanes: they count while a bulk flit is ready and has credit (R270). -/
def State.passBulk (s : State) (m n : Nat) : State :=
  let ready := (s.readyFlit m 3).isSome
  s.updLink m fun x => { x with sinceBulk := if ready then x.sinceBulk + n else 0 }

/-- A replayable flit leaves (R276). -/
def State.sendFlit (s : State) (m : Nat) (f : Flit) : State :=
  let s := if f.vl = 3 then s.updLink m fun x => { x with sinceBulk := 0 } else s.passBulk m 1
  let q := (s.link m).txSeq
  let s := s.updLink m fun x => { x with
    queue := x.queue.erase f
    replay := x.replay ++ [(q, f)]
    txSeq := (q + 1) % 2 ^ 32
    sent := x.sent.set f.vl ((x.sent.getD f.vl 0 + 1) % 2 ^ 16) }
  (s.stripe m f.vl f.first (some q) f.body).perf 5 (m / 8) 0 1 none

/-- The next flit that link `m` may send, in the order of R270: control, data, bulk; but bulk has one position in every 32. -/
def State.nextFlit (s : State) (m : Nat) : Option Flit :=
  (if 31 ≤ (s.link m).sinceBulk then [3, 2, 0] else [2, 0, 3] : List Nat).findSome? (s.readyFlit m)

/-- Queued flits leave, as far as they may. -/
def State.pumpFlits : Nat → State → Nat → State
  | 0, s, _ => s
  | n + 1, s, m =>
    match s.nextFlit m with
    | some f => (s.sendFlit m f).pumpFlits n m
    | none => s

/-- A message of the firmware goes out on a virtual lane of link `m`, where the link carries traffic or will again without DORMANT (R269). -/
def State.postMessage (s : State) (m vl : Nat) (bytes : List Byte) : State :=
  if s.fld .LNK_STAT_STATE m = 6 || s.fld .LNK_STAT_STATE m = 7 then
    let s := s.updLink m fun x => { x with queue := x.queue ++ flitsOf vl bytes none }
    s.pumpFlits (s.link m).queue.length m
  else s

/-- A message on a ring port (R216..R233), on the control virtual lane. -/
def State.ringMessage (s : State) (port kind : Nat) (data : List Nat) : State :=
  (s.emit (.ring port kind data)).postMessage port 2 (Config.controlMessage 0 kind data)

/-- A letter to a stitch partner (R203, R208), on the control virtual lane. -/
def State.stitchMessage (s : State) (m kind : Nat) (data : List Nat) : State :=
  (s.emit (.stitch m kind data)).postMessage m 2 (Config.controlMessage 1 kind data)

/-! ### Express slots sent (R273..R275) -/

/-- ARG of a symbol from its fields, lowest first (R275). -/
def expressArg (code : Nat) (d : List Nat) : Nat :=
  let x := fun (i : Nat) => d.getD i 0
  match code with
  | 3 => x 0 % 2 ^ 16 + 2 ^ 16 * (x 1 % 2 ^ 16) + 2 ^ 32 * (x 2 % 2 ^ 16) + 2 ^ 48 * (x 3 % 2 ^ 16)
  | 7 => x 0 % 2 ^ 32 + 2 ^ 32 * (x 1 % 2 ^ 16)
  | 8 => x 0 % 32 + 2 ^ 8 * (x 1 % 2 ^ 8) + 2 ^ 16 * (x 2 % 2 ^ 16)
  | 10 => x 0 % 2 ^ 8 + 2 ^ 8 * (x 1 % 2) + 2 ^ 32 * (x 2 % 2 ^ 32)
  | _ => x 0 % 2 ^ 64

/-- BODY and TYPE of an express slot (R273): four copies of CODE, SEQ, ARG and their CRC-32. -/
def expressBytes (code seq arg : Nat) : List Byte :=
  let b := le 1 code ++ le 2 seq ++ le 8 arg
  let copy := b ++ le 4 (crc32 b)
  copy ++ copy ++ copy ++ copy ++ [typeByte 0 2 false]

/-- A slot leaves on every lane of the mask, or in PROBE on those both ends have (R274). -/
def State.emitSlot (s : State) (m code seq : Nat) (data : List Nat) : State :=
  let mask := s.fld .LNK_STAT_MASK m
  s.when (s.sends m) fun s =>
    (s.emit (.express m (maskLanes m (if mask = 0 then (s.link m).common else mask)) (expressBytes code seq (expressArg code data)))).when
      (s.fld .LNK_STAT_STATE m == 6) (·.round m)

/-- Of the slots that wait, only the newest RING_STOP of an origin (R275). -/
def holdSlot (code : Nat) (data : List Nat) (l : List (Nat × List Nat)) : List (Nat × List Nat) :=
  l.filter (fun e => !(code == 8 && e.1 == 8 && e.2.headD 0 == data.headD 0)) ++ [(code, data)]

/-- How many times an express slot is sent in succession, with one SEQ: a RING_STOP three times (R220, R274), as LEAVE is where R291 has it
repeated. -/
def slotTimes (code : Nat) : Nat := if code = 8 || code = 12 then 3 else 1

/-- Sends an express slot on link `m` under its next SEQ (R273). -/
def State.sendExpress (s : State) (m code : Nat) (data : List Nat) : State :=
  let q := (s.link m).expSeq
  (s.updLink m fun x => { x with expSeq := (q + 1) % 2 ^ 16 }).each (List.range (slotTimes code)) fun _ s => s.emitSlot m code q data

/-- Sends an express slot on link `m`; STOP, GO, WIDTH_REQ, LEAVE and RING_STOP wait while it is not ACTIVE (R275), and every slot while its octet does not run
(R97). -/
def State.linkExpress (s : State) (m code : Nat) (data : List Nat) : State :=
  let active := s.fld .LNK_STAT_STATE m == 6
  if active && s.sideRuns (m / 8) then s.when (!s.bypassed m) (·.sendExpress m code data)
  else if active || [1, 2, 8, 10, 12].contains code then s.updLink m fun x => { x with held := holdSlot code data x.held }
  else s

/-! ### Express slots received (R275) -/

/-- An express slot that no check accepts (R275). -/
def State.badExpress (s : State) (m : Nat) : State := (s.bump .LNK_CNT_EXP_EXPRESS_BAD m 1).linkErr m .LNK_ERR_EXPRESS_BAD

/-- The copies of a flit of KIND 2 that pass CHECK (R273). -/
def slotCopies (b : List Byte) : List (List Byte) :=
  if b.length = 61 && kindOf (b.getD 60 0) = 2 then
    (([0, 15, 30, 45].map fun i => (b.drop i).take 15).filter fun c => crc32 (c.take 11) == rd c 11 4)
  else []

/-- The copy that a slot is accepted with (R275): two that agree as the flit came, or else one of it after decoding. -/
def Slot.copy (x : Slot) : Option (List Byte) :=
  let early := slotCopies x.raw
  match early.find? fun c => decide (2 ≤ early.count c) with
  | some c => some c
  | none => (slotCopies x.decoded).head?

/-- The slot is accepted and says this symbol, under its SEQ; the ARG of one that its receiver does not read may be any. -/
def Slot.says (x : Slot) (code : Nat) (arg : Option Nat) : Bool :=
  match x.copy with
  | some c => rd c 0 1 == code && rd c 1 2 == x.seq.toNat && (match arg with
    | some a => rd c 3 8 == a
    | none => true)
  | none => false

/-- The SEQs accepted within the last 32,768 values of the newest, with a SEQ accepted now; the newest stands first (R275). -/
def acceptSeq (q : Nat) (seen : List Nat) : List Nat :=
  let behind := fun (a b : Nat) => (a + 2 ^ 16 - b) % 2 ^ 16
  let top := match seen with
    | [] => q
    | t :: _ => if behind q t < 32768 then q else t
  top :: (q :: seen).eraseDups.filter fun o => o != top && decide (behind top o < 32768)

/-- Bytes of a lane with a polarity that PROBE found inverted, or not, as the transmitting end had them (R265). -/
def upright (inverted : Bool) (b : List Byte) : List Byte := if inverted then b.map (~~~ ·) else b

/-- A slot is decided: counted where no check accepts it, ignored where its SEQ has been accepted within the last 32,768 values, and acted on otherwise. A
lane that delivers no words and a port that is bypassed give none. -/
def State.expressIn (s : State) (x : Slot) (code : Nat) (arg : Option Nat) (g : State → State) : State :=
  let q := x.seq.toNat
  let inverted := bitOf (s.link x.link).inverted x.lane
  let x := { x with raw := upright inverted x.raw, decoded := upright inverted x.decoded }
  if !s.receives (x.link + x.lane) || s.bypassed x.link then s
  else if !x.says code arg then s.badExpress x.link
  else if (s.link x.link).seen.contains q then s
  else g (s.updLink x.link fun y => { y with seen := acceptSeq q y.seen })

/-- A RING_STOP slot as one of its port. -/
def RingSlot.slot (x : RingSlot) (r : Fin 2) : Slot :=
  ⟨⟨140 + 2 * r.val + (if x.east then 1 else 0), by split <;> omega⟩, 0, x.seq, x.raw, x.decoded⟩

end Sys2Proof.Machine
end

