-- ==== Sys2Proof/Machine/NvmOps.lean ====
section
/-! DEFINITION. The internal non-volatile memory (R404..R407, R433..R437): its areas and blocks, their erases, spares and retirement, and the
slot directory. -/

namespace Sys2Proof.Machine

/-- Sets the configuration state. -/
def State.setConfig (s : State) (g : ConfigState → ConfigState) : State := { s with config := g s.config }

/-- Slot `n` of the directory. -/
def State.slot (s : State) (n : Nat) : NvmSlot := Tbl.find NvmSlot.blank s.config.slots n

/-- Sets a slot of the directory. -/
def State.setSlot (s : State) (n : Nat) (x : NvmSlot) : State :=
  s.setConfig fun c => { c with slots := Tbl.set NvmSlot.blank c.slots n x }

/-- KIND of a slot (R384, R407): 1 full, 2 region, 3 golden, 4 firmware; 0 where it is not VALID. -/
def State.slotKind (s : State) (n : Nat) : Nat :=
  if !(s.slot n).valid then 0
  else if n = 0 then 3 else if n ≤ 2 then 1 else if n ≤ 4 then 4 else 2

/-- The slots there are (R407). -/
def slotNumbers : List Nat := [0, 1, 2, 3, 4] ++ (List.range 35).map (16 + ·)

/-- The selected full slot (R407): slot 1 until the first CONFIG.SELECT. -/
def State.selected (s : State) : Nat := s.config.selected ^^^ 1

/-- The first logical block of a slot, and how many it has (R405). -/
def slotBlocks (n : Nat) : Nat × Nat :=
  if n = 0 then (292, 960) else if n = 1 then (1252, 960) else if n = 2 then (2212, 960)
  else if n = 3 then (4, 32) else if n = 4 then (36, 32) else (3172 + 24 * (n - 16), 24)

/-- The bit of CFG_NVM_STAT.RO_AREA that names the area of a logical block (R405, R438). -/
def areaOf (b : Nat) : Nat :=
  if b < 4 then 0 else if b < 68 then 1 else if b < 84 then 2 else if b < 148 then 3 else if b < 212 then 4
  else if b < 276 then 5 else if b < 292 then 6 else if b < 1252 then 7 else if b < 3172 then 8 else 9

/-- The area of a slot is read-only (R437). -/
def State.slotReadOnly (s : State) (n : Nat) : Bool := bitOf (s.fld .CFG_NVM_STAT_RO_AREA 0) (areaOf (slotBlocks n).1)

/-- The status word of a logical block's physical block (R433). -/
def State.block (s : State) (b : Nat) : NvmBlock := Tbl.find NvmBlock.fresh s.config.blocks b

/-- Keeps CFG_NVM_WEAR at the block that CFG_NVM_SEL names (R433). -/
def State.showWear (s : State) : State :=
  let b := s.fld .CFG_NVM_SEL_BLOCK 0
  let x := s.block b
  let s := (s.put .CFG_NVM_WEAR_ERASES 0 x.erases).put .CFG_NVM_WEAR_STATE 0 x.state
  s.put .CFG_NVM_WEAR_PHYS 0 (if x.spare = 0 then b else 4013 + x.spare)

/-- Sets the status word of a block. -/
def State.setBlock (s : State) (b : Nat) (x : NvmBlock) : State :=
  (s.setConfig fun c => { c with blocks := Tbl.set NvmBlock.fresh c.blocks b x }).showWear

/-- BUSY while an erase runs (R438). -/
def State.showErase (s : State) : State :=
  let s := s.put .CFG_NVM_STAT_BUSY 0 (b2n (!s.config.erasing.isEmpty))
  s.when s.config.erasing.isEmpty (·.put .CFG_NVM_STAT_SUSPENDED 0 0)

/-- A write of the directory (R406, R439): the copy that was not written last takes what holds now, with the next sequence number. -/
def State.directory (s : State) : State :=
  (s.setConfig fun c => { c with dirOld := c.dirNew, dirNew := ⟨c.dirNew.seq + 1, c.slots, c.selected⟩ }).raise 231

/-- An area becomes read-only for want of a spare (R437). -/
def State.areaReadOnly (s : State) (b : Nat) : State :=
  ((s.orFld .CFG_NVM_STAT_RO_AREA 0 (2 ^ areaOf b)).put .CFG_NVM_ERR_READ_ONLY 0 1).raise 228

/-- A block's physical block is retired and a spare takes its place, ERASED (R436): recorded in the directory; source 227 as eight spares
remain and at each retirement after. With none left the area becomes read-only. -/
def State.retire (s : State) (b : Nat) : State :=
  let left := s.fld .CFG_NVM_STAT_SPARES 0
  if b < 4 then s
  else if left = 0 then s.areaReadOnly b
  else
    let s := s.setBlock b ⟨0, 0, 83 - left⟩
    let s := ((s.put .CFG_NVM_STAT_SPARES 0 (left - 1)).put .CFG_NVM_ERR_RETIRED 0 1).raise 226
    (s.when (left ≤ 9) (·.raise 227)).directory

/-- Erase of a block begins (R433, R436): a worn block is replaced first. `true` where it runs. -/
def State.startErase (s : State) (b : Nat) : State × Bool :=
  let worn := decide (200000 ≤ (s.block b).erases)
  if worn && (b < 4 || s.fld .CFG_NVM_STAT_SPARES 0 == 0) then (if b < 4 then s else s.areaReadOnly b, false)
  else
    let s := if worn then s.retire b else s
    let x := s.block b
    let s := s.setBlock b { x with erases := min (x.erases + 1) (2 ^ 18 - 1), state := 2 }
    ((s.setConfig fun c => { c with erasing := c.erasing ++ [b] }).showErase, true)

/-- A program of an erased block sets its STATE to WRITTEN (R433). -/
def State.program (s : State) (b : Nat) : State := s.setBlock b { s.block b with state := 1 }

/-- Record `n` of 64 bytes goes into an area of 64 blocks from block `first` on that is written circularly (R228, R342, R433): the first of a block
programs it, and, once only one free block is left, begins the erase of the oldest, which follows it. -/
def State.areaRecord (s : State) (first n : Nat) : State :=
  if n % 4096 ≠ 0 then s
  else
    let s := s.program (first + n / 4096 % 64)
    if n < 63 * 4096 then s else (s.startErase (first + (n / 4096 + 1) % 64)).1

/-- The root area is read-only (R437). -/
def State.rootReadOnly (s : State) : Bool := bitOf (s.fld .CFG_NVM_STAT_RO_AREA 0) 3

/-- The lease journal is read-only (R437). -/
def State.journalReadOnly (s : State) : Bool := bitOf (s.fld .CFG_NVM_STAT_RO_AREA 0) 4

/-- The device writes a record into the lease journal (R228). -/
def State.journal (s : State) : State :=
  if s.journalReadOnly then s
  else { s with lease := { s.lease with journalled := s.lease.journalled + 1 } }.areaRecord 148 s.lease.journalled

/-- Blocks whose STATE is ERASING and whose erase does not run carry the erase-incomplete marker (R435). -/
def State.marked (s : State) : List Nat :=
  (s.config.blocks.filter (fun e => e.2.state == 2 && !s.config.erasing.contains e.1)).map (·.1)

/-- Corrected and uncorrectable words of a read (R404): a corrected one is counted; an uncorrectable one names its block in the first case and
raises source 230. -/
def State.nvmRead (s : State) (corrected : Nat) (uncorr : Option Nat) : State :=
  let s := s.when (corrected != 0) fun s => (s.put .CFG_NVM_ERR_CORR 0 1).bump .CFG_NVM_CNT_CORR_CNT 0 corrected
  match uncorr with
  | none => s
  | some b =>
    let s := s.when (!s.on .CFG_NVM_ERR_UNCORR 0) (·.put .CFG_NVM_ERR_BLOCK 0 b)
    ((s.put .CFG_NVM_ERR_UNCORR 0 1).bump .CFG_NVM_CNT_UNCORR_CNT 0 1).raise 230

/-- A read of an image from the internal memory suspends the erases that run (R426, R434). -/
def State.suspendErases (s : State) : State := s.when (!s.config.erasing.isEmpty) (·.put .CFG_NVM_STAT_SUSPENDED 0 1)

/-- CFG_FAIL records a failure unless FALLBACK is 1 (R414). -/
def State.recordFail (s : State) (slot : Nat) (x : Nat × Nat) : State :=
  s.when (!s.on .CFG_STAT_FALLBACK 0) fun s =>
    ((s.put .CFG_FAIL_SLOT 0 slot).put .CFG_FAIL_CAUSE 0 x.1).put .CFG_FAIL_SEGMENT 0 x.2

end Sys2Proof.Machine
end

