-- ==== Sys2Proof/Machine/Crypto.lean ====
section
/-! DEFINITION. The modes of AES-256 and SHA-256 that the manual names, over those two functions themselves: XTS (R324, R339), the tags of R325,
GCM (R410), HMAC (R231, R411, R505, R506) and key wrap (R505, R507). A block, key or digest is a number whose least significant byte is its first. -/

namespace Sys2Proof.Machine

/-! ### Blocks -/

/-- The 16-byte blocks of a value, `n` of them, the first from its least significant bytes. -/
def blocksOf : Nat → Nat → List (BitVec 128)
  | 0, _ => []
  | n + 1, v => BitVec.ofNat 128 v :: blocksOf n (v / 2 ^ 128)

/-- The value that blocks spell. -/
def ofBlocks : List (BitVec 128) → Nat
  | [] => 0
  | b :: t => b.toNat + 2 ^ 128 * ofBlocks t

/-- A byte string as blocks, the last padded with zeros. -/
def padBlocks (bs : List Byte) : List (BitVec 128) := blocksOf ((bs.length + 15) / 16) (ofLe bs)

/-- ASCII text as bytes, from its codes. -/
def ascii (codes : List Nat) : List Byte := codes.map (BitVec.ofNat 8)

/-! ### XTS (IEEE Std 1619) -/

/-- A tweak's product with the primitive element. -/
def xtsNext (t : BitVec 128) : BitVec 128 := (t <<< 1) ^^^ (if t.msb then 0x87#128 else 0#128)

/-- Every block of a data unit through a cipher between two additions of its tweak. -/
def xtsUnit (f : BitVec 128 → BitVec 128) : BitVec 128 → List (BitVec 128) → List (BitVec 128)
  | _, [] => []
  | t, b :: rest => (f (b ^^^ t) ^^^ t) :: xtsUnit f (xtsNext t) rest

/-- XTS encryption of a data unit under a pair of keys. -/
def xtsEncrypt (k1 k2 : BitVec 256) (tweak : BitVec 128) (u : List (BitVec 128)) : List (BitVec 128) :=
  xtsUnit (Config.aes k1) (Config.aes k2 tweak) u

/-- XTS decryption. -/
def xtsDecrypt (k1 k2 : BitVec 256) (tweak : BitVec 128) (u : List (BitVec 128)) : List (BitVec 128) :=
  xtsUnit (Config.aes k1).symm (Config.aes k2 tweak) u

/-! ### GHASH and GCM (NIST SP 800-38D) -/

/-- A block with its bytes in the other order: its first byte most significant. -/
def swapBytes (x : BitVec 128) : BitVec 128 := BitVec.ofNat 128 (ofLe (le 16 x.toNat).reverse)

/-- The product of GHASH's field; a block's first bit is its most significant here. -/
def ghashMul (x y : BitVec 128) : BitVec 128 :=
  ((List.range 128).foldl (fun (a : BitVec 128 × BitVec 128) i =>
    (if x.getLsbD (127 - i) then a.1 ^^^ a.2 else a.1, if a.2.getLsbD 0 then (a.2 >>> 1) ^^^ (0xE1#128 <<< 120) else a.2 >>> 1))
    (0#128, y)).1

/-- GHASH of blocks under a hash subkey. -/
def ghash (h : BitVec 128) (bs : List (BitVec 128)) : BitVec 128 :=
  swapBytes (bs.foldl (fun y x => ghashMul (y ^^^ swapBytes x) (swapBytes h)) 0#128)

/-- The 128-bit tag of blocks under a tag key and a nonce (R325, R339). -/
def blockTag (key : BitVec 256) (nonce : BitVec 128) (bs : List (BitVec 128)) : BitVec 128 :=
  ghash (Config.aes key 0#128) bs ^^^ Config.aes key nonce

/-- The counter block `n` of a 96-bit IV. -/
def gcmCounter (iv : List Byte) (n : Nat) : BitVec 128 := BitVec.ofNat 128 (ofLe (iv ++ (le 4 n).reverse))

/-- GCM's counter mode: what a text becomes in either direction. -/
def gcmCrypt (key : BitVec 256) (iv text : List Byte) : List Byte :=
  let pad := (List.range ((text.length + 15) / 16)).flatMap fun i => le 16 (Config.aes key (gcmCounter iv (i + 2))).toNat
  List.zipWith (· ^^^ ·) text pad

/-- GCM's 128-bit tag of a ciphertext and its additional data. -/
def gcmTag (key : BitVec 256) (iv aad cipher : List Byte) : BitVec 128 :=
  let lens := ofLe ((le 8 (8 * aad.length)).reverse ++ (le 8 (8 * cipher.length)).reverse)
  ghash (Config.aes key 0#128) (padBlocks aad ++ padBlocks cipher ++ [BitVec.ofNat 128 lens]) ^^^ Config.aes key (gcmCounter iv 1)

/-! ### HMAC-SHA-256 -/

/-- HMAC-SHA-256 under a 256-bit key. -/
def hmac (key : BitVec 256) (msg : List Byte) : BitVec 256 :=
  let k := le 32 key.toNat ++ List.replicate 32 0#8
  let inner := Config.sha256 (k.map (· ^^^ 0x36#8) ++ msg)
  Config.sha256 (k.map (· ^^^ 0x5C#8) ++ le 32 inner.toNat)

/-! ### Key wrap (NIST SP 800-38F, KW) -/

/-- One step of wrapping: the integrity word with the half that step `t` of 24 takes. -/
def wrapStep (key : BitVec 256) (x : Nat × List Nat) (t : Nat) : Nat × List Nat :=
  let i := (t - 1) % 4
  let b := (Config.aes key (BitVec.ofNat 128 (x.1 + 2 ^ 64 * x.2.getD i 0))).toNat
  ((b % 2 ^ 64) ^^^ (t * 2 ^ 56), x.2.set i (b / 2 ^ 64))

/-- One step of unwrapping. -/
def unwrapStep (key : BitVec 256) (x : Nat × List Nat) (t : Nat) : Nat × List Nat :=
  let i := (t - 1) % 4
  let b := ((Config.aes key).symm (BitVec.ofNat 128 ((x.1 ^^^ (t * 2 ^ 56)) + 2 ^ 64 * x.2.getD i 0))).toNat
  (b % 2 ^ 64, x.2.set i (b / 2 ^ 64))

/-- The word that wrapping starts from, and unwrapping must end with. -/
def wrapWord : Nat := 0xA6A6A6A6A6A6A6A6

/-- The 40-byte record of a 256-bit key under another. -/
def wrapKey (key k : BitVec 256) : List Byte :=
  let x := ((List.range 24).map (· + 1)).foldl (wrapStep key) (wrapWord, (List.range 4).map fun i => k.toNat / 2 ^ (64 * i) % 2 ^ 64)
  le 8 x.1 ++ x.2.flatMap (le 8)

/-- The key that a 40-byte record holds; none where its integrity check fails. -/
def unwrapKey (key : BitVec 256) (r : List Byte) : Option (BitVec 256) :=
  let x := ((List.range 24).map (24 - ·)).foldl (unwrapStep key) (rd r 0 8, (List.range 4).map fun i => rd r (8 + 8 * i) 8)
  if x.1 = wrapWord then some (BitVec.ofNat 256 (ofLe (x.2.flatMap (le 8)))) else none

end Sys2Proof.Machine
end

