-- ==== Sys2Proof/Machine/SealOps.lean ====
section
/-! DEFINITION. What lies in the stacks (R296, R319) and what a line seal engine makes of it: addresses, counters and their tree (R326, R328), the tweak
and encryption of a line (R324), tags of lines and nodes (R325, R326). -/

namespace Sys2Proof.Machine

/-! ### Addresses (R296, R319, R328) -/

/-- The stack and the slice of a line. -/
def lineStack (l : Nat) : Nat := l / 2 ^ 6 % 4
def lineSlice (l : Nat) : Nat := l / 2 ^ 8 % 32

/-- The granule of a line. -/
def lineGranule (l : Nat) : Nat := l / 2 ^ 24

/-- The lines of a group, the 4 KiB block of a line. -/
def sameGroup (l k : Nat) : Bool := l / 64 == k / 64

/-- The index in its stack of the node of a level that covers a line. -/
def nodeIndex (level l : Nat) : Nat :=
  match level with
  | 1 => l / 2 ^ 8
  | 2 => l / 2 ^ 14
  | 3 => l / 2 ^ 20
  | _ => l / 2 ^ 24

/-- The place of a node in the tables of the seal engines. -/
def nodeKey (level stack i : Nat) : Nat := (level * 4 + stack) * 2 ^ 24 + i

/-- How many children a node one level up has. -/
def arity (level : Nat) : Nat := if level = 3 then 16 else 64

/-- The granule that the node of a level covers a part of. -/
def nodeGranule (level i : Nat) : Nat := i / (if level = 1 then 65536 else if level = 2 then 1024 else if level = 3 then 16 else 1)

/-- Changes memory and coherence. -/
def State.setMem (s : State) (g : MemState → MemState) : State := { s with memo := g s.memo }

/-- Changes the line seal state. -/
def State.setSeal (s : State) (g : SealState → SealState) : State := { s with seals := g s.seals }

/-- A granule's state (R320). -/
def State.granule (s : State) (g : Nat) : Nat := s.fld .SEAL_GRAN_STATE g

/-- A line lies in a SEALED granule. -/
def State.isSealed (s : State) (l : Nat) : Bool := s.granule (lineGranule l) == 1

/-! ### The bytes of the stacks -/

/-- What the stack holds of line `l`, byte 0 least significant. -/
def State.rawLine (s : State) (l : Nat) : Nat := ofLe ((List.range 64).map fun k => Tbl.find 0 s.memo.bytes (64 * l + k))

/-- Writes a list of bytes from an address on. -/
def putBytes : Tbl Byte → Nat → List Byte → Tbl Byte
  | m, _, [] => m
  | m, a, b :: t => putBytes (Tbl.set 0 m a b) (a + 1) t

/-- Sets what the stack holds of line `l`. -/
def State.putRaw (s : State) (l v : Nat) : State := s.setMem fun m => { m with bytes := putBytes m.bytes (64 * l) (le 64 v) }

/-! ### Sealed lines (R323..R325) -/

/-- A key of line seal engine `k` (R323): 0 and 1 the XTS pair, 2 the tag key. -/
def State.sealKey (s : State) (k j : Nat) : BitVec 256 := BitVec.ofNat 256 (s.seals.keys.getD (3 * k + j) 0)

/-- The tweak of a sealed line, and the nonce of its tag (R324). -/
def State.lineNonce (s : State) (l : Nat) : BitVec 128 :=
  let major := Tbl.find 0 s.seals.nodeMajor (nodeKey 1 (lineStack l) (nodeIndex 1 l))
  BitVec.ofNat 128 (l % 2 ^ 32 + 2 ^ 32 * (Tbl.find 0 s.seals.minors l % 2 ^ 7) + 2 ^ 40 * (major % 2 ^ 64) +
    2 ^ 104 * s.fld .SEAL_GRAN_EPOCH (lineGranule l))

/-- What a line's value becomes under its tweak (R324). -/
def State.encryptLine (s : State) (l v : Nat) : Nat :=
  let k := lineStack l
  ofBlocks (xtsEncrypt (s.sealKey k 0) (s.sealKey k 1) (s.lineNonce l) (blocksOf 4 v))

/-- The value of a line from its four cipher blocks (R324). -/
def State.decryptLine (s : State) (l c : Nat) : Nat :=
  let k := lineStack l
  ofBlocks (xtsDecrypt (s.sealKey k 0) (s.sealKey k 1) (s.lineNonce l) (blocksOf 4 c))

/-- The 64-bit tag of a line's ciphertext (R325). -/
def State.lineTag (s : State) (l c : Nat) : Nat := (blockTag (s.sealKey (lineStack l) 2) (s.lineNonce l) (blocksOf 4 c)).toNat % 2 ^ 64

/-- What the stack holds of a sealed line: what was last written, or the zeros that its conversion sealed (R322). -/
def State.sealedLine (s : State) (l : Nat) : Nat :=
  if (Tbl.find none s.seals.tags l).isSome then s.rawLine l else s.encryptLine l 0

/-- The tag slot of a sealed line. -/
def State.tagSlot (s : State) (l : Nat) : Nat := (Tbl.find none s.seals.tags l).getD (s.lineTag l (s.sealedLine l))

/-- The value that line `l` holds. -/
def State.lineAt (s : State) (l : Nat) : Nat := if s.isSealed l then s.decryptLine l (s.sealedLine l) else s.rawLine l

/-- Writes a sealed line under its counters, and its tag slot. -/
def State.putSealed (s : State) (l v : Nat) : State :=
  let c := s.encryptLine l v
  let t := s.lineTag l c
  (s.putRaw l c).setSeal fun x => { x with tags := Tbl.set none x.tags l (some t) }

/-- Sets line `l` to a value. -/
def State.putLine (s : State) (l v : Nat) : State := if s.isSealed l then s.putSealed l v else s.putRaw l v

/-! ### Counter blocks and nodes (R326, R328) -/

/-- The 64 bytes of a counter block or node: its major, and a minor of 7 bits for each line or child. -/
def State.nodeValue (s : State) (level stack i : Nat) : Nat :=
  let minor := fun j => if level = 1 then Tbl.find 0 s.seals.minors (i * 2 ^ 8 + stack * 64 + j)
    else if j < arity (level - 1) then Tbl.find 0 s.seals.childMinor (nodeKey (level - 1) stack (i * arity (level - 1) + j)) else 0
  (List.range 64).foldl (fun v j => v + 2 ^ (64 + 7 * j) * minor j) (Tbl.find 0 s.seals.nodeMajor (nodeKey level stack i) % 2 ^ 64)

/-- The nonce of a node's tag (R326): a granule node takes its root entry as its parent's major and 0 as the minor. -/
def State.nodeNonce (s : State) (level stack i : Nat) : BitVec 128 :=
  let minor := if 4 ≤ level then 0 else Tbl.find 0 s.seals.childMinor (nodeKey level stack i)
  let major := if 4 ≤ level then Tbl.find 0 s.seals.roots (stack * 256 + i)
    else Tbl.find 0 s.seals.nodeMajor (nodeKey (level + 1) stack (i / arity level))
  BitVec.ofNat 128 (i % 2 ^ 24 + 2 ^ 24 * (level - 1) + 2 ^ 32 * (minor % 2 ^ 7) + 2 ^ 39 + 2 ^ 40 * (major % 2 ^ 64) +
    2 ^ 104 * s.fld .SEAL_GRAN_EPOCH (nodeGranule level i))

/-- The 64-bit tag of a node under its parent's counters. -/
def State.nodeTag (s : State) (level stack i : Nat) : Nat :=
  (blockTag (s.sealKey stack 2) (s.nodeNonce level stack i) (blocksOf 4 (s.nodeValue level stack i))).toNat % 2 ^ 64

/-- Tags a node as it is written to the metadata area. -/
def State.tagNode (s : State) (level stack i : Nat) : State :=
  let t := s.nodeTag level stack i
  s.setSeal fun x => { x with nodeTags := Tbl.set none x.nodeTags (nodeKey level stack i) (some t) }

/-- A node in the metadata area checks against its parent's counters (R329): one that was not written since its conversion does. -/
def State.nodeChecks (s : State) (level stack i : Nat) : Bool :=
  match Tbl.find none s.seals.nodeTags (nodeKey level stack i) with
  | some t => t == s.nodeTag level stack i
  | none => true

end Sys2Proof.Machine
end

