-- ==== Sys2Proof/Machine/StoreOps.lean ====
section
/-! DEFINITION. What the store holds (R335..R345): volumes, sealed volumes' counters and root records, going online and offline; and
the data that an INDIRECT letter names in stacked memory (R361). -/

namespace Sys2Proof.Machine

/-! ### Stacked memory as the firmware reads it -/

/-- The home serves line `l`: its stack is filled, its domain runs, no resynchronisation is in progress, no slice tests it, and its granule
is not being converted (R313, R314, R315, R322, R515). -/
def State.homeOpen (s : State) (l : Nat) : Bool :=
  let k := lineStack l
  s.on .MEM_STK_STAT_FILL_DONE k && s.runs (18 + k) && !s.isHeld (18 + k) && !s.on .MEM_STK_STAT_RESYNC k &&
    (s.secure.run.map (·.now)) != some (492 + k) && s.granule (lineGranule l) != 2

/-- The place of a cached line. -/
def cacheKey (a l : Nat) : Nat := a * 2 ^ 32 + l

/-- A line as agent `a` holds it. -/
def State.cached (s : State) (a l : Nat) : CLine := Tbl.find CLine.invalid s.memo.caches (cacheKey a l)

/-- What its slice holds of line `l`. -/
def State.dirAt (s : State) (l : Nat) : DirLine := Tbl.find DirLine.idle s.memo.dir l

/-- DATA_E that passes on an owner's data, which memory does not hold (R303), says so to its receiver. -/
def dirtyGrant : Nat := 16

/-- A message carries a value of its line that memory does not hold (R303). -/
def Msg.dirty (m : Msg) : Bool := decide (m.kind = .rspData) || (decide (m.kind = .dataE) && m.aux == dirtyGrant)

/-- The value of a line where memory does not hold it (R306): obtained by the request in service, on its way, or in its owner's cache; after a reset of the home,
an agent's that the directory does not list. -/
def State.heldValue (s : State) (l : Nat) : Option Nat :=
  let d := s.dirAt l
  let onWay := (s.memo.wire.find? fun m => m.line == l && m.dirty).map (·.data)
  let owned := fun (x : CLine) => if x.st = 3 then some x.data else none
  let stray := (s.memo.caches.find? fun e => e.1 % 2 ^ 32 == l && e.2.st == 3 && !e.2.wb).map (·.2.data)
  d.txn.bind (·.data) <|> onWay <|> (if d.st = 2 then owned (s.cached d.owner l) else stray)

/-- The current value of a byte of stacked memory (R306). -/
def State.byteNow (s : State) (a : Nat) : Byte :=
  match s.heldValue (a / 64) with
  | some v => BitVec.ofNat 8 (v / 256 ^ (a % 64))
  | none => if s.isSealed (a / 64) then BitVec.ofNat 8 (s.lineAt (a / 64) / 256 ^ (a % 64)) else Tbl.find 0 s.memo.bytes a

/-- The lines that `n` bytes from address `a` touch. -/
def linesAt (a n : Nat) : List Nat := (List.range ((a % 64 + n + 63) / 64)).map (a / 64 + ·)

/-- A write that waits for its homes touches line `l`. -/
def State.writing (s : State) (l : Nat) : Bool := s.memo.writes.any fun w => (linesAt w.at_ w.bytes.length).contains l

/-- The first line of a range that cannot be read now: its home does not serve it, or a write to it waits. -/
def State.closedLine (s : State) (a n : Nat) : Option Nat := (linesAt a n).find? fun l => !s.homeOpen l || s.writing l

/-- The bytes of stacked memory that an INDIRECT letter names (R361); none where a line of them cannot be read (R310, R330). -/
def State.indirectLines (s : State) (a n : Nat) : Option (List Byte) :=
  if (List.range ((n + 63) / 64)).any (fun k => Tbl.find 0 s.seals.failing (a / 64 + k) != 0) then none
  else some ((List.range n).map fun k => s.byteNow (a + k))

/-! ### Volumes -/

/-- Changes the store. -/
def State.setStore (s : State) (g : StoreState → StoreState) : State := { s with store := g s.store }

/-- The volume of an identifier; a duplicate that was refused (R344) is not it, nor is one that no label lists (R343). -/
def State.vol (s : State) (uid : Nat) : Option Volume := s.store.vols.find? fun v => v.uid == uid && v.cause != 4 && v.state != 3

/-- Changes the volume of an identifier. -/
def State.updVol (s : State) (uid : Nat) (g : Volume → Volume) : State :=
  s.setStore fun x => { x with vols := x.vols.map fun v => if v.uid = uid && v.cause != 4 then g v else v }

/-- The volume is open. -/
def State.volOpen (s : State) (uid : Nat) : Bool := s.store.opens.any (·.uid == uid)

/-- The open volume of a handle index. -/
def State.openAt (s : State) (i : Nat) : Option OpenVol := s.store.opens.find? (·.idx == i)

/-- A volume is dirty: a sealed one with writes that no commit covers (R341). -/
def Volume.isDirty (v : Volume) : Bool := v.isSealed && !v.fresh.isEmpty

/-- The commit interval, in µs (R341). -/
def State.interval (s : State) : Nat := 1000 * (s.store.interval ^^^ 100)

/-- Keeps SEAL_STORE_STAT true to the volumes (R341, R346); source 163 as STRETCHED is set (R347). -/
def State.showStore (s : State) : State :=
  let n := (s.store.vols.filter Volume.isDirty).length
  let stretched := decide (s.interval < n * 15625)
  let was := s.on .SEAL_STORE_STAT_STRETCHED 0
  let s := s.put .SEAL_STORE_STAT_COMMITTING 0 (b2n (s.store.vols.any fun v => v.isSealed && v.step != 0))
  let s := s.put .SEAL_STORE_STAT_ONLINE 0 (min 1023 (s.store.vols.filter (fun v => v.isSealed && v.state == 0)).length)
  (s.put .SEAL_STORE_STAT_STRETCHED 0 (b2n stretched)).when (stretched && !was) (·.raise 163)

/-- The later of two records. -/
def RootRec.later (best : Option RootRec) (r : RootRec) : Option RootRec :=
  match best with
  | some b => if b.epoch < r.epoch then some r else some b
  | none => some r

/-- Bytes 0–59 of a root record (R342). -/
def RootRec.bytes (r : RootRec) (height : Nat) : List Byte :=
  le 8 r.uid ++ le 8 r.epoch ++ le 8 r.counter ++ le 16 r.tag ++ le 1 height ++ le 1 (b2n r.slot + 2 * b2n r.unclean + 4 * b2n r.retired) ++ le 2 0 ++
    le 8 r.blocks ++ le 8 0

/-- The least h, at least 1, with 128^h blocks (R340). -/
def treeHeight (blocks : Nat) : Nat := ((List.range 6).find? (fun h => decide (blocks ≤ 128 ^ (h + 1)))).getD 5 + 1

/-- The CRC-32 of a record (R342). -/
def RootRec.code (r : RootRec) : Nat := crc32 (r.bytes (treeHeight r.blocks))

/-- The root record in force of a volume: of its records in the root area whose CRC holds, that with the highest EPOCH (R342). -/
def State.rootOf (s : State) (uid : Nat) : Option RootRec :=
  (s.store.roots.filter fun r => r.uid == uid && r.crc == r.code).foldl RootRec.later none

/-- The records of a block of the root area that are in force. -/
def liveRoots (all block : List RootRec) : List RootRec :=
  block.filter fun r => r.crc == r.code && all.all fun q => q.uid != r.uid || q.crc != q.code || decide (q.epoch ≤ r.epoch)

/-- Writes a root record (R342): the store epoch rises by 1. The root area is written circularly: as 63 of its 64 blocks of 4,096 records are full, the live
records of the oldest are copied forward before it is erased. A read-only area takes nothing (R437). -/
def State.writeRoot (s : State) (r : RootRec) : State :=
  if s.rootReadOnly then s
  else
    let x := s.store
    let full := decide (63 * 4096 ≤ x.roots.length)
    let live := if full then liveRoots x.roots (x.roots.take 4096) else []
    let n := live.length + 1
    let r := { r with epoch := x.epoch + 1 }
    let s := s.setStore fun x => { x with
      epoch := x.epoch + 1
      roots := (if full then x.roots.drop 4096 else x.roots) ++ live ++ [{ r with crc := r.code }]
      written := x.written + n }
    s.each (List.range n) fun k s => s.areaRecord 84 (x.written + k)

/-- Blocks of a volume. -/
def Volume.blocks (v : Volume) : Nat := v.size * 256

/-! ### The seal of a volume (R339, R340, R506) -/

/-- A key of a sealed volume (R506): 1 and 2 the XTS pair, 3 the tag key. -/
def State.volKey (s : State) (uid k : Nat) : BitVec 256 :=
  hmac (BitVec.ofNat 256 s.secure.ks) (ascii [0x56, 0x4F, 0x4C, 0x58] ++ le 1 k ++ le 8 uid)

/-- The tweak of a block (level 0) and the nonce of its tag, or of a node's (R339). -/
def volNonce (level i counter : Nat) : BitVec 128 :=
  BitVec.ofNat 128 (i % 2 ^ 36 + 2 ^ 36 * (level % 8) + (if level = 0 then 0 else 2 ^ 63) + 2 ^ 64 * (counter % 2 ^ 64))

/-- A block of a sealed volume as it goes to the drive under a counter (R339). -/
def State.encryptBlock (s : State) (uid b counter v : Nat) : Nat :=
  ofBlocks (xtsEncrypt (s.volKey uid 1) (s.volKey uid 2) (volNonce 0 b counter) (blocksOf 256 v))

/-- A block of a sealed volume as it comes from the drive (R339). -/
def State.decryptBlock (s : State) (uid b counter c : Nat) : Nat :=
  ofBlocks (xtsDecrypt (s.volKey uid 1) (s.volKey uid 2) (volNonce 0 b counter) (blocksOf 256 c))

/-- The 128-bit tag of a block's ciphertext (level 0), or of a node (R339, R340). -/
def State.volTag (s : State) (uid level i counter c : Nat) : Nat :=
  (blockTag (s.volKey uid 3) (volNonce level i counter) (blocksOf 256 c)).toNat

/-- The counter of a block with the writes that no commit covers. -/
def Volume.counter (v : Volume) (b : Nat) : Nat := Tbl.find 0 v.ctr b + Tbl.find 0 v.snap b + Tbl.find 0 v.fresh b

/-- The place of a node in the tables of a volume. -/
def volNode (level i : Nat) : Nat := level * 2 ^ 36 + i

/-- The 32-byte entry of a child, a block at level 0 (R340): its counter, its tag, and which copy of a node is current. -/
def Volume.entry (v : Volume) (level i : Nat) : Nat :=
  if level = 0 then Tbl.find 0 v.ctr i % 2 ^ 64 + 2 ^ 64 * Tbl.find 0 v.leafTags i
  else
    let c := Tbl.find 0 v.nodes (volNode level i)
    c % 2 ^ 64 + 2 ^ 64 * Tbl.find 0 v.nodeTags (volNode level i) + 2 ^ 192 * (c % 2)

/-- The 4 KiB of a node: the entries of its 128 children (R340). -/
def Volume.node (v : Volume) (level i : Nat) : Nat :=
  (List.range 128).foldl (fun n j => n + 2 ^ (256 * j) * v.entry (level - 1) (128 * i + j)) 0

/-- The nodes above written blocks take new tags, from leaf to top (R341 step 3). -/
def State.tagNodes (s : State) (h : Nat) (blocks : List Nat) (v : Volume) : Volume :=
  (List.range h).foldl (fun v k =>
    ((blocks.map (· / 128 ^ (k + 1))).eraseDups).foldl (fun (v : Volume) i =>
      let t := s.volTag v.uid (k + 1) i (Tbl.find 0 v.nodes (volNode (k + 1) i)) (v.node (k + 1) i)
      { v with nodeTags := Tbl.set 0 v.nodeTags (volNode (k + 1) i) t }) v) v

/-- MiB of a volume's node area (R340): two copies of each node. -/
def nodeMiB (blocks : Nat) : Nat :=
  let n := (List.range (treeHeight blocks)).foldl (fun n k => n + (blocks + 128 ^ (k + 1) - 1) / 128 ^ (k + 1)) 0
  (2 * n + 255) / 256

/-- MiB that a volume takes on its namespace. -/
def volumeMiB (isSealed : Bool) (size : Nat) : Nat := if isSealed then size + nodeMiB (size * 256) else size

/-- An extent of `n` MiB from `a` meets none of a list and ends by `limit`. -/
def extentFree (es : List (Nat × Nat)) (limit a n : Nat) : Bool :=
  decide (a + n ≤ limit) && es.all fun e => decide (a + n ≤ e.1) || decide (e.1 + e.2 ≤ a)

/-- The lowest free extent of `n` MiB, which begins at `first` or at the end of another. -/
def freeExtent (first : Nat) (es : List (Nat × Nat)) (limit n : Nat) : Option Nat :=
  (first :: es.map (fun e => e.1 + e.2)).foldl (fun (best : Option Nat) a =>
    if extentFree es limit a n then (match best with
      | some b => some (min a b)
      | none => some a) else best) none

/-- A free range of the store address space for a volume of `size` MiB that comes online (R337): the lowest. -/
def State.rangeFor (s : State) (uid size : Nat) : Option Nat :=
  freeExtent 0 ((s.store.vols.filter fun v => v.state == 0 && v.uid != uid).map fun v => (v.base, v.size)) (2 ^ 28) size

/-- An error of the store is flagged; the volume of the first while SEAL_STORE_ERR is 0 is shown (R346). -/
def State.storeErr (s : State) (f : Fld) (uid : Nat) : State :=
  (s.when (s.regWord .SEAL_STORE_ERR 0 == 0) (·.put .SEAL_STORE_ERRVOL_VOLUME 0 (Config.volumeIndex uid).toNat)).put f 0 1

/-- The top node's current copy, as the drive holds it, checks against the record in force (R343). -/
def State.topChecks (s : State) (v : LabelVol) (r : RootRec) : Bool :=
  s.volTag v.uid.toNat (treeHeight r.blocks) 0 r.counter v.top.toNat == r.tag

/-- A volume is sealed: its label says so, or a root record for it is in force on this device, since SEALED cannot be changed (R337; DEDUCED, assumption 96). -/
def State.sealedVol (s : State) (v : LabelVol) : Bool := v.isSealed || (s.rootOf v.uid.toNat).isSome

/-- The checks of R343 and R344 in their order: the cause for which a volume is refused, 0 none. -/
def State.refusal (s : State) (v : LabelVol) : Nat :=
  if s.store.vols.any (fun w => w.uid == v.uid.toNat && w.state == 0) then 4
  else if !s.sealedVol v then 0
  else match s.rootOf v.uid.toNat with
    | none => 1
    | some r => if r.retired then 2 else if s.topChecks v r then 0 else 3

/-- A volume of a label comes online, stays offline for want of a range, or is refused; source 162 (R337, R343, R344). -/
def State.bringUp (s : State) (port nsid : Nat) (v : LabelVol) : State :=
  let cause := s.refusal v
  let range := s.rangeFor v.uid.toNat v.size
  let state := if cause != 0 then 2 else if range.isSome then 0 else 1
  let base := range.getD 0
  let s := if cause = 1 then s.storeErr .SEAL_STORE_ERR_FOREIGN v.uid.toNat
    else if cause = 3 then s.storeErr .SEAL_STORE_ERR_ROLLBACK v.uid.toNat else s
  let isSealed := s.sealedVol v
  let set := fun (w : Volume) => { w with
    port := port, nsid := nsid, state := state, cause := cause, base := base, kind := v.kind, isSealed := isSealed, start := v.start, size := v.size, name := v.name }
  let fresh : Volume :=
    { uid := v.uid.toNat, port := port, nsid := nsid, kind := v.kind, isSealed := isSealed, start := v.start, size := v.size,
      name := v.name, state := state, cause := cause, abandoned := false, ctr := [], fresh := [], snap := [], nodes := [],
      step := 0, closing := false, leafTags := [], tags := [], snapTags := [], nodeTags := [], base := base }
  let known := s.store.vols.any (fun w => w.uid == v.uid.toNat && w.state != 0 && w.cause != 4)
  let s := if known && cause != 4 then s.updVol v.uid.toNat set else s.setStore fun x => { x with vols := x.vols ++ [fresh] }
  s.showStore.raise 162

/-- The label of a namespace: its first copy whose CRC holds (R336); a namespace of another format has none. -/
def SpaceInfo.label (e : SpaceInfo) : Option LabelCopy :=
  if e.usable then ([e.first, e.second].filterMap id).find? (·.sound) else none

/-- The namespaces of a drive: beyond 16 of a usable format the others are left unused (R335). -/
def usedSpaces : Nat → List SpaceInfo → List SpaceInfo
  | _, [] => []
  | n, e :: t => if e.usable && 16 ≤ n then { e with usable := false } :: usedSpaces n t else e :: usedSpaces (n + b2n e.usable) t

/-- A namespace as STORE.QUERY shows it: identifier, label (0 none, 1 labelled, 2 unusable), size. -/
def SpaceInfo.shown (e : SpaceInfo) : Nat × Nat × Nat := (e.nsid, if e.usable then b2n e.label.isSome else 2, e.blocks)

/-- A drive comes up (R344): its labels are read and its volumes brought online in label order. A volume last seen at the port that none of its labels lists is not
known (R343). -/
def State.driveUp (s : State) (port : Nat) (d : DriveInfo) : State :=
  let spaces := usedSpaces 0 d.spaces
  let listed := spaces.flatMap fun e => (e.label.map (·.vols)).getD []
  let s := s.setStore fun x => { x with
    drives := Tbl.set StoreDrive.absent x.drives port ⟨d.serial, spaces.map SpaceInfo.shown⟩
    vols := x.vols.map fun v => if v.port = port && !listed.any (fun w => w.uid.toNat == v.uid) then { v with state := 3 } else v }
  s.each spaces fun e s => s.each ((e.label.map (·.vols)).getD []) fun v s => s.bringUp port e.nsid v

/-- The writes of a volume that no root record covers are lost (R343, R345): its leaves hold the counters and tags of the last commit, under which a block
that was written since does not check. -/
def Volume.loseDirty (v : Volume) : Volume :=
  { v with fresh := [], snap := [], step := 0, closing := false, tags := v.leafTags }

/-- The volumes of a drive. -/
def State.volsOf (s : State) (port : Nat) : List Volume := s.store.vols.filter fun v => v.port == port && v.state != 3

/-- A volume goes offline with its drive (R345): dirty nodes dropped, the record in force kept, source 162. -/
def State.volDown (s : State) (uid : Nat) : State :=
  let s := s.setStore fun x => { x with nodeCache := x.nodeCache.filter (·.1 != uid) }
  ((s.updVol uid fun v => { v.loseDirty with state := if v.state = 0 then 1 else v.state }).showStore).raise 162

/-! ### Commits (R341) -/

/-- Counters of the ancestors of written blocks rise with their nodes (R341 step 3): levels 1 to h. -/
def raiseNodes (h : Nat) (blocks : List Nat) (t : Tbl Nat) : Tbl Nat :=
  (List.range h).foldl (fun t k =>
    ((blocks.map (· / 128 ^ (k + 1))).eraseDups).foldl (fun t i => Tbl.upd 0 t ((k + 1) * 2 ^ 36 + i) (· + 1)) t) t

/-- A snapshot of the dirty nodes is taken, and the first flush issued (R341 steps 1 and 2). -/
def State.startCommit (s : State) (uid : Nat) (closing : Bool) : State :=
  (s.updVol uid fun v => { v with snap := v.fresh, fresh := [], snapTags := v.tags, step := 2, closing := closing }).showStore

/-- A commit is abandoned (R341): the record in force stays, COMMIT_FAIL is set, source 163. -/
def State.abandonCommit (s : State) (uid : Nat) : State :=
  let back := fun (v : Volume) => { v with
    fresh := v.snap.foldl (fun t e => Tbl.upd 0 t e.1 (· + e.2)) v.fresh
    snap := []
    step := 0
    closing := false }
  (((s.updVol uid back).storeErr .SEAL_STORE_ERR_COMMIT_FAIL uid).showStore).raise 163

/-- The first root record of a sealed volume (R342, R393): its top node's entries are all 0. It is no record of an unmount, so that it carries UNCLEAN. -/
def State.firstRoot (s : State) (uid blocks : Nat) : State :=
  s.writeRoot ⟨uid, 0, 0, s.volTag uid (treeHeight blocks) 0 0 0, false, true, false, blocks, 0⟩

/-- The counters and tags of a volume once a commit's snapshot is in its nodes (R341 step 3). -/
def State.committed (s : State) (v : Volume) : Volume :=
  let written := v.snap.map (·.1)
  let h := treeHeight v.blocks
  let v := { v with
    ctr := v.snap.foldl (fun t e => Tbl.upd 0 t e.1 (· + e.2)) v.ctr
    nodes := raiseNodes h written v.nodes
    leafTags := v.snapTags
    snap := []
    step := 0
    closing := false }
  s.tagNodes h written v

/-- The snapshot nodes are written, from leaf to top, each to the copy that is not current (R340, R341 step 3). -/
def State.writeNodes (s : State) (v : Volume) : State :=
  let w := s.committed v
  s.each (List.range (treeHeight v.blocks)) fun k s =>
    s.each ((v.snap.map (·.1 / 128 ^ (k + 1))).eraseDups) fun i s =>
      s.emit (.driveNode v.uid (k + 1) i (Tbl.find 0 w.nodes (volNode (k + 1) i) % 2) (w.node (k + 1) i))

/-- The root record is written and the commit done (R341 step 5, R342): UNCLEAN is 0 only in the record that closes the volume. A snapshot without dirty nodes leaves
the top node as it was. -/
def State.endCommit (s : State) (v : Volume) : State :=
  let w := s.committed v
  let top := volNode (treeHeight v.blocks) 0
  let old := (s.rootOf v.uid).getD ⟨v.uid, 0, 0, 0, false, true, false, v.blocks, 0⟩
  let c := Tbl.find 0 w.nodes top
  let r := if v.snap.isEmpty then old else { old with counter := c, tag := Tbl.find 0 w.nodeTags top, slot := c % 2 == 1 }
  let s := s.writeRoot { r with unclean := !v.closing, blocks := v.blocks }
  ((s.updVol v.uid fun _ => w).perf 8 0 2 1 none).showStore

/-- A sealed volume has a new size (R393): its node area is rebuilt from the blocks it still has, and the record says so. -/
def State.rebuildNodes (s : State) (uid : Nat) : State :=
  match s.vol uid, s.rootOf uid with
  | some v, some r =>
    let keep := fun (b : Nat) => decide (b < v.blocks)
    let h := treeHeight v.blocks
    let v := { v with ctr := Tbl.keep keep v.ctr, tags := Tbl.keep keep v.tags, snapTags := Tbl.keep keep v.tags, leafTags := Tbl.keep keep v.leafTags, nodes := [], nodeTags := [] }
    let blocks := 0 :: v.ctr.map (·.1)
    let w := s.tagNodes h blocks { v with nodes := raiseNodes h blocks [] }
    let top := volNode h 0
    let c := Tbl.find 0 w.nodes top
    (s.writeRoot { r with counter := c, tag := Tbl.find 0 w.nodeTags top, slot := c % 2 == 1, blocks := v.blocks }).updVol uid fun _ => w
  | _, _ => s

/-- A block of a sealed volume was written (R339): its counter rises, and its ciphertext under that counter takes a new tag, so that it no longer fails. -/
def State.wroteBlock (s : State) (b data : Nat) (v : Volume) : Volume :=
  if v.isSealed then
    let v := { v with fresh := Tbl.upd 0 v.fresh b (· + 1) }
    { v with tags := Tbl.set 0 v.tags b (s.volTag v.uid 0 b (v.counter b) (s.encryptBlock v.uid b (v.counter b) data)) }
  else v

/-- The levels of the nodes above block `b` that a read fetches (R340): up to the first in the node cache. -/
def State.fetchedNodes (s : State) (v : Volume) (b : Nat) : List Nat :=
  ((List.range (treeHeight v.blocks)).map (· + 1)).takeWhile fun k => !s.store.nodeCache.contains (v.uid, volNode k (b / 128 ^ k))

/-- A node that comes from the drive checks under its parent's entry (R340, R343): one above block `b` that is fetched and that a commit has written. -/
def State.volNodeChecks (s : State) (v : Volume) (b : Nat) (n : Fin 7 × Nat × StoreBlock) : Bool :=
  let k := volNode n.1 n.2.1
  !(s.fetchedNodes v b).contains n.1.val || n.2.1 != b / 128 ^ n.1.val || Tbl.find 0 v.nodes k == 0 ||
    s.volTag v.uid n.1 n.2.1 (Tbl.find 0 v.nodes k) n.2.2.toNat == Tbl.find 0 v.nodeTags k

/-- The nodes fetched for a block enter the node cache, 64 MiB of nodes (R340); which leaves it where it is full no rule says (DESIGN CHOICE, a free value,
assumption 96). -/
def State.cacheNodes (s : State) (v : Volume) (b : Nat) : State :=
  s.each (s.fetchedNodes v b) fun k s =>
    let c := s.store.nodeCache
    let s := if c.length < 16384 then s else s.drew.setStore fun x => { x with nodeCache := x.nodeCache.eraseIdx (s.draw % c.length) }
    s.setStore fun x => { x with nodeCache := x.nodeCache ++ [(v.uid, volNode k (b / 128 ^ k))] }

/-- The check of a block that comes from the drive (R338, R343): the nodes fetched with it check, and it has the tag that its leaf entry holds, under its
counter. -/
def State.blockChecks (s : State) (v : Volume) (b : Nat) (r : DriveRead) : Bool :=
  r.nodes.all (s.volNodeChecks v b) && s.volTag v.uid 0 b (v.counter b) r.content.toNat == Tbl.find 0 v.tags b

/-- A block or node of a sealed volume failed its check (R343): TORN while the record in force carries UNCLEAN, else INTEG;
source 161. -/
def State.blockFails (s : State) (v : Volume) : State :=
  let torn := match s.rootOf v.uid with
    | some r => r.unclean
    | none => false
  let s := if torn then (s.storeErr .SEAL_STORE_ERR_TORN v.uid).bump .SEAL_STORE_CNT_TORN_CNT 0 1
    else (s.storeErr .SEAL_STORE_ERR_INTEG v.uid).bump .SEAL_STORE_CNT_INTEG_CNT 0 1
  s.raise 161

end Sys2Proof.Machine
end

