-- ==== Sys2Proof/Machine/ServiceOps.lean ====
section
/-! DEFINITION. What every firmware service shares: handles (R158..R162), who may use a service (R374), the order of the
checks (R373), INDIRECT bodies (R361), and services answered ACCEPTED with their completion letters (R376, R380). -/

namespace Sys2Proof.Machine

/-! ### Handles -/

/-- The kinds of handles (R159). -/
def kChannel : Nat := 1
def kJob : Nat := 2
def kLease : Nat := 3
def kVolume : Nat := 4
def kImage : Nat := 5
def kSeries : Nat := 6

/-- How many indices a kind has (R159). -/
def kindRange (kind : Nat) : Nat :=
  if kind = 1 then 1024 else if kind = 2 then 4096 else if kind = 3 then 256 else if kind = 4 then 1024
  else if kind = 5 then 4096 else if kind = 6 then 64 else 0

/-- The place of an index of a kind in the handle tables. -/
def objKey (kind i : Nat) : Nat := kind * 4096 + i

/-- The current generation of an index, 1..4,095 (R161). -/
def State.gen (s : State) (kind i : Nat) : Nat :=
  (s.svc.genBase + Tbl.find 0 s.svc.genAdv (objKey kind i)) % 4095 + 1

/-- An object exists at the index (R160). -/
def State.exists? (s : State) (kind i : Nat) : Bool := Tbl.find 0 s.svc.live (objKey kind i) != 0

/-- The handle of an index: KIND [31:28], GEN [27:16], INDEX [15:0] (R158). -/
def State.handleOf (s : State) (kind i : Nat) : Nat := kind * 2 ^ 28 + s.gen kind i * 2 ^ 16 + i

/-- The index a handle carries. -/
def hIndex (h : Nat) : Nat := h % 2 ^ 16

/-- The checks of R160, in their order; none when the handle is good. -/
def State.checkHandle (s : State) (kind h : Nat) : Option Status :=
  if h / 2 ^ 28 ≠ kind then some .BAD_HANDLE
  else if kindRange kind ≤ hIndex h then some .BAD_HANDLE
  else if !s.exists? kind (hIndex h) then some .STALE_HANDLE
  else if h / 2 ^ 16 % 4096 ≠ s.gen kind (hIndex h) then some .STALE_HANDLE
  else none

/-- The mailbox an object belongs to (R375). -/
def State.ownerBox (s : State) (kind i : Nat) : Nat := Tbl.find 0 s.svc.live (objKey kind i) - 1

/-- R160, and DENIED for an object that belongs to another mailbox (R375; mailbox 0 as R170 states). -/
def State.checkOwned (s : State) (kind h m : Nat) : Option Status :=
  match s.checkHandle kind h with
  | some st => some st
  | none => if s.ownerBox kind (hIndex h) = m || m = 0 then none else some .DENIED

/-- The index the next object of a kind takes: the one free longest (R161). -/
def State.nextIndex (s : State) (kind : Nat) : Option Nat :=
  let f := Tbl.find 0 s.svc.fresh kind
  if f < kindRange kind then some f else (Tbl.find [] s.svc.freed kind).head?

/-- How many objects of a kind exist. -/
def State.liveCount (s : State) (kind : Nat) : Nat := (s.svc.live.filter (fun e => e.1 / 4096 == kind)).length

/-- Creates an object at index `i` for mailbox `m`; source 219 as the kind reaches 90 percent of its range (R403). -/
def State.createAt (s : State) (kind i m : Nat) : State :=
  let f := Tbl.find 0 s.svc.fresh kind
  let v := if i = f then { s.svc with fresh := Tbl.set 0 s.svc.fresh kind (f + 1) }
    else { s.svc with freed := Tbl.upd [] s.svc.freed kind (·.erase i) }
  let s := { s with svc := { v with live := Tbl.set 0 v.live (objKey kind i) (m + 1) } }
  s.when (s.liveCount kind == (kindRange kind * 9 + 9) / 10) (·.raise 219)

/-- Destroys the object at index `i`: its generation advances and its index is freed (R161). -/
def State.destroy (s : State) (kind i : Nat) : State :=
  if s.exists? kind i then
    { s with svc := { s.svc with
        genAdv := Tbl.upd 0 s.svc.genAdv (objKey kind i) (· + 1)
        live := Tbl.set 0 s.svc.live (objKey kind i) 0
        freed := Tbl.upd [] s.svc.freed kind (· ++ [i]) } }
  else s

/-- Pin and device reset destroy every object at once and advance every generation (R161, R162). -/
def State.destroyAll (s : State) : State :=
  let gone := fun kind => ((s.svc.live.filter (fun e => e.1 / 4096 == kind)).map (fun e => e.1 % 4096))
  let s := s.each [1, 2, 3, 4, 5, 6] fun k s =>
    { s with svc := { s.svc with freed := Tbl.upd [] s.svc.freed k (· ++ gone k) } }
  { s with svc := { s.svc with genBase := s.svc.genBase + 1, live := [] } }

/-- The volumes that mailbox `m` holds open for writing close without a clean commit, marked for the next writer (R394). -/
def State.abandonVolumes (s : State) (m : Nat) : State :=
  s.each (s.store.opens.filter (fun o => o.write && o.box == m)) fun o s =>
    let s := s.updVol o.uid fun v => { v with abandoned := true }
    (s.setStore fun x => { x with opens := x.opens.erase o }).destroy kVolume o.idx

/-! ### Services -/

/-- Who may use a service (R374): every host function, region and the test access port, or only PF0 and the test access
port; `keyPort`: the test access port alone (R503). -/
inductive Perm where
  | anyOwner | admin | keyPort
  deriving DecidableEq, Repr

/-- Check 1 of R373 for a mailbox owner; a ring peer may use only the services marked for it (R374). -/
def permits (p : Perm) (peer : Bool) (owner : Nat) : Bool :=
  if isPeer owner then peer
  else match p with
    | .anyOwner => (decide (1 ≤ owner) && decide (owner ≤ 0x28)) || owner == 0x41 ||
        (decide (0x50 ≤ owner) && decide (owner ≤ 0x53))
    | .admin => owner == 0x41 || owner == 0x50
    | .keyPort => owner == 0x41

/-- Bit 4, INDIRECT, of a letter's FLAGS. -/
def Letter.indirect (L : Letter) : Bool := L.flags.toNat.testBit 4

/-- The faults of an INDIRECT body (R361). -/
def badIndirect (owner : Nat) (b : List Byte) : Bool :=
  let len := rd b 8 4
  b.length != 16 || rd b 0 8 % 64 != 0 || len == 0 || decide (2 ^ 20 < len) || decide (1 < rd b 12 1) ||
    rd b 13 3 != 0 || (rd b 12 1 == 0 && !(decide (0x50 ≤ owner) && decide (owner ≤ 0x53))) ||
    (rd b 12 1 == 1 && decide (2 ^ 38 < rd b 0 8 + len))

/-- The body a service reads: the letter's own, or the data an INDIRECT letter names, or the failing status (R361). -/
def State.bodyOf (s : State) (L : Letter) : Status ⊕ List Byte :=
  if !L.indirect then .inr L.body
  else if badIndirect (s.fld .PST_MB_OWNER_OWNER L.mailbox) L.body then .inl .BAD_PARAM
  else
    let data := if rd L.body 12 1 = 1 then s.indirectLines (rd L.body 0 8) (rd L.body 8 4) else L.data
    match data with
    | none => .inl .TRANSFER_FAILED
    | some d => .inr d

/-- Whether a mailbox may be answered ACCEPTED once more (R376). -/
def State.opsOf (s : State) (m : Nat) : Nat := (s.svc.ops.filter (fun o => o.letter.mailbox.val == m && !o.mute)).length

/-- What a service does with its body once checks 1 and 2 have passed: the new state and the reply. -/
abbrev Service := List Byte → State → State × Reply

/-- How a service is offered: who may use it, whether a ring peer may, whether it runs during a shut-down (QUERY
services, CHANNEL.HOLD and CHANNEL.ABORT, R379), and which body lengths it has (R372). -/
structure Offer where
  perm : Perm
  peer : Bool
  always : Bool
  length : Nat → List Byte → Bool

/-- A service with a fixed body length. -/
def fixedLen (n : Nat) : Nat → List Byte → Bool := fun k _ => k == n

/-- Check 1, the INDIRECT body, check 2 and, during a shut-down, NOT_READY (R361, R373, R379): the body the service gets, or the status that answers the
letter. -/
def State.accepts (s : State) (L : Letter) (o : Offer) : Status ⊕ List Byte :=
  if !permits o.perm o.peer (s.fld .PST_MB_OWNER_OWNER L.mailbox) then .inl .DENIED
  else match s.bodyOf L with
    | .inl st => .inl st
    | .inr b =>
      if !o.length b.length b then .inl .BAD_PARAM
      else if s.svc.shutdown && !o.always then .inl .NOT_READY
      else .inr b

/-- The firmware is serving letters (R349), and the clock of its island runs (R14). -/
def State.serving (s : State) : Bool := s.on .PST_FW_STAT_READY 0 && !s.domainWaits (some 22)

/-- The service of a letter that its mailbox has taken has begun: it is answered, or its reply comes later. -/
def Mailbox.begun (b : Mailbox) (L : Letter) : Bool := decide (b.taken.count L ≤ b.late.count L + (b.answers.filter (·.1 == L)).length)

/-- A letter is served once, and not before those of its mailbox that were taken before it (R359), nor, on another mailbox, before a letter that mailbox 0 has
(R360). -/
def State.behind (s : State) (L : Letter) : Bool :=
  let b := s.box L.mailbox
  (s.svc.stalled.any fun e => e.2.mailbox == L.mailbox) ||
    (b.taken.contains L && (b.begun L || (b.taken.takeWhile (· != L)).any fun u => !b.begun u)) ||
    (L.mailbox != 0 && (s.box 0).taken.any fun u => !(s.box 0).begun u && !s.svc.stalled.any fun e => e.2 == u)

/-- The data of an INDIRECT letter lies in a stack that does not serve it now: the firmware's read waits, and the letter with it (R97, R361). -/
def State.dataWaits (s : State) (L : Letter) : Bool :=
  L.indirect && !badIndirect (s.fld .PST_MB_OWNER_OWNER L.mailbox) L.body && rd L.body 12 1 == 1 &&
    (s.closedLine (rd L.body 0 8) (rd L.body 8 4)).isSome

/-- A letter waits for a domain (R97). -/
def State.stall (s : State) (L : Letter) (d : Nat) : State := { s with svc := { s.svc with stalled := s.svc.stalled ++ [(d, L)] } }

/-- Checks 1 and 2 of a letter, with its INDIRECT body (R361, R373): what `g` makes of its body, or the refusal. Nothing happens while the letter is not served. -/
def State.withBody (s : State) (L : Letter) (o : Offer) (g : List Byte → State) : State :=
  if !s.serving || s.behind L || s.dataWaits L then s
  else match s.accepts L o with
  | .inl st => s.reply L (plain L st)
  | .inr b => g b

/-- Serves one letter, which the firmware does while it is READY (R349): check 1, the INDIRECT body, check 2 and, during a shut-down, NOT_READY (R361, R373, R379); then
the service itself, which answers its reply. A service that would be answered ACCEPTED while 256 of its mailbox's are
pending returns NO_RESOURCE and changes nothing (R376; `exempt` for CHANNEL.ABORT). -/
def State.serve (s : State) (L : Letter) (o : Offer) (exempt : Bool) (g : Service) : State :=
  s.withBody L o fun b =>
    let r := g b s
    if r.2.status = .ACCEPTED && !exempt && decide (256 ≤ s.opsOf L.mailbox) then s.reply L (plain L .NO_RESOURCE)
    else r.1.reply L r.2

/-- A letter whose service accesses registers that a domain answers: the firmware's access waits while that domain is stopped or held, and the letter with
it (R97). -/
def State.stalls (s : State) (L : Letter) (d : Option Nat) : Option State :=
  match d with
  | some k => if s.domainWaits (some k) then some (s.stall L k) else none
  | none => none

/-- Serves a letter whose service accesses registers of the domain that its body names. -/
def State.serveIn (s : State) (L : Letter) (o : Offer) (d : List Byte → Option Nat) (g : Service) : State :=
  s.withBody L o fun b => (s.stalls L (d b)).getD (s.serve L o false g)

/-- The service of a letter that its mailbox has taken runs, and its reply comes later. -/
def State.beginLate (s : State) (L : Letter) : State :=
  let b := s.box L.mailbox
  s.when (b.taken.contains L) (·.setBox L.mailbox { b with late := b.late ++ [L] })

/-- Serves a letter whose reply may come later. -/
def State.serveLate (s : State) (L : Letter) (o : Offer) (d : List Byte → Option Nat) (g : List Byte → State → State × Option Reply) : State :=
  s.withBody L o fun b => (s.stalls L (d b)).getD <|
    match g b s with
    | (t, some r) => t.reply L r
    | (t, none) => t.beginLate L

/-- One of the services that run one at a time on the device is running: DEVICE.SHUTDOWN, POWER.STATE, CONFIG.WRITE, RELOAD and BROADCAST, SEAL.CONVERT,
TEST.RUN and KEY.GOLDEN_WRITE (R379, R503). The list of R379 is read as one list: each excludes the others (DEDUCED, assumption 97). -/
def State.oneRuns (s : State) : Bool :=
  s.svc.shutdown || s.svc.ops.any fun (o : PendingOp) =>
    ([0x0106, 0x0201, 0x0302, 0x0304, 0x0305, 0x0801, 0x0E03, 0x1108] : List Nat).contains o.letter.opcode.toNat

/-- A refusal of a service: the state as it was, and a bare status. -/
def refuse (s : State) (L : Letter) (st : Status) : State × Reply := (s, plain L st)

/-- A refusal whose reply body carries the holder's handle (R377). -/
def refuseHeld (s : State) (L : Letter) (holder : Nat) : State × Reply :=
  (s, ⟨.BUSY, L.handle.toNat, 0, le 4 holder⟩)

/-- An OK reply with a body. -/
def okBody (s : State) (L : Letter) (body : List Byte) : State × Reply := (s, ⟨.OK, L.handle.toNat, 0, body⟩)

/-- Records a service answered ACCEPTED; source 219 as the mailbox reaches its limit (R376, R403). -/
def State.accept (s : State) (L : Letter) (object : Nat) (args : List Nat) : State :=
  let s := { s with svc := { s.svc with ops := s.svc.ops ++ [({ letter := L, object := object, args := args, mute := false } : PendingOp)] } }
  s.when (s.opsOf L.mailbox == 256) (·.raise 219)

/-- Answers ACCEPTED. -/
def accepted (s : State) (L : Letter) (object : Nat) (args : List Nat) : State × Reply :=
  (s.accept L object args, plain L .ACCEPTED)

/-- The pending operation of a service (its opcode) on an object. -/
def State.findOp (s : State) (opcode object : Nat) : Option PendingOp :=
  s.svc.ops.find? (fun o => o.letter.opcode.toNat == opcode && o.object == object)

/-- A completion letter, which never precedes the reply to its own request (R380). -/
def State.postCompletion (s : State) (L : Letter) (bytes : List Byte) : State :=
  let b := s.box L.mailbox
  if b.answers.any (·.1 == L) then
    s.setBox L.mailbox { b with answers := b.answers.map fun a => if a.1 = L then (L, a.2 ++ [bytes]) else a }
  else s.postLetters L.mailbox [bytes]

/-- Ends a pending operation with its completion letter (R358, R380); one whose mailbox was reset since runs to its end and sends none (R364). -/
def State.complete (s : State) (o : PendingOp) (st : Status) (handle postmark : Nat) (body : List Byte) : State :=
  let s := { s with svc := { s.svc with ops := s.svc.ops.erase o } }
  let L := o.letter
  if o.mute then s
  else s.postCompletion L (letterBytes L.opcode.toNat (3 + letterEcho L) handle L.seqTag.toNat st.code postmark body)

/-- Ends the pending operation of a service on an object, if there is one. -/
def State.completeOn (s : State) (opcode object : Nat) (st : Status) (body : List Byte) : State :=
  match s.findOp opcode object with
  | none => s
  | some o => s.complete o st o.letter.handle.toNat 0 body

/-- Ends every pending operation of a service on an object. -/
def State.completeAll (s : State) (opcode object : Nat) (st : Status) (body : List Byte) : State :=
  s.each (s.svc.ops.filter fun o => o.letter.opcode.toNat == opcode && o.object == object) fun o s => s.complete o st o.letter.handle.toNat 0 body

/-- Serves a letter; a service answered ACCEPTED begins its work once its reply is on its way (R380). -/
def State.serveThen (s : State) (L : Letter) (o : Offer) (exempt : Bool) (g : Service) (h : PendingOp → State → State) : State :=
  let t := s.serve L o exempt g
  if t.svc.ops.length ≤ s.svc.ops.length then t
  else match t.svc.ops.getLast? with
    | some op => h op t
    | none => t

/-- Ends every pending operation on an object that a predicate picks with CANCELLED (R380). -/
def State.cancelOps (s : State) (p : PendingOp → Bool) : State :=
  s.each (s.svc.ops.filter p) fun o s => s.complete o .CANCELLED o.letter.handle.toNat 0 []

/-- Every byte of a list is 0. -/
def allZero (b : List Byte) : Bool := b.all (· == 0)

/-- Bytes `off..off+n-1` of a body are 0 (R372). -/
def zeros (b : List Byte) (off n : Nat) : Bool := allZero ((b.drop off).take n)

end Sys2Proof.Machine
end

