-- ==== Sys2Proof/Machine/LeaseOps.lean ====
section
/-! DEFINITION. Ring weights (R215..R217), series and leases (R224..R230) and the audit log (R231), as the other blocks use
them. -/

namespace Sys2Proof.Machine

/-- The lane rate that each code of LNK_RING_CTL.RATE selects for a ring's ports, and whether it is PAM4 (R240). -/
def ringRate (code : Nat) : Nat × Bool :=
  match code with
  | 0 => (57344, true)
  | 1 => (26400, false)
  | _ => (10560, false)

/-! ### Ring weights -/

/-- Ring `r` beside its registers. -/
def State.ring (s : State) (r : Nat) : Ring := Tbl.find Ring.reset s.rings r

/-- Sets ring `r`. -/
def State.setRing (s : State) (r : Nat) (x : Ring) : State := { s with rings := Tbl.set Ring.reset s.rings r x }

/-- The device's own unique identifier (R19). -/
def State.uid (s : State) : Nat := s.fld .DEV_UID_UID 0

/-- The place of an identifier in a member table. -/
def memberOf (uid : Nat) : List (Nat × Nat) → Nat → Option Nat
  | [], _ => none
  | e :: t, k => if e.1 = uid then some k else memberOf uid t (k + 1)

/-- The device's own member number (R215). -/
def State.ownMember (s : State) (r : Nat) : Option Nat := memberOf s.uid (s.ring r).table 0

/-- The weight of member `m`. -/
def Ring.weight (x : Ring) (m : Nat) : Nat := ((x.table[m]?).map (·.2)).getD 0

/-- The configured weight W (R215). -/
def Ring.total (x : Ring) : Nat := x.table.foldl (fun n e => n + e.2) 0

/-- The weight of the members a mask names. -/
def Ring.maskWeight (x : Ring) (mask : Nat) : Nat := (bitsOf 32 mask).foldl (fun n m => n + x.weight m) 0

/-- The two ring ports of ring `r` (R212). -/
def ringPorts (r : Nat) : List Nat := [140 + 2 * r, 141 + 2 * r]

/-- Sends a message on both ports of a ring (a local series has none). -/
def State.ringSend (s : State) (r kind : Nat) (data : List Nat) : State :=
  if r < 2 then s.each (ringPorts r) fun p s => s.ringMessage p kind data else s

/-- The device is quorate on a ring (R217); a local series is always quorate (R224). -/
def State.quorate (s : State) (r : Nat) : Bool :=
  r == 2 || (s.on .LNK_RING_CTL_JOIN r && decide ((s.ring r).total < 2 * (s.ring r).maskWeight (s.fld .LNK_RING_REACH_REACH r)))

/-! ### The audit log -/

/-- Sets the lease state. -/
def State.setLease (s : State) (g : LeaseState → LeaseState) : State := { s with lease := g s.lease }

/-- The log a record of a series goes to: its volume's index + 1, × 2, + 1 for the proof log (R231). -/
def State.auditLog (s : State) (series flags : Nat) : Nat := 2 * Tbl.find 0 s.lease.auditVol series + flags % 2

/-- FLAGS of an audit record (R231): PROOF as given, and ring B for a series of that ring. -/
def State.auditFlags (s : State) (series flags : Nat) : Nat := flags % 2 + 2 * b2n (((s.lease.series[series]?).map (·.ring == 1)).getD false)

/-- Bytes 0 to 47 of an audit record (R231). -/
def Audit.head (a : Audit) : List Byte :=
  le 8 a.seq ++ le 8 a.ident ++ le 4 a.count ++ le 4 a.series ++ le 1 a.kind ++ le 1 a.flags ++ le 2 0 ++ le 4 a.channel ++ le 8 a.postmark ++ le 4 a.epoch ++
    le 4 a.time

/-- An audit record as its 64 bytes lie on the volume (R231). -/
def Audit.bytes (a : Audit) : List Byte := a.head ++ le 16 a.tag

/-- Stages a record in a log (R231): numbered and chained there. -/
def State.stage (s : State) (a : Audit) (log : Nat) : State :=
  let seq := Tbl.find 0 s.lease.auditSeq log
  let a := { a with seq := seq, log := log }
  let tag := (hmac (BitVec.ofNat 256 s.lease.auditKey) (a.head ++ le 16 (Tbl.find 0 s.lease.auditTag log))).toNat % 2 ^ 128
  s.setLease fun l => { l with
    staged := l.staged ++ [{ a with tag := tag }]
    auditSeq := Tbl.set 0 l.auditSeq log (seq + 1)
    auditTag := Tbl.set 0 l.auditTag log tag }

/-- Stages an audit record of the series at a place (R231); source 217 as the buffer reaches 90 percent (R403). -/
def State.audit (s : State) (series kind ident count flags ch pm : Nat) : State :=
  let flags := s.auditFlags series flags
  let id := ((s.lease.series[series]?).map (·.id)).getD 0
  let epoch := if pm = 0 then 0 else s.fld .POS_AX_EPOCH_VALUE (pmAxis pm)
  let time := s.fld .DEV_RTC_SECONDS 0 % 2 ^ 32
  let s := s.stage ⟨0, ident, count, id, kind, flags, ch, pm, epoch, time, 0, 0, series⟩ (s.auditLog series flags)
  s.when (s.lease.staged.length == 943719) (·.raise 217)

/-- The records of a series that were staged while no volume was bound go to the volume that is bound now (R231, R402). -/
def State.stageUnbound (s : State) (series : Nat) : State :=
  let mine := s.lease.staged.filter fun a => decide (a.log < 2) && a.place == series
  (s.setLease fun l => { l with staged := l.staged.filter fun a => !(decide (a.log < 2) && a.place == series) }).each mine fun a s =>
    s.stage a (s.auditLog series a.flags)

/-- The staging buffer is 90 percent full of its 1,048,576 records (R231). -/
def State.auditFull (s : State) : Bool := decide (9 * 1048576 ≤ 10 * s.lease.staged.length)

/-! ### Leases -/

/-- Identifiers of a lease that can still be drawn. -/
def Lease.unused (l : Lease) : Nat := l.returned.length + (l.first + l.count - l.next)

/-- Identifiers of a series that the device can still draw. -/
def State.unused (s : State) (series : Nat) : Nat :=
  (s.lease.leases.filter (·.series == series)).foldl (fun n l => n + l.unused) 0

/-- Changes the lease of an index. -/
def State.updLease (s : State) (idx : Nat) (g : Lease → Lease) : State :=
  s.setLease fun l => { l with leases := l.leases.map fun x => if x.idx = idx then g x else x }

/-- The lease whose returned identifier is the lowest of a series, and that identifier (R229). -/
def lowestReturned : List Lease → Option (Nat × Nat)
  | [] => none
  | l :: t => match l.returned.head?, lowestReturned t with
    | none, r => r
    | some i, none => some (l.idx, i)
    | some i, some (j, k) => if i < k then some (l.idx, i) else some (j, k)

/-- A new identifier of a lease: at the draw mark, the mark is journalled one step on, or at the lease's end, first
(R229). -/
def Lease.drawNew (l : Lease) (step : Nat) : Lease :=
  let mark := if l.next = l.mark then min (l.mark + step) (l.first + l.count) else l.mark
  { l with mark := mark, next := l.next + 1, drawn := l.drawn ++ [l.next] }

/-- Draws an identifier of a series: from the proof range (R230), or from the leases (R229); none where no identifier can
be drawn (R191, R231), as past the journalled draw mark where the journal is read-only (R437). -/
def State.drawIdent (s : State) (series : Nat) (proof : Bool) : Option (State × Ident) :=
  match s.lease.series[series]? with
  | none => none
  | some x =>
    if s.auditFull then none
    else if proof then
      let n := if x.proofNext + 1 = x.proofLimit then x.proofFirst else x.proofNext + 1
      some (s.setLease fun l => { l with series := l.series.set series { x with proofNext := n } }, ⟨series, none, x.proofNext⟩)
    else
      let ls := s.lease.leases.filter (·.series == series)
      match lowestReturned ls with
      | some (idx, i) => some (s.updLease idx (fun l => { l with returned := l.returned.erase i, drawn := l.drawn ++ [i] }),
          ⟨series, some idx, i⟩)
      | none => match ls.find? (fun l => decide (l.next < l.first + l.count)) with
        | none => none
        | some l =>
          let marks := l.next == l.mark
          if marks && s.journalReadOnly then none
          else some ((s.when marks (·.journal)).updLease l.idx (·.drawNew x.step), ⟨series, some l.idx, l.next⟩)

/-- Inserts a number into a rising list. -/
def insertNat (i : Nat) : List Nat → List Nat
  | [] => [i]
  | j :: t => if i < j then i :: j :: t else j :: insertNat i t

/-- A drawn identifier that was not consumed returns (R174, R229), or is recorded LEASE_RETIRED where its lease has been
retired (R227). A proof identifier returns nowhere. -/
def State.returnIdent (s : State) (i : Ident) : State :=
  match i.lease with
  | none => s
  | some idx =>
    if s.lease.leases.any (fun l => l.idx == idx && l.series == i.series && l.drawn.contains i.id) then
      s.updLease idx fun l => { l with drawn := l.drawn.erase i.id, returned := insertNat i.id l.returned }
    else s.audit i.series 0x11 i.id 1 0 0 0

/-- Records the outcome of a consumed identifier, once (R192, R231). -/
def State.outcome (s : State) (i : Ident) (kind ch pm : Nat) : State :=
  let s := match i.lease with
    | none => s
    | some idx => s.updLease idx fun l => if l.series = i.series then { l with drawn := l.drawn.erase i.id } else l
  s.audit i.series kind i.id 1 (b2n i.lease.isNone) ch pm

/-- Raises a series' high mark and journals it (R225). -/
def State.raiseHigh (s : State) (series h : Nat) : State :=
  match s.lease.series[series]? with
  | none => s
  | some x => if h ≤ x.high then s else s.journal.setLease fun l => { l with series := l.series.set series { x with high := h } }

/-- Changes the first request of a series. -/
def updReq (series : Nat) (g : LeaseReq → LeaseReq) (l : List LeaseReq) : List LeaseReq :=
  l.map fun q => if q.series = series then g q else q

/-- The request of a series on its way. -/
def State.reqOf (s : State) (series : Nat) : Option LeaseReq := s.lease.reqs.find? (·.series == series)

/-- Ends the request of a series. -/
def State.dropReq (s : State) (series : Nat) : State :=
  s.setLease fun l => { l with reqs := l.reqs.filter (·.series != series) }

/-- A refused request: the letter is answered with the status, or the automatic request counts as refused, with source
214 once per refusal run (R226). -/
def State.refuseLease (s : State) (series : Nat) (letter : Option Letter) (st : Status) : State :=
  let s := s.dropReq series
  match letter with
  | some L => s.reply L (plain L st)
  | none =>
    let s := s.startTimer .refused series
    if s.lease.refusing.contains series then s
    else (s.setLease fun l => { l with refusing := l.refusing ++ [series] }).raise 214

/-- A granted lease (R226 step 3): journalled with its draw mark at its first identifier, a new lease object, and
LEASE_GRANTED; the letter is answered. -/
def State.grantLease (s : State) (q : LeaseReq) : State :=
  match s.nextIndex kLease with
  | none => s.refuseLease q.series q.letter .NO_RESOURCE
  | some i =>
    let m := match q.letter with
      | some L => L.mailbox.val
      | none => 0
    let s := ((s.createAt kLease i m).dropReq q.series).journal
    let s := s.setLease fun l => { l with
      leases := l.leases ++ [⟨i, q.series, q.base, q.count, q.base, q.base, [], []⟩]
      refusing := l.refusing.filter (· != q.series) }
    let s := s.audit q.series 0x10 q.base q.count 0 0 0
    match q.letter with
    | some L => s.reply L ⟨.OK, s.handleOf kLease i, 0, le 8 q.base ++ le 8 q.count⟩
    | none => s

/-- The acknowledged weight of a request exceeds half of the ring's (R226); a local series has the device's own weight
alone. -/
def State.majority (s : State) (ring : Nat) (acked : List Nat) : Bool :=
  ring == 2 || decide ((s.ring ring).total < 2 * (acked.foldl (fun n m => n + (s.ring ring).weight m) 0))

/-- One attempt at a lease (R226 steps 1 and 2, the requester being one of the members asked). -/
def State.propose (s : State) (q : LeaseReq) : State :=
  match s.lease.series[q.series]? with
  | none => s
  | some x =>
    let b := max (max x.high q.high) (Tbl.find 0 s.lease.heardHigh q.series)
    let n := min q.wanted (x.limit - b)
    if !s.quorate x.ring then s.refuseLease q.series q.letter .NO_QUORUM
    else if n = 0 then s.refuseLease q.series q.letter .LEASE_EXHAUSTED
    else
      let own := ((s.ownMember x.ring).map (fun m => [m])).getD []
      let q := { q with base := b, count := n, acked := own, tries := q.tries + 1, waiting := false }
      let s := (s.raiseHigh q.series (b + n)).setLease fun l =>
        { l with reqs := l.reqs.filter (·.series != q.series) ++ [q] }
      let s := (s.ringSend x.ring 3 [x.id, b, n]).startTimer .proposal q.series
      if s.majority x.ring own then s.grantLease q else s

/-- Starts a request for a lease (R226), for which the journal is written (R437), unless one of the series is on its way; a device holds at most four leases per
series (R224), among which one that is used up counts until LEASE.RETIRE or a restart ends it (DESIGN CHOICE, assumption 94). -/
def State.startLease (s : State) (series wanted : Nat) (letter : Option Letter) : State :=
  if s.journalReadOnly || decide (4 ≤ (s.lease.leases.filter (·.series == series)).length) then s.refuseLease series letter .NO_RESOURCE
  else s.propose ⟨letter, series, wanted, 0, 0, [], 0, 0, false⟩

/-- The unused identifiers of a series lie below LOW_WATER, or with LOW_WATER 0 none remains (R224, R226). -/
def State.leaseWanted (s : State) (series : Nat) : Option Nat :=
  match s.lease.series[series]? with
  | none => none
  | some x => if s.unused series < x.low || s.unused series = 0 then some x.size else none

/-- The firmware's own request for a lease (R226), unless one of the series is on its way; where it is not needed, a refusal run is over. -/
def State.autoLease (s : State) (series : Nat) : State :=
  match s.leaseWanted series with
  | none => s.setLease fun l => { l with refusing := l.refusing.filter (· != series) }
  | some n => if (s.reqOf series).isSome then s else s.startLease series n none

/-- After a draw: the firmware requests the next lease where it is needed; a refused one is repeated by the 100 ms timer alone (R226). -/
def State.lowWater (s : State) (series : Nat) : State :=
  if s.lease.refusing.contains series && (s.leaseWanted series).isSome then s else s.autoLease series

end Sys2Proof.Machine
end

