-- ==== Sys2Proof/Machine/Netlist.lean ====
section
/-! DEFINITION. The clockless fabric as an image configures it (R23..R40, R53..R60, R66): which stages hold tokens, what each stage's inputs bring, whose
tokens they are, and how a token leaves once every consumer has taken it. -/

namespace Sys2Proof.Machine

/-! ### Places -/

/-- The place of cell `i` of region `n`. -/
def cellKey (n i : Nat) : Nat := n * 65536 + i

/-- A cell of the fabric. -/
def State.cell (s : State) (n i : Nat) : Cell := Tbl.find Cell.reset s.cells (cellKey n i)

/-- Sets a cell. -/
def State.setCell (s : State) (n i : Nat) (c : Cell) : State :=
  { s with cells := Tbl.set Cell.reset s.cells (cellKey n i) c }

/-- The cells of region `n` that an image configures. -/
def State.regionCells (s : State) (n : Nat) : List (Nat × Cell) :=
  s.cells.filter (fun e => e.1 / 65536 == n)

/-- A number for each direction, and for each port of a router. -/
def Dir.num : Dir → Nat
  | .east => 0 | .north => 1 | .west => 2 | .south => 3
def RouterPort.num : RouterPort → Nat
  | .inject => 0 | .eject => 1 | .neighbour d => 2 + d.num | .express d => 6 + d.num

/-- The place of a hop stage of region `n`. -/
def hopKey (n : Nat) (h : Hop) : Nat :=
  n + 40 * (b2n h.second + 2 * (h.slot.val + 16 * (h.port.num + 10 * h.tile.val)))

/-- A hop stage, where an image's route holds the slot. -/
def State.hop (s : State) (n : Nat) (h : Hop) : Option WordStage := Tbl.find none s.words (hopKey n h)

/-- The pairs that the word of a hop stage codes: those its route uses (R56). -/
def State.hopUsed (s : State) (n : Fin 40) (h : Hop) : BitVec 18 :=
  match s.hop n h with
  | some w => w.cfg.used
  | none => 0

/-- The hop stages of region `n`. -/
def State.regionHops (s : State) (n : Nat) : List WordStage :=
  (s.words.filter fun e => e.1 % 40 == n).filterMap (·.2)

/-- A crossing element, where an image places one. -/
def State.element (s : State) (n k : Nat) : Option Element := Tbl.find none s.elements (n + 40 * k)

/-- A number for each isolation cell (R60). -/
def isoKey (x : IsoSite) : Nat :=
  let side := fun (o : Option (Fin 40)) => match o with
    | none => 40
    | some n => n.val
  let k := match x.kind with
    | .fabric => 0 | .agent => 1 | .control => 2 | .gate => 3
  k + 4 * (side x.producer + 41 * (side x.consumer + 41 * x.slot.val))

/-- The token of a stage as its value + 1; 0 is a hole. -/
def tokNum : Option Nat → Nat
  | none => 0
  | some v => v + 1
def numTok (t : Nat) : Option Nat := if t = 0 then none else some (t - 1)

/-- The token a site holds, as its value + 1; 0 is a hole. -/
def State.siteTok (s : State) : Site → Nat
  | .cell n i => tokNum (s.cell n i).tok
  | .second n i => tokNum (s.cell n i).tok2
  | .word n h => match s.hop n h with
    | some w => w.tok
    | none => 0
  | .iso x => Tbl.find 0 s.isos (isoKey x)
  | .element n k => match s.element n k with
    | some e => e.tok
    | none => 0
  | _ => 0

/-- Puts a token (value + 1) or a hole (0) into a site. -/
def State.setSite (s : State) (x : Site) (t : Nat) : State :=
  match x with
  | .cell n i => s.setCell n i { s.cell n i with tok := numTok t }
  | .second n i => s.setCell n i { s.cell n i with tok2 := numTok t }
  | .word n h => match s.hop n h with
    | some w => { s with words := Tbl.set none s.words (hopKey n h) (some { w with tok := t }) }
    | none => s
  | .iso x => { s with isos := Tbl.set 0 s.isos (isoKey x) t }
  | .element n k => match s.element n k with
    | some e => { s with elements := Tbl.set none s.elements (n.val + 40 * k) (some { e with tok := t, seen := 0 }) }
    | none => s
  | _ => s

/-- What an image sets of one of the trees T4..T7, and its state (R61). -/
def State.tree (s : State) (t : Nat) : Tree := Tbl.find Tree.reset s.trees t

/-- Sets it. -/
def State.setTree (s : State) (t : Nat) (x : Tree) : State := { s with trees := Tbl.set Tree.reset s.trees t x }

/-- The region whose state governs a site; an isolation cell belongs to its border. -/
def State.regionOf (s : State) : Site → Option (Fin 40)
  | .cell n _ => some n
  | .second n _ => some n
  | .word n _ => some n
  | .element n _ => some n
  | .fout n _ => some n
  | .port n _ => some n
  | .iso _ => none
  | .hardPort _ => none
  | .tree t => match (s.tree t).cfg with
    | some ⟨_, .cell n _⟩ => some n
    | _ => none

/-! ### Codes (R23, R24, R56, R57) -/

/-- The value of one input and whether its code is illegal (R23, R24, R56, R57); none for spacer. -/
def Rail.value : Rail → Option (Nat × Bool)
  | .bit false false => none
  | .bit false true => some (0, false)
  | .bit true false => some (1, false)
  | .bit true true => some (0, true)
  | .pair r => match r.toNat with
    | 0 => none
    | 1 => some (0, false)
    | 2 => some (1, false)
    | 4 => some (2, false)
    | 8 => some (3, false)
    | _ => some (0, true)

/-- What valid inputs bring: their value, and how many of their codes are illegal. -/
structure Seen where
  value : Nat
  bad : Nat
  deriving DecidableEq, Repr

/-- What the code on an outside wire brings; none while it is spacer. -/
def wireOn (o : List (Nat × Rail)) (k : Nat) : Option Seen :=
  match o.find? (·.1 == k) with
  | none => none
  | some e => e.2.value.map fun v => ⟨v.1, b2n v.2⟩

/-- Bit `b` of a token (value + 1; 0 a hole). -/
def bitSeen (t b : Nat) : Option Seen := if t = 0 then none else some ⟨(t - 1) / 2 ^ b % 2, 0⟩

/-- The inputs of a list, the first in bit 0: valid once every used one is, where one marked as unused is not examined and counts as 0; an input that an
upset leaves illegal is valid with value 0, whatever its producer brings (R23, R24, R28). `j`: the place of the first. -/
def gatherBits (f : Source → Option Seen) (upset : List Nat) : Nat → List (Option Source) → Option Seen
  | _, [] => some ⟨0, 0⟩
  | j, x :: t =>
    match gatherBits f upset (j + 1) t with
    | none => none
    | some r =>
      match x with
      | none => some ⟨2 * r.value, r.bad⟩
      | some y =>
        if upset.contains j then some ⟨2 * r.value, r.bad + ((f y).map (·.bad)).getD 0 + 1⟩
        else match f y with
        | none => none
        | some a => some ⟨a.value % 2 + 2 * r.value, r.bad + a.bad⟩

/-- The used pairs among a list: pair j at bits 2j + 1 and 2j of the word, an unused pair 0, an illegal one valid with value 0b00 (R24, R56, R57). -/
def gatherPairs (f : Nat → Option Seen) (used : BitVec 18) (upset : List Nat) : List Nat → Option Seen
  | [] => some ⟨0, 0⟩
  | j :: t =>
    match gatherPairs f used upset t with
    | none => none
    | some r =>
      if !used.getLsbD j then some r
      else if upset.contains j then some ⟨r.value, r.bad + ((f j).map (·.bad)).getD 0 + 1⟩
      else match f j with
        | none => none
        | some a => some ⟨a.value % 4 * 4 ^ j + r.value, r.bad + a.bad⟩

/-- The word that a stage holds (value + 1; 0 a hole), of whose pairs those in `sent` are coded and the others stay at spacer (R56), at a stage that
examines the pairs `used`. -/
def wordSeen (sent used : BitVec 18) (upset : List Nat) (t : Nat) : Option Seen :=
  gatherPairs (fun j => if t = 0 || !sent.getLsbD j then none else some ⟨(t - 1) / 4 ^ j % 4, 0⟩) used upset (List.range 18)

/-- Bit `b` of a word that a stage holds: none of a pair that stays at spacer (R56). -/
def pairSeen (sent : BitVec 18) (t b : Nat) : Option Seen := if sent.getLsbD (b / 2) then bitSeen t b else none

/-! ### Cells (R27..R30) -/

/-- The cell's output has a stage: in LOGIC and CHAIN where it is set so, else always (R27). -/
def CellCfg.held (c : CellCfg) : Bool := c.staged || !(c.mode == .logic || c.mode == .chain)

/-- The site of a cell's output: of a STAGE cell its second stage (R33). -/
def CellCfg.site (c : CellCfg) (n : Fin 40) (i : Fin 65536) : Site := if c.mode = .stage then .second n i else .cell n i

/-- The index that a cell's inputs form: its own, and in CHAIN mode the chain input above four of them (R27, R28; assumption 91). -/
def CellCfg.index (c : CellCfg) (own below : Option Seen) : Option Seen :=
  if c.mode = .chain then
    match own, below with
    | some a, some b => some ⟨a.value % 16 + 16 * (b.value % 2), a.bad + b.bad⟩
    | _, _ => none
  else own

/-- The output of a cell at an index: the truth table (R28); a STAGE cell passes its bit on (R27, R33). -/
def CellCfg.output (c : CellCfg) (v : Nat) : Nat :=
  match c.mode with
  | .stage => v % 2
  | _ => b2n (c.table.getLsbD (v % 64))

/-- The chain output of a CHAIN cell (R30): valid as soon as its own inputs, and the chain input where they leave a choice, settle its value. -/
def CellCfg.chainOut (c : CellCfg) (own below : Option Seen) : Option Seen :=
  match own with
  | none => none
  | some a =>
    let v := fun carry => b2n (c.chainTable.getLsbD (a.value % 16 + 16 * carry))
    match below with
    | some b => some ⟨v (b.value % 2), a.bad + b.bad⟩
    | none => if v 0 = v 1 then some ⟨v 0, a.bad⟩ else none

/-- How deep unstaged elements may stand: a chain of 64 cells, and four before a stage (R29, R30, R53). A deeper path, or a loop without a stage, brings
nothing (assumption 91). -/
def netDepth : Nat := 72

/-- Whether a CHAIN cell takes a chain input: the cell below stands in its tile's column of four clusters (R30; assumption 91). -/
def CellCfg.chains (c : CellCfg) (i : Nat) : Bool := c.mode == .chain && c.chained && i % 64 != 0

/-- Whether the cell's output carries the second reply bit of the MEM32 cell below it (R27). -/
def State.lent (s : State) (n i : Nat) : Bool := i % 16 != 0 && (s.cell n (i - 1)).cfg.mode == .mem32

/-- A cell's output holds tokens: it has a stage, or carries a reply bit of the cell below (R27). -/
def State.heldOut (s : State) (n i : Nat) : Bool := (s.cell n i).cfg.held || s.lent n i

/-- The site of a cell's output. -/
def State.outSite (s : State) (n : Fin 40) (i : Fin 65536) : Site := if s.lent n i then .cell n i else (s.cell n i).cfg.site n i

/-- The tree that clocks a cell's output: for a reply bit the one that clocks the cell below. -/
def State.outClock (s : State) (n i : Nat) : Option (Fin 4) := (s.cell n (if s.lent n i then i - 1 else i)).cfg.clock

/-- The bit that a source brings to an input of a clockless cell of a tile, through unstaged cells where they lie between (R28, R29, R53, R54); `up`: a cell's chain
output instead of its output. A clocked cell is reached through crossing elements of the tile only (R54, R66). -/
def State.see (s : State) (n : Fin 40) (tile : Fin 256) (o : List (Nat × Rail)) : Nat → Bool → Source → Option Seen
  | 0, _, _ => none
  | k + 1, up, x =>
    match x with
    | .outside w => wireOn o w
    | .tap t i => if s.taps.contains (n.val, t.val, i) then some ⟨1, 0⟩ else none
    | .eject j b => pairSeen (s.hopUsed n ⟨tile, .eject, j, false⟩) (s.siteTok (.word n ⟨tile, .eject, j, false⟩)) b
    | .element e b => match s.element n e with
      | some x => if x.cfg.into || x.cfg.tile != tile then none else bitSeen x.tok b
      | none => none
    | .cell i =>
      let c := (s.cell n i).cfg
      if i.val / 256 != tile.val || (s.outClock n i).isSome then none
      else if !up && s.heldOut n i then bitSeen (s.siteTok (s.outSite n i)) 0
      else
        let own := gatherBits (s.see n tile o k false) [] 0 c.inputs
        let below := if c.chains i then s.see n tile o k true (.cell (i - 1)) else some ⟨0, 0⟩
        if up then c.chainOut own below
        else match c.index own below with
          | none => none
          | some a => some ⟨c.output a.value, a.bad⟩

/-- The stages and other holders of tokens that a source's cone ends at. -/
def State.cone (s : State) (n : Fin 40) (tile : Fin 256) : Nat → Bool → Source → List TokenFrom
  | 0, _, _ => []
  | k + 1, up, x =>
    match x with
    | .outside _ => []
    | .tap t i => [.tap n t i]
    | .eject j _ => [.stage (.word n ⟨tile, .eject, j, false⟩)]
    | .element e _ => if (s.element n e).any (·.cfg.tile == tile) then [.stage (.element n e)] else []
    | .cell i =>
      let c := (s.cell n i).cfg
      if i.val / 256 != tile.val || (s.outClock n i).isSome then []
      else if !up && s.heldOut n i then [.stage (s.outSite n i)]
      else
        (c.inputs.filterMap id).flatMap (s.cone n tile k false) ++
          (if c.chains i then s.cone n tile k true (.cell (i - 1)) else [])

/-- The cone of a list of inputs. -/
def State.cones (s : State) (n : Fin 40) (tile : Fin 256) (l : List (Option Source)) : List TokenFrom :=
  (l.filterMap id).flatMap (s.cone n tile netDepth false)

/-- The tile of a cell. -/
def tileOf (i : Fin 65536) : Fin 256 := Fin.ofNat 256 (i.val / 256)

/-- The bits that a word leaving its tile takes: those of its used pairs (R56, R59). -/
def usedInputs (used : BitVec 18) (l : List (Option Source)) : List (Option Source) :=
  (l.take 36).mapIdx fun j x => if used.getLsbD (j / 2) then x else none

/-- The hop stage that leads into an isolation cell, and the one that takes its words. -/
def State.hopInto (s : State) (x : IsoSite) : Option WordStage :=
  match x.producer with
  | some n => (s.regionHops n).find? fun w => w.cfg.exit == some x
  | none => none
def State.hopFrom (s : State) (x : IsoSite) : Option WordStage :=
  match x.consumer with
  | some n => (s.regionHops n).find? fun w => w.cfg.source == .border x
  | none => none

/-- The pairs that a border's word uses; all of them where no image says. -/
def State.isoUsed (s : State) (x : IsoSite) : BitVec 18 :=
  match s.hopInto x, s.hopFrom x with
  | some w, _ => w.cfg.used
  | none, some w => w.cfg.used
  | none, none => 0x3FFFF

/-- The bit that drives a fabric output (R148), and its tile. -/
def State.foutSource (s : State) (n b : Nat) : Option (Fin 256 × Source) :=
  ((Tbl.find RegionImg.blank s.images n).fouts.find? (·.1 == b)).map (·.2)

/-- The lowest mailbox of region `n` with a token outstanding (R362). -/
def State.boxToken (s : State) (n : Nat) : Option Nat :=
  (List.range 64).find? fun m => (s.box m).tokenOut && s.fld .PST_MB_OWNER_OWNER m == n + 1

/-- The place of a CHAIN cell's chain input among its inputs, above its own (R27). -/
def chainPlace : Nat := 4

/-- What the chain input of a stage brings, where it has one; 0 where an upset leaves it illegal (R24, R27, R30). -/
def State.carry (s : State) (n : Fin 40) (i : Fin 65536) (o : List (Nat × Rail)) (u : List Nat) : Option Seen :=
  if (s.cell n i).cfg.chains i then
    let below := s.see n (tileOf i) o netDepth true (.cell (i - 1))
    if u.contains chainPlace then some ⟨0, (below.map (·.bad)).getD 0 + 1⟩ else below
  else some ⟨0, 0⟩

/-- What the inputs of a stage bring, once every used one is valid (R25, R28, R56). A memory cell takes requests instead (R31). -/
def State.arrives (s : State) (o : List (Nat × Rail)) (u : List Nat) : Site → Option Seen
  | .cell n i =>
    let c := (s.cell n i).cfg
    if c.clock.isSome || !c.held || s.lent n i then none
    else match c.mode with
      | .mem64 | .mem32 => none
      | _ =>
        let own := gatherBits (s.see n (tileOf i) o netDepth false) u 0 c.inputs
        match c.index own (s.carry n i o u) with
        | none => none
        | some a => some ⟨c.output a.value, a.bad⟩
  | .second n i =>
    let c := (s.cell n i).cfg
    if c.clock.isSome || c.mode != .stage || s.lent n i then none
    else if u.contains 0 then some ⟨0, 1⟩
    else match bitSeen (s.siteTok (.cell n i)) 0 with
      | none => none
      | some a => some a
  | .word n h =>
    match s.hop n h with
    | none => none
    | some w =>
      match w.cfg.source with
      | .bits l => gatherBits (s.see n h.tile o netDepth false) u 0 (usedInputs w.cfg.used l)
      | .hop g => wordSeen (s.hopUsed n g) w.cfg.used u (s.siteTok (.word n g))
      | .border x => wordSeen (s.isoUsed x) w.cfg.used u (s.siteTok (.iso x))
      | .events => match s.evt.tokens.find? (·.1 == n.val) with
        | some e => wordSeen 0x3FFFF w.cfg.used u (e.2 + 1)
        | none => none
      | .mailboxes => match s.boxToken n with
        | some m => wordSeen 0x3FFFF w.cfg.used u (m + 1)
        | none => none
      | .outside k => gatherPairs (fun j => wireOn o (k + j)) w.cfg.used u (List.range 18)
  | .iso x =>
    match x.producer, s.hopInto x with
    | some n, some w => wordSeen w.cfg.used w.cfg.used u (s.siteTok (.word n w.hop))
    | some _, none => none
    | none, _ => gatherPairs (wireOn o) (s.isoUsed x) u (List.range 18)
  | .element n k =>
    match s.element n k with
    | none => none
    | some e => if e.cfg.into then gatherBits (s.see n e.cfg.tile o netDepth false) u 0 e.cfg.inputs else none
  | .fout n b =>
    match s.foutSource n b with
    | none => none
    | some x => gatherBits (s.see n x.1 o netDepth false) u 0 [some x.2]
  | .tree t =>
    match (s.tree t).cfg with
    | some ⟨_, .cell n i⟩ => gatherBits (s.see n (tileOf i) o netDepth false) u 0 [some (.cell i)]
    | _ => none
  | .port n h =>
    match s.hop n h with
    | some w => if w.cfg.sink then wordSeen w.cfg.used w.cfg.used u (s.siteTok (.word n h)) else none
    | none => none
  | .hardPort x => if x.consumer.isNone then wordSeen (s.isoUsed x) (s.isoUsed x) u (s.siteTok (.iso x)) else none

/-- Whose tokens the inputs of a stage are. -/
def State.coneOf (s : State) : Site → List TokenFrom
  | .cell n i =>
    let c := (s.cell n i).cfg
    if c.clock.isSome || !c.held || s.lent n i then []
    else s.cones n (tileOf i) c.inputs ++ (if c.chains i then s.cone n (tileOf i) netDepth true (.cell (i - 1)) else [])
  | .second n i => if (s.cell n i).cfg.clock.isSome || s.lent n i then [] else [.stage (.cell n i)]
  | .word n h =>
    match s.hop n h with
    | none => []
    | some w =>
      match w.cfg.source with
      | .bits l => s.cones n h.tile (usedInputs w.cfg.used l)
      | .hop g => [.stage (.word n g)]
      | .border x => [.stage (.iso x)]
      | .events => [.eventChannel n]
      | .mailboxes => [.mailboxChannel n]
      | .outside _ => []
  | .iso x =>
    match x.producer, s.hopInto x with
    | some n, some w => [.stage (.word n w.hop)]
    | _, _ => []
  | .element n k =>
    match s.element n k with
    | some e => if e.cfg.into then s.cones n e.cfg.tile e.cfg.inputs else []
    | none => []
  | .fout n b =>
    match s.foutSource n b with
    | some x => s.cones n x.1 [some x.2]
    | none => []
  | .tree t =>
    match (s.tree t).cfg with
    | some ⟨_, .cell n i⟩ => s.cones n (tileOf i) [some (.cell i)]
    | _ => []
  | .port n h => if (s.hop n h).any (·.cfg.sink) then [.stage (.word n h)] else []
  | .hardPort x => if x.consumer.isNone then [.stage (.iso x)] else []

/-- Whether a token stands there. -/
def State.holdsToken (s : State) : TokenFrom → Bool
  | .stage x => s.siteTok x != 0
  | .tap n t k => s.taps.contains (n.val, t.val, k)
  | .eventChannel n => s.evt.tokens.any (·.1 == n.val)
  | .mailboxChannel n => (s.boxToken n).isSome

/-- The inputs of a stage, each with its place (R28, R56). -/
def State.inputsOf (s : State) : Site → List (Option Source)
  | .cell n i => (s.cell n i).cfg.inputs
  | .word n h => match s.hop n h with
    | some w => match w.cfg.source with
      | .bits l => usedInputs w.cfg.used l
      | _ => []
    | none => []
  | .element n k => match s.element n k with
    | some e => e.cfg.inputs
    | none => []
  | .fout n b => match s.foutSource n b with
    | some x => [some x.2]
    | none => []
  | _ => []

/-- The tile of a stage's inputs. -/
def State.inputTile (s : State) : Site → Fin 256
  | .cell _ i => tileOf i
  | .word _ h => h.tile
  | .element n k => match s.element n k with
    | some e => e.cfg.tile
    | none => 0
  | .fout n b => match s.foutSource n b with
    | some x => x.1
    | none => 0
  | _ => 0

/-- Whose tokens the chain input of a stage is made of. -/
def State.chainCone (s : State) : Site → List TokenFrom
  | .cell n i => if (s.cell n i).cfg.chains i then s.cone n (tileOf i) netDepth true (.cell (i - 1)) else []
  | _ => []

/-- The tokens that a stage takes as it captures. An input that an upset leaves illegal completes its handshake with the tokens that stand there; one that has
none is owed none (R24). -/
def State.takesOf (s : State) (u : List Nat) (x : Site) : List TokenFrom :=
  if u.isEmpty then s.coneOf x
  else
    let region := (s.regionOf x).getD 0
    let bad := ((s.inputsOf x).zipIdx.flatMap fun e => if u.contains e.2 then s.cones region (s.inputTile x) [e.1] else []) ++
      (if u.contains chainPlace then s.chainCone x else [])
    let word := (s.inputsOf x).isEmpty
    (s.coneOf x).filter fun l => s.holdsToken l || !(word || bad.contains l)

/-! ### Tokens that leave (R25, R26) -/

/-- The sites of region `n` that take tokens of the region. -/
def State.sitesOf (s : State) (n : Fin 40) : List Site :=
  ((s.regionCells n).flatMap fun e =>
      let i := Fin.ofNat 65536 e.1
      .cell n i :: (if e.2.cfg.mode = .stage then [.second n i] else [])) ++
    ((s.regionHops n).flatMap fun w => .word n w.hop :: (w.cfg.exit.map Site.iso).toList ++ (if w.cfg.sink then [.port n w.hop] else [])) ++
    ((s.elements.filter fun e => e.1 % 40 == n.val).map fun e => .element n (e.1 / 40)) ++
    ((List.finRange 8).map fun b => .fout n b) ++
    (((List.finRange 4).filter fun t => s.regionOf (.tree t) == some n).map Site.tree)

/-- The region of a token's holder; for an isolation cell its consumer's. -/
def TokenFrom.region : TokenFrom → Option (Fin 40)
  | .stage (.cell n _) => some n
  | .stage (.second n _) => some n
  | .stage (.word n _) => some n
  | .stage (.element n _) => some n
  | .stage (.fout n _) => some n
  | .stage (.iso x) => x.consumer
  | .stage _ => none
  | .tap n _ _ => some n
  | .eventChannel n => some n
  | .mailboxChannel n => some n

/-- The sites that take a token: every one whose cone it lies in. -/
def State.takers (s : State) (l : TokenFrom) : List Site :=
  match l, l.region with
  | .stage (.iso x), none => [.hardPort x]
  | _, none => []
  | _, some n => (s.sitesOf n).filter fun x => (s.coneOf x).contains l

/-- The holder's handshake ends: it holds the token no more (R25, R63, R533, R362). -/
def State.releaseFrom (s : State) : TokenFrom → State
  | .stage x => s.setSite x 0
  | .tap n t k => { s with taps := s.taps.filter (· ≠ (n.val, t.val, k)) }
  | .eventChannel n => { s with evt := { s.evt with tokens := match s.evt.tokens.find? (·.1 == n.val) with
      | some e => s.evt.tokens.erase e
      | none => s.evt.tokens } }
  | .mailboxChannel n => match s.boxToken n with
    | some m => s.setBox m { s.box m with tokenOut := false }
    | none => s

/-- A token that every consumer has taken leaves its holder (R25): none is repeated, and none is lost while one still wants it (R26). -/
def State.settleToken (s : State) (l : TokenFrom) : State :=
  let ts := s.takers l
  if ts.isEmpty || !s.holdsToken l || ts.any (fun x => !s.taken.contains (l, x)) then s
  else { s.releaseFrom l with taken := s.taken.filter (·.1 != l) }

/-- Whether stage `x` may take its next token: it owes nothing to a part of its cone that is still to come (R28, R30). -/
def State.mayCapture (s : State) (x : Site) (ls : List TokenFrom) : Bool := ls.all fun l => !s.taken.contains (l, x)

/-- Stage `x` takes the tokens of its cone, each of which leaves its holder once every consumer has taken it. -/
def State.takeTokens (s : State) (x : Site) (ls : List TokenFrom) : State :=
  { s with taken := s.taken ++ ls.eraseDups.map fun l => (l, x) }.each ls.eraseDups fun l s => s.settleToken l

/-- Records `k` illegal codes received in region `n` (R24, R57, R51). -/
def State.codeErrors (s : State) (n k : Nat) : State :=
  if k = 0 then s
  else (((s.put .CFG_FAB_STAT_CODE_ERR n 1).bump .CFG_FAB_STAT_CODE_CNT n k).raise (164 + n)).perf 1 n 33 k none

/-- Whether a stage stands ready: its region woken and the stage a hole (R25, R37). -/
def State.stageReady (s : State) (x : Site) : Bool :=
  s.siteTok x == 0 && match s.regionOf x with
    | some n => s.woken n
    | none => true

/-! ### The taps of a tree -/

/-- The taps of tree `t` among a list of inputs. -/
def tapsAmong (t : Nat) (l : List (Option Source)) : List Nat :=
  l.filterMap fun x => match x with
    | some (.tap u k) => if u.val = t then some k else none
    | _ => none

/-- The taps of tree `t` that region `n` places (R63). -/
def State.tapsOf (s : State) (n t : Nat) : List Nat :=
  (((s.regionCells n).flatMap fun e => tapsAmong t e.2.cfg.inputs) ++
    ((s.regionHops n).flatMap fun w => match w.cfg.source with
      | .bits l => tapsAmong t l
      | _ => []) ++
    ((s.elements.filter fun e => e.1 % 40 == n).flatMap fun e => match e.2 with
      | some x => tapsAmong t x.cfg.inputs
      | none => []) ++
    tapsAmong t ((Tbl.find RegionImg.blank s.images n).fouts.map fun f => some f.2.2)).eraseDups

/-- A pulse of tree `t` is on its way to every tap of every woken region (R61, R63). -/
def State.pulseTree (s : State) (t : Nat) : State :=
  { s with flying := s.flying ++ ((List.range 40).filter s.woken).flatMap fun n => (s.tapsOf n t).map fun k => (n, t, k) }

/-- A tree that an image sets to carry a user clock (R61). -/
def Tree.clocks (x : Tree) : Bool := x.cfg.any fun c => !c.strobe

/-- The source of one of the trees T4..T7 takes a level: a rise is a pulse, and of a user clock an edge on its way to the clusters that it clocks (R61). -/
def State.treeLevel (s : State) (t : Nat) (b : Bool) : State :=
  let x := s.tree t
  let rises := b && !x.level
  (s.setTree t { x with level := b, edges := x.edges + b2n (rises && x.clocks) }).when rises (·.pulseTree (4 + t))

/-- Whether the source of one of the trees T4..T7 is the pin mapped to its sink (R61). -/
def State.pinTree (s : State) (t : Nat) : Bool :=
  match (s.tree t).cfg with
  | some ⟨_, .pin⟩ => true
  | _ => false

end Sys2Proof.Machine
end

