-- ==== Sys2Proof/Machine/SorterOps.lean ====
section
/-! DEFINITION. What a sorter holds and in which order (R130..R137): insertion with its checks, the head, due entries,
gates, flushing and range drops. -/

namespace Sys2Proof.Machine

/-- Sorter `n` beside its registers. -/
def State.srt (s : State) (n : Nat) : Sorter := Tbl.find Sorter.reset s.sorters n

/-- Sets sorter `n` and keeps COUNT, EMPTY and FULL true to it (R153). -/
def State.setSrt (s : State) (n : Nat) (x : Sorter) : State :=
  let k := x.entries.length
  { s with sorters := Tbl.set Sorter.reset s.sorters n x } |>.put .SRT_STAT_COUNT n k
    |>.put .SRT_STAT_EMPTY n (b2n (k == 0)) |>.put .SRT_STAT_FULL n (b2n (decide (4096 ≤ k)))

/-- The axis of sorter `n`. -/
def State.srtAxis (s : State) (n : Nat) : Nat := s.fld .SRT_CTL_AXIS n

/-- The difference d(e, x) of a postmark from the position of an axis (R109). -/
def State.ahead (s : State) (a pm : Nat) : Int := pmDiff pm (s.axisPm a)

/-- 2^43 counts, in the units of d. -/
def reach : Int := 2 ^ 59

/-- Axis `a` is TRACKING or DEAD_RECKONING. -/
def State.axisRuns (s : State) (a : Nat) : Bool :=
  let st := s.fld .POS_AX_STAT_STATE a
  st == 1 || st == 2

/-- The first entry, in insertion order, with the least value of `f`. -/
def pickBy (f : Entry → Int) : List Entry → Option Entry
  | [] => none
  | e :: t => match pickBy f t with
    | none => some e
    | some b => if f b < f e then some b else some e

/-- The entry of sorter `n` whose release waits for a gate (R137). -/
def State.stuckOf (s : State) (n : Nat) : Option Entry :=
  match (s.srt n).stuck with
  | some q => (s.srt n).entries.find? (·.seq == q.1)
  | none => none

/-- The head of sorter `n` in its order (R133); a release that waits for its gate stays at the head (R137). The reserved ORDER, which no entry of a
sorter that is enabled can meet, reads as FOLLOW: the spec names no head for it (DESIGN CHOICE, assumption 93). -/
def State.headOf (s : State) (n : Nat) (l : List Entry) : Option Entry :=
  let d := fun (e : Entry) => s.ahead (s.srtAxis n) e.pm
  let back := s.on .POS_AX_STAT_DIR (s.srtAxis n)
  if (s.stuckOf n).isSome then s.stuckOf n
  else match s.fld .SRT_CTL_ORDER n with
  | 0 => pickBy d l
  | 1 => pickBy (fun e => -d e) l
  | _ =>
    let side := l.filter (fun e => if back then decide (d e ≤ 0) else decide (0 ≤ d e))
    if back then (if side.isEmpty then pickBy d l else pickBy (fun e => -d e) side)
    else (if side.isEmpty then pickBy (fun e => -d e) l else pickBy d side)

/-- The due entry that leaves next: due entries leave in head order (R134). In FOLLOW, where the head of entries already crossed would be the one nearest
the axis, they leave in the order the motion reached them (DESIGN CHOICE, assumption 93). -/
def State.nextDue (s : State) (n : Nat) : Option Entry :=
  let l := (s.srt n).entries.filter (·.due)
  let d := fun (e : Entry) => s.ahead (s.srtAxis n) e.pm
  match s.fld .SRT_CTL_ORDER n with
  | 0 => pickBy d l
  | 1 => pickBy (fun e => -d e) l
  | _ => if s.on .POS_AX_STAT_DIR (s.srtAxis n) then pickBy (fun e => -d e) l else pickBy d l

/-- An entry already due when it is inserted in TIMED mode (R134, R136): how far it lies past its crossing. -/
def State.pastBy (s : State) (n pm : Nat) : Option Nat :=
  let d := s.ahead (s.srtAxis n) pm
  if s.on .SRT_CTL_MODE n then none
  else match s.fld .SRT_CTL_ORDER n with
    | 0 => if d ≤ 0 then some d.natAbs else none
    | 1 => if 0 ≤ d then some d.natAbs else none
    | _ => none

/-- An entry is discarded: counter, flag and event source 48 + n (R132, R133, R136). -/
def State.srtDiscard (s : State) (n : Nat) (flag : Fld) (cnt : Option Fld) : State :=
  let s := match cnt with
    | some c => s.bump c n 1
    | none => s
  ((s.put flag n 1).raise (48 + n)).perf 6 n 2 1 none

/-- The place in insertion order of the next entry, over all sorters: cells keep it among actions of different ones (R139). -/
def State.nextPlace (s : State) : Nat := s.sorters.foldl (fun n e => max n e.2.next) 0

/-- The checks of R132 in their order, on an entry's 128 bits: the new state and the result code of SRT_INS_RES; FULL
changes nothing. -/
def State.insertCore (s : State) (n raw : Nat) : State × Nat :=
  let pm := raw % 2 ^ 64
  let x := s.srt n
  let d := s.ahead (s.srtAxis n) pm
  let add := fun (late : Bool) => (s.setSrt n { x with
      entries := x.entries ++ [⟨pm, raw / 2 ^ 64 % 2 ^ 63, s.nextPlace, late, late, 64 * s.tb⟩], next := s.nextPlace + 1 }).perf 6 n 0 1 none
  if raw / 2 ^ 127 % 2 = 0 then (s, 7)
  else if pmAxis pm ≠ s.srtAxis n then (s.srtDiscard n .SRT_STAT_BAD none, 4)
  else if 4096 ≤ x.entries.length then (s, 3)
  else if reach < d || d < -reach then (s.srtDiscard n .SRT_STAT_RANGE (some .SRT_ERR_RANGE_DROP), 5)
  else match s.pastBy n pm with
    | none => (add false, 1)
    | some δ =>
      if δ ≤ s.fld .SRT_LATE_TOL_TOL n then (add true, 2)
      else (s.srtDiscard n .SRT_STAT_LATE (some .SRT_ERR_LATE_DROP), 6)

/-- Takes an entry out of sorter `n`; one whose release waits for a gate waits no longer. -/
def State.takeEntry (s : State) (n : Nat) (e : Entry) : State :=
  let x := s.srt n
  s.setSrt n { x with entries := x.entries.filter (·.seq != e.seq), stuck := if x.stuck.any (·.1 == e.seq) then none else x.stuck }

/-- Puts an entry back in its place in insertion order. -/
def putBack (e : Entry) : List Entry → List Entry
  | [] => [e]
  | f :: t => if e.seq < f.seq then e :: f :: t else f :: putBack e t

/-- An armed entry goes back to its sorter unchanged (R139). -/
def State.disarm (s : State) (a : Armed) : State :=
  let s := { s with pins := { s.pins with armed := s.pins.armed.erase a } }
  s.setSrt a.sorter { s.srt a.sorter with entries := putBack a.entry (s.srt a.sorter).entries }

/-- Armed entries that a predicate picks go back (R139). -/
def State.disarmAll (s : State) (p : Armed → Bool) : State := s.each (s.pins.armed.filter p) fun a s => s.disarm a

/-- The 128 bits of an entry (R130). -/
def Entry.raw (e : Entry) : Nat := e.pm % 2 ^ 64 + 2 ^ 64 * (e.payload % 2 ^ 63) + 2 ^ 127

/-- The word that an empty sorter returns (R135): the axis position with VALID 0. -/
def State.emptyRead (s : State) (n : Nat) : Nat := s.axisPm (s.srtAxis n) % 2 ^ 64

/-- An entry has come to lie more than 2^43 counts from its axis (R133): behind it in ASCENDING order, ahead of it in DESCENDING order, on either
side in FOLLOW. -/
def State.outOfRange (s : State) (n : Nat) (e : Entry) : Bool :=
  let d := s.ahead (s.srtAxis n) e.pm
  match s.fld .SRT_CTL_ORDER n with
  | 0 => decide (d < -reach)
  | 1 => decide (reach < d)
  | _ => decide (reach < d) || decide (d < -reach)

/-- Discards every entry of sorter `n` present, and the release that waits for a gate, and records how many (R137, R153).
It answers the postmarks discarded as well. -/
def State.flushSorter (s : State) (n : Nat) : State × List Nat :=
  let x := s.srt n
  let s := (s.setSrt n { x with entries := [], stuck := none }).put .SRT_FLUSH_CNT_COUNT n x.entries.length
  (s, x.entries.map (·.pm))

/-- A ring stop holds axis `a` (R221). -/
def State.stopHolds (s : State) (a : Nat) : Bool :=
  (List.range 2).any fun r => s.on .LNK_RING_STAT_STOPPED r && bitOf (s.fld .LNK_RING_CTL_STOP_AXES r) a

/-- Sorter `n` may release (R134, R221): one entry every 2 ns. -/
def State.mayRelease (s : State) (n : Nat) : Bool :=
  s.on .SRT_CTL_EN n && !s.on .SRT_CTL_MODE n && s.axisRuns (s.srtAxis n) && !s.stopHolds (s.srtAxis n) &&
    ((s.srt n).lastRel == 0 || decide ((s.srt n).lastRel + 128 ≤ 64 * s.tb + 1))

/-- Sorter `n` has released an entry (R134, R525). -/
def State.noteRelease (s : State) (n : Nat) : State := (s.setSrt n { s.srt n with lastRel := 64 * s.tb + 1 }).perf 6 n 1 1 none

/-- A gate's place. -/
def gateKey (n g : Nat) : Nat := n * 2 + g

/-- Puts an entry into a gate's buffer (R137): the tag of its word 0 is 0x1 where it is late, where the region is not woken, or where it stands behind
others, so that the buffer delays it. -/
def State.intoGate (s : State) (n g : Nat) (late : Bool) (e : Entry) : State :=
  let l := Tbl.find [] s.gates (gateKey n g)
  { s with gates := Tbl.set [] s.gates (gateKey n g) (l ++ [⟨e.raw, late || !s.woken n || !l.isEmpty, e.dueT⟩]) }

/-- The tag of word 0 of an entry that leaves a gate's buffer now (R134, R137): 0x0 within 16 ns of falling due. -/
def State.gateTag (s : State) (w : GateEntry) : Nat := b2n (w.late || decide (w.dueT + 1024 < 64 * s.tb))

/-- The entries in the gate buffers of a region that leaves WOKEN are delayed by the buffer (R137). -/
def State.delayGates (s : State) (n : Nat) : State :=
  s.each [0, 1] fun g s => { s with gates := Tbl.upd [] s.gates (gateKey n g) (·.map ({ · with late := true })) }

/-! ### Ports of the fabric cache agents (R76, R78, R317, R318) -/

/-- The region an agent serves (R318). -/
def agentRegion (a : Nat) : Nat := a / 2 + 32 * (a % 2)

/-- The flag of CFG_AGT_STAT for a status (R317). -/
def agentFlag (status : Nat) : Option Fld :=
  if status = 1 then some .CFG_AGT_STAT_REFUSED else if status = 2 then some .CFG_AGT_STAT_INTEG
  else if status = 15 then some .CFG_AGT_STAT_POISON else none

/-- A read operation: its reply carries the line. -/
def AgentOp.reads : AgentOp → Bool
  | .read | .readOwn | .readNa => true
  | _ => false

/-- A reply leaves port `p` of agent `a` (R78): the flag of its status, with the region's event source as it is set, and the
tokens, which the border discards while the region is not WOKEN (R444). -/
def State.agentReply (s : State) (a p : Nat) (r : PortReq) (st : Nat × Nat) : State :=
  let s := match agentFlag st.1 with
    | some f => (s.put f a 1).when (!s.on f a) (·.raise (164 + agentRegion a))
    | none => s
  if s.woken (agentRegion a) then s.emit (.agentReply a p st.1 r.word (if r.op.reads then some st.2 else none))
  else s.bump .CFG_ISO_CNT_ABSORBED (agentRegion a) 1

/-- Sets the requests that a port holds. -/
def State.setPort (s : State) (a p : Nat) (l : List PortReq) : State :=
  { s with memo := { s.memo with ports := Tbl.set [] s.memo.ports (a * 16 + p) l } }

/-- The requests that a port holds. -/
def State.portReqs (s : State) (a p : Nat) : List PortReq := Tbl.find [] s.memo.ports (a * 16 + p)

/-- Replies leave a port in the order it took their requests (R78); a FENCE at the front is complete (R308). -/
def State.releaseReplies (s : State) (a p : Nat) : List PortReq → State
  | [] => s.setPort a p []
  | r :: t => match (if r.op = .fence then some (0, 0) else r.done) with
    | some st => (s.agentReply a p r st).releaseReplies a p t
    | none => s.setPort a p (r :: t)

/-- Marks the first STREAM on its way as done. -/
def doneStream : List PortReq → List PortReq
  | [] => []
  | r :: t => if r.op = .stream && r.sent && r.done.isNone then { r with done := some (0, 0) } :: t else r :: doneStream t

/-- The last entry of a STREAM is in (R131): its port's status may follow. `tag` is the port's place + 1; 0 names none. -/
def State.streamDone (s : State) (tag : Nat) : State :=
  if tag = 0 then s
  else
    let a := (tag - 1) / 16
    let p := (tag - 1) % 16
    s.releaseReplies a p (doneStream (s.portReqs a p))

end Sys2Proof.Machine
end

