-- ==== Sys2Proof/Machine/PinOps.lean ====
section
/-! DEFINITION. What the timed pins hold and show: the crossbar and its active sources (R148, R149), conflicts (R150),
pad levels (R144), bank holds (R147), placement cells (R138..R141) and locks (R151). -/

namespace Sys2Proof.Machine

/-- Placement cell `c` beside its registers. -/
def State.plc (s : State) (c : Nat) : PlcCell := Tbl.find PlcCell.reset s.plcs c

/-- Sets cell `c`. -/
def State.setPlc (s : State) (c : Nat) (x : PlcCell) : State := { s with plcs := Tbl.set PlcCell.reset s.plcs c x }

/-! ### The crossbar -/

/-- A PMBus line is active while the controller runs, which D22 clocks (R149). -/
def State.pmbActive (s : State) : Bool := s.runs 22 && !s.isHeld 22

/-- A sorter on an axis that is OFF or LOST may drive cell `c`: the cell is bound to that axis and holds its pin idle (R123). Which sorters bind a cell
to an axis no rule states: those whose target permits it (DEDUCED, assumption 93). -/
def State.cellFrozen (s : State) (c : Nat) : Bool :=
  (List.range 64).any fun n => !s.on .SRT_TGT_KIND n && s.fld .SRT_TGT_GROUP n == c / 16 && bitOf (s.fld .SRT_TGT_PERMIT n) (c % 16) &&
    !s.axisRuns (s.srtAxis n)

/-- Cell `c` holds its pin at its idle state for its axis (R123): it has no edge to place that it had committed. -/
def State.cellIdle (s : State) (c : Nat) : Bool := s.cellFrozen c && (s.plc c).commits.isEmpty && (s.plc c).ret.isNone

/-- Output source `k` presents a value (R149): a placement cell while EN is 1, and then until the edges it has committed are placed. -/
def State.sourceActive (s : State) (k : Nat) : Bool :=
  if k < 192 then true
  else if k < 384 then
    s.on .PIN_PLC_CTL_EN (k - 192) || !(s.plc (k - 192)).commits.isEmpty || (s.plc (k - 192)).ret.isSome
  else if k < 704 then s.woken ((k - 384) / 8)
  else if k < 736 then Tbl.find 0 s.pins.pwm (k - 704) / 65536 != 0
  else if k < 752 then s.axisRuns ((k - 736) / 2)
  else s.pmbActive

/-- The mappings that name a pin, as (source, pin) (R148). -/
def State.mapped (s : State) : List (Nat × Nat) :=
  ((s.regs.filter (fun e => e.1 % 1024 == Fld.PIN_OMAP_PIN.ctorIdx)).map
    (fun e => (e.1 / 1024, s.fld .PIN_OMAP_PIN (e.1 / 1024)))).filter (fun e => decide (e.2 < 192))

/-- The active sources of pin `p`. -/
def State.driversOf (s : State) (p : Nat) : List Nat :=
  (s.mapped.filter (fun e => e.2 == p && s.sourceActive e.1)).map (·.1)

/-- A sink number that names a sink (R148). -/
def sinkOk (k : Nat) : Bool :=
  (decide (1 ≤ k) && decide (k ≤ 0x10)) || (decide (0x20 ≤ k) && decide (k ≤ 0x23)) ||
    (decide (0x30 ≤ k) && decide (k ≤ 0x32)) || (decide (0x100 ≤ k) && decide (k ≤ 0x23F))

/-- The pins that feed a sink, as (pin, sink). -/
def State.feeds (s : State) : List (Nat × Nat) :=
  ((s.regs.filter (fun e => e.1 % 1024 == Fld.PIN_IMAP_SINK.ctorIdx)).map
    (fun e => (e.1 / 1024, s.fld .PIN_IMAP_SINK (e.1 / 1024)))).filter (fun e => sinkOk e.2)

/-- The default value of a sink (R148). -/
def sinkDefault (k : Nat) : Bool := decide (0x30 ≤ k) && decide (k ≤ 0x32)

/-- Pins in conflict, driven by two or more sources and sharing a sink (R150). -/
def State.conflicts (s : State) : List Nat × List Nat :=
  let m := s.mapped.filter (fun e => s.sourceActive e.1)
  let f := s.feeds
  ((m.map (·.2)).filter (fun p => decide (2 ≤ (m.filter (fun e => e.2 == p)).length)),
   (f.filter (fun e => decide (2 ≤ (f.filter (fun g => g.2 == e.2)).length))).map (·.1))

/-- The bits of a list of pins that lie in bank `b`. -/
def bankMask (b : Nat) (l : List Nat) : Nat :=
  (l.filter (fun p => p / 16 == b)).foldl (fun m p => orBit m (p % 16)) 0

/-- Enters a phase of R150: the outcome of every conflict in place follows at once. -/
def State.setPhase (s : State) (ph : Nat) : State := s.put .PIN_GSTAT_PHASE 0 ph

/-! ### Levels -/

/-- What a pad is driven to: nothing, low or high. -/
inductive Drive where
  | released | low | high
  deriving DecidableEq, Repr

/-- A Boolean level as a drive. -/
def Drive.of (b : Bool) : Drive := if b then .high else .low

/-- The level of a PWM generator now (R156): high for HI µs from its period's start. -/
def State.pwmLevel (s : State) (i : Nat) : Bool :=
  let w := Tbl.find 0 s.pins.pwm i
  decide (64 * s.tb - Tbl.find 0 s.pins.pwmT i < w % 65536 * 64000)

/-- A phase of an axis repeat (R148): ×4 quadrature in the forward order of R101, which changes at each count crossed. At count 0 it is AB = 0b00, which
no rule states (DESIGN CHOICE, assumption 93). -/
def State.repeatLevel (s : State) (k : Nat) : Bool :=
  let q := s.axisPm (k / 2) % 2 ^ 61 / 65536 % 4
  if k % 2 = 0 then q == 1 || q == 2 else q == 2 || q == 3

/-- The IDLE state of a pin (R143). -/
def State.idleDrive (s : State) (p : Nat) : Drive :=
  match s.fld .PIN_CFG_IDLE p with
  | 1 => .low
  | 2 => .high
  | _ => .released

/-- The level an active source presents; none where no rule fixes it: a fabric output before its first token (R148), and a PMBus line, which the
controller drives. A cell that holds its pin idle presents that state's level (R123). -/
def State.sourceLevel (s : State) (k : Nat) : Option Bool :=
  if k < 192 then some (bitOf (s.fld .PIN_OUT_OUT (k / 16)) (k % 16))
  else if k < 384 then
    some (if s.cellIdle (k - 192) then s.idleDrive (s.fld .PIN_OMAP_PIN k) == .high else (s.plc (k - 192)).level)
  else if k < 704 then
    match Tbl.find 0 s.pins.fouts (k - 384) with
    | 0 => none
    | v + 1 => some (v == 1)
  else if k < 736 then some (s.pwmLevel (k - 704))
  else if k < 752 then some (s.repeatLevel (k - 736))
  else none

/-- A bank drives nothing while its range is 0b111 (R146) or its supply is below 0.6 V (R152). -/
def State.bankDead (s : State) (b : Nat) : Bool :=
  Tbl.find 0 s.pins.inForce b == 0 || Tbl.find 0 s.pins.vio b == 0

/-- Bank `b` is held (R147). -/
def State.bankHeld (s : State) (b : Nat) : Bool := s.on .PIN_BANK_STAT_HOLD b

/-- What the sources of pin `p` drive it to (R143, R149, R150): none where the model does not hold a source's level. Outside SERVICE the OR of the driving
sources; the PMBus lines, open-drain sources, drive only low and then add 0. OD holds for the IDLE state as for a source's level (DESIGN CHOICE, assumption 93). -/
def State.sourceDrive (s : State) (p : Nat) : Option Drive :=
  let od := fun (d : Drive) => if s.on .PIN_CFG_OD p && d = .high then Drive.released else d
  match s.driversOf p with
  | [] => some (od (s.idleDrive p))
  | [k] =>
    if 192 ≤ k && k < 384 && s.cellIdle (k - 192) then some (od (s.idleDrive p)) else (s.sourceLevel k).map (fun v => od (Drive.of v))
  | ks =>
    if s.fld .PIN_GSTAT_PHASE 0 = 1 then some (od (s.idleDrive p))
    else
      let vs := (ks.filter (· < 752)).map s.sourceLevel
      if vs.any (· == some true) then some (od .high)
      else if !vs.isEmpty && vs.all (·.isSome) then some (od .low)
      else none

/-- A drive that is known, as a number (R147). -/
def Drive.code (d : Option Drive) : Nat := match d with
  | none => 0
  | some .released => 1
  | some .low => 2
  | some .high => 3

/-- The drive of a number. -/
def Drive.ofCode (n : Nat) : Option Drive := match n with
  | 1 => some .released
  | 2 => some .low
  | 3 => some .high
  | _ => none

/-- What the boundary register drives on every pad while it controls them (R513, R514): nothing under HIGHZ or in scan, and what was shifted into it, which the
model does not hold, under EXTEST or CLAMP (assumption 100). -/
def State.scanDrive (s : State) : Option (Option Drive) :=
  let code := s.fld .TST_TAP_STAT_INSTRUCTION 0
  if code = 5 || s.secure.scan then some (some .released) else if code = 0 || code = 4 then some none else none

/-- What the device drives on pin `p`: what the boundary register has where it controls the pads, nothing without a range or a supply, its last level while
the bank is held (R147), else what its sources give. -/
def State.padDrive (s : State) (p : Nat) : Option Drive :=
  if s.scanDrive.isSome then s.scanDrive.getD none
  else if s.bankDead (p / 16) then some .released
  else if s.bankHeld (p / 16) then Drive.ofCode (Tbl.find 0 s.pins.latch p)
  else s.sourceDrive p

/-- The pads of a bank that drives nothing are pulled down (R152 steps 2 and 3): its supply is there, and a reset lasts or the device is in HIBERNATE. A
bank whose range is 0b111 afterwards has no pull (R146). -/
def State.deadPull (s : State) (b : Nat) : Bool :=
  Tbl.find 0 s.pins.vio b != 0 && (s.resets.stage != 0 || s.fld .PWR_STATE_STATE 0 == 3)

/-- The level at the pad of pin `p` as its receiver sees it (R144): an external driver's, else the device's own, else the
pull's; none where nothing defines it. -/
def State.padLevel (s : State) (p : Nat) : Option Bool :=
  match Tbl.find 0 s.pins.extern p with
  | 1 => some false
  | 2 => some true
  | _ => match s.padDrive p with
    | some .low => some false
    | some .high => some true
    | some .released =>
      if s.bankDead (p / 16) then (if s.deadPull (p / 16) then some false else none)
      else match s.fld .PIN_CFG_PULL p with
        | 1 => some true
        | 2 => some false
        | 3 => some (Tbl.find 0 s.pins.shown p == 1)
        | _ => none
    | none => none

/-- The pad of pin `p` shows its level: what a keeper then holds (R143). -/
def State.keepPin (s : State) (p : Nat) : State :=
  match s.padLevel p with
  | some v => { s with pins := { s.pins with shown := Tbl.set 0 s.pins.shown p (b2n v) } }
  | none => s

/-- The level that pin `p` gives the sink it feeds: as HOLD latched it (R147), else as its pad stands; none where nothing defines it (R144). -/
def State.pinSees (s : State) (p : Nat) : Option Bool :=
  if s.bankHeld (p / 16) then some (bitOf (s.fld .PIN_IN_IN (p / 16)) (p % 16)) else s.padLevel p

/-- The value a sink sees (R148, R150); none where an undefined pad leaves it open. -/
def State.sinkSees (s : State) (k : Nat) : Option Bool :=
  match (s.feeds.filter (fun e => e.2 == k)).map (·.1) with
  | [] => some (sinkDefault k)
  | [p] => s.pinSees p
  | ps =>
    if s.fld .PIN_GSTAT_PHASE 0 = 1 then some (sinkDefault k)
    else if ps.any (fun p => s.pinSees p == some true) then some true
    else if ps.all (fun p => (s.pinSees p).isSome) then some false
    else none

/-- The value that a sink took last. -/
def State.sinkTook (s : State) (k : Nat) : Bool := match Tbl.find 0 s.pins.sinks k with
  | 0 => sinkDefault k
  | v + 1 => v == 1

/-- A sink takes the value it sees, an undefined one as a free value; one that feeds a tree T4..T7 drives it (R61, R148). -/
def State.showSink (s : State) (k : Nat) : State :=
  let r : State × Bool := match s.sinkSees k with
    | some v => (s, v)
    | none => (s.drew, s.draw % 2 == 1)
  let s := r.1
  if r.2 = s.sinkTook k then s
  else
    let s := { s with pins := { s.pins with sinks := Tbl.set 0 s.pins.sinks k (1 + b2n r.2) } }.emit (.sink k r.2)
    let t := k - 0x20
    s.when (decide (0x20 ≤ k) && decide (k ≤ 0x23) && s.pinTree t) (·.treeLevel t r.2)

/-- What a change of the pads brings (R143, R148): every pin with a keeper shows its level, and every sink takes its value. Called wherever what drives a pad,
or what a sink sees, may change. -/
def State.keepLevels (s : State) : State :=
  let s := s.each ((List.range 192).filter fun p => s.fld .PIN_CFG_PULL p == 3) fun p s => s.keepPin p
  s.each ((s.feeds.map (·.2) ++ s.pins.sinks.map (·.1)).eraseDups) fun k s => s.showSink k

/-- Keeps PIN_OCONF and PIN_ICONF live; a conflict that arises sets its sticky flag and raises source 6 (R150). Called
wherever a mapping or a source's activity changes. -/
def State.refreshPins (s : State) : State :=
  let c := s.conflicts
  let newO := c.1.any (fun p => !bitOf (s.fld .PIN_OCONF_OCONF (p / 16)) (p % 16))
  let newI := c.2.any (fun p => !bitOf (s.fld .PIN_ICONF_ICONF (p / 16)) (p % 16))
  let s := s.each (List.range 12) fun b s =>
    (s.put .PIN_OCONF_OCONF b (bankMask b c.1)).put .PIN_ICONF_ICONF b (bankMask b c.2)
  let s := (s.when newO (·.put .PIN_GSTAT_OCONF 0 1)).when newI (·.put .PIN_GSTAT_ICONF 0 1)
  (s.when (newO || newI) (·.raise 6)).keepLevels

/-- Reads the 16 pads of bank `b` into PIN_IN (R144); an undefined level is a free value. In HOLD the latched levels
stand. -/
def State.sampleBank (s : State) (b : Nat) : State :=
  if s.bankHeld b then s
  else s.each (List.range 16) fun k s =>
    match s.padLevel (16 * b + k) with
    | some v => { s with pins := { s.pins with shown := Tbl.set 0 s.pins.shown (16 * b + k) (b2n v) } }.putBit .PIN_IN_IN b k v
    | none => (s.putBit .PIN_IN_IN b k (s.draw % 2 == 1)).drew

/-- Bank `b` enters HOLD (R147): its outputs are latched at their last level, and its inputs keep their last values. -/
def State.holdBank (s : State) (b : Nat) : State :=
  if s.bankHeld b then s
  else
    let s := s.each (List.range 16) fun k s =>
      { s with pins := { s.pins with latch := Tbl.set 0 s.pins.latch (16 * b + k) (Drive.code (s.padDrive (16 * b + k))) } }
    (s.sampleBank b).put .PIN_BANK_STAT_HOLD b 1

/-! ### Placement cells -/

/-- The pin that cell `c` is mapped to (none: 0xFF). -/
def State.cellPin (s : State) (c : Nat) : Option Nat :=
  let p := s.fld .PIN_OMAP_PIN (192 + c)
  if p < 192 then some p else none

/-- The delay of R141 that cell `c` subtracts, in steps of 15.625 ps. -/
def State.pinDelay (s : State) (c : Nat) : Nat :=
  match s.cellPin c with
  | none => 0
  | some p => Tbl.find 0 s.pins.intrinsic (p / 16) +
      Config.loadSlope (s.fld .PIN_BANK_CTL_RANGE (p / 16)) (s.fld .PIN_CFG_DRIVE p) * s.fld .PIN_LOAD_LOAD p

/-- The cells an entry selects in sorter `n`'s group (R138). -/
def State.cellsOf (s : State) (n : Nat) (e : Entry) : List Nat :=
  (bitsOf 16 (e.payload % 2 ^ 16 &&& s.fld .SRT_TGT_PERMIT n)).map (16 * s.fld .SRT_TGT_GROUP n + ·)

/-- ACTION of an entry (R138). -/
def Entry.action (e : Entry) : Nat := e.payload / 2 ^ 16 % 8

/-- WIDTH of an entry, at least 64 steps (R138). -/
def Entry.width (e : Entry) : Nat := max 64 (e.payload / 2 ^ 20 % 2 ^ 32)

/-- The entry is discarded at release for its ACTION or its cells (R138). -/
def State.badAct (s : State) (n : Nat) (e : Entry) : Bool := decide (5 ≤ e.action) || (s.cellsOf n e).isEmpty

/-- Counts a discarded entry as BAD_ACT of the lowest permitted cell, or of cell 16g, and raises source 7 (R138). -/
def State.badActAt (s : State) (n : Nat) : State :=
  let g := s.fld .SRT_TGT_GROUP n
  let c := 16 * g + ((bitsOf 16 (s.fld .SRT_TGT_PERMIT n)).head?.getD 0)
  (s.put .PIN_PLC_STAT_BAD_ACT c 1).raise 7

/-- An action is late: LATE is set and counted (R139). -/
def State.cellLate (s : State) (c : Nat) : State := (s.put .PIN_PLC_STAT_LATE c 1).bump .PIN_PLC_CNT_LATE c 1

/-- UNCAL of cell `c` (R140): 1 unless the load of the pin it is mapped to stands as an OK calibration measured it. -/
def State.cellUncal (s : State) (c : Nat) : State :=
  let ok := match s.cellPin c with
    | some p => s.pins.calOk.contains p
    | none => false
  s.put .PIN_PLC_STAT_UNCAL c (b2n !ok)

/-- Keeps UNCAL of every cell mapped to pin `p` true to its calibration (R140). -/
def State.refreshUncal (s : State) (p : Nat) : State :=
  s.each ((s.mapped.filter (fun e => e.2 == p && decide (192 ≤ e.1) && decide (e.1 < 384))).map (·.1 - 192))
    fun c s => s.cellUncal c

/-- Sets EN of cell `c` (R139, R149): enabling takes the level from the mapped pin's IDLE; disabling sends armed entries
back from every cell that holds them. -/
def State.cellEnable (s : State) (c : Nat) (en : Bool) : State :=
  if en then
    let v := match s.cellPin c with
      | some p => s.idleDrive p == .high
      | none => false
    ((s.setPlc c { s.plc c with level := v }).put .PIN_PLC_CTL_EN c 1).refreshPins
  else ((s.put .PIN_PLC_CTL_EN c 0).disarmAll (fun a => a.cells.contains c)).refreshPins

/-- Sets PIN_OMAP of a source; a value that names no pin is stored and taken as 0xFF, and a reserved source stays at 0xFF
(R148). -/
def State.mapSource (s : State) (k v : Nat) : State :=
  if 754 ≤ k then s
  else
    let s := s.put .PIN_OMAP_PIN k v
    (s.when (decide (192 ≤ k) && decide (k < 384)) (·.cellUncal (k - 192))).refreshPins

/-- Pin `p` is locked (R151). -/
def State.pinLocked (s : State) (p : Nat) : Bool := bitOf (s.fld .PIN_LOCK_LOCK (p / 16)) (p % 16)

/-- A write that would map source `k` to pin `v` is frozen: the source's pin is locked, or `v` is (R151). -/
def State.mapLocked (s : State) (k v : Nat) : Bool :=
  let locked := fun (q : Nat) => decide (q < 192) && s.pinLocked q
  locked (s.fld .PIN_OMAP_PIN k) || locked v

/-- Some pin of bank `b` is locked (R151). -/
def State.bankLocked (s : State) (b : Nat) : Bool := s.fld .PIN_LOCK_LOCK b != 0

end Sys2Proof.Machine
end

