-- ==== Sys2Proof/Machine/ChannelOps.lean ====
section
/-! DEFINITION. What a channel holds and how it is inhibited, marked, reported on and ended (R163..R183, R186, R192, R197,
R201), as the other blocks use it. -/

namespace Sys2Proof.Machine

/-! ### Access -/

/-- Channel `c`. -/
def State.chan (s : State) (c : Nat) : Channel := Tbl.find Channel.blank s.chans c

/-- Sets channel `c`. -/
def State.setChan (s : State) (c : Nat) (x : Channel) : State := { s with chans := Tbl.set Channel.blank s.chans c x }

/-- Changes channel `c`. -/
def State.updChan (s : State) (c : Nat) (g : Channel → Channel) : State := s.setChan c (g (s.chan c))

/-- The channels that exist. -/
def State.chanList (s : State) : List Nat := (s.svc.live.filter (fun e => e.1 / 4096 == kChannel)).map (fun e => e.1 % 4096)

/-- The mode bits of R184. -/
def mSerialize : Nat := 0
def mVerify : Nat := 1
def mCompensate : Nat := 2
def mReverse : Nat := 3
def mProof : Nat := 4
def mStitch : Nat := 5
def mTriggered : Nat := 6
def mSealed : Nat := 7

/-- A channel has a mode set. -/
def Channel.has (x : Channel) (b : Nat) : Bool := bitOf x.mode b

/-- A field of the mode parameter block (R185). -/
def Channel.par (x : Channel) (off n : Nat) : Nat := rd x.block off n

/-- A product runs under a mode (R211). -/
def Product.has (p : Product) (b : Nat) : Bool := bitOf p.mode b

/-- The links of a parameter block that are named (R185). -/
def stitchLinks (block : List Byte) : List Nat := ((List.range 4).map fun k => rd block (36 + k) 1).filter (· != 0xFF)

/-- A mode word and block make a follower (R203): STITCH with ROLE 1, unless no link is named, for then the channel leads by definition. -/
def follows (mode : Nat) (block : List Byte) : Bool := bitOf mode mStitch && rd block 33 1 == 1 && !(stitchLinks block).isEmpty

/-- A channel, and a product, of a follower. -/
def Channel.follower (x : Channel) : Bool := follows x.mode x.block
def Product.follower (p : Product) : Bool := follows p.mode p.block

/-- A field of the mode parameter block that a product runs under. -/
def Product.par (p : Product) (off n : Nat) : Nat := rd p.block off n

/-- The KIND of a binding (R163). -/
def Binding.kind (b : Binding) : Nat := b.word / 2 ^ 28

/-- The low bits of a resource word. -/
def Binding.low (b : Binding) (n : Nat) : Nat := b.word % 2 ^ n

/-- The bindings of a kind. -/
def Channel.ofKind (x : Channel) (k : Nat) : List Binding := x.bindings.filter (·.kind == k)

/-- The bound regions. -/
def Channel.regions (x : Channel) : List Nat := (x.ofKind 1).map (·.low 6)

/-- The bound sorters. -/
def Channel.sorters (x : Channel) : List Nat := (x.ofKind 2).map (·.low 6)

/-- The cells of one binding. -/
def Binding.cells (b : Binding) : List Nat := (bitsOf 16 (b.low 16)).map (16 * (b.word / 2 ^ 16 % 16) + ·)

/-- The bound cells. -/
def Channel.cells (x : Channel) : List Nat := (x.ofKind 3).flatMap Binding.cells

/-- The bound lanes, in binding order. -/
def Channel.lanes (x : Channel) : List Nat := (x.ofKind 4).map (·.low 8)

/-- The bound trigger inputs. -/
def Channel.inputs (x : Channel) : List Nat := (x.ofKind 6).map (·.low 4)

/-- The handles bound of a handle kind. -/
def Channel.handles (x : Channel) (k : Nat) : List Nat :=
  ((x.ofKind 8).map (·.handle)).filter (fun h => h / 2 ^ 28 == k)

/-- The bindings that a new product uses: not the one that a switch in force releases (R177, R179). -/
def Channel.inUse (x : Channel) : Channel :=
  match x.change with
  | some g => if g.applied then { x with bindings := x.bindings.filter (fun b => some b != g.old) } else x
  | none => x

/-- The bound job's index; of two that a switch holds, that of the products from S onward (R177). -/
def Channel.job (x : Channel) : Option Nat := (x.inUse.handles kJob).head?.map hIndex

/-- The place of the bound series: its own handle, or that of a bound lease's series (R163). -/
def State.seriesOf (s : State) (x : Channel) : Option Nat :=
  match (x.inUse.handles kSeries).head? with
  | none => none
  | some h => match Tbl.find 0 s.lease.openSeries (hIndex h) with
    | 0 => none
    | k + 1 => some k

/-- The link a lane belongs to (R264). -/
def State.linkOf (s : State) (l : Nat) : Option Nat :=
  ((List.range 8).map (l - ·)).find? fun m =>
    decide (m ≤ l) && s.on .LNK_CTL_EN m && bitOf (s.fld .LNK_CTL_LANES m) (l - m)

/-- A lane's link is ACTIVE. -/
def State.laneActive (s : State) (l : Nat) : Bool :=
  match s.linkOf l with
  | some m => s.fld .LNK_STAT_STATE m == 6
  | none => false

/-- Sends an express slot on the link of lane `l`. -/
def State.express (s : State) (l code : Nat) (data : List Nat) : State :=
  match s.linkOf l with
  | some m => s.linkExpress m code data
  | none => s

/-- A lane's partner reported the camera capability (R193, R287). -/
def State.laneCamera (s : State) (l : Nat) : Bool :=
  match s.linkOf l with
  | some m => bitOf (s.fld .LNK_PARTNER_CAP_FLAGS m) 1
  | none => false

/-- The bound fire lanes: every lane that is no inspection lane. -/
def State.fireLanes (s : State) (x : Channel) : List Nat := x.lanes.filter (!s.laneCamera ·)

/-- The reject sorter (R186). -/
def Channel.rejectSorter (x : Channel) : Option Nat :=
  let n := x.par 12 1
  if n < 64 && x.sorters.contains n then some n else none

/-- Sorter `n` rejects for channel `x`: it is its reject sorter, or that of a product begun before a change of mode (R211). -/
def Channel.rejectsOn (x : Channel) (n : Nat) : Bool :=
  x.rejectSorter == some n || x.products.any fun p => p.rejecting && !p.settled && p.par 12 1 == n

/-- The reject sorter that a product's own parameters name (R211). -/
def Channel.rejectFor (x : Channel) (p : Product) : Option Nat :=
  let n := p.par 12 1
  if n < 64 && x.sorters.contains n then some n else none

/-- The fire sorters. -/
def Channel.fireSorters (x : Channel) : List Nat := x.sorters.filter (fun n => x.rejectSorter != some n)

/-- The channels that hold a sorter, a cell, a lane or an axis. -/
def State.chanOfSorter (s : State) (n : Nat) : Option Nat := s.chanList.find? (fun c => (s.chan c).sorters.contains n)
def State.chanOfCell (s : State) (k : Nat) : Option Nat := s.chanList.find? (fun c => (s.chan c).cells.contains k)
def State.chanOfLane (s : State) (l : Nat) : Option Nat := s.chanList.find? (fun c => (s.chan c).lanes.contains l)
def State.chansOnAxis (s : State) (a : Nat) : List Nat := s.chanList.filter (fun c => (s.chan c).axis == a)

/-- The mailbox of a region, if it owns one. -/
def State.regionBox (s : State) (n : Nat) : Option Nat :=
  (List.range 64).find? (fun m => s.fld .PST_MB_OWNER_OWNER m == n + 1)

/-! ### Postmarks and products -/

/-- The lines of a generation of a nozzle-health map that covers `n` nozzles. -/
def mapLines (n : Nat) : Nat := max 1 ((n + 63) / 64)

/-- The lines of the next generation of a nozzle-health map, and of an earlier one. -/
def Health.lines (h : Health) : Nat := mapLines h.nozzles
def Health.linesOf (h : Health) (gen : Nat) : Nat := mapLines (Tbl.find 0 h.sizes gen)

/-- `n` counts, in the units of d. -/
def counts (n : Int) : Int := n * 65536

/-- The difference of two postmarks. -/
def pmLt (p q : Nat) : Bool := decide (pmDiff p q < 0)

/-- A postmark moved by whole counts, on its axis. -/
def pmPlus (p : Nat) (n : Int) : Nat := pmMake (pmAxis p) (pmAdd p (counts n))

/-- The end of a begun product: its own, or the start of the next begun one (R166, R205). -/
def Channel.endOf (x : Channel) (p : Product) : Option Nat :=
  match p.stop with
  | some e => some e
  | none =>
    match x.products.find? (fun q => q.index == p.index + 1) with
    | some q => some q.start
    | none => if p.has mTriggered && p.index + 1 == x.nextIdx then x.trigs.head?.map (·.1) else none

/-- A postmark lies in a product's span. -/
def Channel.spans (x : Channel) (p : Product) (pm : Nat) : Bool :=
  !pmLt pm p.start && match x.endOf p with
    | some e => pmLt pm e
    | none => true

/-- The begun product an event belongs to (R173). -/
def Channel.productOf (x : Channel) (pm : Nat) : Option Product :=
  match x.products.find? (fun p => x.spans p pm) with
  | some p => some p
  | none =>
    match x.products.foldl (fun (b : Option Product) p =>
        if pmLt pm p.start then b
        else match b with
          | some q => if pmLt q.start p.start then some p else b
          | none => some p) none with
    | some p => some p
    | none => x.products.foldl (fun (b : Option Product) p => match b with
        | some q => if pmLt p.start q.start then some p else b
        | none => some p) none

/-- Changes the product of an index. -/
def Channel.updProduct (x : Channel) (i : Int) (g : Product → Product) : Channel :=
  { x with products := x.products.map fun p => if p.index = i then g p else p }

/-- The reject postmark and the deadline of a product (R197). -/
def Product.rejectAt (p : Product) : Nat := pmPlus p.start (p.par 4 4)
def Product.deadline (p : Product) : Nat := pmPlus p.start ((p.par 4 4 : Int) - (p.par 8 4 : Int))

/-- The product an event belongs to (R173): a reject's is the product it was scheduled for. -/
def Channel.ownerOf (x : Channel) (reject : Bool) (pm : Nat) : Option Product :=
  match x.products.find? (fun p => reject && p.rejecting && p.rejectAt == pm) with
  | some p => some p
  | none => x.productOf pm

/-- The bytes of an unfinished message on a virtual lane of a lane. -/
def State.partialLine (s : State) (l vl : Nat) : List Byte := Tbl.find [] s.laneTx (l * 8 + vl)

/-- The partner of lane `l` accepts fire lines (R287). -/
def State.laneFire (s : State) (l : Nat) : Bool :=
  match s.linkOf l with
  | some m => bitOf (s.fld .LNK_PARTNER_CAP_FLAGS m) 0
  | none => false

/-- The fire line that lane `l` is being handed, as its postmark and row. -/
def State.partLine (s : State) (l : Nat) : Option (Nat × Nat) :=
  let b := s.partialLine l 0
  if b.isEmpty || !s.laneFire l then none else some (rd b 0 8, rd b 14 2)

/-- A fire line that lane `l` was being handed is lost: what still comes of it is discarded (R279). -/
def State.dropPartial (s : State) (l : Nat) : State :=
  let b := s.partialLine l 0
  if b.isEmpty || !s.laneFire l then { s with laneTx := Tbl.set [] s.laneTx (l * 8) [] }
  else { s with
    laneTx := Tbl.set [] s.laneTx (l * 8) []
    laneSkip := Tbl.set 0 s.laneSkip l ((16 + rd b 8 4 + 63) / 64 - b.length / 64) }

/-- The postmarks of the fire lines that lane `l` holds whole and of the one it is being handed. -/
def State.linePms (s : State) (l : Nat) : List Nat :=
  (Tbl.find [] s.fires l).map FireLine.pm ++ ((s.partLine l).map (·.1)).toList

/-- The events of channel `x` that are pending (R173), as whether in the reject sorter and the postmark: entries of its sorters, entries armed for them, and fire
lines its lanes hold or are being handed. -/
def State.pendingOf (s : State) (x : Channel) : List (Bool × Nat) :=
  x.sorters.flatMap (fun n =>
    let pms := (s.srt n).entries.map (·.pm) ++ (s.pins.armed.filter (·.sorter == n)).map (·.entry.pm)
    pms.map fun pm => (x.rejectsOn n, pm)) ++
  x.lanes.flatMap (fun l => (s.linePms l).map fun pm => (false, pm))

/-- Pending events of one product. -/
def State.pendingFor (s : State) (x : Channel) (p : Product) : Bool :=
  (s.pendingOf x).any (fun e => match x.ownerOf e.1 e.2 with
    | some q => q.index == p.index
    | none => false)

/-! ### Reports (R175) -/

/-- The 64 bytes of a channel report; CAUSE names the first cause in force (R181). -/
def Channel.reportBytes (x : Channel) : List Byte :=
  le 2 x.reason ++ le 2 (x.causes.headD 0) ++ le 4 x.under ++ le 8 x.done ++ le 8 x.dropped ++
    le 8 (x.firstDrop - 1) ++ le 8 (x.lastDrop - 1) ++ le 8 x.at_ ++ le 8 x.returned ++ le 4 x.marks ++ le 4 x.resource

/-- The counts since the last report start again. -/
def Channel.reported (x : Channel) : Channel :=
  { x with under := 0, firstDrop := 0, lastDrop := 0, marks := 0, underDue := false }

/-- Prepares a report of channel `c`, writes it to the logbook and answers its bytes (R175). -/
def State.makeReport (s : State) (c reason at_ resource : Nat) : State × List Byte :=
  let x := { s.chan c with reason := reason, at_ := at_, resource := resource }
  let b := x.reportBytes
  ((s.setChan c x.reported).logFirmware (Config.recordCode 0).toNat b, b)

/-- Sends an unrequested report (notice 0x0530) to the channel's mailbox (R175, R385). -/
def State.reportNotice (s : State) (c reason at_ resource : Nat) : State :=
  let r := s.makeReport c reason at_ resource
  r.1.notice (s.ownerBox kChannel c) 0x0530 (s.handleOf kChannel c) 0 r.2

/-- Ends the pending service of an opcode on channel `c` with a report (R175, R380). -/
def State.completeReport (s : State) (c opcode reason at_ resource : Nat) (st : Status) : State :=
  match s.findOp opcode c with
  | none => s
  | some o =>
    let r := s.makeReport c reason at_ resource
    r.1.complete o st o.letter.handle.toNat at_ r.2

/-! ### Dropped events -/

/-- Counts a discarded event of channel `c` (R176). -/
def Channel.drop (x : Channel) (pm : Nat) : Channel :=
  { x with
    dropped := x.dropped + 1
    firstDrop := if x.firstDrop = 0 || pmLt pm (x.firstDrop - 1) then pm + 1 else x.firstDrop
    lastDrop := if x.lastDrop = 0 || pmLt (x.lastDrop - 1) pm then pm + 1 else x.lastDrop }

/-- Counts discarded events. -/
def State.dropEvents (s : State) (c : Nat) (pms : List Nat) : State := s.updChan c (fun x => pms.foldl Channel.drop x)

/-- Discards the fire lines of lane `l`, held or being handed over, whose postmarks a predicate picks, counted as dropped by channel `c`. -/
def State.dropLines (s : State) (c l : Nat) (p : Nat → Bool) : State :=
  let fs : List FireLine := Tbl.find [] s.fires l
  let lost := (s.linePms l).filter p
  let part := ((s.partLine l).map fun e => p e.1).getD false
  (({ s with fires := Tbl.set [] s.fires l (fs.filter (fun f => !p f.pm)) }).when part (·.dropPartial l)).dropEvents c lost

/-! ### Marking and rejects (R182, R192, R197) -/

/-- The postmark `pm` has been reached or passed by the channel's axis. -/
def State.reached (s : State) (pm : Nat) : Bool := decide (s.ahead (pmAxis pm) pm ≤ 0)

/-- The axis stands strictly ahead of `pm`. -/
def State.passed (s : State) (pm : Nat) : Bool := decide (s.ahead (pmAxis pm) pm < 0)

/-- The entry that rejects a product (R138, R197). -/
def Product.rejectEntry (p : Product) : Nat :=
  p.rejectAt + 2 ^ 64 * (p.par 14 2 + 2 ^ 16 * (p.par 13 1 % 8) + 2 ^ 20 * p.par 16 4) + 2 ^ 127

/-- Records the outcome of a product's consumed identifier, once (R192). -/
def State.recordOutcome (s : State) (c : Nat) (p : Product) (kind : Nat) : State :=
  match p.ident with
  | some i =>
    if p.recorded || !p.consumed then s
    else (s.updChan c (·.updProduct p.index ({ · with recorded := true }))).outcome i kind (s.handleOf kChannel c) p.start
  | none => s

/-- The channel enters INHIBITED (R181; AT of its report is the axis position, where no rule names a postmark, DESIGN CHOICE, assumption 94): EN of its sorters and cells clears, its fire lanes
carry STOP (R275; at a ring stop every bound lane has carried its own, R221), its report goes out, and a cause that
arises while it is inhibited is added. -/
def State.inhibit (s : State) (c cause : Nat) : State :=
  let x := s.chan c
  if x.state = 3 then
    if x.causes.contains cause then s else s.setChan c { x with causes := x.causes ++ [cause] }
  else if x.state = 1 || x.state = 2 || x.state = 4 then
    let s := s.setChan c { x with state := 3, causes := [cause] }
    let s := s.each x.sorters fun n s => s.put .SRT_CTL_EN n 0
    let s := s.each x.cells fun k s => s.cellEnable k false
    let s := if cause = 0xF then s else s.each (s.fireLanes x) fun l s => s.express l 0x01 [3]
    s.reportNotice c 3 (s.axisPm x.axis) 0
  else s

/-- A reject that could not be scheduled (R197). -/
def State.rejectMissed (s : State) (c : Nat) (p : Product) : State :=
  let n := p.par 12 1
  let s := s.updChan c (·.updProduct p.index ({ · with missed := true }))
  ((s.recordOutcome c p 5).raise (48 + n)).inhibit c 0xB

/-- The channel counts an underrun (R182). -/
def State.countUnderrun (s : State) (c : Nat) : State := s.updChan c (fun x => { x with under := x.under + 1 })

/-- What the policy of a channel makes of an underrun (R182): the channel is inhibited, or it owes a report while it goes on. -/
def State.underPolicy (s : State) (c : Nat) : State :=
  if (s.chan c).policy = 1 then s.inhibit c 3
  else if (s.chan c).state = 3 || (s.chan c).state = 5 then s
  else s.updChan c ({ · with underDue := true })

/-- A product is recorded as marked by its start postmark (R182). -/
def State.noteMark (s : State) (c : Nat) (p : Product) : State :=
  (s.updChan c fun x => { x.updProduct p.index ({ · with marked := true }) with marks := x.marks + 1 }).logFirmware
    (Config.recordCode 1).toNat (le 8 p.start)

/-- A reject entry that the sorter discards is a dropped event of its product (R173, R176); one discarded as LATE_DROP is its underrun too (R182). -/
def State.rejectDiscarded (s : State) (c : Nat) (p : Product) (result : Nat) : State :=
  let s := if result = 5 || result = 6 then s.dropEvents c [p.rejectAt] else s
  if result = 6 then
    let s := s.countUnderrun c
    (if p.marked then s else s.noteMark c p).underPolicy c
  else s

/-- A product's reject is suppressed: never one on a PROOF channel (R201) or on a stitch follower (R208, R209). -/
def Product.noReject (p : Product) : Bool := p.has mProof || p.follower

/-- Inserts the reject of a product (R197) into the sorter that its own parameters name (R211), unless it is suppressed. For a consumed identifier of a
product that is to be rejected and whose reject is suppressed no outcome of R192 fits, and none is recorded (DESIGN CHOICE, assumption 94). -/
def State.scheduleReject (s : State) (c : Nat) (p : Product) : State :=
  let x := s.chan c
  if p.rejecting || p.missed || p.noReject then s
  else match x.rejectFor p with
    | none => s.rejectMissed c p
    | some n =>
      let r := s.insertCore n p.rejectEntry
      if r.2 = 1 || r.2 = 2 then r.1.updChan c (·.updProduct p.index ({ · with rejecting := true }))
      else (r.1.rejectDiscarded c p r.2).rejectMissed c p

/-- An outcome that is known is recorded at once (R192): MARKED without VERIFY; with VERIFY, PASSED of a product that is not
marked. -/
def State.recordKnown (s : State) (c : Nat) : State :=
  s.each ((s.chan c).products.filter (fun p => p.consumed && !p.recorded)) fun p s =>
    if !p.has mVerify && p.marked then s.recordOutcome c p 2
    else if p.has mVerify && p.final == some 0 && !p.marked then s.recordOutcome c p 3
    else s

/-- A product awaits no verdict of its own channel's (R197): it has none to await, its verdict is fixed, or it is a follower's, whose leader fixes it
(R208). -/
def Product.judged (p : Product) : Bool := !p.has mVerify || p.final.isSome || p.follower

/-- Products whose last event has completed (their end passed, nothing pending, and with VERIFY their verdict fixed) settle;
without VERIFY their identifiers are recorded PRINTED (R192). -/
def State.settle (s : State) (c : Nat) : State :=
  let s := s.recordKnown c
  s.each ((s.chan c).products.filter (fun p => !p.settled)) fun p s =>
    let x := s.chan c
    match x.endOf p with
    | none => s
    | some e =>
      if s.reached e && !s.pendingFor x p && p.judged then
        let s := s.updChan c (·.updProduct p.index ({ · with settled := true }))
        if p.has mVerify then s else s.recordOutcome c p 1
      else s

/-- Marks the product of an index (R182): recorded by its start postmark; with VERIFY a product whose verdict is fixed is
rejected before its deadline and missed after it (R197), unless its rejects are suppressed (R209). -/
def State.markProduct (s : State) (c : Nat) (i : Int) : State :=
  match (s.chan c).products.find? (fun p => p.index == i) with
  | none => s
  | some p =>
    if p.marked then s
    else
      let s := (s.noteMark c p).recordKnown c
      if !p.has mVerify || p.rejecting || p.noReject then s
      else if s.reached p.deadline then s.rejectMissed c p
      else if p.final.isSome then s.scheduleReject c p
      else s

/-- A product letter sent now is late (R187): the axis has crossed the product's start, or, where it began backward, its end backward. -/
def State.letterLate (s : State) (p : Product) : Bool :=
  if p.backward then (p.stop.map fun e => decide (0 ≤ s.ahead (pmAxis e) e)).getD false else s.reached p.start

/-- What fits of what the firmware holds for mailbox `m` leaves (R358); a product letter that was held back until its product had been crossed marks it
(R187). -/
def State.pumpLate (s : State) (m : Nat) : State :=
  let was := (s.box m).held
  let s := s.pump m
  s.each (was.filter (!(s.box m).held.contains ·)) fun h s => match h with
    | .letter b =>
      let c := hIndex (rd b 32 4)
      if rd b 0 2 ≠ 0x0520 || !s.exists? kChannel c || s.handleOf kChannel c ≠ rd b 32 4 then s
      else match (s.chan c).products.find? (fun p => bits 32 p.index == rd b 36 4 && s.letterLate p) with
        | some p => s.markProduct c p.index
        | none => s
    | _ => s

/-- An underrun of channel `c` at postmark `pm` (R182): counted, its product marked (R173; `reject`: the event is a reject), and the policy applied. -/
def State.underrun (s : State) (c : Nat) (reject : Bool) (pm : Nat) : State :=
  let s := s.countUnderrun c
  let s := match (s.chan c).ownerOf reject pm with
    | some p => s.markProduct c p.index
    | none => s
  s.underPolicy c

/-- An insertion into a sorter by any path (R132, R136): an entry discarded for lateness or range is counted as a dropped event
of the channel that holds the sorter (R176), and one discarded as LATE_DROP is an underrun as well (R182). -/
def State.insertEntry (s : State) (n raw : Nat) : State × Nat :=
  let r := s.insertCore n raw
  if r.2 = 5 || r.2 = 6 then
    match r.1.chanOfSorter n with
    | some c =>
      let s := r.1.dropEvents c [raw % 2 ^ 64]
      (if r.2 = 6 then s.underrun c ((s.chan c).rejectsOn n) (raw % 2 ^ 64) else s, r.2)
    | none => r
  else r

/-- Entries of a STREAM that waited enter as space opens, in order; those with VALID 0 are skipped (R131). -/
def State.streamIn (s : State) (n : Nat) : List Nat → State
  | [] => s.setSrt n { s.srt n with streams := [] }
  | raw :: t =>
    if raw / 2 ^ 127 % 2 = 0 then (s.streamDone (raw / 2 ^ 128)).streamIn n t
    else
      let r := s.insertEntry n (raw % 2 ^ 128)
      if r.2 = 3 then s.setSrt n { s.srt n with streams := raw :: t }
      else (r.1.streamDone (raw / 2 ^ 128)).streamIn n t

/-- Space may have opened in sorter `n`. -/
def State.srtSpace (s : State) (n : Nat) : State :=
  if (s.srt n).streams.isEmpty then s else s.streamIn n (s.srt n).streams

/-- Discards the entries of sorter `n` that a predicate picks, counted as dropped by channel `c`. -/
def State.dropEntries (s : State) (c n : Nat) (p : Entry → Bool) : State :=
  let x := s.srt n
  let gone := x.entries.filter p
  let stuck := match x.stuck with
    | some q => if gone.any (·.seq == q.1) then none else some q
    | none => none
  ((s.setSrt n { x with entries := x.entries.filter (fun e => !p e), stuck := stuck }).dropEvents c
    (gone.map Entry.pm)).srtSpace n

/-- A late action of cell `k`, released by sorter `n`, is an underrun of its channel (R139, R182). -/
def State.lateAction (s : State) (k n pm : Nat) : State :=
  let s := s.cellLate k
  match s.chanOfCell k with
  | some c => s.underrun c ((s.chan c).rejectsOn n) pm
  | none => s

/-- An event of channel `c` has completed (R173): counted, and where it was committed at a placement cell or sent in a fire line (`consumes`), the first of
its product consumes the identifier (R174). -/
def State.eventDone (s : State) (c : Nat) (reject consumes : Bool) (pm : Nat) : State :=
  s.updChan c fun x =>
    let x := { x with done := x.done + 1 }
    match (if consumes then x.ownerOf reject pm else none) with
    | some p => x.updProduct p.index ({ · with consumed := p.ident.isSome })
    | none => x

/-- Products that a predicate picks are discarded (R174, R183): their events are dropped by the caller; a consumed
identifier is VOIDED and any other returns; at the end of the channel (`ending`) one returns too that a product which has settled never consumed, also
where its index has begun again since. -/
def State.discardProducts (s : State) (c : Nat) (ending : Bool) (pick : Product → Bool) : State :=
  let lost := fun (p : Product) => pick p && (!p.settled || (ending && !p.consumed))
  let gone := (s.chan c).products.filter lost
  let s := s.each gone fun p s =>
    match p.ident with
    | none => s
    | some i =>
      if p.consumed then s.recordOutcome c p 6
      else
        let s := s.returnIdent i
        if i.lease.isSome then s.updChan c (fun x => { x with returned := x.returned + 1 }) else s
  let drop := fun (p : Product) => if lost p then { p with settled := true, gone := true, ident := none, owed := [] } else p
  let s := s.updChan c fun x => { x with products := x.products.map drop }
  let spare := if ending then (s.chan c).spare else []
  let s := s.each spare fun i s =>
    (s.returnIdent i).updChan c fun x => { x with returned := x.returned + b2n i.lease.isSome, spare := x.spare.erase i }
  { s with letterQueue := s.letterQueue.filter (fun e => e.1 != c || !gone.any (fun p => p.index == e.2.1)) }

/-! ### Bindings (R163, R164, R201) -/

/-- Restores a cell's saved mapping (R201), unless its pin has since been locked. -/
def State.restoreMap (s : State) (c k : Nat) : State :=
  match (s.chan c).saved.find? (fun e => e.1 == k) with
  | none => s
  | some e =>
    let s := s.updChan c (fun x => { x with saved := x.saved.erase e })
    if e.2 < 192 && s.pinLocked e.2 then s.logFirmware (Config.recordCode 2).toNat (le 4 k ++ le 4 e.2)
    else s.mapSource (192 + k) e.2

/-- Flushes sorter `n` until it is empty, counting what is dropped: what waited to enter follows into the space that opens (R131, R176). -/
def State.flushInto : Nat → State → Nat → Nat → State
  | 0, s, _, _ => s
  | k + 1, s, c, n =>
    if (s.srt n).entries.isEmpty then s
    else
      let r := s.flushSorter n
      ((r.1.dropEvents c r.2).srtSpace n).flushInto k c n

/-- A sorter leaves its channel (R164): EN clears, and what it holds, and what waits to enter it, is flushed and counted as dropped. -/
def State.freeSorter (s : State) (c n : Nat) : State :=
  let s := s.put .SRT_CTL_EN n 0
  let s := s.disarmAll (·.sorter == n)
  s.flushInto ((s.srt n).streams.length + 1) c n

/-- The output monitors that a binding names, by region × 8 + number. -/
def Binding.monitors (b : Binding) : List Nat := if b.kind = 1 then (bitsOf 8 (b.word / 2 ^ 16)).map (b.low 6 * 8 + ·) else []

/-- A resource leaves its channel (R164, R177); what another binding of the channel names stays. -/
def State.freeBinding (s : State) (c : Nat) (b : Binding) : State :=
  let s := s.updChan c (fun x => { x with bindings := x.bindings.erase b })
  let x := s.chan c
  match b.kind with
  | 1 =>
    let kept := x.bindings.flatMap Binding.monitors
    s.each (b.monitors.filter (!kept.contains ·)) fun m s => { s with monitors := Tbl.set none s.monitors m none }
  | 2 => s.freeSorter c (b.low 6)
  | 3 => s.each (b.cells.filter (!x.cells.contains ·)) fun k s => (s.cellEnable k false).restoreMap c k
  | 4 => s.dropLines c (b.low 8) (fun _ => true)
  | 8 => if (x.handles kJob).isEmpty then s.updChan c ({ · with spool := none }) else s
  | _ => s

/-- A channel ends (R169, R161): its resources are freed, its unconsumed identifiers return, services still pending on it
complete with CANCELLED, its queued letters are not sent, and its handle goes. -/
def State.endChannel (s : State) (c : Nat) : State :=
  let s := s.discardProducts c true (fun _ => true)
  let s := s.each (s.chan c).bindings fun b s => s.freeBinding c b
  let s := { s with letterQueue := s.letterQueue.filter (fun e => e.1 != c) }
  let s := s.cancelOps fun o => o.object == c && decide (0x0501 ≤ o.letter.opcode.toNat) && decide (o.letter.opcode.toNat ≤ 0x050D)
  (s.setChan c Channel.blank).destroy kChannel c

/-- Every channel on axis `a` is inhibited with a cause. -/
def State.inhibitAxis (s : State) (a cause : Nat) (p : Channel → Bool) : State :=
  s.each ((s.chansOnAxis a).filter (fun c => p (s.chan c))) fun c s => s.inhibit c cause

end Sys2Proof.Machine
end

