-- ==== Sys2Proof/Machine/MemOps.lean ====
section
/-! DEFINITION. Stacked memory as its homes read and write it (R295, R296, R310), through the line seal engines (R323..R331):
the counter tree, failures; granules and their conversion (R319..R322, R334). -/

namespace Sys2Proof.Machine

/-- The place of a line's slice among the 128. -/
def sliceKey (l : Nat) : Nat := lineStack l * 32 + lineSlice l

/-- The directory set of a line with its slice (R301): bits [21:6]. -/
def dirSet (l : Nat) : Nat := l / 2 ^ 6 % 2 ^ 16

/-- Merges the bytes of `new` that a mask names into `old`, from byte `k` on, `n` bytes. -/
def mergeLine (old new mask : Nat) : Nat → Nat → Nat
  | 0, _ => 0
  | n + 1, k => (if bitOf mask k then new / 256 ^ k % 256 else old / 256 ^ k % 256) * 256 ^ k + mergeLine old new mask n (k + 1)

/-- Every byte of a line is written. -/
def fullMask : Nat := 2 ^ 64 - 1

/-! ### Line sealing -/

/-- Keeps SEAL_LINE_STAT.ROOTS true to the granules (R328). -/
def State.showRoots (s : State) : State :=
  let active := fun r => (List.range 64).any fun k => s.granule (64 * r + k) == 1
  let m := (List.range 4).foldl (fun m r => if active r then orBit m r else m) 0
  s.each (List.range 4) fun k s => s.put .SEAL_LINE_STAT_ROOTS k m

/-- Raises the root entry of a granule (R328). -/
def State.raiseRoot (s : State) (stack g : Nat) : State :=
  s.setSeal fun x => { x with roots := Tbl.upd 0 x.roots (stack * 256 + g) (· + 1) }

/-- The children of a parent, as a choice of nodes at a level. -/
def childOf (level stack parent k : Nat) : Bool :=
  k / 2 ^ 24 == level * 4 + stack && k % 2 ^ 24 / arity level == parent

/-- The nodes whose tags a parent's new major changes (R331): its children that have been written. -/
def State.writtenChildren (s : State) (level stack parent : Nat) : List Nat :=
  (s.seals.nodeTags.map (·.1)).filter (childOf level stack parent)

/-- The place of a line's tag line in the metadata cache: 8 tags of 8 bytes. -/
def tagKey (l : Nat) : Nat := 2 ^ 40 + l / 8

/-- The pieces of 64 bytes that the metadata cache holds (R329): 4 MiB. -/
def metaPlaces : Nat := 2 ^ 16

/-- A node of the metadata cache differs from the metadata area. -/
def SealState.soil (x : SealState) (k : Nat) : SealState :=
  { x with dirty := k :: x.dirty.filter (· != k), cache := x.cache.filter (· != k) ++ [k] }

/-- The parent's minor for a node is raised as the node is written, or for a granule node its root entry (R329); a minor that would pass 127 raises the
parent's major instead and sets its minors to 0, and its children are tagged anew (R331). -/
def State.raiseParent (s : State) (level stack i : Nat) : State :=
  let k := nodeKey level stack i
  let p := i / arity level
  let pk := nodeKey (level + 1) stack p
  if 4 ≤ level then s.raiseRoot stack i
  else
    let s := s.setSeal (·.soil pk)
    if Tbl.find 0 s.seals.childMinor k = 127 then
      let s := s.setSeal fun x => { x with
        nodeMajor := Tbl.upd 0 x.nodeMajor pk (· + 1)
        childMinor := Tbl.keep (fun c => !childOf level stack p c) x.childMinor }
      s.each (s.writtenChildren level stack p) fun c s => s.tagNode level stack (c % 2 ^ 24)
    else s.setSeal fun x => { x with childMinor := Tbl.upd 0 x.childMinor k (· + 1) }

/-- A counter block or node is written to the metadata area (R329): its parent counts the write, and it takes a new tag. -/
def State.writeNode (s : State) (level stack i : Nat) : State :=
  let k := nodeKey level stack i
  ((s.setSeal fun x => { x with dirty := x.dirty.filter (· != k) }).raiseParent level stack i).tagNode level stack i

/-- A piece leaves the metadata cache; a node that is dirty is written (R329). -/
def State.dropMeta (s : State) (k : Nat) : State :=
  let s := s.setSeal fun x => { x with cache := x.cache.filter (· != k) }
  if s.seals.dirty.contains k then s.writeNode (k / 2 ^ 26) (k / 2 ^ 24 % 4) (k % 2 ^ 24) else s

/-- The evictions of an access leave the metadata cache. -/
def State.evictMeta (s : State) (stack : Nat) (l : List (Nat × Nat)) : State :=
  s.each (l.map fun e => nodeKey e.1 stack e.2) fun k s => if s.seals.cache.contains k then s.dropMeta k else s

/-- Pieces enter the metadata cache, which makes room for each where it is full; the rules do not say by what, so that the piece is a free value (DESIGN CHOICE,
assumption 96). -/
def State.cacheMeta (s : State) (ks : List Nat) : State :=
  s.each ks fun k s =>
    let c := s.seals.cache
    let s := if c.length < metaPlaces then s else s.drew.dropMeta (c.getD (s.draw % c.length) 0)
    s.setSeal fun x => { x with cache := x.cache ++ [k] }

/-- Writes back the whole metadata cache, lowest level first (R334). -/
def State.flushMeta (s : State) : State :=
  s.each [1, 2, 3, 4] fun lvl s =>
    s.each (s.seals.dirty.filter (fun k => k / 2 ^ 26 == lvl)) fun k s => s.writeNode lvl (k / 2 ^ 24 % 4) (k % 2 ^ 24)

/-- A node above a line that cannot be read as uncorrectable in the stack, as its place among the bad nodes. -/
def unreadable (k : Nat) : Nat := 2 ^ 30 + k

/-- The nodes above a line, by their places. -/
def nodesOver (l : Nat) : List Nat := ([1, 2, 3, 4] : List Nat).map fun v => nodeKey v (lineStack l) (nodeIndex v l)

/-- A node above a line is uncorrectable in the stack (R330). -/
def State.nodeUncorr (s : State) (l : Nat) : Bool := (nodesOver l).any fun k => s.seals.badNodes.contains (unreadable k)

/-- A node above a line does not check, or cannot be read (R330). -/
def State.nodeBad (s : State) (l : Nat) : Bool := s.nodeUncorr l || (nodesOver l).any s.seals.badNodes.contains

/-- Records a failure of line seal engine `k` (R330, R347): the line while no flag is set, the flag, source 156 + k where
it was 0, and the check-failure event. -/
def State.sealFail (s : State) (l : Nat) (group uncorr : Bool) : State :=
  let k := lineStack l
  let first := !s.on .SEAL_LINE_ERR_INTEG k && !s.on .SEAL_LINE_ERR_GROUP k && !s.on .SEAL_LINE_ERR_UNCORR k
  let s := s.when first (·.put .SEAL_LINE_ERRADDR_LINE k l)
  let rises := (if uncorr then !s.on .SEAL_LINE_ERR_UNCORR k else !s.on .SEAL_LINE_ERR_INTEG k) || (group && !s.on .SEAL_LINE_ERR_GROUP k)
  let s := if uncorr then s.put .SEAL_LINE_ERR_UNCORR k 1
    else (s.put .SEAL_LINE_ERR_INTEG k 1).bump .SEAL_LINE_CNT_INTEG_CNT k 1
  let s := s.when group (·.put .SEAL_LINE_ERR_GROUP k 1)
  (s.perf 4 k 3 1 none).when rises (·.raise (156 + k))

/-- An uncorrectable error of the stack (R310). -/
def State.stackUncorr (s : State) (l : Nat) : State :=
  let k := lineStack l
  let s := s.when (!s.on .MEM_STK_ERR_UNCORR k) (·.put .MEM_STK_ERRADDR_LINE k l)
  ((s.put .MEM_STK_ERR_UNCORR k 1).bump .MEM_STK_ECNT_UNCORR_CNT k 1).raise (148 + k)

/-- A corrected error of the stack (R310). -/
def State.stackCorr (s : State) (l : Nat) : State :=
  (s.put .MEM_STK_ERR_CORR (lineStack l) 1).bump .MEM_STK_ECNT_CORR_CNT (lineStack l) 1

/-- The levels whose nodes an access to line `l` fetches (R329): up to the first that the cache holds. -/
def State.fetchedLevels (s : State) (l : Nat) : List Nat :=
  ([1, 2, 3, 4] : List Nat).takeWhile fun v => !s.seals.cache.contains (nodeKey v (lineStack l) (nodeIndex v l))

/-- A node that an access fetches fails its check (R329): its tag does not match, or it came changed. -/
def State.fetchBad (s : State) (l : Nat) (t : Touch) (level : Nat) : Bool :=
  t.badLevel == level || !s.nodeChecks level (lineStack l) (nodeIndex level l)

/-- The metadata cache in an access to a sealed line: hits, misses, evictions, and fetched nodes that do not check (R329, R330). What is in the cache is trusted;
what does not check, or lies beneath what does not, does not enter it. -/
def State.touchMeta (s : State) (l : Nat) (t : Touch) : State :=
  let k := lineStack l
  let levels := s.fetchedLevels l
  let tag := if s.seals.cache.contains (tagKey l) then [] else [tagKey l]
  let n := levels.length + tag.length
  let s := if n = 0 then s.perf 4 k 0 1 none else s.perf 4 k 1 n none
  let s := s.evictMeta k t.evicted
  let key := fun (v : Nat) => nodeKey v k (nodeIndex v l)
  let mark := fun (v : Nat) => (if t.ecc = .uncorrectable && t.badLevel == v then unreadable else id) (key v)
  let bad := (levels.filter (s.fetchBad l t)).map mark
  if bad.isEmpty then s.cacheMeta (levels.reverse.map key ++ tag)
  else s.setSeal fun x => { x with badNodes := bad ++ x.badNodes }

/-- A sealed line as it comes from the stack matches its tag (R325, R329). -/
def State.tagMatches (s : State) (l : Nat) (t : Touch) : Bool := s.lineTag l (s.sealedLine l ^^^ t.upset.toNat) == s.tagSlot l

/-- A read of line `l` through its engine (R310, R329, R330): status of R78 and data. -/
def State.memRead (s : State) (l : Nat) (t : Touch) (x : Option Xfer) : State × Nat × Nat :=
  let k := lineStack l
  let s := s.perf 3 k 1 1 x
  let sealed? := s.isSealed l
  let s := s.when sealed? (·.touchMeta l t)
  let kept := Tbl.find 0 s.seals.failing l
  let s := s.when (t.ecc = .corrected) (·.stackCorr l)
  if sealed? && s.nodeBad l then
    ((s.when (t.ecc = .uncorrectable) (·.stackUncorr l)).sealFail l true (s.nodeUncorr l), 2, 0)
  else if t.ecc = .uncorrectable || kept = 2 then
    let s := (s.stackUncorr l).setSeal fun z => { z with failing := Tbl.set 0 z.failing l 2 }
    (s.when sealed? (·.sealFail l false true), 2, 0)
  else if sealed? && (kept = 1 || !s.tagMatches l t) then
    let s := s.setSeal fun z => { z with failing := Tbl.set 0 z.failing l 1 }
    (s.sealFail l false false, 2, 0)
  else (s, 0, s.lineAt l)

/-- A line of a group that is re-encrypted does not check under the old major (R331): it fails, and goes on failing (R330). -/
def State.checkHeld (s : State) (j : Nat) : State :=
  if s.lineTag j (s.sealedLine j) == s.tagSlot j then s
  else (s.setSeal fun z => { z with failing := Tbl.set 0 z.failing j 1 }).sealFail j false false

/-- A group is re-encrypted (R331): its lines are read and checked under the old major, the major rises, every minor becomes 0, and the lines are written under the
new counters. -/
def State.reencrypt (s : State) (l : Nat) : State :=
  let k := lineStack l
  let g := nodeKey 1 k (nodeIndex 1 l)
  let group := (s.seals.tags.map (·.1)).filter (sameGroup l)
  let s := s.each group fun j s => s.checkHeld j
  let held := group.map fun j => (j, s.lineAt j)
  let s := s.setSeal fun x => { x with
    nodeMajor := Tbl.upd 0 x.nodeMajor g (· + 1)
    minors := Tbl.keep (fun j => !sameGroup l j) x.minors }
  ((s.each held fun e s => s.putSealed e.1 e.2).bump .SEAL_LINE_CNT_REENC_CNT k 1).perf 4 k 2 1 none

/-- The counter of a sealed line advances for a write (R329); a minor of 127 re-encrypts its group first (R331). -/
def State.countWrite (s : State) (l : Nat) : State :=
  let g := nodeKey 1 (lineStack l) (nodeIndex 1 l)
  let s := s.setSeal (·.soil g)
  if Tbl.find 0 s.seals.minors l = 127 then s.reencrypt l
  else s.setSeal fun x => { x with minors := Tbl.upd 0 x.minors l (· + 1) }

/-- A write of the whole of line `l` (R310, R329, R330): the line is replaced and its failure cleared; beneath a node that does not check it fails. The
status is answered. -/
def State.memWrite (s : State) (l v : Nat) (t : Touch) (x : Option Xfer) : State × Nat :=
  let k := lineStack l
  let s := s.perf 3 k 2 1 x
  if s.isSealed l then
    let s := s.touchMeta l t
    if s.nodeBad l then ((s.when (t.ecc = .uncorrectable) (·.stackUncorr l)).sealFail l true (s.nodeUncorr l), 2)
    else
      let s := (s.countWrite l).setSeal fun z => { z with failing := Tbl.set 0 z.failing l 0 }
      (s.putLine l v, 0)
  else ((s.setSeal fun z => { z with failing := Tbl.set 0 z.failing l 0 }).putLine l v, 0)

/-! ### Granules -/

/-- Keeps only what is not of granule `g` in the tables of the seal engines. -/
def SealState.clearGranule (x : SealState) (g : Nat) : SealState :=
  let other := fun (k : Nat) => nodeGranule (k % 2 ^ 30 / 2 ^ 26) (k % 2 ^ 24) != g
  { x with
    minors := Tbl.keep (fun l => lineGranule l != g) x.minors
    failing := Tbl.keep (fun l => lineGranule l != g) x.failing
    tags := Tbl.keep (fun l => lineGranule l != g) x.tags
    nodeTags := Tbl.keep other x.nodeTags
    childMinor := Tbl.keep other x.childMinor
    nodeMajor := Tbl.keep other x.nodeMajor
    dirty := x.dirty.filter other
    cache := x.cache.filter fun k => if 2 ^ 40 ≤ k then lineGranule (8 * (k - 2 ^ 40)) != g else other k
    badNodes := x.badNodes.filter other }

/-- Every byte of granule `g` becomes 0 and its counters start anew (R322 step 3). -/
def State.zeroGranule (s : State) (g : Nat) : State :=
  (s.setMem fun m => { m with bytes := Tbl.keep (fun a => a / 2 ^ 30 != g) m.bytes }).setSeal (·.clearGranule g)

/-- Step 3 of R322 toward SEALED: the epoch and the four root entries rise, the share is zeros with every counter at 0. -/
def State.sealGranule (s : State) (g : Nat) : State :=
  let s := (s.zeroGranule g).addMod .SEAL_GRAN_EPOCH g 1
  ((s.each (List.range 4) fun k s => s.raiseRoot k g).put .SEAL_GRAN_STATE g 1).showRoots

/-- Step 3 of R322 toward PLAIN: the share is plain zeros, the epoch stays. -/
def State.unsealGranule (s : State) (g : Nat) : State := ((s.zeroGranule g).put .SEAL_GRAN_STATE g 0).showRoots

/-- The granules that are SEALED. -/
def State.sealedGranules (s : State) : List Nat := (List.range 256).filter (fun g => s.granule g == 1)

/-- A pin reset loses the metadata cache (R334): every sealed granule is rebuilt with its epoch raised, or made PLAIN at
the last epoch, with LOST set; source 160 once where any was. -/
def State.rebuildSealed (s : State) : State :=
  let gs := s.sealedGranules
  let s := s.each gs fun g s =>
    (if s.fld .SEAL_GRAN_EPOCH g = 2 ^ 24 - 1 then s.unsealGranule g else s.sealGranule g).put .SEAL_GRAN_LOST g 1
  s.when (!gs.isEmpty) (·.raise 160)

end Sys2Proof.Machine
end

