-- ==== Sys2Proof/Machine/HomeOps.lean ====
section
/-! DEFINITION. The homes of stacked memory (R299..R303, R305): the directory, requests in service, snoop answers,
writebacks and recalls; and the caching agents as the homes see them (R298, R317). -/

namespace Sys2Proof.Machine

/-! ### Messages -/

/-- A message goes to the home, through the crossing queue into its domain; the others come from it (R302). -/
def MsgKind.toHome : MsgKind → Bool
  | .rdShared | .rdOwn | .rdCur | .wrPtl | .wbDirty | .evictClean | .rspI | .rspS | .rspData | .rspWb | .cmpAck => true
  | .snpInv | .snpShare | .snpCur | .dataS | .dataE | .cmp | .wbAck => false

/-- A message to or from the home of stack `k`. -/
def Msg.along (m : Msg) (k : Nat) (toHome : Bool) : Bool := lineStack m.line == k && m.kind.toHome == toHome

/-- The messages that wait for a crossing queue enter it while it has space (R92); those sent to a held domain wait in the interconnect (R93). -/
def fillQueue (k : Nat) (toHome runs : Bool) : List Msg → XQueue → List Msg × XQueue
  | [], q => ([], q)
  | m :: t, q =>
    if m.along k toHome && !m.queued && !m.held && !q.full then
      let r := fillQueue k toHome runs t (if runs then q.push.seen else q.push)
      ({ m with queued := true } :: r.1, r.2)
    else
      let r := fillQueue k toHome runs t q
      (m :: r.1, r.2)

/-- The messages along one way of a stack, and the pointers of their queue. -/
def State.fillMsgs (s : State) (k : Nat) (toHome : Bool) : State :=
  let c := s.crossing (18 + k)
  let r := fillQueue k toHome (s.sideRuns (18 + k)) s.memo.wire (if toHome then c.into else c.out)
  (s.setMem fun m => { m with wire := r.1 }).setCrossing (18 + k) (if toHome then { c with into := r.2 } else { c with out := r.2 })

/-- Sends a message of R302. While the crossing of its home resynchronises it waits at its sender (R93). -/
def State.post (s : State) (kind : MsgKind) (who l data aux : Nat) : State :=
  let k := lineStack l
  (s.setMem fun m => { m with wire := m.wire ++ [⟨kind, who, l, data, aux, s.isHeld (18 + k), false⟩] }).fillMsgs k kind.toHome

/-- The first message of a kind between a requester and the slice of a line. -/
def State.msg (s : State) (kind : MsgKind) (who l : Nat) : Option Msg :=
  s.memo.wire.find? fun m => decide (m.kind = kind) && m.who == who && m.line == l

/-- A message leaves its queue, and the next that waits enters it. -/
def State.leaveQueue (s : State) (m : Msg) : State :=
  let k := lineStack m.line
  let c := s.crossing (18 + k)
  if !m.queued then s
  else (s.setCrossing (18 + k) (if m.kind.toHome then { c with into := c.into.leave } else { c with out := c.out.leave })).fillMsgs k m.kind.toHome

/-- Takes a message that has arrived. -/
def State.unpost (s : State) (m : Msg) : State := (s.setMem fun x => { x with wire := x.wire.erase m }).leaveQueue m

/-- Takes every message that a predicate picks. -/
def State.dropMsgs (s : State) (p : Msg → Bool) : State :=
  let gone := s.memo.wire.filter p
  (s.setMem fun x => { x with wire := x.wire.filter (!p ·) }).each gone fun m s => s.leaveQueue m

/-- The messages that waited for the crossing of stack `k` to open are delivered (R93). -/
def State.openMsgs (s : State) (k : Nat) : State :=
  ((s.setMem fun x => { x with wire := x.wire.map fun m => if lineStack m.line == k then { m with held := false } else m }).fillMsgs k true).fillMsgs k false

/-! ### Cached lines -/





/-- Sets a line of agent `a` and keeps CFG_AGT_STAT.DIRTY true to its M lines (R317). -/
def State.setCached (s : State) (a l : Nat) (x : CLine) : State :=
  let s := s.setMem fun m => { m with caches := Tbl.set CLine.invalid m.caches (cacheKey a l) x }
  if a < 16 then
    s.put .CFG_AGT_STAT_DIRTY a (min 65535 ((s.memo.caches.filter (fun e => e.1 / 2 ^ 32 == a && e.2.st == 3)).length))
  else s

/-- The lines that agent `a` holds. -/
def State.linesOf (s : State) (a : Nat) : List Nat :=
  (s.memo.caches.filter (fun e => e.1 / 2 ^ 32 == a)).map (fun e => e.1 % 2 ^ 32)

/-! ### The directory -/



/-- Sets what its slice holds of line `l`. -/
def State.setDir (s : State) (l : Nat) (d : DirLine) : State :=
  s.setMem fun m => { m with dir := Tbl.set DirLine.idle m.dir l d }

/-- The entries in use in the set of a line (R301). -/
def State.setEntries (s : State) (l : Nat) : List (Nat × DirLine) :=
  s.memo.dir.filter (fun e => dirSet e.1 == dirSet l && e.2.st != 0)

/-- Keeps MEM_HOME_STAT true to the slices of stack `k` (R316). -/
def State.showHome (s : State) (k : Nat) : State :=
  let mine := s.memo.dir.filter (fun e => lineStack e.1 == k)
  (s.put .MEM_HOME_STAT_WAITING k (mine.foldl (fun n e => n + e.2.queue.length) 0)).put .MEM_HOME_STAT_ENTRIES k
    (mine.filter (fun e => e.2.st != 0)).length

/-- How many requests wait in the slice of a line (R302). -/
def State.sliceWaiting (s : State) (l : Nat) : Nat :=
  (s.memo.dir.filter (fun e => sliceKey e.1 == sliceKey l)).foldl (fun n e => n + e.2.queue.length) 0



/-! ### Serving a request (R303) -/

/-- The transfer of a request, for the filters of R524. -/
def HomeReq.xfer (r : HomeReq) (l : Nat) : Option Xfer := some ⟨r.who, 0, l⟩

/-- A home takes a request (R523); a read of a Postroom core is a miss of the L2 cache. -/
def State.took (s : State) (l : Nat) (r : HomeReq) : State :=
  let core := decide (16 ≤ r.who) && decide (r.who ≤ 19) && r.kind != .wrPtl
  (s.perf 3 (lineStack l) 0 1 (r.xfer l)).when core (·.perf 7 0 3 1 (r.xfer l))

/-- What a request reads: data on its way (a writeback's or an owner's), or memory. -/
def State.fetch (s : State) (l : Nat) (r : HomeReq) (have? : Option Nat) : State × Nat × Nat :=
  match have? with
  | some v => (s, 0, v)
  | none => s.memRead l r.touch (r.xfer l)

/-- Sends snoops and waits for their answers. -/
def State.snoop (s : State) (kind : MsgKind) (l : Nat) (req : Option HomeReq) (discard : Bool) (agents : List Nat) : State :=
  let s := s.each agents fun a s => (s.post kind a l 0 0).perf 3 (lineStack l) 3 1 none
  s.setDir l { s.dirAt l with txn := some ⟨req, discard, agents, [], none, false, false, false⟩ }

/-- Allocates the directory entry of a line as it is granted (R301). -/
def State.allocate (s : State) (d : DirLine) : State × DirLine :=
  if d.st = 0 then (s.setMem fun m => { m with born := m.born + 1 }, { d with born := s.memo.born + 1 }) else (s, d)

/-- An entry that no agent holds any more: UNCACHED (R300), with what waits for the line. -/
def DirLine.freed (d : DirLine) : DirLine := { d with st := 0, sharers := [], owner := 0, born := 0 }

/-- Grants a line: DATA_S, DATA_E or CMP to the requester, the directory as R303 says, and CMP_ACK owed. -/
def State.grant (s : State) (l : Nat) (r : HomeReq) (msg : MsgKind) (data aux st : Nat) (sharers : List Nat) (owner : Nat) : State :=
  let q := s.allocate (s.dirAt l)
  let d := { q.2 with st := st, sharers := sharers, owner := owner, txn := some ⟨some r, false, [], [], none, false, true, false⟩ }
  (q.1.setDir l d).post msg r.who l data aux

/-- Ends a request with no grant: CMP (or the DATA of a failed read) with its status. -/
def State.finishNoGrant (s : State) (l : Nat) (r : HomeReq) (msg : MsgKind) (data status : Nat) : State :=
  (s.setDir l { s.dirAt l with txn := none }).post msg r.who l data status

/-- RD_SHARED is granted with what was obtained (R303). Where memory cannot be read, an owner that was snooped holds the line in S at most (R300). -/
def State.endShared (s : State) (l : Nat) (r : HomeReq) (have? : Option Nat) (sharers : List Nat) : State :=
  let f := s.fetch l r have?
  if f.2.1 != 0 then
    let d := f.1.dirAt l
    (f.1.setDir l (if d.st = 2 then { d with st := 1, sharers := [d.owner], owner := 0 } else d)).finishNoGrant l r .dataS 0 f.2.1
  else f.1.grant l r .dataS f.2.2 0 1 (sharers.filter (· != r.who.val) ++ [r.who.val]) 0

/-- RD_OWN is granted once every other holder has given the line up (R303): CMP where the requester still shares it. Data that is passed on without a memory
write says so (`dirty`). Where memory cannot be read, no agent but a sharer that asked can hold the line (R300). -/
def State.endOwn (s : State) (l : Nat) (r : HomeReq) (have? : Option Nat) (dirty : Bool) : State :=
  let d := s.dirAt l
  let shares := d.st == 1 && d.sharers.contains r.who.val
  if shares && r.fromS && have?.isNone then s.grant l r .cmp 0 0 2 [] r.who
  else
    let f := s.fetch l r have?
    if f.2.1 != 0 then
      let e := f.1.dirAt l
      (f.1.setDir l (if shares then { e with sharers := [r.who.val] } else e.freed)).finishNoGrant l r .dataE 0 f.2.1
    else f.1.grant l r .dataE f.2.2 (if dirty then dirtyGrant else 0) 2 [] r.who

/-- RD_CUR ends with the current value. -/
def State.endCur (s : State) (l : Nat) (r : HomeReq) (have? : Option Nat) : State :=
  let f := s.fetch l r have?
  f.1.finishNoGrant l r .cmp f.2.2 f.2.1

/-- WR_PTL merges, writes and completes; the line is UNCACHED (R303). A merge that needs an unreadable line is not carried
out (R310). -/
def State.endPtl (s : State) (l : Nat) (r : HomeReq) (have? : Option Nat) : State :=
  let s := s.setDir l (s.dirAt l).freed
  let f := if r.mask.toNat = fullMask then (s, 0, 0) else s.fetch l r have?
  if f.2.1 != 0 then f.1.finishNoGrant l r .cmp 0 f.2.1
  else
    let w := f.1.memWrite l (mergeLine f.2.2 r.data.toNat r.mask.toNat 64 0) r.touch (r.xfer l)
    w.1.finishNoGrant l r .cmp 0 w.2

/-- Starts the request at the front, by the directory state of its line (R303); `have?` is the data of a writeback being
accepted (R305). -/
def State.beginReq (s : State) (l : Nat) (r : HomeReq) (have? : Option Nat) : State :=
  let d := s.dirAt l
  let owner := fun kind => s.snoop kind l (some r) false [d.owner]
  match r.kind, d.st with
  | .rdShared, 2 => owner .snpShare
  | .rdShared, _ => s.endShared l r have? d.sharers
  | .rdOwn, 2 => owner .snpInv
  | .rdOwn, 1 =>
    let others := d.sharers.filter (· != r.who.val)
    if others.isEmpty then s.endOwn l r have? false else s.snoop .snpInv l (some r) false others
  | .rdOwn, _ => s.endOwn l r have? false
  | .rdCur, 2 => owner .snpCur
  | .rdCur, _ => s.endCur l r have?
  | .wrPtl, 2 => owner .snpInv
  | .wrPtl, 1 => if d.sharers.isEmpty then s.endPtl l r have? else s.snoop .snpInv l (some r) false d.sharers
  | .wrPtl, _ => s.endPtl l r have?

/-- The entry that a full set recalls: allocated longest ago among those not in a transient form (R301). -/
def oldest : List (Nat × DirLine) → Option (Nat × DirLine)
  | [] => none
  | e :: t => match oldest t with
    | none => if e.2.txn.isNone then some e else none
    | some b => if e.2.txn.isNone && e.2.born < b.2.born then some e else some b

/-- The holders of an entry. -/
def DirLine.holders (d : DirLine) : List Nat := if d.st = 2 then [d.owner] else d.sharers

/-- Recalls an entry (R301), or for a conversion gives it up with its data discarded (R322); counted when a set was full. -/
def State.recall (s : State) (l : Nat) (discard : Bool) : State :=
  let d := s.dirAt l
  let s := s.when (!discard) fun s => (s.bump .MEM_HOME_CNT_RECALL (lineStack l) 1).perf 3 (lineStack l) 4 1 none
  if d.holders.isEmpty then s.setDir l d.freed
  else s.snoop .snpInv l none discard d.holders

/-- A line's first request needs a directory entry that the line has not (R301). -/
def DirLine.needsEntry (d : DirLine) : Bool :=
  d.txn.isNone && d.st == 0 && match d.queue with
    | r :: _ => decide (r.kind = .rdShared) || decide (r.kind = .rdOwn)
    | [] => false

/-- A full set has begun no recall yet for some request that needs an entry: each such request recalls one (R301). -/
def State.mayRecall (s : State) (l : Nat) : Bool :=
  let mine := s.memo.dir.filter fun e => dirSet e.1 == dirSet l
  let recalls := mine.filter fun e => match e.2.txn with
    | some x => x.req.isNone && !x.discard
    | none => false
  decide (recalls.length < (mine.filter (·.2.needsEntry)).length)

/-- Serves the front request of line `l` while the line is at rest (R299): a request that needs an entry in a full set
recalls one first. `fuel` bounds the requests served. -/
def State.serveLine : Nat → State → Nat → State
  | 0, s, _ => s
  | n + 1, s, l =>
    let d := s.dirAt l
    match d.txn, d.queue with
    | none, r :: t =>
      if !s.homeOpen l then s
      else
        if d.needsEntry && decide (16 ≤ (s.setEntries l).length) then
          match oldest (s.setEntries l) with
          | some e => if s.mayRecall l then s.recall e.1 false else s
          | none => s
        else
          let s := (s.setDir l { d with queue := t }).took l r
          State.serveLine n (s.beginReq l r none) l
    | _, _ => s

/-- Serves the other lines of a line's set whose requests wait. -/
def State.serveSet (s : State) (l : Nat) : State :=
  let waiting := (s.memo.dir.filter (fun e => dirSet e.1 == dirSet l && e.1 != l && !e.2.queue.isEmpty)).map (·.1)
  s.each waiting fun k s => State.serveLine ((s.dirAt k).queue.length) s k

/-! ### Requesters that hold no lines (R297, R309) -/

/-- A line is at rest: its home serves it, no request of it is in service, and its owner's writeback is not on its way. -/
def State.lineFree (s : State) (l : Nat) : Bool :=
  let d := s.dirAt l
  s.homeOpen l && d.txn.isNone && !(d.st == 2 && (s.cached d.owner l).wb)

/-- A read of line `l` by requester `who` (R303, R310): status and value. -/
def State.ioRead (s : State) (who l : Nat) : State × Nat × Nat :=
  let x : Xfer := ⟨who, 0, l⟩
  let s := s.perf 3 (lineStack l) 0 1 (some x)
  match s.heldValue l with
  | some v => (s, 0, v)
  | none => s.memRead l Touch.clean (some x)

/-- Reads lines in turn: the worst status, and the bytes. -/
def readLines (who : Nat) : List Nat → State → State × Nat × List Byte
  | [], s => (s, 0, [])
  | l :: t, s =>
    let r := s.ioRead who l
    let q := readLines who t r.1
    (q.1, max r.2.1 q.2.1, le 64 r.2.2 ++ q.2.2)

/-- Reads `n` bytes from address `a` (R310): the status, and the bytes, 0 in a line that cannot be read. -/
def State.readBytes (s : State) (who a n : Nat) : State × Nat × List Byte :=
  let r := readLines who (linesAt a n) s
  (r.1, r.2.1, (r.2.2.drop (a % 64)).take n)

/-- A masked write of line `l`, at rest, by requester `who` (R303): its holders give it up, its data is merged into theirs or into memory, and the line is
UNCACHED. One that needs a line which cannot be read is not carried out (R310). -/
def State.ioLine (s : State) (who l data mask : Nat) : State :=
  let d := s.dirAt l
  let x : Xfer := ⟨who, 0, l⟩
  let have? := s.heldValue l
  let s := s.perf 3 (lineStack l) 0 1 (some x)
  let s := s.each d.holders fun a s => (s.perf 3 (lineStack l) 3 1 none).setCached a l CLine.invalid
  let s := s.setDir l d.freed
  let f := if mask = fullMask then (s, 0, 0) else match have? with
    | some v => (s, 0, v)
    | none => s.memRead l Touch.clean (some x)
  if f.2.1 != 0 then f.1 else (f.1.memWrite l (mergeLine f.2.2 data mask 64 0) Touch.clean (some x)).1

/-- The bytes and byte mask that a write gives line `l`. -/
def MemWrite.part (w : MemWrite) (l : Nat) : Nat × Nat :=
  let mine := fun (k : Nat) => decide (w.at_ ≤ 64 * l + k) && decide (64 * l + k < w.at_ + w.bytes.length)
  (ofLe ((List.range 64).map fun k => if mine k then w.bytes.getD (64 * l + k - w.at_) 0 else 0),
   (List.range 64).foldl (fun m k => if mine k then orBit m k else m) 0)

/-- A write is carried out, and a frame that it brings is then shown (R309). -/
def State.doWrite (s : State) (w : MemWrite) : State :=
  let s := s.each (linesAt w.at_ w.bytes.length) fun l s => s.ioLine w.who l (w.part l).1 (w.part l).2
  let s := match w.shown with
    | some e => s.put .LANE_ETH_RXWR_INDEX e.1 e.2
    | none => s
  s.each (List.range 4) fun k s => s.showHome k

/-- A write need not wait: its lines are at rest, and no earlier one that waits is of its requester or touches them. -/
def State.mayWrite (s : State) (earlier : List MemWrite) (w : MemWrite) : Bool :=
  let ls := linesAt w.at_ w.bytes.length
  ls.all s.lineFree && earlier.all fun e => e.who != w.who && (linesAt e.at_ e.bytes.length).all fun l => !ls.contains l

/-- Carries out the writes of a list that need not wait: the state, and those that wait still. -/
def pumpFrom : List MemWrite → List MemWrite → State → State × List MemWrite
  | [], kept, s => (s, kept)
  | w :: t, kept, s => if s.mayWrite kept w then pumpFrom t kept (s.doWrite w) else pumpFrom t (kept ++ [w]) s

/-- Carries out every write that need not wait. -/
def State.pumpWrites (s : State) : State :=
  let r := pumpFrom s.memo.writes [] s
  r.1.setMem fun m => { m with writes := r.2 }

/-! ### What follows a change of a line -/

/-- The entry of a line in a granule under conversion is given up as its request ends (R322 step 2). -/
def State.recallConverting (s : State) (l : Nat) : State :=
  s.when (s.granule (lineGranule l) == 2 && (s.dirAt l).txn.isNone && (s.dirAt l).st != 0) (·.recall l true)

/-- The line has changed: writes that waited for it go on, its requests are served, then those of its set that wait for a way. -/
def State.serveNext (s : State) (l : Nat) : State :=
  let s := (s.recallConverting l).pumpWrites
  ((State.serveLine (s.dirAt l).queue.length s l).serveSet l).showHome (lineStack l)

/-- Serves every waiting request of stack `k`. -/
def State.serveStack (s : State) (k : Nat) : State :=
  let s := s.pumpWrites
  let waiting := (s.memo.dir.filter (fun e => lineStack e.1 == k && !e.2.queue.isEmpty)).map (·.1)
  (s.each waiting fun l s => s.serveNext l).showHome k

/-! ### Arrival of requests (R299, R302) -/

/-- Inserts a request into a list by rotating priority from `p`. -/
def insertRot (p : Nat) (r : HomeReq) : List HomeReq → List HomeReq
  | [] => [r]
  | q :: t => if (r.who.val + 39 - p) % 39 < (q.who.val + 39 - p) % 39 then r :: q :: t else q :: insertRot p r t

/-- Which message carries a request. -/
def HomeKind.msg : HomeKind → MsgKind
  | .rdShared => .rdShared
  | .rdOwn => .rdOwn
  | .rdCur => .rdCur
  | .wrPtl => .wrPtl

/-- A request as it arrives: a fabric cache agent's is the message it sent, which carries its data, as is one that waits in the crossing queue; another
requester's is as given. None where the agent sent no such message, or a requester that holds no lines asks to hold one. -/
def State.arrived (s : State) (l : Nat) (r : HomeReq) : Option (State × HomeReq) :=
  match s.msg r.kind.msg r.who l with
  | some m => some (s.unpost m, { r with data := BitVec.ofNat 512 m.data, mask := BitVec.ofNat 64 m.aux, fromS := m.aux % 2 == 1 })
  | none => if r.who.val < 16 then none
  else if 20 ≤ r.who.val && (decide (r.kind = .rdShared) || decide (r.kind = .rdOwn)) then none
  else some (s, r)

/-- Takes the messages of the requests that reach the slice together. -/
def State.gather (s : State) (l : Nat) : List HomeReq → State × List HomeReq
  | [] => (s, [])
  | r :: t =>
    match s.arrived l r with
    | none => s.gather l t
    | some (s', r') => let g := s'.gather l t; (g.1, r' :: g.2)

/-- Requests for line `l` that reach its slice in one cycle join its queue: several, in rotating priority, after which the
pointer moves to one past the identifier taken first (R299). -/
def State.enqueue (s : State) (l : Nat) (rs : List HomeReq) : State :=
  let g := s.gather l rs
  let s := g.1
  let p := Tbl.find 0 s.memo.ptr (sliceKey l)
  let order := if 2 ≤ g.2.length then g.2.foldl (fun q r => insertRot p r q) [] else g.2
  let next := match order with
    | r :: _ :: _ => (r.who.val + 1) % 39
    | _ => p
  let s := s.setMem fun m => { m with ptr := Tbl.set 0 m.ptr (sliceKey l) next }
  s.setDir l { s.dirAt l with queue := (s.dirAt l).queue ++ order }

/-- Requests stay in the crossing queue as messages (R302), where an agent's already is. -/
def State.queueUp (s : State) (l : Nat) (rs : List HomeReq) : State :=
  s.each rs fun r s =>
    s.when (16 ≤ r.who.val) (·.post r.kind.msg r.who l r.data.toNat (if r.kind = .rdOwn then b2n r.fromS else r.mask.toNat))

/-- Requests of one cycle join the queue of their slice as far as it has places for them, by rotating priority; the others stay in the crossing queue (R299,
R302). -/
def State.takeIn (s : State) (l : Nat) (rs : List HomeReq) : State :=
  let order := rs.foldl (fun q r => insertRot (Tbl.find 0 s.memo.ptr (sliceKey l)) r q) []
  let n := 64 - s.sliceWaiting l
  (s.enqueue l (order.take n)).queueUp l (order.drop n)

/-- Requests arrive; while the slice holds 64 waiting requests, or the stack's domain is stopped or held, they stay on their way, and nothing is lost
(R93, R97, R302). -/
def State.request (s : State) (l : Nat) (rs : List HomeReq) : State :=
  if s.domainWaits (some (18 + lineStack l)) then s.queueUp l rs else (s.takeIn l rs).serveNext l

/-- The home of line `l` takes no message: its domain is stopped or held (R93, R97), or it rebuilds its directory, at whose end it takes the writebacks
(R313). -/
def State.homeDeaf (s : State) (l : Nat) : Bool := s.domainWaits (some (18 + lineStack l)) || s.on .MEM_STK_STAT_RESYNC (lineStack l)

/-! ### Snoop answers and writebacks -/

/-- The owner of a line gave it up while a request or recall waited for its snoop: WB_ACK, and the line is UNCACHED (R305). -/
def State.ackOwner (s : State) (l : Nat) (x : HomeTxn) : State :=
  if x.gave then (s.setDir l (s.dirAt l).freed).post .wbAck (s.dirAt l).owner l 0 0 else s

/-- Ends a request whose snoops have all been answered (R303), or a recall. Data of a writeback is in memory already (R305). -/
def State.endTxn (s : State) (l : Nat) (x : HomeTxn) : State :=
  let s := s.ackOwner l x
  let d := s.dirAt l
  let written := fun (s : State) (f : Option Xfer) => match x.data with
    | some v => if x.viaWb then s else (s.memWrite l v Touch.clean f).1
    | none => s
  match x.req with
  | none =>
    let s := if x.discard then s else written s none
    s.setDir l { (s.dirAt l).freed with txn := none }
  | some r =>
    let s := if x.viaWb then (s.bump .MEM_HOME_CNT_WB_RACE (lineStack l) 1).perf 3 (lineStack l) 5 1 none else s
    match r.kind with
    | .rdShared => (written s (r.xfer l)).endShared l r x.data (if d.st = 2 then [d.owner] else [])
    | .rdOwn => s.endOwn l r x.data (x.data.isSome && !x.viaWb)
    | .rdCur => s.endCur l r x.data
    | .wrPtl => s.endPtl l r x.data

/-- Once no snoop answer and no writeback is owed, the request ends and the next is served: after a recall first the request that needed the way (R301). -/
def State.settleTxn (s : State) (l : Nat) : State :=
  match (s.dirAt l).txn with
  | none => s
  | some x =>
    if x.await.isEmpty && x.wbWait.isEmpty && !x.granted then ((s.endTxn l x).when x.req.isNone (·.serveSet l)).serveNext l else s

/-- An agent's snoop answer reaches the home: dirty data with it, or news that a writeback brings it (R302, R305). -/
def State.answer (s : State) (l who : Nat) (data : Option Nat) (pending : Bool) : State :=
  match (s.dirAt l).txn with
  | none => s
  | some x =>
    if !x.await.contains who then s
    else
      let x := { x with
        await := x.await.erase who
        wbWait := if pending && !(x.viaWb) then who :: x.wbWait else x.wbWait
        data := if data.isSome then data else x.data }
      (s.setDir l { s.dirAt l with txn := some x }).settleTxn l

/-- A writeback or EVICT_CLEAN from an agent that is not the owner (R303): answered, discarded and counted. -/
def State.stray (s : State) (l who : Nat) : State :=
  (s.post .wbAck who l 0 0).bump .MEM_HOME_CNT_STRAY (lineStack l) 1

/-- The owner gives the line up: a writeback's data is written and acknowledged, the line is UNCACHED, and the first request that waits is granted from the data in
the same cycle. Where a request or recall has snooped the owner, the entry stays in its transient form until the snoop's answer is in, and the acknowledgement
and the grant follow it together (R305). A conversion discards the data (R322). -/
def State.giveUp (s : State) (l who : Nat) (data : Option Nat) : State :=
  let d := s.dirAt l
  if d.st ≠ 2 || d.owner ≠ who then s.stray l who
  else
    let discard := (d.txn.map (·.discard)).getD false
    let s := match data with
      | some v => if discard then s else (s.memWrite l v Touch.clean (some ⟨who, 0, l⟩)).1
      | none => s
    let d := s.dirAt l
    match d.txn with
    | some x =>
      if x.granted then (s.setDir l d.freed).post .wbAck who l 0 0
      else
        let x := { x with data := data, viaWb := data.isSome, wbWait := x.wbWait.erase who, gave := true }
        (s.setDir l { d with txn := some x }).settleTxn l
    | none =>
      let s := s.post .wbAck who l 0 0
      match data, d.queue with
      | some v, r :: t =>
        if s.homeOpen l then
          let s := (s.setDir l { d.freed with queue := t }).bump .MEM_HOME_CNT_WB_RACE (lineStack l) 1
          ((s.perf 3 (lineStack l) 5 1 none).took l r).beginReq l r (some v)
        else s.setDir l d.freed
      | _, _ => s.setDir l d.freed

/-! ### Caches as resets see them (R312, R313) -/

/-- An agent owns a line no more: its entry is freed, and what it had sent to give the line up is taken with it and acknowledged. -/
def State.disown (s : State) (a l : Nat) : State :=
  let d := s.dirAt l
  let mine := fun (x : Msg) => x.who == a && x.line == l && (decide (x.kind = .wbDirty) || decide (x.kind = .evictClean))
  let owed := s.memo.wire.any mine
  let s := (s.dropMsgs mine).when owed (·.post .wbAck a l 0 0)
  if d.st = 2 && d.owner = a then s.setDir l (s.dirAt l).freed else s

/-- Dirty data between the caches and memory is written (R312): what a request in service has obtained, and what is on its way. -/
def State.landDirty (s : State) : State :=
  let s := s.each (s.memo.wire.filter Msg.dirty) fun m s => (s.memWrite m.line m.data Touch.clean none).1
  s.each s.memo.dir fun e s => match e.2.txn with
    | some x => if x.granted || x.viaWb then s else match x.data with
      | some v => (s.memWrite e.1 v Touch.clean none).1
      | none => s
    | none => s

/-- Writes every M line of a list of agents to memory, which the directory follows, and empties their caches (R312). -/
def State.writeBackCaches (s : State) (agents : List Nat) : State :=
  let s := s.landDirty.each agents fun a s => s.each (s.linesOf a) fun l s =>
    let x := s.cached a l
    let s := if x.st = 3 && !((s.dirAt l).st == 2 && (s.dirAt l).owner != a) then (s.memWrite l x.data Touch.clean none).1 else s
    (s.disown a l).setCached a l CLine.invalid
  s.each (List.range 4) fun k s => s.showHome k

/-- The caches of a list of agents lose their contents (R312). -/
def State.loseCaches (s : State) (agents : List Nat) : State :=
  s.each agents fun a s => s.each (s.linesOf a) fun l s => s.setCached a l CLine.invalid

/-- The directory, the slices' queues, the messages on their way and the ports' requests are gone (R312). -/
def State.emptyHomes (s : State) : State :=
  ((s.dropMsgs fun _ => true).setMem fun m => { m with dir := [], ports := [], resynced := [], writes := [] }).each (List.range 4) fun k s => s.showHome k

/-- The request that an emptied directory serves anew: one in service, or one granted whose grant has not arrived. -/
def State.unserved (s : State) (l : Nat) (d : DirLine) : List HomeReq :=
  match d.txn with
  | some x => match x.req with
    | some r =>
      let onWay := s.memo.wire.any fun m => m.line == l && m.who == r.who.val && (([.dataS, .dataE, .cmp] : List MsgKind).contains m.kind)
      if x.granted && !onWay then [] else [{ r with fromS := false }]
    | none => []
  | none => []

/-- A message between the homes and the agents of a request in service, which ends as its directory is emptied; a failed read's or a write's end has none. -/
def State.endsWith (s : State) (m : Msg) : Bool :=
  (([.snpInv, .snpShare, .snpCur, .rspI, .rspS, .rspData, .rspWb, .cmpAck] : List MsgKind).contains m.kind) ||
    (([.dataS, .dataE, .cmp] : List MsgKind).contains m.kind) && (((s.dirAt m.line).txn.map fun x => x.granted)).getD false

/-- The directories are emptied as STANDBY is entered (R312): a request in service begins anew behind it, and those that wait keep their places (R97). -/
def State.emptyDirs (s : State) : State :=
  let dir := s.memo.dir.map fun e => (e.1, { DirLine.idle with queue := s.unserved e.1 e.2 ++ e.2.queue })
  (s.dropMsgs s.endsWith).setMem fun m => { m with dir := dir.filter fun e => !e.2.queue.isEmpty }

/-- Agents leave every directory entry; a line they owned becomes UNCACHED (R312, island reset of D22). -/
def State.forgetAgents (s : State) (agents : List Nat) : State :=
  let s := s.each (s.memo.dir.map (·.1)) fun l s =>
    let d := s.dirAt l
    let d := { d with sharers := d.sharers.filter (!agents.contains ·), queue := d.queue.filter (fun r => !agents.contains r.who.val) }
    let d := if d.st = 2 && agents.contains d.owner || d.st = 1 && d.sharers.isEmpty then
      { d with st := 0, owner := 0, born := 0 } else d
    let d := match d.txn with
      | some x => match x.req with
        | some r => if agents.contains r.who.val && x.granted then { d with txn := none } else d
        | none => d
      | none => d
    let s := s.setDir l d
    s.each agents fun a s => s.answer l a none false
  let s := s.dropMsgs fun x => agents.contains x.who
  s.each (List.range 4) fun k s => s.serveStack k

/-- Requester `who` writes bytes of stacked memory (R297, R303): at once where their lines are at rest, else as soon as their homes take them (R93, R97, R313,
R315, R322). -/
def State.ioWrite (s : State) (who a : Nat) (bs : List Byte) (shown : Option (Nat × Nat)) : State :=
  let s := (s.setMem fun m => { m with writes := m.writes ++ [⟨who, a, bs, shown⟩] }).pumpWrites
  s.each (linesAt a bs.length) fun l s => s.serveNext l

/-- The firmware writes bytes of stacked memory so that every agent sees them (R309, R387); its requester is core 0. -/
def State.firmwareWrite (s : State) (a : Nat) (bs : List Byte) : State := s.ioWrite 16 a bs none

/-- The store seal engine writes them (R297): a job's data, or a block it releases. -/
def State.storeWrite (s : State) (a : Nat) (bs : List Byte) : State := s.ioWrite 38 a bs none

end Sys2Proof.Machine
end

