-- ==== Sys2Proof/Machine/CrossOps.lean ====
section
/-! DEFINITION. The crossing queues as resets see them (R85, R93), the accesses that a reset of a stopped domain poisons (R97), and the
register map by address (R5..R7). -/

namespace Sys2Proof.Machine

/-! ### Pulses and published values (R87..R90) -/

/-- A reset of a side discards the pulses that it has pending as their sender (R87). -/
def State.dropPulses (s : State) (sender receiver : Nat) : State :=
  { s with pulses := Tbl.set PulseX.reset s.pulses (pulseKey sender receiver) PulseX.reset }

/-- The number of a published value, and the side that owns it (R12). -/
def PubValue.code : PubValue → Nat
  | .axis a => a
  | .timebase => 8
  | .rtc => 9
  | .lane l => 16 + l
  | .supply i => 192 + i

def PubValue.owner : PubValue → Nat
  | .axis _ | .timebase => 23
  | .lane l => l / 8
  | .rtc | .supply _ => clockless

/-- The side that publishes a copy. -/
def Published.side (x : Published) : Nat := if x.remainder then clockless else x.value.owner

/-- The place of a published copy, and of a receiver of it. -/
def Published.key (x : Published) (receiver : Nat) : Nat := x.value.code * 1024 + x.side * 32 + receiver

/-- The published copy (R88). -/
def State.copyOf (s : State) (x : Published) : PubCopy := Tbl.find PubCopy.none s.copies (x.key 0)

/-- A receiver of a published value. -/
def State.sampler (s : State) (x : Published) (receiver : Nat) : Sampler := Tbl.find Sampler.reset s.samplers (x.key receiver)

/-- Sets a receiver of a published value. -/
def State.setSampler (s : State) (x : Published) (receiver : Nat) (c : Sampler) : State :=
  { s with samplers := Tbl.set Sampler.reset s.samplers (x.key receiver) c }

/-- What a published copy is a copy of: the value itself, or what the remainder has accepted of it, where it has accepted one. -/
def State.quantity (s : State) (x : Published) : Option Nat :=
  if x.remainder && x.value.owner != clockless then (s.sampler { x with remainder := false } clockless).accepted
  else some (match x.value with
    | .axis a => s.fld .POS_AX_POS_VALUE a
    | .timebase => s.tb
    | .rtc => s.fld .DEV_RTC_SECONDS 0
    | .lane l => s.regWord .LANE_STAT l
    | .supply i => s.fld .PWR_MON_MV i)

/-- A freeze of any receiver of a copy is in force (R89). -/
def State.frozen (s : State) (x : Published) : Bool := s.samplers.any fun e => e.1 / 32 == x.key 0 / 32 && e.2.frozen

/-- The least time between two updates of a side's copies in ns (R88): four cycles of its clock, 4 ns for the clockless remainder. -/
def State.fourCycles (s : State) (side : Nat) : Nat :=
  if side < 18 then let w := max 1 (s.fld .DEV_OCT_CLK_WCLK side); (4 * 1024 + w - 1) / w else if side = 22 then 2 else 4

/-- The publisher updates its copy where it may: it runs, no freeze is in force, and four of its cycles have passed since it last did (R88, R89). -/
def State.publish (s : State) (x : Published) : State :=
  let c := s.copyOf x
  match s.quantity x with
  | none => s
  | some v =>
    if !s.sideRuns x.side || s.frozen x || decide (s.clock + 1 < c.since + s.fourCycles x.side) then s
    else { s with copies := Tbl.set PubCopy.none s.copies (x.key 0) ⟨v, c.now, s.clock + 1, x⟩ }

/-- The copies that are published are updated as time passes (R88). -/
def State.publishAll (s : State) : State := s.each (s.copies.map (·.2.what)) fun x s => s.publish x

/-- A value is published from the first that a receiver samples it on. Where its publisher has stopped, the copy is of the value as it stopped, which no tick has
changed since (R89). -/
def State.firstCopy (s : State) (x : Published) : State :=
  if (s.copyOf x).since ≠ 0 then s
  else match s.quantity x with
    | none => s
    | some v => { s with copies := Tbl.set PubCopy.none s.copies (x.key 0) ⟨v, v, s.clock + 1, x⟩ }

/-- One sample and its comparison with the one before (R88, R89): agreement accepts the value, releases the receiver's freeze and starts the count
anew; the third disagreement in a row raises a freeze. A receiver whose freeze was ended without an acceptance starts afresh (R90). -/
def Sampler.sample (c : Sampler) (v now : Nat) : Sampler :=
  let c := if c.thawed then { c with last := none, misses := 0, thawed := false } else c
  match c.last with
  | none => { c with last := some v }
  | some u =>
    if u = v then { c with last := some v, accepted := some v, misses := 0, frozen := false }
    else if c.misses = 2 then { c with last := some v, misses := 3, frozen := true, since := now }
    else { c with last := some v, misses := c.misses + 1 }

/-- A receiver samples a published copy; a sample that falls into an update takes each bit from the copy before or after it, and no two samples of one receiver fall
into the same update, so that what two of them agree on is the copy as it was between them (R91). Nothing crosses from one domain to another directly (R13). -/
def State.sampled (s : State) (x : Published) (receiver : Nat) (mix : Option (BitVec 64)) : State :=
  if !s.sideRuns receiver || (x.side != clockless && receiver != clockless) then s
  else
    let s := s.firstCopy x
    let c := s.copyOf x
    let y := s.sampler x receiver
    if c.since = 0 then s
    else match mix with
      | some m =>
        if c.since = s.clock + 1 && y.torn != c.since then
          s.setSampler x receiver { y.sample (c.now &&& m.toNat ||| c.was &&& (2 ^ 64 - 1 - m.toNat)) s.clock with torn := c.since }
        else s.setSampler x receiver (y.sample c.now s.clock)
      | none => s.setSampler x receiver (y.sample c.now s.clock)

/-- A reset of one end of a domain's crossings withdraws the freezes of the receivers at that end, and their comparisons start anew (R90). -/
def State.dropSamplers (s : State) (d : Nat) (domainEnd : Bool) : State :=
  { s with samplers := Tbl.keep (fun k => if domainEnd then k % 32 != d else k % 32 != clockless || k / 32 % 32 != d) s.samplers }

/-! ### Resynchronisation (R93) -/

/-- A reset is asserted at one end (step 1): that end stops, the indication goes to the live end, and the sequence starts at step 1 again
if one was running. The end's pulses pending and freezes go (R87, R90). HELD shows it (R85). -/
def State.crossAssert (s : State) (d : Nat) (domainEnd : Bool) : State :=
  let c := s.crossing d
  let c := { c with step := .asserted, domainReset := c.domainReset || domainEnd
                    clocklessReset := c.clocklessReset || !domainEnd,
                    cause := if domainEnd || (c.step = .asserted && c.cause = 1) then 1 else 3 }
  let s := s.setCrossing d c
  let s := if domainEnd then s.dropPulses d clockless else s.dropPulses clockless d
  (s.dropSamplers d domainEnd).putBit .DEV_ISL_HELD_HELD 0 d true

/-- The live end of a resynchronisation before Step 2 is the domain: the clockless end is still in reset, or was reset alone (R93). -/
def Crossing.liveDomain (c : Crossing) : Bool := !c.domainReset && (c.clocklessReset || c.cause == 3)

/-- With the queues discarded and both ends released, the released end zeroes its pointers and raises a resynchronisation request (step 3). -/
def Crossing.request (c : Crossing) : Crossing :=
  if c.step = .discarded && !c.domainReset && !c.clocklessReset then { c.zeroed with step := .requested } else c

/-- The reset of one end is released (step 3). -/
def State.crossRelease (s : State) (d : Nat) (domainEnd : Bool) : State :=
  let c := s.crossing d
  s.setCrossing d (if domainEnd then { c with domainReset := false } else { c with clocklessReset := false }).request

/-! ### Accesses that wait (R97) -/

/-- The receiver of the poison token of an access (R96): a region control port, BAR0 for a read, the firmware. A posted write and an
access of the test access port have none. -/
def poisonOf (p : Port) (write : Bool) : List PoisonTo :=
  match p with
  | .region n => [.controlPort n]
  | .pf _ => if write then [] else [.bar0]
  | .postroom => [.postroom]
  | .tap => []

/-- The register whose window holds an address, with its element and its word: none where no register lies there (R6, R7). -/
def dimAt : List (Nat × Nat) → Nat → Option (Nat × Nat)
  | [], off => some (0, off)
  | (n, st) :: ds, off =>
    if off / st < n then
      match dimAt ds (off % st) with
      | some (j, r) => some (off / st * ds.foldl (fun k d => k * d.1) 1 + j, r)
      | none => none
    else none

/-- The element and word of a register at a byte address. -/
def Reg.at (r : Reg) (a : Nat) : Option (Nat × Nat) :=
  if a < r.spec.base then none
  else match dimAt r.spec.dims (a - r.spec.base) with
    | some (i, off) => if off % 4 = 0 && decide (off / 4 < r.spec.words) then some (i, off / 4) else none
    | none => none

/-- The register at an address, with its element and its word (R6, R7). -/
def regAt (a : Nat) : Option (Reg × Nat × Nat) :=
  Reg.all.findSome? fun r => (r.at a).map fun x => (r, x)

/-- A reset of stopped domain `d` completes the accesses that wait for it with poison (R97): the entries of its crossing queue are discarded and counted,
as is an access that has no poison token (R94, R95). Those that wait in the interconnect for a held domain stay (R93). A letter whose service waited
is answered NOT_READY: the spec names no status for it (DESIGN CHOICE, assumption 89). -/
def State.poisonWaiting (s : State) (d cause : Nat) : State :=
  let mine := fun (w : WaitingAccess) => !w.held && addrDomain w.addr == some d
  let gone := s.waiting.filter mine
  let s := { s with waiting := s.waiting.filter (fun w => !mine w) }.setCrossing d (s.crossing d).zeroed
  let s := s.each gone fun w s =>
    let t := poisonOf w.port w.write
    s.release d cause 0 (b2n (w.queued || t.isEmpty)) t
  let letters := s.svc.stalled.filter (·.1 == d)
  ({ s with svc := { s.svc with stalled := s.svc.stalled.filter (·.1 != d) } }).each letters fun e s =>
    (s.release d cause 0 0 [.postroom]).reply e.2 (plain e.2 .NOT_READY)

/-- A reset on a requester's own side withdraws its waiting accesses (R97), each counted in the DEV_XDROP that `side` gives for it. -/
def State.withdraw (s : State) (mine : Port → Bool) (side : WaitingAccess → Option Nat) : State :=
  let gone := s.waiting.filter fun w => mine w.port
  let s := { s with waiting := s.waiting.filter (fun w => !mine w.port) }
  s.each gone fun w s =>
    let s := match w.queued, addrDomain w.addr with
      | true, some d => s.setCrossing d { s.crossing d with into := (s.crossing d).into.takeBack }
      | _, _ => s
    match side w with
    | some d => s.countDrops d 1 0
    | none => s

/-- The accesses that region `n`'s control port has waiting are withdrawn by a reset of the region. Its side is the clockless remainder, so each is
counted for the domain at the other end (R94, R97; assumption 89). -/
def State.withdrawRegion (s : State) (n : Nat) : State :=
  s.withdraw (fun p => portIdent p == n + 1) fun w => addrDomain w.addr

/-- Stores a word in a register's fields that software or an image sets (R8, R9): its RW and RWL fields. -/
def State.storeWord (s : State) (r : Reg) (i w v : Nat) : State :=
  s.each (r.fields.filter (fun f => f.spec.ty = .RW || f.spec.ty = .RWL)) fun f s =>
    if f.spec.lo / 32 = w then
      let lo := f.spec.lo - 32 * w
      if f.spec.width + lo ≤ 32 then s.put f i (v / 2 ^ lo)
      else
        let keep := 32 - lo
        s.put f i (s.fld f i / 2 ^ keep * 2 ^ keep + v / 2 ^ lo % 2 ^ keep)
    else if f.spec.lo / 32 < w && 32 * w < f.spec.lo + f.spec.width then
      let sh := 32 * w - f.spec.lo
      s.put f i (s.fld f i % 2 ^ sh + v * 2 ^ sh + s.fld f i / 2 ^ (sh + 32) * 2 ^ (sh + 32))
    else s

end Sys2Proof.Machine
end

