-- ==== Sys2Proof/Machine/FrankerRules.lean ====
section
/-! DEFINITION. The messages that the Franker has in sorter 0 or on lane 0, and how they are flushed and counted (R549, R552). -/

namespace Sys2Proof.Machine

/-- Counts messages missed (R549, R555). -/
def State.frankerMiss (s : State) (n : Nat) : State := s.bump .DEV_FRK_MISS_MISSED 0 n

/-- A postmark lies within a message, from its first column to its last. -/
def inMessage (m : Nat × Nat) (pm : Nat) : Bool := decide (pmDiff pm m.1 ≥ 0) && decide (pmDiff pm m.2 ≤ 0)

/-- The messages that a predicate picks are flushed from sorter 0 and from lane 0, and those with a flushed entry are counted missed (R552). -/
def State.flushMessages (s : State) (p : Nat × Nat → Bool) : State :=
  let ms := s.franker.messages.filter p
  let hit := fun (pm : Nat) => ms.any fun m => inMessage m pm
  let x := s.srt 0
  let lines := Tbl.find [] s.fires 0
  let gone := (x.entries.filter fun e => hit e.pm).map (·.pm) ++ (lines.filter fun f => hit f.pm).map (·.pm)
  let s := s.setSrt 0 { x with entries := x.entries.filter fun e => !hit e.pm }
  let s := { s with fires := Tbl.set [] s.fires 0 (lines.filter fun f => !hit f.pm) }
  let s := { s with franker := { s.franker with messages := s.franker.messages.filter fun m => !p m } }
  s.frankerMiss (ms.filter fun m => gone.any (inMessage m)).length

/-- A ring stop is released: messages whose first column is behind the axis are flushed (R552). -/
def State.frankerBehind (s : State) : State := s.flushMessages fun m => decide (s.ahead 0 m.1 < 0)

end Sys2Proof.Machine
end

