-- ==== Sys2Proof/Machine/RingOps.lean ====
section
/-! DEFINITION. Ring stops (R219..R223): raising, latching, halting and releasing. -/

namespace Sys2Proof.Machine

/-- `x` is later than `y`, modulo 2^16 (R223). -/
def seqLater (x y : Nat) : Bool := decide (0 < signed 16 (x + 2 ^ 16 - y % 2 ^ 16))

/-- Keeps STOPPED true to the stop set of ring `r` (R221, R222). -/
def State.showStops (s : State) (r : Nat) : State :=
  (s.put .LNK_RING_STAT_STOPPED r (b2n (!(s.ring r).stops.isEmpty))).showFranker

/-- A channel on a stopped axis: each of its lanes carries a STOP, and it is inhibited with RING_STOP (R221). -/
def State.haltChannel (s : State) (c : Nat) : State :=
  (s.each (s.chan c).lanes fun l s => s.express l 0x01 [2]).inhibit c 0xF

/-- The device takes part in a ring: it is joined and its bypass is open (R213, R216). -/
def State.takesPart (s : State) (r : Nat) : Bool := s.on .LNK_RING_CTL_JOIN r && !s.on .LNK_RING_STAT_BYPASS r

/-- Every channel on one of the axes of a mask that ring `r` stops is inhibited with RING_STOP, and every lane bound on the axis carries a
STOP (R221). -/
def State.haltAxes (s : State) (mask : Nat) : State :=
  s.each (bitsOf 8 mask) fun a s =>
    s.each (s.chansOnAxis a) fun c s => s.haltChannel c

/-- The set holds at most one stop per origin, the latest (R223). -/
def addStop (x : RingStop) (l : List RingStop) : List RingStop := l.filter (·.origin != x.origin) ++ [x]

/-- The stop is already in the set, or an earlier one than the set holds for its origin (R220, R223). -/
def State.knownStop (s : State) (r : Nat) (x : RingStop) : Bool :=
  (s.ring r).stops.any fun y => y.origin == x.origin && !seqLater x.seq y.seq

/-- Latches a stop (R221): STOPPED, STOPSRC, source 212 + r, and the halt. -/
def State.latchStop (s : State) (r : Nat) (x : RingStop) : State :=
  if s.knownStop r x then s
  else
    let s := (s.setRing r { s.ring r with stops := addStop x (s.ring r).stops }).showStops r
    let s := ((s.put .LNK_RING_STOPSRC_ORIGIN r x.origin).put .LNK_RING_STOPSRC_CAUSE r x.cause).put .LNK_RING_STOPSRC_SEQ r x.seq
    (s.raise (212 + r)).haltAxes (s.fld .LNK_RING_CTL_STOP_AXES r)

/-- The device raises a stop on ring `r` (R219, R220 step 1): a new sequence number, latched and sent on both ports. With the bypass closed it takes no
part in the ring (R213). -/
def State.raiseStop (s : State) (r cause : Nat) : State :=
  if !s.takesPart r then s
  else
    let x := s.ring r
    let q := (x.nextStop + 1) % 2 ^ 16
    let own := s.fld .LNK_RING_CTL_MEMBER r
    let s := (s.setRing r { x with nextStop := q }).latchStop r ⟨own, q, cause⟩
    s.each (ringPorts r) fun l s => s.express l 0x08 [own, cause, q]

/-- D17 learns that an axis has entered LOST: the rings that watch it are stopped (R219 cause 0x03). -/
def State.lostHere (s : State) (a : Nat) : State :=
  s.each [0, 1] fun r s =>
    s.when (s.on .LNK_RING_CTL_LOST_STOP r && bitOf (s.fld .LNK_RING_CTL_STOP_AXES r) a) (·.raiseStop r 3)

/-- An axis enters LOST: the event crosses from D23 to the ring stops of D17, which stopped or held get it once they run (R13, R87). -/
def State.lostStop (s : State) (a : Nat) : State := s.pulseVia 23 17 (.lost a) (·.lostHere a)

/-- A release removes every stop at or below the sequence number listed for its origin (R222). -/
def State.releaseStops (s : State) (r : Nat) (upTo : List (Nat × Nat)) : State :=
  let covered := fun (y : RingStop) => upTo.any fun e => e.1 == y.origin && !seqLater y.seq e.2
  let x := s.ring r
  let kept := x.stops.filter (fun y => !covered y)
  let s' := (s.setRing r { x with stops := kept }).showStops r
  let s' := if kept.length < x.stops.length then s'.raise (212 + r) else s'
  s'.when (s.frankerRuns && s.ringStopped && !s'.ringStopped) (·.frankerBehind)

end Sys2Proof.Machine
end

