-- ==== Sys2Proof/Machine/Position.lean ====
section
/-! DEFINITION. Position and axes (chapter 05): decoding (R101..R106), motion, wraps and direction (R110..R112), faults,
dead reckoning and loss (R119..R124), Z (R122), beacons (R116), strobes (R117, R118), commands (R125), snapshots
(R126, R127), and the 1 ns tick of the engine (R104, R114, R115). -/

namespace Sys2Proof.Machine

/-! ### Access -/

/-- Axis `a` beside its registers. -/
def State.ax (s : State) (a : Nat) : Axis := Tbl.find Axis.reset s.axes a

/-- Sets axis `a`. -/
def State.setAx (s : State) (a : Nat) (x : Axis) : State := { s with axes := Tbl.set Axis.reset s.axes a x }

/-- Changes axis `a`. -/
def State.updAx (s : State) (a : Nat) (g : Axis → Axis) : State := s.setAx a (g (s.ax a))

/-- The state of an axis (R119). -/
def State.axState (s : State) (a : Nat) : Nat := s.fld .POS_AX_STAT_STATE a

/-- The present moment in steps of 15.625 ps of the timebase (R102). -/
def State.now (s : State) : Nat := 64 * s.tb

/-- The axes that run from encoder input `k`, in any state but OFF. -/
def State.axesOn (s : State) (k : Nat) : List Nat :=
  (List.range 8).filter fun a => s.axState a != 0 && (s.ax a).src == 0 && (s.ax a).enc == k

/-- D23 runs the engine (R82, R124). -/
def State.engineOn (s : State) : Bool := s.runs 23 && !s.isHeld 23

/-- What the engine does while D23 runs it (R124); nothing while it does not. -/
def State.engine (s : State) (g : State → State) : State := s.when s.engineOn g

/-- A quotient no rule rounds: exact where it divides, else one of the two neighbours, as a free value chooses
(assumption 3). -/
def State.roundFree (s : State) (num : Int) (den : Nat) : State × Int :=
  if num % (den : Int) = 0 then (s, num / (den : Int)) else (s.drew, num / (den : Int) + (s.draw % 2 : Nat))

/-! ### Motion -/

/-- A change of direction, at the furthest point `far` reached so far (R111): the new DIR and furthest point. -/
def turn (dir : Bool) (hyst far p : Nat) : Bool × Nat :=
  let d := pmDiff p far
  if !dir then (if 0 < d then (false, p) else if d ≤ -counts hyst then (true, p) else (false, far))
  else (if d < 0 then (true, p) else if counts hyst ≤ d then (false, p) else (true, far))

/-- A channel without REVERSE is inhibited when DIR becomes 1 (R199). -/
def State.reversed (s : State) (a : Nat) : State := s.inhibitAxis a 0xE (fun x => !x.has mReverse)

/-- What a move from `old` to `p` adds to the epoch (R110): 1 at a forward wrap, -1 at a backward one. -/
def wrapOf (old p : Nat) : Int :=
  let d := pmDiff p old
  if 0 < d ∧ signed 61 p < signed 61 old then 1 else if d < 0 ∧ signed 61 old < signed 61 p then -1 else 0

/-- The postmark `pm` is crossed forward between two positions (R113). -/
def crossedForward (old p pm : Nat) : Bool := decide (0 < pmDiff pm old) && decide (pmDiff pm p ≤ 0)

/-- The postmark `pm` is crossed backward between two positions (R113). -/
def crossedBackward (old p pm : Nat) : Bool := decide (pmDiff pm old < 0) && decide (0 ≤ pmDiff pm p)

/-- Axis `a` has crossed `pm` forward since the last tick (R113). What a command reports between two ticks is judged as at the next one
(DESIGN CHOICE, assumption 92). -/
def State.crossesForward (s : State) (a pm : Nat) : Bool := crossedForward (s.ax a).tickPos (s.axisPm a) pm

/-- Axis `a` has crossed `pm` backward since the last tick (R113). -/
def State.crossesBackward (s : State) (a pm : Nat) : Bool := crossedBackward (s.ax a).tickPos (s.axisPm a) pm

/-- A first crossing (R113): forward, and ahead of the high-water mark as it stood at the last tick. -/
def State.firstCrossing (s : State) (a pm : Nat) : Bool := s.crossesForward a pm && decide (0 < pmDiff pm (s.ax a).tickHwm)

/-- The axis moves to position `p` (R110..R112): the epoch steps on a wrap, with WRAP and source 19 + 4a; the high-water
mark and REVISIT follow; DIR turns after HYST counts, and on a turn armed entries go back (R139). -/
def State.moveTo (s : State) (a p : Nat) : State :=
  let p := p % 2 ^ 61
  let old := s.axisPm a % 2 ^ 61
  let w := wrapOf old p
  let s := (s.put .POS_AX_POS_VALUE a (pmMake a p)).addMod .POS_AX_EPOCH_VALUE a (bits 32 w)
  let s := s.when (w != 0) fun s => (s.put .POS_AX_FLT_WRAP a 1).raise (19 + 4 * a)
  let s := s.when (decide (0 < pmDiff p (s.fld .POS_AX_HWM_VALUE a))) (·.put .POS_AX_HWM_VALUE a (pmMake a p))
  let s := s.put .POS_AX_STAT_REVISIT a (b2n (decide (pmDiff p (s.fld .POS_AX_HWM_VALUE a) < 0)))
  let dir := s.on .POS_AX_STAT_DIR a
  let t := turn dir (max 1 (s.fld .POS_AX_TUNE_HYST a)) (s.ax a).far p
  let s := (s.updAx a ({ · with far := t.2 })).put .POS_AX_STAT_DIR a (b2n t.1)
  if t.1 = dir then s
  else
    let s := s.disarmAll (·.axis == a)
    if t.1 then s.reversed a else s

/-- The interpolated travel of R104 at a moment, in 1/4,096 count: 0 while no velocity serves, held after a velocity
time-out. -/
def Axis.travel (x : Axis) (t : Nat) : Int :=
  match x.held with
  | some h => h
  | none =>
    if !x.vok then 0
    else max (-4095) (min 4095 (Int.tdiv (x.vnum * ((t - x.anchorT : Nat) : Int) * 4096) (x.vden : Int)))

/-- The travel of dead reckoning at a moment, in 1/65,536 count, at most DIST counts (R120); rounded toward zero, which no rule states (DESIGN CHOICE,
assumption 92). -/
def Axis.drTravel (x : Axis) (dist t : Nat) : Int :=
  max (-counts dist) (min (counts dist) (Int.tdiv (x.vnum * ((t - x.anchorT : Nat) : Int) * 65536) (x.vden : Int)))

/-- Where an encoder or follow axis stands at a moment (R103, R104, R120). -/
def State.posAt (s : State) (a t : Nat) : Nat :=
  let x := s.ax a
  if s.axState a = 2 then pmAdd x.anchor (x.drTravel (s.fld .POS_AX_DR_DIST a) t)
  else if s.axState a = 1 && x.src = 0 then pmAdd x.anchor (x.travel t * 16)
  else s.axisPm a % 2 ^ 61

/-- Where an axis will stand at a moment `num`/`q`, in steps, at or after the present, from the values of R107 and not from the tick-rounded position; its fraction
rounded toward zero (R280). -/
def State.predictAt (s : State) (a num q : Nat) : Nat :=
  let x := s.ax a
  let go := fun (from_ t0 : Nat) (den : Nat) => pmAdd from_ (Int.tdiv (x.vnum * ((num - t0 * q : Nat) : Int) * 65536) ((q * den : Nat) : Int))
  let exact := fun (den : Nat) => pmAdd (s.axisPm a)
    (Int.tdiv (x.vnum * ((num - s.now * q : Nat) : Int) * 65536 * 10 ^ 18 + x.acc * (q * den : Nat)) ((q * den * 10 ^ 18 : Nat) : Int))
  if !s.axisRuns a then s.axisPm a % 2 ^ 61
  else if x.src = 0 then
    match x.held with
    | some h => pmAdd x.anchor (h * 16)
    | none => if s.axState a = 1 && !x.vok then x.anchor else go x.anchor x.anchorT x.vden
  else if s.axState a = 2 then go x.anchor x.anchorT x.vden
  else exact (if x.src = 1 then 16 * 64 * 10 ^ 18 else x.vden)

/-- The moment t* at which axis `a` reaches postmark `pm` (R107, R139), in steps of 15.625 ps, as a numerator over a denominator; none while no
velocity carries the axis there. -/
def State.reachAt (s : State) (a pm : Nat) : Option (Int × Nat) :=
  let x := s.ax a
  let meet := fun (from_ t0 : Nat) (den : Nat) =>
    let d := pmDiff pm from_
    if x.vnum = 0 || decide (d * x.vnum < 0) then none
    else some ((t0 : Int) * ((65536 * x.vnum.natAbs : Nat) : Int) + (d.natAbs * den : Nat), 65536 * x.vnum.natAbs)
  let exact := fun (den : Nat) =>
    let d := pmDiff pm (s.axisPm a) * 10 ^ 18 - x.acc
    let unit := 65536 * x.vnum.natAbs * 10 ^ 18
    if x.vnum = 0 || decide (d * x.vnum < 0) then none else some ((s.now : Int) * (unit : Nat) + (d.natAbs * den : Nat), unit)
  if !s.axisRuns a then none
  else if x.src = 0 then (if x.held.isSome || (s.axState a = 1 && !x.vok) then none else meet x.anchor x.anchorT x.vden)
  else if s.axState a = 2 then meet x.anchor x.anchorT x.vden
  else exact (if x.src = 1 then 16 * 64 * 10 ^ 18 else x.vden)

/-! ### Loss and dead reckoning -/

/-- Entry to LOST (R123): LOST, LOSTCNT, source 17 + 4a; armed entries go back (R139), the channels of the axis are
inhibited (R181), and a ring that watches it is stopped (R219). -/
def State.lose (s : State) (a first : Nat) : State :=
  let s := ((s.put .POS_AX_STAT_STATE a 3).put .POS_AX_FLT_FIRST a first).put .POS_AX_FLT_LOST a 1
  let s := s.when ((s.ax a).src != 0) (·.put .POS_AX_STAT_VVALID a 0)
  let s := (s.bump .POS_AX_LOSTCNT_CNT a 1).raise (17 + 4 * a)
  let s := s.disarmAll (·.axis == a)
  ((s.inhibitAxis a 2 (fun _ => true)).lostStop a).showFranker.refreshPins

/-- Every axis that was TRACKING or DEAD_RECKONING is LOST (R124). -/
def State.loseRunning (s : State) (first : Nat) : State :=
  s.each ((List.range 8).filter s.axisRuns) fun a s => s.lose a first

/-- D23 runs the engine again (R124). -/
def State.timebaseReturn (s : State) : State := s.loseRunning 6

/-- A fault is detected (R119, R120): its bit is set in every state; in TRACKING it starts dead reckoning at the last
valid edge or beacon, or with DRTIME 0 the axis is LOST. A second fault of the same tick records the lower code. At velocity below VMIN the velocity of
the dead reckoning is 0. -/
def State.fault (s : State) (a code : Nat) : State :=
  let s := s.putBit .POS_AX_FLT_FAULT a (code - 1) true
  let s := s.updAx a fun x => { x with faults := orBit x.faults code }
  if s.axState a = 1 then
    let t := s.now
    let s := s.updAx a fun x => { x with vnum := if x.held.isSome then 0 else x.vnum, held := none, drT := t }
    if s.fld .POS_AX_DRTIME_TIME a = 0 then s.lose a code
    else ((s.put .POS_AX_STAT_STATE a 2).put .POS_AX_FLT_FIRST a code).raise (16 + 4 * a)
  else if 2 ≤ s.axState a && (s.ax a).drT = s.now && s.fld .POS_AX_FLT_FIRST a ≤ 5 && code < s.fld .POS_AX_FLT_FIRST a then
    s.put .POS_AX_FLT_FIRST a code
  else s

/-- Dead reckoning of axis `a` is at its end (R120): its travel has reached DIST counts, or DRTIME µs have passed since the fault. -/
def State.drOver (s : State) (a : Nat) : Bool :=
  let x := s.ax a
  let dist := s.fld .POS_AX_DR_DIST a
  s.axState a == 2 && (decide (dist * 65536 ≤ (x.drTravel dist s.now).natAbs) ||
    decide (s.fld .POS_AX_DRTIME_TIME a * 64000 ≤ s.now - x.drT))

/-- Dead reckoning that is at its end leaves the axis LOST where it then stands (R120, R123). -/
def State.drEnd (s : State) (a : Nat) : State :=
  if s.drOver a then (s.moveTo a (s.posAt a s.now)).lose a (s.fld .POS_AX_FLT_FIRST a) else s

/-- Dead reckoning may still end in a re-anchor (R121): it is not at its end, and its travel is at most REANCHOR_MAX counts. -/
def State.mayReanchor (s : State) (a : Nat) : Bool :=
  let most := s.fld .POS_AX_TUNE_REANCHOR_MAX a
  s.axState a == 2 && !s.drOver a && most != 0 &&
    decide (((s.ax a).drTravel (s.fld .POS_AX_DR_DIST a) s.now).natAbs ≤ most * 65536)

/-- JUMP of a re-anchor, in 1/4,096 count (R121); a free value where it does not fit. -/
def State.setJump (s : State) (a : Nat) (d : Int) : State :=
  let r := s.roundFree d 16
  if -32768 ≤ r.2 && r.2 ≤ 32767 then r.1.put .POS_AX_JUMP_JUMP a (bits 16 r.2)
  else (r.1.put .POS_AX_JUMP_JUMP a r.1.draw).drew

/-- An axis that re-anchors goes backward: its dead reckoning did, or without a velocity its last counted step. -/
def Axis.goesBack (x : Axis) : Bool := decide (x.vnum < 0) || (x.vnum == 0 && x.dir == 2)

/-- A re-anchor to position `p` (R116, R121): the last counted edge is the one that lies there, which an axis going backward has crossed backward. -/
def State.reanchor (s : State) (a p : Nat) : State :=
  let d := pmDiff p (s.axisPm a)
  let t := s.now
  let s := (s.put .POS_AX_STAT_STATE a 1).updAx a fun x =>
    { x with anchor := p % 2 ^ 61, anchorT := t, dir := if x.goesBack then 2 else 1, vok := true, bridged := true, held := none, win := [] }
  let s := (s.when ((s.ax a).src == 0) (·.put .POS_AX_STAT_VVALID a 0)).setJump a d
  ((s.put .POS_AX_FLT_REANCHOR a 1).raise (18 + 4 * a)).moveTo a p

/-- The counts of one quadrature cycle (R105). -/
def cycleOf (mult : Nat) : Nat := match mult with
  | 0 => 4
  | 1 => 2
  | _ => 1

/-- The place of the levels A, B in the forward order (R101). -/
def quad (a b : Bool) : Nat := match a, b with
  | false, false => 0
  | true, false => 1
  | true, true => 2
  | false, true => 3

/-- Counted steps from AB = 00 to a place of the forward order. -/
def stepsTo (mult q : Nat) : Nat := match mult with
  | 0 => q
  | 1 => (q + 1) / 2
  | _ => 0

/-- What the count is, modulo a cycle, at the levels of an axis, beyond its offset (R121). -/
def Axis.residue (x : Axis) : Int :=
  let u := (stepsTo x.mult (quad x.lvlA x.lvlB) : Int)
  if x.inv then -u else u

/-- The position nearest to `p` whose count agrees with the present quadrature state (R121): of an axis going backward, whose last edge is the upper one of its
place, one count more (R103). Between two equally near a free value chooses. -/
def State.nearest (s : State) (a p : Nat) : State × Nat :=
  let x := s.ax a
  let c := counts (cycleOf x.mult)
  let off := counts (x.residue + x.off + (if x.goesBack then 1 else 0))
  let rel := signed 61 p - off
  let low := rel - rel % c
  let up := rel % c
  if 2 * up < c then (s, bits 61 (off + low))
  else if c < 2 * up then (s, bits 61 (off + low + c))
  else (s.drew, bits 61 (off + low + c * (s.draw % 2 : Nat)))

/-- Faults of an axis end (R119); when none is left in dead reckoning that may still end in a re-anchor, the axis re-anchors (R121). -/
def State.clearFaults (s : State) (a : Nat) (codes : List Nat) : State :=
  let had := (s.ax a).faults
  let s := s.updAx a fun x => { x with faults := codes.foldl clearBit x.faults }
  let x := s.ax a
  if had != 0 && x.faults = 0 && x.src = 0 && s.mayReanchor a then
    let r := s.nearest a (s.posAt a s.now)
    r.1.reanchor a r.2
  else s

/-! ### Velocity -/

/-- The velocity register for a velocity of `num` counts in `den` steps, at most one count in the time since the last
edge (R105). -/
def State.setVel (s : State) (a : Nat) (num : Int) (den since : Nat) : State :=
  let k : Int := 16 * 64 * 10 ^ 9
  let capped := since ≠ 0 && decide ((den : Int) < (num.natAbs : Int) * (since : Int))
  let r := if capped then s.roundFree (if num < 0 then -k else k) since else s.roundFree (num * k) (max 1 den)
  r.1.put .POS_AX_VEL_VALUE a (bits 32 r.2)

/-- Edges of the velocity window: one more than its counts (R105). -/
def State.winEdges (s : State) (a : Nat) : Nat :=
  2 ^ s.fld .POS_AX_TUNE_VWIN a * cycleOf (s.ax a).mult + 1

/-- The velocity that the window gives (R105): N counts in the time of its N + 1 edges. While it is not full, the velocity is not valid; after a
re-anchor the one before serves meanwhile, as long as the motion keeps its direction (R121). POS_AX_VEL then keeps its last value, which no rule states
(DESIGN CHOICE, assumption 92). -/
def State.window (s : State) (a : Nat) : State :=
  let x := s.ax a
  let k := s.winEdges a
  let δ : Int := if x.dir = 2 then -1 else 1
  match x.win.head?, x.win[k - 1]? with
  | some t, some u =>
    (s.setAx a { x with vnum := δ * (k - 1 : Nat), vden := max 1 (t - u), vok := true, bridged := false }).put .POS_AX_STAT_VVALID a 1
  | _, _ =>
    (s.setAx a { x with vok := x.bridged && (x.win.isEmpty || decide (0 < x.vnum * δ)) }).put .POS_AX_STAT_VVALID a 0

/-- A counted edge in TRACKING (R103, R105): the position is exactly its count, and the same edge serves a reversal. The first edge after START
or RECOVER gives the loaded integer ± 1 (R125). `fwd`: the counted step is forward. -/
def State.countEdge (s : State) (a t : Nat) (fwd : Bool) : State :=
  let x := s.ax a
  let δ : Int := if fwd then 1 else -1
  let code := if fwd then 1 else 2
  let whole := x.anchor / 65536 * 65536
  let anchor := if x.dir = code || x.dir = 0 then pmAdd whole (counts δ) else whole
  let win := if x.dir = code then (t :: x.win).take 513 else [t]
  let c := signed 45 (anchor / 65536) - (if fwd then 0 else 1)
  let x := { x with anchor := anchor, anchorT := t, dir := code, win := win, held := none }
  let s := (s.setAx a { x with off := ((c - x.residue) % (cycleOf x.mult : Int)).toNat }).window a
  let s := if s.on .POS_AX_STAT_VVALID a then s.setVel a (s.ax a).vnum (s.ax a).vden 0 else s
  s.moveTo a anchor

/-- The rate judged at a counted edge (R101): OVERSPEED above 48 × 10^6 per second, cleared after 8 edges within it. -/
def State.judgeRate (s : State) (a t : Nat) : State :=
  let s := s.updAx a fun x => { x with rate := (t :: x.rate).take 8 }
  match (s.ax a).rate[7]? with
  | none => s
  | some u =>
    if 48 * (t - u) < 7 * 64 * 1000 then (s.updAx a ({ · with calm := 0 })).fault a 4
    else
      let s := s.updAx a fun x => { x with calm := x.calm + 1 }
      if (s.ax a).calm = 8 then s.clearFaults a [4] else s

/-! ### Encoder edges -/

/-- A step of the quadrature state of axis `a` whose pair changes legally: the runs of R119, the rate, and in TRACKING the
count. -/
def State.legalStep (s : State) (a t : Nat) (pairA fwdRaw : Bool) (q q' : Nat) : State :=
  let x := s.ax a
  let code := if fwdRaw != x.inv then 1 else 2
  let counted := x.mult == 0 || (x.mult == 1 && pairA) || (x.mult == 2 && (q + q' == 3 && q * q' == 0))
  let s := s.setAx a { x with
    legal := if x.legalDir = code then x.legal + 1 else 1, legalDir := code, zStep := code }
  let s := if counted then s.judgeRate a t else s
  let s := if counted && s.axState a = 1 then s.countEdge a t (code == 1) else s
  if (s.ax a).legal = 8 then s.clearFaults a [2, 3] else s

/-- The reported velocity is at least VMIN (R119 code 3). -/
def State.fastEnough (s : State) (a : Nat) : Bool :=
  decide (16 * max 1 (s.fld .POS_AX_VMIN_VMIN a) ≤ (signed 32 (s.fld .POS_AX_VEL_VALUE a)).natAbs)

/-- A run of STUCK_N changes faults STUCK, once (R119 code 3); a STUCK_N written lower counts from the next tick (R100). -/
def State.judgeStuck (s : State) (a : Nat) : State :=
  let x := s.ax a
  if x.stuckFast && !x.stuckHit && decide (max 4 (s.fld .POS_AX_TUNE_STUCK_N a) ≤ x.stuck) then
    (s.setAx a { x with stuckHit := true }).fault a 3
  else s

/-- The run of changes on one phase (R119 code 3). -/
def State.stuckRun (s : State) (a : Nat) (pairA : Bool) : State :=
  let x := s.ax a
  let x := if x.stuckA = pairA && x.stuck ≠ 0 then { x with stuck := x.stuck + 1 }
    else { x with stuckA := pairA, stuck := 1, stuckFast := s.fastEnough a, stuckHit := false }
  (s.setAx a x).judgeStuck a

/-- An edge of one pair reaches the decoder of axis `a` (R101): a level shorter than FILT is rejected and counted; a change
within 5 ns of the other pair's is illegal and faults QUAD; any other is a step. -/
def State.axisEdge (s : State) (a t heldNs : Nat) (pairA level : Bool) : State :=
  let x := s.ax a
  let cur := if pairA then x.lvlA else x.lvlB
  if heldNs < s.fld .POS_AX_TUNE_FILT a then s.bump .POS_AX_ERRCNT_GLITCH a 1
  else if cur = level then s
  else
    let other := if pairA then x.timeB else x.timeA
    let q := quad x.lvlA x.lvlB
    let x' := if pairA then { x with lvlA := level, timeA := t + 1 } else { x with lvlB := level, timeB := t + 1 }
    let q' := quad x'.lvlA x'.lvlB
    let s := (s.setAx a x').stuckRun a pairA
    if other ≠ 0 && t + 1 < other + 320 then (s.updAx a ({ · with legal := 0, legalDir := 0 })).fault a 2
    else s.legalStep a t pairA (q' == (q + 1) % 4) q q'

/-- An edge on pair A or B of encoder input `k`, at a moment, whose level then lasts `heldNs` ns: each axis that runs from the input decodes it, while
D23 runs the engine (R101, R124). -/
def State.encoderEdge (s : State) (k : Nat) (pairA level : Bool) (t heldNs : Nat) : State :=
  let s := { s with encLevel := Tbl.set 0 s.encLevel (3 * k + if pairA then 0 else 1) (b2n level) }
  s.engine fun s => s.each (s.axesOn k) fun a s => s.axisEdge a t heldNs pairA level

/-- An edge on pair A or B of an encoder input, at a moment, whose level then lasts `heldNs` ns (R101). -/
def execEncoderEdge (k : Fin 8) (pairA level : Bool) (t heldNs : Nat) (s : State) : Host.Outcome State Fault Refusal :=
  .next (s.encoderEdge k pairA level t heldNs)

/-- An open Z pair of axis `a` (R122): Z_OPEN, source 18 + 4a, and capture is suspended. -/
def State.zOpen (s : State) (a : Nat) : State :=
  ((s.updAx a ({ · with zOff := true })).put .POS_AX_FLT_Z_OPEN a 1).raise (18 + 4 * a)

/-- Pair `p` of input `k` is under the OPEN condition of R119. -/
def State.pairOpen (s : State) (k p : Nat) : Bool := bitOf s.encOpen (3 * k + p)

/-- The debounced judgement of pair `p` of input `k` (R119, POS_ENC_STAT). -/
def State.judgePair (s : State) (k p : Nat) (valid : Bool) : State :=
  let n := 3 * k + p
  { s with encOpen := if valid then clearBit s.encOpen n else orBit s.encOpen n }.putBit .POS_ENC_STAT_VALID 0 n valid

/-- An A or B pair has been invalid for 4 µs (R119 code 1). -/
def execOpenFault (k : Fin 8) (pairA : Bool) (s : State) : Host.Outcome State Fault Refusal :=
  .next <| s.engine fun s =>
  let s := s.judgePair k (if pairA then 0 else 1) false
  s.each (s.axesOn k) fun a s => s.fault a 1

/-- The clearing condition of a fault code as the engine holds it (R119): 8 legal steps in one direction, or 8 counted edges in a row within the rate.
OPEN ends with its pairs and BEACON with the beacon itself. -/
def Axis.calmed (x : Axis) (c : Nat) : Bool :=
  if c = 2 || c = 3 then decide (8 ≤ x.legal) else if c = 4 then decide (8 ≤ x.calm) else false

/-- A fault's clearing condition is met, or a pair has been valid for 4 µs (R119, R122). -/
def execFaultClear (e : FaultEnd) (s : State) : Host.Outcome State Fault Refusal :=
  .next <| s.engine fun s =>
  match e with
  | .axis a c => if bitOf (s.ax a).faults c && (s.ax a).calmed c then s.clearFaults a [c] else s
  | .pair k p =>
    let s := s.judgePair k p true
    if p.val = 2 then s.each (s.axesOn k) fun a s => s.updAx a fun x =>
      if x.zOff then { x with zOff := false, zPrev := false, zStep := 0 } else x
    else if !s.pairOpen k 0 && !s.pairOpen k 1 then s.each (s.axesOn k) fun a s => s.clearFaults a [1]
    else s

/-- Dead reckoning reaches DIST or DRTIME: the axis is LOST where it stands (R120, R123). -/
def execDeadReckoningEnd (a : Fin 8) (s : State) : Host.Outcome State Fault Refusal :=
  .next (s.engine (·.drEnd a))

/-- More than 1 ÷ VMIN seconds have passed since the last counted edge (R105); a VMIN of 0 is taken as 1. -/
def State.edgeOld (s : State) (a : Nat) : Bool :=
  decide (64 * 10 ^ 9 < (s.now - (s.ax a).anchorT) * max 1 (s.fld .POS_AX_VMIN_VMIN a))

/-- That is so of an encoder axis in TRACKING whose travel is not held yet (R105). -/
def State.velocityStale (s : State) (a : Nat) : Bool :=
  let x := s.ax a
  s.axState a == 1 && x.src == 0 && x.held.isNone && s.edgeOld a

/-- The velocity of such an axis is reported as 0 and its travel is held (R105). -/
def State.holdTravel (s : State) (a : Nat) : State :=
  if s.velocityStale a then
    let h := (s.ax a).travel s.now
    (s.updAx a ({ · with held := some h })).put .POS_AX_VEL_VALUE a 0
  else s

/-- No counted edge for 1 ÷ VMIN seconds (R105). -/
def execVelocityTimeout (a : Fin 8) (s : State) : Host.Outcome State Fault Refusal :=
  .next (s.engine (·.holdTravel a))

/-- The levels A, B at a place of the forward order (R101). -/
def levelsAt (q : Nat) : Bool × Bool := (q % 4 == 1 || q % 4 == 2, q % 4 == 2 || q % 4 == 3)

/-- Whether the step between two neighbouring places is counted (R101). -/
def countedStep (mult q q' : Nat) : Bool :=
  let a := (levelsAt q).1 != (levelsAt q').1
  match mult with
  | 0 => true
  | 1 => a
  | _ => q + q' == 3 && q * q' == 0

/-- The places that the next counted step passes through from place `q`. -/
def placesTo (mult q : Nat) (fwd : Bool) : List Nat :=
  let at_ := fun (i : Nat) => (q + (if fwd then i else 3 * i)) % 4
  let n := ((List.range 4).find? fun i => countedStep mult (at_ i) (at_ (i + 1))).getD 3
  (List.range (n + 1)).map fun i => at_ (i + 1)

/-- The next counted step of axis `a` comes on its encoder input, forward or backward: the edges that make it, 5 ns apart. -/
def State.stepEncoder (s : State) (a : Nat) (fwd : Bool) : State :=
  let x := s.ax a
  let raw := fwd != x.inv
  let start := max s.now (max x.timeA x.timeB + 320)
  let qs := placesTo x.mult (quad x.lvlA x.lvlB) raw
  s.each ((List.range qs.length).zip qs) fun e s =>
    let l := levelsAt e.2
    let pairA := (s.ax a).lvlA != l.1
    s.encoderEdge x.enc pairA (if pairA then l.1 else l.2) (start + 320 * e.1) 15

/-- The count passes the end of its range (R110): from 2^44 - 1 forward, or from -2^44 backward. The counted step that takes an encoder axis across comes
on its input; a virtual axis, and dead reckoning, cross at the tick that moves them, which needs no command. -/
def execPositionWrap (a : Fin 8) (forward : Bool) (s : State) : Host.Outcome State Fault Refusal :=
  .next <| s.engine fun s =>
  let c := s.axisPm a / 65536 % 2 ^ 45
  let atEnd := if forward then c == 2 ^ 44 - 1 else c == 2 ^ 44
  if s.axState a = 1 && (s.ax a).src = 0 && atEnd then s.stepEncoder a forward else s

/-! ### Z -/

/-- A rising edge of Z on axis `a` (R122): captured when the last quadrature step was forward; with ZMODE 0b10 the
distance from the capture before is checked. It is captured in every state but OFF, so also in DEAD_RECKONING and in LOST, which no rule states (DESIGN
CHOICE, assumption 92). -/
def State.zCapture (s : State) (a t : Nat) : State :=
  let x := s.ax a
  if (x.zmode ≠ 1 && x.zmode ≠ 2) || x.zOff || x.zStep ≠ 1 then s
  else
    let p := s.posAt a t
    let gap := (pmDiff p (s.fld .POS_AX_ZCAP_VALUE a)).natAbs
    let want := s.fld .POS_AX_ZPERIOD_VALUE a * 65536
    let off := if gap < want then want - gap else gap - want
    let slip := x.zmode == 2 && x.zPrev && decide (s.fld .POS_AX_ZTOL_TOL a * 65536 < off)
    let s := (s.put .POS_AX_ZCAP_VALUE a (pmMake a p)).setAx a { x with zPrev := true }
    if slip then ((s.put .POS_AX_FLT_Z_SLIP a 1).bump .POS_AX_ERRCNT_ZSLIP a 1).raise (18 + 4 * a) else s

/-- A rising edge of a Z pair reaches axis `a`: a level shorter than FILT, the high one or the low one before it, is rejected and counted, as on the other pairs
(R101, R122). After a rejected low level the pair is still high, and the edge is none. -/
def State.zEdge (s : State) (a : Nat) (e : ZEdge) : State :=
  if min e.heldNs e.lowNs < s.fld .POS_AX_TUNE_FILT a then s.bump .POS_AX_ERRCNT_GLITCH a 1 else s.zCapture a e.time

/-- A rising edge of a Z pair at a moment, whose level then lasts so long (R101, R122). -/
def execZEdge (k : Fin 8) (e : ZEdge) (s : State) : Host.Outcome State Fault Refusal :=
  .next (s.engine fun s => s.each (s.axesOn k) fun a s => s.zEdge a e)

/-- A Z pair is open (R122): Z_OPEN, source 18 + 4a, and capture is suspended. -/
def execZOpen (k : Fin 8) (s : State) : Host.Outcome State Fault Refusal :=
  .next <| s.engine fun s =>
  let s := s.judgePair k 2 false
  s.each ((s.axesOn k).filter (fun a => (s.ax a).zmode == 1 || (s.ax a).zmode == 2)) fun a s => s.zOpen a

/-! ### Beacons -/

/-- A valid beacon for axis `a` (R116): under one count of difference it is applied over the next interval, otherwise at once as
a re-anchor; in dead reckoning it clears BEACON and may re-anchor (R121). The first one after START or RECOVER makes the velocity valid (R114). -/
def State.beacon (s : State) (a pos : Nat) (vel : Int) : State :=
  let t := s.now
  let x := s.ax a
  let d := pmDiff pos (s.axisPm a)
  let base := { x with anchor := pos, anchorT := t, vnum := vel, vden := 16 * 64 * 10 ^ 9, faults := clearBit x.faults 5, beaconT := t + 1 }
  let s := s.when (s.axState a == 1 || s.axState a == 2) (·.put .POS_AX_STAT_VVALID a 1)
  if s.axState a = 1 then
    let s := (s.setAx a base).put .POS_AX_VEL_VALUE a (bits 32 vel)
    if d.natAbs < 65536 then s.updAx a ({ · with slew := d * 10 ^ 18 / 1024 })
    else (s.updAx a ({ · with slew := 0, acc := 0 })).reanchor a pos
  else if bitOf x.faults 5 && s.mayReanchor a then
    ((s.setAx a { base with slew := 0, acc := 0 }).put .POS_AX_VEL_VALUE a (bits 32 vel)).reanchor a pos
  else s.setAx a { x with faults := clearBit x.faults 5, beaconT := t + 1 }

/-- The position now of a beacon entry that came on a link: it held as the flit reached the receive balls, before the device's own receive delay at the rate in
use (R280). The fraction is rounded toward zero, as at the sender. -/
def State.beaconNow (s : State) (link pos : Nat) (vel : Int) : Nat :=
  pmAdd pos (Int.tdiv (vel * (Config.rxFix (s.fld .LANE_CUR_CUR link) : Int) * 4096) (10 ^ 12))

/-- A beacon entry of a link reaches the timebase (R116); one that carries LOST faults BEACON. -/
def State.beaconIn (s : State) (link baxis pos : Nat) (vel : Int) (lost : Bool) : State :=
  let named := (List.range 8).filter fun a =>
    s.fld .POS_AX_FOLLOW_LINK a == link && s.fld .POS_AX_FOLLOW_BAXIS a == baxis && (s.ax a).src == 2 && s.axState a != 0
  if lost then s.each named fun a s => s.fault a 5
  else
    ({ s with beaconAt := Tbl.set 0 s.beaconAt (link + 256 * baxis) (s.now + 1) }).each named fun a s => s.beacon a (s.beaconNow link pos vel) vel

/-- A beacon entry arrives on a link, its latency removed (R116, R280): a pulse from the link's octet into D23 (R87). -/
def execBeaconReceived (link : Fin 144) (baxis : Fin 8) (pos : BitVec 61) (vel : BitVec 32) (lost : Bool) (s : State) :
    Host.Outcome State Fault Refusal :=
  .next (s.pulseVia (link / 8) 23 (.beacon link baxis pos.toNat vel.toNat lost) (·.beaconIn link baxis pos.toNat vel.toInt lost))

/-- A follow axis has been without a valid beacon for more than 4.096 µs (R116, R119 code 5), counted from its START or RECOVER where none has come since
(DESIGN CHOICE, assumption 92). -/
def State.beaconGap (s : State) (a : Nat) : Bool :=
  let x := s.ax a
  x.src == 2 && s.axState a != 0 && !bitOf x.faults 5 && decide (x.beaconT + 262144 < s.now + 1)

/-- Such a gap is the BEACON fault. -/
def State.judgeBeacon (s : State) (a : Nat) : State := s.when (s.beaconGap a) (·.fault a 5)

/-- No beacon for 4.096 µs (R116, R119 code 5). -/
def execBeaconTimeout (a : Fin 8) (s : State) : Host.Outcome State Fault Refusal :=
  .next (s.engine (·.judgeBeacon a))

/-! ### Strobes -/

/-- The position of strobe `k` next to where its crossings have been judged, BASE + j × PITCH (R117). -/
def State.strobeNext (s : State) (k : Nat) (forward : Bool) : Nat :=
  let old := Tbl.find 0 s.strobeAt k
  let pitch : Int := max 16 (s.fld .POS_STRB_PITCH_PITCH k)
  let r := pmDiff old (s.fld .POS_STRB_BASE_BASE k) % pitch
  pmAdd old (if forward then pitch - r else if r = 0 then -pitch else -r)

/-- Strobe `k` is enabled for a direction on an axis that runs (R117). -/
def State.strobeOn (s : State) (k : Nat) (forward : Bool) : Bool :=
  s.on .POS_STRB_CTL_EN k && s.axisRuns (s.fld .POS_STRB_CTL_AXIS k) && bitOf (s.fld .POS_STRB_CTL_DIRSEL k) (if forward then 0 else 1)

/-- The axis of strobe `k` has crossed its next position in a direction (R113, R117). -/
def State.strobeMet (s : State) (k : Nat) (forward : Bool) : Bool :=
  let old := Tbl.find 0 s.strobeAt k
  let p := s.axisPm (s.fld .POS_STRB_CTL_AXIS k)
  if forward then crossedForward old p (s.strobeNext k true) else crossedBackward old p (s.strobeNext k false)

/-- A crossing whose pulse would start at moment `t` (R117, R118): a pulse on tree T2 or T3, on its way to every tap (R61, R63), or a merge where that is
less than 8 ns after the last pulse's start. -/
def State.strobe (s : State) (k t : Nat) : State :=
  let last := Tbl.find 0 s.strobeT k
  if last ≠ 0 && t + 1 < last + 512 then (s.bump .POS_STRB_STAT_MERGE k 1).raise (19 + 4 * s.fld .POS_STRB_CTL_AXIS k)
  else ({ s with strobeT := Tbl.set 0 s.strobeT k (t + 1) }.emit (.strobe k)).pulseTree (2 + k)

/-- The first 1 ns tick at or after a moment. -/
def tickAfter (t : Nat) : Nat := (t + 63) / 64 * 64

/-- The axis crosses a position of strobe `k` at a moment, forward or backward (R117, R118): its pulse starts on the first tick at or after it. -/
def execStrobeCrossing (k : Fin 2) (forward : Bool) (t : Nat) (s : State) : Host.Outcome State Fault Refusal :=
  .next <| s.engine fun s =>
  if s.strobeOn k forward && s.strobeMet k forward then
    ({ s with strobeAt := Tbl.set 0 s.strobeAt k (s.strobeNext k forward) }).strobe k (tickAfter t)
  else s

/-- How many positions of strobe `k` lie between where its crossings have been judged and the axis, in a direction (R113, R117). -/
def State.strobesPassed (s : State) (k : Nat) (forward : Bool) : Nat :=
  if !s.strobeMet k forward then 0
  else
    let pitch : Nat := max 16 (s.fld .POS_STRB_PITCH_PITCH k)
    1 + (pmDiff (s.axisPm (s.fld .POS_STRB_CTL_AXIS k)) (s.strobeNext k forward)).natAbs / pitch

/-- A tick's crossings of strobe `k`: the first may pulse, and the rest, which would pulse on the same tick, merge (R118). -/
def State.strobeTick (s : State) (k : Nat) : State :=
  let a := s.fld .POS_STRB_CTL_AXIS k
  let forward := s.strobeMet k true
  let n := if s.strobeOn k forward then s.strobesPassed k forward else 0
  let s := s.when (n != 0) (·.strobe k s.now)
  let s := s.when (decide (1 < n)) fun s => (s.bump .POS_STRB_STAT_MERGE k (n - 1)).raise (19 + 4 * a)
  { s with strobeAt := Tbl.set 0 s.strobeAt k (s.axisPm a % 2 ^ 61) }

/-- The strobes of axis `a` count their crossings from where it now stands. -/
def State.restrobe (s : State) (a : Nat) : State :=
  s.each ((List.range 2).filter fun k => s.fld .POS_STRB_CTL_AXIS k == a) fun k s =>
    { s with strobeAt := Tbl.set 0 s.strobeAt k (s.axisPm a % 2 ^ 61) }

/-- A write to POS_STRB_CTL[k] or to its base (R108, R117): POS_STRB_BASE shows the axis, and crossings count from where that axis stands. -/
def State.strobeWritten (s : State) (k : Nat) : State :=
  let a := s.fld .POS_STRB_CTL_AXIS k
  (s.put .POS_STRB_BASE_BASE k (pmMake a (s.fld .POS_STRB_BASE_BASE k))).restrobe a

/-- A position written to POS_AX_LOAD[a] keeps the axis number on output (R108). -/
def State.loadWritten (s : State) (a : Nat) : State := s.put .POS_AX_LOAD_VALUE a (pmMake a (s.fld .POS_AX_LOAD_VALUE a))

/-- A read of POS_STRB_STAT[k] returns and clears MERGE (R9, R118). -/
def execPosStrbStatRead (p : Port) (k : Fin 2) (s : State) : Host.Outcome State Fault Refusal :=
  .next (s.access p .POS_STRB_STAT k false 0 (·.readClear p .POS_STRB_STAT k))

/-! ### Commands -/

/-- A field of POS_AX_CTL holds a reserved code (R99, R101, R122). -/
def State.axisReserved (s : State) (a : Nat) : Bool :=
  s.fld .POS_AX_CTL_SRC a == 3 || s.fld .POS_AX_CTL_MULT a == 3 || s.fld .POS_AX_CTL_ZMODE a == 3

/-- What stands on the input of an encoder axis that has just started: an open A or B pair is a fault on that tick (R119, R125), and an open Z
pair suspends capture (R122). -/
def State.startFaults (s : State) (a : Nat) : State :=
  let x := s.ax a
  if x.src ≠ 0 then s
  else
    let s := s.when (s.pairOpen x.enc 0 || s.pairOpen x.enc 1) (·.fault a 1)
    s.when (s.pairOpen x.enc 2 && (x.zmode == 1 || x.zmode == 2)) (·.zOpen a)

/-- START or RECOVER is accepted (R100, R110..R112, R125): fields are copied, position and epoch loaded, and the axis is
TRACKING at velocity 0. -/
def State.axisLoad (s : State) (a : Nat) : State :=
  let p := s.fld .POS_AX_LOAD_VALUE a % 2 ^ 61
  let k := s.fld .POS_AX_CTL_ENC a
  let lvl := fun q => Tbl.find 0 s.encLevel (3 * k + q) == 1
  let x := { Axis.reset with
    src := s.fld .POS_AX_CTL_SRC a, enc := k, mult := s.fld .POS_AX_CTL_MULT a, inv := s.on .POS_AX_CTL_INV a,
    zmode := s.fld .POS_AX_CTL_ZMODE a, lvlA := lvl 0, lvlB := lvl 1, anchor := p, anchorT := s.now, far := p,
    beaconT := s.now + 1, tickPos := p, tickHwm := p }
  let s := s.setAx a { x with off := ((signed 45 (p / 65536) - x.residue) % (cycleOf x.mult : Int)).toNat }
  let s := ((s.put .POS_AX_POS_VALUE a (pmMake a p)).put .POS_AX_HWM_VALUE a (pmMake a p)).put .POS_AX_EPOCH_VALUE a
    (s.fld .POS_AX_LOAD_EPOCH_VALUE a)
  let s := ((s.put .POS_AX_STAT_STATE a 1).put .POS_AX_STAT_DIR a 0).put .POS_AX_STAT_REVISIT a 0
  let s := (s.put .POS_AX_STAT_PENDING a 0).put .POS_AX_VEL_VALUE a 0
  (((s.put .POS_AX_STAT_VVALID a (b2n (x.src == 1))).restrobe a).startFaults a).showFranker.refreshPins

/-- A fault of R119 is present on the source a RECOVER names (R125). -/
def State.recoverFault (s : State) (a : Nat) : Bool :=
  let k := s.fld .POS_AX_CTL_ENC a
  let x := s.ax a
  match s.fld .POS_AX_CTL_SRC a with
  | 0 => s.pairOpen k 0 || s.pairOpen k 1 ||
      (x.src == 0 && x.enc == k && (bitOf x.faults 2 || bitOf x.faults 3 || bitOf x.faults 4))
  | 2 =>
    let last := Tbl.find 0 s.beaconAt (s.fld .POS_AX_FOLLOW_LINK a + 256 * s.fld .POS_AX_FOLLOW_BAXIS a)
    last == 0 || decide (last + 262144 < s.now + 1)
  | _ => false

/-- START (R125): accepted in OFF with no reserved code; refused with CMD_ERR. -/
def State.axisStart (s : State) (a : Nat) : State :=
  if s.axState a = 0 && !s.axisReserved a then s.axisLoad a
  else (s.put .POS_AX_FLT_CMD_ERR a 1).raise (17 + 4 * a)

/-- RECOVER (R125): accepted in LOST with no reserved code and no fault present; refused with RECOVER_FAIL. -/
def State.axisRecover (s : State) (a : Nat) : State :=
  if s.axState a = 3 && !s.axisReserved a && !s.recoverFault a then s.axisLoad a
  else (s.put .POS_AX_FLT_RECOVER_FAIL a 1).raise (17 + 4 * a)

/-- STOP (R125): OFF from any state. Armed entries go back (R139), and the channels of the axis are inhibited with
POSITION_LOST (R398). -/
def State.axisStop (s : State) (a : Nat) : State :=
  let s := s.put .POS_AX_STAT_STATE a 0
  let s := s.when ((s.ax a).src != 0) (·.put .POS_AX_STAT_VVALID a 0)
  let s := s.disarmAll (·.axis == a)
  (s.inhibitAxis a 2 (fun _ => true)).showFranker.refreshPins

/-- A write of POS_AX_CMD[a] (R125): STOP alone where it is set; START and RECOVER are judged against the state at the
write. -/
def State.axCmd (s : State) (a v : Nat) : State :=
  if bitOf v 1 then s.axisStop a
  else
    let st := s.axState a
    let s := s.when (bitOf v 0) (·.axisStart a)
    if bitOf v 2 then
      (if bitOf v 0 && st != 3 then (s.put .POS_AX_FLT_RECOVER_FAIL a 1).raise (17 + 4 * a) else s.axisRecover a)
    else s

/-- A write of START (R125). -/
def execPosAxStart (p : Port) (a : Fin 8) (s : State) : Host.Outcome State Fault Refusal :=
  .next (s.access p .POS_AX_CMD a true 1 (·.axCmd a 1))

/-- A write of STOP (R125). -/
def execPosAxStop (p : Port) (a : Fin 8) (s : State) : Host.Outcome State Fault Refusal :=
  .next (s.access p .POS_AX_CMD a true 2 (·.axCmd a 2))

/-- A write of RECOVER (R125). -/
def execPosAxRecover (p : Port) (a : Fin 8) (s : State) : Host.Outcome State Fault Refusal :=
  .next (s.access p .POS_AX_CMD a true 4 (·.axCmd a 4))

/-- A write of POS_AX_CTL[a] (R100): stored; PENDING while the axis is not OFF. -/
def State.axisCtl (s : State) (a v : Nat) : State :=
  let s := ((s.put .POS_AX_CTL_SRC a v).put .POS_AX_CTL_ENC a (v / 2 ^ 2)).put .POS_AX_CTL_MULT a (v / 2 ^ 5)
  let s := (s.put .POS_AX_CTL_INV a (v / 2 ^ 7)).put .POS_AX_CTL_ZMODE a (v / 2 ^ 8)
  s.when (s.axState a != 0) (·.put .POS_AX_STAT_PENDING a 1)

/-- A write to POS_AX_CTL[a] (R100). -/
def execAxisCtlWrite (p : Port) (a : Fin 8) (value : Word) (s : State) : Host.Outcome State Fault Refusal :=
  .next (s.access p .POS_AX_CTL a true value.toNat (·.axisCtl a value.toNat))

/-- A write to POS_AX_VSPEED[a] (R115): the ramp toward it goes on from the velocity of the moment. -/
def execVspeedWrite (p : Port) (a : Fin 8) (value : Word) (s : State) : Host.Outcome State Fault Refusal :=
  .next (s.access p .POS_AX_VSPEED a true value.toNat (·.put .POS_AX_VSPEED_VALUE a value.toNat))

/-! ### Snapshots and reads -/

/-- A snapshot (R126). -/
def State.snapshot (s : State) : State :=
  (s.each (List.range 8) fun a s =>
    (s.put .POS_AX_SNAP_VALUE a (s.axisPm a)).put .POS_AX_SNAP_EPOCH_VALUE a (s.fld .POS_AX_EPOCH_VALUE a)).put
    .POS_SNAP_TB_TB 0 s.tb

/-- A write of SNAP (R126). -/
def execPosSnap (p : Port) (s : State) : Host.Outcome State Fault Refusal :=
  .next (s.access p .POS_SNAP_CMD 0 true 1 (·.snapshot))

/-- A read of the low word of POS_AX_POS[a] captures the high word and the epoch (R127). -/
def State.readPos (s : State) (p : Port) (a : Nat) : State :=
  let v := s.axisPm a
  { s with shadows := Tbl.set 0 s.shadows (shadowKey p .POS_AX_POS a) (v / 2 ^ 32 + 2 ^ 32 * s.fld .POS_AX_EPOCH_VALUE a) }.emit
    (.readValue p (v % 2 ^ 32))

/-- A read of the low word of POS_AX_POS[a] (R127). -/
def execAxisPosRead (p : Port) (a : Fin 8) (s : State) : Host.Outcome State Fault Refusal :=
  .next (s.access p .POS_AX_POS a false 0 (·.readPos p a))

/-- A read of POS_AX_ERRCNT[a] returns and clears both counts (R9, R128). -/
def execPosAxErrcntRead (p : Port) (a : Fin 8) (s : State) : Host.Outcome State Fault Refusal :=
  .next (s.access p .POS_AX_ERRCNT a false 0 (·.readClear p .POS_AX_ERRCNT a))

/-! ### The 1 ns tick -/

/-- The velocity of a profile axis after a tick (R115), in 10^-9 / 16 count/s: it moves toward VSPEED, cut to 40 × 10^6
counts/s, at VACC. -/
def State.ramp (s : State) (a : Nat) : Int :=
  let top : Int := 16 * 40 * 10 ^ 6
  let want := max (-top) (min top (signed 32 (s.fld .POS_AX_VSPEED_VALUE a))) * 10 ^ 9
  let step : Int := 16 * (s.fld .POS_AX_VACC_VALUE a : Int)
  let v := (s.ax a).vnum
  if step = 0 then want else if v < want then min want (v + step) else max want (v - step)

/-- Moves a virtual axis by a velocity over one tick, exactly to 2^-16 count (R114). -/
def State.advance (s : State) (a : Nat) (v extra : Int) : State :=
  let acc := (s.ax a).acc + v * 4096 + extra
  let whole := acc / 10 ^ 18
  (s.updAx a ({ · with acc := acc - whole * 10 ^ 18 })).moveTo a (pmAdd (s.axisPm a) whole)

/-- The velocity that an encoder axis reports between counted edges (R105): at most one count in the time since the last one. -/
def State.reportVel (s : State) (a : Nat) : State :=
  let x := s.ax a
  if x.src = 0 && x.vnum ≠ 0 then s.setVel a x.vnum x.vden (s.now - x.anchorT) else s

/-- The same in dead reckoning (R105, R120): 0 once the last counted edge lies more than 1 ÷ VMIN seconds back. -/
def State.reportReckoned (s : State) (a : Nat) : State :=
  if (s.ax a).src = 0 && s.edgeOld a then s.put .POS_AX_VEL_VALUE a 0 else s.reportVel a

/-- One tick of axis `a` in motion, at the timebase's new value (R104, R105, R114..R116, R120). -/
def State.axisMotion (s : State) (a : Nat) : State :=
  let x := s.ax a
  if s.axState a = 2 then (s.reportReckoned a).moveTo a (s.posAt a s.now)
  else if s.axState a ≠ 1 then s
  else match x.src with
    | 0 =>
      let s := (s.window a).holdTravel a
      let x := s.ax a
      let s := if x.vok && x.held.isNone then s.reportVel a else s
      s.moveTo a (s.posAt a s.now)
    | 1 =>
      let v := s.ramp a
      let r := s.roundFree v (10 ^ 9)
      ((r.1.put .POS_AX_VEL_VALUE a (bits 32 r.2)).updAx a ({ · with vnum := v })).advance a v 0
    | _ => s.advance a (x.vnum * 10 ^ 9) (if s.now < x.beaconT + 65536 then x.slew else 0)

/-- One tick of axis `a`: the end of dead reckoning first (R121), then faults that time or a tuning register brings, then its motion. -/
def State.axisTick (s : State) (a : Nat) : State :=
  let s := (s.drEnd a).judgeBeacon a
  let s := if s.axState a != 0 && (s.ax a).src == 0 then s.judgeStuck a else s
  s.axisMotion a

/-- The position and high-water mark of axis `a` at this tick (R113). -/
def State.markTick (s : State) (a : Nat) : State :=
  s.updAx a ({ · with tickPos := s.axisPm a % 2 ^ 61, tickHwm := s.fld .POS_AX_HWM_VALUE a % 2 ^ 61 })

end Sys2Proof.Machine
end

