-- ==== Sys2Proof/Machine/LinkOps.lean ====
section
/-! DEFINITION. What a Plynik link does with its traffic (chapter 11): replay (R277), fire
lines (R278, R279), lost traffic and DORMANT (R283, R292), ACTIVE (R275), and changes of width and retrains (R285..R290). -/

namespace Sys2Proof.Machine

/-! ### Links, lanes and sources -/

/-- The lanes that link `m` selects (R264). -/
def State.linkLanes (s : State) (m : Nat) : List Nat := maskLanes m (s.fld .LNK_CTL_LANES m)

/-- The mask of the selected lanes whose EN is 1 (R265). -/
def State.usable (s : State) (m : Nat) : Nat :=
  (bitsOf 8 (s.fld .LNK_CTL_LANES m)).foldl (fun v i => if s.on .LANE_CTL_EN (m + i) then orBit v i else v) 0

/-- The least width: 0 is taken as 1 (R293). -/
def State.minWidth (s : State) (m : Nat) : Nat := max 1 (s.fld .LNK_CTL_MIN_W m)

/-- A link leaves ACTIVE, or comes to it: the times of R181 and R203 run while it is out of it. -/
def State.timeLink (s : State) (m v : Nat) : State :=
  let lanes := (bitsOf 8 (s.fld .LNK_CTL_LANES m)).map (m + ·)
  if v = 6 then (s.stopTimer .linkDown m).each lanes fun l s => s.stopTimer .inactive l
  else if s.fld .LNK_STAT_STATE m = 6 then (s.startTimer .linkDown m).each lanes fun l s => s.startTimer .inactive l
  else s

/-- Link `m` changes state; the ring registers show whether a ring port is ACTIVE (R234). -/
def State.setLinkState (s : State) (m v : Nat) : State :=
  let s := ((s.timeLink m v).put .LNK_STAT_STATE m v).startTimer .linkState m
  if 140 ≤ m then s.put (if m % 2 = 0 then .LNK_RING_STAT_WEST_UP else .LNK_RING_STAT_EAST_UP) ((m - 140) / 2) (b2n (v == 6)) else s

/-- A bit of LNK_ERR whose every setting raises the source (R294). -/
def State.linkErrAlways (s : State) (m : Nat) (f : Fld) : State := (s.put f m 1).raiseOf (octetSource m) .LNK_ERR m

/-- How many lanes a width code of EP_W, RPA_W or RPB_W gives (R260). -/
def codedWidth (c : Nat) : Nat := if c = 0 then 0 else 2 ^ (c - 1)

/-- The ports that an Ethernet mode and its enable bits give octet `k` (R257): first lane and how many lanes. -/
def ethPorts (k mode en : Nat) : List (Nat × Nat) :=
  let one := fun (w : Nat) (i : Nat) => if bitOf en i then some (8 * k + i, w) else none
  match mode with
  | 1 => [0].filterMap (one 8)
  | 2 => [0, 4].filterMap (one 4)
  | 3 => [0].filterMap (one 4) ++ [4, 5, 6, 7].filterMap (one 1)
  | 4 => (List.range 8).filterMap (one 1)
  | _ => []

/-- The Ethernet ports of octet `k`, 6..9. -/
def State.ethOf (s : State) (k : Nat) : List (Nat × Nat) := ethPorts k (s.fld .DEV_OCT_PROTO_ETH_MODE k) (s.fld .DEV_OCT_PROTO_ETH_EN k)

/-- The lanes of root port `j` (R248). -/
def State.rpWidth (s : State) (j : Nat) : Nat :=
  codedWidth (s.fld (if j % 2 = 0 then .DEV_OCT_PROTO_RPA_W else .DEV_OCT_PROTO_RPB_W) (2 + j / 2))

/-- The binding of lane `l` (R248): 1 endpoint, 2 root port, 3 Ethernet, 4 ring, 0 the Plynik link. -/
def State.bindOf (s : State) (l : Nat) : Nat :=
  if l < 16 then b2n (decide (l < codedWidth s.ports.width))
  else if l < 48 then 2 * b2n (decide ((l - 16) % 4 < s.rpWidth ((l - 16) / 4)))
  else if l < 80 then 3 * b2n ((s.ethOf (l / 8)).any fun e => decide (e.1 ≤ l) && decide (l < e.1 + e.2))
  else if 140 ≤ l then 4 else 0

/-- A standard protocol owns lane `l` (R239, R241, R261). -/
def State.standard (s : State) (l : Nat) : Bool := decide (1 ≤ s.bindOf l) && decide (s.bindOf l ≤ 3)

/-- A lane runs: its EN is 1, or a standard protocol's controller has it (R248, R261). -/
def State.laneOn (s : State) (l : Nat) : Bool := s.on .LANE_CTL_EN l || s.standard l

/-- The settings that software wrote of lane `l`. -/
def State.laneSet (s : State) (l : Nat) : LaneSet := Tbl.find LaneSet.reset s.ports.sets l

/-- Sets them. -/
def State.setLaneSet (s : State) (l : Nat) (x : LaneSet) : State := { s with ports := { s.ports with sets := Tbl.set LaneSet.reset s.ports.sets l x } }

/-- A pair of taps breaks a limit of R241. -/
def badTaps (pre post : Nat) : Bool := decide (16 < pre) || decide (32 < post) || decide (40 < pre + post)

/-- LANE_TXEQ shows these taps; MAIN always completes them to full swing (R241). -/
def State.showTaps (s : State) (l pre post : Nat) : State :=
  ((s.put .LANE_TXEQ_PRE l pre).put .LANE_TXEQ_POST l post).put .LANE_TXEQ_MAIN l (64 - pre - post)

/-- A protocol's training moves the taps of lane `l`, which it does with MODE 1 and within the limits (R241). -/
def State.moveTaps (s : State) (l : Nat) (t : Option Taps) : State :=
  match t with
  | some t => s.when (s.on .LANE_TXEQ_MODE l && !badTaps t.pre.toNat t.post.toNat) (·.showTaps l t.pre.toNat t.post.toNat)
  | none => s

/-- A standard protocol's controller brings its lanes to a rate (R239): it sets LANE_RATE, LANE_CUR shows the rate, and its training moves the taps. -/
def State.lanesTrain (s : State) (lanes : List Nat) (rate : Nat) (pam4 : Bool) (taps : List Taps) : State :=
  s.each lanes.zipIdx fun e s =>
    let s := ((s.put .LANE_RATE_RATE e.1 rate).put .LANE_RATE_PAM4 e.1 (b2n pam4)).put .LANE_CUR_CUR e.1 (rate + 2 ^ 19 * b2n pam4)
    s.moveTaps e.1 taps[e.2]?

/-- What the receiver of lane `l` uses in manual mode (R242): the CTLE setting and the DFE taps that software wrote. -/
def State.showManual (s : State) (l : Nat) : State :=
  let s := s.put .LANE_RXEQ_CTLE_RD l (s.fld .LANE_RXEQ_CTLE l)
  s.each [0, 1, 2] fun w s => s.put .LANE_DFE_TAPS (l * 3 + w) ((s.laneSet l).dfe.getD w 0)

/-- Lane `l` starts once its reset is over (R247 step 4): it runs, and PCIE_PERST_N does not hold it (R253). -/
def State.laneStarts (s : State) (l : Nat) : Bool := s.laneOn l && !(s.ports.held && s.bindOf l == 1)

/-- LANE_STAT.BIND shows the binding of the lanes of octet `k`; a lane that a standard protocol has starts, unless PCIE_PERST_N holds it (R247, R253). -/
def State.showBind (s : State) (k : Nat) : State :=
  s.each ((List.range 8).map (8 * k + ·)) fun l s =>
    (s.put .LANE_STAT_BIND l (s.bindOf l)).when (s.standard l) (·.put .LANE_STAT_RESETTING l (b2n (!s.laneStarts l)))

/-- Octet 1's PLL locks to octet 0's while the endpoint is bound at ×16 (R238). -/
def State.showFollow (s : State) : State :=
  s.put .DEV_OCT_STAT_FOLLOW 1 (b2n (s.ports.width == 5 && s.on .DEV_OCT_STAT_LOCK 0 && s.on .DEV_OCT_STAT_LOCK 1))

/-- EP_W and EP_GEN take effect (R249). -/
def State.takeEndpoint (s : State) : State :=
  let s := { s with ports := { s.ports with width := s.fld .DEV_OCT_PROTO_EP_W 0, gen := s.fld .DEV_OCT_PROTO_EP_GEN 0 } }
  ((s.showBind 0).showBind 1).showFollow

/-! ### Fire lines (R278, R279) -/

/-- The message of a fire line (R278). -/
def FireLine.bytes (f : FireLine) : List Byte := le 8 f.pm ++ le 4 f.length ++ le 1 f.flags ++ le 1 f.bits ++ le 2 f.row ++ f.data

/-- The header that is sent in place of a fire line (R279). -/
def FireLine.skip (f : FireLine) : FireLine := { f with length := 0, flags := 4, bits := 0, data := [] }

/-- The fire lines that lane `l` holds. -/
def State.firesOf (s : State) (l : Nat) : List FireLine := Tbl.find [] s.fires l

/-- The lane of a channel that is INHIBITED or ABORTING carries no fire line (R174, R181). -/
def State.laneMuted (s : State) (l : Nat) : Bool :=
  match s.chanOfLane l with
  | some c => (s.chan c).state == 3 || (s.chan c).state == 5
  | none => false

/-- The lane and the fire line that link `m` sends next. -/
def State.nextLine (s : State) (m : Nat) : Option (Nat × FireLine) :=
  (s.linkLanes m).findSome? fun l => if s.laneMuted l then none else (s.firesOf l).head?.map fun f => (l, f)

/-- The send deadline of a line of `n` bytes of drop data at postmark `pm` on link `m` has passed: the moment t* at which the axis reaches it, from the
values of R107, less LNK_LATENCY + PREP + D + GUARD; at velocity 0 none passes, and that of a postmark already behind has. Compared in ps. -/
def State.deadlinePassed (s : State) (m pm n : Nat) : Bool :=
  let a := pmAxis pm
  let rate := s.fld .LANE_CUR_CUR m % 2 ^ 19 * 240 * max 1 (widthOf (s.fld .LNK_STAT_MASK m))
  let need := s.fld .LNK_LATENCY_L m + 1000 * (s.fld .LNK_PARTNER_PREP_PREP m + s.fld .LNK_FIRE_GUARD m)
  let send := (16 + n) * 8 * 1024 * 256 * 1000
  match s.reachAt a pm with
  | some t => rate != 0 && decide (t.1 * (125 * rate : Nat) ≤ (t.2 * (s.now * 125 * rate + 8 * (need * rate + send)) : Nat))
  | none => (s.ax a).vnum != 0 && rate != 0 && decide (s.ahead a pm ≤ 0)

/-- The underruns of lost fire lines (R182, R292). -/
def State.underruns (s : State) (lines : List (Nat × Nat × Nat)) : State :=
  s.each lines fun e s => match s.chanOfLane e.1 with
    | some c => s.underrun c false e.2.1
    | none => s

/-- Fire lines lost before they were sent are dropped events of their channels (R176). -/
def State.unsent (s : State) (lines : List (Nat × Nat × Nat)) : State :=
  s.each lines fun e s => match s.chanOfLane e.1 with
    | some c => s.dropEvents c [e.2.1]
    | none => s

/-- A SKIP takes the place of a line (R279), behind what is still to leave of a message on its virtual lane: a dropped event (R176) and an underrun,
counted. -/
def State.skipLine (s : State) (m l pm row : Nat) : State :=
  let sk : FireLine := ⟨pm, row, 0, 0, 4, []⟩
  let s := s.updLink m fun x => { x with queue := x.queue ++ flitsOf 0 sk.bytes none }
  let s := (s.bump .LNK_CNT_LINK_UNDERRUN m 1).linkErr m .LNK_ERR_UNDERRUN
  ((s.perf 5 (m / 8) 4 1 none).unsent [(l, pm, row)]).underruns [(l, pm, row)]

/-- A fire line starts to leave: its first flit goes at once, with which its event completes (R174), and the others are queued behind it; all of them leave,
whatever then becomes of its channel (DESIGN CHOICE, assumption 94). One whose send deadline has passed is replaced by SKIP (R279). -/
def State.startLine (s : State) (m l : Nat) (f : FireLine) : State :=
  let s := { s with fires := Tbl.set [] s.fires l (s.firesOf l).tail }
  if s.deadlinePassed m f.pm f.length then s.skipLine m l f.pm f.row
  else
    let s := match s.chanOfLane l with
      | some c => s.eventDone c false true f.pm
      | none => s
    let fs := flitsOf 0 f.bytes (some (l, f.pm, f.row))
    let s := s.updLink m fun x => { x with queue := x.queue ++ fs }
    match fs with
    | [] => s
    | g :: _ => s.sendFlit m g

/-- What link `m` may send leaves, in the order of R270: queued flits, and the fire lines it holds, of which one starts where its first flit is the next to go. -/
def State.pumpLinkN : Nat → State → Nat → State
  | 0, s, _ => s
  | n + 1, s, m =>
    let idle := !(s.link m).queue.any (·.vl == 0)
    match s.nextFlit m, (if idle && s.mayFlit m 0 then s.nextLine m else none) with
    | some f, none => (s.sendFlit m f).pumpLinkN n m
    | some f, some e => (if f.vl = 2 || 31 ≤ (s.link m).sinceBulk then s.sendFlit m f else s.startLine m e.1 e.2).pumpLinkN n m
    | none, some e => (s.startLine m e.1 e.2).pumpLinkN n m
    | none, none => s

/-- Everything that link `m` may send now leaves. -/
def State.pumpLink (s : State) (m : Nat) : State :=
  let lines := (s.linkLanes m).flatMap s.firesOf
  s.pumpLinkN ((s.link m).queue.length + lines.foldl (fun n f => n + 2 + (f.length + 75) / 60) 0) m

/-! ### What the fabric hands to a lane (R77, R272, R278) -/

/-- A whole fire line: PROOF and zeroed drop data for a PROOF channel, BIDIR for a REVERSE channel (R200, R201, R278). -/
def State.fireLine (s : State) (l : Nat) (b : List Byte) : FireLine :=
  let x := match s.chanOfLane l with
    | some c => s.chan c
    | none => Channel.blank
  let n := rd b 8 4
  let d := (b.drop 16).take n
  ⟨rd b 0 8, rd b 14 2, n, rd b 13 1, clearBit (clearBit (rd b 12 1) 0) 1 + b2n (x.has mProof) + 2 * b2n (x.has mReverse),
    if x.has mProof then d.map (fun _ => 0) else d⟩

/-- Two data tokens reach virtual lane `vl` of lane `l` (R77): a part of a message, which is queued once it is whole; on virtual lane 0
toward a partner with FIRE a part of a fire line, which the link holds once it is whole. What still comes of a lost line is discarded
(R279). Virtual lane 1 and the codes above 3 carry no message. -/
def State.laneUnit (s : State) (l vl data : Nat) : State :=
  let m := (s.linkOf l).getD l
  let gone := Tbl.find 0 s.laneSkip l
  let s := s.passInto (l / 8)
  if vl = 1 || 3 < vl then s
  else if vl = 0 && gone ≠ 0 then { s with laneSkip := Tbl.set 0 s.laneSkip l (gone - 1) }
  else
    let b := s.partialLine l vl ++ le 64 data
    let fire := vl == 0 && s.laneFire l
    let need := if fire then 16 + rd b 8 4 else Config.messageLength vl (b.take 64)
    if b.length < need then { s with laneTx := Tbl.set [] s.laneTx (l * 8 + vl) b }
    else
      let s := { s with laneTx := Tbl.set [] s.laneTx (l * 8 + vl) [] }
      let f := s.fireLine l b
      let s := if fire then { s with fires := Tbl.upd [] s.fires l (fun q => q ++ [f]) }
        else s.updLink m fun x => { x with queue := x.queue ++ flitsOf vl (b.take (max 1 need)) none }
      s.pumpLink m

/-! ### Replay (R276, R277) -/

/-- Sequence `a` is at or after sequence `b`, modulo 2^32. -/
def seqAtOrAfter (a b : Nat) : Bool := decide (0 ≤ signed 32 (a + 2 ^ 32 - b % 2 ^ 32))

/-- Everything below a sequence is acknowledged. -/
def State.acknowledge (s : State) (m next : Nat) : State :=
  s.updLink m fun x => { x with replay := x.replay.filter (fun e => seqAtOrAfter e.1 next) }

/-- The transmitter resends from a sequence, in order (R277). -/
def State.replayFrom (s : State) (m first : Nat) : State :=
  let es := (s.link m).replay.filter (fun e => seqAtOrAfter e.1 first)
  let s := s.each es fun e s => s.stripe m e.2.vl e.2.first (some e.1) e.2.body
  (s.bump .LNK_CNT_FLIT_REPLAY m es.length).perf 5 (m / 8) 2 es.length none

/-- The receiver misses a replayable flit: it sends NAK with the first missing sequence (R277). -/
def State.sendNak (s : State) (m : Nat) : State :=
  let x := s.link m
  if x.nak.isSome then s
  else (s.updLink m fun y => { y with nak := some (x.rxSeq, x.expSeq) }).sendExpress m 5 [x.rxSeq] |>.startTimer .nak m

/-! ### Lost traffic -/

/-- The fire lines of link `m` that have not begun to leave, as (lane, postmark, row): those held and those being handed over. -/
def State.linesHeld (s : State) (m : Nat) : List (Nat × Nat × Nat) :=
  let held := (s.linkLanes m).flatMap fun l => (s.firesOf l).map fun f => (l, f.pm, f.row)
  let part := (s.linkLanes m).filterMap fun l => (s.partLine l).map fun e => (l, e.1, e.2)
  held ++ part

/-- The fire lines of link `m` that are lost with its traffic: those that have not begun to leave, and those of which a flit is queued or not acknowledged
(R292). -/
def State.linesAtRisk (s : State) (m : Nat) : List (Nat × Nat × Nat) :=
  let x := s.link m
  (s.linesHeld m ++ (x.queue ++ x.replay.map (·.2)).filterMap (·.fire)).eraseDups

/-- The fire lines of lane `l` that a reset of its octet's crossing took (R95): dropped events, and underruns. -/
def State.lostLines (s : State) (l : Nat) (lost : Lost) : State :=
  let es := lost.lines.map fun p => (l, p.toNat, 0)
  (s.unsent es).underruns es

/-- The link's replay buffer, its queued outbound messages and its partial inbound ones are discarded, each flit counted (R292). -/
def State.loseTraffic (s : State) (m : Nat) : State :=
  let x := s.link m
  let lost := s.linesAtRisk m
  let s := s.unsent (s.linesHeld m)
  let held := ((s.linkLanes m).flatMap s.firesOf).foldl (fun n f => n + (f.length + 75) / 60) 0
  let parts := x.parts.foldl (fun n (e : Nat × Nat × List Byte) => n + e.2.1) 0
  let s := s.bump .LNK_CNT_FLIT_DROP m (x.replay.length + x.queue.length + held + parts)
  let s := s.each (s.linkLanes m) fun l s =>
    let s := s.dropPartial l
    let tx := Tbl.set [] (Tbl.set [] s.laneTx (l * 8 + 2) []) (l * 8 + 3) []
    { s with fires := Tbl.set [] s.fires l [], laneTx := tx }
  (s.updLink m fun y => { y with queue := [], replay := [], parts := [], beacon := [], nak := none, unacked := 0 }).underruns lost

/-! ### DORMANT and ACTIVE (R283, R292) -/

/-- The class L registers of a link return to reset (R293). -/
def State.clearLink (s : State) (m : Nat) : State :=
  let s := s.each [.LNK_STAT_LEADER, .LNK_STAT_MASK, .LNK_PARTNER_UID_UID, .LNK_PARTNER_CAP_CLASS, .LNK_PARTNER_CAP_FLAGS,
    .LNK_PARTNER_CAP_REVISION, .LNK_PARTNER_PREP_PREP, .LNK_LATENCY_L, .LNK_CABLE_LEN] fun f s => s.clr f m
  s.updLink m fun x => { Link.reset with held := x.held, expSeq := x.expSeq }

/-- Entry to DORMANT with a reason, but for the crossing queues (R283, R291, R292): the link's transmitters go to electrical idle. -/
def State.goDormant (s : State) (m reason : Nat) : State :=
  let s := s.each (s.linkLanes m) fun l s => s.emit (.laneIdle l)
  let was := s.fld .LNK_STAT_STATE m == 6 || s.fld .LNK_STAT_STATE m == 7
  let s := s.loseTraffic m
  let s := s.when was fun s => (s.put .LNK_ERR_DOWN m 1).bump .LNK_CNT_LINK_DOWN m 1
  let s := ((s.setLinkState m 0).put .LNK_STAT_REASON m reason).bump .LNK_STAT_ATTEMPT m 1
  let s := (s.put .LNK_STAT_MASK m 0).updLink m fun x => { x with
    width := none, change := none, again := none, timing := none, pairs := 0, falls := 0, aligning := false, failed := 0,
    common := 0, awaits := false, rounds := 0 }
  (s.when (reason == 0x0B) (·.clearLink m)).raiseOf (octetSource m) .LNK_STAT m

/-- What the crossing queues of the octet hold of the lanes of link `m` goes, as at a reset of those lanes (R292); `lost` by the lane's place in the octet. -/
def State.loseQueues (s : State) (m : Nat) (lost : List Lost) (p : Nat → Bool) : State :=
  s.each ((s.linkLanes m).filter p) fun l s =>
    let x := lost.getD (l % 8) ⟨0, [], []⟩
    (s.release (l / 8) 2 l x.entries x.targets).lostLines l x

/-- Entry to DORMANT with a reason; the crossing queues of the octet as at a reset of the link's lanes (R292). -/
def State.dormant (s : State) (m reason : Nat) (lost : List Lost) : State := (s.goDormant m reason).loseQueues m lost fun _ => true

/-- A training frame (R283): what it carries, and its CRC-32, which no rule places (DESIGN CHOICE, assumption 64: the last four bytes). -/
def trainingFrame (uid index present rate moment : Nat) : List Byte :=
  let b := List.ofFn (Config.trainingBody uid index present rate 0x0100 moment)
  b ++ le 4 (crc32 b)

/-- A training frame that came is whole and its CRC-32 holds. -/
def soundFrame (b : List Byte) : Bool := b.length == 64 && crc32 (b.take 60) == rd b 60 4

/-- Training frames leave on the lanes of link `m` that are present (R283). -/
def State.sendTraining (s : State) (m : Nat) : State :=
  s.when (s.sends m) fun s => s.each (maskLanes m (s.usable m)) fun l s =>
    s.emit (.training m l (s.fld .DEV_UID_UID 0) (l - m) (s.usable m) (s.regWord .LANE_RATE l) 0x0100 s.now
      (trainingFrame (s.fld .DEV_UID_UID 0) (l - m) (s.usable m) (s.regWord .LANE_RATE l) s.now))

/-- Entry to DETECT (R283): the lanes run at 1.25 Gbit/s NRZ. -/
def State.detect (s : State) (m : Nat) : State :=
  let s := (s.setLinkState m 1).updLink m fun x => { x with pairs := 0, falls := 0, common := 0 }
  (s.each (maskLanes m (s.usable m)) fun l s => s.put .LANE_CUR_CUR l 1280).sendTraining m

/-! ### Width and retrain (R285..R290) -/

/-- A write or request is refused (R264, R285, R293). -/
def State.linkRefuse (s : State) (m : Nat) : State := s.linkErrAlways m .LNK_ERR_CFG_REF

/-- The end withdraws its outstanding request (R290); a planned one is sent again later. -/
def State.yieldWidth (s : State) (m : Nat) : State :=
  match (s.link m).width with
  | none => s
  | some w =>
    (s.updLink m fun x => { x with width := none, again := if w.immediate then x.again else some w.mask }).linkErrAlways m .LNK_ERR_YIELD

/-- EQUALIZE begins on lanes of link `m` at a rate: a lane whose taps training moves begins with those that software wrote (R241). -/
def State.equalizeLanes (s : State) (m mask code : Nat) : State :=
  s.each (maskLanes m mask) fun l s =>
    let s := s.when (s.on .LANE_TXEQ_MODE l) (·.showTaps l (s.laneSet l).pre (s.laneSet l).post)
    (s.put .LANE_CUR_CUR l code).put .LANE_STAT_ADAPT_DONE l 0

/-- Entry to RETRAIN (R288..R290): every replayable flit is kept, requests for a width are withdrawn, and the lanes run EQUALIZE anew at the rate in use. Both ends
keep that rate (R283), so a leader has nothing to choose. -/
def State.retrain (s : State) (m : Nat) : State :=
  if s.fld .LNK_STAT_STATE m = 6 then
    ((s.yieldWidth m).setLinkState m 7 |>.equalizeLanes m (s.fld .LNK_STAT_MASK m) (s.fld .LANE_CUR_CUR m)).updLink m fun x => { x with
      change := none, aligning := false, beacon := [], timing := none, awaits := false }
  else s

/-- Sends a WIDTH_REQ, which is then outstanding. -/
def State.sendWidth (s : State) (m mask : Nat) (immediate : Bool) (missing : Nat) : State :=
  (s.updLink m fun x => { x with width := some ⟨mask, immediate, missing, x.expSeq, 0⟩ }).sendExpress m 0x0A
    [mask, b2n immediate, missing] |>.startTimer .width m

/-- A planned change of width is asked for (R285): refused below MIN_W; while one is outstanding or under way it is kept for later. -/
def State.askWidth (s : State) (m mask : Nat) : State :=
  let mask := mask &&& s.usable m
  if s.fld .LNK_STAT_STATE m ≠ 6 then s
  else if widthOf mask < s.minWidth m then s.linkRefuse m
  else if (s.link m).width.isSome || (s.link m).change.isSome then s.updLink m fun x => { x with again := some mask }
  else s.sendWidth m mask false 0

/-- A withdrawn request is sent again if it still applies (R290). -/
def State.askAgain (s : State) (m : Nat) : State :=
  match (s.link m).again with
  | none => s
  | some mask =>
    let s := s.updLink m fun x => { x with again := none }
    if mask = s.fld .LNK_STAT_MASK m then s else s.askWidth m mask

/-- Both ends stripe over a new mask (R285 step 5, R286); the lanes that leave it go to electrical idle. -/
def State.applyMask (s : State) (m mask : Nat) : State :=
  let left := s.fld .LNK_STAT_MASK m &&& (255 ^^^ mask)
  let s := s.each (maskLanes m left) fun l s => s.emit (.laneIdle l)
  ((s.updLink m fun x => { x with place := 0 }).put .LNK_STAT_MASK m mask).linkErrAlways m .LNK_ERR_WIDTH_CHG

/-- The switch marker is named by the end with the higher identifier (R285 step 4). -/
def State.nameMarker (s : State) (m mask : Nat) : State :=
  (s.updLink m fun x => { x with change := some (mask, true) }).when (s.on .LNK_STAT_LEADER m) (·.emit (.switchMarker m mask))

/-- A mask is agreed on (R285 steps 3 and 4): added lanes run EQUALIZE and ALIGN first, at the rate in use. -/
def State.agreeWidth (s : State) (m mask : Nat) : State :=
  if mask ||| s.fld .LNK_STAT_MASK m = s.fld .LNK_STAT_MASK m then s.nameMarker m mask
  else
    let new := mask &&& (255 ^^^ s.fld .LNK_STAT_MASK m)
    ((s.equalizeLanes m new (s.fld .LANE_CUR_CUR m)).updLink m fun x => { x with change := some (mask, false) }).startTimer .added m

/-- An immediate change (R286): a RESTRIPE marker goes out over the new mask, or below MIN_W the link retrains. Where two requests met, only the marker of the end
with the higher identifier goes, and the other end awaits it (R290). -/
def State.restripe (s : State) (m mask : Nat) (met : Bool) : State :=
  if widthOf mask < s.minWidth m then s.retrain m
  else
    let s := (s.updLink m fun x => { x with change := none }).applyMask m mask
    if met && !s.on .LNK_STAT_LEADER m then s.updLink m fun x => { x with awaits := true }
    else s.sendMarker m mask true

/-- A lane of the mask fails in ACTIVE (R286): the end that sees it asks for the mask without it at once. -/
def State.laneFails (s : State) (m lanes : Nat) : State :=
  let old := s.fld .LNK_STAT_MASK m
  let gone := old &&& lanes
  if s.fld .LNK_STAT_STATE m ≠ 6 || gone = 0 then s
  else
    let mask := old ^^^ gone
    let s := s.updLink m fun x => { x with failed := x.failed ||| gone }
    if widthOf mask < s.minWidth m then s.retrain m
    else ((s.yieldWidth m).sendWidth m mask true (s.link m).rxSeq).restripe m mask false

/-- A mask that the partner names in the order of its own lanes, in that of this end's (R265). -/
def Link.ownMask (x : Link) (mask : Nat) : Nat :=
  (List.range 8).foldl (fun v i => if bitOf mask (x.order.getD i i) then orBit v i else v) 0

/-- The slots that link `m` holds leave in the order raised, and then what is queued, as far as the link may send (R275). -/
def State.sendHeld (s : State) (m : Nat) : State :=
  if s.fld .LNK_STAT_STATE m ≠ 6 then s
  else
    let held := (s.link m).held
    (((s.updLink m fun x => { x with held := [] }).each held fun e s => s.linkExpress m e.1 e.2)).pumpLink m

/-- Entry to ACTIVE (R275, R283): held slots leave first, in the order raised; then what is resent (`replay`); then a request that waits; then traffic. -/
def State.linkUp (s : State) (m : Nat) (replay : State → State) : State :=
  let held := (s.link m).held
  let s := ((s.setLinkState m 6).startTimer .frame m).updLink m fun x => { x with held := [], fresh := false }
  let s := replay (s.each held fun e s => s.sendExpress m e.1 e.2)
  ((s.raiseOf (octetSource m) .LNK_STAT m).askAgain m).pumpLink m

end Sys2Proof.Machine
end

