-- ==== Sys2Proof/Machine/Agents.lean ====
section
/-! DEFINITION. The caching agents (R76..R78, R298, R304, R307, R308): operations of the ports, snoops, grants and writebacks. -/

namespace Sys2Proof.Machine

/-! ### Ordering within a port (R307, R308) -/

/-- An operation that is ordered as a write. -/
def AgentOp.writes : AgentOp → Bool
  | .write | .writeNa | .flush => true
  | _ => false

/-- A request may take effect: no earlier one of its port that is not done touches its line, is of its own order (reads,
writes), or is a FENCE. -/
def mayServe (earlier : List PortReq) (r : PortReq) : Bool :=
  earlier.all fun e => e.done.isSome || !(e.op = .fence || (e.line == r.line && e.op ≠ .stream && r.op ≠ .stream) ||
    (e.op.reads && r.op.reads) || (e.op.writes && r.op.writes) || (e.op = .stream && r.op = .stream))

/-! ### Destinations of STREAM (R77, R164) -/

/-- The channel that holds a port of an agent. -/
def State.chanOfPort (s : State) (a p : Nat) : Option Nat :=
  s.chanList.find? (fun c => ((s.chan c).ofKind 5).any (fun b => b.low 4 == p && b.word / 16 % 16 == a))

/-- The destination that a STREAM's word names (R77): a sorter, or a virtual lane of a lane. The spec gives the word no layout; it is read as the
resource word of R163, with the virtual lane in bits [10:8] of a lane's (DESIGN CHOICE, assumption 90). None: the word names nothing. -/
inductive Dest where
  | sorter (n : Nat)
  | lane (l vl : Nat)
  | nothing
  deriving DecidableEq, Repr

/-- Reads a destination word. -/
def destOf (w : Nat) : Dest :=
  if w / 2 ^ 28 = 2 && decide (w % 2 ^ 28 < 64) then .sorter (w % 64)
  else if w / 2 ^ 28 = 4 && decide (w % 2 ^ 8 < 144) && decide (w % 2 ^ 28 < 2 ^ 11) then .lane (w % 2 ^ 8) (w / 2 ^ 8 % 8)
  else .nothing

/-- A destination is bound to a port (R78). -/
def State.destBound (s : State) (a p : Nat) (d : Dest) : Bool :=
  match s.chanOfPort a p with
  | none => false
  | some c => match d with
    | .sorter n => (s.chan c).sorters.contains n
    | .lane l _ => (s.chan c).lanes.contains l
    | .nothing => false

/-- The place of a destination, as a request holds it. -/
def destCode : Dest → Nat
  | .sorter n => n
  | .lane l vl => 64 + l * 8 + vl
  | .nothing => 0

/-- The four entries of two data tokens, the last with its port's tag (R131). -/
def streamEntries (data tag : Nat) : List Nat :=
  [data % 2 ^ 128, data / 2 ^ 128 % 2 ^ 128, data / 2 ^ 256 % 2 ^ 128, data / 2 ^ 384 % 2 ^ 128 + tag * 2 ^ 128]

/-! ### Serving a port's requests (R304) -/

/-- A message of agent `a` for a line is on its way: further requests for the line wait in the agent. -/
def State.inFlight (s : State) (a l : Nat) : Bool :=
  (List.range 16).any fun p => (s.portReqs a p).any fun r => r.sent && r.done.isNone && r.line == l && r.op ≠ .stream

/-- A line is given up by agent `a` (R298): M is written back, E announced, S dropped. -/
def State.evictLine (s : State) (a l : Nat) : State :=
  let x := s.cached a l
  if x.wb then s
  else match x.st with
    | 3 => ((s.setCached a l { x with wb := true }).post .wbDirty a l x.data 0).perf 2 a 3 1 (some ⟨a, 0, l⟩)
    | 2 => (s.setCached a l { x with wb := true }).post .evictClean a l 0 0
    | _ => s.setCached a l CLine.invalid

/-- The product whose data lies at line `l` of stacked memory (R195, R198, R387): in its spool slot, its product map entry, its camera lines or its nozzle-health
map; of any other line of the channel's, the product whose span the axis stands in (DESIGN CHOICE, assumption 94). -/
def State.productAt (s : State) (x : Channel) (l : Nat) : Option Product :=
  let inside := fun (a n : Nat) => decide (a ≤ l) && decide (l < a + n)
  let live := x.products.filter (!·.settled)
  let spooled := match x.spool with
    | some sp =>
      if inside sp.spoolBase (sp.slots * sp.slotLines) then
        live.find? fun p => (p.job.map fun j => j % max 1 sp.slots == (l - sp.spoolBase) / max 1 sp.slotLines).getD false
      else if inside sp.mapBase 512 then live.find? fun p => (p.index % 4096).toNat / 8 == l - sp.mapBase
      else none
    | none => none
  spooled <|> live.find? (fun p => inside p.lineFirst p.stored) <|> live.find? (fun p => p.mapGen != 0 && inside p.mapLine (x.health.linesOf p.mapGen)) <|>
    x.productOf (s.axisPm x.axis)

/-- A status that a port returns for line `l` acts on the channel that holds it: poison inhibits it with MEMORY, for the line's stack (R181); an integrity
failure marks the product whose data it is and inhibits a SEALED one with INTEGRITY (R207). -/
def State.portStatus (s : State) (a p stack l status : Nat) : State :=
  match s.chanOfPort a p with
  | none => s
  | some c =>
    if status = 15 then
      let d := 18 + stack
      (s.updChan c fun x => { x with poisoned := if x.poisoned.contains d then x.poisoned else x.poisoned ++ [d] }).inhibit c 6
    else if status = 2 && (s.chan c).has mSealed then
      let s := match s.productAt (s.chan c) l with
        | some q => s.markProduct c q.index
        | none => s
      s.inhibit c 0xD
    else s

/-- What becomes of one request when it may take effect: the state and the request, done, sent or still waiting. -/
def State.tryReq (s : State) (a : Nat) (r : PortReq) : State × PortReq :=
  let x := s.cached a r.line
  let busy := x.wb || s.inFlight a r.line
  let hit := decide (1 ≤ x.st) && !x.wb
  let own := decide (2 ≤ x.st) && !x.wb
  let ok := fun (s : State) (d : Nat) => (s, { r with done := some (0, d) })
  let send := fun (s : State) (k : MsgKind) (d aux : Nat) => (s.post k a r.line d aux, { r with sent := true })
  let miss := fun (s : State) => s.perf 2 a 2 1 (some ⟨a, 0, r.line⟩)
  let hits := fun (s : State) => s.perf 2 a 1 1 none
  match r.op with
  | .read => if hit then ok (hits s) x.data else if busy then (s, r) else send (miss s) .rdShared 0 0
  | .readOwn => if own then ok (hits s) x.data else if busy then (s, r) else send (miss s) .rdOwn 0 (b2n (x.st == 1))
  | .write =>
    if own then ok (s.setCached a r.line ⟨3, mergeLine x.data r.data r.mask 64 0, false⟩) 0
    else if busy then (s, r) else send s .rdOwn 0 (b2n (x.st == 1))
  | .writeNa =>
    if own then ok (s.setCached a r.line ⟨3, mergeLine x.data r.data r.mask 64 0, false⟩) 0
    else if busy then (s, r) else send (s.setCached a r.line CLine.invalid) .wrPtl r.data r.mask
  | .readNa => if hit then ok (hits s) x.data else if busy then (s, r) else send (miss s) .rdCur 0 0
  | .flush =>
    if x.wb then (s, r) else if busy then (s, r)
    else if 2 ≤ x.st then (s.evictLine a r.line, { r with sent := true }) else ok (s.evictLine a r.line) 0
  | .reserved => (s, { r with done := some (1, 0) })
  | .fence => (s, r)
  | .stream => (s, r)

/-- A STREAM takes its place at its destination, or is refused (R77, R78). -/
def State.tryStream (s : State) (a p : Nat) (r : PortReq) : State :=
  let d := r.line
  if d < 64 then (s.setSrt d { s.srt d with streams := (s.srt d).streams ++ streamEntries r.data (a * 16 + p + 1) }).srtSpace d
  else s.laneUnit ((d - 64) / 8) ((d - 64) % 8) r.data

/-- Replaces the request at place `i` of a port. -/
def State.setReq (s : State) (a p i : Nat) (r : PortReq) : State := s.setPort a p ((s.portReqs a p).set i r)

/-- A STREAM to a lane that is in the crossing queue of the lane's octet, which has stopped (R92, R97). -/
def PortReq.inOctet (r : PortReq) : Bool := decide (r.op = .stream) && decide (64 ≤ r.line) && r.sent && r.done.isNone

/-- A STREAM to a lane of an octet that does not run enters the octet's crossing queue while that has space, or waits in the interconnect, as it does where the
octet is held (R93, R97). -/
def State.queueStream (s : State) (a p i : Nat) (r : PortReq) : State :=
  let k := (r.line - 64) / 64
  if s.isHeld k || s.runs k || (s.crossing k).into.full then s
  else (s.setReq a p i { r with sent := true }).setCrossing k { s.crossing k with into := (s.crossing k).into.push }

/-- Serves the request at place `i` of a port if it may take effect. -/
def State.serveReq (s : State) (a p i : Nat) : State :=
  let q := s.portReqs a p
  match q[i]? with
  | none => s
  | some r =>
    let s := s.when (r.inOctet && !s.domainWaits (some ((r.line - 64) / 64))) fun s =>
      s.setCrossing ((r.line - 64) / 64) { s.crossing ((r.line - 64) / 64) with into := (s.crossing ((r.line - 64) / 64)).into.takeBack }
    let sent := r.sent && !(r.inOctet && !s.domainWaits (some ((r.line - 64) / 64)))
    if sent || r.done.isSome || !mayServe (q.take i) r then s
    else if r.op = .fence then
      if (q.take i).all (·.done.isSome) then s.setReq a p i { r with done := some (0, 0) } else s
    else if r.op = .stream then
      if 64 ≤ r.line && s.domainWaits (some ((r.line - 64) / 64)) then s.queueStream a p i r
      else if r.line < 64 then (s.setReq a p i { r with sent := true }).tryStream a p r
      else (s.tryStream a p r).setReq a p i { r with done := some (0, 0) }
    else
      let t := s.tryReq a r
      t.1.setReq a p i t.2

/-- Serves what may be served of one port, in issue order, and sends the replies that are due. -/
def State.servePort (s : State) (a p : Nat) : State :=
  let s := s.each (List.range (s.portReqs a p).length) fun i s => s.serveReq a p i
  s.releaseReplies a p (s.portReqs a p)

/-- Serves the ports of agent `a`, lowest first. -/
def State.serveAgent (s : State) (a : Nat) : State :=
  s.each ((List.range 16).filter (fun p => !(s.portReqs a p).isEmpty)) fun p s => s.servePort a p

/-- A port takes a request from its region (R76). A region that is not WOKEN sends none: of a request that carries data the port has received only a part
(R444). -/
def State.takeReq (s : State) (a p : Nat) (r : PortReq) : State :=
  if !s.woken (agentRegion a) then s.when (r.op == .write || r.op == .writeNa || r.op == .stream) (·.partBundle (agentRegion a))
  else
    let s := s.perf 2 a 0 1 (some ⟨a, 0, r.line⟩)
    (s.setPort a p (s.portReqs a p ++ [r])).serveAgent a

/-- The operation that a header's tag carries (R77). -/
def opOf (tag : Nat) : AgentOp :=
  match tag with
  | 0 => .read
  | 1 => .readOwn
  | 2 => .write
  | 3 => .writeNa
  | 4 => .readNa
  | 5 => .flush
  | 6 => .stream
  | 7 => .fence
  | _ => .reserved

/-- A port takes a request bundle (R76, R77): its header, and two data tokens, low half first, where the operation has them. A STREAM whose destination is
not bound to the port is refused as a reserved operation is (R78). -/
def State.agentRequest (s : State) (a p : Nat) (header : WordToken) (low high : HalfLine) : State :=
  let w := header.data
  let data := low.data + high.data * 2 ^ 256
  match opOf header.tag with
  | .stream =>
    let d := destOf w
    s.takeReq a p ⟨if s.destBound a p d then .stream else .reserved, destCode d, w, data, 0, false, none⟩
  | .fence => s.takeReq a p ⟨.fence, 0, w, 0, 0, false, none⟩
  | .reserved => s.takeReq a p ⟨.reserved, 0, w, 0, 0, false, none⟩
  | op =>
    if op = .write || op = .writeNa then s.takeReq a p ⟨op, w, w, data, low.mask + high.mask * 2 ^ 32, false, none⟩
    else s.takeReq a p ⟨op, w, w, 0, 0, false, none⟩

/-- A bundle of a header alone: tokens that no operation reads. -/
def noHalf : HalfLine := ⟨0, 0, 0, 0, 0, 0, 0, 0⟩

/-- READ (R304): the header says so, as it does of every operation (R77). -/
def execAgentRead (a p : Fin 16) (header : WordToken) (s : State) : Host.Outcome State Fault Refusal :=
  .next (s.agentRequest a p header noHalf noHalf)

/-- READ_OWN (R304). -/
def execAgentReadOwn (a p : Fin 16) (header : WordToken) (s : State) : Host.Outcome State Fault Refusal :=
  .next (s.agentRequest a p header noHalf noHalf)

/-- WRITE (R304): both data tokens and their mask are applied together. -/
def execAgentWrite (a p : Fin 16) (header : WordToken) (low high : HalfLine) (s : State) : Host.Outcome State Fault Refusal :=
  .next (s.agentRequest a p header low high)

/-- WRITE_NA (R304). -/
def execAgentWriteNa (a p : Fin 16) (header : WordToken) (low high : HalfLine) (s : State) : Host.Outcome State Fault Refusal :=
  .next (s.agentRequest a p header low high)

/-- READ_NA (R304). -/
def execAgentReadNa (a p : Fin 16) (header : WordToken) (s : State) : Host.Outcome State Fault Refusal :=
  .next (s.agentRequest a p header noHalf noHalf)

/-- FLUSH (R304). -/
def execAgentFlush (a p : Fin 16) (header : WordToken) (s : State) : Host.Outcome State Fault Refusal :=
  .next (s.agentRequest a p header noHalf noHalf)

/-- STREAM (R77): refused with status 0x1 where the destination is not bound to the port (R78). -/
def execAgentStream (a p : Fin 16) (header : WordToken) (low high : HalfLine) (s : State) : Host.Outcome State Fault Refusal :=
  .next (s.agentRequest a p header low high)

/-- FENCE (R308). -/
def execAgentFence (a p : Fin 16) (header : WordToken) (s : State) : Host.Outcome State Fault Refusal :=
  .next (s.agentRequest a p header noHalf noHalf)

/-- A reserved or poison operation is refused with status 0x1 (R77, R78). -/
def execAgentReservedOp (a p : Fin 16) (header : WordToken) (s : State) : Host.Outcome State Fault Refusal :=
  .next (s.agentRequest a p header noHalf noHalf)

/-! ### Snoops (R302, R305) -/

/-- What a Postroom core has written into a line it holds in E or M since it received it: the block sees it when the line
is snooped. -/
def State.coreWrote (s : State) (a l : Nat) (wrote : Option (BitVec 512)) : State :=
  match wrote with
  | some v => if 16 ≤ a && 2 ≤ (s.cached a l).st && !(s.cached a l).wb then s.setCached a l ⟨3, v.toNat, false⟩ else s
  | none => s

/-- A message of the home of line `l` comes through to its receiver: the crossing is not resynchronising (R93), and the island of a Postroom core runs (R97). -/
def State.comesThrough (s : State) (l who : Nat) : Bool :=
  !s.isHeld (18 + lineStack l) && !(decide (16 ≤ who) && decide (who < 20) && s.domainWaits (some 22))

/-- The message of a kind that reaches a receiver. -/
def State.comeMsg (s : State) (kind : MsgKind) (who l : Nat) : Option Msg := if s.comesThrough l who then s.msg kind who l else none

/-- A snoop reaches agent `a`: the answer by the state of its line, and what it keeps. A line whose WB_DIRTY is not yet
acknowledged answers RSP_WB_PENDING. -/
def State.snooped (s : State) (kind : MsgKind) (a l : Nat) (wrote : Option (BitVec 512)) (keep : Nat → Nat) : State :=
  match s.comeMsg kind a l with
  | none => s
  | some m =>
    let s := (s.unpost m).coreWrote a l wrote
    let x := s.cached a l
    let cut := fun (s : State) => let st := keep x.st; s.setCached a l (if st = 0 then CLine.invalid else { x with st := st })
    if x.wb && x.st = 3 then s.post .rspWb a l 0 0
    else if x.wb || x.st = 0 then s.post .rspI a l 0 0
    else if x.st = 3 then (cut s).post .rspData a l x.data 0
    else (cut s).post (if keep x.st = 0 then .rspI else .rspS) a l 0 0

/-- SNP_INV reaches an agent (R302): the line is given up, with its data if M. -/
def execAgentSnpInv (l : BitVec 32) (a : Fin 20) (wrote : Option (BitVec 512)) (s : State) : Host.Outcome State Fault Refusal :=
  .next (s.snooped .snpInv a l.toNat wrote (fun _ => 0))

/-- SNP_SHARE reaches an agent (R302): E or M becomes S, with the data if M. -/
def execAgentSnpShare (l : BitVec 32) (a : Fin 20) (wrote : Option (BitVec 512)) (s : State) : Host.Outcome State Fault Refusal :=
  .next (s.snooped .snpShare a l.toNat wrote (fun _ => 1))

/-- SNP_CUR reaches an agent (R302): the data is sent if M, and the state kept. -/
def execAgentSnpCur (l : BitVec 32) (a : Fin 20) (wrote : Option (BitVec 512)) (s : State) : Host.Outcome State Fault Refusal :=
  .next (s.snooped .snpCur a l.toNat wrote (fun st => st))

/-! ### Grants and completions -/

/-- The requests of agent `a` for a line that were on their way end with a status and data, or where `again` holds are
served afresh from the cache. -/
def State.landed (s : State) (a l : Nat) (ops : AgentOp → Bool) (again : Bool) (status data : Nat) : State :=
  if 16 ≤ a then s
  else
    let hitReq := fun (r : PortReq) => r.sent && r.done.isNone && r.line == l && ops r.op
    let s := s.each (List.range 16) fun p s =>
      let q := s.portReqs a p
      let s := if status != 0 && q.any hitReq then s.portStatus a p (lineStack l) l status else s
      s.setPort a p (q.map fun r => if hitReq r then
        (if again then { r with sent := false } else { r with done := some (status, data) }) else r)
    s.serveAgent a

/-- The lines that contend with line `l` for a place in the cache of agent `a`, and the places (R298): its set of 16 ways, the set being line bits [10:0], or
for a Postroom core the 65,536 lines of the shared L2; a line that only waits for WB_ACK holds none. The rules give no set index and no order of replacement: the
index is the model's, the victim the command's, or a free value where that names no line of the set (DESIGN CHOICE, assumption 102). -/
def State.contenders (s : State) (a l : Nat) : List Nat × Nat :=
  let kept := fun (b k : Nat) => k != l && !(s.cached b k).wb
  if a < 16 then ((s.linesOf a).filter fun k => k % 2 ^ 11 == l % 2 ^ 11 && kept a k, 16)
  else ((([16, 17, 18, 19] : List Nat).flatMap fun b => (s.linesOf b).filter (kept b)).eraseDups, 2 ^ 16)

/-- Agent `a`, or the cores through the L2, which includes what they hold, give up a line. -/
def State.evictFrom (s : State) (a l : Nat) : State :=
  if a < 16 then s.evictLine a l else s.each [16, 17, 18, 19] fun b s => if (s.cached b l).st = 0 then s else s.evictLine b l

/-- Makes room in the cache of agent `a` for line `l`: the victim that its set gives up. -/
def State.makeRoom (s : State) (a l : Nat) (victim : Option (BitVec 32)) : State :=
  let c := s.contenders a l
  match victim with
  | some v => if v.toNat = l then s else if c.1.contains v.toNat || c.1.length < c.2 then s.evictFrom a v.toNat else s.drew.evictFrom a (c.1.getD (s.draw % c.1.length) l)
  | none => if c.1.length < c.2 then s else s.drew.evictFrom a (c.1.getD (s.draw % c.1.length) l)

/-- A line is granted to agent `a`: held in `st`, CMP_ACK sent, a line evicted for it given up, and the port served. -/
def State.install (s : State) (a l st data : Nat) (victim : Option (BitVec 32)) : State :=
  let s := ((s.setCached a l ⟨st, data, false⟩).post .cmpAck a l 0 0).makeRoom a l victim
  s.landed a l (fun op => op = .read || op = .readOwn || op = .write) true 0 0

/-- A grant with a failing status: nothing is held, and the requests that asked end with it (R310). -/
def State.failed (s : State) (a l status : Nat) : State :=
  s.landed a l (fun op => op = .read || op = .readOwn || op = .write) false status 0

/-- DATA_S reaches an agent (R302): the line is held in S; `victim` is the line its set gives up for it. -/
def execAgentDataS (l : BitVec 32) (a : Fin 20) (victim : Option (BitVec 32)) (s : State) : Host.Outcome State Fault Refusal :=
  .next <|
  match s.comeMsg .dataS a l.toNat with
  | none => s
  | some m => if m.aux = 0 then (s.unpost m).install a l.toNat 1 m.data victim else (s.unpost m).failed a l.toNat m.aux

/-- DATA_E reaches an agent (R302): the line is held in E, and CMP_ACK is sent. Data that an owner passed on without a memory write is held in M, since the agent
alone has it (DEDUCED from R303 and R306, assumption 102). -/
def execAgentDataE (l : BitVec 32) (a : Fin 20) (victim : Option (BitVec 32)) (s : State) : Host.Outcome State Fault Refusal :=
  .next <|
  match s.comeMsg .dataE a l.toNat with
  | none => s
  | some m =>
    if m.aux = 0 || m.aux = dirtyGrant then (s.unpost m).install a l.toNat (if m.aux = 0 then 2 else 3) m.data victim
    else (s.unpost m).failed a l.toNat m.aux

/-- An RD_OWN from S is on its way from agent `a` for a line: CMP grants it. -/
def State.awaitsOwn (s : State) (a l : Nat) : Bool :=
  (s.cached a l).st == 1 && (match (s.dirAt l).txn with
    | some x => x.granted && (s.dirAt l).st == 2 && (s.dirAt l).owner == a
    | none => false)

/-- CMP reaches a requester (R302): ownership granted without data to an agent that holds the line in S, or the end of a
RD_CUR, with its data, or WR_PTL. -/
def execAgentCmp (l : BitVec 32) (who : Fin 39) (s : State) : Host.Outcome State Fault Refusal :=
  .next <|
  let l := l.toNat
  match s.comeMsg .cmp who l with
  | none => s
  | some m =>
    let t := s.unpost m
    if who.val < 20 && s.awaitsOwn who l then t.install who l 2 (s.cached who l).data none
    else t.landed who l (fun op => op = .readNa || op = .writeNa) false m.aux m.data

/-- WB_ACK reaches an agent (R298): it drops the line it wrote back, a FLUSH of it is done, and requests that waited for it
go on. -/
def execAgentWbAck (l : BitVec 32) (a : Fin 20) (s : State) : Host.Outcome State Fault Refusal :=
  .next <|
  let l := l.toNat
  match s.comeMsg .wbAck a l with
  | none => s
  | some m =>
    let s := s.unpost m
    let s := if (s.cached a l).wb then s.setCached a l CLine.invalid else s
    s.landed a l (fun op => op = .flush) false 0 0

/-! ### Resets of a stack's domain (R95, R96, R313) -/

/-- A message that Step 2 of R93 discards with the queues of stack `k`: those sent while its domain was held wait in the interconnect and stay. -/
def Msg.goesWith (m : Msg) (k : Nat) : Bool := lineStack m.line == k && !m.held

/-- A request of a port of agent `a` to a line of stack `k` that the reset cuts off: it is not done, and its message does not wait in the interconnect. -/
def State.cutOff (s : State) (a k : Nat) (r : PortReq) : Bool :=
  r.sent && r.done.isNone && r.op ≠ .stream && lineStack r.line == k &&
    !s.memo.wire.any fun m => m.held && m.kind.toHome && m.who == a && m.line == r.line

/-- The requests that `p` picks of the fabric cache agents end with poison of a stack, with a poison word on each channel of the data tokens they would have
had, each counted (R94..R96). -/
def State.poisonPorts (s : State) (k cause : Nat) (p : Nat → PortReq → Bool) : State :=
  let w := poisonLine (poisonWord (18 + k) cause 0)
  let n := (s.memo.ports.map fun e => (e.2.filter (p (e.1 / 16))).length).foldl (· + ·) 0
  let s := s.each (List.range 256) fun i s =>
    let q := s.portReqs (i / 16) (i % 16)
    if q.any (p (i / 16)) then
      (s.setPort (i / 16) (i % 16) (q.map fun r => if p (i / 16) r then { r with done := some (15, w) } else r)).portStatus (i / 16) (i % 16) k 0 15
    else s
  s.countDrops (18 + k) 0 n

/-- The STREAMs that wait in the crossing queue of octet `k` end with a poison token as its entries are discarded (R95, R97). -/
def State.poisonStreams (s : State) (k cause : Nat) : State :=
  let mine := fun (r : PortReq) => r.inOctet && (r.line - 64) / 64 == k
  let w := poisonWord k cause 0
  let n := (s.memo.ports.map fun e => (e.2.filter mine).length).foldl (· + ·) 0
  let s := s.each (List.range 256) fun i s =>
    let q := s.portReqs (i / 16) (i % 16)
    s.when (q.any mine) (·.setPort (i / 16) (i % 16) (q.map fun r => if mine r then { r with done := some (15, w) } else r))
  (s.countDrops k n n).each (List.range 16) fun a s => s.serveAgent a

/-- The other requesters whose request, or its grant or data, is among the messages discarded (R95). -/
def lostRequesters (l : List Msg) : List PoisonTo :=
  l.filterMap fun m =>
    if h : m.who < 39 then
      if 16 ≤ m.who && (([.rdShared, .rdOwn, .rdCur, .wrPtl, .dataS, .dataE, .cmp] : List MsgKind).contains m.kind) then some (.requester ⟨m.who, h⟩) else none
    else none

/-- A message of a home that a reset of the clockless end discards: the home does without the answer, and the agent without the acknowledgement. -/
def State.msgLost (s : State) (m : Msg) : State :=
  match m.kind with
  | .snpInv | .snpShare | .snpCur | .rspI | .rspS | .rspData | .rspWb => s.answer m.line m.who none false
  | .dataS | .dataE | .cmp | .cmpAck =>
    let d := s.dirAt m.line
    if (d.txn.map (·.granted)).getD false then (s.setDir m.line { d with txn := none }).serveNext m.line else s
  | .wbDirty | .evictClean => s.setCached m.who m.line { s.cached m.who m.line with wb := false }
  | .wbAck => if (s.cached m.who m.line).wb then s.setCached m.who m.line CLine.invalid else s
  | _ => s

/-- Step 2 of R93 at the queues of stack `k`: the messages in them are lost and counted (R94), and the requests that wait on an answer are released with
poison (R95), every one that the home has accepted among them where the domain end is reset (step 1 of R313). An agent whose WB_DIRTY is lost keeps the line. -/
def State.resetHome (s : State) (k cause : Nat) : State :=
  let gone := s.memo.wire.filter (·.goesWith k)
  let accepted := fun (d : DirLine) => d.queue ++ (match d.txn with
    | some x => if x.granted then [] else x.req.toList
    | none => [])
  let rest := if cause = 1 then ((s.memo.dir.filter fun e => lineStack e.1 == k).flatMap fun e => (accepted e.2).filter fun r => decide (16 ≤ r.who.val)) else []
  let cut := fun (a : Nat) (r : PortReq) =>
    s.cutOff a k r && (cause == 1 || gone.any fun m => m.who == a && m.line == r.line)
  let s := s.poisonPorts k cause cut
  let s := s.release (18 + k) cause 0 (gone.filter (·.queued)).length (lostRequesters gone ++ rest.map fun r => .requester r.who)
  let s := s.setMem fun m => { m with wire := m.wire.filter (!·.goesWith k) }
  let s :=
    if cause = 1 then
      let s := s.setMem fun m => { m with dir := Tbl.keep (fun l => lineStack l != k) m.dir, resynced := Tbl.set [] m.resynced k [] }
      s.each (List.range 20) fun a s =>
        s.each ((s.linesOf a).filter (fun l => lineStack l == k)) fun l s => s.setCached a l { s.cached a l with wb := false }
    else s.each gone fun m s => s.msgLost m
  (s.showHome k).each (List.range 16) fun a s => s.serveAgent a

/-- Step 2 of R313: the stack leaves self-refresh and the home asks the agents to resynchronise. -/
def State.resyncHome (s : State) (k : Nat) : State :=
  (s.put .MEM_STK_STAT_SELF_REFRESH k 0).put .MEM_STK_STAT_RESYNC k 1

end Sys2Proof.Machine
end

