-- ==== Sys2Proof/Machine/Postroom.lean ====
section
/-! DEFINITION. The Postroom (chapter 14): doorbells and the taking of letters (R356, R357), reply rings (R358), signals
(R362), mailbox resets (R364), restarts (R365) and the hardware locks (R366..R368). -/

namespace Sys2Proof.Machine

/-! ### Taking letters -/

/-- The opcodes that name a service (R171, R224, R381..R402, R503, R508). -/
def serviceOpcodes : List Nat :=
  [0x0101, 0x0102, 0x0103, 0x0104, 0x0105, 0x0106, 0x0201, 0x0202, 0x0203, 0x0204, 0x0301, 0x0302, 0x0303, 0x0304,
   0x0305, 0x0401, 0x0402, 0x0403, 0x0404, 0x0405] ++
  [0x0501, 0x0502, 0x0503, 0x0504, 0x0505, 0x0506, 0x0507, 0x0508, 0x0509, 0x050A, 0x050B, 0x050C, 0x050D, 0x0522,
   0x0601, 0x0602, 0x0603] ++
  [0x0701, 0x0702, 0x0703, 0x0704, 0x0705, 0x0706, 0x0707, 0x0708, 0x0709, 0x070A, 0x070B, 0x0801, 0x0802, 0x0803] ++
  [0x0901, 0x0902, 0x0903, 0x0904, 0x0905, 0x0A01, 0x0A02, 0x0A03, 0x0A04, 0x0A05, 0x0B01, 0x0B02, 0x0B03,
   0x0C01, 0x0C02, 0x0C03, 0x0D01, 0x0D02, 0x0D03, 0x0D04] ++
  [0x0E01, 0x0E02, 0x0E03, 0x0F01, 0x0F02, 0x0F03, 0x1001, 0x1002, 0x1003, 0x1101, 0x1102, 0x1103, 0x1104, 0x1105,
   0x1106, 0x1107, 0x1108]

/-- The services that mailbox 0 accepts (R360): HOLD, ABORT, QUERY, RING.STOP and RING.RELEASE_STOP. -/
def urgentOpcodes : List Nat := [0x0506, 0x0509, 0x050A, 0x0D03, 0x0D04]

/-- The letter at HEAD of the request ring of mailbox `m`, with a body of `n` bytes (R355). -/
def State.letterAt (s : State) (m : Fin 64) (head n : Nat) : Letter :=
  let e := s.getRing m requestBase head 0 32
  ⟨m, BitVec.ofNat 16 (rd e 0 2), BitVec.ofNat 16 (rd e 2 2), BitVec.ofNat 32 (rd e 4 4), BitVec.ofNat 32 (rd e 8 4),
   BitVec.ofNat 64 (rd e 16 8), s.getRing m requestBase head 32 n, none⟩

/-- The checks of R356 on a letter after its length, with its reserved bytes; none when the service runs. -/
def letterCheck (L : Letter) (reserved : Nat) : Option Status :=
  if L.flags.toNat % 8 ≠ 0 || L.flags.toNat / 32 ≠ 0 || reserved ≠ 0 then some .BAD_PARAM
  else if !serviceOpcodes.contains L.opcode.toNat then some .BAD_PARAM
  else if L.mailbox = 0 && !urgentOpcodes.contains L.opcode.toNat then some .DENIED
  else none

/-- One letter at HEAD: discarded with every letter behind it on a framing error, answered on a failed check, or taken
(R356, R357). -/
def State.takeOne (s : State) (m : Fin 64) : State :=
  let head := s.fld .PST_MB_REQ_HEAD m
  let tail := s.fld .PST_MB_REQ_TAIL m
  let e := s.getRing m requestBase head 0 32
  let n := rd e 12 2
  if 4064 < n then
    let L := s.letterAt m head 0
    let s := s.setBox m { s.box m with taken := (s.box m).taken ++ [L] }
    let s := (s.put .PST_MB_REQ_HEAD m tail).reply L (plain L .BAD_PARAM)
    (s.put .PST_MB_STAT_MALFORMED m 1).raiseOf 206 .PST_MB_STAT m
  else
    let L := s.letterAt m head n
    let s := s.put .PST_MB_REQ_HEAD m ((head + letterUnits n) % 1016)
    let s := (s.setBox m { s.box m with taken := (s.box m).taken ++ [L] }).perf 7 0 0 1 none
    match letterCheck L (rd e 24 8) with
    | some st => s.reply L (plain L st)
    | none => s

/-- The firmware takes the letter at HEAD: it serves the mailbox, a whole letter lies between HEAD and TAIL (or one
whose length is out of range), and the reply ring has 256 free units (R349, R357, R358). -/
def State.mayTake (s : State) (m : Fin 64) : Bool :=
  let head := s.fld .PST_MB_REQ_HEAD m
  let avail := (s.fld .PST_MB_REQ_TAIL m + 1016 - head) % 1016
  let n := rd (s.getRing m requestBase head 0 32) 12 2
  s.served m && avail != 0 && decide (256 ≤ s.replyFree m) && (decide (4064 < n) || decide (letterUnits n ≤ avail))

/-- Letters taken in ring order while they may be (R357); a ring holds at most 1,015 letters. -/
def State.takeLetters : Nat → State → Fin 64 → State
  | 0, s, _ => s
  | k + 1, s, m => if s.mayTake m then State.takeLetters k (s.takeOne m) m else s

/-- The firmware takes what it may from mailbox `m`. -/
def State.take (s : State) (m : Fin 64) : State := State.takeLetters 1016 s m

/-- A doorbell write (R357): TAIL above 1,015 is ignored and sets MALFORMED; otherwise TAIL is set, and the doorbell is
acted on, or recorded while READY is 0 (R349). -/
def State.doorbell (s : State) (m : Fin 64) (tail : Nat) : State :=
  if 1015 < tail then (s.put .PST_MB_STAT_MALFORMED m 1).raiseOf 206 .PST_MB_STAT m
  else
    let s := s.put .PST_MB_REQ_TAIL m tail
    if s.served m then s.take m else s.setBox m { s.box m with rung := true }

/-- A write to PST_MB_DOORBELL[m] (R352, R357). -/
def execMailboxDoorbell (p : Port) (m : Fin 64) (value : Word) (s : State) : Host.Outcome State Fault Refusal :=
  .next (s.access p .PST_MB_DOORBELL m true value.toNat (·.doorbell m (value.toNat % 1024)))

/-- A write of the reply ring HEAD (R358, R370): a value above 1,015 is ignored and sets MALFORMED; otherwise the freed
units take what is held, and the firmware takes requests it held up. -/
def State.replyHead (s : State) (m : Fin 64) (head : Nat) : State :=
  if 1015 < head then (s.put .PST_MB_STAT_MALFORMED m 1).raiseOf 206 .PST_MB_STAT m
  else
    let s := (s.put .PST_MB_RPL_HEAD m head).pumpLate m
    if s.served m then s.take m else s

/-- A write to PST_MB_RPL[m] (R352, R358). -/
def execReplyHeadWrite (p : Port) (m : Fin 64) (value : Word) (s : State) : Host.Outcome State Fault Refusal :=
  .next (s.access p .PST_MB_RPL m true value.toNat (·.replyHead m (value.toNat % 1024)))

/-- The signal of mailbox `m` to a host function reaches the endpoint (R362). -/
def State.signalHost (s : State) (m : Nat) : State :=
  s.emit (.msix (s.fld .PST_MB_OWNER_OWNER m - 0x50) (s.fld .PST_MB_EVT_VECTOR m))

/-- HOLDOFF µs have passed since the last signal of mailbox `m` (R362). -/
def State.holdoffPassed (s : State) (m : Fin 64) : Bool :=
  match (s.box m).signalT with
  | none => true
  | some t => decide (t + 1000 * s.fld .PST_MB_EVT_HOLDOFF m ≤ s.fld .PERF_TB_TB 0)

/-- PENDING is set and HOLDOFF has passed: the owner is signalled (R362), a host function by a pulse into the endpoint's domain (R87). A region has at
most one token outstanding and none while it is not woken; a ring peer and the test access port get no signal. -/
def execMailboxSignal (m : Fin 64) (s : State) : Host.Outcome State Fault Refusal :=
  .next <|
  let owner := s.fld .PST_MB_OWNER_OWNER m
  let now := some (s.fld .PERF_TB_TB 0)
  if !s.on .PST_MB_EVT_PENDING m || !s.holdoffPassed m then s
  else if 0x50 ≤ owner && owner ≤ 0x53 then
    (s.setBox m { s.box m with signalT := now }).pulseVia 22 0 (.signal m) (·.signalHost m)
  else if 1 ≤ owner && owner ≤ 0x28 && s.woken (owner - 1) && !(s.box m).tokenOut then
    (s.setBox m { s.box m with tokenOut := true, signalT := now }).emit (.mailboxToken (owner - 1) m)
  else s

/-- A letter from a ring peer arrives on the control virtual lane of its ring (R352): the firmware places it in the
request ring of the mailbox the peer owns, and rings. It waits with the sender while the ring has no space. -/
def execRingPeerLetter (owner : BitVec 8) (m : Fin 64) (bytes : List Byte) (s : State) :
    Host.Outcome State Fault Refusal :=
  .next <|
  let tail := s.fld .PST_MB_REQ_TAIL m
  let space := (s.fld .PST_MB_REQ_HEAD m + 2 * 1016 - tail - 1) % 1016
  let units := (bytes.length + 31) / 32
  if isPeer owner.toNat && s.fld .PST_MB_OWNER_OWNER m == owner.toNat && decide (units ≤ space) then
    let padded := bytes ++ List.replicate (32 * units - bytes.length) 0
    (s.putRing m requestBase tail padded 0).doorbell m ((tail + units) % 1016)
  else s

/-! ### Resets of mailboxes and locks -/

/-- Frees every lock that an owner holds with its ABANDONED mark set; one raise of source 207 where any was (R368). -/
def State.abandonLocks (s : State) (owner : Nat) : State :=
  let held := (List.range 256).filter (fun i => s.fld .PST_LOCK_OWNER i == owner)
  let s := s.each held fun i s => (s.put .PST_LOCK_OWNER i 0).put .PST_LOCK_ABANDONED i 1
  s.when (!held.isEmpty) (·.raise 207)

/-- Resets mailbox `m` (R364): letters already taken are served with their replies discarded, what is held and owed is
discarded, both rings are zeroed, PST_MB_EVT returns to reset, EPOCH rises and source 205 is raised. Its event routes
clear (R534) and its volumes open for writing close without a clean commit (R394). -/
def State.resetBox (s : State) (m : Fin 64) : State :=
  let b := s.box m
  let s := s.setBox m { b with held := [], taken := [], late := [], answers := [], orphans := b.orphans ++ (b.answers.foldl (fun (t : List Letter) a => t.erase a.1) b.taken), rung := false }
  let routes := s.evt.routes.foldl (fun t e => Tbl.set 0 t e.1 (clearBit e.2 m.val)) []
  let s := { s with
    boxMem := Tbl.keep (fun k => k / 0x10000 != m.val) s.boxMem
    svc := { s.svc with ops := s.svc.ops.map (fun (o : PendingOp) => if o.letter.mailbox = m then { o with mute := true } else o) }
    evt := { s.evt with routes := routes } }
  let s := s.each [.PST_MB_REQ_HEAD, .PST_MB_REQ_TAIL, .PST_MB_RPL_HEAD, .PST_MB_RPL_TAIL, .PST_MB_STAT_WAIT,
    .PST_MB_EVT_VECTOR, .PST_MB_EVT_EN, .PST_MB_EVT_HOLDOFF, .PST_MB_EVT_PENDING] (fun f s => s.put f m 0)
  let s := (s.addMod .PST_MB_STAT_EPOCH m 1).abandonVolumes m
  (s.put .PST_MB_STAT_READY m (s.fld .PST_FW_STAT_READY 0)).raiseOf 205 .PST_MB_STAT m

/-- The mailboxes an owner has. -/
def State.boxesOf (s : State) (owner : Nat) : List (Fin 64) :=
  (List.finRange 64).filter (fun m => s.fld .PST_MB_OWNER_OWNER m == owner)

/-- An event of R364 for an owner: its mailboxes are reset and its locks are freed with their marks set (R368). -/
def State.resetOwner (s : State) (owner : Nat) : State :=
  (s.each (s.boxesOf owner) (fun m s => s.resetBox m)).abandonLocks owner

/-- A mailbox reset (R364): by an event of its owner, which also frees the owner's locks (R368), or by reassignment. -/
def execMailboxReset (m : Fin 64) (ownerEvent : Bool) (s : State) : Host.Outcome State Fault Refusal :=
  .next <|
  let owner := s.fld .PST_MB_OWNER_OWNER m
  (s.resetBox m).when (ownerEvent && owner != 0) (·.abandonLocks owner)

/-- The firmware starts serving: mailboxes become READY, and what waits in each is taken, its doorbell recorded or its letters held up by a full reply ring that has
space now, mailbox 0 first (R349, R358). -/
def State.serveRung (s : State) : State :=
  (s.each (List.finRange 64) fun m s => s.put .PST_MB_STAT_READY m 1).each (List.finRange 64) fun m s =>
    let s := s.pumpLate m
    ((s.when (s.box m).rung fun s => s.setBox m { s.box m with rung := false })).take m

/-- A service whose letter is answered BUSY at a restart has had no effect (R365): requests for leases and proposed tables that a letter asked for are given
up. -/
def State.forgetRequests (s : State) : State :=
  let s := s.setLease fun l => { l with reqs := l.reqs.filter (·.letter.isNone), queued := [] }
  s.each [0, 1] fun r s =>
    let x := s.ring r
    let s := s.setRing r { x with later := [] }
    s.when x.letter.isSome fun s => (s.setRing r { s.ring r with proposed := [], acks := [], letter := none }).ringSend r 9 []

/-- After an island reset of D22 the firmware answers every letter taken and not answered, with the outcome it recorded
or BUSY (R365): `outcomes` gives the recorded ones; then the locks of owner 0x40 are freed and READY is set. -/
def execPostroomRestart (outcomes : List (Letter × Reply)) (s : State) : Host.Outcome State Fault Refusal :=
  .next <|
  let answer := fun (L : Letter) => match outcomes.find? (fun e => e.1 = L) with
    | some e => e.2
    | none => plain L .BUSY
  if s.on .PST_FW_STAT_READY 0 || !s.on .PST_FW_STAT_CORES 0 || !s.config.tried.isEmpty then s
  else
    let s := (s.put .PST_FW_STAT_READY 0 1).forgetRequests
    let s := s.each (List.finRange 64) fun m s =>
      s.each ((s.box m).orphans ++ (s.box m).taken) fun L s => s.reply L (answer L)
    ((s.abandonLocks 0x40).serveRung).raise 204

/-! ### Locks -/

/-- An acquire (R366): the result and the new state. -/
def State.acquire (s : State) (who i : Nat) : State × Nat :=
  let owner := s.fld .PST_LOCK_OWNER i
  if owner = 0 then
    let s' := s.put .PST_LOCK_OWNER i who
    if s.on .PST_LOCK_ABANDONED i then (s'.put .PST_LOCK_ABANDONED i 0, 2) else (s', 1)
  else if owner = who then (s, 4) else (s, 3)

/-- A read of PST_LOCK_ACQ[i] (R366): RESULT and the holder after the read. -/
def execLockAcquire (p : Port) (i : Fin 256) (s : State) : Host.Outcome State Fault Refusal :=
  .next (s.access p .PST_LOCK_ACQ i false 0 fun s =>
    let r := s.acquire (portIdent p) i
    r.1.emit (.readValue p (r.2 + 256 * r.1.fld .PST_LOCK_OWNER i)))

/-- A release of a lock (R367): by its owner it frees the lock; by anyone else it changes nothing but PST_LOCK_ERR. -/
def State.unlock (s : State) (who i : Nat) : State :=
  if s.fld .PST_LOCK_OWNER i = who && who != 0 then s.put .PST_LOCK_OWNER i 0
  else
    let s := s.when (!s.on .PST_LOCK_ERR_NOT_OWNER 0) fun s =>
      (s.put .PST_LOCK_ERR_LOCK 0 i).put .PST_LOCK_ERR_WRITER 0 who
    (s.put .PST_LOCK_ERR_NOT_OWNER 0 1).raise 208

/-- A write to PST_LOCK_REL[i] (R367); REL 0 releases nothing. -/
def execLockRelease (p : Port) (i : Fin 256) (value : Word) (s : State) : Host.Outcome State Fault Refusal :=
  .next (s.access p .PST_LOCK_REL i true value.toNat fun s =>
    if value.toNat % 2 = 1 then s.unlock (portIdent p) i else s)

/-- DEVICE.MAILBOX_ASSIGN (R351, R381): reassigns a mailbox and resets it (R364). Mailbox 0 keeps an owner that is a host
function or a region; an identifier that is never issued or is the Postroom's own is refused. -/
def svcMailboxAssign (L : Letter) : Service := fun b s =>
  let m := rd b 0 1
  let owner := rd b 1 1
  if !zeros b 2 2 || !mayOwn m owner then refuse s L .BAD_PARAM
  else if h : m < 64 then
    let s := s.resetBox ⟨m, h⟩
    okBody ((s.put .PST_MB_OWNER_OWNER m owner).put .PST_MB_STAT_OWNER m owner) L []
  else refuse s L .BAD_PARAM

/-- DEVICE.MAILBOX_ASSIGN (R351). -/
def execDeviceMailboxAssign (L : Letter) (s : State) : Host.Outcome State Fault Refusal :=
  .next (s.serve L ⟨.admin, false, false, fixedLen 4⟩ false (svcMailboxAssign L))

end Sys2Proof.Machine
end

