-- ==== Sys2Proof/Machine/ChannelRules.lean ====
section
/-! DEFINITION. What the channel services check and settle: boundaries and adjusted postmarks (R166, R168), resource words and who
holds them (R163, R165), what START and the modes require (R172, R186), buffers (R392, R396), nozzle-health generations (R198), and
binding and releasing a resource (R164, R201). -/

namespace Sys2Proof.Machine

/-! ### Boundaries (R166, R168, R390) -/

/-- The least k with k × m at least d (m above 0). -/
def ceilDiv (d m : Int) : Int := -(-d / m)

/-- Length in counts of job product `n` (R390). -/
def Job.lengthOf (j : Job) (n : Nat) : Nat := if j.table.isEmpty then j.span else (j.table.getD n (0, 0)).1

/-- The first end of a run of lengths at or ahead of `t`. -/
def walkEnds (t : Nat) : Nat → List Nat → Option Nat
  | p, [] => if pmLt p t then none else some p
  | p, l :: r => if pmLt p t then walkEnds t (pmPlus p l) r else some p

/-- The first start of the job's products, from the next one at `start`, at or ahead of `t` (R166); past the job's end there is no
boundary, and `t` stands. -/
def Job.boundary (j : Job) (start t : Nat) : Nat :=
  let d := pmDiff t start
  if d ≤ 0 then start
  else if j.table.isEmpty then
    let k := ceilDiv d (65536 * j.span)
    if j.span = 0 || (!j.repeats && decide ((j.products - j.next : Nat) < k)) then t else pmPlus start (k * j.span)
  else
    let rest := (j.table.drop j.next).map (·.1)
    if !j.repeats then (walkEnds t start rest).getD t
    else
      let cyc := rest ++ (j.table.take j.next).map (·.1)
      let total : Nat := cyc.foldl (fun n l => n + l) 0
      if total = 0 then t else (walkEnds t (pmPlus start (d / ((65536 * total : Nat) : Int) * (total : Int))) cyc).getD t

/-- The bound job's record. -/
def State.jobOf (s : State) (x : Channel) : Option Job := x.job.map fun i => Tbl.find Job.blank s.jobs i

/-- Products on which work has begun since the last RESUME, and those that it left standing: one unbroken run (R183, R200). -/
def Channel.run (x : Channel) : List Product := x.products.filter (·.epoch == x.epoch)

/-- The first product boundary at or ahead of `t` (R168). -/
def State.boundary (s : State) (x : Channel) (t : Nat) : Nat :=
  if x.pitch ≠ 0 then pmPlus x.base (ceilDiv (pmDiff t x.base) (65536 * x.pitch) * x.pitch)
  else
    let begun := (x.run.map (·.start)).filter (fun p => !pmLt p t)
    match begun.foldl (fun (b : Option Nat) p => match b with
        | some q => some (if pmLt p q then p else q)
        | none => some p) none with
    | some p => p
    | none => match s.jobOf x with
      | some j => j.boundary x.next t
      | none => t

/-- max(P, x + LEAD). -/
def State.atLead (s : State) (x : Channel) (p : Nat) : Nat :=
  let q := pmPlus (s.axisPm x.axis) x.lead
  if pmLt p q then q else p

/-- The postmark used for a switch, resume, drain end or mode postmark (R168). -/
def State.adjust (s : State) (x : Channel) (p : Nat) : Nat :=
  let t := s.atLead x p
  if x.has mTriggered then t else s.boundary x t

/-- A postmark lies more than 2^43 counts from the channel's axis (R167). -/
def State.tooFar (s : State) (x : Channel) (p : Nat) : Bool := decide (reach < s.ahead x.axis p) || decide (s.ahead x.axis p < -reach)

/-- The checks of a requested postmark whose service needs the position (R167, in the order of R172). -/
def State.badPostmark (s : State) (x : Channel) (p : Nat) : Option Status :=
  firstFail [(pmAxis p != x.axis, .BAD_PARAM), (!s.axisRuns x.axis, .POSITION_LOST), (s.tooFar x p, .BAD_PARAM)]

/-- The checks of a postmark that comes with a service which takes effect at once, in IDLE and ARMED (R167, R177): it needs no current position. -/
def State.strayPostmark (s : State) (x : Channel) (p : Nat) : Option Status :=
  firstFail [(pmAxis p != x.axis || s.tooFar x p, .BAD_PARAM)]

/-! ### Resource words (R163) -/

/-- Every field of a resource word lies in its range, and the handle is 0 unless KIND is 8. -/
def Binding.legal (b : Binding) : Bool :=
  let w := b.word % 2 ^ 28
  match b.kind with
  | 1 => w &&& 0x0F00FFC0 == 0 && decide (w % 64 < 40) && b.handle == 0
  | 2 => decide (w < 64) && b.handle == 0
  | 3 => decide (w < 0xC0000) && w % 65536 != 0 && b.handle == 0
  | 4 => decide (w < 140) && b.handle == 0
  | 5 => decide (w < 256) && b.handle == 0
  | 6 => decide (w < 16) && b.handle == 0
  | 8 => w == 0
  | _ => false

/-- The checks of a resource handle (R160, R375): a job must be this mailbox's. -/
def State.checkResource (s : State) (b : Binding) (m : Nat) : Option Status :=
  if b.kind ≠ 8 then none
  else match b.handle / 2 ^ 28 with
    | 2 => s.checkOwned kJob b.handle m
    | 3 => s.checkHandle kLease b.handle
    | 6 => s.checkHandle kSeries b.handle
    | _ => some .BAD_HANDLE

/-- Two bindings cannot be held at once (R163). -/
def Binding.clash (a b : Binding) : Bool :=
  a.kind == b.kind && match a.kind with
    | 1 => a.low 6 == b.low 6 && a.word / 2 ^ 16 % 256 &&& b.word / 2 ^ 16 % 256 != 0
    | 2 | 4 | 5 => a.word == b.word
    | 3 => a.word / 2 ^ 16 == b.word / 2 ^ 16 && a.word % 65536 &&& b.word % 65536 != 0
    | 8 => a.handle == b.handle && a.handle / 2 ^ 28 == kJob
    | _ => false

/-- What a channel holds: its bindings and the one that a pending change brings. -/
def Channel.holds (x : Channel) : List Binding := x.bindings ++ (x.change.bind (·.new)).toList

/-- The handle of the channel that holds what `b` needs; `except` is not counted. A channel has one job at a time. R163 gives BUSY where another channel holds
it; a second job, or a word that overlaps the channel's own, is answered BUSY with its own handle (DESIGN CHOICE, assumption 94). -/
def State.holder (s : State) (c : Nat) (b : Binding) (except : Option Binding) : Option Nat :=
  let second := b.kind == 8 && b.handle / 2 ^ 28 == kJob &&
    ((s.chan c).holds.any fun a => a.kind == 8 && a.handle / 2 ^ 28 == kJob && some a != except)
  if second then some (s.handleOf kChannel c)
  else (s.chanList.find? fun d => (s.chan d).holds.any fun a => a.clash b && !(d == c && some a == except)).map (s.handleOf kChannel ·)

/-- The image of a region. -/
def State.image (s : State) (n : Nat) : RegionImg := Tbl.find RegionImg.blank s.images n

/-- A resource can be bound now (R165). -/
def State.bindable (s : State) (b : Binding) : Bool :=
  match b.kind with
  | 1 => s.woken (b.low 6) && (bitsOf 8 (b.word / 2 ^ 16)).all fun m => (s.image (b.low 6)).monitors.any (·.idx == m)
  | 2 => !s.on .SRT_CTL_EN (b.low 6) && s.fld .SRT_STAT_COUNT (b.low 6) == 0
  | 4 => s.laneActive (b.low 8)
  | _ => true

/-! ### Buffers (R392, R396) -/

/-- The sealed granules of the pool, or all of it, that hold channels' buffers: granule 255 is the firmware's own (R396; DEDUCED, assumption 94). -/
def State.poolGranules (s : State) (needSealed : Bool) : List Nat :=
  (bitsOf 255 (s.seals.pool ^^^ (255 * 2 ^ 248))).filter fun g => !needSealed || s.granule g == 1

/-- The lines of a spool ring and its product map. -/
def Spool.ranges (sp : Spool) : List (Nat × Nat) := [(sp.mapBase, 512), (sp.spoolBase, sp.slots * sp.slotLines)]

/-- The generations of a channel's map that exist in memory, as (number, first line): the one in force, and those that begun products carry (R198). -/
def Channel.maps (x : Channel) : List (Nat × Nat) :=
  (((x.health.gen, x.health.line) :: (x.products.filter (!·.settled)).map fun p => (p.mapGen, p.mapLine)).filter (·.1 != 0)).eraseDups

/-- The lines that a channel's buffers take, as (first, count). -/
def Channel.ranges (x : Channel) : List (Nat × Nat) :=
  (x.spool.toList ++ (x.change.bind (·.spool)).toList).flatMap Spool.ranges ++ (x.ring.map fun a => (a, Config.cameraLines)).toList ++
    (x.delay.map fun a => (a, Config.delayLines)).toList ++ x.maps.map fun e => (e.2, x.health.linesOf e.1)

/-- The lines that channels' buffers take. -/
def State.allocs (s : State) : List (Nat × Nat) := s.chanList.flatMap fun c => (s.chan c).ranges

/-- `n` lines from `a` lie in granules of a list and meet no buffer. -/
def linesFree (gs : List Nat) (used : List (Nat × Nat)) (a n : Nat) : Bool :=
  (List.range ((a + n - 1) / 2 ^ 24 - a / 2 ^ 24 + 1)).all (fun k => gs.contains (a / 2 ^ 24 + k)) &&
    used.all fun e => decide (a + n ≤ e.1) || decide (e.1 + e.2 ≤ a)

/-- A place for a buffer of `n` lines in the pool: which of the places that are free is not said (a free value, assumption 3); none
where none is. -/
def State.place (s : State) (needSealed : Bool) (used : List (Nat × Nat)) (n : Nat) : Option Nat :=
  let gs := s.poolGranules needSealed
  let first := match gs[s.draw % (gs.length + 1)]? with
    | some g => [g * 2 ^ 24 + s.draw / 2 ^ 16 % 2 ^ 24]
    | none => []
  (first ++ gs.map (· * 2 ^ 24) ++ used.map (fun (e : Nat × Nat) => e.1 + e.2)).find? fun a => linesFree gs used a n

/-- The spool ring and product map of a job that is bound (R387, R392), beside the buffers of a list; none where space is lacking. -/
def State.makeSpool (s : State) (x : Channel) (j : Job) (used : List (Nat × Nat)) : Option Spool :=
  let big := if j.table.isEmpty then j.bytes else j.table.foldl (fun n e => max n e.2) 0
  let slots := 2 * j.ahead
  let n := (big + 63) / 64
  match s.place (x.has mSealed) used 512 with
  | none => none
  | some m => (s.place (x.has mSealed) ((m, 512) :: used) (slots * n)).map fun p => ⟨m, p, slots, n, []⟩

/-- The lines from `a` that a buffer takes lie where the channel's mode has its buffers (R207). -/
def State.lies (s : State) (x : Channel) (e : Nat × Nat) : Bool := linesFree (s.poolGranules (x.has mSealed)) [] e.1 e.2

/-- A camera ring or a line-delay buffer of `n` lines: as it lies, or placed anew; none where space is lacking. -/
def State.keepOrPlace (s : State) (x : Channel) (used : List (Nat × Nat)) (was : Option Nat) (n : Nat) : Option Nat :=
  match was with
  | some a => if s.lies x (a, n) then some a else s.place (x.has mSealed) used n
  | none => s.place (x.has mSealed) used n

/-- A channel with every buffer that its modes need (R195, R207, R392): its job's spool, a camera ring under VERIFY, and a line-delay buffer; none where space
is lacking. When the firmware allocates the last two no rule says: at START and as a mode changes (DESIGN CHOICE, assumption 94). -/
def State.withBuffers (s : State) (x : Channel) : Option Channel :=
  let spool := match s.jobOf x with
    | none => some x.spool
    | some j => if (x.spool.map fun (sp : Spool) => sp.ranges.all (s.lies x)).getD false then some x.spool else (s.makeSpool x j s.allocs).map some
  spool.bind fun sp =>
    let used := s.allocs ++ sp.toList.flatMap Spool.ranges
    let ring := if x.has mVerify then (s.keepOrPlace x used x.ring Config.cameraLines).map some else some x.ring
    ring.bind fun r =>
      (s.keepOrPlace x (used ++ (r.map fun a => (a, Config.cameraLines)).toList) x.delay Config.delayLines).map fun d =>
        { x with spool := sp, ring := r, delay := some d }

/-- The firmware allocates what buffers a channel lacks. -/
def State.takeBuffers (s : State) (c : Nat) : State :=
  match s.withBuffers (s.chan c) with
  | some y => (s.setChan c y).drew
  | none => s

/-! ### What a channel requires (R172, R186) -/

/-- A link is ACTIVE. -/
def State.linkActive (s : State) (m : Nat) : Bool := s.fld .LNK_STAT_STATE m == 6

/-- The nozzles of a lane's head driver (R287). -/
def State.laneNozzles (s : State) (l : Nat) : Nat :=
  match s.linkOf l with
  | some m => (s.link m).nozzles
  | none => 0

/-- The nozzles of the channel's fire lanes, in binding order (R198). -/
def State.nozzleCount (s : State) (x : Channel) : Nat := (s.fireLanes x).foldl (fun n l => n + s.laneNozzles l) 0

/-- Free sealed space for the buffers of a SEALED channel (R186, R207): for those of `withBuffers`, and for a generation of its nozzle-health map. -/
def State.sealedRoom (s : State) (x : Channel) : Bool :=
  match s.withBuffers { x with mode := orBit x.mode mSealed } with
  | some y => (s.place true (s.allocs ++ y.ranges) (mapLines (s.nozzleCount x))).isSome
  | none => false

/-- The fire cells (R186): the bound cells that a fire sorter targets. -/
def State.fireCells (s : State) (x : Channel) : List Nat :=
  x.cells.filter fun k => x.fireSorters.any fun n => !s.on .SRT_TGT_KIND n && s.fld .SRT_TGT_GROUP n == k / 16

/-- Every bound region owns a mailbox, and there is one. -/
def State.regionsWithBoxes (s : State) (x : Channel) : Bool := !x.regions.isEmpty && x.regions.all fun n => (s.regionBox n).isSome

/-- The inspection lanes of a channel. -/
def State.inspectionLanes (s : State) (x : Channel) : List Nat := x.lanes.filter s.laneCamera

/-- The bound inspection regions: those whose image declares an inspection port. -/
def State.inspectors (s : State) (x : Channel) : List Nat := (x.regions.filter fun n => (s.image n).inspects).eraseDups

/-- The bound job's volume. -/
def State.jobVolume (s : State) (x : Channel) : Option Volume := (s.jobOf x).bind fun j => s.vol j.volume

/-- The requirements of one mode, in the order its row lists them: whether each fails, its status and the KIND named (R186, R208). R163 gives no KIND for a
link or for space: a link that is not ACTIVE is named by 4, a follower's trigger input and a lack of sealed space by 0; and the leader's serial field is
checked last in the SERIALIZE row, with KIND 0, by SET_MODE too (DESIGN CHOICE, assumption 94). -/
def State.modeRows (s : State) (x : Channel) (bit : Nat) : List (Bool × Status × Nat) :=
  let follower := x.follower
  let inPart := fun (j : Job) => j.serialFirst == 0xFFFFFFFF || decide (j.serialLast < s.nozzleCount x)
  match bit with
  | 0 => [((x.handles kSeries).isEmpty, .BAD_PARAM, 8), (!s.regionsWithBoxes x, .BAD_PARAM, 1),
      (x.has mStitch && !follower && !((s.jobOf x).map inPart).getD true, .BAD_PARAM, 0)]
  | 1 => [((s.inspectionLanes x).isEmpty, .BAD_PARAM, 4), ((s.inspectors x).isEmpty, .BAD_PARAM, 1),
      (x.rejectSorter.isNone, .BAD_PARAM, 2),
      (x.par 14 2 == 0 && !(x.rejectSorter.map (s.on .SRT_TGT_KIND ·)).getD false, .BAD_PARAM, 0)]
  | 2 => [(((s.jobOf x).map (·.mapVolume == 0)).getD true, .BAD_PARAM, 8), (x.regions.any fun n => (s.regionBox n).isNone, .BAD_PARAM, 1)]
  | 4 => [((s.fireCells x).any fun k => ((s.cellPin k).map s.pinLocked).getD false, .LOCKED, 0)]
  | 5 => [(!(stitchLinks x.block).all s.linkActive, .BAD_PARAM, 4),
      (follower && !(s.fld .POS_AX_CTL_SRC x.axis == 2 &&
        ((stitchLinks x.block).head?.map (· == s.fld .POS_AX_FOLLOW_LINK x.axis)).getD false), .BAD_PARAM, 0),
      (follower && !x.inputs.isEmpty, .BAD_PARAM, 0)]
  | 6 => [(x.inputs.isEmpty && !follower, .BAD_PARAM, 6), (decide (x.par 20 4 < x.lead), .BAD_PARAM, 0),
      (x.par 28 4 != 0 && decide (x.par 24 4 < x.par 28 4), .BAD_PARAM, 0)]
  | 7 => [(!((s.jobVolume x).map (·.isSealed)).getD false, .BAD_PARAM, 8), (!s.sealedRoom x, .BAD_PARAM, 0)]
  | _ => []

/-- The first requirement that fails of a list. -/
def firstRow : List (Bool × Status × Nat) → Option (Status × Nat)
  | [] => none
  | e :: t => if e.1 then some e.2 else firstRow t

/-- The first requirement of the mode bits of a mask that fails (R186). -/
def State.modeFault (s : State) (x : Channel) (mask : Nat) : Option (Status × Nat) := firstRow ((bitsOf 8 mask).flatMap (s.modeRows x))

/-- What a channel needs (R172), in order: a source of work, an output (an agent port has a STREAM destination only where a lane or a sorter is bound too,
R77, R164), then what the modes require. -/
def State.needs (s : State) (x : Channel) : List (Bool × Status × Nat) :=
  [(x.job.isNone && x.regions.isEmpty, .BAD_PARAM, 1), (x.sorters.isEmpty && x.lanes.isEmpty, .BAD_PARAM, 2)] ++
    (bitsOf 8 x.mode).flatMap (s.modeRows x)

/-- The first thing that START misses (R172). -/
def State.missing (s : State) (x : Channel) : Option (Status × Nat) := firstRow (s.needs x)

/-- The first thing that `x` would be left without, which it is not without now (R171, R172). -/
def State.leftWithout (s : State) (x : Channel) (r : Binding) : Option (Status × Nat) :=
  firstRow (List.zipWith (fun was now => (!was.1 && now.1, .BAD_PARAM, now.2.2)) (s.needs x) (s.needs { x with bindings := x.bindings.erase r }))

/-- Every field of a mode parameter block lies in its range (R185); the action codes are those of R138. -/
def goodBlock (b : List Byte) : Bool :=
  (decide (rd b 12 1 < 64) || rd b 12 1 == 0xFF) && decide (rd b 13 1 < 5) && decide (rd b 32 1 ≤ 1) && decide (rd b 33 1 ≤ 1) &&
    (List.range 4).all (fun k => decide (rd b (36 + k) 1 < 144) || rd b (36 + k) 1 == 0xFF) &&
    decide (1 ≤ rd b 40 2) && decide (rd b 40 2 ≤ 256) && decide (rd b 42 1 ≤ 1) && zeros b 43 21

/-- The default block (R185). -/
def defaultBlock : List Byte :=
  le 4 0 ++ le 4 0 ++ le 4 1000 ++ le 1 0xFF ++ le 1 3 ++ le 2 0 ++ le 4 0x4C4B4000 ++ le 4 0 ++ le 4 0 ++ le 4 0 ++ le 1 0 ++ le 1 0 ++
    le 2 0 ++ le 4 0xFFFFFFFF ++ le 2 32 ++ le 1 1 ++ List.replicate 21 0

/-! ### Binding and releasing (R164, R188, R201) -/

/-- The order of a bound sorter (R188). -/
def Channel.orderOf (x : Channel) (n : Nat) : Nat := if x.has mReverse && x.rejectSorter != some n then 2 else 0

/-- The cells of one group among a list, as a mask. -/
def groupMask (l : List Nat) (g : Nat) : Nat := ((l.filter (fun k => k / 16 == g)).eraseDups).foldl (fun m k => m + 2 ^ (k % 16)) 0

/-- The gate that SRT_TGT named when the sorter was bound (R164): the word that the binding recorded, or, where none is recorded yet, the word that
stands. -/
def State.boundGate (s : State) (c n : Nat) : Option Nat :=
  let w := match Tbl.find 0 (s.chan c).targets n with
    | 0 => s.regWord .SRT_TGT n
    | t + 1 => t
  if bitOf w 27 then some w else none

/-- The target of a bound sorter (R164): its gate stays, else the channel's bound cells, in the group of the first one. -/
def State.setTarget (s : State) (c n : Nat) : State :=
  match s.boundGate c n with
  | some w => ((s.put .SRT_TGT_REGION n (w / 2 ^ 20 % 64)).put .SRT_TGT_GATE n (w / 2 ^ 26 % 2)).put .SRT_TGT_KIND n 1
  | none =>
    let l := (s.chan c).cells
    let g := match l.head? with
      | some k => k / 16
      | none => s.fld .SRT_TGT_GROUP n
    ((s.put .SRT_TGT_GROUP n g).put .SRT_TGT_PERMIT n (groupMask l g)).put .SRT_TGT_KIND n 0

/-- The firmware sets a bound sorter's axis, order and target (R164). -/
def State.setSorter (s : State) (c n : Nat) : State :=
  let x := s.chan c
  let s := ((s.put .SRT_CTL_AXIS n x.axis).put .SRT_CTL_ORDER n (x.orderOf n)).setTarget c n
  s.updChan c fun x => { x with targets := Tbl.set 0 x.targets n (s.regWord .SRT_TGT n + 1) }

/-- The region whose turn the next product is (R179): products are shared in turn among the bound regions, in binding order, and the turn goes on where one
joins or leaves. Every bound region has the product's letter (R187); the product records the region (DESIGN CHOICE, assumption 94). -/
def Channel.turnOf (x : Channel) : Option Nat :=
  let rs := x.inUse.regions.eraseDups
  rs[x.turn % rs.length]?

/-- Every bound sorter is set again. -/
def State.setSorters (s : State) (c : Nat) : State := s.each (s.chan c).sorters fun n s => s.setSorter c n

/-- PROOF saves the mapping of a fire cell and takes it off its pin (R201); a locked pin refuses the firmware's write, and the cell stays on it (R151). -/
def State.proofCell (s : State) (c k : Nat) : State :=
  if (s.chan c).saved.any (fun e => e.1 == k) then s
  else if s.mapLocked (192 + k) 0xFF then s.accessError .locked .postroom true (Reg.addr .PIN_OMAP (192 + k))
  else (s.updChan c fun x => { x with saved := x.saved ++ [(k, s.fld .PIN_OMAP_PIN (192 + k))] }).mapSource (192 + k) 0xFF

/-- PROOF takes every fire cell off its pin. -/
def State.proofCells (s : State) (c : Nat) : State :=
  if (s.chan c).has mProof && (s.chan c).state != 0 then s.each (s.fireCells (s.chan c)) fun k s => s.proofCell c k else s

/-- EN of the channel's sorters follows its state: set while it runs. -/
def State.enableSorter (s : State) (c n : Nat) : State :=
  let st := (s.chan c).state
  if st = 1 || st = 2 || st = 4 then s.put .SRT_CTL_EN n 1 else s

/-- A resource joins its channel (R164). -/
def State.takeBinding (s : State) (c : Nat) (b : Binding) (spool : Option Spool) : State :=
  let s := s.updChan c fun x => { x with bindings := x.bindings ++ [b] }
  match b.kind with
  | 1 => s.each (bitsOf 8 (b.word / 2 ^ 16)) fun m s =>
      match (s.image (b.low 6)).monitors.find? (·.idx == m) with
      | some g => { s with monitors := Tbl.set none s.monitors (b.low 6 * 8 + m) (some ⟨g, (s.chan c).axis, s.axisPm (s.chan c).axis⟩) }
      | none => s
  | 2 =>
    let s := s.updChan c fun x => { x with targets := Tbl.set 0 x.targets (b.low 6) 0 }
    ((s.setSorter c (b.low 6)).enableSorter c (b.low 6)).proofCells c
  | 3 =>
    let s := if (s.chan c).state = 3 then s else s.each b.cells fun k s => s.cellEnable k true
    (s.setSorters c).proofCells c
  | 8 => if b.handle / 2 ^ 28 = kJob then s.updChan c fun x => { x with spool := spool, noticed := [] } else s
  | _ => s

/-! ### Volumes that go offline (R180) -/

/-- The next `n` job products, in the order they are taken (R392). -/
def Job.upcoming (j : Job) (n : Nat) : List Nat :=
  if j.repeats then (List.range n).map fun k => (j.next + k) % max 1 j.products
  else (List.range (min n (j.products - j.next))).map (j.next + ·)

/-- The start of the product that takes the k-th job product from now; none where its boundary is not known ahead. -/
def Channel.startOf (x : Channel) (j : Job) (k : Nat) : Option Nat :=
  if x.has mTriggered then (x.trigs[k]?).map (·.1)
  else if x.pitch ≠ 0 then some (pmPlus x.next (x.pitch * k))
  else some (((j.upcoming k).map j.lengthOf).foldl (fun (p l : Nat) => pmPlus p l) x.next)

/-- Channels whose job's volume is no longer online drain up to their last complete product (R180): E is the start of the first product
whose data is not wholly in its slot. -/
def State.offlineChannels (s : State) : State :=
  s.each s.chanList fun c s =>
    let x := s.chan c
    match s.jobOf x, x.spool with
    | some j, some sp =>
      if x.offline.isSome || x.state = 0 || ((s.vol j.volume).map (·.state == 0)).getD false then s
      else s.updChan c ({ · with offline := x.startOf j ((j.upcoming (2 * j.ahead)).takeWhile sp.filled.contains).length })
    | _, _ => s

/-! ### Nozzle-health generations (R198, R388) -/

/-- The byte of a nozzle: GOOD with WEIGHT 32 unless noted. -/
def Health.byte (h : Health) (n : Nat) : Nat := Tbl.find 0 h.bytes n ^^^ 32

/-- Sets the byte of a nozzle. -/
def Health.setByte (h : Health) (n v : Nat) : Health := { h with bytes := Tbl.set 0 h.bytes n (v ^^^ 32) }

/-- How many generations of a channel exist: the one in force, those a begun product carries, those being built. -/
def Channel.generations (x : Channel) : Nat := (x.maps.map (·.1)).eraseDups.length + x.health.building.length

/-- A new generation is to be built (R198): a fifth replaces the newest that is pending; where four are in use and none is pending it waits until one is freed
(DESIGN CHOICE, assumption 94). It answers the generation's number. -/
def Channel.newGeneration (x : Channel) : Channel × Nat :=
  let h := x.health
  let next := (h.building.getLast?.getD h.gen) + 1
  if x.generations < 4 then ({ x with health := { h with building := h.building ++ [next] } }, next)
  else match h.building.getLast? with
    | some g => (x, g)
    | none => ({ x with health := { h with wanted := true } }, next)

/-- A generation that waited is built once one has been freed (R198). -/
def Channel.startWanted (x : Channel) : Channel :=
  if x.health.wanted && x.generations < 4 then ({ x with health := { x.health with wanted := false } }.newGeneration).1 else x

/-- The lane that nozzle `n` of a map over a list of lanes belongs to, and its place there; and the first nozzle of a lane. -/
def nozzleLane : List (Nat × Nat) → Nat → Option (Nat × Nat)
  | [], _ => none
  | e :: t, n => if n < e.2 then some (e.1, n) else nozzleLane t (n - e.2)
def laneStart : List (Nat × Nat) → Nat → Nat
  | [], _ => 0
  | e :: t, l => if e.1 = l then 0 else e.2 + laneStart t l

/-- Where nozzle `n` of a map over the lanes `old` stands in one over the lanes `new` (R198). -/
def moveNozzle (old new : List (Nat × Nat)) (n : Nat) : Option Nat :=
  (nozzleLane old n).bind fun e => if new.any fun f => f.1 == e.1 && decide (e.2 < f.2) then some (laneStart new e.1 + e.2) else none

/-- A nozzle-health map over other lanes: each nozzle keeps what it had, and a new one is GOOD. -/
def Health.over (h : Health) (new : List (Nat × Nat)) : Health :=
  let moved := fun (l : List Nat) => l.filterMap (moveNozzle h.lanes new)
  { h with
    lanes := new, nozzles := new.foldl (fun n e => n + e.2) 0
    bytes := h.bytes.foldl (fun t e => match moveNozzle h.lanes new e.1 with
      | some n => Tbl.set 0 t n e.2
      | none => t) []
    edited := moved h.edited, driver := moved h.driver
    reports := h.reports.filterMap fun e => (moveNozzle h.lanes new e.1).map fun n => (n, e.2) }

/-- The map covers the nozzles of the bound fire lanes in binding order (R198): where these have changed, its nozzles move, and a channel under way builds a new
generation. -/
def State.fitMap (s : State) (c : Nat) : State :=
  let x := s.chan c
  let new := (s.fireLanes x).map fun l => (l, s.laneNozzles l)
  if new = x.health.lanes then s
  else
    let y := { x with health := x.health.over new }
    s.setChan c (if x.state != 0 && x.has mCompensate then y.newGeneration.1 else y)

/-- Stitch partners exchange the overlap entries of their maps (R208): on each link, the group, the generation, and the entries of the OVERLAP nozzles at
either end of the channel's map, of which the link's seam takes one end (DESIGN CHOICE, assumption 94). -/
def State.tellOverlap (s : State) (c : Nat) : State :=
  let x := s.chan c
  let n := x.health.nozzles
  let k := min (x.par 40 2) n
  if x.has mStitch && x.has mCompensate then
    s.each (stitchLinks x.block) fun m s => s.stitchMessage m 3 ([x.par 34 2, x.health.gen] ++ ((List.range k) ++ (List.range k).map (n - k + ·)).map x.health.byte)
  else s

/-- A generation is complete (R198, R388): written to a fresh buffer, in force for the next product, source 211. While the pool has no space for it, it stays
pending. -/
def State.putGeneration (s : State) (c g : Nat) : State :=
  let h := (s.chan c).health
  match s.place ((s.chan c).has mSealed) s.allocs h.lines with
  | none => s
  | some l =>
    let s := s.drew.firmwareWrite (64 * l) ((List.range h.nozzles).map fun k => BitVec.ofNat 8 (h.byte k))
    let s := (s.updChan c fun x => { x with health := { x.health with gen := g, line := l, building := x.health.building.filter (· != g),
                                                                       sizes := Tbl.set 0 x.health.sizes g h.nozzles } }).raise 211
    s.tellOverlap c

/-- A nozzle changes state (R388): source 211. -/
def State.setNozzle (s : State) (c n v : Nat) : State :=
  let was := (s.chan c).health.byte n
  let s := s.updChan c fun x => { x with health := x.health.setByte n v }
  s.when (was / 64 != v / 64) (·.raise 211)

end Sys2Proof.Machine
end

