-- ==== Sys2Proof/Machine/Homes.lean ====
section
/-! DEFINITION. The messages that reach a slice (R302, R303, R305) and what happens in a stack (R310, R311, R313, R315, R322). -/

namespace Sys2Proof.Machine

/-! ### Requests -/

/-- RD_SHARED reaches its slice, with the other requests of the same cycle (R299, R303). -/
def execHomeRdShared (l : BitVec 32) (r : HomeReq) (same : List HomeReq) (s : State) : Host.Outcome State Fault Refusal :=
  .next (s.request l.toNat ({ r with kind := .rdShared } :: same))

/-- RD_OWN reaches its slice (R303). -/
def execHomeRdOwn (l : BitVec 32) (r : HomeReq) (same : List HomeReq) (s : State) : Host.Outcome State Fault Refusal :=
  .next (s.request l.toNat ({ r with kind := .rdOwn } :: same))

/-- RD_CUR reaches its slice (R303). -/
def execHomeRdCur (l : BitVec 32) (r : HomeReq) (same : List HomeReq) (s : State) : Host.Outcome State Fault Refusal :=
  .next (s.request l.toNat ({ r with kind := .rdCur } :: same))

/-- WR_PTL reaches its slice (R303). -/
def execHomeWrPtl (l : BitVec 32) (r : HomeReq) (same : List HomeReq) (s : State) : Host.Outcome State Fault Refusal :=
  .next (s.request l.toNat ({ r with kind := .wrPtl } :: same))

/-- WB_DIRTY reaches its slice with its data, with the requests of the same cycle (R305): a fabric cache agent's is the message it
sent; a Postroom core's carries its data here, and its line then waits for WB_ACK (R298). -/
def execHomeWbDirty (l : BitVec 32) (who : Fin 20) (data : BitVec 512) (same : List HomeReq) (s : State) :
    Host.Outcome State Fault Refusal :=
  .next <|
  let l := l.toNat
  match s.msg .wbDirty who l with
  | some m => if s.homeDeaf l then s.queueUp l same else (((s.unpost m).takeIn l same).giveUp l who (some m.data)).serveNext l
  | none =>
    if who.val < 16 then s
    else
      let s := if (s.cached who l).st = 0 then s else s.setCached who l ⟨3, data.toNat, true⟩
      if s.homeDeaf l then (s.post .wbDirty who l data.toNat 0).queueUp l same
      else ((s.takeIn l same).giveUp l who (some data.toNat)).serveNext l

/-- EVICT_CLEAN reaches its slice (R303). -/
def execHomeEvictClean (l : BitVec 32) (who : Fin 20) (s : State) : Host.Outcome State Fault Refusal :=
  .next <|
  let l := l.toNat
  match s.msg .evictClean who l with
  | some m => if s.homeDeaf l then s else ((s.unpost m).giveUp l who none).serveNext l
  | none =>
    if who.val < 16 then s
    else
      let x := s.cached who l
      let s := if x.st = 0 then s else s.setCached who l { x with wb := true }
      if s.homeDeaf l then s.post .evictClean who l 0 0 else (s.giveUp l who none).serveNext l

/-! ### Answers -/

/-- An answer that an agent sent reaches the home. -/
def State.snoopAnswer (s : State) (kind : MsgKind) (l who : Nat) (pending : Bool) : State :=
  match s.msg kind who l with
  | none => s
  | some m =>
    if s.homeDeaf l then s
    else ((s.unpost m).answer l who (if kind = .rspData then some m.data else none) pending).showHome (lineStack l)

/-- RSP_I reaches the home (R302). -/
def execHomeRspI (l : BitVec 32) (who : Fin 20) (s : State) : Host.Outcome State Fault Refusal :=
  .next (s.snoopAnswer .rspI l.toNat who false)

/-- RSP_S reaches the home (R302). -/
def execHomeRspS (l : BitVec 32) (who : Fin 20) (s : State) : Host.Outcome State Fault Refusal :=
  .next (s.snoopAnswer .rspS l.toNat who false)

/-- RSP_DATA reaches the home: the dirty data is passed on or written (R303). -/
def execHomeRspData (l : BitVec 32) (who : Fin 20) (s : State) : Host.Outcome State Fault Refusal :=
  .next (s.snoopAnswer .rspData l.toNat who false)

/-- RSP_WB_PENDING reaches the home, which waits for the writeback (R305). -/
def execHomeRspWbPending (l : BitVec 32) (who : Fin 20) (s : State) : Host.Outcome State Fault Refusal :=
  .next (s.snoopAnswer .rspWb l.toNat who true)

/-- CMP_ACK reaches the home: the slice may serve the next request for the line (R302, R305). -/
def execHomeCmpAck (l : BitVec 32) (who : Fin 20) (s : State) : Host.Outcome State Fault Refusal :=
  .next <|
  let l := l.toNat
  match s.msg .cmpAck who l with
  | none => s
  | some m =>
    if s.homeDeaf l then s
    else
    let s := s.unpost m
    let d := s.dirAt l
    match d.txn with
    | some x => if x.granted then (s.setDir l { d with txn := none }).serveNext l else s
    | none => s

/-! ### The stacks -/

/-- The patrol pass reads line `l` of its stack (R310): a corrected error is counted and rewritten, an uncorrectable one
recorded. -/
def execPatrolRead (l : BitVec 32) (ecc : Ecc) (s : State) : Host.Outcome State Fault Refusal :=
  .next <|
  let l := l.toNat
  let k := lineStack l
  if !s.on .MEM_STK_CTL_PATROL k || !s.homeOpen l then s
  else match ecc with
    | .clean => s
    | .corrected => s.stackCorr l
    | .uncorrectable =>
      let s := (s.stackUncorr l).setSeal fun z => { z with failing := Tbl.set 0 z.failing l 2 }
      s.when (s.isSealed l) (·.sealFail l false true)

/-- The temperature of stack `k` is sampled (R311): above TEMP_WARN it sets TEMP_HI, with source 148 + k as it is set. -/
def execStackTempSample (k : Fin 4) (temp : BitVec 8) (s : State) : Host.Outcome State Fault Refusal :=
  .next <|
  let s := s.put .MEM_STK_STAT_TEMP k temp.toNat
  if s.fld .MEM_STK_CTL_TEMP_WARN k < temp.toNat then
    (s.put .MEM_STK_ERR_TEMP_HI k 1).when (!s.on .MEM_STK_ERR_TEMP_HI k) (·.raise (148 + k))
  else s

/-- A stack has been zero-filled (R315): FILL_DONE, source 148 + k (R318), and waiting requests are served. -/
def execStackFillDone (k : Fin 4) (s : State) : Host.Outcome State Fault Refusal :=
  .next <|
  if s.on .MEM_STK_STAT_FILL_DONE k || !s.resets.lostStacks || s.resets.stage != 0 then s
  else
    let s := ((s.put .MEM_STK_STAT_FILL_DONE k 1).raise (148 + k)).serveStack k
    if (List.range 4).all (s.on .MEM_STK_STAT_FILL_DONE ·) then { s with resets := { s.resets with lostStacks := false } } else s

/-- Agents that count as done in a resynchronisation because D22 is stopped or held (R313). -/
def State.deadCores (s : State) : List Nat := if s.runs 22 && !s.isHeld 22 then [] else [16, 17, 18, 19]

/-- The agents that have reported done to stack `k`. -/
def State.resyncDone (s : State) (k : Nat) : List Nat := Tbl.find [] s.memo.resynced k

/-- A resynchronisation request reaches an agent (R313 step 3): it writes back its M lines of the stack, drops its E and S
lines, and reports done. -/
def State.resyncAgent (s : State) (k a : Nat) : State :=
  let s := s.each ((s.linesOf a).filter (fun l => lineStack l == k)) fun l s =>
    let x := s.cached a l
    if x.st = 3 then (s.setCached a l { x with wb := true }).post .wbDirty a l x.data 0 else s.setCached a l CLine.invalid
  s.setMem fun m => { m with resynced := Tbl.upd [] m.resynced k (fun d => d ++ [a]) }

/-- A resynchronisation request of stack `k` reaches agent `a` (R313). -/
def execStackResyncRequest (k : Fin 4) (a : Fin 20) (s : State) : Host.Outcome State Fault Refusal :=
  .next <|
  if s.on .MEM_STK_STAT_RESYNC k && !(s.resyncDone k).contains a.val && !s.deadCores.contains a.val then s.resyncAgent k a
  else s

/-- Every agent has reported done to stack `k` (R313 step 4): the writebacks are written and acknowledged, dirty lines of
cores that count as done are lost, the directory of the stack is empty, and requests are served again. -/
def execStackResyncDone (k : Fin 4) (s : State) : Host.Outcome State Fault Refusal :=
  .next <|
  let done := s.resyncDone k ++ s.deadCores
  if !s.on .MEM_STK_STAT_RESYNC k || s.domainWaits (some (18 + k)) || !(List.range 20).all done.contains then s
  else
    let mine := fun (m : Msg) => lineStack m.line == k.val && decide (m.kind = .wbDirty)
    let wbs := s.memo.wire.filter mine
    let s := (s.dropMsgs mine).setMem fun m => { m with resynced := Tbl.set [] m.resynced k [] }
    let s := s.each wbs fun m s =>
      ((s.memWrite m.line m.data Touch.clean none).1).post .wbAck m.who m.line 0 0
    let s := s.each s.deadCores fun a s =>
      s.each ((s.linesOf a).filter (fun l => lineStack l == k.val)) fun l s => s.setCached a l CLine.invalid
    let rest := fun (d : DirLine) => { DirLine.idle with queue := d.queue }
    let s := s.each ((s.memo.dir.map (·.1)).filter (fun l => lineStack l == k.val)) fun l s => s.setDir l (rest (s.dirAt l))
    ((s.put .MEM_STK_STAT_RESYNC k 0).raise (152 + k)).serveStack k

/-- A read of MEM_STK_ECNT[k] returns the counts and clears them (R316). -/
def execMemStkEcntRead (p : Port) (k : Fin 4) (s : State) : Host.Outcome State Fault Refusal :=
  .next (s.access p .MEM_STK_ECNT k false 0 (·.readClear p .MEM_STK_ECNT k))

/-- A read of MEM_HOME_CNT[k] returns the counts and clears them (R316). -/
def execMemHomeCntRead (p : Port) (k : Fin 4) (s : State) : Host.Outcome State Fault Refusal :=
  .next (s.access p .MEM_HOME_CNT k false 0 (·.readClear p .MEM_HOME_CNT k))

/-- A read of SEAL_LINE_CNT[k] returns the counts and clears them (R346). -/
def execSealLineCntRead (p : Port) (k : Fin 4) (s : State) : Host.Outcome State Fault Refusal :=
  .next (s.access p .SEAL_LINE_CNT k false 0 (·.readClear p .SEAL_LINE_CNT k))

/-! ### Conversions (R321, R322) -/

/-- Every home recalls the entries of granule `g`, and the data is discarded (R322 step 2). -/
def State.recallGranule (s : State) (g : Nat) : State :=
  let ls := (s.memo.dir.filter (fun e => lineGranule e.1 == g && e.2.st != 0 && e.2.txn.isNone)).map (·.1)
  s.each ls fun l s => s.recall l true

/-- A conversion command of the Postroom (R321): refused as running, as done already or as exhausted, or started. -/
def State.startConversion (s : State) (g : Nat) (toSealed : Bool) : State :=
  if s.on .SEAL_GRAN_RES_BUSY 0 then s.put .SEAL_GRAN_RES_RESULT 0 2
  else if s.granule g = b2n toSealed then s.put .SEAL_GRAN_RES_RESULT 0 3
  else if toSealed && s.fld .SEAL_GRAN_EPOCH g == 2 ^ 24 - 1 then s.put .SEAL_GRAN_RES_RESULT 0 4
  else
    let s := (s.put .SEAL_GRAN_STATE g 2).put .SEAL_GRAN_RES_BUSY 0 1
    (s.setSeal fun x => { x with converting := some (g, toSealed) }).showRoots.recallGranule g

/-- A write to SEAL_GRAN_CMD (R321): only the Postroom's is taken. -/
def State.granCmd (s : State) (p : Port) (v : Nat) : State :=
  if p ≠ .postroom then s.accessError .denied p true (Reg.SEAL_GRAN_CMD.addr 0)
  else match v / 256 % 4 with
    | 1 => s.startConversion (v % 256) true
    | 2 => s.startConversion (v % 256) false
    | _ => s

/-- SEAL_GRAN_CMD is written with OP SEAL (R322). -/
def execGranuleSeal (p : Port) (g : BitVec 8) (s : State) : Host.Outcome State Fault Refusal :=
  .next (s.access p .SEAL_GRAN_CMD 0 true (256 + g.toNat) (·.granCmd p (256 + g.toNat)))

/-- SEAL_GRAN_CMD is written with OP UNSEAL (R322). -/
def execGranuleUnseal (p : Port) (g : BitVec 8) (s : State) : Host.Outcome State Fault Refusal :=
  .next (s.access p .SEAL_GRAN_CMD 0 true (512 + g.toNat) (·.granCmd p (512 + g.toNat)))

/-- The granule takes its new state (R322 step 4): zeros, RESULT DONE, source 160; its requests are served, and the
services that asked for it complete (R395). -/
def State.finishConversion (s : State) (g : Nat) (toSealed : Bool) : State :=
  let s := if toSealed then s.sealGranule g else s.unsealGranule g
  let s := s.setSeal fun x => { x with converting := none }
  let s := ((s.put .SEAL_GRAN_RES_RESULT 0 1).put .SEAL_GRAN_RES_BUSY 0 0).raise 160
  let s := s.completeOn 0x0801 g .OK []
  s.each (List.range 4) fun k s => s.serveStack k

/-- All four shares of the granule under conversion are done (R322): the homes hold no entry of it, the keys exist, and no stack's domain is stopped, held or
being resynchronised, which restarts its share. -/
def execConversionComplete (s : State) : Host.Outcome State Fault Refusal :=
  .next <|
  match s.seals.converting with
  | none => s
  | some (g, toSealed) =>
    let held := s.memo.dir.any (fun e => lineGranule e.1 == g && e.2.st != 0)
    let ready := fun k => s.on .SEAL_LINE_STAT_KEYS k && s.runs (18 + k) && !s.isHeld (18 + k) && !s.on .MEM_STK_STAT_RESYNC k
    if held || !(List.range 4).all ready then s else s.finishConversion g toSealed

end Sys2Proof.Machine
end

