-- ==== Sys2Proof/Machine/Store.lean ====
section
/-! DEFINITION. The STORE and SEAL services (R393..R396), commits (R341, R342) and what the drives answer (R338, R343). -/

namespace Sys2Proof.Machine

/-- How the STORE services are offered (R374); `q` for a QUERY service, which a shut-down leaves (R379). -/
def storeOffer (q : Bool) (n : Nat) : Offer := ⟨.anyOwner, false, q, fixedLen n⟩

/-! ### Operations on the store -/

/-- An operation is pending on a volume (R378). -/
def State.volBusy (s : State) (uid : Nat) : Bool :=
  s.svc.ops.any fun o => [0x0704, 0x0706, 0x0709, 0x070B].contains o.letter.opcode.toNat && o.object == uid

/-- An operation that writes the label is pending on a drive (R378, R379). -/
def State.driveBusy (s : State) (port : Nat) : Bool :=
  s.svc.ops.any fun o => [0x0702, 0x0703].contains o.letter.opcode.toNat && o.object == port

/-- The reads and writes pending on a volume. -/
def State.ioOps (s : State) (uid : Nat) : List PendingOp :=
  s.svc.ops.filter fun o => [0x0707, 0x0708].contains o.letter.opcode.toNat && o.object == uid

/-- The namespace of a drive: its label and size in blocks. -/
def State.space (s : State) (port nsid : Nat) : Option (Nat × Nat) :=
  ((Tbl.find StoreDrive.absent s.store.drives port).spaces.find? (·.1 == nsid)).map (·.2)

/-- 16 bytes of STORE.QUERY for a namespace. -/
def spaceBytes (e : Nat × Nat × Nat) : List Byte := le 4 e.1 ++ le 1 e.2.1 ++ le 3 0 ++ le 8 e.2.2

/-- 48 bytes of STORE.QUERY for a volume. -/
def Volume.queryBytes (v : Volume) : List Byte :=
  le 8 v.uid ++ le 1 v.kind ++ le 1 (b2n v.isSealed) ++ le 1 v.state ++
    (if v.cause = 0 then [0] else [Config.refusalCode v.cause]) ++ le 4 v.size ++ (v.name ++ List.replicate 32 0).take 32

/-- STORE.QUERY (R393). -/
def svcStoreQuery (L : Letter) : Service := fun b s =>
  let j := rd b 0 1
  if 8 ≤ j || !zeros b 1 3 then refuse s L .BAD_PARAM
  else
    let d := Tbl.find StoreDrive.absent s.store.drives j
    okBody s L (le 1 (s.fld .LANE_RP_STAT_PRESENT j) ++ le 1 (s.fld .LANE_RP_STAT_LINK_UP j) ++ le 2 0 ++
      (d.serial ++ List.replicate 20 0).take 20 ++ d.spaces.flatMap spaceBytes ++ (s.volsOf j).flatMap Volume.queryBytes)

/-- STORE.QUERY (R393). -/
def execStoreQuery (L : Letter) (s : State) : Host.Outcome State Fault Refusal :=
  .next (s.serve L (storeOffer true 4) false (svcStoreQuery L))

/-- STORE.FORMAT (R393): accepted, and the label is written. -/
def svcStoreFormat (L : Letter) : Service := fun b s =>
  let j := rd b 0 1
  let ns := rd b 4 4
  if 8 ≤ j || !zeros b 1 3 || (s.space j ns).isNone then refuse s L .BAD_PARAM
  else if s.driveBusy j then refuse s L .BUSY
  else if (s.volsOf j).any (fun v => v.nsid == ns && s.volOpen v.uid) then refuse s L .BUSY
  else accepted s L j [ns]

/-- STORE.FORMAT (R393). -/
def execStoreFormat (L : Letter) (s : State) : Host.Outcome State Fault Refusal :=
  .next (s.serve L (storeOffer false 8) false (svcStoreFormat L))

/-- The volumes of a namespace as extents in MiB, (first, length). -/
def State.extents (s : State) (port nsid : Nat) : List (Nat × Nat) :=
  ((s.volsOf port).filter (·.nsid == nsid)).map fun v => (v.start, volumeMiB v.isSealed v.size)

/-- STORE.VOL_CREATE (R393). -/
def svcStoreVolCreate (L : Letter) : Service := fun b s =>
  let j := rd b 0 1
  let ns := rd b 4 4
  let size := rd b 12 4
  let sp := s.space j ns
  if 8 ≤ j || !zeros b 1 3 || sp.isNone || 5 < rd b 8 1 || 1 < rd b 9 1 || !zeros b 10 2 || size = 0 || 2 ^ 28 < size then
    refuse s L .BAD_PARAM
  else if s.driveBusy j then refuse s L .BUSY
  else if (sp.getD (0, 0)).1 ≠ 1 then refuse s L .NOT_READY
  else if (freeExtent 1 (s.extents j ns) ((sp.getD (0, 0)).2 / 256) (volumeMiB (rd b 9 1 == 1) size)).isNone then
    refuse s L .NO_RESOURCE
  else accepted s L j [ns, size, rd b 9 1, rd b 8 1, rd b 16 32]

/-- STORE.VOL_CREATE (R393). -/
def execStoreVolCreate (L : Letter) (s : State) : Host.Outcome State Fault Refusal :=
  .next (s.serve L (storeOffer false 48) false (svcStoreVolCreate L))

/-- The volume of an identifier in a body, or the refusal of a service on a closed volume: unknown, offline (R345), busy, open. -/
def State.closedVol (s : State) (b : List Byte) : Status ⊕ Volume :=
  match s.vol (rd b 0 8) with
  | none => .inl .BAD_PARAM
  | some v => if v.state = 1 then .inl .NOT_READY else if s.volBusy v.uid || s.volOpen v.uid then .inl .BUSY else .inr v

/-- STORE.VOL_RESIZE (R393). -/
def svcStoreVolResize (L : Letter) : Service := fun b s =>
  let size := rd b 8 4
  match s.closedVol b with
  | .inl st => refuse s L st
  | .inr v =>
    let others := ((s.volsOf v.port).filter (fun w => w.nsid == v.nsid && w.uid != v.uid)).map
      fun w => (w.start, volumeMiB w.isSealed w.size)
    let limit := ((s.space v.port v.nsid).getD (0, 0)).2 / 256
    if size = 0 || 2 ^ 28 < size then refuse s L .BAD_PARAM
    else if !extentFree others limit v.start (volumeMiB v.isSealed size) then refuse s L .NO_RESOURCE
    else accepted s L v.uid [size]

/-- STORE.VOL_RESIZE (R393). -/
def execStoreVolResize (L : Letter) (s : State) : Host.Outcome State Fault Refusal :=
  .next (s.serve L (storeOffer false 12) false (svcStoreVolResize L))

/-- STORE.VOL_DELETE (R393). -/
def svcStoreVolDelete (L : Letter) : Service := fun b s =>
  match s.closedVol b with
  | .inl st => refuse s L st
  | .inr v => accepted s L v.uid []

/-- STORE.VOL_DELETE (R393). -/
def execStoreVolDelete (L : Letter) (s : State) : Host.Outcome State Fault Refusal :=
  .next (s.serve L (storeOffer false 8) false (svcStoreVolDelete L))

/-- STORE.VOL_OPEN (R393, R394): ABANDONED grants the open to the first writer after a reset owner. -/
def svcStoreVolOpen (L : Letter) : Service := fun b s =>
  match s.vol (rd b 0 8) with
  | none => refuse s L .BAD_PARAM
  | some v =>
    let write := rd b 8 1 == 1
    let elsewhere := s.store.opens.any (fun o => o.uid == v.uid && (write || o.write))
    if 1 < rd b 8 1 || !zeros b 9 3 then refuse s L .BAD_PARAM
    else if s.volBusy v.uid || elsewhere then refuse s L .BUSY
    else if v.state ≠ 0 then
      (s, ⟨.NOT_READY, L.handle.toNat, 0, (if v.cause = 0 then [0] else [Config.refusalCode v.cause]) ++ le 3 0⟩)
    else match s.nextIndex kVolume with
      | none => refuse s L .NO_RESOURCE
      | some i =>
        let s := s.createAt kVolume i L.mailbox
        let s := s.setStore fun x => { x with opens := x.opens ++ [⟨i, v.uid, write, L.mailbox⟩] }
        let s := if write then s.updVol v.uid (fun w => { w with abandoned := false }) else s
        (s, ⟨if write && v.abandoned then .ABANDONED else .OK, s.handleOf kVolume i, 0, []⟩)

/-- STORE.VOL_OPEN (R393). -/
def execStoreVolOpen (L : Letter) (s : State) : Host.Outcome State Fault Refusal :=
  .next (s.serve L (storeOffer false 12) false (svcStoreVolOpen L))

/-- What a volume handle names: its open record and the volume, or the failing status (R160, R375). -/
def State.openVol (s : State) (L : Letter) : Status ⊕ (OpenVol × Volume) :=
  match s.checkOwned kVolume L.handle.toNat L.mailbox with
  | some st => .inl st
  | none => match s.openAt (hIndex L.handle.toNat) with
    | none => .inl .STALE_HANDLE
    | some o => match s.vol o.uid with
      | none => .inl .NOT_READY
      | some v => if v.state = 0 then .inr (o, v) else .inl .NOT_READY

/-- An open volume closes: its handle goes. -/
def State.closeVol (s : State) (o : OpenVol) : State :=
  (s.setStore fun x => { x with opens := x.opens.erase o }).destroy kVolume o.idx

/-- STORE.VOL_CLOSE (R393): a sealed volume open for writing closes after its commit; one that is offline closes at once
(R345: no commit runs). -/
def svcStoreVolClose (L : Letter) : Service := fun _ s =>
  match s.checkOwned kVolume L.handle.toNat L.mailbox with
  | some st => refuse s L st
  | none => match s.openAt (hIndex L.handle.toNat) with
    | none => refuse s L .STALE_HANDLE
    | some o =>
      let v := s.vol o.uid
      let commits := o.write && (match v with
        | some v => v.isSealed && v.state == 0
        | none => false)
      if s.volBusy o.uid || !(s.ioOps o.uid).isEmpty then refuse s L .BUSY
      else if commits then accepted s L o.uid [o.idx]
      else okBody (s.closeVol o) L []

/-- STORE.VOL_CLOSE (R393). -/
def execStoreVolClose (L : Letter) (s : State) : Host.Outcome State Fault Refusal :=
  .next (s.serve L (storeOffer false 0) false (svcStoreVolClose L))

/-- The range and address of a STORE.READ or STORE.WRITE are good (R361, R393). -/
def goodIo (owner : Nat) (v : Volume) (b : List Byte) : Bool :=
  let off := rd b 0 8
  let len := rd b 8 4
  let host := decide (0x50 ≤ owner) && decide (owner ≤ 0x53)
  off % 4096 == 0 && len % 4096 == 0 && len != 0 && decide (len ≤ 2 ^ 26) && decide (off + len ≤ v.size * 2 ^ 20) &&
    zeros b 13 3 && rd b 16 8 % 64 == 0 &&
    (if rd b 12 1 = 0 then host else rd b 12 1 == 1 && decide (rd b 16 8 + len ≤ 2 ^ 38))

/-- STORE.READ and STORE.WRITE (R378, R393). -/
def svcStoreIo (write : Bool) (L : Letter) : Service := fun b s =>
  match s.openVol L with
  | .inl st => refuse s L st
  | .inr (o, v) =>
    if !goodIo (s.fld .PST_MB_OWNER_OWNER L.mailbox) v b then refuse s L .BAD_PARAM
    else if write && !o.write then refuse s L .DENIED
    else if s.volBusy v.uid || decide (64 ≤ (s.ioOps v.uid).length) then refuse s L .BUSY
    else accepted s L v.uid [rd b 0 8, rd b 8 4, rd b 12 1, rd b 16 8]

/-- STORE.READ (R393). -/
def execStoreRead (L : Letter) (s : State) : Host.Outcome State Fault Refusal :=
  .next (s.serve L (storeOffer false 24) false (svcStoreIo false L))

/-- STORE.WRITE (R393). -/
def execStoreWrite (L : Letter) (s : State) : Host.Outcome State Fault Refusal :=
  .next (s.serve L (storeOffer false 24) false (svcStoreIo true L))

/-- A block passes to its drive (R338): one of a sealed volume is sealed, and takes a new counter and tag (R339). -/
def State.outBlock (s : State) (uid b data : Nat) : State :=
  match s.vol uid with
  | none => s
  | some v =>
    let w := s.wroteBlock b data v
    if v.isSealed then ((s.perf 8 0 0 1 none).updVol uid fun _ => w).emit (.driveBlock uid b (s.encryptBlock uid b (w.counter b) data))
    else s.emit (.driveBlock uid b data)

/-- The blocks of a write pass to their drive. -/
def State.wroteBlocks (s : State) (uid off n : Nat) (data : List StoreBlock) : State :=
  s.each (List.range (n / 4096)) fun k s => s.outBlock uid (off / 4096 + k) (data.getD k 0).toNat

/-- An earlier write that overlaps a read or write of its volume is still pending (R378): this one takes effect after it. -/
def State.afterWrite (s : State) (o : PendingOp) : Bool :=
  let first := fun (p : PendingOp) => p.args.headD 0
  let past := fun (p : PendingOp) => p.args.headD 0 + (p.args[1]?).getD 0
  ((s.ioOps o.object).takeWhile (· != o)).any fun p => p.letter.opcode == 0x0708 && decide (first p < past o) && decide (first o < past p)

/-- What an operation writes (R393): blocks read from stacked memory by the store seal engine, up to the first that cannot be read (R310, R330), or from its host as the
command gives them; whether all `n` bytes could be. -/
def State.opBlocks (s : State) (o : PendingOp) (n : Nat) (given : List StoreBlock) : State × Bool × List StoreBlock :=
  if (o.args[2]?).getD 0 = 1 then
    (List.range (n / 4096)).foldl (fun (t : State × Bool × List StoreBlock) k =>
      if !t.2.1 then t
      else
        let r := t.1.readBytes 38 ((o.args[3]?).getD 0 + 4096 * k) 4096
        if r.2.1 = 0 then (r.1, true, t.2.2 ++ [BitVec.ofNat 32768 (ofLe r.2.2)]) else (r.1, false, t.2.2)) (s, true, [])
  else (s, true, given)

/-- Stacked memory that an operation reads or has written is not open to it now (R97, R313, R315, R322). -/
def State.ioWaits (s : State) (o : PendingOp) : Bool :=
  (o.args[2]?).getD 0 == 1 && (s.closedLine ((o.args[3]?).getD 0) ((o.args[1]?).getD 0)).isSome

/-- How many bytes a read brought before the first block that failed its check (R343), of the first that did. -/
def PendingOp.failedAt (o : PendingOp) : Option Nat := o.args[4]?

/-- A store read or write ends (R393): its completion letter states the bytes done, all of them when it is OK. A write ends with TRANSFER_FAILED behind what stacked
memory could not give (DEDUCED from R361, assumption 96), a read with INTEGRITY where a block failed its check (R343). The blocks that a read releases are commands
of their own. -/
def execStoreIoComplete (e : IoEnd) (s : State) : Host.Outcome State Fault Refusal :=
  .next <|
  let op := if e.write then 0x0708 else 0x0707
  match (s.ioOps e.uid.toNat).find? (fun o => o.letter.opcode.toNat == op && o.args.head? == some e.offset) with
  | none => s
  | some o =>
    if s.afterWrite o || s.ioWaits o then s else
    let len := (o.args[1]?).getD 0
    let n := if e.status = .OK then len else min e.done len
    if e.write then
      let r := s.opBlocks o n e.blocks
      let m := if r.2.1 then n else 4096 * r.2.2.length
      ((r.1.wroteBlocks e.uid.toNat e.offset m r.2.2).showStore).complete o (if r.2.1 then e.status else .TRANSFER_FAILED) o.letter.handle.toNat 0 (le 8 m)
    else match o.failedAt with
      | some k => s.complete o .INTEGRITY o.letter.handle.toNat 0 (le 8 (min k n))
      | none => s.complete o e.status o.letter.handle.toNat 0 (le 8 n)

/-- STORE.FLUSH (R393): the commit it asks for begins as a command of its own. -/
def svcStoreFlush (L : Letter) : Service := fun _ s =>
  match s.openVol L with
  | .inl st => refuse s L st
  | .inr (_, v) => if s.volBusy v.uid then refuse s L .BUSY else accepted s L v.uid []

/-- STORE.FLUSH (R393). -/
def execStoreFlush (L : Letter) (s : State) : Host.Outcome State Fault Refusal :=
  .next (s.serve L (storeOffer false 0) false (svcStoreFlush L))

/-- STORE.SET_COMMIT (R393). -/
def svcStoreSetCommit (L : Letter) : Service := fun b s =>
  let n := rd b 0 4
  if n < 10 || 10000 < n then refuse s L .BAD_PARAM
  else okBody ((s.setStore fun x => { x with interval := n ^^^ 100 }).showStore) L []

/-- STORE.SET_COMMIT (R393). -/
def execStoreSetCommit (L : Letter) (s : State) : Host.Outcome State Fault Refusal :=
  .next (s.serve L (storeOffer false 4) false (svcStoreSetCommit L))

/-! ### Commits -/

/-- The flushes and closes pending on a volume that the commit in progress covers: those accepted before it began (R341); `all`: every one. -/
def State.flushOps (s : State) (uid : Nat) (all : Bool) : List PendingOp :=
  s.svc.ops.filter fun o => [0x0706, 0x0709].contains o.letter.opcode.toNat && o.object == uid && (all || o.args.getLast? == some (2 ^ 64))

/-- A commit that begins covers the flushes and closes pending now: each is marked. A plain volume's wait for the drive's flush. -/
def State.coverFlushes (s : State) (uid : Nat) : State :=
  let mine := fun (o : PendingOp) => [0x0706, 0x0709].contains o.letter.opcode.toNat && o.object == uid
  { s with svc := { s.svc with ops := s.svc.ops.map fun o => if mine o then { o with args := o.args ++ [2 ^ 64] } else o } }

/-- The flushes and closes that a commit covers end with it; a close lets its handle go. -/
def State.endFlush (s : State) (uid : Nat) (st : Status) (all : Bool) : State :=
  s.each (s.flushOps uid all) fun o s =>
    let s := if o.letter.opcode.toNat = 0x0706 then (match s.openAt (o.args.headD 0) with
      | some v => s.closeVol v
      | none => s) else s
    s.complete o st o.letter.handle.toNat 0 []

/-- A commit begins (R341): the commit interval has ended with dirty nodes, or a flush, a close or a shut-down asks for it. -/
def execCommitStart (uid : BitVec 64) (s : State) : Host.Outcome State Fault Refusal :=
  .next <|
  match s.vol uid.toNat with
  | none => s
  | some v =>
    let closing := (s.findOp 0x0706 v.uid).isSome || s.power.leaving.isSome
    let asked := closing || (s.findOp 0x0709 v.uid).isSome
    if v.state ≠ 0 || v.step ≠ 0 then s
    else if !asked && !v.isDirty then s
    else
      let s := if v.isSealed then s.startCommit v.uid closing else s.updVol v.uid fun w => { w with step := 2 }
      (s.coverFlushes v.uid).emit (.driveFlush v.port)

/-- A flush of the drive completes (R341): after step 2 the snapshot nodes are written, after step 4 the root record; a
failed one abandons the commit. A plain volume's flush service ends with it. -/
def execCommitFlushDone (uid : BitVec 64) (ok : Bool) (s : State) : Host.Outcome State Fault Refusal :=
  .next <|
  match s.vol uid.toNat with
  | none => s
  | some v =>
    if v.step ≠ 2 && v.step ≠ 4 then s
    else if !ok then
      let s := if v.isSealed then s.abandonCommit v.uid else s.updVol v.uid (fun w => { w with step := 0 })
      s.endFlush v.uid .DRIVE_ERROR false
    else if !v.isSealed then (s.updVol v.uid (fun w => { w with step := 0 })).endFlush v.uid .OK false
    else ((s.when (v.step == 2) (·.writeNodes v)).updVol v.uid (fun w => { w with step := v.step + 1 })).showStore

/-- The root record is written and the commit is done (R341 step 5, R342): the services that waited for it complete. Where the root area is read-only the
commit is abandoned (R437). -/
def execCommitDone (uid : BitVec 64) (s : State) : Host.Outcome State Fault Refusal :=
  .next <|
  match s.vol uid.toNat with
  | none => s
  | some v =>
    if v.step ≠ 5 || !v.isSealed then s
    else if s.rootReadOnly then (s.abandonCommit v.uid).endFlush v.uid .DRIVE_ERROR false
    else (s.endCommit v).endFlush v.uid .OK false

/-- The label of a drive is written: what its first pending service asked for takes effect (R393). A deleted sealed volume's
record is RETIRED, a created one gets its first record; its VOLUME_UID is drawn from the generator, for which it waits (R512). -/
def State.labelWritten (s : State) (o : PendingOp) : State :=
  let arg := fun (k : Nat) => (o.args[k]?).getD 0
  let ended := fun (s : State) (body : List Byte) => s.complete o .OK o.letter.handle.toNat 0 body
  match o.letter.opcode.toNat with
  | 0x0702 =>
    let ns := o.args.headD 0
    let d := Tbl.find StoreDrive.absent s.store.drives o.object
    let spaces := d.spaces.map fun e => if e.1 = ns then (e.1, 1, e.2.2) else e
    ended ((s.setStore fun x => { x with
      drives := Tbl.set StoreDrive.absent x.drives o.object { d with spaces := spaces }
      vols := x.vols.filter fun v => v.port != o.object || v.nsid != ns }).showStore) []
  | 0x0703 =>
    let ns := o.args.headD 0
    let size := arg 1
    let isSealed := arg 2 == 1
    if !s.rngReady then s else
    let uid := s.draw % 2 ^ 64
    let s := s.drew
    let limit := ((s.space o.object ns).getD (0, 0)).2 / 256
    match freeExtent 1 (s.extents o.object ns) limit (volumeMiB isSealed size) with
    | none => s.complete o .NO_RESOURCE o.letter.handle.toNat 0 []
    | some a =>
      let s := if isSealed then s.firstRoot uid (size * 256) else s
      let s := s.bringUp o.object ns ⟨BitVec.ofNat 64 uid, Fin.ofNat 6 (arg 3), isSealed, a, size, le 32 (arg 4), 0⟩
      ended s (le 8 uid)
  | 0x070B =>
    let size := o.args.headD 0
    let range := s.rangeFor o.object size
    let leaves := ((s.vol o.object).map (·.state == 0)).getD false && range.isNone
    let s := (s.updVol o.object fun v => { v with size := size, base := range.getD 0, state := if leaves then 1 else v.state }).when leaves (·.raise 162)
    ended (s.rebuildNodes o.object).showStore []
  | 0x0704 =>
    let s := match s.rootOf o.object with
      | some r => s.writeRoot { r with retired := true }
      | none => s
    ended ((s.setStore fun x => { x with vols := x.vols.filter fun v => v.uid != o.object || v.cause == 4 }).showStore) []
  | _ => s

/-- The label services pending on a drive, oldest first. -/
def State.labelOps (s : State) (port : Nat) : List PendingOp :=
  s.svc.ops.filter fun o =>
    let op := o.letter.opcode.toNat
    ((op == 0x0702 || op == 0x0703) && o.object == port) ||
      ((op == 0x0704 || op == 0x070B) && (match s.vol o.object with
        | some v => v.port == port
        | none => false))

/-- A drive completes writes (R341, R393): of a commit's snapshot nodes, so that the second flush follows, or of a label, so that its
service ends; a failure abandons the commit or ends the service with DRIVE_ERROR. -/
def execDriveWriteDone (w : DriveWrite) (ok : Bool) (s : State) : Host.Outcome State Fault Refusal :=
  .next <|
  match w with
  | .nodes uid => match s.vol uid.toNat with
    | none => s
    | some v =>
      if v.step ≠ 3 then s
      else if ok then ((s.updVol v.uid (fun w => { w with step := 4 })).showStore).emit (.driveFlush v.port)
      else (s.abandonCommit v.uid).endFlush v.uid .DRIVE_ERROR false
  | .label port => match s.labelOps port with
    | [] => s
    | o :: _ => if ok then s.labelWritten o else s.complete o .DRIVE_ERROR o.letter.handle.toNat 0 []

/-- The pending STORE.READ that brings block `b` of a volume (R393). -/
def State.readOf (s : State) (uid b : Nat) : Option PendingOp :=
  (s.ioOps uid).find? fun o =>
    o.letter.opcode == 0x0707 && decide (o.args.headD 0 ≤ 4096 * b) && decide (4096 * b < o.args.headD 0 + (o.args[1]?).getD 0)

/-- The stacked-memory address to which it brings the block (R361). -/
def State.blockDest (s : State) (uid b : Nat) : Option Nat :=
  (s.readOf uid b).bind fun o => if (o.args[2]?).getD 0 = 1 then some ((o.args[3]?).getD 0 + 4096 * b - o.args.headD 0) else none

/-- A block is released to its destination in stacked memory, or on its way to a host or to the firmware (R338). -/
def State.releaseBlock (s : State) (uid b v : Nat) : State :=
  match s.blockDest uid b with
  | some a => s.storeWrite a (le 4096 v)
  | none => s.emit (.storeBlock uid b v)

/-- The read that was to have a block that failed is told so (R343): how many bytes lie before it. -/
def State.failRead (s : State) (uid b : Nat) : State :=
  match s.readOf uid b with
  | none => s
  | some o =>
    let k := 4096 * b - o.args.headD 0
    let o' := { o with args := o.args.take 4 ++ [min k (o.failedAt.getD k)] }
    { s with svc := { s.svc with ops := s.svc.ops.map fun p => if p = o then o' else p } }

/-- A block arrives from a drive (R338, R343): a sealed one is checked, with the nodes fetched for it, before it is decrypted and released; one that fails is
not delivered and is counted. A plain one passes through unchanged. A STORE.READ waits for earlier writes to what it reads (R378). -/
def execStoreBlockRead (uid : BitVec 64) (block : BitVec 36) (content : DriveRead) (s : State) : Host.Outcome State Fault Refusal :=
  .next <|
  match s.vol uid.toNat with
  | none => s
  | some v =>
    let b := block.toNat
    if ((s.readOf v.uid b).map s.afterWrite).getD false then s
    else if !v.isSealed then s.releaseBlock v.uid b content.content.toNat
    else if s.blockChecks v b content then
      ((s.cacheNodes v b).releaseBlock v.uid b (s.decryptBlock v.uid b (v.counter b) content.content.toNat)).perf 8 0 1 1 none
    else (s.blockFails v).failRead v.uid b

/-- A read of SEAL_STORE_CNT returns the counts and clears them (R346). -/
def execSealStoreCntRead (p : Port) (s : State) : Host.Outcome State Fault Refusal :=
  .next (s.access p .SEAL_STORE_CNT 0 false 0 (·.readClear p .SEAL_STORE_CNT 0))

/-! ### Granules and the pool (R395, R396) -/

/-- The pool mask: granules 248..255 at start-up. -/
def State.poolMask (s : State) : Nat := s.seals.pool ^^^ (255 * 2 ^ 248)

/-- The granules that hold firmware buffers: 255 its own, and those of channels' buffers. -/
def State.bufferGranules (s : State) : List Nat :=
  255 :: s.allocs.flatMap fun e => (List.range (lineGranule (e.1 + e.2 - 1) - lineGranule e.1 + 1)).map (lineGranule e.1 + ·)

/-- SEAL.CONVERT (R395). -/
def svcSealConvert (L : Letter) : Service := fun b s =>
  let g := rd b 0 1
  let op := rd b 1 1
  if op = 0 || 2 < op || !zeros b 2 2 then refuse s L .BAD_PARAM
  else if s.on .SEAL_GRAN_RES_BUSY 0 || s.oneRuns then refuse s L .BUSY
  else if s.bufferGranules.contains g then refuse s L .BUSY
  else if op = 1 && s.fld .SEAL_GRAN_EPOCH g == 2 ^ 24 - 1 && s.granule g != 1 then refuse s L .NO_RESOURCE
  else accepted s L g [op]

/-- The Postroom writes SEAL_GRAN_CMD for an accepted SEAL.CONVERT (R321, R395); one that finds the granule in the state asked for
completes OK. -/
def State.runConvert (s : State) : State :=
  match s.svc.ops.find? (fun o => o.letter.opcode.toNat == 0x0801) with
  | none => s
  | some o =>
    if s.on .SEAL_GRAN_RES_BUSY 0 then s
    else
      let s := s.startConversion o.object (o.args.headD 0 == 1)
      if s.fld .SEAL_GRAN_RES_RESULT 0 = 3 then s.complete o .OK o.letter.handle.toNat 0 [] else s

/-- SEAL.CONVERT (R395): the conversion starts behind the reply. -/
def execSealConvert (L : Letter) (s : State) : Host.Outcome State Fault Refusal :=
  .next (s.serve L ⟨.admin, false, false, fixedLen 4⟩ false (svcSealConvert L)).runConvert

/-- SEAL.QUERY (R395). -/
def svcSealQuery (L : Letter) : Service := fun _ s =>
  okBody s L ((List.range 256).flatMap (fun g => le 4 (s.regWord .SEAL_GRAN g)) ++ le 32 s.poolMask)

/-- SEAL.QUERY (R395). -/
def execSealQuery (L : Letter) (s : State) : Host.Outcome State Fault Refusal :=
  .next (s.serve L ⟨.anyOwner, false, true, fixedLen 0⟩ false (svcSealQuery L))

/-- SEAL.POOL (R395, R396). -/
def svcSealPool (L : Letter) : Service := fun b s =>
  let m := rd b 0 32
  if s.bufferGranules.any (fun g => bitOf s.poolMask g && !bitOf m g) then refuse s L .BUSY
  else okBody (s.setSeal fun x => { x with pool := m ^^^ (255 * 2 ^ 248) }) L []

/-- SEAL.POOL (R395). -/
def execSealPool (L : Letter) (s : State) : Host.Outcome State Fault Refusal :=
  .next (s.serve L ⟨.admin, false, false, fixedLen 32⟩ false (svcSealPool L))

/-- The volumes of a drive go offline (R345, R180): services pending on them end with DRIVE_ERROR, with the bytes that the drive had done, which no row carries, so that
they are a free value (DESIGN CHOICE, assumption 96). -/
def State.drivesOff (s : State) (port : Nat) : State :=
  let s := s.each ((s.volsOf port).filter (·.cause != 4)) fun v s =>
    let s := s.each (s.ioOps v.uid) fun o s =>
      s.drew.complete o .DRIVE_ERROR o.letter.handle.toNat 0 (le 8 (4096 * (s.draw % ((o.args[1]?).getD 0 / 4096 + 1))))
    (s.volDown v.uid).endFlush v.uid .DRIVE_ERROR true
  let s := s.each (s.labelOps port) fun o s => s.complete o .DRIVE_ERROR o.letter.handle.toNat 0 []
  (s.setStore fun x => { x with
    drives := Tbl.set StoreDrive.absent x.drives port StoreDrive.absent
    vols := x.vols.filter fun v => v.port != port || v.cause != 4 }).offlineChannels

end Sys2Proof.Machine
end

