-- ==== Sys2Proof/Machine/Lanes.lean ====
section
/-! DEFINITION. Lanes and standard protocols (chapter 10): line rate (R239, R240), equalisation (R241, R242), loss of signal and lock
(R243..R245), lane resets (R246, R247), binding (R248, R249), the endpoint (R252, R253), the root ports (R254, R255) and Ethernet
(R257..R259). -/

namespace Sys2Proof.Machine

/-! ### Rate and taps -/

/-- Event source 112 + 2k of the octet of lane `l` (R263). -/
def laneSource (l : Nat) : Nat := 112 + 2 * (l / 8)

/-- A write that a protocol's ownership makes ignored (R239, R241, R261). -/
def State.laneOwned (s : State) (l : Nat) : State := s.put .LANE_ERR_OWNED l 1

/-- A rate is refused (R239, R240): outside the range of its modulation, above WCLK, above 57,344 on lanes 140..143, or other than the
ring's while it is joined. -/
def State.rateRefused (s : State) (l rate : Nat) (pam4 : Bool) : Bool :=
  let r := (l - 140) / 2
  let ring := ringRate (s.fld .LNK_RING_CTL_RATE r)
  (if pam4 then decide (rate < 54400) || decide (262144 < rate) else decide (rate < 1280) || decide (32768 < rate)) ||
    decide (s.fld .DEV_OCT_CLK_WCLK (l / 8) * (if pam4 then 256 else 64) < rate) ||
    (decide (140 ≤ l) && (decide (57344 < rate) || (s.on .LNK_RING_CTL_JOIN r && decide ((rate, pam4) ≠ ring))))

/-- A write of LANE_RATE[l] (R239, R240). -/
def State.laneRate (s : State) (l v : Nat) : State :=
  let rate := v % 2 ^ 19
  let pam4 := bitOf v 19
  if s.standard l then s.laneOwned l
  else if s.rateRefused l rate pam4 then (s.put .LANE_ERR_RATE_REF l 1).raiseOf (laneSource l) .LANE_ERR l
  else (s.put .LANE_RATE_RATE l rate).put .LANE_RATE_PAM4 l (b2n pam4)

/-- A write to LANE_RATE[l]. -/
def execLaneRateWrite (p : Port) (l : Fin 144) (value : Word) (s : State) : Host.Outcome State Fault Refusal :=
  .next (s.access p .LANE_RATE l true value.toNat (·.laneRate l value.toNat))

/-- A write of LANE_TXEQ[l] (R241): with MODE 1 it sets the starting taps of the next training, with MODE 0 the taps in use. -/
def State.laneTxeq (s : State) (l v : Nat) : State :=
  let pre := v % 32
  let post := v / 256 % 64
  if s.standard l then s.laneOwned l
  else if badTaps pre post then (s.put .LANE_ERR_TXEQ_REF l 1).raiseOf (laneSource l) .LANE_ERR l
  else
    let s := (s.setLaneSet l { s.laneSet l with pre := pre, post := post }).put .LANE_TXEQ_MODE l (v / 2 ^ 24)
    s.when (!bitOf v 24) (·.showTaps l pre post)

/-- A write to LANE_TXEQ[l]. -/
def execLaneTxeqWrite (p : Port) (l : Fin 144) (value : Word) (s : State) : Host.Outcome State Fault Refusal :=
  .next (s.access p .LANE_TXEQ l true value.toNat (·.laneTxeq l value.toNat))

/-! ### Adaptation, signal and lock -/

/-- The receiver changes its settings by at most one step each (R242). -/
def oneStep (bits a b : Nat) : Bool := decide ((signed bits a - signed bits b).natAbs ≤ 1)

/-- The receiver of lane `l` uses these settings. -/
def State.adapted (s : State) (l ctle dfe : Nat) : State :=
  s.each [0, 1, 2] (fun w s => s.put .LANE_DFE_TAPS (l * 3 + w) (dfe / 2 ^ (32 * w))) |>.put .LANE_RXEQ_CTLE_RD l ctle

/-- Initial adaptation ends (R242): the settings in use are shown, which in manual mode are those written. Where it has ended before, the receiver that
adapts once keeps its settings, and the one that goes on adapting moves each by at most one step in 10 µs. -/
def execAdaptDone (l : Fin 144) (ctle : BitVec 5) (dfe : BitVec 96) (s : State) : Host.Outcome State Fault Refusal :=
  .next <|
  let mode := s.fld .LANE_RXEQ_MODE l
  if !s.on .LANE_STAT_LOCK l then s
  else if mode = 2 then (s.put .LANE_STAT_ADAPT_DONE l 1).showManual l
  else if !s.on .LANE_STAT_ADAPT_DONE l then ((s.put .LANE_STAT_ADAPT_DONE l 1).adapted l ctle.toNat dfe.toNat).startTimer .adapt l
  else
    let near := oneStep 6 ctle.toNat (s.fld .LANE_RXEQ_CTLE_RD l) &&
      (List.range 12).all fun t => oneStep 8 (dfe.toNat / 256 ^ t % 256) (s.fld .LANE_DFE_TAPS (l * 3 + t / 4) / 256 ^ (t % 4) % 256)
    if mode = 1 || !near || !s.lapsed .adapt l 10000 then s else (s.adapted l ctle.toNat dfe.toNat).startTimer .adapt l

/-- A lane of an ACTIVE link fails (R286): the end that sees it asks for the mask without it. -/
def State.failLane (s : State) (l : Nat) : State :=
  match s.linkOf l with
  | some m => s.laneFails m (2 ^ (l - m))
  | none => s

/-- A loss is recorded (R244, R245): its sticky bit, its count, FIRST, and source 112 + 2k; a Plynik link loses the lane (R286). -/
def State.laneLoss (s : State) (l : Nat) (bit cnt : Fld) (first : Nat) : State :=
  let s := s.when (s.fld .LANE_ERR_FIRST l == 0) (·.put .LANE_ERR_FIRST l first)
  ((((s.put bit l 1).bump cnt l 1)).raiseOf (laneSource l) .LANE_ERR l).failLane l

/-- Loss of signal (R243, R245): not recorded during an electrical idle that the endpoint's or a root port's protocol has announced. -/
def execLosAssert (l : Fin 144) (announced : Bool) (s : State) : Host.Outcome State Fault Refusal :=
  .next <|
  if s.on .LANE_STAT_LOS l then s
  else
    let quiet := announced && (s.bindOf l == 1 || s.bindOf l == 2)
    let s := (s.put .LANE_STAT_LOS l 1).put .LANE_STAT_LOCK l 0
    if quiet then s else s.laneLoss l .LANE_ERR_LOS .LANE_ERRCNT_LOS_N 1

/-- The amplitude has stayed above the threshold for 10 µs (R243). -/
def execLosClear (l : Fin 144) (s : State) : Host.Outcome State Fault Refusal := .next (s.put .LANE_STAT_LOS l 0)

/-- Frequency and phase have held for 16 µs (R244); while LOS is asserted LOCK stays 0. -/
def execLaneLock (l : Fin 144) (s : State) : Host.Outcome State Fault Refusal :=
  .next (if s.on .LANE_STAT_LOS l || s.on .LANE_STAT_RESETTING l || !s.laneStarts l then s else (s.put .LANE_STAT_LOCK l 1).startTimer .lock l)

/-- Loss of lock (R244, R245); while LOS is asserted none is declared. -/
def execLaneLol (l : Fin 144) (s : State) : Host.Outcome State Fault Refusal :=
  .next <|
  if s.on .LANE_STAT_LOS l || !s.on .LANE_STAT_LOCK l then s
  else (s.put .LANE_STAT_LOCK l 0).laneLoss l .LANE_ERR_LOL .LANE_ERRCNT_LOL_N 2

/-! ### Lane reset (R246, R247) -/

/-- Class L state of a lane is cleared (R247 step 3); a lane that is not enabled, or that PCIE_PERST_N holds (R253), stops there, and RESETTING stays. One that runs on uses what software wrote where
its receiver is set by hand. -/
def State.clearLane (s : State) (l : Nat) : State :=
  let s := s.each [.LANE_STAT_LOCK, .LANE_STAT_ADAPT_DONE, .LANE_RXEQ_CTLE_RD, .LANE_CUR_CUR, .LANE_CNT_PRBS_ERR] fun f s => s.clr f l
  let s := s.each [0, 1, 2] fun w s => s.put .LANE_DFE_TAPS (l * 3 + w) 0
  let s := s.when (s.laneOn l && s.fld .LANE_RXEQ_MODE l == 2) (·.showManual l)
  (s.put .LANE_STAT_LOS l 1).put .LANE_STAT_RESETTING l (b2n (!s.laneStarts l))

/-- What a lane was being handed is lost with it, as an underrun (R182). -/
def State.losePartial (s : State) (l : Nat) : State :=
  let lost := ((s.partLine l).map fun e => (l, e.1, e.2)).toList
  ((s.dropPartial l).unsent lost).underruns lost

/-- A lane reset (R247): its transmitter goes to electrical idle, discards are counted and poison released with CAUSE 2, class L state is cleared, and a link
whose first lane it is goes DORMANT with RESET (R283). -/
def State.laneReset (s : State) (l : Nat) (lost : Lost) : State :=
  let s := match s.linkOf l with
    | some m =>
      if m = l then if s.fld .LNK_STAT_STATE m != 0 then s.goDormant m 0x0B else (s.losePartial l).clearLink l
      else (s.losePartial l).failLane l
    | none => s
  let s := (s.emit (.laneIdle l)).release (l / 8) 2 l lost.entries lost.targets
  (s.lostLines l lost).clearLane l

/-- A reset of lane `l` alone; `lost` by lane of the octet. That of a link's first lane takes what the queues hold of the link's other lanes too (R283, R292). -/
def State.resetLane (s : State) (l : Nat) (lost : List Lost) : State :=
  let first := s.on .LNK_CTL_EN l && s.fld .LNK_STAT_STATE l != 0
  (s.laneReset l (lost.getD (l % 8) ⟨0, [], []⟩)).when first (·.loseQueues l lost (· != l))

/-- A write of LANE_CTL[l] (R246, R261): on a lane of a standard protocol EN, RESET, LOOP and PRBS stay, and OWNED is set where the write
would change them. -/
def State.laneCtl (s : State) (l v : Nat) (lost : List Lost) : State :=
  let loop := v / 8 % 4
  let prbs := v / 32 % 8
  let en := v % 2
  let reset := bitOf v 8
  let s := ((s.put .LANE_CTL_POL_TX l (v / 2)).put .LANE_CTL_POL_RX l (v / 4)).put .LANE_CTL_AMP l (v / 2 ^ 9)
  let s := s.put .LANE_CTL_LOS_THR l (v / 2 ^ 12)
  if s.standard l then
    s.when (en != s.fld .LANE_CTL_EN l || reset || loop != s.fld .LANE_CTL_LOOP l || prbs != s.fld .LANE_CTL_PRBS l) (·.laneOwned l)
  else
    let was := s.on .LANE_CTL_EN l
    let s := ((s.put .LANE_CTL_LOOP l loop).put .LANE_CTL_PRBS l prbs).put .LANE_CTL_EN l en
    if reset || en = 0 then s.resetLane l lost
    else if was then s
    else (s.put .LANE_STAT_RESETTING l 0).when (s.fld .LANE_RXEQ_MODE l == 2) (·.showManual l)

/-- A lane reset started by a write of RESET (`by` names its port), or requested by the lane's protocol layer. -/
def execLaneReset (l : Fin 144) (by_ : Option Port) (lost : List Lost) (s : State) : Host.Outcome State Fault Refusal :=
  .next <|
  match by_ with
  | some p => s.access p .LANE_CTL l true (s.regWord .LANE_CTL l ||| 256) fun s => if s.standard l then s.laneOwned l else s.resetLane l lost
  | none => s.resetLane l lost

/-- A write to LANE_CTL[l] that sets or clears EN. -/
def execLaneEnWrite (p : Port) (l : Fin 144) (value : Word) (lost : List Lost) (s : State) : Host.Outcome State Fault Refusal :=
  .next (s.access p .LANE_CTL l true value.toNat (·.laneCtl l value.toNat lost))

/-- The PRBS checker of a lane is at work (R261): PRBS13Q is for PAM4 only. -/
def State.prbsRuns (s : State) (l : Nat) : Bool :=
  let p := s.fld .LANE_CTL_PRBS l
  s.runs (l / 8) && s.laneOn l && ((decide (1 ≤ p) && decide (p ≤ 3)) || (p == 4 && bitOf (s.fld .LANE_CUR_CUR l) 19))

/-- A read of LANE_CNT[l] returns and clears the PRBS error count, to which the errors found since the last read have been added (R261). -/
def execLaneCntRead (p : Port) (x : PrbsRead) (s : State) : Host.Outcome State Fault Refusal :=
  let l := x.lane.val
  .next ((s.when (s.prbsRuns l) (·.bump .LANE_CNT_PRBS_ERR l x.errors.toNat)).access p .LANE_CNT l false 0 (·.readClear p .LANE_CNT l))

/-- A read of LANE_ERRCNT[l] returns and clears both counts. -/
def execLaneErrcntRead (p : Port) (l : Fin 144) (s : State) : Host.Outcome State Fault Refusal :=
  .next (s.access p .LANE_ERRCNT l false 0 (·.readClear p .LANE_ERRCNT l))

/-! ### Binding (R248, R249) -/

/-- A lane may not be claimed (R249): it is enabled, or bound to a channel. -/
def State.laneBusy (s : State) (l : Nat) : Bool := s.on .LANE_CTL_EN l || (s.chanOfLane l).isSome

/-- The lanes of octet `k` that a write of DEV_OCT_PROTO would claim (for octet 0 those of the endpoint, in both octets). -/
def claims (k v : Nat) : List Nat :=
  if k = 0 then List.range (codedWidth (v % 8))
  else if 2 ≤ k && k ≤ 5 then
    (List.range (codedWidth (v % 4))).map (8 * k + ·) ++ (List.range (codedWidth (v / 4 % 4))).map (8 * k + 4 + ·)
  else if 6 ≤ k && k ≤ 9 then (ethPorts k (v % 8) (v / 256 % 256)).flatMap fun e => (List.range e.2).map (e.1 + ·)
  else []

/-- Event source 113 + 2k of root port `j`. -/
def rpSource (j : Nat) : Nat := 113 + 2 * (2 + j / 2)

/-- The step of root port `j`. -/
def State.stageOf (s : State) (j : Nat) : Nat := Tbl.find 0 s.ports.stage j

/-- Sets the step of root port `j`; RP_REFCLK runs from step 1 on, and RP_PERST_N is high from step 2 on (R255). Without a drive in use the clock stands, which
no rule says (assumption 95). -/
def State.setStage (s : State) (j v : Nat) : State :=
  let old := s.stageOf j
  let s := { s with ports := { s.ports with stage := Tbl.set 0 s.ports.stage j v } }
  s.when (decide (min old 2 ≠ min v 2)) (·.emit (.rootPort j (decide (2 ≤ v)) (decide (1 ≤ v))))

/-- A root port that a write or a reset turns off: what the firmware had of its drive goes (R255), and the change raises its source (R263). -/
def State.rpOff (s : State) (j : Nat) : State :=
  let up := s.on .LANE_RP_STAT_LINK_UP j
  let seen := up || s.on .LANE_RP_STAT_PRESENT j
  let s := s.each [.LANE_RP_STAT_PRESENT, .LANE_RP_STAT_LINK_UP, .LANE_RP_STAT_WIDTH, .LANE_RP_STAT_RATE] fun f s => s.put f j 0
  let s := (s.setStage j 0).when seen (·.raise (rpSource j))
  if up then s.drivesOff j else s

/-- The link and the faults of Ethernet port `e` go, which raises its octet's source where they stood (R263). -/
def State.ethDown (s : State) (e : Nat) : State :=
  let fs : List Fld := [.LANE_ETH_STAT_LINK_UP, .LANE_ETH_STAT_LOCAL_FAULT, .LANE_ETH_STAT_REMOTE_FAULT]
  let seen := fs.any fun f => s.on f (e - 48)
  (s.each fs fun f s => s.put f (e - 48) 0).when seen (·.raise (octetSource e))

/-- A write of DEV_OCT_PROTO[k] (R249, R257, R260). A root port that it narrows while its link is up keeps LINK_UP and the WIDTH it trained to: no rule says what
the link shows until it trains again (DESIGN CHOICE, assumption 95). -/
def State.octProto (s : State) (k v : Nat) : State :=
  let new := (claims k v).filter fun l => s.bindOf l == 0
  let bad := (k == 0 && decide (5 < v % 8)) || (decide (6 ≤ k) && decide (k ≤ 9) && (decide (5 ≤ v % 8) ||
    (s.on .DEV_OCT_CTL_SSC k && !(claims k v).isEmpty)))
  if bad || new.any s.laneBusy then (s.put .DEV_OCT_STAT_BIND_REF k 1).raiseOf (113 + 2 * k) .DEV_OCT_STAT k
  else if k = 0 then (s.put .DEV_OCT_PROTO_EP_W 0 v).put .DEV_OCT_PROTO_EP_GEN 0 (v / 8)
  else if 2 ≤ k && k ≤ 5 then
    let s := ((s.put .DEV_OCT_PROTO_RPA_W k v).put .DEV_OCT_PROTO_RPB_W k (v / 4)).put .DEV_OCT_PROTO_RP_GEN k (v / 16)
    (s.each [2 * (k - 2), 2 * (k - 2) + 1] fun j s => if s.rpWidth j = 0 then s.rpOff j else s).showBind k
  else if 6 ≤ k && k ≤ 9 then
    let old := s.ethOf k
    let s := (s.put .DEV_OCT_PROTO_ETH_MODE k v).put .DEV_OCT_PROTO_ETH_EN k (v / 256)
    (s.each (old.filter fun e => !(s.ethOf k).contains e) fun e s => s.ethDown e.1).showBind k
  else s

/-- A write to DEV_OCT_PROTO[k]. -/
def execOctetProtoWrite (p : Port) (k : Fin 18) (value : Word) (s : State) : Host.Outcome State Fault Refusal :=
  .next (s.access p .DEV_OCT_PROTO k true value.toNat (·.octProto k value.toNat))

/-! ### The endpoint (R252, R253) -/

/-- An MSI-X message of one of the functions `fs`, or a signal to the host of a mailbox that one owns. -/
def State.signalTo (s : State) (fs : List Nat) : Pulse → Bool
  | .msix f _ => fs.contains f
  | .signal m => fs.any fun f => s.fld .PST_MB_OWNER_OWNER m == 0x50 + f
  | .beacon .. | .lost _ => false

/-- What a function's configuration names it with (R251): vendor, device and class code. -/
def State.functionIdent (s : State) : Nat × Nat × Nat := (s.fld .LANE_EP_ID_VENDOR 0, s.fld .LANE_EP_ID_DEVICE 0, 0x120000)

/-- Functions of the endpoint reset (R253, R364): their configuration and MSI-X tables return to reset, their BAR accesses that wait are withdrawn and counted, their MSI-X messages not yet sent are
discarded, their mailboxes are reset and their locks freed. -/
def State.funcReset (s : State) (fs : List Nat) : State :=
  let s := s.each (s.pulses.filter fun e => e.2.kept.any (s.signalTo fs)) fun e s =>
    let left := e.2.kept.filter fun p => !s.signalTo fs p
    let x := { e.2 with toggle := if left.isEmpty then e.2.back else e.2.toggle, kept := left }
    { s with pulses := Tbl.set PulseX.reset s.pulses e.1 x }
  let s := s.withdraw (fun p => fs.any fun f => portIdent p == 0x50 + f) fun _ => some 0
  let s := { s with ports := { s.ports with funcs := Tbl.keep (fun f => !fs.contains f) s.ports.funcs } }
  s.each fs fun f s => s.resetOwner (0x50 + f)

/-- The endpoint link goes down with every function reset; EP_W and EP_GEN take effect (R249, R253). -/
def State.endpointReset (s : State) : State :=
  let up := s.on .LANE_EP_STAT_LINK_UP 0
  let s := s.each [.LANE_EP_STAT_LINK_UP, .LANE_EP_STAT_WIDTH, .LANE_EP_STAT_RATE, .LANE_EP_STAT_FLIT] fun f s => s.put f 0 0
  let s := s.takeEndpoint.funcReset [0, 1, 2, 3]
  s.when up (·.raise 113)

/-- PCIE_PERST_N is asserted (R253): the bound lanes pass through lane reset (`lost` by lane) and are held. -/
def execPciePerstAssert (lost : List Lost) (s : State) : Host.Outcome State Fault Refusal :=
  .next <|
  let lanes := List.range (codedWidth s.ports.width)
  let s := { s with ports := { s.ports with held := true } }
  let s := s.each lanes fun l s => s.laneReset l (lost.getD l ⟨0, [], []⟩)
  s.endpointReset

/-- PCIE_PERST_N is released: the bound lanes start (R253), and the endpoint may train from 20 ms later (R252). -/
def execPciePerstRelease (s : State) : Host.Outcome State Fault Refusal :=
  .next (((({ s with ports := { s.ports with held := false } }).showBind 0).showBind 1).startTimer .perst 0)

/-- A hot reset or link down (R253). -/
def execHotReset (s : State) : Host.Outcome State Fault Refusal := .next s.endpointReset

/-- A Function Level Reset of function `f` (R253). -/
def execFunctionLevelReset (f : Fin 4) (s : State) : Host.Outcome State Fault Refusal := .next (s.funcReset [f.val])

/-- The line rate of a PCI Express rate code, with its modulation: 2.5, 5, 8, 16 and 32 GT/s NRZ, and 64 GT/s PAM4 (R250). -/
def pcieRate (code : Nat) : Nat × Bool :=
  match code with
  | 1 => (2560, false)
  | 2 => (5120, false)
  | 3 => (8192, false)
  | 4 => (16384, false)
  | 5 => (32768, false)
  | _ => (65536, true)

/-- A PCI Express link may come up on these lanes at a rate code up to a highest one: their octets run, and their word rates lie within WCLK (R237, R250, R254). -/
def State.pcieFits (s : State) (lanes : List Nat) (code top : Nat) : Bool :=
  decide (1 ≤ code) && decide (code ≤ top) && lanes.all fun l => s.runs (l / 8) && s.withinWclk (l / 8) (pcieRate code).1 (pcieRate code).2

/-- The endpoint may train (R252): 20 ms after PCIE_PERST_N is released, and 80 ms after the end of the device's reset; with octet 1 at ×16 (R238). -/
def State.mayTrain (s : State) : Bool :=
  !s.ports.held && s.resets.stage == 0 && s.lapsed .perst 0 20000000 && s.lapsed .started 0 80000000 && s.runs 0 && (s.ports.width != 5 || s.runs 1)

/-- The endpoint link finishes training (R250, R252, R263), at a width and a rate up to those bound. It runs in flit mode at 64.0 GT/s. -/
def execEndpointLinkUp (width : BitVec 3) (rate : TrainedRate) (flit : Bool) (s : State) : Host.Outcome State Fault Refusal :=
  let w := width.toNat
  let code := rate.code.toNat
  let lanes := List.range (codedWidth w)
  .next <|
  if !s.mayTrain || w = 0 || s.ports.width < w || !s.pcieFits lanes code (6 - s.ports.gen) then s
  else
    let s := ((s.put .LANE_EP_STAT_LINK_UP 0 1).put .LANE_EP_STAT_WIDTH 0 w).put .LANE_EP_STAT_RATE 0 code
    let s := s.lanesTrain lanes (pcieRate code).1 (pcieRate code).2 rate.taps
    (s.put .LANE_EP_STAT_FLIT 0 (b2n (flit || code == 6))).raise 113

/-! ### Root ports (R254, R255) -/

/-- RP_PRSNT_N[j] has been low for 100 ms (R255 step 1). -/
def execDrivePresent (j : Fin 8) (s : State) : Host.Outcome State Fault Refusal :=
  .next (if s.rpWidth j = 0 || s.stageOf j = 3 then s
    else (((s.put .LANE_RP_STAT_PRESENT j 1).setStage j 1).startTimer .present j).raise (rpSource j))

/-- RP_PERST_N[j] is released, 100 ms after step 1 (R255 step 2). -/
def execRpPerstRelease (j : Fin 8) (s : State) : Host.Outcome State Fault Refusal :=
  .next (if s.stageOf j = 1 && s.lapsed .present j 100000000 then s.setStage j 2 else s)

/-- The lanes that root port `j` may use at a width code (R248). -/
def rpLanes (j w : Nat) : List Nat := (List.range (codedWidth w)).map (16 + 4 * j + ·)

/-- The link of a root port comes up at a width and a rate up to those bound (R254, R255 step 3): the firmware enumerates the drive and brings its volumes online;
a switch or a device of another class (`drive` none) stays disabled, with NOT_NVME. -/
def execRpLinkUp (j : Fin 8) (width : BitVec 2) (rate : TrainedRate) (drive : Option DriveInfo) (s : State) :
    Host.Outcome State Fault Refusal :=
  let w := width.toNat
  let code := rate.code.toNat
  .next <|
  if s.stageOf j ≠ 2 || w = 0 || s.rpWidth j < codedWidth w || !s.pcieFits (rpLanes j w) code (6 - s.fld .DEV_OCT_PROTO_RP_GEN (2 + j / 2)) then s
  else
    let s := ((s.put .LANE_RP_STAT_LINK_UP j 1).put .LANE_RP_STAT_WIDTH j w).put .LANE_RP_STAT_RATE j code
    let s := s.lanesTrain (rpLanes j w) (pcieRate code).1 (pcieRate code).2 rate.taps
    let s := (s.setStage j 3).raise (rpSource j)
    match drive with
    | some d => s.driveUp j d
    | none => (s.put .LANE_RP_STAT_NOT_NVME j 1).raise (rpSource j)

/-- RP_PRSNT_N[j] has been high for 1 ms (`removed`), or the link has not recovered within 20 ms (R255 steps 4 and 5): the port is contained
and the drive's volumes go offline. A removal before the link is up restarts the
sequence, and one from a port that is contained clears PRESENT. -/
def execRpContainment (j : Fin 8) (removed : Bool) (s : State) : Host.Outcome State Fault Refusal :=
  .next <|
  let st := s.stageOf j
  if st = 0 then if removed && s.on .LANE_RP_STAT_PRESENT j then (s.put .LANE_RP_STAT_PRESENT j 0).raise (rpSource j) else s
  else if st < 3 then if removed then ((s.setStage j 0).put .LANE_RP_STAT_PRESENT j 0).raise (rpSource j) else s
  else
    let s := s.each [.LANE_RP_STAT_LINK_UP, .LANE_RP_STAT_WIDTH, .LANE_RP_STAT_RATE] fun f s => s.put f j 0
    let s := (s.when removed (·.put .LANE_RP_STAT_PRESENT j 0)).setStage j 0
    ((s.put .LANE_RP_STAT_CONTAINED j 1).raise (rpSource j)).drivesOff j

/-! ### Ethernet (R257..R259) -/

/-- Port `e` is enabled. -/
def State.ethOn (s : State) (e : Nat) : Bool := (s.ethOf (e / 8)).any (·.1 == e)

/-- The queue `q` of port `e`. -/
def State.ethQueue (s : State) (e : Nat) (tx : Bool) (q : Nat) : EthQueue :=
  Tbl.find EthQueue.blank s.ports.queues ((e - 48) * 32 + 16 * b2n tx + q)

/-- A big-endian pair of bytes. -/
def be16 (b : List Byte) (i : Nat) : Nat := 256 * (b.getD i 0).toNat + (b.getD (i + 1) 0).toNat

/-- The queue that a frame is steered to (R259): the first valid entry that matches, else queue 0. -/
def State.steerTo (s : State) (e : Nat) (frame : List Byte) : Nat :=
  let tagged := be16 frame 12 == 0x8100
  let vid := be16 frame 14 % 4096
  let ty := if tagged then be16 frame 16 else be16 frame 12
  let hit := fun (x : Steer) => decide (frame.take 6 = x.mac) && (match x.vlan with
    | some v => tagged && v == vid
    | none => true) && (match x.etherType with
    | some t => t == ty
    | none => true)
  (((List.range 64).filterMap fun i => Tbl.find none s.ports.steer ((e - 48) * 64 + i)).find? hit).elim 0 (·.queue)

/-- A frame is discarded for want of room (R259). -/
def State.rxDrop (s : State) (e : Nat) : State := (s.bump .LANE_ETH_CNT_RX_DROP (e - 48) 1).raiseOf (octetSource e) .LANE_ETH_CNT (e - 48)

/-- The lanes of port `e`. -/
def State.ethLanes (s : State) (e : Nat) : List Nat :=
  (((s.ethOf (e / 8)).find? (·.1 == e)).map fun x => (List.range x.2).map (e + ·)).getD []

/-- The receiver of port `e` delivers frames (R245): its link is up and every lane of it delivers words. -/
def State.ethReceives (s : State) (e : Nat) : Bool := s.ethOn e && s.on .LANE_ETH_STAT_LINK_UP (e - 48) && (s.ethLanes e).all s.receives

/-- The 802.1p priority of a frame: that of its VLAN tag, else 0. -/
def framePriority (frame : List Byte) : Nat := if be16 frame 12 = 0x8100 then be16 frame 14 / 8192 else 0

/-- How long a pause of `q` quanta of 512 bit times lasts on port `e`, in ns, at 100 Gbit/s for each lane. -/
def State.quanta (s : State) (e q : Nat) : Nat := (q * 512 + 100 * (s.ethLanes e).length - 1) / (100 * max 1 (s.ethLanes e).length)

/-- Port `e` is paused by a PAUSE (`i` 0) or for priority `i` − 1 until an instant. -/
def State.setPause (s : State) (e i q : Nat) : State :=
  { s with ports := { s.ports with pauses := Tbl.set 0 s.ports.pauses ((e - 48) * 16 + i) (if q = 0 then 0 else s.clock + s.quanta e q) } }

/-- A frame of a priority may not leave port `e` yet (R258). -/
def State.ethPaused (s : State) (e prio : Nat) : Bool :=
  [0, 1 + prio].any fun i => decide (s.clock < Tbl.find 0 s.ports.pauses ((e - 48) * 16 + i))

/-- A MAC control frame (R258): PAUSE, or priority-based flow control, as IEEE 802.3 has them (assumption 95); it reaches no queue. -/
def State.macControl (s : State) (e : Nat) (frame : List Byte) : State :=
  match be16 frame 14 with
  | 0x0001 => s.setPause e 0 (be16 frame 16)
  | 0x0101 => s.each (bitsOf 8 (be16 frame 16)) fun p s => s.setPause e (1 + p) (be16 frame (18 + 2 * p))
  | _ => s

/-- A frame arrives at port `e` (R258, R259), without its FCS: a bad FCS or a short frame discards it, a longer one is counted; one of MAC control acts on
the transmitter; any other is written with its descriptor to the queue it is steered to, and RXWR advances once it is (R309). One that is longer than a slot of its queue is
discarded and counted as one that finds the ring full, which no rule states (DESIGN CHOICE, assumption 66). -/
def execEthFrameReceived (e : Fin 80) (frame : List Byte) (fcsOk : Bool) (time : BitVec 64) (s : State) : Host.Outcome State Fault Refusal :=
  .next <|
  let n := frame.length
  if e.val < 48 || !s.ethReceives e || !fcsOk || n < 60 then s
  else if 9212 < n then s.rxDrop e
  else if be16 frame 12 = 0x8808 then s.macControl e frame
  else
    let q := s.steerTo e frame
    let x := s.ethQueue e false q
    let i := (e.val - 48) * 16 + q
    let wr := ((s.memo.writes.filterMap (·.shown)).filter (·.1 == i)).foldl (fun _ e => e.2) (s.fld .LANE_ETH_RXWR_INDEX i)
    let used := (wr + 2 ^ 16 - s.fld .LANE_ETH_RXRD_INDEX i) % 2 ^ 16
    if x.slots ≤ used || x.size * 1024 < 32 + n then s.rxDrop e
    else
      let desc := le 2 n ++ List.replicate 6 0 ++ le 8 time.toNat ++ List.replicate 16 0
      s.ioWrite (20 + e / 8) (64 * x.base + wr % x.slots * (x.size * 1024)) (desc ++ frame) (some (i, (wr + 1) % 2 ^ 16))

/-- A write of TXWR hands slots to the port. -/
def execEthTxwrWrite (p : Port) (e : Fin 80) (q : Fin 16) (value : Word) (s : State) : Host.Outcome State Fault Refusal :=
  .next <|
  let i := (e.val - 48) * 16 + q.val
  if e.val < 48 then s else s.access p .LANE_ETH_TXWR i true value.toNat (·.put .LANE_ETH_TXWR_INDEX i value.toNat)

/-- The port takes a transmit slot (R259): it sends the frame, or skips a length outside 60..9,212 and counts it; TXRD advances. A frame whose transmission is paused
waits; one that leaves has its FCS and is stamped with the timebase, in its descriptor (R258, assumption 95). A length that a slot of the queue does not hold takes
the bytes of the slots behind it, on which the rules are silent (DESIGN CHOICE, assumption 66). While the home of a line of the slot is closed no slot leaves (R97);
a line that cannot be read comes as 0 (R310). -/
def execEthSlotSent (e : Fin 80) (q : Fin 16) (s : State) : Host.Outcome State Fault Refusal :=
  .next <|
  let i := (e.val - 48) * 16 + q.val
  let x := s.ethQueue e true q
  let rdx := s.fld .LANE_ETH_TXRD_INDEX i
  if e.val < 48 || !s.ethOn e || !s.sideRuns (e / 8) || !s.on .LANE_ETH_STAT_LINK_UP (e - 48) || rdx = s.fld .LANE_ETH_TXWR_INDEX i || x.slots = 0 then s
  else
    let a := 64 * x.base + rdx % x.slots * (x.size * 1024)
    let n := ofLe [s.byteNow a, s.byteNow (a + 1)]
    let bad := n < 60 || 9212 < n
    let r := s.readBytes (20 + e / 8) a (if bad then 32 else 32 + n)
    let frame := r.2.2.drop 32
    if (s.closedLine a (if bad then 32 else 32 + n)).isSome then s
    else if bad || ofLe (r.2.2.take 2) != n then (r.1.put .LANE_ETH_TXRD_INDEX i (rdx + 1)).bump .LANE_ETH_CNT_TX_BAD (e - 48) 1
    else if s.ethPaused e (framePriority frame) then s
    else ((r.1.ioWrite (20 + e / 8) (a + 8) (le 8 s.tb) none).put .LANE_ETH_TXRD_INDEX i (rdx + 1)).emit (.ethFrame e (frame ++ le 4 (crc32 frame)))

/-- The link or a fault of an Ethernet port changes (R263). It comes up on 106.25 Gbit/s PAM4 lanes whose octet runs at a word clock that fits (R237, R256), and
its training moves the taps (R241). -/
def execEthLinkChange (e : Fin 80) (x : EthUp) (localFault remoteFault : Bool) (s : State) : Host.Outcome State Fault Refusal :=
  .next <|
  if e.val < 48 || !s.ethOn e then s
  else
    let i := e.val - 48
    let up := x.up && s.runs (e.val / 8) && s.withinWclk (e.val / 8) 108800 true
    let s := s.when up (·.lanesTrain (s.ethLanes e) 108800 true x.taps)
    let s := (s.put .LANE_ETH_STAT_LINK_UP i (b2n up)).put .LANE_ETH_STAT_LOCAL_FAULT i (b2n localFault)
    (s.put .LANE_ETH_STAT_REMOTE_FAULT i (b2n remoteFault)).raiseOf (octetSource e) .LANE_ETH_STAT i

/-- A read of LANE_ETH_CNT[e] returns and clears both counts. -/
def execLaneEthCntRead (p : Port) (e : Fin 80) (s : State) : Host.Outcome State Fault Refusal :=
  .next (if e.val < 48 then s else s.access p .LANE_ETH_CNT (e - 48) false 0 (·.readClear p .LANE_ETH_CNT (e - 48)))

end Sys2Proof.Machine
end

