-- ==== Sys2Proof/Machine/Sorters.lean ====
section
/-! DEFINITION. The sorters' commands (chapter 06): insertion (R131, R132), range drops (R133), due entries and releases
(R134, R136, R137), head reads (R135), FLUSH and the control write (R153). -/

namespace Sys2Proof.Machine

/-- The place of a port's word `w` of SRT_INS[n] (R131). -/
def insKey (p : Port) (n w : Nat) : Nat := portSeat p + 256 * (n * 4 + w)

/-- A write of SRT_INS[n] word 3 commits the port's entry (R131, R132). -/
def State.commitEntry (s : State) (p : Port) (n w3 : Nat) : State :=
  let w := fun k => Tbl.find 0 s.insWords (insKey p n k)
  let r := s.insertEntry n (w 0 + 2 ^ 32 * w 1 + 2 ^ 64 * w 2 + 2 ^ 96 * w3)
  let s := r.1.when (r.2 == 3) (·.put .SRT_STAT_FULL_REF n 1)
  { s with insRes := Tbl.set 0 s.insRes (insKey p n 0) r.2 }

/-- A write of SRT_INS[n] word 3 (R132). -/
def execSorterInsert (p : Port) (n : Fin 64) (value : Word) (s : State) : Host.Outcome State Fault Refusal :=
  .next (s.accessAt p .SRT_INS n (Reg.addr .SRT_INS n + 12) true value.toNat (·.commitEntry p n value.toNat))

/-- The entries of a STREAM reach sorter `n` behind those that wait (R131). -/
def State.streamInto (s : State) (n : Nat) (es : List Nat) : State :=
  (s.setSrt n { s.srt n with streams := (s.srt n).streams ++ es }).srtSpace n

/-- A STREAM into a sorter (R131). -/
def execFabricSorterInsert (n : Fin 64) (entries : List (BitVec 128)) (s : State) : Host.Outcome State Fault Refusal :=
  .next (s.streamInto n (entries.map BitVec.toNat))

/-- Entries of sorter `n` that lie out of range are discarded and counted, while its axis runs (R133). -/
def State.rangeDrop (s : State) (n : Nat) : State :=
  let x := s.srt n
  let gone := x.entries.filter (s.outOfRange n)
  if gone.isEmpty || !s.axisRuns (s.srtAxis n) then s
  else
    let stuck := if gone.any (fun e => x.stuck.any (·.1 == e.seq)) then none else x.stuck
    let t := s.setSrt n { x with entries := x.entries.filter (fun e => !s.outOfRange n e), stuck := stuck }
    let t := ((t.bump .SRT_ERR_RANGE_DROP n gone.length).put .SRT_STAT_RANGE n 1).raise (48 + n)
    let t := t.perf 6 n 2 gone.length none
    let t := match t.chanOfSorter n with
      | some c => t.dropEvents c (gone.map Entry.pm)
      | none => t
    t.srtSpace n

/-- Entries of sorter `n` that lie out of range are discarded (R133). -/
def execSorterRangeDrop (n : Fin 64) (s : State) : Host.Outcome State Fault Refusal := .next (s.rangeDrop n)

/-- The axis of sorter `n` has crossed a postmark since the last tick in a direction that its order releases on (R113, R134). -/
def State.crossedFor (s : State) (n pm : Nat) : Bool :=
  let a := s.srtAxis n
  match s.fld .SRT_CTL_ORDER n with
  | 0 => s.crossesForward a pm
  | 1 => s.crossesBackward a pm
  | _ => s.crossesForward a pm || s.crossesBackward a pm

/-- In TIMED mode, entries that a predicate picks and whose postmark has been crossed become due (R134). One crossed while EN is 0 or a FLUSH runs stays due
and is released once it may be, also where the axis has gone back meanwhile: the rule only has it evaluated again (DESIGN CHOICE, assumption 93). -/
def State.markDue (s : State) (n : Nat) (p : Entry → Bool) : State :=
  let x := s.srt n
  if s.on .SRT_CTL_MODE n || !s.axisRuns (s.srtAxis n) then s
  else
    let mark := fun (e : Entry) => if !e.due && p e && s.crossedFor n e.pm then { e with due := true, dueT := 64 * s.tb } else e
    { s with sorters := Tbl.set Sorter.reset s.sorters n { x with entries := x.entries.map mark } }

/-- The axis reaches a postmark (R134). -/
def execSorterEntryDue (n : Fin 64) (pm : BitVec 64) (s : State) : Host.Outcome State Fault Refusal :=
  .next (s.markDue n (·.pm == pm.toNat))

/-- What a tick of its axis does to a sorter that holds entries (R133, R134). -/
def State.sorterTick (s : State) (n : Nat) : State :=
  if (s.srt n).entries.isEmpty then s
  else
    let s := s.markDue n fun _ => true
    if s.axisPm (s.srtAxis n) % 2 ^ 61 = (s.ax (s.srtAxis n)).tickPos then s else s.rangeDrop n

/-- An entry has left sorter `n` for its target: an event of its channel has completed (R173), which consumes its product's identifier where it was committed
at a cell (`cell`, R174); a reject's product is recorded REJECTED (R192). -/
def State.srtEventDone (s : State) (n : Nat) (cell : Bool) (pm : Nat) : State :=
  match s.chanOfSorter n with
  | none => s
  | some c =>
    let reject := (s.chan c).rejectsOn n
    let s := s.eventDone c reject cell pm
    let s := match (s.chan c).products.find? (fun p => reject && p.rejecting && p.rejectAt == pm) with
      | some p => s.recordOutcome c p 4
      | none => s
    s.settle c

/-- Every selected cell can take an entry: enabled, and holding fewer than 8 (R139). -/
def State.cellsReady (s : State) (cs : List Nat) : Bool :=
  cs.all fun c => s.on .PIN_PLC_CTL_EN c && decide ((s.pins.armed.filter (·.cells.contains c)).length < 8)

/-- Puts an action among those of its cell: by moment, and at one moment in insertion order (R139). -/
def commitInto (x : Commit) : List Commit → List Commit
  | [] => [x]
  | y :: t => if x.at_ < y.at_ || (x.at_ == y.at_ && decide (x.seq < y.seq)) then x :: y :: t else y :: commitInto x t

/-- An action is committed at cell `c` (R139). -/
def State.commitAt (s : State) (c : Nat) (x : Commit) : State :=
  s.setPlc c { s.plc c with commits := commitInto x (s.plc c).commits }

/-- The head is discarded at release for its ACTION or its cells (R138). -/
def State.discardBad (s : State) (n : Nat) (e : Entry) : State :=
  let s := ((s.takeEntry n e).badActAt n).perf 6 n 2 1 none
  let s := match s.chanOfSorter n with
    | some c => s.dropEvents c [e.pm]
    | none => s
  s.srtSpace n

/-- A due entry leaves for its target (R134), unless a release before it waits for its gate: a gate (R137), where it waits at the head while the buffer is
full, or cells, which apply it at once as late (R139) or leave it waiting while one is full or disabled. `after`: how long after this tick it leaves; more
than 16 ns after falling due it counts as late for the gate. -/
def State.releaseDue (s : State) (n after : Nat) (e : Entry) : State :=
  let now := 64 * s.tb
  if (s.srt n).stuck.isSome then s
  else if s.on .SRT_TGT_KIND n then
    let g := s.fld .SRT_TGT_REGION n
    let k := s.fld .SRT_TGT_GATE n
    if 40 ≤ g then s
    else if (Tbl.find [] s.gates (gateKey g k)).length < 16 then
      let late := e.late || decide (e.dueT + 1024 < now + after)
      ((((s.noteRelease n).takeEntry n e).intoGate g k late e).srtEventDone n false e.pm).srtSpace n
    else (s.setSrt n { s.srt n with stuck := some (e.seq, gateKey g k) }).noteRelease n
  else if 12 ≤ s.fld .SRT_TGT_GROUP n || !s.engineOn then s
  else if s.badAct n e then s.discardBad n e
  else
    let cs := s.cellsOf n e
    if !s.cellsReady cs then s
    else
      let s := ((s.noteRelease n).takeEntry n e).each cs fun c s => s.commitAt c ⟨n, e.pm, e.seq, e.action, e.width, now, now, true⟩
      (s.srtEventDone n true e.pm).srtSpace n

/-- Sorter `n` releases its next due entry (R134). -/
def execSorterRelease (n : Fin 64) (after : Nat) (s : State) : Host.Outcome State Fault Refusal :=
  .next <|
  match s.nextDue n with
  | some e => if s.mayRelease n then s.releaseDue n after e else s
  | none => s

/-- The sorter whose released entry waits for a gate; of several the lowest-numbered, which no rule states (DESIGN CHOICE, assumption 93). -/
def State.waitsFor (s : State) (g k : Nat) : Option Nat := (List.range 64).find? fun n => (s.srt n).stuck.any (·.2 == gateKey g k)

/-- The region takes the oldest entry of a gate's buffer; a held entry follows into the space with tag 0x1 (R137). -/
def execGateSpaceOpens (g : Fin 40) (k : Fin 2) (s : State) : Host.Outcome State Fault Refusal :=
  .next <|
  match Tbl.find [] s.gates (gateKey g k) with
  | [] => s
  | w :: rest =>
    if !s.woken g then s
    else
      let s := { s with gates := Tbl.set [] s.gates (gateKey g k) rest }.emit (.gateToken g k (s.gateTag w) w.raw)
      match s.waitsFor g k with
      | none => s
      | some n =>
        match s.stuckOf n with
        | none => s
        | some e =>
          (((s.takeEntry n e).intoGate g k true e).srtEventDone n false e.pm).srtSpace n

/-- A read of SRT_HEAD[n] word 0 (R135): in READ mode the head leaves, in TIMED mode it stays; an empty sorter returns
the empty-read word. The upper words go to the port's shadow (R10). -/
def State.readHead (s : State) (p : Port) (n : Nat) : State :=
  let give := fun (t : State) (raw : Nat) =>
    { t with shadows := Tbl.set 0 t.shadows (shadowKey p .SRT_HEAD n) (raw / 2 ^ 32) }.emit (.readValue p (raw % 2 ^ 32))
  match s.headOf n (s.srt n).entries with
  | none => give s (s.emptyRead n)
  | some e =>
    if s.on .SRT_CTL_MODE n then give (((s.takeEntry n e).srtEventDone n false e.pm).srtSpace n) e.raw else give s e.raw

/-- A sorted read in READ mode removes the head (R135). -/
def execSorterPop (p : Port) (n : Fin 64) (s : State) : Host.Outcome State Fault Refusal :=
  .next (s.access p .SRT_HEAD n false 0 (·.readHead p n))

/-- A sorted read in TIMED mode leaves the head in place (R135). -/
def execSorterPeek (p : Port) (n : Fin 64) (s : State) : Host.Outcome State Fault Refusal :=
  .next (s.access p .SRT_HEAD n false 0 (·.readHead p n))

/-- FLUSH (R153, R137): a channel's entries are counted as dropped (R176); what waits to enter is kept. -/
def State.flushCmd (s : State) (n : Nat) : State :=
  let r := s.flushSorter n
  let s := match r.1.chanOfSorter n with
    | some c => r.1.dropEvents c r.2
    | none => r.1
  s.srtSpace n

/-- A write of SRT_CMD[n].FLUSH (R153). -/
def execSorterFlush (p : Port) (n : Fin 64) (s : State) : Host.Outcome State Fault Refusal :=
  .next (s.access p .SRT_CMD n true 1 (·.flushCmd n))

/-- A refused control write: CFG_ERR and source 48 + n (R133, R153). -/
def State.srtCfgErr (s : State) (n : Nat) : State := (s.put .SRT_STAT_CFG_ERR n 1).raise (48 + n)

/-- A write of SRT_CTL[n] (R133, R153): MODE, ORDER and AXIS change only while EN is 0 and the sorter is empty; EN is not
set while ORDER is 0b11. -/
def State.srtCtl (s : State) (n v : Nat) : State :=
  let same := v / 2 % 2 == s.fld .SRT_CTL_MODE n && v / 4 % 4 == s.fld .SRT_CTL_ORDER n &&
    v / 16 % 8 == s.fld .SRT_CTL_AXIS n
  let bound := s.on .SRT_CTL_EN n || !(s.srt n).entries.isEmpty
  let refused := !same && bound
  let s := if refused then s
    else ((s.put .SRT_CTL_MODE n (v / 2)).put .SRT_CTL_ORDER n (v / 4)).put .SRT_CTL_AXIS n (v / 16)
  let badEn := v % 2 == 1 && s.fld .SRT_CTL_ORDER n == 3
  let s := if badEn then s else s.put .SRT_CTL_EN n v
  (if refused || badEn then s.srtCfgErr n else s).refreshPins

/-- A write to SRT_CTL[n] (R153). -/
def execSorterCtlWrite (p : Port) (n : Fin 64) (value : Word) (s : State) : Host.Outcome State Fault Refusal :=
  .next (s.access p .SRT_CTL n true value.toNat (·.srtCtl n value.toNat))

/-- A read of SRT_ERR[n] returns and clears both counts (R9, R153). -/
def execSrtErrRead (p : Port) (n : Fin 64) (s : State) : Host.Outcome State Fault Refusal :=
  .next (s.access p .SRT_ERR n false 0 (·.readClear p .SRT_ERR n))

end Sys2Proof.Machine
end

