-- ==== Sys2Proof/Machine/Pins.lean ====
section
/-! DEFINITION. Placement cells and timed pins (chapter 06): hand-over, commit and edges (R139), calibration (R141, R142),
outputs (R145), bank range changes (R146, R147), pin locks (R151), supplies (R152) and PWM (R156). -/

namespace Sys2Proof.Machine

/-! ### Placement -/

/-- The moment t* at which axis `a` reaches a postmark in a direction that an order releases on (R107, R139). -/
def State.tStar (s : State) (a order pm : Nat) : Option (Int × Nat) :=
  let ok := match order with
    | 0 => decide (0 < (s.ax a).vnum)
    | 1 => decide ((s.ax a).vnum < 0)
    | _ => true
  if ok then s.reachAt a pm else none

/-- The predicted moment of a postmark is less than `within` steps away. -/
def State.comesWithin (s : State) (a order pm within : Nat) : Bool := match s.tStar a order pm with
  | some t => decide (t.1 < ((s.now + within) * t.2 : Nat))
  | none => false

/-- The head's predicted moment is at most 200 ns away (R139 step 1): it is handed to every selected cell together, or waits at the head while
one is full or disabled. A release that waits for a gate holds those behind it back (R137). -/
def execPlacementHandover (n : Fin 64) (s : State) : Host.Outcome State Fault Refusal :=
  .next <| s.engine fun s =>
  match s.headOf n (s.srt n).entries with
  | none => s
  | some e =>
    let a := s.srtAxis n
    let order := s.fld .SRT_CTL_ORDER n
    if !s.mayRelease n || (s.srt n).stuck.isSome || s.on .SRT_TGT_KIND n || 12 ≤ s.fld .SRT_TGT_GROUP n || e.due || !s.comesWithin a order e.pm 12801 then s
    else if s.badAct n e then s.discardBad n e
    else
      let cs := s.cellsOf n e
      if !s.cellsReady cs then s
      else
        let s := (s.noteRelease n).takeEntry n e
        { s with pins := { s.pins with armed := s.pins.armed ++ [({ sorter := n, axis := a, order, entry := e, cells := cs } : Armed)] } }.srtSpace n

/-- The axis of an armed entry has already passed its postmark. -/
def State.armedPast (s : State) (a : Armed) : Bool :=
  let d := s.ahead a.axis a.entry.pm
  match a.order with
  | 0 => decide (d ≤ 0)
  | 1 => decide (0 ≤ d)
  | _ => if s.on .POS_AX_STAT_DIR a.axis then decide (0 ≤ d) else decide (d ≤ 0)

/-- The entry of sorter `n` whose cells commit now, with its t* (R139 step 3): the earliest of those for which no later tick lies 16 ns before t*, or whose
postmark has been passed. -/
def State.commitNext (s : State) (n : Nat) : Option (Armed × Int × Nat) :=
  let l : List (Armed × Int × Nat) := (s.pins.armed.filter (·.sorter == n)).filterMap fun a =>
    if s.armedPast a then some (a, (s.now : Int), 1)
    else if s.comesWithin a.axis a.order a.entry.pm 1088 then (s.tStar a.axis a.order a.entry.pm).map fun t => (a, t)
    else none
  l.foldl (fun b x => match b with
    | none => some x
    | some y => if x.2.1 * y.2.2 < y.2.1 * x.2.2 then some x else some y) none

/-- The last tick at least 16 ns before t*: every selected cell commits t* less its pin's delay (R139 step 3), unless a ring stop holds the axis (R221).
`moment` is t* in steps of 15.625 ps: one of the two neighbours of its exact value, which no rule rounds (assumption 3). An entry whose moment has passed
is applied at once and counts as late. The first event of a product consumes its identifier (R174). -/
def execPlacementCommit (n : Fin 64) (moment : Nat) (s : State) : Host.Outcome State Fault Refusal :=
  .next <| s.engine fun s =>
  match s.commitNext n with
  | none => s
  | some (a, num, den) =>
    if !s.axisRuns a.axis || s.stopHolds a.axis || (den : Int) ≤ ((moment * den : Nat) - num).natAbs then s
    else
      let t := max moment s.now
      let late := decide (moment < s.now) || s.armedPast a
      let s := { s with pins := { s.pins with armed := s.pins.armed.erase a } }
      let s := s.each a.cells fun c s =>
        s.commitAt c ⟨n, a.entry.pm, a.entry.seq, a.entry.action, a.entry.width, t, t - s.pinDelay c, late⟩
      s.srtEventDone n true a.entry.pm

/-- What an action makes of a cell's level, and the level its return edge gives (R138). -/
def applyAction (action : Nat) (level : Bool) : Bool × Option Bool :=
  match action with
  | 0 => (false, none)
  | 1 => (true, none)
  | 2 => (!level, none)
  | 3 => (true, some false)
  | _ => (false, some true)

/-- The pad of cell `c` is in HOLD (R147). -/
def State.cellHeld (s : State) (c : Nat) : Bool := match s.cellPin c with
  | some p => s.bankHeld (p / 16)
  | none => false

/-- An action takes effect on cell `c` (R139): it cancels the return edge of a pulse in progress with OVERLAP, and a
late one is counted; inside HOLD the pad misses it, which is counted (R147). -/
def State.actOn (s : State) (c : Nat) (x : Commit) : State :=
  let s := s.when (s.plc c).ret.isSome (·.put .PIN_PLC_STAT_OVERLAP c 1)
  let held := s.cellHeld c
  let r := applyAction x.action (s.plc c).level
  let p := s.plc c
  let s := s.setPlc c { p with level := r.1, ret := r.2.map fun v => ⟨x.sorter, x.pm, x.at_ + x.width, v, held⟩ }
  (s.when held (·.bump .PIN_PLC_CNT_HOLD_MISS c 1)).when x.late (·.lateAction c x.sorter x.pm)

/-- An edge of cell `c`, of an action of sorter `n`, at a moment that has changed what drives its pad: placed at least 1 ns after the
one before, which counts as late where it moves it (R139). A cell mapped to no pin, and one whose pad does not change, place none; the level of a conflict
is not spaced. -/
def State.edge (s : State) (c at_ n pm : Nat) (before : Option Drive) : State :=
  match s.cellPin c with
  | none => s
  | some p =>
    if s.padDrive p = before then s
    else
      let last := Tbl.find 0 s.pins.lastEdge p
      let level := s.padDrive p != some .low
      if (s.driversOf p).length != 1 then s.emit (.padEdge p level at_)
      else
        let t := if last ≠ 0 && at_ < last - 1 + 64 then last - 1 + 64 else at_
        let s := s.when (t != at_) (·.lateAction c n pm)
        ({ s with pins := { s.pins with lastEdge := Tbl.set 0 s.pins.lastEdge p (t + 1) } }).emit (.padEdge p level t)

/-- What drives the pad of cell `c`. -/
def State.cellDrive (s : State) (c : Nat) : Option Drive := match s.cellPin c with
  | some p => s.padDrive p
  | none => none

/-- The actions at the front of a list that fall on one moment. -/
def sameMoment (t : Nat) (l : List Commit) : List Commit := l.takeWhile (·.at_ == t)

/-- A moment falls before the next tick. -/
def State.momentHere (s : State) (t : Nat) : Bool := decide (t < s.now + 64)

/-- The committed moment of cell `c`: the actions of that moment take effect in order and the last sets the level; the
edge leaves the pad where the level changes (R139 step 4). A disabled cell whose edges are placed is inactive (R149). -/
def execEdgePlaced (c : Fin 192) (s : State) : Host.Outcome State Fault Refusal :=
  .next <| s.engine fun s =>
  match (s.plc c).commits with
  | [] => s
  | x :: _ =>
    if !s.momentHere x.at_ then s
    else
      let now := sameMoment x.at_ (s.plc c).commits
      let before := s.cellDrive c
      let s := s.each now fun x s => s.actOn c x
      let s := s.edge c x.at_ x.sorter x.pm before
      (s.setPlc c { s.plc c with commits := (s.plc c).commits.drop now.length }).refreshPins

/-- A pulse's return edge (R139 step 4); in HOLD the pad misses it, which counts the pulse's action once (R147). -/
def execPulseReturnEdge (c : Fin 192) (s : State) : Host.Outcome State Fault Refusal :=
  .next <| s.engine fun s =>
  match (s.plc c).ret with
  | none => s
  | some r =>
    if !s.momentHere r.at_ then s
    else
      let before := s.cellDrive c
      let s := s.setPlc c { s.plc c with level := r.level }
      let s := (s.when (s.cellHeld c && !r.missed) (·.bump .PIN_PLC_CNT_HOLD_MISS c 1)).edge c r.at_ r.sorter r.pm before
      (s.setPlc c { s.plc c with ret := none }).refreshPins

/-! ### Writes to the PIN window -/

/-- A port's lock sequence is abandoned: LOCK_ABORT and source 6 (R151). -/
def State.lockAbort (s : State) (p : Port) : State :=
  ({ s with pins := { s.pins with armSeq := Tbl.set 0 s.pins.armSeq (portSeat p) 0 } }.put .PIN_GSTAT_LOCK_ABORT 0 1).raise 6

/-- Any other write of a port to the PIN window abandons the sequence it had begun (R151). -/
def State.breakLock (s : State) (p : Port) : State :=
  if Tbl.find 0 s.pins.armSeq (portSeat p) = 0 then s else s.lockAbort p

/-- A write to the PIN window that is no step of a lock sequence. -/
def State.pinWrite (s : State) (p : Port) (r : Reg) (i v : Nat) (g : State → State) : State :=
  s.access p r i true v fun s => g (s.breakLock p)

/-- A write of EN = 1 (R139). -/
def execPlacementCellEnable (p : Port) (c : Fin 192) (s : State) : Host.Outcome State Fault Refusal :=
  .next (s.pinWrite p .PIN_PLC_CTL c 1 (·.cellEnable c true))

/-- A write of EN = 0 (R149). -/
def execPlacementCellDisable (p : Port) (c : Fin 192) (s : State) : Host.Outcome State Fault Refusal :=
  .next (s.pinWrite p .PIN_PLC_CTL c 0 (·.cellEnable c false))

/-- A read of PIN_PLC_CNT[c] returns and clears both counts (R9, R155). -/
def execPinPlcCntRead (p : Port) (c : Fin 192) (s : State) : Host.Outcome State Fault Refusal :=
  .next (s.access p .PIN_PLC_CNT c false 0 (·.readClear p .PIN_PLC_CNT c))

/-! ### Calibration -/

/-- A bank's intrinsic delay, measured on its replica pad (R141). -/
def execIntrinsicDelayMeasure (b : Fin 12) (delay : Nat) (s : State) : Host.Outcome State Fault Refusal :=
  .next { s with pins := { s.pins with intrinsic := Tbl.set 0 s.pins.intrinsic b delay } }

/-- Every pin of the command is done: BUSY clears, source 7 is raised, and a PIN.CALIBRATE completes with one RESULT per
pin (R142, R399). -/
def State.calDone (s : State) : State :=
  let s := (s.put .PIN_CAL_CMD_BUSY 0 0).raise 7
  let b := s.fld .PIN_CAL_CMD_BANK 0
  s.completeOn 0x0B01 b .OK ((List.range 16).flatMap fun k => le 1 (s.fld .PIN_CAL_STAT_RESULT (16 * b + k)))

/-- An enabled placement cell is mapped to pin `q`. -/
def State.cellOnPin (s : State) (q : Nat) : Bool :=
  s.mapped.any fun e => e.2 == q && decide (192 ≤ e.1) && decide (e.1 < 384) && s.on .PIN_PLC_CTL_EN (e.1 - 192)

/-- The measurement of the first pin still to do begins (R142): one that is locked, held or driven by an enabled cell has its RESULT at once. -/
def State.calNext (s : State) : State :=
  let r := match s.pins.calLeft with
    | [] => 0
    | q :: _ => if s.pinLocked q then 5 else if s.bankHeld (q / 16) || s.cellOnPin q then 6 else 0
  { s with pins := { s.pins with calNow := r } }

/-- A calibration of a list of pins of a bank begins (R142). -/
def State.calBegin (s : State) (mask bank : Nat) (ps : List Nat) : State :=
  let s := ((s.put .PIN_CAL_CMD_MASK 0 mask).put .PIN_CAL_CMD_BANK 0 bank).put .PIN_CAL_CMD_KIND 0 1
  ({ s with pins := { s.pins with calLeft := ps } }.put .PIN_CAL_CMD_BUSY 0 1).calNext

/-- Starts a load calibration of masked pins of a bank, in ascending order (R142). With no pin to do, for an empty MASK or a BANK that does not exist, it is
done at once, which no rule states (DESIGN CHOICE, assumption 93). -/
def State.calStart (s : State) (mask bank : Nat) : State :=
  let ps := if bank < 12 then (bitsOf 16 mask).map (16 * bank + ·) else []
  let s := s.calBegin mask bank ps
  if ps.isEmpty then s.calDone else s

/-- A write of PIN_CAL_CMD (R142): ignored with ERR while BUSY; KIND 0 starts nothing. -/
def State.calWrite (s : State) (p : Port) (v : Nat) : State :=
  if s.on .PIN_CAL_CMD_BUSY 0 then s.accessError .other p true (Reg.addr .PIN_CAL_CMD 0)
  else if v / 2 ^ 20 % 2 = 1 then s.calStart (v % 2 ^ 16) (v / 2 ^ 16 % 16)
  else ((s.put .PIN_CAL_CMD_MASK 0 v).put .PIN_CAL_CMD_BANK 0 (v / 2 ^ 16)).put .PIN_CAL_CMD_KIND 0 0

/-- A write of PIN_CAL_CMD (R142). -/
def execPinCalLoad (p : Port) (value : Word) (s : State) : Host.Outcome State Fault Refusal :=
  .next (s.pinWrite p .PIN_CAL_CMD 0 value.toNat (·.calWrite p value.toNat))

/-- The RESULT of the pin being measured and the load estimate it leaves, none where that is unchanged (R142). -/
def State.calResult (s : State) (r : LoadResult) : Nat × Option Nat :=
  if s.pins.calNow ≠ 0 then (s.pins.calNow, none)
  else match r with
    | .aborted => (7, none)
    | .noEdge => (4, none)
    | .measured x => if x < 32 then (2, some 32) else if 960 < x then (3, some 960) else (1, some x)

/-- A range change of bank `b`, or a reset, arrives during a measurement (R142). -/
def State.calAbort (s : State) (hit : Nat → Bool) : State :=
  if s.pins.calNow = 0 && (s.pins.calLeft.head?.any hit) then { s with pins := { s.pins with calNow := 7 } } else s

/-- One pin's load measurement ends (R142): pulses were driven unless it was locked or busy; a load in range is calibrated, one at an end is not, and any other
RESULT leaves the load as it was (R140). -/
def execPinCalPinDone (r : LoadResult) (s : State) : Host.Outcome State Fault Refusal :=
  .next <|
  match s.pins.calLeft with
  | [] => s
  | q :: rest =>
    let x := s.calResult r
    let ok := match x.2 with
      | some _ => if x.1 = 1 then q :: s.pins.calOk.erase q else s.pins.calOk.erase q
      | none => s.pins.calOk
    let s := { s with pins := { s.pins with calLeft := rest, calOk := ok } }
    let s := s.when (x.1 != 5 && x.1 != 6) (·.emit (.calPulses q))
    let s := match x.2 with
      | some v => s.put .PIN_LOAD_LOAD q v
      | none => s
    let s := ((s.put .PIN_CAL_STAT_RESULT q x.1).refreshUncal q).calNext
    if rest.isEmpty then s.calDone else s

/-! ### Outputs -/

/-- A write to PIN_OUT[b] sets GPIO bits 16b..16b + 15 (R145). -/
def execGpioWrite (p : Port) (b : Fin 12) (value : Word) (s : State) : Host.Outcome State Fault Refusal :=
  .next (s.pinWrite p .PIN_OUT b value.toNat fun s => (s.put .PIN_OUT_OUT b value.toNat).keepLevels)

/-- Merges a byte under a mask. -/
def mergeByte (old data mask : Nat) : Nat := (old &&& (255 ^^^ mask % 256)) ||| (data % 256 &&& mask % 256)

/-- A masked write (R145): lane j of group g takes the low byte where j is even and the high byte where it is odd. -/
def State.gpioMasked (s : State) (g lanes v : Nat) : State :=
  let s := s.each (bitsOf 8 lanes) fun j s =>
    let b := 4 * g + j / 2
    let h := j % 2
    let old := s.fld .PIN_OUT_OUT b
    let byte := mergeByte (old / 256 ^ h) (v / 256 ^ h) (v / 2 ^ 16 / 256 ^ h)
    s.put .PIN_OUT_OUT b (if h = 0 then old / 256 * 256 + byte else byte * 256 + old % 256)
  s.keepLevels

/-- A write to PIN_OUT_MW[g] (R145). -/
def execGpioMaskedWrite (p : Port) (g : Fin 3) (lanes : BitVec 8) (value : Word) (s : State) :
    Host.Outcome State Fault Refusal :=
  .next (s.accessAt p .PIN_OUT_MW g (Reg.addr .PIN_OUT_MW g + 4 * lanes.toNat) true value.toNat fun s =>
    (s.breakLock p).gpioMasked g lanes.toNat value.toNat)

/-! ### Banks -/

/-- The range in force of bank `b` (R146). -/
def State.rangeInForce (s : State) (b : Nat) : Nat := Tbl.find 0 s.pins.inForce b ^^^ 7

/-- Sets the range in force. -/
def State.setInForce (s : State) (b r : Nat) : State :=
  { s with pins := { s.pins with inForce := Tbl.set 0 s.pins.inForce b (r ^^^ 7) } }

/-- Step 1 of R147 for bank `b`; a measurement under way on one of its pins is aborted (R142). -/
def State.beginRange (s : State) (b : Nat) : State :=
  let s := ((s.calAbort (· / 16 == b)).holdBank b).startTimer .range b
  { s with pins := { s.pins with
    changing := if s.pins.changing.contains b then s.pins.changing else s.pins.changing ++ [b]
    told := s.pins.told.filter (· != b) } }

/-- The nominal voltage of a range code, in mV (R146). -/
def nominalMv (r : Nat) : Nat := ([1200, 1500, 1800, 2500, 3300] : List Nat).getD r 0

/-- The regulator entry that supplies bank `b` (R464). -/
def State.bankEntry (s : State) (b : Nat) : Option Nat :=
  (List.range 16).find? fun e => s.on .PWR_EXT_VALID e && Tbl.find 0 s.power.rails e == b + 3

/-- The firmware commands the regulator of a bank in HOLD to the new voltage, once for each RANGE written, as soon as PMB_EN, an entry for the bank and the firmware
allow it (R147 step 2, R464): none whose VOUT_MODE is not linear. -/
def State.commandBank (s : State) (b r : Nat) : State :=
  match s.bankEntry b with
  | some e =>
    if s.on .PIN_BANK_CTL_PMB_EN b && s.pmbActive && s.on .PST_FW_STAT_READY 0 && decide (r < 5) && !s.on .PWR_EXT_FORMAT e && !s.pins.told.contains b then
      { s with pins := { s.pins with told := b :: s.pins.told } }.emit (.vout e (nominalMv r))
    else s
  | none => s

/-- The banks whose range changes have their regulators commanded (R147 step 2). -/
def State.commandBanks (s : State) : State := s.each s.pins.changing fun b s => s.commandBank b (s.fld .PIN_BANK_CTL_RANGE b)

/-- A new RANGE for bank `b` (R146, R147): a reserved code changes nothing but BADRANGE; a range that differs from the one
in force, or any during a change, starts step 1. -/
def State.setRange (s : State) (b r : Nat) : State :=
  if r = 5 || r = 6 then s.put .PIN_BANK_STAT_BADRANGE b 1
  else
    let s := s.put .PIN_BANK_CTL_RANGE b r
    if r != s.rangeInForce b || s.pins.changing.contains b then (s.beginRange b).commandBank b r else s

/-- A write of PIN_BANK_CTL[b] (R147, R151): refused as LOCKED while a pin of the bank is locked. -/
def State.bankCtl (s : State) (p : Port) (b v : Nat) : State :=
  if s.bankLocked b then s.accessError .locked p true (Reg.addr .PIN_BANK_CTL b)
  else ((s.put .PIN_BANK_CTL_PMB_EN b (v / 8)).setRange b (v % 8)).commandBanks

/-- A write of PIN_BANK_CTL[b] (R147). -/
def execBankRangeWrite (p : Port) (b : Fin 12) (value : Word) (s : State) : Host.Outcome State Fault Refusal :=
  .next (s.pinWrite p .PIN_BANK_CTL b value.toNat (·.bankCtl p b value.toNat))

/-- HOLD of bank `b` ends (R147 step 4): its pads take what their sources present, the sinks they feed follow, and source 7 is raised. -/
def State.releaseHold (s : State) (b : Nat) : State :=
  (((s.put .PIN_BANK_STAT_HOLD b 0).sampleBank b).keepLevels).raise 7

/-- The supply is not there 50 ms after step 1: MISMATCH and source 7; HOLD stays (R147). That is so after a write of 0b111 too, which has no nominal for step 3 to
reach (DESIGN CHOICE, assumption 93). -/
def execBankRangeMismatch (b : Fin 12) (s : State) : Host.Outcome State Fault Refusal :=
  .next (if s.pins.changing.contains b.val && s.ran .range b 50000000 then (s.put .PIN_BANK_STAT_MISMATCH b 1).raise 7 else s)

/-- Samples VIO_BANKb into RANGE at a reset (R146): 0b111 with NOSUPPLY where no nominal matches. -/
def State.sampleRange (s : State) (b : Nat) : State :=
  let v := Tbl.find 0 s.pins.vio b
  let r := if v = 0 then 7 else v - 1
  ((s.put .PIN_BANK_CTL_RANGE b r).setInForce b r).put .PIN_BANK_STAT_NOSUPPLY b (b2n (r == 7))

/-- VIO_BANKb has risen through 0.6 V (R152) to a nominal (7, or a reserved code: none matches): the pads are in high impedance with
pull-down, whatever else the device does. -/
def execBankSupplyRise (b : Fin 12) (nominal : Fin 8) (s : State) : Host.Outcome State Fault Refusal :=
  .next { s with pins := { s.pins with vio := Tbl.set 0 s.pins.vio b ((if nominal.val < 5 then nominal.val else 7) + 1) } }

/-! ### Locks -/

/-- Sets a port's lock sequence. -/
def State.setArm (s : State) (p : Port) (v : Nat) : State :=
  { s with pins := { s.pins with armSeq := Tbl.set 0 s.pins.armSeq (portSeat p) v } }

/-- A write of PIN_LOCK_ARM (R151). The sequence of a port: 0 none, 1 + b after step 1, 17 + b after step 2. -/
def State.lockArm (s : State) (p : Port) (v : Nat) : State :=
  let b := v % 16
  let cur := Tbl.find 0 s.pins.armSeq (portSeat p)
  if v / 16 = 0x4B00000 && b < 12 then (if cur = 0 then s else s.lockAbort p).setArm p (1 + b)
  else if v / 16 = 0xB400000 && cur = 1 + b && b < 12 then s.setArm p (17 + b)
  else s.lockAbort p

/-- A write to PIN_LOCK_ARM (R151). -/
def execPinLockArm (p : Port) (value : Word) (s : State) : Host.Outcome State Fault Refusal :=
  .next (s.access p .PIN_LOCK_ARM 0 true value.toNat (·.lockArm p value.toNat))

/-- A write of PIN_LOCK_SET (R151): after both arming steps of its bank it locks the masked pins. -/
def State.lockSet (s : State) (p : Port) (v : Nat) : State :=
  let b := v / 2 ^ 16 % 16
  if Tbl.find 0 s.pins.armSeq (portSeat p) = 17 + b && b < 12 then
    (s.orFld .PIN_LOCK_LOCK b (v % 2 ^ 16)).setArm p 0
  else s.lockAbort p

/-- A write to PIN_LOCK_SET (R151). -/
def execPinLockSet (p : Port) (value : Word) (s : State) : Host.Outcome State Fault Refusal :=
  .next (s.access p .PIN_LOCK_SET 0 true value.toNat (·.lockSet p value.toNat))

/-! ### PWM and inputs -/

/-- PWM generator `i` runs (R156). -/
def State.pwmRuns (s : State) (i : Nat) : Bool := Tbl.find 0 s.pins.pwm i / 65536 != 0

/-- PWM generator `i` begins a period at a moment, with the PER and HI then written; a PER written after HI in the period before waits one more period, since only
the other order takes effect together (R156; DESIGN CHOICE, assumption 93). -/
def State.pwmBegin (s : State) (i t : Nat) : State :=
  let per := if s.pins.perLate.contains i then Tbl.find 0 s.pins.pwm i / 65536 else s.fld .PIN_PWM_PER_PER i
  let x := { s.pins with
    pwm := Tbl.set 0 s.pins.pwm i (per * 65536 + s.fld .PIN_PWM_HI_HI i)
    pwmT := Tbl.set 0 s.pins.pwmT i t
    hiFirst := s.pins.hiFirst.filter (· != i)
    perLate := s.pins.perLate.filter (· != i) }
  { s with pins := x }.refreshPins

/-- The moment at which PWM generator `i` is to begin a period: the end of the one that runs, or now where it has just been enabled. -/
def State.pwmNext (s : State) (i : Nat) : Option Nat :=
  if s.fld .PIN_PWM_PER_PER i = 0 then none
  else if !s.pwmRuns i then some s.now
  else
    let t := Tbl.find 0 s.pins.pwmT i + Tbl.find 0 s.pins.pwm i / 65536 * 64000
    if t ≤ s.now then some t else none

/-- PWM generator `i` begins a period where one is due (R156). -/
def State.pwmTick (s : State) (i : Nat) : State := match s.pwmNext i with
  | some t => s.pwmBegin i t
  | none => s

/-- PWM generator `i` begins a period (R156). -/
def execPwmPeriodStart (i : Fin 32) (s : State) : Host.Outcome State Fault Refusal := .next (s.engine (·.pwmTick i))

/-- PER 0 disables a generator, at once: no rule says when (R156; DESIGN CHOICE, assumption 93). -/
def State.pwmOff (s : State) (i : Nat) : State :=
  let x := { s.pins with
    pwm := Tbl.set 0 s.pins.pwm i 0
    hiFirst := s.pins.hiFirst.filter (· != i)
    perLate := s.pins.perLate.filter (· != i) }
  { s with pins := x }.refreshPins

/-- A write of PER (R156). -/
def State.pwmPer (s : State) (i v : Nat) : State :=
  let s := s.put .PIN_PWM_PER_PER i v
  if s.fld .PIN_PWM_PER_PER i = 0 then s.pwmOff i
  else if s.pins.hiFirst.contains i && !s.pins.perLate.contains i then { s with pins := { s.pins with perLate := i :: s.pins.perLate } }
  else s

/-- A write of HI (R156): together with a PER written before it. -/
def State.pwmHi (s : State) (i v : Nat) : State :=
  let s := s.put .PIN_PWM_HI_HI i v
  if s.pwmRuns i && !s.pins.hiFirst.contains i then { s with pins := { s.pins with hiFirst := i :: s.pins.hiFirst } } else s

/-- What drives pad `p` from outside changes; the level reaches the sink the pin feeds, through R150, unless the bank is
held (R144, R147). -/
def execPinInputChange (p : Fin 192) (drive : Option Bool) (s : State) : Host.Outcome State Fault Refusal :=
  .next <|
  let code := match drive with
    | none => 0
    | some v => 1 + b2n v
  ({ s with pins := { s.pins with extern := Tbl.set 0 s.pins.extern p code } }.sampleBank (p / 16)).keepLevels

/-- What a tick moves on the pins: PWM periods (R156), and the levels that follow time or position without a command of their own. -/
def State.pinTick (s : State) : State :=
  let s := (s.each (List.range 32) fun i s => s.pwmTick i).commandBanks
  s.when (s.mapped.any fun e => decide (704 ≤ e.1) && decide (e.1 < 752)) (·.keepLevels)

end Sys2Proof.Machine
end

