-- ==== Sys2Proof/Machine/BlockServices.lean ====
section
/-! DEFINITION. The services that act on one block each: AXIS (R398), PIN and the heater loops (R399, R400) and LINK (R401). -/

namespace Sys2Proof.Machine

/-- A channel on what a service touches is ARMED, RUNNING or DRAINING. -/
def Channel.works (x : Channel) : Bool := x.state == 1 || x.state == 2 || x.state == 4

/-- The handle of the first channel of a list that works (R377). -/
def State.working (s : State) (cs : List Nat) : Option Nat :=
  (cs.find? fun c => (s.chan c).works).map (s.handleOf kChannel ·)

/-! ### AXIS (R398) -/

/-- The registers of a service that D23 answers. -/
def inTimebase : List Byte → Option Nat := fun _ => some 23

/-- How every AXIS service begins: the axis exists, and is not held by the Franker (R548). -/
def axisService (L : Letter) (g : Nat → Service) : Service := fun b s =>
  let a := rd b 0 1
  if 7 < a then refuse s L .BAD_PARAM
  else if a = 0 && s.frankerRuns then refuse s L .BUSY
  else g a b s

/-- AXIS.SETUP: the words of POS_AX_CTL, TUNE, DR, DRTIME, VMIN, FOLLOW, ZPERIOD, ZTOL, VSPEED and VACC. -/
def svcAxisSetup (L : Letter) : Service := axisService L fun a b s =>
  if !zeros b 1 3 then refuse s L .BAD_PARAM
  else
    let word := fun k => rd b (4 + 4 * k) 4
    let s := s.axisCtl a (word 0)
    let rs : List (Reg × Nat) := [(.POS_AX_TUNE, 1), (.POS_AX_DR, 2), (.POS_AX_DRTIME, 3), (.POS_AX_VMIN, 4), (.POS_AX_FOLLOW, 5),
      (.POS_AX_ZPERIOD, 6), (.POS_AX_ZTOL, 7), (.POS_AX_VSPEED, 8), (.POS_AX_VACC, 9)]
    okBody (s.each rs fun e s => s.storeWord e.1 a 0 (word e.2)) L []

/-- AXIS.SETUP. -/
def State.axisSetupLetter (s : State) (L : Letter) : State := s.serveIn L ⟨.admin, false, false, fixedLen 44⟩ inTimebase (svcAxisSetup L)

/-- AXIS.SETUP. -/
def execAxisSetup (L : Letter) (s : State) : Host.Outcome State Fault Refusal := .next (s.axisSetupLetter L)

/-- What AXIS.START and AXIS.RECOVER share: NOT_READY where R125 refuses the command, BAD_PARAM for a reserved code; the load position comes in
POSTMARK, whose axis bits are ignored (R108), and the epoch in the body. -/
def axisLoadService (L : Letter) (refused : State → Nat → Bool) (go : State → Nat → State) : Service := axisService L fun a b s =>
  if refused s a then refuse s L .NOT_READY
  else if s.axisReserved a || !zeros b 1 3 then refuse s L .BAD_PARAM
  else
    let s := (s.put .POS_AX_LOAD_VALUE a (pmMake a L.postmark.toNat)).put .POS_AX_LOAD_EPOCH_VALUE a (rd b 4 4)
    let s := go s a
    (s, ⟨.OK, L.handle.toNat, s.axisPm a, []⟩)

/-- AXIS.START. -/
def State.axisStartLetter (s : State) (L : Letter) : State :=
  s.serveIn L ⟨.admin, false, false, fixedLen 8⟩ inTimebase
    (axisLoadService L (fun s a => s.axState a != 0) (fun s a => s.axisStart a))

/-- AXIS.START. -/
def execAxisStart (L : Letter) (s : State) : Host.Outcome State Fault Refusal := .next (s.axisStartLetter L)

/-- AXIS.RECOVER. -/
def State.axisRecoverLetter (s : State) (L : Letter) : State :=
  s.serveIn L ⟨.admin, false, false, fixedLen 8⟩ inTimebase
    (axisLoadService L (fun s a => s.axState a != 3 || s.recoverFault a) (fun s a => s.axisRecover a))

/-- AXIS.RECOVER. -/
def execAxisRecover (L : Letter) (s : State) : Host.Outcome State Fault Refusal := .next (s.axisRecoverLetter L)

/-- AXIS.STOP: BUSY while a channel on the axis is ARMED, RUNNING or DRAINING. -/
def svcAxisStop (L : Letter) : Service := axisService L fun a b s =>
  if !zeros b 1 3 then refuse s L .BAD_PARAM
  else match s.working (s.chansOnAxis a) with
    | some h => refuseHeld s L h
    | none => okBody (s.axisStop a) L []

/-- AXIS.STOP. -/
def State.axisStopLetter (s : State) (L : Letter) : State := s.serveIn L ⟨.admin, false, false, fixedLen 4⟩ inTimebase (svcAxisStop L)

/-- AXIS.STOP. -/
def execAxisStop (L : Letter) (s : State) : Host.Outcome State Fault Refusal := .next (s.axisStopLetter L)

/-- AXIS.QUERY. -/
def svcAxisQuery (L : Letter) : Service := axisService L fun a b s =>
  if !zeros b 1 3 then refuse s L .BAD_PARAM
  else okBody s L (le 4 (s.regWord .POS_AX_STAT a) ++ le 4 (s.regWord .POS_AX_FLT a) ++ le 8 (s.axisPm a) ++
    le 4 (s.fld .POS_AX_EPOCH_VALUE a) ++ le 4 (s.fld .POS_AX_VEL_VALUE a) ++ le 8 (s.fld .POS_AX_HWM_VALUE a) ++
    le 4 (s.regWord .POS_AX_LOSTCNT a) ++ List.replicate 12 0)

/-- AXIS.QUERY. -/
def State.axisQueryLetter (s : State) (L : Letter) : State := s.serveIn L ⟨.anyOwner, false, true, fixedLen 4⟩ inTimebase (svcAxisQuery L)

/-- AXIS.QUERY. -/
def execAxisQuery (L : Letter) (s : State) : Host.Outcome State Fault Refusal := .next (s.axisQueryLetter L)

/-! ### PIN (R399, R400) -/

/-- The handle of a channel, not IDLE, that binds a cell mapped to one of some pins. -/
def State.pinsHeld (s : State) (ps : List Nat) : Option Nat :=
  let cells := (s.mapped.filter fun e => ps.contains e.2 && decide (192 ≤ e.1) && decide (e.1 < 384)).map (·.1 - 192)
  (s.chanList.find? fun c => (s.chan c).state != 0 && (s.chan c).cells.any cells.contains).map (s.handleOf kChannel ·)

/-- PIN.CALIBRATE (R142, R399): the calibration of a bank's masked pins begins. -/
def svcPinCalibrate (L : Letter) : Service := fun b s =>
  let mask := rd b 0 2
  let bank := rd b 2 1
  let ps := (bitsOf 16 mask).map (16 * bank + ·)
  if 11 < bank || !zeros b 3 1 then refuse s L .BAD_PARAM
  else if s.on .PIN_CAL_CMD_BUSY 0 then refuse s L .BUSY
  else match s.pinsHeld ps with
    | some h => refuseHeld s L h
    | none =>
      if ps.any s.pinLocked then refuse s L .LOCKED
      else
        accepted (s.calBegin mask bank ps) L bank []

/-- PIN.CALIBRATE; with no pin masked it is done at once, after its reply. -/
def State.calibrateLetter (s : State) (L : Letter) : State :=
  let s := s.serveIn L ⟨.anyOwner, false, false, fixedLen 4⟩ inTimebase (svcPinCalibrate L)
  if s.on .PIN_CAL_CMD_BUSY 0 && s.pins.calLeft.isEmpty then s.calDone else s

/-- PIN.CALIBRATE. -/
def execPinCalibrate (L : Letter) (s : State) : Host.Outcome State Fault Refusal := .next (s.calibrateLetter L)

/-- A heater loop. -/
def State.heater (s : State) (i : Nat) : Heater := Tbl.find Heater.off s.heaters i

/-- Sets a heater loop. -/
def State.setHeater (s : State) (i : Nat) (h : Heater) : State := { s with heaters := Tbl.set Heater.off s.heaters i h }

/-- PIN.HEATER_SET (R399, R400): ENABLE 0 sets PER to 0. -/
def svcHeaterSet (L : Letter) : Service := fun b s =>
  let i := rd b 0 1
  let per := rd b 4 2
  if 31 < i || 15 < rd b 1 1 || 1 < rd b 2 1 || !zeros b 3 1 || per < 100 || !zeros b 20 4 then refuse s L .BAD_PARAM
  else
    let on := rd b 2 1 == 1
    let old := s.heater i
    let keep := on && old.enabled
    let h : Heater :=
      { input := rd b 1 1, enabled := on, period := per, setpoint := rd b 6 2, band := rd b 8 2, maxDuty := rd b 10 2, kp := rd b 12 4,
        ki := rd b 16 4, integ := if keep then old.integ else 0, code := old.code, duty := if keep then old.duty else 0,
        state := if on then (if keep then old.state else 1) else 0, reached := keep && old.reached,
        outT := if keep then old.outT else none }
    let s := s.setHeater i h
    okBody (s.pwmPer i (if on then per else 0)) L []

/-- PIN.HEATER_SET. -/
def State.heaterLetter (s : State) (L : Letter) : State := s.serveIn L ⟨.anyOwner, false, false, fixedLen 24⟩ inTimebase (svcHeaterSet L)

/-- PIN.HEATER_SET. -/
def execPinHeaterSet (L : Letter) (s : State) : Host.Outcome State Fault Refusal := .next (s.heaterLetter L)

/-- PIN.HEATER_QUERY (R399). -/
def svcHeaterQuery (L : Letter) : Service := fun b s =>
  let i := rd b 0 1
  if 31 < i || !zeros b 1 3 then refuse s L .BAD_PARAM
  else
    let h := s.heater i
    okBody s L (le 2 h.code ++ le 2 h.duty ++ le 1 h.state ++ List.replicate 11 0)

/-- PIN.HEATER_QUERY. -/
def execPinHeaterQuery (L : Letter) (s : State) : Host.Outcome State Fault Refusal :=
  .next (s.serve L ⟨.anyOwner, false, true, fixedLen 4⟩ false (svcHeaterQuery L))

/-- The heater loops act: the firmware runs, the generators' domain runs, and the power state keeps them (R14, R474, R494). -/
def State.heatersRun (s : State) : Bool := s.pmbActive && s.sideRuns 23 && decide (s.fld .PWR_STATE_STATE 0 < 2)

/-- Forces the generator of every enabled loop to steady low at once (R474 step 1, R494). -/
def State.heatersLow (s : State) : State :=
  let l := s.heaters.filter (·.2.enabled)
  if l.isEmpty then s
  else
    (s.each l fun e s =>
      let s := s.pwmHi e.1 0
      { s with pins := { s.pins with pwm := Tbl.set 0 s.pins.pwm e.1 (s.fld .PIN_PWM_PER_PER e.1 * 65536) } }).refreshPins

/-- The proportional and integral step of R400 (assumption of the rounding: a free choice between the two neighbours): the duty, clamped to
0..MAX_DUTY, and the integral, which stops growing while the duty is clamped. -/
def State.heaterStep (s : State) (h : Heater) (code : Nat) : State × Heater :=
  let err : Int := (h.setpoint : Int) - code
  let integ := h.integ + signed 32 h.ki * err
  let r := s.roundFree (signed 32 h.kp * err + integ) 65536
  let duty := max 0 (min (h.maxDuty : Int) r.2)
  let inBand := decide (err.natAbs ≤ h.band)
  let st := if inBand then 2 else if h.state = 3 then 3 else 1
  let grown := if r.2 = duty then integ else h.integ
  let since := if inBand then none else some (h.outT.getD (s.fld .PERF_TB_TB 0))
  (r.1, { h with integ := grown, duty := duty.toNat, code := code, state := st, reached := h.reached || inBand, outT := since })

/-- The start of a loop's period (R400): it reads its analog input and sets PER and HI of its generator; a BROKEN conversion sets the duty to 0,
STATE to 4 and raises source 215. -/
def execHeaterPeriod (i : Fin 32) (s : State) : Host.Outcome State Fault Refusal :=
  .next <|
  let h := s.heater i
  if !h.enabled || !s.heatersRun then s
  else
    let s := s.put .PIN_PWM_PER_PER i h.period
    let code := s.fld .PWR_AIN_CODE h.input
    if s.on .PWR_AIN_BROKEN h.input then
      ((s.setHeater i { h with code := code, duty := 0, state := 4 }).pwmHi i 0).raise 215
    else
      let r := s.heaterStep h code
      let q := r.1.roundFree (r.2.duty * h.period) 65536
      (q.1.setHeater i r.2).pwmHi i q.2.toNat

/-- A loop that has reached its band has stayed outside it for 10 s (R400): STATE 3 and source 215. -/
def execHeaterAlarm (i : Fin 32) (s : State) : Host.Outcome State Fault Refusal :=
  .next <|
  let h := s.heater i
  let long := (h.outT.map fun t => decide (t + 10 ^ 10 ≤ s.fld .PERF_TB_TB 0)).getD false
  if h.enabled && h.reached && h.state = 1 && long then (s.setHeater i { h with state := 3 }).raise 215 else s

/-! ### LINK (R401) -/

/-- A queue of an Ethernet port holds slots that its user has not taken or the port has not sent (R259). -/
def State.queueBusy (s : State) (i : Nat) (tx : Bool) : Bool :=
  if tx then s.fld .LANE_ETH_TXWR_INDEX i != s.fld .LANE_ETH_TXRD_INDEX i
  else s.fld .LANE_ETH_RXWR_INDEX i != s.fld .LANE_ETH_RXRD_INDEX i

/-- LINK.ETH_QUEUE. -/
def svcEthQueue (L : Letter) : Service := fun b s =>
  let e := rd b 0 1
  let q := rd b 1 1
  let dir := rd b 2 1
  let owner := rd b 3 1
  let legal := owner == 0x40 || (decide (1 ≤ owner) && decide (owner ≤ 0x28))
  if e < 48 || 79 < e || 15 < q || 1 < dir || !legal || 3 < rd b 12 1 || !(([16, 32, 64, 128, 256, 512, 1024, 2048, 4096, 8192, 16384, 32768] : List Nat).contains (rd b 8 4)) || 2 ^ 32 ≤ rd b 4 4 || !zeros b 13 3 then
    refuse s L .BAD_PARAM
  else if s.ethOn e && s.queueBusy ((e - 48) * 16 + q) (dir == 1) then refuse s L .BUSY
  else if dir = 0 && q = 0 && owner != 0x40 then refuse s L .DENIED
  else
    let x : EthQueue := ⟨rd b 4 4, rd b 8 4, 2 ^ (rd b 12 1 + 1), owner⟩
    let key := (e - 48) * 32 + 16 * dir + q
    okBody { s with ports := { s.ports with queues := Tbl.set EthQueue.blank s.ports.queues key x } } L []

/-- The octet domain of the Ethernet port that a body names in its first byte. -/
def inEthOctet (b : List Byte) : Option Nat := if 48 ≤ rd b 0 1 && rd b 0 1 ≤ 79 then some (rd b 0 1 / 8) else none

/-- LINK.ETH_QUEUE. -/
def State.ethQueueLetter (s : State) (L : Letter) : State := s.serveIn L ⟨.admin, false, false, fixedLen 16⟩ inEthOctet (svcEthQueue L)

/-- LINK.ETH_QUEUE. -/
def execLinkEthQueue (L : Letter) (s : State) : Host.Outcome State Fault Refusal := .next (s.ethQueueLetter L)

/-- LINK.ETH_STEER. -/
def svcEthSteer (L : Letter) : Service := fun b s =>
  let e := rd b 0 1
  let i := rd b 1 1
  let m := rd b 3 1
  if e < 48 || 79 < e || 63 < i || 1 < rd b 2 1 || 3 < m || 4095 < rd b 10 2 || 15 < rd b 14 1 || !zeros b 15 5 then refuse s L .BAD_PARAM
  else
    let x : Steer := ⟨(b.drop 4).take 6, if bitOf m 0 then some (rd b 10 2) else none, if bitOf m 1 then some (rd b 12 2) else none, rd b 14 1⟩
    let v := if rd b 2 1 = 1 then some x else none
    okBody { s with ports := { s.ports with steer := Tbl.set none s.ports.steer ((e - 48) * 64 + i) v } } L []

/-- LINK.ETH_STEER. -/
def State.ethSteerLetter (s : State) (L : Letter) : State := s.serveIn L ⟨.admin, false, false, fixedLen 20⟩ inEthOctet (svcEthSteer L)

/-- LINK.ETH_STEER. -/
def execLinkEthSteer (L : Letter) (s : State) : Host.Outcome State Fault Refusal := .next (s.ethSteerLetter L)

/-- LINK.QUERY: BAD_PARAM where the lane is not the first of an enabled link. -/
def svcLinkQuery (L : Letter) : Service := fun b s =>
  let m := rd b 0 4
  if 143 < m || !s.on .LNK_CTL_EN m then refuse s L .BAD_PARAM
  else okBody s L (([.LNK_STAT, .LNK_ERR, .LNK_PARTNER_CAP, .LNK_LATENCY, .LNK_CABLE] : List Reg).flatMap (fun r => le 4 (s.regWord r m)) ++
    List.replicate 12 0)

/-- LINK.QUERY. -/
def State.linkQueryLetter (s : State) (L : Letter) : State :=
  s.serveIn L ⟨.anyOwner, false, true, fixedLen 4⟩ (fun b => if rd b 0 4 < 144 then some (rd b 0 4 / 8) else none) (svcLinkQuery L)

/-- LINK.QUERY. -/
def execLinkQuery (L : Letter) (s : State) : Host.Outcome State Fault Refusal := .next (s.linkQueryLetter L)

end Sys2Proof.Machine
end

