-- ==== Sys2Proof/Machine/Channels.lean ====
section
/-! DEFINITION. The CHANNEL services of R171 and R210 and the commands that end what they start (chapter 07; bodies R385, R386). -/

namespace Sys2Proof.Machine

/-- How a channel service is offered. -/
def chanOffer (always : Bool) (n : Nat) : Offer := ⟨.anyOwner, false, always, fixedLen n⟩

/-- The channel a letter names. -/
def chanOf (L : Letter) : Nat := hIndex L.handle.toNat

/-- Checks 3 to 5 of R373 on a channel: its handle, its owner, and a state that the service accepts (R170, R171). -/
def State.chanCheck (s : State) (L : Letter) (states : List Nat) : Option Status :=
  match s.checkOwned kChannel L.handle.toNat L.mailbox with
  | some st => some st
  | none => if states.contains (s.chan (chanOf L)).state then none else some .NOT_READY

/-- A reply ACCEPTED with the postmark used. -/
def acceptAt (s : State) (L : Letter) (pm : Nat) (args : List Nat) : State × Reply :=
  (s.accept L (chanOf L) args, ⟨.ACCEPTED, L.handle.toNat, pm, []⟩)

/-- BAD_PARAM or LOCKED that names the missing resource (R385). -/
def refuseKind (s : State) (L : Letter) (e : Status × Nat) : State × Reply := (s, ⟨e.1, L.handle.toNat, 0, le 4 e.2⟩)

/-- CHANNEL.CREATE (R171); NOT_READY while the Franker runs (R548). -/
def svcChannelCreate (L : Letter) : Service := fun b s =>
  let mode := rd b 4 4
  if 7 < rd b 0 1 || 1 < rd b 1 1 || !zeros b 2 2 || 256 ≤ mode || rd b 8 4 = 0 then refuse s L .BAD_PARAM
  else if s.frankerRuns then refuse s L .NOT_READY
  else match s.nextIndex kChannel with
    | none => refuse s L .NO_RESOURCE
    | some c =>
      let s := (s.createAt kChannel c L.mailbox).setChan c { Channel.blank with
        axis := rd b 0 1, policy := rd b 1 1, mode := mode, lead := rd b 8 4, pitch := rd b 12 4, block := defaultBlock }
      (s, ⟨.OK, s.handleOf kChannel c, 0, []⟩)

/-- CHANNEL.CREATE. -/
def execChannelCreate (L : Letter) (s : State) : Host.Outcome State Fault Refusal :=
  .next (s.serve L (chanOffer false 16) false (svcChannelCreate L))

/-- The spool that binding a resource takes: none needed, or lacking (R392). -/
def State.spoolFor (s : State) (x : Channel) (b : Binding) : Option (Option Spool) :=
  if b.kind = 8 && b.handle / 2 ^ 28 = kJob then
    (s.makeSpool x (Tbl.find Job.blank s.jobs (hIndex b.handle)) s.allocs).map some
  else some none

/-- The postmark checks of a change (R167): one that waits for a switch needs the position, one that takes effect at once does not (R177). -/
def State.changeAt (s : State) (L : Letter) : Option Status :=
  let x := s.chan (chanOf L)
  if x.state = 2 || x.state = 3 then s.badPostmark x L.postmark.toNat else s.strayPostmark x L.postmark.toNat

/-- Binds `new`, in place of `old` where there is one, at once or at a switch postmark (R165, R177, R178, R392). Of several reasons to refuse it, held
elsewhere comes before not ready, and that before a lack of space: the rules give no order (DESIGN CHOICE, assumption 94). -/
def State.bindNew (s : State) (L : Letter) (old : Option Binding) (new : Binding) : State × Reply :=
  let c := chanOf L
  let x := s.chan c
  match s.holder c new old with
  | some h => refuseHeld s L h
  | none =>
    if !s.bindable new then refuse s L .NOT_READY
    else match s.spoolFor x new with
      | none => refuse s L .NO_RESOURCE
      | some sp =>
        let s := s.drew
        if x.state < 2 then
          let s := match old with
            | some o => (s.freeBinding c o).setSorters c
            | none => s
          ((s.takeBinding c new sp).fitMap c, plain L .OK)
        else
          let at_ := s.adjust x L.postmark.toNat
          acceptAt (s.updChan c ({ · with change := some ⟨at_, old, some new, sp, none, L, false⟩ })) L at_ []

/-- CHANNEL.BIND (R163, R171, R177). -/
def svcChannelBind (L : Letter) : Service := fun b s =>
  let r : Binding := ⟨rd b 0 4, rd b 4 4⟩
  let x := s.chan (chanOf L)
  match s.checkHandle kChannel L.handle.toNat <|> s.checkResource r L.mailbox <|> s.chanCheck L [0, 1, 2, 3] with
  | some st => refuse s L st
  | none =>
    if !r.legal then refuse s L .BAD_PARAM
    else match s.changeAt L with
      | some st => refuse s L st
      | none =>
        if x.bindings.contains r then okBody s L []
        else if x.change.isSome then refuse s L .BUSY
        else s.bindNew L none r

/-- CHANNEL.BIND. -/
def execChannelBind (L : Letter) (s : State) : Host.Outcome State Fault Refusal :=
  .next (s.serve L (chanOffer false 8) false (svcChannelBind L))

/-- CHANNEL.UNBIND (R171, R177): refused where the channel would be left without something of R172 that it has. -/
def svcChannelUnbind (L : Letter) : Service := fun b s =>
  let r : Binding := ⟨rd b 0 4, rd b 4 4⟩
  let c := chanOf L
  let x := s.chan c
  match s.checkHandle kChannel L.handle.toNat <|> s.checkResource r L.mailbox <|> s.chanCheck L [0, 1, 2, 3] with
  | some st => refuse s L st
  | none =>
    if !r.legal then refuse s L .BAD_PARAM
    else match s.changeAt L with
      | some st => refuse s L st
      | none =>
        if x.change.isSome then refuse s L .BUSY
        else if !x.bindings.contains r then refuse s L .BAD_PARAM
        else match s.leftWithout x r with
          | some e => refuseKind s L e
          | none =>
            if x.state < 2 then (((s.freeBinding c r).setSorters c).fitMap c, plain L .OK)
            else
              let at_ := s.adjust x L.postmark.toNat
              acceptAt (s.updChan c ({ · with change := some ⟨at_, some r, none, none, none, L, false⟩ })) L at_ []

/-- CHANNEL.UNBIND. -/
def execChannelUnbind (L : Letter) (s : State) : Host.Outcome State Fault Refusal :=
  .next (s.serve L (chanOffer false 8) false (svcChannelUnbind L))

/-- CHANNEL.REBIND (R171, R177, R179). -/
def svcChannelRebind (L : Letter) : Service := fun b s =>
  let old : Binding := ⟨rd b 0 4, rd b 4 4⟩
  let new : Binding := ⟨rd b 8 4, rd b 12 4⟩
  let x := s.chan (chanOf L)
  match s.checkHandle kChannel L.handle.toNat <|> s.checkResource old L.mailbox <|> s.checkResource new L.mailbox <|>
      s.chanCheck L [1, 2, 3] with
  | some st => refuse s L st
  | none =>
    if !old.legal || !new.legal then refuse s L .BAD_PARAM
    else match s.changeAt L with
      | some st => refuse s L st
      | none =>
        if x.bindings.contains new then okBody s L []
        else if x.change.isSome then refuse s L .BUSY
        else if !x.bindings.contains old then refuse s L .BAD_PARAM
        else s.bindNew L (some old) new

/-- CHANNEL.REBIND. -/
def execChannelRebind (L : Letter) (s : State) : Host.Outcome State Fault Refusal :=
  .next (s.serve L (chanOffer false 16) false (svcChannelRebind L))

/-- The map that a job names is loaded at START (R388): `map` is what the volume holds, nozzle by nozzle; a nozzle that an edit has set keeps what it was given. -/
def State.loadMap (s : State) (c : Nat) (map : List Byte) : State :=
  let s := s.fitMap c
  match s.jobOf (s.chan c) with
  | some j =>
    if j.mapVolume = 0 then s
    else
      let h := (s.chan c).health
      let h := (List.range h.nozzles).foldl (fun h k => if h.edited.contains k then h else h.setByte k (map.getD k 32).toNat) h
      let g := h.gen + 1
      (s.updChan c ({ · with health := { h with building := [g] } })).putGeneration c g
  | none => s

/-- The state of a channel that waits for the axis to cross the postmark `p` less LEAD (R169): RUNNING where it has, or stands there. -/
def State.waitState (s : State) (x : Channel) (p : Nat) : Nat := if s.reached (pmPlus p (-(x.lead : Int))) then 2 else 1

/-- An ARMED channel whose axis has crossed S0, or its resume postmark, less LEAD is RUNNING (R169). -/
def State.armed (s : State) (c : Nat) : State :=
  let x := s.chan c
  if x.state = 1 then s.setChan c { x with state := s.waitState x x.armPm } else s

/-- CHANNEL.START (R168, R169, R171, R172): S0 fixes the boundaries; EN of its sorters is set; a PROOF channel's fire
cells leave their pins (R201); its buffers are there (R207), and the map its job names is loaded (R388). -/
def svcChannelStart (L : Letter) (map : List Byte) : Service := fun _ s =>
  let c := chanOf L
  let x := s.chan c
  match s.chanCheck L [0] <|> s.badPostmark x L.postmark.toNat with
  | some st => refuse s L st
  | none => match s.missing x with
    | some e => refuseKind s L e
    | none =>
      let s0 := s.atLead x L.postmark.toNat
      let s := s.setChan c { x with s0 := s0, base := s0, baseIdx := 0, floor := none, next := s0, nextIdx := 0, armPm := s0, state := s.waitState x s0,
                                    trigs := [], lastTrig := none }
      let s := s.each x.sorters fun n s => s.put .SRT_CTL_EN n 1
      acceptAt (((s.proofCells c).takeBuffers c).loadMap c map) L s0 [s0]

/-- A channel that runs on an axis that a ring stop holds is inhibited (R221). -/
def State.heldStart (s : State) (c : Nat) : State :=
  let x := s.chan c
  s.when ((x.state == 1 || x.state == 2) && s.stopHolds x.axis) (·.haltChannel c)

/-- CHANNEL.START; `map` is the content of the map that the job names. -/
def execChannelStart (L : Letter) (map : List Byte) (s : State) : Host.Outcome State Fault Refusal :=
  .next ((s.serve L (chanOffer false 0) false (svcChannelStart L map)).heldStart (chanOf L))

/-- CHANNEL.HOLD (R171, R181). -/
def svcChannelHold (L : Letter) : Service := fun _ s =>
  match s.chanCheck L [1, 2, 4] with
  | some st => refuse s L st
  | none => (s.inhibit (chanOf L) 1, plain L .OK)

/-- CHANNEL.HOLD. -/
def execChannelHold (L : Letter) (s : State) : Host.Outcome State Fault Refusal :=
  .next (s.serve L (chanOffer true 0) false (svcChannelHold L))

/-- The channel with the binding that a pending switch will give it. -/
def Channel.switched (x : Channel) : Channel :=
  match x.change with
  | some g => if g.applied || g.mode.isSome then x
    else match g.new with
      | some b => { x with
        bindings := x.bindings.filter (fun a => some a != g.old) ++ [b]
        spool := if b.kind = 8 && b.handle / 2 ^ 28 = kJob then g.spool else x.spool }
      | none => x
  | none => x

/-- A cause does not yet allow RESUME (R181, R189, R221, R392); a REBIND that is pending counts as made for a lane (R181) and for a job whose volume is
offline (R180). -/
def State.persists (s : State) (x : Channel) (cause : Nat) : Bool :=
  match cause with
  | 2 => s.fld .POS_AX_STAT_STATE x.axis != 1
  | 4 | 5 => x.regions.any fun n => !s.woken n
  | 6 => x.poisoned.any fun d => !s.runs d || s.isHeld d
  | 7 => x.switched.lanes.any fun l => !s.laneActive l
  | 8 => ((s.jobVolume x.switched).map (·.state != 0)).getD true
  | 0xA => ((s.seriesOf x).map fun k => s.unused k == 0).getD true
  | 0xC => !(stitchLinks x.block).all s.linkActive
  | 0xE => s.on .POS_AX_STAT_DIR x.axis
  | 0xF => s.stopHolds x.axis
  | 0x10 => match s.jobOf x, x.spool with
    | some j, some sp => !sp.filled.contains j.next
    | _, _ => false
  | _ => false

/-- Discards what a RESUME at `p` leaves behind (R183): entries and fire lines behind `p` or of products that start before it, and
those products. -/
def State.discardBehind (s : State) (c p : Nat) : State :=
  let x := s.chan c
  let gone := fun (reject : Bool) (pm : Nat) => pmLt pm p || ((x.ownerOf reject pm).map fun q => pmLt q.start p).getD false
  let s := s.each x.sorters fun n s => s.dropEntries c n fun e => gone (x.rejectsOn n) e.pm
  let s := s.each x.lanes fun l s => s.dropLines c l (gone false)
  let s := s.discardProducts c false fun q => pmLt q.start p
  s.updChan c fun x => { x with trigs := x.trigs.filter fun t => !pmLt t.1 p }

/-- At fixed boundaries the next product forward passes over those that stand begun (R200: no product begins twice). -/
def Channel.skipBegun : Nat → Channel → Channel
  | 0, x => x
  | n + 1, x =>
    if x.pitch ≠ 0 && !x.has mTriggered && x.run.any (fun p => !p.settled && p.index == x.nextIdx && p.start == x.next) then
      { x with next := pmPlus x.next x.pitch, nextIdx := x.nextIdx + 1 }.skipBegun n
    else x

/-- A run starts afresh at a resume postmark (R183): begun products at or beyond it whose work is not over stand in it, and the next product forward is the one
that starts there, or behind those that stand. Stitch checks of before are of no further use: each product that begins has its own (R203). -/
def Channel.restart (x : Channel) (p : Nat) : Channel :=
  let stands := fun (q : Product) => !q.settled && !pmLt q.start p
  let x := { x with
    floor := some p, armPm := p, epoch := x.epoch + 1, checks := []
    products := x.products.map fun q => if stands q then { q with epoch := x.epoch + 1 } else q }
  if x.has mTriggered then x
  else if x.pitch = 0 then if x.products.any (fun q => stands q && q.start == p) then x else { x with next := p }
  else { x with next := p, nextIdx := x.baseIdx + pmDiff p x.base / (65536 * x.pitch) }.skipBegun x.products.length

/-- The firmware applies a channel's binding again (R181): its sorters' axis, order, target and EN, and its cells' EN. -/
def State.rebindAll (s : State) (c : Nat) : State :=
  let s := s.setSorters c
  let s := s.each (s.chan c).sorters fun n s => s.put .SRT_CTL_EN n 1
  s.each (s.chan c).cells fun k s => s.cellEnable k true

/-- A pending switch comes into force: the new resource joins the channel (R177, R179); the buffer of a job that it replaces
stays allocated until the switch completes. -/
def State.applySwitch (s : State) (c : Nat) : State :=
  match (s.chan c).change with
  | some g =>
    if g.applied || g.mode.isSome then s
    else
      let s := s.updChan c fun x => { x with change := some { g with applied := true, spool := x.spool } }
      match g.new with
      | some b => (s.takeBinding c b g.spool).fitMap c
      | none => s
  | none => s

/-- A product that starts at `p`, or a RESUME there, finds a switch at or behind `p` in force (R177, R180). -/
def State.switchAt (s : State) (c p : Nat) : State :=
  match (s.chan c).change with
  | some g => if g.mode.isSome || pmLt p g.at_ then s else s.applySwitch c
  | none => s

/-- CHANNEL.RESUME (R168, R169, R181, R183): fire lanes carry GO with the resume postmark (R275), and their held lines may leave; a pending drain stays
pending. -/
def svcChannelResume (L : Letter) : Service := fun _ s =>
  let c := chanOf L
  let x := s.chan c
  let p0 := L.postmark.toNat
  match s.chanCheck L [3] <|> firstFail [(pmAxis p0 != x.axis, .BAD_PARAM), (!s.axisRuns x.axis, .POSITION_LOST),
      (x.causes.any (s.persists x) || s.stopHolds x.axis, .NOT_READY)] <|> s.badPostmark x p0 with
  | some st => refuse s L st
  | none =>
    let p := s.adjust x p0
    let s := (s.discardBehind c p).switchAt c p
    let s := s.updChan c fun x => { x.restart p with state := s.waitState x p, causes := [], poisoned := [], offline := none }
    let s := s.rebindAll c
    let s := s.each (s.fireLanes (s.chan c)) fun l s => s.express l 0x02 [p]
    let s := s.each ((s.chan c).lanes.filterMap s.linkOf).eraseDups fun m s => s.pumpLink m
    acceptAt s L p [p]

/-- Sends one report, prepared once, to each of a list of pending services (R174). -/
def State.reportAll (s : State) (c reason at_ : Nat) (ops : List PendingOp) : State :=
  let r := s.makeReport c reason at_ 0
  r.1.each ops fun o s => s.complete o .OK o.letter.handle.toNat at_ r.2

/-- A pending change completes with CANCELLED, at its own postmark (R175, R178). -/
def State.cancelled (s : State) (c : Nat) (g : Change) : State :=
  s.completeReport c g.letter.opcode.toNat 6 g.at_ ((g.new.map (·.word)).getD 0) .CANCELLED

/-- A channel ends (R173, R174): what it holds is freed and counted, one report goes to the pending DRAIN and ABORT services, or
unrequested where there is none, START and a pending change complete with CANCELLED, and the channel is destroyed. -/
def State.finish (s : State) (c reason at_ : Nat) : State :=
  let s := s.each (s.chan c).sorters fun n s => s.freeSorter c n
  let s := s.each (s.chan c).lanes fun l s => s.dropLines c l fun _ => true
  let s := s.discardProducts c true fun _ => true
  let mine := s.svc.ops.filter fun o => o.object == c && [0x0508, 0x0509].contains o.letter.opcode.toNat
  let s := if mine.isEmpty then s.reportNotice c reason at_ 0 else s.reportAll c reason at_ mine
  let s := s.completeReport c 0x0505 6 (s.chan c).s0 0 .CANCELLED
  let s := match (s.chan c).change with
    | some g => s.cancelled c g
    | none => s
  s.endChannel c

/-- The report of an accepted RESUME (R183), behind its reply; a drain whose end lies at or behind the resume postmark completes at once
(R173). -/
def State.resumed (s : State) (c : Nat) : State :=
  match s.findOp 0x0507 c with
  | none => s
  | some o =>
    let p := o.args.headD 0
    let s := s.completeReport c 0x0507 4 p 0 .OK
    match (s.chan c).drain with
    | some e => if pmLt p e then s else s.finish c 0 e
    | none => s

/-- CHANNEL.RESUME. -/
def execChannelResume (L : Letter) (s : State) : Host.Outcome State Fault Refusal :=
  .next ((s.serve L (chanOffer false 0) false (svcChannelResume L)).resumed (chanOf L))

/-- A drain cancels a pending change whose postmark is at or beyond its end (R178, R211). -/
def State.cancelChange (s : State) (c e : Nat) : State :=
  match (s.chan c).change with
  | none => s
  | some g =>
    if g.applied || pmLt g.at_ e then s
    else
      (s.updChan c ({ · with change := none })).cancelled c g

/-- CHANNEL.DRAIN (R168, R173, R178). -/
def svcChannelDrain (L : Letter) : Service := fun _ s =>
  let c := chanOf L
  let x := s.chan c
  match s.chanCheck L [1, 2, 3] <|> s.badPostmark x L.postmark.toNat with
  | some st => refuse s L st
  | none =>
    let e := s.adjust x L.postmark.toNat
    let s := s.updChan c fun x => { x with drain := some e, state := if x.state = 3 then 3 else 4 }
    acceptAt (s.cancelChange c e) L e [e]

/-- CHANNEL.DRAIN. -/
def execChannelDrain (L : Letter) (s : State) : Host.Outcome State Fault Refusal :=
  .next (s.serve L (chanOffer false 0) false (svcChannelDrain L))

/-- CHANNEL.ABORT (R174 step 1): EN of every sorter and cell clears, and every bound lane carries STOP. -/
def svcChannelAbort (L : Letter) : Service := fun _ s =>
  let c := chanOf L
  let x := s.chan c
  match s.chanCheck L [0, 1, 2, 3, 4] with
  | some st => refuse s L st
  | none =>
    let s := s.updChan c ({ · with state := 5 })
    let s := s.each x.sorters fun n s => s.put .SRT_CTL_EN n 0
    let s := s.each x.cells fun k s => s.cellEnable k false
    let s := s.each x.lanes fun l s => s.express l 0x01 [1]
    accepted s L c []

/-- CHANNEL.ABORT, exempt from the limit of R376. -/
def execChannelAbort (L : Letter) (s : State) : Host.Outcome State Fault Refusal :=
  .next (s.serve L (chanOffer true 0) true (svcChannelAbort L))

/-- An abort completes (R174 steps 3 and 4). AT of its report is the end of a drain that was pending, else 0: no rule names a postmark (DESIGN CHOICE,
assumption 94). -/
def execAbortComplete (c : Fin 1024) (s : State) : Host.Outcome State Fault Refusal :=
  .next (if s.exists? kChannel c && (s.chan c).state = 5 then s.finish c 1 (((s.chan c).drain).getD 0) else s)

/-- At the completion of a drain the last product of a TRIGGERED channel, whose end no next product gives, ends at E (R173, R192, R205). -/
def Channel.closeAt (x : Channel) (e : Nat) : Channel :=
  { x with products := x.products.map fun p => if (x.endOf p).isNone then { p with stop := some e } else p }

/-- A drain completes (R173): the axis has crossed E, no event is pending, and with VERIFY every verdict is fixed. -/
def State.drainDone (s : State) (c : Nat) : State :=
  let s := s.settle c
  let x := s.chan c
  match x.drain with
  | none => s
  | some e =>
    if x.state ≠ 0 && x.state ≠ 5 && s.reached e && (s.pendingOf x).isEmpty &&
        x.products.all (fun p => p.settled || p.judged) then ((s.updChan c (·.closeAt e)).settle c).finish c 0 e
    else s

/-- A drain completes. -/
def execDrainComplete (c : Fin 1024) (s : State) : Host.Outcome State Fault Refusal :=
  .next (if s.exists? kChannel c then s.drainDone c else s)

/-- The report as it stands (R386): nothing starts again. -/
def State.queryBytes (s : State) (c first : Nat) : List Byte :=
  let x := s.chan c
  let bs := (x.bindings.drop first).take 486
  let causes := x.causes.foldl (fun m c => orBit m (c - 1)) 0
  le 1 x.state ++ le 1 0 ++ le 2 causes ++ le 4 x.mode ++ le 8 x.s0 ++ le 8 ((x.change.map (·.at_)).getD 0) ++ le 8 (x.drain.getD 0) ++
    le 4 x.bindings.length ++ le 4 bs.length ++ List.replicate 24 0 ++ x.reportBytes ++ x.counters.flatMap (le 4 ·) ++
    List.replicate 8 0 ++ bs.flatMap fun b => le 4 b.word ++ le 4 b.handle

/-- CHANNEL.QUERY (R171, R386). -/
def svcChannelQuery (L : Letter) : Service := fun b s =>
  match s.chanCheck L [0, 1, 2, 3, 4, 5] with
  | some st => refuse s L st
  | none => okBody s L (s.queryBytes (chanOf L) (rd b 0 4))

/-- CHANNEL.QUERY. -/
def execChannelQuery (L : Letter) (s : State) : Host.Outcome State Fault Refusal :=
  .next (s.serve L (chanOffer true 4) false (svcChannelQuery L))

/-- A channel that becomes SEALED, or ceases to be, has its job's buffers where its mode has them (R207, R396). -/
def State.respool (s : State) (c : Nat) (was : Bool) : State :=
  let x := s.chan c
  match s.jobOf x with
  | some j => if x.has mSealed = was then s
    else (s.updChan c fun x => { x with spool := (s.makeSpool x j s.allocs) <|> x.spool }).drew
  | none => s

/-- CHANNEL.SET_MODE (R210, R211): IDLE at once, else at M; where it sets a mode, every mode of the new word is checked (R186, R210); bits 3, 4, 5 and 7 are fixed once the channel has left IDLE. Where it
clears TRIGGERED, a trigger whose product would start at or beyond M starts none (R211). -/
def svcChannelSetMode (L : Letter) : Service := fun b s =>
  let c := chanOf L
  let x := s.chan c
  let mode := rd b 0 4
  let block := (b.drop 4).take 64
  let new := { x with mode := mode, block := block }
  match s.chanCheck L [0, 1, 2] with
  | some st => refuse s L st
  | none =>
    if 256 ≤ mode || !goodBlock block then refuse s L .BAD_PARAM
    else if x.state != 0 && (x.mode ^^^ mode) &&& 0xB8 != 0 then refuse s L .NOT_READY
    else match (if x.state = 0 then s.strayPostmark x L.postmark.toNat else s.badPostmark x L.postmark.toNat) with
      | some st => refuse s L st
      | none =>
        if x.change.isSome then refuse s L .BUSY
        else match s.modeFault new (if mode &&& (mode ^^^ x.mode) = 0 then 0 else mode) with
          | some e => refuseKind s L e
          | none =>
            if x.state = 0 then (((s.setChan c new).respool c (x.has mSealed)).setSorters c, plain L .OK)
            else
              let m := s.adjust x L.postmark.toNat
              let cleared := x.has mTriggered && !bitOf mode mTriggered
              acceptAt (s.updChan c fun x => { x with
                change := some ⟨m, none, none, none, some (mode, block), L, false⟩
                trigs := if cleared then x.trigs.filter (pmLt ·.1 m) else x.trigs }) L m []

/-- CHANNEL.SET_MODE. -/
def execChannelSetMode (L : Letter) (s : State) : Host.Outcome State Fault Refusal :=
  .next (s.serve L (chanOffer false 68) false (svcChannelSetMode L))

/-- An old resource still serves a product that starts before the switch (R177). -/
def State.stillServes (s : State) (c : Nat) (g : Change) : Bool :=
  let x := s.chan c
  let mine := fun (reject : Bool) (pm : Nat) => match x.ownerOf reject pm with
    | some p => pmLt p.start g.at_
    | none => pmLt pm g.at_
  match g.old with
  | none => false
  | some b => match b.kind with
    | 2 => let n := b.low 6
      (s.srt n).entries.any (fun e => mine (x.rejectsOn n) e.pm) || s.pins.armed.any fun a => a.sorter == n && mine (x.rejectsOn n) a.entry.pm
    | 3 => s.pins.armed.any (fun a => a.cells.any b.cells.contains && mine (x.rejectsOn a.sorter) a.entry.pm) || x.sorters.any fun n =>
        !s.on .SRT_TGT_KIND n && (s.srt n).entries.any fun e => (s.cellsOf n e).any b.cells.contains && mine (x.rejectsOn n) e.pm
    | 4 => (s.linePms (b.low 8)).any (mine false) && s.laneActive (b.low 8)
    | _ => false

/-- A switch completes (R177): the axis has crossed S − LEAD, and what it frees serves nothing more; a lane that has left ACTIVE frees at once, its lines
counted as dropped. -/
def State.switchDone (s : State) (c : Nat) : State :=
  let x := s.chan c
  match x.change with
  | none => s
  | some g =>
    if g.mode.isSome || !s.reached (pmPlus g.at_ (-(x.lead : Int))) then s
    else
      let s := s.applySwitch c
      if s.stillServes c g then s
      else
        let s := match g.old with
          | some b => ((s.freeBinding c b).setSorters c).fitMap c
          | none => s
        let s := s.updChan c ({ · with change := none })
        let w := match g.old, g.new with
          | some b, _ => b.word
          | none, some b => b.word
          | none, none => 0
        s.completeReport c g.letter.opcode.toNat 2 g.at_ w .OK

/-- A switch completes. -/
def execSwitchComplete (c : Fin 1024) (s : State) : Host.Outcome State Fault Refusal :=
  .next (if s.exists? kChannel c then s.switchDone c else s)

/-- A bound sorter or cell differs from the binding (R164); the stop of a ring is no difference (R221). -/
def State.bindingDiffers (s : State) (x : Channel) : Bool :=
  let live := x.state = 1 || x.state = 2 || x.state = 4
  x.sorters.any (fun n => s.fld .SRT_CTL_AXIS n != x.axis || s.fld .SRT_CTL_ORDER n != x.orderOf n ||
    s.regWord .SRT_TGT n + 1 != Tbl.find 0 x.targets n || (live && !s.on .SRT_CTL_EN n)) ||
  (live && x.cells.any fun k => !s.on .PIN_PLC_CTL_EN k)

/-- The comparison that the firmware makes every 1 ms (R164). -/
def execBindingCheck (c : Fin 1024) (s : State) : Host.Outcome State Fault Refusal :=
  .next (if s.exists? kChannel c && s.bindingDiffers (s.chan c) then s.inhibit c 9 else s)

/-- The report of underruns that continue, with policy CONTINUE: at most one every 100 ms (R182). -/
def execUnderrunReport (c : Fin 1024) (s : State) : Host.Outcome State Fault Refusal :=
  .next (if s.exists? kChannel c && (s.chan c).underDue && (s.chan c).policy = 0 && s.lapsed .report c 100000000 then
    (s.reportNotice c 5 (s.axisPm (s.chan c).axis) 0).startTimer .report c else s)

/-- A bound lane has been out of ACTIVE for 10 ms (R181). -/
def execLinkDownTimeout (l : Fin 140) (s : State) : Host.Outcome State Fault Refusal :=
  .next <|
  match s.chanOfLane l with
  | some c => if s.laneActive l || !s.ran .inactive l 10000000 then s else s.inhibit c 7
  | none => s

/-- The channel whose job's volume went offline reaches its last complete product (R180): nothing before E is pending. -/
def execVolumeOfflineInhibit (c : Fin 1024) (s : State) : Host.Outcome State Fault Refusal :=
  .next <|
  match (s.chan c).offline with
  | none => s
  | some e =>
    let x := s.chan c
    if s.exists? kChannel c && s.reached e && !(s.pendingOf x).any (fun v => ((x.ownerOf v.1 v.2).map fun p => pmLt p.start e).getD false)
    then s.inhibit c 8 else s

end Sys2Proof.Machine
end

