-- ==== Sys2Proof/Machine/Events.lean ====
section
/-! DEFINITION. Counters, events and the logbook (chapter 21): raises and user events (R531, R535), performance counters
(R522..R529) and the logbook writer (R536..R542), with the LOG and PERF services (R402). -/

namespace Sys2Proof.Machine

/-! ### Event sources -/

/-- A raise of an event source (R531). -/
def execEventRaise (src : Fin 256) (s : State) : Host.Outcome State Fault Refusal := .next (s.raise src)

/-- A write of EVT_USER: each 1 bit u raises source 248 + u; the register reads 0 (R535, R542). -/
def State.userEvents (s : State) (v : Nat) : State := s.each (bitsOf 8 v) (fun u s => s.raise (248 + u))

/-- A write to EVT_USER (R535). -/
def execEvtUserWrite (p : Port) (value : Word) (s : State) : Host.Outcome State Fault Refusal :=
  .next (s.access p .EVT_USER 0 true value.toNat (·.userEvents (value.toNat % 256)))

/-! ### Performance counters -/

/-- A write of PERF_SEL[i]: its fields are stored and CLEAR zeroes the count and OVF (R527, R543). -/
def State.perfSel (s : State) (i v : Nat) : State :=
  let s := s.put .PERF_SEL_BLOCK i v |>.put .PERF_SEL_INST i (v / 2 ^ 4) |>.put .PERF_SEL_EVENT i (v / 2 ^ 10)
    |>.put .PERF_SEL_EN i (v / 2 ^ 16) |>.put .PERF_SEL_MODE i (v / 2 ^ 17) |>.put .PERF_SEL_THRESH i (v / 2 ^ 20)
  s.when (bitOf v 18) fun s =>
    ((s.put .PERF_CNT_COUNT i 0).put .PERF_CNT_OVF i 0).putBit .PERF_OVF_OVF (i / 32) (i % 32) false

/-- A write to PERF_SEL[i] with CLEAR (R527, R528). -/
def execPerfClear (p : Port) (i : Fin 256) (value : Word) (s : State) : Host.Outcome State Fault Refusal :=
  .next (s.access p .PERF_SEL i true value.toNat (·.perfSel i value.toNat))

/-- An enabled counter counts its next increment, at most 64, and wraps past 2^48 - 1 (R523, R527). -/
def execPerfWrap (i : Fin 256) (n : Fin 65) (s : State) : Host.Outcome State Fault Refusal :=
  .next (if s.on .PERF_SEL_EN i then s.perfAdd i n else s)

/-- A read of the low word of PERF_CNT[i] captures count and OVF for its port (R10, R526). -/
def execPerfCountRead (p : Port) (i : Fin 256) (s : State) : Host.Outcome State Fault Refusal :=
  .next (s.access p .PERF_CNT i false 0 (·.wideRead p .PERF_CNT i))

/-- The PERF.SAMPLE notice of counter `i` to the mailbox that claims it (R529). -/
def State.sample (s : State) (i : Nat) : State :=
  match Tbl.find 0 s.evt.claims i with
  | 0 => s
  | m + 1 => s.notice m 0x1004 0 0
      (le 2 i ++ le 1 (s.fld .PERF_CNT_OVF i) ++ le 1 0 ++ le 6 (s.fld .PERF_CNT_COUNT i) ++ le 6 0 ++ le 8 s.tb)

/-- Every 100 ms a claimed counter is sent to its mailbox (R529). -/
def execPerfSample (i : Fin 256) (s : State) : Host.Outcome State Fault Refusal := .next (s.sample i)

/-- Ends the claim on counter `i` with its last sample (R528, R529). -/
def State.unclaim (s : State) (i : Nat) : State :=
  let s := s.sample i
  { s with evt := { s.evt with claims := Tbl.set 0 s.evt.claims i 0 } }

/-- Whether a mailbox owner may claim counters (R528). -/
def State.mayClaim (s : State) (owner : Nat) : Bool :=
  if 1 ≤ owner && owner ≤ 0x28 then s.on .PERF_USER_EN_FABRIC 0
  else if 0x51 ≤ owner && owner ≤ 0x53 then s.on .PERF_USER_EN_HOST 0
  else true

/-- PERF.CLAIM (R402, R528). -/
def svcPerfClaim (L : Letter) : Service := fun b s =>
  let i := rd b 0 4
  let m := L.mailbox.val + 1
  if !s.mayClaim (s.fld .PST_MB_OWNER_OWNER L.mailbox) then refuse s L .DENIED
  else if 255 < i then refuse s L .BAD_PARAM
  else if Tbl.find 0 s.evt.claims i = 0 || Tbl.find 0 s.evt.claims i = m then
    okBody { s with evt := { s.evt with claims := Tbl.set 0 s.evt.claims i m } } L []
  else refuse s L .BUSY

/-- PERF.CLAIM. -/
def execPerfClaim (L : Letter) (s : State) : Host.Outcome State Fault Refusal :=
  .next (s.serve L ⟨.anyOwner, false, false, fixedLen 4⟩ false (svcPerfClaim L))

/-- PERF.RELEASE (R402, R529): one more sample, and the claim ends. -/
def svcPerfRelease (L : Letter) : Service := fun b s =>
  let i := rd b 0 4
  if 255 < i then refuse s L .BAD_PARAM
  else if Tbl.find 0 s.evt.claims i = 0 then okBody s L []
  else if Tbl.find 0 s.evt.claims i = L.mailbox.val + 1 then okBody (s.unclaim i) L []
  else refuse s L .BUSY

/-- PERF.RELEASE. -/
def execPerfRelease (L : Letter) (s : State) : Host.Outcome State Fault Refusal :=
  .next (s.serve L ⟨.anyOwner, false, false, fixedLen 4⟩ false (svcPerfRelease L))

/-- Releases every claim of a mailbox whose owner satisfies `p` (R528). -/
def State.unclaimClass (s : State) (p : Nat → Bool) : State :=
  s.each (s.evt.claims.filter (fun e => p (s.fld .PST_MB_OWNER_OWNER (e.2 - 1)))) fun e s => s.unclaim e.1

/-- PERF.USER (R402, R528): sets FABRIC and HOST; clearing either releases its claims with a sample each. -/
def svcPerfUser (L : Letter) : Service := fun b s =>
  let v := rd b 0 1
  if 3 < v || !zeros b 1 3 then refuse s L .BAD_PARAM
  else
    let s := s.when (s.on .PERF_USER_EN_FABRIC 0 && !bitOf v 0) (·.unclaimClass fun o => decide (1 ≤ o) && decide (o ≤ 0x28))
    let s := s.when (s.on .PERF_USER_EN_HOST 0 && !bitOf v 1)
      (·.unclaimClass fun o => decide (0x51 ≤ o) && decide (o ≤ 0x53))
    okBody ((s.put .PERF_USER_EN_FABRIC 0 (v % 2)).put .PERF_USER_EN_HOST 0 (v / 2)) L []

/-- PERF.USER. -/
def execPerfUser (L : Letter) (s : State) : Host.Outcome State Fault Refusal :=
  .next (s.serve L ⟨.anyOwner, false, false, fixedLen 4⟩ false (svcPerfUser L))

/-! ### The logbook -/

/-- Records the logbook holds (R536), and records of one block. -/
def bookSize : Nat := 262144
def blockRecs : Nat := 4096

/-- The logical block that holds a record (R405, R536). -/
def logBlock (seq : Nat) : Nat := 212 + seq / blockRecs % 64

/-- The writer has reached the block whose erase still runs (R539). -/
def State.eraseBlocks (s : State) : Bool := s.evt.erasing && s.evt.nextSeq % blockRecs == 0

/-- Keeps WAITING true to the writer: a record queued, and no erased block or no allowance to write it (R539). -/
def State.setWaiting (s : State) : State :=
  s.put .EVT_LOG_STAT_WAITING 0
    (b2n (!s.evt.queue.isEmpty && (s.eraseBlocks || s.fld .EVT_LOG_STAT_ALLOW 0 == 0)))

/-- Waiting firmware records enter while at least 32 entries are free (R538). -/
def State.letIn (s : State) : State :=
  match s.evt.firmware with
  | [] => s
  | r :: t =>
    if s.evt.queue.length + 32 ≤ 128 then
      ({ s with evt := { s.evt with firmware := t } }).setQueue (s.evt.queue ++ r)
    else s

/-- A freed entry takes the LOST record of the lost run, and source 13 is raised (R538). -/
def State.lostRecord (s : State) : State :=
  match s.evt.lost with
  | none => s
  | some l =>
    let detail := le 4 l.count ++ le 4 0 ++ le 8 l.firstPost ++ le 8 l.lastPost ++ le 8 l.firstTime
    let s := { s with evt := { s.evt with lost := none } }
    (s.setQueue (s.evt.queue ++ [s.stamp 2 0xFFFF 0 detail])).raise 13

/-- The oldest SEQ still held once block of `seq` has been begun: the next block is erased as it begins (R539). -/
def oldestAfter (seq : Nat) : Nat := seq / blockRecs * blockRecs + 2 * blockRecs - bookSize

/-- The writer programs the queue's first record (R539): SEQ goes on, the allowance drops, a new block starts the next
erase, and the freed entry is taken under R538. -/
def State.writeRecord (s : State) (r : LogRec) (rest : List LogRec) : State :=
  let q := s.evt.nextSeq
  let begins := q % blockRecs == 0
  let book := (s.evt.book.filter (fun e => decide (oldestAfter q ≤ e.1))) ++ [(q, r)]
  let s := { s with evt := { s.evt with book := book, nextSeq := q + 1, erasing := s.evt.erasing || begins } }
  let s := s.when begins fun s => (s.program (logBlock q)).startErase (logBlock (q + blockRecs)) |>.1
  let s := (s.put .EVT_LOG_NEWEST_SEQ 0 q).put .EVT_LOG_OLDEST_SEQ 0 ((book.head?.map (·.1)).getD q)
  let s := (s.put .EVT_LOG_STAT_ALLOW 0 (s.fld .EVT_LOG_STAT_ALLOW 0 - 1)).setQueue rest
  s.lostRecord.letIn.setWaiting

/-- The writer stops for good (R540): STOPPED is set and source 14 is raised. -/
def State.stopLog (s : State) : State := (s.put .EVT_LOG_STAT_STOPPED 0 1).raise 14

/-- The logbook area is read-only (R437: bit 5 of RO_AREA). -/
def State.logReadOnly (s : State) : Bool := bitOf (s.fld .CFG_NVM_STAT_RO_AREA 0) 5

/-- The logbook writer programs one queued record (R539), or stops (R540). It waits while the queue is empty, the
allowance is 0 or the next block's erase runs. -/
def execLogRecordWrite (r : ProgResult) (s : State) : Host.Outcome State Fault Refusal :=
  .next <|
  match s.evt.queue with
  | [] => s
  | h :: t =>
    if s.on .EVT_LOG_STAT_STOPPED 0 then s
    else if s.logReadOnly then s.stopLog
    else if r = .unreplaceable then (s.areaReadOnly (logBlock s.evt.nextSeq)).stopLog
    else if s.eraseBlocks || s.fld .EVT_LOG_STAT_ALLOW 0 = 0 then s.setWaiting
    else
      (if r = .replaced then s.retire (logBlock s.evt.nextSeq) else s).writeRecord h t

/-- Every 15.625 ms the allowance gains one record, up to 4,096 (R539). -/
def execLogAllowanceTick (s : State) : Host.Outcome State Fault Refusal :=
  .next (s.put .EVT_LOG_STAT_ALLOW 0 (min 4096 (s.fld .EVT_LOG_STAT_ALLOW 0 + 1))).setWaiting

/-- A read of EVT_LOG_LOST returns and clears it (R9, R542). -/
def execEvtLogLostRead (p : Port) (s : State) : Host.Outcome State Fault Refusal :=
  .next (s.access p .EVT_LOG_LOST 0 false 0 (·.readClear p .EVT_LOG_LOST 0))

/-- A record as R536 lays it out: SEQ, stamps, source, kind, flags and 32 bytes of DETAIL. -/
def recBytes (seq : Nat) (r : LogRec) : List Byte :=
  let detail := (if r.kind = 1 then le 4 r.count ++ r.detail else r.detail).take 32
  le 8 seq ++ le 8 r.timebase ++ le 8 r.postmark ++ le 4 r.time ++ le 2 r.source ++ le 1 r.kind ++ le 1 r.flags ++
    detail ++ List.replicate (32 - detail.length) 0

/-- LOG.READ (R402, R536): COUNT whole records from FIRST, or from the oldest held. It suspends an erase of the logbook (R539). -/
def svcLogRead (L : Letter) : Service := fun b s =>
  let count := rd b 8 4
  let first := if rd b 0 8 = 2 ^ 64 - 1 then s.fld .EVT_LOG_OLDEST_SEQ 0 else rd b 0 8
  if count = 0 || 63 < count then refuse s L .BAD_PARAM
  else if !s.evt.book.any (fun e => e.1 == first) then refuse s L .BAD_PARAM
  else
    let recs := (s.evt.book.filter (fun e => decide (first ≤ e.1))).take count
    okBody (s.when s.evt.erasing (·.suspendErases)) L (recs.flatMap fun e => recBytes e.1 e.2)

/-- LOG.READ. -/
def execLogRead (L : Letter) (s : State) : Host.Outcome State Fault Refusal :=
  .next (s.serve L ⟨.anyOwner, false, false, fixedLen 12⟩ false (svcLogRead L))

/-- LOG.ROUTE (R402, R534): enables or disables the notices of a source to the letter's mailbox. -/
def svcLogRoute (L : Letter) : Service := fun b s =>
  let src := rd b 0 1
  if 1 < rd b 1 1 || !zeros b 2 2 then refuse s L .BAD_PARAM
  else
    let m := Tbl.find 0 s.evt.routes src
    let m' := if rd b 1 1 = 1 then orBit m L.mailbox else clearBit m L.mailbox
    okBody { s with evt := { s.evt with routes := Tbl.set 0 s.evt.routes src m' } } L []

/-- LOG.ROUTE. -/
def execLogRoute (L : Letter) (s : State) : Host.Outcome State Fault Refusal :=
  .next (s.serve L ⟨.anyOwner, false, false, fixedLen 4⟩ false (svcLogRoute L))

/-- The START record, the first written after a start (R537, R541): the queue is empty at a start. -/
def State.startRecord (s : State) : State :=
  let held := match s.evt.queueAtReset with
    | some n => n
    | none => 0xFFFFFFFF
  let detail := le 4 (s.regWord .DEV_RST_CAUSE 0) ++ le 4 held ++ le 4 (s.regWord .CFG_FAIL 0)
  s.setQueue (s.stamp 3 0xFFFF 0 detail :: s.evt.queue)

/-- At a reset or on entry to STANDBY the always-on logic records how many entries the queue held, and they are lost
(R541); power-on loses the count as well. -/
def State.loseQueue (s : State) (keepCount : Bool) : State :=
  let n := if keepCount then some s.evt.queue.length else none
  ({ s with evt := { s.evt with queueAtReset := n, lost := none, firmware := [] } }).setQueue [] |>.put .EVT_LOG_STAT_WAITING 0 0

end Sys2Proof.Machine
end

