-- ==== Sys2Proof/Machine/Links.lean ====
section
/-! DEFINITION. The Plynik link (chapter 11): enabling (R264), received frames, flits and markers (R266..R272), express slots (R275),
acknowledgement and replay (R276, R277), fire-line deadlines (R279), beacons (R280), latency (R281, R282), training (R283, R284),
changes of width (R285, R286, R290), capability (R287), retrains (R288, R289) and DORMANT (R291, R292). -/

namespace Sys2Proof.Machine

/-! ### Enabling (R264, R291, R293) -/

/-- A write of 1 to EN is refused (R264). -/
def State.linkIllegal (s : State) (m lanes : Nat) : Bool :=
  lanes % 2 = 0 || (maskLanes m lanes).any fun l =>
    decide (l / 8 ≠ m / 8) || decide (144 ≤ l) || (l != m && decide (140 ≤ l)) ||
    s.standard l ||
    (match s.linkOf l with
      | some q => q != m
      | none => false)

/-- MEMBER of the lanes of link `m` but its first. -/
def State.markMembers (s : State) (m : Nat) (v : Bool) : State :=
  s.each ((s.linkLanes m).filter (· != m)) fun l s => s.put .LNK_STAT_MEMBER l (b2n v)

/-- LEAVE is sent three times, and the link goes DORMANT with DISABLED (R291); one raised outside ACTIVE is held (R275). -/
def State.linkOff (s : State) (m : Nat) (lost : List Lost) : State :=
  let s := s.when (s.fld .LNK_STAT_STATE m != 0) fun s => (s.linkExpress m 0x0C [0x0A]).dormant m 0x0A lost
  (s.markMembers m false).put .LNK_CTL_EN m 0

/-- A write of LNK_CTL[m] (R264, R291, R293). While EN is 1 the other fields keep their values, and a write that differs sets
CFG_REF; a member's register refuses every write. -/
def State.lnkCtl (s : State) (m v : Nat) (lost : List Lost) : State :=
  let lanes := v / 2 ^ 8 % 256
  let same := s.fld .LNK_CTL_LANES m == lanes && s.fld .LNK_CTL_MIN_W m == v / 2 ^ 16 % 16 && s.fld .LNK_CTL_FALLBACK m == v / 2 ^ 20 % 4
  if s.on .LNK_STAT_MEMBER m then s.linkRefuse m
  else if s.on .LNK_CTL_EN m then
    let s := s.when (!same) (·.linkRefuse m)
    if v % 2 = 1 then s else s.linkOff m lost
  else
    let s := ((s.put .LNK_CTL_LANES m lanes).put .LNK_CTL_MIN_W m (v / 2 ^ 16)).put .LNK_CTL_FALLBACK m (v / 2 ^ 20)
    if v % 2 = 0 then s
    else if s.linkIllegal m lanes then s.linkRefuse m
    else ((s.put .LNK_CTL_EN m 1).markMembers m true).detect m

/-- A write of 1 to LNK_CTL[m].EN. -/
def execLinkEnable (p : Port) (m : Fin 144) (value : Word) (s : State) : Host.Outcome State Fault Refusal :=
  .next (s.access p .LNK_CTL m true value.toNat (·.lnkCtl m (value.toNat ||| 1) []))

/-- A write of 0 to LNK_CTL[m].EN. -/
def execLinkDisable (p : Port) (m : Fin 144) (value : Word) (lost : List Lost) (s : State) : Host.Outcome State Fault Refusal :=
  .next (s.access p .LNK_CTL m true value.toNat (·.lnkCtl m (clearBit value.toNat 0) lost))

/-! ### Received frames, flits and markers -/

/-- A frame's FEC decoding completes (R267), on a lane that delivers words: corrections and uncorrectable frames are counted. The flits of an uncorrectable one are
discarded, but for its express slots: of its 16 TYPE bytes, where one is of a replayable flit the first missing is asked for again (R277), and the ninth such frame
of a lane in 1 ms fails it (R286). A frame on a lane of the mask ends the silence of R289. -/
def execFrameDecoded (m : Fin 144) (x : FrameResult) (types : List Byte) (s : State) : Host.Outcome State Fault Refusal :=
  .next <|
  if !s.receives (m + x.lane) || s.bypassed m then s
  else
  let s := s.when (bitOf (s.fld .LNK_STAT_MASK m) x.lane) (·.startTimer .frame m)
  let replayable := (upright (bitOf (s.link m).inverted x.lane) types).any fun t => kindOf t == 1 && t.toNat % 4 != 1
  match x.ecc with
  | .clean => s
  | .corrected => s.bump .LNK_CNT_FEC_CORR m 1
  | .uncorrectable =>
    let s := ((s.bump .LNK_CNT_FEC_UNCORR m 1).linkErr m .LNK_ERR_UNCORR).perf 5 (m.val / 8) 3 1 none
    let s := s.when (replayable && s.fld .LNK_STAT_STATE m == 6) (·.sendNak m)
    let l := s.clock :: (Tbl.find [] (s.link m).bad x.lane).filter fun t => decide (s.clock < t + 1000000)
    let full := decide (8 < l.length)
    let s := s.updLink m fun y => { y with bad := Tbl.set [] y.bad x.lane (if full then [] else l) }
    s.when full (·.laneFails m (2 ^ x.lane.val))

/-- The whole length of an inbound message by its header: a Vizon line, padded to 64 bytes (R193), or another message. -/
def State.inboundLength (s : State) (m vl : Nat) (head : List Byte) : Nat :=
  if vl = 0 && bitOf (s.fld .LNK_PARTNER_CAP_FLAGS m) 1 then (32 + rd head 16 4 + 63) / 64 * 64 else Config.messageLength vl head

/-- A flit is delivered to its virtual lane (R272): a FIRST flit inside an unfinished message discards the partial one, counted in
DROP; a message that is whole is handed on, an entry of the crossing queue for each 64 bytes of it (R92). -/
def State.deliver (s : State) (m vl : Nat) (first : Bool) (body : List Byte) : State :=
  let old : Nat × List Byte := Tbl.find (0, []) (s.link m).parts vl
  let s := s.when (first && old.1 != 0) (·.bump .LNK_CNT_FLIT_DROP m old.1)
  let now : Nat × List Byte := if first then (1, body) else (old.1 + 1, old.2 ++ body)
  let set := fun (x : Nat × List Byte) (s : State) => s.updLink m fun y => { y with parts := Tbl.set (0, []) y.parts vl x }
  if !first && old.1 = 0 then s
  else if s.inboundLength m vl (now.2.take 60) ≤ now.2.length then ((set (0, []) s).each (List.range ((now.2.length + 63) / 64)) fun _ s => s.passOut (m / 8)).emit (.linkMessage m vl now.2)
  else set now s

/-- A flit of a virtual lane that is taken frees its buffer at once (R271). -/
def State.freeFlit (s : State) (m vl : Nat) : State :=
  s.updLink m fun x => { x with
    freed := x.freed.set vl ((x.freed.getD vl 0 + 1) % 2 ^ 16)
    owed := x.owed.set vl (x.owed.getD vl 0 + 1) }

/-- Link `m` has asked for an immediate change of its mask, or awaits its partner's, and no RESTRIPE marker has come: what comes until then is discarded (R286). -/
def State.restriping (s : State) (m : Nat) : Bool :=
  (s.link m).awaits || match (s.link m).width with
  | some w => w.immediate
  | none => false

/-- A received flit (R266, R272, R277): a replayable flit out of sequence is discarded, and where one is missing NAK is sent; after the failure of a
lane every flit is, up to the RESTRIPE marker (R286). A lane outside the mask, one that delivers no words (R245) and a port that is bypassed (R248) give none.
`take` is what becomes of a flit of a virtual lane in its sequence. -/
def State.flitReceived (s : State) (m : Nat) (f : RxFlit) (take : Nat → Bool → List Byte → State → State) : State :=
  let inverted := bitOf (s.link m).inverted f.lane
  let f : RxFlit := { f with type := (upright inverted [f.type]).getD 0 0, body := upright inverted f.body }
  let vl := f.type.toNat % 4
  if !s.receives (m + f.lane) || s.bypassed m || !bitOf (s.fld .LNK_STAT_MASK m) f.lane then s
  else
    let s := s.perf 5 (m / 8) 1 1 none
    let x := s.link m
    if kindOf f.type = 2 then s.badExpress m
    else if kindOf f.type ≠ 1 || s.fld .LNK_STAT_STATE m ≠ 6 || s.restriping m then s
    else if vl = 1 then s.freeFlit m 1
    else if f.seq.toNat = x.rxSeq then
      let s := s.updLink m fun y => { y with rxSeq := (y.rxSeq + 1) % 2 ^ 32, unacked := y.unacked + 1, nak := none }
      (take vl (bitOf f.type.toNat 4) f.body s).freeFlit m vl
    else if seqAtOrAfter f.seq.toNat x.rxSeq then s.sendNak m
    else s

/-- Link `m` is aligning its lanes: in ALIGN, or in RETRAIN once EQUALIZE is done (R283). -/
def State.aligning (s : State) (m : Nat) : Bool :=
  s.fld .LNK_STAT_STATE m == 4 || (s.fld .LNK_STAT_STATE m == 7 && (s.link m).aligning)

/-- An alignment marker on a lane of the link (R268): the receiver aligns the lane on it; with skew beyond 64 flit times the lane fails ALIGN, which
leaves it out of the mask (R283), and in ACTIVE it is lost. A RESTRIPE marker answers an immediate request (R286). -/
def execMarkerReceived (m : Fin 144) (lane : Fin 8) (count : BitVec 32) (skew : Nat) (restripe : Bool) (s : State) :
    Host.Outcome State Fault Refusal :=
  .next <|
  if !s.receives (m + lane) || s.bypassed m then s
  else
  let s := s.updLink m fun x => { x with markers := Tbl.set 0 x.markers (x.order.getD lane lane) (count.toNat + 1) }
  let s := s.when restripe fun s => s.updLink m fun x => { x with awaits := false, width := match x.width with
    | some w => if w.immediate then none else some w
    | none => none }
  if skew ≤ 64 then s
  else if s.aligning m then s.put .LNK_STAT_MASK m (clearBit (s.fld .LNK_STAT_MASK m) lane)
  else s.laneFails m (2 ^ lane.val)

/-! ### Flow control and acknowledgement -/

/-- Credit is returned: 64 flits have been freed on a virtual lane, or 10 µs have passed (R271). -/
def execFlowSend (m : Fin 144) (s : State) : Host.Outcome State Fault Refusal :=
  .next <|
  let f := (s.link m).freed
  if s.fld .LNK_STAT_STATE m = 6 && s.sends m then
    (s.updLink m fun x => { x with owed := [0, 0, 0, 0] }).sendExpress m 3 [f.getD 0 0, 0, f.getD 2 0, f.getD 3 0]
  else s

/-- ACK: 256 replayable flits have come, or 10 µs have passed (R276). -/
def execAckSend (m : Fin 144) (s : State) : Host.Outcome State Fault Refusal :=
  .next (if s.fld .LNK_STAT_STATE m = 6 && s.sends m then (s.updLink m fun x => { x with unacked := 0 }).sendExpress m 4 [(s.link m).rxSeq] else s)

/-- A NAK in force is repeated with the same SEQ every 10 µs (R274, R277). -/
def execNakRepeat (m : Fin 144) (s : State) : Host.Outcome State Fault Refusal :=
  .next <|
  match (s.link m).nak with
  | some n => if s.fld .LNK_STAT_STATE m = 6 && s.sends m && s.ran .nak m 10000 then (s.emitSlot m 5 n.2 [n.1]).startTimer .nak m else s
  | none => s

/-! ### Express slots received (R275) -/

/-- The link is ACTIVE. -/
def State.up (s : State) (m : Nat) : Bool := s.fld .LNK_STAT_STATE m == 6

/-- STOP: for a head driver; an FLV-144 that receives it holds no fire lines of its partner's (R275). -/
def execExpressStop (x : Slot) (reason : BitVec 8) (s : State) : Host.Outcome State Fault Refusal :=
  .next (s.expressIn x 1 (some reason.toNat) id)

/-- GO: for a head driver (R275). -/
def execExpressGo (x : Slot) (postmark : BitVec 64) (s : State) : Host.Outcome State Fault Refusal :=
  .next (s.expressIn x 2 (some postmark.toNat) id)

/-- FLOW adds credit on virtual lanes 0, 2 and 3 (R271). -/
def execExpressFlow (x : Slot) (vl0 vl2 vl3 : BitVec 16) (s : State) : Host.Outcome State Fault Refusal :=
  .next (s.expressIn x 3 (some (expressArg 3 [vl0.toNat, 0, vl2.toNat, vl3.toNat])) fun s => if !s.up x.link then s
    else (s.updLink x.link fun y => { y with credited := [vl0.toNat, 0, vl2.toNat, vl3.toNat] }).pumpLink x.link)

/-- ACK frees the replay buffer below a sequence (R276); in CAPABILITY it acknowledges the device's own (R283). -/
def execExpressAck (x : Slot) (next : BitVec 32) (s : State) : Host.Outcome State Fault Refusal :=
  .next (s.expressIn x 4 (some next.toNat) fun s =>
    if s.fld .LNK_STAT_STATE x.link = 5 then
      (s.updLink x.link fun y => { y with acked := true, replay := [] }).when (s.link x.link).got (·.linkUp x.link id)
    else (s.acknowledge x.link next.toNat).pumpLink x.link)

/-- NAK makes the transmitter resend (R277), in CAPABILITY its CAPABILITY. -/
def execExpressNak (x : Slot) (missing : BitVec 32) (s : State) : Host.Outcome State Fault Refusal :=
  .next (s.expressIn x 5 (some missing.toNat) fun s => if s.fld .LNK_STAT_STATE x.link = 5 then s.replayFrom x.link missing.toNat
    else if !s.up x.link then s
    else ((s.acknowledge x.link missing.toNat).replayFrom x.link missing.toNat).pumpLink x.link)

/-- TIMING is answered with the turnaround, in units of 15.625 ps, in the states in which it is sent (R281). -/
def execExpressTiming (x : Slot) (turnaround : BitVec 32) (s : State) : Host.Outcome State Fault Refusal :=
  .next (s.expressIn x 6 none fun s => s.when (s.up x.link || s.fld .LNK_STAT_STATE x.link == 2) (·.sendExpress x.link 7 [turnaround.toNat, x.seq.toNat]))

/-- RETRAIN_REQ starts a retrain in both directions (R288, R290). -/
def execExpressRetrainReq (x : Slot) (s : State) : Host.Outcome State Fault Refusal :=
  .next (s.expressIn x 9 (some 0) fun s => s.retrain x.link)

/-- The partner's WIDTH_REQ (R285, R286, R290): the flits it misses are resent where the link has not gone to RETRAIN. -/
def State.widthReq (s : State) (m mask : Nat) (immediate : Bool) (missing : Nat) : State :=
  let accepted := (s.link m).ownMask mask &&& s.usable m
  let own := (s.link m).width
  let resend := fun (s : State) => s.when (immediate && s.fld .LNK_STAT_STATE m == 6) (·.replayFrom m missing)
  let planned := fun (s : State) =>
    if widthOf accepted < s.minWidth m then (s.put .LNK_ERR_CFG_REF m 1).raiseOf (octetSource m) .LNK_ERR m |>.sendExpress m 0x0B [s.fld .LNK_STAT_MASK m]
    else (s.sendExpress m 0x0B [accepted]).agreeWidth m accepted
  match own with
  | none =>
    if immediate then resend (s.restripe m (accepted &&& s.fld .LNK_STAT_MASK m) false) else planned s
  | some w =>
    if !immediate && !w.immediate then
      if s.on .LNK_STAT_LEADER m then s else planned (s.yieldWidth m)
    else
      let both := accepted &&& w.mask
      let s := if w.immediate then s.updLink m fun x => { x with width := none }
        else (s.updLink m fun x => { x with width := none, again := none }).linkErrAlways m .LNK_ERR_YIELD
      resend (s.restripe m both true)

/-- A WIDTH_REQ. -/
def execExpressWidthReq (x : Slot) (mask : BitVec 8) (immediate : Bool) (missing : BitVec 32) (s : State) :
    Host.Outcome State Fault Refusal :=
  .next (s.expressIn x 10 (some (expressArg 10 [mask.toNat, b2n immediate, missing.toNat])) fun s => if s.up x.link then s.widthReq x.link mask.toNat immediate missing.toNat else s)

/-- WIDTH_ACK gives the mask that the partner accepts (R285); the mask in force is its refusal, and nothing changes. -/
def execExpressWidthAck (x : Slot) (mask : BitVec 8) (s : State) : Host.Outcome State Fault Refusal :=
  .next (s.expressIn x 11 (some mask.toNat) fun s => match (s.link x.link).width with
    | some w =>
      if w.immediate || !s.up x.link then s
      else
        let s := s.updLink x.link fun y => { y with width := none }
        let named := (s.link x.link).ownMask mask.toNat
        let mask := named &&& w.mask
        if named = s.fld .LNK_STAT_MASK x.link || widthOf mask < s.minWidth x.link then s else s.agreeWidth x.link mask
    | none => s)

/-- LEAVE puts the link DORMANT (R275, R283). -/
def execExpressLeave (x : Slot) (lost : List Lost) (s : State) : Host.Outcome State Fault Refusal :=
  .next (s.expressIn x 12 none fun s => if s.fld .LNK_STAT_STATE x.link = 0 then s else s.dormant x.link 0x0C lost)

/-! ### Fire lines (R279) -/

/-- A line whose first flit has not left by its send deadline is replaced by SKIP (R279); the bytes of it that are still to come are
discarded. -/
def execFireLineDeadline (l : Fin 140) (postmark : BitVec 64) (s : State) : Host.Outcome State Fault Refusal :=
  .next <|
  let pm := postmark.toNat
  let b := s.partialLine l 0
  match s.linkOf l with
  | none => s
  | some m =>
    match (s.firesOf l).find? (fun f => f.pm == pm && s.deadlinePassed m pm f.length) with
    | some f => ({ s with fires := Tbl.upd [] s.fires l (fun q => q.erase f) }).skipLine m l pm f.row |>.pumpLink m
    | none =>
      if s.laneFire l && decide (16 ≤ b.length) && rd b 0 8 == pm && s.deadlinePassed m pm (rd b 8 4) then
        ((s.dropPartial l).skipLine m l pm (rd b 14 2)).pumpLink m
      else s

/-! ### Beacons (R271, R280) -/

/-- Where an axis will stand when a beacon that leaves now reaches the far end, LNK_LATENCY from now, from the values of R107 (R280). -/
def State.beaconPos (s : State) (m a : Nat) : Nat := pmMake a (s.predictAt a (125 * s.now + 8 * s.fld .LNK_LATENCY_L m) 125)

/-- The entry of an axis in a beacon. -/
def State.beaconEntry (s : State) (m a : Nat) : List Byte :=
  let st := s.fld .POS_AX_STAT_STATE a
  le 8 (s.beaconPos m a) ++ le 4 (s.fld .POS_AX_VEL_VALUE a) ++
    le 4 (bits 32 (s.fld .POS_AX_EPOCH_VALUE a + wrapOf (s.axisPm a % 2 ^ 61) (s.beaconPos m a % 2 ^ 61))) ++
    le 1 (b2n (!s.axisRuns a) + 2 * b2n (st == 2) + 4 * s.fld .POS_AX_STAT_DIR a + 8) ++ [0] ++ le 2 (s.link m).instant

/-- The position flits of one instant: three entries in each (R280). -/
def State.beaconFlits (s : State) (m : Nat) : List (List Byte) :=
  let es := (bitsOf 8 (s.fld .LNK_BEACON_AXES m)).map (s.beaconEntry m)
  (List.range ((es.length + 2) / 3)).map fun k =>
    let b := ((es.drop (3 * k)).take 3).flatten
    b ++ List.replicate (60 - b.length) 0

/-- The entries in a position flit: those whose VALID is set. -/
def flitEntries (b : List Byte) : Nat := ((List.range 3).filter fun k => (b.getD (20 * k + 16) 0).toNat.testBit 3).length

/-- A beacon instant (R280): its entries leave at once, unless express slots take every position (`blocked`); an instant that has not
left is replaced, its entries discarded and counted (R271). -/
def execBeaconSend (m : Fin 144) (blocked : Bool) (s : State) : Host.Outcome State Fault Refusal :=
  .next <|
  if !s.up m || !s.sends m || s.fld .LNK_BEACON_AXES m = 0 then s
  else
    let old := (s.link m).beacon.foldl (fun n b => n + flitEntries b) 0
    let s := s.when (old != 0) fun s => (s.bump .LNK_CNT_EXP_BEACON_DROP m old).linkErr m .LNK_ERR_BEACON_DROP
    let fs := s.beaconFlits m
    let s := s.updLink m fun x => { x with beacon := if blocked then fs else [], instant := (x.instant + 1) % 2 ^ 16 }
    if blocked then s else (s.passBulk m fs.length).each fs fun b s => (s.stripe m 1 false none b).perf 5 (m.val / 8) 0 1 none

/-! ### Training (R283, R284) -/

/-- The rates of R284. -/
def ladder : List (Nat × Bool) :=
  [(262144, true), (217600, true), (108800, true), (57344, true), (54400, true), (32768, false), (26400, false), (10560, false),
   (1280, false)]

/-- A rate as LANE_RATE codes it. -/
def rateCode (e : Nat × Bool) : Nat := e.1 + 2 ^ 19 * b2n e.2

/-- A rate at which link `m` may train on a mask (R240, R284). -/
def State.rateFits (s : State) (m mask : Nat) (e : Nat × Bool) : Bool :=
  (maskLanes m mask).all (fun l => decide (e.1 ≤ s.fld .LANE_RATE_RATE l)) && decide (e.1 ≤ (s.link m).rate % 2 ^ 19) &&
    s.withinWclk (m / 8) e.1 e.2 && (decide (m < 140) || e.1 == s.fld .LANE_RATE_RATE m)

/-- EQUALIZE at a rate on a mask. -/
def State.equalize (s : State) (m mask : Nat) (e : Nat × Bool) : State :=
  ((s.setLinkState m 3).put .LNK_STAT_MASK m mask).equalizeLanes m mask (rateCode e)

/-- PROBE is over once the frames have been exchanged and four TIMING pairs answered: the link goes to EQUALIZE at the highest rate of
R284, or DORMANT where there is none (R283). -/
def State.probe (s : State) (m : Nat) (lost : List Lost) : State :=
  let x := s.link m
  if s.fld .LNK_STAT_STATE m ≠ 2 || x.pairs < 4 then s
  else match ladder.find? (s.rateFits m x.common) with
    | some e => s.equalize m x.common e
    | none => s.dormant m 4 lost

/-- The lanes on which a sound training frame came and that deliver words (R245, R283). -/
def State.trained (s : State) (m : Nat) (x : TrainedLanes) : Nat :=
  (bitsOf 8 (s.usable m)).foldl (fun v i => if s.receives (m + i) && soundFrame (x.frames.getD i []) then orBit v i else v) 0

/-- A round of training frames (R283): lanes on which they came, the partner's identifier and its highest rate. In PROBE the device's own go out with what it
has; a partner's order of the lanes and their polarity are kept (R265). -/
def execTrainingFrameReceived (m : Fin 144) (uid : BitVec 64) (x : TrainedLanes) (rate : BitVec 20) (lost : List Lost) (s : State) :
    Host.Outcome State Fault Refusal :=
  .next <|
  let mask := s.trained m x
  let st := s.fld .LNK_STAT_STATE m
  if s.bypassed m || mask = 0 then s
  else if st = 1 && widthOf mask < s.minWidth m then s
  else if st = 1 || st = 2 then
    let s := s.when (st == 1) fun s => (s.setLinkState m 2).sendTraining m
    let s := (s.put .LNK_PARTNER_UID_UID m uid.toNat).put .LNK_STAT_LEADER m (b2n (decide (uid.toNat < s.fld .DEV_UID_UID 0)))
    let s := s.updLink m fun y => { y with common := mask, rate := rate.toNat, order := x.order.map (·.val), inverted := x.inverted.toNat }
    if uid.toNat = s.fld .DEV_UID_UID 0 then s.dormant m 3 lost
    else if widthOf mask < s.minWidth m then s.dormant m 4 lost
    else s.probe m lost
  else s

/-- EQUALIZE is met on these lanes: they have adapted and meet the error ratio (R283); the partner's requests have moved the taps (R241). -/
def execEqualizeDone (m : Fin 144) (x : Equalized) (s : State) : Host.Outcome State Fault Refusal :=
  .next <|
  let mask := (bitsOf 8 (x.lanes.toNat &&& s.fld .LNK_STAT_MASK m)).foldl (fun v i => if s.on .LANE_STAT_ADAPT_DONE (m + i) then orBit v i else v) 0
  let st := s.fld .LNK_STAT_STATE m
  let settle := fun (s : State) => (s.each (bitsOf 8 mask) fun i s => s.moveTaps (m + i) x.taps[i]?).put .LNK_STAT_MASK m mask
  if widthOf mask < s.minWidth m then s
  else if st = 3 then (settle s).setLinkState m 4
  else if st = 7 && !(s.link m).aligning then (settle s).updLink m fun y => { y with aligning := true }
  else s

/-- The body of the device's CAPABILITY on link `m` (R287): an FLV-144 of revision 0x0100 that serves no nozzles. -/
def State.capability (s : State) (m : Nat) : List Byte :=
  let rate := s.fld .LANE_CUR_CUR m
  [1#8, Config.capFlags &&& 31#8] ++ le 2 0x0100 ++ (List.range 4).flatMap (fun v => le 1 (max 1 (Config.capCredits v).toNat)) ++
    le 4 (Config.rxFix rate) ++ le 4 (Config.txFix rate) ++ le 4 Config.capPrep.toNat ++ le 4 0 ++ le 4 (s.link m).rxSeq ++ List.replicate 32 0#8

/-- Frame lock and deskew on these lanes (R283): the link goes to CAPABILITY, whose message is a numbered flit of virtual lane 2 (R269, R276), or back to ACTIVE,
where replay resumes from the sequence the partner expects (R288), behind the slots that were held (R275). -/
def execAlignDone (m : Fin 144) (lanes : BitVec 8) (expects : BitVec 32) (s : State) : Host.Outcome State Fault Refusal :=
  .next <|
  let mask := lanes.toNat &&& s.fld .LNK_STAT_MASK m
  let st := s.fld .LNK_STAT_STATE m
  if widthOf mask < s.minWidth m then s
  else if st = 4 then
    let s := ((s.put .LNK_STAT_MASK m mask).setLinkState m 5).updLink m fun x => { x with got := false, acked := false, place := 0 }
    s.sendFlit m ⟨2, true, s.capability m, none⟩
  else if st = 7 && (s.link m).aligning then
    let s := (s.put .LNK_STAT_MASK m mask).updLink m fun x => { x with aligning := false }
    (s.acknowledge m expects.toNat).linkUp m (·.replayFrom m expects.toNat)
  else s

/-- LNK_CABLE.LEN (R282): 0 when the result is negative. The latency is the mean of R281. -/
def State.showCable (s : State) (m : Nat) : State :=
  let x := s.link m
  let n := x.lats.length
  let ps : Int := (x.lats.foldl (· + ·) 0 * 125 : Nat) - (((Config.txFix (s.fld .LANE_CUR_CUR m)) + x.rxFix) * (16 * n) : Nat)
  if n = 0 then s
  else s.put .LNK_CABLE_LEN m (ps * 299792 * (s.fld .LNK_CABLE_VF m : Int) / (16 * n * 1000000 * 1024 : Nat)).toNat

/-- The partner's CAPABILITY (R287): CAP_MISMATCH, or it is acknowledged; the link is ACTIVE once its own is too (R283). Both messages are flits of virtual lane 2
and count in its sequence and credit. NEXT_SEQ may name the device's own CAPABILITY or the flit behind it, as the partner sent its own before or after that one came
(DESIGN CHOICE, assumption 64); any other number is that of the device's CAPABILITY. -/
def execCapabilityReceived (m : Fin 144) (c : Capability) (lost : List Lost) (s : State) : Host.Outcome State Fault Refusal :=
  .next <|
  let x := s.link m
  let credits := [c.credits.1.toNat, c.credits.2.1.toNat, c.credits.2.2.1.toNat, c.credits.2.2.2.toNat]
  let own := (x.txSeq + 2 ^ 32 - 1) % 2 ^ 32
  let fits := c.nextSeq.toNat == own || c.nextSeq.toNat == x.txSeq
  let tx := if fits then x.txSeq else (c.nextSeq.toNat + 1) % 2 ^ 32
  let rx := (x.rxSeq + 1) % 2 ^ 32
  let bad := c.revision.toNat / 256 != 1 || credits.any (· == 0) || (x.fresh && !fits)
  if s.fld .LNK_STAT_STATE m ≠ 5 || x.got || s.bypassed m || !(maskLanes m (s.fld .LNK_STAT_MASK m)).any s.receives then s
  else if bad then s.dormant m 8 lost
  else
    let s := ((s.put .LNK_PARTNER_CAP_CLASS m c.cls.toNat).put .LNK_PARTNER_CAP_FLAGS m c.flags.toNat).put .LNK_PARTNER_CAP_REVISION m c.revision.toNat
    let s := (s.put .LNK_PARTNER_PREP_PREP m c.prep.toNat).updLink m fun x => { x with
      nozzles := c.nozzles.toNat, rxFix := c.rxFix.toNat, room := credits.map (16 * ·), txSeq := tx, rxSeq := rx
      replay := x.replay.map fun e => ((tx + 2 ^ 32 - 1) % 2 ^ 32, e.2)
      sent := [0, 0, 1, 0], credited := [0, 0, 0, 0], freed := [0, 0, 1, 0], owed := [0, 0, 1, 0], got := true }
    ((s.showCable m).sendExpress m 4 [rx]).when x.acked (·.linkUp m id)

/-- The bound of each state of R283, in ns. -/
def stateBound (v : Nat) : Nat :=
  match v with
  | 2 | 5 => 10000000
  | 3 => 20000000
  | 4 => 2000000
  | 7 => 5000000
  | _ => 100000000

/-- A state's timer runs out (R283): EQUALIZE drops to the next lower rate that meets R284, up to FALLBACK times; ring ports never do (R284). -/
def execLinkStateTimeout (m : Fin 144) (lost : List Lost) (s : State) : Host.Outcome State Fault Refusal :=
  .next <|
  let x := s.link m
  if !s.ran .linkState m (stateBound (s.fld .LNK_STAT_STATE m)) then s
  else match s.fld .LNK_STAT_STATE m with
  | 1 => s.dormant m 1 lost
  | 2 => s.dormant m 2 lost
  | 3 =>
    let lower := ladder.find? fun e => decide (e.1 < s.fld .LANE_CUR_CUR m % 2 ^ 19) && s.rateFits m x.common e
    match lower with
    | some e =>
      if x.falls < s.fld .LNK_CTL_FALLBACK m && m.val < 140 then
        (s.updLink m fun y => { y with falls := y.falls + 1 }).equalize m x.common e
      else s.dormant m 5 lost
    | none => s.dormant m 5 lost
  | 4 => s.dormant m 6 lost
  | 5 => s.dormant m 7 lost
  | 7 => s.dormant m 9 lost
  | _ => s

/-- The back-off of R291, in ns. -/
def State.backoff (s : State) (m : Nat) : Nat := 1000000 * 2 ^ min (s.fld .LNK_STAT_ATTEMPT m) 10 + 1000 * (s.uid % 1024)

/-- The back-off ends (R291). -/
def execBackoffExpired (m : Fin 144) (s : State) : Host.Outcome State Fault Refusal :=
  .next (if s.fld .LNK_STAT_STATE m = 0 && s.on .LNK_CTL_EN m && s.ran .linkState m (s.backoff m) then s.detect m else s)

/-- ACTIVE has been held for 1 s (R291). -/
def execActiveHeld (m : Fin 144) (s : State) : Host.Outcome State Fault Refusal :=
  .next (if s.up m && s.ran .linkState m 1000000000 then s.put .LNK_STAT_ATTEMPT m 0 else s)

/-! ### Latency (R281, R282) -/

/-- TIMING is sent in PROBE and every 1 ms in ACTIVE (R281). -/
def execTimingSend (m : Fin 144) (s : State) : Host.Outcome State Fault Refusal :=
  .next <|
  if s.sends m && (s.up m || s.fld .LNK_STAT_STATE m = 2) then
    (s.updLink m fun x => { x with timing := some (x.expSeq, s.now) }).sendExpress m 6 [s.now] |>.startTimer .timing m
  else s

/-- TIMING_REPLY gives one value (R281): the interval to its arrival less the turnaround is twice the latency; the register is the mean of
the last eight in ps, whose rounding no rule gives. -/
def execExpressTimingReply (x : Slot) (turnaround : BitVec 32) (of : BitVec 16) (arrived : BitVec 64) (lost : List Lost) (s : State) :
    Host.Outcome State Fault Refusal :=
  .next (s.expressIn x 7 (some (expressArg 7 [turnaround.toNat, of.toNat])) fun s => match (s.link x.link).timing with
    | some t =>
      if t.1 ≠ of.toNat then s
      else
        let m := x.link
        let lats := ((arrived.toNat - t.2 - turnaround.toNat) :: (s.link m).lats).take 8
        let s := s.updLink m fun y => { y with timing := none, lats := lats, pairs := y.pairs + 1 }
        let r := s.roundFree (lats.foldl (· + ·) 0 * 125 : Nat) (16 * lats.length)
        ((r.1.put .LNK_LATENCY_L m r.2.toNat).showCable m).probe m lost
    | none => s)

/-- A TIMING with no reply within 1 ms is abandoned (R281). -/
def execTimingTimeout (m : Fin 144) (s : State) : Host.Outcome State Fault Refusal :=
  .next (if s.ran .timing m 1000000 then s.updLink m fun x => { x with timing := none } else s)

/-! ### Requests (R285, R286, R288, R289) -/

/-- A write of LNK_CMD[m] (R293): ignored unless ACTIVE; a retrain goes before a change of width, which waits for ACTIVE (R290). -/
def State.lnkCmd (s : State) (m v : Nat) : State :=
  let width := bitOf v 1
  let mask := v / 256 % 256
  if !s.up m then s
  else if bitOf v 0 then
    let s := (s.sendExpress m 9 [0]).retrain m
    if width then s.updLink m fun x => { x with again := some mask } else s
  else if width then s.askWidth m mask
  else s

/-- A write of LNK_CMD[m].RETRAIN. -/
def execLnkCmdRetrain (p : Port) (m : Fin 144) (s : State) : Host.Outcome State Fault Refusal :=
  .next (s.access p .LNK_CMD m true 1 (·.lnkCmd m 1))

/-- A write of LNK_CMD[m].WIDTH with MASK. -/
def execLnkCmdWidth (p : Port) (m : Fin 144) (mask : BitVec 8) (s : State) : Host.Outcome State Fault Refusal :=
  .next (s.access p .LNK_CMD m true (2 + 256 * mask.toNat) (·.lnkCmd m (2 + 256 * mask.toNat)))

/-- A WIDTH_REQ has had no answer for 1 ms: it is resent with the same SEQ, up to three times, and then the link retrains (R285, R289). -/
def execWidthReqResend (m : Fin 144) (s : State) : Host.Outcome State Fault Refusal :=
  .next <|
  match (s.link m).width with
  | none => s
  | some w =>
    if !s.up m || !s.ran .width m 1000000 then s
    else if 3 ≤ w.resent then s.retrain m
    else ((s.updLink m fun x => { x with width := some { w with resent := w.resent + 1 } }).emitSlot
      m 0x0A w.seq [w.mask, b2n w.immediate, w.missing]).startTimer .width m

/-- The added lanes have been equalised and aligned, with ADAPT_DONE and the taps that the training left, or 25 ms have passed: the lanes not aligned are left out
(R241, R285 steps 3 and 4). A mask that this brings below MIN_W is refused with no change. -/
def execWidthLanesAdded (m : Fin 144) (x : Equalized) (s : State) : Host.Outcome State Fault Refusal :=
  .next <|
  match (s.link m).change with
  | some (mask, false) =>
    let old := s.fld .LNK_STAT_MASK m
    let done := (bitsOf 8 (mask &&& x.lanes.toNat)).foldl (fun v i => if s.on .LANE_STAT_ADAPT_DONE (m + i) then orBit v i else v) 0
    let new := mask &&& (old ||| done)
    if new ≠ mask && !s.ran .added m 25000000 then s
    else
      let s := s.each (bitsOf 8 (new &&& (255 ^^^ old))) fun i s => s.moveTaps (m + i) x.taps[i]?
      if widthOf new < s.minWidth m then (s.updLink m fun x => { x with change := none }).linkRefuse m
      else s.nameMarker m new
  | _ => s

/-- The switch marker (R285 step 5): it goes out over the old mask, and both ends stripe what follows over the new one. Lanes of it that have been disabled since are
left out; with fewer than MIN_W the link retrains (R289). -/
def execWidthSwitchMarker (m : Fin 144) (s : State) : Host.Outcome State Fault Refusal :=
  .next <|
  match (s.link m).change with
  | some (mask, true) =>
    let mask := mask &&& s.usable m
    let s := s.sendMarker m (s.fld .LNK_STAT_MASK m) false
    if widthOf mask < s.minWidth m then (s.updLink m fun x => { x with change := none }).retrain m
    else
      let joined := (s.link m).failed &&& (255 ^^^ mask)
      ((s.updLink m fun x => { x with change := none, failed := joined }).applyMask m mask).askAgain m
  | _ => s

/-- Lanes of the mask fail in ACTIVE (R286). -/
def execLaneFailure (m : Fin 144) (lanes : BitVec 8) (s : State) : Host.Outcome State Fault Refusal :=
  .next (s.laneFails m lanes.toNat)

/-- A failed lane has held LOCK for 100 ms: the firmware asks for a planned change that adds it (R286). -/
def execLaneRejoin (l : Fin 144) (s : State) : Host.Outcome State Fault Refusal :=
  .next <|
  match s.linkOf l with
  | none => s
  | some m =>
    if bitOf (s.link m).failed (l.val - m) && s.on .LANE_STAT_LOCK l && s.ran .lock l 100000000 then s.askWidth m (orBit (s.fld .LNK_STAT_MASK m) (l.val - m)) else s

/-- No frame has been decoded on any lane for 10 µs (R289). -/
def execLinkSilenceTimeout (m : Fin 144) (s : State) : Host.Outcome State Fault Refusal :=
  .next (if s.ran .frame m 10000 then s.retrain m else s)

/-- The counter registers of a link. -/
def lnkCnt (k : Fin 4) : Reg := if k = 0 then .LNK_CNT_FEC else if k = 1 then .LNK_CNT_FLIT else if k = 2 then .LNK_CNT_LINK else .LNK_CNT_EXP

/-- A read of a counter register of link `m` returns and clears both counts (R9, R293). -/
def execLnkCntRead (p : Port) (m : Fin 144) (k : Fin 4) (s : State) : Host.Outcome State Fault Refusal :=
  .next (s.access p (lnkCnt k) m false 0 (·.readClear p (lnkCnt k) m))

end Sys2Proof.Machine
end

