-- ==== Sys2Proof/Machine/OctetOps.lean ====
section
/-! DEFINITION. Domains that stop and run (R84), and the octets' writes of DEV_OCT_CTL and DEV_OCT_CLK (R236..R238). -/

namespace Sys2Proof.Machine

/-- Domain `d` stops (R84): RUN clears, STOP sets, source 4 is raised. D24 raises no event and STOP bit 24 is never set (R83, R85). A stack whose
domain stops goes into self-refresh (R314). -/
def State.stopDomain (s : State) (d : Nat) : State :=
  if !s.runs d then s
  else
    let s := s.putBit .DEV_ISL_RUN_RUN 0 d false
    if d = 24 then s
    else
      let s := s.when (decide (18 ≤ d) && decide (d ≤ 21)) (·.put .MEM_STK_STAT_SELF_REFRESH (d - 18) 1)
      ((s.orFld .DEV_ISL_STOP_STOP 0 (2 ^ d)).when (d == 22) (·.refreshPins)).raise 4

/-- Domain `d` runs again, but for the accesses that wait for it (R84): RUN sets and source 4 is raised. A stack leaves self-refresh (R314); the
timebase's return loses the axes (R124). -/
def State.startDomain (s : State) (d : Nat) : State :=
  if s.runs d then s
  else
    let s := s.putBit .DEV_ISL_RUN_RUN 0 d true
    if d = 24 then s
    else
      let s := s.when (decide (18 ≤ d) && decide (d ≤ 21)) (·.put .MEM_STK_STAT_SELF_REFRESH (d - 18) 0)
      ((s.when (d == 23) (·.timebaseReturn)).when (d == 22) (·.refreshPins)).raise 4

/-- The lanes of octet `k`. -/
def octetLanes (k : Nat) : List Nat := (List.range 8).map (8 * k + ·)

/-- Every lane of octet `k` that a predicate picks is reset (R246, R247), each with what it loses. -/
def State.resetLanes (s : State) (k : Nat) (lost : List Lost) (p : Nat → Bool) : State :=
  s.each ((octetLanes k).filter p) fun l s => s.laneReset l (lost.getD (l % 8) ⟨0, [], []⟩)

/-- An island reset of octet `k` takes its lanes and every class L register of its links, enabled or not (R247, R293). -/
def State.octetLanesReset (s : State) (k : Nat) (lost : List Lost) : State :=
  (s.resetLanes k lost (fun _ => true)).each ((octetLanes k).filter (· < 144)) fun m s => s.clearLink m

/-- A refused write of an octet's clock settings (R236, R238). -/
def State.octetRefuse (s : State) (k : Nat) : State := (s.put .DEV_OCT_STAT_CFG_REF k 1).raiseOf (laneSource (8 * k)) .DEV_OCT_STAT k

/-- Standard protocols of octet `k` lose their links as its lanes are reset, and their class L state clears (R253, R255, R493, R496). -/
def State.protocolsDown (s : State) (k : Nat) : State :=
  let s := s.when (decide (k < 2)) (·.endpointReset)
  if 2 ≤ k && k ≤ 5 then
    s.each [2 * (k - 2), 2 * (k - 2) + 1] fun j s => ((s.rpOff j).put .LANE_RP_STAT_CONTAINED j 0).put .LANE_RP_STAT_NOT_NVME j 0
  else if 6 ≤ k && k ≤ 9 then
    let mine := fun (w : MemWrite) => w.who == 20 + k
    let s := s.setMem fun m => { m with writes := m.writes.map fun w => if mine w then { w with shown := none } else w }
    s.each (octetLanes (k - 6)) fun i s =>
      let s := (s.ethDown (48 + i)).each [.LANE_ETH_CNT_RX_DROP, .LANE_ETH_CNT_TX_BAD]
        fun f s => s.put f i 0
      s.each (List.range 16) fun q s =>
        s.each [.LANE_ETH_RXWR_INDEX, .LANE_ETH_RXRD_INDEX, .LANE_ETH_TXWR_INDEX, .LANE_ETH_TXRD_INDEX] fun f s => s.put f (16 * i + q) 0
  else s

/-- Octet `k` stops (R238 step 3, R474 step 5): its lanes are reset (R246), its domain is held in island reset, and its PLL stops. -/
def State.octetDown (s : State) (k : Nat) (lost : List Lost) : State :=
  let s := (s.octetLanesReset k lost).protocolsDown k
  let s := (s.put .DEV_OCT_STAT_LOCK k 0).showFollow
  (s.crossAssert k true).stopDomain k

/-- Octet `k` is switched off (R238 step 3). -/
def State.octetOff (s : State) (k : Nat) (lost : List Lost) : State := (s.octetDown k lost).put .DEV_OCT_CTL_EN k 0

/-- A write of DEV_OCT_CTL[k] (R236, R238): REFSEL and SSC stay while EN is 1, and a write that has other values for them is refused (assumption 95); EN is not
set while REFSEL is 0b11. A reference that is newly selected counts as present until its loss is seen (assumption 95). -/
def State.octCtl (s : State) (k v : Nat) (lost : List Lost) : State :=
  let same := s.fld .DEV_OCT_CTL_REFSEL k == v / 2 % 4 && s.fld .DEV_OCT_CTL_SSC k == v / 8 % 2
  if s.on .DEV_OCT_CTL_EN k then
    let s := s.when (!same) (·.octetRefuse k)
    if v % 2 = 1 then s else s.octetOff k lost
  else
    let other := s.fld .DEV_OCT_CTL_REFSEL k != v / 2 % 4
    let s := (s.put .DEV_OCT_CTL_REFSEL k (v / 2)).put .DEV_OCT_CTL_SSC k (v / 8)
    let s := s.when other (·.put .DEV_OCT_STAT_REF_OK k (b2n (v / 2 % 4 != 3)))
    if v % 2 = 0 then s
    else if v / 2 % 4 = 3 then s.octetRefuse k
    else s.put .DEV_OCT_CTL_EN k 1

/-- A write of DEV_OCT_CLK[k] (R237, R238): every write is refused while EN is 1. -/
def State.octClk (s : State) (k v : Nat) : State :=
  let w := v % 2 ^ 11
  if s.on .DEV_OCT_CTL_EN k || w < 20 || 1024 < w then s.octetRefuse k
  else s.put .DEV_OCT_CLK_WCLK k w

/-- A write of 1 to DEV_OCT_CTL[k].EN. -/
def execOctetEnable (p : Port) (k : Fin 18) (value : Word) (s : State) : Host.Outcome State Fault Refusal :=
  .next (s.access p .DEV_OCT_CTL k true value.toNat (·.octCtl k (value.toNat ||| 1) []))

/-- A write of 0 to DEV_OCT_CTL[k].EN. -/
def execOctetDisable (p : Port) (k : Fin 18) (value : Word) (lost : List Lost) (s : State) : Host.Outcome State Fault Refusal :=
  .next (s.access p .DEV_OCT_CTL k true value.toNat (·.octCtl k (clearBit value.toNat 0) lost))

/-- The PLL of an octet loses lock or its reference while EN is 1 (R238): the domain stops, the transmitters go to electrical idle, and PLL_LOSS is set. Where
the PLL has no lock yet, only the loss of a reference that was present is one. -/
def execOctetPllLoss (x : PllLoss) (s : State) : Host.Outcome State Fault Refusal :=
  let k := x.octet.val
  .next <|
  if !s.on .DEV_OCT_CTL_EN k || (!s.on .DEV_OCT_STAT_LOCK k && !(x.reference && s.on .DEV_OCT_STAT_REF_OK k)) then s
  else
    let s := s.each (octetLanes k) fun l s => s.emit (.laneIdle l)
    let s := ((s.put .DEV_OCT_STAT_LOCK k 0).when x.reference (·.put .DEV_OCT_STAT_REF_OK k 0)).showFollow
    ((s.stopDomain k).put .DEV_OCT_STAT_PLL_LOSS k 1).raiseOf (laneSource (8 * k)) .DEV_OCT_STAT k

end Sys2Proof.Machine
end

