-- ==== Sys2Proof/Machine/Rings.lean ====
section
/-! DEFINITION. The rings (chapter 09): joining and the bypass (R213, R214), roll-call and ring state (R216..R218), ring stops and their
release (R219..R223), member tables (R215, R233), and the RING services (R397). -/

namespace Sys2Proof.Machine

/-! ### Joining (R213..R218) -/

/-- The weights that the registers show (R217, R234): the device's own bit is 1 while joined. The mailboxes of a peer that becomes unreachable are reset
(R364). -/
def State.showReach (s : State) (r mask : Nat) : State :=
  let x := s.ring r
  let mask := match s.ownMember r with
    | some m => if s.on .LNK_RING_CTL_JOIN r then orBit mask m else clearBit mask m
    | none => mask
  let gone := (List.range 32).filter fun m => (s.fld .LNK_RING_REACH_REACH r).testBit m && !mask.testBit m && s.ownMember r != some m
  let s := s.each gone fun m s => s.resetOwner (0x60 + 0x20 * r + m)
  let s := (s.put .LNK_RING_REACH_REACH r mask).put .LNK_RING_WEIGHT_REACH_W r (x.maskWeight mask)
  (s.put .LNK_RING_WEIGHT_TOTAL_W r x.total).put .LNK_RING_CTL_MEMBER r ((s.ownMember r).getD 0)

/-- One record in each audit log of the series of ring `r` (R218). -/
def State.auditRing (s : State) (r kind : Nat) : State :=
  let places := (List.range s.lease.series.length).filter fun k => ((s.lease.series[k]?).map (·.ring == r)).getD false
  let one := places.filter fun k => places.find? (fun j => Tbl.find 0 s.lease.auditVol j == Tbl.find 0 s.lease.auditVol k) == some k
  s.each one fun k s => s.audit k kind 0 0 0 0 0

/-- A ring changes state (R218). -/
def State.setRingState (s : State) (r v : Nat) : State :=
  if s.fld .LNK_RING_STAT_STATE r = v then s
  else
    let s := (((s.put .LNK_RING_STAT_STATE r v).put .LNK_RING_STAT_CHANGED r 1).raise (212 + r))
    if v = 3 || v = 4 then s.auditRing r 0x14 else if v = 2 then s.auditRing r 0x15 else s

/-- CFG_MISMATCH is set (R214, R216, R234). -/
def State.ringMismatch (s : State) (r : Nat) : State :=
  (s.put .LNK_RING_STAT_CFG_MISMATCH r 1).when (!s.on .LNK_RING_STAT_CFG_MISMATCH r) (·.raise (212 + r))

/-- Leaving a ring: it is UNJOINED, no member is reachable, and the stop set is taken afresh on rejoining (R218, R223). -/
def State.leaveRing (s : State) (r : Nat) : State :=
  (((s.setRing r { s.ring r with stops := [], formed := 0 }).showStops r).showReach r 0).setRingState r 0

/-- Both ports of ring `r` take the lane rate that its RATE selects (R240); one whose word rate is above WCLK is refused (R237, R239). -/
def State.ringPorts (s : State) (r : Nat) : State :=
  let rate := ringRate (s.fld .LNK_RING_CTL_RATE r)
  s.each [140 + 2 * r, 141 + 2 * r] fun l s =>
    if s.withinWclk 17 rate.1 rate.2 then (s.put .LANE_RATE_RATE l rate.1).put .LANE_RATE_PAM4 l (b2n rate.2)
    else (s.put .LANE_ERR_RATE_REF l 1).raiseOf 146 .LANE_ERR l

/-- A write of LNK_RING_CTL (R214, R218, R240): while the stop set holds a stop, an axis newly named is halted (R221). -/
def State.ringCtl (s : State) (r v : Nat) : State :=
  let named := v / 256 % 256 &&& (255 - s.fld .LNK_RING_CTL_STOP_AXES r)
  let s := ((s.put .LNK_RING_CTL_RATE r (v / 2)).put .LNK_RING_CTL_LOST_STOP r (v / 8)).put .LNK_RING_CTL_STOP_AXES r (v / 256)
  let s := s.when (s.on .LNK_RING_STAT_STOPPED r) (·.haltAxes named)
  if v % 2 = 1 && v / 2 % 4 = 3 then ((s.put .LNK_RING_CTL_JOIN r 0).leaveRing r).ringMismatch r
  else if v % 2 = 1 then
    let s := (s.put .LNK_RING_CTL_JOIN r 1).ringPorts r
    if s.fld .LNK_RING_STAT_STATE r = 0 && !(s.ring r).table.isEmpty then
      ((s.setRing r { s.ring r with formed := 0 }).showReach r 0).setRingState r 1
    else s
  else (s.put .LNK_RING_CTL_JOIN r 0).leaveRing r

/-- A write to LNK_RING_CTL[r]. -/
def execRingJoinWrite (p : Port) (r : Fin 2) (value : Word) (s : State) : Host.Outcome State Fault Refusal :=
  .next (s.access p .LNK_RING_CTL r true value.toNat (·.ringCtl r value.toNat))

/-- The power state or a reset closes the bypasses: STANDBY, HIBERNATE, OFF or a start that runs (R213, R498). -/
def State.ringAsleep (s : State) : Bool := decide (2 ≤ s.fld .PWR_STATE_STATE 0) || s.resets.stage != 0

/-- A closing condition holds, and the bypass closes (R213). -/
def execBypassClose (r : Fin 2) (s : State) : Host.Outcome State Fault Refusal :=
  .next (if !s.on .LNK_RING_CTL_JOIN r || s.ringAsleep then s.put .LNK_RING_STAT_BYPASS r 1 else s)

/-- No closing condition holds, and the bypass opens (R213). -/
def execBypassOpen (r : Fin 2) (s : State) : Host.Outcome State Fault Refusal :=
  .next (if !s.on .LNK_RING_CTL_JOIN r || s.ringAsleep then s else s.put .LNK_RING_STAT_BYPASS r 0)

/-- The high marks that a roll-call carries, as series and mark in turn (R216). -/
def State.rollHighs (s : State) (r : Nat) : List Nat :=
  (s.lease.series.filter (·.ring == r)).flatMap fun x => [x.id, x.high]

/-- The stop set as a roll-call carries it. -/
def Ring.stopWords (x : Ring) : List Nat := x.stops.flatMap fun y => [y.origin, y.seq, y.cause]

/-- How the last load ended, as a roll-call reports it (R432): 1 the broadcast stream, 2 the golden image, 3 no image, 0 another image. -/
def State.loadOutcome (s : State) : Nat :=
  if s.on .CFG_SRC_BCAST 0 then 1 else if s.fld .CFG_STAT_STATE 0 = 3 then 3 else if s.fld .CFG_SRC_SLOT 0 = 0 then 2 else 0

/-- What a roll-call carries, in the order in which Output.ring lists it (R216, R432). -/
def rollWords (m uid crc hop outcome : Nat) (highs stops : List Nat) : List Nat := [m, uid, crc, hop, outcome, highs.length] ++ highs ++ stops

/-- The roll-call that a joined member sends every 1 ms (R216, R432). -/
def execRollCallSend (r : Fin 2) (s : State) : Host.Outcome State Fault Refusal :=
  .next <|
  let x := s.ring r
  if !s.takesPart r || x.table.isEmpty then s
  else s.ringSend r 0 (rollWords (s.fld .LNK_RING_CTL_MEMBER r) s.uid (Config.tableCrc x.table).toNat 0 s.loadOutcome (s.rollHighs r) x.stopWords)

/-- The series of a ring by its identifier: its place. -/
def State.seriesBy (s : State) (ring id : Nat) : Option Nat :=
  (List.range s.lease.series.length).find? fun k => ((s.lease.series[k]?).map fun x => x.ring == ring && x.id == id).getD false

/-- High marks that were heard (R226). -/
def State.hearHighs (s : State) (r : Nat) (hs : List (Nat × Nat)) : State :=
  s.each hs fun e s => match s.seriesBy r e.1 with
    | some k => s.setLease fun l => { l with heardHigh := Tbl.upd 0 l.heardHigh k (max e.2) }
    | none => s

/-- The port of a ring that a message does not arrive on. -/
def otherPort (r : Nat) (east : Bool) : Nat := 140 + 2 * r + b2n (!east)

/-- A message that arrived on one port of a ring goes on out of the other. -/
def State.ringForward (s : State) (r : Nat) (east : Bool) (kind : Nat) (data : List Nat) : State := s.ringMessage (otherPort r east) kind data

/-- A roll-call arrives (R216, R220): it is dropped where it returns to its sender or has reached hop count 32, and forwarded otherwise as it came, one hop
on; its stops are latched; its sender is reachable where the table is the same. -/
def execRollCallReceived (r : Fin 2) (east : Bool) (hop : RollHop) (m : Fin 32) (uid : BitVec 64) (crc : BitVec 32)
    (highs : List (BitVec 32 × BitVec 64)) (stops : List (Fin 32 × BitVec 16 × BitVec 8)) (s : State) :
    Host.Outcome State Fault Refusal :=
  .next <|
  if !s.takesPart r || s.ownMember r = some m.val || 32 ≤ hop.count then s
  else
    let hs := highs.map fun e => (e.1.toNat, e.2.toNat)
    let s := s.ringForward r east 0 (rollWords m uid.toNat crc.toNat (hop.count + 1) hop.outcome (hs.flatMap fun e => [e.1, e.2])
      (stops.flatMap fun e => [e.1.val, e.2.1.toNat, e.2.2.toNat]))
    let s := if crc ≠ Config.tableCrc (s.ring r).table then (s.showReach r (clearBit (s.fld .LNK_RING_REACH_REACH r) m)).ringMismatch r
      else ((s.showReach r (orBit (s.fld .LNK_RING_REACH_REACH r) m)).startTimer .member (32 * r + m)).hearHighs r hs
    s.each stops fun e s => s.latchStop r ⟨e.1, e.2.1.toNat, e.2.2.toNat⟩

/-- No roll-call with the receiver's own table has come from a member for 3 ms (R216). -/
def execMemberUnreachable (r : Fin 2) (m : Fin 32) (s : State) : Host.Outcome State Fault Refusal :=
  .next (if s.ownMember r = some m.val || !s.lapsed .member (32 * r + m) 3000000 then s else s.showReach r (clearBit (s.fld .LNK_RING_REACH_REACH r) m))

/-- Every member in the table is reachable. -/
def State.ringWhole (s : State) (r : Nat) : Bool :=
  (List.range (s.ring r).table.length).all fun m => bitOf (s.fld .LNK_RING_REACH_REACH r) m

/-- The state of R218 as it is evaluated every 1 ms. -/
def State.evaluateRing (s : State) (r : Nat) : State :=
  let x := s.ring r
  let up := s.on .LNK_RING_STAT_WEST_UP r || s.on .LNK_RING_STAT_EAST_UP r
  let settled := if s.ringWhole r then 2 else if s.quorate r then 3 else 4
  if !s.on .LNK_RING_CTL_JOIN r || x.table.isEmpty then s.setRingState r 0
  else match s.fld .LNK_RING_STAT_STATE r with
    | 0 => ((s.setRing r { x with formed := 0 }).showReach r (s.fld .LNK_RING_REACH_REACH r)).setRingState r 1
    | 1 =>
      if !up then s
      else if x.formed < 3 then s.setRing r { x with formed := x.formed + 1 }
      else s.setRingState r settled
    | _ => s.setRingState r settled

/-- The ring state is re-evaluated (R218). -/
def execRingStateEvaluate (r : Fin 2) (s : State) : Host.Outcome State Fault Refusal := .next (s.evaluateRing r)

/-! ### Stops (R219..R223) -/

/-- The services that only JOIN 1 accepts: body 4 with the ring (R227, R373, R397). -/
def ringService (L : Letter) (g : Nat → State → State) : Service := fun b s =>
  let r := rd b 0 1
  if 1 < r then refuse s L .BAD_PARAM
  else if !s.on .LNK_RING_CTL_JOIN r then refuse s L .NOT_READY
  else if !zeros b 1 3 then refuse s L .BAD_PARAM
  else okBody (g r s) L []

/-- D17 answers the registers that the RING services use (R82). -/
def inRings (_ : List Byte) : Option Nat := some 17

/-- RING.STOP (R219, R227). -/
def State.ringStopLetter (s : State) (L : Letter) : State :=
  s.serveIn L ⟨.anyOwner, true, false, fixedLen 4⟩ inRings (ringService L fun r s => s.raiseStop r 1)

/-- RING.STOP. -/
def execRingStop (L : Letter) (s : State) : Host.Outcome State Fault Refusal := .next (s.ringStopLetter L)

/-- A write of 1 to LNK_RING_CMD[r].STOP (R219). -/
def execRingStopRegister (p : Port) (r : Fin 2) (s : State) : Host.Outcome State Fault Refusal :=
  .next (s.access p .LNK_RING_CMD r true 1 (·.raiseStop r 2))

/-- RING.RELEASE_STOP (R222): the release lists the highest sequence latched of each origin. -/
def State.ringReleaseLetter (s : State) (L : Letter) : State :=
  s.serveIn L ⟨.anyOwner, true, false, fixedLen 4⟩ inRings (ringService L fun r s =>
    let l := (s.ring r).stops.map fun y => (y.origin, y.seq)
    (s.when (s.takesPart r) (·.ringSend r 1 ([s.fld .LNK_RING_CTL_MEMBER r, 0] ++ l.flatMap fun e => [e.1, e.2]))).releaseStops r l)

/-- RING.RELEASE_STOP. -/
def execRingReleaseStop (L : Letter) (s : State) : Host.Outcome State Fault Refusal := .next (s.ringReleaseLetter L)

/-- A release arrives (R222): it goes on around the ring until it returns to its sender or has reached hop count 32, as a roll-call does (assumption 70). -/
def execRingReleaseReceived (r : Fin 2) (x : StopRelease) (s : State) : Host.Outcome State Fault Refusal :=
  .next <|
  if !s.takesPart r || s.ownMember r = some x.sender.val || 32 ≤ x.hop then s
  else
    let l := x.upTo.map fun e => (e.1.val, e.2.toNat)
    (s.ringForward r x.east 1 ([x.sender.val, x.hop + 1] ++ l.flatMap fun e => [e.1, e.2])).releaseStops r l

/-- A RING_STOP slot arrives on a ring port (R220, R275): one that is in the set already, or the device's own, goes no further. -/
def execExpressRingStop (r : Fin 2) (x : RingSlot) (origin : Fin 32) (cause : BitVec 8) (seq : BitVec 16) (s : State) :
    Host.Outcome State Fault Refusal :=
  let data := [origin.val, cause.toNat, seq.toNat]
  .next <| s.expressIn (x.slot r) 0x08 (some (expressArg 8 data)) fun s =>
    let y : RingStop := ⟨origin, seq.toNat, cause.toNat⟩
    if !s.takesPart r || s.knownStop r y || s.ownMember r = some origin.val then s
    else (s.express (otherPort r x.east) 0x08 data).latchStop r y

/-! ### Member tables (R215, R233) -/

/-- A member table comes into force: it is journalled, and the device finds its own number. -/
def State.forceTable (s : State) (r : Nat) (t : List (Nat × Nat)) : State :=
  (s.journal.setRing r { s.ring r with table := t, proposed := [] }).showReach r 0

/-- The table of a RING.CONFIG body. -/
def bodyTable (b : List Byte) : List (Nat × Nat) := (List.range (rd b 1 1)).map fun k => (rd b (4 + 12 * k) 8, rd b (12 + 12 * k) 1)

/-- The checks of a table (R215): weights and their sum, and the device itself in it. -/
def State.goodTable (s : State) (b : List Byte) : Bool :=
  let t := bodyTable b
  let w : Nat := t.foldl (fun n e => n + e.2) 0
  decide (rd b 0 1 < 2) && decide (1 ≤ rd b 1 1) && decide (rd b 1 1 ≤ 32) && zeros b 2 2 &&
    ((List.range (rd b 1 1)).all fun k => zeros b (13 + 12 * k) 3) && t.all (fun e => e.2 < 16) && decide (1 ≤ w) && decide (w ≤ 480) &&
    (memberOf s.uid t 0).isSome

/-- RING.CONFIG (R215, R227, R233): at once while UNJOINED, proposed to every member while WHOLE; the reply waits for their acknowledgements. While one is
pending another waits for its turn (R378). Every member journals the pending table, the device among them. -/
def State.ringConfig (s : State) (L : Letter) (b : List Byte) : State × Option Reply :=
  let r := rd b 0 1
  let st := s.fld .LNK_RING_STAT_STATE r
  let no := fun (x : Status) => (s, some (plain L x))
  if 1 < r then no .BAD_PARAM
  else if (s.ring r).letter.isSome then (s.setRing r { s.ring r with later := (s.ring r).later ++ [(L, b)] }, none)
  else if st != 0 && st != 2 then no .NOT_READY
  else if !s.goodTable b then no .BAD_PARAM
  else if st = 0 then (s.forceTable r (bodyTable b), some (plain L .OK))
  else
    let t := bodyTable b
    let s := s.journal.setRing r { s.ring r with proposed := t, acks := ((s.ownMember r).map (fun m => [m])).getD [], letter := some L }
    ((s.ringSend r 6 (t.flatMap fun e => [e.1, e.2])).startTimer .table r, none)

/-- The RING.CONFIG of a ring is over. -/
def State.endConfig (s : State) (r : Nat) : State := s.setRing r { s.ring r with proposed := [], acks := [], letter := none }

/-- All members have acknowledged: a proposed table comes into force everywhere, and RING.CONFIG is answered OK (R233). -/
def State.tableAgreed (s : State) (r : Nat) : State :=
  let x := s.ring r
  match x.letter with
  | none => s
  | some L =>
    if (List.range x.table.length).all x.acks.contains then
      (((s.ringSend r 8 []).forceTable r x.proposed).endConfig r).reply L (plain L .OK)
    else s

/-- RING.CONFIG letters that waited for one on their ring are served in turn (R378). -/
def State.pumpConfigs : Nat → State → Nat → State
  | 0, s, _ => s
  | n + 1, s, r =>
    match (s.ring r).letter, (s.ring r).later with
    | none, (L, b) :: t =>
      let s := match (s.setRing r { s.ring r with later := t }).ringConfig L b with
        | (s, some x) => s.reply L x
        | (s, none) => s
      (s.tableAgreed r).pumpConfigs n r
    | _, _ => s

/-- A ring's table may be agreed, and its next RING.CONFIG begins. -/
def State.agreeTables (s : State) (r : Nat) : State := (s.tableAgreed r).pumpConfigs (s.ring r).later.length r

/-- RING.CONFIG. -/
def State.ringConfigLetter (s : State) (L : Letter) : State :=
  ((s.serveLate L ⟨.anyOwner, false, false, fun n b => n == 4 + 12 * rd b 1 1⟩ inRings fun b s => s.ringConfig L b).agreeTables 0).agreeTables 1

/-- RING.CONFIG. -/
def execRingConfig (L : Letter) (s : State) : Host.Outcome State Fault Refusal := .next (s.ringConfigLetter L)

/-- A member does not acknowledge within 100 ms (R233): the pending table is discarded everywhere. -/
def execRingConfigTimeout (r : Fin 2) (s : State) : Host.Outcome State Fault Refusal :=
  .next <|
  let x := s.ring r
  match x.letter with
  | none => s
  | some L =>
    if !s.ran .table r 100000000 then s
    else (((s.endConfig r).ringSend r 9 []).reply L (plain L .NOT_READY)).agreeTables r

/-- A definition that a member journals (R224, R232). -/
def State.learnSeries (s : State) (r : Nat) (d : SeriesDef) : State :=
  if (s.seriesBy r d.id.toNat).isSome then s
  else
    let x : Series := { id := d.id.toNat, ring := r, first := d.first.toNat, limit := d.limit.toNat, proofFirst := d.proofFirst.toNat, proofLimit := d.proofLimit.toNat, size := d.size, low := d.low, step := d.step, high := d.first.toNat, proofNext := d.proofFirst.toNat }
    s.journal.setLease fun l => { l with series := l.series ++ [x] }

/-- A message about a proposed table arrives (R233), or a series definition that another member makes (R224). -/
def execRingConfigReceived (r : Fin 2) (m : TableMsg) (s : State) : Host.Outcome State Fault Refusal :=
  .next <|
  let x := s.ring r
  if !s.takesPart r then s
  else match m with
    | .propose t =>
      (s.journal.setRing r { x with proposed := t.map fun e => (e.1.toNat, e.2.val) }).ringSend r 7 [s.fld .LNK_RING_CTL_MEMBER r]
    | .ack k =>
      if x.letter.isNone || x.acks.contains k then s else (s.setRing r { x with acks := x.acks ++ [k.val] }).agreeTables r
    | .force => if x.proposed.isEmpty then s else s.forceTable r x.proposed
    | .discard => s.setRing r { x with proposed := [] }
    | .series d => s.learnSeries r d

/-- RING.QUERY (R397). -/
def svcRingQuery (L : Letter) : Service := fun b s =>
  let r := rd b 0 1
  if 1 < r || !zeros b 1 3 then refuse s L .BAD_PARAM
  else
    let t := (s.ring r).table
    okBody s L (le 4 (s.regWord .LNK_RING_STAT r) ++ le 4 (s.regWord .LNK_RING_REACH r) ++ le 4 (s.regWord .LNK_RING_WEIGHT r) ++
      le 4 (s.regWord .LNK_RING_STOPSRC r) ++ le 1 t.length ++ List.replicate 7 0 ++ t.flatMap fun e => le 8 e.1 ++ le 1 e.2 ++ le 3 0)

/-- RING.QUERY. -/
def State.ringQueryLetter (s : State) (L : Letter) : State := s.serveIn L ⟨.anyOwner, true, true, fixedLen 4⟩ inRings (svcRingQuery L)

/-- RING.QUERY. -/
def execRingQuery (L : Letter) (s : State) : Host.Outcome State Fault Refusal := .next (s.ringQueryLetter L)

end Sys2Proof.Machine
end

