-- ==== Sys2Proof/Machine/FrankerOps.lean ====
section
/-! DEFINITION. The Franker (chapter 22): its record and counter (R545, R546, R551), what it prints (R547), the resources that it holds (R548,
R550), and how it starts and gives way (R544, R554). -/

namespace Sys2Proof.Machine

/-! ### The record and the counter -/

/-- Sets the Franker's state. -/
def State.setFranker (s : State) (g : FrankerState → FrankerState) : State := { s with franker := g s.franker }

/-- A field of a Franker record with the defaults of R546: TRIG_PIN, FONT, OFFSET, PITCH, WIDTH, COUNTER, STEP, DIGITS. -/
def frankerDefaults : List Byte :=
  List.replicate 7 0 ++ [191, 0, 1, 0, 0] ++ le 4 8000 ++ le 4 10 ++ le 4 0x0061A800 ++ le 4 0 ++ le 4 0 ++ le 4 1 ++ le 4 1 ++ [5] ++
    List.replicate 215 0

/-- The bytes of DEV_FRK_REC. -/
def State.frankerRecord (s : State) : List Byte := (List.range 64).flatMap fun w => le 4 (s.fld .DEV_FRK_REC_REC w)

/-- Copies a record into DEV_FRK_REC. -/
def State.showRecord (s : State) (b : List Byte) : State := s.each (List.range 64) fun w s => s.put .DEV_FRK_REC_REC w (rd b (4 * w) 4)

/-- The firmware copies the record in force into DEV_FRK_REC at a start (R545): the defaults, with REC_BAD, where no copy passes. -/
def State.copyRecord (s : State) : State :=
  match s.franker.saved with
  | some b => s.showRecord b
  | none => (s.showRecord frankerDefaults).put .DEV_FRK_STAT_REC_BAD 0 1

/-- The counter wraps at 10^DIGITS (R546). -/
def wrapCounter (record : List Byte) (n : Nat) : Nat := n % 10 ^ rd record 40 1

/-- The counter at the Franker's first start after a reset (R551): the saved value after an orderly shut-down, else the mark plus 1,024 × STEP, which
is the new mark. -/
def State.resumeCounter (s : State) (record : List Byte) : State :=
  let c := if s.franker.clean then s.franker.mark else wrapCounter record (s.franker.mark + 1024 * rd record 36 4)
  (s.put .DEV_FRK_CTR_COUNTER 0 c).setFranker fun f => { f with mark := c, since := 0, clean := false }

/-- The counter is saved in the protected area (R551). -/
def State.saveCounter (s : State) (orderly : Bool) : State :=
  s.setFranker fun f => { f with mark := s.fld .DEV_FRK_CTR_COUNTER 0, since := 0, clean := orderly }

/-! ### What a message prints (R547) -/

/-- The width and height of a font in dots. -/
def fontOf (font : Nat) : Nat × Nat :=
  if font = 0 then (5, 7) else if font = 1 then (7, 9) else if font = 2 then (10, 16) else Config.fontSize font

/-- The last `n` decimal digits of a number, as characters. -/
def digitsOf : Nat → Nat → List Nat
  | 0, _ => []
  | n + 1, v => digitsOf n (v / 10) ++ [48 + v % 10]

/-- The days from 1970-01-01 to 1 January of a year. -/
def daysTo (y : Nat) : Nat :=
  let p := y - 1
  365 * p + p / 4 - p / 100 + p / 400 - 719162

/-- The year, month and day of month, each from 1, and the day of the year, of a day counted from 1970-01-01. -/
def civil (days : Nat) : Nat × Nat × Nat × Nat :=
  let z := days + 719468
  let doe := z % 146097
  let yoe := (doe - doe / 1460 + doe / 36524 - doe / 146096) / 365
  let doy := doe - (365 * yoe + yoe / 4 - yoe / 100)
  let mp := (5 * doy + 2) / 153
  let month := if mp < 10 then mp + 3 else mp - 9
  let year := yoe + z / 146097 * 400 + b2n (decide (month ≤ 2))
  (year, month, doy - (153 * mp + 2) / 5 + 1, days - daysTo year + 1)

/-- Local time in seconds since 1970 (R546 UTC, R553). -/
def State.localTime (s : State) : Nat := ((s.fld .DEV_RTC_SECONDS 0 : Int) + 60 * signed 16 (rd s.frankerRecord 28 2)).toNat

/-- The characters of a DATE in a FORMAT. -/
def dateText (format days : Nat) : List Nat :=
  let c := civil days
  if format = 0 then digitsOf 4 c.1 ++ [45] ++ digitsOf 2 c.2.1 ++ [45] ++ digitsOf 2 c.2.2.1
  else if format = 1 then digitsOf 2 c.2.2.1 ++ [46] ++ digitsOf 2 c.2.1 ++ [46] ++ digitsOf 2 c.1
  else if format = 2 then digitsOf 2 c.1 ++ digitsOf 3 c.2.2.2
  else (Config.fieldText 2 format).map BitVec.toNat

/-- The characters of a TIME in a FORMAT. -/
def timeText (format seconds : Nat) : List Nat :=
  let hm := digitsOf 2 (seconds / 3600 % 24) ++ [58] ++ digitsOf 2 (seconds / 60 % 60)
  if format = 0 then hm else if format = 1 then hm ++ [58] ++ digitsOf 2 (seconds % 60) else (Config.fieldText 3 format).map BitVec.toNat

/-- A character in which a '-' stands for a digit. -/
def dashed (c : Nat) : Nat := if 48 ≤ c && c ≤ 57 then 45 else c

/-- The characters of field `i` of DEV_FRK_REC with the counter's value; none for KIND 0. -/
def State.fieldChars (s : State) (i counter : Nat) : Option (List Nat) :=
  let f := (s.frankerRecord.drop (64 + 48 * i)).take 48
  let kind := rd f 0 1
  let format := rd f 1 1
  let clock := fun (l : List Nat) => if s.on .DEV_RTC_STAT_VALID 0 then l else l.map dashed
  if kind = 0 then none
  else if kind = 1 || kind = 4 then some (((f.drop 16).takeWhile (· != 0)).map BitVec.toNat)
  else if kind = 2 then some (clock (dateText format (s.localTime / 86400)))
  else if kind = 3 then some (clock (timeText format s.localTime))
  else if kind = 5 then some (digitsOf (rd s.frankerRecord 40 1) counter)
  else some ((Config.fieldText kind format).map BitVec.toNat)

/-- The characters of the message: the fields in index order, with a space between them. -/
def State.messageChars (s : State) (counter : Nat) : List Nat :=
  let fs := (List.range 4).filterMap fun i => s.fieldChars i counter
  fs.dropLast.flatMap (· ++ [32]) ++ fs.getLastD []

/-- The dots of each column of the message: each character in its font's width and one blank column; only codes 0x20..0x7E have glyphs, and a space has
no dot. -/
def columnsOf (font : Nat) (chars : List Nat) : List Nat :=
  let size := fontOf font
  chars.flatMap fun c =>
    ((List.range size.1).map fun k => if 0x21 ≤ c && c ≤ 0x7E then Config.glyph font c k % 2 ^ min 16 size.2 else 0) ++ [0]

/-! ### Resources (R548, R550) -/

/-- The lane path is used: LANE is set under BOOT_MODE 0b11. -/
def State.lanePath (s : State) : Bool := bitOf (rd s.franker.started 4 1) 1 && s.fld .CFG_STAT_BOOT 0 == 3

/-- The pin path is used. -/
def State.pinPath (s : State) : Bool := !bitOf (rd s.franker.started 4 1) 1

/-- The word of POS_AX_CTL that the Franker sets: SRC, ENC and MULT. -/
def frankerAxis (r : List Byte) : Nat :=
  let mult := rd r 6 1 % 4
  b2n (bitOf (rd r 4 1) 2) + 4 * (rd r 5 1 % 8) + 32 * (if mult = 3 then 0 else mult)

/-- A register of a held resource: its field, element and value. -/
abbrev HeldSetting := Fld × Nat × Nat

/-- The pins that carry dots, by row. -/
def State.dotPins (s : State) : List Nat :=
  (List.range (fontOf (rd s.frankerRecord 9 1)).2).map (16 * rd s.franker.started 10 1 + ·)

/-- The settings of axis 0 and TRIG[0]. -/
def State.heldInputs (s : State) : List HeldSetting :=
  let r := s.franker.started
  let ctl := frankerAxis r
  let pin := rd r 7 1
  [(.POS_AX_CTL_SRC, 0, ctl % 4), (.POS_AX_CTL_ENC, 0, ctl / 4 % 8), (.POS_AX_CTL_MULT, 0, ctl / 32 % 4), (.POS_AX_VSPEED_VALUE, 0, rd r 24 4),
   (.PIN_IMAP_SINK, pin, 1), (.PIN_CFG_PULL, pin, 1)]

/-- The settings of sorter 0. -/
def State.heldSorter (s : State) : List HeldSetting :=
  [(.SRT_CTL_EN, 0, 1), (.SRT_CTL_MODE, 0, 0), (.SRT_CTL_ORDER, 0, 0), (.SRT_CTL_AXIS, 0, 0), (.SRT_LATE_TOL_TOL, 0, 0), (.SRT_TGT_KIND, 0, 0),
   (.SRT_TGT_GROUP, 0, rd s.franker.started 10 1), (.SRT_TGT_PERMIT, 0, 0xFFFF)]

/-- The settings of the dot pins and their cells. -/
def State.heldPins (s : State) : List HeldSetting :=
  s.dotPins.flatMap fun p =>
    [(.PIN_OMAP_PIN, 192 + p, p), (.PIN_CFG_IDLE, p, 1), (.PIN_CFG_DRIVE, p, 1), (.PIN_PLC_CTL_EN, p, 1)]

/-- The settings of lane 0 and link 0, and of a ring that the record joins. -/
def State.heldLinks (s : State) : List HeldSetting :=
  let flags := rd s.franker.started 4 1
  let ring := fun (r b : Nat) => if bitOf flags b && !(s.ring r).table.isEmpty then
    ([(.LNK_RING_CTL_JOIN, r, 1), (.LNK_RING_CTL_RATE, r, 0), (.LNK_RING_CTL_STOP_AXES, r, 1)] : List HeldSetting) else []
  let lane : List HeldSetting := if s.lanePath then
    [(.LANE_RATE_RATE, 0, 10560), (.LANE_RATE_PAM4, 0, 0), (.LANE_CTL_EN, 0, 1), (.LNK_CTL_LANES, 0, 1), (.LNK_BEACON_AXES, 0, 1), (.LNK_CTL_EN, 0, 1)] else []
  lane ++ ring 0 4 ++ ring 1 5

/-- Every setting that the Franker holds. -/
def State.heldSettings (s : State) : List HeldSetting :=
  s.heldInputs ++ s.heldSorter ++ (if s.pinPath then s.heldPins else []) ++ s.heldLinks

/-- The domain that answers the register of a held setting. -/
def heldDomain (h : HeldSetting) : Option Nat := h.1.spec.reg.domain h.2.1

/-- A locked pin keeps its registers from a held setting (R151). -/
def State.heldLocked (s : State) (h : HeldSetting) : Bool :=
  match h.1 with
  | .PIN_CFG_PULL | .PIN_CFG_IDLE | .PIN_CFG_DRIVE | .PIN_IMAP_SINK => s.pinLocked h.2.1
  | .PIN_OMAP_PIN => s.mapLocked h.2.1 h.2.2
  | _ => false

/-- Axis 0 is started at position 0 (R548). -/
def State.frankerAxisStart (s : State) : State :=
  if s.axState 0 = 0 then (s.put .POS_AX_LOAD_VALUE 0 0).axisStart 0 else s

/-- Sets one held setting, with what the write of it does in its own chapter: cells are enabled and pins mapped (R139, R148), lane 0 runs the link (R264), a ring is
joined (R214), axis 0 starts or stops (STATE stands for the command). A locked pin refuses the firmware's write as any other (R9, R151). -/
def State.holdNow (s : State) (h : HeldSetting) : State :=
  if s.heldLocked h then s.accessError .locked .postroom true (h.1.spec.reg.addr h.2.1)
  else match h.1 with
    | .PIN_PLC_CTL_EN => s.cellEnable h.2.1 (h.2.2 == 1)
    | .PIN_OMAP_PIN => s.mapSource h.2.1 h.2.2
    | .LNK_CTL_EN =>
      if h.2.2 = 0 then s.linkOff 0 []
      else s.lnkCtl 0 (1 + 2 ^ 8 + 2 ^ 16 * s.fld .LNK_CTL_MIN_W 0 + 2 ^ 20 * s.fld .LNK_CTL_FALLBACK 0) []
    | .LANE_CTL_EN => (s.put .LANE_CTL_EN 0 h.2.2).put .LANE_STAT_RESETTING 0 (1 - h.2.2)
    | .LNK_RING_CTL_JOIN => s.ringCtl h.2.1 (if h.2.2 = 0 then 0 else 1 + 8 * s.fld .LNK_RING_CTL_LOST_STOP h.2.1 + 256)
    | .POS_AX_STAT_STATE => if h.2.2 = 0 then s.axisStop 0 else s.frankerAxisStart
    | f => s.put f h.2.1 h.2.2

/-- The firmware sets one held setting; its access waits for a domain that is stopped or held (R97). -/
def State.hold (s : State) (h : HeldSetting) : State :=
  if s.domainWaits (heldDomain h) then s.setFranker fun f => { f with waiting := f.waiting ++ [h] } else s.holdNow h

/-- A setting stands as the Franker set it. -/
def State.holds (s : State) (h : HeldSetting) : Bool := s.fld h.1 h.2.1 == h.2.2 % 2 ^ h.1.spec.width

/-- Every resource takes its setting. On the lane path octet 0 has no endpoint (R550). -/
def State.holdAll (s : State) : State :=
  let s := s.when s.lanePath fun s =>
    (s.put .DEV_OCT_PROTO_EP_W 0 0).takeEndpoint
  ((s.each (s.heldSettings.filter fun h => !s.holds h) fun h s => s.hold h).hold (.POS_AX_STAT_STATE, 0, 1)).refreshPins

/-! ### Starting and giving way -/

/-- The Franker starts (R544, R545, R548): it takes the record saved, its counter and its resources. -/
def State.startFranker (s : State) : State :=
  let r := s.franker.saved.getD frankerDefaults
  let s := if s.franker.started.isEmpty then s.resumeCounter r else s
  let s := s.setFranker fun f => { f with started := r, lastEnd := none, messages := [] }
  let s := ((s.put .CFG_STAT_STATE 0 3).put .CFG_SRC_SLOT 0 0xFF).put .CFG_DESIGN_ID 0 0
  ((s.put .DEV_FRK_STAT_STATE 0 1).holdAll).showFranker

/-- The Franker gives way to a load (R554 steps 1 and 2): sorter 0 is flushed and its messages counted missed, the counter is saved, lane 0 leaves, and
the held resources return to their reset values. -/
def State.stopFranker (s : State) : State :=
  if !s.frankerRuns then s
  else
    let s := ((s.flushMessages fun _ => true).flushSorter 0).1.saveCounter false
    let held := s.heldSettings
    let s := s.when s.lanePath (·.hold (.LNK_CTL_EN, 0, 0))
    let s := (s.put .DEV_FRK_STAT_STATE 0 0).hold (.POS_AX_STAT_STATE, 0, 0)
    (s.each (held.filter (·.1 != .LNK_CTL_EN)) fun h s => s.hold (h.1, h.2.1, h.1.reset h.2.1)).refreshPins

end Sys2Proof.Machine
end

