-- ==== Sys2Proof/Machine/Franker.lean ====
section
/-! DEFINITION. The Franker's commands (chapter 22): its record (R545), triggers and what they print (R547, R549..R551), restored resources (R548) and
a LOST axis (R552). -/

namespace Sys2Proof.Machine

/-! ### The record (R545) -/

/-- A block of the protected area is programmed (R436, R437): `true` where the record was written. -/
def State.programProtected (s : State) (result : ProgResult) : State × Bool :=
  if bitOf (s.fld .CFG_NVM_STAT_RO_AREA 0) 2 then (s, false)
  else match result with
    | .done => (s, true)
    | .replaced => (s.retire 68, s.on .CFG_NVM_STAT_SPARES 0)
    | .unreplaceable => (s.areaReadOnly 68, false)

/-- SAVE writes DEV_FRK_REC as a new copy; a SAVE that fails leaves the copy in force as it was, with SAVE_FAIL. -/
def State.frankerSave (s : State) (result : ProgResult) : State :=
  let r := s.programProtected result
  if r.2 then r.1.setFranker fun f => { f with saved := some s.frankerRecord } else r.1.put .DEV_FRK_STAT_SAVE_FAIL 0 1

/-- LOAD reloads DEV_FRK_REC from the copy in force; the defaults of R546 where there is none. -/
def State.frankerLoad (s : State) : State := s.showRecord (s.franker.saved.getD frankerDefaults)

/-- A write of DEV_FRK_CMD (R545, R555): SAVE is served before LOAD. -/
def State.frankerCmd (s : State) (v : Nat) (result : ProgResult) : State :=
  (s.when (bitOf v 0) (·.frankerSave result)).when (bitOf v 1) (·.frankerLoad)

/-- A write of DEV_FRK_CMD with SAVE. -/
def execFrankerSave (p : Port) (value : Word) (result : ProgResult) (s : State) : Host.Outcome State Fault Refusal :=
  .next (s.access p .DEV_FRK_CMD 0 true value.toNat (·.frankerCmd (value.toNat ||| 1) result))

/-- A write of DEV_FRK_CMD with LOAD. -/
def execFrankerLoad (p : Port) (value : Word) (s : State) : Host.Outcome State Fault Refusal :=
  .next (s.access p .DEV_FRK_CMD 0 true value.toNat (·.frankerCmd (clearBit value.toNat 0 ||| 2) .done))

/-! ### Triggers (R549..R551) -/

/-- A field of the record in force prints the date or the time. -/
def State.printsClock (s : State) : Bool := (List.range 4).any fun i =>
  let k := rd s.frankerRecord (64 + 48 * i) 1
  k == 2 || k == 3

/-- The trigger with postmark `t` is accepted (R549). A record that selects the lane path outside BOOT_MODE 0b11 prints nothing (R544). -/
def State.frankerAccepts (s : State) (t : Nat) : Bool :=
  let flags := rd s.franker.started 4 1
  let first := pmPlus t (rd s.frankerRecord 12 4)
  let after := match s.franker.lastEnd with
    | some e => decide (0 < pmDiff first e)
    | none => true
  bitOf flags 0 && (s.axState 0 == 1 || s.axState 0 == 2) && !s.on .POS_AX_STAT_DIR 0 && !s.on .POS_AX_STAT_REVISIT 0 && !s.ringStopped && after &&
    (!(bitOf flags 3 && s.printsClock) || s.on .DEV_RTC_STAT_VALID 0) && (s.pinPath || s.lanePath)

/-- The columns of the message, each with its postmark and dots; only those that hold a dot make an event. -/
def State.frankerColumns (s : State) (t : Nat) : List (Nat × Nat) :=
  let r := s.frankerRecord
  let cols := columnsOf (rd r 9 1) (s.messageChars (s.fld .DEV_FRK_CTR_COUNTER 0))
  cols.zipIdx.map fun e => (pmPlus t (rd r 12 4 + e.2 * rd r 16 4 : Nat), e.1)

/-- The pin path: one PULSE_HIGH entry into sorter 0 for each column with a dot; a message with a discarded entry is counted missed. -/
def State.printPins (s : State) (cols : List (Nat × Nat)) : State :=
  let width := rd s.frankerRecord 20 4
  let r := (cols.filter (·.2 != 0)).foldl (fun (a : State × Bool) c =>
    let x := a.1.insertEntry 0 (c.1 % 2 ^ 64 + 2 ^ 64 * (c.2 + 3 * 2 ^ 16 + width * 2 ^ 20) + 2 ^ 127)
    (x.1, a.2 || !(x.2 == 1 || x.2 == 2))) (s, false)
  r.1.when r.2 (·.frankerMiss 1)

/-- The lane path (R550): each column with a dot goes as one fire line to lane 0. -/
def State.printLane (s : State) (cols : List (Nat × Nat)) : State :=
  let n := ((fontOf (rd s.frankerRecord 9 1)).2 + 7) / 8
  let lines := (cols.filter (·.2 != 0)).map fun c => (⟨c.1, 0, n, 1, 0, le n c.2⟩ : FireLine)
  { s with fires := Tbl.upd [] s.fires 0 (fun q => q ++ lines) }.pumpLink 0

/-- The counter that the next message prints: a COUNTER field that has changed starts it anew (R545). -/
def State.frankerCounter (s : State) : State :=
  let c := rd s.frankerRecord 32 4
  if s.franker.base = some c then s
  else (s.put .DEV_FRK_CTR_COUNTER 0 (wrapCounter s.frankerRecord c)).setFranker fun f => { f with base := some c }

/-- The counter advances by STEP, PRINTED is counted, and a mark is saved every 1,024 products (R549, R551). -/
def State.frankerCounted (s : State) : State :=
  let r := s.frankerRecord
  let s := s.put .DEV_FRK_CTR_COUNTER 0 (wrapCounter r (s.fld .DEV_FRK_CTR_COUNTER 0 + rd r 36 4))
  let s := (s.addMod .DEV_FRK_CNT_PRINTED 0 1).setFranker fun f => { f with since := f.since + 1, clean := false }
  s.when (s.franker.since == 1024) (·.saveCounter false)

/-- An accepted trigger prints its message. A partner that has not reported FIRE receives nothing, and the message is counted missed. -/
def State.frankerPrint (s : State) (t : Nat) : State :=
  let s := s.frankerCounter
  let cols := s.frankerColumns t
  let first := pmPlus t (rd s.frankerRecord 12 4)
  let last := ((cols.getLast?).map (·.1)).getD first
  let s := s.setFranker fun f => { f with lastEnd := some last }
  if s.lanePath && !s.laneFire 0 then s.frankerMiss 1
  else
    let pending := fun (m : Nat × Nat) => (s.srt 0).entries.any (fun e => inMessage m e.pm) || (s.firesOf 0).any (fun f => inMessage m f.pm)
    let s := s.setFranker fun f => { f with messages := f.messages.filter pending ++ [(first, last)] }
    (if s.lanePath then s.printLane cols else s.printPins cols).frankerCounted

/-- An edge on TRIG[0] with its postmark (R549); none is stamped while D22 does not run (R552). -/
def execFrankerTrigger (postmark : BitVec 64) (s : State) : Host.Outcome State Fault Refusal :=
  .next <|
  if !s.frankerRuns || !s.pmbActive then s
  else if s.frankerAccepts postmark.toNat then s.frankerPrint postmark.toNat
  else s.frankerMiss 1

/-! ### Resources and the axis (R548, R552) -/

/-- The firmware restores each held setting that a direct write has changed, and counts it; not one of a locked pin (R151) or of a domain that does not run (R97). -/
def execFrankerRestore (s : State) : Host.Outcome State Fault Refusal :=
  .next <|
  if !s.frankerRuns || !s.pmbActive then s
  else
    let lost := s.heldSettings.filter fun h => !s.holds h && !s.heldLocked h && !s.domainWaits (heldDomain h)
    let s := s.each lost fun h s => (s.hold h).bump .DEV_FRK_STAT_OVERRIDE 0 1
    let s := s.when (s.axState 0 == 0 && !s.domainWaits (some 23)) fun s => s.frankerAxisStart.bump .DEV_FRK_STAT_OVERRIDE 0 1
    if lost.isEmpty then s else s.refreshPins

/-- The firmware writes RECOVER to a LOST axis 0 with position 0; on success sorter 0 is flushed, and every message with a flushed entry is counted
missed. -/
def execFrankerRecoverRetry (s : State) : Host.Outcome State Fault Refusal :=
  .next <|
  if !s.frankerRuns || !s.pmbActive || s.axState 0 != 3 || s.domainWaits (some 23) then s
  else
    let s := (s.put .POS_AX_LOAD_VALUE 0 0).axisRecover 0
    if s.axState 0 = 3 then s
    else (((s.flushMessages fun _ => true).flushSorter 0).1).showFranker

/-! ### Reads (R555) -/

/-- A read of DEV_FRK_MISS returns and clears the missed count. -/
def execDevFrkMissRead (p : Port) (s : State) : Host.Outcome State Fault Refusal :=
  .next (s.access p .DEV_FRK_MISS 0 false 0 (·.readClear p .DEV_FRK_MISS 0))

/-- A read of DEV_FRK_STAT returns its word and clears OVERRIDE. -/
def execDevFrkStatRead (p : Port) (s : State) : Host.Outcome State Fault Refusal :=
  .next (s.access p .DEV_FRK_STAT 0 false 0 (·.readClear p .DEV_FRK_STAT 0))

end Sys2Proof.Machine
end

