-- ==== Sys2Proof/Machine/Fabric.lean ====
section
/-! DEFINITION. What happens in the clockless fabric: stages capture tokens (R25, R26), memory cells serve requests (R31, R32), arbiters grant (R34),
isolation cells stall or absorb (R442..R444), trees wake regions, pulse taps and clock clusters (R61..R67), and block memories serve their ports
(R68..R75). -/

namespace Sys2Proof.Machine

/-! ### Stages -/

/-- A region is isolated in every state except WOKEN, and after its wake until isolation ends (R440, R448). -/
def State.isolated (s : State) (n : Nat) : Bool := s.on .CFG_RGN_STAT_ISOLATED n

/-- Whether an engaged isolation cell with an isolated consumer absorbs (R443, R444). -/
def State.absorbs (s : State) (x : IsoSite) : Bool :=
  match x.kind with
  | .fabric => s.isoAbsorb.contains (isoKey x)
  | .agent | .control => true
  | .gate => false

/-- A stage takes the value it captures: a fabric output sets its level (R148); a tree's source sets the tree's level (R61); a block memory or hard port takes
its word, which reaches it as a command of its own. A token that every consumer has settled without goes on (R30). -/
def State.fill (s : State) (x : Site) (v : Nat) : State :=
  match x with
  | .fout n b => { s with pins := { s.pins with fouts := Tbl.set 0 s.pins.fouts (8 * n + b) (v % 2 + 1) } }.keepLevels
  | .tree t => s.treeLevel t (v % 2 == 1)
  | .port _ _ | .hardPort _ => s
  | _ => (s.setSite x (v + 1)).settleToken (.stage x)

/-- An illegal code at an isolation cell is recorded in the consumer's region, or toward a hard port in the producer's (R57; assumption 88). -/
def State.isoCodes (s : State) (x : IsoSite) (bad : Nat) : State :=
  match x.consumer, x.producer with
  | some n, _ => s.codeErrors n bad
  | none, some n => s.codeErrors n bad
  | none, none => s

/-- An isolation cell takes a token (R442, R443): nothing from an isolated producer; into an isolated consumer it absorbs and counts, or stalls. -/
def State.isoCapture (s : State) (x : IsoSite) (u : List Nat) (a : Seen) : State :=
  let isolated := fun (o : Option (Fin 40)) => match o with
    | some n => s.isolated n
    | none => false
  let took := s.takeTokens (.iso x) (s.takesOf u (.iso x))
  if isolated x.producer then s
  else if isolated x.consumer then
    match x.consumer with
    | some n => if s.absorbs x then (took.bump .CFG_ISO_CNT_ABSORBED n 1).isoCodes x a.bad else s
    | none => s
  else if s.siteTok (.iso x) ≠ 0 then s
  else ((took.setSite (.iso x) (a.value + 1)).settleToken (.stage (.iso x))).isoCodes x a.bad

/-- A stage captures a valid token and runs its handshake (R25): with every used input valid and its enable high it takes the value, an illegal
code as 0 and recorded (R24, R57), and each producer's handshake ends once all its consumers have taken its token; otherwise nothing happens and the token
waits (R26). -/
def execTokenCapture (x : Site) (wires : List (Nat × Rail)) (upset : List Nat) (s : State) :
    Host.Outcome State Fault Refusal :=
  .next <| match s.arrives wires upset x with
  | none => s
  | some a =>
    let ls := s.takesOf upset x
    if !s.mayCapture x ls then s
    else match x, s.regionOf x with
      | .iso y, _ => s.isoCapture y upset a
      | .hardPort y, _ => (s.takeTokens x ls).isoCodes y a.bad
      | _, some n => if s.stageReady x then ((s.takeTokens x ls).fill x a.value).codeErrors n a.bad else s
      | _, none => s

/-! ### Memory cells (R31, R32) -/

/-- Bits of a memory cell's entry: two in MEM32, one otherwise (R27). -/
def entryBits (c : CellCfg) : Nat := if c.mode = .mem32 then 2 else 1

/-- The inputs of a request: the operation field and the address; the data field lies after them (R27). -/
def requestBits (c : CellCfg) : Nat := if c.mode = .mem32 then 7 else 8

/-- The addressed entry of a memory cell. -/
def memEntry (c : Cell) (addr : Nat) : Nat :=
  let w := entryBits c.cfg
  c.mem.toNat / 2 ^ (w * (addr % (64 / w))) % 2 ^ w

/-- The cell's contents with the addressed entry replaced. -/
def memStore (c : Cell) (addr data : Nat) : BitVec 64 :=
  let w := entryBits c.cfg
  let lo := w * (addr % (64 / w))
  BitVec.ofNat 64 (c.mem.toNat - memEntry c addr * 2 ^ lo + data % 2 ^ w * 2 ^ lo)

/-- A memory cell is configured and may take a request: its region woken, its reply stage a hole where it replies, and in MEM32 that of the cell above. A
WRITE, which has no reply, does not wait for the reply stage: R31 does not say whether it does (DESIGN CHOICE, assumption 91). -/
def State.memReady (s : State) (n i : Nat) (replies : Bool) : Bool :=
  let c := s.cell n i
  s.woken n && c.cfg.clock.isNone && (c.cfg.mode = .mem64 || c.cfg.mode = .mem32) &&
    (!replies || (c.tok.isNone && (c.cfg.mode = .mem64 || (s.cell n (i + 1)).tok.isNone)))

/-- The request that stands at a memory cell: its operation field in the low two bits, its address above them (R27, R31); none until every bit of both has
arrived. -/
def State.memAsks (s : State) (n : Fin 40) (i : Fin 65536) (a : Arrivals) : Option Seen :=
  let c := (s.cell n i).cfg
  gatherBits (s.see n (tileOf i) a.wires netDepth false) a.upset 0 (c.inputs.take (requestBits c))

/-- The data field of the request that stands at a memory cell. -/
def State.memData (s : State) (n : Fin 40) (i : Fin 65536) (a : Arrivals) : Option Seen :=
  let c := (s.cell n i).cfg
  gatherBits (s.see n (tileOf i) a.wires netDepth false) a.upset 0 (c.inputs.drop (requestBits c))

/-- Whose tokens a request is made of. Where the operation has no use for the data field, what stands there belongs to the request all the same
(assumption 91). With an input that an upset leaves illegal, the request is made of the tokens that stand (R24). -/
def State.memCone (s : State) (n : Fin 40) (i : Fin 65536) (data : Bool) (upset : List Nat) : List TokenFrom :=
  let c := (s.cell n i).cfg
  (s.cones n (tileOf i) (c.inputs.take (requestBits c))).filter (fun l => upset.isEmpty || s.holdsToken l) ++
    (s.cones n (tileOf i) (c.inputs.drop (requestBits c))).filter fun l => (data && upset.isEmpty) || s.holdsToken l

/-- The reply of a memory cell: its output bit, and in MEM32 the output of the cell above for the second (R27). -/
def State.memReply (s : State) (n : Fin 40) (i : Fin 65536) (v : Nat) : State :=
  let s := s.fill (.cell n i) (v % 2)
  if (s.cell n i).cfg.mode = .mem32 then s.fill (.cell n (i + 1)) (v / 2 % 2) else s

/-- A memory cell serves the request that stands at it where its operation is one of `ops` (R31): its tokens are taken; `next` does the operation at the
address; what was illegal in it is recorded (R24). `also`: the inputs of its data field that an upset leaves illegal. -/
def State.memServe (s : State) (n : Fin 40) (i : Fin 65536) (ops : List Nat) (replies data : Bool) (a : Arrivals) (bad : Nat)
    (also : List Nat) (next : Nat → State → State) : State :=
  match s.memAsks n i a with
  | none => s
  | some q =>
    let ls := s.memCone n i data (a.upset ++ also)
    if ops.contains (q.value % 4) && s.memReady n i replies && s.mayCapture (.cell n i) ls then
      (next (q.value / 4) (s.takeTokens (.cell n i) ls)).codeErrors n (q.bad + bad)
    else s

/-- Writes the data field to the addressed entry. -/
def State.memPut (s : State) (n i addr data : Nat) : State :=
  s.setCell n i { s.cell n i with mem := memStore (s.cell n i) addr data }

/-- READ, or code 0b11: replies with the addressed entry (R31). -/
def execMemCellRead (n : Fin 40) (i : Fin 65536) (request : Arrivals) (s : State) : Host.Outcome State Fault Refusal :=
  .next (s.memServe n i [0, 3] true false request 0 [] fun addr s => s.memReply n i (memEntry (s.cell n i) addr))

/-- WRITE: writes the data field to the addressed entry, with no reply (R31). -/
def execMemCellWrite (n : Fin 40) (i : Fin 65536) (request data : Arrivals) (s : State) : Host.Outcome State Fault Refusal :=
  .next <| match s.memData n i data with
  | none => s
  | some d => s.memServe n i [1] false true request d.bad data.upset fun addr s => s.memPut n i addr d.value

/-- SWAP: replies with the entry before it writes the data field (R31). -/
def execMemCellSwap (n : Fin 40) (i : Fin 65536) (request data : Arrivals) (s : State) : Host.Outcome State Fault Refusal :=
  .next <| match s.memData n i data with
  | none => s
  | some d => s.memServe n i [2] true true request d.bad data.upset fun addr s =>
    (s.memPut n i addr d.value).memReply n i (memEntry (s.cell n i) addr)

/-! ### Arbiters (R34) -/

/-- Arbiter `a` of region `n`. -/
def State.arbiter (s : State) (n a : Nat) : Arbiter := Tbl.find Arbiter.reset s.arbiters (n * 8192 + a)

/-- Sets an arbiter. -/
def State.setArbiter (s : State) (n a : Nat) (x : Arbiter) : State :=
  { s with arbiters := Tbl.set Arbiter.reset s.arbiters (n * 8192 + a) x }

/-- Whether input `i` of an arbiter has a request pending. -/
def Arbiter.pends (x : Arbiter) (i : Fin 2) : Bool := if i = 0 then x.pending0 else x.pending1

/-- Sets whether input `i` has a request pending. -/
def Arbiter.setPend (x : Arbiter) (i : Fin 2) (b : Bool) : Arbiter :=
  if i = 0 then { x with pending0 := b } else { x with pending1 := b }

/-- The other input. -/
def otherInput (i : Fin 2) : Fin 2 := if i = 0 then 1 else 0

/-- A request reaches an arbiter (R34): granted when no grant is outstanding, pending otherwise. Of two within the
resolution window exactly one is granted, and which is a free value. -/
def execArbiterRequest (n : Fin 40) (a : Fin 8192) (q : ArbReq) (s : State) : Host.Outcome State Fault Refusal :=
  .next <|
  let x := s.arbiter n a
  match q with
  | .one i =>
    match x.grant with
    | none => s.setArbiter n a { x with grant := some i }
    | some _ => s.setArbiter n a (x.setPend i true)
  | .both =>
    match x.grant with
    | none =>
      let i : Fin 2 := if s.draw % 2 = 0 then 0 else 1
      s.drew.setArbiter n a ({ x with grant := some i }.setPend (otherInput i) true)
    | some _ => s.setArbiter n a ((x.setPend 0 true).setPend 1 true)

/-- The granted requester releases its grant (R34): the next grant goes to the other input if it has a request pending,
else to the same input if it has. -/
def execArbiterRelease (n : Fin 40) (a : Fin 8192) (s : State) : Host.Outcome State Fault Refusal :=
  .next <|
  let x := s.arbiter n a
  match x.grant with
  | none => s
  | some i =>
    let j := otherInput i
    if x.pends j then s.setArbiter n a ({ x with grant := some j }.setPend j false)
    else if x.pends i then s.setArbiter n a (x.setPend i false)
    else s.setArbiter n a { x with grant := none }

/-! ### Wake, trees and user clocks -/

/-- The value a stage starts with: its token in a clockless cluster, its register in a clocked one (R36, R64). -/
def startTok (i : InitTok) (clock : Option (Fin 4)) : Option Nat :=
  match i, clock with
  | .token0, _ => some 0
  | .token1, _ => some 1
  | .empty, some _ => some 0
  | .empty, none => none

/-- A cell's stages at their initial tokens; only its registers where `regs` (R36, R38, R64). An unstaged cell holds nothing (R27). -/
def Cell.start (c : Cell) (regs : Bool) : Cell :=
  let on := c.cfg.held && (!regs || c.cfg.clock.isSome)
  { c with tok := if on then startTok c.cfg.init c.cfg.clock else none
           tok2 := if on && c.cfg.mode = .stage then startTok c.cfg.init2 c.cfg.clock else none }

/-- The second reply stage of a MEM32 cell, which stands in the cell above it, takes the initial state of a second stage (R27, R36; assumption 91). -/
def State.startSecond (s : State) (n : Nat) (e : Nat × Cell) (regs : Bool) : State :=
  let c := e.2.cfg
  if c.mode != .mem32 then s
  else s.setCell n (e.1 % 65536 + 1) { s.cell n (e.1 % 65536 + 1) with tok := if !regs || c.clock.isSome then startTok c.init2 c.clock else none }

/-- The state of user clocks as region `n` shows it: UCLK_RUN is 1 for each tree that it uses while the clock is present (R67, R81). -/
def State.showClocks (s : State) (n : Nat) : State :=
  s.each (List.range 4) fun t s => s.putBit .CFG_TREE_STAT_UCLK_RUN n t (bitOf (Tbl.find 0 s.uclkUse t) n && (s.tree t).present)

/-- Every stage of region `n` returns to spacer, or to its starting value in a clocked cluster, and every memory cell to
its configured contents (R37, R38, R64). -/
def State.resetStages (s : State) (n : Nat) : State :=
  let s := s.each (s.regionCells n) fun e s =>
    { s with cells := Tbl.set Cell.reset s.cells e.1 { e.2.start true with mem := e.2.cfg.memInit } }
  let s := s.each (s.regionCells n) fun e s => s.startSecond n e true
  let s := s.each (s.words.filter fun e => e.1 % 40 == n) fun e s =>
    { s with words := Tbl.set none s.words e.1 (e.2.map fun w => { w with tok := 0 }) }
  let s := s.each (s.elements.filter fun e => e.1 % 40 == n) fun e s =>
    { s with elements := Tbl.set none s.elements e.1 (e.2.map fun x => ⟨x.cfg, 0, 0, 0, 0⟩) }
  let mine := fun (o : Option (Fin 40)) => o.any (·.val == n)
  { s with taken := s.taken.filter (fun e => !mine e.1.region && !mine (s.regionOf e.2)), flying := s.flying.filter (fun e => e.1 ≠ n),
           taps := s.taps.filter (fun e => e.1 ≠ n), arbiters := Tbl.keep (fun k => k / 8192 != n) s.arbiters }

/-- The word that a word stage starts with, + 1 (R36; assumption 91). -/
def WordCfg.start (c : WordCfg) : Nat := tokNum (startTok c.init none)

/-- The wake of region `n` (R37, R62, R440): the initial tokens of its stages are presented, its registers take their starting values
and its state becomes WOKEN. -/
def State.wake (s : State) (n : Nat) : State :=
  let s := s.each (s.regionCells n) fun e s => { s with cells := Tbl.set Cell.reset s.cells e.1 (e.2.start false) }
  let s := s.each (s.regionCells n) fun e s => s.startSecond n e false
  let s := s.each (s.words.filter fun e => e.1 % 40 == n) fun e s =>
    { s with words := Tbl.set none s.words e.1 (e.2.map fun w => { w with tok := w.cfg.start }) }
  (s.put .CFG_RGN_STAT_STATE n 3).showClocks n

/-- Region `n` takes a wake strobe: it is HELD, its INIT restore has finished, and no slice tests it (R62, R75, R440, R515). -/
def State.wakeable (s : State) (n : Nat) : Bool :=
  s.fld .CFG_RGN_STAT_STATE n == 2 && !s.restoring.contains n && (s.secure.run.bind fun t => sliceRegion t.now) != some n

/-- A pulse on its way on a tree T2..T7 reaches a tap (R61, R63): one token of value 1, or the overrun flag of a tap that still holds one.
The tap takes no pulse while its region is not woken (R37). A consumer that settled without the token takes it as it comes (R30). -/
def execStrobeTapPulse (n : Fin 40) (t : Fin 8) (k : Nat) (s : State) : Host.Outcome State Fault Refusal :=
  .next <|
  let me := (n.val, t.val, k)
  if t.val < 2 || !s.flying.contains me then s
  else
    let s := { s with flying := s.flying.erase me }
    if !s.woken n then s
    else if s.taps.contains me then
      (if t.val < 4 then s.orFld .CFG_TREE_STAT_STROBE_OVR n (2 ^ (t.val - 2))
        else s.orFld .CFG_TREE_STAT_UTAP_OVR n (2 ^ (t.val - 4))).raise (164 + n.val)
    else { s with taps := s.taps ++ [me] }.settleToken (.tap n t k)

/-- The regions that use user clock tree `t` (R67). -/
def State.clockUsers (s : State) (t : Fin 4) : List Nat := bitsOf 40 (Tbl.find 0 s.uclkUse t)

/-- Loss of a user clock, declared once after 4 µs without a rising edge (R67): UCLK_RUN clears, UCLK_LOSS sets and source 164 + n is raised in every region
that uses it; the clocked clusters keep their registers, and the words that stand at crossing elements into them wait (R97). -/
def execUserClockLoss (t : Fin 4) (s : State) : Host.Outcome State Fault Refusal :=
  .next <|
  let x := s.tree t
  if !x.clocks || x.lost || x.edges != 0 || !s.ran .uclk t 4000 then s
  else
    (s.setTree t { x with present := false, lost := true }).each (s.clockUsers t) fun n s =>
      ((s.putBit .CFG_TREE_STAT_UCLK_RUN n t false).orFld .CFG_TREE_STAT_UCLK_LOSS n (2 ^ t.val)).raise (164 + n)

/-- A user clock is present (R67, R81): UCLK_RUN is set in every region that uses it. -/
def State.clockPresent (s : State) (t : Fin 4) : State :=
  (s.setTree t { s.tree t with present := true, lost := false }).each (s.clockUsers t) fun n s => s.putBit .CFG_TREE_STAT_UCLK_RUN n t true

/-- Edges return on a user clock (R67): with one on its way to the clusters UCLK_RUN is set again, and UCLK_LOSS stays. -/
def execUserClockReturn (t : Fin 4) (s : State) : Host.Outcome State Fault Refusal :=
  .next (if (s.tree t).clocks && (s.tree t).edges != 0 then s.clockPresent t else s)

/-- Rail 1 of an outside wire. -/
def rail1 (o : List (Nat × Rail)) (k : Nat) : Nat :=
  match o.find? (·.1 == k) with
  | some (_, .bit b _) => b2n b
  | some (_, .pair r) => r.toNat % 2
  | none => 0

/-- The inputs of a list as levels, the first in bit 0. -/
def levels (f : Source → Nat) : List (Option Source) → Nat
  | [] => 0
  | none :: t => 2 * levels f t
  | some x :: t => f x % 2 + 2 * levels f t

/-- The level of a source on rail 1, as a cluster clocked by tree `t` sees it (R64): registers and unstaged cells of the same clock, and crossing elements into
it of the same tile; nothing else reaches it (R54, R66). -/
def State.level (s : State) (n : Fin 40) (tile : Fin 256) (t : Fin 4) (o : List (Nat × Rail)) : Nat → Bool → Source → Nat
  | 0, _, _ => 0
  | k + 1, up, x =>
    match x with
    | .outside w => rail1 o w
    | .element e b => match s.element n e with
      | some x => if x.cfg.into && x.cfg.clock == t && x.cfg.tile == tile then x.value / 2 ^ b % 2 else 0
      | none => 0
    | .tap _ _ => 0
    | .eject _ _ => 0
    | .cell i =>
      let c := (s.cell n i).cfg
      if i.val / 256 != tile.val || s.outClock n i != some t then 0
      else if !up && s.heldOut n i then (match s.outSite n i with
        | .second _ _ => (s.cell n i).tok2.getD 0
        | _ => (s.cell n i).tok.getD 0)
      else
        let own := levels (s.level n tile t o k false) c.inputs
        let below := if c.chains i then s.level n tile t o k true (.cell (i - 1)) else 0
        if up then b2n (c.chainTable.getLsbD (own % 16 + 16 * below))
        else c.output (if c.mode = .chain then own % 16 + 16 * below else own)

/-- What a rising edge of tree `t` does to a cell that it clocks (R64): a staged output captures its function, a STAGE cell shifts its two registers, and a memory
cell serves the request at its inputs. The result is the cell and, in MEM32, the register of the cell above. -/
def State.edgeCell (s : State) (n : Fin 40) (i : Fin 65536) (t : Fin 4) (o : List (Nat × Rail)) : Cell × Option Nat :=
  let c := s.cell n i
  let at_ := fun l => levels (s.level n (tileOf i) t o netDepth false) l
  match c.cfg.mode with
  | .stage => ({ c with tok := some (at_ c.cfg.inputs % 2), tok2 := c.tok }, none)
  | .logic | .chain =>
    let own := at_ c.cfg.inputs
    let below := if c.cfg.chains i then s.level n (tileOf i) t o netDepth true (.cell (i - 1)) else 0
    let v := c.cfg.output (if c.cfg.mode = .chain then own % 16 + 16 * below else own)
    (if c.cfg.staged then { c with tok := some v } else c, none)
  | .mem64 | .mem32 =>
    let q := at_ (c.cfg.inputs.take (requestBits c.cfg))
    let d := at_ (c.cfg.inputs.drop (requestBits c.cfg))
    let old := memEntry c (q / 4)
    let mem := if q % 4 = 1 || q % 4 = 2 then memStore c (q / 4) d else c.mem
    if q % 4 = 1 then ({ c with mem := mem }, none)
    else ({ c with tok := some (old % 2), mem := mem }, if c.cfg.mode = .mem32 then some (old / 2 % 2) else none)

/-- A crossing element at a rising edge of its cluster's tree (R66, R87, R88): into the cluster, a word is accepted at the second edge that sees it; out of it, a value that
differs from the one last published becomes a token as soon as the element is free, of a multi-bit value at most once every four edges (R88). -/
def State.edgeElement (s : State) (n : Fin 40) (x : Element) (o : List (Nat × Rail)) : Element :=
  let cut := fun (v : Nat) => if x.cfg.multi then v else v % 2
  if x.cfg.into then
    if x.tok = 0 then x
    else if x.seen = 0 then { x with seen := 1 }
    else { x with tok := 0, seen := 0, value := cut (x.tok - 1) }
  else
    let v := cut (levels (s.level n x.cfg.tile x.cfg.clock o netDepth false) x.cfg.inputs)
    if x.tok = 0 && v != x.value && (!x.cfg.multi || x.age = 0) then { x with tok := v + 1, value := v, age := 3 } else { x with age := x.age - 1 }

/-- The outside wires of region `n` at an edge. -/
def wiresOf (w : List (Fin 40 × List (Nat × Rail))) (n : Fin 40) : List (Nat × Rail) :=
  match w.find? (·.1 == n) with
  | some e => e.2
  | none => []

/-- The trees whose source is the output of a clocked cell take the level that it has after an edge (R61, R64). -/
def State.clockedTrees (s : State) (t : Fin 4) (wires : List (Fin 40 × List (Nat × Rail))) : State :=
  s.each (List.finRange 4) fun u r => match (s.tree u).cfg with
    | some ⟨_, .cell n i⟩ => if s.woken n && s.outClock n i == some t then r.treeLevel u (s.level n (tileOf i) t (wiresOf wires n) netDepth false (.cell i) == 1) else r
    | _ => r

/-- A rising edge of the source of user clock tree `t` reaches the clusters (R61, R64, R66): in every woken region those that it clocks and their crossing
elements take it, all from what stood before; a tree whose source one of those clusters is takes its level. -/
def execUserClockEdge (t : Fin 4) (wires : List (Fin 40 × List (Nat × Rail))) (s : State) : Host.Outcome State Fault Refusal :=
  .next <|
  let x := s.tree t
  if !x.clocks || x.edges = 0 then s
  else
    let r := ((s.setTree t { x with edges := x.edges - 1 }).startTimer .uclk t).clockPresent t
    let r := r.each ((List.finRange 40).filter fun n => s.woken n.val) fun (n : Fin 40) r =>
      let r := r.each ((s.regionCells n).filter fun e => e.2.cfg.clock == some t && !s.lent n (e.1 % 65536)) fun e r =>
        let i : Fin 65536 := Fin.ofNat 65536 e.1
        let c := s.edgeCell n i t (wiresOf wires n)
        let r := r.setCell n i c.1
        match c.2 with
        | some v => r.setCell n (i + 1) { r.cell n (i + 1) with tok := some v }
        | none => r
      r.each ((s.elements.filter fun e => e.1 % 40 == n.val)) fun e r =>
        match e.2 with
        | some x => if x.cfg.clock = t then
            { r with elements := Tbl.set none r.elements e.1 (some (s.edgeElement n x (wiresOf wires n))) }.settleToken (.stage (.element n (e.1 / 40)))
          else r
        | none => r
    r.clockedTrees t wires

/-! ### Block memories (R68..R75) -/

/-- Block memory `i` of region `n`. -/
def State.bm (s : State) (n i : Nat) : BlockMem := Tbl.find BlockMem.reset s.bms (n * 192 + i)

/-- Sets a block memory. -/
def State.setBm (s : State) (n i : Nat) (b : BlockMem) : State :=
  { s with bms := Tbl.set BlockMem.reset s.bms (n * 192 + i) b }

/-- The data width of an aspect ratio (R68). -/
def Aspect.width : Aspect → Nat
  | .w72 => 72 | .ecc64 => 64 | .w36 => 36 | .w18 => 18 | .w9 => 9 | .w4 => 4 | .w2 => 2 | .w1 => 1

/-- The address bits of an aspect ratio (R68). -/
def Aspect.addrBits : Aspect → Nat
  | .w72 => 10 | .ecc64 => 10 | .w36 => 11 | .w18 => 12 | .w9 => 13 | .w4 => 14 | .w2 => 15 | .w1 => 16

/-- Whether an aspect lies in the 64-bit view of a row rather than in its 72 bits (R71). -/
def Aspect.viewed : Aspect → Bool
  | .ecc64 | .w4 | .w2 | .w1 => true
  | _ => false

/-- Whether an aspect has a write mask, and the bits a mask bit covers (R68). -/
def Aspect.byteBits : Aspect → Option Nat
  | .ecc64 => some 8
  | .w72 | .w36 | .w18 | .w9 => some 9
  | _ => none

/-- Byte `j` of the nine-bit bytes of a row, without its ninth bit. -/
def viewByte (row j : Nat) : Nat := row / 2 ^ (9 * j) % 256

/-- The 64-bit view of a row: bit k is physical bit 9 (k div 8) + k mod 8 (R71). -/
def viewOf (row : Nat) : Nat := (List.range 8).foldl (fun v j => v + viewByte row j * 2 ^ (8 * j)) 0

/-- The row whose view is `v` and whose ninth bits are those of `row`. -/
def viewPut (row v : Nat) : Nat :=
  (List.range 8).foldl (fun r j =>
    r + (v / 2 ^ (8 * j) % 256 + row / 2 ^ (9 * j + 8) % 2 * 256) * 2 ^ (9 * j)) 0

/-- The row and the lowest bit of an entry (R71). -/
def entryPlace (a : Aspect) (addr : Nat) : Nat × Nat :=
  let per := (if a.viewed then 64 else 72) / a.width
  let e := addr % 2 ^ a.addrBits
  (e / per, a.width * (e % per))

/-- The entry at an address (R71). -/
def BlockMem.entry (b : BlockMem) (a : Aspect) (addr : Nat) : Nat :=
  let p := entryPlace a addr
  let row := Tbl.find 0 b.rows p.1
  (if a.viewed then viewOf row else row) / 2 ^ p.2 % 2 ^ a.width

/-- New data merged into an old entry under a write mask; an unmasked byte keeps its stored value (R69). -/
def maskMerge (a : Aspect) (old new mask : Nat) : Nat :=
  match a.byteBits with
  | none => new % 2 ^ a.width
  | some w =>
    (List.range (a.width / w)).foldl (fun v i =>
      v + (if bitOf mask i then new else old) / 2 ^ (w * i) % 2 ^ w * 2 ^ (w * i)) 0

/-! ### The check code of the ECC ratio (R74; assumption 91) -/

/-- The place of data bit `k` in a Hamming code word, whose places that are powers of two hold check bits. -/
def hamPlace (k : Nat) : Nat :=
  if k < 1 then 3 else if k < 4 then k + 4 else if k < 11 then k + 5 else if k < 26 then k + 6 else if k < 57 then k + 7 else k + 8

/-- The parity of the low `n` bits. -/
def parityOf (n v : Nat) : Nat := (List.range n).foldl (fun p k => (p + v / 2 ^ k) % 2) 0

/-- Seven check bits: the exclusive or of the places of the data bits that are 1. -/
def hamSum (v : Nat) : Nat := (List.range 64).foldl (fun c k => if bitOf v k then c ^^^ hamPlace k else c) 0

/-- The eight check bits of 64 data bits: the seven of the Hamming code, and the parity of data and those. -/
def eccCode (v : Nat) : Nat :=
  let c := hamSum v
  c + 128 * ((parityOf 64 v + parityOf 7 c) % 2)

/-- The check of data against its code (R74): what it shows, and the data with a single error corrected. -/
def eccCheck (v code : Nat) : Ecc × Nat :=
  let s := hamSum v ^^^ (code % 128)
  let odd := (parityOf 64 v + parityOf 8 code) % 2 == 1
  if !odd then (if s = 0 then .clean else .uncorrectable, v)
  else match (List.range 64).find? fun k => hamPlace k == s with
    | some k => (.corrected, v ^^^ 2 ^ k)
    | none => if ([0, 1, 2, 4, 8, 16, 32, 64] : List Nat).contains s then (.corrected, v) else (.uncorrectable, v)

/-- The eight bits of a row outside its 64-bit view. -/
def ninths (row : Nat) : Nat := (List.range 8).foldl (fun v j => v + row / 2 ^ (9 * j + 8) % 2 * 2 ^ j) 0

/-- The row with a view and the eight bits beside it (R71). -/
def eccRow (view code : Nat) : Nat :=
  (List.range 8).foldl (fun r j => r + (view / 2 ^ (8 * j) % 256 + code / 2 ^ j % 2 * 256) * 2 ^ (9 * j)) 0

/-- The row of an access in the ECC ratio as its check finds it: what it shows, the data, and the memory with a corrected row written back (R74). -/
def BlockMem.check (b : BlockMem) (addr : Nat) : Ecc × Nat × BlockMem :=
  let p := entryPlace .ecc64 addr
  let row := Tbl.find 0 b.rows p.1
  let r := eccCheck (viewOf row) (ninths row)
  (r.1, r.2, if r.1 = .corrected then { b with rows := Tbl.set 0 b.rows p.1 (eccRow r.2 (eccCode r.2)) } else b)

/-- The memory with an entry written under a mask (R69, R71); in the ECC ratio with its check code (R74). -/
def BlockMem.store (b : BlockMem) (a : Aspect) (addr data mask : Nat) : BlockMem :=
  let p := entryPlace a addr
  let row := Tbl.find 0 b.rows p.1
  let old := b.entry a addr
  let new := maskMerge a old data mask
  let view := if a.viewed then viewOf row else row
  let view' := view - old * 2 ^ p.2 + new * 2 ^ p.2
  let row' := if a = .ecc64 then eccRow new (eccCode new) else if a.viewed then viewPut row view' else view'
  { b with rows := Tbl.set 0 b.rows p.1 row' }

/-- The aspect ratio of a port. -/
def BlockMem.aspect (b : BlockMem) : BmPort → Aspect
  | .A => b.cfg.aspectA
  | .B => b.cfg.aspectB

/-- The reply words of an entry: two of 36 bits at width 72, two of 32 at width 64 with the status in the low word's
tag, one otherwise (R68, R69, R74). -/
def replyWords (a : Aspect) (v tag : Nat) : List Nat :=
  match a with
  | .w72 => [v % 2 ^ 36, v / 2 ^ 36]
  | .ecc64 => [v % 2 ^ 32 + tag * 2 ^ 32, v / 2 ^ 32]
  | _ => [v]

/-- The data that a request's words carry (R68). -/
def dataWords (a : Aspect) (low high : Nat) : Nat :=
  match a with
  | .w72 => low % 2 ^ 36 + 2 ^ 36 * high
  | .ecc64 => low % 2 ^ 32 + 2 ^ 32 * (high % 2 ^ 32)
  | _ => low % 2 ^ a.width

/-- The tag of an ECC result (R74). -/
def Ecc.tag : Ecc → Nat
  | .clean => 0 | .corrected => 1 | .uncorrectable => 2

/-- What an ECC result of block memory `i` of region `n` records (R74, R80). -/
def State.bmEcc (s : State) (n i : Nat) (e : Ecc) : State :=
  match e with
  | .clean => s
  | .corrected =>
    (((s.put .CFG_BM_STAT_CORR n 1).bump .CFG_BM_STAT_CORR_CNT n 1).raise (164 + n)).perf 1 n 34 1 none
  | .uncorrectable =>
    ((s.when (!s.on .CFG_BM_STAT_UNCORR n) (·.put .CFG_BM_STAT_FIRST_BM n i)).put .CFG_BM_STAT_UNCORR n 1).raise
      (164 + n)

/-- Block memories serve requests while their region is woken (R37). -/
def State.bmReady (s : State) (n : Nat) : Bool := s.woken n

/-- The fields of an address word (R69). -/
def bmOp (w : Nat) : Nat := w % 4
def bmAddr (w : Nat) : Nat := w / 4 % 2 ^ 16
def bmMask (w : Nat) : Nat := w / 2 ^ 18 % 2 ^ 8

/-- The physical bits that an access touches, as the bits of its row (R71, R72): the entry, or of a WRITE or WRITE_ACK with a mask its written bytes; the whole row
in the ECC ratio, whose check bits go with every access. -/
def footprint (a : Aspect) (w : Nat) : Nat :=
  let p := entryPlace a (bmAddr w)
  if a = .ecc64 then 2 ^ 72 - 1
  else
    let full := if bmOp w % 2 = 1 then maskMerge a 0 (2 ^ a.width - 1) (bmMask w) else 2 ^ a.width - 1
    if a.viewed then viewPut 0 (full * 2 ^ p.2) else full * 2 ^ p.2

/-- Whether an access of port A and one of port B collide (R71): one row, a bit that both cover, and one of them writes. -/
def BlockMem.collides (b : BlockMem) (wa wb : Nat) : Bool :=
  (entryPlace b.cfg.aspectA (bmAddr wa)).1 == (entryPlace b.cfg.aspectB (bmAddr wb)).1 &&
    (footprint b.cfg.aspectA wa &&& footprint b.cfg.aspectB wb) != 0 && (bmOp wa != 0 || bmOp wb != 0)

/-- A port serves a request (R69, R74). READ replies with the addressed entry; WRITE writes under its mask; SWAP replies with the whole entry before the
write; WRITE_ACK writes and replies 0 on every reply channel. In the ECC ratio a READ or SWAP, and a write that must merge, checks the row first. -/
def State.bmServe (s : State) (n i : Nat) (p : BmPort) (w low high : Nat) : State :=
  let b := s.bm n i
  let a := b.aspect p
  let op := bmOp w
  let addr := bmAddr w
  let checks := a = .ecc64 && (op % 2 == 0 || bmMask w != 255)
  let r := if checks then b.check addr else (.clean, b.entry a addr, b)
  let b' := r.2.2
  let b'' := if op = 0 then b' else b'.store a addr (dataWords a low high) (bmMask w)
  let s := (s.setBm n i b'').when checks (·.bmEcc n i r.1)
  if op = 0 || op = 2 then s.emit (.bmReply n i p (replyWords a r.2.1 r.1.tag))
  else if op = 3 then s.emit (.bmReply n i p (replyWords a 0 0))
  else s

/-- Upsets flip bits of the row that a request addresses. -/
def State.bmFlip (s : State) (n i : Nat) (p : BmPort) (w : Nat) (flips : List (Fin 72)) : State :=
  let b := s.bm n i
  let row := (entryPlace (b.aspect p) (bmAddr w)).1
  if flips.isEmpty then s
  else s.setBm n i { b with rows := Tbl.set 0 b.rows row ((flips.eraseDups).foldl (fun v k => v ^^^ 2 ^ k.val) (Tbl.find 0 b.rows row)) }

/-- A request stands at a port of a block memory (R70, R72): a port serves its requests in order; of two that collide, ready at the start of one cycle, port A's is
served first and port B's waits for it. -/
def State.bmRequest (s : State) (n i : Nat) (p : BmPort) (w low high : Nat) (m : BmMoment) : State :=
  if !s.bmReady n then s
  else
    let s := s.bmFlip n i p w m.flips
    let b := s.bm n i
    match p with
    | .B =>
      let waits := !b.held.isEmpty || m.other.any fun x => b.collides x.toNat w
      if waits then s.setBm n i { b with held := b.held ++ [⟨w, low, high⟩] } else s.bmServe n i .B w low high
    | .A =>
      let s := (s.bmServe n i .A w low high).each b.held fun h s => s.bmServe n i .B h.word h.low h.high
      s.setBm n i { s.bm n i with held := [] }

/-- READ: replies with the addressed entry (R69), with its ECC status in the ECC ratio (R74). -/
def execBmRead (n : Fin 40) (i : Fin 192) (p : BmPort) (word : WordToken) (m : BmMoment) (s : State) :
    Host.Outcome State Fault Refusal :=
  .next (s.bmRequest n i p word.toNat 0 0 m)

/-- WRITE: a masked write with no reply (R69). -/
def execBmWrite (n : Fin 40) (i : Fin 192) (p : BmPort) (word : WordToken) (data : BmData) (m : BmMoment) (s : State) :
    Host.Outcome State Fault Refusal :=
  .next (s.bmRequest n i p word.toNat data.low.toNat data.high.toNat m)

/-- SWAP: replies with the whole entry before the write, then writes under the mask (R69). -/
def execBmSwap (n : Fin 40) (i : Fin 192) (p : BmPort) (word low high : WordToken) (m : BmMoment) (s : State) :
    Host.Outcome State Fault Refusal :=
  .next (s.bmRequest n i p word.toNat low.toNat high.toNat m)

/-- WRITE_ACK: writes, then sends a reply token of value 0 on every reply channel (R69). -/
def execBmWriteAck (n : Fin 40) (i : Fin 192) (p : BmPort) (word : WordToken) (data : BmData) (m : BmMoment) (s : State) :
    Host.Outcome State Fault Refusal :=
  .next (s.bmRequest n i p word.toNat data.low.toNat data.high.toNat m)

/-- The image contents of a block memory. -/
def BmCfg.image (c : BmCfg) : Tbl Nat := c.rows.foldl (fun t r => Tbl.set 0 t r.1 r.2) []

/-- The contents of region `n`'s block memories return to their image contents where INIT is set (`init`), and to 0
where KEEP is set (`clearKeep`) (R75). What waits at their ports is gone. -/
def State.resetBms (s : State) (n : Nat) (init clearKeep : Bool) : State :=
  s.each (s.bms.filter (fun e => e.1 / 192 == n)) fun e s =>
    let rows := if e.2.cfg.keep then (if clearKeep then [] else e.2.rows)
      else if init then e.2.cfg.image else e.2.rows
    { s with bms := Tbl.set BlockMem.reset s.bms e.1 { e.2 with rows := rows, held := [] } }

end Sys2Proof.Machine
end

