-- ==== Sys2Proof/Machine/Images.lean ====
section
/-! DEFINITION. Images as the loader reads them (R408..R414): the header, the rolling keys and tags of the segment records, the sections, and the checks. -/

namespace Sys2Proof.Machine

/-! ### The header (R409) -/

/-- A header's fields. -/
def ImageFacts.kind (f : ImageFacts) : Nat := rd f.header 6 1
def ImageFacts.target (f : ImageFacts) : Nat := rd f.header 7 1
def ImageFacts.part (f : ImageFacts) : Nat := rd f.header 8 2
def ImageFacts.stepping (f : ImageFacts) : Nat := rd f.header 10 1
def ImageFacts.grades (f : ImageFacts) : Nat := rd f.header 11 1
def ImageFacts.length (f : ImageFacts) : Nat := rd f.header 16 8
def ImageFacts.design (f : ImageFacts) : Nat := rd f.header 24 8
def ImageFacts.key (f : ImageFacts) : Nat := rd f.header 48 1
def ImageFacts.xspi (f : ImageFacts) : Bool := bitOf (rd f.header 49 1) 0
def ImageFacts.broadcast (f : ImageFacts) : Bool := bitOf (rd f.header 49 1) 1
def ImageFacts.version (f : ImageFacts) : Nat := rd f.header 52 4

/-- MAGIC, FORMAT and HCRC are correct (R414 cause 0x02). -/
def ImageFacts.magicOk (f : ImageFacts) : Bool :=
  rd f.header 0 4 == 0x464C4931 && rd f.header 4 2 == 1 && rd f.header 4092 4 == crc32 (f.header.take 4092)

/-- The header suits the device (R414 cause 0x03). -/
def State.partOk (s : State) (f : ImageFacts) : Bool :=
  f.part == s.fld .DEV_ID_PART 0 && f.stepping == s.fld .DEV_ID_STEPPING 0 && bitOf f.grades (s.fld .DEV_ID_GRADE 0)

/-! ### Segment records (R408, R410, R411) -/

/-- The bytes of a segment record: the ciphertext, then its trailer. -/
def Segment.bytes (g : Segment) : List Byte := g.cipher ++ le 16 g.tag.toNat ++ le 12 g.next.toNat ++ le 4 g.pad.toNat

/-- The segments with their index and nonce: N0 of the header, then each from the record before. -/
def numbered : Nat → List Byte → List Segment → List (Nat × List Byte × Segment)
  | _, _, [] => []
  | i, iv, g :: rest => (i, iv, g) :: numbered (i + 1) (le 12 g.next.toNat) rest

/-- The segments of an image. -/
def ImageFacts.numbered (f : ImageFacts) : List (Nat × List Byte × Segment) := Machine.numbered 0 ((f.header.drop 36).take 12) f.segments

/-- The additional authenticated data of a segment: the header ahead of the first, its index, and the next nonce. -/
def ImageFacts.aad (f : ImageFacts) (i : Nat) (g : Segment) : List Byte := (if i = 0 then f.header else []) ++ le 4 i ++ le 12 g.next.toNat

/-- The keys from `K_i` on, one for each segment left: each is derived from the one before and the nonce that its record carries. -/
def rollKeys : Nat → BitVec 256 → List Segment → List (BitVec 256)
  | _, _, [] => []
  | i, k, g :: rest => k :: rollKeys (i + 1) (hmac k (ascii [0x52, 0x4F, 0x4C, 0x4C] ++ le 4 (i + 1) ++ le 12 g.next.toNat)) rest

/-- The segment keys of an image under the key that KEY names. -/
def ImageFacts.rolled (f : ImageFacts) (root : BitVec 256) : List (BitVec 256) :=
  rollKeys 0 (hmac root (ascii [0x53, 0x45, 0x47, 0x30] ++ (f.header.drop 36).take 12 ++ le 8 f.design)) f.segments

/-- The key that an image's KEY names: the image key or the firmware key (R409, R504). -/
def State.imageKey (s : State) (f : ImageFacts) : BitVec 256 := if f.key = 1 then Config.fusedKey 2 else BitVec.ofNat 256 s.secure.ki

/-- The segment keys of an image. -/
def State.segmentKeys (s : State) (f : ImageFacts) : List (BitVec 256) := f.rolled (s.imageKey f)

/-- The plaintext of an image under its segment keys. -/
def ImageFacts.plain (f : ImageFacts) (keys : List (BitVec 256)) : List Byte :=
  (List.zipWith (fun k (e : Nat × List Byte × Segment) => gcmCrypt k e.2.1 e.2.2.cipher) keys f.numbered).flatten

/-- The first segment whose tag fails. -/
def ImageFacts.tagBad (f : ImageFacts) (keys : List (BitVec 256)) : Option Nat :=
  ((List.zip keys f.numbered).find? fun e => gcmTag e.1 e.2.2.1 (f.aad e.2.1 e.2.2.2) e.2.2.2.cipher != e.2.2.2.tag).map (·.2.1)

/-- The image's CRC-32 is the one in its trailer (R413). -/
def ImageFacts.icrcOk (f : ImageFacts) : Bool := crc32 (f.header ++ f.segments.flatMap Segment.bytes) == rd f.trailer 8 4

/-! ### Sections (R412) -/

/-- An entry of SECTIONS. -/
structure Section where
  type : Nat
  region : Nat
  len : Nat
  off : Nat
  crc : Nat
  deriving DecidableEq, Repr

/-- The sections of an image; unused entries are 0. -/
def ImageFacts.sections (f : ImageFacts) : List Section :=
  ((List.range 251).filter fun k => ((f.header.drop (64 + 16 * k)).take 16).any (· != 0)).map fun k =>
    let e := (f.header.drop (64 + 16 * k)).take 16
    ⟨rd e 0 2, rd e 2 1, rd e 4 4, rd e 8 4, rd e 12 4⟩

/-- The section types that the loader knows. -/
def knownSections : List Nat := [0x0001, 0x0002, 0x0010, 0x0011, 0x0012, 0x0013, 0x0014, 0x0015, 0x0020, 0x0030]

/-- What a section holds. -/
def Section.text (x : Section) (plain : List Byte) : List Byte := (plain.drop x.off).take x.len

/-- A section lies in the plaintext and its CRC checks. -/
def Section.sound (x : Section) (plain : List Byte) : Bool := decide (x.off + x.len ≤ plain.length) && crc32 (x.text plain) == x.crc

/-- The first section that fails, as the segment where it begins (R414 cause 0x07; the segment: DEDUCED, assumption 98). -/
def ImageFacts.sectionBad (f : ImageFacts) (plain : List Byte) : Option Nat :=
  (f.sections.find? fun x => !((knownSections.contains x.type || 0x8000 ≤ x.type) && x.sound plain)).map fun x => min 0xFFFF (x.off / 2 ^ 22)

/-- The section of a type for a region. -/
def ImageFacts.section? (f : ImageFacts) (type region : Nat) : Option Section := f.sections.find? fun x => x.type == type && x.region == region

/-- The text of a section, where there is one. -/
def ImageFacts.text (f : ImageFacts) (plain : List Byte) (type region : Nat) : Option (List Byte) := (f.section? type region).map (·.text plain)

/-- The memories that a region's BM_INIT marks INIT (R75, R412): a bit that is 1 (DEDUCED, assumption 98). -/
def initMask (t : List Byte) : List Nat := bitsOf 192 (rd t 0 24)

/-- How many memories a region image marks INIT (R428). -/
def ImageFacts.inits (f : ImageFacts) (plain : List Byte) (region : Nat) : Nat := ((f.text plain 0x0011 region).map fun t => (initMask t).length).getD 0

/-- The rows that are not 0 of memory `i` in BM_INIT: 1,024 of 9 bytes, the INIT memories in index order (R68, R412); none where it is KEEP. -/
def initRows (t : List Byte) (i : Nat) : Option (List (Nat × Nat)) :=
  if (initMask t).contains i then
    let at_ := 24 + 9216 * ((initMask t).takeWhile (· != i)).length
    some (((List.range 1024).map fun r => (r, rd t (at_ + 9 * r) 9)).filter (·.2 != 0))
  else none

/-- A block memory as an image configures it: its ratios from its frames, INIT or KEEP and the contents from BM_INIT; KEEP where there is none. -/
def ImageFacts.memory (f : ImageFacts) (plain : List Byte) (region : Nat) (m : Fin 192 × Aspect × Aspect) : Fin 192 × BmCfg :=
  match (f.text plain 0x0011 region).bind fun t => initRows t m.1 with
  | some rows => (m.1, ⟨m.2.1, m.2.2, false, rows⟩)
  | none => (m.1, ⟨m.2.1, m.2.2, true, []⟩)

/-- The essence map of a region image by byte, as the bytes that are not 0 (R450). -/
def ImageFacts.essence (f : ImageFacts) (plain : List Byte) (region : Nat) : Option (Tbl Nat) :=
  (f.text plain 0x0012 region).map fun t => ((List.range t.length).map fun k => (k, rd t k 1)).filter (·.2 != 0)

/-- The DEV_RGN_ACCESS word of a region (R19, R412). -/
def ImageFacts.access (f : ImageFacts) (plain : List Byte) (region : Nat) : Option Nat := (f.text plain 0x0015 region).map fun t => rd t 0 4

/-- The CRC-32 of each frame of a section of frames (R445 step 3, R453). -/
def frameCrcs (first : Nat) (t : List Byte) : List (Nat × Nat) :=
  (List.range (t.length / 4096)).map fun k => (first + k, crc32 ((t.drop (4096 * k)).take 4096))

/-- The first place of a region's frames in the scrub cycle, or of the GLOBAL frames (R449, R451). -/
def framePlace (region : Nat) : Nat := 896 * region

/-- The frames of a region (FRAMES) or, for 40, the GLOBAL frames, as an image has them. -/
def ImageFacts.frames (f : ImageFacts) (plain : List Byte) (region : Nat) : List Byte :=
  ((if region < 40 then f.text plain 0x0010 region else f.text plain 0x0002 0xFF)).getD []

/-- The loader records each written frame's CRC-32 (R445 step 3). -/
def State.recordFrames (s : State) (region : Nat) (frames : List Byte) : State :=
  let first := framePlace region
  let count := if region < 40 then 896 else 2688
  s.setConfig fun c =>
    let others := Tbl.keep (fun k => decide (k < first) || decide (first + count ≤ k)) c.frameCrc
    { c with frameCrc := (frameCrcs first frames).foldl (fun t e => Tbl.set 0 t e.1 e.2) others }

/-! ### The key table (R411) -/

/-- The segment keys kept for the image in force in a region: those of its own image, or of the full image. -/
def State.keptKeys (s : State) (region : Nat) : List (BitVec 256) :=
  let own := if region < 40 then Tbl.find [] s.config.segKeys (region + 1) else []
  if own.isEmpty then Tbl.find [] s.config.segKeys 0 else own

/-- Sets the entries of an image: 0 the full image, n + 1 the region image of region n. -/
def State.keepKeys (s : State) (entry : Nat) (keys : List (BitVec 256)) : State :=
  s.setConfig fun c => { c with segKeys := Tbl.set [] c.segKeys entry keys }

/-! ### The checks (R414) -/

/-- The first check of R414 that a load of `slot` fails (none: 0xFD flash, 0xFE broadcast), as cause and segment. `kinds` and `target`: what
suits the load. An image key that is absent fails the first tag (R503). No rule says which segment cause 0x08 names: `crcAt` is free. -/
def State.imageFails (s : State) (slot : Nat) (kinds : Nat) (target : Nat) (f : ImageFacts) (watchdog : Bool) : Option (Nat × Nat) :=
  let internal := decide (slot < 64)
  let blocks := slotBlocks slot
  let keys := s.segmentKeys f
  let plain := f.plain keys
  let keyAbsent := f.key == 0 && !bitOf (s.fld .DEV_SEC_STAT_KEYS 0) 0
  let tag := if keyAbsent then some 0 else f.tagBad keys
  let flash := slot == 0xFD
  let rows : List (Bool × Nat × Nat) :=
    [(internal && !(s.slot slot).valid, 1, 0),
     (!f.magicOk, 2, 0),
     (!s.partOk f, 3, 0),
     (f.kind != kinds || f.target != target || (f.key == 1 && kinds != 4) || (flash && !f.xspi), 4, 0),
     (tag.isSome, 5, tag.getD 0),
     (f.uncorr.isSome, 6, (f.uncorr.map (·.1.toNat)).getD 0),
     ((f.sectionBad plain).isSome, 7, (f.sectionBad plain).getD 0),
     (!f.icrcOk, 8, f.crcAt.toNat),
     (internal && s.marked.any (fun b => decide (blocks.1 ≤ b) && decide (b < blocks.1 + blocks.2)), 9, 0),
     (flash && !f.busOk, 10, 0),
     (flash && decide (64 < f.inits plain target), 11, 0),
     (slot == 0xFE && !f.whole, 12, 0),
     (watchdog, 13, 0)]
  (rows.find? (·.1)).map (·.2)

/-- What a load's reading does to the memory's counts (R404, R434). -/
def State.readImage (s : State) (slot : Nat) (f : ImageFacts) : State :=
  if slot < 64 then s.nvmRead f.corrected (f.uncorr.map fun x => x.2.toNat)
  else s.when (slot == 0xFD && !f.busOk) fun s => (s.put .CFG_XSPI_BUS_ERR 0 1).raise 224

/-- The source of an image in force can be read again: its slot has no uncorrectable word and no erase-incomplete marker, or the flash answers; one that
came by broadcast has none (R404, R425, R435, R453). -/
def State.sourceReads (s : State) (source : Nat) (f : ImageFacts) : Bool :=
  let blocks := slotBlocks source
  if source = 64 then f.busOk
  else source < 64 && f.uncorr.isNone && !s.marked.any fun b => decide (blocks.1 ≤ b) && decide (b < blocks.1 + blocks.2)

/-- What the source of the image in force in a region gives, decrypted with the kept segment keys (R425, R453). -/
def State.reread (s : State) (region : Nat) (f : ImageFacts) : List Byte := f.plain (s.keptKeys region)

/-- The BM_INIT section of a region is read again and its CRC checks (R425); an image without one has nothing to restore. -/
def State.restoreChecks (s : State) (n : Nat) (f : ImageFacts) : Bool :=
  s.sourceReads (Tbl.find 0 s.config.sources n - 1) f &&
    (match f.section? 0x0011 n with
      | some x => x.sound (s.reread n f)
      | none => true)

/-- A frame is read again and its CRC-32 is the one recorded at the load (R453). -/
def State.frameChecks (s : State) (source region frame : Nat) (f : ImageFacts) : Bool :=
  s.sourceReads source f &&
    crc32 (((f.frames (s.reread region f) region).drop (4096 * frame)).take 4096) == Tbl.find 0 s.config.frameCrc (framePlace region + frame)

end Sys2Proof.Machine
end

