-- ==== Sys2Proof/WellFormed.lean ====
section
/-! DEFINITION. Which commands are well formed: the conditions that R355, R350, R468, R469, R481, R502, R515 and R517 put on what a sender gives a command
and that its operands' types do not hold already. -/

namespace Sys2Proof.Machine

/-- A list without repeats. -/
def distinct {α : Type} [DecidableEq α] : List α → Bool
  | [] => true
  | a :: t => !t.contains a && distinct t

/-- A letter of a service: its OPCODE is the service's, its body has at most 4,064 bytes, and its FLAGS are bits 3 and 4 alone (R355, R356). -/
def Letter.wf (L : Letter) (opcode : Nat) : Bool :=
  L.opcode.toNat == opcode && decide (L.body.length ≤ 4064) && L.flags &&& 0xFFE7 == 0

/-- An owner identifier of a ring peer (R350). -/
def isPeerOwner (owner : Nat) : Bool := decide (0x60 ≤ owner) && decide (owner ≤ 0x9F)

/-- What a start finds: 12 groups of 8 fuses, and a cause of R414 that fits a firmware copy (R414, R502). -/
def StartFacts.wf (f : StartFacts) : Bool :=
  f.fuses.length == 12 && f.fuses.all (fun n => decide (n ≤ 8)) && decide (f.copyA.toNat ≤ 13) && decide (f.copyB.toNat ≤ 13)

/-- The measurements of a millisecond: 32 points, 40 islands, 48 junction sensors and 4 stacks (R461, R469, R481). -/
def Sense.wf (x : Sense) : Bool := x.rails.length == 32 && x.islands.length == 40 && x.temps.length == 52

/-- Two regions share a border: region n stands in column n div 8 and row n mod 8 (R16, R52). -/
def adjacent (p c : Nat) : Bool :=
  (p / 8 == c / 8 && (p + 1 == c || c + 1 == p)) || (p % 8 == c % 8 && (p + 8 == c || c + 8 == p))

/-- An isolation cell stands at a border that has its slot: 768 a direction between regions, 256 toward the agents, whose side only columns A and E
have; a region's control port has one channel each way, and it has two position gates (R60, R79, R137, R444). -/
def IsoSite.wf (x : IsoSite) : Bool :=
  match x.kind, x.producer, x.consumer with
  | .fabric, some p, some c => adjacent p.val c.val
  | .agent, some n, none => (n.val / 8 == 0 || n.val / 8 == 4) && decide (x.slot.val < 256)
  | .agent, none, some n => (n.val / 8 == 0 || n.val / 8 == 4) && decide (x.slot.val < 256)
  | .control, some _, none => x.slot == 0
  | .control, none, some _ => x.slot == 0
  | .gate, none, some _ => decide (x.slot.val < 2)
  | _, _, _ => false

/-- An express port carries four word channels, and it alone has two hop stages (R55, R59). -/
def Hop.wf (h : Hop) : Bool :=
  match h.port with
  | .express _ => decide (h.slot.val < 4)
  | _ => !h.second

/-- The tile of the region that lies `k` steps from a tile in a direction. -/
def stepFrom (tile k : Nat) : Dir → Option Nat
  | .east => if tile % 16 + k < 16 then some (tile + k) else none
  | .west => if k ≤ tile % 16 then some (tile - k) else none
  | .north => if tile + 16 * k < 256 then some (tile + 16 * k) else none
  | .south => if 16 * k ≤ tile then some (tile - 16 * k) else none

/-- The tile of the region that a hop stage's slot reaches; none beyond the region, and at ejection. -/
def Hop.dest (h : Hop) : Option Nat :=
  match h.port with
  | .inject => some h.tile.val
  | .eject => none
  | .neighbour d => stepFrom h.tile.val 1 d
  | .express d => stepFrom h.tile.val 8 d

/-- One hop stage leads to the next of a route: the first of an express hop to its second, any other to a slot of the tile it reaches (R59). -/
def Hop.leads (p q : Hop) : Bool :=
  match p.port, p.second with
  | .express _, false => q == { p with second := true }
  | _, _ => p.dest == some q.tile.val && q.port != .inject && !q.second

/-- The direction in which an isolation cell's words travel: from the producer's region to the consumer's, and toward or from the agents beyond columns A and
E (R16, R52, R60). -/
def IsoSite.dir (x : IsoSite) : Option Dir :=
  match x.kind, x.producer, x.consumer with
  | .fabric, some p, some c =>
    if p.val + 8 = c.val then some .east else if c.val + 8 = p.val then some .west else if p.val + 1 = c.val then some .north else some .south
  | .agent, some n, none => if n.val / 8 = 0 then some .west else some .east
  | .agent, none, some n => if n.val / 8 = 0 then some .east else some .west
  | _, _, _ => none

/-- The place of a tile along a border in a direction, and its distance from the border. -/
def borderPlace (tile : Nat) : Dir → Nat × Nat
  | .east => (tile / 16, 15 - tile % 16)
  | .west => (tile / 16, tile % 16)
  | .north => (tile % 16, 15 - tile / 16)
  | .south => (tile % 16, tile / 16)

/-- The tile at a place along a border and a distance from it. -/
def borderTile (place far : Nat) : Dir → Nat
  | .east => 16 * place + (15 - far)
  | .west => 16 * place + far
  | .north => 16 * (15 - far) + place
  | .south => 16 * far + place

/-- The number of the isolation cell that a slot leaving the region leads to, in its direction (R60): the neighbour slots tile by tile, then the express slots by
tile row or column and distance from the border (a numbering of the model's own, assumption 91). -/
def Hop.borderSlot (h : Hop) : Option (Dir × Nat) :=
  match h.port with
  | .neighbour d => if (stepFrom h.tile.val 1 d).isNone then some (d, 16 * (borderPlace h.tile.val d).1 + h.slot.val) else none
  | .express d =>
    let p := borderPlace h.tile.val d
    if h.second && (stepFrom h.tile.val 8 d).isNone then some (d, 256 + 4 * (8 * p.1 + p.2) + h.slot.val) else none
  | _ => none

/-- The opposite direction. -/
def Dir.back : Dir → Dir
  | .east => .west | .west => .east | .north => .south | .south => .north

/-- The tile at which the words of an isolation cell enter the consumer's region. -/
def IsoSite.entry (x : IsoSite) : Option Nat :=
  x.dir.map fun d =>
    if x.slot.val < 256 then borderTile (x.slot.val / 16) 0 d.back
    else borderTile ((x.slot.val - 256) / 32) (7 - (x.slot.val - 256) / 4 % 8) d.back

/-- The tile of its region at whose router a channel of a hard block is attached (R79, R137, R362, R533): the control port at tile 0, the position gates, the mailbox
event channel and the event channel at the tiles above it. -/
def IsoSite.port (x : IsoSite) : Option Nat :=
  match x.kind with
  | .control => some 0
  | .gate => some 16
  | _ => none
def WordFrom.port : WordFrom → Option Nat
  | .border x => x.port
  | .mailboxes => some 32
  | .events => some 48
  | _ => none

/-- A hop stage of a route: at injection it takes bits of its tile, or words of a hard block of the tile; elsewhere the stage before it or a border's words,
at the tile where they enter, or of a hard block at its tile; it leads into an isolation cell only where its slot leaves the region in that direction, or at the end of a route into the control
port; and a route ends at a block memory or hard port only at ejection (R54, R59, R60). -/
def WordCfg.wf (h : Hop) (w : WordCfg) : Bool :=
  h.wf && (w.source.port.all (· == h.tile.val)) && ((w.exit.bind IsoSite.port).all (· == h.tile.val)) &&
    (match w.source with
      | .bits l => h.port == .inject && decide (l.length ≤ 36)
      | .hop g => g.wf && g.leads h
      | .border x => x.wf && !h.second && (if x.dir.isSome then h.port != .inject && x.entry == some h.tile.val else h.port == .inject)
      | _ => h.port == .inject) &&
    (match w.exit with
      | some x => x.wf && x.producer.isSome && !w.sink &&
          (if x.dir.isSome then h.borderSlot == x.dir.map fun d => (d, x.slot.val) else h.port == .eject)
      | none => true) &&
    (!w.sink || h.port == .eject)

/-- The routes of region `n` that cross a border do so at its own. -/
def WordCfg.within (n : Fin 40) (w : WordCfg) : Bool :=
  (w.exit.all fun x => x.producer == some n) && match w.source with
    | .border x => x.consumer == some n
    | _ => true

/-- A cell's inputs fit its mode, a MEM32 cell has a cell above it in its cluster, and a CHAIN cell that takes a chain input one below it in its tile's column
(R27, R30). -/
def CellCfg.wf (i : Fin 65536) (c : CellCfg) : Bool :=
  (match c.mode with
    | .logic => decide (c.inputs.length ≤ 6)
    | .chain => decide (c.inputs.length ≤ 4)
    | .stage => decide (c.inputs.length ≤ 1)
    | .mem64 => c.inputs.length == 9
    | .mem32 => c.inputs.length == 9 && i.val % 16 != 15) &&
    (!c.chained || (c.mode == .chain && i.val % 64 != 0))

/-- The cells of one cluster, 16 of them, are clocked by one tree or none (R64). -/
def clusterClocks (cells : List (Fin 65536 × CellCfg)) : Bool :=
  cells.all fun e => cells.all fun g => e.1.val / 16 != g.1.val / 16 || e.2.clock == g.2.clock

/-- How many inputs a cluster takes from its tile's switch: outputs of cells of the tile's other clusters (R53). -/
def switchInputs (cells : List (Fin 65536 × CellCfg)) (cluster : Nat) : Nat :=
  ((cells.filter (·.1.val / 16 == cluster)).flatMap fun e => e.2.inputs.filterMap fun x => match x with
    | some (.cell j) => if j.val / 16 = cluster then none else some j
    | _ => none).eraseDups.length

/-- The ECC ratio stands on both ports or on neither (R68). -/
def aspectsWf (a b : Aspect) : Bool := (a == .ecc64) == (b == .ecc64)

/-- A site that the fabric has. -/
def Site.wf : Site → Bool
  | .word _ h | .port _ h => h.wf
  | .iso x | .hardPort x => x.wf
  | _ => true

/-- A window has 1,048,576 ticks (R49). -/
def WindowCount.wf (c : WindowCount) : Bool := (c.runs.map (·.ticks)).sum == 1048576

/-- What a region image configures: each cell, memory, monitor, slot, crossing element and fabric output once, each as its rules allow, the cell above a MEM32
cell left to it, at most 48 switch inputs and one clock a cluster, and a margin of 2..50 percent (R27, R53, R55, R64, R412, R467). -/
def RegionBody.wf (b : RegionBody) : Bool :=
  distinct (b.cells.map (·.1)) && distinct (b.memories.map (·.1)) && distinct (b.monitors.map (·.1)) && distinct (b.words.map (·.1)) &&
    distinct (b.elements.map (·.1)) && distinct (b.fouts.map (·.1)) &&
    b.cells.all (fun e => e.2.wf e.1 && (e.2.mode != .mem32 || b.cells.all fun g => g.1.val != e.1.val + 1) && decide (switchInputs b.cells (e.1.val / 16) ≤ 48)) && b.memories.all (fun e => aspectsWf e.2.1 e.2.2) &&
    clusterClocks b.cells && b.words.all (fun e => e.2.wf e.1) &&
    (match b.margin with
      | some m => decide (2 ≤ m.toNat) && decide (m.toNat ≤ 50)
      | none => true)

/-- An image has a header of 4,096 bytes and a trailer of 64 (R408). -/
def ImageFacts.wf (f : ImageFacts) : Bool := f.header.length == 4096 && f.trailer.length == 64

/-- What a full image configures: each region, regulator entry and tree once, a mailbox table of 64 owners (R351, R412). -/
def FullBody.wf (b : FullBody) : Bool :=
  distinct (b.regions.map (·.1)) && distinct (b.regulators.map (·.1)) && distinct (b.trees.map (·.1)) && b.absorb.all (·.wf) && b.regions.all (fun e => e.2.wf && e.2.words.all fun w => w.2.within e.1) &&
    (match b.owners with
      | some t => t.length == 64 && (List.range 64).all fun m => mayOwn m (t.getD m 0).toNat
      | none => true)

/-- How a slice ends: at most 40 ms a run (R515, R517), and a confirmed failure names a place (R520). -/
def SliceEnd.wf (x : SliceEnd) (ms : Nat) : Bool :=
  match x with
  | .pass => decide (ms ≤ 40)
  | .transient => decide (ms ≤ 80)
  | .confirmed kind _ _ signature expected => decide (ms ≤ 120) && kind != 0 && signature != expected

end Sys2Proof.Machine

namespace Sys2Proof
open Machine

/-- A command is well formed. -/
def Instr.wf : Instr → Bool
  | .registerWrite _ _ _ _ => true
  | .wideValueLowRead _ _ => true
  | .regionControlAccess _ _ _ => true
  | .tokenCapture site _ _ => site.wf
  | .memCellRead _ _ _ => true
  | .memCellWrite _ _ _ _ => true
  | .memCellSwap _ _ _ _ => true
  | .arbiterRequest _ _ _ => true
  | .arbiterRelease _ _ => true
  | .wakeStrobe _ => true
  | .monitorWindowEnd _ counts => distinct (counts.map (·.monitor)) && counts.all (·.wf)
  | .strobeTapPulse _ _ _ => true
  | .userClockLoss _ => true
  | .userClockReturn _ => true
  | .bmRead _ _ _ w _ => w.toNat % 4 == 0
  | .bmWrite _ _ _ w _ _ => w.toNat % 4 == 1
  | .bmSwap _ _ _ w _ _ _ => w.toNat % 4 == 2
  | .bmWriteAck _ _ _ w _ _ => w.toNat % 4 == 3
  | .agentRead _ _ h => WordToken.tag h == 0
  | .agentReadOwn _ _ h => WordToken.tag h == 1
  | .agentWrite _ _ h _ _ => WordToken.tag h == 2
  | .agentWriteNa _ _ h _ _ => WordToken.tag h == 3
  | .agentReadNa _ _ h => WordToken.tag h == 4
  | .agentFlush _ _ h => WordToken.tag h == 5
  | .agentStream _ _ h _ _ => WordToken.tag h == 6
  | .agentFence _ _ h => WordToken.tag h == 7
  | .agentReservedOp _ _ h => decide (8 ≤ WordToken.tag h)
  | .domainStopped _ => true
  | .domainRunning _ => true
  | .freezeRequest _ _ => true
  | .freezeTimeout _ _ => true
  | .crossingResetAssert _ _ => true
  | .crossingResetSeen _ _ _ => true
  | .crossingResetRelease _ _ => true
  | .crossingResyncSeen _ => true
  | .crossingResyncAck _ => true
  | .devXdropRead _ _ => true
  | .encoderEdge _ _ _ _ _ => true
  | .openFault _ _ => true
  | .faultClear _ => true
  | .deadReckoningEnd _ => true
  | .velocityTimeout _ => true
  | .positionWrap _ _ => true
  | .zEdge _ _ => true
  | .zOpen _ => true
  | .beaconReceived _ _ _ _ _ => true
  | .beaconTimeout _ => true
  | .strobeCrossing _ _ _ => true
  | .posAxStart _ _ => true
  | .posAxStop _ _ => true
  | .posAxRecover _ _ => true
  | .axisCtlWrite _ _ _ => true
  | .vspeedWrite _ _ _ => true
  | .posSnap _ => true
  | .axisPosRead _ _ => true
  | .posAxErrcntRead _ _ => true
  | .posStrbStatRead _ _ => true
  | .sorterInsert _ _ _ => true
  | .fabricSorterInsert _ _ => true
  | .sorterRangeDrop _ => true
  | .sorterEntryDue _ _ => true
  | .sorterRelease _ _ => true
  | .gateSpaceOpens _ _ => true
  | .sorterPop _ _ => true
  | .sorterPeek _ _ => true
  | .sorterFlush _ _ => true
  | .sorterCtlWrite _ _ _ => true
  | .srtErrRead _ _ => true
  | .placementHandover _ => true
  | .placementCommit _ _ => true
  | .edgePlaced _ => true
  | .pulseReturnEdge _ => true
  | .placementCellEnable _ _ => true
  | .placementCellDisable _ _ => true
  | .pinPlcCntRead _ _ => true
  | .intrinsicDelayMeasure _ _ => true
  | .pinCalLoad _ _ => true
  | .pinCalPinDone _ => true
  | .gpioWrite _ _ _ => true
  | .gpioMaskedWrite _ _ _ _ => true
  | .bankRangeWrite _ _ _ => true
  | .bankRangeSwitch _ => true
  | .bankRangeMismatch _ => true
  | .pinLockArm _ _ => true
  | .pinLockSet _ _ => true
  | .bankSupplyRise _ _ => true
  | .pwmPeriodStart _ => true
  | .channelCreate letter => letter.wf 0x0501
  | .channelBind letter => letter.wf 0x0502
  | .channelUnbind letter => letter.wf 0x0503
  | .channelRebind letter => letter.wf 0x0504
  | .channelStart letter _ => letter.wf 0x0505
  | .channelHold letter => letter.wf 0x0506
  | .channelResume letter => letter.wf 0x0507
  | .channelDrain letter => letter.wf 0x0508
  | .channelAbort letter => letter.wf 0x0509
  | .channelQuery letter => letter.wf 0x050A
  | .channelSetMode letter => letter.wf 0x050B
  | .productBegin _ _ => true
  | .productLetterBudget => true
  | .drainComplete _ => true
  | .abortComplete _ => true
  | .switchComplete _ => true
  | .bindingCheck _ => true
  | .underrunReport _ => true
  | .linkDownTimeout _ => true
  | .volumeOfflineInhibit _ => true
  | .vizonLine _ _ _ => true
  | .productInspected _ => true
  | .verdict letter => letter.wf 0x0522
  | .verdictDeadline _ => true
  | .mapGenerationComplete _ => true
  | .stitchCheck _ _ _ _ _ _ _ => true
  | .stitchCheckMissing _ => true
  | .triggerEdge _ _ _ _ => true
  | .ringJoinWrite _ _ _ => true
  | .bypassClose _ => true
  | .bypassOpen _ => true
  | .rollCallSend _ => true
  | .rollCallReceived _ _ hop _ _ _ _ _ => decide (hop.count ≤ 32)
  | .memberUnreachable _ _ => true
  | .ringStateEvaluate _ => true
  | .ringStop letter => letter.wf 0x0D03
  | .ringStopRegister _ _ => true
  | .ringReleaseStop letter => letter.wf 0x0D04
  | .ringReleaseReceived _ x => decide (x.hop ≤ 32)
  | .leaseSeriesDefine letter => letter.wf 0x0901
  | .leaseSeriesOpen letter => letter.wf 0x0902
  | .leaseRequest letter => letter.wf 0x0903
  | .leaseProposalReceived _ _ _ _ => true
  | .leaseAckReceived _ _ _ _ _ _ => true
  | .leaseProposalTimeout _ _ => true
  | .leaseRetry _ _ => true
  | .leaseAutoRetry _ _ => true
  | .leaseRetire letter => letter.wf 0x0904
  | .leaseQuery letter => letter.wf 0x0905
  | .auditFlush _ => true
  | .reconcile _ _ _ _ => true
  | .ringConfig letter => letter.wf 0x0D01
  | .ringConfigTimeout _ => true
  | .ringQuery letter => letter.wf 0x0D02
  | .octetEnable _ _ _ => true
  | .octetPllLock _ lost => decide (lost.length ≤ 8)
  | .octetDisable _ _ _ lost => decide (lost.length ≤ 8)
  | .octetPllLoss _ => true
  | .laneRateWrite _ _ _ => true
  | .laneTxeqWrite _ _ _ => true
  | .adaptDone _ _ _ => true
  | .losAssert _ _ => true
  | .losClear _ => true
  | .laneLock _ => true
  | .laneLol _ => true
  | .laneReset _ _ _ => true
  | .laneEnWrite _ _ _ _ => true
  | .laneCntRead _ _ => true
  | .laneErrcntRead _ _ => true
  | .octetProtoWrite _ _ _ => true
  | .pciePerstAssert lost => decide (lost.length ≤ 16)
  | .pciePerstRelease => true
  | .hotReset => true
  | .functionLevelReset _ => true
  | .drivePresent _ => true
  | .rpPerstRelease _ => true
  | .rpLinkUp _ _ _ _ => true
  | .rpContainment _ _ => true
  | .ethFrameReceived _ _ _ _ => true
  | .ethTxwrWrite _ _ _ _ => true
  | .ethSlotSent _ _ => true
  | .laneEthCntRead _ _ => true
  | .linkEnable _ _ _ => true
  | .linkDisable _ _ _ _ => true
  | .frameDecoded _ _ types => types.length == 16
  | .flitReceived _ _ => true
  | .markerReceived _ _ _ _ _ => true
  | .flowSend _ => true
  | .expressStop _ _ => true
  | .expressGo _ _ => true
  | .expressFlow _ _ _ _ => true
  | .expressAck _ _ => true
  | .expressNak _ _ => true
  | .expressTiming _ _ => true
  | .expressTimingReply _ _ _ _ _ => true
  | .expressRingStop _ _ _ _ _ => true
  | .expressRetrainReq _ => true
  | .expressWidthReq _ _ _ _ => true
  | .expressWidthAck _ _ => true
  | .expressLeave _ _ => true
  | .ackSend _ => true
  | .nakRepeat _ => true
  | .fireLineDeadline _ _ => true
  | .beaconSend _ _ => true
  | .timingSend _ => true
  | .timingTimeout _ => true
  | .trainingFrameReceived _ _ _ _ _ => true
  | .equalizeDone _ _ => true
  | .alignDone _ _ _ => true
  | .capabilityReceived _ _ _ => true
  | .linkStateTimeout _ _ => true
  | .lnkCmdRetrain _ _ => true
  | .lnkCmdWidth _ _ _ => true
  | .widthReqResend _ => true
  | .widthLanesAdded _ _ => true
  | .widthSwitchMarker _ => true
  | .laneFailure _ _ => true
  | .linkSilenceTimeout _ => true
  | .backoffExpired _ => true
  | .activeHeld _ => true
  | .lnkCntRead _ _ _ => true
  | .homeRdShared _ _ _ => true
  | .homeRdOwn _ _ _ => true
  | .homeRdCur _ _ _ => true
  | .homeWrPtl _ _ _ => true
  | .homeWbDirty _ _ _ _ => true
  | .homeEvictClean _ _ => true
  | .homeRspI _ _ => true
  | .homeRspS _ _ => true
  | .homeRspData _ _ => true
  | .homeRspWbPending _ _ => true
  | .homeCmpAck _ _ => true
  | .agentSnpInv _ _ _ => true
  | .agentSnpShare _ _ _ => true
  | .agentSnpCur _ _ _ => true
  | .agentDataS _ _ _ => true
  | .agentDataE _ _ _ => true
  | .agentCmp _ _ => true
  | .agentWbAck _ _ => true
  | .patrolRead _ _ => true
  | .stackTempSample _ _ => true
  | .stackResyncRequest _ _ => true
  | .stackResyncDone _ => true
  | .stackFillDone _ => true
  | .memStkEcntRead _ _ => true
  | .memHomeCntRead _ _ => true
  | .granuleSeal _ _ => true
  | .granuleUnseal _ _ => true
  | .conversionComplete => true
  | .commitStart _ => true
  | .commitFlushDone _ _ => true
  | .commitDone _ => true
  | .storeBlockRead _ _ _ => true
  | .sealStoreCntRead _ => true
  | .sealLineCntRead _ _ => true
  | .mailboxDoorbell _ _ _ => true
  | .replyHeadWrite _ _ _ => true
  | .mailboxSignal _ => true
  | .ringPeerLetter owner _ bytes => isPeerOwner owner.toNat && decide (bytes.length ≤ 4096)
  | .mailboxReset _ _ => true
  | .postroomRestart _ => true
  | .lockAcquire _ _ => true
  | .lockRelease _ _ _ => true
  | .deviceInfo letter => letter.wf 0x0101
  | .deviceMailboxAssign letter => letter.wf 0x0102
  | .deviceTimeSet letter => letter.wf 0x0103
  | .deviceTimeGet letter => letter.wf 0x0104
  | .deviceReset letter => letter.wf 0x0105
  | .deviceShutdown letter => letter.wf 0x0106
  | .powerState letter => letter.wf 0x0201
  | .powerQuery letter => letter.wf 0x0202
  | .powerMargin letter => letter.wf 0x0203
  | .powerRail letter => letter.wf 0x0204
  | .regulatorPoll answers => distinct (answers.map (·.1))
  | .regulatorAlert => true
  | .configSlots letter => letter.wf 0x0301
  | .configWrite letter => letter.wf 0x0302
  | .configWriteComplete f => f.wf
  | .configSelect letter => letter.wf 0x0303
  | .configReload letter => letter.wf 0x0304
  | .configBroadcast letter => letter.wf 0x0305
  | .regionImageOpen letter f => letter.wf 0x0401 && f.wf
  | .regionImageClose letter => letter.wf 0x0402
  | .regionLoad letter => letter.wf 0x0403
  | .regionReset letter => letter.wf 0x0404
  | .regionQuery letter => letter.wf 0x0405
  | .regionLoadComplete f body => f.wf && body.wf
  | .initRestoreDone _ f => f.wf
  | .isolationEnd _ => true
  | .channelHealthSet letter => letter.wf 0x050C
  | .channelHealthQuery letter => letter.wf 0x050D
  | .jobOpen letter _ => letter.wf 0x0601
  | .jobClose letter => letter.wf 0x0602
  | .jobQuery letter => letter.wf 0x0603
  | .spoolSlotFilled _ _ => true
  | .storeQuery letter => letter.wf 0x0701
  | .storeFormat letter => letter.wf 0x0702
  | .storeVolCreate letter => letter.wf 0x0703
  | .storeVolResize letter => letter.wf 0x070B
  | .storeVolDelete letter => letter.wf 0x0704
  | .storeVolOpen letter => letter.wf 0x0705
  | .storeVolClose letter => letter.wf 0x0706
  | .storeRead letter => letter.wf 0x0707
  | .storeWrite letter => letter.wf 0x0708
  | .storeIoComplete _ => true
  | .storeFlush letter => letter.wf 0x0709
  | .storeSetCommit letter => letter.wf 0x070A
  | .sealConvert letter => letter.wf 0x0801
  | .sealQuery letter => letter.wf 0x0802
  | .sealPool letter => letter.wf 0x0803
  | .axisSetup letter => letter.wf 0x0A01
  | .axisStart letter => letter.wf 0x0A02
  | .axisStop letter => letter.wf 0x0A03
  | .axisRecover letter => letter.wf 0x0A04
  | .axisQuery letter => letter.wf 0x0A05
  | .pinCalibrate letter => letter.wf 0x0B01
  | .pinHeaterSet letter => letter.wf 0x0B02
  | .pinHeaterQuery letter => letter.wf 0x0B03
  | .heaterPeriod _ => true
  | .heaterAlarm _ => true
  | .linkEthQueue letter => letter.wf 0x0C01
  | .linkEthSteer letter => letter.wf 0x0C02
  | .linkQuery letter => letter.wf 0x0C03
  | .testSetBudget letter => letter.wf 0x0E01
  | .testQuery letter => letter.wf 0x0E02
  | .testRun letter => letter.wf 0x0E03
  | .logRead letter => letter.wf 0x0F01
  | .logRoute letter => letter.wf 0x0F02
  | .logAuditBind letter => letter.wf 0x0F03
  | .perfClaim letter => letter.wf 0x1001
  | .perfRelease letter => letter.wf 0x1002
  | .perfUser letter => letter.wf 0x1003
  | .keyStatus letter => letter.wf 0x1101
  | .keyAuditExport letter => letter.wf 0x1102
  | .keyAuditRotate letter => letter.wf 0x1103
  | .keyProvision letter _ => letter.wf 0x1104
  | .keyLock letter => letter.wf 0x1105
  | .keyReturn letter => letter.wf 0x1106
  | .keyScrap letter => letter.wf 0x1107
  | .keyGoldenWrite letter => letter.wf 0x1108
  | .firmwareWatchdog => true
  | .imageStreamDone f body => f.wf && body.wf
  | .cfgRelease => true
  | .cfgDoneHigh outcomes => distinct (outcomes.map (·.1))
  | .doneWaitTimeout => true
  | .cfgGo _ _ => true
  | .broadcastWaitTimeout => true
  | .broadcastPollReceived _ _ => true
  | .broadcastGapTimeout => true
  | .xspiRequest _ _ _ => true
  | .nvmEraseDone _ _ => true
  | .nvmEraseResume => true
  | .cfgNvmCntRead _ => true
  | .scrubFrameRead _ => true
  | .frameRefetchDone f => f.wf
  | .cfgIsoCntRead _ _ => true
  | .cfgRgnUpsetRead _ _ => true
  | .cfgScrubCntRead _ => true
  | .regFault _ => true
  | .senseSample sense => sense.wf
  | .monitorCrossing _ _ _ => true
  | .bankSupplyLossHold _ => true
  | .ageMeasure _ _ => true
  | .thermalTrip => true
  | .wakeNLow => true
  | .wakeAlarm => true
  | .wakeAxisDistance => true
  | .wakePerst => true
  | .mainSupplyGood => true
  | .ainConversion _ _ _ => true
  | .ainStale _ => true
  | .pwrRgnLoopRead _ _ => true
  | .vaonRise => true
  | .vaonLoss => true
  | .supplyStable facts => facts.wf
  | .regulatorsUp facts => facts.wf
  | .resetNLow => true
  | .resetNHigh facts => facts.wf
  | .stackTrained _ => true
  | .devRstDevice _ _ => true
  | .devRstFabric _ _ => true
  | .deviceResetEntry facts => facts.wf
  | .fabricResetDone => true
  | .islandReset _ _ lost => distinct (lost.map (·.1))
  | .islandResetRelease _ => true
  | .rngStartupTestDone _ _ _ => true
  | .rngHealthFail _ _ => true
  | .rngReseed => true
  | .rngDataRead _ => true
  | .devRngStatRead _ => true
  | .tapInstruction _ => true
  | .tapScan => true
  | .tapDebugAccess _ => true
  | .selfTestSliceDone result ms => result.wf ms
  | .eventRaise _ => true
  | .evtUserWrite _ _ => true
  | .perfClear _ _ _ => true
  | .perfWrap _ _ => true
  | .perfCountRead _ _ => true
  | .perfSample _ => true
  | .logRecordWrite _ => true
  | .logAllowanceTick => true
  | .evtLogLostRead _ => true
  | .frankerSave _ _ _ => true
  | .frankerLoad _ _ => true
  | .frankerTrigger _ => true
  | .frankerRestore => true
  | .frankerRecoverRetry => true
  | .devFrkMissRead _ => true
  | .devFrkStatRead _ => true
  | .userClockEdge _ _ => true
  | .pinInputChange _ _ => true
  | .firmwareReady => true
  | .endpointLinkUp _ _ _ => true
  | .ethLinkChange _ _ _ _ => true
  | .headDriverStatus _ failed => distinct failed
  | .stitchPartnerMessage _ _ _ => true
  | .stitchLinkTimeout _ => true
  | .ringConfigReceived _ _ => true
  | .broadcastAnswerReceived _ _ _ => true
  | .broadcastPollTimeout => true
  | .laneRejoin _ => true
  | .driveWriteDone _ _ => true
  | .testLogicReset => true

end Sys2Proof
end

