-- ==== Sys2Proof/Machine/RegionOps.lean ====
section
/-! DEFINITION. Regions as loads and resets see them (R75, R181, R364, R440..R448): isolation, region resets, what an image configures,
wakes and the end of isolation. -/

namespace Sys2Proof.Machine

/-- The consumer's region of an isolation cell's number; 40 for a hard port. -/
def isoConsumer (k : Nat) : Nat := k / 4 / 41 % 41

/-- An isolation cell's number names a cell that absorbs. -/
def State.isoAbsorbs (s : State) (k : Nat) : Bool := k % 4 == 1 || k % 4 == 2 || (k % 4 == 0 && s.isoAbsorb.contains k)

/-- Region `n` leaves WOKEN for a state and its borders are isolated (R441): a token that an absorbing cell toward it already held is discarded and
counted (R443, R444), and pins its outputs fed show IDLE (R149). -/
def State.isolate (s : State) (n st : Nat) : State :=
  let s := (s.put .CFG_RGN_STAT_STATE n st).put .CFG_RGN_STAT_ISOLATED n 1
  let s := { s with config := { s.config with announce := s.config.announce.filter (· != n) } }
  let gone := s.isos.filter fun e => isoConsumer e.1 == n && e.2 != 0 && s.isoAbsorbs e.1
  let s := { s with isos := s.isos.filter fun e => !(isoConsumer e.1 == n && s.isoAbsorbs e.1) }
  ((s.bump .CFG_ISO_CNT_ABSORBED n gone.length).delayGates n).refreshPins

/-- The channels that bind region `n`. -/
def State.chansOnRegion (s : State) (n : Nat) : List Nat :=
  s.chanList.filter fun c => (s.chan c).bindings.any fun b => b.kind == 1 && b.low 6 == n

/-- The status registers of region `n` return to reset (R51, R80, R496). -/
def State.clearRegionStat (s : State) (n : Nat) : State :=
  s.each ((Reg.CFG_FAB_STAT.fields ++ Reg.CFG_BM_STAT.fields ++ Reg.CFG_TREE_STAT.fields).filter (fun f => f.spec.cls = .L)) fun f s => s.clr f n

/-- A region reset on T0 (R38, R75, R364, R368, R445 step 2): stages and memory cells return to their initial state, its status registers clear, its
mailboxes reset and its locks are freed with their marks, and the accesses of its control port that wait are withdrawn (R97). `zeroKeep`: KEEP memories become zero. -/
def State.resetRegion (s : State) (n : Nat) (zeroKeep : Bool) : State :=
  (((((s.withdrawRegion n).resetStages n).resetBms n false zeroKeep).clearRegionStat n).showClocks n).resetOwner (n + 1)

/-- Region `n` holds an image (R440). -/
def State.holdsImage (s : State) (n : Nat) : Bool := Tbl.find 0 s.config.sources n != 0

/-- The restore of the region's INIT contents begins (R75, R425, R440): the region is LOADING while it runs. -/
def State.beginRestore (s : State) (n : Nat) : State :=
  let s := { s with restoring := if s.restoring.contains n then s.restoring else s.restoring ++ [n] }
  (s.put .CFG_RGN_STAT_STATE n 1).suspendErases

/-- REGION.RESET, ESS_ACT or a failed refetch (R446, R454): Steps 1 and 2 of R445; bound channels are inhibited with REGION_RESET (R181); the restore
begins where the region holds an image, and `wake` asks for the wake that follows. -/
def State.regionReset (s : State) (n : Nat) (wake : Bool) : State :=
  let s := (s.isolate n (if s.holdsImage n then 2 else 0)).each (s.chansOnRegion n) fun c s => s.inhibit c 5
  let s := s.resetRegion n false
  if s.holdsImage n then
    (s.beginRestore n).setConfig fun c => { c with waking := (c.waking.filter (· != n)) ++ (if wake then [n] else []) }
  else s

/-- The output monitors of region `n` start a window, at its wake or as one ends (R49, R441); whether VSET stands at the limit is noted for it (R467). -/
def State.restartMonitors (s : State) (n : Nat) : State :=
  let cap := s.on .PWR_RGN_STAT_AT_CAP n
  let s := { s with power := { s.power with capped := s.power.capped.filter (· != n) ++ (if cap then [n] else []) } }
  s.each (s.monitors.filter (fun e => e.1 / 8 == n)) fun e s => match e.2 with
    | some m => { s with monitors := Tbl.set none s.monitors e.1 (some { m with since := s.axisPm m.axis }) }
    | none => s

/-- The region limit of VSET in force (R467, R472): CAP in AUTO mode, FIXED_V in FIXED mode, the floor in QUIET and STANDBY. -/
def State.upperLimit (s : State) (n : Nat) : Nat :=
  if s.fld .PWR_STATE_STATE 0 ≠ 0 then s.fld .PWR_RGN_STAT_FLOOR n
  else if s.on .PWR_RGN_CTL_MODE n then s.fld .PWR_RGN_CTL_FIXED_V n
  else s.fld .PWR_RGN_CTL_CAP n

/-- Puts VSET between the floor and the upper limit in force, the floor before the limit, and shows AT_CAP (R467). In FIXED mode VSET equals
FIXED_V. It never passes 0.90 V, code 200 (R42). -/
def State.setVset (s : State) (n v : Nat) : State :=
  let lim := s.upperLimit n
  let v := if s.on .PWR_RGN_CTL_MODE n then lim else min v lim
  let v := min 200 (max v (s.fld .PWR_RGN_STAT_FLOOR n))
  (s.put .PWR_RGN_STAT_VSET n v).put .PWR_RGN_STAT_AT_CAP n (b2n (v == lim))

/-- Region `n` wakes on the device's own strobe (R37, R62, R445 step 5). -/
def State.wakeRegion (s : State) (n : Nat) : State :=
  if s.wakeable n then ((s.wake n).restartMonitors n).refreshPins else s

/-- Region `n` alone is woken (R445 steps 4 and 5): the end of its isolation will be announced. -/
def State.wakeAlone (s : State) (n : Nat) : State :=
  (s.wakeRegion n).setConfig fun c => { c with announce := c.announce.filter (· != n) ++ [n] }

/-- Nothing is configured in region `n`'s cells, routes and crossing elements. -/
def State.clearNet (s : State) (n : Nat) : State :=
  let s := s.resetStages n
  { s with cells := Tbl.keep (fun k => k / 65536 != n) s.cells, words := Tbl.keep (fun k => k % 40 != n) s.words,
           elements := Tbl.keep (fun k => k % 40 != n) s.elements }

/-- What a region image configures is written (R68, R412, R424, R445 step 3): cells, routes that cross no other region's border (R60), crossing elements, block memories (a KEEP memory of a region that
held an image keeps its contents, but at a `start`, which gives every one its image contents: R75), monitors, margin
and floor, access, essence map and the user clocks it uses; its frames' CRCs are recorded; the region is HELD. `f`, `plain`: the image and its plaintext. -/
def State.applyRegion (s : State) (n source addr : Nat) (f : ImageFacts) (plain : List Byte) (b : RegionBody) (start : Bool) : State :=
  let s := s.clearNet n
  let s := s.each b.cells fun e s => s.setCell n e.1 ⟨e.2, none, none, e.2.memInit⟩
  let s := s.each (b.words.filter fun e => e.2.within (Fin.ofNat 40 n)) fun e s => { s with words := Tbl.set none s.words (hopKey n e.1) (some ⟨e.1, e.2, 0⟩) }
  let s := s.each b.elements fun e s => { s with elements := Tbl.set none s.elements (n + 40 * e.1) (some ⟨e.2, 0, 0, 0, 0⟩) }
  let old := s.bms
  let held := s.holdsImage n && !start
  let s := { s with bms := Tbl.keep (fun k => k / 192 != n) s.bms }
  let s := s.each (b.memories.map (f.memory plain n)) fun e s =>
    let rows := if e.2.keep && held then (Tbl.find BlockMem.reset old (n * 192 + e.1)).rows else e.2.image
    { s with bms := Tbl.set BlockMem.reset s.bms (n * 192 + e.1) ⟨e.2, rows, []⟩ }
  let mons := b.monitors.map fun m => (⟨m.1.val, m.2.1, m.2.2⟩ : MonitorCfg)
  let ess := f.essence plain n
  let word := (f.access plain n).getD (s.image n).access
  let outs := b.fouts.map fun (f : Fin 8 × Fin 256 × Source) => (f.1.val, f.2)
  let s := { s with images := Tbl.set RegionImg.blank s.images n ⟨b.ident.toNat, mons, b.inspects, ess, word, outs⟩ }
  let margin := match b.margin with
    | some m => m.toNat
    | none => 8
  let s := (s.put .PWR_RGN_CTL_MARGIN n margin).put .PWR_RGN_STAT_FLOOR n (min 200 (max 25 b.floor.toNat))
  let s := match f.access plain n with
    | some w => s.storeWord .DEV_RGN_ACCESS n 0 w
    | none => s
  let s := s.recordFrames n (f.frames plain n)
  let s := s.each (List.finRange 4) fun t s =>
    let uses := b.cells.any (fun e => e.2.clock == some t)
    let m := Tbl.find 0 s.uclkUse t
    { s with uclkUse := Tbl.set 0 s.uclkUse t (if uses then orBit m n else clearBit m n) }
  let s := s.setConfig fun c => { c with sources := Tbl.set 0 c.sources n (source + 1), addrs := Tbl.set 0 c.addrs n addr }
  let s := (s.put .CFG_RGN_STAT_XSPI n (b2n (source == 64))).put .CFG_RGN_STAT_STATE n 2
  (s.showClocks n).setVset n (s.fld .PWR_RGN_STAT_VSET n)

/-- Region `n` is left with no image, EMPTY (R424, R440). -/
def State.emptyRegion (s : State) (n : Nat) : State :=
  let s := s.clearNet n
  let s := { s with bms := Tbl.keep (fun k => k / 192 != n) s.bms, images := Tbl.set RegionImg.blank s.images n RegionImg.blank,
                    restoring := s.restoring.filter (· != n) }
  let s := s.each (List.range 4) fun t s => { s with uclkUse := Tbl.upd 0 s.uclkUse t fun m => clearBit m n }
  let s := (s.keepKeys (n + 1) []).setConfig fun c => { c with sources := Tbl.set 0 c.sources n 0, addrs := Tbl.set 0 c.addrs n 0, waking := c.waking.filter (· != n) }
  ((s.isolate n 0).showClocks n).put .PWR_RGN_STAT_FLOOR n 25

end Sys2Proof.Machine
end

