-- ==== Sys2Proof/Machine/SecurityOps.lean ====
section
/-! DEFINITION. Life cycle, keys, the random number generator and zeroisation (R501..R511), as starts, resets and services use them. -/

namespace Sys2Proof.Machine

/-- Sets security and self-test. -/
def State.setSecure (s : State) (g : SecurityState → SecurityState) : State := { s with secure := g s.secure }

/-! ### Life cycle (R501, R502) -/

/-- The life-cycle states by code: 0 BLANK, 1 PROVISIONED, 2 FIELD, 3 RETURN, 4 SCRAPPED. -/
def State.lifeCycle (s : State) : Nat := s.fld .DEV_LC_STATE 0

/-- Fuses blown in group `g` of the order P0, F0, R1, P1, F1, R2, P2, F2, R3, P3, F3, S. -/
def State.fuse (s : State) (g : Nat) : Nat := s.secure.fuses.getD g 0

/-- A group counts as blown when at least 5 of its 8 fuses read blown. -/
def State.blown (s : State) (g : Nat) : Bool := decide (5 ≤ s.fuse g)

/-- The life-cycle state that a blown group gives. -/
def groupState (g : Nat) : Nat := if g = 11 then 4 else g % 3 + 1

/-- The state that the fuses give: that of the last blown group, BLANK where none is. -/
def State.fusedState (s : State) : Nat := (((List.range 12).filter s.blown).getLast?.map groupState).getD 0

/-- The key cycle k: the number of R groups blown. -/
def State.keyCycle (s : State) : Nat := (([2, 5, 8] : List Nat).filter s.blown).length

/-- DEV_LC shows the fuses. -/
def State.showLifeCycle (s : State) : State := (s.put .DEV_LC_STATE 0 s.fusedState).put .DEV_LC_CYCLE 0 s.keyCycle

/-- The fuses are read at a start (R501, R502): PARTIAL, with source 242, where a group reads 1..7 blown. -/
def State.readFuses (s : State) (fuses : List Nat) : State :=
  let s := (s.setSecure fun x => { x with fuses := (List.range 12).map fun g => min 8 (fuses.getD g 0) }).showLifeCycle
  s.when ((List.range 12).any fun g => s.fuse g != 0 && s.fuse g != 8) fun s => (s.put .DEV_LC_PARTIAL 0 1).raise 242

/-- A transition blows all 8 fuses of a group (R502, R503). -/
def State.blow (s : State) (g : Nat) : State :=
  ((s.setSecure fun x => { x with fuses := (List.range 12).map fun i => if i = g then 8 else x.fuses.getD i 0 }).showLifeCycle).raise 242

/-! ### Keys (R504, R505) -/

/-- The key-encryption key: that of the key cycle in force. -/
def State.kek (s : State) : BitVec 256 := hmac (Config.fusedKey 0) (ascii [0x57, 0x52, 0x41, 0x50] ++ le 1 s.keyCycle)

/-- Puts a key in use: 0 KI, 1 KV, 2 KS, 3 KA. -/
def State.useKey (s : State) (b k : Nat) : State :=
  match b with
  | 0 => s.setSecure fun x => { x with ki := k }
  | 1 => s.setSecure fun x => { x with kv := k }
  | 2 => s.setSecure fun x => { x with ks := k }
  | _ => { s with lease := { s.lease with auditKey := k } }

/-- Sets the wrapped-key record of a key; the empty one is none. -/
def State.setRecord (s : State) (b : Nat) (r : List Byte) : State :=
  (s.setSecure fun x => { x with records := Tbl.set [] x.records b r }).putBit .DEV_SEC_STAT_KEYS 0 b (!r.isEmpty)

/-- A key is put in use, and its record is written. -/
def State.keepKey (s : State) (b : Nat) (k : BitVec 256) : State := (s.useKey b k.toNat).setRecord b (wrapKey s.kek k)

/-- A key is present. -/
def State.hasKey (s : State) (b : Nat) : Bool := bitOf (s.fld .DEV_SEC_STAT_KEYS 0) b

/-- What a wrapped-key record holds; none where both copies fail (`bad`) or it does not unwrap under the key-encryption key in force. -/
def State.unwrapped (s : State) (bad b : Nat) : Option (BitVec 256) :=
  if bitOf bad b then none else unwrapKey s.kek (Tbl.find [] s.secure.records b)

/-- The wrapped-key records are read at a start (R505): those that fail are absent, with KEYS_LOST and source 245. -/
def State.readKeys (s : State) (bad : Nat) : State :=
  let held := (List.range 4).filter fun b => !(Tbl.find [] s.secure.records b).isEmpty
  let lost := held.any fun b => (s.unwrapped bad b).isNone
  let s := s.each held fun b t => match s.unwrapped bad b with
    | some k => (t.useKey b k.toNat).putBit .DEV_SEC_STAT_KEYS 0 b true
    | none => (t.useKey b 0).setRecord b []
  s.when lost fun s => (s.put .DEV_SEC_STAT_KEYS_LOST 0 1).raise 245

/-- KS and KA are drawn from the generator (R507, R512): values that no rule fixes. -/
def State.drawKey (s : State) : State × Nat := (s.drew, s.draw % 2 ^ 256)

/-! ### The random number generator (R510, R511) -/

/-- How many entropy sources stand at a mark: 1 passed, 2 disabled. -/
def State.sources (s : State) (mark : Nat) : Nat := (s.secure.rng.filter (·.2 == mark)).length

/-- The line seal engines draw their keys, three each, once the generator is READY (R323): values that no rule fixes. -/
def State.drawSealKeys (s : State) : State :=
  if (List.range 4).all (s.on .SEAL_LINE_STAT_KEYS ·) then s
  else
    let s := (s.setSeal fun x => { x with keys := [] }).each (List.range 12) fun _ s =>
      let r := s.drawKey
      r.1.setSeal fun x => { x with keys := x.keys ++ [r.2] }
    s.each (List.range 4) fun k s => s.put .SEAL_LINE_STAT_KEYS k 1

/-- Keeps DEV_RNG_STAT true to the sources (R511): READY with 32 sources passed and the DRBG seeded, FAILED once fewer than 32 can be healthy. -/
def State.showRng (s : State) : State :=
  let was := s.fld .DEV_RNG_STAT_STATE 0
  let s := s.put .DEV_RNG_STAT_HEALTHY 0 (s.sources 1)
  if was = 2 then s
  else if (was = 0 && 64 - s.sources 2 < 32) || (was = 1 && s.sources 1 < 32) then (s.put .DEV_RNG_STAT_STATE 0 2).raise 237
  else if was = 0 && 32 ≤ s.sources 1 && s.secure.seeded then ((s.put .DEV_RNG_STAT_STATE 0 1).drawSealKeys).raise 236
  else s

/-- The generator starts its tests anew (R510, R511). -/
def State.restartRng (s : State) : State :=
  ((s.setSecure fun x => { x with rng := [], seeded := false }).put .DEV_RNG_STAT_STATE 0 0).put .DEV_RNG_STAT_HEALTHY 0 0

/-! ### Zeroisation (R509) -/

/-- Steps 1 and 2: the line seal keys, roots and granule epochs, the loader key table, the state of the DRBG, the keys in use, the mailbox memory and every
cache become zero. -/
def State.zeroiseKeys (s : State) : State :=
  let s := s.each (List.range 4) fun b s => s.useKey b 0
  let s := s.each (List.range 4) fun k s => (s.put .SEAL_LINE_STAT_KEYS k 0).put .SEAL_LINE_STAT_ROOTS k 0
  let s := s.each (List.range 256) fun g s => s.put .SEAL_GRAN_EPOCH g 0
  let s := (s.setSeal fun x => { x with roots := [], dirty := [], cache := [], keys := [] }).setSecure fun x => { x with seeded := false }
  { s with boxMem := [], config := { s.config with segKeys := [] } }.loseCaches (List.range 20)

/-- Step 3: the wrapped-key records and the root area are erased. -/
def State.eraseSecrets (s : State) : State :=
  let s := s.each (List.range 4) fun b s => (s.useKey b 0).setRecord b []
  { s with store := { s.store with roots := [], written := 0 } }

/-- The end of zeroisation. -/
def State.zeroised (s : State) : State := (s.put .DEV_SEC_STAT_ZEROISED 0 1).raise 243

end Sys2Proof.Machine
end

