-- ==== Sys2Proof/Machine/ResetOps.lean ====
section
/-! DEFINITION. What resets clear and keep (R11, R484..R487, R491, R496, R497): the entry of each device-wide reset and the steps of a fabric reset
(R492). -/

namespace Sys2Proof.Machine

/-- The resets that reach the whole device (R484, R486). -/
inductive ResetKind where
  | powerOn | pin | device | wake
  deriving DecidableEq, Repr

/-! ### Registers -/

/-- Fields whose value comes from fuses, from records of the non-volatile memory or from VBAT: no reset clears them (R496). -/
def storedFields : List Fld :=
  [.DEV_ID_GRADE, .DEV_UID_UID, .DEV_LC_STATE, .DEV_LC_CYCLE, .DEV_SEC_STAT_KEYS, .DEV_ST_STAT_NEXT, .DEV_ST_STAT_RECORD_RO, .DEV_ST_STAT_FUSE_LEFT,
   .DEV_ST_FAIL_SLICE, .DEV_ST_FAIL_KIND, .DEV_ST_FAIL_REPAIR, .DEV_ST_FAIL_RECUR, .DEV_ST_FAIL_UNIT, .DEV_ST_DEFECT_REGIONS,
   .CFG_NVM_STAT_SPARES, .CFG_NVM_STAT_RO_AREA, .DEV_FRK_CTR_COUNTER, .EVT_LOG_NEWEST_SEQ, .EVT_LOG_OLDEST_SEQ, .DEV_RTC_SECONDS,
   .DEV_RTC_STAT_VALID]

/-- Whether a reset clears a retention class (R11, R484). -/
def ResetKind.clears (k : ResetKind) (c : RClass) : Bool :=
  match c with
  | .K => k == .powerOn
  | .B => false
  | _ => true

/-- The fields that a reset keeps, by their place among all fields. -/
def ResetKind.keptIdx (k : ResetKind) : List Nat :=
  (((Reg.all.flatMap Reg.fields).filter fun f => !k.clears f.spec.cls) ++ storedFields).map (·.ctorIdx)

/-- The register file after a reset. -/
def State.keepRegs (s : State) (k : ResetKind) : Tbl Nat :=
  let kept := k.keptIdx
  Tbl.keep (fun q => kept.contains (q % 1024)) s.regs

/-! ### What outlives a reset beside the registers -/

/-- A reset loses the contents of the stacks (R312, R491). -/
def State.losesStacks (s : State) (k : ResetKind) : Bool := k == .powerOn || k == .wake || s.resets.lostStacks

/-- The lowest identifier of a lease without a recorded outcome: records not yet flushed are lost (R229, R231). -/
def State.unrecorded (s : State) (l : Lease) : Nat :=
  let id := ((s.lease.series[l.series]?).map (·.id)).getD 0
  let lost := (s.lease.staged.filter fun a => a.series == id && decide (l.first ≤ a.ident) && decide (a.ident < l.first + l.count)).map (·.ident)
  (l.drawn ++ l.returned ++ lost).foldl min l.next

/-- A lease as the journal keeps it (R229): drawing resumes at the draw mark; `drawn` holds the lowest identifier that the UNKNOWN record will cover,
where there is one. -/
def State.restartLease (s : State) (l : Lease) : Lease :=
  let low := s.unrecorded l
  { l with next := l.mark, returned := [], drawn := if low < l.mark then [low] else [] }

/-- Series, leases and audit logs after a reset (R228, R231). The next proof identifier is of class D (R230). -/
def State.restartLeases (s : State) : LeaseState :=
  let l := s.lease
  let logs := (l.staged.map (·.log)).eraseDups
  let first := fun (log : Nat) => ((l.staged.find? (·.log == log)).map (·.seq)).getD 0
  { l with
    series := l.series.map fun x => { x with proofNext := x.proofFirst }
    openSeries := [], reqs := [], staged := [], refusing := [], heardHigh := [], queued := []
    leases := l.leases.map s.restartLease
    auditSeq := logs.foldl (fun t g => Tbl.set 0 t g (first g)) l.auditSeq
    auditTag := l.flushedTag }

/-- Member tables, in force and pending, are journalled, of class K (R233, R496); a stop set is not. The sequence number of the device's own stops starts anew
at 0 with each reset: no rule gives where it starts or whether it is kept (R219; DESIGN CHOICE, assumption 70). -/
def State.restartRings (s : State) : Tbl Ring :=
  (s.rings.filter fun e => !e.2.table.isEmpty || !e.2.proposed.isEmpty).map fun e => (e.1, { Ring.reset with table := e.2.table, proposed := e.2.proposed })

/-- Volumes go offline with the links of their drives, without their uncommitted writes; a refused duplicate goes with its
drive (R343, R344, R345). -/
def State.restartStore (s : State) : StoreState :=
  { s.store with
    drives := [], opens := []
    vols := (s.store.vols.filter (·.cause != 4)).map fun v => { v.loseDirty with state := if v.state = 0 then 1 else v.state } }

/-- The non-volatile memory's slots and blocks: an erase that ran leaves the erase-incomplete marker (R435). -/
def State.restartConfig (s : State) : ConfigState :=
  { ConfigState.reset with slots := s.config.slots, selected := s.config.selected, blocks := s.config.blocks,
                           dirNew := s.config.dirNew, dirOld := s.config.dirOld }

/-- A region's configuration stands in its frames until a load writes it or its island loses power (R38, R440): its cells and block memories at their
configured state, its routes and crossing elements empty. -/
def State.heldFabric (t s : State) : State :=
  let t := { t with cells := s.cells, words := s.words, elements := s.elements, bms := s.bms, isoAbsorb := s.isoAbsorb, uclkUse := s.uclkUse,
                    trees := s.trees, images := s.images
                    config := { t.config with sources := s.config.sources, addrs := s.config.addrs } }
  let t := t.each (List.range 40) fun n t => t.resetStages n
  t.each t.bms fun e t => { t with bms := Tbl.set BlockMem.reset t.bms e.1 { e.2 with rows := e.2.cfg.image, held := [] } }

/-- The logbook and what the always-on logic records of its queue (R541). -/
def State.restartEvents (s : State) (k : ResetKind) : EventState :=
  { tokens := [], routes := [], queue := [], lost := none, firmware := [], book := s.evt.book, nextSeq := s.evt.nextSeq, erasing := s.evt.erasing,
    queueAtReset := if k = .powerOn then none else some (s.evt.queue.length + (if k = .wake then s.evt.queueAtReset.getD 0 else 0)), claims := [] }

/-- Handles (R161, R162): seeded anew at power-on, else every object is destroyed and every generation advances. -/
def State.restartServices (s : State) (k : ResetKind) : State :=
  if k = .powerOn then { s with svc := ⟨s.draw, [], [], [], [], [], false, []⟩ }.drew
  else
    let s := s.destroyAll
    { s with svc := { s.svc with ops := [], shutdown := false, stalled := [] } }

/-- The state after a reset, but for its outputs and steps: State.reset, with what the reset keeps. -/
def State.cleared (s0 : State) (k : ResetKind) : State :=
  let s := s0.restartServices k
  let lost := s.losesStacks k
  let boot := k == .powerOn || k == .wake
  { State.reset with
    regs := s.keepRegs k
    encLevel := Tbl.keep (fun n => !bitOf s.encOpen n) s.encLevel
    evt := s.restartEvents k
    svc := s.svc
    pins := { PinState.reset with extern := s.pins.extern, shown := s.pins.shown, vio := s.pins.vio, intrinsic := s.pins.intrinsic }
    rings := s.restartRings
    lease := s.restartLeases
    memo := { State.reset.memo with bytes := if lost then [] else s.memo.bytes }
    seals := if lost then State.reset.seals else { s.seals with pool := 0, dirty := [], cache := [] }
    store := s.restartStore
    ports := { State.reset.ports with held := s.ports.held }
    config := s.restartConfig
    power := { PowerState.reset with recorded := s.power.recorded }
    resets := { s.resets with fabric := false, lostStacks := lost }
    secure := { s.secure with scan := false, run := none, rng := if boot then [] else s.secure.rng, seeded := !boot && s.secure.seeded }
    franker := { FrankerState.reset with saved := s.franker.saved, mark := s.franker.mark, clean := s.franker.clean, base := s.franker.base }
    out := s.out
    free := s.free
    clock := s.clock
    pending := s.pending }

/-- The stacks' contents are lost: every granule becomes PLAIN with its epoch 0, with LOST where it was SEALED, for which source 160 is raised; roots are 0, and the
line seal engines draw new keys once they can (R323, R334, R347, R491). -/
def State.freshGranules (s : State) (markLost : Bool) : State :=
  let gs := s.sealedGranules
  let s := s.each (List.range 256) fun g s => ((s.put .SEAL_GRAN_STATE g 0).put .SEAL_GRAN_EPOCH g 0).put .SEAL_GRAN_LOST g 0
  let s := s.when markLost (·.each gs fun g s => s.put .SEAL_GRAN_LOST g 1)
  let s := s.each (List.range 4) fun k s => (s.put .SEAL_LINE_STAT_ROOTS k 0).put .SEAL_LINE_STAT_KEYS k 0
  (s.when (markLost && !gs.isEmpty) (·.raise 160)).when s.rngReady (·.drawSealKeys)

/-- The generator's sources as DEV_RNG_STAT shows them through a pin or device reset (R511). -/
def State.keepRng (s was : State) : State :=
  (s.put .DEV_RNG_STAT_STATE 0 (was.fld .DEV_RNG_STAT_STATE 0)).put .DEV_RNG_STAT_HEALTHY 0 (was.fld .DEV_RNG_STAT_HEALTHY 0)

/-- The monitor points go on showing which rails are outside their window (R462). -/
def State.keepMonitors (s was : State) : State :=
  s.each (List.range 32) fun i s => (s.put .PWR_MON_UV i (was.fld .PWR_MON_UV i)).put .PWR_MON_OV i (was.fld .PWR_MON_OV i)

/-- Entry to a device-wide reset (R489 step 1, R491 step 1, R498): what it clears is cleared, CFG_DONE is driven low, the stacks are in self-refresh,
regions that held an image are HELD (R440), and the flash is reset (R427). -/
def State.enterReset (s0 : State) (k : ResetKind) (cause : Nat) : State :=
  let s := s0.cleared k
  let s := { s with resets := { s.resets with cause := cause, rebuild := decide (k = ResetKind.pin) || s.resets.rebuild } }
  let s := match k with
    | .powerOn | .wake => (s.restartRng).put .PERF_TB_TB 0 0
    | _ => (s.keepRng s0).each (List.range 4) fun j s => s.put .MEM_STK_STAT_SELF_REFRESH j 1
  let s := s.when (s0.losesStacks k) (·.freshGranules (k == .pin))
  let s := s.when (k != .powerOn) fun s => (s.keepMonitors s0).bump .DEV_RST_CAUSE_COUNT 0 1
  let s := s.when (k == .pin || k == .device) fun s =>
    (s.heldFabric s0).each ((List.range 40).filter s0.holdsImage) fun n s => (s.put .CFG_RGN_STAT_STATE n 2).showClocks n
  let s := (s.emit (.cfgDone true)).when (k == .pin || k == .device) (·.emit .flashReset)
  s.showWear.refreshPins

/-! ### The fabric reset (R492) -/

/-- The start of the product after `p`, where it is known. -/
def Channel.startAfter (x : Channel) (p : Product) : Option Nat :=
  match x.products.find? (fun q => q.index == p.index + 1) with
  | some q => some q.start
  | none => if !p.has mTriggered then p.stop else if p.index + 1 == x.nextIdx then x.trigs.head?.map (·.1) else none

/-- Events of channel `c` lost from sorter `n` where the device cannot know their postmarks (R176): they are counted, and FIRST_DROPPED and LAST_DROPPED
bound them by product. The start of a product that is not known yet is a free value (assumption 3). -/
def State.boundEvents (s : State) (c n : Nat) (pms : List Nat) : State :=
  s.each pms fun pm s =>
    let x := s.chan c
    match x.ownerOf (x.rejectsOn n) pm with
    | none => s.dropEvents c [pm]
    | some p =>
      let r := match x.startAfter p with
        | some e => (s, e)
        | none => (s.drew, s.draw % 2 ^ 64)
      r.1.setChan c { (x.drop p.start).drop r.2 with dropped := x.dropped + 1 }

/-- Empties sorter `n` until nothing waits to enter it either, counting its channel's loss; FLUSH_CNT holds all that was lost, `lost` so far. -/
def State.emptyInto : Nat → State → Nat → Nat → State
  | 0, s, n, lost => s.put .SRT_FLUSH_CNT_COUNT n lost
  | k + 1, s, n, lost =>
    if (s.srt n).entries.isEmpty then s.put .SRT_FLUSH_CNT_COUNT n lost
    else
      let r := s.flushSorter n
      let s := match r.1.chanOfSorter n with
        | some c => r.1.boundEvents c n r.2
        | none => r.1
      (s.srtSpace n).emptyInto k n (lost + r.2.length)

/-- A sorter is emptied, with the entries of a STREAM that waited to enter it, and its channel's loss is counted as a FLUSH (R176, R492 step 3). -/
def State.emptySorter (s : State) (n : Nat) : State :=
  let s := s.emptyInto ((s.srt n).streams.length + 1) n 0
  s.setSrt n { s.srt n with streams := [] }

/-- Steps 1 to 3 of a fabric reset: channels that bind a region are inhibited with FABRIC_RESET, the agents write back, every region leaves WOKEN and
is reset, sorters are emptied, and the clockless ends of the crossing queues are reset. -/
def State.fabricReset (s : State) : State :=
  let cs := s.chanList.filter fun c => !(s.chan c).regions.isEmpty
  let s := s.each cs fun c s => s.inhibit c 4
  let s := (s.writeBackCaches (List.range 16)).flushMeta
  let s := s.each (List.range 40) fun n s => (s.isolate n (if s.holdsImage n then 2 else 0)).resetRegion n true
  let s := s.each (List.range 64) fun n s => s.emptySorter n
  let s := { s with gates := [], insWords := [], shadows := Tbl.keep (fun k => k / 256 % 256 != Reg.SRT_HEAD.ctorIdx) s.shadows }
  let s := s.each (List.range 40) fun n s => s.storeWord .DEV_RGN_ACCESS n 0 (s.image n).access
  let s := s.each [.CFG_AGT_STAT_POISON, .CFG_AGT_STAT_INTEG, .CFG_AGT_STAT_REFUSED] fun f s => s.each (List.range 16) fun a s => s.clr f a
  let s := s.each (List.range 25) fun d s => (s.crossAssert d false).crossRelease d false
  { s with resets := { s.resets with fabric := true } }

/-- Step 4 of a fabric reset without a load: the INIT contents of every region that holds an image are restored, and those regions will be woken at its
end (R425, R492). -/
def State.restoreAll (s : State) : State :=
  let l := (List.range 40).filter s.holdsImage
  (s.each l fun n s => s.beginRestore n).setConfig fun c => { c with waking := l }

end Sys2Proof.Machine
end

