-- ==== Sys2Proof/Machine/ConfigOps.lean ====
section
/-! DEFINITION. Loads of the device (chapter 16): CFG_DONE, full loads and their fallback, the firmware's copies, the start of the Franker where no
image is in force, and the region loads that wait for a full load. -/

namespace Sys2Proof.Machine

/-! ### CFG_DONE and the start -/

/-- The device stops driving CFG_DONE, or drives it low, when the line is low (R420). -/
def State.driveDone (s : State) (low : Bool) : State :=
  if s.on .CFG_STAT_RELEASED 0 == !low then s
  else ((s.put .CFG_STAT_RELEASED 0 (b2n (!low))).when low (·.put .CFG_STAT_LINE 0 0)).emit (.cfgDone low) |>.startTimer .release 0

/-- A start is in progress: it ends in user operation or with the Franker ready (R500). -/
def State.starting (s : State) : Bool := s.resets.facts.isSome

/-- PHASE takes a value, and every conflict follows its column at once (R150). -/
def State.enterPhase (s : State) (ph : Nat) : State := (s.setPhase ph).refreshPins

/-- User operation or the Franker ready (R417, R439, R473, R500): PHASE becomes SERVICE, source 220 is raised, and a start in progress ends in
ACTIVE. -/
def State.enterService (s : State) : State :=
  let s := (s.enterPhase 1).raise 220
  if s.starting then
    let s := { s with resets := { s.resets with facts := none } }
    (s.raise 0).raise 12
  else s

/-! ### Region loads (R424, R426, R445) -/

/-- A full load runs: one that a region load does not hold up (R426). -/
def State.fullRuns (s : State) : Bool := s.config.load.isSome && !s.config.regionLoads.any (·.started)

/-- Steps 1 and 2 of R445 of the first load that waits. Loads run one after another, none beside a full load, and each once a restore of its region
has ended. -/
def State.nextRegionLoad (s : State) : State :=
  match s.config.regionLoads with
  | [] => s
  | l :: rest =>
    if l.started || s.config.load.isSome || s.restoring.contains l.region || s.config.refetch.any (·.region == l.region) then s
    else
      let s := (s.isolate l.region 1).resetRegion l.region false
      let s := s.when (l.source != 64) (·.suspendErases)
      s.setConfig fun c => { c with regionLoads := { l with started := true } :: rest }

/-- A request of R429 has ended (R429): its outcome, the cause of R414, and source 223. -/
def State.endXreq (s : State) (q : Nat) (cause : Nat) : State :=
  let s := (s.put .CFG_XSTAT_RESULT q (if cause = 0 then 1 else 3)).put .CFG_XSTAT_CAUSE q cause
  (s.when (cause == 0) (·.addMod .CFG_XSTAT_COUNT q 1)).raiseOf 223 .CFG_XSTAT q

/-- The region loads that wait are cancelled by a full load: CANCELLED, or FAILED with cause 0x01 (R426). -/
def State.cancelRegionLoads (s : State) : State :=
  let gone := s.config.regionLoads.filter fun l => !l.started
  let s := s.setConfig fun c => { c with regionLoads := c.regionLoads.filter (·.started) }
  s.each gone fun l s => match l.xreq with
    | some q => s.endXreq q 1
    | none => s.completeOn 0x0403 l.region .CANCELLED []

/-! ### Full loads (R417, R418, R423) -/

/-- The loader begins to stream a full image (R417 step 3, R420, R440), and what was in force leaves it with its segment keys (R411): `asked` is what the load was for, `slot` what is streamed. -/
def State.stream (s : State) (asked slot : Nat) (reload : Bool) : State :=
  let s := ((s.put .CFG_STAT_STATE 0 0).put .CFG_STAT_HOST_WAIT 0 0).put .CFG_STAT_BCAST_WAIT 0 0
  let s := ((s.put .CFG_SRC_SLOT 0 0xFF).put .CFG_SRC_BCAST 0 0).put .CFG_DESIGN_ID 0 0
  let s := { s with restoring := [], config := { s.config with segKeys := [] } }.driveDone true
  let s := s.each (List.range 40) fun n s => (s.put .CFG_RGN_STAT_STATE n 1).put .CFG_RGN_STAT_ISOLATED n 1
  (s.setConfig fun c => { c with load := some ⟨asked, reload, slot, false⟩, waking := [], refetch := none }).suspendErases

/-- A full load begins: one asked for by CONFIG.RELOAD, a broadcast or a reload of the image in force ends the Franker (R554) and follows a fabric
reset (R423, R431, R453). -/
def State.runLoad (s : State) (l : FullLoad) : State :=
  if l.reload then ((s.stopFranker).fabricReset).stream l.asked l.slot true else (s.stopFranker).stream l.asked l.slot false

/-- A full load is asked for: region loads that wait are cancelled, and one that runs ends first (R426). -/
def State.askLoad (s : State) (slot : Nat) (reload : Bool) : State :=
  let s := s.cancelRegionLoads
  if s.config.regionLoads.isEmpty then s.runLoad ⟨slot, reload, slot, false⟩
  else s.setConfig fun c => { c with load := some ⟨slot, reload, slot, false⟩ }

/-- Every region is left with no image (R424, R440). -/
def State.emptyAll (s : State) : State :=
  let s := s.each (List.range 40) fun n s => s.emptyRegion n
  s.setConfig fun c => { c with owners := none, overridden := 0 }

/-- The Franker becomes ready (R418, R489, R544): it starts, CFG_DONE is released, and CONFIG.RELOAD, where one asked for the load, completes with
INTEGRITY (R423). -/
def State.frankerService (s : State) : State :=
  let s := (s.startFranker.driveDone false).enterService
  (s.completeOn 0x0304 0 .INTEGRITY [0xFF, 0, 0, 0]).nextRegionLoad

/-- A fabric reset has ended (R492 step 5, R500): source 1, and DEVICE.RESET with KIND 1 completes (R381). -/
def State.endFabric (s : State) : State :=
  if s.resets.fabric then (({ s with resets := { s.resets with fabric := false } }).raise 1).completeAll 0x0105 0 .OK [] else s

/-- No image is loaded (R406, R416, R418): the Franker starts once the firmware is READY. -/
def State.noImage (s : State) : State :=
  let s := (s.setConfig fun c => { c with load := none }).emptyAll
  let s := s.endFabric
  s.when (s.on .PST_FW_STAT_READY 0) (·.frankerService)

/-- FALLBACK at a failure (R414, R418): CFG_FAIL names the first, and source 221 is raised as FALLBACK is set. -/
def State.setFallback (s : State) (slot : Nat) (x : Nat × Nat) : State := ((s.recordFail slot x).put .CFG_STAT_FALLBACK 0 1).raise 221

/-- A full load fails (R418): the golden slot follows, with PHASE RECOVERY; a golden image that fails records nothing further, and no image
follows. -/
def State.loadFailed (s : State) (l : FullLoad) (x : Nat × Nat) : State :=
  if l.slot = 0 && l.asked != 0 then s.noImage
  else
    let s := s.setFallback l.slot x
    let s := s.when (l.slot == 0xFE) (·.raise 225)
    if l.slot = 0 then s.noImage else (s.enterPhase 3).stream l.asked 0 l.reload

/-! ### How region loads, restores and refetches end (R424, R425, R453) -/

/-- How CFG_FAIL names a source: its slot, or 0xFD for the flash. -/
def slotCode (source : Nat) : Nat := if source = 64 then 0xFD else source

/-- A region reset that was asked for, with or without the wake that follows; REGION.RESET completes at once in a region without an image (R446). -/
def State.askRegionReset (s : State) (n : Nat) (wake : Bool) : State :=
  let s := s.regionReset n wake
  if s.restoring.contains n then s else s.completeAll 0x0404 n .OK []

/-- The region load at the head has ended under a cause of R414 (0: the image asked for is in force). Region resets that waited follow, then what
waits (R426). -/
def State.endRegionLoad (s : State) (l : RegionLoad) (cause : Nat) : State :=
  let n := l.region
  let s := s.setConfig fun c => { c with regionLoads := c.regionLoads.drop 1 }
  let s := s.when (cause != 0) (·.raise 221)
  let s := match l.xreq with
    | some q => s.endXreq q cause
    | none => s.completeOn 0x0403 n (if cause = 0 then .OK else .INTEGRITY) []
  let mine := s.config.regionResets.filter (·.1 == n)
  let s := s.setConfig fun c => { c with regionResets := c.regionResets.filter (·.1 != n) }
  let s := s.when (!mine.isEmpty) (·.askRegionReset n (mine.any (·.2)))
  match s.config.load with
  | some f => s.runLoad f
  | none => s.nextRegionLoad

/-- The region load at the head fails (R424): the image that the region held before is reloaded from its own source; with none, or where that reload
fails too, the region is left EMPTY; an image that came by broadcast has no source to be read from again. -/
def State.regionLoadFails (s : State) (l : RegionLoad) (x : Nat × Nat) : State :=
  let s := s.recordFail (slotCode l.source) x
  let held := Tbl.find 0 s.config.sources l.region
  if l.again || held = 0 || 65 < held then (s.emptyRegion l.region).endRegionLoad l x.1
  else
    let s := match l.xreq with
      | some q => s.put .CFG_XSTAT_CAUSE q x.1
      | none => s
    s.setConfig fun c => { c with regionLoads :=
      { l with source := held - 1, addr := Tbl.find 0 c.addrs l.region, again := true } :: c.regionLoads.drop 1 }

/-- A refetch fails (R453): a region is reset and left HELD, with cause 0x07 in CFG_FAIL; for a GLOBAL frame the full image in force is reloaded
(one that came by broadcast has no source, so that the golden slot follows). -/
def State.refetchFails (s : State) (r : Refetch) : State :=
  let s := (s.setConfig fun c => { c with refetch := none }).raise 235
  if r.region < 40 then
    (s.recordFail (slotCode (Tbl.find 0 s.config.sources r.region - 1)) (7, 0)).regionReset r.region false
  else if s.on .CFG_SRC_BCAST 0 then ((((s.stopFranker).fabricReset).setFallback 0xFE (1, 0)).enterPhase 3).stream 0xFE 0 true
  else s.askLoad (s.fld .CFG_SRC_SLOT 0) true

/-- A fabric reset without a load (R382, R492, R499): shallower sequences stop without their letters (R487), a region whose load ran is EMPTY, a load of
a start begins again (R419), and otherwise the INIT contents are restored. -/
def State.plainFabric (s : State) : State :=
  let partly := (s.config.regionLoads.filter (·.started)).map (·.region)
  let s := { s with svc := { s.svc with ops := s.svc.ops.filter fun o => o.letter.opcode.toNat != 0x0403 && o.letter.opcode.toNat != 0x0404 } }
  let s := s.setConfig fun c => { c with regionLoads := [], regionResets := [], waking := [], refetch := none }
  let s := (s.each partly fun n s => s.emptyRegion n).when s.frankerRuns (·.flushMessages fun _ => true)
  match s.config.load with
  | some l => (s.fabricReset).stream l.asked l.slot l.reload
  | none => (s.fabricReset).restoreAll

/-! ### The firmware (R416) -/

/-- Sets READY, COPY and RECOVERY; a change of any raises source 204 (R349). -/
def State.setFirmware (s : State) (ready copy recovery : Nat) : State :=
  let same := s.fld .PST_FW_STAT_READY 0 == ready && s.fld .PST_FW_STAT_COPY 0 == copy && s.fld .PST_FW_STAT_RECOVERY 0 == recovery
  let s := ((s.put .PST_FW_STAT_READY 0 ready).put .PST_FW_STAT_COPY 0 copy).put .PST_FW_STAT_RECOVERY 0 recovery
  s.when (!same) (·.raise 204)

/-- The firmware copies in the order in which a start tries them (R416): the VALID copy with the higher VERSION first, slot 3 where they are equal. -/
def State.firmwareOrder (s : State) : List Nat :=
  let a := s.slot 3
  let b := s.slot 4
  if b.valid && (!a.valid || decide (a.version < b.version)) then [4, 3] else [3, 4]

/-- The cause of R414 that a firmware copy fails under, 0 for none: cause 0x01 is not checked where no directory copy passes (R406). -/
def State.copyCause (s : State) (f : StartFacts) (n : Nat) : Nat :=
  if f.directory != .none && !(s.slot n).valid then 1 else if n = 3 then f.copyA.toNat else f.copyB.toNat

/-- The cores start a copy; `recovery` where it is not the preferred one (R416). -/
def State.startCopy (s : State) (n : Nat) (recovery : Bool) : State :=
  let s := (s.setFirmware 0 (b2n (n == 4)) (b2n recovery)).put .PST_FW_STAT_CORES 0 0xF |>.startTimer .cores 0
  let s := s.setConfig fun c => { c with tried := c.tried ++ [n] }
  s.when recovery (·.enterPhase 3)

/-- The copies left are checked in turn and the first that passes is started (R416); with none the device loads no image. -/
def State.tryCopies (s : State) (f : StartFacts) : List Nat → State
  | [] => ((s.put .PST_FW_STAT_CORES 0 0).setConfig fun c => { c with load := none }).emptyAll
  | n :: rest =>
    let cause := s.copyCause f n
    if cause = 0 then s.startCopy n (!s.config.tried.isEmpty)
    else ((s.setFallback n (cause, 0)).setConfig fun c => { c with tried := c.tried ++ [n] }).tryCopies f rest

/-- The watchdog of R416: READY was not set within 100 ms. D22 takes an island reset, and the other copy follows, where it has not been tried. -/
def State.watchdog (s : State) (f : StartFacts) : State :=
  let n := if s.on .PST_FW_STAT_COPY 0 then 4 else 3
  let s := (s.setFallback n (13, 0)).bump .PST_FW_STAT_RESTARTS 0 1
  let s := (s.crossAssert 22 true).crossRelease 22 true
  s.tryCopies f (s.firmwareOrder.filter fun k => !s.config.tried.contains k)

/-- The cores run a copy that has not set READY. -/
def State.coresWait (s : State) : Bool := s.on .PST_FW_STAT_CORES 0 && !s.on .PST_FW_STAT_READY 0

/-! ### Broadcasts (R430, R431) -/

/-- The other members of a ring. -/
def State.otherMembers (s : State) (r : Nat) : List Nat :=
  (List.range (s.ring r).table.length).filter (· != s.fld .LNK_RING_CTL_MEMBER r)

/-- Every member has accepted: the sender streams the slot on the bulk virtual lane of its east port (R431). -/
def State.beginStream (s : State) (b : Broadcast) : State :=
  if (s.otherMembers b.ring).all b.accepted.contains then
    ((s.setConfig fun c => { c with sending := some { b with streaming := true } }).emit (.stream b.ring b.slot)).postMessage (141 + 2 * b.ring) 3 (Config.streamBytes b.slot) |>.raise 225
  else s.setConfig fun c => { c with sending := some b }

/-- CONFIG.BROADCAST (R379, R384, R430). -/
def svcConfigBroadcast (L : Letter) : Service := fun b s =>
  let n := rd b 0 4
  let r := rd b 4 1
  if 1 < r then refuse s L .BAD_PARAM
  else if s.fld .LNK_RING_STAT_STATE r ≠ 2 then refuse s L .NOT_READY
  else if !slotNumbers.contains n || !zeros b 5 3 then refuse s L .BAD_PARAM
  else if s.oneRuns then refuse s L .BUSY
  else accepted s L 0 [n, r]

/-- The members are polled, with the KEY of the slot's image; a slot whose FLAGS.BROADCAST is 0 ends the service with BAD_PARAM (R430). -/
def State.pollMembers (s : State) (slot r : Nat) : State :=
  if !(s.slot slot).valid || !(s.slot slot).broadcast then s.completeOn 0x0305 0 .BAD_PARAM []
  else ((s.ringSend r 10 [(s.slot slot).key]).startTimer .poll 0).beginStream ⟨slot, r, [], false⟩

/-- CONFIG.BROADCAST, whose service reads the ring's state in D17 (R82, R97). -/
def State.broadcastLetter (s : State) (L : Letter) : State :=
  let o : Offer := ⟨.admin, false, false, fixedLen 8⟩
  let g := fun (s : State) => s.serveThen L o false (svcConfigBroadcast L) fun o s => s.pollMembers (o.args.getD 0 0) (o.args.getD 1 0)
  if !s.serving || s.behind L then s
  else match s.accepts L o with
    | .inl _ => g s
    | .inr _ => (s.stalls L (some 17)).getD (g s)

end Sys2Proof.Machine
end

