-- ==== Sys2Proof/Machine/IslandOps.lean ====
section
/-! DEFINITION. What commands to reset and load do (R313, R365, R415, R429, R487, R493..R495, R499): island resets by domain, DEV_RST_CMD, CFG_CMD
and CFG_XREQ. -/

namespace Sys2Proof.Machine

/-! ### Island resets (R493) -/

/-- A reset abandons a shut-down that runs (R487). -/
def State.abandonShutdown (s : State) : State :=
  if s.power.leaving.isNone && !s.svc.shutdown then s
  else
    let gone := fun (o : PendingOp) => o.letter.opcode.toNat == 0x0106 || (o.letter.opcode.toNat == 0x0201 && s.power.leaving == some 2)
    let s := { s with svc := { s.svc with shutdown := false, ops := s.svc.ops.filter fun o => !gone o },
                      power := { s.power with leaving := none, step := 0 },
                      secure := { s.secure with run := none } }
    let s := (s.put .PWR_STATE_BUSY 0 0).put .DEV_ST_STAT_RUNNING 0 0
    s.when (s.fld .PIN_GSTAT_PHASE 0 == 2) (·.enterPhase 1)

/-- Island reset of D22 (R312, R365, R426, R427, R453, R494): the cores stop, READY is 0, their caches are lost, the flash is reset, a load from it
and a refetch fail, a CONFIG.WRITE is cancelled, and heater outputs are low. -/
def State.postroomReset (s : State) : State :=
  let s := s.abandonShutdown.bump .PST_FW_STAT_RESTARTS 0 1
  let s := { s with svc := { s.svc with stalled := [] } }.withdraw (fun (p : Port) => p == Port.postroom) fun _ => some 22
  let s := (s.setFirmware 0 (s.fld .PST_FW_STAT_COPY 0) (s.fld .PST_FW_STAT_RECOVERY 0)).put .PST_FW_STAT_CORES 0 0
  let s := s.each (List.range 64) fun m s => s.put .PST_MB_STAT_READY m 0
  let s := s.setMem fun m => { m with writes := m.writes.filter (·.who != 16) }
  let s := ((s.loseCaches [16, 17, 18, 19]).forgetAgents [16, 17, 18, 19]).emit .flashReset
  let s := (s.setConfig fun c => { c with write := none }).completeOn 0x0302 0 .CANCELLED []
  let s := match s.config.refetch with
    | some r => s.refetchFails r
    | none => s
  let s := match s.config.regionLoads with
    | l :: _ => if l.started && l.source = 64 then s.regionLoadFails l (10, 0) else s
    | [] => s
  s.heatersLow.refreshPins

/-- Island reset of D23 (R495): armed entries go back to their sorters; committed edges are not placed and are counted LATE; a measurement under way is
aborted (R142). -/
def State.timebaseReset (s : State) : State :=
  let s := (s.calAbort fun _ => true).disarmAll fun _ => true
  let s := s.each (List.range 192) fun c s =>
    let x := s.plc c
    if x.commits.isEmpty && x.ret.isNone then s
    else (s.setPlc c { x with commits := [], ret := none }).each x.commits fun m s => s.lateAction c m.sorter m.pm
  s.refreshPins

/-- Island reset of D24, or a reset of the test logic (R364, R493, R513): Test-Logic-Reset, and its mailboxes are reset. -/
def State.tapReset (s : State) : State :=
  let s := s.withdraw (fun (p : Port) => p == Port.tap) fun _ => some 24
  ((s.clr .TST_TAP_STAT_INSTRUCTION 0).clr .TST_TAP_STAT_TAP_STATE 0).resetOwner 0x41

/-- What a write of 1 to DEV_ISL_RST bit `d` does to the domain (R493); `lost` is what each lane of an octet loses. -/
def State.islandReset (s : State) (d : Nat) (lost : List (Fin 144 × Lost)) : State :=
  let s := ((s.orFld .DEV_ISL_RST_RST 0 (2 ^ d)).crossAssert d true).startTimer .island d
  if d < 18 then
    let of := fun (l : Nat) => ((lost.find? fun e => e.1.val == l).map (·.2)).getD ⟨0, [], []⟩
    (s.octetLanesReset d ((octetLanes d).map of)).protocolsDown d
  else if d < 22 then ((s.put .MEM_STK_STAT_SELF_REFRESH (d - 18) 1).clr .MEM_STK_STAT_TEMP (d - 18)).clr .MEM_STK_STAT_RESYNC (d - 18)
  else if d = 22 then s.postroomReset
  else if d = 23 then s.timebaseReset
  else s.tapReset

/-- A write of DEV_ISL_RST: bits do not set while a deeper reset is asserted or its start runs (R487). -/
def State.islandCmd (s : State) (v : Nat) (lost : List (Fin 144 × Lost)) : State :=
  if s.resets.stage ≠ 0 || s.resets.fabric then s
  else s.each (bitsOf 25 v) fun d s => s.islandReset d lost

/-! ### Device and fabric resets (R382, R487, R491, R499) -/

/-- Sets the stage of a start or reset. -/
def State.atStage (s : State) (n : Nat) : State := { s with resets := { s.resets with stage := n } }

/-- A device reset is asked for: the caches and the metadata cache are written back, and the entry follows (R312, R491). -/
def State.deviceReset (s : State) : State :=
  if s.resets.stage ≠ 0 then s else (((s.writeBackCaches (List.range 20)).flushMeta).abandonShutdown).atStage 5

/-- A fabric reset is asked for. -/
def State.fabricCmd (s : State) : State := if s.resets.stage ≠ 0 then s else s.abandonShutdown.plainFabric

/-- A write of DEV_RST_CMD (R499). -/
def State.rstCmd (s : State) (p : Port) (v : Nat) : State :=
  if v / 256 ≠ 0xA5C396 then s.accessError .other p true (Reg.addr .DEV_RST_CMD 0)
  else match v % 4 with
    | 1 => s.deviceReset
    | 2 => s.fabricCmd
    | _ => s

/-! ### Loads (R415, R428, R429) -/

/-- A write of CFG_CMD: GO loads the selected full slot while HOST_WAIT is 1 (R415). -/
def State.cfgCmd (s : State) (v : Nat) : State :=
  if v % 2 = 1 && s.on .CFG_STAT_HOST_WAIT 0 then s.askLoad s.selected false else s

/-- The region of request register `q` (R429). -/
def xreqRegion (q : Nat) : Nat := ([0, 7, 32, 39] : List Nat).getD q 0

/-- A load of region `n` is pending. -/
def State.loadPending (s : State) (n : Nat) : Bool := s.config.regionLoads.any (·.region == n)

/-- A write of CFG_XREQ[q] (R426, R429). -/
def State.xreq (s : State) (q addr : Nat) : State :=
  let n := xreqRegion q
  if !(s.chansOnRegion n).isEmpty || s.loadPending n then s.put .CFG_XSTAT_RESULT q 2
  else
    let s := (s.put .CFG_XSTAT_RESULT q 4).put .CFG_XSTAT_CAUSE q 0
    let l : RegionLoad := ⟨n, 64, addr, 0, some q, false, false⟩
    (s.setConfig fun c => { c with regionLoads := c.regionLoads ++ [l] }).nextRegionLoad

end Sys2Proof.Machine
end

