-- ==== Sys2Proof/Machine/Bus.lean ====
section
/-! DEFINITION. The register space by address (R5..R10, R17, R18, R79, R97): what a write and a read of each register do, and the accesses that waited
for a domain. -/

namespace Sys2Proof.Machine

/-! ### Addresses (R6, R7, R145, R353) -/

/-- What lies at an aligned address: a register's element and word, a lane mask of a masked-write window (R145), bytes of a mailbox window's rings, or
the reserved space between them (R353). -/
inductive Target where
  | reg (r : Reg) (i w : Nat)
  | masked (g lanes : Nat)
  | ring (m off : Nat)
  | reserved (m : Nat)
  | nothing
  deriving DecidableEq, Repr

/-- What lies at an aligned address. -/
def targetAt (a : Nat) : Target :=
  if 0x42000 ≤ a && a < 0x42C00 then .masked ((a - 0x42000) / 0x400) ((a - 0x42000) % 0x400 / 4)
  else if 0x1000000 ≤ a && a < 0x1400000 && 0x100 ≤ a % 0x10000 then
    let m := (a - 0x1000000) / 0x10000
    if 0x8000 ≤ a % 0x10000 && a % 0x10000 < 0x8100 then .reserved m else .ring m (a % 0x10000)
  else match regAt a with
    | some (r, i, w) => .reg r i w
    | none => .nothing

/-- Whether a port may make an access (R18, R352). -/
def State.mayAt (s : State) (p : Port) (write : Bool) (a : Nat) : Bool :=
  match targetAt a with
  | .reg r i _ => s.may p write r i
  | .masked g _ => s.may p write .PIN_OUT_MW g
  | .ring m _ | .reserved m => s.boxMay p write m && (p != .tap || s.tapMay write (some .MAILBOX) m)
  | .nothing => match p with
    | .tap => s.tapMay write (windowOf a) 64
    | .region n => match windowOf a with
      | some .MAILBOX => s.boxMay p write ((a - 0x1000000) / 0x10000)
      | some w => bitOf (s.fld (if write then .DEV_RGN_ACCESS_WR else .DEV_RGN_ACCESS_RD) n) w.bit
      | none => true
    | .pf f => match windowOf a with
      | some .MAILBOX => s.boxMay p write ((a - 0x1000000) / 0x10000)
      | _ => f.val == 0
    | .postroom => true

/-- The register-space address of an access: through the BAR of PF1..PF3, 4 MiB, offset 0 is the first mailbox window (R251, R353). -/
def barView (p : Port) (a : Nat) : Nat :=
  match p with
  | .pf f => if f.val = 0 then a else 0x1000000 + a % 2 ^ 22
  | _ => a

/-! ### Writes -/

/-- Stores a word in the RW fields of a register and clears the W1C bits that it names (R9). -/
def State.plainWrite (s : State) (r : Reg) (i w v : Nat) : State :=
  (s.storeWord r i w v).each (r.fields.filter (fun f => f.spec.ty = .W1C)) fun f s =>
    if f.spec.lo / 32 = w then
      let mask := v / 2 ^ (f.spec.lo - 32 * w) % 2 ^ f.spec.width
      s.put f i (s.fld f i ^^^ (s.fld f i &&& mask))
    else s

/-- A write of PWR_RGN_CTL[n] (R467): a CAP, FIXED_V or MARGIN outside its range leaves its field unchanged, with REF and source 8; VSET follows. -/
def State.rgnCtl (s : State) (n v : Nat) : State :=
  let margin := v / 2 ^ 8 % 64
  let cap := v / 2 ^ 16 % 256
  let fixed := v / 2 ^ 24 % 256
  let ok := fun (x lo hi : Nat) => decide (lo ≤ x) && decide (x ≤ hi)
  let s := s.put .PWR_RGN_CTL_MODE n v
  let s := s.when (ok margin 2 50) (·.put .PWR_RGN_CTL_MARGIN n margin)
  let s := s.when (ok cap 25 200) (·.put .PWR_RGN_CTL_CAP n cap)
  let s := s.when (ok fixed 25 200) (·.put .PWR_RGN_CTL_FIXED_V n fixed)
  let bad := !(ok margin 2 50 && ok cap 25 200 && ok fixed 25 200)
  (s.setVset n (s.fld .PWR_RGN_STAT_VSET n)).when bad fun s => (s.put .PWR_RGN_STAT_REF n 1).raiseOf 8 .PWR_RGN_STAT n

/-- A tap of a manual DFE setting, clamped to its range (R567): the first is -128..127, the others -64..63. -/
def clampTap (first : Bool) (b : Nat) : Nat :=
  if first then b else if 128 ≤ b then max b 192 else min b 63

/-- A write of a word of LANE_DFE (R242, R567): it counts only in manual mode. -/
def State.laneDfe (s : State) (i v : Nat) : State :=
  if s.fld .LANE_RXEQ_MODE (i / 3) ≠ 2 then s
  else
    let tap := fun (k : Nat) => clampTap (i % 3 == 0 && k == 0) (v / 256 ^ k % 256) * 256 ^ k
    let w := tap 0 + tap 1 + tap 2 + tap 3
    let x := s.laneSet (i / 3)
    (s.setLaneSet (i / 3) { x with dfe := x.dfe.set (i % 3) w }).put .LANE_DFE_TAPS i w

/-- A write of LANE_RXEQ[l] (R242): in manual mode the settings written are those in use. -/
def State.laneRxeq (s : State) (l v : Nat) : State :=
  let s := (s.put .LANE_RXEQ_MODE l v).put .LANE_RXEQ_CTLE l (v / 2 ^ 8)
  s.when (v % 4 == 2) (·.showManual l)

/-- A write of LANE_ERR[l]: FIRST returns to 0 once LOS and LOL are clear (R245). -/
def State.laneErr (s : State) (l v : Nat) : State :=
  let s := s.plainWrite .LANE_ERR l 0 v
  s.when (!s.on .LANE_ERR_LOS l && !s.on .LANE_ERR_LOL l) (·.clr .LANE_ERR_FIRST l)

/-- A write of word `w` of SRT_INS[n]: words 0..2 are kept for the port, word 3 inserts (R131). -/
def State.insWord (s : State) (p : Port) (n w v : Nat) : State :=
  if w < 3 then { s with insWords := Tbl.set 0 s.insWords (insKey p n w) v } else s.commitEntry p n v

/-- A write of a lockable register of the PIN window (R9, R151). -/
def State.lockable (s : State) (p : Port) (r : Reg) (i : Nat) (locked : Bool) (g : State → State) : State :=
  if locked then s.accessError .locked p true (r.addr i) else g s

/-- A write to a register of the PIN window (R139..R156). -/
def State.writePin (s : State) (p : Port) (r : Reg) (i w v : Nat) : State :=
  match r with
  | .PIN_LOCK_ARM => s.lockArm p v
  | .PIN_LOCK_SET => s.lockSet p v
  | _ =>
    let s := s.breakLock p
    match r with
    | .PIN_CFG | .PIN_IMAP => s.lockable p r i (s.pinLocked i) fun s => ((s.keepPin i).storeWord r i w v).refreshPins
    | .PIN_OUT => (s.plainWrite r i w v).keepLevels
    | .PIN_OMAP =>
      s.lockable p r i (s.mapLocked i (v % 256)) (·.mapSource i (v % 256))
    | .PIN_BANK_CTL => s.bankCtl p i v
    | .PIN_PLC_CTL => s.cellEnable i (v % 2 == 1)
    | .PIN_CAL_CMD => s.calWrite p v
    | .PIN_PWM_PER => s.pwmPer i v
    | .PIN_PWM_HI => s.pwmHi i v
    | _ => s.plainWrite r i w v

/-- A write to a mailbox's control page or a lock (R357, R358, R367). -/
def State.writePst (s : State) (p : Port) (r : Reg) (i w v : Nat) : State :=
  match r with
  | .PST_MB_DOORBELL => if h : i < 64 then s.doorbell ⟨i, h⟩ (v % 1024) else s
  | .PST_MB_RPL => if h : i < 64 then s.replyHead ⟨i, h⟩ (v % 1024) else s
  | .PST_LOCK_REL => if v % 2 = 1 then s.unlock (portIdent p) i else s
  | _ => s.plainWrite r i w v

/-- What a write of a word of a register does. -/
def State.writeReg (s : State) (p : Port) (r : Reg) (i w v : Nat) : State :=
  match windowOf (r.addr i) with
  | some .PIN => s.writePin p r i w v
  | some .PST | some .MAILBOX => s.writePst p r i w v
  | _ =>
    match r with
    | .DEV_RST_CMD => s.rstCmd p v
    | .DEV_ISL_RST => s.islandCmd v []
    | .DEV_OCT_CTL => s.octCtl i v []
    | .DEV_OCT_CLK => s.octClk i v
    | .DEV_OCT_PROTO => s.octProto i v
    | .DEV_FRK_CMD => s.frankerCmd v .done
    | .PWR_RGN_CTL => s.rgnCtl i v
    | .POS_AX_CTL => s.axisCtl i v
    | .POS_AX_CMD => s.axCmd i v
    | .POS_AX_LOAD => (s.storeWord r i w v).loadWritten i
    | .POS_STRB_CTL | .POS_STRB_BASE => (s.storeWord r i w v).strobeWritten i
    | .POS_SNAP_CMD => if v % 2 = 1 then s.snapshot else s
    | .SRT_CTL => s.srtCtl i v
    | .SRT_TGT => (s.storeWord r i w v).refreshPins
    | .SRT_CMD => if v % 2 = 1 then s.flushCmd i else s
    | .SRT_INS => s.insWord p i w v
    | .LANE_CTL => s.laneCtl i v []
    | .LANE_RATE => s.laneRate i v
    | .LANE_TXEQ => s.laneTxeq i v
    | .LANE_RXEQ => s.laneRxeq i v
    | .LANE_DFE => s.laneDfe i v
    | .LANE_ERR => s.laneErr i v
    | .LNK_CTL => s.lnkCtl i v []
    | .LNK_CMD => s.lnkCmd i v
    | .LNK_CABLE => (s.storeWord r i w v).showCable i
    | .LNK_RING_CTL => s.ringCtl i v
    | .LNK_RING_CMD => if v % 2 = 1 then s.raiseStop i 2 else s
    | .SEAL_GRAN_CMD => s.granCmd p v
    | .EVT_USER => s.userEvents (v % 256)
    | .PERF_SEL => s.perfSel i v
    | .PERF_OVF => (s.plainWrite r i w v).each (bitsOf 32 v) fun b s => s.put .PERF_CNT_OVF (32 * i + b) 0
    | .CFG_CMD => s.cfgCmd v
    | .CFG_XREQ => s.xreq i v
    | .CFG_NVM_SEL => (s.storeWord r i w v).showWear
    | .CFG_FAB_STAT => (s.plainWrite r i w v).when (bitOf v 16) (·.put .CFG_FAB_STAT_CODE_CNT i 0)
    | .CFG_BM_STAT => (s.plainWrite r i w v).when (v % 2 == 1) (·.put .CFG_BM_STAT_CORR_CNT i 0)
    | _ => s.plainWrite r i w v

/-- A write of the word at an address takes place: refused (R18), or made as what lies there has it. -/
def State.makeWrite (s : State) (p : Port) (a v : Nat) : State :=
  if !s.mayAt p true a then s.accessError .denied p true a
  else
    let s := s.passAccess p true (addrDomain a)
    match targetAt a with
    | .reg r i w => s.writeReg p r i w v
    | .masked g lanes => (s.breakLock p).gpioMasked g lanes v
    | .ring m off => s.each (List.range 4) fun k s => s.setBoxByte (m * 0x10000 + off + k) (BitVec.ofNat 8 (v / 256 ^ k))
    | .reserved _ => s
    | .nothing => (s.when (windowOf a == some .PIN) (·.breakLock p)).accessError .unmapped p true a

/-! ### Reads -/

/-- The value that a port's shadow of a wide register holds from bit 32 on (R10). Before the port's first capture, and after a reset that clears the
shadows, it is 0: the spec gives no value there (DESIGN CHOICE, assumption 89). -/
def State.shadow (s : State) (p : Port) (r : Reg) (i : Nat) : Nat := Tbl.find 0 s.shadows (shadowKey p r i)

/-- A read of the low word of DEV_RNG_DATA (R512): the drawn bits are free values. -/
def State.rngRead (s : State) (p : Port) : State :=
  let low := if s.rngReady then 0 else 0x400
  let high := if s.rngReady then s.draw % 2 ^ 32 else 0
  (({ s with shadows := Tbl.set 0 s.shadows (shadowKey p .DEV_RNG_DATA 0) high }).when s.rngReady (·.drew)).emit (.readValue p low)

/-- What a read of a word of a register does (R9, R10, R127, R135, R144, R366, R512). -/
def State.readReg (s : State) (p : Port) (r : Reg) (i w : Nat) : State :=
  let upper := fun (k : Nat) => s.emit (.readValue p (s.shadow p r i / 2 ^ (32 * k) % 2 ^ 32))
  match r with
  | .PST_LOCK_ACQ =>
    let x := s.acquire (portIdent p) i
    x.1.emit (.readValue p (x.2 + 256 * x.1.fld .PST_LOCK_OWNER i))
  | .POS_AX_POS => if w = 0 then s.readPos p i else upper 0
  | .POS_AX_EPOCH => s.emit (.readValue p (s.shadow p .POS_AX_POS i / 2 ^ 32 % 2 ^ 32))
  | .SRT_HEAD => if w = 0 then s.readHead p i else upper (w - 1)
  | .PST_WHOAMI => s.emit (.readValue p (portIdent p))
  | .SRT_INS_RES => s.emit (.readValue p (Tbl.find 0 s.insRes (insKey p i 0)))
  | .DEV_RNG_DATA => if w = 0 then s.rngRead p else upper 0
  | .PIN_IN => (s.sampleBank i).readClear p r i
  | _ => if r.spec.words = 1 then s.readClear p r i else if w = 0 then s.wideRead p r i else upper (w - 1)

/-- A read of the word at an address takes place: refused (R18), or made as what lies there has it. -/
def State.makeRead (s : State) (p : Port) (a : Nat) : State :=
  if !s.mayAt p false a then (s.accessError .denied p false a).emit (.readValue p 0)
  else
    let s := s.passAccess p false (addrDomain a)
    match targetAt a with
    | .reg r i w => s.readReg p r i w
    | .masked _ _ | .reserved _ => s.emit (.readValue p 0)
    | .ring m off => s.emit (.readValue p (ofLe ((List.range 4).map fun k => s.boxByte (m * 0x10000 + off + k))))
    | .nothing => (s.accessError .unmapped p false a).emit (.readValue p 0)

/-! ### Accesses and their replies -/

/-- The value that a read returned between two states. -/
def lastRead (before after : State) : Nat :=
  ((after.out.drop before.out.length).reverse.findSome? fun o => match o with
    | .readValue _ v => some v
    | _ => none).getD 0

/-- The reply token of a region control port (R79); the border of a region that is not WOKEN absorbs and counts it (R444). -/
def State.controlReply (s : State) (n : Fin 40) (tag v : Nat) : State :=
  if s.woken n then s.emit (.controlReply n tag v) else s.bump .CFG_ISO_CNT_ABSORBED n 1

/-- An access of a wrong width or alignment (R5): discarded with FORM; a read returns 0, and a write into the PIN window breaks a lock sequence (R151). -/
def State.misform (s : State) (p : Port) (a : Nat) (write : Bool) : State :=
  let s := s.when (write && windowOf a == some .PIN) (·.breakLock p)
  (s.accessError .form p write a).when (!write) (·.emit (.readValue p 0))

/-- An access takes place; a region control port gets its reply token, with tag 0x1 where R18 refused it (R79). -/
def State.makeAccess (s : State) (p : Port) (a : Nat) (write : Bool) (v : Nat) (form : Bool) : State :=
  let t := if form then s.misform p a write else if write then s.makeWrite p a v else s.makeRead p a
  match p with
  | .region n => t.controlReply n (b2n (!s.mayAt p write a)) (if write then 0 else lastRead s t)
  | _ => t

/-- The domain that an access of a port waits for: none where it is refused before it gets there (R5, R18). -/
def State.accessDomain (s : State) (p : Port) (a : Nat) (write form : Bool) : Option Nat :=
  if form || !s.mayAt p write a then none else addrDomain a

/-- An access that a port makes (R5, R6, R17, R18, R97, R98). -/
def State.busAccess (s : State) (p : Port) (a : Nat) (write : Bool) (v : Nat) (form : Bool) : State :=
  let d := s.accessDomain p a write form
  if !s.reaches p then s
  else if s.mustWait p d then s.wait p a write v form d
  else s.makeAccess p a write v form

/-- One access that waited is tried again: it goes on waiting behind an earlier one of its port or for its domain, or takes place, the entry it had in its queue now
one that passes. -/
def State.retry (s : State) (w : WaitingAccess) : State :=
  if s.mustWait w.port (s.accessDomain w.port w.addr w.write w.form) then { s with waiting := s.waiting ++ [w] }
  else
    let s := match w.queued, addrDomain w.addr with
      | true, some d => s.setCrossing d { s.crossing d with into := (s.crossing d).into.takeBack }
      | _, _ => s
    s.makeAccess w.port w.addr w.write w.data w.form

/-- The accesses that waited take place in their order, those of one port in the order it made them (R17, R93, R97). -/
def State.serveAccesses (s : State) : State := ({ s with waiting := [] }).each s.waiting fun w s => s.retry w

/-- A pulse takes its effect in the domain that it reaches (R87). -/
def State.deliverPulse (s : State) (p : Pulse) : State :=
  match p with
  | .msix f v => s.emit (.msix f v)
  | .signal m => s.signalHost m
  | .beacon l a pos vel lost => s.beaconIn l a pos (signed 32 vel) lost
  | .lost a => s.lostHere a

/-- The pulses kept for domain `d` are delivered, oldest first, each after the return toggle of the one before (R87). -/
def State.servePulses (s : State) (d : Nat) : State :=
  s.each (s.pulses.filter fun e => e.1 % 32 == d && !e.2.kept.isEmpty) fun e s =>
    let even := e.2.kept.length % 2 == 1
    let t := if even then e.2.toggle else !e.2.toggle
    ({ s with pulses := Tbl.set PulseX.reset s.pulses e.1 ⟨t, t, []⟩ }).each e.2.kept fun p s => s.deliverPulse p

/-- Serves a letter that waited for a domain, by its opcode. -/
def State.serveLetter (s : State) (L : Letter) : State :=
  match L.opcode.toNat with
  | 0x0305 => s.broadcastLetter L
  | 0x0A01 => s.axisSetupLetter L
  | 0x0A02 => s.axisStartLetter L
  | 0x0A03 => s.axisStopLetter L
  | 0x0A04 => s.axisRecoverLetter L
  | 0x0A05 => s.axisQueryLetter L
  | 0x0B01 => s.calibrateLetter L
  | 0x0B02 => s.heaterLetter L
  | 0x0C01 => s.ethQueueLetter L
  | 0x0C02 => s.ethSteerLetter L
  | 0x0C03 => s.linkQueryLetter L
  | 0x0D01 => s.ringConfigLetter L
  | 0x0D02 => s.ringQueryLetter L
  | 0x0D03 => s.ringStopLetter L
  | _ => s.ringReleaseLetter L

/-- The letters whose service waited for domain `d` are served, in their order (R97); one that the firmware cannot serve yet goes on waiting. -/
def State.serveStalled (s : State) (d : Nat) : State :=
  let mine := s.svc.stalled.filter (·.1 == d)
  ({ s with svc := { s.svc with stalled := s.svc.stalled.filter (·.1 != d) } }).each mine fun e s =>
    if !s.serving || s.behind e.2 then s.stall e.2 d else s.serveLetter e.2

/-- A register setting of a DEVICE section takes effect (R412): the loader writes it as the register's own rule has it. In a start it gives an octet that
has not locked the value that EN, the reference and the word clock have from the image (R260). -/
def State.makeSetting (s : State) (e : Nat × Word) : State :=
  match targetAt e.1 with
  | .reg r i w =>
    if (r == .DEV_OCT_CTL || r == .DEV_OCT_CLK) && s.starting && !s.on .DEV_OCT_STAT_LOCK i then s.storeWord r i w e.2.toNat
    else (s.passDomain (r.domain i) false).writeReg .postroom r i w e.2.toNat
  | _ => s

/-- The settings of an image take effect, those of a register in a stopped or held domain once it runs (R14, R97). In a start the endpoint, which has not come up,
has its width and rates from them (R249, R260). -/
def State.imageSettings (s : State) (l : List (Nat × Word)) : State :=
  let s := s.each l fun e s =>
    if s.domainWaits (addrDomain e.1) then s.setConfig fun c => { c with settings := c.settings ++ [e] } else s.makeSetting e
  s.when (s.starting && !s.on .LANE_EP_STAT_LINK_UP 0) (·.takeEndpoint)

/-- The settings that waited for domain `d`. -/
def State.serveSettings (s : State) (d : Nat) : State :=
  let mine := fun (e : Nat × Word) => addrDomain e.1 == some d
  let l := s.config.settings.filter mine
  (s.setConfig fun c => { c with settings := c.settings.filter (!mine ·) }).each l fun e s => s.makeSetting e

/-- What waited for domain `d` goes on once it runs and is not held: register accesses, pulses, services, and requests for a stack, what a
link sends, and the Franker's settings (R87, R93, R97). -/
def State.serveWaiting (s : State) (d : Nat) : State :=
  if s.domainWaits (some d) then s
  else
    let s := (((s.serveAccesses).servePulses d).serveSettings d).serveStalled d
    let s := s.when (d == 22) (·.each (List.range 64) fun m s => s.pump m)
    let s := s.when (decide (d < 18)) fun s => (s.each (List.range 16) fun a s => s.serveAgent a).each (octetLanes d) fun m s => s.sendHeld m
    let s := s.each (s.franker.waiting.filter fun h => heldDomain h == some d) fun h s =>
      (s.setFranker fun f => { f with waiting := f.waiting.erase h }).hold h
    s.when (decide (18 ≤ d) && decide (d < 22)) (·.serveStack (d - 18))

end Sys2Proof.Machine
end

