-- ==== Sys2Proof/Machine/Registers.lean ====
section
/-! DEFINITION. Commands on the register space (R5..R10, R79) and on registers of the device, power and configuration windows: counters that a read
clears, resets and loads that a write starts. -/

namespace Sys2Proof.Machine

/-- A register write of some bytes (R5, R6): any width but 32 bits, or an address not aligned to 4 bytes, is discarded with FORM. -/
def execRegisterWrite (p : Port) (addr : BitVec 25) (bytes : Fin 9) (value : Word) (s : State) : Host.Outcome State Fault Refusal :=
  .next (s.busAccess p (barView p addr.toNat) true value.toNat (bytes.val ≠ 4 || addr.toNat % 4 ≠ 0))

/-- A read of the low word of a wide value (R5, R10): the upper words go to the port's shadow. A read of any width but 32 bits, or at an address not
aligned to 4 bytes, returns 0 with FORM. -/
def execWideValueLowRead (p : Port) (r : ReadAt) (s : State) : Host.Outcome State Fault Refusal :=
  .next (s.busAccess p (barView p r.addr.toNat) false 0 (r.bytes.val ≠ 4 || r.addr.toNat % 4 ≠ 0))

/-- A request of two tokens on a region control port (R79): bits [24:2] of the first give the word address and bit [0] is 1 for a write; the second
carries the data. A region that is not WOKEN makes no access: the port has received its request only in part (R444). -/
def execRegionControlAccess (n : Fin 40) (word0 word1 : BitVec 32) (s : State) : Host.Outcome State Fault Refusal :=
  .next <|
  if s.woken n then s.busAccess (.region n) (word0.toNat % 2 ^ 25 / 4 * 4) (word0.toNat % 2 == 1) word1.toNat false else s.partBundle n

/-! ### Counters that a read clears (R9) -/

/-- A read of CFG_NVM_CNT (R438). -/
def execCfgNvmCntRead (p : Port) (s : State) : Host.Outcome State Fault Refusal :=
  .next (s.access p .CFG_NVM_CNT 0 false 0 (·.readClear p .CFG_NVM_CNT 0))

/-- A read of CFG_ISO_CNT[n] (R456). -/
def execCfgIsoCntRead (p : Port) (n : Fin 40) (s : State) : Host.Outcome State Fault Refusal :=
  .next (s.access p .CFG_ISO_CNT n false 0 (·.readClear p .CFG_ISO_CNT n))

/-- A read of CFG_RGN_UPSET[n] (R456). -/
def execCfgRgnUpsetRead (p : Port) (n : Fin 40) (s : State) : Host.Outcome State Fault Refusal :=
  .next (s.access p .CFG_RGN_UPSET n false 0 (·.readClear p .CFG_RGN_UPSET n))

/-- A read of CFG_SCRUB_CNT (R456). -/
def execCfgScrubCntRead (p : Port) (s : State) : Host.Outcome State Fault Refusal :=
  .next (s.access p .CFG_SCRUB_CNT 0 false 0 (·.readClear p .CFG_SCRUB_CNT 0))

/-- A read of PWR_RGN_LOOP[n] (R482): SHORT is cleared. -/
def execPwrRgnLoopRead (p : Port) (n : Fin 40) (s : State) : Host.Outcome State Fault Refusal :=
  .next (s.access p .PWR_RGN_LOOP n false 0 (·.readClear p .PWR_RGN_LOOP n))

/-- A read of DEV_RNG_STAT (R511): RCT_FAIL and APT_FAIL are cleared. -/
def execDevRngStatRead (p : Port) (s : State) : Host.Outcome State Fault Refusal :=
  .next (s.access p .DEV_RNG_STAT 0 false 0 (·.readClear p .DEV_RNG_STAT 0))

/-- A read of the low word of DEV_RNG_DATA (R512). -/
def execRngDataRead (p : Port) (s : State) : Host.Outcome State Fault Refusal :=
  .next (s.access p .DEV_RNG_DATA 0 false 0 (·.rngRead p))

/-! ### Resets and loads that a write starts -/

/-- A write of DEV_RST_CMD with KIND 0b01 (R499): with the right KEY, a device reset. -/
def execDevRstDevice (p : Port) (value : Word) (s : State) : Host.Outcome State Fault Refusal :=
  .next (s.access p .DEV_RST_CMD 0 true value.toNat (·.rstCmd p (value.toNat / 4 * 4 + 1)))

/-- A write of DEV_RST_CMD with KIND 0b10 (R499): with the right KEY, a fabric reset. -/
def execDevRstFabric (p : Port) (value : Word) (s : State) : Host.Outcome State Fault Refusal :=
  .next (s.access p .DEV_RST_CMD 0 true value.toNat (·.rstCmd p (value.toNat / 4 * 4 + 2)))

/-- A write of DEV_ISL_RST (R493); `lost` is what each lane of an octet loses. -/
def execIslandReset (p : Port) (value : Word) (lost : List (Fin 144 × Lost)) (s : State) : Host.Outcome State Fault Refusal :=
  .next (s.access p .DEV_ISL_RST 0 true value.toNat (·.islandCmd value.toNat lost))

/-- A write of CFG_CMD with GO (R415). -/
def execCfgGo (p : Port) (value : Word) (s : State) : Host.Outcome State Fault Refusal :=
  .next (s.access p .CFG_CMD 0 true value.toNat (·.cfgCmd (value.toNat ||| 1)))

/-- A write of CFG_XREQ[q] (R429). -/
def execXspiRequest (p : Port) (q : Fin 4) (addr : Word) (s : State) : Host.Outcome State Fault Refusal :=
  .next (s.access p .CFG_XREQ q true addr.toNat (·.xreq q addr.toNat))

end Sys2Proof.Machine
end

