-- ==== Sys2Proof/Machine/ConfigLoad.lean ====
section
/-! DEFINITION. Loads of a full image as they end (R404, R412..R423), the CFG_DONE line (R420, R421), and broadcast loading (R430..R432). -/

namespace Sys2Proof.Machine

/-! ### What a full image configures (R412) -/

/-- The regulator table (R464): entries with their address, page and rail; the firmware sets PMB_EN for the banks that have an entry. -/
def State.imageRegulators (s : State) (l : List (Fin 16 × BitVec 7 × BitVec 8 × Fin 15)) : State :=
  let s := s.each (List.range 16) fun e s => (s.put .PWR_EXT_ADDR e 0).put .PWR_EXT_VALID e 0
  let s := { s with power := { s.power with rails := [], pages := [] } }
  s.each l fun e s =>
    let rail := e.2.2.2.val
    let s := (s.put .PWR_EXT_ADDR e.1 e.2.1.toNat).put .PWR_EXT_VALID e.1 1
    let s := { s with power := { s.power with
      rails := Tbl.set 0 s.power.rails e.1.val (rail + 1), pages := Tbl.set 0 s.power.pages e.1.val e.2.2.1.toNat } }
    s.when (decide (2 ≤ rail) && decide (rail < 14) && !s.bankLocked (rail - 2)) (·.put .PIN_BANK_CTL_PMB_EN (rail - 2) 1)

/-- The firmware assigns the mailbox owners of a table at a start (R351). -/
def State.assignOwners (s : State) (t : List (BitVec 8)) : State :=
  s.each (List.finRange 64) fun m s =>
    let o := (t.getD m 0).toNat
    (s.put .PST_MB_OWNER_OWNER m o).put .PST_MB_STAT_OWNER m o

/-- The image's own settings: registers, regulators, isolation cells, the trees T4..T7 and regions; regions that it does not configure are EMPTY. The mailbox table is
assigned at a start (R351), once the firmware serves. -/
def State.applyFull (s : State) (slot : Nat) (f : ImageFacts) (b : FullBody) : State :=
  let plain := f.plain (s.segmentKeys f)
  let s := (s.imageSettings b.settings).imageRegulators b.regulators
  let s := { s with isoAbsorb := b.absorb.map isoKey }
  let s := s.each (List.finRange 4) fun t s =>
    (s.setTree t { s.tree t with cfg := (b.trees.find? (·.1 == t)).map (·.2), edges := 0, lost := false }).startTimer .uclk t
  let s := s.each ((List.finRange 40).filter fun n => !b.regions.any fun e => e.1 == n) fun n s => s.emptyRegion n
  let s := s.each b.regions fun e s => (s.keepKeys (e.1.val + 1) []).applyRegion e.1 slot 0 f plain e.2 s.starting
  let s := s.setConfig fun c => { c with owners := b.owners, overridden := b.overridden + (b.regions.map (·.2.overridden)).sum }
  let s := (s.keepKeys 0 (s.segmentKeys f)).recordFrames 40 (f.frames plain 40)
  match b.owners with
  | some t => s.when (s.starting && s.on .PST_FW_STAT_READY 0) (·.assignOwners t)
  | none => s

/-! ### The end of a load (R417 steps 4 to 6) -/

/-- Step 4: the image is in force, its segment keys are kept (R411), and the loader waits. The golden load's end ends RECOVERY (R150, R418) unless the firmware runs its second copy
during a start. -/
def State.imageChecked (s : State) (l : FullLoad) (f : ImageFacts) (b : FullBody) : State :=
  let s := s.applyFull l.slot f b
  let s := (s.put .CFG_STAT_STATE 0 1).put .CFG_DESIGN_ID 0 f.design
  let s := if l.slot = 0xFE then s.put .CFG_SRC_BCAST 0 1 else s.put .CFG_SRC_SLOT 0 l.slot
  let s := s.setConfig fun c => { c with load := some { l with checked := true } }
  s.when (l.slot == 0 && l.asked != 0 && !(s.starting && s.on .PST_FW_STAT_RECOVERY 0)) (·.enterPhase (if s.starting then 0 else 1))

/-- The last segment and the trailer of the image that the loader streams have been read (R414, R417, R418). -/
def execImageStreamDone (f : ImageFacts) (body : FullBody) (s : State) : Host.Outcome State Fault Refusal :=
  .next <|
  match s.config.load with
  | none => s
  | some l =>
    if !s.fullRuns || l.checked then s
    else
      let x := s.imageFails l.slot 1 0xFF f false
      let s := s.readImage l.slot f
      match x with
      | some x => s.loadFailed l x
      | none => s.imageChecked l f body

/-- Step 5: the image is checked, the firmware serves and every stack is filled; the device stops driving CFG_DONE, and the firmware logs overridden
verdicts (R46, R417). -/
def execCfgRelease (s : State) : Host.Outcome State Fault Refusal :=
  .next <|
  let checked := s.config.load.any (·.checked)
  if !checked || s.on .CFG_STAT_RELEASED 0 || !s.on .PST_FW_STAT_READY 0 || !((List.range 4).all fun k => s.on .MEM_STK_STAT_FILL_DONE k) then s
  else
    let n := s.config.overridden
    (s.driveDone false).when (n != 0) (·.logFirmware (Config.recordCode 4).toNat (le 4 n))

/-- Region resets that waited for a full load (R426). -/
def State.waitedResets (s : State) : State :=
  let l := s.config.regionResets
  (s.setConfig fun c => { c with regionResets := [] }).each l fun e s => s.askRegionReset e.1 e.2

/-- Step 6: the global wake strobe on T1 for every loaded region, and user operation (R417, R421, R423, R500). -/
def State.userOperation (s : State) (l : FullLoad) : State :=
  let s := s.each ((List.range 40).filter s.holdsImage) fun n s => s.wakeRegion n
  let s := ((s.put .CFG_STAT_STATE 0 2).setConfig fun c => { c with load := none, joined := none }).enterService
  let s := s.when (l.asked == 0xFE) (·.raise 225)
  let s := s.endFabric
  let s := s.completeOn 0x0304 0 (if l.slot = l.asked then .OK else .INTEGRITY) (le 4 (s.fld .CFG_SRC_SLOT 0))
  s.waitedResets.nextRegionLoad

/-- The members of a list with an outcome, as a mask. -/
def outcomeMask (l : List (Fin 32 × Fin 3)) (x : Nat) : Nat := (l.filter (·.2.val == x)).foldl (fun m e => orBit m e.1) 0

/-- The sender of a broadcast completes it once the line is high (R432): 0 loaded the stream, 1 fell back to the golden image, 2 holds no image. -/
def State.endBroadcast (s : State) (b : Broadcast) (outcomes : List (Fin 32 × Fin 3)) : State :=
  let m := outcomeMask outcomes
  let good := b.accepted.all fun a => bitOf (m 0) a
  let s := (s.setConfig fun c => { c with sending := none }).raise 225
  s.completeOn 0x0305 0 (if good then .OK else .INTEGRITY) (le 4 (m 0) ++ le 4 (m 1) ++ le 4 (m 2) ++ le 4 0)

/-- CFG_DONE has been high for 1 µs after the device's own release (R420, R421). `outcomes`: what each member that accepted a broadcast of this device
reported in roll-call (R432). -/
def execCfgDoneHigh (outcomes : List (Fin 32 × Fin 3)) (s : State) : Host.Outcome State Fault Refusal :=
  .next <|
  if !s.on .CFG_STAT_RELEASED 0 then s
  else
    let s := s.put .CFG_STAT_LINE 0 1
    let s := match s.config.load with
      | some l => s.when l.checked (·.userOperation l)
      | none => s
    match s.config.sending with
    | some b => s.when b.streaming (·.endBroadcast b outcomes)
    | none => s

/-- The line has not been seen high within 1 s of the device's release (R420). -/
def execDoneWaitTimeout (s : State) : Host.Outcome State Fault Refusal :=
  .next (if s.on .CFG_STAT_RELEASED 0 && !s.on .CFG_STAT_LINE 0 && s.ran .release 0 1000000000 then (s.put .CFG_STAT_DONE_WAIT 0 1).raise 222 else s)

/-! ### Broadcasts (R430..R432) -/

/-- No broadcast has begun within 30 s of READY (R415). -/
def execBroadcastWaitTimeout (s : State) : Host.Outcome State Fault Refusal :=
  .next (if s.on .CFG_STAT_BCAST_WAIT 0 && s.ran .bcastWait 0 30000000000 then s.askLoad s.selected false else s)

/-- Every channel is IDLE. -/
def State.allIdle (s : State) : Bool := s.chanList.all fun c => (s.chan c).state == 0

/-- The key that a header's KEY names is held (R430, R504): the image key, or the firmware key. -/
def State.holdsKey (s : State) (key : Nat) : Bool := if key = 0 then s.hasKey 0 else key == 1

/-- A member accepts a broadcast (R430). -/
def State.acceptsBroadcast (s : State) (key : Nat) : Bool :=
  let st := s.fld .CFG_STAT_STATE 0
  (s.on .CFG_STAT_BCAST_WAIT 0 || ((st == 2 || st == 3) && s.allIdle)) && !s.svc.shutdown && s.config.write.isNone && s.config.load.isNone &&
    s.config.regionLoads.isEmpty && s.holdsKey key

/-- A poll for a broadcast reaches this member (R430): its answer goes to the ring; a refusal raises source 225 (R439). -/
def execBroadcastPollReceived (r : Fin 2) (key : BitVec 8) (s : State) : Host.Outcome State Fault Refusal :=
  .next <|
  if !s.takesPart r then s
  else
    let ok := s.acceptsBroadcast key.toNat
    let s := s.ringSend r 11 [s.fld .LNK_RING_CTL_MEMBER r, b2n ok]
    if ok then s.setConfig fun c => { c with joined := some r } else s.raise 225

/-- The first flit of the stream reaches a member that has accepted: it drives CFG_DONE low and loads the stream, after a fabric reset where it was in
user operation (R431). -/
def State.joinStream (s : State) : State :=
  if s.config.load.isSome then s else (s.askLoad 0xFE (s.fld .CFG_STAT_STATE 0 == 2)).raise 225

/-- A bulk flit of a broadcast (R431): a member loads it and forwards it out of its east port; the sender discards the stream that returns. -/
def State.bulkFlit (s : State) (m vl : Nat) (first : Bool) (body : List Byte) : State :=
  let west := fun (r : Nat) => vl == 3 && m == 140 + 2 * r
  if s.config.sending.any fun b => b.streaming && west b.ring then s
  else match s.config.joined with
    | some r =>
      if west r then
        let s := s.joinStream.startTimer .bcastFlit 0
        (s.updLink (m + 1) fun x => { x with queue := x.queue ++ [⟨3, first, body, none⟩] }).pumpLink (m + 1)
      else s.deliver m vl first body
    | none => s.deliver m vl first body

/-- A received flit (R266, R272, R277, R431). -/
def execFlitReceived (m : Fin 144) (f : RxFlit) (s : State) : Host.Outcome State Fault Refusal :=
  .next (s.flitReceived m f fun vl first body s => s.bulkFlit m vl first body)

/-- No flit of the stream for 10 ms before the trailer (R432). -/
def execBroadcastGapTimeout (s : State) : Host.Outcome State Fault Refusal :=
  .next <|
  match s.config.load with
  | some l => if s.fullRuns && l.slot = 0xFE && !l.checked && s.ran .bcastFlit 0 10000000 then s.loadFailed l (12, 0) else s
  | none => s

/-- A broadcast of this device ends with nothing sent (R430). -/
def State.dropBroadcast (s : State) (st : Status) : State :=
  ((s.setConfig fun c => { c with sending := none }).raise 225).completeOn 0x0305 0 st []

/-- A member's answer to the poll reaches the sender (R430). -/
def execBroadcastAnswerReceived (r : Fin 2) (m : Fin 32) (accept : Bool) (s : State) : Host.Outcome State Fault Refusal :=
  .next <|
  match s.config.sending with
  | none => s
  | some b =>
    if b.streaming || b.ring != r.val || !(s.otherMembers r).contains m.val then s
    else if accept then s.beginStream { b with accepted := if b.accepted.contains m.val then b.accepted else b.accepted ++ [m.val] }
    else s.dropBroadcast .BUSY

/-- A member has not answered the poll within 10 ms (R430). -/
def execBroadcastPollTimeout (s : State) : Host.Outcome State Fault Refusal :=
  .next <|
  match s.config.sending with
  | some b => if b.streaming || !s.ran .poll 0 10000000 then s else s.dropBroadcast .NO_ANSWER
  | none => s

end Sys2Proof.Machine
end

