-- ==== Sys2Proof/Machine/ConfigServices.lean ====
section
/-! DEFINITION. The CONFIG services (R384, R407, R422, R423, R430) and the erases of the internal memory (R433..R437). -/

namespace Sys2Proof.Machine

/-! ### CONFIG services -/

/-- The slot table as CONFIG.SLOTS returns it (R384). -/
def State.slotTable (s : State) : List Byte :=
  slotNumbers.flatMap fun n => le 4 n ++ [BitVec.ofNat 8 (s.slotKind n), BitVec.ofNat 8 (b2n (s.slot n).valid), 0, 0]

/-- CONFIG.SLOTS. -/
def execConfigSlots (L : Letter) (s : State) : Host.Outcome State Fault Refusal :=
  .next (s.serve L ⟨.anyOwner, false, false, fixedLen 0⟩ false fun _ s => okBody s L s.slotTable)

/-- The slot of the firmware copy that runs. -/
def State.runningCopy (s : State) : Nat := if s.on .PST_FW_STAT_COPY 0 then 4 else 3

/-- A region now in force was loaded from the slot (R422). -/
def State.slotInForce (s : State) (n : Nat) : Bool := s.config.sources.any fun e => e.2 == n + 1

/-- The largest image that a slot takes, in bytes (R405, R408). -/
def slotBytes (n : Nat) : Nat := (slotBlocks n).2 * 2 ^ 18

/-- Starts erases of a write's slot while fewer than 8 blocks are erased at once (R404). -/
def State.feedErases : Nat → State → NvmWrite → State
  | 0, s, w => s.setConfig fun c => { c with write := some w }
  | k + 1, s, w =>
    let b := slotBlocks w.slot
    if 8 ≤ s.config.erasing.length || b.2 ≤ w.next then s.setConfig fun c => { c with write := some w }
    else State.feedErases k ((s.startErase (b.1 + w.next)).1) { w with next := w.next + 1 }

/-- Steps 1 and 2 of R422: the slot is marked not VALID, and the erase of its blocks begins. -/
def State.beginWrite (s : State) (slot length : Nat) : State :=
  let s := (s.setSlot slot { s.slot slot with valid := false, writes := (s.slot slot).writes + 1 }).directory
  s.feedErases 8 ⟨slot, length, 0⟩

/-- CONFIG.WRITE's checks: the slot and its length, where the image lies, and who may be written. -/
def svcConfigWrite (L : Letter) : Service := fun b s =>
  let slot := rd b 0 4
  let length := rd b 4 4
  let line := rd b 8 8
  if !slotNumbers.contains slot || length = 0 || slotBytes slot < length || 2 ^ 32 * 64 < line * 64 + length then refuse s L .BAD_PARAM
  else if s.oneRuns then refuse s L .BUSY
  else if slot = 0 || slot = s.runningCopy || s.slotInForce slot then refuse s L .DENIED
  else if s.slotReadOnly slot then refuse s L .NO_RESOURCE
  else accepted s L 0 [slot, length]

/-- CONFIG.WRITE. -/
def execConfigWrite (L : Letter) (s : State) : Host.Outcome State Fault Refusal :=
  .next (s.serveThen L ⟨.admin, false, false, fixedLen 16⟩ false (svcConfigWrite L) fun o s => s.beginWrite (o.args.getD 0 0) (o.args.getD 1 0))

/-- A block's program fails its verification (R436): its valid pages are copied to a spare, and the page is written there; with no spare left the area
becomes read-only (R437). -/
def State.reprogram (s : State) (b : Nat) : State :=
  if s.fld .CFG_NVM_STAT_SPARES 0 = 0 then s.areaReadOnly b else (s.retire b).program b

/-- The KIND of the image that a slot takes, and the TARGET that suits it (R407, R414). -/
def slotImage (n : Nat) (f : ImageFacts) : Nat × Nat :=
  if n ≤ 2 then (1, 0xFF) else if n ≤ 4 then (4, 0xFF) else (2, f.target % 40)

/-- Steps 3 to 5 of R422: the image is programmed, read back and checked; the slot is VALID where every check but 0x0D passes. `opcode`: the service
that completes. -/
def State.finishWrite (s : State) (w : NvmWrite) (f : ImageFacts) (opcode : Nat) : State :=
  let b := slotBlocks w.slot
  let s := s.each (List.range ((w.length + 2 ^ 18 - 1) / 2 ^ 18)) fun k s => s.program (b.1 + k)
  let s := s.each ((f.unprogrammed.map (·.toNat)).filter fun k => decide (b.1 ≤ k) && decide (k < b.1 + b.2)) fun k s => s.reprogram k
  let kind := slotImage w.slot f
  let old := s.slot w.slot
  let x := (s.setSlot w.slot { old with valid := true }).imageFails w.slot kind.1 kind.2 f false
  let s := (s.readImage w.slot f).setConfig fun c => { c with write := none }
  match x with
  | some x => (s.recordFail w.slot x).completeOn opcode 0 .INTEGRITY []
  | none =>
    let rec' : NvmSlot := { old with valid := true, length := f.length, design := f.design, version := f.version, key := f.key, broadcast := f.broadcast }
    ((s.setSlot w.slot rec').directory).completeOn opcode 0 .OK []

/-- Every block of a write's slot has been erased (R422 step 2), and no erase of the slot runs. -/
def State.slotErased (s : State) (w : NvmWrite) : Bool :=
  let b := slotBlocks w.slot
  decide (b.2 ≤ w.next) && s.config.erasing.all fun e => e < b.1 || b.1 + b.2 ≤ e

/-- A slot write is read back and checked. -/
def execConfigWriteComplete (f : ImageFacts) (s : State) : Host.Outcome State Fault Refusal :=
  .next <|
  match s.config.write with
  | some w => if s.slotErased w then s.finishWrite w f (if w.slot = 0 then 0x1108 else 0x0302) else s
  | none => s

/-- CONFIG.SELECT (R407): a VALID full slot is recorded in the directory. -/
def svcConfigSelect (L : Letter) : Service := fun b s =>
  let n := rd b 0 4
  if (n = 1 || n = 2) && (s.slot n).valid then okBody ((s.setConfig fun c => { c with selected := n ^^^ 1 }).directory) L []
  else refuse s L .BAD_PARAM

/-- CONFIG.SELECT. -/
def execConfigSelect (L : Letter) (s : State) : Host.Outcome State Fault Refusal :=
  .next (s.serve L ⟨.admin, false, false, fixedLen 4⟩ false (svcConfigSelect L))

/-- The first channel that is not IDLE, as a handle. -/
def State.busyChannel (s : State) : Option Nat := (s.chanList.find? fun c => (s.chan c).state != 0).map (s.handleOf kChannel ·)

/-- CONFIG.RELOAD (R379, R384, R423). -/
def svcConfigReload (L : Letter) : Service := fun b s =>
  let n := rd b 0 4
  if !slotNumbers.contains n then refuse s L .BAD_PARAM
  else if s.oneRuns then refuse s L .BUSY
  else match s.busyChannel with
    | some h => refuseHeld s L h
    | none => accepted s L 0 [n]

/-- CONFIG.RELOAD: the load follows a fabric reset; a device that waits in HOST_WAIT loads the slot named. -/
def execConfigReload (L : Letter) (s : State) : Host.Outcome State Fault Refusal :=
  .next (s.serveThen L ⟨.admin, false, false, fixedLen 4⟩ false (svcConfigReload L) fun o s => s.askLoad (o.args.getD 0 0) true)

/-- CONFIG.BROADCAST. -/
def execConfigBroadcast (L : Letter) (s : State) : Host.Outcome State Fault Refusal := .next (s.broadcastLetter L)

/-! ### Erases (R433..R437) -/

/-- The firmware goes on with marked erases, without raising ERASES again, while fewer than 8 blocks are erased (R404, R435). -/
def State.resumeMarked (s : State) : State :=
  let l := s.marked.take (8 - s.config.erasing.length)
  if l.isEmpty then s else (s.setConfig fun c => { c with erasing := c.erasing ++ l }).showErase

/-- An erase that the logbook's writer waits for has ended (R539). -/
def State.logErased (s : State) (b : Nat) : State :=
  if 212 ≤ b && b < 276 then ({ s with evt := { s.evt with erasing := false } }).setWaiting else s

/-- A block's erase is finished: what waits for an erase goes on. -/
def State.eraseEnded (s : State) (b : Nat) : State :=
  let s := (s.setConfig fun c => { c with erasing := c.erasing.filter (· != b) }).showErase
  let s := s.logErased b
  match s.config.write with
  | some w => s.feedErases 8 w
  | none => s.when (s.on .PST_FW_STAT_READY 0) (·.resumeMarked)

/-- A block is erased and verified: ERASED. A block that fails its verification is retired, and a spare is erased in its place (R433, R436); with no spare
left its area is read-only (R437). -/
def execNvmEraseDone (b : Fin 4014) (verified : Bool) (s : State) : Host.Outcome State Fault Refusal :=
  .next <|
  if !s.config.erasing.contains b.val then s
  else if verified then (s.setBlock b { s.block b with state := 0 }).eraseEnded b
  else if b.val < 4 then s.eraseEnded b
  else if s.fld .CFG_NVM_STAT_SPARES 0 = 0 then (s.areaReadOnly b).eraseEnded b
  else
    let s := (s.setConfig fun c => { c with erasing := c.erasing.filter (· != b.val) }).retire b
    (s.startErase b).1

/-- An erase resumes once its plane has had no pending read for 50 µs (R434). -/
def execNvmEraseResume (s : State) : Host.Outcome State Fault Refusal :=
  .next (s.put .CFG_NVM_STAT_SUSPENDED 0 0)

end Sys2Proof.Machine
end

