-- ==== Sys2Proof/Machine/Islands.lean ====
section
/-! DEFINITION. Clock islands and crossings (chapter 04): heartbeats (R83, R84), freezes (R88..R90), resynchronisation (R93, R94), poison (R95, R96),
accesses that waited for a domain (R97), the release of an island reset (R493), and the lock of an octet's PLL (R238). -/

namespace Sys2Proof.Machine

/-! ### Heartbeats -/

/-- Domain `d` stops (R84). -/
def execDomainStopped (d : Fin 25) (s : State) : Host.Outcome State Fault Refusal := .next (s.stopDomain d)

/-- Domain `d` runs again (R84), and the accesses that waited complete as if it had run throughout (R97). -/
def execDomainRunning (d : Fin 25) (s : State) : Host.Outcome State Fault Refusal :=
  .next (if s.runs d then s else (s.startDomain d).serveWaiting d)

/-! ### Freezes -/

/-- A receiver samples a published copy at an edge of its clock and compares it with the sample before: it accepts the value at the first agreement, and
after the third disagreement in a row raises a freeze, under which the publisher keeps its copy until the acceptance (R88, R89). A receiver without its clock
takes no sample. -/
def execFreezeRequest (x : Published) (r : Receiver) (s : State) : Host.Outcome State Fault Refusal := .next (s.sampled x r.side r.mix)

/-- A freeze has been in force for 1 µs: the publisher ends it and tells the receiver by a return toggle (R90). -/
def execFreezeTimeout (x : Published) (r : Fin 26) (s : State) : Host.Outcome State Fault Refusal :=
  .next <|
  let c := s.sampler x r
  if c.frozen && c.since + 1000 ≤ s.clock then s.setSampler x r { c with frozen := false, thawed := true } else s

/-! ### Resynchronisation (R93) -/

/-- A reset asserted at one end of a crossing queue (step 1). -/
def execCrossingResetAssert (d : Fin 25) (domainEnd : Bool) (s : State) : Host.Outcome State Fault Refusal :=
  .next ((s.crossAssert d domainEnd).when (d.val == 22) (·.refreshPins))

/-- The live end sees the indication (step 2): it discards every entry of both queues, counts them once (R94) and releases a poison token to each listed
receiver (R95), `discarded` and `targets` being those that the model does not hold. While both ends are in reset there is no live end, and the step
waits for the first release. The sequence waits while the live end's domain is stopped. The accesses that waited for the stopped domain, and requests
that a stack had accepted, end with poison (R95..R97). -/
def execCrossingResetSeen (d : Fin 25) (discarded : Fin 65) (targets : List PoisonTo) (s : State) : Host.Outcome State Fault Refusal :=
  .next <|
  let c := s.crossing d
  if c.step ≠ .asserted || (c.domainReset && c.clocklessReset) || (c.liveDomain && !s.runs d) then s
  else
    let s := (s.poisonWaiting d c.cause).when (decide (d.val < 18)) (·.poisonStreams d c.cause)
    let s := s.when (decide (18 ≤ d.val) && decide (d.val < 22)) (·.resetHome (d - 18) c.cause)
    let c' : Crossing := { s.crossing d with step := .discarded, counted := true, domainLive := c.liveDomain }
    let s := s.setCrossing d c'.request
    if c.counted then s else s.release d c.cause 0 discarded targets

/-- A reset released at one end of a crossing queue (step 3). -/
def execCrossingResetRelease (d : Fin 25) (domainEnd : Bool) (s : State) : Host.Outcome State Fault Refusal :=
  .next (s.crossRelease d domainEnd)

/-- The live end sees the request (step 4): it zeroes its pointers and acknowledges. A live domain does so while it runs. -/
def execCrossingResyncSeen (d : Fin 25) (s : State) : Host.Outcome State Fault Refusal :=
  .next <|
  let c := s.crossing d
  if c.step = .requested && (!c.domainLive || s.runs d) then s.setCrossing d { c.zeroed with step := .acknowledged } else s

/-- The released end sees the acknowledgement (step 5): both queues open empty, HELD clears, the island reset that was asked for ends with source 3
(R493), and what waited in the interconnect is delivered. -/
def State.crossOpen (s : State) (d : Nat) : State :=
  let s := (s.setCrossing d ⟨.opened, false, false, false, 1, false, .zero, .zero⟩).putBit .DEV_ISL_HELD_HELD 0 d false
  let s := s.when (bitOf (s.fld .DEV_ISL_RST_RST 0) d) fun s => (s.putBit .DEV_ISL_RST_RST 0 d false).raise 3
  ((s.when (decide (18 ≤ d) && decide (d < 22)) (·.openMsgs (d - 18))).when (d == 22) (·.refreshPins)).serveWaiting d

/-- The released end sees the acknowledgement. A released domain does so while it runs. -/
def execCrossingResyncAck (d : Fin 25) (s : State) : Host.Outcome State Fault Refusal :=
  .next <|
  let c := s.crossing d
  if c.step = .acknowledged && (c.domainLive || s.runs d) then s.crossOpen d else s

/-- A read of DEV_XDROP[d] returns and clears both counts (R94). -/
def execDevXdropRead (p : Port) (d : Fin 25) (s : State) : Host.Outcome State Fault Refusal :=
  .next (s.access p .DEV_XDROP d false 0 (·.readClear p .DEV_XDROP d))

/-! ### The release of an island reset (R124, R313, R365, R493) -/

/-- What follows as the reset of domain `d` is released: the enabled links of an octet enter DETECT (R283), the cores start the firmware copy in force, a home asks its
agents, and the axes are LOST. -/
def State.released (s : State) (d : Nat) : State :=
  if d < 18 then
    s.each ((octetLanes d).filter fun m => decide (m < 144) && s.on .LNK_CTL_EN m && s.fld .LNK_STAT_STATE m == 0) fun m s => s.detect m
  else if d = 22 then s.put .PST_FW_STAT_CORES 0 0xF
  else if d < 22 then s.resyncHome (d - 18)
  else s.when (d == 23) (·.timebaseReturn)

/-- An island reset of domain `d` has been asserted for 1 µs. An octet that is off stays held. -/
def execIslandResetRelease (d : Fin 25) (s : State) : Host.Outcome State Fault Refusal :=
  .next <|
  if !bitOf (s.fld .DEV_ISL_RST_RST 0) d || !(s.crossing d).domainReset || (d.val < 18 && !s.on .DEV_OCT_CTL_EN d) ||
      !s.ran .island d 1000 then s
  else (s.crossRelease d true).released d

/-! ### Octets (R236, R238, R246) -/

/-- The PLL of octet `k` locks: LOCK is set, the domain runs and resynchronises, and enabled lanes come out of the reset that the loss of the clock made.
Octet 1 follows octet 0 while the endpoint is ×16 wide. -/
def execOctetPllLock (k : Fin 18) (lost : List Lost) (s : State) : Host.Outcome State Fault Refusal :=
  .next <|
  if !s.on .DEV_OCT_CTL_EN k || s.on .DEV_OCT_STAT_LOCK k then s
  else
    let held := (s.crossing k).domainReset
    let s := ((s.put .DEV_OCT_STAT_LOCK k 1).put .DEV_OCT_STAT_REF_OK k 1).showFollow
    let s := s.when (!held) (·.resetLanes k lost fun l => s.laneOn l)
    (((s.startDomain k).crossRelease k true).when held (·.released k)).serveWaiting k

end Sys2Proof.Machine
end

