-- ==== Sys2Proof/Machine/Leases.lean ====
section
/-! DEFINITION. Series and leases (R224..R229), the audit log's flush (R231) and reconciliation (R232); the LEASE services (R397). -/

namespace Sys2Proof.Machine

/-! ### Series (R224) -/

/-- A series of a SERIES_DEFINE body with its defaults (R224). -/
def bodySeries (b : List Byte) : Series :=
  let size := if rd b 40 4 = 0 then 65536 else rd b 40 4
  { id := rd b 0 4, ring := rd b 4 1, first := rd b 8 8, limit := rd b 16 8, proofFirst := rd b 24 8, proofLimit := rd b 32 8, size := size,
    low := if rd b 44 4 = 0xFFFFFFFF then size / 4 else rd b 44 4, step := if rd b 48 4 = 0 then 1024 else rd b 48 4,
    high := rd b 8 8, proofNext := rd b 24 8 }

/-- The limits of R224. -/
def goodSeries (b : List Byte) : Bool :=
  let x := bodySeries b
  decide (x.ring ≤ 2) && zeros b 5 3 && zeros b 52 4 && decide (x.first < x.limit) && decide (x.proofFirst < x.proofLimit) &&
    (decide (x.limit ≤ x.proofFirst) || decide (x.proofLimit ≤ x.first)) && decide (x.size ≤ 2 ^ 20) && decide (x.low ≤ x.size) &&
    ([64, 128, 256, 512, 1024, 2048, 4096] : List Nat).contains x.step

/-- LEASE.SERIES_DEFINE (R224, R437). -/
def svcLeaseSeriesDefine (L : Letter) : Service := fun b s =>
  let x := bodySeries b
  if !goodSeries b then refuse s L .BAD_PARAM
  else if !s.quorate x.ring then refuse s L .NO_QUORUM
  else if (s.seriesBy x.ring x.id).isSome then refuse s L .BUSY
  else if s.journalReadOnly then refuse s L .NO_RESOURCE
  else
    let s := s.journal.setLease fun l => { l with series := l.series ++ [x] }
    okBody (s.ringSend x.ring 2 [x.id, x.first, x.limit, x.proofFirst, x.proofLimit, x.size, x.low, x.step]) L []

/-- LEASE.SERIES_DEFINE. -/
def execLeaseSeriesDefine (L : Letter) (s : State) : Host.Outcome State Fault Refusal :=
  .next (s.serve L ⟨.anyOwner, false, false, fixedLen 56⟩ false (svcLeaseSeriesDefine L))

/-- The open index of a series' place. -/
def State.openSeriesOf (s : State) (k : Nat) : Option Nat := (s.lease.openSeries.find? fun e => e.2 == k + 1).map (·.1)

/-- LEASE.SERIES_OPEN (R224): a series that is open has one handle. Where an identifier is defined on more than one ring, ring A's series is opened, then ring
B's, then the local one: no rule says which (DESIGN CHOICE, assumption 94). -/
def svcLeaseSeriesOpen (L : Letter) : Service := fun b s =>
  match s.seriesBy 0 (rd b 0 4) <|> s.seriesBy 1 (rd b 0 4) <|> s.seriesBy 2 (rd b 0 4) with
  | none => refuse s L .BAD_PARAM
  | some k => match s.openSeriesOf k with
    | some i => (s, ⟨.OK, s.handleOf kSeries i, 0, []⟩)
    | none => match s.nextIndex kSeries with
      | none => refuse s L .NO_RESOURCE
      | some i =>
        let s := (s.createAt kSeries i L.mailbox).setLease fun l => { l with openSeries := Tbl.set 0 l.openSeries i (k + 1) }
        (s, ⟨.OK, s.handleOf kSeries i, 0, []⟩)

/-- LEASE.SERIES_OPEN. -/
def execLeaseSeriesOpen (L : Letter) (s : State) : Host.Outcome State Fault Refusal :=
  .next (s.serve L ⟨.anyOwner, false, false, fixedLen 4⟩ false (svcLeaseSeriesOpen L))

/-! ### Leases (R226, R227) -/

/-- Requests that waited for one of their series go on (R378). -/
def State.pumpLeases (s : State) : State :=
  s.each s.lease.queued fun e s =>
    if (s.reqOf e.2.1).isSome then s
    else (s.setLease fun l => { l with queued := l.queued.erase e }).startLease e.2.1 e.2.2 (some e.1)

/-- LEASE.REQUEST (R226, R227): its reply comes with the lease, or with what refuses it. -/
def State.leaseRequest (s : State) (L : Letter) (b : List Byte) : State × Option Reply :=
  let h := L.handle.toNat
  let no := fun (x : Status) => (s, some (plain L x))
  match s.checkHandle kSeries h with
  | some st => no st
  | none => match Tbl.find 0 s.lease.openSeries (hIndex h) with
    | 0 => no .STALE_HANDLE
    | k + 1 => match s.lease.series[k]? with
      | none => no .STALE_HANDLE
      | some x =>
        let n := if rd b 0 4 = 0 then x.size else rd b 0 4
        if 2 ^ 20 < n then no .BAD_PARAM
        else if !s.quorate x.ring then no .NO_QUORUM
        else (s.setLease fun l => { l with queued := l.queued ++ [(L, k, n)] }, none)

/-- LEASE.REQUEST. -/
def execLeaseRequest (L : Letter) (s : State) : Host.Outcome State Fault Refusal :=
  .next (s.serveLate L ⟨.anyOwner, false, false, fixedLen 4⟩ (fun _ => none) fun b s => s.leaseRequest L b).pumpLeases

/-- A member receives a proposal (R226 step 2). It answers on both ports and passes nothing on: the rules give forwarding for roll-calls and stops alone
(DESIGN CHOICE, assumption 70). -/
def execLeaseProposalReceived (r : Fin 2) (series : BitVec 32) (base : BitVec 64) (count : BitVec 32) (s : State) :
    Host.Outcome State Fault Refusal :=
  .next <|
  match s.seriesBy r series.toNat with
  | none => s
  | some k =>
    let h := ((s.lease.series[k]?).map (·.high)).getD 0
    let own := s.fld .LNK_RING_CTL_MEMBER r
    if !s.takesPart r then s
    else if h ≤ base.toNat then (s.raiseHigh k (base.toNat + count.toNat)).ringSend r 4 [own, series.toNat, base.toNat, 1, base.toNat + count.toNat]
    else s.ringSend r 4 [own, series.toNat, base.toNat, 0, h]

/-- A member's answer to the proposal on its way (R226 steps 3 and 4): an acknowledgement adds its weight, a refusal its high mark. -/
def execLeaseAckReceived (r : Fin 2) (m : Fin 32) (series : BitVec 32) (base : BitVec 64) (ack : Bool) (high : BitVec 64) (s : State) :
    Host.Outcome State Fault Refusal :=
  .next <|
  match (s.seriesBy r series.toNat).bind s.reqOf with
  | none => s
  | some q =>
    if !s.takesPart r || q.waiting || q.base != base.toNat || q.acked.contains m then s
    else if ack then
      let q := { q with acked := q.acked ++ [m.val] }
      let s := s.setLease fun l => { l with reqs := updReq q.series (fun _ => q) l.reqs }
      if s.majority r q.acked then (s.grantLease q).pumpLeases else s
    else s.setLease fun l => { l with reqs := updReq q.series (fun _ => { q with high := max q.high high.toNat }) l.reqs }

/-- The request of a series that a ring member or the clock names. -/
def State.reqBy (s : State) (ring : Nat) (series : BitVec 32) : Option LeaseReq := (s.seriesBy ring series.toNat).bind s.reqOf

/-- 10 ms pass without a majority (R226 step 4): SKIPPED where a member acknowledged; after three attempts NO_QUORUM. -/
def execLeaseProposalTimeout (ring : Fin 3) (series : BitVec 32) (s : State) : Host.Outcome State Fault Refusal :=
  .next <|
  match s.reqBy ring series with
  | none => s
  | some q =>
    if q.waiting || !s.ran .proposal q.series 10000000 then s
    else
      let s := if q.acked.isEmpty then s else s.audit q.series 0x12 q.base q.count 0 0 0
      if 3 ≤ q.tries then (s.refuseLease q.series q.letter .NO_QUORUM).pumpLeases
      else (s.setLease fun l => { l with reqs := updReq q.series (fun q => { q with waiting := true }) l.reqs }).startTimer .retry q.series

/-- The back-off of 1 + (UID mod 4) ms ends (R226 step 4). -/
def execLeaseRetry (ring : Fin 3) (series : BitVec 32) (s : State) : Host.Outcome State Fault Refusal :=
  .next <|
  match s.reqBy ring series with
  | some q => if q.waiting && s.ran .retry q.series (1000000 * (1 + s.uid % 4)) then (s.propose q).pumpLeases else s
  | none => s

/-- A refused automatic request is repeated every 100 ms (R226). -/
def execLeaseAutoRetry (ring : Fin 3) (series : BitVec 32) (s : State) : Host.Outcome State Fault Refusal :=
  .next <|
  match s.seriesBy ring series.toNat with
  | some k => if s.lease.refusing.contains k && s.ran .refused k 100000000 then s.autoLease k else s
  | none => s

/-- A lease ends (R227): its unused identifiers are recorded LEASE_RETIRED and never drawn. -/
def State.retireLease (s : State) (x : Lease) : State :=
  let s := s.each x.returned fun i s => s.audit x.series 0x11 i 1 0 0 0
  let s := if x.next < x.first + x.count then s.audit x.series 0x11 x.next (x.first + x.count - x.next) 0 0 0 else s
  (s.journal.setLease fun l => { l with leases := l.leases.filter (·.idx != x.idx) }).destroy kLease x.idx

/-- LEASE.RETIRE. -/
def svcLeaseRetire (L : Letter) : Service := fun _ s =>
  match s.checkHandle kLease L.handle.toNat with
  | some st => refuse s L st
  | none => match s.lease.leases.find? (·.idx == hIndex L.handle.toNat) with
    | none => refuse s L .STALE_HANDLE
    | some x => okBody ((s.retireLease x).lowWater x.series) L (le 8 x.unused)

/-- LEASE.RETIRE. -/
def execLeaseRetire (L : Letter) (s : State) : Host.Outcome State Fault Refusal :=
  .next (s.serve L ⟨.anyOwner, false, false, fixedLen 0⟩ false (svcLeaseRetire L))

/-- LEASE.QUERY (R397): a series or a lease. -/
def svcLeaseQuery (L : Letter) : Service := fun _ s =>
  let h := L.handle.toNat
  if h / 2 ^ 28 = kLease then
    match s.checkHandle kLease h with
    | some st => refuse s L st
    | none => match s.lease.leases.find? (·.idx == hIndex h) with
      | none => refuse s L .STALE_HANDLE
      | some x => okBody s L (le 8 x.first ++ le 8 x.count ++ le 8 x.mark ++ le 8 x.unused)
  else match s.checkHandle kSeries h with
    | some st => refuse s L st
    | none =>
      let k := Tbl.find 0 s.lease.openSeries (hIndex h) - 1
      match s.lease.series[k]? with
      | none => refuse s L .STALE_HANDLE
      | some x => okBody s L (le 8 x.high ++ le 4 (s.lease.leases.filter (·.series == k)).length ++ le 4 0 ++ le 8 x.proofNext ++ le 8 (s.unused k))

/-- LEASE.QUERY. -/
def execLeaseQuery (L : Letter) (s : State) : Host.Outcome State Fault Refusal :=
  .next (s.serve L ⟨.anyOwner, true, true, fixedLen 0⟩ false (svcLeaseQuery L))

/-! ### Audit and reconciliation (R231, R232) -/

/-- A log's volume is online (R231). -/
def State.logOnline (s : State) (log : Nat) : Bool :=
  match log / 2 with
  | 0 => false
  | u + 1 => match s.vol u with
    | some x => x.state == 0
    | none => false

/-- Staged records are written to the volumes that are online (R231). -/
def State.flushAudit (s : State) : State :=
  let go := s.lease.staged.filter fun a => s.logOnline a.log
  (s.setLease fun l => { l with
    staged := l.staged.filter (fun a => !s.logOnline a.log)
    flushed := l.flushed + go.length
    flushedTag := go.foldl (fun t a => Tbl.set 0 t a.log a.tag) l.flushedTag }).each go fun a s => s.emit (.auditRecord (a.log / 2 - 1) a.bytes)

/-- The 100 ms flush; where it fails the records stay, with source 217 (R231, R403). A KEY.AUDIT_ROTATE completes once its RESTART records are flushed
(R508). -/
def execAuditFlush (ok : Bool) (s : State) : Host.Outcome State Fault Refusal :=
  .next <|
  if (s.lease.staged.filter fun a => s.logOnline a.log).isEmpty then s
  else if !ok then s.raise 217
  else
    let s := s.flushAudit
    if s.lease.staged.any (·.kind == 0x17) then s else s.completeOn 0x1103 0 .OK []

/-- LOG.AUDIT_BIND (R402): the volume of a handle becomes the audit volume of a series; BUSY while another is bound whose staged records are not all
flushed. What was staged for the series while none was bound goes to it. -/
def svcLogAuditBind (L : Letter) : Service := fun b s =>
  let h := L.handle.toNat
  let v := rd b 0 4
  match s.checkHandle kSeries h <|> s.checkOwned kVolume v L.mailbox with
  | some st => refuse s L st
  | none => match s.openAt (hIndex v), Tbl.find 0 s.lease.openSeries (hIndex h) with
    | some o, k + 1 =>
      let audit := o.write && (s.vol o.uid).any (·.kind == 3)
      let old := Tbl.find 0 s.lease.auditVol k
      if !audit then refuse s L .BAD_PARAM
      else if old != 0 && old != o.uid + 1 && s.lease.staged.any (fun a => a.log / 2 == old) then refuse s L .BUSY
      else okBody ((s.setLease fun l => { l with auditVol := Tbl.set 0 l.auditVol k (o.uid + 1) }).stageUnbound k) L []
    | _, _ => refuse s L .STALE_HANDLE

/-- LOG.AUDIT_BIND. -/
def execLogAuditBind (L : Letter) (s : State) : Host.Outcome State Fault Refusal :=
  .next (s.serve L ⟨.anyOwner, false, false, fixedLen 4⟩ false (svcLogAuditBind L))

/-- A member's held lease overlaps the device's own (R232): the overlapping lease is retired, with CONFLICT and source 214. -/
def State.checkOverlap (s : State) (r : Nat) (e : BitVec 32 × BitVec 64 × BitVec 32) : State :=
  match s.seriesBy r e.1.toNat with
  | none => s
  | some k =>
    let a := e.2.1.toNat
    let n := e.2.2.toNat
    s.each (s.lease.leases.filter fun x => x.series == k && decide (x.first < a + n) && decide (a < x.first + x.count)) fun x s =>
      (((s.retireLease x).audit k 0x16 x.first x.count 0 0 0).raise 214).lowWater k

/-- What the device sends of its series and leases (R232). -/
def State.reconcileWords (s : State) (r : Nat) : List Nat :=
  (s.lease.series.filter (·.ring == r)).flatMap (fun x => [x.id, x.high, x.first, x.limit, x.proofFirst, x.proofLimit, x.size, x.low, x.step]) ++
    s.lease.leases.flatMap fun x => match s.lease.series[x.series]? with
      | some y => if y.ring = r then [y.id, x.first, x.count] else []
      | none => []

/-- A member becomes reachable, and the two sides reconcile (R232): definitions, high marks and held leases. -/
def execReconcile (r : Fin 2) (defs : List SeriesDef) (highs : List (BitVec 32 × BitVec 64)) (leases : List (BitVec 32 × BitVec 64 × BitVec 32))
    (s : State) : Host.Outcome State Fault Refusal :=
  .next <|
  if !s.takesPart r then s
  else
    let s := s.ringSend r 5 (s.reconcileWords r)
    let s := s.each defs fun d s => s.learnSeries r d
    let s := s.each highs fun e s => match s.seriesBy r e.1.toNat with
      | some k => s.raiseHigh k e.2.toNat
      | none => s
    s.each leases fun e s => s.checkOverlap r e

end Sys2Proof.Machine
end

