-- ==== Sys2Proof/Machine/PowerOps.lean ====
section
/-! DEFINITION. The power states (R472..R478): ACTIVE, QUIET, entry to and exit from STANDBY, and entry to HIBERNATE. -/

namespace Sys2Proof.Machine

/-- Sets power. -/
def State.setPower (s : State) (g : PowerState → PowerState) : State := { s with power := g s.power }

/-- The device arrives in a power state (R473): VSET of every region follows its upper limit. -/
def State.arrive (s : State) (st : Nat) : State :=
  let s := (s.put .PWR_STATE_STATE 0 st).put .PWR_STATE_BUSY 0 0
  (s.each (List.range 40) fun n s => s.setVset n (s.fld .PWR_RGN_STAT_VSET n)).raise 12

/-! ### STANDBY (R474, R476) -/

/-- Step 4 of R474 for one region: a WOKEN region that RETAIN names stays so; any other leaves WOKEN, is reset and
loses the contents of its KEEP memories with its power (R75). -/
def State.standbyRegion (s : State) (retain n : Nat) : State :=
  if !s.woken n then s.resetRegion n true
  else if bitOf retain n then s.put .PWR_RGN_STAT_RETAINED n 1
  else ((s.isolate n 2).each (s.chansOnRegion n) fun c s => s.inhibit c 5).resetRegion n true

/-- Every octet that is enabled stops (R474 step 5). -/
def State.octetsDown (s : State) : State :=
  s.each ((List.range 18).filter fun k => s.on .DEV_OCT_CTL_EN k) fun k s => s.octetDown k []

/-- Entry to STANDBY (R312, R474): heater outputs low, caches written back and directories emptied, the logbook's queue lost (R541), banks held, regions that are not retained reset, octets and stack domains stopped. -/
def State.enterStandby (s : State) (retain : Nat) : State :=
  let entry := s.axisPm (s.fld .PWR_WAKE_CTL_AXIS 0)
  let reopen := (List.range 40).filter fun n => s.woken n && !bitOf retain n && s.holdsImage n
  let s := (((((s.heatersLow).writeBackCaches (List.range 20)).emptyDirs).flushMeta).loseQueue true).each (List.range 4) fun k s =>
    s.put .MEM_STK_STAT_SELF_REFRESH k 1
  let s := ({ s with pins := { s.pins with standby := true } }).each (List.range 12) fun b s => s.holdBank b
  let s := s.each (List.range 40) fun n s => s.standbyRegion retain n
  let s := s.setPower fun p => { p with entry := entry, reopen := reopen }
  let s := (s.octetsDown).each [18, 19, 20, 21] fun d s => s.stopDomain d
  ((s.setConfig fun c => { c with scrub := 0 }).put .CFG_SCRUB_STAT_RUNNING 0 0).arrive 2

/-- A bank's HOLD at the exit from STANDBY (R476 step 4): released where its supply lies within its window; a range change under way goes on; otherwise
the bank waits as R147 has it. -/
def State.releaseBank (s : State) (b : Nat) : State :=
  if s.pins.changing.contains b then s
  else if (s.on .PWR_MON_UV (20 + b) || s.on .PWR_MON_OV (20 + b)) && s.fld .PIN_BANK_CTL_RANGE b != 7 then s.beginRange b
  else s.releaseHold b

/-- The exit from STANDBY is done (R476 step 5). -/
def State.wakeDone (s : State) : State := (s.each (List.range 40) fun n s => s.put .PWR_RGN_STAT_RETAINED n 0).arrive 0

/-- A bank's supply is still outside its window, so that its HOLD is not released (R147, R476 step 4). -/
def State.banksWait (s : State) : Bool := s.pins.changing.any fun b => s.fld .PIN_BANK_CTL_RANGE b != 7

/-- The exit from STANDBY ends once every region has been restored and every bank's HOLD is released (R476 step 5). -/
def State.wakeOn (s : State) : State :=
  if s.fld .PWR_STATE_STATE 0 == 2 && s.on .PWR_STATE_BUSY 0 && s.power.reopen.isEmpty && !s.banksWait then
    (s.wakeDone).completeAll 0x0201 0 .OK []
  else s

/-- The exit from STANDBY (R476): stack domains run again, HOLD ends, and regions that were reset at entry restore and wake; octets lock as commands of
their own. -/
def State.leaveStandby (s : State) (cause : Nat) : State :=
  let s := ((s.put .PWR_STATE_WAKE 0 cause).put .PWR_STATE_BUSY 0 1).raise 12
  let s := s.each [18, 19, 20, 21] fun d s => (s.startDomain d).serveWaiting d
  let s := ({ s with pins := { s.pins with standby := false } }).each (List.range 12) fun b s => s.releaseBank b
  let l := s.power.reopen
  let s := s.each l fun n s => (s.beginRestore n).setConfig fun c => { c with waking := c.waking.filter (· != n) ++ [n] }
  s.wakeOn

/-- A region that the exit from STANDBY restores has been restored; with the last the exit may be done. -/
def State.reopened (s : State) (n : Nat) : State :=
  if s.power.reopen.contains n && s.fld .PWR_STATE_STATE 0 == 2 && s.on .PWR_STATE_BUSY 0 then
    (s.setPower fun p => { p with reopen := p.reopen.filter (· != n) }).wakeOn
  else s

/-! ### HIBERNATE (R470, R477, R497) -/

/-- The axes as the always-on logic records them. -/
def State.recordAxes (s : State) : State :=
  let l := ((List.range 8).filter s.axisRuns).map fun a => (a, s.axisPm a, s.fld .POS_AX_EPOCH_VALUE a)
  s.setPower fun p => { p with recorded := l }

/-- Every integrated regulator switches off and MAIN_EN goes low: no domain runs any more (R84), the pads drive nothing, the stacks lose their contents
and class V is cleared: the logbook's queue, the caches, the directories and the metadata cache (R11); `cause`: the CAUSE of the start that follows. -/
def State.enterHibernate (s : State) (cause : Nat) : State :=
  let s := (s.recordAxes.heatersLow).octetsDown
  let s := s.each ((List.range 40).filter s.woken) fun n s => s.isolate n (if s.holdsImage n then 2 else 0)
  let s := (((s.each [18, 19, 20, 21, 22, 23] fun d s => s.stopDomain d).loseCaches (List.range 20)).emptyHomes).loseQueue true
  let s := { s with seals := { s.seals with dirty := [], cache := [] } }
  let s := (s.put .DEV_ISL_RUN_RUN 0 0).setPower fun p => { p with mainEn := false, leaving := none, step := 0, wake := 0, reopen := [] }
  let s := { s with pins := { s.pins with inForce := [], changing := [] }, resets := { s.resets with lostStacks := true, cause := cause } }
  (((s.put .CFG_SCRUB_STAT_RUNNING 0 0).emit (.mainEn false)).arrive 3).refreshPins

/-- The junction at the always-on logic reads below WARN, which a start after a trip needs (R470). -/
def State.cool (s : State) : Bool :=
  s.resets.cause != 6 || decide (signed 16 (s.fld .PWR_TEMP_TEMP 47) < 10 * (s.fld .PWR_THERM_CTL_WARN 0 : Int))

/-! ### Orderly shut-down (R382, R477) -/

/-- The audit staging buffer is drained: every record whose volume is online has been flushed (R231). -/
def State.auditDrained (s : State) : Bool := s.lease.staged.all fun a => !s.logOnline a.log

/-- Every sealed volume online is committed with UNCLEAN 0 (R341, R342). -/
def State.allCommitted (s : State) : Bool :=
  s.store.vols.all fun v => v.state != 0 || v.step == 0 && (!v.isSealed || !v.isDirty && ((s.rootOf v.uid).map (fun r => !r.unclean)).getD true)

/-- Steps 1 and 2 of an orderly shut-down begin. -/
def State.beginLeaving (s : State) (target : Nat) : State :=
  (s.setPower fun p => { p with leaving := some target, step := 1 }).put .PWR_STATE_BUSY 0 1

/-- The last step begins: the Franker's counter is saved (R551), and the logbook's queue drains (R541). -/
def State.finishLeaving (s : State) : State :=
  let s := s.when (!s.franker.started.isEmpty) (·.saveCounter true)
  let s := ((s.put .DEV_ST_STAT_RUNNING 0 0).setSecure fun x => { x with run := none }).heatersLow
  s.setPower fun p => { p with step := 3 }

/-- The completion letter is sent, and the device enters HIBERNATE (R382, R477). -/
def State.depart (s : State) : State := ((s.completeAll 0x0106 0 .OK []).completeAll 0x0201 0 .OK []).enterHibernate 5

/-- The logbook's queue is drained, or its writer has stopped. -/
def State.logDrained (s : State) : Bool := (s.evt.queue.isEmpty && s.evt.firmware.isEmpty) || s.on .EVT_LOG_STAT_STOPPED 0

/-! ### Slices (R515, R516) -/

/-- The tested block is out of service and has lost its contents: a region leaves WOKEN and is reset, a cache is empty, a sorter is emptied, cells drop their
work, and an octet's lanes are reset. -/
def State.sliceLoss (s : State) (k : Nat) : State :=
  match sliceRegion k with
  | some n => (s.isolate n (if s.holdsImage n then 2 else 0)).resetRegion n true
  | none =>
    if k < 416 then (s.loseCaches [k - 400]).forgetAgents [k - 400]
    else if k < 480 then s.emptySorter (k - 416)
    else if k < 492 then
      s.each ((List.range 16).map (16 * (k - 480) + ·)) fun c s =>
        let x := s.plc c
        (s.setPlc c { x with commits := [], ret := none }).each x.commits fun m s => s.lateAction c m.sorter m.pm
    else if k < 496 then s
    else if k = 499 then (s.loseCaches [16, 17, 18, 19]).forgetAgents [16, 17, 18, 19]
    else if 500 ≤ k && k < 509 then
      s.each [2 * (k - 500), 2 * (k - 500) + 1] fun o s => s.octetLanesReset o []
    else s

/-- A slice starts: its block is taken out of service. -/
def State.beginSlice (s : State) (t : TestRun) : State := (s.setSecure fun x => { x with run := some t }).sliceLoss t.now

/-- A slice has run: its block is as a reset leaves it, and a home rebuilds its directory as R313 has it. -/
def State.endSlice (s : State) (k : Nat) : State := (s.sliceLoss k).when (decide (492 ≤ k) && decide (k < 496)) (·.resyncHome (k - 492))

/-- The self-test step of a shut-down begins (R516): no slice is started where the budget is below 40 ms. -/
def State.beginSelfTest (s : State) : State :=
  let s := ((s.enterPhase 2).setPower fun p => { p with step := 2 }).setSecure fun x => { x with elapsed := 0 }
  if s.secure.budget ^^^ 2000 < 40 then s.finishLeaving
  else (s.put .DEV_ST_STAT_RUNNING 0 1).beginSlice ⟨none, [], s.fld .DEV_ST_STAT_NEXT 0⟩

/-- An orderly shut-down goes on once the buffer is drained and the volumes are committed, and ends once the logbook is; POWER.STATE HIBERNATE runs no slices. -/
def State.leaveOn (s : State) : State :=
  match s.power.leaving with
  | none => s
  | some t =>
    if s.power.step = 1 && s.auditDrained && s.allCommitted then (if t = 2 then s.finishLeaving else s.beginSelfTest)
    else if s.power.step = 3 && s.logDrained then s.depart
    else s

end Sys2Proof.Machine
end

