-- ==== Sys2Proof/Machine/Regions.lean ====
section
/-! DEFINITION. Region images, loads and resets (R384, R424..R426, R429, R445..R448), and the scrubber (R450..R455). -/

namespace Sys2Proof.Machine

/-! ### Region images (R384) -/

/-- The firmware discovers the flash before its first use (R427): CFG_XSPI shows what it found; the clock is one of 25..200 MHz. -/
def State.discover (s : State) (ok : Bool) : State :=
  if !ok then (s.put .CFG_XSPI_BUS_ERR 0 1).raise 224
  else if s.on .CFG_XSPI_READY 0 then s
  else (((s.put .CFG_XSPI_READY 0 1).put .CFG_XSPI_OCTAL 0 1).put .CFG_XSPI_FREQ 0 (25 + s.draw % 176)).drew

/-- The header of a region image passes the checks of R414 that it decides. -/
def State.headerOk (s : State) (flash : Bool) (slot : Nat) (f : ImageFacts) : Bool :=
  (flash || (s.slot slot).valid) && f.magicOk && s.partOk f && f.kind == 2 && decide (f.target < 40) && f.key == 0 &&
    (!flash || (f.busOk && f.xspi && ([0, 7, 32, 39] : List Nat).contains f.target))

/-- REGION.IMAGE_OPEN. -/
def svcImageOpen (L : Letter) (f : ImageFacts) : Service := fun b s =>
  let source := rd b 0 1
  let slot := rd b 4 4
  let addr := rd b 8 8
  let flash := source == 1
  if 1 < source || !zeros b 1 3 || (!flash && !(decide (16 ≤ slot) && decide (slot ≤ 50))) || (flash && decide (2 ^ 32 ≤ addr)) then
    refuse s L .BAD_PARAM
  else match s.nextIndex kImage with
    | none => refuse s L .NO_RESOURCE
    | some i =>
      let s := s.when flash (·.discover f.busOk)
      if !s.headerOk flash slot f then refuse s L .INTEGRITY
      else
        let s := (s.createAt kImage i L.mailbox).setConfig fun c =>
          { c with images := Tbl.set ⟨0, 0⟩ c.images i ⟨if flash then 64 else slot, if flash then addr else 0⟩ }
        (s, ⟨.OK, s.handleOf kImage i, 0, []⟩)

/-- REGION.IMAGE_OPEN (R384): `facts`, what the header shows. -/
def execRegionImageOpen (L : Letter) (facts : ImageFacts) (s : State) : Host.Outcome State Fault Refusal :=
  .next (s.serve L ⟨.admin, false, false, fixedLen 16⟩ false (svcImageOpen L facts))

/-- REGION.IMAGE_CLOSE: BUSY while a load from the image runs. -/
def svcImageClose (L : Letter) : Service := fun _ s =>
  let h := L.handle.toNat
  match s.checkOwned kImage h L.mailbox with
  | some st => refuse s L st
  | none =>
    if s.config.regionLoads.any fun l => l.xreq.isNone && l.handle == hIndex h then refuse s L .BUSY
    else okBody ((s.destroy kImage (hIndex h)).setConfig fun c => { c with images := Tbl.set ⟨0, 0⟩ c.images (hIndex h) ⟨0, 0⟩ }) L []

/-- REGION.IMAGE_CLOSE. -/
def execRegionImageClose (L : Letter) (s : State) : Host.Outcome State Fault Refusal :=
  .next (s.serve L ⟨.admin, false, false, fixedLen 0⟩ false (svcImageClose L))

/-! ### Loads (R424, R426, R445) -/

/-- REGION.LOAD: BUSY while a channel binds the region or a load or reset of it is pending (R378, R384, R426). -/
def svcRegionLoad (L : Letter) : Service := fun b s =>
  let n := rd b 0 1
  let h := L.handle.toNat
  match s.checkOwned kImage h L.mailbox with
  | some st => refuse s L st
  | none =>
    if 40 ≤ n || !zeros b 1 3 then refuse s L .BAD_PARAM
    else match (s.chansOnRegion n).head? with
      | some c => refuseHeld s L (s.handleOf kChannel c)
      | none =>
        let img := Tbl.find ⟨0, 0⟩ s.config.images (hIndex h)
        if s.loadPending n || (s.findOp 0x0404 n).isSome then refuse s L .BUSY
        else if img.source = 64 && !([0, 7, 32, 39] : List Nat).contains n then refuse s L .DENIED
        else accepted s L n [img.source, img.addr, hIndex h]

/-- A region load joins the queue. -/
def State.queueLoad (s : State) (o : PendingOp) : State :=
  let l : RegionLoad := ⟨o.object, o.args.getD 0 0, o.args.getD 1 0, o.args.getD 2 0, none, false, false⟩
  (s.setConfig fun c => { c with regionLoads := c.regionLoads ++ [l] }).nextRegionLoad

/-- REGION.LOAD. -/
def execRegionLoad (L : Letter) (s : State) : Host.Outcome State Fault Refusal :=
  .next (s.serveThen L ⟨.admin, false, false, fixedLen 4⟩ false (svcRegionLoad L) fun o s => s.queueLoad o)

/-- The KIND and TARGET that suit a region load from a source: a full image where an earlier image is reloaded from a full slot (R424). -/
def loadSuits (l : RegionLoad) : Nat × Nat := if l.source < 3 then (1, 0xFF) else (2, l.region)

/-- The image of the region load under way has been read and checked (R414, R424): it is written, its segment keys are kept (R411) and it wakes the region,
or the load fails and the earlier image is reloaded. -/
def execRegionLoadComplete (f : ImageFacts) (body : RegionBody) (s : State) : Host.Outcome State Fault Refusal :=
  .next <|
  match s.config.regionLoads with
  | [] => s
  | l :: _ =>
    if !l.started then s
    else
      let suits := loadSuits l
      let x := s.imageFails (slotCode l.source) suits.1 suits.2 f false
      let s := s.when (l.source == 64 && f.busOk) (·.discover true)
      let s := s.readImage (slotCode l.source) f
      match x with
      | some x => s.regionLoadFails l x
      | none =>
        let keys := s.segmentKeys f
        let s := s.keepKeys (l.region + 1) (if suits.1 = 2 then keys else [])
        let s := (s.applyRegion l.region l.source l.addr f (f.plain keys) body false).wakeAlone l.region
        let s := s.when (body.overridden != 0) (·.logFirmware (Config.recordCode 4).toNat (le 4 body.overridden))
        let cause := match l.xreq with
          | some q => max 1 (s.fld .CFG_XSTAT_CAUSE q)
          | none => 1
        s.endRegionLoad l (if l.again then cause else 0)

/-! ### Resets, wakes and the end of isolation (R425, R446, R448) -/

/-- REGION.RESET: BUSY while another of the region is pending (R378); one that meets a load of the region waits for its end (R426). -/
def svcRegionReset (L : Letter) : Service := fun b s =>
  if 40 ≤ rd b 0 1 || 1 < rd b 1 1 || !zeros b 2 2 then refuse s L .BAD_PARAM
  else if (s.findOp 0x0404 (rd b 0 1)).isSome then refuse s L .BUSY
  else accepted s L (rd b 0 1) [rd b 1 1]

/-- A region reset that a service asks for: applied once a load of the region has ended (R426); a fabric reset under way completes it (R487). -/
def State.serveReset (s : State) (n : Nat) (wake : Bool) : State :=
  if s.resets.fabric && s.config.load.isNone then s
  else if s.config.load.isSome || s.config.regionLoads.any (fun l => l.started && l.region == n) then
    s.setConfig fun c => { c with regionResets := c.regionResets ++ [(n, wake)] }
  else s.askRegionReset n wake

/-- REGION.RESET (R446). -/
def execRegionReset (L : Letter) (s : State) : Host.Outcome State Fault Refusal :=
  .next (s.serveThen L ⟨.admin, false, false, fixedLen 4⟩ false (svcRegionReset L) fun o s => s.serveReset o.object (o.args.getD 0 0 == 1))

/-- REGION.QUERY (R384): the state, the voltage measured, how many channels bind the region, and its image's identifier. -/
def svcRegionQuery (L : Letter) : Service := fun b s =>
  let n := rd b 0 1
  if 40 ≤ n || !zeros b 1 3 then refuse s L .BAD_PARAM
  else
    okBody s L (le 1 (s.fld .CFG_RGN_STAT_STATE n) ++ le 1 (s.fld .PWR_RGN_STAT_VMEAS n) ++ le 2 (s.chansOnRegion n).length ++
      le 8 (s.image n).ident ++ List.replicate 20 0)

/-- REGION.QUERY. -/
def execRegionQuery (L : Letter) (s : State) : Host.Outcome State Fault Refusal :=
  .next (s.serve L ⟨.anyOwner, false, true, fixedLen 4⟩ false (svcRegionQuery L))

/-- The INIT contents of a region are restored, or its BM_INIT section fails its CRC (R425): then it is not woken, CFG_FAIL records cause 0x07 and source 221
is raised. Under a fabric reset the wake comes with the end of the reset (R492 step 5). -/
def State.restored (s : State) (n : Nat) (ok : Bool) : State :=
  let wake := s.config.waking.contains n && !s.resets.fabric
  let keep := ok && s.resets.fabric
  let s := ({ s with restoring := s.restoring.filter (· != n) }).setConfig fun c => { c with waking := c.waking.filter fun k => keep || k != n }
  let s := s.put .CFG_RGN_STAT_STATE n 2
  let s := if ok then (s.resetBms n true false).when wake (·.wakeAlone n)
    else ((s.recordFail (slotCode (Tbl.find 0 s.config.sources n - 1)) (7, 0)).raise 221)
  let s := s.when (!s.resets.fabric) (·.completeAll 0x0404 n (if ok then .OK else .INTEGRITY) [])
  (s.reopened n).nextRegionLoad

/-- The INIT restore of a region ends (R425): `ok`, the image as its source gave it, decrypted with the kept segment keys. -/
def execInitRestoreDone (n : Fin 40) (ok : ImageFacts) (s : State) : Host.Outcome State Fault Refusal :=
  .next <|
  if s.restoring.contains n.val then
    (s.readImage (slotCode (Tbl.find 0 s.config.sources n.val - 1)) ok).restored n (s.restoreChecks n ok)
  else s

/-- A wake strobe on T1 with its region mask (R61, R62): each selected region that is held wakes; a woken region is not affected and one still in reset
stays unwoken, as every region is while a device-wide or fabric reset or a full load holds them. -/
def execWakeStrobe (mask : BitVec 40) (s : State) : Host.Outcome State Fault Refusal :=
  .next (if s.resets.stage ≠ 0 || s.resets.fabric || s.config.load.isSome then s else s.each (bitsOf 40 mask.toNat) fun n s => s.wakeRegion n)

/-- 20 ns after its wake strobe, a region that is still WOKEN leaves isolation (R448); source 164 + n is raised where it was woken alone (R445
step 6). -/
def execIsolationEnd (n : Fin 40) (s : State) : Host.Outcome State Fault Refusal :=
  .next <|
  if s.woken n && s.on .CFG_RGN_STAT_ISOLATED n then
    let alone := s.config.announce.contains n.val
    let s := (s.setConfig fun c => { c with announce := c.announce.filter (· != n.val) }).put .CFG_RGN_STAT_ISOLATED n 0
    s.when alone (·.raise (164 + n.val))
  else s

/-! ### Scrubbing (R449..R455) -/

/-- Frames of a region, of all regions, and of a scrub cycle (R449, R451). -/
def regionFrames : Nat := 896
def fabricFrames : Nat := 35840
def allFrames : Nat := 38528

/-- The scrubber reads the frames of a region that is WOKEN or HELD (R451). -/
def State.scrubbed (s : State) (place : Nat) : Bool :=
  decide (fabricFrames ≤ place) || decide (2 ≤ s.fld .CFG_RGN_STAT_STATE (place / regionFrames))

/-- The first place from `place` on whose region is scrubbed: regions that are not are skipped whole; the GLOBAL frames come last. -/
def State.scrubFrom : Nat → State → Nat → Nat
  | 0, _, place => place
  | k + 1, s, place => if s.scrubbed place then place else State.scrubFrom k s ((place / regionFrames + 1) * regionFrames)

/-- Configuration byte `k` of frame `f` of region `n` holds an essential bit (R450): every byte does where the image carries no essence map. -/
def State.essential (s : State) (n f k : Nat) : Bool :=
  match (s.image n).essence with
  | none => true
  | some t => bitOf (Tbl.find 0 t (512 * f + k / 8)) (k % 8)

/-- CFG_SCRUB_LAST records a frame (R452, R453). -/
def State.scrubLast (s : State) (frame region : Nat) (uncorr : Bool) : State :=
  ((s.put .CFG_SCRUB_LAST_FRAME 0 frame).put .CFG_SCRUB_LAST_REGION 0 region).put .CFG_SCRUB_LAST_UNCORR 0 (b2n uncorr)

/-- An essential upset has been corrected: it is counted and recorded, sources 232 and 164 + n are raised, and ESS_ACT is applied to a region that is WOKEN
(R452, R454). -/
def State.essentialUpset (s : State) (n frame : Nat) (uncorr : Bool) : State :=
  let s := (s.bump .CFG_RGN_UPSET_ESSENTIAL n 1).scrubLast frame n uncorr
  let s := (s.raiseOf 232 .CFG_RGN_UPSET n).raise (164 + n)
  let act := s.fld .CFG_RGN_CTL_ESS_ACT n
  if s.woken n && (act = 1 || act = 2) then s.regionReset n (act == 1) else s

/-- An upset in a GLOBAL frame (R452). -/
def State.globalUpset (s : State) (frame : Nat) (uncorr : Bool) : State :=
  ((s.bump .CFG_SCRUB_CNT_GLOBAL 0 1).scrubLast frame 0x3F uncorr).raise 233

/-- A corrected upset of a region's or a GLOBAL frame is judged (R452). -/
def State.upset (s : State) (n frame : Nat) (essential uncorr : Bool) : State :=
  if 40 ≤ n then s.globalUpset frame uncorr
  else if essential then s.essentialUpset n frame uncorr
  else s.bump .CFG_RGN_UPSET_OTHER n 1

/-- A word is uncorrectable: its frame is refetched (R453). -/
def State.beginRefetch (s : State) (n frame word : Nat) : State :=
  let ess := decide (40 ≤ n) || (List.range 64).any fun k => s.essential n frame (64 * word + k)
  ((s.setConfig fun c => { c with refetch := some ⟨n, frame, ess⟩ }).bump .CFG_SCRUB_CNT_REFETCH 0 1).raise 234

/-- The scrubber runs: EN is 1, the power state is ACTIVE or QUIET, and no refetch or start holds it up (R451, R453). -/
def State.scrubs (s : State) : Bool :=
  s.on .CFG_SCRUB_CTL_EN 0 && decide (s.fld .PWR_STATE_STATE 0 < 2) && s.config.refetch.isNone && s.resets.stage == 0

/-- The scrubber goes on to the frame after `place`; a completed cycle is counted. -/
def State.scrubNext (s : State) (place : Nat) : State :=
  if place + 1 < allFrames then s.setConfig fun c => { c with scrub := place + 1 }
  else (s.setConfig fun c => { c with scrub := 0 }).addMod .CFG_SCRUB_STAT_CYCLES 0 1

/-- What the scrubber finds in the frame at a place. -/
def State.scrubRead (s : State) (place : Nat) (r : FrameRead) : State :=
  let n := if place < fabricFrames then place / regionFrames else 40
  let f := if place < fabricFrames then place % regionFrames else place - fabricFrames
  match r with
  | .clean => s
  | .single k => s.upset n f (decide (40 ≤ n) || s.essential n f k) false
  | .double w => s.beginRefetch n f w

/-- Every microsecond the scrubber reads one frame (R451). -/
def execScrubFrameRead (r : FrameRead) (s : State) : Host.Outcome State Fault Refusal :=
  .next <|
  if !s.scrubs then s.when (s.config.refetch.isNone) (·.put .CFG_SCRUB_STAT_RUNNING 0 0)
  else
    let place := State.scrubFrom 41 s s.config.scrub
    ((s.put .CFG_SCRUB_STAT_RUNNING 0 1).scrubNext place).scrubRead place r

/-- A refetched frame is written, or its refetch fails (R453): `ok`, the image as its source gave it, decrypted with the kept segment keys. It fails too
where the image came by broadcast, whose source cannot be read again. -/
def execFrameRefetchDone (ok : ImageFacts) (s : State) : Host.Outcome State Fault Refusal :=
  .next <|
  match s.config.refetch with
  | none => s
  | some r =>
    let source := if r.region < 40 then Tbl.find 0 s.config.sources r.region - 1 else if s.on .CFG_SRC_BCAST 0 then 0xFE else s.fld .CFG_SRC_SLOT 0
    let good := s.frameChecks source r.region r.frame ok
    let s := s.readImage (slotCode source) ok
    if !good then s.refetchFails r
    else ((s.setConfig fun c => { c with refetch := none }).upset r.region r.frame r.essential true).nextRegionLoad

end Sys2Proof.Machine
end

