-- ==== Sys2Proof/Machine/Power.lean ====
section
/-! DEFINITION. Power and sensing (chapter 18): the POWER services, external regulators, the sillage controller (R465..R468), monitors, temperatures and
package power, wakes, and the analog inputs. -/

namespace Sys2Proof.Machine

/-! ### POWER services (R383) -/

/-- The first channel that is ARMED, RUNNING or DRAINING, as a handle. -/
def State.runningChannel (s : State) : Option Nat :=
  (s.chanList.find? fun c => ([1, 2, 4] : List Nat).contains (s.chan c).state).map (s.handleOf kChannel ·)

/-- POWER.STATE: one at a time (R379); STANDBY and HIBERNATE need every channel at rest, STANDBY no region LOADING (R474). STANDBY is left by a wake alone,
which POWER.STATE ACTIVE from the test access port is (R475). -/
def svcPowerState (L : Letter) : Service := fun b s =>
  let t := rd b 0 1
  let now := s.fld .PWR_STATE_STATE 0
  let loading := (List.range 40).any fun n => s.fld .CFG_RGN_STAT_STATE n == 1
  if now = 2 && !(t = 0 && s.fld .PST_MB_OWNER_OWNER L.mailbox = 0x41) then refuse s L .NOT_READY
  else if 3 < t || !zeros b 1 3 || 2 ^ 40 ≤ rd b 4 8 then refuse s L .BAD_PARAM
  else if s.on .PWR_STATE_BUSY 0 || s.oneRuns then refuse s L .BUSY
  else match (if 2 ≤ t then s.runningChannel else none) with
    | some h => refuseHeld s L h
    | none => if t = 2 && loading then refuse s L .BUSY else accepted s L 0 [t, rd b 4 8]

/-- POWER.STATE acts; the completion follows when the state is reached. -/
def State.changePower (s : State) (t retain : Nat) : State :=
  let now := s.fld .PWR_STATE_STATE 0
  let done := fun (s : State) => s.completeAll 0x0201 0 .OK []
  if t = 3 then s.beginLeaving 2
  else if t = now then done s
  else if t = 2 then done (s.enterStandby retain)
  else if now = 2 then
    let s := s.leaveStandby 5
    if s.fld .PWR_STATE_STATE 0 = 0 then done s else s
  else done (s.arrive t)

/-- POWER.STATE (R473). -/
def execPowerState (L : Letter) (s : State) : Host.Outcome State Fault Refusal :=
  .next (s.serveThen L ⟨.admin, false, false, fixedLen 12⟩ false (svcPowerState L) fun o s => s.changePower (o.args.getD 0 0) (o.args.getD 1 0))

/-- POWER.QUERY: the state, each island's measured voltage, package power and the hottest junction. -/
def State.powerReport (s : State) : List Byte :=
  le 4 (s.fld .PWR_STATE_STATE 0) ++ ((List.range 40).flatMap fun n => le 1 (s.fld .PWR_RGN_STAT_VMEAS n)) ++ le 4 (s.fld .PWR_PKG_STAT_POWER 0) ++
    le 2 (s.fld .PWR_PKG_STAT_HOTTEST 0) ++ List.replicate 14 0

/-- POWER.QUERY. -/
def execPowerQuery (L : Letter) (s : State) : Host.Outcome State Fault Refusal :=
  .next (s.serve L ⟨.anyOwner, false, true, fixedLen 0⟩ false fun _ s => okBody s L s.powerReport)

/-- POWER.MARGIN: the margin of one region or of all. -/
def svcPowerMargin (L : Letter) : Service := fun b s =>
  let n := rd b 0 1
  let m := rd b 1 1
  if !(n < 40 || n = 0xFF) || m < 2 || 50 < m || !zeros b 2 2 then refuse s L .BAD_PARAM
  else okBody (s.each (if n = 0xFF then List.range 40 else [n]) fun k s => s.put .PWR_RGN_CTL_MARGIN k m) L []

/-- POWER.MARGIN. -/
def execPowerMargin (L : Letter) (s : State) : Host.Outcome State Fault Refusal :=
  .next (s.serve L ⟨.admin, false, false, fixedLen 4⟩ false (svcPowerMargin L))

/-- The range code of a nominal voltage in mV (R146). -/
def rangeOf (mv : Nat) : Option Nat := ([1200, 1500, 1800, 2500, 3300] : List Nat).findIdx? (· == mv)

/-- POWER.RAIL: BUSY without PMB_EN or with the bank locked, BAD_PARAM for no nominal. -/
def svcPowerRail (L : Letter) : Service := fun b s =>
  let bank := rd b 0 1
  if 12 ≤ bank || !zeros b 1 3 then refuse s L .BAD_PARAM
  else if !s.on .PIN_BANK_CTL_PMB_EN bank || s.bankLocked bank then refuse s L .BUSY
  else match rangeOf (rd b 4 4) with
    | none => refuse s L .BAD_PARAM
    | some r => accepted s L bank [r]

/-- POWER.RAIL writes RANGE and runs R147; a bank that stands at the range asked for completes at once. -/
def State.changeRail (s : State) (bank r : Nat) : State :=
  let s := s.setRange bank r
  if s.pins.changing.contains bank then s else s.completeAll 0x0204 bank .OK []

/-- POWER.RAIL. -/
def execPowerRail (L : Letter) (s : State) : Host.Outcome State Fault Refusal :=
  .next (s.serveThen L ⟨.admin, false, false, fixedLen 8⟩ false (svcPowerRail L) fun o s => s.changeRail o.object (o.args.getD 0 0))

/-! ### External regulators (R463, R464) -/

/-- The firmware serves the regulator bus. -/
def State.busServed (s : State) : Bool := s.pmbActive && s.on .PST_FW_STAT_READY 0

/-- The bank that a regulator entry supplies. -/
def State.entryBank (s : State) (e : Nat) : Option Nat :=
  let r := Tbl.find 0 s.power.rails e
  if 3 ≤ r && r < 15 then some (r - 3) else none

/-- An entry's answer to a poll: no answer, or its format, its faults and its voltage; each failing one raises source 216. A POWER.RAIL of a bank whose
regulator does not answer ends with NO_ANSWER (R383). -/
def State.polled (s : State) (e : Nat) (a : PollAnswer) : State :=
  if !s.on .PWR_EXT_VALID e then s
  else match a with
    | .silent =>
      let s := (s.put .PWR_EXT_NO_ANSWER e 1).raiseOf 216 .PWR_EXT e
      match s.entryBank e with
      | some b => s.completeAll 0x0204 b .NO_ANSWER []
      | none => s
    | .answer linear vout iout temp mv =>
      let s := (s.put .PWR_EXT_FORMAT e (b2n (!linear))).put .PWR_EXT_VOUT e mv.toNat
      let s := ((s.when vout (·.put .PWR_EXT_VOUT_FLT e 1)).when iout (·.put .PWR_EXT_IOUT_FLT e 1)).when temp (·.put .PWR_EXT_TEMP_FLT e 1)
      s.when (vout || iout || temp) (·.raiseOf 216 .PWR_EXT e)

/-- A poll of the entries has been answered (R464). -/
def execRegulatorPoll (answers : List (Fin 16 × PollAnswer)) (s : State) : Host.Outcome State Fault Refusal :=
  .next (if s.busServed then s.each answers fun e s => s.polled e.1 e.2 else s)

/-- ALERT_N low starts a poll of every entry at once (R463). -/
def execRegulatorAlert (s : State) : Host.Outcome State Fault Refusal :=
  .next (if s.busServed then s.each ((List.range 16).filter fun e => s.on .PWR_EXT_VALID e) fun e s => s.emit (.regulatorPoll e) else s)

/-! ### The sillage controller (R49, R465..R468) -/

/-- What a constraint requires in a window, as a fraction (R49): the constraint is tokens × 2^16 per second or per count. DESIGN CHOICE (assumption 91): the counts an
axis travelled are the net displacement between the window's ends, so that motion forward and back within one window requires nothing. -/
def State.required (s : State) (m : Monitor) : Nat × Nat :=
  if m.cfg.perCount then (m.cfg.rate * (pmDiff (s.axisPm m.axis) m.since).natAbs, 2 ^ 32)
  else (m.cfg.rate * 1048576, 2 ^ 16 * 1000000000)

/-- The kind of a tick (R48): 0 token, 1 stall, 2 starve, 3 neither. A tick in which a token completes is a token tick and no other. -/
def TickRun.kind (r : TickRun) : Nat :=
  if r.completed ≠ 0 then 0
  else match r.phase with
    | .holds => 1
    | .empty true => 2
    | .empty false => 3
    | .returning => 3

/-- The ticks of one kind among a monitor's. -/
def ticksOf (l : List TickRun) (k : Nat) : Nat := ((l.filter (·.kind == k)).map (·.ticks)).sum

/-- One monitor's window: its number, its token and stall ticks, the tokens delivered, and the tokens required as a fraction. -/
structure Window' where
  monitor : Nat
  tokens : Nat
  stalls : Nat
  delivered : Nat
  need : Nat
  per : Nat

/-- The windows of the monitors with a bound constraint in region `n`; one that is not listed counted nothing. -/
def State.windows (s : State) (n : Nat) (counts : List WindowCount) : List Window' :=
  (List.range 8).filterMap fun k => (Tbl.find none s.monitors (n * 8 + k)).map fun m =>
    let l := match counts.find? (·.monitor.val == k) with
      | some c => c.runs
      | none => []
    let q := s.required m
    ⟨k, ticksOf l 0, ticksOf l 1, (l.map fun r => r.completed * r.ticks).sum, q.1, q.2⟩

/-- The ticks of each monitor are performance events 8k + m of the region, k the kind (R48, R523). -/
def State.tickEvents (s : State) (n : Nat) (counts : List WindowCount) : State :=
  s.each counts fun c s => s.each (List.range 4) fun k s => s.perf 1 n (8 * k + c.monitor.val) (ticksOf c.runs k) none

/-- A ÷ Rq of a window, as a fraction; none where A is infinite or Q is 0 (R465): A = T × W ÷ (W - S), Rq = Q × (1 + M). -/
def windowRatio (margin : Nat) (w : Window') : Option (Nat × Nat) :=
  let free := 1048576 - w.stalls
  if w.need = 0 || free = 0 then none
  else some (w.tokens * 1048576 * w.per * 100, free * w.need * (100 + margin))

/-- The lesser of two fractions. -/
def lesser (a b : Nat × Nat) : Nat × Nat := if a.1 * b.2 ≤ b.1 * a.2 then a else b

/-- The region's ratio: the least over its monitors with Q > 0; the outer none where there is no such monitor, the inner where each A is infinite. -/
def regionRatio (margin : Nat) (l : List Window') : Option (Option (Nat × Nat)) :=
  if l.all (·.need == 0) then none
  else
    let rs := l.filterMap (windowRatio margin)
    some (match rs with
      | [] => none
      | r :: t => some (t.foldl lesser r))

/-- RATIO shows r in 1/1,024, saturating; 0xFFFF where there is no ratio. -/
def State.showRatio (s : State) (n : Nat) (r : Option (Option (Nat × Nat))) : State :=
  match r with
  | some (some f) =>
    let x := s.roundFree ((f.1 * 1024 : Nat) : Int) f.2
    x.1.put .PWR_RGN_LOOP_RATIO n (min x.2.toNat 0xFFFF)
  | _ => s.put .PWR_RGN_LOOP_RATIO n 0xFFFF

/-- A raise of VSET by some codes: NEAR_CAP and source 8 where it brings VSET to within 20 mV of the upper limit (R468). -/
def State.raiseVset (s : State) (n codes : Nat) : State :=
  let v := s.fld .PWR_RGN_STAT_VSET n
  let s := s.setVset n (v + codes)
  let w := s.fld .PWR_RGN_STAT_VSET n
  s.when (decide (v < w) && decide (s.upperLimit n ≤ w + 10)) fun s => (s.put .PWR_RGN_STAT_NEAR_CAP n 1).raiseOf 8 .PWR_RGN_STAT n

/-- The ratio is below `x` hundredths. -/
def ratioBelow (r : Option (Nat × Nat)) (x : Nat) : Bool :=
  match r with
  | some f => decide (f.1 * 100 < x * f.2)
  | none => false

/-- The step of R466 at the end of a window of region `n`. -/
def State.sillage (s : State) (n : Nat) (r : Option (Option (Nat × Nat))) : State :=
  match r with
  | none => s.setVset n 0
  | some r =>
    if ratioBelow r 95 then s.raiseVset n 10
    else if ratioBelow r 100 then s.raiseVset n 2
    else if 4 ≤ Tbl.find 0 s.power.low n && Tbl.find 0 s.power.hold n = 0 then
      (s.setVset n (s.fld .PWR_RGN_STAT_VSET n - 2)).setPower fun p => { p with hold := Tbl.set 0 p.hold n 4 }
    else s

/-- The windows in a row with r ≥ 1.04, and those left before the next lowering. -/
def State.countWindows (s : State) (n : Nat) (r : Option (Option (Nat × Nat))) : State :=
  let high := match r with
    | some r => !ratioBelow r 104
    | none => false
  s.setPower fun p => { p with
    low := Tbl.set 0 p.low n (if high then min 4 (Tbl.find 0 p.low n + 1) else 0)
    hold := Tbl.set 0 p.hold n (Tbl.find 0 p.hold n - 1) }

/-- Deficit windows of region `n` (R49, R467): fewer tokens than required with no stall, VSET at the limit as the window began and as it ends. -/
def State.deficits (s : State) (n : Nat) (l : List Window') (atCap : Bool) : State :=
  let bad := l.filter fun w => atCap && w.stalls == 0 && decide (w.delivered * w.per < w.need)
  let s := s.each l fun w s => s.putBit .CFG_FAB_STAT_DEFICIT_NOW n w.monitor (bad.any (·.monitor == w.monitor))
  let s := s.each bad fun w s => s.putBit .CFG_FAB_STAT_DEFICIT n w.monitor true
  s.when (!bad.isEmpty) fun s => (s.raise (164 + n)).perf 1 n 32 bad.length none

/-- A window of the output monitors of a region ends (R49, R465, R466). A region that is not WOKEN has none (R441); one in FIXED mode changes nothing
(R468). -/
def execMonitorWindowEnd (n : Fin 40) (counts : List WindowCount) (s : State) : Host.Outcome State Fault Refusal :=
  .next <|
  if !s.woken n then s
  else
    let s := s.tickEvents n counts
    let l := s.windows n counts
    let r := regionRatio (s.fld .PWR_RGN_CTL_MARGIN n) l
    let began := s.power.capped.contains n.val
    let s := ((s.showRatio n r).countWindows n r)
    let s := if s.fld .PWR_STATE_STATE 0 = 0 && !s.on .PWR_RGN_CTL_MODE n then s.sillage n r else s
    let cap := s.on .PWR_RGN_STAT_AT_CAP n
    let s := s.when (cap && !began) (·.bump .PWR_RGN_LOOP_SHORT n 1)
    (s.deficits n l (began && cap)).restartMonitors n

/-- A regulator of an island or a monitor point stays below its setting (R460). -/
def execRegFault (site : Fin 40 ⊕ Fin 32) (s : State) : Host.Outcome State Fault Refusal :=
  .next <|
  match site with
  | .inl n => (s.put .PWR_RGN_STAT_REG_FAULT n 1).raiseOf 8 .PWR_RGN_STAT n
  | .inr _ => s.raise 8

/-- The replica chain of a region is measured (R468). -/
def execAgeMeasure (n : Fin 40) (age : BitVec 12) (s : State) : Host.Outcome State Fault Refusal :=
  .next <|
  let old := s.fld .PWR_RGN_LOOP_AGE n
  (s.put .PWR_RGN_LOOP_AGE n age.toNat).when (decide (old < 164) && decide (164 ≤ age.toNat)) fun s => (s.put .PWR_RGN_STAT_AGE_WARN n 1).raiseOf 8 .PWR_RGN_STAT n

/-! ### Measurements (R469..R471, R481) -/

/-- A flag of PWR_THERM_STAT is set, with source 9. -/
def State.thermal (s : State) (f : Fld) : State := (s.put f 0 1).raiseOf 9 f.spec.reg 0

/-- The greatest of a list, with its place. -/
def hottest (l : List Int) : Int × Nat :=
  l.zipIdx.foldl (fun a e => if a.1 < e.1 then e else a) (l.headD 0, 0)

/-- The grade maximum in °C (R470). -/
def State.gradeMax (s : State) : Int := if s.on .DEV_ID_GRADE 0 then 105 else 100

/-- The hottest junction crosses a threshold (R470). -/
def crosses (old new limit : Int) : Bool := decide (old ≤ 10 * limit) && decide (10 * limit < new)

/-- Temperatures: each sensor's reading, the hottest junction, and the crossings of WARN and of the grade maximum. -/
def State.senseTemps (s : State) (l : List Int) : State :=
  let s := s.each (l.take 48).zipIdx fun e s => s.put .PWR_TEMP_TEMP e.2 (bits 16 e.1)
  let old := signed 16 (s.fld .PWR_PKG_STAT_HOTTEST 0)
  let h := hottest l
  let s := (s.put .PWR_PKG_STAT_HOTTEST 0 (bits 16 h.1)).put .PWR_THERM_STAT_SENSOR 0 h.2
  let s := s.when (crosses old h.1 (s.fld .PWR_THERM_CTL_WARN 0)) (·.thermal .PWR_THERM_STAT_WARN)
  s.when (crosses old h.1 s.gradeMax) (·.thermal .PWR_THERM_STAT_HOT)

/-- Package power and its limits (R471). -/
def State.sensePower (s : State) (x : Sense) : State :=
  let s := s.put .PWR_PKG_STAT_POWER 0 x.power
  let air := !s.on .PWR_PKG_CTL_COOLING 0 && decide (4000 < x.power1000)
  let s := s.when (air && !s.on .PWR_THERM_STAT_OVER_AIR 0) (·.thermal .PWR_THERM_STAT_OVER_AIR)
  s.when (decide (s.fld .PWR_PKG_CTL_PLIMIT 0 < x.power10) && !s.on .PWR_THERM_STAT_OVER_PLIMIT 0) (·.thermal .PWR_THERM_STAT_OVER_PLIMIT)

/-- The measurements of one millisecond (R481). In HIBERNATE only the sensor of the always-on logic is read (R469). -/
def execSenseSample (x : Sense) (s : State) : Host.Outcome State Fault Refusal :=
  .next <|
  if s.resets.stage = 6 then s
  else if s.fld .PWR_STATE_STATE 0 = 3 then s.put .PWR_TEMP_TEMP 47 (bits 16 (x.temps.getD 47 0))
  else
    let s := s.each (x.rails.take 32).zipIdx fun e s => s.put .PWR_MON_MV e.2 e.1
    let s := s.each (x.islands.take 40).zipIdx fun e s => s.put .PWR_RGN_STAT_VMEAS e.2 e.1
    (s.senseTemps (x.temps.take 52)).sensePower x

/-- A junction or a stack is beyond the trip for 100 µs (R470): TRIP, and HIBERNATE without the commits; a change of power state is abandoned (R478). -/
def execThermalTrip (s : State) : Host.Outcome State Fault Refusal :=
  .next (if s.fld .PWR_STATE_STATE 0 = 3 || s.resets.stage = 6 then s else (s.thermal .PWR_THERM_STAT_TRIP).enterHibernate 6)

/-! ### Wakes (R475..R477) -/

/-- An enabled wake source fires: it begins the exit from STANDBY, or the return from HIBERNATE, where MAIN_EN rises and the device waits for its supply. -/
def State.wakeUp (s : State) (cause : Nat) (hibernate : Bool) : State :=
  let st := s.fld .PWR_STATE_STATE 0
  if s.resets.stage ≠ 0 then s
  else if st = 2 && !s.on .PWR_STATE_BUSY 0 then s.leaveStandby cause
  else if st = 3 && hibernate && s.power.wake = 0 && s.cool then
    let s := ((s.put .PWR_STATE_WAKE 0 cause).raise 12).setPower fun p => { p with wake := cause, mainEn := true }
    s.emit (.mainEn true)
  else s

/-- WAKE_N has been low for 10 µs. -/
def execWakeNLow (s : State) : Host.Outcome State Fault Refusal :=
  .next (if s.on .PWR_WAKE_CTL_WAKE_N_EN 0 then s.wakeUp 1 true else s)

/-- The real-time clock reaches PWR_WAKE_ALARM. -/
def execWakeAlarm (s : State) : Host.Outcome State Fault Refusal :=
  .next <|
  let s := s.put .DEV_RTC_SECONDS 0 (s.fld .PWR_WAKE_ALARM_SECONDS 0)
  if s.on .PWR_WAKE_CTL_ALARM_EN 0 then s.wakeUp 2 true else s

/-- The wake axis has moved DIST counts since entry to STANDBY. -/
def execWakeAxisDistance (s : State) : Host.Outcome State Fault Refusal :=
  .next <|
  let a := s.fld .PWR_WAKE_CTL_AXIS 0
  let far := decide (s.fld .PWR_WAKE_CTL_DIST 0 * oneCount ≤ (pmDiff (s.axisPm a) s.power.entry).natAbs)
  if s.on .PWR_WAKE_CTL_AXIS_EN 0 && s.fld .POS_AX_STAT_STATE a == 1 && far then s.wakeUp 3 false else s

/-- An edge on PCIE_PERST_N in STANDBY. -/
def execWakePerst (s : State) : Host.Outcome State Fault Refusal :=
  .next (if s.on .PWR_WAKE_CTL_PERST_EN 0 then s.wakeUp 4 false else s)

/-! ### Analog inputs (R479, R480) -/

/-- An analog input's limits are checked. -/
def State.ainLimit (s : State) (i code : Nat) : State :=
  let out := s.on .PWR_AIN_CTL_LIMIT_EN i && (decide (code < s.fld .PWR_AIN_LIM_LO i) || decide (s.fld .PWR_AIN_LIM_HI i < code))
  (s.put .PWR_AIN_OUT i (b2n out)).when out fun s => (s.orFld .PWR_AIN_FLT_LIMIT_SEEN 0 (2 ^ i)).raise 11

/-- A conversion ends: a pin found open by its current check gives CODE 0 and BROKEN. -/
def execAinConversion (i : Fin 16) (code : BitVec 16) (broken : Bool) (s : State) : Host.Outcome State Fault Refusal :=
  .next <|
  if !s.on .PWR_AIN_CTL_EN i || s.domainWaits (some 23) then s
  else
    let first := broken && !s.on .PWR_AIN_BROKEN i
    let c := if broken then 0 else code.toNat
    let s := (((s.put .PWR_AIN_CODE i c).put .PWR_AIN_BROKEN i (b2n broken)).put .PWR_AIN_STALE i 0).addMod .PWR_AIN_SEQ i 1 |>.startTimer .result i
    let s := s.when first fun s => (s.orFld .PWR_AIN_FLT_BROKEN_SEEN 0 (2 ^ i.val)).raise 11
    s.ainLimit i c

/-- No new result for 500 µs. -/
def execAinStale (i : Fin 16) (s : State) : Host.Outcome State Fault Refusal :=
  .next (if s.on .PWR_AIN_CTL_EN i && s.lapsed .result i 500000 then s.put .PWR_AIN_STALE i 1 else s)

/-- The supply of bank `b` has held the new nominal for 100 µs: the pads switch and HOLD clears (R147 steps 3 and 4); in STANDBY HOLD goes on, and the new
range is applied at the exit (R478). A POWER.RAIL completes (R383), and an exit from STANDBY may be done (R476). -/
def execBankRangeSwitch (b : Fin 12) (s : State) : Host.Outcome State Fault Refusal :=
  .next <|
  let r := s.fld .PIN_BANK_CTL_RANGE b
  if !s.pins.changing.contains b.val || r = 7 || s.pins.standby then s
  else
    let s := s.setInForce b r
    let s := { s with pins := { s.pins with
      changing := s.pins.changing.erase b, vio := Tbl.set 0 s.pins.vio b (r + 1) } }
    ((s.releaseHold b).completeAll 0x0204 b .OK []).wakeOn

/-- A bank supply has been outside its window for 100 µs while no range change runs (R462): the bank is held, and its supply's return ends HOLD. -/
def execBankSupplyLossHold (b : Fin 12) (s : State) : Host.Outcome State Fault Refusal :=
  .next <|
  let outside := s.on .PWR_MON_UV (20 + b.val) || s.on .PWR_MON_OV (20 + b.val)
  if s.pins.changing.contains b.val || s.fld .PIN_BANK_CTL_RANGE b = 7 || !outside || !s.ran .outside b 100000 then s else s.beginRange b

end Sys2Proof.Machine
end

