-- ==== Sys2Proof/Machine/Starts.lean ====
section
/-! DEFINITION. Resets and starts (chapter 19): power-on (R489), pin, device and brown-out resets (R485, R491), wake resets (R486), the monitor points
that start them (R462), and the ends of fabric resets (R492). -/

namespace Sys2Proof.Machine

/-! ### Entry -/

/-- A device-wide reset is entered, and waits in a stage of its start. The reset that ends a scan ends its zeroisation (R509, R514). -/
def State.enter (s : State) (k : ResetKind) (cause stage : Nat) : State :=
  let scan := s.secure.scan
  let s := s.enterReset k cause
  ({ s with resets := { s.resets with stage := stage, facts := none } }).when scan (·.zeroised)

/-! ### Release (R416, R435, R488, R489 step 4, R491 step 2, R541) -/

/-- The domains that run from the lock of their PLLs, D18..D23 (R489 step 3). Stacks stay in self-refresh until they have trained (R491 step 3). -/
def State.lockPlls (s : State) : State :=
  s.each [18, 19, 20, 21, 22, 23] fun d s =>
    let asleep := s.fld .MEM_STK_STAT_SELF_REFRESH (d - 18)
    (s.startDomain d).when (decide (d < 22)) (·.put .MEM_STK_STAT_SELF_REFRESH (d - 18) asleep)

/-- Axes that the always-on logic recorded are LOST at the position and epoch recorded, with FIRST 7 (R497). -/
def State.returnAxes (s : State) : State :=
  let l : List (Nat × Nat × Nat) := s.power.recorded
  (s.setPower fun p => { p with recorded := [] }).each l fun e s =>
    ((s.put .POS_AX_POS_VALUE e.1 e.2.1).put .POS_AX_EPOCH_VALUE e.1 e.2.2).lose e.1 7

/-- The logbook's writer finds its newest record and goes on above it (R541). -/
def State.findNewest (s : State) (newest : Option Nat) : State :=
  match newest with
  | some n => { s with evt := { s.evt with nextSeq := n + 1 } }
  | none => s

/-- Erase-incomplete markers are found (R435), and the directory is read (R406): of the copies that pass, the one with the higher sequence number is used;
with none only the firmware slots are known. -/
def State.readMemory (s : State) (f : StartFacts) : State :=
  let s := s.when (!s.marked.isEmpty) fun s => (s.put .CFG_NVM_ERR_INCOMPLETE 0 1).raise 229
  match f.directory with
  | .newest => s
  | .older => s.setConfig fun c => { c with slots := c.dirOld.slots, selected := c.dirOld.selected, dirNew := c.dirOld }
  | .none => (s.setConfig fun c => { c with slots := c.slots.filter fun e => e.1 == 3 || e.1 == 4, selected := 0 }).raise 231

/-- No copy of the Franker record passes (R545). -/
def State.readFrankerRecord (s : State) (ok : Bool) : State := s.when (!ok) (·.setFranker fun f => { f with saved := none })

/-- What BOOT_MODE starts beside the firmware (R415): the selected full slot is streamed, or HOST_WAIT is set. Nothing is loaded where no directory copy
passes (R406). -/
def State.bootLoad (s : State) (f : StartFacts) : State :=
  if f.directory == .none || s.config.tried.isEmpty || !s.on .PST_FW_STAT_CORES 0 then s
  else if f.boot = 0 then s.stream s.selected s.selected false
  else s.when (f.boot == 1) (·.put .CFG_STAT_HOST_WAIT 0 1)

/-- GRADE and the unique identifier are read from fuses (R19), and PWR_THERM_CTL.WARN has its grade's reset value (R470). -/
def State.readUnit (s : State) (f : StartFacts) : State :=
  let s := (s.put .DEV_ID_GRADE 0 (b2n f.grade)).put .DEV_UID_UID 0 f.uid.toNat
  s.put .PWR_THERM_CTL_WARN 0 (if f.grade then 95 else 90)

/-- The release of a device-wide reset: fuses and keys are read, PLLs lock, D22 and D23 leave held, bank ranges are sampled, BOOT_MODE is shown, and
R417 runs from its first step. In SCRAPPED the start stops before the cores (R503). -/
def State.letGo (s : State) (f : StartFacts) : State :=
  let s := (((s.lockPlls.readUnit f).readFuses f.fuses).readKeys f.badKeys.toNat).put .DEV_RST_CAUSE_CAUSE 0 s.resets.cause
  if s.lifeCycle = 4 then { s with resets := { s.resets with stage := 7 } }
  else
    let s := s.each [22, 23, 24] fun d s => s.crossRelease d true
    let s := { s with resets := { s.resets with stage := 0, facts := some f, began := s.fld .PERF_TB_TB 0 } }
    let s := s.each [0, 1, 17] fun k s => s.showBind k
    let s := (s.each (List.range 18) fun k s => s.put .DEV_OCT_STAT_REF_OK k 1).startTimer .started 0
    let s := (s.put .CFG_STAT_BOOT 0 f.boot.toNat).put .PIN_GSTAT_PHASE 0 0
    let s := (((s.each (List.range 12) fun b s => s.sampleRange b).returnAxes.findNewest f.newestLog).readFrankerRecord f.franker).readMemory f
    let s := s.tryCopies f s.firmwareOrder
    (s.bootLoad f).startRecord.refreshPins

/-- A reset is released where RESET_N is high, else the start waits for it (R487). -/
def State.letGoIf (s : State) (stage : Nat) (f : StartFacts) : State :=
  if s.resets.resetN then s.atStage stage else s.letGo f

/-! ### Power-on (R484, R489) -/

/-- VAON rises through 1.60 V. -/
def execVaonRise (s : State) : Host.Outcome State Fault Refusal :=
  .next (if s.resets.stage = 6 then ((s.atStage 1).emit (.cfgDone true)).emit (.mainEn true) else s)

/-- VAON falls below 1.60 V: a power-on reset, which lasts until VAON has risen; the pad of CFG_DONE is high impedance meanwhile (R420). -/
def State.vaonLoss (s : State) : State :=
  let s := (s.enter .powerOn 1 6).setPower fun p => { p with mainEn := false, recorded := [] }
  (s.emit (.mainEn false)).emit (.cfgDone false)

/-- VAON falls below 1.60 V. -/
def execVaonLoss (s : State) : Host.Outcome State Fault Refusal := .next s.vaonLoss

/-- VIN_FAB has stayed within its window for 1 ms: the regulators ramp, or a brown-out through which they ran ends (R485). -/
def execSupplyStable (f : StartFacts) (s : State) : Host.Outcome State Fault Refusal :=
  .next <|
  let t := { s with resets := { s.resets with brown := false } }
  if s.resets.stage = 1 then t.atStage 2
  else if s.resets.stage = 4 && s.resets.brown then t.letGoIf 4 f
  else s

/-- The rails are up with TB_REFCLK present: the PLLs lock, and the reset is released once RESET_N is high. -/
def execRegulatorsUp (f : StartFacts) (s : State) : Host.Outcome State Fault Refusal :=
  .next (if s.resets.stage = 2 then s.lockPlls.letGoIf 3 f else s)

/-! ### RESET_N (R485, R487, R491, R514) -/

/-- RESET_N has been low for 1.1 µs. In STANDBY and HIBERNATE the regulators that were off start anew; after a trip only once the junction is cool (R470).
A scan is left by a wake reset. -/
def State.resetLow (s : State) : State :=
  let low := fun (s : State) => { s with resets := { s.resets with resetN := true } }
  if s.resets.stage = 6 || (1 ≤ s.resets.stage && s.resets.stage ≤ 3) then low s
  else if s.secure.scan then low (s.enter .wake 2 2)
  else if s.fld .PWR_STATE_STATE 0 = 3 then
    if !s.cool then low s
    else
      let c := if s.resets.cause = 6 then 6 else 2
      low ((s.enter .pin c 1).emit (.mainEn true))
  else low (s.enter .pin 2 (if s.fld .PWR_STATE_STATE 0 = 2 then 2 else 4))

/-- RESET_N has been low for 1.1 µs. -/
def execResetNLow (s : State) : Host.Outcome State Fault Refusal := .next s.resetLow

/-- RESET_N is high again: what waits for it goes on. -/
def execResetNHigh (f : StartFacts) (s : State) : Host.Outcome State Fault Refusal :=
  .next <|
  let s := { s with resets := { s.resets with resetN := false } }
  if s.resets.stage = 3 then s.letGo f
  else if s.resets.stage = 4 && !s.resets.brown then s.letGo f
  else s

/-- The write-back of a device reset ends (R312, R491), with what was written since it was asked for: the reset is entered, and released 10 µs later. -/
def execDeviceResetEntry (f : StartFacts) (s : State) : Host.Outcome State Fault Refusal :=
  .next <|
  if s.resets.stage ≠ 5 then s else (((s.writeBackCaches (List.range 20)).flushMeta).enter .device 4 4).letGoIf 4 f

/-- After a wake from HIBERNATE, or a start after a trip, VIN_FAB holds its window: a wake reset starts as from power-on (R477, R486). -/
def execMainSupplyGood (s : State) : Host.Outcome State Fault Refusal :=
  .next <|
  if s.resets.stage = 0 && s.fld .PWR_STATE_STATE 0 == 3 && s.power.mainEn && s.power.wake != 0 then s.enter .wake s.resets.cause 2 else s

/-! ### Stacks (R315, R322, R334, R489, R491) -/

/-- What becomes of the sealed granules as the first stack has trained: after a pin or brown-out reset, whatever reset has followed it, they are rebuilt (R334), and a conversion that the
reset cut off is completed where the keys exist (R322). -/
def State.resumeSealing (s : State) : State :=
  let s := s.when s.resets.rebuild fun s => { s.rebuildSealed with resets := { s.resets with rebuild := false } }
  match s.seals.converting with
  | none => s
  | some (g, t) => if (List.range 4).all (s.on .SEAL_LINE_STAT_KEYS ·) then s.finishConversion g t else s.put .SEAL_GRAN_RES_BUSY 0 1

/-- The interface of stack `k` is trained: it leaves self-refresh, and its fill begins where its contents are lost; else FILL_DONE is set without one, which raises
nothing (R318, R491). -/
def execStackTrained (k : Fin 4) (s : State) : Host.Outcome State Fault Refusal :=
  .next <|
  if s.resets.stage ≠ 0 || s.on .MEM_STK_STAT_FILL_DONE k then s
  else
    let s := (s.put .MEM_STK_STAT_SELF_REFRESH k 0).crossRelease (18 + k) true
    if s.resets.lostStacks then s
    else
      let first := (List.range 4).all fun j => !s.on .MEM_STK_STAT_FILL_DONE j
      let s := s.when first (·.resumeSealing)
      (s.put .MEM_STK_STAT_FILL_DONE k 1).serveStack k

/-! ### Supplies (R461, R462) -/

/-- A brown-out begins (R462, R485, R491): a pin reset that lasts until VIN_FAB is stable, or a wake reset where it ends a scan (R514). A stack supply
below its window has cost the stacks their contents, and the regulators start anew, as those do that STANDBY switched off. -/
def State.brownOut (s : State) : State :=
  let lost := [8, 9, 10].any fun i => s.on .PWR_MON_UV i
  let anew := lost || s.secure.scan || s.fld .PWR_STATE_STATE 0 == 2
  let s := { s with resets := { s.resets with lostStacks := s.resets.lostStacks || lost } }
  let s := s.enter (if s.secure.scan then .wake else .pin) 3 (if anew then 1 else 4)
  { s with resets := { s.resets with brown := true } }

/-- A stack supply falls below its window while a brown-out lasts. -/
def State.stacksLost (s : State) : State :=
  if s.resets.lostStacks then s.atStage 1
  else
    let s := { s with memo := { s.memo with bytes := [] }, resets := { s.resets with lostStacks := true } }
    ({ s with seals := State.reset.seals }.freshGranules true).atStage 1

/-- Point `i` enters (1: below, 2: above) or leaves its window (0). -/
def State.crossWindow (s : State) (i side : Nat) : State :=
  let s := s.when (decide (20 ≤ i) && !s.on .PWR_MON_UV i && !s.on .PWR_MON_OV i) (·.startTimer .outside (i - 20))
  let s := (s.put .PWR_MON_UV i (b2n (side == 1))).put .PWR_MON_OV i (b2n (side == 2))
  if side = 0 then s
  else (s.put (if side = 1 then .PWR_MON_UV_SEEN else .PWR_MON_OV_SEEN) i 1).raiseOf 10 .PWR_MON i

/-- An integrated rail, or VIN_FAB, passes the deeper threshold of R462: a brown-out. -/
def browns (i side : Nat) : Bool := (decide (i < 2) && side == 1) || (decide (4 ≤ i) && decide (i ≤ 19) && side == 2)

/-- A monitor point crosses its window past its filter; `deep`: past the threshold at which R462 does more. -/
def execMonitorCrossing (i : Fin 32) (side : Fin 3) (deep : Bool) (s : State) : Host.Outcome State Fault Refusal :=
  .next <|
  if s.resets.stage = 6 then s
  else
    let s := s.crossWindow i side
    let s := s.when (i.val == 3 && side == 1 && deep) (·.put .DEV_RTC_STAT_VALID 0 0)
    let s := s.when (s.resets.brown && decide (8 ≤ i.val) && decide (i.val ≤ 10) && side == 1) (·.stacksLost)
    let runs := (([0, 4, 5, 7] : List Nat).contains s.resets.stage) && !s.resets.brown && s.fld .PWR_STATE_STATE 0 != 3
    if i = 2 && side = 1 && deep then s.vaonLoss
    else if deep && runs && browns i side then s.brownOut
    else s

/-! ### Fabric resets (R492, R500) -/

/-- A fabric reset without a load has ended: a wake strobe selects every region that holds an image, but for those whose restore failed (R425), and
source 1 is raised; DEVICE.RESET completes. -/
def execFabricResetDone (s : State) : Host.Outcome State Fault Refusal :=
  .next <|
  if !s.resets.fabric || s.config.load.isSome || !s.restoring.isEmpty then s
  else
    let l := s.config.waking
    let s := (s.setConfig fun c => { c with waking := [] }).each (l.filter fun n => s.holdsImage n && !s.woken n) fun n s => s.wakeRegion n
    s.endFabric

end Sys2Proof.Machine
end

