-- ==== Sys2Proof/Machine/Device.lean ====
section
/-! DEFINITION. The DEVICE services (R381, R382) but for DEVICE.MAILBOX_ASSIGN. -/

namespace Sys2Proof.Machine

/-- DEVICE.INFO: the identity, the firmware's VERSION and COPY, the life-cycle state, the full-image slot and the milliseconds since the last release. -/
def State.deviceInfo (s : State) : List Byte :=
  le 4 (s.regWord .DEV_ID 0) ++ le 8 (s.fld .DEV_UID_UID 0) ++ le 4 (s.slot s.runningCopy).version ++ le 1 (s.fld .PST_FW_STAT_COPY 0) ++
    le 1 s.lifeCycle ++ le 2 0 ++ le 4 (s.fld .CFG_SRC_SLOT 0) ++ le 8 ((s.fld .PERF_TB_TB 0 - s.resets.began) / 1000000) ++ List.replicate 16 0

/-- DEVICE.INFO. -/
def execDeviceInfo (L : Letter) (s : State) : Host.Outcome State Fault Refusal :=
  .next (s.serve L ⟨.anyOwner, true, false, fixedLen 0⟩ false fun _ s => okBody s L s.deviceInfo)

/-- DEVICE.TIME_SET sets the real-time clock, which becomes VALID (R553). -/
def svcTimeSet (L : Letter) : Service := fun b s =>
  if 2 ^ 40 < rd b 0 8 then refuse s L .BAD_PARAM
  else okBody ((s.put .DEV_RTC_SECONDS 0 (rd b 0 8)).put .DEV_RTC_STAT_VALID 0 1) L []

/-- DEVICE.TIME_SET. -/
def execDeviceTimeSet (L : Letter) (s : State) : Host.Outcome State Fault Refusal :=
  .next (s.serve L ⟨.admin, false, false, fixedLen 8⟩ false (svcTimeSet L))

/-- DEVICE.TIME_GET. -/
def execDeviceTimeGet (L : Letter) (s : State) : Host.Outcome State Fault Refusal :=
  .next (s.serve L ⟨.anyOwner, false, false, fixedLen 0⟩ false fun _ s =>
    okBody s L (le 8 (s.fld .DEV_RTC_SECONDS 0) ++ le 1 (s.fld .DEV_RTC_STAT_VALID 0) ++ le 7 0))

/-- DEVICE.RESET with KIND 1: BUSY while a channel is ARMED, RUNNING or DRAINING. -/
def svcDeviceReset (L : Letter) : Service := fun b s =>
  if rd b 0 1 ≠ 1 || !zeros b 1 3 then refuse s L .BAD_PARAM
  else match s.runningChannel with
    | some h => refuseHeld s L h
    | none => accepted s L 0 []

/-- DEVICE.RESET with KIND 0, which is never answered: the letter passes the checks of R373, and no shut-down runs (R379). -/
def State.wantsReset (s : State) (L : Letter) : Bool :=
  match s.bodyOf L with
  | .inl _ => false
  | .inr b => s.serving && !s.behind L && permits .admin false (s.fld .PST_MB_OWNER_OWNER L.mailbox) && b.length == 4 && zeros b 0 4 && !s.svc.shutdown

/-- A letter that is never answered. -/
def State.noReply (s : State) (L : Letter) : State :=
  let b := s.box L.mailbox
  s.setBox L.mailbox { b with taken := b.taken.erase L, orphans := b.orphans.erase L }

/-- DEVICE.RESET (R382). -/
def execDeviceReset (L : Letter) (s : State) : Host.Outcome State Fault Refusal :=
  .next <|
  if s.wantsReset L then (s.noReply L).deviceReset
  else s.serveThen L ⟨.admin, false, false, fixedLen 4⟩ false (svcDeviceReset L) fun _ s => s.fabricCmd

/-- DEVICE.SHUTDOWN: TARGET HIBERNATE or OFF. -/
def svcDeviceShutdown (L : Letter) : Service := fun b s =>
  if 1 < rd b 0 1 || !zeros b 1 3 then refuse s L .BAD_PARAM
  else if s.oneRuns then refuse s L .BUSY
  else accepted s L 0 [rd b 0 1]

/-- DEVICE.SHUTDOWN (R382): its first steps begin; a second returns NOT_READY, as every service does that R379 does not except. -/
def execDeviceShutdown (L : Letter) (s : State) : Host.Outcome State Fault Refusal :=
  .next (s.serveThen L ⟨.admin, false, false, fixedLen 4⟩ false (svcDeviceShutdown L) fun o s =>
    { s with svc := { s.svc with shutdown := true } }.beginLeaving (o.args.getD 0 0))

end Sys2Proof.Machine
end

