-- ==== Sys2Proof/Machine/Security.lean ====
section
/-! DEFINITION. The life cycle and its keys (R501..R509), the random number generator (R510, R511), and the test access port (R513, R514, R566). -/

namespace Sys2Proof.Machine

/-! ### KEY services that change no state of the life cycle (R402, R508) -/

/-- KEY.STATUS. -/
def execKeyStatus (L : Letter) (s : State) : Host.Outcome State Fault Refusal :=
  .next (s.serve L ⟨.anyOwner, false, false, fixedLen 0⟩ false fun _ s =>
    okBody s L (le 1 s.lifeCycle ++ le 1 (b2n s.rngReady + 2 * b2n (s.hasKey 2) + 4 * b2n (s.hasKey 3)) ++ le 6 0))

/-- KEY.AUDIT_EXPORT: the audit key wrapped under the verifier key. -/
def svcAuditExport (L : Letter) : Service := fun _ s =>
  if !s.hasKey 1 then refuse s L .NOT_READY
  else okBody (s.raise 218) L (wrapKey (BitVec.ofNat 256 s.secure.kv) (BitVec.ofNat 256 s.lease.auditKey))

/-- KEY.AUDIT_EXPORT. -/
def execKeyAuditExport (L : Letter) (s : State) : Host.Outcome State Fault Refusal :=
  .next (s.serve L ⟨.admin, false, false, fixedLen 0⟩ false (svcAuditExport L))

/-- One RESTART record in each audit log that a series writes to (R229), or in each bound one only (R508). -/
def State.restartRecords (s : State) (boundOnly : Bool) : State :=
  let vol := fun (k : Nat) => Tbl.find 0 s.lease.auditVol k
  let ks := (List.range s.lease.series.length).filter fun k => !boundOnly || vol k != 0
  let firsts := ks.filter fun k => !(List.range k).any fun j => vol j == vol k
  s.each firsts fun k s => s.audit k 0x17 0 0 0 0 0

/-- The protected area is read-only (R405, R437). -/
def State.protectedReadOnly (s : State) : Bool := bitOf (s.fld .CFG_NVM_STAT_RO_AREA 0) 2

/-- KEY.AUDIT_ROTATE. Where its record cannot be written the service fails (R437); NO_RESOURCE then: DESIGN CHOICE (assumption 100). -/
def svcAuditRotate (L : Letter) : Service := fun _ s =>
  if !s.rngReady then refuse s L .NOT_READY
  else if s.protectedReadOnly then refuse s L .NO_RESOURCE
  else accepted s L 0 []

/-- A new audit key is in force: its RESTART records are tagged under it, and the service completes with their flush, at once where no log is bound. -/
def State.rotateAudit (s : State) : State :=
  let r := s.drawKey
  let t := ((r.1.keepKey 3 (BitVec.ofNat 256 r.2)).raise 218).restartRecords true
  t.when (!t.lease.staged.any (·.kind == 0x17)) (·.completeOn 0x1103 0 .OK [])

/-- KEY.AUDIT_ROTATE (R508). -/
def execKeyAuditRotate (L : Letter) (s : State) : Host.Outcome State Fault Refusal :=
  .next (s.serveThen L ⟨.admin, false, false, fixedLen 0⟩ false (svcAuditRotate L) fun _ s => s.rotateAudit)

/-- KEY.GOLDEN_WRITE (R508): CONFIG.WRITE on slot 0. -/
def svcGoldenWrite (L : Letter) : Service := fun b s =>
  let length := rd b 0 4
  if s.lifeCycle = 2 || s.lifeCycle = 4 then refuse s L .DENIED
  else if length = 0 || slotBytes 0 < length || 2 ^ 32 * 64 < rd b 4 8 * 64 + length then refuse s L .BAD_PARAM
  else if s.oneRuns then refuse s L .BUSY
  else if s.slotInForce 0 then refuse s L .DENIED
  else if s.slotReadOnly 0 then refuse s L .NO_RESOURCE
  else accepted s L 0 [length]

/-- KEY.GOLDEN_WRITE. -/
def execKeyGoldenWrite (L : Letter) (s : State) : Host.Outcome State Fault Refusal :=
  .next (s.serveThen L ⟨.admin, false, false, fixedLen 12⟩ false (svcGoldenWrite L) fun o s => s.beginWrite 0 (o.args.getD 0 0))

/-! ### Transitions (R502, R503, R507, R509) -/

/-- The two keys that the body of KEY.PROVISION carries, wrapped under the provisioning key; none where a check fails. -/
def provided (b : List Byte) : Option (BitVec 256 × BitVec 256) :=
  match unwrapKey (Config.fusedKey 1) (b.take 40), unwrapKey (Config.fusedKey 1) ((b.drop 40).take 40) with
  | some i, some v => some (i, v)
  | _, _ => none

/-- The four records are written (R505, R507), KS and KA having been drawn. `unprogrammed`: blocks of the protected area whose program fails its
verification (R436). -/
def State.provision (s : State) (ki kv : BitVec 256) (unprogrammed : List (Fin 16)) : State :=
  let a := s.drawKey
  let b := a.1.drawKey
  let s := (((b.1.keepKey 0 ki).keepKey 1 kv).keepKey 2 (BitVec.ofNat 256 a.2)).keepKey 3 (BitVec.ofNat 256 b.2)
  s.each unprogrammed fun k s => s.reprogram (68 + k.val)

/-- KEY.PROVISION (R507): group Pk is blown once the records are written. -/
def svcProvision (L : Letter) (unprogrammed : List (Fin 16)) : Service := fun b s =>
  if !(s.lifeCycle = 0 || s.lifeCycle = 3) || !s.rngReady then refuse s L .NOT_READY
  else match provided b with
    | none => refuse s L .BAD_PARAM
    | some k =>
      if s.oneRuns then refuse s L .BUSY
      else if s.protectedReadOnly then refuse s L .NO_RESOURCE
      else okBody ((s.provision k.1 k.2 unprogrammed).blow (3 * s.keyCycle)) L []

/-- KEY.PROVISION. -/
def execKeyProvision (L : Letter) (unprogrammed : List (Fin 16)) (s : State) : Host.Outcome State Fault Refusal :=
  .next (s.serve L ⟨.admin, false, false, fixedLen 80⟩ false (svcProvision L unprogrammed))

/-- KEY.LOCK: PROVISIONED to FIELD. -/
def svcKeyLock (L : Letter) : Service := fun _ s =>
  if s.lifeCycle ≠ 1 || !((s.slot 0).valid && (s.slot 3).valid && (s.slot 4).valid) then refuse s L .NOT_READY
  else if s.oneRuns then refuse s L .BUSY
  else okBody (s.blow (3 * s.keyCycle + 1)) L []

/-- KEY.LOCK. -/
def execKeyLock (L : Letter) (s : State) : Host.Outcome State Fault Refusal :=
  .next (s.serve L ⟨.admin, false, false, fixedLen 0⟩ false (svcKeyLock L))

/-- KEY.RETURN: FIELD to RETURN. -/
def svcKeyReturn (L : Letter) : Service := fun b s =>
  if s.lifeCycle ≠ 2 then refuse s L .NOT_READY
  else if s.keyCycle = 3 then refuse s L .NO_RESOURCE
  else if rd b 0 8 ≠ s.uid then refuse s L .BAD_PARAM
  else if s.oneRuns then refuse s L .BUSY
  else okBody (s.blow (3 * s.keyCycle + 2)) L []

/-- KEY.SCRAP: any state but SCRAPPED to SCRAPPED. -/
def svcKeyScrap (L : Letter) : Service := fun b s =>
  if s.lifeCycle = 4 then refuse s L .NOT_READY
  else if rd b 0 8 ≠ s.uid then refuse s L .BAD_PARAM
  else if s.oneRuns then refuse s L .BUSY
  else okBody (s.blow 11) L []

/-- Zeroisation on entry to RETURN or SCRAPPED (R509): its steps in order, ending in a pin reset carried out as a wake reset. -/
def State.zeroise (s : State) : State := ((s.zeroiseKeys.eraseSecrets).enter .wake 2 2).zeroised

/-- A transition that zeroises replies OK first; one that was refused leaves the life cycle as it was. -/
def State.thenZeroise (s t : State) : State := if t.lifeCycle = s.lifeCycle then t else t.zeroise

/-- KEY.RETURN (R503, R509). -/
def execKeyReturn (L : Letter) (s : State) : Host.Outcome State Fault Refusal :=
  .next (s.thenZeroise (s.serve L ⟨.keyPort, false, false, fixedLen 8⟩ false (svcKeyReturn L)))

/-- KEY.SCRAP (R503, R509). -/
def execKeyScrap (L : Letter) (s : State) : Host.Outcome State Fault Refusal :=
  .next (s.thenZeroise (s.serve L ⟨.keyPort, false, false, fixedLen 8⟩ false (svcKeyScrap L)))

/-! ### The random number generator (R510, R511) -/

/-- A source is disabled: its failing tests are counted, and source 236 is raised. -/
def State.disableSource (s : State) (k : Nat) (rct apt : Bool) : State :=
  let s := s.setSecure fun x => { x with rng := Tbl.set 0 x.rng k 2 }
  let s := (s.bump .DEV_RNG_STAT_RCT_FAIL 0 (b2n rct)).bump .DEV_RNG_STAT_APT_FAIL 0 (b2n apt)
  (s.raise 236).showRng

/-- A source ends its start-up test: `rct` and `apt`, the tests that it passed. -/
def execRngStartupTestDone (k : Fin 64) (rct apt : Bool) (s : State) : Host.Outcome State Fault Refusal :=
  .next <|
  if Tbl.find 0 s.secure.rng k != 0 then s
  else if rct && apt then (s.setSecure fun x => { x with rng := Tbl.set 0 x.rng k 1 }).showRng
  else s.disableSource k (!rct) (!apt)

/-- A source that had passed fails a health test: the adaptive proportion test where `apt`, else the repetition count test. -/
def execRngHealthFail (k : Fin 64) (apt : Bool) (s : State) : Host.Outcome State Fault Refusal :=
  .next (if Tbl.find 0 s.secure.rng k = 1 then s.disableSource k (!apt) apt else s)

/-- The DRBG is seeded from the conditioner, which takes the raw bits of the healthy sources. -/
def execRngReseed (s : State) : Host.Outcome State Fault Refusal :=
  .next (if s.sources 1 = 0 then s else (s.setSecure fun x => { x with seeded := true }).showRng)

/-! ### The test access port (R513, R514, R566) -/

/-- The life-cycle states that permit an instruction; none for an unknown code. -/
def tapStates (code : Nat) : List Nat :=
  if code = 0 || code = 4 || code = 5 then [0, 1, 3, 4]
  else if code = 1 || code = 2 || code = 0x20 || code = 0xFF then [0, 1, 2, 3, 4]
  else if code = 0x30 then [0, 3]
  else []

/-- Entry to scan (R514): zeroisation steps 1 and 2, every functional domain halts, both ring bypasses close, CFG_DONE is low, the pads are released, and
source 244. -/
def State.beginScan (s : State) : State :=
  let s := (s.zeroiseKeys.setSecure fun x => { x with scan := true, run := none }).atStage 7
  let s := (((s.each (List.range 24) fun d s => s.stopDomain d).each [0, 1] fun r s => s.put .LNK_RING_STAT_BYPASS r 1).driveDone true).raise 244
  { s with pins := { s.pins with changing := [] }, resets := { s.resets with facts := none } }.refreshPins

/-- The device's IDCODE: version 0x1, part 0x0144 and Kweath's code 0x6D1 (R513). -/
def idcode : Nat := 0x10144DA3

/-- An instruction is in force: IDCODE presents the device's code. No rule says which number names a controller state other than Test-Logic-Reset. -/
def State.setInstruction (s : State) (code : Nat) : State :=
  let s := ((s.put .TST_TAP_STAT_INSTRUCTION 0 code).put .TST_TAP_STAT_TAP_STATE 0 (s.draw % 16)).drew
  (s.when (code == 1) (·.emit (.tap idcode))).refreshPins

/-- An instruction is loaded (R513): a refused or unknown one acts as BYPASS, with TAP_REFUSED and source 244. -/
def State.loadInstruction (s : State) (code : Nat) : State :=
  if (tapStates code).contains s.lifeCycle then (s.setInstruction code).when (code == 0x30 && !s.secure.scan) (·.beginScan)
  else ((s.setInstruction 0xFF).put .DEV_SEC_STAT_TAP_REFUSED 0 1).raise 244

/-- An instruction is loaded. -/
def execTapInstruction (code : BitVec 8) (s : State) : Host.Outcome State Fault Refusal := .next (s.loadInstruction code.toNat)

/-- The SCAN instruction is loaded. -/
def execTapScan (s : State) : Host.Outcome State Fault Refusal := .next (s.loadInstruction 0x30)

/-- A register access through DEBUG, as port 0x41; of any width but 32 bits or unaligned, it is discarded, or reads 0, with FORM (R5). -/
def execTapDebugAccess (x : DebugAccess) (s : State) : Host.Outcome State Fault Refusal :=
  .next <|
  if s.fld .TST_TAP_STAT_INSTRUCTION 0 ≠ 0x20 then s
  else s.busAccess .tap x.addr.toNat x.write x.data.toNat (x.bytes.val ≠ 4 || x.addr.toNat % 4 ≠ 0)

/-- Test-Logic-Reset: IDCODE is in force, and the test access port's mailboxes are reset (R364, R566). -/
def execTestLogicReset (s : State) : Host.Outcome State Fault Refusal := .next s.tapReset

end Sys2Proof.Machine
end

