-- ==== Sys2Proof/Machine/Firmware.lean ====
section
/-! DEFINITION. The start of the Postroom firmware (R228, R229, R349, R351, R396, R415, R416, R435, R470, R489, R505, R509, R545). -/

namespace Sys2Proof.Machine

/-- READY was not set within 100 ms of the cores starting (R416). -/
def execFirmwareWatchdog (s : State) : Host.Outcome State Fault Refusal :=
  .next <|
  match s.resets.facts with
  | some f => if s.coresWait && !s.config.tried.isEmpty && s.ran .cores 0 100000000 then s.watchdog f else s
  | none => s

/-- One UNKNOWN record covers the identifiers of a lease without a recorded outcome (R229). -/
def State.unknownRecords (s : State) : State :=
  s.each s.lease.leases fun l s => match l.drawn with
    | low :: _ => s.audit l.series 0x13 low (l.mark - low) 0 0 0
    | [] => s

/-- One lease object, with a new handle, for each journalled lease that still has unused identifiers (R228). -/
def State.recreateLeases (s : State) : State :=
  let old := s.lease.leases
  (s.setLease fun l => { l with leases := [] }).each (old.filter fun l => l.unused != 0) fun l s => match s.nextIndex kLease with
    | some i => (s.createAt kLease i 0).setLease fun x => { x with leases := x.leases ++ [{ l with idx := i, drawn := [] }] }
    | none => s

/-- The firmware seals granule 255 for itself (R396). -/
def State.sealOwn (s : State) : State :=
  if s.granule 255 = 0 && !s.on .SEAL_GRAN_RES_BUSY 0 && s.fld .SEAL_GRAN_EPOCH 255 != 2 ^ 24 - 1 then s.startConversion 255 true else s

/-- BOOT_MODE 0b10 (R415): each ring with a member table is joined with RATE 0b00, and BCAST_WAIT is set. -/
def State.awaitBroadcast (s : State) : State :=
  let rings := (List.range 2).filter fun r => !(s.ring r).table.isEmpty
  let s := s.each rings fun r s => s.ringCtl r (1 + 8 * s.fld .LNK_RING_CTL_LOST_STOP r + 256 * s.fld .LNK_RING_CTL_STOP_AXES r)
  (s.put .CFG_STAT_BCAST_WAIT 0 1).startTimer .bcastWait 0

/-- What the firmware starts once it serves (R406, R415, R418): it waits for a broadcast, or the Franker starts where no image is loaded, awaited or
asked for by the host. -/
def State.afterReady (s : State) (f : StartFacts) : State :=
  if s.config.load.isSome || s.on .CFG_STAT_HOST_WAIT 0 then s
  else if f.boot = 2 && f.directory != .none && s.fld .CFG_STAT_STATE 0 != 2 then s.awaitBroadcast
  else if s.fld .CFG_STAT_STATE 0 = 2 || s.fld .CFG_STAT_STATE 0 = 3 then s
  else s.frankerService

/-- What the firmware restores before it serves: keys and roots left in RETURN or SCRAPPED are erased (R509), erases go on (R435), the Franker's record is
copied (R545), the leases come back with their UNKNOWN and RESTART records (R228, R229), and the journalled member tables show in the registers (R234). -/
def State.recover (s : State) : State :=
  let s := s.when (decide (3 ≤ s.lifeCycle) && (!s.secure.records.isEmpty || !s.store.roots.isEmpty)) (·.eraseSecrets)
  let s := (((s.resumeMarked.copyRecord).unknownRecords).restartRecords false).recreateLeases
  (s.each (List.range 2) fun r s => s.when (!(s.ring r).table.isEmpty) (·.showReach r 0)).sealOwn

/-- The leases of a start run below LOW_WATER, or the journal holds leases of a series of which none has an identifier left: the next is requested (R226). -/
def State.refillLeases (s : State) (places : List Nat) : State := s.each places fun k s => s.lowWater k

/-- The firmware reaches READY. After a trip it writes a TRIP record (R470). -/
def execFirmwareReady (s : State) : Host.Outcome State Fault Refusal :=
  .next <|
  match s.resets.facts with
  | none => s
  | some f =>
    if !s.coresWait || s.config.tried.isEmpty || !s.runs 22 then s
    else
      let places := (s.lease.leases.map (·.series)).eraseDups
      let s := (s.setConfig fun c => { c with tried := [] }).recover
      let s := s.setFirmware 1 (s.fld .PST_FW_STAT_COPY 0) (s.fld .PST_FW_STAT_RECOVERY 0)
      let s := match s.config.owners with
        | some t => s.assignOwners t
        | none => s
      let s := s.when (s.resets.cause == 6) (·.logFirmware (Config.recordCode 6).toNat [])
      (s.refillLeases places).serveRung.afterReady f

end Sys2Proof.Machine
end

