-- ==== Sys2Proof/Machine/Modes.lean ====
section
/-! DEFINITION. Products and the eight modes (chapter 08): beginning a product with its letters (R166, R187, R190..R192, R200, R203), camera
lines, verdicts and rejects (R193..R197), nozzle health (R198, R388), stitching (R203, R208), triggers (R204, R205), and jobs
(R390..R392). -/

namespace Sys2Proof.Machine

/-! ### Product letters (R187, R387) -/

/-- FLAGS of a product letter. -/
def Product.letterFlags (p : Product) : Nat :=
  b2n p.ident.isSome + 2 * b2n (p.has mProof) + 4 * b2n p.backward + 8 * b2n (p.has mVerify) + 16 * b2n (p.has mTriggered) +
    32 * b2n p.follower + 64 * b2n ((p.ident.map (·.lease.isNone)).getD false)

/-- The body of a product letter. -/
def Product.letterBody (p : Product) (handle : Nat) : List Byte :=
  le 4 handle ++ le 4 (bits 32 p.index) ++ le 8 p.start ++ le 8 (p.stop.getD 0) ++ le 8 ((p.ident.map (·.id)).getD 0) ++
    le 2 p.letterFlags ++ le 2 0 ++ le 4 p.mapGen ++ le 4 p.mapLine ++ le 4 p.seed ++ le 8 p.trigAt ++ le 8 0

/-- The binding notice of a channel's job (R387), before the first product letter that mailbox `m` receives for it. -/
def State.bindingNotice (s : State) (c m : Nat) : State :=
  let x := s.chan c
  match x.job, x.spool with
  | some j, some sp =>
    if x.noticed.contains m then s
    else (s.updChan c fun x => { x with noticed := x.noticed ++ [m] }).notice m 0x0523 (s.handleOf kChannel c) 0
      (le 4 (s.handleOf kChannel c) ++ le 4 (s.handleOf kJob j) ++ le 4 sp.mapBase ++ le 4 sp.spoolBase ++ le 4 sp.slots ++
        le 4 sp.slotLines ++ le 8 0)
  | _, _ => s

/-- Sends the letter of a product to mailbox `m` (R187); one sent after its crossing marks the product. -/
def State.sendProduct (s : State) (c : Nat) (i : Int) (m : Nat) : State :=
  match (s.chan c).products.find? (fun p => p.index == i) with
  | none => s
  | some p =>
    let s := (s.bindingNotice c m).notice m 0x0520 (s.handleOf kChannel c) p.start (p.letterBody (s.handleOf kChannel c))
    let s := s.updChan c (·.updProduct i fun q => { q with owed := q.owed.erase m })
    if s.letterLate p then s.markProduct c i else s

/-- A product letter falls due: it uses one of the budget, or queues (R187). -/
def State.letterDue (s : State) (c : Nat) (i : Int) (m : Nat) : State :=
  if s.letterBudget = 0 then { s with letterQueue := s.letterQueue ++ [(c, i, m)] }
  else { s with letterBudget := s.letterBudget - 1 }.sendProduct c i m

/-- The letter budget refills by one, and a letter that waits goes (R187). -/
def execProductLetterBudget (s : State) : Host.Outcome State Fault Refusal :=
  .next <|
  match s.letterQueue with
  | [] => { s with letterBudget := min 64 (s.letterBudget + 1) }
  | e :: t => { s with letterQueue := t }.sendProduct e.1 e.2.1 e.2.2

/-! ### Beginning a product (R166, R200, R205) -/

/-- The mode word and block that a product starting at `start` runs under (R211): of a pending change, or as it stood before the changes that are complete. -/
def Channel.modeAt (x : Channel) (start : Nat) : Nat × List Byte :=
  let was := ((x.olds.find? fun e => pmLt start e.1).map (·.2)).getD (x.mode, x.block)
  match x.change with
  | some g => match g.mode with
    | some e => if pmLt start g.at_ then was else e
    | none => was
  | none => was

/-- The mode words and blocks of products before mode postmark `m`, which is later than every change before it (R211). -/
def Channel.oldsWith (x : Channel) (m : Nat) : List (Nat × Nat × List Byte) :=
  x.olds.filter (fun e => pmLt e.1 m) ++ [(m, ((x.olds.find? fun e => !pmLt e.1 m).map (·.2)).getD (x.mode, x.block))]

/-- The start and trigger of the next product forward, if it is known (R166, R205, R211). -/
def Channel.nextForward (x : Channel) : Option (Nat × Nat) :=
  match x.change.bind fun g => g.mode.map fun e => (g.at_, bitOf e.1 mTriggered) with
  | some (m, trig) =>
    if x.has mTriggered then match x.trigs.head? with
      | some t => some t
      | none => if trig then none else some (m, 0)
    else if trig && !pmLt x.next m then x.trigs.head?
    else some (x.next, 0)
  | none => if x.has mTriggered then x.trigs.head? else some (x.next, 0)

/-- The product that would begin backward (R200): before the run's first, or, while none has begun, the one whose end lies LEAD
behind the axis. It is given as its index and start. -/
def State.nextBackward (s : State) (x : Channel) : Option (Int × Nat) :=
  let first := x.run.foldl (fun (b : Option Product) p => match b with
    | some q => some (if p.index < q.index then p else q)
    | none => some p) none
  match first with
  | some p =>
    if x.pitch ≠ 0 then some (p.index - 1, pmPlus p.start (-(x.pitch : Int)))
    else (s.jobOf x).map fun j => (p.index - 1, pmPlus p.start (-(j.lengthOf j.next : Int)))
  | none =>
    if x.pitch = 0 then none
    else
      let k := ceilDiv (pmDiff (pmPlus (s.axisPm x.axis) (-(x.lead : Int))) x.base) (65536 * x.pitch) - 1
      some (x.baseIdx + k, pmPlus x.base (k * x.pitch))

/-- A change of mode comes into force with the first product at or beyond M (R211): clearing TRIGGERED places boundaries from M. -/
def Channel.applyMode (x : Channel) (start : Nat) : Channel :=
  match x.change with
  | some g => match g.mode with
    | some e =>
      if pmLt start g.at_ then x
      else
        let cleared := x.has mTriggered && !bitOf e.1 mTriggered
        let x := { x with olds := x.oldsWith g.at_, mode := e.1, block := e.2, change := some { g with applied := true } }
        if cleared then { x with base := g.at_, baseIdx := x.nextIdx, next := g.at_ } else x
    | none => x
  | none => x

/-- A product that starts at or beyond a switch begins on the new binding (R177), and one at or beyond M under the new mode, whose sorters' orders are set
(R188). -/
def State.applyChange (s : State) (c start : Nat) : State :=
  match (s.chan c).change with
  | some g =>
    if pmLt start g.at_ then s
    else if g.mode.isNone then s.applySwitch c
    else if g.applied then s
    else ((s.updChan c (·.applyMode start)).takeBuffers c).setSorters c
  | none => s

/-- The identifier a product draws (R190, R191, R230): none needed, drawn, or none to be had. The firmware's request for the next lease stands either way. -/
def State.identFor (s : State) (c mode : Nat) (block : List Byte) : State × Option (Option Ident) :=
  let proof := bitOf mode mProof
  if !bitOf mode mSerialize || follows mode block then (s, some none)
  else match s.seriesOf (s.chan c) with
    | none => (s, none)
    | some k =>
      let s := if proof || s.unused k != 0 then s else s.lowWater k
      match s.drawIdent k proof with
      | none => (s, none)
      | some r => (if proof then r.1 else r.1.lowWater k, some (some r.2))

/-- The leader's stitch check of a product on every link (R203). -/
def State.stitchCheck (s : State) (p : Product) : State :=
  if p.has mStitch && !p.follower then
    s.each (stitchLinks p.block) fun m s =>
      s.stitchMessage m 0 [p.par 34 2, bits 32 p.index, p.start, p.seed, p.mode / 8 % 16, p.mapGen]
  else s

/-- The last job product has begun and REPEAT is 0 (R392): the channel drains at the start of the next product. Where the next product's
start is not known ahead, that is the product's own end, or one count beyond its start (assumption 24). -/
def State.jobEnds (s : State) (c : Nat) (p : Product) (ended : Bool) : State :=
  if !ended then s
  else
    let x := s.chan c
    let e := match (if p.has mTriggered then x.trigs.head?.map (·.1) else some x.next) with
      | some e => e
      | none => (p.stop).getD (pmPlus p.start 1)
    let e := match x.drain with
      | some d => if pmLt d e then d else e
      | none => e
    ((s.updChan c fun x => { x with drain := some e, state := if x.state = 3 then 3 else 4 }).cancelChange c e).raise 210

/-- The product map's entry of a product (R387). -/
def State.writeMap (s : State) (c : Nat) (p : Product) : State :=
  match (s.chan c).spool, p.job with
  | some sp, some j =>
    s.firmwareWrite (64 * sp.mapBase + 8 * (p.index % 4096).toNat) (le 4 j ++ le 4 (j % max 1 sp.slots))
  | _, _ => s

/-- Takes the next job product (R392). -/
def Job.take (j : Job) : Job :=
  { j with next := if j.next + 1 < j.products then j.next + 1 else if j.repeats then 0 else j.products }

/-- No identifier can be drawn (R191): cause SERIALS; source 214 where the device is in MINORITY on the series' ring (R232). -/
def State.serialsOut (s : State) (c : Nat) : State :=
  let ring := ((s.seriesOf (s.chan c)).bind fun k => s.lease.series[k]?).map (·.ring)
  let minority := (ring.map fun r => decide (r < 2) && s.fld .LNK_RING_STAT_STATE r == 4).getD false
  (s.inhibit c 0xA).when minority (·.raise 214)

/-- A product finds no identifier (R191): while a request for a lease is on its way that no refusal run repeats it has not been refused, and the product waits for its answer,
which no rule states (DESIGN CHOICE, assumption 94); otherwise the channel is inhibited. -/
def State.noIdent (s : State) (c : Nat) : State :=
  let asked := ((s.seriesOf (s.chan c)).map fun k => (s.reqOf k).isSome && !s.lease.refusing.contains k).getD false
  if asked && !s.auditFull then s else s.serialsOut c

/-- Work begins on a product (R166, R187): it is recorded, its letters fall due, the channel runs, and START and a change of mode
complete. The first of a run that begins backward leaves the one behind it as the next product forward (R200). A product of the same index that has settled
makes way; an identifier that it did not consume returns at the channel's end (R174). -/
def State.beginWith (s : State) (c : Nat) (index : Int) (start trigAt : Nat) (backward : Bool) : State :=
  let x := s.chan c
  let mb := x.modeAt start
  let follower := follows mb.1 mb.2
  let job := s.jobOf x
  let check := x.checks.find? (fun e => e.1 == index && e.2.1 == start)
  match s.identFor c mb.1 mb.2 with
  | (s, none) => s.noIdent c
  | (s, some ident) =>
    let s := s.applyChange c start
    let x := s.chan c
    let len := match job with
      | some j => some (j.lengthOf j.next)
      | none => none
    let stop :=
      if bitOf mb.1 mTriggered then (if rd mb.2 28 4 = 0 then none else some (pmPlus start (rd mb.2 28 4)))
      else if x.pitch ≠ 0 then some (pmPlus start x.pitch)
      else len.map fun l => pmPlus start l
    let seed := if !bitOf mb.1 mStitch then 0 else if follower then (check.map (·.2.2.1)).getD 0 else s.draw % 2 ^ 32
    let s := if bitOf mb.1 mStitch && !follower then s.drew else s
    let comp := bitOf mb.1 mCompensate
    let gen := if follower then (check.map (·.2.2.2)).getD x.health.gen else x.health.gen
    let line := ((x.maps.find? (·.1 == gen)).map (·.2)).getD x.health.line
    let boxes := (((x.inUse).regions.eraseDups).filterMap s.regionBox)
    let p : Product :=
      { index := index, mode := mb.1, block := mb.2, start := start, stop := stop, backward := backward, ident := ident, consumed := false,
        recorded := false, marked := false, trigAt := trigAt, mapGen := if comp then gen else 0,
        mapLine := if comp then line else 0, seed := seed, job := job.map (·.next), owed := boxes, lineFirst := 0, lines := 0,
        gap := false, inspected := false, verdicts := [], final := none, rejecting := false, missed := false, settled := false,
        region := x.turnOf, epoch := x.epoch, stored := 0, gone := false }
    let again := fun (q : Product) => q.settled && q.index == index
    let alone := x.run.isEmpty
    let spare := (x.products.filter fun q => again q && !q.consumed).filterMap (·.ident)
    let x := { x with turn := x.turn + 1, spare := x.spare ++ spare, products := x.products.filter (!again ·) ++ [p] }
    let x : Channel := if backward then (if alone then { x with nextIdx := index + 1, next := stop.getD x.next } else x)
      else { x with nextIdx := index + 1, next := stop.getD x.next, trigs := if bitOf mb.1 mTriggered then x.trigs.drop 1 else x.trigs }
    let x := x.skipBegun x.products.length
    let s := s.setChan c { x with state := if x.state = 1 then 2 else x.state }
    let s := match x.job with
      | some k => { s with jobs := Tbl.upd Job.blank s.jobs k Job.take }
      | none => s
    let s := s.writeMap c p
    let s := s.stitchCheck p
    let s := s.each boxes fun m s => s.letterDue c index m
    let s := s.completeReport c 0x0505 7 x.s0 0 .OK
    let s := match x.change with
      | some g => if g.mode.isSome && g.applied then
          (s.updChan c ({ · with change := none })).completeReport c 0x050B 2 g.at_ 0 .OK else s
      | none => s
    s.jobEnds c p ((job.map fun j => !j.repeats && decide (j.products ≤ j.next + 1)).getD false)

/-- A product may begin by its channel's state and ends (R169, R173, R180). -/
def Channel.mayBegin (x : Channel) (start : Nat) : Bool :=
  (x.state == 1 || x.state == 2 || x.state == 4) && ((x.drain.map fun e => pmLt start e).getD true) &&
    ((x.offline.map fun e => pmLt start e).getD true)

/-- A follower inhibits for a mismatch and tells its leader (R203). -/
def State.stitchMismatch (s : State) (c : Nat) : State :=
  let x := s.chan c
  let tell := x.follower && !x.causes.contains 0xC && decide (1 ≤ x.state) && decide (x.state ≤ 4)
  let s := s.inhibit c 0xC
  if tell then s.each (stitchLinks x.block) fun m s => s.stitchMessage m 2 [x.par 34 2] else s

/-- Work begins, unless a follower's check is missing or gives another start (R203), or the job product is not wholly spooled (R392; R180 where its volume is
offline). -/
def State.tryBegin (s : State) (c : Nat) (index : Int) (start trigAt : Nat) (backward : Bool) : State :=
  let x := s.chan c
  let mb := x.modeAt start
  let s := if x.mayBegin start then s.switchAt c start else s
  let x := s.chan c
  if !x.mayBegin start then s
  else if follows mb.1 mb.2 && !x.checks.any (fun e => e.1 == index && e.2.1 == start) then
    (if x.checks.any (·.1 == index) then s.stitchMismatch c else s)
  else match s.jobOf x, x.spool with
    | some j, some sp =>
      if j.products ≤ j.next then s
      else if sp.filled.contains j.next then s.beginWith c index start trigAt backward
      else if ((s.vol j.volume).map (·.state == 0)).getD false then (s.inhibit c 0x10).raise 210
      else s.updChan c ({ · with offline := some start })
    | _, _ => s.beginWith c index start trigAt backward

/-- The axis crosses a product's start less LEAD forward, or on a REVERSE channel its end plus LEAD backward (R166, R200). A
TRIGGERED follower's product has the INDEX of its check (R203). -/
def execProductBegin (c : Fin 1024) (backward : Bool) (s : State) : Host.Outcome State Fault Refusal :=
  .next <|
  let s := if s.exists? kChannel c then s.armed c else s
  let x := s.chan c
  if !s.exists? kChannel c then s
  else if backward then
    if !x.has mReverse || x.has mTriggered || !s.on .POS_AX_STAT_DIR x.axis then s
    else match s.nextBackward x with
      | none => s
      | some (i, start) =>
        let e := pmPlus start (x.lead + (if x.pitch ≠ 0 then x.pitch else ((s.jobOf x).map fun j => j.lengthOf j.next).getD 0))
        if decide (s.ahead x.axis e < 0) || ((x.floor.map fun f => pmLt start f).getD false) then s
        else s.tryBegin c i start 0 true
  else match x.nextForward with
    | none => s
    | some (start, t) =>
    let mb := x.modeAt start
    let named := if follows mb.1 mb.2 && bitOf mb.1 mTriggered then x.checks.find? (·.2.1 == start) else none
    if s.reached (pmPlus start (-(x.lead : Int))) then s.tryBegin c ((named.map (·.1)).getD x.nextIdx) start t false else s

/-! ### Camera lines (R193..R195) -/

/-- Adds 1 to a counter of R206, which saturates. -/
def Channel.count (x : Channel) (i : Nat) : Channel :=
  { x with counters := x.counters.set i (min (x.counters.getD i 0 + 1) (2 ^ 32 - 1)) }

/-- Bytes of pixel data of a line (R193); none for an unknown FORMAT. A packed line whose pixels do not fill whole bytes is rounded up, which R193 does not
state (DESIGN CHOICE, assumption 94). -/
def pixelBytes (format pixels : Nat) : Option Nat :=
  match format with
  | 0x01 => some pixels
  | 0x02 => some ((10 * pixels + 7) / 8)
  | 0x03 => some ((12 * pixels + 7) / 8)
  | 0x10 => some (3 * pixels)
  | 0x11 => some ((30 * pixels + 7) / 8)
  | _ => none

/-- The camera's gap opens (R194). -/
def Channel.openGap (x : Channel) (cam : Nat) : Channel :=
  { x with gapped := if x.gapped.contains cam then x.gapped else x.gapped ++ [cam] }

/-- The postmark at which the camera sees a point of a product (R195). -/
def Product.seenAt (p : Product) (pm : Nat) : Nat := pmPlus pm (signed 32 (p.par 0 4))

/-- The gap of a camera up to `hi` (none: still open) meets what the camera sees of a product (R195). -/
def Channel.gapMeets (x : Channel) (cam : Nat) (hi : Option Nat) (p : Product) : Bool :=
  let lo := Tbl.find 0 x.camPm cam
  let last := (x.endOf p).map p.seenAt
  (lo == 0 || ((last.map fun e => pmLt (lo - 1) e).getD true)) && ((hi.map fun h => pmLt (p.seenAt p.start) h).getD true)

/-- A kept line closes its camera's gap: products that it meets carry GAP (R194, R195). -/
def Channel.closeGap (x : Channel) (cam pm : Nat) : Channel :=
  let x := if x.gapped.contains cam then
      { x with gapped := x.gapped.erase cam, products := x.products.map fun p =>
        { p with gap := p.gap || (!p.inspected && x.gapMeets cam (some pm) p) } }
    else x
  { x with camPm := Tbl.set 0 x.camPm cam (pm + 1) }

/-- Where a camera ring lies for which the pool has no space (R207). -/
def State.strayRing (s : State) (x : Channel) : Option Nat :=
  if !x.has mSealed then some (s.draw % 2 ^ 32)
  else
    let gs := s.poolGranules true
    gs[s.draw % max 1 gs.length]?.map fun g => g * 2 ^ 24 + s.draw / 2 ^ 16 % max 1 (2 ^ 24 - Config.cameraLines)

/-- A byte of stacked memory once the writes that wait for their homes are done. -/
def State.byteSoon (s : State) (a : Nat) : Byte :=
  match (s.memo.writes.filter fun w => decide (w.at_ ≤ a) && decide (a < w.at_ + w.bytes.length)).getLast? with
  | some w => w.bytes.getD (a - w.at_) 0
  | none => s.byteNow a

/-- A kept line is stored behind its product's others in the camera ring (R195). Where another product's line or the end of the ring stands behind them, they are
stored again further on with it, so that they stay contiguous; a product that the ring cannot hold has a gap from there (DESIGN CHOICE, assumption 94). A ring
for which the pool had no space lies at a free value (assumption 3), of a SEALED channel in a sealed granule; where there is none its products have gaps. -/
def State.storeLine (s : State) (c : Nat) (p : Product) (bytes : List Byte) : State :=
  let s := if (s.chan c).ring.isNone then (s.updChan c ({ · with ring := s.strayRing (s.chan c) })).drew else s
  let x := s.chan c
  match x.ring with
  | none => s.setChan c (x.updProduct p.index ({ · with gap := true }))
  | some base =>
  let n := (bytes.length + 63) / 64
  let here := p.stored != 0 && p.lineFirst + p.stored == base + x.camLine && decide (x.camLine + n ≤ Config.cameraLines)
  if Config.cameraLines < p.stored + n then s.setChan c (x.updProduct p.index ({ · with gap := true }))
  else
    let at_ := if here || x.camLine + p.stored + n ≤ Config.cameraLines then x.camLine else 0
    let old := if here then [] else (List.range (64 * p.stored)).map fun k => s.byteSoon (64 * p.lineFirst + k)
    let s := s.firmwareWrite (64 * (base + at_)) (old ++ bytes ++ List.replicate (64 * n - bytes.length) 0)
    let first := if here then p.lineFirst else base + at_
    s.updChan c fun x =>
      { x.updProduct p.index (fun q => { q with lineFirst := first, lines := q.lines + 1, stored := q.stored + n }) with
        camLine := at_ + old.length / 64 + n }

/-- A camera line arrives on an inspection lane (R193..R195). A line that meets two cases of LINES_BAD (a step of SEQ, and LOST_POS, OVERRUN or another axis) is
counted twice: R194 does not say (DESIGN CHOICE, assumption 94). Only a line that is kept ends a gap. -/
def State.vizon (s : State) (c : Nat) (h data : List Byte) : State :=
  let x := s.chan c
  let pm := rd h 0 8
  let cam := rd h 8 2
  let seq := rd h 10 2
  let n := rd h 16 4
  let sound := h.length == 32 && crc32 (h.take 24 ++ data.take n) == rd h 24 4
  let good := sound && pixelBytes (rd h 12 1) (rd h 14 2) == some n && rd h 14 2 != 0
  let prev := Tbl.find 0 x.cams cam
  let step := prev == 0 || seq == prev % 2 ^ 16
  let note := fun (x : Channel) => if sound then { x with cams := Tbl.set 0 x.cams cam (seq + 1) } else x
  if !good then s.setChan c (note ((x.count 7).openGap cam))
  else
    let x := if step then x else (x.count 7).openGap cam
    let x := note x
    if rd h 13 1 % 4 != 0 || pmAxis pm != x.axis then s.setChan c ((x.count 7).openGap cam)
    else if s.on .POS_AX_STAT_REVISIT x.axis || pmLt pm (s.fld .POS_AX_HWM_VALUE x.axis) then s.setChan c (x.count 8)
    else
      match x.products.find? fun p => x.spans p (pmPlus pm (-(signed 32 (p.par 0 4)))) && p.has mVerify && !p.gone with
      | none => s.setChan c (x.count 9)
      | some p => (s.setChan c (x.closeGap cam pm)).storeLine c p (h ++ data.take n)

/-- A camera line arrives on a lane: its header and its pixel data. -/
def execVizonLine (l : Fin 140) (header data : List Byte) (s : State) : Host.Outcome State Fault Refusal :=
  .next <|
  match s.chanOfLane l with
  | some c => if s.laneCamera l then s.vizon c header data else s
  | none => s

/-! ### Verdicts and rejects (R195..R197) -/

/-- The body of an INSPECT letter (R195). -/
def Product.inspectBody (p : Product) (handle stop : Nat) : List Byte :=
  le 4 handle ++ le 4 (bits 32 p.index) ++ le 8 p.start ++ le 8 stop ++ le 4 p.lineFirst ++ le 4 p.lines ++
    le 2 (b2n p.gap + 2 * b2n p.marked + 4 * b2n (p.has mProof)) ++ List.replicate 30 0

/-- A product whose camera span has been crossed is inspected (R195), once its lines are visible (R309). -/
def State.inspect (s : State) (c : Nat) (p : Product) : State :=
  let x := s.chan c
  match x.endOf p with
  | none => s
  | some e =>
    let waits := (List.range p.stored).any fun k => s.writing (p.lineFirst + k)
    if p.inspected || p.gone || !p.has mVerify || !s.reached (p.seenAt e) || waits then s
    else
      let p := { p with inspected := true, gap := p.gap || x.gapped.any fun cam => x.gapMeets cam none p }
      let s := s.setChan c (x.updProduct p.index fun _ => p)
      s.each ((s.inspectors x).filterMap s.regionBox) fun m s =>
        s.notice m 0x0521 (s.handleOf kChannel c) p.start (p.inspectBody (s.handleOf kChannel c) e)

/-- The axis crosses a product's end + CAM_OFFSET. -/
def execProductInspected (c : Fin 1024) (s : State) : Host.Outcome State Fault Refusal :=
  .next (if s.exists? kChannel c then s.each (s.chan c).products fun p s => s.inspect c p else s)

/-- Whose verdicts a product awaits (R196, R208): its inspection regions, and for a stitch leader its partners' links (+ 64). -/
def State.expected (s : State) (x : Channel) (p : Product) : List Nat :=
  s.inspectors x ++ if p.has mStitch && !p.follower then (stitchLinks p.block).map (· + 64) else []

/-- The final verdict is fixed (R197): NO_READ where the INSPECT letter carried GAP; a product that does not pass, or is marked, is
rejected, never under PROOF or on a follower (R208). A follower tells its leader. A product that is not inspected yet has had no INSPECT letter. -/
def State.fixVerdict (s : State) (c : Nat) (p : Product) (code : Nat) : State :=
  let code := if p.inspected && p.gap then 2 else code
  let p := { p with final := some code }
  let s := s.updChan c (·.updProduct p.index fun q => { q with final := some code })
  let s := if p.follower then
      s.each (stitchLinks p.block) fun m s => s.stitchMessage m 1 [p.par 34 2, bits 32 p.index, code]
    else s
  let s := if code != 0 || p.marked then s.scheduleReject c p else s
  s.settle c

/-- The highest code of a list of verdicts. -/
def worst (l : List (Nat × Nat)) : Nat := l.foldl (fun n e => max n e.2) 0

/-- A verdict arrives for a product (R196, R197): the first from each source counts; the last expected fixes it. -/
def State.giveVerdict (s : State) (c : Nat) (p : Product) (from_ code : Nat) : State :=
  let p := { p with verdicts := p.verdicts ++ [(from_, code)] }
  let s := s.updChan c (·.updProduct p.index fun _ => p)
  if (s.expected (s.chan c) p).all fun r => p.verdicts.any (·.1 == r) then s.fixVerdict c p (worst p.verdicts) else s

/-- Counts the SUSPECT reports of a nozzle in the window (R388) and sets its state; an edited nozzle keeps what it was given, and one that a head driver
reported stays FAILED. A FAILED nozzle has no WEIGHT, so one that leaves FAILED takes that of a good one. -/
def State.judgeNozzle (s : State) (c n : Nat) : State :=
  let h := (s.chan c).health
  let k := (h.reports.filter fun e => e.1 == n && decide (h.judged < e.2 + h.window)).length
  let v := h.byte n
  let weight := if v / 64 = 2 then 32 else v % 64
  if h.edited.contains n || h.driver.contains n || v / 64 = 3 then s
  else if h.failAfter ≤ k then s.setNozzle c n (2 * 64)
  else if h.weakAfter ≤ k then s.setNozzle c n (64 + weight)
  else s.setNozzle c n weight

/-- A new generation is started where the map has changed. -/
def State.rebuildMap (s : State) (c : Nat) (was : Tbl Nat) : State :=
  if (s.chan c).health.bytes = was then s else s.updChan c fun x => x.newGeneration.1

/-- SUSPECT fields feed the map (R198, R208): on a COMPENSATE channel that uses verdicts, not under PROOF. -/
def State.suspects (s : State) (c : Nat) (p : Product) (nozzles : List Nat) : State :=
  let h := (s.chan c).health
  if !p.has mCompensate || p.has mProof || h.flags % 2 = 0 then s
  else
    let named := nozzles.filter (· < h.nozzles)
    let s := s.updChan c fun x => { x with health := { x.health with reports := x.health.reports ++ named.map fun n => (n, x.health.judged) } }
    (s.each ((s.chan c).health.reports.map (·.1)).eraseDups fun n s => s.judgeNozzle c n).rebuildMap c h.bytes

/-- VERDICT (R196, R389). The product is found by INDEX: START is not compared, which R196 does not ask for (DESIGN CHOICE, assumption 94). -/
def svcVerdict (L : Letter) : Service := fun b s =>
  let c := chanOf L
  let x := s.chan c
  let owner := s.fld .PST_MB_OWNER_OWNER L.mailbox
  match s.checkHandle kChannel L.handle.toNat with
  | some st => refuse s L st
  | none =>
    if owner = 0 || !(s.inspectors x).contains (owner - 1) then refuse s L .DENIED
    else if rd b 0 4 != L.handle.toNat || 2 < rd b 16 1 || 1 < rd b 17 1 || !zeros b 18 6 then refuse s L .BAD_PARAM
    else
      let waiting := fun (p : Product) => bits 32 p.index == rd b 4 4 && p.has mVerify && p.inspected && p.final.isNone && !p.gone &&
        !p.verdicts.any (·.1 == owner - 1)
      match x.products.find? waiting with
      | none => okBody (s.logFirmware (Config.recordCode 3).toNat b) L []
      | some p =>
        let wrong := rd b 17 1 = 1 && ((p.ident.map fun i => i.id != rd b 24 8).getD false)
        let s := s.updChan c fun x => { x with health := { x.health with judged := x.health.judged + 1 } }
        let s := s.suspects c p (((List.range 8).map fun k => rd b (32 + 4 * k) 4).filter (· != 0xFFFFFFFF))
        okBody (s.giveVerdict c p (owner - 1) (if wrong then 1 else rd b 16 1)) L []

/-- VERDICT. -/
def execVerdict (L : Letter) (s : State) : Host.Outcome State Fault Refusal :=
  .next (s.serve L (chanOffer false 64) false (svcVerdict L))

/-- The axis crosses a product's deadline forward (R196, R197): what is still expected counts as NO_VERDICT. A follower's parameters of rejection are ignored, its
deadline among them (R208). -/
def execVerdictDeadline (c : Fin 1024) (s : State) : Host.Outcome State Fault Refusal :=
  .next <|
  if !s.exists? kChannel c then s
  else s.each ((s.chan c).products.filter fun p => p.has mVerify && p.final.isNone && !p.settled && !p.follower && s.reached p.deadline) fun p s =>
    s.fixVerdict c p 3

/-! ### Nozzle health (R198, R388) -/

/-- The edits of CHANNEL.HEALTH_SET as (nozzle, byte). -/
def healthEdits (b : List Byte) : List (Nat × Nat) := (List.range (rd b 12 4)).map fun k => (rd b (16 + 8 * k) 4, rd b (20 + 8 * k) 1)

/-- The fields of CHANNEL.HEALTH_SET lie in their ranges; WEIGHT is 0 for FAILED and OFF (R198). -/
def goodHealth (h : Health) (b : List Byte) : Bool :=
  rd b 0 2 != 0 && decide (rd b 0 2 ≤ rd b 2 2) && decide (rd b 8 1 < 4) && zeros b 9 3 && decide (rd b 12 4 ≤ 506) &&
    ((List.range (rd b 12 4)).all fun k => zeros b (21 + 8 * k) 3) &&
    (healthEdits b).all fun e => decide (e.1 < h.nozzles) && (decide (e.2 < 128) || e.2 % 64 == 0)

/-- CHANNEL.HEALTH_SET (R388): an edit takes precedence over reports. -/
def svcChannelHealthSet (L : Letter) : Service := fun b s =>
  let c := chanOf L
  match s.chanCheck L [0, 1, 2, 3, 4, 5] with
  | some st => refuse s L st
  | none =>
    if !goodHealth (s.chan c).health b then refuse s L .BAD_PARAM
    else
      let s := s.each (healthEdits b) fun e s => s.setNozzle c e.1 e.2
      let s := s.updChan c fun x => { x with health := { x.health with
        weakAfter := rd b 0 2, failAfter := rd b 2 2, window := rd b 4 4, flags := rd b 8 1,
        edited := (x.health.edited ++ (healthEdits b).map (·.1)).eraseDups } }
      let s := s.each ((s.chan c).health.reports.map (·.1)).eraseDups fun n s => s.judgeNozzle c n
      let r := (s.chan c).newGeneration
      accepted (s.setChan c r.1) L c [r.2]

/-- CHANNEL.HEALTH_SET. -/
def execChannelHealthSet (L : Letter) (s : State) : Host.Outcome State Fault Refusal :=
  .next (s.serve L ⟨.anyOwner, false, false, fun n b => n == 16 + 8 * rd b 12 4⟩ false (svcChannelHealthSet L))

/-- CHANNEL.HEALTH_QUERY (R388). -/
def svcChannelHealthQuery (L : Letter) : Service := fun b s =>
  match s.chanCheck L [0, 1, 2, 3, 4, 5] with
  | some st => refuse s L st
  | none =>
    let h := (s.chan (chanOf L)).health
    let first := rd b 0 4
    let n := rd b 4 4
    if n = 0 || 4048 < n || h.nozzles < first + n then refuse s L .BAD_PARAM
    else okBody s L (le 4 h.gen ++ le 4 h.nozzles ++ le 8 0 ++ (List.range n).map fun k => BitVec.ofNat 8 (h.byte (first + k)))

/-- CHANNEL.HEALTH_QUERY. -/
def execChannelHealthQuery (L : Letter) (s : State) : Host.Outcome State Fault Refusal :=
  .next (s.serve L (chanOffer true 8) false (svcChannelHealthQuery L))

/-- The firmware writes a completed generation back to where the job's map lies (R388), while that volume is online and open for writing by the channel's
mailbox. The blocks of a sealed volume that it touches take new counters; what else they hold is not the map's, so their tags are free values. -/
def State.writeBackMap (s : State) (c : Nat) : State :=
  match s.jobOf (s.chan c) with
  | none => s
  | some j =>
    let mine := s.store.opens.any fun o => o.uid == j.mapVolume && o.write && o.box == s.ownerBox kChannel c
    match s.vol j.mapVolume with
    | none => s
    | some v =>
      if j.mapVolume = 0 || !mine || v.state != 0 then s
      else
        let h := (s.chan c).health
        let bytes := (List.range h.nozzles).map fun k => BitVec.ofNat 8 (h.byte k)
        let first := j.mapOffset / 4096
        let blocks := (List.range ((j.mapOffset % 4096 + h.nozzles + 4095) / 4096)).map (first + ·)
        let s := (s.each blocks fun b s => (s.updVol v.uid (s.wroteBlock b s.draw)).drew).when v.isSealed (·.perf 8 0 0 blocks.length none)
        s.showStore.emit (.healthMap v.uid j.mapOffset bytes)

/-- A generation of a channel's map is complete (R198, R388); one that waited for another to be freed is begun first. -/
def execMapGenerationComplete (c : Fin 1024) (s : State) : Host.Outcome State Fault Refusal :=
  .next <|
  let s := if s.exists? kChannel c then s.updChan c Channel.startWanted else s
  match (s.chan c).health.building with
  | [] => s
  | g :: _ =>
    if s.place ((s.chan c).has mSealed) s.allocs (s.chan c).health.lines = none then s else
    let s := (s.putGeneration c g).writeBackMap c
    s.each (s.svc.ops.filter fun o => o.letter.opcode.toNat == 0x050C && o.object == c.val && o.args == [g]) fun o s =>
      s.complete o .OK o.letter.handle.toNat 0 (le 4 g)

/-- The nozzles before a lane's in the channel's map (R198). -/
def Channel.nozzleBase (x : Channel) (l : Nat) : Nat :=
  laneStart x.health.lanes l

/-- A head driver reports failed nozzles of its lane (R198, R388): FAILED at once, but for nozzles an edit has set. -/
def execHeadDriverStatus (l : Fin 140) (failed : List Nat) (s : State) : Host.Outcome State Fault Refusal :=
  .next <|
  match s.chanOfLane l with
  | none => s
  | some c =>
    let h := (s.chan c).health
    if h.flags / 2 = 0 || !(s.chan c).has mCompensate then s
    else
      let b := (s.chan c).nozzleBase l
      let hit := (failed.filter (· < s.laneNozzles l)).map (b + ·)
      let hit := hit.filter fun n => decide (n < h.nozzles) && !h.edited.contains n
      let s := s.updChan c fun x => { x with health := { x.health with driver := (x.health.driver ++ hit).eraseDups } }
      (s.each hit fun n s => s.setNozzle c n (2 * 64)).rebuildMap c h.bytes

/-! ### Stitching (R203, R208) -/

/-- The channels of a group and role that name a link. -/
def State.stitchers (s : State) (link role : Nat) : List Nat :=
  s.chanList.filter fun c =>
    let x := s.chan c
    x.has mStitch && b2n x.follower == role && (stitchLinks x.block).contains link

/-- A check agrees with a follower's modes, and with its own boundary where it has fixed ones (R203). -/
def Channel.agrees (x : Channel) (index : Int) (start modes : Nat) : Bool :=
  let mode := (x.modeAt start).1
  mode / 8 % 16 == modes &&
    (bitOf mode mTriggered ||
      (if x.pitch ≠ 0 then pmPlus x.base ((index - x.baseIdx) * x.pitch) == start
        else index != x.nextIdx || x.next == start))

/-- A leader's stitch check arrives (R203): a TRIGGERED follower takes its product from it. It takes the
place of an earlier check of its INDEX. -/
def execStitchCheck (link : Fin 144) (group : BitVec 16) (index : Int) (start : BitVec 64) (seed : BitVec 32) (modes : BitVec 4)
    (mapGen : BitVec 32) (s : State) : Host.Outcome State Fault Refusal :=
  .next <|
  s.each ((s.stitchers link 1).filter fun c => (s.chan c).par 34 2 == group.toNat && [1, 2, 4].contains (s.chan c).state) fun c s =>
    let x := s.chan c
    if !x.agrees index start.toNat modes.toNat then s.stitchMismatch c
    else
      let x := { x with checks := x.checks.filter (·.1 != index) ++ [(index, start.toNat, seed.toNat, mapGen.toNat)] }
      s.setChan c (if bitOf (x.modeAt start.toNat).1 mTriggered then { x with trigs := x.trigs ++ [(start.toNat, 0)] } else x)

/-- No check has arrived by START − LEAD ÷ 2 (R203). -/
def execStitchCheckMissing (c : Fin 1024) (s : State) : Host.Outcome State Fault Refusal :=
  .next <|
  let x := s.chan c
  if s.exists? kChannel c && x.follower && !bitOf (x.modeAt x.next).1 mTriggered && x.mayBegin x.next &&
      !x.checks.any (fun e => e.1 == x.nextIdx) && s.reached (pmPlus x.next (-((x.lead / 2 : Nat) : Int)))
  then s.stitchMismatch c else s

/-- A partner's message arrives (R203, R208): a follower's verdict counts for its leader's product; overlap entries of the four newest
generations of a partner's map stand beside a COMPENSATE channel's own; a follower that has inhibited inhibits its leader. -/
def execStitchPartnerMessage (link : Fin 144) (group : BitVec 16) (m : StitchMsg) (s : State) : Host.Outcome State Fault Refusal :=
  .next <|
  let all := s.chanList.filter fun c => (s.chan c).has mStitch && (s.chan c).par 34 2 == group.toNat && (stitchLinks (s.chan c).block).contains link
  match m with
  | .verdict i code =>
    s.each (all.filter fun c => !(s.chan c).follower) fun c s =>
      match (s.chan c).products.find? fun p => p.index == i && p.has mVerify && p.final.isNone && !p.gone && !p.verdicts.any (·.1 == link.val + 64) with
      | some p => s.giveVerdict c p (link + 64) code
      | none => s
  | .overlap g es =>
    s.each (all.filter fun c => (s.chan c).has mCompensate) fun c s =>
      s.updChan c fun x =>
        let es := es.filter fun e => e.1 < x.health.nozzles
        let kept := x.health.partner.filter fun q => !(q.1 == link.val && (decide (q.2.1 + 4 ≤ g) || (q.2.1 == g && es.any (·.1 == q.2.2.1))))
        { x with health := { x.health with partner := kept ++ es.map fun e => (link.val, g, e.1, e.2.toNat) } }
  | .mismatch => s.each (all.filter fun c => !(s.chan c).follower) fun c s => s.inhibit c 0xC

/-- A link has been out of ACTIVE for 10 ms (R203). -/
def execStitchLinkTimeout (link : Fin 144) (s : State) : Host.Outcome State Fault Refusal :=
  .next <|
  if s.linkActive link || !s.ran .linkDown link 10000000 then s
  else s.each (s.stitchers link 0 ++ s.stitchers link 1) fun c s => s.stitchMismatch c

/-! ### Triggers (R204, R205) -/

/-- The block and start of the product that a trigger at `t` would start (R205, R211); none where TRIGGERED is not in force there. -/
def Channel.trigger (x : Channel) (t : Nat) : Option (List Byte × Nat) :=
  let under := fun (b : List Byte) => (b, pmPlus t (rd b 20 4))
  match x.change.bind fun g => g.mode.map fun e => (g.at_, e) with
  | some (m, e) =>
    let new := under e.2
    let old := under x.block
    if bitOf e.1 mTriggered && !pmLt new.2 m then some new
    else if x.has mTriggered && pmLt old.2 m then some old else none
  | none => if x.has mTriggered then some (under x.block) else none

/-- The checks of R204 in their order: the counter of the first that fails, or of acceptance. -/
def State.triggerCounter (s : State) (x : Channel) (t start spacing : Nat) : Nat :=
  let a := x.axis
  if !s.axisRuns a then 1
  else if s.on .POS_AX_STAT_DIR a then 2
  else if s.on .POS_AX_STAT_REVISIT a then 3
  else if (x.lastTrig.map fun l => decide (pmDiff t l ≤ 0) || decide (pmDiff t l < counts spacing)).getD false then 4
  else if x.state = 1 || x.state = 2 || (x.state = 4 && (x.drain.map (pmLt start)).getD false) then 6
  else 5

/-- A trigger of channel `c` at postmark `t` (R204, R205). The missed product of an inhibited SERIALIZE channel is recorded in the production log also under PROOF:
R204 does not name the log (DESIGN CHOICE, assumption 94). -/
def State.trigger (s : State) (c t : Nat) (rising held : Bool) : State :=
  let x := s.chan c
  match x.trigger t with
  | none => s
  | some (b, start) =>
    if (rd b 32 1 == 0) != rising then s
    else if !held then s.setChan c (x.count 0)
    else
      let k := s.triggerCounter x t start (rd b 24 4)
      let x := x.count k
      if k = 6 then
        let floor := x.floor.getD x.s0
        let x := { x with lastTrig := some t }
        s.setChan c (if pmLt start x.s0 || pmLt start floor then x else { x with trigs := x.trigs ++ [(start, t)] })
      else
        let s := s.setChan c x
        match s.seriesOf x with
        | some q => if k = 5 && x.state = 3 && x.has mSerialize then s.audit q 7 0 1 0 (s.handleOf kChannel c) t else s
        | none => s

/-- An edge on a trigger input whose level then holds for at least 1 µs, or does not (R204). -/
def execTriggerEdge (k : Fin 16) (rising held : Bool) (time : Nat) (s : State) : Host.Outcome State Fault Refusal :=
  .next <|
  s.each (s.chanList.filter fun c => (s.chan c).inputs.contains k && !(s.chan c).follower) fun c s =>
    s.trigger c (pmMake (s.chan c).axis (s.posAt (s.chan c).axis time)) rising held

/-! ### Jobs (R390..R392) -/

/-- A job's header checks (R390): MAGIC, CRC, and ranges within a job of `len` bytes; the record it gives. -/
def jobHeader (h table : List Byte) (volume off len ahead : Nat) : Option Job :=
  let flags := rd h 32 4
  let n := rd h 4 4
  let tabled := flags % 2 == 1
  let t := (List.range n).map fun k => (rd table (8 * k) 4, rd table (8 * k + 4) 4)
  let rows := if tabled then t else []
  let pad := fun (b : Nat) => (b + 4095) / 4096 * 4096
  let data := if tabled then t.foldl (fun a e => a + pad e.2) 0 else n * pad (rd h 12 4)
  if rd h 0 4 = 0x4A4F4231 && crc32 (h.take 64) = rd h 64 4 && n != 0 && decide (flags < 4) && zeros h 36 4 && rd h 24 8 % 4096 == 0 &&
      decide (rd h 24 8 + data ≤ len) && (if tabled then decide (rd h 16 8 + 8 * n ≤ len) && decide (8 * n ≤ table.length) else rd h 12 4 != 0)
  then some ⟨volume, off, len, n, rd h 8 4, rd h 12 4, rows, flags / 2 == 1, rd h 40 8, rd h 48 8, rd h 56 4, rd h 60 4, ahead, 0⟩
  else none

/-- The largest product of a job in bytes. -/
def Job.largest (j : Job) : Nat := if j.table.isEmpty then j.bytes else j.table.foldl (fun n e => max n e.2) 0

/-- JOB.OPEN (R391); `read` is what the volume holds there. -/
def svcJobOpen (L : Letter) (read : JobRead) : Service := fun b s =>
  match s.checkOwned kVolume L.handle.toNat L.mailbox with
  | some st => refuse s L st
  | none =>
    match (s.openAt (hIndex L.handle.toNat)).bind fun o => s.vol o.uid with
    | none => refuse s L .NOT_READY
    | some v =>
      if v.state != 0 then refuse s L .NOT_READY
      else if rd b 0 8 % 4096 != 0 || 2048 < rd b 16 4 || !zeros b 20 4 || v.kind != 0 || rd b 8 8 < 4096 ||
          v.size * 2 ^ 20 < rd b 0 8 + rd b 8 8 then refuse s L .BAD_PARAM
      else match read with
        | .failed st => refuse s L (if st = .INTEGRITY then .INTEGRITY else .DRIVE_ERROR)
        | .data h t =>
          match jobHeader h t v.uid (rd b 0 8) (rd b 8 8) (if rd b 16 4 = 0 then 64 else rd b 16 4) with
          | none => refuse s L .BAD_PARAM
          | some j => match s.nextIndex kJob with
            | none => refuse s L .NO_RESOURCE
            | some i =>
              let s := s.createAt kJob i L.mailbox
              ({ s with jobs := Tbl.set Job.blank s.jobs i j }, ⟨.OK, s.handleOf kJob i, 0, le 4 j.products ++ le 4 0 ++ le 8 j.largest⟩)

/-- JOB.OPEN. -/
def execJobOpen (L : Letter) (read : JobRead) (s : State) : Host.Outcome State Fault Refusal :=
  .next (s.serve L (chanOffer false 24) false (svcJobOpen L read))

/-- The channel that binds a job. -/
def State.jobHolder (s : State) (h : Nat) : Option Nat :=
  (s.chanList.find? fun c => (s.chan c).holds.any fun b => b.kind == 8 && b.handle == h).map (s.handleOf kChannel ·)

/-- JOB.CLOSE (R391). -/
def svcJobClose (L : Letter) : Service := fun _ s =>
  match s.checkOwned kJob L.handle.toNat L.mailbox with
  | some st => refuse s L st
  | none => match s.jobHolder L.handle.toNat with
    | some h => refuseHeld s L h
    | none =>
      let i := hIndex L.handle.toNat
      okBody ({ s with jobs := Tbl.set Job.blank s.jobs i Job.blank }.destroy kJob i) L []

/-- JOB.CLOSE. -/
def execJobClose (L : Letter) (s : State) : Host.Outcome State Fault Refusal :=
  .next (s.serve L (chanOffer false 0) false (svcJobClose L))

/-- The spool of the channel that binds job `i`, and whether it is bound. -/
def State.spoolOf (s : State) (h : Nat) : Option Spool :=
  (s.chanList.find? fun c => (s.chan c).bindings.any fun b => b.kind == 8 && b.handle == h).bind fun c => (s.chan c).spool

/-- JOB.QUERY (R391). -/
def svcJobQuery (L : Letter) : Service := fun _ s =>
  match s.checkOwned kJob L.handle.toNat L.mailbox with
  | some st => refuse s L st
  | none =>
    let j := Tbl.find Job.blank s.jobs (hIndex L.handle.toNat)
    let sp := (s.spoolOf L.handle.toNat).getD ⟨0, 0, 0, 0, []⟩
    okBody s L (le 4 ((j.upcoming (2 * j.ahead)).eraseDups.filter sp.filled.contains).length ++ le 4 j.next ++ le 4 sp.slots ++ le 4 sp.slotLines ++
      le 4 sp.spoolBase ++ List.replicate 12 0)

/-- JOB.QUERY. -/
def execJobQuery (L : Letter) (s : State) : Host.Outcome State Fault Refusal :=
  .next (s.serve L (chanOffer true 0) false (svcJobQuery L))

/-- Data bytes of job product `n` (R390). -/
def Job.bytesOf (j : Job) (n : Nat) : Nat := if j.table.isEmpty then j.bytes else (j.table.getD n (0, 0)).2

/-- A job product is wholly spooled into its slot (R392): from START, one of the next SPOOL_AHEAD, into a slot whose product has
settled. The store engine writes its data there, visible to every agent (R297, R387), once the homes take it. -/
def execSpoolSlotFilled (c : Fin 1024) (n : SpoolFill) (s : State) : Host.Outcome State Fault Refusal :=
  .next <|
  let x := s.chan c
  match s.jobOf x, x.spool with
  | some j, some sp =>
    let same := fun k => k % max 1 sp.slots == n.product.toNat % max 1 sp.slots
    let busy := x.products.any fun p => !p.settled && (p.job.map same).getD false
    let p := n.product.toNat
    if x.state = 0 || !(j.upcoming j.ahead).contains p || busy || sp.filled.contains p || ((s.vol j.volume).map (·.state != 0)).getD true ||
        ((linesAt (64 * (sp.spoolBase + p % max 1 sp.slots * sp.slotLines)) ((n.data.take (j.bytesOf p)).length)).any fun l => !s.lineFree l)
    then s
    else
      let slot := 64 * (sp.spoolBase + p % max 1 sp.slots * sp.slotLines)
      (s.setChan c { x with spool := some { sp with filled := sp.filled.filter (fun k => !same k) ++ [p] } }).storeWrite slot
        (n.data.take (j.bytesOf p))
  | _, _ => s

end Sys2Proof.Machine
end

