-- ==== Sys2Proof/Machine/SelfTest.lean ====
section
/-! DEFINITION. Self-test (R402, R515..R519): the TEST services and the slices. -/

namespace Sys2Proof.Machine

/-! ### TEST services -/

/-- TEST.SET_BUDGET: 40..60,000 ms; 0 is taken as 2,000. -/
def svcSetBudget (L : Letter) : Service := fun b s =>
  let v := if rd b 0 4 = 0 then 2000 else rd b 0 4
  if v < 40 || 60000 < v then refuse s L .BAD_PARAM else okBody (s.setSecure fun x => { x with budget := v ^^^ 2000 }) L []

/-- TEST.SET_BUDGET. -/
def execTestSetBudget (L : Letter) (s : State) : Host.Outcome State Fault Refusal :=
  .next (s.serve L ⟨.admin, false, false, fixedLen 4⟩ false (svcSetBudget L))

/-- Repairs in force of one kind: fuse or soft. -/
def State.repairCount (s : State) (fuse : Bool) : Nat := (s.secure.repairs.filter (·.fuse == fuse)).length

/-- TEST.QUERY. -/
def execTestQuery (L : Letter) (s : State) : Host.Outcome State Fault Refusal :=
  .next (s.serve L ⟨.anyOwner, false, true, fixedLen 0⟩ false fun _ s =>
    okBody s L (le 4 512 ++ le 4 s.secure.cycle ++ le 4 s.secure.failures ++ le 4 (s.repairCount false) ++ le 4 (s.repairCount true) ++
      le 4 (s.fld .DEV_ST_STAT_FUSE_LEFT 0)))

/-- Slices that TEST.RUN leaves to a shut-down (R516). -/
def skipped (onDemand : Bool) (k : Nat) : Nat := if onDemand && decide (496 ≤ k) && decide (k ≤ 508) then 509 else k

/-- TEST.RUN: one at a time (R379), while every channel is IDLE. -/
def svcTestRun (L : Letter) : Service := fun b s =>
  let n := rd b 0 4
  if n = 0 || 1024 < n then refuse s L .BAD_PARAM
  else if s.oneRuns || s.busyChannel.isSome then refuse s L .BUSY
  else accepted s L 0 [n]

/-- TEST.RUN begins at the stored pointer. -/
def State.beginRun (s : State) (n : Nat) : State :=
  let k := skipped true (s.fld .DEV_ST_STAT_NEXT 0)
  ((s.setSecure fun x => { x with elapsed := 0 }).put .DEV_ST_STAT_RUNNING 0 1).beginSlice ⟨some n, [], k⟩

/-- TEST.RUN. -/
def execTestRun (L : Letter) (s : State) : Host.Outcome State Fault Refusal :=
  .next (s.serveThen L ⟨.admin, false, false, fixedLen 4⟩ false (svcTestRun L) fun o s => s.beginRun (o.args.getD 0 0))

/-! ### Failures and repairs (R517..R519) -/

/-- The test records are read-only (R405, R437). -/
def State.recordsReadOnly (s : State) : Bool := bitOf (s.fld .CFG_NVM_STAT_RO_AREA 0) 6

/-- Two places draw on the same spares (R518): rows or columns of a block memory, cluster columns of a region. -/
def sameSpares (kind unit : Nat) (r : Repair) : Bool :=
  r.kind == kind && (if kind = 3 then r.unit / 64 == unit / 64 else r.unit == unit)

/-- A spare is free for a place. -/
def State.spareFree (s : State) (kind unit : Nat) : Bool :=
  1 ≤ kind && kind ≤ 3 && decide ((s.secure.repairs.filter (sameSpares kind unit)).length < 2)

/-- The region that a place lies in. -/
def placeRegion (kind unit : Nat) : Option Nat :=
  if kind = 1 || kind = 2 then some (unit / 192) else if kind = 3 then some (unit / 64) else none

/-- How the last confirmed failure was repaired, as DEV_ST_FAIL shows it. -/
def State.showRepair (s : State) (repair recur : Nat) : State := (s.put .DEV_ST_FAIL_REPAIR 0 repair).put .DEV_ST_FAIL_RECUR 0 recur

/-- Replaces the repair of a place. -/
def State.setRepair (s : State) (old new : Repair) : State :=
  s.setSecure fun x => { x with repairs := x.repairs.map fun r => if r = old then new else r }

/-- The original place of a soft repair fails again: the third recurrence blows a fuse entry while one is left, charged 40 ms; with none left the soft repair
is permanent. A place under a fuse repair, or a permanent one, counts no more: DESIGN CHOICE (assumption 100). -/
def State.recurrence (s : State) (r : Repair) : State :=
  let n := r.recur + 1
  if r.fuse then s.showRepair 2 r.recur
  else if r.recur = 3 then s.showRepair 1 2
  else if n < 3 then (s.setRepair r { r with recur := n, passes := 0 }).showRepair 1 n
  else if s.fld .DEV_ST_STAT_FUSE_LEFT 0 = 0 then ((s.setRepair r { r with recur := 3, passes := 0 }).showRepair 1 r.recur).raise 240
  else
    let s := (s.setRepair r { r with fuse := true, passes := 0 }).put .DEV_ST_STAT_FUSE_LEFT 0 (s.fld .DEV_ST_STAT_FUSE_LEFT 0 - 1)
    ((s.setSecure fun x => { x with elapsed := x.elapsed + 40 }).showRepair 2 r.recur).raise 240

/-- A confirmed failure without a repair: a spare where one is free and the records can be written, else the place is unrepairable. -/
def State.firstFailure (s : State) (slice kind unit place : Nat) : State :=
  if !s.spareFree kind unit then
    let s := match placeRegion kind unit with
      | some n => s.orFld .DEV_ST_DEFECT_REGIONS 0 (2 ^ n)
      | none => s
    (s.showRepair 3 0).raise 241
  else if s.recordsReadOnly then s.showRepair 0 0
  else
    let s := s.setSecure fun x => { x with repairs := x.repairs ++ [⟨slice, kind, unit, place, 0, 0, false⟩] }
    (s.showRepair 1 0).raise 239

/-- A confirmed failure (R517): DEV_ST_FAIL, FAILS, source 238 and the logbook record, and its repair. -/
def State.confirmedFailure (s : State) (slice kind unit place signature expected : Nat) : State :=
  let s := ((s.put .DEV_ST_FAIL_SLICE 0 slice).put .DEV_ST_FAIL_KIND 0 kind).put .DEV_ST_FAIL_UNIT 0 unit
  let s := ((s.bump .DEV_ST_STAT_FAILS 0 1).setSecure fun x => { x with failures := x.failures + 1 }).raise 238
  let s := s.logFirmware (Config.recordCode 7).toNat (le 2 slice ++ le 2 kind ++ le 2 unit ++ le 2 place ++ le 16 signature ++ le 16 expected)
  match s.secure.repairs.find? fun r => r.slice == slice && r.kind == kind && r.unit == unit && r.place == place with
  | some r => s.recurrence r
  | none => s.firstFailure slice kind unit place

/-- The soft repairs of a slice whose original places pass: the 16th pass in a row releases one, with source 239. -/
def State.passedRun (s : State) (slice : Nat) : State :=
  s.each (s.secure.repairs.filter fun r => !r.fuse && r.recur != 3 && r.slice == slice) fun r s =>
    if r.passes < 15 then s.setRepair r { r with passes := r.passes + 1 }
    else (s.setSecure fun x => { x with repairs := x.repairs.erase r }).raise 239

/-- What a slice's signatures showed. -/
def State.sliceResult (s : State) (k : Nat) : SliceEnd → State
  | .pass => s.passedRun k
  | .transient => s.logFirmware (Config.recordCode 5).toNat (le 2 k)
  | .confirmed kind unit place signature expected => s.confirmedFailure k kind unit.toNat place signature expected

/-! ### The slices (R516) -/

/-- The slice after the one that ran: the pointer is stored unless the records are read-only, and a wrap ends a self-test cycle. -/
def State.nextSlice (s : State) (t : TestRun) : State × Nat :=
  let k := skipped t.left.isSome ((t.now + 1) % 512)
  let s := s.setSecure fun x => { x with cycle := x.cycle + 1 }
  let s := if s.recordsReadOnly then (s.put .DEV_ST_STAT_RECORD_RO 0 1).when (!s.on .DEV_ST_STAT_RECORD_RO 0) (·.raise 247)
    else s.put .DEV_ST_STAT_NEXT 0 k
  (s.when (k < t.now) fun s => (s.setSecure fun x => { x with cycle := 0 }).raise 246, k)

/-- TEST.RUN has run its slices: the regions tested wake, and it completes. -/
def State.endRun (s : State) (regions : List Nat) : State :=
  let s := (s.setSecure fun x => { x with run := none }).put .DEV_ST_STAT_RUNNING 0 0
  (s.each regions fun n s => s.askRegionReset n true).completeAll 0x0E03 0 .OK []

/-- What follows a slice: the next, or the end of the count or of the budget. -/
def State.goOn (s : State) (t : TestRun) (k : Nat) : State :=
  let regions := match sliceRegion t.now with
    | some n => if t.regions.contains n then t.regions else t.regions ++ [n]
    | none => t.regions
  match t.left with
  | some n =>
    if n ≤ 1 then s.endRun regions else s.beginSlice ⟨some (n - 1), regions, k⟩
  | none =>
    if s.secure.elapsed + 40 ≤ s.secure.budget ^^^ 2000 then s.beginSlice ⟨none, regions, k⟩ else s.finishLeaving

/-- A slice has run, with its reruns and diagnosis, in `ms`. -/
def execSelfTestSliceDone (r : SliceEnd) (ms : Nat) (s : State) : Host.Outcome State Fault Refusal :=
  .next <|
  match s.secure.run with
  | none => s
  | some t =>
    let s := (s.setSecure fun x => { x with elapsed := x.elapsed + ms }).endSlice t.now
    let x := (s.sliceResult t.now r).nextSlice t
    x.1.goOn t x.2

end Sys2Proof.Machine
end

