-- ==== Sys2Proof/Machine/Dispatch.lean ====
section
/-! DEFINITION. The meaning of each command: one direct call each. -/

namespace Sys2Proof.Machine

/-- What a command does to everything but the queue. -/
def exec (i : Instr) (s : State) : Host.Outcome State Fault Refusal :=
  match i with
  | .registerWrite port addr bytes value => Sys2Proof.Machine.execRegisterWrite port addr bytes value s
  | .wideValueLowRead port addr => Sys2Proof.Machine.execWideValueLowRead port addr s
  | .regionControlAccess region word0 word1 => Sys2Proof.Machine.execRegionControlAccess region word0 word1 s
  | .tokenCapture site src rails => Sys2Proof.Machine.execTokenCapture site src rails s
  | .memCellRead region cell addr => Sys2Proof.Machine.execMemCellRead region cell addr s
  | .memCellWrite region cell addr data => Sys2Proof.Machine.execMemCellWrite region cell addr data s
  | .memCellSwap region cell addr data => Sys2Proof.Machine.execMemCellSwap region cell addr data s
  | .arbiterRequest region arbiter req => Sys2Proof.Machine.execArbiterRequest region arbiter req s
  | .arbiterRelease region arbiter => Sys2Proof.Machine.execArbiterRelease region arbiter s
  | .wakeStrobe mask => Sys2Proof.Machine.execWakeStrobe mask s
  | .monitorWindowEnd region counts => Sys2Proof.Machine.execMonitorWindowEnd region counts s
  | .strobeTapPulse region tree index => Sys2Proof.Machine.execStrobeTapPulse region tree index s
  | .userClockLoss tree => Sys2Proof.Machine.execUserClockLoss tree s
  | .userClockReturn tree => Sys2Proof.Machine.execUserClockReturn tree s
  | .bmRead region index port addr ecc => Sys2Proof.Machine.execBmRead region index port addr ecc s
  | .bmWrite region index port addr mask data => Sys2Proof.Machine.execBmWrite region index port addr mask data s
  | .bmSwap region index port addr mask data ecc => Sys2Proof.Machine.execBmSwap region index port addr mask data ecc s
  | .bmWriteAck region index port addr mask data => Sys2Proof.Machine.execBmWriteAck region index port addr mask data s
  | .agentRead a p l => Sys2Proof.Machine.execAgentRead a p l s
  | .agentReadOwn a p l => Sys2Proof.Machine.execAgentReadOwn a p l s
  | .agentWrite a p l data mask => Sys2Proof.Machine.execAgentWrite a p l data mask s
  | .agentWriteNa a p l data mask => Sys2Proof.Machine.execAgentWriteNa a p l data mask s
  | .agentReadNa a p l => Sys2Proof.Machine.execAgentReadNa a p l s
  | .agentFlush a p l => Sys2Proof.Machine.execAgentFlush a p l s
  | .agentStream a p word dest data => Sys2Proof.Machine.execAgentStream a p word dest data s
  | .agentFence a p word => Sys2Proof.Machine.execAgentFence a p word s
  | .agentReservedOp a p word => Sys2Proof.Machine.execAgentReservedOp a p word s
  | .domainStopped domain => Sys2Proof.Machine.execDomainStopped domain s
  | .domainRunning domain => Sys2Proof.Machine.execDomainRunning domain s
  | .freezeRequest publisher receiver => Sys2Proof.Machine.execFreezeRequest publisher receiver s
  | .freezeTimeout publisher receiver => Sys2Proof.Machine.execFreezeTimeout publisher receiver s
  | .crossingResetAssert domain domainEnd => Sys2Proof.Machine.execCrossingResetAssert domain domainEnd s
  | .crossingResetSeen domain discarded targets => Sys2Proof.Machine.execCrossingResetSeen domain discarded targets s
  | .crossingResetRelease domain domainEnd => Sys2Proof.Machine.execCrossingResetRelease domain domainEnd s
  | .crossingResyncSeen domain => Sys2Proof.Machine.execCrossingResyncSeen domain s
  | .crossingResyncAck domain => Sys2Proof.Machine.execCrossingResyncAck domain s
  | .devXdropRead port domain => Sys2Proof.Machine.execDevXdropRead port domain s
  | .encoderEdge input pairA level time heldNs => Sys2Proof.Machine.execEncoderEdge input pairA level time heldNs s
  | .openFault input pairA => Sys2Proof.Machine.execOpenFault input pairA s
  | .faultClear what => Sys2Proof.Machine.execFaultClear what s
  | .deadReckoningEnd axis => Sys2Proof.Machine.execDeadReckoningEnd axis s
  | .velocityTimeout axis => Sys2Proof.Machine.execVelocityTimeout axis s
  | .positionWrap axis forward => Sys2Proof.Machine.execPositionWrap axis forward s
  | .zEdge input time => Sys2Proof.Machine.execZEdge input time s
  | .zOpen input => Sys2Proof.Machine.execZOpen input s
  | .beaconReceived link baxis pos vel lost => Sys2Proof.Machine.execBeaconReceived link baxis pos vel lost s
  | .beaconTimeout axis => Sys2Proof.Machine.execBeaconTimeout axis s
  | .strobeCrossing strobe forward time => Sys2Proof.Machine.execStrobeCrossing strobe forward time s
  | .posAxStart port axis => Sys2Proof.Machine.execPosAxStart port axis s
  | .posAxStop port axis => Sys2Proof.Machine.execPosAxStop port axis s
  | .posAxRecover port axis => Sys2Proof.Machine.execPosAxRecover port axis s
  | .axisCtlWrite port axis value => Sys2Proof.Machine.execAxisCtlWrite port axis value s
  | .vspeedWrite port axis value => Sys2Proof.Machine.execVspeedWrite port axis value s
  | .posSnap port => Sys2Proof.Machine.execPosSnap port s
  | .axisPosRead port axis => Sys2Proof.Machine.execAxisPosRead port axis s
  | .posAxErrcntRead port axis => Sys2Proof.Machine.execPosAxErrcntRead port axis s
  | .posStrbStatRead port strobe => Sys2Proof.Machine.execPosStrbStatRead port strobe s
  | .sorterInsert port n value => Sys2Proof.Machine.execSorterInsert port n value s
  | .fabricSorterInsert n entries => Sys2Proof.Machine.execFabricSorterInsert n entries s
  | .sorterRangeDrop n => Sys2Proof.Machine.execSorterRangeDrop n s
  | .sorterEntryDue n postmark => Sys2Proof.Machine.execSorterEntryDue n postmark s
  | .sorterRelease n slow => Sys2Proof.Machine.execSorterRelease n slow s
  | .gateSpaceOpens region gate => Sys2Proof.Machine.execGateSpaceOpens region gate s
  | .sorterPop port n => Sys2Proof.Machine.execSorterPop port n s
  | .sorterPeek port n => Sys2Proof.Machine.execSorterPeek port n s
  | .sorterFlush port n => Sys2Proof.Machine.execSorterFlush port n s
  | .sorterCtlWrite port n value => Sys2Proof.Machine.execSorterCtlWrite port n value s
  | .srtErrRead port n => Sys2Proof.Machine.execSrtErrRead port n s
  | .placementHandover n => Sys2Proof.Machine.execPlacementHandover n s
  | .placementCommit n moment => Sys2Proof.Machine.execPlacementCommit n moment s
  | .edgePlaced cell => Sys2Proof.Machine.execEdgePlaced cell s
  | .pulseReturnEdge cell => Sys2Proof.Machine.execPulseReturnEdge cell s
  | .placementCellEnable port cell => Sys2Proof.Machine.execPlacementCellEnable port cell s
  | .placementCellDisable port cell => Sys2Proof.Machine.execPlacementCellDisable port cell s
  | .pinPlcCntRead port cell => Sys2Proof.Machine.execPinPlcCntRead port cell s
  | .intrinsicDelayMeasure bank delay => Sys2Proof.Machine.execIntrinsicDelayMeasure bank delay s
  | .pinCalLoad port value => Sys2Proof.Machine.execPinCalLoad port value s
  | .pinCalPinDone result => Sys2Proof.Machine.execPinCalPinDone result s
  | .gpioWrite port bank value => Sys2Proof.Machine.execGpioWrite port bank value s
  | .gpioMaskedWrite port group lanes value => Sys2Proof.Machine.execGpioMaskedWrite port group lanes value s
  | .bankRangeWrite port bank value => Sys2Proof.Machine.execBankRangeWrite port bank value s
  | .bankRangeSwitch bank => Sys2Proof.Machine.execBankRangeSwitch bank s
  | .bankRangeMismatch bank => Sys2Proof.Machine.execBankRangeMismatch bank s
  | .pinLockArm port value => Sys2Proof.Machine.execPinLockArm port value s
  | .pinLockSet port value => Sys2Proof.Machine.execPinLockSet port value s
  | .bankSupplyRise bank nominal => Sys2Proof.Machine.execBankSupplyRise bank nominal s
  | .pwmPeriodStart generator => Sys2Proof.Machine.execPwmPeriodStart generator s
  | .channelCreate letter => Sys2Proof.Machine.execChannelCreate letter s
  | .channelBind letter => Sys2Proof.Machine.execChannelBind letter s
  | .channelUnbind letter => Sys2Proof.Machine.execChannelUnbind letter s
  | .channelRebind letter => Sys2Proof.Machine.execChannelRebind letter s
  | .channelStart letter map => Sys2Proof.Machine.execChannelStart letter map s
  | .channelHold letter => Sys2Proof.Machine.execChannelHold letter s
  | .channelResume letter => Sys2Proof.Machine.execChannelResume letter s
  | .channelDrain letter => Sys2Proof.Machine.execChannelDrain letter s
  | .channelAbort letter => Sys2Proof.Machine.execChannelAbort letter s
  | .channelQuery letter => Sys2Proof.Machine.execChannelQuery letter s
  | .channelSetMode letter => Sys2Proof.Machine.execChannelSetMode letter s
  | .productBegin c backward => Sys2Proof.Machine.execProductBegin c backward s
  | .productLetterBudget => Sys2Proof.Machine.execProductLetterBudget s
  | .drainComplete c => Sys2Proof.Machine.execDrainComplete c s
  | .abortComplete c => Sys2Proof.Machine.execAbortComplete c s
  | .switchComplete c => Sys2Proof.Machine.execSwitchComplete c s
  | .bindingCheck c => Sys2Proof.Machine.execBindingCheck c s
  | .underrunReport c => Sys2Proof.Machine.execUnderrunReport c s
  | .linkDownTimeout l => Sys2Proof.Machine.execLinkDownTimeout l s
  | .volumeOfflineInhibit c => Sys2Proof.Machine.execVolumeOfflineInhibit c s
  | .vizonLine l header data => Sys2Proof.Machine.execVizonLine l header data s
  | .productInspected c => Sys2Proof.Machine.execProductInspected c s
  | .verdict letter => Sys2Proof.Machine.execVerdict letter s
  | .verdictDeadline c => Sys2Proof.Machine.execVerdictDeadline c s
  | .mapGenerationComplete c => Sys2Proof.Machine.execMapGenerationComplete c s
  | .stitchCheck link group index start seed modes mapGen => Sys2Proof.Machine.execStitchCheck link group index start seed modes mapGen s
  | .stitchCheckMissing c => Sys2Proof.Machine.execStitchCheckMissing c s
  | .triggerEdge k rising held time => Sys2Proof.Machine.execTriggerEdge k rising held time s
  | .ringJoinWrite port r value => Sys2Proof.Machine.execRingJoinWrite port r value s
  | .bypassClose r => Sys2Proof.Machine.execBypassClose r s
  | .bypassOpen r => Sys2Proof.Machine.execBypassOpen r s
  | .rollCallSend r => Sys2Proof.Machine.execRollCallSend r s
  | .rollCallReceived r east hop m uid crc highs stops => Sys2Proof.Machine.execRollCallReceived r east hop m uid crc highs stops s
  | .memberUnreachable r m => Sys2Proof.Machine.execMemberUnreachable r m s
  | .ringStateEvaluate r => Sys2Proof.Machine.execRingStateEvaluate r s
  | .ringStop letter => Sys2Proof.Machine.execRingStop letter s
  | .ringStopRegister port r => Sys2Proof.Machine.execRingStopRegister port r s
  | .ringReleaseStop letter => Sys2Proof.Machine.execRingReleaseStop letter s
  | .ringReleaseReceived r upTo => Sys2Proof.Machine.execRingReleaseReceived r upTo s
  | .leaseSeriesDefine letter => Sys2Proof.Machine.execLeaseSeriesDefine letter s
  | .leaseSeriesOpen letter => Sys2Proof.Machine.execLeaseSeriesOpen letter s
  | .leaseRequest letter => Sys2Proof.Machine.execLeaseRequest letter s
  | .leaseProposalReceived r series base count => Sys2Proof.Machine.execLeaseProposalReceived r series base count s
  | .leaseAckReceived r m series base ack high => Sys2Proof.Machine.execLeaseAckReceived r m series base ack high s
  | .leaseProposalTimeout ring series => Sys2Proof.Machine.execLeaseProposalTimeout ring series s
  | .leaseRetry ring series => Sys2Proof.Machine.execLeaseRetry ring series s
  | .leaseAutoRetry ring series => Sys2Proof.Machine.execLeaseAutoRetry ring series s
  | .leaseRetire letter => Sys2Proof.Machine.execLeaseRetire letter s
  | .leaseQuery letter => Sys2Proof.Machine.execLeaseQuery letter s
  | .auditFlush ok => Sys2Proof.Machine.execAuditFlush ok s
  | .reconcile r defs highs leases => Sys2Proof.Machine.execReconcile r defs highs leases s
  | .ringConfig letter => Sys2Proof.Machine.execRingConfig letter s
  | .ringConfigTimeout r => Sys2Proof.Machine.execRingConfigTimeout r s
  | .ringQuery letter => Sys2Proof.Machine.execRingQuery letter s
  | .octetEnable port octet value => Sys2Proof.Machine.execOctetEnable port octet value s
  | .octetPllLock octet lost => Sys2Proof.Machine.execOctetPllLock octet lost s
  | .octetDisable port octet value lost => Sys2Proof.Machine.execOctetDisable port octet value lost s
  | .octetPllLoss octet => Sys2Proof.Machine.execOctetPllLoss octet s
  | .laneRateWrite port lane value => Sys2Proof.Machine.execLaneRateWrite port lane value s
  | .laneTxeqWrite port lane value => Sys2Proof.Machine.execLaneTxeqWrite port lane value s
  | .adaptDone lane ctle dfe => Sys2Proof.Machine.execAdaptDone lane ctle dfe s
  | .losAssert lane announced => Sys2Proof.Machine.execLosAssert lane announced s
  | .losClear lane => Sys2Proof.Machine.execLosClear lane s
  | .laneLock lane => Sys2Proof.Machine.execLaneLock lane s
  | .laneLol lane => Sys2Proof.Machine.execLaneLol lane s
  | .laneReset lane writer lost => Sys2Proof.Machine.execLaneReset lane writer lost s
  | .laneEnWrite port lane value lost => Sys2Proof.Machine.execLaneEnWrite port lane value lost s
  | .laneCntRead port lane => Sys2Proof.Machine.execLaneCntRead port lane s
  | .laneErrcntRead port lane => Sys2Proof.Machine.execLaneErrcntRead port lane s
  | .octetProtoWrite port octet value => Sys2Proof.Machine.execOctetProtoWrite port octet value s
  | .pciePerstAssert lost => Sys2Proof.Machine.execPciePerstAssert lost s
  | .pciePerstRelease => Sys2Proof.Machine.execPciePerstRelease s
  | .hotReset => Sys2Proof.Machine.execHotReset s
  | .functionLevelReset f => Sys2Proof.Machine.execFunctionLevelReset f s
  | .drivePresent j => Sys2Proof.Machine.execDrivePresent j s
  | .rpPerstRelease j => Sys2Proof.Machine.execRpPerstRelease j s
  | .rpLinkUp j width rate drive => Sys2Proof.Machine.execRpLinkUp j width rate drive s
  | .rpContainment j removed => Sys2Proof.Machine.execRpContainment j removed s
  | .ethFrameReceived e frame fcsOk time => Sys2Proof.Machine.execEthFrameReceived e frame fcsOk time s
  | .ethTxwrWrite port e q value => Sys2Proof.Machine.execEthTxwrWrite port e q value s
  | .ethSlotSent e q => Sys2Proof.Machine.execEthSlotSent e q s
  | .laneEthCntRead port e => Sys2Proof.Machine.execLaneEthCntRead port e s
  | .linkEnable port link value => Sys2Proof.Machine.execLinkEnable port link value s
  | .linkDisable port link value lost => Sys2Proof.Machine.execLinkDisable port link value lost s
  | .frameDecoded link result replayable => Sys2Proof.Machine.execFrameDecoded link result replayable s
  | .flitReceived link flit => Sys2Proof.Machine.execFlitReceived link flit s
  | .markerReceived link lane count skew restripe => Sys2Proof.Machine.execMarkerReceived link lane count skew restripe s
  | .flowSend link => Sys2Proof.Machine.execFlowSend link s
  | .expressStop slot reason => Sys2Proof.Machine.execExpressStop slot reason s
  | .expressGo slot postmark => Sys2Proof.Machine.execExpressGo slot postmark s
  | .expressFlow slot vl0 vl2 vl3 => Sys2Proof.Machine.execExpressFlow slot vl0 vl2 vl3 s
  | .expressAck slot next => Sys2Proof.Machine.execExpressAck slot next s
  | .expressNak slot missing => Sys2Proof.Machine.execExpressNak slot missing s
  | .expressTiming slot turnaround => Sys2Proof.Machine.execExpressTiming slot turnaround s
  | .expressTimingReply slot turnaround timing arrived lost => Sys2Proof.Machine.execExpressTimingReply slot turnaround timing arrived lost s
  | .expressRingStop r east origin cause seq => Sys2Proof.Machine.execExpressRingStop r east origin cause seq s
  | .expressRetrainReq slot => Sys2Proof.Machine.execExpressRetrainReq slot s
  | .expressWidthReq slot mask immediate missing => Sys2Proof.Machine.execExpressWidthReq slot mask immediate missing s
  | .expressWidthAck slot mask => Sys2Proof.Machine.execExpressWidthAck slot mask s
  | .expressLeave slot lost => Sys2Proof.Machine.execExpressLeave slot lost s
  | .ackSend link => Sys2Proof.Machine.execAckSend link s
  | .nakRepeat link => Sys2Proof.Machine.execNakRepeat link s
  | .fireLineDeadline lane postmark => Sys2Proof.Machine.execFireLineDeadline lane postmark s
  | .beaconSend link blocked => Sys2Proof.Machine.execBeaconSend link blocked s
  | .timingSend link => Sys2Proof.Machine.execTimingSend link s
  | .timingTimeout link => Sys2Proof.Machine.execTimingTimeout link s
  | .trainingFrameReceived link uid lanes rate lost => Sys2Proof.Machine.execTrainingFrameReceived link uid lanes rate lost s
  | .equalizeDone link lanes => Sys2Proof.Machine.execEqualizeDone link lanes s
  | .alignDone link lanes expects => Sys2Proof.Machine.execAlignDone link lanes expects s
  | .capabilityReceived link cap lost => Sys2Proof.Machine.execCapabilityReceived link cap lost s
  | .linkStateTimeout link lost => Sys2Proof.Machine.execLinkStateTimeout link lost s
  | .lnkCmdRetrain port link => Sys2Proof.Machine.execLnkCmdRetrain port link s
  | .lnkCmdWidth port link mask => Sys2Proof.Machine.execLnkCmdWidth port link mask s
  | .widthReqResend link => Sys2Proof.Machine.execWidthReqResend link s
  | .widthLanesAdded link aligned => Sys2Proof.Machine.execWidthLanesAdded link aligned s
  | .widthSwitchMarker link => Sys2Proof.Machine.execWidthSwitchMarker link s
  | .laneFailure link lanes => Sys2Proof.Machine.execLaneFailure link lanes s
  | .linkSilenceTimeout link => Sys2Proof.Machine.execLinkSilenceTimeout link s
  | .backoffExpired link => Sys2Proof.Machine.execBackoffExpired link s
  | .activeHeld link => Sys2Proof.Machine.execActiveHeld link s
  | .lnkCntRead port link which => Sys2Proof.Machine.execLnkCntRead port link which s
  | .homeRdShared l r same => Sys2Proof.Machine.execHomeRdShared l r same s
  | .homeRdOwn l r same => Sys2Proof.Machine.execHomeRdOwn l r same s
  | .homeRdCur l r same => Sys2Proof.Machine.execHomeRdCur l r same s
  | .homeWrPtl l r same => Sys2Proof.Machine.execHomeWrPtl l r same s
  | .homeWbDirty l who data same => Sys2Proof.Machine.execHomeWbDirty l who data same s
  | .homeEvictClean l who => Sys2Proof.Machine.execHomeEvictClean l who s
  | .homeRspI l who => Sys2Proof.Machine.execHomeRspI l who s
  | .homeRspS l who => Sys2Proof.Machine.execHomeRspS l who s
  | .homeRspData l who => Sys2Proof.Machine.execHomeRspData l who s
  | .homeRspWbPending l who => Sys2Proof.Machine.execHomeRspWbPending l who s
  | .homeCmpAck l who => Sys2Proof.Machine.execHomeCmpAck l who s
  | .agentSnpInv l a wrote => Sys2Proof.Machine.execAgentSnpInv l a wrote s
  | .agentSnpShare l a wrote => Sys2Proof.Machine.execAgentSnpShare l a wrote s
  | .agentSnpCur l a wrote => Sys2Proof.Machine.execAgentSnpCur l a wrote s
  | .agentDataS l a victim => Sys2Proof.Machine.execAgentDataS l a victim s
  | .agentDataE l a victim => Sys2Proof.Machine.execAgentDataE l a victim s
  | .agentCmp l who => Sys2Proof.Machine.execAgentCmp l who s
  | .agentWbAck l a => Sys2Proof.Machine.execAgentWbAck l a s
  | .patrolRead l ecc => Sys2Proof.Machine.execPatrolRead l ecc s
  | .stackTempSample k temp => Sys2Proof.Machine.execStackTempSample k temp s
  | .stackResyncRequest k a => Sys2Proof.Machine.execStackResyncRequest k a s
  | .stackResyncDone k => Sys2Proof.Machine.execStackResyncDone k s
  | .stackFillDone k => Sys2Proof.Machine.execStackFillDone k s
  | .memStkEcntRead port k => Sys2Proof.Machine.execMemStkEcntRead port k s
  | .memHomeCntRead port k => Sys2Proof.Machine.execMemHomeCntRead port k s
  | .granuleSeal port g => Sys2Proof.Machine.execGranuleSeal port g s
  | .granuleUnseal port g => Sys2Proof.Machine.execGranuleUnseal port g s
  | .conversionComplete => Sys2Proof.Machine.execConversionComplete s
  | .commitStart uid => Sys2Proof.Machine.execCommitStart uid s
  | .commitFlushDone uid ok => Sys2Proof.Machine.execCommitFlushDone uid ok s
  | .commitDone uid => Sys2Proof.Machine.execCommitDone uid s
  | .storeBlockRead uid block content => Sys2Proof.Machine.execStoreBlockRead uid block content s
  | .sealStoreCntRead port => Sys2Proof.Machine.execSealStoreCntRead port s
  | .sealLineCntRead port k => Sys2Proof.Machine.execSealLineCntRead port k s
  | .mailboxDoorbell port mailbox value => Sys2Proof.Machine.execMailboxDoorbell port mailbox value s
  | .replyHeadWrite port mailbox value => Sys2Proof.Machine.execReplyHeadWrite port mailbox value s
  | .mailboxSignal mailbox => Sys2Proof.Machine.execMailboxSignal mailbox s
  | .ringPeerLetter owner mailbox bytes => Sys2Proof.Machine.execRingPeerLetter owner mailbox bytes s
  | .mailboxReset mailbox ownerEvent => Sys2Proof.Machine.execMailboxReset mailbox ownerEvent s
  | .postroomRestart outcomes => Sys2Proof.Machine.execPostroomRestart outcomes s
  | .lockAcquire port lock => Sys2Proof.Machine.execLockAcquire port lock s
  | .lockRelease port lock value => Sys2Proof.Machine.execLockRelease port lock value s
  | .deviceInfo letter => Sys2Proof.Machine.execDeviceInfo letter s
  | .deviceMailboxAssign letter => Sys2Proof.Machine.execDeviceMailboxAssign letter s
  | .deviceTimeSet letter => Sys2Proof.Machine.execDeviceTimeSet letter s
  | .deviceTimeGet letter => Sys2Proof.Machine.execDeviceTimeGet letter s
  | .deviceReset letter => Sys2Proof.Machine.execDeviceReset letter s
  | .deviceShutdown letter => Sys2Proof.Machine.execDeviceShutdown letter s
  | .powerState letter => Sys2Proof.Machine.execPowerState letter s
  | .powerQuery letter => Sys2Proof.Machine.execPowerQuery letter s
  | .powerMargin letter => Sys2Proof.Machine.execPowerMargin letter s
  | .powerRail letter => Sys2Proof.Machine.execPowerRail letter s
  | .regulatorPoll answers => Sys2Proof.Machine.execRegulatorPoll answers s
  | .regulatorAlert => Sys2Proof.Machine.execRegulatorAlert s
  | .configSlots letter => Sys2Proof.Machine.execConfigSlots letter s
  | .configWrite letter => Sys2Proof.Machine.execConfigWrite letter s
  | .configWriteComplete facts => Sys2Proof.Machine.execConfigWriteComplete facts s
  | .configSelect letter => Sys2Proof.Machine.execConfigSelect letter s
  | .configReload letter => Sys2Proof.Machine.execConfigReload letter s
  | .configBroadcast letter => Sys2Proof.Machine.execConfigBroadcast letter s
  | .regionImageOpen letter facts => Sys2Proof.Machine.execRegionImageOpen letter facts s
  | .regionImageClose letter => Sys2Proof.Machine.execRegionImageClose letter s
  | .regionLoad letter => Sys2Proof.Machine.execRegionLoad letter s
  | .regionReset letter => Sys2Proof.Machine.execRegionReset letter s
  | .regionQuery letter => Sys2Proof.Machine.execRegionQuery letter s
  | .regionLoadComplete facts body => Sys2Proof.Machine.execRegionLoadComplete facts body s
  | .initRestoreDone region ok => Sys2Proof.Machine.execInitRestoreDone region ok s
  | .isolationEnd region => Sys2Proof.Machine.execIsolationEnd region s
  | .channelHealthSet letter => Sys2Proof.Machine.execChannelHealthSet letter s
  | .channelHealthQuery letter => Sys2Proof.Machine.execChannelHealthQuery letter s
  | .jobOpen letter read => Sys2Proof.Machine.execJobOpen letter read s
  | .jobClose letter => Sys2Proof.Machine.execJobClose letter s
  | .jobQuery letter => Sys2Proof.Machine.execJobQuery letter s
  | .spoolSlotFilled c n => Sys2Proof.Machine.execSpoolSlotFilled c n s
  | .storeQuery letter => Sys2Proof.Machine.execStoreQuery letter s
  | .storeFormat letter => Sys2Proof.Machine.execStoreFormat letter s
  | .storeVolCreate letter => Sys2Proof.Machine.execStoreVolCreate letter s
  | .storeVolResize letter => Sys2Proof.Machine.execStoreVolResize letter s
  | .storeVolDelete letter => Sys2Proof.Machine.execStoreVolDelete letter s
  | .storeVolOpen letter => Sys2Proof.Machine.execStoreVolOpen letter s
  | .storeVolClose letter => Sys2Proof.Machine.execStoreVolClose letter s
  | .storeRead letter => Sys2Proof.Machine.execStoreRead letter s
  | .storeWrite letter => Sys2Proof.Machine.execStoreWrite letter s
  | .storeIoComplete e => Sys2Proof.Machine.execStoreIoComplete e s
  | .storeFlush letter => Sys2Proof.Machine.execStoreFlush letter s
  | .storeSetCommit letter => Sys2Proof.Machine.execStoreSetCommit letter s
  | .sealConvert letter => Sys2Proof.Machine.execSealConvert letter s
  | .sealQuery letter => Sys2Proof.Machine.execSealQuery letter s
  | .sealPool letter => Sys2Proof.Machine.execSealPool letter s
  | .axisSetup letter => Sys2Proof.Machine.execAxisSetup letter s
  | .axisStart letter => Sys2Proof.Machine.execAxisStart letter s
  | .axisStop letter => Sys2Proof.Machine.execAxisStop letter s
  | .axisRecover letter => Sys2Proof.Machine.execAxisRecover letter s
  | .axisQuery letter => Sys2Proof.Machine.execAxisQuery letter s
  | .pinCalibrate letter => Sys2Proof.Machine.execPinCalibrate letter s
  | .pinHeaterSet letter => Sys2Proof.Machine.execPinHeaterSet letter s
  | .pinHeaterQuery letter => Sys2Proof.Machine.execPinHeaterQuery letter s
  | .heaterPeriod loop => Sys2Proof.Machine.execHeaterPeriod loop s
  | .heaterAlarm loop => Sys2Proof.Machine.execHeaterAlarm loop s
  | .linkEthQueue letter => Sys2Proof.Machine.execLinkEthQueue letter s
  | .linkEthSteer letter => Sys2Proof.Machine.execLinkEthSteer letter s
  | .linkQuery letter => Sys2Proof.Machine.execLinkQuery letter s
  | .testSetBudget letter => Sys2Proof.Machine.execTestSetBudget letter s
  | .testQuery letter => Sys2Proof.Machine.execTestQuery letter s
  | .testRun letter => Sys2Proof.Machine.execTestRun letter s
  | .logRead letter => Sys2Proof.Machine.execLogRead letter s
  | .logRoute letter => Sys2Proof.Machine.execLogRoute letter s
  | .logAuditBind letter => Sys2Proof.Machine.execLogAuditBind letter s
  | .perfClaim letter => Sys2Proof.Machine.execPerfClaim letter s
  | .perfRelease letter => Sys2Proof.Machine.execPerfRelease letter s
  | .perfUser letter => Sys2Proof.Machine.execPerfUser letter s
  | .keyStatus letter => Sys2Proof.Machine.execKeyStatus letter s
  | .keyAuditExport letter => Sys2Proof.Machine.execKeyAuditExport letter s
  | .keyAuditRotate letter => Sys2Proof.Machine.execKeyAuditRotate letter s
  | .keyProvision letter unprogrammed => Sys2Proof.Machine.execKeyProvision letter unprogrammed s
  | .keyLock letter => Sys2Proof.Machine.execKeyLock letter s
  | .keyReturn letter => Sys2Proof.Machine.execKeyReturn letter s
  | .keyScrap letter => Sys2Proof.Machine.execKeyScrap letter s
  | .keyGoldenWrite letter => Sys2Proof.Machine.execKeyGoldenWrite letter s
  | .firmwareWatchdog => Sys2Proof.Machine.execFirmwareWatchdog s
  | .imageStreamDone facts body => Sys2Proof.Machine.execImageStreamDone facts body s
  | .cfgRelease => Sys2Proof.Machine.execCfgRelease s
  | .cfgDoneHigh outcomes => Sys2Proof.Machine.execCfgDoneHigh outcomes s
  | .doneWaitTimeout => Sys2Proof.Machine.execDoneWaitTimeout s
  | .cfgGo port value => Sys2Proof.Machine.execCfgGo port value s
  | .broadcastWaitTimeout => Sys2Proof.Machine.execBroadcastWaitTimeout s
  | .broadcastPollReceived ring key => Sys2Proof.Machine.execBroadcastPollReceived ring key s
  | .broadcastGapTimeout => Sys2Proof.Machine.execBroadcastGapTimeout s
  | .xspiRequest port q addr => Sys2Proof.Machine.execXspiRequest port q addr s
  | .nvmEraseDone block verified => Sys2Proof.Machine.execNvmEraseDone block verified s
  | .nvmEraseResume => Sys2Proof.Machine.execNvmEraseResume s
  | .cfgNvmCntRead port => Sys2Proof.Machine.execCfgNvmCntRead port s
  | .scrubFrameRead read => Sys2Proof.Machine.execScrubFrameRead read s
  | .frameRefetchDone ok => Sys2Proof.Machine.execFrameRefetchDone ok s
  | .cfgIsoCntRead port region => Sys2Proof.Machine.execCfgIsoCntRead port region s
  | .cfgRgnUpsetRead port region => Sys2Proof.Machine.execCfgRgnUpsetRead port region s
  | .cfgScrubCntRead port => Sys2Proof.Machine.execCfgScrubCntRead port s
  | .regFault site => Sys2Proof.Machine.execRegFault site s
  | .senseSample sense => Sys2Proof.Machine.execSenseSample sense s
  | .monitorCrossing point side deep => Sys2Proof.Machine.execMonitorCrossing point side deep s
  | .bankSupplyLossHold bank => Sys2Proof.Machine.execBankSupplyLossHold bank s
  | .ageMeasure region age => Sys2Proof.Machine.execAgeMeasure region age s
  | .thermalTrip => Sys2Proof.Machine.execThermalTrip s
  | .wakeNLow => Sys2Proof.Machine.execWakeNLow s
  | .wakeAlarm => Sys2Proof.Machine.execWakeAlarm s
  | .wakeAxisDistance => Sys2Proof.Machine.execWakeAxisDistance s
  | .wakePerst => Sys2Proof.Machine.execWakePerst s
  | .mainSupplyGood => Sys2Proof.Machine.execMainSupplyGood s
  | .ainConversion input code broken => Sys2Proof.Machine.execAinConversion input code broken s
  | .ainStale input => Sys2Proof.Machine.execAinStale input s
  | .pwrRgnLoopRead port region => Sys2Proof.Machine.execPwrRgnLoopRead port region s
  | .vaonRise => Sys2Proof.Machine.execVaonRise s
  | .vaonLoss => Sys2Proof.Machine.execVaonLoss s
  | .supplyStable facts => Sys2Proof.Machine.execSupplyStable facts s
  | .regulatorsUp facts => Sys2Proof.Machine.execRegulatorsUp facts s
  | .resetNLow => Sys2Proof.Machine.execResetNLow s
  | .resetNHigh facts => Sys2Proof.Machine.execResetNHigh facts s
  | .stackTrained stack => Sys2Proof.Machine.execStackTrained stack s
  | .devRstDevice port value => Sys2Proof.Machine.execDevRstDevice port value s
  | .devRstFabric port value => Sys2Proof.Machine.execDevRstFabric port value s
  | .deviceResetEntry facts => Sys2Proof.Machine.execDeviceResetEntry facts s
  | .fabricResetDone => Sys2Proof.Machine.execFabricResetDone s
  | .islandReset port value lost => Sys2Proof.Machine.execIslandReset port value lost s
  | .islandResetRelease domain => Sys2Proof.Machine.execIslandResetRelease domain s
  | .rngStartupTestDone source rct apt => Sys2Proof.Machine.execRngStartupTestDone source rct apt s
  | .rngHealthFail source apt => Sys2Proof.Machine.execRngHealthFail source apt s
  | .rngReseed => Sys2Proof.Machine.execRngReseed s
  | .rngDataRead port => Sys2Proof.Machine.execRngDataRead port s
  | .devRngStatRead port => Sys2Proof.Machine.execDevRngStatRead port s
  | .tapInstruction code => Sys2Proof.Machine.execTapInstruction code s
  | .tapScan => Sys2Proof.Machine.execTapScan s
  | .tapDebugAccess access => Sys2Proof.Machine.execTapDebugAccess access s
  | .selfTestSliceDone result ms => Sys2Proof.Machine.execSelfTestSliceDone result ms s
  | .eventRaise source => Sys2Proof.Machine.execEventRaise source s
  | .evtUserWrite port value => Sys2Proof.Machine.execEvtUserWrite port value s
  | .perfClear port counter value => Sys2Proof.Machine.execPerfClear port counter value s
  | .perfWrap counter increment => Sys2Proof.Machine.execPerfWrap counter increment s
  | .perfCountRead port counter => Sys2Proof.Machine.execPerfCountRead port counter s
  | .perfSample counter => Sys2Proof.Machine.execPerfSample counter s
  | .logRecordWrite result => Sys2Proof.Machine.execLogRecordWrite result s
  | .logAllowanceTick => Sys2Proof.Machine.execLogAllowanceTick s
  | .evtLogLostRead port => Sys2Proof.Machine.execEvtLogLostRead port s
  | .frankerSave port value result => Sys2Proof.Machine.execFrankerSave port value result s
  | .frankerLoad port value => Sys2Proof.Machine.execFrankerLoad port value s
  | .frankerTrigger postmark => Sys2Proof.Machine.execFrankerTrigger postmark s
  | .frankerRestore => Sys2Proof.Machine.execFrankerRestore s
  | .frankerRecoverRetry => Sys2Proof.Machine.execFrankerRecoverRetry s
  | .devFrkMissRead port => Sys2Proof.Machine.execDevFrkMissRead port s
  | .devFrkStatRead port => Sys2Proof.Machine.execDevFrkStatRead port s
  | .userClockEdge tree captures => Sys2Proof.Machine.execUserClockEdge tree captures s
  | .pinInputChange pin drive => Sys2Proof.Machine.execPinInputChange pin drive s
  | .firmwareReady => Sys2Proof.Machine.execFirmwareReady s
  | .endpointLinkUp width rate flit => Sys2Proof.Machine.execEndpointLinkUp width rate flit s
  | .ethLinkChange e up localFault remoteFault => Sys2Proof.Machine.execEthLinkChange e up localFault remoteFault s
  | .headDriverStatus l failed => Sys2Proof.Machine.execHeadDriverStatus l failed s
  | .stitchPartnerMessage link group m => Sys2Proof.Machine.execStitchPartnerMessage link group m s
  | .stitchLinkTimeout link => Sys2Proof.Machine.execStitchLinkTimeout link s
  | .ringConfigReceived r m => Sys2Proof.Machine.execRingConfigReceived r m s
  | .broadcastAnswerReceived ring member accept => Sys2Proof.Machine.execBroadcastAnswerReceived ring member accept s
  | .broadcastPollTimeout => Sys2Proof.Machine.execBroadcastPollTimeout s
  | .laneRejoin lane => Sys2Proof.Machine.execLaneRejoin lane s
  | .driveWriteDone w ok => Sys2Proof.Machine.execDriveWriteDone w ok s
  | .testLogicReset => Sys2Proof.Machine.execTestLogicReset s

end Sys2Proof.Machine
end

