-- ==== Sys2Proof/Machine/Tick.lean ====
section
/-! DEFINITION. What the block does at a tick of 1 ns with no command waiting: the timebase (R522), the axes (R104, R114), counters of ticks (R523, R525), the
real-time clock (R553), and what waits for a moment rather than for a command. -/

namespace Sys2Proof.Machine

/-- How many events a block lists (R523); the reference and the regions have no occupancy. -/
def blockEvents (block : Nat) : Nat := ([0, 0, 4, 6, 4, 5, 3, 4, 3] : List Nat).getD block 0

/-- The occupancy that a counter in threshold mode compares (R523). No access waits in a line seal engine: each is one step. The blocks in flight in the
store seal engine are those of the reads and writes under way, up to its 1,024 (assumption 101). -/
def State.occupancy (s : State) (block inst : Nat) : Nat :=
  if block = 2 then ((List.range 16).map fun p => (s.portReqs inst p).length).foldl (· + ·) 0
  else if block = 3 then s.fld .MEM_HOME_STAT_WAITING inst
  else if block = 5 then (if inst < 18 then (s.crossing inst).into.count else 0)
  else if block = 8 then
    let io := s.svc.ops.filter fun o => o.letter.opcode.toNat == 0x0707 || o.letter.opcode.toNat == 0x0708
    min 1024 (io.foldl (fun n o => n + o.args.getD 1 0 / 4096) 0)
  else if block = 6 then (s.srt inst).entries.length
  else if block = 7 then ((List.range 64).map fun m => (s.box m).taken.length + (s.box m).orphans.length).foldl (· + ·) 0
  else 0

/-- Counters count a tick: those that select it, and those in threshold mode whose occupancy exceeds THRESH (R523, R525). -/
def State.countTick (s : State) : State :=
  let s := s.perf 0 0 0 1 none
  s.each (s.counters.filter fun i => s.on .PERF_SEL_MODE i) fun i s =>
    s.when (decide (s.fld .PERF_SEL_EVENT i < blockEvents (s.fld .PERF_SEL_BLOCK i)) && decide (s.fld .PERF_SEL_THRESH i < s.occupancy (s.fld .PERF_SEL_BLOCK i) (s.fld .PERF_SEL_INST i))) (·.perfAdd i 1)

/-- The real-time clock counts a second each 10^9 ticks, on VBAT, whatever runs and whatever VALID says (R553). -/
def State.rtcTick (s : State) : State := s.when (s.clock % 1000000000 == 0) (·.addMod .DEV_RTC_SECONDS 0 1)

/-- D23 counts a tick: the timebase, the axes and the counters. -/
def State.timebaseTick (s : State) : State :=
  if !s.runs 23 || s.isHeld 23 then s
  else
    let t := s.fld .PERF_TB_TB 0 + 1
    let s := s.put .PERF_TB_TB 0 t
    let s := (s.each (List.range 8) fun a s => s.axisTick a).each (List.range 2) fun k s => s.strobeTick k
    let s := (s.each (List.range 64) fun n s => s.sorterTick n).each (List.range 8) fun a s => s.markTick a
    s.pinTick.countTick

/-- One tick: the model's clock, the real-time clock and the timebase count, ports of the cache agents are served, channels run (R169), products settle and drains end, and a shut-down goes on. -/
def State.tick (s : State) : State :=
  let s := { s with clock := s.clock + 1 }.rtcTick.timebaseTick.publishAll
  let s := s.each (List.range 16) fun a s => s.serveAgent a
  (s.each s.chanList fun c s => ((s.armed c).settle c).drainDone c).leaveOn

end Sys2Proof.Machine
end

