-- ==== Sys2Proof/Safety.lean ====
section
/-! DEFINITION. What the statements about runs are put in terms of: the canonical form of the addressed memories, and what a command leaves as it was. The
device has no fault that stops it, so that a safe run is one whose memories keep their form and whose commands change only what their rules name. -/

namespace Sys2Proof.Machine

/-- The canonical form of the stacked memory (R295, R315): addresses rise, and no entry equals the 0 that an unlisted byte reads as. -/
def Memory.wf (m : List Host.Cell) : Bool := Tbl.wf (0 : Byte) m

/-- The stacked memory, the mailbox memory (R353) and the register file are in canonical form: equal contents are equal data. -/
def State.Canonical (s : State) : Prop :=
  Memory.wf s.memo.bytes = true ∧ Tbl.wf (0 : Byte) s.boxMem = true ∧ Tbl.wf 0 s.regs = true

/-- The byte of stacked memory at an address. -/
def State.memByte (s : State) (a : Nat) : Byte := Tbl.find 0 s.memo.bytes a

/-- The parts of the state beside the register file. -/
inductive Part where
  | shadows | waiting | crossings | pulses | copies | samplers | cells | words | elements | isos | taken | trees | flying | taps | arbiters | bms | isoAbsorb
  | uclkUse | restoring | evt | boxes | boxMem | svc | axes | encLevel | encOpen | strobeT | strobeAt | beaconAt | sorters | insWords | insRes | gates
  | plcs | pins | rings | lease | chans | jobs | letterBudget | letterQueue | fires | memo | seals | laneTx | laneSkip | store | images | monitors
  | links | ports | heaters | config | power | resets | secure | franker | outputs | freeValues | clock | timers | pending
  deriving DecidableEq, Repr

/-- A part stands in `t` as in `s`. -/
def Part.same (p : Part) (s t : State) : Prop :=
  match p with
  | .shadows => t.shadows = s.shadows
  | .waiting => t.waiting = s.waiting
  | .crossings => t.crossings = s.crossings
  | .pulses => t.pulses = s.pulses
  | .copies => t.copies = s.copies
  | .samplers => t.samplers = s.samplers
  | .cells => t.cells = s.cells
  | .words => t.words = s.words
  | .elements => t.elements = s.elements
  | .isos => t.isos = s.isos
  | .taken => t.taken = s.taken
  | .trees => t.trees = s.trees
  | .flying => t.flying = s.flying
  | .taps => t.taps = s.taps
  | .arbiters => t.arbiters = s.arbiters
  | .bms => t.bms = s.bms
  | .isoAbsorb => t.isoAbsorb = s.isoAbsorb
  | .uclkUse => t.uclkUse = s.uclkUse
  | .restoring => t.restoring = s.restoring
  | .evt => t.evt = s.evt
  | .boxes => t.boxes = s.boxes
  | .boxMem => t.boxMem = s.boxMem
  | .svc => t.svc = s.svc
  | .axes => t.axes = s.axes
  | .encLevel => t.encLevel = s.encLevel
  | .encOpen => t.encOpen = s.encOpen
  | .strobeT => t.strobeT = s.strobeT
  | .strobeAt => t.strobeAt = s.strobeAt
  | .beaconAt => t.beaconAt = s.beaconAt
  | .sorters => t.sorters = s.sorters
  | .insWords => t.insWords = s.insWords
  | .insRes => t.insRes = s.insRes
  | .gates => t.gates = s.gates
  | .plcs => t.plcs = s.plcs
  | .pins => t.pins = s.pins
  | .rings => t.rings = s.rings
  | .lease => t.lease = s.lease
  | .chans => t.chans = s.chans
  | .jobs => t.jobs = s.jobs
  | .letterBudget => t.letterBudget = s.letterBudget
  | .letterQueue => t.letterQueue = s.letterQueue
  | .fires => t.fires = s.fires
  | .memo => t.memo = s.memo
  | .seals => t.seals = s.seals
  | .laneTx => t.laneTx = s.laneTx
  | .laneSkip => t.laneSkip = s.laneSkip
  | .store => t.store = s.store
  | .images => t.images = s.images
  | .monitors => t.monitors = s.monitors
  | .links => t.links = s.links
  | .ports => t.ports = s.ports
  | .heaters => t.heaters = s.heaters
  | .config => t.config = s.config
  | .power => t.power = s.power
  | .resets => t.resets = s.resets
  | .secure => t.secure = s.secure
  | .franker => t.franker = s.franker
  | .outputs => t.out = s.out
  | .freeValues => t.free = s.free
  | .clock => t.clock = s.clock
  | .timers => t.timers = s.timers
  | .pending => t.pending = s.pending

/-- From `s` to `t` nothing changes but the registers `rs` and the parts `ps`. -/
def Within (rs : List Reg) (ps : List Part) (s t : State) : Prop :=
  (∀ f i, f.spec.reg ∉ rs → t.fld f i = s.fld f i) ∧ ∀ p, p ∉ ps → p.same s t

/-- The registers `l` and what a raise of an event source, a letter or a notice may change among them (R358, R531, R538). -/
def signals (l : List Reg) : List Reg :=
  .EVT_LOG_LOST :: .EVT_LOG_STAT :: .EVT_PEND :: .PST_MB_EVT :: .PST_MB_RPL :: .PST_MB_STAT :: l

/-- The registers `l` and what a counted event of a block may change (R523, R527). -/
def counting (l : List Reg) : List Reg := .PERF_CNT :: .PERF_OVF :: l

/-- The registers `l` and what a refused or malformed access may change (R5, R6, R18, R20). -/
def errors (l : List Reg) : List Reg := .DEV_ACCESS_ADDR :: .DEV_ACCESS_ERR :: l

/-- The parts `l` and what a raise, a letter or a notice may change beside registers: the mailboxes and their memory, the event paths, what leaves the
device or is kept as a pulse for it (R87), and the free values, from which a record's details come where no register is named (log 5). -/
def signalled (l : List Part) : List Part := .boxMem :: .boxes :: .evt :: .freeValues :: .outputs :: .pulses :: l

/-- An access of a port to element `i` of a register takes place at once: it reaches the device (R98), its port may make it (R18), and it waits neither for a
domain (R97) nor behind an earlier access of its port (R17). -/
def State.takes (s : State) (p : Port) (write : Bool) (r : Reg) (i : Nat) : Bool :=
  s.reaches p && s.may p write r i && !s.mustWait p (r.domain i)

/-- Agent `a` is at rest: its region is WOKEN, and none of its ports holds a request (R76, R444). -/
def State.AgentRests (s : State) (a : Nat) : Prop := s.woken (agentRegion a) = true ∧ ∀ q, s.portReqs a q = []

/-- Port `p` of agent `a` has sent the reply to its request and holds none (R78). -/
def State.Replied (t : State) (a p status word : Nat) (data : Option Nat) : Prop :=
  t.portReqs a p = [] ∧ t.out.getLast? = some (.agentReply a p status word data)

/-- A message of R302 is on its way. -/
def State.Sends (t : State) (kind : MsgKind) (who l data aux : Nat) : Prop :=
  ∃ m ∈ t.memo.wire, m.kind = kind ∧ m.who = who ∧ m.line = l ∧ m.data = data ∧ m.aux = aux

/-- Port `p` of agent `a` holds the one request that it took, `sent` to where it is served or waiting in the agent. -/
def State.Holds (t : State) (a p : Nat) (sent : Bool) : Prop := ∃ r, t.portReqs a p = [r] ∧ r.done = none ∧ r.sent = sent

/-- No request and no write waits at the homes (R302). -/
def State.HomesRest (s : State) : Prop := s.memo.writes = [] ∧ ∀ e ∈ s.memo.dir, e.2.queue = []

/-- The agent takes a grant of line `l` without giving up another (R298), and no request of its ports follows it. -/
def State.HasRoom (s : State) (a l : Nat) : Prop :=
  (s.contenders a l).1.length < (s.contenders a l).2 ∧ (a < 16 → s.AgentRests a)

/-- Nothing waits for a domain: no register access, no pulse, no letter and no memory request (R87, R97). -/
def State.NothingWaits (s : State) : Prop :=
  s.waiting = [] ∧ (∀ e ∈ s.pulses, e.2.kept = []) ∧ s.svc.stalled = [] ∧ s.config.settings = [] ∧ ∀ e ∈ s.memo.dir, e.2.queue = []

/-- Source `src` is pending (R531): its bit of EVT_PEND is 1. -/
def State.pends (s : State) (src : Nat) : Bool := bitOf (s.fld .EVT_PEND_PEND (src / 32)) (src % 32)

/-- The input carries an illegal code (R23, R56). -/
def Rail.illegal (r : Rail) : Bool := match r.value with
  | some (_, bad) => bad
  | none => false

/-- The register that a command reads with clearing (RC in R9), through which port; none for a command of another kind. -/
def clearingRead : Instr → Option (Port × Reg × Nat)
  | .cfgNvmCntRead p => some (p, .CFG_NVM_CNT, 0)
  | .cfgIsoCntRead p n => some (p, .CFG_ISO_CNT, n)
  | .cfgRgnUpsetRead p n => some (p, .CFG_RGN_UPSET, n)
  | .cfgScrubCntRead p => some (p, .CFG_SCRUB_CNT, 0)
  | .pwrRgnLoopRead p n => some (p, .PWR_RGN_LOOP, n)
  | .devRngStatRead p => some (p, .DEV_RNG_STAT, 0)
  | .evtLogLostRead p => some (p, .EVT_LOG_LOST, 0)
  | .devFrkMissRead p => some (p, .DEV_FRK_MISS, 0)
  | .devFrkStatRead p => some (p, .DEV_FRK_STAT, 0)
  | .memStkEcntRead p k => some (p, .MEM_STK_ECNT, k)
  | .memHomeCntRead p k => some (p, .MEM_HOME_CNT, k)
  | .sealLineCntRead p k => some (p, .SEAL_LINE_CNT, k)
  | .sealStoreCntRead p => some (p, .SEAL_STORE_CNT, 0)
  | .devXdropRead p d => some (p, .DEV_XDROP, d)
  | .laneCntRead p x => some (p, .LANE_CNT, x.lane)
  | .laneErrcntRead p l => some (p, .LANE_ERRCNT, l)
  | .laneEthCntRead p e => if e.val < 48 then none else some (p, .LANE_ETH_CNT, e.val - 48)
  | .lnkCntRead p m k => some (p, lnkCnt k, m)
  | .pinPlcCntRead p c => some (p, .PIN_PLC_CNT, c)
  | .posStrbStatRead p k => some (p, .POS_STRB_STAT, k)
  | .posAxErrcntRead p a => some (p, .POS_AX_ERRCNT, a)
  | .srtErrRead p n => some (p, .SRT_ERR, n)
  | _ => none

/-- The state whose word a clearing read returns: LANE_CNT_READ adds to the count what the lane's PRBS checker has found (R261). -/
def State.counted (s : State) : Instr → State
  | .laneCntRead _ x => s.when (s.prbsRuns x.lane) (·.bump .LANE_CNT_PRBS_ERR x.lane x.errors.toNat)
  | _ => s

/-- The time whose end a command reports has passed; true of a command that reports none. -/
def State.timeUp (s : State) : Instr → Bool
  | .freezeTimeout x r => decide ((s.sampler x r).since + 1000 ≤ s.clock)
  | .islandResetRelease d => s.ran .island d 1000
  | .firmwareWatchdog => s.ran .cores 0 100000000
  | .doneWaitTimeout => s.ran .release 0 1000000000
  | .broadcastWaitTimeout => s.ran .bcastWait 0 30000000000
  | .broadcastGapTimeout => s.ran .bcastFlit 0 10000000
  | .broadcastPollTimeout => s.ran .poll 0 10000000
  | .bankRangeMismatch b => s.ran .range b 50000000
  | .bankSupplyLossHold b => s.ran .outside b 100000
  | .ainStale i => s.lapsed .result i 500000
  | .underrunReport c => s.lapsed .report c 100000000
  | .linkDownTimeout l => s.ran .inactive l 10000000
  | .stitchLinkTimeout l => s.ran .linkDown l 10000000
  | .memberUnreachable r m => s.lapsed .member (32 * r + m) 3000000
  | .ringConfigTimeout r => s.ran .table r 100000000
  | .nakRepeat m => s.ran .nak m 10000
  | .linkStateTimeout m _ => s.ran .linkState m (stateBound (s.fld .LNK_STAT_STATE m))
  | .backoffExpired m => s.ran .linkState m (s.backoff m)
  | .activeHeld m => s.ran .linkState m 1000000000
  | .timingTimeout m => s.ran .timing m 1000000
  | .widthReqResend m => s.ran .width m 1000000
  | .laneRejoin l => s.ran .lock l 100000000
  | .linkSilenceTimeout m => s.ran .frame m 10000
  | .userClockLoss k => s.ran .uclk k 4000
  | .rpPerstRelease j => s.lapsed .present j 100000000
  | _ => true

/-- DEV_LC.STATE shows what the fuses hold (R501, R502). -/
def State.ShowsFuses (s : State) : Prop := s.lifeCycle = s.fusedState

end Sys2Proof.Machine
end

