-- ==== Sys2Proof/Certificates/Slice0/Obligations.lean ====
section
/-! DEFINITION. The statements for the provers: what the numbered rules of spec/ say that a command or the device does. -/

open Sys2Proof Sys2Proof.Machine

/-- O1. A step runs the command at the front of the queue. For every command c, queue rest and state s, a step of s with c :: rest waiting answers exec of c on s with rest waiting. -/
def Obligations.StepRunsTheFrontCommand : Prop :=
  ∀ (c : Instr) (rest : List Instr) (s : State),
    step { s with pending := c :: rest } = exec c { s with pending := rest }

/-- O2. A step takes exactly one command from the queue and no command puts one there. For every state s and next state t of a step, the commands waiting in t are those of s less the first. -/
def Obligations.StepTakesOneCommand : Prop :=
  ∀ s t : State, step s = .next t → t.pending = s.pending.tail

/-- O3. No command stops the device. For every command c and state s there is a next state: the device has no fault that stops it (log 62). -/
def Obligations.EveryCommandAnswers : Prop :=
  ∀ (c : Instr) (s : State), ∃ t, exec c s = .next t

/-- O4. The memories of the state after reset are in canonical form. The stacked memory, the mailbox memory and the register file of State.reset are canonical. -/
def Obligations.ResetIsCanonical : Prop :=
  State.reset.Canonical

/-- O5. Every step keeps the canonical form of the memories. For every state whose stacked memory, mailbox memory and register file are in canonical form, every step leaves them in canonical form. -/
def Obligations.StepKeepsMemoriesCanonical : Prop :=
  ∀ s t : State, s.Canonical → step s = .next t → t.Canonical

/-- O6. A raise sets its bit of EVT_PEND, and a raise is never refused. For every source and state, EVENT_RAISE answers a next state in which the bit of the source in EVT_PEND is 1 and every other bit of EVT_PEND is at least what it was (a WAIT that the notices cause raises source 209). -/
def Obligations.RaiseSetsPending : Prop :=
  ∀ (src : Fin 256) (s : State), ∃ t, exec (.eventRaise src) s = .next t ∧
    bitOf (t.fld .EVT_PEND_PEND (src.val / 32)) (src.val % 32) = true ∧
    ∀ k : Fin 256, k ≠ src → k.val ≠ 209 →
      bitOf (t.fld .EVT_PEND_PEND (k.val / 32)) (k.val % 32) = bitOf (s.fld .EVT_PEND_PEND (k.val / 32)) (k.val % 32)

/-- O7. What the commands of the Postroom, the device services and register accesses leave as it was. Each of these commands answers a next state that differs from the state before it at most in the registers and the parts of the state that its clause lists: every other register field of the map and every other part (memories, queues, tables) is unchanged. The commands: REGISTER_WRITE, WIDE_VALUE_LOW_READ, REGION_CONTROL_ACCESS, MAILBOX_DOORBELL, REPLY_HEAD_WRITE, MAILBOX_SIGNAL, RING_PEER_LETTER, MAILBOX_RESET, POSTROOM_RESTART, LOCK_ACQUIRE, LOCK_RELEASE, DEVICE_INFO, DEVICE_MAILBOX_ASSIGN, DEVICE_TIME_SET, DEVICE_TIME_GET, DEVICE_RESET, DEVICE_SHUTDOWN, FIRMWARE_WATCHDOG, CFG_GO, XSPI_REQUEST, CFG_NVM_CNT_READ, CFG_ISO_CNT_READ, CFG_RGN_UPSET_READ, CFG_SCRUB_CNT_READ, PWR_RGN_LOOP_READ, DEV_RST_DEVICE, DEV_RST_FABRIC, ISLAND_RESET, RNG_DATA_READ, DEV_RNG_STAT_READ, FIRMWARE_READY. -/
def Obligations.FrameOfPostroom : Prop :=
  (∀ (port : Port) (addr : BitVec 25) (bytes : Fin 9) (value : Word) (s : State), ∃ t : State, exec (.registerWrite port addr bytes value) s = .next t ∧
      Within (Reg.all) (signalled [.arbiters, .axes, .bms, .cells, .chans, .config, .crossings, .elements, .fires, .flying, .franker, .gates, .images, .insRes, .insWords, .isos, .laneSkip, .laneTx, .lease, .links, .memo, .pins, .plcs, .ports, .power, .resets, .restoring, .rings, .samplers, .seals, .secure, .shadows, .sorters, .store, .strobeAt, .svc, .taken, .taps, .timers, .trees, .uclkUse, .waiting, .words]) s t) ∧
    (∀ (port : Port) (addr : ReadAt) (s : State), ∃ t : State, exec (.wideValueLowRead port addr) s = .next t ∧
      Within (Reg.all) (signalled [.arbiters, .axes, .bms, .cells, .chans, .config, .crossings, .elements, .fires, .flying, .franker, .gates, .images, .insRes, .insWords, .isos, .laneSkip, .laneTx, .lease, .links, .memo, .pins, .plcs, .ports, .power, .resets, .restoring, .rings, .samplers, .seals, .secure, .shadows, .sorters, .store, .strobeAt, .svc, .taken, .taps, .timers, .trees, .uclkUse, .waiting, .words]) s t) ∧
    (∀ (region : Fin 40) (word0 word1 : BitVec 32) (s : State), ∃ t : State, exec (.regionControlAccess region word0 word1) s = .next t ∧
      Within (Reg.all) (signalled [.arbiters, .axes, .bms, .cells, .chans, .config, .crossings, .elements, .fires, .flying, .franker, .gates, .images, .insRes, .insWords, .isos, .laneSkip, .laneTx, .lease, .links, .memo, .pins, .plcs, .ports, .power, .resets, .restoring, .rings, .samplers, .seals, .secure, .shadows, .sorters, .store, .strobeAt, .svc, .taken, .taps, .timers, .trees, .uclkUse, .waiting, .words]) s t) ∧
    (∀ (port : Port) (mailbox : Fin 64) (value : Word) (s : State), ∃ t : State, exec (.mailboxDoorbell port mailbox value) s = .next t ∧
      Within (signals (counting (errors [.PST_MB_REQ]))) (signalled [.crossings, .waiting]) s t) ∧
    (∀ (port : Port) (mailbox : Fin 64) (value : Word) (s : State), ∃ t : State, exec (.replyHeadWrite port mailbox value) s = .next t ∧
      Within (signals (counting (errors [.PIN_GSTAT, .PIN_ICONF, .PIN_OCONF, .PIN_PLC_CTL, .PST_MB_REQ, .SRT_CTL, .SRT_ERR, .SRT_STAT]))) (signalled [.chans, .crossings, .flying, .lease, .links, .pins, .plcs, .sorters, .trees, .waiting]) s t) ∧
    (∀ (mailbox : Fin 64) (s : State), ∃ t : State, exec (.mailboxSignal mailbox) s = .next t ∧
      Within ([]) ([.boxes, .outputs, .pulses]) s t) ∧
    (∀ (owner : BitVec 8) (mailbox : Fin 64) (bytes : List Byte) (s : State), ∃ t : State, exec (.ringPeerLetter owner mailbox bytes) s = .next t ∧
      Within (signals (counting [.PST_MB_REQ])) (signalled []) s t) ∧
    (∀ (mailbox : Fin 64) (ownerEvent : Bool) (s : State), ∃ t : State, exec (.mailboxReset mailbox ownerEvent) s = .next t ∧
      Within (signals [.PST_FW_STAT, .PST_LOCK, .PST_MB_REQ]) (signalled [.store, .svc]) s t) ∧
    (∀ (outcomes : List (Letter × Reply)) (s : State), ∃ t : State, exec (.postroomRestart outcomes) s = .next t ∧
      Within (signals (counting [.PIN_GSTAT, .PIN_ICONF, .PIN_OCONF, .PIN_PLC_CTL, .PST_FW_STAT, .PST_LOCK, .PST_MB_REQ, .SRT_CTL, .SRT_ERR, .SRT_STAT])) (signalled [.chans, .flying, .lease, .links, .pins, .plcs, .rings, .sorters, .trees]) s t) ∧
    (∀ (port : Port) (lock : Fin 256) (s : State), ∃ t : State, exec (.lockAcquire port lock) s = .next t ∧
      Within (signals (errors [.PST_LOCK])) (signalled [.crossings, .waiting]) s t) ∧
    (∀ (port : Port) (lock : Fin 256) (value : Word) (s : State), ∃ t : State, exec (.lockRelease port lock value) s = .next t ∧
      Within (signals (errors [.PST_LOCK, .PST_LOCK_ERR])) (signalled [.crossings, .waiting]) s t) ∧
    (∀ (letter : Letter) (s : State), ∃ t : State, exec (.deviceInfo letter) s = .next t ∧
      Within (signals (counting [])) (signalled []) s t) ∧
    (∀ (letter : Letter) (s : State), ∃ t : State, exec (.deviceMailboxAssign letter) s = .next t ∧
      Within (signals (counting [.PST_FW_STAT, .PST_MB_OWNER, .PST_MB_REQ])) (signalled [.store, .svc]) s t) ∧
    (∀ (letter : Letter) (s : State), ∃ t : State, exec (.deviceTimeSet letter) s = .next t ∧
      Within (signals (counting [.DEV_RTC, .DEV_RTC_STAT])) (signalled []) s t) ∧
    (∀ (letter : Letter) (s : State), ∃ t : State, exec (.deviceTimeGet letter) s = .next t ∧
      Within (signals (counting [])) (signalled []) s t) ∧
    (∀ (letter : Letter) (s : State), ∃ t : State, exec (.deviceReset letter) s = .next t ∧
      Within (signals (counting [.CFG_AGT_STAT, .CFG_BM_STAT, .CFG_DESIGN, .CFG_FAB_STAT, .CFG_ISO_CNT, .CFG_NVM_STAT, .CFG_RGN_STAT, .CFG_SRC, .CFG_STAT, .CFG_TREE_STAT, .DEV_FRK_MISS, .DEV_ISL_HELD, .DEV_RGN_ACCESS, .DEV_ST_STAT, .DEV_XDROP, .MEM_HOME_STAT, .MEM_STK_ECNT, .MEM_STK_ERR, .MEM_STK_ERRADDR, .PIN_GSTAT, .PIN_ICONF, .PIN_OCONF, .PIN_PLC_CTL, .PST_FW_STAT, .PST_LOCK, .PST_MB_REQ, .PWR_RGN_STAT, .PWR_STATE, .SEAL_LINE_CNT, .SEAL_LINE_ERR, .SEAL_LINE_ERRADDR, .SRT_CTL, .SRT_ERR, .SRT_FLUSH_CNT, .SRT_HEAD, .SRT_STAT])) (signalled [.arbiters, .bms, .cells, .chans, .config, .crossings, .elements, .fires, .flying, .franker, .gates, .images, .insWords, .isos, .lease, .links, .memo, .pins, .plcs, .power, .resets, .restoring, .samplers, .seals, .secure, .shadows, .sorters, .store, .svc, .taken, .taps, .timers, .trees, .uclkUse, .waiting, .words]) s t) ∧
    (∀ (letter : Letter) (s : State), ∃ t : State, exec (.deviceShutdown letter) s = .next t ∧
      Within (signals (counting [.PWR_STATE])) (signalled [.power, .svc]) s t) ∧
    (∀ (s : State), ∃ t : State, exec .firmwareWatchdog s = .next t ∧
      Within (signals [.CFG_FAIL, .CFG_ISO_CNT, .CFG_RGN_STAT, .CFG_STAT, .CFG_TREE_STAT, .DEV_ISL_HELD, .PIN_GSTAT, .PIN_ICONF, .PIN_OCONF, .PST_FW_STAT, .PWR_RGN_STAT]) (signalled [.arbiters, .bms, .cells, .config, .crossings, .elements, .flying, .gates, .images, .isos, .pins, .restoring, .samplers, .taken, .taps, .timers, .trees, .uclkUse, .words]) s t) ∧
    (∀ (port : Port) (value : Word) (s : State), ∃ t : State, exec (.cfgGo port value) s = .next t ∧
      Within (signals (counting (errors [.CFG_AGT_STAT, .CFG_BM_STAT, .CFG_DESIGN, .CFG_FAB_STAT, .CFG_ISO_CNT, .CFG_NVM_STAT, .CFG_RGN_STAT, .CFG_SRC, .CFG_STAT, .CFG_TREE_STAT, .CFG_XSTAT, .DEV_FRK_MISS, .DEV_FRK_STAT, .DEV_ISL_HELD, .DEV_RGN_ACCESS, .DEV_XDROP, .LANE_CTL, .LANE_CUR, .LANE_ERR, .LANE_RATE, .LANE_STAT, .LNK_CABLE, .LNK_CNT_FLIT, .LNK_CNT_LINK, .LNK_CTL, .LNK_ERR, .LNK_LATENCY, .LNK_PARTNER_CAP, .LNK_PARTNER_PREP, .LNK_PARTNER_UID, .LNK_RING_CTL, .LNK_RING_REACH, .LNK_RING_STAT, .LNK_RING_STOPSRC, .LNK_RING_WEIGHT, .LNK_STAT, .MEM_HOME_STAT, .MEM_STK_ECNT, .MEM_STK_ERR, .MEM_STK_ERRADDR, .PIN_GSTAT, .PIN_ICONF, .PIN_OCONF, .PIN_OMAP, .PIN_PLC_CTL, .PIN_PLC_STAT, .POS_AX_EPOCH, .POS_AX_FLT, .POS_AX_HWM, .POS_AX_LOAD, .POS_AX_LOSTCNT, .POS_AX_POS, .POS_AX_STAT, .POS_AX_VEL, .PST_FW_STAT, .PST_LOCK, .PST_MB_REQ, .SEAL_LINE_CNT, .SEAL_LINE_ERR, .SEAL_LINE_ERRADDR, .SRT_CTL, .SRT_ERR, .SRT_FLUSH_CNT, .SRT_HEAD, .SRT_STAT]))) (signalled [.arbiters, .axes, .bms, .cells, .chans, .config, .crossings, .elements, .fires, .flying, .franker, .gates, .insWords, .isos, .laneSkip, .laneTx, .lease, .links, .memo, .pins, .plcs, .resets, .restoring, .rings, .samplers, .seals, .shadows, .sorters, .store, .strobeAt, .svc, .taken, .taps, .timers, .trees, .waiting, .words]) s t) ∧
    (∀ (port : Port) (q : Fin 4) (addr : Word) (s : State), ∃ t : State, exec (.xspiRequest port q addr) s = .next t ∧
      Within (signals (errors [.CFG_BM_STAT, .CFG_FAB_STAT, .CFG_ISO_CNT, .CFG_NVM_STAT, .CFG_RGN_STAT, .CFG_TREE_STAT, .CFG_XSTAT, .DEV_XDROP, .PIN_GSTAT, .PIN_ICONF, .PIN_OCONF, .PST_FW_STAT, .PST_LOCK, .PST_MB_REQ])) (signalled [.arbiters, .bms, .cells, .config, .crossings, .elements, .flying, .gates, .isos, .pins, .store, .svc, .taken, .taps, .trees, .waiting, .words]) s t) ∧
    (∀ (port : Port) (s : State), ∃ t : State, exec (.cfgNvmCntRead port) s = .next t ∧
      Within (signals (errors [.CFG_NVM_CNT])) (signalled [.crossings, .waiting]) s t) ∧
    (∀ (port : Port) (region : Fin 40) (s : State), ∃ t : State, exec (.cfgIsoCntRead port region) s = .next t ∧
      Within (signals (errors [.CFG_ISO_CNT])) (signalled [.crossings, .waiting]) s t) ∧
    (∀ (port : Port) (region : Fin 40) (s : State), ∃ t : State, exec (.cfgRgnUpsetRead port region) s = .next t ∧
      Within (signals (errors [.CFG_RGN_UPSET])) (signalled [.crossings, .waiting]) s t) ∧
    (∀ (port : Port) (s : State), ∃ t : State, exec (.cfgScrubCntRead port) s = .next t ∧
      Within (signals (errors [.CFG_SCRUB_CNT])) (signalled [.crossings, .waiting]) s t) ∧
    (∀ (port : Port) (region : Fin 40) (s : State), ∃ t : State, exec (.pwrRgnLoopRead port region) s = .next t ∧
      Within (signals (errors [.PWR_RGN_LOOP])) (signalled [.crossings, .waiting]) s t) ∧
    (∀ (port : Port) (value : Word) (s : State), ∃ t : State, exec (.devRstDevice port value) s = .next t ∧
      Within (signals (counting (errors [.CFG_AGT_STAT, .CFG_BM_STAT, .CFG_DESIGN, .CFG_FAB_STAT, .CFG_ISO_CNT, .CFG_NVM_STAT, .CFG_RGN_STAT, .CFG_SRC, .CFG_STAT, .CFG_TREE_STAT, .DEV_FRK_MISS, .DEV_ISL_HELD, .DEV_RGN_ACCESS, .DEV_ST_STAT, .DEV_XDROP, .MEM_HOME_STAT, .MEM_STK_ECNT, .MEM_STK_ERR, .MEM_STK_ERRADDR, .PIN_GSTAT, .PIN_ICONF, .PIN_OCONF, .PIN_PLC_CTL, .PST_FW_STAT, .PST_LOCK, .PST_MB_REQ, .PWR_RGN_STAT, .PWR_STATE, .SEAL_LINE_CNT, .SEAL_LINE_ERR, .SEAL_LINE_ERRADDR, .SRT_CTL, .SRT_ERR, .SRT_FLUSH_CNT, .SRT_HEAD, .SRT_STAT]))) (signalled [.arbiters, .bms, .cells, .chans, .config, .crossings, .elements, .fires, .flying, .franker, .gates, .images, .insWords, .isos, .lease, .links, .memo, .pins, .plcs, .power, .resets, .restoring, .samplers, .seals, .secure, .shadows, .sorters, .store, .svc, .taken, .taps, .timers, .trees, .uclkUse, .waiting, .words]) s t) ∧
    (∀ (port : Port) (value : Word) (s : State), ∃ t : State, exec (.devRstFabric port value) s = .next t ∧
      Within (signals (counting (errors [.CFG_AGT_STAT, .CFG_BM_STAT, .CFG_DESIGN, .CFG_FAB_STAT, .CFG_ISO_CNT, .CFG_NVM_STAT, .CFG_RGN_STAT, .CFG_SRC, .CFG_STAT, .CFG_TREE_STAT, .DEV_FRK_MISS, .DEV_ISL_HELD, .DEV_RGN_ACCESS, .DEV_ST_STAT, .DEV_XDROP, .MEM_HOME_STAT, .MEM_STK_ECNT, .MEM_STK_ERR, .MEM_STK_ERRADDR, .PIN_GSTAT, .PIN_ICONF, .PIN_OCONF, .PIN_PLC_CTL, .PST_FW_STAT, .PST_LOCK, .PST_MB_REQ, .PWR_RGN_STAT, .PWR_STATE, .SEAL_LINE_CNT, .SEAL_LINE_ERR, .SEAL_LINE_ERRADDR, .SRT_CTL, .SRT_ERR, .SRT_FLUSH_CNT, .SRT_HEAD, .SRT_STAT]))) (signalled [.arbiters, .bms, .cells, .chans, .config, .crossings, .elements, .fires, .flying, .franker, .gates, .images, .insWords, .isos, .lease, .links, .memo, .pins, .plcs, .power, .resets, .restoring, .samplers, .seals, .secure, .shadows, .sorters, .store, .svc, .taken, .taps, .timers, .trees, .uclkUse, .waiting, .words]) s t) ∧
    (∀ (port : Port) (value : Word) (lost : List (Fin 144 × Lost)) (s : State), ∃ t : State, exec (.islandReset port value lost) s = .next t ∧
      Within (signals (counting (errors [.CFG_AGT_STAT, .CFG_BM_STAT, .CFG_DESIGN, .CFG_FAB_STAT, .CFG_FAIL, .CFG_ISO_CNT, .CFG_NVM_STAT, .CFG_RGN_STAT, .CFG_SRC, .CFG_STAT, .CFG_TREE_STAT, .CFG_XSTAT, .DEV_FRK_MISS, .DEV_FRK_STAT, .DEV_ISL_HELD, .DEV_ISL_RST, .DEV_OCT_STAT, .DEV_RGN_ACCESS, .DEV_ST_STAT, .DEV_XDROP, .LANE_CNT, .LANE_CTL, .LANE_CUR, .LANE_DFE, .LANE_EP_STAT, .LANE_ERR, .LANE_ETH_CNT, .LANE_ETH_RXRD, .LANE_ETH_RXWR, .LANE_ETH_STAT, .LANE_ETH_TXRD, .LANE_ETH_TXWR, .LANE_RATE, .LANE_RP_STAT, .LANE_RXEQ, .LANE_STAT, .LANE_TXEQ, .LNK_CABLE, .LNK_CNT_FLIT, .LNK_CNT_LINK, .LNK_CTL, .LNK_ERR, .LNK_LATENCY, .LNK_PARTNER_CAP, .LNK_PARTNER_PREP, .LNK_PARTNER_UID, .LNK_RING_CTL, .LNK_RING_REACH, .LNK_RING_STAT, .LNK_RING_STOPSRC, .LNK_RING_WEIGHT, .LNK_STAT, .MEM_HOME_CNT, .MEM_HOME_STAT, .MEM_STK_ECNT, .MEM_STK_ERR, .MEM_STK_ERRADDR, .MEM_STK_STAT, .PIN_GSTAT, .PIN_ICONF, .PIN_OCONF, .PIN_OMAP, .PIN_PLC_CNT, .PIN_PLC_CTL, .PIN_PLC_STAT, .PIN_PWM_HI, .POS_AX_EPOCH, .POS_AX_FLT, .POS_AX_HWM, .POS_AX_LOAD, .POS_AX_LOSTCNT, .POS_AX_POS, .POS_AX_STAT, .POS_AX_VEL, .PST_FW_STAT, .PST_LOCK, .PST_MB_REQ, .PWR_RGN_STAT, .PWR_STATE, .SEAL_LINE_CNT, .SEAL_LINE_ERR, .SEAL_LINE_ERRADDR, .SEAL_STORE_STAT, .SRT_CTL, .SRT_ERR, .SRT_FLUSH_CNT, .SRT_HEAD, .SRT_STAT, .TST_TAP_STAT]))) (signalled [.arbiters, .axes, .bms, .cells, .chans, .config, .crossings, .elements, .fires, .flying, .franker, .gates, .images, .insWords, .isos, .laneSkip, .laneTx, .lease, .links, .memo, .pins, .plcs, .ports, .power, .resets, .restoring, .rings, .samplers, .seals, .secure, .shadows, .sorters, .store, .strobeAt, .svc, .taken, .taps, .timers, .trees, .uclkUse, .waiting, .words]) s t) ∧
    (∀ (port : Port) (s : State), ∃ t : State, exec (.rngDataRead port) s = .next t ∧
      Within (signals (errors [])) (signalled [.crossings, .shadows, .waiting]) s t) ∧
    (∀ (port : Port) (s : State), ∃ t : State, exec (.devRngStatRead port) s = .next t ∧
      Within (signals (errors [.DEV_RNG_STAT])) (signalled [.crossings, .waiting]) s t) ∧
    (∀ (s : State), ∃ t : State, exec .firmwareReady s = .next t ∧
      Within (signals (counting (errors [.CFG_BM_STAT, .CFG_DESIGN, .CFG_FAB_STAT, .CFG_ISO_CNT, .CFG_NVM_ERR, .CFG_NVM_STAT, .CFG_NVM_WEAR, .CFG_RGN_STAT, .CFG_SRC, .CFG_STAT, .CFG_TREE_STAT, .DEV_FRK_CTR, .DEV_FRK_REC, .DEV_FRK_STAT, .DEV_OCT_PROTO, .DEV_OCT_STAT, .DEV_SEC_STAT, .DEV_XDROP, .LANE_CTL, .LANE_CUR, .LANE_ERR, .LANE_RATE, .LANE_STAT, .LNK_CABLE, .LNK_CNT_FLIT, .LNK_CNT_LINK, .LNK_CTL, .LNK_ERR, .LNK_LATENCY, .LNK_PARTNER_CAP, .LNK_PARTNER_PREP, .LNK_PARTNER_UID, .LNK_RING_CTL, .LNK_RING_REACH, .LNK_RING_STAT, .LNK_RING_STOPSRC, .LNK_RING_WEIGHT, .LNK_STAT, .MEM_HOME_CNT, .PIN_GSTAT, .PIN_ICONF, .PIN_OCONF, .PIN_OMAP, .PIN_PLC_CTL, .PIN_PLC_STAT, .POS_AX_EPOCH, .POS_AX_FLT, .POS_AX_HWM, .POS_AX_LOAD, .POS_AX_LOSTCNT, .POS_AX_POS, .POS_AX_STAT, .POS_AX_VEL, .PST_FW_STAT, .PST_LOCK, .PST_MB_OWNER, .PST_MB_REQ, .SEAL_GRAN, .SEAL_GRAN_RES, .SEAL_LINE_STAT, .SRT_CTL, .SRT_ERR, .SRT_STAT]))) (signalled [.arbiters, .axes, .bms, .cells, .chans, .config, .crossings, .elements, .fires, .flying, .franker, .gates, .isos, .laneSkip, .laneTx, .lease, .links, .memo, .pins, .plcs, .ports, .resets, .rings, .seals, .secure, .sorters, .store, .strobeAt, .svc, .taken, .taps, .timers, .trees, .waiting, .words]) s t)

/-- O8. What the commands of fabric leave as it was. Each of these commands answers a next state that differs from the state before it at most in the registers and the parts of the state that its clause lists: every other register field of the map and every other part (memories, queues, tables) is unchanged. The commands: TOKEN_CAPTURE, MEM_CELL_READ, MEM_CELL_WRITE, MEM_CELL_SWAP, ARBITER_REQUEST, ARBITER_RELEASE, WAKE_STROBE, STROBE_TAP_PULSE, USER_CLOCK_LOSS, USER_CLOCK_RETURN, BM_READ, BM_WRITE, BM_SWAP, BM_WRITE_ACK, DOMAIN_STOPPED, DOMAIN_RUNNING, FREEZE_REQUEST, FREEZE_TIMEOUT, CROSSING_RESET_ASSERT, CROSSING_RESET_SEEN, CROSSING_RESET_RELEASE, CROSSING_RESYNC_SEEN, CROSSING_RESYNC_ACK, DEV_XDROP_READ, OCTET_PLL_LOCK, REGION_IMAGE_OPEN, REGION_IMAGE_CLOSE, REGION_LOAD, REGION_RESET, REGION_QUERY, REGION_LOAD_COMPLETE, INIT_RESTORE_DONE, ISOLATION_END, SCRUB_FRAME_READ, FRAME_REFETCH_DONE, ISLAND_RESET_RELEASE, USER_CLOCK_EDGE. -/
def Obligations.FrameOfFabric : Prop :=
  (∀ (site : Site) (wires : List (Nat × Rail)) (upset : List Nat) (s : State), ∃ t : State, exec (.tokenCapture site wires upset) s = .next t ∧
      Within (signals (counting [.CFG_FAB_STAT, .CFG_ISO_CNT])) (signalled [.cells, .elements, .flying, .isos, .pins, .taken, .taps, .trees, .words]) s t) ∧
    (∀ (region : Fin 40) (cell : Fin 65536) (request : Arrivals) (s : State), ∃ t : State, exec (.memCellRead region cell request) s = .next t ∧
      Within (signals (counting [.CFG_FAB_STAT])) (signalled [.cells, .elements, .flying, .isos, .pins, .taken, .taps, .trees, .words]) s t) ∧
    (∀ (region : Fin 40) (cell : Fin 65536) (request data : Arrivals) (s : State), ∃ t : State, exec (.memCellWrite region cell request data) s = .next t ∧
      Within (signals (counting [.CFG_FAB_STAT])) (signalled [.cells, .elements, .isos, .taken, .taps, .words]) s t) ∧
    (∀ (region : Fin 40) (cell : Fin 65536) (request data : Arrivals) (s : State), ∃ t : State, exec (.memCellSwap region cell request data) s = .next t ∧
      Within (signals (counting [.CFG_FAB_STAT])) (signalled [.cells, .elements, .flying, .isos, .pins, .taken, .taps, .trees, .words]) s t) ∧
    (∀ (region : Fin 40) (arbiter : Fin 8192) (req : ArbReq) (s : State), ∃ t : State, exec (.arbiterRequest region arbiter req) s = .next t ∧
      Within ([]) ([.arbiters, .freeValues]) s t) ∧
    (∀ (region : Fin 40) (arbiter : Fin 8192) (s : State), ∃ t : State, exec (.arbiterRelease region arbiter) s = .next t ∧
      Within ([]) ([.arbiters]) s t) ∧
    (∀ (mask : BitVec 40) (s : State), ∃ t : State, exec (.wakeStrobe mask) s = .next t ∧
      Within (signals [.CFG_RGN_STAT, .CFG_TREE_STAT, .PIN_GSTAT, .PIN_ICONF, .PIN_OCONF]) (signalled [.cells, .flying, .monitors, .pins, .power, .trees, .words]) s t) ∧
    (∀ (region : Fin 40) (tree : Fin 8) (index : Nat) (s : State), ∃ t : State, exec (.strobeTapPulse region tree index) s = .next t ∧
      Within (signals [.CFG_TREE_STAT]) (signalled [.cells, .elements, .flying, .isos, .taken, .taps, .words]) s t) ∧
    (∀ (tree : Fin 4) (s : State), ∃ t : State, exec (.userClockLoss tree) s = .next t ∧
      Within (signals [.CFG_TREE_STAT]) (signalled [.trees]) s t) ∧
    (∀ (tree : Fin 4) (s : State), ∃ t : State, exec (.userClockReturn tree) s = .next t ∧
      Within ([.CFG_TREE_STAT]) ([.trees]) s t) ∧
    (∀ (region : Fin 40) (index : Fin 192) (port : BmPort) (word : WordToken) (moment : BmMoment) (s : State), ∃ t : State, exec (.bmRead region index port word moment) s = .next t ∧
      Within (signals (counting [.CFG_BM_STAT])) (signalled [.bms]) s t) ∧
    (∀ (region : Fin 40) (index : Fin 192) (port : BmPort) (word : WordToken) (data : BmData) (moment : BmMoment) (s : State), ∃ t : State, exec (.bmWrite region index port word data moment) s = .next t ∧
      Within (signals (counting [.CFG_BM_STAT])) (signalled [.bms]) s t) ∧
    (∀ (region : Fin 40) (index : Fin 192) (port : BmPort) (word low high : WordToken) (moment : BmMoment) (s : State), ∃ t : State, exec (.bmSwap region index port word low high moment) s = .next t ∧
      Within (signals (counting [.CFG_BM_STAT])) (signalled [.bms]) s t) ∧
    (∀ (region : Fin 40) (index : Fin 192) (port : BmPort) (word : WordToken) (data : BmData) (moment : BmMoment) (s : State), ∃ t : State, exec (.bmWriteAck region index port word data moment) s = .next t ∧
      Within (signals (counting [.CFG_BM_STAT])) (signalled [.bms]) s t) ∧
    (∀ (domain : Fin 25) (s : State), ∃ t : State, exec (.domainStopped domain) s = .next t ∧
      Within (signals [.DEV_ISL_RUN, .DEV_ISL_STOP, .MEM_STK_STAT, .PIN_GSTAT, .PIN_ICONF, .PIN_OCONF]) (signalled [.flying, .pins, .trees]) s t) ∧
    (∀ (domain : Fin 25) (s : State), ∃ t : State, exec (.domainRunning domain) s = .next t ∧
      Within (Reg.all) (signalled [.arbiters, .axes, .beaconAt, .bms, .cells, .chans, .config, .crossings, .elements, .fires, .flying, .franker, .gates, .heaters, .images, .insRes, .insWords, .isos, .laneSkip, .laneTx, .lease, .links, .memo, .pins, .plcs, .ports, .power, .resets, .restoring, .rings, .samplers, .seals, .secure, .shadows, .sorters, .store, .strobeAt, .svc, .taken, .taps, .timers, .trees, .uclkUse, .waiting, .words]) s t) ∧
    (∀ (publisher : Published) (receiver : Receiver) (s : State), ∃ t : State, exec (.freezeRequest publisher receiver) s = .next t ∧
      Within ([]) ([.copies, .samplers]) s t) ∧
    (∀ (publisher : Published) (receiver : Fin 26) (s : State), ∃ t : State, exec (.freezeTimeout publisher receiver) s = .next t ∧
      Within ([]) ([.samplers]) s t) ∧
    (∀ (domain : Fin 25) (domainEnd : Bool) (s : State), ∃ t : State, exec (.crossingResetAssert domain domainEnd) s = .next t ∧
      Within (signals [.DEV_ISL_HELD, .PIN_GSTAT, .PIN_ICONF, .PIN_OCONF]) (signalled [.crossings, .flying, .pins, .samplers, .trees]) s t) ∧
    (∀ (domain : Fin 25) (discarded : Fin 65) (targets : List PoisonTo) (s : State), ∃ t : State, exec (.crossingResetSeen domain discarded targets) s = .next t ∧
      Within (signals (counting [.CFG_AGT_STAT, .CFG_ISO_CNT, .DEV_XDROP, .LANE_ETH_RXWR, .LNK_CNT_LINK, .LNK_ERR, .MEM_HOME_CNT, .MEM_HOME_STAT, .MEM_STK_ECNT, .MEM_STK_ERR, .MEM_STK_ERRADDR, .PIN_GSTAT, .PIN_ICONF, .PIN_OCONF, .PIN_PLC_CTL, .SEAL_LINE_CNT, .SEAL_LINE_ERR, .SEAL_LINE_ERRADDR, .SRT_CTL, .SRT_ERR, .SRT_STAT])) (signalled [.chans, .crossings, .fires, .flying, .laneSkip, .laneTx, .lease, .links, .memo, .pins, .plcs, .seals, .sorters, .svc, .trees, .waiting]) s t) ∧
    (∀ (domain : Fin 25) (domainEnd : Bool) (s : State), ∃ t : State, exec (.crossingResetRelease domain domainEnd) s = .next t ∧
      Within ([]) ([.crossings]) s t) ∧
    (∀ (domain : Fin 25) (s : State), ∃ t : State, exec (.crossingResyncSeen domain) s = .next t ∧
      Within ([]) ([.crossings]) s t) ∧
    (∀ (domain : Fin 25) (s : State), ∃ t : State, exec (.crossingResyncAck domain) s = .next t ∧
      Within (Reg.all) (signalled [.arbiters, .axes, .beaconAt, .bms, .cells, .chans, .config, .crossings, .elements, .fires, .flying, .franker, .gates, .heaters, .images, .insRes, .insWords, .isos, .laneSkip, .laneTx, .lease, .links, .memo, .pins, .plcs, .ports, .power, .resets, .restoring, .rings, .samplers, .seals, .secure, .shadows, .sorters, .store, .strobeAt, .svc, .taken, .taps, .timers, .trees, .uclkUse, .waiting, .words]) s t) ∧
    (∀ (port : Port) (domain : Fin 25) (s : State), ∃ t : State, exec (.devXdropRead port domain) s = .next t ∧
      Within (signals (errors [.DEV_XDROP])) (signalled [.crossings, .waiting]) s t) ∧
    (∀ (octet : Fin 18) (lost : List Lost) (s : State), ∃ t : State, exec (.octetPllLock octet lost) s = .next t ∧
      Within (Reg.all) (signalled [.arbiters, .axes, .beaconAt, .bms, .cells, .chans, .config, .crossings, .elements, .fires, .flying, .franker, .gates, .heaters, .images, .insRes, .insWords, .isos, .laneSkip, .laneTx, .lease, .links, .memo, .pins, .plcs, .ports, .power, .resets, .restoring, .rings, .samplers, .seals, .secure, .shadows, .sorters, .store, .strobeAt, .svc, .taken, .taps, .timers, .trees, .uclkUse, .waiting, .words]) s t) ∧
    (∀ (letter : Letter) (facts : ImageFacts) (s : State), ∃ t : State, exec (.regionImageOpen letter facts) s = .next t ∧
      Within (signals (counting [.CFG_XSPI])) (signalled [.config, .svc]) s t) ∧
    (∀ (letter : Letter) (s : State), ∃ t : State, exec (.regionImageClose letter) s = .next t ∧
      Within (signals (counting [])) (signalled [.config, .svc]) s t) ∧
    (∀ (letter : Letter) (s : State), ∃ t : State, exec (.regionLoad letter) s = .next t ∧
      Within (signals (counting [.CFG_BM_STAT, .CFG_FAB_STAT, .CFG_ISO_CNT, .CFG_NVM_STAT, .CFG_RGN_STAT, .CFG_TREE_STAT, .DEV_XDROP, .PIN_GSTAT, .PIN_ICONF, .PIN_OCONF, .PST_FW_STAT, .PST_LOCK, .PST_MB_REQ])) (signalled [.arbiters, .bms, .cells, .config, .crossings, .elements, .flying, .gates, .isos, .pins, .store, .svc, .taken, .taps, .trees, .waiting, .words]) s t) ∧
    (∀ (letter : Letter) (s : State), ∃ t : State, exec (.regionReset letter) s = .next t ∧
      Within (signals (counting [.CFG_BM_STAT, .CFG_FAB_STAT, .CFG_ISO_CNT, .CFG_NVM_STAT, .CFG_RGN_STAT, .CFG_TREE_STAT, .DEV_XDROP, .PIN_GSTAT, .PIN_ICONF, .PIN_OCONF, .PIN_PLC_CTL, .PST_FW_STAT, .PST_LOCK, .PST_MB_REQ, .SRT_CTL, .SRT_STAT])) (signalled [.arbiters, .bms, .cells, .chans, .config, .crossings, .elements, .flying, .gates, .isos, .links, .pins, .plcs, .restoring, .sorters, .store, .svc, .taken, .taps, .trees, .waiting, .words]) s t) ∧
    (∀ (letter : Letter) (s : State), ∃ t : State, exec (.regionQuery letter) s = .next t ∧
      Within (signals (counting [])) (signalled []) s t) ∧
    (∀ (facts : ImageFacts) (body : RegionBody) (s : State), ∃ t : State, exec (.regionLoadComplete facts body) s = .next t ∧
      Within (signals (counting (errors [.CFG_AGT_STAT, .CFG_BM_STAT, .CFG_DESIGN, .CFG_FAB_STAT, .CFG_FAIL, .CFG_ISO_CNT, .CFG_NVM_CNT, .CFG_NVM_ERR, .CFG_NVM_STAT, .CFG_RGN_STAT, .CFG_SRC, .CFG_STAT, .CFG_TREE_STAT, .CFG_XSPI, .CFG_XSTAT, .DEV_FRK_MISS, .DEV_FRK_STAT, .DEV_ISL_HELD, .DEV_RGN_ACCESS, .DEV_XDROP, .LANE_CTL, .LANE_CUR, .LANE_ERR, .LANE_RATE, .LANE_STAT, .LNK_CABLE, .LNK_CNT_FLIT, .LNK_CNT_LINK, .LNK_CTL, .LNK_ERR, .LNK_LATENCY, .LNK_PARTNER_CAP, .LNK_PARTNER_PREP, .LNK_PARTNER_UID, .LNK_RING_CTL, .LNK_RING_REACH, .LNK_RING_STAT, .LNK_RING_STOPSRC, .LNK_RING_WEIGHT, .LNK_STAT, .MEM_HOME_STAT, .MEM_STK_ECNT, .MEM_STK_ERR, .MEM_STK_ERRADDR, .PIN_GSTAT, .PIN_ICONF, .PIN_OCONF, .PIN_OMAP, .PIN_PLC_CTL, .PIN_PLC_STAT, .POS_AX_EPOCH, .POS_AX_FLT, .POS_AX_HWM, .POS_AX_LOAD, .POS_AX_LOSTCNT, .POS_AX_POS, .POS_AX_STAT, .POS_AX_VEL, .PST_FW_STAT, .PST_LOCK, .PST_MB_REQ, .PWR_RGN_CTL, .PWR_RGN_STAT, .SEAL_LINE_CNT, .SEAL_LINE_ERR, .SEAL_LINE_ERRADDR, .SRT_CTL, .SRT_ERR, .SRT_FLUSH_CNT, .SRT_HEAD, .SRT_STAT]))) (signalled [.arbiters, .axes, .bms, .cells, .chans, .config, .crossings, .elements, .fires, .flying, .franker, .gates, .images, .insWords, .isos, .laneSkip, .laneTx, .lease, .links, .memo, .monitors, .pins, .plcs, .power, .resets, .restoring, .rings, .samplers, .seals, .shadows, .sorters, .store, .strobeAt, .svc, .taken, .taps, .timers, .trees, .uclkUse, .waiting, .words]) s t) ∧
    (∀ (region : Fin 40) (ok : ImageFacts) (s : State), ∃ t : State, exec (.initRestoreDone region ok) s = .next t ∧
      Within (signals (counting [.CFG_BM_STAT, .CFG_FAB_STAT, .CFG_FAIL, .CFG_ISO_CNT, .CFG_NVM_CNT, .CFG_NVM_ERR, .CFG_NVM_STAT, .CFG_RGN_STAT, .CFG_TREE_STAT, .CFG_XSPI, .DEV_XDROP, .PIN_GSTAT, .PIN_ICONF, .PIN_OCONF, .PST_FW_STAT, .PST_LOCK, .PST_MB_REQ, .PWR_RGN_STAT, .PWR_STATE])) (signalled [.arbiters, .bms, .cells, .config, .crossings, .elements, .flying, .gates, .isos, .monitors, .pins, .power, .restoring, .store, .svc, .taken, .taps, .trees, .waiting, .words]) s t) ∧
    (∀ (region : Fin 40) (s : State), ∃ t : State, exec (.isolationEnd region) s = .next t ∧
      Within (signals [.CFG_RGN_STAT]) (signalled [.config]) s t) ∧
    (∀ (read : FrameRead) (s : State), ∃ t : State, exec (.scrubFrameRead read) s = .next t ∧
      Within (signals (counting [.CFG_BM_STAT, .CFG_FAB_STAT, .CFG_ISO_CNT, .CFG_NVM_STAT, .CFG_RGN_STAT, .CFG_RGN_UPSET, .CFG_SCRUB_CNT, .CFG_SCRUB_LAST, .CFG_SCRUB_STAT, .CFG_TREE_STAT, .DEV_XDROP, .PIN_GSTAT, .PIN_ICONF, .PIN_OCONF, .PIN_PLC_CTL, .PST_FW_STAT, .PST_LOCK, .PST_MB_REQ, .SRT_CTL, .SRT_STAT])) (signalled [.arbiters, .bms, .cells, .chans, .config, .crossings, .elements, .flying, .gates, .isos, .links, .pins, .plcs, .restoring, .sorters, .store, .svc, .taken, .taps, .trees, .waiting, .words]) s t) ∧
    (∀ (ok : ImageFacts) (s : State), ∃ t : State, exec (.frameRefetchDone ok) s = .next t ∧
      Within (signals (counting (errors [.CFG_AGT_STAT, .CFG_BM_STAT, .CFG_DESIGN, .CFG_FAB_STAT, .CFG_FAIL, .CFG_ISO_CNT, .CFG_NVM_CNT, .CFG_NVM_ERR, .CFG_NVM_STAT, .CFG_RGN_STAT, .CFG_RGN_UPSET, .CFG_SCRUB_CNT, .CFG_SCRUB_LAST, .CFG_SRC, .CFG_STAT, .CFG_TREE_STAT, .CFG_XSPI, .CFG_XSTAT, .DEV_FRK_MISS, .DEV_FRK_STAT, .DEV_ISL_HELD, .DEV_RGN_ACCESS, .DEV_XDROP, .LANE_CTL, .LANE_CUR, .LANE_ERR, .LANE_RATE, .LANE_STAT, .LNK_CABLE, .LNK_CNT_FLIT, .LNK_CNT_LINK, .LNK_CTL, .LNK_ERR, .LNK_LATENCY, .LNK_PARTNER_CAP, .LNK_PARTNER_PREP, .LNK_PARTNER_UID, .LNK_RING_CTL, .LNK_RING_REACH, .LNK_RING_STAT, .LNK_RING_STOPSRC, .LNK_RING_WEIGHT, .LNK_STAT, .MEM_HOME_STAT, .MEM_STK_ECNT, .MEM_STK_ERR, .MEM_STK_ERRADDR, .PIN_GSTAT, .PIN_ICONF, .PIN_OCONF, .PIN_OMAP, .PIN_PLC_CTL, .PIN_PLC_STAT, .POS_AX_EPOCH, .POS_AX_FLT, .POS_AX_HWM, .POS_AX_LOAD, .POS_AX_LOSTCNT, .POS_AX_POS, .POS_AX_STAT, .POS_AX_VEL, .PST_FW_STAT, .PST_LOCK, .PST_MB_REQ, .SEAL_LINE_CNT, .SEAL_LINE_ERR, .SEAL_LINE_ERRADDR, .SRT_CTL, .SRT_ERR, .SRT_FLUSH_CNT, .SRT_HEAD, .SRT_STAT]))) (signalled [.arbiters, .axes, .bms, .cells, .chans, .config, .crossings, .elements, .fires, .flying, .franker, .gates, .insWords, .isos, .laneSkip, .laneTx, .lease, .links, .memo, .pins, .plcs, .resets, .restoring, .rings, .samplers, .seals, .shadows, .sorters, .store, .strobeAt, .svc, .taken, .taps, .timers, .trees, .waiting, .words]) s t) ∧
    (∀ (domain : Fin 25) (s : State), ∃ t : State, exec (.islandResetRelease domain) s = .next t ∧
      Within (signals (counting [.DEV_FRK_STAT, .LANE_CUR, .LNK_RING_STAT, .LNK_RING_STOPSRC, .LNK_STAT, .MEM_STK_STAT, .PIN_GSTAT, .PIN_ICONF, .PIN_OCONF, .PIN_PLC_CTL, .POS_AX_FLT, .POS_AX_LOSTCNT, .POS_AX_STAT, .PST_FW_STAT, .SRT_CTL, .SRT_STAT])) (signalled [.chans, .crossings, .flying, .links, .pins, .plcs, .rings, .sorters, .timers, .trees]) s t) ∧
    (∀ (tree : Fin 4) (wires : List (Fin 40 × List (Nat × Rail))) (s : State), ∃ t : State, exec (.userClockEdge tree wires) s = .next t ∧
      Within ([.CFG_TREE_STAT]) ([.boxes, .cells, .elements, .evt, .flying, .isos, .taken, .taps, .timers, .trees, .words]) s t)

/-- O9. What the commands of power leave as it was. Each of these commands answers a next state that differs from the state before it at most in the registers and the parts of the state that its clause lists: every other register field of the map and every other part (memories, queues, tables) is unchanged. The commands: MONITOR_WINDOW_END, POWER_STATE, POWER_QUERY, POWER_MARGIN, POWER_RAIL, REGULATOR_POLL, REGULATOR_ALERT, REG_FAULT, SENSE_SAMPLE, BANK_SUPPLY_LOSS_HOLD, AGE_MEASURE, THERMAL_TRIP, WAKE_N_LOW, WAKE_ALARM, WAKE_AXIS_DISTANCE, WAKE_PERST, AIN_CONVERSION, AIN_STALE. -/
def Obligations.FrameOfPower : Prop :=
  (∀ (region : Fin 40) (counts : List WindowCount) (s : State), ∃ t : State, exec (.monitorWindowEnd region counts) s = .next t ∧
      Within (signals (counting [.CFG_FAB_STAT, .PWR_RGN_LOOP, .PWR_RGN_STAT])) (signalled [.monitors, .power]) s t) ∧
    (∀ (letter : Letter) (s : State), ∃ t : State, exec (.powerState letter) s = .next t ∧
      Within (Reg.all) (signalled [.arbiters, .axes, .beaconAt, .bms, .cells, .chans, .config, .crossings, .elements, .fires, .flying, .franker, .gates, .heaters, .images, .insRes, .insWords, .isos, .laneSkip, .laneTx, .lease, .links, .memo, .pins, .plcs, .ports, .power, .resets, .restoring, .rings, .samplers, .seals, .secure, .shadows, .sorters, .store, .strobeAt, .svc, .taken, .taps, .timers, .trees, .uclkUse, .waiting, .words]) s t) ∧
    (∀ (letter : Letter) (s : State), ∃ t : State, exec (.powerQuery letter) s = .next t ∧
      Within (signals (counting [])) (signalled []) s t) ∧
    (∀ (letter : Letter) (s : State), ∃ t : State, exec (.powerMargin letter) s = .next t ∧
      Within (signals (counting [.PWR_RGN_CTL])) (signalled []) s t) ∧
    (∀ (letter : Letter) (s : State), ∃ t : State, exec (.powerRail letter) s = .next t ∧
      Within (signals (counting [.PIN_BANK_CTL, .PIN_BANK_STAT, .PIN_IN])) (signalled [.pins, .svc, .timers]) s t) ∧
    (∀ (answers : List (Fin 16 × PollAnswer)) (s : State), ∃ t : State, exec (.regulatorPoll answers) s = .next t ∧
      Within (signals (counting [.PWR_EXT])) (signalled [.svc]) s t) ∧
    (∀ (s : State), ∃ t : State, exec .regulatorAlert s = .next t ∧
      Within ([]) ([.outputs]) s t) ∧
    (∀ (site : Fin 40 ⊕ Fin 32) (s : State), ∃ t : State, exec (.regFault site) s = .next t ∧
      Within (signals [.PWR_RGN_STAT]) (signalled []) s t) ∧
    (∀ (sense : Sense) (s : State), ∃ t : State, exec (.senseSample sense) s = .next t ∧
      Within (signals [.PWR_MON, .PWR_PKG_STAT, .PWR_RGN_STAT, .PWR_TEMP, .PWR_THERM_STAT]) (signalled []) s t) ∧
    (∀ (bank : Fin 12) (s : State), ∃ t : State, exec (.bankSupplyLossHold bank) s = .next t ∧
      Within ([.PIN_BANK_STAT, .PIN_IN]) ([.freeValues, .pins, .timers]) s t) ∧
    (∀ (region : Fin 40) (age : BitVec 12) (s : State), ∃ t : State, exec (.ageMeasure region age) s = .next t ∧
      Within (signals [.PWR_RGN_LOOP, .PWR_RGN_STAT]) (signalled []) s t) ∧
    (∀ (s : State), ∃ t : State, exec .thermalTrip s = .next t ∧
      Within (signals (counting [.CFG_AGT_STAT, .CFG_ISO_CNT, .CFG_RGN_STAT, .CFG_SCRUB_STAT, .DEV_ISL_HELD, .DEV_ISL_RUN, .DEV_ISL_STOP, .DEV_OCT_STAT, .DEV_XDROP, .LANE_CNT, .LANE_CUR, .LANE_DFE, .LANE_EP_STAT, .LANE_ETH_CNT, .LANE_ETH_RXRD, .LANE_ETH_RXWR, .LANE_ETH_STAT, .LANE_ETH_TXRD, .LANE_ETH_TXWR, .LANE_RP_STAT, .LANE_RXEQ, .LANE_STAT, .LANE_TXEQ, .LNK_CABLE, .LNK_CNT_FLIT, .LNK_CNT_LINK, .LNK_ERR, .LNK_LATENCY, .LNK_PARTNER_CAP, .LNK_PARTNER_PREP, .LNK_PARTNER_UID, .LNK_RING_STAT, .LNK_STAT, .MEM_HOME_STAT, .MEM_STK_STAT, .PIN_GSTAT, .PIN_ICONF, .PIN_OCONF, .PIN_PLC_CTL, .PIN_PWM_HI, .PST_FW_STAT, .PST_LOCK, .PST_MB_REQ, .PWR_RGN_STAT, .PWR_STATE, .PWR_THERM_STAT, .SEAL_STORE_STAT, .SRT_CTL, .SRT_ERR, .SRT_STAT])) (signalled [.chans, .config, .crossings, .fires, .flying, .gates, .isos, .laneSkip, .laneTx, .lease, .links, .memo, .pins, .plcs, .ports, .power, .resets, .samplers, .seals, .sorters, .store, .svc, .timers, .trees, .waiting]) s t) ∧
    (∀ (s : State), ∃ t : State, exec .wakeNLow s = .next t ∧
      Within (Reg.all) (signalled [.arbiters, .axes, .beaconAt, .bms, .cells, .chans, .config, .crossings, .elements, .fires, .flying, .franker, .gates, .heaters, .images, .insRes, .insWords, .isos, .laneSkip, .laneTx, .lease, .links, .memo, .pins, .plcs, .ports, .power, .resets, .restoring, .rings, .samplers, .seals, .secure, .shadows, .sorters, .store, .strobeAt, .svc, .taken, .taps, .timers, .trees, .uclkUse, .waiting, .words]) s t) ∧
    (∀ (s : State), ∃ t : State, exec .wakeAlarm s = .next t ∧
      Within (Reg.all) (signalled [.arbiters, .axes, .beaconAt, .bms, .cells, .chans, .config, .crossings, .elements, .fires, .flying, .franker, .gates, .heaters, .images, .insRes, .insWords, .isos, .laneSkip, .laneTx, .lease, .links, .memo, .pins, .plcs, .ports, .power, .resets, .restoring, .rings, .samplers, .seals, .secure, .shadows, .sorters, .store, .strobeAt, .svc, .taken, .taps, .timers, .trees, .uclkUse, .waiting, .words]) s t) ∧
    (∀ (s : State), ∃ t : State, exec .wakeAxisDistance s = .next t ∧
      Within (Reg.all) (signalled [.arbiters, .axes, .beaconAt, .bms, .cells, .chans, .config, .crossings, .elements, .fires, .flying, .franker, .gates, .heaters, .images, .insRes, .insWords, .isos, .laneSkip, .laneTx, .lease, .links, .memo, .pins, .plcs, .ports, .power, .resets, .restoring, .rings, .samplers, .seals, .secure, .shadows, .sorters, .store, .strobeAt, .svc, .taken, .taps, .timers, .trees, .uclkUse, .waiting, .words]) s t) ∧
    (∀ (s : State), ∃ t : State, exec .wakePerst s = .next t ∧
      Within (Reg.all) (signalled [.arbiters, .axes, .beaconAt, .bms, .cells, .chans, .config, .crossings, .elements, .fires, .flying, .franker, .gates, .heaters, .images, .insRes, .insWords, .isos, .laneSkip, .laneTx, .lease, .links, .memo, .pins, .plcs, .ports, .power, .resets, .restoring, .rings, .samplers, .seals, .secure, .shadows, .sorters, .store, .strobeAt, .svc, .taken, .taps, .timers, .trees, .uclkUse, .waiting, .words]) s t) ∧
    (∀ (input : Fin 16) (code : BitVec 16) (broken : Bool) (s : State), ∃ t : State, exec (.ainConversion input code broken) s = .next t ∧
      Within (signals [.PWR_AIN, .PWR_AIN_FLT]) (signalled [.timers]) s t) ∧
    (∀ (input : Fin 16) (s : State), ∃ t : State, exec (.ainStale input) s = .next t ∧
      Within ([.PWR_AIN]) ([]) s t)

/-- O10. What the commands of stacked memory and cache agents leave as it was. Each of these commands answers a next state that differs from the state before it at most in the registers and the parts of the state that its clause lists: every other register field of the map and every other part (memories, queues, tables) is unchanged. The commands: AGENT_READ, AGENT_READ_OWN, AGENT_WRITE, AGENT_WRITE_NA, AGENT_READ_NA, AGENT_FLUSH, AGENT_STREAM, AGENT_FENCE, AGENT_RESERVED_OP, HOME_RD_SHARED, HOME_RD_OWN, HOME_RD_CUR, HOME_WR_PTL, HOME_WB_DIRTY, HOME_EVICT_CLEAN, HOME_RSP_I, HOME_RSP_S, HOME_RSP_DATA, HOME_RSP_WB_PENDING, HOME_CMP_ACK, AGENT_SNP_INV, AGENT_SNP_SHARE, AGENT_SNP_CUR, AGENT_DATA_S, AGENT_DATA_E, AGENT_CMP, AGENT_WB_ACK, PATROL_READ, STACK_TEMP_SAMPLE, STACK_RESYNC_REQUEST, STACK_RESYNC_DONE, STACK_FILL_DONE, MEM_STK_ECNT_READ, MEM_HOME_CNT_READ, GRANULE_SEAL, GRANULE_UNSEAL, CONVERSION_COMPLETE, SEAL_LINE_CNT_READ. -/
def Obligations.FrameOfMemory : Prop :=
  (∀ (a p : Fin 16) (header : WordToken) (s : State), ∃ t : State, exec (.agentRead a p header) s = .next t ∧
      Within (signals (counting [.CFG_AGT_STAT, .CFG_ISO_CNT, .LNK_CNT_LINK, .LNK_ERR, .PIN_GSTAT, .PIN_ICONF, .PIN_OCONF, .PIN_PLC_CTL, .SRT_CTL, .SRT_ERR, .SRT_STAT])) (signalled [.chans, .crossings, .fires, .flying, .laneSkip, .laneTx, .lease, .links, .memo, .pins, .plcs, .sorters, .trees]) s t) ∧
    (∀ (a p : Fin 16) (header : WordToken) (s : State), ∃ t : State, exec (.agentReadOwn a p header) s = .next t ∧
      Within (signals (counting [.CFG_AGT_STAT, .CFG_ISO_CNT, .LNK_CNT_LINK, .LNK_ERR, .PIN_GSTAT, .PIN_ICONF, .PIN_OCONF, .PIN_PLC_CTL, .SRT_CTL, .SRT_ERR, .SRT_STAT])) (signalled [.chans, .crossings, .fires, .flying, .laneSkip, .laneTx, .lease, .links, .memo, .pins, .plcs, .sorters, .trees]) s t) ∧
    (∀ (a p : Fin 16) (header : WordToken) (low high : HalfLine) (s : State), ∃ t : State, exec (.agentWrite a p header low high) s = .next t ∧
      Within (signals (counting [.CFG_AGT_STAT, .CFG_ISO_CNT, .LNK_CNT_LINK, .LNK_ERR, .PIN_GSTAT, .PIN_ICONF, .PIN_OCONF, .PIN_PLC_CTL, .SRT_CTL, .SRT_ERR, .SRT_STAT])) (signalled [.chans, .crossings, .fires, .flying, .laneSkip, .laneTx, .lease, .links, .memo, .pins, .plcs, .sorters, .trees]) s t) ∧
    (∀ (a p : Fin 16) (header : WordToken) (low high : HalfLine) (s : State), ∃ t : State, exec (.agentWriteNa a p header low high) s = .next t ∧
      Within (signals (counting [.CFG_AGT_STAT, .CFG_ISO_CNT, .LNK_CNT_LINK, .LNK_ERR, .PIN_GSTAT, .PIN_ICONF, .PIN_OCONF, .PIN_PLC_CTL, .SRT_CTL, .SRT_ERR, .SRT_STAT])) (signalled [.chans, .crossings, .fires, .flying, .laneSkip, .laneTx, .lease, .links, .memo, .pins, .plcs, .sorters, .trees]) s t) ∧
    (∀ (a p : Fin 16) (header : WordToken) (s : State), ∃ t : State, exec (.agentReadNa a p header) s = .next t ∧
      Within (signals (counting [.CFG_AGT_STAT, .CFG_ISO_CNT, .LNK_CNT_LINK, .LNK_ERR, .PIN_GSTAT, .PIN_ICONF, .PIN_OCONF, .PIN_PLC_CTL, .SRT_CTL, .SRT_ERR, .SRT_STAT])) (signalled [.chans, .crossings, .fires, .flying, .laneSkip, .laneTx, .lease, .links, .memo, .pins, .plcs, .sorters, .trees]) s t) ∧
    (∀ (a p : Fin 16) (header : WordToken) (s : State), ∃ t : State, exec (.agentFlush a p header) s = .next t ∧
      Within (signals (counting [.CFG_AGT_STAT, .CFG_ISO_CNT, .LNK_CNT_LINK, .LNK_ERR, .PIN_GSTAT, .PIN_ICONF, .PIN_OCONF, .PIN_PLC_CTL, .SRT_CTL, .SRT_ERR, .SRT_STAT])) (signalled [.chans, .crossings, .fires, .flying, .laneSkip, .laneTx, .lease, .links, .memo, .pins, .plcs, .sorters, .trees]) s t) ∧
    (∀ (a p : Fin 16) (header : WordToken) (low high : HalfLine) (s : State), ∃ t : State, exec (.agentStream a p header low high) s = .next t ∧
      Within (signals (counting [.CFG_AGT_STAT, .CFG_ISO_CNT, .LNK_CNT_LINK, .LNK_ERR, .PIN_GSTAT, .PIN_ICONF, .PIN_OCONF, .PIN_PLC_CTL, .SRT_CTL, .SRT_ERR, .SRT_STAT])) (signalled [.chans, .crossings, .fires, .flying, .laneSkip, .laneTx, .lease, .links, .memo, .pins, .plcs, .sorters, .trees]) s t) ∧
    (∀ (a p : Fin 16) (header : WordToken) (s : State), ∃ t : State, exec (.agentFence a p header) s = .next t ∧
      Within (signals (counting [.CFG_AGT_STAT, .CFG_ISO_CNT, .LNK_CNT_LINK, .LNK_ERR, .PIN_GSTAT, .PIN_ICONF, .PIN_OCONF, .PIN_PLC_CTL, .SRT_CTL, .SRT_ERR, .SRT_STAT])) (signalled [.chans, .crossings, .fires, .flying, .laneSkip, .laneTx, .lease, .links, .memo, .pins, .plcs, .sorters, .trees]) s t) ∧
    (∀ (a p : Fin 16) (header : WordToken) (s : State), ∃ t : State, exec (.agentReservedOp a p header) s = .next t ∧
      Within (signals (counting [.CFG_AGT_STAT, .CFG_ISO_CNT, .LNK_CNT_LINK, .LNK_ERR, .PIN_GSTAT, .PIN_ICONF, .PIN_OCONF, .PIN_PLC_CTL, .SRT_CTL, .SRT_ERR, .SRT_STAT])) (signalled [.chans, .crossings, .fires, .flying, .laneSkip, .laneTx, .lease, .links, .memo, .pins, .plcs, .sorters, .trees]) s t) ∧
    (∀ (l : BitVec 32) (r : HomeReq) (same : List HomeReq) (s : State), ∃ t : State, exec (.homeRdShared l r same) s = .next t ∧
      Within (signals (counting [.CFG_AGT_STAT, .LANE_ETH_RXWR, .MEM_HOME_CNT, .MEM_HOME_STAT, .MEM_STK_ECNT, .MEM_STK_ERR, .MEM_STK_ERRADDR, .SEAL_LINE_CNT, .SEAL_LINE_ERR, .SEAL_LINE_ERRADDR])) (signalled [.crossings, .memo, .seals]) s t) ∧
    (∀ (l : BitVec 32) (r : HomeReq) (same : List HomeReq) (s : State), ∃ t : State, exec (.homeRdOwn l r same) s = .next t ∧
      Within (signals (counting [.CFG_AGT_STAT, .LANE_ETH_RXWR, .MEM_HOME_CNT, .MEM_HOME_STAT, .MEM_STK_ECNT, .MEM_STK_ERR, .MEM_STK_ERRADDR, .SEAL_LINE_CNT, .SEAL_LINE_ERR, .SEAL_LINE_ERRADDR])) (signalled [.crossings, .memo, .seals]) s t) ∧
    (∀ (l : BitVec 32) (r : HomeReq) (same : List HomeReq) (s : State), ∃ t : State, exec (.homeRdCur l r same) s = .next t ∧
      Within (signals (counting [.CFG_AGT_STAT, .LANE_ETH_RXWR, .MEM_HOME_CNT, .MEM_HOME_STAT, .MEM_STK_ECNT, .MEM_STK_ERR, .MEM_STK_ERRADDR, .SEAL_LINE_CNT, .SEAL_LINE_ERR, .SEAL_LINE_ERRADDR])) (signalled [.crossings, .memo, .seals]) s t) ∧
    (∀ (l : BitVec 32) (r : HomeReq) (same : List HomeReq) (s : State), ∃ t : State, exec (.homeWrPtl l r same) s = .next t ∧
      Within (signals (counting [.CFG_AGT_STAT, .LANE_ETH_RXWR, .MEM_HOME_CNT, .MEM_HOME_STAT, .MEM_STK_ECNT, .MEM_STK_ERR, .MEM_STK_ERRADDR, .SEAL_LINE_CNT, .SEAL_LINE_ERR, .SEAL_LINE_ERRADDR])) (signalled [.crossings, .memo, .seals]) s t) ∧
    (∀ (l : BitVec 32) (who : Fin 20) (data : BitVec 512) (same : List HomeReq) (s : State), ∃ t : State, exec (.homeWbDirty l who data same) s = .next t ∧
      Within (signals (counting [.CFG_AGT_STAT, .LANE_ETH_RXWR, .MEM_HOME_CNT, .MEM_HOME_STAT, .MEM_STK_ECNT, .MEM_STK_ERR, .MEM_STK_ERRADDR, .SEAL_LINE_CNT, .SEAL_LINE_ERR, .SEAL_LINE_ERRADDR])) (signalled [.crossings, .memo, .seals]) s t) ∧
    (∀ (l : BitVec 32) (who : Fin 20) (s : State), ∃ t : State, exec (.homeEvictClean l who) s = .next t ∧
      Within (signals (counting [.CFG_AGT_STAT, .LANE_ETH_RXWR, .MEM_HOME_CNT, .MEM_HOME_STAT, .MEM_STK_ECNT, .MEM_STK_ERR, .MEM_STK_ERRADDR, .SEAL_LINE_CNT, .SEAL_LINE_ERR, .SEAL_LINE_ERRADDR])) (signalled [.crossings, .memo, .seals]) s t) ∧
    (∀ (l : BitVec 32) (who : Fin 20) (s : State), ∃ t : State, exec (.homeRspI l who) s = .next t ∧
      Within (signals (counting [.CFG_AGT_STAT, .LANE_ETH_RXWR, .MEM_HOME_CNT, .MEM_HOME_STAT, .MEM_STK_ECNT, .MEM_STK_ERR, .MEM_STK_ERRADDR, .SEAL_LINE_CNT, .SEAL_LINE_ERR, .SEAL_LINE_ERRADDR])) (signalled [.crossings, .memo, .seals]) s t) ∧
    (∀ (l : BitVec 32) (who : Fin 20) (s : State), ∃ t : State, exec (.homeRspS l who) s = .next t ∧
      Within (signals (counting [.CFG_AGT_STAT, .LANE_ETH_RXWR, .MEM_HOME_CNT, .MEM_HOME_STAT, .MEM_STK_ECNT, .MEM_STK_ERR, .MEM_STK_ERRADDR, .SEAL_LINE_CNT, .SEAL_LINE_ERR, .SEAL_LINE_ERRADDR])) (signalled [.crossings, .memo, .seals]) s t) ∧
    (∀ (l : BitVec 32) (who : Fin 20) (s : State), ∃ t : State, exec (.homeRspData l who) s = .next t ∧
      Within (signals (counting [.CFG_AGT_STAT, .LANE_ETH_RXWR, .MEM_HOME_CNT, .MEM_HOME_STAT, .MEM_STK_ECNT, .MEM_STK_ERR, .MEM_STK_ERRADDR, .SEAL_LINE_CNT, .SEAL_LINE_ERR, .SEAL_LINE_ERRADDR])) (signalled [.crossings, .memo, .seals]) s t) ∧
    (∀ (l : BitVec 32) (who : Fin 20) (s : State), ∃ t : State, exec (.homeRspWbPending l who) s = .next t ∧
      Within (signals (counting [.CFG_AGT_STAT, .LANE_ETH_RXWR, .MEM_HOME_CNT, .MEM_HOME_STAT, .MEM_STK_ECNT, .MEM_STK_ERR, .MEM_STK_ERRADDR, .SEAL_LINE_CNT, .SEAL_LINE_ERR, .SEAL_LINE_ERRADDR])) (signalled [.crossings, .memo, .seals]) s t) ∧
    (∀ (l : BitVec 32) (who : Fin 20) (s : State), ∃ t : State, exec (.homeCmpAck l who) s = .next t ∧
      Within (signals (counting [.CFG_AGT_STAT, .LANE_ETH_RXWR, .MEM_HOME_CNT, .MEM_HOME_STAT, .MEM_STK_ECNT, .MEM_STK_ERR, .MEM_STK_ERRADDR, .SEAL_LINE_CNT, .SEAL_LINE_ERR, .SEAL_LINE_ERRADDR])) (signalled [.crossings, .memo, .seals]) s t) ∧
    (∀ (l : BitVec 32) (a : Fin 20) (wrote : Option (BitVec 512)) (s : State), ∃ t : State, exec (.agentSnpInv l a wrote) s = .next t ∧
      Within ([.CFG_AGT_STAT]) ([.crossings, .memo]) s t) ∧
    (∀ (l : BitVec 32) (a : Fin 20) (wrote : Option (BitVec 512)) (s : State), ∃ t : State, exec (.agentSnpShare l a wrote) s = .next t ∧
      Within ([.CFG_AGT_STAT]) ([.crossings, .memo]) s t) ∧
    (∀ (l : BitVec 32) (a : Fin 20) (wrote : Option (BitVec 512)) (s : State), ∃ t : State, exec (.agentSnpCur l a wrote) s = .next t ∧
      Within ([.CFG_AGT_STAT]) ([.crossings, .memo]) s t) ∧
    (∀ (l : BitVec 32) (a : Fin 20) (victim : Option (BitVec 32)) (s : State), ∃ t : State, exec (.agentDataS l a victim) s = .next t ∧
      Within (signals (counting [.CFG_AGT_STAT, .CFG_ISO_CNT, .LNK_CNT_LINK, .LNK_ERR, .PIN_GSTAT, .PIN_ICONF, .PIN_OCONF, .PIN_PLC_CTL, .SRT_CTL, .SRT_ERR, .SRT_STAT])) (signalled [.chans, .crossings, .fires, .flying, .laneSkip, .laneTx, .lease, .links, .memo, .pins, .plcs, .sorters, .trees]) s t) ∧
    (∀ (l : BitVec 32) (a : Fin 20) (victim : Option (BitVec 32)) (s : State), ∃ t : State, exec (.agentDataE l a victim) s = .next t ∧
      Within (signals (counting [.CFG_AGT_STAT, .CFG_ISO_CNT, .LNK_CNT_LINK, .LNK_ERR, .PIN_GSTAT, .PIN_ICONF, .PIN_OCONF, .PIN_PLC_CTL, .SRT_CTL, .SRT_ERR, .SRT_STAT])) (signalled [.chans, .crossings, .fires, .flying, .laneSkip, .laneTx, .lease, .links, .memo, .pins, .plcs, .sorters, .trees]) s t) ∧
    (∀ (l : BitVec 32) (who : Fin 39) (s : State), ∃ t : State, exec (.agentCmp l who) s = .next t ∧
      Within (signals (counting [.CFG_AGT_STAT, .CFG_ISO_CNT, .LNK_CNT_LINK, .LNK_ERR, .PIN_GSTAT, .PIN_ICONF, .PIN_OCONF, .PIN_PLC_CTL, .SRT_CTL, .SRT_ERR, .SRT_STAT])) (signalled [.chans, .crossings, .fires, .flying, .laneSkip, .laneTx, .lease, .links, .memo, .pins, .plcs, .sorters, .trees]) s t) ∧
    (∀ (l : BitVec 32) (a : Fin 20) (s : State), ∃ t : State, exec (.agentWbAck l a) s = .next t ∧
      Within (signals (counting [.CFG_AGT_STAT, .CFG_ISO_CNT, .LNK_CNT_LINK, .LNK_ERR, .PIN_GSTAT, .PIN_ICONF, .PIN_OCONF, .PIN_PLC_CTL, .SRT_CTL, .SRT_ERR, .SRT_STAT])) (signalled [.chans, .crossings, .fires, .flying, .laneSkip, .laneTx, .lease, .links, .memo, .pins, .plcs, .sorters, .trees]) s t) ∧
    (∀ (l : BitVec 32) (ecc : Ecc) (s : State), ∃ t : State, exec (.patrolRead l ecc) s = .next t ∧
      Within (signals (counting [.MEM_STK_ECNT, .MEM_STK_ERR, .MEM_STK_ERRADDR, .SEAL_LINE_CNT, .SEAL_LINE_ERR, .SEAL_LINE_ERRADDR])) (signalled [.seals]) s t) ∧
    (∀ (k : Fin 4) (temp : BitVec 8) (s : State), ∃ t : State, exec (.stackTempSample k temp) s = .next t ∧
      Within (signals [.MEM_STK_ERR, .MEM_STK_STAT]) (signalled []) s t) ∧
    (∀ (k : Fin 4) (a : Fin 20) (s : State), ∃ t : State, exec (.stackResyncRequest k a) s = .next t ∧
      Within ([.CFG_AGT_STAT]) ([.crossings, .memo]) s t) ∧
    (∀ (k : Fin 4) (s : State), ∃ t : State, exec (.stackResyncDone k) s = .next t ∧
      Within (signals (counting [.CFG_AGT_STAT, .LANE_ETH_RXWR, .MEM_HOME_CNT, .MEM_HOME_STAT, .MEM_STK_ECNT, .MEM_STK_ERR, .MEM_STK_ERRADDR, .MEM_STK_STAT, .SEAL_LINE_CNT, .SEAL_LINE_ERR, .SEAL_LINE_ERRADDR])) (signalled [.crossings, .memo, .seals]) s t) ∧
    (∀ (k : Fin 4) (s : State), ∃ t : State, exec (.stackFillDone k) s = .next t ∧
      Within (signals (counting [.CFG_AGT_STAT, .LANE_ETH_RXWR, .MEM_HOME_CNT, .MEM_HOME_STAT, .MEM_STK_ECNT, .MEM_STK_ERR, .MEM_STK_ERRADDR, .MEM_STK_STAT, .SEAL_LINE_CNT, .SEAL_LINE_ERR, .SEAL_LINE_ERRADDR])) (signalled [.crossings, .memo, .resets, .seals]) s t) ∧
    (∀ (port : Port) (k : Fin 4) (s : State), ∃ t : State, exec (.memStkEcntRead port k) s = .next t ∧
      Within (signals (errors [.MEM_STK_ECNT])) (signalled [.crossings, .waiting]) s t) ∧
    (∀ (port : Port) (k : Fin 4) (s : State), ∃ t : State, exec (.memHomeCntRead port k) s = .next t ∧
      Within (signals (errors [.MEM_HOME_CNT])) (signalled [.crossings, .waiting]) s t) ∧
    (∀ (port : Port) (g : BitVec 8) (s : State), ∃ t : State, exec (.granuleSeal port g) s = .next t ∧
      Within (signals (counting (errors [.MEM_HOME_CNT, .SEAL_GRAN, .SEAL_GRAN_RES, .SEAL_LINE_STAT]))) (signalled [.crossings, .memo, .seals, .waiting]) s t) ∧
    (∀ (port : Port) (g : BitVec 8) (s : State), ∃ t : State, exec (.granuleUnseal port g) s = .next t ∧
      Within (signals (counting (errors [.MEM_HOME_CNT, .SEAL_GRAN, .SEAL_GRAN_RES, .SEAL_LINE_STAT]))) (signalled [.crossings, .memo, .seals, .waiting]) s t) ∧
    (∀ (s : State), ∃ t : State, exec .conversionComplete s = .next t ∧
      Within (signals (counting [.CFG_AGT_STAT, .LANE_ETH_RXWR, .MEM_HOME_CNT, .MEM_HOME_STAT, .MEM_STK_ECNT, .MEM_STK_ERR, .MEM_STK_ERRADDR, .SEAL_GRAN, .SEAL_GRAN_RES, .SEAL_LINE_CNT, .SEAL_LINE_ERR, .SEAL_LINE_ERRADDR, .SEAL_LINE_STAT])) (signalled [.crossings, .memo, .seals, .svc]) s t) ∧
    (∀ (port : Port) (k : Fin 4) (s : State), ∃ t : State, exec (.sealLineCntRead port k) s = .next t ∧
      Within (signals (errors [.SEAL_LINE_CNT])) (signalled [.crossings, .waiting]) s t)

/-- O11. What the commands of position leave as it was. Each of these commands answers a next state that differs from the state before it at most in the registers and the parts of the state that its clause lists: every other register field of the map and every other part (memories, queues, tables) is unchanged. The commands: ENCODER_EDGE, OPEN_FAULT, FAULT_CLEAR, DEAD_RECKONING_END, VELOCITY_TIMEOUT, POSITION_WRAP, Z_EDGE, Z_OPEN, BEACON_RECEIVED, BEACON_TIMEOUT, STROBE_CROSSING, POS_AX_START, POS_AX_STOP, POS_AX_RECOVER, AXIS_CTL_WRITE, VSPEED_WRITE, POS_SNAP, AXIS_POS_READ, POS_AX_ERRCNT_READ, POS_STRB_STAT_READ. -/
def Obligations.FrameOfPosition : Prop :=
  (∀ (input : Fin 8) (pairA level : Bool) (time heldNs : Nat) (s : State), ∃ t : State, exec (.encoderEdge input pairA level time heldNs) s = .next t ∧
      Within (signals (counting [.DEV_FRK_STAT, .LNK_RING_STAT, .LNK_RING_STOPSRC, .PIN_GSTAT, .PIN_ICONF, .PIN_OCONF, .PIN_PLC_CTL, .POS_AX_EPOCH, .POS_AX_ERRCNT, .POS_AX_FLT, .POS_AX_HWM, .POS_AX_JUMP, .POS_AX_LOSTCNT, .POS_AX_POS, .POS_AX_STAT, .POS_AX_VEL, .SRT_CTL, .SRT_STAT])) (signalled [.axes, .chans, .encLevel, .flying, .links, .pins, .plcs, .rings, .sorters, .trees]) s t) ∧
    (∀ (input : Fin 8) (pairA : Bool) (s : State), ∃ t : State, exec (.openFault input pairA) s = .next t ∧
      Within (signals (counting [.DEV_FRK_STAT, .LNK_RING_STAT, .LNK_RING_STOPSRC, .PIN_GSTAT, .PIN_ICONF, .PIN_OCONF, .PIN_PLC_CTL, .POS_AX_FLT, .POS_AX_LOSTCNT, .POS_AX_STAT, .POS_ENC_STAT, .SRT_CTL, .SRT_STAT])) (signalled [.axes, .chans, .encOpen, .flying, .links, .pins, .plcs, .rings, .sorters, .trees]) s t) ∧
    (∀ (what : FaultEnd) (s : State), ∃ t : State, exec (.faultClear what) s = .next t ∧
      Within (signals (counting [.PIN_GSTAT, .PIN_ICONF, .PIN_OCONF, .PIN_PLC_CTL, .POS_AX_EPOCH, .POS_AX_FLT, .POS_AX_HWM, .POS_AX_JUMP, .POS_AX_POS, .POS_AX_STAT, .POS_ENC_STAT, .SRT_CTL, .SRT_STAT])) (signalled [.axes, .chans, .encOpen, .flying, .links, .pins, .plcs, .sorters, .trees]) s t) ∧
    (∀ (axis : Fin 8) (s : State), ∃ t : State, exec (.deadReckoningEnd axis) s = .next t ∧
      Within (signals (counting [.DEV_FRK_STAT, .LNK_RING_STAT, .LNK_RING_STOPSRC, .PIN_GSTAT, .PIN_ICONF, .PIN_OCONF, .PIN_PLC_CTL, .POS_AX_EPOCH, .POS_AX_FLT, .POS_AX_HWM, .POS_AX_LOSTCNT, .POS_AX_POS, .POS_AX_STAT, .SRT_CTL, .SRT_STAT])) (signalled [.axes, .chans, .flying, .links, .pins, .plcs, .rings, .sorters, .trees]) s t) ∧
    (∀ (axis : Fin 8) (s : State), ∃ t : State, exec (.velocityTimeout axis) s = .next t ∧
      Within ([.POS_AX_VEL]) ([.axes]) s t) ∧
    (∀ (axis : Fin 8) (forward : Bool) (s : State), ∃ t : State, exec (.positionWrap axis forward) s = .next t ∧
      Within (signals (counting [.DEV_FRK_STAT, .LNK_RING_STAT, .LNK_RING_STOPSRC, .PIN_GSTAT, .PIN_ICONF, .PIN_OCONF, .PIN_PLC_CTL, .POS_AX_EPOCH, .POS_AX_ERRCNT, .POS_AX_FLT, .POS_AX_HWM, .POS_AX_JUMP, .POS_AX_LOSTCNT, .POS_AX_POS, .POS_AX_STAT, .POS_AX_VEL, .SRT_CTL, .SRT_STAT])) (signalled [.axes, .chans, .encLevel, .flying, .links, .pins, .plcs, .rings, .sorters, .trees]) s t) ∧
    (∀ (input : Fin 8) (edge : ZEdge) (s : State), ∃ t : State, exec (.zEdge input edge) s = .next t ∧
      Within (signals [.POS_AX_ERRCNT, .POS_AX_FLT, .POS_AX_ZCAP]) (signalled [.axes]) s t) ∧
    (∀ (input : Fin 8) (s : State), ∃ t : State, exec (.zOpen input) s = .next t ∧
      Within (signals [.POS_AX_FLT, .POS_ENC_STAT]) (signalled [.axes, .encOpen]) s t) ∧
    (∀ (link : Fin 144) (baxis : Fin 8) (pos : BitVec 61) (vel : BitVec 32) (lost : Bool) (s : State), ∃ t : State, exec (.beaconReceived link baxis pos vel lost) s = .next t ∧
      Within (signals (counting [.DEV_FRK_STAT, .LNK_RING_STAT, .LNK_RING_STOPSRC, .PIN_GSTAT, .PIN_ICONF, .PIN_OCONF, .PIN_PLC_CTL, .POS_AX_EPOCH, .POS_AX_FLT, .POS_AX_HWM, .POS_AX_JUMP, .POS_AX_LOSTCNT, .POS_AX_POS, .POS_AX_STAT, .POS_AX_VEL, .SRT_CTL, .SRT_STAT])) (signalled [.axes, .beaconAt, .chans, .flying, .links, .pins, .plcs, .rings, .sorters, .trees]) s t) ∧
    (∀ (axis : Fin 8) (s : State), ∃ t : State, exec (.beaconTimeout axis) s = .next t ∧
      Within (signals (counting [.DEV_FRK_STAT, .LNK_RING_STAT, .LNK_RING_STOPSRC, .PIN_GSTAT, .PIN_ICONF, .PIN_OCONF, .PIN_PLC_CTL, .POS_AX_FLT, .POS_AX_LOSTCNT, .POS_AX_STAT, .SRT_CTL, .SRT_STAT])) (signalled [.axes, .chans, .flying, .links, .pins, .plcs, .rings, .sorters, .trees]) s t) ∧
    (∀ (strobe : Fin 2) (forward : Bool) (time : Nat) (s : State), ∃ t : State, exec (.strobeCrossing strobe forward time) s = .next t ∧
      Within (signals [.POS_STRB_STAT]) (signalled [.flying, .strobeAt, .strobeT]) s t) ∧
    (∀ (port : Port) (axis : Fin 8) (s : State), ∃ t : State, exec (.posAxStart port axis) s = .next t ∧
      Within (signals (counting (errors [.DEV_FRK_STAT, .LNK_RING_STAT, .LNK_RING_STOPSRC, .PIN_GSTAT, .PIN_ICONF, .PIN_OCONF, .PIN_PLC_CTL, .POS_AX_EPOCH, .POS_AX_FLT, .POS_AX_HWM, .POS_AX_LOSTCNT, .POS_AX_POS, .POS_AX_STAT, .POS_AX_VEL, .SRT_CTL, .SRT_STAT]))) (signalled [.axes, .chans, .crossings, .flying, .links, .pins, .plcs, .rings, .sorters, .strobeAt, .trees, .waiting]) s t) ∧
    (∀ (port : Port) (axis : Fin 8) (s : State), ∃ t : State, exec (.posAxStop port axis) s = .next t ∧
      Within (signals (counting (errors [.DEV_FRK_STAT, .LNK_RING_STAT, .LNK_RING_STOPSRC, .PIN_GSTAT, .PIN_ICONF, .PIN_OCONF, .PIN_PLC_CTL, .POS_AX_EPOCH, .POS_AX_FLT, .POS_AX_HWM, .POS_AX_LOSTCNT, .POS_AX_POS, .POS_AX_STAT, .POS_AX_VEL, .SRT_CTL, .SRT_STAT]))) (signalled [.axes, .chans, .crossings, .flying, .links, .pins, .plcs, .rings, .sorters, .strobeAt, .trees, .waiting]) s t) ∧
    (∀ (port : Port) (axis : Fin 8) (s : State), ∃ t : State, exec (.posAxRecover port axis) s = .next t ∧
      Within (signals (counting (errors [.DEV_FRK_STAT, .LNK_RING_STAT, .LNK_RING_STOPSRC, .PIN_GSTAT, .PIN_ICONF, .PIN_OCONF, .PIN_PLC_CTL, .POS_AX_EPOCH, .POS_AX_FLT, .POS_AX_HWM, .POS_AX_LOSTCNT, .POS_AX_POS, .POS_AX_STAT, .POS_AX_VEL, .SRT_CTL, .SRT_STAT]))) (signalled [.axes, .chans, .crossings, .flying, .links, .pins, .plcs, .rings, .sorters, .strobeAt, .trees, .waiting]) s t) ∧
    (∀ (port : Port) (axis : Fin 8) (value : Word) (s : State), ∃ t : State, exec (.axisCtlWrite port axis value) s = .next t ∧
      Within (signals (errors [.POS_AX_CTL, .POS_AX_STAT])) (signalled [.crossings, .waiting]) s t) ∧
    (∀ (port : Port) (axis : Fin 8) (value : Word) (s : State), ∃ t : State, exec (.vspeedWrite port axis value) s = .next t ∧
      Within (signals (errors [.POS_AX_VSPEED])) (signalled [.crossings, .waiting]) s t) ∧
    (∀ (port : Port) (s : State), ∃ t : State, exec (.posSnap port) s = .next t ∧
      Within (signals (errors [.POS_AX_SNAP, .POS_AX_SNAP_EPOCH, .POS_SNAP_TB])) (signalled [.crossings, .waiting]) s t) ∧
    (∀ (port : Port) (axis : Fin 8) (s : State), ∃ t : State, exec (.axisPosRead port axis) s = .next t ∧
      Within (signals (errors [])) (signalled [.crossings, .shadows, .waiting]) s t) ∧
    (∀ (port : Port) (axis : Fin 8) (s : State), ∃ t : State, exec (.posAxErrcntRead port axis) s = .next t ∧
      Within (signals (errors [.POS_AX_ERRCNT])) (signalled [.crossings, .waiting]) s t) ∧
    (∀ (port : Port) (strobe : Fin 2) (s : State), ∃ t : State, exec (.posStrbStatRead port strobe) s = .next t ∧
      Within (signals (errors [.POS_STRB_STAT])) (signalled [.crossings, .waiting]) s t)

/-- O12. What the commands of sorters and timed pins leave as it was. Each of these commands answers a next state that differs from the state before it at most in the registers and the parts of the state that its clause lists: every other register field of the map and every other part (memories, queues, tables) is unchanged. The commands: SORTER_INSERT, FABRIC_SORTER_INSERT, SORTER_RANGE_DROP, SORTER_ENTRY_DUE, SORTER_RELEASE, GATE_SPACE_OPENS, SORTER_POP, SORTER_PEEK, SORTER_FLUSH, SORTER_CTL_WRITE, SRT_ERR_READ, PLACEMENT_HANDOVER, PLACEMENT_COMMIT, EDGE_PLACED, PULSE_RETURN_EDGE, PLACEMENT_CELL_ENABLE, PLACEMENT_CELL_DISABLE, PIN_PLC_CNT_READ, INTRINSIC_DELAY_MEASURE, PIN_CAL_LOAD, PIN_CAL_PIN_DONE, GPIO_WRITE, GPIO_MASKED_WRITE, BANK_RANGE_WRITE, BANK_RANGE_SWITCH, BANK_RANGE_MISMATCH, PIN_LOCK_ARM, PIN_LOCK_SET, BANK_SUPPLY_RISE, PWM_PERIOD_START, PIN_INPUT_CHANGE. -/
def Obligations.FrameOfSortersPins : Prop :=
  (∀ (port : Port) (n : Fin 64) (value : Word) (s : State), ∃ t : State, exec (.sorterInsert port n value) s = .next t ∧
      Within (signals (counting (errors [.PIN_GSTAT, .PIN_ICONF, .PIN_OCONF, .PIN_PLC_CTL, .SRT_CTL, .SRT_ERR, .SRT_STAT]))) (signalled [.chans, .crossings, .flying, .insRes, .lease, .links, .pins, .plcs, .sorters, .trees, .waiting]) s t) ∧
    (∀ (n : Fin 64) (entries : List (BitVec 128)) (s : State), ∃ t : State, exec (.fabricSorterInsert n entries) s = .next t ∧
      Within (signals (counting [.CFG_AGT_STAT, .CFG_ISO_CNT, .PIN_GSTAT, .PIN_ICONF, .PIN_OCONF, .PIN_PLC_CTL, .SRT_CTL, .SRT_ERR, .SRT_STAT])) (signalled [.chans, .flying, .lease, .links, .memo, .pins, .plcs, .sorters, .trees]) s t) ∧
    (∀ (n : Fin 64) (s : State), ∃ t : State, exec (.sorterRangeDrop n) s = .next t ∧
      Within (signals (counting [.CFG_AGT_STAT, .CFG_ISO_CNT, .PIN_GSTAT, .PIN_ICONF, .PIN_OCONF, .PIN_PLC_CTL, .SRT_CTL, .SRT_ERR, .SRT_STAT])) (signalled [.chans, .flying, .lease, .links, .memo, .pins, .plcs, .sorters, .trees]) s t) ∧
    (∀ (n : Fin 64) (postmark : BitVec 64) (s : State), ∃ t : State, exec (.sorterEntryDue n postmark) s = .next t ∧
      Within ([]) ([.sorters]) s t) ∧
    (∀ (n : Fin 64) (after : Nat) (s : State), ∃ t : State, exec (.sorterRelease n after) s = .next t ∧
      Within (signals (counting [.CFG_AGT_STAT, .CFG_ISO_CNT, .PIN_GSTAT, .PIN_ICONF, .PIN_OCONF, .PIN_PLC_CTL, .PIN_PLC_STAT, .SRT_CTL, .SRT_ERR, .SRT_STAT])) (signalled [.chans, .flying, .gates, .lease, .links, .memo, .pins, .plcs, .sorters, .trees]) s t) ∧
    (∀ (region : Fin 40) (gate : Fin 2) (s : State), ∃ t : State, exec (.gateSpaceOpens region gate) s = .next t ∧
      Within (signals (counting [.CFG_AGT_STAT, .CFG_ISO_CNT, .PIN_GSTAT, .PIN_ICONF, .PIN_OCONF, .PIN_PLC_CTL, .SRT_CTL, .SRT_ERR, .SRT_STAT])) (signalled [.chans, .flying, .gates, .lease, .links, .memo, .pins, .plcs, .sorters, .trees]) s t) ∧
    (∀ (port : Port) (n : Fin 64) (s : State), ∃ t : State, exec (.sorterPop port n) s = .next t ∧
      Within (signals (counting (errors [.CFG_AGT_STAT, .CFG_ISO_CNT, .PIN_GSTAT, .PIN_ICONF, .PIN_OCONF, .PIN_PLC_CTL, .SRT_CTL, .SRT_ERR, .SRT_STAT]))) (signalled [.chans, .crossings, .flying, .lease, .links, .memo, .pins, .plcs, .shadows, .sorters, .trees, .waiting]) s t) ∧
    (∀ (port : Port) (n : Fin 64) (s : State), ∃ t : State, exec (.sorterPeek port n) s = .next t ∧
      Within (signals (counting (errors [.CFG_AGT_STAT, .CFG_ISO_CNT, .PIN_GSTAT, .PIN_ICONF, .PIN_OCONF, .PIN_PLC_CTL, .SRT_CTL, .SRT_ERR, .SRT_STAT]))) (signalled [.chans, .crossings, .flying, .lease, .links, .memo, .pins, .plcs, .shadows, .sorters, .trees, .waiting]) s t) ∧
    (∀ (port : Port) (n : Fin 64) (s : State), ∃ t : State, exec (.sorterFlush port n) s = .next t ∧
      Within (signals (counting (errors [.CFG_AGT_STAT, .CFG_ISO_CNT, .PIN_GSTAT, .PIN_ICONF, .PIN_OCONF, .PIN_PLC_CTL, .SRT_CTL, .SRT_ERR, .SRT_FLUSH_CNT, .SRT_STAT]))) (signalled [.chans, .crossings, .flying, .lease, .links, .memo, .pins, .plcs, .sorters, .trees, .waiting]) s t) ∧
    (∀ (port : Port) (n : Fin 64) (value : Word) (s : State), ∃ t : State, exec (.sorterCtlWrite port n value) s = .next t ∧
      Within (signals (errors [.PIN_GSTAT, .PIN_ICONF, .PIN_OCONF, .SRT_CTL, .SRT_STAT])) (signalled [.crossings, .flying, .pins, .trees, .waiting]) s t) ∧
    (∀ (port : Port) (n : Fin 64) (s : State), ∃ t : State, exec (.srtErrRead port n) s = .next t ∧
      Within (signals (errors [.SRT_ERR])) (signalled [.crossings, .waiting]) s t) ∧
    (∀ (n : Fin 64) (s : State), ∃ t : State, exec (.placementHandover n) s = .next t ∧
      Within (signals (counting [.CFG_AGT_STAT, .CFG_ISO_CNT, .PIN_GSTAT, .PIN_ICONF, .PIN_OCONF, .PIN_PLC_CTL, .PIN_PLC_STAT, .SRT_CTL, .SRT_ERR, .SRT_STAT])) (signalled [.chans, .flying, .lease, .links, .memo, .pins, .plcs, .sorters, .trees]) s t) ∧
    (∀ (n : Fin 64) (moment : Nat) (s : State), ∃ t : State, exec (.placementCommit n moment) s = .next t ∧
      Within (signals []) (signalled [.chans, .lease, .pins, .plcs]) s t) ∧
    (∀ (cell : Fin 192) (s : State), ∃ t : State, exec (.edgePlaced cell) s = .next t ∧
      Within (signals (counting [.PIN_GSTAT, .PIN_ICONF, .PIN_OCONF, .PIN_PLC_CNT, .PIN_PLC_CTL, .PIN_PLC_STAT, .SRT_CTL, .SRT_ERR, .SRT_STAT])) (signalled [.chans, .flying, .lease, .links, .pins, .plcs, .sorters, .trees]) s t) ∧
    (∀ (cell : Fin 192) (s : State), ∃ t : State, exec (.pulseReturnEdge cell) s = .next t ∧
      Within (signals (counting [.PIN_GSTAT, .PIN_ICONF, .PIN_OCONF, .PIN_PLC_CNT, .PIN_PLC_CTL, .PIN_PLC_STAT, .SRT_CTL, .SRT_ERR, .SRT_STAT])) (signalled [.chans, .flying, .lease, .links, .pins, .plcs, .sorters, .trees]) s t) ∧
    (∀ (port : Port) (cell : Fin 192) (s : State), ∃ t : State, exec (.placementCellEnable port cell) s = .next t ∧
      Within (signals (errors [.PIN_GSTAT, .PIN_ICONF, .PIN_OCONF, .PIN_PLC_CTL, .SRT_STAT])) (signalled [.crossings, .flying, .pins, .plcs, .sorters, .trees, .waiting]) s t) ∧
    (∀ (port : Port) (cell : Fin 192) (s : State), ∃ t : State, exec (.placementCellDisable port cell) s = .next t ∧
      Within (signals (errors [.PIN_GSTAT, .PIN_ICONF, .PIN_OCONF, .PIN_PLC_CTL, .SRT_STAT])) (signalled [.crossings, .flying, .pins, .plcs, .sorters, .trees, .waiting]) s t) ∧
    (∀ (port : Port) (cell : Fin 192) (s : State), ∃ t : State, exec (.pinPlcCntRead port cell) s = .next t ∧
      Within (signals (errors [.PIN_PLC_CNT])) (signalled [.crossings, .waiting]) s t) ∧
    (∀ (bank : Fin 12) (delay : Nat) (s : State), ∃ t : State, exec (.intrinsicDelayMeasure bank delay) s = .next t ∧
      Within ([]) ([.pins]) s t) ∧
    (∀ (port : Port) (value : Word) (s : State), ∃ t : State, exec (.pinCalLoad port value) s = .next t ∧
      Within (signals (counting (errors [.PIN_CAL_CMD, .PIN_GSTAT]))) (signalled [.crossings, .pins, .svc, .waiting]) s t) ∧
    (∀ (result : LoadResult) (s : State), ∃ t : State, exec (.pinCalPinDone result) s = .next t ∧
      Within (signals (counting [.PIN_CAL_CMD, .PIN_CAL_STAT, .PIN_LOAD, .PIN_PLC_STAT])) (signalled [.pins, .svc]) s t) ∧
    (∀ (port : Port) (bank : Fin 12) (value : Word) (s : State), ∃ t : State, exec (.gpioWrite port bank value) s = .next t ∧
      Within (signals (errors [.PIN_GSTAT, .PIN_OUT])) (signalled [.crossings, .flying, .pins, .trees, .waiting]) s t) ∧
    (∀ (port : Port) (group : Fin 3) (lanes : BitVec 8) (value : Word) (s : State), ∃ t : State, exec (.gpioMaskedWrite port group lanes value) s = .next t ∧
      Within (signals (errors [.PIN_GSTAT, .PIN_OUT])) (signalled [.crossings, .flying, .pins, .trees, .waiting]) s t) ∧
    (∀ (port : Port) (bank : Fin 12) (value : Word) (s : State), ∃ t : State, exec (.bankRangeWrite port bank value) s = .next t ∧
      Within (signals (errors [.PIN_BANK_CTL, .PIN_BANK_STAT, .PIN_GSTAT, .PIN_IN])) (signalled [.crossings, .pins, .timers, .waiting]) s t) ∧
    (∀ (bank : Fin 12) (s : State), ∃ t : State, exec (.bankRangeSwitch bank) s = .next t ∧
      Within (signals (counting [.PIN_BANK_STAT, .PIN_IN, .PWR_RGN_STAT, .PWR_STATE])) (signalled [.flying, .pins, .svc, .trees]) s t) ∧
    (∀ (bank : Fin 12) (s : State), ∃ t : State, exec (.bankRangeMismatch bank) s = .next t ∧
      Within (signals [.PIN_BANK_STAT]) (signalled []) s t) ∧
    (∀ (port : Port) (value : Word) (s : State), ∃ t : State, exec (.pinLockArm port value) s = .next t ∧
      Within (signals (errors [.PIN_GSTAT])) (signalled [.crossings, .pins, .waiting]) s t) ∧
    (∀ (port : Port) (value : Word) (s : State), ∃ t : State, exec (.pinLockSet port value) s = .next t ∧
      Within (signals (errors [.PIN_GSTAT, .PIN_LOCK])) (signalled [.crossings, .pins, .waiting]) s t) ∧
    (∀ (bank : Fin 12) (nominal : Fin 8) (s : State), ∃ t : State, exec (.bankSupplyRise bank nominal) s = .next t ∧
      Within ([]) ([.pins]) s t) ∧
    (∀ (generator : Fin 32) (s : State), ∃ t : State, exec (.pwmPeriodStart generator) s = .next t ∧
      Within (signals [.PIN_GSTAT, .PIN_ICONF, .PIN_OCONF]) (signalled [.flying, .pins, .trees]) s t) ∧
    (∀ (pin : Fin 192) (drive : Option Bool) (s : State), ∃ t : State, exec (.pinInputChange pin drive) s = .next t ∧
      Within ([.PIN_IN]) ([.flying, .freeValues, .outputs, .pins, .trees]) s t)

/-- O13. What the commands of channels leave as it was. Each of these commands answers a next state that differs from the state before it at most in the registers and the parts of the state that its clause lists: every other register field of the map and every other part (memories, queues, tables) is unchanged. The commands: CHANNEL_CREATE, CHANNEL_BIND, CHANNEL_UNBIND, CHANNEL_REBIND, CHANNEL_START, CHANNEL_HOLD, CHANNEL_RESUME, CHANNEL_DRAIN, CHANNEL_ABORT, CHANNEL_QUERY, CHANNEL_SET_MODE, PRODUCT_BEGIN, PRODUCT_LETTER_BUDGET, DRAIN_COMPLETE, ABORT_COMPLETE, SWITCH_COMPLETE, BINDING_CHECK, UNDERRUN_REPORT, LINK_DOWN_TIMEOUT, VOLUME_OFFLINE_INHIBIT, VIZON_LINE, PRODUCT_INSPECTED, VERDICT, VERDICT_DEADLINE, MAP_GENERATION_COMPLETE, STITCH_CHECK, STITCH_CHECK_MISSING, TRIGGER_EDGE, CHANNEL_HEALTH_SET, CHANNEL_HEALTH_QUERY, JOB_OPEN, JOB_CLOSE, JOB_QUERY, SPOOL_SLOT_FILLED, HEAD_DRIVER_STATUS, STITCH_PARTNER_MESSAGE, STITCH_LINK_TIMEOUT. -/
def Obligations.FrameOfChannels : Prop :=
  (∀ (letter : Letter) (s : State), ∃ t : State, exec (.channelCreate letter) s = .next t ∧
      Within (signals (counting [])) (signalled [.chans, .svc]) s t) ∧
    (∀ (letter : Letter) (s : State), ∃ t : State, exec (.channelBind letter) s = .next t ∧
      Within (signals (counting (errors [.CFG_AGT_STAT, .CFG_ISO_CNT, .PIN_GSTAT, .PIN_ICONF, .PIN_OCONF, .PIN_OMAP, .PIN_PLC_CTL, .PIN_PLC_STAT, .SRT_CTL, .SRT_ERR, .SRT_FLUSH_CNT, .SRT_STAT, .SRT_TGT]))) (signalled [.chans, .fires, .flying, .laneSkip, .laneTx, .lease, .links, .memo, .monitors, .pins, .plcs, .sorters, .svc, .trees]) s t) ∧
    (∀ (letter : Letter) (s : State), ∃ t : State, exec (.channelUnbind letter) s = .next t ∧
      Within (signals (counting [.CFG_AGT_STAT, .CFG_ISO_CNT, .PIN_GSTAT, .PIN_ICONF, .PIN_OCONF, .PIN_OMAP, .PIN_PLC_CTL, .PIN_PLC_STAT, .SRT_CTL, .SRT_ERR, .SRT_FLUSH_CNT, .SRT_STAT, .SRT_TGT])) (signalled [.chans, .fires, .flying, .laneSkip, .laneTx, .lease, .links, .memo, .monitors, .pins, .plcs, .sorters, .svc, .trees]) s t) ∧
    (∀ (letter : Letter) (s : State), ∃ t : State, exec (.channelRebind letter) s = .next t ∧
      Within (signals (counting (errors [.CFG_AGT_STAT, .CFG_ISO_CNT, .PIN_GSTAT, .PIN_ICONF, .PIN_OCONF, .PIN_OMAP, .PIN_PLC_CTL, .PIN_PLC_STAT, .SRT_CTL, .SRT_ERR, .SRT_FLUSH_CNT, .SRT_STAT, .SRT_TGT]))) (signalled [.chans, .fires, .flying, .laneSkip, .laneTx, .lease, .links, .memo, .monitors, .pins, .plcs, .sorters, .svc, .trees]) s t) ∧
    (∀ (letter : Letter) (map : List Byte) (s : State), ∃ t : State, exec (.channelStart letter map) s = .next t ∧
      Within (signals (counting (errors [.CFG_AGT_STAT, .LANE_ETH_RXWR, .MEM_HOME_CNT, .MEM_HOME_STAT, .MEM_STK_ECNT, .MEM_STK_ERR, .MEM_STK_ERRADDR, .PIN_GSTAT, .PIN_ICONF, .PIN_OCONF, .PIN_OMAP, .PIN_PLC_CTL, .PIN_PLC_STAT, .SEAL_LINE_CNT, .SEAL_LINE_ERR, .SEAL_LINE_ERRADDR, .SRT_CTL, .SRT_STAT]))) (signalled [.chans, .crossings, .flying, .links, .memo, .pins, .plcs, .seals, .sorters, .svc, .trees]) s t) ∧
    (∀ (letter : Letter) (s : State), ∃ t : State, exec (.channelHold letter) s = .next t ∧
      Within (signals (counting [.PIN_GSTAT, .PIN_ICONF, .PIN_OCONF, .PIN_PLC_CTL, .SRT_CTL, .SRT_STAT])) (signalled [.chans, .flying, .links, .pins, .plcs, .sorters, .trees]) s t) ∧
    (∀ (letter : Letter) (s : State), ∃ t : State, exec (.channelResume letter) s = .next t ∧
      Within (signals (counting (errors [.CFG_AGT_STAT, .CFG_ISO_CNT, .LNK_CNT_LINK, .LNK_ERR, .PIN_GSTAT, .PIN_ICONF, .PIN_OCONF, .PIN_OMAP, .PIN_PLC_CTL, .PIN_PLC_STAT, .SRT_CTL, .SRT_ERR, .SRT_FLUSH_CNT, .SRT_STAT, .SRT_TGT]))) (signalled [.chans, .fires, .flying, .laneSkip, .laneTx, .lease, .letterQueue, .links, .memo, .monitors, .pins, .plcs, .sorters, .svc, .trees]) s t) ∧
    (∀ (letter : Letter) (s : State), ∃ t : State, exec (.channelDrain letter) s = .next t ∧
      Within (signals (counting [])) (signalled [.chans, .svc]) s t) ∧
    (∀ (letter : Letter) (s : State), ∃ t : State, exec (.channelAbort letter) s = .next t ∧
      Within (signals (counting [.PIN_GSTAT, .PIN_ICONF, .PIN_OCONF, .PIN_PLC_CTL, .SRT_CTL, .SRT_STAT])) (signalled [.chans, .flying, .links, .pins, .plcs, .sorters, .svc, .trees]) s t) ∧
    (∀ (letter : Letter) (s : State), ∃ t : State, exec (.channelQuery letter) s = .next t ∧
      Within (signals (counting [])) (signalled []) s t) ∧
    (∀ (letter : Letter) (s : State), ∃ t : State, exec (.channelSetMode letter) s = .next t ∧
      Within (signals (counting [.SRT_CTL, .SRT_TGT])) (signalled [.chans, .svc]) s t) ∧
    (∀ (c : Fin 1024) (backward : Bool) (s : State), ∃ t : State, exec (.productBegin c backward) s = .next t ∧
      Within (signals (counting (errors [.CFG_AGT_STAT, .CFG_NVM_ERR, .CFG_NVM_STAT, .CFG_NVM_WEAR, .LANE_ETH_RXWR, .MEM_HOME_CNT, .MEM_HOME_STAT, .MEM_STK_ECNT, .MEM_STK_ERR, .MEM_STK_ERRADDR, .PIN_GSTAT, .PIN_ICONF, .PIN_OCONF, .PIN_OMAP, .PIN_PLC_CTL, .PIN_PLC_STAT, .SEAL_LINE_CNT, .SEAL_LINE_ERR, .SEAL_LINE_ERRADDR, .SRT_CTL, .SRT_ERR, .SRT_STAT, .SRT_TGT]))) (signalled [.chans, .config, .crossings, .flying, .jobs, .lease, .letterBudget, .letterQueue, .links, .memo, .monitors, .pins, .plcs, .seals, .sorters, .svc, .timers, .trees]) s t) ∧
    (∀ (s : State), ∃ t : State, exec .productLetterBudget s = .next t ∧
      Within (signals (counting [.PIN_GSTAT, .PIN_ICONF, .PIN_OCONF, .PIN_PLC_CTL, .SRT_CTL, .SRT_ERR, .SRT_STAT])) (signalled [.chans, .flying, .lease, .letterBudget, .letterQueue, .links, .pins, .plcs, .sorters, .trees]) s t) ∧
    (∀ (c : Fin 1024) (s : State), ∃ t : State, exec (.drainComplete c) s = .next t ∧
      Within (signals (counting [.CFG_AGT_STAT, .CFG_ISO_CNT, .PIN_GSTAT, .PIN_ICONF, .PIN_OCONF, .PIN_OMAP, .PIN_PLC_CTL, .PIN_PLC_STAT, .SRT_CTL, .SRT_ERR, .SRT_FLUSH_CNT, .SRT_STAT])) (signalled [.chans, .fires, .flying, .laneSkip, .laneTx, .lease, .letterQueue, .links, .memo, .monitors, .pins, .plcs, .sorters, .svc, .trees]) s t) ∧
    (∀ (c : Fin 1024) (s : State), ∃ t : State, exec (.abortComplete c) s = .next t ∧
      Within (signals (counting [.CFG_AGT_STAT, .CFG_ISO_CNT, .PIN_GSTAT, .PIN_ICONF, .PIN_OCONF, .PIN_OMAP, .PIN_PLC_CTL, .PIN_PLC_STAT, .SRT_CTL, .SRT_ERR, .SRT_FLUSH_CNT, .SRT_STAT])) (signalled [.chans, .fires, .flying, .laneSkip, .laneTx, .lease, .letterQueue, .links, .memo, .monitors, .pins, .plcs, .sorters, .svc, .trees]) s t) ∧
    (∀ (c : Fin 1024) (s : State), ∃ t : State, exec (.switchComplete c) s = .next t ∧
      Within (signals (counting (errors [.CFG_AGT_STAT, .CFG_ISO_CNT, .PIN_GSTAT, .PIN_ICONF, .PIN_OCONF, .PIN_OMAP, .PIN_PLC_CTL, .PIN_PLC_STAT, .SRT_CTL, .SRT_ERR, .SRT_FLUSH_CNT, .SRT_STAT, .SRT_TGT]))) (signalled [.chans, .fires, .flying, .laneSkip, .laneTx, .lease, .links, .memo, .monitors, .pins, .plcs, .sorters, .svc, .trees]) s t) ∧
    (∀ (c : Fin 1024) (s : State), ∃ t : State, exec (.bindingCheck c) s = .next t ∧
      Within (signals (counting [.PIN_GSTAT, .PIN_ICONF, .PIN_OCONF, .PIN_PLC_CTL, .SRT_CTL, .SRT_STAT])) (signalled [.chans, .flying, .links, .pins, .plcs, .sorters, .trees]) s t) ∧
    (∀ (c : Fin 1024) (s : State), ∃ t : State, exec (.underrunReport c) s = .next t ∧
      Within (signals (counting [])) (signalled [.chans, .timers]) s t) ∧
    (∀ (l : Fin 140) (s : State), ∃ t : State, exec (.linkDownTimeout l) s = .next t ∧
      Within (signals (counting [.PIN_GSTAT, .PIN_ICONF, .PIN_OCONF, .PIN_PLC_CTL, .SRT_CTL, .SRT_STAT])) (signalled [.chans, .flying, .links, .pins, .plcs, .sorters, .trees]) s t) ∧
    (∀ (c : Fin 1024) (s : State), ∃ t : State, exec (.volumeOfflineInhibit c) s = .next t ∧
      Within (signals (counting [.PIN_GSTAT, .PIN_ICONF, .PIN_OCONF, .PIN_PLC_CTL, .SRT_CTL, .SRT_STAT])) (signalled [.chans, .flying, .links, .pins, .plcs, .sorters, .trees]) s t) ∧
    (∀ (l : Fin 140) (header data : List Byte) (s : State), ∃ t : State, exec (.vizonLine l header data) s = .next t ∧
      Within (signals (counting [.CFG_AGT_STAT, .LANE_ETH_RXWR, .MEM_HOME_CNT, .MEM_HOME_STAT, .MEM_STK_ECNT, .MEM_STK_ERR, .MEM_STK_ERRADDR, .SEAL_LINE_CNT, .SEAL_LINE_ERR, .SEAL_LINE_ERRADDR])) (signalled [.chans, .crossings, .memo, .seals]) s t) ∧
    (∀ (c : Fin 1024) (s : State), ∃ t : State, exec (.productInspected c) s = .next t ∧
      Within (signals (counting [])) (signalled [.chans]) s t) ∧
    (∀ (letter : Letter) (s : State), ∃ t : State, exec (.verdict letter) s = .next t ∧
      Within (signals (counting [.PIN_GSTAT, .PIN_ICONF, .PIN_OCONF, .PIN_PLC_CTL, .SRT_CTL, .SRT_ERR, .SRT_STAT])) (signalled [.chans, .flying, .lease, .links, .pins, .plcs, .sorters, .trees]) s t) ∧
    (∀ (c : Fin 1024) (s : State), ∃ t : State, exec (.verdictDeadline c) s = .next t ∧
      Within (signals (counting [.PIN_GSTAT, .PIN_ICONF, .PIN_OCONF, .PIN_PLC_CTL, .SRT_CTL, .SRT_ERR, .SRT_STAT])) (signalled [.chans, .flying, .lease, .links, .pins, .plcs, .sorters, .trees]) s t) ∧
    (∀ (c : Fin 1024) (s : State), ∃ t : State, exec (.mapGenerationComplete c) s = .next t ∧
      Within (signals (counting [.CFG_AGT_STAT, .LANE_ETH_RXWR, .MEM_HOME_CNT, .MEM_HOME_STAT, .MEM_STK_ECNT, .MEM_STK_ERR, .MEM_STK_ERRADDR, .SEAL_LINE_CNT, .SEAL_LINE_ERR, .SEAL_LINE_ERRADDR, .SEAL_STORE_STAT])) (signalled [.chans, .crossings, .links, .memo, .seals, .store, .svc]) s t) ∧
    (∀ (link : Fin 144) (group : BitVec 16) (index : Int) (start : BitVec 64) (seed : BitVec 32) (modes : BitVec 4) (mapGen : BitVec 32) (s : State), ∃ t : State, exec (.stitchCheck link group index start seed modes mapGen) s = .next t ∧
      Within (signals (counting [.PIN_GSTAT, .PIN_ICONF, .PIN_OCONF, .PIN_PLC_CTL, .SRT_CTL, .SRT_STAT])) (signalled [.chans, .flying, .links, .pins, .plcs, .sorters, .trees]) s t) ∧
    (∀ (c : Fin 1024) (s : State), ∃ t : State, exec (.stitchCheckMissing c) s = .next t ∧
      Within (signals (counting [.PIN_GSTAT, .PIN_ICONF, .PIN_OCONF, .PIN_PLC_CTL, .SRT_CTL, .SRT_STAT])) (signalled [.chans, .flying, .links, .pins, .plcs, .sorters, .trees]) s t) ∧
    (∀ (k : Fin 16) (rising held : Bool) (time : Nat) (s : State), ∃ t : State, exec (.triggerEdge k rising held time) s = .next t ∧
      Within (signals []) (signalled [.chans, .lease]) s t) ∧
    (∀ (letter : Letter) (s : State), ∃ t : State, exec (.channelHealthSet letter) s = .next t ∧
      Within (signals (counting [])) (signalled [.chans, .svc]) s t) ∧
    (∀ (letter : Letter) (s : State), ∃ t : State, exec (.channelHealthQuery letter) s = .next t ∧
      Within (signals (counting [])) (signalled []) s t) ∧
    (∀ (letter : Letter) (read : JobRead) (s : State), ∃ t : State, exec (.jobOpen letter read) s = .next t ∧
      Within (signals (counting [])) (signalled [.jobs, .svc]) s t) ∧
    (∀ (letter : Letter) (s : State), ∃ t : State, exec (.jobClose letter) s = .next t ∧
      Within (signals (counting [])) (signalled [.jobs, .svc]) s t) ∧
    (∀ (letter : Letter) (s : State), ∃ t : State, exec (.jobQuery letter) s = .next t ∧
      Within (signals (counting [])) (signalled []) s t) ∧
    (∀ (c : Fin 1024) (n : SpoolFill) (s : State), ∃ t : State, exec (.spoolSlotFilled c n) s = .next t ∧
      Within (signals (counting [.CFG_AGT_STAT, .LANE_ETH_RXWR, .MEM_HOME_CNT, .MEM_HOME_STAT, .MEM_STK_ECNT, .MEM_STK_ERR, .MEM_STK_ERRADDR, .SEAL_LINE_CNT, .SEAL_LINE_ERR, .SEAL_LINE_ERRADDR])) (signalled [.chans, .crossings, .memo, .seals]) s t) ∧
    (∀ (l : Fin 140) (failed : List Nat) (s : State), ∃ t : State, exec (.headDriverStatus l failed) s = .next t ∧
      Within (signals []) (signalled [.chans]) s t) ∧
    (∀ (link : Fin 144) (group : BitVec 16) (m : StitchMsg) (s : State), ∃ t : State, exec (.stitchPartnerMessage link group m) s = .next t ∧
      Within (signals (counting [.PIN_GSTAT, .PIN_ICONF, .PIN_OCONF, .PIN_PLC_CTL, .SRT_CTL, .SRT_ERR, .SRT_STAT])) (signalled [.chans, .flying, .lease, .links, .pins, .plcs, .sorters, .trees]) s t) ∧
    (∀ (link : Fin 144) (s : State), ∃ t : State, exec (.stitchLinkTimeout link) s = .next t ∧
      Within (signals (counting [.PIN_GSTAT, .PIN_ICONF, .PIN_OCONF, .PIN_PLC_CTL, .SRT_CTL, .SRT_STAT])) (signalled [.chans, .flying, .links, .pins, .plcs, .sorters, .trees]) s t)

/-- O14. What the commands of rings leave as it was. Each of these commands answers a next state that differs from the state before it at most in the registers and the parts of the state that its clause lists: every other register field of the map and every other part (memories, queues, tables) is unchanged. The commands: RING_JOIN_WRITE, BYPASS_CLOSE, BYPASS_OPEN, ROLL_CALL_SEND, ROLL_CALL_RECEIVED, MEMBER_UNREACHABLE, RING_STATE_EVALUATE, RING_STOP, RING_STOP_REGISTER, RING_RELEASE_STOP, RING_RELEASE_RECEIVED, LEASE_SERIES_DEFINE, LEASE_SERIES_OPEN, LEASE_REQUEST, LEASE_PROPOSAL_RECEIVED, LEASE_ACK_RECEIVED, LEASE_PROPOSAL_TIMEOUT, LEASE_RETRY, LEASE_AUTO_RETRY, LEASE_RETIRE, LEASE_QUERY, AUDIT_FLUSH, RECONCILE, RING_CONFIG, RING_CONFIG_TIMEOUT, RING_QUERY, EXPRESS_RING_STOP, LOG_AUDIT_BIND, RING_CONFIG_RECEIVED. -/
def Obligations.FrameOfRings : Prop :=
  (∀ (port : Port) (r : Fin 2) (value : Word) (s : State), ∃ t : State, exec (.ringJoinWrite port r value) s = .next t ∧
      Within (signals (counting (errors [.DEV_FRK_STAT, .LANE_ERR, .LANE_RATE, .LNK_RING_CTL, .LNK_RING_REACH, .LNK_RING_STAT, .LNK_RING_WEIGHT, .PIN_GSTAT, .PIN_ICONF, .PIN_OCONF, .PIN_PLC_CTL, .PST_FW_STAT, .PST_LOCK, .PST_MB_REQ, .SRT_CTL, .SRT_STAT]))) (signalled [.chans, .crossings, .flying, .lease, .links, .pins, .plcs, .rings, .sorters, .store, .svc, .trees, .waiting]) s t) ∧
    (∀ (r : Fin 2) (s : State), ∃ t : State, exec (.bypassClose r) s = .next t ∧
      Within ([.LNK_RING_STAT]) ([]) s t) ∧
    (∀ (r : Fin 2) (s : State), ∃ t : State, exec (.bypassOpen r) s = .next t ∧
      Within ([.LNK_RING_STAT]) ([]) s t) ∧
    (∀ (r : Fin 2) (s : State), ∃ t : State, exec (.rollCallSend r) s = .next t ∧
      Within (signals (counting [])) (signalled [.links]) s t) ∧
    (∀ (r : Fin 2) (east : Bool) (hop : RollHop) (m : Fin 32) (uid : BitVec 64) (crc : BitVec 32) (highs : List (BitVec 32 × BitVec 64)) (stops : List (Fin 32 × BitVec 16 × BitVec 8)) (s : State), ∃ t : State, exec (.rollCallReceived r east hop m uid crc highs stops) s = .next t ∧
      Within (signals (counting [.DEV_FRK_STAT, .LNK_RING_CTL, .LNK_RING_REACH, .LNK_RING_STAT, .LNK_RING_STOPSRC, .LNK_RING_WEIGHT, .PIN_GSTAT, .PIN_ICONF, .PIN_OCONF, .PIN_PLC_CTL, .PST_FW_STAT, .PST_LOCK, .PST_MB_REQ, .SRT_CTL, .SRT_STAT])) (signalled [.chans, .flying, .lease, .links, .pins, .plcs, .rings, .sorters, .store, .svc, .timers, .trees]) s t) ∧
    (∀ (r : Fin 2) (m : Fin 32) (s : State), ∃ t : State, exec (.memberUnreachable r m) s = .next t ∧
      Within (signals [.LNK_RING_CTL, .LNK_RING_REACH, .LNK_RING_WEIGHT, .PST_FW_STAT, .PST_LOCK, .PST_MB_REQ]) (signalled [.store, .svc]) s t) ∧
    (∀ (r : Fin 2) (s : State), ∃ t : State, exec (.ringStateEvaluate r) s = .next t ∧
      Within (signals [.LNK_RING_CTL, .LNK_RING_REACH, .LNK_RING_STAT, .LNK_RING_WEIGHT, .PST_FW_STAT, .PST_LOCK, .PST_MB_REQ]) (signalled [.lease, .rings, .store, .svc]) s t) ∧
    (∀ (letter : Letter) (s : State), ∃ t : State, exec (.ringStop letter) s = .next t ∧
      Within (signals (counting [.DEV_FRK_STAT, .LNK_RING_STAT, .LNK_RING_STOPSRC, .PIN_GSTAT, .PIN_ICONF, .PIN_OCONF, .PIN_PLC_CTL, .SRT_CTL, .SRT_STAT])) (signalled [.chans, .flying, .links, .pins, .plcs, .rings, .sorters, .svc, .trees]) s t) ∧
    (∀ (port : Port) (r : Fin 2) (s : State), ∃ t : State, exec (.ringStopRegister port r) s = .next t ∧
      Within (signals (counting (errors [.DEV_FRK_STAT, .LNK_RING_STAT, .LNK_RING_STOPSRC, .PIN_GSTAT, .PIN_ICONF, .PIN_OCONF, .PIN_PLC_CTL, .SRT_CTL, .SRT_STAT]))) (signalled [.chans, .crossings, .flying, .links, .pins, .plcs, .rings, .sorters, .trees, .waiting]) s t) ∧
    (∀ (letter : Letter) (s : State), ∃ t : State, exec (.ringReleaseStop letter) s = .next t ∧
      Within (signals (counting [.DEV_FRK_MISS, .DEV_FRK_STAT, .LNK_RING_STAT, .SRT_STAT])) (signalled [.fires, .franker, .links, .rings, .sorters, .svc]) s t) ∧
    (∀ (r : Fin 2) (upTo : StopRelease) (s : State), ∃ t : State, exec (.ringReleaseReceived r upTo) s = .next t ∧
      Within (signals (counting [.DEV_FRK_MISS, .DEV_FRK_STAT, .LNK_RING_STAT, .SRT_STAT])) (signalled [.fires, .franker, .links, .rings, .sorters]) s t) ∧
    (∀ (letter : Letter) (s : State), ∃ t : State, exec (.leaseSeriesDefine letter) s = .next t ∧
      Within (signals (counting [.CFG_NVM_ERR, .CFG_NVM_STAT, .CFG_NVM_WEAR])) (signalled [.config, .lease, .links]) s t) ∧
    (∀ (letter : Letter) (s : State), ∃ t : State, exec (.leaseSeriesOpen letter) s = .next t ∧
      Within (signals (counting [])) (signalled [.lease, .svc]) s t) ∧
    (∀ (letter : Letter) (s : State), ∃ t : State, exec (.leaseRequest letter) s = .next t ∧
      Within (signals (counting [.CFG_NVM_ERR, .CFG_NVM_STAT, .CFG_NVM_WEAR])) (signalled [.config, .lease, .links, .svc, .timers]) s t) ∧
    (∀ (r : Fin 2) (series : BitVec 32) (base : BitVec 64) (count : BitVec 32) (s : State), ∃ t : State, exec (.leaseProposalReceived r series base count) s = .next t ∧
      Within (signals (counting [.CFG_NVM_ERR, .CFG_NVM_STAT, .CFG_NVM_WEAR])) (signalled [.config, .lease, .links]) s t) ∧
    (∀ (r : Fin 2) (m : Fin 32) (series : BitVec 32) (base : BitVec 64) (ack : Bool) (high : BitVec 64) (s : State), ∃ t : State, exec (.leaseAckReceived r m series base ack high) s = .next t ∧
      Within (signals (counting [.CFG_NVM_ERR, .CFG_NVM_STAT, .CFG_NVM_WEAR])) (signalled [.config, .lease, .links, .svc, .timers]) s t) ∧
    (∀ (ring : Fin 3) (series : BitVec 32) (s : State), ∃ t : State, exec (.leaseProposalTimeout ring series) s = .next t ∧
      Within (signals (counting [.CFG_NVM_ERR, .CFG_NVM_STAT, .CFG_NVM_WEAR])) (signalled [.config, .lease, .links, .svc, .timers]) s t) ∧
    (∀ (ring : Fin 3) (series : BitVec 32) (s : State), ∃ t : State, exec (.leaseRetry ring series) s = .next t ∧
      Within (signals (counting [.CFG_NVM_ERR, .CFG_NVM_STAT, .CFG_NVM_WEAR])) (signalled [.config, .lease, .links, .svc, .timers]) s t) ∧
    (∀ (ring : Fin 3) (series : BitVec 32) (s : State), ∃ t : State, exec (.leaseAutoRetry ring series) s = .next t ∧
      Within (signals (counting [.CFG_NVM_ERR, .CFG_NVM_STAT, .CFG_NVM_WEAR])) (signalled [.config, .lease, .links, .svc, .timers]) s t) ∧
    (∀ (letter : Letter) (s : State), ∃ t : State, exec (.leaseRetire letter) s = .next t ∧
      Within (signals (counting [.CFG_NVM_ERR, .CFG_NVM_STAT, .CFG_NVM_WEAR])) (signalled [.config, .lease, .links, .svc, .timers]) s t) ∧
    (∀ (letter : Letter) (s : State), ∃ t : State, exec (.leaseQuery letter) s = .next t ∧
      Within (signals (counting [])) (signalled []) s t) ∧
    (∀ (ok : Bool) (s : State), ∃ t : State, exec (.auditFlush ok) s = .next t ∧
      Within (signals (counting [])) (signalled [.lease, .svc]) s t) ∧
    (∀ (r : Fin 2) (defs : List SeriesDef) (highs : List (BitVec 32 × BitVec 64)) (leases : List (BitVec 32 × BitVec 64 × BitVec 32)) (s : State), ∃ t : State, exec (.reconcile r defs highs leases) s = .next t ∧
      Within (signals (counting [.CFG_NVM_ERR, .CFG_NVM_STAT, .CFG_NVM_WEAR])) (signalled [.config, .lease, .links, .svc, .timers]) s t) ∧
    (∀ (letter : Letter) (s : State), ∃ t : State, exec (.ringConfig letter) s = .next t ∧
      Within (signals (counting [.CFG_NVM_ERR, .CFG_NVM_STAT, .CFG_NVM_WEAR, .LNK_RING_CTL, .LNK_RING_REACH, .LNK_RING_WEIGHT, .PST_FW_STAT, .PST_LOCK, .PST_MB_REQ])) (signalled [.config, .lease, .links, .rings, .store, .svc, .timers]) s t) ∧
    (∀ (r : Fin 2) (s : State), ∃ t : State, exec (.ringConfigTimeout r) s = .next t ∧
      Within (signals (counting [.CFG_NVM_ERR, .CFG_NVM_STAT, .CFG_NVM_WEAR, .LNK_RING_CTL, .LNK_RING_REACH, .LNK_RING_WEIGHT, .PST_FW_STAT, .PST_LOCK, .PST_MB_REQ])) (signalled [.config, .lease, .links, .rings, .store, .svc, .timers]) s t) ∧
    (∀ (letter : Letter) (s : State), ∃ t : State, exec (.ringQuery letter) s = .next t ∧
      Within (signals (counting [])) (signalled [.svc]) s t) ∧
    (∀ (r : Fin 2) (slot : RingSlot) (origin : Fin 32) (cause : BitVec 8) (seq : BitVec 16) (s : State), ∃ t : State, exec (.expressRingStop r slot origin cause seq) s = .next t ∧
      Within (signals (counting [.DEV_FRK_STAT, .LNK_CNT_EXP, .LNK_ERR, .LNK_RING_STAT, .LNK_RING_STOPSRC, .PIN_GSTAT, .PIN_ICONF, .PIN_OCONF, .PIN_PLC_CTL, .SRT_CTL, .SRT_STAT])) (signalled [.chans, .flying, .links, .pins, .plcs, .rings, .sorters, .trees]) s t) ∧
    (∀ (letter : Letter) (s : State), ∃ t : State, exec (.logAuditBind letter) s = .next t ∧
      Within (signals (counting [])) (signalled [.lease]) s t) ∧
    (∀ (r : Fin 2) (m : TableMsg) (s : State), ∃ t : State, exec (.ringConfigReceived r m) s = .next t ∧
      Within (signals (counting [.CFG_NVM_ERR, .CFG_NVM_STAT, .CFG_NVM_WEAR, .LNK_RING_CTL, .LNK_RING_REACH, .LNK_RING_WEIGHT, .PST_FW_STAT, .PST_LOCK, .PST_MB_REQ])) (signalled [.config, .lease, .links, .rings, .store, .svc, .timers]) s t)

/-- O15. What the commands of lanes leave as it was. Each of these commands answers a next state that differs from the state before it at most in the registers and the parts of the state that its clause lists: every other register field of the map and every other part (memories, queues, tables) is unchanged. The commands: OCTET_ENABLE, OCTET_DISABLE, OCTET_PLL_LOSS, LANE_RATE_WRITE, LANE_TXEQ_WRITE, ADAPT_DONE, LOS_ASSERT, LOS_CLEAR, LANE_LOCK, LANE_LOL, LANE_RESET, LANE_EN_WRITE, LANE_CNT_READ, LANE_ERRCNT_READ, OCTET_PROTO_WRITE, PCIE_PERST_ASSERT, PCIE_PERST_RELEASE, HOT_RESET, FUNCTION_LEVEL_RESET, DRIVE_PRESENT, RP_PERST_RELEASE, RP_LINK_UP, RP_CONTAINMENT, ETH_FRAME_RECEIVED, ETH_TXWR_WRITE, ETH_SLOT_SENT, LANE_ETH_CNT_READ, ENDPOINT_LINK_UP, ETH_LINK_CHANGE. -/
def Obligations.FrameOfLanes : Prop :=
  (∀ (port : Port) (octet : Fin 18) (value : Word) (s : State), ∃ t : State, exec (.octetEnable port octet value) s = .next t ∧
      Within (signals (counting (errors [.DEV_ISL_HELD, .DEV_ISL_RUN, .DEV_ISL_STOP, .DEV_OCT_CTL, .DEV_OCT_STAT, .DEV_XDROP, .LANE_CNT, .LANE_CUR, .LANE_DFE, .LANE_EP_STAT, .LANE_ETH_CNT, .LANE_ETH_RXRD, .LANE_ETH_RXWR, .LANE_ETH_STAT, .LANE_ETH_TXRD, .LANE_ETH_TXWR, .LANE_RP_STAT, .LANE_RXEQ, .LANE_STAT, .LANE_TXEQ, .LNK_CABLE, .LNK_CNT_FLIT, .LNK_CNT_LINK, .LNK_ERR, .LNK_LATENCY, .LNK_PARTNER_CAP, .LNK_PARTNER_PREP, .LNK_PARTNER_UID, .LNK_RING_STAT, .LNK_STAT, .MEM_STK_STAT, .PIN_GSTAT, .PIN_ICONF, .PIN_OCONF, .PIN_PLC_CTL, .PST_FW_STAT, .PST_LOCK, .PST_MB_REQ, .SEAL_STORE_STAT, .SRT_CTL, .SRT_ERR, .SRT_STAT]))) (signalled [.chans, .crossings, .fires, .flying, .laneSkip, .laneTx, .lease, .links, .memo, .pins, .plcs, .ports, .samplers, .sorters, .store, .svc, .timers, .trees, .waiting]) s t) ∧
    (∀ (port : Port) (octet : Fin 18) (value : Word) (lost : List Lost) (s : State), ∃ t : State, exec (.octetDisable port octet value lost) s = .next t ∧
      Within (signals (counting (errors [.DEV_ISL_HELD, .DEV_ISL_RUN, .DEV_ISL_STOP, .DEV_OCT_CTL, .DEV_OCT_STAT, .DEV_XDROP, .LANE_CNT, .LANE_CUR, .LANE_DFE, .LANE_EP_STAT, .LANE_ETH_CNT, .LANE_ETH_RXRD, .LANE_ETH_RXWR, .LANE_ETH_STAT, .LANE_ETH_TXRD, .LANE_ETH_TXWR, .LANE_RP_STAT, .LANE_RXEQ, .LANE_STAT, .LANE_TXEQ, .LNK_CABLE, .LNK_CNT_FLIT, .LNK_CNT_LINK, .LNK_ERR, .LNK_LATENCY, .LNK_PARTNER_CAP, .LNK_PARTNER_PREP, .LNK_PARTNER_UID, .LNK_RING_STAT, .LNK_STAT, .MEM_STK_STAT, .PIN_GSTAT, .PIN_ICONF, .PIN_OCONF, .PIN_PLC_CTL, .PST_FW_STAT, .PST_LOCK, .PST_MB_REQ, .SEAL_STORE_STAT, .SRT_CTL, .SRT_ERR, .SRT_STAT]))) (signalled [.chans, .crossings, .fires, .flying, .laneSkip, .laneTx, .lease, .links, .memo, .pins, .plcs, .ports, .samplers, .sorters, .store, .svc, .timers, .trees, .waiting]) s t) ∧
    (∀ (loss : PllLoss) (s : State), ∃ t : State, exec (.octetPllLoss loss) s = .next t ∧
      Within (signals [.DEV_ISL_RUN, .DEV_ISL_STOP, .DEV_OCT_STAT, .MEM_STK_STAT, .PIN_GSTAT, .PIN_ICONF, .PIN_OCONF]) (signalled [.flying, .pins, .trees]) s t) ∧
    (∀ (port : Port) (lane : Fin 144) (value : Word) (s : State), ∃ t : State, exec (.laneRateWrite port lane value) s = .next t ∧
      Within (signals (errors [.LANE_ERR, .LANE_RATE])) (signalled [.crossings, .waiting]) s t) ∧
    (∀ (port : Port) (lane : Fin 144) (value : Word) (s : State), ∃ t : State, exec (.laneTxeqWrite port lane value) s = .next t ∧
      Within (signals (errors [.LANE_ERR, .LANE_TXEQ])) (signalled [.crossings, .ports, .waiting]) s t) ∧
    (∀ (lane : Fin 144) (ctle : BitVec 5) (dfe : BitVec 96) (s : State), ∃ t : State, exec (.adaptDone lane ctle dfe) s = .next t ∧
      Within ([.LANE_DFE, .LANE_RXEQ, .LANE_STAT]) ([.timers]) s t) ∧
    (∀ (lane : Fin 144) (announced : Bool) (s : State), ∃ t : State, exec (.losAssert lane announced) s = .next t ∧
      Within (signals [.LANE_CUR, .LANE_ERR, .LANE_ERRCNT, .LANE_STAT, .LANE_TXEQ, .LNK_ERR, .LNK_RING_STAT, .LNK_STAT]) (signalled [.links, .timers]) s t) ∧
    (∀ (lane : Fin 144) (s : State), ∃ t : State, exec (.losClear lane) s = .next t ∧
      Within ([.LANE_STAT]) ([]) s t) ∧
    (∀ (lane : Fin 144) (s : State), ∃ t : State, exec (.laneLock lane) s = .next t ∧
      Within ([.LANE_STAT]) ([.timers]) s t) ∧
    (∀ (lane : Fin 144) (s : State), ∃ t : State, exec (.laneLol lane) s = .next t ∧
      Within (signals [.LANE_CUR, .LANE_ERR, .LANE_ERRCNT, .LANE_STAT, .LANE_TXEQ, .LNK_ERR, .LNK_RING_STAT, .LNK_STAT]) (signalled [.links, .timers]) s t) ∧
    (∀ (lane : Fin 144) (writer : Option Port) (lost : List Lost) (s : State), ∃ t : State, exec (.laneReset lane writer lost) s = .next t ∧
      Within (signals (counting (errors [.DEV_XDROP, .LANE_CNT, .LANE_CUR, .LANE_DFE, .LANE_ERR, .LANE_RXEQ, .LANE_STAT, .LANE_TXEQ, .LNK_CABLE, .LNK_CNT_FLIT, .LNK_CNT_LINK, .LNK_ERR, .LNK_LATENCY, .LNK_PARTNER_CAP, .LNK_PARTNER_PREP, .LNK_PARTNER_UID, .LNK_RING_STAT, .LNK_STAT, .PIN_GSTAT, .PIN_ICONF, .PIN_OCONF, .PIN_PLC_CTL, .SRT_CTL, .SRT_ERR, .SRT_STAT]))) (signalled [.chans, .crossings, .fires, .flying, .laneSkip, .laneTx, .lease, .links, .pins, .plcs, .sorters, .timers, .trees, .waiting]) s t) ∧
    (∀ (port : Port) (lane : Fin 144) (value : Word) (lost : List Lost) (s : State), ∃ t : State, exec (.laneEnWrite port lane value lost) s = .next t ∧
      Within (signals (counting (errors [.DEV_XDROP, .LANE_CNT, .LANE_CTL, .LANE_CUR, .LANE_DFE, .LANE_ERR, .LANE_RXEQ, .LANE_STAT, .LANE_TXEQ, .LNK_CABLE, .LNK_CNT_FLIT, .LNK_CNT_LINK, .LNK_ERR, .LNK_LATENCY, .LNK_PARTNER_CAP, .LNK_PARTNER_PREP, .LNK_PARTNER_UID, .LNK_RING_STAT, .LNK_STAT, .PIN_GSTAT, .PIN_ICONF, .PIN_OCONF, .PIN_PLC_CTL, .SRT_CTL, .SRT_ERR, .SRT_STAT]))) (signalled [.chans, .crossings, .fires, .flying, .laneSkip, .laneTx, .lease, .links, .pins, .plcs, .sorters, .timers, .trees, .waiting]) s t) ∧
    (∀ (port : Port) (read : PrbsRead) (s : State), ∃ t : State, exec (.laneCntRead port read) s = .next t ∧
      Within (signals (errors [.LANE_CNT])) (signalled [.crossings, .waiting]) s t) ∧
    (∀ (port : Port) (lane : Fin 144) (s : State), ∃ t : State, exec (.laneErrcntRead port lane) s = .next t ∧
      Within (signals (errors [.LANE_ERRCNT])) (signalled [.crossings, .waiting]) s t) ∧
    (∀ (port : Port) (octet : Fin 18) (value : Word) (s : State), ∃ t : State, exec (.octetProtoWrite port octet value) s = .next t ∧
      Within (signals (counting (errors [.DEV_OCT_PROTO, .DEV_OCT_STAT, .LANE_ETH_STAT, .LANE_RP_STAT, .LANE_STAT, .SEAL_STORE_STAT]))) (signalled [.chans, .crossings, .ports, .store, .svc, .waiting]) s t) ∧
    (∀ (lost : List Lost) (s : State), ∃ t : State, exec (.pciePerstAssert lost) s = .next t ∧
      Within (signals (counting [.DEV_OCT_STAT, .DEV_XDROP, .LANE_CNT, .LANE_CUR, .LANE_DFE, .LANE_EP_STAT, .LANE_RXEQ, .LANE_STAT, .LANE_TXEQ, .LNK_CABLE, .LNK_CNT_FLIT, .LNK_CNT_LINK, .LNK_ERR, .LNK_LATENCY, .LNK_PARTNER_CAP, .LNK_PARTNER_PREP, .LNK_PARTNER_UID, .LNK_RING_STAT, .LNK_STAT, .PIN_GSTAT, .PIN_ICONF, .PIN_OCONF, .PIN_PLC_CTL, .PST_FW_STAT, .PST_LOCK, .PST_MB_REQ, .SRT_CTL, .SRT_ERR, .SRT_STAT])) (signalled [.chans, .crossings, .fires, .flying, .laneSkip, .laneTx, .lease, .links, .pins, .plcs, .ports, .sorters, .store, .svc, .timers, .trees, .waiting]) s t) ∧
    (∀ (s : State), ∃ t : State, exec .pciePerstRelease s = .next t ∧
      Within ([.LANE_STAT]) ([.ports, .timers]) s t) ∧
    (∀ (s : State), ∃ t : State, exec .hotReset s = .next t ∧
      Within (signals [.DEV_OCT_STAT, .DEV_XDROP, .LANE_EP_STAT, .LANE_STAT, .PST_FW_STAT, .PST_LOCK, .PST_MB_REQ]) (signalled [.crossings, .ports, .store, .svc, .waiting]) s t) ∧
    (∀ (f : Fin 4) (s : State), ∃ t : State, exec (.functionLevelReset f) s = .next t ∧
      Within (signals [.DEV_XDROP, .PST_FW_STAT, .PST_LOCK, .PST_MB_REQ]) (signalled [.crossings, .ports, .store, .svc, .waiting]) s t) ∧
    (∀ (j : Fin 8) (s : State), ∃ t : State, exec (.drivePresent j) s = .next t ∧
      Within (signals [.LANE_RP_STAT]) (signalled [.ports, .timers]) s t) ∧
    (∀ (j : Fin 8) (s : State), ∃ t : State, exec (.rpPerstRelease j) s = .next t ∧
      Within ([]) ([.outputs, .ports]) s t) ∧
    (∀ (j : Fin 8) (width : BitVec 2) (rate : TrainedRate) (drive : Option DriveInfo) (s : State), ∃ t : State, exec (.rpLinkUp j width rate drive) s = .next t ∧
      Within (signals [.LANE_CUR, .LANE_RATE, .LANE_RP_STAT, .LANE_TXEQ, .SEAL_STORE_ERR, .SEAL_STORE_ERRVOL, .SEAL_STORE_STAT]) (signalled [.ports, .store]) s t) ∧
    (∀ (j : Fin 8) (removed : Bool) (s : State), ∃ t : State, exec (.rpContainment j removed) s = .next t ∧
      Within (signals (counting [.LANE_RP_STAT, .SEAL_STORE_STAT])) (signalled [.chans, .ports, .store, .svc]) s t) ∧
    (∀ (e : Fin 80) (frame : List Byte) (fcsOk : Bool) (time : BitVec 64) (s : State), ∃ t : State, exec (.ethFrameReceived e frame fcsOk time) s = .next t ∧
      Within (signals (counting [.CFG_AGT_STAT, .LANE_ETH_CNT, .LANE_ETH_RXWR, .MEM_HOME_CNT, .MEM_HOME_STAT, .MEM_STK_ECNT, .MEM_STK_ERR, .MEM_STK_ERRADDR, .SEAL_LINE_CNT, .SEAL_LINE_ERR, .SEAL_LINE_ERRADDR])) (signalled [.crossings, .memo, .ports, .seals]) s t) ∧
    (∀ (port : Port) (e : Fin 80) (q : Fin 16) (value : Word) (s : State), ∃ t : State, exec (.ethTxwrWrite port e q value) s = .next t ∧
      Within (signals (errors [.LANE_ETH_TXWR])) (signalled [.crossings, .waiting]) s t) ∧
    (∀ (e : Fin 80) (q : Fin 16) (s : State), ∃ t : State, exec (.ethSlotSent e q) s = .next t ∧
      Within (signals (counting [.CFG_AGT_STAT, .LANE_ETH_CNT, .LANE_ETH_RXWR, .LANE_ETH_TXRD, .MEM_HOME_CNT, .MEM_HOME_STAT, .MEM_STK_ECNT, .MEM_STK_ERR, .MEM_STK_ERRADDR, .SEAL_LINE_CNT, .SEAL_LINE_ERR, .SEAL_LINE_ERRADDR])) (signalled [.crossings, .memo, .seals]) s t) ∧
    (∀ (port : Port) (e : Fin 80) (s : State), ∃ t : State, exec (.laneEthCntRead port e) s = .next t ∧
      Within (signals (errors [.LANE_ETH_CNT])) (signalled [.crossings, .waiting]) s t) ∧
    (∀ (width : BitVec 3) (rate : TrainedRate) (flit : Bool) (s : State), ∃ t : State, exec (.endpointLinkUp width rate flit) s = .next t ∧
      Within (signals [.LANE_CUR, .LANE_EP_STAT, .LANE_RATE, .LANE_TXEQ]) (signalled []) s t) ∧
    (∀ (e : Fin 80) (link : EthUp) (localFault remoteFault : Bool) (s : State), ∃ t : State, exec (.ethLinkChange e link localFault remoteFault) s = .next t ∧
      Within (signals [.LANE_CUR, .LANE_ETH_STAT, .LANE_RATE, .LANE_TXEQ]) (signalled []) s t)

/-- O16. What the commands of links leave as it was. Each of these commands answers a next state that differs from the state before it at most in the registers and the parts of the state that its clause lists: every other register field of the map and every other part (memories, queues, tables) is unchanged. The commands: LINK_ENABLE, LINK_DISABLE, FRAME_DECODED, MARKER_RECEIVED, FLOW_SEND, EXPRESS_STOP, EXPRESS_GO, EXPRESS_FLOW, EXPRESS_ACK, EXPRESS_NAK, EXPRESS_TIMING, EXPRESS_TIMING_REPLY, EXPRESS_RETRAIN_REQ, EXPRESS_WIDTH_REQ, EXPRESS_WIDTH_ACK, EXPRESS_LEAVE, ACK_SEND, NAK_REPEAT, FIRE_LINE_DEADLINE, BEACON_SEND, TIMING_SEND, TIMING_TIMEOUT, TRAINING_FRAME_RECEIVED, EQUALIZE_DONE, ALIGN_DONE, CAPABILITY_RECEIVED, LINK_STATE_TIMEOUT, LNK_CMD_RETRAIN, LNK_CMD_WIDTH, WIDTH_REQ_RESEND, WIDTH_LANES_ADDED, WIDTH_SWITCH_MARKER, LANE_FAILURE, LINK_SILENCE_TIMEOUT, BACKOFF_EXPIRED, ACTIVE_HELD, LNK_CNT_READ, LANE_REJOIN. -/
def Obligations.FrameOfLinks : Prop :=
  (∀ (port : Port) (link : Fin 144) (value : Word) (s : State), ∃ t : State, exec (.linkEnable port link value) s = .next t ∧
      Within (signals (counting (errors [.DEV_XDROP, .LANE_CUR, .LNK_CABLE, .LNK_CNT_FLIT, .LNK_CNT_LINK, .LNK_CTL, .LNK_ERR, .LNK_LATENCY, .LNK_PARTNER_CAP, .LNK_PARTNER_PREP, .LNK_PARTNER_UID, .LNK_RING_STAT, .LNK_STAT, .PIN_GSTAT, .PIN_ICONF, .PIN_OCONF, .PIN_PLC_CTL, .SRT_CTL, .SRT_ERR, .SRT_STAT]))) (signalled [.chans, .crossings, .fires, .flying, .laneSkip, .laneTx, .lease, .links, .pins, .plcs, .sorters, .timers, .trees, .waiting]) s t) ∧
    (∀ (port : Port) (link : Fin 144) (value : Word) (lost : List Lost) (s : State), ∃ t : State, exec (.linkDisable port link value lost) s = .next t ∧
      Within (signals (counting (errors [.DEV_XDROP, .LANE_CUR, .LNK_CABLE, .LNK_CNT_FLIT, .LNK_CNT_LINK, .LNK_CTL, .LNK_ERR, .LNK_LATENCY, .LNK_PARTNER_CAP, .LNK_PARTNER_PREP, .LNK_PARTNER_UID, .LNK_RING_STAT, .LNK_STAT, .PIN_GSTAT, .PIN_ICONF, .PIN_OCONF, .PIN_PLC_CTL, .SRT_CTL, .SRT_ERR, .SRT_STAT]))) (signalled [.chans, .crossings, .fires, .flying, .laneSkip, .laneTx, .lease, .links, .pins, .plcs, .sorters, .timers, .trees, .waiting]) s t) ∧
    (∀ (link : Fin 144) (result : FrameResult) (types : List Byte) (s : State), ∃ t : State, exec (.frameDecoded link result types) s = .next t ∧
      Within (signals (counting [.LANE_CUR, .LANE_STAT, .LANE_TXEQ, .LNK_CNT_FEC, .LNK_ERR, .LNK_RING_STAT, .LNK_STAT])) (signalled [.links, .timers]) s t) ∧
    (∀ (link : Fin 144) (lane : Fin 8) (count : BitVec 32) (skew : Nat) (restripe : Bool) (s : State), ∃ t : State, exec (.markerReceived link lane count skew restripe) s = .next t ∧
      Within (signals [.LANE_CUR, .LANE_STAT, .LANE_TXEQ, .LNK_ERR, .LNK_RING_STAT, .LNK_STAT]) (signalled [.links, .timers]) s t) ∧
    (∀ (link : Fin 144) (s : State), ∃ t : State, exec (.flowSend link) s = .next t ∧
      Within ([]) ([.freeValues, .links, .outputs]) s t) ∧
    (∀ (slot : Slot) (reason : BitVec 8) (s : State), ∃ t : State, exec (.expressStop slot reason) s = .next t ∧
      Within (signals [.LNK_CNT_EXP, .LNK_ERR]) (signalled [.links]) s t) ∧
    (∀ (slot : Slot) (postmark : BitVec 64) (s : State), ∃ t : State, exec (.expressGo slot postmark) s = .next t ∧
      Within (signals [.LNK_CNT_EXP, .LNK_ERR]) (signalled [.links]) s t) ∧
    (∀ (slot : Slot) (vl0 vl2 vl3 : BitVec 16) (s : State), ∃ t : State, exec (.expressFlow slot vl0 vl2 vl3) s = .next t ∧
      Within (signals (counting [.LNK_CNT_EXP, .LNK_CNT_LINK, .LNK_ERR, .PIN_GSTAT, .PIN_ICONF, .PIN_OCONF, .PIN_PLC_CTL, .SRT_CTL, .SRT_ERR, .SRT_STAT])) (signalled [.chans, .fires, .flying, .lease, .links, .pins, .plcs, .sorters, .trees]) s t) ∧
    (∀ (slot : Slot) (next : BitVec 32) (s : State), ∃ t : State, exec (.expressAck slot next) s = .next t ∧
      Within (signals (counting [.LNK_CNT_EXP, .LNK_CNT_LINK, .LNK_ERR, .LNK_RING_STAT, .LNK_STAT, .PIN_GSTAT, .PIN_ICONF, .PIN_OCONF, .PIN_PLC_CTL, .SRT_CTL, .SRT_ERR, .SRT_STAT])) (signalled [.chans, .fires, .flying, .lease, .links, .pins, .plcs, .sorters, .timers, .trees]) s t) ∧
    (∀ (slot : Slot) (missing : BitVec 32) (s : State), ∃ t : State, exec (.expressNak slot missing) s = .next t ∧
      Within (signals (counting [.LNK_CNT_EXP, .LNK_CNT_FLIT, .LNK_CNT_LINK, .LNK_ERR, .PIN_GSTAT, .PIN_ICONF, .PIN_OCONF, .PIN_PLC_CTL, .SRT_CTL, .SRT_ERR, .SRT_STAT])) (signalled [.chans, .fires, .flying, .lease, .links, .pins, .plcs, .sorters, .trees]) s t) ∧
    (∀ (slot : Slot) (turnaround : BitVec 32) (s : State), ∃ t : State, exec (.expressTiming slot turnaround) s = .next t ∧
      Within (signals [.LNK_CNT_EXP, .LNK_ERR]) (signalled [.links]) s t) ∧
    (∀ (slot : Slot) (turnaround : BitVec 32) (timing : BitVec 16) (arrived : BitVec 64) (lost : List Lost) (s : State), ∃ t : State, exec (.expressTimingReply slot turnaround timing arrived lost) s = .next t ∧
      Within (signals (counting [.DEV_XDROP, .LANE_CUR, .LANE_STAT, .LANE_TXEQ, .LNK_CABLE, .LNK_CNT_EXP, .LNK_CNT_FLIT, .LNK_CNT_LINK, .LNK_ERR, .LNK_LATENCY, .LNK_PARTNER_CAP, .LNK_PARTNER_PREP, .LNK_PARTNER_UID, .LNK_RING_STAT, .LNK_STAT, .PIN_GSTAT, .PIN_ICONF, .PIN_OCONF, .PIN_PLC_CTL, .SRT_CTL, .SRT_ERR, .SRT_STAT])) (signalled [.chans, .fires, .flying, .laneSkip, .laneTx, .lease, .links, .pins, .plcs, .sorters, .timers, .trees]) s t) ∧
    (∀ (slot : Slot) (s : State), ∃ t : State, exec (.expressRetrainReq slot) s = .next t ∧
      Within (signals [.LANE_CUR, .LANE_STAT, .LANE_TXEQ, .LNK_CNT_EXP, .LNK_ERR, .LNK_RING_STAT, .LNK_STAT]) (signalled [.links, .timers]) s t) ∧
    (∀ (slot : Slot) (mask : BitVec 8) (immediate : Bool) (missing : BitVec 32) (s : State), ∃ t : State, exec (.expressWidthReq slot mask immediate missing) s = .next t ∧
      Within (signals (counting [.LANE_CUR, .LANE_STAT, .LANE_TXEQ, .LNK_CNT_EXP, .LNK_CNT_FLIT, .LNK_ERR, .LNK_RING_STAT, .LNK_STAT])) (signalled [.links, .timers]) s t) ∧
    (∀ (slot : Slot) (mask : BitVec 8) (s : State), ∃ t : State, exec (.expressWidthAck slot mask) s = .next t ∧
      Within (signals [.LANE_CUR, .LANE_STAT, .LANE_TXEQ, .LNK_CNT_EXP, .LNK_ERR]) (signalled [.links, .timers]) s t) ∧
    (∀ (slot : Slot) (lost : List Lost) (s : State), ∃ t : State, exec (.expressLeave slot lost) s = .next t ∧
      Within (signals (counting [.DEV_XDROP, .LNK_CABLE, .LNK_CNT_EXP, .LNK_CNT_FLIT, .LNK_CNT_LINK, .LNK_ERR, .LNK_LATENCY, .LNK_PARTNER_CAP, .LNK_PARTNER_PREP, .LNK_PARTNER_UID, .LNK_RING_STAT, .LNK_STAT, .PIN_GSTAT, .PIN_ICONF, .PIN_OCONF, .PIN_PLC_CTL, .SRT_CTL, .SRT_ERR, .SRT_STAT])) (signalled [.chans, .fires, .flying, .laneSkip, .laneTx, .lease, .links, .pins, .plcs, .sorters, .timers, .trees]) s t) ∧
    (∀ (link : Fin 144) (s : State), ∃ t : State, exec (.ackSend link) s = .next t ∧
      Within ([]) ([.freeValues, .links, .outputs]) s t) ∧
    (∀ (link : Fin 144) (s : State), ∃ t : State, exec (.nakRepeat link) s = .next t ∧
      Within ([]) ([.freeValues, .links, .outputs, .timers]) s t) ∧
    (∀ (lane : Fin 140) (postmark : BitVec 64) (s : State), ∃ t : State, exec (.fireLineDeadline lane postmark) s = .next t ∧
      Within (signals (counting [.LNK_CNT_LINK, .LNK_ERR, .PIN_GSTAT, .PIN_ICONF, .PIN_OCONF, .PIN_PLC_CTL, .SRT_CTL, .SRT_ERR, .SRT_STAT])) (signalled [.chans, .fires, .flying, .laneSkip, .laneTx, .lease, .links, .pins, .plcs, .sorters, .trees]) s t) ∧
    (∀ (link : Fin 144) (blocked : Bool) (s : State), ∃ t : State, exec (.beaconSend link blocked) s = .next t ∧
      Within (signals (counting [.LNK_CNT_EXP, .LNK_ERR])) (signalled [.links]) s t) ∧
    (∀ (link : Fin 144) (s : State), ∃ t : State, exec (.timingSend link) s = .next t ∧
      Within ([]) ([.freeValues, .links, .outputs, .timers]) s t) ∧
    (∀ (link : Fin 144) (s : State), ∃ t : State, exec (.timingTimeout link) s = .next t ∧
      Within ([]) ([.links]) s t) ∧
    (∀ (link : Fin 144) (uid : BitVec 64) (lanes : TrainedLanes) (rate : BitVec 20) (lost : List Lost) (s : State), ∃ t : State, exec (.trainingFrameReceived link uid lanes rate lost) s = .next t ∧
      Within (signals (counting [.DEV_XDROP, .LANE_CUR, .LANE_STAT, .LANE_TXEQ, .LNK_CABLE, .LNK_CNT_FLIT, .LNK_CNT_LINK, .LNK_ERR, .LNK_LATENCY, .LNK_PARTNER_CAP, .LNK_PARTNER_PREP, .LNK_PARTNER_UID, .LNK_RING_STAT, .LNK_STAT, .PIN_GSTAT, .PIN_ICONF, .PIN_OCONF, .PIN_PLC_CTL, .SRT_CTL, .SRT_ERR, .SRT_STAT])) (signalled [.chans, .fires, .flying, .laneSkip, .laneTx, .lease, .links, .pins, .plcs, .sorters, .timers, .trees]) s t) ∧
    (∀ (link : Fin 144) (result : Equalized) (s : State), ∃ t : State, exec (.equalizeDone link result) s = .next t ∧
      Within ([.LANE_TXEQ, .LNK_RING_STAT, .LNK_STAT]) ([.links, .timers]) s t) ∧
    (∀ (link : Fin 144) (lanes : BitVec 8) (expects : BitVec 32) (s : State), ∃ t : State, exec (.alignDone link lanes expects) s = .next t ∧
      Within (signals (counting [.LNK_CNT_FLIT, .LNK_CNT_LINK, .LNK_ERR, .LNK_RING_STAT, .LNK_STAT, .PIN_GSTAT, .PIN_ICONF, .PIN_OCONF, .PIN_PLC_CTL, .SRT_CTL, .SRT_ERR, .SRT_STAT])) (signalled [.chans, .fires, .flying, .lease, .links, .pins, .plcs, .sorters, .timers, .trees]) s t) ∧
    (∀ (link : Fin 144) (cap : Capability) (lost : List Lost) (s : State), ∃ t : State, exec (.capabilityReceived link cap lost) s = .next t ∧
      Within (signals (counting [.DEV_XDROP, .LNK_CABLE, .LNK_CNT_FLIT, .LNK_CNT_LINK, .LNK_ERR, .LNK_LATENCY, .LNK_PARTNER_CAP, .LNK_PARTNER_PREP, .LNK_PARTNER_UID, .LNK_RING_STAT, .LNK_STAT, .PIN_GSTAT, .PIN_ICONF, .PIN_OCONF, .PIN_PLC_CTL, .SRT_CTL, .SRT_ERR, .SRT_STAT])) (signalled [.chans, .fires, .flying, .laneSkip, .laneTx, .lease, .links, .pins, .plcs, .sorters, .timers, .trees]) s t) ∧
    (∀ (link : Fin 144) (lost : List Lost) (s : State), ∃ t : State, exec (.linkStateTimeout link lost) s = .next t ∧
      Within (signals (counting [.DEV_XDROP, .LANE_CUR, .LANE_STAT, .LANE_TXEQ, .LNK_CABLE, .LNK_CNT_FLIT, .LNK_CNT_LINK, .LNK_ERR, .LNK_LATENCY, .LNK_PARTNER_CAP, .LNK_PARTNER_PREP, .LNK_PARTNER_UID, .LNK_RING_STAT, .LNK_STAT, .PIN_GSTAT, .PIN_ICONF, .PIN_OCONF, .PIN_PLC_CTL, .SRT_CTL, .SRT_ERR, .SRT_STAT])) (signalled [.chans, .fires, .flying, .laneSkip, .laneTx, .lease, .links, .pins, .plcs, .sorters, .timers, .trees]) s t) ∧
    (∀ (port : Port) (link : Fin 144) (s : State), ∃ t : State, exec (.lnkCmdRetrain port link) s = .next t ∧
      Within (signals (errors [.LANE_CUR, .LANE_STAT, .LANE_TXEQ, .LNK_ERR, .LNK_RING_STAT, .LNK_STAT])) (signalled [.crossings, .links, .timers, .waiting]) s t) ∧
    (∀ (port : Port) (link : Fin 144) (mask : BitVec 8) (s : State), ∃ t : State, exec (.lnkCmdWidth port link mask) s = .next t ∧
      Within (signals (errors [.LANE_CUR, .LANE_STAT, .LANE_TXEQ, .LNK_ERR, .LNK_RING_STAT, .LNK_STAT])) (signalled [.crossings, .links, .timers, .waiting]) s t) ∧
    (∀ (link : Fin 144) (s : State), ∃ t : State, exec (.widthReqResend link) s = .next t ∧
      Within (signals [.LANE_CUR, .LANE_STAT, .LANE_TXEQ, .LNK_ERR, .LNK_RING_STAT, .LNK_STAT]) (signalled [.links, .timers]) s t) ∧
    (∀ (link : Fin 144) (aligned : Equalized) (s : State), ∃ t : State, exec (.widthLanesAdded link aligned) s = .next t ∧
      Within (signals [.LANE_TXEQ, .LNK_ERR]) (signalled [.links]) s t) ∧
    (∀ (link : Fin 144) (s : State), ∃ t : State, exec (.widthSwitchMarker link) s = .next t ∧
      Within (signals [.LANE_CUR, .LANE_STAT, .LANE_TXEQ, .LNK_ERR, .LNK_RING_STAT, .LNK_STAT]) (signalled [.links, .timers]) s t) ∧
    (∀ (link : Fin 144) (lanes : BitVec 8) (s : State), ∃ t : State, exec (.laneFailure link lanes) s = .next t ∧
      Within (signals [.LANE_CUR, .LANE_STAT, .LANE_TXEQ, .LNK_ERR, .LNK_RING_STAT, .LNK_STAT]) (signalled [.links, .timers]) s t) ∧
    (∀ (link : Fin 144) (s : State), ∃ t : State, exec (.linkSilenceTimeout link) s = .next t ∧
      Within (signals [.LANE_CUR, .LANE_STAT, .LANE_TXEQ, .LNK_ERR, .LNK_RING_STAT, .LNK_STAT]) (signalled [.links, .timers]) s t) ∧
    (∀ (link : Fin 144) (s : State), ∃ t : State, exec (.backoffExpired link) s = .next t ∧
      Within ([.LANE_CUR, .LNK_RING_STAT, .LNK_STAT]) ([.links, .outputs, .timers]) s t) ∧
    (∀ (link : Fin 144) (s : State), ∃ t : State, exec (.activeHeld link) s = .next t ∧
      Within ([.LNK_STAT]) ([]) s t) ∧
    (∀ (port : Port) (link : Fin 144) (which : Fin 4) (s : State), ∃ t : State, exec (.lnkCntRead port link which) s = .next t ∧
      Within (signals (errors [.LNK_CNT_EXP, .LNK_CNT_FEC, .LNK_CNT_FLIT, .LNK_CNT_LINK])) (signalled [.crossings, .waiting]) s t) ∧
    (∀ (lane : Fin 144) (s : State), ∃ t : State, exec (.laneRejoin lane) s = .next t ∧
      Within (signals [.LNK_ERR]) (signalled [.links, .timers]) s t)

/-- O17. What the commands of configuration leave as it was. Each of these commands answers a next state that differs from the state before it at most in the registers and the parts of the state that its clause lists: every other register field of the map and every other part (memories, queues, tables) is unchanged. The commands: FLIT_RECEIVED, IMAGE_STREAM_DONE, CFG_RELEASE, CFG_DONE_HIGH, DONE_WAIT_TIMEOUT, BROADCAST_WAIT_TIMEOUT, BROADCAST_POLL_RECEIVED, BROADCAST_GAP_TIMEOUT, BROADCAST_ANSWER_RECEIVED, BROADCAST_POLL_TIMEOUT. -/
def Obligations.FrameOfConfiguration : Prop :=
  (∀ (link : Fin 144) (flit : RxFlit) (s : State), ∃ t : State, exec (.flitReceived link flit) s = .next t ∧
      Within (signals (counting (errors [.CFG_AGT_STAT, .CFG_BM_STAT, .CFG_DESIGN, .CFG_FAB_STAT, .CFG_ISO_CNT, .CFG_NVM_STAT, .CFG_RGN_STAT, .CFG_SRC, .CFG_STAT, .CFG_TREE_STAT, .CFG_XSTAT, .DEV_FRK_MISS, .DEV_FRK_STAT, .DEV_ISL_HELD, .DEV_RGN_ACCESS, .DEV_XDROP, .LANE_CTL, .LANE_CUR, .LANE_ERR, .LANE_RATE, .LANE_STAT, .LNK_CABLE, .LNK_CNT_EXP, .LNK_CNT_FLIT, .LNK_CNT_LINK, .LNK_CTL, .LNK_ERR, .LNK_LATENCY, .LNK_PARTNER_CAP, .LNK_PARTNER_PREP, .LNK_PARTNER_UID, .LNK_RING_CTL, .LNK_RING_REACH, .LNK_RING_STAT, .LNK_RING_STOPSRC, .LNK_RING_WEIGHT, .LNK_STAT, .MEM_HOME_STAT, .MEM_STK_ECNT, .MEM_STK_ERR, .MEM_STK_ERRADDR, .PIN_GSTAT, .PIN_ICONF, .PIN_OCONF, .PIN_OMAP, .PIN_PLC_CTL, .PIN_PLC_STAT, .POS_AX_EPOCH, .POS_AX_FLT, .POS_AX_HWM, .POS_AX_LOAD, .POS_AX_LOSTCNT, .POS_AX_POS, .POS_AX_STAT, .POS_AX_VEL, .PST_FW_STAT, .PST_LOCK, .PST_MB_REQ, .SEAL_LINE_CNT, .SEAL_LINE_ERR, .SEAL_LINE_ERRADDR, .SRT_CTL, .SRT_ERR, .SRT_FLUSH_CNT, .SRT_HEAD, .SRT_STAT]))) (signalled [.arbiters, .axes, .bms, .cells, .chans, .config, .crossings, .elements, .fires, .flying, .franker, .gates, .insWords, .isos, .laneSkip, .laneTx, .lease, .links, .memo, .pins, .plcs, .resets, .restoring, .rings, .samplers, .seals, .shadows, .sorters, .store, .strobeAt, .svc, .taken, .taps, .timers, .trees, .waiting, .words]) s t) ∧
    (∀ (facts : ImageFacts) (body : FullBody) (s : State), ∃ t : State, exec (.imageStreamDone facts body) s = .next t ∧
      Within (signals (counting (errors [.CFG_AGT_STAT, .CFG_BM_STAT, .CFG_DESIGN, .CFG_FAB_STAT, .CFG_FAIL, .CFG_ISO_CNT, .CFG_NVM_CNT, .CFG_NVM_ERR, .CFG_NVM_STAT, .CFG_NVM_WEAR, .CFG_RGN_STAT, .CFG_SRC, .CFG_STAT, .CFG_TREE_STAT, .CFG_XSPI, .CFG_XSTAT, .DEV_FRK_CTR, .DEV_FRK_MISS, .DEV_FRK_REC, .DEV_FRK_STAT, .DEV_ISL_HELD, .DEV_ISL_RST, .DEV_ISL_RUN, .DEV_ISL_STOP, .DEV_OCT_CLK, .DEV_OCT_CTL, .DEV_OCT_PROTO, .DEV_OCT_STAT, .DEV_RGN_ACCESS, .DEV_ST_STAT, .DEV_XDROP, .LANE_CNT, .LANE_CTL, .LANE_CUR, .LANE_DFE, .LANE_EP_STAT, .LANE_ERR, .LANE_ETH_CNT, .LANE_ETH_RXRD, .LANE_ETH_RXWR, .LANE_ETH_STAT, .LANE_ETH_TXRD, .LANE_ETH_TXWR, .LANE_RATE, .LANE_RP_STAT, .LANE_RXEQ, .LANE_STAT, .LANE_TXEQ, .LNK_CABLE, .LNK_CNT_FLIT, .LNK_CNT_LINK, .LNK_CTL, .LNK_ERR, .LNK_LATENCY, .LNK_PARTNER_CAP, .LNK_PARTNER_PREP, .LNK_PARTNER_UID, .LNK_RING_CTL, .LNK_RING_REACH, .LNK_RING_STAT, .LNK_RING_STOPSRC, .LNK_RING_WEIGHT, .LNK_STAT, .MEM_HOME_CNT, .MEM_HOME_STAT, .MEM_STK_ECNT, .MEM_STK_ERR, .MEM_STK_ERRADDR, .MEM_STK_STAT, .PERF_SEL, .PIN_BANK_CTL, .PIN_BANK_STAT, .PIN_CAL_CMD, .PIN_GSTAT, .PIN_ICONF, .PIN_IN, .PIN_LOCK, .PIN_OCONF, .PIN_OMAP, .PIN_PLC_CNT, .PIN_PLC_CTL, .PIN_PLC_STAT, .PIN_PWM_HI, .PIN_PWM_PER, .POS_AX_CTL, .POS_AX_EPOCH, .POS_AX_FLT, .POS_AX_HWM, .POS_AX_LOAD, .POS_AX_LOSTCNT, .POS_AX_POS, .POS_AX_SNAP, .POS_AX_SNAP_EPOCH, .POS_AX_STAT, .POS_AX_VEL, .POS_SNAP_TB, .POS_STRB_BASE, .PST_FW_STAT, .PST_LOCK, .PST_LOCK_ERR, .PST_MB_OWNER, .PST_MB_REQ, .PWR_EXT, .PWR_RGN_CTL, .PWR_RGN_STAT, .PWR_STATE, .SEAL_GRAN, .SEAL_GRAN_RES, .SEAL_LINE_CNT, .SEAL_LINE_ERR, .SEAL_LINE_ERRADDR, .SEAL_LINE_STAT, .SEAL_STORE_STAT, .SRT_CTL, .SRT_ERR, .SRT_FLUSH_CNT, .SRT_HEAD, .SRT_STAT, .TST_TAP_STAT]))) (signalled [.arbiters, .axes, .bms, .cells, .chans, .config, .crossings, .elements, .fires, .flying, .franker, .gates, .images, .insRes, .insWords, .isoAbsorb, .isos, .laneSkip, .laneTx, .lease, .links, .memo, .pins, .plcs, .ports, .power, .resets, .restoring, .rings, .samplers, .seals, .secure, .shadows, .sorters, .store, .strobeAt, .svc, .taken, .taps, .timers, .trees, .uclkUse, .waiting, .words]) s t) ∧
    (∀ (s : State), ∃ t : State, exec .cfgRelease s = .next t ∧
      Within ([.CFG_STAT, .EVT_LOG_LOST, .EVT_LOG_STAT]) ([.evt, .outputs, .timers]) s t) ∧
    (∀ (outcomes : List (Fin 32 × Fin 3)) (s : State), ∃ t : State, exec (.cfgDoneHigh outcomes) s = .next t ∧
      Within (signals (counting [.CFG_BM_STAT, .CFG_FAB_STAT, .CFG_ISO_CNT, .CFG_NVM_STAT, .CFG_RGN_STAT, .CFG_STAT, .CFG_TREE_STAT, .DEV_XDROP, .PIN_GSTAT, .PIN_ICONF, .PIN_OCONF, .PIN_PLC_CTL, .PST_FW_STAT, .PST_LOCK, .PST_MB_REQ, .SRT_CTL, .SRT_STAT])) (signalled [.arbiters, .bms, .cells, .chans, .config, .crossings, .elements, .flying, .gates, .isos, .links, .monitors, .pins, .plcs, .power, .resets, .restoring, .sorters, .store, .svc, .taken, .taps, .trees, .waiting, .words]) s t) ∧
    (∀ (s : State), ∃ t : State, exec .doneWaitTimeout s = .next t ∧
      Within (signals [.CFG_STAT]) (signalled []) s t) ∧
    (∀ (s : State), ∃ t : State, exec .broadcastWaitTimeout s = .next t ∧
      Within (signals (counting (errors [.CFG_AGT_STAT, .CFG_BM_STAT, .CFG_DESIGN, .CFG_FAB_STAT, .CFG_ISO_CNT, .CFG_NVM_STAT, .CFG_RGN_STAT, .CFG_SRC, .CFG_STAT, .CFG_TREE_STAT, .CFG_XSTAT, .DEV_FRK_MISS, .DEV_FRK_STAT, .DEV_ISL_HELD, .DEV_RGN_ACCESS, .DEV_XDROP, .LANE_CTL, .LANE_CUR, .LANE_ERR, .LANE_RATE, .LANE_STAT, .LNK_CABLE, .LNK_CNT_FLIT, .LNK_CNT_LINK, .LNK_CTL, .LNK_ERR, .LNK_LATENCY, .LNK_PARTNER_CAP, .LNK_PARTNER_PREP, .LNK_PARTNER_UID, .LNK_RING_CTL, .LNK_RING_REACH, .LNK_RING_STAT, .LNK_RING_STOPSRC, .LNK_RING_WEIGHT, .LNK_STAT, .MEM_HOME_STAT, .MEM_STK_ECNT, .MEM_STK_ERR, .MEM_STK_ERRADDR, .PIN_GSTAT, .PIN_ICONF, .PIN_OCONF, .PIN_OMAP, .PIN_PLC_CTL, .PIN_PLC_STAT, .POS_AX_EPOCH, .POS_AX_FLT, .POS_AX_HWM, .POS_AX_LOAD, .POS_AX_LOSTCNT, .POS_AX_POS, .POS_AX_STAT, .POS_AX_VEL, .PST_FW_STAT, .PST_LOCK, .PST_MB_REQ, .SEAL_LINE_CNT, .SEAL_LINE_ERR, .SEAL_LINE_ERRADDR, .SRT_CTL, .SRT_ERR, .SRT_FLUSH_CNT, .SRT_HEAD, .SRT_STAT]))) (signalled [.arbiters, .axes, .bms, .cells, .chans, .config, .crossings, .elements, .fires, .flying, .franker, .gates, .insWords, .isos, .laneSkip, .laneTx, .lease, .links, .memo, .pins, .plcs, .resets, .restoring, .rings, .samplers, .seals, .shadows, .sorters, .store, .strobeAt, .svc, .taken, .taps, .timers, .trees, .waiting, .words]) s t) ∧
    (∀ (ring : Fin 2) (key : BitVec 8) (s : State), ∃ t : State, exec (.broadcastPollReceived ring key) s = .next t ∧
      Within (signals (counting [])) (signalled [.config, .links]) s t) ∧
    (∀ (s : State), ∃ t : State, exec .broadcastGapTimeout s = .next t ∧
      Within (signals (counting (errors [.CFG_BM_STAT, .CFG_DESIGN, .CFG_FAB_STAT, .CFG_FAIL, .CFG_ISO_CNT, .CFG_NVM_STAT, .CFG_RGN_STAT, .CFG_SRC, .CFG_STAT, .CFG_TREE_STAT, .DEV_FRK_CTR, .DEV_FRK_STAT, .DEV_OCT_PROTO, .DEV_OCT_STAT, .DEV_XDROP, .LANE_CTL, .LANE_CUR, .LANE_ERR, .LANE_RATE, .LANE_STAT, .LNK_CABLE, .LNK_CNT_FLIT, .LNK_CNT_LINK, .LNK_CTL, .LNK_ERR, .LNK_LATENCY, .LNK_PARTNER_CAP, .LNK_PARTNER_PREP, .LNK_PARTNER_UID, .LNK_RING_CTL, .LNK_RING_REACH, .LNK_RING_STAT, .LNK_RING_STOPSRC, .LNK_RING_WEIGHT, .LNK_STAT, .PIN_GSTAT, .PIN_ICONF, .PIN_OCONF, .PIN_OMAP, .PIN_PLC_CTL, .PIN_PLC_STAT, .POS_AX_EPOCH, .POS_AX_FLT, .POS_AX_HWM, .POS_AX_LOAD, .POS_AX_LOSTCNT, .POS_AX_POS, .POS_AX_STAT, .POS_AX_VEL, .PST_FW_STAT, .PST_LOCK, .PST_MB_REQ, .PWR_RGN_STAT, .SRT_CTL, .SRT_ERR, .SRT_STAT]))) (signalled [.arbiters, .axes, .bms, .cells, .chans, .config, .crossings, .elements, .fires, .flying, .franker, .gates, .images, .isos, .laneSkip, .laneTx, .lease, .links, .pins, .plcs, .ports, .resets, .restoring, .rings, .sorters, .store, .strobeAt, .svc, .taken, .taps, .timers, .trees, .uclkUse, .waiting, .words]) s t) ∧
    (∀ (ring : Fin 2) (member : Fin 32) (accept : Bool) (s : State), ∃ t : State, exec (.broadcastAnswerReceived ring member accept) s = .next t ∧
      Within (signals (counting [])) (signalled [.config, .links, .svc]) s t) ∧
    (∀ (s : State), ∃ t : State, exec .broadcastPollTimeout s = .next t ∧
      Within (signals (counting [])) (signalled [.config, .svc]) s t)

/-- O18. What the commands of store leave as it was. Each of these commands answers a next state that differs from the state before it at most in the registers and the parts of the state that its clause lists: every other register field of the map and every other part (memories, queues, tables) is unchanged. The commands: COMMIT_START, COMMIT_FLUSH_DONE, COMMIT_DONE, STORE_BLOCK_READ, SEAL_STORE_CNT_READ, STORE_QUERY, STORE_FORMAT, STORE_VOL_CREATE, STORE_VOL_RESIZE, STORE_VOL_DELETE, STORE_VOL_OPEN, STORE_VOL_CLOSE, STORE_READ, STORE_WRITE, STORE_IO_COMPLETE, STORE_FLUSH, STORE_SET_COMMIT, SEAL_CONVERT, SEAL_QUERY, SEAL_POOL, DRIVE_WRITE_DONE. -/
def Obligations.FrameOfStore : Prop :=
  (∀ (uid : BitVec 64) (s : State), ∃ t : State, exec (.commitStart uid) s = .next t ∧
      Within (signals [.SEAL_STORE_STAT]) (signalled [.store, .svc]) s t) ∧
    (∀ (uid : BitVec 64) (ok : Bool) (s : State), ∃ t : State, exec (.commitFlushDone uid ok) s = .next t ∧
      Within (signals (counting [.SEAL_STORE_ERR, .SEAL_STORE_ERRVOL, .SEAL_STORE_STAT])) (signalled [.store, .svc]) s t) ∧
    (∀ (uid : BitVec 64) (s : State), ∃ t : State, exec (.commitDone uid) s = .next t ∧
      Within (signals (counting [.CFG_NVM_ERR, .CFG_NVM_STAT, .CFG_NVM_WEAR, .SEAL_STORE_ERR, .SEAL_STORE_ERRVOL, .SEAL_STORE_STAT])) (signalled [.config, .store, .svc]) s t) ∧
    (∀ (uid : BitVec 64) (block : BitVec 36) (content : DriveRead) (s : State), ∃ t : State, exec (.storeBlockRead uid block content) s = .next t ∧
      Within (signals (counting [.CFG_AGT_STAT, .LANE_ETH_RXWR, .MEM_HOME_CNT, .MEM_HOME_STAT, .MEM_STK_ECNT, .MEM_STK_ERR, .MEM_STK_ERRADDR, .SEAL_LINE_CNT, .SEAL_LINE_ERR, .SEAL_LINE_ERRADDR, .SEAL_STORE_CNT, .SEAL_STORE_ERR, .SEAL_STORE_ERRVOL])) (signalled [.crossings, .memo, .seals, .store, .svc]) s t) ∧
    (∀ (port : Port) (s : State), ∃ t : State, exec (.sealStoreCntRead port) s = .next t ∧
      Within (signals (errors [.SEAL_STORE_CNT])) (signalled [.crossings, .waiting]) s t) ∧
    (∀ (letter : Letter) (s : State), ∃ t : State, exec (.storeQuery letter) s = .next t ∧
      Within (signals (counting [])) (signalled []) s t) ∧
    (∀ (letter : Letter) (s : State), ∃ t : State, exec (.storeFormat letter) s = .next t ∧
      Within (signals (counting [])) (signalled [.svc]) s t) ∧
    (∀ (letter : Letter) (s : State), ∃ t : State, exec (.storeVolCreate letter) s = .next t ∧
      Within (signals (counting [])) (signalled [.svc]) s t) ∧
    (∀ (letter : Letter) (s : State), ∃ t : State, exec (.storeVolResize letter) s = .next t ∧
      Within (signals (counting [])) (signalled [.svc]) s t) ∧
    (∀ (letter : Letter) (s : State), ∃ t : State, exec (.storeVolDelete letter) s = .next t ∧
      Within (signals (counting [])) (signalled [.svc]) s t) ∧
    (∀ (letter : Letter) (s : State), ∃ t : State, exec (.storeVolOpen letter) s = .next t ∧
      Within (signals (counting [])) (signalled [.store, .svc]) s t) ∧
    (∀ (letter : Letter) (s : State), ∃ t : State, exec (.storeVolClose letter) s = .next t ∧
      Within (signals (counting [])) (signalled [.store, .svc]) s t) ∧
    (∀ (letter : Letter) (s : State), ∃ t : State, exec (.storeRead letter) s = .next t ∧
      Within (signals (counting [])) (signalled [.svc]) s t) ∧
    (∀ (letter : Letter) (s : State), ∃ t : State, exec (.storeWrite letter) s = .next t ∧
      Within (signals (counting [])) (signalled [.svc]) s t) ∧
    (∀ (e : IoEnd) (s : State), ∃ t : State, exec (.storeIoComplete e) s = .next t ∧
      Within (signals (counting [.MEM_STK_ECNT, .MEM_STK_ERR, .MEM_STK_ERRADDR, .SEAL_LINE_CNT, .SEAL_LINE_ERR, .SEAL_LINE_ERRADDR, .SEAL_STORE_STAT])) (signalled [.seals, .store, .svc]) s t) ∧
    (∀ (letter : Letter) (s : State), ∃ t : State, exec (.storeFlush letter) s = .next t ∧
      Within (signals (counting [])) (signalled [.svc]) s t) ∧
    (∀ (letter : Letter) (s : State), ∃ t : State, exec (.storeSetCommit letter) s = .next t ∧
      Within (signals (counting [.SEAL_STORE_STAT])) (signalled [.store]) s t) ∧
    (∀ (letter : Letter) (s : State), ∃ t : State, exec (.sealConvert letter) s = .next t ∧
      Within (signals (counting [.MEM_HOME_CNT, .SEAL_GRAN, .SEAL_GRAN_RES, .SEAL_LINE_STAT])) (signalled [.crossings, .memo, .seals, .svc]) s t) ∧
    (∀ (letter : Letter) (s : State), ∃ t : State, exec (.sealQuery letter) s = .next t ∧
      Within (signals (counting [])) (signalled []) s t) ∧
    (∀ (letter : Letter) (s : State), ∃ t : State, exec (.sealPool letter) s = .next t ∧
      Within (signals (counting [])) (signalled [.seals]) s t) ∧
    (∀ (w : DriveWrite) (ok : Bool) (s : State), ∃ t : State, exec (.driveWriteDone w ok) s = .next t ∧
      Within (signals (counting [.CFG_NVM_ERR, .CFG_NVM_STAT, .CFG_NVM_WEAR, .SEAL_STORE_ERR, .SEAL_STORE_ERRVOL, .SEAL_STORE_STAT])) (signalled [.config, .store, .svc]) s t)

/-- O19. What the commands of services leave as it was. Each of these commands answers a next state that differs from the state before it at most in the registers and the parts of the state that its clause lists: every other register field of the map and every other part (memories, queues, tables) is unchanged. The commands: CONFIG_SLOTS, CONFIG_WRITE, CONFIG_WRITE_COMPLETE, CONFIG_SELECT, CONFIG_RELOAD, CONFIG_BROADCAST, AXIS_SETUP, AXIS_START, AXIS_STOP, AXIS_RECOVER, AXIS_QUERY, PIN_CALIBRATE, PIN_HEATER_SET, PIN_HEATER_QUERY, HEATER_PERIOD, HEATER_ALARM, LINK_ETH_QUEUE, LINK_ETH_STEER, LINK_QUERY, NVM_ERASE_DONE, NVM_ERASE_RESUME. -/
def Obligations.FrameOfServices : Prop :=
  (∀ (letter : Letter) (s : State), ∃ t : State, exec (.configSlots letter) s = .next t ∧
      Within (signals (counting [])) (signalled []) s t) ∧
    (∀ (letter : Letter) (s : State), ∃ t : State, exec (.configWrite letter) s = .next t ∧
      Within (signals (counting [.CFG_NVM_ERR, .CFG_NVM_STAT, .CFG_NVM_WEAR])) (signalled [.config, .svc]) s t) ∧
    (∀ (facts : ImageFacts) (s : State), ∃ t : State, exec (.configWriteComplete facts) s = .next t ∧
      Within (signals (counting [.CFG_FAIL, .CFG_NVM_CNT, .CFG_NVM_ERR, .CFG_NVM_STAT, .CFG_NVM_WEAR, .CFG_XSPI])) (signalled [.config, .svc]) s t) ∧
    (∀ (letter : Letter) (s : State), ∃ t : State, exec (.configSelect letter) s = .next t ∧
      Within (signals (counting [])) (signalled [.config]) s t) ∧
    (∀ (letter : Letter) (s : State), ∃ t : State, exec (.configReload letter) s = .next t ∧
      Within (signals (counting (errors [.CFG_AGT_STAT, .CFG_BM_STAT, .CFG_DESIGN, .CFG_FAB_STAT, .CFG_ISO_CNT, .CFG_NVM_STAT, .CFG_RGN_STAT, .CFG_SRC, .CFG_STAT, .CFG_TREE_STAT, .CFG_XSTAT, .DEV_FRK_MISS, .DEV_FRK_STAT, .DEV_ISL_HELD, .DEV_RGN_ACCESS, .DEV_XDROP, .LANE_CTL, .LANE_CUR, .LANE_ERR, .LANE_RATE, .LANE_STAT, .LNK_CABLE, .LNK_CNT_FLIT, .LNK_CNT_LINK, .LNK_CTL, .LNK_ERR, .LNK_LATENCY, .LNK_PARTNER_CAP, .LNK_PARTNER_PREP, .LNK_PARTNER_UID, .LNK_RING_CTL, .LNK_RING_REACH, .LNK_RING_STAT, .LNK_RING_STOPSRC, .LNK_RING_WEIGHT, .LNK_STAT, .MEM_HOME_STAT, .MEM_STK_ECNT, .MEM_STK_ERR, .MEM_STK_ERRADDR, .PIN_GSTAT, .PIN_ICONF, .PIN_OCONF, .PIN_OMAP, .PIN_PLC_CTL, .PIN_PLC_STAT, .POS_AX_EPOCH, .POS_AX_FLT, .POS_AX_HWM, .POS_AX_LOAD, .POS_AX_LOSTCNT, .POS_AX_POS, .POS_AX_STAT, .POS_AX_VEL, .PST_FW_STAT, .PST_LOCK, .PST_MB_REQ, .SEAL_LINE_CNT, .SEAL_LINE_ERR, .SEAL_LINE_ERRADDR, .SRT_CTL, .SRT_ERR, .SRT_FLUSH_CNT, .SRT_HEAD, .SRT_STAT]))) (signalled [.arbiters, .axes, .bms, .cells, .chans, .config, .crossings, .elements, .fires, .flying, .franker, .gates, .insWords, .isos, .laneSkip, .laneTx, .lease, .links, .memo, .pins, .plcs, .resets, .restoring, .rings, .samplers, .seals, .shadows, .sorters, .store, .strobeAt, .svc, .taken, .taps, .timers, .trees, .waiting, .words]) s t) ∧
    (∀ (letter : Letter) (s : State), ∃ t : State, exec (.configBroadcast letter) s = .next t ∧
      Within (signals (counting [])) (signalled [.config, .links, .svc, .timers]) s t) ∧
    (∀ (letter : Letter) (s : State), ∃ t : State, exec (.axisSetup letter) s = .next t ∧
      Within (signals (counting [.POS_AX_CTL, .POS_AX_DR, .POS_AX_DRTIME, .POS_AX_FOLLOW, .POS_AX_STAT, .POS_AX_TUNE, .POS_AX_VACC, .POS_AX_VMIN, .POS_AX_VSPEED, .POS_AX_ZPERIOD, .POS_AX_ZTOL])) (signalled [.svc]) s t) ∧
    (∀ (letter : Letter) (s : State), ∃ t : State, exec (.axisStart letter) s = .next t ∧
      Within (signals (counting [.DEV_FRK_STAT, .LNK_RING_STAT, .LNK_RING_STOPSRC, .PIN_GSTAT, .PIN_ICONF, .PIN_OCONF, .PIN_PLC_CTL, .POS_AX_EPOCH, .POS_AX_FLT, .POS_AX_HWM, .POS_AX_LOAD, .POS_AX_LOAD_EPOCH, .POS_AX_LOSTCNT, .POS_AX_POS, .POS_AX_STAT, .POS_AX_VEL, .SRT_CTL, .SRT_STAT])) (signalled [.axes, .chans, .flying, .links, .pins, .plcs, .rings, .sorters, .strobeAt, .svc, .trees]) s t) ∧
    (∀ (letter : Letter) (s : State), ∃ t : State, exec (.axisStop letter) s = .next t ∧
      Within (signals (counting [.DEV_FRK_STAT, .PIN_GSTAT, .PIN_ICONF, .PIN_OCONF, .PIN_PLC_CTL, .POS_AX_STAT, .SRT_CTL, .SRT_STAT])) (signalled [.chans, .flying, .links, .pins, .plcs, .sorters, .svc, .trees]) s t) ∧
    (∀ (letter : Letter) (s : State), ∃ t : State, exec (.axisRecover letter) s = .next t ∧
      Within (signals (counting [.DEV_FRK_STAT, .LNK_RING_STAT, .LNK_RING_STOPSRC, .PIN_GSTAT, .PIN_ICONF, .PIN_OCONF, .PIN_PLC_CTL, .POS_AX_EPOCH, .POS_AX_FLT, .POS_AX_HWM, .POS_AX_LOAD, .POS_AX_LOAD_EPOCH, .POS_AX_LOSTCNT, .POS_AX_POS, .POS_AX_STAT, .POS_AX_VEL, .SRT_CTL, .SRT_STAT])) (signalled [.axes, .chans, .flying, .links, .pins, .plcs, .rings, .sorters, .strobeAt, .svc, .trees]) s t) ∧
    (∀ (letter : Letter) (s : State), ∃ t : State, exec (.axisQuery letter) s = .next t ∧
      Within (signals (counting [])) (signalled [.svc]) s t) ∧
    (∀ (letter : Letter) (s : State), ∃ t : State, exec (.pinCalibrate letter) s = .next t ∧
      Within (signals (counting [.PIN_CAL_CMD])) (signalled [.pins, .svc]) s t) ∧
    (∀ (letter : Letter) (s : State), ∃ t : State, exec (.pinHeaterSet letter) s = .next t ∧
      Within (signals (counting [.PIN_GSTAT, .PIN_ICONF, .PIN_OCONF, .PIN_PWM_PER])) (signalled [.flying, .heaters, .pins, .svc, .trees]) s t) ∧
    (∀ (letter : Letter) (s : State), ∃ t : State, exec (.pinHeaterQuery letter) s = .next t ∧
      Within (signals (counting [])) (signalled []) s t) ∧
    (∀ (loop : Fin 32) (s : State), ∃ t : State, exec (.heaterPeriod loop) s = .next t ∧
      Within (signals [.PIN_PWM_HI, .PIN_PWM_PER]) (signalled [.heaters, .pins]) s t) ∧
    (∀ (loop : Fin 32) (s : State), ∃ t : State, exec (.heaterAlarm loop) s = .next t ∧
      Within (signals []) (signalled [.heaters]) s t) ∧
    (∀ (letter : Letter) (s : State), ∃ t : State, exec (.linkEthQueue letter) s = .next t ∧
      Within (signals (counting [])) (signalled [.ports, .svc]) s t) ∧
    (∀ (letter : Letter) (s : State), ∃ t : State, exec (.linkEthSteer letter) s = .next t ∧
      Within (signals (counting [])) (signalled [.ports, .svc]) s t) ∧
    (∀ (letter : Letter) (s : State), ∃ t : State, exec (.linkQuery letter) s = .next t ∧
      Within (signals (counting [])) (signalled [.svc]) s t) ∧
    (∀ (block : Fin 4014) (verified : Bool) (s : State), ∃ t : State, exec (.nvmEraseDone block verified) s = .next t ∧
      Within (signals [.CFG_NVM_ERR, .CFG_NVM_STAT, .CFG_NVM_WEAR]) (signalled [.config]) s t) ∧
    (∀ (s : State), ∃ t : State, exec .nvmEraseResume s = .next t ∧
      Within ([.CFG_NVM_STAT]) ([]) s t)

/-- O20. What the commands of security leave as it was. Each of these commands answers a next state that differs from the state before it at most in the registers and the parts of the state that its clause lists: every other register field of the map and every other part (memories, queues, tables) is unchanged. The commands: TEST_SET_BUDGET, TEST_QUERY, TEST_RUN, KEY_STATUS, KEY_AUDIT_EXPORT, KEY_AUDIT_ROTATE, KEY_PROVISION, KEY_LOCK, KEY_RETURN, KEY_SCRAP, KEY_GOLDEN_WRITE, RNG_STARTUP_TEST_DONE, RNG_HEALTH_FAIL, RNG_RESEED, TAP_INSTRUCTION, TAP_SCAN, TAP_DEBUG_ACCESS, SELF_TEST_SLICE_DONE, TEST_LOGIC_RESET. -/
def Obligations.FrameOfSecurity : Prop :=
  (∀ (letter : Letter) (s : State), ∃ t : State, exec (.testSetBudget letter) s = .next t ∧
      Within (signals (counting [])) (signalled [.secure]) s t) ∧
    (∀ (letter : Letter) (s : State), ∃ t : State, exec (.testQuery letter) s = .next t ∧
      Within (signals (counting [])) (signalled []) s t) ∧
    (∀ (letter : Letter) (s : State), ∃ t : State, exec (.testRun letter) s = .next t ∧
      Within (signals (counting [.CFG_AGT_STAT, .CFG_BM_STAT, .CFG_FAB_STAT, .CFG_ISO_CNT, .CFG_RGN_STAT, .CFG_TREE_STAT, .DEV_ST_STAT, .DEV_XDROP, .LANE_CNT, .LANE_CUR, .LANE_DFE, .LANE_ETH_RXWR, .LANE_RXEQ, .LANE_STAT, .LANE_TXEQ, .LNK_CABLE, .LNK_CNT_FLIT, .LNK_CNT_LINK, .LNK_ERR, .LNK_LATENCY, .LNK_PARTNER_CAP, .LNK_PARTNER_PREP, .LNK_PARTNER_UID, .LNK_RING_STAT, .LNK_STAT, .MEM_HOME_CNT, .MEM_HOME_STAT, .MEM_STK_ECNT, .MEM_STK_ERR, .MEM_STK_ERRADDR, .PIN_GSTAT, .PIN_ICONF, .PIN_OCONF, .PIN_PLC_CNT, .PIN_PLC_CTL, .PIN_PLC_STAT, .PST_FW_STAT, .PST_LOCK, .PST_MB_REQ, .SEAL_LINE_CNT, .SEAL_LINE_ERR, .SEAL_LINE_ERRADDR, .SRT_CTL, .SRT_ERR, .SRT_FLUSH_CNT, .SRT_STAT])) (signalled [.arbiters, .bms, .cells, .chans, .config, .crossings, .elements, .fires, .flying, .gates, .isos, .laneSkip, .laneTx, .lease, .links, .memo, .pins, .plcs, .seals, .secure, .sorters, .store, .svc, .taken, .taps, .timers, .trees, .waiting, .words]) s t) ∧
    (∀ (letter : Letter) (s : State), ∃ t : State, exec (.keyStatus letter) s = .next t ∧
      Within (signals (counting [])) (signalled []) s t) ∧
    (∀ (letter : Letter) (s : State), ∃ t : State, exec (.keyAuditExport letter) s = .next t ∧
      Within (signals (counting [])) (signalled []) s t) ∧
    (∀ (letter : Letter) (s : State), ∃ t : State, exec (.keyAuditRotate letter) s = .next t ∧
      Within (signals (counting [.DEV_SEC_STAT])) (signalled [.lease, .secure, .svc]) s t) ∧
    (∀ (letter : Letter) (unprogrammed : List (Fin 16)) (s : State), ∃ t : State, exec (.keyProvision letter unprogrammed) s = .next t ∧
      Within (signals (counting [.CFG_NVM_ERR, .CFG_NVM_STAT, .CFG_NVM_WEAR, .DEV_LC, .DEV_SEC_STAT])) (signalled [.config, .lease, .secure]) s t) ∧
    (∀ (letter : Letter) (s : State), ∃ t : State, exec (.keyLock letter) s = .next t ∧
      Within (signals (counting [.DEV_LC])) (signalled [.secure]) s t) ∧
    (∀ (letter : Letter) (s : State), ∃ t : State, exec (.keyReturn letter) s = .next t ∧
      Within (Reg.all) (signalled [.arbiters, .axes, .beaconAt, .bms, .cells, .chans, .config, .copies, .crossings, .elements, .encLevel, .encOpen, .fires, .flying, .franker, .gates, .heaters, .images, .insRes, .insWords, .isoAbsorb, .isos, .jobs, .laneSkip, .laneTx, .lease, .letterBudget, .letterQueue, .links, .memo, .monitors, .pins, .plcs, .ports, .power, .resets, .restoring, .rings, .samplers, .seals, .secure, .shadows, .sorters, .store, .strobeAt, .strobeT, .svc, .taken, .taps, .timers, .trees, .uclkUse, .waiting, .words]) s t) ∧
    (∀ (letter : Letter) (s : State), ∃ t : State, exec (.keyScrap letter) s = .next t ∧
      Within (Reg.all) (signalled [.arbiters, .axes, .beaconAt, .bms, .cells, .chans, .config, .copies, .crossings, .elements, .encLevel, .encOpen, .fires, .flying, .franker, .gates, .heaters, .images, .insRes, .insWords, .isoAbsorb, .isos, .jobs, .laneSkip, .laneTx, .lease, .letterBudget, .letterQueue, .links, .memo, .monitors, .pins, .plcs, .ports, .power, .resets, .restoring, .rings, .samplers, .seals, .secure, .shadows, .sorters, .store, .strobeAt, .strobeT, .svc, .taken, .taps, .timers, .trees, .uclkUse, .waiting, .words]) s t) ∧
    (∀ (letter : Letter) (s : State), ∃ t : State, exec (.keyGoldenWrite letter) s = .next t ∧
      Within (signals (counting [.CFG_NVM_ERR, .CFG_NVM_STAT, .CFG_NVM_WEAR])) (signalled [.config, .svc]) s t) ∧
    (∀ (source : Fin 64) (rct apt : Bool) (s : State), ∃ t : State, exec (.rngStartupTestDone source rct apt) s = .next t ∧
      Within (signals [.DEV_RNG_STAT, .SEAL_LINE_STAT]) (signalled [.seals, .secure]) s t) ∧
    (∀ (source : Fin 64) (apt : Bool) (s : State), ∃ t : State, exec (.rngHealthFail source apt) s = .next t ∧
      Within (signals [.DEV_RNG_STAT, .SEAL_LINE_STAT]) (signalled [.seals, .secure]) s t) ∧
    (∀ (s : State), ∃ t : State, exec .rngReseed s = .next t ∧
      Within (signals [.DEV_RNG_STAT, .SEAL_LINE_STAT]) (signalled [.seals, .secure]) s t) ∧
    (∀ (code : BitVec 8) (s : State), ∃ t : State, exec (.tapInstruction code) s = .next t ∧
      Within (signals [.CFG_AGT_STAT, .CFG_STAT, .DEV_ISL_RUN, .DEV_ISL_STOP, .DEV_SEC_STAT, .LNK_RING_STAT, .MEM_STK_STAT, .PIN_GSTAT, .PIN_ICONF, .PIN_OCONF, .SEAL_GRAN, .SEAL_LINE_STAT, .TST_TAP_STAT]) (signalled [.config, .flying, .lease, .memo, .pins, .resets, .seals, .secure, .timers, .trees]) s t) ∧
    (∀ (s : State), ∃ t : State, exec .tapScan s = .next t ∧
      Within (signals [.CFG_AGT_STAT, .CFG_STAT, .DEV_ISL_RUN, .DEV_ISL_STOP, .DEV_SEC_STAT, .LNK_RING_STAT, .MEM_STK_STAT, .PIN_GSTAT, .PIN_ICONF, .PIN_OCONF, .SEAL_GRAN, .SEAL_LINE_STAT, .TST_TAP_STAT]) (signalled [.config, .flying, .lease, .memo, .pins, .resets, .seals, .secure, .timers, .trees]) s t) ∧
    (∀ (access : DebugAccess) (s : State), ∃ t : State, exec (.tapDebugAccess access) s = .next t ∧
      Within (Reg.all) (signalled [.arbiters, .axes, .bms, .cells, .chans, .config, .crossings, .elements, .fires, .flying, .franker, .gates, .images, .insRes, .insWords, .isos, .laneSkip, .laneTx, .lease, .links, .memo, .pins, .plcs, .ports, .power, .resets, .restoring, .rings, .samplers, .seals, .secure, .shadows, .sorters, .store, .strobeAt, .svc, .taken, .taps, .timers, .trees, .uclkUse, .waiting, .words]) s t) ∧
    (∀ (result : SliceEnd) (ms : Nat) (s : State), ∃ t : State, exec (.selfTestSliceDone result ms) s = .next t ∧
      Within (signals (counting [.CFG_AGT_STAT, .CFG_BM_STAT, .CFG_FAB_STAT, .CFG_ISO_CNT, .CFG_NVM_STAT, .CFG_RGN_STAT, .CFG_TREE_STAT, .DEV_ST_DEFECT, .DEV_ST_FAIL, .DEV_ST_STAT, .DEV_XDROP, .LANE_CNT, .LANE_CUR, .LANE_DFE, .LANE_ETH_RXWR, .LANE_RXEQ, .LANE_STAT, .LANE_TXEQ, .LNK_CABLE, .LNK_CNT_FLIT, .LNK_CNT_LINK, .LNK_ERR, .LNK_LATENCY, .LNK_PARTNER_CAP, .LNK_PARTNER_PREP, .LNK_PARTNER_UID, .LNK_RING_STAT, .LNK_STAT, .MEM_HOME_CNT, .MEM_HOME_STAT, .MEM_STK_ECNT, .MEM_STK_ERR, .MEM_STK_ERRADDR, .MEM_STK_STAT, .PIN_GSTAT, .PIN_ICONF, .PIN_OCONF, .PIN_PLC_CNT, .PIN_PLC_CTL, .PIN_PLC_STAT, .PIN_PWM_HI, .PST_FW_STAT, .PST_LOCK, .PST_MB_REQ, .SEAL_LINE_CNT, .SEAL_LINE_ERR, .SEAL_LINE_ERRADDR, .SRT_CTL, .SRT_ERR, .SRT_FLUSH_CNT, .SRT_STAT])) (signalled [.arbiters, .bms, .cells, .chans, .config, .crossings, .elements, .fires, .flying, .franker, .gates, .isos, .laneSkip, .laneTx, .lease, .links, .memo, .pins, .plcs, .power, .restoring, .seals, .secure, .sorters, .store, .svc, .taken, .taps, .timers, .trees, .waiting, .words]) s t) ∧
    (∀ (s : State), ∃ t : State, exec .testLogicReset s = .next t ∧
      Within (signals [.DEV_XDROP, .PST_FW_STAT, .PST_LOCK, .PST_MB_REQ, .TST_TAP_STAT]) (signalled [.crossings, .store, .svc, .waiting]) s t)

/-- O21. What the commands of events leave as it was. Each of these commands answers a next state that differs from the state before it at most in the registers and the parts of the state that its clause lists: every other register field of the map and every other part (memories, queues, tables) is unchanged. The commands: LOG_READ, LOG_ROUTE, PERF_CLAIM, PERF_RELEASE, PERF_USER, EVENT_RAISE, EVT_USER_WRITE, PERF_CLEAR, PERF_WRAP, PERF_COUNT_READ, PERF_SAMPLE, LOG_RECORD_WRITE, LOG_ALLOWANCE_TICK, EVT_LOG_LOST_READ, FRANKER_SAVE, FRANKER_LOAD, FRANKER_TRIGGER, FRANKER_RESTORE, FRANKER_RECOVER_RETRY, DEV_FRK_MISS_READ, DEV_FRK_STAT_READ. -/
def Obligations.FrameOfEvents : Prop :=
  (∀ (letter : Letter) (s : State), ∃ t : State, exec (.logRead letter) s = .next t ∧
      Within (signals (counting [.CFG_NVM_STAT])) (signalled []) s t) ∧
    (∀ (letter : Letter) (s : State), ∃ t : State, exec (.logRoute letter) s = .next t ∧
      Within (signals (counting [])) (signalled []) s t) ∧
    (∀ (letter : Letter) (s : State), ∃ t : State, exec (.perfClaim letter) s = .next t ∧
      Within (signals (counting [])) (signalled []) s t) ∧
    (∀ (letter : Letter) (s : State), ∃ t : State, exec (.perfRelease letter) s = .next t ∧
      Within (signals (counting [])) (signalled []) s t) ∧
    (∀ (letter : Letter) (s : State), ∃ t : State, exec (.perfUser letter) s = .next t ∧
      Within (signals (counting [.PERF_USER_EN])) (signalled []) s t) ∧
    (∀ (source : Fin 256) (s : State), ∃ t : State, exec (.eventRaise source) s = .next t ∧
      Within (signals []) (signalled []) s t) ∧
    (∀ (port : Port) (value : Word) (s : State), ∃ t : State, exec (.evtUserWrite port value) s = .next t ∧
      Within (signals (errors [])) (signalled [.crossings, .waiting]) s t) ∧
    (∀ (port : Port) (counter : Fin 256) (value : Word) (s : State), ∃ t : State, exec (.perfClear port counter value) s = .next t ∧
      Within (signals (counting (errors [.PERF_SEL]))) (signalled [.crossings, .waiting]) s t) ∧
    (∀ (counter : Fin 256) (increment : Fin 65) (s : State), ∃ t : State, exec (.perfWrap counter increment) s = .next t ∧
      Within (signals (counting [])) (signalled []) s t) ∧
    (∀ (port : Port) (counter : Fin 256) (s : State), ∃ t : State, exec (.perfCountRead port counter) s = .next t ∧
      Within (signals (errors [])) (signalled [.crossings, .shadows, .waiting]) s t) ∧
    (∀ (counter : Fin 256) (s : State), ∃ t : State, exec (.perfSample counter) s = .next t ∧
      Within (signals (counting [])) (signalled []) s t) ∧
    (∀ (result : ProgResult) (s : State), ∃ t : State, exec (.logRecordWrite result) s = .next t ∧
      Within (signals [.CFG_NVM_ERR, .CFG_NVM_STAT, .CFG_NVM_WEAR, .EVT_LOG_NEWEST, .EVT_LOG_OLDEST]) (signalled [.config]) s t) ∧
    (∀ (s : State), ∃ t : State, exec .logAllowanceTick s = .next t ∧
      Within ([.EVT_LOG_STAT]) ([]) s t) ∧
    (∀ (port : Port) (s : State), ∃ t : State, exec (.evtLogLostRead port) s = .next t ∧
      Within (signals (errors [])) (signalled [.crossings, .waiting]) s t) ∧
    (∀ (port : Port) (value : Word) (result : ProgResult) (s : State), ∃ t : State, exec (.frankerSave port value result) s = .next t ∧
      Within (signals (errors [.CFG_NVM_ERR, .CFG_NVM_STAT, .CFG_NVM_WEAR, .DEV_FRK_REC, .DEV_FRK_STAT])) (signalled [.config, .crossings, .franker, .waiting]) s t) ∧
    (∀ (port : Port) (value : Word) (s : State), ∃ t : State, exec (.frankerLoad port value) s = .next t ∧
      Within (signals (errors [.CFG_NVM_ERR, .CFG_NVM_STAT, .CFG_NVM_WEAR, .DEV_FRK_REC, .DEV_FRK_STAT])) (signalled [.config, .crossings, .franker, .waiting]) s t) ∧
    (∀ (postmark : BitVec 64) (s : State), ∃ t : State, exec (.frankerTrigger postmark) s = .next t ∧
      Within (signals (counting [.DEV_FRK_CNT, .DEV_FRK_CTR, .DEV_FRK_MISS, .LNK_CNT_LINK, .LNK_ERR, .PIN_GSTAT, .PIN_ICONF, .PIN_OCONF, .PIN_PLC_CTL, .SRT_CTL, .SRT_ERR, .SRT_STAT])) (signalled [.chans, .fires, .flying, .franker, .lease, .links, .pins, .plcs, .sorters, .trees]) s t) ∧
    (∀ (s : State), ∃ t : State, exec .frankerRestore s = .next t ∧
      Within (signals (counting (errors [.DEV_FRK_STAT, .DEV_XDROP, .LANE_CTL, .LANE_CUR, .LANE_ERR, .LANE_RATE, .LANE_STAT, .LNK_CABLE, .LNK_CNT_FLIT, .LNK_CNT_LINK, .LNK_CTL, .LNK_ERR, .LNK_LATENCY, .LNK_PARTNER_CAP, .LNK_PARTNER_PREP, .LNK_PARTNER_UID, .LNK_RING_CTL, .LNK_RING_REACH, .LNK_RING_STAT, .LNK_RING_STOPSRC, .LNK_RING_WEIGHT, .LNK_STAT, .PIN_GSTAT, .PIN_ICONF, .PIN_OCONF, .PIN_OMAP, .PIN_PLC_CTL, .PIN_PLC_STAT, .POS_AX_EPOCH, .POS_AX_FLT, .POS_AX_HWM, .POS_AX_LOAD, .POS_AX_LOSTCNT, .POS_AX_POS, .POS_AX_STAT, .POS_AX_VEL, .PST_FW_STAT, .PST_LOCK, .PST_MB_REQ, .SRT_CTL, .SRT_ERR, .SRT_STAT]))) (signalled [.axes, .chans, .fires, .flying, .franker, .laneSkip, .laneTx, .lease, .links, .pins, .plcs, .rings, .sorters, .store, .strobeAt, .svc, .timers, .trees]) s t) ∧
    (∀ (s : State), ∃ t : State, exec .frankerRecoverRetry s = .next t ∧
      Within (signals (counting [.DEV_FRK_MISS, .DEV_FRK_STAT, .LNK_RING_STAT, .LNK_RING_STOPSRC, .PIN_GSTAT, .PIN_ICONF, .PIN_OCONF, .PIN_PLC_CTL, .POS_AX_EPOCH, .POS_AX_FLT, .POS_AX_HWM, .POS_AX_LOAD, .POS_AX_LOSTCNT, .POS_AX_POS, .POS_AX_STAT, .POS_AX_VEL, .SRT_CTL, .SRT_FLUSH_CNT, .SRT_STAT])) (signalled [.axes, .chans, .fires, .flying, .franker, .links, .pins, .plcs, .rings, .sorters, .strobeAt, .trees]) s t) ∧
    (∀ (port : Port) (s : State), ∃ t : State, exec (.devFrkMissRead port) s = .next t ∧
      Within (signals (errors [.DEV_FRK_MISS])) (signalled [.crossings, .waiting]) s t) ∧
    (∀ (port : Port) (s : State), ∃ t : State, exec (.devFrkStatRead port) s = .next t ∧
      Within (signals (errors [.DEV_FRK_STAT])) (signalled [.crossings, .waiting]) s t)

/-- O22. What the commands of resets leave as it was. Each of these commands answers a next state that differs from the state before it at most in the registers and the parts of the state that its clause lists: every other register field of the map and every other part (memories, queues, tables) is unchanged. The commands: MONITOR_CROSSING, MAIN_SUPPLY_GOOD, VAON_RISE, VAON_LOSS, SUPPLY_STABLE, REGULATORS_UP, RESET_N_LOW, RESET_N_HIGH, STACK_TRAINED, DEVICE_RESET_ENTRY, FABRIC_RESET_DONE. -/
def Obligations.FrameOfResets : Prop :=
  (∀ (point : Fin 32) (side : Fin 3) (deep : Bool) (s : State), ∃ t : State, exec (.monitorCrossing point side deep) s = .next t ∧
      Within (Reg.all) (signalled [.arbiters, .axes, .beaconAt, .bms, .cells, .chans, .config, .copies, .crossings, .elements, .encLevel, .encOpen, .fires, .flying, .franker, .gates, .heaters, .images, .insRes, .insWords, .isoAbsorb, .isos, .jobs, .laneSkip, .laneTx, .lease, .letterBudget, .letterQueue, .links, .memo, .monitors, .pins, .plcs, .ports, .power, .resets, .restoring, .rings, .samplers, .seals, .secure, .shadows, .sorters, .store, .strobeAt, .strobeT, .svc, .taken, .taps, .timers, .trees, .uclkUse, .waiting, .words]) s t) ∧
    (∀ (s : State), ∃ t : State, exec .mainSupplyGood s = .next t ∧
      Within (Reg.all) (signalled [.arbiters, .axes, .beaconAt, .bms, .cells, .chans, .config, .copies, .crossings, .elements, .encLevel, .encOpen, .fires, .flying, .franker, .gates, .heaters, .images, .insRes, .insWords, .isoAbsorb, .isos, .jobs, .laneSkip, .laneTx, .lease, .letterBudget, .letterQueue, .links, .memo, .monitors, .pins, .plcs, .ports, .power, .resets, .restoring, .rings, .samplers, .seals, .secure, .shadows, .sorters, .store, .strobeAt, .strobeT, .svc, .taken, .taps, .timers, .trees, .uclkUse, .waiting, .words]) s t) ∧
    (∀ (s : State), ∃ t : State, exec .vaonRise s = .next t ∧
      Within ([]) ([.outputs, .resets]) s t) ∧
    (∀ (s : State), ∃ t : State, exec .vaonLoss s = .next t ∧
      Within (Reg.all) (signalled [.arbiters, .axes, .beaconAt, .bms, .cells, .chans, .config, .copies, .crossings, .elements, .encLevel, .encOpen, .fires, .flying, .franker, .gates, .heaters, .images, .insRes, .insWords, .isoAbsorb, .isos, .jobs, .laneSkip, .laneTx, .lease, .letterBudget, .letterQueue, .links, .memo, .monitors, .pins, .plcs, .ports, .power, .resets, .restoring, .rings, .samplers, .seals, .secure, .shadows, .sorters, .store, .strobeAt, .strobeT, .svc, .taken, .taps, .timers, .trees, .uclkUse, .waiting, .words]) s t) ∧
    (∀ (facts : StartFacts) (s : State), ∃ t : State, exec (.supplyStable facts) s = .next t ∧
      Within (signals (counting [.CFG_DESIGN, .CFG_FAIL, .CFG_ISO_CNT, .CFG_NVM_ERR, .CFG_NVM_STAT, .CFG_RGN_STAT, .CFG_SRC, .CFG_STAT, .CFG_TREE_STAT, .DEV_FRK_STAT, .DEV_ID, .DEV_ISL_RUN, .DEV_LC, .DEV_OCT_STAT, .DEV_RST_CAUSE, .DEV_SEC_STAT, .DEV_UID, .LANE_STAT, .LNK_RING_STAT, .LNK_RING_STOPSRC, .MEM_STK_STAT, .PIN_BANK_CTL, .PIN_BANK_STAT, .PIN_GSTAT, .PIN_ICONF, .PIN_OCONF, .PIN_PLC_CTL, .POS_AX_EPOCH, .POS_AX_FLT, .POS_AX_LOSTCNT, .POS_AX_POS, .POS_AX_STAT, .PST_FW_STAT, .PWR_RGN_STAT, .PWR_THERM_CTL, .SRT_CTL, .SRT_STAT])) (signalled [.arbiters, .bms, .cells, .chans, .config, .crossings, .elements, .flying, .franker, .gates, .images, .isos, .lease, .links, .pins, .plcs, .power, .resets, .restoring, .rings, .secure, .sorters, .taken, .taps, .timers, .trees, .uclkUse, .words]) s t) ∧
    (∀ (facts : StartFacts) (s : State), ∃ t : State, exec (.regulatorsUp facts) s = .next t ∧
      Within (signals (counting [.CFG_DESIGN, .CFG_FAIL, .CFG_ISO_CNT, .CFG_NVM_ERR, .CFG_NVM_STAT, .CFG_RGN_STAT, .CFG_SRC, .CFG_STAT, .CFG_TREE_STAT, .DEV_FRK_STAT, .DEV_ID, .DEV_ISL_RUN, .DEV_LC, .DEV_OCT_STAT, .DEV_RST_CAUSE, .DEV_SEC_STAT, .DEV_UID, .LANE_STAT, .LNK_RING_STAT, .LNK_RING_STOPSRC, .MEM_STK_STAT, .PIN_BANK_CTL, .PIN_BANK_STAT, .PIN_GSTAT, .PIN_ICONF, .PIN_OCONF, .PIN_PLC_CTL, .POS_AX_EPOCH, .POS_AX_FLT, .POS_AX_LOSTCNT, .POS_AX_POS, .POS_AX_STAT, .PST_FW_STAT, .PWR_RGN_STAT, .PWR_THERM_CTL, .SRT_CTL, .SRT_STAT])) (signalled [.arbiters, .bms, .cells, .chans, .config, .crossings, .elements, .flying, .franker, .gates, .images, .isos, .lease, .links, .pins, .plcs, .power, .resets, .restoring, .rings, .secure, .sorters, .taken, .taps, .timers, .trees, .uclkUse, .words]) s t) ∧
    (∀ (s : State), ∃ t : State, exec .resetNLow s = .next t ∧
      Within (Reg.all) (signalled [.arbiters, .axes, .beaconAt, .bms, .cells, .chans, .config, .copies, .crossings, .elements, .encLevel, .encOpen, .fires, .flying, .franker, .gates, .heaters, .images, .insRes, .insWords, .isoAbsorb, .isos, .jobs, .laneSkip, .laneTx, .lease, .letterBudget, .letterQueue, .links, .memo, .monitors, .pins, .plcs, .ports, .power, .resets, .restoring, .rings, .samplers, .seals, .secure, .shadows, .sorters, .store, .strobeAt, .strobeT, .svc, .taken, .taps, .timers, .trees, .uclkUse, .waiting, .words]) s t) ∧
    (∀ (facts : StartFacts) (s : State), ∃ t : State, exec (.resetNHigh facts) s = .next t ∧
      Within (signals (counting [.CFG_DESIGN, .CFG_FAIL, .CFG_ISO_CNT, .CFG_NVM_ERR, .CFG_NVM_STAT, .CFG_RGN_STAT, .CFG_SRC, .CFG_STAT, .CFG_TREE_STAT, .DEV_FRK_STAT, .DEV_ID, .DEV_ISL_RUN, .DEV_LC, .DEV_OCT_STAT, .DEV_RST_CAUSE, .DEV_SEC_STAT, .DEV_UID, .LANE_STAT, .LNK_RING_STAT, .LNK_RING_STOPSRC, .MEM_STK_STAT, .PIN_BANK_CTL, .PIN_BANK_STAT, .PIN_GSTAT, .PIN_ICONF, .PIN_OCONF, .PIN_PLC_CTL, .POS_AX_EPOCH, .POS_AX_FLT, .POS_AX_LOSTCNT, .POS_AX_POS, .POS_AX_STAT, .PST_FW_STAT, .PWR_RGN_STAT, .PWR_THERM_CTL, .SRT_CTL, .SRT_STAT])) (signalled [.arbiters, .bms, .cells, .chans, .config, .crossings, .elements, .flying, .franker, .gates, .images, .isos, .lease, .links, .pins, .plcs, .power, .resets, .restoring, .rings, .secure, .sorters, .taken, .taps, .timers, .trees, .uclkUse, .words]) s t) ∧
    (∀ (stack : Fin 4) (s : State), ∃ t : State, exec (.stackTrained stack) s = .next t ∧
      Within (signals (counting [.CFG_AGT_STAT, .LANE_ETH_RXWR, .MEM_HOME_CNT, .MEM_HOME_STAT, .MEM_STK_ECNT, .MEM_STK_ERR, .MEM_STK_ERRADDR, .MEM_STK_STAT, .SEAL_GRAN, .SEAL_GRAN_RES, .SEAL_LINE_CNT, .SEAL_LINE_ERR, .SEAL_LINE_ERRADDR, .SEAL_LINE_STAT])) (signalled [.crossings, .memo, .resets, .seals, .svc]) s t) ∧
    (∀ (facts : StartFacts) (s : State), ∃ t : State, exec (.deviceResetEntry facts) s = .next t ∧
      Within (Reg.all) (signalled [.arbiters, .axes, .beaconAt, .bms, .cells, .chans, .config, .copies, .crossings, .elements, .encLevel, .encOpen, .fires, .flying, .franker, .gates, .heaters, .images, .insRes, .insWords, .isoAbsorb, .isos, .jobs, .laneSkip, .laneTx, .lease, .letterBudget, .letterQueue, .links, .memo, .monitors, .pins, .plcs, .ports, .power, .resets, .restoring, .rings, .samplers, .seals, .secure, .shadows, .sorters, .store, .strobeAt, .strobeT, .svc, .taken, .taps, .timers, .trees, .uclkUse, .waiting, .words]) s t) ∧
    (∀ (s : State), ∃ t : State, exec .fabricResetDone s = .next t ∧
      Within (signals (counting [.CFG_RGN_STAT, .CFG_TREE_STAT, .PIN_GSTAT, .PIN_ICONF, .PIN_OCONF])) (signalled [.cells, .config, .flying, .monitors, .pins, .power, .resets, .svc, .trees, .words]) s t)

/-- O23. A memory cell reads, writes and swaps its addressed entry. For a clockless cell of a woken region in MEM64 mode (entries of w = 1 bit) or in MEM32 mode (w = 2, no cell 15 of a cluster, R27) at which a request stands, its operation in bits 1:0 of the request and its address above them, from tokens that the cell has not taken before and that are not its own: WRITE, with its data field there, puts the data into the addressed entry and has no reply; where no reply stands at its output, READ (or code 0b11), whose data field need not be valid, replies with the addressed entry and keeps every entry, and SWAP replies with the entry before the write and writes the data field. In MEM32 the second reply bit stands at the output of the cell above. Every other entry is as before, and so are the contents of every other cell and the configuration of every cell; the illegal codes among the bits are recorded (R24). -/
def Obligations.MemoryCellServes : Prop :=
  ∀ (n : Fin 40) (i : Fin 65536) (request data : Arrivals) (s : State) (w : Nat) (q : Seen),
    let own := TokenFrom.stage (.cell n i)
    let above := TokenFrom.stage (.cell n (i + 1))
    let entry := memEntry (s.cell n i) (q.value / 4)
    let recorded := fun (t : State) (k : Nat) => t.fld .CFG_FAB_STAT_CODE_CNT n = min (s.fld .CFG_FAB_STAT_CODE_CNT n + k) (2 ^ 8 - 1) ∧
      (k ≠ 0 → t.fld .CFG_FAB_STAT_CODE_ERR n = 1 ∧ t.pends (164 + n) = true)
    let keeps := fun (t : State) => (∀ (m : Fin 40) (j : Fin 65536), (t.cell m j).cfg = (s.cell m j).cfg ∧ (¬ (m = n ∧ j = i) → (t.cell m j).mem = (s.cell m j).mem))
    let written := fun (t : State) (d : Seen) => ∀ a : Nat, memEntry (t.cell n i) a =
      if a % (64 / w) = q.value / 4 % (64 / w) then d.value % 2 ^ w else memEntry (s.cell n i) a
    let replied := fun (t : State) => (t.cell n i).tok = some (entry % 2) ∧ (w = 2 → (t.cell n (i + 1)).tok = some (entry / 2 % 2))
    let frame := fun (t : State) => Within (signals (counting [.CFG_FAB_STAT])) (signalled [.cells, .elements, .isos, .taken, .taps, .words]) s t
    s.woken n = true → (s.cell n i).cfg.clock = none →
    ((s.cell n i).cfg.mode = .mem64 ∧ w = 1 ∨ (s.cell n i).cfg.mode = .mem32 ∧ i.val % 16 ≠ 15 ∧ w = 2) →
    s.memAsks n i request = some q → s.mayCapture (.cell n i) (s.memCone n i true request.upset) = true →
    own ∉ s.memCone n i true request.upset → above ∉ s.memCone n i true request.upset → (∀ x : Site, (own, x) ∉ s.taken ∧ (above, x) ∉ s.taken) →
    (∀ d, q.value % 4 = 1 → s.memData n i data = some d →
      ∃ t, exec (.memCellWrite n i request data) s = .next t ∧ frame t ∧ keeps t ∧ written t d ∧ (t.cell n i).tok = (s.cell n i).tok ∧
        recorded t (q.bad + d.bad)) ∧
    ((s.cell n i).tok = none → (w = 2 → (s.cell n (i + 1)).tok = none) →
      (q.value % 4 = 0 ∨ q.value % 4 = 3 →
        ∃ t, exec (.memCellRead n i request) s = .next t ∧ frame t ∧ keeps t ∧ (t.cell n i).mem = (s.cell n i).mem ∧ replied t ∧ recorded t q.bad) ∧
      ∀ d, q.value % 4 = 2 → s.memData n i data = some d →
        ∃ t, exec (.memCellSwap n i request data) s = .next t ∧ frame t ∧ keeps t ∧ written t d ∧ replied t ∧ recorded t (q.bad + d.bad))

/-- O24. An illegal code is read as 0 and recorded. What an illegal code on a wire brings is the value 0 with one illegal code to record, and an input of a stage that an upset leaves illegal is valid and counts as 0, whatever its source brings. A stage of region n (a cell, a word stage, a crossing element, a fabric output or a tree's source) that stands ready and whose used inputs are all valid, some of them an illegal code: TOKEN_CAPTURE answers a next state in which it has taken the value as any other, and which differs from that only in CODE_ERR of CFG_FAB_STAT[n], which is 1, CODE_CNT, which counts every illegal input up to 255, source 164 + n, which is pending, and what that raise and the counted event change. An isolation cell and a hard port stand in no region: log 88. -/
def Obligations.IllegalCodeReadsZero : Prop :=
  (∀ (o : List (Nat × Rail)) (k : Nat) (e : Nat × Rail), o.find? (·.1 == k) = some e → e.2.illegal = true → wireOn o k = some ⟨0, 1⟩) ∧
  (∀ (f : Source → Option Seen) (u : List Nat) (j : Nat) (y : Source) (l : List (Option Source)) (r : Seen),
    gatherBits f u (j + 1) l = some r → j ∈ u →
      gatherBits f u j (some y :: l) = some ⟨2 * r.value, r.bad + ((f y).map (·.bad)).getD 0 + 1⟩) ∧
  ∀ (n : Fin 40) (x : Site) (wires : List (Nat × Rail)) (upset : List Nat) (a : Seen) (s : State),
    (∀ y, x ≠ .iso y ∧ x ≠ .hardPort y) → s.regionOf x = some n → s.stageReady x = true → s.arrives wires upset x = some a → a.bad ≠ 0 →
    s.mayCapture x (s.takesOf upset x) = true →
    let u := (s.takeTokens x (s.takesOf upset x)).fill x a.value
    ∃ t, exec (.tokenCapture x wires upset) s = .next t ∧
      Within (signals (counting [.CFG_FAB_STAT])) (signalled []) u t ∧ t.siteTok x = u.siteTok x ∧
      t.fld .CFG_FAB_STAT_CODE_ERR n = 1 ∧
      t.fld .CFG_FAB_STAT_CODE_CNT n = min (s.fld .CFG_FAB_STAT_CODE_CNT n + a.bad) (2 ^ 8 - 1) ∧
      t.pends (164 + n) = true

/-- O25. A strobe tap never holds two tokens. For a pulse on its way to a tap of a tree T2..T7 in a woken region: it puts one token into a tap that holds none, where no consumer has settled for that token before (R30); at a tap that still holds its token it delivers none, sets STROBE_OVR (T2, T3) or UTAP_OVR (T4..T7) of CFG_TREE_STAT[n] for that tree and raises source 164 + n. Either way the pulse has arrived and nothing else changes. Where no pulse is on its way nothing changes. -/
def Obligations.StrobeTapHoldsOne : Prop :=
  ∀ (n : Fin 40) (tree : Fin 8) (k : Nat) (s : State), 2 ≤ tree.val → s.woken n = true →
    let tap := (n.val, tree.val, k)
    ∃ t, exec (.strobeTapPulse n tree k) s = .next t ∧
      (tap ∉ s.flying → t = s) ∧
      (tap ∈ s.flying → t.flying = s.flying.erase tap) ∧
      (tap ∈ s.flying → tap ∉ s.taps → Within [] [.cells, .elements, .flying, .isos, .taken, .taps, .words] s t) ∧
      (tap ∈ s.flying → tap ∉ s.taps → (∀ x, (TokenFrom.tap n tree k, x) ∉ s.taken) → t.taps = s.taps ++ [tap] ∧ Within [] [.flying, .taps] s t) ∧
      (tap ∈ s.flying → tap ∈ s.taps →
        Within (signals [.CFG_TREE_STAT]) (signalled [.flying]) s t ∧ t.pends (164 + n) = true ∧
        (tree.val < 4 → bitOf (t.fld .CFG_TREE_STAT_STROBE_OVR n) (tree.val - 2) = true) ∧
        (4 ≤ tree.val → bitOf (t.fld .CFG_TREE_STAT_UTAP_OVR n) (tree.val - 4) = true))

/-- O26. Two crossings of one strobe closer than 8 ns issue one pulse. For a strobe enabled on an axis that runs while D23 does, and a crossing in an enabled direction of the next of its positions, at a time in 1/64 ns: a crossing whose pulse would start less than 8 ns (512 units) after the strobe's last pulse did issues no pulse, increments POS_STRB_STAT[k].MERGE up to its greatest value and raises source 19 + 4a of the axis a, and POS_AX_FLT is unchanged; any other crossing issues one pulse, which goes to every tap of the strobe's tree in the woken regions, and changes nothing else but the time of the last pulse. Crossings are then judged from the position crossed. -/
def Obligations.CloseCrossingsMerge : Prop :=
  ∀ (k : Fin 2) (forward : Bool) (at_ : Nat) (s : State),
    s.engineOn = true → s.on .POS_STRB_CTL_EN k = true → s.axisRuns (s.fld .POS_STRB_CTL_AXIS k) = true →
    bitOf (s.fld .POS_STRB_CTL_DIRSEL k) (if forward then 0 else 1) = true → s.strobeMet k forward = true →
    let start := tickAfter at_
    ∃ t, exec (.strobeCrossing k forward at_) s = .next t ∧ at_ ≤ start ∧ start < at_ + 64 ∧ start % 64 = 0 ∧
      Tbl.find 0 t.strobeAt k = s.strobeNext k forward ∧
      ((∃ last, Tbl.find 0 s.strobeT k = last + 1 ∧ start < last + 512) →
        t.out.count (.strobe k) = s.out.count (.strobe k) ∧
        t.fld .POS_STRB_STAT_MERGE k = min (s.fld .POS_STRB_STAT_MERGE k + 1) (2 ^ 16 - 1) ∧
        t.pends (19 + 4 * s.fld .POS_STRB_CTL_AXIS k) = true ∧
        Within (signals [.POS_STRB_STAT]) (signalled [.strobeAt]) s t) ∧
      ((∀ last, Tbl.find 0 s.strobeT k = last + 1 → last + 512 ≤ start) →
        t.out = s.out ++ [.strobe k] ∧ Tbl.find 0 t.strobeT k = start + 1 ∧
        t.flying = s.flying ++ ((List.range 40).filter fun n => s.woken n).flatMap (fun n => (s.tapsOf n (2 + k)).map fun j => (n, 2 + k.val, j)) ∧
        Within [] [.flying, .outputs, .strobeAt, .strobeT] s t)

/-- O27. A write to EVT_USER raises the user sources. A write of EVT_USER that takes place answers a next state in which source 248 + u is pending exactly if it was or bit u of the value is 1, for u = 0..7. A region may write EVT_USER where bit 10 (the EVT window) of the WR field of its DEV_RGN_ACCESS is 1; where it is 0 and no earlier access of the region waits (R17) the write raises no user source and is recorded as DENIED with source 2 (R18). -/
def Obligations.UserEventsAreRaised : Prop :=
  (∀ (p : Port) (value : Word) (s : State), s.takes p true .EVT_USER 0 = true →
    ∃ t, exec (.evtUserWrite p value) s = .next t ∧
      ∀ u : Fin 8, t.pends (248 + u) = (s.pends (248 + u) || bitOf value.toNat u)) ∧
  (∀ (n : Fin 40) (value : Word) (s : State),
    (bitOf (s.fld .DEV_RGN_ACCESS_WR n) 10 = true → s.may (.region n) true .EVT_USER 0 = true) ∧
    (bitOf (s.fld .DEV_RGN_ACCESS_WR n) 10 = false → s.portBusy (.region n) = false →
      ∃ t, exec (.evtUserWrite (.region n) value) s = .next t ∧ (∀ u : Fin 8, t.pends (248 + u) = s.pends (248 + u)) ∧
        t.on .DEV_ACCESS_ERR_ERR 0 = true ∧ t.on .DEV_ACCESS_ERR_DENIED 0 = true ∧ t.pends 2 = true))

/-- O28. Only its owner frees a lock. For a write of PST_LOCK_REL[i] that takes place (the port may make it and it need not wait): a write of 0 to REL changes nothing; a write of 1 by the owner makes the lock free and changes nothing else; a write of 1 by any other port, or to a free lock, leaves every lock, sets PST_LOCK_ERR.NOT_OWNER and raises source 208, and LOCK and WRITER record the lock and the port exactly where NOT_OWNER was 0. Beside that only the crossing that the access passes has moved (R92). -/
def Obligations.LockIsReleasedByItsOwner : Prop :=
  ∀ (p : Port) (i : Fin 256) (value : Word) (s : State),
    s.takes p true .PST_LOCK_REL i = true →
    ∃ t, exec (.lockRelease p i value) s = .next t ∧
      (bitOf value.toNat 0 = false → Within [] [.crossings] s t) ∧
      (bitOf value.toNat 0 = true → s.fld .PST_LOCK_OWNER i = portIdent p →
        Within [.PST_LOCK] [.crossings] s t ∧ t.fld .PST_LOCK_OWNER i = 0 ∧
        (∀ j : Nat, j ≠ i → t.fld .PST_LOCK_OWNER j = s.fld .PST_LOCK_OWNER j) ∧
        ∀ j : Nat, t.fld .PST_LOCK_ABANDONED j = s.fld .PST_LOCK_ABANDONED j) ∧
      (bitOf value.toNat 0 = true → s.fld .PST_LOCK_OWNER i ≠ portIdent p →
        Within (signals [.PST_LOCK_ERR]) (signalled [.crossings]) s t ∧ t.on .PST_LOCK_ERR_NOT_OWNER 0 = true ∧ t.pends 208 = true ∧
        (s.on .PST_LOCK_ERR_NOT_OWNER 0 = false →
          t.fld .PST_LOCK_ERR_LOCK 0 = i ∧ t.fld .PST_LOCK_ERR_WRITER 0 = portIdent p) ∧
        (s.on .PST_LOCK_ERR_NOT_OWNER 0 = true →
          t.fld .PST_LOCK_ERR_LOCK 0 = s.fld .PST_LOCK_ERR_LOCK 0 ∧ t.fld .PST_LOCK_ERR_WRITER 0 = s.fld .PST_LOCK_ERR_WRITER 0))

/-- O29. An acquire answers by the lock's state and takes no held lock. For a read of PST_LOCK_ACQ[i] that takes place (the port may make it and it need not wait): LOCK_ACQUIRE answers the word RESULT + 256 × OWNER, OWNER being the holder after the read; of a free lock the reader becomes the owner, with GRANTED (1), or ABANDONED (2) and the mark cleared; a lock that another holds answers HELD (3) and one that the reader holds ALREADY (4), and no lock changes. No other lock changes. A read that a port may not make, behind none of its earlier accesses, returns 0 and acquires nothing. -/
def Obligations.LockIsAcquiredOnce : Prop :=
  ∀ (p : Port) (i : Fin 256) (s : State),
    (s.takes p false .PST_LOCK_ACQ i = true →
      ∃ t result owner, exec (.lockAcquire p i) s = .next t ∧ t.out = s.out ++ [.readValue p (result + 256 * owner)] ∧
        owner = t.fld .PST_LOCK_OWNER i ∧ Within [.PST_LOCK] [.crossings, .outputs] s t ∧
        (∀ j : Nat, j ≠ i → t.fld .PST_LOCK_OWNER j = s.fld .PST_LOCK_OWNER j ∧ t.fld .PST_LOCK_ABANDONED j = s.fld .PST_LOCK_ABANDONED j) ∧
        (s.fld .PST_LOCK_OWNER i = 0 → s.on .PST_LOCK_ABANDONED i = false →
          result = 1 ∧ owner = portIdent p ∧ t.on .PST_LOCK_ABANDONED i = false) ∧
        (s.fld .PST_LOCK_OWNER i = 0 → s.on .PST_LOCK_ABANDONED i = true →
          result = 2 ∧ owner = portIdent p ∧ t.on .PST_LOCK_ABANDONED i = false) ∧
        (s.fld .PST_LOCK_OWNER i ≠ 0 → s.fld .PST_LOCK_OWNER i ≠ portIdent p → result = 3 ∧ Within [] [.crossings, .outputs] s t) ∧
        (s.fld .PST_LOCK_OWNER i = portIdent p → result = 4 ∧ Within [] [.crossings, .outputs] s t)) ∧
    (s.reaches p = true → s.portBusy p = false → s.may p false .PST_LOCK_ACQ i = false →
      ∃ t, exec (.lockAcquire p i) s = .next t ∧ t.out.getLast? = some (.readValue p 0) ∧ Within (signals (errors [])) (signalled []) s t)

/-- O30. A domain declared stopped clears RUN, sets STOP and raises source 4. For every domain d but D24: DOMAIN_STOPPED of a running domain clears RUN bit d and no other, sets STOP bit d and no other, and raises source 4; DOMAIN_RUNNING of a stopped domain, where nothing waits for a domain once it runs, sets RUN bit d and no other, raises source 4 and leaves STOP. -/
def Obligations.DomainStopsAndRuns : Prop :=
  ∀ (d : Fin 25) (s : State), d.val ≠ 24 →
    (s.runs d = true →
      ∃ t, exec (.domainStopped d) s = .next t ∧ t.pends 4 = true ∧
        (∀ e : Fin 25, t.runs e = (s.runs e && decide (e ≠ d))) ∧
        ∀ e : Fin 25, bitOf (t.fld .DEV_ISL_STOP_STOP 0) e = (bitOf (s.fld .DEV_ISL_STOP_STOP 0) e || decide (e = d))) ∧
    (s.runs d = false → (s.startDomain d).NothingWaits →
      ∃ t, exec (.domainRunning d) s = .next t ∧ t.pends 4 = true ∧
        (∀ e : Fin 25, t.runs e = (s.runs e || decide (e = d))) ∧
        t.fld .DEV_ISL_STOP_STOP 0 = s.fld .DEV_ISL_STOP_STOP 0)

/-- O31. The logbook writer stops, and later records are lost. With a record queued and the writer not stopped, LOG_RECORD_WRITE where the logbook area is read-only or the program fails with no spare sets STOPPED, raises source 14 and writes no record. While STOPPED, LOG_RECORD_WRITE changes nothing, and a raise leaves STOPPED, the queue, the records and the run of lost records, and still sets its bit of EVT_PEND; where EVT_ROUTE.LOG is set for the source, EVT_LOG_LOST counts at least one more, up to its greatest value. -/
def Obligations.LogbookStopsForGood : Prop :=
  (∀ (r : ProgResult) (s : State), s.evt.queue ≠ [] → s.on .EVT_LOG_STAT_STOPPED 0 = false →
    (bitOf (s.fld .CFG_NVM_STAT_RO_AREA 0) 5 = true ∨ r = .unreplaceable) →
    ∃ t, exec (.logRecordWrite r) s = .next t ∧ t.on .EVT_LOG_STAT_STOPPED 0 = true ∧ t.pends 14 = true ∧
      t.evt.book = s.evt.book ∧ t.evt.nextSeq = s.evt.nextSeq) ∧
  (∀ (r : ProgResult) (s : State), s.on .EVT_LOG_STAT_STOPPED 0 = true → exec (.logRecordWrite r) s = .next s) ∧
  (∀ (src : Fin 256) (s : State), s.on .EVT_LOG_STAT_STOPPED 0 = true →
    ∃ t, exec (.eventRaise src) s = .next t ∧ t.on .EVT_LOG_STAT_STOPPED 0 = true ∧ t.evt.queue = s.evt.queue ∧
      t.evt.lost = s.evt.lost ∧ t.evt.book = s.evt.book ∧ t.pends src = true ∧
      (s.on .EVT_ROUTE_LOG src = true → min (s.fld .EVT_LOG_LOST_LOST 0 + 1) (2 ^ 32 - 1) ≤ t.fld .EVT_LOG_LOST_LOST 0))

/-- O32. A counter wraps past 2^48 - 1 with OVF, and CLEAR zeroes it. An enabled counter i adds its increment modulo 2^48: without a wrap nothing else changes; a wrap sets its OVF, shown in PERF_CNT and PERF_OVF, and raises source 15. A write of PERF_SEL[i] with CLEAR that takes place sets count and OVF of that counter to 0, and changes neither of any other counter. -/
def Obligations.CounterWrapsAndClears : Prop :=
  (∀ (i : Fin 256) (n : Fin 65) (s : State), s.on .PERF_SEL_EN i = true →
    ∃ t, exec (.perfWrap i n) s = .next t ∧ t.fld .PERF_CNT_COUNT i = (s.fld .PERF_CNT_COUNT i + n) % 2 ^ 48 ∧
      (s.fld .PERF_CNT_COUNT i + n < 2 ^ 48 → Within [.PERF_CNT] [] s t ∧ t.fld .PERF_CNT_OVF i = s.fld .PERF_CNT_OVF i) ∧
      (2 ^ 48 ≤ s.fld .PERF_CNT_COUNT i + n →
        Within (signals [.PERF_CNT, .PERF_OVF]) (signalled []) s t ∧ t.fld .PERF_CNT_OVF i = 1 ∧
        bitOf (t.fld .PERF_OVF_OVF (i / 32)) (i % 32) = true ∧ t.pends 15 = true)) ∧
  (∀ (p : Port) (i : Fin 256) (value : Word) (s : State), s.takes p true .PERF_SEL i = true → bitOf value.toNat 18 = true →
    ∃ t, exec (.perfClear p i value) s = .next t ∧ t.fld .PERF_CNT_COUNT i = 0 ∧ t.fld .PERF_CNT_OVF i = 0 ∧
      bitOf (t.fld .PERF_OVF_OVF (i / 32)) (i % 32) = false ∧
      (∀ k : Fin 256, k ≠ i → t.fld .PERF_CNT_COUNT k = s.fld .PERF_CNT_COUNT k ∧
        bitOf (t.fld .PERF_OVF_OVF (k / 32)) (k % 32) = bitOf (s.fld .PERF_OVF_OVF (k / 32)) (k % 32)) ∧
      Within [.PERF_CNT, .PERF_OVF, .PERF_SEL] [.crossings] s t)

/-- O33. A sorter in use keeps MODE, ORDER and AXIS. A write of SRT_CTL[n] that takes place: with EN 0 and no entry held, MODE, ORDER and AXIS take the value's fields; with EN 1 or an entry held they stay, and where the write would change one, CFG_ERR is set and source 48 + n raised. EN takes the value's bit 0, but an enable with ORDER 0b11 leaves EN, sets CFG_ERR and raises source 48 + n. Nothing else changes but the crossing that the access passes (R92), what the raise changes and what the sorter's cells then drive. -/
def Obligations.SorterKeepsItsOrder : Prop :=
  ∀ (p : Port) (n : Fin 64) (value : Word) (s : State), s.takes p true .SRT_CTL n = true →
    ∃ t, exec (.sorterCtlWrite p n value) s = .next t ∧
      let named := t.fld .SRT_CTL_MODE n = value.toNat / 2 % 2 ∧ t.fld .SRT_CTL_ORDER n = value.toNat / 4 % 4 ∧
        t.fld .SRT_CTL_AXIS n = value.toNat / 16 % 8
      let kept := t.fld .SRT_CTL_MODE n = s.fld .SRT_CTL_MODE n ∧ t.fld .SRT_CTL_ORDER n = s.fld .SRT_CTL_ORDER n ∧
        t.fld .SRT_CTL_AXIS n = s.fld .SRT_CTL_AXIS n
      let refused := t.on .SRT_STAT_CFG_ERR n = true ∧ t.pends (48 + n) = true
      (s.on .SRT_CTL_EN n = false → (s.srt n).entries = [] → named) ∧
      (s.on .SRT_CTL_EN n = true ∨ (s.srt n).entries ≠ [] → kept ∧ (named ∨ refused)) ∧
      (t.fld .SRT_CTL_ORDER n ≠ 3 ∨ value.toNat % 2 = 0 → t.fld .SRT_CTL_EN n = value.toNat % 2) ∧
      (t.fld .SRT_CTL_ORDER n = 3 → value.toNat % 2 = 1 → t.fld .SRT_CTL_EN n = s.fld .SRT_CTL_EN n ∧ refused) ∧
      Within (signals [.PIN_GSTAT, .PIN_ICONF, .PIN_OCONF, .SRT_CTL, .SRT_STAT]) (signalled [.crossings, .flying, .pins, .trees]) s t

/-- O34. The life cycle permits or refuses an instruction of the test access port. For a life-cycle state of R501 (0..4) and an instruction code: a permitted instruction other than SCAN is in force and nothing else changes but TAP_STATE (a free value, log 3) and what the pads show, which EXTEST, CLAMP and HIGHZ take from the boundary register; IDCODE presents the device's code; a refused or unknown code acts as BYPASS (0xFF), sets DEV_SEC_STAT.TAP_REFUSED and raises source 244. -/
def Obligations.TapInstructionByLifeCycle : Prop :=
  ∀ (code : BitVec 8) (s : State), s.fld .DEV_LC_STATE 0 ≤ 4 →
    let lc := s.fld .DEV_LC_STATE 0
    let permitted := code = 0x01 ∨ code = 0x02 ∨ code = 0x20 ∨ code = 0xFF ∨
      ((code = 0x00 ∨ code = 0x04 ∨ code = 0x05) ∧ lc ≠ 2) ∨ (code = 0x30 ∧ (lc = 0 ∨ lc = 3))
    (permitted → code ≠ 0x30 → ∃ t, exec (.tapInstruction code) s = .next t ∧ t.fld .TST_TAP_STAT_INSTRUCTION 0 = code.toNat ∧
      (code = 0x01 → .tap 0x10144DA3 ∈ t.out) ∧
      Within (signals [.PIN_GSTAT, .PIN_ICONF, .PIN_OCONF, .TST_TAP_STAT]) (signalled [.flying, .pins, .trees]) s t) ∧
    (¬ permitted → ∃ t, exec (.tapInstruction code) s = .next t ∧ t.fld .TST_TAP_STAT_INSTRUCTION 0 = 0xFF ∧
      t.on .DEV_SEC_STAT_TAP_REFUSED 0 = true ∧ t.pends 244 = true ∧
      Within (signals [.DEV_SEC_STAT, .PIN_GSTAT, .PIN_ICONF, .PIN_OCONF, .TST_TAP_STAT]) (signalled [.flying, .pins, .trees]) s t)

/-- O35. POS_SNAP_CMD.SNAP captures every axis and the timebase. For a write of POS_SNAP_CMD that takes place: POS_SNAP puts the position and the epoch of every axis into POS_AX_SNAP and POS_AX_SNAP_EPOCH and the timebase into POS_SNAP_TB, and changes nothing else but the crossing that the access passes (R92). -/
def Obligations.SnapshotTakesEveryAxis : Prop :=
  ∀ (p : Port) (s : State), s.takes p true .POS_SNAP_CMD 0 = true →
    ∃ t, exec (.posSnap p) s = .next t ∧
      (∀ a : Fin 8, t.fld .POS_AX_SNAP_VALUE a = s.fld .POS_AX_POS_VALUE a ∧
        t.fld .POS_AX_SNAP_EPOCH_VALUE a = s.fld .POS_AX_EPOCH_VALUE a) ∧
      t.fld .POS_SNAP_TB_TB 0 = s.fld .PERF_TB_TB 0 ∧ Within [.POS_AX_SNAP, .POS_AX_SNAP_EPOCH, .POS_SNAP_TB] [.crossings] s t

/-- O36. Reset leaves every sorter disabled and empty. In State.reset every sorter has EN 0, MODE 0, ORDER 0 and AXIS 0, holds no entry, and reads COUNT 0, EMPTY 1, FULL 0 and CFG_ERR 0. -/
def Obligations.ResetEmptiesTheSorters : Prop :=
  ∀ n : Fin 64, State.reset.fld .SRT_CTL_EN n = 0 ∧ State.reset.fld .SRT_CTL_MODE n = 0 ∧ State.reset.fld .SRT_CTL_ORDER n = 0 ∧
    State.reset.fld .SRT_CTL_AXIS n = 0 ∧ State.reset.fld .SRT_STAT_COUNT n = 0 ∧ State.reset.fld .SRT_STAT_EMPTY n = 1 ∧
    State.reset.fld .SRT_STAT_FULL n = 0 ∧ State.reset.fld .SRT_STAT_CFG_ERR n = 0 ∧ (State.reset.srt n).entries = []

/-- O37. A read of a clearing register returns its value and then clears it. For each command that reads a register with fields of type RC (CFG_NVM_CNT, CFG_ISO_CNT, CFG_RGN_UPSET, CFG_SCRUB_CNT, PWR_RGN_LOOP, DEV_RNG_STAT, EVT_LOG_LOST, DEV_FRK_MISS, DEV_FRK_STAT, MEM_STK_ECNT, MEM_HOME_CNT, SEAL_LINE_CNT, SEAL_STORE_CNT, DEV_XDROP, LANE_CNT, LANE_ERRCNT, LANE_ETH_CNT, LNK_CNT_FEC, LNK_CNT_FLIT, LNK_CNT_LINK, LNK_CNT_EXP, PIN_PLC_CNT, POS_STRB_STAT, POS_AX_ERRCNT, SRT_ERR), where the read takes place: it returns the word as it stood (LANE_CNT_READ with what the lane's PRBS checker has found added, R261), every RC field of the element read is 0 after, and nothing else changes but the crossing that the access passes (R92). -/
def Obligations.ClearingReadsReturnAndClear : Prop :=
  ∀ (c : Instr) (p : Port) (r : Reg) (i : Nat) (s : State), clearingRead c = some (p, r, i) → s.takes p false r i = true →
    ∃ t, exec c s = .next t ∧ t.out = s.out ++ [.readValue p ((s.counted c).regWord r i)] ∧ Within [r] [.crossings, .outputs] s t ∧
      ∀ f : Fld, f.spec.reg = r → ∀ j : Nat, t.fld f j = if f.spec.ty = .RC ∧ j = i then 0 else s.fld f j

/-- O38. An access of another width than 32 bits, or not aligned to 4 bytes, is discarded. For such a write and such a read of a port whose accesses reach the device and none of whose earlier accesses waits: the write changes nothing and the read returns 0; either sets DEV_ACCESS_ERR.ERR and raises event source 2. Beside that a write into the PIN window abandons a lock sequence (R151), and a region that is not WOKEN absorbs its reply token (R79, R444). (The flag FORM and the captured access are those of R19 and R20.) -/
def Obligations.MisformedAccessesAreDiscarded : Prop :=
  ∀ (p : Port) (addr : BitVec 25) (bytes : Fin 9) (value : Word) (s : State), s.reaches p = true → s.portBusy p = false →
    (bytes.val ≠ 4 ∨ addr.toNat % 4 ≠ 0) →
    ∃ t u, exec (.registerWrite p addr bytes value) s = .next t ∧ exec (.wideValueLowRead p ⟨addr, bytes⟩) s = .next u ∧
      Output.readValue p 0 ∈ u.out.drop s.out.length ∧
      ∀ v ∈ [t, u], Within (signals (errors [.CFG_ISO_CNT, .PIN_GSTAT])) (signalled [.pins]) s v ∧ v.on .DEV_ACCESS_ERR_ERR 0 = true ∧
        v.on .DEV_ACCESS_ERR_FORM 0 = true ∧ v.pends 2 = true

/-- O39. An address that holds no register reads 0 and discards writes. For an aligned 32-bit access, by a port that may make it, to an address in the register space that holds no register (the address that the BAR of PF1..PF3 gives it, R251), none of the port's earlier accesses and no stopped domain holding it back: the read returns 0 and the write changes nothing; either sets DEV_ACCESS_ERR.ERR and raises event source 2. Beside that the crossing that the access passes moves (R92), a write into the PIN window abandons a lock sequence (R151), and a region that is not WOKEN absorbs its reply token (R79, R444). -/
def Obligations.UnmappedAddressesReadZero : Prop :=
  ∀ (p : Port) (addr : BitVec 25) (value : Word) (s : State), s.reaches p = true → addr.toNat % 4 = 0 → targetAt (barView p addr.toNat) = .nothing →
    s.mustWait p (addrDomain (barView p addr.toNat)) = false →
    let recorded := fun (t : State) => Within (signals (errors [.CFG_ISO_CNT, .PIN_GSTAT])) (signalled [.crossings, .pins]) s t ∧
      t.on .DEV_ACCESS_ERR_ERR 0 = true ∧ t.on .DEV_ACCESS_ERR_UNMAPPED 0 = true ∧ t.pends 2 = true
    (s.mayAt p true (barView p addr.toNat) = true → ∃ t, exec (.registerWrite p addr 4 value) s = .next t ∧ recorded t) ∧
    (s.mayAt p false (barView p addr.toNat) = true → ∃ t, exec (.wideValueLowRead p ⟨addr, 4⟩) s = .next t ∧
      Output.readValue p 0 ∈ t.out.drop s.out.length ∧ recorded t)

/-- O40. An access to a stopped domain waits. For an aligned 32-bit access, by a port that may make it, to an address (the one that the BAR of PF1..PF3 gives it) of a domain that is stopped or held, or behind an earlier access of the port that waits: it joins the end of the waiting accesses, and beside a place it takes in the domain's crossing queue nothing changes and nothing is returned. -/
def Obligations.AccessesToAStoppedDomainWait : Prop :=
  ∀ (p : Port) (addr : BitVec 25) (value : Word) (s : State), s.reaches p = true → addr.toNat % 4 = 0 → s.mustWait p (addrDomain (barView p addr.toNat)) = true →
    (s.mayAt p true (barView p addr.toNat) = true → ∃ t held queued, exec (.registerWrite p addr 4 value) s = .next t ∧
      t.waiting = s.waiting ++ [⟨p, barView p addr.toNat, true, value.toNat, false, held, queued⟩] ∧ Within [] [.crossings, .waiting] s t) ∧
    (s.mayAt p false (barView p addr.toNat) = true → ∃ t held queued, exec (.wideValueLowRead p ⟨addr, 4⟩) s = .next t ∧
      t.waiting = s.waiting ++ [⟨p, barView p addr.toNat, false, 0, false, held, queued⟩] ∧ Within [] [.crossings, .waiting] s t)

/-- O41. The model's clock counts the ticks. For every step from a state: the clock has advanced by 1 where no command waited and stands where one ran. (The model's own: log 99.) -/
def Obligations.ClockCountsTheTicks : Prop :=
  ∀ s t : State, step s = .next t → t.clock = s.clock + (if s.pending = [] then 1 else 0)

/-- O42. A command that reports the end of a time does nothing before that time has passed. For each such command: FREEZE_TIMEOUT (1 us), ISLAND_RESET_RELEASE (1 us), FIRMWARE_WATCHDOG (100 ms), DONE_WAIT_TIMEOUT (1 s), BROADCAST_WAIT_TIMEOUT (30 s), BROADCAST_GAP_TIMEOUT and BROADCAST_POLL_TIMEOUT (10 ms), BANK_RANGE_MISMATCH (50 ms), BANK_SUPPLY_LOSS_HOLD (100 us), AIN_STALE (500 us), UNDERRUN_REPORT (100 ms), LINK_DOWN_TIMEOUT and STITCH_LINK_TIMEOUT (10 ms), MEMBER_UNREACHABLE (3 ms), RING_CONFIG_TIMEOUT (100 ms), NAK_REPEAT (10 us), LINK_STATE_TIMEOUT, BACKOFF_EXPIRED, ACTIVE_HELD (1 s), TIMING_TIMEOUT (1 ms), WIDTH_REQ_RESEND (1 ms), LANE_REJOIN (100 ms), LINK_SILENCE_TIMEOUT (10 us), USER_CLOCK_LOSS (4 us), RP_PERST_RELEASE (100 ms). (What counts the time is the model's clock: log 99.) -/
def Obligations.NothingHappensBeforeItsTime : Prop :=
  ∀ (c : Instr) (s : State), s.timeUp c = false → exec c s = .next s

/-- O43. The state after reset shows its fuses. In State.reset no fuse group is blown and DEV_LC.STATE is BLANK (0), the state of the last blown group. -/
def Obligations.ResetShowsTheFuses : Prop :=
  State.reset.ShowsFuses ∧ State.reset.lifeCycle = 0

/-- O44. DEV_LC.STATE always shows the fuses. For every state in which the life-cycle state shown is that of the last blown fuse group, every step leaves one in which it is. -/
def Obligations.StepsKeepTheFusesShown : Prop :=
  ∀ s t : State, s.ShowsFuses → step s = .next t → t.ShowsFuses

/-- O45. The life cycle moves only by its four services, along their rows. For a state that shows its fuses and every command that is not a start, which reads the fuses anew (SUPPLY_STABLE, REGULATORS_UP, RESET_N_HIGH, DEVICE_RESET_ENTRY): the life-cycle state after it is what it was, or the command was KEY.PROVISION from BLANK or RETURN to PROVISIONED, KEY.LOCK from PROVISIONED to FIELD, KEY.RETURN from FIELD to RETURN, or KEY.SCRAP from any state but SCRAPPED to SCRAPPED. -/
def Obligations.LifeCycleMovesByItsServices : Prop :=
  ∀ (c : Instr) (s t : State), s.ShowsFuses → exec c s = .next t →
    (∀ f, c ≠ .supplyStable f) → (∀ f, c ≠ .regulatorsUp f) → (∀ f, c ≠ .resetNHigh f) → (∀ f, c ≠ .deviceResetEntry f) →
    t.lifeCycle = s.lifeCycle ∨
    (∃ L u, c = .keyProvision L u ∧ (s.lifeCycle = 0 ∨ s.lifeCycle = 3) ∧ t.lifeCycle = 1) ∨
    (∃ L, c = .keyLock L ∧ s.lifeCycle = 1 ∧ t.lifeCycle = 2) ∨
    (∃ L, c = .keyReturn L ∧ s.lifeCycle = 2 ∧ t.lifeCycle = 3) ∨
    (∃ L, c = .keyScrap L ∧ s.lifeCycle ≠ 4 ∧ t.lifeCycle = 4)

/-- O46. A line reads as it was last written, sealed or not. For every line l and a value below 2^512: after a write of the line the value that the line holds is that value, and every other line holds what it held. Of a SEALED line the stacks hold the XTS ciphertext under its tweak, with the tag of that ciphertext in its slot; of a PLAIN line the value itself. -/
def Obligations.LinesReadAsWritten : Prop :=
  ∀ (s : State) (l v : Nat), v < 2 ^ 512 →
    (s.putLine l v).lineAt l = v ∧ (∀ k, k ≠ l → (s.putLine l v).lineAt k = s.lineAt k) ∧
    (s.isSealed l = true → (s.putLine l v).rawLine l = s.encryptLine l v ∧
      (s.putLine l v).tagSlot l = s.lineTag l (s.encryptLine l v)) ∧
    (s.isSealed l = false → (s.putLine l v).rawLine l = v)

/-- O47. A wrapped key unwraps to the key. For every pair of keys, the 40-byte record of the one under the other passes its integrity check and gives the key back. -/
def Obligations.WrappedKeysUnwrap : Prop :=
  ∀ key k : BitVec 256, (wrapKey key k).length = 40 ∧ unwrapKey key (wrapKey key k) = some k

/-- O48. What GCM's counter mode has encrypted it decrypts. For every key, nonce and text, the text encrypted twice is the text, of its length. -/
def Obligations.CounterModeDecrypts : Prop :=
  ∀ (key : BitVec 256) (iv text : List Byte), (gcmCrypt key iv text).length = text.length ∧ gcmCrypt key iv (gcmCrypt key iv text) = text

/-- O49. A port of a fabric cache agent serves the operations of its table. For an agent at rest (its region WOKEN, no request at its ports) and a header of the operation's tag, l its line and x the line as the agent holds it, not being written back: READ and READ_NA reply status 0 with the data on a hit, else send RD_SHARED or RD_CUR; READ_OWN replies where the line is held in E or M, else sends RD_OWN, which says whether the line is held in S; WRITE and WRITE_NA merge the masked bytes into a line held in E or M, which becomes M, and reply status 0, else WRITE sends RD_OWN, and WRITE_NA drops the line and sends WR_PTL with the data and mask; FLUSH sends WB_DIRTY with the data of M, or EVICT_CLEAN for E, and drops S or I with status 0. While the line's writeback is not acknowledged each of them waits. -/
def Obligations.AgentOperationsAreServed : Prop :=
  ∀ (a p : Fin 16) (h : WordToken) (low high : HalfLine) (s : State), s.AgentRests a →
    let l := h.data
    let x := s.cached a l
    let data := low.data + high.data * 2 ^ 256
    let mask := low.mask + high.mask * 2 ^ 32
    let merged : CLine := ⟨3, mergeLine x.data data mask 64 0, false⟩
    let asks := fun (t : State) (kind : MsgKind) (data aux : Nat) => t.Holds a p true ∧ t.Sends kind a l data aux
    (x.wb = true → ∀ c ∈ [(0, Instr.agentRead a p h), (1, .agentReadOwn a p h), (2, .agentWrite a p h low high), (3, .agentWriteNa a p h low high),
        (4, .agentReadNa a p h), (5, .agentFlush a p h)], h.tag = c.1 → ∃ t, exec c.2 s = .next t ∧ t.Holds a p false ∧ t.cached a l = x) ∧
    (x.wb = false →
      (h.tag = 0 → ∃ t, exec (.agentRead a p h) s = .next t ∧ t.cached a l = x ∧
        (1 ≤ x.st → t.Replied a p 0 l (some x.data)) ∧ (x.st = 0 → asks t .rdShared 0 0)) ∧
      (h.tag = 1 → ∃ t, exec (.agentReadOwn a p h) s = .next t ∧ t.cached a l = x ∧
        (2 ≤ x.st → t.Replied a p 0 l (some x.data)) ∧ (x.st ≤ 1 → asks t .rdOwn 0 x.st)) ∧
      (h.tag = 2 → ∃ t, exec (.agentWrite a p h low high) s = .next t ∧
        (2 ≤ x.st → t.cached a l = merged ∧ t.Replied a p 0 l none) ∧ (x.st ≤ 1 → t.cached a l = x ∧ asks t .rdOwn 0 x.st)) ∧
      (h.tag = 3 → ∃ t, exec (.agentWriteNa a p h low high) s = .next t ∧
        (2 ≤ x.st → t.cached a l = merged ∧ t.Replied a p 0 l none) ∧ (x.st ≤ 1 → t.cached a l = CLine.invalid ∧ asks t .wrPtl data mask)) ∧
      (h.tag = 4 → ∃ t, exec (.agentReadNa a p h) s = .next t ∧ t.cached a l = x ∧
        (1 ≤ x.st → t.Replied a p 0 l (some x.data)) ∧ (x.st = 0 → asks t .rdCur 0 0)) ∧
      (h.tag = 5 → ∃ t, exec (.agentFlush a p h) s = .next t ∧
        (x.st = 3 → t.cached a l = { x with wb := true } ∧ asks t .wbDirty x.data 0) ∧
        (x.st = 2 → t.cached a l = { x with wb := true } ∧ asks t .evictClean 0 0) ∧
        (x.st ≤ 1 → t.cached a l = CLine.invalid ∧ t.Replied a p 0 l none)))

/-- O50. STREAM, FENCE and the reserved operations of an agent port. For an agent at rest: a STREAM whose destination is not bound to the port, and an operation of tag 0x8 to 0xF, reply status 0x1 with the header's data and set REFUSED; a STREAM to a bound lane replies status 0 where the lane's octet runs and is not held, and waits where it does not; a STREAM to a bound sorter that no other STREAM waits for replies status 0 once its last entry is in, and until then the port holds it while entries wait; FENCE with nothing before it replies status 0. (How a destination word names a lane or a sorter is the model's: log 90.) -/
def Obligations.AgentStreamsAndFences : Prop :=
  ∀ (a p : Fin 16) (h : WordToken) (low high : HalfLine) (s : State), s.AgentRests a →
    let l := h.data
    (h.tag = 6 → ∃ t, exec (.agentStream a p h low high) s = .next t ∧
      (s.destBound a p (destOf l) = false → t.Replied a p 1 l none ∧ t.on .CFG_AGT_STAT_REFUSED a = true) ∧
      (s.destBound a p (destOf l) = true → ∀ n vl, destOf l = .lane n vl →
        (s.domainWaits (some (n / 8)) = false → t.Replied a p 0 l none) ∧
        (s.domainWaits (some (n / 8)) = true → ∃ r, t.portReqs a p = [r] ∧ r.done = none)) ∧
      (s.destBound a p (destOf l) = true → ∀ n, destOf l = .sorter n → (s.srt n).streams = [] →
        t.Replied a p 0 l none ∨ (t.Holds a p true ∧ (t.srt n).streams ≠ []))) ∧
    (h.tag = 7 → ∃ t, exec (.agentFence a p h) s = .next t ∧ t.Replied a p 0 l none) ∧
    (8 ≤ h.tag → ∃ t, exec (.agentReservedOp a p h) s = .next t ∧ t.Replied a p 1 l none ∧ t.on .CFG_AGT_STAT_REFUSED a = true)

/-- O51. A home serves a request for an UNCACHED line. For a request that reaches the home of line l alone, as the message that its requester sent or as the command gives it, with the home open, no request or write waiting at the homes, the line UNCACHED in a PLAIN granule with no failure, and room in its directory set: RD_SHARED grants the line SHARED by the requester and sends DATA_S with the memory's value; RD_OWN grants it OWNED and sends DATA_E; RD_CUR leaves the directory and sends CMP with the value; WR_PTL merges the masked bytes into memory, leaves the line UNCACHED and sends CMP. -/
def Obligations.HomeServesUncachedLines : Prop :=
  ∀ (l : BitVec 32) (r : HomeReq) (kind : HomeKind) (s s1 : State) (q : HomeReq),
    s.HomesRest → s.homeOpen l.toNat = true → s.dirAt l.toNat = DirLine.idle →
    (s.setEntries l.toNat).length < 16 → s.isSealed l.toNat = false → Tbl.find 0 s.seals.failing l.toNat = 0 → r.touch.ecc = .clean →
    s.arrived l.toNat { r with kind := kind } = some (s1, q) →
    let l := l.toNat
    let v := s.lineAt l
    let granted := fun (t : State) => ((t.dirAt l).txn.map fun x => (x.req, x.granted)) = some (some q, true)
    match kind with
    | .rdShared => ∃ t, exec (.homeRdShared l r []) s = .next t ∧ (t.dirAt l).st = 1 ∧ (t.dirAt l).sharers = [r.who.val] ∧ granted t ∧
        t.Sends .dataS r.who l v 0 ∧ t.lineAt l = v
    | .rdOwn => ∃ t, exec (.homeRdOwn l r []) s = .next t ∧ (t.dirAt l).st = 2 ∧ (t.dirAt l).owner = r.who.val ∧ granted t ∧
        t.Sends .dataE r.who l v 0 ∧ t.lineAt l = v
    | .rdCur => ∃ t, exec (.homeRdCur l r []) s = .next t ∧ (t.dirAt l).st = 0 ∧ (t.dirAt l).txn = none ∧ t.Sends .cmp r.who l v 0 ∧ t.lineAt l = v
    | .wrPtl => ∃ t, exec (.homeWrPtl l r []) s = .next t ∧ (t.dirAt l).st = 0 ∧ (t.dirAt l).txn = none ∧ t.Sends .cmp r.who l 0 0 ∧
        t.lineAt l = mergeLine v q.data.toNat q.mask.toNat 64 0

/-- O52. A home takes back a line that its owner gives up. For an owner whose writeback reaches the home of a line in a PLAIN granule, the home taking messages, with no request in service for the line and none waiting at the homes: WB_DIRTY (the message that the agent sent, or a Postroom core's with the command's data) writes its data to memory, EVICT_CLEAN leaves memory as it was; the line is UNCACHED and WB_ACK goes to the agent. -/
def Obligations.HomeTakesBackLines : Prop :=
  ∀ (l : BitVec 32) (who : Fin 20) (data : BitVec 512) (s : State),
    s.HomesRest → s.homeDeaf l.toNat = false → (s.dirAt l.toNat).txn = none → (s.dirAt l.toNat).st = 2 → (s.dirAt l.toNat).owner = who.val →
    s.granule (lineGranule l.toNat) = 0 →
    let n := l.toNat
    (∀ v : Nat, v < 2 ^ 512 → ((∃ m, s.msg .wbDirty who n = some m ∧ m.data = v) ∨ (s.msg .wbDirty who n = none ∧ 16 ≤ who.val ∧ data.toNat = v)) →
      ∃ t, exec (.homeWbDirty l who data []) s = .next t ∧ t.lineAt n = v ∧ (t.dirAt n).st = 0 ∧ (t.dirAt n).txn = none ∧ t.Sends .wbAck who n 0 0) ∧
    ((∃ m, s.msg .evictClean who n = some m) ∨ (s.msg .evictClean who n = none ∧ 16 ≤ who.val) →
      ∃ t, exec (.homeEvictClean l who) s = .next t ∧ t.lineAt n = s.lineAt n ∧ (t.dirAt n).st = 0 ∧ (t.dirAt n).txn = none ∧ t.Sends .wbAck who n 0 0)

/-- O53. A home takes the answers of a request in service. For a home that takes messages and an answer of an agent on its way whose snoop is outstanding, with another agent's outstanding too: RSP_I and RSP_S leave one answer fewer owed; RSP_DATA also brings the line's data; RSP_WB_PENDING makes the home wait for the agent's writeback, unless it has come. CMP_ACK ends the request that was granted: none is in service, and the directory stands. -/
def Obligations.HomeTakesAnswers : Prop :=
  ∀ (l : BitVec 32) (who : Fin 20) (s : State) (x : HomeTxn), s.homeDeaf l.toNat = false → (s.dirAt l.toNat).txn = some x →
    let n := l.toNat
    (who.val ∈ x.await → x.await.erase who.val ≠ [] →
      ((s.msg .rspI who n).isSome = true → ∃ t, exec (.homeRspI l who) s = .next t ∧
        (t.dirAt n).txn = some { x with await := x.await.erase who.val }) ∧
      ((s.msg .rspS who n).isSome = true → ∃ t, exec (.homeRspS l who) s = .next t ∧
        (t.dirAt n).txn = some { x with await := x.await.erase who.val }) ∧
      (∀ m, s.msg .rspData who n = some m → ∃ t, exec (.homeRspData l who) s = .next t ∧
        (t.dirAt n).txn = some { x with await := x.await.erase who.val, data := some m.data }) ∧
      ((s.msg .rspWb who n).isSome = true → ∃ t, exec (.homeRspWbPending l who) s = .next t ∧
        (t.dirAt n).txn = some { x with await := x.await.erase who.val, wbWait := if x.viaWb then x.wbWait else who.val :: x.wbWait })) ∧
    ((s.msg .cmpAck who n).isSome = true → x.granted = true → s.HomesRest → s.granule (lineGranule n) ≠ 2 →
      ∃ t, exec (.homeCmpAck l who) s = .next t ∧ t.dirAt n = { s.dirAt n with txn := none })

/-- O54. An agent answers a snoop by the state of its line. For a snoop that comes through to an agent, x the line it holds (with what a Postroom core has written into a line it owns): a line whose WB_DIRTY is not acknowledged answers RSP_WB_PENDING, one in M RSP_DATA with its data, one not held RSP_I, any other RSP_I to SNP_INV and RSP_S to SNP_SHARE and SNP_CUR; afterwards the line is dropped at SNP_INV, held in S at SNP_SHARE, and as it was at SNP_CUR. A line being given up stays as it was. -/
def Obligations.AgentAnswersSnoops : Prop :=
  ∀ (l : BitVec 32) (a : Fin 20) (wrote : Option (BitVec 512)) (s : State),
    let n := l.toNat
    let x := (s.coreWrote a n wrote).cached a n
    let answer := fun (t : State) (shared : MsgKind) =>
      if x.wb = true then t.Sends (if x.st = 3 then .rspWb else .rspI) a n 0 0
      else if x.st = 0 then t.Sends .rspI a n 0 0
      else if x.st = 3 then t.Sends .rspData a n x.data 0
      else t.Sends shared a n 0 0
    ((s.comeMsg .snpInv a n).isSome = true → ∃ t, exec (.agentSnpInv l a wrote) s = .next t ∧ answer t .rspI ∧
      t.cached a n = if x.wb = true then x else if x.st = 0 then x else CLine.invalid) ∧
    ((s.comeMsg .snpShare a n).isSome = true → ∃ t, exec (.agentSnpShare l a wrote) s = .next t ∧ answer t .rspS ∧
      t.cached a n = if x.wb = true then x else if x.st = 0 then x else { x with st := 1 }) ∧
    ((s.comeMsg .snpCur a n).isSome = true → ∃ t, exec (.agentSnpCur l a wrote) s = .next t ∧ answer t .rspS ∧ t.cached a n = x)

/-- O55. A grant that comes through to an agent is held and acknowledged. For an agent with room for the line and no request at its ports: DATA_S is held in S, DATA_E in E, or in M where it passes on data that memory does not hold (the model's: log 102), and CMP_ACK is sent; CMP to an agent that holds the line in S and awaits its ownership makes it E, and CMP to one whose READ_NA is the request at its ports replies status 0 with its data. A grant with a failing status leaves the cache as it was. WB_ACK drops a line that was being given up. -/
def Obligations.AgentTakesGrants : Prop :=
  (∀ (l : BitVec 32) (a : Fin 20) (s : State) (m : Msg), s.HasRoom a l.toNat →
    let n := l.toNat
    (s.comeMsg .dataS a n = some m → ∃ t, exec (.agentDataS l a none) s = .next t ∧
      (m.aux = 0 → t.cached a n = ⟨1, m.data, false⟩ ∧ t.Sends .cmpAck a n 0 0) ∧ (m.aux ≠ 0 → t.cached a n = s.cached a n)) ∧
    (s.comeMsg .dataE a n = some m → ∃ t, exec (.agentDataE l a none) s = .next t ∧
      (m.aux = 0 → t.cached a n = ⟨2, m.data, false⟩ ∧ t.Sends .cmpAck a n 0 0) ∧
      (m.aux = dirtyGrant → t.cached a n = ⟨3, m.data, false⟩ ∧ t.Sends .cmpAck a n 0 0) ∧
      (m.aux ≠ 0 → m.aux ≠ dirtyGrant → t.cached a n = s.cached a n)) ∧
    (∀ w : Fin 39, w.val = a.val → s.comeMsg .cmp a n = some m → s.awaitsOwn a n = true →
      ∃ t, exec (.agentCmp l w) s = .next t ∧ t.cached a n = ⟨2, (s.cached a n).data, false⟩ ∧ t.Sends .cmpAck a n 0 0) ∧
    (s.comeMsg .wbAck a n = some m → (s.cached a n).wb = true →
      ∃ t, exec (.agentWbAck l a) s = .next t ∧ t.cached a n = CLine.invalid)) ∧
  ∀ (l : BitVec 32) (w : Fin 39) (p : Fin 16) (s : State) (m : Msg) (r : PortReq), w.val < 16 → s.woken (agentRegion w) = true →
    s.comeMsg .cmp w l.toNat = some m → m.aux = 0 → s.awaitsOwn w l.toNat = false → (∀ q, q ≠ p.val → s.portReqs w q = []) →
    s.portReqs w p = [r] → r.op = .readNa → r.line = l.toNat → r.sent = true → r.done = none →
    ∃ t, exec (.agentCmp l w) s = .next t ∧ t.Replied w p 0 r.word (some m.data)

/-- O56. What happens in a stack. With PATROL on and the home of line l open, a patrol read that meets no error changes nothing, a corrected one sets CORR and counts, an uncorrectable one sets UNCORR, raises source 148 + k and leaves the line failing. A temperature is shown in TEMP, and one above TEMP_WARN sets TEMP_HI and raises source 148 + k where it was clear. The fill of a stack whose contents are lost ends with FILL_DONE and source 148 + k. A resynchronisation request makes an agent of a running domain write back its M lines of the stack, drop its others and report done; once every agent has, RESYNC clears and source 152 + k is raised. -/
def Obligations.StackEventsActOnTheStack : Prop :=
  (∀ (l : BitVec 32) (s : State), s.on .MEM_STK_CTL_PATROL (lineStack l.toNat) = true → s.homeOpen l.toNat = true →
    let k := lineStack l.toNat
    exec (.patrolRead l .clean) s = .next s ∧
    (∃ t, exec (.patrolRead l .corrected) s = .next t ∧ t.on .MEM_STK_ERR_CORR k = true ∧
      t.fld .MEM_STK_ECNT_CORR_CNT k = min (s.fld .MEM_STK_ECNT_CORR_CNT k + 1) (2 ^ 16 - 1)) ∧
    ∃ t, exec (.patrolRead l .uncorrectable) s = .next t ∧ t.on .MEM_STK_ERR_UNCORR k = true ∧ t.pends (148 + k) = true ∧
      Tbl.find 0 t.seals.failing l.toNat = 2) ∧
  (∀ (k : Fin 4) (temp : BitVec 8) (s : State), ∃ t, exec (.stackTempSample k temp) s = .next t ∧ t.fld .MEM_STK_STAT_TEMP k = temp.toNat ∧
    (s.fld .MEM_STK_CTL_TEMP_WARN k < temp.toNat → t.on .MEM_STK_ERR_TEMP_HI k = true ∧
      (s.on .MEM_STK_ERR_TEMP_HI k = false → t.pends (148 + k) = true)) ∧
    (temp.toNat ≤ s.fld .MEM_STK_CTL_TEMP_WARN k → Within [.MEM_STK_STAT] [] s t)) ∧
  (∀ (k : Fin 4) (s : State), s.on .MEM_STK_STAT_FILL_DONE k = false → s.resets.lostStacks = true → s.resets.stage = 0 →
    ∃ t, exec (.stackFillDone k) s = .next t ∧ t.on .MEM_STK_STAT_FILL_DONE k = true ∧ t.pends (148 + k) = true) ∧
  (∀ (k : Fin 4) (a : Fin 20) (s : State), s.on .MEM_STK_STAT_RESYNC k = true → a.val ∉ s.resyncDone k → a.val ∉ s.deadCores →
    ∃ t, exec (.stackResyncRequest k a) s = .next t ∧ t.resyncDone k = s.resyncDone k ++ [a.val] ∧
      ∀ l : BitVec 32, lineStack l.toNat = k.val →
        t.cached a l.toNat = if (s.cached a l.toNat).st = 3 then { s.cached a l.toNat with wb := true } else CLine.invalid) ∧
  ∀ (k : Fin 4) (s : State), s.on .MEM_STK_STAT_RESYNC k = true → s.domainWaits (some (18 + k.val)) = false →
    (∀ a : Fin 20, a.val ∈ s.resyncDone k ∨ a.val ∈ s.deadCores) →
    ∃ t, exec (.stackResyncDone k) s = .next t ∧ t.on .MEM_STK_STAT_RESYNC k = false ∧ t.resyncDone k = [] ∧ t.pends (152 + k) = true

/-- O57. A granule is converted. For a conversion command of the Postroom that takes place: while a conversion runs RESULT is 2, of a granule that is in the state asked for it is 3, and of one at the last epoch that SEAL names it is 4; any other makes the granule CONVERTING (2) with BUSY 1. A conversion whose homes hold no entry of the granule, with keys and every stack's domain running, neither held nor resynchronising, ends: the granule has its new state, its lines read 0, BUSY is 0, RESULT 1, and source 160 is raised. -/
def Obligations.GranulesAreConverted : Prop :=
  (∀ (g : BitVec 8) (toSealed : Bool) (s : State), s.takes .postroom true .SEAL_GRAN_CMD 0 = true →
    ∃ t, exec (if toSealed = true then .granuleSeal .postroom g else .granuleUnseal .postroom g) s = .next t ∧
      (s.on .SEAL_GRAN_RES_BUSY 0 = true → t.fld .SEAL_GRAN_RES_RESULT 0 = 2) ∧
      (s.on .SEAL_GRAN_RES_BUSY 0 = false →
        (s.granule g.toNat = b2n toSealed → t.fld .SEAL_GRAN_RES_RESULT 0 = 3) ∧
        (s.granule g.toNat ≠ b2n toSealed →
          (toSealed = true ∧ s.fld .SEAL_GRAN_EPOCH g.toNat = 2 ^ 24 - 1 → t.fld .SEAL_GRAN_RES_RESULT 0 = 4) ∧
          (¬ (toSealed = true ∧ s.fld .SEAL_GRAN_EPOCH g.toNat = 2 ^ 24 - 1) →
            t.granule g.toNat = 2 ∧ t.on .SEAL_GRAN_RES_BUSY 0 = true ∧ t.seals.converting = some (g.toNat, toSealed))))) ∧
  ∀ (g : Fin 256) (toSealed : Bool) (s : State), s.seals.converting = some (g.val, toSealed) →
    (∀ e ∈ s.memo.dir, lineGranule e.1 = g.val → e.2.st = 0) →
    (∀ k : Fin 4, s.on .SEAL_LINE_STAT_KEYS k = true ∧ s.domainWaits (some (18 + k.val)) = false ∧ s.on .MEM_STK_STAT_RESYNC k = false) →
    s.HomesRest →
    ∃ t, exec .conversionComplete s = .next t ∧ t.granule g = b2n toSealed ∧ t.on .SEAL_GRAN_RES_BUSY 0 = false ∧
      t.fld .SEAL_GRAN_RES_RESULT 0 = 1 ∧ t.pends 160 = true ∧ t.seals.converting = none ∧
      ∀ l : Nat, lineGranule l = g.val → t.lineAt l = 0

/-- O58. Supplies and RESET_N move the device through a start. VAON rising drives CFG_DONE low and MAIN_EN high, and the supply is awaited; VAON lost is a power-on reset that lasts until it rises. A stable supply starts the regulators, or ends the brown-out that it followed; the regulators up make every domain D18 to D23 run and release the reset. A reset is released where RESET_N is high, and waits for it where it is low: released, the cause is shown, and the device runs, but in SCRAPPED. RESET_N low outside a start, STANDBY, HIBERNATE and a scan is a pin reset of cause 2. A device reset whose caches are written back is entered. Power that returns in a wake is a wake reset. -/
def Obligations.StartsGoThroughTheirStages : Prop :=
  ∀ (f : StartFacts) (s : State),
    let released := fun (t : State) (cause : Nat) =>
      t.resets.stage = (if t.lifeCycle = 4 then 7 else 0) ∧ t.fld .DEV_RST_CAUSE_CAUSE 0 = cause % 16
    (s.resets.stage = 6 → ∃ t, exec .vaonRise s = .next t ∧ t.resets.stage = 1 ∧ t.out = s.out ++ [.cfgDone true, .mainEn true] ∧
      Within [] [.outputs, .resets] s t) ∧
    (∃ t, exec .vaonLoss s = .next t ∧ t.resets.stage = 6 ∧ t.resets.cause = 1 ∧ t.power.mainEn = false ∧
      .mainEn false ∈ t.out ∧ t.out.getLast? = some (.cfgDone false)) ∧
    (s.resets.stage = 1 → ∃ t, exec (.supplyStable f) s = .next t ∧ t.resets.stage = 2 ∧ t.resets.brown = false ∧ Within [] [.resets] s t) ∧
    (s.resets.stage = 4 → s.resets.brown = true → ∃ t, exec (.supplyStable f) s = .next t ∧ t.resets.brown = false ∧
      (s.resets.resetN = true → Within [] [.resets] s t ∧ t.resets.stage = 4) ∧ (s.resets.resetN = false → released t s.resets.cause)) ∧
    (s.resets.stage = 2 → ∃ t, exec (.regulatorsUp f) s = .next t ∧ (∀ d : Fin 25, 18 ≤ d.val → d.val ≤ 23 → t.runs d = true) ∧
      (s.resets.resetN = true → t.resets.stage = 3) ∧ (s.resets.resetN = false → released t s.resets.cause)) ∧
    (s.resets.stage = 0 → s.secure.scan = false → s.fld .PWR_STATE_STATE 0 < 2 →
      ∃ t, exec .resetNLow s = .next t ∧ t.resets.resetN = true ∧ t.resets.stage = 4 ∧ t.resets.cause = 2) ∧
    (s.resets.stage = 3 ∨ (s.resets.stage = 4 ∧ s.resets.brown = false) →
      ∃ t, exec (.resetNHigh f) s = .next t ∧ t.resets.resetN = false ∧ released t s.resets.cause) ∧
    (s.resets.stage = 5 → ∃ t, exec (.deviceResetEntry f) s = .next t ∧ t.resets.cause = 4 ∧
      (s.resets.resetN = true → t.resets.stage = 4) ∧ (s.resets.resetN = false → released t 4)) ∧
    (s.resets.stage = 0 → s.fld .PWR_STATE_STATE 0 = 3 → s.power.mainEn = true → s.power.wake ≠ 0 →
      ∃ t, exec .mainSupplyGood s = .next t ∧ t.resets.stage = 2 ∧ t.resets.cause = s.resets.cause)

/-- O59. Trained stacks, monitored rails and the end of a fabric reset. STACK_TRAINED of a running device takes a stack whose FILL_DONE is 0 out of self-refresh, and sets FILL_DONE at once exactly where the stacks have kept their contents. A monitor point that crosses its window, while no power-on reset lasts, shows in UV and OV on which side it stands; one that leaves it also sets UV_SEEN or OV_SEEN and raises source 10; one that passes no deeper threshold during no brown-out resets nothing. A fabric reset whose restores have ended, with no load in progress, ends with source 1. -/
def Obligations.StacksRailsAndFabricResets : Prop :=
  (∀ (k : Fin 4) (s : State), s.resets.stage = 0 → s.on .MEM_STK_STAT_FILL_DONE k = false →
    ∃ t, exec (.stackTrained k) s = .next t ∧ t.on .MEM_STK_STAT_SELF_REFRESH k = false ∧
      t.on .MEM_STK_STAT_FILL_DONE k = !s.resets.lostStacks) ∧
  (∀ (i : Fin 32) (side : Fin 3) (s : State), s.resets.stage ≠ 6 → s.resets.brown = false →
    ∃ t, exec (.monitorCrossing i side false) s = .next t ∧ t.on .PWR_MON_UV i = decide (side = 1) ∧ t.on .PWR_MON_OV i = decide (side = 2) ∧
      (side = 1 → t.on .PWR_MON_UV_SEEN i = true ∧ t.pends 10 = true) ∧ (side = 2 → t.on .PWR_MON_OV_SEEN i = true ∧ t.pends 10 = true) ∧
      Within (signals [.PWR_MON]) (signalled [.timers]) s t) ∧
  ∀ s : State, s.resets.fabric = true → s.config.load = none → s.restoring = [] →
    ∃ t, exec .fabricResetDone s = .next t ∧ t.resets.fabric = false ∧ t.pends 1 = true
end

