-- ==== Sys2Proof/Laws/Table.lean ====
section
/-! SUPPORT. The laws of sparse tables: a read after a write to the same key gives the value written, a write leaves
every other key alone, and every operation keeps the canonical form. None of them needs the table to be canonical but
the last. -/

namespace Sys2Proof.Machine

variable {α : Type}

@[simp] theorem Tbl.find_nil (d : α) (q : Nat) : Tbl.find d [] q = d := rfl

theorem Tbl.find_drop_same (d : α) (t : Tbl α) (q : Nat) : Tbl.find d (Tbl.drop t q) q = d := by
  induction t with
  | nil => rfl
  | cons e t ih => by_cases h : e.1 = q <;> simp [Tbl.drop, Tbl.find, h, ih]

theorem Tbl.find_drop_ne (d : α) (t : Tbl α) {q r : Nat} (h : q ≠ r) :
    Tbl.find d (Tbl.drop t q) r = Tbl.find d t r := by
  induction t with
  | nil => rfl
  | cons e t ih =>
    by_cases he : e.1 = q
    · have : e.1 ≠ r := he ▸ h
      simp [Tbl.drop, Tbl.find, he, h, ih]
    · simp [Tbl.drop, Tbl.find, he, ih]

theorem Tbl.find_ins_ne (d : α) (t : Tbl α) {q r : Nat} (h : q ≠ r) (v : α) :
    Tbl.find d (Tbl.ins t q v) r = Tbl.find d t r := by
  induction t with
  | nil => simp [Tbl.ins, Tbl.find, h]
  | cons e t ih =>
    by_cases he : q < e.1
    · simp [Tbl.ins, Tbl.find, he, h]
    · simp [Tbl.ins, Tbl.find, he, ih]

theorem Tbl.find_ins_drop (d : α) (t : Tbl α) (q : Nat) (v : α) :
    Tbl.find d (Tbl.ins (Tbl.drop t q) q v) q = v := by
  induction t with
  | nil => simp [Tbl.drop, Tbl.ins, Tbl.find]
  | cons e t ih =>
    by_cases he : e.1 = q
    · simp [Tbl.drop, he, ih]
    · by_cases hl : q < e.1
      · simp [Tbl.drop, Tbl.ins, Tbl.find, he, hl]
      · simp [Tbl.drop, Tbl.ins, Tbl.find, he, hl, ih]

/-- Read after write, same key. -/
@[simp] theorem Tbl.find_set_same [DecidableEq α] (d : α) (t : Tbl α) (q : Nat) (v : α) :
    Tbl.find d (Tbl.set d t q v) q = v := by
  unfold Tbl.set
  split
  · rename_i h; rw [Tbl.find_drop_same, h]
  · exact Tbl.find_ins_drop d t q v

/-- A write leaves every other key alone. -/
theorem Tbl.find_set_ne [DecidableEq α] (d : α) (t : Tbl α) {q r : Nat} (h : q ≠ r) (v : α) :
    Tbl.find d (Tbl.set d t q v) r = Tbl.find d t r := by
  unfold Tbl.set
  split
  · exact Tbl.find_drop_ne d t h
  · rw [Tbl.find_ins_ne d _ h, Tbl.find_drop_ne d t h]

theorem Tbl.find_set [DecidableEq α] (d : α) (t : Tbl α) (q r : Nat) (v : α) :
    Tbl.find d (Tbl.set d t q v) r = if q = r then v else Tbl.find d t r := by
  by_cases h : q = r
  · subst h; simp
  · simp [h, Tbl.find_set_ne]

theorem Tbl.find_keep (d : α) (p : Nat → Bool) (t : Tbl α) (q : Nat) :
    Tbl.find d (Tbl.keep p t) q = if p q then Tbl.find d t q else d := by
  induction t with
  | nil => simp [Tbl.keep]
  | cons e t ih =>
    by_cases he : e.1 = q
    · subst he; by_cases hp : p e.1 <;> simp [Tbl.keep, Tbl.find, hp, ih]
    · by_cases hp : p e.1 <;> simp [Tbl.keep, Tbl.find, hp, he, ih]

theorem Tbl.above_mono {n m : Nat} (h : n ≤ m) {t : Tbl α} (ht : Tbl.above m t = true) : Tbl.above n t = true := by
  induction t with
  | nil => rfl
  | cons e t ih =>
    simp only [Tbl.above, Bool.and_eq_true, decide_eq_true_eq] at ht ⊢
    exact ⟨by omega, ih ht.2⟩

theorem Tbl.above_drop {n : Nat} (q : Nat) {t : Tbl α} (ht : Tbl.above n t = true) :
    Tbl.above n (Tbl.drop t q) = true := by
  induction t with
  | nil => rfl
  | cons e t ih =>
    simp only [Tbl.above, Bool.and_eq_true] at ht
    by_cases h : e.1 = q <;> simp [Tbl.drop, Tbl.above, h, ih ht.2, ht.1]

theorem Tbl.above_keep {n : Nat} (p : Nat → Bool) {t : Tbl α} (ht : Tbl.above n t = true) :
    Tbl.above n (Tbl.keep p t) = true := by
  induction t with
  | nil => rfl
  | cons e t ih =>
    simp only [Tbl.above, Bool.and_eq_true] at ht
    by_cases h : p e.1 = true <;> simp [Tbl.keep, Tbl.above, h, ih ht.2]
    simpa using ht.1

theorem Tbl.above_ins {n q : Nat} (hq : n < q) (v : α) {t : Tbl α} (ht : Tbl.above n t = true) :
    Tbl.above n (Tbl.ins t q v) = true := by
  induction t with
  | nil => simp [Tbl.ins, Tbl.above, hq]
  | cons e t ih =>
    simp only [Tbl.above, Bool.and_eq_true] at ht
    by_cases h : q < e.1 <;> simp [Tbl.ins, Tbl.above, h, ih ht.2, ht.2, hq]
    · simpa using ht.1
    · simpa using ht.1

theorem Tbl.wf_drop [DecidableEq α] {d : α} (q : Nat) {t : Tbl α} (ht : Tbl.wf d t = true) :
    Tbl.wf d (Tbl.drop t q) = true := by
  induction t with
  | nil => rfl
  | cons e t ih =>
    simp only [Tbl.wf, Bool.and_eq_true] at ht
    by_cases h : e.1 = q <;> simp only [Tbl.drop, h, if_true, if_false, ih ht.2, Tbl.wf, Bool.and_eq_true, and_true]
    exact ⟨ht.1.1, Tbl.above_drop q ht.1.2⟩

theorem Tbl.not_mem_drop (t : Tbl α) (q : Nat) : ∀ e ∈ Tbl.drop t q, e.1 ≠ q := by
  induction t with
  | nil => intro e he; cases he
  | cons a t ih =>
    intro e he
    by_cases h : a.1 = q
    · simp only [Tbl.drop, h, if_true] at he; exact ih e he
    · simp only [Tbl.drop, h, if_false, List.mem_cons] at he
      rcases he with rfl | he
      · exact h
      · exact ih e he

theorem Tbl.wf_ins [DecidableEq α] {d v : α} (hv : v ≠ d) {q : Nat} {t : Tbl α} (hq : ∀ e ∈ t, e.1 ≠ q)
    (ht : Tbl.wf d t = true) : Tbl.wf d (Tbl.ins t q v) = true := by
  induction t with
  | nil => simp [Tbl.ins, Tbl.wf, Tbl.above, hv]
  | cons e t ih =>
    simp only [Tbl.wf, Bool.and_eq_true] at ht
    have he : e.1 ≠ q := hq e (List.mem_cons_self ..)
    by_cases h : q < e.1
    · have := Tbl.above_mono (Nat.le_of_lt h) ht.1.2
      have h1 := ht.1.1
      simp only [Tbl.ins, h, if_true, Tbl.wf, Tbl.above, Bool.and_eq_true, decide_eq_true_eq] at h1 ⊢
      exact ⟨⟨hv, trivial, this⟩, ⟨h1, ht.1.2⟩, ht.2⟩
    · have h1 := ht.1.1
      simp only [Tbl.ins, h, if_false, Tbl.wf, Bool.and_eq_true]
      exact ⟨⟨h1, Tbl.above_ins (by omega) v ht.1.2⟩, ih (fun x hx => hq x (List.mem_cons_of_mem _ hx)) ht.2⟩

/-- Every write keeps the canonical form. -/
theorem Tbl.wf_set [DecidableEq α] {d : α} {t : Tbl α} (ht : Tbl.wf d t = true) (q : Nat) (v : α) :
    Tbl.wf d (Tbl.set d t q v) = true := by
  unfold Tbl.set
  split
  · exact Tbl.wf_drop q ht
  · rename_i h; exact Tbl.wf_ins h (Tbl.not_mem_drop t q) (Tbl.wf_drop q ht)

theorem Tbl.wf_upd [DecidableEq α] {d : α} {t : Tbl α} (ht : Tbl.wf d t = true) (q : Nat) (g : α → α) :
    Tbl.wf d (Tbl.upd d t q g) = true := Tbl.wf_set ht q _

theorem Tbl.wf_keep [DecidableEq α] {d : α} (p : Nat → Bool) {t : Tbl α} (ht : Tbl.wf d t = true) :
    Tbl.wf d (Tbl.keep p t) = true := by
  induction t with
  | nil => rfl
  | cons e t ih =>
    simp only [Tbl.wf, Bool.and_eq_true] at ht
    by_cases h : p e.1 = true
    · simp only [Tbl.keep, h, if_true, Tbl.wf, Bool.and_eq_true, ih ht.2, and_true]
      exact ⟨ht.1.1, Tbl.above_keep p ht.1.2⟩
    · simpa [Tbl.keep, h] using ih ht.2

end Sys2Proof.Machine
end

