-- ==== Sys2Proof/Laws/Registers.lean ====
section
/-! SUPPORT. The laws of the register file: every field of every element has a place of its own, a write is read back cut to its width, and leaves every other
field and every other part of the state alone. -/

namespace Sys2Proof.Machine

theorem Fld.ctorIdx_lt (f : Fld) : f.ctorIdx < 1024 := by cases f <;> decide

theorem Fld.ctorIdx_inj {f g : Fld} (h : f.ctorIdx = g.ctorIdx) : f = g := by
  rw [← Fld.ofNat_ctorIdx f, ← Fld.ofNat_ctorIdx g, h]

/-- Two fields share a place only if they are one. -/
theorem Fld.key_inj {f g : Fld} {i j : Nat} (h : f.key i = g.key j) : f = g ∧ i = j := by
  have hf := f.ctorIdx_lt
  have hg := g.ctorIdx_lt
  unfold Fld.key at h
  exact ⟨Fld.ctorIdx_inj (by omega), by omega⟩

/-- Every field stands in the list of its register's fields. -/
theorem Fld.mem_fields (f : Fld) : f ∈ f.spec.reg.fields := by cases f <;> decide

/-- The fields of a register are its own. -/
theorem Fld.reg_of_mem {f : Fld} {r : Reg} (h : f ∈ r.fields) : f.spec.reg = r := by
  have k : ∀ r : Reg, (r.fields.all fun f => f.spec.reg == r) = true := by
    intro r
    cases r <;> decide
  simpa using List.all_eq_true.mp (k r) f h

/-- A field reads as what was written, cut to its width, and any other field as before. -/
theorem State.fld_put (s : State) (f g : Fld) (i j v : Nat) :
    (s.put f i v).fld g j = if f = g ∧ i = j then v % 2 ^ f.spec.width else s.fld g j := by
  unfold State.fld State.put
  simp only [Tbl.find_set]
  by_cases h : f = g ∧ i = j
  · obtain ⟨rfl, rfl⟩ := h
    simp
  · have : f.key i ≠ g.key j := fun e => h (Fld.key_inj e)
    simp [this, h]

@[simp] theorem State.fld_put_same (s : State) (f : Fld) (i v : Nat) : (s.put f i v).fld f i = v % 2 ^ f.spec.width := by
  simp [State.fld_put]

theorem State.fld_put_ne (s : State) {f g : Fld} (i j v : Nat) (h : f ≠ g) : (s.put f i v).fld g j = s.fld g j := by
  simp [State.fld_put, h]

theorem State.fld_put_ne_idx (s : State) (f g : Fld) {i j : Nat} (v : Nat) (h : i ≠ j) : (s.put f i v).fld g j = s.fld g j := by
  simp [State.fld_put, h]

theorem State.fld_lt (s : State) (f : Fld) (i : Nat) : s.fld f i < 2 ^ f.spec.width := Nat.mod_lt _ (Nat.two_pow_pos _)

/-- A write of a register field changes no other part of the state. -/
theorem State.put_same (s : State) (f : Fld) (i v : Nat) (p : Part) : p.same s (s.put f i v) := by cases p <;> rfl

theorem State.put_wf {s : State} (h : Tbl.wf 0 s.regs = true) (f : Fld) (i v : Nat) : Tbl.wf 0 (s.put f i v).regs = true :=
  Tbl.wf_set h _ _

@[simp] theorem State.fld_emit (s : State) (o : Output) (f : Fld) (i : Nat) : (s.emit o).fld f i = s.fld f i := rfl

@[simp] theorem State.fld_drew (s : State) (f : Fld) (i : Nat) : s.drew.fld f i = s.fld f i := rfl

end Sys2Proof.Machine
end

