-- ==== Sys2Proof/Laws/Frame.lean ====
section
/-! SUPPORT. What an operation can do, said once for each: the registers and the parts of the state that it may change, as the bits of a number (a register's
bit is its place in the map; a part's is 256 more than its place in Part), and that it keeps the canonical form of the memories and recalls nothing that has
left the device. -/

namespace Sys2Proof.Machine

/-- From `s` to `t` only the registers and parts of the mask `m` change, canonical memories stay canonical, and outputs are only added. -/
structure Goes (m : Nat) (s t : State) : Prop where
  flds : ∀ (f : Fld) i, m.testBit f.spec.reg.ctorIdx = false → t.fld f i = s.fld f i
  parts : ∀ p : Part, m.testBit (256 + p.ctorIdx) = false → p.same s t
  regs : Tbl.wf 0 s.regs = true → Tbl.wf 0 t.regs = true
  box : Tbl.wf (0 : Byte) s.boxMem = true → Tbl.wf (0 : Byte) t.boxMem = true
  mem : Tbl.wf (0 : Byte) s.memo.bytes = true → Tbl.wf (0 : Byte) t.memo.bytes = true
  out : s.out <+: t.out

namespace Goes

variable {m n : Nat} {s t u : State}

theorem refl (m : Nat) (s : State) : Goes m s s :=
  ⟨fun _ _ _ => rfl, fun p _ => by cases p <;> rfl, id, id, id, List.prefix_refl _⟩

theorem trans (h : Goes m s t) (k : Goes m t u) : Goes m s u where
  flds f i hf := (k.flds f i hf).trans (h.flds f i hf)
  parts p hp := by
    have a := h.parts p hp
    have b := k.parts p hp
    cases p <;> exact Eq.trans b a
  regs w := k.regs (h.regs w)
  box w := k.box (h.box w)
  mem w := k.mem (h.mem w)
  out := h.out.trans k.out

theorem mono (h : Goes n s t) (hm : n &&& m = n) : Goes m s t where
  flds f i hf := h.flds f i (by
    have := congrArg (·.testBit f.spec.reg.ctorIdx) hm
    simp only [Nat.testBit_and, hf, Bool.and_false] at this
    exact this.symm)
  parts p hp := h.parts p (by
    have := congrArg (·.testBit (256 + p.ctorIdx)) hm
    simp only [Nat.testBit_and, hp, Bool.and_false] at this
    exact this.symm)
  regs := h.regs
  box := h.box
  mem := h.mem
  out := h.out

/-- One operation more. -/
theorem call (k : Goes n t u) (hm : n &&& m = n) (h : Goes m s t) : Goes m s u := h.trans (k.mono hm)

theorem put (f : Fld) (i v : Nat) (hm : m.testBit f.spec.reg.ctorIdx = true) (h : Goes m s t) : Goes m s (t.put f i v) :=
  h.trans
    { flds := fun g j hg => by
        refine State.fld_put_ne t i j v ?_
        rintro rfl
        simp_all
      parts := fun p _ => State.put_same t f i v p
      regs := fun w => State.put_wf w f i v
      box := id
      mem := id
      out := List.prefix_refl _ }

/-- A record update that leaves the register file, the memories' bytes and the outputs alone. -/
theorem record (hr : u.regs = t.regs) (hb : u.boxMem = t.boxMem) (hy : u.memo.bytes = t.memo.bytes) (ho : u.out = t.out)
    (hp : ∀ p : Part, m.testBit (256 + p.ctorIdx) = false → p.same t u) (h : Goes m s t) : Goes m s u :=
  h.trans
    { flds := fun g j _ => by unfold State.fld; rw [hr]
      parts := hp
      regs := fun w => by rw [hr]; exact w
      box := fun w => by rw [hb]; exact w
      mem := fun w => by rw [hy]; exact w
      out := by rw [ho] }

theorem each {α : Type} (l : List α) (g : α → State → State) (hg : ∀ a t, Goes m t (g a t)) (h : Goes m s t) : Goes m s (t.each l g) := by
  unfold State.each
  induction l generalizing t with
  | nil => exact h
  | cons a l ih => exact ih (h.trans (hg a t))

theorem when (c : Bool) (g : State → State) (hg : ∀ t, Goes m t (g t)) (h : Goes m s t) : Goes m s (t.when c g) := by
  unfold State.when
  split
  · exact h.trans (hg t)
  · exact h

theorem emit (o : Output) (hm : m.testBit (256 + Part.outputs.ctorIdx) = true) (h : Goes m s t) : Goes m s (t.emit o) :=
  h.trans
    { flds := fun _ _ _ => rfl
      parts := fun p hp => by
        cases p <;> first | rfl | simp_all
      regs := id
      box := id
      mem := id
      out := List.prefix_append _ _ }

theorem ite {c : Prop} [Decidable c] {a b : State} (h : Goes m s a) (k : Goes m s b) : Goes m s (if c then a else b) := by
  split <;> assumption

theorem putBit (f : Fld) (i b : Nat) (v : Bool) (hm : m.testBit f.spec.reg.ctorIdx = true) (h : Goes m s t) : Goes m s (t.putBit f i b v) :=
  h.put f i _ hm

theorem orFld (f : Fld) (i v : Nat) (hm : m.testBit f.spec.reg.ctorIdx = true) (h : Goes m s t) : Goes m s (t.orFld f i v) := h.put f i _ hm

theorem bump (f : Fld) (i v : Nat) (hm : m.testBit f.spec.reg.ctorIdx = true) (h : Goes m s t) : Goes m s (t.bump f i v) := h.put f i _ hm

theorem addMod (f : Fld) (i v : Nat) (hm : m.testBit f.spec.reg.ctorIdx = true) (h : Goes m s t) : Goes m s (t.addMod f i v) := h.put f i _ hm

theorem clr (f : Fld) (i : Nat) (hm : m.testBit f.spec.reg.ctorIdx = true) (h : Goes m s t) : Goes m s (t.clr f i) := h.put f i _ hm

theorem set_shadows (v0 : Tbl Nat) (h0 : m.testBit (256 + Part.shadows.ctorIdx) = true) (h : Goes m s t) :
    Goes m s { t with shadows := v0 } :=
  h.trans ⟨fun _ _ _ => rfl, fun p hp => by cases p <;> first | rfl | simp_all, id, id, id, List.prefix_refl _⟩

theorem set_waiting (v0 : List WaitingAccess) (h0 : m.testBit (256 + Part.waiting.ctorIdx) = true) (h : Goes m s t) :
    Goes m s { t with waiting := v0 } :=
  h.trans ⟨fun _ _ _ => rfl, fun p hp => by cases p <;> first | rfl | simp_all, id, id, id, List.prefix_refl _⟩

theorem set_crossings (v0 : Tbl Crossing) (h0 : m.testBit (256 + Part.crossings.ctorIdx) = true) (h : Goes m s t) :
    Goes m s { t with crossings := v0 } :=
  h.trans ⟨fun _ _ _ => rfl, fun p hp => by cases p <;> first | rfl | simp_all, id, id, id, List.prefix_refl _⟩

theorem set_pulses (v0 : Tbl PulseX) (h0 : m.testBit (256 + Part.pulses.ctorIdx) = true) (h : Goes m s t) :
    Goes m s { t with pulses := v0 } :=
  h.trans ⟨fun _ _ _ => rfl, fun p hp => by cases p <;> first | rfl | simp_all, id, id, id, List.prefix_refl _⟩

theorem set_samplers (v0 : Tbl Sampler) (h0 : m.testBit (256 + Part.samplers.ctorIdx) = true) (h : Goes m s t) :
    Goes m s { t with samplers := v0 } :=
  h.trans ⟨fun _ _ _ => rfl, fun p hp => by cases p <;> first | rfl | simp_all, id, id, id, List.prefix_refl _⟩

theorem set_cells (v0 : Tbl Cell) (h0 : m.testBit (256 + Part.cells.ctorIdx) = true) (h : Goes m s t) :
    Goes m s { t with cells := v0 } :=
  h.trans ⟨fun _ _ _ => rfl, fun p hp => by cases p <;> first | rfl | simp_all, id, id, id, List.prefix_refl _⟩

theorem set_words (v0 : Tbl (Option WordStage)) (h0 : m.testBit (256 + Part.words.ctorIdx) = true) (h : Goes m s t) :
    Goes m s { t with words := v0 } :=
  h.trans ⟨fun _ _ _ => rfl, fun p hp => by cases p <;> first | rfl | simp_all, id, id, id, List.prefix_refl _⟩

theorem set_elements (v0 : Tbl (Option Element)) (h0 : m.testBit (256 + Part.elements.ctorIdx) = true) (h : Goes m s t) :
    Goes m s { t with elements := v0 } :=
  h.trans ⟨fun _ _ _ => rfl, fun p hp => by cases p <;> first | rfl | simp_all, id, id, id, List.prefix_refl _⟩

theorem set_isos (v0 : Tbl Nat) (h0 : m.testBit (256 + Part.isos.ctorIdx) = true) (h : Goes m s t) :
    Goes m s { t with isos := v0 } :=
  h.trans ⟨fun _ _ _ => rfl, fun p hp => by cases p <;> first | rfl | simp_all, id, id, id, List.prefix_refl _⟩

theorem set_taken (v0 : List (TokenFrom × Site)) (h0 : m.testBit (256 + Part.taken.ctorIdx) = true) (h : Goes m s t) :
    Goes m s { t with taken := v0 } :=
  h.trans ⟨fun _ _ _ => rfl, fun p hp => by cases p <;> first | rfl | simp_all, id, id, id, List.prefix_refl _⟩

theorem set_trees (v0 : Tbl Tree) (h0 : m.testBit (256 + Part.trees.ctorIdx) = true) (h : Goes m s t) :
    Goes m s { t with trees := v0 } :=
  h.trans ⟨fun _ _ _ => rfl, fun p hp => by cases p <;> first | rfl | simp_all, id, id, id, List.prefix_refl _⟩

theorem set_flying (v0 : List (Nat × Nat × Nat)) (h0 : m.testBit (256 + Part.flying.ctorIdx) = true) (h : Goes m s t) :
    Goes m s { t with flying := v0 } :=
  h.trans ⟨fun _ _ _ => rfl, fun p hp => by cases p <;> first | rfl | simp_all, id, id, id, List.prefix_refl _⟩

theorem set_taps (v0 : List (Nat × Nat × Nat)) (h0 : m.testBit (256 + Part.taps.ctorIdx) = true) (h : Goes m s t) :
    Goes m s { t with taps := v0 } :=
  h.trans ⟨fun _ _ _ => rfl, fun p hp => by cases p <;> first | rfl | simp_all, id, id, id, List.prefix_refl _⟩

theorem set_arbiters (v0 : Tbl Arbiter) (h0 : m.testBit (256 + Part.arbiters.ctorIdx) = true) (h : Goes m s t) :
    Goes m s { t with arbiters := v0 } :=
  h.trans ⟨fun _ _ _ => rfl, fun p hp => by cases p <;> first | rfl | simp_all, id, id, id, List.prefix_refl _⟩

theorem set_bms (v0 : Tbl BlockMem) (h0 : m.testBit (256 + Part.bms.ctorIdx) = true) (h : Goes m s t) :
    Goes m s { t with bms := v0 } :=
  h.trans ⟨fun _ _ _ => rfl, fun p hp => by cases p <;> first | rfl | simp_all, id, id, id, List.prefix_refl _⟩

theorem set_isoAbsorb (v0 : List Nat) (h0 : m.testBit (256 + Part.isoAbsorb.ctorIdx) = true) (h : Goes m s t) :
    Goes m s { t with isoAbsorb := v0 } :=
  h.trans ⟨fun _ _ _ => rfl, fun p hp => by cases p <;> first | rfl | simp_all, id, id, id, List.prefix_refl _⟩

theorem set_uclkUse (v0 : Tbl Nat) (h0 : m.testBit (256 + Part.uclkUse.ctorIdx) = true) (h : Goes m s t) :
    Goes m s { t with uclkUse := v0 } :=
  h.trans ⟨fun _ _ _ => rfl, fun p hp => by cases p <;> first | rfl | simp_all, id, id, id, List.prefix_refl _⟩

theorem set_restoring (v0 : List Nat) (h0 : m.testBit (256 + Part.restoring.ctorIdx) = true) (h : Goes m s t) :
    Goes m s { t with restoring := v0 } :=
  h.trans ⟨fun _ _ _ => rfl, fun p hp => by cases p <;> first | rfl | simp_all, id, id, id, List.prefix_refl _⟩

theorem set_evt (v0 : EventState) (h0 : m.testBit (256 + Part.evt.ctorIdx) = true) (h : Goes m s t) :
    Goes m s { t with evt := v0 } :=
  h.trans ⟨fun _ _ _ => rfl, fun p hp => by cases p <;> first | rfl | simp_all, id, id, id, List.prefix_refl _⟩

theorem set_boxes (v0 : Tbl Mailbox) (h0 : m.testBit (256 + Part.boxes.ctorIdx) = true) (h : Goes m s t) :
    Goes m s { t with boxes := v0 } :=
  h.trans ⟨fun _ _ _ => rfl, fun p hp => by cases p <;> first | rfl | simp_all, id, id, id, List.prefix_refl _⟩

theorem set_boxMem (v0 : Tbl Byte) (h0 : m.testBit (256 + Part.boxMem.ctorIdx) = true) (hb : Tbl.wf (0 : Byte) t.boxMem = true → Tbl.wf (0 : Byte) v0 = true) (h : Goes m s t) :
    Goes m s { t with boxMem := v0 } :=
  h.trans ⟨fun _ _ _ => rfl, fun p hp => by cases p <;> first | rfl | simp_all, id, hb, id, List.prefix_refl _⟩

theorem set_svc (v0 : Services) (h0 : m.testBit (256 + Part.svc.ctorIdx) = true) (h : Goes m s t) :
    Goes m s { t with svc := v0 } :=
  h.trans ⟨fun _ _ _ => rfl, fun p hp => by cases p <;> first | rfl | simp_all, id, id, id, List.prefix_refl _⟩

theorem set_axes (v0 : Tbl Axis) (h0 : m.testBit (256 + Part.axes.ctorIdx) = true) (h : Goes m s t) :
    Goes m s { t with axes := v0 } :=
  h.trans ⟨fun _ _ _ => rfl, fun p hp => by cases p <;> first | rfl | simp_all, id, id, id, List.prefix_refl _⟩

theorem set_encLevel (v0 : Tbl Nat) (h0 : m.testBit (256 + Part.encLevel.ctorIdx) = true) (h : Goes m s t) :
    Goes m s { t with encLevel := v0 } :=
  h.trans ⟨fun _ _ _ => rfl, fun p hp => by cases p <;> first | rfl | simp_all, id, id, id, List.prefix_refl _⟩

theorem set_encOpen (v0 : Nat) (h0 : m.testBit (256 + Part.encOpen.ctorIdx) = true) (h : Goes m s t) :
    Goes m s { t with encOpen := v0 } :=
  h.trans ⟨fun _ _ _ => rfl, fun p hp => by cases p <;> first | rfl | simp_all, id, id, id, List.prefix_refl _⟩

theorem set_strobeT (v0 : Tbl Nat) (h0 : m.testBit (256 + Part.strobeT.ctorIdx) = true) (h : Goes m s t) :
    Goes m s { t with strobeT := v0 } :=
  h.trans ⟨fun _ _ _ => rfl, fun p hp => by cases p <;> first | rfl | simp_all, id, id, id, List.prefix_refl _⟩

theorem set_strobeAt (v0 : Tbl Nat) (h0 : m.testBit (256 + Part.strobeAt.ctorIdx) = true) (h : Goes m s t) :
    Goes m s { t with strobeAt := v0 } :=
  h.trans ⟨fun _ _ _ => rfl, fun p hp => by cases p <;> first | rfl | simp_all, id, id, id, List.prefix_refl _⟩

theorem set_beaconAt (v0 : Tbl Nat) (h0 : m.testBit (256 + Part.beaconAt.ctorIdx) = true) (h : Goes m s t) :
    Goes m s { t with beaconAt := v0 } :=
  h.trans ⟨fun _ _ _ => rfl, fun p hp => by cases p <;> first | rfl | simp_all, id, id, id, List.prefix_refl _⟩

theorem set_sorters (v0 : Tbl Sorter) (h0 : m.testBit (256 + Part.sorters.ctorIdx) = true) (h : Goes m s t) :
    Goes m s { t with sorters := v0 } :=
  h.trans ⟨fun _ _ _ => rfl, fun p hp => by cases p <;> first | rfl | simp_all, id, id, id, List.prefix_refl _⟩

theorem set_insWords (v0 : Tbl Nat) (h0 : m.testBit (256 + Part.insWords.ctorIdx) = true) (h : Goes m s t) :
    Goes m s { t with insWords := v0 } :=
  h.trans ⟨fun _ _ _ => rfl, fun p hp => by cases p <;> first | rfl | simp_all, id, id, id, List.prefix_refl _⟩

theorem set_insRes (v0 : Tbl Nat) (h0 : m.testBit (256 + Part.insRes.ctorIdx) = true) (h : Goes m s t) :
    Goes m s { t with insRes := v0 } :=
  h.trans ⟨fun _ _ _ => rfl, fun p hp => by cases p <;> first | rfl | simp_all, id, id, id, List.prefix_refl _⟩

theorem set_gates (v0 : Tbl (List GateEntry)) (h0 : m.testBit (256 + Part.gates.ctorIdx) = true) (h : Goes m s t) :
    Goes m s { t with gates := v0 } :=
  h.trans ⟨fun _ _ _ => rfl, fun p hp => by cases p <;> first | rfl | simp_all, id, id, id, List.prefix_refl _⟩

theorem set_plcs (v0 : Tbl PlcCell) (h0 : m.testBit (256 + Part.plcs.ctorIdx) = true) (h : Goes m s t) :
    Goes m s { t with plcs := v0 } :=
  h.trans ⟨fun _ _ _ => rfl, fun p hp => by cases p <;> first | rfl | simp_all, id, id, id, List.prefix_refl _⟩

theorem set_pins (v0 : PinState) (h0 : m.testBit (256 + Part.pins.ctorIdx) = true) (h : Goes m s t) :
    Goes m s { t with pins := v0 } :=
  h.trans ⟨fun _ _ _ => rfl, fun p hp => by cases p <;> first | rfl | simp_all, id, id, id, List.prefix_refl _⟩

theorem set_rings (v0 : Tbl Ring) (h0 : m.testBit (256 + Part.rings.ctorIdx) = true) (h : Goes m s t) :
    Goes m s { t with rings := v0 } :=
  h.trans ⟨fun _ _ _ => rfl, fun p hp => by cases p <;> first | rfl | simp_all, id, id, id, List.prefix_refl _⟩

theorem set_lease (v0 : LeaseState) (h0 : m.testBit (256 + Part.lease.ctorIdx) = true) (h : Goes m s t) :
    Goes m s { t with lease := v0 } :=
  h.trans ⟨fun _ _ _ => rfl, fun p hp => by cases p <;> first | rfl | simp_all, id, id, id, List.prefix_refl _⟩

theorem set_chans (v0 : Tbl Channel) (h0 : m.testBit (256 + Part.chans.ctorIdx) = true) (h : Goes m s t) :
    Goes m s { t with chans := v0 } :=
  h.trans ⟨fun _ _ _ => rfl, fun p hp => by cases p <;> first | rfl | simp_all, id, id, id, List.prefix_refl _⟩

theorem set_jobs (v0 : Tbl Job) (h0 : m.testBit (256 + Part.jobs.ctorIdx) = true) (h : Goes m s t) :
    Goes m s { t with jobs := v0 } :=
  h.trans ⟨fun _ _ _ => rfl, fun p hp => by cases p <;> first | rfl | simp_all, id, id, id, List.prefix_refl _⟩

theorem set_letterBudget (v0 : Nat) (h0 : m.testBit (256 + Part.letterBudget.ctorIdx) = true) (h : Goes m s t) :
    Goes m s { t with letterBudget := v0 } :=
  h.trans ⟨fun _ _ _ => rfl, fun p hp => by cases p <;> first | rfl | simp_all, id, id, id, List.prefix_refl _⟩

theorem set_letterQueue (v0 : List (Nat × Int × Nat)) (h0 : m.testBit (256 + Part.letterQueue.ctorIdx) = true) (h : Goes m s t) :
    Goes m s { t with letterQueue := v0 } :=
  h.trans ⟨fun _ _ _ => rfl, fun p hp => by cases p <;> first | rfl | simp_all, id, id, id, List.prefix_refl _⟩

theorem set_fires (v0 : Tbl (List FireLine)) (h0 : m.testBit (256 + Part.fires.ctorIdx) = true) (h : Goes m s t) :
    Goes m s { t with fires := v0 } :=
  h.trans ⟨fun _ _ _ => rfl, fun p hp => by cases p <;> first | rfl | simp_all, id, id, id, List.prefix_refl _⟩

theorem set_memo (v0 : MemState) (h0 : m.testBit (256 + Part.memo.ctorIdx) = true) (hy : Tbl.wf (0 : Byte) t.memo.bytes = true → Tbl.wf (0 : Byte) v0.bytes = true) (h : Goes m s t) :
    Goes m s { t with memo := v0 } :=
  h.trans ⟨fun _ _ _ => rfl, fun p hp => by cases p <;> first | rfl | simp_all, id, id, hy, List.prefix_refl _⟩

theorem set_seals (v0 : SealState) (h0 : m.testBit (256 + Part.seals.ctorIdx) = true) (h : Goes m s t) :
    Goes m s { t with seals := v0 } :=
  h.trans ⟨fun _ _ _ => rfl, fun p hp => by cases p <;> first | rfl | simp_all, id, id, id, List.prefix_refl _⟩

theorem set_laneTx (v0 : Tbl (List Byte)) (h0 : m.testBit (256 + Part.laneTx.ctorIdx) = true) (h : Goes m s t) :
    Goes m s { t with laneTx := v0 } :=
  h.trans ⟨fun _ _ _ => rfl, fun p hp => by cases p <;> first | rfl | simp_all, id, id, id, List.prefix_refl _⟩

theorem set_laneSkip (v0 : Tbl Nat) (h0 : m.testBit (256 + Part.laneSkip.ctorIdx) = true) (h : Goes m s t) :
    Goes m s { t with laneSkip := v0 } :=
  h.trans ⟨fun _ _ _ => rfl, fun p hp => by cases p <;> first | rfl | simp_all, id, id, id, List.prefix_refl _⟩

theorem set_store (v0 : StoreState) (h0 : m.testBit (256 + Part.store.ctorIdx) = true) (h : Goes m s t) :
    Goes m s { t with store := v0 } :=
  h.trans ⟨fun _ _ _ => rfl, fun p hp => by cases p <;> first | rfl | simp_all, id, id, id, List.prefix_refl _⟩

theorem set_images (v0 : Tbl RegionImg) (h0 : m.testBit (256 + Part.images.ctorIdx) = true) (h : Goes m s t) :
    Goes m s { t with images := v0 } :=
  h.trans ⟨fun _ _ _ => rfl, fun p hp => by cases p <;> first | rfl | simp_all, id, id, id, List.prefix_refl _⟩

theorem set_monitors (v0 : Tbl (Option Monitor)) (h0 : m.testBit (256 + Part.monitors.ctorIdx) = true) (h : Goes m s t) :
    Goes m s { t with monitors := v0 } :=
  h.trans ⟨fun _ _ _ => rfl, fun p hp => by cases p <;> first | rfl | simp_all, id, id, id, List.prefix_refl _⟩

theorem set_links (v0 : Tbl Link) (h0 : m.testBit (256 + Part.links.ctorIdx) = true) (h : Goes m s t) :
    Goes m s { t with links := v0 } :=
  h.trans ⟨fun _ _ _ => rfl, fun p hp => by cases p <;> first | rfl | simp_all, id, id, id, List.prefix_refl _⟩

theorem set_ports (v0 : HardPorts) (h0 : m.testBit (256 + Part.ports.ctorIdx) = true) (h : Goes m s t) :
    Goes m s { t with ports := v0 } :=
  h.trans ⟨fun _ _ _ => rfl, fun p hp => by cases p <;> first | rfl | simp_all, id, id, id, List.prefix_refl _⟩

theorem set_heaters (v0 : Tbl Heater) (h0 : m.testBit (256 + Part.heaters.ctorIdx) = true) (h : Goes m s t) :
    Goes m s { t with heaters := v0 } :=
  h.trans ⟨fun _ _ _ => rfl, fun p hp => by cases p <;> first | rfl | simp_all, id, id, id, List.prefix_refl _⟩

theorem set_config (v0 : ConfigState) (h0 : m.testBit (256 + Part.config.ctorIdx) = true) (h : Goes m s t) :
    Goes m s { t with config := v0 } :=
  h.trans ⟨fun _ _ _ => rfl, fun p hp => by cases p <;> first | rfl | simp_all, id, id, id, List.prefix_refl _⟩

theorem set_power (v0 : PowerState) (h0 : m.testBit (256 + Part.power.ctorIdx) = true) (h : Goes m s t) :
    Goes m s { t with power := v0 } :=
  h.trans ⟨fun _ _ _ => rfl, fun p hp => by cases p <;> first | rfl | simp_all, id, id, id, List.prefix_refl _⟩

theorem set_resets (v0 : ResetState) (h0 : m.testBit (256 + Part.resets.ctorIdx) = true) (h : Goes m s t) :
    Goes m s { t with resets := v0 } :=
  h.trans ⟨fun _ _ _ => rfl, fun p hp => by cases p <;> first | rfl | simp_all, id, id, id, List.prefix_refl _⟩

theorem set_secure (v0 : SecurityState) (h0 : m.testBit (256 + Part.secure.ctorIdx) = true) (h : Goes m s t) :
    Goes m s { t with secure := v0 } :=
  h.trans ⟨fun _ _ _ => rfl, fun p hp => by cases p <;> first | rfl | simp_all, id, id, id, List.prefix_refl _⟩

theorem set_franker (v0 : FrankerState) (h0 : m.testBit (256 + Part.franker.ctorIdx) = true) (h : Goes m s t) :
    Goes m s { t with franker := v0 } :=
  h.trans ⟨fun _ _ _ => rfl, fun p hp => by cases p <;> first | rfl | simp_all, id, id, id, List.prefix_refl _⟩

theorem set_free (v0 : Nat) (h0 : m.testBit (256 + Part.freeValues.ctorIdx) = true) (h : Goes m s t) :
    Goes m s { t with free := v0 } :=
  h.trans ⟨fun _ _ _ => rfl, fun p hp => by cases p <;> first | rfl | simp_all, id, id, id, List.prefix_refl _⟩

theorem set_clock (v0 : Nat) (h0 : m.testBit (256 + Part.clock.ctorIdx) = true) (h : Goes m s t) :
    Goes m s { t with clock := v0 } :=
  h.trans ⟨fun _ _ _ => rfl, fun p hp => by cases p <;> first | rfl | simp_all, id, id, id, List.prefix_refl _⟩

theorem set_timers (v0 : Tbl Nat) (h0 : m.testBit (256 + Part.timers.ctorIdx) = true) (h : Goes m s t) :
    Goes m s { t with timers := v0 } :=
  h.trans ⟨fun _ _ _ => rfl, fun p hp => by cases p <;> first | rfl | simp_all, id, id, id, List.prefix_refl _⟩

theorem set_pending (v0 : List Instr) (h0 : m.testBit (256 + Part.pending.ctorIdx) = true) (h : Goes m s t) :
    Goes m s { t with pending := v0 } :=
  h.trans ⟨fun _ _ _ => rfl, fun p hp => by cases p <;> first | rfl | simp_all, id, id, id, List.prefix_refl _⟩

theorem set_restoring_config (v0 : List Nat) (v1 : ConfigState) (h0 : m.testBit (256 + Part.restoring.ctorIdx) = true) (h1 : m.testBit (256 + Part.config.ctorIdx) = true) (h : Goes m s t) :
    Goes m s { t with restoring := v0, config := v1 } :=
  h.trans ⟨fun _ _ _ => rfl, fun p hp => by cases p <;> first | rfl | simp_all, id, id, id, List.prefix_refl _⟩

theorem set_boxMem_config (v0 : Tbl Byte) (v1 : ConfigState) (h0 : m.testBit (256 + Part.boxMem.ctorIdx) = true) (h1 : m.testBit (256 + Part.config.ctorIdx) = true) (hb : Tbl.wf (0 : Byte) t.boxMem = true → Tbl.wf (0 : Byte) v0 = true) (h : Goes m s t) :
    Goes m s { t with boxMem := v0, config := v1 } :=
  h.trans ⟨fun _ _ _ => rfl, fun p hp => by cases p <;> first | rfl | simp_all, id, hb, id, List.prefix_refl _⟩

theorem set_pins_resets (v0 : PinState) (v1 : ResetState) (h0 : m.testBit (256 + Part.pins.ctorIdx) = true) (h1 : m.testBit (256 + Part.resets.ctorIdx) = true) (h : Goes m s t) :
    Goes m s { t with pins := v0, resets := v1 } :=
  h.trans ⟨fun _ _ _ => rfl, fun p hp => by cases p <;> first | rfl | simp_all, id, id, id, List.prefix_refl _⟩

theorem set_fires_laneTx (v0 : Tbl (List FireLine)) (v1 : Tbl (List Byte)) (h0 : m.testBit (256 + Part.fires.ctorIdx) = true) (h1 : m.testBit (256 + Part.laneTx.ctorIdx) = true) (h : Goes m s t) :
    Goes m s { t with fires := v0, laneTx := v1 } :=
  h.trans ⟨fun _ _ _ => rfl, fun p hp => by cases p <;> first | rfl | simp_all, id, id, id, List.prefix_refl _⟩

theorem set_memo_resets (v0 : MemState) (v1 : ResetState) (h0 : m.testBit (256 + Part.memo.ctorIdx) = true) (h1 : m.testBit (256 + Part.resets.ctorIdx) = true) (hy : Tbl.wf (0 : Byte) t.memo.bytes = true → Tbl.wf (0 : Byte) v0.bytes = true) (h : Goes m s t) :
    Goes m s { t with memo := v0, resets := v1 } :=
  h.trans ⟨fun _ _ _ => rfl, fun p hp => by cases p <;> first | rfl | simp_all, id, id, hy, List.prefix_refl _⟩

theorem set_laneTx_laneSkip (v0 : Tbl (List Byte)) (v1 : Tbl Nat) (h0 : m.testBit (256 + Part.laneTx.ctorIdx) = true) (h1 : m.testBit (256 + Part.laneSkip.ctorIdx) = true) (h : Goes m s t) :
    Goes m s { t with laneTx := v0, laneSkip := v1 } :=
  h.trans ⟨fun _ _ _ => rfl, fun p hp => by cases p <;> first | rfl | simp_all, id, id, id, List.prefix_refl _⟩

theorem set_shadows_insWords_gates (v0 : Tbl Nat) (v1 : Tbl Nat) (v2 : Tbl (List GateEntry)) (h0 : m.testBit (256 + Part.shadows.ctorIdx) = true) (h1 : m.testBit (256 + Part.insWords.ctorIdx) = true) (h2 : m.testBit (256 + Part.gates.ctorIdx) = true) (h : Goes m s t) :
    Goes m s { t with shadows := v0, insWords := v1, gates := v2 } :=
  h.trans ⟨fun _ _ _ => rfl, fun p hp => by cases p <;> first | rfl | simp_all, id, id, id, List.prefix_refl _⟩

theorem set_cells_words_elements (v0 : Tbl Cell) (v1 : Tbl (Option WordStage)) (v2 : Tbl (Option Element)) (h0 : m.testBit (256 + Part.cells.ctorIdx) = true) (h1 : m.testBit (256 + Part.words.ctorIdx) = true) (h2 : m.testBit (256 + Part.elements.ctorIdx) = true) (h : Goes m s t) :
    Goes m s { t with cells := v0, words := v1, elements := v2 } :=
  h.trans ⟨fun _ _ _ => rfl, fun p hp => by cases p <;> first | rfl | simp_all, id, id, id, List.prefix_refl _⟩

theorem set_bms_restoring_images (v0 : Tbl BlockMem) (v1 : List Nat) (v2 : Tbl RegionImg) (h0 : m.testBit (256 + Part.bms.ctorIdx) = true) (h1 : m.testBit (256 + Part.restoring.ctorIdx) = true) (h2 : m.testBit (256 + Part.images.ctorIdx) = true) (h : Goes m s t) :
    Goes m s { t with bms := v0, restoring := v1, images := v2 } :=
  h.trans ⟨fun _ _ _ => rfl, fun p hp => by cases p <;> first | rfl | simp_all, id, id, id, List.prefix_refl _⟩

theorem set_evt_boxMem_svc (v0 : EventState) (v1 : Tbl Byte) (v2 : Services) (h0 : m.testBit (256 + Part.evt.ctorIdx) = true) (h1 : m.testBit (256 + Part.boxMem.ctorIdx) = true) (h2 : m.testBit (256 + Part.svc.ctorIdx) = true) (hb : Tbl.wf (0 : Byte) t.boxMem = true → Tbl.wf (0 : Byte) v1 = true) (h : Goes m s t) :
    Goes m s { t with evt := v0, boxMem := v1, svc := v2 } :=
  h.trans ⟨fun _ _ _ => rfl, fun p hp => by cases p <;> first | rfl | simp_all, id, hb, id, List.prefix_refl _⟩

theorem set_svc_power_secure (v0 : Services) (v1 : PowerState) (v2 : SecurityState) (h0 : m.testBit (256 + Part.svc.ctorIdx) = true) (h1 : m.testBit (256 + Part.power.ctorIdx) = true) (h2 : m.testBit (256 + Part.secure.ctorIdx) = true) (h : Goes m s t) :
    Goes m s { t with svc := v0, power := v1, secure := v2 } :=
  h.trans ⟨fun _ _ _ => rfl, fun p hp => by cases p <;> first | rfl | simp_all, id, id, id, List.prefix_refl _⟩

theorem set_taken_flying_taps_arbiters (v0 : List (TokenFrom × Site)) (v1 : List (Nat × Nat × Nat)) (v2 : List (Nat × Nat × Nat)) (v3 : Tbl Arbiter) (h0 : m.testBit (256 + Part.taken.ctorIdx) = true) (h1 : m.testBit (256 + Part.flying.ctorIdx) = true) (h2 : m.testBit (256 + Part.taps.ctorIdx) = true) (h3 : m.testBit (256 + Part.arbiters.ctorIdx) = true) (h : Goes m s t) :
    Goes m s { t with taken := v0, flying := v1, taps := v2, arbiters := v3 } :=
  h.trans ⟨fun _ _ _ => rfl, fun p hp => by cases p <;> first | rfl | simp_all, id, id, id, List.prefix_refl _⟩

theorem set_cells_words_elements_trees_bms_isoAbsorb_uclkUse_images_config (v0 : Tbl Cell) (v1 : Tbl (Option WordStage)) (v2 : Tbl (Option Element)) (v3 : Tbl Tree) (v4 : Tbl BlockMem) (v5 : List Nat) (v6 : Tbl Nat) (v7 : Tbl RegionImg) (v8 : ConfigState) (h0 : m.testBit (256 + Part.cells.ctorIdx) = true) (h1 : m.testBit (256 + Part.words.ctorIdx) = true) (h2 : m.testBit (256 + Part.elements.ctorIdx) = true) (h3 : m.testBit (256 + Part.trees.ctorIdx) = true) (h4 : m.testBit (256 + Part.bms.ctorIdx) = true) (h5 : m.testBit (256 + Part.isoAbsorb.ctorIdx) = true) (h6 : m.testBit (256 + Part.uclkUse.ctorIdx) = true) (h7 : m.testBit (256 + Part.images.ctorIdx) = true) (h8 : m.testBit (256 + Part.config.ctorIdx) = true) (h : Goes m s t) :
    Goes m s { t with cells := v0, words := v1, elements := v2, trees := v3, bms := v4, isoAbsorb := v5, uclkUse := v6, images := v7, config := v8 } :=
  h.trans ⟨fun _ _ _ => rfl, fun p hp => by cases p <;> first | rfl | simp_all, id, id, id, List.prefix_refl _⟩

theorem eachMem {α : Type} (l : List α) (g : α → State → State) (hg : ∀ a ∈ l, ∀ t, Goes m t (g a t)) (h : Goes m s t) : Goes m s (t.each l g) := by
  unfold State.each
  induction l generalizing t with
  | nil => exact h
  | cons a l ih => exact ih (fun b hb => hg b (List.mem_cons_of_mem _ hb)) (h.trans (hg a List.mem_cons_self t))

theorem drew (hm : m.testBit (256 + Part.freeValues.ctorIdx) = true) (h : Goes m s t) : Goes m s t.drew :=
  h.trans ⟨fun _ _ _ => rfl, fun p hp => by cases p <;> first | rfl | simp_all, id, id, id, List.prefix_refl _⟩

theorem iteFst {α : Type} {c : Prop} [Decidable c] {a b : State × α} (h : Goes m s a.1) (k : Goes m s b.1) : Goes m s (if c then a else b).1 := by
  split <;> assumption

theorem pairFst {α : Type} {a : State} {b : α} (h : Goes m s a) : Goes m s (a, b).1 := h

theorem fstEq {α : Type} {p : State × α} {a : State} {b : α} (e : p = (a, b)) (h : Goes m s p.1) : Goes m s a := by
  rw [e] at h; exact h


theorem eachFld (l : List Fld) (g : Fld → State → State) (hl : (l.all fun f => m.testBit f.spec.reg.ctorIdx) = true)
    (hg : ∀ f, m.testBit f.spec.reg.ctorIdx = true → ∀ t, Goes m t (g f t)) (h : Goes m s t) : Goes m s (t.each l g) :=
  eachMem l g (fun f hf => hg f (List.all_eq_true.mp hl f hf)) h

theorem eachReg {α : Type} (l : List (Reg × α)) (g : Reg × α → State → State) (hl : (l.all fun a => m.testBit a.1.ctorIdx) = true)
    (hg : ∀ a, m.testBit a.1.ctorIdx = true → ∀ t, Goes m t (g a t)) (h : Goes m s t) : Goes m s (t.each l g) :=
  eachMem l g (fun a ha => hg a (List.all_eq_true.mp hl a ha)) h

theorem foldlFst {α β : Type} (l : List α) (g : State × β → α → State × β) (hg : ∀ a c, Goes m a.1 (g a c).1) {a : State × β} (h : Goes m s a.1) :
    Goes m s (l.foldl g a).1 := by
  induction l generalizing a with
  | nil => exact h
  | cons c l ih => exact ih (h.trans (hg a c))

end Goes

/-- A part of what a mask allows is allowed. -/
theorem maskSub {a b m : Nat} (h : b &&& m = b) (k : a &&& b = a) : a &&& m = a := by
  rw [← k, Nat.land_assoc, h]

theorem bitSub {b m i : Nat} (h : b &&& m = b) (k : b.testBit i = true) : m.testBit i = true := by
  rw [← h, Nat.testBit_and, Bool.and_eq_true] at k
  exact k.2

end Sys2Proof.Machine
end

