-- ==== Sys2Proof/Laws/State.lean ====
section
/-! SUPPORT. What the plain updates of State leave as it was, each true by unfolding one record update, and what a table of elements reads after a write of
one of them. Later proofs cite these and unfold no update. -/

namespace Sys2Proof.Machine

/-! ### A register write leaves every part -/

@[simp] theorem State.put_shadows (s : State) (f : Fld) (i v : Nat) : (s.put f i v).shadows = s.shadows := rfl
@[simp] theorem State.put_waiting (s : State) (f : Fld) (i v : Nat) : (s.put f i v).waiting = s.waiting := rfl
@[simp] theorem State.put_crossings (s : State) (f : Fld) (i v : Nat) : (s.put f i v).crossings = s.crossings := rfl
@[simp] theorem State.put_pulses (s : State) (f : Fld) (i v : Nat) : (s.put f i v).pulses = s.pulses := rfl
@[simp] theorem State.put_copies (s : State) (f : Fld) (i v : Nat) : (s.put f i v).copies = s.copies := rfl
@[simp] theorem State.put_samplers (s : State) (f : Fld) (i v : Nat) : (s.put f i v).samplers = s.samplers := rfl
@[simp] theorem State.put_cells (s : State) (f : Fld) (i v : Nat) : (s.put f i v).cells = s.cells := rfl
@[simp] theorem State.put_words (s : State) (f : Fld) (i v : Nat) : (s.put f i v).words = s.words := rfl
@[simp] theorem State.put_elements (s : State) (f : Fld) (i v : Nat) : (s.put f i v).elements = s.elements := rfl
@[simp] theorem State.put_isos (s : State) (f : Fld) (i v : Nat) : (s.put f i v).isos = s.isos := rfl
@[simp] theorem State.put_taken (s : State) (f : Fld) (i v : Nat) : (s.put f i v).taken = s.taken := rfl
@[simp] theorem State.put_trees (s : State) (f : Fld) (i v : Nat) : (s.put f i v).trees = s.trees := rfl
@[simp] theorem State.put_flying (s : State) (f : Fld) (i v : Nat) : (s.put f i v).flying = s.flying := rfl
@[simp] theorem State.put_taps (s : State) (f : Fld) (i v : Nat) : (s.put f i v).taps = s.taps := rfl
@[simp] theorem State.put_arbiters (s : State) (f : Fld) (i v : Nat) : (s.put f i v).arbiters = s.arbiters := rfl
@[simp] theorem State.put_bms (s : State) (f : Fld) (i v : Nat) : (s.put f i v).bms = s.bms := rfl
@[simp] theorem State.put_isoAbsorb (s : State) (f : Fld) (i v : Nat) : (s.put f i v).isoAbsorb = s.isoAbsorb := rfl
@[simp] theorem State.put_uclkUse (s : State) (f : Fld) (i v : Nat) : (s.put f i v).uclkUse = s.uclkUse := rfl
@[simp] theorem State.put_restoring (s : State) (f : Fld) (i v : Nat) : (s.put f i v).restoring = s.restoring := rfl
@[simp] theorem State.put_evt (s : State) (f : Fld) (i v : Nat) : (s.put f i v).evt = s.evt := rfl
@[simp] theorem State.put_boxes (s : State) (f : Fld) (i v : Nat) : (s.put f i v).boxes = s.boxes := rfl
@[simp] theorem State.put_boxMem (s : State) (f : Fld) (i v : Nat) : (s.put f i v).boxMem = s.boxMem := rfl
@[simp] theorem State.put_svc (s : State) (f : Fld) (i v : Nat) : (s.put f i v).svc = s.svc := rfl
@[simp] theorem State.put_axes (s : State) (f : Fld) (i v : Nat) : (s.put f i v).axes = s.axes := rfl
@[simp] theorem State.put_encLevel (s : State) (f : Fld) (i v : Nat) : (s.put f i v).encLevel = s.encLevel := rfl
@[simp] theorem State.put_encOpen (s : State) (f : Fld) (i v : Nat) : (s.put f i v).encOpen = s.encOpen := rfl
@[simp] theorem State.put_strobeT (s : State) (f : Fld) (i v : Nat) : (s.put f i v).strobeT = s.strobeT := rfl
@[simp] theorem State.put_strobeAt (s : State) (f : Fld) (i v : Nat) : (s.put f i v).strobeAt = s.strobeAt := rfl
@[simp] theorem State.put_beaconAt (s : State) (f : Fld) (i v : Nat) : (s.put f i v).beaconAt = s.beaconAt := rfl
@[simp] theorem State.put_sorters (s : State) (f : Fld) (i v : Nat) : (s.put f i v).sorters = s.sorters := rfl
@[simp] theorem State.put_insWords (s : State) (f : Fld) (i v : Nat) : (s.put f i v).insWords = s.insWords := rfl
@[simp] theorem State.put_insRes (s : State) (f : Fld) (i v : Nat) : (s.put f i v).insRes = s.insRes := rfl
@[simp] theorem State.put_gates (s : State) (f : Fld) (i v : Nat) : (s.put f i v).gates = s.gates := rfl
@[simp] theorem State.put_plcs (s : State) (f : Fld) (i v : Nat) : (s.put f i v).plcs = s.plcs := rfl
@[simp] theorem State.put_pins (s : State) (f : Fld) (i v : Nat) : (s.put f i v).pins = s.pins := rfl
@[simp] theorem State.put_rings (s : State) (f : Fld) (i v : Nat) : (s.put f i v).rings = s.rings := rfl
@[simp] theorem State.put_lease (s : State) (f : Fld) (i v : Nat) : (s.put f i v).lease = s.lease := rfl
@[simp] theorem State.put_chans (s : State) (f : Fld) (i v : Nat) : (s.put f i v).chans = s.chans := rfl
@[simp] theorem State.put_jobs (s : State) (f : Fld) (i v : Nat) : (s.put f i v).jobs = s.jobs := rfl
@[simp] theorem State.put_letterBudget (s : State) (f : Fld) (i v : Nat) : (s.put f i v).letterBudget = s.letterBudget := rfl
@[simp] theorem State.put_letterQueue (s : State) (f : Fld) (i v : Nat) : (s.put f i v).letterQueue = s.letterQueue := rfl
@[simp] theorem State.put_fires (s : State) (f : Fld) (i v : Nat) : (s.put f i v).fires = s.fires := rfl
@[simp] theorem State.put_memo (s : State) (f : Fld) (i v : Nat) : (s.put f i v).memo = s.memo := rfl
@[simp] theorem State.put_seals (s : State) (f : Fld) (i v : Nat) : (s.put f i v).seals = s.seals := rfl
@[simp] theorem State.put_laneTx (s : State) (f : Fld) (i v : Nat) : (s.put f i v).laneTx = s.laneTx := rfl
@[simp] theorem State.put_laneSkip (s : State) (f : Fld) (i v : Nat) : (s.put f i v).laneSkip = s.laneSkip := rfl
@[simp] theorem State.put_store (s : State) (f : Fld) (i v : Nat) : (s.put f i v).store = s.store := rfl
@[simp] theorem State.put_images (s : State) (f : Fld) (i v : Nat) : (s.put f i v).images = s.images := rfl
@[simp] theorem State.put_monitors (s : State) (f : Fld) (i v : Nat) : (s.put f i v).monitors = s.monitors := rfl
@[simp] theorem State.put_links (s : State) (f : Fld) (i v : Nat) : (s.put f i v).links = s.links := rfl
@[simp] theorem State.put_ports (s : State) (f : Fld) (i v : Nat) : (s.put f i v).ports = s.ports := rfl
@[simp] theorem State.put_heaters (s : State) (f : Fld) (i v : Nat) : (s.put f i v).heaters = s.heaters := rfl
@[simp] theorem State.put_config (s : State) (f : Fld) (i v : Nat) : (s.put f i v).config = s.config := rfl
@[simp] theorem State.put_power (s : State) (f : Fld) (i v : Nat) : (s.put f i v).power = s.power := rfl
@[simp] theorem State.put_resets (s : State) (f : Fld) (i v : Nat) : (s.put f i v).resets = s.resets := rfl
@[simp] theorem State.put_secure (s : State) (f : Fld) (i v : Nat) : (s.put f i v).secure = s.secure := rfl
@[simp] theorem State.put_franker (s : State) (f : Fld) (i v : Nat) : (s.put f i v).franker = s.franker := rfl
@[simp] theorem State.put_out (s : State) (f : Fld) (i v : Nat) : (s.put f i v).out = s.out := rfl
@[simp] theorem State.put_free (s : State) (f : Fld) (i v : Nat) : (s.put f i v).free = s.free := rfl
@[simp] theorem State.put_clock (s : State) (f : Fld) (i v : Nat) : (s.put f i v).clock = s.clock := rfl
@[simp] theorem State.put_timers (s : State) (f : Fld) (i v : Nat) : (s.put f i v).timers = s.timers := rfl
@[simp] theorem State.put_pending (s : State) (f : Fld) (i v : Nat) : (s.put f i v).pending = s.pending := rfl

/-! ### An output adds to what has left the device -/

@[simp] theorem State.emit_out (s : State) (o : Output) : (s.emit o).out = s.out ++ [o] := rfl
@[simp] theorem State.emit_regs (s : State) (o : Output) : (s.emit o).regs = s.regs := rfl
@[simp] theorem State.emit_shadows (s : State) (o : Output) : (s.emit o).shadows = s.shadows := rfl
@[simp] theorem State.emit_waiting (s : State) (o : Output) : (s.emit o).waiting = s.waiting := rfl
@[simp] theorem State.emit_crossings (s : State) (o : Output) : (s.emit o).crossings = s.crossings := rfl
@[simp] theorem State.emit_pulses (s : State) (o : Output) : (s.emit o).pulses = s.pulses := rfl
@[simp] theorem State.emit_copies (s : State) (o : Output) : (s.emit o).copies = s.copies := rfl
@[simp] theorem State.emit_samplers (s : State) (o : Output) : (s.emit o).samplers = s.samplers := rfl
@[simp] theorem State.emit_cells (s : State) (o : Output) : (s.emit o).cells = s.cells := rfl
@[simp] theorem State.emit_words (s : State) (o : Output) : (s.emit o).words = s.words := rfl
@[simp] theorem State.emit_elements (s : State) (o : Output) : (s.emit o).elements = s.elements := rfl
@[simp] theorem State.emit_isos (s : State) (o : Output) : (s.emit o).isos = s.isos := rfl
@[simp] theorem State.emit_taken (s : State) (o : Output) : (s.emit o).taken = s.taken := rfl
@[simp] theorem State.emit_trees (s : State) (o : Output) : (s.emit o).trees = s.trees := rfl
@[simp] theorem State.emit_flying (s : State) (o : Output) : (s.emit o).flying = s.flying := rfl
@[simp] theorem State.emit_taps (s : State) (o : Output) : (s.emit o).taps = s.taps := rfl
@[simp] theorem State.emit_arbiters (s : State) (o : Output) : (s.emit o).arbiters = s.arbiters := rfl
@[simp] theorem State.emit_bms (s : State) (o : Output) : (s.emit o).bms = s.bms := rfl
@[simp] theorem State.emit_isoAbsorb (s : State) (o : Output) : (s.emit o).isoAbsorb = s.isoAbsorb := rfl
@[simp] theorem State.emit_uclkUse (s : State) (o : Output) : (s.emit o).uclkUse = s.uclkUse := rfl
@[simp] theorem State.emit_restoring (s : State) (o : Output) : (s.emit o).restoring = s.restoring := rfl
@[simp] theorem State.emit_evt (s : State) (o : Output) : (s.emit o).evt = s.evt := rfl
@[simp] theorem State.emit_boxes (s : State) (o : Output) : (s.emit o).boxes = s.boxes := rfl
@[simp] theorem State.emit_boxMem (s : State) (o : Output) : (s.emit o).boxMem = s.boxMem := rfl
@[simp] theorem State.emit_svc (s : State) (o : Output) : (s.emit o).svc = s.svc := rfl
@[simp] theorem State.emit_axes (s : State) (o : Output) : (s.emit o).axes = s.axes := rfl
@[simp] theorem State.emit_encLevel (s : State) (o : Output) : (s.emit o).encLevel = s.encLevel := rfl
@[simp] theorem State.emit_encOpen (s : State) (o : Output) : (s.emit o).encOpen = s.encOpen := rfl
@[simp] theorem State.emit_strobeT (s : State) (o : Output) : (s.emit o).strobeT = s.strobeT := rfl
@[simp] theorem State.emit_strobeAt (s : State) (o : Output) : (s.emit o).strobeAt = s.strobeAt := rfl
@[simp] theorem State.emit_beaconAt (s : State) (o : Output) : (s.emit o).beaconAt = s.beaconAt := rfl
@[simp] theorem State.emit_sorters (s : State) (o : Output) : (s.emit o).sorters = s.sorters := rfl
@[simp] theorem State.emit_insWords (s : State) (o : Output) : (s.emit o).insWords = s.insWords := rfl
@[simp] theorem State.emit_insRes (s : State) (o : Output) : (s.emit o).insRes = s.insRes := rfl
@[simp] theorem State.emit_gates (s : State) (o : Output) : (s.emit o).gates = s.gates := rfl
@[simp] theorem State.emit_plcs (s : State) (o : Output) : (s.emit o).plcs = s.plcs := rfl
@[simp] theorem State.emit_pins (s : State) (o : Output) : (s.emit o).pins = s.pins := rfl
@[simp] theorem State.emit_rings (s : State) (o : Output) : (s.emit o).rings = s.rings := rfl
@[simp] theorem State.emit_lease (s : State) (o : Output) : (s.emit o).lease = s.lease := rfl
@[simp] theorem State.emit_chans (s : State) (o : Output) : (s.emit o).chans = s.chans := rfl
@[simp] theorem State.emit_jobs (s : State) (o : Output) : (s.emit o).jobs = s.jobs := rfl
@[simp] theorem State.emit_letterBudget (s : State) (o : Output) : (s.emit o).letterBudget = s.letterBudget := rfl
@[simp] theorem State.emit_letterQueue (s : State) (o : Output) : (s.emit o).letterQueue = s.letterQueue := rfl
@[simp] theorem State.emit_fires (s : State) (o : Output) : (s.emit o).fires = s.fires := rfl
@[simp] theorem State.emit_memo (s : State) (o : Output) : (s.emit o).memo = s.memo := rfl
@[simp] theorem State.emit_seals (s : State) (o : Output) : (s.emit o).seals = s.seals := rfl
@[simp] theorem State.emit_laneTx (s : State) (o : Output) : (s.emit o).laneTx = s.laneTx := rfl
@[simp] theorem State.emit_laneSkip (s : State) (o : Output) : (s.emit o).laneSkip = s.laneSkip := rfl
@[simp] theorem State.emit_store (s : State) (o : Output) : (s.emit o).store = s.store := rfl
@[simp] theorem State.emit_images (s : State) (o : Output) : (s.emit o).images = s.images := rfl
@[simp] theorem State.emit_monitors (s : State) (o : Output) : (s.emit o).monitors = s.monitors := rfl
@[simp] theorem State.emit_links (s : State) (o : Output) : (s.emit o).links = s.links := rfl
@[simp] theorem State.emit_ports (s : State) (o : Output) : (s.emit o).ports = s.ports := rfl
@[simp] theorem State.emit_heaters (s : State) (o : Output) : (s.emit o).heaters = s.heaters := rfl
@[simp] theorem State.emit_config (s : State) (o : Output) : (s.emit o).config = s.config := rfl
@[simp] theorem State.emit_power (s : State) (o : Output) : (s.emit o).power = s.power := rfl
@[simp] theorem State.emit_resets (s : State) (o : Output) : (s.emit o).resets = s.resets := rfl
@[simp] theorem State.emit_secure (s : State) (o : Output) : (s.emit o).secure = s.secure := rfl
@[simp] theorem State.emit_franker (s : State) (o : Output) : (s.emit o).franker = s.franker := rfl
@[simp] theorem State.emit_free (s : State) (o : Output) : (s.emit o).free = s.free := rfl
@[simp] theorem State.emit_clock (s : State) (o : Output) : (s.emit o).clock = s.clock := rfl
@[simp] theorem State.emit_timers (s : State) (o : Output) : (s.emit o).timers = s.timers := rfl
@[simp] theorem State.emit_pending (s : State) (o : Output) : (s.emit o).pending = s.pending := rfl

/-! ### Taking a free value advances the counter -/

@[simp] theorem State.drew_free (s : State) : s.drew.free = s.free + 1 := rfl
@[simp] theorem State.drew_regs (s : State) : s.drew.regs = s.regs := rfl
@[simp] theorem State.drew_shadows (s : State) : s.drew.shadows = s.shadows := rfl
@[simp] theorem State.drew_waiting (s : State) : s.drew.waiting = s.waiting := rfl
@[simp] theorem State.drew_crossings (s : State) : s.drew.crossings = s.crossings := rfl
@[simp] theorem State.drew_pulses (s : State) : s.drew.pulses = s.pulses := rfl
@[simp] theorem State.drew_copies (s : State) : s.drew.copies = s.copies := rfl
@[simp] theorem State.drew_samplers (s : State) : s.drew.samplers = s.samplers := rfl
@[simp] theorem State.drew_cells (s : State) : s.drew.cells = s.cells := rfl
@[simp] theorem State.drew_words (s : State) : s.drew.words = s.words := rfl
@[simp] theorem State.drew_elements (s : State) : s.drew.elements = s.elements := rfl
@[simp] theorem State.drew_isos (s : State) : s.drew.isos = s.isos := rfl
@[simp] theorem State.drew_taken (s : State) : s.drew.taken = s.taken := rfl
@[simp] theorem State.drew_trees (s : State) : s.drew.trees = s.trees := rfl
@[simp] theorem State.drew_flying (s : State) : s.drew.flying = s.flying := rfl
@[simp] theorem State.drew_taps (s : State) : s.drew.taps = s.taps := rfl
@[simp] theorem State.drew_arbiters (s : State) : s.drew.arbiters = s.arbiters := rfl
@[simp] theorem State.drew_bms (s : State) : s.drew.bms = s.bms := rfl
@[simp] theorem State.drew_isoAbsorb (s : State) : s.drew.isoAbsorb = s.isoAbsorb := rfl
@[simp] theorem State.drew_uclkUse (s : State) : s.drew.uclkUse = s.uclkUse := rfl
@[simp] theorem State.drew_restoring (s : State) : s.drew.restoring = s.restoring := rfl
@[simp] theorem State.drew_evt (s : State) : s.drew.evt = s.evt := rfl
@[simp] theorem State.drew_boxes (s : State) : s.drew.boxes = s.boxes := rfl
@[simp] theorem State.drew_boxMem (s : State) : s.drew.boxMem = s.boxMem := rfl
@[simp] theorem State.drew_svc (s : State) : s.drew.svc = s.svc := rfl
@[simp] theorem State.drew_axes (s : State) : s.drew.axes = s.axes := rfl
@[simp] theorem State.drew_encLevel (s : State) : s.drew.encLevel = s.encLevel := rfl
@[simp] theorem State.drew_encOpen (s : State) : s.drew.encOpen = s.encOpen := rfl
@[simp] theorem State.drew_strobeT (s : State) : s.drew.strobeT = s.strobeT := rfl
@[simp] theorem State.drew_strobeAt (s : State) : s.drew.strobeAt = s.strobeAt := rfl
@[simp] theorem State.drew_beaconAt (s : State) : s.drew.beaconAt = s.beaconAt := rfl
@[simp] theorem State.drew_sorters (s : State) : s.drew.sorters = s.sorters := rfl
@[simp] theorem State.drew_insWords (s : State) : s.drew.insWords = s.insWords := rfl
@[simp] theorem State.drew_insRes (s : State) : s.drew.insRes = s.insRes := rfl
@[simp] theorem State.drew_gates (s : State) : s.drew.gates = s.gates := rfl
@[simp] theorem State.drew_plcs (s : State) : s.drew.plcs = s.plcs := rfl
@[simp] theorem State.drew_pins (s : State) : s.drew.pins = s.pins := rfl
@[simp] theorem State.drew_rings (s : State) : s.drew.rings = s.rings := rfl
@[simp] theorem State.drew_lease (s : State) : s.drew.lease = s.lease := rfl
@[simp] theorem State.drew_chans (s : State) : s.drew.chans = s.chans := rfl
@[simp] theorem State.drew_jobs (s : State) : s.drew.jobs = s.jobs := rfl
@[simp] theorem State.drew_letterBudget (s : State) : s.drew.letterBudget = s.letterBudget := rfl
@[simp] theorem State.drew_letterQueue (s : State) : s.drew.letterQueue = s.letterQueue := rfl
@[simp] theorem State.drew_fires (s : State) : s.drew.fires = s.fires := rfl
@[simp] theorem State.drew_memo (s : State) : s.drew.memo = s.memo := rfl
@[simp] theorem State.drew_seals (s : State) : s.drew.seals = s.seals := rfl
@[simp] theorem State.drew_laneTx (s : State) : s.drew.laneTx = s.laneTx := rfl
@[simp] theorem State.drew_laneSkip (s : State) : s.drew.laneSkip = s.laneSkip := rfl
@[simp] theorem State.drew_store (s : State) : s.drew.store = s.store := rfl
@[simp] theorem State.drew_images (s : State) : s.drew.images = s.images := rfl
@[simp] theorem State.drew_monitors (s : State) : s.drew.monitors = s.monitors := rfl
@[simp] theorem State.drew_links (s : State) : s.drew.links = s.links := rfl
@[simp] theorem State.drew_ports (s : State) : s.drew.ports = s.ports := rfl
@[simp] theorem State.drew_heaters (s : State) : s.drew.heaters = s.heaters := rfl
@[simp] theorem State.drew_config (s : State) : s.drew.config = s.config := rfl
@[simp] theorem State.drew_power (s : State) : s.drew.power = s.power := rfl
@[simp] theorem State.drew_resets (s : State) : s.drew.resets = s.resets := rfl
@[simp] theorem State.drew_secure (s : State) : s.drew.secure = s.secure := rfl
@[simp] theorem State.drew_franker (s : State) : s.drew.franker = s.franker := rfl
@[simp] theorem State.drew_out (s : State) : s.drew.out = s.out := rfl
@[simp] theorem State.drew_clock (s : State) : s.drew.clock = s.clock := rfl
@[simp] theorem State.drew_timers (s : State) : s.drew.timers = s.timers := rfl
@[simp] theorem State.drew_pending (s : State) : s.drew.pending = s.pending := rfl

/-! ### An update of another part leaves the registers -/

@[simp] theorem State.fld_setCell (s : State) (n j : Nat) (c : Cell) (f : Fld) (i : Nat) : (s.setCell n j c).fld f i = s.fld f i := rfl
@[simp] theorem State.fld_setTree (s : State) (t : Nat) (x : Tree) (f : Fld) (i : Nat) : (s.setTree t x).fld f i = s.fld f i := rfl
@[simp] theorem State.fld_setSampler (s : State) (x : Published) (r : Nat) (c : Sampler) (f : Fld) (i : Nat) : (s.setSampler x r c).fld f i = s.fld f i := rfl
@[simp] theorem State.fld_setCrossing (s : State) (d : Nat) (c : Crossing) (f : Fld) (i : Nat) : (s.setCrossing d c).fld f i = s.fld f i := rfl
@[simp] theorem State.fld_setBox (s : State) (m : Nat) (b : Mailbox) (f : Fld) (i : Nat) : (s.setBox m b).fld f i = s.fld f i := rfl
@[simp] theorem State.fld_setBoxByte (s : State) (a : Nat) (b : Byte) (f : Fld) (i : Nat) : (s.setBoxByte a b).fld f i = s.fld f i := rfl
@[simp] theorem State.fld_setArbiter (s : State) (n a : Nat) (x : Arbiter) (f : Fld) (i : Nat) : (s.setArbiter n a x).fld f i = s.fld f i := rfl
@[simp] theorem State.fld_setBm (s : State) (n k : Nat) (b : BlockMem) (f : Fld) (i : Nat) : (s.setBm n k b).fld f i = s.fld f i := rfl
@[simp] theorem State.fld_setAx (s : State) (a : Nat) (x : Axis) (f : Fld) (i : Nat) : (s.setAx a x).fld f i = s.fld f i := rfl
@[simp] theorem State.fld_setPlc (s : State) (c : Nat) (x : PlcCell) (f : Fld) (i : Nat) : (s.setPlc c x).fld f i = s.fld f i := rfl
@[simp] theorem State.fld_setChan (s : State) (c : Nat) (x : Channel) (f : Fld) (i : Nat) : (s.setChan c x).fld f i = s.fld f i := rfl
@[simp] theorem State.fld_updLink (s : State) (m : Nat) (g : Link → Link) (f : Fld) (i : Nat) : (s.updLink m g).fld f i = s.fld f i := rfl
@[simp] theorem State.fld_setRing (s : State) (r : Nat) (x : Ring) (f : Fld) (i : Nat) : (s.setRing r x).fld f i = s.fld f i := rfl
@[simp] theorem State.fld_setLease (s : State) (g : LeaseState → LeaseState) (f : Fld) (i : Nat) : (s.setLease g).fld f i = s.fld f i := rfl
@[simp] theorem State.fld_setPort (s : State) (a p : Nat) (l : List PortReq) (f : Fld) (i : Nat) : (s.setPort a p l).fld f i = s.fld f i := rfl
@[simp] theorem State.fld_setMem (s : State) (g : MemState → MemState) (f : Fld) (i : Nat) : (s.setMem g).fld f i = s.fld f i := rfl
@[simp] theorem State.fld_setSeal (s : State) (g : SealState → SealState) (f : Fld) (i : Nat) : (s.setSeal g).fld f i = s.fld f i := rfl
@[simp] theorem State.fld_setStore (s : State) (g : StoreState → StoreState) (f : Fld) (i : Nat) : (s.setStore g).fld f i = s.fld f i := rfl
@[simp] theorem State.fld_setSecure (s : State) (g : SecurityState → SecurityState) (f : Fld) (i : Nat) : (s.setSecure g).fld f i = s.fld f i := rfl
@[simp] theorem State.fld_setPower (s : State) (g : PowerState → PowerState) (f : Fld) (i : Nat) : (s.setPower g).fld f i = s.fld f i := rfl
@[simp] theorem State.fld_setConfig (s : State) (g : ConfigState → ConfigState) (f : Fld) (i : Nat) : (s.setConfig g).fld f i = s.fld f i := rfl
@[simp] theorem State.fld_setFranker (s : State) (g : FrankerState → FrankerState) (f : Fld) (i : Nat) : (s.setFranker g).fld f i = s.fld f i := rfl
@[simp] theorem State.fld_setHeater (s : State) (k : Nat) (h : Heater) (f : Fld) (i : Nat) : (s.setHeater k h).fld f i = s.fld f i := rfl
@[simp] theorem State.fld_setInForce (s : State) (b r : Nat) (f : Fld) (i : Nat) : (s.setInForce b r).fld f i = s.fld f i := rfl
@[simp] theorem State.fld_setArm (s : State) (p : Port) (v : Nat) (f : Fld) (i : Nat) : (s.setArm p v).fld f i = s.fld f i := rfl

/-! ### An element reads as it was last written, any other as before -/

@[simp] theorem State.box_setBox (s : State) (m k : Nat) (x : Mailbox) : (s.setBox m x).box k = if m = k then x else s.box k :=
  Tbl.find_set _ _ _ _ _

@[simp] theorem State.boxByte_setBoxByte (s : State) (a k : Nat) (x : Byte) : (s.setBoxByte a x).boxByte k = if a = k then x else s.boxByte k :=
  Tbl.find_set _ _ _ _ _

@[simp] theorem State.crossing_setCrossing (s : State) (d k : Nat) (x : Crossing) : (s.setCrossing d x).crossing k = if d = k then x else s.crossing k :=
  Tbl.find_set _ _ _ _ _

@[simp] theorem State.ax_setAx (s : State) (a k : Nat) (x : Axis) : (s.setAx a x).ax k = if a = k then x else s.ax k :=
  Tbl.find_set _ _ _ _ _

@[simp] theorem State.tree_setTree (s : State) (t k : Nat) (x : Tree) : (s.setTree t x).tree k = if t = k then x else s.tree k :=
  Tbl.find_set _ _ _ _ _

@[simp] theorem State.chan_setChan (s : State) (c k : Nat) (x : Channel) : (s.setChan c x).chan k = if c = k then x else s.chan k :=
  Tbl.find_set _ _ _ _ _

@[simp] theorem State.ring_setRing (s : State) (r k : Nat) (x : Ring) : (s.setRing r x).ring k = if r = k then x else s.ring k :=
  Tbl.find_set _ _ _ _ _

@[simp] theorem State.plc_setPlc (s : State) (c k : Nat) (x : PlcCell) : (s.setPlc c x).plc k = if c = k then x else s.plc k :=
  Tbl.find_set _ _ _ _ _

@[simp] theorem State.heater_setHeater (s : State) (h k : Nat) (x : Heater) : (s.setHeater h x).heater k = if h = k then x else s.heater k :=
  Tbl.find_set _ _ _ _ _

@[simp] theorem State.link_updLink (s : State) (m k : Nat) (g : Link → Link) : (s.updLink m g).link k = if m = k then g (s.link m) else s.link k :=
  Tbl.find_set _ _ _ _ _

@[simp] theorem State.fld_setStage (s : State) (j v : Nat) (f : Fld) (i : Nat) : (s.setStage j v).fld f i = s.fld f i := by
  simp only [State.setStage, State.when]
  split <;> rfl

@[simp] theorem State.stageOf_setStage (s : State) (j k v : Nat) : (s.setStage j v).stageOf k = if j = k then v else s.stageOf k := by
  have h : (s.setStage j v).ports.stage = Tbl.set 0 s.ports.stage j v := by
    simp only [State.setStage, State.when]
    split <;> rfl
  rw [State.stageOf, h]
  exact Tbl.find_set _ _ _ _ _

@[simp] theorem State.ax_updAx (s : State) (a k : Nat) (g : Axis → Axis) : (s.updAx a g).ax k = if a = k then g (s.ax a) else s.ax k :=
  Tbl.find_set _ _ _ _ _

@[simp] theorem State.chan_updChan (s : State) (c k : Nat) (g : Channel → Channel) : (s.updChan c g).chan k = if c = k then g (s.chan c) else s.chan k :=
  Tbl.find_set _ _ _ _ _

theorem State.cell_setCell (s : State) (n i m j : Nat) (c : Cell) :
    (s.setCell n i c).cell m j = if cellKey n i = cellKey m j then c else s.cell m j :=
  Tbl.find_set _ _ _ _ _

theorem State.bm_setBm (s : State) (n i m j : Nat) (b : BlockMem) :
    (s.setBm n i b).bm m j = if n * 192 + i = m * 192 + j then b else s.bm m j :=
  Tbl.find_set _ _ _ _ _

theorem State.arbiter_setArbiter (s : State) (n a m b : Nat) (x : Arbiter) :
    (s.setArbiter n a x).arbiter m b = if n * 8192 + a = m * 8192 + b then x else s.arbiter m b :=
  Tbl.find_set _ _ _ _ _

theorem State.sampler_setSampler (s : State) (x y : Published) (r q : Nat) (c : Sampler) :
    (s.setSampler x r c).sampler y q = if x.key r = y.key q then c else s.sampler y q :=
  Tbl.find_set _ _ _ _ _

theorem State.portReqs_setPort (s : State) (a p b q : Nat) (l : List PortReq) :
    (s.setPort a p l).portReqs b q = if a * 16 + p = b * 16 + q then l else s.portReqs b q :=
  Tbl.find_set _ _ _ _ _

end Sys2Proof.Machine
end

