-- ==== Sys2Proof/Tests/Slice0.lean ====
section
/-! SUPPORT. Tests: ill-formed commands that WellFormed refuses, and states that meet the hypotheses of the statements. Expected values are taken from the
rules of spec/ that each test names. -/

namespace Sys2Proof.Tests
open Sys2Proof Sys2Proof.Machine

/-- A letter in mailbox 3 with no body. -/
def letter (opcode : BitVec 16) : Letter := ⟨3, opcode, 0, 0, 0, 0, [], none⟩

/-- The well-formed start of a device from its first slot. -/
def facts : StartFacts := ⟨0, .newest, 0, 0, List.replicate 12 0, 0, true, none, true, 1⟩

/-- Mailbox 3 has taken two letters and answered neither. -/
def twoTaken : State := State.reset.setBox 3 { Mailbox.reset with taken := [letter 0x0101, letter 0x0103] }

/-- The second letter of a mailbox is not served before the first (R359). -/
theorem test_letters_in_order : (twoTaken.behind (letter 0x0101), twoTaken.behind (letter 0x0103)) = (false, true) := by decide

/-- The reply of the second letter waits for that of the first (R358). -/
theorem test_reply_waits :
    ((twoTaken.reply (letter 0x0103) (plain (letter 0x0103) .OK)).box 3).held = [] ∧
      ((twoTaken.reply (letter 0x0103) (plain (letter 0x0103) .OK)).box 3).answers.length = 1 := by decide

/-! ### What WellFormed refuses -/

/-- OPCODE of another service (R355). -/
theorem test_wf_refuses_channel_create : (Instr.channelCreate (letter 0xFFFF)).wf = false := by decide

/-- OPCODE of another service (R355). -/
theorem test_wf_refuses_channel_bind : (Instr.channelBind (letter 0xFFFF)).wf = false := by decide

/-- OPCODE of another service (R355). -/
theorem test_wf_refuses_channel_unbind : (Instr.channelUnbind (letter 0xFFFF)).wf = false := by decide

/-- OPCODE of another service (R355). -/
theorem test_wf_refuses_channel_rebind : (Instr.channelRebind (letter 0xFFFF)).wf = false := by decide

/-- OPCODE of another service (R355). -/
theorem test_wf_refuses_channel_hold : (Instr.channelHold (letter 0xFFFF)).wf = false := by decide

/-- OPCODE of another service (R355). -/
theorem test_wf_refuses_channel_resume : (Instr.channelResume (letter 0xFFFF)).wf = false := by decide

/-- OPCODE of another service (R355). -/
theorem test_wf_refuses_channel_drain : (Instr.channelDrain (letter 0xFFFF)).wf = false := by decide

/-- OPCODE of another service (R355). -/
theorem test_wf_refuses_channel_abort : (Instr.channelAbort (letter 0xFFFF)).wf = false := by decide

/-- OPCODE of another service (R355). -/
theorem test_wf_refuses_channel_query : (Instr.channelQuery (letter 0xFFFF)).wf = false := by decide

/-- OPCODE of another service (R355). -/
theorem test_wf_refuses_channel_set_mode : (Instr.channelSetMode (letter 0xFFFF)).wf = false := by decide

/-- OPCODE of another service (R355). -/
theorem test_wf_refuses_verdict : (Instr.verdict (letter 0xFFFF)).wf = false := by decide

/-- OPCODE of another service (R355). -/
theorem test_wf_refuses_ring_stop : (Instr.ringStop (letter 0xFFFF)).wf = false := by decide

/-- OPCODE of another service (R355). -/
theorem test_wf_refuses_ring_release_stop : (Instr.ringReleaseStop (letter 0xFFFF)).wf = false := by decide

/-- OPCODE of another service (R355). -/
theorem test_wf_refuses_lease_series_define : (Instr.leaseSeriesDefine (letter 0xFFFF)).wf = false := by decide

/-- OPCODE of another service (R355). -/
theorem test_wf_refuses_lease_series_open : (Instr.leaseSeriesOpen (letter 0xFFFF)).wf = false := by decide

/-- OPCODE of another service (R355). -/
theorem test_wf_refuses_lease_request : (Instr.leaseRequest (letter 0xFFFF)).wf = false := by decide

/-- OPCODE of another service (R355). -/
theorem test_wf_refuses_lease_retire : (Instr.leaseRetire (letter 0xFFFF)).wf = false := by decide

/-- OPCODE of another service (R355). -/
theorem test_wf_refuses_lease_query : (Instr.leaseQuery (letter 0xFFFF)).wf = false := by decide

/-- OPCODE of another service (R355). -/
theorem test_wf_refuses_ring_config : (Instr.ringConfig (letter 0xFFFF)).wf = false := by decide

/-- OPCODE of another service (R355). -/
theorem test_wf_refuses_ring_query : (Instr.ringQuery (letter 0xFFFF)).wf = false := by decide

/-- OPCODE of another service (R355). -/
theorem test_wf_refuses_device_info : (Instr.deviceInfo (letter 0xFFFF)).wf = false := by decide

/-- OPCODE of another service (R355). -/
theorem test_wf_refuses_device_mailbox_assign : (Instr.deviceMailboxAssign (letter 0xFFFF)).wf = false := by decide

/-- OPCODE of another service (R355). -/
theorem test_wf_refuses_device_time_set : (Instr.deviceTimeSet (letter 0xFFFF)).wf = false := by decide

/-- OPCODE of another service (R355). -/
theorem test_wf_refuses_device_time_get : (Instr.deviceTimeGet (letter 0xFFFF)).wf = false := by decide

/-- OPCODE of another service (R355). -/
theorem test_wf_refuses_device_reset : (Instr.deviceReset (letter 0xFFFF)).wf = false := by decide

/-- OPCODE of another service (R355). -/
theorem test_wf_refuses_device_shutdown : (Instr.deviceShutdown (letter 0xFFFF)).wf = false := by decide

/-- OPCODE of another service (R355). -/
theorem test_wf_refuses_power_state : (Instr.powerState (letter 0xFFFF)).wf = false := by decide

/-- OPCODE of another service (R355). -/
theorem test_wf_refuses_power_query : (Instr.powerQuery (letter 0xFFFF)).wf = false := by decide

/-- OPCODE of another service (R355). -/
theorem test_wf_refuses_power_margin : (Instr.powerMargin (letter 0xFFFF)).wf = false := by decide

/-- OPCODE of another service (R355). -/
theorem test_wf_refuses_power_rail : (Instr.powerRail (letter 0xFFFF)).wf = false := by decide

/-- OPCODE of another service (R355). -/
theorem test_wf_refuses_config_slots : (Instr.configSlots (letter 0xFFFF)).wf = false := by decide

/-- OPCODE of another service (R355). -/
theorem test_wf_refuses_config_write : (Instr.configWrite (letter 0xFFFF)).wf = false := by decide

/-- OPCODE of another service (R355). -/
theorem test_wf_refuses_config_select : (Instr.configSelect (letter 0xFFFF)).wf = false := by decide

/-- OPCODE of another service (R355). -/
theorem test_wf_refuses_config_reload : (Instr.configReload (letter 0xFFFF)).wf = false := by decide

/-- OPCODE of another service (R355). -/
theorem test_wf_refuses_config_broadcast : (Instr.configBroadcast (letter 0xFFFF)).wf = false := by decide

/-- OPCODE of another service (R355). -/
theorem test_wf_refuses_region_image_close : (Instr.regionImageClose (letter 0xFFFF)).wf = false := by decide

/-- OPCODE of another service (R355). -/
theorem test_wf_refuses_region_load : (Instr.regionLoad (letter 0xFFFF)).wf = false := by decide

/-- OPCODE of another service (R355). -/
theorem test_wf_refuses_region_reset : (Instr.regionReset (letter 0xFFFF)).wf = false := by decide

/-- OPCODE of another service (R355). -/
theorem test_wf_refuses_region_query : (Instr.regionQuery (letter 0xFFFF)).wf = false := by decide

/-- OPCODE of another service (R355). -/
theorem test_wf_refuses_channel_health_set : (Instr.channelHealthSet (letter 0xFFFF)).wf = false := by decide

/-- OPCODE of another service (R355). -/
theorem test_wf_refuses_channel_health_query : (Instr.channelHealthQuery (letter 0xFFFF)).wf = false := by decide

/-- OPCODE of another service (R355). -/
theorem test_wf_refuses_job_close : (Instr.jobClose (letter 0xFFFF)).wf = false := by decide

/-- OPCODE of another service (R355). -/
theorem test_wf_refuses_job_query : (Instr.jobQuery (letter 0xFFFF)).wf = false := by decide

/-- OPCODE of another service (R355). -/
theorem test_wf_refuses_store_query : (Instr.storeQuery (letter 0xFFFF)).wf = false := by decide

/-- OPCODE of another service (R355). -/
theorem test_wf_refuses_store_format : (Instr.storeFormat (letter 0xFFFF)).wf = false := by decide

/-- OPCODE of another service (R355). -/
theorem test_wf_refuses_store_vol_create : (Instr.storeVolCreate (letter 0xFFFF)).wf = false := by decide

/-- OPCODE of another service (R355). -/
theorem test_wf_refuses_store_vol_resize : (Instr.storeVolResize (letter 0xFFFF)).wf = false := by decide

/-- OPCODE of another service (R355). -/
theorem test_wf_refuses_store_vol_delete : (Instr.storeVolDelete (letter 0xFFFF)).wf = false := by decide

/-- OPCODE of another service (R355). -/
theorem test_wf_refuses_store_vol_open : (Instr.storeVolOpen (letter 0xFFFF)).wf = false := by decide

/-- OPCODE of another service (R355). -/
theorem test_wf_refuses_store_vol_close : (Instr.storeVolClose (letter 0xFFFF)).wf = false := by decide

/-- OPCODE of another service (R355). -/
theorem test_wf_refuses_store_read : (Instr.storeRead (letter 0xFFFF)).wf = false := by decide

/-- OPCODE of another service (R355). -/
theorem test_wf_refuses_store_write : (Instr.storeWrite (letter 0xFFFF)).wf = false := by decide

/-- OPCODE of another service (R355). -/
theorem test_wf_refuses_store_flush : (Instr.storeFlush (letter 0xFFFF)).wf = false := by decide

/-- OPCODE of another service (R355). -/
theorem test_wf_refuses_store_set_commit : (Instr.storeSetCommit (letter 0xFFFF)).wf = false := by decide

/-- OPCODE of another service (R355). -/
theorem test_wf_refuses_seal_convert : (Instr.sealConvert (letter 0xFFFF)).wf = false := by decide

/-- OPCODE of another service (R355). -/
theorem test_wf_refuses_seal_query : (Instr.sealQuery (letter 0xFFFF)).wf = false := by decide

/-- OPCODE of another service (R355). -/
theorem test_wf_refuses_seal_pool : (Instr.sealPool (letter 0xFFFF)).wf = false := by decide

/-- OPCODE of another service (R355). -/
theorem test_wf_refuses_axis_setup : (Instr.axisSetup (letter 0xFFFF)).wf = false := by decide

/-- OPCODE of another service (R355). -/
theorem test_wf_refuses_axis_start : (Instr.axisStart (letter 0xFFFF)).wf = false := by decide

/-- OPCODE of another service (R355). -/
theorem test_wf_refuses_axis_stop : (Instr.axisStop (letter 0xFFFF)).wf = false := by decide

/-- OPCODE of another service (R355). -/
theorem test_wf_refuses_axis_recover : (Instr.axisRecover (letter 0xFFFF)).wf = false := by decide

/-- OPCODE of another service (R355). -/
theorem test_wf_refuses_axis_query : (Instr.axisQuery (letter 0xFFFF)).wf = false := by decide

/-- OPCODE of another service (R355). -/
theorem test_wf_refuses_pin_calibrate : (Instr.pinCalibrate (letter 0xFFFF)).wf = false := by decide

/-- OPCODE of another service (R355). -/
theorem test_wf_refuses_pin_heater_set : (Instr.pinHeaterSet (letter 0xFFFF)).wf = false := by decide

/-- OPCODE of another service (R355). -/
theorem test_wf_refuses_pin_heater_query : (Instr.pinHeaterQuery (letter 0xFFFF)).wf = false := by decide

/-- OPCODE of another service (R355). -/
theorem test_wf_refuses_link_eth_queue : (Instr.linkEthQueue (letter 0xFFFF)).wf = false := by decide

/-- OPCODE of another service (R355). -/
theorem test_wf_refuses_link_eth_steer : (Instr.linkEthSteer (letter 0xFFFF)).wf = false := by decide

/-- OPCODE of another service (R355). -/
theorem test_wf_refuses_link_query : (Instr.linkQuery (letter 0xFFFF)).wf = false := by decide

/-- OPCODE of another service (R355). -/
theorem test_wf_refuses_test_set_budget : (Instr.testSetBudget (letter 0xFFFF)).wf = false := by decide

/-- OPCODE of another service (R355). -/
theorem test_wf_refuses_test_query : (Instr.testQuery (letter 0xFFFF)).wf = false := by decide

/-- OPCODE of another service (R355). -/
theorem test_wf_refuses_test_run : (Instr.testRun (letter 0xFFFF)).wf = false := by decide

/-- OPCODE of another service (R355). -/
theorem test_wf_refuses_log_read : (Instr.logRead (letter 0xFFFF)).wf = false := by decide

/-- OPCODE of another service (R355). -/
theorem test_wf_refuses_log_route : (Instr.logRoute (letter 0xFFFF)).wf = false := by decide

/-- OPCODE of another service (R355). -/
theorem test_wf_refuses_log_audit_bind : (Instr.logAuditBind (letter 0xFFFF)).wf = false := by decide

/-- OPCODE of another service (R355). -/
theorem test_wf_refuses_perf_claim : (Instr.perfClaim (letter 0xFFFF)).wf = false := by decide

/-- OPCODE of another service (R355). -/
theorem test_wf_refuses_perf_release : (Instr.perfRelease (letter 0xFFFF)).wf = false := by decide

/-- OPCODE of another service (R355). -/
theorem test_wf_refuses_perf_user : (Instr.perfUser (letter 0xFFFF)).wf = false := by decide

/-- OPCODE of another service (R355). -/
theorem test_wf_refuses_key_status : (Instr.keyStatus (letter 0xFFFF)).wf = false := by decide

/-- OPCODE of another service (R355). -/
theorem test_wf_refuses_key_audit_export : (Instr.keyAuditExport (letter 0xFFFF)).wf = false := by decide

/-- OPCODE of another service (R355). -/
theorem test_wf_refuses_key_audit_rotate : (Instr.keyAuditRotate (letter 0xFFFF)).wf = false := by decide

/-- OPCODE of another service (R355). -/
theorem test_wf_refuses_key_lock : (Instr.keyLock (letter 0xFFFF)).wf = false := by decide

/-- OPCODE of another service (R355). -/
theorem test_wf_refuses_key_return : (Instr.keyReturn (letter 0xFFFF)).wf = false := by decide

/-- OPCODE of another service (R355). -/
theorem test_wf_refuses_key_scrap : (Instr.keyScrap (letter 0xFFFF)).wf = false := by decide

/-- OPCODE of another service (R355). -/
theorem test_wf_refuses_key_golden_write : (Instr.keyGoldenWrite (letter 0xFFFF)).wf = false := by decide

/-- An image as long as R408 asks. -/
def imageFacts : ImageFacts := ⟨List.replicate 4096 0, [], List.replicate 64 0, none, 0, true, true, 0, []⟩

/-- A region image that configures nothing. -/
def region : RegionBody := ⟨0, [], [], [], false, none, 0, [], [], [], 0⟩

/-- A full image that configures nothing. -/
def image : FullBody := ⟨[], none, [], [], [], 0, []⟩

/-- An image has a header of 4,096 bytes and a trailer of 64 (R408). -/
theorem test_wf_takes_image : imageFacts.wf = true := by simp only [ImageFacts.wf, imageFacts, List.length_replicate]; rfl
theorem test_wf_refuses_header (f : ImageFacts) (h : f.header.length ≠ 4096) : f.wf = false := by simp [ImageFacts.wf, h]
theorem test_wf_refuses_trailer (f : ImageFacts) (h : f.trailer.length ≠ 64) : f.wf = false := by simp [ImageFacts.wf, h]

/-- A load of a region image is as well formed as what it configures, and so is a full image. -/
theorem test_wf_load (b : RegionBody) : (Instr.regionLoadComplete imageFacts b).wf = b.wf := by simp [Instr.wf, test_wf_takes_image]
theorem test_wf_stream (b : FullBody) : (Instr.imageStreamDone imageFacts b).wf = b.wf := by simp [Instr.wf, test_wf_takes_image]

/-- Flags beyond bits 3 and 4 (R355). -/
theorem test_wf_refuses_flags : (Instr.channelHold { letter 0x0506 with flags := 1 }).wf = false := by decide
/-- A body of more than 4,064 bytes (R356). -/
theorem test_wf_refuses_body (body : List Byte) (h : 4064 < body.length) : (Instr.channelHold { letter 0x0506 with body := body }).wf = false := by
  simp [Instr.wf, Letter.wf, h]
theorem test_wf_takes_letter : (Instr.channelHold { letter 0x0506 with flags := 0x18 }).wf = true := by decide

/-- OPCODE of another service (R355). -/
theorem test_wf_refuses_channel_start : (Instr.channelStart (letter 0xFFFF) []).wf = false := by decide
theorem test_wf_refuses_region_image_open : (Instr.regionImageOpen (letter 0xFFFF) imageFacts).wf = false := by decide
theorem test_wf_refuses_job_open : (Instr.jobOpen (letter 0xFFFF) (.data [] [])).wf = false := by decide
theorem test_wf_refuses_key_provision : (Instr.keyProvision (letter 0xFFFF) []).wf = false := by decide

/-- A command that brings an ill-formed image is refused (R408). -/
theorem test_wf_refuses_write_image (f : ImageFacts) (h : f.wf = false) : (Instr.configWriteComplete f).wf = false := h
theorem test_wf_refuses_open_image (f : ImageFacts) (h : f.wf = false) : (Instr.regionImageOpen (letter 0x0401) f).wf = false := by simp [Instr.wf, h]
theorem test_wf_refuses_load_image (f : ImageFacts) (h : f.wf = false) : (Instr.regionLoadComplete f region).wf = false := by simp [Instr.wf, h]
theorem test_wf_refuses_restore_image (f : ImageFacts) (h : f.wf = false) : (Instr.initRestoreDone 0 f).wf = false := h
theorem test_wf_refuses_stream_image (f : ImageFacts) (h : f.wf = false) : (Instr.imageStreamDone f image).wf = false := by simp [Instr.wf, h]
theorem test_wf_refuses_refetch_image (f : ImageFacts) (h : f.wf = false) : (Instr.frameRefetchDone f).wf = false := h
theorem test_wf_takes_load : RegionBody.wf region = true := by decide

/-- A cell, a memory, a monitor, a slot, a crossing element and a fabric output are configured once (R55, R412). -/
theorem test_wf_refuses_cell_twice : RegionBody.wf { region with cells := [(4, .blank), (4, .blank)] } = false := by decide
theorem test_wf_refuses_memory_twice : RegionBody.wf { region with memories := [(4, .w1, .w1), (4, .w1, .w1)] } = false := by decide
theorem test_wf_refuses_monitor_twice : RegionBody.wf { region with monitors := [(4, true, 0), (4, true, 0)] } = false := by decide
theorem test_wf_refuses_output_twice : RegionBody.wf { region with fouts := [(4, 0, .outside 0), (4, 0, .outside 0)] } = false := by decide
theorem test_wf_refuses_element_twice :
    RegionBody.wf { region with elements := [(4, ⟨true, 0, false, 0, []⟩), (4, ⟨true, 0, false, 0, []⟩)] } = false := by decide

/-- A hop stage at injection of tile 0, and what an image sets of it. -/
def injection : Hop := ⟨0, .inject, 0, false⟩
def injected : WordCfg := ⟨.bits [], 0, .empty, none, false⟩

theorem test_wf_refuses_slot_twice : RegionBody.wf { region with words := [(injection, injected), (injection, injected)] } = false := by decide
theorem test_wf_takes_injection : RegionBody.wf { region with words := [(injection, injected)] } = true := by decide
/-- A word has 36 bits (R56). -/
theorem test_wf_refuses_wide_word : RegionBody.wf { region with words := [(injection, { injected with source := .bits (List.replicate 37 none) })] } = false := by decide
/-- Injection takes no word of another stage (R59), an ejection no bits. -/
theorem test_wf_refuses_injected_word : RegionBody.wf { region with words := [(injection, { injected with source := .hop ⟨0, .eject, 0, false⟩ })] } = false := by decide
theorem test_wf_refuses_ejected_bits : RegionBody.wf { region with words := [(⟨0, .eject, 0, false⟩, injected)] } = false := by decide
/-- A route goes from a tile to its neighbour, not past it (R55): the slot eastward of tile 0 leads to tile 1. -/
theorem test_wf_refuses_jump : RegionBody.wf { region with words := [(⟨2, .neighbour .east, 0, false⟩, { injected with source := .hop ⟨0, .neighbour .east, 0, false⟩ })] } = false := by decide
theorem test_wf_takes_hop : RegionBody.wf { region with words := [(⟨1, .neighbour .east, 0, false⟩, { injected with source := .hop ⟨0, .neighbour .east, 0, false⟩ })] } = true := by decide
/-- An isolation cell stands where a route leaves its region, not inside it, nor at an ejection (R60). -/
theorem test_wf_refuses_inner_exit : RegionBody.wf { region with words := [(injection, { injected with exit := some ⟨.fabric, some 0, some 1, 0⟩ })] } = false := by decide
/-- A word that comes over a border stands at no injection (R60). -/
theorem test_wf_refuses_injected_border : RegionBody.wf { region with words := [(injection, { injected with source := .border ⟨.fabric, some 1, some 0, 0⟩ })] } = false := by decide

/-- A LOGIC cell has six inputs, a CHAIN cell four of its own, a STAGE cell one, a memory cell nine (R27). -/
theorem test_wf_refuses_seven_inputs : RegionBody.wf { region with cells := [(0, { CellCfg.blank with mode := .logic, inputs := List.replicate 7 none })] } = false := by decide
theorem test_wf_refuses_five_chain_inputs : RegionBody.wf { region with cells := [(0, { CellCfg.blank with mode := .chain, inputs := List.replicate 5 none })] } = false := by decide
theorem test_wf_refuses_two_stage_inputs : RegionBody.wf { region with cells := [(0, { CellCfg.blank with inputs := List.replicate 2 none })] } = false := by decide
theorem test_wf_refuses_short_request : RegionBody.wf { region with cells := [(0, { CellCfg.blank with mode := .mem64, inputs := List.replicate 8 none })] } = false := by decide
/-- Cell 15 of a cluster has no cell above it for a MEM32 reply, cell 0 of a tile's column none below it for a chain input (R27, R30). -/
theorem test_wf_refuses_top_mem32 : RegionBody.wf { region with cells := [(15, { CellCfg.blank with mode := .mem32, inputs := List.replicate 9 none })] } = false := by decide
theorem test_wf_refuses_chain_foot : RegionBody.wf { region with cells := [(64, { CellCfg.blank with mode := .chain, chained := true })] } = false := by decide
/-- Only a CHAIN cell takes a chain input (R30). -/
theorem test_wf_refuses_chained_logic : RegionBody.wf { region with cells := [(1, { CellCfg.blank with mode := .logic, chained := true })] } = false := by decide
/-- A LOGIC cell of cluster 0 whose `n` inputs are outputs of cells of cluster 1 and beyond from the `k`th on. -/
def across (k n : Nat) : CellCfg := { CellCfg.blank with mode := .logic, inputs := (List.range n).map fun j => some (.cell (Fin.ofNat 65536 (16 + k + j))) }
/-- A cluster takes 48 inputs from its tile's switch and no 49th (R53). -/
theorem test_wf_takes_48_inputs : RegionBody.wf { region with cells := (List.range 8).map fun k => (Fin.ofNat 65536 k, across (6 * k) 6) } = true := by decide
theorem test_wf_refuses_49_inputs : RegionBody.wf { region with cells := (8, across 48 1) :: (List.range 8).map fun k => (Fin.ofNat 65536 k, across (6 * k) 6) } = false := by decide
/-- An image marks a cluster for a user clock, not a cell of it (R64). -/
theorem test_wf_refuses_half_clocked : RegionBody.wf { region with cells := [(0, across 0 1), (15, { across 0 1 with clock := some 0 })] } = false := by decide
theorem test_wf_takes_two_clusters : RegionBody.wf { region with cells := [(0, across 0 1), (16, { across 0 1 with clock := some 0 })] } = true := by decide
/-- Mailbox 0 has an owner that it may have, and every owner is an identifier of R350 (R351). -/
theorem test_wf_refuses_no_owner : FullBody.wf { image with owners := some (List.replicate 64 0xFF) } = false := by decide
theorem test_wf_refuses_unknown_owner : FullBody.wf { image with owners := some (0x41 :: List.replicate 63 0x77) } = false := by decide
/-- The ECC ratio stands on both ports (R68). -/
theorem test_wf_refuses_one_ecc_port : RegionBody.wf { region with memories := [(0, .ecc64, .w72)] } = false := by decide
/-- A margin of 1 percent is below the least of R467, one of 51 above the greatest. -/
theorem test_wf_refuses_margin : RegionBody.wf { region with margin := some 1 } = false := by decide
theorem test_wf_refuses_great_margin : RegionBody.wf { region with margin := some 51 } = false := by decide

/-- Only an express hop has a second stage, and an express port four channels (R55, R59). -/
theorem test_wf_refuses_second_hop : (Instr.tokenCapture (.word 0 ⟨0, .inject, 0, true⟩) [] []).wf = false := by decide
theorem test_wf_refuses_express_slot : (Instr.tokenCapture (.word 0 ⟨0, .express .east, 4, false⟩) [] []).wf = false := by decide
/-- Regions 0 and 2 share no border; the agents stand beside columns A and E with 256 slots a direction (R60, R444). -/
theorem test_wf_refuses_border : (Instr.tokenCapture (.iso ⟨.fabric, some 0, some 2, 0⟩) [] []).wf = false := by decide
theorem test_wf_refuses_agent_column : (Instr.tokenCapture (.iso ⟨.agent, some 8, none, 0⟩) [] []).wf = false := by decide
theorem test_wf_refuses_agent_slot : (Instr.tokenCapture (.iso ⟨.agent, some 0, none, 256⟩) [] []).wf = false := by decide
theorem test_wf_refuses_gate_producer : (Instr.tokenCapture (.iso ⟨.gate, some 0, none, 0⟩) [] []).wf = false := by decide
theorem test_wf_takes_border : (Instr.tokenCapture (.iso ⟨.fabric, some 0, some 8, 767⟩) [] []).wf = true := by decide

/-- The operation of a block memory request is in its bits 1:0 (R69), that of an agent's in its tag (R77). -/
theorem test_wf_refuses_bm_read : (Instr.bmRead 0 0 .A 1 ⟨[], none⟩).wf = false := by decide
theorem test_wf_refuses_bm_write : (Instr.bmWrite 0 0 .A 0 ⟨0, 0⟩ ⟨[], none⟩).wf = false := by decide
theorem test_wf_refuses_bm_swap : (Instr.bmSwap 0 0 .A 3 0 0 ⟨[], none⟩).wf = false := by decide
theorem test_wf_refuses_bm_write_ack : (Instr.bmWriteAck 0 0 .A 2 ⟨0, 0⟩ ⟨[], none⟩).wf = false := by decide
/-- Half a line of zeros. -/
def half : HalfLine := ⟨0, 0, 0, 0, 0, 0, 0, 0⟩
/-- A header whose tag is 8, a reserved operation. -/
def reserved : WordToken := 0x800000000
theorem test_wf_refuses_agent_read : (Instr.agentRead 0 0 reserved).wf = false := by decide
theorem test_wf_refuses_agent_read_own : (Instr.agentReadOwn 0 0 reserved).wf = false := by decide
theorem test_wf_refuses_agent_write : (Instr.agentWrite 0 0 reserved half half).wf = false := by decide
theorem test_wf_refuses_agent_write_na : (Instr.agentWriteNa 0 0 reserved half half).wf = false := by decide
theorem test_wf_refuses_agent_read_na : (Instr.agentReadNa 0 0 reserved).wf = false := by decide
theorem test_wf_refuses_agent_flush : (Instr.agentFlush 0 0 reserved).wf = false := by decide
theorem test_wf_refuses_agent_stream : (Instr.agentStream 0 0 reserved half half).wf = false := by decide
theorem test_wf_refuses_agent_fence : (Instr.agentFence 0 0 reserved).wf = false := by decide
theorem test_wf_refuses_agent_known_op : (Instr.agentReservedOp 0 0 0x700000000).wf = false := by decide

/-- A roll-call of hop count 32 has come round (R216). -/
theorem test_wf_refuses_roll_call : (Instr.rollCallReceived 0 true ⟨33, 0⟩ 0 0 0 [] []).wf = false := by decide
/-- An octet has eight lanes (R235). -/
theorem test_wf_refuses_octet_pll_lock : (Instr.octetPllLock 0 (List.replicate 9 ⟨0, [], []⟩)).wf = false := by decide
theorem test_wf_refuses_octet_disable : (Instr.octetDisable .tap 0 0 (List.replicate 9 ⟨0, [], []⟩)).wf = false := by decide
/-- The endpoint has sixteen lanes (R249). -/
theorem test_wf_refuses_perst : (Instr.pciePerstAssert (List.replicate 17 ⟨0, [], []⟩)).wf = false := by decide
/-- 0x5F is no ring peer (R350). -/
theorem test_wf_refuses_peer_letter : (Instr.ringPeerLetter 0x5F 0 []).wf = false := by decide
/-- A monitor counts once in a window (R49), an entry answers once in a poll (R464), a device answers once (R430). -/
theorem test_wf_refuses_outcomes : (Instr.cfgDoneHigh [(3, 0), (3, 1)]).wf = false := by decide
theorem test_wf_refuses_island_lanes : (Instr.islandReset .tap 0 [(7, ⟨0, [], []⟩), (7, ⟨0, [], []⟩)]).wf = false := by decide
theorem test_wf_refuses_failed_nozzles : (Instr.headDriverStatus 0 [5, 5]).wf = false := by decide
/-- A mailbox table has 64 owners (R351). -/
theorem test_wf_refuses_owners : FullBody.wf { image with owners := some [0x50] } = false := by decide
/-- A region, a regulator and a tree are configured once, an ABSORB cell stands at a border, and a region's part is well formed (R412, R60). -/
theorem test_wf_refuses_region_twice : FullBody.wf { image with regions := [(3, region), (3, region)] } = false := by decide
theorem test_wf_refuses_regulator_twice : FullBody.wf { image with regulators := [(3, 0, 0, 0), (3, 0, 0, 1)] } = false := by decide
theorem test_wf_refuses_tree_twice : FullBody.wf { image with trees := [(3, ⟨true, .pin⟩), (3, ⟨true, .pin⟩)] } = false := by decide
theorem test_wf_refuses_absorb : FullBody.wf { image with absorb := [⟨.fabric, some 0, some 2, 0⟩] } = false := by decide
theorem test_wf_refuses_region_part : FullBody.wf { image with regions := [(3, { region with margin := some 1 })] } = false := by decide
/-- A measurement has 32 points (R481). -/
theorem test_wf_refuses_sense : (Instr.senseSample ⟨[], [], [], 0, 0, 0⟩).wf = false := by decide
/-- Twelve groups of eight fuses (R502). -/
theorem test_wf_refuses_fuses : (Instr.supplyStable { facts with fuses := [] }).wf = false := by decide
theorem test_wf_refuses_start : (Instr.regulatorsUp { facts with fuses := [] }).wf = false := by decide
theorem test_wf_refuses_reset : (Instr.resetNHigh { facts with fuses := [] }).wf = false := by decide
theorem test_wf_refuses_entry : (Instr.deviceResetEntry { facts with copyA := 14 }).wf = false := by decide
/-- A fuse group has eight fuses (R502). -/
theorem test_wf_refuses_nine_fuses : (Instr.supplyStable { facts with fuses := List.replicate 12 9 }).wf = false := by decide
theorem test_wf_refuses_copy_b : (Instr.resetNHigh { facts with copyB := 14 }).wf = false := by decide
/-- A slice takes at most 40 ms a run, and a confirmed failure names a place and signatures that differ (R515, R517, R520). -/
theorem test_wf_refuses_slice : (Instr.selfTestSliceDone .pass 41).wf = false := by decide
theorem test_wf_refuses_rerun : (Instr.selfTestSliceDone .transient 81).wf = false := by decide
theorem test_wf_refuses_confirmed : (Instr.selfTestSliceDone (.confirmed 1 0 0 1 0) 121).wf = false := by decide
theorem test_wf_refuses_no_place : (Instr.selfTestSliceDone (.confirmed 0 0 0 1 0) 120).wf = false := by decide
theorem test_wf_refuses_same_signature : (Instr.selfTestSliceDone (.confirmed 1 0 0 1 1) 120).wf = false := by decide
theorem test_wf_takes_start : (Instr.supplyStable facts).wf = true := by decide

/-- A monitor counts once in a window (R49). -/
theorem test_wf_refuses_counts : (Instr.monitorWindowEnd 0 [⟨1, [⟨0, .holds, 1048576⟩]⟩, ⟨1, [⟨0, .holds, 1048576⟩]⟩]).wf = false := by decide
/-- A window has 1,048,576 ticks (R49). -/
theorem test_wf_refuses_short_window : (Instr.monitorWindowEnd 0 [⟨1, [⟨0, .holds, 1048575⟩]⟩]).wf = false := by decide
/-- An entry answers a poll once (R464). -/
theorem test_wf_refuses_poll : (Instr.regulatorPoll [(2, .silent), (2, .silent)]).wf = false := by decide

/-! ### States that meet the hypotheses of the statements -/

/-- The memories of the state after reset are canonical, and a step runs from it (O5). -/
theorem test_hyp_canonical : (∃ t, step State.reset = .next t) ∧ Memory.wf State.reset.memo.bytes = true ∧
    Tbl.wf (0 : Byte) State.reset.boxMem = true ∧ Tbl.wf 0 State.reset.regs = true := ⟨⟨_, rfl⟩, by decide, by decide, by decide⟩

/-- Region 0 WOKEN (R440). -/
def woken : State := State.reset.put .CFG_RGN_STAT_STATE 0 3

/-- A memory cell of region 0 whose request stands on nine wires. -/
def cellOf (m : CellMode) : State :=
  woken.setCell 0 14 ⟨{ CellCfg.blank with mode := m, inputs := (List.range 9).map fun k => some (.outside k) }, none, none, 0⟩

/-- A request whose bits are those of `v`, the first not to come where `v` is 512 or more. -/
def asking (v : Nat) : Arrivals := ⟨(List.range 9).map fun k => (k, .bit (bitOf v k) (!bitOf v k)), []⟩

/-- The hypotheses of O23 on a memory cell that no token has reached: at each mode an operation of each code stands there, at the highest and the lowest
address, with its data field. -/
theorem test_hyp_memory_cell : ∀ m ∈ [CellMode.mem64, .mem32], (cellOf m).woken 0 = true ∧ ((cellOf m).cell 0 14).cfg.clock = none ∧
    ((cellOf m).cell 0 14).cfg.mode = m ∧ 14 % 16 ≠ 15 ∧ (cellOf m).mayCapture (.cell 0 14) ((cellOf m).memCone 0 14 true []) = true ∧
    TokenFrom.stage (.cell 0 14) ∉ (cellOf m).memCone 0 14 true [] ∧ TokenFrom.stage (.cell 0 15) ∉ (cellOf m).memCone 0 14 true [] ∧ (cellOf m).taken = [] ∧
    ((cellOf m).cell 0 14).tok = none ∧ ((cellOf m).cell 0 15).tok = none ∧
    ∀ op ∈ [0, 1, 2, 3], ((cellOf m).memAsks 0 14 (asking op)).map (·.value) = some op ∧
      ((cellOf m).memAsks 0 14 (asking (508 + op))).map (·.value % 4) = some op ∧ (((cellOf m).memData 0 14 (asking (508 + op))).map (·.bad)) = some 0 := by
  decide

/-- A staged LOGIC cell and a word stage on wires, and a strobe's tree from a cell's output, in region 0. -/
def wired : State :=
  let cell := { CellCfg.blank with mode := .logic, inputs := [some (.outside 0)] }
  let word : WordCfg := ⟨.outside 0, 1, .empty, none, false⟩
  let element : ElementCfg := ⟨true, 0, false, 0, [some (.outside 0)]⟩
  { woken.setCell 0 0 ⟨cell, none, none, 0⟩ with
    words := Tbl.set none woken.words (hopKey 0 injection) (some ⟨injection, word, 0⟩)
    elements := Tbl.set none woken.elements 0 (some ⟨element, 0, 0, 0, 0⟩) }

/-- An illegal dual-rail code and an illegal 1-of-4 code. -/
def illegal : List (Nat × Rail) := [(0, .bit true true)]
def illegalPair : List (Nat × Rail) := [(0, .pair 6)]

/-- A cell, a word stage and a crossing element that stand ready at an illegal code, and a cell at an input that an upset leaves illegal (R24, R57; O24). -/
theorem test_hyp_illegal_code :
    (∀ x ∈ [Site.cell 0 0, .element 0 0], wired.regionOf x = some 0 ∧ wired.stageReady x = true ∧ (wired.arrives illegal [] x).map (·.bad) = some 1 ∧
      wired.mayCapture x (wired.takesOf [] x) = true) ∧
    (wired.regionOf (.word 0 injection) = some 0 ∧ wired.stageReady (.word 0 injection) = true ∧
      (wired.arrives illegalPair [] (.word 0 injection)).map (·.bad) = some 1 ∧ wired.mayCapture (.word 0 injection) (wired.takesOf [] (.word 0 injection)) = true) ∧
    (wired.arrives [] [0] (.cell 0 0)).map (·.bad) = some 1 ∧ wired.mayCapture (.cell 0 0) (wired.takesOf [0] (.cell 0 0)) = true ∧ illegal.find? (·.1 == 0) = some (0, .bit true true) ∧
    (Rail.bit true true).illegal = true ∧ (Rail.pair 6).illegal = true := by decide

/-- A pulse on its way to a tap of T2 that holds no token, and one to a tap of T7 that holds one (R63; O25). -/
theorem test_hyp_strobe_tap : woken.woken 0 = true ∧
    ((0, 2, 5) ∈ { woken with flying := [(0, 2, 5)] }.flying ∧ (0, 2, 5) ∉ { woken with flying := [(0, 2, 5)] }.taps) ∧ (0, 2, 5) ∉ woken.flying ∧ woken.taken = [] ∧
    (0, 7, 5) ∈ { woken with flying := [(0, 7, 5)], taps := [(0, 7, 5)] }.flying ∧ (0, 7, 5) ∈ { woken with flying := [(0, 7, 5)], taps := [(0, 7, 5)] }.taps := by
  decide

/-- Every domain runs, and none is held. -/
def running : State := (State.reset.put .DEV_ISL_RUN_RUN 0 0x1FFFFFF).put .DEV_ISL_HELD_HELD 0 0

/-- Strobe 1 of axis 7, which is TRACKING at a position, pulsed at time 0 (R118). -/
def strobing (position : Nat) : State :=
  { ((((((running.put .POS_STRB_CTL_EN 1 1).put .POS_STRB_CTL_AXIS 1 7).put .POS_STRB_CTL_DIRSEL 1 3).put .POS_AX_STAT_STATE 7 1).put .POS_AX_POS_VALUE 7 position).put .POS_STRB_PITCH_PITCH 1 16) with
    strobeAt := [(1, 160)], strobeT := [(1, 1)] }

/-- At pitch 16 the axis at 176 has crossed the strobe's next position forward and at 144 backward; a crossing at 448 starts its pulse less than 512 units
after the last one's start, one at 449 does not, nor any where there was none (R118; O26). -/
theorem test_hyp_crossing : ∀ f ∈ [true, false], ∀ s ∈ [strobing (if f then 176 else 144)], s.engineOn = true ∧ s.on .POS_STRB_CTL_EN 1 = true ∧
    s.axisRuns (s.fld .POS_STRB_CTL_AXIS 1) = true ∧ bitOf (s.fld .POS_STRB_CTL_DIRSEL 1) (if f then 0 else 1) = true ∧ s.strobeMet 1 f = true ∧
    Tbl.find 0 s.strobeT 1 = 0 + 1 ∧ tickAfter 448 < 0 + 512 ∧ 0 + 512 ≤ tickAfter 449 ∧ Tbl.find 0 ({ s with strobeT := [] }).strobeT 1 = 0 := by decide

/-- The Postroom may write EVT_USER; region 0 may as DEV_RGN_ACCESS has it (R535; O27). -/
theorem test_hyp_user_event : State.reset.takes .postroom true .EVT_USER 0 = true ∧ bitOf (State.reset.fld .DEV_RGN_ACCESS_WR 0) 10 = false ∧
    bitOf ((State.reset.put .DEV_RGN_ACCESS_WR 0 0x400).fld .DEV_RGN_ACCESS_WR 0) 10 = true ∧ State.reset.portBusy (.region 0) = false := by decide

/-- The firmware releases lock 255, its own, another's, or a free one; NOT_OWNER 0 or 1 (R367; O28). -/
theorem test_hyp_release : running.takes .postroom true .PST_LOCK_REL 255 = true ∧
    (running.put .PST_LOCK_OWNER 255 0x40).fld .PST_LOCK_OWNER 255 = portIdent .postroom ∧ running.fld .PST_LOCK_OWNER 255 ≠ portIdent .postroom ∧
    running.on .PST_LOCK_ERR_NOT_OWNER 0 = false ∧ (running.put .PST_LOCK_ERR_NOT_OWNER 0 1).on .PST_LOCK_ERR_NOT_OWNER 0 = true := by decide

/-- Lock 255 free, marked, another's and the reader's, and a port that may not read it (R366; O29). -/
theorem test_hyp_acquire : running.takes .postroom false .PST_LOCK_ACQ 255 = true ∧ running.fld .PST_LOCK_OWNER 255 = 0 ∧
    running.on .PST_LOCK_ABANDONED 255 = false ∧ (running.put .PST_LOCK_ABANDONED 255 1).on .PST_LOCK_ABANDONED 255 = true ∧
    (running.put .PST_LOCK_OWNER 255 0x41).fld .PST_LOCK_OWNER 255 ≠ portIdent .postroom ∧
    (running.put .PST_LOCK_OWNER 255 0x40).fld .PST_LOCK_OWNER 255 = portIdent .postroom ∧
    running.reaches (.pf 1) = true ∧ running.portBusy (.pf 1) = false ∧ running.may (.pf 1) false .PST_LOCK_ACQ 255 = false := by decide

/-- D0 is stopped, with nothing that waits for a domain, and runs (R84, R87, R97; O30). -/
theorem test_hyp_domain : State.reset.runs 0 = false ∧ (State.reset.startDomain 0).NothingWaits ∧ running.runs 0 = true := by
  refine ⟨by decide, ⟨by decide, by decide, by decide, by decide⟩, by decide⟩

/-- A queued record of source 3. -/
def queued : State := { State.reset with evt := { State.reset.evt with queue := [⟨1, 3, 0, 0, 0, 0, 1, []⟩] } }

/-- A queued record with the area read-only, and a stopped writer with source 255 routed to the logbook (R540; O31). -/
theorem test_hyp_logbook : queued.evt.queue ≠ [] ∧ queued.on .EVT_LOG_STAT_STOPPED 0 = false ∧
    bitOf ((queued.put .CFG_NVM_STAT_RO_AREA 0 0x20).fld .CFG_NVM_STAT_RO_AREA 0) 5 = true ∧
    ((queued.put .EVT_LOG_STAT_STOPPED 0 1).put .EVT_ROUTE_LOG 255 1).on .EVT_LOG_STAT_STOPPED 0 = true ∧
    ((queued.put .EVT_LOG_STAT_STOPPED 0 1).put .EVT_ROUTE_LOG 255 1).on .EVT_ROUTE_LOG 255 = true := by decide

/-- Counter 255, enabled, at its greatest count (R527). -/
def counting255 : State := (State.reset.put .PERF_SEL_EN 255 1).put .PERF_CNT_COUNT 255 0xFFFFFFFFFFFF

/-- An increment of 0 does not wrap and one of 1 does; a CLEAR (R527; O32). -/
theorem test_hyp_counter : counting255.on .PERF_SEL_EN 255 = true ∧ counting255.fld .PERF_CNT_COUNT 255 + 0 < 2 ^ 48 ∧
    2 ^ 48 ≤ counting255.fld .PERF_CNT_COUNT 255 + 1 ∧ counting255.takes .postroom true .PERF_SEL 255 = true ∧
    bitOf (0x40000 : Word).toNat 18 = true := by decide

/-- Sorter 63 idle, enabled, with an entry, and with ORDER 0b11 (R153; O33). -/
theorem test_hyp_sorter : State.reset.takes .postroom true .SRT_CTL 63 = true ∧ State.reset.on .SRT_CTL_EN 63 = false ∧
    (State.reset.srt 63).entries = [] ∧ (State.reset.put .SRT_CTL_EN 63 1).on .SRT_CTL_EN 63 = true ∧
    (State.reset.put .SRT_CTL_ORDER 63 3).fld .SRT_CTL_ORDER 63 = 3 := by decide

/-- BLANK permits EXTEST; FIELD, code 2, refuses it (R501, R513; O34). -/
theorem test_hyp_tap : State.reset.fld .DEV_LC_STATE 0 ≤ 4 ∧ State.reset.fld .DEV_LC_STATE 0 ≠ 2 ∧
    (State.reset.put .DEV_LC_STATE 0 2).fld .DEV_LC_STATE 0 = 2 := by decide

/-- The firmware writes POS_SNAP_CMD while D23 runs (R126; O35). -/
theorem test_hyp_snapshot : running.takes .postroom true .POS_SNAP_CMD 0 = true := by decide

/-- Each register that a command reads with clearing, read by the firmware while every domain runs (R9; O37). -/
theorem test_hyp_clearing : ∀ c ∈ [Instr.cfgNvmCntRead .postroom, .cfgIsoCntRead .postroom 39, .cfgRgnUpsetRead .postroom 39, .cfgScrubCntRead .postroom,
    .pwrRgnLoopRead .postroom 39, .devRngStatRead .postroom, .evtLogLostRead .postroom, .devFrkMissRead .postroom, .devFrkStatRead .postroom,
    .memStkEcntRead .postroom 3, .memHomeCntRead .postroom 3, .sealLineCntRead .postroom 3, .sealStoreCntRead .postroom, .devXdropRead .postroom 23,
    .laneCntRead .postroom ⟨143, 7⟩, .laneErrcntRead .postroom 143, .laneEthCntRead .postroom 79, .lnkCntRead .postroom 143 3, .pinPlcCntRead .postroom 191,
    .posStrbStatRead .postroom 1, .posAxErrcntRead .postroom 7, .srtErrRead .postroom 63],
    (clearingRead c).map (fun x => running.takes x.1 false x.2.1 x.2.2) = some true := by decide

/-- Two bytes at an aligned address, four at address 2, by a port that reaches the device (R5; O38). -/
theorem test_hyp_misformed : State.reset.reaches .tap = true ∧ State.reset.portBusy .tap = false ∧ ((2 : Fin 9).val ≠ 4 ∨ (0 : BitVec 25).toNat % 4 ≠ 0) ∧
    ((4 : Fin 9).val ≠ 4 ∨ (2 : BitVec 25).toNat % 4 ≠ 0) := by decide

/-- The last word of the register space holds no register (R6; O39). -/
theorem test_hyp_unmapped : running.reaches .postroom = true ∧ (0x1FFFFFC : BitVec 25).toNat % 4 = 0 ∧
    targetAt (0x1FFFFFC : BitVec 25).toNat = .nothing ∧ running.mustWait .postroom (addrDomain (0x1FFFFFC : BitVec 25).toNat) = false ∧
    running.mayAt .postroom true (0x1FFFFFC : BitVec 25).toNat = true ∧ running.mayAt .postroom false (0x1FFFFFC : BitVec 25).toNat = true := by decide

/-- An access that waits for D22, to PST_LOCK_ACQ[0]. -/
def behind : State := { running with waiting := [⟨.postroom, 0x1C1000, false, 0, false, false, false⟩] }

/-- PST_LOCK_REL[255] while D22 is stopped, and DEV_RGN_ACCESS[0], of no domain, behind an access that waits (R97, R17; O40). -/
theorem test_hyp_waiting_domain : State.reset.reaches .postroom = true ∧ (0x1C17FC : BitVec 25).toNat % 4 = 0 ∧
    State.reset.mustWait .postroom (addrDomain (0x1C17FC : BitVec 25).toNat) = true ∧ State.reset.mayAt .postroom true (0x1C17FC : BitVec 25).toNat = true := by
  decide
theorem test_hyp_waiting_port : behind.reaches .postroom = true ∧ (0x100 : BitVec 25).toNat % 4 = 0 ∧
    behind.mustWait .postroom (addrDomain (0x100 : BitVec 25).toNat) = true ∧ behind.mayAt .postroom true (0x100 : BitVec 25).toNat = true ∧
    behind.mayAt .postroom false (0x100 : BitVec 25).toNat = true := by decide

/-- Every time has one nanosecond to run of the `ns` it takes. -/
def nearly (ns : Nat) : State := { State.reset with timers := (List.range 27).map fun t => (t, 1), clock := ns - 1 }

/-- The time of each command of a list has one nanosecond to run. -/
def untimely (l : List (Instr × Nat)) : Bool := l.all fun c => !(nearly c.2).timeUp c.1

/-- States in which the time whose end a command reports has one nanosecond to run (R90, R226, R283, R291; O42). -/
theorem test_hyp_time_device : untimely [(.freezeTimeout ⟨.axis 0, false⟩ 25, 1000), (.islandResetRelease 0, 1000), (.firmwareWatchdog, 100000000),
    (.doneWaitTimeout, 1000000000), (.broadcastWaitTimeout, 30000000000), (.broadcastGapTimeout, 10000000), (.broadcastPollTimeout, 10000000)] = true := by decide
theorem test_hyp_time_pins : untimely [(.bankRangeMismatch 0, 50000000), (.bankSupplyLossHold 0, 100000), (.ainStale 0, 500000),
    (.underrunReport 0, 100000000), (.linkDownTimeout 0, 10000000), (.stitchLinkTimeout 0, 10000000), (.memberUnreachable 0 0, 3000000),
    (.ringConfigTimeout 0, 100000000)] = true := by decide
theorem test_hyp_time_links : untimely [(.nakRepeat 0, 10000), (.activeHeld 0, 1000000000), (.timingTimeout 0, 1000000), (.widthReqResend 0, 1000000),
    (.laneRejoin 0, 100000000), (.linkSilenceTimeout 0, 10000), (.userClockLoss 0, 4000), (.rpPerstRelease 0, 100000000)] = true := by decide
theorem test_hyp_time_training : ((nearly 1).put .LNK_STAT_STATE 0 1).timeUp (.linkStateTimeout 0 []) = false ∧
    ((nearly 1).put .LNK_STAT_STATE 0 1).timeUp (.backoffExpired 0) = false := by decide

/-- The fuses of each life-cycle state, and a step from one (R501, R502; O44, O45). -/
theorem test_hyp_fuses : (State.reset.ShowsFuses ∧ ∃ t, step State.reset = .next t) ∧
    ∀ e ∈ [(1, [8]), (2, [8, 8]), (3, [8, 8, 8]), (4, [8, 8, 8, 0, 0, 0, 0, 0, 0, 0, 0, 8])],
      ((State.reset.put .DEV_LC_STATE 0 e.1).setSecure fun x => { x with fuses := e.2 }).ShowsFuses := by
  refine ⟨⟨by unfold State.ShowsFuses; decide, _, rfl⟩, ?_⟩
  unfold State.ShowsFuses
  decide

/-- A plain line and a sealed one, and a value of a line (R324; O46). -/
theorem test_hyp_line : State.reset.isSealed 0 = false ∧ (State.reset.put .SEAL_GRAN_STATE 0 1).isSealed 0 = true ∧
    ∃ v : Nat, v < 2 ^ 512 := ⟨by decide, by decide, 0, by positivity⟩

/-! Witnesses of the hypotheses of O49..O59 (R76, R302, R315, R489). -/

/-- Line 5 as agent 0 holds it. -/
def holding (st : Nat) (wb : Bool) : State := woken.setCached 0 5 ⟨st, 77, wb⟩

/-- A header of a tag and data. -/
def header (tag l : Nat) : WordToken := BitVec.ofNat 36 (tag * 2 ^ 32 + l)

theorem test_hyp_agent : woken.AgentRests 0 ∧ (∀ st ∈ [0, 1, 2, 3], ∀ wb ∈ [false, true], (holding st wb).AgentRests 0 ∧ (holding st wb).cached 0 5 = ⟨st, 77, wb⟩) ∧
    ∀ tag ∈ List.range 16, (header tag 5).tag = tag := by
  refine ⟨⟨by decide, fun _ => rfl⟩, ?_, by decide⟩
  intro st h wb k
  fin_cases h <;> fin_cases k <;> exact ⟨⟨by decide, fun _ => rfl⟩, by decide⟩

/-- A channel that binds port 3 of agent 0, sorter 7 and lane 9, whose octet runs in `running` alone. -/
def streaming (s : State) : State :=
  ({ s with svc := { s.svc with live := [(kChannel * 4096, 1)] } }.setChan 0 { Channel.blank with bindings := [⟨0x50000003, 0⟩, ⟨0x20000007, 0⟩, ⟨0x40000009, 0⟩] }).put
    .CFG_RGN_STAT_STATE 0 3

theorem test_hyp_stream : (streaming running).AgentRests 0 ∧ (streaming running).destBound 0 3 (destOf 0x20000007) = true ∧
    ((streaming running).srt 7).streams = [] ∧ (streaming running).destBound 0 3 (destOf 0x40000109) = true ∧ destOf 0x40000109 = .lane 9 1 ∧
    (streaming running).domainWaits (some 1) = false ∧ (streaming State.reset).AgentRests 0 ∧ (streaming State.reset).domainWaits (some 1) = true ∧
    (streaming State.reset).destBound 0 3 (destOf 0x40000109) = true ∧ woken.destBound 0 3 (destOf 0) = false :=
  ⟨⟨by decide, fun _ => rfl⟩, by decide, by decide, by decide, by decide, by decide, ⟨by decide, fun _ => rfl⟩, by decide, by decide, by decide⟩

/-- Every domain runs and the stacks are filled. -/
def filled : State := (((running.put .MEM_STK_STAT_FILL_DONE 0 1).put .MEM_STK_STAT_FILL_DONE 1 1).put .MEM_STK_STAT_FILL_DONE 2 1).put .MEM_STK_STAT_FILL_DONE 3 1

/-- A request of a requester for the last line. -/
def request (kind : HomeKind) (who : Fin 39) : HomeReq := ⟨kind, who, false, 0, 0, Touch.clean⟩

/-- The last line, its directory entry as given. -/
def listed (d : DirLine) : State := filled.setDir (2 ^ 32 - 1) d

theorem test_hyp_home : filled.HomesRest ∧ filled.homeOpen (2 ^ 32 - 1) = true ∧ filled.dirAt (2 ^ 32 - 1) = DirLine.idle ∧
    (filled.setEntries (2 ^ 32 - 1)).length < 16 ∧ filled.isSealed (2 ^ 32 - 1) = false ∧ Tbl.find 0 filled.seals.failing (2 ^ 32 - 1) = 0 ∧
    (∀ k ∈ [HomeKind.rdShared, .rdOwn, .rdCur, .wrPtl], (filled.arrived (2 ^ 32 - 1) (request k 19)).isSome = true) ∧
    ((filled.post .rdOwn 15 (2 ^ 32 - 1) 0 1).arrived (2 ^ 32 - 1) (request .rdOwn 15)).isSome = true := by
  refine ⟨⟨by decide, by decide⟩, ?_⟩
  decide

/-- The last line owned by an agent. -/
def owned (a : Nat) : State := listed { DirLine.idle with st := 2, owner := a, born := 1 }

theorem test_hyp_writeback : ∀ a ∈ [15, 19], (owned a).HomesRest ∧ (owned a).homeDeaf (2 ^ 32 - 1) = false ∧ ((owned a).dirAt (2 ^ 32 - 1)).txn = none ∧
    ((owned a).dirAt (2 ^ 32 - 1)).st = 2 ∧ ((owned a).dirAt (2 ^ 32 - 1)).owner = a ∧ (owned a).granule (lineGranule (2 ^ 32 - 1)) = 0 ∧
    (owned a).msg .wbDirty a (2 ^ 32 - 1) = none ∧ (((owned a).post .wbDirty a (2 ^ 32 - 1) 9 0).msg .wbDirty a (2 ^ 32 - 1)).isSome = true ∧
    (((owned a).post .evictClean a (2 ^ 32 - 1) 0 0).msg .evictClean a (2 ^ 32 - 1)).isSome = true := by
  intro a h
  fin_cases h <;> exact ⟨⟨by decide, by decide⟩, by decide⟩

/-- A request in service whose snoops of agents 3 and 4 are outstanding, or that is granted, with a message of agent 3 on its way. -/
def answering (kind : MsgKind) (granted : Bool) : State :=
  (listed { DirLine.idle with st := 1, sharers := [3, 4], born := 1, txn := some ⟨some (request .rdOwn 6), false, if granted then [] else [3, 4], [], none, false, granted, false⟩ }).post
    kind 3 (2 ^ 32 - 1) 8 0

theorem test_hyp_answer : (∀ k ∈ [MsgKind.rspI, .rspS, .rspData, .rspWb], (answering k false).homeDeaf (2 ^ 32 - 1) = false ∧
      ((answering k false).dirAt (2 ^ 32 - 1)).txn.map (fun x => decide (3 ∈ x.await ∧ x.await.erase 3 ≠ [])) = some true ∧
      ((answering k false).msg k 3 (2 ^ 32 - 1)).isSome = true) ∧
    (answering .cmpAck true).HomesRest ∧ ((answering .cmpAck true).dirAt (2 ^ 32 - 1)).txn.map (·.granted) = some true ∧
    (answering .cmpAck true).homeDeaf (2 ^ 32 - 1) = false ∧ (answering .cmpAck true).granule (lineGranule (2 ^ 32 - 1)) ≠ 2 ∧
    ((answering .cmpAck true).msg .cmpAck 3 (2 ^ 32 - 1)).isSome = true := by
  refine ⟨by decide, ⟨by decide, by decide⟩, by decide⟩

/-- A message of the home of line 5 for an agent, its region WOKEN. -/
def coming (kind : MsgKind) (a aux : Nat) : State := (((filled.put .CFG_RGN_STAT_STATE 0 3).setCached 0 5 ⟨1, 7, false⟩).setDir 5
  { DirLine.idle with st := 2, owner := 0, txn := some ⟨none, false, [], [], none, false, true, false⟩ }).post kind a 5 8 aux

theorem test_hyp_snoop : ∀ a ∈ [0, 19], ∀ k ∈ [MsgKind.snpInv, .snpShare, .snpCur], ((coming k a 0).comeMsg k a 5).isSome = true := by decide

theorem test_hyp_grant : (∀ k ∈ [(MsgKind.dataS, 0), (.dataE, 0), (.dataE, dirtyGrant), (.dataS, 2), (.dataE, 15), (.cmp, 0)],
      (coming k.1 0 k.2).HasRoom 0 5 ∧ ((coming k.1 0 k.2).comeMsg k.1 0 5).map (·.aux) = some k.2) ∧ (coming .dataE 19 0).HasRoom 19 5 ∧
    (coming .cmp 0 0).awaitsOwn 0 5 = true ∧
    (((coming .wbAck 0 0).setCached 0 5 ⟨3, 7, true⟩).HasRoom 0 5 ∧ (((coming .wbAck 0 0).setCached 0 5 ⟨3, 7, true⟩).cached 0 5).wb = true) := by
  refine ⟨?_, ⟨by decide, fun h => absurd h (by decide)⟩, by decide, ⟨by decide, fun _ => ⟨by decide, fun _ => rfl⟩⟩, by decide⟩
  intro k h
  fin_cases h <;> exact ⟨⟨by decide, fun _ => ⟨by decide, fun _ => rfl⟩⟩, by decide⟩

/-- A READ_NA of port 3 whose CMP is on its way. -/
def readingNa : State := ((filled.put .CFG_RGN_STAT_STATE 0 3).setPort 0 3 [⟨.readNa, 5, 5, 0, 0, true, none⟩]).post .cmp 0 5 8 0

theorem test_hyp_read_na : readingNa.woken (agentRegion 0) = true ∧ (readingNa.comeMsg .cmp 0 5).map (·.aux) = some 0 ∧
    readingNa.awaitsOwn 0 5 = false ∧ (∀ q, q ≠ 3 → readingNa.portReqs 0 q = []) ∧ readingNa.portReqs 0 3 = [⟨.readNa, 5, 5, 0, 0, true, none⟩] := by
  refine ⟨by decide, by decide, by decide, ?_, by decide⟩
  intro q h
  have : readingNa.portReqs 0 q = Tbl.find [] [(3, [⟨.readNa, 5, 5, 0, 0, true, none⟩])] (0 * 16 + q) := rfl
  rw [this]
  simp [Tbl.find]
  omega

theorem test_hyp_stack : (filled.put .MEM_STK_CTL_PATROL 3 1).on .MEM_STK_CTL_PATROL 3 = true ∧ (filled.put .MEM_STK_CTL_PATROL 3 1).homeOpen (2 ^ 32 - 1) = true ∧
    lineStack (2 ^ 32 - 1) < 4 ∧
    (let s := { running with resets := { running.resets with lostStacks := true, stage := 0 } }
     s.on .MEM_STK_STAT_FILL_DONE 3 = false ∧ s.resets.stage = 0) ∧
    (let s := filled.put .MEM_STK_STAT_RESYNC 3 1
     s.on .MEM_STK_STAT_RESYNC 3 = true ∧ 19 ∉ s.resyncDone 3 ∧ 19 ∉ s.deadCores) ∧
    (let s := (filled.put .MEM_STK_STAT_RESYNC 3 1).setMem fun m => { m with resynced := [(3, List.range 20)] }
     s.domainWaits (some 21) = false ∧ ∀ a : Fin 20, a.val ∈ s.resyncDone 3) := by decide

/-- A conversion of the last granule whose four shares are done. -/
def converted (toSealed : Bool) : State :=
  ((((filled.put .SEAL_LINE_STAT_KEYS 0 1).put .SEAL_LINE_STAT_KEYS 1 1).put .SEAL_LINE_STAT_KEYS 2 1).put .SEAL_LINE_STAT_KEYS 3 1).setSeal
    fun x => { x with converting := some (255, toSealed) }

theorem test_hyp_conversion : filled.takes .postroom true .SEAL_GRAN_CMD 0 = true ∧ filled.on .SEAL_GRAN_RES_BUSY 0 = false ∧
    filled.granule 255 ≠ b2n true ∧ (filled.put .SEAL_GRAN_STATE 255 1).granule 255 ≠ b2n false ∧
    (∀ b ∈ [true, false], (converted b).seals.converting = some (255, b) ∧ (∀ e ∈ (converted b).memo.dir, lineGranule e.1 = 255 → e.2.st = 0) ∧
      ∀ k : Fin 4, (converted b).on .SEAL_LINE_STAT_KEYS k = true ∧ (converted b).domainWaits (some (18 + k.val)) = false ∧
        (converted b).on .MEM_STK_STAT_RESYNC k = false) ∧ (converted true).HomesRest := by
  refine ⟨by decide, by decide, by decide, by decide, by decide, by decide, by decide⟩

/-- A stage of a start, and a device that runs with its supply returned in HIBERNATE (R489, R485, R486; O58). -/
theorem test_hyp_start : (∀ n ∈ [1, 2, 3, 5, 6], (State.reset.atStage n).resets.stage = n) ∧
    (∀ b ∈ [false, true], ∃ s : State, s.resets.stage = 4 ∧ s.resets.brown = b) ∧
    ((running.atStage 0).resets.stage = 0 ∧ (running.atStage 0).secure.scan = false ∧ (running.atStage 0).fld .PWR_STATE_STATE 0 < 2) ∧
    (let s := (((running.atStage 0).put .PWR_STATE_STATE 0 3).setPower fun p => { p with mainEn := true, wake := 1 })
     s.resets.stage = 0 ∧ s.fld .PWR_STATE_STATE 0 = 3 ∧ s.power.mainEn = true ∧ s.power.wake ≠ 0) := by
  refine ⟨by decide, ?_, by decide, by decide⟩
  intro b _
  exact ⟨{ State.reset with resets := { State.reset.resets with stage := 4, brown := b } }, rfl, rfl⟩

/-- A running device, and one in a fabric reset whose restores have ended (R462, R491, R492; O59). -/
theorem test_hyp_rails : (running.atStage 0).resets.stage = 0 ∧ (running.atStage 0).on .MEM_STK_STAT_FILL_DONE 3 = false ∧ (running.atStage 0).resets.brown = false ∧
    (let s := { running with resets := { running.resets with fabric := true } }
     s.resets.fabric = true ∧ s.config.load = none ∧ s.restoring = []) := by decide

end Sys2Proof.Tests
end

section
/-! PROOFS. The state's shared operations under `Goes`: masks from lists, a raise on every path, an access error. -/

namespace Sys2Proof.Machine

/-! ### Masks from lists -/

/-- The number whose 1 bits are the members of a list. -/
def bitsFrom (l : List Nat) : Nat := l.foldr (fun i n => 2 ^ i ||| n) 0

@[simp] theorem testBit_bitsFrom (l : List Nat) (j : Nat) : (bitsFrom l).testBit j = decide (j ∈ l) := by
  induction l with
  | nil => simp [bitsFrom]
  | cons i l ih =>
    have hl : bitsFrom (i :: l) = 2 ^ i ||| bitsFrom l := rfl
    simp [hl, ih, Nat.testBit_two_pow, eq_comm]

/-- The mask, as `Goes` reads it, of the registers `rs` and the parts `ps`. -/
def mask (rs : List Reg) (ps : List Part) : Nat := bitsFrom (rs.map (·.ctorIdx) ++ ps.map fun p => 256 + p.ctorIdx)

theorem Reg.ctorIdx_lt (r : Reg) : r.ctorIdx < 256 := by cases r <;> decide

theorem Reg.ctorIdx_inj {r q : Reg} (h : r.ctorIdx = q.ctorIdx) : r = q := by
  rw [← Reg.ofNat_ctorIdx r, ← Reg.ofNat_ctorIdx q, h]

theorem Part.ctorIdx_inj {p q : Part} (h : p.ctorIdx = q.ctorIdx) : p = q := by
  rw [← Part.ofNat_ctorIdx p, ← Part.ofNat_ctorIdx q, h]

@[simp] theorem testBit_mask_reg (rs : List Reg) (ps : List Part) (r : Reg) :
    (mask rs ps).testBit r.ctorIdx = decide (r ∈ rs) := by
  have hp (p : Part) : 256 + p.ctorIdx ≠ r.ctorIdx := by have := r.ctorIdx_lt; omega
  have hr : (∃ q ∈ rs, q.ctorIdx = r.ctorIdx) ↔ r ∈ rs :=
    ⟨fun ⟨_, hq, e⟩ => Reg.ctorIdx_inj e ▸ hq, fun h => ⟨r, h, rfl⟩⟩
  simp [mask, hr, hp]

@[simp] theorem testBit_mask_part (rs : List Reg) (ps : List Part) (p : Part) :
    (mask rs ps).testBit (256 + p.ctorIdx) = decide (p ∈ ps) := by
  have hr (r : Reg) : r.ctorIdx ≠ 256 + p.ctorIdx := by have := r.ctorIdx_lt; omega
  have hp : (∃ q ∈ ps, q.ctorIdx = p.ctorIdx) ↔ p ∈ ps :=
    ⟨fun ⟨_, hq, e⟩ => Part.ctorIdx_inj e ▸ hq, fun h => ⟨p, h, rfl⟩⟩
  simp [mask, hr, hp]

theorem mask_reg {rs : List Reg} {ps : List Part} {r : Reg} (h : r ∈ rs) : (mask rs ps).testBit r.ctorIdx = true := by simp [h]

theorem mask_reg_not {rs : List Reg} {ps : List Part} {r : Reg} (h : r ∉ rs) : (mask rs ps).testBit r.ctorIdx = false := by simp [h]

theorem mask_part {rs : List Reg} {ps : List Part} {p : Part} (h : p ∈ ps) : (mask rs ps).testBit (256 + p.ctorIdx) = true := by simp [h]

/-- What lies within a mask of two lists lies within the mask of longer ones. -/
theorem Goes.widen {rs qs : List Reg} {ps os : List Part} {s t : State} (h : Goes (mask rs ps) s t) (hr : rs ⊆ qs) (hp : ps ⊆ os) :
    Goes (mask qs os) s t :=
  h.mono (Nat.eq_of_testBit_eq fun j => by
    have hsub : j ∈ rs.map (·.ctorIdx) ++ ps.map (fun p => 256 + p.ctorIdx) → j ∈ qs.map (·.ctorIdx) ++ os.map (fun p => 256 + p.ctorIdx) := by
      simp only [List.mem_append, List.mem_map]
      exact Or.imp (fun ⟨r, hr', e⟩ => ⟨r, hr hr', e⟩) (fun ⟨p, hp', e⟩ => ⟨p, hp hp', e⟩)
    simpa only [mask, Nat.testBit_and, testBit_bitsFrom, Bool.and_eq_left_iff_imp, decide_eq_true_eq] using hsub)

/-- What `Goes` says under the mask of two lists, in the words of the statements. -/
theorem Goes.within {rs : List Reg} {ps : List Part} {s t : State} (h : Goes (mask rs ps) s t) : Within rs ps s t :=
  ⟨fun f i hf => h.flds f i (mask_reg_not hf), fun p hp => h.parts p (by simp [hp])⟩

/-! ### Pending bits of event sources (R531) -/

/-- Setting the bit of a source in EVT_PEND leaves the bits of the others. -/
theorem State.pends_putBit (s : State) (src k : Nat) :
    (s.putBit .EVT_PEND_PEND (src / 32) (src % 32) true).pends k = (decide (k = src) || s.pends k) := by
  have hbit : k % 32 < Fld.EVT_PEND_PEND.spec.width := Nat.mod_lt k (by decide)
  simp only [State.pends, State.putBit, State.fld_put, true_and, if_true, bitOf, orBit]
  by_cases hw : src / 32 = k / 32
  · have hk : src % 32 = k % 32 ↔ k = src := by omega
    simp [hw, Nat.testBit_mod_two_pow, hbit, Nat.testBit_two_pow, hk, Bool.or_comm]
  · have hk : k ≠ src := by rintro rfl; exact hw rfl
    simp [hw, hk]

/-! ### Event notices (R354, R358, R363) -/

/-- A ring's bytes are written into the mailbox memory. -/
theorem State.goes_putRing (s : State) (m base u : Nat) (l : List Byte) (k : Nat) :
    Goes (mask [] [.boxMem]) s (s.putRing m base u l k) := by
  induction l generalizing s k with
  | nil => exact Goes.refl _ s
  | cons b l ih => exact ((Goes.refl _ s).set_boxMem _ (by simp) (Tbl.wf_set · _ _)).trans (ih _ _)

/-- The registers and the parts that letters and notices change. -/
def letterMask : Nat := mask [.PST_MB_EVT, .PST_MB_RPL, .PST_MB_STAT] [.boxMem, .boxes, .outputs]

theorem State.goes_setBox (s : State) (m : Nat) (b : Mailbox) : Goes letterMask s (s.setBox m b) :=
  (Goes.refl _ s).set_boxes _ (mask_part (by decide))

theorem State.goes_writeReply (s : State) (m : Nat) (bytes : List Byte) : Goes letterMask s (s.writeReply m bytes) := by
  have htail (u : Nat) : Goes letterMask s
      ((s.putRing m replyBase (s.fld .PST_MB_RPL_TAIL m) bytes 0).put .PST_MB_RPL_TAIL m u) :=
    ((s.goes_putRing ..).widen (by simp) (by simp)).put _ m u (mask_reg (by decide))
  refine Goes.ite (((htail _).put _ m _ (mask_reg (by decide))).emit _ (mask_part (by decide))) ?_
  exact (htail _).when _ _ fun t => (Goes.refl _ t).put _ m 1 (mask_reg (by decide))

theorem State.goes_pumpList (s : State) (m : Nat) (l : List Held) : Goes letterMask s (s.pumpList m l) := by
  induction l generalizing s with
  | nil => exact s.goes_setBox m _
  | cons h l ih => exact Goes.ite ((s.goes_writeReply m _).trans (ih _)) (s.goes_setBox m _)

theorem State.goes_pump (s : State) (m : Nat) : Goes letterMask s (s.pump m) :=
  (s.goes_pumpList m _).put _ m _ (mask_reg (by decide))

theorem State.goes_notify (s : State) (src m : Nat) : Goes letterMask s (s.notify src m) :=
  (s.goes_setBox m _).trans (State.goes_pump _ m)

theorem State.goes_raiseNotices (s : State) (src : Nat) : Goes letterMask s (s.raiseNotices src) :=
  (Goes.refl _ s).each _ _ fun m t => t.goes_notify src m

/-! ### The logbook's record, the MSI-X message and the token of a raise (R531..R533, R538) -/

/-- The registers and the parts that a raise changes beside EVT_PEND and the notices. -/
def routeMask : Nat := mask [.EVT_LOG_LOST, .EVT_LOG_STAT] [.evt, .freeValues, .outputs, .pulses]

theorem State.goes_setQueue (s : State) (q : List LogRec) : Goes routeMask s (s.setQueue q) :=
  ((Goes.refl _ s).set_evt _ (mask_part (by decide))).put _ 0 _ (mask_reg (by decide))

/-- The record of a raise is added, merged or lost. -/
theorem State.goes_logEvent (s : State) (src : Nat) (detail : List Byte) : Goes routeMask s (s.logEvent src detail) := by
  refine Goes.ite ((Goes.refl _ s).bump _ 0 1 (mask_reg (by decide))) ?_
  refine Goes.ite (s.goes_setQueue _) (Goes.ite (s.goes_setQueue _) ?_)
  exact ((Goes.refl _ s).set_evt _ (mask_part (by decide))).bump _ 0 1 (mask_reg (by decide))

theorem State.goes_eventDetail (s : State) (reg : Option (Reg × Nat)) : Goes routeMask s (s.eventDetail reg).1 := by
  cases reg with
  | none => exact (Goes.refl _ s).drew (mask_part (by decide))
  | some x => exact Goes.refl _ s

/-- A pulse that crosses at once does what its delivery does; one that is kept changes the crossing only (R87). -/
theorem Goes.pulse {m : Nat} {s t : State} (sender receiver : Nat) (p : Pulse) {deliver : State → State}
    (hg : ∀ u, Goes m u (deliver u)) (hm : m.testBit (256 + Part.pulses.ctorIdx) = true) (h : Goes m s t) :
    Goes m s (t.pulse sender receiver p deliver) :=
  Goes.ite (h.set_pulses _ hm) ((h.set_pulses _ hm).trans (hg _))

/-- A raise sets its bit of EVT_PEND and then sends what the source's route asks for. -/
theorem State.goes_raiseCore_of_putBit (s : State) (src : Nat) (reg : Option (Reg × Nat)) :
    Goes routeMask (s.putBit .EVT_PEND_PEND (src / 32) (src % 32) true) (s.raiseCore src reg) := by
  unfold State.raiseCore
  extract_lets w seen s1 func vector s2 n s3
  have hmsix : Goes routeMask s1 s2 := (Goes.refl _ s1).when _ _ fun t =>
    (Goes.refl _ t).pulse clockless 0 _ (fun u => (Goes.refl _ u).emit _ (mask_part (by decide))) (mask_part (by decide))
  have htoken : Goes routeMask s1 s3 := hmsix.when _ _ fun t =>
    ((Goes.refl _ t).set_evt _ (mask_part (by decide))).emit _ (mask_part (by decide))
  exact Goes.ite htoken ((htoken.trans (s3.goes_eventDetail reg)).trans (State.goes_logEvent _ src _))

/-- The registers and the parts of a raise on every path. -/
def raiseMask : Nat := mask (signals []) (signalled [])

theorem Goes.route_raise {s t : State} (h : Goes routeMask s t) : Goes raiseMask s t := h.widen (by simp [signals]) (by simp [signalled])

theorem Goes.letter_raise {s t : State} (h : Goes letterMask s t) : Goes raiseMask s t := h.widen (by simp [signals]) (by simp [signalled])

theorem State.goes_raiseCore (s : State) (src : Nat) (reg : Option (Reg × Nat)) : Goes raiseMask s (s.raiseCore src reg) :=
  ((Goes.refl _ s).putBit _ (src / 32) (src % 32) true (mask_reg (by decide))).trans
    (s.goes_raiseCore_of_putBit src reg).route_raise

/-- Of EVT_PEND, a raise sets its source's bit (R531). -/
theorem State.pends_raiseCore (s : State) (src : Nat) (reg : Option (Reg × Nat)) (k : Nat) :
    (s.raiseCore src reg).pends k = (decide (k = src) || s.pends k) := by
  rw [← s.pends_putBit src k, State.pends, (s.goes_raiseCore_of_putBit src reg).flds .EVT_PEND_PEND _ (mask_reg_not (by decide))]
  rfl

/-- Notices leave EVT_PEND alone. -/
theorem State.pends_raiseNotices (s : State) (src k : Nat) : (s.raiseNotices src).pends k = s.pends k := by
  rw [State.pends, (s.goes_raiseNotices src).flds .EVT_PEND_PEND _ (mask_reg_not (by decide))]
  rfl

/-- A raise is its core, the notices of the mailboxes that have a route for the source, and source 209 where a WAIT rises. -/
theorem State.raiseWith_cases (s : State) (src : Nat) (reg : Option (Reg × Nat)) :
    let s1 := s.raiseCore src reg
    let s2 := s1.raiseNotices src
    s.raiseWith src reg = s1 ∨ s.raiseWith src reg = s2 ∨
      ∃ m, s.raiseWith src reg = (s2.raiseCore 209 (some (.PST_MB_STAT, m))).raiseNotices 209 := by
  unfold State.raiseWith
  extract_lets s1 s2
  split
  · exact .inl rfl
  · split
    · exact .inr (.inl rfl)
    · exact .inr (.inr ⟨_, rfl⟩)

theorem State.goes_raiseWith (s : State) (src : Nat) (reg : Option (Reg × Nat)) : Goes raiseMask s (s.raiseWith src reg) := by
  have hcore := s.goes_raiseCore src reg
  have hnotices := hcore.trans (State.goes_raiseNotices _ src).letter_raise
  obtain h | h | ⟨m, h⟩ := s.raiseWith_cases src reg <;> rw [h]
  · exact hcore
  · exact hnotices
  · exact (hnotices.trans (State.goes_raiseCore _ 209 _)).trans (State.goes_raiseNotices _ 209).letter_raise

theorem State.goes_raise (s : State) (src : Nat) : Goes raiseMask s (s.raise src) := s.goes_raiseWith src _

/-- A raised source is pending. -/
theorem State.pends_raiseWith (s : State) (src : Nat) (reg : Option (Reg × Nat)) : (s.raiseWith src reg).pends src = true := by
  obtain h | h | ⟨m, h⟩ := s.raiseWith_cases src reg <;> simp [h, State.pends_raiseNotices, State.pends_raiseCore]

/-! ### Access errors (R5, R6, R18, R20) -/

/-- The registers and the parts that an access error changes. -/
def errorMask : Nat := mask (signals (errors [])) (signalled [])

theorem State.on_put_one (s : State) (f : Fld) (i : Nat) (hf : 0 < f.spec.width) : (s.put f i 1).on f i = true := by
  have hw : 1 < 2 ^ f.spec.width := Nat.one_lt_two_pow (Nat.ne_of_gt hf)
  simp [State.on, Nat.mod_eq_of_lt hw]

theorem State.on_put_ne (s : State) {f g : Fld} (i j v : Nat) (h : f ≠ g) : (s.put f i v).on g j = s.on g j := by
  simp [State.on, State.fld_put_ne, h]

/-- The flag of an error is a bit of DEV_ACCESS_ERR beside ERR (R19). -/
theorem AccessError.flag_spec {e : AccessError} {f : Fld} (h : e.flag = some f) :
    f.spec.reg = .DEV_ACCESS_ERR ∧ f ≠ .DEV_ACCESS_ERR_ERR ∧ 0 < f.spec.width := by
  cases e <;> cases h <;> decide

/-- The capture and the flags of an access error, before its source is raised. -/
theorem State.accessError_eq_raise (s : State) (e : AccessError) (p : Port) (write : Bool) (addr : Nat) :
    ∃ t, Goes errorMask s t ∧ t.on .DEV_ACCESS_ERR_ERR 0 = true ∧ (∀ f, e.flag = some f → t.on f 0 = true) ∧
      s.accessError e p write addr = t.raise 2 := by
  unfold State.accessError
  extract_lets s1 s2 s3
  have hcapture : Goes errorMask s s1 := (Goes.refl _ s).when _ _ fun t =>
    (((Goes.refl _ t).put _ 0 _ (mask_reg (by decide))).put _ 0 _ (mask_reg (by decide))).put _ 0 _ (mask_reg (by decide))
  have herr : Goes errorMask s s2 := hcapture.put _ 0 1 (mask_reg (by decide))
  have hon : s2.on .DEV_ACCESS_ERR_ERR 0 = true := s1.on_put_one _ 0 (by decide)
  cases hflag : e.flag with
  | none =>
    have h3 : s3 = s2 := by simp only [s3, hflag]
    rw [h3]
    exact ⟨s2, herr, hon, nofun, rfl⟩
  | some f =>
    have h3 : s3 = s2.put f 0 1 := by simp only [s3, hflag]
    obtain ⟨hreg, hne, hwidth⟩ := AccessError.flag_spec hflag
    rw [h3]
    refine ⟨_, herr.put f 0 1 (mask_reg (by simp [hreg, signals, errors])), (s2.on_put_ne 0 0 1 hne).trans hon, ?_, rfl⟩
    rintro _ ⟨⟩
    exact s2.on_put_one f 0 hwidth

theorem State.goes_accessError (s : State) (e : AccessError) (p : Port) (write : Bool) (addr : Nat) :
    Goes errorMask s (s.accessError e p write addr) := by
  obtain ⟨t, hg, -, -, h⟩ := s.accessError_eq_raise e p write addr
  rw [h]
  exact hg.trans ((t.goes_raise 2).widen (by simp [signals, errors]) (by simp [signalled]))

/-- An access error shows in ERR and in its flag, and source 2 is pending (R5, R6, R18). -/
def State.Records (t : State) (e : AccessError) : Prop :=
  t.on .DEV_ACCESS_ERR_ERR 0 = true ∧ (∀ f, e.flag = some f → t.on f 0 = true) ∧ t.pends 2 = true

theorem State.records_accessError (s : State) (e : AccessError) (p : Port) (write : Bool) (addr : Nat) :
    (s.accessError e p write addr).Records e := by
  obtain ⟨t, -, herr, hflag, h⟩ := s.accessError_eq_raise e p write addr
  have hkeep (f : Fld) (hf : f.spec.reg = .DEV_ACCESS_ERR) : (t.raise 2).on f 0 = t.on f 0 := by
    rw [State.on, (t.goes_raise 2).flds f 0 (by simp [raiseMask, signals, hf])]
    rfl
  rw [h]
  exact ⟨(hkeep _ rfl).trans herr, fun f hf => (hkeep f (AccessError.flag_spec hf).1).trans (hflag f hf), t.pends_raiseWith 2 _⟩

end Sys2Proof.Machine
end

section
/-! PROOFS. Register accesses that take place, and O37. -/

namespace Sys2Proof.Machine

/-! ### Accesses that take place (R13, R17, R18, R92, R97) -/

theorem State.goes_setCrossing (s : State) (d : Nat) (c : Crossing) : Goes (mask [] [.crossings]) s (s.setCrossing d c) :=
  (Goes.refl _ s).set_crossings _ (by simp)

/-- A token that passes a crossing moves its pointers only. -/
theorem State.goes_passDomain (s : State) (d : Option Nat) (reply : Bool) : Goes (mask [] [.crossings]) s (s.passDomain d reply) := by
  cases d with
  | none => exact Goes.refl _ s
  | some d => exact (s.goes_setCrossing d _).when reply _ fun t => t.goes_setCrossing d _

theorem State.goes_passAccess (s : State) (p : Port) (write : Bool) (d : Option Nat) :
    Goes (mask [] [.crossings]) s (s.passAccess p write d) := by
  unfold State.passAccess
  cases portDomain p with
  | none => exact s.goes_passDomain d _
  | some o =>
    exact ((s.goes_setCrossing o _).when _ _ fun t => t.goes_setCrossing o _).trans (State.goes_passDomain _ d _)

@[simp] theorem State.fld_passAccess (s : State) (p : Port) (write : Bool) (d : Option Nat) (f : Fld) (i : Nat) :
    (s.passAccess p write d).fld f i = s.fld f i :=
  (s.goes_passAccess p write d).flds f i (by simp)

@[simp] theorem State.passAccess_out (s : State) (p : Port) (write : Bool) (d : Option Nat) : (s.passAccess p write d).out = s.out :=
  (s.goes_passAccess p write d).parts .outputs (by simp)

/-- The word of element `i` of a register depends on the fields of elements `i` only. -/
theorem State.regWord_congr {s t : State} (r : Reg) (i : Nat) (h : ∀ f, t.fld f i = s.fld f i) : t.regWord r i = s.regWord r i := by
  simp only [State.regWord, h]

/-- An access that takes place is the access's own effect, behind its passage through the crossings. -/
theorem State.access_of_takes {s : State} {p : Port} {write : Bool} {r : Reg} {i : Nat} (h : s.takes p write r i = true) (data : Nat)
    (g : State → State) : s.access p r i write data g = g (s.passAccess p write (r.domain i)) := by
  simp only [State.takes, Bool.and_eq_true, Bool.not_eq_true'] at h
  obtain ⟨⟨hreach, hmay⟩, hgo⟩ := h
  simp [State.access, State.accessAt, hreach, hmay, hgo]

/-- The registers that decide whether an access of a port takes place (R18, R97, R98, R352, R429, R513, R528). -/
def gateRegs : List Reg := [.DEV_ISL_RUN, .DEV_ISL_HELD, .DEV_RGN_ACCESS, .DEV_LC, .PERF_USER_EN, .PST_MB_OWNER]

/-- The parts that decide it beside registers. -/
def gateParts : List Part := [.waiting, .ports, .evt]

/-- What leaves the deciding registers and parts alone lets the same accesses take place. -/
theorem Within.takes {rs : List Reg} {ps : List Part} {s t : State} (h : Within rs ps s t) (hr : ∀ r ∈ gateRegs, r ∉ rs)
    (hp : ∀ p ∈ gateParts, p ∉ ps) (p : Port) (write : Bool) (r : Reg) (i : Nat) : t.takes p write r i = s.takes p write r i := by
  obtain ⟨hfld, hpart⟩ := h
  have hkeep (f : Fld) (hf : f.spec.reg ∈ gateRegs) (k : Nat) : t.fld f k = s.fld f k := hfld f k (hr _ hf)
  have hports : t.ports = s.ports := hpart .ports (hp _ (by simp [gateParts]))
  have hevt : t.evt = s.evt := hpart .evt (hp _ (by simp [gateParts]))
  have hwaiting : t.waiting = s.waiting := hpart .waiting (hp _ (by simp [gateParts]))
  have hrun := hkeep .DEV_ISL_RUN_RUN (by decide)
  have hheld := hkeep .DEV_ISL_HELD_HELD (by decide)
  have hrd := hkeep .DEV_RGN_ACCESS_RD (by decide)
  have hwr := hkeep .DEV_RGN_ACCESS_WR (by decide)
  have hlc := hkeep .DEV_LC_STATE (by decide)
  have huser := hkeep .PERF_USER_EN_FABRIC (by decide)
  have howner := hkeep .PST_MB_OWNER_OWNER (by decide)
  have hdomain (d : Option Nat) : t.domainWaits d = s.domainWaits d := by
    simp only [State.domainWaits, State.runs, State.isHeld, hrun, hheld]
  have hperm (n : Nat) : t.fld (if write then .DEV_RGN_ACCESS_WR else .DEV_RGN_ACCESS_RD) n =
      s.fld (if write then .DEV_RGN_ACCESS_WR else .DEV_RGN_ACCESS_RD) n := by
    cases write
    · exact hrd n
    · exact hwr n
  have hregion (n : Nat) : t.regionMay n write r i = s.regionMay n write r i := by
    simp only [State.regionMay, State.on, hperm, huser, howner, hevt]
  have hmay : t.may p write r i = s.may p write r i := by
    simp only [State.may, State.boxMay, State.tapMay, howner, hlc, hregion]
  simp only [State.takes, State.reaches, State.mustWait, State.portBusy, hdomain, hmay, hports, hwaiting]

/-! ### A read with clearing (R9) -/

theorem State.each_nil {α : Type} (s : State) (g : α → State → State) : s.each [] g = s := rfl

theorem State.each_cons {α : Type} (s : State) (a : α) (l : List α) (g : α → State → State) :
    s.each (a :: l) g = (g a s).each l g := rfl

theorem State.fld_each_zero (s : State) (l : List Fld) (i : Nat) (f : Fld) (j : Nat) :
    (s.each l fun f s => s.put f i 0).fld f j = if f ∈ l ∧ j = i then 0 else s.fld f j := by
  induction l generalizing s with
  | nil => simp [State.each_nil]
  | cons g l ih =>
    rw [State.each_cons, ih, State.fld_put, Nat.zero_mod]
    grind

theorem State.goes_readClear (s : State) (p : Port) (r : Reg) (i : Nat) : Goes (mask [r] [.outputs]) s (s.readClear p r i) := by
  refine ((Goes.refl _ s).emit _ (by simp)).eachMem _ _ fun f hf t => (Goes.refl _ t).put f i 0 ?_
  simp [Fld.reg_of_mem (List.mem_of_mem_filter hf)]

theorem State.fld_readClear (s : State) (p : Port) (f : Fld) (i j : Nat) :
    (s.readClear p f.spec.reg i).fld f j = if f.spec.ty = .RC ∧ j = i then 0 else s.fld f j := by
  simp [State.readClear, State.fld_each_zero, f.mem_fields]

theorem State.out_each_zero (s : State) (l : List Fld) (i : Nat) : (s.each l fun f s => s.put f i 0).out = s.out := by
  induction l generalizing s with
  | nil => rfl
  | cons g l ih => rw [State.each_cons, ih, State.put_out]

theorem State.readClear_out (s : State) (p : Port) (r : Reg) (i : Nat) :
    (s.readClear p r i).out = s.out ++ [.readValue p (s.regWord r i)] := by
  rw [State.readClear, State.out_each_zero, State.emit_out]

/-- Every command that reads with clearing is one access of the register, the lane's checker counting before (R261). -/
theorem exec_of_clearingRead {c : Instr} {p : Port} {r : Reg} {i : Nat} (h : clearingRead c = some (p, r, i)) (s : State) :
    exec c s = .next ((s.counted c).access p r i false 0 (·.readClear p r i)) := by
  unfold clearingRead at h
  split at h
  -- LANE_ETH_CNT, the one read whose register depends on its element
  case h_17 _ e =>
    split at h
    · cases h
    · next he =>
      cases h
      exact congrArg Host.Outcome.next (if_neg he)
  all_goals cases h
  all_goals rfl

/-- What is counted before a clearing read is the lane's own count, which the read then clears. -/
theorem counted_of_clearingRead {c : Instr} {p : Port} {r : Reg} {i : Nat} (h : clearingRead c = some (p, r, i)) (s : State) :
    s.counted c = s ∨ r = .LANE_CNT ∧ ∃ n, s.counted c = s.bump .LANE_CNT_PRBS_ERR i n := by
  unfold State.counted
  split
  next q x =>
    cases h
    unfold State.when
    split
    · exact .inr ⟨rfl, _, rfl⟩
    · exact .inl rfl
  · exact .inl rfl

theorem State.goes_counted {c : Instr} {p : Port} {r : Reg} {i : Nat} (h : clearingRead c = some (p, r, i)) (s : State) :
    Goes (mask [r] []) s (s.counted c) := by
  obtain hs | ⟨rfl, n, hs⟩ := counted_of_clearingRead h s <;> rw [hs]
  · exact Goes.refl _ s
  · exact (Goes.refl _ s).bump _ i n (mask_reg (by decide))

/-- The count decides no access. -/
theorem State.takes_counted {c : Instr} {p : Port} {r : Reg} {i : Nat} (h : clearingRead c = some (p, r, i)) (s : State) :
    (s.counted c).takes p false r i = s.takes p false r i := by
  have hgoes := s.goes_counted h
  obtain hs | ⟨rfl, -⟩ := counted_of_clearingRead h s
  · rw [hs]
  · exact hgoes.within.takes (by decide) (by simp) p false _ i

/-- What the count changes, the read clears. -/
theorem State.fld_counted {c : Instr} {p : Port} {r : Reg} {i : Nat} (h : clearingRead c = some (p, r, i)) (s : State) {f : Fld} {j : Nat}
    (hf : ¬(f.spec.ty = .RC ∧ j = i)) : (s.counted c).fld f j = s.fld f j := by
  obtain hs | ⟨-, n, hs⟩ := counted_of_clearingRead h s <;> rw [hs]
  refine (State.fld_put s _ f i j _).trans (if_neg ?_)
  rintro ⟨rfl, rfl⟩
  exact hf ⟨rfl, rfl⟩

/-- Settles O37: the command is one access of the register, and the access a read that clears. -/
theorem clearingReadsReturnAndClear : Obligations.ClearingReadsReturnAndClear := by
  intro c p r i s hc htakes
  have hexec := exec_of_clearingRead hc s
  rw [State.access_of_takes ((s.takes_counted hc).trans htakes)] at hexec
  have hcounted := s.goes_counted hc
  have hpass := (s.counted c).goes_passAccess p false (r.domain i)
  refine ⟨_, hexec, ?_, ?_, ?_⟩
  · rw [State.readClear_out, State.passAccess_out, hcounted.parts .outputs (by simp),
      State.regWord_congr r i fun f => State.fld_passAccess _ _ _ _ f i]
  · have hread := ((s.counted c).passAccess p false (r.domain i)).goes_readClear p r i
    exact (((hcounted.widen (by simp) (by simp)).trans (hpass.widen (by simp) (by simp))).trans
      (hread.widen (by simp) (by simp))).within
  · rintro f rfl j
    rw [State.fld_readClear, State.fld_passAccess]
    split
    · rfl
    · next hf => exact s.fld_counted hc hf

end Sys2Proof.Machine
end

section
/-! PROOFS. Register accesses that are discarded, O38 and O39. -/

namespace Sys2Proof.Machine

/-! ### Accesses that are discarded (R5, R6, R79, R151, R444) -/

theorem State.goes_lockAbort (s : State) (p : Port) : Goes (mask (signals [.PIN_GSTAT]) (signalled [.pins])) s (s.lockAbort p) :=
  (((Goes.refl _ s).set_pins _ (mask_part (by decide))).put _ 0 1 (mask_reg (by decide))).trans
    ((State.goes_raise _ 6).widen (by simp [signals]) (by simp [signalled]))

theorem State.goes_breakLock (s : State) (p : Port) : Goes (mask (signals [.PIN_GSTAT]) (signalled [.pins])) s (s.breakLock p) :=
  Goes.ite (Goes.refl _ s) (s.goes_lockAbort p)

/-- The registers and the parts that a region's reply token changes: it leaves the device, or is absorbed and counted. -/
def replyMask : Nat := mask [.CFG_ISO_CNT] [.outputs]

theorem State.goes_controlReply (s : State) (n : Fin 40) (tag v : Nat) : Goes replyMask s (s.controlReply n tag v) :=
  Goes.ite ((Goes.refl _ s).emit _ (mask_part (by decide))) ((Goes.refl _ s).bump _ n 1 (mask_reg (by decide)))

/-- An access that takes place is the access itself and the reply token of a region control port. -/
theorem State.goes_makeAccess_of (s : State) (p : Port) (a : Nat) (write : Bool) (v : Nat) (form : Bool) :
    Goes replyMask (if form then s.misform p a write else if write then s.makeWrite p a v else s.makeRead p a) (s.makeAccess p a write v form) := by
  cases p with
  | region n => exact State.goes_controlReply _ n _ _
  | _ => exact Goes.refl _ _

/-- An access that reaches the device and waits for nothing is made. -/
theorem State.busAccess_of_goes {s : State} {p : Port} {a : Nat} {write form : Bool} (hreach : s.reaches p = true)
    (hgo : s.mustWait p (s.accessDomain p a write form) = false) (v : Nat) :
    s.busAccess p a write v form = s.makeAccess p a write v form := by
  simp [State.busAccess, hreach, hgo]

/-- What a discarded access may change: the registers of its error, of a lock sequence that it breaks and of an absorbed reply token, and beside what a raise
changes the parts `ps`. -/
def discardMask (ps : List Part) : Nat := mask (signals (errors [.CFG_ISO_CNT, .PIN_GSTAT])) (signalled ps)

/-- What is made of an access in error: its error, and the 0 that a read returns. -/
def State.discard (s : State) (e : AccessError) (p : Port) (write : Bool) (a : Nat) : State :=
  (s.accessError e p write a).when (!write) (·.emit (.readValue p 0))

theorem State.misform_eq_discard (s : State) (p : Port) (a : Nat) (write : Bool) :
    s.misform p a write = (s.when (write && windowOf a == some .PIN) (·.breakLock p)).discard .form p write a := rfl

theorem State.makeWrite_eq_discard {s : State} {p : Port} {a : Nat} (htarget : targetAt a = .nothing) (hmay : s.mayAt p true a = true) (v : Nat) :
    s.makeWrite p a v =
      ((s.passAccess p true (addrDomain a)).when (windowOf a == some .PIN) (·.breakLock p)).discard .unmapped p true a := by
  simp [State.makeWrite, hmay, htarget, State.discard, State.when]

theorem State.makeRead_eq_discard {s : State} {p : Port} {a : Nat} (htarget : targetAt a = .nothing) (hmay : s.mayAt p false a = true) :
    s.makeRead p a = (s.passAccess p false (addrDomain a)).discard .unmapped p false a := by
  simp [State.makeRead, hmay, htarget, State.discard, State.when]

/-- From `s` to `t` an access of port `p` is discarded with error `e`, and a read returns 0. -/
structure Discarded (ps : List Part) (e : AccessError) (p : Port) (write : Bool) (s t : State) : Prop where
  goes : Goes (discardMask ps) s t
  records : t.Records e
  zero : write = false → Output.readValue p 0 ∈ t.out.drop s.out.length

/-- A reply token leaves what an access error shows. -/
theorem State.Records.of_reply {s t : State} {e : AccessError} (hs : s.Records e) (h : Goes replyMask s t) : t.Records e := by
  obtain ⟨herr, hflag, hpend⟩ := hs
  have hreg (f : Fld) (hf : f.spec.reg = .DEV_ACCESS_ERR) : t.on f 0 = s.on f 0 := by
    rw [State.on, h.flds f 0 (by simp [replyMask, hf])]
    rfl
  refine ⟨(hreg _ rfl).trans herr, fun f hf => (hreg f (AccessError.flag_spec hf).1).trans (hflag f hf), ?_⟩
  rw [State.pends, h.flds .EVT_PEND_PEND _ (mask_reg_not (by decide))]
  exact hpend

theorem State.Records.emit {s : State} {e : AccessError} (h : s.Records e) (o : Output) : (s.emit o).Records e := by
  simpa only [State.Records, State.on, State.pends, State.fld_emit] using h

/-- What stands in the outputs behind those of an earlier state stands there after more have left. -/
theorem Goes.mem_drop_out {m : Nat} {s t u : State} {o : Output} (hs : s.out <+: t.out) (h : Goes m (t.emit o) u) :
    o ∈ u.out.drop s.out.length := by
  obtain ⟨l, hl⟩ := hs
  obtain ⟨k, hk⟩ := h.out
  rw [← hk, State.emit_out, ← hl]
  simp

theorem Discarded.of_discard {ps : List Part} {s s' t : State} {e : AccessError} {p : Port} {write : Bool} {a : Nat}
    (hs : Goes (discardMask ps) s s')
    (ht : Goes replyMask (s'.discard e p write a) t) : Discarded ps e p write s t := by
  have herror : Goes (discardMask ps) s (s'.accessError e p write a) :=
    hs.trans ((s'.goes_accessError e p write a).widen (by simp [signals, errors]) (by simp [signalled]))
  have hrecords := s'.records_accessError e p write a
  have hreply {u : State} (hu : Goes replyMask u t) : Goes (discardMask ps) u t :=
    hu.widen (by simp [signals, errors]) (by simp [signalled])
  cases write with
  | true => exact ⟨herror.trans (hreply ht), hrecords.of_reply ht, nofun⟩
  | false => exact ⟨(herror.emit _ (mask_part (by simp [signalled]))).trans (hreply ht), (hrecords.emit _).of_reply ht,
      fun _ => Goes.mem_drop_out herror.out ht⟩

/-- An access of another width or alignment is discarded with FORM (R5). -/
theorem State.discarded_of_form (s : State) (p : Port) (a : Nat) (write : Bool) (v : Nat) :
    Discarded [.pins] .form p write s (s.makeAccess p a write v true) := by
  have hlock : Goes (discardMask [.pins]) s (s.when (write && windowOf a == some .PIN) (·.breakLock p)) :=
    (Goes.refl _ s).when _ _ fun t => (t.goes_breakLock p).widen (by simp [signals, errors]) (by simp [signalled])
  have hmade := s.goes_makeAccess_of p a write v true
  rw [if_pos rfl, State.misform_eq_discard] at hmade
  exact Discarded.of_discard hlock hmade

/-- A permitted access to an address that holds no register is discarded with UNMAPPED (R6). -/
theorem State.discarded_of_unmapped {s : State} {p : Port} {a : Nat} {write : Bool} (htarget : targetAt a = .nothing)
    (hmay : s.mayAt p write a = true) (v : Nat) :
    Discarded [.crossings, .pins] .unmapped p write s (s.makeAccess p a write v false) := by
  have hpass : Goes (discardMask [.crossings, .pins]) s (s.passAccess p write (addrDomain a)) :=
    (s.goes_passAccess p write _).widen (by simp) (by simp [signalled])
  have hmade := s.goes_makeAccess_of p a write v false
  cases write with
  | true =>
    have hlock := hpass.when (windowOf a == some .PIN) _ fun t =>
      (t.goes_breakLock p).widen (by simp [signals, errors]) (by simp [signalled])
    rw [if_neg (by decide), if_pos rfl, State.makeWrite_eq_discard htarget hmay] at hmade
    exact Discarded.of_discard hlock hmade
  | false =>
    rw [if_neg (by decide), if_neg (by decide), State.makeRead_eq_discard htarget hmay] at hmade
    exact Discarded.of_discard hpass hmade

/-- Settles O38: such an access waits for no domain, and what is made of it is its error. -/
theorem misformedAccessesAreDiscarded : Obligations.MisformedAccessesAreDiscarded := by
  intro p addr bytes value s hreach hfree hform
  have hdec : (decide (bytes.val ≠ 4) || decide (addr.toNat % 4 ≠ 0)) = true := by simpa using hform
  have hmade (write : Bool) (v : Nat) : s.busAccess p (barView p addr.toNat) write v true = s.makeAccess p (barView p addr.toNat) write v true :=
    State.busAccess_of_goes hreach (by simp [State.mustWait, State.accessDomain, State.domainWaits, hfree]) v
  have hwrite := s.discarded_of_form p (barView p addr.toNat) true value.toNat
  have hread := s.discarded_of_form p (barView p addr.toNat) false 0
  have hdone {write : Bool} {v : State} (h : Discarded [.pins] .form p write s v) :
      Within (signals (errors [.CFG_ISO_CNT, .PIN_GSTAT])) (signalled [.pins]) s v ∧ v.on .DEV_ACCESS_ERR_ERR 0 = true ∧
        v.on .DEV_ACCESS_ERR_FORM 0 = true ∧ v.pends 2 = true := by
    obtain ⟨herr, hflag, hpend⟩ := h.records
    exact ⟨h.goes.within, herr, hflag _ rfl, hpend⟩
  refine ⟨s.makeAccess p (barView p addr.toNat) true value.toNat true, s.makeAccess p (barView p addr.toNat) false 0 true,
    congrArg Host.Outcome.next ?_, congrArg Host.Outcome.next ?_, hread.zero rfl, ?_⟩
  · rw [hdec, hmade]
  · rw [hdec, hmade]
  · simpa using ⟨hdone hwrite, hdone hread⟩

/-- Settles O39: such an access passes the crossing of its window's domain, and what is made of it is its error. -/
theorem unmappedAddressesReadZero : Obligations.UnmappedAddressesReadZero := by
  intro p addr value s hreach halign htarget hgo recorded
  have hmade {write : Bool} (hmay : s.mayAt p write (barView p addr.toNat) = true) (v : Nat) :
      s.busAccess p (barView p addr.toNat) write v (decide ((4 : Fin 9).val ≠ 4) || decide (addr.toNat % 4 ≠ 0)) =
        s.makeAccess p (barView p addr.toNat) write v false := by
    have hdec : (decide ((4 : Fin 9).val ≠ 4) || decide (addr.toNat % 4 ≠ 0)) = false := by simp [halign]
    rw [hdec]
    exact State.busAccess_of_goes hreach (by simpa [State.accessDomain, hmay] using hgo) v
  have hdone {write : Bool} {t : State} (h : Discarded [.crossings, .pins] .unmapped p write s t) : recorded t := by
    obtain ⟨herr, hflag, hpend⟩ := h.records
    exact ⟨h.goes.within, herr, hflag _ rfl, hpend⟩
  constructor
  · intro hmay
    exact ⟨_, congrArg Host.Outcome.next (hmade hmay _), hdone (State.discarded_of_unmapped htarget hmay _)⟩
  · intro hmay
    have h := State.discarded_of_unmapped htarget hmay 0
    exact ⟨_, congrArg Host.Outcome.next (hmade hmay 0), h.zero rfl, hdone h⟩

end Sys2Proof.Machine
end

section
/-! PROOFS. No command touches the queue or the model's clock: the agenda, and the operations that blocks share. Each function of the model that answers a
state has one lemma here, by its own equation and the lemmas of what it calls, in the order of the definitions; simp carries them up to the commands. A command
that is one call needs none of its own: exec_answers unfolds it. -/

namespace Sys2Proof.Machine

/-- What no command touches: the commands that wait (R17) and the model's clock (log 99). -/
def State.agenda (s : State) : List Instr × Nat := (s.pending, s.clock)

/-! In the proofs below, `(rfl)` in parentheses: simp rewrites with the lemma and does not count the two sides as equal by computation, which would leave it to
the kernel to compare states by evaluating what is written into them. -/

@[simp] theorem State.agenda_mk
    (regs shadows waiting crossings pulses copies samplers cells words elements isos taken trees flying taps arbiters bms isoAbsorb uclkUse restoring
    evt boxes boxMem svc axes encLevel encOpen strobeT strobeAt beaconAt sorters insWords insRes gates plcs pins rings lease chans jobs letterBudget
    letterQueue fires memo seals laneTx laneSkip store images monitors links ports heaters config power resets secure franker out free clock timers
    pending) :
    State.agenda
      ⟨regs, shadows, waiting, crossings, pulses, copies, samplers, cells, words, elements, isos, taken, trees, flying, taps, arbiters, bms, isoAbsorb,
      uclkUse, restoring, evt, boxes, boxMem, svc, axes, encLevel, encOpen, strobeT, strobeAt, beaconAt, sorters, insWords, insRes, gates, plcs, pins,
      rings, lease, chans, jobs, letterBudget, letterQueue, fires, memo, seals, laneTx, laneSkip, store, images, monitors, links, ports, heaters,
      config, power, resets, secure, franker, out, free, clock, timers, pending⟩ = (pending, clock) := (rfl)

@[simp] theorem State.pending_clock (s : State) : (s.pending, s.clock) = s.agenda := (rfl)

theorem State.pending_of_agenda {s : State} {v : List Instr × Nat} (h : s.agenda = v) : s.pending = v.1 := congrArg Prod.fst h

@[simp] theorem State.ite_agenda (c : Prop) [Decidable c] (s t : State) : (if c then s else t).agenda = if c then s.agenda else t.agenda :=
  apply_ite _ c s t

/-! A service answers a state and its reply. -/

@[simp] theorem ite_fst_agenda {β : Type} (c : Prop) [Decidable c] (a b : State × β) :
    (if c then a else b).1.agenda = if c then a.1.agenda else b.1.agenda := apply_ite (fun x => x.1.agenda) c a b

theorem fst_mk_agenda {β : Type} (s : State) (b : β) : (s, b).1.agenda = s.agenda := rfl

theorem agenda_of_eq_mk {β : Type} {a : State × β} {t : State} {b : β} (h : a = (t, b)) : t.agenda = a.1.agenda := by rw [h]

theorem foldl_fst_agenda {α β : Type} (l : List α) (a : State × β) (g : State × β → α → State × β) (hg : ∀ a c, (g a c).1.agenda = a.1.agenda) :
    (l.foldl g a).1.agenda = a.1.agenda := by
  induction l generalizing a with
  | nil => rfl
  | cons c l ih => exact (ih (g a c)).trans (hg a c)

/-- A command answers a next state with the agenda of `s`. -/
def Answers (s : State) : Host.Outcome State Fault Refusal → Prop
  | .next t => t.agenda = s.agenda
  | _ => False

@[simp] theorem answers_next {s t : State} : Answers s (.next t) ↔ t.agenda = s.agenda := Iff.rfl

/-! ### Fields of the register map, events, mailboxes, accesses -/

@[simp] theorem State.put_agenda (s : State) (f i v) : (s.put f i v).agenda = s.agenda := (rfl)
@[simp] theorem State.orFld_agenda (s : State) (f i m) : (s.orFld f i m).agenda = s.agenda := by simp [State.orFld]
@[simp] theorem State.putBit_agenda (s : State) (f i b v) : (s.putBit f i b v).agenda = s.agenda := by simp [State.putBit]
@[simp] theorem State.bump_agenda (s : State) (f i n) : (s.bump f i n).agenda = s.agenda := by simp [State.bump]
@[simp] theorem State.addMod_agenda (s : State) (f i n) : (s.addMod f i n).agenda = s.agenda := by simp [State.addMod]
@[simp] theorem State.clr_agenda (s : State) (f i) : (s.clr f i).agenda = s.agenda := by simp [State.clr]

theorem State.each_agenda_of {α : Type} {s t : State} {l : List α} {g : α → State → State} (h : t.agenda = s.agenda)
    (hg : ∀ a u, (g a u).agenda = u.agenda) : (t.each l g).agenda = s.agenda := by
  induction l generalizing t with
  | nil => exact h
  | cons a l ih => exact ih ((hg a t).trans h)

@[simp] theorem State.each_agenda {α : Type} (s : State) (l : List α) (g : α → State → State) (hg : ∀ a t, (g a t).agenda = t.agenda) :
    (s.each l g).agenda = s.agenda := State.each_agenda_of rfl hg

@[simp] theorem State.when_agenda (s : State) (c : Bool) (g : State → State) (hg : (g s).agenda = s.agenda) :
    (s.when c g).agenda = s.agenda := by simp [State.when, hg]

@[simp] theorem State.emit_agenda (s : State) (o) : (s.emit o).agenda = s.agenda := (rfl)
@[simp] theorem State.drew_agenda (s : State) : s.drew.agenda = s.agenda := (rfl)
@[simp] theorem State.startTimer_agenda (s : State) (t i) : (s.startTimer t i).agenda = s.agenda := by simp [State.startTimer]
@[simp] theorem State.stopTimer_agenda (s : State) (t i) : (s.stopTimer t i).agenda = s.agenda := by simp [State.stopTimer]
@[simp] theorem State.partBundle_agenda (s : State) (n) : (s.partBundle n).agenda = s.agenda := by simp [State.partBundle]

@[simp] theorem State.pulse_agenda (s : State) (sender receiver p) (deliver : State → State) (hdeliver : ∀ t, (deliver t).agenda = t.agenda) :
    (s.pulse sender receiver p deliver).agenda = s.agenda := by simp [State.pulse, hdeliver]

@[simp] theorem State.pulseVia_agenda (s : State) (sender receiver p) (deliver : State → State) (hdeliver : ∀ t, (deliver t).agenda = t.agenda) :
    (s.pulseVia sender receiver p deliver).agenda = s.agenda := by simp [State.pulseVia, hdeliver]

@[simp] theorem State.showFranker_agenda (s : State) : s.showFranker.agenda = s.agenda := by simp [State.showFranker]
@[simp] theorem State.setQueue_agenda (s : State) (q) : (s.setQueue q).agenda = s.agenda := by simp [State.setQueue]
@[simp] theorem State.logEvent_agenda (s : State) (src detail) : (s.logEvent src detail).agenda = s.agenda := by simp [State.logEvent]
@[simp] theorem State.logFirmware_agenda (s : State) (code bytes) : (s.logFirmware code bytes).agenda = s.agenda := by simp [State.logFirmware]
@[simp] theorem State.setBox_agenda (s : State) (m b) : (s.setBox m b).agenda = s.agenda := by simp [State.setBox]
@[simp] theorem State.setBoxByte_agenda (s : State) (a b) : (s.setBoxByte a b).agenda = s.agenda := by simp [State.setBoxByte]

@[simp] theorem State.putRing_agenda (s : State) (m base u bytes n) : (s.putRing m base u bytes n).agenda = s.agenda := by
  fun_induction State.putRing <;> simp_all

@[simp] theorem State.writeReply_agenda (s : State) (m bytes) : (s.writeReply m bytes).agenda = s.agenda := by simp [State.writeReply]
@[simp] theorem State.pumpList_agenda (s : State) (m l) : (s.pumpList m l).agenda = s.agenda := by fun_induction State.pumpList <;> simp_all
@[simp] theorem State.pump_agenda (s : State) (m) : (s.pump m).agenda = s.agenda := by simp [State.pump]
@[simp] theorem State.notify_agenda (s : State) (src m) : (s.notify src m).agenda = s.agenda := by simp [State.notify]

@[simp] theorem State.eventDetail_agenda (s : State) (reg) : (s.eventDetail reg).1.agenda = s.agenda := by
  unfold State.eventDetail
  split <;> simp

@[simp] theorem State.raiseCore_agenda (s : State) (src reg) : (s.raiseCore src reg).agenda = s.agenda := by simp [State.raiseCore]
@[simp] theorem State.raiseNotices_agenda (s : State) (src) : (s.raiseNotices src).agenda = s.agenda := by simp [State.raiseNotices]

@[simp] theorem State.raiseWith_agenda (s : State) (src reg) : (s.raiseWith src reg).agenda = s.agenda := by
  simp only [State.raiseWith]
  (repeat' split) <;> simp

@[simp] theorem State.raise_agenda (s : State) (src) : (s.raise src).agenda = s.agenda := by simp [State.raise]
@[simp] theorem State.raiseOf_agenda (s : State) (src r i) : (s.raiseOf src r i).agenda = s.agenda := by simp [State.raiseOf]
@[simp] theorem State.perfAdd_agenda (s : State) (i n) : (s.perfAdd i n).agenda = s.agenda := by simp [State.perfAdd]
@[simp] theorem State.perf_agenda (s : State) (block inst event n x) : (s.perf block inst event n x).agenda = s.agenda := by simp [State.perf]
@[simp] theorem State.send_agenda (s : State) (m bytes) : (s.send m bytes).agenda = s.agenda := by simp [State.send]
@[simp] theorem State.postLetters_agenda (s : State) (m l) : (s.postLetters m l).agenda = s.agenda := by simp [State.postLetters]

@[simp] theorem State.postAnswers_agenda (s : State) (m) : (s.postAnswers m).agenda = s.agenda := by
  refine State.each_agenda _ _ _ fun a t => ?_
  dsimp only
  (repeat' split) <;> simp

@[simp] theorem State.reply_agenda (s : State) (L r) : (s.reply L r).agenda = s.agenda := by simp [State.reply]

@[simp] theorem State.notice_agenda (s : State) (m opcode handle postmark body) : (s.notice m opcode handle postmark body).agenda = s.agenda := by
  simp [State.notice]

@[simp] theorem State.accessError_agenda (s : State) (e p write addr) : (s.accessError e p write addr).agenda = s.agenda := by
  unfold State.accessError
  split <;> simp

@[simp] theorem State.setCrossing_agenda (s : State) (d c) : (s.setCrossing d c).agenda = s.agenda := by simp [State.setCrossing]
@[simp] theorem State.passInto_agenda (s : State) (d) : (s.passInto d).agenda = s.agenda := by simp [State.passInto]
@[simp] theorem State.passOut_agenda (s : State) (d) : (s.passOut d).agenda = s.agenda := by simp [State.passOut]

@[simp] theorem State.passDomain_agenda (s : State) (d reply) : (s.passDomain d reply).agenda = s.agenda := by
  unfold State.passDomain
  split <;> simp

@[simp] theorem State.passAccess_agenda (s : State) (p write d) : (s.passAccess p write d).agenda = s.agenda := by
  unfold State.passAccess
  split <;> simp

@[simp] theorem State.wait_agenda (s : State) (p addr write data form d) : (s.wait p addr write data form d).agenda = s.agenda := by
  unfold State.wait
  split <;> simp

@[simp] theorem State.accessAt_agenda (s : State) (p r i a write data) (g : State → State) (hg : ∀ t, (g t).agenda = t.agenda) :
    (s.accessAt p r i a write data g).agenda = s.agenda := by simp [State.accessAt, hg]

@[simp] theorem State.access_agenda (s : State) (p r i write data) (g : State → State) (hg : ∀ t, (g t).agenda = t.agenda) :
    (s.access p r i write data g).agenda = s.agenda := by simp [State.access, hg]

@[simp] theorem State.readClear_agenda (s : State) (p r i) : (s.readClear p r i).agenda = s.agenda := by simp [State.readClear]
@[simp] theorem State.countDrops_agenda (s : State) (d drops poisons) : (s.countDrops d drops poisons).agenda = s.agenda := by simp [State.countDrops]

@[simp] theorem State.release_agenda (s : State) (d cause lane drops targets) : (s.release d cause lane drops targets).agenda = s.agenda := by
  simp [State.release]

@[simp] theorem State.wideRead_agenda (s : State) (p r i) : (s.wideRead p r i).agenda = s.agenda := by simp [State.wideRead]

/-! ### Flits and their control bytes -/

@[simp] theorem State.updLink_agenda (s : State) (m) (g : Link → Link) : (s.updLink m g).agenda = s.agenda := by simp [State.updLink]
@[simp] theorem State.linkErr_agenda (s : State) (m f) : (s.linkErr m f).agenda = s.agenda := by simp [State.linkErr]
@[simp] theorem State.putFlit_agenda (s : State) (m lane seq bytes) : (s.putFlit m lane seq bytes).agenda = s.agenda := by simp [State.putFlit]
@[simp] theorem State.sendMarker_agenda (s : State) (m mask restripe) : (s.sendMarker m mask restripe).agenda = s.agenda := by simp [State.sendMarker]
@[simp] theorem State.round_agenda (s : State) (m) : (s.round m).agenda = s.agenda := by simp [State.round]
@[simp] theorem State.stripe_agenda (s : State) (m vl first seq body) : (s.stripe m vl first seq body).agenda = s.agenda := by simp [State.stripe]
@[simp] theorem State.passBulk_agenda (s : State) (m n) : (s.passBulk m n).agenda = s.agenda := by simp [State.passBulk]
@[simp] theorem State.sendFlit_agenda (s : State) (m f) : (s.sendFlit m f).agenda = s.agenda := by simp [State.sendFlit]
@[simp] theorem State.pumpFlits_agenda (n) (s : State) (i) : (State.pumpFlits n s i).agenda = s.agenda := by fun_induction State.pumpFlits <;> simp_all
@[simp] theorem State.postMessage_agenda (s : State) (m vl bytes) : (s.postMessage m vl bytes).agenda = s.agenda := by simp [State.postMessage]
@[simp] theorem State.ringMessage_agenda (s : State) (port kind data) : (s.ringMessage port kind data).agenda = s.agenda := by simp [State.ringMessage]
@[simp] theorem State.stitchMessage_agenda (s : State) (m kind data) : (s.stitchMessage m kind data).agenda = s.agenda := by simp [State.stitchMessage]
@[simp] theorem State.emitSlot_agenda (s : State) (m code seq data) : (s.emitSlot m code seq data).agenda = s.agenda := by simp [State.emitSlot]
@[simp] theorem State.sendExpress_agenda (s : State) (m code data) : (s.sendExpress m code data).agenda = s.agenda := by simp [State.sendExpress]
@[simp] theorem State.linkExpress_agenda (s : State) (m code data) : (s.linkExpress m code data).agenda = s.agenda := by simp [State.linkExpress]
@[simp] theorem State.badExpress_agenda (s : State) (m) : (s.badExpress m).agenda = s.agenda := by simp [State.badExpress]

@[simp] theorem State.expressIn_agenda (s : State) (x code arg) (g : State → State) (hg : ∀ t, (g t).agenda = t.agenda) :
    (s.expressIn x code arg g).agenda = s.agenda := by simp [State.expressIn, hg]

/-! ### The internal non-volatile memory -/

@[simp] theorem State.setConfig_agenda (s : State) (g : ConfigState → ConfigState) : (s.setConfig g).agenda = s.agenda := by simp [State.setConfig]
@[simp] theorem State.setSlot_agenda (s : State) (n x) : (s.setSlot n x).agenda = s.agenda := by simp [State.setSlot]
@[simp] theorem State.showWear_agenda (s : State) : s.showWear.agenda = s.agenda := by simp [State.showWear]
@[simp] theorem State.setBlock_agenda (s : State) (b x) : (s.setBlock b x).agenda = s.agenda := by simp [State.setBlock]
@[simp] theorem State.showErase_agenda (s : State) : s.showErase.agenda = s.agenda := by simp [State.showErase]
@[simp] theorem State.directory_agenda (s : State) : s.directory.agenda = s.agenda := by simp [State.directory]
@[simp] theorem State.areaReadOnly_agenda (s : State) (b) : (s.areaReadOnly b).agenda = s.agenda := by simp [State.areaReadOnly]
@[simp] theorem State.retire_agenda (s : State) (b) : (s.retire b).agenda = s.agenda := by simp [State.retire]
@[simp] theorem State.startErase_agenda (s : State) (b) : (s.startErase b).1.agenda = s.agenda := by simp [State.startErase]
@[simp] theorem State.program_agenda (s : State) (b) : (s.program b).agenda = s.agenda := by simp [State.program]
@[simp] theorem State.areaRecord_agenda (s : State) (first n) : (s.areaRecord first n).agenda = s.agenda := by simp [State.areaRecord]
@[simp] theorem State.journal_agenda (s : State) : s.journal.agenda = s.agenda := by simp [State.journal]

@[simp] theorem State.nvmRead_agenda (s : State) (corrected uncorr) : (s.nvmRead corrected uncorr).agenda = s.agenda := by
  unfold State.nvmRead
  split <;> simp

@[simp] theorem State.suspendErases_agenda (s : State) : s.suspendErases.agenda = s.agenda := by simp [State.suspendErases]
@[simp] theorem State.recordFail_agenda (s : State) (slot x) : (s.recordFail slot x).agenda = s.agenda := by simp [State.recordFail]

/-! ### What lies in the stacks -/

@[simp] theorem State.setMem_agenda (s : State) (g : MemState → MemState) : (s.setMem g).agenda = s.agenda := by simp [State.setMem]
@[simp] theorem State.setSeal_agenda (s : State) (g : SealState → SealState) : (s.setSeal g).agenda = s.agenda := by simp [State.setSeal]
@[simp] theorem State.putRaw_agenda (s : State) (l v) : (s.putRaw l v).agenda = s.agenda := by simp [State.putRaw]
@[simp] theorem State.putSealed_agenda (s : State) (l v) : (s.putSealed l v).agenda = s.agenda := by simp [State.putSealed]
@[simp] theorem State.putLine_agenda (s : State) (l v) : (s.putLine l v).agenda = s.agenda := by simp [State.putLine]
@[simp] theorem State.tagNode_agenda (s : State) (level stack i) : (s.tagNode level stack i).agenda = s.agenda := by simp [State.tagNode]

/-! ### What the store holds -/

@[simp] theorem State.setStore_agenda (s : State) (g : StoreState → StoreState) : (s.setStore g).agenda = s.agenda := by simp [State.setStore]
@[simp] theorem State.updVol_agenda (s : State) (uid) (g : Volume → Volume) : (s.updVol uid g).agenda = s.agenda := by simp [State.updVol]
@[simp] theorem State.showStore_agenda (s : State) : s.showStore.agenda = s.agenda := by simp [State.showStore]
@[simp] theorem State.writeRoot_agenda (s : State) (r) : (s.writeRoot r).agenda = s.agenda := by simp [State.writeRoot]
@[simp] theorem State.storeErr_agenda (s : State) (f uid) : (s.storeErr f uid).agenda = s.agenda := by simp [State.storeErr]
@[simp] theorem State.bringUp_agenda (s : State) (port nsid v) : (s.bringUp port nsid v).agenda = s.agenda := by simp [State.bringUp]
@[simp] theorem State.driveUp_agenda (s : State) (port d) : (s.driveUp port d).agenda = s.agenda := by simp [State.driveUp]
@[simp] theorem State.volDown_agenda (s : State) (uid) : (s.volDown uid).agenda = s.agenda := by simp [State.volDown]
@[simp] theorem State.startCommit_agenda (s : State) (uid closing) : (s.startCommit uid closing).agenda = s.agenda := by simp [State.startCommit]
@[simp] theorem State.abandonCommit_agenda (s : State) (uid) : (s.abandonCommit uid).agenda = s.agenda := by simp [State.abandonCommit]
@[simp] theorem State.firstRoot_agenda (s : State) (uid blocks) : (s.firstRoot uid blocks).agenda = s.agenda := by simp [State.firstRoot]
@[simp] theorem State.writeNodes_agenda (s : State) (v) : (s.writeNodes v).agenda = s.agenda := by simp [State.writeNodes]
@[simp] theorem State.endCommit_agenda (s : State) (v) : (s.endCommit v).agenda = s.agenda := by simp [State.endCommit]

@[simp] theorem State.rebuildNodes_agenda (s : State) (uid) : (s.rebuildNodes uid).agenda = s.agenda := by
  unfold State.rebuildNodes
  split <;> simp

@[simp] theorem State.cacheNodes_agenda (s : State) (v b) : (s.cacheNodes v b).agenda = s.agenda := by simp [State.cacheNodes]
@[simp] theorem State.blockFails_agenda (s : State) (v) : (s.blockFails v).agenda = s.agenda := by simp [State.blockFails]

/-! ### What every firmware service shares -/

@[simp] theorem State.createAt_agenda (s : State) (kind i m) : (s.createAt kind i m).agenda = s.agenda := by simp [State.createAt]
@[simp] theorem State.destroy_agenda (s : State) (kind i) : (s.destroy kind i).agenda = s.agenda := by simp [State.destroy]
@[simp] theorem State.destroyAll_agenda (s : State) : s.destroyAll.agenda = s.agenda := by simp [State.destroyAll]
@[simp] theorem State.abandonVolumes_agenda (s : State) (m) : (s.abandonVolumes m).agenda = s.agenda := by simp [State.abandonVolumes]
@[simp] theorem State.stall_agenda (s : State) (L d) : (s.stall L d).agenda = s.agenda := by simp [State.stall]

@[simp] theorem State.withBody_agenda (s : State) (L o) (g : List Byte → State) (hg : ∀ a, (g a).agenda = s.agenda) :
    (s.withBody L o g).agenda = s.agenda := by
  simp only [State.withBody]
  (repeat' split) <;> simp [hg]

@[simp] theorem State.serve_agenda (s : State) (L o exempt g) (hg : ∀ a t, (g a t).1.agenda = t.agenda) : (s.serve L o exempt g).agenda = s.agenda := by
  simp [State.serve, hg]

@[simp] theorem State.stalls_agenda (s t : State) (L d) (ht : t.agenda = s.agenda) : ((s.stalls L d).getD t).agenda = s.agenda := by
  unfold State.stalls
  (repeat' split) <;> simp [ht]

@[simp] theorem State.serveIn_agenda (s : State) (L o) (d : List Byte → Option ℕ) (g) (hg : ∀ a t, (g a t).1.agenda = t.agenda) :
    (s.serveIn L o d g).agenda = s.agenda := s.withBody_agenda L o _ fun _ => s.stalls_agenda _ L _ (s.serve_agenda L o false g hg)

@[simp] theorem State.beginLate_agenda (s : State) (L) : (s.beginLate L).agenda = s.agenda := by simp [State.beginLate]

@[simp] theorem State.serveLate_agenda (s : State) (L o) (d : List Byte → Option ℕ) (g : List Byte → State → State × Option Reply)
    (hg : ∀ a t, (g a t).1.agenda = t.agenda) :
    (s.serveLate L o d g).agenda = s.agenda := by
  refine s.withBody_agenda L o _ fun body => s.stalls_agenda _ L _ ?_
  have hbody := hg body s
  split <;> simp_all

@[simp] theorem refuse_agenda (s : State) (L st) : (refuse s L st).1.agenda = s.agenda := by simp [refuse]
@[simp] theorem refuseHeld_agenda (s : State) (L holder) : (refuseHeld s L holder).1.agenda = s.agenda := by simp [refuseHeld]
@[simp] theorem okBody_agenda (s : State) (L body) : (okBody s L body).1.agenda = s.agenda := by simp [okBody]
@[simp] theorem State.accept_agenda (s : State) (L object args) : (s.accept L object args).agenda = s.agenda := by simp [State.accept]
@[simp] theorem accepted_agenda (s : State) (L object args) : (accepted s L object args).1.agenda = s.agenda := by simp [accepted]
@[simp] theorem State.postCompletion_agenda (s : State) (L bytes) : (s.postCompletion L bytes).agenda = s.agenda := by simp [State.postCompletion]

@[simp] theorem State.complete_agenda (s : State) (o st handle postmark body) : (s.complete o st handle postmark body).agenda = s.agenda := by
  simp [State.complete]

@[simp] theorem State.completeOn_agenda (s : State) (opcode object st body) : (s.completeOn opcode object st body).agenda = s.agenda := by
  unfold State.completeOn
  split <;> simp

@[simp] theorem State.completeAll_agenda (s : State) (opcode object st body) : (s.completeAll opcode object st body).agenda = s.agenda := by
  simp [State.completeAll]

@[simp] theorem State.serveThen_agenda (s : State) (L o exempt g) (h : PendingOp → State → State) (hg : ∀ a t, (g a t).1.agenda = t.agenda)
    (hh : ∀ a t, (h a t).agenda = t.agenda) :
    (s.serveThen L o exempt g h).agenda = s.agenda := by
  simp only [State.serveThen]
  (repeat' split) <;> simp [hg, hh]

@[simp] theorem State.cancelOps_agenda (s : State) (p : PendingOp → Bool) : (s.cancelOps p).agenda = s.agenda := by simp [State.cancelOps]

/-! ### Ring weights, series and leases, the audit log -/

@[simp] theorem State.setRing_agenda (s : State) (r x) : (s.setRing r x).agenda = s.agenda := by simp [State.setRing]
@[simp] theorem State.ringSend_agenda (s : State) (r kind data) : (s.ringSend r kind data).agenda = s.agenda := by simp [State.ringSend]
@[simp] theorem State.setLease_agenda (s : State) (g : LeaseState → LeaseState) : (s.setLease g).agenda = s.agenda := by simp [State.setLease]
@[simp] theorem State.stage_agenda (s : State) (a log) : (s.stage a log).agenda = s.agenda := by simp [State.stage]

@[simp] theorem State.audit_agenda (s : State) (series kind ident count flags ch pm) : (s.audit series kind ident count flags ch pm).agenda = s.agenda := by
  simp [State.audit]

@[simp] theorem State.stageUnbound_agenda (s : State) (series) : (s.stageUnbound series).agenda = s.agenda := by simp [State.stageUnbound]
@[simp] theorem State.updLease_agenda (s : State) (idx) (g : Lease → Lease) : (s.updLease idx g).agenda = s.agenda := by simp [State.updLease]

theorem State.drawIdent_agenda {s : State} {series proof r} (h : s.drawIdent series proof = some r) : r.1.agenda = s.agenda := by
  simp only [State.drawIdent] at h
  (repeat' split at h) <;> cases h <;> simp

@[simp] theorem State.returnIdent_agenda (s : State) (i) : (s.returnIdent i).agenda = s.agenda := by
  unfold State.returnIdent
  split <;> simp

@[simp] theorem State.outcome_agenda (s : State) (i kind ch pm) : (s.outcome i kind ch pm).agenda = s.agenda := by
  unfold State.outcome
  split <;> simp

@[simp] theorem State.raiseHigh_agenda (s : State) (series h) : (s.raiseHigh series h).agenda = s.agenda := by
  unfold State.raiseHigh
  split <;> simp

@[simp] theorem State.dropReq_agenda (s : State) (series) : (s.dropReq series).agenda = s.agenda := by simp [State.dropReq]

@[simp] theorem State.refuseLease_agenda (s : State) (series letter st) : (s.refuseLease series letter st).agenda = s.agenda := by
  unfold State.refuseLease
  split <;> simp

@[simp] theorem State.grantLease_agenda (s : State) (q) : (s.grantLease q).agenda = s.agenda := by
  simp only [State.grantLease]
  (repeat' split) <;> simp

@[simp] theorem State.propose_agenda (s : State) (q) : (s.propose q).agenda = s.agenda := by
  unfold State.propose
  split <;> simp

@[simp] theorem State.startLease_agenda (s : State) (series wanted letter) : (s.startLease series wanted letter).agenda = s.agenda := by
  simp [State.startLease]

@[simp] theorem State.autoLease_agenda (s : State) (series) : (s.autoLease series).agenda = s.agenda := by
  unfold State.autoLease
  split <;> simp

@[simp] theorem State.lowWater_agenda (s : State) (series) : (s.lowWater series).agenda = s.agenda := by simp [State.lowWater]

/-! ### The clockless fabric as an image configures it -/

@[simp] theorem State.setCell_agenda (s : State) (n i c) : (s.setCell n i c).agenda = s.agenda := by simp [State.setCell]

@[simp] theorem State.setSite_agenda (s : State) (x t) : (s.setSite x t).agenda = s.agenda := by
  simp only [State.setSite]
  (repeat' split) <;> simp

@[simp] theorem State.setTree_agenda (s : State) (t x) : (s.setTree t x).agenda = s.agenda := by simp [State.setTree]

@[simp] theorem State.releaseFrom_agenda (s : State) (a) : (s.releaseFrom a).agenda = s.agenda := by
  simp only [State.releaseFrom]
  (repeat' split) <;> simp

@[simp] theorem State.settleToken_agenda (s : State) (l) : (s.settleToken l).agenda = s.agenda := by simp [State.settleToken]
@[simp] theorem State.takeTokens_agenda (s : State) (x ls) : (s.takeTokens x ls).agenda = s.agenda := by simp [State.takeTokens]
@[simp] theorem State.codeErrors_agenda (s : State) (n k) : (s.codeErrors n k).agenda = s.agenda := by simp [State.codeErrors]
@[simp] theorem State.pulseTree_agenda (s : State) (t) : (s.pulseTree t).agenda = s.agenda := by simp [State.pulseTree]
@[simp] theorem State.treeLevel_agenda (s : State) (t b) : (s.treeLevel t b).agenda = s.agenda := by simp [State.treeLevel]

/-! ### What a sorter holds -/

@[simp] theorem State.setSrt_agenda (s : State) (n x) : (s.setSrt n x).agenda = s.agenda := by simp [State.setSrt]

@[simp] theorem State.srtDiscard_agenda (s : State) (n flag cnt) : (s.srtDiscard n flag cnt).agenda = s.agenda := by
  unfold State.srtDiscard
  split <;> simp

@[simp] theorem State.insertCore_agenda (s : State) (n raw) : (s.insertCore n raw).1.agenda = s.agenda := by
  simp only [State.insertCore]
  (repeat' split) <;> simp

@[simp] theorem State.takeEntry_agenda (s : State) (n e) : (s.takeEntry n e).agenda = s.agenda := by simp [State.takeEntry]
@[simp] theorem State.disarm_agenda (s : State) (a) : (s.disarm a).agenda = s.agenda := by simp [State.disarm]
@[simp] theorem State.disarmAll_agenda (s : State) (p : Armed → Bool) : (s.disarmAll p).agenda = s.agenda := by simp [State.disarmAll]
@[simp] theorem State.flushSorter_agenda (s : State) (n) : (s.flushSorter n).1.agenda = s.agenda := by simp [State.flushSorter]
@[simp] theorem State.noteRelease_agenda (s : State) (n) : (s.noteRelease n).agenda = s.agenda := by simp [State.noteRelease]
@[simp] theorem State.intoGate_agenda (s : State) (n g late e) : (s.intoGate n g late e).agenda = s.agenda := by simp [State.intoGate]
@[simp] theorem State.delayGates_agenda (s : State) (n) : (s.delayGates n).agenda = s.agenda := by simp [State.delayGates]

@[simp] theorem State.agentReply_agenda (s : State) (a p r st) : (s.agentReply a p r st).agenda = s.agenda := by
  unfold State.agentReply
  split <;> simp

@[simp] theorem State.setPort_agenda (s : State) (a p l) : (s.setPort a p l).agenda = s.agenda := by simp [State.setPort]

@[simp] theorem State.releaseReplies_agenda (s : State) (a p l) : (s.releaseReplies a p l).agenda = s.agenda := by
  fun_induction State.releaseReplies <;> simp_all

@[simp] theorem State.streamDone_agenda (s : State) (tag) : (s.streamDone tag).agenda = s.agenda := by simp [State.streamDone]

/-! ### What the timed pins hold and show -/

@[simp] theorem State.setPlc_agenda (s : State) (c x) : (s.setPlc c x).agenda = s.agenda := by simp [State.setPlc]
@[simp] theorem State.setPhase_agenda (s : State) (ph) : (s.setPhase ph).agenda = s.agenda := by simp [State.setPhase]

@[simp] theorem State.keepPin_agenda (s : State) (p) : (s.keepPin p).agenda = s.agenda := by
  unfold State.keepPin
  split <;> simp

@[simp] theorem State.showSink_agenda (s : State) (k) : (s.showSink k).agenda = s.agenda := by
  unfold State.showSink
  split <;> simp

@[simp] theorem State.keepLevels_agenda (s : State) : s.keepLevels.agenda = s.agenda := by simp [State.keepLevels]
@[simp] theorem State.refreshPins_agenda (s : State) : s.refreshPins.agenda = s.agenda := by simp [State.refreshPins]

@[simp] theorem State.sampleBank_agenda (s : State) (b) : (s.sampleBank b).agenda = s.agenda := by
  unfold State.sampleBank
  split
  · rfl
  · refine s.each_agenda _ _ fun k t => ?_
    split <;> simp

@[simp] theorem State.holdBank_agenda (s : State) (b) : (s.holdBank b).agenda = s.agenda := by simp [State.holdBank]
@[simp] theorem State.badActAt_agenda (s : State) (n) : (s.badActAt n).agenda = s.agenda := by simp [State.badActAt]
@[simp] theorem State.cellLate_agenda (s : State) (c) : (s.cellLate c).agenda = s.agenda := by simp [State.cellLate]
@[simp] theorem State.cellUncal_agenda (s : State) (c) : (s.cellUncal c).agenda = s.agenda := by simp [State.cellUncal]
@[simp] theorem State.refreshUncal_agenda (s : State) (p) : (s.refreshUncal p).agenda = s.agenda := by simp [State.refreshUncal]
@[simp] theorem State.cellEnable_agenda (s : State) (c en) : (s.cellEnable c en).agenda = s.agenda := by simp [State.cellEnable]
@[simp] theorem State.mapSource_agenda (s : State) (k v) : (s.mapSource k v).agenda = s.agenda := by simp [State.mapSource]

/-! ### What a channel holds -/

@[simp] theorem State.setChan_agenda (s : State) (c x) : (s.setChan c x).agenda = s.agenda := by simp [State.setChan]
@[simp] theorem State.updChan_agenda (s : State) (c) (g : Channel → Channel) : (s.updChan c g).agenda = s.agenda := by simp [State.updChan]

@[simp] theorem State.express_agenda (s : State) (l code data) : (s.express l code data).agenda = s.agenda := by
  unfold State.express
  split <;> simp

@[simp] theorem State.dropPartial_agenda (s : State) (l) : (s.dropPartial l).agenda = s.agenda := by simp [State.dropPartial]

@[simp] theorem State.makeReport_agenda (s : State) (c reason at_ resource) : (s.makeReport c reason at_ resource).1.agenda = s.agenda := by
  simp [State.makeReport]

@[simp] theorem State.reportNotice_agenda (s : State) (c reason at_ resource) : (s.reportNotice c reason at_ resource).agenda = s.agenda := by
  simp [State.reportNotice]

@[simp] theorem State.completeReport_agenda (s : State) (c opcode reason at_ resource st) :
    (s.completeReport c opcode reason at_ resource st).agenda = s.agenda := by
  unfold State.completeReport
  split <;> simp

@[simp] theorem State.dropEvents_agenda (s : State) (c pms) : (s.dropEvents c pms).agenda = s.agenda := by simp [State.dropEvents]
@[simp] theorem State.dropLines_agenda (s : State) (c l) (p : ℕ → Bool) : (s.dropLines c l p).agenda = s.agenda := by simp [State.dropLines]

@[simp] theorem State.recordOutcome_agenda (s : State) (c p kind) : (s.recordOutcome c p kind).agenda = s.agenda := by
  unfold State.recordOutcome
  split <;> simp

@[simp] theorem State.inhibit_agenda (s : State) (c cause) : (s.inhibit c cause).agenda = s.agenda := by simp [State.inhibit]
@[simp] theorem State.rejectMissed_agenda (s : State) (c p) : (s.rejectMissed c p).agenda = s.agenda := by simp [State.rejectMissed]
@[simp] theorem State.countUnderrun_agenda (s : State) (c) : (s.countUnderrun c).agenda = s.agenda := by simp [State.countUnderrun]
@[simp] theorem State.underPolicy_agenda (s : State) (c) : (s.underPolicy c).agenda = s.agenda := by simp [State.underPolicy]
@[simp] theorem State.noteMark_agenda (s : State) (c p) : (s.noteMark c p).agenda = s.agenda := by simp [State.noteMark]
@[simp] theorem State.rejectDiscarded_agenda (s : State) (c p result) : (s.rejectDiscarded c p result).agenda = s.agenda := by simp [State.rejectDiscarded]

@[simp] theorem State.scheduleReject_agenda (s : State) (c p) : (s.scheduleReject c p).agenda = s.agenda := by
  simp only [State.scheduleReject]
  (repeat' split) <;> simp

@[simp] theorem State.recordKnown_agenda (s : State) (c) : (s.recordKnown c).agenda = s.agenda := by simp [State.recordKnown]

@[simp] theorem State.settle_agenda (s : State) (c) : (s.settle c).agenda = s.agenda := by
  refine State.each_agenda_of (by simp) fun a t => ?_
  dsimp only
  (repeat' split) <;> simp

@[simp] theorem State.markProduct_agenda (s : State) (c i) : (s.markProduct c i).agenda = s.agenda := by
  unfold State.markProduct
  split <;> simp

@[simp] theorem State.pumpLate_agenda (s : State) (m) : (s.pumpLate m).agenda = s.agenda := by
  refine State.each_agenda_of (by simp) fun a t => ?_
  dsimp only
  (repeat' split) <;> simp

@[simp] theorem State.underrun_agenda (s : State) (c reject pm) : (s.underrun c reject pm).agenda = s.agenda := by
  simp only [State.underrun]
  (repeat' split) <;> simp

@[simp] theorem State.insertEntry_agenda (s : State) (n raw) : (s.insertEntry n raw).1.agenda = s.agenda := by
  simp only [State.insertEntry]
  (repeat' split) <;> simp

@[simp] theorem State.streamIn_agenda (s : State) (n l) : (s.streamIn n l).agenda = s.agenda := by
  induction l generalizing s with
  | nil => simp [State.streamIn]
  | cons raw l ih => simp [State.streamIn, ih]

@[simp] theorem State.srtSpace_agenda (s : State) (n) : (s.srtSpace n).agenda = s.agenda := by simp [State.srtSpace]
@[simp] theorem State.dropEntries_agenda (s : State) (c n) (p : Entry → Bool) : (s.dropEntries c n p).agenda = s.agenda := by simp [State.dropEntries]

@[simp] theorem State.lateAction_agenda (s : State) (k n pm) : (s.lateAction k n pm).agenda = s.agenda := by
  simp only [State.lateAction]
  (repeat' split) <;> simp

@[simp] theorem State.eventDone_agenda (s : State) (c reject consumes pm) : (s.eventDone c reject consumes pm).agenda = s.agenda := by simp [State.eventDone]

@[simp] theorem State.discardProducts_agenda (s : State) (c ending) (pick : Product → Bool) : (s.discardProducts c ending pick).agenda = s.agenda := by
  unfold State.discardProducts
  extract_lets lost gone s1 drop s2 spare s3
  have h1 : s1.agenda = s.agenda := s.each_agenda _ _ fun p t => by (repeat' split) <;> simp
  simp [s3, s2, h1]

@[simp] theorem State.restoreMap_agenda (s : State) (c k) : (s.restoreMap c k).agenda = s.agenda := by
  unfold State.restoreMap
  split <;> simp

@[simp] theorem State.flushInto_agenda (n) (s : State) (i j) : (State.flushInto n s i j).agenda = s.agenda := by
  induction n generalizing s with
  | zero => rfl
  | succ n ih => simp [State.flushInto, ih]

@[simp] theorem State.freeSorter_agenda (s : State) (c n) : (s.freeSorter c n).agenda = s.agenda := by simp [State.freeSorter]

@[simp] theorem State.freeBinding_agenda (s : State) (c b) : (s.freeBinding c b).agenda = s.agenda := by
  unfold State.freeBinding
  split <;> simp

@[simp] theorem State.endChannel_agenda (s : State) (c) : (s.endChannel c).agenda = s.agenda := by simp [State.endChannel]

@[simp] theorem State.inhibitAxis_agenda (s : State) (a cause) (p : Channel → Bool) : (s.inhibitAxis a cause p).agenda = s.agenda := by
  simp [State.inhibitAxis]

end Sys2Proof.Machine
end

section
/-! PROOFS. The agenda under stacked memory, positions, links, agents, the Postroom and the store. -/

namespace Sys2Proof.Machine

/-! ### Stacked memory as its homes read and write it -/

@[simp] theorem State.showRoots_agenda (s : State) : s.showRoots.agenda = s.agenda := by simp [State.showRoots]
@[simp] theorem State.raiseRoot_agenda (s : State) (stack g) : (s.raiseRoot stack g).agenda = s.agenda := by simp [State.raiseRoot]
@[simp] theorem State.raiseParent_agenda (s : State) (level stack i) : (s.raiseParent level stack i).agenda = s.agenda := by simp [State.raiseParent]
@[simp] theorem State.writeNode_agenda (s : State) (level stack i) : (s.writeNode level stack i).agenda = s.agenda := by simp [State.writeNode]
@[simp] theorem State.dropMeta_agenda (s : State) (k) : (s.dropMeta k).agenda = s.agenda := by simp [State.dropMeta]
@[simp] theorem State.evictMeta_agenda (s : State) (stack l) : (s.evictMeta stack l).agenda = s.agenda := by simp [State.evictMeta]
@[simp] theorem State.cacheMeta_agenda (s : State) (ks) : (s.cacheMeta ks).agenda = s.agenda := by simp [State.cacheMeta]
@[simp] theorem State.flushMeta_agenda (s : State) : s.flushMeta.agenda = s.agenda := by simp [State.flushMeta]
@[simp] theorem State.sealFail_agenda (s : State) (l group uncorr) : (s.sealFail l group uncorr).agenda = s.agenda := by simp [State.sealFail]
@[simp] theorem State.stackUncorr_agenda (s : State) (l) : (s.stackUncorr l).agenda = s.agenda := by simp [State.stackUncorr]
@[simp] theorem State.stackCorr_agenda (s : State) (l) : (s.stackCorr l).agenda = s.agenda := by simp [State.stackCorr]
@[simp] theorem State.touchMeta_agenda (s : State) (l t) : (s.touchMeta l t).agenda = s.agenda := by simp [State.touchMeta]
@[simp] theorem State.memRead_agenda (s : State) (l t x) : (s.memRead l t x).1.agenda = s.agenda := by simp [State.memRead]
@[simp] theorem State.checkHeld_agenda (s : State) (j) : (s.checkHeld j).agenda = s.agenda := by simp [State.checkHeld]
@[simp] theorem State.reencrypt_agenda (s : State) (l) : (s.reencrypt l).agenda = s.agenda := by simp [State.reencrypt]
@[simp] theorem State.countWrite_agenda (s : State) (l) : (s.countWrite l).agenda = s.agenda := by simp [State.countWrite]
@[simp] theorem State.memWrite_agenda (s : State) (l v t x) : (s.memWrite l v t x).1.agenda = s.agenda := by simp [State.memWrite]
@[simp] theorem State.zeroGranule_agenda (s : State) (g) : (s.zeroGranule g).agenda = s.agenda := by simp [State.zeroGranule]
@[simp] theorem State.sealGranule_agenda (s : State) (g) : (s.sealGranule g).agenda = s.agenda := by simp [State.sealGranule]
@[simp] theorem State.unsealGranule_agenda (s : State) (g) : (s.unsealGranule g).agenda = s.agenda := by simp [State.unsealGranule]
@[simp] theorem State.rebuildSealed_agenda (s : State) : s.rebuildSealed.agenda = s.agenda := by simp [State.rebuildSealed]

/-! ### The homes of stacked memory -/

@[simp] theorem State.fillMsgs_agenda (s : State) (k toHome) : (s.fillMsgs k toHome).agenda = s.agenda := by simp [State.fillMsgs]
@[simp] theorem State.post_agenda (s : State) (kind who l data aux) : (s.post kind who l data aux).agenda = s.agenda := by simp [State.post]
@[simp] theorem State.leaveQueue_agenda (s : State) (m) : (s.leaveQueue m).agenda = s.agenda := by simp [State.leaveQueue]
@[simp] theorem State.unpost_agenda (s : State) (m) : (s.unpost m).agenda = s.agenda := by simp [State.unpost]
@[simp] theorem State.dropMsgs_agenda (s : State) (p : Msg → Bool) : (s.dropMsgs p).agenda = s.agenda := by simp [State.dropMsgs]
@[simp] theorem State.openMsgs_agenda (s : State) (k) : (s.openMsgs k).agenda = s.agenda := by simp [State.openMsgs]
@[simp] theorem State.setCached_agenda (s : State) (a l x) : (s.setCached a l x).agenda = s.agenda := by simp [State.setCached]
@[simp] theorem State.setDir_agenda (s : State) (l d) : (s.setDir l d).agenda = s.agenda := by simp [State.setDir]
@[simp] theorem State.showHome_agenda (s : State) (k) : (s.showHome k).agenda = s.agenda := by simp [State.showHome]
@[simp] theorem State.took_agenda (s : State) (l r) : (s.took l r).agenda = s.agenda := by simp [State.took]

@[simp] theorem State.fetch_agenda (s : State) (l r a) : (s.fetch l r a).1.agenda = s.agenda := by
  unfold State.fetch
  split <;> simp

@[simp] theorem State.snoop_agenda (s : State) (kind l req discard agents) : (s.snoop kind l req discard agents).agenda = s.agenda := by simp [State.snoop]
@[simp] theorem State.allocate_agenda (s : State) (d) : (s.allocate d).1.agenda = s.agenda := by simp [State.allocate]

@[simp] theorem State.grant_agenda (s : State) (l r msg data aux st sharers owner) : (s.grant l r msg data aux st sharers owner).agenda = s.agenda := by
  simp [State.grant]

@[simp] theorem State.finishNoGrant_agenda (s : State) (l r msg data status) : (s.finishNoGrant l r msg data status).agenda = s.agenda := by
  simp [State.finishNoGrant]

@[simp] theorem State.endShared_agenda (s : State) (l r a sharers) : (s.endShared l r a sharers).agenda = s.agenda := by simp [State.endShared]
@[simp] theorem State.endOwn_agenda (s : State) (l r a dirty) : (s.endOwn l r a dirty).agenda = s.agenda := by simp [State.endOwn]
@[simp] theorem State.endCur_agenda (s : State) (l r a) : (s.endCur l r a).agenda = s.agenda := by simp [State.endCur]
@[simp] theorem State.endPtl_agenda (s : State) (l r a) : (s.endPtl l r a).agenda = s.agenda := by simp [State.endPtl]

@[simp] theorem State.beginReq_agenda (s : State) (l r a) : (s.beginReq l r a).agenda = s.agenda := by
  simp only [State.beginReq]
  (repeat' split) <;> simp

@[simp] theorem State.recall_agenda (s : State) (l discard) : (s.recall l discard).agenda = s.agenda := by simp [State.recall]

@[simp] theorem State.serveLine_agenda (n) (s : State) (i) : (State.serveLine n s i).agenda = s.agenda := by
  induction n generalizing s with
  | zero => rfl
  | succ n ih =>
    simp only [State.serveLine]
    (repeat' split) <;> simp [ih]

@[simp] theorem State.serveSet_agenda (s : State) (l) : (s.serveSet l).agenda = s.agenda := by simp [State.serveSet]

@[simp] theorem State.ioRead_agenda (s : State) (who l) : (s.ioRead who l).1.agenda = s.agenda := by
  simp only [State.ioRead]
  (repeat' split) <;> simp

@[simp] theorem readLines_agenda (who l) (s : State) : (readLines who l s).1.agenda = s.agenda := by
  induction l generalizing s with
  | nil => rfl
  | cons a l ih => simp [readLines, ih]

@[simp] theorem State.readBytes_agenda (s : State) (who a n) : (s.readBytes who a n).1.agenda = s.agenda := by simp [State.readBytes]

@[simp] theorem State.ioLine_agenda (s : State) (who l data mask) : (s.ioLine who l data mask).agenda = s.agenda := by
  simp only [State.ioLine]
  (repeat' split) <;> simp

@[simp] theorem State.doWrite_agenda (s : State) (w) : (s.doWrite w).agenda = s.agenda := by
  unfold State.doWrite
  split <;> simp

@[simp] theorem pumpFrom_agenda (l a) (s : State) : (pumpFrom l a s).1.agenda = s.agenda := by fun_induction pumpFrom <;> simp_all
@[simp] theorem State.pumpWrites_agenda (s : State) : s.pumpWrites.agenda = s.agenda := by simp [State.pumpWrites]
@[simp] theorem State.recallConverting_agenda (s : State) (l) : (s.recallConverting l).agenda = s.agenda := by simp [State.recallConverting]
@[simp] theorem State.serveNext_agenda (s : State) (l) : (s.serveNext l).agenda = s.agenda := by simp [State.serveNext]
@[simp] theorem State.serveStack_agenda (s : State) (k) : (s.serveStack k).agenda = s.agenda := by simp [State.serveStack]

theorem State.arrived_agenda {s t : State} {l r q} (h : s.arrived l r = some (t, q)) : t.agenda = s.agenda := by
  unfold State.arrived at h
  (repeat' split at h) <;> cases h <;> simp

@[simp] theorem State.gather_agenda (s : State) (l a) : (s.gather l a).1.agenda = s.agenda := by
  induction a generalizing s with
  | nil => rfl
  | cons r a ih =>
    simp only [State.gather]
    split
    · exact ih s
    · next t _ h => exact (ih t).trans (State.arrived_agenda h)

@[simp] theorem State.enqueue_agenda (s : State) (l rs) : (s.enqueue l rs).agenda = s.agenda := by simp [State.enqueue]
@[simp] theorem State.queueUp_agenda (s : State) (l rs) : (s.queueUp l rs).agenda = s.agenda := by simp [State.queueUp]
@[simp] theorem State.takeIn_agenda (s : State) (l rs) : (s.takeIn l rs).agenda = s.agenda := by simp [State.takeIn]
@[simp] theorem State.request_agenda (s : State) (l rs) : (s.request l rs).agenda = s.agenda := by simp [State.request]
@[simp] theorem State.ackOwner_agenda (s : State) (l x) : (s.ackOwner l x).agenda = s.agenda := by simp [State.ackOwner]

@[simp] theorem State.endTxn_agenda (s : State) (l x) : (s.endTxn l x).agenda = s.agenda := by
  simp only [State.endTxn]
  (repeat' split) <;> simp

@[simp] theorem State.settleTxn_agenda (s : State) (l) : (s.settleTxn l).agenda = s.agenda := by
  unfold State.settleTxn
  split <;> simp

@[simp] theorem State.answer_agenda (s : State) (l who data pending) : (s.answer l who data pending).agenda = s.agenda := by
  unfold State.answer
  split <;> simp

@[simp] theorem State.stray_agenda (s : State) (l who) : (s.stray l who).agenda = s.agenda := by simp [State.stray]

@[simp] theorem State.giveUp_agenda (s : State) (l who data) : (s.giveUp l who data).agenda = s.agenda := by
  simp only [State.giveUp]
  (repeat' split) <;> simp

@[simp] theorem State.disown_agenda (s : State) (a l) : (s.disown a l).agenda = s.agenda := by simp [State.disown]

@[simp] theorem State.landDirty_agenda (s : State) : s.landDirty.agenda = s.agenda := by
  refine State.each_agenda_of (by simp) fun a t => ?_
  (repeat' split) <;> simp

@[simp] theorem State.writeBackCaches_agenda (s : State) (agents) : (s.writeBackCaches agents).agenda = s.agenda := by simp [State.writeBackCaches]
@[simp] theorem State.loseCaches_agenda (s : State) (agents) : (s.loseCaches agents).agenda = s.agenda := by simp [State.loseCaches]
@[simp] theorem State.emptyHomes_agenda (s : State) : s.emptyHomes.agenda = s.agenda := by simp [State.emptyHomes]
@[simp] theorem State.emptyDirs_agenda (s : State) : s.emptyDirs.agenda = s.agenda := by simp [State.emptyDirs]
@[simp] theorem State.forgetAgents_agenda (s : State) (agents) : (s.forgetAgents agents).agenda = s.agenda := by simp [State.forgetAgents]
@[simp] theorem State.ioWrite_agenda (s : State) (who a bs shown) : (s.ioWrite who a bs shown).agenda = s.agenda := by simp [State.ioWrite]
@[simp] theorem State.firmwareWrite_agenda (s : State) (a bs) : (s.firmwareWrite a bs).agenda = s.agenda := by simp [State.firmwareWrite]
@[simp] theorem State.storeWrite_agenda (s : State) (a bs) : (s.storeWrite a bs).agenda = s.agenda := by simp [State.storeWrite]

/-! ### The crossing queues as resets see them -/

@[simp] theorem State.dropPulses_agenda (s : State) (sender receiver) : (s.dropPulses sender receiver).agenda = s.agenda := by simp [State.dropPulses]
@[simp] theorem State.setSampler_agenda (s : State) (x receiver c) : (s.setSampler x receiver c).agenda = s.agenda := by simp [State.setSampler]

@[simp] theorem State.publish_agenda (s : State) (x) : (s.publish x).agenda = s.agenda := by
  unfold State.publish
  split <;> simp

@[simp] theorem State.publishAll_agenda (s : State) : s.publishAll.agenda = s.agenda := by simp [State.publishAll]

@[simp] theorem State.firstCopy_agenda (s : State) (x) : (s.firstCopy x).agenda = s.agenda := by
  simp only [State.firstCopy]
  (repeat' split) <;> simp

@[simp] theorem State.sampled_agenda (s : State) (x receiver mix) : (s.sampled x receiver mix).agenda = s.agenda := by
  simp only [State.sampled]
  (repeat' split) <;> simp

@[simp] theorem State.dropSamplers_agenda (s : State) (d domainEnd) : (s.dropSamplers d domainEnd).agenda = s.agenda := by simp [State.dropSamplers]
@[simp] theorem State.crossAssert_agenda (s : State) (d domainEnd) : (s.crossAssert d domainEnd).agenda = s.agenda := by simp [State.crossAssert]
@[simp] theorem State.crossRelease_agenda (s : State) (d domainEnd) : (s.crossRelease d domainEnd).agenda = s.agenda := by simp [State.crossRelease]
@[simp] theorem State.poisonWaiting_agenda (s : State) (d cause) : (s.poisonWaiting d cause).agenda = s.agenda := by simp [State.poisonWaiting]

@[simp] theorem State.withdraw_agenda (s : State) (mine : Port → Bool) (side : WaitingAccess → Option ℕ) : (s.withdraw mine side).agenda = s.agenda := by
  refine State.each_agenda _ _ _ fun a t => ?_
  (repeat' split) <;> simp

@[simp] theorem State.withdrawRegion_agenda (s : State) (n) : (s.withdrawRegion n).agenda = s.agenda := by simp [State.withdrawRegion]
@[simp] theorem State.storeWord_agenda (s : State) (r i w v) : (s.storeWord r i w v).agenda = s.agenda := by simp [State.storeWord]

/-! ### Messages of the Franker that are flushed -/

@[simp] theorem State.frankerMiss_agenda (s : State) (n) : (s.frankerMiss n).agenda = s.agenda := by simp [State.frankerMiss]

@[simp] theorem State.flushMessages_agenda (s : State) (p : ℕ × ℕ → Bool) : (s.flushMessages p).agenda = s.agenda := by
  unfold State.flushMessages
  -- not simp: it would rewrite the postmark arithmetic of what is flushed
  simp only [State.frankerMiss_agenda, State.agenda_mk, State.pending_clock, State.setSrt_agenda]

@[simp] theorem State.frankerBehind_agenda (s : State) : s.frankerBehind.agenda = s.agenda := by simp [State.frankerBehind]

/-! ### Ring stops -/

@[simp] theorem State.showStops_agenda (s : State) (r) : (s.showStops r).agenda = s.agenda := by simp [State.showStops]
@[simp] theorem State.haltChannel_agenda (s : State) (c) : (s.haltChannel c).agenda = s.agenda := by simp [State.haltChannel]
@[simp] theorem State.haltAxes_agenda (s : State) (mask) : (s.haltAxes mask).agenda = s.agenda := by simp [State.haltAxes]
@[simp] theorem State.latchStop_agenda (s : State) (r x) : (s.latchStop r x).agenda = s.agenda := by simp [State.latchStop]
@[simp] theorem State.raiseStop_agenda (s : State) (r cause) : (s.raiseStop r cause).agenda = s.agenda := by simp [State.raiseStop]
@[simp] theorem State.lostHere_agenda (s : State) (a) : (s.lostHere a).agenda = s.agenda := by simp [State.lostHere]
@[simp] theorem State.lostStop_agenda (s : State) (a) : (s.lostStop a).agenda = s.agenda := by simp [State.lostStop]
@[simp] theorem State.releaseStops_agenda (s : State) (r upTo) : (s.releaseStops r upTo).agenda = s.agenda := by simp [State.releaseStops]

/-! ### Position and axes -/

@[simp] theorem State.setAx_agenda (s : State) (a x) : (s.setAx a x).agenda = s.agenda := by simp [State.setAx]
@[simp] theorem State.updAx_agenda (s : State) (a) (g : Axis → Axis) : (s.updAx a g).agenda = s.agenda := by simp [State.updAx]

@[simp] theorem State.engine_agenda (s : State) (g : State → State) (hg : ∀ t, (g t).agenda = t.agenda) : (s.engine g).agenda = s.agenda := by
  simp [State.engine, hg]

@[simp] theorem State.roundFree_agenda (s : State) (num den) : (s.roundFree num den).1.agenda = s.agenda := by simp [State.roundFree]
@[simp] theorem State.reversed_agenda (s : State) (a) : (s.reversed a).agenda = s.agenda := by simp [State.reversed]
@[simp] theorem State.moveTo_agenda (s : State) (a p) : (s.moveTo a p).agenda = s.agenda := by simp [State.moveTo]
@[simp] theorem State.lose_agenda (s : State) (a first) : (s.lose a first).agenda = s.agenda := by simp [State.lose]
@[simp] theorem State.loseRunning_agenda (s : State) (first) : (s.loseRunning first).agenda = s.agenda := by simp [State.loseRunning]
@[simp] theorem State.timebaseReturn_agenda (s : State) : s.timebaseReturn.agenda = s.agenda := by simp [State.timebaseReturn]
@[simp] theorem State.fault_agenda (s : State) (a code) : (s.fault a code).agenda = s.agenda := by simp [State.fault]
@[simp] theorem State.drEnd_agenda (s : State) (a) : (s.drEnd a).agenda = s.agenda := by simp [State.drEnd]
@[simp] theorem State.setJump_agenda (s : State) (a d) : (s.setJump a d).agenda = s.agenda := by simp [State.setJump]
@[simp] theorem State.reanchor_agenda (s : State) (a p) : (s.reanchor a p).agenda = s.agenda := by simp [State.reanchor]
@[simp] theorem State.nearest_agenda (s : State) (a p) : (s.nearest a p).1.agenda = s.agenda := by simp [State.nearest]
@[simp] theorem State.clearFaults_agenda (s : State) (a codes) : (s.clearFaults a codes).agenda = s.agenda := by simp [State.clearFaults]
@[simp] theorem State.setVel_agenda (s : State) (a num den since) : (s.setVel a num den since).agenda = s.agenda := by simp [State.setVel]

@[simp] theorem State.window_agenda (s : State) (a) : (s.window a).agenda = s.agenda := by
  simp only [State.window]
  (repeat' split) <;> simp

@[simp] theorem State.countEdge_agenda (s : State) (a t fwd) : (s.countEdge a t fwd).agenda = s.agenda := by simp [State.countEdge]

@[simp] theorem State.judgeRate_agenda (s : State) (a t) : (s.judgeRate a t).agenda = s.agenda := by
  simp only [State.judgeRate]
  (repeat' split) <;> simp

@[simp] theorem State.legalStep_agenda (s : State) (a t pairA fwdRaw q n) : (s.legalStep a t pairA fwdRaw q n).agenda = s.agenda := by simp [State.legalStep]
@[simp] theorem State.judgeStuck_agenda (s : State) (a) : (s.judgeStuck a).agenda = s.agenda := by simp [State.judgeStuck]
@[simp] theorem State.stuckRun_agenda (s : State) (a pairA) : (s.stuckRun a pairA).agenda = s.agenda := by simp [State.stuckRun]
@[simp] theorem State.axisEdge_agenda (s : State) (a t heldNs pairA level) : (s.axisEdge a t heldNs pairA level).agenda = s.agenda := by simp [State.axisEdge]

@[simp] theorem State.encoderEdge_agenda (s : State) (k pairA level t heldNs) : (s.encoderEdge k pairA level t heldNs).agenda = s.agenda := by
  simp [State.encoderEdge]

@[simp] theorem State.zOpen_agenda (s : State) (a) : (s.zOpen a).agenda = s.agenda := by simp [State.zOpen]
@[simp] theorem State.judgePair_agenda (s : State) (k p valid) : (s.judgePair k p valid).agenda = s.agenda := by simp [State.judgePair]
@[simp] theorem State.holdTravel_agenda (s : State) (a) : (s.holdTravel a).agenda = s.agenda := by simp [State.holdTravel]
@[simp] theorem State.stepEncoder_agenda (s : State) (a fwd) : (s.stepEncoder a fwd).agenda = s.agenda := by simp [State.stepEncoder]
@[simp] theorem State.zCapture_agenda (s : State) (a t) : (s.zCapture a t).agenda = s.agenda := by simp [State.zCapture]
@[simp] theorem State.zEdge_agenda (s : State) (a e) : (s.zEdge a e).agenda = s.agenda := by simp [State.zEdge]
@[simp] theorem State.beacon_agenda (s : State) (a pos vel) : (s.beacon a pos vel).agenda = s.agenda := by simp [State.beacon]

@[simp] theorem State.beaconIn_agenda (s : State) (link baxis pos vel lost) : (s.beaconIn link baxis pos vel lost).agenda = s.agenda := by
  simp [State.beaconIn]

@[simp] theorem State.judgeBeacon_agenda (s : State) (a) : (s.judgeBeacon a).agenda = s.agenda := by simp [State.judgeBeacon]
@[simp] theorem State.strobe_agenda (s : State) (k t) : (s.strobe k t).agenda = s.agenda := by simp [State.strobe]
@[simp] theorem State.strobeTick_agenda (s : State) (k) : (s.strobeTick k).agenda = s.agenda := by simp [State.strobeTick]
@[simp] theorem State.restrobe_agenda (s : State) (a) : (s.restrobe a).agenda = s.agenda := by simp [State.restrobe]
@[simp] theorem State.strobeWritten_agenda (s : State) (k) : (s.strobeWritten k).agenda = s.agenda := by simp [State.strobeWritten]
@[simp] theorem State.loadWritten_agenda (s : State) (a) : (s.loadWritten a).agenda = s.agenda := by simp [State.loadWritten]
@[simp] theorem State.startFaults_agenda (s : State) (a) : (s.startFaults a).agenda = s.agenda := by simp [State.startFaults]
@[simp] theorem State.axisLoad_agenda (s : State) (a) : (s.axisLoad a).agenda = s.agenda := by simp [State.axisLoad]
@[simp] theorem State.axisStart_agenda (s : State) (a) : (s.axisStart a).agenda = s.agenda := by simp [State.axisStart]
@[simp] theorem State.axisRecover_agenda (s : State) (a) : (s.axisRecover a).agenda = s.agenda := by simp [State.axisRecover]
@[simp] theorem State.axisStop_agenda (s : State) (a) : (s.axisStop a).agenda = s.agenda := by simp [State.axisStop]
@[simp] theorem State.axCmd_agenda (s : State) (a v) : (s.axCmd a v).agenda = s.agenda := by simp [State.axCmd]
@[simp] theorem State.axisCtl_agenda (s : State) (a v) : (s.axisCtl a v).agenda = s.agenda := by simp [State.axisCtl]
@[simp] theorem State.snapshot_agenda (s : State) : s.snapshot.agenda = s.agenda := by simp [State.snapshot]
@[simp] theorem State.readPos_agenda (s : State) (p a) : (s.readPos p a).agenda = s.agenda := by simp [State.readPos]
@[simp] theorem State.advance_agenda (s : State) (a v extra) : (s.advance a v extra).agenda = s.agenda := by simp [State.advance]
@[simp] theorem State.reportVel_agenda (s : State) (a) : (s.reportVel a).agenda = s.agenda := by simp [State.reportVel]
@[simp] theorem State.reportReckoned_agenda (s : State) (a) : (s.reportReckoned a).agenda = s.agenda := by simp [State.reportReckoned]

@[simp] theorem State.axisMotion_agenda (s : State) (a) : (s.axisMotion a).agenda = s.agenda := by
  simp only [State.axisMotion]
  (repeat' split) <;> simp

@[simp] theorem State.axisTick_agenda (s : State) (a) : (s.axisTick a).agenda = s.agenda := by simp [State.axisTick]
@[simp] theorem State.markTick_agenda (s : State) (a) : (s.markTick a).agenda = s.agenda := by simp [State.markTick]

theorem execFaultClear_answers (e) (s : State) : Answers s (execFaultClear e s) := by
  unfold execFaultClear
  split <;> simp

/-! ### What a link does with its traffic -/

@[simp] theorem State.timeLink_agenda (s : State) (m v) : (s.timeLink m v).agenda = s.agenda := by simp [State.timeLink]
@[simp] theorem State.setLinkState_agenda (s : State) (m v) : (s.setLinkState m v).agenda = s.agenda := by simp [State.setLinkState]
@[simp] theorem State.linkErrAlways_agenda (s : State) (m f) : (s.linkErrAlways m f).agenda = s.agenda := by simp [State.linkErrAlways]
@[simp] theorem State.setLaneSet_agenda (s : State) (l x) : (s.setLaneSet l x).agenda = s.agenda := by simp [State.setLaneSet]
@[simp] theorem State.showTaps_agenda (s : State) (l pre post) : (s.showTaps l pre post).agenda = s.agenda := by simp [State.showTaps]

@[simp] theorem State.moveTaps_agenda (s : State) (l t) : (s.moveTaps l t).agenda = s.agenda := by
  unfold State.moveTaps
  split <;> simp

@[simp] theorem State.lanesTrain_agenda (s : State) (lanes rate pam4 taps) : (s.lanesTrain lanes rate pam4 taps).agenda = s.agenda := by
  simp [State.lanesTrain]

@[simp] theorem State.showManual_agenda (s : State) (l) : (s.showManual l).agenda = s.agenda := by simp [State.showManual]
@[simp] theorem State.showBind_agenda (s : State) (k) : (s.showBind k).agenda = s.agenda := by simp [State.showBind]
@[simp] theorem State.showFollow_agenda (s : State) : s.showFollow.agenda = s.agenda := by simp [State.showFollow]
@[simp] theorem State.takeEndpoint_agenda (s : State) : s.takeEndpoint.agenda = s.agenda := by simp [State.takeEndpoint]

@[simp] theorem State.underruns_agenda (s : State) (lines) : (s.underruns lines).agenda = s.agenda := by
  refine State.each_agenda _ _ _ fun a t => ?_
  (repeat' split) <;> simp

@[simp] theorem State.unsent_agenda (s : State) (lines) : (s.unsent lines).agenda = s.agenda := by
  refine State.each_agenda _ _ _ fun a t => ?_
  (repeat' split) <;> simp

@[simp] theorem State.skipLine_agenda (s : State) (m l pm row) : (s.skipLine m l pm row).agenda = s.agenda := by simp [State.skipLine]

@[simp] theorem State.startLine_agenda (s : State) (m l f) : (s.startLine m l f).agenda = s.agenda := by
  simp only [State.startLine]
  (repeat' split) <;> simp

@[simp] theorem State.pumpLinkN_agenda (n) (s : State) (i) : (State.pumpLinkN n s i).agenda = s.agenda := by fun_induction State.pumpLinkN <;> simp_all
@[simp] theorem State.pumpLink_agenda (s : State) (m) : (s.pumpLink m).agenda = s.agenda := by simp [State.pumpLink]
@[simp] theorem State.laneUnit_agenda (s : State) (l vl data) : (s.laneUnit l vl data).agenda = s.agenda := by simp [State.laneUnit]
@[simp] theorem State.acknowledge_agenda (s : State) (m next) : (s.acknowledge m next).agenda = s.agenda := by simp [State.acknowledge]
@[simp] theorem State.replayFrom_agenda (s : State) (m first) : (s.replayFrom m first).agenda = s.agenda := by simp [State.replayFrom]
@[simp] theorem State.sendNak_agenda (s : State) (m) : (s.sendNak m).agenda = s.agenda := by simp [State.sendNak]
@[simp] theorem State.lostLines_agenda (s : State) (l lost) : (s.lostLines l lost).agenda = s.agenda := by simp [State.lostLines]
@[simp] theorem State.loseTraffic_agenda (s : State) (m) : (s.loseTraffic m).agenda = s.agenda := by simp [State.loseTraffic]
@[simp] theorem State.clearLink_agenda (s : State) (m) : (s.clearLink m).agenda = s.agenda := by simp [State.clearLink]
@[simp] theorem State.goDormant_agenda (s : State) (m reason) : (s.goDormant m reason).agenda = s.agenda := by simp [State.goDormant]
@[simp] theorem State.loseQueues_agenda (s : State) (m lost) (p : ℕ → Bool) : (s.loseQueues m lost p).agenda = s.agenda := by simp [State.loseQueues]
@[simp] theorem State.dormant_agenda (s : State) (m reason lost) : (s.dormant m reason lost).agenda = s.agenda := by simp [State.dormant]
@[simp] theorem State.sendTraining_agenda (s : State) (m) : (s.sendTraining m).agenda = s.agenda := by simp [State.sendTraining]
@[simp] theorem State.detect_agenda (s : State) (m) : (s.detect m).agenda = s.agenda := by simp [State.detect]
@[simp] theorem State.linkRefuse_agenda (s : State) (m) : (s.linkRefuse m).agenda = s.agenda := by simp [State.linkRefuse]

@[simp] theorem State.yieldWidth_agenda (s : State) (m) : (s.yieldWidth m).agenda = s.agenda := by
  unfold State.yieldWidth
  split <;> simp

@[simp] theorem State.equalizeLanes_agenda (s : State) (m mask code) : (s.equalizeLanes m mask code).agenda = s.agenda := by simp [State.equalizeLanes]
@[simp] theorem State.retrain_agenda (s : State) (m) : (s.retrain m).agenda = s.agenda := by simp [State.retrain]

@[simp] theorem State.sendWidth_agenda (s : State) (m mask immediate missing) : (s.sendWidth m mask immediate missing).agenda = s.agenda := by
  simp [State.sendWidth]

@[simp] theorem State.askWidth_agenda (s : State) (m mask) : (s.askWidth m mask).agenda = s.agenda := by simp [State.askWidth]

@[simp] theorem State.askAgain_agenda (s : State) (m) : (s.askAgain m).agenda = s.agenda := by
  simp only [State.askAgain]
  (repeat' split) <;> simp

@[simp] theorem State.applyMask_agenda (s : State) (m mask) : (s.applyMask m mask).agenda = s.agenda := by simp [State.applyMask]
@[simp] theorem State.nameMarker_agenda (s : State) (m mask) : (s.nameMarker m mask).agenda = s.agenda := by simp [State.nameMarker]
@[simp] theorem State.agreeWidth_agenda (s : State) (m mask) : (s.agreeWidth m mask).agenda = s.agenda := by simp [State.agreeWidth]
@[simp] theorem State.restripe_agenda (s : State) (m mask met) : (s.restripe m mask met).agenda = s.agenda := by simp [State.restripe]
@[simp] theorem State.laneFails_agenda (s : State) (m lanes) : (s.laneFails m lanes).agenda = s.agenda := by simp [State.laneFails]
@[simp] theorem State.sendHeld_agenda (s : State) (m) : (s.sendHeld m).agenda = s.agenda := by simp [State.sendHeld]

@[simp] theorem State.linkUp_agenda (s : State) (m) (replay : State → State) (hreplay : ∀ t, (replay t).agenda = t.agenda) :
    (s.linkUp m replay).agenda = s.agenda := by simp [State.linkUp, hreplay]

/-! ### The caching agents -/

@[simp] theorem State.evictLine_agenda (s : State) (a l) : (s.evictLine a l).agenda = s.agenda := by
  simp only [State.evictLine]
  (repeat' split) <;> simp

@[simp] theorem State.portStatus_agenda (s : State) (a p stack l status) : (s.portStatus a p stack l status).agenda = s.agenda := by
  simp only [State.portStatus]
  (repeat' split) <;> simp

@[simp] theorem State.tryReq_agenda (s : State) (a r) : (s.tryReq a r).1.agenda = s.agenda := by
  unfold State.tryReq
  split <;> simp

@[simp] theorem State.tryStream_agenda (s : State) (a p r) : (s.tryStream a p r).agenda = s.agenda := by simp [State.tryStream]
@[simp] theorem State.setReq_agenda (s : State) (a p i r) : (s.setReq a p i r).agenda = s.agenda := by simp [State.setReq]
@[simp] theorem State.queueStream_agenda (s : State) (a p i r) : (s.queueStream a p i r).agenda = s.agenda := by simp [State.queueStream]

@[simp] theorem State.serveReq_agenda (s : State) (a p i) : (s.serveReq a p i).agenda = s.agenda := by
  simp only [State.serveReq]
  (repeat' split) <;> simp

@[simp] theorem State.servePort_agenda (s : State) (a p) : (s.servePort a p).agenda = s.agenda := by simp [State.servePort]
@[simp] theorem State.serveAgent_agenda (s : State) (a) : (s.serveAgent a).agenda = s.agenda := by simp [State.serveAgent]
@[simp] theorem State.takeReq_agenda (s : State) (a p r) : (s.takeReq a p r).agenda = s.agenda := by simp [State.takeReq]

@[simp] theorem State.agentRequest_agenda (s : State) (a p header low high) : (s.agentRequest a p header low high).agenda = s.agenda := by
  unfold State.agentRequest
  split <;> simp

@[simp] theorem State.coreWrote_agenda (s : State) (a l wrote) : (s.coreWrote a l wrote).agenda = s.agenda := by
  unfold State.coreWrote
  split <;> simp

@[simp] theorem State.snooped_agenda (s : State) (kind a l wrote) (keep : ℕ → ℕ) : (s.snooped kind a l wrote keep).agenda = s.agenda := by
  unfold State.snooped
  split <;> simp

@[simp] theorem State.landed_agenda (s : State) (a l) (ops : AgentOp → Bool) (again status data) :
    (s.landed a l ops again status data).agenda = s.agenda := by simp [State.landed]

@[simp] theorem State.evictFrom_agenda (s : State) (a l) : (s.evictFrom a l).agenda = s.agenda := by simp [State.evictFrom]

@[simp] theorem State.makeRoom_agenda (s : State) (a l victim) : (s.makeRoom a l victim).agenda = s.agenda := by
  unfold State.makeRoom
  split <;> simp

@[simp] theorem State.install_agenda (s : State) (a l st data victim) : (s.install a l st data victim).agenda = s.agenda := by simp [State.install]
@[simp] theorem State.failed_agenda (s : State) (a l status) : (s.failed a l status).agenda = s.agenda := by simp [State.failed]

@[simp] theorem State.poisonPorts_agenda (s : State) (k cause) (p : ℕ → PortReq → Bool) : (s.poisonPorts k cause p).agenda = s.agenda := by
  simp [State.poisonPorts]

@[simp] theorem State.poisonStreams_agenda (s : State) (k cause) : (s.poisonStreams k cause).agenda = s.agenda := by simp [State.poisonStreams]

@[simp] theorem State.msgLost_agenda (s : State) (m) : (s.msgLost m).agenda = s.agenda := by
  unfold State.msgLost
  split <;> simp

@[simp] theorem State.resetHome_agenda (s : State) (k cause) : (s.resetHome k cause).agenda = s.agenda := by simp [State.resetHome]
@[simp] theorem State.resyncHome_agenda (s : State) (k) : (s.resyncHome k).agenda = s.agenda := by simp [State.resyncHome]

theorem execAgentDataS_answers (l a victim) (s : State) : Answers s (execAgentDataS l a victim s) := by
  unfold execAgentDataS
  split <;> simp

theorem execAgentDataE_answers (l a victim) (s : State) : Answers s (execAgentDataE l a victim s) := by
  unfold execAgentDataE
  split <;> simp

theorem execAgentCmp_answers (l who) (s : State) : Answers s (execAgentCmp l who s) := by
  simp only [execAgentCmp]
  (repeat' split) <;> simp

theorem execAgentWbAck_answers (l a) (s : State) : Answers s (execAgentWbAck l a s) := by
  simp only [execAgentWbAck]
  (repeat' split) <;> simp

/-! ### The Postroom -/

@[simp] theorem State.takeOne_agenda (s : State) (m) : (s.takeOne m).agenda = s.agenda := by
  simp only [State.takeOne]
  (repeat' split) <;> simp

@[simp] theorem State.takeLetters_agenda (n) (s : State) (a) : (State.takeLetters n s a).agenda = s.agenda := by fun_induction State.takeLetters <;> simp_all
@[simp] theorem State.take_agenda (s : State) (m) : (s.take m).agenda = s.agenda := by simp [State.take]
@[simp] theorem State.doorbell_agenda (s : State) (m tail) : (s.doorbell m tail).agenda = s.agenda := by simp [State.doorbell]
@[simp] theorem State.replyHead_agenda (s : State) (m head) : (s.replyHead m head).agenda = s.agenda := by simp [State.replyHead]
@[simp] theorem State.signalHost_agenda (s : State) (m) : (s.signalHost m).agenda = s.agenda := by simp [State.signalHost]
@[simp] theorem State.abandonLocks_agenda (s : State) (owner) : (s.abandonLocks owner).agenda = s.agenda := by simp [State.abandonLocks]
@[simp] theorem State.resetBox_agenda (s : State) (m) : (s.resetBox m).agenda = s.agenda := by simp [State.resetBox]
@[simp] theorem State.resetOwner_agenda (s : State) (owner) : (s.resetOwner owner).agenda = s.agenda := by simp [State.resetOwner]
@[simp] theorem State.serveRung_agenda (s : State) : s.serveRung.agenda = s.agenda := by simp [State.serveRung]
@[simp] theorem State.forgetRequests_agenda (s : State) : s.forgetRequests.agenda = s.agenda := by simp [State.forgetRequests]
@[simp] theorem State.acquire_agenda (s : State) (who i) : (s.acquire who i).1.agenda = s.agenda := by simp [State.acquire]
@[simp] theorem State.unlock_agenda (s : State) (who i) : (s.unlock who i).agenda = s.agenda := by simp [State.unlock]

@[simp] theorem svcMailboxAssign_agenda (L bytes) (s : State) : (svcMailboxAssign L bytes s).1.agenda = s.agenda := by
  simp only [svcMailboxAssign]
  (repeat' split) <;> simp

/-! ### What the channel services check and settle -/

@[simp] theorem State.takeBuffers_agenda (s : State) (c) : (s.takeBuffers c).agenda = s.agenda := by
  unfold State.takeBuffers
  split <;> simp

@[simp] theorem State.setTarget_agenda (s : State) (c n) : (s.setTarget c n).agenda = s.agenda := by
  unfold State.setTarget
  split <;> simp

@[simp] theorem State.setSorter_agenda (s : State) (c n) : (s.setSorter c n).agenda = s.agenda := by simp [State.setSorter]
@[simp] theorem State.setSorters_agenda (s : State) (c) : (s.setSorters c).agenda = s.agenda := by simp [State.setSorters]
@[simp] theorem State.proofCell_agenda (s : State) (c k) : (s.proofCell c k).agenda = s.agenda := by simp [State.proofCell]
@[simp] theorem State.proofCells_agenda (s : State) (c) : (s.proofCells c).agenda = s.agenda := by simp [State.proofCells]
@[simp] theorem State.enableSorter_agenda (s : State) (c n) : (s.enableSorter c n).agenda = s.agenda := by simp [State.enableSorter]

@[simp] theorem State.takeBinding_agenda (s : State) (c b spool) : (s.takeBinding c b spool).agenda = s.agenda := by
  simp only [State.takeBinding]
  split
  · refine State.each_agenda_of (by simp) fun m t => ?_
    split <;> simp
  all_goals simp

@[simp] theorem State.offlineChannels_agenda (s : State) : s.offlineChannels.agenda = s.agenda := by
  refine State.each_agenda _ _ _ fun a t => ?_
  dsimp only
  (repeat' split) <;> simp

@[simp] theorem State.fitMap_agenda (s : State) (c) : (s.fitMap c).agenda = s.agenda := by simp [State.fitMap]
@[simp] theorem State.tellOverlap_agenda (s : State) (c) : (s.tellOverlap c).agenda = s.agenda := by simp [State.tellOverlap]

@[simp] theorem State.putGeneration_agenda (s : State) (c g) : (s.putGeneration c g).agenda = s.agenda := by
  simp only [State.putGeneration]
  (repeat' split) <;> simp

@[simp] theorem State.setNozzle_agenda (s : State) (c n v) : (s.setNozzle c n v).agenda = s.agenda := by simp [State.setNozzle]

/-! ### The messages that reach a slice -/

@[simp] theorem State.snoopAnswer_agenda (s : State) (kind l who pending) : (s.snoopAnswer kind l who pending).agenda = s.agenda := by
  unfold State.snoopAnswer
  split <;> simp

@[simp] theorem State.resyncAgent_agenda (s : State) (k a) : (s.resyncAgent k a).agenda = s.agenda := by simp [State.resyncAgent]
@[simp] theorem State.recallGranule_agenda (s : State) (g) : (s.recallGranule g).agenda = s.agenda := by simp [State.recallGranule]
@[simp] theorem State.startConversion_agenda (s : State) (g toSealed) : (s.startConversion g toSealed).agenda = s.agenda := by simp [State.startConversion]

@[simp] theorem State.granCmd_agenda (s : State) (p v) : (s.granCmd p v).agenda = s.agenda := by
  simp only [State.granCmd]
  (repeat' split) <;> simp

@[simp] theorem State.finishConversion_agenda (s : State) (g toSealed) : (s.finishConversion g toSealed).agenda = s.agenda := by simp [State.finishConversion]

theorem execHomeWbDirty_answers (l who data same) (s : State) : Answers s (execHomeWbDirty l who data same s) := by
  simp only [execHomeWbDirty]
  (repeat' split) <;> simp

theorem execHomeEvictClean_answers (l who) (s : State) : Answers s (execHomeEvictClean l who s) := by
  simp only [execHomeEvictClean]
  (repeat' split) <;> simp

theorem execHomeCmpAck_answers (l who) (s : State) : Answers s (execHomeCmpAck l who s) := by
  simp only [execHomeCmpAck]
  (repeat' split) <;> simp

theorem execPatrolRead_answers (l ecc) (s : State) : Answers s (execPatrolRead l ecc s) := by
  unfold execPatrolRead
  split <;> simp

theorem execConversionComplete_answers (s : State) : Answers s (execConversionComplete s) := by
  unfold execConversionComplete
  split <;> simp

/-! ### The STORE and SEAL services -/

@[simp] theorem svcStoreQuery_agenda (L bytes) (s : State) : (svcStoreQuery L bytes s).1.agenda = s.agenda := by simp [svcStoreQuery]
@[simp] theorem svcStoreFormat_agenda (L bytes) (s : State) : (svcStoreFormat L bytes s).1.agenda = s.agenda := by simp [svcStoreFormat]
@[simp] theorem svcStoreVolCreate_agenda (L bytes) (s : State) : (svcStoreVolCreate L bytes s).1.agenda = s.agenda := by simp [svcStoreVolCreate]

@[simp] theorem svcStoreVolResize_agenda (L bytes) (s : State) : (svcStoreVolResize L bytes s).1.agenda = s.agenda := by
  unfold svcStoreVolResize
  split <;> simp

@[simp] theorem svcStoreVolDelete_agenda (L bytes) (s : State) : (svcStoreVolDelete L bytes s).1.agenda = s.agenda := by
  unfold svcStoreVolDelete
  split <;> simp

@[simp] theorem svcStoreVolOpen_agenda (L bytes) (s : State) : (svcStoreVolOpen L bytes s).1.agenda = s.agenda := by
  simp only [svcStoreVolOpen]
  (repeat' split) <;> simp

@[simp] theorem State.closeVol_agenda (s : State) (o) : (s.closeVol o).agenda = s.agenda := by simp [State.closeVol]

@[simp] theorem svcStoreVolClose_agenda (L bytes) (s : State) : (svcStoreVolClose L bytes s).1.agenda = s.agenda := by
  simp only [svcStoreVolClose]
  (repeat' split) <;> simp

@[simp] theorem svcStoreIo_agenda (write L bytes) (s : State) : (svcStoreIo write L bytes s).1.agenda = s.agenda := by
  unfold svcStoreIo
  split <;> simp

@[simp] theorem State.outBlock_agenda (s : State) (uid b data) : (s.outBlock uid b data).agenda = s.agenda := by
  unfold State.outBlock
  split <;> simp

@[simp] theorem State.wroteBlocks_agenda (s : State) (uid off n data) : (s.wroteBlocks uid off n data).agenda = s.agenda := by simp [State.wroteBlocks]

@[simp] theorem State.opBlocks_agenda (s : State) (o n given) : (s.opBlocks o n given).1.agenda = s.agenda := by
  unfold State.opBlocks
  split
  · refine foldl_fst_agenda _ _ _ fun a k => ?_
    dsimp only
    (repeat' split) <;> simp
  · rfl

@[simp] theorem svcStoreFlush_agenda (L bytes) (s : State) : (svcStoreFlush L bytes s).1.agenda = s.agenda := by
  unfold svcStoreFlush
  split <;> simp

@[simp] theorem svcStoreSetCommit_agenda (L bytes) (s : State) : (svcStoreSetCommit L bytes s).1.agenda = s.agenda := by simp [svcStoreSetCommit]
@[simp] theorem State.coverFlushes_agenda (s : State) (uid) : (s.coverFlushes uid).agenda = s.agenda := by simp [State.coverFlushes]

@[simp] theorem State.endFlush_agenda (s : State) (uid st all) : (s.endFlush uid st all).agenda = s.agenda := by
  refine State.each_agenda _ _ _ fun a t => ?_
  (repeat' split) <;> simp

@[simp] theorem State.labelWritten_agenda (s : State) (o) : (s.labelWritten o).agenda = s.agenda := by
  simp only [State.labelWritten]
  (repeat' split) <;> simp

@[simp] theorem State.releaseBlock_agenda (s : State) (uid b v) : (s.releaseBlock uid b v).agenda = s.agenda := by
  unfold State.releaseBlock
  split <;> simp

@[simp] theorem State.failRead_agenda (s : State) (uid b) : (s.failRead uid b).agenda = s.agenda := by
  unfold State.failRead
  split <;> simp

@[simp] theorem svcSealConvert_agenda (L bytes) (s : State) : (svcSealConvert L bytes s).1.agenda = s.agenda := by simp [svcSealConvert]

@[simp] theorem State.runConvert_agenda (s : State) : s.runConvert.agenda = s.agenda := by
  unfold State.runConvert
  split <;> simp

@[simp] theorem svcSealQuery_agenda (L bytes) (s : State) : (svcSealQuery L bytes s).1.agenda = s.agenda := by simp [svcSealQuery]
@[simp] theorem svcSealPool_agenda (L bytes) (s : State) : (svcSealPool L bytes s).1.agenda = s.agenda := by simp [svcSealPool]
@[simp] theorem State.drivesOff_agenda (s : State) (port) : (s.drivesOff port).agenda = s.agenda := by simp [State.drivesOff]

theorem execStoreIoComplete_answers (e) (s : State) : Answers s (execStoreIoComplete e s) := by
  simp only [execStoreIoComplete]
  (repeat' split) <;> simp

theorem execCommitStart_answers (uid) (s : State) : Answers s (execCommitStart uid s) := by
  unfold execCommitStart
  split <;> simp

theorem execCommitFlushDone_answers (uid ok) (s : State) : Answers s (execCommitFlushDone uid ok s) := by
  unfold execCommitFlushDone
  split <;> simp

theorem execCommitDone_answers (uid) (s : State) : Answers s (execCommitDone uid s) := by
  unfold execCommitDone
  split <;> simp

theorem execDriveWriteDone_answers (w ok) (s : State) : Answers s (execDriveWriteDone w ok s) := by
  simp only [execDriveWriteDone]
  (repeat' split) <;> simp

theorem execStoreBlockRead_answers (uid block content) (s : State) : Answers s (execStoreBlockRead uid block content s) := by
  unfold execStoreBlockRead
  split <;> simp

end Sys2Proof.Machine
end

section
/-! PROOFS. The agenda under lanes, sorters, pins, channels, events, links, rings and the Franker. -/

namespace Sys2Proof.Machine

/-! ### Lanes and standard protocols -/

@[simp] theorem State.laneOwned_agenda (s : State) (l) : (s.laneOwned l).agenda = s.agenda := by simp [State.laneOwned]
@[simp] theorem State.laneRate_agenda (s : State) (l v) : (s.laneRate l v).agenda = s.agenda := by simp [State.laneRate]
@[simp] theorem State.laneTxeq_agenda (s : State) (l v) : (s.laneTxeq l v).agenda = s.agenda := by simp [State.laneTxeq]
@[simp] theorem State.adapted_agenda (s : State) (l ctle dfe) : (s.adapted l ctle dfe).agenda = s.agenda := by simp [State.adapted]

@[simp] theorem State.failLane_agenda (s : State) (l) : (s.failLane l).agenda = s.agenda := by
  unfold State.failLane
  split <;> simp

@[simp] theorem State.laneLoss_agenda (s : State) (l bit cnt first) : (s.laneLoss l bit cnt first).agenda = s.agenda := by simp [State.laneLoss]
@[simp] theorem State.clearLane_agenda (s : State) (l) : (s.clearLane l).agenda = s.agenda := by simp [State.clearLane]
@[simp] theorem State.losePartial_agenda (s : State) (l) : (s.losePartial l).agenda = s.agenda := by simp [State.losePartial]

@[simp] theorem State.laneReset_agenda (s : State) (l lost) : (s.laneReset l lost).agenda = s.agenda := by
  unfold State.laneReset
  split <;> simp

@[simp] theorem State.resetLane_agenda (s : State) (l lost) : (s.resetLane l lost).agenda = s.agenda := by simp [State.resetLane]
@[simp] theorem State.laneCtl_agenda (s : State) (l v lost) : (s.laneCtl l v lost).agenda = s.agenda := by simp [State.laneCtl]
@[simp] theorem State.setStage_agenda (s : State) (j v) : (s.setStage j v).agenda = s.agenda := by simp [State.setStage]
@[simp] theorem State.rpOff_agenda (s : State) (j) : (s.rpOff j).agenda = s.agenda := by simp [State.rpOff]
@[simp] theorem State.ethDown_agenda (s : State) (e) : (s.ethDown e).agenda = s.agenda := by simp [State.ethDown]
@[simp] theorem State.octProto_agenda (s : State) (k v) : (s.octProto k v).agenda = s.agenda := by simp [State.octProto]
@[simp] theorem State.funcReset_agenda (s : State) (fs) : (s.funcReset fs).agenda = s.agenda := by simp [State.funcReset]
@[simp] theorem State.endpointReset_agenda (s : State) : s.endpointReset.agenda = s.agenda := by simp [State.endpointReset]
@[simp] theorem State.rxDrop_agenda (s : State) (e) : (s.rxDrop e).agenda = s.agenda := by simp [State.rxDrop]
@[simp] theorem State.setPause_agenda (s : State) (e i q) : (s.setPause e i q).agenda = s.agenda := by simp [State.setPause]

@[simp] theorem State.macControl_agenda (s : State) (e frame) : (s.macControl e frame).agenda = s.agenda := by
  unfold State.macControl
  split <;> simp

theorem execLaneReset_answers (l by_ lost) (s : State) : Answers s (execLaneReset l by_ lost s) := by
  unfold execLaneReset
  split <;> simp

theorem execRpLinkUp_answers (j width rate drive) (s : State) : Answers s (execRpLinkUp j width rate drive s) := by
  unfold execRpLinkUp
  split <;> simp

/-! ### The commands of the sorters -/

@[simp] theorem State.commitEntry_agenda (s : State) (p n w3) : (s.commitEntry p n w3).agenda = s.agenda := by simp [State.commitEntry]
@[simp] theorem State.streamInto_agenda (s : State) (n es) : (s.streamInto n es).agenda = s.agenda := by simp [State.streamInto]

@[simp] theorem State.rangeDrop_agenda (s : State) (n) : (s.rangeDrop n).agenda = s.agenda := by
  simp only [State.rangeDrop]
  (repeat' split) <;> simp

@[simp] theorem State.markDue_agenda (s : State) (n) (p : Entry → Bool) : (s.markDue n p).agenda = s.agenda := by simp [State.markDue]
@[simp] theorem State.sorterTick_agenda (s : State) (n) : (s.sorterTick n).agenda = s.agenda := by simp [State.sorterTick]

@[simp] theorem State.srtEventDone_agenda (s : State) (n cell pm) : (s.srtEventDone n cell pm).agenda = s.agenda := by
  simp only [State.srtEventDone]
  (repeat' split) <;> simp

@[simp] theorem State.commitAt_agenda (s : State) (c x) : (s.commitAt c x).agenda = s.agenda := by simp [State.commitAt]

@[simp] theorem State.discardBad_agenda (s : State) (n e) : (s.discardBad n e).agenda = s.agenda := by
  simp only [State.discardBad]
  (repeat' split) <;> simp

@[simp] theorem State.releaseDue_agenda (s : State) (n after e) : (s.releaseDue n after e).agenda = s.agenda := by simp [State.releaseDue]

@[simp] theorem State.readHead_agenda (s : State) (p n) : (s.readHead p n).agenda = s.agenda := by
  unfold State.readHead
  split <;> simp

@[simp] theorem State.flushCmd_agenda (s : State) (n) : (s.flushCmd n).agenda = s.agenda := by
  simp only [State.flushCmd]
  (repeat' split) <;> simp

@[simp] theorem State.srtCfgErr_agenda (s : State) (n) : (s.srtCfgErr n).agenda = s.agenda := by simp [State.srtCfgErr]
@[simp] theorem State.srtCtl_agenda (s : State) (n v) : (s.srtCtl n v).agenda = s.agenda := by simp [State.srtCtl]

theorem execSorterRelease_answers (n after) (s : State) : Answers s (execSorterRelease n after s) := by
  unfold execSorterRelease
  split <;> simp

theorem execGateSpaceOpens_answers (g k) (s : State) : Answers s (execGateSpaceOpens g k s) := by
  simp only [execGateSpaceOpens]
  (repeat' split) <;> simp

/-! ### Placement cells and timed pins -/

@[simp] theorem State.actOn_agenda (s : State) (c x) : (s.actOn c x).agenda = s.agenda := by simp [State.actOn]

@[simp] theorem State.edge_agenda (s : State) (c at_ n pm before) : (s.edge c at_ n pm before).agenda = s.agenda := by
  unfold State.edge
  split <;> simp

@[simp] theorem State.lockAbort_agenda (s : State) (p) : (s.lockAbort p).agenda = s.agenda := by simp [State.lockAbort]
@[simp] theorem State.breakLock_agenda (s : State) (p) : (s.breakLock p).agenda = s.agenda := by simp [State.breakLock]

@[simp] theorem State.pinWrite_agenda (s : State) (p r i v) (g : State → State) (hg : ∀ t, (g t).agenda = t.agenda) :
    (s.pinWrite p r i v g).agenda = s.agenda := by simp [State.pinWrite, hg]

@[simp] theorem State.calDone_agenda (s : State) : s.calDone.agenda = s.agenda := by simp [State.calDone]
@[simp] theorem State.calNext_agenda (s : State) : s.calNext.agenda = s.agenda := by simp [State.calNext]
@[simp] theorem State.calBegin_agenda (s : State) (mask bank ps) : (s.calBegin mask bank ps).agenda = s.agenda := by simp [State.calBegin]
@[simp] theorem State.calStart_agenda (s : State) (mask bank) : (s.calStart mask bank).agenda = s.agenda := by simp [State.calStart]
@[simp] theorem State.calWrite_agenda (s : State) (p v) : (s.calWrite p v).agenda = s.agenda := by simp [State.calWrite]
@[simp] theorem State.calAbort_agenda (s : State) (hit : ℕ → Bool) : (s.calAbort hit).agenda = s.agenda := by simp [State.calAbort]
@[simp] theorem State.gpioMasked_agenda (s : State) (g lanes v) : (s.gpioMasked g lanes v).agenda = s.agenda := by simp [State.gpioMasked]
@[simp] theorem State.setInForce_agenda (s : State) (b r) : (s.setInForce b r).agenda = s.agenda := by simp [State.setInForce]
@[simp] theorem State.beginRange_agenda (s : State) (b) : (s.beginRange b).agenda = s.agenda := by simp [State.beginRange]

@[simp] theorem State.commandBank_agenda (s : State) (b r) : (s.commandBank b r).agenda = s.agenda := by
  unfold State.commandBank
  split <;> simp

@[simp] theorem State.commandBanks_agenda (s : State) : s.commandBanks.agenda = s.agenda := by simp [State.commandBanks]
@[simp] theorem State.setRange_agenda (s : State) (b r) : (s.setRange b r).agenda = s.agenda := by simp [State.setRange]
@[simp] theorem State.bankCtl_agenda (s : State) (p b v) : (s.bankCtl p b v).agenda = s.agenda := by simp [State.bankCtl]
@[simp] theorem State.releaseHold_agenda (s : State) (b) : (s.releaseHold b).agenda = s.agenda := by simp [State.releaseHold]
@[simp] theorem State.sampleRange_agenda (s : State) (b) : (s.sampleRange b).agenda = s.agenda := by simp [State.sampleRange]
@[simp] theorem State.setArm_agenda (s : State) (p v) : (s.setArm p v).agenda = s.agenda := by simp [State.setArm]
@[simp] theorem State.lockArm_agenda (s : State) (p v) : (s.lockArm p v).agenda = s.agenda := by simp [State.lockArm]
@[simp] theorem State.lockSet_agenda (s : State) (p v) : (s.lockSet p v).agenda = s.agenda := by simp [State.lockSet]
@[simp] theorem State.pwmBegin_agenda (s : State) (i t) : (s.pwmBegin i t).agenda = s.agenda := by simp [State.pwmBegin]

@[simp] theorem State.pwmTick_agenda (s : State) (i) : (s.pwmTick i).agenda = s.agenda := by
  unfold State.pwmTick
  split <;> simp

@[simp] theorem State.pwmOff_agenda (s : State) (i) : (s.pwmOff i).agenda = s.agenda := by simp [State.pwmOff]
@[simp] theorem State.pwmPer_agenda (s : State) (i v) : (s.pwmPer i v).agenda = s.agenda := by simp [State.pwmPer]
@[simp] theorem State.pwmHi_agenda (s : State) (i v) : (s.pwmHi i v).agenda = s.agenda := by simp [State.pwmHi]
@[simp] theorem State.pinTick_agenda (s : State) : s.pinTick.agenda = s.agenda := by simp [State.pinTick]

theorem execPlacementHandover_answers (n) (s : State) : Answers s (execPlacementHandover n s) := by
  refine answers_next.2 (s.engine_agenda _ fun t => ?_)
  dsimp only
  (repeat' split) <;> simp

theorem execPlacementCommit_answers (n moment) (s : State) : Answers s (execPlacementCommit n moment s) := by
  refine answers_next.2 (s.engine_agenda _ fun t => ?_)
  dsimp only
  (repeat' split) <;> simp

theorem execEdgePlaced_answers (c) (s : State) : Answers s (execEdgePlaced c s) := by
  refine answers_next.2 (s.engine_agenda _ fun t => ?_)
  dsimp only
  (repeat' split) <;> simp

theorem execPulseReturnEdge_answers (c) (s : State) : Answers s (execPulseReturnEdge c s) := by
  refine answers_next.2 (s.engine_agenda _ fun t => ?_)
  dsimp only
  (repeat' split) <;> simp

theorem execPinCalPinDone_answers (r) (s : State) : Answers s (execPinCalPinDone r s) := by
  simp only [execPinCalPinDone]
  (repeat' split) <;> simp

/-! ### The services that act on one block each -/

@[simp] theorem axisService_agenda (L) (g : ℕ → Service) (bytes) (s : State) (hg : ∀ a b t, (g a b t).1.agenda = t.agenda) :
    (axisService L g bytes s).1.agenda = s.agenda := by simp [axisService, hg]

@[simp] theorem svcAxisSetup_agenda (L bytes) (s : State) : (svcAxisSetup L bytes s).1.agenda = s.agenda := by simp [svcAxisSetup]
@[simp] theorem State.axisSetupLetter_agenda (s : State) (L) : (s.axisSetupLetter L).agenda = s.agenda := by simp [State.axisSetupLetter]

@[simp] theorem axisLoadService_agenda (L) (refused : State → ℕ → Bool) (go : State → ℕ → State) (bytes) (s : State)
    (hgo : ∀ t b, (go t b).agenda = t.agenda) :
    (axisLoadService L refused go bytes s).1.agenda = s.agenda := by simp [axisLoadService, hgo]

@[simp] theorem State.axisStartLetter_agenda (s : State) (L) : (s.axisStartLetter L).agenda = s.agenda := by simp [State.axisStartLetter]
@[simp] theorem State.axisRecoverLetter_agenda (s : State) (L) : (s.axisRecoverLetter L).agenda = s.agenda := by simp [State.axisRecoverLetter]

@[simp] theorem svcAxisStop_agenda (L bytes) (s : State) : (svcAxisStop L bytes s).1.agenda = s.agenda := by
  refine axisService_agenda L _ bytes s fun a b t => ?_
  (repeat' split) <;> simp

@[simp] theorem State.axisStopLetter_agenda (s : State) (L) : (s.axisStopLetter L).agenda = s.agenda := by simp [State.axisStopLetter]
@[simp] theorem svcAxisQuery_agenda (L bytes) (s : State) : (svcAxisQuery L bytes s).1.agenda = s.agenda := by simp [svcAxisQuery]
@[simp] theorem State.axisQueryLetter_agenda (s : State) (L) : (s.axisQueryLetter L).agenda = s.agenda := by simp [State.axisQueryLetter]

@[simp] theorem svcPinCalibrate_agenda (L bytes) (s : State) : (svcPinCalibrate L bytes s).1.agenda = s.agenda := by
  simp only [svcPinCalibrate]
  (repeat' split) <;> simp

@[simp] theorem State.calibrateLetter_agenda (s : State) (L) : (s.calibrateLetter L).agenda = s.agenda := by simp [State.calibrateLetter]
@[simp] theorem State.setHeater_agenda (s : State) (i h) : (s.setHeater i h).agenda = s.agenda := by simp [State.setHeater]
@[simp] theorem svcHeaterSet_agenda (L bytes) (s : State) : (svcHeaterSet L bytes s).1.agenda = s.agenda := by simp [svcHeaterSet]
@[simp] theorem State.heaterLetter_agenda (s : State) (L) : (s.heaterLetter L).agenda = s.agenda := by simp [State.heaterLetter]
@[simp] theorem svcHeaterQuery_agenda (L bytes) (s : State) : (svcHeaterQuery L bytes s).1.agenda = s.agenda := by simp [svcHeaterQuery]
@[simp] theorem State.heatersLow_agenda (s : State) : s.heatersLow.agenda = s.agenda := by simp [State.heatersLow]
@[simp] theorem State.heaterStep_agenda (s : State) (h code) : (s.heaterStep h code).1.agenda = s.agenda := by simp [State.heaterStep]
@[simp] theorem svcEthQueue_agenda (L bytes) (s : State) : (svcEthQueue L bytes s).1.agenda = s.agenda := by simp [svcEthQueue]
@[simp] theorem State.ethQueueLetter_agenda (s : State) (L) : (s.ethQueueLetter L).agenda = s.agenda := by simp [State.ethQueueLetter]
@[simp] theorem svcEthSteer_agenda (L bytes) (s : State) : (svcEthSteer L bytes s).1.agenda = s.agenda := by simp [svcEthSteer]
@[simp] theorem State.ethSteerLetter_agenda (s : State) (L) : (s.ethSteerLetter L).agenda = s.agenda := by simp [State.ethSteerLetter]
@[simp] theorem svcLinkQuery_agenda (L bytes) (s : State) : (svcLinkQuery L bytes s).1.agenda = s.agenda := by simp [svcLinkQuery]
@[simp] theorem State.linkQueryLetter_agenda (s : State) (L) : (s.linkQueryLetter L).agenda = s.agenda := by simp [State.linkQueryLetter]

/-! ### The CHANNEL services -/

@[simp] theorem acceptAt_agenda (s : State) (L pm args) : (acceptAt s L pm args).1.agenda = s.agenda := by simp [acceptAt]
@[simp] theorem refuseKind_agenda (s : State) (L e) : (refuseKind s L e).1.agenda = s.agenda := by simp [refuseKind]

@[simp] theorem svcChannelCreate_agenda (L bytes) (s : State) : (svcChannelCreate L bytes s).1.agenda = s.agenda := by
  simp only [svcChannelCreate]
  (repeat' split) <;> simp

@[simp] theorem State.bindNew_agenda (s : State) (L old new) : (s.bindNew L old new).1.agenda = s.agenda := by
  simp only [State.bindNew]
  (repeat' split) <;> simp

@[simp] theorem svcChannelBind_agenda (L bytes) (s : State) : (svcChannelBind L bytes s).1.agenda = s.agenda := by
  simp only [svcChannelBind]
  (repeat' split) <;> simp

@[simp] theorem svcChannelUnbind_agenda (L bytes) (s : State) : (svcChannelUnbind L bytes s).1.agenda = s.agenda := by
  simp only [svcChannelUnbind]
  (repeat' split) <;> simp

@[simp] theorem svcChannelRebind_agenda (L bytes) (s : State) : (svcChannelRebind L bytes s).1.agenda = s.agenda := by
  simp only [svcChannelRebind]
  (repeat' split) <;> simp

@[simp] theorem State.loadMap_agenda (s : State) (c map) : (s.loadMap c map).agenda = s.agenda := by
  simp only [State.loadMap]
  (repeat' split) <;> simp

@[simp] theorem State.armed_agenda (s : State) (c) : (s.armed c).agenda = s.agenda := by simp [State.armed]

@[simp] theorem svcChannelStart_agenda (L map bytes) (s : State) : (svcChannelStart L map bytes s).1.agenda = s.agenda := by
  simp only [svcChannelStart]
  (repeat' split) <;> simp

@[simp] theorem State.heldStart_agenda (s : State) (c) : (s.heldStart c).agenda = s.agenda := by simp [State.heldStart]

@[simp] theorem svcChannelHold_agenda (L bytes) (s : State) : (svcChannelHold L bytes s).1.agenda = s.agenda := by
  unfold svcChannelHold
  split <;> simp

@[simp] theorem State.discardBehind_agenda (s : State) (c p) : (s.discardBehind c p).agenda = s.agenda := by simp [State.discardBehind]
@[simp] theorem State.rebindAll_agenda (s : State) (c) : (s.rebindAll c).agenda = s.agenda := by simp [State.rebindAll]

@[simp] theorem State.applySwitch_agenda (s : State) (c) : (s.applySwitch c).agenda = s.agenda := by
  simp only [State.applySwitch]
  (repeat' split) <;> simp

@[simp] theorem State.switchAt_agenda (s : State) (c p) : (s.switchAt c p).agenda = s.agenda := by
  unfold State.switchAt
  split <;> simp

@[simp] theorem svcChannelResume_agenda (L bytes) (s : State) : (svcChannelResume L bytes s).1.agenda = s.agenda := by
  simp only [svcChannelResume]
  (repeat' split) <;> simp

@[simp] theorem State.reportAll_agenda (s : State) (c reason at_ ops) : (s.reportAll c reason at_ ops).agenda = s.agenda := by simp [State.reportAll]
@[simp] theorem State.cancelled_agenda (s : State) (c g) : (s.cancelled c g).agenda = s.agenda := by simp [State.cancelled]

@[simp] theorem State.finish_agenda (s : State) (c reason at_) : (s.finish c reason at_).agenda = s.agenda := by
  simp only [State.finish]
  (repeat' split) <;> simp

@[simp] theorem State.resumed_agenda (s : State) (c) : (s.resumed c).agenda = s.agenda := by
  simp only [State.resumed]
  (repeat' split) <;> simp

@[simp] theorem State.cancelChange_agenda (s : State) (c e) : (s.cancelChange c e).agenda = s.agenda := by
  unfold State.cancelChange
  split <;> simp

@[simp] theorem svcChannelDrain_agenda (L bytes) (s : State) : (svcChannelDrain L bytes s).1.agenda = s.agenda := by
  simp only [svcChannelDrain]
  (repeat' split) <;> simp

@[simp] theorem svcChannelAbort_agenda (L bytes) (s : State) : (svcChannelAbort L bytes s).1.agenda = s.agenda := by
  unfold svcChannelAbort
  split <;> simp

@[simp] theorem State.drainDone_agenda (s : State) (c) : (s.drainDone c).agenda = s.agenda := by
  simp only [State.drainDone]
  (repeat' split) <;> simp

@[simp] theorem svcChannelQuery_agenda (L bytes) (s : State) : (svcChannelQuery L bytes s).1.agenda = s.agenda := by
  unfold svcChannelQuery
  split <;> simp

@[simp] theorem State.respool_agenda (s : State) (c was) : (s.respool c was).agenda = s.agenda := by
  simp only [State.respool]
  (repeat' split) <;> simp

@[simp] theorem svcChannelSetMode_agenda (L bytes) (s : State) : (svcChannelSetMode L bytes s).1.agenda = s.agenda := by
  simp only [svcChannelSetMode]
  (repeat' split) <;> simp

@[simp] theorem State.switchDone_agenda (s : State) (c) : (s.switchDone c).agenda = s.agenda := by
  simp only [State.switchDone]
  (repeat' split) <;> simp

theorem execLinkDownTimeout_answers (l) (s : State) : Answers s (execLinkDownTimeout l s) := by
  unfold execLinkDownTimeout
  split <;> simp

theorem execVolumeOfflineInhibit_answers (c) (s : State) : Answers s (execVolumeOfflineInhibit c s) := by
  unfold execVolumeOfflineInhibit
  split <;> simp

/-! ### Counters, events and the logbook -/

@[simp] theorem State.userEvents_agenda (s : State) (v) : (s.userEvents v).agenda = s.agenda := by simp [State.userEvents]
@[simp] theorem State.perfSel_agenda (s : State) (i v) : (s.perfSel i v).agenda = s.agenda := by simp [State.perfSel]

@[simp] theorem State.sample_agenda (s : State) (i) : (s.sample i).agenda = s.agenda := by
  unfold State.sample
  split <;> simp

@[simp] theorem State.unclaim_agenda (s : State) (i) : (s.unclaim i).agenda = s.agenda := by simp [State.unclaim]
@[simp] theorem svcPerfClaim_agenda (L bytes) (s : State) : (svcPerfClaim L bytes s).1.agenda = s.agenda := by simp [svcPerfClaim]
@[simp] theorem svcPerfRelease_agenda (L bytes) (s : State) : (svcPerfRelease L bytes s).1.agenda = s.agenda := by simp [svcPerfRelease]
@[simp] theorem State.unclaimClass_agenda (s : State) (p : ℕ → Bool) : (s.unclaimClass p).agenda = s.agenda := by simp [State.unclaimClass]
@[simp] theorem svcPerfUser_agenda (L bytes) (s : State) : (svcPerfUser L bytes s).1.agenda = s.agenda := by simp [svcPerfUser]
@[simp] theorem State.setWaiting_agenda (s : State) : s.setWaiting.agenda = s.agenda := by simp [State.setWaiting]

@[simp] theorem State.letIn_agenda (s : State) : s.letIn.agenda = s.agenda := by
  unfold State.letIn
  split <;> simp

@[simp] theorem State.lostRecord_agenda (s : State) : s.lostRecord.agenda = s.agenda := by
  unfold State.lostRecord
  split <;> simp

@[simp] theorem State.writeRecord_agenda (s : State) (r rest) : (s.writeRecord r rest).agenda = s.agenda := by simp [State.writeRecord]
@[simp] theorem State.stopLog_agenda (s : State) : s.stopLog.agenda = s.agenda := by simp [State.stopLog]
@[simp] theorem svcLogRead_agenda (L bytes) (s : State) : (svcLogRead L bytes s).1.agenda = s.agenda := by simp [svcLogRead]
@[simp] theorem svcLogRoute_agenda (L bytes) (s : State) : (svcLogRoute L bytes s).1.agenda = s.agenda := by simp [svcLogRoute]
@[simp] theorem State.startRecord_agenda (s : State) : s.startRecord.agenda = s.agenda := by simp [State.startRecord]
@[simp] theorem State.loseQueue_agenda (s : State) (keepCount) : (s.loseQueue keepCount).agenda = s.agenda := by simp [State.loseQueue]

theorem execLogRecordWrite_answers (r) (s : State) : Answers s (execLogRecordWrite r s) := by
  unfold execLogRecordWrite
  split <;> simp

/-! ### The commands of the links -/

@[simp] theorem State.markMembers_agenda (s : State) (m v) : (s.markMembers m v).agenda = s.agenda := by simp [State.markMembers]
@[simp] theorem State.linkOff_agenda (s : State) (m lost) : (s.linkOff m lost).agenda = s.agenda := by simp [State.linkOff]
@[simp] theorem State.lnkCtl_agenda (s : State) (m v lost) : (s.lnkCtl m v lost).agenda = s.agenda := by simp [State.lnkCtl]
@[simp] theorem State.deliver_agenda (s : State) (m vl first body) : (s.deliver m vl first body).agenda = s.agenda := by simp [State.deliver]
@[simp] theorem State.freeFlit_agenda (s : State) (m vl) : (s.freeFlit m vl).agenda = s.agenda := by simp [State.freeFlit]

@[simp] theorem State.flitReceived_agenda (s : State) (m f) (take : ℕ → Bool → List Byte → State → State)
    (htake : ∀ a b c t, (take a b c t).agenda = t.agenda) :
    (s.flitReceived m f take).agenda = s.agenda := by simp [State.flitReceived, htake]

@[simp] theorem State.widthReq_agenda (s : State) (m mask immediate missing) : (s.widthReq m mask immediate missing).agenda = s.agenda := by
  simp only [State.widthReq]
  (repeat' split) <;> simp

@[simp] theorem State.equalize_agenda (s : State) (m mask e) : (s.equalize m mask e).agenda = s.agenda := by simp [State.equalize]

@[simp] theorem State.probe_agenda (s : State) (m lost) : (s.probe m lost).agenda = s.agenda := by
  simp only [State.probe]
  (repeat' split) <;> simp

@[simp] theorem State.showCable_agenda (s : State) (m) : (s.showCable m).agenda = s.agenda := by simp [State.showCable]
@[simp] theorem State.lnkCmd_agenda (s : State) (m v) : (s.lnkCmd m v).agenda = s.agenda := by simp [State.lnkCmd]

theorem execFrameDecoded_answers (m x types) (s : State) : Answers s (execFrameDecoded m x types s) := by
  simp only [execFrameDecoded]
  (repeat' split) <;> simp

theorem execNakRepeat_answers (m) (s : State) : Answers s (execNakRepeat m s) := by
  unfold execNakRepeat
  split <;> simp

theorem execExpressAck_answers (x next) (s : State) : Answers s (execExpressAck x next s) := by
  refine answers_next.2 (s.expressIn_agenda x _ _ _ fun t => ?_)
  simp

theorem execExpressWidthAck_answers (x mask) (s : State) : Answers s (execExpressWidthAck x mask s) := by
  refine answers_next.2 (s.expressIn_agenda x _ _ _ fun t => ?_)
  dsimp only
  (repeat' split) <;> simp

theorem execFireLineDeadline_answers (l postmark) (s : State) : Answers s (execFireLineDeadline l postmark s) := by
  simp only [execFireLineDeadline]
  (repeat' split) <;> simp

theorem execTrainingFrameReceived_answers (m uid x rate lost) (s : State) : Answers s (execTrainingFrameReceived m uid x rate lost s) := by
  simp only [execTrainingFrameReceived]
  (repeat' split) <;> simp

theorem execCapabilityReceived_answers (m c lost) (s : State) : Answers s (execCapabilityReceived m c lost s) := by
  unfold execCapabilityReceived
  rw [answers_next]
  extract_lets x credits own fits tx rx bad s1 s2
  have h1 : s1.agenda = s.agenda := by simp [s1]
  have h2 : s2.agenda = s.agenda := (State.updLink_agenda ..).trans ((State.put_agenda ..).trans h1)
  (repeat' split) <;> simp [h2]

theorem execLinkStateTimeout_answers (m lost) (s : State) : Answers s (execLinkStateTimeout m lost s) := by
  simp only [execLinkStateTimeout]
  (repeat' split) <;> simp

theorem execExpressTimingReply_answers (x turnaround of arrived lost) (s : State) : Answers s (execExpressTimingReply x turnaround of arrived lost s) := by
  refine answers_next.2 (s.expressIn_agenda x _ _ _ fun t => ?_)
  dsimp only
  (repeat' split) <;> simp

theorem execWidthReqResend_answers (m) (s : State) : Answers s (execWidthReqResend m s) := by
  unfold execWidthReqResend
  split <;> simp

theorem execWidthLanesAdded_answers (m x) (s : State) : Answers s (execWidthLanesAdded m x s) := by
  unfold execWidthLanesAdded
  split <;> simp

theorem execWidthSwitchMarker_answers (m) (s : State) : Answers s (execWidthSwitchMarker m s) := by
  unfold execWidthSwitchMarker
  split <;> simp

theorem execLaneRejoin_answers (l) (s : State) : Answers s (execLaneRejoin l s) := by
  unfold execLaneRejoin
  split <;> simp

/-! ### Domains that stop and run, and the octets -/

@[simp] theorem State.stopDomain_agenda (s : State) (d) : (s.stopDomain d).agenda = s.agenda := by simp [State.stopDomain]
@[simp] theorem State.startDomain_agenda (s : State) (d) : (s.startDomain d).agenda = s.agenda := by simp [State.startDomain]
@[simp] theorem State.resetLanes_agenda (s : State) (k lost) (p : ℕ → Bool) : (s.resetLanes k lost p).agenda = s.agenda := by simp [State.resetLanes]
@[simp] theorem State.octetLanesReset_agenda (s : State) (k lost) : (s.octetLanesReset k lost).agenda = s.agenda := by simp [State.octetLanesReset]
@[simp] theorem State.octetRefuse_agenda (s : State) (k) : (s.octetRefuse k).agenda = s.agenda := by simp [State.octetRefuse]

@[simp] theorem State.protocolsDown_agenda (s : State) (k) : (s.protocolsDown k).agenda = s.agenda := by
  unfold State.protocolsDown
  extract_lets s1 mine s2
  have h2 : s2.agenda = s.agenda := by simp [s2, s1]
  split
  · simp [s1]
  · split
    · refine State.each_agenda_of h2 fun i t => ?_
      simp
    · simp [s1]

@[simp] theorem State.octetDown_agenda (s : State) (k lost) : (s.octetDown k lost).agenda = s.agenda := by simp [State.octetDown]
@[simp] theorem State.octetOff_agenda (s : State) (k lost) : (s.octetOff k lost).agenda = s.agenda := by simp [State.octetOff]
@[simp] theorem State.octCtl_agenda (s : State) (k v lost) : (s.octCtl k v lost).agenda = s.agenda := by simp [State.octCtl]
@[simp] theorem State.octClk_agenda (s : State) (k v) : (s.octClk k v).agenda = s.agenda := by simp [State.octClk]

/-! ### The rings -/

@[simp] theorem State.showReach_agenda (s : State) (r mask) : (s.showReach r mask).agenda = s.agenda := by simp [State.showReach]
@[simp] theorem State.auditRing_agenda (s : State) (r kind) : (s.auditRing r kind).agenda = s.agenda := by simp [State.auditRing]
@[simp] theorem State.setRingState_agenda (s : State) (r v) : (s.setRingState r v).agenda = s.agenda := by simp [State.setRingState]
@[simp] theorem State.ringMismatch_agenda (s : State) (r) : (s.ringMismatch r).agenda = s.agenda := by simp [State.ringMismatch]
@[simp] theorem State.leaveRing_agenda (s : State) (r) : (s.leaveRing r).agenda = s.agenda := by simp [State.leaveRing]
@[simp] theorem State.ringPorts_agenda (s : State) (r) : (s.ringPorts r).agenda = s.agenda := by simp [State.ringPorts]
@[simp] theorem State.ringCtl_agenda (s : State) (r v) : (s.ringCtl r v).agenda = s.agenda := by simp [State.ringCtl]

@[simp] theorem State.hearHighs_agenda (s : State) (r hs) : (s.hearHighs r hs).agenda = s.agenda := by
  refine State.each_agenda _ _ _ fun a t => ?_
  (repeat' split) <;> simp

@[simp] theorem State.ringForward_agenda (s : State) (r east kind data) : (s.ringForward r east kind data).agenda = s.agenda := by simp [State.ringForward]

@[simp] theorem State.evaluateRing_agenda (s : State) (r) : (s.evaluateRing r).agenda = s.agenda := by
  simp only [State.evaluateRing]
  (repeat' split) <;> simp

@[simp] theorem ringService_agenda (L) (g : ℕ → State → State) (bytes) (s : State) (hg : ∀ a t, (g a t).agenda = t.agenda) :
    (ringService L g bytes s).1.agenda = s.agenda := by simp [ringService, hg]

@[simp] theorem State.ringStopLetter_agenda (s : State) (L) : (s.ringStopLetter L).agenda = s.agenda := by simp [State.ringStopLetter]

@[simp] theorem State.ringReleaseLetter_agenda (s : State) (L) : (s.ringReleaseLetter L).agenda = s.agenda :=
  s.serveIn_agenda _ _ _ _ fun body t => ringService_agenda _ _ _ _ fun r u => by simp

@[simp] theorem State.forceTable_agenda (s : State) (r t) : (s.forceTable r t).agenda = s.agenda := by simp [State.forceTable]
@[simp] theorem State.ringConfig_agenda (s : State) (L b) : (s.ringConfig L b).1.agenda = s.agenda := by simp [State.ringConfig]
@[simp] theorem State.endConfig_agenda (s : State) (r) : (s.endConfig r).agenda = s.agenda := by simp [State.endConfig]

@[simp] theorem State.tableAgreed_agenda (s : State) (r) : (s.tableAgreed r).agenda = s.agenda := by
  simp only [State.tableAgreed]
  (repeat' split) <;> simp

@[simp] theorem State.pumpConfigs_agenda (n) (s : State) (i) : (State.pumpConfigs n s i).agenda = s.agenda := by
  induction n generalizing s with
  | zero => rfl
  | succ n ih =>
    simp only [State.pumpConfigs]
    split
    · split
      · next h => simp [ih, agenda_of_eq_mk h]
      · next h => simp [ih, agenda_of_eq_mk h]
    · rfl

@[simp] theorem State.agreeTables_agenda (s : State) (r) : (s.agreeTables r).agenda = s.agenda := by simp [State.agreeTables]
@[simp] theorem State.ringConfigLetter_agenda (s : State) (L) : (s.ringConfigLetter L).agenda = s.agenda := by simp [State.ringConfigLetter]
@[simp] theorem State.learnSeries_agenda (s : State) (r d) : (s.learnSeries r d).agenda = s.agenda := by simp [State.learnSeries]
@[simp] theorem svcRingQuery_agenda (L bytes) (s : State) : (svcRingQuery L bytes s).1.agenda = s.agenda := by simp [svcRingQuery]
@[simp] theorem State.ringQueryLetter_agenda (s : State) (L) : (s.ringQueryLetter L).agenda = s.agenda := by simp [State.ringQueryLetter]

theorem execRingConfigTimeout_answers (r) (s : State) : Answers s (execRingConfigTimeout r s) := by
  simp only [execRingConfigTimeout]
  (repeat' split) <;> simp

theorem execRingConfigReceived_answers (r m) (s : State) : Answers s (execRingConfigReceived r m s) := by
  simp only [execRingConfigReceived]
  (repeat' split) <;> simp

/-! ### What the Franker prints and keeps -/

@[simp] theorem State.setFranker_agenda (s : State) (g : FrankerState → FrankerState) : (s.setFranker g).agenda = s.agenda := by simp [State.setFranker]
@[simp] theorem State.showRecord_agenda (s : State) (b) : (s.showRecord b).agenda = s.agenda := by simp [State.showRecord]

@[simp] theorem State.copyRecord_agenda (s : State) : s.copyRecord.agenda = s.agenda := by
  unfold State.copyRecord
  split <;> simp

@[simp] theorem State.resumeCounter_agenda (s : State) (record) : (s.resumeCounter record).agenda = s.agenda := by simp [State.resumeCounter]
@[simp] theorem State.saveCounter_agenda (s : State) (orderly) : (s.saveCounter orderly).agenda = s.agenda := by simp [State.saveCounter]
@[simp] theorem State.frankerAxisStart_agenda (s : State) : s.frankerAxisStart.agenda = s.agenda := by simp [State.frankerAxisStart]

@[simp] theorem State.holdNow_agenda (s : State) (h) : (s.holdNow h).agenda = s.agenda := by
  simp only [State.holdNow]
  (repeat' split) <;> simp

@[simp] theorem State.hold_agenda (s : State) (h) : (s.hold h).agenda = s.agenda := by simp [State.hold]
@[simp] theorem State.holdAll_agenda (s : State) : s.holdAll.agenda = s.agenda := by simp [State.holdAll]
@[simp] theorem State.startFranker_agenda (s : State) : s.startFranker.agenda = s.agenda := by simp [State.startFranker]
@[simp] theorem State.stopFranker_agenda (s : State) : s.stopFranker.agenda = s.agenda := by simp [State.stopFranker]

/-! ### The commands of the Franker -/

@[simp] theorem State.programProtected_agenda (s : State) (result) : (s.programProtected result).1.agenda = s.agenda := by
  simp only [State.programProtected]
  (repeat' split) <;> simp

@[simp] theorem State.frankerSave_agenda (s : State) (result) : (s.frankerSave result).agenda = s.agenda := by simp [State.frankerSave]
@[simp] theorem State.frankerLoad_agenda (s : State) : s.frankerLoad.agenda = s.agenda := by simp [State.frankerLoad]
@[simp] theorem State.frankerCmd_agenda (s : State) (v result) : (s.frankerCmd v result).agenda = s.agenda := by simp [State.frankerCmd]

@[simp] theorem State.printPins_agenda (s : State) (cols) : (s.printPins cols).agenda = s.agenda := by
  unfold State.printPins
  extract_lets width r
  have hr : r.1.agenda = s.agenda := foldl_fst_agenda _ _ _ fun a c => (fst_mk_agenda _ _).trans (State.insertEntry_agenda ..)
  simp [hr]

@[simp] theorem State.printLane_agenda (s : State) (cols) : (s.printLane cols).agenda = s.agenda := by simp [State.printLane]
@[simp] theorem State.frankerCounter_agenda (s : State) : s.frankerCounter.agenda = s.agenda := by simp [State.frankerCounter]
@[simp] theorem State.frankerCounted_agenda (s : State) : s.frankerCounted.agenda = s.agenda := by simp [State.frankerCounted]
@[simp] theorem State.frankerPrint_agenda (s : State) (t) : (s.frankerPrint t).agenda = s.agenda := by simp [State.frankerPrint]

end Sys2Proof.Machine
end

section
/-! PROOFS. The agenda under the fabric, regions, security, resets, loads, the register space and clock islands. -/

namespace Sys2Proof.Machine

/-! ### What happens in the clockless fabric -/

@[simp] theorem State.fill_agenda (s : State) (x v) : (s.fill x v).agenda = s.agenda := by
  unfold State.fill
  split <;> simp

@[simp] theorem State.isoCodes_agenda (s : State) (x bad) : (s.isoCodes x bad).agenda = s.agenda := by
  unfold State.isoCodes
  split <;> simp

@[simp] theorem State.isoCapture_agenda (s : State) (x u a) : (s.isoCapture x u a).agenda = s.agenda := by
  unfold State.isoCapture
  split <;> simp

@[simp] theorem State.memReply_agenda (s : State) (n i v) : (s.memReply n i v).agenda = s.agenda := by simp [State.memReply]

@[simp] theorem State.memServe_agenda (s : State) (n i ops replies data a bad also) (next : ℕ → State → State)
    (hnext : ∀ a t, (next a t).agenda = t.agenda) :
    (s.memServe n i ops replies data a bad also next).agenda = s.agenda := by
  unfold State.memServe
  split <;> simp [hnext]

@[simp] theorem State.memPut_agenda (s : State) (n i addr data) : (s.memPut n i addr data).agenda = s.agenda := by simp [State.memPut]
@[simp] theorem State.setArbiter_agenda (s : State) (n a x) : (s.setArbiter n a x).agenda = s.agenda := by simp [State.setArbiter]
@[simp] theorem State.startSecond_agenda (s : State) (n e regs) : (s.startSecond n e regs).agenda = s.agenda := by simp [State.startSecond]
@[simp] theorem State.showClocks_agenda (s : State) (n) : (s.showClocks n).agenda = s.agenda := by simp [State.showClocks]
@[simp] theorem State.resetStages_agenda (s : State) (n) : (s.resetStages n).agenda = s.agenda := by simp [State.resetStages]
@[simp] theorem State.wake_agenda (s : State) (n) : (s.wake n).agenda = s.agenda := by simp [State.wake]
@[simp] theorem State.clockPresent_agenda (s : State) (t) : (s.clockPresent t).agenda = s.agenda := by simp [State.clockPresent]

@[simp] theorem State.clockedTrees_agenda (s : State) (t wires) : (s.clockedTrees t wires).agenda = s.agenda := by
  refine State.each_agenda _ _ _ fun a t => ?_
  (repeat' split) <;> simp

@[simp] theorem State.setBm_agenda (s : State) (n i b) : (s.setBm n i b).agenda = s.agenda := by simp [State.setBm]

@[simp] theorem State.bmEcc_agenda (s : State) (n i e) : (s.bmEcc n i e).agenda = s.agenda := by
  unfold State.bmEcc
  split <;> simp

@[simp] theorem State.bmServe_agenda (s : State) (n i p w low high) : (s.bmServe n i p w low high).agenda = s.agenda := by simp [State.bmServe]
@[simp] theorem State.bmFlip_agenda (s : State) (n i p w flips) : (s.bmFlip n i p w flips).agenda = s.agenda := by simp [State.bmFlip]

@[simp] theorem State.bmRequest_agenda (s : State) (n i p w low high m) : (s.bmRequest n i p w low high m).agenda = s.agenda := by
  simp only [State.bmRequest]
  (repeat' split) <;> simp

@[simp] theorem State.resetBms_agenda (s : State) (n init clearKeep) : (s.resetBms n init clearKeep).agenda = s.agenda := by simp [State.resetBms]

theorem execTokenCapture_answers (x wires upset) (s : State) : Answers s (execTokenCapture x wires upset s) := by
  simp only [execTokenCapture]
  (repeat' split) <;> simp

theorem execMemCellWrite_answers (n i request data) (s : State) : Answers s (execMemCellWrite n i request data s) := by
  unfold execMemCellWrite
  split <;> simp

theorem execMemCellSwap_answers (n i request data) (s : State) : Answers s (execMemCellSwap n i request data s) := by
  unfold execMemCellSwap
  split <;> simp

theorem execArbiterRequest_answers (n a q) (s : State) : Answers s (execArbiterRequest n a q s) := by
  simp only [execArbiterRequest]
  (repeat' split) <;> simp

theorem execArbiterRelease_answers (n a) (s : State) : Answers s (execArbiterRelease n a s) := by
  simp only [execArbiterRelease]
  (repeat' split) <;> simp

theorem execUserClockEdge_answers (t wires) (s : State) : Answers s (execUserClockEdge t wires s) := by
  unfold execUserClockEdge
  rw [answers_next]
  dsimp only
  split
  · rfl
  · rw [State.clockedTrees_agenda]
    refine State.each_agenda_of (by simp) fun n r => State.each_agenda_of (State.each_agenda _ _ _ fun e r => ?_) fun e r => ?_
    · split <;> simp
    · (repeat' split) <;> simp

/-! ### Images as the loader reads them -/

@[simp] theorem State.recordFrames_agenda (s : State) (region frames) : (s.recordFrames region frames).agenda = s.agenda := by simp [State.recordFrames]
@[simp] theorem State.keepKeys_agenda (s : State) (entry keys) : (s.keepKeys entry keys).agenda = s.agenda := by simp [State.keepKeys]
@[simp] theorem State.readImage_agenda (s : State) (slot f) : (s.readImage slot f).agenda = s.agenda := by simp [State.readImage]

/-! ### Regions as loads and resets see them -/

@[simp] theorem State.isolate_agenda (s : State) (n st) : (s.isolate n st).agenda = s.agenda := by simp [State.isolate]
@[simp] theorem State.clearRegionStat_agenda (s : State) (n) : (s.clearRegionStat n).agenda = s.agenda := by simp [State.clearRegionStat]
@[simp] theorem State.resetRegion_agenda (s : State) (n zeroKeep) : (s.resetRegion n zeroKeep).agenda = s.agenda := by simp [State.resetRegion]
@[simp] theorem State.beginRestore_agenda (s : State) (n) : (s.beginRestore n).agenda = s.agenda := by simp [State.beginRestore]
@[simp] theorem State.regionReset_agenda (s : State) (n wake) : (s.regionReset n wake).agenda = s.agenda := by simp [State.regionReset]

@[simp] theorem State.restartMonitors_agenda (s : State) (n) : (s.restartMonitors n).agenda = s.agenda := by
  refine State.each_agenda _ _ _ fun a t => ?_
  (repeat' split) <;> simp

@[simp] theorem State.setVset_agenda (s : State) (n v) : (s.setVset n v).agenda = s.agenda := by simp [State.setVset]
@[simp] theorem State.wakeRegion_agenda (s : State) (n) : (s.wakeRegion n).agenda = s.agenda := by simp [State.wakeRegion]
@[simp] theorem State.wakeAlone_agenda (s : State) (n) : (s.wakeAlone n).agenda = s.agenda := by simp [State.wakeAlone]
@[simp] theorem State.clearNet_agenda (s : State) (n) : (s.clearNet n).agenda = s.agenda := by simp [State.clearNet]

@[simp] theorem State.applyRegion_agenda (s : State) (n source addr f plain b start) : (s.applyRegion n source addr f plain b start).agenda = s.agenda := by
  simp only [State.applyRegion]
  (repeat' split) <;> simp

@[simp] theorem State.emptyRegion_agenda (s : State) (n) : (s.emptyRegion n).agenda = s.agenda := by simp [State.emptyRegion]

/-! ### Life cycle, keys and zeroisation -/

@[simp] theorem State.setSecure_agenda (s : State) (g : SecurityState → SecurityState) : (s.setSecure g).agenda = s.agenda := by simp [State.setSecure]
@[simp] theorem State.showLifeCycle_agenda (s : State) : s.showLifeCycle.agenda = s.agenda := by simp [State.showLifeCycle]
@[simp] theorem State.readFuses_agenda (s : State) (fuses) : (s.readFuses fuses).agenda = s.agenda := by simp [State.readFuses]
@[simp] theorem State.blow_agenda (s : State) (g) : (s.blow g).agenda = s.agenda := by simp [State.blow]

@[simp] theorem State.useKey_agenda (s : State) (b k) : (s.useKey b k).agenda = s.agenda := by
  unfold State.useKey
  split <;> simp

@[simp] theorem State.setRecord_agenda (s : State) (b r) : (s.setRecord b r).agenda = s.agenda := by simp [State.setRecord]
@[simp] theorem State.keepKey_agenda (s : State) (b k) : (s.keepKey b k).agenda = s.agenda := by simp [State.keepKey]

@[simp] theorem State.readKeys_agenda (s : State) (bad) : (s.readKeys bad).agenda = s.agenda := by
  unfold State.readKeys
  extract_lets held lost s1
  have h1 : s1.agenda = s.agenda := s.each_agenda _ _ fun b t => by split <;> simp
  simp [h1]

@[simp] theorem State.drawKey_agenda (s : State) : (s.drawKey).1.agenda = s.agenda := by simp [State.drawKey]
@[simp] theorem State.drawSealKeys_agenda (s : State) : s.drawSealKeys.agenda = s.agenda := by simp [State.drawSealKeys]
@[simp] theorem State.showRng_agenda (s : State) : s.showRng.agenda = s.agenda := by simp [State.showRng]
@[simp] theorem State.restartRng_agenda (s : State) : s.restartRng.agenda = s.agenda := by simp [State.restartRng]
@[simp] theorem State.zeroiseKeys_agenda (s : State) : s.zeroiseKeys.agenda = s.agenda := by simp [State.zeroiseKeys]
@[simp] theorem State.eraseSecrets_agenda (s : State) : s.eraseSecrets.agenda = s.agenda := by simp [State.eraseSecrets]
@[simp] theorem State.zeroised_agenda (s : State) : s.zeroised.agenda = s.agenda := by simp [State.zeroised]

/-! ### What resets clear and keep -/

@[simp] theorem State.heldFabric_agenda (t : State) (s : State) : (t.heldFabric s).agenda = t.agenda := by simp [State.heldFabric]
@[simp] theorem State.restartServices_agenda (s : State) (k) : (s.restartServices k).agenda = s.agenda := by simp [State.restartServices]
@[simp] theorem State.cleared_agenda (s0 : State) (k) : (s0.cleared k).agenda = s0.agenda := by simp [State.cleared]
@[simp] theorem State.freshGranules_agenda (s : State) (markLost) : (s.freshGranules markLost).agenda = s.agenda := by simp [State.freshGranules]
@[simp] theorem State.keepRng_agenda (s : State) (was : State) : (s.keepRng was).agenda = s.agenda := by simp [State.keepRng]
@[simp] theorem State.keepMonitors_agenda (s : State) (was : State) : (s.keepMonitors was).agenda = s.agenda := by simp [State.keepMonitors]

@[simp] theorem State.enterReset_agenda (s0 : State) (k cause) : (s0.enterReset k cause).agenda = s0.agenda := by
  unfold State.enterReset
  extract_lets s1 rs s2 s3 s4 s5 s6 s7
  have h2 : s2.agenda = s0.agenda := by simp [s2, s1]
  have h3 : s3.agenda = s0.agenda := by
    unfold s3
    split <;> simp [h2]
  have h6 : s6.agenda = s0.agenda := by simp [s6, s5, s4, h3]
  simp [s7, h6]

@[simp] theorem State.boundEvents_agenda (s : State) (c n pms) : (s.boundEvents c n pms).agenda = s.agenda := by
  refine State.each_agenda _ _ _ fun a t => ?_
  dsimp only
  (repeat' split) <;> simp

@[simp] theorem State.emptyInto_agenda (n) (s : State) (i j) : (State.emptyInto n s i j).agenda = s.agenda := by
  induction n generalizing s j with
  | zero => simp [State.emptyInto]
  | succ n ih =>
    simp only [State.emptyInto]
    (repeat' split) <;> simp [ih]

@[simp] theorem State.emptySorter_agenda (s : State) (n) : (s.emptySorter n).agenda = s.agenda := by simp [State.emptySorter]
@[simp] theorem State.fabricReset_agenda (s : State) : s.fabricReset.agenda = s.agenda := by simp [State.fabricReset]
@[simp] theorem State.restoreAll_agenda (s : State) : s.restoreAll.agenda = s.agenda := by simp [State.restoreAll]

/-! ### Loads of the device -/

@[simp] theorem State.driveDone_agenda (s : State) (low) : (s.driveDone low).agenda = s.agenda := by simp [State.driveDone]
@[simp] theorem State.enterPhase_agenda (s : State) (ph) : (s.enterPhase ph).agenda = s.agenda := by simp [State.enterPhase]
@[simp] theorem State.enterService_agenda (s : State) : s.enterService.agenda = s.agenda := by simp [State.enterService]

@[simp] theorem State.nextRegionLoad_agenda (s : State) : s.nextRegionLoad.agenda = s.agenda := by
  unfold State.nextRegionLoad
  split <;> simp

@[simp] theorem State.endXreq_agenda (s : State) (q cause) : (s.endXreq q cause).agenda = s.agenda := by simp [State.endXreq]

@[simp] theorem State.cancelRegionLoads_agenda (s : State) : s.cancelRegionLoads.agenda = s.agenda := by
  refine State.each_agenda _ _ _ fun a t => ?_
  (repeat' split) <;> simp

@[simp] theorem State.stream_agenda (s : State) (asked slot reload) : (s.stream asked slot reload).agenda = s.agenda := by simp [State.stream]
@[simp] theorem State.runLoad_agenda (s : State) (l) : (s.runLoad l).agenda = s.agenda := by simp [State.runLoad]
@[simp] theorem State.askLoad_agenda (s : State) (slot reload) : (s.askLoad slot reload).agenda = s.agenda := by simp [State.askLoad]
@[simp] theorem State.emptyAll_agenda (s : State) : s.emptyAll.agenda = s.agenda := by simp [State.emptyAll]
@[simp] theorem State.frankerService_agenda (s : State) : s.frankerService.agenda = s.agenda := by simp [State.frankerService]
@[simp] theorem State.endFabric_agenda (s : State) : s.endFabric.agenda = s.agenda := by simp [State.endFabric]
@[simp] theorem State.noImage_agenda (s : State) : s.noImage.agenda = s.agenda := by simp [State.noImage]
@[simp] theorem State.setFallback_agenda (s : State) (slot x) : (s.setFallback slot x).agenda = s.agenda := by simp [State.setFallback]
@[simp] theorem State.loadFailed_agenda (s : State) (l x) : (s.loadFailed l x).agenda = s.agenda := by simp [State.loadFailed]
@[simp] theorem State.askRegionReset_agenda (s : State) (n wake) : (s.askRegionReset n wake).agenda = s.agenda := by simp [State.askRegionReset]

@[simp] theorem State.endRegionLoad_agenda (s : State) (l cause) : (s.endRegionLoad l cause).agenda = s.agenda := by
  simp only [State.endRegionLoad]
  (repeat' split) <;> simp

@[simp] theorem State.regionLoadFails_agenda (s : State) (l x) : (s.regionLoadFails l x).agenda = s.agenda := by
  unfold State.regionLoadFails
  split <;> simp

@[simp] theorem State.refetchFails_agenda (s : State) (r) : (s.refetchFails r).agenda = s.agenda := by simp [State.refetchFails]

@[simp] theorem State.plainFabric_agenda (s : State) : s.plainFabric.agenda = s.agenda := by
  simp only [State.plainFabric]
  (repeat' split) <;> simp

@[simp] theorem State.setFirmware_agenda (s : State) (ready copy recovery) : (s.setFirmware ready copy recovery).agenda = s.agenda := by
  simp [State.setFirmware]

@[simp] theorem State.startCopy_agenda (s : State) (n recovery) : (s.startCopy n recovery).agenda = s.agenda := by simp [State.startCopy]
@[simp] theorem State.tryCopies_agenda (s : State) (f l) : (s.tryCopies f l).agenda = s.agenda := by fun_induction State.tryCopies <;> simp_all
@[simp] theorem State.watchdog_agenda (s : State) (f) : (s.watchdog f).agenda = s.agenda := by simp [State.watchdog]
@[simp] theorem State.beginStream_agenda (s : State) (b) : (s.beginStream b).agenda = s.agenda := by simp [State.beginStream]
@[simp] theorem svcConfigBroadcast_agenda (L bytes) (s : State) : (svcConfigBroadcast L bytes s).1.agenda = s.agenda := by simp [svcConfigBroadcast]
@[simp] theorem State.pollMembers_agenda (s : State) (slot r) : (s.pollMembers slot r).agenda = s.agenda := by simp [State.pollMembers]

@[simp] theorem State.broadcastLetter_agenda (s : State) (L) : (s.broadcastLetter L).agenda = s.agenda := by
  simp only [State.broadcastLetter]
  (repeat' split) <;> simp

/-! ### What commands to reset and load do -/

@[simp] theorem State.abandonShutdown_agenda (s : State) : s.abandonShutdown.agenda = s.agenda := by simp [State.abandonShutdown]

@[simp] theorem State.postroomReset_agenda (s : State) : s.postroomReset.agenda = s.agenda := by
  simp only [State.postroomReset]
  (repeat' split) <;> simp

@[simp] theorem State.timebaseReset_agenda (s : State) : s.timebaseReset.agenda = s.agenda := by simp [State.timebaseReset]
@[simp] theorem State.tapReset_agenda (s : State) : s.tapReset.agenda = s.agenda := by simp [State.tapReset]
@[simp] theorem State.islandReset_agenda (s : State) (d lost) : (s.islandReset d lost).agenda = s.agenda := by simp [State.islandReset]
@[simp] theorem State.islandCmd_agenda (s : State) (v lost) : (s.islandCmd v lost).agenda = s.agenda := by simp [State.islandCmd]
@[simp] theorem State.atStage_agenda (s : State) (n) : (s.atStage n).agenda = s.agenda := by simp [State.atStage]
@[simp] theorem State.deviceReset_agenda (s : State) : s.deviceReset.agenda = s.agenda := by simp [State.deviceReset]
@[simp] theorem State.fabricCmd_agenda (s : State) : s.fabricCmd.agenda = s.agenda := by simp [State.fabricCmd]

@[simp] theorem State.rstCmd_agenda (s : State) (p v) : (s.rstCmd p v).agenda = s.agenda := by
  simp only [State.rstCmd]
  (repeat' split) <;> simp

@[simp] theorem State.cfgCmd_agenda (s : State) (v) : (s.cfgCmd v).agenda = s.agenda := by simp [State.cfgCmd]
@[simp] theorem State.xreq_agenda (s : State) (q addr) : (s.xreq q addr).agenda = s.agenda := by simp [State.xreq]

/-! ### The register space by address -/

@[simp] theorem State.plainWrite_agenda (s : State) (r i w v) : (s.plainWrite r i w v).agenda = s.agenda := by simp [State.plainWrite]
@[simp] theorem State.rgnCtl_agenda (s : State) (n v) : (s.rgnCtl n v).agenda = s.agenda := by simp [State.rgnCtl]
@[simp] theorem State.laneDfe_agenda (s : State) (i v) : (s.laneDfe i v).agenda = s.agenda := by simp [State.laneDfe]
@[simp] theorem State.laneRxeq_agenda (s : State) (l v) : (s.laneRxeq l v).agenda = s.agenda := by simp [State.laneRxeq]
@[simp] theorem State.laneErr_agenda (s : State) (l v) : (s.laneErr l v).agenda = s.agenda := by simp [State.laneErr]
@[simp] theorem State.insWord_agenda (s : State) (p n w v) : (s.insWord p n w v).agenda = s.agenda := by simp [State.insWord]

@[simp] theorem State.lockable_agenda (s : State) (p r i locked) (g : State → State) (hg : ∀ t, (g t).agenda = t.agenda) :
    (s.lockable p r i locked g).agenda = s.agenda := by simp [State.lockable, hg]

@[simp] theorem State.writePin_agenda (s : State) (p r i w v) : (s.writePin p r i w v).agenda = s.agenda := by
  simp only [State.writePin]
  (repeat' split) <;> simp

@[simp] theorem State.writePst_agenda (s : State) (p r i w v) : (s.writePst p r i w v).agenda = s.agenda := by
  simp only [State.writePst]
  (repeat' split) <;> simp

@[simp] theorem State.writeReg_agenda (s : State) (p r i w v) : (s.writeReg p r i w v).agenda = s.agenda := by
  unfold State.writeReg
  split
  · simp
  · simp
  · simp
  · split <;> simp

@[simp] theorem State.makeWrite_agenda (s : State) (p a v) : (s.makeWrite p a v).agenda = s.agenda := by
  simp only [State.makeWrite]
  (repeat' split) <;> simp

@[simp] theorem State.rngRead_agenda (s : State) (p) : (s.rngRead p).agenda = s.agenda := by simp [State.rngRead]

@[simp] theorem State.readReg_agenda (s : State) (p r i w) : (s.readReg p r i w).agenda = s.agenda := by
  unfold State.readReg
  split <;> simp

@[simp] theorem State.makeRead_agenda (s : State) (p a) : (s.makeRead p a).agenda = s.agenda := by
  simp only [State.makeRead]
  (repeat' split) <;> simp

@[simp] theorem State.controlReply_agenda (s : State) (n tag v) : (s.controlReply n tag v).agenda = s.agenda := by simp [State.controlReply]
@[simp] theorem State.misform_agenda (s : State) (p a write) : (s.misform p a write).agenda = s.agenda := by simp [State.misform]

@[simp] theorem State.makeAccess_agenda (s : State) (p a write v form) : (s.makeAccess p a write v form).agenda = s.agenda := by
  simp only [State.makeAccess]
  (repeat' split) <;> simp

@[simp] theorem State.busAccess_agenda (s : State) (p a write v form) : (s.busAccess p a write v form).agenda = s.agenda := by simp [State.busAccess]

@[simp] theorem State.retry_agenda (s : State) (w) : (s.retry w).agenda = s.agenda := by
  simp only [State.retry]
  (repeat' split) <;> simp

@[simp] theorem State.serveAccesses_agenda (s : State) : s.serveAccesses.agenda = s.agenda := by simp [State.serveAccesses]

@[simp] theorem State.deliverPulse_agenda (s : State) (p) : (s.deliverPulse p).agenda = s.agenda := by
  unfold State.deliverPulse
  split <;> simp

@[simp] theorem State.servePulses_agenda (s : State) (d) : (s.servePulses d).agenda = s.agenda := by simp [State.servePulses]

@[simp] theorem State.serveLetter_agenda (s : State) (L) : (s.serveLetter L).agenda = s.agenda := by
  unfold State.serveLetter
  split <;> simp

@[simp] theorem State.serveStalled_agenda (s : State) (d) : (s.serveStalled d).agenda = s.agenda := by simp [State.serveStalled]

@[simp] theorem State.makeSetting_agenda (s : State) (e) : (s.makeSetting e).agenda = s.agenda := by
  unfold State.makeSetting
  split <;> simp

@[simp] theorem State.imageSettings_agenda (s : State) (l) : (s.imageSettings l).agenda = s.agenda := by simp [State.imageSettings]
@[simp] theorem State.serveSettings_agenda (s : State) (d) : (s.serveSettings d).agenda = s.agenda := by simp [State.serveSettings]
@[simp] theorem State.serveWaiting_agenda (s : State) (d) : (s.serveWaiting d).agenda = s.agenda := by simp [State.serveWaiting]

/-! ### Loads of a full image as they end -/

@[simp] theorem State.imageRegulators_agenda (s : State) (l) : (s.imageRegulators l).agenda = s.agenda := by simp [State.imageRegulators]
@[simp] theorem State.assignOwners_agenda (s : State) (t) : (s.assignOwners t).agenda = s.agenda := by simp [State.assignOwners]

@[simp] theorem State.applyFull_agenda (s : State) (slot f b) : (s.applyFull slot f b).agenda = s.agenda := by
  unfold State.applyFull
  split <;> simp

@[simp] theorem State.imageChecked_agenda (s : State) (l f b) : (s.imageChecked l f b).agenda = s.agenda := by simp [State.imageChecked]
@[simp] theorem State.waitedResets_agenda (s : State) : s.waitedResets.agenda = s.agenda := by simp [State.waitedResets]
@[simp] theorem State.userOperation_agenda (s : State) (l) : (s.userOperation l).agenda = s.agenda := by simp [State.userOperation]
@[simp] theorem State.endBroadcast_agenda (s : State) (b outcomes) : (s.endBroadcast b outcomes).agenda = s.agenda := by simp [State.endBroadcast]
@[simp] theorem State.joinStream_agenda (s : State) : s.joinStream.agenda = s.agenda := by simp [State.joinStream]

@[simp] theorem State.bulkFlit_agenda (s : State) (m vl first body) : (s.bulkFlit m vl first body).agenda = s.agenda := by
  unfold State.bulkFlit
  split <;> simp

@[simp] theorem State.dropBroadcast_agenda (s : State) (st) : (s.dropBroadcast st).agenda = s.agenda := by simp [State.dropBroadcast]

theorem execImageStreamDone_answers (f body) (s : State) : Answers s (execImageStreamDone f body s) := by
  simp only [execImageStreamDone]
  (repeat' split) <;> simp

theorem execCfgDoneHigh_answers (outcomes) (s : State) : Answers s (execCfgDoneHigh outcomes s) := by
  simp only [execCfgDoneHigh]
  (repeat' split) <;> simp

theorem execBroadcastGapTimeout_answers (s : State) : Answers s (execBroadcastGapTimeout s) := by
  unfold execBroadcastGapTimeout
  split <;> simp

theorem execBroadcastAnswerReceived_answers (r m accept) (s : State) : Answers s (execBroadcastAnswerReceived r m accept s) := by
  unfold execBroadcastAnswerReceived
  split <;> simp

theorem execBroadcastPollTimeout_answers (s : State) : Answers s (execBroadcastPollTimeout s) := by
  unfold execBroadcastPollTimeout
  split <;> simp

/-! ### The CONFIG services -/

@[simp] theorem State.feedErases_agenda (n) (s : State) (a) : (State.feedErases n s a).agenda = s.agenda := by fun_induction State.feedErases <;> simp_all
@[simp] theorem State.beginWrite_agenda (s : State) (slot length) : (s.beginWrite slot length).agenda = s.agenda := by simp [State.beginWrite]
@[simp] theorem svcConfigWrite_agenda (L bytes) (s : State) : (svcConfigWrite L bytes s).1.agenda = s.agenda := by simp [svcConfigWrite]
@[simp] theorem State.reprogram_agenda (s : State) (b) : (s.reprogram b).agenda = s.agenda := by simp [State.reprogram]

@[simp] theorem State.finishWrite_agenda (s : State) (w f opcode) : (s.finishWrite w f opcode).agenda = s.agenda := by
  simp only [State.finishWrite]
  (repeat' split) <;> simp

@[simp] theorem svcConfigSelect_agenda (L bytes) (s : State) : (svcConfigSelect L bytes s).1.agenda = s.agenda := by simp [svcConfigSelect]

@[simp] theorem svcConfigReload_agenda (L bytes) (s : State) : (svcConfigReload L bytes s).1.agenda = s.agenda := by
  simp only [svcConfigReload]
  (repeat' split) <;> simp

@[simp] theorem State.resumeMarked_agenda (s : State) : s.resumeMarked.agenda = s.agenda := by simp [State.resumeMarked]
@[simp] theorem State.logErased_agenda (s : State) (b) : (s.logErased b).agenda = s.agenda := by simp [State.logErased]

@[simp] theorem State.eraseEnded_agenda (s : State) (b) : (s.eraseEnded b).agenda = s.agenda := by
  simp only [State.eraseEnded]
  (repeat' split) <;> simp

theorem execConfigWriteComplete_answers (f) (s : State) : Answers s (execConfigWriteComplete f s) := by
  unfold execConfigWriteComplete
  split <;> simp

/-! ### Clock islands and crossings -/

@[simp] theorem State.crossOpen_agenda (s : State) (d) : (s.crossOpen d).agenda = s.agenda := by simp [State.crossOpen]
@[simp] theorem State.released_agenda (s : State) (d) : (s.released d).agenda = s.agenda := by simp [State.released]

end Sys2Proof.Machine
end

section
/-! PROOFS. The agenda under leases, power, starts, firmware, products and self-test. -/

namespace Sys2Proof.Machine

/-! ### Series and leases -/

@[simp] theorem svcLeaseSeriesDefine_agenda (L bytes) (s : State) : (svcLeaseSeriesDefine L bytes s).1.agenda = s.agenda := by simp [svcLeaseSeriesDefine]

@[simp] theorem svcLeaseSeriesOpen_agenda (L bytes) (s : State) : (svcLeaseSeriesOpen L bytes s).1.agenda = s.agenda := by
  simp only [svcLeaseSeriesOpen]
  (repeat' split) <;> simp

@[simp] theorem State.pumpLeases_agenda (s : State) : s.pumpLeases.agenda = s.agenda := by simp [State.pumpLeases]

@[simp] theorem State.leaseRequest_agenda (s : State) (L b) : (s.leaseRequest L b).1.agenda = s.agenda := by
  simp only [State.leaseRequest]
  (repeat' split) <;> simp

@[simp] theorem State.retireLease_agenda (s : State) (x) : (s.retireLease x).agenda = s.agenda := by simp [State.retireLease]

@[simp] theorem svcLeaseRetire_agenda (L bytes) (s : State) : (svcLeaseRetire L bytes s).1.agenda = s.agenda := by
  simp only [svcLeaseRetire]
  (repeat' split) <;> simp

@[simp] theorem svcLeaseQuery_agenda (L bytes) (s : State) : (svcLeaseQuery L bytes s).1.agenda = s.agenda := by
  simp only [svcLeaseQuery]
  (repeat' split) <;> simp

@[simp] theorem State.flushAudit_agenda (s : State) : s.flushAudit.agenda = s.agenda := by simp [State.flushAudit]

@[simp] theorem svcLogAuditBind_agenda (L bytes) (s : State) : (svcLogAuditBind L bytes s).1.agenda = s.agenda := by
  simp only [svcLogAuditBind]
  (repeat' split) <;> simp

@[simp] theorem State.checkOverlap_agenda (s : State) (r e) : (s.checkOverlap r e).agenda = s.agenda := by
  unfold State.checkOverlap
  split <;> simp

theorem execLeaseProposalReceived_answers (r series base count) (s : State) : Answers s (execLeaseProposalReceived r series base count s) := by
  unfold execLeaseProposalReceived
  split <;> simp

theorem execLeaseAckReceived_answers (r m series base ack high) (s : State) : Answers s (execLeaseAckReceived r m series base ack high s) := by
  unfold execLeaseAckReceived
  split <;> simp

theorem execLeaseProposalTimeout_answers (ring series) (s : State) : Answers s (execLeaseProposalTimeout ring series s) := by
  unfold execLeaseProposalTimeout
  split <;> simp

theorem execLeaseRetry_answers (ring series) (s : State) : Answers s (execLeaseRetry ring series s) := by
  unfold execLeaseRetry
  split <;> simp

theorem execLeaseAutoRetry_answers (ring series) (s : State) : Answers s (execLeaseAutoRetry ring series s) := by
  unfold execLeaseAutoRetry
  split <;> simp

theorem execReconcile_answers (r defs highs leases) (s : State) : Answers s (execReconcile r defs highs leases s) := by
  unfold execReconcile
  rw [answers_next]
  split
  · rfl
  · refine State.each_agenda_of (State.each_agenda_of (by simp) fun e t => ?_) fun e t => ?_
    · split <;> simp
    · simp

/-! ### The power states -/

@[simp] theorem State.setPower_agenda (s : State) (g : PowerState → PowerState) : (s.setPower g).agenda = s.agenda := by simp [State.setPower]
@[simp] theorem State.arrive_agenda (s : State) (st) : (s.arrive st).agenda = s.agenda := by simp [State.arrive]
@[simp] theorem State.standbyRegion_agenda (s : State) (retain n) : (s.standbyRegion retain n).agenda = s.agenda := by simp [State.standbyRegion]
@[simp] theorem State.octetsDown_agenda (s : State) : s.octetsDown.agenda = s.agenda := by simp [State.octetsDown]
@[simp] theorem State.enterStandby_agenda (s : State) (retain) : (s.enterStandby retain).agenda = s.agenda := by simp [State.enterStandby]
@[simp] theorem State.releaseBank_agenda (s : State) (b) : (s.releaseBank b).agenda = s.agenda := by simp [State.releaseBank]
@[simp] theorem State.wakeDone_agenda (s : State) : s.wakeDone.agenda = s.agenda := by simp [State.wakeDone]
@[simp] theorem State.wakeOn_agenda (s : State) : s.wakeOn.agenda = s.agenda := by simp [State.wakeOn]
@[simp] theorem State.leaveStandby_agenda (s : State) (cause) : (s.leaveStandby cause).agenda = s.agenda := by simp [State.leaveStandby]
@[simp] theorem State.reopened_agenda (s : State) (n) : (s.reopened n).agenda = s.agenda := by simp [State.reopened]
@[simp] theorem State.recordAxes_agenda (s : State) : s.recordAxes.agenda = s.agenda := by simp [State.recordAxes]
@[simp] theorem State.enterHibernate_agenda (s : State) (cause) : (s.enterHibernate cause).agenda = s.agenda := by simp [State.enterHibernate]
@[simp] theorem State.beginLeaving_agenda (s : State) (target) : (s.beginLeaving target).agenda = s.agenda := by simp [State.beginLeaving]
@[simp] theorem State.finishLeaving_agenda (s : State) : s.finishLeaving.agenda = s.agenda := by simp [State.finishLeaving]
@[simp] theorem State.depart_agenda (s : State) : s.depart.agenda = s.agenda := by simp [State.depart]

@[simp] theorem State.sliceLoss_agenda (s : State) (k) : (s.sliceLoss k).agenda = s.agenda := by
  unfold State.sliceLoss
  split <;> simp

@[simp] theorem State.beginSlice_agenda (s : State) (t) : (s.beginSlice t).agenda = s.agenda := by simp [State.beginSlice]
@[simp] theorem State.endSlice_agenda (s : State) (k) : (s.endSlice k).agenda = s.agenda := by simp [State.endSlice]
@[simp] theorem State.beginSelfTest_agenda (s : State) : s.beginSelfTest.agenda = s.agenda := by simp [State.beginSelfTest]

@[simp] theorem State.leaveOn_agenda (s : State) : s.leaveOn.agenda = s.agenda := by
  unfold State.leaveOn
  split <;> simp

/-! ### Region images, loads and resets -/

@[simp] theorem State.discover_agenda (s : State) (ok) : (s.discover ok).agenda = s.agenda := by simp [State.discover]

@[simp] theorem svcImageOpen_agenda (L f bytes) (s : State) : (svcImageOpen L f bytes s).1.agenda = s.agenda := by
  unfold svcImageOpen
  split <;> simp

@[simp] theorem svcImageClose_agenda (L bytes) (s : State) : (svcImageClose L bytes s).1.agenda = s.agenda := by
  simp only [svcImageClose]
  (repeat' split) <;> simp

@[simp] theorem svcRegionLoad_agenda (L bytes) (s : State) : (svcRegionLoad L bytes s).1.agenda = s.agenda := by
  simp only [svcRegionLoad]
  (repeat' split) <;> simp

@[simp] theorem State.queueLoad_agenda (s : State) (o) : (s.queueLoad o).agenda = s.agenda := by simp [State.queueLoad]
@[simp] theorem svcRegionReset_agenda (L bytes) (s : State) : (svcRegionReset L bytes s).1.agenda = s.agenda := by simp [svcRegionReset]
@[simp] theorem State.serveReset_agenda (s : State) (n wake) : (s.serveReset n wake).agenda = s.agenda := by simp [State.serveReset]
@[simp] theorem svcRegionQuery_agenda (L bytes) (s : State) : (svcRegionQuery L bytes s).1.agenda = s.agenda := by simp [svcRegionQuery]
@[simp] theorem State.restored_agenda (s : State) (n ok) : (s.restored n ok).agenda = s.agenda := by simp [State.restored]
@[simp] theorem State.scrubLast_agenda (s : State) (frame region uncorr) : (s.scrubLast frame region uncorr).agenda = s.agenda := by simp [State.scrubLast]

@[simp] theorem State.essentialUpset_agenda (s : State) (n frame uncorr) : (s.essentialUpset n frame uncorr).agenda = s.agenda := by
  simp [State.essentialUpset]

@[simp] theorem State.globalUpset_agenda (s : State) (frame uncorr) : (s.globalUpset frame uncorr).agenda = s.agenda := by simp [State.globalUpset]
@[simp] theorem State.upset_agenda (s : State) (n frame essential uncorr) : (s.upset n frame essential uncorr).agenda = s.agenda := by simp [State.upset]
@[simp] theorem State.beginRefetch_agenda (s : State) (n frame word) : (s.beginRefetch n frame word).agenda = s.agenda := by simp [State.beginRefetch]
@[simp] theorem State.scrubNext_agenda (s : State) (place) : (s.scrubNext place).agenda = s.agenda := by simp [State.scrubNext]

@[simp] theorem State.scrubRead_agenda (s : State) (place r) : (s.scrubRead place r).agenda = s.agenda := by
  simp only [State.scrubRead]
  (repeat' split) <;> simp

theorem execRegionLoadComplete_answers (f body) (s : State) : Answers s (execRegionLoadComplete f body s) := by
  simp only [execRegionLoadComplete]
  (repeat' split) <;> simp

theorem execFrameRefetchDone_answers (ok) (s : State) : Answers s (execFrameRefetchDone ok s) := by
  unfold execFrameRefetchDone
  split <;> simp

/-! ### Power and sensing -/

@[simp] theorem svcPowerState_agenda (L bytes) (s : State) : (svcPowerState L bytes s).1.agenda = s.agenda := by
  simp only [svcPowerState]
  (repeat' split) <;> simp

@[simp] theorem State.changePower_agenda (s : State) (t retain) : (s.changePower t retain).agenda = s.agenda := by simp [State.changePower]
@[simp] theorem svcPowerMargin_agenda (L bytes) (s : State) : (svcPowerMargin L bytes s).1.agenda = s.agenda := by simp [svcPowerMargin]

@[simp] theorem svcPowerRail_agenda (L bytes) (s : State) : (svcPowerRail L bytes s).1.agenda = s.agenda := by
  unfold svcPowerRail
  split <;> simp

@[simp] theorem State.changeRail_agenda (s : State) (bank r) : (s.changeRail bank r).agenda = s.agenda := by simp [State.changeRail]

@[simp] theorem State.polled_agenda (s : State) (e a) : (s.polled e a).agenda = s.agenda := by
  simp only [State.polled]
  (repeat' split) <;> simp

@[simp] theorem State.tickEvents_agenda (s : State) (n counts) : (s.tickEvents n counts).agenda = s.agenda := by simp [State.tickEvents]

@[simp] theorem State.showRatio_agenda (s : State) (n r) : (s.showRatio n r).agenda = s.agenda := by
  unfold State.showRatio
  split <;> simp

@[simp] theorem State.raiseVset_agenda (s : State) (n codes) : (s.raiseVset n codes).agenda = s.agenda := by simp [State.raiseVset]

@[simp] theorem State.sillage_agenda (s : State) (n r) : (s.sillage n r).agenda = s.agenda := by
  unfold State.sillage
  split <;> simp

@[simp] theorem State.countWindows_agenda (s : State) (n r) : (s.countWindows n r).agenda = s.agenda := by simp [State.countWindows]
@[simp] theorem State.deficits_agenda (s : State) (n l atCap) : (s.deficits n l atCap).agenda = s.agenda := by simp [State.deficits]
@[simp] theorem State.thermal_agenda (s : State) (f) : (s.thermal f).agenda = s.agenda := by simp [State.thermal]
@[simp] theorem State.senseTemps_agenda (s : State) (l) : (s.senseTemps l).agenda = s.agenda := by simp [State.senseTemps]
@[simp] theorem State.sensePower_agenda (s : State) (x) : (s.sensePower x).agenda = s.agenda := by simp [State.sensePower]
@[simp] theorem State.wakeUp_agenda (s : State) (cause hibernate) : (s.wakeUp cause hibernate).agenda = s.agenda := by simp [State.wakeUp]
@[simp] theorem State.ainLimit_agenda (s : State) (i code) : (s.ainLimit i code).agenda = s.agenda := by simp [State.ainLimit]

theorem execRegFault_answers (site) (s : State) : Answers s (execRegFault site s) := by
  unfold execRegFault
  split <;> simp

/-! ### Resets and starts -/

@[simp] theorem State.enter_agenda (s : State) (k cause stage) : (s.enter k cause stage).agenda = s.agenda := by simp [State.enter]
@[simp] theorem State.lockPlls_agenda (s : State) : s.lockPlls.agenda = s.agenda := by simp [State.lockPlls]
@[simp] theorem State.returnAxes_agenda (s : State) : s.returnAxes.agenda = s.agenda := by simp [State.returnAxes]

@[simp] theorem State.findNewest_agenda (s : State) (newest) : (s.findNewest newest).agenda = s.agenda := by
  unfold State.findNewest
  split <;> simp

@[simp] theorem State.readMemory_agenda (s : State) (f) : (s.readMemory f).agenda = s.agenda := by
  unfold State.readMemory
  split <;> simp

@[simp] theorem State.readFrankerRecord_agenda (s : State) (ok) : (s.readFrankerRecord ok).agenda = s.agenda := by simp [State.readFrankerRecord]
@[simp] theorem State.bootLoad_agenda (s : State) (f) : (s.bootLoad f).agenda = s.agenda := by simp [State.bootLoad]
@[simp] theorem State.readUnit_agenda (s : State) (f) : (s.readUnit f).agenda = s.agenda := by simp [State.readUnit]
@[simp] theorem State.letGo_agenda (s : State) (f) : (s.letGo f).agenda = s.agenda := by simp [State.letGo]
@[simp] theorem State.letGoIf_agenda (s : State) (stage f) : (s.letGoIf stage f).agenda = s.agenda := by simp [State.letGoIf]
@[simp] theorem State.vaonLoss_agenda (s : State) : s.vaonLoss.agenda = s.agenda := by simp [State.vaonLoss]
@[simp] theorem State.resetLow_agenda (s : State) : s.resetLow.agenda = s.agenda := by simp [State.resetLow]

@[simp] theorem State.resumeSealing_agenda (s : State) : s.resumeSealing.agenda = s.agenda := by
  simp only [State.resumeSealing]
  (repeat' split) <;> simp

@[simp] theorem State.brownOut_agenda (s : State) : s.brownOut.agenda = s.agenda := by simp [State.brownOut]
@[simp] theorem State.stacksLost_agenda (s : State) : s.stacksLost.agenda = s.agenda := by simp [State.stacksLost]
@[simp] theorem State.crossWindow_agenda (s : State) (i side) : (s.crossWindow i side).agenda = s.agenda := by simp [State.crossWindow]

/-! ### The DEVICE services -/

@[simp] theorem svcTimeSet_agenda (L bytes) (s : State) : (svcTimeSet L bytes s).1.agenda = s.agenda := by simp [svcTimeSet]

@[simp] theorem svcDeviceReset_agenda (L bytes) (s : State) : (svcDeviceReset L bytes s).1.agenda = s.agenda := by
  simp only [svcDeviceReset]
  (repeat' split) <;> simp

@[simp] theorem State.noReply_agenda (s : State) (L) : (s.noReply L).agenda = s.agenda := by simp [State.noReply]
@[simp] theorem svcDeviceShutdown_agenda (L bytes) (s : State) : (svcDeviceShutdown L bytes s).1.agenda = s.agenda := by simp [svcDeviceShutdown]

/-! ### The commands of the life cycle, the generator and the test access port -/

@[simp] theorem svcAuditExport_agenda (L bytes) (s : State) : (svcAuditExport L bytes s).1.agenda = s.agenda := by simp [svcAuditExport]
@[simp] theorem State.restartRecords_agenda (s : State) (boundOnly) : (s.restartRecords boundOnly).agenda = s.agenda := by simp [State.restartRecords]
@[simp] theorem svcAuditRotate_agenda (L bytes) (s : State) : (svcAuditRotate L bytes s).1.agenda = s.agenda := by simp [svcAuditRotate]
@[simp] theorem State.rotateAudit_agenda (s : State) : s.rotateAudit.agenda = s.agenda := by simp [State.rotateAudit]
@[simp] theorem svcGoldenWrite_agenda (L bytes) (s : State) : (svcGoldenWrite L bytes s).1.agenda = s.agenda := by simp [svcGoldenWrite]
@[simp] theorem State.provision_agenda (s : State) (ki kv unprogrammed) : (s.provision ki kv unprogrammed).agenda = s.agenda := by simp [State.provision]

@[simp] theorem svcProvision_agenda (L unprogrammed bytes) (s : State) : (svcProvision L unprogrammed bytes s).1.agenda = s.agenda := by
  simp only [svcProvision]
  (repeat' split) <;> simp

@[simp] theorem svcKeyLock_agenda (L bytes) (s : State) : (svcKeyLock L bytes s).1.agenda = s.agenda := by simp [svcKeyLock]
@[simp] theorem svcKeyReturn_agenda (L bytes) (s : State) : (svcKeyReturn L bytes s).1.agenda = s.agenda := by simp [svcKeyReturn]
@[simp] theorem svcKeyScrap_agenda (L bytes) (s : State) : (svcKeyScrap L bytes s).1.agenda = s.agenda := by simp [svcKeyScrap]
@[simp] theorem State.zeroise_agenda (s : State) : s.zeroise.agenda = s.agenda := by simp [State.zeroise]

@[simp] theorem State.thenZeroise_agenda (s t : State) (ht : t.agenda = s.agenda) : (s.thenZeroise t).agenda = s.agenda := by
  unfold State.thenZeroise
  split <;> simp [ht]

@[simp] theorem State.disableSource_agenda (s : State) (k rct apt) : (s.disableSource k rct apt).agenda = s.agenda := by simp [State.disableSource]
@[simp] theorem State.beginScan_agenda (s : State) : s.beginScan.agenda = s.agenda := by simp [State.beginScan]
@[simp] theorem State.setInstruction_agenda (s : State) (code) : (s.setInstruction code).agenda = s.agenda := by simp [State.setInstruction]
@[simp] theorem State.loadInstruction_agenda (s : State) (code) : (s.loadInstruction code).agenda = s.agenda := by simp [State.loadInstruction]

/-! ### The start of the Postroom firmware -/

@[simp] theorem State.unknownRecords_agenda (s : State) : s.unknownRecords.agenda = s.agenda := by
  refine State.each_agenda _ _ _ fun a t => ?_
  (repeat' split) <;> simp

@[simp] theorem State.recreateLeases_agenda (s : State) : s.recreateLeases.agenda = s.agenda := by
  refine State.each_agenda _ _ _ fun a t => ?_
  (repeat' split) <;> simp

@[simp] theorem State.sealOwn_agenda (s : State) : s.sealOwn.agenda = s.agenda := by simp [State.sealOwn]
@[simp] theorem State.awaitBroadcast_agenda (s : State) : s.awaitBroadcast.agenda = s.agenda := by simp [State.awaitBroadcast]
@[simp] theorem State.afterReady_agenda (s : State) (f) : (s.afterReady f).agenda = s.agenda := by simp [State.afterReady]
@[simp] theorem State.recover_agenda (s : State) : s.recover.agenda = s.agenda := by simp [State.recover]
@[simp] theorem State.refillLeases_agenda (s : State) (places) : (s.refillLeases places).agenda = s.agenda := by simp [State.refillLeases]

theorem execFirmwareWatchdog_answers (s : State) : Answers s (execFirmwareWatchdog s) := by
  unfold execFirmwareWatchdog
  split <;> simp

theorem execFirmwareReady_answers (s : State) : Answers s (execFirmwareReady s) := by
  simp only [execFirmwareReady]
  (repeat' split) <;> simp

/-! ### Products and the eight modes -/

@[simp] theorem State.bindingNotice_agenda (s : State) (c m) : (s.bindingNotice c m).agenda = s.agenda := by
  simp only [State.bindingNotice]
  (repeat' split) <;> simp

@[simp] theorem State.sendProduct_agenda (s : State) (c i m) : (s.sendProduct c i m).agenda = s.agenda := by
  unfold State.sendProduct
  split <;> simp

@[simp] theorem State.letterDue_agenda (s : State) (c i m) : (s.letterDue c i m).agenda = s.agenda := by simp [State.letterDue]

@[simp] theorem State.applyChange_agenda (s : State) (c start) : (s.applyChange c start).agenda = s.agenda := by
  unfold State.applyChange
  split <;> simp

@[simp] theorem State.identFor_agenda (s : State) (c mode block) : (s.identFor c mode block).1.agenda = s.agenda := by
  simp only [State.identFor]
  split
  · rfl
  · split
    · rfl
    · split
      · simp
      · next h => simp [State.drawIdent_agenda h]

@[simp] theorem State.stitchCheck_agenda (s : State) (p) : (s.stitchCheck p).agenda = s.agenda := by simp [State.stitchCheck]
@[simp] theorem State.jobEnds_agenda (s : State) (c p ended) : (s.jobEnds c p ended).agenda = s.agenda := by simp [State.jobEnds]

@[simp] theorem State.writeMap_agenda (s : State) (c p) : (s.writeMap c p).agenda = s.agenda := by
  unfold State.writeMap
  split <;> simp

@[simp] theorem State.serialsOut_agenda (s : State) (c) : (s.serialsOut c).agenda = s.agenda := by simp [State.serialsOut]
@[simp] theorem State.noIdent_agenda (s : State) (c) : (s.noIdent c).agenda = s.agenda := by simp [State.noIdent]

@[simp] theorem State.beginWith_agenda (s : State) (c index start trigAt backward) : (s.beginWith c index start trigAt backward).agenda = s.agenda := by
  unfold State.beginWith
  extract_lets x mb follower job check len comp again
  split
  · next h => simp [agenda_of_eq_mk h]
  · next t ident h =>
    extract_lets s1 x1 stop seed s2 gen line boxes p alone spare x2 x3 x4 s3 s4 s5 s6 s7 s8 s9
    have h3 : s3.agenda = s.agenda := by
      have h1 : s1.agenda = s.agenda := by simp [s1, agenda_of_eq_mk h]
      refine (s2.setChan_agenda c _).trans ?_
      unfold s2
      split <;> simp [h1]
    have h4 : s4.agenda = s.agenda := by
      unfold s4
      split <;> simp [h3]
    have h9 : s9.agenda = s.agenda := by
      unfold s9
      (repeat' split) <;> simp [s8, s7, s6, s5, h4]
    simp [h9]

@[simp] theorem State.stitchMismatch_agenda (s : State) (c) : (s.stitchMismatch c).agenda = s.agenda := by simp [State.stitchMismatch]

@[simp] theorem State.tryBegin_agenda (s : State) (c index start trigAt backward) : (s.tryBegin c index start trigAt backward).agenda = s.agenda := by
  simp only [State.tryBegin]
  (repeat' split) <;> simp

@[simp] theorem State.storeLine_agenda (s : State) (c p bytes) : (s.storeLine c p bytes).agenda = s.agenda := by
  simp only [State.storeLine]
  (repeat' split) <;> simp

@[simp] theorem State.vizon_agenda (s : State) (c h data) : (s.vizon c h data).agenda = s.agenda := by
  simp only [State.vizon]
  (repeat' split) <;> simp

@[simp] theorem State.inspect_agenda (s : State) (c p) : (s.inspect c p).agenda = s.agenda := by
  simp only [State.inspect]
  (repeat' split) <;> simp

@[simp] theorem State.fixVerdict_agenda (s : State) (c p code) : (s.fixVerdict c p code).agenda = s.agenda := by simp [State.fixVerdict]
@[simp] theorem State.giveVerdict_agenda (s : State) (c p from_ code) : (s.giveVerdict c p from_ code).agenda = s.agenda := by simp [State.giveVerdict]
@[simp] theorem State.judgeNozzle_agenda (s : State) (c n) : (s.judgeNozzle c n).agenda = s.agenda := by simp [State.judgeNozzle]
@[simp] theorem State.rebuildMap_agenda (s : State) (c was) : (s.rebuildMap c was).agenda = s.agenda := by simp [State.rebuildMap]
@[simp] theorem State.suspects_agenda (s : State) (c p nozzles) : (s.suspects c p nozzles).agenda = s.agenda := by simp [State.suspects]

@[simp] theorem svcVerdict_agenda (L bytes) (s : State) : (svcVerdict L bytes s).1.agenda = s.agenda := by
  simp only [svcVerdict]
  (repeat' split) <;> simp

@[simp] theorem svcChannelHealthSet_agenda (L bytes) (s : State) : (svcChannelHealthSet L bytes s).1.agenda = s.agenda := by
  unfold svcChannelHealthSet
  split <;> simp

@[simp] theorem svcChannelHealthQuery_agenda (L bytes) (s : State) : (svcChannelHealthQuery L bytes s).1.agenda = s.agenda := by
  unfold svcChannelHealthQuery
  split <;> simp

@[simp] theorem State.writeBackMap_agenda (s : State) (c) : (s.writeBackMap c).agenda = s.agenda := by
  simp only [State.writeBackMap]
  (repeat' split) <;> simp

@[simp] theorem State.trigger_agenda (s : State) (c t rising held) : (s.trigger c t rising held).agenda = s.agenda := by
  simp only [State.trigger]
  (repeat' split) <;> simp

@[simp] theorem svcJobOpen_agenda (L read bytes) (s : State) : (svcJobOpen L read bytes s).1.agenda = s.agenda := by
  simp only [svcJobOpen]
  (repeat' split) <;> simp

@[simp] theorem svcJobClose_agenda (L bytes) (s : State) : (svcJobClose L bytes s).1.agenda = s.agenda := by
  simp only [svcJobClose]
  (repeat' split) <;> simp

@[simp] theorem svcJobQuery_agenda (L bytes) (s : State) : (svcJobQuery L bytes s).1.agenda = s.agenda := by
  unfold svcJobQuery
  split <;> simp

theorem execProductLetterBudget_answers (s : State) : Answers s (execProductLetterBudget s) := by
  unfold execProductLetterBudget
  split <;> simp

theorem execProductBegin_answers (c backward) (s : State) : Answers s (execProductBegin c backward s) := by
  simp only [execProductBegin]
  (repeat' split) <;> simp

theorem execVizonLine_answers (l header data) (s : State) : Answers s (execVizonLine l header data s) := by
  unfold execVizonLine
  split <;> simp

theorem execMapGenerationComplete_answers (c) (s : State) : Answers s (execMapGenerationComplete c s) := by
  simp only [execMapGenerationComplete]
  (repeat' split) <;> simp

theorem execHeadDriverStatus_answers (l failed) (s : State) : Answers s (execHeadDriverStatus l failed s) := by
  unfold execHeadDriverStatus
  split <;> simp

theorem execStitchPartnerMessage_answers (link group m) (s : State) : Answers s (execStitchPartnerMessage link group m s) := by
  unfold execStitchPartnerMessage
  rw [answers_next]
  cases m with
  | verdict i code =>
    refine s.each_agenda _ _ fun c t => ?_
    split <;> simp
  | overlap g es => exact s.each_agenda _ _ fun c t => t.updChan_agenda c _
  | mismatch => exact s.each_agenda _ _ fun c t => t.inhibit_agenda c _

theorem execSpoolSlotFilled_answers (c n) (s : State) : Answers s (execSpoolSlotFilled c n s) := by
  simp only [execSpoolSlotFilled]
  (repeat' split) <;> simp

/-! ### Self-test -/

@[simp] theorem svcSetBudget_agenda (L bytes) (s : State) : (svcSetBudget L bytes s).1.agenda = s.agenda := by simp [svcSetBudget]
@[simp] theorem svcTestRun_agenda (L bytes) (s : State) : (svcTestRun L bytes s).1.agenda = s.agenda := by simp [svcTestRun]
@[simp] theorem State.beginRun_agenda (s : State) (n) : (s.beginRun n).agenda = s.agenda := by simp [State.beginRun]
@[simp] theorem State.showRepair_agenda (s : State) (repair recur) : (s.showRepair repair recur).agenda = s.agenda := by simp [State.showRepair]
@[simp] theorem State.setRepair_agenda (s : State) (old new) : (s.setRepair old new).agenda = s.agenda := by simp [State.setRepair]
@[simp] theorem State.recurrence_agenda (s : State) (r) : (s.recurrence r).agenda = s.agenda := by simp [State.recurrence]

@[simp] theorem State.firstFailure_agenda (s : State) (slice kind unit place) : (s.firstFailure slice kind unit place).agenda = s.agenda := by
  simp only [State.firstFailure]
  (repeat' split) <;> simp

@[simp] theorem State.confirmedFailure_agenda (s : State) (slice kind unit place signature expected) :
    (s.confirmedFailure slice kind unit place signature expected).agenda = s.agenda := by
  simp only [State.confirmedFailure]
  (repeat' split) <;> simp

@[simp] theorem State.passedRun_agenda (s : State) (slice) : (s.passedRun slice).agenda = s.agenda := by simp [State.passedRun]

@[simp] theorem State.sliceResult_agenda (s : State) (k a) : (s.sliceResult k a).agenda = s.agenda := by
  unfold State.sliceResult
  split <;> simp

@[simp] theorem State.nextSlice_agenda (s : State) (t) : (s.nextSlice t).1.agenda = s.agenda := by simp [State.nextSlice]
@[simp] theorem State.endRun_agenda (s : State) (regions) : (s.endRun regions).agenda = s.agenda := by simp [State.endRun]

@[simp] theorem State.goOn_agenda (s : State) (t k) : (s.goOn t k).agenda = s.agenda := by
  simp only [State.goOn]
  (repeat' split) <;> simp

theorem execSelfTestSliceDone_answers (r ms) (s : State) : Answers s (execSelfTestSliceDone r ms s) := by
  unfold execSelfTestSliceDone
  split <;> simp

/-! ### The tick -/

@[simp] theorem State.countTick_agenda (s : State) : s.countTick.agenda = s.agenda := by simp [State.countTick]
@[simp] theorem State.rtcTick_agenda (s : State) : s.rtcTick.agenda = s.agenda := by simp [State.rtcTick]
@[simp] theorem State.timebaseTick_agenda (s : State) : s.timebaseTick.agenda = s.agenda := by simp [State.timebaseTick]

end Sys2Proof.Machine
end

section
/-! PROOFS. Every command answers and leaves the agenda, a tick moves the clock; O1 and O2. -/

namespace Sys2Proof.Machine

/-- Every command answers a next state with the agenda that it found: those whose meaning branches by their lemma, any other as the one call that it is. -/
theorem exec_answers (c : Instr) (s : State) : Answers s (exec c s) := by
  cases c
  case faultClear => exact execFaultClear_answers ..
  case agentDataS => exact execAgentDataS_answers ..
  case agentDataE => exact execAgentDataE_answers ..
  case agentCmp => exact execAgentCmp_answers ..
  case agentWbAck => exact execAgentWbAck_answers ..
  case homeWbDirty => exact execHomeWbDirty_answers ..
  case homeEvictClean => exact execHomeEvictClean_answers ..
  case homeCmpAck => exact execHomeCmpAck_answers ..
  case patrolRead => exact execPatrolRead_answers ..
  case conversionComplete => exact execConversionComplete_answers ..
  case storeIoComplete => exact execStoreIoComplete_answers ..
  case commitStart => exact execCommitStart_answers ..
  case commitFlushDone => exact execCommitFlushDone_answers ..
  case commitDone => exact execCommitDone_answers ..
  case driveWriteDone => exact execDriveWriteDone_answers ..
  case storeBlockRead => exact execStoreBlockRead_answers ..
  case laneReset => exact execLaneReset_answers ..
  case rpLinkUp => exact execRpLinkUp_answers ..
  case sorterRelease => exact execSorterRelease_answers ..
  case gateSpaceOpens => exact execGateSpaceOpens_answers ..
  case placementHandover => exact execPlacementHandover_answers ..
  case placementCommit => exact execPlacementCommit_answers ..
  case edgePlaced => exact execEdgePlaced_answers ..
  case pulseReturnEdge => exact execPulseReturnEdge_answers ..
  case pinCalPinDone => exact execPinCalPinDone_answers ..
  case linkDownTimeout => exact execLinkDownTimeout_answers ..
  case volumeOfflineInhibit => exact execVolumeOfflineInhibit_answers ..
  case logRecordWrite => exact execLogRecordWrite_answers ..
  case frameDecoded => exact execFrameDecoded_answers ..
  case nakRepeat => exact execNakRepeat_answers ..
  case expressAck => exact execExpressAck_answers ..
  case expressWidthAck => exact execExpressWidthAck_answers ..
  case fireLineDeadline => exact execFireLineDeadline_answers ..
  case trainingFrameReceived => exact execTrainingFrameReceived_answers ..
  case capabilityReceived => exact execCapabilityReceived_answers ..
  case linkStateTimeout => exact execLinkStateTimeout_answers ..
  case expressTimingReply => exact execExpressTimingReply_answers ..
  case widthReqResend => exact execWidthReqResend_answers ..
  case widthLanesAdded => exact execWidthLanesAdded_answers ..
  case widthSwitchMarker => exact execWidthSwitchMarker_answers ..
  case laneRejoin => exact execLaneRejoin_answers ..
  case ringConfigTimeout => exact execRingConfigTimeout_answers ..
  case ringConfigReceived => exact execRingConfigReceived_answers ..
  case tokenCapture => exact execTokenCapture_answers ..
  case memCellWrite => exact execMemCellWrite_answers ..
  case memCellSwap => exact execMemCellSwap_answers ..
  case arbiterRequest => exact execArbiterRequest_answers ..
  case arbiterRelease => exact execArbiterRelease_answers ..
  case userClockEdge => exact execUserClockEdge_answers ..
  case imageStreamDone => exact execImageStreamDone_answers ..
  case cfgDoneHigh => exact execCfgDoneHigh_answers ..
  case broadcastGapTimeout => exact execBroadcastGapTimeout_answers ..
  case broadcastAnswerReceived => exact execBroadcastAnswerReceived_answers ..
  case broadcastPollTimeout => exact execBroadcastPollTimeout_answers ..
  case configWriteComplete => exact execConfigWriteComplete_answers ..
  case leaseProposalReceived => exact execLeaseProposalReceived_answers ..
  case leaseAckReceived => exact execLeaseAckReceived_answers ..
  case leaseProposalTimeout => exact execLeaseProposalTimeout_answers ..
  case leaseRetry => exact execLeaseRetry_answers ..
  case leaseAutoRetry => exact execLeaseAutoRetry_answers ..
  case reconcile => exact execReconcile_answers ..
  case regionLoadComplete => exact execRegionLoadComplete_answers ..
  case frameRefetchDone => exact execFrameRefetchDone_answers ..
  case regFault => exact execRegFault_answers ..
  case firmwareWatchdog => exact execFirmwareWatchdog_answers ..
  case firmwareReady => exact execFirmwareReady_answers ..
  case productLetterBudget => exact execProductLetterBudget_answers ..
  case productBegin => exact execProductBegin_answers ..
  case vizonLine => exact execVizonLine_answers ..
  case mapGenerationComplete => exact execMapGenerationComplete_answers ..
  case headDriverStatus => exact execHeadDriverStatus_answers ..
  case stitchPartnerMessage => exact execStitchPartnerMessage_answers ..
  case spoolSlotFilled => exact execSpoolSlotFilled_answers ..
  case selfTestSliceDone => exact execSelfTestSliceDone_answers ..
  all_goals exact answers_next.2 (by simp)

/-- A command that answers a next state leaves the agenda. -/
theorem agenda_of_exec {c : Instr} {s t : State} (h : exec c s = .next t) : t.agenda = s.agenda := by
  have hc := exec_answers c s
  rwa [h, answers_next] at hc

/-- A tick leaves the queue and counts 1 ns (log 99). -/
theorem State.tick_agenda (s : State) : s.tick.agenda = (s.pending, s.clock + 1) := by simp [State.tick]

/-- Settles O1, by the queue's shape. -/
theorem stepRunsTheFrontCommand : Obligations.StepRunsTheFrontCommand := fun _ _ _ => rfl

/-- Settles O2: the command runs on a state from whose queue it has been taken, and a tick finds the queue empty and leaves it so. -/
theorem stepTakesOneCommand : Obligations.StepTakesOneCommand := by
  intro s t h
  unfold step at h
  split at h
  · next c rest hs =>
    rw [State.pending_of_agenda (agenda_of_exec h), hs]
    rfl
  · next hs =>
    rw [← Host.Outcome.next.inj h, State.pending_of_agenda s.tick_agenda, hs, List.tail_nil]

end Sys2Proof.Machine
end

section
/-! PROOFS. O8 is refuted: a firmware update whose region load fails goes on to a full load that waits, and the Franker that this load ends gives
back settings that the clause of REGION_LOAD_COMPLETE does not list. -/

namespace Sys2Proof.Machine

/-- What a region load finds in the store where nothing is asked of it. -/
def plainImage : ImageFacts := ⟨[], [], [], none, 0, true, true, 0, []⟩

/-- A region's part of an image with nothing placed. -/
def plainBody : RegionBody := ⟨0, [], [], [], false, none, 0, [], [], [], 0⟩

/-- A state in which every domain runs and the Franker is armed, with the permits of sorter 0 set; a region load from an empty slot stands to be
completed, and a full load that ends the Franker waits behind it (R426, R548). -/
def loadBehindRegionLoad : State :=
  ((((State.reset.put .DEV_ISL_RUN_RUN 0 (2 ^ 25 - 1)).put .DEV_ISL_HELD_HELD 0 0).put .DEV_FRK_STAT_STATE 0 1).put .SRT_TGT_PERMIT 0 0xFFFF).setConfig
    fun c => { c with regionLoads := [⟨0, 0, 0, 0, none, true, true⟩], load := some ⟨1, false, 1, false⟩ }

/-- The permits of sorter 0 after a command; none where it answers no next state. -/
def permitsAfter (c : Instr) (s : State) : Option Nat :=
  match exec c s with
  | .next t => some (t.fld .SRT_TGT_PERMIT 0)
  | _ => none

theorem permitsAfter_of_next {c : Instr} {s t : State} (h : exec c s = .next t) : permitsAfter c s = some (t.fld .SRT_TGT_PERMIT 0) := by
  rw [permitsAfter, h]

theorem permits_loadBehindRegionLoad : loadBehindRegionLoad.fld .SRT_TGT_PERMIT 0 = 0xFFFF := by decide

/-- The load that comes to run ends the Franker, whose default settings take the permits away (R554). -/
theorem permitsAfter_regionLoadComplete :
    permitsAfter (.regionLoadComplete plainImage plainBody) loadBehindRegionLoad = some 0 := by
  decide +kernel

/-- The clause of REGION_LOAD_COMPLETE in O8. -/
theorem regionLoadComplete_of_frameOfFabric (h : Obligations.FrameOfFabric) (facts : ImageFacts) (body : RegionBody) (s : State) :
    ∃ t : State, exec (.regionLoadComplete facts body) s = .next t ∧ t.fld .SRT_TGT_PERMIT 0 = s.fld .SRT_TGT_PERMIT 0 := by
  unfold Obligations.FrameOfFabric at h
  obtain ⟨-, -, -, -, -, -, -, -, -, -, -, -, -, -, -, -, -, -, -, -, -, -, -, -, -, -, -, -, -, -, hload, -⟩ := h
  obtain ⟨t, ht, hregs, -⟩ := hload facts body s
  exact ⟨t, ht, hregs .SRT_TGT_PERMIT 0 (by decide)⟩

/-- Refutes O8: REGION_LOAD_COMPLETE of a region load that fails starts the full load that waits; this ends the Franker, and SRT_TGT, which its
clause does not list, goes back to its default (R426, R548, R554). -/
theorem not_frameOfFabric : ¬ Obligations.FrameOfFabric := by
  intro h
  obtain ⟨t, ht, hkept⟩ := regionLoadComplete_of_frameOfFabric h plainImage plainBody loadBehindRegionLoad
  have hafter := permitsAfter_of_next ht
  rw [permitsAfter_regionLoadComplete, hkept, permits_loadBehindRegionLoad] at hafter
  cases hafter

end Sys2Proof.Machine
end

section
/-! PROOFS. Tokens that leave their stages, counted events and illegal codes: what each changes of the cells and of the registers. -/

namespace Sys2Proof.Machine

/-! ### Counted events and illegal codes (R24, R57, R523, R527) -/

/-- A raise clears no pending bit (R531). -/
theorem State.pends_raiseWith_of_pends {s : State} {k : Nat} (hk : s.pends k = true) (src : Nat) (reg : Option (Reg × Nat)) :
    (s.raiseWith src reg).pends k = true := by
  obtain h | h | ⟨m, h⟩ := s.raiseWith_cases src reg <;> simp [h, State.pends_raiseNotices, State.pends_raiseCore, hk]

/-- The registers and the parts that a counted event changes. -/
def countMask : Nat := mask (signals (counting [])) (signalled [])

theorem Goes.raise_count {s t : State} (h : Goes raiseMask s t) : Goes countMask s t :=
  h.widen (by simp [signals, counting]) (by simp [signalled])

theorem State.goes_perfAdd (s : State) (i n : Nat) : Goes countMask s (s.perfAdd i n) := by
  have hput := (Goes.refl countMask s).put .PERF_CNT_COUNT i
  refine Goes.ite (hput _ (mask_reg (by decide))) ?_
  exact (((hput _ (mask_reg (by decide))).put _ i 1 (mask_reg (by decide))).orFld _ _ _ (mask_reg (by decide))).trans
    (State.goes_raiseWith _ 15 _).raise_count

theorem State.pends_put_ne (s : State) {f : Fld} (hf : f ≠ .EVT_PEND_PEND) (i v k : Nat) : (s.put f i v).pends k = s.pends k := by
  rw [State.pends, s.fld_put_ne i _ v hf, State.pends]

theorem State.pends_perfAdd {s : State} {k : Nat} (hk : s.pends k = true) (i n : Nat) : (s.perfAdd i n).pends k = true := by
  unfold State.perfAdd
  extract_lets c
  split
  · rwa [State.pends_put_ne _ (by decide)]
  · refine State.pends_raiseWith_of_pends ?_ 15 _
    rwa [State.orFld, State.pends_put_ne _ (by decide), State.pends_put_ne _ (by decide), State.pends_put_ne _ (by decide)]

theorem State.goes_perf (s : State) (block inst event n : Nat) (x : Option Xfer) : Goes countMask s (s.perf block inst event n x) :=
  (Goes.refl _ s).each _ _ fun i t => (Goes.refl _ t).when _ _ fun u => u.goes_perfAdd i n

/-- What the step of each member of a list keeps, a run through the list keeps. -/
theorem State.each_keeps {α : Type} {P : State → Prop} {g : α → State → State} {l : List α} (hg : ∀ a ∈ l, ∀ t, P t → P (g a t)) {s : State}
    (hs : P s) : P (s.each l g) := by
  unfold State.each
  induction l generalizing s with
  | nil => exact hs
  | cons a l ih => exact ih (fun b hb => hg b (List.mem_cons_of_mem a hb)) (hg a List.mem_cons_self s hs)

theorem State.pends_perf {s : State} {k : Nat} (hk : s.pends k = true) (block inst event n : Nat) (x : Option Xfer) :
    (s.perf block inst event n x).pends k = true := by
  refine State.each_keeps (P := (·.pends k = true)) (fun i _ t ht => ?_) hk
  unfold State.when
  split
  · exact State.pends_perfAdd ht i n
  · exact ht

/-- The registers and the parts that illegal codes change. -/
def codeMask : Nat := mask (signals (counting [.CFG_FAB_STAT])) (signalled [])

theorem Goes.count_code {s t : State} (h : Goes countMask s t) : Goes codeMask s t :=
  h.widen (by simp [signals, counting]) (by simp [signalled])

/-- CFG_FAB_STAT as it shows `k` illegal codes more in region `n`. -/
def State.countCodes (s : State) (n k : Nat) : State := (s.put .CFG_FAB_STAT_CODE_ERR n 1).bump .CFG_FAB_STAT_CODE_CNT n k

theorem State.codeErrors_eq (s : State) (n : Nat) {k : Nat} (hk : k ≠ 0) :
    s.codeErrors n k = ((s.countCodes n k).raise (164 + n)).perf 1 n 33 k none := if_neg hk

theorem State.goes_codeErrors (s : State) (n k : Nat) : Goes codeMask s (s.codeErrors n k) := by
  by_cases hk : k = 0
  · rw [hk]
    exact Goes.refl _ s
  · have hcount : Goes codeMask s (s.countCodes n k) := ((Goes.refl _ s).put _ n 1 (mask_reg (by decide))).bump _ n k (mask_reg (by decide))
    rw [s.codeErrors_eq n hk]
    exact (hcount.trans (State.goes_raise _ _).raise_count.count_code).trans (State.goes_perf ..).count_code

/-- `k` illegal codes in region `n` stand in the record of `t`, which was that of `s` (R24). -/
def CodesRecorded (s t : State) (n k : Nat) : Prop :=
  t.fld .CFG_FAB_STAT_CODE_CNT n = min (s.fld .CFG_FAB_STAT_CODE_CNT n + k) (2 ^ 8 - 1) ∧
    (k ≠ 0 → t.fld .CFG_FAB_STAT_CODE_ERR n = 1 ∧ t.pends (164 + n) = true)

theorem State.codesRecorded_codeErrors (s : State) (n k : Nat) : CodesRecorded s (s.codeErrors n k) n k := by
  by_cases hk : k = 0
  · have hlt : s.fld .CFG_FAB_STAT_CODE_CNT n < 2 ^ 8 := s.fld_lt _ n
    subst hk
    exact ⟨(min_eq_left (Nat.le_sub_one_of_lt hlt)).symm, fun h => absurd rfl h⟩
  · have hgo : Goes countMask (s.countCodes n k) (s.codeErrors n k) := by
      rw [s.codeErrors_eq n hk]
      exact (State.goes_raise _ _).raise_count.trans (State.goes_perf ..)
    refine ⟨?_, fun _ => ⟨?_, ?_⟩⟩
    · rw [hgo.flds _ _ (mask_reg_not (by decide))]
      simp [State.countCodes, State.bump, State.fld_put_ne, show Fld.CFG_FAB_STAT_CODE_CNT.spec.width = 8 from rfl]
    · rw [hgo.flds _ _ (mask_reg_not (by decide))]
      simp [State.countCodes, State.bump, State.fld_put_ne, show Fld.CFG_FAB_STAT_CODE_ERR.spec.width = 1 from rfl]
    · rw [s.codeErrors_eq n hk]
      exact State.pends_perf (State.pends_raiseWith ..) ..

/-! ### Cells by region and index -/

theorem cellKey_inj {n m : Fin 40} {i j : Fin 65536} : cellKey n i = cellKey m j ↔ n = m ∧ i = j := by
  unfold cellKey
  omega

theorem State.cell_setCell_fin (s : State) (n m : Fin 40) (i j : Fin 65536) (c : Cell) :
    (s.setCell n i c).cell m j = if n = m ∧ i = j then c else s.cell m j := by
  simp only [State.cell_setCell, cellKey_inj]

theorem Goes.cell {m : Nat} {s t : State} (h : Goes m s t) (hm : m.testBit (256 + Part.cells.ctorIdx) = false) (n i : Nat) :
    t.cell n i = s.cell n i := by
  have hcells : t.cells = s.cells := h.parts .cells hm
  unfold State.cell
  rw [hcells]

/-! ### Tokens that leave (R25, R26) -/

/-- The parts that tokens change as they come and leave. -/
def tokenMask : Nat := mask [] [.boxes, .cells, .elements, .evt, .isos, .taken, .taps, .words]

theorem State.goes_setCell (s : State) (n i : Nat) (c : Cell) : Goes tokenMask s (s.setCell n i c) :=
  (Goes.refl _ s).set_cells _ (mask_part (by decide))

theorem State.goes_setSite (s : State) (x : Site) (t : Nat) : Goes tokenMask s (s.setSite x t) := by
  cases x <;> simp only [State.setSite]
  case cell => exact s.goes_setCell ..
  case second => exact s.goes_setCell ..
  case word =>
    split
    · exact (Goes.refl _ s).set_words _ (mask_part (by decide))
    · exact Goes.refl _ s
  case iso => exact (Goes.refl _ s).set_isos _ (mask_part (by decide))
  case element =>
    split
    · exact (Goes.refl _ s).set_elements _ (mask_part (by decide))
    · exact Goes.refl _ s
  all_goals exact Goes.refl _ s

theorem State.goes_releaseFrom (s : State) (l : TokenFrom) : Goes tokenMask s (s.releaseFrom l) := by
  cases l <;> simp only [State.releaseFrom]
  case stage x => exact s.goes_setSite x 0
  case tap => exact (Goes.refl _ s).set_taps _ (mask_part (by decide))
  case eventChannel => exact (Goes.refl _ s).set_evt _ (mask_part (by decide))
  case mailboxChannel =>
    split
    · exact (Goes.refl _ s).set_boxes _ (mask_part (by decide))
    · exact Goes.refl _ s

/-- From `s` to `t` every cell keeps its configuration and contents, and the token at its output unless that is one of `l`. -/
structure CellsBut (l : List TokenFrom) (s t : State) : Prop where
  cfg : ∀ (m : Fin 40) (j : Fin 65536), (t.cell m j).cfg = (s.cell m j).cfg
  mem : ∀ (m : Fin 40) (j : Fin 65536), (t.cell m j).mem = (s.cell m j).mem
  tok : ∀ (m : Fin 40) (j : Fin 65536), TokenFrom.stage (.cell m j) ∉ l → (t.cell m j).tok = (s.cell m j).tok

theorem CellsBut.of_cells {l : List TokenFrom} {s t : State} (h : t.cells = s.cells) : CellsBut l s t := by
  have hcell (m j : Nat) : t.cell m j = s.cell m j := by rw [State.cell, h, State.cell]
  exact ⟨fun _ _ => by rw [hcell], fun _ _ => by rw [hcell], fun _ _ _ => by rw [hcell]⟩

theorem CellsBut.trans {l : List TokenFrom} {s t u : State} (h : CellsBut l s t) (k : CellsBut l t u) : CellsBut l s u :=
  ⟨fun m j => (k.cfg m j).trans (h.cfg m j), fun m j => (k.mem m j).trans (h.mem m j), fun m j hl => (k.tok m j hl).trans (h.tok m j hl)⟩

theorem CellsBut.mono {l l' : List TokenFrom} {s t : State} (h : CellsBut l s t) (hl : l ⊆ l') : CellsBut l' s t :=
  ⟨h.cfg, h.mem, fun m j hn => h.tok m j fun hm => hn (hl hm)⟩

theorem State.cellsBut_setCell (s : State) (n : Fin 40) (i : Fin 65536) {c : Cell} {l : List TokenFrom} (hcfg : c.cfg = (s.cell n i).cfg)
    (hmem : c.mem = (s.cell n i).mem) (htok : TokenFrom.stage (.cell n i) ∉ l → c.tok = (s.cell n i).tok) : CellsBut l s (s.setCell n i c) := by
  refine ⟨fun m j => ?_, fun m j => ?_, fun m j hl => ?_⟩ <;> rw [State.cell_setCell_fin] <;> split
  case refine_1.isTrue h => rw [hcfg, h.1, h.2]
  case refine_2.isTrue h => rw [hmem, h.1, h.2]
  case refine_3.isTrue h =>
    obtain ⟨rfl, rfl⟩ := h
    exact htok hl
  all_goals rfl

theorem State.cellsBut_setSite (s : State) (x : Site) (t : Nat) : CellsBut [.stage x] s (s.setSite x t) := by
  cases x <;> simp only [State.setSite]
  case cell n i => exact s.cellsBut_setCell n i rfl rfl fun h => absurd (List.mem_singleton_self _) h
  case second n i => exact s.cellsBut_setCell n i rfl rfl fun _ => rfl
  case word => split <;> exact CellsBut.of_cells rfl
  case element => split <;> exact CellsBut.of_cells rfl
  all_goals exact CellsBut.of_cells rfl

theorem State.cellsBut_releaseFrom (s : State) (l : TokenFrom) : CellsBut [l] s (s.releaseFrom l) := by
  cases l <;> simp only [State.releaseFrom]
  case stage x => exact s.cellsBut_setSite x 0
  case mailboxChannel => split <;> exact CellsBut.of_cells rfl
  all_goals exact CellsBut.of_cells rfl

/-- From `s` to `t` at most the tokens of `l` have been taken, and have left their holders. -/
structure Takes (l : List TokenFrom) (s t : State) : Prop where
  goes : Goes tokenMask s t
  cells : CellsBut l s t
  taken : ∀ e ∈ t.taken, e ∈ s.taken ∨ e.1 ∈ l

theorem Takes.refl (l : List TokenFrom) (s : State) : Takes l s s := ⟨Goes.refl _ s, CellsBut.of_cells rfl, fun _ => .inl⟩

theorem Takes.trans {l : List TokenFrom} {s t u : State} (h : Takes l s t) (k : Takes l t u) : Takes l s u :=
  ⟨h.goes.trans k.goes, h.cells.trans k.cells, fun e he => (k.taken e he).elim (h.taken e) .inr⟩

theorem Takes.mono {l l' : List TokenFrom} {s t : State} (h : Takes l s t) (hl : l ⊆ l') : Takes l' s t :=
  ⟨h.goes, h.cells.mono hl, fun e he => (h.taken e he).imp_right fun hm => hl hm⟩

/-- A token that is not in `l`, and that nobody has taken before, nobody has taken after. -/
theorem Takes.not_taken {l : List TokenFrom} {s t : State} (h : Takes l s t) {a : TokenFrom} (ha : a ∉ l) (hs : ∀ x, (a, x) ∉ s.taken) (x : Site) :
    (a, x) ∉ t.taken := fun hx => (h.taken _ hx).elim (hs x) ha

theorem State.takes_settleToken (s : State) (l : TokenFrom) : Takes [l] s (s.settleToken l) := by
  simp only [State.settleToken]
  split
  · exact Takes.refl _ s
  · exact ⟨(s.goes_releaseFrom l).set_taken _ (mask_part (by decide)), (s.cellsBut_releaseFrom l).trans (.of_cells rfl),
      fun e he => .inl (List.mem_of_mem_filter he)⟩

theorem State.takes_takeTokens (s : State) (x : Site) (ls : List TokenFrom) : Takes ls s (s.takeTokens x ls) := by
  have hlisted : Takes ls s { s with taken := s.taken ++ ls.eraseDups.map fun l => (l, x) } := by
    refine ⟨(Goes.refl _ s).set_taken _ (mask_part (by decide)), CellsBut.of_cells rfl, fun e he => ?_⟩
    refine (List.mem_append.1 he).imp_right fun hmap => ?_
    obtain ⟨l, hl, rfl⟩ := List.mem_map.1 hmap
    exact List.mem_eraseDups.1 hl
  refine State.each_keeps (P := Takes ls s) (fun l hl t ht => ?_) hlisted
  exact ht.trans ((t.takes_settleToken l).mono (by simpa using hl))

/-- A token that nobody has taken stays with its holder (R26). -/
theorem State.settleToken_of_not_taken {s : State} {l : TokenFrom} (h : ∀ x, (l, x) ∉ s.taken) : s.settleToken l = s := by
  have hall : (s.takers l).any (fun x => !s.taken.contains (l, x)) = !(s.takers l).isEmpty := by
    cases s.takers l <;> simp [h]
  simp only [State.settleToken, hall]
  cases (s.takers l).isEmpty <;> simp

end Sys2Proof.Machine
end

section
/-! PROOFS. Memory cells and their requests (R27, R31), and O23. -/

namespace Sys2Proof.Machine

/-! ### Bits of a number that are replaced -/

/-- A number with the `w` bits from `lo` on replaced by those of `v`. -/
def withBits (m lo w v : Nat) : Nat := m - m / 2 ^ lo % 2 ^ w * 2 ^ lo + v % 2 ^ w * 2 ^ lo

theorem withBits_eq (m lo w v : Nat) : withBits m lo w v = 2 ^ lo * (2 ^ w * (m / 2 ^ lo / 2 ^ w) + v % 2 ^ w) + m % 2 ^ lo := by
  have hlow := Nat.div_add_mod m (2 ^ lo)
  have hmid := Nat.div_add_mod (m / 2 ^ lo) (2 ^ w)
  generalize m / 2 ^ lo / 2 ^ w = high at *
  have hm : m = 2 ^ lo * (2 ^ w * high) + 2 ^ lo * (m / 2 ^ lo % 2 ^ w) + m % 2 ^ lo := by rw [← Nat.mul_add, hmid, hlow]
  rw [withBits, Nat.mul_comm _ (2 ^ lo), Nat.mul_comm _ (2 ^ lo), Nat.mul_add]
  omega

theorem withBits_mod (m lo w v : Nat) : withBits m lo w v % 2 ^ lo = m % 2 ^ lo := by
  rw [withBits_eq, Nat.mul_add_mod, Nat.mod_mod]

theorem withBits_div (m lo w v : Nat) : withBits m lo w v / 2 ^ lo = 2 ^ w * (m / 2 ^ lo / 2 ^ w) + v % 2 ^ w := by
  rw [withBits_eq, Nat.mul_add_div (Nat.two_pow_pos lo), Nat.div_eq_of_lt (Nat.mod_lt _ (Nat.two_pow_pos lo)), Nat.add_zero]

theorem withBits_div_above (m lo w v : Nat) : withBits m lo w v / 2 ^ lo / 2 ^ w = m / 2 ^ lo / 2 ^ w := by
  rw [withBits_div, Nat.mul_add_div (Nat.two_pow_pos w), Nat.div_eq_of_lt (Nat.mod_lt _ (Nat.two_pow_pos w)), Nat.add_zero]

/-- The replaced bits read as the new ones. -/
theorem withBits_slot (m lo w v : Nat) : withBits m lo w v / 2 ^ lo % 2 ^ w = v % 2 ^ w := by
  rw [withBits_div, Nat.mul_add_mod, Nat.mod_mod]

/-- Bits above the replaced ones read as before. -/
theorem withBits_slot_above (m lo w v u : Nat) {a : Nat} (h : lo + w ≤ a) : withBits m lo w v / 2 ^ a % 2 ^ u = m / 2 ^ a % 2 ^ u := by
  obtain ⟨b, rfl⟩ := Nat.exists_eq_add_of_le h
  simp only [Nat.pow_add, ← Nat.div_div_eq_div_mul, withBits_div_above]

/-- Bits below the replaced ones read as before. -/
theorem withBits_slot_below (m lo w v : Nat) {a u : Nat} (h : a + u ≤ lo) : withBits m lo w v / 2 ^ a % 2 ^ u = m / 2 ^ a % 2 ^ u := by
  have hdvd : 2 ^ (a + u) ∣ 2 ^ lo := Nat.pow_dvd_pow 2 h
  simp only [← Nat.mod_mul_right_div_self, ← Nat.pow_add]
  rw [← Nat.mod_mod_of_dvd _ hdvd, withBits_mod, Nat.mod_mod_of_dvd _ hdvd]

theorem withBits_lt (m lo w v : Nat) {b : Nat} (hm : m < 2 ^ b) (h : lo + w ≤ b) : withBits m lo w v < 2 ^ b := by
  have hslot := withBits_slot_above m lo w v (withBits m lo w v) h
  rw [Nat.div_eq_of_lt hm, Nat.zero_mod, Nat.mod_eq_of_lt ((Nat.div_le_self _ _).trans_lt Nat.lt_two_pow_self)] at hslot
  exact Nat.lt_of_div_eq_zero (Nat.two_pow_pos b) hslot

/-! ### The entries of a memory cell (R31) -/

theorem entryBits_cases (c : CellCfg) : entryBits c = 1 ∨ entryBits c = 2 := by
  unfold entryBits
  split <;> simp

theorem memEntry_eq {c : Cell} {w : Nat} (hw : entryBits c.cfg = w) (a : Nat) :
    memEntry c a = c.mem.toNat / 2 ^ (w * (a % (64 / w))) % 2 ^ w := by
  subst hw
  rfl

theorem memEntry_congr {c d : Cell} (hcfg : d.cfg = c.cfg) (hmem : d.mem = c.mem) (a : Nat) : memEntry d a = memEntry c a := by
  rw [memEntry, hcfg, hmem, memEntry]

theorem memStore_congr {c d : Cell} (hcfg : d.cfg = c.cfg) (hmem : d.mem = c.mem) (addr data : Nat) :
    memStore d addr data = memStore c addr data := by
  rw [memStore, memEntry_congr hcfg hmem, hcfg, hmem, memStore]

/-- A store replaces the addressed entry and keeps every other. -/
theorem memEntry_of_memStore {c d : Cell} {w addr data : Nat} (hw : entryBits c.cfg = w) (hcfg : d.cfg = c.cfg) (hmem : d.mem = memStore c addr data)
    (a : Nat) : memEntry d a = if a % (64 / w) = addr % (64 / w) then data % 2 ^ w else memEntry c a := by
  have hpos : 0 < w ∧ 0 < 64 / w := by obtain h | h := entryBits_cases c.cfg <;> rw [← hw, h] <;> decide
  have hslots (k : Nat) : w * (k % (64 / w)) + w ≤ 64 :=
    (Nat.mul_le_mul_left w (Nat.mod_lt k hpos.2)).trans (Nat.mul_div_le 64 w)
  have hstore : (memStore c addr data).toNat = withBits c.mem.toNat (w * (addr % (64 / w))) w data := by
    subst hw
    exact Nat.mod_eq_of_lt (withBits_lt _ _ _ _ c.mem.isLt (hslots addr))
  rw [memEntry_eq (hcfg ▸ hw), memEntry_eq hw, hmem, hstore]
  split
  · next h => rw [h, withBits_slot]
  · next h =>
    obtain hlt | hlt := Nat.lt_or_gt_of_ne h
    · exact withBits_slot_below _ _ _ _ (Nat.mul_le_mul_left w hlt)
    · exact withBits_slot_above _ _ _ _ _ (Nat.mul_le_mul_left w hlt)

/-! ### What serving a memory cell changes of the cells -/

/-- From `s` to `t` cells keep their configuration and contents, except that cell `i` of region `n` now holds `v`. -/
structure Serves (n : Fin 40) (i : Fin 65536) (v : BitVec 64) (s t : State) : Prop where
  goes : Goes tokenMask s t
  cfg : ∀ (m : Fin 40) (j : Fin 65536), (t.cell m j).cfg = (s.cell m j).cfg
  mem : (t.cell n i).mem = v
  others : ∀ (m : Fin 40) (j : Fin 65536), ¬ (m = n ∧ j = i) → (t.cell m j).mem = (s.cell m j).mem

theorem Takes.serves {l : List TokenFrom} {s t : State} (h : Takes l s t) (n : Fin 40) (i : Fin 65536) : Serves n i (s.cell n i).mem s t :=
  ⟨h.goes, h.cells.cfg, h.cells.mem n i, fun m j _ => h.cells.mem m j⟩

theorem Serves.trans {n : Fin 40} {i : Fin 65536} {v v' : BitVec 64} {s t u : State} (h : Serves n i v s t) (k : Serves n i v' t u) :
    Serves n i v' s u :=
  ⟨h.goes.trans k.goes, fun m j => (k.cfg m j).trans (h.cfg m j), k.mem, fun m j hmj => (k.others m j hmj).trans (h.others m j hmj)⟩

theorem State.cell_memPut (s : State) (n m : Fin 40) (i j : Fin 65536) (addr data : Nat) : (s.memPut n i addr data).cell m j =
    if n = m ∧ i = j then { s.cell n i with mem := memStore (s.cell n i) addr data } else s.cell m j := s.cell_setCell_fin ..

theorem State.serves_memPut (s : State) (n : Fin 40) (i : Fin 65536) (addr data : Nat) :
    Serves n i (memStore (s.cell n i) addr data) s (s.memPut n i addr data) := by
  refine ⟨s.goes_setCell n i _, fun m j => ?_, by simp [State.cell_memPut], fun m j hmj => ?_⟩ <;> rw [State.cell_memPut]
  · split
    · next h => obtain ⟨rfl, rfl⟩ := h; rfl
    · rfl
  · rw [if_neg fun h => hmj ⟨h.1.symm, h.2.symm⟩]

/-- After tokens have been taken, a store works on the contents from before. -/
theorem Takes.serves_memPut {l : List TokenFrom} {s u : State} (h : Takes l s u) (n : Fin 40) (i : Fin 65536) (addr data : Nat) :
    Serves n i (memStore (s.cell n i) addr data) s (u.memPut n i addr data) := by
  rw [← memStore_congr (h.cells.cfg n i) (h.cells.mem n i)]
  exact (h.serves n i).trans (u.serves_memPut n i addr data)

/-- From `s` to `t` only what a memory cell's request touches changes. -/
def ServeFrame (s t : State) : Prop :=
  Within (signals (counting [.CFG_FAB_STAT])) (signalled [.cells, .elements, .isos, .taken, .taps, .words]) s t

/-- From `s` to `t` cells keep their configuration, and all but cell `i` of region `n` their contents. -/
def KeepsOthers (n : Fin 40) (i : Fin 65536) (s t : State) : Prop :=
  ∀ (m : Fin 40) (j : Fin 65536), (t.cell m j).cfg = (s.cell m j).cfg ∧ (¬ (m = n ∧ j = i) → (t.cell m j).mem = (s.cell m j).mem)

/-- What is illegal in a request is recorded, and the cells stay as they are (R24). -/
theorem Serves.codeErrors {n : Fin 40} {i : Fin 65536} {v : BitVec 64} {s u : State} (h : Serves n i v s u) (k : Nat) :
    ServeFrame s (u.codeErrors n k) ∧ KeepsOthers n i s (u.codeErrors n k) ∧ CodesRecorded s (u.codeErrors n k) n k ∧
      ∀ m j : Nat, (u.codeErrors n k).cell m j = u.cell m j := by
  have hcode := u.goes_codeErrors n k
  have hcells (m j : Nat) : (u.codeErrors n k).cell m j = u.cell m j := hcode.cell (by simp [codeMask, signalled]) m j
  have hrecord : CodesRecorded s (u.codeErrors n k) n k := by
    have hcount := h.goes.flds .CFG_FAB_STAT_CODE_CNT n (mask_reg_not (by decide))
    simpa only [CodesRecorded, hcount] using u.codesRecorded_codeErrors n k
  have hframe := (h.goes.widen (qs := signals (counting [.CFG_FAB_STAT])) (os := signalled [.cells, .elements, .isos, .taken, .taps, .words])
    (by simp) (by simp [signalled])).trans (hcode.widen (fun _ => id) (by simp [signalled]))
  refine ⟨hframe.within, fun m j => ?_, hrecord, hcells⟩
  rw [hcells]
  exact ⟨h.cfg m j, h.others m j⟩

/-! ### Replies (R27, R31) -/

theorem State.takes_fill_cell (s : State) (n : Fin 40) (i : Fin 65536) (v : Nat) : Takes [.stage (.cell n i)] s (s.fill (.cell n i) v) := by
  have hsite : Takes [.stage (.cell n i)] s (s.setSite (.cell n i) (v + 1)) :=
    ⟨s.goes_setSite _ _, s.cellsBut_setSite _ _, fun _ => .inl⟩
  exact hsite.trans (State.takes_settleToken _ _)

theorem State.tok_fill_cell {s : State} {n : Fin 40} {i : Fin 65536} (h : ∀ x, (TokenFrom.stage (.cell n i), x) ∉ s.taken) (v : Nat) :
    ((s.fill (.cell n i) v).cell n i).tok = some v := by
  have hset : s.fill (.cell n i) v = s.setCell n i { s.cell n i with tok := some v } := State.settleToken_of_not_taken h
  simp [hset, State.cell_setCell_fin]

theorem State.takes_memReply (s : State) (n : Fin 40) (i : Fin 65536) (v : Nat) :
    Takes [.stage (.cell n i), .stage (.cell n (i + 1))] s (s.memReply n i v) := by
  have hown := (s.takes_fill_cell n i (v % 2)).mono (l' := [.stage (.cell n i), .stage (.cell n (i + 1))]) (by simp)
  simp only [State.memReply]
  split
  · exact hown.trans ((State.takes_fill_cell _ n (i + 1) _).mono (by simp))
  · exact hown

/-- A reply that nobody has taken stands at the cell's output, and in MEM32 its second bit at that of the cell above. -/
theorem State.tok_memReply {s : State} {n : Fin 40} {i : Fin 65536} (hown : ∀ x, (TokenFrom.stage (.cell n i), x) ∉ s.taken)
    (habove : ∀ x, (TokenFrom.stage (.cell n (i + 1)), x) ∉ s.taken) (v : Nat) :
    ((s.memReply n i v).cell n i).tok = some (v % 2) ∧
      ((s.cell n i).cfg.mode = .mem32 → ((s.memReply n i v).cell n (i + 1 : Fin 65536)).tok = some (v / 2 % 2)) := by
  have hfill := s.takes_fill_cell n i (v % 2)
  have hsecond := hfill.not_taken (a := .stage (.cell n (i + 1))) (by simp) habove
  simp only [State.memReply, hfill.cells.cfg n i]
  split
  · refine ⟨?_, fun _ => State.tok_fill_cell hsecond _⟩
    exact ((State.takes_fill_cell _ n (i + 1) _).cells.tok n i (by simp)).trans (State.tok_fill_cell hown _)
  · next hmode => exact ⟨State.tok_fill_cell hown _, fun h => absurd h hmode⟩

/-! ### Requests that are served (R31) -/

/-- The tokens of a request that has no use for the data field, or of whose inputs an upset leaves more illegal, are among those of one that has. -/
theorem State.memCone_subset (s : State) (n : Fin 40) (i : Fin 65536) (data : Bool) (upset also : List Nat) :
    s.memCone n i data (upset ++ also) ⊆ s.memCone n i true upset := by
  intro l hl
  simp only [State.memCone, List.mem_append, List.mem_filter, Bool.or_eq_true, Bool.and_eq_true, List.isEmpty_iff, List.append_eq_nil_iff] at hl ⊢
  tauto

theorem exec_memCellWrite {s : State} {n : Fin 40} {i : Fin 65536} {data : Arrivals} {d : Seen} (hd : s.memData n i data = some d)
    {request : Arrivals} : exec (.memCellWrite n i request data) s =
      .next (s.memServe n i [1] false true request d.bad data.upset fun addr s => s.memPut n i addr d.value) := by
  change execMemCellWrite n i request data s = _
  simp only [execMemCellWrite, hd]

theorem exec_memCellSwap {s : State} {n : Fin 40} {i : Fin 65536} {data : Arrivals} {d : Seen} (hd : s.memData n i data = some d)
    {request : Arrivals} : exec (.memCellSwap n i request data) s =
      .next (s.memServe n i [2] true true request d.bad data.upset fun addr s =>
        (s.memPut n i addr d.value).memReply n i (memEntry (s.cell n i) addr)) := by
  change execMemCellSwap n i request data s = _
  simp only [execMemCellSwap, hd]

/-- The hypotheses of O23: a request stands at a memory cell, whose entries have `w` bits, from tokens that the cell has not taken and that are not replies
of its own. -/
structure MemoryRequest (s : State) (n : Fin 40) (i : Fin 65536) (request : Arrivals) (w : Nat) (q : Seen) : Prop where
  woken : s.woken n = true
  clock : (s.cell n i).cfg.clock = none
  mode : (s.cell n i).cfg.mode = .mem64 ∧ w = 1 ∨ (s.cell n i).cfg.mode = .mem32 ∧ i.val % 16 ≠ 15 ∧ w = 2
  asks : s.memAsks n i request = some q
  may : s.mayCapture (.cell n i) (s.memCone n i true request.upset) = true
  own : TokenFrom.stage (.cell n i) ∉ s.memCone n i true request.upset
  above : TokenFrom.stage (.cell n (i + 1)) ∉ s.memCone n i true request.upset
  untaken : ∀ x : Site, (TokenFrom.stage (.cell n i), x) ∉ s.taken ∧ (TokenFrom.stage (.cell n (i + 1)), x) ∉ s.taken

/-- From `s` to `t` the entry at an address of a cell whose entries have `w` bits becomes `v`, and its others stay. -/
def WritesEntry (n : Fin 40) (i : Fin 65536) (w addr v : Nat) (s t : State) : Prop :=
  ∀ a : Nat, memEntry (t.cell n i) a = if a % (64 / w) = addr % (64 / w) then v % 2 ^ w else memEntry (s.cell n i) a

/-- The reply `v` stands at the output of a cell whose entries have `w` bits: its second bit, where it has one, at that of the cell above (R27). -/
def Replied (n : Fin 40) (i : Fin 65536) (w v : Nat) (t : State) : Prop :=
  (t.cell n i).tok = some (v % 2) ∧ (w = 2 → (t.cell n (i + 1)).tok = some (v / 2 % 2))

namespace MemoryRequest

variable {s : State} {n : Fin 40} {i : Fin 65536} {request : Arrivals} {w : Nat} {q : Seen}

theorem entryBits_eq (h : MemoryRequest s n i request w q) : entryBits (s.cell n i).cfg = w := by
  obtain ⟨hmode, rfl⟩ | ⟨hmode, -, rfl⟩ := h.mode <;> simp [entryBits, hmode]

theorem mode_mem32 (h : MemoryRequest s n i request w q) (hw : w = 2) : (s.cell n i).cfg.mode = .mem32 := by
  obtain ⟨-, rfl⟩ | ⟨hmode, -, -⟩ := h.mode
  · cases hw
  · exact hmode

theorem ready_write (h : MemoryRequest s n i request w q) : s.memReady n i false = true := by
  have hmode := h.mode.imp And.left And.left
  simp [State.memReady, h.woken, h.clock, hmode]

theorem ready_reply (h : MemoryRequest s n i request w q) (htok : (s.cell n i).tok = none) (habove : w = 2 → (s.cell n (i + 1)).tok = none) :
    s.memReady n i true = true := by
  obtain ⟨hmode, -⟩ | ⟨hmode, -, hw⟩ := h.mode
  · simp [State.memReady, h.woken, h.clock, hmode, htok]
  · simp [State.memReady, h.woken, h.clock, hmode, htok, habove hw]

/-- A cell of MEM32 is not the last of its cluster, so that its index and the next differ by 1. -/
theorem val_above (h : MemoryRequest s n i request w q) (hw : w = 2) : ((i + 1 : Fin 65536) : Nat) = i + 1 := by
  obtain ⟨-, rfl⟩ | ⟨-, hi, -⟩ := h.mode
  · cases hw
  · omega

/-- The request is served from a state `u` in which its tokens have been taken. -/
theorem memServe_eq (h : MemoryRequest s n i request w q) {ops : List Nat} {replies : Bool} (hop : q.value % 4 ∈ ops)
    (hready : s.memReady n i replies = true) (data : Bool) (bad : Nat) (also : List Nat) (next : Nat → State → State) :
    ∃ u, Takes (s.memCone n i true request.upset) s u ∧
      s.memServe n i ops replies data request bad also next = (next (q.value / 4) u).codeErrors n (q.bad + bad) := by
  have hsub := s.memCone_subset n i data request.upset also
  have hmay : s.mayCapture (.cell n i) (s.memCone n i data (request.upset ++ also)) = true :=
    List.all_eq_true.2 fun l hl => List.all_eq_true.1 h.may l (hsub hl)
  refine ⟨_, (s.takes_takeTokens (.cell n i) _).mono hsub, ?_⟩
  simp [State.memServe, h.asks, hop, hready, hmay]

/-- Where the addressed entry has been stored into, it is written. -/
theorem writesEntry (h : MemoryRequest s n i request w q) {t : State} {addr v : Nat} (hkeeps : KeepsOthers n i s t)
    (hmem : (t.cell n i).mem = memStore (s.cell n i) addr v) : WritesEntry n i w addr v s t :=
  memEntry_of_memStore h.entryBits_eq (hkeeps n i).1 hmem

/-- The reply leaves at the outputs, where nobody has taken it. -/
theorem replied (h : MemoryRequest s n i request w q) {u t : State} (hcfg : (u.cell n i).cfg = (s.cell n i).cfg)
    (htaken : ∀ e ∈ u.taken, e ∈ s.taken ∨ e.1 ∈ s.memCone n i true request.upset) {v : Nat}
    (ht : ∀ m j : Nat, t.cell m j = (u.memReply n i v).cell m j) : Replied n i w v t := by
  obtain ⟨htok, htok2⟩ := State.tok_memReply (fun x hx => (htaken _ hx).elim (h.untaken x).1 h.own)
    (fun x hx => (htaken _ hx).elim (h.untaken x).2 h.above) v
  refine ⟨(ht _ _).symm ▸ htok, fun hw => ?_⟩
  rw [ht, ← h.val_above hw]
  exact htok2 (hcfg ▸ h.mode_mem32 hw)

/-- WRITE (R31): the data stand in the addressed entry, and no reply leaves. -/
theorem write_stores (h : MemoryRequest s n i request w q) {data : Arrivals} {d : Seen} (hop : q.value % 4 = 1) (hd : s.memData n i data = some d) :
    ∃ t, exec (.memCellWrite n i request data) s = .next t ∧ ServeFrame s t ∧ KeepsOthers n i s t ∧ WritesEntry n i w (q.value / 4) d.value s t ∧
      (t.cell n i).tok = (s.cell n i).tok ∧ CodesRecorded s t n (q.bad + d.bad) := by
  obtain ⟨u, hu, hserve⟩ := h.memServe_eq (by simp [hop] : q.value % 4 ∈ [1]) h.ready_write true d.bad data.upset
    fun addr s => s.memPut n i addr d.value
  have hput := hu.serves_memPut n i (q.value / 4) d.value
  obtain ⟨hframe, hkeeps, hcodes, hcell⟩ := hput.codeErrors (q.bad + d.bad)
  refine ⟨_, (exec_memCellWrite hd).trans (congrArg Host.Outcome.next hserve), hframe, hkeeps, h.writesEntry hkeeps ?_, ?_, hcodes⟩
  · rw [hcell, hput.mem]
  · rw [hcell, State.cell_memPut, if_pos ⟨rfl, rfl⟩]
    exact hu.cells.tok n i h.own

/-- READ, or code 0b11 (R31): the addressed entry is the reply, and every entry stays. -/
theorem read_replies (h : MemoryRequest s n i request w q) (htok : (s.cell n i).tok = none) (habove : w = 2 → (s.cell n (i + 1)).tok = none)
    (hop : q.value % 4 = 0 ∨ q.value % 4 = 3) :
    ∃ t, exec (.memCellRead n i request) s = .next t ∧ ServeFrame s t ∧ KeepsOthers n i s t ∧ (t.cell n i).mem = (s.cell n i).mem ∧
      Replied n i w (memEntry (s.cell n i) (q.value / 4)) t ∧ CodesRecorded s t n q.bad := by
  obtain ⟨u, hu, hserve⟩ := h.memServe_eq (by simp [hop] : q.value % 4 ∈ [0, 3]) (h.ready_reply htok habove) false 0 []
    fun addr s => s.memReply n i (memEntry (s.cell n i) addr)
  rw [memEntry_congr (hu.cells.cfg n i) (hu.cells.mem n i), Nat.add_zero] at hserve
  have hreply := (hu.serves n i).trans ((u.takes_memReply n i (memEntry (s.cell n i) (q.value / 4))).serves n i)
  obtain ⟨hframe, hkeeps, hcodes, hcell⟩ := hreply.codeErrors q.bad
  refine ⟨_, congrArg Host.Outcome.next hserve, hframe, hkeeps, ?_, h.replied (hu.cells.cfg n i) hu.taken hcell, hcodes⟩
  rw [hcell, hreply.mem, hu.cells.mem]

/-- SWAP (R31): the addressed entry is the reply, and the data stand there afterwards. -/
theorem swap_replies_and_stores (h : MemoryRequest s n i request w q) (htok : (s.cell n i).tok = none) (habove : w = 2 → (s.cell n (i + 1)).tok = none)
    {data : Arrivals} {d : Seen} (hop : q.value % 4 = 2) (hd : s.memData n i data = some d) :
    ∃ t, exec (.memCellSwap n i request data) s = .next t ∧ ServeFrame s t ∧ KeepsOthers n i s t ∧ WritesEntry n i w (q.value / 4) d.value s t ∧
      Replied n i w (memEntry (s.cell n i) (q.value / 4)) t ∧ CodesRecorded s t n (q.bad + d.bad) := by
  obtain ⟨u, hu, hserve⟩ := h.memServe_eq (by simp [hop] : q.value % 4 ∈ [2]) (h.ready_reply htok habove) true d.bad data.upset
    fun addr s => (s.memPut n i addr d.value).memReply n i (memEntry (s.cell n i) addr)
  rw [memEntry_congr (hu.cells.cfg n i) (hu.cells.mem n i)] at hserve
  have hput := hu.serves_memPut n i (q.value / 4) d.value
  have hreply := hput.trans ((State.takes_memReply _ n i (memEntry (s.cell n i) (q.value / 4))).serves n i)
  obtain ⟨hframe, hkeeps, hcodes, hcell⟩ := hreply.codeErrors (q.bad + d.bad)
  refine ⟨_, (exec_memCellSwap hd).trans (congrArg Host.Outcome.next hserve), hframe, hkeeps, h.writesEntry hkeeps ?_, ?_, hcodes⟩
  · rw [hcell, hreply.mem, hput.mem]
  · exact h.replied (hput.cfg n i) hu.taken hcell

end MemoryRequest

/-- Settles O23: the request's tokens are taken, the operation changes the addressed cell and its reply outputs alone, and what was illegal is recorded. -/
theorem memoryCellServes : Obligations.MemoryCellServes := by
  unfold Obligations.MemoryCellServes
  intro n i request data s w q own above entry recorded keeps written replied frame hwoken hclock hmode hasks hmay hown habove huntaken
  have h : MemoryRequest s n i request w q := ⟨hwoken, hclock, hmode, hasks, hmay, hown, habove, huntaken⟩
  refine ⟨fun d hop hd => h.write_stores hop hd, fun htok htok2 => ⟨fun hop => h.read_replies htok htok2 hop, fun d hop hd => ?_⟩⟩
  exact h.swap_replies_and_stores htok htok2 hop hd

end Sys2Proof.Machine
end

section
/-! PROOFS. What decides the replies of the agents' ports (R76, R444), and what leaves it alone: an insertion into a sorter (R132) and tokens that a lane takes
(R77), which the destinations of a STREAM run. -/

namespace Sys2Proof.Machine

/-- What STATE of the regions reads in a register file. -/
def regionStates (regs : Tbl Nat) (n : Nat) : Nat :=
  (Tbl.find 0 regs (Fld.CFG_RGN_STAT_STATE.key n) ^^^ Fld.CFG_RGN_STAT_STATE.reset n) % 2 ^ Fld.CFG_RGN_STAT_STATE.spec.width

/-- The requests that the ports of the agents hold, and the states of the regions, of which WOKEN ones take replies. -/
def State.portView (s : State) : Tbl (List PortReq) × (Nat → Nat) := (s.memo.ports, regionStates s.regs)

theorem State.portReqs_of_portView {s t : State} (h : t.portView = s.portView) (a p : Nat) : t.portReqs a p = s.portReqs a p := by
  rw [State.portReqs, show t.memo.ports = s.memo.ports from congrArg Prod.fst h]
  rfl

theorem State.woken_of_portView {s t : State} (h : t.portView = s.portView) (n : Nat) : t.woken n = s.woken n :=
  congrArg (fun v => v.2 n == 3) h

/-- What the frame of an operation says of the ports' view. -/
theorem Goes.portView {m : Nat} {s t : State} (h : Goes m s t) (hreg : m.testBit Reg.CFG_RGN_STAT.ctorIdx = false)
    (hpart : m.testBit (256 + Part.memo.ctorIdx) = false) : t.portView = s.portView :=
  Prod.ext (congrArg MemState.ports (h.parts .memo hpart)) (funext fun n => h.flds .CFG_RGN_STAT_STATE n hreg)

/-! In the proofs below, `(rfl)` in parentheses: simp rewrites with the lemma and does not count the two sides as equal by computation. -/

@[simp] theorem State.portView_mk
    (regs shadows waiting crossings pulses copies samplers cells words elements isos taken trees flying taps arbiters bms isoAbsorb uclkUse restoring
    evt boxes boxMem svc axes encLevel encOpen strobeT strobeAt beaconAt sorters insWords insRes gates plcs pins rings lease chans jobs letterBudget
    letterQueue fires memo seals laneTx laneSkip store images monitors links ports heaters config power resets secure franker out free clock timers
    pending) :
    State.portView
      ⟨regs, shadows, waiting, crossings, pulses, copies, samplers, cells, words, elements, isos, taken, trees, flying, taps, arbiters, bms, isoAbsorb,
      uclkUse, restoring, evt, boxes, boxMem, svc, axes, encLevel, encOpen, strobeT, strobeAt, beaconAt, sorters, insWords, insRes, gates, plcs, pins,
      rings, lease, chans, jobs, letterBudget, letterQueue, fires, memo, seals, laneTx, laneSkip, store, images, monitors, links, ports, heaters,
      config, power, resets, secure, franker, out, free, clock, timers, pending⟩ = (memo.ports, regionStates regs) := (rfl)

@[simp] theorem State.ports_regionStates (s : State) : (s.memo.ports, regionStates s.regs) = s.portView := (rfl)

@[simp] theorem State.ite_portView (c : Prop) [Decidable c] (s t : State) : (if c then s else t).portView = if c then s.portView else t.portView :=
  apply_ite _ c s t

/-! ### Registers, events, letters -/

@[simp] theorem State.put_portView (s : State) {f : Fld} (hf : f ≠ .CFG_RGN_STAT_STATE) (i v : Nat) : (s.put f i v).portView = s.portView :=
  Prod.ext rfl (funext fun n => s.fld_put_ne i n v hf)

@[simp] theorem State.bump_portView (s : State) {f : Fld} (hf : f ≠ .CFG_RGN_STAT_STATE) (i n : Nat) : (s.bump f i n).portView = s.portView :=
  s.put_portView hf i _

theorem State.each_portView_of {α : Type} {s t : State} {l : List α} {g : α → State → State} (h : t.portView = s.portView)
    (hg : ∀ a u, (g a u).portView = u.portView) : (t.each l g).portView = s.portView := by
  induction l generalizing t with
  | nil => exact h
  | cons a l ih => exact ih ((hg a t).trans h)

@[simp] theorem State.each_portView {α : Type} (s : State) (l : List α) (g : α → State → State) (hg : ∀ a t, (g a t).portView = t.portView) :
    (s.each l g).portView = s.portView := State.each_portView_of rfl hg

@[simp] theorem State.when_portView (s : State) (c : Bool) (g : State → State) (hg : (g s).portView = s.portView) :
    (s.when c g).portView = s.portView := by simp [State.when, hg]

@[simp] theorem State.emit_portView (s : State) (o) : (s.emit o).portView = s.portView := (rfl)
@[simp] theorem State.drew_portView (s : State) : s.drew.portView = s.portView := (rfl)

@[simp] theorem State.raiseWith_portView (s : State) (src reg) : (s.raiseWith src reg).portView = s.portView :=
  (s.goes_raiseWith src reg).portView (mask_reg_not (by decide)) (by simp [raiseMask, signalled])

@[simp] theorem State.raise_portView (s : State) (src) : (s.raise src).portView = s.portView := s.raiseWith_portView src _
@[simp] theorem State.raiseOf_portView (s : State) (src r i) : (s.raiseOf src r i).portView = s.portView := s.raiseWith_portView src _

@[simp] theorem State.perf_portView (s : State) (block inst event n x) : (s.perf block inst event n x).portView = s.portView :=
  (s.goes_perf block inst event n x).portView (mask_reg_not (by decide)) (by simp [countMask, signalled])

@[simp] theorem State.setQueue_portView (s : State) (q) : (s.setQueue q).portView = s.portView := by simp [State.setQueue]
@[simp] theorem State.logFirmware_portView (s : State) (code bytes) : (s.logFirmware code bytes).portView = s.portView := by simp [State.logFirmware]
@[simp] theorem State.setBox_portView (s : State) (m b) : (s.setBox m b).portView = s.portView := (rfl)

@[simp] theorem State.pump_portView (s : State) (m) : (s.pump m).portView = s.portView :=
  (s.goes_pump m).portView (mask_reg_not (by decide)) (by simp [letterMask])

@[simp] theorem State.send_portView (s : State) (m bytes) : (s.send m bytes).portView = s.portView := by simp [State.send]

@[simp] theorem State.notice_portView (s : State) (m opcode handle postmark body) :
    (s.notice m opcode handle postmark body).portView = s.portView := by simp [State.notice]

@[simp] theorem State.passInto_portView (s : State) (d) : (s.passInto d).portView = s.portView := (rfl)

/-! ### Flits and express slots -/

@[simp] theorem State.updLink_portView (s : State) (m) (g : Link → Link) : (s.updLink m g).portView = s.portView := (rfl)

@[simp] theorem State.linkErr_portView (s : State) (m) {f : Fld} (hf : f ≠ .CFG_RGN_STAT_STATE) : (s.linkErr m f).portView = s.portView := by
  simp [State.linkErr, hf]

@[simp] theorem State.putFlit_portView (s : State) (m lane seq bytes) : (s.putFlit m lane seq bytes).portView = s.portView := by simp [State.putFlit]
@[simp] theorem State.sendMarker_portView (s : State) (m lanes restripe) : (s.sendMarker m lanes restripe).portView = s.portView := by
  simp [State.sendMarker]
@[simp] theorem State.round_portView (s : State) (m) : (s.round m).portView = s.portView := by simp [State.round]
@[simp] theorem State.stripe_portView (s : State) (m vl first seq body) : (s.stripe m vl first seq body).portView = s.portView := by simp [State.stripe]
@[simp] theorem State.passBulk_portView (s : State) (m n) : (s.passBulk m n).portView = s.portView := by simp [State.passBulk]
@[simp] theorem State.sendFlit_portView (s : State) (m f) : (s.sendFlit m f).portView = s.portView := by simp [State.sendFlit]
@[simp] theorem State.emitSlot_portView (s : State) (m code seq data) : (s.emitSlot m code seq data).portView = s.portView := by simp [State.emitSlot]
@[simp] theorem State.sendExpress_portView (s : State) (m code data) : (s.sendExpress m code data).portView = s.portView := by simp [State.sendExpress]
@[simp] theorem State.linkExpress_portView (s : State) (m code data) : (s.linkExpress m code data).portView = s.portView := by simp [State.linkExpress]

/-! ### The audit log -/

@[simp] theorem State.stage_portView (s : State) (a log) : (s.stage a log).portView = s.portView := (rfl)
@[simp] theorem State.updLease_portView (s : State) (idx) (g : Lease → Lease) : (s.updLease idx g).portView = s.portView := (rfl)

@[simp] theorem State.audit_portView (s : State) (series kind ident count flags ch pm) :
    (s.audit series kind ident count flags ch pm).portView = s.portView := by simp [State.audit]

@[simp] theorem State.outcome_portView (s : State) (i kind ch pm) : (s.outcome i kind ch pm).portView = s.portView := by
  unfold State.outcome
  split <;> simp

/-! ### Sorters and timed pins -/

@[simp] theorem State.setSrt_portView (s : State) (n x) : (s.setSrt n x).portView = s.portView := by simp [State.setSrt]

@[simp] theorem State.srtDiscard_portView (s : State) (n) {flag : Fld} {cnt : Option Fld} (hflag : flag ≠ .CFG_RGN_STAT_STATE)
    (hcnt : cnt ≠ some .CFG_RGN_STAT_STATE) : (s.srtDiscard n flag cnt).portView = s.portView := by
  unfold State.srtDiscard
  split <;> simp_all

@[simp] theorem State.insertCore_portView (s : State) (n raw) : (s.insertCore n raw).1.portView = s.portView := by
  simp only [State.insertCore]
  (repeat' split) <;> simp

@[simp] theorem State.disarm_portView (s : State) (a) : (s.disarm a).portView = s.portView := by simp [State.disarm]
@[simp] theorem State.disarmAll_portView (s : State) (p : Armed → Bool) : (s.disarmAll p).portView = s.portView := by simp [State.disarmAll]

@[simp] theorem State.keepPin_portView (s : State) (p) : (s.keepPin p).portView = s.portView := by
  unfold State.keepPin
  split <;> simp

@[simp] theorem State.treeLevel_portView (s : State) (t b) : (s.treeLevel t b).portView = s.portView := by
  simp [State.treeLevel, State.setTree, State.pulseTree]

@[simp] theorem State.showSink_portView (s : State) (k) : (s.showSink k).portView = s.portView := by
  unfold State.showSink
  split <;> simp

@[simp] theorem State.keepLevels_portView (s : State) : s.keepLevels.portView = s.portView := by simp [State.keepLevels]
@[simp] theorem State.refreshPins_portView (s : State) : s.refreshPins.portView = s.portView := by simp [State.refreshPins]
@[simp] theorem State.cellEnable_portView (s : State) (c en) : (s.cellEnable c en).portView = s.portView := by simp [State.cellEnable, State.setPlc]

/-! ### Channels (R173..R182, R192, R197) -/

@[simp] theorem State.setChan_portView (s : State) (c x) : (s.setChan c x).portView = s.portView := (rfl)
@[simp] theorem State.updChan_portView (s : State) (c) (g : Channel → Channel) : (s.updChan c g).portView = s.portView := (rfl)

@[simp] theorem State.express_portView (s : State) (l code data) : (s.express l code data).portView = s.portView := by
  unfold State.express
  split <;> simp

@[simp] theorem State.reportNotice_portView (s : State) (c reason at_ resource) : (s.reportNotice c reason at_ resource).portView = s.portView := by
  simp [State.reportNotice, State.makeReport]

@[simp] theorem State.dropEvents_portView (s : State) (c pms) : (s.dropEvents c pms).portView = s.portView := (rfl)

@[simp] theorem State.recordOutcome_portView (s : State) (c p kind) : (s.recordOutcome c p kind).portView = s.portView := by
  unfold State.recordOutcome
  split <;> simp

@[simp] theorem State.inhibit_portView (s : State) (c cause) : (s.inhibit c cause).portView = s.portView := by simp [State.inhibit]
@[simp] theorem State.rejectMissed_portView (s : State) (c p) : (s.rejectMissed c p).portView = s.portView := by simp [State.rejectMissed]
@[simp] theorem State.countUnderrun_portView (s : State) (c) : (s.countUnderrun c).portView = s.portView := (rfl)
@[simp] theorem State.underPolicy_portView (s : State) (c) : (s.underPolicy c).portView = s.portView := by simp [State.underPolicy]
@[simp] theorem State.noteMark_portView (s : State) (c p) : (s.noteMark c p).portView = s.portView := by simp [State.noteMark]

@[simp] theorem State.rejectDiscarded_portView (s : State) (c p result) : (s.rejectDiscarded c p result).portView = s.portView := by
  simp [State.rejectDiscarded]

@[simp] theorem State.scheduleReject_portView (s : State) (c p) : (s.scheduleReject c p).portView = s.portView := by
  simp only [State.scheduleReject]
  (repeat' split) <;> simp

@[simp] theorem State.recordKnown_portView (s : State) (c) : (s.recordKnown c).portView = s.portView := by simp [State.recordKnown]

@[simp] theorem State.markProduct_portView (s : State) (c i) : (s.markProduct c i).portView = s.portView := by
  unfold State.markProduct
  split <;> simp

@[simp] theorem State.underrun_portView (s : State) (c reject pm) : (s.underrun c reject pm).portView = s.portView := by
  simp only [State.underrun]
  (repeat' split) <;> simp

@[simp] theorem State.insertEntry_portView (s : State) (n raw) : (s.insertEntry n raw).1.portView = s.portView := by
  simp only [State.insertEntry]
  (repeat' split) <;> simp

@[simp] theorem State.eventDone_portView (s : State) (c reject consumes pm) : (s.eventDone c reject consumes pm).portView = s.portView := (rfl)

/-! ### What a lane takes (R77, R278, R279) -/

@[simp] theorem State.unsent_portView (s : State) (lines) : (s.unsent lines).portView = s.portView := by
  refine s.each_portView _ _ fun e t => ?_
  split <;> simp

@[simp] theorem State.underruns_portView (s : State) (lines) : (s.underruns lines).portView = s.portView := by
  refine s.each_portView _ _ fun e t => ?_
  split <;> simp

@[simp] theorem State.skipLine_portView (s : State) (m l pm row) : (s.skipLine m l pm row).portView = s.portView := by simp [State.skipLine]

@[simp] theorem State.startLine_portView (s : State) (m l f) : (s.startLine m l f).portView = s.portView := by
  simp only [State.startLine]
  (repeat' split) <;> simp

@[simp] theorem State.pumpLinkN_portView (n) (s : State) (m) : (State.pumpLinkN n s m).portView = s.portView := by
  fun_induction State.pumpLinkN <;> simp_all

@[simp] theorem State.pumpLink_portView (s : State) (m) : (s.pumpLink m).portView = s.portView := by simp [State.pumpLink]
@[simp] theorem State.laneUnit_portView (s : State) (l vl data) : (s.laneUnit l vl data).portView = s.portView := by simp [State.laneUnit]

end Sys2Proof.Machine
end

section
/-! PROOFS. A port of an agent at rest and the one request that it takes (R76..R78), and O50. -/

namespace Sys2Proof.Machine

/-! ### Replies leave a port (R78) -/

@[simp] theorem State.portReqs_setPort_same (s : State) (a p : Nat) (l : List PortReq) : (s.setPort a p l).portReqs a p = l := by
  simp [State.portReqs_setPort]

@[simp] theorem State.setPort_woken (s : State) (a p : Nat) (l : List PortReq) (n : Nat) : (s.setPort a p l).woken n = s.woken n := rfl

theorem agentFlag_spec {status : Nat} {f : Fld} (h : agentFlag status = some f) : f.spec.reg = .CFG_AGT_STAT ∧ 0 < f.spec.width := by
  have hf : f = .CFG_AGT_STAT_REFUSED ∨ f = .CFG_AGT_STAT_INTEG ∨ f = .CFG_AGT_STAT_POISON := by
    simp only [agentFlag] at h
    split_ifs at h <;> simp_all
  obtain rfl | rfl | rfl := hf <;> decide

/-- The flag of a reply's status is set before the reply leaves (R317), with an event on its setting. -/
theorem State.agentReply_eq_emit {s : State} {a : Nat} (hw : s.woken (agentRegion a) = true) (p : Nat) (r : PortReq) (st : Nat × Nat) :
    ∃ t : State, s.agentReply a p r st = t.emit (.agentReply a p st.1 r.word (if r.op.reads then some st.2 else none)) ∧
      ∀ f, agentFlag st.1 = some f → t.on f a = true := by
  unfold State.agentReply
  cases hflag : agentFlag st.1 with
  | none => exact ⟨s, if_pos hw, nofun⟩
  | some f =>
    obtain ⟨hreg, hwidth⟩ := agentFlag_spec hflag
    have hne : f ≠ .CFG_RGN_STAT_STATE := by rintro rfl; cases hreg
    refine ⟨(s.put f a 1).when (!s.on f a) (·.raise (164 + agentRegion a)), if_pos ?_, ?_⟩
    · rw [State.woken_of_portView (t := (s.put f a 1).when _ _) (s := s) (by simp [hne]), hw]
    · rintro _ ⟨⟩
      rw [State.on, ((Goes.refl raiseMask _).when _ _ fun u => u.goes_raise _).flds f a (by simp [raiseMask, signals, hreg])]
      exact s.on_put_one f a hwidth

/-- A request that is done leaves as its reply. -/
theorem State.replied_releaseReplies {s : State} {a p : Nat} {r : PortReq} {st : Nat × Nat} (hw : s.woken (agentRegion a) = true)
    (hdone : r.done = some st) (hfence : r.op = .fence → st = (0, 0)) :
    (s.releaseReplies a p [r]).Replied a p st.1 r.word (if r.op.reads then some st.2 else none) ∧
      ∀ f, agentFlag st.1 = some f → (s.releaseReplies a p [r]).on f a = true := by
  have hrelease : s.releaseReplies a p [r] = (s.agentReply a p r st).setPort a p [] := by
    by_cases hop : r.op = .fence <;> simp [State.releaseReplies, hop, hdone, hfence]
  obtain ⟨t, hreply, hflag⟩ := State.agentReply_eq_emit hw p r st
  rw [hrelease, hreply]
  exact ⟨⟨State.portReqs_setPort_same .., List.getLast?_append⟩, hflag⟩

/-- A request that is not done stays in its port. -/
theorem State.releaseReplies_undone (s : State) (a p : Nat) {r : PortReq} (hdone : r.done = none) (hop : r.op ≠ .fence) :
    s.releaseReplies a p [r] = s.setPort a p [r] := by
  simp [State.releaseReplies, hdone, hop]

/-! ### A port that holds one request (R76, R304, R308) -/

theorem State.setReq_one {s : State} {a p : Nat} {r : PortReq} (hport : s.portReqs a p = [r]) (q : PortReq) : s.setReq a p 0 q = s.setPort a p [q] := by
  simp [State.setReq, hport]

/-- The only request of a port is served, and its reply leaves if it is done. -/
theorem State.servePort_one {s : State} {a p : Nat} {r : PortReq} (hport : s.portReqs a p = [r]) :
    s.servePort a p = (s.serveReq a p 0).releaseReplies a p ((s.serveReq a p 0).portReqs a p) := by
  simp [State.servePort, hport, State.each]

/-- Nothing stands before the only request of a port: how it is served is its operation's. -/
theorem State.serveReq_one {s : State} {a p : Nat} {r : PortReq} (hport : s.portReqs a p = [r]) (hsent : r.sent = false) (hdone : r.done = none) :
    s.serveReq a p 0 = match r.op with
      | .fence => s.setPort a p [{ r with done := some (0, 0) }]
      | .stream =>
        if 64 ≤ r.line && s.domainWaits (some ((r.line - 64) / 64)) then s.queueStream a p 0 r
        else if r.line < 64 then (s.setPort a p [{ r with sent := true }]).tryStream a p r
        else (s.tryStream a p r).setReq a p 0 { r with done := some (0, 0) }
      | _ => (s.tryReq a r).1.setReq a p 0 (s.tryReq a r).2 := by
  cases hop : r.op <;> simp [State.serveReq, hport, PortReq.inOctet, hop, hsent, hdone, mayServe, State.when, State.setReq]

/-- The state in which an agent at rest has taken a request and serves its port. -/
def State.asking (s : State) (a p : Nat) (r : PortReq) : State := (s.perf 2 a 0 1 (some ⟨a, 0, r.line⟩)).setPort a p [r]

@[simp] theorem State.portReqs_asking (s : State) (a p : Nat) (r : PortReq) : (s.asking a p r).portReqs a p = [r] := State.portReqs_setPort_same ..

@[simp] theorem State.woken_asking (s : State) (a p : Nat) (r : PortReq) (n : Nat) : (s.asking a p r).woken n = s.woken n :=
  State.woken_of_portView (s.perf_portView ..) n

@[simp] theorem State.domainWaits_asking (s : State) (a p : Nat) (r : PortReq) (d : Nat) :
    (s.asking a p r).domainWaits (some d) = s.domainWaits (some d) := by
  have hperf := s.goes_perf 2 a 0 1 (some ⟨a, 0, r.line⟩)
  have hrun : (s.asking a p r).runs d = s.runs d := congrArg (bitOf · d) (hperf.flds .DEV_ISL_RUN_RUN 0 (mask_reg_not (by decide)))
  have hheld : (s.asking a p r).isHeld d = s.isHeld d := congrArg (bitOf · d) (hperf.flds .DEV_ISL_HELD_HELD 0 (mask_reg_not (by decide)))
  simp [State.domainWaits, hrun, hheld]

@[simp] theorem State.srt_asking (s : State) (a p : Nat) (r : PortReq) (n : Nat) : (s.asking a p r).srt n = s.srt n :=
  congrArg (Tbl.find Sorter.reset · n) ((s.goes_perf 2 a 0 1 (some ⟨a, 0, r.line⟩)).parts .sorters (by simp [countMask, signalled]))

/-- An agent at rest that takes a request serves the port of that request alone. -/
theorem State.takeReq_of_rests {s : State} {a : Nat} (hrest : s.AgentRests a) (p : Fin 16) (r : PortReq) :
    s.takeReq a p r = (s.asking a p r).servePort a p := by
  obtain ⟨hwoken, hports⟩ := hrest
  have hview (q : Nat) : (s.perf 2 a 0 1 (some ⟨a, 0, r.line⟩)).portReqs a q = [] :=
    (State.portReqs_of_portView (s.perf_portView ..) a q).trans (hports q)
  have hport (q : Nat) : (!((s.asking a p r).portReqs a q).isEmpty) = (q == p.val) := by
    by_cases hq : p.val = q
    · simp [← hq]
    · simp [State.asking, State.portReqs_setPort, hview, hq, Ne.symm hq]
  have hserve : (List.range 16).filter (fun q => !((s.asking a p r).portReqs a q).isEmpty) = [p.val] := by
    simp only [hport]
    clear hport
    revert p
    decide
  calc s.takeReq a p r = (s.asking a p r).serveAgent a := by simp [State.takeReq, hwoken, hview, State.asking]
    _ = (s.asking a p r).servePort a p := by rw [State.serveAgent, hserve]; rfl

/-- A request that serving its port has done leaves as its reply; `q` is what becomes of the request. -/
theorem State.takeReq_replied {s : State} {a : Nat} (hrest : s.AgentRests a) (p : Fin 16) {r q : PortReq} {st : Nat × Nat}
    (hport : ((s.asking a p r).serveReq a p 0).portReqs a p = [q]) (hwoken : ((s.asking a p r).serveReq a p 0).woken (agentRegion a) = true)
    (hdone : q.done = some st) (hfence : q.op = .fence → st = (0, 0)) :
    (s.takeReq a p r).Replied a p st.1 q.word (if q.op.reads then some st.2 else none) ∧
      ∀ f, agentFlag st.1 = some f → (s.takeReq a p r).on f a = true := by
  rw [State.takeReq_of_rests hrest, State.servePort_one (s.portReqs_asking ..), hport]
  exact State.replied_releaseReplies hwoken hdone hfence

/-- A request that serving its port has not done stays. -/
theorem State.takeReq_undone {s : State} {a : Nat} (hrest : s.AgentRests a) (p : Fin 16) {r q : PortReq}
    (hport : ((s.asking a p r).serveReq a p 0).portReqs a p = [q]) (hdone : q.done = none) (hop : q.op ≠ .fence) :
    s.takeReq a p r = ((s.asking a p r).serveReq a p 0).setPort a p [q] := by
  rw [State.takeReq_of_rests hrest, State.servePort_one (s.portReqs_asking ..), hport, State.releaseReplies_undone _ a p hdone hop]

/-! ### What each operation replies (R77, R78, R308) -/

/-- A FENCE with nothing before it replies status 0 (R308). -/
theorem State.fence_replied {s : State} {a : Nat} (hrest : s.AgentRests a) (p : Fin 16) (word : Nat) :
    (s.takeReq a p ⟨.fence, 0, word, 0, 0, false, none⟩).Replied a p 0 word none := by
  have hserve := State.serveReq_one (s.portReqs_asking a p ⟨.fence, 0, word, 0, 0, false, none⟩) rfl rfl
  have hport := (congrArg (·.portReqs a p) hserve).trans (State.portReqs_setPort_same ..)
  exact (State.takeReq_replied hrest p hport (by simp [hserve, hrest.1]) rfl fun _ => rfl).1

/-- A reserved operation replies status 0x1 and sets REFUSED (R77, R78). -/
theorem State.reserved_refused {s : State} {a : Nat} (hrest : s.AgentRests a) (p : Fin 16) (line word data : Nat) :
    (s.takeReq a p ⟨.reserved, line, word, data, 0, false, none⟩).Replied a p 1 word none ∧
      (s.takeReq a p ⟨.reserved, line, word, data, 0, false, none⟩).on .CFG_AGT_STAT_REFUSED a = true := by
  have hasking := s.portReqs_asking a p ⟨.reserved, line, word, data, 0, false, none⟩
  have hserve := (State.serveReq_one hasking rfl rfl).trans (State.setReq_one hasking _)
  have hport := (congrArg (·.portReqs a p) hserve).trans (State.portReqs_setPort_same ..)
  obtain ⟨hreplied, hflag⟩ := State.takeReq_replied hrest p (st := (1, 0)) hport (by simp [hserve, hrest.1]) rfl nofun
  exact ⟨hreplied, hflag _ rfl⟩

/-- The request of a STREAM whose destination is bound to its port, as the port takes it (R77). -/
def streamReq (d : Dest) (word data : Nat) : PortReq := ⟨.stream, destCode d, word, data, 0, false, none⟩

/-! ### A STREAM to a lane (R77, R92, R97) -/

/-- The place of a virtual lane, as a request of a STREAM holds it, lies in the lane's octet. -/
theorem octet_of_destCode (n : Nat) {vl : Nat} (hvl : vl < 8) : (destCode (.lane n vl) - 64) / 64 = n / 8 := by
  simp only [destCode]
  omega

theorem le_destCode_lane (n vl : Nat) : 64 ≤ destCode (.lane n vl) := by
  simp only [destCode]
  omega

theorem State.laneStream_portView (s : State) (a p n vl word data : Nat) :
    (s.tryStream a p (streamReq (.lane n vl) word data)).portView = s.portView := by
  simp [State.tryStream, streamReq, Nat.not_lt.mpr (le_destCode_lane n vl)]

/-- A STREAM to a lane goes to the lane at once where the lane's octet runs, and else to the octet's crossing. -/
theorem State.serveReq_lane {s : State} {a p n vl word data : Nat} (hvl : vl < 8) (hport : s.portReqs a p = [streamReq (.lane n vl) word data]) :
    s.serveReq a p 0 =
      if s.domainWaits (some (n / 8)) then s.queueStream a p 0 (streamReq (.lane n vl) word data)
      else (s.tryStream a p (streamReq (.lane n vl) word data)).setPort a p [{ streamReq (.lane n vl) word data with done := some (0, 0) }] := by
  rw [State.serveReq_one hport rfl rfl, ← State.setReq_one ((State.portReqs_of_portView (s.laneStream_portView ..) a p).trans hport)]
  simp [streamReq, octet_of_destCode n hvl, le_destCode_lane, Nat.not_lt.mpr (le_destCode_lane n vl)]

/-- A STREAM to a lane replies status 0 where the lane's octet runs and is not held (R77). -/
theorem State.lane_replied {s : State} {a : Nat} (hrest : s.AgentRests a) (p : Fin 16) {n vl : Nat} (hvl : vl < 8)
    (hrun : s.domainWaits (some (n / 8)) = false) (word data : Nat) : (s.takeReq a p (streamReq (.lane n vl) word data)).Replied a p 0 word none := by
  have hserve := State.serveReq_lane hvl (s.portReqs_asking a p (streamReq (.lane n vl) word data))
  rw [State.domainWaits_asking, hrun, if_neg Bool.false_ne_true] at hserve
  refine (State.takeReq_replied hrest p (st := (0, 0)) ((congrArg (·.portReqs a p) hserve).trans (State.portReqs_setPort_same ..)) ?_ rfl nofun).1
  rw [hserve, State.setPort_woken, State.woken_of_portView (State.laneStream_portView ..), State.woken_asking, hrest.1]

/-- A STREAM that may enter the crossing queue of an octet stays in its port (R92, R97). -/
theorem State.portReqs_queueStream {s : State} {a p : Nat} {r : PortReq} (hport : s.portReqs a p = [r]) :
    ∃ sent, (s.queueStream a p 0 r).portReqs a p = [{ r with sent := sent }] := by
  unfold State.queueStream
  extract_lets k
  split
  · exact ⟨r.sent, hport⟩
  · rw [State.setReq_one hport]
    exact ⟨true, State.portReqs_setPort_same ..⟩

/-- A STREAM to a lane whose octet is stopped or held waits (R93, R97). -/
theorem State.lane_waits {s : State} {a : Nat} (hrest : s.AgentRests a) (p : Fin 16) {n vl : Nat} (hvl : vl < 8)
    (hwaits : s.domainWaits (some (n / 8)) = true) (word data : Nat) :
    ∃ r, (s.takeReq a p (streamReq (.lane n vl) word data)).portReqs a p = [r] ∧ r.done = none := by
  have hserve := State.serveReq_lane hvl (s.portReqs_asking a p (streamReq (.lane n vl) word data))
  rw [State.domainWaits_asking, if_pos hwaits] at hserve
  obtain ⟨sent, hport⟩ := State.portReqs_queueStream (s.portReqs_asking a p (streamReq (.lane n vl) word data))
  rw [← hserve] at hport
  rw [State.takeReq_undone hrest p hport rfl nofun]
  exact ⟨_, State.portReqs_setPort_same .., rfl⟩

/-! ### A STREAM to a sorter (R131) -/

theorem State.srt_setSrt (s : State) (n k : Nat) (x : Sorter) : (s.setSrt n x).srt k = if n = k then x else s.srt k :=
  Tbl.find_set _ _ _ _ _

/-- The port that a tag names (R131) replies to its STREAM, the last entry of which is in. -/
theorem State.streamDone_replied {s : State} {a : Nat} {p : Fin 16} {r : PortReq} (hwoken : s.woken (agentRegion a) = true)
    (hport : s.portReqs a p = [r]) (hop : r.op = .stream) (hsent : r.sent = true) (hdone : r.done = none) :
    (s.streamDone (a * 16 + p + 1)).Replied a p 0 r.word none := by
  have hagent : (a * 16 + p + 1 - 1) / 16 = a := by omega
  have hplace : (a * 16 + p + 1 - 1) % 16 = p := by omega
  have hmark : doneStream [r] = [{ r with done := some (0, 0) }] := by simp [doneStream, hop, hsent, hdone]
  simp only [State.streamDone, if_neg (Nat.succ_ne_zero _), hagent, hplace, hport, hmark]
  have h := (State.replied_releaseReplies (p := p) (r := { r with done := some (0, 0) }) hwoken rfl (by simp)).1
  simpa [hop, AgentOp.reads] using h

/-- What a STREAM to sorter `n` leaves behind: its port has replied, or the port holds it as it was while entries of it wait for space. -/
def State.Streamed (t : State) (a p n : Nat) (r : PortReq) : Prop :=
  t.Replied a p 0 r.word none ∨ t.portReqs a p = [r] ∧ (t.srt n).streams ≠ []

/-- Entries of a STREAM enter in order, and its port's tag is on the last (R131): the port replies once that is in. -/
theorem State.streamed_streamIn {s : State} {a : Nat} {p : Fin 16} {r : PortReq} (n : Nat) {firsts : List Nat} {last : Nat}
    (hwoken : s.woken (agentRegion a) = true) (hport : s.portReqs a p = [r]) (hop : r.op = .stream) (hsent : r.sent = true) (hdone : r.done = none)
    (hfirsts : ∀ e ∈ firsts, e / 2 ^ 128 = 0) (hlast : last / 2 ^ 128 = a * 16 + p + 1) :
    (s.streamIn n (firsts ++ [last])).Streamed a p n r := by
  have hview (u : State) (h : u.portView = s.portView) : u.woken (agentRegion a) = true ∧ u.portReqs a p = [r] :=
    ⟨(State.woken_of_portView h _).trans hwoken, (State.portReqs_of_portView h a p).trans hport⟩
  induction firsts generalizing s with
  | nil =>
    have hend (u : State) (h : u.portView = s.portView) : ((u.streamDone (last / 2 ^ 128)).streamIn n []).Streamed a p n r := by
      obtain ⟨hw, hp⟩ := hview u h
      rw [hlast]
      exact .inl (State.streamDone_replied hw hp hop hsent hdone)
    simp only [List.nil_append, State.streamIn]
    split_ifs
    · exact hend s rfl
    · exact .inr ⟨hport, by simp [State.srt_setSrt]⟩
    · exact hend _ (s.insertEntry_portView ..)
  | cons e firsts ih =>
    have he : e / 2 ^ 128 = 0 := hfirsts e List.mem_cons_self
    have hnext (u : State) (h : u.portView = s.portView) : ((u.streamDone (e / 2 ^ 128)).streamIn n (firsts ++ [last])).Streamed a p n r := by
      obtain ⟨hw, hp⟩ := hview u h
      rw [he]
      exact ih hw hp (fun x hx => hfirsts x (List.mem_cons_of_mem _ hx)) fun v hv => hview v (hv.trans h)
    simp only [List.cons_append, State.streamIn]
    split_ifs
    · exact hnext s rfl
    · exact .inr ⟨hport, by simp [State.srt_setSrt]⟩
    · exact hnext _ (s.insertEntry_portView ..)

/-- The four entries of two data tokens: the port's tag stands on the last alone. -/
theorem streamEntries_eq (data tag : Nat) :
    ∃ firsts last, streamEntries data tag = firsts ++ [last] ∧ (∀ e ∈ firsts, e / 2 ^ 128 = 0) ∧ last / 2 ^ 128 = tag := by
  have hlow (m : Nat) : m % 2 ^ 128 / 2 ^ 128 = 0 := Nat.div_eq_of_lt (Nat.mod_lt _ (Nat.two_pow_pos _))
  refine ⟨[_, _, _], _, rfl, by simp only [List.forall_mem_cons, hlow, true_and, List.not_mem_nil, false_imp_iff, implies_true], ?_⟩
  rw [Nat.add_mul_div_right _ _ (Nat.two_pow_pos _), hlow, Nat.zero_add]

/-- The entries of a STREAM to a sorter that no other waits for come first. -/
theorem State.tryStream_sorter {s : State} {n : Nat} (hn : n < 64) (hfree : (s.srt n).streams = []) (a p word data : Nat) :
    s.tryStream a p (streamReq (.sorter n) word data) =
      (s.setSrt n { s.srt n with streams := streamEntries data (a * 16 + p + 1) }).streamIn n (streamEntries data (a * 16 + p + 1)) := by
  obtain ⟨firsts, last, hentries, -⟩ := streamEntries_eq data (a * 16 + p + 1)
  simp [State.tryStream, streamReq, destCode, hn, hfree, State.srtSpace, State.srt_setSrt, hentries]

/-- A STREAM to a sorter is on its way as its entries come to the sorter. -/
theorem State.serveReq_sorter {s : State} {a p n word data : Nat} (hn : n < 64) (hport : s.portReqs a p = [streamReq (.sorter n) word data]) :
    s.serveReq a p 0 =
      (s.setPort a p [{ streamReq (.sorter n) word data with sent := true }]).tryStream a p (streamReq (.sorter n) word data) := by
  rw [State.serveReq_one hport rfl rfl]
  simp [streamReq, destCode, hn, Nat.not_le.mpr hn]

/-- A STREAM to a sorter that no other waits for: status 0, or the port holds it on its way while entries wait (R77, R131). -/
theorem State.sorter_replied_or_waits {s : State} {a : Nat} (hrest : s.AgentRests a) (p : Fin 16) {n : Nat} (hn : n < 64)
    (hfree : (s.srt n).streams = []) (word data : Nat) :
    let t := s.takeReq a p (streamReq (.sorter n) word data)
    t.Replied a p 0 word none ∨ t.Holds a p true ∧ (t.srt n).streams ≠ [] := by
  intro t
  let r := streamReq (.sorter n) word data
  have hserved : ((s.asking a p r).serveReq a p 0).Streamed a p n { r with sent := true } := by
    obtain ⟨firsts, last, hentries, hfirsts, hlast⟩ := streamEntries_eq data (a * 16 + p + 1)
    have hasking : (((s.asking a p r).setPort a p [{ r with sent := true }]).srt n).streams = [] :=
      (congrArg Sorter.streams (s.srt_asking a p r n)).trans hfree
    rw [State.serveReq_sorter hn (s.portReqs_asking ..), State.tryStream_sorter hn hasking, hentries]
    refine State.streamed_streamIn n ?_ ?_ rfl rfl rfl hfirsts hlast
    · rw [State.woken_of_portView (State.setSrt_portView ..), State.setPort_woken, State.woken_asking, hrest.1]
    · rw [State.portReqs_of_portView (State.setSrt_portView ..), State.portReqs_setPort_same]
  have ht : t = _ := (State.takeReq_of_rests hrest p r).trans (State.servePort_one (s.portReqs_asking a p r))
  rw [ht]
  obtain ⟨hport, hout⟩ | ⟨hport, hwait⟩ := hserved
  · rw [hport]
    exact .inl ⟨State.portReqs_setPort_same .., hout⟩
  · rw [hport, State.releaseReplies_undone _ a p rfl (by simp [r, streamReq])]
    exact .inr ⟨⟨_, State.portReqs_setPort_same .., rfl, rfl⟩, hwait⟩

/-! ### The operations of a header (R77) -/

theorem opOf_reserved {tag : Nat} (h : 8 ≤ tag) : opOf tag = .reserved := by
  obtain ⟨k, rfl⟩ := Nat.exists_eq_add_of_le' h
  rfl

/-- A word that names a lane gives one of eight virtual lanes (log 90). -/
theorem lt_of_destOf_lane {w n vl : Nat} (h : destOf w = .lane n vl) : vl < 8 := by
  unfold destOf at h
  split_ifs at h
  cases h
  exact Nat.mod_lt _ (by decide)

/-- A word that names a sorter gives one of 64 (log 90). -/
theorem lt_of_destOf_sorter {w n : Nat} (h : destOf w = .sorter n) : n < 64 := by
  unfold destOf at h
  split_ifs at h
  cases h
  exact Nat.mod_lt _ (by decide)

/-- A STREAM whose destination is bound is taken as one. -/
theorem State.agentRequest_bound {s : State} {a p : Nat} {h : WordToken} (htag : h.tag = 6) {d : Dest} (hdest : destOf h.data = d)
    (hbound : s.destBound a p d = true) (low high : HalfLine) :
    s.agentRequest a p h low high = s.takeReq a p (streamReq d h.data (low.data + high.data * 2 ^ 256)) := by
  simp only [State.agentRequest, htag, opOf, hdest, hbound, if_true, streamReq]

/-- A STREAM whose destination is not bound is taken as a reserved operation (R78). -/
theorem State.agentRequest_unbound {s : State} {a p : Nat} {h : WordToken} (htag : h.tag = 6) (hunbound : s.destBound a p (destOf h.data) = false)
    (low high : HalfLine) :
    s.agentRequest a p h low high =
      s.takeReq a p ⟨.reserved, destCode (destOf h.data), h.data, low.data + high.data * 2 ^ 256, 0, false, none⟩ := by
  simp only [State.agentRequest, htag, opOf, hunbound, Bool.false_eq_true, if_false]

/-- Settles O50: what a STREAM replies goes by its destination; a FENCE and a reserved operation are replied to at once. -/
theorem agentStreamsAndFences : Obligations.AgentStreamsAndFences := by
  unfold Obligations.AgentStreamsAndFences
  intro a p h low high s hrest l
  refine ⟨fun htag => ⟨s.agentRequest a p h low high, rfl, fun hunbound => ?_, fun hbound n vl hdest => ?_, fun hbound n hdest hfree => ?_⟩,
    fun htag => ⟨s.agentRequest a p h noHalf noHalf, rfl, ?_⟩, fun htag => ⟨s.agentRequest a p h noHalf noHalf, rfl, ?_⟩⟩
  · rw [State.agentRequest_unbound htag hunbound]
    exact State.reserved_refused hrest p _ _ _
  · rw [State.agentRequest_bound htag hdest (hdest ▸ hbound)]
    have hvl := lt_of_destOf_lane hdest
    exact ⟨fun hrun => State.lane_replied hrest p hvl hrun _ _, fun hwaits => State.lane_waits hrest p hvl hwaits _ _⟩
  · rw [State.agentRequest_bound htag hdest (hdest ▸ hbound)]
    exact State.sorter_replied_or_waits hrest p (lt_of_destOf_sorter hdest) hfree _ _
  · simp only [State.agentRequest, htag, opOf]
    exact State.fence_replied hrest p _
  · simp only [State.agentRequest, opOf_reserved htag]
    exact State.reserved_refused hrest p _ _ _

end Sys2Proof.Machine
end

section
/-! PROOFS. What the state shows of the domains that stop and run (R84), and what leaves it alone: registers, events, mailboxes, flits, what the blocks hold,
and stacked memory. Each function that answers a state has one lemma, by its own equation and the lemmas of what it calls, in the order of the definitions. -/

namespace Sys2Proof.Machine

/-! ### RUN, STOP and source 4 -/

/-- The fields that show a domain stop or run: RUN and STOP, and the pending bits of the event sources, of which source 4 is raised (R84, R531). -/
def Fld.showsDomains (f : Fld) : Bool := f == .DEV_ISL_RUN_RUN || f == .DEV_ISL_STOP_STOP || f == .EVT_PEND_PEND

@[simp] theorem Fld.showsDomains_eq_false (f : Fld) :
    f.showsDomains = false ↔ f ≠ .DEV_ISL_RUN_RUN ∧ f ≠ .DEV_ISL_STOP_STOP ∧ f ≠ .EVT_PEND_PEND := by
  simp [Fld.showsDomains, and_assoc]

/-- A field as it reads in a register file. -/
def fldOf (regs : Tbl Nat) (f : Fld) (i : Nat) : Nat := (Tbl.find 0 regs (f.key i) ^^^ f.reset i) % 2 ^ f.spec.width

/-- What a register file shows of the domains: RUN, STOP, and whether source 4 is pending (R84). -/
def domainsShown (regs : Tbl Nat) : Nat × Nat × Bool :=
  (fldOf regs .DEV_ISL_RUN_RUN 0, fldOf regs .DEV_ISL_STOP_STOP 0, bitOf (fldOf regs .EVT_PEND_PEND 0) 4)

/-- What the state shows of the domains. -/
def State.domainView (s : State) : Nat × Nat × Bool := domainsShown s.regs

theorem State.domainView_eq (s : State) : s.domainView = (s.fld .DEV_ISL_RUN_RUN 0, s.fld .DEV_ISL_STOP_STOP 0, s.pends 4) := rfl

/-- A frame that leaves out RUN and STOP leaves what is shown, where source 4 is pending as before. -/
theorem Goes.domainView {m : Nat} {s t : State} (h : Goes m s t) (hrun : m.testBit Reg.DEV_ISL_RUN.ctorIdx = false)
    (hstop : m.testBit Reg.DEV_ISL_STOP.ctorIdx = false) (hpend : t.pends 4 = s.pends 4) : t.domainView = s.domainView :=
  Prod.ext (h.flds .DEV_ISL_RUN_RUN 0 hrun) (Prod.ext (h.flds .DEV_ISL_STOP_STOP 0 hstop) hpend)

@[simp] theorem State.domainView_mk
    (regs shadows waiting crossings pulses copies samplers cells words elements isos taken trees flying taps arbiters bms isoAbsorb uclkUse restoring
    evt boxes boxMem svc axes encLevel encOpen strobeT strobeAt beaconAt sorters insWords insRes gates plcs pins rings lease chans jobs letterBudget
    letterQueue fires memo seals laneTx laneSkip store images monitors links ports heaters config power resets secure franker out free clock timers
    pending) :
    State.domainView
      ⟨regs, shadows, waiting, crossings, pulses, copies, samplers, cells, words, elements, isos, taken, trees, flying, taps, arbiters, bms, isoAbsorb,
      uclkUse, restoring, evt, boxes, boxMem, svc, axes, encLevel, encOpen, strobeT, strobeAt, beaconAt, sorters, insWords, insRes, gates, plcs, pins,
      rings, lease, chans, jobs, letterBudget, letterQueue, fires, memo, seals, laneTx, laneSkip, store, images, monitors, links, ports, heaters,
      config, power, resets, secure, franker, out, free, clock, timers, pending⟩ = domainsShown regs := (rfl)

@[simp] theorem State.domainsShown_regs (s : State) : domainsShown s.regs = s.domainView := (rfl)

@[simp] theorem State.ite_domainView (c : Prop) [Decidable c] (s t : State) : (if c then s else t).domainView = if c then s.domainView else t.domainView :=
  apply_ite _ c s t

@[simp] theorem ite_fst_domainView {β : Type} (c : Prop) [Decidable c] (a b : State × β) :
    (if c then a else b).1.domainView = if c then a.1.domainView else b.1.domainView := apply_ite (fun x => x.1.domainView) c a b

/-- A write of an element that none of the three shows leaves what is shown. -/
theorem State.put_domainView_of_ne (s : State) {f : Fld} {i : Nat} (h : f.showsDomains = true → i ≠ 0) (v : Nat) :
    (s.put f i v).domainView = s.domainView := by
  have hne {g : Fld} (hg : g.showsDomains = true) : (s.put f i v).fld g 0 = s.fld g 0 := by
    rw [State.fld_put]
    exact if_neg fun ⟨hf, hi⟩ => h (hf ▸ hg) hi
  simp only [State.domainView_eq, State.pends, hne (g := .DEV_ISL_RUN_RUN) rfl, hne (g := .DEV_ISL_STOP_STOP) rfl, hne (g := .EVT_PEND_PEND) rfl]

@[simp] theorem State.put_domainView (s : State) {f : Fld} (hf : f.showsDomains = false) (i v : Nat) : (s.put f i v).domainView = s.domainView :=
  s.put_domainView_of_ne (by simp [hf]) v

@[simp] theorem State.orFld_domainView (s : State) {f : Fld} (hf : f.showsDomains = false) (i m : Nat) : (s.orFld f i m).domainView = s.domainView :=
  s.put_domainView hf i _

@[simp] theorem State.putBit_domainView (s : State) {f : Fld} (hf : f.showsDomains = false) (i b : Nat) (v : Bool) :
    (s.putBit f i b v).domainView = s.domainView := s.put_domainView hf i _

@[simp] theorem State.addMod_domainView (s : State) {f : Fld} (hf : f.showsDomains = false) (i n : Nat) : (s.addMod f i n).domainView = s.domainView :=
  s.put_domainView hf i _

@[simp] theorem State.clr_domainView (s : State) {f : Fld} (hf : f.showsDomains = false) (i : Nat) : (s.clr f i).domainView = s.domainView :=
  s.put_domainView hf i _

@[simp] theorem State.bump_domainView (s : State) {f : Fld} (hf : f.showsDomains = false) (i n : Nat) : (s.bump f i n).domainView = s.domainView :=
  s.put_domainView hf i _

theorem State.each_domainView_of {α : Type} {s t : State} {l : List α} {g : α → State → State} (h : t.domainView = s.domainView)
    (hg : ∀ a ∈ l, ∀ u, (g a u).domainView = u.domainView) : (t.each l g).domainView = s.domainView :=
  State.each_keeps (P := (·.domainView = s.domainView)) (fun a ha u hu => (hg a ha u).trans hu) h

@[simp] theorem State.each_domainView {α : Type} (s : State) (l : List α) (g : α → State → State) (hg : ∀ a t, (g a t).domainView = t.domainView) :
    (s.each l g).domainView = s.domainView := State.each_domainView_of rfl fun a _ => hg a

@[simp] theorem State.when_domainView (s : State) (c : Bool) (g : State → State) (hg : (g s).domainView = s.domainView) :
    (s.when c g).domainView = s.domainView := by simp [State.when, hg]

/-- The sources of a repeated block count from its first. -/
theorem source_eq_four (first k : Nat) : first + k = 4 ↔ first ≤ 4 ∧ k = 4 - first := by omega

/-- A raise leaves the pending bits of other sources but 209 (R531). -/
theorem State.pends_raiseWith_ne (s : State) {src k : Nat} (hk : k ≠ src) (hwait : k ≠ 209) (reg : Option (Reg × Nat)) :
    (s.raiseWith src reg).pends k = s.pends k := by
  obtain h | h | ⟨m, h⟩ := s.raiseWith_cases src reg <;> simp [h, State.pends_raiseNotices, State.pends_raiseCore, hk, hwait]

@[simp] theorem State.raiseWith_domainView (s : State) {src : Nat} (hsrc : src ≠ 4) (reg) : (s.raiseWith src reg).domainView = s.domainView :=
  (s.goes_raiseWith src reg).domainView (mask_reg_not (by decide)) (mask_reg_not (by decide)) (s.pends_raiseWith_ne hsrc.symm (by decide) reg)

@[simp] theorem State.raise_domainView (s : State) {src : Nat} (hsrc : src ≠ 4) : (s.raise src).domainView = s.domainView :=
  s.raiseWith_domainView hsrc _

@[simp] theorem State.raiseOf_domainView (s : State) {src : Nat} (hsrc : src ≠ 4) (r i) : (s.raiseOf src r i).domainView = s.domainView :=
  s.raiseWith_domainView hsrc _

@[simp] theorem State.perfAdd_domainView (s : State) (i n) : (s.perfAdd i n).domainView = s.domainView := by simp [State.perfAdd]

@[simp] theorem State.perf_domainView (s : State) (block inst event n x) : (s.perf block inst event n x).domainView = s.domainView := by
  simp [State.perf]

@[simp] theorem State.setQueue_domainView (s : State) (q) : (s.setQueue q).domainView = s.domainView := by simp [State.setQueue]

@[simp] theorem State.pump_domainView (s : State) (m) : (s.pump m).domainView = s.domainView :=
  (s.goes_pump m).domainView (mask_reg_not (by decide)) (mask_reg_not (by decide))
    (congrArg (bitOf · 4) ((s.goes_pump m).flds .EVT_PEND_PEND 0 (mask_reg_not (by decide))))

@[simp] theorem State.linkErr_domainView (s : State) (m) {f : Fld} (hf : f.showsDomains = false) : (s.linkErr m f).domainView = s.domainView := by
  simp [State.linkErr, octetSource, hf, source_eq_four]

@[simp] theorem State.accessError_domainView (s : State) (e p write addr) : (s.accessError e p write addr).domainView = s.domainView := by
  unfold State.accessError
  split
  · next f hf => cases e <;> cases hf <;> simp
  · simp

/-! ### Fields of the register map, events, mailboxes, accesses -/

@[simp] theorem State.emit_domainView (s : State) (o) : (s.emit o).domainView = s.domainView := (rfl)
@[simp] theorem State.drew_domainView (s : State) : s.drew.domainView = s.domainView := (rfl)
@[simp] theorem State.startTimer_domainView (s : State) (t i) : (s.startTimer t i).domainView = s.domainView := by simp [State.startTimer]
@[simp] theorem State.stopTimer_domainView (s : State) (t i) : (s.stopTimer t i).domainView = s.domainView := by simp [State.stopTimer]

@[simp] theorem State.pulse_domainView (s : State) (sender receiver p) (deliver : State → State) (hdeliver : ∀ t, (deliver t).domainView = t.domainView) :
    (s.pulse sender receiver p deliver).domainView = s.domainView := by simp [State.pulse, hdeliver]

@[simp] theorem State.pulseVia_domainView (s : State) (sender receiver p) (deliver : State → State)
    (hdeliver : ∀ t, (deliver t).domainView = t.domainView) : (s.pulseVia sender receiver p deliver).domainView = s.domainView := by
  simp [State.pulseVia, hdeliver]

@[simp] theorem State.showFranker_domainView (s : State) : s.showFranker.domainView = s.domainView := by simp [State.showFranker]
@[simp] theorem State.logFirmware_domainView (s : State) (code bytes) : (s.logFirmware code bytes).domainView = s.domainView := by simp [State.logFirmware]
@[simp] theorem State.setBox_domainView (s : State) (m b) : (s.setBox m b).domainView = s.domainView := (rfl)
@[simp] theorem State.send_domainView (s : State) (m bytes) : (s.send m bytes).domainView = s.domainView := by simp [State.send]

@[simp] theorem State.notice_domainView (s : State) (m opcode handle postmark body) :
    (s.notice m opcode handle postmark body).domainView = s.domainView := by simp [State.notice]

@[simp] theorem State.setCrossing_domainView (s : State) (d c) : (s.setCrossing d c).domainView = s.domainView := by simp [State.setCrossing]
@[simp] theorem State.passInto_domainView (s : State) (d) : (s.passInto d).domainView = s.domainView := (rfl)

@[simp] theorem State.countDrops_domainView (s : State) (d drops poisons) : (s.countDrops d drops poisons).domainView = s.domainView := by
  simp [State.countDrops]

@[simp] theorem State.release_domainView (s : State) (d cause lane drops targets) : (s.release d cause lane drops targets).domainView = s.domainView := by
  simp [State.release]

/-! ### Flits and their control bytes -/

@[simp] theorem State.updLink_domainView (s : State) (m) (g : Link → Link) : (s.updLink m g).domainView = s.domainView := (rfl)
@[simp] theorem State.putFlit_domainView (s : State) (m lane seq bytes) : (s.putFlit m lane seq bytes).domainView = s.domainView := by simp [State.putFlit]

@[simp] theorem State.sendMarker_domainView (s : State) (m lanes restripe) : (s.sendMarker m lanes restripe).domainView = s.domainView := by
  simp [State.sendMarker]

@[simp] theorem State.round_domainView (s : State) (m) : (s.round m).domainView = s.domainView := by simp [State.round]
@[simp] theorem State.stripe_domainView (s : State) (m vl first seq body) : (s.stripe m vl first seq body).domainView = s.domainView := by simp [State.stripe]
@[simp] theorem State.passBulk_domainView (s : State) (m n) : (s.passBulk m n).domainView = s.domainView := by simp [State.passBulk]
@[simp] theorem State.sendFlit_domainView (s : State) (m f) : (s.sendFlit m f).domainView = s.domainView := by simp [State.sendFlit]
@[simp] theorem State.emitSlot_domainView (s : State) (m code seq data) : (s.emitSlot m code seq data).domainView = s.domainView := by simp [State.emitSlot]
@[simp] theorem State.sendExpress_domainView (s : State) (m code data) : (s.sendExpress m code data).domainView = s.domainView := by simp [State.sendExpress]
@[simp] theorem State.linkExpress_domainView (s : State) (m code data) : (s.linkExpress m code data).domainView = s.domainView := by simp [State.linkExpress]

/-! ### What lies in the stacks -/

@[simp] theorem State.setMem_domainView (s : State) (g : MemState → MemState) : (s.setMem g).domainView = s.domainView := by simp [State.setMem]
@[simp] theorem State.setSeal_domainView (s : State) (g : SealState → SealState) : (s.setSeal g).domainView = s.domainView := by simp [State.setSeal]
@[simp] theorem State.putRaw_domainView (s : State) (l v) : (s.putRaw l v).domainView = s.domainView := by simp [State.putRaw]
@[simp] theorem State.putSealed_domainView (s : State) (l v) : (s.putSealed l v).domainView = s.domainView := by simp [State.putSealed]
@[simp] theorem State.putLine_domainView (s : State) (l v) : (s.putLine l v).domainView = s.domainView := by simp [State.putLine]
@[simp] theorem State.tagNode_domainView (s : State) (level stack i) : (s.tagNode level stack i).domainView = s.domainView := by simp [State.tagNode]

/-! ### What the store holds -/

@[simp] theorem State.setStore_domainView (s : State) (g : StoreState → StoreState) : (s.setStore g).domainView = s.domainView := by simp [State.setStore]
@[simp] theorem State.updVol_domainView (s : State) (uid) (g : Volume → Volume) : (s.updVol uid g).domainView = s.domainView := by simp [State.updVol]

/-! ### What every firmware service shares -/

@[simp] theorem State.destroy_domainView (s : State) (kind i) : (s.destroy kind i).domainView = s.domainView := by simp [State.destroy]
@[simp] theorem State.abandonVolumes_domainView (s : State) (m) : (s.abandonVolumes m).domainView = s.domainView := by simp [State.abandonVolumes]

/-! ### Ring weights, series and leases, the audit log -/

@[simp] theorem State.setRing_domainView (s : State) (r x) : (s.setRing r x).domainView = s.domainView := by simp [State.setRing]
@[simp] theorem State.stage_domainView (s : State) (a log) : (s.stage a log).domainView = s.domainView := (rfl)

@[simp] theorem State.audit_domainView (s : State) (series kind ident count flags ch pm) :
    (s.audit series kind ident count flags ch pm).domainView = s.domainView := by simp [State.audit]

@[simp] theorem State.updLease_domainView (s : State) (idx) (g : Lease → Lease) : (s.updLease idx g).domainView = s.domainView := (rfl)

@[simp] theorem State.outcome_domainView (s : State) (i kind ch pm) : (s.outcome i kind ch pm).domainView = s.domainView := by
  unfold State.outcome
  split <;> simp

/-! ### The clockless fabric as an image configures it -/

@[simp] theorem State.setTree_domainView (s : State) (t x) : (s.setTree t x).domainView = s.domainView := by simp [State.setTree]
@[simp] theorem State.pulseTree_domainView (s : State) (t) : (s.pulseTree t).domainView = s.domainView := by simp [State.pulseTree]

@[simp] theorem State.treeLevel_domainView (s : State) (t b) : (s.treeLevel t b).domainView = s.domainView := by
  simp [State.treeLevel]

/-! ### What a sorter holds -/

@[simp] theorem State.setSrt_domainView (s : State) (n x) : (s.setSrt n x).domainView = s.domainView := by simp [State.setSrt]

@[simp] theorem State.srtDiscard_domainView (s : State) (n) {flag : Fld} {cnt : Option Fld} (hflag : flag.showsDomains = false)
    (hcnt : ∀ f ∈ cnt, f.showsDomains = false) : (s.srtDiscard n flag cnt).domainView = s.domainView := by
  unfold State.srtDiscard
  split <;> simp_all [source_eq_four]

@[simp] theorem State.insertCore_domainView (s : State) (n raw) : (s.insertCore n raw).1.domainView = s.domainView := by
  simp only [State.insertCore]
  (repeat' split) <;> simp

@[simp] theorem State.disarm_domainView (s : State) (a) : (s.disarm a).domainView = s.domainView := by simp [State.disarm]
@[simp] theorem State.disarmAll_domainView (s : State) (p : Armed → Bool) : (s.disarmAll p).domainView = s.domainView := by simp [State.disarmAll]

theorem agentFlag_showsDomains {status : Nat} {f : Fld} (h : agentFlag status = some f) : f.showsDomains = false := by
  unfold agentFlag at h
  (repeat' split at h) <;> cases h <;> rfl

@[simp] theorem State.agentReply_domainView (s : State) (a p r st) : (s.agentReply a p r st).domainView = s.domainView := by
  unfold State.agentReply
  split
  · next hf => simp [agentFlag_showsDomains hf, source_eq_four]
  · simp

@[simp] theorem State.setPort_domainView (s : State) (a p l) : (s.setPort a p l).domainView = s.domainView := by simp [State.setPort]

@[simp] theorem State.releaseReplies_domainView (s : State) (a p l) : (s.releaseReplies a p l).domainView = s.domainView := by
  fun_induction State.releaseReplies <;> simp_all

@[simp] theorem State.streamDone_domainView (s : State) (tag) : (s.streamDone tag).domainView = s.domainView := by simp [State.streamDone]

/-! ### What the timed pins hold and show -/

@[simp] theorem State.setPlc_domainView (s : State) (c x) : (s.setPlc c x).domainView = s.domainView := by simp [State.setPlc]

@[simp] theorem State.keepPin_domainView (s : State) (p) : (s.keepPin p).domainView = s.domainView := by
  unfold State.keepPin
  split <;> simp

@[simp] theorem State.showSink_domainView (s : State) (k) : (s.showSink k).domainView = s.domainView := by
  unfold State.showSink
  split <;> simp

@[simp] theorem State.keepLevels_domainView (s : State) : s.keepLevels.domainView = s.domainView := by simp [State.keepLevels]
@[simp] theorem State.refreshPins_domainView (s : State) : s.refreshPins.domainView = s.domainView := by simp [State.refreshPins]
@[simp] theorem State.cellUncal_domainView (s : State) (c) : (s.cellUncal c).domainView = s.domainView := by simp [State.cellUncal]
@[simp] theorem State.cellEnable_domainView (s : State) (c en) : (s.cellEnable c en).domainView = s.domainView := by simp [State.cellEnable]
@[simp] theorem State.mapSource_domainView (s : State) (k v) : (s.mapSource k v).domainView = s.domainView := by simp [State.mapSource]

/-! ### What a channel holds -/

@[simp] theorem State.setChan_domainView (s : State) (c x) : (s.setChan c x).domainView = s.domainView := (rfl)
@[simp] theorem State.updChan_domainView (s : State) (c) (g : Channel → Channel) : (s.updChan c g).domainView = s.domainView := (rfl)

@[simp] theorem State.express_domainView (s : State) (l code data) : (s.express l code data).domainView = s.domainView := by
  unfold State.express
  split <;> simp

@[simp] theorem State.dropPartial_domainView (s : State) (l) : (s.dropPartial l).domainView = s.domainView := by simp [State.dropPartial]

@[simp] theorem State.makeReport_domainView (s : State) (c reason at_ resource) : (s.makeReport c reason at_ resource).1.domainView = s.domainView := by
  simp [State.makeReport]

@[simp] theorem State.reportNotice_domainView (s : State) (c reason at_ resource) : (s.reportNotice c reason at_ resource).domainView = s.domainView := by
  simp [State.reportNotice]

@[simp] theorem State.dropEvents_domainView (s : State) (c pms) : (s.dropEvents c pms).domainView = s.domainView := (rfl)

@[simp] theorem State.recordOutcome_domainView (s : State) (c p kind) : (s.recordOutcome c p kind).domainView = s.domainView := by
  unfold State.recordOutcome
  split <;> simp

@[simp] theorem State.inhibit_domainView (s : State) (c cause) : (s.inhibit c cause).domainView = s.domainView := by simp [State.inhibit]
@[simp] theorem State.rejectMissed_domainView (s : State) (c p) : (s.rejectMissed c p).domainView = s.domainView := by simp [State.rejectMissed, source_eq_four]
@[simp] theorem State.countUnderrun_domainView (s : State) (c) : (s.countUnderrun c).domainView = s.domainView := (rfl)
@[simp] theorem State.underPolicy_domainView (s : State) (c) : (s.underPolicy c).domainView = s.domainView := by simp [State.underPolicy]
@[simp] theorem State.noteMark_domainView (s : State) (c p) : (s.noteMark c p).domainView = s.domainView := by simp [State.noteMark]

@[simp] theorem State.rejectDiscarded_domainView (s : State) (c p result) : (s.rejectDiscarded c p result).domainView = s.domainView := by
  simp [State.rejectDiscarded]

@[simp] theorem State.scheduleReject_domainView (s : State) (c p) : (s.scheduleReject c p).domainView = s.domainView := by
  simp only [State.scheduleReject]
  (repeat' split) <;> simp

@[simp] theorem State.recordKnown_domainView (s : State) (c) : (s.recordKnown c).domainView = s.domainView := by simp [State.recordKnown]

@[simp] theorem State.markProduct_domainView (s : State) (c i) : (s.markProduct c i).domainView = s.domainView := by
  unfold State.markProduct
  split <;> simp

@[simp] theorem State.underrun_domainView (s : State) (c reject pm) : (s.underrun c reject pm).domainView = s.domainView := by
  simp only [State.underrun]
  (repeat' split) <;> simp

@[simp] theorem State.insertEntry_domainView (s : State) (n raw) : (s.insertEntry n raw).1.domainView = s.domainView := by
  simp only [State.insertEntry]
  (repeat' split) <;> simp

@[simp] theorem State.streamIn_domainView (s : State) (n l) : (s.streamIn n l).domainView = s.domainView := by
  induction l generalizing s with
  | nil => simp [State.streamIn]
  | cons raw l ih => simp [State.streamIn, ih]

@[simp] theorem State.srtSpace_domainView (s : State) (n) : (s.srtSpace n).domainView = s.domainView := by simp [State.srtSpace]
@[simp] theorem State.eventDone_domainView (s : State) (c reject consumes pm) : (s.eventDone c reject consumes pm).domainView = s.domainView := (rfl)

@[simp] theorem State.inhibitAxis_domainView (s : State) (a cause) (p : Channel → Bool) : (s.inhibitAxis a cause p).domainView = s.domainView := by
  simp [State.inhibitAxis]

/-! ### Stacked memory as its homes read and write it -/

@[simp] theorem State.raiseRoot_domainView (s : State) (stack g) : (s.raiseRoot stack g).domainView = s.domainView := by simp [State.raiseRoot]

@[simp] theorem State.raiseParent_domainView (s : State) (level stack i) : (s.raiseParent level stack i).domainView = s.domainView := by
  simp [State.raiseParent]

@[simp] theorem State.writeNode_domainView (s : State) (level stack i) : (s.writeNode level stack i).domainView = s.domainView := by simp [State.writeNode]
@[simp] theorem State.dropMeta_domainView (s : State) (k) : (s.dropMeta k).domainView = s.domainView := by simp [State.dropMeta]
@[simp] theorem State.evictMeta_domainView (s : State) (stack l) : (s.evictMeta stack l).domainView = s.domainView := by simp [State.evictMeta]
@[simp] theorem State.cacheMeta_domainView (s : State) (ks) : (s.cacheMeta ks).domainView = s.domainView := by simp [State.cacheMeta]

@[simp] theorem State.sealFail_domainView (s : State) (l group uncorr) : (s.sealFail l group uncorr).domainView = s.domainView := by
  simp [State.sealFail, source_eq_four]

@[simp] theorem State.stackUncorr_domainView (s : State) (l) : (s.stackUncorr l).domainView = s.domainView := by simp [State.stackUncorr, source_eq_four]
@[simp] theorem State.stackCorr_domainView (s : State) (l) : (s.stackCorr l).domainView = s.domainView := by simp [State.stackCorr]
@[simp] theorem State.touchMeta_domainView (s : State) (l t) : (s.touchMeta l t).domainView = s.domainView := by simp [State.touchMeta]
@[simp] theorem State.memRead_domainView (s : State) (l t x) : (s.memRead l t x).1.domainView = s.domainView := by simp [State.memRead]
@[simp] theorem State.checkHeld_domainView (s : State) (j) : (s.checkHeld j).domainView = s.domainView := by simp [State.checkHeld]
@[simp] theorem State.reencrypt_domainView (s : State) (l) : (s.reencrypt l).domainView = s.domainView := by simp [State.reencrypt]
@[simp] theorem State.countWrite_domainView (s : State) (l) : (s.countWrite l).domainView = s.domainView := by simp [State.countWrite]
@[simp] theorem State.memWrite_domainView (s : State) (l v t x) : (s.memWrite l v t x).1.domainView = s.domainView := by simp [State.memWrite]

/-! ### The homes of stacked memory -/

@[simp] theorem State.fillMsgs_domainView (s : State) (k toHome) : (s.fillMsgs k toHome).domainView = s.domainView := by simp [State.fillMsgs]
@[simp] theorem State.post_domainView (s : State) (kind who l data aux) : (s.post kind who l data aux).domainView = s.domainView := by simp [State.post]
@[simp] theorem State.setCached_domainView (s : State) (a l x) : (s.setCached a l x).domainView = s.domainView := by simp [State.setCached]
@[simp] theorem State.setDir_domainView (s : State) (l d) : (s.setDir l d).domainView = s.domainView := by simp [State.setDir]
@[simp] theorem State.showHome_domainView (s : State) (k) : (s.showHome k).domainView = s.domainView := by simp [State.showHome]
@[simp] theorem State.took_domainView (s : State) (l r) : (s.took l r).domainView = s.domainView := by simp [State.took]

@[simp] theorem State.fetch_domainView (s : State) (l r a) : (s.fetch l r a).1.domainView = s.domainView := by
  unfold State.fetch
  split <;> simp

@[simp] theorem State.snoop_domainView (s : State) (kind l req discard agents) : (s.snoop kind l req discard agents).domainView = s.domainView := by
  simp [State.snoop]

@[simp] theorem State.allocate_domainView (s : State) (d) : (s.allocate d).1.domainView = s.domainView := by simp [State.allocate]

@[simp] theorem State.grant_domainView (s : State) (l r msg data aux st sharers owner) :
    (s.grant l r msg data aux st sharers owner).domainView = s.domainView := by simp [State.grant]

@[simp] theorem State.finishNoGrant_domainView (s : State) (l r msg data status) : (s.finishNoGrant l r msg data status).domainView = s.domainView := by
  simp [State.finishNoGrant]

@[simp] theorem State.endShared_domainView (s : State) (l r a sharers) : (s.endShared l r a sharers).domainView = s.domainView := by simp [State.endShared]
@[simp] theorem State.endOwn_domainView (s : State) (l r a dirty) : (s.endOwn l r a dirty).domainView = s.domainView := by simp [State.endOwn]
@[simp] theorem State.endCur_domainView (s : State) (l r a) : (s.endCur l r a).domainView = s.domainView := by simp [State.endCur]
@[simp] theorem State.endPtl_domainView (s : State) (l r a) : (s.endPtl l r a).domainView = s.domainView := by simp [State.endPtl]

@[simp] theorem State.beginReq_domainView (s : State) (l r a) : (s.beginReq l r a).domainView = s.domainView := by
  simp only [State.beginReq]
  (repeat' split) <;> simp

@[simp] theorem State.recall_domainView (s : State) (l discard) : (s.recall l discard).domainView = s.domainView := by simp [State.recall]

@[simp] theorem State.serveLine_domainView (n) (s : State) (i) : (State.serveLine n s i).domainView = s.domainView := by
  induction n generalizing s with
  | zero => rfl
  | succ n ih =>
    simp only [State.serveLine]
    (repeat' split) <;> simp [ih]

@[simp] theorem State.serveSet_domainView (s : State) (l) : (s.serveSet l).domainView = s.domainView := by simp [State.serveSet]

@[simp] theorem State.ioLine_domainView (s : State) (who l data mask) : (s.ioLine who l data mask).domainView = s.domainView := by
  simp only [State.ioLine]
  (repeat' split) <;> simp

@[simp] theorem State.doWrite_domainView (s : State) (w) : (s.doWrite w).domainView = s.domainView := by
  unfold State.doWrite
  split <;> simp

@[simp] theorem pumpFrom_domainView (l a) (s : State) : (pumpFrom l a s).1.domainView = s.domainView := by fun_induction pumpFrom <;> simp_all
@[simp] theorem State.pumpWrites_domainView (s : State) : s.pumpWrites.domainView = s.domainView := by simp [State.pumpWrites]
@[simp] theorem State.recallConverting_domainView (s : State) (l) : (s.recallConverting l).domainView = s.domainView := by simp [State.recallConverting]
@[simp] theorem State.serveNext_domainView (s : State) (l) : (s.serveNext l).domainView = s.domainView := by simp [State.serveNext]
@[simp] theorem State.serveStack_domainView (s : State) (k) : (s.serveStack k).domainView = s.domainView := by simp [State.serveStack]

end Sys2Proof.Machine
end

section
/-! PROOFS. What is shown of the domains, under rings, positions, links, agents and the Franker's settings, which go on once a domain runs; and O30. -/

namespace Sys2Proof.Machine

/-! ### Ring stops -/

@[simp] theorem State.showStops_domainView (s : State) (r) : (s.showStops r).domainView = s.domainView := by simp [State.showStops]
@[simp] theorem State.haltChannel_domainView (s : State) (c) : (s.haltChannel c).domainView = s.domainView := by simp [State.haltChannel]
@[simp] theorem State.haltAxes_domainView (s : State) (mask) : (s.haltAxes mask).domainView = s.domainView := by simp [State.haltAxes]
@[simp] theorem State.latchStop_domainView (s : State) (r x) : (s.latchStop r x).domainView = s.domainView := by simp [State.latchStop, source_eq_four]
@[simp] theorem State.raiseStop_domainView (s : State) (r cause) : (s.raiseStop r cause).domainView = s.domainView := by simp [State.raiseStop]
@[simp] theorem State.lostHere_domainView (s : State) (a) : (s.lostHere a).domainView = s.domainView := by simp [State.lostHere]
@[simp] theorem State.lostStop_domainView (s : State) (a) : (s.lostStop a).domainView = s.domainView := by simp [State.lostStop]

/-! ### Position and axes -/

@[simp] theorem State.setAx_domainView (s : State) (a x) : (s.setAx a x).domainView = s.domainView := by simp [State.setAx]
@[simp] theorem State.updAx_domainView (s : State) (a) (g : Axis → Axis) : (s.updAx a g).domainView = s.domainView := by simp [State.updAx]
@[simp] theorem State.lose_domainView (s : State) (a first) : (s.lose a first).domainView = s.domainView := by simp [State.lose, source_eq_four]
@[simp] theorem State.loseRunning_domainView (s : State) (first) : (s.loseRunning first).domainView = s.domainView := by simp [State.loseRunning]
@[simp] theorem State.timebaseReturn_domainView (s : State) : s.timebaseReturn.domainView = s.domainView := by simp [State.timebaseReturn]
@[simp] theorem State.fault_domainView (s : State) (a code) : (s.fault a code).domainView = s.domainView := by simp [State.fault, source_eq_four]
@[simp] theorem State.zOpen_domainView (s : State) (a) : (s.zOpen a).domainView = s.domainView := by simp [State.zOpen, source_eq_four]
@[simp] theorem State.restrobe_domainView (s : State) (a) : (s.restrobe a).domainView = s.domainView := by simp [State.restrobe]
@[simp] theorem State.startFaults_domainView (s : State) (a) : (s.startFaults a).domainView = s.domainView := by simp [State.startFaults]
@[simp] theorem State.axisLoad_domainView (s : State) (a) : (s.axisLoad a).domainView = s.domainView := by simp [State.axisLoad]
@[simp] theorem State.axisStart_domainView (s : State) (a) : (s.axisStart a).domainView = s.domainView := by simp [State.axisStart, source_eq_four]
@[simp] theorem State.axisStop_domainView (s : State) (a) : (s.axisStop a).domainView = s.domainView := by simp [State.axisStop]

/-! ### What a link does with its traffic -/

@[simp] theorem State.timeLink_domainView (s : State) (m v) : (s.timeLink m v).domainView = s.domainView := by simp [State.timeLink]

@[simp] theorem State.setLinkState_domainView (s : State) (m v) : (s.setLinkState m v).domainView = s.domainView := by
  simp only [State.setLinkState]
  (repeat' split) <;> simp

@[simp] theorem State.linkErrAlways_domainView (s : State) (m) {f : Fld} (hf : f.showsDomains = false) :
    (s.linkErrAlways m f).domainView = s.domainView := by simp [State.linkErrAlways, octetSource, hf, source_eq_four]

@[simp] theorem State.underruns_domainView (s : State) (lines) : (s.underruns lines).domainView = s.domainView := by
  refine s.each_domainView _ _ fun e t => ?_
  split <;> simp

@[simp] theorem State.unsent_domainView (s : State) (lines) : (s.unsent lines).domainView = s.domainView := by
  refine s.each_domainView _ _ fun e t => ?_
  split <;> simp

@[simp] theorem State.skipLine_domainView (s : State) (m l pm row) : (s.skipLine m l pm row).domainView = s.domainView := by simp [State.skipLine]

@[simp] theorem State.startLine_domainView (s : State) (m l f) : (s.startLine m l f).domainView = s.domainView := by
  simp only [State.startLine]
  (repeat' split) <;> simp

@[simp] theorem State.pumpLinkN_domainView (n) (s : State) (m) : (State.pumpLinkN n s m).domainView = s.domainView := by
  fun_induction State.pumpLinkN <;> simp_all

@[simp] theorem State.pumpLink_domainView (s : State) (m) : (s.pumpLink m).domainView = s.domainView := by simp [State.pumpLink]
@[simp] theorem State.laneUnit_domainView (s : State) (l vl data) : (s.laneUnit l vl data).domainView = s.domainView := by simp [State.laneUnit]
@[simp] theorem State.lostLines_domainView (s : State) (l lost) : (s.lostLines l lost).domainView = s.domainView := by simp [State.lostLines]
@[simp] theorem State.loseTraffic_domainView (s : State) (m) : (s.loseTraffic m).domainView = s.domainView := by simp [State.loseTraffic]

@[simp] theorem State.clearLink_domainView (s : State) (m) : (s.clearLink m).domainView = s.domainView := by
  refine State.each_domainView_of rfl fun f hf t => t.clr_domainView ?_ m
  revert f
  decide

@[simp] theorem State.goDormant_domainView (s : State) (m reason) : (s.goDormant m reason).domainView = s.domainView := by
  simp [State.goDormant, octetSource, source_eq_four]

@[simp] theorem State.loseQueues_domainView (s : State) (m lost) (p : ℕ → Bool) : (s.loseQueues m lost p).domainView = s.domainView := by
  simp [State.loseQueues]

@[simp] theorem State.dormant_domainView (s : State) (m reason lost) : (s.dormant m reason lost).domainView = s.domainView := by simp [State.dormant]
@[simp] theorem State.sendTraining_domainView (s : State) (m) : (s.sendTraining m).domainView = s.domainView := by simp [State.sendTraining]
@[simp] theorem State.detect_domainView (s : State) (m) : (s.detect m).domainView = s.domainView := by simp [State.detect]
@[simp] theorem State.linkRefuse_domainView (s : State) (m) : (s.linkRefuse m).domainView = s.domainView := by simp [State.linkRefuse]
@[simp] theorem State.sendHeld_domainView (s : State) (m) : (s.sendHeld m).domainView = s.domainView := by simp [State.sendHeld]

/-! ### The caching agents -/

@[simp] theorem State.evictLine_domainView (s : State) (a l) : (s.evictLine a l).domainView = s.domainView := by
  simp only [State.evictLine]
  (repeat' split) <;> simp

@[simp] theorem State.tryReq_domainView (s : State) (a r) : (s.tryReq a r).1.domainView = s.domainView := by
  unfold State.tryReq
  split <;> simp

@[simp] theorem State.tryStream_domainView (s : State) (a p r) : (s.tryStream a p r).domainView = s.domainView := by simp [State.tryStream]
@[simp] theorem State.setReq_domainView (s : State) (a p i r) : (s.setReq a p i r).domainView = s.domainView := by simp [State.setReq]
@[simp] theorem State.queueStream_domainView (s : State) (a p i r) : (s.queueStream a p i r).domainView = s.domainView := by simp [State.queueStream]

@[simp] theorem State.serveReq_domainView (s : State) (a p i) : (s.serveReq a p i).domainView = s.domainView := by
  simp only [State.serveReq]
  (repeat' split) <;> simp

@[simp] theorem State.servePort_domainView (s : State) (a p) : (s.servePort a p).domainView = s.domainView := by simp [State.servePort]
@[simp] theorem State.serveAgent_domainView (s : State) (a) : (s.serveAgent a).domainView = s.domainView := by simp [State.serveAgent]

/-! ### The Postroom -/

@[simp] theorem State.abandonLocks_domainView (s : State) (owner) : (s.abandonLocks owner).domainView = s.domainView := by simp [State.abandonLocks]

@[simp] theorem State.resetBox_domainView (s : State) (m) : (s.resetBox m).domainView = s.domainView := by
  simp [State.resetBox, State.each]

@[simp] theorem State.resetOwner_domainView (s : State) (owner) : (s.resetOwner owner).domainView = s.domainView := by simp [State.resetOwner]

/-! ### The commands of the links -/

@[simp] theorem State.markMembers_domainView (s : State) (m v) : (s.markMembers m v).domainView = s.domainView := by simp [State.markMembers]
@[simp] theorem State.linkOff_domainView (s : State) (m lost) : (s.linkOff m lost).domainView = s.domainView := by simp [State.linkOff]
@[simp] theorem State.lnkCtl_domainView (s : State) (m v lost) : (s.lnkCtl m v lost).domainView = s.domainView := by simp [State.lnkCtl]

/-! ### The rings -/

@[simp] theorem State.showReach_domainView (s : State) (r mask) : (s.showReach r mask).domainView = s.domainView := by simp [State.showReach]
@[simp] theorem State.auditRing_domainView (s : State) (r kind) : (s.auditRing r kind).domainView = s.domainView := by simp [State.auditRing]
@[simp] theorem State.setRingState_domainView (s : State) (r v) : (s.setRingState r v).domainView = s.domainView := by simp [State.setRingState, source_eq_four]
@[simp] theorem State.ringMismatch_domainView (s : State) (r) : (s.ringMismatch r).domainView = s.domainView := by simp [State.ringMismatch, source_eq_four]
@[simp] theorem State.leaveRing_domainView (s : State) (r) : (s.leaveRing r).domainView = s.domainView := by simp [State.leaveRing]
@[simp] theorem State.ringPorts_domainView (s : State) (r) : (s.ringPorts r).domainView = s.domainView := by simp [State.ringPorts]
@[simp] theorem State.ringCtl_domainView (s : State) (r v) : (s.ringCtl r v).domainView = s.domainView := by simp [State.ringCtl]

/-! ### What the Franker prints and keeps -/

@[simp] theorem State.setFranker_domainView (s : State) (g : FrankerState → FrankerState) : (s.setFranker g).domainView = s.domainView := by
  simp [State.setFranker]

@[simp] theorem State.frankerAxisStart_domainView (s : State) : s.frankerAxisStart.domainView = s.domainView := by simp [State.frankerAxisStart]

/-- No domain answers the registers that show the domains (R82): their addresses lie in the windows of the clockless remainder. -/
theorem ne_zero_of_heldDomain {h : HeldSetting} {d : Nat} (hd : heldDomain h = some d) (hf : h.1.showsDomains = true) : h.2.1 ≠ 0 := by
  intro hi
  have hnone : h.1.spec.reg.domain 0 = none := by
    simp only [Fld.showsDomains, Bool.or_eq_true, beq_iff_eq] at hf
    obtain (hf | hf) | hf := hf <;> rw [hf] <;> decide
  rw [heldDomain, hi, hnone] at hd
  cases hd

@[simp] theorem State.holdNow_domainView (s : State) {h : HeldSetting} {d : Nat} (hd : heldDomain h = some d) :
    (s.holdNow h).domainView = s.domainView := by
  unfold State.holdNow
  split
  · exact s.accessError_domainView ..
  · split
    case h_7 => exact s.put_domainView_of_ne (ne_zero_of_heldDomain hd) _
    all_goals simp

@[simp] theorem State.hold_domainView (s : State) {h : HeldSetting} {d : Nat} (hd : heldDomain h = some d) :
    (s.hold h).domainView = s.domainView := by simp [State.hold, hd]

/-! ### What goes on once a domain runs (R87, R93, R97) -/

theorem State.serveAccesses_of_none {s : State} (h : s.waiting = []) : s.serveAccesses = s := by
  obtain ⟨⟩ := s
  subst h
  rfl

theorem State.servePulses_of_none {s : State} (h : ∀ e ∈ s.pulses, e.2.kept = []) (d : Nat) : s.servePulses d = s := by
  have hnil : (s.pulses.filter fun e => e.1 % 32 == d && !e.2.kept.isEmpty) = [] := by simp +contextual [h]
  rw [State.servePulses, hnil, State.each_nil]

theorem State.serveSettings_of_none {s : State} (h : s.config.settings = []) (d : Nat) : s.serveSettings d = s := by
  simp only [State.serveSettings, State.setConfig, h, List.filter_nil, State.each_nil]
  rw [← h]

theorem State.serveStalled_of_none {s : State} (h : s.svc.stalled = []) (d : Nat) : s.serveStalled d = s := by
  simp only [State.serveStalled, h, List.filter_nil, State.each_nil]
  rw [← h]

/-- Where nothing waits for a domain, what goes on leaves what is shown: mailboxes, agents, links and stacks go on, and the Franker's held settings are made. -/
theorem State.serveWaiting_domainView {s : State} (h : s.NothingWaits) (d : Nat) : (s.serveWaiting d).domainView = s.domainView := by
  obtain ⟨hwaiting, hpulses, hstalled, hsettings, -⟩ := h
  unfold State.serveWaiting
  rw [State.serveAccesses_of_none hwaiting, State.servePulses_of_none hpulses, State.serveSettings_of_none hsettings, State.serveStalled_of_none hstalled]
  split
  · rfl
  · extract_lets live boxes lanes held
    have hboxes : boxes.domainView = s.domainView := by simp [boxes, live]
    have hlanes : lanes.domainView = boxes.domainView := by simp [lanes]
    have hheld : held.domainView = lanes.domainView := State.each_domainView_of rfl fun h hmem u => by
      have hd : heldDomain h = some d := by simpa using (List.mem_filter.mp hmem).2
      simp [hd]
    rw [State.when_domainView _ _ _ (by simp), hheld, hlanes, hboxes]

/-! ### Bits of RUN and STOP as a domain stops and runs (R84) -/

/-- A bit of a field that is set or cleared leaves the others. -/
theorem State.bitOf_putBit (s : State) (f : Fld) (i : Nat) {b : Nat} (hb : b < f.spec.width) (v : Bool) (k : Nat) :
    bitOf ((s.putBit f i b v).fld f i) k = if k = b then v else bitOf (s.fld f i) k := by
  have hout : f.spec.width ≤ k → (s.fld f i).testBit k = false := fun hk =>
    Nat.testBit_lt_two_pow ((s.fld_lt f i).trans_le (Nat.pow_le_pow_right (by decide) hk))
  simp only [State.putBit, State.fld_put_same, bitOf, Nat.testBit_mod_two_pow, orBit, clearBit]
  by_cases hk : k = b
  · subst hk
    cases v <;> cases hs : (s.fld f i).testBit k <;> simp [hb, hs]
  · have hbk : ¬ b = k := fun h => hk h.symm
    by_cases hw : k < f.spec.width
    · cases v <;> cases hs : (s.fld f i).testBit b <;> simp [hk, hbk, hw]
    · simp [hk, hw, hout (Nat.le_of_not_lt hw)]

theorem State.bitOf_orFld (s : State) (f : Fld) (i : Nat) {b : Nat} (hb : b < f.spec.width) (k : Nat) :
    bitOf ((s.orFld f i (2 ^ b)).fld f i) k = (bitOf (s.fld f i) k || decide (k = b)) := by
  rw [show s.orFld f i (2 ^ b) = s.putBit f i b true from rfl, s.bitOf_putBit f i hb]
  by_cases hk : k = b <;> simp [hk]

/-- What is shown of the domains decides RUN, STOP and source 4. -/
theorem State.runs_of_domainView {s t : State} (h : t.domainView = s.domainView) (e : Nat) : t.runs e = s.runs e :=
  congrArg (fun v : Nat × Nat × Bool => bitOf v.1 e) h

theorem State.stop_of_domainView {s t : State} (h : t.domainView = s.domainView) : t.fld .DEV_ISL_STOP_STOP 0 = s.fld .DEV_ISL_STOP_STOP 0 :=
  congrArg (fun v : Nat × Nat × Bool => v.2.1) h

theorem State.pends_of_domainView {s t : State} (h : t.domainView = s.domainView) : t.pends 4 = s.pends 4 := congrArg (fun v : Nat × Nat × Bool => v.2.2) h

/-- A raise leaves RUN and STOP. -/
theorem State.runs_raise (s : State) (src e : Nat) : (s.raise src).runs e = s.runs e :=
  congrArg (bitOf · e) ((s.goes_raise src).flds .DEV_ISL_RUN_RUN 0 (mask_reg_not (by decide)))

theorem State.stop_raise (s : State) (src : Nat) : (s.raise src).fld .DEV_ISL_STOP_STOP 0 = s.fld .DEV_ISL_STOP_STOP 0 :=
  (s.goes_raise src).flds .DEV_ISL_STOP_STOP 0 (mask_reg_not (by decide))

/-- A running domain but D24 stops by its bits of RUN and STOP and a raise of source 4; the rest leaves what is shown. -/
theorem State.stopDomain_eq_raise {s : State} {d : Nat} (hd : d ≠ 24) (hruns : s.runs d = true) :
    ∃ t u : State, s.stopDomain d = u.raise 4 ∧ t.domainView = (s.putBit .DEV_ISL_RUN_RUN 0 d false).domainView ∧
      u.domainView = (t.orFld .DEV_ISL_STOP_STOP 0 (2 ^ d)).domainView := by
  unfold State.stopDomain
  rw [if_neg (by simp [hruns])]
  extract_lets halted selfRefresh
  rw [if_neg hd]
  exact ⟨selfRefresh, _, rfl, by simp [selfRefresh, halted], by simp⟩

/-- A stopped domain but D24 runs by its bit of RUN and a raise of source 4; the rest leaves what is shown. -/
theorem State.startDomain_eq_raise {s : State} {d : Nat} (hd : d ≠ 24) (hstopped : s.runs d = false) :
    ∃ t : State, s.startDomain d = t.raise 4 ∧ t.domainView = (s.putBit .DEV_ISL_RUN_RUN 0 d true).domainView := by
  unfold State.startDomain
  rw [if_neg (by simp [hstopped]), if_neg hd]
  exact ⟨_, rfl, by simp⟩

/-- Settles O30: what follows the bits of RUN and STOP and the raise leaves what is shown of the domains. -/
theorem domainStopsAndRuns : Obligations.DomainStopsAndRuns := by
  intro d s hd
  have hwidth : d.val < Fld.DEV_ISL_RUN_RUN.spec.width := d.isLt
  have hput (v : Bool) (e : Fin 25) : (s.putBit .DEV_ISL_RUN_RUN 0 d v).runs e = if e = d then v else s.runs e := by
    rw [State.runs, s.bitOf_putBit _ 0 hwidth]
    simp only [Fin.val_inj]
    rfl
  refine ⟨fun hruns => ?_, fun hstopped hnothing => ?_⟩
  · obtain ⟨t, u, hu, ht, hstop⟩ := State.stopDomain_eq_raise hd hruns
    have hkept : t.fld .DEV_ISL_STOP_STOP 0 = s.fld .DEV_ISL_STOP_STOP 0 :=
      (State.stop_of_domainView ht).trans (s.fld_put_ne (f := .DEV_ISL_RUN_RUN) 0 0 _ (by decide))
    refine ⟨s.stopDomain d, rfl, ?_, fun e => ?_, fun e => ?_⟩ <;> rw [hu]
    · exact u.pends_raiseWith 4 _
    · rw [State.runs_raise, State.runs_of_domainView hstop]
      have hrun : (t.orFld .DEV_ISL_STOP_STOP 0 (2 ^ d.val)).runs e = t.runs e := congrArg (bitOf · e) (t.fld_put_ne 0 0 _ (by decide))
      rw [hrun, State.runs_of_domainView ht, hput]
      by_cases he : e = d <;> simp [he]
    · rw [State.stop_raise, State.stop_of_domainView hstop, t.bitOf_orFld _ 0 d.isLt, hkept]
      simp only [Fin.val_inj]
  · obtain ⟨t, ht, hview⟩ := State.startDomain_eq_raise hd hstopped
    have hserved := State.serveWaiting_domainView hnothing d
    refine ⟨(s.startDomain d).serveWaiting d, congrArg Host.Outcome.next (if_neg (by simp [hstopped])), ?_, fun e => ?_, ?_⟩
    · rw [State.pends_of_domainView hserved, ht]
      exact t.pends_raiseWith 4 _
    · rw [State.runs_of_domainView hserved, ht, State.runs_raise, State.runs_of_domainView hview, hput]
      by_cases he : e = d <;> simp [he]
    · rw [State.stop_of_domainView hserved, ht, State.stop_raise, State.stop_of_domainView hview]
      exact s.fld_put_ne 0 0 _ (by decide)

end Sys2Proof.Machine
end

section
/-! PROOFS. Accesses that wait, and O40; commands that report the end of a time, and O42. -/

namespace Sys2Proof.Machine

/-! ### Accesses that wait (R14, R17, R92, R97) -/

theorem State.goes_wait (s : State) (p : Port) (a : Nat) (write : Bool) (v : Nat) (form : Bool) (d : Option Nat) :
    Goes (mask [] [.crossings, .waiting]) s (s.wait p a write v form d) := by
  cases d with
  | none => exact (Goes.refl _ s).set_waiting _ (by simp)
  | some d => exact ((Goes.refl _ s).set_waiting _ (by simp)).when _ _ fun t => (t.goes_setCrossing d _).widen (by simp) (by simp)

/-- An access that waits is the last of those that wait. -/
theorem State.waiting_wait (s : State) (p : Port) (a : Nat) (write : Bool) (v : Nat) (form : Bool) (d : Option Nat) :
    ∃ held queued, (s.wait p a write v form d).waiting = s.waiting ++ [⟨p, a, write, v, form, held, queued⟩] := by
  cases d with
  | none => exact ⟨true, false, rfl⟩
  | some d =>
    refine ⟨s.isHeld d || s.runs d, !(s.isHeld d || s.runs d) && !(s.crossing d).into.full, ?_⟩
    simp only [State.wait, State.when]
    split <;> rfl

/-- An aligned 32-bit access that reaches the device, by a port that may make it, waits where its address's domain or an earlier access of the port says so. -/
theorem State.busAccess_waits {s : State} {p : Port} {a : Nat} {write : Bool} (hreach : s.reaches p = true) (hwait : s.mustWait p (addrDomain a) = true)
    (hmay : s.mayAt p write a = true) (v : Nat) : s.busAccess p a write v false = s.wait p a write v false (addrDomain a) := by
  simp [State.busAccess, State.accessDomain, hreach, hmay, hwait]

/-- Settles O40: the access is queued, and beside the queue only the crossing of its domain takes an entry. That an access waits behind an earlier one of its
port while its own domain runs, and that an address without a register belongs to its window's domain, are the model's choices (log 89). -/
theorem accessesToAStoppedDomainWait : Obligations.AccessesToAStoppedDomainWait := by
  intro p addr value s hreach halign hwait
  have hform : (decide ((4 : Fin 9).val ≠ 4) || decide (addr.toNat % 4 ≠ 0)) = false := by simp [halign]
  have hqueued {write : Bool} (hmay : s.mayAt p write (barView p addr.toNat) = true) (v : Nat) :
      ∃ t held queued, s.busAccess p (barView p addr.toNat) write v (decide ((4 : Fin 9).val ≠ 4) || decide (addr.toNat % 4 ≠ 0)) = t ∧
        t.waiting = s.waiting ++ [⟨p, barView p addr.toNat, write, v, false, held, queued⟩] ∧ Within [] [.crossings, .waiting] s t := by
    obtain ⟨held, queued, hlast⟩ := s.waiting_wait p (barView p addr.toNat) write v false (addrDomain (barView p addr.toNat))
    rw [hform, State.busAccess_waits hreach hwait hmay]
    exact ⟨_, held, queued, rfl, hlast, (s.goes_wait ..).within⟩
  refine ⟨fun hmay => ?_, fun hmay => ?_⟩
  · obtain ⟨t, held, queued, hexec, hlast⟩ := hqueued hmay value.toNat
    exact ⟨t, held, queued, congrArg Host.Outcome.next hexec, hlast⟩
  · obtain ⟨t, held, queued, hexec, hlast⟩ := hqueued hmay 0
    exact ⟨t, held, queued, congrArg Host.Outcome.next hexec, hlast⟩

/-! ### Times of freezes, island resets, banks, inputs and clocks (R90, R493) -/

theorem execFreezeTimeout_early {s : State} {x : Published} {r : Fin 26} (h : decide ((s.sampler x r).since + 1000 ≤ s.clock) = false) :
    execFreezeTimeout x r s = .next s := by
  simp [execFreezeTimeout, of_decide_eq_false h]

theorem execIslandResetRelease_early {s : State} {d : Fin 25} (h : s.ran .island d 1000 = false) : execIslandResetRelease d s = .next s := by
  simp [execIslandResetRelease, h]

theorem execBankRangeMismatch_early {s : State} {b : Fin 12} (h : s.ran .range b 50000000 = false) : execBankRangeMismatch b s = .next s := by
  simp [execBankRangeMismatch, h]

theorem execBankSupplyLossHold_early {s : State} {b : Fin 12} (h : s.ran .outside b 100000 = false) : execBankSupplyLossHold b s = .next s := by
  simp [execBankSupplyLossHold, h]

theorem execAinStale_early {s : State} {i : Fin 16} (h : s.lapsed .result i 500000 = false) : execAinStale i s = .next s := by
  simp [execAinStale, h]

theorem execUserClockLoss_early {s : State} {k : Fin 4} (h : s.ran .uclk k 4000 = false) : execUserClockLoss k s = .next s := by
  simp [execUserClockLoss, h]

theorem execRpPerstRelease_early {s : State} {j : Fin 8} (h : s.lapsed .present j 100000000 = false) : execRpPerstRelease j s = .next s := by
  simp [execRpPerstRelease, h]

/-! ### Times of loads and of the firmware -/

theorem execFirmwareWatchdog_early {s : State} (h : s.ran .cores 0 100000000 = false) : execFirmwareWatchdog s = .next s := by
  unfold execFirmwareWatchdog
  split <;> simp [h]

theorem execDoneWaitTimeout_early {s : State} (h : s.ran .release 0 1000000000 = false) : execDoneWaitTimeout s = .next s := by
  simp [execDoneWaitTimeout, h]

theorem execBroadcastWaitTimeout_early {s : State} (h : s.ran .bcastWait 0 30000000000 = false) : execBroadcastWaitTimeout s = .next s := by
  simp [execBroadcastWaitTimeout, h]

theorem execBroadcastGapTimeout_early {s : State} (h : s.ran .bcastFlit 0 10000000 = false) : execBroadcastGapTimeout s = .next s := by
  unfold execBroadcastGapTimeout
  split <;> simp [h]

theorem execBroadcastPollTimeout_early {s : State} (h : s.ran .poll 0 10000000 = false) : execBroadcastPollTimeout s = .next s := by
  unfold execBroadcastPollTimeout
  split <;> simp [h]

/-! ### Times of channels and ring members (R226) -/

theorem execUnderrunReport_early {s : State} {c : Fin 1024} (h : s.lapsed .report c 100000000 = false) : execUnderrunReport c s = .next s := by
  simp [execUnderrunReport, h]

theorem execLinkDownTimeout_early {s : State} {l : Fin 140} (h : s.ran .inactive l 10000000 = false) : execLinkDownTimeout l s = .next s := by
  unfold execLinkDownTimeout
  split <;> simp [h]

theorem execStitchLinkTimeout_early {s : State} {l : Fin 144} (h : s.ran .linkDown l 10000000 = false) : execStitchLinkTimeout l s = .next s := by
  simp [execStitchLinkTimeout, h]

theorem execMemberUnreachable_early {s : State} {r : Fin 2} {m : Fin 32} (h : s.lapsed .member (32 * r + m) 3000000 = false) :
    execMemberUnreachable r m s = .next s := by
  simp [execMemberUnreachable, h]

theorem execRingConfigTimeout_early {s : State} {r : Fin 2} (h : s.ran .table r 100000000 = false) : execRingConfigTimeout r s = .next s := by
  cases hletter : (s.ring r).letter <;> simp [execRingConfigTimeout, hletter, h]

/-! ### Times of a link (R283, R291) -/

theorem execNakRepeat_early {s : State} {m : Fin 144} (h : s.ran .nak m 10000 = false) : execNakRepeat m s = .next s := by
  unfold execNakRepeat
  split <;> simp [h]

theorem execLinkStateTimeout_early {s : State} {m : Fin 144} {lost : List Lost} (h : s.ran .linkState m (stateBound (s.fld .LNK_STAT_STATE m)) = false) :
    execLinkStateTimeout m lost s = .next s := by
  simp [execLinkStateTimeout, h]

theorem execBackoffExpired_early {s : State} {m : Fin 144} (h : s.ran .linkState m (s.backoff m) = false) : execBackoffExpired m s = .next s := by
  simp [execBackoffExpired, h]

theorem execActiveHeld_early {s : State} {m : Fin 144} (h : s.ran .linkState m 1000000000 = false) : execActiveHeld m s = .next s := by
  simp [execActiveHeld, h]

theorem execTimingTimeout_early {s : State} {m : Fin 144} (h : s.ran .timing m 1000000 = false) : execTimingTimeout m s = .next s := by
  simp [execTimingTimeout, h]

theorem execWidthReqResend_early {s : State} {m : Fin 144} (h : s.ran .width m 1000000 = false) : execWidthReqResend m s = .next s := by
  unfold execWidthReqResend
  split <;> simp [h]

theorem execLaneRejoin_early {s : State} {l : Fin 144} (h : s.ran .lock l 100000000 = false) : execLaneRejoin l s = .next s := by
  unfold execLaneRejoin
  split <;> simp [h]

theorem execLinkSilenceTimeout_early {s : State} {m : Fin 144} (h : s.ran .frame m 10000 = false) : execLinkSilenceTimeout m s = .next s := by
  simp [execLinkSilenceTimeout, h]

/-- Settles O42: each of the 25 commands looks whether its time has passed before it does anything; what counts the time is the model's clock (log 99). -/
theorem nothingHappensBeforeItsTime : Obligations.NothingHappensBeforeItsTime := by
  intro c s h
  unfold State.timeUp at h
  split at h
  · exact execFreezeTimeout_early h
  · exact execIslandResetRelease_early h
  · exact execFirmwareWatchdog_early h
  · exact execDoneWaitTimeout_early h
  · exact execBroadcastWaitTimeout_early h
  · exact execBroadcastGapTimeout_early h
  · exact execBroadcastPollTimeout_early h
  · exact execBankRangeMismatch_early h
  · exact execBankSupplyLossHold_early h
  · exact execAinStale_early h
  · exact execUnderrunReport_early h
  · exact execLinkDownTimeout_early h
  · exact execStitchLinkTimeout_early h
  · exact execMemberUnreachable_early h
  · exact execRingConfigTimeout_early h
  · exact execNakRepeat_early h
  · exact execLinkStateTimeout_early h
  · exact execBackoffExpired_early h
  · exact execActiveHeld_early h
  · exact execTimingTimeout_early h
  · exact execWidthReqResend_early h
  · exact execLaneRejoin_early h
  · exact execLinkSilenceTimeout_early h
  · exact execUserClockLoss_early h
  · exact execRpPerstRelease_early h
  · cases h

end Sys2Proof.Machine
end

section
/-! PROOFS. Frames by the lists of what they may change; snapshots, O35. -/

namespace Sys2Proof.Machine

/-! ### What lies within the lists of a frame -/

/-- The registers `qs` and the parts `os` lie within the lists `rs` and `ps`. -/
abbrev Inside (qs : List Reg) (os : List Part) (rs : List Reg) (ps : List Part) : Prop := qs ⊆ rs ∧ os ⊆ ps

/-- A frame of shorter lists is one of longer lists. -/
theorem Goes.lift {rs qs : List Reg} {ps os : List Part} {s t : State} (h : Goes (mask qs os) s t) (hin : Inside qs os rs ps) :
    Goes (mask rs ps) s t :=
  h.widen hin.1 hin.2

/-- One operation more, whose lists lie within those of the frame. -/
theorem Goes.step {rs qs : List Reg} {ps os : List Part} {s t u : State} (h : Goes (mask rs ps) s t) (k : Goes (mask qs os) t u)
    (hin : Inside qs os rs ps) : Goes (mask rs ps) s u :=
  h.trans (k.lift hin)

/-- One field more of a register that the frame lists. -/
theorem Goes.write {rs : List Reg} {ps : List Part} {s t : State} (h : Goes (mask rs ps) s t) (f : Fld) (i v : Nat) (hf : f.spec.reg ∈ rs) :
    Goes (mask rs ps) s (t.put f i v) :=
  h.put f i v (mask_reg hf)

/-- Such a field where a condition holds. -/
theorem Goes.writeIf {rs : List Reg} {ps : List Part} {s t : State} (h : Goes (mask rs ps) s t) (c : Bool) (f : Fld) (i v : Nat)
    (hf : f.spec.reg ∈ rs) : Goes (mask rs ps) s (t.when c (·.put f i v)) :=
  h.when c _ fun u => (Goes.refl _ u).write f i v hf

/-- A raise in a frame that lists what a raise may change. -/
theorem Goes.raised {rs : List Reg} {ps : List Part} {s t : State} (h : Goes (mask rs ps) s t) (src : Nat)
    (hin : Inside (signals []) (signalled []) rs ps) : Goes (mask rs ps) s (t.raise src) :=
  h.step (t.goes_raise src) hin

/-! ### Snapshots (R126) -/

/-- The position and the epoch of axis `a` into its snapshot. -/
def State.snapAxis (s : State) (a : Nat) : State :=
  (s.put .POS_AX_SNAP_VALUE a (s.axisPm a)).put .POS_AX_SNAP_EPOCH_VALUE a (s.fld .POS_AX_EPOCH_VALUE a)

theorem State.snapshot_eq (s : State) :
    s.snapshot = (s.each (List.range 8) fun a t => t.snapAxis a).put .POS_SNAP_TB_TB 0 (s.fld .PERF_TB_TB 0) := rfl

theorem State.goes_snapAxis (s : State) (a : Nat) : Goes (mask [.POS_AX_SNAP, .POS_AX_SNAP_EPOCH, .POS_SNAP_TB] []) s (s.snapAxis a) :=
  ((Goes.refl _ s).write _ a _ (by decide)).write _ a _ (by decide)

theorem State.goes_snapshot (s : State) : Goes (mask [.POS_AX_SNAP, .POS_AX_SNAP_EPOCH, .POS_SNAP_TB] []) s s.snapshot :=
  ((Goes.refl _ s).each _ _ fun a t => t.goes_snapAxis a).write _ 0 _ (by decide)

/-- Axis `a` has its position and epoch of `s` in the snapshot of `t`. -/
def SnapHolds (s t : State) (a : Nat) : Prop :=
  t.fld .POS_AX_SNAP_VALUE a = s.fld .POS_AX_POS_VALUE a ∧ t.fld .POS_AX_SNAP_EPOCH_VALUE a = s.fld .POS_AX_EPOCH_VALUE a

theorem State.snapHolds_snapAxis (s : State) {a b : Nat} (h : a = b ∨ SnapHolds s s a) : SnapHolds s (s.snapAxis b) a := by
  have hpos : s.axisPm b % 2 ^ 64 = s.axisPm b := Nat.mod_eq_of_lt (s.fld_lt .POS_AX_POS_VALUE b)
  have hepoch : s.fld .POS_AX_EPOCH_VALUE b % 2 ^ 32 = s.fld .POS_AX_EPOCH_VALUE b := Nat.mod_eq_of_lt (s.fld_lt .POS_AX_EPOCH_VALUE b)
  by_cases hab : a = b
  · subst hab
    exact ⟨by rw [State.snapAxis, State.fld_put_ne _ _ _ _ (by decide), State.fld_put_same]; exact hpos,
      by rw [State.snapAxis, State.fld_put_same]; exact hepoch⟩
  · obtain ⟨hsnap, hsnapEpoch⟩ := h.resolve_left hab
    have hkeep (f : Fld) : (s.snapAxis b).fld f a = s.fld f a := by
      rw [State.snapAxis, State.fld_put_ne_idx _ _ _ _ (Ne.symm hab), State.fld_put_ne_idx _ _ _ _ (Ne.symm hab)]
    exact ⟨(hkeep _).trans hsnap, (hkeep _).trans hsnapEpoch⟩

/-- A snapshot of the axes in a list takes each of them as it stood before, and leaves the positions and epochs. -/
theorem State.snapHolds_each (s : State) (l : List Nat) {a : Nat} (h : a ∈ l ∨ SnapHolds s s a) :
    SnapHolds s (s.each l fun b t => t.snapAxis b) a := by
  induction l generalizing s with
  | nil => exact h.resolve_left List.not_mem_nil
  | cons b l ih =>
    have hpos : (s.snapAxis b).fld .POS_AX_POS_VALUE a = s.fld .POS_AX_POS_VALUE a := (s.goes_snapAxis b).flds _ a (by decide)
    have hepoch : (s.snapAxis b).fld .POS_AX_EPOCH_VALUE a = s.fld .POS_AX_EPOCH_VALUE a := (s.goes_snapAxis b).flds _ a (by decide)
    have hb : SnapHolds s (s.snapAxis b) a ↔ SnapHolds (s.snapAxis b) (s.snapAxis b) a := by simp only [SnapHolds, hpos, hepoch]
    have hl := ih (s.snapAxis b) <| by
      obtain hmem | hs := h
      · exact (List.mem_cons.mp hmem).symm.imp id fun hab => hb.mp (s.snapHolds_snapAxis (.inl hab))
      · exact .inr (hb.mp (s.snapHolds_snapAxis (.inr hs)))
    simpa only [State.each_cons, SnapHolds, hpos, hepoch] using hl

/-- Settles O35: the write passes its crossing, and the snapshot then goes through the eight axes. -/
theorem snapshotTakesEveryAxis : Obligations.SnapshotTakesEveryAxis := by
  intro p s htakes
  let u := s.passAccess p true (Reg.POS_SNAP_CMD.domain 0)
  have hexec : exec (.posSnap p) s = .next u.snapshot := congrArg Host.Outcome.next (State.access_of_takes htakes 1 _)
  have hpass (f : Fld) (i : Nat) : u.fld f i = s.fld f i := s.fld_passAccess p true _ f i
  refine ⟨_, hexec, fun a => ?_, ?_, ?_⟩
  · have hsnap := u.snapHolds_each (List.range 8) (a := a) (.inl (by simp))
    simp only [SnapHolds, hpass] at hsnap
    rw [u.snapshot_eq, State.fld_put_ne _ _ _ _ (by decide), State.fld_put_ne _ _ _ _ (by decide)]
    exact hsnap
  · rw [u.snapshot_eq, State.fld_put_same, hpass]
    exact Nat.mod_eq_of_lt (s.fld_lt .PERF_TB_TB 0)
  · exact (((s.goes_passAccess p true _).lift (by decide)).step u.goes_snapshot (by decide)).within

end Sys2Proof.Machine
end

section
/-! PROOFS. Strobe pulses and crossings, O26. -/

namespace Sys2Proof.Machine

/-! ### Strobe pulses that leave the device (R117, R118) -/

/-- How many pulses of strobe `k` have left. -/
def State.strobes (s : State) (k : Nat) : Nat := s.out.count (.strobe k)

theorem State.strobes_of_out {s t : State} (h : t.out = s.out) (k : Nat) : t.strobes k = s.strobes k := by rw [State.strobes, h, State.strobes]

/-- From `s` to `t` no strobe pulse leaves. -/
structure Quiet (s t : State) : Prop where
  strobes : ∀ k, t.strobes k = s.strobes k

namespace Quiet

variable {s t u : State}

theorem of_out (h : t.out = s.out) : Quiet s t := ⟨State.strobes_of_out h⟩

theorem trans (h : Quiet s t) (k : Quiet t u) : Quiet s u := ⟨fun i => (k.strobes i).trans (h.strobes i)⟩

theorem emit {o : Output} (h : Quiet s t) (ho : ∀ k, o ≠ .strobe k) : Quiet s (t.emit o) := ⟨fun k => by
  rw [← h.strobes k]
  exact List.count_append.trans (by simp [ho k, State.strobes])⟩

theorem put (h : Quiet s t) (f : Fld) (i v : Nat) : Quiet s (t.put f i v) := h.trans (of_out rfl)

theorem ite {c : Prop} [Decidable c] {a b : State} (h : Quiet s a) (k : Quiet s b) : Quiet s (if c then a else b) := by
  split <;> assumption

theorem when (h : Quiet s t) (c : Bool) {g : State → State} (hg : ∀ u, Quiet u (g u)) : Quiet s (t.when c g) := ite (h.trans (hg t)) h

theorem each (h : Quiet s t) {α : Type} (l : List α) {g : α → State → State} (hg : ∀ a u, Quiet u (g a u)) : Quiet s (t.each l g) :=
  State.each_keeps (P := Quiet s) (fun a _ u hu => hu.trans (hg a u)) h

theorem of_goes {m : Nat} (h : Goes m s t) (hm : m.testBit (256 + Part.outputs.ctorIdx) = false) : Quiet s t := of_out (h.parts .outputs hm)

end Quiet

theorem State.quiet_refl (s : State) : Quiet s s := .of_out rfl

theorem State.quiet_setBox (s : State) (m : Nat) (b : Mailbox) : Quiet s (s.setBox m b) := .of_out rfl

/-- A pulse is kept, or crosses at once and delivers. -/
theorem State.quiet_pulse (s : State) (sender receiver : Nat) (p : Pulse) {deliver : State → State} (hg : ∀ u, Quiet u (deliver u)) :
    Quiet s (s.pulse sender receiver p deliver) :=
  have hpulses (x : Tbl PulseX) : Quiet s { s with pulses := x } := .of_out rfl
  .ite (hpulses _) ((hpulses _).trans (hg _))

theorem State.quiet_writeReply (s : State) (m : Nat) (bytes : List Byte) : Quiet s (s.writeReply m bytes) := by
  have htail (u : Nat) : Quiet s ((s.putRing m replyBase (s.fld .PST_MB_RPL_TAIL m) bytes 0).put .PST_MB_RPL_TAIL m u) :=
    (Quiet.of_goes (s.goes_putRing ..) (by simp)).put ..
  exact .ite (((htail _).put ..).emit nofun) ((htail _).when _ fun u => u.quiet_refl.put ..)

theorem State.quiet_pumpList (s : State) (m : Nat) (l : List Held) : Quiet s (s.pumpList m l) := by
  induction l generalizing s with
  | nil => exact .of_out rfl
  | cons h l ih => exact .ite ((s.quiet_writeReply m _).trans (ih _)) (.of_out rfl)

theorem State.quiet_raiseNotices (s : State) (src : Nat) : Quiet s (s.raiseNotices src) :=
  s.quiet_refl.each _ fun m u => ((u.quiet_setBox m _).trans (State.quiet_pumpList _ m _)).put ..

theorem State.quiet_logEvent (s : State) (src : Nat) (detail : List Byte) : Quiet s (s.logEvent src detail) :=
  .ite (.of_out rfl) (.ite (.of_out rfl) (.ite (.of_out rfl) (.of_out rfl)))

theorem State.quiet_eventDetail (s : State) (reg : Option (Reg × Nat)) : Quiet s (s.eventDetail reg).1 := by
  cases reg <;> exact .of_out rfl

theorem State.quiet_raiseCore (s : State) (src : Nat) (reg : Option (Reg × Nat)) : Quiet s (s.raiseCore src reg) := by
  unfold State.raiseCore
  extract_lets w seen s1 func vector s2 n s3
  have hmsix : Quiet s s2 := (s.quiet_refl.put ..).when _ fun u => u.quiet_pulse _ _ _ fun v => v.quiet_refl.emit nofun
  have htoken : Quiet s s3 := hmsix.when _ fun u => .emit (.of_out rfl) nofun
  exact .ite htoken ((htoken.trans (s3.quiet_eventDetail reg)).trans (State.quiet_logEvent _ src _))

/-- A raise sends messages, tokens and letters, and no strobe pulse. -/
theorem State.quiet_raiseWith (s : State) (src : Nat) (reg : Option (Reg × Nat)) : Quiet s (s.raiseWith src reg) := by
  have hcore := s.quiet_raiseCore src reg
  have hnotices := hcore.trans (State.quiet_raiseNotices _ src)
  obtain h | h | ⟨m, h⟩ := s.raiseWith_cases src reg <;> rw [h]
  · exact hcore
  · exact hnotices
  · exact (hnotices.trans (State.quiet_raiseCore _ 209 _)).trans (State.quiet_raiseNotices _ 209)

/-! ### Crossings of a strobe (R113, R117, R118) -/

/-- The first tick at or after a moment is less than 1 ns after it. -/
theorem tickAfter_spec (t : Nat) : t ≤ tickAfter t ∧ tickAfter t < t + 64 ∧ tickAfter t % 64 = 0 := by
  unfold tickAfter
  omega

/-- A pulse that would start less than 8 ns after the last one merges into it. -/
theorem State.strobe_of_close {s : State} {k t last : Nat} (hlast : Tbl.find 0 s.strobeT k = last + 1) (hclose : t < last + 512) :
    s.strobe k t = (s.bump .POS_STRB_STAT_MERGE k 1).raise (19 + 4 * s.fld .POS_STRB_CTL_AXIS k) := by
  simp only [State.strobe, hlast]
  exact if_pos (by simpa using (by omega : t + 1 < last + 1 + 512))

/-- A pulse of strobe `k` leaves the device at moment `t`. -/
def State.strobePulse (s : State) (k t : Nat) : State := { s with strobeT := Tbl.set 0 s.strobeT k (t + 1) }.emit (.strobe k)

theorem State.strobe_of_apart {s : State} {k t : Nat} (hapart : ∀ last, Tbl.find 0 s.strobeT k = last + 1 → last + 512 ≤ t) :
    s.strobe k t = (s.strobePulse k t).pulseTree (2 + k) := by
  refine if_neg ?_
  cases h : Tbl.find 0 s.strobeT k with
  | zero => simp
  | succ last =>
    simpa using (by have := hapart last h; omega : last + 1 + 512 ≤ t + 1)

/-- The crossings of strobe `k` are judged from the next of its positions in a direction. -/
def State.strobeFrom (s : State) (k : Nat) (forward : Bool) : State :=
  { s with strobeAt := Tbl.set 0 s.strobeAt k (s.strobeNext k forward) }

theorem State.find_strobeFrom (s : State) (k : Nat) (forward : Bool) :
    Tbl.find 0 (s.strobeFrom k forward).strobeAt k = s.strobeNext k forward := by
  simp [State.strobeFrom]

theorem exec_strobeCrossing {s : State} {k : Fin 2} {forward : Bool} (hengine : s.engineOn = true) (hon : s.strobeOn k forward = true)
    (hmet : s.strobeMet k forward = true) (at_ : Nat) :
    exec (.strobeCrossing k forward at_) s = .next ((s.strobeFrom k forward).strobe k (tickAfter at_)) := by
  refine congrArg Host.Outcome.next ?_
  simp [State.engine, State.when, hengine, hon, hmet, State.strobeFrom]

theorem State.goes_strobeFrom (s : State) (k : Nat) (forward : Bool) : Goes (mask [] [.strobeAt]) s (s.strobeFrom k forward) :=
  (Goes.refl _ s).set_strobeAt _ (mask_part (by decide))

theorem State.goes_strobePulse (s : State) (k t : Nat) : Goes (mask [] [.outputs, .strobeT]) s (s.strobePulse k t) :=
  ((Goes.refl _ s).set_strobeT _ (mask_part (by decide))).emit _ (mask_part (by decide))

theorem State.goes_pulseTree (s : State) (t : Nat) : Goes (mask [] [.flying]) s (s.pulseTree t) :=
  (Goes.refl _ s).set_flying _ (mask_part (by decide))

theorem State.goes_strobe (s : State) (k t : Nat) : Goes (mask (signals [.POS_STRB_STAT]) (signalled [.flying, .strobeT])) s (s.strobe k t) :=
  Goes.ite (((Goes.refl _ s).write _ k _ (by decide)).raised _ (by decide))
    (((s.goes_strobePulse k t).lift (by decide)).step (State.goes_pulseTree _ _) (by decide))

/-- A merged crossing, as POS_STRB_STAT, the event source and the outputs show it. -/
theorem State.strobe_merges {s : State} {k t last : Nat} (hlast : Tbl.find 0 s.strobeT k = last + 1) (hclose : t < last + 512) :
    let u := s.strobe k t
    u.out.count (.strobe k) = s.out.count (.strobe k) ∧
      u.fld .POS_STRB_STAT_MERGE k = min (s.fld .POS_STRB_STAT_MERGE k + 1) (2 ^ 16 - 1) ∧
      u.pends (19 + 4 * s.fld .POS_STRB_CTL_AXIS k) = true ∧ Goes (mask (signals [.POS_STRB_STAT]) (signalled [])) s u := by
  intro u
  have hu : u = (s.bump .POS_STRB_STAT_MERGE k 1).raise (19 + 4 * s.fld .POS_STRB_CTL_AXIS k) := State.strobe_of_close hlast hclose
  have hraise := (s.bump .POS_STRB_STAT_MERGE k 1).goes_raise (19 + 4 * s.fld .POS_STRB_CTL_AXIS k)
  rw [hu]
  refine ⟨?_, ?_, State.pends_raiseWith .., ((Goes.refl _ s).write _ k _ (by decide)).raised _ (by decide)⟩
  · exact (State.quiet_raiseWith ..).strobes k
  · rw [hraise.flds .POS_STRB_STAT_MERGE k (mask_reg_not (by decide)), State.bump, State.fld_put_same]
    exact Nat.mod_eq_of_lt (Nat.lt_of_le_of_lt (Nat.min_le_right ..) (by decide))

/-- Settles O26: a crossing moves where the next is judged from, and then merges or pulses by the time since the last pulse. -/
theorem closeCrossingsMerge : Obligations.CloseCrossingsMerge := by
  intro k forward at_ s hengine hen hruns hdir hmet start
  have hon : s.strobeOn k forward = true := by simp [State.strobeOn, hen, hruns, hdir]
  let u := s.strobeFrom k forward
  have hfrom := s.goes_strobeFrom k forward
  obtain ⟨hge, hlt, hmod⟩ := tickAfter_spec at_
  refine ⟨u.strobe k start, exec_strobeCrossing hengine hon hmet at_, hge, hlt, hmod, ?_, ?_, ?_⟩
  · have hat : (u.strobe k start).strobeAt = u.strobeAt := (u.goes_strobe k start).parts .strobeAt (by simp [signalled])
    rw [hat]
    exact s.find_strobeFrom k forward
  · rintro ⟨last, hlast, hclose⟩
    obtain ⟨hcount, hmerge, hpends, hgoes⟩ := State.strobe_merges (s := u) hlast hclose
    exact ⟨hcount, hmerge, hpends, ((hfrom.lift (by decide)).step hgoes (by decide)).within⟩
  · intro hapart
    have hpulse : u.strobe k start = (u.strobePulse k start).pulseTree (2 + k) := State.strobe_of_apart hapart
    rw [hpulse]
    refine ⟨rfl, by simp [State.pulseTree, State.strobePulse, State.emit], rfl, ?_⟩
    exact (((hfrom.lift (by decide)).step (u.goes_strobePulse k start) (by decide)).step (State.goes_pulseTree _ _) (by decide)).within

end Sys2Proof.Machine
end

section
/-! PROOFS. What an axis that turns, faults or is lost brings to pads, sorters, links, channels and rings, as frames. -/

namespace Sys2Proof.Machine

/-! ### Pads and trees (R61, R143, R148, R150) -/

theorem State.goes_keepPin (s : State) (p : Nat) : Goes (mask [] [.pins]) s (s.keepPin p) := by
  unfold State.keepPin
  split
  · exact (Goes.refl _ s).set_pins _ (mask_part (by decide))
  · exact Goes.refl _ s

theorem State.goes_treeLevel (s : State) (k : Nat) (b : Bool) : Goes (mask [] [.flying, .trees]) s (s.treeLevel k b) :=
  ((Goes.refl _ s).set_trees _ (mask_part (by decide))).when _ _ fun t => (t.goes_pulseTree _).lift (by decide)

/-- The parts that a change of the pads changes. -/
def padParts : List Part := [.flying, .freeValues, .outputs, .pins, .trees]

theorem State.goes_showSink (s : State) (k : Nat) : Goes (mask [] padParts) s (s.showSink k) := by
  unfold State.showSink
  extract_lets r s1 s2 j
  have hr : Goes (mask [] padParts) s s1 := by
    simp only [s1, r]
    split
    · exact Goes.refl _ s
    · exact (Goes.refl _ s).drew (mask_part (by decide))
  refine Goes.ite hr (((hr.set_pins _ (mask_part (by decide))).emit _ (mask_part (by decide))).when _ _ fun t => ?_)
  exact (t.goes_treeLevel _ _).lift (by decide)

theorem State.goes_keepLevels (s : State) : Goes (mask [] padParts) s s.keepLevels :=
  ((Goes.refl _ s).each _ _ fun p t => (t.goes_keepPin p).lift (by decide)).each _ _ fun k t => t.goes_showSink k

/-- A conflict that arises is shown and raised, and the pads take their levels. -/
theorem State.goes_refreshPins (s : State) :
    Goes (mask (signals [.PIN_GSTAT, .PIN_ICONF, .PIN_OCONF]) (signalled [.flying, .pins, .trees])) s s.refreshPins := by
  unfold State.refreshPins
  extract_lets c newO newI s1 s2
  have hconf : Goes (mask (signals [.PIN_GSTAT, .PIN_ICONF, .PIN_OCONF]) (signalled [.flying, .pins, .trees])) s s1 :=
    (Goes.refl _ s).each _ _ fun b t => ((Goes.refl _ t).write _ b _ (by decide)).write _ b _ (by decide)
  have hflags : Goes (mask (signals [.PIN_GSTAT, .PIN_ICONF, .PIN_OCONF]) (signalled [.flying, .pins, .trees])) s s2 :=
    (hconf.writeIf _ _ 0 1 (by decide)).writeIf _ _ 0 1 (by decide)
  exact (hflags.when _ _ fun t => (Goes.refl _ t).raised 6 (by decide)).step (State.goes_keepLevels _) (by decide)

/-! ### Armed entries and placement cells (R139, R149, R153) -/

theorem State.goes_setSrt (s : State) (n : Nat) (x : Sorter) : Goes (mask [.SRT_STAT] [.sorters]) s (s.setSrt n x) :=
  ((((Goes.refl _ s).set_sorters _ (mask_part (by decide))).write _ n _ (by decide)).write _ n _ (by decide)).write _ n _ (by decide)

theorem State.goes_disarm (s : State) (a : Armed) : Goes (mask [.SRT_STAT] [.pins, .sorters]) s (s.disarm a) :=
  ((Goes.refl _ s).set_pins _ (mask_part (by decide))).step (State.goes_setSrt _ _ _) (by decide)

theorem State.goes_disarmAll (s : State) (p : Armed → Bool) : Goes (mask [.SRT_STAT] [.pins, .sorters]) s (s.disarmAll p) :=
  (Goes.refl _ s).each _ _ fun a t => t.goes_disarm a

theorem State.goes_cellEnable (s : State) (c : Nat) (en : Bool) :
    Goes (mask (signals [.PIN_GSTAT, .PIN_ICONF, .PIN_OCONF, .PIN_PLC_CTL, .SRT_STAT]) (signalled [.flying, .pins, .plcs, .sorters, .trees]))
      s (s.cellEnable c en) :=
  Goes.ite ((((Goes.refl _ s).set_plcs _ (mask_part (by decide))).write _ c _ (by decide)).step (State.goes_refreshPins _) (by decide))
    ((((Goes.refl _ s).write _ c _ (by decide)).step (State.goes_disarmAll _ _) (by decide)).step (State.goes_refreshPins _) (by decide))

/-! ### Express slots (R267, R268, R273..R275) -/

/-- The parts that an express slot changes. -/
def slotParts : List Part := [.freeValues, .links, .outputs]

theorem State.goes_updLink (s : State) (m : Nat) (g : Link → Link) : Goes (mask [] slotParts) s (s.updLink m g) :=
  (Goes.refl _ s).set_links _ (mask_part (by decide))

theorem State.goes_putFlit (s : State) (m lane : Nat) (seq : Option Nat) (bytes : List Byte) :
    Goes (mask [] slotParts) s (s.putFlit m lane seq bytes) :=
  (Goes.refl _ s).when _ _ fun t => ((Goes.refl _ t).emit _ (mask_part (by decide))).drew (mask_part (by decide))

theorem State.goes_sendMarker (s : State) (m lanes : Nat) (restripe : Bool) : Goes (mask [] slotParts) s (s.sendMarker m lanes restripe) := by
  unfold State.sendMarker
  exact ((Goes.refl _ s).each _ _ fun i t => t.goes_putFlit m _ _ _).trans (State.goes_updLink _ m _)

theorem State.goes_round (s : State) (m : Nat) : Goes (mask [] slotParts) s (s.round m) :=
  Goes.ite (s.goes_updLink m _) ((s.goes_updLink m _).trans (State.goes_sendMarker _ m _ _))

theorem State.goes_emitSlot (s : State) (m code seq : Nat) (data : List Nat) : Goes (mask [] slotParts) s (s.emitSlot m code seq data) :=
  (Goes.refl _ s).when _ _ fun t => ((Goes.refl _ t).emit _ (mask_part (by decide))).when _ _ fun u => u.goes_round m

theorem State.goes_sendExpress (s : State) (m code : Nat) (data : List Nat) : Goes (mask [] slotParts) s (s.sendExpress m code data) :=
  (s.goes_updLink m _).each _ _ fun _ t => t.goes_emitSlot m code _ data

theorem State.goes_linkExpress (s : State) (m code : Nat) (data : List Nat) : Goes (mask [] slotParts) s (s.linkExpress m code data) :=
  Goes.ite ((Goes.refl _ s).when _ _ fun t => t.goes_sendExpress m code data) (Goes.ite (s.goes_updLink m _) (Goes.refl _ s))

theorem State.goes_express (s : State) (l code : Nat) (data : List Nat) : Goes (mask [] slotParts) s (s.express l code data) := by
  unfold State.express
  split
  · exact s.goes_linkExpress _ code data
  · exact Goes.refl _ s

/-! ### Notices and reports (R175, R358, R537) -/

theorem State.goes_logFirmware (s : State) (code : Nat) (bytes : List Byte) : Goes routeMask s (s.logFirmware code bytes) :=
  Goes.ite ((Goes.refl _ s).bump _ 0 _ (mask_reg (by decide))) (Goes.ite (s.goes_setQueue _) ((Goes.refl _ s).set_evt _ (mask_part (by decide))))

theorem State.goes_send (s : State) (m : Nat) (bytes : List Byte) : Goes raiseMask s (s.send m bytes) := by
  have hpump := ((s.goes_setBox m { s.box m with held := (s.box m).held ++ [.letter bytes] }).trans (State.goes_pump _ m)).letter_raise
  exact Goes.ite (hpump.trans (State.goes_raiseWith _ 209 _)) hpump

theorem State.goes_notice (s : State) (m opcode handle postmark : Nat) (body : List Byte) :
    Goes countMask s (s.notice m opcode handle postmark body) :=
  (s.goes_perf ..).trans (State.goes_send _ m _).raise_count

/-- The registers and the parts of a channel's report. -/
def reportMask : Nat := mask (signals (counting [])) (signalled [.chans])

theorem State.goes_setChan (s : State) (c : Nat) (x : Channel) : Goes reportMask s (s.setChan c x) :=
  (Goes.refl _ s).set_chans _ (mask_part (by decide))

theorem State.goes_reportNotice (s : State) (c reason at_ resource : Nat) : Goes reportMask s (s.reportNotice c reason at_ resource) :=
  ((s.goes_setChan c _).step (State.goes_logFirmware _ _ _) (by decide)).step (State.goes_notice _ _ _ _ _ _) (by decide)

/-! ### Channels that are inhibited (R181, R199) -/

/-- The registers of a channel's inhibition. -/
def inhibitRegs : List Reg := signals (counting [.PIN_GSTAT, .PIN_ICONF, .PIN_OCONF, .PIN_PLC_CTL, .SRT_CTL, .SRT_STAT])

/-- The parts of a channel's inhibition. -/
def inhibitParts : List Part := signalled [.chans, .flying, .links, .pins, .plcs, .sorters, .trees]

theorem State.goes_inhibit (s : State) (c cause : Nat) : Goes (mask inhibitRegs inhibitParts) s (s.inhibit c cause) := by
  have hchan (x : Channel) : Goes (mask inhibitRegs inhibitParts) s (s.setChan c x) := (s.goes_setChan c x).lift (by decide)
  unfold State.inhibit
  extract_lets x s1 s2 s3 s4
  have hsorters : Goes (mask inhibitRegs inhibitParts) s s2 := (hchan _).each _ _ fun n t => (Goes.refl _ t).write _ n 0 (by decide)
  have hcells : Goes (mask inhibitRegs inhibitParts) s s3 :=
    hsorters.each _ _ fun k t => (t.goes_cellEnable k false).lift (by decide)
  have hlanes : Goes (mask inhibitRegs inhibitParts) s s4 :=
    Goes.ite hcells (hcells.each _ _ fun l t => (t.goes_express l 1 _).lift (by decide))
  exact Goes.ite (Goes.ite (Goes.refl _ s) (hchan _)) (Goes.ite (hlanes.step (State.goes_reportNotice _ c 3 _ 0) (by decide)) (Goes.refl _ s))

theorem State.goes_inhibitAxis (s : State) (a cause : Nat) (p : Channel → Bool) :
    Goes (mask inhibitRegs inhibitParts) s (s.inhibitAxis a cause p) :=
  (Goes.refl _ s).each _ _ fun c t => t.goes_inhibit c cause

/-! ### Ring stops (R219..R223) -/

theorem State.goes_showFranker (s : State) : Goes (mask [.DEV_FRK_STAT] []) s s.showFranker :=
  Goes.ite ((Goes.refl _ s).write _ 0 _ (by decide)) (Goes.refl _ s)

/-- The registers of a ring stop. -/
def stopRegs : List Reg := .DEV_FRK_STAT :: .LNK_RING_STAT :: .LNK_RING_STOPSRC :: inhibitRegs

/-- The parts of a ring stop. -/
def stopParts : List Part := .rings :: inhibitParts

theorem State.goes_showStops (s : State) (r : Nat) : Goes (mask stopRegs stopParts) s (s.showStops r) :=
  ((Goes.refl _ s).write _ r _ (by decide)).step (State.goes_showFranker _) (by decide)

theorem State.goes_setRing (s : State) (r : Nat) (x : Ring) : Goes (mask stopRegs stopParts) s (s.setRing r x) :=
  (Goes.refl _ s).set_rings _ (mask_part (by decide))

theorem State.goes_haltChannel (s : State) (c : Nat) : Goes (mask inhibitRegs inhibitParts) s (s.haltChannel c) :=
  ((Goes.refl _ s).each _ _ fun l t => (t.goes_express l 1 _).lift (by decide)).trans (State.goes_inhibit _ c 0xF)

theorem State.goes_haltAxes (s : State) (axes : Nat) : Goes (mask inhibitRegs inhibitParts) s (s.haltAxes axes) :=
  (Goes.refl _ s).each _ _ fun _ t => (Goes.refl _ t).each _ _ fun c u => u.goes_haltChannel c

theorem State.goes_latchStop (s : State) (r : Nat) (x : RingStop) : Goes (mask stopRegs stopParts) s (s.latchStop r x) := by
  have hshown := (s.goes_setRing r { s.ring r with stops := addStop x (s.ring r).stops }).trans (State.goes_showStops _ r)
  have hsource := ((hshown.write .LNK_RING_STOPSRC_ORIGIN r x.origin (by decide)).write .LNK_RING_STOPSRC_CAUSE r x.cause (by decide)).write
    .LNK_RING_STOPSRC_SEQ r x.seq (by decide)
  exact Goes.ite (Goes.refl _ s) ((hsource.raised _ (by decide)).step (State.goes_haltAxes _ _) (by decide))

theorem State.goes_raiseStop (s : State) (r cause : Nat) : Goes (mask stopRegs stopParts) s (s.raiseStop r cause) :=
  Goes.ite (Goes.refl _ s) (((s.goes_setRing r _).trans (State.goes_latchStop _ r _)).each _ _ fun l t =>
    (t.goes_express l 8 _).lift (by decide))

theorem State.goes_lostHere (s : State) (a : Nat) : Goes (mask stopRegs stopParts) s (s.lostHere a) :=
  (Goes.refl _ s).each _ _ fun r t => (Goes.refl _ t).when _ _ fun u => u.goes_raiseStop r 3

/-- A pulse through the remainder does what its delivery does, or is kept (R13, R87). -/
theorem Goes.pulseVia {m : Nat} {s t : State} (sender receiver : Nat) (p : Pulse) {deliver : State → State}
    (hg : ∀ u, Goes m u (deliver u)) (hm : m.testBit (256 + Part.pulses.ctorIdx) = true) (h : Goes m s t) :
    Goes m s (t.pulseVia sender receiver p deliver) :=
  h.pulse sender clockless p (fun u => (Goes.refl _ u).pulse clockless receiver p hg hm) hm

theorem State.goes_lostStop (s : State) (a : Nat) : Goes (mask stopRegs stopParts) s (s.lostStop a) :=
  (Goes.refl _ s).pulseVia 23 17 _ (fun t => t.goes_lostHere a) (mask_part (by decide))

end Sys2Proof.Machine
end

section
/-! PROOFS. The position engine as frames: motion, faults and loss, encoder edges, Z, beacons and the commands of an axis, O11. -/

namespace Sys2Proof.Machine

/-! ### Motion (R110..R112, R199) -/

theorem State.goes_updAx (s : State) (a : Nat) (g : Axis → Axis) : Goes (mask [] [.axes]) s (s.updAx a g) :=
  (Goes.refl _ s).set_axes _ (mask_part (by decide))

theorem State.goes_setAx (s : State) (a : Nat) (x : Axis) : Goes (mask [] [.axes]) s (s.setAx a x) :=
  (Goes.refl _ s).set_axes _ (mask_part (by decide))

/-- The registers of an axis that moves. -/
def moveRegs : List Reg := .POS_AX_EPOCH :: .POS_AX_FLT :: .POS_AX_HWM :: .POS_AX_POS :: .POS_AX_STAT :: inhibitRegs

/-- The parts of an axis that moves. -/
def moveParts : List Part := .axes :: inhibitParts

theorem State.goes_moveTo (s : State) (a p : Nat) : Goes (mask moveRegs moveParts) s (s.moveTo a p) := by
  unfold State.moveTo
  extract_lets q old w s1 s2 s3 s4 dir t s5 s6
  have hpos : Goes (mask moveRegs moveParts) s s1 := ((Goes.refl _ s).write _ a _ (by decide)).write _ a _ (by decide)
  have hwrap : Goes (mask moveRegs moveParts) s s2 := hpos.when _ _ fun u => ((Goes.refl _ u).write _ a 1 (by decide)).raised _ (by decide)
  have hmark : Goes (mask moveRegs moveParts) s s3 := hwrap.writeIf _ _ a _ (by decide)
  have hdir : Goes (mask moveRegs moveParts) s s5 :=
    ((hmark.write _ a _ (by decide)).step (State.goes_updAx _ a _) (by decide)).write _ a _ (by decide)
  have hback : Goes (mask moveRegs moveParts) s s6 := hdir.step (State.goes_disarmAll _ _) (by decide)
  exact Goes.ite hdir (Goes.ite (hback.step (State.goes_inhibitAxis _ a _ _) (by decide)) hback)

/-! ### Faults and loss (R119, R120, R123) -/

/-- The registers of an axis that faults or is lost. -/
def faultRegs : List Reg := .POS_AX_FLT :: .POS_AX_LOSTCNT :: .POS_AX_STAT :: stopRegs

/-- The parts of an axis that faults or is lost. -/
def faultParts : List Part := .axes :: stopParts

theorem State.goes_lose (s : State) (a first : Nat) : Goes (mask faultRegs faultParts) s (s.lose a first) := by
  unfold State.lose
  extract_lets s1 s2 s3 s4
  have hstate : Goes (mask faultRegs faultParts) s s2 :=
    ((((Goes.refl _ s).write _ a _ (by decide)).write _ a _ (by decide)).write _ a _ (by decide)).writeIf _ _ a 0 (by decide)
  have hback : Goes (mask faultRegs faultParts) s s4 :=
    ((hstate.write _ a _ (by decide)).raised _ (by decide)).step (State.goes_disarmAll _ _) (by decide)
  have hstop := (hback.step (State.goes_inhibitAxis _ a 2 fun _ => true) (by decide)).step (State.goes_lostStop _ a) (by decide)
  exact (hstop.step (State.goes_showFranker _) (by decide)).step (State.goes_refreshPins _) (by decide)

theorem State.goes_fault (s : State) (a code : Nat) : Goes (mask faultRegs faultParts) s (s.fault a code) := by
  unfold State.fault
  extract_lets s1 s2 t s3
  have hbit : Goes (mask faultRegs faultParts) s s2 := ((Goes.refl _ s).write _ a _ (by decide)).step (State.goes_updAx _ a _) (by decide)
  have hstart : Goes (mask faultRegs faultParts) s s3 := hbit.step (State.goes_updAx _ a _) (by decide)
  have hreckons := ((hstart.write .POS_AX_STAT_STATE a 2 (by decide)).write .POS_AX_FLT_FIRST a code (by decide)).raised (16 + 4 * a) (by decide)
  exact Goes.ite (Goes.ite (hstart.trans (State.goes_lose _ a code)) hreckons) (Goes.ite (hbit.write _ a code (by decide)) hbit)

/-- The registers of dead reckoning's end. -/
def reckonedRegs : List Reg := .POS_AX_EPOCH :: .POS_AX_HWM :: .POS_AX_POS :: faultRegs

theorem State.goes_drEnd (s : State) (a : Nat) : Goes (mask reckonedRegs faultParts) s (s.drEnd a) :=
  Goes.ite (((s.goes_moveTo a _).lift (by decide)).step (State.goes_lose _ a _) (by decide)) (Goes.refl _ s)

theorem State.goes_judgeBeacon (s : State) (a : Nat) : Goes (mask faultRegs faultParts) s (s.judgeBeacon a) :=
  (Goes.refl _ s).when _ _ fun t => t.goes_fault a 5

/-! ### Re-anchoring (R116, R121) -/

theorem State.goes_roundFree (s : State) (num : Int) (den : Nat) : Goes (mask [] [.freeValues]) s (s.roundFree num den).1 :=
  Goes.iteFst (Goes.refl _ s) ((Goes.refl _ s).drew (mask_part (by decide)))

theorem State.goes_nearest (s : State) (a p : Nat) : Goes (mask [] [.freeValues]) s (s.nearest a p).1 :=
  Goes.iteFst (Goes.refl _ s) (Goes.iteFst (Goes.refl _ s) ((Goes.refl _ s).drew (mask_part (by decide))))

theorem State.goes_setJump (s : State) (a : Nat) (d : Int) : Goes (mask [.POS_AX_JUMP] [.freeValues]) s (s.setJump a d) := by
  have hround : Goes (mask [.POS_AX_JUMP] [.freeValues]) s (s.roundFree d 16).1 := (s.goes_roundFree d 16).lift (by decide)
  exact Goes.ite (hround.write _ a _ (by decide)) ((hround.write _ a _ (by decide)).drew (mask_part (by decide)))

/-- The registers of a re-anchor. -/
def reanchorRegs : List Reg := .POS_AX_JUMP :: moveRegs

theorem State.goes_reanchor (s : State) (a p : Nat) : Goes (mask reanchorRegs moveParts) s (s.reanchor a p) := by
  unfold State.reanchor
  extract_lets d t s1 s2
  have hstate : Goes (mask reanchorRegs moveParts) s s1 := ((Goes.refl _ s).write _ a 1 (by decide)).step (State.goes_updAx _ a _) (by decide)
  have hjump : Goes (mask reanchorRegs moveParts) s s2 :=
    (hstate.writeIf _ _ a 0 (by decide)).step (State.goes_setJump _ a d) (by decide)
  exact ((hjump.write _ a 1 (by decide)).raised _ (by decide)).step (State.goes_moveTo _ a p) (by decide)

theorem State.goes_clearFaults (s : State) (a : Nat) (codes : List Nat) : Goes (mask reanchorRegs moveParts) s (s.clearFaults a codes) := by
  unfold State.clearFaults
  extract_lets had s1 x r
  have hclear : Goes (mask reanchorRegs moveParts) s s1 := (State.goes_updAx _ a _).lift (by decide)
  exact Goes.ite ((hclear.step (State.goes_nearest _ a _) (by decide)).trans (State.goes_reanchor _ a _)) hclear

/-! ### Velocity (R105) -/

theorem State.goes_setVel (s : State) (a : Nat) (num : Int) (den since : Nat) :
    Goes (mask [.POS_AX_VEL] [.freeValues]) s (s.setVel a num den since) := by
  unfold State.setVel
  extract_lets k capped r
  have hround : Goes (mask [.POS_AX_VEL] [.freeValues]) s r.1 := by
    simp only [r]
    split <;> exact (s.goes_roundFree _ _).lift (by decide)
  exact hround.write _ a _ (by decide)

theorem State.goes_window (s : State) (a : Nat) : Goes (mask [.POS_AX_STAT] [.axes]) s (s.window a) := by
  unfold State.window
  extract_lets x k δ
  split <;> exact ((s.goes_setAx a _).lift (by decide)).write _ a _ (by decide)

theorem State.goes_holdTravel (s : State) (a : Nat) : Goes (mask [.POS_AX_VEL] [.axes]) s (s.holdTravel a) :=
  Goes.ite (((s.goes_updAx a _).lift (by decide)).write _ a 0 (by decide)) (Goes.refl _ s)

/-! ### Encoder edges (R101, R103, R119) -/

/-- The registers of an encoder edge. -/
def edgeRegs : List Reg := .POS_AX_ERRCNT :: .POS_AX_JUMP :: .POS_AX_VEL :: reckonedRegs

theorem State.goes_countEdge (s : State) (a t : Nat) (fwd : Bool) : Goes (mask edgeRegs faultParts) s (s.countEdge a t fwd) := by
  unfold State.countEdge
  extract_lets x δ code whole anchor win c y s1 s2
  have hwindow : Goes (mask edgeRegs faultParts) s s1 := ((s.goes_setAx a _).lift (by decide)).step (State.goes_window _ a) (by decide)
  have hvel : Goes (mask edgeRegs faultParts) s s2 := Goes.ite (hwindow.step (State.goes_setVel _ a _ _ 0) (by decide)) hwindow
  exact hvel.step (State.goes_moveTo _ a anchor) (by decide)

theorem State.goes_judgeRate (s : State) (a t : Nat) : Goes (mask edgeRegs faultParts) s (s.judgeRate a t) := by
  unfold State.judgeRate
  extract_lets s1
  have hrate : Goes (mask edgeRegs faultParts) s s1 := (s.goes_updAx a _).lift (by decide)
  have hax (g : Axis → Axis) : Goes (mask edgeRegs faultParts) s (s1.updAx a g) := hrate.step (s1.goes_updAx a g) (by decide)
  split
  · exact hrate
  · exact Goes.ite ((hax _).step (State.goes_fault _ a 4) (by decide)) (Goes.ite ((hax _).step (State.goes_clearFaults _ a [4]) (by decide)) (hax _))

theorem State.goes_legalStep (s : State) (a t : Nat) (pairA fwdRaw : Bool) (q q' : Nat) :
    Goes (mask edgeRegs faultParts) s (s.legalStep a t pairA fwdRaw q q') := by
  unfold State.legalStep
  extract_lets x code counted s1 s2 s3
  have hlegal : Goes (mask edgeRegs faultParts) s s1 := (s.goes_setAx a _).lift (by decide)
  have hrate : Goes (mask edgeRegs faultParts) s s2 := Goes.ite (hlegal.trans (State.goes_judgeRate _ a t)) hlegal
  have hcount : Goes (mask edgeRegs faultParts) s s3 := Goes.ite (hrate.trans (State.goes_countEdge _ a t _)) hrate
  exact Goes.ite (hcount.step (State.goes_clearFaults _ a [2, 3]) (by decide)) hcount

theorem State.goes_judgeStuck (s : State) (a : Nat) : Goes (mask faultRegs faultParts) s (s.judgeStuck a) :=
  Goes.ite (((s.goes_setAx a _).lift (by decide)).trans (State.goes_fault _ a 3)) (Goes.refl _ s)

theorem State.goes_stuckRun (s : State) (a : Nat) (pairA : Bool) : Goes (mask faultRegs faultParts) s (s.stuckRun a pairA) :=
  ((s.goes_setAx a _).lift (by decide)).trans (State.goes_judgeStuck _ a)

theorem State.goes_axisEdge (s : State) (a t heldNs : Nat) (pairA level : Bool) :
    Goes (mask edgeRegs faultParts) s (s.axisEdge a t heldNs pairA level) := by
  unfold State.axisEdge
  extract_lets x cur other q x' q' s1
  have hrun : Goes (mask edgeRegs faultParts) s s1 := ((s.goes_setAx a x').lift (by decide)).step (State.goes_stuckRun _ a pairA) (by decide)
  exact Goes.ite ((Goes.refl _ s).write _ a _ (by decide)) (Goes.ite (Goes.refl _ s)
    (Goes.ite ((hrun.step (State.goes_updAx _ a _) (by decide)).step (State.goes_fault _ a 2) (by decide))
      (hrun.trans (State.goes_legalStep _ a t pairA _ q q'))))

/-- What the engine does, or nothing while D23 does not run it (R124). -/
theorem Goes.engine {m : Nat} {s : State} {g : State → State} (hg : ∀ t, Goes m t (g t)) : Goes m s (s.engine g) :=
  (Goes.refl _ s).when _ _ hg

/-- The parts of an encoder edge. -/
def edgeParts : List Part := .encLevel :: faultParts

theorem State.goes_encoderEdge (s : State) (k : Nat) (pairA level : Bool) (t heldNs : Nat) :
    Goes (mask edgeRegs edgeParts) s (s.encoderEdge k pairA level t heldNs) :=
  ((Goes.refl _ s).set_encLevel _ (mask_part (by decide))).trans <| Goes.engine fun u =>
    (Goes.refl _ u).each _ _ fun a v => (v.goes_axisEdge a t heldNs pairA level).lift (by decide)

theorem State.goes_stepEncoder (s : State) (a : Nat) (fwd : Bool) : Goes (mask edgeRegs edgeParts) s (s.stepEncoder a fwd) :=
  (Goes.refl _ s).each _ _ fun _ t => t.goes_encoderEdge _ _ _ _ _

/-! ### Pairs and Z (R119, R122) -/

theorem State.goes_judgePair (s : State) (k p : Nat) (valid : Bool) : Goes (mask [.POS_ENC_STAT] [.encOpen]) s (s.judgePair k p valid) :=
  ((Goes.refl _ s).set_encOpen _ (mask_part (by decide))).write _ 0 _ (by decide)

/-- The registers of an edge or a fault of a Z pair. -/
def zRegs : List Reg := signals [.POS_AX_ERRCNT, .POS_AX_FLT, .POS_AX_ZCAP]

theorem State.goes_zOpen (s : State) (a : Nat) : Goes (mask (signals [.POS_AX_FLT]) (signalled [.axes])) s (s.zOpen a) :=
  (((s.goes_updAx a _).lift (by decide)).write _ a 1 (by decide)).raised _ (by decide)

theorem State.goes_zCapture (s : State) (a t : Nat) : Goes (mask zRegs (signalled [.axes])) s (s.zCapture a t) := by
  unfold State.zCapture
  extract_lets x p gap want off slip s1
  have hcap : Goes (mask zRegs (signalled [.axes])) s s1 := ((Goes.refl _ s).write _ a _ (by decide)).step (State.goes_setAx _ a _) (by decide)
  exact Goes.ite (Goes.refl _ s) (Goes.ite (((hcap.write _ a 1 (by decide)).write _ a _ (by decide)).raised _ (by decide)) hcap)

theorem State.goes_zEdge (s : State) (a : Nat) (e : ZEdge) : Goes (mask zRegs (signalled [.axes])) s (s.zEdge a e) :=
  Goes.ite ((Goes.refl _ s).write _ a _ (by decide)) (s.goes_zCapture a e.time)

/-! ### Beacons (R116, R121) -/

/-- The registers of a beacon. -/
def beaconRegs : List Reg := .POS_AX_JUMP :: .POS_AX_VEL :: reckonedRegs

/-- The parts of a beacon. -/
def beaconParts : List Part := .beaconAt :: faultParts

theorem State.goes_beacon (s : State) (a pos : Nat) (vel : Int) : Goes (mask beaconRegs beaconParts) s (s.beacon a pos vel) := by
  unfold State.beacon
  extract_lets t x d base s1 s2
  have hvalid : Goes (mask beaconRegs beaconParts) s s1 := (Goes.refl _ s).writeIf _ _ a 1 (by decide)
  have hvel (y : Axis) : Goes (mask beaconRegs beaconParts) s ((s1.setAx a y).put .POS_AX_VEL_VALUE a (bits 32 vel)) :=
    (hvalid.step (s1.goes_setAx a y) (by decide)).write _ a _ (by decide)
  have hslew (g : Axis → Axis) : Goes (mask beaconRegs beaconParts) s (s2.updAx a g) := (hvel base).step (State.goes_updAx _ a g) (by decide)
  exact Goes.ite (Goes.ite (hslew _) ((hslew _).step (State.goes_reanchor _ a pos) (by decide)))
    (Goes.ite ((hvel _).step (State.goes_reanchor _ a pos) (by decide)) (hvalid.step (s1.goes_setAx a _) (by decide)))

theorem State.goes_beaconIn (s : State) (link baxis pos : Nat) (vel : Int) (lost : Bool) :
    Goes (mask beaconRegs beaconParts) s (s.beaconIn link baxis pos vel lost) :=
  Goes.ite ((Goes.refl _ s).each _ _ fun a t => (t.goes_fault a 5).lift (by decide))
    (((Goes.refl _ s).set_beaconAt _ (mask_part (by decide))).each _ _ fun a t => t.goes_beacon a _ vel)

/-! ### Commands of an axis (R100, R117, R125) -/

theorem State.goes_restrobe (s : State) (a : Nat) : Goes (mask [] [.strobeAt]) s (s.restrobe a) :=
  (Goes.refl _ s).each _ _ fun _ t => (Goes.refl _ t).set_strobeAt _ (mask_part (by decide))

theorem State.goes_startFaults (s : State) (a : Nat) : Goes (mask faultRegs faultParts) s (s.startFaults a) :=
  Goes.ite (Goes.refl _ s) (((Goes.refl _ s).when _ _ fun t => t.goes_fault a 1).when _ _ fun t => (t.goes_zOpen a).lift (by decide))

/-- The registers of START, STOP and RECOVER. -/
def commandRegs : List Reg := .POS_AX_VEL :: reckonedRegs

/-- The parts of START, STOP and RECOVER. -/
def commandParts : List Part := .strobeAt :: faultParts

theorem State.goes_axisLoad (s : State) (a : Nat) : Goes (mask commandRegs commandParts) s (s.axisLoad a) := by
  unfold State.axisLoad
  extract_lets p k lvl blank x s1 s2 s3 s4
  have hax : Goes (mask commandRegs commandParts) s s1 := (s.goes_setAx a _).lift (by decide)
  have hpos : Goes (mask commandRegs commandParts) s s2 := ((hax.write _ a _ (by decide)).write _ a _ (by decide)).write _ a _ (by decide)
  have hstat : Goes (mask commandRegs commandParts) s s3 := ((hpos.write _ a 1 (by decide)).write _ a 0 (by decide)).write _ a 0 (by decide)
  have hvel : Goes (mask commandRegs commandParts) s s4 := (hstat.write _ a 0 (by decide)).write _ a 0 (by decide)
  have hstrobe := (hvel.write .POS_AX_STAT_VVALID a (b2n (x.src == 1)) (by decide)).step (State.goes_restrobe _ a) (by decide)
  have hfaults := hstrobe.step (State.goes_startFaults _ a) (by decide)
  exact (hfaults.step (State.goes_showFranker _) (by decide)).step (State.goes_refreshPins _) (by decide)

/-- A command that is refused sets its flag of POS_AX_FLT and raises the source of the axis. -/
theorem State.goes_refuse (s : State) (f : Fld) (a src : Nat) (hf : f.spec.reg = .POS_AX_FLT) :
    Goes (mask commandRegs commandParts) s ((s.put f a 1).raise src) :=
  ((Goes.refl _ s).write f a 1 (by rw [hf]; decide)).raised src (by decide)

theorem State.goes_axisStart (s : State) (a : Nat) : Goes (mask commandRegs commandParts) s (s.axisStart a) :=
  Goes.ite (s.goes_axisLoad a) (s.goes_refuse _ a _ rfl)

theorem State.goes_axisRecover (s : State) (a : Nat) : Goes (mask commandRegs commandParts) s (s.axisRecover a) :=
  Goes.ite (s.goes_axisLoad a) (s.goes_refuse _ a _ rfl)

theorem State.goes_axisStop (s : State) (a : Nat) : Goes (mask commandRegs commandParts) s (s.axisStop a) := by
  unfold State.axisStop
  extract_lets s1 s2 s3
  have hstat : Goes (mask commandRegs commandParts) s s2 := ((Goes.refl _ s).write _ a 0 (by decide)).writeIf _ _ a 0 (by decide)
  have hback : Goes (mask commandRegs commandParts) s s3 := hstat.step (State.goes_disarmAll _ _) (by decide)
  have hinhibit := hback.step (State.goes_inhibitAxis _ a 2 fun _ => true) (by decide)
  exact (hinhibit.step (State.goes_showFranker _) (by decide)).step (State.goes_refreshPins _) (by decide)

theorem State.goes_axCmd (s : State) (a v : Nat) : Goes (mask commandRegs commandParts) s (s.axCmd a v) := by
  unfold State.axCmd
  extract_lets st s1
  have hstart : Goes (mask commandRegs commandParts) s s1 := (Goes.refl _ s).when _ _ fun t => t.goes_axisStart a
  exact Goes.ite (s.goes_axisStop a)
    (Goes.ite (Goes.ite (hstart.trans (s1.goes_refuse _ a _ rfl)) (hstart.trans (s1.goes_axisRecover a))) hstart)

theorem State.goes_axisCtl (s : State) (a v : Nat) : Goes (mask [.POS_AX_CTL, .POS_AX_STAT] []) s (s.axisCtl a v) := by
  unfold State.axisCtl
  extract_lets s1 s2
  have hsource : Goes (mask [.POS_AX_CTL, .POS_AX_STAT] []) s s1 :=
    (((Goes.refl _ s).write _ a _ (by decide)).write _ a _ (by decide)).write _ a _ (by decide)
  have hmodes : Goes (mask [.POS_AX_CTL, .POS_AX_STAT] []) s s2 := (hsource.write _ a _ (by decide)).write _ a _ (by decide)
  exact hmodes.writeIf _ _ a 1 (by decide)

theorem State.goes_readPos (s : State) (p : Port) (a : Nat) : Goes (mask [] [.outputs, .shadows]) s (s.readPos p a) :=
  ((Goes.refl _ s).set_shadows _ (mask_part (by decide))).emit _ (mask_part (by decide))

/-! ### Accesses (R13, R17, R18, R97) -/

/-- An access is not made, waits, is refused, or passes the crossings and takes place. -/
theorem Goes.access {rs : List Reg} {ps : List Part} {g : State → State} (hg : ∀ t, Goes (mask rs ps) t (g t)) (s : State) (p : Port) (r : Reg)
    (i : Nat) (write : Bool) (data : Nat) (hin : Inside (signals (errors [])) (signalled [.crossings, .waiting]) rs ps) :
    Goes (mask rs ps) s (s.access p r i write data g) := by
  obtain ⟨hr, hp⟩ := hin
  have hsignal : signalled [] ⊆ ps := List.Subset.trans (by decide) hp
  refine Goes.ite (Goes.refl _ s) (Goes.ite ((s.goes_wait ..).widen (by simp) (List.Subset.trans (by decide) hp)) (Goes.ite ?_ ?_))
  · exact ((s.goes_accessError ..).widen hr hsignal).when _ _ fun t => (Goes.refl _ t).emit _ (mask_part (hsignal (by decide)))
  · exact ((s.goes_passAccess ..).widen (by simp) (List.Subset.trans (by decide) hp)).trans (hg _)

/-! ### The commands of position (R82, R119..R127) -/

theorem Goes.answers {rs : List Reg} {ps : List Part} {c : Instr} {s t : State} (hexec : exec c s = .next t) (h : Goes (mask rs ps) s t) :
    ∃ t, exec c s = .next t ∧ Within rs ps s t :=
  ⟨t, hexec, h.within⟩

/-- The end of a fault, or of an open pair, changes no more than a re-anchor and the judgement of the pair (R119, R121, R122). -/
theorem execFaultClear_frame (e : FaultEnd) (s : State) :
    ∃ t, execFaultClear e s = .next t ∧ Goes (mask (.POS_ENC_STAT :: reanchorRegs) (.encOpen :: moveParts)) s t := by
  refine ⟨_, rfl, Goes.engine fun t => ?_⟩
  cases e with
  | axis a c => exact Goes.ite ((t.goes_clearFaults a [c]).lift (by decide)) (Goes.refl _ t)
  | pair k p =>
    have hpair : Goes (mask (.POS_ENC_STAT :: reanchorRegs) (.encOpen :: moveParts)) t (t.judgePair k p true) :=
      (t.goes_judgePair k p true).lift (by decide)
    exact Goes.ite (hpair.each _ _ fun a u => (u.goes_updAx a _).lift (by decide))
      (Goes.ite (hpair.each _ _ fun a u => (u.goes_clearFaults a [1]).lift (by decide)) hpair)

/-- Settles O11: each command is one operation of the engine, or one access, whose frame lies within the lists of its clause. -/
theorem frameOfPosition : Obligations.FrameOfPosition := by
  refine ⟨?_, ?_, ?_, ?_, ?_, ?_, ?_, ?_, ?_, ?_, ?_, ?_, ?_, ?_, ?_, ?_, ?_, ?_, ?_, ?_⟩
  -- encoder edges, faults and their ends, and the end of dead reckoning
  · exact fun k pairA level t heldNs s => Goes.answers rfl ((s.goes_encoderEdge k pairA level t heldNs).lift (by decide))
  · exact fun k pairA s => Goes.answers rfl <| Goes.engine fun t =>
      ((t.goes_judgePair k _ false).lift (by decide)).each _ _ fun a u => (u.goes_fault a 1).lift (by decide)
  · intro e s
    obtain ⟨t, hexec, hgoes⟩ := execFaultClear_frame e s
    exact Goes.answers hexec (hgoes.lift (by decide))
  · exact fun a s => Goes.answers rfl <| Goes.engine fun t => (t.goes_drEnd a).lift (by decide)
  -- the velocity time-out and the wrap of a count
  · exact fun a s => Goes.answers rfl <| Goes.engine fun t => t.goes_holdTravel a
  · exact fun a fwd s => Goes.answers rfl <| Goes.engine fun t => Goes.ite ((t.goes_stepEncoder a fwd).lift (by decide)) (Goes.refl _ t)
  -- Z
  · exact fun k e s => Goes.answers rfl <| Goes.engine fun t => (Goes.refl _ t).each _ _ fun a u => u.goes_zEdge a e
  · exact fun k s => Goes.answers rfl <| Goes.engine fun t =>
      ((t.goes_judgePair k 2 false).lift (by decide)).each _ _ fun a u => (u.goes_zOpen a).lift (by decide)
  -- beacons
  · exact fun link baxis pos vel lost s => Goes.answers rfl <|
      (Goes.refl _ s).pulseVia _ 23 _ (fun t => (t.goes_beaconIn ..).lift (by decide)) (mask_part (by decide))
  · exact fun a s => Goes.answers rfl <| Goes.engine fun t => (t.goes_judgeBeacon a).lift (by decide)
  -- strobes
  · exact fun k fwd at_ s => Goes.answers rfl <| Goes.engine fun t =>
      Goes.ite (((t.goes_strobeFrom k fwd).lift (by decide)).step (State.goes_strobe ..) (by decide)) (Goes.refl _ t)
  -- START, STOP and RECOVER, and the registers with a meaning of their own
  · exact fun p a s => Goes.answers rfl <| Goes.access (fun t => (t.goes_axCmd a 1).lift (by decide)) s p _ _ _ _ (by decide)
  · exact fun p a s => Goes.answers rfl <| Goes.access (fun t => (t.goes_axCmd a 2).lift (by decide)) s p _ _ _ _ (by decide)
  · exact fun p a s => Goes.answers rfl <| Goes.access (fun t => (t.goes_axCmd a 4).lift (by decide)) s p _ _ _ _ (by decide)
  · exact fun p a v s => Goes.answers rfl <| Goes.access (fun t => (t.goes_axisCtl a _).lift (by decide)) s p _ _ _ _ (by decide)
  · exact fun p a v s => Goes.answers rfl <| Goes.access (fun t => (Goes.refl _ t).write _ a _ (by decide)) s p _ _ _ _ (by decide)
  · exact fun p s => Goes.answers rfl <| Goes.access (fun t => t.goes_snapshot.lift (by decide)) s p _ _ _ _ (by decide)
  · exact fun p a s => Goes.answers rfl <| Goes.access (fun t => (t.goes_readPos p a).lift (by decide)) s p _ _ _ _ (by decide)
  · exact fun p a s => Goes.answers rfl <| Goes.access (fun t => (t.goes_readClear p _ a).lift (by decide)) s p _ _ _ _ (by decide)
  · exact fun p k s => Goes.answers rfl <| Goes.access (fun t => (t.goes_readClear p _ k).lift (by decide)) s p _ _ _ _ (by decide)

end Sys2Proof.Machine
end

section
/-! PROOFS. The sorters after reset, O36; what an insertion brings, as frames: outcomes, underruns, rejects, and the streams that wait for space. -/

namespace Sys2Proof.Machine

/-! ### Reset (R153) -/

/-- After reset a field reads as its reset value. -/
theorem State.fld_reset (f : Fld) (i : Nat) : State.reset.fld f i = f.reset i % 2 ^ f.spec.width :=
  congrArg (· % 2 ^ f.spec.width) (Nat.zero_xor (f.reset i))

/-- Settles O36: each field has its reset value, and no sorter stands in the table of what they hold. -/
theorem resetEmptiesTheSorters : Obligations.ResetEmptiesTheSorters := by
  intro n
  simp only [State.fld_reset]
  exact ⟨rfl, rfl, rfl, rfl, rfl, rfl, rfl, rfl, rfl⟩

/-! ### Outcomes of products (R173, R174, R192, R231) -/

theorem State.goes_audit (s : State) (series kind ident count flags ch pm : Nat) :
    Goes (mask (signals []) (signalled [.lease])) s (s.audit series kind ident count flags ch pm) :=
  ((Goes.refl _ s).set_lease _ (mask_part (by decide))).when _ _ fun t => (Goes.refl _ t).raised 217 (by decide)

theorem State.goes_outcome (s : State) (i : Ident) (kind ch pm : Nat) :
    Goes (mask (signals []) (signalled [.lease])) s (s.outcome i kind ch pm) := by
  unfold State.outcome
  extract_lets s1
  have hdrawn : Goes (mask (signals []) (signalled [.lease])) s s1 := by
    simp only [s1]
    split
    · exact Goes.refl _ s
    · exact (Goes.refl _ s).set_lease _ (mask_part (by decide))
  exact hdrawn.trans (s1.goes_audit ..)

/-- The parts of an event that completes and of the outcome of its product. -/
def outcomeParts : List Part := signalled [.chans, .lease]

theorem State.goes_updChan (s : State) (c : Nat) (g : Channel → Channel) : Goes (mask [] [.chans]) s (s.updChan c g) :=
  (Goes.refl _ s).set_chans _ (mask_part (by decide))

theorem State.goes_recordOutcome (s : State) (c : Nat) (p : Product) (kind : Nat) :
    Goes (mask (signals []) outcomeParts) s (s.recordOutcome c p kind) := by
  unfold State.recordOutcome
  split
  · exact Goes.ite (Goes.refl _ s) (((s.goes_updChan c _).lift (by decide)).step (State.goes_outcome ..) (by decide))
  · exact Goes.refl _ s

theorem State.goes_recordKnown (s : State) (c : Nat) : Goes (mask (signals []) outcomeParts) s (s.recordKnown c) :=
  (Goes.refl _ s).each _ _ fun p t =>
    Goes.ite (t.goes_recordOutcome c p 2) (Goes.ite (t.goes_recordOutcome c p 3) (Goes.refl _ t))

theorem State.goes_settle (s : State) (c : Nat) : Goes (mask (signals []) outcomeParts) s (s.settle c) := by
  unfold State.settle
  refine (s.goes_recordKnown c).each _ _ fun p t => ?_
  extract_lets x
  split
  · exact Goes.refl _ t
  · have hsettled (g : Channel → Channel) : Goes (mask (signals []) outcomeParts) t (t.updChan c g) := (t.goes_updChan c g).lift (by decide)
    exact Goes.ite (Goes.ite (hsettled _) ((hsettled _).trans (State.goes_recordOutcome _ c p 1))) (Goes.refl _ t)

theorem State.goes_srtEventDone (s : State) (n : Nat) (cell : Bool) (pm : Nat) :
    Goes (mask (signals []) outcomeParts) s (s.srtEventDone n cell pm) := by
  unfold State.srtEventDone
  split
  · exact Goes.refl _ s
  · next c _ =>
    extract_lets reject s1 s2
    have hdone : Goes (mask (signals []) outcomeParts) s s1 := (s.goes_updChan c _).lift (by decide)
    have hreject : Goes (mask (signals []) outcomeParts) s s2 := by
      simp only [s2]
      split
      · exact hdone.trans (s1.goes_recordOutcome c _ 4)
      · exact hdone
    exact hreject.trans (s2.goes_settle c)

/-! ### Insertion (R132, R133, R136) -/

theorem State.goes_takeEntry (s : State) (n : Nat) (e : Entry) : Goes (mask [.SRT_STAT] [.sorters]) s (s.takeEntry n e) := s.goes_setSrt n _

/-- The registers of an entry that is checked: taken in, or discarded and counted. -/
def checkRegs : List Reg := signals (counting [.SRT_ERR, .SRT_STAT])

theorem State.goes_srtDiscard (s : State) (n : Nat) {flag : Fld} {cnt : Option Fld} (hflag : flag.spec.reg = .SRT_STAT)
    (hcnt : ∀ c, cnt = some c → c.spec.reg = .SRT_ERR) : Goes (mask checkRegs (signalled [])) s (s.srtDiscard n flag cnt) := by
  unfold State.srtDiscard
  extract_lets s1
  have hcount : Goes (mask checkRegs (signalled [])) s s1 := by
    cases cnt with
    | none => exact Goes.refl _ s
    | some c => exact (Goes.refl _ s).bump c n 1 (mask_reg (by rw [hcnt c rfl]; decide))
  exact ((hcount.write flag n 1 (by rw [hflag]; decide)).raised _ (by decide)).step (State.goes_perf ..) (by decide)

theorem State.goes_insertCore (s : State) (n raw : Nat) : Goes (mask checkRegs (signalled [.sorters])) s (s.insertCore n raw).1 := by
  have hdiscard (flag : Fld) (cnt : Option Fld) (hflag : flag.spec.reg = .SRT_STAT) (hcnt : ∀ c, cnt = some c → c.spec.reg = .SRT_ERR) :
      Goes (mask checkRegs (signalled [.sorters])) s (s.srtDiscard n flag cnt) := (s.goes_srtDiscard n hflag hcnt).lift (by decide)
  have hbad := hdiscard .SRT_STAT_BAD none rfl nofun
  have hrange := hdiscard .SRT_STAT_RANGE (some .SRT_ERR_RANGE_DROP) rfl (by rintro c ⟨⟩; rfl)
  have hlate := hdiscard .SRT_STAT_LATE (some .SRT_ERR_LATE_DROP) rfl (by rintro c ⟨⟩; rfl)
  unfold State.insertCore
  extract_lets pm x d add
  have hadd (late : Bool) : Goes (mask checkRegs (signalled [.sorters])) s (add late) :=
    ((s.goes_setSrt n _).lift (by decide)).step (State.goes_perf ..) (by decide)
  refine Goes.iteFst (Goes.refl _ s) (Goes.iteFst hbad (Goes.iteFst (Goes.refl _ s) (Goes.iteFst hrange ?_)))
  split
  · exact hadd false
  · exact Goes.iteFst (hadd true) hlate

/-! ### Marks, rejects and underruns (R182, R192, R197) -/

/-- The registers of an insertion, with the underrun that it may bring. -/
def insertRegs : List Reg := .SRT_ERR :: inhibitRegs

/-- The parts of an insertion. -/
def insertParts : List Part := .lease :: inhibitParts

theorem State.goes_rejectMissed (s : State) (c : Nat) (p : Product) : Goes (mask insertRegs insertParts) s (s.rejectMissed c p) := by
  have hmissed : Goes (mask insertRegs insertParts) s (s.updChan c (·.updProduct p.index ({ · with missed := true }))) :=
    (s.goes_updChan c _).lift (by decide)
  exact ((hmissed.step (State.goes_recordOutcome _ c p 5) (by decide)).raised _ (by decide)).step (State.goes_inhibit _ c 0xB) (by decide)

theorem State.goes_underPolicy (s : State) (c : Nat) : Goes (mask inhibitRegs inhibitParts) s (s.underPolicy c) :=
  Goes.ite (s.goes_inhibit c 3) (Goes.ite (Goes.refl _ s) ((s.goes_updChan c _).lift (by decide)))

theorem State.goes_noteMark (s : State) (c : Nat) (p : Product) : Goes (mask (signals []) (signalled [.chans])) s (s.noteMark c p) :=
  ((s.goes_updChan c _).lift (by decide)).step (State.goes_logFirmware ..) (by decide)

theorem State.goes_rejectDiscarded (s : State) (c : Nat) (p : Product) (result : Nat) :
    Goes (mask insertRegs insertParts) s (s.rejectDiscarded c p result) := by
  unfold State.rejectDiscarded
  extract_lets s1 s2
  have hdrop : Goes (mask insertRegs insertParts) s s1 := Goes.ite ((s.goes_updChan c _).lift (by decide)) (Goes.refl _ s)
  have hcount : Goes (mask insertRegs insertParts) s s2 := hdrop.step (s1.goes_updChan c _) (by decide)
  exact Goes.ite ((Goes.ite hcount (hcount.step (s2.goes_noteMark c p) (by decide))).step (State.goes_underPolicy _ c) (by decide)) hdrop

theorem State.goes_scheduleReject (s : State) (c : Nat) (p : Product) : Goes (mask insertRegs insertParts) s (s.scheduleReject c p) := by
  simp only [State.scheduleReject]
  refine Goes.ite (Goes.refl _ s) ?_
  split
  · exact s.goes_rejectMissed c p
  · next n _ =>
    have hins : Goes (mask insertRegs insertParts) s (s.insertCore n p.rejectEntry).1 := (s.goes_insertCore n _).lift (by decide)
    generalize s.insertCore n p.rejectEntry = r at hins ⊢
    exact Goes.ite (hins.step (State.goes_updChan _ c _) (by decide))
      ((hins.trans (State.goes_rejectDiscarded _ c p _)).trans (State.goes_rejectMissed _ c p))

theorem State.goes_markProduct (s : State) (c : Nat) (i : Int) : Goes (mask insertRegs insertParts) s (s.markProduct c i) := by
  unfold State.markProduct
  split
  · exact Goes.refl _ s
  · next p _ =>
    extract_lets s1
    have hnoted : Goes (mask insertRegs insertParts) s s1 := ((s.goes_noteMark c p).lift (by decide)).step (State.goes_recordKnown _ c) (by decide)
    exact Goes.ite (Goes.refl _ s) (Goes.ite hnoted (Goes.ite (hnoted.trans (s1.goes_rejectMissed c p))
      (Goes.ite (hnoted.trans (s1.goes_scheduleReject c p)) hnoted)))

theorem State.goes_underrun (s : State) (c : Nat) (reject : Bool) (pm : Nat) : Goes (mask insertRegs insertParts) s (s.underrun c reject pm) := by
  unfold State.underrun
  extract_lets s1 s2
  have hcount : Goes (mask insertRegs insertParts) s s1 := (s.goes_updChan c _).lift (by decide)
  have hmark : Goes (mask insertRegs insertParts) s s2 := by
    simp only [s2]
    split
    · exact hcount.trans (s1.goes_markProduct c _)
    · exact hcount
  exact hmark.step (s2.goes_underPolicy c) (by decide)

theorem State.goes_insertEntry (s : State) (n raw : Nat) : Goes (mask insertRegs insertParts) s (s.insertEntry n raw).1 := by
  unfold State.insertEntry
  extract_lets r
  have hins : Goes (mask insertRegs insertParts) s r.1 := (s.goes_insertCore n raw).lift (by decide)
  refine Goes.iteFst ?_ hins
  split
  · next c _ =>
    have hdrop : Goes (mask insertRegs insertParts) s (r.1.dropEvents c [raw % 2 ^ 64]) := hins.step (State.goes_updChan _ c _) (by decide)
    exact Goes.ite (hdrop.trans (State.goes_underrun _ c _ _)) hdrop
  · exact hins

/-! ### Streams that wait for space (R78, R131, R317, R444) -/

/-- The flag of a status is one of CFG_AGT_STAT (R317). -/
theorem agentFlag_reg {status : Nat} {f : Fld} (h : agentFlag status = some f) : f.spec.reg = .CFG_AGT_STAT := by
  unfold agentFlag at h
  split_ifs at h <;> cases h <;> rfl

/-- The registers of a reply of an agent's port. -/
def agentRegs : List Reg := signals [.CFG_AGT_STAT, .CFG_ISO_CNT]

theorem State.goes_agentReply (s : State) (a p : Nat) (r : PortReq) (st : Nat × Nat) :
    Goes (mask agentRegs (signalled [])) s (s.agentReply a p r st) := by
  unfold State.agentReply
  extract_lets s1
  have hflag : Goes (mask agentRegs (signalled [])) s s1 := by
    simp only [s1]
    split
    · next f hf =>
      exact ((Goes.refl _ s).write f a 1 (by rw [agentFlag_reg hf]; decide)).when _ _ fun t => (Goes.refl _ t).raised _ (by decide)
    · exact Goes.refl _ s
  exact Goes.ite (hflag.emit _ (mask_part (by decide))) (hflag.bump _ _ 1 (mask_reg (by decide)))

/-- The parts of a reply of an agent's port. -/
def agentParts : List Part := signalled [.memo]

theorem State.goes_setPort (s : State) (a p : Nat) (l : List PortReq) : Goes (mask agentRegs agentParts) s (s.setPort a p l) :=
  (Goes.refl _ s).set_memo _ (mask_part (by decide)) id

theorem State.goes_releaseReplies (s : State) (a p : Nat) (l : List PortReq) :
    Goes (mask agentRegs agentParts) s (s.releaseReplies a p l) := by
  induction l generalizing s with
  | nil => exact s.goes_setPort a p []
  | cons r l ih =>
    unfold State.releaseReplies
    split
    · exact ((s.goes_agentReply a p r _).lift (by decide)).trans (ih _)
    · exact s.goes_setPort a p _

theorem State.goes_streamDone (s : State) (tag : Nat) : Goes (mask agentRegs agentParts) s (s.streamDone tag) :=
  Goes.ite (Goes.refl _ s) (s.goes_releaseReplies ..)

/-- The registers of space that opens in a sorter. -/
def spaceRegs : List Reg := .CFG_AGT_STAT :: .CFG_ISO_CNT :: insertRegs

/-- The parts of space that opens in a sorter. -/
def spaceParts : List Part := .memo :: insertParts

theorem State.goes_streamIn (s : State) (n : Nat) (l : List Nat) : Goes (mask spaceRegs spaceParts) s (s.streamIn n l) := by
  induction l generalizing s with
  | nil => exact (s.goes_setSrt n _).lift (by decide)
  | cons raw l ih =>
    have hin {t : State} (h : Goes (mask spaceRegs spaceParts) s t) :
        Goes (mask spaceRegs spaceParts) s ((t.streamDone (raw / 2 ^ 128)).streamIn n l) :=
      (h.step (t.goes_streamDone _) (by decide)).trans (ih _)
    exact Goes.ite (hin (Goes.refl _ s))
      (Goes.ite ((s.goes_setSrt n _).lift (by decide)) (hin ((s.goes_insertEntry n _).lift (by decide))))

theorem State.goes_srtSpace (s : State) (n : Nat) : Goes (mask spaceRegs spaceParts) s (s.srtSpace n) :=
  Goes.ite (Goes.refl _ s) (s.goes_streamIn n _)

end Sys2Proof.Machine
end

section
/-! PROOFS. The commands of the sorters and of placement as frames: releases, gates, head reads, FLUSH, and the actions and edges of cells. -/

namespace Sys2Proof.Machine

/-! ### Sorters (R131..R138, R153) -/

/-- An access at any address of its element is not made, waits, is refused, or passes the crossings and takes place. -/
theorem Goes.accessAt {rs : List Reg} {ps : List Part} {g : State → State} (hg : ∀ t, Goes (mask rs ps) t (g t)) (s : State) (p : Port) (r : Reg)
    (i a : Nat) (write : Bool) (data : Nat) (hin : Inside (signals (errors [])) (signalled [.crossings, .waiting]) rs ps) :
    Goes (mask rs ps) s (s.accessAt p r i a write data g) := by
  have hpasses : Inside [] [.crossings] rs ps := ⟨List.nil_subset _, List.Subset.trans (by decide) hin.2⟩
  have hwaits : Goes (mask rs ps) s (s.wait p a write data false (if s.may p write r i then r.domain i else none)) :=
    (s.goes_wait ..).lift ⟨List.nil_subset _, List.Subset.trans (by decide) hin.2⟩
  have herror : Goes (mask rs ps) s (s.accessError .denied p write a) :=
    (s.goes_accessError ..).lift ⟨hin.1, List.Subset.trans (by decide) hin.2⟩
  exact Goes.ite (Goes.refl _ s) (Goes.ite hwaits (Goes.ite
    (herror.when _ _ fun t => (Goes.refl _ t).emit _ (mask_part (hin.2 (by decide))))
    (((s.goes_passAccess p write (r.domain i)).lift hpasses).trans (hg _))))

theorem State.goes_commitEntry (s : State) (p : Port) (n w3 : Nat) :
    Goes (mask insertRegs (.insRes :: insertParts)) s (s.commitEntry p n w3) := by
  unfold State.commitEntry
  extract_lets w r s1
  have hins : Goes (mask insertRegs (.insRes :: insertParts)) s r.1 := (s.goes_insertEntry n _).lift (by decide)
  exact (hins.writeIf _ _ n 1 (by decide)).set_insRes _ (mask_part (by decide))

theorem State.goes_streamInto (s : State) (n : Nat) (es : List Nat) : Goes (mask spaceRegs spaceParts) s (s.streamInto n es) :=
  ((s.goes_setSrt n _).lift (by decide)).trans (State.goes_srtSpace _ n)

/-- Entries that sorter `n` discards are dropped events of the channel that holds it (R176). -/
theorem State.goes_dropOfSorter (s : State) (n : Nat) (pms : List Nat) :
    Goes (mask spaceRegs spaceParts) s (match s.chanOfSorter n with
      | some c => s.dropEvents c pms
      | none => s) := by
  split
  · exact (s.goes_updChan _ _).lift (by decide)
  · exact Goes.refl _ s

theorem State.goes_rangeDrop (s : State) (n : Nat) : Goes (mask spaceRegs spaceParts) s (s.rangeDrop n) := by
  unfold State.rangeDrop
  extract_lets x gone stuck t1 t2 t3 t4
  have htaken : Goes (mask spaceRegs spaceParts) s t1 := (s.goes_setSrt n _).lift (by decide)
  have hshown : Goes (mask spaceRegs spaceParts) s t2 :=
    ((htaken.bump _ n _ (mask_reg (by decide))).write _ n 1 (by decide)).raised _ (by decide)
  have hcount : Goes (mask spaceRegs spaceParts) s t3 := hshown.step (t2.goes_perf ..) (by decide)
  exact Goes.ite (Goes.refl _ s) ((hcount.trans (t3.goes_dropOfSorter n _)).trans (t4.goes_srtSpace n))

theorem State.goes_markDue (s : State) (n : Nat) (p : Entry → Bool) : Goes (mask [] [.sorters]) s (s.markDue n p) :=
  Goes.ite (Goes.refl _ s) ((Goes.refl _ s).set_sorters _ (mask_part (by decide)))

/-- The registers of an entry that leaves its sorter for its target, or is discarded there. -/
def releaseRegs : List Reg := .PIN_PLC_STAT :: spaceRegs

/-- The parts of an entry that leaves its sorter. -/
def releaseParts : List Part := .gates :: spaceParts

theorem State.goes_noteRelease (s : State) (n : Nat) : Goes (mask (signals (counting [.SRT_STAT])) (signalled [.sorters])) s (s.noteRelease n) :=
  ((s.goes_setSrt n _).lift (by decide)).step (State.goes_perf ..) (by decide)

theorem State.goes_intoGate (s : State) (n g : Nat) (late : Bool) (e : Entry) : Goes (mask [] [.gates]) s (s.intoGate n g late e) :=
  (Goes.refl _ s).set_gates _ (mask_part (by decide))

theorem State.goes_setPlc (s : State) (c : Nat) (x : PlcCell) : Goes (mask [] [.plcs]) s (s.setPlc c x) :=
  (Goes.refl _ s).set_plcs _ (mask_part (by decide))

theorem State.goes_commitAt (s : State) (c : Nat) (x : Commit) : Goes (mask [] [.plcs]) s (s.commitAt c x) := s.goes_setPlc c _

theorem State.goes_discardBad (s : State) (n : Nat) (e : Entry) : Goes (mask releaseRegs spaceParts) s (s.discardBad n e) := by
  unfold State.discardBad
  extract_lets s1 s2
  have hshown : Goes (mask releaseRegs spaceParts) s ((s.takeEntry n e).badActAt n) :=
    (((s.goes_takeEntry n e).lift (by decide)).write _ _ 1 (by decide)).raised 7 (by decide)
  have hcount : Goes (mask releaseRegs spaceParts) s s1 := hshown.step (State.goes_perf ..) (by decide)
  exact (hcount.step (s1.goes_dropOfSorter n _) (by decide)).step (s2.goes_srtSpace n) (by decide)

/-- An entry has left its sorter: its event completes, and space opens (R131, R173). -/
theorem Goes.left {rs : List Reg} {ps : List Part} {s t : State} (h : Goes (mask rs ps) s t) (n : Nat) (cell : Bool) (pm : Nat)
    (hin : Inside spaceRegs spaceParts rs ps) : Goes (mask rs ps) s ((t.srtEventDone n cell pm).srtSpace n) :=
  (h.step (t.goes_srtEventDone n cell pm) ⟨List.Subset.trans (by decide) hin.1, List.Subset.trans (by decide) hin.2⟩).step
    (State.goes_srtSpace _ n) hin

theorem State.goes_releaseDue (s : State) (n after : Nat) (e : Entry) : Goes (mask releaseRegs releaseParts) s (s.releaseDue n after e) := by
  have hleaves : Goes (mask releaseRegs releaseParts) s ((s.noteRelease n).takeEntry n e) :=
    ((s.goes_noteRelease n).lift (by decide)).step (State.goes_takeEntry _ n e) (by decide)
  have hgate (g k : Nat) (late : Bool) := (hleaves.step (State.goes_intoGate _ g k late e) (by decide)).left n false e.pm (by decide)
  have hstuck (x : Sorter) : Goes (mask releaseRegs releaseParts) s ((s.setSrt n x).noteRelease n) :=
    ((s.goes_setSrt n x).lift (by decide)).step (State.goes_noteRelease _ n) (by decide)
  have hcells (cs : List Nat) (x : Commit) :=
    (hleaves.each cs (fun c t => t.commitAt c x) fun c t => (t.goes_commitAt c x).lift (by decide)).left n true e.pm (by decide)
  refine Goes.ite (Goes.refl _ s) (Goes.ite (Goes.ite (Goes.refl _ s) (Goes.ite (hgate _ _ _) (hstuck _))) ?_)
  exact Goes.ite (Goes.refl _ s) (Goes.ite ((s.goes_discardBad n e).lift (by decide)) (Goes.ite (Goes.refl _ s) (hcells _ _)))

theorem execSorterRelease_frame (n : Fin 64) (after : Nat) (s : State) :
    ∃ t, execSorterRelease n after s = .next t ∧ Goes (mask releaseRegs releaseParts) s t := by
  refine ⟨_, rfl, ?_⟩
  split
  · exact Goes.ite (s.goes_releaseDue n after _) (Goes.refl _ s)
  · exact Goes.refl _ s

theorem execGateSpaceOpens_frame (g : Fin 40) (k : Fin 2) (s : State) :
    ∃ t, execGateSpaceOpens g k s = .next t ∧ Goes (mask spaceRegs releaseParts) s t := by
  refine ⟨_, rfl, ?_⟩
  split
  · exact Goes.refl _ s
  · next w rest _ =>
    extract_lets s1
    have htoken : Goes (mask spaceRegs releaseParts) s s1 := ((Goes.refl _ s).set_gates _ (mask_part (by decide))).emit _ (mask_part (by decide))
    refine Goes.ite (Goes.refl _ s) ?_
    split
    · exact htoken
    · next n _ =>
      split
      · exact htoken
      · next e _ =>
        have hleaves := (htoken.step (s1.goes_takeEntry n e) (by decide)).step (State.goes_intoGate _ g k true e) (by decide)
        exact hleaves.left n false e.pm (by decide)

/-- The parts of a head read. -/
def headParts : List Part := .shadows :: spaceParts

theorem State.goes_readHead (s : State) (p : Port) (n : Nat) : Goes (mask spaceRegs headParts) s (s.readHead p n) := by
  unfold State.readHead
  extract_lets give
  have hgive {t : State} (h : Goes (mask spaceRegs headParts) s t) (raw : Nat) : Goes (mask spaceRegs headParts) s (give t raw) :=
    (h.set_shadows _ (mask_part (by decide))).emit _ (mask_part (by decide))
  clear_value give
  split
  · exact hgive (Goes.refl _ s) _
  · next e _ =>
    have hleaves : Goes (mask spaceRegs headParts) s (s.takeEntry n e) := (s.goes_takeEntry n e).lift (by decide)
    exact Goes.ite (hgive (hleaves.left n false e.pm (by decide)) _) (hgive (Goes.refl _ s) _)

/-- The registers of FLUSH. -/
def flushRegs : List Reg := .SRT_FLUSH_CNT :: spaceRegs

theorem State.goes_flushSorter (s : State) (n : Nat) : Goes (mask flushRegs spaceParts) s (s.flushSorter n).1 :=
  ((s.goes_setSrt n _).lift (by decide)).write _ n _ (by decide)

theorem State.goes_flushCmd (s : State) (n : Nat) : Goes (mask flushRegs spaceParts) s (s.flushCmd n) := by
  unfold State.flushCmd
  extract_lets r s1
  exact ((s.goes_flushSorter n).step (r.1.goes_dropOfSorter n _) (by decide)).step (s1.goes_srtSpace n) (by decide)

/-- The registers of a write of SRT_CTL. -/
def controlRegs : List Reg := signals [.PIN_GSTAT, .PIN_ICONF, .PIN_OCONF, .SRT_CTL, .SRT_STAT]

/-- The parts of a write of SRT_CTL. -/
def controlParts : List Part := signalled [.flying, .pins, .trees]

theorem State.goes_srtCtl (s : State) (n v : Nat) : Goes (mask controlRegs controlParts) s (s.srtCtl n v) := by
  unfold State.srtCtl
  extract_lets same bound refused s1 badEn s2
  have hmodes : Goes (mask controlRegs controlParts) s s1 :=
    Goes.ite (Goes.refl _ s) ((((Goes.refl _ s).write _ n _ (by decide)).write _ n _ (by decide)).write _ n _ (by decide))
  have hen : Goes (mask controlRegs controlParts) s s2 :=
    Goes.ite hmodes (hmodes.write _ n v (by decide))
  exact (Goes.ite ((hen.write _ n 1 (by decide)).raised _ (by decide)) hen).step (State.goes_refreshPins _) (by decide)

/-! ### Placement (R138, R139, R147) -/

theorem execPlacementHandover_frame (n : Fin 64) (s : State) :
    ∃ t, execPlacementHandover n s = .next t ∧ Goes (mask releaseRegs spaceParts) s t := by
  refine ⟨_, rfl, Goes.engine fun t => ?_⟩
  split
  · exact Goes.refl _ t
  · next e _ =>
    have hleaves : Goes (mask releaseRegs spaceParts) t ((t.noteRelease n).takeEntry n e) :=
      ((t.goes_noteRelease n).lift (by decide)).step (State.goes_takeEntry _ n e) (by decide)
    exact Goes.ite (Goes.refl _ t) (Goes.ite (t.goes_discardBad n e) (Goes.ite (Goes.refl _ t)
      ((hleaves.set_pins _ (mask_part (by decide))).step (State.goes_srtSpace _ n) (by decide))))

/-- The parts of an entry that is committed at its cells. -/
def commitParts : List Part := .pins :: .plcs :: outcomeParts

theorem execPlacementCommit_frame (n : Fin 64) (moment : Nat) (s : State) :
    ∃ t, execPlacementCommit n moment s = .next t ∧ Goes (mask (signals []) commitParts) s t := by
  refine ⟨_, rfl, Goes.engine fun t => ?_⟩
  split
  · exact Goes.refl _ t
  · next a num den _ =>
    extract_lets at_ late pins t1 t2
    have harmed : Goes (mask (signals []) commitParts) t t1 := (Goes.refl _ t).set_pins _ (mask_part (by decide))
    have hcells : Goes (mask (signals []) commitParts) t t2 := harmed.each _ _ fun c u => (u.goes_commitAt c _).lift (by decide)
    exact Goes.ite (Goes.refl _ t) (hcells.step (t2.goes_srtEventDone n true _) (by decide))

/-- The registers of an action or an edge of a placement cell. -/
def actRegs : List Reg := .PIN_PLC_CNT :: .PIN_PLC_STAT :: insertRegs

theorem State.goes_lateAction (s : State) (k n pm : Nat) : Goes (mask actRegs insertParts) s (s.lateAction k n pm) := by
  unfold State.lateAction
  extract_lets s1
  have hlate : Goes (mask actRegs insertParts) s s1 := ((Goes.refl _ s).write _ k 1 (by decide)).bump _ k 1 (mask_reg (by decide))
  split
  · exact hlate.step (s1.goes_underrun _ _ pm) (by decide)
  · exact hlate

theorem State.goes_actOn (s : State) (c : Nat) (x : Commit) : Goes (mask actRegs insertParts) s (s.actOn c x) := by
  unfold State.actOn
  extract_lets s1 held r p s2
  have hoverlap : Goes (mask actRegs insertParts) s s1 := (Goes.refl _ s).writeIf _ _ c 1 (by decide)
  have hlevel : Goes (mask actRegs insertParts) s s2 := hoverlap.step (s1.goes_setPlc c _) (by decide)
  exact (hlevel.when _ _ fun t => (Goes.refl _ t).bump _ c 1 (mask_reg (by decide))).when _ _ fun t => t.goes_lateAction c _ _

theorem State.goes_edge (s : State) (c at_ n pm : Nat) (before : Option Drive) :
    Goes (mask actRegs insertParts) s (s.edge c at_ n pm before) := by
  unfold State.edge
  split
  · exact Goes.refl _ s
  · next p _ =>
    have hlate (late : Bool) : Goes (mask actRegs insertParts) s (s.when late (·.lateAction c n pm)) :=
      (Goes.refl _ s).when _ _ fun t => t.goes_lateAction c n pm
    exact Goes.ite (Goes.refl _ s) (Goes.ite ((Goes.refl _ s).emit _ (mask_part (by decide)))
      (((hlate _).set_pins _ (mask_part (by decide))).emit _ (mask_part (by decide))))

theorem execEdgePlaced_frame (c : Fin 192) (s : State) :
    ∃ t, execEdgePlaced c s = .next t ∧ Goes (mask actRegs insertParts) s t := by
  refine ⟨_, rfl, Goes.engine fun t => ?_⟩
  split
  · exact Goes.refl _ t
  · next x _ _ =>
    extract_lets now before t1 t2
    have hacts : Goes (mask actRegs insertParts) t t1 := (Goes.refl _ t).each _ _ fun y u => u.goes_actOn c y
    have hedge : Goes (mask actRegs insertParts) t t2 := hacts.trans (t1.goes_edge c _ _ _ before)
    exact Goes.ite (Goes.refl _ t) ((hedge.step (t2.goes_setPlc c _) (by decide)).step (State.goes_refreshPins _) (by decide))

theorem execPulseReturnEdge_frame (c : Fin 192) (s : State) :
    ∃ t, execPulseReturnEdge c s = .next t ∧ Goes (mask actRegs insertParts) s t := by
  refine ⟨_, rfl, Goes.engine fun t => ?_⟩
  split
  · exact Goes.refl _ t
  · next r _ =>
    extract_lets before cell t1 t2
    have hlevel : Goes (mask actRegs insertParts) t t1 := (t.goes_setPlc c _).lift (by decide)
    have hmissed := hlevel.when (t1.cellHeld c && !r.missed) (·.bump .PIN_PLC_CNT_HOLD_MISS c 1) fun u =>
      (Goes.refl _ u).bump _ c 1 (mask_reg (by decide))
    have hedge : Goes (mask actRegs insertParts) t t2 := hmissed.trans (State.goes_edge _ c _ _ _ before)
    exact Goes.ite (Goes.refl _ t) ((hedge.step (t2.goes_setPlc c _) (by decide)).step (State.goes_refreshPins _) (by decide))

end Sys2Proof.Machine
end

section
/-! PROOFS. Calibration, outputs, banks, locks and PWM as frames, and with them what the commands of sorters and timed pins leave alone, O12. -/

namespace Sys2Proof.Machine

/-! ### Calibration (R140, R142) -/

theorem State.goes_postLetters (s : State) (m : Nat) (l : List (List Byte)) : Goes countMask s (s.postLetters m l) :=
  (Goes.refl _ s).each _ _ fun b t => (t.goes_perf ..).trans (State.goes_send _ m b).raise_count

theorem State.goes_postCompletion (s : State) (L : Letter) (bytes : List Byte) : Goes countMask s (s.postCompletion L bytes) :=
  Goes.ite (s.goes_setBox _ _).letter_raise.raise_count (s.goes_postLetters _ _)

/-- The registers and the parts of a service that completes. -/
def completeMask : Nat := mask (signals (counting [])) (signalled [.svc])

theorem State.goes_complete (s : State) (o : PendingOp) (st : Status) (handle postmark : Nat) (body : List Byte) :
    Goes completeMask s (s.complete o st handle postmark body) := by
  unfold State.complete
  extract_lets svc s1 L
  have hended : Goes completeMask s s1 := (Goes.refl _ s).set_svc _ (mask_part (by decide))
  exact Goes.ite hended (hended.step (s1.goes_postCompletion L _) (by decide))

theorem State.goes_completeOn (s : State) (opcode object : Nat) (st : Status) (body : List Byte) :
    Goes completeMask s (s.completeOn opcode object st body) := by
  unfold State.completeOn
  split
  · exact Goes.refl _ s
  · exact s.goes_complete ..

theorem State.goes_completeAll (s : State) (opcode object : Nat) (st : Status) (body : List Byte) :
    Goes completeMask s (s.completeAll opcode object st body) :=
  (Goes.refl _ s).each _ _ fun o t => t.goes_complete o st _ 0 body

/-- The registers of a calibration that is begun, and may be done at once. -/
def calRegs : List Reg := signals (counting [.PIN_CAL_CMD])

/-- The parts of a calibration. -/
def calParts : List Part := signalled [.pins, .svc]

theorem State.goes_calDone (s : State) : Goes (mask calRegs calParts) s s.calDone :=
  (((Goes.refl _ s).write _ 0 0 (by decide)).raised 7 (by decide)).step (State.goes_completeOn ..) (by decide)

theorem State.goes_calNext (s : State) : Goes (mask [] [.pins]) s s.calNext := (Goes.refl _ s).set_pins _ (mask_part (by decide))

theorem State.goes_calBegin (s : State) (m bank : Nat) (l : List Nat) : Goes (mask [.PIN_CAL_CMD] [.pins]) s (s.calBegin m bank l) := by
  unfold State.calBegin
  extract_lets s1
  have hcmd : Goes (mask [.PIN_CAL_CMD] [.pins]) s s1 :=
    (((Goes.refl _ s).write _ 0 _ (by decide)).write _ 0 _ (by decide)).write _ 0 1 (by decide)
  exact ((hcmd.set_pins _ (mask_part (by decide))).write _ 0 1 (by decide)).step (State.goes_calNext _) (by decide)

theorem State.goes_calStart (s : State) (m bank : Nat) : Goes (mask calRegs calParts) s (s.calStart m bank) := by
  unfold State.calStart
  extract_lets l s1
  have hbegun : Goes (mask calRegs calParts) s s1 := (s.goes_calBegin m bank l).lift (by decide)
  exact Goes.ite (hbegun.trans s1.goes_calDone) hbegun

/-- The registers of a write of PIN_CAL_CMD. -/
def calWriteRegs : List Reg := signals (counting (errors [.PIN_CAL_CMD]))

theorem State.goes_calWrite (s : State) (p : Port) (v : Nat) : Goes (mask calWriteRegs calParts) s (s.calWrite p v) :=
  Goes.ite ((s.goes_accessError ..).lift (by decide)) (Goes.ite ((s.goes_calStart _ _).lift (by decide))
    ((((Goes.refl _ s).write _ 0 _ (by decide)).write _ 0 _ (by decide)).write _ 0 0 (by decide)))

theorem State.goes_refreshUncal (s : State) (p : Nat) : Goes (mask [.PIN_PLC_STAT] []) s (s.refreshUncal p) :=
  (Goes.refl _ s).each _ _ fun c t => (Goes.refl _ t).write _ c _ (by decide)

/-- The registers of a pin whose measurement ends. -/
def pinDoneRegs : List Reg := .PIN_CAL_STAT :: .PIN_LOAD :: .PIN_PLC_STAT :: calRegs

theorem execPinCalPinDone_frame (r : LoadResult) (s : State) :
    ∃ t, execPinCalPinDone r s = .next t ∧ Goes (mask pinDoneRegs calParts) s t := by
  refine ⟨_, rfl, ?_⟩
  split
  · exact Goes.refl _ s
  · next q rest _ =>
    extract_lets x ok pins s1 s2 s3 s4
    have hleft : Goes (mask pinDoneRegs calParts) s s1 := (Goes.refl _ s).set_pins _ (mask_part (by decide))
    have hpulses : Goes (mask pinDoneRegs calParts) s s2 := hleft.when _ _ fun t => (Goes.refl _ t).emit _ (mask_part (by decide))
    have hload : Goes (mask pinDoneRegs calParts) s s3 := by
      simp only [s3]
      split
      · exact hpulses.write _ q _ (by decide)
      · exact hpulses
    have hnext : Goes (mask pinDoneRegs calParts) s s4 :=
      ((hload.write _ q _ (by decide)).step (State.goes_refreshUncal _ q) (by decide)).step (State.goes_calNext _) (by decide)
    exact Goes.ite (hnext.step s4.goes_calDone (by decide)) hnext

/-! ### Outputs (R145) -/

theorem State.goes_gpioWrite (s : State) (b v : Nat) : Goes (mask [.PIN_OUT] padParts) s (s.put .PIN_OUT_OUT b v).keepLevels :=
  ((Goes.refl _ s).write _ b v (by decide)).step (State.goes_keepLevels _) (by decide)

theorem State.goes_gpioMasked (s : State) (g lanes v : Nat) : Goes (mask [.PIN_OUT] padParts) s (s.gpioMasked g lanes v) :=
  ((Goes.refl _ s).each _ _ fun _ t => (Goes.refl _ t).write _ _ _ (by decide)).step (State.goes_keepLevels _) (by decide)

/-! ### Banks (R144, R146, R147) -/

/-- The parts of pads that are sampled. -/
def sampleParts : List Part := [.freeValues, .pins]

theorem State.goes_sampleBank (s : State) (b : Nat) : Goes (mask [.PIN_IN] sampleParts) s (s.sampleBank b) := by
  unfold State.sampleBank
  refine Goes.ite (Goes.refl _ s) ((Goes.refl _ s).each _ _ fun k t => ?_)
  split
  · exact ((Goes.refl _ t).set_pins _ (mask_part (by decide))).putBit _ b k _ (mask_reg (by decide))
  · exact ((Goes.refl _ t).putBit _ b k _ (mask_reg (by decide))).drew (mask_part (by decide))

theorem State.goes_holdBank (s : State) (b : Nat) : Goes (mask [.PIN_BANK_STAT, .PIN_IN] sampleParts) s (s.holdBank b) := by
  unfold State.holdBank
  extract_lets s1
  have hlatched : Goes (mask [.PIN_BANK_STAT, .PIN_IN] sampleParts) s s1 :=
    (Goes.refl _ s).each _ _ fun k t => (Goes.refl _ t).set_pins _ (mask_part (by decide))
  exact Goes.ite (Goes.refl _ s) ((hlatched.step (s1.goes_sampleBank b) (by decide)).write _ b 1 (by decide))

theorem State.goes_calAbort (s : State) (hit : Nat → Bool) : Goes (mask [] [.pins]) s (s.calAbort hit) :=
  Goes.ite ((Goes.refl _ s).set_pins _ (mask_part (by decide))) (Goes.refl _ s)

/-- The registers of a bank whose range is written. -/
def rangeRegs : List Reg := [.PIN_BANK_CTL, .PIN_BANK_STAT, .PIN_IN]

/-- The parts of a bank whose range is written. -/
def rangeParts : List Part := [.freeValues, .outputs, .pins, .timers]

theorem State.goes_beginRange (s : State) (b : Nat) : Goes (mask rangeRegs rangeParts) s (s.beginRange b) := by
  unfold State.beginRange
  extract_lets s1
  have hheld : Goes (mask rangeRegs rangeParts) s s1 :=
    (((s.goes_calAbort _).lift (by decide)).step (State.goes_holdBank _ b) (by decide)).set_timers _ (mask_part (by decide))
  exact hheld.set_pins _ (mask_part (by decide))

theorem State.goes_commandBank (s : State) (b r : Nat) : Goes (mask [] [.outputs, .pins]) s (s.commandBank b r) := by
  unfold State.commandBank
  split
  · exact Goes.ite (((Goes.refl _ s).set_pins _ (mask_part (by decide))).emit _ (mask_part (by decide))) (Goes.refl _ s)
  · exact Goes.refl _ s

theorem State.goes_commandBanks (s : State) : Goes (mask [] [.outputs, .pins]) s s.commandBanks :=
  (Goes.refl _ s).each _ _ fun b t => t.goes_commandBank b _

theorem State.goes_setRange (s : State) (b r : Nat) : Goes (mask rangeRegs rangeParts) s (s.setRange b r) := by
  have hrange : Goes (mask rangeRegs rangeParts) s (s.put .PIN_BANK_CTL_RANGE b r) := (Goes.refl _ s).write _ b r (by decide)
  exact Goes.ite ((Goes.refl _ s).write _ b 1 (by decide))
    (Goes.ite ((hrange.trans (State.goes_beginRange _ b)).step (State.goes_commandBank _ b r) (by decide)) hrange)

/-- The registers of a write of PIN_BANK_CTL. -/
def bankRegs : List Reg := signals (errors rangeRegs)

/-- The parts of a write of PIN_BANK_CTL. -/
def bankParts : List Part := signalled [.pins, .timers]

theorem State.goes_bankCtl (s : State) (p : Port) (b v : Nat) : Goes (mask bankRegs bankParts) s (s.bankCtl p b v) := by
  have hranged : Goes (mask bankRegs bankParts) s ((s.put .PIN_BANK_CTL_PMB_EN b (v / 8)).setRange b (v % 8)) :=
    ((Goes.refl _ s).write _ b _ (by decide)).step (State.goes_setRange _ b _) (by decide)
  exact Goes.ite ((s.goes_accessError ..).lift (by decide)) (hranged.step (State.goes_commandBanks _) (by decide))

theorem State.goes_releaseHold (s : State) (b : Nat) :
    Goes (mask (signals [.PIN_BANK_STAT, .PIN_IN]) (signalled [.flying, .pins, .trees])) s (s.releaseHold b) :=
  ((((Goes.refl _ s).write _ b 0 (by decide)).step (State.goes_sampleBank _ b) (by decide)).step (State.goes_keepLevels _) (by decide)).raised 7
    (by decide)

/-- The registers of an exit from STANDBY that ends (R476). -/
def wakeRegs : List Reg := signals (counting [.PWR_RGN_STAT, .PWR_STATE])

theorem State.goes_setVset (s : State) (n v : Nat) : Goes (mask [.PWR_RGN_STAT] []) s (s.setVset n v) :=
  ((Goes.refl _ s).write _ n _ (by decide)).write _ n _ (by decide)

theorem State.goes_arrive (s : State) (st : Nat) : Goes (mask wakeRegs (signalled [])) s (s.arrive st) := by
  unfold State.arrive
  extract_lets s1
  have hstate : Goes (mask wakeRegs (signalled [])) s s1 := ((Goes.refl _ s).write _ 0 st (by decide)).write _ 0 0 (by decide)
  exact (hstate.each _ _ fun n t => (t.goes_setVset n _).lift (by decide)).raised 12 (by decide)

theorem State.goes_wakeOn (s : State) : Goes (mask wakeRegs (signalled [.svc])) s s.wakeOn := by
  have hdone : Goes (mask wakeRegs (signalled [.svc])) s s.wakeDone :=
    ((Goes.refl _ s).each _ _ fun n t => (Goes.refl _ t).write _ n 0 (by decide)).step (State.goes_arrive _ 0) (by decide)
  exact Goes.ite (hdone.step (State.goes_completeAll ..) (by decide)) (Goes.refl _ s)

/-- The registers of a bank that switches. -/
def switchRegs : List Reg := .PIN_BANK_STAT :: .PIN_IN :: wakeRegs

/-- The parts of a bank that switches. -/
def switchParts : List Part := signalled [.flying, .pins, .svc, .trees]

theorem execBankRangeSwitch_frame (b : Fin 12) (s : State) :
    ∃ t, execBankRangeSwitch b s = .next t ∧ Goes (mask switchRegs switchParts) s t := by
  refine ⟨_, rfl, ?_⟩
  extract_lets r s1 pins s2
  have hforce : Goes (mask switchRegs switchParts) s s2 :=
    ((Goes.refl _ s).set_pins _ (mask_part (by decide))).set_pins _ (mask_part (by decide))
  have hreleased := hforce.step (s2.goes_releaseHold b) (by decide)
  exact Goes.ite (Goes.refl _ s) ((hreleased.step (State.goes_completeAll ..) (by decide)).step (State.goes_wakeOn _) (by decide))

/-! ### Locks and PWM (R151, R156) -/

theorem State.goes_setArm (s : State) (p : Port) (v : Nat) : Goes (mask [] [.pins]) s (s.setArm p v) :=
  (Goes.refl _ s).set_pins _ (mask_part (by decide))

theorem State.goes_lockArm (s : State) (p : Port) (v : Nat) : Goes (mask (signals [.PIN_GSTAT]) (signalled [.pins])) s (s.lockArm p v) :=
  Goes.ite ((Goes.ite (Goes.refl _ s) (s.goes_lockAbort p)).step (State.goes_setArm _ p _) (by decide))
    (Goes.ite ((s.goes_setArm p _).lift (by decide)) (s.goes_lockAbort p))

theorem State.goes_lockSet (s : State) (p : Port) (v : Nat) :
    Goes (mask (signals [.PIN_GSTAT, .PIN_LOCK]) (signalled [.pins])) s (s.lockSet p v) :=
  Goes.ite (((Goes.refl _ s).orFld _ _ _ (mask_reg (by decide))).step (State.goes_setArm _ p 0) (by decide))
    ((s.goes_lockAbort p).lift (by decide))

theorem State.goes_pwmTick (s : State) (i : Nat) :
    Goes (mask (signals [.PIN_GSTAT, .PIN_ICONF, .PIN_OCONF]) (signalled [.flying, .pins, .trees])) s (s.pwmTick i) := by
  unfold State.pwmTick
  split
  · exact ((Goes.refl _ s).set_pins _ (mask_part (by decide))).trans (State.goes_refreshPins _)
  · exact Goes.refl _ s

/-! ### The commands of sorters and timed pins -/

/-- A write to the PIN window breaks the lock sequence of its port, and is an access (R151). -/
theorem Goes.pinWrite {rs : List Reg} {ps : List Part} {g : State → State} (hg : ∀ t, Goes (mask rs ps) t (g t)) (s : State) (p : Port) (r : Reg)
    (i v : Nat) (hin : Inside (signals (errors [.PIN_GSTAT])) (signalled [.crossings, .pins, .waiting]) rs ps) :
    Goes (mask rs ps) s (s.pinWrite p r i v g) := by
  obtain ⟨hregs, hparts⟩ := hin
  refine Goes.access (fun t => ?_) s p r i true v ⟨List.Subset.trans (by decide) hregs, List.Subset.trans (by decide) hparts⟩
  exact ((t.goes_breakLock p).lift ⟨List.Subset.trans (by decide) hregs, List.Subset.trans (by decide) hparts⟩).trans (hg _)

/-- What an execution answers under shorter lists, in the words of a clause. -/
theorem Goes.answered {rs qs : List Reg} {ps os : List Part} {c : Instr} {s : State} (h : ∃ t, exec c s = .next t ∧ Goes (mask qs os) s t)
    (hin : Inside qs os rs ps) : ∃ t, exec c s = .next t ∧ Within rs ps s t := by
  obtain ⟨t, hexec, hgoes⟩ := h
  exact Goes.answers hexec (hgoes.lift hin)

/-- Settles O12: each command is one operation of the sorters or the pins, or one access, whose frame lies within the lists of its clause. -/
theorem frameOfSortersPins : Obligations.FrameOfSortersPins := by
  refine ⟨?_, ?_, ?_, ?_, ?_, ?_, ?_, ?_, ?_, ?_, ?_, ?_, ?_, ?_, ?_, ?_, ?_, ?_, ?_, ?_, ?_, ?_, ?_, ?_, ?_, ?_, ?_, ?_, ?_, ?_, ?_⟩
  -- insertion, range drops, due entries, releases and gates
  · exact fun p n v s => Goes.answers rfl <| Goes.accessAt (fun t => (t.goes_commitEntry p n _).lift (by decide)) s p _ _ _ _ _ (by decide)
  · exact fun n es s => Goes.answers rfl ((s.goes_streamInto n _).lift (by decide))
  · exact fun n s => Goes.answers rfl ((s.goes_rangeDrop n).lift (by decide))
  · exact fun n pm s => Goes.answers rfl (s.goes_markDue n _)
  · exact fun n after s => Goes.answered (execSorterRelease_frame n after s) (by decide)
  · exact fun g k s => Goes.answered (execGateSpaceOpens_frame g k s) (by decide)
  -- head reads, FLUSH, the control write and the read that clears
  · exact fun p n s => Goes.answers rfl <| Goes.access (fun t => (t.goes_readHead p n).lift (by decide)) s p _ _ _ _ (by decide)
  · exact fun p n s => Goes.answers rfl <| Goes.access (fun t => (t.goes_readHead p n).lift (by decide)) s p _ _ _ _ (by decide)
  · exact fun p n s => Goes.answers rfl <| Goes.access (fun t => (t.goes_flushCmd n).lift (by decide)) s p _ _ _ _ (by decide)
  · exact fun p n v s => Goes.answers rfl <| Goes.access (fun t => (t.goes_srtCtl n _).lift (by decide)) s p _ _ _ _ (by decide)
  · exact fun p n s => Goes.answers rfl <| Goes.access (fun t => (t.goes_readClear p _ n).lift (by decide)) s p _ _ _ _ (by decide)
  -- placement
  · exact fun n s => Goes.answered (execPlacementHandover_frame n s) (by decide)
  · exact fun n moment s => Goes.answered (execPlacementCommit_frame n moment s) (by decide)
  · exact fun c s => Goes.answered (execEdgePlaced_frame c s) (by decide)
  · exact fun c s => Goes.answered (execPulseReturnEdge_frame c s) (by decide)
  · exact fun p c s => Goes.answers rfl <| Goes.pinWrite (fun t => (t.goes_cellEnable c true).lift (by decide)) s p _ _ _ (by decide)
  · exact fun p c s => Goes.answers rfl <| Goes.pinWrite (fun t => (t.goes_cellEnable c false).lift (by decide)) s p _ _ _ (by decide)
  · exact fun p c s => Goes.answers rfl <| Goes.access (fun t => (t.goes_readClear p _ c).lift (by decide)) s p _ _ _ _ (by decide)
  -- calibration
  · exact fun b d s => Goes.answers rfl ((Goes.refl _ s).set_pins _ (mask_part (by decide)))
  · exact fun p v s => Goes.answers rfl <| Goes.pinWrite (fun t => (t.goes_calWrite p _).lift (by decide)) s p _ _ _ (by decide)
  · exact fun r s => Goes.answered (execPinCalPinDone_frame r s) (by decide)
  -- outputs
  · exact fun p b v s => Goes.answers rfl <| Goes.pinWrite (fun t => (t.goes_gpioWrite b _).lift (by decide)) s p _ _ _ (by decide)
  · exact fun p g lanes v s => Goes.answers rfl <| Goes.accessAt (fun t =>
      ((t.goes_breakLock p).lift (by decide)).step (State.goes_gpioMasked _ g _ _) (by decide)) s p _ _ _ _ _ (by decide)
  -- banks
  · exact fun p b v s => Goes.answers rfl <| Goes.pinWrite (fun t => (t.goes_bankCtl p b _).lift (by decide)) s p _ _ _ (by decide)
  · exact fun b s => Goes.answered (execBankRangeSwitch_frame b s) (by decide)
  · exact fun b s => Goes.answers rfl (Goes.ite (((Goes.refl _ s).write _ b 1 (by decide)).raised 7 (by decide)) (Goes.refl _ s))
  -- locks, supplies, PWM and inputs
  · exact fun p v s => Goes.answers rfl <| Goes.access (fun t => (t.goes_lockArm p _).lift (by decide)) s p _ _ _ _ (by decide)
  · exact fun p v s => Goes.answers rfl <| Goes.access (fun t => (t.goes_lockSet p _).lift (by decide)) s p _ _ _ _ (by decide)
  · exact fun b v s => Goes.answers rfl ((Goes.refl _ s).set_pins _ (mask_part (by decide)))
  · exact fun i s => Goes.answers rfl <| Goes.engine fun t => t.goes_pwmTick i
  · exact fun q d s => Goes.answers rfl <|
      (((Goes.refl _ s).set_pins _ (mask_part (by decide))).step (State.goes_sampleBank _ _) (by decide)).step (State.goes_keepLevels _) (by decide)

end Sys2Proof.Machine
end

section
/-! PROOFS. Stacked memory as frames: lines and their seal engines, the homes with their requests, and the writes of the firmware and of the store. -/

namespace Sys2Proof.Machine

/-! ### Lines, tags and the counter tree (R323..R331) -/

/-- A change of what the stacks hold that leaves their bytes alone. -/
theorem State.goes_setMem (s : State) (g : MemState → MemState) (hg : ∀ m, (g m).bytes = m.bytes := by exact fun _ => rfl) :
    Goes (mask [] [.memo]) s (s.setMem g) :=
  (Goes.refl _ s).set_memo _ (mask_part (by decide)) fun w => by rw [hg]; exact w

theorem State.goes_setSeal (s : State) (g : SealState → SealState) : Goes (mask [] [.seals]) s (s.setSeal g) :=
  (Goes.refl _ s).set_seals _ (mask_part (by decide))

theorem putBytes_wf (m : Tbl Byte) (a : Nat) (l : List Byte) (h : Tbl.wf (0 : Byte) m = true) : Tbl.wf (0 : Byte) (putBytes m a l) = true := by
  induction l generalizing m a with
  | nil => exact h
  | cons b l ih => exact ih _ _ (Tbl.wf_set h a b)

theorem State.goes_putRaw (s : State) (l v : Nat) : Goes (mask [] [.memo]) s (s.putRaw l v) :=
  (Goes.refl _ s).set_memo _ (mask_part (by decide)) (putBytes_wf _ _ _)

/-- The parts of a line that is written with its tag and counters. -/
def lineParts : List Part := [.freeValues, .memo, .seals]

theorem State.goes_putSealed (s : State) (l v : Nat) : Goes (mask [] lineParts) s (s.putSealed l v) := by
  unfold State.putSealed
  extract_lets c t
  exact ((s.goes_putRaw l c).lift (by decide)).step (State.goes_setSeal _ _) (by decide)

theorem State.goes_putLine (s : State) (l v : Nat) : Goes (mask [] lineParts) s (s.putLine l v) :=
  Goes.ite (s.goes_putSealed l v) ((s.goes_putRaw l v).lift (by decide))

theorem State.goes_tagNode (s : State) (level stack i : Nat) : Goes (mask [] [.seals]) s (s.tagNode level stack i) := by
  unfold State.tagNode
  exact s.goes_setSeal _

theorem State.goes_raiseParent (s : State) (level stack i : Nat) : Goes (mask [] [.seals]) s (s.raiseParent level stack i) :=
  Goes.ite (s.goes_setSeal _) <| Goes.ite
    (((s.goes_setSeal _).trans (State.goes_setSeal _ _)).each _ _ fun _ t => t.goes_tagNode level stack _)
    ((s.goes_setSeal _).trans (State.goes_setSeal _ _))

theorem State.goes_writeNode (s : State) (level stack i : Nat) : Goes (mask [] [.seals]) s (s.writeNode level stack i) :=
  ((s.goes_setSeal _).trans (State.goes_raiseParent _ level stack i)).trans (State.goes_tagNode _ level stack i)

theorem State.goes_dropMeta (s : State) (k : Nat) : Goes (mask [] [.seals]) s (s.dropMeta k) :=
  Goes.ite ((s.goes_setSeal _).trans (State.goes_writeNode _ _ _ _)) (s.goes_setSeal _)

theorem State.goes_evictMeta (s : State) (stack : Nat) (l : List (Nat × Nat)) : Goes (mask [] [.seals]) s (s.evictMeta stack l) :=
  (Goes.refl _ s).each _ _ fun k t => Goes.ite (t.goes_dropMeta k) (Goes.refl _ t)

theorem State.goes_cacheMeta (s : State) (ks : List Nat) : Goes (mask [] lineParts) s (s.cacheMeta ks) := by
  refine (Goes.refl _ s).each _ _ fun k t => ?_
  extract_lets c t1
  have hroom : Goes (mask [] lineParts) t t1 :=
    Goes.ite (Goes.refl _ t) (((Goes.refl _ t).drew (mask_part (by decide))).step (State.goes_dropMeta _ _) (by decide))
  exact hroom.step (t1.goes_setSeal _) (by decide)

/-! ### Reads and writes of a line (R310, R329..R331) -/

/-- The registers of a line that is read or written through its engine. -/
def memRegs : List Reg := signals (counting [.MEM_STK_ECNT, .MEM_STK_ERR, .MEM_STK_ERRADDR, .SEAL_LINE_CNT, .SEAL_LINE_ERR, .SEAL_LINE_ERRADDR])

/-- The parts of such a line. -/
def memParts : List Part := signalled [.memo, .seals]

theorem State.goes_sealFail (s : State) (l : Nat) (group uncorr : Bool) : Goes (mask memRegs memParts) s (s.sealFail l group uncorr) := by
  unfold State.sealFail
  extract_lets k first s1 rises s2 s3
  have hline : Goes (mask memRegs memParts) s s1 := (Goes.refl _ s).writeIf _ _ k l (by decide)
  have hflag : Goes (mask memRegs memParts) s s2 :=
    Goes.ite (hline.write _ k 1 (by decide)) ((hline.write _ k 1 (by decide)).bump _ k 1 (mask_reg (by decide)))
  have hgroup : Goes (mask memRegs memParts) s s3 := hflag.writeIf _ _ k 1 (by decide)
  exact (hgroup.step (s3.goes_perf ..) (by decide)).when _ _ fun t => (Goes.refl _ t).raised _ (by decide)

theorem State.goes_stackUncorr (s : State) (l : Nat) : Goes (mask memRegs memParts) s (s.stackUncorr l) :=
  ((((Goes.refl _ s).writeIf _ _ _ l (by decide)).write _ _ 1 (by decide)).bump _ _ 1 (mask_reg (by decide))).raised _ (by decide)

theorem State.goes_stackCorr (s : State) (l : Nat) : Goes (mask memRegs memParts) s (s.stackCorr l) :=
  ((Goes.refl _ s).write _ _ 1 (by decide)).bump _ _ 1 (mask_reg (by decide))

theorem State.goes_touchMeta (s : State) (l : Nat) (t : Touch) : Goes (mask memRegs memParts) s (s.touchMeta l t) := by
  unfold State.touchMeta
  extract_lets k levels tag n s1 s2 key mk bad
  have hcount : Goes (mask memRegs memParts) s s1 := Goes.ite ((s.goes_perf ..).lift (by decide)) ((s.goes_perf ..).lift (by decide))
  have hevict : Goes (mask memRegs memParts) s s2 := hcount.step (s1.goes_evictMeta k _) (by decide)
  exact Goes.ite (hevict.step (s2.goes_cacheMeta _) (by decide)) (hevict.step (s2.goes_setSeal _) (by decide))

/-- A line under a node that does not check fails (R330). -/
theorem State.goes_failBeneath (s : State) (l : Nat) (c : Bool) :
    Goes (mask memRegs memParts) s ((s.when c (·.stackUncorr l)).sealFail l true (s.nodeUncorr l)) :=
  ((Goes.refl _ s).when _ _ fun t => t.goes_stackUncorr l).trans (State.goes_sealFail _ l true _)

theorem State.goes_memRead (s : State) (l : Nat) (t : Touch) (x : Option Xfer) : Goes (mask memRegs memParts) s (s.memRead l t x).1 := by
  unfold State.memRead
  extract_lets k s1 sealed s2 kept s3 s4 s5
  have hcount : Goes (mask memRegs memParts) s s1 := (s.goes_perf ..).lift (by decide)
  have htouch : Goes (mask memRegs memParts) s s2 := hcount.when _ _ fun u => u.goes_touchMeta l t
  have hcorr : Goes (mask memRegs memParts) s s3 := htouch.when _ _ fun u => u.goes_stackCorr l
  have huncorr : Goes (mask memRegs memParts) s s4 := (hcorr.trans (s3.goes_stackUncorr l)).step (State.goes_setSeal _ _) (by decide)
  have hfails : Goes (mask memRegs memParts) s s5 := hcorr.step (s3.goes_setSeal _) (by decide)
  exact Goes.iteFst (hcorr.trans (s3.goes_failBeneath l _)) (Goes.iteFst (huncorr.when _ _ fun u => u.goes_sealFail l false true)
    (Goes.iteFst (hfails.trans (s5.goes_sealFail l false false)) hcorr))

theorem State.goes_checkHeld (s : State) (j : Nat) : Goes (mask memRegs memParts) s (s.checkHeld j) :=
  Goes.ite (Goes.refl _ s) (((s.goes_setSeal _).lift (by decide)).trans (State.goes_sealFail _ j false false))

theorem State.goes_reencrypt (s : State) (l : Nat) : Goes (mask memRegs memParts) s (s.reencrypt l) := by
  unfold State.reencrypt
  extract_lets k g group s1 held s2
  have hchecked : Goes (mask memRegs memParts) s s1 := (Goes.refl _ s).each _ _ fun j t => t.goes_checkHeld j
  have hmajor : Goes (mask memRegs memParts) s s2 := hchecked.step (s1.goes_setSeal _) (by decide)
  have hlines := hmajor.each held (fun e t => t.putSealed e.1 e.2) fun e t => (t.goes_putSealed e.1 e.2).lift (by decide)
  exact (hlines.bump _ k 1 (mask_reg (by decide))).step (State.goes_perf ..) (by decide)

theorem State.goes_countWrite (s : State) (l : Nat) : Goes (mask memRegs memParts) s (s.countWrite l) := by
  unfold State.countWrite
  extract_lets g s1
  have hsoil : Goes (mask memRegs memParts) s s1 := (s.goes_setSeal _).lift (by decide)
  exact Goes.ite (hsoil.trans (s1.goes_reencrypt l)) (hsoil.step (s1.goes_setSeal _) (by decide))

theorem State.goes_memWrite (s : State) (l v : Nat) (t : Touch) (x : Option Xfer) : Goes (mask memRegs memParts) s (s.memWrite l v t x).1 := by
  unfold State.memWrite
  extract_lets k s1 s2 s3
  have hcount : Goes (mask memRegs memParts) s s1 := (s.goes_perf ..).lift (by decide)
  have htouch : Goes (mask memRegs memParts) s s2 := hcount.trans (s1.goes_touchMeta l t)
  have hcounted : Goes (mask memRegs memParts) s s3 := (htouch.trans (s2.goes_countWrite l)).step (State.goes_setSeal _ _) (by decide)
  exact Goes.iteFst (Goes.iteFst (htouch.trans (s2.goes_failBeneath l _)) (hcounted.step (s3.goes_putLine l v) (by decide)))
    ((hcount.step (s1.goes_setSeal _) (by decide)).step (State.goes_putLine _ l v) (by decide))

/-! ### The homes and their messages (R299..R303) -/

/-- The registers of a home that serves its lines. -/
def homeRegs : List Reg := .CFG_AGT_STAT :: .LANE_ETH_RXWR :: .MEM_HOME_CNT :: .MEM_HOME_STAT :: memRegs

/-- The parts of a home that serves its lines. -/
def homeParts : List Part := .crossings :: memParts

theorem State.goes_fillMsgs (s : State) (k : Nat) (toHome : Bool) : Goes (mask [] [.crossings, .memo]) s (s.fillMsgs k toHome) := by
  unfold State.fillMsgs
  extract_lets c r
  exact ((s.goes_setMem _).lift (by decide)).step (State.goes_setCrossing _ _ _) (by decide)

theorem State.goes_post (s : State) (kind : MsgKind) (who l data aux : Nat) : Goes (mask [] [.crossings, .memo]) s (s.post kind who l data aux) := by
  unfold State.post
  extract_lets k
  exact ((s.goes_setMem _).lift (by decide)).trans (State.goes_fillMsgs _ _ _)

theorem State.goes_setCached (s : State) (a l : Nat) (x : CLine) : Goes (mask [.CFG_AGT_STAT] [.memo]) s (s.setCached a l x) := by
  unfold State.setCached
  extract_lets s1
  have hline : Goes (mask [.CFG_AGT_STAT] [.memo]) s s1 := (s.goes_setMem _).lift (qs := []) (os := [.memo]) (by decide)
  exact Goes.ite (hline.write _ a _ (by decide)) hline

theorem State.goes_setDir (s : State) (l : Nat) (d : DirLine) : Goes (mask [] [.memo]) s (s.setDir l d) := s.goes_setMem _

theorem State.goes_showHome (s : State) (k : Nat) : Goes (mask [.MEM_HOME_STAT] []) s (s.showHome k) :=
  ((Goes.refl _ s).write _ k _ (by decide)).write _ k _ (by decide)

theorem State.goes_took (s : State) (l : Nat) (r : HomeReq) : Goes countMask s (s.took l r) :=
  (s.goes_perf ..).when _ _ fun t => t.goes_perf ..

theorem State.goes_fetch (s : State) (l : Nat) (r : HomeReq) (a : Option Nat) : Goes (mask memRegs memParts) s (s.fetch l r a).1 := by
  unfold State.fetch
  split
  · exact Goes.refl _ s
  · exact s.goes_memRead ..

theorem State.goes_snoop (s : State) (kind : MsgKind) (l : Nat) (req : Option HomeReq) (discard : Bool) (agents : List Nat) :
    Goes (mask homeRegs homeParts) s (s.snoop kind l req discard agents) := by
  unfold State.snoop
  extract_lets s1
  have hasked : Goes (mask homeRegs homeParts) s s1 :=
    (Goes.refl _ s).each _ _ fun a t => ((t.goes_post ..).lift (by decide)).step (State.goes_perf ..) (by decide)
  exact hasked.step (s1.goes_setDir l _) (by decide)

/-! ### Requests end and begin (R301, R303) -/

theorem State.goes_allocate (s : State) (d : DirLine) : Goes (mask [] [.memo]) s (s.allocate d).1 :=
  Goes.iteFst (Goes.pairFst (s.goes_setMem _)) (Goes.refl _ s)

theorem State.goes_grant (s : State) (l : Nat) (r : HomeReq) (msg : MsgKind) (data aux st : Nat) (sharers : List Nat) (owner : Nat) :
    Goes (mask homeRegs homeParts) s (s.grant l r msg data aux st sharers owner) :=
  (((s.goes_allocate _).lift (by decide)).step (State.goes_setDir _ l _) (by decide)).step (State.goes_post ..) (by decide)

theorem State.goes_finishNoGrant (s : State) (l : Nat) (r : HomeReq) (msg : MsgKind) (data status : Nat) :
    Goes (mask homeRegs homeParts) s (s.finishNoGrant l r msg data status) :=
  ((s.goes_setDir l _).lift (by decide)).step (State.goes_post ..) (by decide)

theorem State.goes_endShared (s : State) (l : Nat) (r : HomeReq) (a : Option Nat) (sharers : List Nat) :
    Goes (mask homeRegs homeParts) s (s.endShared l r a sharers) := by
  unfold State.endShared
  extract_lets f
  have hfetch : Goes (mask homeRegs homeParts) s f.1 := (s.goes_fetch l r a).lift (by decide)
  exact Goes.ite ((hfetch.step (f.1.goes_setDir l _) (by decide)).trans (State.goes_finishNoGrant ..)) (hfetch.trans (f.1.goes_grant ..))

theorem State.goes_endOwn (s : State) (l : Nat) (r : HomeReq) (a : Option Nat) (dirty : Bool) :
    Goes (mask homeRegs homeParts) s (s.endOwn l r a dirty) := by
  unfold State.endOwn
  extract_lets d shares f
  have hfetch : Goes (mask homeRegs homeParts) s f.1 := (s.goes_fetch l r a).lift (by decide)
  exact Goes.ite (s.goes_grant ..)
    (Goes.ite ((hfetch.step (f.1.goes_setDir l _) (by decide)).trans (State.goes_finishNoGrant ..)) (hfetch.trans (f.1.goes_grant ..)))

theorem State.goes_endCur (s : State) (l : Nat) (r : HomeReq) (a : Option Nat) : Goes (mask homeRegs homeParts) s (s.endCur l r a) :=
  ((s.goes_fetch l r a).lift (by decide)).trans (State.goes_finishNoGrant ..)

theorem State.goes_endPtl (s : State) (l : Nat) (r : HomeReq) (a : Option Nat) : Goes (mask homeRegs homeParts) s (s.endPtl l r a) := by
  unfold State.endPtl
  extract_lets s1 f w
  have hfreed : Goes (mask homeRegs homeParts) s s1 := (s.goes_setDir l _).lift (by decide)
  have hfetch : Goes (mask homeRegs homeParts) s f.1 := Goes.iteFst hfreed (hfreed.step (s1.goes_fetch l r a) (by decide))
  have hwrite : Goes (mask homeRegs homeParts) s w.1 := hfetch.step (f.1.goes_memWrite ..) (by decide)
  exact Goes.ite (hfetch.trans (f.1.goes_finishNoGrant ..)) (hwrite.trans (w.1.goes_finishNoGrant ..))

theorem State.goes_beginReq (s : State) (l : Nat) (r : HomeReq) (a : Option Nat) : Goes (mask homeRegs homeParts) s (s.beginReq l r a) := by
  simp only [State.beginReq]
  split
  · exact s.goes_snoop ..
  · exact s.goes_endShared ..
  · exact s.goes_snoop ..
  · exact Goes.ite (s.goes_endOwn ..) (s.goes_snoop ..)
  · exact s.goes_endOwn ..
  · exact s.goes_snoop ..
  · exact s.goes_endCur ..
  · exact s.goes_snoop ..
  · exact Goes.ite (s.goes_endPtl ..) (s.goes_snoop ..)
  · exact s.goes_endPtl ..

theorem State.goes_recall (s : State) (l : Nat) (discard : Bool) : Goes (mask homeRegs homeParts) s (s.recall l discard) := by
  unfold State.recall
  extract_lets d s1
  have hcount : Goes (mask homeRegs homeParts) s s1 := (Goes.refl _ s).when _ _ fun t =>
    ((Goes.refl _ t).bump _ _ 1 (mask_reg (by decide))).step (State.goes_perf ..) (by decide)
  exact Goes.ite (hcount.step (s1.goes_setDir l _) (by decide)) (hcount.trans (s1.goes_snoop ..))

theorem State.goes_serveLine (n : Nat) (s : State) (l : Nat) : Goes (mask homeRegs homeParts) s (State.serveLine n s l) := by
  induction n generalizing s with
  | zero => exact Goes.refl _ s
  | succ n ih =>
    unfold State.serveLine
    extract_lets d
    split
    · refine Goes.ite (Goes.refl _ s) (Goes.ite ?_ ?_)
      · split
        · exact Goes.ite (s.goes_recall _ false) (Goes.refl _ s)
        · exact Goes.refl _ s
      · extract_lets s1
        have htook : Goes (mask homeRegs homeParts) s s1 := ((s.goes_setDir l _).lift (by decide)).step (State.goes_took _ l _) (by decide)
        exact (htook.trans (s1.goes_beginReq l _ none)).trans (ih _)
    · exact Goes.refl _ s

theorem State.goes_serveSet (s : State) (l : Nat) : Goes (mask homeRegs homeParts) s (s.serveSet l) :=
  (Goes.refl _ s).each _ _ fun k t => State.goes_serveLine _ t k

/-! ### Writes by requesters that hold no lines (R297, R303, R309) -/

theorem State.goes_ioLine (s : State) (who l data bytes : Nat) : Goes (mask homeRegs homeParts) s (s.ioLine who l data bytes) := by
  unfold State.ioLine
  extract_lets d x have? s1 s2 s3 f
  have hcount : Goes (mask homeRegs homeParts) s s1 := (s.goes_perf ..).lift (by decide)
  have hgiven : Goes (mask homeRegs homeParts) s s2 := hcount.each _ _ fun a t =>
    ((t.goes_perf ..).lift (by decide)).step (State.goes_setCached _ a l _) (by decide)
  have hfreed : Goes (mask homeRegs homeParts) s s3 := hgiven.step (s2.goes_setDir l _) (by decide)
  have hfetch : Goes (mask homeRegs homeParts) s f.1 := by
    refine Goes.iteFst hfreed ?_
    cases have? with
    | some v => exact hfreed
    | none => exact hfreed.step (s3.goes_memRead ..) (by decide)
  exact Goes.ite hfetch (hfetch.step (f.1.goes_memWrite ..) (by decide))

theorem State.goes_doWrite (s : State) (w : MemWrite) : Goes (mask homeRegs homeParts) s (s.doWrite w) := by
  unfold State.doWrite
  extract_lets s1 s2
  have hlines : Goes (mask homeRegs homeParts) s s1 := (Goes.refl _ s).each _ _ fun l t => t.goes_ioLine ..
  have hshown : Goes (mask homeRegs homeParts) s s2 := by
    simp only [s2]
    split
    · exact hlines.write _ _ _ (by decide)
    · exact hlines
  exact hshown.each _ _ fun k t => (t.goes_showHome k).lift (by decide)

theorem goes_pumpFrom (l kept : List MemWrite) (s : State) : Goes (mask homeRegs homeParts) s (pumpFrom l kept s).1 := by
  induction l generalizing s kept with
  | nil => exact Goes.refl _ s
  | cons w l ih => exact Goes.iteFst ((s.goes_doWrite w).trans (ih _ _)) (ih _ _)

theorem State.goes_pumpWrites (s : State) : Goes (mask homeRegs homeParts) s s.pumpWrites := by
  unfold State.pumpWrites
  exact (goes_pumpFrom _ [] s).step (State.goes_setMem _ _) (by decide)

theorem State.goes_serveNext (s : State) (l : Nat) : Goes (mask homeRegs homeParts) s (s.serveNext l) := by
  unfold State.serveNext
  extract_lets s1
  have hpumped : Goes (mask homeRegs homeParts) s s1 :=
    ((Goes.refl _ s).when _ _ fun t => t.goes_recall l true).trans (State.goes_pumpWrites _)
  exact ((hpumped.trans (State.goes_serveLine _ s1 l)).trans (State.goes_serveSet _ l)).step (State.goes_showHome _ _) (by decide)

theorem State.goes_ioWrite (s : State) (who a : Nat) (bs : List Byte) (shown : Option (Nat × Nat)) :
    Goes (mask homeRegs homeParts) s (s.ioWrite who a bs shown) :=
  (((s.goes_setMem _).lift (by decide)).trans (State.goes_pumpWrites _)).each _ _ fun l t => t.goes_serveNext l

end Sys2Proof.Machine
end

section
/-! PROOFS. What the firmware's services share, as frames: replies and objects, messages to partners, the lease journal, series and leases. -/

namespace Sys2Proof.Machine

/-! ### Replies, objects and services (R349, R356, R358, R373..R376) -/

theorem State.goes_postAnswers (s : State) (m : Nat) : Goes countMask s (s.postAnswers m) := by
  refine (Goes.refl _ s).each _ _ fun L t => ?_
  extract_lets b
  split
  · exact Goes.refl _ t
  · exact Goes.ite ((t.goes_setBox m _).letter_raise.raise_count.trans (State.goes_postLetters _ m _)) (Goes.refl _ t)

theorem State.goes_reply (s : State) (L : Letter) (r : Reply) : Goes countMask s (s.reply L r) :=
  have hbox (b : Mailbox) : Goes countMask s (s.setBox L.mailbox.val b) := (s.goes_setBox _ b).letter_raise.raise_count
  Goes.ite (hbox _) (Goes.ite (s.goes_postLetters _ _) (Goes.ite (Goes.refl _ s) ((hbox _).trans (State.goes_postAnswers _ _))))

/-- The registers and the parts of an object that is created or ends. -/
def objectMask : Nat := mask (signals []) (signalled [.svc])

theorem State.goes_createAt (s : State) (kind i m : Nat) : Goes objectMask s (s.createAt kind i m) :=
  ((Goes.refl _ s).set_svc _ (mask_part (by decide))).when _ _ fun t => (Goes.refl _ t).raised 219 (by decide)

theorem State.goes_destroy (s : State) (kind i : Nat) : Goes objectMask s (s.destroy kind i) :=
  Goes.ite ((Goes.refl _ s).set_svc _ (mask_part (by decide))) (Goes.refl _ s)

theorem State.goes_accept (s : State) (L : Letter) (object : Nat) (args : List Nat) : Goes objectMask s (s.accept L object args) :=
  ((Goes.refl _ s).set_svc _ (mask_part (by decide))).when _ _ fun t => (Goes.refl _ t).raised 219 (by decide)

theorem State.goes_cancelOps (s : State) (p : PendingOp → Bool) : Goes completeMask s (s.cancelOps p) :=
  (Goes.refl _ s).each _ _ fun _ t => t.goes_complete ..

/-- A letter waits, is refused, or has its service and its reply. -/
theorem Goes.serve {rs : List Reg} {ps : List Part} {g : Service} (hg : ∀ b t, Goes (mask rs ps) t (g b t).1) (s : State) (L : Letter) (o : Offer)
    (exempt : Bool) (hin : Inside (signals (counting [])) (signalled []) rs ps) : Goes (mask rs ps) s (s.serve L o exempt g) := by
  have hreply (t : State) (r : Reply) : Goes (mask rs ps) t (t.reply L r) := (t.goes_reply L r).lift hin
  refine Goes.ite (Goes.refl _ s) ?_
  split
  · exact hreply s _
  · next b _ => exact Goes.ite (hreply s _) ((hg b s).trans (hreply _ _))

/-! ### Messages over links (R203, R265, R270) -/

/-- The registers and the parts of a flit that is sent. -/
def flitMask : Nat := mask (signals (counting [])) (signalled [.links])

theorem State.goes_stripe (s : State) (m vl : Nat) (first : Bool) (seq : Option Nat) (body : List Byte) :
    Goes (mask [] slotParts) s (s.stripe m vl first seq body) :=
  ((s.goes_updLink m _).trans (State.goes_putFlit _ _ _ _ _)).when _ _ fun t => t.goes_round m

theorem State.goes_passBulk (s : State) (m n : Nat) : Goes (mask [] slotParts) s (s.passBulk m n) := by
  unfold State.passBulk
  exact s.goes_updLink m _

theorem State.goes_sendFlit (s : State) (m : Nat) (f : Flit) : Goes flitMask s (s.sendFlit m f) := by
  unfold State.sendFlit
  extract_lets s1 q s2
  have hbulk : Goes (mask [] slotParts) s s1 := Goes.ite (s.goes_updLink m _) (s.goes_passBulk m 1)
  have hsent : Goes (mask [] slotParts) s s2 := hbulk.trans (s1.goes_updLink m _)
  exact ((hsent.trans (s2.goes_stripe ..)).lift (by decide)).step (State.goes_perf ..) (by decide)

theorem State.goes_pumpFlits (n : Nat) (s : State) (m : Nat) : Goes flitMask s (State.pumpFlits n s m) := by
  induction n generalizing s with
  | zero => exact Goes.refl _ s
  | succ n ih =>
    unfold State.pumpFlits
    split
    · exact (s.goes_sendFlit m _).trans (ih _)
    · exact Goes.refl _ s

theorem State.goes_postMessage (s : State) (m vl : Nat) (bytes : List Byte) : Goes flitMask s (s.postMessage m vl bytes) :=
  Goes.ite (((s.goes_updLink m _).lift (by decide)).trans (State.goes_pumpFlits _ _ m)) (Goes.refl _ s)

theorem State.goes_stitchMessage (s : State) (m kind : Nat) (data : List Nat) : Goes flitMask s (s.stitchMessage m kind data) :=
  ((Goes.refl _ s).emit _ (mask_part (by decide))).trans (State.goes_postMessage _ m 2 _)

theorem State.goes_ringSend (s : State) (r kind : Nat) (data : List Nat) : Goes flitMask s (s.ringSend r kind data) :=
  Goes.ite ((Goes.refl _ s).each _ _ fun p t => ((Goes.refl _ t).emit _ (mask_part (by decide))).trans (State.goes_postMessage _ p 2 _))
    (Goes.refl _ s)

/-! ### The lease journal (R228, R433..R437) -/

/-- The registers of flash blocks that are written or erased. -/
def flashRegs : List Reg := signals [.CFG_NVM_ERR, .CFG_NVM_STAT, .CFG_NVM_WEAR]

/-- The parts of such blocks. -/
def flashParts : List Part := signalled [.config]

theorem State.goes_setConfig (s : State) (g : ConfigState → ConfigState) : Goes (mask [] [.config]) s (s.setConfig g) :=
  (Goes.refl _ s).set_config _ (mask_part (by decide))

theorem State.goes_setBlock (s : State) (b : Nat) (x : NvmBlock) : Goes (mask flashRegs flashParts) s (s.setBlock b x) :=
  ((((s.goes_setConfig _).lift (by decide)).write _ 0 _ (by decide)).write _ 0 _ (by decide)).write _ 0 _ (by decide)

theorem State.goes_showErase (s : State) : Goes (mask flashRegs flashParts) s s.showErase :=
  ((Goes.refl _ s).write _ 0 _ (by decide)).writeIf _ _ 0 0 (by decide)

theorem State.goes_areaReadOnly (s : State) (b : Nat) : Goes (mask flashRegs flashParts) s (s.areaReadOnly b) :=
  (((Goes.refl _ s).orFld _ 0 _ (mask_reg (by decide))).write _ 0 1 (by decide)).raised 228 (by decide)

theorem State.goes_directory (s : State) : Goes (mask flashRegs flashParts) s s.directory :=
  ((s.goes_setConfig _).lift (by decide)).raised 231 (by decide)

theorem State.goes_retire (s : State) (b : Nat) : Goes (mask flashRegs flashParts) s (s.retire b) := by
  unfold State.retire
  extract_lets left s1 s2
  have hspare : Goes (mask flashRegs flashParts) s s2 :=
    (((s.goes_setBlock b _).write _ 0 _ (by decide)).write _ 0 1 (by decide)).raised 226 (by decide)
  have hfew := hspare.when (decide (left ≤ 9)) (·.raise 227) fun t => (Goes.refl _ t).raised 227 (by decide)
  exact Goes.ite (Goes.refl _ s) (Goes.ite (s.goes_areaReadOnly b) (hfew.trans (State.goes_directory _)))

theorem State.goes_startErase (s : State) (b : Nat) : Goes (mask flashRegs flashParts) s (s.startErase b).1 := by
  unfold State.startErase
  extract_lets worn s1 x s2
  have hworn : Goes (mask flashRegs flashParts) s s1 := Goes.ite (s.goes_retire b) (Goes.refl _ s)
  have hbegun : Goes (mask flashRegs flashParts) s s2 := hworn.trans (s1.goes_setBlock b _)
  exact Goes.iteFst (Goes.ite (Goes.refl _ s) (s.goes_areaReadOnly b))
    ((hbegun.step (s2.goes_setConfig _) (by decide)).trans (State.goes_showErase _))

theorem State.goes_areaRecord (s : State) (first n : Nat) : Goes (mask flashRegs flashParts) s (s.areaRecord first n) :=
  Goes.ite (Goes.refl _ s) (Goes.ite (s.goes_setBlock _ _) ((s.goes_setBlock _ _).trans (State.goes_startErase _ _)))

/-- The parts of a journalled record. -/
def journalParts : List Part := .lease :: flashParts

theorem State.goes_journal (s : State) : Goes (mask flashRegs journalParts) s s.journal :=
  Goes.ite (Goes.refl _ s) (((Goes.refl _ s).set_lease _ (mask_part (by decide))).step (State.goes_areaRecord _ _ _) (by decide))

/-! ### Series and leases (R224..R230) -/

theorem State.goes_setLease (s : State) (g : LeaseState → LeaseState) : Goes (mask [] [.lease]) s (s.setLease g) :=
  (Goes.refl _ s).set_lease _ (mask_part (by decide))

theorem State.goes_updLease (s : State) (idx : Nat) (g : Lease → Lease) : Goes (mask [] [.lease]) s (s.updLease idx g) := s.goes_setLease _

/-- The registers of a request for a lease. -/
def leaseRegs : List Reg := .PERF_CNT :: .PERF_OVF :: flashRegs

/-- The parts of a request for a lease. -/
def leaseParts : List Part := .links :: .svc :: .timers :: journalParts

theorem State.goes_startTimer (s : State) (t : Timer) (i : Nat) : Goes (mask [] [.timers]) s (s.startTimer t i) :=
  (Goes.refl _ s).set_timers _ (mask_part (by decide))

theorem State.goes_refuseLease (s : State) (series : Nat) (letter : Option Letter) (st : Status) :
    Goes (mask leaseRegs leaseParts) s (s.refuseLease series letter st) := by
  unfold State.refuseLease
  extract_lets s1 s2
  have hended : Goes (mask leaseRegs leaseParts) s s1 := (s.goes_setLease _).lift (by decide)
  have htimed : Goes (mask leaseRegs leaseParts) s s2 := hended.step (s1.goes_startTimer _ series) (by decide)
  cases letter with
  | some L => exact hended.step (s1.goes_reply L _) (by decide)
  | none => exact Goes.ite htimed ((htimed.step (s2.goes_setLease _) (by decide)).raised 214 (by decide))

theorem State.goes_raiseHigh (s : State) (series h : Nat) : Goes (mask flashRegs journalParts) s (s.raiseHigh series h) := by
  unfold State.raiseHigh
  split
  · exact Goes.refl _ s
  · exact Goes.ite (Goes.refl _ s) (s.goes_journal.step (State.goes_setLease _ _) (by decide))

theorem State.goes_grantLease (s : State) (q : LeaseReq) : Goes (mask leaseRegs leaseParts) s (s.grantLease q) := by
  unfold State.grantLease
  split
  · exact s.goes_refuseLease ..
  · next i _ =>
    extract_lets m s1 s2 s3
    have hjournal : Goes (mask leaseRegs leaseParts) s s1 :=
      (((s.goes_createAt kLease i m).lift (by decide)).step (State.goes_setLease _ _) (by decide)).step (State.goes_journal _) (by decide)
    have haudit : Goes (mask leaseRegs leaseParts) s s3 :=
      (hjournal.step (s1.goes_setLease _) (by decide)).step (s2.goes_audit ..) (by decide)
    split
    · exact haudit.step (s3.goes_reply ..) (by decide)
    · exact haudit

theorem State.goes_propose (s : State) (q : LeaseReq) : Goes (mask leaseRegs leaseParts) s (s.propose q) := by
  unfold State.propose
  split
  · exact Goes.refl _ s
  · next x _ =>
    extract_lets b n own r s1 s2
    have hasked : Goes (mask leaseRegs leaseParts) s s1 :=
      ((s.goes_raiseHigh _ _).lift (by decide)).step (State.goes_setLease _ _) (by decide)
    have hsent : Goes (mask leaseRegs leaseParts) s s2 :=
      (hasked.step (s1.goes_ringSend ..) (by decide)).step (State.goes_startTimer _ _ _) (by decide)
    exact Goes.ite (s.goes_refuseLease ..) (Goes.ite (s.goes_refuseLease ..) (Goes.ite (hsent.trans (s2.goes_grantLease _)) hsent))

theorem State.goes_startLease (s : State) (series wanted : Nat) (letter : Option Letter) :
    Goes (mask leaseRegs leaseParts) s (s.startLease series wanted letter) :=
  Goes.ite (s.goes_refuseLease ..) (s.goes_propose _)

theorem State.goes_autoLease (s : State) (series : Nat) : Goes (mask leaseRegs leaseParts) s (s.autoLease series) := by
  unfold State.autoLease
  split
  · exact (s.goes_setLease _).lift (by decide)
  · exact Goes.ite (Goes.refl _ s) (s.goes_startLease ..)

theorem State.goes_lowWater (s : State) (series : Nat) : Goes (mask leaseRegs leaseParts) s (s.lowWater series) :=
  Goes.ite (Goes.refl _ s) (s.goes_autoLease series)

theorem State.goes_returnIdent (s : State) (i : Ident) : Goes (mask (signals []) (signalled [.lease])) s (s.returnIdent i) := by
  unfold State.returnIdent
  split
  · exact Goes.refl _ s
  · exact Goes.ite ((s.goes_updLease _ _).lift (by decide)) (s.goes_audit ..)

/-- An identifier that is drawn changes its series' leases, and the journal where its lease has a mark to move. -/
theorem State.goes_drawIdent {s : State} {series : Nat} {proof : Bool} {r : State × Ident} (h : s.drawIdent series proof = some r) :
    Goes (mask flashRegs journalParts) s r.1 := by
  unfold State.drawIdent at h
  split at h
  · cases h
  · split at h
    · cases h
    · split at h
      · cases h
        exact Goes.pairFst ((s.goes_setLease _).lift (by decide))
      · extract_lets ls at h
        split at h
        · cases h
          exact Goes.pairFst ((s.goes_updLease _ _).lift (by decide))
        · split at h
          · cases h
          · extract_lets marks at h
            split at h
            · cases h
            · cases h
              exact Goes.pairFst <| ((Goes.refl _ s).when _ _ fun t => t.goes_journal).step (State.goes_updLease _ _ _) (by decide)

end Sys2Proof.Machine
end

section
/-! PROOFS. What a channel holds, as frames: resources that it gives up and takes, buffers and maps, reports, its end, and the lines that leave its lanes. -/

namespace Sys2Proof.Machine

/-! ### Resources that leave a channel (R131, R164, R174, R176, R177, R201) -/

theorem State.goes_dropEvents (s : State) (c : Nat) (pms : List Nat) : Goes (mask [] [.chans]) s (s.dropEvents c pms) := s.goes_updChan c _

theorem State.goes_dropEntries (s : State) (c n : Nat) (p : Entry → Bool) : Goes (mask spaceRegs spaceParts) s (s.dropEntries c n p) :=
  (((s.goes_setSrt n _).lift (by decide)).step (State.goes_dropEvents _ c _) (by decide)).trans (State.goes_srtSpace _ n)

theorem State.goes_flushInto (k : Nat) (s : State) (c n : Nat) : Goes (mask flushRegs spaceParts) s (State.flushInto k s c n) := by
  induction k generalizing s with
  | zero => exact Goes.refl _ s
  | succ k ih =>
    have hflushed := (s.goes_flushSorter n).step (State.goes_dropEvents _ c (s.flushSorter n).2) (by decide)
    exact Goes.ite (Goes.refl _ s) ((hflushed.step (State.goes_srtSpace _ n) (by decide)).trans (ih _))

theorem State.goes_freeSorter (s : State) (c n : Nat) : Goes (mask flushRegs spaceParts) s (s.freeSorter c n) :=
  (((Goes.refl _ s).write _ n 0 (by decide)).step (State.goes_disarmAll _ _) (by decide)).trans (State.goes_flushInto _ _ c n)

/-- The parts of the fire lines of a lane. -/
def linesParts : List Part := [.chans, .fires, .laneSkip, .laneTx]

theorem State.goes_dropPartial (s : State) (l : Nat) : Goes (mask [] linesParts) s (s.dropPartial l) :=
  Goes.ite ((Goes.refl _ s).set_laneTx _ (mask_part (by decide)))
    ((Goes.refl _ s).set_laneTx_laneSkip _ _ (mask_part (by decide)) (mask_part (by decide)))

theorem State.goes_dropLines (s : State) (c l : Nat) (p : Nat → Bool) : Goes (mask [] linesParts) s (s.dropLines c l p) := by
  unfold State.dropLines
  extract_lets fs lost part
  exact (((Goes.refl _ s).set_fires _ (mask_part (by decide))).when _ _ fun t => t.goes_dropPartial l).step (State.goes_dropEvents _ c _) (by decide)

/-- The parts of products that are discarded. -/
def discardParts : List Part := .letterQueue :: outcomeParts

theorem State.goes_discardProducts (s : State) (c : Nat) (ending : Bool) (pick : Product → Bool) :
    Goes (mask (signals []) discardParts) s (s.discardProducts c ending pick) := by
  unfold State.discardProducts
  extract_lets lost gone s1 drop s2 spare s3
  have hidents : Goes (mask (signals []) discardParts) s s1 := by
    refine (Goes.refl _ s).each _ _ fun p t => ?_
    split
    · exact Goes.refl _ t
    · next i _ =>
      have hback : Goes (mask (signals []) discardParts) t (t.returnIdent i) := (t.goes_returnIdent i).lift (by decide)
      exact Goes.ite ((t.goes_recordOutcome c p 6).lift (by decide))
        (Goes.ite (hback.step (State.goes_updChan _ c _) (by decide)) hback)
  have hdropped : Goes (mask (signals []) discardParts) s s2 := hidents.step (s1.goes_updChan c _) (by decide)
  have hspare : Goes (mask (signals []) discardParts) s s3 := hdropped.each _ _ fun i t =>
    ((t.goes_returnIdent i).lift (by decide)).step (State.goes_updChan _ c _) (by decide)
  exact hspare.set_letterQueue _ (mask_part (by decide))

/-- The registers of a sink or a cell whose source changes. -/
def mapRegs : List Reg := signals [.PIN_GSTAT, .PIN_ICONF, .PIN_OCONF, .PIN_OMAP, .PIN_PLC_STAT]

/-- The parts of such a change. -/
def mapParts : List Part := signalled [.chans, .flying, .pins, .trees]

theorem State.goes_mapSource (s : State) (k v : Nat) : Goes (mask mapRegs mapParts) s (s.mapSource k v) := by
  have hput : Goes (mask mapRegs mapParts) s (s.put .PIN_OMAP_PIN k v) := (Goes.refl _ s).write _ k v (by decide)
  exact Goes.ite (Goes.refl _ s)
    ((hput.when _ _ fun t => (Goes.refl _ t).write _ _ _ (by decide)).step (State.goes_refreshPins _) (by decide))

theorem State.goes_restoreMap (s : State) (c k : Nat) : Goes (mask mapRegs mapParts) s (s.restoreMap c k) := by
  unfold State.restoreMap
  split
  · exact Goes.refl _ s
  · next e _ =>
    extract_lets s1
    have htaken : Goes (mask mapRegs mapParts) s s1 := (s.goes_updChan c _).lift (by decide)
    exact Goes.ite (htaken.step (s1.goes_logFirmware _ _) (by decide)) (htaken.trans (s1.goes_mapSource _ _))

/-- The registers of a resource that a channel gives up. -/
def freeRegs : List Reg := .PIN_OMAP :: .PIN_PLC_STAT :: flushRegs

/-- The parts of a resource that a channel gives up. -/
def freeParts : List Part := .fires :: .laneSkip :: .laneTx :: .monitors :: spaceParts

theorem State.goes_freeBinding (s : State) (c : Nat) (b : Binding) : Goes (mask freeRegs freeParts) s (s.freeBinding c b) := by
  unfold State.freeBinding
  extract_lets s1 x kept
  have hunbound : Goes (mask freeRegs freeParts) s s1 := (s.goes_updChan c _).lift (by decide)
  split
  · exact hunbound.each _ _ fun m t => (Goes.refl _ t).set_monitors _ (mask_part (by decide))
  · exact hunbound.step (s1.goes_freeSorter c _) (by decide)
  · exact hunbound.each _ _ fun k t =>
      ((t.goes_cellEnable k false).lift (by decide)).step (State.goes_restoreMap _ c k) (by decide)
  · exact hunbound.step (s1.goes_dropLines c _ _) (by decide)
  · exact Goes.ite (hunbound.step (s1.goes_updChan c _) (by decide)) hunbound
  · exact hunbound

/-! ### Resources that join a channel (R163, R164, R177, R201) -/

/-- The registers of a sorter that a channel sets up. -/
def setterRegs : List Reg := [.SRT_CTL, .SRT_TGT]

theorem State.goes_setTarget (s : State) (c n : Nat) : Goes (mask setterRegs [.chans]) s (s.setTarget c n) := by
  unfold State.setTarget
  split
  · exact (((Goes.refl _ s).write _ n _ (by decide)).write _ n _ (by decide)).write _ n 1 (by decide)
  · exact (((Goes.refl _ s).write _ n _ (by decide)).write _ n _ (by decide)).write _ n 0 (by decide)

theorem State.goes_setSorter (s : State) (c n : Nat) : Goes (mask setterRegs [.chans]) s (s.setSorter c n) := by
  unfold State.setSorter
  extract_lets x s1
  have hset : Goes (mask setterRegs [.chans]) s s1 :=
    (((Goes.refl _ s).write _ n _ (by decide)).write _ n _ (by decide)).trans (State.goes_setTarget _ c n)
  exact hset.step (s1.goes_updChan c _) (by decide)

theorem State.goes_setSorters (s : State) (c : Nat) : Goes (mask setterRegs [.chans]) s (s.setSorters c) :=
  (Goes.refl _ s).each _ _ fun n t => t.goes_setSorter c n

/-- The registers of fire cells that leave their pins. -/
def proofRegs : List Reg := .DEV_ACCESS_ADDR :: .DEV_ACCESS_ERR :: mapRegs

theorem State.goes_proofCell (s : State) (c k : Nat) : Goes (mask proofRegs mapParts) s (s.proofCell c k) :=
  Goes.ite (Goes.refl _ s) (Goes.ite ((s.goes_accessError ..).lift (by decide))
    (((s.goes_updChan c _).lift (by decide)).step (State.goes_mapSource _ _ _) (by decide)))

theorem State.goes_proofCells (s : State) (c : Nat) : Goes (mask proofRegs mapParts) s (s.proofCells c) :=
  Goes.ite ((Goes.refl _ s).each _ _ fun k t => t.goes_proofCell c k) (Goes.refl _ s)

/-- The registers of a resource that a channel takes. -/
def takeRegs : List Reg := .PIN_PLC_CTL :: .SRT_CTL :: .SRT_STAT :: .SRT_TGT :: proofRegs

/-- The parts of a resource that a channel takes. -/
def takeParts : List Part := .monitors :: .plcs :: .sorters :: mapParts

theorem State.goes_takeBinding (s : State) (c : Nat) (b : Binding) (spool : Option Spool) :
    Goes (mask takeRegs takeParts) s (s.takeBinding c b spool) := by
  unfold State.takeBinding
  extract_lets s1 s2 s3
  have hbound : Goes (mask takeRegs takeParts) s s1 := (s.goes_updChan c _).lift (by decide)
  split
  · refine hbound.each _ _ fun m t => ?_
    split
    · exact (Goes.refl _ t).set_monitors _ (mask_part (by decide))
    · exact Goes.refl _ t
  · have hset := (hbound.step (s1.goes_updChan c _) (by decide)).step (s2.goes_setSorter c (b.low 6)) (by decide)
    have hon : Goes (mask takeRegs takeParts) s ((s2.setSorter c (b.low 6)).enableSorter c (b.low 6)) :=
      Goes.ite (hset.write _ _ 1 (by decide)) hset
    exact hon.step (State.goes_proofCells _ c) (by decide)
  · have hcells : Goes (mask takeRegs takeParts) s s3 :=
      Goes.ite hbound (hbound.each _ _ fun k t => (t.goes_cellEnable k true).lift (by decide))
    exact (hcells.step (s3.goes_setSorters c) (by decide)).step (State.goes_proofCells _ c) (by decide)
  · exact Goes.ite (hbound.step (s1.goes_updChan c _) (by decide)) hbound
  · exact hbound

/-! ### Buffers and maps (R198, R207, R387, R388) -/

theorem State.goes_takeBuffers (s : State) (c : Nat) : Goes (mask [] [.chans, .freeValues]) s (s.takeBuffers c) := by
  unfold State.takeBuffers
  split
  · exact ((Goes.refl _ s).set_chans _ (mask_part (by decide))).drew (mask_part (by decide))
  · exact Goes.refl _ s

theorem State.goes_fitMap (s : State) (c : Nat) : Goes (mask [] [.chans]) s (s.fitMap c) :=
  Goes.ite (Goes.refl _ s) ((Goes.refl _ s).set_chans _ (mask_part (by decide)))

theorem State.goes_tellOverlap (s : State) (c : Nat) : Goes flitMask s (s.tellOverlap c) :=
  Goes.ite ((Goes.refl _ s).each _ _ fun m t => t.goes_stitchMessage m 3 _) (Goes.refl _ s)

/-- The parts of a generation of a map that is written. -/
def mapWriteParts : List Part := .chans :: .links :: homeParts

theorem State.goes_putGeneration (s : State) (c g : Nat) : Goes (mask homeRegs mapWriteParts) s (s.putGeneration c g) := by
  unfold State.putGeneration
  extract_lets h
  split
  · exact Goes.refl _ s
  · extract_lets s1 s2
    have hbytes : Goes (mask homeRegs mapWriteParts) s s1 :=
      ((Goes.refl _ s).drew (mask_part (by decide))).step (State.goes_ioWrite ..) (by decide)
    have htold : Goes (mask homeRegs mapWriteParts) s s2 := (hbytes.step (s1.goes_updChan c _) (by decide)).raised 211 (by decide)
    exact htold.step (s2.goes_tellOverlap c) (by decide)

theorem State.goes_setNozzle (s : State) (c n v : Nat) : Goes (mask (signals []) (signalled [.chans])) s (s.setNozzle c n v) :=
  ((s.goes_updChan c _).lift (by decide)).when _ _ fun t => (Goes.refl _ t).raised 211 (by decide)

/-! ### Reports and the end of a channel (R173..R175, R178) -/

theorem State.goes_makeReport (s : State) (c reason at_ resource : Nat) : Goes reportMask s (s.makeReport c reason at_ resource).1 :=
  (s.goes_setChan c _).step (State.goes_logFirmware _ _ _) (by decide)

/-- The registers and the parts of a report that completes a service. -/
def doneMask : Nat := mask (signals (counting [])) (signalled [.chans, .svc])

theorem State.goes_completeReport (s : State) (c opcode reason at_ resource : Nat) (st : Status) :
    Goes doneMask s (s.completeReport c opcode reason at_ resource st) := by
  unfold State.completeReport
  split
  · exact Goes.refl _ s
  · exact ((s.goes_makeReport ..).lift (by decide)).step (State.goes_complete ..) (by decide)

theorem State.goes_reportAll (s : State) (c reason at_ : Nat) (ops : List PendingOp) : Goes doneMask s (s.reportAll c reason at_ ops) :=
  ((s.goes_makeReport ..).lift (by decide)).each _ _ fun _ t => (t.goes_complete ..).lift (by decide)

theorem State.goes_cancelled (s : State) (c : Nat) (g : Change) : Goes doneMask s (s.cancelled c g) := s.goes_completeReport ..

theorem State.goes_cancelChange (s : State) (c e : Nat) : Goes doneMask s (s.cancelChange c e) := by
  unfold State.cancelChange
  split
  · exact Goes.refl _ s
  · exact Goes.ite (Goes.refl _ s) (((s.goes_updChan c _).lift (by decide)).trans (State.goes_cancelled _ c _))

/-- The parts of a channel that ends. -/
def endParts : List Part := .letterQueue :: .svc :: freeParts

theorem State.goes_endChannel (s : State) (c : Nat) : Goes (mask freeRegs endParts) s (s.endChannel c) := by
  unfold State.endChannel
  extract_lets s1 s2 s3 s4
  have hproducts : Goes (mask freeRegs endParts) s s1 := (s.goes_discardProducts c true _).lift (by decide)
  have hfreed : Goes (mask freeRegs endParts) s s2 := hproducts.each _ _ fun b t => (t.goes_freeBinding c b).lift (by decide)
  have hended : Goes (mask freeRegs endParts) s s4 :=
    (hfreed.set_letterQueue _ (mask_part (by decide))).step (s3.goes_cancelOps _) (by decide)
  exact (hended.step (s4.goes_setChan c _) (by decide)).step (State.goes_destroy _ kChannel c) (by decide)

theorem State.goes_finish (s : State) (c reason at_ : Nat) : Goes (mask freeRegs endParts) s (s.finish c reason at_) := by
  unfold State.finish
  extract_lets s1 s2 s3 mine s4 s5 s6
  have hsorters : Goes (mask freeRegs endParts) s s1 := (Goes.refl _ s).each _ _ fun n t => (t.goes_freeSorter c n).lift (by decide)
  have hlanes : Goes (mask freeRegs endParts) s s2 := hsorters.each _ _ fun l t => (t.goes_dropLines c l _).lift (by decide)
  have hproducts : Goes (mask freeRegs endParts) s s3 := hlanes.step (s2.goes_discardProducts c true _) (by decide)
  have hreport : Goes (mask freeRegs endParts) s s4 :=
    Goes.ite (hproducts.step (s3.goes_reportNotice c reason at_ 0) (by decide)) (hproducts.step (s3.goes_reportAll c reason at_ mine) (by decide))
  have hstart : Goes (mask freeRegs endParts) s s5 := hreport.step (s4.goes_completeReport ..) (by decide)
  have hchange : Goes (mask freeRegs endParts) s s6 := by
    simp only [s6]
    split
    · exact hstart.step (s5.goes_cancelled c _) (by decide)
    · exact hstart
  exact hchange.trans (s6.goes_endChannel c)

/-! ### Lines that leave a lane (R182, R275, R278) -/

/-- The registers of a link that sends what waits for it. -/
def pumpRegs : List Reg := .LNK_CNT_LINK :: .LNK_ERR :: insertRegs

/-- The parts of a link that sends what waits for it. -/
def pumpParts : List Part := .fires :: insertParts

theorem State.goes_unsent (s : State) (lines : List (Nat × Nat × Nat)) : Goes (mask [] [.chans]) s (s.unsent lines) := by
  refine (Goes.refl _ s).each _ _ fun e t => ?_
  split
  · exact t.goes_dropEvents _ _
  · exact Goes.refl _ t

theorem State.goes_underruns (s : State) (lines : List (Nat × Nat × Nat)) : Goes (mask insertRegs insertParts) s (s.underruns lines) := by
  refine (Goes.refl _ s).each _ _ fun e t => ?_
  split
  · exact t.goes_underrun ..
  · exact Goes.refl _ t

theorem State.goes_skipLine (s : State) (m l pm row : Nat) : Goes (mask pumpRegs pumpParts) s (s.skipLine m l pm row) := by
  unfold State.skipLine
  extract_lets sk s1 s2
  have hqueued : Goes (mask pumpRegs pumpParts) s s1 := (s.goes_updLink m _).lift (by decide)
  have hflag : Goes (mask pumpRegs pumpParts) s s2 := ((hqueued.bump _ m 1 (mask_reg (by decide))).write _ m 1 (by decide)).when _ _ fun t =>
    (t.goes_raiseWith ..).lift (by decide)
  exact ((hflag.step (s2.goes_perf ..) (by decide)).step (State.goes_unsent _ _) (by decide)).step (State.goes_underruns _ _) (by decide)

theorem State.goes_startLine (s : State) (m l : Nat) (f : FireLine) : Goes (mask pumpRegs pumpParts) s (s.startLine m l f) := by
  unfold State.startLine
  extract_lets s1 s2 fs s3
  have htaken : Goes (mask pumpRegs pumpParts) s s1 := (Goes.refl _ s).set_fires _ (mask_part (by decide))
  have hdone : Goes (mask pumpRegs pumpParts) s s2 := by
    simp only [s2]
    split
    · exact htaken.step (s1.goes_updChan _ _) (by decide)
    · exact htaken
  have hqueued : Goes (mask pumpRegs pumpParts) s s3 := hdone.step (s2.goes_updLink m _) (by decide)
  refine Goes.ite (htaken.trans (s1.goes_skipLine ..)) ?_
  cases fs with
  | nil => exact hqueued
  | cons g _ => exact hqueued.step (s3.goes_sendFlit m g) (by decide)

theorem State.goes_pumpLinkN (n : Nat) (s : State) (m : Nat) : Goes (mask pumpRegs pumpParts) s (State.pumpLinkN n s m) := by
  have hflit (t : State) (f : Flit) : Goes (mask pumpRegs pumpParts) t (t.sendFlit m f) := (t.goes_sendFlit m f).lift (by decide)
  induction n generalizing s with
  | zero => exact Goes.refl _ s
  | succ n ih =>
    unfold State.pumpLinkN
    extract_lets idle
    split
    · exact (hflit s _).trans (ih _)
    · exact (Goes.ite (hflit s _) (s.goes_startLine m _ _)).trans (ih _)
    · exact (s.goes_startLine m _ _).trans (ih _)
    · exact Goes.refl _ s

theorem State.goes_pumpLink (s : State) (m : Nat) : Goes (mask pumpRegs pumpParts) s (s.pumpLink m) := State.goes_pumpLinkN _ s m

end Sys2Proof.Machine
end

section
/-! PROOFS. The services of channels as frames, with what they start and what ends it. -/

namespace Sys2Proof.Machine

/-! ### Creation, bindings and switches (R163, R165, R171, R177..R180) -/

theorem goes_accepted (s : State) (L : Letter) (object : Nat) (args : List Nat) : Goes objectMask s (accepted s L object args).1 :=
  s.goes_accept ..

theorem goes_acceptAt (s : State) (L : Letter) (pm : Nat) (args : List Nat) : Goes objectMask s (acceptAt s L pm args).1 := s.goes_accept ..

theorem goes_svcChannelCreate (L : Letter) (b : List Byte) (s : State) : Goes doneMask s (svcChannelCreate L b s).1 := by
  unfold svcChannelCreate
  extract_lets mode
  refine Goes.iteFst (Goes.refl _ s) (Goes.iteFst (Goes.refl _ s) ?_)
  split
  · exact Goes.refl _ s
  · exact ((s.goes_createAt ..).lift (by decide)).step (State.goes_setChan _ _ _) (by decide)

/-- The registers of a channel's binding that changes. -/
def changeRegs : List Reg := .DEV_ACCESS_ADDR :: .DEV_ACCESS_ERR :: .SRT_TGT :: freeRegs

/-- The parts of a channel's binding that changes. -/
def changeParts : List Part := .svc :: freeParts

theorem State.goes_bindNew (s : State) (L : Letter) (old : Option Binding) (new : Binding) :
    Goes (mask changeRegs changeParts) s (s.bindNew L old new).1 := by
  unfold State.bindNew
  extract_lets c x s1 s2 at_
  split
  · exact Goes.refl _ s
  · refine Goes.iteFst (Goes.refl _ s) ?_
    split
    · exact Goes.refl _ s
    · have hdrew : Goes (mask changeRegs changeParts) s s1 := (Goes.refl _ s).drew (mask_part (by decide))
      have hfreed : Goes (mask changeRegs changeParts) s s2 := by
        cases old with
        | none => exact hdrew
        | some o => exact (hdrew.step (s1.goes_freeBinding c o) (by decide)).step (State.goes_setSorters _ c) (by decide)
      exact Goes.iteFst ((hfreed.step (s2.goes_takeBinding c new _) (by decide)).step (State.goes_fitMap _ c) (by decide))
        ((hdrew.step (s1.goes_updChan c _) (by decide)).step (goes_acceptAt _ L at_ []) (by decide))

theorem goes_svcChannelBind (L : Letter) (b : List Byte) (s : State) : Goes (mask changeRegs changeParts) s (svcChannelBind L b s).1 := by
  unfold svcChannelBind
  extract_lets r x
  split
  · exact Goes.refl _ s
  · refine Goes.iteFst (Goes.refl _ s) ?_
    split
    · exact Goes.refl _ s
    · exact Goes.iteFst (Goes.refl _ s) (Goes.iteFst (Goes.refl _ s) (s.goes_bindNew L none r))

/-- The registers of a resource that leaves, with the targets of the sorters that stay. -/
def unbindRegs : List Reg := .SRT_TGT :: freeRegs

/-- A resource leaves a channel, whose sorters and map follow (R177). -/
theorem State.goes_unbound (s : State) (c : Nat) (b : Binding) :
    Goes (mask unbindRegs changeParts) s (((s.freeBinding c b).setSorters c).fitMap c) :=
  (((s.goes_freeBinding c b).lift (by decide)).step (State.goes_setSorters _ c) (by decide)).step (State.goes_fitMap _ c) (by decide)

theorem goes_svcChannelUnbind (L : Letter) (b : List Byte) (s : State) : Goes (mask unbindRegs changeParts) s (svcChannelUnbind L b s).1 := by
  unfold svcChannelUnbind
  extract_lets r c x
  split
  · exact Goes.refl _ s
  · refine Goes.iteFst (Goes.refl _ s) ?_
    split
    · exact Goes.refl _ s
    · refine Goes.iteFst (Goes.refl _ s) (Goes.iteFst (Goes.refl _ s) ?_)
      split
      · exact Goes.refl _ s
      · exact Goes.iteFst (Goes.pairFst (s.goes_unbound c r)) (((s.goes_updChan c _).lift (by decide)).step (goes_acceptAt _ L _ []) (by decide))

theorem goes_svcChannelRebind (L : Letter) (b : List Byte) (s : State) : Goes (mask changeRegs changeParts) s (svcChannelRebind L b s).1 := by
  unfold svcChannelRebind
  extract_lets old new x
  split
  · exact Goes.refl _ s
  · refine Goes.iteFst (Goes.refl _ s) ?_
    split
    · exact Goes.refl _ s
    · exact Goes.iteFst (Goes.refl _ s) (Goes.iteFst (Goes.refl _ s) (Goes.iteFst (Goes.refl _ s) (s.goes_bindNew L (some old) new)))

theorem State.goes_applySwitch (s : State) (c : Nat) : Goes (mask takeRegs takeParts) s (s.applySwitch c) := by
  unfold State.applySwitch
  split
  · refine Goes.ite (Goes.refl _ s) ?_
    extract_lets s1
    have happlied : Goes (mask takeRegs takeParts) s s1 := (s.goes_updChan c _).lift (by decide)
    split
    · exact (happlied.trans (s1.goes_takeBinding c _ _)).step (State.goes_fitMap _ c) (by decide)
    · exact happlied
  · exact Goes.refl _ s

theorem State.goes_switchAt (s : State) (c p : Nat) : Goes (mask takeRegs takeParts) s (s.switchAt c p) := by
  unfold State.switchAt
  split
  · exact Goes.ite (Goes.refl _ s) (s.goes_applySwitch c)
  · exact Goes.refl _ s

theorem State.goes_switchDone (s : State) (c : Nat) : Goes (mask changeRegs changeParts) s (s.switchDone c) := by
  unfold State.switchDone
  extract_lets x s1
  split
  · exact Goes.refl _ s
  · extract_lets s2 s3 w
    have hswitched : Goes (mask changeRegs changeParts) s s1 := (s.goes_applySwitch c).lift (by decide)
    have hfreed : Goes (mask changeRegs changeParts) s s2 := by
      simp only [s2]
      split
      · exact hswitched.step (s1.goes_unbound c _) (by decide)
      · exact hswitched
    have hdone : Goes (mask changeRegs changeParts) s s3 := hfreed.step (s2.goes_updChan c _) (by decide)
    exact Goes.ite (Goes.refl _ s) (Goes.ite hswitched (hdone.step (s3.goes_completeReport ..) (by decide)))

/-! ### START (R168, R169, R172, R201, R207, R221, R388) -/

/-- The registers of a channel that starts. -/
def startRegs : List Reg := homeRegs ++ inhibitRegs ++ proofRegs

/-- The parts of a channel that starts. -/
def startParts : List Part := .svc :: homeParts ++ inhibitParts

theorem State.goes_loadMap (s : State) (c : Nat) (map : List Byte) : Goes (mask homeRegs mapWriteParts) s (s.loadMap c map) := by
  unfold State.loadMap
  extract_lets s1
  have hfit : Goes (mask homeRegs mapWriteParts) s s1 := (s.goes_fitMap c).lift (by decide)
  split
  · exact Goes.ite hfit ((hfit.step (s1.goes_updChan c _) (by decide)).trans (State.goes_putGeneration _ c _))
  · exact hfit

theorem goes_svcChannelStart (L : Letter) (map : List Byte) (b : List Byte) (s : State) :
    Goes (mask startRegs startParts) s (svcChannelStart L map b s).1 := by
  unfold svcChannelStart
  extract_lets c x s0 s1 s2
  split
  · exact Goes.refl _ s
  · split
    · exact Goes.refl _ s
    · have hset : Goes (mask startRegs startParts) s s1 := (s.goes_setChan c _).lift (by decide)
      have hon : Goes (mask startRegs startParts) s s2 := hset.each _ _ fun n t => (Goes.refl _ t).write _ n 1 (by decide)
      have hbuffers := (hon.step (s2.goes_proofCells c) (by decide)).step (State.goes_takeBuffers _ c) (by decide)
      exact (hbuffers.step (State.goes_loadMap _ c map) (by decide)).step (goes_acceptAt _ L s0 [s0]) (by decide)

theorem State.goes_heldStart (s : State) (c : Nat) : Goes (mask inhibitRegs inhibitParts) s (s.heldStart c) :=
  (Goes.refl _ s).when _ _ fun t => t.goes_haltChannel c

/-! ### HOLD and RESUME (R168, R169, R181, R183, R275) -/

theorem goes_svcChannelHold (L : Letter) (b : List Byte) (s : State) : Goes (mask inhibitRegs inhibitParts) s (svcChannelHold L b s).1 := by
  unfold svcChannelHold
  split
  · exact Goes.refl _ s
  · exact s.goes_inhibit _ 1

/-- The registers of a channel that resumes, or ends at once. -/
def resumeRegs : List Reg := .LNK_CNT_LINK :: .LNK_ERR :: changeRegs

/-- The parts of a channel that resumes, or ends at once. -/
def resumeParts : List Part := .letterQueue :: changeParts

theorem State.goes_discardBehind (s : State) (c p : Nat) : Goes (mask resumeRegs resumeParts) s (s.discardBehind c p) := by
  unfold State.discardBehind
  extract_lets x gone s1 s2 s3
  have hentries : Goes (mask resumeRegs resumeParts) s s1 := (Goes.refl _ s).each _ _ fun n t => (t.goes_dropEntries c n _).lift (by decide)
  have hlines : Goes (mask resumeRegs resumeParts) s s2 := hentries.each _ _ fun l t => (t.goes_dropLines c l _).lift (by decide)
  exact (hlines.step (s2.goes_discardProducts c false _) (by decide)).step (s3.goes_updChan c _) (by decide)

theorem State.goes_rebindAll (s : State) (c : Nat) : Goes (mask takeRegs takeParts) s (s.rebindAll c) := by
  unfold State.rebindAll
  extract_lets s1 s2
  have hset : Goes (mask takeRegs takeParts) s s1 := (s.goes_setSorters c).lift (by decide)
  have hon : Goes (mask takeRegs takeParts) s s2 := hset.each _ _ fun n t => (Goes.refl _ t).write _ n 1 (by decide)
  exact hon.each _ _ fun k t => (t.goes_cellEnable k true).lift (by decide)

theorem goes_svcChannelResume (L : Letter) (b : List Byte) (s : State) : Goes (mask resumeRegs resumeParts) s (svcChannelResume L b s).1 := by
  unfold svcChannelResume
  extract_lets c x p0 p s1 s2 s3 s4 s5
  split
  · exact Goes.refl _ s
  · have hbehind : Goes (mask resumeRegs resumeParts) s s1 := (s.goes_discardBehind c p).step (State.goes_switchAt _ c p) (by decide)
    have hbound : Goes (mask resumeRegs resumeParts) s s3 := (hbehind.step (s1.goes_updChan c _) (by decide)).step (s2.goes_rebindAll c) (by decide)
    have hgo : Goes (mask resumeRegs resumeParts) s s4 := hbound.each _ _ fun l t => (t.goes_express l 2 [p]).lift (by decide)
    have hpumped : Goes (mask resumeRegs resumeParts) s s5 := hgo.each _ _ fun m t => (t.goes_pumpLink m).lift (by decide)
    exact hpumped.step (goes_acceptAt s5 L p [p]) (by decide)

theorem State.goes_resumed (s : State) (c : Nat) : Goes (mask freeRegs endParts) s (s.resumed c) := by
  unfold State.resumed
  split
  · exact Goes.refl _ s
  · next o _ =>
    extract_lets p s1
    have hreport : Goes (mask freeRegs endParts) s s1 := (s.goes_completeReport ..).lift (by decide)
    split
    · exact Goes.ite hreport (hreport.trans (s1.goes_finish c 0 _))
    · exact hreport

/-! ### DRAIN and ABORT (R173, R174, R178) -/

theorem goes_svcChannelDrain (L : Letter) (b : List Byte) (s : State) : Goes doneMask s (svcChannelDrain L b s).1 := by
  unfold svcChannelDrain
  extract_lets c x e s1
  split
  · exact Goes.refl _ s
  · have hdrain : Goes doneMask s s1 := (s.goes_updChan c _).lift (by decide)
    exact (hdrain.trans (s1.goes_cancelChange c e)).step (goes_acceptAt _ L e [e]) (by decide)

theorem State.goes_drainDone (s : State) (c : Nat) : Goes (mask freeRegs endParts) s (s.drainDone c) := by
  unfold State.drainDone
  extract_lets s1 x
  have hsettled : Goes (mask freeRegs endParts) s s1 := (s.goes_settle c).lift (by decide)
  split
  · exact hsettled
  · exact Goes.ite (((hsettled.step (s1.goes_updChan c _) (by decide)).step (State.goes_settle _ c) (by decide)).trans
      (State.goes_finish _ c 0 _)) hsettled

/-- The parts of an abort. -/
def abortParts : List Part := .svc :: inhibitParts

theorem goes_svcChannelAbort (L : Letter) (b : List Byte) (s : State) : Goes (mask inhibitRegs abortParts) s (svcChannelAbort L b s).1 := by
  unfold svcChannelAbort
  extract_lets c x s1 s2 s3 s4
  split
  · exact Goes.refl _ s
  · have hstate : Goes (mask inhibitRegs abortParts) s s1 := (s.goes_updChan c _).lift (by decide)
    have hsorters : Goes (mask inhibitRegs abortParts) s s2 := hstate.each _ _ fun n t => (Goes.refl _ t).write _ n 0 (by decide)
    have hcells : Goes (mask inhibitRegs abortParts) s s3 := hsorters.each _ _ fun k t => (t.goes_cellEnable k false).lift (by decide)
    have hlanes : Goes (mask inhibitRegs abortParts) s s4 := hcells.each _ _ fun l t => (t.goes_express l 1 [1]).lift (by decide)
    exact hlanes.step (s4.goes_accept L c []) (by decide)

/-! ### QUERY and SET_MODE (R188, R207, R210, R211) -/

theorem goes_svcChannelQuery (L : Letter) (b : List Byte) (s : State) : Goes countMask s (svcChannelQuery L b s).1 := by
  unfold svcChannelQuery
  split
  · exact Goes.refl _ s
  · exact Goes.refl _ s

theorem State.goes_respool (s : State) (c : Nat) (was : Bool) : Goes (mask [] [.chans, .freeValues]) s (s.respool c was) := by
  unfold State.respool
  extract_lets x
  split
  · exact Goes.ite (Goes.refl _ s) (((s.goes_updChan c _).lift (by decide)).drew (mask_part (by decide)))
  · exact Goes.refl _ s

/-- The registers of a channel's mode that is set. -/
def modeRegs : List Reg := signals (counting setterRegs)

/-- The parts of a channel's mode that is set. -/
def modeParts : List Part := signalled [.chans, .svc]

theorem goes_svcChannelSetMode (L : Letter) (b : List Byte) (s : State) : Goes (mask modeRegs modeParts) s (svcChannelSetMode L b s).1 := by
  unfold svcChannelSetMode
  extract_lets c x mode block new m cleared
  split
  · exact Goes.refl _ s
  · refine Goes.iteFst (Goes.refl _ s) (Goes.iteFst (Goes.refl _ s) ?_)
    split
    · exact Goes.refl _ s
    · refine Goes.iteFst (Goes.refl _ s) ?_
      split
      · exact Goes.refl _ s
      · have hidle : Goes (mask modeRegs modeParts) s ((s.setChan c new).respool c (x.has mSealed)) :=
          ((s.goes_setChan c new).lift (by decide)).step (State.goes_respool _ c _) (by decide)
        refine Goes.iteFst (Goes.pairFst (hidle.step (State.goes_setSorters _ c) (by decide))) ?_
        exact ((s.goes_updChan c _).lift (by decide)).step (goes_acceptAt _ L m []) (by decide)

end Sys2Proof.Machine
end

section
/-! PROOFS. Products and the eight modes as frames: letters, the beginning of a product, camera lines, verdicts, nozzles, stitching, triggers and jobs. -/

namespace Sys2Proof.Machine

/-! ### Letters of products (R187, R387) -/

theorem State.goes_bindingNotice (s : State) (c m : Nat) : Goes reportMask s (s.bindingNotice c m) := by
  unfold State.bindingNotice
  extract_lets x
  split
  · exact Goes.ite (Goes.refl _ s) (((s.goes_updChan c _).lift (by decide)).step (State.goes_notice ..) (by decide))
  · exact Goes.refl _ s

theorem State.goes_sendProduct (s : State) (c : Nat) (i : Int) (m : Nat) : Goes (mask insertRegs insertParts) s (s.sendProduct c i m) := by
  unfold State.sendProduct
  split
  · exact Goes.refl _ s
  · extract_lets s1 s2
    have hsent : Goes (mask insertRegs insertParts) s s1 := ((s.goes_bindingNotice c m).lift (by decide)).step (State.goes_notice ..) (by decide)
    have hpaid : Goes (mask insertRegs insertParts) s s2 := hsent.step (s1.goes_updChan c _) (by decide)
    exact Goes.ite (hpaid.trans (s2.goes_markProduct c i)) hpaid

/-- The parts of a product letter that is sent or queues. -/
def letterParts : List Part := .letterBudget :: .letterQueue :: insertParts

theorem State.goes_letterDue (s : State) (c : Nat) (i : Int) (m : Nat) : Goes (mask insertRegs letterParts) s (s.letterDue c i m) :=
  Goes.ite ((Goes.refl _ s).set_letterQueue _ (mask_part (by decide)))
    (((Goes.refl _ s).set_letterBudget _ (mask_part (by decide))).step (State.goes_sendProduct _ c i m) (by decide))

theorem execProductLetterBudget_frame (s : State) :
    ∃ t, execProductLetterBudget s = .next t ∧ Goes (mask insertRegs letterParts) s t := by
  refine ⟨_, rfl, ?_⟩
  split
  · exact (Goes.refl _ s).set_letterBudget _ (mask_part (by decide))
  · exact ((Goes.refl _ s).set_letterQueue _ (mask_part (by decide))).step (State.goes_sendProduct _ _ _ _) (by decide)

/-! ### A product begins (R166, R190..R192, R200, R203, R211, R392) -/

theorem State.goes_applyChange (s : State) (c start : Nat) : Goes (mask takeRegs takeParts) s (s.applyChange c start) := by
  unfold State.applyChange
  split
  · have hmode : Goes (mask takeRegs takeParts) s (((s.updChan c (·.applyMode start)).takeBuffers c).setSorters c) :=
      (((s.goes_updChan c _).lift (by decide)).step (State.goes_takeBuffers _ c) (by decide)).step (State.goes_setSorters _ c) (by decide)
    exact Goes.ite (Goes.refl _ s) (Goes.ite (s.goes_applySwitch c) (Goes.ite (Goes.refl _ s) hmode))
  · exact Goes.refl _ s

theorem State.goes_identFor (s : State) (c mode : Nat) (block : List Byte) : Goes (mask leaseRegs leaseParts) s (s.identFor c mode block).1 := by
  unfold State.identFor
  extract_lets proof
  refine Goes.iteFst (Goes.refl _ s) ?_
  split
  · exact Goes.refl _ s
  · next k _ =>
    extract_lets s1
    have hasked : Goes (mask leaseRegs leaseParts) s s1 := Goes.ite (Goes.refl _ s) (s.goes_lowWater k)
    split
    · exact hasked
    · next r hr =>
      have hdrawn : Goes (mask leaseRegs leaseParts) s r.1 := hasked.step (State.goes_drawIdent hr) (by decide)
      exact Goes.ite hdrawn (hdrawn.trans (r.1.goes_lowWater k))

theorem State.goes_stitchCheck (s : State) (p : Product) : Goes flitMask s (s.stitchCheck p) :=
  Goes.ite ((Goes.refl _ s).each _ _ fun m t => t.goes_stitchMessage m 0 _) (Goes.refl _ s)

theorem State.goes_jobEnds (s : State) (c : Nat) (p : Product) (ended : Bool) : Goes doneMask s (s.jobEnds c p ended) := by
  unfold State.jobEnds
  extract_lets x e d
  exact Goes.ite (Goes.refl _ s) ((((s.goes_updChan c _).lift (by decide)).trans (State.goes_cancelChange _ c d)).raised 210 (by decide))

theorem State.goes_writeMap (s : State) (c : Nat) (p : Product) : Goes (mask homeRegs homeParts) s (s.writeMap c p) := by
  unfold State.writeMap
  split
  · exact s.goes_ioWrite ..
  · exact Goes.refl _ s

theorem State.goes_noIdent (s : State) (c : Nat) : Goes (mask inhibitRegs inhibitParts) s (s.noIdent c) := by
  unfold State.noIdent
  extract_lets asked
  exact Goes.ite (Goes.refl _ s) ((s.goes_inhibit c 10).when _ _ fun t => (Goes.refl _ t).raised 214 (by decide))

/-- The registers of a product that begins. -/
def beginRegs : List Reg := leaseRegs ++ homeRegs ++ takeRegs ++ insertRegs

/-- The parts of a product that begins. -/
def beginParts : List Part := .jobs :: leaseParts ++ homeParts ++ takeParts ++ letterParts

theorem State.goes_beginWith (s : State) (c : Nat) (index : Int) (start trigAt : Nat) (backward : Bool) :
    Goes (mask beginRegs beginParts) s (s.beginWith c index start trigAt backward) := by
  unfold State.beginWith
  extract_lets x mb follower job check len comp again
  have hident : Goes (mask beginRegs beginParts) s (s.identFor c mb.1 mb.2).1 := (s.goes_identFor c mb.1 mb.2).lift (by decide)
  split
  · next t heq => exact (Goes.fstEq heq hident).step (t.goes_noIdent c) (by decide)
  · next t ident heq =>
    replace hident := Goes.fstEq heq hident
    extract_lets t1 y stop seed t2 gen line boxes p alone spare y1 y2 y3 t3 t4 t5 t6 t7 t8 t9
    have hchange : Goes (mask beginRegs beginParts) s t1 := hident.step (t.goes_applyChange c start) (by decide)
    have hseed : Goes (mask beginRegs beginParts) s t2 := Goes.ite (hchange.drew (mask_part (by decide))) hchange
    have hchan : Goes (mask beginRegs beginParts) s t3 := hseed.step (t2.goes_setChan c _) (by decide)
    have hjob : Goes (mask beginRegs beginParts) s t4 := by
      simp only [t4]
      split
      · exact hchan.set_jobs _ (mask_part (by decide))
      · exact hchan
    have hmap : Goes (mask beginRegs beginParts) s t5 := hjob.step (t4.goes_writeMap c p) (by decide)
    have hcheck : Goes (mask beginRegs beginParts) s t6 := hmap.step (t5.goes_stitchCheck p) (by decide)
    have hletters : Goes (mask beginRegs beginParts) s t7 := hcheck.each _ _ fun m u => (u.goes_letterDue c index m).lift (by decide)
    have hstart : Goes (mask beginRegs beginParts) s t8 := hletters.step (t7.goes_completeReport ..) (by decide)
    have hmode : Goes (mask beginRegs beginParts) s t9 := by
      simp only [t9]
      split
      · exact Goes.ite ((hstart.step (t8.goes_updChan c _) (by decide)).step (State.goes_completeReport ..) (by decide)) hstart
      · exact hstart
    exact hmode.step (t9.goes_jobEnds c p _) (by decide)

theorem State.goes_stitchMismatch (s : State) (c : Nat) : Goes (mask inhibitRegs inhibitParts) s (s.stitchMismatch c) := by
  unfold State.stitchMismatch
  extract_lets x tell s1
  have hinhibit : Goes (mask inhibitRegs inhibitParts) s s1 := s.goes_inhibit c 0xC
  exact Goes.ite (hinhibit.each _ _ fun m t => (t.goes_stitchMessage m 2 _).lift (by decide)) hinhibit

theorem State.goes_tryBegin (s : State) (c : Nat) (index : Int) (start trigAt : Nat) (backward : Bool) :
    Goes (mask beginRegs beginParts) s (s.tryBegin c index start trigAt backward) := by
  unfold State.tryBegin
  extract_lets x mb s1 y
  have hswitch : Goes (mask beginRegs beginParts) s s1 := Goes.ite ((s.goes_switchAt c start).lift (by decide)) (Goes.refl _ s)
  have hbegun : Goes (mask beginRegs beginParts) s (s1.beginWith c index start trigAt backward) := hswitch.trans (s1.goes_beginWith ..)
  have hempty : Goes (mask beginRegs beginParts) s ((s1.inhibit c 0x10).raise 210) :=
    (hswitch.step (s1.goes_inhibit c 0x10) (by decide)).raised 210 (by decide)
  refine Goes.ite hswitch (Goes.ite (Goes.ite (hswitch.step (s1.goes_stitchMismatch c) (by decide)) hswitch) ?_)
  split
  · exact Goes.ite hswitch (Goes.ite hbegun (Goes.ite hempty (hswitch.step (s1.goes_updChan c _) (by decide))))
  · exact hbegun

theorem State.goes_armed (s : State) (c : Nat) : Goes reportMask s (s.armed c) :=
  Goes.ite (s.goes_setChan c _) (Goes.refl _ s)

theorem execProductBegin_frame (c : Fin 1024) (backward : Bool) (s : State) :
    ∃ t, execProductBegin c backward s = .next t ∧ Goes (mask beginRegs beginParts) s t := by
  refine ⟨_, rfl, ?_⟩
  extract_lets s1 x
  have harmed : Goes (mask beginRegs beginParts) s s1 := Goes.ite ((s.goes_armed c).lift (by decide)) (Goes.refl _ s)
  have hbegun (i : Int) (start t : Nat) (b : Bool) : Goes (mask beginRegs beginParts) s (s1.tryBegin c i start t b) :=
    harmed.trans (s1.goes_tryBegin ..)
  refine Goes.ite harmed (Goes.ite (Goes.ite harmed ?_) ?_)
  · split
    · exact harmed
    · exact Goes.ite harmed (hbegun ..)
  · split
    · exact harmed
    · exact Goes.ite (hbegun ..) harmed

/-! ### Camera lines (R193..R195) -/

/-- The parts of a camera line that is stored. -/
def cameraParts : List Part := .chans :: homeParts

theorem State.goes_storeLine (s : State) (c : Nat) (p : Product) (bytes : List Byte) :
    Goes (mask homeRegs cameraParts) s (s.storeLine c p bytes) := by
  unfold State.storeLine
  extract_lets s1 x n
  have hring : Goes (mask homeRegs cameraParts) s s1 :=
    Goes.ite (((s.goes_updChan c _).lift (by decide)).drew (mask_part (by decide))) (Goes.refl _ s)
  have hgap (y : Channel) : Goes (mask homeRegs cameraParts) s (s1.setChan c y) := hring.step (s1.goes_setChan c y) (by decide)
  split
  · exact hgap _
  · extract_lets here at_ old s2 first
    have hstored : Goes (mask homeRegs cameraParts) s s2 := hring.step (s1.goes_ioWrite ..) (by decide)
    exact Goes.ite (hgap _) (hstored.step (s2.goes_updChan c _) (by decide))

theorem State.goes_vizon (s : State) (c : Nat) (h data : List Byte) : Goes (mask homeRegs cameraParts) s (s.vizon c h data) := by
  have hchan (y : Channel) : Goes (mask homeRegs cameraParts) s (s.setChan c y) := (s.goes_setChan c y).lift (by decide)
  unfold State.vizon
  extract_lets x pm cam seq n sound good prev step note y z
  refine Goes.ite (hchan _) (Goes.ite (hchan _) (Goes.ite (hchan _) ?_))
  split
  · exact hchan _
  · exact (hchan _).trans (State.goes_storeLine _ c _ _)

/-! ### Inspection, verdicts and rejects (R195..R197, R208, R389) -/

theorem State.goes_inspect (s : State) (c : Nat) (p : Product) : Goes reportMask s (s.inspect c p) := by
  unfold State.inspect
  extract_lets x waits q s1
  split
  · exact Goes.refl _ s
  · have hseen : Goes reportMask s s1 := s.goes_setChan c _
    exact Goes.ite (Goes.refl _ s) (hseen.each _ _ fun m t => (t.goes_notice ..).lift (by decide))

theorem State.goes_fixVerdict (s : State) (c : Nat) (p : Product) (code : Nat) : Goes (mask insertRegs insertParts) s (s.fixVerdict c p code) := by
  unfold State.fixVerdict
  extract_lets v q s1 s2 s3
  have hfixed : Goes (mask insertRegs insertParts) s s1 := (s.goes_updChan c _).lift (by decide)
  have htold : Goes (mask insertRegs insertParts) s s2 :=
    Goes.ite (hfixed.each _ _ fun m t => (t.goes_stitchMessage m 1 _).lift (by decide)) hfixed
  have hreject : Goes (mask insertRegs insertParts) s s3 := Goes.ite (htold.trans (s2.goes_scheduleReject c q)) htold
  exact hreject.step (s3.goes_settle c) (by decide)

theorem State.goes_giveVerdict (s : State) (c : Nat) (p : Product) (from_ code : Nat) :
    Goes (mask insertRegs insertParts) s (s.giveVerdict c p from_ code) := by
  unfold State.giveVerdict
  extract_lets q s1
  have hcame : Goes (mask insertRegs insertParts) s s1 := (s.goes_updChan c _).lift (by decide)
  exact Goes.ite (hcame.trans (s1.goes_fixVerdict c q _)) hcame

/-! ### Nozzle health (R198, R388) -/

/-- The registers and the parts of a nozzle whose state changes. -/
def nozzleMask : Nat := mask (signals []) (signalled [.chans])

theorem Goes.nozzle_done {s t : State} (h : Goes nozzleMask s t) : Goes doneMask s t :=
  Goes.widen h (by decide) (by decide)

theorem State.goes_judgeNozzle (s : State) (c n : Nat) : Goes nozzleMask s (s.judgeNozzle c n) :=
  Goes.ite (Goes.refl _ s) (Goes.ite (s.goes_setNozzle c n _) (Goes.ite (s.goes_setNozzle c n _) (s.goes_setNozzle c n _)))

theorem State.goes_rebuildMap (s : State) (c : Nat) (was : Tbl Nat) : Goes (mask [] [.chans]) s (s.rebuildMap c was) :=
  Goes.ite (Goes.refl _ s) (s.goes_updChan c _)

theorem State.goes_suspects (s : State) (c : Nat) (p : Product) (nozzles : List Nat) : Goes nozzleMask s (s.suspects c p nozzles) := by
  unfold State.suspects
  extract_lets h named s1
  have hnoted : Goes nozzleMask s s1 := (s.goes_updChan c _).lift (by decide)
  exact Goes.ite (Goes.refl _ s) ((hnoted.each _ _ fun n t => t.goes_judgeNozzle c n).step (State.goes_rebuildMap _ c _) (by decide))

theorem goes_svcVerdict (L : Letter) (b : List Byte) (s : State) : Goes (mask insertRegs insertParts) s (svcVerdict L b s).1 := by
  unfold svcVerdict
  extract_lets c x owner waiting s1
  split
  · exact Goes.refl _ s
  · refine Goes.iteFst (Goes.refl _ s) (Goes.iteFst (Goes.refl _ s) ?_)
    split
    · exact (s.goes_logFirmware _ b).lift (rs := insertRegs) (by decide)
    · extract_lets wrong s2
      have hjudged : Goes (mask insertRegs insertParts) s s1 := (s.goes_updChan c _).lift (by decide)
      have hsuspects : Goes (mask insertRegs insertParts) s s2 := hjudged.step (s1.goes_suspects c _ _) (by decide)
      exact hsuspects.trans (s2.goes_giveVerdict c _ _ _)

theorem goes_svcChannelHealthSet (L : Letter) (b : List Byte) (s : State) : Goes doneMask s (svcChannelHealthSet L b s).1 := by
  unfold svcChannelHealthSet
  extract_lets c s1 s2 s3 r
  split
  · exact Goes.refl _ s
  · have hedited : Goes doneMask s s1 := (Goes.refl _ s).each _ _ fun e t => (t.goes_setNozzle c e.1 e.2).lift (by decide)
    have hset : Goes doneMask s s2 := hedited.step (s1.goes_updChan c _) (by decide)
    have hjudged : Goes doneMask s s3 := hset.each _ _ fun n t => (t.goes_judgeNozzle c n).nozzle_done
    have hbuilt : Goes doneMask s (s3.setChan c r.1) := hjudged.step (s3.goes_setChan c r.1) (by decide)
    exact Goes.iteFst (Goes.refl _ s) (hbuilt.step (goes_accepted _ L c [r.2]) (by decide))

theorem goes_svcChannelHealthQuery (L : Letter) (b : List Byte) (s : State) : Goes countMask s (svcChannelHealthQuery L b s).1 := by
  unfold svcChannelHealthQuery
  extract_lets h first n
  split
  · exact Goes.refl _ s
  · exact Goes.iteFst (Goes.refl _ s) (Goes.refl _ s)

theorem execHeadDriverStatus_frame (l : Fin 140) (failed : List Nat) (s : State) :
    ∃ t, execHeadDriverStatus l failed s = .next t ∧ Goes nozzleMask s t := by
  refine ⟨_, rfl, ?_⟩
  split
  · exact Goes.refl _ s
  · next c _ =>
    extract_lets h b hit kept s1
    have hnoted : Goes nozzleMask s s1 := (s.goes_updChan c _).lift (by decide)
    exact Goes.ite (Goes.refl _ s) ((hnoted.each _ _ fun n t => t.goes_setNozzle c n _).step (State.goes_rebuildMap _ c _) (by decide))

/-! ### A generation that is complete (R335, R337, R388) -/

/-- The registers of a map that is written back to its volume. -/
def backRegs : List Reg := signals (counting [.SEAL_STORE_STAT])

/-- The parts of a map that is written back to its volume. -/
def backParts : List Part := signalled [.store]

theorem State.goes_updVol (s : State) (uid : Nat) (g : Volume → Volume) : Goes (mask [] [.store]) s (s.updVol uid g) :=
  (Goes.refl _ s).set_store _ (mask_part (by decide))

theorem State.goes_showStore (s : State) : Goes (mask backRegs backParts) s s.showStore := by
  unfold State.showStore
  extract_lets n stretched was s1 s2
  have hshown : Goes (mask backRegs backParts) s s2 := ((Goes.refl _ s).write _ 0 _ (by decide)).write _ 0 _ (by decide)
  exact (hshown.write _ 0 _ (by decide)).when _ _ fun t => (Goes.refl _ t).raised 163 (by decide)

theorem State.goes_writeBackMap (s : State) (c : Nat) : Goes (mask backRegs backParts) s (s.writeBackMap c) := by
  unfold State.writeBackMap
  extract_lets h bytes
  split
  · exact Goes.refl _ s
  · extract_lets mine first blocks
    split
    · exact Goes.refl _ s
    · extract_lets s1
      have hblocks : Goes (mask backRegs backParts) s s1 := Goes.when _ _ (fun t => (t.goes_perf ..).lift (by decide)) <|
        (Goes.refl _ s).each _ _ fun b t => ((t.goes_updVol _ _).lift (by decide)).drew (mask_part (by decide))
      exact Goes.ite (Goes.refl _ s) ((hblocks.trans s1.goes_showStore).emit _ (mask_part (by decide)))

/-- The registers of a generation that is complete. -/
def generationRegs : List Reg := .SEAL_STORE_STAT :: homeRegs

/-- The parts of a generation that is complete. -/
def generationParts : List Part := .store :: .svc :: mapWriteParts

theorem execMapGenerationComplete_frame (c : Fin 1024) (s : State) :
    ∃ t, execMapGenerationComplete c s = .next t ∧ Goes (mask generationRegs generationParts) s t := by
  refine ⟨_, rfl, ?_⟩
  extract_lets s1
  have hwanted : Goes (mask generationRegs generationParts) s s1 := Goes.ite ((s.goes_updChan c _).lift (by decide)) (Goes.refl _ s)
  split
  · exact hwanted
  · next g _ _ =>
    extract_lets s2
    have hback : Goes (mask generationRegs generationParts) s s2 :=
      (hwanted.step (s1.goes_putGeneration c g) (by decide)).step (State.goes_writeBackMap _ c) (by decide)
    exact Goes.ite hwanted (hback.each _ _ fun o t => (t.goes_complete ..).lift (by decide))

/-! ### Stitching (R203, R208) -/

theorem execStitchCheck_frame (link : Fin 144) (group : BitVec 16) (index : Int) (start : BitVec 64) (seed : BitVec 32) (modes : BitVec 4)
    (mapGen : BitVec 32) (s : State) :
    ∃ t, execStitchCheck link group index start seed modes mapGen s = .next t ∧ Goes (mask inhibitRegs inhibitParts) s t :=
  ⟨_, rfl, (Goes.refl _ s).each _ _ fun c t => Goes.ite (t.goes_stitchMismatch c) ((t.goes_setChan c _).lift (by decide))⟩

theorem execStitchPartnerMessage_frame (link : Fin 144) (group : BitVec 16) (m : StitchMsg) (s : State) :
    ∃ t, execStitchPartnerMessage link group m s = .next t ∧ Goes (mask insertRegs insertParts) s t := by
  refine ⟨_, rfl, ?_⟩
  extract_lets all
  cases m with
  | verdict i code =>
    refine (Goes.refl _ s).each _ _ fun c t => ?_
    split
    · exact t.goes_giveVerdict ..
    · exact Goes.refl _ t
  | overlap g es => exact (Goes.refl _ s).each _ _ fun c t => (t.goes_updChan c _).lift (by decide)
  | mismatch => exact (Goes.refl _ s).each _ _ fun c t => (t.goes_inhibit c 0xC).lift (by decide)

/-! ### Triggers (R204, R205) -/

/-- The parts of a trigger. -/
def triggerParts : List Part := signalled [.chans, .lease]

theorem State.goes_trigger (s : State) (c t : Nat) (rising held : Bool) : Goes (mask (signals []) triggerParts) s (s.trigger c t rising held) := by
  have hchan (y : Channel) : Goes (mask (signals []) triggerParts) s (s.setChan c y) :=
    (Goes.refl _ s).set_chans _ (mask_part (by decide))
  unfold State.trigger
  extract_lets x
  split
  · exact Goes.refl _ s
  · extract_lets k y floor z s1
    refine Goes.ite (Goes.refl _ s) (Goes.ite (hchan _) (Goes.ite (hchan _) ?_))
    split
    · exact Goes.ite ((hchan _).step (s1.goes_audit ..) (by decide)) (hchan _)
    · exact hchan _

/-! ### Jobs (R390..R392) -/

/-- The registers and the parts of a job that is opened or closed. -/
def jobMask : Nat := mask (signals (counting [])) (signalled [.jobs, .svc])

theorem goes_svcJobOpen (L : Letter) (read : JobRead) (b : List Byte) (s : State) : Goes jobMask s (svcJobOpen L read b s).1 := by
  unfold svcJobOpen
  split
  · exact Goes.refl _ s
  · split
    · exact Goes.refl _ s
    · refine Goes.iteFst (Goes.refl _ s) (Goes.iteFst (Goes.refl _ s) ?_)
      split
      · exact Goes.refl _ s
      · split
        · exact Goes.refl _ s
        · split
          · exact Goes.refl _ s
          · exact ((s.goes_createAt ..).lift (by decide)).set_jobs _ (mask_part (by decide))

theorem goes_svcJobClose (L : Letter) (b : List Byte) (s : State) : Goes jobMask s (svcJobClose L b s).1 := by
  unfold svcJobClose
  split
  · exact Goes.refl _ s
  · split
    · exact Goes.refl _ s
    · exact ((Goes.refl _ s).set_jobs _ (mask_part (by decide))).step (State.goes_destroy _ kJob _) (by decide)

theorem goes_svcJobQuery (L : Letter) (b : List Byte) (s : State) : Goes countMask s (svcJobQuery L b s).1 := by
  unfold svcJobQuery
  split
  · exact Goes.refl _ s
  · exact Goes.refl _ s

theorem execSpoolSlotFilled_frame (c : Fin 1024) (n : SpoolFill) (s : State) :
    ∃ t, execSpoolSlotFilled c n s = .next t ∧ Goes (mask homeRegs cameraParts) s t := by
  refine ⟨_, rfl, ?_⟩
  extract_lets x
  split
  · extract_lets same busy p
    exact Goes.ite (Goes.refl _ s) (((s.goes_setChan c _).lift (by decide)).step (State.goes_ioWrite ..) (by decide))
  · exact Goes.refl _ s

end Sys2Proof.Machine
end

section
/-! PROOFS. What the commands of channels leave as it was. -/

namespace Sys2Proof.Machine

/-! ### The commands whose inhibit, notice or product hangs on what they find -/

theorem execLinkDownTimeout_frame (l : Fin 140) (s : State) :
    ∃ t, execLinkDownTimeout l s = .next t ∧ Goes (mask inhibitRegs inhibitParts) s t := by
  refine ⟨_, rfl, ?_⟩
  split
  · next c _ => exact Goes.ite (Goes.refl _ s) (s.goes_inhibit c 7)
  · exact Goes.refl _ s

theorem execVolumeOfflineInhibit_frame (c : Fin 1024) (s : State) :
    ∃ t, execVolumeOfflineInhibit c s = .next t ∧ Goes (mask inhibitRegs inhibitParts) s t := by
  refine ⟨_, rfl, ?_⟩
  extract_lets x
  split
  · exact Goes.refl _ s
  · exact Goes.ite (s.goes_inhibit c 8) (Goes.refl _ s)

theorem execVizonLine_frame (l : Fin 140) (header data : List Byte) (s : State) :
    ∃ t, execVizonLine l header data s = .next t ∧ Goes (mask homeRegs cameraParts) s t := by
  refine ⟨_, rfl, ?_⟩
  split
  · next c _ => exact Goes.ite (s.goes_vizon c header data) (Goes.refl _ s)
  · exact Goes.refl _ s

theorem execProductInspected_frame (c : Fin 1024) (s : State) :
    ∃ t, execProductInspected c s = .next t ∧ Goes reportMask s t :=
  ⟨_, rfl, Goes.ite ((Goes.refl _ s).each _ _ fun p t => t.goes_inspect c p) (Goes.refl _ s)⟩

theorem execVerdictDeadline_frame (c : Fin 1024) (s : State) :
    ∃ t, execVerdictDeadline c s = .next t ∧ Goes (mask insertRegs insertParts) s t :=
  ⟨_, rfl, Goes.ite (Goes.refl _ s) ((Goes.refl _ s).each _ _ fun p t => t.goes_fixVerdict c p 3)⟩

theorem execTriggerEdge_frame (k : Fin 16) (rising held : Bool) (time : Nat) (s : State) :
    ∃ t, execTriggerEdge k rising held time s = .next t ∧ Goes (mask (signals []) triggerParts) s t :=
  ⟨_, rfl, (Goes.refl _ s).each _ _ fun c t => t.goes_trigger c _ rising held⟩

theorem execStitchLinkTimeout_frame (link : Fin 144) (s : State) :
    ∃ t, execStitchLinkTimeout link s = .next t ∧ Goes (mask inhibitRegs inhibitParts) s t :=
  ⟨_, rfl, Goes.ite (Goes.refl _ s) ((Goes.refl _ s).each _ _ fun c t => t.goes_stitchMismatch c)⟩

/-- Settles O13: a command of the firmware's letters runs its service between the letter and the reply, every other one is an operation of a channel;
the frame of each lies within the lists of its clause. -/
theorem frameOfChannels : Obligations.FrameOfChannels := by
  refine ⟨?_, ?_, ?_, ?_, ?_, ?_, ?_, ?_, ?_, ?_, ?_, ?_, ?_, ?_, ?_, ?_, ?_, ?_, ?_, ?_, ?_, ?_, ?_, ?_, ?_, ?_, ?_, ?_, ?_, ?_, ?_, ?_, ?_, ?_, ?_, ?_,
    ?_⟩
  -- the channel and its bindings
  · exact fun L s => Goes.answers rfl <| Goes.serve (fun b t => (goes_svcChannelCreate L b t).lift (by decide)) s L _ _ (by decide)
  · exact fun L s => Goes.answers rfl <| Goes.serve (fun b t => (goes_svcChannelBind L b t).lift (by decide)) s L _ _ (by decide)
  · exact fun L s => Goes.answers rfl <| Goes.serve (fun b t => (goes_svcChannelUnbind L b t).lift (by decide)) s L _ _ (by decide)
  · exact fun L s => Goes.answers rfl <| Goes.serve (fun b t => (goes_svcChannelRebind L b t).lift (by decide)) s L _ _ (by decide)
  -- start, hold, resume, drain, abort, query and mode
  · exact fun L map s => Goes.answers rfl <|
      (Goes.serve (fun b t => (goes_svcChannelStart L map b t).lift (by decide)) s L _ _ (by decide)).step (State.goes_heldStart _ _) (by decide)
  · exact fun L s => Goes.answers rfl <| Goes.serve (fun b t => (goes_svcChannelHold L b t).lift (by decide)) s L _ _ (by decide)
  · exact fun L s => Goes.answers rfl <|
      (Goes.serve (fun b t => (goes_svcChannelResume L b t).lift (by decide)) s L _ _ (by decide)).step (State.goes_resumed _ _) (by decide)
  · exact fun L s => Goes.answers rfl <| Goes.serve (fun b t => (goes_svcChannelDrain L b t).lift (by decide)) s L _ _ (by decide)
  · exact fun L s => Goes.answers rfl <| Goes.serve (fun b t => (goes_svcChannelAbort L b t).lift (by decide)) s L _ _ (by decide)
  · exact fun L s => Goes.answers rfl <| Goes.serve (fun b t => (goes_svcChannelQuery L b t).lift (by decide)) s L _ _ (by decide)
  · exact fun L s => Goes.answers rfl <| Goes.serve (fun b t => (goes_svcChannelSetMode L b t).lift (by decide)) s L _ _ (by decide)
  -- products, and what ends
  · exact fun c backward s => Goes.answered (execProductBegin_frame c backward s) (by decide)
  · exact fun s => Goes.answered (execProductLetterBudget_frame s) (by decide)
  · exact fun c s => Goes.answers rfl (Goes.ite ((s.goes_drainDone c).lift (by decide)) (Goes.refl _ s))
  · exact fun c s => Goes.answers rfl (Goes.ite ((s.goes_finish c 1 _).lift (by decide)) (Goes.refl _ s))
  · exact fun c s => Goes.answers rfl (Goes.ite ((s.goes_switchDone c).lift (by decide)) (Goes.refl _ s))
  -- what the channel finds: bindings, underruns, links and volumes
  · exact fun c s => Goes.answers rfl (Goes.ite ((s.goes_inhibit c 9).lift (by decide)) (Goes.refl _ s))
  · exact fun c s => Goes.answers rfl <|
      Goes.ite (((s.goes_reportNotice c 5 _ 0).lift (by decide)).step (State.goes_startTimer _ .report c) (by decide)) (Goes.refl _ s)
  · exact fun l s => Goes.answered (execLinkDownTimeout_frame l s) (by decide)
  · exact fun c s => Goes.answered (execVolumeOfflineInhibit_frame c s) (by decide)
  -- camera lines, inspection, verdicts and generations of the nozzle map
  · exact fun l header data s => Goes.answered (execVizonLine_frame l header data s) (by decide)
  · exact fun c s => Goes.answered (execProductInspected_frame c s) (by decide)
  · exact fun L s => Goes.answers rfl <| Goes.serve (fun b t => (goes_svcVerdict L b t).lift (by decide)) s L _ _ (by decide)
  · exact fun c s => Goes.answered (execVerdictDeadline_frame c s) (by decide)
  · exact fun c s => Goes.answered (execMapGenerationComplete_frame c s) (by decide)
  -- stitch checks and triggers
  · exact fun link group index start seed modes mapGen s =>
      Goes.answered (execStitchCheck_frame link group index start seed modes mapGen s) (by decide)
  · exact fun c s => Goes.answers rfl (Goes.ite ((s.goes_stitchMismatch c).lift (by decide)) (Goes.refl _ s))
  · exact fun k rising held time s => Goes.answered (execTriggerEdge_frame k rising held time s) (by decide)
  -- health, jobs and spools
  · exact fun L s => Goes.answers rfl <| Goes.serve (fun b t => goes_svcChannelHealthSet L b t) s L _ _ (by decide)
  · exact fun L s => Goes.answers rfl <| Goes.serve (fun b t => (goes_svcChannelHealthQuery L b t).lift (by decide)) s L _ _ (by decide)
  · exact fun L read s => Goes.answers rfl <| Goes.serve (fun b t => (goes_svcJobOpen L read b t).lift (by decide)) s L _ _ (by decide)
  · exact fun L s => Goes.answers rfl <| Goes.serve (fun b t => (goes_svcJobClose L b t).lift (by decide)) s L _ _ (by decide)
  · exact fun L s => Goes.answers rfl <| Goes.serve (fun b t => (goes_svcJobQuery L b t).lift (by decide)) s L _ _ (by decide)
  · exact fun c n s => Goes.answered (execSpoolSlotFilled_frame c n s) (by decide)
  -- head drivers and stitch partners
  · exact fun l failed s => Goes.answered (execHeadDriverStatus_frame l failed s) (by decide)
  · exact fun link group m s => Goes.answered (execStitchPartnerMessage_frame link group m s) (by decide)
  · exact fun link s => Goes.answered (execStitchLinkTimeout_frame link s) (by decide)

end Sys2Proof.Machine
end

section
/-! PROOFS. Letters that wait for a domain, and what is reset of an owner's mailboxes, volumes and locks, as frames. -/

namespace Sys2Proof.Machine

/-! ### Letters that wait, and replies that come later (R97, R361, R373) -/

/-- A letter is not served yet, is refused, or its body is dealt with. -/
theorem Goes.withBody {rs : List Reg} {ps : List Part} {s : State} {g : List Byte → State} (hg : ∀ b, Goes (mask rs ps) s (g b)) (L : Letter) (o : Offer)
    (hin : Inside (signals (counting [])) (signalled []) rs ps) : Goes (mask rs ps) s (s.withBody L o g) := by
  refine Goes.ite (Goes.refl _ s) ?_
  split
  · exact (s.goes_reply L _).lift hin
  · exact hg _

/-- A letter waits for a domain, or what it does is done. -/
theorem Goes.orStalled {rs : List Reg} {ps : List Part} {s t : State} (h : Goes (mask rs ps) s t) (L : Letter) (d : Option Nat) (hp : .svc ∈ ps) :
    Goes (mask rs ps) s ((s.stalls L d).getD t) := by
  cases d with
  | none => exact h
  | some k =>
    unfold State.stalls
    dsimp only
    split
    · exact (Goes.refl _ s).set_svc _ (mask_part hp)
    · exact h

/-- A letter waits, for its mailbox or for a domain, is refused, or has its service and its reply. -/
theorem Goes.serveIn {rs : List Reg} {ps : List Part} {g : Service} (hg : ∀ b t, Goes (mask rs ps) t (g b t).1) (s : State) (L : Letter) (o : Offer)
    (d : List Byte → Option Nat) (hin : Inside (signals (counting [])) (signalled [.svc]) rs ps) : Goes (mask rs ps) s (s.serveIn L o d g) :=
  have hshort : Inside (signals (counting [])) (signalled []) rs ps := ⟨hin.1, List.Subset.trans (by decide) hin.2⟩
  Goes.withBody (fun b => (Goes.serve hg s L o false hshort).orStalled L (d b) (hin.2 (by decide))) L o hshort

/-- A letter whose reply may come later waits, is refused, or begins; the reply to it comes with what it does, or is owed. -/
theorem Goes.serveLate {rs : List Reg} {ps : List Part} {g : List Byte → State → State × Option Reply} (hg : ∀ b t, Goes (mask rs ps) t (g b t).1)
    (s : State) (L : Letter) (o : Offer) (d : List Byte → Option Nat) (hin : Inside (signals (counting [])) (signalled [.svc]) rs ps) :
    Goes (mask rs ps) s (s.serveLate L o d g) := by
  have hshort : Inside (signals (counting [])) (signalled []) rs ps := ⟨hin.1, List.Subset.trans (by decide) hin.2⟩
  refine Goes.withBody (fun b => Goes.orStalled ?_ L (d b) (hin.2 (by decide))) L o hshort
  split
  · next t r heq => exact (Goes.fstEq heq (hg b s)).step (t.goes_reply L r) hshort
  · next t heq =>
    exact (Goes.fstEq heq (hg b s)).when _ _ fun u => (u.goes_setBox _ _).letter_raise.raise_count.lift hshort

/-! ### Events of an owner (R364, R368, R394) -/

/-- The registers of an owner's mailboxes and locks. -/
def ownerRegs : List Reg := signals [.PST_LOCK, .PST_MB_REQ]

/-- The parts of an owner's mailboxes and volumes. -/
def ownerParts : List Part := signalled [.store, .svc]

theorem State.goes_abandonLocks (s : State) (owner : Nat) : Goes (mask ownerRegs ownerParts) s (s.abandonLocks owner) := by
  unfold State.abandonLocks
  extract_lets held s1
  have hfreed : Goes (mask ownerRegs ownerParts) s s1 :=
    (Goes.refl _ s).each _ _ fun i t => ((Goes.refl _ t).write _ i 0 (by decide)).write _ i 1 (by decide)
  exact hfreed.when _ _ fun t => (Goes.refl _ t).raised 207 (by decide)

theorem State.goes_abandonVolumes (s : State) (m : Nat) : Goes (mask ownerRegs ownerParts) s (s.abandonVolumes m) :=
  (Goes.refl _ s).each _ _ fun o t =>
    (((t.goes_updVol o.uid _).lift (by decide)).set_store _ (mask_part (by decide))).step (State.goes_destroy _ kVolume o.idx) (by decide)

theorem State.goes_resetBox (s : State) (m : Fin 64) : Goes (mask ownerRegs ownerParts) s (s.resetBox m) := by
  unfold State.resetBox
  extract_lets b s1 routes evt svc s2 s3 s4
  have hemptied : Goes (mask ownerRegs ownerParts) s s2 :=
    ((s.goes_setBox m _).letter_raise.lift (by decide)).set_evt_boxMem_svc _ _ _ (mask_part (by decide)) (mask_part (by decide))
      (mask_part (by decide)) (Tbl.wf_keep _)
  have hzeroed : Goes (mask ownerRegs ownerParts) s s3 :=
    hemptied.eachMem _ _ fun f hf t => (Goes.refl _ t).write f m 0 (by revert f; decide)
  have hvolumes : Goes (mask ownerRegs ownerParts) s s4 := (hzeroed.write _ m _ (by decide)).trans (State.goes_abandonVolumes _ m)
  exact (hvolumes.write _ m _ (by decide)).step (State.goes_raiseWith _ 205 _) (by decide)

theorem State.goes_resetOwner (s : State) (owner : Nat) : Goes (mask ownerRegs ownerParts) s (s.resetOwner owner) :=
  ((Goes.refl _ s).each _ _ fun m t => t.goes_resetBox m).trans (State.goes_abandonLocks _ owner)

end Sys2Proof.Machine
end

section
/-! PROOFS. Rings as frames: the weights and states that their registers show, joining, roll-calls, stops that are released, and member tables. -/

namespace Sys2Proof.Machine

/-! ### Weights and ring states (R215..R218, R364) -/

theorem State.goes_setRing_rings (s : State) (r : Nat) (x : Ring) : Goes (mask [] [.rings]) s (s.setRing r x) :=
  (Goes.refl _ s).set_rings _ (mask_part (by decide))

/-- The registers of a ring's members as they become reachable or not. -/
def reachRegs : List Reg := .LNK_RING_CTL :: .LNK_RING_REACH :: .LNK_RING_WEIGHT :: ownerRegs

theorem State.goes_showReach (s : State) (r reached : Nat) : Goes (mask reachRegs ownerParts) s (s.showReach r reached) := by
  unfold State.showReach
  extract_lets x shown gone s1 s2
  have hgone : Goes (mask reachRegs ownerParts) s s1 := (Goes.refl _ s).each _ _ fun m t => (t.goes_resetOwner _).lift (by decide)
  have hreach : Goes (mask reachRegs ownerParts) s s2 := (hgone.write _ r _ (by decide)).write _ r _ (by decide)
  exact (hreach.write _ r _ (by decide)).write _ r _ (by decide)

theorem State.goes_auditRing (s : State) (r kind : Nat) : Goes (mask (signals []) (signalled [.lease])) s (s.auditRing r kind) :=
  (Goes.refl _ s).each _ _ fun k t => t.goes_audit k kind 0 0 0 0 0

/-- The registers and the parts of a ring's status. -/
def statusMask : Nat := mask (signals [.LNK_RING_STAT]) (signalled [.lease])

theorem State.goes_setRingState (s : State) (r v : Nat) : Goes statusMask s (s.setRingState r v) := by
  unfold State.setRingState
  extract_lets s1
  have hshown : Goes statusMask s s1 := (((Goes.refl _ s).write _ r v (by decide)).write _ r 1 (by decide)).raised (212 + r) (by decide)
  exact Goes.ite (Goes.refl _ s) (Goes.ite (hshown.step (s1.goes_auditRing r 0x14) (by decide))
    (Goes.ite (hshown.step (s1.goes_auditRing r 0x15) (by decide)) hshown))

theorem State.goes_ringMismatch (s : State) (r : Nat) : Goes statusMask s (s.ringMismatch r) :=
  ((Goes.refl _ s).write _ r 1 (by decide)).when _ _ fun t => (Goes.refl _ t).raised (212 + r) (by decide)

/-- The registers of a ring that is evaluated. -/
def ringRegs : List Reg := .LNK_RING_STAT :: reachRegs

/-- The parts of a ring that is evaluated. -/
def ringParts : List Part := .lease :: .rings :: ownerParts

/-- A ring's members are shown afresh, and it changes state. -/
theorem State.goes_reachThenState (s : State) (r : Nat) (x : Ring) (reached v : Nat) :
    Goes (mask ringRegs ringParts) s (((s.setRing r x).showReach r reached).setRingState r v) :=
  (((s.goes_setRing_rings r x).lift (by decide)).step (State.goes_showReach _ r reached) (by decide)).step (State.goes_setRingState _ r v) (by decide)

theorem State.goes_evaluateRing (s : State) (r : Nat) : Goes (mask ringRegs ringParts) s (s.evaluateRing r) := by
  have hstate (v : Nat) : Goes (mask ringRegs ringParts) s (s.setRingState r v) := (s.goes_setRingState r v).lift (by decide)
  unfold State.evaluateRing
  extract_lets x up settled
  refine Goes.ite (hstate 0) ?_
  split
  · exact s.goes_reachThenState r _ _ 1
  · exact Goes.ite (Goes.refl _ s) (Goes.ite ((s.goes_setRing_rings r _).lift (by decide)) (hstate settled))
  · exact hstate settled

/-! ### Joining and leaving (R214, R218, R221, R240) -/

theorem State.goes_showStops_status (s : State) (r : Nat) : Goes (mask [.DEV_FRK_STAT, .LNK_RING_STAT] []) s (s.showStops r) :=
  ((Goes.refl _ s).write _ r _ (by decide)).step (State.goes_showFranker _) (by decide)

/-- The registers of a ring that is joined or left. -/
def joinRegs : List Reg := .DEV_FRK_STAT :: .LANE_ERR :: .LANE_RATE :: ringRegs ++ inhibitRegs

/-- The parts of a ring that is joined or left. -/
def joinParts : List Part := ringParts ++ inhibitParts

theorem State.goes_leaveRing (s : State) (r : Nat) : Goes (mask joinRegs joinParts) s (s.leaveRing r) :=
  ((((s.goes_setRing_rings r _).lift (by decide)).step (State.goes_showStops_status _ r) (by decide)).step (State.goes_showReach _ r 0) (by decide)).step
    (State.goes_setRingState _ r 0) (by decide)

theorem State.goes_ringPorts (s : State) (r : Nat) : Goes (mask (signals [.LANE_ERR, .LANE_RATE]) (signalled [])) s (s.ringPorts r) :=
  (Goes.refl _ s).each _ _ fun l t => Goes.ite (((Goes.refl _ t).write _ l _ (by decide)).write _ l _ (by decide))
    (((Goes.refl _ t).write _ l 1 (by decide)).step (State.goes_raiseWith _ 146 _) (by decide))

theorem State.goes_ringCtl (s : State) (r v : Nat) : Goes (mask joinRegs joinParts) s (s.ringCtl r v) := by
  unfold State.ringCtl
  extract_lets named s1 s2 s3
  have hmodes : Goes (mask joinRegs joinParts) s s1 := (((Goes.refl _ s).write _ r _ (by decide)).write _ r _ (by decide)).write _ r _ (by decide)
  have hhalted : Goes (mask joinRegs joinParts) s s2 := hmodes.when _ _ fun t => (t.goes_haltAxes named).lift (by decide)
  have hleft : Goes (mask joinRegs joinParts) s ((s2.put .LNK_RING_CTL_JOIN r 0).leaveRing r) :=
    (hhalted.write _ r 0 (by decide)).trans (State.goes_leaveRing _ r)
  have hjoined : Goes (mask joinRegs joinParts) s s3 := (hhalted.write _ r 1 (by decide)).step (State.goes_ringPorts _ r) (by decide)
  refine Goes.ite (hleft.step (State.goes_ringMismatch _ r) (by decide)) (Goes.ite (Goes.ite ?_ hjoined) hleft)
  exact hjoined.step (s3.goes_reachThenState r _ 0 1) (by decide)

/-! ### Roll-calls (R216, R220) -/

theorem State.goes_ringForward (s : State) (r : Nat) (east : Bool) (kind : Nat) (data : List Nat) : Goes flitMask s (s.ringForward r east kind data) :=
  ((Goes.refl _ s).emit _ (mask_part (by decide))).trans (State.goes_postMessage _ _ 2 _)

theorem State.goes_hearHighs (s : State) (r : Nat) (hs : List (Nat × Nat)) : Goes (mask [] [.lease]) s (s.hearHighs r hs) := by
  refine (Goes.refl _ s).each _ _ fun e t => ?_
  split
  · exact t.goes_setLease _
  · exact Goes.refl _ t

/-- The registers of a roll-call. -/
def rollRegs : List Reg := reachRegs ++ stopRegs

/-- The parts of a roll-call. -/
def rollParts : List Part := .lease :: .timers :: ownerParts ++ stopParts

theorem execRollCallReceived_frame (r : Fin 2) (east : Bool) (hop : RollHop) (m : Fin 32) (uid : BitVec 64) (crc : BitVec 32)
    (highs : List (BitVec 32 × BitVec 64)) (stops : List (Fin 32 × BitVec 16 × BitVec 8)) (s : State) :
    ∃ t, execRollCallReceived r east hop m uid crc highs stops s = .next t ∧ Goes (mask rollRegs rollParts) s t := by
  refine ⟨_, rfl, ?_⟩
  extract_lets hs s1 s2
  have hpassed : Goes (mask rollRegs rollParts) s s1 := (s.goes_ringForward ..).lift (by decide)
  have hreach (x : Nat) : Goes (mask rollRegs rollParts) s (s1.showReach r x) := hpassed.step (s1.goes_showReach r x) (by decide)
  have hheard : Goes (mask rollRegs rollParts) s s2 := Goes.ite ((hreach _).step (State.goes_ringMismatch _ r) (by decide))
    (((hreach _).step (State.goes_startTimer _ _ _) (by decide)).step (State.goes_hearHighs _ r hs) (by decide))
  exact Goes.ite (Goes.refl _ s) (hheard.each _ _ fun e t => (t.goes_latchStop r _).lift (by decide))

theorem execRollCallSend_frame (r : Fin 2) (s : State) : ∃ t, execRollCallSend r s = .next t ∧ Goes flitMask s t :=
  ⟨_, rfl, Goes.ite (Goes.refl _ s) (s.goes_ringSend ..)⟩

/-! ### Releases and slots (R220, R222, R275, R552) -/

/-- The registers of a release. -/
def unstopRegs : List Reg := signals [.DEV_FRK_MISS, .DEV_FRK_STAT, .LNK_RING_STAT, .SRT_STAT]

/-- The parts of a release. -/
def unstopParts : List Part := signalled [.fires, .franker, .rings, .sorters]

theorem State.goes_flushMessages (s : State) (p : Nat × Nat → Bool) :
    Goes (mask [.DEV_FRK_MISS, .SRT_STAT] [.fires, .franker, .sorters]) s (s.flushMessages p) := by
  unfold State.flushMessages
  extract_lets ms hit x lines gone s1 s2 s3
  have hsorter : Goes (mask [.DEV_FRK_MISS, .SRT_STAT] [.fires, .franker, .sorters]) s s1 := (s.goes_setSrt 0 _).lift (by decide)
  have hlane : Goes (mask [.DEV_FRK_MISS, .SRT_STAT] [.fires, .franker, .sorters]) s s2 := hsorter.set_fires _ (mask_part (by decide))
  exact (hlane.set_franker _ (mask_part (by decide))).bump _ 0 _ (mask_reg (by decide))

theorem State.goes_releaseStops (s : State) (r : Nat) (upTo : List (Nat × Nat)) : Goes (mask unstopRegs unstopParts) s (s.releaseStops r upTo) := by
  unfold State.releaseStops
  extract_lets covered x kept s1 s2
  have hkept : Goes (mask unstopRegs unstopParts) s s1 :=
    ((s.goes_setRing_rings r _).lift (by decide)).step (State.goes_showStops_status _ r) (by decide)
  have hraised : Goes (mask unstopRegs unstopParts) s s2 := Goes.ite (hkept.raised _ (by decide)) hkept
  exact hraised.when _ _ fun t => (t.goes_flushMessages _).lift (by decide)

/-- The registers of a release that is sent on. -/
def releaseSentRegs : List Reg := counting unstopRegs

/-- The parts of a release that is sent on. -/
def releaseSentParts : List Part := .links :: unstopParts

theorem execRingReleaseReceived_frame (r : Fin 2) (x : StopRelease) (s : State) :
    ∃ t, execRingReleaseReceived r x s = .next t ∧ Goes (mask releaseSentRegs releaseSentParts) s t :=
  ⟨_, rfl, Goes.ite (Goes.refl _ s) (((s.goes_ringForward ..).lift (by decide)).step (State.goes_releaseStops ..) (by decide))⟩

/-- A service of RING on a ring that is joined is refused, or does its work (R227, R397). -/
theorem goes_ringService {m : Nat} {g : Nat → State → State} (hg : ∀ r t, Goes m t (g r t)) (L : Letter) (b : List Byte) (s : State) :
    Goes m s (ringService L g b s).1 :=
  Goes.iteFst (Goes.refl _ s) (Goes.iteFst (Goes.refl _ s) (Goes.iteFst (Goes.refl _ s) (hg _ s)))

theorem goes_svcRingQuery (L : Letter) (b : List Byte) (s : State) : Goes countMask s (svcRingQuery L b s).1 :=
  Goes.iteFst (Goes.refl _ s) (Goes.refl _ s)

theorem State.goes_linkErr (s : State) (m : Nat) (f : Fld) (hf : f.spec.reg = .LNK_ERR) :
    Goes (mask (signals [.LNK_ERR]) (signalled [])) s (s.linkErr m f) :=
  ((Goes.refl _ s).write f m 1 (by rw [hf]; decide)).when _ _ fun t => (t.goes_raiseWith ..).lift (by decide)

/-- A slot is dropped, counted as bad, or noted as seen and acted on. -/
theorem Goes.expressIn {rs : List Reg} {ps : List Part} {g : State → State} (hg : ∀ t, Goes (mask rs ps) t (g t)) (s : State) (x : Slot) (code : Nat)
    (arg : Option Nat) (hin : Inside (signals [.LNK_CNT_EXP, .LNK_ERR]) (signalled [.links]) rs ps) :
    Goes (mask rs ps) s (s.expressIn x code arg g) := by
  have hbad (m : Nat) : Goes (mask (signals [.LNK_CNT_EXP, .LNK_ERR]) (signalled [.links])) s (s.badExpress m) :=
    ((Goes.refl _ s).bump _ m 1 (mask_reg (by decide))).step (State.goes_linkErr _ m _ rfl) (by decide)
  have hseen (m : Nat) (y : Link → Link) : Goes (mask (signals [.LNK_CNT_EXP, .LNK_ERR]) (signalled [.links])) s (s.updLink m y) :=
    (s.goes_updLink m y).lift (by decide)
  exact Goes.ite (Goes.refl _ s) (Goes.ite ((hbad _).lift hin) (Goes.ite (Goes.refl _ s) (((hseen _ _).lift hin).trans (hg _))))

/-- The registers of a RING_STOP slot. -/
def ringSlotRegs : List Reg := .LNK_CNT_EXP :: .LNK_ERR :: stopRegs

theorem execExpressRingStop_frame (r : Fin 2) (x : RingSlot) (origin : Fin 32) (cause : BitVec 8) (seq : BitVec 16) (s : State) :
    ∃ t, execExpressRingStop r x origin cause seq s = .next t ∧ Goes (mask ringSlotRegs stopParts) s t := by
  refine ⟨_, rfl, Goes.expressIn (fun t => ?_) s _ _ _ (by decide)⟩
  exact Goes.ite (Goes.refl _ t) (((t.goes_express ..).lift (by decide)).step (State.goes_latchStop _ r _) (by decide))

end Sys2Proof.Machine
end

section
/-! PROOFS. Member tables, series, leases and the audit log as frames, and with them what the commands of rings leave alone, O14. -/

namespace Sys2Proof.Machine

/-! ### Member tables (R215, R233, R378) -/

/-- The registers of a member table that is journalled and comes into force. -/
def tableRegs : List Reg := leaseRegs ++ reachRegs

/-- The parts of a member table that is journalled and comes into force. -/
def tableParts : List Part := .rings :: .store :: leaseParts

theorem State.goes_forceTable (s : State) (r : Nat) (t : List (Nat × Nat)) : Goes (mask tableRegs tableParts) s (s.forceTable r t) :=
  ((s.goes_journal.lift (by decide)).step (State.goes_setRing_rings _ r _) (by decide)).step (State.goes_showReach _ r 0) (by decide)

theorem State.goes_ringConfig (s : State) (L : Letter) (b : List Byte) : Goes (mask tableRegs tableParts) s (s.ringConfig L b).1 := by
  unfold State.ringConfig
  extract_lets r st no t ring s1
  have hno (x : Status) : Goes (mask tableRegs tableParts) s (no x).1 := Goes.refl _ s
  have hlater : Goes (mask tableRegs tableParts) s (s.setRing r { s.ring r with later := (s.ring r).later ++ [(L, b)] }) :=
    (s.goes_setRing_rings r _).lift (by decide)
  have hpending : Goes (mask tableRegs tableParts) s s1 :=
    (s.goes_journal.lift (by decide)).step (State.goes_setRing_rings _ r _) (by decide)
  refine Goes.iteFst (hno _) (Goes.iteFst hlater (Goes.iteFst (hno _) (Goes.iteFst (hno _) (Goes.iteFst (s.goes_forceTable r _) ?_))))
  exact (hpending.step (s1.goes_ringSend r 6 _) (by decide)).step (State.goes_startTimer _ .table r) (by decide)

theorem State.goes_endConfig (s : State) (r : Nat) : Goes (mask [] [.rings]) s (s.endConfig r) := s.goes_setRing_rings r _

theorem State.goes_tableAgreed (s : State) (r : Nat) : Goes (mask tableRegs tableParts) s (s.tableAgreed r) := by
  unfold State.tableAgreed
  extract_lets x
  split
  · exact Goes.refl _ s
  · next L _ =>
    have hforced := ((s.goes_ringSend r 8 []).lift (by decide)).trans (State.goes_forceTable _ r x.proposed)
    exact Goes.ite ((hforced.step (State.goes_endConfig _ r) (by decide)).step (State.goes_reply _ L _) (by decide)) (Goes.refl _ s)

theorem State.goes_pumpConfigs (n : Nat) (s : State) (r : Nat) : Goes (mask tableRegs tableParts) s (State.pumpConfigs n s r) := by
  induction n generalizing s with
  | zero => exact Goes.refl _ s
  | succ n ih =>
    unfold State.pumpConfigs
    split
    · next L b t _ _ =>
      extract_lets ring s1
      have hnext : Goes (mask tableRegs tableParts) s ((s.setRing r { s.ring r with later := t }).ringConfig L b).1 :=
        ((s.goes_setRing_rings r _).lift (by decide)).trans (State.goes_ringConfig _ L b)
      have hbegun : Goes (mask tableRegs tableParts) s s1 := by
        simp only [s1]
        split
        · next u x heq => exact (Goes.fstEq heq hnext).step (u.goes_reply L x) (by decide)
        · next u heq => exact Goes.fstEq heq hnext
      exact (hbegun.trans (s1.goes_tableAgreed r)).trans (ih _)
    · exact Goes.refl _ s

theorem State.goes_agreeTables (s : State) (r : Nat) : Goes (mask tableRegs tableParts) s (s.agreeTables r) :=
  (s.goes_tableAgreed r).trans (State.goes_pumpConfigs _ _ r)

theorem State.goes_ringConfigLetter (s : State) (L : Letter) : Goes (mask tableRegs tableParts) s (s.ringConfigLetter L) :=
  ((Goes.serveLate (fun b t => t.goes_ringConfig L b) s L _ _ (by decide)).trans (State.goes_agreeTables _ 0)).trans (State.goes_agreeTables _ 1)

theorem execRingConfigTimeout_frame (r : Fin 2) (s : State) :
    ∃ t, execRingConfigTimeout r s = .next t ∧ Goes (mask tableRegs tableParts) s t := by
  refine ⟨_, rfl, ?_⟩
  extract_lets x
  split
  · exact Goes.refl _ s
  · next L _ =>
    have hended : Goes (mask tableRegs tableParts) s (((s.endConfig r).ringSend r 9 []).reply L (plain L .NOT_READY)) :=
      (((s.goes_endConfig r).lift (by decide)).step (State.goes_ringSend _ r 9 []) (by decide)).step (State.goes_reply _ L _) (by decide)
    exact Goes.ite (Goes.refl _ s) (hended.trans (State.goes_agreeTables _ r))

theorem State.goes_learnSeries (s : State) (r : Nat) (d : SeriesDef) : Goes (mask flashRegs journalParts) s (s.learnSeries r d) :=
  Goes.ite (Goes.refl _ s) (s.goes_journal.step (State.goes_setLease _ _) (by decide))

theorem execRingConfigReceived_frame (r : Fin 2) (m : TableMsg) (s : State) :
    ∃ t, execRingConfigReceived r m s = .next t ∧ Goes (mask tableRegs tableParts) s t := by
  refine ⟨_, rfl, ?_⟩
  extract_lets x
  have hring (y : Ring) : Goes (mask tableRegs tableParts) s (s.setRing r y) := (s.goes_setRing_rings r y).lift (by decide)
  refine Goes.ite (Goes.refl _ s) ?_
  cases m with
  | propose t =>
    exact ((s.goes_journal.lift (by decide)).step (State.goes_setRing_rings _ r _) (by decide)).step (State.goes_ringSend _ r 7 _) (by decide)
  | ack k => exact Goes.ite (Goes.refl _ s) ((hring _).trans (State.goes_agreeTables _ r))
  | force => exact Goes.ite (Goes.refl _ s) (s.goes_forceTable r _)
  | discard => exact hring _
  | series d => exact (s.goes_learnSeries r d).lift (by decide)

/-! ### Series (R224) -/

/-- The parts of a series that is defined, or a high mark that a member is told. -/
def seriesParts : List Part := .links :: journalParts

theorem goes_svcLeaseSeriesDefine (L : Letter) (b : List Byte) (s : State) : Goes (mask leaseRegs seriesParts) s (svcLeaseSeriesDefine L b s).1 := by
  unfold svcLeaseSeriesDefine
  extract_lets x s1
  have hdefined : Goes (mask leaseRegs seriesParts) s s1 := (s.goes_journal.lift (by decide)).step (State.goes_setLease _ _) (by decide)
  exact Goes.iteFst (Goes.refl _ s) (Goes.iteFst (Goes.refl _ s) (Goes.iteFst (Goes.refl _ s) (Goes.iteFst (Goes.refl _ s)
    (hdefined.step (s1.goes_ringSend x.ring 2 _) (by decide)))))

/-- The registers and the parts of a series that is opened. -/
def openMask : Nat := mask (signals []) (signalled [.lease, .svc])

theorem goes_svcLeaseSeriesOpen (L : Letter) (b : List Byte) (s : State) : Goes openMask s (svcLeaseSeriesOpen L b s).1 := by
  unfold svcLeaseSeriesOpen
  split
  · exact Goes.refl _ s
  · split
    · exact Goes.refl _ s
    · split
      · exact Goes.refl _ s
      · next i _ =>
        extract_lets s1
        have hopened : Goes openMask s s1 :=
          Goes.step ((s.goes_createAt kSeries i _).lift (by decide)) (State.goes_setLease _ _) (by decide)
        exact hopened

/-! ### Requests for leases (R226, R227, R378) -/

theorem State.goes_pumpLeases (s : State) : Goes (mask leaseRegs leaseParts) s s.pumpLeases :=
  (Goes.refl _ s).each _ _ fun e t =>
    Goes.ite (Goes.refl _ t) (((t.goes_setLease _).lift (by decide)).trans (State.goes_startLease _ e.2.1 e.2.2 _))

theorem State.goes_leaseRequest (s : State) (L : Letter) (b : List Byte) : Goes (mask [] [.lease]) s (s.leaseRequest L b).1 := by
  unfold State.leaseRequest
  extract_lets h no
  split
  · exact Goes.refl _ s
  · split
    · exact Goes.refl _ s
    · split
      · exact Goes.refl _ s
      · exact Goes.iteFst (Goes.refl _ s) (Goes.iteFst (Goes.refl _ s) (Goes.pairFst (s.goes_setLease _)))

theorem execLeaseProposalReceived_frame (r : Fin 2) (series : BitVec 32) (base : BitVec 64) (count : BitVec 32) (s : State) :
    ∃ t, execLeaseProposalReceived r series base count s = .next t ∧ Goes (mask leaseRegs seriesParts) s t := by
  refine ⟨_, rfl, ?_⟩
  split
  · exact Goes.refl _ s
  · exact Goes.ite (Goes.refl _ s) (Goes.ite (((s.goes_raiseHigh _ _).lift (by decide)).step (State.goes_ringSend ..) (by decide))
      ((s.goes_ringSend ..).lift (by decide)))

theorem execLeaseAckReceived_frame (r : Fin 2) (m : Fin 32) (series : BitVec 32) (base : BitVec 64) (ack : Bool) (high : BitVec 64) (s : State) :
    ∃ t, execLeaseAckReceived r m series base ack high s = .next t ∧ Goes (mask leaseRegs leaseParts) s t := by
  refine ⟨_, rfl, ?_⟩
  have hlease (g : LeaseState → LeaseState) : Goes (mask leaseRegs leaseParts) s (s.setLease g) := (s.goes_setLease g).lift (by decide)
  split
  · exact Goes.refl _ s
  · refine Goes.ite (Goes.refl _ s) (Goes.ite (Goes.ite ?_ (hlease _)) (hlease _))
    exact ((hlease _).trans (State.goes_grantLease _ _)).trans (State.goes_pumpLeases _)

theorem execLeaseProposalTimeout_frame (ring : Fin 3) (series : BitVec 32) (s : State) :
    ∃ t, execLeaseProposalTimeout ring series s = .next t ∧ Goes (mask leaseRegs leaseParts) s t := by
  refine ⟨_, rfl, ?_⟩
  split
  · exact Goes.refl _ s
  · next q _ =>
    extract_lets s1
    have hskipped : Goes (mask leaseRegs leaseParts) s s1 := Goes.ite (Goes.refl _ s) ((s.goes_audit ..).lift (by decide))
    have hrefused := hskipped.trans (s1.goes_refuseLease q.series q.letter .NO_QUORUM)
    exact Goes.ite (Goes.refl _ s) (Goes.ite (hrefused.trans (State.goes_pumpLeases _))
      ((hskipped.step (s1.goes_setLease _) (by decide)).step (State.goes_startTimer _ .retry q.series) (by decide)))

theorem execLeaseRetry_frame (ring : Fin 3) (series : BitVec 32) (s : State) :
    ∃ t, execLeaseRetry ring series s = .next t ∧ Goes (mask leaseRegs leaseParts) s t := by
  refine ⟨_, rfl, ?_⟩
  split
  · next q _ => exact Goes.ite ((s.goes_propose q).trans (State.goes_pumpLeases _)) (Goes.refl _ s)
  · exact Goes.refl _ s

theorem execLeaseAutoRetry_frame (ring : Fin 3) (series : BitVec 32) (s : State) :
    ∃ t, execLeaseAutoRetry ring series s = .next t ∧ Goes (mask leaseRegs leaseParts) s t := by
  refine ⟨_, rfl, ?_⟩
  split
  · next k _ => exact Goes.ite (s.goes_autoLease k) (Goes.refl _ s)
  · exact Goes.refl _ s

/-! ### Leases that end (R227, R397) -/

theorem State.goes_retireLease (s : State) (x : Lease) : Goes (mask leaseRegs leaseParts) s (s.retireLease x) := by
  unfold State.retireLease
  extract_lets s1 s2
  have hreturned : Goes (mask leaseRegs leaseParts) s s1 := (Goes.refl _ s).each _ _ fun i t => (t.goes_audit ..).lift (by decide)
  have haudited : Goes (mask leaseRegs leaseParts) s s2 := Goes.ite (hreturned.step (s1.goes_audit ..) (by decide)) hreturned
  exact ((haudited.step (State.goes_journal _) (by decide)).step (State.goes_setLease _ _) (by decide)).step (State.goes_destroy _ kLease _) (by decide)

theorem goes_svcLeaseRetire (L : Letter) (b : List Byte) (s : State) : Goes (mask leaseRegs leaseParts) s (svcLeaseRetire L b s).1 := by
  unfold svcLeaseRetire
  split
  · exact Goes.refl _ s
  · split
    · exact Goes.refl _ s
    · next x _ => exact (s.goes_retireLease x).trans (State.goes_lowWater _ x.series)

theorem goes_svcLeaseQuery (L : Letter) (b : List Byte) (s : State) : Goes countMask s (svcLeaseQuery L b s).1 := by
  unfold svcLeaseQuery
  extract_lets h k
  refine Goes.iteFst ?_ ?_
  · split
    · exact Goes.refl _ s
    · split <;> exact Goes.refl _ s
  · split
    · exact Goes.refl _ s
    · split <;> exact Goes.refl _ s

/-! ### The audit log and reconciliation (R231, R232, R402) -/

theorem State.goes_flushAudit (s : State) : Goes (mask [] [.lease, .outputs]) s s.flushAudit :=
  ((s.goes_setLease _).lift (by decide)).each _ _ fun _ t => (Goes.refl _ t).emit _ (mask_part (by decide))

/-- The registers of the audit log's flush. -/
def flushAuditRegs : List Reg := signals (counting [])

/-- The parts of the audit log's flush. -/
def flushAuditParts : List Part := signalled [.lease, .svc]

theorem execAuditFlush_frame (ok : Bool) (s : State) :
    ∃ t, execAuditFlush ok s = .next t ∧ Goes (mask flushAuditRegs flushAuditParts) s t := by
  refine ⟨_, rfl, ?_⟩
  extract_lets s1
  have hflushed : Goes (mask flushAuditRegs flushAuditParts) s s1 := s.goes_flushAudit.lift (by decide)
  exact Goes.ite (Goes.refl _ s) (Goes.ite ((Goes.refl _ s).raised 217 (by decide))
    (Goes.ite hflushed (hflushed.step (s1.goes_completeOn ..) (by decide))))

theorem State.goes_stage (s : State) (a : Audit) (log : Nat) : Goes (mask [] [.lease]) s (s.stage a log) := by
  unfold State.stage
  exact s.goes_setLease _

theorem State.goes_stageUnbound (s : State) (series : Nat) : Goes (mask [] [.lease]) s (s.stageUnbound series) :=
  (s.goes_setLease _).each _ _ fun a t => t.goes_stage a _

theorem goes_svcLogAuditBind (L : Letter) (b : List Byte) (s : State) : Goes (mask [] [.lease]) s (svcLogAuditBind L b s).1 := by
  unfold svcLogAuditBind
  extract_lets h v
  split
  · exact Goes.refl _ s
  · split
    · exact Goes.iteFst (Goes.refl _ s) (Goes.iteFst (Goes.refl _ s) ((s.goes_setLease _).trans (State.goes_stageUnbound _ _)))
    · exact Goes.refl _ s

theorem State.goes_checkOverlap (s : State) (r : Nat) (e : BitVec 32 × BitVec 64 × BitVec 32) :
    Goes (mask leaseRegs leaseParts) s (s.checkOverlap r e) := by
  unfold State.checkOverlap
  split
  · exact Goes.refl _ s
  · next k _ =>
    exact (Goes.refl _ s).each _ _ fun x t =>
      (((t.goes_retireLease x).step (State.goes_audit ..) (by decide)).raised 214 (by decide)).trans (State.goes_lowWater _ k)

theorem execReconcile_frame (r : Fin 2) (defs : List SeriesDef) (highs : List (BitVec 32 × BitVec 64))
    (leases : List (BitVec 32 × BitVec 64 × BitVec 32)) (s : State) :
    ∃ t, execReconcile r defs highs leases s = .next t ∧ Goes (mask leaseRegs leaseParts) s t := by
  refine ⟨_, rfl, ?_⟩
  extract_lets s1 s2 s3
  have hsent : Goes (mask leaseRegs leaseParts) s s1 := (s.goes_ringSend ..).lift (by decide)
  have hlearnt : Goes (mask leaseRegs leaseParts) s s2 := hsent.each _ _ fun d t => (t.goes_learnSeries r d).lift (by decide)
  have hraised : Goes (mask leaseRegs leaseParts) s s3 := by
    refine hlearnt.each _ _ fun e t => ?_
    split
    · exact (t.goes_raiseHigh ..).lift (by decide)
    · exact Goes.refl _ t
  exact Goes.ite (Goes.refl _ s) (hraised.each _ _ fun e t => t.goes_checkOverlap r e)

/-! ### The commands of rings and leases -/

/-- Settles O14: a command of the firmware's letters runs its service between the letter and the reply, a register's is one access, and every other one is an
operation of a ring, a lease or the audit log; the frame of each lies within the lists of its clause. -/
theorem frameOfRings : Obligations.FrameOfRings := by
  refine ⟨?_, ?_, ?_, ?_, ?_, ?_, ?_, ?_, ?_, ?_, ?_, ?_, ?_, ?_, ?_, ?_, ?_, ?_, ?_, ?_, ?_, ?_, ?_, ?_, ?_, ?_, ?_, ?_, ?_⟩
  -- joining, the bypass, roll-calls and the ring's state
  · exact fun p r v s => Goes.answers rfl <| Goes.access (fun t => (t.goes_ringCtl r _).lift (by decide)) s p _ _ _ _ (by decide)
  · exact fun r s => Goes.answers rfl (Goes.ite ((Goes.refl _ s).write _ r 1 (by decide)) (Goes.refl _ s))
  · exact fun r s => Goes.answers rfl (Goes.ite (Goes.refl _ s) ((Goes.refl _ s).write _ r 0 (by decide)))
  · exact fun r s => Goes.answered (execRollCallSend_frame r s) (by decide)
  · exact fun r east hop m uid crc highs stops s => Goes.answered (execRollCallReceived_frame r east hop m uid crc highs stops s) (by decide)
  · exact fun r m s => Goes.answers rfl (Goes.ite (Goes.refl _ s) ((s.goes_showReach r _).lift (by decide)))
  · exact fun r s => Goes.answers rfl ((s.goes_evaluateRing r).lift (by decide))
  -- stops and their release
  · exact fun L s => Goes.answers rfl <|
      Goes.serveIn (fun b t => goes_ringService (fun r u => (u.goes_raiseStop r 1).lift (by decide)) L b t) s L _ _ (by decide)
  · exact fun p r s => Goes.answers rfl <| Goes.access (fun t => (t.goes_raiseStop r 2).lift (by decide)) s p _ _ _ _ (by decide)
  · exact fun L s => Goes.answers rfl <| Goes.serveIn (fun b t => goes_ringService (fun r u =>
      ((Goes.refl _ u).when _ _ fun w => (w.goes_ringSend ..).lift (by decide)).step (State.goes_releaseStops _ r _) (by decide)) L b t)
      s L _ _ (by decide)
  · exact fun r x s => Goes.answered (execRingReleaseReceived_frame r x s) (by decide)
  -- series, and requests for leases
  · exact fun L s => Goes.answers rfl <| Goes.serve (fun b t => (goes_svcLeaseSeriesDefine L b t).lift (by decide)) s L _ _ (by decide)
  · exact fun L s => Goes.answers rfl <| Goes.serve (fun b t => (goes_svcLeaseSeriesOpen L b t).lift (by decide)) s L _ _ (by decide)
  · exact fun L s => Goes.answers rfl <|
      (Goes.serveLate (fun b t => (t.goes_leaseRequest L b).lift (by decide)) s L _ _ (by decide)).step (State.goes_pumpLeases _) (by decide)
  · exact fun r series base count s => Goes.answered (execLeaseProposalReceived_frame r series base count s) (by decide)
  · exact fun r m series base ack high s => Goes.answered (execLeaseAckReceived_frame r m series base ack high s) (by decide)
  · exact fun ring series s => Goes.answered (execLeaseProposalTimeout_frame ring series s) (by decide)
  · exact fun ring series s => Goes.answered (execLeaseRetry_frame ring series s) (by decide)
  · exact fun ring series s => Goes.answered (execLeaseAutoRetry_frame ring series s) (by decide)
  -- leases that end, queries, the audit log's flush and reconciliation
  · exact fun L s => Goes.answers rfl <| Goes.serve (fun b t => (goes_svcLeaseRetire L b t).lift (by decide)) s L _ _ (by decide)
  · exact fun L s => Goes.answers rfl <| Goes.serve (fun b t => (goes_svcLeaseQuery L b t).lift (by decide)) s L _ _ (by decide)
  · exact fun ok s => Goes.answered (execAuditFlush_frame ok s) (by decide)
  · exact fun r defs highs leases s => Goes.answered (execReconcile_frame r defs highs leases s) (by decide)
  -- member tables and queries
  · exact fun L s => Goes.answers rfl ((s.goes_ringConfigLetter L).lift (by decide))
  · exact fun r s => Goes.answered (execRingConfigTimeout_frame r s) (by decide)
  · exact fun L s => Goes.answers rfl <| Goes.serveIn (fun b t => (goes_svcRingQuery L b t).lift (by decide)) s L _ _ (by decide)
  -- stops from the ring, the audit volume and messages about tables
  · exact fun r x origin cause seq s => Goes.answered (execExpressRingStop_frame r x origin cause seq s) (by decide)
  · exact fun L s => Goes.answers rfl <| Goes.serve (fun b t => (goes_svcLogAuditBind L b t).lift (by decide)) s L _ _ (by decide)
  · exact fun r m s => Goes.answered (execRingConfigReceived_frame r m s) (by decide)

end Sys2Proof.Machine
end

section
/-! PROOFS. Lanes as frames: rates, taps and receivers, a lane that fails and its link, lost traffic, and lane resets. -/

namespace Sys2Proof.Machine

/-! ### Fields that one command writes together -/

/-- A list of fields, each of a register that the frame lists. -/
theorem Goes.writeEach {rs : List Reg} {ps : List Part} {s t : State} (h : Goes (mask rs ps) s t) (l : List Fld) (i : Nat) (v : Fld → Nat)
    (hl : ∀ f ∈ l, f.spec.reg ∈ rs) : Goes (mask rs ps) s (t.each l fun f u => u.put f i (v f)) :=
  h.eachMem l _ fun f hf u => (Goes.refl _ u).write f i _ (hl f hf)

/-- A list of fields that return to reset, each of a register that the frame lists. -/
theorem Goes.clearEach {rs : List Reg} {ps : List Part} {s t : State} (h : Goes (mask rs ps) s t) (l : List Fld) (i : Nat)
    (hl : ∀ f ∈ l, f.spec.reg ∈ rs) : Goes (mask rs ps) s (t.each l fun f u => u.clr f i) :=
  h.writeEach l i (fun f => f.reset i) hl

/-- A raise that names its register, in a frame that lists what a raise may change. -/
theorem Goes.raisedOf {rs : List Reg} {ps : List Part} {s t : State} (h : Goes (mask rs ps) s t) (src : Nat) (r : Reg) (i : Nat)
    (hin : Inside (signals []) (signalled []) rs ps) : Goes (mask rs ps) s (t.raiseOf src r i) :=
  h.step (t.goes_raiseWith src (some (r, i))) hin

/-! ### Rate, taps and receiver (R239..R242) -/

theorem State.goes_laneOwned (s : State) (l : Nat) : Goes (mask [.LANE_ERR] []) s (s.laneOwned l) := (Goes.refl _ s).write _ l 1 (by decide)

theorem State.goes_laneRate (s : State) (l v : Nat) :
    Goes (mask (signals [.LANE_ERR, .LANE_RATE]) (signalled [])) s (s.laneRate l v) :=
  Goes.ite ((s.goes_laneOwned l).lift (by decide)) <| Goes.ite (((Goes.refl _ s).write _ l 1 (by decide)).raisedOf _ _ l (by decide))
    (((Goes.refl _ s).write _ l _ (by decide)).write _ l _ (by decide))

theorem State.goes_showTaps (s : State) (l pre post : Nat) : Goes (mask [.LANE_TXEQ] []) s (s.showTaps l pre post) :=
  (((Goes.refl _ s).write _ l _ (by decide)).write _ l _ (by decide)).write _ l _ (by decide)

theorem State.goes_setLaneSet (s : State) (l : Nat) (x : LaneSet) : Goes (mask [] [.ports]) s (s.setLaneSet l x) :=
  (Goes.refl _ s).set_ports _ (mask_part (by decide))

theorem State.goes_laneTxeq (s : State) (l v : Nat) :
    Goes (mask (signals [.LANE_ERR, .LANE_TXEQ]) (signalled [.ports])) s (s.laneTxeq l v) := by
  unfold State.laneTxeq
  extract_lets pre post x s1
  have hset : Goes (mask (signals [.LANE_ERR, .LANE_TXEQ]) (signalled [.ports])) s s1 :=
    ((s.goes_setLaneSet l _).lift (by decide)).write _ l _ (by decide)
  exact Goes.ite ((s.goes_laneOwned l).lift (by decide)) <| Goes.ite (((Goes.refl _ s).write _ l 1 (by decide)).raisedOf _ _ l (by decide))
    (hset.when _ _ fun t => (t.goes_showTaps l pre post).lift (by decide))

theorem State.goes_moveTaps (s : State) (l : Nat) (x : Option Taps) : Goes (mask [.LANE_TXEQ] []) s (s.moveTaps l x) := by
  cases x with
  | none => exact Goes.refl _ s
  | some x => exact (Goes.refl _ s).when _ _ fun t => t.goes_showTaps l _ _

/-- The registers of a lane that is brought to a rate. -/
def trainRegs : List Reg := [.LANE_CUR, .LANE_RATE, .LANE_TXEQ]

theorem State.goes_lanesTrain (s : State) (lanes : List Nat) (rate : Nat) (pam4 : Bool) (taps : List Taps) :
    Goes (mask trainRegs []) s (s.lanesTrain lanes rate pam4 taps) :=
  (Goes.refl _ s).each _ _ fun e t =>
    ((((Goes.refl _ t).write _ e.1 _ (by decide)).write _ e.1 _ (by decide)).write _ e.1 _ (by decide)).step (State.goes_moveTaps _ e.1 _) (by decide)

/-- The registers of a lane's receiver. -/
def receiverRegs : List Reg := [.LANE_DFE, .LANE_RXEQ, .LANE_STAT]

theorem State.goes_adapted (s : State) (l ctle dfe : Nat) : Goes (mask receiverRegs []) s (s.adapted l ctle dfe) :=
  ((Goes.refl _ s).each _ _ fun w t => (Goes.refl _ t).write _ (l * 3 + w) _ (by decide)).write _ l ctle (by decide)

theorem State.goes_showManual (s : State) (l : Nat) : Goes (mask receiverRegs []) s (s.showManual l) :=
  ((Goes.refl _ s).write _ l _ (by decide)).each _ _ fun w t => (Goes.refl _ t).write _ (l * 3 + w) _ (by decide)

theorem execAdaptDone_frame (l : Fin 144) (ctle : BitVec 5) (dfe : BitVec 96) (s : State) :
    ∃ t, execAdaptDone l ctle dfe s = .next t ∧ Goes (mask receiverRegs [.timers]) s t := by
  refine ⟨_, rfl, ?_⟩
  extract_lets mode near
  have hdone : Goes (mask receiverRegs [.timers]) s (s.put .LANE_STAT_ADAPT_DONE l 1) := (Goes.refl _ s).write _ l 1 (by decide)
  have hadapts {t : State} (h : Goes (mask receiverRegs [.timers]) s t) :
      Goes (mask receiverRegs [.timers]) s ((t.adapted l ctle.toNat dfe.toNat).startTimer .adapt l) :=
    (h.step (t.goes_adapted ..) (by decide)).step (State.goes_startTimer _ .adapt l) (by decide)
  exact Goes.ite (Goes.refl _ s) <| Goes.ite (hdone.step (State.goes_showManual _ l) (by decide)) <|
    Goes.ite (hadapts hdone) (Goes.ite (Goes.refl _ s) (hadapts (Goes.refl _ s)))

/-! ### A lane of a link fails (R285, R286, R288..R290) -/

/-- The registers of a link whose lane fails. -/
def failRegs : List Reg := signals [.LANE_CUR, .LANE_STAT, .LANE_TXEQ, .LNK_ERR, .LNK_RING_STAT, .LNK_STAT]

/-- The parts of a link whose lane fails. -/
def failParts : List Part := signalled [.links, .timers]

theorem State.goes_stopTimer (s : State) (t : Timer) (i : Nat) : Goes (mask [] [.timers]) s (s.stopTimer t i) :=
  (Goes.refl _ s).set_timers _ (mask_part (by decide))

theorem State.goes_timeLink (s : State) (m v : Nat) : Goes (mask [] [.timers]) s (s.timeLink m v) :=
  Goes.ite ((s.goes_stopTimer ..).each _ _ fun l t => t.goes_stopTimer .inactive l) <|
    Goes.ite ((s.goes_startTimer ..).each _ _ fun l t => t.goes_startTimer .inactive l) (Goes.refl _ s)

theorem State.goes_setLinkState (s : State) (m v : Nat) :
    Goes (mask [.LNK_RING_STAT, .LNK_STAT] [.timers]) s (s.setLinkState m v) := by
  unfold State.setLinkState
  extract_lets s1
  have hstate : Goes (mask [.LNK_RING_STAT, .LNK_STAT] [.timers]) s s1 :=
    (((s.goes_timeLink m v).lift (by decide)).write _ m v (by decide)).step (State.goes_startTimer _ .linkState m) (by decide)
  exact Goes.ite (hstate.write _ _ _ (by split <;> decide)) hstate

theorem State.goes_linkErrAlways (s : State) (m : Nat) (f : Fld) (hf : f.spec.reg = .LNK_ERR) :
    Goes (mask (signals [.LNK_ERR]) (signalled [])) s (s.linkErrAlways m f) :=
  ((Goes.refl _ s).write f m 1 (by rw [hf]; decide)).raisedOf _ _ m (by decide)

theorem State.goes_yieldWidth (s : State) (m : Nat) : Goes (mask failRegs failParts) s (s.yieldWidth m) := by
  unfold State.yieldWidth
  split
  · exact Goes.refl _ s
  · exact ((s.goes_updLink m _).lift (by decide)).step (State.goes_linkErrAlways _ m _ rfl) (by decide)

theorem State.goes_equalizeLanes (s : State) (m lanes code : Nat) :
    Goes (mask [.LANE_CUR, .LANE_STAT, .LANE_TXEQ] []) s (s.equalizeLanes m lanes code) := by
  refine (Goes.refl _ s).each _ _ fun l t => ?_
  have htaps := (Goes.refl (mask [.LANE_CUR, .LANE_STAT, .LANE_TXEQ] []) t).when (t.on .LANE_TXEQ_MODE l)
    (·.showTaps l (t.laneSet l).pre (t.laneSet l).post) fun u => (u.goes_showTaps ..).lift (by decide)
  exact (htaps.write _ l code (by decide)).write _ l 0 (by decide)

theorem State.goes_retrain (s : State) (m : Nat) : Goes (mask failRegs failParts) s (s.retrain m) :=
  Goes.ite ((((s.goes_yieldWidth m).step (State.goes_setLinkState _ m 7) (by decide)).step (State.goes_equalizeLanes ..) (by decide)).step
    (State.goes_updLink _ m _) (by decide)) (Goes.refl _ s)

theorem State.goes_sendWidth (s : State) (m lanes : Nat) (immediate : Bool) (missing : Nat) :
    Goes (mask failRegs failParts) s (s.sendWidth m lanes immediate missing) :=
  (((s.goes_updLink m _).trans (State.goes_sendExpress _ m _ _)).lift (by decide)).step (State.goes_startTimer _ .width m) (by decide)

theorem State.goes_applyMask (s : State) (m lanes : Nat) : Goes (mask failRegs failParts) s (s.applyMask m lanes) := by
  unfold State.applyMask
  extract_lets left s1
  have hidle : Goes (mask failRegs failParts) s s1 := (Goes.refl _ s).each _ _ fun l t => (Goes.refl _ t).emit _ (mask_part (by decide))
  exact ((hidle.step (s1.goes_updLink m _) (by decide)).write _ m lanes (by decide)).step (State.goes_linkErrAlways _ m _ rfl) (by decide)

theorem State.goes_restripe (s : State) (m lanes : Nat) (met : Bool) : Goes (mask failRegs failParts) s (s.restripe m lanes met) := by
  unfold State.restripe
  extract_lets s1
  have happlied : Goes (mask failRegs failParts) s s1 := ((s.goes_updLink m _).lift (by decide)).trans (State.goes_applyMask _ m lanes)
  exact Goes.ite (s.goes_retrain m) <|
    Goes.ite (happlied.step (s1.goes_updLink m _) (by decide)) (happlied.step (s1.goes_sendMarker m _ _) (by decide))

theorem State.goes_laneFails (s : State) (m lanes : Nat) : Goes (mask failRegs failParts) s (s.laneFails m lanes) := by
  unfold State.laneFails
  extract_lets old gone left s1
  have hfailed : Goes (mask failRegs failParts) s s1 := (s.goes_updLink m _).lift (by decide)
  exact Goes.ite (Goes.refl _ s) <| Goes.ite (hfailed.trans (s1.goes_retrain m))
    (((hfailed.trans (s1.goes_yieldWidth m)).trans (State.goes_sendWidth ..)).trans (State.goes_restripe ..))

theorem State.goes_failLane (s : State) (l : Nat) : Goes (mask failRegs failParts) s (s.failLane l) := by
  unfold State.failLane
  split
  · exact s.goes_laneFails ..
  · exact Goes.refl _ s

/-! ### Loss of signal and of lock (R243..R245) -/

/-- The registers of a lane that loses its signal or its lock. -/
def lossRegs : List Reg := .LANE_ERR :: .LANE_ERRCNT :: failRegs

theorem State.goes_laneLoss (s : State) (l : Nat) (bit cnt : Fld) (first : Nat) (hbit : bit.spec.reg = .LANE_ERR) (hcnt : cnt.spec.reg = .LANE_ERRCNT) :
    Goes (mask lossRegs failParts) s (s.laneLoss l bit cnt first) := by
  have hfirst : Goes (mask lossRegs failParts) s (s.when (s.fld .LANE_ERR_FIRST l == 0) (·.put .LANE_ERR_FIRST l first)) :=
    (Goes.refl _ s).writeIf _ _ l first (by decide)
  have hcount := (hfirst.write bit l 1 (by rw [hbit]; decide)).bump cnt l 1 (mask_reg (by rw [hcnt]; decide))
  exact (hcount.raisedOf _ _ l (by decide)).step (State.goes_failLane _ l) (by decide)

theorem execLosAssert_frame (l : Fin 144) (announced : Bool) (s : State) :
    ∃ t, execLosAssert l announced s = .next t ∧ Goes (mask lossRegs failParts) s t := by
  refine ⟨_, rfl, ?_⟩
  extract_lets quiet s1
  have hlost : Goes (mask lossRegs failParts) s s1 := ((Goes.refl _ s).write _ l 1 (by decide)).write _ l 0 (by decide)
  exact Goes.ite (Goes.refl _ s) (Goes.ite hlost (hlost.trans (s1.goes_laneLoss l _ _ 1 rfl rfl)))

/-! ### Lost traffic and a link that goes DORMANT (R95, R182, R283, R292, R293) -/

theorem State.goes_countDrops (s : State) (d drops poisons : Nat) :
    Goes (mask (signals [.DEV_XDROP]) (signalled [])) s (s.countDrops d drops poisons) :=
  (((Goes.refl _ s).bump _ d drops (mask_reg (by decide))).bump _ d poisons (mask_reg (by decide))).when _ _ fun t =>
    (Goes.refl _ t).raisedOf 5 _ d (by decide)

theorem State.goes_release (s : State) (d cause lane drops : Nat) (targets : List PoisonTo) :
    Goes (mask (signals [.DEV_XDROP]) (signalled [])) s (s.release d cause lane drops targets) :=
  ((Goes.refl _ s).each _ _ fun _ t => (Goes.refl _ t).emit _ (mask_part (by decide))).trans (State.goes_countDrops ..)

/-- The registers of a lane that is reset. -/
def laneResetRegs : List Reg := [.DEV_XDROP, .LANE_CNT, .LANE_CUR, .LANE_DFE, .LANE_RXEQ, .LANE_STAT, .LANE_TXEQ, .LNK_CABLE, .LNK_CNT_FLIT, .LNK_CNT_LINK,
  .LNK_ERR, .LNK_LATENCY, .LNK_PARTNER_CAP, .LNK_PARTNER_PREP, .LNK_PARTNER_UID, .LNK_RING_STAT, .LNK_STAT] ++ insertRegs

/-- The parts of a lane that is reset. -/
def laneResetParts : List Part := .fires :: .laneSkip :: .laneTx :: .timers :: insertParts

theorem State.goes_unsentUnderruns (s : State) (lines : List (Nat × Nat × Nat)) :
    Goes (mask insertRegs insertParts) s ((s.unsent lines).underruns lines) :=
  ((s.goes_unsent lines).lift (by decide)).trans (State.goes_underruns _ lines)

theorem State.goes_losePartial (s : State) (l : Nat) : Goes (mask laneResetRegs laneResetParts) s (s.losePartial l) :=
  ((s.goes_dropPartial l).lift (by decide)).step (State.goes_unsentUnderruns ..) (by decide)

theorem State.goes_loseTraffic (s : State) (m : Nat) : Goes (mask laneResetRegs laneResetParts) s (s.loseTraffic m) := by
  unfold State.loseTraffic
  extract_lets x lost s1 held parts s2 s3
  have hcount : Goes (mask laneResetRegs laneResetParts) s s2 := ((s.goes_unsent _).lift (by decide)).bump _ m _ (mask_reg (by decide))
  have hlanes : Goes (mask laneResetRegs laneResetParts) s s3 := hcount.each _ _ fun l t =>
    Goes.set_fires_laneTx _ _ (mask_part (by decide)) (mask_part (by decide)) ((t.goes_dropPartial l).lift (by decide))
  exact (hlanes.step (s3.goes_updLink m _) (by decide)).step (State.goes_underruns _ lost) (by decide)

/-- The registers of a link that are of class L (R293). -/
def classLRegs : List Reg := [.LNK_CABLE, .LNK_LATENCY, .LNK_PARTNER_CAP, .LNK_PARTNER_PREP, .LNK_PARTNER_UID, .LNK_STAT]

theorem State.goes_clearLink (s : State) (m : Nat) : Goes (mask classLRegs slotParts) s (s.clearLink m) := by
  unfold State.clearLink
  extract_lets s1
  have hclear : Goes (mask classLRegs slotParts) s s1 := (Goes.refl _ s).clearEach _ m (by decide)
  exact hclear.step (s1.goes_updLink m _) (by decide)

theorem State.goes_goDormant (s : State) (m reason : Nat) : Goes (mask laneResetRegs laneResetParts) s (s.goDormant m reason) := by
  unfold State.goDormant
  extract_lets s1 was s2 s3 s4 s5
  have hidle : Goes (mask laneResetRegs laneResetParts) s s1 :=
    (Goes.refl _ s).each _ _ fun l t => (Goes.refl _ t).emit _ (mask_part (by decide))
  have hdown : Goes (mask laneResetRegs laneResetParts) s s3 := (hidle.trans (s1.goes_loseTraffic m)).when _ _ fun t =>
    ((Goes.refl _ t).write _ m 1 (by decide)).bump _ m 1 (mask_reg (by decide))
  have hreason : Goes (mask laneResetRegs laneResetParts) s s4 :=
    ((hdown.step (s3.goes_setLinkState m 0) (by decide)).write _ m reason (by decide)).bump _ m 1 (mask_reg (by decide))
  have hlink : Goes (mask laneResetRegs laneResetParts) s s5 := (hreason.write _ m 0 (by decide)).step (State.goes_updLink _ m _) (by decide)
  exact (hlink.when _ _ fun t => (t.goes_clearLink m).lift (by decide)).raisedOf _ _ m (by decide)

theorem State.goes_lostLines (s : State) (l : Nat) (lost : Lost) : Goes (mask insertRegs insertParts) s (s.lostLines l lost) :=
  s.goes_unsentUnderruns _

theorem State.goes_loseQueues (s : State) (m : Nat) (lost : List Lost) (p : Nat → Bool) :
    Goes (mask laneResetRegs laneResetParts) s (s.loseQueues m lost p) :=
  (Goes.refl _ s).each _ _ fun l t => ((t.goes_release ..).lift (by decide)).step (State.goes_lostLines _ l _) (by decide)

/-! ### Lane reset (R246, R247) -/

theorem State.goes_clearLane (s : State) (l : Nat) : Goes (mask laneResetRegs laneResetParts) s (s.clearLane l) := by
  unfold State.clearLane
  extract_lets s1 s2 s3
  have hclear : Goes (mask laneResetRegs laneResetParts) s s1 := (Goes.refl _ s).clearEach _ l (by decide)
  have htaps : Goes (mask laneResetRegs laneResetParts) s s2 := hclear.each _ _ fun w t => (Goes.refl _ t).write _ (l * 3 + w) 0 (by decide)
  have hmanual : Goes (mask laneResetRegs laneResetParts) s s3 := htaps.when _ _ fun t => (t.goes_showManual l).lift (by decide)
  exact (hmanual.write _ l 1 (by decide)).write _ l _ (by decide)

theorem State.goes_laneReset (s : State) (l : Nat) (lost : Lost) : Goes (mask laneResetRegs laneResetParts) s (s.laneReset l lost) := by
  unfold State.laneReset
  extract_lets s1 s2
  have hpartial := s.goes_losePartial l
  have hlink : Goes (mask laneResetRegs laneResetParts) s s1 := by
    simp only [s1]
    split
    · exact Goes.ite (Goes.ite (s.goes_goDormant ..) (hpartial.step (State.goes_clearLink _ l) (by decide)))
        (hpartial.step (State.goes_failLane _ l) (by decide))
    · exact Goes.refl _ s
  have hidle : Goes (mask laneResetRegs laneResetParts) s s2 := (hlink.emit _ (mask_part (by decide))).step (State.goes_release ..) (by decide)
  exact (hidle.step (s2.goes_lostLines l lost) (by decide)).trans (State.goes_clearLane _ l)

theorem State.goes_resetLane (s : State) (l : Nat) (lost : List Lost) : Goes (mask laneResetRegs laneResetParts) s (s.resetLane l lost) :=
  (s.goes_laneReset l _).when _ _ fun t => t.goes_loseQueues l lost _

/-- The registers of a write of LANE_CTL. -/
def laneCtlRegs : List Reg := .LANE_CTL :: .LANE_ERR :: laneResetRegs

theorem State.goes_laneCtl (s : State) (l v : Nat) (lost : List Lost) : Goes (mask laneCtlRegs laneResetParts) s (s.laneCtl l v lost) := by
  unfold State.laneCtl
  extract_lets loop prbs en reset s1 s2 was s3
  have hplain : Goes (mask laneCtlRegs laneResetParts) s s2 :=
    ((((Goes.refl _ s).write _ l _ (by decide)).write _ l _ (by decide)).write _ l _ (by decide)).write _ l _ (by decide)
  have hmodes : Goes (mask laneCtlRegs laneResetParts) s s3 := ((hplain.write _ l loop (by decide)).write _ l prbs (by decide)).write _ l en (by decide)
  refine Goes.ite (hplain.when _ _ fun t => (t.goes_laneOwned l).lift (by decide)) ?_
  exact Goes.ite (hmodes.step (s3.goes_resetLane l lost) (by decide)) <| Goes.ite hmodes <|
    (hmodes.write _ l 0 (by decide)).when _ _ fun t => (t.goes_showManual l).lift (by decide)

theorem execLaneReset_frame (l : Fin 144) (writer : Option Port) (lost : List Lost) (s : State) :
    ∃ t, execLaneReset l writer lost s = .next t ∧
      Goes (mask (errors (.LANE_ERR :: laneResetRegs)) (.crossings :: .waiting :: laneResetParts)) s t := by
  cases writer with
  | none => exact ⟨_, rfl, (s.goes_resetLane l lost).lift (by decide)⟩
  | some p =>
    refine ⟨_, rfl, Goes.access (fun t => ?_) s p _ _ _ _ (by decide)⟩
    exact Goes.ite ((t.goes_laneOwned l).lift (by decide)) ((t.goes_resetLane l lost).lift (by decide))

end Sys2Proof.Machine
end

section
/-! PROOFS. Standard protocols as frames: root ports and their drives, Ethernet ports, bindings, and the endpoint with its functions. -/

namespace Sys2Proof.Machine

/-! ### The drive of a root port (R255, R335..R337, R343..R345) -/

theorem State.goes_setStore (s : State) (g : StoreState → StoreState) : Goes (mask [] [.store]) s (s.setStore g) :=
  (Goes.refl _ s).set_store _ (mask_part (by decide))

theorem State.goes_closeVol (s : State) (o : OpenVol) : Goes (mask (signals []) (signalled [.store, .svc])) s (s.closeVol o) :=
  ((s.goes_setStore _).lift (by decide)).step (State.goes_destroy _ kVolume o.idx) (by decide)

/-- The registers of a drive that is lost. -/
def driveRegs : List Reg := signals (counting [.SEAL_STORE_STAT])

/-- The parts of a drive that is lost. -/
def driveParts : List Part := signalled [.chans, .store, .svc]

theorem State.goes_endFlush (s : State) (uid : Nat) (st : Status) (all : Bool) : Goes (mask driveRegs driveParts) s (s.endFlush uid st all) := by
  refine (Goes.refl _ s).each _ _ fun o t => ?_
  extract_lets t1
  have hclosed : Goes (mask driveRegs driveParts) t t1 := by
    refine Goes.ite ?_ (Goes.refl _ t)
    split
    · exact (t.goes_closeVol _).lift (by decide)
    · exact Goes.refl _ t
  exact hclosed.step (t1.goes_complete ..) (by decide)

theorem State.goes_volDown (s : State) (uid : Nat) : Goes (mask driveRegs driveParts) s (s.volDown uid) := by
  unfold State.volDown
  extract_lets s1
  have hcache : Goes (mask driveRegs driveParts) s s1 := (s.goes_setStore _).lift (by decide)
  exact ((hcache.step (s1.goes_updVol uid _) (by decide)).step (State.goes_showStore _) (by decide)).raised 162 (by decide)

theorem State.goes_offlineChannels (s : State) : Goes (mask [] [.chans]) s s.offlineChannels := by
  refine (Goes.refl _ s).each _ _ fun c t => ?_
  extract_lets x
  split
  · exact Goes.ite (Goes.refl _ t) (t.goes_updChan c _)
  · exact Goes.refl _ t

theorem State.goes_drivesOff (s : State) (port : Nat) : Goes (mask driveRegs driveParts) s (s.drivesOff port) := by
  unfold State.drivesOff
  extract_lets s1 s2
  have hvols : Goes (mask driveRegs driveParts) s s1 := by
    refine (Goes.refl _ s).each _ _ fun v t => ?_
    extract_lets t1
    have hio : Goes (mask driveRegs driveParts) t t1 := (Goes.refl _ t).each _ _ fun o u =>
      ((Goes.refl _ u).drew (mask_part (by decide))).step (State.goes_complete ..) (by decide)
    exact (hio.trans (t1.goes_volDown v.uid)).trans (State.goes_endFlush ..)
  have hlabels : Goes (mask driveRegs driveParts) s s2 := hvols.each _ _ fun o t => (t.goes_complete ..).lift (by decide)
  exact (hlabels.step (s2.goes_setStore _) (by decide)).step (State.goes_offlineChannels _) (by decide)

/-- The registers of a drive that comes up. -/
def driveUpRegs : List Reg := signals [.SEAL_STORE_ERR, .SEAL_STORE_ERRVOL, .SEAL_STORE_STAT]

/-- SEAL_STORE_STAT shows the volumes, and counts nothing. -/
theorem State.goes_showStore_signals (s : State) : Goes (mask (signals [.SEAL_STORE_STAT]) (signalled [])) s s.showStore :=
  ((((Goes.refl _ s).write _ 0 _ (by decide)).write _ 0 _ (by decide)).write _ 0 _ (by decide)).when _ _ fun t =>
    (Goes.refl _ t).raised 163 (by decide)

theorem State.goes_storeErr (s : State) (f : Fld) (uid : Nat) (hf : f.spec.reg = .SEAL_STORE_ERR) :
    Goes (mask [.SEAL_STORE_ERR, .SEAL_STORE_ERRVOL] []) s (s.storeErr f uid) :=
  ((Goes.refl _ s).writeIf _ _ 0 _ (by decide)).write f 0 1 (by rw [hf]; decide)

theorem State.goes_bringUp (s : State) (port nsid : Nat) (v : LabelVol) :
    Goes (mask driveUpRegs (signalled [.store])) s (s.bringUp port nsid v) := by
  unfold State.bringUp
  extract_lets cause range state base s1 isSealed set fresh known s2
  have hflag : Goes (mask driveUpRegs (signalled [.store])) s s1 :=
    Goes.ite ((s.goes_storeErr _ _ rfl).lift (by decide)) (Goes.ite ((s.goes_storeErr _ _ rfl).lift (by decide)) (Goes.refl _ s))
  have hvol : Goes (mask driveUpRegs (signalled [.store])) s s2 :=
    Goes.ite (hflag.step (s1.goes_updVol _ set) (by decide)) (hflag.step (s1.goes_setStore _) (by decide))
  exact (hvol.step s2.goes_showStore_signals (by decide)).raised 162 (by decide)

theorem State.goes_driveUp (s : State) (port : Nat) (d : DriveInfo) : Goes (mask driveUpRegs (signalled [.store])) s (s.driveUp port d) := by
  unfold State.driveUp
  extract_lets spaces listed s1
  have hdrive : Goes (mask driveUpRegs (signalled [.store])) s s1 := (s.goes_setStore _).lift (by decide)
  exact hdrive.each _ _ fun e t => (Goes.refl _ t).each _ _ fun v u => u.goes_bringUp port e.nsid v

/-! ### Root ports (R254, R255, R263) -/

theorem State.goes_setStage (s : State) (j v : Nat) : Goes (mask [] [.outputs, .ports]) s (s.setStage j v) :=
  ((Goes.refl _ s).set_ports _ (mask_part (by decide))).when _ _ fun t => (Goes.refl _ t).emit _ (mask_part (by decide))

/-- The registers of a root port that loses its drive. -/
def rootPortRegs : List Reg := signals (counting [.LANE_RP_STAT, .SEAL_STORE_STAT])

/-- The parts of a root port that loses its drive. -/
def rootPortParts : List Part := .ports :: driveParts

theorem State.goes_rpOff (s : State) (j : Nat) : Goes (mask rootPortRegs rootPortParts) s (s.rpOff j) := by
  unfold State.rpOff
  extract_lets up seen s1 s2
  have hstat : Goes (mask rootPortRegs rootPortParts) s s1 := (Goes.refl _ s).writeEach _ j (fun _ => 0) (by decide)
  have hstage : Goes (mask rootPortRegs rootPortParts) s s2 :=
    (hstat.step (s1.goes_setStage j 0) (by decide)).when _ _ fun t => (Goes.refl _ t).raised _ (by decide)
  exact Goes.ite (hstage.step (s2.goes_drivesOff j) (by decide)) hstage

theorem execDrivePresent_frame (j : Fin 8) (s : State) :
    ∃ t, execDrivePresent j s = .next t ∧ Goes (mask (signals [.LANE_RP_STAT]) (signalled [.ports, .timers])) s t := by
  refine ⟨_, rfl, Goes.ite (Goes.refl _ s) ?_⟩
  have hstage : Goes (mask (signals [.LANE_RP_STAT]) (signalled [.ports, .timers])) s ((s.put .LANE_RP_STAT_PRESENT j 1).setStage j 1) :=
    ((Goes.refl _ s).write _ j 1 (by decide)).step (State.goes_setStage _ j 1) (by decide)
  exact (hstage.step (State.goes_startTimer _ .present j) (by decide)).raised _ (by decide)

/-- The registers of a root port whose link comes up. -/
def rootUpRegs : List Reg := .LANE_RP_STAT :: trainRegs ++ driveUpRegs

theorem execRpLinkUp_frame (j : Fin 8) (width : BitVec 2) (rate : TrainedRate) (drive : Option DriveInfo) (s : State) :
    ∃ t, execRpLinkUp j width rate drive s = .next t ∧ Goes (mask rootUpRegs (signalled [.ports, .store])) s t := by
  refine ⟨_, rfl, ?_⟩
  extract_lets s1 s2 s3
  have hstat : Goes (mask rootUpRegs (signalled [.ports, .store])) s s1 :=
    (((Goes.refl _ s).write _ j 1 (by decide)).write _ j _ (by decide)).write _ j _ (by decide)
  have hup : Goes (mask rootUpRegs (signalled [.ports, .store])) s s3 :=
    ((hstat.step (s1.goes_lanesTrain ..) (by decide)).step (s2.goes_setStage j 3) (by decide)).raised _ (by decide)
  refine Goes.ite (Goes.refl _ s) ?_
  cases drive with
  | some d => exact hup.step (s3.goes_driveUp j d) (by decide)
  | none => exact (hup.write _ j 1 (by decide)).raised _ (by decide)

theorem execRpContainment_frame (j : Fin 8) (removed : Bool) (s : State) :
    ∃ t, execRpContainment j removed s = .next t ∧ Goes (mask rootPortRegs rootPortParts) s t := by
  refine ⟨_, rfl, ?_⟩
  extract_lets st s1 s2
  have hleaves {t : State} (h : Goes (mask rootPortRegs rootPortParts) s t) :
      Goes (mask rootPortRegs rootPortParts) s ((t.put .LANE_RP_STAT_PRESENT j 0).raise (rpSource j)) :=
    (h.write _ j 0 (by decide)).raised _ (by decide)
  have hstat : Goes (mask rootPortRegs rootPortParts) s s1 := (Goes.refl _ s).writeEach _ j (fun _ => 0) (by decide)
  have hoff : Goes (mask rootPortRegs rootPortParts) s s2 := (hstat.writeIf _ _ j 0 (by decide)).step (State.goes_setStage _ j 0) (by decide)
  have hcontained := ((hoff.write .LANE_RP_STAT_CONTAINED j 1 (by decide)).raised (rpSource j) (by decide)).step (State.goes_drivesOff _ j) (by decide)
  exact Goes.ite (Goes.ite (hleaves (Goes.refl _ s)) (Goes.refl _ s)) <|
    Goes.ite (Goes.ite (hleaves ((s.goes_setStage j 0).lift (by decide))) (Goes.refl _ s)) hcontained

/-! ### Bindings (R248, R249, R257, R260) -/

theorem State.goes_ethDown (s : State) (e : Nat) : Goes (mask (signals [.LANE_ETH_STAT]) (signalled [])) s (s.ethDown e) :=
  ((Goes.refl _ s).writeEach [.LANE_ETH_STAT_LINK_UP, .LANE_ETH_STAT_LOCAL_FAULT, .LANE_ETH_STAT_REMOTE_FAULT] (e - 48) (fun _ => 0) (by decide)).when
    _ _ fun t => (Goes.refl _ t).raised _ (by decide)

theorem State.goes_showBind (s : State) (k : Nat) : Goes (mask [.LANE_STAT] []) s (s.showBind k) :=
  (Goes.refl _ s).each _ _ fun l t =>
    ((Goes.refl _ t).write _ l _ (by decide)).when _ _ fun u => (Goes.refl _ u).write _ l _ (by decide)

/-- The registers of an octet whose protocol is written. -/
def protoRegs : List Reg := .DEV_OCT_PROTO :: .DEV_OCT_STAT :: .LANE_ETH_STAT :: .LANE_STAT :: rootPortRegs

theorem State.goes_octProto (s : State) (k v : Nat) : Goes (mask protoRegs rootPortParts) s (s.octProto k v) := by
  unfold State.octProto
  extract_lets new bad s1 old s2
  have hroot : Goes (mask protoRegs rootPortParts) s s1 :=
    (((Goes.refl _ s).write _ k _ (by decide)).write _ k _ (by decide)).write _ k _ (by decide)
  have hoff := hroot.each [2 * (k - 2), 2 * (k - 2) + 1] (fun j t => if t.rpWidth j = 0 then t.rpOff j else t) fun j t =>
    Goes.ite ((t.goes_rpOff j).lift (by decide)) (Goes.refl _ t)
  have heth : Goes (mask protoRegs rootPortParts) s s2 := ((Goes.refl _ s).write _ k _ (by decide)).write _ k _ (by decide)
  have hdown := heth.each (old.filter fun e => !(s2.ethOf k).contains e) (fun e t => t.ethDown e.1) fun e t => (t.goes_ethDown e.1).lift (by decide)
  exact Goes.ite (((Goes.refl _ s).write _ k 1 (by decide)).raisedOf _ _ k (by decide)) <|
    Goes.ite (((Goes.refl _ s).write _ 0 _ (by decide)).write _ 0 _ (by decide)) <|
    Goes.ite (hoff.step (State.goes_showBind _ k) (by decide)) <|
    Goes.ite (hdown.step (State.goes_showBind _ k) (by decide)) (Goes.refl _ s)

/-! ### The endpoint (R249, R252, R253, R364) -/

theorem State.goes_withdraw (s : State) (mine : Port → Bool) (side : WaitingAccess → Option Nat) :
    Goes (mask (signals [.DEV_XDROP]) (signalled [.crossings, .waiting])) s (s.withdraw mine side) := by
  refine ((Goes.refl _ s).set_waiting _ (mask_part (by decide))).each _ _ fun w t => ?_
  extract_lets t1
  have hqueue : Goes (mask (signals [.DEV_XDROP]) (signalled [.crossings, .waiting])) t t1 := by
    simp only [t1]
    split
    · exact (t.goes_setCrossing ..).lift (by decide)
    · exact Goes.refl _ t
  split
  · exact hqueue.step (t1.goes_countDrops ..) (by decide)
  · exact hqueue

/-- The registers of functions that are reset. -/
def funcRegs : List Reg := .DEV_XDROP :: ownerRegs

/-- The parts of functions that are reset. -/
def funcParts : List Part := .crossings :: .ports :: .waiting :: ownerParts

theorem State.goes_funcReset (s : State) (fs : List Nat) : Goes (mask funcRegs funcParts) s (s.funcReset fs) := by
  unfold State.funcReset
  extract_lets s1 s2 x s3
  have hpulses : Goes (mask funcRegs funcParts) s s1 := (Goes.refl _ s).each _ _ fun e t => (Goes.refl _ t).set_pulses _ (mask_part (by decide))
  have hfuncs : Goes (mask funcRegs funcParts) s s3 := (hpulses.step (s1.goes_withdraw _ _) (by decide)).set_ports _ (mask_part (by decide))
  exact hfuncs.each _ _ fun f t => (t.goes_resetOwner _).lift (by decide)

theorem State.goes_showFollow (s : State) : Goes (mask [.DEV_OCT_STAT] []) s s.showFollow := (Goes.refl _ s).write _ 1 _ (by decide)

theorem State.goes_takeEndpoint (s : State) : Goes (mask [.DEV_OCT_STAT, .LANE_STAT] [.ports]) s s.takeEndpoint := by
  unfold State.takeEndpoint
  extract_lets x s1
  have htaken : Goes (mask [.DEV_OCT_STAT, .LANE_STAT] [.ports]) s s1 := (Goes.refl _ s).set_ports _ (mask_part (by decide))
  exact ((htaken.step (s1.goes_showBind 0) (by decide)).step (State.goes_showBind _ 1) (by decide)).step (State.goes_showFollow _) (by decide)

/-- The registers of the endpoint as its link goes down. -/
def endpointRegs : List Reg := .DEV_OCT_STAT :: .LANE_EP_STAT :: .LANE_STAT :: funcRegs

theorem State.goes_endpointReset (s : State) : Goes (mask endpointRegs funcParts) s s.endpointReset := by
  unfold State.endpointReset
  extract_lets up s1 s2
  have hstat : Goes (mask endpointRegs funcParts) s s1 := (Goes.refl _ s).writeEach _ 0 (fun _ => 0) (by decide)
  have hfuncs : Goes (mask endpointRegs funcParts) s s2 :=
    (hstat.step s1.goes_takeEndpoint (by decide)).step (State.goes_funcReset _ [0, 1, 2, 3]) (by decide)
  exact hfuncs.when _ _ fun t => (Goes.refl _ t).raised 113 (by decide)

/-- The registers of the endpoint whose lanes pass through reset. -/
def perstRegs : List Reg := laneResetRegs ++ endpointRegs

/-- The parts of the endpoint whose lanes pass through reset. -/
def perstParts : List Part := laneResetParts ++ funcParts

theorem execPciePerstAssert_frame (lost : List Lost) (s : State) :
    ∃ t, execPciePerstAssert lost s = .next t ∧ Goes (mask perstRegs perstParts) s t := by
  refine ⟨_, rfl, ?_⟩
  extract_lets lanes x s1 s2
  have hheld : Goes (mask perstRegs perstParts) s s1 := (Goes.refl _ s).set_ports _ (mask_part (by decide))
  have hlanes : Goes (mask perstRegs perstParts) s s2 := hheld.each _ _ fun l t => (t.goes_laneReset l _).lift (by decide)
  exact hlanes.step s2.goes_endpointReset (by decide)

theorem execPciePerstRelease_frame (s : State) : ∃ t, execPciePerstRelease s = .next t ∧ Goes (mask [.LANE_STAT] [.ports, .timers]) s t := by
  refine ⟨_, rfl, ?_⟩
  have hfree : Goes (mask [.LANE_STAT] [.ports, .timers]) s { s with ports := { s.ports with held := false } } :=
    (Goes.refl _ s).set_ports _ (mask_part (by decide))
  exact ((hfree.step (State.goes_showBind _ 0) (by decide)).step (State.goes_showBind _ 1) (by decide)).step
    (State.goes_startTimer _ .perst 0) (by decide)

/-- The registers of the endpoint as its link comes up. -/
def endpointUpRegs : List Reg := signals (.LANE_EP_STAT :: trainRegs)

theorem execEndpointLinkUp_frame (width : BitVec 3) (rate : TrainedRate) (flit : Bool) (s : State) :
    ∃ t, execEndpointLinkUp width rate flit s = .next t ∧ Goes (mask endpointUpRegs (signalled [])) s t := by
  refine ⟨_, rfl, ?_⟩
  extract_lets s1 s2
  have hstat : Goes (mask endpointUpRegs (signalled [])) s s1 :=
    (((Goes.refl _ s).write _ 0 1 (by decide)).write _ 0 _ (by decide)).write _ 0 _ (by decide)
  have htrained : Goes (mask endpointUpRegs (signalled [])) s s2 := hstat.step (s1.goes_lanesTrain ..) (by decide)
  exact Goes.ite (Goes.refl _ s) ((htrained.write _ 0 _ (by decide)).raised 113 (by decide))

end Sys2Proof.Machine
end

section
/-! PROOFS. Ethernet ports and octets as frames, and with them what the commands of lanes leave alone, O15. -/

namespace Sys2Proof.Machine

/-! ### Ethernet (R257..R259, R309, R310) -/

theorem State.goes_ioRead (s : State) (who l : Nat) : Goes (mask memRegs memParts) s (s.ioRead who l).1 := by
  unfold State.ioRead
  extract_lets x s1
  have hcount : Goes (mask memRegs memParts) s s1 := (s.goes_perf ..).lift (by decide)
  split
  · exact hcount
  · exact hcount.trans (s1.goes_memRead ..)

theorem goes_readLines (who : Nat) (l : List Nat) (s : State) : Goes (mask memRegs memParts) s (readLines who l s).1 := by
  induction l generalizing s with
  | nil => exact Goes.refl _ s
  | cons a l ih => exact (s.goes_ioRead who a).trans (ih _)

theorem State.goes_readBytes (s : State) (who a n : Nat) : Goes (mask memRegs memParts) s (s.readBytes who a n).1 := goes_readLines ..

theorem State.goes_rxDrop (s : State) (e : Nat) : Goes (mask (signals [.LANE_ETH_CNT]) (signalled [])) s (s.rxDrop e) :=
  ((Goes.refl _ s).bump _ _ 1 (mask_reg (by decide))).raisedOf _ _ _ (by decide)

theorem State.goes_setPause (s : State) (e i q : Nat) : Goes (mask [] [.ports]) s (s.setPause e i q) :=
  (Goes.refl _ s).set_ports _ (mask_part (by decide))

theorem State.goes_macControl (s : State) (e : Nat) (frame : List Byte) : Goes (mask [] [.ports]) s (s.macControl e frame) := by
  unfold State.macControl
  split
  · exact s.goes_setPause ..
  · exact (Goes.refl _ s).each _ _ fun p t => t.goes_setPause ..
  · exact Goes.refl _ s

/-- The registers of a frame that an Ethernet port receives. -/
def frameInRegs : List Reg := .LANE_ETH_CNT :: homeRegs

/-- The parts of a frame that an Ethernet port receives. -/
def frameInParts : List Part := .ports :: homeParts

theorem execEthFrameReceived_frame (e : Fin 80) (frame : List Byte) (fcsOk : Bool) (time : BitVec 64) (s : State) :
    ∃ t, execEthFrameReceived e frame fcsOk time s = .next t ∧ Goes (mask frameInRegs frameInParts) s t := by
  refine ⟨_, rfl, ?_⟩
  have hdrop : Goes (mask frameInRegs frameInParts) s (s.rxDrop e) := (s.goes_rxDrop e).lift (by decide)
  exact Goes.ite (Goes.refl _ s) <| Goes.ite hdrop <| Goes.ite ((s.goes_macControl e frame).lift (by decide)) <|
    Goes.ite hdrop ((s.goes_ioWrite ..).lift (by decide))

/-- The registers of a transmit slot that is taken. -/
def slotSentRegs : List Reg := .LANE_ETH_CNT :: .LANE_ETH_TXRD :: homeRegs

theorem execEthSlotSent_frame (e : Fin 80) (q : Fin 16) (s : State) :
    ∃ t, execEthSlotSent e q s = .next t ∧ Goes (mask slotSentRegs homeParts) s t := by
  refine ⟨_, rfl, ?_⟩
  extract_lets i x rdx a n bad r frame
  have hread : Goes (mask slotSentRegs homeParts) s r.1 := (s.goes_readBytes ..).lift (by decide)
  have hskips := (hread.write .LANE_ETH_TXRD_INDEX i (rdx + 1) (by decide)).bump .LANE_ETH_CNT_TX_BAD (e - 48) 1 (mask_reg (by decide))
  have hstamped : Goes (mask slotSentRegs homeParts) s (r.1.ioWrite (20 + e / 8) (a + 8) (le 8 s.tb) none) :=
    hread.step (r.1.goes_ioWrite ..) (by decide)
  exact Goes.ite (Goes.refl _ s) <| Goes.ite (Goes.refl _ s) <| Goes.ite hskips <| Goes.ite (Goes.refl _ s)
    ((hstamped.write _ i _ (by decide)).emit _ (mask_part (by decide)))

/-- The registers of an Ethernet port whose link changes. -/
def ethLinkRegs : List Reg := signals (.LANE_ETH_STAT :: trainRegs)

theorem execEthLinkChange_frame (e : Fin 80) (x : EthUp) (localFault remoteFault : Bool) (s : State) :
    ∃ t, execEthLinkChange e x localFault remoteFault s = .next t ∧ Goes (mask ethLinkRegs (signalled [])) s t := by
  refine ⟨_, rfl, Goes.ite (Goes.refl _ s) ?_⟩
  extract_lets i up s1 s2
  have htrained : Goes (mask ethLinkRegs (signalled [])) s s1 := (Goes.refl _ s).when _ _ fun t => (t.goes_lanesTrain ..).lift (by decide)
  have hlocal : Goes (mask ethLinkRegs (signalled [])) s s2 := (htrained.write _ i _ (by decide)).write _ i _ (by decide)
  exact (hlocal.write _ i _ (by decide)).raisedOf _ _ i (by decide)

/-! ### Domains that stop, and octets (R84, R87, R90, R93, R236..R238, R314) -/

/-- The registers of a domain that stops. -/
def stopDomainRegs : List Reg := signals [.DEV_ISL_RUN, .DEV_ISL_STOP, .MEM_STK_STAT, .PIN_GSTAT, .PIN_ICONF, .PIN_OCONF]

/-- The parts of a domain that stops. -/
def stopDomainParts : List Part := signalled [.flying, .pins, .trees]

theorem State.goes_stopDomain (s : State) (d : Nat) : Goes (mask stopDomainRegs stopDomainParts) s (s.stopDomain d) := by
  unfold State.stopDomain
  extract_lets s1 s2
  have hrun : Goes (mask stopDomainRegs stopDomainParts) s s1 := (Goes.refl _ s).putBit _ 0 d false (mask_reg (by decide))
  have hstack : Goes (mask stopDomainRegs stopDomainParts) s s2 := hrun.writeIf _ _ _ 1 (by decide)
  have hpins := (hstack.orFld .DEV_ISL_STOP_STOP 0 (2 ^ d) (mask_reg (by decide))).when (d == 22) (·.refreshPins) fun t =>
    t.goes_refreshPins.lift (by decide)
  exact Goes.ite (Goes.refl _ s) (Goes.ite hrun (hpins.raised 4 (by decide)))

/-- The registers of a loss of lock in an octet. -/
def pllLossRegs : List Reg := .DEV_OCT_STAT :: stopDomainRegs

theorem execOctetPllLoss_frame (x : PllLoss) (s : State) :
    ∃ t, execOctetPllLoss x s = .next t ∧ Goes (mask pllLossRegs stopDomainParts) s t := by
  refine ⟨_, rfl, Goes.ite (Goes.refl _ s) ?_⟩
  extract_lets s1 s2
  have hidle : Goes (mask pllLossRegs stopDomainParts) s s1 := (Goes.refl _ s).each _ _ fun l t => (Goes.refl _ t).emit _ (mask_part (by decide))
  have hlock : Goes (mask pllLossRegs stopDomainParts) s s2 :=
    ((hidle.write _ _ 0 (by decide)).writeIf _ _ _ 0 (by decide)).step (State.goes_showFollow _) (by decide)
  exact ((hlock.step (s2.goes_stopDomain _) (by decide)).write _ _ 1 (by decide)).raisedOf _ _ _ (by decide)

theorem State.goes_crossAssert (s : State) (d : Nat) (domainEnd : Bool) :
    Goes (mask [.DEV_ISL_HELD] [.crossings, .pulses, .samplers]) s (s.crossAssert d domainEnd) := by
  unfold State.crossAssert
  extract_lets c asserted s1 s2
  have hheld : Goes (mask [.DEV_ISL_HELD] [.crossings, .pulses, .samplers]) s s1 := (s.goes_setCrossing d _).lift (by decide)
  have hpulses : Goes (mask [.DEV_ISL_HELD] [.crossings, .pulses, .samplers]) s s2 :=
    Goes.ite (hheld.set_pulses _ (mask_part (by decide))) (hheld.set_pulses _ (mask_part (by decide)))
  exact (hpulses.set_samplers _ (mask_part (by decide))).putBit _ 0 d true (mask_reg (by decide))

/-- The registers of an octet whose standard protocols lose their links. -/
def protocolRegs : List Reg := [.LANE_ETH_CNT, .LANE_ETH_RXRD, .LANE_ETH_RXWR, .LANE_ETH_STAT, .LANE_ETH_TXRD, .LANE_ETH_TXWR] ++ rootPortRegs ++ endpointRegs

/-- The parts of an octet whose standard protocols lose their links. -/
def protocolParts : List Part := .memo :: rootPortParts ++ funcParts

theorem State.goes_protocolsDown (s : State) (k : Nat) : Goes (mask protocolRegs protocolParts) s (s.protocolsDown k) := by
  unfold State.protocolsDown
  extract_lets s1 mine s2
  have hendpoint : Goes (mask protocolRegs protocolParts) s s1 := (Goes.refl _ s).when _ _ fun t => t.goes_endpointReset.lift (by decide)
  have hshown : Goes (mask protocolRegs protocolParts) s s2 := hendpoint.step (s1.goes_setMem _) (by decide)
  refine Goes.ite ?_ (Goes.ite ?_ hendpoint)
  · exact hendpoint.each _ _ fun j t => (((t.goes_rpOff j).lift (by decide)).write _ j 0 (by decide)).write _ j 0 (by decide)
  · refine hshown.each _ _ fun i t => ?_
    extract_lets t1
    have hcounts : Goes (mask protocolRegs protocolParts) t t1 := ((t.goes_ethDown _).lift (by decide)).writeEach _ i (fun _ => 0) (by decide)
    exact hcounts.each _ _ fun q u => (Goes.refl _ u).writeEach _ (16 * i + q) (fun _ => 0) (by decide)

theorem State.goes_octetLanesReset (s : State) (k : Nat) (lost : List Lost) :
    Goes (mask laneResetRegs laneResetParts) s (s.octetLanesReset k lost) :=
  ((Goes.refl _ s).each _ _ fun l t => t.goes_laneReset l _).each _ _ fun m t => (t.goes_clearLink m).lift (by decide)

/-- The registers of an octet that is switched on or off. -/
def octetRegs : List Reg := .DEV_ISL_HELD :: .DEV_OCT_CTL :: laneResetRegs ++ protocolRegs ++ pllLossRegs

/-- The parts of an octet that is switched on or off. -/
def octetParts : List Part := .samplers :: laneResetParts ++ protocolParts

theorem State.goes_octetDown (s : State) (k : Nat) (lost : List Lost) : Goes (mask octetRegs octetParts) s (s.octetDown k lost) := by
  unfold State.octetDown
  extract_lets s1 s2
  have hlanes : Goes (mask octetRegs octetParts) s s1 :=
    ((s.goes_octetLanesReset k lost).lift (by decide)).step (State.goes_protocolsDown _ k) (by decide)
  have hlock : Goes (mask octetRegs octetParts) s s2 := (hlanes.write _ k 0 (by decide)).step (State.goes_showFollow _) (by decide)
  exact (hlock.step (s2.goes_crossAssert k true) (by decide)).step (State.goes_stopDomain _ k) (by decide)

theorem State.goes_octetOff (s : State) (k : Nat) (lost : List Lost) : Goes (mask octetRegs octetParts) s (s.octetOff k lost) :=
  (s.goes_octetDown k lost).write _ k 0 (by decide)

theorem State.goes_octetRefuse (s : State) (k : Nat) : Goes (mask (signals [.DEV_OCT_STAT]) (signalled [])) s (s.octetRefuse k) :=
  ((Goes.refl _ s).write _ k 1 (by decide)).raisedOf _ _ k (by decide)

theorem State.goes_octCtl (s : State) (k v : Nat) (lost : List Lost) : Goes (mask octetRegs octetParts) s (s.octCtl k v lost) := by
  unfold State.octCtl
  extract_lets same s1 other s2 s3
  have hkept : Goes (mask octetRegs octetParts) s s1 := (Goes.refl _ s).when _ _ fun t => (t.goes_octetRefuse k).lift (by decide)
  have hselected : Goes (mask octetRegs octetParts) s s2 := ((Goes.refl _ s).write _ k _ (by decide)).write _ k _ (by decide)
  have hpresent : Goes (mask octetRegs octetParts) s s3 := hselected.writeIf _ _ k _ (by decide)
  exact Goes.ite (Goes.ite hkept (hkept.trans (s1.goes_octetOff k lost))) <|
    Goes.ite hpresent (Goes.ite (hpresent.step (s3.goes_octetRefuse k) (by decide)) (hpresent.write _ k 1 (by decide)))

/-! ### The commands of lanes -/

/-- Settles O15: a command of a register is one access, whose write or read is an operation of a lane, an octet or a port, and every other command is such an
operation; the frame of each lies within the lists of its clause. -/
theorem frameOfLanes : Obligations.FrameOfLanes := by
  refine ⟨?_, ?_, ?_, ?_, ?_, ?_, ?_, ?_, ?_, ?_, ?_, ?_, ?_, ?_, ?_, ?_, ?_, ?_, ?_, ?_, ?_, ?_, ?_, ?_, ?_, ?_, ?_, ?_, ?_⟩
  -- octets
  · exact fun p k v s => Goes.answers rfl <| Goes.access (fun t => (t.goes_octCtl k _ _).lift (by decide)) s p _ _ _ _ (by decide)
  · exact fun p k v lost s => Goes.answers rfl <| Goes.access (fun t => (t.goes_octCtl k _ lost).lift (by decide)) s p _ _ _ _ (by decide)
  · exact fun x s => Goes.answered (execOctetPllLoss_frame x s) (by decide)
  -- rate, taps and adaptation
  · exact fun p l v s => Goes.answers rfl <| Goes.access (fun t => (t.goes_laneRate l _).lift (by decide)) s p _ _ _ _ (by decide)
  · exact fun p l v s => Goes.answers rfl <| Goes.access (fun t => (t.goes_laneTxeq l _).lift (by decide)) s p _ _ _ _ (by decide)
  · exact fun l ctle dfe s => Goes.answered (execAdaptDone_frame l ctle dfe s) (by decide)
  -- signal and lock
  · exact fun l announced s => Goes.answered (execLosAssert_frame l announced s) (by decide)
  · exact fun l s => Goes.answers rfl ((Goes.refl _ s).write _ l 0 (by decide))
  · exact fun l s => Goes.answers rfl <|
      Goes.ite (Goes.refl _ s) (((Goes.refl _ s).write _ l 1 (by decide)).step (State.goes_startTimer _ .lock l) (by decide))
  · exact fun l s => Goes.answers rfl <| Goes.ite (Goes.refl _ s) <|
      ((Goes.refl _ s).write _ l 0 (by decide)).step (State.goes_laneLoss _ l _ _ 2 rfl rfl) (by decide)
  -- lane resets and counts
  · exact fun l writer lost s => Goes.answered (execLaneReset_frame l writer lost s) (by decide)
  · exact fun p l v lost s => Goes.answers rfl <| Goes.access (fun t => (t.goes_laneCtl l _ lost).lift (by decide)) s p _ _ _ _ (by decide)
  · exact fun p x s => Goes.answers rfl <| Goes.trans
      ((Goes.refl _ s).when _ _ fun t => (Goes.refl _ t).bump _ x.lane _ (mask_reg (by decide)))
      (Goes.access (fun t => (t.goes_readClear p _ _).lift (by decide)) _ p _ _ _ _ (by decide))
  · exact fun p l s => Goes.answers rfl <| Goes.access (fun t => (t.goes_readClear p _ _).lift (by decide)) s p _ _ _ _ (by decide)
  -- bindings and the endpoint
  · exact fun p k v s => Goes.answers rfl <| Goes.access (fun t => (t.goes_octProto k _).lift (by decide)) s p _ _ _ _ (by decide)
  · exact fun lost s => Goes.answered (execPciePerstAssert_frame lost s) (by decide)
  · exact fun s => Goes.answered (execPciePerstRelease_frame s) (by decide)
  · exact fun s => Goes.answers rfl (s.goes_endpointReset.lift (by decide))
  · exact fun f s => Goes.answers rfl ((s.goes_funcReset [f.val]).lift (by decide))
  -- root ports
  · exact fun j s => Goes.answered (execDrivePresent_frame j s) (by decide)
  · exact fun j s => Goes.answers rfl (Goes.ite ((s.goes_setStage j 2).lift (by decide)) (Goes.refl _ s))
  · exact fun j width rate drive s => Goes.answered (execRpLinkUp_frame j width rate drive s) (by decide)
  · exact fun j removed s => Goes.answered (execRpContainment_frame j removed s) (by decide)
  -- Ethernet
  · exact fun e frame fcsOk time s => Goes.answered (execEthFrameReceived_frame e frame fcsOk time s) (by decide)
  · exact fun p e q v s => Goes.answers rfl <| Goes.ite (Goes.refl _ s) <|
      Goes.access (fun t => (Goes.refl _ t).write _ _ _ (by decide)) s p _ _ _ _ (by decide)
  · exact fun e q s => Goes.answered (execEthSlotSent_frame e q s) (by decide)
  · exact fun p e s => Goes.answers rfl <| Goes.ite (Goes.refl _ s) <|
      Goes.access (fun t => (t.goes_readClear p _ _).lift (by decide)) s p _ _ _ _ (by decide)
  -- links of standard protocols
  · exact fun width rate flit s => Goes.answered (execEndpointLinkUp_frame width rate flit s) (by decide)
  · exact fun e x localFault remoteFault s => Goes.answered (execEthLinkChange_frame e x localFault remoteFault s) (by decide)

end Sys2Proof.Machine
end

section
/-! PROOFS. Links as frames: DORMANT and what becomes of the traffic, requests for a width, ACTIVE, enabling, and received frames, flits and markers. -/

namespace Sys2Proof.Machine

/-! ### Steps of a link in a longer frame -/

/-- A link's own record, in a frame that lists the links. -/
theorem Goes.onLink {rs : List Reg} {ps : List Part} {s t : State} (h : Goes (mask rs ps) s t) (m : Nat) (g : Link → Link) (hp : .links ∈ ps) :
    Goes (mask rs ps) s (t.updLink m g) :=
  h.set_links _ (mask_part hp)

/-- A timer that starts, in a frame that lists the timers. -/
theorem Goes.timed {rs : List Reg} {ps : List Part} {s t : State} (h : Goes (mask rs ps) s t) (x : Timer) (i : Nat) (hp : .timers ∈ ps) :
    Goes (mask rs ps) s (t.startTimer x i) :=
  h.set_timers _ (mask_part hp)

/-- An error of a link, in a frame that lists LNK_ERR and what a raise may change. -/
theorem Goes.linkError {rs : List Reg} {ps : List Part} {s t : State} (h : Goes (mask rs ps) s t) (m : Nat) (f : Fld) (hf : f.spec.reg = .LNK_ERR)
    (hin : Inside (signals [.LNK_ERR]) (signalled []) rs ps) : Goes (mask rs ps) s (t.linkErr m f) :=
  h.step (t.goes_linkErr m f hf) hin

/-- An express slot that is sent, in a frame that lists its parts. -/
theorem Goes.sends {rs : List Reg} {ps : List Part} {s t : State} (h : Goes (mask rs ps) s t) (m code : Nat) (data : List Nat)
    (hin : Inside [] slotParts rs ps) : Goes (mask rs ps) s (t.sendExpress m code data) :=
  h.step (t.goes_sendExpress m code data) hin

theorem State.goes_linkRefuse (s : State) (m : Nat) : Goes (mask (signals [.LNK_ERR]) (signalled [])) s (s.linkRefuse m) :=
  s.goes_linkErrAlways m _ rfl

/-! ### DORMANT (R283, R291, R292) -/

/-- The registers of a link that goes DORMANT; none of its lanes, which a lane reset has beside them. -/
def dormantRegs : List Reg := [.DEV_XDROP, .LNK_CABLE, .LNK_CNT_FLIT, .LNK_CNT_LINK, .LNK_ERR, .LNK_LATENCY, .LNK_PARTNER_CAP, .LNK_PARTNER_PREP,
  .LNK_PARTNER_UID, .LNK_RING_STAT, .LNK_STAT] ++ insertRegs

/-- The traffic of a link is lost, without a register of its lanes. -/
theorem State.goes_loseTraffic_link (s : State) (m : Nat) : Goes (mask dormantRegs laneResetParts) s (s.loseTraffic m) := by
  unfold State.loseTraffic
  extract_lets x lost s1 held parts s2 s3
  have hcount : Goes (mask dormantRegs laneResetParts) s s2 := ((s.goes_unsent _).lift (by decide)).bump _ m _ (mask_reg (by decide))
  have hlanes : Goes (mask dormantRegs laneResetParts) s s3 := hcount.each _ _ fun l t =>
    Goes.set_fires_laneTx _ _ (mask_part (by decide)) (mask_part (by decide)) ((t.goes_dropPartial l).lift (by decide))
  exact (hlanes.onLink m _ (by decide)).step (State.goes_underruns _ lost) (by decide)

/-- A link goes DORMANT, without a register of its lanes. -/
theorem State.goes_goDormant_link (s : State) (m reason : Nat) : Goes (mask dormantRegs laneResetParts) s (s.goDormant m reason) := by
  unfold State.goDormant
  extract_lets s1 was s2 s3 s4 s5
  have hidle : Goes (mask dormantRegs laneResetParts) s s1 := (Goes.refl _ s).each _ _ fun l t => (Goes.refl _ t).emit _ (mask_part (by decide))
  have hdown : Goes (mask dormantRegs laneResetParts) s s3 := (hidle.trans (s1.goes_loseTraffic_link m)).when _ _ fun t =>
    ((Goes.refl _ t).write _ m 1 (by decide)).bump _ m 1 (mask_reg (by decide))
  have hreason : Goes (mask dormantRegs laneResetParts) s s4 :=
    ((hdown.step (s3.goes_setLinkState m 0) (by decide)).write _ m reason (by decide)).bump _ m 1 (mask_reg (by decide))
  have hlink : Goes (mask dormantRegs laneResetParts) s s5 := (hreason.write _ m 0 (by decide)).onLink m _ (by decide)
  exact (hlink.when _ _ fun t => (t.goes_clearLink m).lift (by decide)).raisedOf _ _ m (by decide)

theorem State.goes_dormant (s : State) (m reason : Nat) (lost : List Lost) :
    Goes (mask dormantRegs laneResetParts) s (s.dormant m reason lost) :=
  (s.goes_goDormant_link m reason).each _ _ fun l t =>
    ((t.goes_release ..).lift (by decide)).step (State.goes_lostLines _ l _) (by decide)

/-! ### Acknowledgement and replay (R276, R277) -/

theorem State.goes_acknowledge (s : State) (m next : Nat) : Goes (mask [] [.links]) s (s.acknowledge m next) :=
  (Goes.refl _ s).onLink m _ (by decide)

theorem State.goes_replayFrom (s : State) (m first : Nat) :
    Goes (mask (signals (counting [.LNK_CNT_FLIT])) (signalled [.links])) s (s.replayFrom m first) := by
  unfold State.replayFrom
  extract_lets es s1
  have hstriped : Goes (mask (signals (counting [.LNK_CNT_FLIT])) (signalled [.links])) s s1 :=
    (Goes.refl _ s).each _ _ fun e t => (t.goes_stripe ..).lift (by decide)
  exact (hstriped.bump _ m _ (mask_reg (by decide))).step (State.goes_perf ..) (by decide)

theorem State.goes_sendNak (s : State) (m : Nat) : Goes (mask [] (.timers :: slotParts)) s (s.sendNak m) :=
  Goes.ite (Goes.refl _ s) ((((Goes.refl _ s).onLink m _ (by decide)).sends m _ _ (by decide)).timed _ m (by decide))

/-! ### Requests for a width (R285, R290) -/

/-- The parts of a request for a width. -/
def askParts : List Part := signalled [.links, .timers]

/-- A request for a width is a slot and its timer, without the registers of a lane that fails. -/
theorem State.goes_sendWidth_slot (s : State) (m lanes : Nat) (immediate : Bool) (missing : Nat) :
    Goes (mask [] (.timers :: slotParts)) s (s.sendWidth m lanes immediate missing) :=
  (((Goes.refl _ s).onLink m _ (by decide)).sends m _ _ (by decide)).timed _ m (by decide)

theorem State.goes_askWidth (s : State) (m lanes : Nat) : Goes (mask (signals [.LNK_ERR]) askParts) s (s.askWidth m lanes) :=
  Goes.ite (Goes.refl _ s) <| Goes.ite ((s.goes_linkRefuse m).lift (by decide)) <|
    Goes.ite ((Goes.refl _ s).onLink m _ (by decide)) ((s.goes_sendWidth_slot ..).lift (by decide))

theorem State.goes_askAgain (s : State) (m : Nat) : Goes (mask (signals [.LNK_ERR]) askParts) s (s.askAgain m) := by
  have hwithdrawn : Goes (mask (signals [.LNK_ERR]) askParts) s (s.updLink m fun x => { x with again := none }) :=
    (Goes.refl _ s).onLink m _ (by decide)
  unfold State.askAgain
  split
  · exact Goes.refl _ s
  · exact Goes.ite hwithdrawn (hwithdrawn.trans (State.goes_askWidth _ m _))

/-- The registers of the lanes that a change of width adds. -/
def addedRegs : List Reg := [.LANE_CUR, .LANE_STAT, .LANE_TXEQ]

theorem State.goes_nameMarker (s : State) (m lanes : Nat) : Goes (mask [] [.links, .outputs]) s (s.nameMarker m lanes) :=
  ((Goes.refl _ s).onLink m _ (by decide)).when _ _ fun t => (Goes.refl _ t).emit _ (mask_part (by decide))

theorem State.goes_agreeWidth (s : State) (m lanes : Nat) :
    Goes (mask addedRegs [.links, .outputs, .timers]) s (s.agreeWidth m lanes) :=
  Goes.ite ((s.goes_nameMarker m lanes).lift (by decide)) <|
    (((s.goes_equalizeLanes m _ _).lift (by decide)).onLink m _ (by decide)).timed _ m (by decide)

/-- The registers of a change of width with what it resends. -/
def widthRegs : List Reg := .LNK_CNT_FLIT :: counting failRegs

theorem State.goes_widthReq (s : State) (m lanes : Nat) (immediate : Bool) (missing : Nat) :
    Goes (mask widthRegs failParts) s (s.widthReq m lanes immediate missing) := by
  unfold State.widthReq
  extract_lets accepted own resend planned
  have hresend {t : State} (h : Goes (mask widthRegs failParts) s t) : Goes (mask widthRegs failParts) s (resend t) :=
    h.when _ _ fun u => (u.goes_replayFrom m missing).lift (by decide)
  have hplanned {t : State} (h : Goes (mask widthRegs failParts) s t) : Goes (mask widthRegs failParts) s (planned t) :=
    Goes.ite (((h.write _ m 1 (by decide)).raisedOf _ _ m (by decide)).sends m _ _ (by decide))
      ((h.sends m _ _ (by decide)).step (State.goes_agreeWidth _ m _) (by decide))
  clear_value own
  split
  · exact Goes.ite (hresend ((s.goes_restripe m _ false).lift (by decide))) (hplanned (Goes.refl _ s))
  · refine Goes.ite (Goes.ite (Goes.refl _ s) (hplanned ((s.goes_yieldWidth m).lift (by decide)))) ?_
    extract_lets both s1
    have hmet : Goes (mask widthRegs failParts) s s1 := Goes.ite ((Goes.refl _ s).onLink m _ (by decide)) <|
      ((Goes.refl _ s).onLink m _ (by decide)).step (State.goes_linkErrAlways _ m _ rfl) (by decide)
    exact hresend (hmet.step (s1.goes_restripe m _ true) (by decide))

/-! ### ACTIVE (R283, R288) -/

/-- The registers of a link that becomes ACTIVE. -/
def linkUpRegs : List Reg := .LNK_RING_STAT :: .LNK_STAT :: pumpRegs

/-- The parts of a link that becomes ACTIVE. -/
def linkUpParts : List Part := .timers :: pumpParts

/-- What is replayed stands between the slots that were held and the rest of the entry to ACTIVE. -/
theorem State.goes_linkUp {rs : List Reg} {ps : List Part} {replay : State → State} (hreplay : ∀ t, Goes (mask rs ps) t (replay t)) (s : State)
    (m : Nat) (hin : Inside linkUpRegs linkUpParts rs ps) : Goes (mask rs ps) s (s.linkUp m replay) := by
  unfold State.linkUp
  extract_lets held s1 s2
  have hactive : Goes (mask linkUpRegs linkUpParts) s s1 :=
    (((s.goes_setLinkState m 6).lift (by decide)).timed _ m (by decide)).onLink m _ (by decide)
  have hslots : Goes (mask linkUpRegs linkUpParts) s (s1.each held fun e t => t.sendExpress m e.1 e.2) :=
    hactive.each _ _ fun e t => (t.goes_sendExpress ..).lift (by decide)
  have hgoesOn : Goes (mask linkUpRegs linkUpParts) s2 (((s2.raiseOf (octetSource m) .LNK_STAT m).askAgain m).pumpLink m) :=
    (((Goes.refl _ s2).raisedOf _ _ m (by decide)).step (State.goes_askAgain _ m) (by decide)).step (State.goes_pumpLink _ m) (by decide)
  exact ((hslots.lift hin).trans (hreplay _)).trans (hgoesOn.lift hin)

theorem State.goes_linkUp_id (s : State) (m : Nat) : Goes (mask linkUpRegs linkUpParts) s (s.linkUp m id) :=
  State.goes_linkUp (Goes.refl _) s m ⟨List.Subset.refl _, List.Subset.refl _⟩

/-! ### Enabling (R264, R291, R293) -/

theorem State.goes_sendTraining (s : State) (m : Nat) : Goes (mask [] [.outputs]) s (s.sendTraining m) :=
  (Goes.refl _ s).when _ _ fun t => (Goes.refl _ t).each _ _ fun l u => (Goes.refl _ u).emit _ (mask_part (by decide))

/-- The registers of a link that begins DETECT. -/
def detectRegs : List Reg := [.LANE_CUR, .LNK_RING_STAT, .LNK_STAT]

theorem State.goes_detect (s : State) (m : Nat) : Goes (mask detectRegs [.links, .outputs, .timers]) s (s.detect m) := by
  unfold State.detect
  extract_lets s1
  have hstate : Goes (mask detectRegs [.links, .outputs, .timers]) s s1 := ((s.goes_setLinkState m 1).lift (by decide)).onLink m _ (by decide)
  exact (hstate.each _ _ fun l t => (Goes.refl _ t).write _ l 1280 (by decide)).step (State.goes_sendTraining _ m) (by decide)

theorem State.goes_markMembers (s : State) (m : Nat) (v : Bool) : Goes (mask [.LNK_STAT] []) s (s.markMembers m v) :=
  (Goes.refl _ s).each _ _ fun l t => (Goes.refl _ t).write _ l _ (by decide)

/-- The registers of a write of LNK_CTL. -/
def lnkCtlRegs : List Reg := .LANE_CUR :: .LNK_CTL :: dormantRegs

theorem State.goes_linkOff (s : State) (m : Nat) (lost : List Lost) : Goes (mask lnkCtlRegs laneResetParts) s (s.linkOff m lost) := by
  unfold State.linkOff
  extract_lets s1
  have hdown : Goes (mask lnkCtlRegs laneResetParts) s s1 := (Goes.refl _ s).when _ _ fun t =>
    ((t.goes_linkExpress m _ _).lift (by decide)).step (State.goes_dormant _ m _ lost) (by decide)
  exact (hdown.step (s1.goes_markMembers m false) (by decide)).write _ m 0 (by decide)

theorem State.goes_lnkCtl (s : State) (m v : Nat) (lost : List Lost) : Goes (mask lnkCtlRegs laneResetParts) s (s.lnkCtl m v lost) := by
  unfold State.lnkCtl
  extract_lets lanes same s1 s2
  have hrefuse {t : State} (h : Goes (mask lnkCtlRegs laneResetParts) s t) : Goes (mask lnkCtlRegs laneResetParts) s (t.linkRefuse m) :=
    h.step (t.goes_linkRefuse m) (by decide)
  have hkept : Goes (mask lnkCtlRegs laneResetParts) s s1 := (Goes.refl _ s).when _ _ fun t => (t.goes_linkRefuse m).lift (by decide)
  have hfields : Goes (mask lnkCtlRegs laneResetParts) s s2 :=
    (((Goes.refl _ s).write _ m _ (by decide)).write _ m _ (by decide)).write _ m _ (by decide)
  refine Goes.ite (hrefuse (Goes.refl _ s)) <| Goes.ite (Goes.ite hkept (hkept.trans (s1.goes_linkOff m lost))) <|
    Goes.ite hfields <| Goes.ite (hrefuse hfields) ?_
  exact ((hfields.write _ m 1 (by decide)).step (State.goes_markMembers _ m true) (by decide)).step (State.goes_detect _ m) (by decide)

/-! ### Received frames and markers (R267, R268, R286) -/

/-- The registers of a frame whose decoding completes. -/
def decodedRegs : List Reg := .LNK_CNT_FEC :: counting failRegs

theorem execFrameDecoded_frame (m : Fin 144) (x : FrameResult) (types : List Byte) (s : State) :
    ∃ t, execFrameDecoded m x types s = .next t ∧ Goes (mask decodedRegs failParts) s t := by
  refine ⟨_, rfl, Goes.ite (Goes.refl _ s) ?_⟩
  extract_lets s1 replayable
  have hheard : Goes (mask decodedRegs failParts) s s1 := (Goes.refl _ s).when _ _ fun t => (Goes.refl _ t).timed _ m (by decide)
  split
  · exact hheard
  · exact hheard.bump _ m 1 (mask_reg (by decide))
  next s2 s3 l full s4 _ _ =>
    have hcount : Goes (mask decodedRegs failParts) s s2 :=
      ((hheard.bump _ m 1 (mask_reg (by decide))).linkError m _ rfl (by decide)).step (State.goes_perf ..) (by decide)
    have hasked : Goes (mask decodedRegs failParts) s s3 := hcount.when _ _ fun t => (t.goes_sendNak m).lift (by decide)
    exact (hasked.onLink m _ (by decide)).when _ _ fun t => (t.goes_laneFails m _).lift (by decide)

theorem execMarkerReceived_frame (m : Fin 144) (lane : Fin 8) (count : BitVec 32) (skew : Nat) (restripe : Bool) (s : State) :
    ∃ t, execMarkerReceived m lane count skew restripe s = .next t ∧ Goes (mask failRegs failParts) s t := by
  refine ⟨_, rfl, Goes.ite (Goes.refl _ s) ?_⟩
  extract_lets s1 s2
  have hmarked : Goes (mask failRegs failParts) s s2 :=
    ((Goes.refl _ s).onLink m _ (by decide)).when _ _ fun t => (Goes.refl _ t).onLink m _ (by decide)
  exact Goes.ite hmarked (Goes.ite (hmarked.write _ m _ (by decide)) (hmarked.trans (s2.goes_laneFails m _)))

end Sys2Proof.Machine
end

section
/-! PROOFS. Training, latency, express slots, beacons and changes of width of a link as frames, and with them what the commands of links leave alone, O16. -/

namespace Sys2Proof.Machine

/-! ### Training (R283, R284, R287) -/

theorem State.goes_equalize (s : State) (m lanes : Nat) (e : Nat × Bool) :
    Goes (mask (.LNK_RING_STAT :: .LNK_STAT :: addedRegs) [.timers]) s (s.equalize m lanes e) :=
  (((s.goes_setLinkState m 3).lift (by decide)).write _ m _ (by decide)).step (State.goes_equalizeLanes _ m _ _) (by decide)

/-- The registers of a link that trains. -/
def linkTrainRegs : List Reg := addedRegs ++ dormantRegs

theorem State.goes_probe (s : State) (m : Nat) (lost : List Lost) : Goes (mask linkTrainRegs laneResetParts) s (s.probe m lost) := by
  refine Goes.ite (Goes.refl _ s) ?_
  split
  · exact (s.goes_equalize ..).lift (by decide)
  · exact (s.goes_dormant ..).lift (by decide)

theorem execTrainingFrameReceived_frame (m : Fin 144) (uid : BitVec 64) (x : TrainedLanes) (rate : BitVec 20) (lost : List Lost) (s : State) :
    ∃ t, execTrainingFrameReceived m uid x rate lost s = .next t ∧ Goes (mask linkTrainRegs laneResetParts) s t := by
  refine ⟨_, rfl, ?_⟩
  extract_lets lanes st s1 s2 s3
  have hfound : Goes (mask linkTrainRegs laneResetParts) s s1 := (Goes.refl _ s).when _ _ fun t =>
    ((t.goes_setLinkState m 2).lift (by decide)).step (State.goes_sendTraining _ m) (by decide)
  have hpartner : Goes (mask linkTrainRegs laneResetParts) s s3 :=
    ((hfound.write _ m _ (by decide)).write _ m _ (by decide)).onLink m _ (by decide)
  have hdormant (reason : Nat) : Goes (mask linkTrainRegs laneResetParts) s (s3.dormant m reason lost) :=
    hpartner.step (s3.goes_dormant ..) (by decide)
  exact Goes.ite (Goes.refl _ s) <| Goes.ite (Goes.refl _ s) <|
    Goes.ite (Goes.ite (hdormant 3) (Goes.ite (hdormant 4) (hpartner.trans (s3.goes_probe m lost)))) (Goes.refl _ s)

theorem execEqualizeDone_frame (m : Fin 144) (x : Equalized) (s : State) :
    ∃ t, execEqualizeDone m x s = .next t ∧ Goes (mask [.LANE_TXEQ, .LNK_RING_STAT, .LNK_STAT] [.links, .timers]) s t := by
  refine ⟨_, rfl, ?_⟩
  extract_lets lanes st settle
  have hsettled : Goes (mask [.LANE_TXEQ, .LNK_RING_STAT, .LNK_STAT] [.links, .timers]) s (settle s) :=
    ((Goes.refl _ s).each _ _ fun i t => (t.goes_moveTaps ..).lift (by decide)).write _ m _ (by decide)
  exact Goes.ite (Goes.refl _ s) <| Goes.ite (hsettled.step (State.goes_setLinkState _ m 4) (by decide)) <|
    Goes.ite (hsettled.onLink m _ (by decide)) (Goes.refl _ s)

/-- The registers of a link whose lanes are aligned. -/
def alignRegs : List Reg := .LNK_CNT_FLIT :: linkUpRegs

theorem execAlignDone_frame (m : Fin 144) (lanes : BitVec 8) (expects : BitVec 32) (s : State) :
    ∃ t, execAlignDone m lanes expects s = .next t ∧ Goes (mask alignRegs linkUpParts) s t := by
  refine ⟨_, rfl, ?_⟩
  extract_lets met st s1 s2
  have hcapability : Goes (mask alignRegs linkUpParts) s s1 :=
    (((Goes.refl _ s).write _ m _ (by decide)).step (State.goes_setLinkState _ m 5) (by decide)).onLink m _ (by decide)
  have hactive : Goes (mask alignRegs linkUpParts) s s2 := ((Goes.refl _ s).write _ m _ (by decide)).onLink m _ (by decide)
  refine Goes.ite (Goes.refl _ s) <| Goes.ite (hcapability.step (s1.goes_sendFlit m _) (by decide)) <| Goes.ite ?_ (Goes.refl _ s)
  exact (hactive.step (s2.goes_acknowledge m _) (by decide)).trans <|
    State.goes_linkUp (fun t => (t.goes_replayFrom m _).lift (by decide)) _ m (by decide)

theorem State.goes_showCable (s : State) (m : Nat) : Goes (mask [.LNK_CABLE] []) s (s.showCable m) :=
  Goes.ite (Goes.refl _ s) ((Goes.refl _ s).write _ m _ (by decide))

theorem execCapabilityReceived_frame (m : Fin 144) (c : Capability) (lost : List Lost) (s : State) :
    ∃ t, execCapabilityReceived m c lost s = .next t ∧ Goes (mask dormantRegs laneResetParts) s t := by
  refine ⟨_, rfl, ?_⟩
  extract_lets x credits own fits tx rx bad s1 s2
  have hpartner : Goes (mask dormantRegs laneResetParts) s s2 :=
    ((((Goes.refl _ s).write _ m _ (by decide)).write _ m _ (by decide)).write _ m _ (by decide)).write _ m _ (by decide) |>.onLink m _ (by decide)
  have hanswered := (hpartner.step (s2.goes_showCable m) (by decide)).sends m 4 [rx] (by decide)
  exact Goes.ite (Goes.refl _ s) <| Goes.ite (s.goes_dormant ..) <|
    hanswered.when _ _ fun t => (t.goes_linkUp_id m).lift (by decide)

theorem execLinkStateTimeout_frame (m : Fin 144) (lost : List Lost) (s : State) :
    ∃ t, execLinkStateTimeout m lost s = .next t ∧ Goes (mask linkTrainRegs laneResetParts) s t := by
  refine ⟨_, rfl, Goes.ite (Goes.refl _ s) ?_⟩
  have hdormant (reason : Nat) : Goes (mask linkTrainRegs laneResetParts) s (s.dormant m reason lost) := (s.goes_dormant ..).lift (by decide)
  have hlower (e : Nat × Bool) :
      Goes (mask linkTrainRegs laneResetParts) s ((s.updLink m fun y => { y with falls := y.falls + 1 }).equalize m (s.link m).common e) :=
    ((Goes.refl _ s).onLink m _ (by decide)).step (State.goes_equalize ..) (by decide)
  split
  · exact hdormant 1
  · exact hdormant 2
  · extract_lets lower
    clear_value lower
    split
    · exact Goes.ite (hlower _) (hdormant 5)
    · exact hdormant 5
  · exact hdormant 6
  · exact hdormant 7
  · exact hdormant 9
  · exact Goes.refl _ s

/-! ### Express slots received (R271, R275..R277, R281, R285) -/

/-- The registers of an ACK: the slot's, and those of a link that becomes ACTIVE. -/
def ackRegs : List Reg := .LNK_CNT_EXP :: linkUpRegs

theorem execExpressAck_frame (x : Slot) (next : BitVec 32) (s : State) :
    ∃ t, execExpressAck x next s = .next t ∧ Goes (mask ackRegs linkUpParts) s t := by
  refine ⟨_, rfl, Goes.expressIn (fun t => Goes.ite ?_ ?_) s _ _ _ (by decide)⟩
  · exact ((Goes.refl _ t).onLink x.link _ (by decide)).when _ _ fun u => (u.goes_linkUp_id x.link).lift (by decide)
  · exact ((t.goes_acknowledge ..).lift (by decide)).step (State.goes_pumpLink _ x.link) (by decide)

/-- The registers of a NAK: the slot's, those of a replay, and those of what waits for the link. -/
def nakRegs : List Reg := .LNK_CNT_EXP :: .LNK_CNT_FLIT :: pumpRegs

theorem execExpressNak_frame (x : Slot) (missing : BitVec 32) (s : State) :
    ∃ t, execExpressNak x missing s = .next t ∧ Goes (mask nakRegs pumpParts) s t := by
  refine ⟨_, rfl, Goes.expressIn (fun t => ?_) s _ _ _ (by decide)⟩
  refine Goes.ite ((t.goes_replayFrom ..).lift (by decide)) (Goes.ite (Goes.refl _ t) ?_)
  exact (((t.goes_acknowledge ..).lift (by decide)).step (State.goes_replayFrom _ x.link _) (by decide)).step (State.goes_pumpLink _ x.link) (by decide)

/-- The registers of a slot that may end PROBE. -/
def replyRegs : List Reg := .LNK_CNT_EXP :: linkTrainRegs

theorem execExpressTimingReply_frame (x : Slot) (turnaround : BitVec 32) (of : BitVec 16) (arrived : BitVec 64) (lost : List Lost) (s : State) :
    ∃ t, execExpressTimingReply x turnaround of arrived lost s = .next t ∧ Goes (mask replyRegs laneResetParts) s t := by
  refine ⟨_, rfl, Goes.expressIn (fun t => ?_) s _ _ _ (by decide)⟩
  split
  · refine Goes.ite (Goes.refl _ t) ?_
    extract_lets m lats t1 r
    have hpair : Goes (mask replyRegs laneResetParts) t t1 := (Goes.refl _ t).onLink m _ (by decide)
    have hrounded : Goes (mask replyRegs laneResetParts) t r.1 := hpair.step (t1.goes_roundFree ..) (by decide)
    exact ((hrounded.write _ m _ (by decide)).step (State.goes_showCable _ m) (by decide)).step (State.goes_probe _ m lost) (by decide)
  · exact Goes.refl _ t

/-- The registers of a WIDTH_ACK. -/
def widthAckRegs : List Reg := signals (.LNK_CNT_EXP :: .LNK_ERR :: addedRegs)

theorem execExpressWidthAck_frame (x : Slot) (lanes : BitVec 8) (s : State) :
    ∃ t, execExpressWidthAck x lanes s = .next t ∧ Goes (mask widthAckRegs askParts) s t := by
  refine ⟨_, rfl, Goes.expressIn (fun t => ?_) s _ _ _ (by decide)⟩
  split
  · refine Goes.ite (Goes.refl _ t) ?_
    extract_lets t1 named both
    have hended : Goes (mask widthAckRegs askParts) t t1 := (Goes.refl _ t).onLink x.link _ (by decide)
    exact Goes.ite hended (hended.step (t1.goes_agreeWidth ..) (by decide))
  · exact Goes.refl _ t

/-! ### Slots that are sent again, fire lines and beacons (R274, R277, R279, R280) -/

theorem execNakRepeat_frame (m : Fin 144) (s : State) : ∃ t, execNakRepeat m s = .next t ∧ Goes (mask [] (.timers :: slotParts)) s t := by
  refine ⟨_, rfl, ?_⟩
  split
  · exact Goes.ite (((s.goes_emitSlot ..).lift (by decide)).timed _ m (by decide)) (Goes.refl _ s)
  · exact Goes.refl _ s

/-- The parts of a fire line that is skipped. -/
def deadlineParts : List Part := .laneSkip :: .laneTx :: pumpParts

theorem execFireLineDeadline_frame (l : Fin 140) (postmark : BitVec 64) (s : State) :
    ∃ t, execFireLineDeadline l postmark s = .next t ∧ Goes (mask pumpRegs deadlineParts) s t := by
  refine ⟨_, rfl, ?_⟩
  extract_lets pm b
  have hskips {t : State} (m row : Nat) (h : Goes (mask pumpRegs deadlineParts) s t) :
      Goes (mask pumpRegs deadlineParts) s ((t.skipLine m l pm row).pumpLink m) :=
    (h.step (t.goes_skipLine ..) (by decide)).step (State.goes_pumpLink _ m) (by decide)
  split
  · exact Goes.refl _ s
  · split
    · exact hskips _ _ ((Goes.refl _ s).set_fires _ (mask_part (by decide)))
    · exact Goes.ite (hskips _ _ ((s.goes_dropPartial l).lift (by decide))) (Goes.refl _ s)

/-- The registers of a beacon instant. -/
def instantRegs : List Reg := signals (counting [.LNK_CNT_EXP, .LNK_ERR])

theorem execBeaconSend_frame (m : Fin 144) (blocked : Bool) (s : State) :
    ∃ t, execBeaconSend m blocked s = .next t ∧ Goes (mask instantRegs (signalled [.links])) s t := by
  refine ⟨_, rfl, Goes.ite (Goes.refl _ s) ?_⟩
  extract_lets old s1 fs s2
  have hreplaced : Goes (mask instantRegs (signalled [.links])) s s1 := (Goes.refl _ s).when _ _ fun t =>
    ((Goes.refl _ t).bump _ m _ (mask_reg (by decide))).linkError m _ rfl (by decide)
  have hinstant : Goes (mask instantRegs (signalled [.links])) s s2 := hreplaced.onLink m _ (by decide)
  exact Goes.ite hinstant <| (hinstant.step (s2.goes_passBulk ..) (by decide)).each _ _ fun b t =>
    ((t.goes_stripe ..).lift (by decide)).step (State.goes_perf ..) (by decide)

/-! ### Changes of width (R241, R285, R286, R289, R290) -/

theorem State.goes_lnkCmd (s : State) (m v : Nat) : Goes (mask failRegs failParts) s (s.lnkCmd m v) := by
  unfold State.lnkCmd
  extract_lets width lanes s1
  have hretrained : Goes (mask failRegs failParts) s s1 := ((Goes.refl _ s).sends m _ _ (by decide)).trans (State.goes_retrain _ m)
  exact Goes.ite (Goes.refl _ s) <| Goes.ite (Goes.ite (hretrained.onLink m _ (by decide)) hretrained) <|
    Goes.ite ((s.goes_askWidth m _).lift (by decide)) (Goes.refl _ s)

theorem execWidthReqResend_frame (m : Fin 144) (s : State) : ∃ t, execWidthReqResend m s = .next t ∧ Goes (mask failRegs failParts) s t := by
  refine ⟨_, rfl, ?_⟩
  split
  · exact Goes.refl _ s
  · refine Goes.ite (Goes.refl _ s) (Goes.ite (s.goes_retrain m) ?_)
    exact (((Goes.refl _ s).onLink m _ (by decide)).step (State.goes_emitSlot _ m _ _ _) (by decide)).timed _ m (by decide)

/-- The registers of lanes that have been added. -/
def joinedRegs : List Reg := signals [.LANE_TXEQ, .LNK_ERR]

theorem execWidthLanesAdded_frame (m : Fin 144) (x : Equalized) (s : State) :
    ∃ t, execWidthLanesAdded m x s = .next t ∧ Goes (mask joinedRegs (signalled [.links])) s t := by
  refine ⟨_, rfl, ?_⟩
  split
  · extract_lets old done new s1
    have htaps : Goes (mask joinedRegs (signalled [.links])) s s1 := (Goes.refl _ s).each _ _ fun i t => (t.goes_moveTaps ..).lift (by decide)
    exact Goes.ite (Goes.refl _ s) <| Goes.ite ((htaps.onLink m _ (by decide)).step (State.goes_linkRefuse _ m) (by decide))
      (htaps.step (s1.goes_nameMarker m _) (by decide))
  · exact Goes.refl _ s

theorem execWidthSwitchMarker_frame (m : Fin 144) (s : State) :
    ∃ t, execWidthSwitchMarker m s = .next t ∧ Goes (mask failRegs failParts) s t := by
  refine ⟨_, rfl, ?_⟩
  split
  · extract_lets lanes s1 joined
    have hmarked : Goes (mask failRegs failParts) s s1 := (s.goes_sendMarker ..).lift (by decide)
    exact Goes.ite ((hmarked.onLink m _ (by decide)).trans (State.goes_retrain _ m))
      (((hmarked.onLink m _ (by decide)).trans (State.goes_applyMask _ m _)).step (State.goes_askAgain _ m) (by decide))
  · exact Goes.refl _ s

theorem execLaneRejoin_frame (l : Fin 144) (s : State) :
    ∃ t, execLaneRejoin l s = .next t ∧ Goes (mask (signals [.LNK_ERR]) askParts) s t := by
  refine ⟨_, rfl, ?_⟩
  split
  · exact Goes.refl _ s
  · exact Goes.ite (s.goes_askWidth ..) (Goes.refl _ s)

/-! ### Counters (R9, R293) -/

/-- The registers of a read of a link's counters. -/
def cntReadRegs : List Reg := signals (errors [.LNK_CNT_EXP, .LNK_CNT_FEC, .LNK_CNT_FLIT, .LNK_CNT_LINK])

theorem lnkCnt_subset : ∀ k : Fin 4, [lnkCnt k] ⊆ cntReadRegs := by decide

theorem execLnkCntRead_frame (p : Port) (m : Fin 144) (k : Fin 4) (s : State) :
    ∃ t, execLnkCntRead p m k s = .next t ∧ Goes (mask cntReadRegs (signalled [.crossings, .waiting])) s t :=
  ⟨_, rfl, Goes.access (fun t => (t.goes_readClear p _ m).lift ⟨lnkCnt_subset k, by decide⟩) s p _ _ _ _ (by decide)⟩

/-! ### The commands of links -/

/-- Settles O16: a slot is dropped, counted or acted on, a write or read of a register is one access, and every other command is an operation of its link; the
frame of each lies within the lists of its clause. -/
theorem frameOfLinks : Obligations.FrameOfLinks := by
  refine ⟨?_, ?_, ?_, ?_, ?_, ?_, ?_, ?_, ?_, ?_, ?_, ?_, ?_, ?_, ?_, ?_, ?_, ?_, ?_, ?_, ?_, ?_, ?_, ?_, ?_, ?_, ?_, ?_, ?_, ?_, ?_, ?_, ?_, ?_, ?_, ?_, ?_, ?_⟩
  -- enabling, frames, markers and credit
  · exact fun p m v s => Goes.answers rfl <| Goes.access (fun t => (t.goes_lnkCtl m _ []).lift (by decide)) s p _ _ _ _ (by decide)
  · exact fun p m v lost s => Goes.answers rfl <| Goes.access (fun t => (t.goes_lnkCtl m _ lost).lift (by decide)) s p _ _ _ _ (by decide)
  · exact fun m x types s => Goes.answered (execFrameDecoded_frame m x types s) (by decide)
  · exact fun m lane count skew restripe s => Goes.answered (execMarkerReceived_frame m lane count skew restripe s) (by decide)
  · exact fun m s => Goes.answers rfl <| Goes.ite (((Goes.refl _ s).onLink m _ (by decide)).sends m _ _ (by decide)) (Goes.refl _ s)
  -- express slots received
  · exact fun x reason s => Goes.answers rfl <| Goes.expressIn (Goes.refl _) s x _ _ (by decide)
  · exact fun x postmark s => Goes.answers rfl <| Goes.expressIn (Goes.refl _) s x _ _ (by decide)
  · exact fun x vl0 vl2 vl3 s => Goes.answers rfl <| Goes.expressIn (fun t => Goes.ite (Goes.refl _ t) <|
      ((Goes.refl _ t).onLink x.link _ (by decide)).step (State.goes_pumpLink _ x.link) (by decide)) s x _ _ (by decide)
  · exact fun x next s => Goes.answered (execExpressAck_frame x next s) (by decide)
  · exact fun x missing s => Goes.answered (execExpressNak_frame x missing s) (by decide)
  · exact fun x turnaround s => Goes.answers rfl <| Goes.expressIn (fun t =>
      (Goes.refl _ t).when _ _ fun u => (u.goes_sendExpress ..).lift (by decide)) s x _ _ (by decide)
  · exact fun x turnaround timing arrived lost s => Goes.answered (execExpressTimingReply_frame x turnaround timing arrived lost s) (by decide)
  · exact fun x s => Goes.answers rfl <| Goes.expressIn (fun t => (t.goes_retrain x.link).lift (by decide)) s x _ _ (by decide)
  · exact fun x lanes immediate missing s => Goes.answers rfl <| Goes.expressIn (fun t =>
      Goes.ite ((t.goes_widthReq x.link ..).lift (by decide)) (Goes.refl _ t)) s x _ _ (by decide)
  · exact fun x lanes s => Goes.answered (execExpressWidthAck_frame x lanes s) (by decide)
  · exact fun x lost s => Goes.answers rfl <| Goes.expressIn (fun t =>
      Goes.ite (Goes.refl _ t) ((t.goes_dormant x.link _ lost).lift (by decide))) s x _ _ (by decide)
  -- slots sent, fire lines, beacons and latency
  · exact fun m s => Goes.answers rfl <| Goes.ite (((Goes.refl _ s).onLink m _ (by decide)).sends m _ _ (by decide)) (Goes.refl _ s)
  · exact fun m s => Goes.answered (execNakRepeat_frame m s) (by decide)
  · exact fun l postmark s => Goes.answered (execFireLineDeadline_frame l postmark s) (by decide)
  · exact fun m blocked s => Goes.answered (execBeaconSend_frame m blocked s) (by decide)
  · exact fun m s => Goes.answers rfl <|
      Goes.ite ((((Goes.refl _ s).onLink m _ (by decide)).sends m _ _ (by decide)).timed _ m (by decide)) (Goes.refl _ s)
  · exact fun m s => Goes.answers rfl <| Goes.ite ((Goes.refl _ s).onLink m _ (by decide)) (Goes.refl _ s)
  -- training
  · exact fun m uid x rate lost s => Goes.answered (execTrainingFrameReceived_frame m uid x rate lost s) (by decide)
  · exact fun m x s => Goes.answered (execEqualizeDone_frame m x s) (by decide)
  · exact fun m lanes expects s => Goes.answered (execAlignDone_frame m lanes expects s) (by decide)
  · exact fun m c lost s => Goes.answered (execCapabilityReceived_frame m c lost s) (by decide)
  · exact fun m lost s => Goes.answered (execLinkStateTimeout_frame m lost s) (by decide)
  -- retrains and changes of width
  · exact fun p m s => Goes.answers rfl <| Goes.access (fun t => (t.goes_lnkCmd m _).lift (by decide)) s p _ _ _ _ (by decide)
  · exact fun p m lanes s => Goes.answers rfl <| Goes.access (fun t => (t.goes_lnkCmd m _).lift (by decide)) s p _ _ _ _ (by decide)
  · exact fun m s => Goes.answered (execWidthReqResend_frame m s) (by decide)
  · exact fun m x s => Goes.answered (execWidthLanesAdded_frame m x s) (by decide)
  · exact fun m s => Goes.answered (execWidthSwitchMarker_frame m s) (by decide)
  · exact fun m lanes s => Goes.answers rfl ((s.goes_laneFails m _).lift (by decide))
  · exact fun m s => Goes.answers rfl (Goes.ite ((s.goes_retrain m).lift (by decide)) (Goes.refl _ s))
  -- DORMANT and ACTIVE as times end, counters, and a lane that comes back
  · exact fun m s => Goes.answers rfl (Goes.ite ((s.goes_detect m).lift (by decide)) (Goes.refl _ s))
  · exact fun m s => Goes.answers rfl (Goes.ite ((Goes.refl _ s).write _ m 0 (by decide)) (Goes.refl _ s))
  · exact fun p m k s => Goes.answered (execLnkCntRead_frame p m k s) (by decide)
  · exact fun l s => Goes.answered (execLaneRejoin_frame l s) (by decide)

end Sys2Proof.Machine
end

section
/-! PROOFS. O3, O41, O4 and O43: what holds of the agenda of every command and of the state after reset. -/

namespace Sys2Proof.Machine

/-- Settles O3: every command answers with its agenda. -/
theorem everyCommandAnswers : Obligations.EveryCommandAnswers := by
  intro c s
  have h := exec_answers c s
  cases hx : exec c s with
  | next t => exact ⟨t, rfl⟩
  | _ => rw [hx] at h; exact h.elim

theorem State.clock_of_agenda {s : State} {v : List Instr × Nat} (h : s.agenda = v) : s.clock = v.2 := congrArg Prod.snd h

/-- Settles O41: a command leaves the clock, as the agenda holds it; a tick moves it by 1. -/
theorem clockCountsTheTicks : Obligations.ClockCountsTheTicks := by
  intro s t h
  unfold step at h
  split at h
  · next c rest hs =>
    have hclock : t.clock = s.clock := State.clock_of_agenda (agenda_of_exec h)
    simp [hs, hclock]
  · next hs =>
    have hclock : s.tick.clock = s.clock + 1 := State.clock_of_agenda s.tick_agenda
    simp [hs, ← Host.Outcome.next.inj h, hclock]

/-- Settles O4. -/
theorem resetIsCanonical : Obligations.ResetIsCanonical := ⟨rfl, rfl, rfl⟩

/-- Settles O43. -/
theorem resetShowsTheFuses : Obligations.ResetShowsTheFuses := ⟨by unfold State.ShowsFuses; decide +kernel, by decide +kernel⟩

end Sys2Proof.Machine
end

section
/-! PROOFS. Byte strings and blocks: numbers written as bytes or blocks are read back; counter mode and the tweaked cipher are undone. O48. -/

namespace Sys2Proof.Machine

/-! ### Numbers as bytes -/

@[simp] theorem length_le (n v : Nat) : (le n v).length = n := by
  induction n generalizing v with
  | zero => rfl
  | succ n ih => simp [le, ih]

theorem ofLe_le (n v : Nat) : ofLe (le n v) = v % 256 ^ n := by
  induction n generalizing v with
  | zero => simp [le, ofLe, Nat.mod_one]
  | succ n ih => rw [le, ofLe, ih, BitVec.toNat_ofNat, pow_succ' (256 : Nat), Nat.mod_mul]

theorem ofLe_le_of_lt {n v : Nat} (h : v < 256 ^ n) : ofLe (le n v) = v := by rw [ofLe_le, Nat.mod_eq_of_lt h]

theorem ofLe_append (a b : List Byte) : ofLe (a ++ b) = ofLe a + 256 ^ a.length * ofLe b := by
  induction a with
  | nil => simp [ofLe]
  | cons x a ih => rw [List.cons_append, ofLe, ofLe, ih, List.length_cons, Nat.pow_succ']; ring

/-! ### Numbers as blocks -/

@[simp] theorem length_blocksOf (n v : Nat) : (blocksOf n v).length = n := by
  induction n generalizing v with
  | zero => rfl
  | succ n ih => simp [blocksOf, ih]

theorem ofBlocks_blocksOf (n v : Nat) : ofBlocks (blocksOf n v) = v % (2 ^ 128) ^ n := by
  induction n generalizing v with
  | zero => simp [blocksOf, ofBlocks, Nat.mod_one]
  | succ n ih => rw [blocksOf, ofBlocks, ih, BitVec.toNat_ofNat, pow_succ' ((2 : Nat) ^ 128), Nat.mod_mul]

theorem blocksOf_ofBlocks (u : List (BitVec 128)) : blocksOf u.length (ofBlocks u) = u := by
  induction u with
  | nil => rfl
  | cons b u ih =>
    have hlow : BitVec.ofNat 128 (b.toNat + 2 ^ 128 * ofBlocks u) = b := by
      apply BitVec.eq_of_toNat_eq
      rw [BitVec.toNat_ofNat, Nat.add_mul_mod_self_left, Nat.mod_eq_of_lt b.isLt]
    have hhigh : (b.toNat + 2 ^ 128 * ofBlocks u) / 2 ^ 128 = ofBlocks u := by
      rw [Nat.add_mul_div_left _ _ (Nat.two_pow_pos _), Nat.div_eq_of_lt b.isLt, Nat.zero_add]
    rw [List.length_cons, ofBlocks, blocksOf, hlow, hhigh, ih]

theorem ofBlocks_lt (u : List (BitVec 128)) : ofBlocks u < (2 ^ 128) ^ u.length := by
  rw [← blocksOf_ofBlocks u, ofBlocks_blocksOf, length_blocksOf]
  exact Nat.mod_lt _ (Nat.pow_pos (Nat.two_pow_pos _))

/-! ### The tweaked cipher and counter mode -/

@[simp] theorem length_xtsUnit (f : BitVec 128 → BitVec 128) (t : BitVec 128) (u : List (BitVec 128)) : (xtsUnit f t u).length = u.length := by
  induction u generalizing t with
  | nil => rfl
  | cons b u ih => simp [xtsUnit, ih]

/-- What a unit has become through a permutation goes back through its inverse. -/
theorem xtsUnit_symm (e : Equiv.Perm (BitVec 128)) (t : BitVec 128) (u : List (BitVec 128)) : xtsUnit e.symm t (xtsUnit e t u) = u := by
  induction u generalizing t with
  | nil => rfl
  | cons b u ih =>
    have hfirst : e.symm (e (b ^^^ t) ^^^ t ^^^ t) ^^^ t = b := by
      rw [BitVec.xor_assoc, BitVec.xor_self, BitVec.xor_zero, Equiv.symm_apply_apply, BitVec.xor_assoc, BitVec.xor_self, BitVec.xor_zero]
    rw [xtsUnit, xtsUnit, hfirst, ih]

theorem xtsDecrypt_xtsEncrypt (k1 k2 : BitVec 256) (tweak : BitVec 128) (u : List (BitVec 128)) :
    xtsDecrypt k1 k2 tweak (xtsEncrypt k1 k2 tweak u) = u := xtsUnit_symm _ _ u

theorem length_flatMap_le (n : Nat) (f : Nat → Nat) (l : List Nat) : (l.flatMap fun i => le n (f i)).length = l.length * n := by
  simp [List.length_flatMap]

/-- A text added twice to a pad that covers it is the text. -/
theorem zipWith_xor_twice (text pad : List Byte) (h : text.length ≤ pad.length) :
    List.zipWith (· ^^^ ·) (List.zipWith (· ^^^ ·) text pad) pad = text := by
  induction text generalizing pad with
  | nil => simp
  | cons x text ih =>
    cases pad with
    | nil => simp at h
    | cons y pad =>
      have hx : x ^^^ y ^^^ y = x := by rw [BitVec.xor_assoc, BitVec.xor_self, BitVec.xor_zero]
      simp [hx, ih pad (by simpa using h)]

/-- The pad of GCM's counter mode for a text of `n` bytes. -/
def gcmPad (key : BitVec 256) (iv : List Byte) (n : Nat) : List Byte :=
  (List.range ((n + 15) / 16)).flatMap fun i => le 16 (Config.aes key (gcmCounter iv (i + 2))).toNat

theorem gcmCrypt_eq (key : BitVec 256) (iv text : List Byte) :
    gcmCrypt key iv text = List.zipWith (· ^^^ ·) text (gcmPad key iv text.length) := rfl

theorem le_length_gcmPad (key : BitVec 256) (iv : List Byte) (n : Nat) : n ≤ (gcmPad key iv n).length := by
  rw [gcmPad, length_flatMap_le, List.length_range]
  omega

@[simp] theorem length_gcmCrypt (key : BitVec 256) (iv text : List Byte) : (gcmCrypt key iv text).length = text.length := by
  rw [gcmCrypt_eq, List.length_zipWith, Nat.min_eq_left (le_length_gcmPad ..)]

/-- Settles O48: both directions add the same pad, which covers the text. -/
theorem counterModeDecrypts : Obligations.CounterModeDecrypts := by
  intro key iv text
  refine ⟨length_gcmCrypt key iv text, ?_⟩
  rw [gcmCrypt_eq key iv (gcmCrypt key iv text), length_gcmCrypt, gcmCrypt_eq]
  exact zipWith_xor_twice _ _ (le_length_gcmPad ..)

end Sys2Proof.Machine
end

section
/-! PROOFS. O46: lines are written to the stacks and read back. -/

namespace Sys2Proof.Machine

theorem find_putBytes (m : Tbl Byte) (a : Nat) (l : List Byte) (q : Nat) :
    Tbl.find 0 (putBytes m a l) q = if a ≤ q then (l[q - a]?).getD (Tbl.find 0 m q) else Tbl.find 0 m q := by
  induction l generalizing m a with
  | nil => simp [putBytes]
  | cons b l ih =>
    rw [putBytes, ih, Tbl.find_set]
    rcases Nat.lt_trichotomy q a with hlt | rfl | hgt
    · rw [if_neg (by omega), if_neg (by omega), if_neg (by omega)]
    · rw [if_neg (by omega), if_pos rfl, if_pos (Nat.le_refl _)]
      simp
    · obtain ⟨d, rfl⟩ : ∃ d, q = a + 1 + d := ⟨q - (a + 1), by omega⟩
      rw [if_pos (by omega), if_neg (by omega), if_pos (by omega), show a + 1 + d - (a + 1) = d by omega, show a + 1 + d - a = d + 1 by omega]
      simp

/-- The 64 bytes from the place of line `l` on that a line's bytes take. -/
theorem map_find_putBytes_same (m : Tbl Byte) (a : Nat) (x : List Byte) :
    ((List.range x.length).map fun k => Tbl.find 0 (putBytes m a x) (a + k)) = x := by
  apply List.ext_getElem (by simp)
  intro i hi hx
  rw [List.getElem_map, List.getElem_range, find_putBytes, if_pos (Nat.le_add_right a i), Nat.add_sub_cancel_left,
    List.getElem?_eq_getElem hx, Option.getD_some]

@[simp] theorem State.rawLine_putRaw_same (s : State) (l v : Nat) : (s.putRaw l v).rawLine l = v % 2 ^ 512 := by
  have h := map_find_putBytes_same s.memo.bytes (64 * l) (le 64 v)
  rw [length_le] at h
  show ofLe ((List.range 64).map fun k => Tbl.find 0 (putBytes s.memo.bytes (64 * l) (le 64 v)) (64 * l + k)) = _
  rw [h, ofLe_le, show (256 : Nat) ^ 64 = 2 ^ 512 from (pow_mul 2 8 64).symm]

theorem State.rawLine_putRaw_ne (s : State) {l k : Nat} (v : Nat) (h : k ≠ l) : (s.putRaw l v).rawLine k = s.rawLine k := by
  unfold State.rawLine
  congr 1
  refine List.map_congr_left fun j hj => ?_
  rw [List.mem_range] at hj
  show Tbl.find 0 (putBytes s.memo.bytes (64 * l) (le 64 v)) (64 * k + j) = _
  rw [find_putBytes]
  split
  · rw [List.getElem?_eq_none (by rw [length_le]; omega)]
    rfl
  · rfl

@[simp] theorem State.isSealed_putLine (s : State) (l v k : Nat) : (s.putLine l v).isSealed k = s.isSealed k := by
  unfold State.putLine
  split <;> rfl

theorem State.decryptLine_putLine (s : State) (l v k c : Nat) : (s.putLine l v).decryptLine k c = s.decryptLine k c := by
  unfold State.putLine
  split <;> rfl

theorem State.encryptLine_putLine (s : State) (l v k c : Nat) : (s.putLine l v).encryptLine k c = s.encryptLine k c := by
  unfold State.putLine
  split <;> rfl

theorem State.encryptLine_lt (s : State) (l v : Nat) : s.encryptLine l v < 2 ^ 512 := by
  have h := ofBlocks_lt (xtsEncrypt (s.sealKey (lineStack l) 0) (s.sealKey (lineStack l) 1) (s.lineNonce l) (blocksOf 4 v))
  rw [xtsEncrypt, length_xtsUnit, length_blocksOf, ← pow_mul] at h
  exact h

/-- What a line seal engine has encrypted it decrypts (R324). -/
theorem State.decryptLine_encryptLine (s : State) (l : Nat) {v : Nat} (hv : v < 2 ^ 512) : s.decryptLine l (s.encryptLine l v) = v := by
  have hblocks := blocksOf_ofBlocks (xtsEncrypt (s.sealKey (lineStack l) 0) (s.sealKey (lineStack l) 1) (s.lineNonce l) (blocksOf 4 v))
  rw [xtsEncrypt, length_xtsUnit, length_blocksOf] at hblocks
  unfold State.decryptLine State.encryptLine
  simp only [xtsEncrypt] at hblocks ⊢
  rw [hblocks]
  have h := xtsDecrypt_xtsEncrypt (s.sealKey (lineStack l) 0) (s.sealKey (lineStack l) 1) (s.lineNonce l) (blocksOf 4 v)
  rw [xtsEncrypt] at h
  rw [h, ofBlocks_blocksOf]
  exact Nat.mod_eq_of_lt (by omega)

theorem State.putLine_of_sealed {s : State} {l : Nat} (h : s.isSealed l = true) (v : Nat) : s.putLine l v = s.putSealed l v := by
  rw [State.putLine, if_pos h]

theorem State.putLine_of_plain {s : State} {l : Nat} (h : s.isSealed l = false) (v : Nat) : s.putLine l v = s.putRaw l v := by
  rw [State.putLine, h]; rfl

/-- A write of a sealed line leaves its ciphertext in the stack and the ciphertext's tag in its slot. -/
theorem State.rawLine_putSealed_same (s : State) (l v : Nat) : (s.putSealed l v).rawLine l = s.encryptLine l v :=
  (s.rawLine_putRaw_same l _).trans (Nat.mod_eq_of_lt (s.encryptLine_lt l v))

theorem State.find_tags_putSealed (s : State) (l v k : Nat) :
    Tbl.find none (s.putSealed l v).seals.tags k = if l = k then some (s.lineTag l (s.encryptLine l v)) else Tbl.find none s.seals.tags k := by
  show Tbl.find none (Tbl.set none s.seals.tags l (some (s.lineTag l (s.encryptLine l v)))) k = _
  exact Tbl.find_set ..

theorem State.tagSlot_putSealed_same (s : State) (l v : Nat) : (s.putSealed l v).tagSlot l = s.lineTag l (s.encryptLine l v) := by
  unfold State.tagSlot
  rw [State.find_tags_putSealed, if_pos rfl, Option.getD_some]

theorem State.sealedLine_putSealed_same (s : State) (l v : Nat) : (s.putSealed l v).sealedLine l = s.encryptLine l v := by
  unfold State.sealedLine
  rw [State.find_tags_putSealed, if_pos rfl, Option.isSome_some, if_pos rfl, State.rawLine_putSealed_same]

theorem State.rawLine_putLine_ne (s : State) {l k : Nat} (v : Nat) (h : k ≠ l) : (s.putLine l v).rawLine k = s.rawLine k := by
  unfold State.putLine
  split
  · exact s.rawLine_putRaw_ne _ h
  · exact s.rawLine_putRaw_ne _ h

theorem State.find_tags_putLine_ne (s : State) {l k : Nat} (v : Nat) (h : k ≠ l) :
    Tbl.find none (s.putLine l v).seals.tags k = Tbl.find none s.seals.tags k := by
  unfold State.putLine
  split
  · rw [State.find_tags_putSealed, if_neg (Ne.symm h)]
  · rfl

theorem State.sealedLine_putLine_ne (s : State) {l k : Nat} (v : Nat) (h : k ≠ l) : (s.putLine l v).sealedLine k = s.sealedLine k := by
  rw [State.sealedLine, State.find_tags_putLine_ne s v h, State.rawLine_putLine_ne s v h, State.encryptLine_putLine, State.sealedLine]

theorem State.lineAt_putLine_ne (s : State) {l k : Nat} (v : Nat) (h : k ≠ l) : (s.putLine l v).lineAt k = s.lineAt k := by
  rw [State.lineAt, State.isSealed_putLine, State.decryptLine_putLine, State.sealedLine_putLine_ne s v h, State.rawLine_putLine_ne s v h,
    State.lineAt]

/-- A line reads as it was written (R324). -/
theorem State.lineAt_putLine_same (s : State) (l : Nat) {v : Nat} (hv : v < 2 ^ 512) : (s.putLine l v).lineAt l = v := by
  rw [State.lineAt, State.isSealed_putLine, State.decryptLine_putLine]
  cases hl : s.isSealed l with
  | true => rw [if_pos rfl, State.putLine_of_sealed hl, State.sealedLine_putSealed_same, State.decryptLine_encryptLine s l hv]
  | false => rw [if_neg Bool.false_ne_true, State.putLine_of_plain hl, State.rawLine_putRaw_same, Nat.mod_eq_of_lt hv]

/-- Settles O46. -/
theorem linesReadAsWritten : Obligations.LinesReadAsWritten := by
  intro s l v hv
  refine ⟨s.lineAt_putLine_same l hv, fun k hk => s.lineAt_putLine_ne v hk, fun hl => ?_, fun hl => ?_⟩
  · rw [State.putLine_of_sealed hl]
    exact ⟨s.rawLine_putSealed_same l v, s.tagSlot_putSealed_same l v⟩
  · rw [State.putLine_of_plain hl, State.rawLine_putRaw_same, Nat.mod_eq_of_lt hv]

end Sys2Proof.Machine
end

section
/-! PROOFS. O47: every step of the key wrap is undone by the step of the same number of the unwrap, and the record's bytes are the words that the wrap ends
with. -/

namespace Sys2Proof.Machine

/-- What the steps of the key wrap work on: a 64-bit integrity word and four 64-bit words. -/
structure WrapWords (x : Nat × List Nat) : Prop where
  word : x.1 < 2 ^ 64
  length : x.2.length = 4
  words : ∀ w ∈ x.2, w < 2 ^ 64

theorem WrapWords.getD_lt {x : Nat × List Nat} (h : WrapWords x) {i : Nat} (hi : i < 4) : x.2.getD i 0 < 2 ^ 64 := by
  rw [List.getD_eq_getElem _ _ (by rw [h.length]; exact hi)]
  exact h.words _ (List.getElem_mem _)

/-- The block that step `t` of the wrap makes. -/
def wrapBlock (key : BitVec 256) (x : Nat × List Nat) (t : Nat) : BitVec 128 :=
  Config.aes key (BitVec.ofNat 128 (x.1 + 2 ^ 64 * x.2.getD ((t - 1) % 4) 0))

theorem wrapStep_eq (key : BitVec 256) (x : Nat × List Nat) (t : Nat) :
    wrapStep key x t = (((wrapBlock key x t).toNat % 2 ^ 64) ^^^ (t * 2 ^ 56), x.2.set ((t - 1) % 4) ((wrapBlock key x t).toNat / 2 ^ 64)) := rfl

theorem wrapWords_wrapStep (key : BitVec 256) {x : Nat × List Nat} (h : WrapWords x) {t : Nat} (ht : t < 256) : WrapWords (wrapStep key x t) := by
  rw [wrapStep_eq]
  have hb := (wrapBlock key x t).isLt
  constructor
  · exact Nat.xor_lt_two_pow (Nat.mod_lt _ (Nat.two_pow_pos _)) (by omega)
  · simpa using h.length
  · intro w hw
    rcases List.mem_or_eq_of_mem_set hw with hold | rfl
    · exact h.words w hold
    · exact Nat.div_lt_of_lt_mul (by omega)

/-- Step `t` of the unwrap undoes step `t` of the wrap. -/
theorem unwrapStep_wrapStep (key : BitVec 256) {x : Nat × List Nat} (h : WrapWords x) (t : Nat) : unwrapStep key (wrapStep key x t) t = x := by
  have hi : (t - 1) % 4 < 4 := Nat.mod_lt _ (by decide)
  have hlow := h.word
  have hhigh := h.getD_lt hi
  have hset : (x.2.set ((t - 1) % 4) ((wrapBlock key x t).toNat / 2 ^ 64)).getD ((t - 1) % 4) 0 = (wrapBlock key x t).toNat / 2 ^ 64 := by
    rw [List.getD_eq_getElem _ _ (by rw [List.length_set, h.length]; exact hi), List.getElem_set_self]
  have hblock : BitVec.ofNat 128 ((wrapBlock key x t).toNat % 2 ^ 64 + 2 ^ 64 * ((wrapBlock key x t).toNat / 2 ^ 64)) = wrapBlock key x t := by
    rw [Nat.mod_add_div, BitVec.ofNat_toNat, BitVec.setWidth_eq]
  have hback : (Config.aes key).symm (wrapBlock key x t) = BitVec.ofNat 128 (x.1 + 2 ^ 64 * x.2.getD ((t - 1) % 4) 0) := Equiv.symm_apply_apply ..
  have hnat : (BitVec.ofNat 128 (x.1 + 2 ^ 64 * x.2.getD ((t - 1) % 4) 0)).toNat = x.1 + 2 ^ 64 * x.2.getD ((t - 1) % 4) 0 := by
    rw [BitVec.toNat_ofNat, Nat.mod_eq_of_lt (by omega)]
  rw [wrapStep_eq]
  simp only [unwrapStep, hset, Nat.xor_assoc, Nat.xor_self, Nat.xor_zero, hblock, hback, hnat]
  refine Prod.ext ?_ ?_
  · show (x.1 + 2 ^ 64 * x.2.getD ((t - 1) % 4) 0) % 2 ^ 64 = x.1
    omega
  · show (x.2.set _ _).set _ ((x.1 + 2 ^ 64 * x.2.getD ((t - 1) % 4) 0) / 2 ^ 64) = x.2
    rw [show (x.1 + 2 ^ 64 * x.2.getD ((t - 1) % 4) 0) / 2 ^ 64 = x.2.getD ((t - 1) % 4) 0 by omega, List.set_set,
      List.getD_eq_getElem _ _ (by rw [h.length]; exact hi), List.set_getElem_self]

theorem wrapWords_foldl (key : BitVec 256) (l : List Nat) (hl : ∀ t ∈ l, t < 256) {x : Nat × List Nat} (h : WrapWords x) :
    WrapWords (l.foldl (wrapStep key) x) := by
  induction l generalizing x with
  | nil => exact h
  | cons t l ih => exact ih (fun u hu => hl u (List.mem_cons_of_mem t hu)) (wrapWords_wrapStep key h (hl t List.mem_cons_self))

/-- The steps of the unwrap in the other order undo those of the wrap. -/
theorem foldl_unwrapStep_reverse (key : BitVec 256) (l : List Nat) (hl : ∀ t ∈ l, t < 256) {x : Nat × List Nat} (h : WrapWords x) :
    l.reverse.foldl (unwrapStep key) (l.foldl (wrapStep key) x) = x := by
  induction l generalizing x with
  | nil => rfl
  | cons t l ih =>
    rw [List.reverse_cons, List.foldl_append, List.foldl_cons (f := wrapStep key),
      ih (fun u hu => hl u (List.mem_cons_of_mem t hu)) (wrapWords_wrapStep key h (hl t List.mem_cons_self))]
    exact unwrapStep_wrapStep key h t

/-! ### The record -/

theorem rd_le_append (n v : Nat) (hv : v < 256 ^ n) (tail : List Byte) : rd (le n v ++ tail) 0 n = v := by
  rw [rd, List.drop_zero, List.take_left' (length_le n v), ofLe_le_of_lt hv]

theorem rd_append (n v : Nat) (tail : List Byte) (off k : Nat) : rd (le n v ++ tail) (n + off) k = rd tail off k := by
  rw [rd, rd, ← List.drop_drop, List.drop_left' (length_le n v)]

/-- The word at place `i` of words that stand 8 bytes apart. -/
theorem rd_flatMap_le (ws : List Nat) (hw : ∀ w ∈ ws, w < 2 ^ 64) (i : Nat) (hi : i < ws.length) : rd (ws.flatMap (le 8)) (8 * i) 8 = ws[i] := by
  induction ws generalizing i with
  | nil => exact absurd hi (Nat.not_lt_zero i)
  | cons w ws ih =>
    rw [List.flatMap_cons]
    cases i with
    | zero => exact rd_le_append 8 w (hw w List.mem_cons_self) _
    | succ i =>
      rw [show 8 * (i + 1) = 8 + 8 * i by omega, rd_append, ih (fun v hv => hw v (List.mem_cons_of_mem w hv)) i (by simpa using hi)]
      rfl

theorem map_rd_words {ws : List Nat} (hw : ∀ w ∈ ws, w < 2 ^ 64) {n v : Nat} :
    ((List.range ws.length).map fun i => rd (le n v ++ ws.flatMap (le 8)) (n + 8 * i) 8) = ws := by
  refine List.ext_getElem (by simp) fun i hi hi' => ?_
  rw [List.getElem_map, List.getElem_range, rd_append, rd_flatMap_le ws hw i hi']

/-- The words of a key, least significant first. -/
def keyWords (k : BitVec 256) : List Nat := (List.range 4).map fun i => k.toNat / 2 ^ (64 * i) % 2 ^ 64

theorem wrapWords_keyWords (k : BitVec 256) : WrapWords (wrapWord, keyWords k) where
  word := show wrapWord < 2 ^ 64 by decide
  length := by simp [keyWords]
  words w hw := by
    obtain ⟨i, -, rfl⟩ := List.mem_map.mp hw
    exact Nat.mod_lt _ (Nat.two_pow_pos _)

theorem ofNat_ofLe_keyWords (k : BitVec 256) : BitVec.ofNat 256 (ofLe ((keyWords k).flatMap (le 8))) = k := by
  have hk := k.isLt
  apply BitVec.eq_of_toNat_eq
  have hwords : keyWords k = [k.toNat % 2 ^ 64, k.toNat / 2 ^ 64 % 2 ^ 64, k.toNat / 2 ^ 128 % 2 ^ 64, k.toNat / 2 ^ 192 % 2 ^ 64] := by
    simp [keyWords, List.range_succ]
  rw [hwords]
  simp only [List.flatMap_cons, List.flatMap_nil, ofLe_append, length_le, ofLe_le, ofLe, BitVec.toNat_ofNat]
  omega

/-- The words that the wrap of a key ends with. -/
def wrapped (key k : BitVec 256) : Nat × List Nat := ((List.range 24).map (· + 1)).foldl (wrapStep key) (wrapWord, keyWords k)

theorem wrapSteps_lt : ∀ t ∈ (List.range 24).map (· + 1), t < 256 := by decide

theorem wrapWords_wrapped (key k : BitVec 256) : WrapWords (wrapped key k) := wrapWords_foldl key _ wrapSteps_lt (wrapWords_keyWords k)

theorem wrapKey_eq (key k : BitVec 256) : wrapKey key k = le 8 (wrapped key k).1 ++ (wrapped key k).2.flatMap (le 8) := rfl

theorem length_wrapKey (key k : BitVec 256) : (wrapKey key k).length = 40 := by
  have h := length_flatMap_le 8 id (wrapped key k).2
  rw [(wrapWords_wrapped key k).length] at h
  rw [wrapKey_eq, List.length_append, length_le]
  exact congrArg (8 + ·) h

theorem unwrapKey_wrapKey (key k : BitVec 256) : unwrapKey key (wrapKey key k) = some k := by
  have h := wrapWords_wrapped key k
  have hword : rd (wrapKey key k) 0 8 = (wrapped key k).1 := rd_le_append 8 _ h.word _
  have hwords : ((List.range 4).map fun i => rd (wrapKey key k) (8 + 8 * i) 8) = (wrapped key k).2 := by
    have := map_rd_words h.words (n := 8) (v := (wrapped key k).1)
    rwa [h.length] at this
  have hback : ((List.range 24).map (24 - ·)).foldl (unwrapStep key) (wrapped key k) = (wrapWord, keyWords k) :=
    foldl_unwrapStep_reverse key _ wrapSteps_lt (wrapWords_keyWords k)
  simp only [unwrapKey, hword, hwords, Prod.eta, hback, if_true, ofNat_ofLe_keyWords]

/-- Settles O47. -/
theorem wrappedKeysUnwrap : Obligations.WrappedKeysUnwrap := fun key k => ⟨length_wrapKey key k, unwrapKey_wrapKey key k⟩

end Sys2Proof.Machine
end

section
/-! PROOFS. O27, O28, O29: user events and the locks. -/

namespace Sys2Proof.Machine

/-! ### User events (R535) -/

/-- A raise sets its source's bit, and leaves every other but that of source 209. -/
theorem State.pends_raise (s : State) (src : Nat) {k : Nat} (hwait : k ≠ 209) : (s.raise src).pends k = (decide (k = src) || s.pends k) := by
  by_cases hk : k = src
  · subst hk
    rw [State.raise, s.pends_raiseWith, decide_eq_true rfl, Bool.true_or]
  · rw [State.raise, s.pends_raiseWith_ne hk hwait, decide_eq_false hk, Bool.false_or]

theorem State.pends_each_raise (s : State) (l : List Nat) (base : Nat) {k : Nat} (hwait : k ≠ 209) :
    (s.each l fun u t => t.raise (base + u)).pends k = (decide (∃ u ∈ l, k = base + u) || s.pends k) := by
  induction l generalizing s with
  | nil => simp [State.each_nil]
  | cons u l ih =>
    rw [State.each_cons, ih, State.pends_raise _ _ hwait, Bool.eq_iff_iff]
    simp only [Bool.or_eq_true, decide_eq_true_eq, List.mem_cons, exists_eq_or_imp]
    rw [← or_assoc, or_comm (a := ∃ w ∈ l, k = base + w)]

theorem State.pends_userEvents (s : State) (v : Nat) (u : Fin 8) : (s.userEvents (v % 256)).pends (248 + u) = (s.pends (248 + u) || bitOf v u) := by
  have hbit : (∃ w ∈ bitsOf 8 (v % 256), 248 + u.val = 248 + w) ↔ bitOf v u = true := by
    have hlow : (v % 2 ^ 8).testBit u = v.testBit u := by
      rw [Nat.testBit_mod_two_pow, decide_eq_true u.isLt, Bool.true_and]
    simp only [bitsOf, bitOf, List.mem_filter, List.mem_range, Nat.add_left_cancel_iff, exists_eq_right', u.isLt, true_and]
    exact iff_of_eq (congrArg (· = true) hlow)
  rw [State.userEvents, State.pends_each_raise _ _ _ (by omega), Bool.or_comm, Bool.eq_iff_iff]
  simp only [Bool.or_eq_true, decide_eq_true_eq, hbit]

theorem State.pends_passAccess (s : State) (p : Port) (write : Bool) (d : Option Nat) (k : Nat) : (s.passAccess p write d).pends k = s.pends k := by
  rw [State.pends, State.fld_passAccess, State.pends]

theorem State.pends_put (s : State) {f : Fld} (i v k : Nat) (hf : f ≠ .EVT_PEND_PEND) : (s.put f i v).pends k = s.pends k := by
  rw [State.pends, State.fld_put_ne _ _ _ _ hf, State.pends]

/-- An access error raises source 2 alone, beside what a WAIT raises (R20). -/
theorem State.pends_accessError_ne (s : State) (e : AccessError) (p : Port) (write : Bool) (addr : Nat) {k : Nat} (hk : k ≠ 2) (hwait : k ≠ 209) :
    (s.accessError e p write addr).pends k = s.pends k := by
  unfold State.accessError
  extract_lets s1 s2 s3
  have h1 : s1.pends k = s.pends k := by
    simp only [s1, State.when]
    split
    · rw [State.pends_put _ _ _ _ (by decide), State.pends_put _ _ _ _ (by decide), State.pends_put _ _ _ _ (by decide)]
    · rfl
  have h2 : s2.pends k = s.pends k := (State.pends_put _ _ _ _ (by decide)).trans h1
  have h3 : s3.pends k = s.pends k := by
    simp only [s3]
    split
    · next f hf =>
      refine (State.pends_put _ _ _ _ ?_).trans h2
      rintro rfl
      exact absurd (AccessError.flag_spec hf).1 (by decide)
    · exact h2
  rw [State.pends_raise _ _ hwait, decide_eq_false hk, Bool.false_or, h3]

/-- An access that a port may not make, behind none of its earlier accesses, is recorded as DENIED, and a read of it returns 0 (R18). -/
theorem State.access_of_not_may {s : State} {p : Port} {write : Bool} {r : Reg} {i : Nat} (hreach : s.reaches p = true) (hfree : s.portBusy p = false)
    (hmay : s.may p write r i = false) (data : Nat) (g : State → State) :
    s.access p r i write data g = (s.accessError .denied p write (r.addr i)).when (!write) (·.emit (.readValue p 0)) := by
  simp [State.access, State.accessAt, hreach, hmay, State.mustWait, hfree, State.domainWaits]

/-- Settles O27. -/
theorem userEventsAreRaised : Obligations.UserEventsAreRaised := by
  refine ⟨fun p value s htakes => ?_, fun n value s => ⟨fun hperm => ?_, fun hperm hfree => ?_⟩⟩
  · refine ⟨_, congrArg Host.Outcome.next (State.access_of_takes htakes value.toNat _), fun u => ?_⟩
    rw [State.pends_userEvents, State.pends_passAccess]
  · exact hperm
  · have hmay : s.may (.region n) true .EVT_USER 0 = false := hperm
    refine ⟨_, congrArg Host.Outcome.next (State.access_of_not_may rfl hfree hmay value.toNat _), fun u => ?_, ?_⟩
    · exact s.pends_accessError_ne .denied _ true _ (by omega) (by omega)
    · obtain ⟨herr, hflag, hpends⟩ := s.records_accessError .denied (.region n) true (Reg.EVT_USER.addr 0)
      exact ⟨herr, hflag _ rfl, hpends⟩

/-! ### Locks (R366, R367) -/

theorem portIdent_pos (p : Port) : portIdent p ≠ 0 := by
  cases p <;> simp [portIdent]

theorem portIdent_lt (p : Port) : portIdent p < 2 ^ 8 := by
  cases p <;> simp only [portIdent] <;> omega

/-- A release by the owner frees the lock (R367). -/
theorem State.unlock_of_owner {s : State} {who i : Nat} (h : s.fld .PST_LOCK_OWNER i = who) (hwho : who ≠ 0) :
    s.unlock who i = s.put .PST_LOCK_OWNER i 0 := by
  simp [State.unlock, h, hwho]

/-- A release by another port is recorded, the first with its lock and port, and raises source 208 (R367). -/
theorem State.unlock_of_not_owner {s : State} {who i : Nat} (h : s.fld .PST_LOCK_OWNER i ≠ who) :
    s.unlock who i = (((s.when (!s.on .PST_LOCK_ERR_NOT_OWNER 0) fun s =>
      (s.put .PST_LOCK_ERR_LOCK 0 i).put .PST_LOCK_ERR_WRITER 0 who)).put .PST_LOCK_ERR_NOT_OWNER 0 1).raise 208 := by
  simp [State.unlock, h]

theorem State.goes_unlock_of_not_owner {s : State} {who i : Nat} (h : s.fld .PST_LOCK_OWNER i ≠ who) :
    Goes (mask (signals [.PST_LOCK_ERR]) (signalled [])) s (s.unlock who i) := by
  rw [State.unlock_of_not_owner h]
  exact ((((Goes.refl _ s).when _ _ fun t => ((Goes.refl _ t).write _ 0 i (by decide)).write _ 0 who (by decide))).write _ 0 1 (by decide)).step
    (State.goes_raise _ 208) (by decide)

/-- What a release by another port leaves in PST_LOCK_ERR. -/
theorem State.lockErr_unlock_of_not_owner {s : State} {who i : Nat} (h : s.fld .PST_LOCK_OWNER i ≠ who) (hi : i < 2 ^ 8) (hwho : who < 2 ^ 8) :
    (s.unlock who i).on .PST_LOCK_ERR_NOT_OWNER 0 = true ∧ (s.unlock who i).pends 208 = true ∧
    (s.unlock who i).fld .PST_LOCK_ERR_LOCK 0 = (if s.on .PST_LOCK_ERR_NOT_OWNER 0 then s.fld .PST_LOCK_ERR_LOCK 0 else i) ∧
    (s.unlock who i).fld .PST_LOCK_ERR_WRITER 0 = (if s.on .PST_LOCK_ERR_NOT_OWNER 0 then s.fld .PST_LOCK_ERR_WRITER 0 else who) := by
  rw [State.unlock_of_not_owner h]
  have hraise (t : State) (f : Fld) (hf : f.spec.reg = .PST_LOCK_ERR) : (t.raise 208).fld f 0 = t.fld f 0 :=
    (t.goes_raise 208).flds f 0 (by rw [hf]; exact mask_reg_not (by decide))
  refine ⟨?_, State.pends_raiseWith _ 208 _, ?_, ?_⟩
  · rw [State.on, hraise _ _ rfl]
    exact State.on_put_one _ _ 0 (by decide)
  · rw [hraise _ _ rfl, State.fld_put_ne _ _ _ _ (by decide)]
    cases s.on .PST_LOCK_ERR_NOT_OWNER 0 with
    | true => rfl
    | false =>
      show ((s.put .PST_LOCK_ERR_LOCK 0 i).put .PST_LOCK_ERR_WRITER 0 who).fld .PST_LOCK_ERR_LOCK 0 = i
      rw [State.fld_put_ne _ _ _ _ (by decide), State.fld_put_same]
      exact Nat.mod_eq_of_lt hi
  · rw [hraise _ _ rfl, State.fld_put_ne _ _ _ _ (by decide)]
    cases s.on .PST_LOCK_ERR_NOT_OWNER 0 with
    | true => rfl
    | false =>
      show ((s.put .PST_LOCK_ERR_LOCK 0 i).put .PST_LOCK_ERR_WRITER 0 who).fld .PST_LOCK_ERR_WRITER 0 = who
      rw [State.fld_put_same]
      exact Nat.mod_eq_of_lt hwho

/-- Settles O28: the write passes its crossing and then releases the lock where REL is 1. -/
theorem lockIsReleasedByItsOwner : Obligations.LockIsReleasedByItsOwner := by
  intro p i value s htakes
  let u := s.passAccess p true (Reg.PST_LOCK_REL.domain i)
  have hpass : Goes (mask [] [.crossings]) s u := s.goes_passAccess p true _
  have hfld (f : Fld) (k : Nat) : u.fld f k = s.fld f k := s.fld_passAccess p true _ f k
  have hon (f : Fld) (k : Nat) : u.on f k = s.on f k := by rw [State.on, hfld, State.on]
  have hexec : exec (.lockRelease p i value) s = .next (if value.toNat % 2 = 1 then u.unlock (portIdent p) i else u) :=
    congrArg Host.Outcome.next (State.access_of_takes htakes value.toNat _)
  have hbit : bitOf value.toNat 0 = decide (value.toNat % 2 = 1) := Nat.testBit_zero _
  refine ⟨_, hexec, fun h0 => ?_, fun h1 howner => ?_, fun h1 hother => ?_⟩
  · rw [if_neg (of_decide_eq_false (hbit ▸ h0))]
    exact hpass.within
  · rw [if_pos (of_decide_eq_true (hbit ▸ h1)), State.unlock_of_owner ((hfld _ _).trans howner) (portIdent_pos p)]
    refine ⟨((hpass.lift (by decide)).write _ _ 0 (by decide)).within, ?_, fun j hj => ?_, fun j => ?_⟩
    · rw [State.fld_put_same]
      rfl
    · rw [State.fld_put_ne_idx _ _ _ _ (Ne.symm hj), hfld]
    · rw [State.fld_put_ne _ _ _ _ (by decide), hfld]
  · have hne : u.fld .PST_LOCK_OWNER i ≠ portIdent p := by rwa [hfld]
    rw [if_pos (of_decide_eq_true (hbit ▸ h1))]
    obtain ⟨hset, hpend, hlock, hwriter⟩ := State.lockErr_unlock_of_not_owner hne i.isLt (portIdent_lt p)
    refine ⟨((hpass.lift (by decide)).step (State.goes_unlock_of_not_owner hne) (by decide)).within, hset, hpend, fun hclear => ?_, fun hon1 => ?_⟩
    · rw [hlock, hwriter, hon, hclear]
      exact ⟨rfl, rfl⟩
    · rw [hlock, hwriter, hon, hon1, hfld, hfld]
      exact ⟨rfl, rfl⟩

/-! An acquire by the state of the lock. -/

theorem State.acquire_of_free {s : State} {who i : Nat} (h : s.fld .PST_LOCK_OWNER i = 0) (ha : s.on .PST_LOCK_ABANDONED i = false) :
    s.acquire who i = (s.put .PST_LOCK_OWNER i who, 1) := by
  simp [State.acquire, h, ha]

theorem State.acquire_of_abandoned {s : State} {who i : Nat} (h : s.fld .PST_LOCK_OWNER i = 0) (ha : s.on .PST_LOCK_ABANDONED i = true) :
    s.acquire who i = ((s.put .PST_LOCK_OWNER i who).put .PST_LOCK_ABANDONED i 0, 2) := by
  simp [State.acquire, h, ha]

theorem State.acquire_of_held {s : State} {who i : Nat} (h : s.fld .PST_LOCK_OWNER i ≠ 0) :
    s.acquire who i = (s, if s.fld .PST_LOCK_OWNER i = who then 4 else 3) := by
  simp only [State.acquire, if_neg h]
  split <;> rfl

theorem State.goes_acquire (s : State) (who i : Nat) : Goes (mask [.PST_LOCK] []) s (s.acquire who i).1 := by
  by_cases h : s.fld .PST_LOCK_OWNER i = 0
  · cases ha : s.on .PST_LOCK_ABANDONED i with
    | false => rw [State.acquire_of_free h ha]; exact (Goes.refl _ s).write _ _ _ (by decide)
    | true => rw [State.acquire_of_abandoned h ha]; exact ((Goes.refl _ s).write _ _ _ (by decide)).write _ _ _ (by decide)
  · rw [State.acquire_of_held h]; exact Goes.refl _ s

/-- An acquire leaves every other lock. -/
theorem State.fld_acquire_ne (s : State) (who : Nat) {i j : Nat} (f : Fld) (hj : j ≠ i) : (s.acquire who i).1.fld f j = s.fld f j := by
  by_cases h : s.fld .PST_LOCK_OWNER i = 0
  · cases ha : s.on .PST_LOCK_ABANDONED i with
    | false => rw [State.acquire_of_free h ha, State.fld_put_ne_idx _ _ _ _ (Ne.symm hj)]
    | true => rw [State.acquire_of_abandoned h ha, State.fld_put_ne_idx _ _ _ _ (Ne.symm hj), State.fld_put_ne_idx _ _ _ _ (Ne.symm hj)]
  · rw [State.acquire_of_held h]

/-- What a free lock answers and holds after an acquire (R366). -/
theorem State.acquire_takes {s : State} {who i : Nat} (h : s.fld .PST_LOCK_OWNER i = 0) (hwho : who < 2 ^ 8) :
    (s.acquire who i).2 = (if s.on .PST_LOCK_ABANDONED i then 2 else 1) ∧ (s.acquire who i).1.fld .PST_LOCK_OWNER i = who ∧
      (s.acquire who i).1.on .PST_LOCK_ABANDONED i = false := by
  have hwidth : who % 2 ^ Fld.PST_LOCK_OWNER.spec.width = who := Nat.mod_eq_of_lt hwho
  cases ha : s.on .PST_LOCK_ABANDONED i with
  | false =>
    rw [State.acquire_of_free h ha]
    exact ⟨rfl, by rw [State.fld_put_same, hwidth], (s.on_put_ne _ _ _ (by decide)).trans ha⟩
  | true =>
    rw [State.acquire_of_abandoned h ha]
    refine ⟨rfl, by rw [State.fld_put_ne _ _ _ _ (by decide), State.fld_put_same, hwidth], ?_⟩
    rw [State.on, State.fld_put_same]
    rfl

/-- Settles O29: the read passes its crossing, acquires and answers; one that the port may not make is an access error. -/
theorem lockIsAcquiredOnce : Obligations.LockIsAcquiredOnce := by
  intro p i s
  refine ⟨fun htakes => ?_, fun hreach hfree hmay => ?_⟩
  · let u := s.passAccess p false (Reg.PST_LOCK_ACQ.domain i)
    have hpass : Goes (mask [] [.crossings]) s u := s.goes_passAccess p false _
    have hfld (f : Fld) (k : Nat) : u.fld f k = s.fld f k := s.fld_passAccess p false _ f k
    have hon (f : Fld) (k : Nat) : u.on f k = s.on f k := by rw [State.on, hfld, State.on]
    let r := u.acquire (portIdent p) i
    have hexec : exec (.lockAcquire p i) s = .next (r.1.emit (.readValue p (r.2 + 256 * r.1.fld .PST_LOCK_OWNER i))) :=
      congrArg Host.Outcome.next (State.access_of_takes htakes 0 _)
    have hout : r.1.out = s.out := ((u.goes_acquire _ _).parts .outputs (by decide)).trans (s.passAccess_out p false _)
    have hheld (h : s.fld .PST_LOCK_OWNER i ≠ 0) : r = (u, if s.fld .PST_LOCK_OWNER i = portIdent p then 4 else 3) := by
      rw [← hfld]
      exact State.acquire_of_held ((hfld _ _).trans_ne h)
    have hkept (h : s.fld .PST_LOCK_OWNER i ≠ 0) : Within [] [.crossings, .outputs] s (r.1.emit (.readValue p (r.2 + 256 * r.1.fld .PST_LOCK_OWNER i))) := by
      rw [hheld h]
      exact ((hpass.lift (by decide)).emit _ (mask_part (by decide))).within
    have htaken (h : s.fld .PST_LOCK_OWNER i = 0) := State.acquire_takes ((hfld _ _).trans h) (portIdent_lt p)
    refine ⟨_, r.2, r.1.fld .PST_LOCK_OWNER i, hexec, by rw [State.emit_out, hout], rfl, ?_, fun j hj => ?_, fun h ha => ?_, fun h ha => ?_,
      fun h hne => ?_, fun h => ?_⟩
    · exact (((hpass.lift (by decide)).step (u.goes_acquire _ _) (by decide)).emit _ (mask_part (by decide))).within
    · exact ⟨(u.fld_acquire_ne _ _ hj).trans (hfld _ _), (u.fld_acquire_ne _ _ hj).trans (hfld _ _)⟩
    · obtain ⟨hres, howner, hab⟩ := htaken h
      exact ⟨by rw [hres, hon, ha]; rfl, howner, hab⟩
    · obtain ⟨hres, howner, hab⟩ := htaken h
      exact ⟨by rw [hres, hon, ha]; rfl, howner, hab⟩
    · exact ⟨by rw [hheld h, if_neg hne], hkept h⟩
    · have h0 : s.fld .PST_LOCK_OWNER i ≠ 0 := h.trans_ne (portIdent_pos p)
      exact ⟨by rw [hheld h0, if_pos h], hkept h0⟩
  · refine ⟨_, congrArg Host.Outcome.next (State.access_of_not_may hreach hfree hmay 0 _), ?_, ?_⟩
    · show (_ ++ [Output.readValue p 0]).getLast? = _
      rw [List.getLast?_append]
      rfl
    · exact ((s.goes_accessError .denied p false _).emit _ (mask_part (by decide))).within

end Sys2Proof.Machine
end

section
/-! PROOFS. O31: what a raise leaves of the logbook, and a stopped writer. -/

namespace Sys2Proof.Machine

/-! ### The logbook under a raise (R537, R538, R540) -/

/-- From `s` to `t` the logbook keeps its writer's state, its records and its next number, loses no count of lost records, and, where the writer is stopped, keeps
the queue and the run of lost records too. -/
structure LogKept (s t : State) : Prop where
  stopped : t.on .EVT_LOG_STAT_STOPPED 0 = s.on .EVT_LOG_STAT_STOPPED 0
  book : t.evt.book = s.evt.book
  nextSeq : t.evt.nextSeq = s.evt.nextSeq
  count : s.fld .EVT_LOG_LOST_LOST 0 ≤ t.fld .EVT_LOG_LOST_LOST 0
  queue : s.on .EVT_LOG_STAT_STOPPED 0 = true → t.evt.queue = s.evt.queue ∧ t.evt.lost = s.evt.lost

theorem LogKept.refl (s : State) : LogKept s s := ⟨rfl, rfl, rfl, Nat.le_refl _, fun _ => ⟨rfl, rfl⟩⟩

theorem LogKept.trans {s t u : State} (h : LogKept s t) (k : LogKept t u) : LogKept s u where
  stopped := k.stopped.trans h.stopped
  book := k.book.trans h.book
  nextSeq := k.nextSeq.trans h.nextSeq
  count := h.count.trans k.count
  queue hs := by
    obtain ⟨hq, hl⟩ := h.queue hs
    obtain ⟨kq, kl⟩ := k.queue (h.stopped.trans hs)
    exact ⟨kq.trans hq, kl.trans hl⟩

/-- What leaves the logbook's registers alone, and of the event paths changes only what is no part of the logbook, keeps the logbook. -/
theorem LogKept.of_flds {s t : State} (hstat : t.fld .EVT_LOG_STAT_STOPPED 0 = s.fld .EVT_LOG_STAT_STOPPED 0)
    (hlost : t.fld .EVT_LOG_LOST_LOST 0 = s.fld .EVT_LOG_LOST_LOST 0)
    (hevt : t.evt.book = s.evt.book ∧ t.evt.nextSeq = s.evt.nextSeq ∧ t.evt.queue = s.evt.queue ∧ t.evt.lost = s.evt.lost) : LogKept s t := by
  obtain ⟨hbook, hseq, hqueue, hrun⟩ := hevt
  exact ⟨by rw [State.on, hstat, State.on], hbook, hseq, hlost.ge, fun _ => ⟨hqueue, hrun⟩⟩

/-- A frame without the logbook's registers and the event paths keeps the logbook. -/
theorem Goes.logKept {rs : List Reg} {ps : List Part} {s t : State} (h : Goes (mask rs ps) s t) (hstat : .EVT_LOG_STAT ∉ rs) (hlost : .EVT_LOG_LOST ∉ rs)
    (hevt : .evt ∉ ps) : LogKept s t := by
  have he : t.evt = s.evt := h.parts .evt (by simp [hevt])
  exact .of_flds (h.flds _ 0 (mask_reg_not hstat)) (h.flds _ 0 (mask_reg_not hlost)) (by simp [he])

theorem State.fld_bump_same (s : State) (f : Fld) (i n : Nat) : (s.bump f i n).fld f i = min (s.fld f i + n) (2 ^ f.spec.width - 1) := by
  rw [State.bump, State.fld_put_same]
  exact Nat.mod_eq_of_lt (lt_of_le_of_lt (Nat.min_le_right _ _) (Nat.sub_lt (Nat.two_pow_pos _) Nat.one_pos))

/-- One lost record more, up to the counter's greatest value. -/
theorem State.le_lost_bump (s : State) : s.fld .EVT_LOG_LOST_LOST 0 ≤ (s.bump .EVT_LOG_LOST_LOST 0 1).fld .EVT_LOG_LOST_LOST 0 := by
  have h := s.fld_lt .EVT_LOG_LOST_LOST 0
  rw [State.fld_bump_same]
  omega

theorem State.logKept_bump (s : State) : LogKept s (s.bump .EVT_LOG_LOST_LOST 0 1) :=
  ⟨s.on_put_ne 0 0 _ (by decide), rfl, rfl, s.le_lost_bump, fun _ => ⟨rfl, rfl⟩⟩

/-- The record of a raise reaches a writer that is not stopped; one that is stopped counts it as lost (R540). -/
theorem State.logKept_logEvent (s : State) (src : Nat) (detail : List Byte) : LogKept s (s.logEvent src detail) := by
  have hqueue (q : List LogRec) (hgo : ¬ s.on .EVT_LOG_STAT_STOPPED 0 = true) : LogKept s (s.setQueue q) :=
    ⟨State.on_put_ne _ 0 0 _ (by decide), rfl, rfl, (State.fld_put_ne _ 0 0 _ (by decide)).ge, fun h => absurd h hgo⟩
  unfold State.logEvent
  split
  · exact s.logKept_bump
  · next hgo =>
    split
    · exact hqueue _ hgo
    · split
      · exact hqueue _ hgo
      · exact ⟨State.on_put_ne _ 0 0 _ (by decide), rfl, rfl, State.le_lost_bump _, fun h => absurd h hgo⟩

theorem State.logKept_eventDetail (s : State) (reg : Option (Reg × Nat)) : LogKept s (s.eventDetail reg).1 := by
  cases reg with
  | none => exact .of_flds rfl rfl ⟨rfl, rfl, rfl, rfl⟩
  | some x => exact .refl s

/-- A raise as far as its record: the bit of EVT_PEND, the message and the token. -/
theorem State.raiseCore_eq_logEvent (s : State) (src : Nat) (reg : Option (Reg × Nat)) :
    ∃ t, LogKept s t ∧ t.on .EVT_ROUTE_LOG src = s.on .EVT_ROUTE_LOG src ∧
      s.raiseCore src reg = if t.on .EVT_ROUTE_LOG src then (t.eventDetail reg).1.logEvent src (t.eventDetail reg).2 else t := by
  unfold State.raiseCore
  extract_lets w seen s1 func vector s2 n s3 d
  have h1 : Goes (mask [.EVT_PEND] []) s s1 := (Goes.refl _ s).putBit _ _ _ _ (mask_reg (by decide))
  have hmsix : Goes (mask [] [.outputs, .pulses]) s1 s2 := (Goes.refl _ s1).when _ _ fun t =>
    (Goes.refl _ t).pulse clockless 0 _ (fun u => (Goes.refl _ u).emit _ (mask_part (by decide))) (mask_part (by decide))
  have h3 : LogKept s2 s3 ∧ s3.on .EVT_ROUTE_LOG src = s2.on .EVT_ROUTE_LOG src := by
    simp only [s3, State.when]
    split
    · exact ⟨.of_flds rfl rfl ⟨rfl, rfl, rfl, rfl⟩, rfl⟩
    · exact ⟨.refl _, rfl⟩
  have hroute : s2.on .EVT_ROUTE_LOG src = s.on .EVT_ROUTE_LOG src := by
    rw [State.on, hmsix.flds _ _ (mask_reg_not (by decide)), h1.flds _ _ (mask_reg_not (by decide)), State.on]
  refine ⟨s3, ((h1.logKept (by decide) (by decide) (by decide)).trans (hmsix.logKept (by decide) (by decide) (by decide))).trans h3.1,
    h3.2.trans hroute, ?_⟩
  cases s3.on .EVT_ROUTE_LOG src <;> rfl

theorem State.logKept_raiseCore (s : State) (src : Nat) (reg : Option (Reg × Nat)) : LogKept s (s.raiseCore src reg) := by
  obtain ⟨t, hkept, -, h⟩ := s.raiseCore_eq_logEvent src reg
  rw [h]
  split
  · exact (hkept.trans (t.logKept_eventDetail reg)).trans (State.logKept_logEvent _ _ _)
  · exact hkept

theorem State.logKept_raiseNotices (s : State) (src : Nat) : LogKept s (s.raiseNotices src) :=
  (s.goes_raiseNotices src).logKept (by decide) (by decide) (by decide)

/-- What follows the core of a raise keeps the logbook. -/
theorem State.logKept_raise_of_core (s : State) (src : Nat) : LogKept (s.raiseCore src (eventStatus src)) (s.raise src) := by
  have hnotices := State.logKept_raiseNotices (s.raiseCore src (eventStatus src)) src
  obtain h | h | ⟨m, h⟩ := s.raiseWith_cases src (eventStatus src) <;> rw [State.raise, h]
  · exact .refl _
  · exact hnotices
  · exact (hnotices.trans (State.logKept_raiseCore _ 209 _)).trans (State.logKept_raiseNotices _ 209)

theorem State.logKept_raise (s : State) (src : Nat) : LogKept s (s.raise src) := (s.logKept_raiseCore src _).trans (s.logKept_raise_of_core src)

/-- A raise of a source that is routed to a stopped logbook counts one more lost record at least (R540). -/
theorem State.lost_raise {s : State} {src : Nat} (hstop : s.on .EVT_LOG_STAT_STOPPED 0 = true) (hroute : s.on .EVT_ROUTE_LOG src = true) :
    min (s.fld .EVT_LOG_LOST_LOST 0 + 1) (2 ^ 32 - 1) ≤ (s.raise src).fld .EVT_LOG_LOST_LOST 0 := by
  obtain ⟨t, hkept, htroute, hcore⟩ := s.raiseCore_eq_logEvent src (eventStatus src)
  have hdetail := t.logKept_eventDetail (eventStatus src)
  have hlost := (hkept.trans hdetail).count
  have hstopped := (hkept.trans hdetail).stopped.trans hstop
  have hlog : (s.raiseCore src (eventStatus src)).fld .EVT_LOG_LOST_LOST 0 =
      min ((t.eventDetail (eventStatus src)).1.fld .EVT_LOG_LOST_LOST 0 + 1) (2 ^ 32 - 1) := by
    rw [hcore, if_pos (htroute.trans hroute), State.logEvent, if_pos hstopped, State.fld_bump_same]
    rfl
  calc min (s.fld .EVT_LOG_LOST_LOST 0 + 1) (2 ^ 32 - 1)
    _ ≤ (s.raiseCore src (eventStatus src)).fld .EVT_LOG_LOST_LOST 0 := by rw [hlog]; omega
    _ ≤ _ := (s.logKept_raise_of_core src).count

/-! ### The writer stops (R437, R540) -/

/-- The writer stops with source 14, and keeps its records. -/
theorem State.stopLog_spec (s : State) :
    s.stopLog.on .EVT_LOG_STAT_STOPPED 0 = true ∧ s.stopLog.pends 14 = true ∧ s.stopLog.evt.book = s.evt.book ∧ s.stopLog.evt.nextSeq = s.evt.nextSeq := by
  have hkept := State.logKept_raise (s.put .EVT_LOG_STAT_STOPPED 0 1) 14
  exact ⟨hkept.stopped.trans (s.on_put_one _ 0 (by decide)), State.pends_raiseWith _ 14 _, hkept.book, hkept.nextSeq⟩

theorem State.logKept_areaReadOnly (s : State) (b : Nat) : LogKept s (s.areaReadOnly b) := by
  have hput : Goes (mask [.CFG_NVM_ERR, .CFG_NVM_STAT] []) s ((s.orFld .CFG_NVM_STAT_RO_AREA 0 (2 ^ areaOf b)).put .CFG_NVM_ERR_READ_ONLY 0 1) :=
    ((Goes.refl _ s).orFld _ _ _ (mask_reg (by decide))).write _ 0 1 (by decide)
  exact (hput.logKept (by decide) (by decide) (by decide)).trans (State.logKept_raise _ 228)

/-- Settles O31. -/
theorem logbookStopsForGood : Obligations.LogbookStopsForGood := by
  refine ⟨fun r s hqueue hgo hstop => ?_, fun r s hstop => ?_, fun src s hstop => ?_⟩
  · obtain ⟨h, t, hq⟩ := List.exists_cons_of_ne_nil hqueue
    have hexec (u : State) (hu : (if s.logReadOnly then s.stopLog else (s.areaReadOnly (logBlock s.evt.nextSeq)).stopLog) = u) :
        exec (.logRecordWrite r) s = .next u := by
      show execLogRecordWrite r s = _
      unfold execLogRecordWrite
      rw [hq, ← hu]
      cases hro : s.logReadOnly with
      | true => simp [hgo]
      | false => simp [hgo, hstop.resolve_left (by rw [← State.logReadOnly, hro]; exact Bool.false_ne_true)]
    refine ⟨_, hexec _ rfl, ?_⟩
    split
    · exact s.stopLog_spec
    · obtain ⟨hon, hpend, hbook, hseq⟩ := (s.areaReadOnly (logBlock s.evt.nextSeq)).stopLog_spec
      have hkept := s.logKept_areaReadOnly (logBlock s.evt.nextSeq)
      exact ⟨hon, hpend, hbook.trans hkept.book, hseq.trans hkept.nextSeq⟩
  · show execLogRecordWrite r s = _
    unfold execLogRecordWrite
    split
    · rfl
    · rw [if_pos hstop]
  · have hkept := s.logKept_raise src
    obtain ⟨hqueue, hlost⟩ := hkept.queue hstop
    exact ⟨_, rfl, hkept.stopped.trans hstop, hqueue, hlost, hkept.book, s.pends_raiseWith src _, State.lost_raise hstop⟩

end Sys2Proof.Machine
end

section
/-! PROOFS. O34: instructions of the test access port by the life cycle. -/

namespace Sys2Proof.Machine

/-- The instructions that a life-cycle state permits (R513). -/
def TapPermits (code : BitVec 8) (lc : Nat) : Prop :=
  code = 0x01 ∨ code = 0x02 ∨ code = 0x20 ∨ code = 0xFF ∨ ((code = 0x00 ∨ code = 0x04 ∨ code = 0x05) ∧ lc ≠ 2) ∨ (code = 0x30 ∧ (lc = 0 ∨ lc = 3))

theorem contains_tapStates (code : BitVec 8) {lc : Nat} (hlc : lc ≤ 4) : (tapStates code.toNat).contains lc = true ↔ TapPermits code lc := by
  have hcode (k : BitVec 8) : code = k ↔ code.toNat = k.toNat := BitVec.toNat_inj.symm
  simp only [TapPermits, hcode, BitVec.ofNat_eq_ofNat, BitVec.toNat_ofNat, tapStates, List.contains_eq_mem, decide_eq_true_eq, Bool.or_eq_true, Nat.reducePow, Nat.reduceMod]
  generalize code.toNat = c
  split
  case isTrue => simp only [List.mem_cons, List.not_mem_nil, or_false]; constructor <;> omega
  split
  case isTrue => simp only [List.mem_cons, List.not_mem_nil, or_false]; constructor <;> omega
  split
  case isTrue => simp only [List.mem_cons, List.not_mem_nil, or_false]; constructor <;> omega
  case isFalse => simp only [List.not_mem_nil, false_iff]; omega

/-- The registers and the parts that the pads' new levels change beside the signals of a raise. -/
theorem State.goes_setInstruction (s : State) (code : Nat) :
    Goes (mask (signals [.PIN_GSTAT, .PIN_ICONF, .PIN_OCONF, .TST_TAP_STAT]) (signalled [.flying, .pins, .trees])) s (s.setInstruction code) :=
  (((((Goes.refl _ s).write _ 0 _ (by decide)).write _ 0 _ (by decide)).drew (mask_part (by decide))).when _ _ fun t =>
    (Goes.refl _ t).emit _ (mask_part (by decide))).step (State.goes_refreshPins _) (by decide)

/-- The instruction that is set is in force. -/
theorem State.instruction_setInstruction (s : State) (code : BitVec 8) : (s.setInstruction code.toNat).fld .TST_TAP_STAT_INSTRUCTION 0 = code.toNat := by
  unfold State.setInstruction
  extract_lets s1
  have hs1 : s1.fld .TST_TAP_STAT_INSTRUCTION 0 = code.toNat := by
    show ((s.put .TST_TAP_STAT_INSTRUCTION 0 code.toNat).put .TST_TAP_STAT_TAP_STATE 0 (s.draw % 16)).fld .TST_TAP_STAT_INSTRUCTION 0 = _
    rw [State.fld_put_ne _ _ _ _ (by decide), State.fld_put_same]
    exact Nat.mod_eq_of_lt code.isLt
  have hemit : Goes (mask [] [.outputs]) s1 (s1.when (code.toNat == 1) (·.emit (.tap idcode))) :=
    (Goes.refl _ s1).when _ _ fun t => (Goes.refl _ t).emit _ (mask_part (by decide))
  rw [(State.goes_refreshPins _).flds _ 0 (mask_reg_not (by decide)), hemit.flds _ 0 (mask_reg_not (by decide)), hs1]

/-- IDCODE presents the device's code (R513). -/
theorem State.idcode_mem_setInstruction (s : State) : .tap 0x10144DA3 ∈ (s.setInstruction 1).out := by
  unfold State.setInstruction
  extract_lets s1
  exact (State.goes_refreshPins (s1.emit (.tap idcode))).out.subset (List.mem_append_right _ List.mem_cons_self)

/-- Settles O34: a permitted instruction is set; any other leaves BYPASS, its flag and source 244. -/
theorem tapInstructionByLifeCycle : Obligations.TapInstructionByLifeCycle := by
  intro code s hlc
  have hpermits := contains_tapStates code hlc
  refine ⟨fun hperm hscan => ?_, fun hno => ?_⟩
  · have hload : s.loadInstruction code.toNat = s.setInstruction code.toNat := by
      have hcode : (code.toNat == 0x30) = false := beq_false_of_ne fun h => hscan (BitVec.toNat_inj.mp h)
      rw [State.loadInstruction, State.lifeCycle, if_pos (hpermits.mpr hperm), hcode, Bool.false_and]
      rfl
    refine ⟨_, congrArg Host.Outcome.next hload, s.instruction_setInstruction code, ?_, (s.goes_setInstruction _).within⟩
    rintro rfl
    exact s.idcode_mem_setInstruction
  · have hload : s.loadInstruction code.toNat = ((s.setInstruction 0xFF).put .DEV_SEC_STAT_TAP_REFUSED 0 1).raise 244 := by
      rw [State.loadInstruction, State.lifeCycle, if_neg (hno ∘ hpermits.mp)]
    let t := (s.setInstruction 0xFF).put .DEV_SEC_STAT_TAP_REFUSED 0 1
    have hraise := t.goes_raise 244
    refine ⟨_, congrArg Host.Outcome.next hload, ?_, ?_, State.pends_raiseWith _ 244 _, ?_⟩
    · rw [hraise.flds _ 0 (mask_reg_not (by decide)), State.fld_put_ne _ _ _ _ (by decide)]
      exact s.instruction_setInstruction 0xFF
    · rw [State.on, hraise.flds _ 0 (mask_reg_not (by decide))]
      exact State.on_put_one _ _ 0 (by decide)
    · exact ((((s.goes_setInstruction 0xFF).lift (by decide)).write _ 0 1 (by decide)).raised 244 (by decide)).within

end Sys2Proof.Machine
end

section
/-! PROOFS. O21 is refuted: a restore by the Franker writes the permits of sorter 0's target, which its clause does not list. -/

namespace Sys2Proof.Machine

/-- The Franker, whose record selects the lane path, runs in a device whose domains run; of its settings only the permits of sorter 0 do not stand (R548). -/
def frankerUnset : State :=
  (((((((State.reset.put .DEV_ISL_RUN_RUN 0 (2 ^ 25 - 1)).put .DEV_ISL_HELD_HELD 0 0).put .DEV_FRK_STAT_STATE 0 1).put .PIN_IMAP_SINK 0 1).put
    .PIN_CFG_PULL 0 1).put .SRT_CTL_EN 0 1).put .POS_AX_STAT_STATE 0 1).setFranker fun f => { f with started := [0, 0, 0, 0, 2] }

theorem permits_frankerUnset : frankerUnset.fld .SRT_TGT_PERMIT 0 = 0 := by decide

theorem lost_frankerUnset : (frankerUnset.heldSettings.filter fun h => !frankerUnset.holds h && !frankerUnset.heldLocked h &&
    !frankerUnset.domainWaits (heldDomain h)) = [(.SRT_TGT_PERMIT, 0, 0xFFFF)] := by decide +kernel

/-- The state with the permits that the restore gives back. -/
def frankerReset : State := (frankerUnset.hold (.SRT_TGT_PERMIT, 0, 0xFFFF)).bump .DEV_FRK_STAT_OVERRIDE 0 1

theorem axisRuns_frankerReset : (frankerReset.axState 0 == 0 && !frankerReset.domainWaits (some 23)) = false := by decide +kernel

theorem permits_frankerReset : frankerReset.fld .SRT_TGT_PERMIT 0 = 0xFFFF := by decide +kernel

/-- The restore gives the permits back and leaves the axis, which runs (R548). -/
theorem frankerRestore_frankerUnset : exec .frankerRestore frankerUnset = .next frankerReset.refreshPins := by
  have hrun : (!frankerUnset.frankerRuns || !frankerUnset.pmbActive) = false := by decide +kernel
  show execFrankerRestore frankerUnset = _
  unfold execFrankerRestore
  rw [hrun, if_neg Bool.false_ne_true]
  simp only [lost_frankerUnset]
  show Host.Outcome.next (frankerReset.when (frankerReset.axState 0 == 0 && !frankerReset.domainWaits (some 23)) _).refreshPins = _
  rw [axisRuns_frankerReset]
  rfl

theorem permitsAfter_frankerRestore : permitsAfter .frankerRestore frankerUnset = some 0xFFFF := by
  rw [permitsAfter_of_next frankerRestore_frankerUnset, (State.goes_refreshPins _).flds _ 0 (mask_reg_not (by decide)), permits_frankerReset]

/-- The clause of FRANKER_RESTORE in O21. -/
theorem frankerRestore_of_frameOfEvents (h : Obligations.FrameOfEvents) (s : State) :
    ∃ t : State, exec .frankerRestore s = .next t ∧ t.fld .SRT_TGT_PERMIT 0 = s.fld .SRT_TGT_PERMIT 0 := by
  unfold Obligations.FrameOfEvents at h
  obtain ⟨-, -, -, -, -, -, -, -, -, -, -, -, -, -, -, -, -, hrestore, -⟩ := h
  obtain ⟨t, ht, hregs, -⟩ := hrestore s
  exact ⟨t, ht, hregs .SRT_TGT_PERMIT 0 (by decide)⟩

/-- Refutes O21: FRANKER_RESTORE sets the permits of sorter 0's target, which are held (R548), and its clause does not list SRT_TGT. -/
theorem not_frameOfEvents : ¬ Obligations.FrameOfEvents := by
  intro h
  obtain ⟨t, ht, hkept⟩ := frankerRestore_of_frameOfEvents h frankerUnset
  have hafter := permitsAfter_of_next ht
  rw [permitsAfter_frankerRestore, hkept, permits_frankerUnset] at hafter
  cases hafter

end Sys2Proof.Machine
end

section
/-! PROOFS. O7 and O17 are refuted: a full load that ends the Franker gives back the permits of sorter 0's target, which the clauses of CFG_GO and of
BROADCAST_WAIT_TIMEOUT do not list. -/

namespace Sys2Proof.Machine

/-- The Franker runs, with the permits of sorter 0 as it holds them, in a device that waits for a host or for a broadcast (R415). -/
def frankerWaits : State :=
  (((((State.reset.put .DEV_ISL_RUN_RUN 0 (2 ^ 25 - 1)).put .DEV_ISL_HELD_HELD 0 0).put .DEV_FRK_STAT_STATE 0 1).put .SRT_TGT_PERMIT 0 0xFFFF).put
    .CFG_STAT_HOST_WAIT 0 1).put .CFG_STAT_BCAST_WAIT 0 1

theorem permits_frankerWaits : frankerWaits.fld .SRT_TGT_PERMIT 0 = 0xFFFF := by decide

/-- The load that GO asks for ends the Franker, whose default settings take the permits away (R554). -/
theorem permitsAfter_cfgGo : permitsAfter (.cfgGo .postroom 1) frankerWaits = some 0 := by
  decide +kernel

/-- The clause of CFG_GO in O7. -/
theorem cfgGo_of_frameOfPostroom (h : Obligations.FrameOfPostroom) (p : Port) (value : Word) (s : State) :
    ∃ t : State, exec (.cfgGo p value) s = .next t ∧ t.fld .SRT_TGT_PERMIT 0 = s.fld .SRT_TGT_PERMIT 0 := by
  unfold Obligations.FrameOfPostroom at h
  obtain ⟨-, -, -, -, -, -, -, -, -, -, -, -, -, -, -, -, -, -, hgo, -⟩ := h
  obtain ⟨t, ht, hregs, -⟩ := hgo p value s
  exact ⟨t, ht, hregs .SRT_TGT_PERMIT 0 (by decide)⟩

/-- Refutes O7: a write of GO begins a full load, which ends the Franker (R554); SRT_TGT goes back to its default, and the clause of CFG_GO does not list it. -/
theorem not_frameOfPostroom : ¬ Obligations.FrameOfPostroom := by
  intro h
  obtain ⟨t, ht, hkept⟩ := cfgGo_of_frameOfPostroom h .postroom 1 frankerWaits
  have hafter := permitsAfter_of_next ht
  rw [permitsAfter_cfgGo, hkept, permits_frankerWaits] at hafter
  cases hafter

/-- The same device 30 s after the wait for a broadcast has begun (R415). -/
def frankerWaited : State := { frankerWaits.startTimer .bcastWait 0 with clock := 30000000000 }

theorem permits_frankerWaited : frankerWaited.fld .SRT_TGT_PERMIT 0 = 0xFFFF := by decide

theorem permitsAfter_broadcastWaitTimeout : permitsAfter .broadcastWaitTimeout frankerWaited = some 0 := by
  decide +kernel

/-- The clause of BROADCAST_WAIT_TIMEOUT in O17. -/
theorem broadcastWaitTimeout_of_frameOfConfiguration (h : Obligations.FrameOfConfiguration) (s : State) :
    ∃ t : State, exec .broadcastWaitTimeout s = .next t ∧ t.fld .SRT_TGT_PERMIT 0 = s.fld .SRT_TGT_PERMIT 0 := by
  unfold Obligations.FrameOfConfiguration at h
  obtain ⟨-, -, -, -, -, hwait, -⟩ := h
  obtain ⟨t, ht, hregs, -⟩ := hwait s
  exact ⟨t, ht, hregs .SRT_TGT_PERMIT 0 (by decide)⟩

/-- Refutes O17: where no broadcast has begun, the load of the selected slot ends the Franker (R415, R554); SRT_TGT goes back to its default, and the clause of
BROADCAST_WAIT_TIMEOUT does not list it. -/
theorem not_frameOfConfiguration : ¬ Obligations.FrameOfConfiguration := by
  intro h
  obtain ⟨t, ht, hkept⟩ := broadcastWaitTimeout_of_frameOfConfiguration h frankerWaited
  have hafter := permitsAfter_of_next ht
  rw [permitsAfter_broadcastWaitTimeout, hkept, permits_frankerWaited] at hafter
  cases hafter

end Sys2Proof.Machine
end

section
/-! PROOFS. Flash areas, the store, ring services and netlists as frames. -/

namespace Sys2Proof.Machine

-- One proof after another: side by side they need more memory than a check has.
set_option Elab.async false

theorem State.goes_partBundle (s : State) (n : Nat) : Goes (mask [.CFG_ISO_CNT] []) s (s.partBundle n) :=
  (Goes.refl _ s).when _ _ fun t => (Goes.refl _ t).bump _ _ _ (mask_reg (by decide))

theorem State.goes_wideRead (s : State) (p : Port) (r : Reg) (i : Nat) : Goes (mask [] [.outputs, .shadows]) s (s.wideRead p r i) :=
  ((Goes.refl _ s).set_shadows _ (mask_part (by decide))).emit _ (mask_part (by decide))

theorem State.goes_passInto (s : State) (d : Nat) : Goes (mask [] [.crossings]) s (s.passInto d) :=
  (s.goes_setCrossing ..).lift (by decide)

theorem State.goes_passOut (s : State) (d : Nat) : Goes (mask [] [.crossings]) s (s.passOut d) :=
  (s.goes_setCrossing ..).lift (by decide)

theorem State.goes_setSlot (s : State) (n : Nat) (x : NvmSlot) : Goes (mask [] [.config]) s (s.setSlot n x) :=
  (s.goes_setConfig ..).lift (by decide)

theorem State.goes_showWear (s : State) : Goes (mask [.CFG_NVM_WEAR] []) s s.showWear := by
  unfold State.showWear
  extract_lets b x s1
  have hstate : Goes (mask [.CFG_NVM_WEAR] []) s s1 := ((Goes.refl _ s).write _ _ _ (by decide)).write _ _ _ (by decide)
  exact hstate.write _ _ _ (by decide)

theorem State.goes_program (s : State) (b : Nat) : Goes (mask flashRegs flashParts) s (s.program b) :=
  s.goes_setBlock ..

theorem State.goes_nvmRead (s : State) (corrected : Nat) (uncorr : Option Nat) :
    Goes (mask (signals [.CFG_NVM_CNT, .CFG_NVM_ERR]) (signalled [])) s (s.nvmRead corrected uncorr) := by
  unfold State.nvmRead
  extract_lets s1
  have hcnt : Goes (mask (signals [.CFG_NVM_CNT, .CFG_NVM_ERR]) (signalled [])) s s1 :=
      (Goes.refl _ s).when _ _ fun t => ((Goes.refl _ t).write _ _ _ (by decide)).bump _ _ _ (mask_reg (by decide))
  split
  · exact hcnt
  · exact (((hcnt.writeIf _ _ _ _ (by decide)).write _ _ _ (by decide)).bump _ _ _ (mask_reg (by decide))).raised _ (by decide)

theorem State.goes_suspendErases (s : State) : Goes (mask [.CFG_NVM_STAT] []) s s.suspendErases :=
  (Goes.refl _ s).writeIf _ _ _ _ (by decide)

theorem State.goes_recordFail (s : State) (slot : Nat) (x : Nat × Nat) : Goes (mask [.CFG_FAIL] []) s (s.recordFail slot x) :=
  (Goes.refl _ s).when _ _ fun t => (((Goes.refl _ t).write _ _ _ (by decide)).write _ _ _ (by decide)).write _ _ _ (by decide)

/-! ### Volumes -/

theorem State.goes_writeRoot (s : State) (r : RootRec) : Goes (mask flashRegs (.config :: backParts)) s (s.writeRoot r) := by
  unfold State.writeRoot
  extract_lets x _ _ n _ s1
  have hsetStore : Goes (mask flashRegs (.config :: backParts)) s s1 := (s.goes_setStore ..).lift (by decide)
  exact Goes.ite (Goes.refl _ s) (hsetStore.each _ _ fun _ t => (t.goes_areaRecord ..).lift (by decide))

/-! ### Commits (R341) -/

theorem State.goes_startCommit (s : State) (uid : Nat) (closing : Bool) :
    Goes (mask (signals [.SEAL_STORE_STAT]) backParts) s (s.startCommit uid closing) :=
  ((s.goes_updVol ..).lift (by decide)).step (State.goes_showStore_signals _) (by decide)

theorem State.goes_abandonCommit (s : State) (uid : Nat) : Goes (mask driveUpRegs backParts) s (s.abandonCommit uid) :=
  ((((s.goes_updVol ..).lift (by decide)).step (State.goes_storeErr _ _ _ rfl) (by decide)).step (State.goes_showStore_signals _)
      (by decide)).raised _ (by decide)

theorem State.goes_firstRoot (s : State) (uid blocks : Nat) : Goes (mask flashRegs (.config :: backParts)) s (s.firstRoot uid blocks) :=
  s.goes_writeRoot ..

theorem State.goes_writeNodes (s : State) (v : Volume) : Goes (mask [] [.outputs]) s (s.writeNodes v) :=
  (Goes.refl _ s).each _ _ fun k t => (Goes.refl _ t).each _ _ fun i u => (Goes.refl _ u).emit _ (mask_part (by decide))

theorem State.goes_endCommit (s : State) (v : Volume) : Goes (mask (.SEAL_STORE_STAT :: leaseRegs) (.config :: backParts)) s (s.endCommit v) := by
  unfold State.endCommit
  extract_lets w _ _ c r s1
  have hwriteRoot : Goes (mask (.SEAL_STORE_STAT :: leaseRegs) (.config :: backParts)) s s1 := (s.goes_writeRoot ..).lift (by decide)
  exact ((hwriteRoot.step (s1.goes_updVol ..) (by decide)).step (State.goes_perf ..) (by decide)).step (State.goes_showStore_signals _) (by decide)

theorem State.goes_rebuildNodes (s : State) (uid : Nat) : Goes (mask flashRegs (.config :: backParts)) s (s.rebuildNodes uid) := by
  unfold State.rebuildNodes
  split
  · exact (s.goes_writeRoot ..).step (State.goes_updVol ..) (by decide)
  · exact Goes.refl _ s

theorem State.goes_cacheNodes (s : State) (v : Volume) (b : Nat) : Goes (mask [] [.freeValues, .store]) s (s.cacheNodes v b) :=
  (Goes.refl _ s).each _ _ fun k t => (Goes.ite (Goes.refl _ t) (((Goes.refl _ t).drew (mask_part (by decide))).step (State.goes_setStore ..)
      (by decide))).step (State.goes_setStore ..) (by decide)

theorem State.goes_blockFails (s : State) (v : Volume) :
    Goes (mask (signals [.SEAL_STORE_CNT, .SEAL_STORE_ERR, .SEAL_STORE_ERRVOL]) (signalled [])) s (s.blockFails v) := by
  unfold State.blockFails
  extract_lets _ s1
  have hs : Goes (mask (signals [.SEAL_STORE_CNT, .SEAL_STORE_ERR, .SEAL_STORE_ERRVOL]) (signalled [])) s s1 :=
      Goes.ite (((s.goes_storeErr _ _ rfl).lift (by decide)).bump _ _ _ (mask_reg (by decide))) (((s.goes_storeErr _ _ rfl).lift
        (by decide)).bump _ _ _ (mask_reg (by decide)))
  exact hs.raised _ (by decide)

/-! ### Handles -/

theorem State.goes_destroyAll (s : State) : Goes (mask [] [.svc]) s s.destroyAll := by
  unfold State.destroyAll
  extract_lets _ s1 y
  have hsvc : Goes (mask [] [.svc]) s s1 := (Goes.refl _ s).each _ _ fun k t => (Goes.refl _ t).set_svc _ (mask_part (by decide))
  exact hsvc.set_svc _ (mask_part (by decide))

/-! ### Services -/

theorem State.goes_stall (s : State) (L : Letter) (d : Nat) : Goes (mask [] [.svc]) s (s.stall L d) :=
  (Goes.refl _ s).set_svc _ (mask_part (by decide))

/-! ### Places -/

theorem State.goes_setTree (s : State) (t : Nat) (x : Tree) : Goes (mask [] [.trees]) s (s.setTree t x) :=
  (Goes.refl _ s).set_trees _ (mask_part (by decide))

/-! ### Tokens that leave (R25, R26) -/

theorem State.goes_settleToken (s : State) (l : TokenFrom) : Goes tokenMask s (s.settleToken l) := by
  unfold State.settleToken
  extract_lets _ s1
  have hreleaseFrom : Goes tokenMask s s1 := s.goes_releaseFrom ..
  exact Goes.ite (Goes.refl _ s) (hreleaseFrom.set_taken _ (mask_part (by decide)))

theorem State.goes_takeTokens (s : State) (x : Site) (ls : List TokenFrom) : Goes tokenMask s (s.takeTokens x ls) :=
  ((Goes.refl _ s).set_taken _ (mask_part (by decide))).each _ _ fun l t => t.goes_settleToken ..

/-! ### The taps of a tree -/

theorem State.goes_delayGates (s : State) (n : Nat) : Goes (mask [] [.gates]) s (s.delayGates n) :=
  (Goes.refl _ s).each _ _ fun g t => (Goes.refl _ t).set_gates _ (mask_part (by decide))

/-! ### The crossbar -/

theorem State.goes_setPhase (s : State) (ph : Nat) : Goes (mask [.PIN_GSTAT] []) s (s.setPhase ph) :=
  (Goes.refl _ s).write _ _ _ (by decide)

/-! ### Placement cells -/

/-- A letter is served, and what it has accepted is begun at once. -/
theorem Goes.serveThen {rs : List Reg} {ps : List Part} {g : Service} {h : PendingOp → State → State} (hg : ∀ b t, Goes (mask rs ps) t (g b t).1)
    (hh : ∀ op t, Goes (mask rs ps) t (h op t)) (s : State) (L : Letter) (o : Offer) (exempt : Bool)
    (hin : Inside (signals (counting [])) (signalled []) rs ps) : Goes (mask rs ps) s (s.serveThen L o exempt g h) := by
  unfold State.serveThen
  extract_lets s1
  have hserve : Goes (mask rs ps) s s1 := Goes.serve hg s L o exempt hin
  refine Goes.ite hserve ?_
  split
  · exact hserve.trans (hh _ _)
  · exact hserve
end Sys2Proof.Machine
end

section
/-! PROOFS. Words of registers, copies and letters on their way as frames. -/

namespace Sys2Proof.Machine

-- One proof after another: side by side they need more memory than a check has.
set_option Elab.async false

theorem Goes.set_copies {m : Nat} {s t : State} (h : Goes m s t) (v0 : Tbl PubCopy) (h0 : m.testBit (256 + Part.copies.ctorIdx) = true) :
    Goes m s { t with copies := v0 } :=
  h.trans ⟨fun _ _ _ => rfl, fun p hp => by cases p <;> first | rfl | simp_all, id, id, id, List.prefix_refl _⟩

/-- A word written into a register changes that register's fields only. -/
theorem State.goes_storeWord (s : State) (r : Reg) (i w v : Nat) : Goes (mask [r] []) s (s.storeWord r i w v) := by
  refine (Goes.refl _ s).eachMem _ _ fun f hf t => ?_
  have hreg : f.spec.reg ∈ [r] := List.mem_singleton.mpr (Fld.reg_of_mem (List.mem_of_mem_filter hf))
  exact Goes.ite (Goes.ite ((Goes.refl _ t).write f i _ hreg) ((Goes.refl _ t).write f i _ hreg))
    (Goes.ite ((Goes.refl _ t).write f i _ hreg) (Goes.refl _ t))

/-! ### Messages that are taken (R299, R302) -/

theorem State.goes_leaveQueue (s : State) (m : Msg) : Goes (mask [] [.crossings, .memo]) s (s.leaveQueue m) :=
  Goes.ite (Goes.refl _ s) (((s.goes_setCrossing ..).lift (by decide)).step (State.goes_fillMsgs ..) (by decide))

theorem State.goes_unpost (s : State) (m : Msg) : Goes (mask [] [.crossings, .memo]) s (s.unpost m) :=
  ((s.goes_setMem ..).lift (by decide)).trans (State.goes_leaveQueue ..)

theorem State.goes_arrived {s t : State} {l : Nat} {r q : HomeReq} (h : s.arrived l r = some (t, q)) : Goes (mask [] [.crossings, .memo]) s t := by
  unfold State.arrived at h
  split at h
  · cases h
    exact s.goes_unpost _
  · split at h
    · cases h
    · split at h
      · cases h
      · cases h
        exact Goes.refl _ _

/-- The messages of the requests that reach the slice together are taken. -/
theorem State.goes_gather (s : State) (l : Nat) (rs : List HomeReq) : Goes (mask [] [.crossings, .memo]) s (s.gather l rs).1 := by
  induction rs generalizing s with
  | nil => exact Goes.refl _ s
  | cons r rs ih =>
    unfold State.gather
    split
    · exact ih s
    · next t q h => exact (State.goes_arrived h).trans (ih t)

end Sys2Proof.Machine
end

section
/-! PROOFS. Channels, memory, homes, crossings and links as frames. -/

namespace Sys2Proof.Machine

-- One proof after another: side by side they need more memory than a check has.
set_option Elab.async false

/-! ### Marking and rejects (R182, R192, R197) -/

theorem State.goes_pumpLate (s : State) (m : Nat) : Goes (mask insertRegs insertParts) s (s.pumpLate m) := by
  unfold State.pumpLate
  extract_lets _ s1
  have hpump : Goes (mask insertRegs insertParts) s s1 := (s.goes_pump ..).lift (by decide)
  exact hpump.each _ _ fun _ t => (by
    split
    · refine Goes.ite (Goes.refl _ t) ?_
      split
      · exact t.goes_markProduct ..
      · exact Goes.refl _ t
    · exact Goes.refl _ t)

/-! ### Line sealing -/

theorem State.goes_showRoots (s : State) : Goes (mask [.SEAL_LINE_STAT] []) s s.showRoots :=
  (Goes.refl _ s).each _ _ fun _ t => (Goes.refl _ t).write _ _ _ (by decide)

theorem State.goes_raiseRoot (s : State) (stack g : Nat) : Goes (mask [] [.seals]) s (s.raiseRoot stack g) :=
  (s.goes_setSeal ..).lift (by decide)

theorem State.goes_flushMeta (s : State) : Goes (mask [] [.seals]) s s.flushMeta :=
  (Goes.refl _ s).each _ _ fun _ t => (Goes.refl _ t).each _ _ fun _ u => (u.goes_writeNode ..).lift (by decide)

/-! ### Granules -/

/-- A keep of some bytes of the stacks leaves them canonical. -/
theorem Goes.keepBytes {rs : List Reg} {ps : List Part} {s t : State} (h : Goes (mask rs ps) s t) (p : Nat → Bool) (hp : .memo ∈ ps) :
    Goes (mask rs ps) s (t.setMem fun m => { m with bytes := Tbl.keep p m.bytes }) :=
  h.set_memo _ (mask_part hp) (Tbl.wf_keep p)

theorem State.goes_zeroGranule (s : State) (g : Nat) : Goes (mask [] [.memo, .seals]) s (s.zeroGranule g) :=
  ((Goes.refl _ s).keepBytes _ (by decide)).step (State.goes_setSeal ..) (by decide)

theorem State.goes_sealGranule (s : State) (g : Nat) : Goes (mask [.SEAL_GRAN, .SEAL_LINE_STAT] [.memo, .seals]) s (s.sealGranule g) := by
  unfold State.sealGranule
  extract_lets s1
  have hepoch : Goes (mask [.SEAL_GRAN, .SEAL_LINE_STAT] [.memo, .seals]) s s1 :=
      ((s.goes_zeroGranule ..).lift (by decide)).addMod _ _ _ (mask_reg (by decide))
  exact ((hepoch.each _ _ fun _ t => (t.goes_raiseRoot ..).lift (by decide)).write _ _ _ (by decide)).step (State.goes_showRoots _) (by decide)

theorem State.goes_unsealGranule (s : State) (g : Nat) : Goes (mask [.SEAL_GRAN, .SEAL_LINE_STAT] [.memo, .seals]) s (s.unsealGranule g) :=
  (((s.goes_zeroGranule ..).lift (by decide)).write _ _ _ (by decide)).step (State.goes_showRoots _) (by decide)

theorem State.goes_rebuildSealed (s : State) : Goes (mask (signals [.SEAL_GRAN, .SEAL_LINE_STAT]) memParts) s s.rebuildSealed := by
  unfold State.rebuildSealed
  extract_lets _ s1
  have hlost : Goes (mask (signals [.SEAL_GRAN, .SEAL_LINE_STAT]) memParts) s s1 :=
      (Goes.refl _ s).each _ _ fun g t => (Goes.ite ((t.goes_unsealGranule ..).lift (by decide)) ((t.goes_sealGranule ..).lift
        (by decide))).write _ _ _ (by decide)
  exact hlost.when _ _ fun t => (Goes.refl _ t).raised _ (by decide)

/-! ### Messages -/

theorem State.goes_dropMsgs (s : State) (p : Msg → Bool) : Goes (mask [] [.crossings, .memo]) s (s.dropMsgs p) :=
  ((s.goes_setMem ..).lift (by decide)).each _ _ fun _ t => (t.goes_leaveQueue ..).lift (by decide)

theorem State.goes_openMsgs (s : State) (k : Nat) : Goes (mask [] [.crossings, .memo]) s (s.openMsgs k) :=
  (((s.goes_setMem ..).lift (by decide)).step (State.goes_fillMsgs ..) (by decide)).step (State.goes_fillMsgs ..) (by decide)

/-! ### What follows a change of a line -/

theorem State.goes_serveStack (s : State) (k : Nat) : Goes (mask homeRegs homeParts) s (s.serveStack k) := by
  unfold State.serveStack
  extract_lets s1
  have hpumpWrites : Goes (mask homeRegs homeParts) s s1 := s.goes_pumpWrites
  exact (hpumpWrites.each _ _ fun _ t => t.goes_serveNext ..).step (State.goes_showHome ..) (by decide)

/-! ### Arrival of requests (R299, R302) -/

theorem State.goes_enqueue (s : State) (l : Nat) (rs : List HomeReq) : Goes (mask [] [.crossings, .memo]) s (s.enqueue l rs) := by
  unfold State.enqueue
  extract_lets g s1 p _ _ s2 y
  have hgather : Goes (mask [] [.crossings, .memo]) s g.1 := (s.goes_gather ..).lift (by decide)
  have hs : Goes (mask [] [.crossings, .memo]) s s1 := hgather
  have hsetMem : Goes (mask [] [.crossings, .memo]) s s2 := hs.step (s1.goes_setMem ..) (by decide)
  exact hsetMem.step (s2.goes_setDir ..) (by decide)

theorem State.goes_queueUp (s : State) (l : Nat) (rs : List HomeReq) : Goes (mask [] [.crossings, .memo]) s (s.queueUp l rs) :=
  (Goes.refl _ s).each _ _ fun r t => (Goes.refl _ t).when _ _ fun u => (u.goes_post ..).lift (by decide)

theorem State.goes_takeIn (s : State) (l : Nat) (rs : List HomeReq) : Goes (mask [] [.crossings, .memo]) s (s.takeIn l rs) :=
  (s.goes_enqueue ..).trans (State.goes_queueUp ..)

theorem State.goes_request (s : State) (l : Nat) (rs : List HomeReq) : Goes (mask homeRegs homeParts) s (s.request l rs) :=
  Goes.ite ((s.goes_queueUp ..).lift (by decide)) (((s.goes_takeIn ..).lift (by decide)).trans (State.goes_serveNext ..))

/-! ### Snoop answers and writebacks -/

theorem State.goes_ackOwner (s : State) (l : Nat) (x : HomeTxn) : Goes (mask [] [.crossings, .memo]) s (s.ackOwner l x) :=
  Goes.ite (((s.goes_setDir ..).lift (by decide)).step (State.goes_post ..) (by decide)) (Goes.refl _ s)

/-- What a request's snoops have brought is written to memory, where they brought data and no writeback has. -/
theorem State.goes_answerWritten (s : State) (l : Nat) (x : HomeTxn) (f : Option Xfer) :
    Goes (mask homeRegs homeParts) s (match x.data with
      | some v => if x.viaWb then s else (s.memWrite l v Touch.clean f).1
      | none => s) := by
  split
  · exact Goes.ite (Goes.refl _ s) ((s.goes_memWrite ..).lift (by decide))
  · exact Goes.refl _ s

theorem State.goes_endTxn (s : State) (l : Nat) (x : HomeTxn) : Goes (mask homeRegs homeParts) s (s.endTxn l x) := by
  unfold State.endTxn
  extract_lets s1 d written s2 y s3
  have hwritten (t : State) (f : Option Xfer) : Goes (mask homeRegs homeParts) t (written t f) := t.goes_answerWritten l x f
  have hacked : Goes (mask homeRegs homeParts) s s1 := (s.goes_ackOwner ..).lift (by decide)
  have hraced : Goes (mask homeRegs homeParts) s s3 :=
    Goes.ite ((hacked.bump _ _ _ (mask_reg (by decide))).step (State.goes_perf ..) (by decide)) hacked
  split
  · exact (Goes.ite hacked (hacked.trans (hwritten ..))).step (State.goes_setDir ..) (by decide)
  · split
    · exact (hraced.trans (hwritten ..)).trans (State.goes_endShared ..)
    · exact hraced.trans (s3.goes_endOwn ..)
    · exact hraced.trans (s3.goes_endCur ..)
    · exact hraced.trans (s3.goes_endPtl ..)

theorem State.goes_settleTxn (s : State) (l : Nat) : Goes (mask homeRegs homeParts) s (s.settleTxn l) := by
  unfold State.settleTxn
  split
  · exact Goes.refl _ s
  · exact Goes.ite (((s.goes_endTxn ..).when _ _ fun t => t.goes_serveSet ..).trans (State.goes_serveNext ..)) (Goes.refl _ s)

theorem State.goes_answer (s : State) (l who : Nat) (data : Option Nat) (pending : Bool) :
    Goes (mask homeRegs homeParts) s (s.answer l who data pending) := by
  unfold State.answer
  extract_lets y
  split
  · exact Goes.refl _ s
  · exact Goes.ite (Goes.refl _ s) (((s.goes_setDir ..).lift (by decide)).trans (State.goes_settleTxn ..))

theorem State.goes_stray (s : State) (l who : Nat) : Goes (mask [.MEM_HOME_CNT] [.crossings, .memo]) s (s.stray l who) :=
  ((s.goes_post ..).lift (by decide)).bump _ _ _ (mask_reg (by decide))

theorem State.goes_giveUp (s : State) (l who : Nat) (data : Option Nat) : Goes (mask homeRegs homeParts) s (s.giveUp l who data) := by
  unfold State.giveUp
  extract_lets d _ s1 _ s2 y
  have hcase : Goes (mask homeRegs homeParts) s s1 := by
    simp only [s1]
    split
    · exact Goes.ite (Goes.refl _ s) ((s.goes_memWrite ..).lift (by decide))
    · exact Goes.refl _ s
  have hpost : Goes (mask homeRegs homeParts) s s2 := hcase.step (s1.goes_post ..) (by decide)
  refine Goes.ite ((s.goes_stray ..).lift (by decide)) ?_
  split
  · exact Goes.ite ((hcase.step (s1.goes_setDir ..) (by decide)).step (State.goes_post ..) (by decide)) ((hcase.step (s1.goes_setDir ..)
      (by decide)).trans (State.goes_settleTxn ..))
  · split
    · exact Goes.ite (((((hpost.step (s2.goes_setDir ..) (by decide)).bump _ _ _ (mask_reg (by decide))).step (State.goes_perf ..) (by decide)).step
        (State.goes_took ..) (by decide)).trans (State.goes_beginReq ..)) (hpost.step (s2.goes_setDir ..) (by decide))
    · exact hpost.step (s2.goes_setDir ..) (by decide)

/-! ### Caches as resets see them (R312, R313) -/

theorem State.goes_disown (s : State) (a l : Nat) : Goes (mask [] [.crossings, .memo]) s (s.disown a l) := by
  unfold State.disown
  extract_lets d _ _ s1
  have hpost : Goes (mask [] [.crossings, .memo]) s s1 := (s.goes_dropMsgs ..).when _ _ fun t => (t.goes_post ..).lift (by decide)
  exact Goes.ite (hpost.step (s1.goes_setDir ..) (by decide)) hpost

theorem State.goes_landDirty (s : State) : Goes (mask memRegs memParts) s s.landDirty := by
  unfold State.landDirty
  extract_lets s1
  have hmemWrite : Goes (mask memRegs memParts) s s1 := (Goes.refl _ s).each _ _ fun m t => t.goes_memWrite ..
  exact hmemWrite.each _ _ fun e t => (by
    split
    · refine Goes.ite (Goes.refl _ t) ?_
      split
      · exact t.goes_memWrite ..
      · exact Goes.refl _ t
    · exact Goes.refl _ t)

theorem State.goes_writeBackCaches (s : State) (agents : List Nat) :
    Goes (mask (.CFG_AGT_STAT :: .MEM_HOME_STAT :: memRegs) homeParts) s (s.writeBackCaches agents) := by
  unfold State.writeBackCaches
  extract_lets s1
  have hs : Goes (mask (.CFG_AGT_STAT :: .MEM_HOME_STAT :: memRegs) homeParts) s s1 :=
      ((s.goes_landDirty).lift (by decide)).each _ _ fun a t => (Goes.refl _ t).each _ _ fun l u => ((Goes.ite ((u.goes_memWrite ..).lift
        (by decide)) (Goes.refl _ u)).step (State.goes_disown ..) (by decide)).step (State.goes_setCached ..) (by decide)
  exact hs.each _ _ fun _ t => (t.goes_showHome ..).lift (by decide)

theorem State.goes_loseCaches (s : State) (agents : List Nat) : Goes (mask [.CFG_AGT_STAT] [.memo]) s (s.loseCaches agents) :=
  (Goes.refl _ s).each _ _ fun a t => (Goes.refl _ t).each _ _ fun l u => (u.goes_setCached ..).lift (by decide)

theorem State.goes_emptyHomes (s : State) : Goes (mask [.MEM_HOME_STAT] [.crossings, .memo]) s s.emptyHomes :=
  (((s.goes_dropMsgs ..).lift (by decide)).step (State.goes_setMem ..) (by decide)).each _ _ fun _ t => (t.goes_showHome ..).lift (by decide)

theorem State.goes_emptyDirs (s : State) : Goes (mask [] [.crossings, .memo]) s s.emptyDirs := by
  unfold State.emptyDirs
  extract_lets dir
  exact (s.goes_dropMsgs _).step (State.goes_setMem _ _) (by decide)

theorem State.goes_forgetAgents (s : State) (agents : List Nat) : Goes (mask homeRegs homeParts) s (s.forgetAgents agents) := by
  unfold State.forgetAgents
  extract_lets s1 s2
  have hs : Goes (mask homeRegs homeParts) s s1 :=
      (Goes.refl _ s).each _ _ fun l t => ((t.goes_setDir ..).lift (by decide)).each _ _ fun a u => u.goes_answer ..
  have hdropMsgs : Goes (mask homeRegs homeParts) s s2 := hs.step (s1.goes_dropMsgs ..) (by decide)
  exact hdropMsgs.each _ _ fun k t => t.goes_serveStack ..

theorem State.goes_storeWrite (s : State) (a : Nat) (bs : List Byte) : Goes (mask homeRegs homeParts) s (s.storeWrite a bs) :=
  s.goes_ioWrite ..

/-! ### Pulses and published values (R87..R90) -/

theorem State.goes_setSampler (s : State) (x : Published) (receiver : Nat) (c : Sampler) : Goes (mask [] [.samplers]) s (s.setSampler x receiver c) :=
  (Goes.refl _ s).set_samplers _ (mask_part (by decide))

theorem State.goes_publish (s : State) (x : Published) : Goes (mask [] [.copies]) s (s.publish x) := by
  unfold State.publish
  extract_lets c
  split
  · exact Goes.refl _ s
  · exact Goes.ite (Goes.refl _ s) ((Goes.refl _ s).set_copies _ (mask_part (by decide)))

theorem State.goes_publishAll (s : State) : Goes (mask [] [.copies]) s s.publishAll :=
  (Goes.refl _ s).each _ _ fun _ t => t.goes_publish ..

theorem State.goes_firstCopy (s : State) (x : Published) : Goes (mask [] [.copies]) s (s.firstCopy x) := by
  unfold State.firstCopy
  refine Goes.ite (Goes.refl _ s) ?_
  split
  · exact Goes.refl _ s
  · exact (Goes.refl _ s).set_copies _ (mask_part (by decide))

theorem State.goes_sampled (s : State) (x : Published) (receiver : Nat) (mix : Option (BitVec 64)) :
    Goes (mask [] [.copies, .samplers]) s (s.sampled x receiver mix) := by
  unfold State.sampled
  extract_lets s1 c y
  have hfirstCopy : Goes (mask [] [.copies, .samplers]) s s1 := (s.goes_firstCopy ..).lift (by decide)
  refine Goes.ite (Goes.refl _ s) ?_
  refine Goes.ite hfirstCopy ?_
  split
  · exact Goes.ite (hfirstCopy.step (s1.goes_setSampler ..) (by decide)) (hfirstCopy.step (s1.goes_setSampler ..) (by decide))
  · exact hfirstCopy.step (s1.goes_setSampler ..) (by decide)

/-! ### Resynchronisation (R93) -/

theorem State.goes_crossRelease (s : State) (d : Nat) (domainEnd : Bool) : Goes (mask [] [.crossings]) s (s.crossRelease d domainEnd) :=
  (s.goes_setCrossing ..).lift (by decide)

/-! ### Accesses that wait (R97) -/

theorem State.goes_poisonWaiting (s : State) (d cause : Nat) :
    Goes (mask (.DEV_XDROP :: flushAuditRegs) (signalled [.crossings, .svc, .waiting])) s (s.poisonWaiting d cause) := by
  unfold State.poisonWaiting
  extract_lets _ _ s1 s2 _ y
  have hsetCrossing : Goes (mask (.DEV_XDROP :: flushAuditRegs) (signalled [.crossings, .svc, .waiting])) s s1 :=
      ((Goes.refl _ s).set_waiting _ (mask_part (by decide))).step (State.goes_setCrossing ..) (by decide)
  have hs : Goes (mask (.DEV_XDROP :: flushAuditRegs) (signalled [.crossings, .svc, .waiting])) s s2 :=
      hsetCrossing.each _ _ fun _ t => (t.goes_release ..).lift (by decide)
  exact (hs.set_svc _ (mask_part (by decide))).each _ _ fun e t => ((t.goes_release ..).lift (by decide)).step (State.goes_reply ..) (by decide)

theorem State.goes_withdrawRegion (s : State) (n : Nat) :
    Goes (mask (signals [.DEV_XDROP]) (signalled [.crossings, .waiting])) s (s.withdrawRegion n) :=
  (s.goes_withdraw ..).lift (by decide)

theorem State.goes_frankerMiss (s : State) (n : Nat) : Goes (mask [.DEV_FRK_MISS] []) s (s.frankerMiss n) :=
  (Goes.refl _ s).bump _ _ _ (mask_reg (by decide))

/-! ### Loss and dead reckoning -/

theorem State.goes_loseRunning (s : State) (first : Nat) : Goes (mask faultRegs faultParts) s (s.loseRunning first) :=
  (Goes.refl _ s).each _ _ fun _ t => t.goes_lose ..

theorem State.goes_timebaseReturn (s : State) : Goes (mask faultRegs faultParts) s s.timebaseReturn :=
  s.goes_loseRunning ..

/-! ### Encoder edges -/

theorem execEncoderEdge_frame (k : Fin 8) (pairA level : Bool) (t heldNs : Nat) (s : State) :
    ∃ u, execEncoderEdge k pairA level t heldNs s = .next u ∧ Goes (mask edgeRegs edgeParts) s u :=
  ⟨_, rfl, s.goes_encoderEdge ..⟩

theorem execOpenFault_frame (k : Fin 8) (pairA : Bool) (s : State) :
    ∃ t, execOpenFault k pairA s = .next t ∧ Goes (mask (.POS_ENC_STAT :: faultRegs) (.encOpen :: faultParts)) s t :=
  ⟨_, rfl, Goes.engine (fun t => ((t.goes_judgePair ..).lift (by decide)).each _ _ fun a u => (u.goes_fault ..).lift (by decide))⟩

theorem execDeadReckoningEnd_frame (a : Fin 8) (s : State) : ∃ t, execDeadReckoningEnd a s = .next t ∧ Goes (mask reckonedRegs faultParts) s t :=
  ⟨_, rfl, Goes.engine (fun t => t.goes_drEnd ..)⟩

theorem execVelocityTimeout_frame (a : Fin 8) (s : State) : ∃ t, execVelocityTimeout a s = .next t ∧ Goes (mask [.POS_AX_VEL] [.axes]) s t :=
  ⟨_, rfl, Goes.engine (fun t => (t.goes_holdTravel ..).lift (by decide))⟩

theorem execPositionWrap_frame (a : Fin 8) (forward : Bool) (s : State) :
    ∃ t, execPositionWrap a forward s = .next t ∧ Goes (mask edgeRegs edgeParts) s t :=
  ⟨_, rfl, Goes.engine (fun t => Goes.ite (t.goes_stepEncoder ..) (Goes.refl _ t))⟩

/-! ### Z -/

theorem execZEdge_frame (k : Fin 8) (e : ZEdge) (s : State) : ∃ t, execZEdge k e s = .next t ∧ Goes (mask zRegs (signalled [.axes])) s t :=
  ⟨_, rfl, Goes.engine (fun t => (Goes.refl _ t).each _ _ fun _ u => (u.goes_zEdge ..).lift (by decide))⟩

theorem execZOpen_frame (k : Fin 8) (s : State) :
    ∃ t, execZOpen k s = .next t ∧ Goes (mask (signals [.POS_AX_FLT, .POS_ENC_STAT]) (signalled [.axes, .encOpen])) s t :=
  ⟨_, rfl, Goes.engine (fun t => ((t.goes_judgePair ..).lift (by decide)).each _ _ fun _ u => (u.goes_zOpen ..).lift (by decide))⟩

/-! ### Beacons -/

theorem execBeaconTimeout_frame (a : Fin 8) (s : State) : ∃ t, execBeaconTimeout a s = .next t ∧ Goes (mask faultRegs faultParts) s t :=
  ⟨_, rfl, Goes.engine (fun t => t.goes_judgeBeacon ..)⟩

/-! ### Strobes -/

theorem execStrobeCrossing_frame (k : Fin 2) (forward : Bool) (t : Nat) (s : State) :
    ∃ u, execStrobeCrossing k forward t s = .next u ∧ Goes (mask (signals [.POS_STRB_STAT]) (signalled [.flying, .strobeAt, .strobeT])) s u :=
  ⟨_, rfl, Goes.engine (fun u => Goes.ite (((Goes.refl _ u).set_strobeAt _ (mask_part (by decide))).step (State.goes_strobe ..) (by decide))
      (Goes.refl _ u))⟩

theorem State.goes_strobeTick (s : State) (k : Nat) :
    Goes (mask (signals [.POS_STRB_STAT]) (signalled [.flying, .strobeAt, .strobeT])) s (s.strobeTick k) := by
  unfold State.strobeTick
  extract_lets a _ n s1 s2
  have hstrobe : Goes (mask (signals [.POS_STRB_STAT]) (signalled [.flying, .strobeAt, .strobeT])) s s1 :=
      (Goes.refl _ s).when _ _ fun t => (t.goes_strobe ..).lift (by decide)
  have hraised : Goes (mask (signals [.POS_STRB_STAT]) (signalled [.flying, .strobeAt, .strobeT])) s s2 :=
      hstrobe.when _ _ fun t => ((Goes.refl _ t).bump _ _ _ (mask_reg (by decide))).raised _ (by decide)
  exact hraised.set_strobeAt _ (mask_part (by decide))

theorem State.goes_strobeWritten (s : State) (k : Nat) : Goes (mask [.POS_STRB_BASE] [.strobeAt]) s (s.strobeWritten k) :=
  ((Goes.refl _ s).write _ _ _ (by decide)).step (State.goes_restrobe ..) (by decide)

theorem State.goes_loadWritten (s : State) (a : Nat) : Goes (mask [.POS_AX_LOAD] []) s (s.loadWritten a) :=
  (Goes.refl _ s).write _ _ _ (by decide)

theorem execPosStrbStatRead_frame (p : Port) (k : Fin 2) (s : State) :
    ∃ t, execPosStrbStatRead p k s = .next t ∧ Goes (mask (signals (errors [.POS_STRB_STAT])) (signalled [.crossings, .waiting])) s t :=
  ⟨_, rfl, Goes.access (fun t => (t.goes_readClear ..).lift (by decide)) s _ _ _ _ _ (by decide)⟩

/-! ### Commands -/

theorem execPosAxStart_frame (p : Port) (a : Fin 8) (s : State) :
    ∃ t, execPosAxStart p a s = .next t ∧ Goes (mask (.DEV_ACCESS_ADDR :: .DEV_ACCESS_ERR :: commandRegs) (.crossings :: .waiting :: commandParts)) s
      t :=
  ⟨_, rfl, Goes.access (fun t => (t.goes_axCmd ..).lift (by decide)) s _ _ _ _ _ (by decide)⟩

theorem execPosAxStop_frame (p : Port) (a : Fin 8) (s : State) :
    ∃ t, execPosAxStop p a s = .next t ∧ Goes (mask (.DEV_ACCESS_ADDR :: .DEV_ACCESS_ERR :: commandRegs) (.crossings :: .waiting :: commandParts)) s
      t :=
  ⟨_, rfl, Goes.access (fun t => (t.goes_axCmd ..).lift (by decide)) s _ _ _ _ _ (by decide)⟩

theorem execPosAxRecover_frame (p : Port) (a : Fin 8) (s : State) :
    ∃ t, execPosAxRecover p a s = .next t ∧ Goes (mask (.DEV_ACCESS_ADDR :: .DEV_ACCESS_ERR :: commandRegs) (.crossings :: .waiting :: commandParts))
      s t :=
  ⟨_, rfl, Goes.access (fun t => (t.goes_axCmd ..).lift (by decide)) s _ _ _ _ _ (by decide)⟩

theorem execAxisCtlWrite_frame (p : Port) (a : Fin 8) (value : Word) (s : State) :
    ∃ t, execAxisCtlWrite p a value s = .next t ∧ Goes (mask (signals (errors [.POS_AX_CTL, .POS_AX_STAT])) (signalled [.crossings, .waiting])) s t :=
  ⟨_, rfl, Goes.access (fun t => (t.goes_axisCtl ..).lift (by decide)) s _ _ _ _ _ (by decide)⟩

theorem execVspeedWrite_frame (p : Port) (a : Fin 8) (value : Word) (s : State) :
    ∃ t, execVspeedWrite p a value s = .next t ∧ Goes (mask (signals (errors [.POS_AX_VSPEED])) (signalled [.crossings, .waiting])) s t :=
  ⟨_, rfl, Goes.access (fun t => (Goes.refl _ t).write _ _ _ (by decide)) s _ _ _ _ _ (by decide)⟩

/-! ### Snapshots and reads -/

theorem execPosSnap_frame (p : Port) (s : State) :
    ∃ t, execPosSnap p s = .next t ∧ Goes (mask (signals (errors [.POS_AX_SNAP, .POS_AX_SNAP_EPOCH, .POS_SNAP_TB])) (signalled [.crossings,
      .waiting])) s t :=
  ⟨_, rfl, Goes.access (fun t => (t.goes_snapshot).lift (by decide)) s _ _ _ _ _ (by decide)⟩

theorem execAxisPosRead_frame (p : Port) (a : Fin 8) (s : State) :
    ∃ t, execAxisPosRead p a s = .next t ∧ Goes (mask (signals (errors [])) (signalled [.crossings, .shadows, .waiting])) s t :=
  ⟨_, rfl, Goes.access (fun t => (t.goes_readPos ..).lift (by decide)) s _ _ _ _ _ (by decide)⟩

theorem execPosAxErrcntRead_frame (p : Port) (a : Fin 8) (s : State) :
    ∃ t, execPosAxErrcntRead p a s = .next t ∧ Goes (mask (signals (errors [.POS_AX_ERRCNT])) (signalled [.crossings, .waiting])) s t :=
  ⟨_, rfl, Goes.access (fun t => (t.goes_readClear ..).lift (by decide)) s _ _ _ _ _ (by decide)⟩

/-! ### The 1 ns tick -/

theorem State.goes_advance (s : State) (a : Nat) (v extra : Int) : Goes (mask moveRegs moveParts) s (s.advance a v extra) :=
  ((s.goes_updAx ..).lift (by decide)).trans (State.goes_moveTo ..)

theorem State.goes_reportVel (s : State) (a : Nat) : Goes (mask [.POS_AX_VEL] [.freeValues]) s (s.reportVel a) :=
  Goes.ite ((s.goes_setVel ..).lift (by decide)) (Goes.refl _ s)

theorem State.goes_reportReckoned (s : State) (a : Nat) : Goes (mask [.POS_AX_VEL] [.freeValues]) s (s.reportReckoned a) :=
  Goes.ite ((Goes.refl _ s).write _ _ _ (by decide)) (s.goes_reportVel ..)

theorem State.goes_axisMotion (s : State) (a : Nat) : Goes (mask (.POS_AX_VEL :: moveRegs) moveParts) s (s.axisMotion a) := by
  unfold State.axisMotion
  extract_lets x s1 _ s2 v r
  have hholdTravel : Goes (mask (.POS_AX_VEL :: moveRegs) moveParts) s s1 :=
      ((s.goes_window ..).lift (by decide)).step (State.goes_holdTravel ..) (by decide)
  have hchosen : Goes (mask (.POS_AX_VEL :: moveRegs) moveParts) s s2 := Goes.ite (hholdTravel.step (s1.goes_reportVel ..) (by decide)) hholdTravel
  have hroundFree : Goes (mask (.POS_AX_VEL :: moveRegs) moveParts) s r.1 := (s.goes_roundFree ..).lift (by decide)
  refine Goes.ite (((s.goes_reportReckoned ..).lift (by decide)).step (State.goes_moveTo ..) (by decide)) ?_
  refine Goes.ite (Goes.refl _ s) ?_
  split
  · exact hchosen.step (s2.goes_moveTo ..) (by decide)
  · exact ((hroundFree.write _ _ _ (by decide)).step (State.goes_updAx ..) (by decide)).step (State.goes_advance ..) (by decide)
  · exact (s.goes_advance ..).lift (by decide)

theorem State.goes_axisTick (s : State) (a : Nat) : Goes (mask commandRegs faultParts) s (s.axisTick a) := by
  unfold State.axisTick
  extract_lets s1 s2
  have hjudgeBeacon : Goes (mask commandRegs faultParts) s s1 := ((s.goes_drEnd ..).lift (by decide)).step (State.goes_judgeBeacon ..) (by decide)
  have hchosen : Goes (mask commandRegs faultParts) s s2 := Goes.ite (hjudgeBeacon.step (s1.goes_judgeStuck ..) (by decide)) hjudgeBeacon
  exact hchosen.step (s2.goes_axisMotion ..) (by decide)

theorem State.goes_markTick (s : State) (a : Nat) : Goes (mask [] [.axes]) s (s.markTick a) :=
  (s.goes_updAx ..).lift (by decide)

/-! ### What the fabric hands to a lane (R77, R272, R278) -/

theorem State.goes_laneUnit (s : State) (l vl data : Nat) : Goes (mask pumpRegs (.crossings :: deadlineParts)) s (s.laneUnit l vl data) := by
  unfold State.laneUnit
  extract_lets m _ s1 b fire _ s2 f s3
  have hpassInto : Goes (mask pumpRegs (.crossings :: deadlineParts)) s s1 := (s.goes_passInto ..).lift (by decide)
  have hlaneTx : Goes (mask pumpRegs (.crossings :: deadlineParts)) s s2 := hpassInto.set_laneTx _ (mask_part (by decide))
  have hchosen : Goes (mask pumpRegs (.crossings :: deadlineParts)) s s3 :=
      Goes.ite (hlaneTx.set_fires _ (mask_part (by decide))) (hlaneTx.step (s2.goes_updLink ..) (by decide))
  exact Goes.ite hpassInto (Goes.ite (hpassInto.set_laneSkip _ (mask_part (by decide))) (Goes.ite (hpassInto.set_laneTx _ (mask_part (by decide)))
      (hchosen.step (s3.goes_pumpLink ..) (by decide))))

/-! ### Width and retrain (R285..R290) -/

theorem State.goes_sendHeld (s : State) (m : Nat) : Goes (mask pumpRegs pumpParts) s (s.sendHeld m) :=
  Goes.ite (Goes.refl _ s) ((((s.goes_updLink ..).lift (by decide)).each _ _ fun e t => (t.goes_linkExpress ..).lift (by decide)).trans
      (State.goes_pumpLink ..))
end Sys2Proof.Machine
end

section
/-! PROOFS. Letters that a mailbox takes, as a frame. -/

namespace Sys2Proof.Machine

-- One proof after another: side by side they need more memory than a check has.
set_option Elab.async false

/-! ### Letters that are taken (R355..R357) -/

/-- The registers of letters that are taken. -/
def takenRegs : List Reg := signals (counting [.PST_MB_REQ])

theorem State.goes_takeOne (s : State) (m : Fin 64) : Goes (mask takenRegs (signalled [])) s (s.takeOne m) := by
  unfold State.takeOne
  extract_lets _ _ _ _ _ _ s1 s2 _ s3 _ s4
  have hboxed : Goes (mask takenRegs (signalled [])) s s1 := (s.goes_setBox ..).lift (by decide)
  have hrefused : Goes (mask takenRegs (signalled [])) s s2 := (hboxed.write _ _ _ (by decide)).step (State.goes_reply ..) (by decide)
  have hhead : Goes (mask takenRegs (signalled [])) s s3 := (Goes.refl _ s).write _ _ _ (by decide)
  have htaken : Goes (mask takenRegs (signalled [])) s s4 := (hhead.step (s3.goes_setBox ..) (by decide)).step (State.goes_perf ..) (by decide)
  refine Goes.ite ((hrefused.write _ _ _ (by decide)).raisedOf _ _ _ (by decide)) ?_
  split
  · exact htaken.step (s4.goes_reply ..) (by decide)
  · exact htaken

theorem State.goes_takeLetters (k : Nat) (s : State) (m : Fin 64) : Goes (mask takenRegs (signalled [])) s (State.takeLetters k s m) := by
  induction k generalizing s with
  | zero => exact Goes.refl _ s
  | succ k ih => exact Goes.ite ((s.goes_takeOne m).trans (ih _)) (Goes.refl _ s)

theorem State.goes_take (s : State) (m : Fin 64) : Goes (mask takenRegs (signalled [])) s (s.take m) := State.goes_takeLetters ..

end Sys2Proof.Machine
end

section
/-! PROOFS. Reads of lines, recalls, ends of flushes and releases of locks under their least frames. -/

namespace Sys2Proof.Machine

-- One proof after another: side by side they need more memory than a check has.
set_option Elab.async false

/-! ### Reads of lines, recalls and the end of a flush under their least frames -/

theorem State.goes_endFlush_tight (s : State) (uid : Nat) (st : Status) (all : Bool) :
    Goes (mask (signals (counting [])) ownerParts) s (s.endFlush uid st all) := by
  refine (Goes.refl _ s).each _ _ fun o t => ?_
  extract_lets t1
  have hclosed : Goes (mask (signals (counting [])) ownerParts) t t1 := by
    refine Goes.ite ?_ (Goes.refl _ t)
    split
    · exact (t.goes_closeVol ..).lift (by decide)
    · exact Goes.refl _ t
  exact hclosed.step (t1.goes_complete ..) (by decide)

theorem State.goes_cacheMeta_tight (s : State) (ks : List Nat) : Goes (mask [] [.freeValues, .seals]) s (s.cacheMeta ks) :=
  (Goes.refl _ s).each _ _ fun _ t => (Goes.ite (Goes.refl _ t) (((Goes.refl _ t).drew (mask_part (by decide))).step (State.goes_dropMeta ..)
      (by decide))).step (State.goes_setSeal ..) (by decide)

theorem State.goes_touchMeta_tight (s : State) (l : Nat) (t : Touch) : Goes (mask (signals (counting [])) (signalled [.seals])) s (s.touchMeta l t) := by
  unfold State.touchMeta
  extract_lets _ _ _ _ s1 s2
  have hchosen : Goes (mask (signals (counting [])) (signalled [.seals])) s s1 :=
      Goes.ite ((s.goes_perf ..).lift (by decide)) ((s.goes_perf ..).lift (by decide))
  have hevictMeta : Goes (mask (signals (counting [])) (signalled [.seals])) s s2 := hchosen.step (s1.goes_evictMeta ..) (by decide)
  exact Goes.ite (hevictMeta.step (s2.goes_cacheMeta_tight ..) (by decide)) (hevictMeta.step (s2.goes_setSeal ..) (by decide))

theorem State.goes_sealFail_tight (s : State) (l : Nat) (group uncorr : Bool) :
    Goes (mask (signals (counting [.SEAL_LINE_CNT, .SEAL_LINE_ERR, .SEAL_LINE_ERRADDR])) (signalled [])) s (s.sealFail l group uncorr) := by
  unfold State.sealFail
  extract_lets _ _ s1 _ s2 s3
  have hline : Goes (mask (signals (counting [.SEAL_LINE_CNT, .SEAL_LINE_ERR, .SEAL_LINE_ERRADDR])) (signalled [])) s s1 :=
      (Goes.refl _ s).writeIf _ _ _ _ (by decide)
  have hchosen : Goes (mask (signals (counting [.SEAL_LINE_CNT, .SEAL_LINE_ERR, .SEAL_LINE_ERRADDR])) (signalled [])) s s2 :=
      Goes.ite (hline.write _ _ _ (by decide)) ((hline.write _ _ _ (by decide)).bump _ _ _ (mask_reg (by decide)))
  have hgroup : Goes (mask (signals (counting [.SEAL_LINE_CNT, .SEAL_LINE_ERR, .SEAL_LINE_ERRADDR])) (signalled [])) s s3 :=
      hchosen.writeIf _ _ _ _ (by decide)
  exact (hgroup.step (s3.goes_perf ..) (by decide)).when _ _ fun t => (Goes.refl _ t).raised _ (by decide)

theorem State.goes_stackUncorr_tight (s : State) (l : Nat) :
    Goes (mask (signals [.MEM_STK_ECNT, .MEM_STK_ERR, .MEM_STK_ERRADDR]) (signalled [])) s (s.stackUncorr l) := by
  unfold State.stackUncorr
  extract_lets _ s1
  have hline : Goes (mask (signals [.MEM_STK_ECNT, .MEM_STK_ERR, .MEM_STK_ERRADDR]) (signalled [])) s s1 :=
      (Goes.refl _ s).writeIf _ _ _ _ (by decide)
  exact ((hline.write _ _ _ (by decide)).bump _ _ _ (mask_reg (by decide))).raised _ (by decide)

theorem State.goes_stackCorr_tight (s : State) (l : Nat) : Goes (mask [.MEM_STK_ECNT, .MEM_STK_ERR] []) s (s.stackCorr l) :=
  ((Goes.refl _ s).write _ _ _ (by decide)).bump _ _ _ (mask_reg (by decide))

theorem State.goes_memRead_tight (s : State) (l : Nat) (t : Touch) (x : Option Xfer) : Goes (mask memRegs (signalled [.seals])) s (s.memRead l t x).1 := by
  unfold State.memRead
  extract_lets _ s1 _ s2 _ s3 s4 s5
  have hperf : Goes (mask memRegs (signalled [.seals])) s s1 := (s.goes_perf ..).lift (by decide)
  have htouchMeta : Goes (mask memRegs (signalled [.seals])) s s2 := hperf.when _ _ fun u => (u.goes_touchMeta_tight ..).lift (by decide)
  have hstackCorr : Goes (mask memRegs (signalled [.seals])) s s3 := htouchMeta.when _ _ fun u => (u.goes_stackCorr_tight ..).lift (by decide)
  have hsetSeal : Goes (mask memRegs (signalled [.seals])) s s4 :=
      (hstackCorr.step (s3.goes_stackUncorr_tight ..) (by decide)).step (State.goes_setSeal ..) (by decide)
  have hsetSeal2 : Goes (mask memRegs (signalled [.seals])) s s5 := hstackCorr.step (s3.goes_setSeal ..) (by decide)
  exact Goes.iteFst ((hstackCorr.when _ _ fun u => (u.goes_stackUncorr_tight ..).lift (by decide)).step (State.goes_sealFail_tight ..) (by decide))
      (Goes.iteFst (hsetSeal.when _ _ fun u => (u.goes_sealFail_tight ..).lift (by decide)) (Goes.iteFst (hsetSeal2.step (s5.goes_sealFail_tight ..)
      (by decide)) hstackCorr))

theorem State.goes_ioRead_tight (s : State) (who l : Nat) : Goes (mask memRegs (signalled [.seals])) s (s.ioRead who l).1 := by
  unfold State.ioRead
  extract_lets _ s1
  have hperf : Goes (mask memRegs (signalled [.seals])) s s1 := (s.goes_perf ..).lift (by decide)
  split
  · exact hperf
  · exact hperf.trans (s1.goes_memRead_tight ..)

theorem goes_readLines_tight (who : Nat) (l : List Nat) (s : State) : Goes (mask memRegs (signalled [.seals])) s (readLines who l s).1 := by
  induction l generalizing s with
  | nil => exact Goes.refl _ s
  | cons a l ih => exact (s.goes_ioRead_tight who a).trans (ih _)

theorem State.goes_readBytes_tight (s : State) (who a n : Nat) : Goes (mask memRegs (signalled [.seals])) s (s.readBytes who a n).1 :=
  goes_readLines_tight ..

theorem State.goes_snoop_tight (s : State) (kind : MsgKind) (l : Nat) (req : Option HomeReq) (discard : Bool) (agents : List Nat) :
    Goes (mask (signals (counting [])) (signalled [.crossings, .memo])) s (s.snoop kind l req discard agents) := by
  unfold State.snoop
  extract_lets s1
  have hperf : Goes (mask (signals (counting [])) (signalled [.crossings, .memo])) s s1 :=
      (Goes.refl _ s).each _ _ fun _ t => ((t.goes_post ..).lift (by decide)).step (State.goes_perf ..) (by decide)
  exact hperf.step (s1.goes_setDir ..) (by decide)

theorem State.goes_recall_tight (s : State) (l : Nat) (discard : Bool) :
    Goes (mask (signals (counting [.MEM_HOME_CNT])) (signalled [.crossings, .memo])) s (s.recall l discard) := by
  unfold State.recall
  extract_lets _ s1
  have hperf : Goes (mask (signals (counting [.MEM_HOME_CNT])) (signalled [.crossings, .memo])) s s1 :=
      (Goes.refl _ s).when _ _ fun t => ((Goes.refl _ t).bump _ _ _ (mask_reg (by decide))).step (State.goes_perf ..) (by decide)
  exact Goes.ite (hperf.step (s1.goes_setDir ..) (by decide)) (hperf.step (s1.goes_snoop_tight ..) (by decide))

/-- One block that a write takes from stacked memory. -/
def takeBlock (o : PendingOp) (t : State × Bool × List StoreBlock) (k : Nat) : State × Bool × List StoreBlock :=
  if !t.2.1 then t
  else
    let r := t.1.readBytes 38 ((o.args[3]?).getD 0 + 4096 * k) 4096
    if r.2.1 = 0 then (r.1, true, t.2.2 ++ [BitVec.ofNat 32768 (ofLe r.2.2)]) else (r.1, false, t.2.2)

theorem goes_takeBlock (o : PendingOp) (t : State × Bool × List StoreBlock) (k : Nat) :
    Goes (mask memRegs (signalled [.seals])) t.1 (takeBlock o t k).1 :=
  Goes.iteFst (Goes.refl _ _) (Goes.iteFst (t.1.goes_readBytes_tight ..) (t.1.goes_readBytes_tight ..))

theorem State.goes_opBlocks (s : State) (o : PendingOp) (n : Nat) (given : List StoreBlock) :
    Goes (mask memRegs (signalled [.seals])) s (s.opBlocks o n given).1 :=
  Goes.iteFst (Goes.foldlFst (List.range (n / 4096)) (takeBlock o) (fun t k => goes_takeBlock o t k) (Goes.refl _ s)) (Goes.refl _ s)


/-- A release of a lock frees it, or is recorded (R367). -/
theorem State.goes_unlock (s : State) (who i : Nat) : Goes (mask (signals [.PST_LOCK, .PST_LOCK_ERR]) (signalled [])) s (s.unlock who i) :=
  Goes.ite ((Goes.refl _ s).write _ _ _ (by decide))
    (((((Goes.refl _ s).when _ _ fun t => ((Goes.refl _ t).write _ _ _ (by decide)).write _ _ _ (by decide))).write _ _ _ (by decide)).raised _ (by decide))

end Sys2Proof.Machine
end

section
/-! PROOFS. Agents, the Postroom, channels, homes and the store as frames. -/

namespace Sys2Proof.Machine

-- One proof after another: side by side they need more memory than a check has.
set_option Elab.async false

/-! ### Serving a port's requests (R304) -/

theorem State.goes_evictLine (s : State) (a l : Nat) :
    Goes (mask (signals (counting [.CFG_AGT_STAT])) (signalled [.crossings, .memo])) s (s.evictLine a l) := by
  unfold State.evictLine
  extract_lets
  refine Goes.ite (Goes.refl _ s) ?_
  split
  · exact (((s.goes_setCached ..).lift (by decide)).step (State.goes_post ..) (by decide)).step (State.goes_perf ..) (by decide)
  · exact ((s.goes_setCached ..).lift (by decide)).step (State.goes_post ..) (by decide)
  · exact (s.goes_setCached ..).lift (by decide)

theorem State.goes_portStatus (s : State) (a p stack l status : Nat) : Goes (mask insertRegs insertParts) s (s.portStatus a p stack l status) := by
  unfold State.portStatus
  extract_lets
  split
  · exact Goes.refl _ s
  · refine Goes.ite (((s.goes_updChan ..).lift (by decide)).step (State.goes_inhibit ..) (by decide)) ?_
    refine Goes.ite ?_ ?_
    · dsimp only
      refine Goes.step (h := ?_) (State.goes_inhibit ..) (by decide)
      split
      · exact s.goes_markProduct ..
      · exact Goes.refl _ s
    · exact Goes.refl _ s

theorem State.goes_tryReq (s : State) (a : Nat) (r : PortReq) :
    Goes (mask (signals (counting [.CFG_AGT_STAT])) (signalled [.crossings, .memo])) s (s.tryReq a r).1 := by
  unfold State.tryReq
  extract_lets
  split
  · exact Goes.iteFst ((s.goes_perf ..).lift (by decide)) (Goes.iteFst (Goes.refl _ s) (((s.goes_perf ..).lift (by decide)).step (State.goes_post ..)
      (by decide)))
  · exact Goes.iteFst ((s.goes_perf ..).lift (by decide)) (Goes.iteFst (Goes.refl _ s) (((s.goes_perf ..).lift (by decide)).step (State.goes_post ..)
      (by decide)))
  · exact Goes.iteFst ((s.goes_setCached ..).lift (by decide)) (Goes.iteFst (Goes.refl _ s) ((s.goes_post ..).lift (by decide)))
  · exact Goes.iteFst ((s.goes_setCached ..).lift (by decide)) (Goes.iteFst (Goes.refl _ s) (((s.goes_setCached ..).lift (by decide)).step
      (State.goes_post ..) (by decide)))
  · exact Goes.iteFst ((s.goes_perf ..).lift (by decide)) (Goes.iteFst (Goes.refl _ s) (((s.goes_perf ..).lift (by decide)).step (State.goes_post ..)
      (by decide)))
  · exact Goes.iteFst (Goes.refl _ s) (Goes.iteFst (Goes.refl _ s) (Goes.iteFst (s.goes_evictLine ..) (s.goes_evictLine ..)))
  · exact Goes.refl _ s
  · exact Goes.refl _ s
  · exact Goes.refl _ s

theorem State.goes_tryStream (s : State) (a p : Nat) (r : PortReq) :
    Goes (mask (.LNK_CNT_LINK :: .LNK_ERR :: spaceRegs) (.crossings :: .memo :: deadlineParts)) s (s.tryStream a p r) :=
  Goes.ite (((s.goes_setSrt ..).lift (by decide)).step (State.goes_srtSpace ..) (by decide)) ((s.goes_laneUnit ..).lift (by decide))

theorem State.goes_setReq (s : State) (a p i : Nat) (r : PortReq) : Goes (mask agentRegs (signalled [.memo])) s (s.setReq a p i r) :=
  (s.goes_setPort ..).lift (by decide)

theorem State.goes_queueStream (s : State) (a p i : Nat) (r : PortReq) :
    Goes (mask agentRegs (signalled [.crossings, .memo])) s (s.queueStream a p i r) :=
  Goes.ite (Goes.refl _ s) (((s.goes_setReq ..).lift (by decide)).step (State.goes_setCrossing ..) (by decide))

theorem State.goes_serveReq (s : State) (a p i : Nat) :
    Goes (mask (.LNK_CNT_LINK :: .LNK_ERR :: spaceRegs) (.crossings :: .memo :: deadlineParts)) s (s.serveReq a p i) := by
  unfold State.serveReq
  extract_lets
  split
  · exact Goes.refl _ s
  · exact Goes.ite ((Goes.refl _ s).when _ _ fun t => (t.goes_setCrossing ..).lift (by decide)) (Goes.ite (Goes.ite (((Goes.refl _ s).when _ _ fun t
      => (t.goes_setCrossing ..).lift (by decide)).step (State.goes_setReq ..) (by decide)) ((Goes.refl _ s).when _ _ fun t =>
      (t.goes_setCrossing ..).lift (by decide))) (Goes.ite (Goes.ite (((Goes.refl _ s).when _ _ fun t => (t.goes_setCrossing ..).lift
      (by decide)).step (State.goes_queueStream ..) (by decide)) (Goes.ite ((((Goes.refl _ s).when _ _ fun t => (t.goes_setCrossing ..).lift
      (by decide)).step (State.goes_setReq ..) (by decide)).trans (State.goes_tryStream ..)) ((((Goes.refl _ s).when _ _ fun t =>
      (t.goes_setCrossing ..).lift (by decide)).trans (State.goes_tryStream ..)).step (State.goes_setReq ..) (by decide)))) ((((Goes.refl _
      s).when _ _ fun t => (t.goes_setCrossing ..).lift (by decide)).step (State.goes_tryReq ..) (by decide)).step (State.goes_setReq ..)
      (by decide))))

theorem State.goes_servePort (s : State) (a p : Nat) :
    Goes (mask (.LNK_CNT_LINK :: .LNK_ERR :: spaceRegs) (.crossings :: .memo :: deadlineParts)) s (s.servePort a p) := by
  unfold State.servePort
  extract_lets s1
  have hserveReq : Goes (mask (.LNK_CNT_LINK :: .LNK_ERR :: spaceRegs) (.crossings :: .memo :: deadlineParts)) s s1 :=
      (Goes.refl _ s).each _ _ fun _ t => t.goes_serveReq ..
  exact hserveReq.step (s1.goes_releaseReplies ..) (by decide)

theorem State.goes_serveAgent (s : State) (a : Nat) :
    Goes (mask (.LNK_CNT_LINK :: .LNK_ERR :: spaceRegs) (.crossings :: .memo :: deadlineParts)) s (s.serveAgent a) :=
  (Goes.refl _ s).each _ _ fun _ t => t.goes_servePort ..

theorem State.goes_takeReq (s : State) (a p : Nat) (r : PortReq) :
    Goes (mask (.LNK_CNT_LINK :: .LNK_ERR :: spaceRegs) (.crossings :: .memo :: deadlineParts)) s (s.takeReq a p r) := by
  unfold State.takeReq
  extract_lets s1
  have hperf : Goes (mask (.LNK_CNT_LINK :: .LNK_ERR :: spaceRegs) (.crossings :: .memo :: deadlineParts)) s s1 := (s.goes_perf ..).lift (by decide)
  exact Goes.ite ((Goes.refl _ s).when _ _ fun t => (t.goes_partBundle ..).lift (by decide)) ((hperf.step (s1.goes_setPort ..) (by decide)).trans
      (State.goes_serveAgent ..))

theorem State.goes_agentRequest (s : State) (a p : Nat) (header : WordToken) (low high : HalfLine) :
    Goes (mask (.LNK_CNT_LINK :: .LNK_ERR :: spaceRegs) (.crossings :: .memo :: deadlineParts)) s (s.agentRequest a p header low high) := by
  unfold State.agentRequest
  extract_lets
  split
  · exact s.goes_takeReq ..
  · exact s.goes_takeReq ..
  · exact s.goes_takeReq ..
  · exact Goes.ite (s.goes_takeReq ..) (s.goes_takeReq ..)

theorem execAgentRead_frame (a p : Fin 16) (header : WordToken) (s : State) :
    ∃ t, execAgentRead a p header s = .next t ∧ Goes (mask (.LNK_CNT_LINK :: .LNK_ERR :: spaceRegs) (.crossings :: .memo :: deadlineParts)) s t :=
  ⟨_, rfl, s.goes_agentRequest ..⟩

theorem execAgentReadOwn_frame (a p : Fin 16) (header : WordToken) (s : State) :
    ∃ t, execAgentReadOwn a p header s = .next t ∧ Goes (mask (.LNK_CNT_LINK :: .LNK_ERR :: spaceRegs) (.crossings :: .memo :: deadlineParts)) s t :=
  ⟨_, rfl, s.goes_agentRequest ..⟩

theorem execAgentWrite_frame (a p : Fin 16) (header : WordToken) (low high : HalfLine) (s : State) :
    ∃ t, execAgentWrite a p header low high s = .next t ∧ Goes (mask (.LNK_CNT_LINK :: .LNK_ERR :: spaceRegs) (.crossings :: .memo :: deadlineParts))
      s t :=
  ⟨_, rfl, s.goes_agentRequest ..⟩

theorem execAgentWriteNa_frame (a p : Fin 16) (header : WordToken) (low high : HalfLine) (s : State) :
    ∃ t, execAgentWriteNa a p header low high s = .next t ∧ Goes (mask (.LNK_CNT_LINK :: .LNK_ERR :: spaceRegs) (.crossings :: .memo ::
      deadlineParts)) s t :=
  ⟨_, rfl, s.goes_agentRequest ..⟩

theorem execAgentReadNa_frame (a p : Fin 16) (header : WordToken) (s : State) :
    ∃ t, execAgentReadNa a p header s = .next t ∧ Goes (mask (.LNK_CNT_LINK :: .LNK_ERR :: spaceRegs) (.crossings :: .memo :: deadlineParts)) s t :=
  ⟨_, rfl, s.goes_agentRequest ..⟩

theorem execAgentFlush_frame (a p : Fin 16) (header : WordToken) (s : State) :
    ∃ t, execAgentFlush a p header s = .next t ∧ Goes (mask (.LNK_CNT_LINK :: .LNK_ERR :: spaceRegs) (.crossings :: .memo :: deadlineParts)) s t :=
  ⟨_, rfl, s.goes_agentRequest ..⟩

theorem execAgentStream_frame (a p : Fin 16) (header : WordToken) (low high : HalfLine) (s : State) :
    ∃ t, execAgentStream a p header low high s = .next t ∧ Goes (mask (.LNK_CNT_LINK :: .LNK_ERR :: spaceRegs) (.crossings :: .memo ::
      deadlineParts)) s t :=
  ⟨_, rfl, s.goes_agentRequest ..⟩

theorem execAgentFence_frame (a p : Fin 16) (header : WordToken) (s : State) :
    ∃ t, execAgentFence a p header s = .next t ∧ Goes (mask (.LNK_CNT_LINK :: .LNK_ERR :: spaceRegs) (.crossings :: .memo :: deadlineParts)) s t :=
  ⟨_, rfl, s.goes_agentRequest ..⟩

theorem execAgentReservedOp_frame (a p : Fin 16) (header : WordToken) (s : State) :
    ∃ t, execAgentReservedOp a p header s = .next t ∧ Goes (mask (.LNK_CNT_LINK :: .LNK_ERR :: spaceRegs) (.crossings :: .memo :: deadlineParts)) s t
      :=
  ⟨_, rfl, s.goes_agentRequest ..⟩

/-! ### Snoops (R302, R305) -/

theorem State.goes_coreWrote (s : State) (a l : Nat) (wrote : Option (BitVec 512)) : Goes (mask [.CFG_AGT_STAT] [.memo]) s (s.coreWrote a l wrote) := by
  unfold State.coreWrote
  split
  · exact Goes.ite ((s.goes_setCached ..).lift (by decide)) (Goes.refl _ s)
  · exact Goes.refl _ s

theorem State.goes_snooped (s : State) (kind : MsgKind) (a l : Nat) (wrote : Option (BitVec 512)) (keep : Nat → Nat) :
    Goes (mask [.CFG_AGT_STAT] [.crossings, .memo]) s (s.snooped kind a l wrote keep) := by
  unfold State.snooped
  split
  · exact Goes.refl _ s
  · exact Goes.ite ((((s.goes_unpost ..).lift (by decide)).step (State.goes_coreWrote ..) (by decide)).step (State.goes_post ..) (by decide))
      (Goes.ite ((((s.goes_unpost ..).lift (by decide)).step (State.goes_coreWrote ..) (by decide)).step (State.goes_post ..) (by decide)) (Goes.ite
      (((((s.goes_unpost ..).lift (by decide)).step (State.goes_coreWrote ..) (by decide)).step (State.goes_setCached ..) (by decide)).step
      (State.goes_post ..) (by decide)) (((((s.goes_unpost ..).lift (by decide)).step (State.goes_coreWrote ..) (by decide)).step
      (State.goes_setCached ..) (by decide)).step (State.goes_post ..) (by decide))))

theorem execAgentSnpInv_frame (l : BitVec 32) (a : Fin 20) (wrote : Option (BitVec 512)) (s : State) :
    ∃ t, execAgentSnpInv l a wrote s = .next t ∧ Goes (mask [.CFG_AGT_STAT] [.crossings, .memo]) s t :=
  ⟨_, rfl, s.goes_snooped ..⟩

theorem execAgentSnpShare_frame (l : BitVec 32) (a : Fin 20) (wrote : Option (BitVec 512)) (s : State) :
    ∃ t, execAgentSnpShare l a wrote s = .next t ∧ Goes (mask [.CFG_AGT_STAT] [.crossings, .memo]) s t :=
  ⟨_, rfl, s.goes_snooped ..⟩

theorem execAgentSnpCur_frame (l : BitVec 32) (a : Fin 20) (wrote : Option (BitVec 512)) (s : State) :
    ∃ t, execAgentSnpCur l a wrote s = .next t ∧ Goes (mask [.CFG_AGT_STAT] [.crossings, .memo]) s t :=
  ⟨_, rfl, s.goes_snooped ..⟩

/-! ### Grants and completions -/

theorem State.goes_landed (s : State) (a l : Nat) (ops : AgentOp → Bool) (again : Bool) (status data : Nat) :
    Goes (mask (.LNK_CNT_LINK :: .LNK_ERR :: spaceRegs) (.crossings :: .memo :: deadlineParts)) s (s.landed a l ops again status data) := by
  unfold State.landed
  extract_lets _ s1
  have hs : Goes (mask (.LNK_CNT_LINK :: .LNK_ERR :: spaceRegs) (.crossings :: .memo :: deadlineParts)) s s1 :=
      (Goes.refl _ s).each _ _ fun _ t => (Goes.ite ((t.goes_portStatus ..).lift (by decide)) (Goes.refl _ t)).step (State.goes_setPort ..)
        (by decide)
  exact Goes.ite (Goes.refl _ s) (hs.trans (s1.goes_serveAgent ..))

theorem State.goes_evictFrom (s : State) (a l : Nat) :
    Goes (mask (signals (counting [.CFG_AGT_STAT])) (signalled [.crossings, .memo])) s (s.evictFrom a l) :=
  Goes.ite (s.goes_evictLine ..) ((Goes.refl _ s).each _ _ fun _ t => Goes.ite (Goes.refl _ t) (t.goes_evictLine ..))

theorem State.goes_makeRoom (s : State) (a l : Nat) (victim : Option (BitVec 32)) :
    Goes (mask (signals (counting [.CFG_AGT_STAT])) (signalled [.crossings, .memo])) s (s.makeRoom a l victim) := by
  unfold State.makeRoom
  extract_lets
  split
  · exact Goes.ite (Goes.refl _ s) (Goes.ite (s.goes_evictFrom ..) (((Goes.refl _ s).drew (mask_part (by decide))).trans (State.goes_evictFrom ..)))
  · exact Goes.ite (Goes.refl _ s) (((Goes.refl _ s).drew (mask_part (by decide))).trans (State.goes_evictFrom ..))

theorem State.goes_install (s : State) (a l st data : Nat) (victim : Option (BitVec 32)) :
    Goes (mask (.LNK_CNT_LINK :: .LNK_ERR :: spaceRegs) (.crossings :: .memo :: deadlineParts)) s (s.install a l st data victim) := by
  unfold State.install
  extract_lets s1
  have hmakeRoom : Goes (mask (.LNK_CNT_LINK :: .LNK_ERR :: spaceRegs) (.crossings :: .memo :: deadlineParts)) s s1 :=
      (((s.goes_setCached ..).lift (by decide)).step (State.goes_post ..) (by decide)).step (State.goes_makeRoom ..) (by decide)
  exact hmakeRoom.trans (s1.goes_landed ..)

theorem State.goes_failed (s : State) (a l status : Nat) :
    Goes (mask (.LNK_CNT_LINK :: .LNK_ERR :: spaceRegs) (.crossings :: .memo :: deadlineParts)) s (s.failed a l status) :=
  s.goes_landed ..

theorem execAgentDataS_frame (l : BitVec 32) (a : Fin 20) (victim : Option (BitVec 32)) (s : State) :
    ∃ t, execAgentDataS l a victim s = .next t ∧ Goes (mask (.LNK_CNT_LINK :: .LNK_ERR :: spaceRegs) (.crossings :: .memo :: deadlineParts)) s t := by
  refine ⟨_, rfl, ?_⟩
  split
  · exact Goes.refl _ s
  · exact Goes.ite (((s.goes_unpost ..).lift (by decide)).trans (State.goes_install ..)) (((s.goes_unpost ..).lift (by decide)).trans
      (State.goes_failed ..))

theorem execAgentDataE_frame (l : BitVec 32) (a : Fin 20) (victim : Option (BitVec 32)) (s : State) :
    ∃ t, execAgentDataE l a victim s = .next t ∧ Goes (mask (.LNK_CNT_LINK :: .LNK_ERR :: spaceRegs) (.crossings :: .memo :: deadlineParts)) s t := by
  refine ⟨_, rfl, ?_⟩
  split
  · exact Goes.refl _ s
  · exact Goes.ite (((s.goes_unpost ..).lift (by decide)).trans (State.goes_install ..)) (((s.goes_unpost ..).lift (by decide)).trans
      (State.goes_failed ..))

theorem execAgentCmp_frame (l : BitVec 32) (who : Fin 39) (s : State) :
    ∃ t, execAgentCmp l who s = .next t ∧ Goes (mask (.LNK_CNT_LINK :: .LNK_ERR :: spaceRegs) (.crossings :: .memo :: deadlineParts)) s t := by
  refine ⟨_, rfl, ?_⟩
  extract_lets
  split
  · exact Goes.refl _ s
  · exact Goes.ite (((s.goes_unpost ..).lift (by decide)).trans (State.goes_install ..)) (((s.goes_unpost ..).lift (by decide)).trans
      (State.goes_landed ..))

theorem execAgentWbAck_frame (l : BitVec 32) (a : Fin 20) (s : State) :
    ∃ t, execAgentWbAck l a s = .next t ∧ Goes (mask (.LNK_CNT_LINK :: .LNK_ERR :: spaceRegs) (.crossings :: .memo :: deadlineParts)) s t := by
  refine ⟨_, rfl, ?_⟩
  extract_lets
  split
  · exact Goes.refl _ s
  · exact (Goes.ite (((s.goes_unpost ..).lift (by decide)).step (State.goes_setCached ..) (by decide)) ((s.goes_unpost ..).lift (by decide))).trans
      (State.goes_landed ..)

/-! ### Resets of a stack's domain (R95, R96, R313) -/

theorem State.goes_poisonPorts (s : State) (k cause : Nat) (p : Nat → PortReq → Bool) :
    Goes (mask (.DEV_XDROP :: spaceRegs) spaceParts) s (s.poisonPorts k cause p) := by
  unfold State.poisonPorts
  extract_lets _ _ s1
  have hs : Goes (mask (.DEV_XDROP :: spaceRegs) spaceParts) s s1 :=
      (Goes.refl _ s).each _ _ fun _ t => Goes.ite (((t.goes_setPort ..).lift (by decide)).step (State.goes_portStatus ..) (by decide)) (Goes.refl _
        t)
  exact hs.step (s1.goes_countDrops ..) (by decide)

theorem State.goes_poisonStreams (s : State) (k cause : Nat) :
    Goes (mask (.DEV_XDROP :: .LNK_CNT_LINK :: .LNK_ERR :: spaceRegs) (.crossings :: .memo :: deadlineParts)) s (s.poisonStreams k cause) := by
  unfold State.poisonStreams
  extract_lets _ _ _ s1
  have hs : Goes (mask (.DEV_XDROP :: .LNK_CNT_LINK :: .LNK_ERR :: spaceRegs) (.crossings :: .memo :: deadlineParts)) s s1 :=
      (Goes.refl _ s).each _ _ fun _ t => (Goes.refl _ t).when _ _ fun u => (u.goes_setPort ..).lift (by decide)
  exact (hs.step (s1.goes_countDrops ..) (by decide)).each _ _ fun _ t => (t.goes_serveAgent ..).lift (by decide)

theorem State.goes_msgLost (s : State) (m : Msg) : Goes (mask homeRegs homeParts) s (s.msgLost m) := by
  unfold State.msgLost
  extract_lets
  split
  · exact s.goes_answer ..
  · exact s.goes_answer ..
  · exact s.goes_answer ..
  · exact s.goes_answer ..
  · exact s.goes_answer ..
  · exact s.goes_answer ..
  · exact s.goes_answer ..
  · exact Goes.ite (((s.goes_setDir ..).lift (by decide)).trans (State.goes_serveNext ..)) (Goes.refl _ s)
  · exact Goes.ite (((s.goes_setDir ..).lift (by decide)).trans (State.goes_serveNext ..)) (Goes.refl _ s)
  · exact Goes.ite (((s.goes_setDir ..).lift (by decide)).trans (State.goes_serveNext ..)) (Goes.refl _ s)
  · exact Goes.ite (((s.goes_setDir ..).lift (by decide)).trans (State.goes_serveNext ..)) (Goes.refl _ s)
  · exact (s.goes_setCached ..).lift (by decide)
  · exact (s.goes_setCached ..).lift (by decide)
  · exact Goes.ite ((s.goes_setCached ..).lift (by decide)) (Goes.refl _ s)
  · exact Goes.refl _ s

theorem State.goes_resetHome (s : State) (k cause : Nat) :
    Goes (mask (.CFG_ISO_CNT :: .DEV_XDROP :: homeRegs ++ pumpRegs) (.crossings :: .memo :: .seals :: deadlineParts)) s (s.resetHome k cause) := by
  unfold State.resetHome
  extract_lets _ _ _ _ s1 s2 s3 s4 s5
  have hpoisonPorts : Goes (mask (.CFG_ISO_CNT :: .DEV_XDROP :: homeRegs ++ pumpRegs) (.crossings :: .memo :: .seals :: deadlineParts)) s s1 :=
      (s.goes_poisonPorts ..).lift (by decide)
  have hrelease : Goes (mask (.CFG_ISO_CNT :: .DEV_XDROP :: homeRegs ++ pumpRegs) (.crossings :: .memo :: .seals :: deadlineParts)) s s2 :=
      hpoisonPorts.step (s1.goes_release ..) (by decide)
  have hsetMem : Goes (mask (.CFG_ISO_CNT :: .DEV_XDROP :: homeRegs ++ pumpRegs) (.crossings :: .memo :: .seals :: deadlineParts)) s s3 :=
      hrelease.step (s2.goes_setMem ..) (by decide)
  have hsetMem2 : Goes (mask (.CFG_ISO_CNT :: .DEV_XDROP :: homeRegs ++ pumpRegs) (.crossings :: .memo :: .seals :: deadlineParts)) s s4 :=
      hsetMem.step (s3.goes_setMem ..) (by decide)
  have hchosen : Goes (mask (.CFG_ISO_CNT :: .DEV_XDROP :: homeRegs ++ pumpRegs) (.crossings :: .memo :: .seals :: deadlineParts)) s s5 :=
      Goes.ite (hsetMem2.each _ _ fun _ t => (Goes.refl _ t).each _ _ fun _ u => (u.goes_setCached ..).lift (by decide)) (hsetMem.each _ _ fun _ t =>
        (t.goes_msgLost ..).lift (by decide))
  exact (hchosen.step (s5.goes_showHome ..) (by decide)).each _ _ fun _ t => (t.goes_serveAgent ..).lift (by decide)

theorem State.goes_resyncHome (s : State) (k : Nat) : Goes (mask [.MEM_STK_STAT] []) s (s.resyncHome k) :=
  ((Goes.refl _ s).write _ _ _ (by decide)).write _ _ _ (by decide)

/-! ### Taking letters -/

theorem State.goes_doorbell (s : State) (m : Fin 64) (tail : Nat) :
    Goes (mask (signals (counting [.PST_MB_REQ])) (signalled [])) s (s.doorbell m tail) := by
  unfold State.doorbell
  extract_lets s1
  have htail : Goes (mask (signals (counting [.PST_MB_REQ])) (signalled [])) s s1 := (Goes.refl _ s).write _ _ _ (by decide)
  exact Goes.ite (((Goes.refl _ s).write _ _ _ (by decide)).raisedOf _ _ _ (by decide)) (Goes.ite (htail.step (s1.goes_take ..) (by decide))
      (htail.step (s1.goes_setBox ..) (by decide)))

theorem execMailboxDoorbell_frame (p : Port) (m : Fin 64) (value : Word) (s : State) :
    ∃ t, execMailboxDoorbell p m value s = .next t ∧ Goes (mask (signals (counting (errors [.PST_MB_REQ]))) (signalled [.crossings, .waiting])) s t :=
  ⟨_, rfl, Goes.access (fun t => (t.goes_doorbell ..).lift (by decide)) s _ _ _ _ _ (by decide)⟩

theorem State.goes_replyHead (s : State) (m : Fin 64) (head : Nat) : Goes (mask (.PST_MB_REQ :: insertRegs) insertParts) s (s.replyHead m head) := by
  unfold State.replyHead
  extract_lets s1
  have hpumpLate : Goes (mask (.PST_MB_REQ :: insertRegs) insertParts) s s1 :=
      ((Goes.refl _ s).write _ _ _ (by decide)).step (State.goes_pumpLate ..) (by decide)
  exact Goes.ite (((Goes.refl _ s).write _ _ _ (by decide)).raisedOf _ _ _ (by decide)) (Goes.ite (hpumpLate.step (s1.goes_take ..) (by decide))
      hpumpLate)

theorem execReplyHeadWrite_frame (p : Port) (m : Fin 64) (value : Word) (s : State) :
    ∃ t, execReplyHeadWrite p m value s = .next t ∧ Goes (mask (.DEV_ACCESS_ADDR :: .DEV_ACCESS_ERR :: .PST_MB_REQ :: insertRegs) (.crossings ::
      .waiting :: insertParts)) s t :=
  ⟨_, rfl, Goes.access (fun t => (t.goes_replyHead ..).lift (by decide)) s _ _ _ _ _ (by decide)⟩

theorem State.goes_signalHost (s : State) (m : Nat) : Goes (mask [] [.outputs]) s (s.signalHost m) :=
  (Goes.refl _ s).emit _ (mask_part (by decide))

theorem execMailboxSignal_frame (m : Fin 64) (s : State) :
    ∃ t, execMailboxSignal m s = .next t ∧ Goes (mask [.PST_MB_EVT, .PST_MB_RPL, .PST_MB_STAT] [.boxMem, .boxes, .outputs, .pulses]) s t :=
  ⟨_, rfl, Goes.ite (Goes.refl _ s) (Goes.ite (((s.goes_setBox ..).lift (by decide)).pulseVia _ _ _ (fun t => (t.goes_signalHost ..).lift
      (by decide)) (mask_part (by decide))) (Goes.ite (((s.goes_setBox ..).lift (by decide)).emit _ (mask_part (by decide))) (Goes.refl _ s)))⟩

/-! ### Resets of mailboxes and locks -/

theorem execMailboxReset_frame (m : Fin 64) (ownerEvent : Bool) (s : State) :
    ∃ t, execMailboxReset m ownerEvent s = .next t ∧ Goes (mask ownerRegs ownerParts) s t :=
  ⟨_, rfl, (s.goes_resetBox ..).when _ _ fun t => t.goes_abandonLocks ..⟩

theorem State.goes_serveRung (s : State) : Goes (mask (.PST_MB_REQ :: insertRegs) insertParts) s s.serveRung :=
  ((Goes.refl _ s).each _ _ fun _ t => (Goes.refl _ t).write _ _ _ (by decide)).each _ _ fun _ t => (((t.goes_pumpLate ..).lift (by decide)).when _ _
      fun u => (u.goes_setBox ..).lift (by decide)).step (State.goes_take ..) (by decide)

theorem State.goes_forgetRequests (s : State) : Goes (mask (signals (counting [])) (signalled [.lease, .links, .rings])) s s.forgetRequests := by
  unfold State.forgetRequests
  extract_lets s1
  have hsetLease : Goes (mask (signals (counting [])) (signalled [.lease, .links, .rings])) s s1 := (s.goes_setLease ..).lift (by decide)
  exact hsetLease.each _ _ fun _ t => ((t.goes_setRing_rings ..).lift (by decide)).when _ _ fun u => ((u.goes_setRing_rings ..).lift
      (by decide)).step (State.goes_ringSend ..) (by decide)

theorem execPostroomRestart_frame (outcomes : List (Letter × Reply)) (s : State) :
    ∃ t, execPostroomRestart outcomes s = .next t ∧ Goes (mask (.PST_FW_STAT :: .PST_LOCK :: .PST_MB_REQ :: insertRegs) joinParts) s t := by
  refine ⟨_, rfl, ?_⟩
  extract_lets _ s1 s2
  have hforgetRequests : Goes (mask (.PST_FW_STAT :: .PST_LOCK :: .PST_MB_REQ :: insertRegs) joinParts) s s1 :=
      ((Goes.refl _ s).write _ _ _ (by decide)).step (State.goes_forgetRequests _) (by decide)
  have hreply : Goes (mask (.PST_FW_STAT :: .PST_LOCK :: .PST_MB_REQ :: insertRegs) joinParts) s s2 :=
      hforgetRequests.each _ _ fun _ t => (Goes.refl _ t).each _ _ fun _ u => (u.goes_reply ..).lift (by decide)
  exact Goes.ite (Goes.refl _ s) (((hreply.step (s2.goes_abandonLocks ..) (by decide)).step (State.goes_serveRung _) (by decide)).raised _
      (by decide))

/-! ### Locks -/

theorem execLockAcquire_frame (p : Port) (i : Fin 256) (s : State) :
    ∃ t, execLockAcquire p i s = .next t ∧ Goes (mask (signals (errors [.PST_LOCK])) (signalled [.crossings, .waiting])) s t :=
  ⟨_, rfl, Goes.access (fun t => ((t.goes_acquire ..).lift (by decide)).emit _ (mask_part (by decide))) s _ _ _ _ _ (by decide)⟩

theorem execLockRelease_frame (p : Port) (i : Fin 256) (value : Word) (s : State) :
    ∃ t, execLockRelease p i value s = .next t ∧ Goes (mask (signals (errors [.PST_LOCK, .PST_LOCK_ERR])) (signalled [.crossings, .waiting])) s t :=
  ⟨_, rfl, Goes.access (fun t => Goes.ite ((t.goes_unlock ..).lift (by decide)) (Goes.refl _ t)) s _ _ _ _ _ (by decide)⟩

theorem goes_svcMailboxAssign (L : Letter) (b : List Byte) (s : State) :
    Goes (mask (.PST_FW_STAT :: .PST_MB_OWNER :: counting ownerRegs) ownerParts) s (svcMailboxAssign L b s).1 := by
  unfold svcMailboxAssign
  refine Goes.iteFst (Goes.refl _ s) ?_
  split
  · exact (((State.goes_resetBox s _).lift (by decide)).write _ _ _ (by decide)).write _ _ _ (by decide)
  · exact Goes.refl _ s

theorem execDeviceMailboxAssign_frame (L : Letter) (s : State) :
    ∃ t, execDeviceMailboxAssign L s = .next t ∧ Goes (mask (.PST_FW_STAT :: .PST_MB_OWNER :: counting ownerRegs) ownerParts) s t :=
  ⟨_, rfl, Goes.serve (fun b t => goes_svcMailboxAssign L b t) s _ _ _ (by decide)⟩

/-! ### Requests -/

theorem execHomeRdShared_frame (l : BitVec 32) (r : HomeReq) (same : List HomeReq) (s : State) :
    ∃ t, execHomeRdShared l r same s = .next t ∧ Goes (mask homeRegs homeParts) s t :=
  ⟨_, rfl, s.goes_request ..⟩

theorem execHomeRdOwn_frame (l : BitVec 32) (r : HomeReq) (same : List HomeReq) (s : State) :
    ∃ t, execHomeRdOwn l r same s = .next t ∧ Goes (mask homeRegs homeParts) s t :=
  ⟨_, rfl, s.goes_request ..⟩

theorem execHomeRdCur_frame (l : BitVec 32) (r : HomeReq) (same : List HomeReq) (s : State) :
    ∃ t, execHomeRdCur l r same s = .next t ∧ Goes (mask homeRegs homeParts) s t :=
  ⟨_, rfl, s.goes_request ..⟩

theorem execHomeWrPtl_frame (l : BitVec 32) (r : HomeReq) (same : List HomeReq) (s : State) :
    ∃ t, execHomeWrPtl l r same s = .next t ∧ Goes (mask homeRegs homeParts) s t :=
  ⟨_, rfl, s.goes_request ..⟩

theorem execHomeEvictClean_frame (l : BitVec 32) (who : Fin 20) (s : State) :
    ∃ t, execHomeEvictClean l who s = .next t ∧ Goes (mask homeRegs homeParts) s t := by
  refine ⟨_, rfl, ?_⟩
  extract_lets _ _ s1
  have hchosen : Goes (mask homeRegs homeParts) s s1 := Goes.ite (Goes.refl _ s) ((s.goes_setCached ..).lift (by decide))
  split
  · exact Goes.ite (Goes.refl _ s) ((((s.goes_unpost ..).lift (by decide)).trans (State.goes_giveUp ..)).trans (State.goes_serveNext ..))
  · exact Goes.ite (Goes.refl _ s) (Goes.ite (hchosen.step (s1.goes_post ..) (by decide)) ((hchosen.trans (s1.goes_giveUp ..)).trans
      (State.goes_serveNext ..)))

/-! ### Answers -/

theorem State.goes_snoopAnswer (s : State) (kind : MsgKind) (l who : Nat) (pending : Bool) :
    Goes (mask homeRegs homeParts) s (s.snoopAnswer kind l who pending) := by
  unfold State.snoopAnswer
  split
  · exact Goes.refl _ s
  · exact Goes.ite (Goes.refl _ s) ((((s.goes_unpost ..).lift (by decide)).trans (State.goes_answer ..)).step (State.goes_showHome ..) (by decide))

theorem execHomeRspI_frame (l : BitVec 32) (who : Fin 20) (s : State) : ∃ t, execHomeRspI l who s = .next t ∧ Goes (mask homeRegs homeParts) s t :=
  ⟨_, rfl, s.goes_snoopAnswer ..⟩

theorem execHomeRspS_frame (l : BitVec 32) (who : Fin 20) (s : State) : ∃ t, execHomeRspS l who s = .next t ∧ Goes (mask homeRegs homeParts) s t :=
  ⟨_, rfl, s.goes_snoopAnswer ..⟩

theorem execHomeRspData_frame (l : BitVec 32) (who : Fin 20) (s : State) :
    ∃ t, execHomeRspData l who s = .next t ∧ Goes (mask homeRegs homeParts) s t :=
  ⟨_, rfl, s.goes_snoopAnswer ..⟩

theorem execHomeRspWbPending_frame (l : BitVec 32) (who : Fin 20) (s : State) :
    ∃ t, execHomeRspWbPending l who s = .next t ∧ Goes (mask homeRegs homeParts) s t :=
  ⟨_, rfl, s.goes_snoopAnswer ..⟩

theorem execHomeCmpAck_frame (l : BitVec 32) (who : Fin 20) (s : State) :
    ∃ t, execHomeCmpAck l who s = .next t ∧ Goes (mask homeRegs homeParts) s t := by
  refine ⟨_, rfl, ?_⟩
  extract_lets
  split
  · exact Goes.refl _ s
  · refine Goes.ite (Goes.refl _ s) ?_
    dsimp only
    split
    · exact Goes.ite ((((s.goes_unpost ..).lift (by decide)).step (State.goes_setDir ..) (by decide)).trans (State.goes_serveNext ..))
        ((s.goes_unpost ..).lift (by decide))
    · exact (s.goes_unpost ..).lift (by decide)

/-! ### The stacks -/

theorem execPatrolRead_frame (l : BitVec 32) (ecc : Ecc) (s : State) :
    ∃ t, execPatrolRead l ecc s = .next t ∧ Goes (mask memRegs (signalled [.seals])) s t := by
  refine ⟨_, rfl, ?_⟩
  extract_lets _ _ s1
  have hsetSeal : Goes (mask memRegs (signalled [.seals])) s s1 :=
      ((s.goes_stackUncorr_tight ..).lift (by decide)).step (State.goes_setSeal ..) (by decide)
  refine Goes.ite (Goes.refl _ s) ?_
  split
  · exact Goes.refl _ s
  · exact (s.goes_stackCorr_tight ..).lift (by decide)
  · exact hsetSeal.when _ _ fun t => (t.goes_sealFail_tight ..).lift (by decide)

theorem execStackTempSample_frame (k : Fin 4) (temp : BitVec 8) (s : State) :
    ∃ t, execStackTempSample k temp s = .next t ∧ Goes (mask (signals [.MEM_STK_ERR, .MEM_STK_STAT]) (signalled [])) s t := by
  refine ⟨_, rfl, ?_⟩
  extract_lets s1
  have htemp : Goes (mask (signals [.MEM_STK_ERR, .MEM_STK_STAT]) (signalled [])) s s1 := (Goes.refl _ s).write _ _ _ (by decide)
  exact Goes.ite ((htemp.write _ _ _ (by decide)).when _ _ fun t => (Goes.refl _ t).raised _ (by decide)) htemp

theorem execStackFillDone_frame (k : Fin 4) (s : State) :
    ∃ t, execStackFillDone k s = .next t ∧ Goes (mask (.MEM_STK_STAT :: homeRegs) (.resets :: homeParts)) s t := by
  refine ⟨_, rfl, ?_⟩
  extract_lets s1
  have hserveStack : Goes (mask (.MEM_STK_STAT :: homeRegs) (.resets :: homeParts)) s s1 :=
      (((Goes.refl _ s).write _ _ _ (by decide)).raised _ (by decide)).step (State.goes_serveStack ..) (by decide)
  exact Goes.ite (Goes.refl _ s) (Goes.ite (hserveStack.set_resets _ (mask_part (by decide))) hserveStack)

theorem State.goes_resyncAgent (s : State) (k a : Nat) : Goes (mask [.CFG_AGT_STAT] [.crossings, .memo]) s (s.resyncAgent k a) := by
  unfold State.resyncAgent
  extract_lets s1
  have hs : Goes (mask [.CFG_AGT_STAT] [.crossings, .memo]) s s1 :=
      (Goes.refl _ s).each _ _ fun _ t => Goes.ite (((t.goes_setCached ..).lift (by decide)).step (State.goes_post ..) (by decide))
        ((t.goes_setCached ..).lift (by decide))
  exact hs.step (s1.goes_setMem ..) (by decide)

theorem execStackResyncRequest_frame (k : Fin 4) (a : Fin 20) (s : State) :
    ∃ t, execStackResyncRequest k a s = .next t ∧ Goes (mask [.CFG_AGT_STAT] [.crossings, .memo]) s t :=
  ⟨_, rfl, Goes.ite (s.goes_resyncAgent ..) (Goes.refl _ s)⟩

theorem execStackResyncDone_frame (k : Fin 4) (s : State) :
    ∃ t, execStackResyncDone k s = .next t ∧ Goes (mask (.MEM_STK_STAT :: homeRegs) homeParts) s t := by
  refine ⟨_, rfl, ?_⟩
  extract_lets _ _ _ s1 s2 s3 _ _ s4
  have hsetMem : Goes (mask (.MEM_STK_STAT :: homeRegs) homeParts) s s1 :=
      ((s.goes_dropMsgs ..).lift (by decide)).step (State.goes_setMem ..) (by decide)
  have hpost : Goes (mask (.MEM_STK_STAT :: homeRegs) homeParts) s s2 :=
      hsetMem.each _ _ fun _ t => ((t.goes_memWrite ..).lift (by decide)).step (State.goes_post ..) (by decide)
  have hsetCached : Goes (mask (.MEM_STK_STAT :: homeRegs) homeParts) s s3 :=
      hpost.each _ _ fun _ t => (Goes.refl _ t).each _ _ fun _ u => (u.goes_setCached ..).lift (by decide)
  have hsetDir : Goes (mask (.MEM_STK_STAT :: homeRegs) homeParts) s s4 := hsetCached.each _ _ fun _ t => (t.goes_setDir ..).lift (by decide)
  exact Goes.ite (Goes.refl _ s) (((hsetDir.write _ _ _ (by decide)).raised _ (by decide)).step (State.goes_serveStack ..) (by decide))

theorem execMemStkEcntRead_frame (p : Port) (k : Fin 4) (s : State) :
    ∃ t, execMemStkEcntRead p k s = .next t ∧ Goes (mask (signals (errors [.MEM_STK_ECNT])) (signalled [.crossings, .waiting])) s t :=
  ⟨_, rfl, Goes.access (fun t => (t.goes_readClear ..).lift (by decide)) s _ _ _ _ _ (by decide)⟩

theorem execMemHomeCntRead_frame (p : Port) (k : Fin 4) (s : State) :
    ∃ t, execMemHomeCntRead p k s = .next t ∧ Goes (mask (signals (errors [.MEM_HOME_CNT])) (signalled [.crossings, .waiting])) s t :=
  ⟨_, rfl, Goes.access (fun t => (t.goes_readClear ..).lift (by decide)) s _ _ _ _ _ (by decide)⟩

theorem execSealLineCntRead_frame (p : Port) (k : Fin 4) (s : State) :
    ∃ t, execSealLineCntRead p k s = .next t ∧ Goes (mask (signals (errors [.SEAL_LINE_CNT])) (signalled [.crossings, .waiting])) s t :=
  ⟨_, rfl, Goes.access (fun t => (t.goes_readClear ..).lift (by decide)) s _ _ _ _ _ (by decide)⟩

/-! ### Conversions (R321, R322) -/

theorem State.goes_recallGranule (s : State) (g : Nat) :
    Goes (mask (signals (counting [.MEM_HOME_CNT])) (signalled [.crossings, .memo])) s (s.recallGranule g) :=
  (Goes.refl _ s).each _ _ fun _ t => (t.goes_recall_tight ..).lift (by decide)

theorem State.goes_startConversion (s : State) (g : Nat) (toSealed : Bool) :
    Goes (mask (signals (counting [.MEM_HOME_CNT, .SEAL_GRAN, .SEAL_GRAN_RES, .SEAL_LINE_STAT])) homeParts) s (s.startConversion g toSealed) := by
  unfold State.startConversion
  extract_lets s1
  have hbusy : Goes (mask (signals (counting [.MEM_HOME_CNT, .SEAL_GRAN, .SEAL_GRAN_RES, .SEAL_LINE_STAT])) homeParts) s s1 :=
      ((Goes.refl _ s).write _ _ _ (by decide)).write _ _ _ (by decide)
  exact Goes.ite ((Goes.refl _ s).write _ _ _ (by decide)) (Goes.ite ((Goes.refl _ s).write _ _ _ (by decide)) (Goes.ite ((Goes.refl _ s).write _ _ _
      (by decide)) (((hbusy.step (s1.goes_setSeal ..) (by decide)).step (State.goes_showRoots _) (by decide)).step (State.goes_recallGranule ..)
      (by decide))))

theorem State.goes_granCmd (s : State) (p : Port) (v : Nat) :
    Goes (mask (signals (counting (errors [.MEM_HOME_CNT, .SEAL_GRAN, .SEAL_GRAN_RES, .SEAL_LINE_STAT]))) homeParts) s (s.granCmd p v) := by
  unfold State.granCmd
  refine Goes.ite ((s.goes_accessError ..).lift (by decide)) ?_
  split
  · exact (s.goes_startConversion ..).lift (by decide)
  · exact (s.goes_startConversion ..).lift (by decide)
  · exact Goes.refl _ s

theorem execGranuleSeal_frame (p : Port) (g : BitVec 8) (s : State) :
    ∃ t, execGranuleSeal p g s = .next t ∧ Goes (mask (signals (counting (errors [.MEM_HOME_CNT, .SEAL_GRAN, .SEAL_GRAN_RES, .SEAL_LINE_STAT])))
      (.waiting :: homeParts)) s t :=
  ⟨_, rfl, Goes.access (fun t => (t.goes_granCmd ..).lift (by decide)) s _ _ _ _ _ (by decide)⟩

theorem execGranuleUnseal_frame (p : Port) (g : BitVec 8) (s : State) :
    ∃ t, execGranuleUnseal p g s = .next t ∧ Goes (mask (signals (counting (errors [.MEM_HOME_CNT, .SEAL_GRAN, .SEAL_GRAN_RES, .SEAL_LINE_STAT])))
      (.waiting :: homeParts)) s t :=
  ⟨_, rfl, Goes.access (fun t => (t.goes_granCmd ..).lift (by decide)) s _ _ _ _ _ (by decide)⟩

theorem State.goes_finishConversion (s : State) (g : Nat) (toSealed : Bool) :
    Goes (mask (.SEAL_GRAN :: .SEAL_GRAN_RES :: .SEAL_LINE_STAT :: homeRegs) (.svc :: homeParts)) s (s.finishConversion g toSealed) := by
  unfold State.finishConversion
  extract_lets s1 s2 s3 s4
  have hchosen : Goes (mask (.SEAL_GRAN :: .SEAL_GRAN_RES :: .SEAL_LINE_STAT :: homeRegs) (.svc :: homeParts)) s s1 :=
      Goes.ite ((s.goes_sealGranule ..).lift (by decide)) ((s.goes_unsealGranule ..).lift (by decide))
  have hsetSeal : Goes (mask (.SEAL_GRAN :: .SEAL_GRAN_RES :: .SEAL_LINE_STAT :: homeRegs) (.svc :: homeParts)) s s2 :=
      hchosen.step (s1.goes_setSeal ..) (by decide)
  have hraised : Goes (mask (.SEAL_GRAN :: .SEAL_GRAN_RES :: .SEAL_LINE_STAT :: homeRegs) (.svc :: homeParts)) s s3 :=
      ((hsetSeal.write _ _ _ (by decide)).write _ _ _ (by decide)).raised _ (by decide)
  have hcompleteOn : Goes (mask (.SEAL_GRAN :: .SEAL_GRAN_RES :: .SEAL_LINE_STAT :: homeRegs) (.svc :: homeParts)) s s4 :=
      hraised.step (s3.goes_completeOn ..) (by decide)
  exact hcompleteOn.each _ _ fun _ t => (t.goes_serveStack ..).lift (by decide)

theorem execConversionComplete_frame (s : State) :
    ∃ t, execConversionComplete s = .next t ∧ Goes (mask (.SEAL_GRAN :: .SEAL_GRAN_RES :: .SEAL_LINE_STAT :: homeRegs) (.svc :: homeParts)) s t := by
  refine ⟨_, rfl, ?_⟩
  extract_lets
  split
  · exact Goes.refl _ s
  · exact Goes.ite (Goes.refl _ s) (s.goes_finishConversion ..)

/-! ### Operations on the store -/

theorem goes_svcStoreQuery (L : Letter) (a1 : List Byte) (s : State) : Goes (mask [] []) s (svcStoreQuery L a1 s).1 :=
  Goes.iteFst (Goes.refl _ s) (Goes.refl _ s)

theorem execStoreQuery_frame (L : Letter) (s : State) : ∃ t, execStoreQuery L s = .next t ∧ Goes countMask s t :=
  ⟨_, rfl, Goes.serve (fun _ t => (goes_svcStoreQuery ..).lift (by decide)) s _ _ _ (by decide)⟩

theorem goes_svcStoreFormat (L : Letter) (a1 : List Byte) (s : State) : Goes objectMask s (svcStoreFormat L a1 s).1 :=
  Goes.iteFst (Goes.refl _ s) (Goes.iteFst (Goes.refl _ s) (Goes.iteFst (Goes.refl _ s) (goes_accepted ..)))

theorem execStoreFormat_frame (L : Letter) (s : State) : ∃ t, execStoreFormat L s = .next t ∧ Goes completeMask s t :=
  ⟨_, rfl, Goes.serve (fun _ t => (goes_svcStoreFormat ..).lift (by decide)) s _ _ _ (by decide)⟩

theorem goes_svcStoreVolCreate (L : Letter) (a1 : List Byte) (s : State) : Goes objectMask s (svcStoreVolCreate L a1 s).1 :=
  Goes.iteFst (Goes.refl _ s) (Goes.iteFst (Goes.refl _ s) (Goes.iteFst (Goes.refl _ s) (Goes.iteFst (Goes.refl _ s) (goes_accepted ..))))

theorem execStoreVolCreate_frame (L : Letter) (s : State) : ∃ t, execStoreVolCreate L s = .next t ∧ Goes completeMask s t :=
  ⟨_, rfl, Goes.serve (fun _ t => (goes_svcStoreVolCreate ..).lift (by decide)) s _ _ _ (by decide)⟩

theorem goes_svcStoreVolResize (L : Letter) (a1 : List Byte) (s : State) : Goes objectMask s (svcStoreVolResize L a1 s).1 := by
  unfold svcStoreVolResize
  extract_lets
  split
  · exact Goes.refl _ s
  · exact Goes.iteFst (Goes.refl _ s) (Goes.iteFst (Goes.refl _ s) (goes_accepted ..))

theorem execStoreVolResize_frame (L : Letter) (s : State) : ∃ t, execStoreVolResize L s = .next t ∧ Goes completeMask s t :=
  ⟨_, rfl, Goes.serve (fun _ t => (goes_svcStoreVolResize ..).lift (by decide)) s _ _ _ (by decide)⟩

theorem goes_svcStoreVolDelete (L : Letter) (a1 : List Byte) (s : State) : Goes objectMask s (svcStoreVolDelete L a1 s).1 := by
  unfold svcStoreVolDelete
  split
  · exact Goes.refl _ s
  · exact goes_accepted ..

theorem execStoreVolDelete_frame (L : Letter) (s : State) : ∃ t, execStoreVolDelete L s = .next t ∧ Goes completeMask s t :=
  ⟨_, rfl, Goes.serve (fun _ t => (goes_svcStoreVolDelete ..).lift (by decide)) s _ _ _ (by decide)⟩

theorem goes_svcStoreVolOpen (L : Letter) (a1 : List Byte) (s : State) : Goes (mask (signals []) ownerParts) s (svcStoreVolOpen L a1 s).1 := by
  unfold svcStoreVolOpen
  extract_lets
  split
  · exact Goes.refl _ s
  · dsimp only
    refine Goes.iteFst (Goes.refl _ s) ?_
    refine Goes.iteFst (Goes.refl _ s) ?_
    refine Goes.iteFst (Goes.refl _ s) ?_
    split
    · exact Goes.refl _ s
    · exact Goes.ite ((((s.goes_createAt ..).lift (by decide)).step (State.goes_setStore ..) (by decide)).step (State.goes_updVol ..) (by decide))
        (((s.goes_createAt ..).lift (by decide)).step (State.goes_setStore ..) (by decide))

theorem execStoreVolOpen_frame (L : Letter) (s : State) : ∃ t, execStoreVolOpen L s = .next t ∧ Goes (mask (signals (counting [])) ownerParts) s t :=
  ⟨_, rfl, Goes.serve (fun _ t => (goes_svcStoreVolOpen ..).lift (by decide)) s _ _ _ (by decide)⟩

theorem goes_svcStoreVolClose (L : Letter) (a1 : List Byte) (s : State) : Goes (mask (signals []) ownerParts) s (svcStoreVolClose L a1 s).1 := by
  unfold svcStoreVolClose
  split
  · exact Goes.refl _ s
  · split
    · exact Goes.refl _ s
    · exact Goes.iteFst (Goes.refl _ s) (Goes.iteFst ((goes_accepted ..).lift (by decide)) ((s.goes_closeVol ..).lift (by decide)))

theorem execStoreVolClose_frame (L : Letter) (s : State) :
    ∃ t, execStoreVolClose L s = .next t ∧ Goes (mask (signals (counting [])) ownerParts) s t :=
  ⟨_, rfl, Goes.serve (fun _ t => (goes_svcStoreVolClose ..).lift (by decide)) s _ _ _ (by decide)⟩

theorem goes_svcStoreIo (write : Bool) (L : Letter) (a2 : List Byte) (s : State) : Goes objectMask s (svcStoreIo write L a2 s).1 := by
  unfold svcStoreIo
  split
  · exact Goes.refl _ s
  · exact Goes.iteFst (Goes.refl _ s) (Goes.iteFst (Goes.refl _ s) (Goes.iteFst (Goes.refl _ s) (goes_accepted ..)))

theorem execStoreRead_frame (L : Letter) (s : State) : ∃ t, execStoreRead L s = .next t ∧ Goes completeMask s t :=
  ⟨_, rfl, Goes.serve (fun _ t => (goes_svcStoreIo ..).lift (by decide)) s _ _ _ (by decide)⟩

theorem execStoreWrite_frame (L : Letter) (s : State) : ∃ t, execStoreWrite L s = .next t ∧ Goes completeMask s t :=
  ⟨_, rfl, Goes.serve (fun _ t => (goes_svcStoreIo ..).lift (by decide)) s _ _ _ (by decide)⟩

theorem State.goes_outBlock (s : State) (uid b data : Nat) : Goes (mask (signals (counting [])) (signalled [.store])) s (s.outBlock uid b data) := by
  unfold State.outBlock
  split
  · exact Goes.refl _ s
  · exact Goes.ite ((((s.goes_perf ..).lift (by decide)).step (State.goes_updVol ..) (by decide)).emit _ (mask_part (by decide))) ((Goes.refl _
      s).emit _ (mask_part (by decide)))

theorem State.goes_wroteBlocks (s : State) (uid off n : Nat) (data : List StoreBlock) :
    Goes (mask (signals (counting [])) (signalled [.store])) s (s.wroteBlocks uid off n data) :=
  (Goes.refl _ s).each _ _ fun _ t => t.goes_outBlock ..

theorem execStoreIoComplete_frame (e : IoEnd) (s : State) :
    ∃ t, execStoreIoComplete e s = .next t ∧ Goes (mask (.SEAL_STORE_STAT :: memRegs) (.seals :: ownerParts)) s t := by
  refine ⟨_, rfl, ?_⟩
  extract_lets
  split
  · exact Goes.refl _ s
  · refine Goes.ite (Goes.refl _ s) ?_
    dsimp only
    refine Goes.ite (((((s.goes_opBlocks ..).lift (by decide)).step (State.goes_wroteBlocks ..) (by decide)).step (State.goes_showStore_signals _)
        (by decide)).step (State.goes_complete ..) (by decide)) ?_
    split
    · exact (s.goes_complete ..).lift (by decide)
    · exact (s.goes_complete ..).lift (by decide)

theorem goes_svcStoreFlush (L : Letter) (a1 : List Byte) (s : State) : Goes objectMask s (svcStoreFlush L a1 s).1 := by
  unfold svcStoreFlush
  split
  · exact Goes.refl _ s
  · exact Goes.iteFst (Goes.refl _ s) (goes_accepted ..)

theorem execStoreFlush_frame (L : Letter) (s : State) : ∃ t, execStoreFlush L s = .next t ∧ Goes completeMask s t :=
  ⟨_, rfl, Goes.serve (fun _ t => (goes_svcStoreFlush ..).lift (by decide)) s _ _ _ (by decide)⟩

theorem goes_svcStoreSetCommit (L : Letter) (a1 : List Byte) (s : State) :
    Goes (mask (signals [.SEAL_STORE_STAT]) (signalled [.store])) s (svcStoreSetCommit L a1 s).1 :=
  Goes.iteFst (Goes.refl _ s) (((s.goes_setStore ..).lift (by decide)).step (State.goes_showStore_signals _) (by decide))

theorem execStoreSetCommit_frame (L : Letter) (s : State) :
    ∃ t, execStoreSetCommit L s = .next t ∧ Goes (mask (signals (counting [.SEAL_STORE_STAT])) (signalled [.store])) s t :=
  ⟨_, rfl, Goes.serve (fun _ t => (goes_svcStoreSetCommit ..).lift (by decide)) s _ _ _ (by decide)⟩

/-! ### Commits -/

theorem State.goes_coverFlushes (s : State) (uid : Nat) : Goes (mask [] [.svc]) s (s.coverFlushes uid) :=
  (Goes.refl _ s).set_svc _ (mask_part (by decide))

theorem execCommitStart_frame (uid : BitVec 64) (s : State) :
    ∃ t, execCommitStart uid s = .next t ∧ Goes (mask (signals [.SEAL_STORE_STAT]) ownerParts) s t := by
  refine ⟨_, rfl, ?_⟩
  split
  · exact Goes.refl _ s
  · exact Goes.ite (Goes.refl _ s) (Goes.ite (Goes.refl _ s) (((Goes.ite ((s.goes_startCommit ..).lift (by decide)) ((s.goes_updVol ..).lift
      (by decide))).step (State.goes_coverFlushes ..) (by decide)).emit _ (mask_part (by decide))))

theorem execCommitFlushDone_frame (uid : BitVec 64) (ok : Bool) (s : State) :
    ∃ t, execCommitFlushDone uid ok s = .next t ∧ Goes (mask (signals (counting [.SEAL_STORE_ERR, .SEAL_STORE_ERRVOL, .SEAL_STORE_STAT])) ownerParts)
      s t := by
  refine ⟨_, rfl, ?_⟩
  split
  · exact Goes.refl _ s
  · exact Goes.ite (Goes.refl _ s) (Goes.ite ((Goes.ite ((s.goes_abandonCommit ..).lift (by decide)) ((s.goes_updVol ..).lift (by decide))).step
      (State.goes_endFlush_tight ..) (by decide)) (Goes.ite (((s.goes_updVol ..).lift (by decide)).step (State.goes_endFlush_tight ..) (by decide))
      ((((Goes.refl _ s).when _ _ fun t => (t.goes_writeNodes ..).lift (by decide)).step (State.goes_updVol ..) (by decide)).step
      (State.goes_showStore_signals _) (by decide))))

theorem execCommitDone_frame (uid : BitVec 64) (s : State) :
    ∃ t, execCommitDone uid s = .next t ∧ Goes (mask (.SEAL_STORE_ERR :: .SEAL_STORE_ERRVOL :: .SEAL_STORE_STAT :: leaseRegs) (.config ::
      ownerParts)) s t := by
  refine ⟨_, rfl, ?_⟩
  split
  · exact Goes.refl _ s
  · exact Goes.ite (Goes.refl _ s) (Goes.ite (((s.goes_abandonCommit ..).lift (by decide)).step (State.goes_endFlush_tight ..) (by decide))
      (((s.goes_endCommit ..).lift (by decide)).step (State.goes_endFlush_tight ..) (by decide)))

theorem State.goes_labelWritten (s : State) (o : PendingOp) :
    Goes (mask (.SEAL_STORE_ERR :: .SEAL_STORE_ERRVOL :: .SEAL_STORE_STAT :: leaseRegs) (.config :: ownerParts)) s (s.labelWritten o) := by
  unfold State.labelWritten
  extract_lets _ _ _ _ _ _ _ _ s1 _ s2 _ _ s3 s4
  have hdrawn : Goes (mask (.SEAL_STORE_ERR :: .SEAL_STORE_ERRVOL :: .SEAL_STORE_STAT :: leaseRegs) (.config :: ownerParts)) s s1 :=
      (Goes.refl _ s).drew (mask_part (by decide))
  have hchosen : Goes (mask (.SEAL_STORE_ERR :: .SEAL_STORE_ERRVOL :: .SEAL_STORE_STAT :: leaseRegs) (.config :: ownerParts)) s s2 :=
      Goes.ite (hdrawn.step (s1.goes_firstRoot ..) (by decide)) hdrawn
  have hraised : Goes (mask (.SEAL_STORE_ERR :: .SEAL_STORE_ERRVOL :: .SEAL_STORE_STAT :: leaseRegs) (.config :: ownerParts)) s s3 :=
      ((s.goes_updVol ..).lift (by decide)).when _ _ fun t => (Goes.refl _ t).raised _ (by decide)
  have hs : Goes (mask (.SEAL_STORE_ERR :: .SEAL_STORE_ERRVOL :: .SEAL_STORE_STAT :: leaseRegs) (.config :: ownerParts)) s s4 := by
    simp only [s4]
    split
    · exact (s.goes_writeRoot ..).lift (by decide)
    · exact Goes.refl _ s
  split
  · exact (((s.goes_setStore ..).lift (by decide)).step (State.goes_showStore_signals _) (by decide)).step (State.goes_complete ..) (by decide)
  · refine Goes.ite (Goes.refl _ s) ?_
    split
    · exact hdrawn.step (s1.goes_complete ..) (by decide)
    · exact (hchosen.step (s2.goes_bringUp ..) (by decide)).step (State.goes_complete ..) (by decide)
  · exact ((hraised.step (s3.goes_rebuildNodes ..) (by decide)).step (State.goes_showStore_signals _) (by decide)).step (State.goes_complete ..)
      (by decide)
  · exact ((hs.step (s4.goes_setStore ..) (by decide)).step (State.goes_showStore_signals _) (by decide)).step (State.goes_complete ..) (by decide)
  · exact Goes.refl _ s

theorem execDriveWriteDone_frame (w : DriveWrite) (ok : Bool) (s : State) :
    ∃ t, execDriveWriteDone w ok s = .next t ∧ Goes (mask (.SEAL_STORE_ERR :: .SEAL_STORE_ERRVOL :: .SEAL_STORE_STAT :: leaseRegs) (.config ::
      ownerParts)) s t := by
  refine ⟨_, rfl, ?_⟩
  split
  · split
    · exact Goes.refl _ s
    · exact Goes.ite (Goes.refl _ s) (Goes.ite ((((s.goes_updVol ..).lift (by decide)).step (State.goes_showStore_signals _) (by decide)).emit _
        (mask_part (by decide))) (((s.goes_abandonCommit ..).lift (by decide)).step (State.goes_endFlush_tight ..) (by decide)))
  · split
    · exact Goes.refl _ s
    · exact Goes.ite (s.goes_labelWritten ..) ((s.goes_complete ..).lift (by decide))

theorem State.goes_releaseBlock (s : State) (uid b v : Nat) : Goes (mask homeRegs homeParts) s (s.releaseBlock uid b v) := by
  unfold State.releaseBlock
  split
  · exact s.goes_storeWrite ..
  · exact (Goes.refl _ s).emit _ (mask_part (by decide))

theorem State.goes_failRead (s : State) (uid b : Nat) : Goes (mask [] [.svc]) s (s.failRead uid b) := by
  unfold State.failRead
  extract_lets
  split
  · exact Goes.refl _ s
  · exact (Goes.refl _ s).set_svc _ (mask_part (by decide))

theorem execStoreBlockRead_frame (uid : BitVec 64) (block : BitVec 36) (content : DriveRead) (s : State) :
    ∃ t, execStoreBlockRead uid block content s = .next t ∧ Goes (mask (.SEAL_STORE_CNT :: .SEAL_STORE_ERR :: .SEAL_STORE_ERRVOL :: homeRegs) (.store
      :: .svc :: homeParts)) s t := by
  refine ⟨_, rfl, ?_⟩
  extract_lets
  split
  · exact Goes.refl _ s
  · exact Goes.ite (Goes.refl _ s) (Goes.ite ((s.goes_releaseBlock ..).lift (by decide)) (Goes.ite ((((s.goes_cacheNodes ..).lift (by decide)).step
      (State.goes_releaseBlock ..) (by decide)).step (State.goes_perf ..) (by decide)) (((s.goes_blockFails ..).lift (by decide)).step
      (State.goes_failRead ..) (by decide))))

theorem execSealStoreCntRead_frame (p : Port) (s : State) :
    ∃ t, execSealStoreCntRead p s = .next t ∧ Goes (mask (signals (errors [.SEAL_STORE_CNT])) (signalled [.crossings, .waiting])) s t :=
  ⟨_, rfl, Goes.access (fun t => (t.goes_readClear ..).lift (by decide)) s _ _ _ _ _ (by decide)⟩

/-! ### Granules and the pool (R395, R396) -/

theorem goes_svcSealConvert (L : Letter) (a1 : List Byte) (s : State) : Goes objectMask s (svcSealConvert L a1 s).1 :=
  Goes.iteFst (Goes.refl _ s) (Goes.iteFst (Goes.refl _ s) (Goes.iteFst (Goes.refl _ s) (Goes.iteFst (Goes.refl _ s) (goes_accepted ..))))

theorem State.goes_runConvert (s : State) :
    Goes (mask (signals (counting [.MEM_HOME_CNT, .SEAL_GRAN, .SEAL_GRAN_RES, .SEAL_LINE_STAT])) (.svc :: homeParts)) s s.runConvert := by
  unfold State.runConvert
  split
  · exact Goes.refl _ s
  · exact Goes.ite (Goes.refl _ s) (Goes.ite (((s.goes_startConversion ..).lift (by decide)).step (State.goes_complete ..) (by decide))
      ((s.goes_startConversion ..).lift (by decide)))

theorem execSealConvert_frame (L : Letter) (s : State) :
    ∃ t, execSealConvert L s = .next t ∧ Goes (mask (signals (counting [.MEM_HOME_CNT, .SEAL_GRAN, .SEAL_GRAN_RES, .SEAL_LINE_STAT])) (.svc ::
      homeParts)) s t :=
  ⟨_, rfl, (Goes.serve (fun _ t => (goes_svcSealConvert ..).lift (by decide)) s _ _ _ (by decide)).trans (State.goes_runConvert _)⟩

theorem goes_svcSealQuery (L : Letter) (a1 : List Byte) (s : State) : Goes (mask [] []) s (svcSealQuery L a1 s).1 :=
  Goes.refl _ s

theorem execSealQuery_frame (L : Letter) (s : State) : ∃ t, execSealQuery L s = .next t ∧ Goes countMask s t :=
  ⟨_, rfl, Goes.serve (fun _ t => (goes_svcSealQuery ..).lift (by decide)) s _ _ _ (by decide)⟩

theorem goes_svcSealPool (L : Letter) (b : List Byte) (s : State) : Goes (mask [] [.seals]) s (svcSealPool L b s).1 := by
  unfold svcSealPool okBody
  exact Goes.iteFst (Goes.refl _ s) (Goes.pairFst (s.goes_setSeal _))

theorem execSealPool_frame (L : Letter) (s : State) :
    ∃ t, execSealPool L s = .next t ∧ Goes (mask (signals (counting [])) (signalled [.seals])) s t :=
  ⟨_, rfl, Goes.serve (fun _ t => (goes_svcSealPool ..).lift (by decide)) s _ _ _ (by decide)⟩
end Sys2Proof.Machine
end

section
/-! PROOFS. What the commands of the store leave alone, O18. -/

namespace Sys2Proof.Machine

/-- Settles O18: the frame of each command. -/
theorem frameOfStore : Obligations.FrameOfStore := by
  refine ⟨?_, ?_, ?_, ?_, ?_, ?_, ?_, ?_, ?_, ?_, ?_, ?_, ?_, ?_, ?_, ?_, ?_, ?_, ?_, ?_, ?_⟩
  -- commits and block reads
  · exact fun uid s => Goes.answered (execCommitStart_frame uid s) (by decide)
  · exact fun uid ok s => Goes.answered (execCommitFlushDone_frame uid ok s) (by decide)
  · exact fun uid s => Goes.answered (execCommitDone_frame uid s) (by decide)
  · exact fun uid block content s => Goes.answered (execStoreBlockRead_frame uid block content s) (by decide)
  · exact fun p s => Goes.answered (execSealStoreCntRead_frame p s) (by decide)
  -- the services of volumes
  · exact fun L s => Goes.answered (execStoreQuery_frame L s) (by decide)
  · exact fun L s => Goes.answered (execStoreFormat_frame L s) (by decide)
  · exact fun L s => Goes.answered (execStoreVolCreate_frame L s) (by decide)
  · exact fun L s => Goes.answered (execStoreVolResize_frame L s) (by decide)
  · exact fun L s => Goes.answered (execStoreVolDelete_frame L s) (by decide)
  · exact fun L s => Goes.answered (execStoreVolOpen_frame L s) (by decide)
  · exact fun L s => Goes.answered (execStoreVolClose_frame L s) (by decide)
  · exact fun L s => Goes.answered (execStoreRead_frame L s) (by decide)
  · exact fun L s => Goes.answered (execStoreWrite_frame L s) (by decide)
  · exact fun e s => Goes.answered (execStoreIoComplete_frame e s) (by decide)
  · exact fun L s => Goes.answered (execStoreFlush_frame L s) (by decide)
  · exact fun L s => Goes.answered (execStoreSetCommit_frame L s) (by decide)
  -- granules, and what a drive has written
  · exact fun L s => Goes.answered (execSealConvert_frame L s) (by decide)
  · exact fun L s => Goes.answered (execSealQuery_frame L s) (by decide)
  · exact fun L s => Goes.answered (execSealPool_frame L s) (by decide)
  · exact fun w ok s => Goes.answered (execDriveWriteDone_frame w ok s) (by decide)

end Sys2Proof.Machine
end

section
/-! PROOFS. What is pending stays pending, and what has been reported stays reported, through the homes and the completions of services. -/

namespace Sys2Proof.Machine

-- One proof after another: side by side they need more memory than a check has.
set_option Elab.async false

/-! ### What is pending stays pending, and what has been reported stays reported -/

/-- From `s` to `t` no event ceases to pend, and the reports of a resynchronisation stand. -/
structure Calm (s t : State) : Prop where
  pends : ∀ k, s.pends k = true → t.pends k = true
  resynced : t.memo.resynced = s.memo.resynced

namespace Calm

variable {s t u : State}

theorem refl (s : State) : Calm s s := ⟨fun _ => id, rfl⟩

theorem trans (h : Calm s t) (k : Calm t u) : Calm s u := ⟨fun j hj => k.pends j (h.pends j hj), k.resynced.trans h.resynced⟩

theorem ite {c : Prop} [Decidable c] {a b : State} (h : Calm s a) (k : Calm s b) : Calm s (if c then a else b) := by
  split <;> assumption

theorem iteFst {α : Type} {c : Prop} [Decidable c] {a b : State × α} (h : Calm s a.1) (k : Calm s b.1) : Calm s (if c then a else b).1 := by
  split <;> assumption

theorem each {α : Type} (h : Calm s t) (l : List α) (g : α → State → State) (hg : ∀ a u, Calm u (g a u)) : Calm s (t.each l g) :=
  State.each_keeps (P := Calm s) (fun a _ u hu => hu.trans (hg a u)) h

theorem when (h : Calm s t) (c : Bool) (g : State → State) (hg : ∀ u, Calm u (g u)) : Calm s (t.when c g) :=
  ite (h.trans (hg t)) h

/-- A change of stacked memory that leaves the reports alone. -/
theorem setMem (s : State) (g : MemState → MemState) (hg : ∀ m, (g m).resynced = m.resynced := by exact fun _ => rfl) : Calm s (s.setMem g) :=
  ⟨fun _ => id, hg _⟩

theorem setSeal (s : State) (g : SealState → SealState) : Calm s (s.setSeal g) := ⟨fun _ => id, rfl⟩

theorem put (h : Calm s t) (f : Fld) (i v : Nat) (hf : f ≠ .EVT_PEND_PEND) : Calm s (t.put f i v) :=
  h.trans ⟨fun k hk => (t.pends_put_ne hf i v k).trans hk, rfl⟩

theorem raised (h : Calm s t) (src : Nat) (reg : Option (Reg × Nat)) : Calm s (t.raiseWith src reg) :=
  h.trans ⟨fun _ hk => State.pends_raiseWith_of_pends hk src reg, congrArg MemState.resynced ((t.goes_raiseWith src reg).within.2 .memo (by decide))⟩

end Calm

/-- A frame that lists neither EVT_PEND nor stacked memory. -/
theorem Goes.calm {rs : List Reg} {ps : List Part} {s t : State} (h : Goes (mask rs ps) s t) (hr : Reg.EVT_PEND ∉ rs) (hp : Part.memo ∉ ps) :
    Calm s t := by
  refine ⟨fun k hk => ?_, congrArg MemState.resynced (h.within.2 .memo hp)⟩
  rwa [State.pends, h.within.1 .EVT_PEND_PEND _ hr]

namespace State

/-! ### Lines and their engines -/

theorem calm_perf (s : State) (block inst event n : Nat) (x : Option Xfer) : Calm s (s.perf block inst event n x) :=
  ⟨fun _ hk => pends_perf hk .., congrArg MemState.resynced ((s.goes_perf ..).within.2 .memo (by decide))⟩

theorem calm_putLine (s : State) (l v : Nat) : Calm s (s.putLine l v) := by
  refine Calm.ite ?_ (Calm.setMem s _)
  unfold State.putSealed
  exact (Calm.setMem s _).trans (Calm.setSeal _ _)

theorem calm_putSealed (s : State) (l v : Nat) : Calm s (s.putSealed l v) := by
  unfold State.putSealed
  exact (Calm.setMem s _).trans (Calm.setSeal _ _)

theorem calm_dropMeta (s : State) (k : Nat) : Calm s (s.dropMeta k) := (s.goes_dropMeta k).calm (by decide) (by decide)

theorem calm_evictMeta (s : State) (stack : Nat) (l : List (Nat × Nat)) : Calm s (s.evictMeta stack l) :=
  (s.goes_evictMeta stack l).calm (by decide) (by decide)

theorem calm_cacheMeta (s : State) (ks : List Nat) : Calm s (s.cacheMeta ks) := by
  refine (Calm.refl s).each _ _ fun k t => ?_
  extract_lets c t1
  have hroom : Calm t t1 := Calm.ite (Calm.refl t) (((Goes.refl (mask [] [.freeValues]) t).drew (mask_part (by decide))).calm
    (by decide) (by decide) |>.trans (calm_dropMeta _ _))
  exact hroom.trans (Calm.setSeal _ _)

theorem calm_sealFail (s : State) (l : Nat) (group uncorr : Bool) : Calm s (s.sealFail l group uncorr) := by
  unfold State.sealFail
  extract_lets k first s1 rises s2 s3
  have hline : Calm s s1 := (Calm.refl s).when _ _ fun t => (Calm.refl t).put _ _ _ (by decide)
  have hflag : Calm s s2 := Calm.ite (hline.put _ _ _ (by decide)) ((hline.put _ _ _ (by decide)).put _ _ _ (by decide))
  have hgroup : Calm s s3 := hflag.when _ _ fun t => (Calm.refl t).put _ _ _ (by decide)
  exact (hgroup.trans (calm_perf ..)).when _ _ fun t => (Calm.refl t).raised _ _

theorem calm_stackUncorr (s : State) (l : Nat) : Calm s (s.stackUncorr l) :=
  ((((Calm.refl s).when _ _ fun t => (Calm.refl t).put _ _ _ (by decide)).put _ _ _ (by decide)).put _ _ _ (by decide)).raised _ _

theorem calm_stackCorr (s : State) (l : Nat) : Calm s (s.stackCorr l) := ((Calm.refl s).put _ _ _ (by decide)).put _ _ _ (by decide)

theorem calm_touchMeta (s : State) (l : Nat) (t : Touch) : Calm s (s.touchMeta l t) := by
  unfold State.touchMeta
  extract_lets k levels tag n s1 s2 key mk bad
  have hcount : Calm s s1 := Calm.ite (calm_perf ..) (calm_perf ..)
  have hevict : Calm s s2 := hcount.trans (calm_evictMeta ..)
  exact Calm.ite (hevict.trans (calm_cacheMeta ..)) (hevict.trans (Calm.setSeal _ _))

theorem calm_failBeneath (s : State) (l : Nat) (c : Bool) : Calm s ((s.when c (·.stackUncorr l)).sealFail l true (s.nodeUncorr l)) :=
  ((Calm.refl s).when _ _ fun t => t.calm_stackUncorr l).trans (calm_sealFail ..)

theorem calm_memRead (s : State) (l : Nat) (t : Touch) (x : Option Xfer) : Calm s (s.memRead l t x).1 := by
  unfold State.memRead
  extract_lets k s1 sealed s2 kept s3 s4 s5
  have htouch : Calm s s2 := (calm_perf ..).when _ _ fun u => u.calm_touchMeta l t
  have hcorr : Calm s s3 := htouch.when _ _ fun u => u.calm_stackCorr l
  have huncorr : Calm s s4 := (hcorr.trans (calm_stackUncorr ..)).trans (Calm.setSeal _ _)
  have hfails : Calm s s5 := hcorr.trans (Calm.setSeal _ _)
  exact Calm.iteFst (hcorr.trans (calm_failBeneath ..)) (Calm.iteFst (huncorr.when _ _ fun u => u.calm_sealFail l false true)
    (Calm.iteFst (hfails.trans (calm_sealFail ..)) hcorr))

theorem calm_reencrypt (s : State) (l : Nat) : Calm s (s.reencrypt l) := by
  unfold State.reencrypt
  extract_lets k g group s1 held s2
  have hchecked : Calm s s1 := (Calm.refl s).each _ _ fun j t => Calm.ite (Calm.refl t) ((Calm.setSeal t _).trans (calm_sealFail ..))
  have hmajor : Calm s s2 := hchecked.trans (Calm.setSeal _ _)
  have hlines := hmajor.each held (fun e t => t.putSealed e.1 e.2) fun e t => t.calm_putSealed e.1 e.2
  exact (hlines.put _ _ _ (by decide)).trans (calm_perf ..)

theorem calm_countWrite (s : State) (l : Nat) : Calm s (s.countWrite l) := by
  unfold State.countWrite
  exact Calm.ite ((Calm.setSeal s _).trans (calm_reencrypt ..)) ((Calm.setSeal s _).trans (Calm.setSeal _ _))

theorem calm_memWrite (s : State) (l v : Nat) (t : Touch) (x : Option Xfer) : Calm s (s.memWrite l v t x).1 := by
  unfold State.memWrite
  extract_lets k s1 s2 s3
  have hcount : Calm s s1 := calm_perf ..
  have htouch : Calm s s2 := hcount.trans (calm_touchMeta ..)
  have hcounted : Calm s s3 := (htouch.trans (calm_countWrite ..)).trans (Calm.setSeal _ _)
  exact Calm.iteFst (Calm.iteFst (htouch.trans (calm_failBeneath ..)) (hcounted.trans (calm_putLine ..)))
    ((hcount.trans (Calm.setSeal _ _)).trans (calm_putLine ..))

/-! ### Homes and messages -/

theorem calm_fillMsgs (s : State) (k : Nat) (toHome : Bool) : Calm s (s.fillMsgs k toHome) := by
  unfold State.fillMsgs
  exact (Calm.setMem s _).trans ((State.goes_setCrossing ..).calm (by decide) (by decide))

theorem calm_post (s : State) (kind : MsgKind) (who l data aux : Nat) : Calm s (s.post kind who l data aux) := by
  unfold State.post
  exact (Calm.setMem s _).trans (calm_fillMsgs ..)

theorem calm_setCached (s : State) (a l : Nat) (x : CLine) : Calm s (s.setCached a l x) := by
  unfold State.setCached
  exact Calm.ite ((Calm.setMem s _).put _ _ _ (by decide)) (Calm.setMem s _)

theorem calm_setDir (s : State) (l : Nat) (d : DirLine) : Calm s (s.setDir l d) := Calm.setMem s _

theorem calm_showHome (s : State) (k : Nat) : Calm s (s.showHome k) := (s.goes_showHome k).calm (by decide) (by decide)

theorem calm_took (s : State) (l : Nat) (r : HomeReq) : Calm s (s.took l r) := (calm_perf ..).when _ _ fun t => t.calm_perf ..

theorem calm_fetch (s : State) (l : Nat) (r : HomeReq) (a : Option Nat) : Calm s (s.fetch l r a).1 := by
  unfold State.fetch
  split
  · exact Calm.refl s
  · exact calm_memRead ..

theorem calm_snoop (s : State) (kind : MsgKind) (l : Nat) (req : Option HomeReq) (discard : Bool) (agents : List Nat) :
    Calm s (s.snoop kind l req discard agents) := by
  unfold State.snoop
  exact ((Calm.refl s).each _ _ fun a t => (calm_post ..).trans (calm_perf ..)).trans (calm_setDir ..)

theorem calm_grant (s : State) (l : Nat) (r : HomeReq) (msg : MsgKind) (data aux st : Nat) (sharers : List Nat) (owner : Nat) :
    Calm s (s.grant l r msg data aux st sharers owner) := by
  have hborn : Calm s (s.allocate (s.dirAt l)).1 := by
    unfold State.allocate
    split
    · exact Calm.setMem s fun m => { m with born := m.born + 1 }
    · exact Calm.refl s
  exact (hborn.trans (calm_setDir ..)).trans (calm_post ..)

theorem calm_finishNoGrant (s : State) (l : Nat) (r : HomeReq) (msg : MsgKind) (data status : Nat) : Calm s (s.finishNoGrant l r msg data status) :=
  (calm_setDir ..).trans (calm_post ..)

theorem calm_endShared (s : State) (l : Nat) (r : HomeReq) (a : Option Nat) (sharers : List Nat) : Calm s (s.endShared l r a sharers) := by
  unfold State.endShared
  exact Calm.ite (((calm_fetch ..).trans (calm_setDir ..)).trans (calm_finishNoGrant ..)) ((calm_fetch ..).trans (calm_grant ..))

theorem calm_endOwn (s : State) (l : Nat) (r : HomeReq) (a : Option Nat) (dirty : Bool) : Calm s (s.endOwn l r a dirty) := by
  unfold State.endOwn
  exact Calm.ite (calm_grant ..)
    (Calm.ite (((calm_fetch ..).trans (calm_setDir ..)).trans (calm_finishNoGrant ..)) ((calm_fetch ..).trans (calm_grant ..)))

theorem calm_endCur (s : State) (l : Nat) (r : HomeReq) (a : Option Nat) : Calm s (s.endCur l r a) :=
  (calm_fetch ..).trans (calm_finishNoGrant ..)

theorem calm_endPtl (s : State) (l : Nat) (r : HomeReq) (a : Option Nat) : Calm s (s.endPtl l r a) := by
  unfold State.endPtl
  extract_lets s1 f w
  have hfreed : Calm s s1 := calm_setDir ..
  have hfetch : Calm s f.1 := Calm.iteFst hfreed (hfreed.trans (calm_fetch ..))
  have hwrite : Calm s w.1 := hfetch.trans (calm_memWrite ..)
  exact Calm.ite (hfetch.trans (calm_finishNoGrant ..)) (hwrite.trans (calm_finishNoGrant ..))

theorem calm_beginReq (s : State) (l : Nat) (r : HomeReq) (a : Option Nat) : Calm s (s.beginReq l r a) := by
  simp only [State.beginReq]
  split
  · exact calm_snoop ..
  · exact calm_endShared ..
  · exact calm_snoop ..
  · exact Calm.ite (calm_endOwn ..) (calm_snoop ..)
  · exact calm_endOwn ..
  · exact calm_snoop ..
  · exact calm_endCur ..
  · exact calm_snoop ..
  · exact Calm.ite (calm_endPtl ..) (calm_snoop ..)
  · exact calm_endPtl ..

theorem calm_recall (s : State) (l : Nat) (discard : Bool) : Calm s (s.recall l discard) := by
  unfold State.recall
  extract_lets d s1
  have hcount : Calm s s1 := (Calm.refl s).when _ _ fun t => ((Calm.refl t).put _ _ _ (by decide)).trans (calm_perf ..)
  exact Calm.ite (hcount.trans (calm_setDir ..)) (hcount.trans (calm_snoop ..))

theorem calm_serveLine (n : Nat) (s : State) (l : Nat) : Calm s (State.serveLine n s l) := by
  induction n generalizing s with
  | zero => exact Calm.refl s
  | succ n ih =>
    unfold State.serveLine
    extract_lets d
    split
    · refine Calm.ite (Calm.refl s) (Calm.ite ?_ ?_)
      · split
        · exact Calm.ite (calm_recall ..) (Calm.refl s)
        · exact Calm.refl s
      · exact (((calm_setDir ..).trans (calm_took ..)).trans (calm_beginReq ..)).trans (ih _)
    · exact Calm.refl s

theorem calm_ioLine (s : State) (who l data bytes : Nat) : Calm s (s.ioLine who l data bytes) := by
  unfold State.ioLine
  extract_lets d x have? s1 s2 s3 f
  have hgiven : Calm s s2 := (calm_perf ..).each _ _ fun a t => (calm_perf ..).trans (calm_setCached ..)
  have hfreed : Calm s s3 := hgiven.trans (calm_setDir ..)
  have hfetch : Calm s f.1 := by
    refine Calm.iteFst hfreed ?_
    cases have? with
    | some v => exact hfreed
    | none => exact hfreed.trans (calm_memRead ..)
  exact Calm.ite hfetch (hfetch.trans (calm_memWrite ..))

theorem calm_doWrite (s : State) (w : MemWrite) : Calm s (s.doWrite w) := by
  unfold State.doWrite
  extract_lets s1 s2
  have hlines : Calm s s1 := (Calm.refl s).each _ _ fun l t => calm_ioLine ..
  have hshown : Calm s s2 := by
    simp only [s2]
    split
    · exact hlines.put _ _ _ (by decide)
    · exact hlines
  exact hshown.each _ _ fun k t => t.calm_showHome k

theorem calm_pumpFrom (l kept : List MemWrite) (s : State) : Calm s (pumpFrom l kept s).1 := by
  induction l generalizing s kept with
  | nil => exact Calm.refl s
  | cons w l ih => exact Calm.iteFst ((s.calm_doWrite w).trans (ih _ _)) (ih _ _)

theorem calm_pumpWrites (s : State) : Calm s s.pumpWrites := by
  unfold State.pumpWrites
  exact (calm_pumpFrom _ [] s).trans (Calm.setMem _ _)

theorem calm_serveNext (s : State) (l : Nat) : Calm s (s.serveNext l) := by
  unfold State.serveNext
  have hpumped : Calm s (s.recallConverting l).pumpWrites := ((Calm.refl s).when _ _ fun t => t.calm_recall l true).trans (calm_pumpWrites _)
  exact ((hpumped.trans (calm_serveLine ..)).each _ _ fun k t => calm_serveLine ..).trans (calm_showHome ..)

/-- A stack that serves what waits there takes no event back. -/
theorem calm_serveStack (s : State) (k : Nat) : Calm s (s.serveStack k) := by
  unfold State.serveStack
  exact ((calm_pumpWrites s).each _ _ fun l t => t.calm_serveNext l).trans (calm_showHome ..)

/-! ### Completions -/

theorem calm_setBox (s : State) (m : Nat) (b : Mailbox) : Calm s (s.setBox m b) := (s.goes_setBox m b).calm (by decide) (by decide)

theorem calm_send (s : State) (m : Nat) (bytes : List Byte) : Calm s (s.send m bytes) := by
  unfold State.send
  extract_lets _ s1
  have hkept : Calm s s1 := ((s.goes_setBox ..).trans (State.goes_pump ..)).calm (by decide) (by decide)
  exact Calm.ite (hkept.raised _ _) hkept

theorem calm_postLetters (s : State) (m : Nat) (l : List (List Byte)) : Calm s (s.postLetters m l) := by
  refine (Calm.refl s).each _ _ fun b t => (t.calm_perf 7 0 1 1 none).trans (calm_send ..)

theorem calm_complete (s : State) (o : PendingOp) (st : Status) (handle postmark : Nat) (body : List Byte) :
    Calm s (s.complete o st handle postmark body) := by
  unfold State.complete
  extract_lets _ s1
  have herased : Calm s s1 := ⟨fun _ => id, rfl⟩
  refine Calm.ite herased (Calm.ite ?_ ?_)
  · exact herased.trans (calm_setBox ..)
  · exact herased.trans (calm_postLetters ..)

/-- A completed operation takes no event back. -/
theorem calm_completeOn (s : State) (opcode object : Nat) (st : Status) (body : List Byte) : Calm s (s.completeOn opcode object st body) := by
  unfold State.completeOn
  split
  · exact Calm.refl s
  · exact calm_complete ..

theorem calm_completeAll (s : State) (opcode object : Nat) (st : Status) (body : List Byte) : Calm s (s.completeAll opcode object st body) :=
  (Calm.refl s).each _ _ fun _ _ => calm_complete ..

end State

end Sys2Proof.Machine
end

section
/-! PROOFS. How the services of an axis begin, as frames. -/

namespace Sys2Proof.Machine

-- One proof after another: side by side they need more memory than a check has.
set_option Elab.async false

/-- How every AXIS service begins changes nothing beside what the service does. -/
theorem goes_axisService {m : Nat} {g : Nat → Service} (hg : ∀ a b t, Goes m t (g a b t).1) (L : Letter) (b : List Byte) (s : State) :
    Goes m s (axisService L g b s).1 :=
  Goes.iteFst (Goes.refl _ s) (Goes.iteFst (Goes.refl _ s) (hg _ b s))

/-- AXIS.START and AXIS.RECOVER: the load position, and what the command does. -/
theorem goes_axisLoadService {rs : List Reg} {ps : List Part} {go : State → Nat → State} (hgo : ∀ t a, Goes (mask rs ps) t (go t a))
    (hpos : Reg.POS_AX_LOAD ∈ rs) (hepoch : Reg.POS_AX_LOAD_EPOCH ∈ rs) (L : Letter) (refused : State → Nat → Bool) (b : List Byte) (s : State) :
    Goes (mask rs ps) s (axisLoadService L refused go b s).1 :=
  goes_axisService (fun a _ t => Goes.iteFst (Goes.refl _ t) (Goes.iteFst (Goes.refl _ t)
    ((((Goes.refl _ t).write _ _ _ hpos).write _ _ _ hepoch).trans (hgo _ a)))) L b s

/-- The registers that AXIS.SETUP stores. -/
def axisSetupRegs : List Reg :=
  [.POS_AX_CTL, .POS_AX_DR, .POS_AX_DRTIME, .POS_AX_FOLLOW, .POS_AX_STAT, .POS_AX_TUNE, .POS_AX_VACC, .POS_AX_VMIN, .POS_AX_VSPEED, .POS_AX_ZPERIOD,
    .POS_AX_ZTOL]

theorem goes_svcAxisSetup (L : Letter) (b : List Byte) (s : State) : Goes (mask axisSetupRegs []) s (svcAxisSetup L b s).1 :=
  goes_axisService (fun a c t => Goes.iteFst (Goes.refl _ t) (((t.goes_axisCtl ..).lift (by decide)).eachMem _ _ fun e he u =>
    (u.goes_storeWord e.1 _ _ _).widen (by revert e; decide) (by simp))) L b s

end Sys2Proof.Machine
end

section
/-! PROOFS. Lanes, sorters, pins, block services, channels and events as frames. -/

namespace Sys2Proof.Machine

-- One proof after another: side by side they need more memory than a check has.
set_option Elab.async false

/-! ### Rate and taps -/

theorem execLaneRateWrite_frame (p : Port) (l : Fin 144) (value : Word) (s : State) :
    ∃ t, execLaneRateWrite p l value s = .next t ∧ Goes (mask (signals (errors [.LANE_ERR, .LANE_RATE])) (signalled [.crossings, .waiting])) s t :=
  ⟨_, rfl, Goes.access (fun t => (t.goes_laneRate ..).lift (by decide)) s _ _ _ _ _ (by decide)⟩

theorem execLaneTxeqWrite_frame (p : Port) (l : Fin 144) (value : Word) (s : State) :
    ∃ t, execLaneTxeqWrite p l value s = .next t ∧ Goes (mask (signals (errors [.LANE_ERR, .LANE_TXEQ])) (signalled [.crossings, .ports, .waiting]))
      s t :=
  ⟨_, rfl, Goes.access (fun t => (t.goes_laneTxeq ..).lift (by decide)) s _ _ _ _ _ (by decide)⟩

/-! ### Adaptation, signal and lock -/

theorem execLosClear_frame (l : Fin 144) (s : State) : ∃ t, execLosClear l s = .next t ∧ Goes (mask [.LANE_STAT] []) s t :=
  ⟨_, rfl, (Goes.refl _ s).write _ _ _ (by decide)⟩

theorem execLaneLock_frame (l : Fin 144) (s : State) : ∃ t, execLaneLock l s = .next t ∧ Goes (mask [.LANE_STAT] [.timers]) s t :=
  ⟨_, rfl, Goes.ite (Goes.refl _ s) (((Goes.refl _ s).write _ _ _ (by decide)).step (State.goes_startTimer ..) (by decide))⟩

theorem execLaneLol_frame (l : Fin 144) (s : State) : ∃ t, execLaneLol l s = .next t ∧ Goes (mask lossRegs askParts) s t :=
  ⟨_, rfl, Goes.ite (Goes.refl _ s) (((Goes.refl _ s).write _ _ _ (by decide)).step (State.goes_laneLoss _ _ _ _ _ rfl rfl) (by decide))⟩

/-! ### Lane reset (R246, R247) -/

theorem execLaneEnWrite_frame (p : Port) (l : Fin 144) (value : Word) (lost : List Lost) (s : State) :
    ∃ t, execLaneEnWrite p l value lost s = .next t ∧ Goes (mask (.DEV_ACCESS_ADDR :: .DEV_ACCESS_ERR :: laneCtlRegs) (.crossings :: .waiting ::
      laneResetParts)) s t :=
  ⟨_, rfl, Goes.access (fun t => (t.goes_laneCtl ..).lift (by decide)) s _ _ _ _ _ (by decide)⟩

theorem execLaneCntRead_frame (p : Port) (x : PrbsRead) (s : State) :
    ∃ t, execLaneCntRead p x s = .next t ∧ Goes (mask (signals (errors [.LANE_CNT])) (signalled [.crossings, .waiting])) s t :=
  ⟨_, rfl, ((Goes.refl _ s).when _ _ fun t => (Goes.refl _ t).bump _ _ _ (mask_reg (by decide))).trans (Goes.access (fun t =>
      (t.goes_readClear ..).lift (by decide)) _ _ _ _ _ _ (by decide))⟩

theorem execLaneErrcntRead_frame (p : Port) (l : Fin 144) (s : State) :
    ∃ t, execLaneErrcntRead p l s = .next t ∧ Goes (mask (signals (errors [.LANE_ERRCNT])) (signalled [.crossings, .waiting])) s t :=
  ⟨_, rfl, Goes.access (fun t => (t.goes_readClear ..).lift (by decide)) s _ _ _ _ _ (by decide)⟩

/-! ### Binding (R248, R249) -/

theorem execOctetProtoWrite_frame (p : Port) (k : Fin 18) (value : Word) (s : State) :
    ∃ t, execOctetProtoWrite p k value s = .next t ∧ Goes (mask (.DEV_ACCESS_ADDR :: .DEV_ACCESS_ERR :: protoRegs) (.chans :: funcParts)) s t :=
  ⟨_, rfl, Goes.access (fun t => (t.goes_octProto ..).lift (by decide)) s _ _ _ _ _ (by decide)⟩

/-! ### The endpoint (R252, R253) -/

theorem execHotReset_frame (s : State) : ∃ t, execHotReset s = .next t ∧ Goes (mask endpointRegs funcParts) s t :=
  ⟨_, rfl, s.goes_endpointReset⟩

theorem execFunctionLevelReset_frame (f : Fin 4) (s : State) : ∃ t, execFunctionLevelReset f s = .next t ∧ Goes (mask funcRegs funcParts) s t :=
  ⟨_, rfl, s.goes_funcReset ..⟩

/-! ### Root ports (R254, R255) -/

theorem execRpPerstRelease_frame (j : Fin 8) (s : State) : ∃ t, execRpPerstRelease j s = .next t ∧ Goes (mask [] [.outputs, .ports]) s t :=
  ⟨_, rfl, Goes.ite ((s.goes_setStage ..).lift (by decide)) (Goes.refl _ s)⟩

/-! ### Ethernet (R257..R259) -/

theorem execEthTxwrWrite_frame (p : Port) (e : Fin 80) (q : Fin 16) (value : Word) (s : State) :
    ∃ t, execEthTxwrWrite p e q value s = .next t ∧ Goes (mask (signals (errors [.LANE_ETH_TXWR])) (signalled [.crossings, .waiting])) s t :=
  ⟨_, rfl, Goes.ite (Goes.refl _ s) (Goes.access (fun t => (Goes.refl _ t).write _ _ _ (by decide)) s _ _ _ _ _ (by decide))⟩

theorem execLaneEthCntRead_frame (p : Port) (e : Fin 80) (s : State) :
    ∃ t, execLaneEthCntRead p e s = .next t ∧ Goes (mask (signals (errors [.LANE_ETH_CNT])) (signalled [.crossings, .waiting])) s t :=
  ⟨_, rfl, Goes.ite (Goes.refl _ s) (Goes.access (fun t => (t.goes_readClear ..).lift (by decide)) s _ _ _ _ _ (by decide))⟩

theorem execSorterInsert_frame (p : Port) (n : Fin 64) (value : Word) (s : State) :
    ∃ t, execSorterInsert p n value s = .next t ∧ Goes (mask (.DEV_ACCESS_ADDR :: .DEV_ACCESS_ERR :: insertRegs) (.crossings :: .insRes :: .waiting
      :: insertParts)) s t :=
  ⟨_, rfl, Goes.accessAt (fun t => (t.goes_commitEntry ..).lift (by decide)) s _ _ _ _ _ _ (by decide)⟩

theorem execFabricSorterInsert_frame (n : Fin 64) (entries : List (BitVec 128)) (s : State) :
    ∃ t, execFabricSorterInsert n entries s = .next t ∧ Goes (mask spaceRegs spaceParts) s t :=
  ⟨_, rfl, s.goes_streamInto ..⟩

theorem execSorterRangeDrop_frame (n : Fin 64) (s : State) : ∃ t, execSorterRangeDrop n s = .next t ∧ Goes (mask spaceRegs spaceParts) s t :=
  ⟨_, rfl, s.goes_rangeDrop ..⟩

theorem execSorterEntryDue_frame (n : Fin 64) (pm : BitVec 64) (s : State) :
    ∃ t, execSorterEntryDue n pm s = .next t ∧ Goes (mask [] [.sorters]) s t :=
  ⟨_, rfl, (s.goes_markDue ..).lift (by decide)⟩

theorem State.goes_sorterTick (s : State) (n : Nat) : Goes (mask spaceRegs spaceParts) s (s.sorterTick n) := by
  unfold State.sorterTick
  extract_lets s1
  have hmarkDue : Goes (mask spaceRegs spaceParts) s s1 := (s.goes_markDue ..).lift (by decide)
  exact Goes.ite (Goes.refl _ s) (Goes.ite hmarkDue (hmarkDue.trans (s1.goes_rangeDrop ..)))

theorem execSorterPop_frame (p : Port) (n : Fin 64) (s : State) :
    ∃ t, execSorterPop p n s = .next t ∧ Goes (mask (.DEV_ACCESS_ADDR :: .DEV_ACCESS_ERR :: spaceRegs) (.crossings :: .waiting :: headParts)) s t :=
  ⟨_, rfl, Goes.access (fun t => (t.goes_readHead ..).lift (by decide)) s _ _ _ _ _ (by decide)⟩

theorem execSorterPeek_frame (p : Port) (n : Fin 64) (s : State) :
    ∃ t, execSorterPeek p n s = .next t ∧ Goes (mask (.DEV_ACCESS_ADDR :: .DEV_ACCESS_ERR :: spaceRegs) (.crossings :: .waiting :: headParts)) s t :=
  ⟨_, rfl, Goes.access (fun t => (t.goes_readHead ..).lift (by decide)) s _ _ _ _ _ (by decide)⟩

theorem execSorterFlush_frame (p : Port) (n : Fin 64) (s : State) :
    ∃ t, execSorterFlush p n s = .next t ∧ Goes (mask (.DEV_ACCESS_ADDR :: .DEV_ACCESS_ERR :: flushRegs) (.crossings :: .waiting :: spaceParts)) s t
      :=
  ⟨_, rfl, Goes.access (fun t => (t.goes_flushCmd ..).lift (by decide)) s _ _ _ _ _ (by decide)⟩

theorem execSorterCtlWrite_frame (p : Port) (n : Fin 64) (value : Word) (s : State) :
    ∃ t, execSorterCtlWrite p n value s = .next t ∧ Goes (mask (.DEV_ACCESS_ADDR :: .DEV_ACCESS_ERR :: controlRegs) (.crossings :: .waiting ::
      stopDomainParts)) s t :=
  ⟨_, rfl, Goes.access (fun t => (t.goes_srtCtl ..).lift (by decide)) s _ _ _ _ _ (by decide)⟩

theorem execSrtErrRead_frame (p : Port) (n : Fin 64) (s : State) :
    ∃ t, execSrtErrRead p n s = .next t ∧ Goes (mask (signals (errors [.SRT_ERR])) (signalled [.crossings, .waiting])) s t :=
  ⟨_, rfl, Goes.access (fun t => (t.goes_readClear ..).lift (by decide)) s _ _ _ _ _ (by decide)⟩

/-! ### Writes to the PIN window -/

theorem execPlacementCellEnable_frame (p : Port) (c : Fin 192) (s : State) :
    ∃ t, execPlacementCellEnable p c s = .next t ∧ Goes (mask (signals (errors [.PIN_GSTAT, .PIN_ICONF, .PIN_OCONF, .PIN_PLC_CTL, .SRT_STAT]))
      (.crossings :: .plcs :: .sorters :: .waiting :: stopDomainParts)) s t :=
  ⟨_, rfl, Goes.pinWrite (fun t => (t.goes_cellEnable ..).lift (by decide)) s _ _ _ _ (by decide)⟩

theorem execPlacementCellDisable_frame (p : Port) (c : Fin 192) (s : State) :
    ∃ t, execPlacementCellDisable p c s = .next t ∧ Goes (mask (signals (errors [.PIN_GSTAT, .PIN_ICONF, .PIN_OCONF, .PIN_PLC_CTL, .SRT_STAT]))
      (.crossings :: .plcs :: .sorters :: .waiting :: stopDomainParts)) s t :=
  ⟨_, rfl, Goes.pinWrite (fun t => (t.goes_cellEnable ..).lift (by decide)) s _ _ _ _ (by decide)⟩

theorem execPinPlcCntRead_frame (p : Port) (c : Fin 192) (s : State) :
    ∃ t, execPinPlcCntRead p c s = .next t ∧ Goes (mask (signals (errors [.PIN_PLC_CNT])) (signalled [.crossings, .waiting])) s t :=
  ⟨_, rfl, Goes.access (fun t => (t.goes_readClear ..).lift (by decide)) s _ _ _ _ _ (by decide)⟩

/-! ### Calibration -/

theorem execIntrinsicDelayMeasure_frame (b : Fin 12) (delay : Nat) (s : State) :
    ∃ t, execIntrinsicDelayMeasure b delay s = .next t ∧ Goes (mask [] [.pins]) s t :=
  ⟨_, rfl, (Goes.refl _ s).set_pins _ (mask_part (by decide))⟩

theorem execPinCalLoad_frame (p : Port) (value : Word) (s : State) :
    ∃ t, execPinCalLoad p value s = .next t ∧ Goes (mask (signals (counting (errors [.PIN_CAL_CMD, .PIN_GSTAT]))) (.crossings :: .waiting ::
      calParts)) s t :=
  ⟨_, rfl, Goes.pinWrite (fun t => (t.goes_calWrite ..).lift (by decide)) s _ _ _ _ (by decide)⟩

/-! ### Outputs -/

theorem execGpioWrite_frame (p : Port) (b : Fin 12) (value : Word) (s : State) :
    ∃ t, execGpioWrite p b value s = .next t ∧ Goes (mask (signals (errors [.PIN_GSTAT, .PIN_OUT])) (.crossings :: .waiting :: stopDomainParts)) s t
      :=
  ⟨_, rfl, Goes.pinWrite (fun t => ((Goes.refl _ t).write _ _ _ (by decide)).step (State.goes_keepLevels _) (by decide)) s _ _ _ _ (by decide)⟩

/-! ### Banks -/

theorem State.goes_setInForce (s : State) (b r : Nat) : Goes (mask [] [.pins]) s (s.setInForce b r) :=
  (Goes.refl _ s).set_pins _ (mask_part (by decide))

theorem execBankRangeWrite_frame (p : Port) (b : Fin 12) (value : Word) (s : State) :
    ∃ t, execBankRangeWrite p b value s = .next t ∧ Goes (mask (.PIN_GSTAT :: bankRegs) (.crossings :: .waiting :: bankParts)) s t :=
  ⟨_, rfl, Goes.pinWrite (fun t => (t.goes_bankCtl ..).lift (by decide)) s _ _ _ _ (by decide)⟩

theorem execBankRangeMismatch_frame (b : Fin 12) (s : State) :
    ∃ t, execBankRangeMismatch b s = .next t ∧ Goes (mask (signals [.PIN_BANK_STAT]) (signalled [])) s t :=
  ⟨_, rfl, Goes.ite (((Goes.refl _ s).write _ _ _ (by decide)).raised _ (by decide)) (Goes.refl _ s)⟩

theorem State.goes_sampleRange (s : State) (b : Nat) : Goes (mask [.PIN_BANK_CTL, .PIN_BANK_STAT] [.pins]) s (s.sampleRange b) :=
  (((Goes.refl _ s).write _ _ _ (by decide)).step (State.goes_setInForce ..) (by decide)).write _ _ _ (by decide)

theorem execBankSupplyRise_frame (b : Fin 12) (nominal : Fin 8) (s : State) :
    ∃ t, execBankSupplyRise b nominal s = .next t ∧ Goes (mask [] [.pins]) s t :=
  ⟨_, rfl, (Goes.refl _ s).set_pins _ (mask_part (by decide))⟩

/-! ### Locks -/

theorem execPinLockArm_frame (p : Port) (value : Word) (s : State) :
    ∃ t, execPinLockArm p value s = .next t ∧ Goes (mask (signals (errors [.PIN_GSTAT])) (signalled [.crossings, .pins, .waiting])) s t :=
  ⟨_, rfl, Goes.access (fun t => (t.goes_lockArm ..).lift (by decide)) s _ _ _ _ _ (by decide)⟩

theorem execPinLockSet_frame (p : Port) (value : Word) (s : State) :
    ∃ t, execPinLockSet p value s = .next t ∧ Goes (mask (signals (errors [.PIN_GSTAT, .PIN_LOCK])) (signalled [.crossings, .pins, .waiting])) s t :=
  ⟨_, rfl, Goes.access (fun t => (t.goes_lockSet ..).lift (by decide)) s _ _ _ _ _ (by decide)⟩

/-! ### PWM and inputs -/

theorem execPwmPeriodStart_frame (i : Fin 32) (s : State) :
    ∃ t, execPwmPeriodStart i s = .next t ∧ Goes (mask (signals [.PIN_GSTAT, .PIN_ICONF, .PIN_OCONF]) stopDomainParts) s t :=
  ⟨_, rfl, Goes.engine (fun t => (t.goes_pwmTick ..).lift (by decide))⟩

theorem State.goes_pwmOff (s : State) (i : Nat) : Goes (mask (signals [.PIN_GSTAT, .PIN_ICONF, .PIN_OCONF]) stopDomainParts) s (s.pwmOff i) :=
  ((Goes.refl _ s).set_pins _ (mask_part (by decide))).step (State.goes_refreshPins _) (by decide)

theorem State.goes_pwmPer (s : State) (i v : Nat) :
    Goes (mask (signals [.PIN_GSTAT, .PIN_ICONF, .PIN_OCONF, .PIN_PWM_PER]) stopDomainParts) s (s.pwmPer i v) := by
  unfold State.pwmPer
  extract_lets s1
  have hper : Goes (mask (signals [.PIN_GSTAT, .PIN_ICONF, .PIN_OCONF, .PIN_PWM_PER]) stopDomainParts) s s1 := (Goes.refl _ s).write _ _ _ (by decide)
  exact Goes.ite (hper.step (s1.goes_pwmOff ..) (by decide)) (Goes.ite (hper.set_pins _ (mask_part (by decide))) hper)

theorem State.goes_pwmHi (s : State) (i v : Nat) : Goes (mask [.PIN_PWM_HI] [.pins]) s (s.pwmHi i v) := by
  unfold State.pwmHi
  extract_lets s1
  have hhi : Goes (mask [.PIN_PWM_HI] [.pins]) s s1 := (Goes.refl _ s).write _ _ _ (by decide)
  exact Goes.ite (hhi.set_pins _ (mask_part (by decide))) hhi

theorem execPinInputChange_frame (p : Fin 192) (drive : Option Bool) (s : State) :
    ∃ t, execPinInputChange p drive s = .next t ∧ Goes (mask [.PIN_IN] padParts) s t :=
  ⟨_, rfl, (((Goes.refl _ s).set_pins _ (mask_part (by decide))).step (State.goes_sampleBank ..) (by decide)).step (State.goes_keepLevels _)
      (by decide)⟩

theorem State.goes_pinTick (s : State) : Goes (mask (signals [.PIN_GSTAT, .PIN_ICONF, .PIN_OCONF]) stopDomainParts) s s.pinTick := by
  unfold State.pinTick
  extract_lets s1
  have hcommandBanks : Goes (mask (signals [.PIN_GSTAT, .PIN_ICONF, .PIN_OCONF]) stopDomainParts) s s1 :=
      ((Goes.refl _ s).each _ _ fun _ t => (t.goes_pwmTick ..).lift (by decide)).step (State.goes_commandBanks _) (by decide)
  exact hcommandBanks.when _ _ fun t => (t.goes_keepLevels).lift (by decide)

/-! ### AXIS (R398) -/

/-- The registers of `axisSetupLetter`. -/
def axisSetupLetterRegs : List Reg := .EVT_LOG_LOST :: .EVT_LOG_STAT :: .EVT_PEND :: .PERF_CNT :: .PERF_OVF :: .PST_MB_EVT :: .PST_MB_RPL ::
  .PST_MB_STAT :: axisSetupRegs

theorem State.goes_axisSetupLetter (s : State) (L : Letter) : Goes (mask axisSetupLetterRegs (signalled [.svc])) s (s.axisSetupLetter L) :=
  Goes.serveIn (fun _ t => (goes_svcAxisSetup ..).lift (by decide)) s _ _ _ (by decide)

theorem execAxisSetup_frame (L : Letter) (s : State) : ∃ t, execAxisSetup L s = .next t ∧ Goes (mask axisSetupLetterRegs (signalled [.svc])) s t :=
  ⟨_, rfl, s.goes_axisSetupLetter ..⟩

theorem State.goes_axisStartLetter (s : State) (L : Letter) :
    Goes (mask (.POS_AX_LOAD :: .POS_AX_LOAD_EPOCH :: commandRegs) (.svc :: commandParts)) s (s.axisStartLetter L) :=
  Goes.serveIn (fun _ t => goes_axisLoadService (fun u _ => (u.goes_axisStart ..).lift (by decide)) (by decide) (by decide) ..) s _ _ _ (by decide)

theorem execAxisStart_frame (L : Letter) (s : State) :
    ∃ t, execAxisStart L s = .next t ∧ Goes (mask (.POS_AX_LOAD :: .POS_AX_LOAD_EPOCH :: commandRegs) (.svc :: commandParts)) s t :=
  ⟨_, rfl, s.goes_axisStartLetter ..⟩

theorem State.goes_axisRecoverLetter (s : State) (L : Letter) :
    Goes (mask (.POS_AX_LOAD :: .POS_AX_LOAD_EPOCH :: commandRegs) (.svc :: commandParts)) s (s.axisRecoverLetter L) :=
  Goes.serveIn (fun _ t => goes_axisLoadService (fun u _ => (u.goes_axisRecover ..).lift (by decide)) (by decide) (by decide) ..) s _ _ _ (by decide)

theorem execAxisRecover_frame (L : Letter) (s : State) :
    ∃ t, execAxisRecover L s = .next t ∧ Goes (mask (.POS_AX_LOAD :: .POS_AX_LOAD_EPOCH :: commandRegs) (.svc :: commandParts)) s t :=
  ⟨_, rfl, s.goes_axisRecoverLetter ..⟩

theorem goes_svcAxisStop (L : Letter) (a1 : List Byte) (s : State) : Goes (mask commandRegs commandParts) s (svcAxisStop L a1 s).1 :=
  goes_axisService (fun _ _ t => (by
  refine Goes.iteFst (Goes.refl _ t) ?_
  split
  · exact Goes.refl _ t
  · exact t.goes_axisStop ..)) ..

theorem State.goes_axisStopLetter (s : State) (L : Letter) : Goes (mask commandRegs (.svc :: commandParts)) s (s.axisStopLetter L) :=
  Goes.serveIn (fun _ t => (goes_svcAxisStop ..).lift (by decide)) s _ _ _ (by decide)

theorem execAxisStop_frame (L : Letter) (s : State) : ∃ t, execAxisStop L s = .next t ∧ Goes (mask commandRegs (.svc :: commandParts)) s t :=
  ⟨_, rfl, s.goes_axisStopLetter ..⟩

theorem goes_svcAxisQuery (L : Letter) (a1 : List Byte) (s : State) : Goes (mask [] []) s (svcAxisQuery L a1 s).1 :=
  goes_axisService (fun _ _ t => Goes.iteFst (Goes.refl _ t) (Goes.refl _ t)) ..

theorem State.goes_axisQueryLetter (s : State) (L : Letter) : Goes completeMask s (s.axisQueryLetter L) :=
  Goes.serveIn (fun _ t => (goes_svcAxisQuery ..).lift (by decide)) s _ _ _ (by decide)

theorem execAxisQuery_frame (L : Letter) (s : State) : ∃ t, execAxisQuery L s = .next t ∧ Goes completeMask s t :=
  ⟨_, rfl, s.goes_axisQueryLetter ..⟩

/-! ### PIN (R399, R400) -/

theorem goes_svcPinCalibrate (L : Letter) (a1 : List Byte) (s : State) : Goes (mask (signals [.PIN_CAL_CMD]) calParts) s (svcPinCalibrate L a1 s).1 := by
  unfold svcPinCalibrate
  extract_lets
  refine Goes.iteFst (Goes.refl _ s) ?_
  refine Goes.iteFst (Goes.refl _ s) ?_
  split
  · exact Goes.refl _ s
  · exact Goes.iteFst (Goes.refl _ s) (((s.goes_calBegin ..).lift (by decide)).step (goes_accepted ..) (by decide))

theorem State.goes_calibrateLetter (s : State) (L : Letter) : Goes (mask (signals (counting [.PIN_CAL_CMD])) calParts) s (s.calibrateLetter L) := by
  unfold State.calibrateLetter
  extract_lets s1
  have hserveIn : Goes (mask (signals (counting [.PIN_CAL_CMD])) calParts) s s1 :=
      Goes.serveIn (fun _ t => (goes_svcPinCalibrate ..).lift (by decide)) s _ _ _ (by decide)
  exact Goes.ite (hserveIn.step (s1.goes_calDone) (by decide)) hserveIn

theorem execPinCalibrate_frame (L : Letter) (s : State) :
    ∃ t, execPinCalibrate L s = .next t ∧ Goes (mask (signals (counting [.PIN_CAL_CMD])) calParts) s t :=
  ⟨_, rfl, s.goes_calibrateLetter ..⟩

theorem State.goes_setHeater (s : State) (i : Nat) (h : Heater) : Goes (mask [] [.heaters]) s (s.setHeater i h) :=
  (Goes.refl _ s).set_heaters _ (mask_part (by decide))

theorem goes_svcHeaterSet (L : Letter) (a1 : List Byte) (s : State) :
    Goes (mask (signals [.PIN_GSTAT, .PIN_ICONF, .PIN_OCONF, .PIN_PWM_PER]) (.heaters :: stopDomainParts)) s (svcHeaterSet L a1 s).1 := by
  unfold svcHeaterSet
  extract_lets _ _ _ _ _ _ s1
  have hsetHeater : Goes (mask (signals [.PIN_GSTAT, .PIN_ICONF, .PIN_OCONF, .PIN_PWM_PER]) (.heaters :: stopDomainParts)) s s1 :=
      (s.goes_setHeater ..).lift (by decide)
  exact Goes.iteFst (Goes.refl _ s) (hsetHeater.step (s1.goes_pwmPer ..) (by decide))

theorem State.goes_heaterLetter (s : State) (L : Letter) :
    Goes (mask (signals (counting [.PIN_GSTAT, .PIN_ICONF, .PIN_OCONF, .PIN_PWM_PER])) (.heaters :: switchParts)) s (s.heaterLetter L) :=
  Goes.serveIn (fun _ t => (goes_svcHeaterSet ..).lift (by decide)) s _ _ _ (by decide)

theorem execPinHeaterSet_frame (L : Letter) (s : State) :
    ∃ t, execPinHeaterSet L s = .next t ∧ Goes (mask (signals (counting [.PIN_GSTAT, .PIN_ICONF, .PIN_OCONF, .PIN_PWM_PER])) (.heaters ::
      switchParts)) s t :=
  ⟨_, rfl, s.goes_heaterLetter ..⟩

theorem goes_svcHeaterQuery (L : Letter) (a1 : List Byte) (s : State) : Goes (mask [] []) s (svcHeaterQuery L a1 s).1 :=
  Goes.iteFst (Goes.refl _ s) (Goes.refl _ s)

theorem execPinHeaterQuery_frame (L : Letter) (s : State) : ∃ t, execPinHeaterQuery L s = .next t ∧ Goes countMask s t :=
  ⟨_, rfl, Goes.serve (fun _ t => (goes_svcHeaterQuery ..).lift (by decide)) s _ _ _ (by decide)⟩

theorem State.goes_heatersLow (s : State) : Goes (mask (signals [.PIN_GSTAT, .PIN_ICONF, .PIN_OCONF, .PIN_PWM_HI]) stopDomainParts) s s.heatersLow :=
  Goes.ite (Goes.refl _ s) (((Goes.refl _ s).each _ _ fun _ t => ((t.goes_pwmHi ..).lift (by decide)).set_pins _ (mask_part (by decide))).step
      (State.goes_refreshPins _) (by decide))

theorem State.goes_heaterStep (s : State) (h : Heater) (code : Nat) : Goes (mask [] [.freeValues]) s (s.heaterStep h code).1 := by
  unfold State.heaterStep
  extract_lets _ _ r
  have hroundFree : Goes (mask [] [.freeValues]) s r.1 := (s.goes_roundFree ..).lift (by decide)
  exact hroundFree

theorem execHeaterPeriod_frame (i : Fin 32) (s : State) :
    ∃ t, execHeaterPeriod i s = .next t ∧ Goes (mask (signals [.PIN_PWM_HI, .PIN_PWM_PER]) (signalled [.heaters, .pins])) s t := by
  refine ⟨_, rfl, ?_⟩
  extract_lets _ s1 _ r q
  have hper : Goes (mask (signals [.PIN_PWM_HI, .PIN_PWM_PER]) (signalled [.heaters, .pins])) s s1 := (Goes.refl _ s).write _ _ _ (by decide)
  have hheaterStep : Goes (mask (signals [.PIN_PWM_HI, .PIN_PWM_PER]) (signalled [.heaters, .pins])) s r.1 :=
      hper.step (s1.goes_heaterStep ..) (by decide)
  have hroundFree : Goes (mask (signals [.PIN_PWM_HI, .PIN_PWM_PER]) (signalled [.heaters, .pins])) s q.1 :=
      hheaterStep.step (State.goes_roundFree ..) (by decide)
  exact Goes.ite (Goes.refl _ s) (Goes.ite (((hper.step (s1.goes_setHeater ..) (by decide)).step (State.goes_pwmHi ..) (by decide)).raised _
      (by decide)) ((hroundFree.step (State.goes_setHeater ..) (by decide)).step (State.goes_pwmHi ..) (by decide)))

theorem execHeaterAlarm_frame (i : Fin 32) (s : State) : ∃ t, execHeaterAlarm i s = .next t ∧ Goes (mask (signals []) (signalled [.heaters])) s t :=
  ⟨_, rfl, Goes.ite (((s.goes_setHeater ..).lift (by decide)).raised _ (by decide)) (Goes.refl _ s)⟩

/-! ### LINK (R401) -/

theorem goes_svcEthQueue (L : Letter) (a1 : List Byte) (s : State) : Goes (mask [] [.ports]) s (svcEthQueue L a1 s).1 :=
  Goes.iteFst (Goes.refl _ s) (Goes.iteFst (Goes.refl _ s) (Goes.iteFst (Goes.refl _ s) ((Goes.refl _ s).set_ports _ (mask_part (by decide)))))

theorem State.goes_ethQueueLetter (s : State) (L : Letter) : Goes (mask (signals (counting [])) (signalled [.ports, .svc])) s (s.ethQueueLetter L) :=
  Goes.serveIn (fun _ t => (goes_svcEthQueue ..).lift (by decide)) s _ _ _ (by decide)

theorem execLinkEthQueue_frame (L : Letter) (s : State) :
    ∃ t, execLinkEthQueue L s = .next t ∧ Goes (mask (signals (counting [])) (signalled [.ports, .svc])) s t :=
  ⟨_, rfl, s.goes_ethQueueLetter ..⟩

theorem goes_svcEthSteer (L : Letter) (a1 : List Byte) (s : State) : Goes (mask [] [.ports]) s (svcEthSteer L a1 s).1 :=
  Goes.iteFst (Goes.refl _ s) ((Goes.refl _ s).set_ports _ (mask_part (by decide)))

theorem State.goes_ethSteerLetter (s : State) (L : Letter) : Goes (mask (signals (counting [])) (signalled [.ports, .svc])) s (s.ethSteerLetter L) :=
  Goes.serveIn (fun _ t => (goes_svcEthSteer ..).lift (by decide)) s _ _ _ (by decide)

theorem execLinkEthSteer_frame (L : Letter) (s : State) :
    ∃ t, execLinkEthSteer L s = .next t ∧ Goes (mask (signals (counting [])) (signalled [.ports, .svc])) s t :=
  ⟨_, rfl, s.goes_ethSteerLetter ..⟩

theorem goes_svcLinkQuery (L : Letter) (a1 : List Byte) (s : State) : Goes (mask [] []) s (svcLinkQuery L a1 s).1 :=
  Goes.iteFst (Goes.refl _ s) (Goes.refl _ s)

theorem State.goes_linkQueryLetter (s : State) (L : Letter) : Goes completeMask s (s.linkQueryLetter L) :=
  Goes.serveIn (fun _ t => (goes_svcLinkQuery ..).lift (by decide)) s _ _ _ (by decide)

theorem execLinkQuery_frame (L : Letter) (s : State) : ∃ t, execLinkQuery L s = .next t ∧ Goes completeMask s t :=
  ⟨_, rfl, s.goes_linkQueryLetter ..⟩

theorem execChannelCreate_frame (L : Letter) (s : State) : ∃ t, execChannelCreate L s = .next t ∧ Goes doneMask s t :=
  ⟨_, rfl, Goes.serve (fun _ t => goes_svcChannelCreate ..) s _ _ _ (by decide)⟩

theorem execChannelBind_frame (L : Letter) (s : State) : ∃ t, execChannelBind L s = .next t ∧ Goes (mask changeRegs changeParts) s t :=
  ⟨_, rfl, Goes.serve (fun _ t => goes_svcChannelBind ..) s _ _ _ (by decide)⟩

theorem execChannelUnbind_frame (L : Letter) (s : State) : ∃ t, execChannelUnbind L s = .next t ∧ Goes (mask unbindRegs changeParts) s t :=
  ⟨_, rfl, Goes.serve (fun _ t => goes_svcChannelUnbind ..) s _ _ _ (by decide)⟩

theorem execChannelRebind_frame (L : Letter) (s : State) : ∃ t, execChannelRebind L s = .next t ∧ Goes (mask changeRegs changeParts) s t :=
  ⟨_, rfl, Goes.serve (fun _ t => goes_svcChannelRebind ..) s _ _ _ (by decide)⟩

theorem execChannelStart_frame (L : Letter) (map : List Byte) (s : State) :
    ∃ t, execChannelStart L map s = .next t ∧ Goes (mask startRegs startParts) s t :=
  ⟨_, rfl, (Goes.serve (fun _ t => goes_svcChannelStart ..) s _ _ _ (by decide)).step (State.goes_heldStart ..) (by decide)⟩

theorem execChannelHold_frame (L : Letter) (s : State) : ∃ t, execChannelHold L s = .next t ∧ Goes (mask inhibitRegs inhibitParts) s t :=
  ⟨_, rfl, Goes.serve (fun _ t => goes_svcChannelHold ..) s _ _ _ (by decide)⟩

theorem execChannelResume_frame (L : Letter) (s : State) : ∃ t, execChannelResume L s = .next t ∧ Goes (mask resumeRegs resumeParts) s t :=
  ⟨_, rfl, (Goes.serve (fun _ t => goes_svcChannelResume ..) s _ _ _ (by decide)).step (State.goes_resumed ..) (by decide)⟩

theorem execChannelDrain_frame (L : Letter) (s : State) : ∃ t, execChannelDrain L s = .next t ∧ Goes doneMask s t :=
  ⟨_, rfl, Goes.serve (fun _ t => goes_svcChannelDrain ..) s _ _ _ (by decide)⟩

theorem execChannelAbort_frame (L : Letter) (s : State) : ∃ t, execChannelAbort L s = .next t ∧ Goes (mask inhibitRegs abortParts) s t :=
  ⟨_, rfl, Goes.serve (fun _ t => goes_svcChannelAbort ..) s _ _ _ (by decide)⟩

theorem execAbortComplete_frame (c : Fin 1024) (s : State) : ∃ t, execAbortComplete c s = .next t ∧ Goes (mask freeRegs resumeParts) s t :=
  ⟨_, rfl, Goes.ite ((s.goes_finish ..).lift (by decide)) (Goes.refl _ s)⟩

theorem execDrainComplete_frame (c : Fin 1024) (s : State) : ∃ t, execDrainComplete c s = .next t ∧ Goes (mask freeRegs resumeParts) s t :=
  ⟨_, rfl, Goes.ite ((s.goes_drainDone ..).lift (by decide)) (Goes.refl _ s)⟩

theorem execChannelQuery_frame (L : Letter) (s : State) : ∃ t, execChannelQuery L s = .next t ∧ Goes countMask s t :=
  ⟨_, rfl, Goes.serve (fun _ t => goes_svcChannelQuery ..) s _ _ _ (by decide)⟩

theorem execChannelSetMode_frame (L : Letter) (s : State) : ∃ t, execChannelSetMode L s = .next t ∧ Goes (mask modeRegs modeParts) s t :=
  ⟨_, rfl, Goes.serve (fun _ t => goes_svcChannelSetMode ..) s _ _ _ (by decide)⟩

theorem execSwitchComplete_frame (c : Fin 1024) (s : State) : ∃ t, execSwitchComplete c s = .next t ∧ Goes (mask changeRegs changeParts) s t :=
  ⟨_, rfl, Goes.ite (s.goes_switchDone ..) (Goes.refl _ s)⟩

theorem execBindingCheck_frame (c : Fin 1024) (s : State) : ∃ t, execBindingCheck c s = .next t ∧ Goes (mask inhibitRegs inhibitParts) s t :=
  ⟨_, rfl, Goes.ite (s.goes_inhibit ..) (Goes.refl _ s)⟩

theorem execUnderrunReport_frame (c : Fin 1024) (s : State) :
    ∃ t, execUnderrunReport c s = .next t ∧ Goes (mask (signals (counting [])) (signalled [.chans, .timers])) s t :=
  ⟨_, rfl, Goes.ite (((s.goes_reportNotice ..).lift (by decide)).step (State.goes_startTimer ..) (by decide)) (Goes.refl _ s)⟩

/-! ### Event sources -/

theorem execEventRaise_frame (src : Fin 256) (s : State) : ∃ t, execEventRaise src s = .next t ∧ Goes raiseMask s t :=
  ⟨_, rfl, (Goes.refl _ s).raised _ (by decide)⟩

theorem State.goes_userEvents (s : State) (v : Nat) : Goes raiseMask s (s.userEvents v) :=
  (Goes.refl _ s).each _ _ fun _ t => (Goes.refl _ t).raised _ (by decide)

theorem execEvtUserWrite_frame (p : Port) (value : Word) (s : State) :
    ∃ t, execEvtUserWrite p value s = .next t ∧ Goes (mask (signals (errors [])) (signalled [.crossings, .waiting])) s t :=
  ⟨_, rfl, Goes.access (fun t => (t.goes_userEvents ..).lift (by decide)) s _ _ _ _ _ (by decide)⟩

/-! ### Performance counters -/

theorem State.goes_perfSel (s : State) (i v : Nat) : Goes (mask (counting [.PERF_SEL]) []) s (s.perfSel i v) := by
  unfold State.perfSel
  extract_lets s1
  have hthresh : Goes (mask (counting [.PERF_SEL]) []) s s1 :=
      ((((((Goes.refl _ s).write _ _ _ (by decide)).write _ _ _ (by decide)).write _ _ _ (by decide)).write _ _ _ (by decide)).write _ _ _
        (by decide)).write _ _ _ (by decide)
  exact hthresh.when _ _ fun t => (((Goes.refl _ t).write _ _ _ (by decide)).write _ _ _ (by decide)).putBit _ _ _ _ (mask_reg (by decide))

theorem execPerfClear_frame (p : Port) (i : Fin 256) (value : Word) (s : State) :
    ∃ t, execPerfClear p i value s = .next t ∧ Goes (mask (signals (counting (errors [.PERF_SEL]))) (signalled [.crossings, .waiting])) s t :=
  ⟨_, rfl, Goes.access (fun t => (t.goes_perfSel ..).lift (by decide)) s _ _ _ _ _ (by decide)⟩

theorem execPerfWrap_frame (i : Fin 256) (n : Fin 65) (s : State) : ∃ t, execPerfWrap i n s = .next t ∧ Goes countMask s t :=
  ⟨_, rfl, Goes.ite (s.goes_perfAdd ..) (Goes.refl _ s)⟩

theorem execPerfCountRead_frame (p : Port) (i : Fin 256) (s : State) :
    ∃ t, execPerfCountRead p i s = .next t ∧ Goes (mask (signals (errors [])) (signalled [.crossings, .shadows, .waiting])) s t :=
  ⟨_, rfl, Goes.access (fun t => (t.goes_wideRead ..).lift (by decide)) s _ _ _ _ _ (by decide)⟩

theorem State.goes_sample (s : State) (i : Nat) : Goes countMask s (s.sample i) := by
  unfold State.sample
  split
  · exact Goes.refl _ s
  · exact s.goes_notice ..

theorem execPerfSample_frame (i : Fin 256) (s : State) : ∃ t, execPerfSample i s = .next t ∧ Goes countMask s t :=
  ⟨_, rfl, s.goes_sample ..⟩

theorem State.goes_unclaim (s : State) (i : Nat) : Goes countMask s (s.unclaim i) := by
  unfold State.unclaim
  extract_lets s1
  have hsample : Goes countMask s s1 := s.goes_sample ..
  exact hsample.set_evt _ (mask_part (by decide))

theorem goes_svcPerfClaim (L : Letter) (a1 : List Byte) (s : State) : Goes (mask [] [.evt]) s (svcPerfClaim L a1 s).1 :=
  Goes.iteFst (Goes.refl _ s) (Goes.iteFst (Goes.refl _ s) (Goes.iteFst ((Goes.refl _ s).set_evt _ (mask_part (by decide))) (Goes.refl _ s)))

theorem execPerfClaim_frame (L : Letter) (s : State) : ∃ t, execPerfClaim L s = .next t ∧ Goes countMask s t :=
  ⟨_, rfl, Goes.serve (fun _ t => (goes_svcPerfClaim ..).lift (by decide)) s _ _ _ (by decide)⟩

theorem goes_svcPerfRelease (L : Letter) (a1 : List Byte) (s : State) : Goes countMask s (svcPerfRelease L a1 s).1 :=
  Goes.iteFst (Goes.refl _ s) (Goes.iteFst (Goes.refl _ s) (Goes.iteFst (s.goes_unclaim ..) (Goes.refl _ s)))

theorem execPerfRelease_frame (L : Letter) (s : State) : ∃ t, execPerfRelease L s = .next t ∧ Goes countMask s t :=
  ⟨_, rfl, Goes.serve (fun _ t => goes_svcPerfRelease ..) s _ _ _ (by decide)⟩

theorem State.goes_unclaimClass (s : State) (p : Nat → Bool) : Goes countMask s (s.unclaimClass p) :=
  (Goes.refl _ s).each _ _ fun _ t => t.goes_unclaim ..

theorem goes_svcPerfUser (L : Letter) (a1 : List Byte) (s : State) :
    Goes (mask (signals (counting [.PERF_USER_EN])) (signalled [])) s (svcPerfUser L a1 s).1 := by
  unfold svcPerfUser
  extract_lets _ s1 s2
  have hunclaimClass : Goes (mask (signals (counting [.PERF_USER_EN])) (signalled [])) s s1 :=
      (Goes.refl _ s).when _ _ fun t => (t.goes_unclaimClass ..).lift (by decide)
  have hunclaimClass2 : Goes (mask (signals (counting [.PERF_USER_EN])) (signalled [])) s s2 :=
      hunclaimClass.when _ _ fun t => (t.goes_unclaimClass ..).lift (by decide)
  exact Goes.iteFst (Goes.refl _ s) ((hunclaimClass2.write _ _ _ (by decide)).write _ _ _ (by decide))

theorem execPerfUser_frame (L : Letter) (s : State) :
    ∃ t, execPerfUser L s = .next t ∧ Goes (mask (signals (counting [.PERF_USER_EN])) (signalled [])) s t :=
  ⟨_, rfl, Goes.serve (fun _ t => goes_svcPerfUser ..) s _ _ _ (by decide)⟩

/-! ### The logbook -/

theorem State.goes_setWaiting (s : State) : Goes (mask [.EVT_LOG_STAT] []) s s.setWaiting :=
  (Goes.refl _ s).write _ _ _ (by decide)

theorem State.goes_letIn (s : State) : Goes routeMask s s.letIn := by
  unfold State.letIn
  extract_lets
  split
  · exact Goes.refl _ s
  · exact Goes.ite (((Goes.refl _ s).set_evt _ (mask_part (by decide))).trans (State.goes_setQueue ..)) (Goes.refl _ s)

theorem State.goes_lostRecord (s : State) : Goes raiseMask s s.lostRecord := by
  unfold State.lostRecord
  extract_lets _ s1
  have hevt : Goes raiseMask s s1 := (Goes.refl _ s).set_evt _ (mask_part (by decide))
  split
  · exact Goes.refl _ s
  · exact (hevt.step (s1.goes_setQueue ..) (by decide)).raised _ (by decide)

theorem State.goes_writeRecord (s : State) (r : LogRec) (rest : List LogRec) :
    Goes (mask (.EVT_LOG_NEWEST :: .EVT_LOG_OLDEST :: flashRegs) (signalled [.config])) s (s.writeRecord r rest) := by
  unfold State.writeRecord
  extract_lets _ _ _ _ s1 s2 s3 s4
  have hevt : Goes (mask (.EVT_LOG_NEWEST :: .EVT_LOG_OLDEST :: flashRegs) (signalled [.config])) s s1 :=
      (Goes.refl _ s).set_evt _ (mask_part (by decide))
  have hstartErase : Goes (mask (.EVT_LOG_NEWEST :: .EVT_LOG_OLDEST :: flashRegs) (signalled [.config])) s s2 :=
      hevt.when _ _ fun t => ((t.goes_program ..).lift (by decide)).step (State.goes_startErase ..) (by decide)
  have hseq : Goes (mask (.EVT_LOG_NEWEST :: .EVT_LOG_OLDEST :: flashRegs) (signalled [.config])) s s3 :=
      (hstartErase.write _ _ _ (by decide)).write _ _ _ (by decide)
  have hsetQueue : Goes (mask (.EVT_LOG_NEWEST :: .EVT_LOG_OLDEST :: flashRegs) (signalled [.config])) s s4 :=
      (hseq.write _ _ _ (by decide)).step (State.goes_setQueue ..) (by decide)
  exact ((hsetQueue.step (s4.goes_lostRecord) (by decide)).step (State.goes_letIn _) (by decide)).step (State.goes_setWaiting _) (by decide)

theorem State.goes_stopLog (s : State) : Goes raiseMask s s.stopLog :=
  ((Goes.refl _ s).write _ _ _ (by decide)).raised _ (by decide)

theorem execLogRecordWrite_frame (r : ProgResult) (s : State) :
    ∃ t, execLogRecordWrite r s = .next t ∧ Goes (mask (.EVT_LOG_NEWEST :: .EVT_LOG_OLDEST :: flashRegs) (signalled [.config])) s t := by
  refine ⟨_, rfl, ?_⟩
  split
  · exact Goes.refl _ s
  · exact Goes.ite (Goes.refl _ s) (Goes.ite ((s.goes_stopLog).lift (by decide)) (Goes.ite (((s.goes_areaReadOnly ..).lift (by decide)).step
      (State.goes_stopLog _) (by decide)) (Goes.ite ((s.goes_setWaiting).lift (by decide)) ((Goes.ite ((s.goes_retire ..).lift (by decide))
      (Goes.refl _ s)).trans (State.goes_writeRecord ..)))))

theorem execLogAllowanceTick_frame (s : State) : ∃ t, execLogAllowanceTick s = .next t ∧ Goes (mask [.EVT_LOG_STAT] []) s t :=
  ⟨_, rfl, ((Goes.refl _ s).write _ _ _ (by decide)).trans (State.goes_setWaiting _)⟩

theorem execEvtLogLostRead_frame (p : Port) (s : State) :
    ∃ t, execEvtLogLostRead p s = .next t ∧ Goes (mask (signals (errors [])) (signalled [.crossings, .waiting])) s t :=
  ⟨_, rfl, Goes.access (fun t => (t.goes_readClear ..).lift (by decide)) s _ _ _ _ _ (by decide)⟩

theorem goes_svcLogRead (L : Letter) (a1 : List Byte) (s : State) : Goes (mask [.CFG_NVM_STAT] []) s (svcLogRead L a1 s).1 :=
  Goes.iteFst (Goes.refl _ s) (Goes.iteFst (Goes.refl _ s) ((Goes.refl _ s).when _ _ fun t => (t.goes_suspendErases).lift (by decide)))

theorem execLogRead_frame (L : Letter) (s : State) :
    ∃ t, execLogRead L s = .next t ∧ Goes (mask (signals (counting [.CFG_NVM_STAT])) (signalled [])) s t :=
  ⟨_, rfl, Goes.serve (fun _ t => (goes_svcLogRead ..).lift (by decide)) s _ _ _ (by decide)⟩

theorem goes_svcLogRoute (L : Letter) (a1 : List Byte) (s : State) : Goes (mask [] [.evt]) s (svcLogRoute L a1 s).1 :=
  Goes.iteFst (Goes.refl _ s) ((Goes.refl _ s).set_evt _ (mask_part (by decide)))

theorem execLogRoute_frame (L : Letter) (s : State) : ∃ t, execLogRoute L s = .next t ∧ Goes countMask s t :=
  ⟨_, rfl, Goes.serve (fun _ t => (goes_svcLogRoute ..).lift (by decide)) s _ _ _ (by decide)⟩

theorem State.goes_startRecord (s : State) : Goes routeMask s s.startRecord :=
  s.goes_setQueue ..

theorem State.goes_loseQueue (s : State) (keepCount : Bool) : Goes routeMask s (s.loseQueue keepCount) :=
  (((Goes.refl _ s).set_evt _ (mask_part (by decide))).trans (State.goes_setQueue ..)).write _ _ _ (by decide)
end Sys2Proof.Machine
end

section
/-! PROOFS. Every register but that of the life cycle; the settings that the Franker holds, as frames. -/

namespace Sys2Proof.Machine

-- One proof after another: side by side they need more memory than a check has.
set_option Elab.async false

/-! ### Every register but that of the life cycle -/

theorem Reg.mem_all (r : Reg) : r ∈ Reg.all := by cases r <;> decide

/-- Every list of registers lies within the list of all. -/
theorem inside_all {rs : List Reg} {ps qs : List Part} (h : ps ⊆ qs := by decide) : Inside rs ps Reg.all qs := ⟨fun r _ => r.mem_all, h⟩

/-- Every register but DEV_LC, which shows the fuses (R501). -/
def Reg.most : List Reg := Reg.all.filter (· != .DEV_LC)

theorem Reg.mem_most {r : Reg} (h : (r == .DEV_LC) = false) : r ∈ Reg.most :=
  List.mem_filter.mpr ⟨r.mem_all, by rw [bne, h]; rfl⟩

/-- A list without DEV_LC lies within the list of the others. -/
theorem inside_most {rs : List Reg} {ps qs : List Part} (h : .DEV_LC ∉ rs := by decide) (hp : ps ⊆ qs := by decide) : Inside rs ps Reg.most qs :=
  ⟨fun _ hr => Reg.mem_most (beq_eq_false_iff_ne.mpr fun e => h (e ▸ hr)), hp⟩

theorem inside_trans {rs qs us : List Reg} {ps os vs : List Part} (h : Inside rs ps qs os) (k : Inside qs os us vs) : Inside rs ps us vs :=
  ⟨List.Subset.trans h.1 k.1, List.Subset.trans h.2 k.2⟩

/-! ### Held settings (R548, R550) -/

/-- DEV_LC answers in no domain that stops. -/
theorem heldDomain_some {h : HeldSetting} {d : Nat} (hd : heldDomain h = some d) : (h.1.spec.reg == .DEV_LC) = false := by
  refine beq_eq_false_iff_ne.mpr fun e => ?_
  have hnone : heldDomain h = none := by
    unfold heldDomain
    rw [e]
    rfl
  rw [hnone] at hd
  cases hd

theorem State.heldSettings_reg (s : State) {h : HeldSetting} (hh : h ∈ s.heldSettings) : (h.1.spec.reg == .DEV_LC) = false := by
  rw [State.heldSettings, List.mem_append, List.mem_append, List.mem_append] at hh
  rcases hh with ((hh | hh) | hh) | hh
  · simp only [State.heldInputs, List.mem_cons, List.not_mem_nil, or_false] at hh
    rcases hh with rfl | rfl | rfl | rfl | rfl | rfl <;> rfl
  · simp only [State.heldSorter, List.mem_cons, List.not_mem_nil, or_false] at hh
    rcases hh with rfl | rfl | rfl | rfl | rfl | rfl | rfl | rfl <;> rfl
  · split at hh
    · obtain ⟨p, -, hp⟩ := List.mem_flatMap.mp hh
      simp only [List.mem_cons, List.not_mem_nil, or_false] at hp
      rcases hp with rfl | rfl | rfl | rfl <;> rfl
    · cases hh
  · have hring (r : Nat) (c : Bool) (hc : h ∈ if c then
        ([(.LNK_RING_CTL_JOIN, r, 1), (.LNK_RING_CTL_RATE, r, 0), (.LNK_RING_CTL_STOP_AXES, r, 1)] : List HeldSetting) else []) :
        (h.1.spec.reg == .DEV_LC) = false := by
      split at hc
      · simp only [List.mem_cons, List.not_mem_nil, or_false] at hc
        rcases hc with rfl | rfl | rfl <;> rfl
      · cases hc
    simp only [State.heldLinks, List.mem_append] at hh
    rcases hh with (hh | hh) | hh
    · split at hh
      · simp only [List.mem_cons, List.not_mem_nil, or_false] at hh
        rcases hh with rfl | rfl | rfl | rfl | rfl | rfl <;> rfl
      · cases hh
    · exact hring 0 _ hh
    · exact hring 1 _ hh

theorem State.goes_setFranker (s : State) (g : FrankerState → FrankerState) : Goes (mask [] [.franker]) s (s.setFranker g) :=
  (Goes.refl _ s).set_franker _ (mask_part (by decide))

theorem State.goes_frankerAxisStart (s : State) : Goes (mask (.POS_AX_LOAD :: commandRegs) commandParts) s s.frankerAxisStart :=
  Goes.ite (((Goes.refl _ s).write _ _ _ (by decide)).step (State.goes_axisStart ..) (by decide)) (Goes.refl _ s)

/-- The parts of a held setting. -/
def holdParts : List Part := .axes :: .franker :: .rings :: .store :: .strobeAt :: .svc :: laneResetParts

theorem State.goes_holdNow (s : State) (h : HeldSetting) (hh : (h.1.spec.reg == .DEV_LC) = false) :
    Goes (mask Reg.most holdParts) s (s.holdNow h) := by
  unfold State.holdNow
  refine Goes.ite ((s.goes_accessError ..).lift inside_most) ?_
  split
  · exact (s.goes_cellEnable ..).lift inside_most
  · exact (s.goes_mapSource ..).lift inside_most
  · exact Goes.ite ((s.goes_linkOff ..).lift inside_most) ((s.goes_lnkCtl ..).lift inside_most)
  · exact ((Goes.refl _ s).write _ _ _ (Reg.mem_most rfl)).write _ _ _ (Reg.mem_most rfl)
  · exact (s.goes_ringCtl ..).lift inside_most
  · exact Goes.ite ((s.goes_axisStop ..).lift inside_most)
      ((s.goes_frankerAxisStart).lift inside_most)
  · exact (Goes.refl _ s).write _ _ _ (Reg.mem_most hh)

theorem State.goes_hold (s : State) (h : HeldSetting) (hh : (h.1.spec.reg == .DEV_LC) = false) : Goes (mask Reg.most holdParts) s (s.hold h) :=
  Goes.ite ((s.goes_setFranker ..).lift inside_most) (s.goes_holdNow h hh)

end Sys2Proof.Machine
end

section
/-! PROOFS. Links, octets, rings and the Franker as frames. -/

namespace Sys2Proof.Machine

-- One proof after another: side by side they need more memory than a check has.
set_option Elab.async false

/-! ### Enabling (R264, R291, R293) -/

theorem execLinkEnable_frame (p : Port) (m : Fin 144) (value : Word) (s : State) :
    ∃ t, execLinkEnable p m value s = .next t ∧ Goes (mask (.DEV_ACCESS_ADDR :: .DEV_ACCESS_ERR :: lnkCtlRegs) (.crossings :: .waiting ::
      laneResetParts)) s t :=
  ⟨_, rfl, Goes.access (fun t => (t.goes_lnkCtl ..).lift (by decide)) s _ _ _ _ _ (by decide)⟩

theorem execLinkDisable_frame (p : Port) (m : Fin 144) (value : Word) (lost : List Lost) (s : State) :
    ∃ t, execLinkDisable p m value lost s = .next t ∧ Goes (mask (.DEV_ACCESS_ADDR :: .DEV_ACCESS_ERR :: lnkCtlRegs) (.crossings :: .waiting ::
      laneResetParts)) s t :=
  ⟨_, rfl, Goes.access (fun t => (t.goes_lnkCtl ..).lift (by decide)) s _ _ _ _ _ (by decide)⟩

/-! ### Received frames, flits and markers -/

theorem State.goes_deliver (s : State) (m vl : Nat) (first : Bool) (body : List Byte) :
    Goes (mask [.LNK_CNT_FLIT] [.crossings, .freeValues, .links, .outputs]) s (s.deliver m vl first body) := by
  unfold State.deliver
  extract_lets _ s1
  have hdrop : Goes (mask [.LNK_CNT_FLIT] [.crossings, .freeValues, .links, .outputs]) s s1 :=
      (Goes.refl _ s).when _ _ fun t => (Goes.refl _ t).bump _ _ _ (mask_reg (by decide))
  exact Goes.ite hdrop (Goes.ite (((hdrop.step (s1.goes_updLink ..) (by decide)).each _ _ fun _ t => (t.goes_passOut ..).lift (by decide)).emit _
      (mask_part (by decide))) (hdrop.step (s1.goes_updLink ..) (by decide)))

theorem State.goes_freeFlit (s : State) (m vl : Nat) : Goes (mask [] [.freeValues, .links, .outputs]) s (s.freeFlit m vl) :=
  (s.goes_updLink ..).lift (by decide)

theorem State.goes_flitReceived {rs : List Reg} {ps : List Part} {take : Nat → Bool → List Byte → State → State}
    (htake : ∀ vl b l t, Goes (mask rs ps) t (take vl b l t)) (s : State) (m : Nat) (f : RxFlit) (hin : Inside instantRegs askParts rs ps) :
    Goes (mask rs ps) s (s.flitReceived m f take) := by
  unfold State.flitReceived
  extract_lets _ _ _ s1 _ s2
  have hperf : Goes (mask instantRegs askParts) s s1 := (s.goes_perf ..).lift (by decide)
  have hbad : Goes (mask instantRegs askParts) s (s1.badExpress m) :=
    (hperf.bump _ _ _ (mask_reg (by decide))).step (State.goes_linkErr _ _ _ rfl) (by decide)
  have hfree (vl : Nat) : Goes (mask instantRegs askParts) s (s1.freeFlit m vl) := hperf.step (s1.goes_freeFlit ..) (by decide)
  have hseen : Goes (mask instantRegs askParts) s s2 := hperf.step (s1.goes_updLink ..) (by decide)
  have htaken (vl : Nat) (b : Bool) (l : List Byte) : Goes (mask rs ps) s ((take vl b l s2).freeFlit m vl) :=
    ((hseen.lift hin).trans (htake vl b l s2)).trans ((State.goes_freeFlit _ m vl).lift (inside_trans (by decide) hin))
  have hnak : Goes (mask instantRegs askParts) s (s1.sendNak m) := hperf.step (s1.goes_sendNak ..) (by decide)
  exact Goes.ite (Goes.refl _ s) (Goes.ite (hbad.lift hin) (Goes.ite (hperf.lift hin) (Goes.ite ((hfree 1).lift hin)
    (Goes.ite (htaken ..) (Goes.ite (hnak.lift hin) (hperf.lift hin))))))

/-! ### Flow control and acknowledgement -/

theorem execFlowSend_frame (m : Fin 144) (s : State) : ∃ t, execFlowSend m s = .next t ∧ Goes (mask [] [.freeValues, .links, .outputs]) s t :=
  ⟨_, rfl, Goes.ite (((s.goes_updLink ..).lift (by decide)).step (State.goes_sendExpress ..) (by decide)) (Goes.refl _ s)⟩

theorem execAckSend_frame (m : Fin 144) (s : State) : ∃ t, execAckSend m s = .next t ∧ Goes (mask [] [.freeValues, .links, .outputs]) s t :=
  ⟨_, rfl, Goes.ite (((s.goes_updLink ..).lift (by decide)).step (State.goes_sendExpress ..) (by decide)) (Goes.refl _ s)⟩

/-! ### Express slots received (R275) -/

theorem execExpressStop_frame (x : Slot) (reason : BitVec 8) (s : State) :
    ∃ t, execExpressStop x reason s = .next t ∧ Goes (mask (signals [.LNK_CNT_EXP, .LNK_ERR]) (signalled [.links])) s t :=
  ⟨_, rfl, Goes.expressIn (fun t => Goes.refl _ t) _ _ _ _ (by decide)⟩

theorem execExpressGo_frame (x : Slot) (postmark : BitVec 64) (s : State) :
    ∃ t, execExpressGo x postmark s = .next t ∧ Goes (mask (signals [.LNK_CNT_EXP, .LNK_ERR]) (signalled [.links])) s t :=
  ⟨_, rfl, Goes.expressIn (fun t => Goes.refl _ t) _ _ _ _ (by decide)⟩

theorem execExpressFlow_frame (x : Slot) (vl0 vl2 vl3 : BitVec 16) (s : State) :
    ∃ t, execExpressFlow x vl0 vl2 vl3 s = .next t ∧ Goes (mask (.LNK_CNT_EXP :: pumpRegs) pumpParts) s t :=
  ⟨_, rfl, Goes.expressIn (fun t => Goes.ite (Goes.refl _ t) (((t.goes_updLink ..).lift (by decide)).step (State.goes_pumpLink ..)
      (by decide))) _ _ _ _ (by decide)⟩

theorem execExpressTiming_frame (x : Slot) (turnaround : BitVec 32) (s : State) :
    ∃ t, execExpressTiming x turnaround s = .next t ∧ Goes (mask (signals [.LNK_CNT_EXP, .LNK_ERR]) (signalled [.links])) s t :=
  ⟨_, rfl, Goes.expressIn (fun t => (Goes.refl _ t).when _ _ fun u => (u.goes_sendExpress ..).lift (by decide)) _ _ _ _ (by decide)⟩

theorem execExpressRetrainReq_frame (x : Slot) (s : State) :
    ∃ t, execExpressRetrainReq x s = .next t ∧ Goes (mask (.LNK_CNT_EXP :: failRegs) askParts) s t :=
  ⟨_, rfl, Goes.expressIn (fun t => (t.goes_retrain ..).lift (by decide)) _ _ _ _ (by decide)⟩

theorem execExpressLeave_frame (x : Slot) (lost : List Lost) (s : State) :
    ∃ t, execExpressLeave x lost s = .next t ∧ Goes (mask (.LNK_CNT_EXP :: dormantRegs) laneResetParts) s t :=
  ⟨_, rfl, Goes.expressIn (fun t => Goes.ite (Goes.refl _ t) ((t.goes_dormant ..).lift (by decide))) _ _ _ _ (by decide)⟩

/-! ### Training (R283, R284) -/

theorem execBackoffExpired_frame (m : Fin 144) (s : State) :
    ∃ t, execBackoffExpired m s = .next t ∧ Goes (mask [.LANE_CUR, .LNK_RING_STAT, .LNK_STAT] [.links, .outputs, .timers]) s t :=
  ⟨_, rfl, Goes.ite ((s.goes_detect ..).lift (by decide)) (Goes.refl _ s)⟩

theorem execActiveHeld_frame (m : Fin 144) (s : State) : ∃ t, execActiveHeld m s = .next t ∧ Goes (mask [.LNK_STAT] []) s t :=
  ⟨_, rfl, Goes.ite ((Goes.refl _ s).write _ _ _ (by decide)) (Goes.refl _ s)⟩

/-! ### Latency (R281, R282) -/

theorem execTimingSend_frame (m : Fin 144) (s : State) :
    ∃ t, execTimingSend m s = .next t ∧ Goes (mask [] [.freeValues, .links, .outputs, .timers]) s t :=
  ⟨_, rfl, Goes.ite ((((s.goes_updLink ..).lift (by decide)).step (State.goes_sendExpress ..) (by decide)).step (State.goes_startTimer ..)
      (by decide)) (Goes.refl _ s)⟩

theorem execTimingTimeout_frame (m : Fin 144) (s : State) :
    ∃ t, execTimingTimeout m s = .next t ∧ Goes (mask [] [.freeValues, .links, .outputs]) s t :=
  ⟨_, rfl, Goes.ite ((s.goes_updLink ..).lift (by decide)) (Goes.refl _ s)⟩

/-! ### Requests (R285, R286, R288, R289) -/

theorem execLnkCmdRetrain_frame (p : Port) (m : Fin 144) (s : State) :
    ∃ t, execLnkCmdRetrain p m s = .next t ∧ Goes (mask (.DEV_ACCESS_ADDR :: .DEV_ACCESS_ERR :: failRegs) (.crossings :: .waiting :: askParts)) s t :=
  ⟨_, rfl, Goes.access (fun t => (t.goes_lnkCmd ..).lift (by decide)) s _ _ _ _ _ (by decide)⟩

theorem execLnkCmdWidth_frame (p : Port) (m : Fin 144) (lanes : BitVec 8) (s : State) :
    ∃ t, execLnkCmdWidth p m lanes s = .next t ∧ Goes (mask (.DEV_ACCESS_ADDR :: .DEV_ACCESS_ERR :: failRegs) (.crossings :: .waiting :: askParts)) s
      t :=
  ⟨_, rfl, Goes.access (fun t => (t.goes_lnkCmd ..).lift (by decide)) s _ _ _ _ _ (by decide)⟩

theorem execLaneFailure_frame (m : Fin 144) (lanes : BitVec 8) (s : State) :
    ∃ t, execLaneFailure m lanes s = .next t ∧ Goes (mask failRegs askParts) s t :=
  ⟨_, rfl, (s.goes_laneFails ..).lift (by decide)⟩

theorem execLinkSilenceTimeout_frame (m : Fin 144) (s : State) : ∃ t, execLinkSilenceTimeout m s = .next t ∧ Goes (mask failRegs askParts) s t :=
  ⟨_, rfl, Goes.ite ((s.goes_retrain ..).lift (by decide)) (Goes.refl _ s)⟩

theorem State.goes_startDomain (s : State) (d : Nat) : Goes (mask (.DEV_ISL_RUN :: .MEM_STK_STAT :: faultRegs) faultParts) s (s.startDomain d) := by
  unfold State.startDomain
  extract_lets s1 s2
  have hrun : Goes (mask (.DEV_ISL_RUN :: .MEM_STK_STAT :: faultRegs) faultParts) s s1 := (Goes.refl _ s).putBit _ _ _ _ (mask_reg (by decide))
  have hrefresh : Goes (mask (.DEV_ISL_RUN :: .MEM_STK_STAT :: faultRegs) faultParts) s s2 := hrun.writeIf _ _ _ _ (by decide)
  exact Goes.ite (Goes.refl _ s) (Goes.ite hrun (((hrefresh.when _ _ fun t => (t.goes_timebaseReturn).lift (by decide)).when _ _ fun t =>
      (t.goes_refreshPins).lift (by decide)).raised _ (by decide)))

theorem State.goes_resetLanes (s : State) (k : Nat) (lost : List Lost) (p : Nat → Bool) :
    Goes (mask laneResetRegs laneResetParts) s (s.resetLanes k lost p) :=
  (Goes.refl _ s).each _ _ fun _ t => t.goes_laneReset ..

theorem State.goes_octClk (s : State) (k v : Nat) : Goes (mask (signals [.DEV_OCT_CLK, .DEV_OCT_STAT]) (signalled [])) s (s.octClk k v) :=
  Goes.ite ((s.goes_octetRefuse ..).lift (by decide)) ((Goes.refl _ s).write _ _ _ (by decide))

theorem execOctetEnable_frame (p : Port) (k : Fin 18) (value : Word) (s : State) :
    ∃ t, execOctetEnable p k value s = .next t ∧ Goes (mask (.DEV_ACCESS_ADDR :: .DEV_ACCESS_ERR :: octetRegs) octetParts) s t :=
  ⟨_, rfl, Goes.access (fun t => (t.goes_octCtl ..).lift (by decide)) s _ _ _ _ _ (by decide)⟩

theorem execOctetDisable_frame (p : Port) (k : Fin 18) (value : Word) (lost : List Lost) (s : State) :
    ∃ t, execOctetDisable p k value lost s = .next t ∧ Goes (mask (.DEV_ACCESS_ADDR :: .DEV_ACCESS_ERR :: octetRegs) octetParts) s t :=
  ⟨_, rfl, Goes.access (fun t => (t.goes_octCtl ..).lift (by decide)) s _ _ _ _ _ (by decide)⟩

/-! ### Joining (R213..R218) -/

theorem execRingJoinWrite_frame (p : Port) (r : Fin 2) (value : Word) (s : State) :
    ∃ t, execRingJoinWrite p r value s = .next t ∧ Goes (mask (.DEV_ACCESS_ADDR :: .DEV_ACCESS_ERR :: joinRegs) (.crossings :: .waiting ::
      joinParts)) s t :=
  ⟨_, rfl, Goes.access (fun t => (t.goes_ringCtl ..).lift (by decide)) s _ _ _ _ _ (by decide)⟩

theorem execBypassClose_frame (r : Fin 2) (s : State) : ∃ t, execBypassClose r s = .next t ∧ Goes (mask [.LNK_RING_STAT] []) s t :=
  ⟨_, rfl, Goes.ite ((Goes.refl _ s).write _ _ _ (by decide)) (Goes.refl _ s)⟩

theorem execBypassOpen_frame (r : Fin 2) (s : State) : ∃ t, execBypassOpen r s = .next t ∧ Goes (mask [.LNK_RING_STAT] []) s t :=
  ⟨_, rfl, Goes.ite (Goes.refl _ s) ((Goes.refl _ s).write _ _ _ (by decide))⟩

theorem execMemberUnreachable_frame (r : Fin 2) (m : Fin 32) (s : State) :
    ∃ t, execMemberUnreachable r m s = .next t ∧ Goes (mask reachRegs ownerParts) s t :=
  ⟨_, rfl, Goes.ite (Goes.refl _ s) (s.goes_showReach ..)⟩

theorem execRingStateEvaluate_frame (r : Fin 2) (s : State) : ∃ t, execRingStateEvaluate r s = .next t ∧ Goes (mask ringRegs ringParts) s t :=
  ⟨_, rfl, s.goes_evaluateRing ..⟩

/-! ### Stops (R219..R223) -/

theorem State.goes_ringStopLetter (s : State) (L : Letter) : Goes (mask stopRegs (.svc :: stopParts)) s (s.ringStopLetter L) :=
  Goes.serveIn (fun _ t => Goes.iteFst (Goes.refl _ t) (Goes.iteFst (Goes.refl _ t) (Goes.iteFst (Goes.refl _ t) ((t.goes_raiseStop ..).lift
      (by decide))))) s _ _ _ (by decide)

theorem execRingStop_frame (L : Letter) (s : State) : ∃ t, execRingStop L s = .next t ∧ Goes (mask stopRegs (.svc :: stopParts)) s t :=
  ⟨_, rfl, s.goes_ringStopLetter ..⟩

theorem execRingStopRegister_frame (p : Port) (r : Fin 2) (s : State) :
    ∃ t, execRingStopRegister p r s = .next t ∧ Goes (mask (.DEV_ACCESS_ADDR :: .DEV_ACCESS_ERR :: stopRegs) (.crossings :: .waiting :: stopParts)) s
      t :=
  ⟨_, rfl, Goes.access (fun t => (t.goes_raiseStop ..).lift (by decide)) s _ _ _ _ _ (by decide)⟩

theorem State.goes_ringReleaseLetter (s : State) (L : Letter) : Goes (mask releaseSentRegs (.svc :: releaseSentParts)) s (s.ringReleaseLetter L) :=
  Goes.serveIn (fun _ t => Goes.iteFst (Goes.refl _ t) (Goes.iteFst (Goes.refl _ t) (Goes.iteFst (Goes.refl _ t) (((Goes.refl _ t).when _ _ fun u =>
      (u.goes_ringSend ..).lift (by decide)).step (State.goes_releaseStops ..) (by decide))))) s _ _ _ (by decide)

theorem execRingReleaseStop_frame (L : Letter) (s : State) :
    ∃ t, execRingReleaseStop L s = .next t ∧ Goes (mask releaseSentRegs (.svc :: releaseSentParts)) s t :=
  ⟨_, rfl, s.goes_ringReleaseLetter ..⟩

/-! ### Member tables (R215, R233) -/

theorem execRingConfig_frame (L : Letter) (s : State) : ∃ t, execRingConfig L s = .next t ∧ Goes (mask tableRegs tableParts) s t :=
  ⟨_, rfl, s.goes_ringConfigLetter ..⟩

theorem State.goes_ringQueryLetter (s : State) (L : Letter) : Goes completeMask s (s.ringQueryLetter L) :=
  Goes.serveIn (fun _ t => (goes_svcRingQuery ..).lift (by decide)) s _ _ _ (by decide)

theorem execRingQuery_frame (L : Letter) (s : State) : ∃ t, execRingQuery L s = .next t ∧ Goes completeMask s t :=
  ⟨_, rfl, s.goes_ringQueryLetter ..⟩

/-! ### The record and the counter -/

theorem State.goes_showRecord (s : State) (b : List Byte) : Goes (mask [.DEV_FRK_REC] []) s (s.showRecord b) :=
  (Goes.refl _ s).each _ _ fun _ t => (Goes.refl _ t).write _ _ _ (by decide)

theorem State.goes_copyRecord (s : State) : Goes (mask [.DEV_FRK_REC, .DEV_FRK_STAT] []) s s.copyRecord := by
  unfold State.copyRecord
  split
  · exact (s.goes_showRecord ..).lift (by decide)
  · exact ((s.goes_showRecord ..).lift (by decide)).write _ _ _ (by decide)

theorem State.goes_resumeCounter (s : State) (record : List Byte) : Goes (mask [.DEV_FRK_CTR] [.franker]) s (s.resumeCounter record) := by
  unfold State.resumeCounter
  exact ((Goes.refl _ s).write _ _ _ (by decide)).step (State.goes_setFranker _ _) (by decide)

theorem State.goes_saveCounter (s : State) (orderly : Bool) : Goes (mask [] [.franker]) s (s.saveCounter orderly) :=
  (s.goes_setFranker ..).lift (by decide)

/-! ### Resources (R548, R550) -/

theorem State.goes_holdAll (s : State) : Goes (mask Reg.most (.ports :: holdParts)) s s.holdAll := by
  unfold State.holdAll
  extract_lets s1
  have htakeEndpoint : Goes (mask Reg.most (.ports :: holdParts)) s s1 :=
      (Goes.refl _ s).when _ _ fun t => ((Goes.refl _ t).write _ _ _ (Reg.mem_most rfl)).step (State.goes_takeEndpoint _) inside_most
  exact ((htakeEndpoint.eachMem _ _ fun h hh t => (t.goes_hold h (State.heldSettings_reg _ (List.mem_filter.mp hh).1)).lift inside_most).step (State.goes_hold _ _ rfl) inside_most).step
      (State.goes_refreshPins _) inside_most

/-! ### Starting and giving way -/

theorem State.goes_startFranker (s : State) : Goes (mask Reg.most (.ports :: holdParts)) s s.startFranker := by
  unfold State.startFranker
  extract_lets _ s1 s2 s3
  have hchosen : Goes (mask Reg.most (.ports :: holdParts)) s s1 := Goes.ite ((s.goes_resumeCounter ..).lift inside_most) (Goes.refl _ s)
  have hsetFranker : Goes (mask Reg.most (.ports :: holdParts)) s s2 := hchosen.step (s1.goes_setFranker ..) inside_most
  have hid : Goes (mask Reg.most (.ports :: holdParts)) s s3 :=
      ((hsetFranker.write _ _ _ (Reg.mem_most rfl)).write _ _ _ (Reg.mem_most rfl)).write _ _ _ (Reg.mem_most rfl)
  exact ((hid.write _ _ _ (Reg.mem_most rfl)).trans (State.goes_holdAll _)).step (State.goes_showFranker _) inside_most

theorem State.goes_stopFranker (s : State) : Goes (mask Reg.most (.memo :: holdParts)) s s.stopFranker := by
  unfold State.stopFranker
  extract_lets s1 _ s2 s3
  have hsaveCounter : Goes (mask Reg.most (.memo :: holdParts)) s s1 :=
      (((s.goes_flushMessages ..).lift inside_most).step (State.goes_flushSorter ..) inside_most).step (State.goes_saveCounter ..) inside_most
  have hhold : Goes (mask Reg.most (.memo :: holdParts)) s s2 := hsaveCounter.when _ _ fun t => (t.goes_hold _ rfl).lift inside_most
  have hhold2 : Goes (mask Reg.most (.memo :: holdParts)) s s3 := (hhold.write _ _ _ (Reg.mem_most rfl)).step (State.goes_hold _ _ rfl) inside_most
  have hback : ∀ h ∈ s1.heldSettings.filter (·.1 != .LNK_CTL_EN), ∀ t : State,
      Goes (mask Reg.most (.memo :: holdParts)) t (t.hold (h.1, h.2.1, h.1.reset h.2.1)) := fun h hh t =>
    (t.goes_hold (h.1, h.2.1, h.1.reset h.2.1) (s1.heldSettings_reg (h := h) (List.mem_filter.mp hh).1)).lift inside_most
  exact Goes.ite (Goes.refl _ s) ((hhold2.eachMem _ _ hback).step (State.goes_refreshPins _) inside_most)

/-! ### The record (R545) -/

theorem State.goes_programProtected (s : State) (result : ProgResult) : Goes (mask flashRegs (signalled [.config])) s (s.programProtected result).1 := by
  unfold State.programProtected
  refine Goes.iteFst (Goes.refl _ s) ?_
  cases result with
  | done => exact Goes.refl _ s
  | replaced => exact Goes.pairFst ((s.goes_retire 68).lift (by decide))
  | unreplaceable => exact Goes.pairFst ((s.goes_areaReadOnly 68).lift (by decide))

theorem State.goes_frankerSave (s : State) (result : ProgResult) :
    Goes (mask (.DEV_FRK_STAT :: flashRegs) (signalled [.config, .franker])) s (s.frankerSave result) := by
  have hprogrammed := (s.goes_programProtected result).lift (rs := .DEV_FRK_STAT :: flashRegs) (ps := signalled [.config, .franker]) (by decide)
  exact Goes.ite (hprogrammed.step (State.goes_setFranker _ _) (by decide)) (hprogrammed.write _ _ _ (by decide))

theorem State.goes_frankerLoad (s : State) : Goes (mask [.DEV_FRK_REC] []) s s.frankerLoad :=
  s.goes_showRecord ..

theorem State.goes_frankerCmd (s : State) (v : Nat) (result : ProgResult) :
    Goes (mask (.DEV_FRK_REC :: .DEV_FRK_STAT :: flashRegs) (signalled [.config, .franker])) s (s.frankerCmd v result) :=
  ((Goes.refl _ s).when _ _ fun t => (t.goes_frankerSave ..).lift (by decide)).when _ _ fun t => (t.goes_frankerLoad).lift (by decide)

theorem execFrankerSave_frame (p : Port) (value : Word) (result : ProgResult) (s : State) :
    ∃ t, execFrankerSave p value result s = .next t ∧ Goes (mask (signals (errors [.CFG_NVM_ERR, .CFG_NVM_STAT, .CFG_NVM_WEAR, .DEV_FRK_REC,
      .DEV_FRK_STAT])) (signalled [.config, .crossings, .franker, .waiting])) s t :=
  ⟨_, rfl, Goes.access (fun t => (t.goes_frankerCmd ..).lift (by decide)) s _ _ _ _ _ (by decide)⟩

theorem execFrankerLoad_frame (p : Port) (value : Word) (s : State) :
    ∃ t, execFrankerLoad p value s = .next t ∧ Goes (mask (signals (errors [.CFG_NVM_ERR, .CFG_NVM_STAT, .CFG_NVM_WEAR, .DEV_FRK_REC,
      .DEV_FRK_STAT])) (signalled [.config, .crossings, .franker, .waiting])) s t :=
  ⟨_, rfl, Goes.access (fun t => (t.goes_frankerCmd ..).lift (by decide)) s _ _ _ _ _ (by decide)⟩

/-! ### Triggers (R549..R551) -/

/-- One column of a message into sorter 0, and whether a column has been discarded. -/
def printColumn (width : Nat) (a : State × Bool) (c : Nat × Nat) : State × Bool :=
  let x := a.1.insertEntry 0 (c.1 % 2 ^ 64 + 2 ^ 64 * (c.2 + 3 * 2 ^ 16 + width * 2 ^ 20) + 2 ^ 127)
  (x.1, a.2 || !(x.2 == 1 || x.2 == 2))

theorem goes_printColumn (width : Nat) (a : State × Bool) (c : Nat × Nat) :
    Goes (mask insertRegs insertParts) a.1 (printColumn width a c).1 := Goes.pairFst (a.1.goes_insertEntry ..)

theorem State.goes_printPins (s : State) (cols : List (Nat × Nat)) : Goes (mask (.DEV_FRK_MISS :: insertRegs) insertParts) s (s.printPins cols) := by
  have hcolumns : Goes (mask (.DEV_FRK_MISS :: insertRegs) insertParts) s
      ((cols.filter (·.2 != 0)).foldl (printColumn (rd s.frankerRecord 20 4)) (s, false)).1 :=
    Goes.foldlFst (cols.filter (·.2 != 0)) (printColumn (rd s.frankerRecord 20 4)) (fun a c => (goes_printColumn _ a c).lift (by decide))
      (Goes.refl _ s)
  exact hcolumns.when _ _ fun t => (t.goes_frankerMiss 1).lift (by decide)

theorem State.goes_printLane (s : State) (cols : List (Nat × Nat)) : Goes (mask pumpRegs pumpParts) s (s.printLane cols) :=
  ((Goes.refl _ s).set_fires _ (mask_part (by decide))).trans (State.goes_pumpLink ..)

theorem State.goes_frankerCounter (s : State) : Goes (mask [.DEV_FRK_CTR] [.franker]) s s.frankerCounter :=
  Goes.ite (Goes.refl _ s) (((Goes.refl _ s).write _ _ _ (by decide)).step (State.goes_setFranker ..) (by decide))

theorem State.goes_frankerCounted (s : State) : Goes (mask [.DEV_FRK_CNT, .DEV_FRK_CTR] [.franker]) s s.frankerCounted := by
  unfold State.frankerCounted
  extract_lets _ s1 s2
  have hcounter : Goes (mask [.DEV_FRK_CNT, .DEV_FRK_CTR] [.franker]) s s1 := (Goes.refl _ s).write _ _ _ (by decide)
  have hsetFranker : Goes (mask [.DEV_FRK_CNT, .DEV_FRK_CTR] [.franker]) s s2 :=
      (hcounter.addMod _ _ _ (mask_reg (by decide))).step (State.goes_setFranker ..) (by decide)
  exact hsetFranker.when _ _ fun t => (t.goes_saveCounter ..).lift (by decide)

theorem State.goes_frankerPrint (s : State) (t : Nat) :
    Goes (mask (.DEV_FRK_CNT :: .DEV_FRK_CTR :: .DEV_FRK_MISS :: pumpRegs) (.franker :: pumpParts)) s (s.frankerPrint t) := by
  unfold State.frankerPrint
  extract_lets s1 _ _ _ s2 _ s3
  have hfrankerCounter : Goes (mask (.DEV_FRK_CNT :: .DEV_FRK_CTR :: .DEV_FRK_MISS :: pumpRegs) (.franker :: pumpParts)) s s1 :=
      (s.goes_frankerCounter).lift (by decide)
  have hsetFranker : Goes (mask (.DEV_FRK_CNT :: .DEV_FRK_CTR :: .DEV_FRK_MISS :: pumpRegs) (.franker :: pumpParts)) s s2 :=
      hfrankerCounter.step (s1.goes_setFranker ..) (by decide)
  have hsetFranker2 : Goes (mask (.DEV_FRK_CNT :: .DEV_FRK_CTR :: .DEV_FRK_MISS :: pumpRegs) (.franker :: pumpParts)) s s3 :=
      hsetFranker.step (s2.goes_setFranker ..) (by decide)
  exact Goes.ite (hsetFranker.step (s2.goes_frankerMiss ..) (by decide)) ((Goes.ite (hsetFranker2.step (s3.goes_printLane ..) (by decide))
      (hsetFranker2.step (s3.goes_printPins ..) (by decide))).step (State.goes_frankerCounted _) (by decide))

theorem execFrankerTrigger_frame (postmark : BitVec 64) (s : State) :
    ∃ t, execFrankerTrigger postmark s = .next t ∧ Goes (mask (.DEV_FRK_CNT :: .DEV_FRK_CTR :: .DEV_FRK_MISS :: pumpRegs) (.franker :: pumpParts)) s
      t :=
  ⟨_, rfl, Goes.ite (Goes.refl _ s) (Goes.ite (s.goes_frankerPrint ..) ((s.goes_frankerMiss ..).lift (by decide)))⟩

/-! ### Resources and the axis (R548, R552) -/

theorem execFrankerRestore_frame (s : State) : ∃ t, execFrankerRestore s = .next t ∧ Goes (mask Reg.most holdParts) s t := by
  refine ⟨_, rfl, ?_⟩
  extract_lets _ s1 s2
  have hoverride : Goes (mask Reg.most holdParts) s s1 := (Goes.refl _ s).eachMem _ _ fun h hh t =>
        (t.goes_hold h (s.heldSettings_reg (List.mem_filter.mp hh).1)).bump _ _ _ (mask_reg (Reg.mem_most rfl))
  have hoverride2 : Goes (mask Reg.most holdParts) s s2 :=
      hoverride.when _ _ fun t => ((t.goes_frankerAxisStart).lift inside_most).bump _ _ _ (mask_reg (Reg.mem_most rfl))
  exact Goes.ite (Goes.refl _ s) (Goes.ite hoverride2 (hoverride2.step (s2.goes_refreshPins) inside_most))

theorem execFrankerRecoverRetry_frame (s : State) :
    ∃ t, execFrankerRecoverRetry s = .next t ∧ Goes (mask (.DEV_FRK_MISS :: .POS_AX_LOAD :: commandRegs ++ flushRegs) (.fires :: .franker :: .lease
      :: .memo :: commandParts)) s t := by
  refine ⟨_, rfl, ?_⟩
  extract_lets s1
  have haxisRecover : Goes (mask (.DEV_FRK_MISS :: .POS_AX_LOAD :: commandRegs ++ flushRegs) (.fires :: .franker :: .lease :: .memo :: commandParts))
        s s1 :=
      ((Goes.refl _ s).write _ _ _ (by decide)).step (State.goes_axisRecover ..) (by decide)
  exact Goes.ite (Goes.refl _ s) (Goes.ite haxisRecover (((haxisRecover.step (s1.goes_flushMessages ..) (by decide)).step (State.goes_flushSorter ..)
      (by decide)).step (State.goes_showFranker _) (by decide)))

/-! ### Reads (R555) -/

theorem execDevFrkMissRead_frame (p : Port) (s : State) :
    ∃ t, execDevFrkMissRead p s = .next t ∧ Goes (mask (signals (errors [.DEV_FRK_MISS])) (signalled [.crossings, .waiting])) s t :=
  ⟨_, rfl, Goes.access (fun t => (t.goes_readClear ..).lift (by decide)) s _ _ _ _ _ (by decide)⟩

theorem execDevFrkStatRead_frame (p : Port) (s : State) :
    ∃ t, execDevFrkStatRead p s = .next t ∧ Goes (mask (signals (errors [.DEV_FRK_STAT])) (signalled [.crossings, .waiting])) s t :=
  ⟨_, rfl, Goes.access (fun t => (t.goes_readClear ..).lift (by decide)) s _ _ _ _ _ (by decide)⟩
end Sys2Proof.Machine
end

section
/-! PROOFS. Memory cells that are asked, keys of an image and sorters that are emptied, as frames. -/

namespace Sys2Proof.Machine

-- One proof after another: side by side they need more memory than a check has.
set_option Elab.async false

/-! ### Memory cells (R31, R32) -/

/-- The registers of a memory cell that is asked. -/
def serveRegs : List Reg := signals (counting [.CFG_FAB_STAT])

/-- The parts of a memory cell that is asked. -/
def serveParts : List Part := signalled [.cells, .elements, .isos, .taken, .taps, .words]

/-- A memory cell takes the tokens of a request, and does what the request asks. -/
theorem State.goes_memServe {rs : List Reg} {ps : List Part} {next : Nat → State → State} (hnext : ∀ k t, Goes (mask rs ps) t (next k t)) (s : State)
    (n : Fin 40) (i : Fin 65536) (ops : List Nat) (replies data : Bool) (a : Arrivals) (bad : Nat) (also : List Nat)
    (hin : Inside serveRegs serveParts rs ps) : Goes (mask rs ps) s (s.memServe n i ops replies data a bad also next) := by
  unfold State.memServe
  split
  · exact Goes.refl _ s
  · exact Goes.ite (((((s.goes_takeTokens ..).lift (rs := serveRegs) (ps := serveParts) (by decide)).lift hin).trans (hnext _ _)).trans
      (((State.goes_codeErrors ..).lift (rs := serveRegs) (ps := serveParts) (by decide)).lift hin)) (Goes.refl _ s)

/-! ### Status registers of a region (R51) -/

theorem State.goes_clearRegionStat (s : State) (n : Nat) : Goes (mask [.CFG_BM_STAT, .CFG_FAB_STAT, .CFG_TREE_STAT] []) s (s.clearRegionStat n) :=
  (Goes.refl _ s).clearEach _ _ (by decide)

/-! ### Frames and keys of an image (R411, R412) -/

theorem State.goes_recordFrames (s : State) (region : Nat) (frames : List Byte) : Goes (mask [] [.config]) s (s.recordFrames region frames) := by
  unfold State.recordFrames
  exact s.goes_setConfig _

theorem State.goes_keepKeys (s : State) (entry : Nat) (keys : List (BitVec 256)) : Goes (mask [] [.config]) s (s.keepKeys entry keys) :=
  s.goes_setConfig _

/-! ### Sorters that are emptied (R176, R492) -/

theorem State.goes_boundEvents (s : State) (c n : Nat) (pms : List Nat) : Goes reportMask s (s.boundEvents c n pms) := by
  refine (Goes.refl _ s).each _ _ fun pm t => ?_
  dsimp only
  split
  · exact (t.goes_dropEvents ..).lift (by decide)
  · refine Goes.trans ?_ ((State.goes_setChan ..).lift (by decide))
    split
    · exact Goes.refl _ t
    · exact (Goes.refl _ t).drew (mask_part (by decide))

theorem State.goes_emptyInto (k : Nat) (s : State) (n lost : Nat) : Goes (mask flushRegs (.chans :: spaceParts)) s (s.emptyInto k n lost) := by
  induction k generalizing s lost with
  | zero => exact (Goes.refl _ s).write _ _ _ (by decide)
  | succ k ih =>
    unfold State.emptyInto
    extract_lets r s1
    have hflushed : Goes (mask flushRegs (.chans :: spaceParts)) s r.1 := (s.goes_flushSorter n).lift (by decide)
    have hcounted : Goes (mask flushRegs (.chans :: spaceParts)) s s1 := by
      simp only [s1]
      split
      · exact hflushed.step (State.goes_boundEvents ..) (by decide)
      · exact hflushed
    exact Goes.ite ((Goes.refl _ s).write _ _ _ (by decide)) ((hcounted.step (s1.goes_srtSpace n) (by decide)).trans (ih _ _))

end Sys2Proof.Machine
end

section
/-! PROOFS. The fabric, images, regions, key slots and resets as frames. -/

namespace Sys2Proof.Machine

-- One proof after another: side by side they need more memory than a check has.
set_option Elab.async false

/-! ### Stages -/

/-- The parts of `fill`. -/
def fillParts : List Part := .boxes :: .cells :: .elements :: .evt :: .isos :: .taken :: .taps :: .words :: padParts

theorem State.goes_fill (s : State) (x : Site) (v : Nat) : Goes (mask [] fillParts) s (s.fill x v) := by
  unfold State.fill
  extract_lets
  split
  · exact ((Goes.refl _ s).set_pins _ (mask_part (by decide))).step (State.goes_keepLevels _) (by decide)
  · exact (s.goes_treeLevel ..).lift (by decide)
  · exact Goes.refl _ s
  · exact Goes.refl _ s
  · exact ((s.goes_setSite ..).lift (by decide)).step (State.goes_settleToken ..) (by decide)

theorem State.goes_isoCodes (s : State) (x : IsoSite) (bad : Nat) : Goes codeMask s (s.isoCodes x bad) := by
  unfold State.isoCodes
  split
  · exact s.goes_codeErrors ..
  · exact s.goes_codeErrors ..
  · exact Goes.refl _ s

theorem State.goes_isoCapture (s : State) (x : IsoSite) (u : List Nat) (a : Seen) :
    Goes (mask (signals (counting [.CFG_FAB_STAT, .CFG_ISO_CNT])) serveParts) s (s.isoCapture x u a) := by
  unfold State.isoCapture
  extract_lets _ s1
  have htakeTokens : Goes (mask (signals (counting [.CFG_FAB_STAT, .CFG_ISO_CNT])) serveParts) s s1 := (s.goes_takeTokens ..).lift (by decide)
  refine Goes.ite (Goes.refl _ s) ?_
  refine Goes.ite ?_ ?_
  · split
    · exact Goes.ite ((htakeTokens.bump _ _ _ (mask_reg (by decide))).step (State.goes_isoCodes ..) (by decide)) (Goes.refl _ s)
    · exact Goes.refl _ s
  · exact Goes.ite (Goes.refl _ s) (((htakeTokens.step (s1.goes_setSite ..) (by decide)).step (State.goes_settleToken ..) (by decide)).step
      (State.goes_isoCodes ..) (by decide))

/-! ### Memory cells (R31, R32) -/

theorem State.goes_memReply (s : State) (n : Fin 40) (i : Fin 65536) (v : Nat) : Goes (mask [] fillParts) s (s.memReply n i v) := by
  unfold State.memReply
  extract_lets s1
  have hfill : Goes (mask [] fillParts) s s1 := s.goes_fill ..
  exact Goes.ite (hfill.trans (s1.goes_fill ..)) hfill

theorem State.goes_memPut (s : State) (n i addr data : Nat) : Goes tokenMask s (s.memPut n i addr data) :=
  s.goes_setCell ..

theorem execMemCellRead_frame (n : Fin 40) (i : Fin 65536) (request : Arrivals) (s : State) :
    ∃ t, execMemCellRead n i request s = .next t ∧ Goes (mask (signals (counting [.CFG_FAB_STAT])) (.boxMem :: .pulses :: fillParts)) s t :=
  ⟨_, rfl, State.goes_memServe (fun _ t => (t.goes_memReply ..).lift (by decide)) _ _ _ _ _ _ _ _ _ (by decide)⟩

theorem execMemCellWrite_frame (n : Fin 40) (i : Fin 65536) (request data : Arrivals) (s : State) :
    ∃ t, execMemCellWrite n i request data s = .next t ∧ Goes (mask (signals (counting [.CFG_FAB_STAT])) serveParts) s t := by
  refine ⟨_, rfl, ?_⟩
  split
  · exact Goes.refl _ s
  · exact State.goes_memServe (fun _ t => (t.goes_memPut ..).lift (by decide)) _ _ _ _ _ _ _ _ _ (by decide)

theorem execMemCellSwap_frame (n : Fin 40) (i : Fin 65536) (request data : Arrivals) (s : State) :
    ∃ t, execMemCellSwap n i request data s = .next t ∧ Goes (mask (signals (counting [.CFG_FAB_STAT])) (.boxMem :: .pulses :: fillParts)) s t := by
  refine ⟨_, rfl, ?_⟩
  split
  · exact Goes.refl _ s
  · exact State.goes_memServe (fun _ t => ((t.goes_memPut ..).lift (by decide)).step (State.goes_memReply ..) (by decide)) _ _ _ _ _ _ _ _ _
      (by decide)

/-! ### Arbiters (R34) -/

theorem State.goes_setArbiter (s : State) (n a : Nat) (x : Arbiter) : Goes (mask [] [.arbiters]) s (s.setArbiter n a x) :=
  (Goes.refl _ s).set_arbiters _ (mask_part (by decide))

theorem execArbiterRequest_frame (n : Fin 40) (a : Fin 8192) (q : ArbReq) (s : State) :
    ∃ t, execArbiterRequest n a q s = .next t ∧ Goes (mask [] [.arbiters, .freeValues]) s t := by
  refine ⟨_, rfl, ?_⟩
  extract_lets
  split
  · split
    · exact (s.goes_setArbiter ..).lift (by decide)
    · exact (s.goes_setArbiter ..).lift (by decide)
  · split
    · exact ((Goes.refl _ s).drew (mask_part (by decide))).step (State.goes_setArbiter ..) (by decide)
    · exact (s.goes_setArbiter ..).lift (by decide)

theorem execArbiterRelease_frame (n : Fin 40) (a : Fin 8192) (s : State) : ∃ t, execArbiterRelease n a s = .next t ∧ Goes (mask [] [.arbiters]) s t := by
  refine ⟨_, rfl, ?_⟩
  extract_lets
  split
  · exact Goes.refl _ s
  · exact Goes.ite (s.goes_setArbiter ..) (Goes.ite (s.goes_setArbiter ..) (s.goes_setArbiter ..))

/-! ### Wake, trees and user clocks -/

theorem State.goes_startSecond (s : State) (n : Nat) (e : Nat × Cell) (regs : Bool) : Goes tokenMask s (s.startSecond n e regs) :=
  Goes.ite (Goes.refl _ s) (s.goes_setCell ..)

theorem State.goes_showClocks (s : State) (n : Nat) : Goes (mask [.CFG_TREE_STAT] []) s (s.showClocks n) :=
  (Goes.refl _ s).each _ _ fun _ u => (Goes.refl _ u).putBit _ _ _ _ (mask_reg (by decide))

/-- The parts of `resetStages`. -/
def resetStagesParts : List Part := [.arbiters, .boxes, .cells, .elements, .evt, .flying, .isos, .taken, .taps, .words]

theorem State.goes_resetStages (s : State) (n : Nat) : Goes (mask [] resetStagesParts) s (s.resetStages n) := by
  unfold State.resetStages
  extract_lets s1 s2 s3 s4
  have hcells : Goes (mask [] resetStagesParts) s s1 := (Goes.refl _ s).each _ _ fun _ t => (Goes.refl _ t).set_cells _ (mask_part (by decide))
  have hstartSecond : Goes (mask [] resetStagesParts) s s2 := hcells.each _ _ fun _ t => (t.goes_startSecond ..).lift (by decide)
  have hwords : Goes (mask [] resetStagesParts) s s3 := hstartSecond.each _ _ fun _ t => (Goes.refl _ t).set_words _ (mask_part (by decide))
  have helements : Goes (mask [] resetStagesParts) s s4 := hwords.each _ _ fun _ t => (Goes.refl _ t).set_elements _ (mask_part (by decide))
  exact helements.set_taken_flying_taps_arbiters _ _ _ _ (mask_part (by decide)) (mask_part (by decide)) (mask_part (by decide)) (mask_part
      (by decide))

/-- The parts of `wake`. -/
def wakeParts : List Part := [.boxes, .cells, .elements, .evt, .isos, .taken, .taps, .words]

theorem State.goes_wake (s : State) (n : Nat) : Goes (mask [.CFG_RGN_STAT, .CFG_TREE_STAT] wakeParts) s (s.wake n) := by
  unfold State.wake
  extract_lets s1 s2 s3
  have hcells : Goes (mask [.CFG_RGN_STAT, .CFG_TREE_STAT] wakeParts) s s1 :=
      (Goes.refl _ s).each _ _ fun _ t => (Goes.refl _ t).set_cells _ (mask_part (by decide))
  have hstartSecond : Goes (mask [.CFG_RGN_STAT, .CFG_TREE_STAT] wakeParts) s s2 :=
      hcells.each _ _ fun _ t => (t.goes_startSecond ..).lift (by decide)
  have hwords : Goes (mask [.CFG_RGN_STAT, .CFG_TREE_STAT] wakeParts) s s3 :=
      hstartSecond.each _ _ fun _ t => (Goes.refl _ t).set_words _ (mask_part (by decide))
  exact (hwords.write _ _ _ (by decide)).step (State.goes_showClocks ..) (by decide)

theorem execStrobeTapPulse_frame (n : Fin 40) (t : Fin 8) (k : Nat) (s : State) :
    ∃ u, execStrobeTapPulse n t k s = .next u ∧ Goes (mask (signals [.CFG_TREE_STAT]) (.flying :: serveParts)) s u := by
  refine ⟨_, rfl, ?_⟩
  extract_lets _ s1
  have hflying : Goes (mask (signals [.CFG_TREE_STAT]) (.flying :: serveParts)) s s1 := (Goes.refl _ s).set_flying _ (mask_part (by decide))
  exact Goes.ite (Goes.refl _ s) (Goes.ite hflying (Goes.ite ((Goes.ite (hflying.orFld _ _ _ (mask_reg (by decide))) (hflying.orFld _ _ _ (mask_reg
      (by decide)))).raised _ (by decide)) ((hflying.set_taps _ (mask_part (by decide))).step (State.goes_settleToken ..) (by decide))))

theorem execUserClockLoss_frame (t : Fin 4) (s : State) :
    ∃ u, execUserClockLoss t s = .next u ∧ Goes (mask (signals [.CFG_TREE_STAT]) (signalled [.trees])) s u :=
  ⟨_, rfl, Goes.ite (Goes.refl _ s) (((s.goes_setTree ..).lift (by decide)).each _ _ fun _ u => (((Goes.refl _ u).putBit _ _ _ _ (mask_reg
      (by decide))).orFld _ _ _ (mask_reg (by decide))).raised _ (by decide))⟩

theorem State.goes_clockPresent (s : State) (t : Fin 4) : Goes (mask [.CFG_TREE_STAT] [.trees]) s (s.clockPresent t) :=
  ((s.goes_setTree ..).lift (by decide)).each _ _ fun _ u => (Goes.refl _ u).putBit _ _ _ _ (mask_reg (by decide))

theorem execUserClockReturn_frame (t : Fin 4) (s : State) : ∃ u, execUserClockReturn t s = .next u ∧ Goes (mask [.CFG_TREE_STAT] [.trees]) s u :=
  ⟨_, rfl, Goes.ite (s.goes_clockPresent ..) (Goes.refl _ s)⟩

theorem State.goes_clockedTrees (s : State) (t : Fin 4) (wires : List (Fin 40 × List (Nat × Rail))) :
    Goes (mask [] [.flying, .trees]) s (s.clockedTrees t wires) :=
  (Goes.refl _ s).each _ _ fun _ v => (by
  split
  · exact Goes.ite ((v.goes_treeLevel ..).lift (by decide)) (Goes.refl _ v)
  · exact Goes.refl _ v)

theorem execUserClockEdge_frame (t : Fin 4) (wires : List (Fin 40 × List (Nat × Rail))) (s : State) :
    ∃ u, execUserClockEdge t wires s = .next u ∧ Goes (mask [.CFG_TREE_STAT] (.flying :: .timers :: .trees :: wakeParts)) s u := by
  refine ⟨_, rfl, ?_⟩
  extract_lets _ s1 s2
  have hclockPresent : Goes (mask [.CFG_TREE_STAT] (.flying :: .timers :: .trees :: wakeParts)) s s1 :=
      (((s.goes_setTree ..).lift (by decide)).step (State.goes_startTimer ..) (by decide)).step (State.goes_clockPresent ..) (by decide)
  have hs : Goes (mask [.CFG_TREE_STAT] (.flying :: .timers :: .trees :: wakeParts)) s s2 :=
      hclockPresent.each _ _ fun _ u => ((Goes.refl _ u).each _ _ fun _ v => (by
    dsimp only
    split
    · exact ((v.goes_setCell ..).lift (by decide)).step (State.goes_setCell ..) (by decide)
    · exact (v.goes_setCell ..).lift (by decide))).each _ _ fun _ v => (by
    split
    · exact Goes.ite (((Goes.refl _ v).set_elements _ (mask_part (by decide))).step (State.goes_settleToken ..) (by decide)) (Goes.refl _ v)
    · exact Goes.refl _ v)
  exact Goes.ite (Goes.refl _ s) (hs.step (s2.goes_clockedTrees ..) (by decide))

/-! ### Block memories (R68..R75) -/

theorem State.goes_setBm (s : State) (n i : Nat) (b : BlockMem) : Goes (mask [] [.bms]) s (s.setBm n i b) :=
  (Goes.refl _ s).set_bms _ (mask_part (by decide))

/-! ### The check code of the ECC ratio (R74; assumption 91) -/

theorem State.goes_bmEcc (s : State) (n i : Nat) (e : Ecc) : Goes (mask (signals (counting [.CFG_BM_STAT])) (signalled [])) s (s.bmEcc n i e) := by
  unfold State.bmEcc
  split
  · exact Goes.refl _ s
  · exact ((((Goes.refl _ s).write _ _ _ (by decide)).bump _ _ _ (mask_reg (by decide))).raised _ (by decide)).step (State.goes_perf ..) (by decide)
  · exact (((Goes.refl _ s).writeIf _ _ _ _ (by decide)).write _ _ _ (by decide)).raised _ (by decide)

theorem State.goes_bmServe (s : State) (n i : Nat) (p : BmPort) (w low high : Nat) :
    Goes (mask (signals (counting [.CFG_BM_STAT])) (signalled [.bms])) s (s.bmServe n i p w low high) := by
  unfold State.bmServe
  extract_lets _ _ _ _ _ _ _ _ s1
  have hbmEcc : Goes (mask (signals (counting [.CFG_BM_STAT])) (signalled [.bms])) s s1 :=
      ((s.goes_setBm ..).lift (by decide)).when _ _ fun t => (t.goes_bmEcc ..).lift (by decide)
  exact Goes.ite (hbmEcc.emit _ (mask_part (by decide))) (Goes.ite (hbmEcc.emit _ (mask_part (by decide))) hbmEcc)

theorem State.goes_bmFlip (s : State) (n i : Nat) (p : BmPort) (w : Nat) (flips : List (Fin 72)) : Goes (mask [] [.bms]) s (s.bmFlip n i p w flips) :=
  Goes.ite (Goes.refl _ s) (s.goes_setBm ..)

theorem State.goes_bmRequest (s : State) (n i : Nat) (p : BmPort) (w low high : Nat) (m : BmMoment) :
    Goes (mask (signals (counting [.CFG_BM_STAT])) (signalled [.bms])) s (s.bmRequest n i p w low high m) := by
  unfold State.bmRequest
  extract_lets s1 _ _ s2
  have hbmFlip : Goes (mask (signals (counting [.CFG_BM_STAT])) (signalled [.bms])) s s1 := (s.goes_bmFlip ..).lift (by decide)
  have hbmServe : Goes (mask (signals (counting [.CFG_BM_STAT])) (signalled [.bms])) s s2 :=
      (hbmFlip.trans (s1.goes_bmServe ..)).each _ _ fun _ t => t.goes_bmServe ..
  refine Goes.ite (Goes.refl _ s) ?_
  split
  · exact Goes.ite (hbmFlip.step (s1.goes_setBm ..) (by decide)) (hbmFlip.trans (s1.goes_bmServe ..))
  · exact hbmServe.step (s2.goes_setBm ..) (by decide)

theorem State.goes_resetBms (s : State) (n : Nat) (init clearKeep : Bool) : Goes (mask [] [.bms]) s (s.resetBms n init clearKeep) :=
  (Goes.refl _ s).each _ _ fun _ t => (Goes.refl _ t).set_bms _ (mask_part (by decide))

/-! ### The checks (R414) -/

theorem State.goes_readImage (s : State) (slot : Nat) (f : ImageFacts) :
    Goes (mask (signals [.CFG_NVM_CNT, .CFG_NVM_ERR, .CFG_XSPI]) (signalled [])) s (s.readImage slot f) :=
  Goes.ite ((s.goes_nvmRead ..).lift (by decide)) ((Goes.refl _ s).when _ _ fun t => ((Goes.refl _ t).write _ _ _ (by decide)).raised _ (by decide))

theorem State.goes_isolate (s : State) (n st : Nat) :
    Goes (mask (signals [.CFG_ISO_CNT, .CFG_RGN_STAT, .PIN_GSTAT, .PIN_ICONF, .PIN_OCONF]) (.config :: .gates :: .isos :: stopDomainParts)) s
      (s.isolate n st) := by
  unfold State.isolate
  extract_lets s1 _ s2 _ s3
  have hisolated : Goes (mask (signals [.CFG_ISO_CNT, .CFG_RGN_STAT, .PIN_GSTAT, .PIN_ICONF, .PIN_OCONF]) (.config :: .gates :: .isos ::
        stopDomainParts)) s s1 :=
      ((Goes.refl _ s).write _ _ _ (by decide)).write _ _ _ (by decide)
  have hconfig : Goes (mask (signals [.CFG_ISO_CNT, .CFG_RGN_STAT, .PIN_GSTAT, .PIN_ICONF, .PIN_OCONF]) (.config :: .gates :: .isos ::
        stopDomainParts)) s s2 :=
      hisolated.set_config _ (mask_part (by decide))
  have hisos : Goes (mask (signals [.CFG_ISO_CNT, .CFG_RGN_STAT, .PIN_GSTAT, .PIN_ICONF, .PIN_OCONF]) (.config :: .gates :: .isos ::
        stopDomainParts)) s s3 :=
      hconfig.set_isos _ (mask_part (by decide))
  exact ((hisos.bump _ _ _ (mask_reg (by decide))).step (State.goes_delayGates ..) (by decide)).step (State.goes_refreshPins _) (by decide)

/-- The parts of `resetRegion`. -/
def resetRegionParts : List Part := .arbiters :: .bms :: .crossings :: .flying :: .store :: .svc :: .waiting :: serveParts

theorem State.goes_resetRegion (s : State) (n : Nat) (zeroKeep : Bool) :
    Goes (mask (.CFG_BM_STAT :: .CFG_FAB_STAT :: .CFG_TREE_STAT :: funcRegs) resetRegionParts) s (s.resetRegion n zeroKeep) :=
  ((((((s.goes_withdrawRegion ..).lift (by decide)).step (State.goes_resetStages ..) (by decide)).step (State.goes_resetBms ..) (by decide)).step
      (State.goes_clearRegionStat ..) (by decide)).step (State.goes_showClocks ..) (by decide)).step (State.goes_resetOwner ..) (by decide)

theorem State.goes_beginRestore (s : State) (n : Nat) : Goes (mask [.CFG_NVM_STAT, .CFG_RGN_STAT] [.restoring]) s (s.beginRestore n) := by
  unfold State.beginRestore
  extract_lets s1
  have hrestoring : Goes (mask [.CFG_NVM_STAT, .CFG_RGN_STAT] [.restoring]) s s1 := (Goes.refl _ s).set_restoring _ (mask_part (by decide))
  exact (hrestoring.write _ _ _ (by decide)).step (State.goes_suspendErases _) (by decide)

/-- The registers of `regionReset`. -/
def regionResetRegs : List Reg := .CFG_BM_STAT :: .CFG_FAB_STAT :: .CFG_ISO_CNT :: .CFG_NVM_STAT :: .CFG_RGN_STAT :: .CFG_TREE_STAT :: .DEV_XDROP ::
  .PST_LOCK :: .PST_MB_REQ :: inhibitRegs

theorem State.goes_regionReset (s : State) (n : Nat) (wake : Bool) :
    Goes (mask regionResetRegs (.config :: .gates :: .restoring :: resetRegionParts ++ inhibitParts)) s (s.regionReset n wake) := by
  unfold State.regionReset
  extract_lets s1 s2
  have hinhibit : Goes (mask regionResetRegs (.config :: .gates :: .restoring :: resetRegionParts ++ inhibitParts)) s s1 :=
      ((s.goes_isolate ..).lift (by decide)).each _ _ fun _ t => (t.goes_inhibit ..).lift (by decide)
  have hresetRegion : Goes (mask regionResetRegs (.config :: .gates :: .restoring :: resetRegionParts ++ inhibitParts)) s s2 :=
      hinhibit.step (s1.goes_resetRegion ..) (by decide)
  exact Goes.ite ((hresetRegion.step (s2.goes_beginRestore ..) (by decide)).step (State.goes_setConfig ..) (by decide)) hresetRegion

theorem State.goes_restartMonitors (s : State) (n : Nat) : Goes (mask [] [.monitors, .power]) s (s.restartMonitors n) := by
  unfold State.restartMonitors
  extract_lets _ _ s1
  have hpower : Goes (mask [] [.monitors, .power]) s s1 := (Goes.refl _ s).set_power _ (mask_part (by decide))
  exact hpower.each _ _ fun _ t => (by
    split
    · exact (Goes.refl _ t).set_monitors _ (mask_part (by decide))
    · exact Goes.refl _ t)

theorem State.goes_wakeRegion (s : State) (n : Nat) :
    Goes (mask (signals [.CFG_RGN_STAT, .CFG_TREE_STAT, .PIN_GSTAT, .PIN_ICONF, .PIN_OCONF]) (.boxMem :: .monitors :: .power :: .pulses ::
      fillParts)) s (s.wakeRegion n) :=
  Goes.ite ((((s.goes_wake ..).lift (by decide)).step (State.goes_restartMonitors ..) (by decide)).step (State.goes_refreshPins _) (by decide))
      (Goes.refl _ s)

theorem State.goes_wakeAlone (s : State) (n : Nat) :
    Goes (mask (signals [.CFG_RGN_STAT, .CFG_TREE_STAT, .PIN_GSTAT, .PIN_ICONF, .PIN_OCONF]) (.boxMem :: .config :: .monitors :: .power :: .pulses ::
      fillParts)) s (s.wakeAlone n) :=
  ((s.goes_wakeRegion ..).lift (by decide)).step (State.goes_setConfig ..) (by decide)

theorem State.goes_clearNet (s : State) (n : Nat) : Goes (mask [] resetStagesParts) s (s.clearNet n) := by
  unfold State.clearNet
  extract_lets s1
  have hresetStages : Goes (mask [] resetStagesParts) s s1 := s.goes_resetStages ..
  exact hresetStages.set_cells_words_elements _ _ _ (mask_part (by decide)) (mask_part (by decide)) (mask_part (by decide))

theorem State.goes_applyRegion (s : State) (n source addr : Nat) (f : ImageFacts) (plain : List Byte) (b : RegionBody) (start : Bool) :
    Goes (mask [.CFG_RGN_STAT, .CFG_TREE_STAT, .DEV_RGN_ACCESS, .PWR_RGN_CTL, .PWR_RGN_STAT] (.bms :: .config :: .images :: .uclkUse ::
      resetStagesParts)) s (s.applyRegion n source addr f plain b start) := by
  unfold State.applyRegion
  extract_lets s1 s2 s3 s4 _ _ s5 s6 _ _ _ _ s7 _ s8 s9 s10 s11 s12 s13
  have hclearNet : Goes (mask [.CFG_RGN_STAT, .CFG_TREE_STAT, .DEV_RGN_ACCESS, .PWR_RGN_CTL, .PWR_RGN_STAT] (.bms :: .config :: .images :: .uclkUse
        :: resetStagesParts)) s s1 :=
      (s.goes_clearNet ..).lift (by decide)
  have hsetCell : Goes (mask [.CFG_RGN_STAT, .CFG_TREE_STAT, .DEV_RGN_ACCESS, .PWR_RGN_CTL, .PWR_RGN_STAT] (.bms :: .config :: .images :: .uclkUse ::
        resetStagesParts)) s s2 :=
      hclearNet.each _ _ fun _ t => (t.goes_setCell ..).lift (by decide)
  have hwords : Goes (mask [.CFG_RGN_STAT, .CFG_TREE_STAT, .DEV_RGN_ACCESS, .PWR_RGN_CTL, .PWR_RGN_STAT] (.bms :: .config :: .images :: .uclkUse ::
        resetStagesParts)) s s3 :=
      hsetCell.each _ _ fun _ t => (Goes.refl _ t).set_words _ (mask_part (by decide))
  have helements : Goes (mask [.CFG_RGN_STAT, .CFG_TREE_STAT, .DEV_RGN_ACCESS, .PWR_RGN_CTL, .PWR_RGN_STAT] (.bms :: .config :: .images :: .uclkUse
        :: resetStagesParts)) s s4 :=
      hwords.each _ _ fun _ t => (Goes.refl _ t).set_elements _ (mask_part (by decide))
  have hbms : Goes (mask [.CFG_RGN_STAT, .CFG_TREE_STAT, .DEV_RGN_ACCESS, .PWR_RGN_CTL, .PWR_RGN_STAT] (.bms :: .config :: .images :: .uclkUse ::
        resetStagesParts)) s s5 :=
      helements.set_bms _ (mask_part (by decide))
  have hs : Goes (mask [.CFG_RGN_STAT, .CFG_TREE_STAT, .DEV_RGN_ACCESS, .PWR_RGN_CTL, .PWR_RGN_STAT] (.bms :: .config :: .images :: .uclkUse ::
        resetStagesParts)) s s6 :=
      hbms.each _ _ fun _ t => (Goes.refl _ t).set_bms _ (mask_part (by decide))
  have himages : Goes (mask [.CFG_RGN_STAT, .CFG_TREE_STAT, .DEV_RGN_ACCESS, .PWR_RGN_CTL, .PWR_RGN_STAT] (.bms :: .config :: .images :: .uclkUse ::
        resetStagesParts)) s s7 :=
      hs.set_images _ (mask_part (by decide))
  have hfloor : Goes (mask [.CFG_RGN_STAT, .CFG_TREE_STAT, .DEV_RGN_ACCESS, .PWR_RGN_CTL, .PWR_RGN_STAT] (.bms :: .config :: .images :: .uclkUse ::
        resetStagesParts)) s s8 :=
      (himages.write _ _ _ (by decide)).write _ _ _ (by decide)
  have hs2 : Goes (mask [.CFG_RGN_STAT, .CFG_TREE_STAT, .DEV_RGN_ACCESS, .PWR_RGN_CTL, .PWR_RGN_STAT] (.bms :: .config :: .images :: .uclkUse ::
        resetStagesParts)) s s9 :=
      by
    simp only [s9]
    split
    · exact hfloor.step (State.goes_storeWord ..) (by decide)
    · exact hfloor
  have hrecordFrames : Goes (mask [.CFG_RGN_STAT, .CFG_TREE_STAT, .DEV_RGN_ACCESS, .PWR_RGN_CTL, .PWR_RGN_STAT] (.bms :: .config :: .images ::
        .uclkUse :: resetStagesParts)) s s10 :=
      hs2.step (s9.goes_recordFrames ..) (by decide)
  have hs3 : Goes (mask [.CFG_RGN_STAT, .CFG_TREE_STAT, .DEV_RGN_ACCESS, .PWR_RGN_CTL, .PWR_RGN_STAT] (.bms :: .config :: .images :: .uclkUse ::
        resetStagesParts)) s s11 :=
      hrecordFrames.each _ _ fun _ u => (Goes.refl _ u).set_uclkUse _ (mask_part (by decide))
  have hsetConfig : Goes (mask [.CFG_RGN_STAT, .CFG_TREE_STAT, .DEV_RGN_ACCESS, .PWR_RGN_CTL, .PWR_RGN_STAT] (.bms :: .config :: .images :: .uclkUse
        :: resetStagesParts)) s s12 :=
      hs3.step (s11.goes_setConfig ..) (by decide)
  have hstate : Goes (mask [.CFG_RGN_STAT, .CFG_TREE_STAT, .DEV_RGN_ACCESS, .PWR_RGN_CTL, .PWR_RGN_STAT] (.bms :: .config :: .images :: .uclkUse ::
        resetStagesParts)) s s13 :=
      (hsetConfig.write _ _ _ (by decide)).write _ _ _ (by decide)
  exact (hstate.step (s13.goes_showClocks ..) (by decide)).step (State.goes_setVset ..) (by decide)

/-- The parts of `emptyRegion`. -/
def emptyRegionParts : List Part := .arbiters :: .bms :: .boxMem :: .config :: .gates :: .images :: .pulses :: .restoring :: .uclkUse :: fillParts

theorem State.goes_emptyRegion (s : State) (n : Nat) :
    Goes (mask (signals [.CFG_ISO_CNT, .CFG_RGN_STAT, .CFG_TREE_STAT, .PIN_GSTAT, .PIN_ICONF, .PIN_OCONF, .PWR_RGN_STAT]) emptyRegionParts) s
      (s.emptyRegion n) := by
  unfold State.emptyRegion
  extract_lets s1 s2 s3 s4
  have hclearNet : Goes (mask (signals [.CFG_ISO_CNT, .CFG_RGN_STAT, .CFG_TREE_STAT, .PIN_GSTAT, .PIN_ICONF, .PIN_OCONF, .PWR_RGN_STAT])
        emptyRegionParts) s s1 :=
      (s.goes_clearNet ..).lift (by decide)
  have hbms : Goes (mask (signals [.CFG_ISO_CNT, .CFG_RGN_STAT, .CFG_TREE_STAT, .PIN_GSTAT, .PIN_ICONF, .PIN_OCONF, .PWR_RGN_STAT]) emptyRegionParts)
        s s2 :=
      hclearNet.set_bms_restoring_images _ _ _ (mask_part (by decide)) (mask_part (by decide)) (mask_part (by decide))
  have huclkUse : Goes (mask (signals [.CFG_ISO_CNT, .CFG_RGN_STAT, .CFG_TREE_STAT, .PIN_GSTAT, .PIN_ICONF, .PIN_OCONF, .PWR_RGN_STAT])
        emptyRegionParts) s s3 :=
      hbms.each _ _ fun _ u => (Goes.refl _ u).set_uclkUse _ (mask_part (by decide))
  have hsetConfig : Goes (mask (signals [.CFG_ISO_CNT, .CFG_RGN_STAT, .CFG_TREE_STAT, .PIN_GSTAT, .PIN_ICONF, .PIN_OCONF, .PWR_RGN_STAT])
        emptyRegionParts) s s4 :=
      (huclkUse.step (s3.goes_keepKeys ..) (by decide)).step (State.goes_setConfig ..) (by decide)
  exact ((hsetConfig.step (s4.goes_isolate ..) (by decide)).step (State.goes_showClocks ..) (by decide)).write _ _ _ (by decide)

theorem State.goes_setSecure (s : State) (g : SecurityState → SecurityState) : Goes (mask [] [.secure]) s (s.setSecure g) :=
  (Goes.refl _ s).set_secure _ (mask_part (by decide))

/-! ### Life cycle (R501, R502) -/

theorem State.goes_showLifeCycle (s : State) : Goes (mask [.DEV_LC] []) s s.showLifeCycle :=
  ((Goes.refl _ s).write _ _ _ (by decide)).write _ _ _ (by decide)

theorem State.goes_readFuses (s : State) (fuses : List Nat) : Goes (mask (signals [.DEV_LC]) (signalled [.secure])) s (s.readFuses fuses) := by
  unfold State.readFuses
  extract_lets s1
  have hshowLifeCycle : Goes (mask (signals [.DEV_LC]) (signalled [.secure])) s s1 :=
      ((s.goes_setSecure ..).lift (by decide)).step (State.goes_showLifeCycle _) (by decide)
  exact hshowLifeCycle.when _ _ fun t => ((Goes.refl _ t).write _ _ _ (by decide)).raised _ (by decide)

theorem State.goes_blow (s : State) (g : Nat) : Goes (mask (signals [.DEV_LC]) (signalled [.secure])) s (s.blow g) :=
  (((s.goes_setSecure ..).lift (by decide)).step (State.goes_showLifeCycle _) (by decide)).raised _ (by decide)

/-! ### Keys (R504, R505) -/

theorem State.goes_useKey (s : State) (b k : Nat) : Goes (mask [] [.lease, .secure]) s (s.useKey b k) := by
  unfold State.useKey
  extract_lets
  split
  · exact (s.goes_setSecure ..).lift (by decide)
  · exact (s.goes_setSecure ..).lift (by decide)
  · exact (s.goes_setSecure ..).lift (by decide)
  · exact (Goes.refl _ s).set_lease _ (mask_part (by decide))

theorem State.goes_setRecord (s : State) (b : Nat) (r : List Byte) : Goes (mask [.DEV_SEC_STAT] [.secure]) s (s.setRecord b r) :=
  ((s.goes_setSecure ..).lift (by decide)).putBit _ _ _ _ (mask_reg (by decide))

theorem State.goes_keepKey (s : State) (b : Nat) (k : BitVec 256) : Goes (mask [.DEV_SEC_STAT] [.lease, .secure]) s (s.keepKey b k) :=
  ((s.goes_useKey ..).lift (by decide)).step (State.goes_setRecord ..) (by decide)

theorem State.goes_readKeys (s : State) (bad : Nat) : Goes (mask (signals [.DEV_SEC_STAT]) (signalled [.lease, .secure])) s (s.readKeys bad) := by
  unfold State.readKeys
  extract_lets _ _ s1
  have hcase : Goes (mask (signals [.DEV_SEC_STAT]) (signalled [.lease, .secure])) s s1 := (Goes.refl _ s).each _ _ fun _ t => (by
    split
    · exact ((t.goes_useKey ..).lift (by decide)).putBit _ _ _ _ (mask_reg (by decide))
    · exact ((t.goes_useKey ..).lift (by decide)).step (State.goes_setRecord ..) (by decide))
  exact hcase.when _ _ fun t => ((Goes.refl _ t).write _ _ _ (by decide)).raised _ (by decide)

theorem State.goes_drawKey (s : State) : Goes (mask [] [.freeValues]) s s.drawKey.1 :=
  (Goes.refl _ s).drew (mask_part (by decide))

/-! ### The random number generator (R510, R511) -/

theorem State.goes_drawSealKeys (s : State) : Goes (mask [.SEAL_LINE_STAT] [.freeValues, .seals]) s s.drawSealKeys := by
  unfold State.drawSealKeys
  extract_lets s1
  have hs : Goes (mask [.SEAL_LINE_STAT] [.freeValues, .seals]) s s1 :=
      ((s.goes_setSeal ..).lift (by decide)).each _ _ fun _ t => ((t.goes_drawKey).lift (by decide)).step (State.goes_setSeal ..) (by decide)
  exact Goes.ite (Goes.refl _ s) (hs.each _ _ fun _ t => (Goes.refl _ t).write _ _ _ (by decide))

theorem State.goes_showRng (s : State) : Goes (mask (signals [.DEV_RNG_STAT, .SEAL_LINE_STAT]) (signalled [.seals])) s s.showRng := by
  unfold State.showRng
  extract_lets _ s1
  have hhealthy : Goes (mask (signals [.DEV_RNG_STAT, .SEAL_LINE_STAT]) (signalled [.seals])) s s1 := (Goes.refl _ s).write _ _ _ (by decide)
  exact Goes.ite hhealthy (Goes.ite ((hhealthy.write _ _ _ (by decide)).raised _ (by decide)) (Goes.ite (((hhealthy.write _ _ _ (by decide)).step
      (State.goes_drawSealKeys _) (by decide)).raised _ (by decide)) hhealthy))

theorem State.goes_restartRng (s : State) : Goes (mask [.DEV_RNG_STAT] [.secure]) s s.restartRng :=
  (((s.goes_setSecure ..).lift (by decide)).write _ _ _ (by decide)).write _ _ _ (by decide)

/-! ### Zeroisation (R509) -/

theorem State.goes_zeroiseKeys (s : State) :
    Goes (mask [.CFG_AGT_STAT, .SEAL_GRAN, .SEAL_LINE_STAT] [.boxMem, .config, .lease, .memo, .seals, .secure]) s s.zeroiseKeys := by
  unfold State.zeroiseKeys
  extract_lets s1 s2 s3 s4
  have huseKey : Goes (mask [.CFG_AGT_STAT, .SEAL_GRAN, .SEAL_LINE_STAT] [.boxMem, .config, .lease, .memo, .seals, .secure]) s s1 :=
      (Goes.refl _ s).each _ _ fun _ t => (t.goes_useKey ..).lift (by decide)
  have hroots : Goes (mask [.CFG_AGT_STAT, .SEAL_GRAN, .SEAL_LINE_STAT] [.boxMem, .config, .lease, .memo, .seals, .secure]) s s2 :=
      huseKey.each _ _ fun _ t => ((Goes.refl _ t).write _ _ _ (by decide)).write _ _ _ (by decide)
  have hepoch : Goes (mask [.CFG_AGT_STAT, .SEAL_GRAN, .SEAL_LINE_STAT] [.boxMem, .config, .lease, .memo, .seals, .secure]) s s3 :=
      hroots.each _ _ fun _ t => (Goes.refl _ t).write _ _ _ (by decide)
  have hsetSecure : Goes (mask [.CFG_AGT_STAT, .SEAL_GRAN, .SEAL_LINE_STAT] [.boxMem, .config, .lease, .memo, .seals, .secure]) s s4 :=
      (hepoch.step (s3.goes_setSeal ..) (by decide)).step (State.goes_setSecure ..) (by decide)
  exact (hsetSecure.set_boxMem_config _ _ (mask_part (by decide)) (mask_part (by decide)) (fun _ => rfl)).step (State.goes_loseCaches ..)
      (by decide)

theorem State.goes_eraseSecrets (s : State) : Goes (mask [.DEV_SEC_STAT] [.lease, .secure, .store]) s s.eraseSecrets := by
  unfold State.eraseSecrets
  extract_lets s1
  have hsetRecord : Goes (mask [.DEV_SEC_STAT] [.lease, .secure, .store]) s s1 :=
      (Goes.refl _ s).each _ _ fun _ t => ((t.goes_useKey ..).lift (by decide)).step (State.goes_setRecord ..) (by decide)
  exact hsetRecord.set_store _ (mask_part (by decide))

theorem State.goes_zeroised (s : State) : Goes (mask (signals [.DEV_SEC_STAT]) (signalled [])) s s.zeroised :=
  ((Goes.refl _ s).write _ _ _ (by decide)).raised _ (by decide)

/-! ### What outlives a reset beside the registers -/

theorem State.goes_heldFabric (t s : State) :
    Goes (mask [] (.bms :: .config :: .images :: .isoAbsorb :: .trees :: .uclkUse :: resetStagesParts)) t (t.heldFabric s) := by
  unfold State.heldFabric
  extract_lets _ s1 s2
  have hcells : Goes (mask [] (.bms :: .config :: .images :: .isoAbsorb :: .trees :: .uclkUse :: resetStagesParts)) t s1 :=
      (Goes.refl _ t).set_cells_words_elements_trees_bms_isoAbsorb_uclkUse_images_config _ _ _ _ _ _ _ _ _ (mask_part (by decide)) (mask_part
        (by decide)) (mask_part (by decide)) (mask_part (by decide)) (mask_part (by decide)) (mask_part (by decide)) (mask_part (by decide))
        (mask_part (by decide)) (mask_part (by decide))
  have hresetStages : Goes (mask [] (.bms :: .config :: .images :: .isoAbsorb :: .trees :: .uclkUse :: resetStagesParts)) t s2 :=
      hcells.each _ _ fun _ u => (u.goes_resetStages ..).lift (by decide)
  exact hresetStages.each _ _ fun _ u => (Goes.refl _ u).set_bms _ (mask_part (by decide))

theorem State.goes_restartServices (s : State) (k : ResetKind) : Goes (mask [] [.freeValues, .svc]) s (s.restartServices k) := by
  unfold State.restartServices
  extract_lets s1
  have hdestroyAll : Goes (mask [] [.freeValues, .svc]) s s1 := (s.goes_destroyAll).lift (by decide)
  exact Goes.ite (((Goes.refl _ s).set_svc _ (mask_part (by decide))).drew (mask_part (by decide))) (hdestroyAll.set_svc _ (mask_part (by decide)))

/-- Every part but the clock and the commands that wait. -/
def clearedParts : List Part := [.shadows, .waiting, .crossings, .pulses, .copies, .samplers, .cells, .words, .elements, .isos, .taken, .trees, .flying,
  .taps, .arbiters, .bms, .isoAbsorb, .uclkUse, .restoring, .evt, .boxes, .boxMem, .svc, .axes, .encLevel, .encOpen, .strobeT, .strobeAt, .beaconAt,
  .sorters, .insWords, .insRes, .gates, .plcs, .pins, .rings, .lease, .chans, .jobs, .letterBudget, .letterQueue, .fires, .memo, .seals, .laneTx,
  .laneSkip, .store, .images, .monitors, .links, .ports, .heaters, .config, .power, .resets, .secure, .franker, .outputs, .freeValues, .timers]

theorem State.goes_cleared (s : State) (k : ResetKind) : Goes (mask Reg.all clearedParts) s (s.cleared k) := by
  have hkept : Goes (mask Reg.all clearedParts) s (s.restartServices k) := (s.goes_restartServices k).lift inside_all
  refine hkept.trans ⟨fun f i hf => ?_, fun p hp => ?_, Tbl.wf_keep _, fun _ => rfl, fun w => ?_, List.prefix_refl _⟩
  · rw [mask_reg (Reg.mem_all _)] at hf
    cases hf
  · by_cases hin : p ∈ clearedParts
    · rw [mask_part hin] at hp
      cases hp
    · cases p <;> first | rfl | exact absurd (by decide) hin
  · show Tbl.wf (0 : Byte) (if (s.restartServices k).losesStacks k then [] else (s.restartServices k).memo.bytes) = true
    split
    · rfl
    · exact w

theorem State.goes_freshGranules (s : State) (markLost : Bool) :
    Goes (mask (signals [.SEAL_GRAN, .SEAL_LINE_STAT]) (signalled [.seals])) s (s.freshGranules markLost) := by
  unfold State.freshGranules
  extract_lets _ s1 s2 s3
  have hlost : Goes (mask (signals [.SEAL_GRAN, .SEAL_LINE_STAT]) (signalled [.seals])) s s1 :=
      (Goes.refl _ s).each _ _ fun _ t => (((Goes.refl _ t).write _ _ _ (by decide)).write _ _ _ (by decide)).write _ _ _ (by decide)
  have hlost2 : Goes (mask (signals [.SEAL_GRAN, .SEAL_LINE_STAT]) (signalled [.seals])) s s2 :=
      hlost.when _ _ fun t => (Goes.refl _ t).each _ _ fun _ u => (Goes.refl _ u).write _ _ _ (by decide)
  have hkeys : Goes (mask (signals [.SEAL_GRAN, .SEAL_LINE_STAT]) (signalled [.seals])) s s3 :=
      hlost2.each _ _ fun _ t => ((Goes.refl _ t).write _ _ _ (by decide)).write _ _ _ (by decide)
  exact (hkeys.when _ _ fun t => (Goes.refl _ t).raised _ (by decide)).when _ _ fun t => (t.goes_drawSealKeys).lift (by decide)

theorem State.goes_keepRng (s was : State) : Goes (mask [.DEV_RNG_STAT] []) s (s.keepRng was) :=
  ((Goes.refl _ s).write _ _ _ (by decide)).write _ _ _ (by decide)

theorem State.goes_keepMonitors (s was : State) : Goes (mask [.PWR_MON] []) s (s.keepMonitors was) :=
  (Goes.refl _ s).each _ _ fun _ t => ((Goes.refl _ t).write _ _ _ (by decide)).write _ _ _ (by decide)

/-- What a device-wide reset clears is cleared, and its cause is kept for the release. -/
def State.clearedFor (s : State) (k : ResetKind) (cause : Nat) : State :=
  let t := s.cleared k
  { t with resets := { t.resets with cause := cause, rebuild := decide (k = ResetKind.pin) || t.resets.rebuild } }

/-- The parts that the steps of a device-wide reset may change once it has cleared what it clears: all but the state of the resets. -/
def resetStepParts : List Part := clearedParts.filter (· != .resets)

/-- The steps of a device-wide reset leave the state of the resets, and the life cycle that is shown. -/
theorem State.goes_enterReset_of_clearedFor (s : State) (k : ResetKind) (cause : Nat) :
    Goes (mask Reg.most resetStepParts) (s.clearedFor k cause) (s.enterReset k cause) := by
  unfold State.enterReset
  extract_lets s1 _ s2 s3 s4 s5 s6 s7
  have hrng : Goes (mask Reg.most resetStepParts) s2 s3 := by
    simp only [s3]
    split
    · exact ((s2.goes_restartRng).lift inside_most).write _ _ _ (Reg.mem_most (by decide))
    · exact ((s2.goes_restartRng).lift inside_most).write _ _ _ (Reg.mem_most (by decide))
    · exact ((s2.goes_keepRng _).lift inside_most).each _ _ fun _ t => (Goes.refl _ t).write _ _ _ (Reg.mem_most (by decide))
  have hgran : Goes (mask Reg.most resetStepParts) s2 s4 := hrng.when _ _ fun t => (t.goes_freshGranules _).lift inside_most
  have hmon : Goes (mask Reg.most resetStepParts) s2 s5 := hgran.when _ _ fun t =>
    ((t.goes_keepMonitors _).lift inside_most).bump _ _ _ (mask_reg (Reg.mem_most (by decide)))
  have hheld : Goes (mask Reg.most resetStepParts) s2 s6 := hmon.when _ _ fun t => ((t.goes_heldFabric _).lift inside_most).each _ _
    fun _ u => ((Goes.refl _ u).write _ _ _ (Reg.mem_most (by decide))).step (State.goes_showClocks ..) inside_most
  have hout : Goes (mask Reg.most resetStepParts) s2 s7 :=
    (hheld.emit _ (mask_part (by decide))).when _ _ fun t => (Goes.refl _ t).emit _ (mask_part (by decide))
  exact (hout.step (State.goes_showWear _) inside_most).step (State.goes_refreshPins _) inside_most

theorem State.goes_enterReset (s : State) (k : ResetKind) (cause : Nat) : Goes (mask Reg.all clearedParts) s (s.enterReset k cause) :=
  ((s.goes_cleared k).set_resets _ (mask_part (by decide))).step (s.goes_enterReset_of_clearedFor k cause) inside_all

/-! ### The fabric reset (R492) -/

theorem State.goes_emptySorter (s : State) (n : Nat) : Goes (mask flushRegs spaceParts) s (s.emptySorter n) := by
  unfold State.emptySorter
  extract_lets s1
  have hemptyInto : Goes (mask flushRegs spaceParts) s s1 := (State.goes_emptyInto ..).lift (by decide)
  exact hemptyInto.step (s1.goes_setSrt ..) (by decide)

/-- The registers of `fabricReset`. -/
def fabricResetRegs : List Reg := .CFG_BM_STAT :: .CFG_FAB_STAT :: .CFG_RGN_STAT :: .CFG_TREE_STAT :: .DEV_ISL_HELD :: .DEV_RGN_ACCESS :: .DEV_XDROP
  :: .MEM_HOME_STAT :: .PST_LOCK :: .PST_MB_REQ :: flushRegs ++ memRegs

/-- The parts of `fabricReset`. -/
def fabricResetParts : List Part := .config :: .gates :: .insWords :: .resets :: .samplers :: .seals :: resetRegionParts ++ headParts

theorem State.goes_fabricReset (s : State) : Goes (mask fabricResetRegs fabricResetParts) s s.fabricReset := by
  unfold State.fabricReset
  extract_lets _ s1 s2 s3 s4 s5 s6 s7 s8
  have hinhibit : Goes (mask fabricResetRegs fabricResetParts) s s1 := (Goes.refl _ s).each _ _ fun _ t => (t.goes_inhibit ..).lift (by decide)
  have hflushMeta : Goes (mask fabricResetRegs fabricResetParts) s s2 :=
      (hinhibit.step (s1.goes_writeBackCaches ..) (by decide)).step (State.goes_flushMeta _) (by decide)
  have hresetRegion : Goes (mask fabricResetRegs fabricResetParts) s s3 :=
      hflushMeta.each _ _ fun _ t => ((t.goes_isolate ..).lift (by decide)).step (State.goes_resetRegion ..) (by decide)
  have hemptySorter : Goes (mask fabricResetRegs fabricResetParts) s s4 := hresetRegion.each _ _ fun _ t => (t.goes_emptySorter ..).lift (by decide)
  have hshadows : Goes (mask fabricResetRegs fabricResetParts) s s5 :=
      hemptySorter.set_shadows_insWords_gates _ _ _ (mask_part (by decide)) (mask_part (by decide)) (mask_part (by decide))
  have hstoreWord : Goes (mask fabricResetRegs fabricResetParts) s s6 := hshadows.each _ _ fun _ t => (t.goes_storeWord ..).lift (by decide)
  have hwritten : Goes (mask fabricResetRegs fabricResetParts) s s7 :=
      hstoreWord.eachMem _ _ fun f hf t => (Goes.refl _ t).each _ _ fun _ u => (Goes.refl _ u).clr f _
        (mask_reg (by revert f; decide))
  have hcrossRelease : Goes (mask fabricResetRegs fabricResetParts) s s8 :=
      hwritten.each _ _ fun _ t => ((t.goes_crossAssert ..).lift (by decide)).step (State.goes_crossRelease ..) (by decide)
  exact hcrossRelease.set_resets _ (mask_part (by decide))

theorem State.goes_restoreAll (s : State) : Goes (mask [.CFG_NVM_STAT, .CFG_RGN_STAT] [.config, .restoring]) s s.restoreAll := by
  unfold State.restoreAll
  exact ((Goes.refl _ s).each _ _ fun _ t => (t.goes_beginRestore ..).lift (by decide)).step (State.goes_setConfig _ _) (by decide)
end Sys2Proof.Machine
end

section
/-! PROOFS. Loads of the device as frames. -/

namespace Sys2Proof.Machine

-- One proof after another: side by side they need more memory than a check has.
set_option Elab.async false

/-! ### CFG_DONE and the start -/

theorem State.goes_driveDone (s : State) (low : Bool) : Goes (mask [.CFG_STAT] [.outputs, .timers]) s (s.driveDone low) :=
  Goes.ite (Goes.refl _ s) (((((Goes.refl _ s).write _ _ _ (by decide)).writeIf _ _ _ _ (by decide)).emit _ (mask_part (by decide))).step
      (State.goes_startTimer ..) (by decide))

theorem State.goes_enterPhase (s : State) (ph : Nat) :
    Goes (mask (signals [.PIN_GSTAT, .PIN_ICONF, .PIN_OCONF]) stopDomainParts) s (s.enterPhase ph) :=
  ((s.goes_setPhase ..).lift (by decide)).step (State.goes_refreshPins _) (by decide)

theorem State.goes_enterService (s : State) :
    Goes (mask (signals [.PIN_GSTAT, .PIN_ICONF, .PIN_OCONF]) (.resets :: stopDomainParts)) s s.enterService := by
  unfold State.enterService
  extract_lets s1 _ s2
  have hraised : Goes (mask (signals [.PIN_GSTAT, .PIN_ICONF, .PIN_OCONF]) (.resets :: stopDomainParts)) s s1 :=
      ((s.goes_enterPhase ..).lift (by decide)).raised _ (by decide)
  have hresets : Goes (mask (signals [.PIN_GSTAT, .PIN_ICONF, .PIN_OCONF]) (.resets :: stopDomainParts)) s s2 :=
      hraised.set_resets _ (mask_part (by decide))
  exact Goes.ite ((hresets.raised _ (by decide)).raised _ (by decide)) hraised

/-! ### Region loads (R424, R426, R445) -/

/-- The registers of `nextRegionLoad`. -/
def nextRegionLoadRegs : List Reg := .CFG_BM_STAT :: .CFG_FAB_STAT :: .CFG_ISO_CNT :: .CFG_NVM_STAT :: .CFG_RGN_STAT :: .CFG_TREE_STAT :: .PIN_GSTAT
  :: .PIN_ICONF :: .PIN_OCONF :: funcRegs

theorem State.goes_nextRegionLoad (s : State) :
    Goes (mask nextRegionLoadRegs (.config :: .gates :: .pins :: .trees :: resetRegionParts)) s s.nextRegionLoad := by
  unfold State.nextRegionLoad
  split
  · exact Goes.refl _ s
  · exact Goes.ite (Goes.refl _ s) (((((s.goes_isolate ..).lift (by decide)).step (State.goes_resetRegion ..) (by decide)).when _ _ fun t =>
      (t.goes_suspendErases).lift (by decide)).step (State.goes_setConfig ..) (by decide))

theorem State.goes_endXreq (s : State) (q cause : Nat) : Goes (mask (signals [.CFG_XSTAT]) (signalled [])) s (s.endXreq q cause) := by
  unfold State.endXreq
  extract_lets s1
  have hcause : Goes (mask (signals [.CFG_XSTAT]) (signalled [])) s s1 := ((Goes.refl _ s).write _ _ _ (by decide)).write _ _ _ (by decide)
  exact (hcause.when _ _ fun t => (Goes.refl _ t).addMod _ _ _ (mask_reg (by decide))).raisedOf _ _ _ (by decide)

theorem State.goes_cancelRegionLoads (s : State) : Goes (mask (signals (counting [.CFG_XSTAT])) (signalled [.config, .svc])) s s.cancelRegionLoads := by
  unfold State.cancelRegionLoads
  extract_lets _ s1
  have hsetConfig : Goes (mask (signals (counting [.CFG_XSTAT])) (signalled [.config, .svc])) s s1 := (s.goes_setConfig ..).lift (by decide)
  exact hsetConfig.each _ _ fun _ t => (by
    split
    · exact (t.goes_endXreq ..).lift (by decide)
    · exact (t.goes_completeOn ..).lift (by decide))

/-! ### Full loads (R417, R418, R423) -/

theorem State.goes_stream (s : State) (asked slot : Nat) (reload : Bool) :
    Goes (mask [.CFG_DESIGN, .CFG_NVM_STAT, .CFG_RGN_STAT, .CFG_SRC, .CFG_STAT] [.config, .outputs, .restoring, .timers]) s (s.stream asked slot
      reload) := by
  unfold State.stream
  extract_lets s1 s2 _ s3 s4
  have hwait : Goes (mask [.CFG_DESIGN, .CFG_NVM_STAT, .CFG_RGN_STAT, .CFG_SRC, .CFG_STAT] [.config, .outputs, .restoring, .timers]) s s1 :=
      (((Goes.refl _ s).write _ _ _ (by decide)).write _ _ _ (by decide)).write _ _ _ (by decide)
  have hid : Goes (mask [.CFG_DESIGN, .CFG_NVM_STAT, .CFG_RGN_STAT, .CFG_SRC, .CFG_STAT] [.config, .outputs, .restoring, .timers]) s s2 :=
      ((hwait.write _ _ _ (by decide)).write _ _ _ (by decide)).write _ _ _ (by decide)
  have hdriveDone : Goes (mask [.CFG_DESIGN, .CFG_NVM_STAT, .CFG_RGN_STAT, .CFG_SRC, .CFG_STAT] [.config, .outputs, .restoring, .timers]) s s3 :=
      (hid.set_restoring_config _ _ (mask_part (by decide)) (mask_part (by decide))).step (State.goes_driveDone ..) (by decide)
  have hisolated : Goes (mask [.CFG_DESIGN, .CFG_NVM_STAT, .CFG_RGN_STAT, .CFG_SRC, .CFG_STAT] [.config, .outputs, .restoring, .timers]) s s4 :=
      hdriveDone.each _ _ fun _ t => ((Goes.refl _ t).write _ _ _ (by decide)).write _ _ _ (by decide)
  exact (hisolated.step (s4.goes_setConfig ..) (by decide)).step (State.goes_suspendErases _) (by decide)

theorem State.goes_runLoad (s : State) (l : FullLoad) : Goes (mask Reg.most (.restoring :: fabricResetParts ++ holdParts)) s (s.runLoad l) :=
  Goes.ite ((((s.goes_stopFranker).lift inside_most).step (State.goes_fabricReset _) inside_most).step (State.goes_stream ..) inside_most)
      (((s.goes_stopFranker).lift inside_most).step (State.goes_stream ..) inside_most)

theorem State.goes_askLoad (s : State) (slot : Nat) (reload : Bool) :
    Goes (mask Reg.most (.restoring :: fabricResetParts ++ holdParts)) s (s.askLoad slot reload) := by
  unfold State.askLoad
  extract_lets s1
  have hcancelRegionLoads : Goes (mask Reg.most (.restoring :: fabricResetParts ++ holdParts)) s s1 := (s.goes_cancelRegionLoads).lift inside_most
  exact Goes.ite (hcancelRegionLoads.trans (s1.goes_runLoad ..)) (hcancelRegionLoads.step (s1.goes_setConfig ..) inside_most)

theorem State.goes_emptyAll (s : State) :
    Goes (mask (signals [.CFG_ISO_CNT, .CFG_RGN_STAT, .CFG_TREE_STAT, .PIN_GSTAT, .PIN_ICONF, .PIN_OCONF, .PWR_RGN_STAT]) emptyRegionParts) s
      s.emptyAll := by
  unfold State.emptyAll
  extract_lets s1
  have hemptyRegion : Goes (mask (signals [.CFG_ISO_CNT, .CFG_RGN_STAT, .CFG_TREE_STAT, .PIN_GSTAT, .PIN_ICONF, .PIN_OCONF, .PWR_RGN_STAT])
        emptyRegionParts) s s1 :=
      (Goes.refl _ s).each _ _ fun _ t => (t.goes_emptyRegion ..).lift (by decide)
  exact hemptyRegion.step (s1.goes_setConfig ..) (by decide)

theorem State.goes_frankerService (s : State) :
    Goes (mask Reg.most (.config :: .gates :: .ports :: .resets :: holdParts ++ resetRegionParts)) s s.frankerService := by
  unfold State.frankerService
  extract_lets s1
  have henterService : Goes (mask Reg.most (.config :: .gates :: .ports :: .resets :: holdParts ++ resetRegionParts)) s s1 :=
      (((s.goes_startFranker).lift inside_most).step (State.goes_driveDone ..) inside_most).step (State.goes_enterService _) inside_most
  exact (henterService.step (s1.goes_completeOn ..) inside_most).step (State.goes_nextRegionLoad _) inside_most

theorem State.goes_endFabric (s : State) : Goes (mask (signals (counting [])) (signalled [.resets, .svc])) s s.endFabric :=
  Goes.ite ((((Goes.refl _ s).set_resets _ (mask_part (by decide))).raised _ (by decide)).step (State.goes_completeAll ..) (by decide)) (Goes.refl _
      s)

theorem State.goes_noImage (s : State) :
    Goes (mask Reg.most (.crossings :: .ports :: .resets :: .waiting :: holdParts ++ emptyRegionParts)) s s.noImage := by
  unfold State.noImage
  extract_lets s1 s2
  have hemptyAll : Goes (mask Reg.most (.crossings :: .ports :: .resets :: .waiting :: holdParts ++ emptyRegionParts)) s s1 :=
      ((s.goes_setConfig ..).lift inside_most).step (State.goes_emptyAll _) inside_most
  have hendFabric : Goes (mask Reg.most (.crossings :: .ports :: .resets :: .waiting :: holdParts ++ emptyRegionParts)) s s2 :=
      hemptyAll.step (s1.goes_endFabric) inside_most
  exact hendFabric.when _ _ fun t => (t.goes_frankerService).lift inside_most

theorem State.goes_setFallback (s : State) (slot : Nat) (x : Nat × Nat) :
    Goes (mask (signals [.CFG_FAIL, .CFG_STAT]) (signalled [])) s (s.setFallback slot x) :=
  (((s.goes_recordFail ..).lift (by decide)).write _ _ _ (by decide)).raised _ (by decide)

theorem State.goes_loadFailed (s : State) (l : FullLoad) (x : Nat × Nat) :
    Goes (mask Reg.most (.crossings :: .ports :: .resets :: .waiting :: holdParts ++ emptyRegionParts)) s (s.loadFailed l x) := by
  unfold State.loadFailed
  extract_lets s1 s2
  have hsetFallback : Goes (mask Reg.most (.crossings :: .ports :: .resets :: .waiting :: holdParts ++ emptyRegionParts)) s s1 :=
      (s.goes_setFallback ..).lift inside_most
  have hraised : Goes (mask Reg.most (.crossings :: .ports :: .resets :: .waiting :: holdParts ++ emptyRegionParts)) s s2 :=
      hsetFallback.when _ _ fun t => (Goes.refl _ t).raised _ inside_most
  exact Goes.ite s.goes_noImage (Goes.ite (hraised.trans (s2.goes_noImage)) ((hraised.step (s2.goes_enterPhase ..) inside_most).step
      (State.goes_stream ..) inside_most))

/-! ### How region loads, restores and refetches end (R424, R425, R453) -/

theorem State.goes_askRegionReset (s : State) (n : Nat) (wake : Bool) :
    Goes (mask regionResetRegs (.config :: .gates :: .restoring :: resetRegionParts ++ inhibitParts)) s (s.askRegionReset n wake) := by
  unfold State.askRegionReset
  extract_lets s1
  have hregionReset : Goes (mask regionResetRegs (.config :: .gates :: .restoring :: resetRegionParts ++ inhibitParts)) s s1 :=
      (s.goes_regionReset ..).lift (by decide)
  exact Goes.ite hregionReset (hregionReset.step (s1.goes_completeAll ..) (by decide))

theorem State.goes_endRegionLoad (s : State) (l : RegionLoad) (cause : Nat) :
    Goes (mask Reg.most (.restoring :: fabricResetParts ++ holdParts)) s (s.endRegionLoad l cause) := by
  unfold State.endRegionLoad
  extract_lets _ s1 s2 s3 _ s4 s5
  have hsetConfig : Goes (mask Reg.most (.restoring :: fabricResetParts ++ holdParts)) s s1 := (s.goes_setConfig ..).lift inside_most
  have hraised : Goes (mask Reg.most (.restoring :: fabricResetParts ++ holdParts)) s s2 :=
      hsetConfig.when _ _ fun t => (Goes.refl _ t).raised _ inside_most
  have hcase : Goes (mask Reg.most (.restoring :: fabricResetParts ++ holdParts)) s s3 := by
    simp only [s3]
    split
    · exact hraised.step (s2.goes_endXreq ..) inside_most
    · exact hraised.step (s2.goes_completeOn ..) inside_most
  have hsetConfig2 : Goes (mask Reg.most (.restoring :: fabricResetParts ++ holdParts)) s s4 := hcase.step (s3.goes_setConfig ..) inside_most
  have haskRegionReset : Goes (mask Reg.most (.restoring :: fabricResetParts ++ holdParts)) s s5 :=
      hsetConfig2.when _ _ fun t => (t.goes_askRegionReset ..).lift inside_most
  split
  · exact haskRegionReset.trans (s5.goes_runLoad ..)
  · exact haskRegionReset.step (s5.goes_nextRegionLoad) inside_most

theorem State.goes_regionLoadFails (s : State) (l : RegionLoad) (x : Nat × Nat) :
    Goes (mask Reg.most (.images :: .restoring :: .uclkUse :: fabricResetParts ++ holdParts)) s (s.regionLoadFails l x) := by
  unfold State.regionLoadFails
  extract_lets s1 _ s2
  have hrecordFail : Goes (mask Reg.most (.images :: .restoring :: .uclkUse :: fabricResetParts ++ holdParts)) s s1 :=
      (s.goes_recordFail ..).lift inside_most
  have hcase : Goes (mask Reg.most (.images :: .restoring :: .uclkUse :: fabricResetParts ++ holdParts)) s s2 := by
    simp only [s2]
    split
    · exact hrecordFail.write _ _ _ (Reg.mem_most rfl)
    · exact hrecordFail
  exact Goes.ite ((hrecordFail.step (s1.goes_emptyRegion ..) inside_most).step (State.goes_endRegionLoad ..) inside_most) (hcase.step
      (s2.goes_setConfig ..) inside_most)

theorem State.goes_refetchFails (s : State) (r : Refetch) : Goes (mask Reg.most (.restoring :: fabricResetParts ++ holdParts)) s (s.refetchFails r) := by
  unfold State.refetchFails
  extract_lets s1
  have hraised : Goes (mask Reg.most (.restoring :: fabricResetParts ++ holdParts)) s s1 :=
      ((s.goes_setConfig ..).lift inside_most).raised _ inside_most
  exact Goes.ite ((hraised.step (s1.goes_recordFail ..) inside_most).step (State.goes_regionReset ..) inside_most) (Goes.ite (((((hraised.step
      (s1.goes_stopFranker) inside_most).step (State.goes_fabricReset _) inside_most).step (State.goes_setFallback ..) inside_most).step
      (State.goes_enterPhase ..) inside_most).step (State.goes_stream ..) inside_most) (hraised.trans (s1.goes_askLoad ..)))

theorem State.goes_plainFabric (s : State) :
    Goes (mask (.CFG_DESIGN :: .CFG_NVM_STAT :: .CFG_SRC :: .CFG_STAT :: .DEV_FRK_MISS :: .PWR_RGN_STAT :: fabricResetRegs) (.fires :: .franker ::
      .images :: .restoring :: .timers :: .uclkUse :: fabricResetParts)) s s.plainFabric := by
  unfold State.plainFabric
  extract_lets _ _ s1 s2 s3
  have hsvc : Goes (mask (.CFG_DESIGN :: .CFG_NVM_STAT :: .CFG_SRC :: .CFG_STAT :: .DEV_FRK_MISS :: .PWR_RGN_STAT :: fabricResetRegs) (.fires ::
        .franker :: .images :: .restoring :: .timers :: .uclkUse :: fabricResetParts)) s s1 :=
      (Goes.refl _ s).set_svc _ (mask_part (by decide))
  have hsetConfig : Goes (mask (.CFG_DESIGN :: .CFG_NVM_STAT :: .CFG_SRC :: .CFG_STAT :: .DEV_FRK_MISS :: .PWR_RGN_STAT :: fabricResetRegs) (.fires
        :: .franker :: .images :: .restoring :: .timers :: .uclkUse :: fabricResetParts)) s s2 :=
      hsvc.step (s1.goes_setConfig ..) (by decide)
  have hflushMessages : Goes (mask (.CFG_DESIGN :: .CFG_NVM_STAT :: .CFG_SRC :: .CFG_STAT :: .DEV_FRK_MISS :: .PWR_RGN_STAT :: fabricResetRegs)
        (.fires :: .franker :: .images :: .restoring :: .timers :: .uclkUse :: fabricResetParts)) s s3 :=
      (hsetConfig.each _ _ fun _ t => (t.goes_emptyRegion ..).lift (by decide)).when _ _ fun t => (t.goes_flushMessages ..).lift (by decide)
  split
  · exact (hflushMessages.step (s3.goes_fabricReset) (by decide)).step (State.goes_stream ..) (by decide)
  · exact (hflushMessages.step (s3.goes_fabricReset) (by decide)).step (State.goes_restoreAll _) (by decide)

/-! ### The firmware (R416) -/

theorem State.goes_setFirmware (s : State) (ready copy recovery : Nat) :
    Goes (mask (signals [.PST_FW_STAT]) (signalled [])) s (s.setFirmware ready copy recovery) := by
  unfold State.setFirmware
  extract_lets _ s1
  have hrecovery : Goes (mask (signals [.PST_FW_STAT]) (signalled [])) s s1 :=
      (((Goes.refl _ s).write _ _ _ (by decide)).write _ _ _ (by decide)).write _ _ _ (by decide)
  exact hrecovery.when _ _ fun t => (Goes.refl _ t).raised _ (by decide)

theorem State.goes_startCopy (s : State) (n : Nat) (recovery : Bool) :
    Goes (mask (signals [.PIN_GSTAT, .PIN_ICONF, .PIN_OCONF, .PST_FW_STAT]) (.config :: .timers :: stopDomainParts)) s (s.startCopy n recovery) := by
  unfold State.startCopy
  extract_lets s1 s2
  have hstartTimer : Goes (mask (signals [.PIN_GSTAT, .PIN_ICONF, .PIN_OCONF, .PST_FW_STAT]) (.config :: .timers :: stopDomainParts)) s s1 :=
      (((s.goes_setFirmware ..).lift (by decide)).write _ _ _ (by decide)).step (State.goes_startTimer ..) (by decide)
  have hsetConfig : Goes (mask (signals [.PIN_GSTAT, .PIN_ICONF, .PIN_OCONF, .PST_FW_STAT]) (.config :: .timers :: stopDomainParts)) s s2 :=
      hstartTimer.step (s1.goes_setConfig ..) (by decide)
  exact hsetConfig.when _ _ fun t => (t.goes_enterPhase ..).lift (by decide)
end Sys2Proof.Machine
end

section
/-! PROOFS. Copies of the firmware as frames. -/

namespace Sys2Proof.Machine

-- One proof after another: side by side they need more memory than a check has.
set_option Elab.async false

/-! ### Copies of the firmware (R416) -/

/-- The registers of the start of the firmware. -/
def copyRegs : List Reg :=
  signals [.CFG_FAIL, .CFG_ISO_CNT, .CFG_RGN_STAT, .CFG_STAT, .CFG_TREE_STAT, .PIN_GSTAT, .PIN_ICONF, .PIN_OCONF, .PST_FW_STAT, .PWR_RGN_STAT]

/-- The parts of the start of the firmware. -/
def copyParts : List Part := .timers :: emptyRegionParts

theorem State.goes_tryCopies (s : State) (f : StartFacts) (l : List Nat) : Goes (mask copyRegs copyParts) s (s.tryCopies f l) := by
  induction l generalizing s with
  | nil =>
    exact (((Goes.refl _ s).write _ _ _ (by decide)).step (State.goes_setConfig _ _) (by decide)).step (State.goes_emptyAll _) (by decide)
  | cons n l ih =>
    unfold State.tryCopies
    exact Goes.ite ((s.goes_startCopy ..).lift (by decide))
      ((((s.goes_setFallback ..).lift (by decide)).step (State.goes_setConfig _ _) (by decide)).trans (ih _))

end Sys2Proof.Machine
end

section
/-! PROOFS. Broadcasts and the resets of islands as frames. -/

namespace Sys2Proof.Machine

-- One proof after another: side by side they need more memory than a check has.
set_option Elab.async false

theorem State.goes_watchdog (s : State) (f : StartFacts) :
    Goes (mask (.DEV_ISL_HELD :: copyRegs) (.crossings :: .samplers :: copyParts)) s (s.watchdog f) := by
  unfold State.watchdog
  extract_lets _ s1 s2
  have hrestarts : Goes (mask (.DEV_ISL_HELD :: copyRegs) (.crossings :: .samplers :: copyParts)) s s1 :=
      ((s.goes_setFallback ..).lift (by decide)).bump _ _ _ (mask_reg (by decide))
  have hcrossRelease : Goes (mask (.DEV_ISL_HELD :: copyRegs) (.crossings :: .samplers :: copyParts)) s s2 :=
      (hrestarts.step (s1.goes_crossAssert ..) (by decide)).step (State.goes_crossRelease ..) (by decide)
  exact hcrossRelease.step (s2.goes_tryCopies ..) (by decide)

/-! ### Broadcasts (R430, R431) -/

theorem State.goes_beginStream (s : State) (b : Broadcast) : Goes (mask (signals (counting [])) (signalled [.config, .links])) s (s.beginStream b) :=
  Goes.ite (((((s.goes_setConfig ..).lift (by decide)).emit _ (mask_part (by decide))).step (State.goes_postMessage ..) (by decide)).raised _
      (by decide)) ((s.goes_setConfig ..).lift (by decide))

theorem goes_svcConfigBroadcast (L : Letter) (a1 : List Byte) (s : State) : Goes objectMask s (svcConfigBroadcast L a1 s).1 :=
  Goes.iteFst (Goes.refl _ s) (Goes.iteFst (Goes.refl _ s) (Goes.iteFst (Goes.refl _ s) (Goes.iteFst (Goes.refl _ s) (goes_accepted ..))))

theorem State.goes_pollMembers (s : State) (slot r : Nat) :
    Goes (mask (signals (counting [])) (.config :: .svc :: askParts)) s (s.pollMembers slot r) :=
  Goes.ite ((s.goes_completeOn ..).lift (by decide)) ((((s.goes_ringSend ..).lift (by decide)).step (State.goes_startTimer ..) (by decide)).step
      (State.goes_beginStream ..) (by decide))

theorem State.goes_broadcastLetter (s : State) (L : Letter) :
    Goes (mask (signals (counting [])) (.config :: .svc :: askParts)) s (s.broadcastLetter L) := by
  unfold State.broadcastLetter
  extract_lets
  refine Goes.ite (Goes.refl _ s) ?_
  split
  · exact Goes.serveThen (fun _ t => (goes_svcConfigBroadcast ..).lift (by decide)) (fun _ t => t.goes_pollMembers ..) s _ _ _ (by decide)
  · exact (Goes.serveThen (fun _ t => (goes_svcConfigBroadcast ..).lift (by decide)) (fun _ t => t.goes_pollMembers ..) s _ _ _
      (by decide)).orStalled _ _ (by decide)

/-! ### Island resets (R493) -/

theorem State.goes_abandonShutdown (s : State) :
    Goes (mask (signals [.DEV_ST_STAT, .PIN_GSTAT, .PIN_ICONF, .PIN_OCONF, .PWR_STATE]) (.power :: .secure :: switchParts)) s s.abandonShutdown := by
  unfold State.abandonShutdown
  extract_lets _ _ _ _ s1 s2
  have hsvc : Goes (mask (signals [.DEV_ST_STAT, .PIN_GSTAT, .PIN_ICONF, .PIN_OCONF, .PWR_STATE]) (.power :: .secure :: switchParts)) s s1 :=
      (Goes.refl _ s).set_svc_power_secure _ _ _ (mask_part (by decide)) (mask_part (by decide)) (mask_part (by decide))
  have hrunning : Goes (mask (signals [.DEV_ST_STAT, .PIN_GSTAT, .PIN_ICONF, .PIN_OCONF, .PWR_STATE]) (.power :: .secure :: switchParts)) s s2 :=
      (hsvc.write _ _ _ (by decide)).write _ _ _ (by decide)
  exact Goes.ite (Goes.refl _ s) (hrunning.when _ _ fun t => (t.goes_enterPhase ..).lift (by decide))

theorem State.goes_postroomReset (s : State) :
    Goes (mask Reg.most (.images :: .power :: .restoring :: .secure :: .uclkUse :: fabricResetParts ++ holdParts)) s s.postroomReset := by
  unfold State.postroomReset
  extract_lets s1 _ s2 s3 s4 s5 s6 s7 s8 s9
  have hrestarts : Goes (mask Reg.most (.images :: .power :: .restoring :: .secure :: .uclkUse :: fabricResetParts ++ holdParts)) s s1 :=
      ((s.goes_abandonShutdown).lift inside_most).bump _ _ _ (mask_reg (Reg.mem_most rfl))
  have hwithdraw : Goes (mask Reg.most (.images :: .power :: .restoring :: .secure :: .uclkUse :: fabricResetParts ++ holdParts)) s s2 :=
      (hrestarts.set_svc _ (mask_part (by decide))).step (State.goes_withdraw ..) inside_most
  have hcores : Goes (mask Reg.most (.images :: .power :: .restoring :: .secure :: .uclkUse :: fabricResetParts ++ holdParts)) s s3 :=
      (hwithdraw.step (s2.goes_setFirmware ..) inside_most).write _ _ _ (Reg.mem_most rfl)
  have hready : Goes (mask Reg.most (.images :: .power :: .restoring :: .secure :: .uclkUse :: fabricResetParts ++ holdParts)) s s4 :=
      hcores.each _ _ fun _ t => (Goes.refl _ t).write _ _ _ (Reg.mem_most rfl)
  have hsetMem : Goes (mask Reg.most (.images :: .power :: .restoring :: .secure :: .uclkUse :: fabricResetParts ++ holdParts)) s s5 :=
      hready.step (s4.goes_setMem ..) inside_most
  have hsent : Goes (mask Reg.most (.images :: .power :: .restoring :: .secure :: .uclkUse :: fabricResetParts ++ holdParts)) s s6 :=
      ((hsetMem.step (s5.goes_loseCaches ..) inside_most).step (State.goes_forgetAgents ..) inside_most).emit _ (mask_part (by decide))
  have hcompleteOn : Goes (mask Reg.most (.images :: .power :: .restoring :: .secure :: .uclkUse :: fabricResetParts ++ holdParts)) s s7 :=
      (hsent.step (s6.goes_setConfig ..) inside_most).step (State.goes_completeOn ..) inside_most
  have hcase : Goes (mask Reg.most (.images :: .power :: .restoring :: .secure :: .uclkUse :: fabricResetParts ++ holdParts)) s s8 := by
    simp only [s8]
    split
    · exact hcompleteOn.step (s7.goes_refetchFails ..) inside_most
    · exact hcompleteOn
  have hcase2 : Goes (mask Reg.most (.images :: .power :: .restoring :: .secure :: .uclkUse :: fabricResetParts ++ holdParts)) s s9 := by
    simp only [s9]
    split
    · exact Goes.ite (hcase.step (s8.goes_regionLoadFails ..) inside_most) hcase
    · exact hcase
  exact (hcase2.step (s9.goes_heatersLow) inside_most).step (State.goes_refreshPins _) inside_most

theorem State.goes_timebaseReset (s : State) : Goes (mask actRegs insertParts) s s.timebaseReset := by
  unfold State.timebaseReset
  extract_lets s1 s2
  have hdisarmAll : Goes (mask actRegs insertParts) s s1 := ((s.goes_calAbort ..).lift (by decide)).step (State.goes_disarmAll ..) (by decide)
  have hs : Goes (mask actRegs insertParts) s s2 :=
      hdisarmAll.each _ _ fun _ t => Goes.ite (Goes.refl _ t) (((t.goes_setPlc ..).lift (by decide)).each _ _ fun _ u => u.goes_lateAction ..)
  exact hs.step (s2.goes_refreshPins) (by decide)

theorem State.goes_tapReset (s : State) : Goes (mask (.TST_TAP_STAT :: funcRegs) (.crossings :: .waiting :: ownerParts)) s s.tapReset := by
  unfold State.tapReset
  extract_lets s1
  have hwithdraw : Goes (mask (.TST_TAP_STAT :: funcRegs) (.crossings :: .waiting :: ownerParts)) s s1 := (s.goes_withdraw ..).lift (by decide)
  exact ((hwithdraw.clr _ _ (mask_reg (by decide))).clr _ _ (mask_reg (by decide))).step (State.goes_resetOwner ..) (by decide)

/-- The parts of `islandReset`. -/
def islandResetParts : List Part := .images :: .ports :: .power :: .restoring :: .secure :: .uclkUse :: fabricResetParts ++ holdParts

theorem State.goes_islandReset (s : State) (d : Nat) (lost : List (Fin 144 × Lost)) :
    Goes (mask Reg.most islandResetParts) s (s.islandReset d lost) := by
  unfold State.islandReset
  extract_lets s1
  have hstartTimer : Goes (mask Reg.most islandResetParts) s s1 :=
      (((Goes.refl _ s).orFld _ _ _ (mask_reg (Reg.mem_most rfl))).step (State.goes_crossAssert ..) inside_most).step (State.goes_startTimer ..) inside_most
  exact Goes.ite ((hstartTimer.step (s1.goes_octetLanesReset ..) inside_most).step (State.goes_protocolsDown ..) inside_most) (Goes.ite
      (((hstartTimer.write _ _ _ (Reg.mem_most rfl)).clr _ _ (mask_reg (Reg.mem_most rfl))).clr _ _ (mask_reg (Reg.mem_most rfl))) (Goes.ite (hstartTimer.step
      (s1.goes_postroomReset) inside_most) (Goes.ite (hstartTimer.step (s1.goes_timebaseReset) inside_most) (hstartTimer.step (s1.goes_tapReset)
      inside_most))))

theorem State.goes_islandCmd (s : State) (v : Nat) (lost : List (Fin 144 × Lost)) : Goes (mask Reg.most islandResetParts) s (s.islandCmd v lost) :=
  Goes.ite (Goes.refl _ s) ((Goes.refl _ s).each _ _ fun _ t => t.goes_islandReset ..)

/-! ### Device and fabric resets (R382, R487, R491, R499) -/

theorem State.goes_atStage (s : State) (n : Nat) : Goes (mask [] [.resets]) s (s.atStage n) :=
  (Goes.refl _ s).set_resets _ (mask_part (by decide))

/-- The registers of `deviceReset`. -/
def deviceResetRegs : List Reg := .CFG_AGT_STAT :: .DEV_ST_STAT :: .MEM_HOME_STAT :: .PIN_GSTAT :: .PIN_ICONF :: .PIN_OCONF :: .PWR_STATE :: memRegs

theorem State.goes_deviceReset (s : State) :
    Goes (mask deviceResetRegs (.crossings :: .memo :: .power :: .resets :: .seals :: .secure :: switchParts)) s s.deviceReset :=
  Goes.ite (Goes.refl _ s) (((((s.goes_writeBackCaches ..).lift (by decide)).step (State.goes_flushMeta _) (by decide)).step
      (State.goes_abandonShutdown _) (by decide)).step (State.goes_atStage ..) (by decide))

/-- The registers of `fabricCmd`. -/
def fabricCmdRegs : List Reg := .CFG_DESIGN :: .CFG_NVM_STAT :: .CFG_SRC :: .CFG_STAT :: .DEV_FRK_MISS :: .DEV_ST_STAT :: .PWR_RGN_STAT :: .PWR_STATE
  :: fabricResetRegs

theorem State.goes_fabricCmd (s : State) :
    Goes (mask fabricCmdRegs (.fires :: .franker :: .power :: .secure :: fabricResetParts ++ copyParts)) s s.fabricCmd :=
  Goes.ite (Goes.refl _ s) (((s.goes_abandonShutdown).lift (by decide)).step (State.goes_plainFabric _) (by decide))

theorem State.goes_rstCmd (s : State) (p : Port) (v : Nat) :
    Goes (mask (.DEV_ACCESS_ADDR :: .DEV_ACCESS_ERR :: fabricCmdRegs) (.fires :: .franker :: .power :: .secure :: fabricResetParts ++ copyParts)) s
      (s.rstCmd p v) := by
  unfold State.rstCmd
  refine Goes.ite ((s.goes_accessError ..).lift (by decide)) ?_
  split
  · exact (s.goes_deviceReset).lift (by decide)
  · exact (s.goes_fabricCmd).lift (by decide)
  · exact Goes.refl _ s

/-! ### Loads (R415, R428, R429) -/

theorem State.goes_cfgCmd (s : State) (v : Nat) : Goes (mask Reg.most (.restoring :: fabricResetParts ++ holdParts)) s (s.cfgCmd v) :=
  Goes.ite ((s.goes_askLoad ..).lift inside_most) (Goes.refl _ s)

theorem State.goes_xreq (s : State) (q addr : Nat) :
    Goes (mask (.CFG_XSTAT :: nextRegionLoadRegs) (.config :: .gates :: .pins :: .trees :: resetRegionParts)) s (s.xreq q addr) := by
  unfold State.xreq
  extract_lets _ s1
  have hcause : Goes (mask (.CFG_XSTAT :: nextRegionLoadRegs) (.config :: .gates :: .pins :: .trees :: resetRegionParts)) s s1 :=
      ((Goes.refl _ s).write _ _ _ (by decide)).write _ _ _ (by decide)
  exact Goes.ite ((Goes.refl _ s).write _ _ _ (by decide)) ((hcause.step (s1.goes_setConfig ..) (by decide)).step (State.goes_nextRegionLoad _)
      (by decide))
end Sys2Proof.Machine
end

section
/-! PROOFS. Writes and reads of a register by its address, as frames. -/

namespace Sys2Proof.Machine

-- One proof after another: side by side they need more memory than a check has.
set_option Elab.async false

/-! ### Writes and reads of a register by its address (R6, R9) -/

/-- A write of a lockable register is refused, or takes place. -/
theorem Goes.lockable {rs : List Reg} {ps : List Part} {g : State → State} (hg : ∀ t, Goes (mask rs ps) t (g t)) (s : State) (p : Port) (r : Reg) (i : Nat)
    (locked : Bool) (hin : Inside (signals (errors [])) (signalled []) rs ps) : Goes (mask rs ps) s (s.lockable p r i locked g) :=
  Goes.ite ((s.goes_accessError ..).lift hin) (hg s)

theorem State.goes_plainWrite (s : State) (r : Reg) (i w v : Nat) : Goes (mask Reg.all []) s (s.plainWrite r i w v) :=
  ((s.goes_storeWord ..).lift inside_all).each _ _ fun _ t => Goes.ite ((Goes.refl _ t).write _ _ _ (Reg.mem_all _)) (Goes.refl _ t)

theorem State.goes_writePst (s : State) (p : Port) (r : Reg) (i w v : Nat) : Goes (mask Reg.all insertParts) s (s.writePst p r i w v) := by
  unfold State.writePst
  split
  · split
    · exact (s.goes_doorbell ..).lift inside_all
    · exact Goes.refl _ s
  · split
    · exact (s.goes_replyHead ..).lift inside_all
    · exact Goes.refl _ s
  · exact Goes.ite ((s.goes_unlock ..).lift inside_all) (Goes.refl _ s)
  · exact (s.goes_plainWrite ..).lift inside_all

theorem State.goes_rngRead (s : State) (p : Port) : Goes (mask [] [.freeValues, .outputs, .shadows]) s (s.rngRead p) := by
  unfold State.rngRead
  extract_lets low high
  have hshadow : Goes (mask [] [.freeValues, .outputs, .shadows]) s
      { s with shadows := Tbl.set 0 s.shadows (shadowKey p .DEV_RNG_DATA 0) high } := (Goes.refl _ s).set_shadows _ (mask_part (by decide))
  exact (hshadow.when _ _ fun t => (Goes.refl _ t).drew (mask_part (by decide))).emit _ (mask_part (by decide))

/-- The parts of a read. -/
def readParts : List Part := .freeValues :: .pins :: headParts

theorem State.goes_readReg (s : State) (p : Port) (r : Reg) (i w : Nat) : Goes (mask Reg.all readParts) s (s.readReg p r i w) := by
  have hupper (v : Nat) : Goes (mask Reg.all readParts) s (s.emit (.readValue p v)) := (Goes.refl _ s).emit _ (mask_part (by decide))
  unfold State.readReg
  extract_lets upper
  split
  · exact ((s.goes_acquire ..).lift inside_all).emit _ (mask_part (by decide))
  · exact Goes.ite ((s.goes_readPos ..).lift inside_all) (hupper _)
  · exact hupper _
  · exact Goes.ite ((s.goes_readHead ..).lift inside_all) (hupper _)
  · exact hupper _
  · exact hupper _
  · exact Goes.ite ((s.goes_rngRead ..).lift inside_all) (hupper _)
  · exact ((s.goes_sampleBank ..).lift inside_all).step (State.goes_readClear ..) inside_all
  · exact Goes.ite ((s.goes_readClear ..).lift inside_all) (Goes.ite ((s.goes_wideRead ..).lift inside_all) (hupper _))

end Sys2Proof.Machine
end

section
/-! PROOFS. The register space as frames. -/

namespace Sys2Proof.Machine

-- One proof after another: side by side they need more memory than a check has.
set_option Elab.async false

/-! ### Writes -/

theorem State.goes_rgnCtl (s : State) (n v : Nat) : Goes (mask (signals [.PWR_RGN_CTL, .PWR_RGN_STAT]) (signalled [])) s (s.rgnCtl n v) := by
  unfold State.rgnCtl
  extract_lets _ _ _ _ s1 s2 s3 s4
  have hmode : Goes (mask (signals [.PWR_RGN_CTL, .PWR_RGN_STAT]) (signalled [])) s s1 := (Goes.refl _ s).write _ _ _ (by decide)
  have hmargin : Goes (mask (signals [.PWR_RGN_CTL, .PWR_RGN_STAT]) (signalled [])) s s2 := hmode.writeIf _ _ _ _ (by decide)
  have hcap : Goes (mask (signals [.PWR_RGN_CTL, .PWR_RGN_STAT]) (signalled [])) s s3 := hmargin.writeIf _ _ _ _ (by decide)
  have hv : Goes (mask (signals [.PWR_RGN_CTL, .PWR_RGN_STAT]) (signalled [])) s s4 := hcap.writeIf _ _ _ _ (by decide)
  exact (hv.step (s4.goes_setVset ..) (by decide)).when _ _ fun t => ((Goes.refl _ t).write _ _ _ (by decide)).raisedOf _ _ _ (by decide)

theorem State.goes_laneDfe (s : State) (i v : Nat) : Goes (mask [.LANE_DFE] [.ports]) s (s.laneDfe i v) :=
  Goes.ite (Goes.refl _ s) (((s.goes_setLaneSet ..).lift (by decide)).write _ _ _ (by decide))

theorem State.goes_laneRxeq (s : State) (l v : Nat) : Goes (mask [.LANE_DFE, .LANE_RXEQ, .LANE_STAT] []) s (s.laneRxeq l v) := by
  unfold State.laneRxeq
  extract_lets s1
  have hctle : Goes (mask [.LANE_DFE, .LANE_RXEQ, .LANE_STAT] []) s s1 := ((Goes.refl _ s).write _ _ _ (by decide)).write _ _ _ (by decide)
  exact hctle.when _ _ fun t => (t.goes_showManual ..).lift (by decide)

theorem State.goes_laneErr (s : State) (l v : Nat) : Goes (mask Reg.all []) s (s.laneErr l v) := by
  unfold State.laneErr
  extract_lets s1
  have hplainWrite : Goes (mask Reg.all []) s s1 := s.goes_plainWrite ..
  exact hplainWrite.when _ _ fun t => (Goes.refl _ t).clr _ _ (mask_reg (Reg.mem_all _))

theorem State.goes_insWord (s : State) (p : Port) (n w v : Nat) :
    Goes (mask insertRegs (.insRes :: .insWords :: insertParts)) s (s.insWord p n w v) :=
  Goes.ite ((Goes.refl _ s).set_insWords _ (mask_part (by decide))) ((s.goes_commitEntry ..).lift (by decide))

theorem State.goes_writePin (s : State) (p : Port) (r : Reg) (i w v : Nat) :
    Goes (mask Reg.all (.chans :: .plcs :: .sorters :: .timers :: switchParts)) s (s.writePin p r i w v) := by
  unfold State.writePin
  extract_lets s1
  have hbreakLock : Goes (mask Reg.all (.chans :: .plcs :: .sorters :: .timers :: switchParts)) s s1 := (s.goes_breakLock ..).lift inside_all
  split
  · exact (s.goes_lockArm ..).lift inside_all
  · exact (s.goes_lockSet ..).lift inside_all
  · split
    · exact hbreakLock.trans (Goes.lockable (fun t => (((t.goes_keepPin ..).lift inside_all).step (State.goes_storeWord ..) inside_all).step
        (State.goes_refreshPins _) inside_all) _ _ _ _ _ inside_all)
    · exact hbreakLock.trans (Goes.lockable (fun u => (((u.goes_keepPin ..).lift inside_all).step (State.goes_storeWord ..) inside_all).step
        (State.goes_refreshPins _) inside_all) _ _ _ _ _ inside_all)
    · exact (hbreakLock.step (s1.goes_plainWrite ..) inside_all).step (State.goes_keepLevels _) inside_all
    · exact hbreakLock.trans (Goes.lockable (fun x' => (x'.goes_mapSource ..).lift inside_all) _ _ _ _ _ inside_all)
    · exact hbreakLock.step (s1.goes_bankCtl ..) inside_all
    · exact hbreakLock.step (s1.goes_cellEnable ..) inside_all
    · exact hbreakLock.step (s1.goes_calWrite ..) inside_all
    · exact hbreakLock.step (s1.goes_pwmPer ..) inside_all
    · exact hbreakLock.step (s1.goes_pwmHi ..) inside_all
    · exact hbreakLock.step (s1.goes_plainWrite ..) inside_all

theorem State.goes_writeReg (s : State) (p : Port) (r : Reg) (i w v : Nat) :
    Goes (mask Reg.all (.insRes :: islandResetParts)) s (s.writeReg p r i w v) := by
  unfold State.writeReg
  split
  · exact (s.goes_writePin ..).lift inside_all
  · exact (s.goes_writePst ..).lift inside_all
  · exact (s.goes_writePst ..).lift inside_all
  · split
    · exact (s.goes_rstCmd ..).lift inside_all
    · exact (s.goes_islandCmd ..).lift inside_all
    · exact (s.goes_octCtl ..).lift inside_all
    · exact (s.goes_octClk ..).lift inside_all
    · exact (s.goes_octProto ..).lift inside_all
    · exact (s.goes_frankerCmd ..).lift inside_all
    · exact (s.goes_rgnCtl ..).lift inside_all
    · exact (s.goes_axisCtl ..).lift inside_all
    · exact (s.goes_axCmd ..).lift inside_all
    · exact ((s.goes_storeWord ..).lift inside_all).step (State.goes_loadWritten ..) inside_all
    · exact ((s.goes_storeWord ..).lift inside_all).step (State.goes_strobeWritten ..) inside_all
    · exact ((s.goes_storeWord ..).lift inside_all).step (State.goes_strobeWritten ..) inside_all
    · exact Goes.ite ((s.goes_snapshot).lift inside_all) (Goes.refl _ s)
    · exact (s.goes_srtCtl ..).lift inside_all
    · exact ((s.goes_storeWord ..).lift inside_all).step (State.goes_refreshPins _) inside_all
    · exact Goes.ite ((s.goes_flushCmd ..).lift inside_all) (Goes.refl _ s)
    · exact (s.goes_insWord ..).lift inside_all
    · exact (s.goes_laneCtl ..).lift inside_all
    · exact (s.goes_laneRate ..).lift inside_all
    · exact (s.goes_laneTxeq ..).lift inside_all
    · exact (s.goes_laneRxeq ..).lift inside_all
    · exact (s.goes_laneDfe ..).lift inside_all
    · exact (s.goes_laneErr ..).lift inside_all
    · exact (s.goes_lnkCtl ..).lift inside_all
    · exact (s.goes_lnkCmd ..).lift inside_all
    · exact ((s.goes_storeWord ..).lift inside_all).step (State.goes_showCable ..) inside_all
    · exact (s.goes_ringCtl ..).lift inside_all
    · exact Goes.ite ((s.goes_raiseStop ..).lift inside_all) (Goes.refl _ s)
    · exact (s.goes_granCmd ..).lift inside_all
    · exact (s.goes_userEvents ..).lift inside_all
    · exact (s.goes_perfSel ..).lift inside_all
    · exact ((s.goes_plainWrite ..).lift inside_all).each _ _ fun _ t => (Goes.refl _ t).write _ _ _ (Reg.mem_all _)
    · exact (s.goes_cfgCmd ..).lift inside_all
    · exact (s.goes_xreq ..).lift inside_all
    · exact ((s.goes_storeWord ..).lift inside_all).step (State.goes_showWear _) inside_all
    · exact ((s.goes_plainWrite ..).lift inside_all).writeIf _ _ _ _ (Reg.mem_all _)
    · exact ((s.goes_plainWrite ..).lift inside_all).writeIf _ _ _ _ (Reg.mem_all _)
    · exact (s.goes_plainWrite ..).lift inside_all

theorem State.goes_makeWrite (s : State) (p : Port) (a v : Nat) : Goes (mask Reg.all (.insRes :: islandResetParts)) s (s.makeWrite p a v) := by
  unfold State.makeWrite
  extract_lets s1
  have hpassAccess : Goes (mask Reg.all (.insRes :: islandResetParts)) s s1 := (s.goes_passAccess ..).lift inside_all
  refine Goes.ite ((s.goes_accessError ..).lift inside_all) ?_
  split
  · exact hpassAccess.trans (s1.goes_writeReg ..)
  · exact (hpassAccess.step (s1.goes_breakLock ..) inside_all).step (State.goes_gpioMasked ..) inside_all
  · exact hpassAccess.each _ _ fun _ t => (Goes.refl _ t).set_boxMem _ (mask_part (by decide)) (Tbl.wf_set · _ _)
  · exact hpassAccess
  · exact (hpassAccess.when _ _ fun t => (t.goes_breakLock ..).lift inside_all).step (State.goes_accessError ..) inside_all

/-! ### Reads -/

theorem State.goes_makeRead (s : State) (p : Port) (a : Nat) : Goes (mask Reg.all (.crossings :: headParts)) s (s.makeRead p a) := by
  unfold State.makeRead
  extract_lets s1
  have hpassAccess : Goes (mask Reg.all (.crossings :: headParts)) s s1 := (s.goes_passAccess ..).lift inside_all
  refine Goes.ite (((s.goes_accessError ..).lift inside_all).emit _ (mask_part (by decide))) ?_
  split
  · exact hpassAccess.step (s1.goes_readReg ..) inside_all
  · exact hpassAccess.emit _ (mask_part (by decide))
  · exact hpassAccess.emit _ (mask_part (by decide))
  · exact hpassAccess.emit _ (mask_part (by decide))
  · exact (hpassAccess.step (s1.goes_accessError ..) inside_all).emit _ (mask_part (by decide))

/-! ### Accesses and their replies -/

theorem State.goes_misform (s : State) (p : Port) (a : Nat) (write : Bool) :
    Goes (mask (signals (errors [.PIN_GSTAT])) (signalled [.pins])) s (s.misform p a write) := by
  unfold State.misform
  extract_lets s1
  have hbreakLock : Goes (mask (signals (errors [.PIN_GSTAT])) (signalled [.pins])) s s1 :=
      (Goes.refl _ s).when _ _ fun t => (t.goes_breakLock ..).lift (by decide)
  exact (hbreakLock.step (s1.goes_accessError ..) (by decide)).when _ _ fun t => (Goes.refl _ t).emit _ (mask_part (by decide))

theorem State.goes_makeAccess (s : State) (p : Port) (a : Nat) (write : Bool) (v : Nat) (form : Bool) :
    Goes (mask Reg.all (.insRes :: islandResetParts)) s (s.makeAccess p a write v form) := by
  unfold State.makeAccess
  extract_lets s1
  have hchosen : Goes (mask Reg.all (.insRes :: islandResetParts)) s s1 :=
      Goes.ite ((s.goes_misform ..).lift inside_all) (Goes.ite (s.goes_makeWrite ..) ((s.goes_makeRead ..).lift inside_all))
  split
  · exact hchosen.step (s1.goes_controlReply ..) inside_all
  · exact hchosen

theorem State.goes_busAccess (s : State) (p : Port) (a : Nat) (write : Bool) (v : Nat) (form : Bool) :
    Goes (mask Reg.all (.insRes :: islandResetParts)) s (s.busAccess p a write v form) :=
  Goes.ite (Goes.refl _ s) (Goes.ite ((s.goes_wait ..).lift inside_all) (s.goes_makeAccess ..))

theorem State.goes_retry (s : State) (w : WaitingAccess) : Goes (mask Reg.all (.insRes :: islandResetParts)) s (s.retry w) := by
  unfold State.retry
  extract_lets s1
  have hs : Goes (mask Reg.all (.insRes :: islandResetParts)) s s1 := by
    simp only [s1]
    split
    · exact (s.goes_setCrossing ..).lift inside_all
    · exact Goes.refl _ s
  exact Goes.ite ((Goes.refl _ s).set_waiting _ (mask_part (by decide))) (hs.trans (s1.goes_makeAccess ..))

theorem State.goes_serveAccesses (s : State) : Goes (mask Reg.all (.insRes :: islandResetParts)) s s.serveAccesses :=
  ((Goes.refl _ s).set_waiting _ (mask_part (by decide))).each _ _ fun _ t => t.goes_retry ..

theorem State.goes_deliverPulse (s : State) (p : Pulse) : Goes (mask beaconRegs beaconParts) s (s.deliverPulse p) := by
  unfold State.deliverPulse
  split
  · exact (Goes.refl _ s).emit _ (mask_part (by decide))
  · exact (s.goes_signalHost ..).lift (by decide)
  · exact s.goes_beaconIn ..
  · exact (s.goes_lostHere ..).lift (by decide)

theorem State.goes_servePulses (s : State) (d : Nat) : Goes (mask beaconRegs beaconParts) s (s.servePulses d) :=
  (Goes.refl _ s).each _ _ fun _ t => ((Goes.refl _ t).set_pulses _ (mask_part (by decide))).each _ _ fun _ u => u.goes_deliverPulse ..

/-- The registers of `serveLetter`. -/
def serveLetterRegs : List Reg := .DEV_FRK_MISS :: .PIN_CAL_CMD :: .PIN_PWM_PER :: .POS_AX_LOAD :: .POS_AX_LOAD_EPOCH :: commandRegs ++ axisSetupRegs
  ++ tableRegs

/-- The parts of `serveLetter`. -/
def serveLetterParts : List Part := .axes :: .config :: .fires :: .franker :: .heaters :: .ports :: .strobeAt :: rollParts

theorem State.goes_serveLetter (s : State) (L : Letter) : Goes (mask serveLetterRegs serveLetterParts) s (s.serveLetter L) := by
  unfold State.serveLetter
  split
  · exact (s.goes_broadcastLetter ..).lift (by decide)
  · exact (s.goes_axisSetupLetter ..).lift (by decide)
  · exact (s.goes_axisStartLetter ..).lift (by decide)
  · exact (s.goes_axisStopLetter ..).lift (by decide)
  · exact (s.goes_axisRecoverLetter ..).lift (by decide)
  · exact (s.goes_axisQueryLetter ..).lift (by decide)
  · exact (s.goes_calibrateLetter ..).lift (by decide)
  · exact (s.goes_heaterLetter ..).lift (by decide)
  · exact (s.goes_ethQueueLetter ..).lift (by decide)
  · exact (s.goes_ethSteerLetter ..).lift (by decide)
  · exact (s.goes_linkQueryLetter ..).lift (by decide)
  · exact (s.goes_ringConfigLetter ..).lift (by decide)
  · exact (s.goes_ringQueryLetter ..).lift (by decide)
  · exact (s.goes_ringStopLetter ..).lift (by decide)
  · exact (s.goes_ringReleaseLetter ..).lift (by decide)

theorem State.goes_serveStalled (s : State) (d : Nat) : Goes (mask serveLetterRegs serveLetterParts) s (s.serveStalled d) :=
  ((Goes.refl _ s).set_svc _ (mask_part (by decide))).each _ _ fun _ t => Goes.ite ((t.goes_stall ..).lift (by decide)) (t.goes_serveLetter ..)

theorem State.goes_makeSetting (s : State) (e : Nat × Word) : Goes (mask Reg.all (.insRes :: islandResetParts)) s (s.makeSetting e) := by
  unfold State.makeSetting
  split
  · exact Goes.ite ((s.goes_storeWord ..).lift inside_all) (((s.goes_passDomain ..).lift inside_all).trans (State.goes_writeReg ..))
  · exact Goes.refl _ s

theorem State.goes_imageSettings (s : State) (l : List (Nat × Word)) : Goes (mask Reg.all (.insRes :: islandResetParts)) s (s.imageSettings l) := by
  unfold State.imageSettings
  extract_lets s1
  have hchosen : Goes (mask Reg.all (.insRes :: islandResetParts)) s s1 :=
      (Goes.refl _ s).each _ _ fun _ t => Goes.ite ((t.goes_setConfig ..).lift inside_all) (t.goes_makeSetting ..)
  exact hchosen.when _ _ fun t => (t.goes_takeEndpoint).lift inside_all

theorem State.goes_serveSettings (s : State) (d : Nat) : Goes (mask Reg.all (.insRes :: islandResetParts)) s (s.serveSettings d) :=
  ((s.goes_setConfig ..).lift inside_all).each _ _ fun _ t => t.goes_makeSetting ..

theorem State.goes_serveWaiting (s : State) (d : Nat) :
    Goes (mask Reg.all (.beaconAt :: .heaters :: .insRes :: islandResetParts)) s (s.serveWaiting d) := by
  unfold State.serveWaiting
  extract_lets s1 s2 s3 s4
  have hserveStalled : Goes (mask Reg.all (.beaconAt :: .heaters :: .insRes :: islandResetParts)) s s1 :=
      ((((s.goes_serveAccesses).lift inside_all).step (State.goes_servePulses ..) inside_all).step (State.goes_serveSettings ..) inside_all).step
        (State.goes_serveStalled ..) inside_all
  have hpump : Goes (mask Reg.all (.beaconAt :: .heaters :: .insRes :: islandResetParts)) s s2 :=
      hserveStalled.when _ _ fun t => (Goes.refl _ t).each _ _ fun _ u => (u.goes_pump ..).lift inside_all
  have hsendHeld : Goes (mask Reg.all (.beaconAt :: .heaters :: .insRes :: islandResetParts)) s s3 :=
      hpump.when _ _ fun t => ((Goes.refl _ t).each _ _ fun _ u => (u.goes_serveAgent ..).lift inside_all).each _ _ fun _ u =>
        (u.goes_sendHeld ..).lift inside_all
  have hhold : Goes (mask Reg.all (.beaconAt :: .heaters :: .insRes :: islandResetParts)) s s4 :=
      hsendHeld.eachMem _ _ fun h hh t => ((t.goes_setFranker ..).lift inside_all).step
        (State.goes_hold _ h (heldDomain_some (beq_iff_eq.mp (List.mem_filter.mp hh).2))) inside_all
  exact Goes.ite (Goes.refl _ s) (hhold.when _ _ fun t => (t.goes_serveStack ..).lift inside_all)

theorem execRegisterWrite_frame (p : Port) (addr : BitVec 25) (bytes : Fin 9) (value : Word) (s : State) :
    ∃ t, execRegisterWrite p addr bytes value s = .next t ∧ Goes (mask Reg.all (.insRes :: islandResetParts)) s t :=
  ⟨_, rfl, s.goes_busAccess ..⟩

theorem execWideValueLowRead_frame (p : Port) (r : ReadAt) (s : State) :
    ∃ t, execWideValueLowRead p r s = .next t ∧ Goes (mask Reg.all (.insRes :: islandResetParts)) s t :=
  ⟨_, rfl, s.goes_busAccess ..⟩

theorem execRegionControlAccess_frame (n : Fin 40) (word0 word1 : BitVec 32) (s : State) :
    ∃ t, execRegionControlAccess n word0 word1 s = .next t ∧ Goes (mask Reg.all (.insRes :: islandResetParts)) s t :=
  ⟨_, rfl, Goes.ite (s.goes_busAccess ..) ((s.goes_partBundle ..).lift inside_all)⟩

/-! ### Counters that a read clears (R9) -/

theorem execCfgNvmCntRead_frame (p : Port) (s : State) :
    ∃ t, execCfgNvmCntRead p s = .next t ∧ Goes (mask (signals (errors [.CFG_NVM_CNT])) (signalled [.crossings, .waiting])) s t :=
  ⟨_, rfl, Goes.access (fun t => (t.goes_readClear ..).lift (by decide)) s _ _ _ _ _ (by decide)⟩

theorem execCfgIsoCntRead_frame (p : Port) (n : Fin 40) (s : State) :
    ∃ t, execCfgIsoCntRead p n s = .next t ∧ Goes (mask (signals (errors [.CFG_ISO_CNT])) (signalled [.crossings, .waiting])) s t :=
  ⟨_, rfl, Goes.access (fun t => (t.goes_readClear ..).lift (by decide)) s _ _ _ _ _ (by decide)⟩

theorem execCfgRgnUpsetRead_frame (p : Port) (n : Fin 40) (s : State) :
    ∃ t, execCfgRgnUpsetRead p n s = .next t ∧ Goes (mask (signals (errors [.CFG_RGN_UPSET])) (signalled [.crossings, .waiting])) s t :=
  ⟨_, rfl, Goes.access (fun t => (t.goes_readClear ..).lift (by decide)) s _ _ _ _ _ (by decide)⟩

theorem execCfgScrubCntRead_frame (p : Port) (s : State) :
    ∃ t, execCfgScrubCntRead p s = .next t ∧ Goes (mask (signals (errors [.CFG_SCRUB_CNT])) (signalled [.crossings, .waiting])) s t :=
  ⟨_, rfl, Goes.access (fun t => (t.goes_readClear ..).lift (by decide)) s _ _ _ _ _ (by decide)⟩

theorem execPwrRgnLoopRead_frame (p : Port) (n : Fin 40) (s : State) :
    ∃ t, execPwrRgnLoopRead p n s = .next t ∧ Goes (mask (signals (errors [.PWR_RGN_LOOP])) (signalled [.crossings, .waiting])) s t :=
  ⟨_, rfl, Goes.access (fun t => (t.goes_readClear ..).lift (by decide)) s _ _ _ _ _ (by decide)⟩

theorem execDevRngStatRead_frame (p : Port) (s : State) :
    ∃ t, execDevRngStatRead p s = .next t ∧ Goes (mask (signals (errors [.DEV_RNG_STAT])) (signalled [.crossings, .waiting])) s t :=
  ⟨_, rfl, Goes.access (fun t => (t.goes_readClear ..).lift (by decide)) s _ _ _ _ _ (by decide)⟩

theorem execRngDataRead_frame (p : Port) (s : State) :
    ∃ t, execRngDataRead p s = .next t ∧ Goes (mask (signals (errors [])) (signalled [.crossings, .shadows, .waiting])) s t :=
  ⟨_, rfl, Goes.access (fun t => (t.goes_rngRead ..).lift (by decide)) s _ _ _ _ _ (by decide)⟩

/-! ### Resets and loads that a write starts -/

theorem execDevRstDevice_frame (p : Port) (value : Word) (s : State) :
    ∃ t, execDevRstDevice p value s = .next t ∧ Goes (mask (.DEV_ACCESS_ADDR :: .DEV_ACCESS_ERR :: fabricCmdRegs) (.fires :: .franker :: .power ::
      .secure :: fabricResetParts ++ copyParts)) s t :=
  ⟨_, rfl, Goes.access (fun t => (t.goes_rstCmd ..).lift (by decide)) s _ _ _ _ _ (by decide)⟩

theorem execDevRstFabric_frame (p : Port) (value : Word) (s : State) :
    ∃ t, execDevRstFabric p value s = .next t ∧ Goes (mask (.DEV_ACCESS_ADDR :: .DEV_ACCESS_ERR :: fabricCmdRegs) (.fires :: .franker :: .power ::
      .secure :: fabricResetParts ++ copyParts)) s t :=
  ⟨_, rfl, Goes.access (fun t => (t.goes_rstCmd ..).lift (by decide)) s _ _ _ _ _ (by decide)⟩

theorem execIslandReset_frame (p : Port) (value : Word) (lost : List (Fin 144 × Lost)) (s : State) :
    ∃ t, execIslandReset p value lost s = .next t ∧ Goes (mask Reg.most islandResetParts) s t :=
  ⟨_, rfl, Goes.access (fun t => t.goes_islandCmd ..) s _ _ _ _ _ inside_most⟩

theorem execCfgGo_frame (p : Port) (value : Word) (s : State) :
    ∃ t, execCfgGo p value s = .next t ∧ Goes (mask Reg.most (.restoring :: fabricResetParts ++ holdParts)) s t :=
  ⟨_, rfl, Goes.access (fun t => (t.goes_cfgCmd ..).lift inside_most) s _ _ _ _ _ inside_most⟩

theorem execXspiRequest_frame (p : Port) (q : Fin 4) (addr : Word) (s : State) :
    ∃ t, execXspiRequest p q addr s = .next t ∧ Goes (mask (.CFG_XSTAT :: .DEV_ACCESS_ADDR :: .DEV_ACCESS_ERR :: nextRegionLoadRegs) (.config ::
      .gates :: .pins :: .trees :: resetRegionParts)) s t :=
  ⟨_, rfl, Goes.access (fun t => (t.goes_xreq ..).lift (by decide)) s _ _ _ _ _ (by decide)⟩
end Sys2Proof.Machine
end

section
/-! PROOFS. Erases of a slot that is written, as frames. -/

namespace Sys2Proof.Machine

-- One proof after another: side by side they need more memory than a check has.
set_option Elab.async false

/-! ### Erases of a slot that is written (R404, R422) -/

theorem State.goes_feedErases (k : Nat) (s : State) (w : NvmWrite) : Goes (mask flashRegs (signalled [.config])) s (s.feedErases k w) := by
  induction k generalizing s w with
  | zero => exact (s.goes_setConfig _).lift (by decide)
  | succ k ih =>
    unfold State.feedErases
    exact Goes.ite ((s.goes_setConfig _).lift (by decide)) (((s.goes_startErase _).lift (by decide)).trans (ih _ _))

end Sys2Proof.Machine
end

section
/-! PROOFS. The end of a load, broadcasts and the CONFIG services as frames. -/

namespace Sys2Proof.Machine

-- One proof after another: side by side they need more memory than a check has.
set_option Elab.async false

/-! ### What a full image configures (R412) -/

theorem State.goes_imageRegulators (s : State) (l : List (Fin 16 × BitVec 7 × BitVec 8 × Fin 15)) :
    Goes (mask [.PIN_BANK_CTL, .PWR_EXT] [.power]) s (s.imageRegulators l) := by
  unfold State.imageRegulators
  extract_lets s1 _ s2
  have hvalid : Goes (mask [.PIN_BANK_CTL, .PWR_EXT] [.power]) s s1 :=
      (Goes.refl _ s).each _ _ fun _ t => ((Goes.refl _ t).write _ _ _ (by decide)).write _ _ _ (by decide)
  have hpower : Goes (mask [.PIN_BANK_CTL, .PWR_EXT] [.power]) s s2 := hvalid.set_power _ (mask_part (by decide))
  exact hpower.each _ _ fun _ t => ((((Goes.refl _ t).write _ _ _ (by decide)).write _ _ _ (by decide)).set_power _ (mask_part
      (by decide))).writeIf _ _ _ _ (by decide)

theorem State.goes_assignOwners (s : State) (t : List (BitVec 8)) : Goes (mask [.PST_MB_OWNER, .PST_MB_STAT] []) s (s.assignOwners t) :=
  (Goes.refl _ s).each _ _ fun _ u => ((Goes.refl _ u).write _ _ _ (by decide)).write _ _ _ (by decide)

theorem State.goes_applyFull (s : State) (slot : Nat) (f : ImageFacts) (b : FullBody) :
    Goes (mask Reg.all (.insRes :: .isoAbsorb :: islandResetParts)) s (s.applyFull slot f b) := by
  unfold State.applyFull
  extract_lets _ s1 s2 s3 s4 s5 s6 s7
  have himageRegulators : Goes (mask Reg.all (.insRes :: .isoAbsorb :: islandResetParts)) s s1 :=
      ((s.goes_imageSettings ..).lift inside_all).step (State.goes_imageRegulators ..) inside_all
  have hisoAbsorb : Goes (mask Reg.all (.insRes :: .isoAbsorb :: islandResetParts)) s s2 := himageRegulators.set_isoAbsorb _ (mask_part (by decide))
  have hstartTimer : Goes (mask Reg.all (.insRes :: .isoAbsorb :: islandResetParts)) s s3 :=
      hisoAbsorb.each _ _ fun _ u => ((u.goes_setTree ..).lift inside_all).step (State.goes_startTimer ..) inside_all
  have hemptyRegion : Goes (mask Reg.all (.insRes :: .isoAbsorb :: islandResetParts)) s s4 :=
      hstartTimer.each _ _ fun _ t => (t.goes_emptyRegion ..).lift inside_all
  have happlyRegion : Goes (mask Reg.all (.insRes :: .isoAbsorb :: islandResetParts)) s s5 :=
      hemptyRegion.each _ _ fun _ t => ((t.goes_keepKeys ..).lift inside_all).step (State.goes_applyRegion ..) inside_all
  have hsetConfig : Goes (mask Reg.all (.insRes :: .isoAbsorb :: islandResetParts)) s s6 := happlyRegion.step (s5.goes_setConfig ..) inside_all
  have hrecordFrames : Goes (mask Reg.all (.insRes :: .isoAbsorb :: islandResetParts)) s s7 :=
      (hsetConfig.step (s6.goes_keepKeys ..) inside_all).step (State.goes_recordFrames ..) inside_all
  split
  · exact hrecordFrames.when _ _ fun t => (t.goes_assignOwners ..).lift inside_all
  · exact hrecordFrames

/-! ### The end of a load (R417 steps 4 to 6) -/

theorem State.goes_imageChecked (s : State) (l : FullLoad) (f : ImageFacts) (b : FullBody) :
    Goes (mask Reg.all (.insRes :: .isoAbsorb :: islandResetParts)) s (s.imageChecked l f b) := by
  unfold State.imageChecked
  extract_lets s1 s2 s3 s4
  have happlyFull : Goes (mask Reg.all (.insRes :: .isoAbsorb :: islandResetParts)) s s1 := s.goes_applyFull ..
  have hid : Goes (mask Reg.all (.insRes :: .isoAbsorb :: islandResetParts)) s s2 := (happlyFull.write _ _ _ (Reg.mem_all _)).write _ _ _ (Reg.mem_all _)
  have hchosen : Goes (mask Reg.all (.insRes :: .isoAbsorb :: islandResetParts)) s s3 :=
      Goes.ite (hid.write _ _ _ (Reg.mem_all _)) (hid.write _ _ _ (Reg.mem_all _))
  have hsetConfig : Goes (mask Reg.all (.insRes :: .isoAbsorb :: islandResetParts)) s s4 := hchosen.step (s3.goes_setConfig ..) inside_all
  exact hsetConfig.when _ _ fun t => (t.goes_enterPhase ..).lift inside_all

theorem execImageStreamDone_frame (f : ImageFacts) (body : FullBody) (s : State) :
    ∃ t, execImageStreamDone f body s = .next t ∧ Goes (mask Reg.all (.insRes :: .isoAbsorb :: islandResetParts)) s t := by
  refine ⟨_, rfl, ?_⟩
  split
  · exact Goes.refl _ s
  · refine Goes.ite (Goes.refl _ s) ?_
    dsimp only
    split
    · exact ((s.goes_readImage ..).lift inside_all).step (State.goes_loadFailed ..) inside_all
    · exact ((s.goes_readImage ..).lift inside_all).trans (State.goes_imageChecked ..)

theorem execCfgRelease_frame (s : State) :
    ∃ t, execCfgRelease s = .next t ∧ Goes (mask [.CFG_STAT, .EVT_LOG_LOST, .EVT_LOG_STAT] [.evt, .freeValues, .outputs, .pulses, .timers]) s t :=
  ⟨_, rfl, Goes.ite (Goes.refl _ s) (((s.goes_driveDone ..).lift (by decide)).when _ _ fun t => (t.goes_logFirmware ..).lift (by decide))⟩

theorem State.goes_waitedResets (s : State) :
    Goes (mask regionResetRegs (.config :: .gates :: .restoring :: resetRegionParts ++ inhibitParts)) s s.waitedResets :=
  ((s.goes_setConfig ..).lift (by decide)).each _ _ fun _ t => (t.goes_askRegionReset ..).lift (by decide)

/-- The parts of `userOperation`. -/
def userOperationParts : List Part := .config :: .gates :: .monitors :: .power :: .resets :: .restoring :: resetRegionParts ++ inhibitParts

theorem State.goes_userOperation (s : State) (l : FullLoad) : Goes (mask (.CFG_STAT :: regionResetRegs) userOperationParts) s (s.userOperation l) := by
  unfold State.userOperation
  extract_lets s1 s2 s3 s4 s5
  have hwakeRegion : Goes (mask (.CFG_STAT :: regionResetRegs) userOperationParts) s s1 :=
      (Goes.refl _ s).each _ _ fun _ t => (t.goes_wakeRegion ..).lift (by decide)
  have henterService : Goes (mask (.CFG_STAT :: regionResetRegs) userOperationParts) s s2 :=
      ((hwakeRegion.write _ _ _ (by decide)).step (State.goes_setConfig ..) (by decide)).step (State.goes_enterService _) (by decide)
  have hraised : Goes (mask (.CFG_STAT :: regionResetRegs) userOperationParts) s s3 :=
      henterService.when _ _ fun t => (Goes.refl _ t).raised _ (by decide)
  have hendFabric : Goes (mask (.CFG_STAT :: regionResetRegs) userOperationParts) s s4 := hraised.step (s3.goes_endFabric) (by decide)
  have hcompleteOn : Goes (mask (.CFG_STAT :: regionResetRegs) userOperationParts) s s5 := hendFabric.step (s4.goes_completeOn ..) (by decide)
  exact (hcompleteOn.step (s5.goes_waitedResets) (by decide)).step (State.goes_nextRegionLoad _) (by decide)

theorem State.goes_endBroadcast (s : State) (b : Broadcast) (outcomes : List (Fin 32 × Fin 3)) :
    Goes (mask (signals (counting [])) (signalled [.config, .svc])) s (s.endBroadcast b outcomes) := by
  unfold State.endBroadcast
  extract_lets _ _ s1
  have hraised : Goes (mask (signals (counting [])) (signalled [.config, .svc])) s s1 := ((s.goes_setConfig ..).lift (by decide)).raised _ (by decide)
  exact hraised.step (s1.goes_completeOn ..) (by decide)

theorem execCfgDoneHigh_frame (outcomes : List (Fin 32 × Fin 3)) (s : State) :
    ∃ t, execCfgDoneHigh outcomes s = .next t ∧ Goes (mask (.CFG_STAT :: regionResetRegs) userOperationParts) s t := by
  refine ⟨_, rfl, ?_⟩
  extract_lets s1 s2
  have hline : Goes (mask (.CFG_STAT :: regionResetRegs) userOperationParts) s s1 := (Goes.refl _ s).write _ _ _ (by decide)
  have hcase : Goes (mask (.CFG_STAT :: regionResetRegs) userOperationParts) s s2 := by
    simp only [s2]
    split
    · exact hline.when _ _ fun t => t.goes_userOperation ..
    · exact hline
  refine Goes.ite (Goes.refl _ s) ?_
  split
  · exact hcase.when _ _ fun t => (t.goes_endBroadcast ..).lift (by decide)
  · exact hcase

theorem execDoneWaitTimeout_frame (s : State) : ∃ t, execDoneWaitTimeout s = .next t ∧ Goes (mask (signals [.CFG_STAT]) (signalled [])) s t :=
  ⟨_, rfl, Goes.ite (((Goes.refl _ s).write _ _ _ (by decide)).raised _ (by decide)) (Goes.refl _ s)⟩

/-! ### Broadcasts (R430..R432) -/

theorem execBroadcastWaitTimeout_frame (s : State) :
    ∃ t, execBroadcastWaitTimeout s = .next t ∧ Goes (mask Reg.most (.restoring :: fabricResetParts ++ holdParts)) s t :=
  ⟨_, rfl, Goes.ite ((s.goes_askLoad ..).lift inside_most) (Goes.refl _ s)⟩

theorem execBroadcastPollReceived_frame (r : Fin 2) (key : BitVec 8) (s : State) :
    ∃ t, execBroadcastPollReceived r key s = .next t ∧ Goes (mask (signals (counting [])) (signalled [.config, .links])) s t := by
  refine ⟨_, rfl, ?_⟩
  extract_lets _ s1
  have hringSend : Goes (mask (signals (counting [])) (signalled [.config, .links])) s s1 := (s.goes_ringSend ..).lift (by decide)
  exact Goes.ite (Goes.refl _ s) (Goes.ite (hringSend.step (s1.goes_setConfig ..) (by decide)) (hringSend.raised _ (by decide)))

theorem State.goes_joinStream (s : State) : Goes (mask Reg.most (.restoring :: fabricResetParts ++ holdParts)) s s.joinStream :=
  Goes.ite (Goes.refl _ s) (((s.goes_askLoad ..).lift inside_most).raised _ inside_most)

theorem State.goes_bulkFlit (s : State) (m vl : Nat) (first : Bool) (body : List Byte) :
    Goes (mask Reg.most (.restoring :: fabricResetParts ++ holdParts)) s (s.bulkFlit m vl first body) := by
  unfold State.bulkFlit
  extract_lets _ s1
  have hstartTimer : Goes (mask Reg.most (.restoring :: fabricResetParts ++ holdParts)) s s1 :=
      s.goes_joinStream.step (State.goes_startTimer ..) inside_most
  refine Goes.ite (Goes.refl _ s) ?_
  split
  · exact Goes.ite ((hstartTimer.step (s1.goes_updLink ..) inside_most).step (State.goes_pumpLink ..) inside_most) ((s.goes_deliver ..).lift
      inside_most)
  · exact (s.goes_deliver ..).lift inside_most

theorem execFlitReceived_frame (m : Fin 144) (f : RxFlit) (s : State) :
    ∃ t, execFlitReceived m f s = .next t ∧ Goes (mask Reg.most (.restoring :: fabricResetParts ++ holdParts)) s t :=
  ⟨_, rfl, State.goes_flitReceived (fun _ _ _ t => t.goes_bulkFlit ..) _ _ _ inside_most⟩

theorem execBroadcastGapTimeout_frame (s : State) :
    ∃ t, execBroadcastGapTimeout s = .next t ∧ Goes (mask Reg.most (.crossings :: .ports :: .resets :: .waiting :: holdParts ++ emptyRegionParts)) s
      t := by
  refine ⟨_, rfl, ?_⟩
  split
  · exact Goes.ite ((s.goes_loadFailed ..).lift inside_most) (Goes.refl _ s)
  · exact Goes.refl _ s

theorem State.goes_dropBroadcast (s : State) (st : Status) : Goes (mask (signals (counting [])) (signalled [.config, .svc])) s (s.dropBroadcast st) :=
  (((s.goes_setConfig ..).lift (by decide)).raised _ (by decide)).step (State.goes_completeOn ..) (by decide)

theorem execBroadcastAnswerReceived_frame (r : Fin 2) (m : Fin 32) (accept : Bool) (s : State) :
    ∃ t, execBroadcastAnswerReceived r m accept s = .next t ∧ Goes (mask (signals (counting [])) (signalled [.config, .links, .svc])) s t := by
  refine ⟨_, rfl, ?_⟩
  split
  · exact Goes.refl _ s
  · exact Goes.ite (Goes.refl _ s) (Goes.ite ((s.goes_beginStream ..).lift (by decide)) ((s.goes_dropBroadcast ..).lift (by decide)))

theorem execBroadcastPollTimeout_frame (s : State) :
    ∃ t, execBroadcastPollTimeout s = .next t ∧ Goes (mask (signals (counting [])) (signalled [.config, .svc])) s t := by
  refine ⟨_, rfl, ?_⟩
  split
  · exact Goes.ite (Goes.refl _ s) (s.goes_dropBroadcast ..)
  · exact Goes.refl _ s

/-! ### CONFIG services -/

theorem execConfigSlots_frame (L : Letter) (s : State) : ∃ t, execConfigSlots L s = .next t ∧ Goes countMask s t :=
  ⟨_, rfl, Goes.serve (fun _ t => Goes.refl _ t) s _ _ _ (by decide)⟩

theorem State.goes_beginWrite (s : State) (slot length : Nat) : Goes (mask flashRegs (signalled [.config])) s (s.beginWrite slot length) := by
  unfold State.beginWrite
  extract_lets _ s1
  have hdirectory : Goes (mask flashRegs (signalled [.config])) s s1 :=
      ((s.goes_setSlot ..).lift (by decide)).step (State.goes_directory _) (by decide)
  exact hdirectory.step (State.goes_feedErases ..) (by decide)

theorem goes_svcConfigWrite (L : Letter) (a1 : List Byte) (s : State) : Goes objectMask s (svcConfigWrite L a1 s).1 :=
  Goes.iteFst (Goes.refl _ s) (Goes.iteFst (Goes.refl _ s) (Goes.iteFst (Goes.refl _ s) (Goes.iteFst (Goes.refl _ s) (goes_accepted ..))))

theorem execConfigWrite_frame (L : Letter) (s : State) : ∃ t, execConfigWrite L s = .next t ∧ Goes (mask leaseRegs (signalled [.config, .svc])) s t :=
  ⟨_, rfl, Goes.serveThen (fun _ t => (goes_svcConfigWrite ..).lift (by decide)) (fun _ t => (t.goes_beginWrite ..).lift (by decide)) s _ _ _
      (by decide)⟩

theorem State.goes_reprogram (s : State) (b : Nat) : Goes (mask flashRegs (signalled [.config])) s (s.reprogram b) :=
  Goes.ite ((s.goes_areaReadOnly ..).lift (by decide)) (((s.goes_retire ..).lift (by decide)).step (State.goes_program ..) (by decide))

theorem State.goes_finishWrite (s : State) (w : NvmWrite) (f : ImageFacts) (opcode : Nat) :
    Goes (mask (.CFG_FAIL :: .CFG_NVM_CNT :: .CFG_XSPI :: leaseRegs) (signalled [.config, .svc])) s (s.finishWrite w f opcode) := by
  unfold State.finishWrite
  extract_lets _ s1 s2 _ _ x s3
  have hprogram : Goes (mask (.CFG_FAIL :: .CFG_NVM_CNT :: .CFG_XSPI :: leaseRegs) (signalled [.config, .svc])) s s1 :=
      (Goes.refl _ s).each _ _ fun _ t => (t.goes_program ..).lift (by decide)
  have hreprogram : Goes (mask (.CFG_FAIL :: .CFG_NVM_CNT :: .CFG_XSPI :: leaseRegs) (signalled [.config, .svc])) s s2 :=
      hprogram.each _ _ fun _ t => (t.goes_reprogram ..).lift (by decide)
  have hsetConfig : Goes (mask (.CFG_FAIL :: .CFG_NVM_CNT :: .CFG_XSPI :: leaseRegs) (signalled [.config, .svc])) s s3 :=
      (hreprogram.step (s2.goes_readImage ..) (by decide)).step (State.goes_setConfig ..) (by decide)
  cases x with
  | some c => exact (hsetConfig.step (s3.goes_recordFail ..) (by decide)).step (State.goes_completeOn ..) (by decide)
  | none =>
    exact ((hsetConfig.step (s3.goes_setSlot ..) (by decide)).step (State.goes_directory _) (by decide)).step (State.goes_completeOn ..) (by decide)

theorem execConfigWriteComplete_frame (f : ImageFacts) (s : State) :
    ∃ t, execConfigWriteComplete f s = .next t ∧ Goes (mask (.CFG_FAIL :: .CFG_NVM_CNT :: .CFG_XSPI :: leaseRegs) (signalled [.config, .svc])) s t := by
  refine ⟨_, rfl, ?_⟩
  split
  · exact Goes.ite (s.goes_finishWrite ..) (Goes.refl _ s)
  · exact Goes.refl _ s

theorem goes_svcConfigSelect (L : Letter) (a1 : List Byte) (s : State) : Goes (mask flashRegs (signalled [.config])) s (svcConfigSelect L a1 s).1 :=
  Goes.iteFst (((s.goes_setConfig ..).lift (by decide)).step (State.goes_directory _) (by decide)) (Goes.refl _ s)

theorem execConfigSelect_frame (L : Letter) (s : State) : ∃ t, execConfigSelect L s = .next t ∧ Goes (mask leaseRegs (signalled [.config])) s t :=
  ⟨_, rfl, Goes.serve (fun _ t => (goes_svcConfigSelect ..).lift (by decide)) s _ _ _ (by decide)⟩

theorem goes_svcConfigReload (L : Letter) (a1 : List Byte) (s : State) : Goes objectMask s (svcConfigReload L a1 s).1 := by
  unfold svcConfigReload
  extract_lets
  refine Goes.iteFst (Goes.refl _ s) ?_
  refine Goes.iteFst (Goes.refl _ s) ?_
  split
  · exact Goes.refl _ s
  · exact goes_accepted ..

theorem execConfigReload_frame (L : Letter) (s : State) :
    ∃ t, execConfigReload L s = .next t ∧ Goes (mask Reg.most (.restoring :: fabricResetParts ++ holdParts)) s t :=
  ⟨_, rfl, Goes.serveThen (fun _ t => (goes_svcConfigReload ..).lift inside_most) (fun _ t => (t.goes_askLoad ..).lift inside_most) s _ _ _
      inside_most⟩

theorem execConfigBroadcast_frame (L : Letter) (s : State) :
    ∃ t, execConfigBroadcast L s = .next t ∧ Goes (mask (signals (counting [])) (.config :: .svc :: askParts)) s t :=
  ⟨_, rfl, (s.goes_broadcastLetter ..).lift (by decide)⟩

/-! ### Erases (R433..R437) -/

theorem State.goes_resumeMarked (s : State) : Goes (mask flashRegs (signalled [.config])) s s.resumeMarked :=
  Goes.ite (Goes.refl _ s) (((s.goes_setConfig ..).lift (by decide)).step (State.goes_showErase _) (by decide))

theorem State.goes_logErased (s : State) (b : Nat) : Goes (mask [.EVT_LOG_STAT] [.evt]) s (s.logErased b) :=
  Goes.ite (((Goes.refl _ s).set_evt _ (mask_part (by decide))).step (State.goes_setWaiting _) (by decide)) (Goes.refl _ s)

theorem State.goes_eraseEnded (s : State) (b : Nat) : Goes (mask flashRegs (signalled [.config])) s (s.eraseEnded b) := by
  unfold State.eraseEnded
  extract_lets s1 s2
  have hshowErase : Goes (mask flashRegs (signalled [.config])) s s1 :=
      ((s.goes_setConfig ..).lift (by decide)).step (State.goes_showErase _) (by decide)
  have hlogErased : Goes (mask flashRegs (signalled [.config])) s s2 := hshowErase.step (s1.goes_logErased ..) (by decide)
  split
  · exact hlogErased.step (State.goes_feedErases ..) (by decide)
  · exact hlogErased.when _ _ fun t => t.goes_resumeMarked

theorem execNvmEraseDone_frame (b : Fin 4014) (verified : Bool) (s : State) :
    ∃ t, execNvmEraseDone b verified s = .next t ∧ Goes (mask flashRegs (signalled [.config])) s t := by
  refine ⟨_, rfl, ?_⟩
  extract_lets _ s1
  have hretire : Goes (mask flashRegs (signalled [.config])) s s1 := ((s.goes_setConfig ..).lift (by decide)).step (State.goes_retire ..) (by decide)
  exact Goes.ite (Goes.refl _ s) (Goes.ite (((s.goes_setBlock ..).lift (by decide)).trans (State.goes_eraseEnded ..)) (Goes.ite
      (s.goes_eraseEnded ..) (Goes.ite (((s.goes_areaReadOnly ..).lift (by decide)).trans (State.goes_eraseEnded ..)) (hretire.step
      (s1.goes_startErase ..) (by decide)))))

theorem execNvmEraseResume_frame (s : State) : ∃ t, execNvmEraseResume s = .next t ∧ Goes (mask [.CFG_NVM_STAT] []) s t :=
  ⟨_, rfl, (Goes.refl _ s).write _ _ _ (by decide)⟩
end Sys2Proof.Machine
end

section
/-! PROOFS. An octet that stops, as a frame. -/

namespace Sys2Proof.Machine

-- One proof after another: side by side they need more memory than a check has.
set_option Elab.async false

/-! ### Octets that stop (R238) -/

/-- The registers of an octet that stops: DEV_OCT_CTL, which switches it, is not among them. -/
def octetDownRegs : List Reg := octetRegs.filter (· != .DEV_OCT_CTL)

theorem State.goes_octetDown_tight (s : State) (k : Nat) (lost : List Lost) : Goes (mask octetDownRegs octetParts) s (s.octetDown k lost) := by
  unfold State.octetDown
  extract_lets s1 s2
  have hlanes : Goes (mask octetDownRegs octetParts) s s1 :=
    ((s.goes_octetLanesReset k lost).lift (by decide)).step (State.goes_protocolsDown _ k) (by decide)
  have hlock : Goes (mask octetDownRegs octetParts) s s2 := (hlanes.write _ k 0 (by decide)).step (State.goes_showFollow _) (by decide)
  exact (hlock.step (s2.goes_crossAssert k true) (by decide)).step (State.goes_stopDomain _ k) (by decide)

end Sys2Proof.Machine
end

section
/-! PROOFS. Islands, leases, power states and regions as frames. -/

namespace Sys2Proof.Machine

-- One proof after another: side by side they need more memory than a check has.
set_option Elab.async false

/-! ### Heartbeats -/

theorem execDomainStopped_frame (d : Fin 25) (s : State) : ∃ t, execDomainStopped d s = .next t ∧ Goes (mask stopDomainRegs stopDomainParts) s t :=
  ⟨_, rfl, s.goes_stopDomain ..⟩

theorem execDomainRunning_frame (d : Fin 25) (s : State) :
    ∃ t, execDomainRunning d s = .next t ∧ Goes (mask Reg.all (.beaconAt :: .heaters :: .insRes :: islandResetParts)) s t :=
  ⟨_, rfl, Goes.ite (Goes.refl _ s) (((s.goes_startDomain ..).lift inside_all).step (State.goes_serveWaiting ..) inside_all)⟩

/-! ### Freezes -/

theorem execFreezeRequest_frame (x : Published) (r : Receiver) (s : State) :
    ∃ t, execFreezeRequest x r s = .next t ∧ Goes (mask [] [.copies, .samplers]) s t :=
  ⟨_, rfl, (s.goes_sampled ..).lift (by decide)⟩

theorem execFreezeTimeout_frame (x : Published) (r : Fin 26) (s : State) : ∃ t, execFreezeTimeout x r s = .next t ∧ Goes (mask [] [.samplers]) s t :=
  ⟨_, rfl, Goes.ite ((s.goes_setSampler ..).lift (by decide)) (Goes.refl _ s)⟩

/-! ### Resynchronisation (R93) -/

theorem execCrossingResetAssert_frame (d : Fin 25) (domainEnd : Bool) (s : State) :
    ∃ t, execCrossingResetAssert d domainEnd s = .next t ∧ Goes (mask (signals [.DEV_ISL_HELD, .PIN_GSTAT, .PIN_ICONF, .PIN_OCONF]) (.crossings ::
      .samplers :: stopDomainParts)) s t :=
  ⟨_, rfl, ((s.goes_crossAssert ..).lift (by decide)).when _ _ fun t => (t.goes_refreshPins).lift (by decide)⟩

theorem execCrossingResetSeen_frame (d : Fin 25) (discarded : Fin 65) (targets : List PoisonTo) (s : State) :
    ∃ t, execCrossingResetSeen d discarded targets s = .next t ∧ Goes (mask (.CFG_ISO_CNT :: .DEV_XDROP :: homeRegs ++ pumpRegs) (.waiting ::
      deadlineParts ++ startParts)) s t := by
  refine ⟨_, rfl, ?_⟩
  extract_lets _ s1 s2 _ _ s3
  have hpoisonStreams : Goes (mask (.CFG_ISO_CNT :: .DEV_XDROP :: homeRegs ++ pumpRegs) (.waiting :: deadlineParts ++ startParts)) s s1 :=
      ((s.goes_poisonWaiting ..).lift (by decide)).when _ _ fun t => (t.goes_poisonStreams ..).lift (by decide)
  have hresetHome : Goes (mask (.CFG_ISO_CNT :: .DEV_XDROP :: homeRegs ++ pumpRegs) (.waiting :: deadlineParts ++ startParts)) s s2 :=
      hpoisonStreams.when _ _ fun t => (t.goes_resetHome ..).lift (by decide)
  have hsetCrossing : Goes (mask (.CFG_ISO_CNT :: .DEV_XDROP :: homeRegs ++ pumpRegs) (.waiting :: deadlineParts ++ startParts)) s s3 :=
      hresetHome.step (s2.goes_setCrossing ..) (by decide)
  exact Goes.ite (Goes.refl _ s) (Goes.ite hsetCrossing (hsetCrossing.step (s3.goes_release ..) (by decide)))

theorem execCrossingResetRelease_frame (d : Fin 25) (domainEnd : Bool) (s : State) :
    ∃ t, execCrossingResetRelease d domainEnd s = .next t ∧ Goes (mask [] [.crossings]) s t :=
  ⟨_, rfl, (s.goes_crossRelease ..).lift (by decide)⟩

theorem execCrossingResyncSeen_frame (d : Fin 25) (s : State) : ∃ t, execCrossingResyncSeen d s = .next t ∧ Goes (mask [] [.crossings]) s t :=
  ⟨_, rfl, Goes.ite ((s.goes_setCrossing ..).lift (by decide)) (Goes.refl _ s)⟩

theorem State.goes_crossOpen (s : State) (d : Nat) : Goes (mask Reg.all (.beaconAt :: .heaters :: .insRes :: islandResetParts)) s (s.crossOpen d) := by
  unfold State.crossOpen
  extract_lets s1 s2
  have hheld : Goes (mask Reg.all (.beaconAt :: .heaters :: .insRes :: islandResetParts)) s s1 :=
      ((s.goes_setCrossing ..).lift inside_all).putBit _ _ _ _ (mask_reg (Reg.mem_all _))
  have hraised : Goes (mask Reg.all (.beaconAt :: .heaters :: .insRes :: islandResetParts)) s s2 :=
      hheld.when _ _ fun t => ((Goes.refl _ t).putBit _ _ _ _ (mask_reg (Reg.mem_all _))).raised _ inside_all
  exact ((hraised.when _ _ fun t => (t.goes_openMsgs ..).lift inside_all).when _ _ fun t => (t.goes_refreshPins).lift inside_all).step
      (State.goes_serveWaiting ..) inside_all

theorem execCrossingResyncAck_frame (d : Fin 25) (s : State) :
    ∃ t, execCrossingResyncAck d s = .next t ∧ Goes (mask Reg.all (.beaconAt :: .heaters :: .insRes :: islandResetParts)) s t :=
  ⟨_, rfl, Goes.ite (s.goes_crossOpen ..) (Goes.refl _ s)⟩

theorem execDevXdropRead_frame (p : Port) (d : Fin 25) (s : State) :
    ∃ t, execDevXdropRead p d s = .next t ∧ Goes (mask (signals (errors [.DEV_XDROP])) (signalled [.crossings, .waiting])) s t :=
  ⟨_, rfl, Goes.access (fun t => (t.goes_readClear ..).lift (by decide)) s _ _ _ _ _ (by decide)⟩

/-! ### The release of an island reset (R124, R313, R365, R493) -/

theorem State.goes_released (s : State) (d : Nat) :
    Goes (mask (.LANE_CUR :: .LNK_STAT :: .MEM_STK_STAT :: .PST_FW_STAT :: faultRegs) (.timers :: faultParts)) s (s.released d) :=
  Goes.ite ((Goes.refl _ s).each _ _ fun _ t => (t.goes_detect ..).lift (by decide)) (Goes.ite ((Goes.refl _ s).write _ _ _ (by decide)) (Goes.ite
      ((s.goes_resyncHome ..).lift (by decide)) ((Goes.refl _ s).when _ _ fun t => (t.goes_timebaseReturn).lift (by decide))))

theorem execIslandResetRelease_frame (d : Fin 25) (s : State) :
    ∃ t, execIslandResetRelease d s = .next t ∧ Goes (mask (.LANE_CUR :: .LNK_STAT :: .MEM_STK_STAT :: .PST_FW_STAT :: faultRegs) (.crossings ::
      .timers :: faultParts)) s t :=
  ⟨_, rfl, Goes.ite (Goes.refl _ s) (((s.goes_crossRelease ..).lift (by decide)).step (State.goes_released ..) (by decide))⟩

/-! ### Octets (R236, R238, R246) -/

theorem execOctetPllLock_frame (k : Fin 18) (lost : List Lost) (s : State) :
    ∃ t, execOctetPllLock k lost s = .next t ∧ Goes (mask Reg.all (.beaconAt :: .heaters :: .insRes :: islandResetParts)) s t := by
  refine ⟨_, rfl, ?_⟩
  extract_lets _ s1 s2
  have hshowFollow : Goes (mask Reg.all (.beaconAt :: .heaters :: .insRes :: islandResetParts)) s s1 :=
      (((Goes.refl _ s).write _ _ _ (Reg.mem_all _)).write _ _ _ (Reg.mem_all _)).step (State.goes_showFollow _) inside_all
  have hresetLanes : Goes (mask Reg.all (.beaconAt :: .heaters :: .insRes :: islandResetParts)) s s2 :=
      hshowFollow.when _ _ fun t => (t.goes_resetLanes ..).lift inside_all
  exact Goes.ite (Goes.refl _ s) ((((hresetLanes.step (s2.goes_startDomain ..) inside_all).step (State.goes_crossRelease ..) inside_all).when _ _
      fun t => (t.goes_released ..).lift inside_all).step (State.goes_serveWaiting ..) inside_all)

/-! ### Series (R224) -/

theorem execLeaseSeriesDefine_frame (L : Letter) (s : State) : ∃ t, execLeaseSeriesDefine L s = .next t ∧ Goes (mask leaseRegs seriesParts) s t :=
  ⟨_, rfl, Goes.serve (fun _ t => goes_svcLeaseSeriesDefine ..) s _ _ _ (by decide)⟩

theorem execLeaseSeriesOpen_frame (L : Letter) (s : State) :
    ∃ t, execLeaseSeriesOpen L s = .next t ∧ Goes (mask (signals (counting [])) flushAuditParts) s t :=
  ⟨_, rfl, Goes.serve (fun _ t => (goes_svcLeaseSeriesOpen ..).lift (by decide)) s _ _ _ (by decide)⟩

/-! ### Leases (R226, R227) -/

theorem execLeaseRequest_frame (L : Letter) (s : State) : ∃ t, execLeaseRequest L s = .next t ∧ Goes (mask leaseRegs leaseParts) s t :=
  ⟨_, rfl, (Goes.serveLate (fun _ t => (t.goes_leaseRequest ..).lift (by decide)) s _ _ _ (by decide)).trans (State.goes_pumpLeases _)⟩

theorem execLeaseRetire_frame (L : Letter) (s : State) : ∃ t, execLeaseRetire L s = .next t ∧ Goes (mask leaseRegs leaseParts) s t :=
  ⟨_, rfl, Goes.serve (fun _ t => goes_svcLeaseRetire ..) s _ _ _ (by decide)⟩

theorem execLeaseQuery_frame (L : Letter) (s : State) : ∃ t, execLeaseQuery L s = .next t ∧ Goes countMask s t :=
  ⟨_, rfl, Goes.serve (fun _ t => goes_svcLeaseQuery ..) s _ _ _ (by decide)⟩

/-! ### Audit and reconciliation (R231, R232) -/

theorem execLogAuditBind_frame (L : Letter) (s : State) :
    ∃ t, execLogAuditBind L s = .next t ∧ Goes (mask (signals (counting [])) (signalled [.lease])) s t :=
  ⟨_, rfl, Goes.serve (fun _ t => (goes_svcLogAuditBind ..).lift (by decide)) s _ _ _ (by decide)⟩

theorem State.goes_setPower (s : State) (g : PowerState → PowerState) : Goes (mask [] [.power]) s (s.setPower g) :=
  (Goes.refl _ s).set_power _ (mask_part (by decide))

/-! ### STANDBY (R474, R476) -/

/-- The registers of `standbyRegion`. -/
def standbyRegionRegs : List Reg := .CFG_BM_STAT :: .CFG_FAB_STAT :: .CFG_ISO_CNT :: .CFG_RGN_STAT :: .CFG_TREE_STAT :: .DEV_XDROP :: .PST_LOCK ::
  .PST_MB_REQ :: .PWR_RGN_STAT :: inhibitRegs

theorem State.goes_standbyRegion (s : State) (retain n : Nat) :
    Goes (mask standbyRegionRegs (.config :: .gates :: resetRegionParts ++ inhibitParts)) s (s.standbyRegion retain n) :=
  Goes.ite ((s.goes_resetRegion ..).lift (by decide)) (Goes.ite ((Goes.refl _ s).write _ _ _ (by decide)) ((((s.goes_isolate ..).lift
      (by decide)).each _ _ fun _ t => (t.goes_inhibit ..).lift (by decide)).step (State.goes_resetRegion ..) (by decide)))

theorem State.goes_octetsDown (s : State) : Goes (mask octetDownRegs octetParts) s s.octetsDown :=
  (Goes.refl _ s).each _ _ fun _ t => t.goes_octetDown_tight ..

/-- The registers of `enterStandby`. -/
def enterStandbyRegs : List Reg := .CFG_AGT_STAT :: .CFG_SCRUB_STAT :: .MEM_HOME_STAT :: .PIN_BANK_STAT :: .PIN_IN :: .PIN_PWM_HI :: .PWR_STATE ::
  octetDownRegs ++ memRegs ++ standbyRegionRegs

theorem State.goes_enterStandby (s : State) (retain : Nat) :
    Goes (mask enterStandbyRegs (.config :: .gates :: .power :: .seals :: octetParts ++ resetRegionParts)) s (s.enterStandby retain) := by
  unfold State.enterStandby
  extract_lets _ _ s1 _ s2 s3 s4 s5
  have hrefresh : Goes (mask enterStandbyRegs (.config :: .gates :: .power :: .seals :: octetParts ++ resetRegionParts)) s s1 :=
      ((((((s.goes_heatersLow).lift (by decide)).step (State.goes_writeBackCaches ..) (by decide)).step (State.goes_emptyDirs _) (by decide)).step
        (State.goes_flushMeta _) (by decide)).step (State.goes_loseQueue ..) (by decide)).each _ _ fun _ t => (Goes.refl _ t).write _ _ _ (by decide)
  have hholdBank : Goes (mask enterStandbyRegs (.config :: .gates :: .power :: .seals :: octetParts ++ resetRegionParts)) s s2 :=
      (hrefresh.set_pins _ (mask_part (by decide))).each _ _ fun _ t => (t.goes_holdBank ..).lift (by decide)
  have hstandbyRegion : Goes (mask enterStandbyRegs (.config :: .gates :: .power :: .seals :: octetParts ++ resetRegionParts)) s s3 :=
      hholdBank.each _ _ fun _ t => (t.goes_standbyRegion ..).lift (by decide)
  have hsetPower : Goes (mask enterStandbyRegs (.config :: .gates :: .power :: .seals :: octetParts ++ resetRegionParts)) s s4 :=
      hstandbyRegion.step (s3.goes_setPower ..) (by decide)
  have hstopDomain : Goes (mask enterStandbyRegs (.config :: .gates :: .power :: .seals :: octetParts ++ resetRegionParts)) s s5 :=
      (hsetPower.step (s4.goes_octetsDown) (by decide)).each _ _ fun _ t => (t.goes_stopDomain ..).lift (by decide)
  exact ((hstopDomain.step (s5.goes_setConfig ..) (by decide)).write _ _ _ (by decide)).step (State.goes_arrive ..) (by decide)

theorem State.goes_releaseBank (s : State) (b : Nat) :
    Goes (mask (signals [.PIN_BANK_CTL, .PIN_BANK_STAT, .PIN_IN]) (.timers :: stopDomainParts)) s (s.releaseBank b) :=
  Goes.ite (Goes.refl _ s) (Goes.ite ((s.goes_beginRange ..).lift (by decide)) ((s.goes_releaseHold ..).lift (by decide)))

theorem State.goes_leaveStandby (s : State) (cause : Nat) :
    Goes (mask Reg.all (.beaconAt :: .heaters :: .insRes :: islandResetParts)) s (s.leaveStandby cause) := by
  unfold State.leaveStandby
  extract_lets s1 s2 _ s3 _ s4
  have hraised : Goes (mask Reg.all (.beaconAt :: .heaters :: .insRes :: islandResetParts)) s s1 :=
      (((Goes.refl _ s).write _ _ _ (Reg.mem_all _)).write _ _ _ (Reg.mem_all _)).raised _ inside_all
  have hserveWaiting : Goes (mask Reg.all (.beaconAt :: .heaters :: .insRes :: islandResetParts)) s s2 :=
      hraised.each _ _ fun _ t => ((t.goes_startDomain ..).lift inside_all).step (State.goes_serveWaiting ..) inside_all
  have hreleaseBank : Goes (mask Reg.all (.beaconAt :: .heaters :: .insRes :: islandResetParts)) s s3 :=
      (hserveWaiting.set_pins _ (mask_part (by decide))).each _ _ fun _ t => (t.goes_releaseBank ..).lift inside_all
  have hsetConfig : Goes (mask Reg.all (.beaconAt :: .heaters :: .insRes :: islandResetParts)) s s4 :=
      hreleaseBank.each _ _ fun _ t => ((t.goes_beginRestore ..).lift inside_all).step (State.goes_setConfig ..) inside_all
  exact hsetConfig.step (s4.goes_wakeOn) inside_all

theorem State.goes_reopened (s : State) (n : Nat) : Goes (mask wakeRegs (signalled [.power, .svc])) s (s.reopened n) :=
  Goes.ite (((s.goes_setPower ..).lift (by decide)).step (State.goes_wakeOn _) (by decide)) (Goes.refl _ s)

/-! ### HIBERNATE (R470, R477, R497) -/

theorem State.goes_recordAxes (s : State) : Goes (mask [] [.power]) s s.recordAxes := by
  unfold State.recordAxes
  exact s.goes_setPower _

/-- The registers of `enterHibernate`. -/
def enterHibernateRegs : List Reg := .CFG_AGT_STAT :: .CFG_ISO_CNT :: .CFG_RGN_STAT :: .CFG_SCRUB_STAT :: .MEM_HOME_STAT :: .PIN_PWM_HI ::
  .PWR_RGN_STAT :: .PWR_STATE :: octetDownRegs

theorem State.goes_enterHibernate (s : State) (cause : Nat) :
    Goes (mask enterHibernateRegs (.config :: .gates :: .isos :: .power :: .resets :: .seals :: octetParts)) s (s.enterHibernate cause) := by
  unfold State.enterHibernate
  extract_lets s1 s2 s3 _ s4 s5 _ _ s6
  have hoctetsDown : Goes (mask enterHibernateRegs (.config :: .gates :: .isos :: .power :: .resets :: .seals :: octetParts)) s s1 :=
      (((s.goes_recordAxes).lift (by decide)).step (State.goes_heatersLow _) (by decide)).step (State.goes_octetsDown _) (by decide)
  have hisolate : Goes (mask enterHibernateRegs (.config :: .gates :: .isos :: .power :: .resets :: .seals :: octetParts)) s s2 :=
      hoctetsDown.each _ _ fun _ t => (t.goes_isolate ..).lift (by decide)
  have hloseQueue : Goes (mask enterHibernateRegs (.config :: .gates :: .isos :: .power :: .resets :: .seals :: octetParts)) s s3 :=
      (((hisolate.each _ _ fun _ t => (t.goes_stopDomain ..).lift (by decide)).step (State.goes_loseCaches ..) (by decide)).step
        (State.goes_emptyHomes _) (by decide)).step (State.goes_loseQueue ..) (by decide)
  have hseals : Goes (mask enterHibernateRegs (.config :: .gates :: .isos :: .power :: .resets :: .seals :: octetParts)) s s4 :=
      hloseQueue.set_seals _ (mask_part (by decide))
  have hsetPower : Goes (mask enterHibernateRegs (.config :: .gates :: .isos :: .power :: .resets :: .seals :: octetParts)) s s5 :=
      (hseals.write _ _ _ (by decide)).step (State.goes_setPower ..) (by decide)
  have hpins : Goes (mask enterHibernateRegs (.config :: .gates :: .isos :: .power :: .resets :: .seals :: octetParts)) s s6 :=
      hsetPower.set_pins_resets _ _ (mask_part (by decide)) (mask_part (by decide))
  exact (((hpins.write _ _ _ (by decide)).emit _ (mask_part (by decide))).step (State.goes_arrive ..) (by decide)).step (State.goes_refreshPins _)
      (by decide)

/-! ### Orderly shut-down (R382, R477) -/

theorem State.goes_beginLeaving (s : State) (target : Nat) : Goes (mask [.PWR_STATE] [.power]) s (s.beginLeaving target) :=
  ((s.goes_setPower ..).lift (by decide)).write _ _ _ (by decide)

theorem State.goes_finishLeaving (s : State) :
    Goes (mask (signals [.DEV_ST_STAT, .PIN_GSTAT, .PIN_ICONF, .PIN_OCONF, .PIN_PWM_HI]) (.franker :: .power :: .secure :: stopDomainParts)) s
      s.finishLeaving := by
  unfold State.finishLeaving
  extract_lets s1 s2
  have hsaveCounter : Goes (mask (signals [.DEV_ST_STAT, .PIN_GSTAT, .PIN_ICONF, .PIN_OCONF, .PIN_PWM_HI]) (.franker :: .power :: .secure ::
        stopDomainParts)) s s1 :=
      (Goes.refl _ s).when _ _ fun t => (t.goes_saveCounter ..).lift (by decide)
  have hheatersLow : Goes (mask (signals [.DEV_ST_STAT, .PIN_GSTAT, .PIN_ICONF, .PIN_OCONF, .PIN_PWM_HI]) (.franker :: .power :: .secure ::
        stopDomainParts)) s s2 :=
      ((hsaveCounter.write _ _ _ (by decide)).step (State.goes_setSecure ..) (by decide)).step (State.goes_heatersLow _) (by decide)
  exact hheatersLow.step (s2.goes_setPower ..) (by decide)

theorem State.goes_depart (s : State) :
    Goes (mask enterHibernateRegs (.config :: .gates :: .isos :: .power :: .resets :: .seals :: octetParts)) s s.depart :=
  (((s.goes_completeAll ..).lift (by decide)).step (State.goes_completeAll ..) (by decide)).trans (State.goes_enterHibernate ..)

/-! ### Slices (R515, R516) -/

/-- The registers of `sliceLoss`. -/
def sliceLossRegs : List Reg := .CFG_BM_STAT :: .CFG_FAB_STAT :: .CFG_ISO_CNT :: .CFG_RGN_STAT :: .CFG_TREE_STAT :: .PIN_PLC_CNT :: .PIN_PLC_STAT ::
  .PST_LOCK :: .PST_MB_REQ :: .SRT_FLUSH_CNT :: laneResetRegs ++ homeRegs

theorem State.goes_sliceLoss (s : State) (k : Nat) :
    Goes (mask sliceLossRegs (.config :: .gates :: .memo :: .seals :: resetRegionParts ++ laneResetParts)) s (s.sliceLoss k) := by
  unfold State.sliceLoss
  split
  · exact ((s.goes_isolate ..).lift (by decide)).step (State.goes_resetRegion ..) (by decide)
  · exact Goes.ite (((s.goes_loseCaches ..).lift (by decide)).step (State.goes_forgetAgents ..) (by decide)) (Goes.ite ((s.goes_emptySorter ..).lift
      (by decide)) (Goes.ite ((Goes.refl _ s).each _ _ fun _ t => ((t.goes_setPlc ..).lift (by decide)).each _ _ fun _ u =>
      (u.goes_lateAction ..).lift (by decide)) (Goes.ite (Goes.refl _ s) (Goes.ite (((s.goes_loseCaches ..).lift (by decide)).step
      (State.goes_forgetAgents ..) (by decide)) (Goes.ite ((Goes.refl _ s).each _ _ fun _ t => (t.goes_octetLanesReset ..).lift (by decide))
      (Goes.refl _ s))))))

theorem State.goes_beginSlice (s : State) (t : TestRun) :
    Goes (mask sliceLossRegs (.config :: .gates :: .memo :: .seals :: .secure :: resetRegionParts ++ laneResetParts)) s (s.beginSlice t) :=
  ((s.goes_setSecure ..).lift (by decide)).step (State.goes_sliceLoss ..) (by decide)

theorem State.goes_endSlice (s : State) (k : Nat) :
    Goes (mask (.MEM_STK_STAT :: sliceLossRegs) (.config :: .gates :: .memo :: .seals :: resetRegionParts ++ laneResetParts)) s (s.endSlice k) :=
  ((s.goes_sliceLoss ..).lift (by decide)).when _ _ fun t => (t.goes_resyncHome ..).lift (by decide)

/-- The parts of `beginSelfTest`. -/
def beginSelfTestParts : List Part := .config :: .franker :: .gates :: .memo :: .power :: .seals :: .secure :: resetRegionParts ++ laneResetParts

theorem State.goes_beginSelfTest (s : State) : Goes (mask (.DEV_ST_STAT :: .PIN_PWM_HI :: sliceLossRegs) beginSelfTestParts) s s.beginSelfTest := by
  unfold State.beginSelfTest
  extract_lets s1
  have hsetSecure : Goes (mask (.DEV_ST_STAT :: .PIN_PWM_HI :: sliceLossRegs) beginSelfTestParts) s s1 :=
      (((s.goes_enterPhase ..).lift (by decide)).step (State.goes_setPower ..) (by decide)).step (State.goes_setSecure ..) (by decide)
  exact Goes.ite (hsetSecure.step (s1.goes_finishLeaving) (by decide)) ((hsetSecure.write _ _ _ (by decide)).step (State.goes_beginSlice ..)
      (by decide))

theorem State.goes_leaveOn (s : State) :
    Goes (mask (.DEV_ST_STAT :: enterHibernateRegs ++ sliceLossRegs) (.ports :: .resets :: .samplers :: beginSelfTestParts)) s s.leaveOn := by
  unfold State.leaveOn
  split
  · exact Goes.refl _ s
  · exact Goes.ite (Goes.ite ((s.goes_finishLeaving).lift (by decide)) ((s.goes_beginSelfTest).lift (by decide))) (Goes.ite ((s.goes_depart).lift
      (by decide)) (Goes.refl _ s))

/-! ### Region images (R384) -/

theorem State.goes_discover (s : State) (ok : Bool) : Goes (mask (signals [.CFG_XSPI]) (signalled [])) s (s.discover ok) :=
  Goes.ite (((Goes.refl _ s).write _ _ _ (by decide)).raised _ (by decide)) (Goes.ite (Goes.refl _ s) (((((Goes.refl _ s).write _ _ _
      (by decide)).write _ _ _ (by decide)).write _ _ _ (by decide)).drew (mask_part (by decide))))

theorem goes_svcImageOpen (L : Letter) (f : ImageFacts) (a2 : List Byte) (s : State) :
    Goes (mask (signals [.CFG_XSPI]) (signalled [.config, .svc])) s (svcImageOpen L f a2 s).1 := by
  unfold svcImageOpen
  extract_lets _ _ _ _ s1
  have hdiscover : Goes (mask (signals [.CFG_XSPI]) (signalled [.config, .svc])) s s1 :=
      (Goes.refl _ s).when _ _ fun t => (t.goes_discover ..).lift (by decide)
  refine Goes.iteFst (Goes.refl _ s) ?_
  split
  · exact Goes.refl _ s
  · exact Goes.iteFst hdiscover (Goes.pairFst ((hdiscover.step (s1.goes_createAt ..) (by decide)).step (State.goes_setConfig _ _) (by decide)))

theorem execRegionImageOpen_frame (L : Letter) (facts : ImageFacts) (s : State) :
    ∃ t, execRegionImageOpen L facts s = .next t ∧ Goes (mask (signals (counting [.CFG_XSPI])) (signalled [.config, .svc])) s t :=
  ⟨_, rfl, Goes.serve (fun _ t => (goes_svcImageOpen ..).lift (by decide)) s _ _ _ (by decide)⟩

theorem goes_svcImageClose (L : Letter) (a1 : List Byte) (s : State) :
    Goes (mask (signals []) (signalled [.config, .svc])) s (svcImageClose L a1 s).1 := by
  unfold svcImageClose
  extract_lets
  split
  · exact Goes.refl _ s
  · exact Goes.iteFst (Goes.refl _ s) (Goes.pairFst (((s.goes_destroy ..).lift (by decide)).step (State.goes_setConfig _ _) (by decide)))

theorem execRegionImageClose_frame (L : Letter) (s : State) :
    ∃ t, execRegionImageClose L s = .next t ∧ Goes (mask (signals (counting [])) (signalled [.config, .svc])) s t :=
  ⟨_, rfl, Goes.serve (fun _ t => (goes_svcImageClose ..).lift (by decide)) s _ _ _ (by decide)⟩

/-! ### Loads (R424, R426, R445) -/

theorem goes_svcRegionLoad (L : Letter) (a1 : List Byte) (s : State) : Goes objectMask s (svcRegionLoad L a1 s).1 := by
  unfold svcRegionLoad
  extract_lets
  split
  · exact Goes.refl _ s
  · refine Goes.iteFst (Goes.refl _ s) ?_
    split
    · exact Goes.refl _ s
    · exact Goes.iteFst (Goes.refl _ s) (Goes.iteFst (Goes.refl _ s) (goes_accepted ..))

theorem State.goes_queueLoad (s : State) (o : PendingOp) :
    Goes (mask nextRegionLoadRegs (.config :: .gates :: .pins :: .trees :: resetRegionParts)) s (s.queueLoad o) :=
  ((s.goes_setConfig ..).lift (by decide)).step (State.goes_nextRegionLoad _) (by decide)

theorem execRegionLoad_frame (L : Letter) (s : State) :
    ∃ t, execRegionLoad L s = .next t ∧ Goes (mask (.PERF_CNT :: .PERF_OVF :: nextRegionLoadRegs) (.config :: .gates :: .pins :: .trees ::
      resetRegionParts)) s t :=
  ⟨_, rfl, Goes.serveThen (fun _ t => (goes_svcRegionLoad ..).lift (by decide)) (fun _ t => (t.goes_queueLoad ..).lift (by decide)) s _ _ _
      (by decide)⟩

theorem execRegionLoadComplete_frame (f : ImageFacts) (body : RegionBody) (s : State) :
    ∃ t, execRegionLoadComplete f body s = .next t ∧ Goes (mask Reg.most (.images :: .monitors :: .power :: .restoring :: .uclkUse ::
      fabricResetParts ++ holdParts)) s t := by
  refine ⟨_, rfl, ?_⟩
  split
  · exact Goes.refl _ s
  · refine Goes.ite (Goes.refl _ s) ?_
    dsimp only
    split
    · exact (((Goes.refl _ s).when _ _ fun t => (t.goes_discover ..).lift inside_most).step (State.goes_readImage ..) inside_most).step
        (State.goes_regionLoadFails ..) inside_most
    · exact (((((((Goes.refl _ s).when _ _ fun t => (t.goes_discover ..).lift inside_most).step (State.goes_readImage ..) inside_most).step
        (State.goes_keepKeys ..) inside_most).step (State.goes_applyRegion ..) inside_most).step (State.goes_wakeAlone ..) inside_most).when _ _ fun
        t => (t.goes_logFirmware ..).lift inside_most).step (State.goes_endRegionLoad ..) inside_most

/-! ### Resets, wakes and the end of isolation (R425, R446, R448) -/

theorem goes_svcRegionReset (L : Letter) (a1 : List Byte) (s : State) : Goes objectMask s (svcRegionReset L a1 s).1 :=
  Goes.iteFst (Goes.refl _ s) (Goes.iteFst (Goes.refl _ s) (goes_accepted ..))

theorem State.goes_serveReset (s : State) (n : Nat) (wake : Bool) :
    Goes (mask regionResetRegs (.config :: .gates :: .restoring :: resetRegionParts ++ inhibitParts)) s (s.serveReset n wake) :=
  Goes.ite (Goes.refl _ s) (Goes.ite ((s.goes_setConfig ..).lift (by decide)) ((s.goes_askRegionReset ..).lift (by decide)))

theorem execRegionReset_frame (L : Letter) (s : State) :
    ∃ t, execRegionReset L s = .next t ∧ Goes (mask regionResetRegs (.config :: .gates :: .restoring :: resetRegionParts ++ inhibitParts)) s t :=
  ⟨_, rfl, Goes.serveThen (fun _ t => (goes_svcRegionReset ..).lift (by decide)) (fun _ t => t.goes_serveReset ..) s _ _ _ (by decide)⟩

theorem goes_svcRegionQuery (L : Letter) (a1 : List Byte) (s : State) : Goes (mask [] []) s (svcRegionQuery L a1 s).1 :=
  Goes.iteFst (Goes.refl _ s) (Goes.refl _ s)

theorem execRegionQuery_frame (L : Letter) (s : State) : ∃ t, execRegionQuery L s = .next t ∧ Goes countMask s t :=
  ⟨_, rfl, Goes.serve (fun _ t => (goes_svcRegionQuery ..).lift (by decide)) s _ _ _ (by decide)⟩

/-- The parts of `restored`. -/
def restoredParts : List Part := .config :: .gates :: .monitors :: .pins :: .power :: .restoring :: .trees :: resetRegionParts

theorem State.goes_restored (s : State) (n : Nat) (ok : Bool) :
    Goes (mask (.CFG_FAIL :: nextRegionLoadRegs ++ wakeRegs) restoredParts) s (s.restored n ok) := by
  unfold State.restored
  extract_lets _ _ s1 s2 s3 s4
  have hsetConfig : Goes (mask (.CFG_FAIL :: nextRegionLoadRegs ++ wakeRegs) restoredParts) s s1 :=
      ((Goes.refl _ s).set_restoring _ (mask_part (by decide))).step (State.goes_setConfig ..) (by decide)
  have hstate : Goes (mask (.CFG_FAIL :: nextRegionLoadRegs ++ wakeRegs) restoredParts) s s2 := hsetConfig.write _ _ _ (by decide)
  have hchosen : Goes (mask (.CFG_FAIL :: nextRegionLoadRegs ++ wakeRegs) restoredParts) s s3 :=
      Goes.ite ((hstate.step (s2.goes_resetBms ..) (by decide)).when _ _ fun t => (t.goes_wakeAlone ..).lift (by decide)) ((hstate.step
        (s2.goes_recordFail ..) (by decide)).raised _ (by decide))
  have hcompleteAll : Goes (mask (.CFG_FAIL :: nextRegionLoadRegs ++ wakeRegs) restoredParts) s s4 :=
      hchosen.when _ _ fun t => (t.goes_completeAll ..).lift (by decide)
  exact (hcompleteAll.step (s4.goes_reopened ..) (by decide)).step (State.goes_nextRegionLoad _) (by decide)

theorem execInitRestoreDone_frame (n : Fin 40) (ok : ImageFacts) (s : State) :
    ∃ t, execInitRestoreDone n ok s = .next t ∧ Goes (mask (.CFG_FAIL :: .CFG_NVM_CNT :: .CFG_NVM_ERR :: .CFG_XSPI :: nextRegionLoadRegs ++ wakeRegs)
      restoredParts) s t :=
  ⟨_, rfl, Goes.ite (((s.goes_readImage ..).lift (by decide)).step (State.goes_restored ..) (by decide)) (Goes.refl _ s)⟩

theorem execWakeStrobe_frame (lanes : BitVec 40) (s : State) :
    ∃ t, execWakeStrobe lanes s = .next t ∧ Goes (mask (signals [.CFG_RGN_STAT, .CFG_TREE_STAT, .PIN_GSTAT, .PIN_ICONF, .PIN_OCONF]) (.boxMem ::
      .monitors :: .power :: .pulses :: fillParts)) s t :=
  ⟨_, rfl, Goes.ite (Goes.refl _ s) ((Goes.refl _ s).each _ _ fun _ t => (t.goes_wakeRegion ..).lift (by decide))⟩

theorem execIsolationEnd_frame (n : Fin 40) (s : State) :
    ∃ t, execIsolationEnd n s = .next t ∧ Goes (mask (signals [.CFG_RGN_STAT]) (signalled [.config])) s t := by
  refine ⟨_, rfl, ?_⟩
  extract_lets _ s1
  have hisolated : Goes (mask (signals [.CFG_RGN_STAT]) (signalled [.config])) s s1 :=
      ((s.goes_setConfig ..).lift (by decide)).write _ _ _ (by decide)
  exact Goes.ite (hisolated.when _ _ fun t => (Goes.refl _ t).raised _ (by decide)) (Goes.refl _ s)

/-! ### Scrubbing (R449..R455) -/

theorem State.goes_scrubLast (s : State) (frame region : Nat) (uncorr : Bool) :
    Goes (mask [.CFG_SCRUB_LAST] []) s (s.scrubLast frame region uncorr) :=
  (((Goes.refl _ s).write _ _ _ (by decide)).write _ _ _ (by decide)).write _ _ _ (by decide)

theorem State.goes_essentialUpset (s : State) (n frame : Nat) (uncorr : Bool) :
    Goes (mask (.CFG_RGN_UPSET :: .CFG_SCRUB_LAST :: regionResetRegs) (.config :: .gates :: .restoring :: resetRegionParts ++ inhibitParts)) s
      (s.essentialUpset n frame uncorr) := by
  unfold State.essentialUpset
  extract_lets s1 s2
  have hscrubLast : Goes (mask (.CFG_RGN_UPSET :: .CFG_SCRUB_LAST :: regionResetRegs) (.config :: .gates :: .restoring :: resetRegionParts ++
        inhibitParts)) s s1 :=
      ((Goes.refl _ s).bump _ _ _ (mask_reg (by decide))).step (State.goes_scrubLast ..) (by decide)
  have hraised : Goes (mask (.CFG_RGN_UPSET :: .CFG_SCRUB_LAST :: regionResetRegs) (.config :: .gates :: .restoring :: resetRegionParts ++
        inhibitParts)) s s2 :=
      (hscrubLast.raisedOf _ _ _ (by decide)).raised _ (by decide)
  exact Goes.ite (hraised.step (s2.goes_regionReset ..) (by decide)) hraised

theorem State.goes_globalUpset (s : State) (frame : Nat) (uncorr : Bool) :
    Goes (mask (signals [.CFG_SCRUB_CNT, .CFG_SCRUB_LAST]) (signalled [])) s (s.globalUpset frame uncorr) :=
  (((Goes.refl _ s).bump _ _ _ (mask_reg (by decide))).step (State.goes_scrubLast ..) (by decide)).raised _ (by decide)

theorem State.goes_upset (s : State) (n frame : Nat) (essential uncorr : Bool) :
    Goes (mask (.CFG_RGN_UPSET :: .CFG_SCRUB_CNT :: .CFG_SCRUB_LAST :: regionResetRegs) (.config :: .gates :: .restoring :: resetRegionParts ++
      inhibitParts)) s (s.upset n frame essential uncorr) :=
  Goes.ite ((s.goes_globalUpset ..).lift (by decide)) (Goes.ite ((s.goes_essentialUpset ..).lift (by decide)) ((Goes.refl _ s).bump _ _ _ (mask_reg
      (by decide))))

theorem State.goes_beginRefetch (s : State) (n frame word : Nat) :
    Goes (mask (signals [.CFG_SCRUB_CNT]) (signalled [.config])) s (s.beginRefetch n frame word) :=
  (((s.goes_setConfig ..).lift (by decide)).bump _ _ _ (mask_reg (by decide))).raised _ (by decide)

theorem State.goes_scrubNext (s : State) (place : Nat) : Goes (mask [.CFG_SCRUB_STAT] [.config]) s (s.scrubNext place) :=
  Goes.ite ((s.goes_setConfig ..).lift (by decide)) (((s.goes_setConfig ..).lift (by decide)).addMod _ _ _ (mask_reg (by decide)))

theorem State.goes_scrubRead (s : State) (place : Nat) (r : FrameRead) :
    Goes (mask (.CFG_RGN_UPSET :: .CFG_SCRUB_CNT :: .CFG_SCRUB_LAST :: regionResetRegs) (.config :: .gates :: .restoring :: resetRegionParts ++
      inhibitParts)) s (s.scrubRead place r) := by
  unfold State.scrubRead
  extract_lets
  split
  · exact Goes.refl _ s
  · exact s.goes_upset ..
  · exact (s.goes_beginRefetch ..).lift (by decide)

theorem execScrubFrameRead_frame (r : FrameRead) (s : State) :
    ∃ t, execScrubFrameRead r s = .next t ∧ Goes (mask (.CFG_RGN_UPSET :: .CFG_SCRUB_CNT :: .CFG_SCRUB_LAST :: .CFG_SCRUB_STAT :: regionResetRegs)
      (.config :: .gates :: .restoring :: resetRegionParts ++ inhibitParts)) s t :=
  ⟨_, rfl, Goes.ite ((Goes.refl _ s).writeIf _ _ _ _ (by decide)) ((((Goes.refl _ s).write _ _ _ (by decide)).step (State.goes_scrubNext ..)
      (by decide)).step (State.goes_scrubRead ..) (by decide))⟩

theorem execFrameRefetchDone_frame (ok : ImageFacts) (s : State) :
    ∃ t, execFrameRefetchDone ok s = .next t ∧ Goes (mask Reg.most (.restoring :: fabricResetParts ++ holdParts)) s t := by
  refine ⟨_, rfl, ?_⟩
  split
  · exact Goes.refl _ s
  · exact Goes.ite (((s.goes_readImage ..).lift inside_most).step (State.goes_refetchFails ..) inside_most) (((((s.goes_readImage ..).lift
      inside_most).step (State.goes_setConfig ..) inside_most).step (State.goes_upset ..) inside_most).step (State.goes_nextRegionLoad _) inside_most)
end Sys2Proof.Machine
end

section
/-! PROOFS. Flags of the thermal limits, and a bank that is held, as frames. -/

namespace Sys2Proof.Machine

-- One proof after another: side by side they need more memory than a check has.
set_option Elab.async false

/-! ### Flags of the thermal limits, and a bank that is held (R147, R470) -/

theorem State.goes_thermal (s : State) (f : Fld) (hf : f.spec.reg = .PWR_THERM_STAT) :
    Goes (mask (signals [.PWR_THERM_STAT]) (signalled [])) s (s.thermal f) :=
  ((Goes.refl _ s).write f _ _ (by rw [hf]; decide)).raisedOf _ _ _ (by decide)

theorem State.goes_beginRange_tight (s : State) (b : Nat) : Goes (mask [.PIN_BANK_STAT, .PIN_IN] (.timers :: sampleParts)) s (s.beginRange b) := by
  unfold State.beginRange
  extract_lets s1
  have hheld : Goes (mask [.PIN_BANK_STAT, .PIN_IN] (.timers :: sampleParts)) s s1 :=
    (((s.goes_calAbort _).lift (by decide)).step (State.goes_holdBank _ b) (by decide)).step (State.goes_startTimer ..) (by decide)
  exact hheld.set_pins _ (mask_part (by decide))

end Sys2Proof.Machine
end

section
/-! PROOFS. Power, supplies and starts as frames. -/

namespace Sys2Proof.Machine

-- One proof after another: side by side they need more memory than a check has.
set_option Elab.async false

/-! ### POWER services (R383) -/

theorem goes_svcPowerState (L : Letter) (a1 : List Byte) (s : State) : Goes objectMask s (svcPowerState L a1 s).1 := by
  unfold svcPowerState
  extract_lets
  refine Goes.iteFst (Goes.refl _ s) ?_
  refine Goes.iteFst (Goes.refl _ s) ?_
  refine Goes.iteFst (Goes.refl _ s) ?_
  split
  · exact Goes.refl _ s
  · exact Goes.iteFst (Goes.refl _ s) (goes_accepted ..)

theorem State.goes_changePower (s : State) (t retain : Nat) :
    Goes (mask Reg.all (.beaconAt :: .heaters :: .insRes :: islandResetParts)) s (s.changePower t retain) := by
  unfold State.changePower
  extract_lets _ _ s1
  have hleaveStandby : Goes (mask Reg.all (.beaconAt :: .heaters :: .insRes :: islandResetParts)) s s1 := (s.goes_leaveStandby ..).lift inside_all
  exact Goes.ite ((s.goes_beginLeaving ..).lift inside_all) (Goes.ite ((s.goes_completeAll ..).lift inside_all) (Goes.ite
      (((s.goes_enterStandby ..).lift inside_all).step (State.goes_completeAll ..) inside_all) (Goes.ite (Goes.ite (hleaveStandby.step
      (s1.goes_completeAll ..) inside_all) hleaveStandby) (((s.goes_arrive ..).lift inside_all).step (State.goes_completeAll ..) inside_all))))

theorem execPowerState_frame (L : Letter) (s : State) :
    ∃ t, execPowerState L s = .next t ∧ Goes (mask Reg.all (.beaconAt :: .heaters :: .insRes :: islandResetParts)) s t :=
  ⟨_, rfl, Goes.serveThen (fun _ t => (goes_svcPowerState ..).lift inside_all) (fun _ t => t.goes_changePower ..) s _ _ _ inside_all⟩

theorem execPowerQuery_frame (L : Letter) (s : State) : ∃ t, execPowerQuery L s = .next t ∧ Goes countMask s t :=
  ⟨_, rfl, Goes.serve (fun _ t => Goes.refl _ t) s _ _ _ (by decide)⟩

theorem goes_svcPowerMargin (L : Letter) (a1 : List Byte) (s : State) : Goes (mask [.PWR_RGN_CTL] []) s (svcPowerMargin L a1 s).1 :=
  Goes.iteFst (Goes.refl _ s) ((Goes.refl _ s).each _ _ fun _ t => (Goes.refl _ t).write _ _ _ (by decide))

theorem execPowerMargin_frame (L : Letter) (s : State) :
    ∃ t, execPowerMargin L s = .next t ∧ Goes (mask (signals (counting [.PWR_RGN_CTL])) (signalled [])) s t :=
  ⟨_, rfl, Goes.serve (fun _ t => (goes_svcPowerMargin ..).lift (by decide)) s _ _ _ (by decide)⟩

theorem goes_svcPowerRail (L : Letter) (a1 : List Byte) (s : State) : Goes objectMask s (svcPowerRail L a1 s).1 := by
  unfold svcPowerRail
  extract_lets
  refine Goes.iteFst (Goes.refl _ s) ?_
  refine Goes.iteFst (Goes.refl _ s) ?_
  split
  · exact Goes.refl _ s
  · exact goes_accepted ..

theorem State.goes_changeRail (s : State) (bank r : Nat) :
    Goes (mask (signals (counting [.PIN_BANK_CTL, .PIN_BANK_STAT, .PIN_IN])) (.timers :: calParts)) s (s.changeRail bank r) := by
  unfold State.changeRail
  extract_lets s1
  have hsetRange : Goes (mask (signals (counting [.PIN_BANK_CTL, .PIN_BANK_STAT, .PIN_IN])) (.timers :: calParts)) s s1 :=
      (s.goes_setRange ..).lift (by decide)
  exact Goes.ite hsetRange (hsetRange.step (s1.goes_completeAll ..) (by decide))

theorem execPowerRail_frame (L : Letter) (s : State) :
    ∃ t, execPowerRail L s = .next t ∧ Goes (mask (signals (counting [.PIN_BANK_CTL, .PIN_BANK_STAT, .PIN_IN])) (.timers :: calParts)) s t :=
  ⟨_, rfl, Goes.serveThen (fun _ t => (goes_svcPowerRail ..).lift (by decide)) (fun _ t => t.goes_changeRail ..) s _ _ _ (by decide)⟩

/-! ### External regulators (R463, R464) -/

theorem State.goes_polled (s : State) (e : Nat) (a : PollAnswer) : Goes (mask (signals (counting [.PWR_EXT])) (signalled [.svc])) s (s.polled e a) := by
  unfold State.polled
  extract_lets s1
  have hraised : Goes (mask (signals (counting [.PWR_EXT])) (signalled [.svc])) s s1 :=
      ((Goes.refl _ s).write _ _ _ (by decide)).raisedOf _ _ _ (by decide)
  refine Goes.ite (Goes.refl _ s) ?_
  split
  · split
    · exact hraised.step (s1.goes_completeAll ..) (by decide)
    · exact hraised
  · exact ((((((Goes.refl _ s).write _ _ _ (by decide)).write _ _ _ (by decide)).writeIf _ _ _ _ (by decide)).writeIf _ _ _ _
      (by decide)).writeIf _ _ _ _ (by decide)).when _ _ fun t => (Goes.refl _ t).raisedOf _ _ _ (by decide)

theorem execRegulatorPoll_frame (answers : List (Fin 16 × PollAnswer)) (s : State) :
    ∃ t, execRegulatorPoll answers s = .next t ∧ Goes (mask (signals (counting [.PWR_EXT])) (signalled [.svc])) s t :=
  ⟨_, rfl, Goes.ite ((Goes.refl _ s).each _ _ fun _ t => t.goes_polled ..) (Goes.refl _ s)⟩

theorem execRegulatorAlert_frame (s : State) : ∃ t, execRegulatorAlert s = .next t ∧ Goes (mask [] [.outputs]) s t :=
  ⟨_, rfl, Goes.ite ((Goes.refl _ s).each _ _ fun _ t => (Goes.refl _ t).emit _ (mask_part (by decide))) (Goes.refl _ s)⟩

/-! ### The sillage controller (R49, R465..R468) -/

theorem State.goes_tickEvents (s : State) (n : Nat) (counts : List WindowCount) : Goes countMask s (s.tickEvents n counts) :=
  (Goes.refl _ s).each _ _ fun _ t => (Goes.refl _ t).each _ _ fun _ u => u.goes_perf ..

theorem State.goes_showRatio (s : State) (n : Nat) (r : Option (Option (Nat × Nat))) :
    Goes (mask [.PWR_RGN_LOOP] [.freeValues]) s (s.showRatio n r) := by
  unfold State.showRatio
  split
  · exact ((s.goes_roundFree ..).lift (by decide)).write _ _ _ (by decide)
  · exact (Goes.refl _ s).write _ _ _ (by decide)

theorem State.goes_raiseVset (s : State) (n codes : Nat) : Goes (mask (signals [.PWR_RGN_STAT]) (signalled [])) s (s.raiseVset n codes) := by
  unfold State.raiseVset
  extract_lets _ s1
  have hsetVset : Goes (mask (signals [.PWR_RGN_STAT]) (signalled [])) s s1 := (s.goes_setVset ..).lift (by decide)
  exact hsetVset.when _ _ fun t => ((Goes.refl _ t).write _ _ _ (by decide)).raisedOf _ _ _ (by decide)

theorem State.goes_sillage (s : State) (n : Nat) (r : Option (Option (Nat × Nat))) :
    Goes (mask (signals [.PWR_RGN_STAT]) (signalled [.power])) s (s.sillage n r) := by
  unfold State.sillage
  split
  · exact (s.goes_setVset ..).lift (by decide)
  · exact Goes.ite ((s.goes_raiseVset ..).lift (by decide)) (Goes.ite ((s.goes_raiseVset ..).lift (by decide)) (Goes.ite (((s.goes_setVset ..).lift
      (by decide)).step (State.goes_setPower ..) (by decide)) (Goes.refl _ s)))

theorem State.goes_countWindows (s : State) (n : Nat) (r : Option (Option (Nat × Nat))) : Goes (mask [] [.power]) s (s.countWindows n r) := by
  unfold State.countWindows
  exact s.goes_setPower _

theorem State.goes_deficits (s : State) (n : Nat) (l : List Window') (atCap : Bool) : Goes codeMask s (s.deficits n l atCap) := by
  unfold State.deficits
  extract_lets _ s1 s2
  have hnow : Goes codeMask s s1 := (Goes.refl _ s).each _ _ fun _ t => (Goes.refl _ t).putBit _ _ _ _ (mask_reg (by decide))
  have hdeficit : Goes codeMask s s2 := hnow.each _ _ fun _ t => (Goes.refl _ t).putBit _ _ _ _ (mask_reg (by decide))
  exact hdeficit.when _ _ fun t => ((Goes.refl _ t).raised _ (by decide)).step (State.goes_perf ..) (by decide)

theorem execMonitorWindowEnd_frame (n : Fin 40) (counts : List WindowCount) (s : State) :
    ∃ t, execMonitorWindowEnd n counts s = .next t ∧ Goes (mask (signals (counting [.CFG_FAB_STAT, .PWR_RGN_LOOP, .PWR_RGN_STAT])) (signalled
      [.monitors, .power])) s t := by
  refine ⟨_, rfl, ?_⟩
  extract_lets s1 _ _ _ s2 s3 _ s4
  have htickEvents : Goes (mask (signals (counting [.CFG_FAB_STAT, .PWR_RGN_LOOP, .PWR_RGN_STAT])) (signalled [.monitors, .power])) s s1 :=
      (s.goes_tickEvents ..).lift (by decide)
  have hcountWindows : Goes (mask (signals (counting [.CFG_FAB_STAT, .PWR_RGN_LOOP, .PWR_RGN_STAT])) (signalled [.monitors, .power])) s s2 :=
      (htickEvents.step (s1.goes_showRatio ..) (by decide)).step (State.goes_countWindows ..) (by decide)
  have hchosen : Goes (mask (signals (counting [.CFG_FAB_STAT, .PWR_RGN_LOOP, .PWR_RGN_STAT])) (signalled [.monitors, .power])) s s3 :=
      Goes.ite (hcountWindows.step (s2.goes_sillage ..) (by decide)) hcountWindows
  have hshort : Goes (mask (signals (counting [.CFG_FAB_STAT, .PWR_RGN_LOOP, .PWR_RGN_STAT])) (signalled [.monitors, .power])) s s4 :=
      hchosen.when _ _ fun t => (Goes.refl _ t).bump _ _ _ (mask_reg (by decide))
  exact Goes.ite (Goes.refl _ s) ((hshort.step (s4.goes_deficits ..) (by decide)).step (State.goes_restartMonitors ..) (by decide))

theorem execRegFault_frame (site : Fin 40 ⊕ Fin 32) (s : State) :
    ∃ t, execRegFault site s = .next t ∧ Goes (mask (signals [.PWR_RGN_STAT]) (signalled [])) s t := by
  refine ⟨_, rfl, ?_⟩
  split
  · exact ((Goes.refl _ s).write _ _ _ (by decide)).raisedOf _ _ _ (by decide)
  · exact (Goes.refl _ s).raised _ (by decide)

theorem execAgeMeasure_frame (n : Fin 40) (age : BitVec 12) (s : State) :
    ∃ t, execAgeMeasure n age s = .next t ∧ Goes (mask (signals [.PWR_RGN_LOOP, .PWR_RGN_STAT]) (signalled [])) s t :=
  ⟨_, rfl, ((Goes.refl _ s).write _ _ _ (by decide)).when _ _ fun t => ((Goes.refl _ t).write _ _ _ (by decide)).raisedOf _ _ _ (by decide)⟩

/-! ### Measurements (R469..R471, R481) -/

theorem State.goes_senseTemps (s : State) (l : List Int) :
    Goes (mask (signals [.PWR_PKG_STAT, .PWR_TEMP, .PWR_THERM_STAT]) (signalled [])) s (s.senseTemps l) := by
  unfold State.senseTemps
  extract_lets s1 _ _ s2 s3
  have htemp : Goes (mask (signals [.PWR_PKG_STAT, .PWR_TEMP, .PWR_THERM_STAT]) (signalled [])) s s1 :=
      (Goes.refl _ s).each _ _ fun _ t => (Goes.refl _ t).write _ _ _ (by decide)
  have hsensor : Goes (mask (signals [.PWR_PKG_STAT, .PWR_TEMP, .PWR_THERM_STAT]) (signalled [])) s s2 :=
      (htemp.write _ _ _ (by decide)).write _ _ _ (by decide)
  have hthermal : Goes (mask (signals [.PWR_PKG_STAT, .PWR_TEMP, .PWR_THERM_STAT]) (signalled [])) s s3 :=
      hsensor.when _ _ fun t => (t.goes_thermal _ rfl).lift (by decide)
  exact hthermal.when _ _ fun t => (t.goes_thermal _ rfl).lift (by decide)

theorem State.goes_sensePower (s : State) (x : Sense) : Goes (mask (signals [.PWR_PKG_STAT, .PWR_THERM_STAT]) (signalled [])) s (s.sensePower x) := by
  unfold State.sensePower
  extract_lets s1 _ s2
  have hpower : Goes (mask (signals [.PWR_PKG_STAT, .PWR_THERM_STAT]) (signalled [])) s s1 := (Goes.refl _ s).write _ _ _ (by decide)
  have hthermal : Goes (mask (signals [.PWR_PKG_STAT, .PWR_THERM_STAT]) (signalled [])) s s2 :=
      hpower.when _ _ fun t => (t.goes_thermal _ rfl).lift (by decide)
  exact hthermal.when _ _ fun t => (t.goes_thermal _ rfl).lift (by decide)

theorem execSenseSample_frame (x : Sense) (s : State) :
    ∃ t, execSenseSample x s = .next t ∧ Goes (mask (signals [.PWR_MON, .PWR_PKG_STAT, .PWR_RGN_STAT, .PWR_TEMP, .PWR_THERM_STAT]) (signalled [])) s
      t := by
  refine ⟨_, rfl, ?_⟩
  extract_lets s1 s2
  have hmv : Goes (mask (signals [.PWR_MON, .PWR_PKG_STAT, .PWR_RGN_STAT, .PWR_TEMP, .PWR_THERM_STAT]) (signalled [])) s s1 :=
      (Goes.refl _ s).each _ _ fun _ t => (Goes.refl _ t).write _ _ _ (by decide)
  have hvmeas : Goes (mask (signals [.PWR_MON, .PWR_PKG_STAT, .PWR_RGN_STAT, .PWR_TEMP, .PWR_THERM_STAT]) (signalled [])) s s2 :=
      hmv.each _ _ fun _ t => (Goes.refl _ t).write _ _ _ (by decide)
  exact Goes.ite (Goes.refl _ s) (Goes.ite ((Goes.refl _ s).write _ _ _ (by decide)) ((hvmeas.step (s2.goes_senseTemps ..) (by decide)).step
      (State.goes_sensePower ..) (by decide)))

theorem execThermalTrip_frame (s : State) :
    ∃ t, execThermalTrip s = .next t ∧ Goes (mask (.PWR_THERM_STAT :: enterHibernateRegs) (.config :: .gates :: .isos :: .power :: .resets :: .seals
      :: octetParts)) s t :=
  ⟨_, rfl, Goes.ite (Goes.refl _ s) (((s.goes_thermal _ rfl).lift (by decide)).step (State.goes_enterHibernate ..) (by decide))⟩

/-! ### Wakes (R475..R477) -/

theorem State.goes_wakeUp (s : State) (cause : Nat) (hibernate : Bool) :
    Goes (mask Reg.all (.beaconAt :: .heaters :: .insRes :: islandResetParts)) s (s.wakeUp cause hibernate) := by
  unfold State.wakeUp
  extract_lets _ s1
  have hsetPower : Goes (mask Reg.all (.beaconAt :: .heaters :: .insRes :: islandResetParts)) s s1 :=
      (((Goes.refl _ s).write _ _ _ (Reg.mem_all _)).raised _ inside_all).step (State.goes_setPower ..) inside_all
  exact Goes.ite (Goes.refl _ s) (Goes.ite ((s.goes_leaveStandby ..).lift inside_all) (Goes.ite (hsetPower.emit _ (mask_part (by decide)))
      (Goes.refl _ s)))

theorem execWakeNLow_frame (s : State) :
    ∃ t, execWakeNLow s = .next t ∧ Goes (mask Reg.all (.beaconAt :: .heaters :: .insRes :: islandResetParts)) s t :=
  ⟨_, rfl, Goes.ite (s.goes_wakeUp ..) (Goes.refl _ s)⟩

theorem execWakeAlarm_frame (s : State) :
    ∃ t, execWakeAlarm s = .next t ∧ Goes (mask Reg.all (.beaconAt :: .heaters :: .insRes :: islandResetParts)) s t := by
  refine ⟨_, rfl, ?_⟩
  extract_lets s1
  have hseconds : Goes (mask Reg.all (.beaconAt :: .heaters :: .insRes :: islandResetParts)) s s1 := (Goes.refl _ s).write _ _ _ (Reg.mem_all _)
  exact Goes.ite (hseconds.trans (s1.goes_wakeUp ..)) hseconds

theorem execWakeAxisDistance_frame (s : State) :
    ∃ t, execWakeAxisDistance s = .next t ∧ Goes (mask Reg.all (.beaconAt :: .heaters :: .insRes :: islandResetParts)) s t :=
  ⟨_, rfl, Goes.ite (s.goes_wakeUp ..) (Goes.refl _ s)⟩

theorem execWakePerst_frame (s : State) :
    ∃ t, execWakePerst s = .next t ∧ Goes (mask Reg.all (.beaconAt :: .heaters :: .insRes :: islandResetParts)) s t :=
  ⟨_, rfl, Goes.ite (s.goes_wakeUp ..) (Goes.refl _ s)⟩

/-! ### Analog inputs (R479, R480) -/

theorem State.goes_ainLimit (s : State) (i code : Nat) : Goes (mask (signals [.PWR_AIN, .PWR_AIN_FLT]) (signalled [])) s (s.ainLimit i code) :=
  ((Goes.refl _ s).write _ _ _ (by decide)).when _ _ fun t => ((Goes.refl _ t).orFld _ _ _ (mask_reg (by decide))).raised _ (by decide)

theorem execAinConversion_frame (i : Fin 16) (code : BitVec 16) (broken : Bool) (s : State) :
    ∃ t, execAinConversion i code broken s = .next t ∧ Goes (mask (signals [.PWR_AIN, .PWR_AIN_FLT]) (signalled [.timers])) s t := by
  refine ⟨_, rfl, ?_⟩
  extract_lets _ _ s1 s2
  have hstartTimer : Goes (mask (signals [.PWR_AIN, .PWR_AIN_FLT]) (signalled [.timers])) s s1 :=
      (((((Goes.refl _ s).write _ _ _ (by decide)).write _ _ _ (by decide)).write _ _ _ (by decide)).addMod _ _ _ (mask_reg (by decide))).step
        (State.goes_startTimer ..) (by decide)
  have hraised : Goes (mask (signals [.PWR_AIN, .PWR_AIN_FLT]) (signalled [.timers])) s s2 :=
      hstartTimer.when _ _ fun t => ((Goes.refl _ t).orFld _ _ _ (mask_reg (by decide))).raised _ (by decide)
  exact Goes.ite (Goes.refl _ s) (hraised.step (s2.goes_ainLimit ..) (by decide))

theorem execAinStale_frame (i : Fin 16) (s : State) : ∃ t, execAinStale i s = .next t ∧ Goes (mask [.PWR_AIN] []) s t :=
  ⟨_, rfl, Goes.ite ((Goes.refl _ s).write _ _ _ (by decide)) (Goes.refl _ s)⟩

theorem execBankSupplyLossHold_frame (b : Fin 12) (s : State) :
    ∃ t, execBankSupplyLossHold b s = .next t ∧ Goes (mask [.PIN_BANK_STAT, .PIN_IN] [.freeValues, .pins, .timers]) s t :=
  ⟨_, rfl, Goes.ite (Goes.refl _ s) ((s.goes_beginRange_tight ..).lift (by decide))⟩

/-! ### Entry -/

theorem State.goes_enter (s : State) (k : ResetKind) (cause stage : Nat) : Goes (mask Reg.all clearedParts) s (s.enter k cause stage) := by
  unfold State.enter
  extract_lets _ s1
  have henterReset : Goes (mask Reg.all clearedParts) s s1 := s.goes_enterReset ..
  exact (henterReset.set_resets _ (mask_part (by decide))).when _ _ fun t => (t.goes_zeroised).lift inside_all

/-! ### Release (R416, R435, R488, R489 step 4, R491 step 2, R541) -/

theorem State.goes_lockPlls (s : State) : Goes (mask (.DEV_ISL_RUN :: .MEM_STK_STAT :: faultRegs) faultParts) s s.lockPlls :=
  (Goes.refl _ s).each _ _ fun _ t => ((t.goes_startDomain ..).lift (by decide)).writeIf _ _ _ _ (by decide)

theorem State.goes_returnAxes (s : State) : Goes (mask (.POS_AX_EPOCH :: .POS_AX_POS :: faultRegs) (.power :: faultParts)) s s.returnAxes :=
  ((s.goes_setPower ..).lift (by decide)).each _ _ fun _ t => (((Goes.refl _ t).write _ _ _ (by decide)).write _ _ _ (by decide)).step
      (State.goes_lose ..) (by decide)

theorem State.goes_findNewest (s : State) (newest : Option Nat) : Goes (mask [] [.evt]) s (s.findNewest newest) := by
  unfold State.findNewest
  extract_lets
  split
  · exact (Goes.refl _ s).set_evt _ (mask_part (by decide))
  · exact Goes.refl _ s

theorem State.goes_readMemory (s : State) (f : StartFacts) : Goes (mask (signals [.CFG_NVM_ERR]) (signalled [.config])) s (s.readMemory f) := by
  unfold State.readMemory
  extract_lets s1
  have hraised : Goes (mask (signals [.CFG_NVM_ERR]) (signalled [.config])) s s1 :=
      (Goes.refl _ s).when _ _ fun t => ((Goes.refl _ t).write _ _ _ (by decide)).raised _ (by decide)
  split
  · exact hraised
  · exact hraised.step (s1.goes_setConfig ..) (by decide)
  · exact (hraised.step (s1.goes_setConfig ..) (by decide)).raised _ (by decide)

theorem State.goes_readFrankerRecord (s : State) (ok : Bool) : Goes (mask [] [.franker]) s (s.readFrankerRecord ok) :=
  (Goes.refl _ s).when _ _ fun t => (t.goes_setFranker ..).lift (by decide)

theorem State.goes_bootLoad (s : State) (f : StartFacts) :
    Goes (mask [.CFG_DESIGN, .CFG_NVM_STAT, .CFG_RGN_STAT, .CFG_SRC, .CFG_STAT] [.config, .outputs, .restoring, .timers]) s (s.bootLoad f) :=
  Goes.ite (Goes.refl _ s) (Goes.ite ((s.goes_stream ..).lift (by decide)) ((Goes.refl _ s).writeIf _ _ _ _ (by decide)))

theorem State.goes_readUnit (s : State) (f : StartFacts) : Goes (mask [.DEV_ID, .DEV_UID, .PWR_THERM_CTL] []) s (s.readUnit f) := by
  unfold State.readUnit
  extract_lets s1
  have huid : Goes (mask [.DEV_ID, .DEV_UID, .PWR_THERM_CTL] []) s s1 := ((Goes.refl _ s).write _ _ _ (by decide)).write _ _ _ (by decide)
  exact huid.write _ _ _ (by decide)

/-- What is read as a device-wide reset is released: the unit's fuses, the life cycle, the keys and the cause of the reset. -/
def State.readAtRelease (s : State) (f : StartFacts) (cause : Nat) : State :=
  (((s.readUnit f).readFuses f.fuses).readKeys f.badKeys.toNat).put .DEV_RST_CAUSE_CAUSE 0 cause

theorem State.goes_readAtRelease (s : State) (f : StartFacts) (cause : Nat) :
    Goes (mask (signals [.DEV_ID, .DEV_LC, .DEV_RST_CAUSE, .DEV_SEC_STAT, .DEV_UID, .PWR_THERM_CTL]) (signalled [.lease, .secure])) s
      (s.readAtRelease f cause) :=
  ((((s.goes_readUnit f).lift (by decide)).step (State.goes_readFuses ..) (by decide)).step (State.goes_readKeys ..) (by decide)).write _ _ _ (by decide)

/-- D22 to D24 leave held, and the device runs from now. -/
def State.running (s : State) (f : StartFacts) : State :=
  let s := s.each [22, 23, 24] fun d s => s.crossRelease d true
  { s with resets := { s.resets with stage := 0, facts := some f, began := s.fld .PERF_TB_TB 0 } }

/-- The start of a device that runs: what is shown, what memory holds, the firmware and what BOOT_MODE loads. -/
def State.startUp (s : State) (f : StartFacts) : State :=
  let s := s.each [0, 1, 17] fun k s => s.showBind k
  let s := (s.each (List.range 18) fun k s => s.put .DEV_OCT_STAT_REF_OK k 1).startTimer .started 0
  let s := (s.put .CFG_STAT_BOOT 0 f.boot.toNat).put .PIN_GSTAT_PHASE 0 0
  let s := (((s.each (List.range 12) fun b s => s.sampleRange b).returnAxes.findNewest f.newestLog).readFrankerRecord f.franker).readMemory f
  let s := s.tryCopies f s.firmwareOrder
  (s.bootLoad f).startRecord.refreshPins

theorem State.letGo_eq (s : State) (f : StartFacts) : s.letGo f =
    if (s.lockPlls.readAtRelease f s.resets.cause).lifeCycle = 4 then (s.lockPlls.readAtRelease f s.resets.cause).atStage 7
    else ((s.lockPlls.readAtRelease f s.resets.cause).running f).startUp f := rfl

/-- The registers of `startUp`. -/
def startUpRegs : List Reg := .CFG_DESIGN :: .CFG_NVM_ERR :: .CFG_NVM_STAT :: .CFG_SRC :: .DEV_OCT_STAT :: .LANE_STAT :: .MEM_STK_STAT ::
  .PIN_BANK_CTL :: .PIN_BANK_STAT :: .POS_AX_EPOCH :: .POS_AX_POS :: faultRegs ++ copyRegs

/-- The parts of `startUp`. -/
def startUpParts : List Part := .crossings :: .franker :: .lease :: .power :: copyParts ++ faultParts

theorem State.goes_startUp (s : State) (f : StartFacts) : Goes (mask startUpRegs startUpParts) s (s.startUp f) := by
  unfold State.startUp
  extract_lets s4 s5 s6 s7 s8
  have hshowBind : Goes (mask startUpRegs startUpParts) s s4 := (Goes.refl _ s).each _ _ fun _ t => (t.goes_showBind ..).lift (by decide)
  have hstartTimer : Goes (mask startUpRegs startUpParts) s s5 :=
      (hshowBind.each _ _ fun _ t => (Goes.refl _ t).write _ _ _ (by decide)).step (State.goes_startTimer ..) (by decide)
  have hphase : Goes (mask startUpRegs startUpParts) s s6 := (hstartTimer.write _ _ _ (by decide)).write _ _ _ (by decide)
  have hreadMemory : Goes (mask startUpRegs startUpParts) s s7 :=
      ((((hphase.each _ _ fun _ t => (t.goes_sampleRange ..).lift (by decide)).step (State.goes_returnAxes _) (by decide)).step
        (State.goes_findNewest ..) (by decide)).step (State.goes_readFrankerRecord ..) (by decide)).step (State.goes_readMemory ..) (by decide)
  have htryCopies : Goes (mask startUpRegs startUpParts) s s8 := hreadMemory.step (s7.goes_tryCopies ..) (by decide)
  exact ((htryCopies.step (s8.goes_bootLoad ..) (by decide)).step (State.goes_startRecord _) (by decide)).step (State.goes_refreshPins _) (by decide)

/-- The registers of `letGo`. -/
def letGoRegs : List Reg := .DEV_ID :: .DEV_ISL_RUN :: .DEV_LC :: .DEV_RST_CAUSE :: .DEV_SEC_STAT :: .DEV_UID :: .PWR_THERM_CTL :: startUpRegs

/-- The parts of `letGo`. -/
def letGoParts : List Part := .resets :: .secure :: startUpParts

theorem State.goes_letGo (s : State) (f : StartFacts) : Goes (mask letGoRegs letGoParts) s (s.letGo f) := by
  have hread : Goes (mask letGoRegs letGoParts) s (s.lockPlls.readAtRelease f s.resets.cause) :=
    ((s.goes_lockPlls).lift (by decide)).step (State.goes_readAtRelease ..) (by decide)
  have hrunning : Goes (mask letGoRegs letGoParts) s ((s.lockPlls.readAtRelease f s.resets.cause).running f) :=
    (hread.each _ _ fun _ t => (t.goes_crossRelease ..).lift (by decide)).set_resets _ (mask_part (by decide))
  rw [State.letGo_eq]
  exact Goes.ite (hread.set_resets _ (mask_part (by decide))) (hrunning.step (State.goes_startUp ..) (by decide))

theorem State.goes_letGoIf (s : State) (stage : Nat) (f : StartFacts) : Goes (mask letGoRegs letGoParts) s (s.letGoIf stage f) :=
  Goes.ite ((s.goes_atStage ..).lift (by decide)) (s.goes_letGo ..)

/-! ### Power-on (R484, R489) -/

theorem execVaonRise_frame (s : State) : ∃ t, execVaonRise s = .next t ∧ Goes (mask [] [.outputs, .resets]) s t :=
  ⟨_, rfl, Goes.ite ((((s.goes_atStage ..).lift (by decide)).emit _ (mask_part (by decide))).emit _ (mask_part (by decide))) (Goes.refl _ s)⟩

theorem State.goes_vaonLoss (s : State) : Goes (mask Reg.all clearedParts) s s.vaonLoss := by
  unfold State.vaonLoss
  extract_lets s1
  have hsetPower : Goes (mask Reg.all clearedParts) s s1 := (s.goes_enter ..).step (State.goes_setPower ..) inside_all
  exact (hsetPower.emit _ (mask_part (by decide))).emit _ (mask_part (by decide))

theorem execVaonLoss_frame (s : State) : ∃ t, execVaonLoss s = .next t ∧ Goes (mask Reg.all clearedParts) s t :=
  ⟨_, rfl, s.goes_vaonLoss⟩

theorem execSupplyStable_frame (f : StartFacts) (s : State) : ∃ t, execSupplyStable f s = .next t ∧ Goes (mask letGoRegs letGoParts) s t := by
  refine ⟨_, rfl, ?_⟩
  extract_lets _ s1
  have hresets : Goes (mask letGoRegs letGoParts) s s1 := (Goes.refl _ s).set_resets _ (mask_part (by decide))
  exact Goes.ite (hresets.step (s1.goes_atStage ..) (by decide)) (Goes.ite (hresets.trans (s1.goes_letGoIf ..)) (Goes.refl _ s))

theorem execRegulatorsUp_frame (f : StartFacts) (s : State) : ∃ t, execRegulatorsUp f s = .next t ∧ Goes (mask letGoRegs letGoParts) s t :=
  ⟨_, rfl, Goes.ite (((s.goes_lockPlls).lift (by decide)).trans (State.goes_letGoIf ..)) (Goes.refl _ s)⟩

/-! ### RESET_N (R485, R487, R491, R514) -/

theorem State.goes_resetLow (s : State) : Goes (mask Reg.all clearedParts) s s.resetLow :=
  Goes.ite ((Goes.refl _ s).set_resets _ (mask_part (by decide))) (Goes.ite ((s.goes_enter ..).set_resets _ (mask_part (by decide))) (Goes.ite
      (Goes.ite ((Goes.refl _ s).set_resets _ (mask_part (by decide))) (((s.goes_enter ..).emit _ (mask_part (by decide))).set_resets _ (mask_part (by decide)))) ((s.goes_enter ..).set_resets _ (mask_part (by decide)))))

theorem execResetNLow_frame (s : State) : ∃ t, execResetNLow s = .next t ∧ Goes (mask Reg.all clearedParts) s t :=
  ⟨_, rfl, s.goes_resetLow⟩

theorem execResetNHigh_frame (f : StartFacts) (s : State) : ∃ t, execResetNHigh f s = .next t ∧ Goes (mask letGoRegs letGoParts) s t := by
  refine ⟨_, rfl, ?_⟩
  extract_lets _ s1
  have hresets : Goes (mask letGoRegs letGoParts) s s1 := (Goes.refl _ s).set_resets _ (mask_part (by decide))
  exact Goes.ite (hresets.trans (s1.goes_letGo ..)) (Goes.ite (hresets.trans (s1.goes_letGo ..)) hresets)

theorem execDeviceResetEntry_frame (f : StartFacts) (s : State) : ∃ t, execDeviceResetEntry f s = .next t ∧ Goes (mask Reg.all clearedParts) s t :=
  ⟨_, rfl, Goes.ite (Goes.refl _ s) (((((s.goes_writeBackCaches ..).lift inside_all).step (State.goes_flushMeta _) inside_all).trans
      (State.goes_enter ..)).step (State.goes_letGoIf ..) inside_all)⟩

theorem execMainSupplyGood_frame (s : State) : ∃ t, execMainSupplyGood s = .next t ∧ Goes (mask Reg.all clearedParts) s t :=
  ⟨_, rfl, Goes.ite (s.goes_enter ..) (Goes.refl _ s)⟩

/-! ### Stacks (R315, R322, R334, R489, R491) -/

theorem State.goes_resumeSealing (s : State) :
    Goes (mask (.SEAL_GRAN :: .SEAL_GRAN_RES :: .SEAL_LINE_STAT :: homeRegs) (.resets :: .svc :: homeParts)) s s.resumeSealing := by
  unfold State.resumeSealing
  extract_lets s1
  have hs : Goes (mask (.SEAL_GRAN :: .SEAL_GRAN_RES :: .SEAL_LINE_STAT :: homeRegs) (.resets :: .svc :: homeParts)) s s1 :=
      (Goes.refl _ s).when _ _ fun t => ((t.goes_rebuildSealed).lift (by decide)).set_resets _ (mask_part (by decide))
  split
  · exact hs
  · exact Goes.ite (hs.step (s1.goes_finishConversion ..) (by decide)) (hs.write _ _ _ (by decide))

theorem execStackTrained_frame (k : Fin 4) (s : State) :
    ∃ t, execStackTrained k s = .next t ∧ Goes (mask (.MEM_STK_STAT :: .SEAL_GRAN :: .SEAL_GRAN_RES :: .SEAL_LINE_STAT :: homeRegs) (.resets :: .svc
      :: homeParts)) s t := by
  refine ⟨_, rfl, ?_⟩
  extract_lets s1 _ s2
  have hcrossRelease : Goes (mask (.MEM_STK_STAT :: .SEAL_GRAN :: .SEAL_GRAN_RES :: .SEAL_LINE_STAT :: homeRegs) (.resets :: .svc :: homeParts)) s s1 :=
      ((Goes.refl _ s).write _ _ _ (by decide)).step (State.goes_crossRelease ..) (by decide)
  have hresumeSealing : Goes (mask (.MEM_STK_STAT :: .SEAL_GRAN :: .SEAL_GRAN_RES :: .SEAL_LINE_STAT :: homeRegs) (.resets :: .svc :: homeParts)) s s2 :=
      hcrossRelease.when _ _ fun t => (t.goes_resumeSealing).lift (by decide)
  exact Goes.ite (Goes.refl _ s) (Goes.ite hcrossRelease ((hresumeSealing.write _ _ _ (by decide)).step (State.goes_serveStack ..) (by decide)))

/-! ### Supplies (R461, R462) -/

theorem State.goes_brownOut (s : State) : Goes (mask Reg.all clearedParts) s s.brownOut := by
  unfold State.brownOut
  extract_lets _ _ _ s1 s2
  have hresets : Goes (mask Reg.all clearedParts) s s1 := (Goes.refl _ s).set_resets _ (mask_part (by decide))
  have henter : Goes (mask Reg.all clearedParts) s s2 := hresets.trans (s1.goes_enter ..)
  exact henter.set_resets _ (mask_part (by decide))

theorem State.goes_stacksLost (s : State) : Goes (mask (signals [.SEAL_GRAN, .SEAL_LINE_STAT]) (.resets :: memParts)) s s.stacksLost := by
  unfold State.stacksLost
  extract_lets _ _ s1
  have hmemo : Goes (mask (signals [.SEAL_GRAN, .SEAL_LINE_STAT]) (.resets :: memParts)) s s1 :=
      (Goes.refl _ s).set_memo_resets _ _ (mask_part (by decide)) (mask_part (by decide)) fun _ => rfl
  exact Goes.ite ((s.goes_atStage ..).lift (by decide)) (((hmemo.set_seals _ (mask_part (by decide))).step (State.goes_freshGranules ..)
      (by decide)).step (State.goes_atStage ..) (by decide))

theorem State.goes_crossWindow (s : State) (i side : Nat) : Goes (mask (signals [.PWR_MON]) (signalled [.timers])) s (s.crossWindow i side) := by
  unfold State.crossWindow
  extract_lets s1 s2
  have hstartTimer : Goes (mask (signals [.PWR_MON]) (signalled [.timers])) s s1 :=
      (Goes.refl _ s).when _ _ fun t => (t.goes_startTimer ..).lift (by decide)
  have hov : Goes (mask (signals [.PWR_MON]) (signalled [.timers])) s s2 := (hstartTimer.write _ _ _ (by decide)).write _ _ _ (by decide)
  exact Goes.ite hov ((hov.write _ _ _ (by split <;> decide)).raisedOf _ _ _ (by decide))

theorem execMonitorCrossing_frame (i : Fin 32) (side : Fin 3) (deep : Bool) (s : State) :
    ∃ t, execMonitorCrossing i side deep s = .next t ∧ Goes (mask Reg.all clearedParts) s t := by
  refine ⟨_, rfl, ?_⟩
  extract_lets s1 s2 s3
  have hcrossWindow : Goes (mask Reg.all clearedParts) s s1 := (s.goes_crossWindow ..).lift inside_all
  have hvalid : Goes (mask Reg.all clearedParts) s s2 := hcrossWindow.writeIf _ _ _ _ (Reg.mem_all _)
  have hstacksLost : Goes (mask Reg.all clearedParts) s s3 := hvalid.when _ _ fun t => (t.goes_stacksLost).lift inside_all
  exact Goes.ite (Goes.refl _ s) (Goes.ite (hstacksLost.trans (s3.goes_vaonLoss)) (Goes.ite (hstacksLost.trans (s3.goes_brownOut)) hstacksLost))

/-! ### Fabric resets (R492, R500) -/

/-- The parts of `execFabricResetDone`. -/
def fabricResetDoneParts : List Part := .boxMem :: .config :: .monitors :: .power :: .pulses :: .resets :: .svc :: fillParts

theorem execFabricResetDone_frame (s : State) :
    ∃ t, execFabricResetDone s = .next t ∧ Goes (mask (signals (counting [.CFG_RGN_STAT, .CFG_TREE_STAT, .PIN_GSTAT, .PIN_ICONF, .PIN_OCONF]))
      fabricResetDoneParts) s t := by
  refine ⟨_, rfl, ?_⟩
  extract_lets _ s1
  have hwakeRegion : Goes (mask (signals (counting [.CFG_RGN_STAT, .CFG_TREE_STAT, .PIN_GSTAT, .PIN_ICONF, .PIN_OCONF])) fabricResetDoneParts) s s1 :=
      ((s.goes_setConfig ..).lift (by decide)).each _ _ fun _ t => (t.goes_wakeRegion ..).lift (by decide)
  exact Goes.ite (Goes.refl _ s) (hwakeRegion.step (s1.goes_endFabric) (by decide))
end Sys2Proof.Machine
end

section
/-! PROOFS. DEVICE, KEY and TEST services, the firmware and the modes of test as frames. -/

namespace Sys2Proof.Machine

-- One proof after another: side by side they need more memory than a check has.
set_option Elab.async false

theorem execDeviceInfo_frame (L : Letter) (s : State) : ∃ t, execDeviceInfo L s = .next t ∧ Goes countMask s t :=
  ⟨_, rfl, Goes.serve (fun _ t => Goes.refl _ t) s _ _ _ (by decide)⟩

theorem goes_svcTimeSet (L : Letter) (a1 : List Byte) (s : State) : Goes (mask [.DEV_RTC, .DEV_RTC_STAT] []) s (svcTimeSet L a1 s).1 :=
  Goes.iteFst (Goes.refl _ s) (((Goes.refl _ s).write _ _ _ (by decide)).write _ _ _ (by decide))

theorem execDeviceTimeSet_frame (L : Letter) (s : State) :
    ∃ t, execDeviceTimeSet L s = .next t ∧ Goes (mask (signals (counting [.DEV_RTC, .DEV_RTC_STAT])) (signalled [])) s t :=
  ⟨_, rfl, Goes.serve (fun _ t => (goes_svcTimeSet ..).lift (by decide)) s _ _ _ (by decide)⟩

theorem execDeviceTimeGet_frame (L : Letter) (s : State) : ∃ t, execDeviceTimeGet L s = .next t ∧ Goes countMask s t :=
  ⟨_, rfl, Goes.serve (fun _ t => Goes.refl _ t) s _ _ _ (by decide)⟩

theorem goes_svcDeviceReset (L : Letter) (a1 : List Byte) (s : State) : Goes objectMask s (svcDeviceReset L a1 s).1 := by
  unfold svcDeviceReset
  refine Goes.iteFst (Goes.refl _ s) ?_
  split
  · exact Goes.refl _ s
  · exact goes_accepted ..

theorem State.goes_noReply (s : State) (L : Letter) : Goes letterMask s (s.noReply L) :=
  s.goes_setBox ..

theorem execDeviceReset_frame (L : Letter) (s : State) :
    ∃ t, execDeviceReset L s = .next t ∧ Goes (mask fabricCmdRegs (.fires :: .franker :: .power :: .secure :: fabricResetParts ++ copyParts)) s t :=
  ⟨_, rfl, Goes.ite (((s.goes_noReply ..).lift (by decide)).step (State.goes_deviceReset _) (by decide)) (Goes.serveThen (fun _ t =>
      (goes_svcDeviceReset ..).lift (by decide)) (fun _ t => (t.goes_fabricCmd).lift (by decide)) s _ _ _ (by decide))⟩

theorem goes_svcDeviceShutdown (L : Letter) (a1 : List Byte) (s : State) : Goes objectMask s (svcDeviceShutdown L a1 s).1 :=
  Goes.iteFst (Goes.refl _ s) (Goes.iteFst (Goes.refl _ s) (goes_accepted ..))

theorem execDeviceShutdown_frame (L : Letter) (s : State) :
    ∃ t, execDeviceShutdown L s = .next t ∧ Goes (mask (signals (counting [.PWR_STATE])) (signalled [.power, .svc])) s t :=
  ⟨_, rfl, Goes.serveThen (fun _ t => (goes_svcDeviceShutdown ..).lift (by decide)) (fun _ t => ((Goes.refl _ t).set_svc _ (mask_part
      (by decide))).step (State.goes_beginLeaving ..) (by decide)) s _ _ _ (by decide)⟩

/-! ### KEY services that change no state of the life cycle (R402, R508) -/

theorem execKeyStatus_frame (L : Letter) (s : State) : ∃ t, execKeyStatus L s = .next t ∧ Goes countMask s t :=
  ⟨_, rfl, Goes.serve (fun _ t => Goes.refl _ t) s _ _ _ (by decide)⟩

theorem goes_svcAuditExport (L : Letter) (a1 : List Byte) (s : State) : Goes raiseMask s (svcAuditExport L a1 s).1 :=
  Goes.iteFst (Goes.refl _ s) ((Goes.refl _ s).raised _ (by decide))

theorem execKeyAuditExport_frame (L : Letter) (s : State) : ∃ t, execKeyAuditExport L s = .next t ∧ Goes countMask s t :=
  ⟨_, rfl, Goes.serve (fun _ t => (goes_svcAuditExport ..).lift (by decide)) s _ _ _ (by decide)⟩

theorem State.goes_restartRecords (s : State) (boundOnly : Bool) : Goes (mask (signals []) (signalled [.lease])) s (s.restartRecords boundOnly) :=
  (Goes.refl _ s).each _ _ fun _ t => (t.goes_audit ..).lift (by decide)

theorem goes_svcAuditRotate (L : Letter) (a1 : List Byte) (s : State) : Goes objectMask s (svcAuditRotate L a1 s).1 :=
  Goes.iteFst (Goes.refl _ s) (Goes.iteFst (Goes.refl _ s) (goes_accepted ..))

theorem State.goes_rotateAudit (s : State) : Goes (mask (signals (counting [.DEV_SEC_STAT])) (.secure :: flushAuditParts)) s s.rotateAudit := by
  unfold State.rotateAudit
  extract_lets r s1
  have hdrawKey : Goes (mask (signals (counting [.DEV_SEC_STAT])) (.secure :: flushAuditParts)) s r.1 := (s.goes_drawKey).lift (by decide)
  have hrestartRecords : Goes (mask (signals (counting [.DEV_SEC_STAT])) (.secure :: flushAuditParts)) s s1 :=
      ((hdrawKey.step (State.goes_keepKey ..) (by decide)).raised _ (by decide)).step (State.goes_restartRecords ..) (by decide)
  exact hrestartRecords.when _ _ fun t => (t.goes_completeOn ..).lift (by decide)

theorem execKeyAuditRotate_frame (L : Letter) (s : State) :
    ∃ t, execKeyAuditRotate L s = .next t ∧ Goes (mask (signals (counting [.DEV_SEC_STAT])) (.secure :: flushAuditParts)) s t :=
  ⟨_, rfl, Goes.serveThen (fun _ t => (goes_svcAuditRotate ..).lift (by decide)) (fun _ t => t.goes_rotateAudit) s _ _ _ (by decide)⟩

theorem goes_svcGoldenWrite (L : Letter) (a1 : List Byte) (s : State) : Goes objectMask s (svcGoldenWrite L a1 s).1 :=
  Goes.iteFst (Goes.refl _ s) (Goes.iteFst (Goes.refl _ s) (Goes.iteFst (Goes.refl _ s) (Goes.iteFst (Goes.refl _ s) (Goes.iteFst (Goes.refl _ s)
      (goes_accepted ..)))))

theorem execKeyGoldenWrite_frame (L : Letter) (s : State) :
    ∃ t, execKeyGoldenWrite L s = .next t ∧ Goes (mask leaseRegs (signalled [.config, .svc])) s t :=
  ⟨_, rfl, Goes.serveThen (fun _ t => (goes_svcGoldenWrite ..).lift (by decide)) (fun _ t => (t.goes_beginWrite ..).lift (by decide)) s _ _ _
      (by decide)⟩

/-! ### Transitions (R502, R503, R507, R509) -/

theorem State.goes_provision (s : State) (ki kv : BitVec 256) (unprogrammed : List (Fin 16)) :
    Goes (mask (.DEV_SEC_STAT :: flashRegs) (.secure :: journalParts)) s (s.provision ki kv unprogrammed) := by
  unfold State.provision
  extract_lets a b s1
  have hdrawKey : Goes (mask (.DEV_SEC_STAT :: flashRegs) (.secure :: journalParts)) s a.1 := (s.goes_drawKey).lift (by decide)
  have hdrawKey2 : Goes (mask (.DEV_SEC_STAT :: flashRegs) (.secure :: journalParts)) s b.1 := hdrawKey.step (State.goes_drawKey _) (by decide)
  have hkeepKey : Goes (mask (.DEV_SEC_STAT :: flashRegs) (.secure :: journalParts)) s s1 :=
      (((hdrawKey2.step (State.goes_keepKey ..) (by decide)).step (State.goes_keepKey ..) (by decide)).step (State.goes_keepKey ..) (by decide)).step
        (State.goes_keepKey ..) (by decide)
  exact hkeepKey.each _ _ fun _ t => (t.goes_reprogram ..).lift (by decide)

theorem goes_svcProvision (L : Letter) (unprogrammed : List (Fin 16)) (a2 : List Byte) (s : State) :
    Goes (mask (.DEV_LC :: .DEV_SEC_STAT :: flashRegs) (.secure :: journalParts)) s (svcProvision L unprogrammed a2 s).1 := by
  unfold svcProvision
  refine Goes.iteFst (Goes.refl _ s) ?_
  split
  · exact Goes.refl _ s
  · exact Goes.iteFst (Goes.refl _ s) (Goes.iteFst (Goes.refl _ s) (((s.goes_provision ..).lift (by decide)).step (State.goes_blow ..) (by decide)))

theorem execKeyProvision_frame (L : Letter) (unprogrammed : List (Fin 16)) (s : State) :
    ∃ t, execKeyProvision L unprogrammed s = .next t ∧ Goes (mask (.DEV_LC :: .DEV_SEC_STAT :: leaseRegs) (.secure :: journalParts)) s t :=
  ⟨_, rfl, Goes.serve (fun _ t => (goes_svcProvision ..).lift (by decide)) s _ _ _ (by decide)⟩

theorem goes_svcKeyLock (L : Letter) (a1 : List Byte) (s : State) : Goes (mask (signals [.DEV_LC]) (signalled [.secure])) s (svcKeyLock L a1 s).1 :=
  Goes.iteFst (Goes.refl _ s) (Goes.iteFst (Goes.refl _ s) ((s.goes_blow ..).lift (by decide)))

theorem execKeyLock_frame (L : Letter) (s : State) :
    ∃ t, execKeyLock L s = .next t ∧ Goes (mask (signals (counting [.DEV_LC])) (signalled [.secure])) s t :=
  ⟨_, rfl, Goes.serve (fun _ t => (goes_svcKeyLock ..).lift (by decide)) s _ _ _ (by decide)⟩

theorem goes_svcKeyReturn (L : Letter) (a1 : List Byte) (s : State) :
    Goes (mask (signals [.DEV_LC]) (signalled [.secure])) s (svcKeyReturn L a1 s).1 :=
  Goes.iteFst (Goes.refl _ s) (Goes.iteFst (Goes.refl _ s) (Goes.iteFst (Goes.refl _ s) (Goes.iteFst (Goes.refl _ s) ((s.goes_blow ..).lift
      (by decide)))))

theorem goes_svcKeyScrap (L : Letter) (a1 : List Byte) (s : State) : Goes (mask (signals [.DEV_LC]) (signalled [.secure])) s (svcKeyScrap L a1 s).1 :=
  Goes.iteFst (Goes.refl _ s) (Goes.iteFst (Goes.refl _ s) (Goes.iteFst (Goes.refl _ s) ((s.goes_blow ..).lift (by decide))))

theorem State.goes_zeroise (s : State) : Goes (mask Reg.all clearedParts) s s.zeroise :=
  ((((s.goes_zeroiseKeys).lift inside_all).step (State.goes_eraseSecrets _) inside_all).trans (State.goes_enter ..)).step (State.goes_zeroised _)
      inside_all

theorem State.goes_thenZeroise (s t : State) : Goes (mask Reg.all clearedParts) t (s.thenZeroise t) :=
  Goes.ite (Goes.refl _ t) t.goes_zeroise

theorem execKeyReturn_frame (L : Letter) (s : State) : ∃ t, execKeyReturn L s = .next t ∧ Goes (mask Reg.all clearedParts) s t :=
  ⟨_, rfl, (Goes.serve (fun _ t => (goes_svcKeyReturn ..).lift inside_all) s _ _ _ inside_all).trans (s.goes_thenZeroise _)⟩

theorem execKeyScrap_frame (L : Letter) (s : State) : ∃ t, execKeyScrap L s = .next t ∧ Goes (mask Reg.all clearedParts) s t :=
  ⟨_, rfl, (Goes.serve (fun _ t => (goes_svcKeyScrap ..).lift inside_all) s _ _ _ inside_all).trans (s.goes_thenZeroise _)⟩

/-! ### The random number generator (R510, R511) -/

theorem State.goes_disableSource (s : State) (k : Nat) (rct apt : Bool) :
    Goes (mask (signals [.DEV_RNG_STAT, .SEAL_LINE_STAT]) (signalled [.seals, .secure])) s (s.disableSource k rct apt) := by
  unfold State.disableSource
  extract_lets s1 s2
  have hsetSecure : Goes (mask (signals [.DEV_RNG_STAT, .SEAL_LINE_STAT]) (signalled [.seals, .secure])) s s1 :=
      (s.goes_setSecure ..).lift (by decide)
  have hfail : Goes (mask (signals [.DEV_RNG_STAT, .SEAL_LINE_STAT]) (signalled [.seals, .secure])) s s2 :=
      (hsetSecure.bump _ _ _ (mask_reg (by decide))).bump _ _ _ (mask_reg (by decide))
  exact (hfail.raised _ (by decide)).step (State.goes_showRng _) (by decide)

theorem execRngStartupTestDone_frame (k : Fin 64) (rct apt : Bool) (s : State) :
    ∃ t, execRngStartupTestDone k rct apt s = .next t ∧ Goes (mask (signals [.DEV_RNG_STAT, .SEAL_LINE_STAT]) (signalled [.seals, .secure])) s t :=
  ⟨_, rfl, Goes.ite (Goes.refl _ s) (Goes.ite (((s.goes_setSecure ..).lift (by decide)).step (State.goes_showRng _) (by decide))
      (s.goes_disableSource ..))⟩

theorem execRngHealthFail_frame (k : Fin 64) (apt : Bool) (s : State) :
    ∃ t, execRngHealthFail k apt s = .next t ∧ Goes (mask (signals [.DEV_RNG_STAT, .SEAL_LINE_STAT]) (signalled [.seals, .secure])) s t :=
  ⟨_, rfl, Goes.ite (s.goes_disableSource ..) (Goes.refl _ s)⟩

theorem execRngReseed_frame (s : State) :
    ∃ t, execRngReseed s = .next t ∧ Goes (mask (signals [.DEV_RNG_STAT, .SEAL_LINE_STAT]) (signalled [.seals, .secure])) s t :=
  ⟨_, rfl, Goes.ite (Goes.refl _ s) (((s.goes_setSecure ..).lift (by decide)).step (State.goes_showRng _) (by decide))⟩

/-! ### The test access port (R513, R514, R566) -/

/-- The parts of `beginScan`. -/
def beginScanParts : List Part := .config :: .lease :: .memo :: .resets :: .seals :: .secure :: .timers :: stopDomainParts

theorem State.goes_beginScan (s : State) :
    Goes (mask (.CFG_AGT_STAT :: .CFG_STAT :: .LNK_RING_STAT :: .SEAL_GRAN :: .SEAL_LINE_STAT :: stopDomainRegs) beginScanParts) s s.beginScan := by
  unfold State.beginScan
  extract_lets s1 s2
  have hatStage : Goes (mask (.CFG_AGT_STAT :: .CFG_STAT :: .LNK_RING_STAT :: .SEAL_GRAN :: .SEAL_LINE_STAT :: stopDomainRegs) beginScanParts) s s1 :=
      (((s.goes_zeroiseKeys).lift (by decide)).step (State.goes_setSecure ..) (by decide)).step (State.goes_atStage ..) (by decide)
  have hraised : Goes (mask (.CFG_AGT_STAT :: .CFG_STAT :: .LNK_RING_STAT :: .SEAL_GRAN :: .SEAL_LINE_STAT :: stopDomainRegs) beginScanParts) s s2 :=
      (((hatStage.each _ _ fun _ t => (t.goes_stopDomain ..).lift (by decide)).each _ _ fun _ t => (Goes.refl _ t).write _ _ _ (by decide)).step
        (State.goes_driveDone ..) (by decide)).raised _ (by decide)
  exact (hraised.set_pins_resets _ _ (mask_part (by decide)) (mask_part (by decide))).step (State.goes_refreshPins _) (by decide)

/-- The registers of `loadInstruction`. -/
def loadInstructionRegs : List Reg := .CFG_AGT_STAT :: .CFG_STAT :: .DEV_SEC_STAT :: .LNK_RING_STAT :: .SEAL_GRAN :: .SEAL_LINE_STAT :: .TST_TAP_STAT
  :: stopDomainRegs

theorem State.goes_loadInstruction (s : State) (code : Nat) : Goes (mask loadInstructionRegs beginScanParts) s (s.loadInstruction code) :=
  Goes.ite (((s.goes_setInstruction ..).lift (by decide)).when _ _ fun t => (t.goes_beginScan).lift (by decide)) ((((s.goes_setInstruction ..).lift
      (by decide)).write _ _ _ (by decide)).raised _ (by decide))

theorem execTapInstruction_frame (code : BitVec 8) (s : State) :
    ∃ t, execTapInstruction code s = .next t ∧ Goes (mask loadInstructionRegs beginScanParts) s t :=
  ⟨_, rfl, s.goes_loadInstruction ..⟩

theorem execTapScan_frame (s : State) : ∃ t, execTapScan s = .next t ∧ Goes (mask loadInstructionRegs beginScanParts) s t :=
  ⟨_, rfl, s.goes_loadInstruction ..⟩

theorem execTapDebugAccess_frame (x : DebugAccess) (s : State) :
    ∃ t, execTapDebugAccess x s = .next t ∧ Goes (mask Reg.all (.insRes :: islandResetParts)) s t :=
  ⟨_, rfl, Goes.ite (Goes.refl _ s) ((s.goes_busAccess ..).lift inside_all)⟩

theorem execTestLogicReset_frame (s : State) :
    ∃ t, execTestLogicReset s = .next t ∧ Goes (mask (.TST_TAP_STAT :: funcRegs) (.crossings :: .waiting :: ownerParts)) s t :=
  ⟨_, rfl, (s.goes_tapReset).lift (by decide)⟩

theorem execFirmwareWatchdog_frame (s : State) :
    ∃ t, execFirmwareWatchdog s = .next t ∧ Goes (mask (.DEV_ISL_HELD :: copyRegs) (.crossings :: .samplers :: copyParts)) s t := by
  refine ⟨_, rfl, ?_⟩
  split
  · exact Goes.ite ((s.goes_watchdog ..).lift (by decide)) (Goes.refl _ s)
  · exact Goes.refl _ s

theorem State.goes_unknownRecords (s : State) : Goes (mask (signals []) (signalled [.lease])) s s.unknownRecords :=
  (Goes.refl _ s).each _ _ fun _ t => (by
  split
  · exact (t.goes_audit ..).lift (by decide)
  · exact Goes.refl _ t)

theorem State.goes_recreateLeases (s : State) : Goes openMask s s.recreateLeases :=
  ((s.goes_setLease ..).lift (by decide)).each _ _ fun _ t => (by
  split
  · exact ((t.goes_createAt ..).lift (by decide)).step (State.goes_setLease ..) (by decide)
  · exact Goes.refl _ t)

theorem State.goes_sealOwn (s : State) :
    Goes (mask (signals (counting [.MEM_HOME_CNT, .SEAL_GRAN, .SEAL_GRAN_RES, .SEAL_LINE_STAT])) homeParts) s s.sealOwn :=
  Goes.ite ((s.goes_startConversion ..).lift (by decide)) (Goes.refl _ s)

theorem State.goes_awaitBroadcast (s : State) : Goes (mask (.CFG_STAT :: joinRegs) rollParts) s s.awaitBroadcast := by
  unfold State.awaitBroadcast
  extract_lets _ s1
  have hringCtl : Goes (mask (.CFG_STAT :: joinRegs) rollParts) s s1 := (Goes.refl _ s).each _ _ fun _ t => (t.goes_ringCtl ..).lift (by decide)
  exact (hringCtl.write _ _ _ (by decide)).step (State.goes_startTimer ..) (by decide)

theorem State.goes_afterReady (s : State) (f : StartFacts) :
    Goes (mask Reg.most (.config :: .gates :: .ports :: .resets :: holdParts ++ resetRegionParts)) s (s.afterReady f) :=
  Goes.ite (Goes.refl _ s) (Goes.ite ((s.goes_awaitBroadcast).lift inside_most) (Goes.ite (Goes.refl _ s) ((s.goes_frankerService).lift inside_most)))

/-- The registers of `recover`. -/
def recoverRegs : List Reg := .DEV_FRK_REC :: .DEV_FRK_STAT :: .DEV_SEC_STAT :: .MEM_HOME_CNT :: .SEAL_GRAN :: .SEAL_GRAN_RES :: .SEAL_LINE_STAT ::
  tableRegs

theorem State.goes_recover (s : State) : Goes (mask recoverRegs (.config :: .lease :: .secure :: .store :: .svc :: homeParts)) s s.recover := by
  unfold State.recover
  extract_lets s1 s2
  have heraseSecrets : Goes (mask recoverRegs (.config :: .lease :: .secure :: .store :: .svc :: homeParts)) s s1 :=
      (Goes.refl _ s).when _ _ fun t => (t.goes_eraseSecrets).lift (by decide)
  have hrecreateLeases : Goes (mask recoverRegs (.config :: .lease :: .secure :: .store :: .svc :: homeParts)) s s2 :=
      ((((heraseSecrets.step (s1.goes_resumeMarked) (by decide)).step (State.goes_copyRecord _) (by decide)).step (State.goes_unknownRecords _)
        (by decide)).step (State.goes_restartRecords ..) (by decide)).step (State.goes_recreateLeases _) (by decide)
  exact (hrecreateLeases.each _ _ fun _ t => (Goes.refl _ t).when _ _ fun u => (u.goes_showReach ..).lift (by decide)).step (State.goes_sealOwn _)
      (by decide)

theorem State.goes_refillLeases (s : State) (places : List Nat) : Goes (mask leaseRegs leaseParts) s (s.refillLeases places) :=
  (Goes.refl _ s).each _ _ fun _ t => t.goes_lowWater ..

theorem execFirmwareReady_frame (s : State) :
    ∃ t, execFirmwareReady s = .next t ∧ Goes (mask Reg.most (.gates :: .ports :: holdParts ++ resetRegionParts ++ beginScanParts)) s t := by
  refine ⟨_, rfl, ?_⟩
  extract_lets _ s1 s2 s3 s4
  have hrecover : Goes (mask Reg.most (.gates :: .ports :: holdParts ++ resetRegionParts ++ beginScanParts)) s s1 :=
      ((s.goes_setConfig ..).lift inside_most).step (State.goes_recover _) inside_most
  have hsetFirmware : Goes (mask Reg.most (.gates :: .ports :: holdParts ++ resetRegionParts ++ beginScanParts)) s s2 :=
      hrecover.step (s1.goes_setFirmware ..) inside_most
  have hcase : Goes (mask Reg.most (.gates :: .ports :: holdParts ++ resetRegionParts ++ beginScanParts)) s s3 := by
    simp only [s3]
    split
    · exact hsetFirmware.step (s2.goes_assignOwners ..) inside_most
    · exact hsetFirmware
  have hlogFirmware : Goes (mask Reg.most (.gates :: .ports :: holdParts ++ resetRegionParts ++ beginScanParts)) s s4 :=
      hcase.when _ _ fun t => (t.goes_logFirmware ..).lift inside_most
  split
  · exact Goes.refl _ s
  · exact Goes.ite (Goes.refl _ s) (((hlogFirmware.step (s4.goes_refillLeases ..) inside_most).step (State.goes_serveRung _) inside_most).step
      (State.goes_afterReady ..) inside_most)

/-! ### Verdicts and rejects (R195..R197) -/

theorem execVerdict_frame (L : Letter) (s : State) : ∃ t, execVerdict L s = .next t ∧ Goes (mask insertRegs insertParts) s t :=
  ⟨_, rfl, Goes.serve (fun _ t => goes_svcVerdict ..) s _ _ _ (by decide)⟩

/-! ### Nozzle health (R198, R388) -/

theorem execChannelHealthSet_frame (L : Letter) (s : State) : ∃ t, execChannelHealthSet L s = .next t ∧ Goes doneMask s t :=
  ⟨_, rfl, Goes.serve (fun _ t => goes_svcChannelHealthSet ..) s _ _ _ (by decide)⟩

theorem execChannelHealthQuery_frame (L : Letter) (s : State) : ∃ t, execChannelHealthQuery L s = .next t ∧ Goes countMask s t :=
  ⟨_, rfl, Goes.serve (fun _ t => goes_svcChannelHealthQuery ..) s _ _ _ (by decide)⟩

/-! ### Stitching (R203, R208) -/

theorem execStitchCheckMissing_frame (c : Fin 1024) (s : State) :
    ∃ t, execStitchCheckMissing c s = .next t ∧ Goes (mask inhibitRegs inhibitParts) s t :=
  ⟨_, rfl, Goes.ite (s.goes_stitchMismatch ..) (Goes.refl _ s)⟩

/-! ### Jobs (R390..R392) -/

theorem execJobOpen_frame (L : Letter) (read : JobRead) (s : State) : ∃ t, execJobOpen L read s = .next t ∧ Goes jobMask s t :=
  ⟨_, rfl, Goes.serve (fun _ t => goes_svcJobOpen ..) s _ _ _ (by decide)⟩

theorem execJobClose_frame (L : Letter) (s : State) : ∃ t, execJobClose L s = .next t ∧ Goes jobMask s t :=
  ⟨_, rfl, Goes.serve (fun _ t => goes_svcJobClose ..) s _ _ _ (by decide)⟩

theorem execJobQuery_frame (L : Letter) (s : State) : ∃ t, execJobQuery L s = .next t ∧ Goes countMask s t :=
  ⟨_, rfl, Goes.serve (fun _ t => goes_svcJobQuery ..) s _ _ _ (by decide)⟩

/-! ### TEST services -/

theorem goes_svcSetBudget (L : Letter) (a1 : List Byte) (s : State) : Goes (mask [] [.secure]) s (svcSetBudget L a1 s).1 :=
  Goes.iteFst (Goes.refl _ s) (Goes.pairFst (s.goes_setSecure _))

theorem execTestSetBudget_frame (L : Letter) (s : State) :
    ∃ t, execTestSetBudget L s = .next t ∧ Goes (mask (signals (counting [])) (signalled [.secure])) s t :=
  ⟨_, rfl, Goes.serve (fun _ t => (goes_svcSetBudget ..).lift (by decide)) s _ _ _ (by decide)⟩

theorem execTestQuery_frame (L : Letter) (s : State) : ∃ t, execTestQuery L s = .next t ∧ Goes countMask s t :=
  ⟨_, rfl, Goes.serve (fun _ t => Goes.refl _ t) s _ _ _ (by decide)⟩

theorem goes_svcTestRun (L : Letter) (a1 : List Byte) (s : State) : Goes objectMask s (svcTestRun L a1 s).1 :=
  Goes.iteFst (Goes.refl _ s) (Goes.iteFst (Goes.refl _ s) (goes_accepted ..))

theorem State.goes_beginRun (s : State) (n : Nat) :
    Goes (mask (.DEV_ST_STAT :: sliceLossRegs) (.config :: .gates :: .memo :: .seals :: .secure :: resetRegionParts ++ laneResetParts)) s (s.beginRun
      n) :=
  (((s.goes_setSecure ..).lift (by decide)).write _ _ _ (by decide)).step (State.goes_beginSlice ..) (by decide)

theorem execTestRun_frame (L : Letter) (s : State) :
    ∃ t, execTestRun L s = .next t ∧ Goes (mask (.DEV_ST_STAT :: sliceLossRegs) (.config :: .gates :: .memo :: .seals :: .secure :: resetRegionParts
      ++ laneResetParts)) s t :=
  ⟨_, rfl, Goes.serveThen (fun _ t => (goes_svcTestRun ..).lift (by decide)) (fun _ t => t.goes_beginRun ..) s _ _ _ (by decide)⟩

/-! ### Failures and repairs (R517..R519) -/

theorem State.goes_showRepair (s : State) (repair recur : Nat) : Goes (mask [.DEV_ST_FAIL] []) s (s.showRepair repair recur) :=
  ((Goes.refl _ s).write _ _ _ (by decide)).write _ _ _ (by decide)

theorem State.goes_setRepair (s : State) (old new : Repair) : Goes (mask [] [.secure]) s (s.setRepair old new) :=
  (s.goes_setSecure ..).lift (by decide)

theorem State.goes_recurrence (s : State) (r : Repair) :
    Goes (mask (signals [.DEV_ST_FAIL, .DEV_ST_STAT]) (signalled [.secure])) s (s.recurrence r) := by
  unfold State.recurrence
  extract_lets _ s1
  have hleft : Goes (mask (signals [.DEV_ST_FAIL, .DEV_ST_STAT]) (signalled [.secure])) s s1 :=
      ((s.goes_setRepair ..).lift (by decide)).write _ _ _ (by decide)
  exact Goes.ite ((s.goes_showRepair ..).lift (by decide)) (Goes.ite ((s.goes_showRepair ..).lift (by decide)) (Goes.ite (((s.goes_setRepair ..).lift
      (by decide)).step (State.goes_showRepair ..) (by decide)) (Goes.ite ((((s.goes_setRepair ..).lift (by decide)).step (State.goes_showRepair ..)
      (by decide)).raised _ (by decide)) (((hleft.step (s1.goes_setSecure ..) (by decide)).step (State.goes_showRepair ..) (by decide)).raised _
      (by decide)))))

theorem State.goes_firstFailure (s : State) (slice kind unit place : Nat) :
    Goes (mask (signals [.DEV_ST_DEFECT, .DEV_ST_FAIL]) (signalled [.secure])) s (s.firstFailure slice kind unit place) := by
  unfold State.firstFailure
  extract_lets s1 s2
  have hs : Goes (mask (signals [.DEV_ST_DEFECT, .DEV_ST_FAIL]) (signalled [.secure])) s s1 := by
    simp only [s1]
    split
    · exact (Goes.refl _ s).orFld _ _ _ (mask_reg (by decide))
    · exact Goes.refl _ s
  have hsetSecure : Goes (mask (signals [.DEV_ST_DEFECT, .DEV_ST_FAIL]) (signalled [.secure])) s s2 := (s.goes_setSecure ..).lift (by decide)
  exact Goes.ite ((hs.step (s1.goes_showRepair ..) (by decide)).raised _ (by decide)) (Goes.ite ((s.goes_showRepair ..).lift (by decide))
      ((hsetSecure.step (s2.goes_showRepair ..) (by decide)).raised _ (by decide)))

theorem State.goes_confirmedFailure (s : State) (slice kind unit place signature expected : Nat) :
    Goes (mask (signals [.DEV_ST_DEFECT, .DEV_ST_FAIL, .DEV_ST_STAT]) (signalled [.secure])) s (s.confirmedFailure slice kind unit place signature
      expected) := by
  unfold State.confirmedFailure
  extract_lets s1 s2 s3
  have hunit : Goes (mask (signals [.DEV_ST_DEFECT, .DEV_ST_FAIL, .DEV_ST_STAT]) (signalled [.secure])) s s1 :=
      (((Goes.refl _ s).write _ _ _ (by decide)).write _ _ _ (by decide)).write _ _ _ (by decide)
  have hraised : Goes (mask (signals [.DEV_ST_DEFECT, .DEV_ST_FAIL, .DEV_ST_STAT]) (signalled [.secure])) s s2 :=
      ((hunit.bump _ _ _ (mask_reg (by decide))).step (State.goes_setSecure ..) (by decide)).raised _ (by decide)
  have hlogFirmware : Goes (mask (signals [.DEV_ST_DEFECT, .DEV_ST_FAIL, .DEV_ST_STAT]) (signalled [.secure])) s s3 :=
      hraised.step (s2.goes_logFirmware ..) (by decide)
  split
  · exact hlogFirmware.step (s3.goes_recurrence ..) (by decide)
  · exact hlogFirmware.step (s3.goes_firstFailure ..) (by decide)

theorem State.goes_passedRun (s : State) (slice : Nat) : Goes (mask (signals []) (signalled [.secure])) s (s.passedRun slice) :=
  (Goes.refl _ s).each _ _ fun _ t => Goes.ite ((t.goes_setRepair ..).lift (by decide)) (((t.goes_setSecure ..).lift (by decide)).raised _
      (by decide))

theorem State.goes_sliceResult (s : State) (k : Nat) (a2 : SliceEnd) :
    Goes (mask (signals [.DEV_ST_DEFECT, .DEV_ST_FAIL, .DEV_ST_STAT]) (signalled [.secure])) s (s.sliceResult k a2) := by
  unfold State.sliceResult
  split
  · exact (s.goes_passedRun ..).lift (by decide)
  · exact (s.goes_logFirmware ..).lift (by decide)
  · exact s.goes_confirmedFailure ..

/-! ### The slices (R516) -/

theorem State.goes_nextSlice (s : State) (t : TestRun) : Goes (mask (signals [.DEV_ST_STAT]) (signalled [.secure])) s (s.nextSlice t).1 := by
  unfold State.nextSlice
  extract_lets _ s1 s2
  have hsetSecure : Goes (mask (signals [.DEV_ST_STAT]) (signalled [.secure])) s s1 := (s.goes_setSecure ..).lift (by decide)
  have hchosen : Goes (mask (signals [.DEV_ST_STAT]) (signalled [.secure])) s s2 :=
      Goes.ite ((hsetSecure.write _ _ _ (by decide)).when _ _ fun u => (Goes.refl _ u).raised _ (by decide)) (hsetSecure.write _ _ _ (by decide))
  exact hchosen.when _ _ fun u => ((u.goes_setSecure ..).lift (by decide)).raised _ (by decide)

theorem State.goes_endRun (s : State) (regions : List Nat) :
    Goes (mask (.DEV_ST_STAT :: regionResetRegs) (.config :: .gates :: .restoring :: .secure :: resetRegionParts ++ inhibitParts)) s (s.endRun
      regions) := by
  unfold State.endRun
  extract_lets s1
  have hrunning : Goes (mask (.DEV_ST_STAT :: regionResetRegs) (.config :: .gates :: .restoring :: .secure :: resetRegionParts ++ inhibitParts)) s s1 :=
      ((s.goes_setSecure ..).lift (by decide)).write _ _ _ (by decide)
  exact (hrunning.each _ _ fun _ t => (t.goes_askRegionReset ..).lift (by decide)).step (State.goes_completeAll ..) (by decide)

theorem State.goes_goOn (s : State) (t : TestRun) (k : Nat) :
    Goes (mask (.CFG_NVM_STAT :: .DEV_ST_STAT :: .PIN_PWM_HI :: sliceLossRegs) (.restoring :: beginSelfTestParts)) s (s.goOn t k) := by
  unfold State.goOn
  extract_lets
  split
  · exact Goes.ite ((s.goes_endRun ..).lift (by decide)) ((s.goes_beginSlice ..).lift (by decide))
  · exact Goes.ite ((s.goes_beginSlice ..).lift (by decide)) ((s.goes_finishLeaving).lift (by decide))

theorem execSelfTestSliceDone_frame (r : SliceEnd) (ms : Nat) (s : State) :
    ∃ t, execSelfTestSliceDone r ms s = .next t ∧ Goes (mask (.CFG_NVM_STAT :: .DEV_ST_DEFECT :: .DEV_ST_FAIL :: .DEV_ST_STAT :: .MEM_STK_STAT ::
      .PIN_PWM_HI :: sliceLossRegs) (.restoring :: beginSelfTestParts)) s t := by
  refine ⟨_, rfl, ?_⟩
  split
  · exact Goes.refl _ s
  · exact (((((s.goes_setSecure ..).lift (by decide)).step (State.goes_endSlice ..) (by decide)).step (State.goes_sliceResult ..) (by decide)).step
      (State.goes_nextSlice ..) (by decide)).step (State.goes_goOn ..) (by decide)
end Sys2Proof.Machine
end

section
/-! PROOFS. The other commands as frames. -/

namespace Sys2Proof.Machine

-- One proof after another: side by side they need more memory than a check has.
set_option Elab.async false

theorem execTokenCapture_frame (x : Site) (wires : List (Nat × Rail)) (upset : List Nat) (s : State) :
    ∃ t, execTokenCapture x wires upset s = .next t ∧ Goes (mask (signals (counting [.CFG_FAB_STAT, .CFG_ISO_CNT])) (.boxMem :: .pulses ::
      fillParts)) s t := by
  refine ⟨_, rfl, ?_⟩
  extract_lets
  split
  · exact Goes.refl _ s
  · refine Goes.ite (Goes.refl _ s) ?_
    split
    · exact (s.goes_isoCapture ..).lift (by decide)
    · exact ((s.goes_takeTokens ..).lift (by decide)).step (State.goes_isoCodes ..) (by decide)
    · exact Goes.ite ((((s.goes_takeTokens ..).lift (by decide)).step (State.goes_fill ..) (by decide)).step (State.goes_codeErrors ..) (by decide))
        (Goes.refl _ s)
    · exact Goes.refl _ s

theorem execBmRead_frame (n : Fin 40) (i : Fin 192) (p : BmPort) (word : WordToken) (m : BmMoment) (s : State) :
    ∃ t, execBmRead n i p word m s = .next t ∧ Goes (mask (signals (counting [.CFG_BM_STAT])) (signalled [.bms])) s t :=
  ⟨_, rfl, (s.goes_bmRequest ..).lift (by decide)⟩

theorem execBmWrite_frame (n : Fin 40) (i : Fin 192) (p : BmPort) (word : WordToken) (data : BmData) (m : BmMoment) (s : State) :
    ∃ t, execBmWrite n i p word data m s = .next t ∧ Goes (mask (signals (counting [.CFG_BM_STAT])) (signalled [.bms])) s t :=
  ⟨_, rfl, (s.goes_bmRequest ..).lift (by decide)⟩

theorem execBmSwap_frame (n : Fin 40) (i : Fin 192) (p : BmPort) (word low high : WordToken) (m : BmMoment) (s : State) :
    ∃ t, execBmSwap n i p word low high m s = .next t ∧ Goes (mask (signals (counting [.CFG_BM_STAT])) (signalled [.bms])) s t :=
  ⟨_, rfl, (s.goes_bmRequest ..).lift (by decide)⟩

theorem execBmWriteAck_frame (n : Fin 40) (i : Fin 192) (p : BmPort) (word : WordToken) (data : BmData) (m : BmMoment) (s : State) :
    ∃ t, execBmWriteAck n i p word data m s = .next t ∧ Goes (mask (signals (counting [.CFG_BM_STAT])) (signalled [.bms])) s t :=
  ⟨_, rfl, (s.goes_bmRequest ..).lift (by decide)⟩

theorem execBeaconReceived_frame (link : Fin 144) (baxis : Fin 8) (pos : BitVec 61) (vel : BitVec 32) (lost : Bool) (s : State) :
    ∃ t, execBeaconReceived link baxis pos vel lost s = .next t ∧ Goes (mask beaconRegs beaconParts) s t :=
  ⟨_, rfl, (Goes.refl _ s).pulseVia _ _ _ (fun t => t.goes_beaconIn ..) (mask_part (by decide))⟩

theorem execGpioMaskedWrite_frame (p : Port) (g : Fin 3) (lanes : BitVec 8) (value : Word) (s : State) :
    ∃ t, execGpioMaskedWrite p g lanes value s = .next t ∧ Goes (mask (signals (errors [.PIN_GSTAT, .PIN_OUT])) (.crossings :: .waiting ::
      stopDomainParts)) s t :=
  ⟨_, rfl, Goes.accessAt (fun t => ((t.goes_breakLock ..).lift (by decide)).step (State.goes_gpioMasked ..) (by decide)) s _ _ _ _ _ _ (by decide)⟩

theorem execExpressWidthReq_frame (x : Slot) (lanes : BitVec 8) (immediate : Bool) (missing : BitVec 32) (s : State) :
    ∃ t, execExpressWidthReq x lanes immediate missing s = .next t ∧ Goes (mask (.LNK_CNT_EXP :: widthRegs) askParts) s t :=
  ⟨_, rfl, Goes.expressIn (fun t => Goes.ite ((t.goes_widthReq ..).lift (by decide)) (Goes.refl _ t)) _ _ _ _ (by decide)⟩

theorem execHomeWbDirty_frame (l : BitVec 32) (who : Fin 20) (data : BitVec 512) (same : List HomeReq) (s : State) :
    ∃ t, execHomeWbDirty l who data same s = .next t ∧ Goes (mask homeRegs homeParts) s t := by
  refine ⟨_, rfl, ?_⟩
  extract_lets _ s1
  have hchosen : Goes (mask homeRegs homeParts) s s1 := Goes.ite (Goes.refl _ s) ((s.goes_setCached ..).lift (by decide))
  split
  · exact Goes.ite ((s.goes_queueUp ..).lift (by decide)) (((((s.goes_unpost ..).lift (by decide)).step (State.goes_takeIn ..) (by decide)).trans
      (State.goes_giveUp ..)).trans (State.goes_serveNext ..))
  · exact Goes.ite (Goes.refl _ s) (Goes.ite ((hchosen.step (s1.goes_post ..) (by decide)).step (State.goes_queueUp ..) (by decide)) (((hchosen.step
      (s1.goes_takeIn ..) (by decide)).trans (State.goes_giveUp ..)).trans (State.goes_serveNext ..)))

theorem execRingPeerLetter_frame (owner : BitVec 8) (m : Fin 64) (bytes : List Byte) (s : State) :
    ∃ t, execRingPeerLetter owner m bytes s = .next t ∧ Goes (mask (signals (counting [.PST_MB_REQ])) (signalled [])) s t :=
  ⟨_, rfl, Goes.ite (((s.goes_putRing ..).lift (by decide)).step (State.goes_doorbell ..) (by decide)) (Goes.refl _ s)⟩
end Sys2Proof.Machine
end

section
/-! PROOFS. A tick as a frame. -/

namespace Sys2Proof.Machine

-- One proof after another: side by side they need more memory than a check has.
set_option Elab.async false

theorem State.goes_countTick (s : State) : Goes countMask s s.countTick := by
  unfold State.countTick
  extract_lets s1
  have hperf : Goes countMask s s1 := s.goes_perf ..
  exact hperf.each _ _ fun _ t => (Goes.refl _ t).when _ _ fun u => u.goes_perfAdd ..

theorem State.goes_rtcTick (s : State) : Goes (mask [.DEV_RTC] []) s s.rtcTick :=
  (Goes.refl _ s).when _ _ fun t => (Goes.refl _ t).addMod _ _ _ (mask_reg (by decide))

theorem State.goes_timebaseTick (s : State) :
    Goes (mask (.CFG_AGT_STAT :: .CFG_ISO_CNT :: .PERF_TB :: .POS_STRB_STAT :: .SRT_ERR :: commandRegs) (.lease :: .memo :: .strobeT ::
      commandParts)) s s.timebaseTick := by
  unfold State.timebaseTick
  extract_lets _ s1 s2 s3
  have htb : Goes (mask (.CFG_AGT_STAT :: .CFG_ISO_CNT :: .PERF_TB :: .POS_STRB_STAT :: .SRT_ERR :: commandRegs) (.lease :: .memo :: .strobeT ::
        commandParts)) s s1 :=
      (Goes.refl _ s).write _ _ _ (by decide)
  have hstrobeTick : Goes (mask (.CFG_AGT_STAT :: .CFG_ISO_CNT :: .PERF_TB :: .POS_STRB_STAT :: .SRT_ERR :: commandRegs) (.lease :: .memo :: .strobeT
        :: commandParts)) s s2 :=
      (htb.each _ _ fun _ u => (u.goes_axisTick ..).lift (by decide)).each _ _ fun _ u => (u.goes_strobeTick ..).lift (by decide)
  have hmarkTick : Goes (mask (.CFG_AGT_STAT :: .CFG_ISO_CNT :: .PERF_TB :: .POS_STRB_STAT :: .SRT_ERR :: commandRegs) (.lease :: .memo :: .strobeT
        :: commandParts)) s s3 :=
      (hstrobeTick.each _ _ fun _ u => (u.goes_sorterTick ..).lift (by decide)).each _ _ fun _ u => (u.goes_markTick ..).lift (by decide)
  exact Goes.ite (Goes.refl _ s) ((hmarkTick.step (s3.goes_pinTick) (by decide)).step (State.goes_countTick _) (by decide))

/-- The parts of `tick`. -/
def tickParts : List Part := .axes :: .clock :: .copies :: .letterQueue :: .monitors :: .ports :: .resets :: .rings :: .samplers :: .strobeAt ::
  .strobeT :: beginSelfTestParts

theorem State.goes_tick (s : State) : Goes (mask Reg.most tickParts) s s.tick := by
  unfold State.tick
  extract_lets s1 s2
  have hpublishAll : Goes (mask Reg.most tickParts) s s1 :=
      ((((Goes.refl _ s).set_clock _ (mask_part (by decide))).step (State.goes_rtcTick _) inside_most).step (State.goes_timebaseTick _)
        inside_most).step (State.goes_publishAll _) inside_most
  have hserveAgent : Goes (mask Reg.most tickParts) s s2 := hpublishAll.each _ _ fun _ t => (t.goes_serveAgent ..).lift inside_most
  exact (hserveAgent.each _ _ fun _ t => (((t.goes_armed ..).lift inside_most).step (State.goes_settle ..) inside_most).step
      (State.goes_drainDone ..) inside_most).step (State.goes_leaveOn _) inside_most
end Sys2Proof.Machine
end

section
/-! PROOFS. What leaves the life cycle alone: accesses, and what a domain serves as it runs. -/

namespace Sys2Proof.Machine

-- One proof after another: side by side they need more memory than a check has.
set_option Elab.async false

/-! ### What leaves the life cycle alone (R501, R502) -/

/-- From `s` to `t` the life-cycle state that is shown stands, and the fuses. -/
structure KeepsLife (s t : State) : Prop where
  shown : t.lifeCycle = s.lifeCycle
  fuses : t.secure.fuses = s.secure.fuses

/-- A frame without DEV_LC and the security state. -/
theorem Goes.life {rs : List Reg} {ps : List Part} {s t : State} (h : Goes (mask rs ps) s t) (hr : Reg.DEV_LC ∉ rs := by decide)
    (hp : Part.secure ∉ ps := by decide) : KeepsLife s t :=
  ⟨h.within.1 .DEV_LC_STATE 0 hr, congrArg SecurityState.fuses (h.within.2 .secure hp)⟩

namespace KeepsLife

variable {s t u : State}

theorem refl (s : State) : KeepsLife s s := ⟨rfl, rfl⟩

theorem trans (h : KeepsLife s t) (k : KeepsLife t u) : KeepsLife s u := ⟨k.shown.trans h.shown, k.fuses.trans h.fuses⟩

theorem step {rs : List Reg} {ps : List Part} (h : KeepsLife s t) (k : Goes (mask rs ps) t u) (hr : Reg.DEV_LC ∉ rs := by decide)
    (hp : Part.secure ∉ ps := by decide) : KeepsLife s u := h.trans (k.life hr hp)

theorem ite {c : Prop} [Decidable c] {a b : State} (h : KeepsLife s a) (k : KeepsLife s b) : KeepsLife s (if c then a else b) := by
  split <;> assumption

theorem iteFst {α : Type} {c : Prop} [Decidable c] {a b : State × α} (h : KeepsLife s a.1) (k : KeepsLife s b.1) :
    KeepsLife s (if c then a else b).1 := by
  split <;> assumption

theorem each {α : Type} {l : List α} {g : α → State → State} (h : KeepsLife s t) (hg : ∀ a, a ∈ l → ∀ u, KeepsLife u (g a u)) :
    KeepsLife s (t.each l g) := State.each_keeps (P := KeepsLife s) (fun a ha u hu => hu.trans (hg a ha u)) h

theorem when {g : State → State} (h : KeepsLife s t) (c : Bool) (hg : ∀ u, KeepsLife u (g u)) : KeepsLife s (t.when c g) :=
  ite (h.trans (hg t)) h

theorem put (h : KeepsLife s t) (f : Fld) (i v : Nat) (hf : f ≠ .DEV_LC_STATE := by decide) : KeepsLife s (t.put f i v) :=
  h.trans ⟨t.fld_put_ne i 0 v hf, rfl⟩

theorem raised (h : KeepsLife s t) (src : Nat) (reg : Option (Reg × Nat)) : KeepsLife s (t.raiseWith src reg) := h.step (t.goes_raiseWith src reg)

theorem emit (h : KeepsLife s t) (o : Output) : KeepsLife s (t.emit o) := h.trans ⟨rfl, rfl⟩

theorem set_svc (h : KeepsLife s t) (x : Services) : KeepsLife s { t with svc := x } := h.trans ⟨rfl, rfl⟩

theorem set_pins (h : KeepsLife s t) (x : PinState) : KeepsLife s { t with pins := x } := h.trans ⟨rfl, rfl⟩

theorem set_resets (h : KeepsLife s t) (x : ResetState) : KeepsLife s { t with resets := x } := h.trans ⟨rfl, rfl⟩

/-- A change of the security state that leaves the fuses. -/
theorem setSecure (h : KeepsLife s t) (g : SecurityState → SecurityState) (hg : ∀ x, (g x).fuses = x.fuses := by exact fun _ => rfl) :
    KeepsLife s (t.setSecure g) := h.trans ⟨rfl, hg _⟩

end KeepsLife

/-! ### Accesses: no type of DEV_LC.STATE is one that a write or a read changes (R9) -/

/-- A field of another type than RO is not DEV_LC.STATE. -/
theorem Fld.ne_state_of_ty {f : Fld} (h : f.spec.ty ≠ .RO) : f ≠ .DEV_LC_STATE := fun he => h (he ▸ rfl)

namespace State

theorem life_storeWord (s : State) (r : Reg) (i w v : Nat) : KeepsLife s (s.storeWord r i w v) := by
  refine (KeepsLife.refl s).each fun f hf u => ?_
  have hne : f ≠ .DEV_LC_STATE := Fld.ne_state_of_ty (by
    have hty : f.spec.ty = .RW ∨ f.spec.ty = .RWL := by simpa using (List.mem_filter.mp hf).2
    obtain h | h := hty <;> simp [h])
  exact KeepsLife.ite (KeepsLife.ite ((KeepsLife.refl u).put f i _ hne) ((KeepsLife.refl u).put f i _ hne))
    (KeepsLife.ite ((KeepsLife.refl u).put f i _ hne) (KeepsLife.refl u))

theorem life_plainWrite (s : State) (r : Reg) (i w v : Nat) : KeepsLife s (s.plainWrite r i w v) := by
  refine (s.life_storeWord r i w v).each fun f hf u => ?_
  have hne : f ≠ .DEV_LC_STATE := Fld.ne_state_of_ty (by simp [of_decide_eq_true (List.mem_filter.mp hf).2])
  exact KeepsLife.ite ((KeepsLife.refl u).put f i _ hne) (KeepsLife.refl u)

theorem life_readClear (s : State) (p : Port) (r : Reg) (i : Nat) : KeepsLife s (s.readClear p r i) := by
  refine KeepsLife.each (t := s.emit (.readValue p (s.regWord r i))) ⟨rfl, rfl⟩ fun f hf u => ?_
  exact (KeepsLife.refl u).put f i 0 (Fld.ne_state_of_ty (by simp [of_decide_eq_true (List.mem_filter.mp hf).2]))

theorem life_writePst (s : State) (p : Port) (r : Reg) (i w v : Nat) : KeepsLife s (s.writePst p r i w v) := by
  unfold State.writePst
  split
  · split
    · exact (s.goes_doorbell ..).life
    · exact KeepsLife.refl s
  · split
    · exact (s.goes_replyHead ..).life
    · exact KeepsLife.refl s
  · exact KeepsLife.ite (s.goes_unlock ..).life (KeepsLife.refl s)
  · exact s.life_plainWrite ..

theorem life_readReg (s : State) (p : Port) (r : Reg) (i w : Nat) : KeepsLife s (s.readReg p r i w) := by
  have hupper (v : Nat) : KeepsLife s (s.emit (.readValue p v)) := ⟨rfl, rfl⟩
  unfold State.readReg
  extract_lets upper
  split
  · exact (s.goes_acquire ..).life.emit _
  · exact KeepsLife.ite (s.goes_readPos ..).life (hupper _)
  · exact hupper _
  · exact KeepsLife.ite (s.goes_readHead ..).life (hupper _)
  · exact hupper _
  · exact hupper _
  · exact KeepsLife.ite (s.goes_rngRead ..).life (hupper _)
  · exact (s.goes_sampleBank ..).life.trans (life_readClear ..)
  · exact KeepsLife.ite (s.life_readClear ..) (KeepsLife.ite (s.goes_wideRead ..).life (hupper _))

theorem life_writePin (s : State) (p : Port) (r : Reg) (i w v : Nat) : KeepsLife s (s.writePin p r i w v) := by
  unfold State.writePin
  extract_lets s1
  have hbroken : KeepsLife s s1 := (s.goes_breakLock ..).life
  have hlockable (locked : Bool) (g : State → State) (hg : ∀ t, KeepsLife t (g t)) : KeepsLife s1 (s1.lockable p r i locked g) :=
    KeepsLife.ite (s1.goes_accessError ..).life (hg s1)
  split
  · exact (s.goes_lockArm ..).life
  · exact (s.goes_lockSet ..).life
  · split
    · exact hbroken.trans (hlockable _ _ fun t => ((t.goes_keepPin ..).life.trans (life_storeWord ..)).step (goes_refreshPins _))
    · exact hbroken.trans (hlockable _ _ fun t => ((t.goes_keepPin ..).life.trans (life_storeWord ..)).step (goes_refreshPins _))
    · exact (hbroken.trans (s1.life_plainWrite ..)).step (goes_keepLevels _)
    · exact hbroken.trans (hlockable _ _ fun t => (t.goes_mapSource ..).life)
    · exact hbroken.step (s1.goes_bankCtl ..)
    · exact hbroken.step (s1.goes_cellEnable ..)
    · exact hbroken.step (s1.goes_calWrite ..)
    · exact hbroken.step (s1.goes_pwmPer ..)
    · exact hbroken.step (s1.goes_pwmHi ..)
    · exact hbroken.trans (s1.life_plainWrite ..)

/-! ### Resets that a write asks for (R491..R493) -/

theorem life_abandonShutdown (s : State) : KeepsLife s s.abandonShutdown := by
  unfold State.abandonShutdown
  extract_lets _ _ _ _ s1 s2
  have hgone : KeepsLife s s1 := ⟨rfl, rfl⟩
  have hidle : KeepsLife s s2 := (hgone.put _ _ _).put _ _ _
  exact KeepsLife.ite (KeepsLife.refl s) (hidle.when _ fun t => (t.goes_enterPhase ..).life)

theorem life_postroomReset (s : State) : KeepsLife s s.postroomReset := by
  unfold State.postroomReset
  extract_lets s1 _ s2 s3 s4 s5 s6 s7 s8 s9
  have hrestarts : KeepsLife s s1 := s.life_abandonShutdown.put _ _ _
  have hwithdraw : KeepsLife s s2 := (hrestarts.set_svc _).step (goes_withdraw ..)
  have hready : KeepsLife s s4 := ((hwithdraw.step (s2.goes_setFirmware ..)).put _ _ _).each fun _ _ t => (KeepsLife.refl t).put _ _ _
  have hsent : KeepsLife s s6 := ((hready.step (s4.goes_setMem ..)).step (s5.goes_loseCaches ..)).step (goes_forgetAgents ..) |>.emit _
  have hcompleted : KeepsLife s s7 := (hsent.step (s6.goes_setConfig ..)).step (goes_completeOn ..)
  have hrefetched : KeepsLife s s8 := by
    simp only [s8]
    split
    · exact hcompleted.step (s7.goes_refetchFails ..)
    · exact hcompleted
  have hloaded : KeepsLife s s9 := by
    simp only [s9]
    split
    · exact KeepsLife.ite (hrefetched.step (s8.goes_regionLoadFails ..)) hrefetched
    · exact hrefetched
  exact (hloaded.step s9.goes_heatersLow).step (goes_refreshPins _)

theorem life_islandReset (s : State) (d : Nat) (lost : List (Fin 144 × Lost)) : KeepsLife s (s.islandReset d lost) := by
  unfold State.islandReset
  extract_lets s1
  have hasserted : KeepsLife s s1 := (((KeepsLife.refl s).put _ _ _).step (goes_crossAssert ..)).step (goes_startTimer ..)
  exact KeepsLife.ite ((hasserted.step (s1.goes_octetLanesReset ..)).step (goes_protocolsDown ..)) <|
    KeepsLife.ite (((hasserted.put _ _ _).put _ _ _).put _ _ _) <| KeepsLife.ite (hasserted.trans s1.life_postroomReset) <|
    KeepsLife.ite (hasserted.step s1.goes_timebaseReset) (hasserted.step s1.goes_tapReset)

theorem life_islandCmd (s : State) (v : Nat) (lost : List (Fin 144 × Lost)) : KeepsLife s (s.islandCmd v lost) :=
  KeepsLife.ite (KeepsLife.refl s) ((KeepsLife.refl s).each fun _ _ t => t.life_islandReset ..)

theorem life_deviceReset (s : State) : KeepsLife s s.deviceReset :=
  KeepsLife.ite (KeepsLife.refl s) ((((s.goes_writeBackCaches ..).life.step (goes_flushMeta _)).trans (life_abandonShutdown _)).step (goes_atStage ..))

theorem life_fabricCmd (s : State) : KeepsLife s s.fabricCmd :=
  KeepsLife.ite (KeepsLife.refl s) (s.life_abandonShutdown.step (goes_plainFabric _))

theorem life_rstCmd (s : State) (p : Port) (v : Nat) : KeepsLife s (s.rstCmd p v) := by
  unfold State.rstCmd
  refine KeepsLife.ite (s.goes_accessError ..).life ?_
  split
  · exact s.life_deviceReset
  · exact s.life_fabricCmd
  · exact KeepsLife.refl s

/-! ### Accesses and what waits -/

theorem life_laneErr (s : State) (l v : Nat) : KeepsLife s (s.laneErr l v) := by
  unfold State.laneErr
  exact (s.life_plainWrite ..).when _ fun t => (KeepsLife.refl t).put _ _ _

theorem life_writeReg (s : State) (p : Port) (r : Reg) (i w v : Nat) : KeepsLife s (s.writeReg p r i w v) := by
  unfold State.writeReg
  split
  · exact s.life_writePin ..
  · exact s.life_writePst ..
  · exact s.life_writePst ..
  · split
    · exact s.life_rstCmd ..
    · exact s.life_islandCmd ..
    · exact (s.goes_octCtl ..).life
    · exact (s.goes_octClk ..).life
    · exact (s.goes_octProto ..).life
    · exact (s.goes_frankerCmd ..).life
    · exact (s.goes_rgnCtl ..).life
    · exact (s.goes_axisCtl ..).life
    · exact (s.goes_axCmd ..).life
    · exact (s.life_storeWord ..).step (goes_loadWritten ..)
    · exact (s.life_storeWord ..).step (goes_strobeWritten ..)
    · exact (s.life_storeWord ..).step (goes_strobeWritten ..)
    · exact KeepsLife.ite s.goes_snapshot.life (KeepsLife.refl s)
    · exact (s.goes_srtCtl ..).life
    · exact (s.life_storeWord ..).step (goes_refreshPins _)
    · exact KeepsLife.ite (s.goes_flushCmd ..).life (KeepsLife.refl s)
    · exact (s.goes_insWord ..).life
    · exact (s.goes_laneCtl ..).life
    · exact (s.goes_laneRate ..).life
    · exact (s.goes_laneTxeq ..).life
    · exact (s.goes_laneRxeq ..).life
    · exact (s.goes_laneDfe ..).life
    · exact s.life_laneErr ..
    · exact (s.goes_lnkCtl ..).life
    · exact (s.goes_lnkCmd ..).life
    · exact (s.life_storeWord ..).step (goes_showCable ..)
    · exact (s.goes_ringCtl ..).life
    · exact KeepsLife.ite (s.goes_raiseStop ..).life (KeepsLife.refl s)
    · exact (s.goes_granCmd ..).life
    · exact (s.goes_userEvents ..).life
    · exact (s.goes_perfSel ..).life
    · exact (s.life_plainWrite ..).each fun _ _ t => (KeepsLife.refl t).put _ _ _
    · exact (s.goes_cfgCmd ..).life
    · exact (s.goes_xreq ..).life
    · exact (s.life_storeWord ..).step (goes_showWear _)
    · exact (s.life_plainWrite ..).when _ fun t => (KeepsLife.refl t).put _ _ _
    · exact (s.life_plainWrite ..).when _ fun t => (KeepsLife.refl t).put _ _ _
    · exact s.life_plainWrite ..

theorem life_makeWrite (s : State) (p : Port) (a v : Nat) : KeepsLife s (s.makeWrite p a v) := by
  unfold State.makeWrite
  extract_lets s1
  have hpassed : KeepsLife s s1 := (s.goes_passAccess ..).life
  refine KeepsLife.ite (s.goes_accessError ..).life ?_
  split
  · exact hpassed.trans (s1.life_writeReg ..)
  · exact (hpassed.step (s1.goes_breakLock ..)).step (goes_gpioMasked ..)
  · exact hpassed.each fun _ _ t => ⟨rfl, rfl⟩
  · exact hpassed
  · exact (hpassed.when _ fun t => (t.goes_breakLock ..).life).step (goes_accessError ..)

theorem life_makeRead (s : State) (p : Port) (a : Nat) : KeepsLife s (s.makeRead p a) := by
  unfold State.makeRead
  extract_lets s1
  have hpassed : KeepsLife s s1 := (s.goes_passAccess ..).life
  refine KeepsLife.ite ((s.goes_accessError ..).life.emit _) ?_
  split
  · exact hpassed.trans (s1.life_readReg ..)
  · exact hpassed.emit _
  · exact hpassed.emit _
  · exact hpassed.emit _
  · exact (hpassed.step (s1.goes_accessError ..)).emit _

theorem life_makeAccess (s : State) (p : Port) (a : Nat) (write : Bool) (v : Nat) (form : Bool) : KeepsLife s (s.makeAccess p a write v form) := by
  unfold State.makeAccess
  extract_lets s1
  have hmade : KeepsLife s s1 := KeepsLife.ite (s.goes_misform ..).life (KeepsLife.ite (s.life_makeWrite ..) (s.life_makeRead ..))
  split
  · exact hmade.step (s1.goes_controlReply ..)
  · exact hmade

theorem life_busAccess (s : State) (p : Port) (a : Nat) (write : Bool) (v : Nat) (form : Bool) : KeepsLife s (s.busAccess p a write v form) :=
  KeepsLife.ite (KeepsLife.refl s) (KeepsLife.ite (s.goes_wait ..).life (s.life_makeAccess ..))

theorem life_retry (s : State) (w : WaitingAccess) : KeepsLife s (s.retry w) := by
  unfold State.retry
  extract_lets s1
  have hback : KeepsLife s s1 := by
    simp only [s1]
    split
    · exact (s.goes_setCrossing ..).life
    · exact KeepsLife.refl s
  exact KeepsLife.ite ⟨rfl, rfl⟩ (hback.trans (s1.life_makeAccess ..))

theorem life_serveAccesses (s : State) : KeepsLife s s.serveAccesses :=
  KeepsLife.each (t := { s with waiting := [] }) ⟨rfl, rfl⟩ fun _ _ t => t.life_retry ..

theorem life_makeSetting (s : State) (e : Nat × Word) : KeepsLife s (s.makeSetting e) := by
  unfold State.makeSetting
  split
  · exact KeepsLife.ite (s.life_storeWord ..) ((s.goes_passDomain ..).life.trans (life_writeReg ..))
  · exact KeepsLife.refl s

theorem life_imageSettings (s : State) (l : List (Nat × Word)) : KeepsLife s (s.imageSettings l) := by
  unfold State.imageSettings
  exact ((KeepsLife.refl s).each fun _ _ t => KeepsLife.ite (t.goes_setConfig ..).life (t.life_makeSetting ..)).when _ fun t => t.goes_takeEndpoint.life

theorem life_serveSettings (s : State) (d : Nat) : KeepsLife s (s.serveSettings d) :=
  (s.goes_setConfig ..).life.each fun _ _ t => t.life_makeSetting ..

theorem life_serveWaiting (s : State) (d : Nat) : KeepsLife s (s.serveWaiting d) := by
  unfold State.serveWaiting
  extract_lets s1 s2 s3 s4
  have hserved : KeepsLife s s1 := ((s.life_serveAccesses.step (goes_servePulses ..)).trans (life_serveSettings ..)).step (goes_serveStalled ..)
  have hpumped : KeepsLife s s2 := hserved.when _ fun t => (KeepsLife.refl t).each fun _ _ u => (u.goes_pump ..).life
  have hsent : KeepsLife s s3 := hpumped.when _ fun t => ((KeepsLife.refl t).each fun _ _ u => (u.goes_serveAgent ..).life).each fun _ _ u =>
    (u.goes_sendHeld ..).life
  have hheld : KeepsLife s s4 := hsent.each fun h hh t => (t.goes_setFranker ..).life.step
    (goes_hold _ h (heldDomain_some (beq_iff_eq.mp (List.mem_filter.mp hh).2)))
  exact KeepsLife.ite (KeepsLife.refl s) (hheld.when _ fun t => (t.goes_serveStack ..).life)

end State

end Sys2Proof.Machine
end

section
/-! PROOFS. What leaves the life cycle alone: loads, power states, self-test, keys and resets. -/

namespace Sys2Proof.Machine

-- One proof after another: side by side they need more memory than a check has.
set_option Elab.async false

/-! ### Commands that a port or a letter gives -/

namespace State

theorem life_access {g : State → State} (hg : ∀ t, KeepsLife t (g t)) (s : State) (p : Port) (r : Reg) (i : Nat) (write : Bool) (data : Nat) :
    KeepsLife s (s.access p r i write data g) := by
  refine KeepsLife.ite (KeepsLife.refl s) (KeepsLife.ite (s.goes_wait ..).life (KeepsLife.ite ?_ ?_))
  · exact (s.goes_accessError ..).life.when _ fun t => (KeepsLife.refl t).emit _
  · exact (s.goes_passAccess ..).life.trans (hg _)

/-- A letter is refused, or its service has run. -/
theorem life_serve_cases (s : State) (L : Letter) (o : Offer) (exempt : Bool) (g : Service) :
    KeepsLife s (s.serve L o exempt g) ∨ ∃ b, KeepsLife (g b s).1 (s.serve L o exempt g) := by
  unfold State.serve State.withBody
  split
  · exact .inl (KeepsLife.refl s)
  · split
    · exact .inl (s.goes_reply ..).life
    · next b _ =>
      dsimp only
      split
      · exact .inl (s.goes_reply ..).life
      · exact .inr ⟨b, (goes_reply ..).life⟩

theorem life_serve {g : Service} (hg : ∀ b t, KeepsLife t (g b t).1) (s : State) (L : Letter) (o : Offer) (exempt : Bool) :
    KeepsLife s (s.serve L o exempt g) := by
  obtain h | ⟨b, h⟩ := s.life_serve_cases L o exempt g
  · exact h
  · exact (hg b s).trans h

theorem life_serveThen {g : Service} {h : PendingOp → State → State} (hg : ∀ b t, KeepsLife t (g b t).1) (hh : ∀ op t, KeepsLife t (h op t))
    (s : State) (L : Letter) (o : Offer) (exempt : Bool) : KeepsLife s (s.serveThen L o exempt g h) := by
  unfold State.serveThen
  extract_lets s1
  have hserved : KeepsLife s s1 := life_serve hg s L o exempt
  refine KeepsLife.ite hserved ?_
  split
  · exact hserved.trans (hh _ _)
  · exact hserved

/-! ### Loads, domains and power states (R417, R93, R475) -/

theorem life_applyFull (s : State) (slot : Nat) (f : ImageFacts) (b : FullBody) : KeepsLife s (s.applyFull slot f b) := by
  unfold State.applyFull
  extract_lets _ s1 s2 s3 s4 s5 s6 s7
  have habsorb (t : State) (x : List Nat) : KeepsLife t { t with isoAbsorb := x } := ⟨rfl, rfl⟩
  have hregulators : KeepsLife s s1 := (s.life_imageSettings _).step (goes_imageRegulators ..)
  have hclocks : KeepsLife s s3 := (hregulators.trans (habsorb s1 _)).each fun _ _ t => (t.goes_setTree ..).life.step (goes_startTimer ..)
  have hempty : KeepsLife s s4 := hclocks.each fun _ _ t => (t.goes_emptyRegion ..).life
  have hregions : KeepsLife s s5 := hempty.each fun _ _ t => (t.goes_keepKeys ..).life.step (goes_applyRegion ..)
  have hframes : KeepsLife s s7 := ((hregions.step (s5.goes_setConfig ..)).step (s6.goes_keepKeys ..)).step (goes_recordFrames ..)
  split
  · exact hframes.when _ fun t => (t.goes_assignOwners ..).life
  · exact hframes

theorem life_imageChecked (s : State) (l : FullLoad) (f : ImageFacts) (b : FullBody) : KeepsLife s (s.imageChecked l f b) := by
  unfold State.imageChecked
  extract_lets s1 s2 s3 s4
  have hshown : KeepsLife s s2 := ((s.life_applyFull ..).put _ _ _).put _ _ _
  have hsource : KeepsLife s s3 := KeepsLife.ite (hshown.put _ _ _) (hshown.put _ _ _)
  exact (hsource.step (s3.goes_setConfig ..)).when _ fun t => (t.goes_enterPhase ..).life

theorem life_crossOpen (s : State) (d : Nat) : KeepsLife s (s.crossOpen d) := by
  unfold State.crossOpen
  extract_lets s1 s2
  have hheld : KeepsLife s s1 := (s.goes_setCrossing ..).life.put _ _ _
  have hraised : KeepsLife s s2 := hheld.when _ fun t => ((KeepsLife.refl t).put _ _ _).raised _ _
  exact ((hraised.when _ fun t => (t.goes_openMsgs ..).life).when _ fun t => t.goes_refreshPins.life).trans (life_serveWaiting ..)

theorem life_leaveStandby (s : State) (cause : Nat) : KeepsLife s (s.leaveStandby cause) := by
  unfold State.leaveStandby
  extract_lets s1 s2 _ s3 _ s4
  have hraised : KeepsLife s s1 := (((KeepsLife.refl s).put _ _ _).put _ _ _).raised _ _
  have hserved : KeepsLife s s2 := hraised.each fun _ _ t => (t.goes_startDomain ..).life.trans (life_serveWaiting ..)
  have hbanks : KeepsLife s s3 := (hserved.set_pins _).each fun _ _ t =>
    (t.goes_releaseBank ..).life
  have hreopened : KeepsLife s s4 := hbanks.each fun _ _ t => (t.goes_beginRestore ..).life.step (goes_setConfig ..)
  exact hreopened.step s4.goes_wakeOn

theorem life_changePower (s : State) (t retain : Nat) : KeepsLife s (s.changePower t retain) := by
  unfold State.changePower
  extract_lets _ _ s1
  have hleft : KeepsLife s s1 := s.life_leaveStandby 5
  exact KeepsLife.ite (s.goes_beginLeaving ..).life <| KeepsLife.ite (s.goes_completeAll ..).life <|
    KeepsLife.ite ((s.goes_enterStandby ..).life.step (goes_completeAll ..)) <| KeepsLife.ite (KeepsLife.ite (hleft.step (s1.goes_completeAll ..)) hleft)
      ((s.goes_arrive ..).life.step (goes_completeAll ..))

theorem life_wakeUp (s : State) (cause : Nat) (hibernate : Bool) : KeepsLife s (s.wakeUp cause hibernate) := by
  unfold State.wakeUp
  extract_lets _ s1
  have hwakes : KeepsLife s s1 := (((KeepsLife.refl s).put _ _ _).raised _ _).step (goes_setPower ..)
  exact KeepsLife.ite (KeepsLife.refl s) <| KeepsLife.ite (s.life_leaveStandby cause) <| KeepsLife.ite (hwakes.emit _) (KeepsLife.refl s)

/-! ### Self-test (R515..R519) -/

theorem life_finishLeaving (s : State) : KeepsLife s s.finishLeaving := by
  unfold State.finishLeaving
  exact (((((KeepsLife.refl s).when _ fun t => (t.goes_saveCounter ..).life).put _ _ _).setSecure _).step (goes_heatersLow _)).step (goes_setPower ..)

theorem life_beginSlice (s : State) (t : TestRun) : KeepsLife s (s.beginSlice t) := ((KeepsLife.refl s).setSecure _).step (goes_sliceLoss ..)

theorem life_beginSelfTest (s : State) : KeepsLife s s.beginSelfTest := by
  unfold State.beginSelfTest
  extract_lets s1
  have hbegun : KeepsLife s s1 := ((s.goes_enterPhase ..).life.step (goes_setPower ..)).setSecure _
  exact KeepsLife.ite (hbegun.trans s1.life_finishLeaving) ((hbegun.put _ _ _).trans (life_beginSlice ..))

theorem life_leaveOn (s : State) : KeepsLife s s.leaveOn := by
  unfold State.leaveOn
  split
  · exact KeepsLife.refl s
  · exact KeepsLife.ite (KeepsLife.ite s.life_finishLeaving s.life_beginSelfTest) (KeepsLife.ite s.goes_depart.life (KeepsLife.refl s))

theorem life_beginRun (s : State) (n : Nat) : KeepsLife s (s.beginRun n) :=
  (((KeepsLife.refl s).setSecure _).put _ _ _).trans (life_beginSlice ..)

theorem life_showRepair (s : State) (repair recur : Nat) : KeepsLife s (s.showRepair repair recur) := (s.goes_showRepair ..).life

theorem life_recurrence (s : State) (r : Repair) : KeepsLife s (s.recurrence r) := by
  have hset (x : Repair) : KeepsLife s (s.setRepair r x) := (KeepsLife.refl s).setSecure _
  exact KeepsLife.ite (s.life_showRepair ..) <| KeepsLife.ite (s.life_showRepair ..) <| KeepsLife.ite ((hset _).trans (life_showRepair ..)) <|
    KeepsLife.ite (((hset _).trans (life_showRepair ..)).raised _ _) ((((hset _).put _ _ _).setSecure _).trans (life_showRepair ..) |>.raised _ _)

theorem life_firstFailure (s : State) (slice kind unit place : Nat) : KeepsLife s (s.firstFailure slice kind unit place) := by
  unfold State.firstFailure
  extract_lets s1 s2
  have hdefect : KeepsLife s s1 := by
    simp only [s1]
    split
    · exact (KeepsLife.refl s).put _ _ _
    · exact KeepsLife.refl s
  exact KeepsLife.ite ((hdefect.trans (life_showRepair ..)).raised _ _) <| KeepsLife.ite (s.life_showRepair ..)
    ((((KeepsLife.refl s).setSecure _).trans (life_showRepair ..)).raised _ _)

theorem life_confirmedFailure (s : State) (slice kind unit place signature expected : Nat) :
    KeepsLife s (s.confirmedFailure slice kind unit place signature expected) := by
  unfold State.confirmedFailure
  extract_lets s1 s2 s3
  have hshown : KeepsLife s s1 := (((KeepsLife.refl s).put _ _ _).put _ _ _).put _ _ _
  have hlogged : KeepsLife s s3 := (((hshown.put _ _ _).setSecure _).raised _ _).step (s2.goes_logFirmware ..)
  split
  · exact hlogged.trans (s3.life_recurrence ..)
  · exact hlogged.trans (s3.life_firstFailure ..)

theorem life_passedRun (s : State) (slice : Nat) : KeepsLife s (s.passedRun slice) :=
  (KeepsLife.refl s).each fun _ _ t => KeepsLife.ite ((KeepsLife.refl t).setSecure _) (((KeepsLife.refl t).setSecure _).raised _ _)

theorem life_sliceResult (s : State) (k : Nat) (r : SliceEnd) : KeepsLife s (s.sliceResult k r) := by
  unfold State.sliceResult
  split
  · exact s.life_passedRun ..
  · exact (s.goes_logFirmware ..).life
  · exact s.life_confirmedFailure ..

theorem life_nextSlice (s : State) (t : TestRun) : KeepsLife s (s.nextSlice t).1 := by
  unfold State.nextSlice
  extract_lets _ s1 s2
  have hcounted : KeepsLife s s1 := (KeepsLife.refl s).setSecure _
  have hstored : KeepsLife s s2 := KeepsLife.ite ((hcounted.put _ _ _).when _ fun u => (KeepsLife.refl u).raised _ _) (hcounted.put _ _ _)
  exact hstored.when _ fun u => ((KeepsLife.refl u).setSecure _).raised _ _

theorem life_endRun (s : State) (regions : List Nat) : KeepsLife s (s.endRun regions) := by
  unfold State.endRun
  exact ((((KeepsLife.refl s).setSecure _).put _ _ _).each fun _ _ t => (t.goes_askRegionReset ..).life).step (goes_completeAll ..)

theorem life_goOn (s : State) (t : TestRun) (k : Nat) : KeepsLife s (s.goOn t k) := by
  unfold State.goOn
  extract_lets
  split
  · exact KeepsLife.ite (s.life_endRun ..) (s.life_beginSlice ..)
  · exact KeepsLife.ite (s.life_beginSlice ..) s.life_finishLeaving

/-! ### Keys, the generator and the test access port (R505, R509..R514) -/

theorem life_useKey (s : State) (b k : Nat) : KeepsLife s (s.useKey b k) := by
  unfold State.useKey
  split
  · exact (KeepsLife.refl s).setSecure _
  · exact (KeepsLife.refl s).setSecure _
  · exact (KeepsLife.refl s).setSecure _
  · exact ⟨rfl, rfl⟩

theorem life_setRecord (s : State) (b : Nat) (r : List Byte) : KeepsLife s (s.setRecord b r) := ((KeepsLife.refl s).setSecure _).put _ _ _

theorem life_keepKey (s : State) (b : Nat) (k : BitVec 256) : KeepsLife s (s.keepKey b k) := (s.life_useKey ..).trans (life_setRecord ..)

theorem life_readKeys (s : State) (bad : Nat) : KeepsLife s (s.readKeys bad) := by
  unfold State.readKeys
  extract_lets _ _ s1
  have hread : KeepsLife s s1 := (KeepsLife.refl s).each fun _ _ t => by
    split
    · exact (t.life_useKey ..).put _ _ _
    · exact (t.life_useKey ..).trans (life_setRecord ..)
  exact hread.when _ fun t => ((KeepsLife.refl t).put _ _ _).raised _ _

theorem life_rotateAudit (s : State) : KeepsLife s s.rotateAudit := by
  unfold State.rotateAudit
  extract_lets r s1
  have hrecorded : KeepsLife s s1 := ((s.goes_drawKey.life.trans (life_keepKey ..)).raised _ _).step (goes_restartRecords ..)
  exact hrecorded.when _ fun t => (t.goes_completeOn ..).life

theorem life_provision (s : State) (ki kv : BitVec 256) (unprogrammed : List (Fin 16)) : KeepsLife s (s.provision ki kv unprogrammed) := by
  unfold State.provision
  extract_lets a b s1
  have hdrawn : KeepsLife s b.1 := s.goes_drawKey.life.step (goes_drawKey _)
  have hkept : KeepsLife s s1 := (((hdrawn.trans (life_keepKey ..)).trans (life_keepKey ..)).trans (life_keepKey ..)).trans (life_keepKey ..)
  exact hkept.each fun _ _ t => (t.goes_reprogram ..).life

theorem life_eraseSecrets (s : State) : KeepsLife s s.eraseSecrets := by
  unfold State.eraseSecrets
  extract_lets s1
  have herased : KeepsLife s s1 := (KeepsLife.refl s).each fun _ _ t => (t.life_useKey ..).trans (life_setRecord ..)
  have hstore (t : State) (x : StoreState) : KeepsLife t { t with store := x } := ⟨rfl, rfl⟩
  exact herased.trans (hstore ..)

theorem life_zeroiseKeys (s : State) : KeepsLife s s.zeroiseKeys := by
  unfold State.zeroiseKeys
  extract_lets s1 s2 s3 s4
  have hkeys : KeepsLife s s1 := (KeepsLife.refl s).each fun _ _ t => t.life_useKey ..
  have hroots : KeepsLife s s2 := hkeys.each fun _ _ t => ((KeepsLife.refl t).put _ _ _).put _ _ _
  have hepochs : KeepsLife s s3 := hroots.each fun _ _ t => (KeepsLife.refl t).put _ _ _
  have hsecure : KeepsLife s s4 := (hepochs.step (s3.goes_setSeal ..)).setSecure _
  have hclear (t : State) (x : ConfigState) : KeepsLife t { t with boxMem := [], config := x } := ⟨rfl, rfl⟩
  exact (hsecure.trans (hclear ..)).step (goes_loseCaches ..)

theorem life_disableSource (s : State) (k : Nat) (rct apt : Bool) : KeepsLife s (s.disableSource k rct apt) := by
  unfold State.disableSource
  exact ((((((KeepsLife.refl s).setSecure _).put _ _ _).put _ _ _)).raised _ _).step (goes_showRng _)

theorem life_beginScan (s : State) : KeepsLife s s.beginScan := by
  unfold State.beginScan
  extract_lets s1 s2
  have hzeroised : KeepsLife s s1 := (s.life_zeroiseKeys.setSecure _).step (goes_atStage ..)
  have hhalted : KeepsLife s s2 := (((hzeroised.each fun _ _ t => (t.goes_stopDomain ..).life).each fun _ _ t =>
    (KeepsLife.refl t).put _ _ _).step (goes_driveDone ..)).raised _ _
  have hreleased (t : State) (x : PinState) (y : ResetState) : KeepsLife t { t with pins := x, resets := y } := ⟨rfl, rfl⟩
  exact (hhalted.trans (hreleased ..)).step (goes_refreshPins _)

theorem life_loadInstruction (s : State) (code : Nat) : KeepsLife s (s.loadInstruction code) :=
  KeepsLife.ite ((s.goes_setInstruction ..).life.when _ fun t => t.life_beginScan) (((s.goes_setInstruction ..).life.put _ _ _).raised _ _)

theorem life_recover (s : State) : KeepsLife s s.recover := by
  unfold State.recover
  extract_lets s1 s2
  have herased : KeepsLife s s1 := (KeepsLife.refl s).when _ fun t => t.life_eraseSecrets
  have hleases : KeepsLife s s2 := ((((herased.step s1.goes_resumeMarked).step (goes_copyRecord _)).step (goes_unknownRecords _)).step
    (goes_restartRecords ..)).step (goes_recreateLeases _)
  exact (hleases.each fun _ _ t => (KeepsLife.refl t).when _ fun u => (u.goes_showReach ..).life).step (goes_sealOwn _)

/-! ### Device-wide resets (R484, R496) -/

theorem mem_keptIdx (k : ResetKind) {f : Fld} (h : f ∈ storedFields) : f.ctorIdx ∈ k.keptIdx := by
  unfold ResetKind.keptIdx
  exact List.mem_map_of_mem (List.mem_append_right _ h)

/-- A reset keeps the fields that come from fuses, records or VBAT. -/
theorem fld_cleared (s : State) (k : ResetKind) {f : Fld} (h : f ∈ storedFields) (i : Nat) : (s.cleared k).fld f i = (s.restartServices k).fld f i := by
  have hkey : f.key i % 1024 = f.ctorIdx := by
    have := f.ctorIdx_lt
    unfold Fld.key
    omega
  have hkept : k.keptIdx.contains (f.key i % 1024) = true := by
    rw [List.contains_iff_mem, hkey]
    exact mem_keptIdx k h
  have hregs : (s.cleared k).regs = Tbl.keep (fun q => k.keptIdx.contains (q % 1024)) (s.restartServices k).regs := rfl
  rw [State.fld, State.fld, hregs, Tbl.find_keep, if_pos hkept]

/-- Every reset keeps the life cycle that is shown: it is a field that comes from the fuses. -/
theorem life_cleared (s : State) (k : ResetKind) : KeepsLife s (s.cleared k) :=
  (s.goes_restartServices k).life.trans ⟨s.fld_cleared k (by decide) 0, rfl⟩

theorem life_enterReset (s : State) (k : ResetKind) (cause : Nat) : KeepsLife s (s.enterReset k cause) := by
  unfold State.enterReset
  extract_lets s1 _ s2 s3 s4 s5 s6 s7
  have hcleared : KeepsLife s s2 := (s.life_cleared k).set_resets _
  have hrestart (t : State) : KeepsLife t t.restartRng := (((KeepsLife.refl t).setSecure _).put _ _ _).put _ _ _
  have hrng : KeepsLife s s3 := by
    simp only [s3]
    split
    · exact (hcleared.trans (hrestart _)).put _ _ _
    · exact (hcleared.trans (hrestart _)).put _ _ _
    · exact (hcleared.step (s2.goes_keepRng _)).each fun _ _ t => (KeepsLife.refl t).put _ _ _
  have hgran : KeepsLife s s4 := hrng.when _ fun t => (t.goes_freshGranules _).life
  have hmon : KeepsLife s s5 := hgran.when _ fun t => (t.goes_keepMonitors _).life.put _ _ _
  have hheld : KeepsLife s s6 := hmon.when _ fun t => (t.goes_heldFabric _).life.each fun _ _ u => ((KeepsLife.refl u).put _ _ _).step (goes_showClocks ..)
  have hout : KeepsLife s s7 := (hheld.emit _).when _ fun t => (KeepsLife.refl t).emit _
  exact (hout.step (goes_showWear _)).step (goes_refreshPins _)

theorem life_enter (s : State) (k : ResetKind) (cause stage : Nat) : KeepsLife s (s.enter k cause stage) := by
  unfold State.enter
  extract_lets _ s1
  exact ((s.life_enterReset k cause).set_resets _).when _
    fun t => t.goes_zeroised.life

theorem life_zeroise (s : State) : KeepsLife s s.zeroise :=
  ((s.life_zeroiseKeys.trans (life_eraseSecrets _)).trans (life_enter ..)).step (goes_zeroised _)

theorem life_vaonLoss (s : State) : KeepsLife s s.vaonLoss := by
  unfold State.vaonLoss
  exact ((s.life_enter ..).step (goes_setPower ..)).emit _ |>.emit _

theorem life_brownOut (s : State) : KeepsLife s s.brownOut := by
  unfold State.brownOut
  extract_lets _ _ _ s1 s2
  have hlost : KeepsLife s s1 := (KeepsLife.refl s).set_resets _
  have hentered : KeepsLife s s2 := hlost.trans (s1.life_enter ..)
  exact hentered.set_resets _

theorem life_resetLow (s : State) : KeepsLife s s.resetLow :=
  KeepsLife.ite ((KeepsLife.refl s).set_resets _) <| KeepsLife.ite ((s.life_enter ..).set_resets _) <|
    KeepsLife.ite (KeepsLife.ite ((KeepsLife.refl s).set_resets _) (((s.life_enter ..).emit _).set_resets _)) ((s.life_enter ..).set_resets _)

/-! ### A tick -/

theorem life_tick (s : State) : KeepsLife s s.tick := by
  unfold State.tick
  extract_lets s1 s2
  have hpublished : KeepsLife s s1 := ((KeepsLife.trans (s := s) (t := { s with clock := s.clock + 1 }) ⟨rfl, rfl⟩ (goes_rtcTick _).life).step
    (goes_timebaseTick _)).step (goes_publishAll _)
  have hagents : KeepsLife s s2 := hpublished.each fun _ _ t => (t.goes_serveAgent ..).life
  exact (hagents.each fun _ _ t => ((t.goes_armed ..).life.step (goes_settle ..)).step (goes_drainDone ..)).trans (life_leaveOn _)

end State

end Sys2Proof.Machine
end

section
/-! PROOFS. Every command has a frame, the movers of the life cycle apart, and the memories keep their canonical form, O5. -/

namespace Sys2Proof.Machine

-- One proof after another: side by side they need more memory than a check has.
set_option Elab.async false

/-! ### The security state of the other commands -/

theorem execImageStreamDone_life (f : ImageFacts) (body : FullBody) (s : State) : ∃ t, execImageStreamDone f body s = .next t ∧ KeepsLife s t := by
  refine ⟨_, rfl, ?_⟩
  split
  · exact KeepsLife.refl s
  · refine KeepsLife.ite (KeepsLife.refl s) ?_
    dsimp only
    split
    · exact (s.goes_readImage ..).life.step (State.goes_loadFailed ..)
    · exact (s.goes_readImage ..).life.trans (State.life_imageChecked ..)

theorem execOctetPllLock_life (k : Fin 18) (lost : List Lost) (s : State) : ∃ t, execOctetPllLock k lost s = .next t ∧ KeepsLife s t := by
  refine ⟨_, rfl, ?_⟩
  extract_lets _ s1 s2
  have hlocked : KeepsLife s s1 := (((KeepsLife.refl s).put _ _ _).put _ _ _).step (State.goes_showFollow _)
  have hlanes : KeepsLife s s2 := hlocked.when _ fun t => (t.goes_resetLanes ..).life
  exact KeepsLife.ite (KeepsLife.refl s) ((((hlanes.step (s2.goes_startDomain ..)).step (State.goes_crossRelease ..)).when _ fun t =>
    (t.goes_released ..).life).trans (State.life_serveWaiting ..))

theorem execPowerState_life (L : Letter) (s : State) : ∃ t, execPowerState L s = .next t ∧ KeepsLife s t :=
  ⟨_, rfl, State.life_serveThen (fun _ t => (goes_svcPowerState ..).life) (fun _ t => t.life_changePower ..) ..⟩

theorem execWakeAlarm_life (s : State) : ∃ t, execWakeAlarm s = .next t ∧ KeepsLife s t := by
  refine ⟨_, rfl, ?_⟩
  extract_lets s1
  have hseconds : KeepsLife s s1 := (KeepsLife.refl s).put _ _ _
  exact KeepsLife.ite (hseconds.trans (s1.life_wakeUp ..)) hseconds

theorem execMonitorCrossing_life (i : Fin 32) (side : Fin 3) (deep : Bool) (s : State) :
    ∃ t, execMonitorCrossing i side deep s = .next t ∧ KeepsLife s t := by
  refine ⟨_, rfl, ?_⟩
  extract_lets s1 s2 s3
  have hvalid : KeepsLife s s2 := (s.goes_crossWindow ..).life.when _ fun t => (KeepsLife.refl t).put _ _ _
  have hlost : KeepsLife s s3 := hvalid.when _ fun t => t.goes_stacksLost.life
  exact KeepsLife.ite (KeepsLife.refl s) (KeepsLife.ite (hlost.trans s3.life_vaonLoss) (KeepsLife.ite (hlost.trans s3.life_brownOut) hlost))

theorem execDeviceReset_life (L : Letter) (s : State) : ∃ t, execDeviceReset L s = .next t ∧ KeepsLife s t :=
  ⟨_, rfl, KeepsLife.ite ((s.goes_noReply ..).life.trans (State.life_deviceReset _))
    (State.life_serveThen (fun _ t => (goes_svcDeviceReset ..).life) (fun _ t => t.life_fabricCmd) ..)⟩

theorem execKeyAuditRotate_life (L : Letter) (s : State) : ∃ t, execKeyAuditRotate L s = .next t ∧ KeepsLife s t :=
  ⟨_, rfl, State.life_serveThen (fun _ t => (goes_svcAuditRotate ..).life) (fun _ t => t.life_rotateAudit) ..⟩

theorem execRngStartupTestDone_life (k : Fin 64) (rct apt : Bool) (s : State) :
    ∃ t, execRngStartupTestDone k rct apt s = .next t ∧ KeepsLife s t :=
  ⟨_, rfl, KeepsLife.ite (KeepsLife.refl s) (KeepsLife.ite (((KeepsLife.refl s).setSecure _).step (State.goes_showRng _)) (s.life_disableSource ..))⟩

theorem execRngReseed_life (s : State) : ∃ t, execRngReseed s = .next t ∧ KeepsLife s t :=
  ⟨_, rfl, KeepsLife.ite (KeepsLife.refl s) (((KeepsLife.refl s).setSecure _).step (State.goes_showRng _))⟩

theorem execFirmwareReady_life (s : State) : ∃ t, execFirmwareReady s = .next t ∧ KeepsLife s t := by
  refine ⟨_, rfl, ?_⟩
  extract_lets _ s1 s2 s3 s4
  have hready : KeepsLife s s2 := ((s.goes_setConfig ..).life.trans (State.life_recover _)).step (s1.goes_setFirmware ..)
  have howners : KeepsLife s s3 := by
    simp only [s3]
    split
    · exact hready.step (s2.goes_assignOwners ..)
    · exact hready
  have hlogged : KeepsLife s s4 := howners.when _ fun t => (t.goes_logFirmware ..).life
  split
  · exact KeepsLife.refl s
  · exact KeepsLife.ite (KeepsLife.refl s) (((hlogged.step (s4.goes_refillLeases ..)).step (State.goes_serveRung _)).step (State.goes_afterReady ..))

theorem life_svcSetBudget (L : Letter) (b : List Byte) (s : State) : KeepsLife s (svcSetBudget L b s).1 := by
  refine KeepsLife.iteFst (KeepsLife.refl s) ?_
  exact (KeepsLife.refl s).setSecure fun x => { x with budget := (if rd b 0 4 = 0 then 2000 else rd b 0 4) ^^^ 2000 }

theorem execTestSetBudget_life (L : Letter) (s : State) : ∃ t, execTestSetBudget L s = .next t ∧ KeepsLife s t :=
  ⟨_, rfl, State.life_serve (fun b t => life_svcSetBudget L b t) ..⟩

theorem execTestRun_life (L : Letter) (s : State) : ∃ t, execTestRun L s = .next t ∧ KeepsLife s t :=
  ⟨_, rfl, State.life_serveThen (fun _ t => (goes_svcTestRun ..).life) (fun _ t => t.life_beginRun ..) ..⟩

theorem execSelfTestSliceDone_life (r : SliceEnd) (ms : Nat) (s : State) : ∃ t, execSelfTestSliceDone r ms s = .next t ∧ KeepsLife s t := by
  refine ⟨_, rfl, ?_⟩
  split
  · exact KeepsLife.refl s
  · exact (((((KeepsLife.refl s).setSecure _).step (State.goes_endSlice ..)).trans (State.life_sliceResult ..)).trans (State.life_nextSlice ..)).trans
      (State.life_goOn ..)

/-! ### Every command -/

/-- The commands that may move the life cycle: those that read the fuses at a start, and the four KEY services that blow a group. -/
def movesLife : Instr → Bool
  | .supplyStable _ | .regulatorsUp _ | .resetNHigh _ | .deviceResetEntry _ | .keyProvision _ _ | .keyLock _ | .keyReturn _ | .keyScrap _ => true
  | _ => false

/-- The outcome is a next state within some frame, with the life cycle as it was unless `moves`. -/
def AnswersWithin (o : Host.Outcome State Fault Refusal) (s : State) (moves : Bool) : Prop :=
  ∃ t, o = .next t ∧ (∃ m, Goes m s t) ∧ (moves = false → KeepsLife s t)

namespace AnswersWithin

variable {o : Host.Outcome State Fault Refusal} {s : State}

theorem of_goes {rs : List Reg} {ps : List Part} {moves : Bool} (h : ∃ t, o = .next t ∧ Goes (mask rs ps) s t) (hr : Reg.DEV_LC ∉ rs := by decide)
    (hp : Part.secure ∉ ps := by decide) : AnswersWithin o s moves := by
  obtain ⟨t, ho, hgoes⟩ := h
  exact ⟨t, ho, ⟨_, hgoes⟩, fun _ => hgoes.life hr hp⟩

theorem of_life {m : Nat} {moves : Bool} (h : ∃ t, o = .next t ∧ Goes m s t) (k : ∃ t, o = .next t ∧ KeepsLife s t) : AnswersWithin o s moves := by
  obtain ⟨t, ho, hgoes⟩ := h
  obtain ⟨u, hu, hlife⟩ := k
  exact ⟨t, ho, ⟨_, hgoes⟩, fun _ => Host.Outcome.next.inj (hu.symm.trans ho) ▸ hlife⟩

theorem moving {m : Nat} (h : ∃ t, o = .next t ∧ Goes m s t) : AnswersWithin o s true := by
  obtain ⟨t, ho, hgoes⟩ := h
  exact ⟨t, ho, ⟨_, hgoes⟩, nofun⟩

end AnswersWithin

/-- Every command answers within some frame, and but for the movers it leaves the life cycle alone. -/
theorem exec_answersWithin (c : Instr) (s : State) : AnswersWithin (exec c s) s (movesLife c) := by
  cases c with
  | registerWrite => exact .of_life (execRegisterWrite_frame ..) ⟨_, rfl, State.life_busAccess ..⟩
  | wideValueLowRead => exact .of_life (execWideValueLowRead_frame ..) ⟨_, rfl, State.life_busAccess ..⟩
  | regionControlAccess => exact .of_life (execRegionControlAccess_frame ..) ⟨_, rfl, KeepsLife.ite (State.life_busAccess ..) (State.goes_partBundle ..).life⟩
  | tokenCapture => exact .of_goes (execTokenCapture_frame ..)
  | memCellRead => exact .of_goes (execMemCellRead_frame ..)
  | memCellWrite => exact .of_goes (execMemCellWrite_frame ..)
  | memCellSwap => exact .of_goes (execMemCellSwap_frame ..)
  | arbiterRequest => exact .of_goes (execArbiterRequest_frame ..)
  | arbiterRelease => exact .of_goes (execArbiterRelease_frame ..)
  | wakeStrobe => exact .of_goes (execWakeStrobe_frame ..)
  | monitorWindowEnd => exact .of_goes (execMonitorWindowEnd_frame ..)
  | strobeTapPulse => exact .of_goes (execStrobeTapPulse_frame ..)
  | userClockLoss => exact .of_goes (execUserClockLoss_frame ..)
  | userClockReturn => exact .of_goes (execUserClockReturn_frame ..)
  | bmRead => exact .of_goes (execBmRead_frame ..)
  | bmWrite => exact .of_goes (execBmWrite_frame ..)
  | bmSwap => exact .of_goes (execBmSwap_frame ..)
  | bmWriteAck => exact .of_goes (execBmWriteAck_frame ..)
  | agentRead => exact .of_goes (execAgentRead_frame ..)
  | agentReadOwn => exact .of_goes (execAgentReadOwn_frame ..)
  | agentWrite => exact .of_goes (execAgentWrite_frame ..)
  | agentWriteNa => exact .of_goes (execAgentWriteNa_frame ..)
  | agentReadNa => exact .of_goes (execAgentReadNa_frame ..)
  | agentFlush => exact .of_goes (execAgentFlush_frame ..)
  | agentStream => exact .of_goes (execAgentStream_frame ..)
  | agentFence => exact .of_goes (execAgentFence_frame ..)
  | agentReservedOp => exact .of_goes (execAgentReservedOp_frame ..)
  | domainStopped => exact .of_goes (execDomainStopped_frame ..)
  | domainRunning => exact .of_life (execDomainRunning_frame ..) ⟨_, rfl, KeepsLife.ite (KeepsLife.refl s) ((s.goes_startDomain ..).life.trans (State.life_serveWaiting ..))⟩
  | freezeRequest => exact .of_goes (execFreezeRequest_frame ..)
  | freezeTimeout => exact .of_goes (execFreezeTimeout_frame ..)
  | crossingResetAssert => exact .of_goes (execCrossingResetAssert_frame ..)
  | crossingResetSeen => exact .of_goes (execCrossingResetSeen_frame ..)
  | crossingResetRelease => exact .of_goes (execCrossingResetRelease_frame ..)
  | crossingResyncSeen => exact .of_goes (execCrossingResyncSeen_frame ..)
  | crossingResyncAck => exact .of_life (execCrossingResyncAck_frame ..) ⟨_, rfl, KeepsLife.ite (s.life_crossOpen ..) (KeepsLife.refl s)⟩
  | devXdropRead => exact .of_goes (execDevXdropRead_frame ..)
  | encoderEdge => exact .of_goes (execEncoderEdge_frame ..)
  | openFault => exact .of_goes (execOpenFault_frame ..)
  | faultClear => exact .of_goes (execFaultClear_frame ..)
  | deadReckoningEnd => exact .of_goes (execDeadReckoningEnd_frame ..)
  | velocityTimeout => exact .of_goes (execVelocityTimeout_frame ..)
  | positionWrap => exact .of_goes (execPositionWrap_frame ..)
  | zEdge => exact .of_goes (execZEdge_frame ..)
  | zOpen => exact .of_goes (execZOpen_frame ..)
  | beaconReceived => exact .of_goes (execBeaconReceived_frame ..)
  | beaconTimeout => exact .of_goes (execBeaconTimeout_frame ..)
  | strobeCrossing => exact .of_goes (execStrobeCrossing_frame ..)
  | posAxStart => exact .of_goes (execPosAxStart_frame ..)
  | posAxStop => exact .of_goes (execPosAxStop_frame ..)
  | posAxRecover => exact .of_goes (execPosAxRecover_frame ..)
  | axisCtlWrite => exact .of_goes (execAxisCtlWrite_frame ..)
  | vspeedWrite => exact .of_goes (execVspeedWrite_frame ..)
  | posSnap => exact .of_goes (execPosSnap_frame ..)
  | axisPosRead => exact .of_goes (execAxisPosRead_frame ..)
  | posAxErrcntRead => exact .of_goes (execPosAxErrcntRead_frame ..)
  | posStrbStatRead => exact .of_goes (execPosStrbStatRead_frame ..)
  | sorterInsert => exact .of_goes (execSorterInsert_frame ..)
  | fabricSorterInsert => exact .of_goes (execFabricSorterInsert_frame ..)
  | sorterRangeDrop => exact .of_goes (execSorterRangeDrop_frame ..)
  | sorterEntryDue => exact .of_goes (execSorterEntryDue_frame ..)
  | sorterRelease => exact .of_goes (execSorterRelease_frame ..)
  | gateSpaceOpens => exact .of_goes (execGateSpaceOpens_frame ..)
  | sorterPop => exact .of_goes (execSorterPop_frame ..)
  | sorterPeek => exact .of_goes (execSorterPeek_frame ..)
  | sorterFlush => exact .of_goes (execSorterFlush_frame ..)
  | sorterCtlWrite => exact .of_goes (execSorterCtlWrite_frame ..)
  | srtErrRead => exact .of_goes (execSrtErrRead_frame ..)
  | placementHandover => exact .of_goes (execPlacementHandover_frame ..)
  | placementCommit => exact .of_goes (execPlacementCommit_frame ..)
  | edgePlaced => exact .of_goes (execEdgePlaced_frame ..)
  | pulseReturnEdge => exact .of_goes (execPulseReturnEdge_frame ..)
  | placementCellEnable => exact .of_goes (execPlacementCellEnable_frame ..)
  | placementCellDisable => exact .of_goes (execPlacementCellDisable_frame ..)
  | pinPlcCntRead => exact .of_goes (execPinPlcCntRead_frame ..)
  | intrinsicDelayMeasure => exact .of_goes (execIntrinsicDelayMeasure_frame ..)
  | pinCalLoad => exact .of_goes (execPinCalLoad_frame ..)
  | pinCalPinDone => exact .of_goes (execPinCalPinDone_frame ..)
  | gpioWrite => exact .of_goes (execGpioWrite_frame ..)
  | gpioMaskedWrite => exact .of_goes (execGpioMaskedWrite_frame ..)
  | bankRangeWrite => exact .of_goes (execBankRangeWrite_frame ..)
  | bankRangeSwitch => exact .of_goes (execBankRangeSwitch_frame ..)
  | bankRangeMismatch => exact .of_goes (execBankRangeMismatch_frame ..)
  | pinLockArm => exact .of_goes (execPinLockArm_frame ..)
  | pinLockSet => exact .of_goes (execPinLockSet_frame ..)
  | bankSupplyRise => exact .of_goes (execBankSupplyRise_frame ..)
  | pwmPeriodStart => exact .of_goes (execPwmPeriodStart_frame ..)
  | channelCreate => exact .of_goes (execChannelCreate_frame ..)
  | channelBind => exact .of_goes (execChannelBind_frame ..)
  | channelUnbind => exact .of_goes (execChannelUnbind_frame ..)
  | channelRebind => exact .of_goes (execChannelRebind_frame ..)
  | channelStart => exact .of_goes (execChannelStart_frame ..)
  | channelHold => exact .of_goes (execChannelHold_frame ..)
  | channelResume => exact .of_goes (execChannelResume_frame ..)
  | channelDrain => exact .of_goes (execChannelDrain_frame ..)
  | channelAbort => exact .of_goes (execChannelAbort_frame ..)
  | channelQuery => exact .of_goes (execChannelQuery_frame ..)
  | channelSetMode => exact .of_goes (execChannelSetMode_frame ..)
  | productBegin => exact .of_goes (execProductBegin_frame ..)
  | productLetterBudget => exact .of_goes (execProductLetterBudget_frame ..)
  | drainComplete => exact .of_goes (execDrainComplete_frame ..)
  | abortComplete => exact .of_goes (execAbortComplete_frame ..)
  | switchComplete => exact .of_goes (execSwitchComplete_frame ..)
  | bindingCheck => exact .of_goes (execBindingCheck_frame ..)
  | underrunReport => exact .of_goes (execUnderrunReport_frame ..)
  | linkDownTimeout => exact .of_goes (execLinkDownTimeout_frame ..)
  | volumeOfflineInhibit => exact .of_goes (execVolumeOfflineInhibit_frame ..)
  | vizonLine => exact .of_goes (execVizonLine_frame ..)
  | productInspected => exact .of_goes (execProductInspected_frame ..)
  | verdict => exact .of_goes (execVerdict_frame ..)
  | verdictDeadline => exact .of_goes (execVerdictDeadline_frame ..)
  | mapGenerationComplete => exact .of_goes (execMapGenerationComplete_frame ..)
  | stitchCheck => exact .of_goes (execStitchCheck_frame ..)
  | stitchCheckMissing => exact .of_goes (execStitchCheckMissing_frame ..)
  | triggerEdge => exact .of_goes (execTriggerEdge_frame ..)
  | ringJoinWrite => exact .of_goes (execRingJoinWrite_frame ..)
  | bypassClose => exact .of_goes (execBypassClose_frame ..)
  | bypassOpen => exact .of_goes (execBypassOpen_frame ..)
  | rollCallSend => exact .of_goes (execRollCallSend_frame ..)
  | rollCallReceived => exact .of_goes (execRollCallReceived_frame ..)
  | memberUnreachable => exact .of_goes (execMemberUnreachable_frame ..)
  | ringStateEvaluate => exact .of_goes (execRingStateEvaluate_frame ..)
  | ringStop => exact .of_goes (execRingStop_frame ..)
  | ringStopRegister => exact .of_goes (execRingStopRegister_frame ..)
  | ringReleaseStop => exact .of_goes (execRingReleaseStop_frame ..)
  | ringReleaseReceived => exact .of_goes (execRingReleaseReceived_frame ..)
  | leaseSeriesDefine => exact .of_goes (execLeaseSeriesDefine_frame ..)
  | leaseSeriesOpen => exact .of_goes (execLeaseSeriesOpen_frame ..)
  | leaseRequest => exact .of_goes (execLeaseRequest_frame ..)
  | leaseProposalReceived => exact .of_goes (execLeaseProposalReceived_frame ..)
  | leaseAckReceived => exact .of_goes (execLeaseAckReceived_frame ..)
  | leaseProposalTimeout => exact .of_goes (execLeaseProposalTimeout_frame ..)
  | leaseRetry => exact .of_goes (execLeaseRetry_frame ..)
  | leaseAutoRetry => exact .of_goes (execLeaseAutoRetry_frame ..)
  | leaseRetire => exact .of_goes (execLeaseRetire_frame ..)
  | leaseQuery => exact .of_goes (execLeaseQuery_frame ..)
  | auditFlush => exact .of_goes (execAuditFlush_frame ..)
  | reconcile => exact .of_goes (execReconcile_frame ..)
  | ringConfig => exact .of_goes (execRingConfig_frame ..)
  | ringConfigTimeout => exact .of_goes (execRingConfigTimeout_frame ..)
  | ringQuery => exact .of_goes (execRingQuery_frame ..)
  | octetEnable => exact .of_goes (execOctetEnable_frame ..)
  | octetPllLock => exact .of_life (execOctetPllLock_frame ..) (execOctetPllLock_life ..)
  | octetDisable => exact .of_goes (execOctetDisable_frame ..)
  | octetPllLoss => exact .of_goes (execOctetPllLoss_frame ..)
  | laneRateWrite => exact .of_goes (execLaneRateWrite_frame ..)
  | laneTxeqWrite => exact .of_goes (execLaneTxeqWrite_frame ..)
  | adaptDone => exact .of_goes (execAdaptDone_frame ..)
  | losAssert => exact .of_goes (execLosAssert_frame ..)
  | losClear => exact .of_goes (execLosClear_frame ..)
  | laneLock => exact .of_goes (execLaneLock_frame ..)
  | laneLol => exact .of_goes (execLaneLol_frame ..)
  | laneReset => exact .of_goes (execLaneReset_frame ..)
  | laneEnWrite => exact .of_goes (execLaneEnWrite_frame ..)
  | laneCntRead => exact .of_goes (execLaneCntRead_frame ..)
  | laneErrcntRead => exact .of_goes (execLaneErrcntRead_frame ..)
  | octetProtoWrite => exact .of_goes (execOctetProtoWrite_frame ..)
  | pciePerstAssert => exact .of_goes (execPciePerstAssert_frame ..)
  | pciePerstRelease => exact .of_goes (execPciePerstRelease_frame ..)
  | hotReset => exact .of_goes (execHotReset_frame ..)
  | functionLevelReset => exact .of_goes (execFunctionLevelReset_frame ..)
  | drivePresent => exact .of_goes (execDrivePresent_frame ..)
  | rpPerstRelease => exact .of_goes (execRpPerstRelease_frame ..)
  | rpLinkUp => exact .of_goes (execRpLinkUp_frame ..)
  | rpContainment => exact .of_goes (execRpContainment_frame ..)
  | ethFrameReceived => exact .of_goes (execEthFrameReceived_frame ..)
  | ethTxwrWrite => exact .of_goes (execEthTxwrWrite_frame ..)
  | ethSlotSent => exact .of_goes (execEthSlotSent_frame ..)
  | laneEthCntRead => exact .of_goes (execLaneEthCntRead_frame ..)
  | linkEnable => exact .of_goes (execLinkEnable_frame ..)
  | linkDisable => exact .of_goes (execLinkDisable_frame ..)
  | frameDecoded => exact .of_goes (execFrameDecoded_frame ..)
  | flitReceived => exact .of_goes (execFlitReceived_frame ..)
  | markerReceived => exact .of_goes (execMarkerReceived_frame ..)
  | flowSend => exact .of_goes (execFlowSend_frame ..)
  | expressStop => exact .of_goes (execExpressStop_frame ..)
  | expressGo => exact .of_goes (execExpressGo_frame ..)
  | expressFlow => exact .of_goes (execExpressFlow_frame ..)
  | expressAck => exact .of_goes (execExpressAck_frame ..)
  | expressNak => exact .of_goes (execExpressNak_frame ..)
  | expressTiming => exact .of_goes (execExpressTiming_frame ..)
  | expressTimingReply => exact .of_goes (execExpressTimingReply_frame ..)
  | expressRingStop => exact .of_goes (execExpressRingStop_frame ..)
  | expressRetrainReq => exact .of_goes (execExpressRetrainReq_frame ..)
  | expressWidthReq => exact .of_goes (execExpressWidthReq_frame ..)
  | expressWidthAck => exact .of_goes (execExpressWidthAck_frame ..)
  | expressLeave => exact .of_goes (execExpressLeave_frame ..)
  | ackSend => exact .of_goes (execAckSend_frame ..)
  | nakRepeat => exact .of_goes (execNakRepeat_frame ..)
  | fireLineDeadline => exact .of_goes (execFireLineDeadline_frame ..)
  | beaconSend => exact .of_goes (execBeaconSend_frame ..)
  | timingSend => exact .of_goes (execTimingSend_frame ..)
  | timingTimeout => exact .of_goes (execTimingTimeout_frame ..)
  | trainingFrameReceived => exact .of_goes (execTrainingFrameReceived_frame ..)
  | equalizeDone => exact .of_goes (execEqualizeDone_frame ..)
  | alignDone => exact .of_goes (execAlignDone_frame ..)
  | capabilityReceived => exact .of_goes (execCapabilityReceived_frame ..)
  | linkStateTimeout => exact .of_goes (execLinkStateTimeout_frame ..)
  | lnkCmdRetrain => exact .of_goes (execLnkCmdRetrain_frame ..)
  | lnkCmdWidth => exact .of_goes (execLnkCmdWidth_frame ..)
  | widthReqResend => exact .of_goes (execWidthReqResend_frame ..)
  | widthLanesAdded => exact .of_goes (execWidthLanesAdded_frame ..)
  | widthSwitchMarker => exact .of_goes (execWidthSwitchMarker_frame ..)
  | laneFailure => exact .of_goes (execLaneFailure_frame ..)
  | linkSilenceTimeout => exact .of_goes (execLinkSilenceTimeout_frame ..)
  | backoffExpired => exact .of_goes (execBackoffExpired_frame ..)
  | activeHeld => exact .of_goes (execActiveHeld_frame ..)
  | lnkCntRead => exact .of_goes (execLnkCntRead_frame ..)
  | homeRdShared => exact .of_goes (execHomeRdShared_frame ..)
  | homeRdOwn => exact .of_goes (execHomeRdOwn_frame ..)
  | homeRdCur => exact .of_goes (execHomeRdCur_frame ..)
  | homeWrPtl => exact .of_goes (execHomeWrPtl_frame ..)
  | homeWbDirty => exact .of_goes (execHomeWbDirty_frame ..)
  | homeEvictClean => exact .of_goes (execHomeEvictClean_frame ..)
  | homeRspI => exact .of_goes (execHomeRspI_frame ..)
  | homeRspS => exact .of_goes (execHomeRspS_frame ..)
  | homeRspData => exact .of_goes (execHomeRspData_frame ..)
  | homeRspWbPending => exact .of_goes (execHomeRspWbPending_frame ..)
  | homeCmpAck => exact .of_goes (execHomeCmpAck_frame ..)
  | agentSnpInv => exact .of_goes (execAgentSnpInv_frame ..)
  | agentSnpShare => exact .of_goes (execAgentSnpShare_frame ..)
  | agentSnpCur => exact .of_goes (execAgentSnpCur_frame ..)
  | agentDataS => exact .of_goes (execAgentDataS_frame ..)
  | agentDataE => exact .of_goes (execAgentDataE_frame ..)
  | agentCmp => exact .of_goes (execAgentCmp_frame ..)
  | agentWbAck => exact .of_goes (execAgentWbAck_frame ..)
  | patrolRead => exact .of_goes (execPatrolRead_frame ..)
  | stackTempSample => exact .of_goes (execStackTempSample_frame ..)
  | stackResyncRequest => exact .of_goes (execStackResyncRequest_frame ..)
  | stackResyncDone => exact .of_goes (execStackResyncDone_frame ..)
  | stackFillDone => exact .of_goes (execStackFillDone_frame ..)
  | memStkEcntRead => exact .of_goes (execMemStkEcntRead_frame ..)
  | memHomeCntRead => exact .of_goes (execMemHomeCntRead_frame ..)
  | granuleSeal => exact .of_goes (execGranuleSeal_frame ..)
  | granuleUnseal => exact .of_goes (execGranuleUnseal_frame ..)
  | conversionComplete => exact .of_goes (execConversionComplete_frame ..)
  | commitStart => exact .of_goes (execCommitStart_frame ..)
  | commitFlushDone => exact .of_goes (execCommitFlushDone_frame ..)
  | commitDone => exact .of_goes (execCommitDone_frame ..)
  | storeBlockRead => exact .of_goes (execStoreBlockRead_frame ..)
  | sealStoreCntRead => exact .of_goes (execSealStoreCntRead_frame ..)
  | sealLineCntRead => exact .of_goes (execSealLineCntRead_frame ..)
  | mailboxDoorbell => exact .of_goes (execMailboxDoorbell_frame ..)
  | replyHeadWrite => exact .of_goes (execReplyHeadWrite_frame ..)
  | mailboxSignal => exact .of_goes (execMailboxSignal_frame ..)
  | ringPeerLetter => exact .of_goes (execRingPeerLetter_frame ..)
  | mailboxReset => exact .of_goes (execMailboxReset_frame ..)
  | postroomRestart => exact .of_goes (execPostroomRestart_frame ..)
  | lockAcquire => exact .of_goes (execLockAcquire_frame ..)
  | lockRelease => exact .of_goes (execLockRelease_frame ..)
  | deviceInfo => exact .of_goes (execDeviceInfo_frame ..)
  | deviceMailboxAssign => exact .of_goes (execDeviceMailboxAssign_frame ..)
  | deviceTimeSet => exact .of_goes (execDeviceTimeSet_frame ..)
  | deviceTimeGet => exact .of_goes (execDeviceTimeGet_frame ..)
  | deviceReset => exact .of_life (execDeviceReset_frame ..) (execDeviceReset_life ..)
  | deviceShutdown => exact .of_goes (execDeviceShutdown_frame ..)
  | powerState => exact .of_life (execPowerState_frame ..) (execPowerState_life ..)
  | powerQuery => exact .of_goes (execPowerQuery_frame ..)
  | powerMargin => exact .of_goes (execPowerMargin_frame ..)
  | powerRail => exact .of_goes (execPowerRail_frame ..)
  | regulatorPoll => exact .of_goes (execRegulatorPoll_frame ..)
  | regulatorAlert => exact .of_goes (execRegulatorAlert_frame ..)
  | configSlots => exact .of_goes (execConfigSlots_frame ..)
  | configWrite => exact .of_goes (execConfigWrite_frame ..)
  | configWriteComplete => exact .of_goes (execConfigWriteComplete_frame ..)
  | configSelect => exact .of_goes (execConfigSelect_frame ..)
  | configReload => exact .of_goes (execConfigReload_frame ..)
  | configBroadcast => exact .of_goes (execConfigBroadcast_frame ..)
  | regionImageOpen => exact .of_goes (execRegionImageOpen_frame ..)
  | regionImageClose => exact .of_goes (execRegionImageClose_frame ..)
  | regionLoad => exact .of_goes (execRegionLoad_frame ..)
  | regionReset => exact .of_goes (execRegionReset_frame ..)
  | regionQuery => exact .of_goes (execRegionQuery_frame ..)
  | regionLoadComplete => exact .of_goes (execRegionLoadComplete_frame ..)
  | initRestoreDone => exact .of_goes (execInitRestoreDone_frame ..)
  | isolationEnd => exact .of_goes (execIsolationEnd_frame ..)
  | channelHealthSet => exact .of_goes (execChannelHealthSet_frame ..)
  | channelHealthQuery => exact .of_goes (execChannelHealthQuery_frame ..)
  | jobOpen => exact .of_goes (execJobOpen_frame ..)
  | jobClose => exact .of_goes (execJobClose_frame ..)
  | jobQuery => exact .of_goes (execJobQuery_frame ..)
  | spoolSlotFilled => exact .of_goes (execSpoolSlotFilled_frame ..)
  | storeQuery => exact .of_goes (execStoreQuery_frame ..)
  | storeFormat => exact .of_goes (execStoreFormat_frame ..)
  | storeVolCreate => exact .of_goes (execStoreVolCreate_frame ..)
  | storeVolResize => exact .of_goes (execStoreVolResize_frame ..)
  | storeVolDelete => exact .of_goes (execStoreVolDelete_frame ..)
  | storeVolOpen => exact .of_goes (execStoreVolOpen_frame ..)
  | storeVolClose => exact .of_goes (execStoreVolClose_frame ..)
  | storeRead => exact .of_goes (execStoreRead_frame ..)
  | storeWrite => exact .of_goes (execStoreWrite_frame ..)
  | storeIoComplete => exact .of_goes (execStoreIoComplete_frame ..)
  | storeFlush => exact .of_goes (execStoreFlush_frame ..)
  | storeSetCommit => exact .of_goes (execStoreSetCommit_frame ..)
  | sealConvert => exact .of_goes (execSealConvert_frame ..)
  | sealQuery => exact .of_goes (execSealQuery_frame ..)
  | sealPool => exact .of_goes (execSealPool_frame ..)
  | axisSetup => exact .of_goes (execAxisSetup_frame ..)
  | axisStart => exact .of_goes (execAxisStart_frame ..)
  | axisStop => exact .of_goes (execAxisStop_frame ..)
  | axisRecover => exact .of_goes (execAxisRecover_frame ..)
  | axisQuery => exact .of_goes (execAxisQuery_frame ..)
  | pinCalibrate => exact .of_goes (execPinCalibrate_frame ..)
  | pinHeaterSet => exact .of_goes (execPinHeaterSet_frame ..)
  | pinHeaterQuery => exact .of_goes (execPinHeaterQuery_frame ..)
  | heaterPeriod => exact .of_goes (execHeaterPeriod_frame ..)
  | heaterAlarm => exact .of_goes (execHeaterAlarm_frame ..)
  | linkEthQueue => exact .of_goes (execLinkEthQueue_frame ..)
  | linkEthSteer => exact .of_goes (execLinkEthSteer_frame ..)
  | linkQuery => exact .of_goes (execLinkQuery_frame ..)
  | testSetBudget => exact .of_life (execTestSetBudget_frame ..) (execTestSetBudget_life ..)
  | testQuery => exact .of_goes (execTestQuery_frame ..)
  | testRun => exact .of_life (execTestRun_frame ..) (execTestRun_life ..)
  | logRead => exact .of_goes (execLogRead_frame ..)
  | logRoute => exact .of_goes (execLogRoute_frame ..)
  | logAuditBind => exact .of_goes (execLogAuditBind_frame ..)
  | perfClaim => exact .of_goes (execPerfClaim_frame ..)
  | perfRelease => exact .of_goes (execPerfRelease_frame ..)
  | perfUser => exact .of_goes (execPerfUser_frame ..)
  | keyStatus => exact .of_goes (execKeyStatus_frame ..)
  | keyAuditExport => exact .of_goes (execKeyAuditExport_frame ..)
  | keyAuditRotate => exact .of_life (execKeyAuditRotate_frame ..) (execKeyAuditRotate_life ..)
  | keyProvision => exact .moving (execKeyProvision_frame ..)
  | keyLock => exact .moving (execKeyLock_frame ..)
  | keyReturn => exact .moving (execKeyReturn_frame ..)
  | keyScrap => exact .moving (execKeyScrap_frame ..)
  | keyGoldenWrite => exact .of_goes (execKeyGoldenWrite_frame ..)
  | firmwareWatchdog => exact .of_goes (execFirmwareWatchdog_frame ..)
  | imageStreamDone => exact .of_life (execImageStreamDone_frame ..) (execImageStreamDone_life ..)
  | cfgRelease => exact .of_goes (execCfgRelease_frame ..)
  | cfgDoneHigh => exact .of_goes (execCfgDoneHigh_frame ..)
  | doneWaitTimeout => exact .of_goes (execDoneWaitTimeout_frame ..)
  | cfgGo => exact .of_goes (execCfgGo_frame ..)
  | broadcastWaitTimeout => exact .of_goes (execBroadcastWaitTimeout_frame ..)
  | broadcastPollReceived => exact .of_goes (execBroadcastPollReceived_frame ..)
  | broadcastGapTimeout => exact .of_goes (execBroadcastGapTimeout_frame ..)
  | xspiRequest => exact .of_goes (execXspiRequest_frame ..)
  | nvmEraseDone => exact .of_goes (execNvmEraseDone_frame ..)
  | nvmEraseResume => exact .of_goes (execNvmEraseResume_frame ..)
  | cfgNvmCntRead => exact .of_goes (execCfgNvmCntRead_frame ..)
  | scrubFrameRead => exact .of_goes (execScrubFrameRead_frame ..)
  | frameRefetchDone => exact .of_goes (execFrameRefetchDone_frame ..)
  | cfgIsoCntRead => exact .of_goes (execCfgIsoCntRead_frame ..)
  | cfgRgnUpsetRead => exact .of_goes (execCfgRgnUpsetRead_frame ..)
  | cfgScrubCntRead => exact .of_goes (execCfgScrubCntRead_frame ..)
  | regFault => exact .of_goes (execRegFault_frame ..)
  | senseSample => exact .of_goes (execSenseSample_frame ..)
  | monitorCrossing => exact .of_life (execMonitorCrossing_frame ..) (execMonitorCrossing_life ..)
  | bankSupplyLossHold => exact .of_goes (execBankSupplyLossHold_frame ..)
  | ageMeasure => exact .of_goes (execAgeMeasure_frame ..)
  | thermalTrip => exact .of_goes (execThermalTrip_frame ..)
  | wakeNLow => exact .of_life (execWakeNLow_frame ..) ⟨_, rfl, KeepsLife.ite (s.life_wakeUp ..) (KeepsLife.refl s)⟩
  | wakeAlarm => exact .of_life (execWakeAlarm_frame ..) (execWakeAlarm_life ..)
  | wakeAxisDistance => exact .of_life (execWakeAxisDistance_frame ..) ⟨_, rfl, KeepsLife.ite (s.life_wakeUp ..) (KeepsLife.refl s)⟩
  | wakePerst => exact .of_life (execWakePerst_frame ..) ⟨_, rfl, KeepsLife.ite (s.life_wakeUp ..) (KeepsLife.refl s)⟩
  | mainSupplyGood => exact .of_life (execMainSupplyGood_frame ..) ⟨_, rfl, KeepsLife.ite (s.life_enter ..) (KeepsLife.refl s)⟩
  | ainConversion => exact .of_goes (execAinConversion_frame ..)
  | ainStale => exact .of_goes (execAinStale_frame ..)
  | pwrRgnLoopRead => exact .of_goes (execPwrRgnLoopRead_frame ..)
  | vaonRise => exact .of_goes (execVaonRise_frame ..)
  | vaonLoss => exact .of_life (execVaonLoss_frame ..) ⟨_, rfl, s.life_vaonLoss⟩
  | supplyStable => exact .moving (execSupplyStable_frame ..)
  | regulatorsUp => exact .moving (execRegulatorsUp_frame ..)
  | resetNLow => exact .of_life (execResetNLow_frame ..) ⟨_, rfl, s.life_resetLow⟩
  | resetNHigh => exact .moving (execResetNHigh_frame ..)
  | stackTrained => exact .of_goes (execStackTrained_frame ..)
  | devRstDevice => exact .of_life (execDevRstDevice_frame ..) ⟨_, rfl, State.life_access (fun t => t.life_rstCmd ..) ..⟩
  | devRstFabric => exact .of_life (execDevRstFabric_frame ..) ⟨_, rfl, State.life_access (fun t => t.life_rstCmd ..) ..⟩
  | deviceResetEntry => exact .moving (execDeviceResetEntry_frame ..)
  | fabricResetDone => exact .of_goes (execFabricResetDone_frame ..)
  | islandReset => exact .of_life (execIslandReset_frame ..) ⟨_, rfl, State.life_access (fun t => t.life_islandCmd ..) ..⟩
  | islandResetRelease => exact .of_goes (execIslandResetRelease_frame ..)
  | rngStartupTestDone => exact .of_life (execRngStartupTestDone_frame ..) (execRngStartupTestDone_life ..)
  | rngHealthFail => exact .of_life (execRngHealthFail_frame ..) ⟨_, rfl, KeepsLife.ite (s.life_disableSource ..) (KeepsLife.refl s)⟩
  | rngReseed => exact .of_life (execRngReseed_frame ..) (execRngReseed_life ..)
  | rngDataRead => exact .of_goes (execRngDataRead_frame ..)
  | devRngStatRead => exact .of_goes (execDevRngStatRead_frame ..)
  | tapInstruction => exact .of_life (execTapInstruction_frame ..) ⟨_, rfl, s.life_loadInstruction ..⟩
  | tapScan => exact .of_life (execTapScan_frame ..) ⟨_, rfl, s.life_loadInstruction ..⟩
  | tapDebugAccess => exact .of_life (execTapDebugAccess_frame ..) ⟨_, rfl, KeepsLife.ite (KeepsLife.refl s) (s.life_busAccess ..)⟩
  | selfTestSliceDone => exact .of_life (execSelfTestSliceDone_frame ..) (execSelfTestSliceDone_life ..)
  | eventRaise => exact .of_goes (execEventRaise_frame ..)
  | evtUserWrite => exact .of_goes (execEvtUserWrite_frame ..)
  | perfClear => exact .of_goes (execPerfClear_frame ..)
  | perfWrap => exact .of_goes (execPerfWrap_frame ..)
  | perfCountRead => exact .of_goes (execPerfCountRead_frame ..)
  | perfSample => exact .of_goes (execPerfSample_frame ..)
  | logRecordWrite => exact .of_goes (execLogRecordWrite_frame ..)
  | logAllowanceTick => exact .of_goes (execLogAllowanceTick_frame ..)
  | evtLogLostRead => exact .of_goes (execEvtLogLostRead_frame ..)
  | frankerSave => exact .of_goes (execFrankerSave_frame ..)
  | frankerLoad => exact .of_goes (execFrankerLoad_frame ..)
  | frankerTrigger => exact .of_goes (execFrankerTrigger_frame ..)
  | frankerRestore => exact .of_goes (execFrankerRestore_frame ..)
  | frankerRecoverRetry => exact .of_goes (execFrankerRecoverRetry_frame ..)
  | devFrkMissRead => exact .of_goes (execDevFrkMissRead_frame ..)
  | devFrkStatRead => exact .of_goes (execDevFrkStatRead_frame ..)
  | userClockEdge => exact .of_goes (execUserClockEdge_frame ..)
  | pinInputChange => exact .of_goes (execPinInputChange_frame ..)
  | firmwareReady => exact .of_life (execFirmwareReady_frame ..) (execFirmwareReady_life ..)
  | endpointLinkUp => exact .of_goes (execEndpointLinkUp_frame ..)
  | ethLinkChange => exact .of_goes (execEthLinkChange_frame ..)
  | headDriverStatus => exact .of_goes (execHeadDriverStatus_frame ..)
  | stitchPartnerMessage => exact .of_goes (execStitchPartnerMessage_frame ..)
  | stitchLinkTimeout => exact .of_goes (execStitchLinkTimeout_frame ..)
  | ringConfigReceived => exact .of_goes (execRingConfigReceived_frame ..)
  | broadcastAnswerReceived => exact .of_goes (execBroadcastAnswerReceived_frame ..)
  | broadcastPollTimeout => exact .of_goes (execBroadcastPollTimeout_frame ..)
  | laneRejoin => exact .of_goes (execLaneRejoin_frame ..)
  | driveWriteDone => exact .of_goes (execDriveWriteDone_frame ..)
  | testLogicReset => exact .of_goes (execTestLogicReset_frame ..)

/-- What lies within a frame keeps the canonical form of the memories. -/
theorem Goes.canonical {m : Nat} {s t : State} (h : Goes m s t) (hs : s.Canonical) : t.Canonical :=
  ⟨h.mem hs.1, h.box hs.2.1, h.regs hs.2.2⟩

/-- Settles O5: a command and a tick have a frame, and what lies within a frame keeps the canonical form. -/
theorem stepKeepsMemoriesCanonical : Obligations.StepKeepsMemoriesCanonical := by
  intro s t hs hstep
  unfold step at hstep
  split at hstep
  · next c rest hpending =>
    obtain ⟨u, hexec, ⟨m, hgoes⟩, -⟩ := exec_answersWithin c { s with pending := rest }
    rw [hexec] at hstep
    cases hstep
    exact hgoes.canonical hs
  · rw [← Host.Outcome.next.inj hstep]
    exact s.goes_tick.canonical hs

end Sys2Proof.Machine
end

section
/-! PROOFS. What the commands of power leave alone, O9. -/

namespace Sys2Proof.Machine

-- One proof after another: side by side they need more memory than a check has.
set_option Elab.async false

/-- Settles O9: the frame of each command lies within the lists of its clause. -/
theorem frameOfPower : Obligations.FrameOfPower := by
  refine ⟨?_, ?_, ?_, ?_, ?_, ?_, ?_, ?_, ?_, ?_, ?_, ?_, ?_, ?_, ?_, ?_, ?_, ?_⟩
  · exact fun region counts s => Goes.answered (execMonitorWindowEnd_frame region counts s) (by decide)
  · exact fun letter s => Goes.answered (execPowerState_frame letter s) inside_all
  · exact fun letter s => Goes.answered (execPowerQuery_frame letter s) (by decide)
  · exact fun letter s => Goes.answered (execPowerMargin_frame letter s) (by decide)
  · exact fun letter s => Goes.answered (execPowerRail_frame letter s) (by decide)
  · exact fun answers s => Goes.answered (execRegulatorPoll_frame answers s) (by decide)
  · exact fun s => Goes.answered (execRegulatorAlert_frame s) (by decide)
  · exact fun site s => Goes.answered (execRegFault_frame site s) (by decide)
  · exact fun sense s => Goes.answered (execSenseSample_frame sense s) (by decide)
  · exact fun bank s => Goes.answered (execBankSupplyLossHold_frame bank s) (by decide)
  · exact fun region age s => Goes.answered (execAgeMeasure_frame region age s) (by decide)
  · exact fun s => Goes.answered (execThermalTrip_frame s) (by decide)
  · exact fun s => Goes.answered (execWakeNLow_frame s) inside_all
  · exact fun s => Goes.answered (execWakeAlarm_frame s) inside_all
  · exact fun s => Goes.answered (execWakeAxisDistance_frame s) inside_all
  · exact fun s => Goes.answered (execWakePerst_frame s) inside_all
  · exact fun input code broken s => Goes.answered (execAinConversion_frame input code broken s) (by decide)
  · exact fun input s => Goes.answered (execAinStale_frame input s) (by decide)

end Sys2Proof.Machine
end

section
/-! PROOFS. What the commands of security leave alone, O20. -/

namespace Sys2Proof.Machine

-- One proof after another: side by side they need more memory than a check has.
set_option Elab.async false

/-- Settles O20: the frame of each command lies within the lists of its clause. -/
theorem frameOfSecurity : Obligations.FrameOfSecurity := by
  refine ⟨?_, ?_, ?_, ?_, ?_, ?_, ?_, ?_, ?_, ?_, ?_, ?_, ?_, ?_, ?_, ?_, ?_, ?_, ?_⟩
  · exact fun letter s => Goes.answered (execTestSetBudget_frame letter s) (by decide)
  · exact fun letter s => Goes.answered (execTestQuery_frame letter s) (by decide)
  · exact fun letter s => Goes.answered (execTestRun_frame letter s) (by decide)
  · exact fun letter s => Goes.answered (execKeyStatus_frame letter s) (by decide)
  · exact fun letter s => Goes.answered (execKeyAuditExport_frame letter s) (by decide)
  · exact fun letter s => Goes.answered (execKeyAuditRotate_frame letter s) (by decide)
  · exact fun letter unprogrammed s => Goes.answered (execKeyProvision_frame letter unprogrammed s) (by decide)
  · exact fun letter s => Goes.answered (execKeyLock_frame letter s) (by decide)
  · exact fun letter s => Goes.answered (execKeyReturn_frame letter s) inside_all
  · exact fun letter s => Goes.answered (execKeyScrap_frame letter s) inside_all
  · exact fun letter s => Goes.answered (execKeyGoldenWrite_frame letter s) (by decide)
  · exact fun source rct apt s => Goes.answered (execRngStartupTestDone_frame source rct apt s) (by decide)
  · exact fun source apt s => Goes.answered (execRngHealthFail_frame source apt s) (by decide)
  · exact fun s => Goes.answered (execRngReseed_frame s) (by decide)
  · exact fun code s => Goes.answered (execTapInstruction_frame code s) (by decide)
  · exact fun s => Goes.answered (execTapScan_frame s) (by decide)
  · exact fun access s => Goes.answered (execTapDebugAccess_frame access s) inside_all
  · exact fun result ms s => Goes.answered (execSelfTestSliceDone_frame result ms s) (by decide)
  · exact fun s => Goes.answered (execTestLogicReset_frame s) (by decide)

end Sys2Proof.Machine
end

section
/-! PROOFS. O19 is refuted: CONFIG.RELOAD ends the Franker, whose target goes back to its default settings. -/

namespace Sys2Proof.Machine

-- One proof after another: side by side they need more memory than a check has.
set_option Elab.async false

/-- The device of `frankerWaits` serves letters, and ADMIN owns mailbox 3. -/
def frankerServes : State := (frankerWaits.put .PST_MB_OWNER_OWNER 3 0x41).put .PST_FW_STAT_READY 0 1

/-- CONFIG.RELOAD of slot 1. -/
def reloadLetter : Letter := ⟨3, 0x0304, 0, 0, 0, 0, [1, 0, 0, 0], none⟩

/-- The device once the letter is answered ACCEPTED. -/
def reloadAccepted : State :=
  frankerServes.serve reloadLetter ⟨.admin, false, false, fixedLen 4⟩ false (svcConfigReload reloadLetter)

theorem permits_frankerServes : frankerServes.fld .SRT_TGT_PERMIT 0 = 0xFFFF := by decide

/-- The load that CONFIG.RELOAD asks for ends the Franker, whose default settings take the permits away (R554). -/
theorem permits_stopFranker_reloadAccepted : reloadAccepted.cancelRegionLoads.stopFranker.fld .SRT_TGT_PERMIT 0 = 0 := by decide +kernel

/-- The operation that CONFIG.RELOAD has begun names slot 1. -/
theorem slot_reloadAccepted : reloadAccepted.svc.ops.getLast?.map (·.args) = some [1] := by decide +kernel

theorem reload_accepted : ¬ reloadAccepted.svc.ops.length ≤ frankerServes.svc.ops.length := by decide +kernel

theorem regionLoads_reloadAccepted : reloadAccepted.cancelRegionLoads.config.regionLoads.isEmpty = true := by decide +kernel

/-- A service that was answered ACCEPTED begins its work from its pending operation. -/
theorem State.serveThen_accepted {s t : State} {L : Letter} {o : Offer} {exempt : Bool} {g : Service} {h : PendingOp → State → State} {op : PendingOp}
    (ht : s.serve L o exempt g = t) (hlen : ¬ t.svc.ops.length ≤ s.svc.ops.length) (hop : t.svc.ops.getLast? = some op) :
    s.serveThen L o exempt g h = h op t := by
  simp only [State.serveThen, ht, if_neg hlen, hop]

/-- A reload asked for while no region load runs ends the Franker and resets the fabric; neither the reset nor the streaming writes SRT_TGT. -/
theorem State.permits_askLoad {s : State} (h : s.cancelRegionLoads.config.regionLoads.isEmpty = true) (slot : Nat) :
    (s.askLoad slot true).fld .SRT_TGT_PERMIT 0 = s.cancelRegionLoads.stopFranker.fld .SRT_TGT_PERMIT 0 := by
  have hload : s.askLoad slot true = ((s.cancelRegionLoads.stopFranker).fabricReset).stream slot slot true := by
    simp only [State.askLoad, if_pos h, State.runLoad, if_true]
  rw [hload]
  exact ((State.goes_stream _ slot slot true).within.1 .SRT_TGT_PERMIT 0 (by decide)).trans ((State.goes_fabricReset _).within.1 .SRT_TGT_PERMIT 0 (by decide))

theorem permitsAfter_configReload : ∃ t, exec (.configReload reloadLetter) frankerServes = .next t ∧ t.fld .SRT_TGT_PERMIT 0 = 0 := by
  obtain ⟨op, hop, -⟩ := Option.map_eq_some_iff.mp slot_reloadAccepted
  refine ⟨reloadAccepted.askLoad (op.args.getD 0 0) true, ?_, ?_⟩
  · exact congrArg Host.Outcome.next (State.serveThen_accepted rfl reload_accepted hop)
  · rw [State.permits_askLoad regionLoads_reloadAccepted, permits_stopFranker_reloadAccepted]

/-- The clause of CONFIG.RELOAD in O19. -/
theorem configReload_of_frameOfServices (h : Obligations.FrameOfServices) (letter : Letter) (s : State) :
    ∃ t : State, exec (.configReload letter) s = .next t ∧ t.fld .SRT_TGT_PERMIT 0 = s.fld .SRT_TGT_PERMIT 0 := by
  obtain ⟨-, -, -, -, hreload, -⟩ := h
  obtain ⟨t, ht, hregs, -⟩ := hreload letter s
  exact ⟨t, ht, hregs .SRT_TGT_PERMIT 0 (by decide)⟩

/-- Refutes O19: CONFIG.RELOAD ends the Franker (R554); SRT_TGT goes back to its default, and the clause of CONFIG.RELOAD does not list it. -/
theorem not_frameOfServices : ¬ Obligations.FrameOfServices := by
  intro h
  obtain ⟨t, ht, hkept⟩ := configReload_of_frameOfServices h reloadLetter frankerServes
  obtain ⟨u, hu, hafter⟩ := permitsAfter_configReload
  cases Host.Outcome.next.inj (ht.symm.trans hu)
  rw [hkept, permits_frankerServes] at hafter
  cases hafter

end Sys2Proof.Machine
end

section
/-! PROOFS. Trained stacks, monitored rails and the end of a fabric reset, O59. -/

namespace Sys2Proof.Machine

-- One proof after another: side by side they need more memory than a check has.
set_option Elab.async false

/-! ### Trained stacks (R315, R318, R491) -/

theorem State.on_put_zero (s : State) (f : Fld) (i : Nat) : (s.put f i 0).on f i = false := by simp [State.on]

/-- A register outside a frame keeps its fields. -/
theorem Goes.onKept {rs : List Reg} {ps : List Part} {s t : State} (h : Goes (mask rs ps) s t) (f : Fld) (i : Nat) (hf : f.spec.reg ∉ rs := by decide) :
    t.on f i = s.on f i := by
  rw [State.on, State.on, h.within.1 f i hf]

/-- The stack's interface is up: it has left self-refresh, and a crossing of its domain is released. -/
def State.stackUp (s : State) (k : Nat) : State := (s.put .MEM_STK_STAT_SELF_REFRESH k 0).crossRelease (18 + k) true

theorem State.stackUp_resets (s : State) (k : Nat) : (s.stackUp k).resets = s.resets :=
  (State.goes_crossRelease _ (18 + k) true).within.2 .resets (by decide)

theorem State.stackUp_selfRefresh (s : State) (k : Nat) : (s.stackUp k).on .MEM_STK_STAT_SELF_REFRESH k = false :=
  ((State.goes_crossRelease _ (18 + k) true).onKept _ _).trans (s.on_put_zero _ _)

theorem State.stackUp_fillDone (s : State) (k : Nat) : (s.stackUp k).on .MEM_STK_STAT_FILL_DONE k = s.on .MEM_STK_STAT_FILL_DONE k :=
  ((State.goes_crossRelease _ (18 + k) true).onKept _ _).trans (s.on_put_ne _ _ _ (by decide))

theorem exec_stackTrained (k : Fin 4) (s : State) (hstage : s.resets.stage = 0) (hfill : s.on .MEM_STK_STAT_FILL_DONE k = false) :
    ∃ first, exec (.stackTrained k) s = .next (if s.resets.lostStacks then s.stackUp k
      else (((s.stackUp k).when first (·.resumeSealing)).put .MEM_STK_STAT_FILL_DONE k 1).serveStack k) := by
  have hruns : ¬ (decide (s.resets.stage ≠ 0) || s.on .MEM_STK_STAT_FILL_DONE k) = true := by simp [hstage, hfill]
  refine ⟨(List.range 4).all fun j => !(s.stackUp k).on .MEM_STK_STAT_FILL_DONE j, congrArg Host.Outcome.next ((if_neg hruns).trans ?_)⟩
  rw [← s.stackUp_resets k]
  rfl

theorem stackTrained_shows (k : Fin 4) (s : State) (hstage : s.resets.stage = 0) (hfill : s.on .MEM_STK_STAT_FILL_DONE k = false) :
    ∃ t, exec (.stackTrained k) s = .next t ∧ t.on .MEM_STK_STAT_SELF_REFRESH k = false ∧
      t.on .MEM_STK_STAT_FILL_DONE k = !s.resets.lostStacks := by
  obtain ⟨first, hexec⟩ := exec_stackTrained k s hstage hfill
  refine ⟨_, hexec, ?_⟩
  cases s.resets.lostStacks with
  | true => exact ⟨s.stackUp_selfRefresh k, (s.stackUp_fillDone k).trans hfill⟩
  | false =>
    have hresumed := (Goes.refl (mask (.SEAL_GRAN :: .SEAL_GRAN_RES :: .SEAL_LINE_STAT :: homeRegs) (.resets :: .svc :: homeParts))
      (s.stackUp k)).when first _ fun t => t.goes_resumeSealing
    have hserved := State.goes_serveStack (((s.stackUp k).when first (·.resumeSealing)).put .MEM_STK_STAT_FILL_DONE k 1) k
    refine ⟨?_, (hserved.onKept .MEM_STK_STAT_FILL_DONE k).trans (State.on_put_one _ _ _ (by decide))⟩
    calc _ = _ := hserved.onKept .MEM_STK_STAT_SELF_REFRESH k
      _ = _ := State.on_put_ne _ _ _ _ (by decide)
      _ = _ := hresumed.onKept .MEM_STK_STAT_SELF_REFRESH k
      _ = false := s.stackUp_selfRefresh k

/-! ### Monitored rails (R462) -/

/-- A point on a side of its window shows on which (1: below, 2: above); leaving it is remembered and raises source 10. -/
theorem State.crossWindow_shows (s : State) (i side : Nat) :
    (s.crossWindow i side).on .PWR_MON_UV i = (side == 1) ∧ (s.crossWindow i side).on .PWR_MON_OV i = (side == 2) ∧
      (side = 1 → (s.crossWindow i side).on .PWR_MON_UV_SEEN i = true ∧ (s.crossWindow i side).pends 10 = true) ∧
      (side = 2 → (s.crossWindow i side).on .PWR_MON_OV_SEEN i = true ∧ (s.crossWindow i side).pends 10 = true) := by
  unfold State.crossWindow
  extract_lets s1 s2
  have hon (b : Bool) (u : State) (f : Fld) (hf : 1 < 2 ^ f.spec.width := by decide) : (u.put f i (b2n b)).on f i = b := by
    cases b <;> simp [State.on, b2n, Nat.mod_eq_of_lt hf]
  have huv : s2.on .PWR_MON_UV i = (side == 1) := (State.on_put_ne _ _ _ _ (by decide)).trans (hon _ _ _)
  have hov : s2.on .PWR_MON_OV i = (side == 2) := hon _ _ _
  have hraised (u : State) (f : Fld) (hf : f.spec.reg = .PWR_MON := by rfl) : (u.raiseOf 10 .PWR_MON i).on f i = u.on f i :=
    (State.goes_raiseWith u 10 _).onKept f i (by rw [hf]; decide)
  by_cases hside : side = 0
  · subst hside
    rw [if_pos rfl]
    exact ⟨huv, hov, by omega, by omega⟩
  · rw [if_neg hside]
    refine ⟨?_, ?_, ?_, ?_⟩
    · exact (hraised _ .PWR_MON_UV).trans ((State.on_put_ne _ _ _ _ (by split <;> decide)).trans huv)
    · exact (hraised _ .PWR_MON_OV).trans ((State.on_put_ne _ _ _ _ (by split <;> decide)).trans hov)
    · rintro rfl
      exact ⟨(hraised _ .PWR_MON_UV_SEEN).trans (State.on_put_one _ _ _ (by decide)), State.pends_raiseWith ..⟩
    · rintro rfl
      exact ⟨(hraised _ .PWR_MON_OV_SEEN).trans (State.on_put_one _ _ _ (by decide)), State.pends_raiseWith ..⟩

/-- A point that passes no deeper threshold, during no brown-out, does no more than cross. -/
theorem exec_monitorCrossing (i : Fin 32) (side : Fin 3) (s : State) (hstage : s.resets.stage ≠ 6) (hbrown : s.resets.brown = false) :
    exec (.monitorCrossing i side false) s = .next (s.crossWindow i side) := by
  have hkept : (s.crossWindow i side).resets = s.resets := (s.goes_crossWindow i side).within.2 .resets (by decide)
  change execMonitorCrossing i side false s = _
  simp [execMonitorCrossing, hstage, State.when, hkept, hbrown]

/-! ### The end of a fabric reset (R492) -/

/-- A fabric reset ends with source 1, which the completion of DEVICE.RESET leaves pending. -/
theorem State.endFabric_ends {s : State} (h : s.resets.fabric = true) : s.endFabric.resets.fabric = false ∧ s.endFabric.pends 1 = true := by
  rw [State.endFabric, if_pos h]
  refine ⟨?_, (State.calm_completeAll _ 0x0105 0 .OK []).pends 1 (State.pends_raiseWith ..)⟩
  have hkept := (State.goes_completeAll (State.raise { s with resets := { s.resets with fabric := false } } 1) 0x0105 0 .OK []).within.2 .resets (by decide)
  have hraised := (State.goes_raise { s with resets := { s.resets with fabric := false } } 1).within.2 .resets (by decide)
  exact congrArg ResetState.fabric (hkept.trans hraised)

/-- Regions that wake leave the reset as it stands. -/
theorem State.wakeAll_resets (s : State) (l : List Nat) : (s.each l fun n t => t.wakeRegion n).resets = s.resets :=
  ((Goes.refl _ s).each l _ fun n t => t.goes_wakeRegion n).within.2 .resets (by decide)

theorem fabricResetDone_ends (s : State) (hfabric : s.resets.fabric = true) (hload : s.config.load = none) (hrestoring : s.restoring = []) :
    ∃ t, exec .fabricResetDone s = .next t ∧ t.resets.fabric = false ∧ t.pends 1 = true := by
  refine ⟨_, rfl, ?_⟩
  rw [if_neg (by simp [hfabric, hload, hrestoring])]
  exact State.endFabric_ends ((congrArg ResetState.fabric (State.wakeAll_resets ..)).trans hfabric)

/-- Settles O59: trained stacks, crossings of a window, and the end of a fabric reset. -/
theorem stacksRailsAndFabricResets : Obligations.StacksRailsAndFabricResets := by
  refine ⟨stackTrained_shows, ?_, fabricResetDone_ends⟩
  intro i side s hstage hbrown
  have hside (k : Fin 3) : (side.val == k.val) = decide (side = k) := by
    rw [beq_eq_decide, decide_eq_decide, Fin.ext_iff]
  obtain ⟨huv, hov, hbelow, habove⟩ := s.crossWindow_shows i side
  refine ⟨_, exec_monitorCrossing i side s hstage hbrown, huv.trans (hside 1), hov.trans (hside 2), fun h => hbelow (by rw [h]; rfl), fun h => habove (by rw [h]; rfl),
    (s.goes_crossWindow i side).within⟩

end Sys2Proof.Machine
end

section
/-! PROOFS. Tables of stacked memory, messages, and what an agent answers to a snoop, O54. -/

namespace Sys2Proof.Machine

-- One proof after another: side by side they need more memory than a check has.
set_option Elab.async false

/-! ### What the tables of stacked memory hold -/

/-- From `s` to `t` stacked memory differs in the messages on their way alone. -/
structure OnlyMsgs (s t : State) : Prop where
  memo : t.memo = { s.memo with wire := t.memo.wire }

namespace OnlyMsgs

variable {s t u : State}

theorem of_memo (h : t.memo = s.memo) : OnlyMsgs s t := ⟨by rw [h]⟩

theorem refl (s : State) : OnlyMsgs s s := of_memo rfl

theorem trans (h : OnlyMsgs s t) (k : OnlyMsgs t u) : OnlyMsgs s u := by
  have hk := k.memo
  rw [h.memo] at hk
  exact ⟨hk⟩

theorem cached (h : OnlyMsgs s t) (a l : Nat) : t.cached a l = s.cached a l :=
  (congrArg (fun m : MemState => Tbl.find CLine.invalid m.caches (cacheKey a l)) h.memo :)

theorem caches (h : OnlyMsgs s t) : t.memo.caches = s.memo.caches := (congrArg MemState.caches h.memo :)

theorem dir (h : OnlyMsgs s t) : t.memo.dir = s.memo.dir := (congrArg MemState.dir h.memo :)

theorem dirAt (h : OnlyMsgs s t) (l : Nat) : t.dirAt l = s.dirAt l := congrArg (Tbl.find DirLine.idle · l) h.dir

theorem portReqs (h : OnlyMsgs s t) (a p : Nat) : t.portReqs a p = s.portReqs a p :=
  (congrArg (fun m : MemState => Tbl.find [] m.ports (a * 16 + p)) h.memo :)

theorem writes (h : OnlyMsgs s t) : t.memo.writes = s.memo.writes := (congrArg MemState.writes h.memo :)

theorem bytes (h : OnlyMsgs s t) : t.memo.bytes = s.memo.bytes := (congrArg MemState.bytes h.memo :)

end OnlyMsgs

/-- A frame without stacked memory. -/
theorem Goes.memo {rs : List Reg} {ps : List Part} {s t : State} (h : Goes (mask rs ps) s t) (hp : Part.memo ∉ ps := by decide) : t.memo = s.memo :=
  h.within.2 .memo hp

theorem State.memo_perf (s : State) (block inst event n : Nat) (x : Option Xfer) : (s.perf block inst event n x).memo = s.memo := (s.goes_perf ..).memo

theorem State.memo_showHome (s : State) (k : Nat) : (s.showHome k).memo = s.memo := (s.goes_showHome k).memo

theorem State.memo_took (s : State) (l : Nat) (r : HomeReq) : (s.took l r).memo = s.memo := (s.goes_took l r).memo

/-! ### Messages on their way (R302) -/

/-- What a message says, wherever it stands. -/
def Msg.text (m : Msg) : MsgKind × Nat × Nat × Nat × Nat := (m.kind, m.who, m.line, m.data, m.aux)

theorem State.sends_iff (s : State) (kind : MsgKind) (who l data aux : Nat) :
    s.Sends kind who l data aux ↔ (kind, who, l, data, aux) ∈ s.memo.wire.map Msg.text := by
  simp only [State.Sends, List.mem_map, Msg.text, Prod.mk.injEq]

/-- A message that enters a crossing queue says what it said. -/
theorem map_text_fillQueue (k : Nat) (toHome runs : Bool) (l : List Msg) (q : XQueue) :
    (fillQueue k toHome runs l q).1.map Msg.text = l.map Msg.text := by
  induction l generalizing q with
  | nil => rfl
  | cons m l ih =>
    rw [fillQueue]
    split <;> simp [ih, Msg.text]

namespace State

theorem onlyMsgs_setWire (s : State) (g : List Msg → List Msg) : OnlyMsgs s (s.setMem fun m => { m with wire := g m.wire }) := ⟨rfl⟩

theorem onlyMsgs_post (s : State) (kind : MsgKind) (who l data aux : Nat) : OnlyMsgs s (s.post kind who l data aux) := ⟨rfl⟩

theorem onlyMsgs_leaveQueue (s : State) (m : Msg) : OnlyMsgs s (s.leaveQueue m) := by
  unfold State.leaveQueue
  extract_lets k c
  split <;> exact ⟨rfl⟩

theorem onlyMsgs_unpost (s : State) (m : Msg) : OnlyMsgs s (s.unpost m) :=
  (s.onlyMsgs_setWire (·.erase m)).trans (onlyMsgs_leaveQueue _ m)

/-- A sent message joins those on their way. -/
theorem sends_post (s : State) (kind : MsgKind) (who l data aux : Nat) : (s.post kind who l data aux).Sends kind who l data aux := by
  rw [sends_iff]
  change _ ∈ (fillQueue ..).1.map Msg.text
  rw [map_text_fillQueue]
  exact List.mem_map.mpr ⟨_, List.mem_append_right _ (List.mem_singleton_self _), rfl⟩

theorem Sends.of_memo {s t : State} {kind : MsgKind} {who l data aux : Nat} (h : s.Sends kind who l data aux) (hm : t.memo.wire = s.memo.wire) :
    t.Sends kind who l data aux := by
  rwa [Sends, hm]

/-! ### Cached lines and the directory -/

theorem cacheKey_inj {a b l k : Nat} (hl : l < 2 ^ 32) (hk : k < 2 ^ 32) (h : cacheKey a l = cacheKey b k) : a = b ∧ l = k := by
  unfold cacheKey at h
  omega

theorem memo_setCached (s : State) (a l : Nat) (x : CLine) :
    (s.setCached a l x).memo = { s.memo with caches := Tbl.set CLine.invalid s.memo.caches (cacheKey a l) x } := by
  unfold State.setCached
  extract_lets s1
  split <;> rfl

@[simp] theorem cached_setCached_same (s : State) (a l : Nat) (x : CLine) : (s.setCached a l x).cached a l = x := by
  rw [State.cached, memo_setCached]
  exact Tbl.find_set_same ..

@[simp] theorem dirAt_setCached (s : State) (a l k : Nat) (x : CLine) : (s.setCached a l x).dirAt k = s.dirAt k := by
  rw [State.dirAt, memo_setCached, State.dirAt]

@[simp] theorem portReqs_setCached (s : State) (a l b p : Nat) (x : CLine) : (s.setCached a l x).portReqs b p = s.portReqs b p := by
  rw [State.portReqs, memo_setCached, State.portReqs]

@[simp] theorem dirAt_setDir_same (s : State) (l : Nat) (d : DirLine) : (s.setDir l d).dirAt l = d := Tbl.find_set_same ..

@[simp] theorem cached_setDir (s : State) (l a k : Nat) (d : DirLine) : (s.setDir l d).cached a k = s.cached a k := rfl

@[simp] theorem cached_post (s : State) (kind : MsgKind) (who l data aux a k : Nat) : (s.post kind who l data aux).cached a k = s.cached a k :=
  (s.onlyMsgs_post ..).cached a k

@[simp] theorem dirAt_post (s : State) (kind : MsgKind) (who l data aux k : Nat) : (s.post kind who l data aux).dirAt k = s.dirAt k :=
  (s.onlyMsgs_post ..).dirAt k

@[simp] theorem portReqs_post (s : State) (kind : MsgKind) (who l data aux a p : Nat) :
    (s.post kind who l data aux).portReqs a p = s.portReqs a p := (s.onlyMsgs_post ..).portReqs a p

@[simp] theorem cached_unpost (s : State) (m : Msg) (a k : Nat) : (s.unpost m).cached a k = s.cached a k := (s.onlyMsgs_unpost m).cached a k

@[simp] theorem dirAt_unpost (s : State) (m : Msg) (k : Nat) : (s.unpost m).dirAt k = s.dirAt k := (s.onlyMsgs_unpost m).dirAt k

@[simp] theorem portReqs_unpost (s : State) (m : Msg) (a p : Nat) : (s.unpost m).portReqs a p = s.portReqs a p := (s.onlyMsgs_unpost m).portReqs a p

theorem cached_of_memo {s t : State} (h : t.memo = s.memo) (a l : Nat) : t.cached a l = s.cached a l := by rw [State.cached, h, State.cached]

theorem dirAt_of_memo {s t : State} (h : t.memo = s.memo) (l : Nat) : t.dirAt l = s.dirAt l := by rw [State.dirAt, h, State.dirAt]

theorem portReqs_of_memo {s t : State} (h : t.memo = s.memo) (a p : Nat) : t.portReqs a p = s.portReqs a p := by
  rw [State.portReqs, h, State.portReqs]

/-! ### Snoops (R302, R305) -/

/-- What a core has written shows in the line that it owns. -/
theorem cached_coreWrote (s : State) (a l : Nat) (wrote : Option (BitVec 512)) :
    (s.coreWrote a l wrote).cached a l = match wrote with
      | some v => if 16 ≤ a && decide (2 ≤ (s.cached a l).st) && !(s.cached a l).wb then ⟨3, v.toNat, false⟩ else s.cached a l
      | none => s.cached a l := by
  unfold State.coreWrote
  cases wrote with
  | none => rfl
  | some v =>
    dsimp only
    split
    · exact cached_setCached_same ..
    · rfl

end State

/-- What an agent answers to a snoop, and what it keeps of the line: `keep` is what the snoop leaves of a state. -/
theorem State.snooped_answers {s : State} {kind : MsgKind} {a l : Nat} {m : Msg} (h : s.comeMsg kind a l = some m) (wrote : Option (BitVec 512))
    (keep : Nat → Nat) (x : CLine) (hx : (s.coreWrote a l wrote).cached a l = x) :
    (if x.wb = true then (s.snooped kind a l wrote keep).Sends (if x.st = 3 then .rspWb else .rspI) a l 0 0
      else if x.st = 0 then (s.snooped kind a l wrote keep).Sends .rspI a l 0 0
      else if x.st = 3 then (s.snooped kind a l wrote keep).Sends .rspData a l x.data 0
      else (s.snooped kind a l wrote keep).Sends (if keep x.st = 0 then .rspI else .rspS) a l 0 0) ∧
    (s.snooped kind a l wrote keep).cached a l =
      if x.wb = true then x else if x.st = 0 then x else if keep x.st = 0 then CLine.invalid else { x with st := keep x.st } := by
  have hline : ((s.unpost m).coreWrote a l wrote).cached a l = x := by
    rw [cached_coreWrote, cached_unpost, ← cached_coreWrote, hx]
  rw [State.snooped, h]
  dsimp only
  rw [hline]
  generalize (s.unpost m).coreWrote a l wrote = t at hline
  by_cases hwb : x.wb = true
  · by_cases h3 : x.st = 3
    · simp [hwb, h3, hline, sends_post]
    · simp [hwb, h3, hline, sends_post]
  · by_cases h0 : x.st = 0
    · simp [hwb, h0, hline, sends_post]
    · by_cases h3 : x.st = 3
      · simp [hwb, h3, sends_post]
      · simp [hwb, h0, h3, sends_post]

/-- Settles O54: the three snoops leave nothing, a shared line, and the line as it was. -/
theorem agentAnswersSnoops : Obligations.AgentAnswersSnoops := by
  intro l a wrote s
  extract_lets n x answer
  refine ⟨fun h => ?_, fun h => ?_, fun h => ?_⟩
  · obtain ⟨m, hm⟩ := Option.isSome_iff_exists.mp h
    obtain ⟨hsends, hheld⟩ := State.snooped_answers hm wrote (fun _ => 0) x rfl
    exact ⟨_, rfl, by simpa using hsends, by simpa using hheld⟩
  · obtain ⟨m, hm⟩ := Option.isSome_iff_exists.mp h
    obtain ⟨hsends, hheld⟩ := State.snooped_answers hm wrote (fun _ => 1) x rfl
    exact ⟨_, rfl, by simpa using hsends, by simpa using hheld⟩
  · obtain ⟨m, hm⟩ := Option.isSome_iff_exists.mp h
    obtain ⟨hsends, hheld⟩ := State.snooped_answers hm wrote (fun st => st) x rfl
    refine ⟨_, rfl, ?_, ?_⟩
    · by_cases h0 : x.st = 0
      · simpa [answer, h0] using hsends
      · simpa [answer, h0] using hsends
    · rw [State.snooped_answers hm wrote (fun st => st) x rfl |>.2]
      split <;> [rfl; split <;> rfl]

end Sys2Proof.Machine
end

section
/-! PROOFS. Homes at which nothing waits, and the answers that they take, O53. -/

namespace Sys2Proof.Machine

-- One proof after another: side by side they need more memory than a check has.
set_option Elab.async false

/-! ### Entries of a table -/

theorem Tbl.mem_of_mem_drop {α : Type} {t : Tbl α} {q : Nat} {e : Nat × α} (h : e ∈ Tbl.drop t q) : e ∈ t := by
  induction t with
  | nil => exact h
  | cons x t ih =>
    rw [Tbl.drop] at h
    split at h
    · exact List.mem_cons_of_mem _ (ih h)
    · exact (List.mem_cons.mp h).elim (fun e => e ▸ List.mem_cons_self ..) fun e => List.mem_cons_of_mem _ (ih e)

theorem Tbl.mem_of_mem_ins {α : Type} {t : Tbl α} {q : Nat} {v : α} {e : Nat × α} (h : e ∈ Tbl.ins t q v) : e = (q, v) ∨ e ∈ t := by
  induction t with
  | nil => exact Or.inl (List.mem_singleton.mp h)
  | cons x t ih =>
    rw [Tbl.ins] at h
    split at h
    · exact List.mem_cons.mp h
    · rcases List.mem_cons.mp h with rfl | h
      · exact Or.inr (List.mem_cons_self ..)
      · exact (ih h).imp_right (List.mem_cons_of_mem _)

/-- An entry of a table after a write is the one written or was there before. -/
theorem Tbl.mem_of_mem_set {α : Type} [DecidableEq α] {d : α} {t : Tbl α} {q : Nat} {v : α} {e : Nat × α} (h : e ∈ Tbl.set d t q v) : e = (q, v) ∨ e ∈ t := by
  unfold Tbl.set at h
  split at h
  · exact Or.inr (Tbl.mem_of_mem_drop h)
  · exact (Tbl.mem_of_mem_ins h).imp_right Tbl.mem_of_mem_drop

theorem Tbl.mem_of_find_ne {α : Type} {d : α} {t : Tbl α} {q : Nat} (h : Tbl.find d t q ≠ d) : (q, Tbl.find d t q) ∈ t := by
  induction t with
  | nil => exact absurd rfl h
  | cons e t ih =>
    rw [Tbl.find] at h ⊢
    split at h
    · next he => rw [if_pos he, ← he]; exact List.mem_cons_self ..
    · next he => rw [if_neg he]; exact List.mem_cons_of_mem _ (ih h)

/-- A request in service with one answer fewer owed. -/
def HomeTxn.answered (x : HomeTxn) (who : Nat) (data : Option Nat) (pending : Bool) : HomeTxn :=
  { x with
    await := x.await.erase who
    wbWait := if pending && !x.viaWb then who :: x.wbWait else x.wbWait
    data := if data.isSome then data else x.data }

/-! ### Homes at which nothing waits -/

namespace State

/-- What waits at the homes is decided by the directory and the writes. -/
theorem HomesRest.of_eq {s t : State} (h : s.HomesRest) (hw : t.memo.writes = s.memo.writes) (hd : t.memo.dir = s.memo.dir) : t.HomesRest := by
  obtain ⟨hwrites, hqueues⟩ := h
  exact ⟨hw.trans hwrites, hd ▸ hqueues⟩

theorem HomesRest.of_onlyMsgs {s t : State} (h : s.HomesRest) (hm : OnlyMsgs s t) : t.HomesRest := h.of_eq hm.writes hm.dir

theorem HomesRest.queue {s : State} (h : s.HomesRest) (l : Nat) : (s.dirAt l).queue = [] := by
  by_cases hidle : s.dirAt l = DirLine.idle
  · rw [hidle]; rfl
  · exact h.2 _ (Tbl.mem_of_find_ne hidle)

theorem HomesRest.setDir {s : State} (h : s.HomesRest) (l : Nat) {d : DirLine} (hd : d.queue = []) : (s.setDir l d).HomesRest :=
  ⟨h.1, fun e he => (Tbl.mem_of_mem_set he).elim (fun e => e ▸ hd) (h.2 e)⟩

theorem pumpWrites_of_rest {s : State} (h : s.memo.writes = []) : s.pumpWrites = s := by
  obtain ⟨⟩ := s
  simp only at h
  simp only [State.pumpWrites, h, pumpFrom, State.setMem]
  rw [← h]

theorem serveSet_of_rest {s : State} (h : s.HomesRest) (l : Nat) : s.serveSet l = s := by
  have hnone : (s.memo.dir.filter fun e => dirSet e.1 == dirSet l && e.1 != l && !e.2.queue.isEmpty) = [] := by
    simp +contextual [List.filter_eq_nil_iff, h.2]
  rw [State.serveSet, hnone]
  rfl

/-- Nothing waits at the homes: a line that has changed has only its stack's counts shown. -/
theorem serveNext_of_rest {s : State} (h : s.HomesRest) {l : Nat} (hg : s.granule (lineGranule l) ≠ 2) : s.serveNext l = s.showHome (lineStack l) := by
  have hstays : s.recallConverting l = s := by simp [State.recallConverting, State.when, hg]
  rw [State.serveNext, hstays, pumpWrites_of_rest h.1, h.queue l, List.length_nil, State.serveLine, serveSet_of_rest h]

theorem serveStack_of_rest {s : State} (h : s.HomesRest) (k : Nat) : s.serveStack k = s.showHome k := by
  have hnone : (s.memo.dir.filter fun e => lineStack e.1 == k && !e.2.queue.isEmpty) = [] := by
    simp +contextual [List.filter_eq_nil_iff, h.2]
  rw [State.serveStack, pumpWrites_of_rest h.1, hnone]
  rfl

/-! ### Answers (R302, R303, R305) -/

/-- An answer while another is owed leaves the request in service, with one answer fewer owed. -/
theorem dirAt_answer {s : State} {l who : Nat} {x : HomeTxn} (hx : (s.dirAt l).txn = some x) (hwho : who ∈ x.await) (hmore : x.await.erase who ≠ [])
    (data : Option Nat) (pending : Bool) : (s.answer l who data pending).dirAt l = { s.dirAt l with txn := some (x.answered who data pending) } := by
  have hcontains : x.await.contains who = true := List.contains_iff_mem.mpr hwho
  have howed : (x.answered who data pending).await.isEmpty = false := by simpa [HomeTxn.answered] using hmore
  simp only [State.answer, hx, hcontains, Bool.not_true, Bool.false_eq_true, if_false]
  rw [State.settleTxn, dirAt_setDir_same]
  change State.dirAt (if ((x.answered who data pending).await.isEmpty && _ && _) = true then _ else _) l = _
  rw [howed]
  exact dirAt_setDir_same ..

theorem dirAt_snoopAnswer {s : State} {kind : MsgKind} {l who : Nat} {m : Msg} {x : HomeTxn} (hm : s.msg kind who l = some m) (hdeaf : s.homeDeaf l = false)
    (hx : (s.dirAt l).txn = some x) (hwho : who ∈ x.await) (hmore : x.await.erase who ≠ []) (pending : Bool) :
    ((s.snoopAnswer kind l who pending).dirAt l).txn = some (x.answered who (if kind = .rspData then some m.data else none) pending) := by
  rw [State.snoopAnswer, hm]
  dsimp only
  rw [hdeaf, if_neg Bool.false_ne_true, dirAt_of_memo (memo_showHome ..), dirAt_answer (by rwa [dirAt_unpost]) hwho hmore]

end State

/-- CMP_ACK at a home at rest ends the request that was granted. -/
theorem homeCmpAck_ends {s : State} {l : BitVec 32} {who : Fin 20} {x : HomeTxn} (hdeaf : s.homeDeaf l.toNat = false) (hx : (s.dirAt l.toNat).txn = some x)
    (hm : (s.msg .cmpAck who l.toNat).isSome = true) (hgranted : x.granted = true) (hrest : s.HomesRest) (hg : s.granule (lineGranule l.toNat) ≠ 2) :
    ∃ t, exec (.homeCmpAck l who) s = .next t ∧ t.dirAt l.toNat = { s.dirAt l.toNat with txn := none } := by
  obtain ⟨m, hm⟩ := Option.isSome_iff_exists.mp hm
  have hfreed : ((s.unpost m).setDir l.toNat { s.dirAt l.toNat with txn := none }).HomesRest :=
    (hrest.of_onlyMsgs (s.onlyMsgs_unpost m)).setDir _ (hrest.queue _)
  have hplain : ((s.unpost m).setDir l.toNat { s.dirAt l.toNat with txn := none }).granule (lineGranule l.toNat) ≠ 2 := by
    rwa [State.granule, ((s.goes_unpost m).trans ((State.goes_setDir ..).lift (by decide))).within.1 .SEAL_GRAN_STATE _ (by decide)]
  refine ⟨_, rfl, ?_⟩
  simp only [hm, hdeaf, State.dirAt_unpost, hx, hgranted, Bool.false_eq_true, if_false, if_true]
  rw [State.serveNext_of_rest hfreed hplain, State.dirAt_of_memo (State.memo_showHome ..), State.dirAt_setDir_same]

/-- Settles O53: an answer leaves the others owed, so nothing is granted, and CMP_ACK ends the request. -/
theorem homeTakesAnswers : Obligations.HomeTakesAnswers := by
  intro l who s x hdeaf hx
  extract_lets n
  refine ⟨fun hwho hmore => ⟨fun hm => ?_, fun hm => ?_, fun m hm => ?_, fun hm => ?_⟩, homeCmpAck_ends hdeaf hx⟩
  · obtain ⟨m, hm⟩ := Option.isSome_iff_exists.mp hm
    exact ⟨_, rfl, State.dirAt_snoopAnswer hm hdeaf hx hwho hmore false⟩
  · obtain ⟨m, hm⟩ := Option.isSome_iff_exists.mp hm
    exact ⟨_, rfl, State.dirAt_snoopAnswer hm hdeaf hx hwho hmore false⟩
  · exact ⟨_, rfl, State.dirAt_snoopAnswer hm hdeaf hx hwho hmore false⟩
  · obtain ⟨m, hm⟩ := Option.isSome_iff_exists.mp hm
    refine ⟨_, rfl, (State.dirAt_snoopAnswer hm hdeaf hx hwho hmore true).trans ?_⟩
    cases hvia : x.viaWb <;> simp [HomeTxn.answered, hvia]

end Sys2Proof.Machine
end

section
/-! PROOFS. Values of lines, and lines that their owners give up, O52. -/

namespace Sys2Proof.Machine

-- One proof after another: side by side they need more memory than a check has.
set_option Elab.async false

/-! ### Lines and their values -/

/-- What decides a line's value: its bytes, the seal engines, and the granules' states and epochs. -/
theorem Goes.lineAt {rs : List Reg} {ps : List Part} {s t : State} (h : Goes (mask rs ps) s t) (hb : t.memo.bytes = s.memo.bytes)
    (hr : Reg.SEAL_GRAN ∉ rs := by decide) (hp : Part.seals ∉ ps := by decide) (l : Nat) : t.lineAt l = s.lineAt l := by
  have hseals : t.seals = s.seals := h.within.2 .seals hp
  have hepoch (g : Nat) : t.fld .SEAL_GRAN_EPOCH g = s.fld .SEAL_GRAN_EPOCH g := h.within.1 .SEAL_GRAN_EPOCH g hr
  have hstate (g : Nat) : t.fld .SEAL_GRAN_STATE g = s.fld .SEAL_GRAN_STATE g := h.within.1 .SEAL_GRAN_STATE g hr
  have hraw : t.rawLine l = s.rawLine l := by rw [State.rawLine, hb, State.rawLine]
  have hkey (k j : Nat) : t.sealKey k j = s.sealKey k j := by rw [State.sealKey, hseals, State.sealKey]
  have hnonce : t.lineNonce l = s.lineNonce l := by rw [State.lineNonce, hseals, hepoch, State.lineNonce]
  have hencrypt (v : Nat) : t.encryptLine l v = s.encryptLine l v := by simp only [State.encryptLine, hkey, hnonce]
  have hline : t.sealedLine l = s.sealedLine l := by rw [State.sealedLine, hseals, hraw, hencrypt, State.sealedLine]
  have hdecrypt (c : Nat) : t.decryptLine l c = s.decryptLine l c := by simp only [State.decryptLine, hkey, hnonce]
  rw [State.lineAt, State.isSealed, State.granule, hstate, hline, hdecrypt, hraw]
  rfl

theorem Goes.granule {rs : List Reg} {ps : List Part} {s t : State} (h : Goes (mask rs ps) s t) (g : Nat) (hr : Reg.SEAL_GRAN ∉ rs := by decide) :
    t.granule g = s.granule g := h.within.1 .SEAL_GRAN_STATE g hr

theorem Goes.homeDeaf {rs : List Reg} {ps : List Part} {s t : State} (h : Goes (mask rs ps) s t) (l : Nat)
    (hr : Reg.DEV_ISL_RUN ∉ rs ∧ Reg.DEV_ISL_HELD ∉ rs ∧ Reg.MEM_STK_STAT ∉ rs := by decide) : t.homeDeaf l = s.homeDeaf l := by
  obtain ⟨hrun, hheld, hstat⟩ := hr
  simp only [State.homeDeaf, State.domainWaits, State.runs, State.isHeld, State.on, h.within.1 .DEV_ISL_RUN_RUN 0 hrun,
    h.within.1 .DEV_ISL_HELD_HELD 0 hheld, h.within.1 .MEM_STK_STAT_RESYNC _ hstat]

namespace State

theorem lineAt_post (s : State) (kind : MsgKind) (who l data aux k : Nat) : (s.post kind who l data aux).lineAt k = s.lineAt k :=
  (s.goes_post ..).lineAt (s.onlyMsgs_post ..).bytes (l := k)

theorem lineAt_unpost (s : State) (m : Msg) (k : Nat) : (s.unpost m).lineAt k = s.lineAt k :=
  (s.goes_unpost m).lineAt (s.onlyMsgs_unpost m).bytes (l := k)

theorem lineAt_setDir (s : State) (l k : Nat) (d : DirLine) : (s.setDir l d).lineAt k = s.lineAt k := rfl

theorem lineAt_setCached (s : State) (a l k : Nat) (x : CLine) : (s.setCached a l x).lineAt k = s.lineAt k :=
  (s.goes_setCached ..).lineAt (by rw [memo_setCached]) (l := k)

theorem lineAt_showHome (s : State) (j k : Nat) : (s.showHome j).lineAt k = s.lineAt k :=
  (s.goes_showHome j).lineAt (congrArg MemState.bytes (s.memo_showHome j)) (l := k)

theorem isSealed_of_granule {s : State} {l : Nat} (h : s.granule (lineGranule l) = 0) : s.isSealed l = false := by simp [State.isSealed, h]

/-- A write of a line in a PLAIN granule replaces it, clears its failure and ends with status 0. -/
theorem memWrite_plain {s : State} {l : Nat} (h : s.isSealed l = false) (v : Nat) (t : Touch) (x : Option Xfer) :
    s.memWrite l v t x = (((s.perf 3 (lineStack l) 2 1 x).setSeal fun z => { z with failing := Tbl.set 0 z.failing l 0 }).putLine l v, 0) := by
  have hperf : (s.perf 3 (lineStack l) 2 1 x).isSealed l = false := by
    rwa [State.isSealed, (s.goes_perf ..).granule]
  rw [State.memWrite, hperf]
  rfl

theorem memo_putLine (s : State) (l v : Nat) : (s.putLine l v).memo = { s.memo with bytes := (s.putLine l v).memo.bytes } := by
  unfold State.putLine
  split <;> rfl

theorem granule_putLine (s : State) (l v g : Nat) : (s.putLine l v).granule g = s.granule g := by
  unfold State.putLine
  split <;> rfl

/-! ### Owners give up their lines (R303, R305) -/

/-- Agent `who` owns line `l` of a PLAIN granule, of which no request is in service, and nothing waits at the homes. -/
structure OwnedBy (s : State) (l who : Nat) : Prop where
  rest : s.HomesRest
  txn : (s.dirAt l).txn = none
  st : (s.dirAt l).st = 2
  owner : (s.dirAt l).owner = who
  plain : s.granule (lineGranule l) = 0

namespace OwnedBy

variable {s t : State} {l who : Nat}

theorem of_eq (h : s.OwnedBy l who) (hrest : t.HomesRest) (hd : t.dirAt l = s.dirAt l) (hg : t.granule (lineGranule l) = s.granule (lineGranule l)) :
    t.OwnedBy l who := ⟨hrest, hd ▸ h.txn, hd ▸ h.st, hd ▸ h.owner, hg.trans h.plain⟩

theorem unpost (h : s.OwnedBy l who) (m : Msg) : (s.unpost m).OwnedBy l who :=
  h.of_eq (h.rest.of_onlyMsgs (s.onlyMsgs_unpost m)) (s.dirAt_unpost m l) ((s.goes_unpost m).granule _)

theorem setCached (h : s.OwnedBy l who) (a k : Nat) (x : CLine) : (s.setCached a k x).OwnedBy l who :=
  h.of_eq (h.rest.of_eq (by rw [memo_setCached]) (by rw [memo_setCached])) (s.dirAt_setCached a k l x) ((s.goes_setCached ..).granule _)

/-- No other request comes with the message. -/
theorem takeIn_nil (h : s.OwnedBy l who) : (s.takeIn l []).OwnedBy l who := by
  have htaken : s.takeIn l [] = (s.setMem fun m => { m with ptr := Tbl.set 0 m.ptr (sliceKey l) (Tbl.find 0 s.memo.ptr (sliceKey l)) }).setDir l
      { s.dirAt l with queue := (s.dirAt l).queue ++ [] } := by
    simp only [State.takeIn, List.foldl_nil, List.take_nil, List.drop_nil]
    rfl
  rw [htaken, List.append_nil]
  exact h.of_eq (h.rest.of_eq rfl rfl |>.setDir _ (h.rest.queue l)) (dirAt_setDir_same ..) rfl

/-- The state once a writeback's data is written. -/
theorem write (h : s.OwnedBy l who) (v : Nat) (x : Option Xfer) : (s.memWrite l v Touch.clean x).1.OwnedBy l who := by
  rw [memWrite_plain (isSealed_of_granule h.plain)]
  have hmemo := State.memo_putLine ((s.perf 3 (lineStack l) 2 1 x).setSeal fun z => { z with failing := Tbl.set 0 z.failing l 0 }) l v
  have hperf := s.memo_perf 3 (lineStack l) 2 1 x
  have hdir : (((s.perf 3 (lineStack l) 2 1 x).setSeal fun z => { z with failing := Tbl.set 0 z.failing l 0 }).putLine l v).memo.dir = s.memo.dir :=
    (congrArg MemState.dir hmemo :).trans (congrArg MemState.dir hperf :)
  refine h.of_eq (h.rest.of_eq ((congrArg MemState.writes hmemo :).trans (congrArg MemState.writes hperf :)) hdir)
    (congrArg (Tbl.find DirLine.idle · l) hdir) ?_
  exact (granule_putLine ..).trans ((s.goes_perf ..).granule _)

end OwnedBy

/-- An owner at rest gives its line up: the line is UNCACHED, and WB_ACK goes to the agent. -/
theorem giveUp_ends {s u : State} {l who : Nat} {data : Option Nat} (h : s.OwnedBy l who) (hu : u.OwnedBy l who)
    (hwritten : u = match data with
      | some v => (s.memWrite l v Touch.clean (some ⟨who, 0, l⟩)).1
      | none => s) :
    let t := (s.giveUp l who data).serveNext l
    t.lineAt l = u.lineAt l ∧ (t.dirAt l).st = 0 ∧ (t.dirAt l).txn = none ∧ t.Sends .wbAck who l 0 0 := by
  extract_lets t
  have hgiven : s.giveUp l who data = (u.post .wbAck who l 0 0).setDir l (u.dirAt l).freed := by
    have howner : ¬ ((decide ((s.dirAt l).st ≠ 2) || decide ((s.dirAt l).owner ≠ who)) = true) := by simp [h.st, h.owner]
    have hqueue := hu.rest.queue l
    cases data with
    | none =>
      subst hwritten
      simp only [State.giveUp, if_neg howner, hu.txn]
    | some v =>
      simp only [State.giveUp, if_neg howner, h.txn, Option.map_none, Option.getD_none, Bool.false_eq_true, if_false, ← hwritten, hu.txn, hqueue]
  have hfreed : ((u.post .wbAck who l 0 0).setDir l (u.dirAt l).freed).HomesRest :=
    (hu.rest.of_onlyMsgs (u.onlyMsgs_post ..)).setDir l (hu.rest.queue l)
  have hplain : ((u.post .wbAck who l 0 0).setDir l (u.dirAt l).freed).granule (lineGranule l) ≠ 2 := by
    have hkept : ((u.post .wbAck who l 0 0).setDir l (u.dirAt l).freed).granule (lineGranule l) = u.granule (lineGranule l) :=
      (u.goes_post .wbAck who l 0 0).granule _
    rw [hkept, hu.plain]
    decide
  have hshown : t = ((u.post .wbAck who l 0 0).setDir l (u.dirAt l).freed).showHome (lineStack l) := by
    rw [← serveNext_of_rest hfreed hplain, ← hgiven]
  have hdir : t.dirAt l = (u.dirAt l).freed := by
    rw [hshown, dirAt_of_memo (memo_showHome ..), dirAt_setDir_same]
  refine ⟨?_, by rw [hdir]; rfl, by rw [hdir]; exact hu.txn, ?_⟩
  · rw [hshown, lineAt_showHome, lineAt_setDir, lineAt_post]
  · rw [hshown]
    exact (u.sends_post .wbAck who l 0 0).of_memo (congrArg MemState.wire (memo_showHome (setDir ..) _) :)

theorem giveUp_data {s : State} {l who : Nat} (h : s.OwnedBy l who) {v : Nat} (hv : v < 2 ^ 512) :
    let t := (s.giveUp l who (some v)).serveNext l
    t.lineAt l = v ∧ (t.dirAt l).st = 0 ∧ (t.dirAt l).txn = none ∧ t.Sends .wbAck who l 0 0 := by
  obtain ⟨hline, hrest⟩ := giveUp_ends (data := some v) h (h.write v (some ⟨who, 0, l⟩)) rfl
  refine ⟨hline.trans ?_, hrest⟩
  rw [memWrite_plain (isSealed_of_granule h.plain)]
  exact lineAt_putLine_same _ l hv

end State

/-- Settles O52: by the message of the agent, or by a core's command. -/
theorem homeTakesBackLines : Obligations.HomeTakesBackLines := by
  intro l who data s hrest hdeaf htxn hst howner hg
  extract_lets n
  change s.homeDeaf n = false at hdeaf
  have howned : s.OwnedBy n who := ⟨hrest, htxn, hst, howner, hg⟩
  have hcore (x : CLine) : (if (s.cached who n).st = 0 then s else s.setCached who n x).OwnedBy n who ∧
      (if (s.cached who n).st = 0 then s else s.setCached who n x).homeDeaf n = false ∧
      (if (s.cached who n).st = 0 then s else s.setCached who n x).lineAt n = s.lineAt n := by
    split
    · exact ⟨howned, hdeaf, rfl⟩
    · exact ⟨howned.setCached .., ((s.goes_setCached ..).homeDeaf n).trans hdeaf, s.lineAt_setCached ..⟩
  refine ⟨fun v hv hdata => ?_, fun hevict => ?_⟩
  · obtain ⟨m, hm, rfl⟩ | ⟨hm, hwho, rfl⟩ := hdata
    · refine ⟨_, rfl, ?_⟩
      simp only [show l.toNat = n from rfl, hm, hdeaf, Bool.false_eq_true, if_false]
      exact State.giveUp_data (howned.unpost m).takeIn_nil hv
    · obtain ⟨hcowned, hcdeaf, -⟩ := hcore ⟨3, data.toNat, true⟩
      refine ⟨_, rfl, ?_⟩
      simp only [show l.toNat = n from rfl, hm, show ¬ who.val < 16 by omega, hcdeaf, Bool.false_eq_true, if_false]
      exact State.giveUp_data hcowned.takeIn_nil hv
  · obtain ⟨m, hm⟩ | ⟨hm, hwho⟩ := hevict
    · refine ⟨_, rfl, ?_⟩
      simp only [show l.toNat = n from rfl, hm, hdeaf, Bool.false_eq_true, if_false]
      obtain ⟨hline, hends⟩ := State.giveUp_ends (data := none) (howned.unpost m) (howned.unpost m) rfl
      exact ⟨hline.trans (s.lineAt_unpost m n), hends⟩
    · obtain ⟨hcowned, hcdeaf, hcline⟩ := hcore { s.cached who n with wb := true }
      refine ⟨_, rfl, ?_⟩
      simp only [show l.toNat = n from rfl, hm, show ¬ who.val < 16 by omega, hcdeaf, Bool.false_eq_true, if_false]
      obtain ⟨hline, hends⟩ := State.giveUp_ends (data := none) hcowned hcowned rfl
      exact ⟨hline.trans hcline, hends⟩

end Sys2Proof.Machine
end

section
/-! PROOFS. Requests for lines that no agent holds, O51. -/

namespace Sys2Proof.Machine

-- One proof after another: side by side they need more memory than a check has.
set_option Elab.async false

/-! ### Entries of a table that a choice leaves out -/

theorem Tbl.filter_ins {α : Type} {p : Nat × α → Bool} {q : Nat} {v : α} (h : p (q, v) = false) (t : Tbl α) : (Tbl.ins t q v).filter p = t.filter p := by
  induction t with
  | nil => simp [Tbl.ins, h]
  | cons e t ih =>
    rw [Tbl.ins]
    split
    · rw [List.filter_cons_of_neg (by simp [h])]
    · rw [List.filter_cons, ih, List.filter_cons]

theorem Tbl.drop_sublist {α : Type} (t : Tbl α) (q : Nat) : (Tbl.drop t q).Sublist t := by
  induction t with
  | nil => exact List.Sublist.refl _
  | cons e t ih =>
    rw [Tbl.drop]
    split
    · exact ih.cons _
    · exact ih.cons_cons _

/-- A write of an entry that is not chosen adds none. -/
theorem Tbl.length_filter_set_le {α : Type} [DecidableEq α] {p : Nat × α → Bool} {q : Nat} {v : α} (h : p (q, v) = false) (d : α) (t : Tbl α) :
    ((Tbl.set d t q v).filter p).length ≤ (t.filter p).length := by
  unfold Tbl.set
  split
  · exact ((Tbl.drop_sublist t q).filter p).length_le
  · rw [Tbl.filter_ins h]
    exact ((Tbl.drop_sublist t q).filter p).length_le

/-! ### Merged lines -/

theorem mergeLine_add_le (old new mask n k : Nat) : mergeLine old new mask n k + 256 ^ k ≤ 256 ^ (k + n) := by
  induction n generalizing k with
  | zero => simp [mergeLine]
  | succ n ih =>
    rw [mergeLine]
    have hbyte : (if bitOf mask k then new / 256 ^ k % 256 else old / 256 ^ k % 256) ≤ 255 := by split <;> omega
    have hfirst := Nat.mul_le_mul_right (256 ^ k) (Nat.succ_le_succ hbyte)
    have hrest := ih (k + 1)
    rw [show k + 1 + n = k + (n + 1) by omega, Nat.pow_succ' (n := k)] at hrest
    rw [Nat.succ_mul] at hfirst
    omega

/-- A merged line is a line's value. -/
theorem mergeLine_lt (old new mask : Nat) : mergeLine old new mask 64 0 < 2 ^ 512 := by
  have h := mergeLine_add_le old new mask 64 0
  rw [show (256 : Nat) ^ (0 + 64) = 2 ^ 512 from (pow_mul 2 8 64).symm] at h
  omega

theorem bitOf_fullMask {k : Nat} (h : k < 64) : bitOf fullMask k = true := by
  rw [bitOf, fullMask, Nat.testBit_two_pow_sub_one]
  simpa using h

/-- A write of every byte leaves nothing of what was there. -/
theorem mergeLine_fullMask (old old' new : Nat) {n k : Nat} (h : k + n ≤ 64) : mergeLine old new fullMask n k = mergeLine old' new fullMask n k := by
  induction n generalizing k with
  | zero => rfl
  | succ n ih =>
    rw [mergeLine, mergeLine, ih (by omega), bitOf_fullMask (by omega)]
    rfl

theorem Goes.homeOpen {rs : List Reg} {ps : List Part} {s t : State} (h : Goes (mask rs ps) s t) (l : Nat)
    (hr : Reg.DEV_ISL_RUN ∉ rs ∧ Reg.DEV_ISL_HELD ∉ rs ∧ Reg.MEM_STK_STAT ∉ rs ∧ Reg.SEAL_GRAN ∉ rs := by decide)
    (hp : Part.secure ∉ ps := by decide) : t.homeOpen l = s.homeOpen l := by
  obtain ⟨hrun, hheld, hstat, hgran⟩ := hr
  have hsecure : t.secure = s.secure := h.within.2 .secure hp
  simp only [State.homeOpen, State.runs, State.isHeld, State.on, h.within.1 .DEV_ISL_RUN_RUN 0 hrun, h.within.1 .DEV_ISL_HELD_HELD 0 hheld,
    h.within.1 .MEM_STK_STAT_RESYNC _ hstat, h.within.1 .MEM_STK_STAT_FILL_DONE _ hstat, h.granule _ hgran, hsecure]

namespace State

/-! ### A request for a line that no agent holds (R303) -/

/-- A request goes on only in what it is. -/
theorem arrived_eq {s s1 : State} {l : Nat} {r q : HomeReq} (h : s.arrived l r = some (s1, q)) :
    OnlyMsgs s s1 ∧ Goes (mask [] [.crossings, .memo]) s s1 ∧ q.kind = r.kind ∧ q.who = r.who ∧ q.touch = r.touch := by
  unfold State.arrived at h
  split at h
  · cases h
    exact ⟨s.onlyMsgs_unpost _, s.goes_unpost _, rfl, rfl, rfl⟩
  · split at h
    · cases h
    · split at h
      · cases h
      · cases h
        exact ⟨.refl s, .refl _ s, rfl, rfl, rfl⟩

/-- Line `l` of a PLAIN granule, which can be read and no agent holds; nothing waits at the homes. -/
structure Uncached (s : State) (l : Nat) : Prop where
  rest : s.HomesRest
  idle : s.dirAt l = DirLine.idle
  plain : s.isSealed l = false
  sound : Tbl.find 0 s.seals.failing l = 0

theorem memRead_plain {s : State} {l : Nat} (h : s.isSealed l = false) (hsound : Tbl.find 0 s.seals.failing l = 0) {t : Touch} (ht : t.ecc = .clean)
    (x : Option Xfer) : s.memRead l t x = (s.perf 3 (lineStack l) 1 1 x, 0, s.lineAt l) := by
  have hgoes := s.goes_perf 3 (lineStack l) 1 1 x
  have hseals : (s.perf 3 (lineStack l) 1 1 x).seals = s.seals := hgoes.within.2 .seals (by decide)
  have hperf : (s.perf 3 (lineStack l) 1 1 x).isSealed l = false := by rwa [State.isSealed, hgoes.granule]
  have hline : (s.perf 3 (lineStack l) 1 1 x).lineAt l = s.lineAt l := hgoes.lineAt (congrArg MemState.bytes hgoes.memo) (l := l)
  simp [State.memRead, hperf, State.when, ht, hseals, hsound, hline]

theorem fetch_uncached {s : State} {l : Nat} (h : s.Uncached l) {r : HomeReq} (hr : r.touch.ecc = .clean) :
    s.fetch l r none = (s.perf 3 (lineStack l) 1 1 (r.xfer l), 0, s.lineAt l) := memRead_plain h.plain h.sound hr _

theorem Uncached.perf {s : State} {l : Nat} (h : s.Uncached l) (block inst event n : Nat) (x : Option Xfer) : (s.perf block inst event n x).Uncached l := by
  have hgoes := s.goes_perf block inst event n x
  have hseals : (s.perf block inst event n x).seals = s.seals := hgoes.within.2 .seals (by decide)
  exact ⟨h.rest.of_onlyMsgs (.of_memo hgoes.memo), (dirAt_of_memo hgoes.memo l).trans h.idle, (congrArg (· == 1) (hgoes.granule _)).trans h.plain,
    hseals ▸ h.sound⟩

theorem Uncached.memWrite {s : State} {l : Nat} (h : s.Uncached l) (v : Nat) (t : Touch) (x : Option Xfer) : (s.memWrite l v t x).1.Uncached l := by
  rw [memWrite_plain h.plain]
  have hperf := h.perf 3 (lineStack l) 2 1 x
  let cleared : State := (s.perf 3 (lineStack l) 2 1 x).setSeal fun z => { z with failing := Tbl.set 0 z.failing l 0 }
  have hmemo : (cleared.putLine l v).memo = { cleared.memo with bytes := (cleared.putLine l v).memo.bytes } := cleared.memo_putLine l v
  refine ⟨hperf.rest.of_eq (congrArg MemState.writes hmemo :) (congrArg MemState.dir hmemo :),
    (congrArg (fun m : MemState => Tbl.find DirLine.idle m.dir l) hmemo :).trans hperf.idle, (cleared.isSealed_putLine l v l).trans hperf.plain, ?_⟩
  have hfailing : (cleared.putLine l v).seals.failing = cleared.seals.failing := by
    unfold State.putLine
    split <;> rfl
  rw [hfailing]
  exact Tbl.find_set_same 0 (s.perf 3 (lineStack l) 2 1 x).seals.failing l 0

theorem Uncached.took {s : State} {l : Nat} (h : s.Uncached l) (k : Nat) (r : HomeReq) : (s.took k r).Uncached l := by
  unfold State.took State.when
  extract_lets core
  split
  · exact (h.perf ..).perf ..
  · exact h.perf ..

theorem lineAt_perf (s : State) (block inst event n : Nat) (x : Option Xfer) (k : Nat) : (s.perf block inst event n x).lineAt k = s.lineAt k :=
  (s.goes_perf ..).lineAt (congrArg MemState.bytes (s.memo_perf ..)) (l := k)

/-- A line that no agent held is granted: the directory, the message and the line's value. -/
theorem grant_uncached {s : State} {l : Nat} (h : s.Uncached l) (r : HomeReq) (msg : MsgKind) (data aux st : Nat) (sharers : List Nat) (owner : Nat) :
    let t := s.grant l r msg data aux st sharers owner
    t.HomesRest ∧ t.lineAt l = s.lineAt l ∧ t.Sends msg r.who l data aux ∧
      ∃ born, t.dirAt l = ⟨st, sharers, owner, born, some ⟨some r, false, [], [], none, false, true, false⟩, []⟩ := by
  extract_lets t
  let counted : State := s.setMem fun m => { m with born := m.born + 1 }
  have hcounted : counted.HomesRest := h.rest.of_eq rfl rfl
  have ht : t = (counted.setDir l ⟨st, sharers, owner, s.memo.born + 1, some ⟨some r, false, [], [], none, false, true, false⟩, []⟩).post msg r.who
      l data aux := by
    simp only [t, State.grant, h.idle]
    rfl
  rw [ht]
  exact ⟨(hcounted.setDir l rfl).of_onlyMsgs (onlyMsgs_post _ msg r.who l data aux), lineAt_post _ msg r.who l data aux l, sends_post ..,
    s.memo.born + 1, (dirAt_post ..).trans (dirAt_setDir_same ..)⟩

/-- A request that grants nothing ends with its message. -/
theorem finishNoGrant_rest {s : State} {l : Nat} (h : s.HomesRest) (r : HomeReq) (msg : MsgKind) (data status : Nat) :
    let t := s.finishNoGrant l r msg data status
    t.HomesRest ∧ t.lineAt l = s.lineAt l ∧ t.Sends msg r.who l data status ∧ t.dirAt l = { s.dirAt l with txn := none } := by
  have hended : (s.setDir l { s.dirAt l with txn := none }).HomesRest := h.setDir l (h.queue l)
  exact ⟨hended.of_onlyMsgs (onlyMsgs_post _ msg r.who l data status), lineAt_post _ msg r.who l data status l, sends_post ..,
    (dirAt_post ..).trans (dirAt_setDir_same ..)⟩

theorem sliceWaiting_of_rest {s : State} (h : s.HomesRest) (l : Nat) : s.sliceWaiting l = 0 := by
  have hzero (es : List (Nat × DirLine)) (hes : ∀ e ∈ es, e.2.queue = []) : es.foldl (fun n e => n + e.2.queue.length) 0 = 0 := by
    induction es with
    | nil => rfl
    | cons e es ih => simpa [hes e (List.mem_cons_self ..)] using ih fun x hx => hes x (List.mem_cons_of_mem _ hx)
  exact hzero _ fun e he => h.2 e (List.mem_filter.mp he).1

/-- A request at a home at rest joins the empty queue of its line. -/
theorem takeIn_single {s s1 : State} {l : Nat} {r q : HomeReq} (hrest : s.HomesRest) (h : s.arrived l r = some (s1, q)) :
    s.takeIn l [r] = (s1.setMem fun m => { m with ptr := Tbl.set 0 m.ptr (sliceKey l) (Tbl.find 0 s1.memo.ptr (sliceKey l)) }).setDir l
      { s1.dirAt l with queue := (s1.dirAt l).queue ++ [q] } := by
  have hgather : s.gather l [r] = (s1, [q]) := by simp only [State.gather, h]
  have hall : ([r] : List HomeReq).take (64 - s.sliceWaiting l) = [r] ∧ ([r] : List HomeReq).drop (64 - s.sliceWaiting l) = [] := by
    rw [sliceWaiting_of_rest hrest]
    exact ⟨rfl, rfl⟩
  simp only [State.takeIn, List.foldl_cons, List.foldl_nil, insertRot, hall.1, hall.2, State.enqueue, hgather]
  rfl

/-- A home serves the one request that waits for an uncached line, where its set has room. -/
theorem serveLine_single {s : State} {l : Nat} {q : HomeReq} (hd : s.dirAt l = { DirLine.idle with queue := [q] }) (hopen : s.homeOpen l = true)
    (hroom : (s.setEntries l).length < 16) (n : Nat) :
    State.serveLine (n + 1) s l = State.serveLine n (((s.setDir l DirLine.idle).took l q).beginReq l q none) l := by
  have hfits : ¬ (16 ≤ (s.setEntries l).length) := by omega
  rw [State.serveLine]
  simp only [hd, hopen, hfits, decide_false, Bool.and_false, Bool.not_true, Bool.false_eq_true, if_false, DirLine.idle]

/-- The request of a home at rest for an uncached line is begun alone, and nothing follows it. -/
theorem request_uncached {s s1 : State} {l : Nat} {r q : HomeReq} (hrest : s.HomesRest) (hopen : s.homeOpen l = true) (hidle : s.dirAt l = DirLine.idle)
    (hroom : (s.setEntries l).length < 16) (hplain : s.isSealed l = false) (hsound : Tbl.find 0 s.seals.failing l = 0)
    (h : s.arrived l r = some (s1, q)) :
    ∃ t : State, t.Uncached l ∧ t.lineAt l = s.lineAt l ∧ ((t.beginReq l q none).HomesRest →
      s.request l [r] = (t.beginReq l q none).showHome (lineStack l)) := by
  obtain ⟨honly, hgoes, -, -, -⟩ := arrived_eq h
  have hidle1 : s1.dirAt l = DirLine.idle := (honly.dirAt l).trans hidle
  let queued : State := (s1.setMem fun m => { m with ptr := Tbl.set 0 m.ptr (sliceKey l) (Tbl.find 0 s1.memo.ptr (sliceKey l)) }).setDir l
    { DirLine.idle with queue := [q] }
  have htaken : s.takeIn l [r] = queued := by rw [takeIn_single hrest h, hidle1]; rfl
  have hgq : Goes (mask [] [.crossings, .memo]) s queued :=
    (hgoes.step (goes_setMem s1 _) (by decide)).step (goes_setDir _ l _) (by decide)
  have hserves : s.domainWaits (some (18 + lineStack l)) = false ∧ s.granule (lineGranule l) ≠ 2 := by
    simp only [State.homeOpen, Bool.and_eq_true, Bool.not_eq_true', bne_iff_ne] at hopen
    obtain ⟨⟨⟨⟨⟨-, hruns⟩, hheld⟩, -⟩, -⟩, hgranule⟩ := hopen
    exact ⟨by simp [State.domainWaits, hruns, hheld], hgranule⟩
  have hstays : queued.recallConverting l = queued := by simp [State.recallConverting, State.when, hgq.granule, hserves.2]
  have hdq : queued.dirAt l = { DirLine.idle with queue := [q] } := dirAt_setDir_same ..
  have hdir : queued.memo.dir = Tbl.set DirLine.idle s.memo.dir l { DirLine.idle with queue := [q] } := by rw [← honly.dir]; rfl
  have hwrites : queued.memo.writes = [] := honly.writes.trans hrest.1
  have hroomq : (queued.setEntries l).length < 16 := by
    rw [State.setEntries, hdir]
    exact lt_of_le_of_lt (Tbl.length_filter_set_le (by simp [DirLine.idle]) DirLine.idle s.memo.dir) hroom
  have hempty : (queued.setDir l DirLine.idle).HomesRest := by
    refine ⟨hwrites, fun e he => ?_⟩
    have hdropped : e ∈ Tbl.drop queued.memo.dir l := by simpa [State.setDir, State.setMem, Tbl.set] using he
    have hset := Tbl.mem_of_mem_drop hdropped
    rw [hdir] at hset
    rcases Tbl.mem_of_mem_set hset with rfl | hold
    · exact absurd rfl (Tbl.not_mem_drop _ _ _ hdropped)
    · exact hrest.2 e hold
  have hgt : Goes (mask [] [.crossings, .memo]) s (queued.setDir l DirLine.idle) := hgq.step (goes_setDir _ l _) (by decide)
  have hseals : (queued.setDir l DirLine.idle).seals = s.seals := hgt.within.2 .seals (by decide)
  have hun : (queued.setDir l DirLine.idle).Uncached l :=
    ⟨hempty, dirAt_setDir_same .., (congrArg (· == 1) (hgt.granule _)).trans hplain, hseals ▸ hsound⟩
  refine ⟨(queued.setDir l DirLine.idle).took l q, ?_, ?_, fun hafter => ?_⟩
  · exact hun.took l q
  · exact ((goes_took _ l q).lineAt (congrArg MemState.bytes (memo_took _ l q)) (l := l)).trans (hgt.lineAt honly.bytes (l := l))
  · rw [State.request, hserves.1, if_neg Bool.false_ne_true, htaken, State.serveNext, hstays, pumpWrites_of_rest hwrites, hdq]
    change ((State.serveLine 1 queued l).serveSet l).showHome _ = _
    rw [serveLine_single hdq ((hgq.homeOpen l).trans hopen) hroomq, State.serveLine, serveSet_of_rest hafter]

/-! ### The four requests -/

variable {t : State} {l : Nat} {q : HomeReq}

theorem beginReq_rdShared (h : t.Uncached l) (hk : q.kind = .rdShared) (hecc : q.touch.ecc = .clean) :
    t.beginReq l q none = (t.perf 3 (lineStack l) 1 1 (q.xfer l)).grant l q .dataS (t.lineAt l) 0 1 [q.who.val] 0 := by
  simp [State.beginReq, hk, h.idle, DirLine.idle, State.endShared, fetch_uncached h hecc]

theorem beginReq_rdOwn (h : t.Uncached l) (hk : q.kind = .rdOwn) (hecc : q.touch.ecc = .clean) :
    t.beginReq l q none = (t.perf 3 (lineStack l) 1 1 (q.xfer l)).grant l q .dataE (t.lineAt l) 0 2 [] q.who := by
  simp [State.beginReq, hk, h.idle, DirLine.idle, State.endOwn, fetch_uncached h hecc]

theorem beginReq_rdCur (h : t.Uncached l) (hk : q.kind = .rdCur) (hecc : q.touch.ecc = .clean) :
    t.beginReq l q none = (t.perf 3 (lineStack l) 1 1 (q.xfer l)).finishNoGrant l q .cmp (t.lineAt l) 0 := by
  simp [State.beginReq, hk, h.idle, DirLine.idle, State.endCur, fetch_uncached h hecc]

/-- The state in which a merge is written: what it needs of the line is read. -/
def merging (t : State) (l : Nat) (q : HomeReq) : State := if q.mask.toNat = fullMask then t else t.perf 3 (lineStack l) 1 1 (q.xfer l)

theorem Uncached.merging (h : t.Uncached l) (q : HomeReq) : (t.merging l q).Uncached l := by
  unfold State.merging
  split
  · exact h
  · exact h.perf ..

theorem endPtl_uncached (h : t.Uncached l) (hecc : q.touch.ecc = .clean) :
    t.endPtl l q none = (((t.setDir l DirLine.idle).merging l q).memWrite l (mergeLine (t.lineAt l) q.data.toNat q.mask.toNat 64 0) q.touch
      (q.xfer l)).1.finishNoGrant l q .cmp 0 0 := by
  have hfreed : (t.setDir l DirLine.idle).Uncached l := ⟨h.rest.setDir l rfl, dirAt_setDir_same .., h.plain, h.sound⟩
  have hplain (v : Nat) : (((t.setDir l DirLine.idle).merging l q).memWrite l v q.touch (q.xfer l)).2 = 0 := by
    rw [memWrite_plain (hfreed.merging q).plain]
  have hidle : (t.dirAt l).freed = DirLine.idle := by rw [h.idle]; rfl
  unfold State.endPtl
  extract_lets s1 f w
  have hs1 : s1 = t.setDir l DirLine.idle := by simp only [s1, hidle]
  have hf : f.1 = (t.setDir l DirLine.idle).merging l q ∧ f.2.1 = 0 ∧
      mergeLine f.2.2 q.data.toNat q.mask.toNat 64 0 = mergeLine (t.lineAt l) q.data.toNat q.mask.toNat 64 0 := by
    by_cases hfull : q.mask.toNat = fullMask
    · simp only [f, State.merging, if_pos hfull, hs1, true_and]
      rw [hfull]
      exact mergeLine_fullMask 0 (t.lineAt l) q.data.toNat (n := 64) (k := 0) (by decide)
    · simp only [f, State.merging, if_neg hfull, hs1, fetch_uncached hfreed hecc, lineAt_setDir, and_self]
  obtain ⟨hf1, hf2, hmerged⟩ := hf
  have hw : w = ((t.setDir l DirLine.idle).merging l q).memWrite l (mergeLine (t.lineAt l) q.data.toNat q.mask.toNat 64 0) q.touch (q.xfer l) := by
    simp only [w, hf1, hmerged]
  rw [hf2, hw, hplain]
  rfl

theorem beginReq_wrPtl (h : t.Uncached l) (hk : q.kind = .wrPtl) : t.beginReq l q none = t.endPtl l q none := by
  simp [State.beginReq, hk, h.idle, DirLine.idle]

end State

/-- Settles O51: by the four requests, the last with the line as it merges. -/
theorem homeServesUncachedLines : Obligations.HomeServesUncachedLines := by
  intro l r kind s s1 q hrest hopen hidle hroom hplain hsound hecc harrived
  obtain ⟨-, -, hkind, hwho, htouch⟩ := State.arrived_eq harrived
  obtain ⟨t, ht, hline, hrequest⟩ := State.request_uncached hrest hopen hidle hroom hplain hsound harrived
  have hclean : q.touch.ecc = .clean := htouch ▸ hecc
  have hcast : ((l.toNat : Nat) : BitVec 32) = l := by simp
  extract_lets n v granted
  have hread := ht.perf 3 (lineStack n) 1 1 (q.xfer n)
  have hvalue : (t.perf 3 (lineStack n) 1 1 (q.xfer n)).lineAt n = v := (t.lineAt_perf ..).trans hline
  -- What a home tells of the line is what the request has left, with the counts of its stack shown.
  have hmemo (u : State) : (u.showHome (lineStack n)).memo = u.memo := u.memo_showHome _
  have hexec {x : HomeReq} {u : State} (h : s.request l.toNat [x] = u) : s.request ((n : Nat) : BitVec 32).toNat [x] = u := hcast.symm ▸ h
  cases kind with
  | rdShared =>
    obtain ⟨hafter, hkept, hsends, born, hdir⟩ := State.grant_uncached hread q .dataS (t.lineAt n) 0 1 [q.who.val] 0
    rw [← State.beginReq_rdShared ht hkind hclean] at hafter hkept hsends hdir
    rw [← State.dirAt_of_memo (hmemo _)] at hdir
    refine ⟨_, congrArg Host.Outcome.next (hexec (hrequest hafter)), ?_, ?_, ?_, ?_, ?_⟩
    · rw [hdir]
    · rw [hdir, hwho]
    · change Option.map _ (State.dirAt _ n).txn = _
      rw [hdir]
      rfl
    · rw [← hwho, show v = t.lineAt n from hline.symm]
      exact hsends.of_memo (congrArg MemState.wire (hmemo _))
    · exact (State.lineAt_showHome ..).trans (hkept.trans hvalue)
  | rdOwn =>
    obtain ⟨hafter, hkept, hsends, born, hdir⟩ := State.grant_uncached hread q .dataE (t.lineAt n) 0 2 [] q.who
    rw [← State.beginReq_rdOwn ht hkind hclean] at hafter hkept hsends hdir
    rw [← State.dirAt_of_memo (hmemo _)] at hdir
    refine ⟨_, congrArg Host.Outcome.next (hexec (hrequest hafter)), ?_, ?_, ?_, ?_, ?_⟩
    · rw [hdir]
    · rw [hdir, hwho]
    · change Option.map _ (State.dirAt _ n).txn = _
      rw [hdir]
      rfl
    · rw [← hwho, show v = t.lineAt n from hline.symm]
      exact hsends.of_memo (congrArg MemState.wire (hmemo _))
    · exact (State.lineAt_showHome ..).trans (hkept.trans hvalue)
  | rdCur =>
    obtain ⟨hafter, hkept, hsends, hdir⟩ := State.finishNoGrant_rest hread.rest q .cmp (t.lineAt n) 0
    rw [← State.beginReq_rdCur ht hkind hclean] at hafter hkept hsends hdir
    rw [← State.dirAt_of_memo (hmemo _), hread.idle] at hdir
    refine ⟨_, congrArg Host.Outcome.next (hexec (hrequest hafter)), ?_, ?_, ?_, ?_⟩
    · rw [hdir]
      rfl
    · rw [hdir]
    · rw [← hwho, show v = t.lineAt n from hline.symm]
      exact hsends.of_memo (congrArg MemState.wire (hmemo _))
    · exact (State.lineAt_showHome ..).trans (hkept.trans hvalue)
  | wrPtl =>
    have hmerging := State.Uncached.merging (t := t.setDir n DirLine.idle)
      ⟨ht.rest.setDir n rfl, State.dirAt_setDir_same .., ht.plain, ht.sound⟩ q
    have hwritten := hmerging.memWrite (mergeLine (t.lineAt n) q.data.toNat q.mask.toNat 64 0) q.touch (q.xfer n)
    obtain ⟨hafter, hkept, hsends, hdir⟩ := State.finishNoGrant_rest hwritten.rest q .cmp 0 0
    rw [← State.endPtl_uncached ht hclean, ← State.beginReq_wrPtl ht hkind] at hafter hkept hsends hdir
    rw [← State.dirAt_of_memo (hmemo _), hwritten.idle] at hdir
    refine ⟨_, congrArg Host.Outcome.next (hexec (hrequest hafter)), ?_, ?_, ?_, ?_⟩
    · rw [hdir]
      rfl
    · rw [hdir]
    · rw [← hwho]
      exact hsends.of_memo (congrArg MemState.wire (hmemo _))
    · rw [State.lineAt_showHome, hkept, State.memWrite_plain hmerging.plain, State.lineAt_putLine_same _ _ (mergeLine_lt ..), hline]

end Sys2Proof.Machine
end

section
/-! PROOFS. Grants and completions that come through to an agent, O55. -/

namespace Sys2Proof.Machine

-- One proof after another: side by side they need more memory than a check has.
set_option Elab.async false

/-- From `s` to `t` stacked memory differs in what the agents' ports hold alone. -/
structure OnlyPorts (s t : State) : Prop where
  memo : t.memo = { s.memo with ports := t.memo.ports }

namespace OnlyPorts

variable {s t u : State}

theorem of_memo (h : t.memo = s.memo) : OnlyPorts s t := ⟨by rw [h]⟩

theorem trans (h : OnlyPorts s t) (k : OnlyPorts t u) : OnlyPorts s u := by
  have hk := k.memo
  rw [h.memo] at hk
  exact ⟨hk⟩

theorem cached (h : OnlyPorts s t) (a l : Nat) : t.cached a l = s.cached a l :=
  (congrArg (fun m : MemState => Tbl.find CLine.invalid m.caches (cacheKey a l)) h.memo :)

theorem wire (h : OnlyPorts s t) : t.memo.wire = s.memo.wire := (congrArg MemState.wire h.memo :)

theorem setPort (s : State) (a p : Nat) (l : List PortReq) : OnlyPorts s (s.setPort a p l) := ⟨rfl⟩

end OnlyPorts

namespace State

/-! ### Lines that contend for a place (R298) -/

/-- The lines of agent `b` that may stand in the way of line `l`. -/
def rivals (s : State) (l b : Nat) : List Nat := (s.linesOf b).filter fun k => k != l && !(s.cached b k).wb

theorem contenders_eq (s : State) (a l : Nat) : s.contenders a l =
    if a < 16 then ((s.rivals l a).filter fun k => k % 2 ^ 11 == l % 2 ^ 11, 16)
    else ((([16, 17, 18, 19] : List Nat).flatMap (s.rivals l)).eraseDups, 2 ^ 16) := by
  rw [State.contenders, rivals, List.filter_filter]
  rfl

end State

theorem Tbl.filter_drop {α : Type} {p : Nat × α → Bool} {q : Nat} (h : ∀ v, p (q, v) = false) (t : Tbl α) : (Tbl.drop t q).filter p = t.filter p := by
  induction t with
  | nil => rfl
  | cons e t ih =>
    rw [Tbl.drop]
    split
    · next he => rw [ih, List.filter_cons_of_neg (by rw [← he] at h; simp [h e.2])]
    · rw [List.filter_cons, ih, List.filter_cons]

/-- A write of a key that is not chosen changes nothing that is chosen. -/
theorem Tbl.filter_set {α : Type} [DecidableEq α] {p : Nat × α → Bool} {q : Nat} (h : ∀ v, p (q, v) = false) (d v : α) (t : Tbl α) :
    (Tbl.set d t q v).filter p = t.filter p := by
  unfold Tbl.set
  split
  · exact Tbl.filter_drop h t
  · rw [Tbl.filter_ins (h v), Tbl.filter_drop h]

namespace State

/-- A line is no rival of itself, however it is held. -/
theorem rivals_of_set {s t : State} {a l : Nat} {x : CLine} (hl : l < 2 ^ 32)
    (h : t.memo.caches = Tbl.set CLine.invalid s.memo.caches (cacheKey a l) x) (b : Nat) : t.rivals l b = s.rivals l b := by
  have hcached (k : Nat) (hk : k < 2 ^ 32) (hkl : k ≠ l) : t.cached b k = s.cached b k := by
    rw [State.cached, h]
    exact Tbl.find_set_ne _ _ (fun he => hkl (cacheKey_inj hl hk he).2.symm) _
  have hform (u : State) : (u.linesOf b).filter (fun k => k != l && !(s.cached b k).wb) =
      (u.memo.caches.filter fun e => (e.1 % 2 ^ 32 != l && !(s.cached b (e.1 % 2 ^ 32)).wb) && e.1 / 2 ^ 32 == b).map (·.1 % 2 ^ 32) := by
    rw [State.linesOf, List.filter_map, List.filter_filter]
    rfl
  have hkey (v : CLine) : (((cacheKey a l, v).1 % 2 ^ 32 != l && !(s.cached b ((cacheKey a l, v).1 % 2 ^ 32)).wb) &&
      (cacheKey a l, v).1 / 2 ^ 32 == b) = false := by
    have hmod : cacheKey a l % 2 ^ 32 = l := by unfold cacheKey; omega
    rw [hmod, bne_self_eq_false]
    rfl
  have hlines : (t.linesOf b).filter (fun k => k != l && !(s.cached b k).wb) = (s.linesOf b).filter fun k => k != l && !(s.cached b k).wb := by
    rw [hform, hform, h, Tbl.filter_set hkey]
  rw [rivals, rivals, ← hlines]
  refine List.filter_congr fun k hk => ?_
  obtain ⟨e, -, rfl⟩ := List.mem_map.mp hk
  by_cases he : e.1 % 2 ^ 32 = l
  · rw [he, bne_self_eq_false, Bool.false_and, Bool.false_and]
  · rw [hcached _ (Nat.mod_lt _ (by decide)) he]

theorem contenders_of_set {s t : State} {a l : Nat} {x : CLine} (hl : l < 2 ^ 32)
    (h : t.memo.caches = Tbl.set CLine.invalid s.memo.caches (cacheKey a l) x) : t.contenders a l = s.contenders a l := by
  have hrivals : t.rivals l = s.rivals l := funext (rivals_of_set hl h)
  rw [contenders_eq, hrivals, ← contenders_eq]

/-! ### Grants and completions (R302) -/

/-- Ports that hold no request let a completion pass. -/
theorem landed_of_none {s : State} {a : Nat} (h : a < 16 → ∀ q, s.portReqs a q = []) (l : Nat) (ops : AgentOp → Bool) (again : Bool)
    (status data : Nat) : OnlyPorts s (s.landed a l ops again status data) := by
  unfold State.landed
  split
  · exact .of_memo rfl
  · next ha =>
    extract_lets hitReq s1
    have hports : OnlyPorts s s1 ∧ ∀ q, s1.portReqs a q = [] := by
      refine State.each_keeps (P := fun t => OnlyPorts s t ∧ ∀ q, t.portReqs a q = []) (fun p _ t ht => ?_) ⟨.of_memo rfl, h (by omega)⟩
      obtain ⟨honly, hnone⟩ := ht
      simp only [hnone p, List.any_nil, Bool.and_false, Bool.false_eq_true, if_false, List.map_nil]
      exact ⟨honly.trans (.setPort ..), fun q => by rw [portReqs_setPort]; split <;> simp [hnone]⟩
    have hserve : (List.range 16).filter (fun p => !(s1.portReqs a p).isEmpty) = [] := by simp [hports.2]
    rw [State.serveAgent, hserve, State.each_nil]
    exact hports.1

/-- A grant that an agent has room for is held, and acknowledged. -/
theorem install_of_room {s : State} {a l : Nat} (hl : l < 2 ^ 32) (hroom : s.HasRoom a l) (m : Msg) (st data : Nat) :
    ((s.unpost m).install a l st data none).cached a l = ⟨st, data, false⟩ ∧ ((s.unpost m).install a l st data none).Sends .cmpAck a l 0 0 := by
  let held : State := ((s.unpost m).setCached a l ⟨st, data, false⟩).post .cmpAck a l 0 0
  have hcaches : held.memo.caches = Tbl.set CLine.invalid s.memo.caches (cacheKey a l) ⟨st, data, false⟩ := by
    rw [(onlyMsgs_post ..).caches, memo_setCached, (s.onlyMsgs_unpost m).caches]
  have hfits : held.makeRoom a l none = held := by
    simp only [State.makeRoom, contenders_of_set hl hcaches, if_pos hroom.1]
  have hinstall : (s.unpost m).install a l st data none = held.landed a l (fun op => op = .read || op = .readOwn || op = .write) true 0 0 := by
    rw [State.install]
    exact congrArg (State.landed · a l _ true 0 0) hfits
  have hports : a < 16 → ∀ q, held.portReqs a q = [] := fun ha q => by simpa [held] using (hroom.2 ha).2 q
  have honly := landed_of_none hports l (fun op => op = .read || op = .readOwn || op = .write) true 0 0
  rw [hinstall]
  refine ⟨?_, (sends_post ..).of_memo honly.wire⟩
  rw [honly.cached]
  simp [held]

/-- A walk over a list that keeps `P` until it meets `x` makes it `Q`. -/
theorem each_reaches {α : Type} {P Q : State → Prop} {g : α → State → State} {l : List α} {x : α} (hx : x ∈ l)
    (hbefore : ∀ a ∈ l, a ≠ x → ∀ t, P t → P (g a t)) (hat : ∀ t, P t → Q (g x t)) (hafter : ∀ a ∈ l, ∀ t, Q t → Q (g a t)) {s : State} (h : P s) :
    Q (s.each l g) := by
  induction l generalizing s with
  | nil => cases hx
  | cons a l ih =>
    rw [State.each_cons]
    by_cases ha : a = x
    · subst ha
      exact State.each_keeps (fun b hb t ht => hafter b (List.mem_cons_of_mem a hb) t ht) (hat s h)
    · exact ih ((List.mem_cons.mp hx).resolve_left (Ne.symm ha)) (fun b hb => hbefore b (List.mem_cons_of_mem a hb))
        (fun b hb => hafter b (List.mem_cons_of_mem a hb)) (hbefore a List.mem_cons_self ha s h)

/-- Of the ports of agent `a`, whose region is woken, only port `p` holds requests: `l`. -/
structure Alone (s : State) (a p : Nat) (l : List PortReq) : Prop where
  port : s.portReqs a p = l
  others : ∀ q, q ≠ p → s.portReqs a q = []
  woken : s.woken (agentRegion a) = true

theorem Alone.setPort {s : State} {a p : Nat} {l : List PortReq} (h : s.Alone a p l) (k : List PortReq) : (s.setPort a p k).Alone a p k :=
  ⟨portReqs_setPort_same .., fun q hq => by rw [portReqs_setPort, if_neg (by omega), h.others q hq], h.woken⟩

theorem Alone.setOther {s : State} {a p q : Nat} {l : List PortReq} (h : s.Alone a p l) (hq : q ≠ p) : (s.setPort a q []).Alone a p l :=
  ⟨by rw [portReqs_setPort, if_neg (by omega), h.port], fun j hj => by rw [portReqs_setPort]; split <;> simp [h.others j hj], h.woken⟩

/-- An agent of whose ports one holds requests serves that port. -/
theorem serveAgent_one {s : State} {a : Nat} {l : List PortReq} (p : Fin 16) (h : s.Alone a p l) (hl : l ≠ []) : s.serveAgent a = s.servePort a p := by
  have hport (q : Nat) : (!(s.portReqs a q).isEmpty) = (q == p.val) := by
    by_cases hq : q = p.val
    · simp [hq, h.port, hl]
    · simp [hq, h.others q hq]
  have hserve : (List.range 16).filter (fun q => !(s.portReqs a q).isEmpty) = [p.val] := by
    simp only [hport]
    clear hport h
    revert p
    decide
  rw [State.serveAgent, hserve]
  rfl

theorem serveReq_done {s : State} {a p : Nat} {r : PortReq} {st : Nat × Nat} (hport : s.portReqs a p = [r]) (hdone : r.done = some st) :
    s.serveReq a p 0 = s := by
  simp [State.serveReq, hport, PortReq.inOctet, hdone, State.when]

/-- The completion of the one request that an agent's ports hold leaves as its reply. -/
theorem landed_one {s : State} {a : Nat} (p : Fin 16) {l : Nat} {r : PortReq} {ops : AgentOp → Bool} (ha : a < 16) (h : s.Alone a p [r])
    (hhit : (r.sent && r.done.isNone && r.line == l && ops r.op) = true) (hfence : r.op ≠ .fence) (data : Nat) :
    (s.landed a l ops false 0 data).Replied a p 0 r.word (if r.op.reads then some data else none) := by
  let done : PortReq := { r with done := some (0, data) }
  have hmiss : (done.sent && done.done.isNone && done.line == l && ops done.op) = false := by simp [done]
  have hlanded : ∃ t : State, t.Alone a p [done] ∧ s.landed a l ops false 0 data = t.serveAgent a := by
    refine ⟨_, ?_, if_neg (by omega)⟩
    refine each_reaches (P := fun t => t.Alone a p [r]) (Q := fun t => t.Alone a p [done]) (x := p.val) (List.mem_range.mpr p.isLt)
      (fun q _ hq t ht => ?_) (fun t ht => ?_) (fun q _ t ht => ?_) h
    · simp only [ht.others q hq, bne_self_eq_false, Bool.false_and, Bool.false_eq_true, if_false, List.map_nil]
      exact ht.setOther hq
    · simp only [ht.port, bne_self_eq_false, Bool.false_and, Bool.false_eq_true, if_false, List.map_cons, List.map_nil, hhit, if_true]
      exact ht.setPort _
    · by_cases hq : q = p.val
      · subst hq
        simp only [ht.port, bne_self_eq_false, Bool.false_and, Bool.false_eq_true, if_false, List.map_cons, List.map_nil, hmiss]
        exact ht.setPort _
      · simp only [ht.others q hq, bne_self_eq_false, Bool.false_and, Bool.false_eq_true, if_false, List.map_nil]
        exact ht.setOther hq
  obtain ⟨t, ht, hlanded⟩ := hlanded
  rw [hlanded, serveAgent_one p ht (by simp), servePort_one ht.port, serveReq_done ht.port rfl, ht.port]
  exact (replied_releaseReplies (r := done) ht.woken rfl fun h => absurd h hfence).1

end State

/-- The grants of DATA_S and DATA_E: with no failing status they are held. -/
theorem State.failed_cached {s : State} {a l : Nat} (hroom : s.HasRoom a l) (m : Msg) (status : Nat) :
    ((s.unpost m).failed a l status).cached a l = s.cached a l := by
  have hports : a < 16 → ∀ q, (s.unpost m).portReqs a q = [] := fun ha q => by simpa using (hroom.2 ha).2 q
  exact ((landed_of_none hports ..).cached a l).trans (s.cached_unpost m a l)

/-- Settles O55: by the line that a grant installs, and by the completion of the one request at the port. -/
theorem agentTakesGrants : Obligations.AgentTakesGrants := by
  refine ⟨fun l a s m hroom => ?_, fun l w p s m r hw hwoken hm haux howns hothers hport hop hline hsent hdone => ?_⟩
  · extract_lets n
    have hn : n < 2 ^ 32 := l.isLt
    refine ⟨fun hm => ⟨_, rfl, fun h => ?_, fun h => ?_⟩, fun hm => ⟨_, rfl, fun h => ?_, fun h => ?_, fun h hd => ?_⟩, fun w hwa hm howns => ⟨_, rfl, ?_⟩,
      fun hm hwb => ⟨_, rfl, ?_⟩⟩
    · rw [show s.comeMsg .dataS a l.toNat = some m from hm]
      simp only [h, if_true]
      exact State.install_of_room hn hroom m 1 m.data
    · rw [show s.comeMsg .dataS a l.toNat = some m from hm]
      simp only [h, if_false]
      exact State.failed_cached hroom m m.aux
    · rw [show s.comeMsg .dataE a l.toNat = some m from hm]
      simp only [h, decide_true, Bool.true_or, if_true]
      exact State.install_of_room hn hroom m 2 m.data
    · rw [show s.comeMsg .dataE a l.toNat = some m from hm]
      simp only [h, decide_true, Bool.or_true, if_true, if_neg (show ¬ dirtyGrant = 0 by decide)]
      exact State.install_of_room hn hroom m 3 m.data
    · rw [show s.comeMsg .dataE a l.toNat = some m from hm]
      simp only [h, hd, decide_false, Bool.or_false, Bool.false_eq_true, if_false]
      exact State.failed_cached hroom m m.aux
    · dsimp only
      rw [show s.comeMsg .cmp w l.toNat = some m from hwa ▸ hm]
      simp only [hwa, show s.awaitsOwn a l.toNat = true from howns, a.isLt, decide_true, Bool.and_self, if_true]
      exact State.install_of_room hn hroom m 2 (s.cached a n).data
    · dsimp only
      rw [show s.comeMsg .wbAck a l.toNat = some m from hm]
      simp only [State.cached_unpost, show (s.cached a l.toNat).wb = true from hwb, if_true]
      have hports : a.val < 16 → ∀ q, ((s.unpost m).setCached a n CLine.invalid).portReqs a q = [] := fun ha q => by simpa using (hroom.2 ha).2 q
      exact ((State.landed_of_none hports n (fun op => op = .flush) false 0 0).cached a n).trans (State.cached_setCached_same ..)
  · refine ⟨_, rfl, ?_⟩
    have hkept : (s.unpost m).Alone w p [r] :=
      ⟨by rwa [State.portReqs_unpost], fun q hq => by rw [State.portReqs_unpost, hothers q hq],
        (congrArg (· == 3) ((s.goes_unpost m).within.1 .CFG_RGN_STAT_STATE _ (by decide))).trans hwoken⟩
    have hreply := State.landed_one (l := l.toNat) (ops := fun op => op = .readNa || op = .writeNa) p hw hkept (by simp [hop, hline, hsent, hdone])
      (by simp [hop]) m.data
    simpa [hm, howns, haux, hop, AgentOp.reads] using hreply

end Sys2Proof.Machine
end

section
/-! PROOFS. Requests that an agent at rest takes, O49. -/

namespace Sys2Proof.Machine

-- One proof after another: side by side they need more memory than a check has.
set_option Elab.async false

/-- The operations of R77 that an agent serves from its cache or its home. -/
def AgentOp.onLine : AgentOp → Bool
  | .read | .readOwn | .write | .writeNa | .readNa | .flush => true
  | _ => false

/-! ### What serving a request leaves of its port -/

/-- From `s` to `t` the ports of the agents hold what they held, and the regions are woken as they were. -/
structure KeepsPorts (s t : State) : Prop where
  ports : t.memo.ports = s.memo.ports
  woken : ∀ n, t.woken n = s.woken n

namespace KeepsPorts

variable {s t u : State}

theorem refl (s : State) : KeepsPorts s s := ⟨rfl, fun _ => rfl⟩

theorem trans (h : KeepsPorts s t) (k : KeepsPorts t u) : KeepsPorts s u := ⟨k.ports.trans h.ports, fun n => (k.woken n).trans (h.woken n)⟩

theorem of_goes {rs : List Reg} {ps : List Part} (h : Goes (mask rs ps) s t) (hp : t.memo.ports = s.memo.ports) (hr : Reg.CFG_RGN_STAT ∉ rs := by decide) :
    KeepsPorts s t := ⟨hp, fun n => congrArg (· == 3) (h.within.1 .CFG_RGN_STAT_STATE n hr)⟩

theorem perf (h : KeepsPorts s t) (block inst event n : Nat) (x : Option Xfer) : KeepsPorts s (t.perf block inst event n x) :=
  h.trans (of_goes (t.goes_perf ..) (congrArg MemState.ports (t.memo_perf ..)))

theorem post (h : KeepsPorts s t) (kind : MsgKind) (who l data aux : Nat) : KeepsPorts s (t.post kind who l data aux) :=
  h.trans (of_goes (t.goes_post ..) (congrArg MemState.ports (t.onlyMsgs_post kind who l data aux).memo :))

theorem setCached (h : KeepsPorts s t) (a l : Nat) (x : CLine) : KeepsPorts s (t.setCached a l x) :=
  h.trans (of_goes (t.goes_setCached ..) (congrArg MemState.ports (t.memo_setCached a l x) :))

end KeepsPorts

namespace State

theorem cached_perf (s : State) (block inst event n : Nat) (x : Option Xfer) (a l : Nat) : (s.perf block inst event n x).cached a l = s.cached a l :=
  cached_of_memo (s.memo_perf ..) a l

theorem sends_perf {s : State} {kind : MsgKind} {who l data aux : Nat} (h : s.Sends kind who l data aux) (block inst event n : Nat) (x : Option Xfer) :
    (s.perf block inst event n x).Sends kind who l data aux := h.of_memo (congrArg MemState.wire (s.memo_perf ..))

@[simp] theorem cached_asking (s : State) (a p : Nat) (r : PortReq) (b l : Nat) : (s.asking a p r).cached b l = s.cached b l :=
  cached_perf s 2 a 0 1 _ b l

/-- An agent at rest has no message on its way. -/
theorem inFlight_asking {s : State} {a : Nat} (hrest : s.AgentRests a) (p : Nat) {r : PortReq} (hsent : r.sent = false) (l : Nat) :
    (s.asking a p r).inFlight a l = false := by
  have hports (q : Nat) : (s.asking a p r).portReqs a q = if a * 16 + p = a * 16 + q then [r] else [] := by
    rw [State.asking, portReqs_setPort, portReqs_of_memo (s.memo_perf ..), hrest.2]
  rw [State.inFlight, List.any_eq_false]
  intro q _
  rw [hports]
  split <;> simp [hsent]

/-- A reply of status 0 leaves, and changes nothing else. -/
theorem agentReply_ok {s : State} {a : Nat} (hw : s.woken (agentRegion a) = true) (p : Nat) (r : PortReq) (d : Nat) :
    s.agentReply a p r (0, d) = s.emit (.agentReply a p 0 r.word (if r.op.reads then some d else none)) := by
  simp [State.agentReply, agentFlag, hw]

variable {s t : State} {a : Nat} {r q : PortReq}

/-- How the port of an agent at rest serves a request for a line. -/
theorem serveReq_asking (p : Fin 16) (hop : r.op.onLine = true) (hsent : r.sent = false) (hdone : r.done = none)
    (htry : (s.asking a p r).tryReq a r = (t, q)) (hkept : KeepsPorts (s.asking a p r) t) : (s.asking a p r).serveReq a p 0 = t.setPort a p [q] := by
  have hport : t.portReqs a p = [r] := by
    rw [State.portReqs, hkept.ports]
    exact s.portReqs_asking a p r
  rw [← setReq_one hport q, serveReq_one (s.portReqs_asking a p r) hsent hdone, htry]
  cases h : r.op <;> simp_all [AgentOp.onLine]

/-- A request that is done at once leaves as its reply. -/
theorem takeReq_done (hrest : s.AgentRests a) (p : Fin 16) (hop : r.op.onLine = true) (hsent : r.sent = false) (hdone : r.done = none)
    (htry : (s.asking a p r).tryReq a r = (t, q)) (hkept : KeepsPorts (s.asking a p r) t) {d : Nat} (hq : q.done = some (0, d)) (hqop : q.op = r.op) :
    (s.takeReq a p r).Replied a p 0 q.word (if q.op.reads then some d else none) ∧ ∀ l, (s.takeReq a p r).cached a l = t.cached a l := by
  have hserve := serveReq_asking p hop hsent hdone htry hkept
  have hwoken : (t.setPort a p [q]).woken (agentRegion a) = true := (hkept.woken _).trans ((s.woken_asking ..).trans hrest.1)
  have hfence : q.op ≠ .fence := by
    rw [hqop]
    intro h
    rw [h] at hop
    cases hop
  constructor
  · exact (takeReq_replied hrest p (by rw [hserve, portReqs_setPort_same]) (hserve ▸ hwoken) hq fun h => absurd h hfence).1
  · intro l
    rw [takeReq_of_rests hrest, servePort_one (s.portReqs_asking ..), hserve, portReqs_setPort_same]
    simp only [State.releaseReplies, hfence, if_false, hq, agentReply_ok hwoken]
    rfl

/-- A request that is not done at once stays in its port. -/
theorem takeReq_stays (hrest : s.AgentRests a) (p : Fin 16) (hop : r.op.onLine = true) (hsent : r.sent = false) (hdone : r.done = none)
    (htry : (s.asking a p r).tryReq a r = (t, q)) (hkept : KeepsPorts (s.asking a p r) t) (hq : q.done = none) (hqop : q.op = r.op) :
    (s.takeReq a p r).Holds a p q.sent ∧ (∀ l, (s.takeReq a p r).cached a l = t.cached a l) ∧
      ∀ kind l data aux, t.Sends kind a l data aux → (s.takeReq a p r).Sends kind a l data aux := by
  have hserve := serveReq_asking p hop hsent hdone htry hkept
  have hfence : q.op ≠ .fence := by
    rw [hqop]
    intro h
    rw [h] at hop
    cases hop
  rw [takeReq_undone hrest p (by rw [hserve, portReqs_setPort_same]) hq hfence, hserve]
  exact ⟨⟨q, portReqs_setPort_same .., hq, rfl⟩, fun _ => rfl, fun _ _ _ _ h => h⟩

/-! ### What becomes of each request (R304) -/

/-- A line whose writeback is not acknowledged lets a request wait. -/
theorem tryReq_waits {u : State} (hop : r.op.onLine = true) (hwb : (u.cached a r.line).wb = true) : u.tryReq a r = (u, r) := by
  cases h : r.op <;> simp_all [State.tryReq, AgentOp.onLine]

/-- A read of a line that is held ends with its data. -/
theorem tryReq_hit {u : State} (hop : r.op = .read ∨ r.op = .readNa) (hwb : (u.cached a r.line).wb = false) (hst : 1 ≤ (u.cached a r.line).st) :
    u.tryReq a r = (u.perf 2 a 1 1 none, { r with done := some (0, (u.cached a r.line).data) }) := by
  obtain h | h := hop <;> simp [State.tryReq, h, hwb, hst]

theorem tryReq_readOwn_hit {u : State} (hop : r.op = .readOwn) (hwb : (u.cached a r.line).wb = false) (hst : 2 ≤ (u.cached a r.line).st) :
    u.tryReq a r = (u.perf 2 a 1 1 none, { r with done := some (0, (u.cached a r.line).data) }) := by
  simp [State.tryReq, hop, hwb, hst]

/-- A write of a line that the agent owns merges its bytes. -/
theorem tryReq_write_owned {u : State} (hop : r.op = .write ∨ r.op = .writeNa) (hwb : (u.cached a r.line).wb = false)
    (hst : 2 ≤ (u.cached a r.line).st) :
    u.tryReq a r = (u.setCached a r.line ⟨3, mergeLine (u.cached a r.line).data r.data r.mask 64 0, false⟩, { r with done := some (0, 0) }) := by
  obtain h | h := hop <;> simp [State.tryReq, h, hwb, hst]

/-- A read of a line that is not held asks the home for it, or for its current value. -/
theorem tryReq_read_miss {u : State} {kind : MsgKind} (hop : (r.op = .read ∧ kind = .rdShared) ∨ (r.op = .readNa ∧ kind = .rdCur))
    (hwb : (u.cached a r.line).wb = false) (hst : (u.cached a r.line).st = 0) (hfree : u.inFlight a r.line = false) :
    u.tryReq a r = ((u.perf 2 a 2 1 (some ⟨a, 0, r.line⟩)).post kind a r.line 0 0, { r with sent := true }) := by
  obtain ⟨h, rfl⟩ | ⟨h, rfl⟩ := hop <;> simp [State.tryReq, h, hwb, hst, hfree]

theorem b2n_eq_of_le {n : Nat} (h : n ≤ 1) : b2n (n == 1) = n := by
  obtain rfl | rfl : n = 0 ∨ n = 1 := by omega
  · rfl
  · rfl

theorem tryReq_readOwn_miss {u : State} (hop : r.op = .readOwn) (hwb : (u.cached a r.line).wb = false) (hst : (u.cached a r.line).st ≤ 1)
    (hfree : u.inFlight a r.line = false) :
    u.tryReq a r = ((u.perf 2 a 2 1 (some ⟨a, 0, r.line⟩)).post .rdOwn a r.line 0 (u.cached a r.line).st, { r with sent := true }) := by
  simp [State.tryReq, hop, hwb, show ¬ 2 ≤ (u.cached a r.line).st by omega, hfree, b2n_eq_of_le hst]

theorem tryReq_write_miss {u : State} (hop : r.op = .write) (hwb : (u.cached a r.line).wb = false) (hst : (u.cached a r.line).st ≤ 1)
    (hfree : u.inFlight a r.line = false) :
    u.tryReq a r = (u.post .rdOwn a r.line 0 (u.cached a r.line).st, { r with sent := true }) := by
  simp [State.tryReq, hop, hwb, show ¬ 2 ≤ (u.cached a r.line).st by omega, hfree, b2n_eq_of_le hst]

theorem tryReq_writeNa_miss {u : State} (hop : r.op = .writeNa) (hwb : (u.cached a r.line).wb = false) (hst : (u.cached a r.line).st ≤ 1)
    (hfree : u.inFlight a r.line = false) :
    u.tryReq a r = ((u.setCached a r.line CLine.invalid).post .wrPtl a r.line r.data r.mask, { r with sent := true }) := by
  simp [State.tryReq, hop, hwb, show ¬ 2 ≤ (u.cached a r.line).st by omega, hfree]

theorem tryReq_flush_owned {u : State} (hop : r.op = .flush) (hwb : (u.cached a r.line).wb = false) (hst : 2 ≤ (u.cached a r.line).st)
    (hfree : u.inFlight a r.line = false) : u.tryReq a r = (u.evictLine a r.line, { r with sent := true }) := by
  simp [State.tryReq, hop, hwb, hst, hfree]

theorem tryReq_flush_other {u : State} (hop : r.op = .flush) (hwb : (u.cached a r.line).wb = false) (hst : (u.cached a r.line).st ≤ 1)
    (hfree : u.inFlight a r.line = false) :
    u.tryReq a r = (u.setCached a r.line CLine.invalid, { r with done := some (0, 0) }) := by
  have hevict : u.evictLine a r.line = u.setCached a r.line CLine.invalid := by
    obtain h | h : (u.cached a r.line).st = 0 ∨ (u.cached a r.line).st = 1 := by omega
    · simp [State.evictLine, hwb, h]
    · simp [State.evictLine, hwb, h]
  simp [State.tryReq, hop, hwb, show ¬ 2 ≤ (u.cached a r.line).st by omega, hfree, hevict]

theorem evictLine_modified {u : State} {l : Nat} (hwb : (u.cached a l).wb = false) (hst : (u.cached a l).st = 3) :
    u.evictLine a l = ((u.setCached a l { u.cached a l with wb := true }).post .wbDirty a l (u.cached a l).data 0).perf 2 a 3 1 (some ⟨a, 0, l⟩) := by
  simp [State.evictLine, hwb, hst]

theorem evictLine_exclusive {u : State} {l : Nat} (hwb : (u.cached a l).wb = false) (hst : (u.cached a l).st = 2) :
    u.evictLine a l = (u.setCached a l { u.cached a l with wb := true }).post .evictClean a l 0 0 := by
  simp [State.evictLine, hwb, hst]

/-! ### What a port of an agent at rest answers -/

/-- A request that asks the home waits, sent. -/
theorem takeReq_asks (hrest : s.AgentRests a) (p : Fin 16) (hop : r.op.onLine = true) (hsent : r.sent = false) (hdone : r.done = none)
    {kind : MsgKind} {l data aux : Nat} (hkept : KeepsPorts (s.asking a p r) t)
    (htry : (s.asking a p r).tryReq a r = (t.post kind a l data aux, { r with sent := true })) :
    (s.takeReq a p r).Holds a p true ∧ (s.takeReq a p r).Sends kind a l data aux ∧ ∀ k, (s.takeReq a p r).cached a k = t.cached a k := by
  obtain ⟨hholds, hcached, hsends⟩ := takeReq_stays hrest p hop hsent hdone htry (hkept.post ..) hdone rfl
  exact ⟨hholds, hsends _ _ _ _ (sends_post ..), fun k => (hcached k).trans (cached_post ..)⟩

/-- A request that is done at once: its reply, and the cache as it was served. -/
theorem takeReq_ends (hrest : s.AgentRests a) (p : Fin 16) (hop : r.op.onLine = true) (hsent : r.sent = false) (hdone : r.done = none) {d : Nat}
    (hkept : KeepsPorts (s.asking a p r) t) (htry : (s.asking a p r).tryReq a r = (t, { r with done := some (0, d) })) :
    (s.takeReq a p r).Replied a p 0 r.word (if r.op.reads then some d else none) ∧ ∀ k, (s.takeReq a p r).cached a k = t.cached a k :=
  takeReq_done hrest p hop hsent hdone htry hkept rfl rfl

end State

/-- A request for a line as its port takes it. -/
def lineReq (op : AgentOp) (l data mask : Nat) : PortReq := ⟨op, l, l, data, mask, false, none⟩

section
variable {s : State} {a p : Fin 16} (hrest : s.AgentRests a) (l data mask : Nat)
include hrest

/-- The state in which a request for a line is served holds the line as the agent held it, with no message on its way. -/
theorem asking_line (op : AgentOp) : (s.asking a p (lineReq op l data mask)).cached a l = s.cached a l ∧
    (s.asking a p (lineReq op l data mask)).inFlight a l = false :=
  ⟨s.cached_asking .., State.inFlight_asking hrest p rfl l⟩

theorem lineReq_waits {op : AgentOp} (hop : op.onLine = true) (hwb : (s.cached a l).wb = true) :
    (s.takeReq a p (lineReq op l data mask)).Holds a p false ∧ (s.takeReq a p (lineReq op l data mask)).cached a l = s.cached a l := by
  obtain ⟨hline, -⟩ := asking_line (p := p) hrest l data mask op
  have htry := State.tryReq_waits (u := s.asking a p (lineReq op l data mask)) (a := a) (r := lineReq op l data mask) hop (hline ▸ hwb)
  obtain ⟨hholds, hcached, -⟩ := State.takeReq_stays hrest p hop rfl rfl htry (.refl _) rfl rfl
  exact ⟨hholds, (hcached l).trans hline⟩

/-- READ and READ_NA reply the data of a line that is held; else they ask the home. -/
theorem lineReq_read {op : AgentOp} {kind : MsgKind} (hop : (op = .read ∧ kind = .rdShared) ∨ (op = .readNa ∧ kind = .rdCur))
    (hwb : (s.cached a l).wb = false) :
    let t := s.takeReq a p (lineReq op l data mask)
    t.cached a l = s.cached a l ∧ (1 ≤ (s.cached a l).st → t.Replied a p 0 l (some (s.cached a l).data)) ∧
      ((s.cached a l).st = 0 → t.Holds a p true ∧ t.Sends kind a l 0 0) := by
  extract_lets t
  obtain ⟨hline, hfree⟩ := asking_line (p := p) hrest l data mask op
  rw [← hline] at hwb ⊢
  have hreads : op.reads = true ∧ op.onLine = true := by obtain ⟨rfl, -⟩ | ⟨rfl, -⟩ := hop <;> exact ⟨rfl, rfl⟩
  by_cases hst : 1 ≤ ((s.asking a p (lineReq op l data mask)).cached a l).st
  · have htry := State.tryReq_hit (r := lineReq op l data mask) (hop.imp And.left And.left) hwb hst
    obtain ⟨hreplied, hcached⟩ := State.takeReq_ends hrest p hreads.2 rfl rfl ((KeepsPorts.refl _).perf ..) htry
    rw [if_pos (show (lineReq op l data mask).op.reads = true from hreads.1)] at hreplied
    exact ⟨(hcached l).trans (State.cached_perf ..), fun _ => hreplied, fun h => by omega⟩
  · have hst0 : ((s.asking a p (lineReq op l data mask)).cached a l).st = 0 := by omega
    obtain ⟨hholds, hsends, hcached⟩ := State.takeReq_asks hrest p hreads.2 rfl rfl ((KeepsPorts.refl _).perf ..)
      (State.tryReq_read_miss (r := lineReq op l data mask) hop hwb hst0 hfree)
    exact ⟨(hcached l).trans (State.cached_perf ..), fun h => absurd h hst, fun _ => ⟨hholds, hsends⟩⟩

/-- READ_OWN replies the data of a line that is owned; else it asks for it, and says whether it shares it. -/
theorem lineReq_readOwn (hwb : (s.cached a l).wb = false) :
    let t := s.takeReq a p (lineReq .readOwn l data mask)
    t.cached a l = s.cached a l ∧ (2 ≤ (s.cached a l).st → t.Replied a p 0 l (some (s.cached a l).data)) ∧
      ((s.cached a l).st ≤ 1 → t.Holds a p true ∧ t.Sends .rdOwn a l 0 (s.cached a l).st) := by
  extract_lets t
  obtain ⟨hline, hfree⟩ := asking_line (p := p) hrest l data mask .readOwn
  rw [← hline] at hwb ⊢
  by_cases hst : 2 ≤ ((s.asking a p (lineReq .readOwn l data mask)).cached a l).st
  · have htry := State.tryReq_readOwn_hit (r := lineReq .readOwn l data mask) rfl hwb hst
    obtain ⟨hreplied, hcached⟩ := State.takeReq_ends hrest p rfl rfl rfl ((KeepsPorts.refl _).perf ..) htry
    exact ⟨(hcached l).trans (State.cached_perf ..), fun _ => hreplied, fun h => by omega⟩
  · have htry := State.tryReq_readOwn_miss (r := lineReq .readOwn l data mask) rfl hwb (by simpa [lineReq] using hst) hfree
    obtain ⟨hholds, hsends, hcached⟩ := State.takeReq_asks hrest p rfl rfl rfl ((KeepsPorts.refl _).perf ..) htry
    exact ⟨(hcached l).trans (State.cached_perf ..), fun h => absurd h hst, fun _ => ⟨hholds, hsends⟩⟩

/-- WRITE and WRITE_NA merge into a line that is owned. -/
theorem lineReq_write_owned {op : AgentOp} (hop : op = .write ∨ op = .writeNa) (hwb : (s.cached a l).wb = false) (hst : 2 ≤ (s.cached a l).st) :
    let t := s.takeReq a p (lineReq op l data mask)
    t.cached a l = ⟨3, mergeLine (s.cached a l).data data mask 64 0, false⟩ ∧ t.Replied a p 0 l none := by
  extract_lets t
  obtain ⟨hline, -⟩ := asking_line (p := p) hrest l data mask op
  rw [← hline] at hwb hst ⊢
  have hwrites : op.reads = false ∧ op.onLine = true := by obtain rfl | rfl := hop <;> exact ⟨rfl, rfl⟩
  have htry := State.tryReq_write_owned (r := lineReq op l data mask) hop hwb hst
  obtain ⟨hreplied, hcached⟩ := State.takeReq_ends hrest p hwrites.2 rfl rfl ((KeepsPorts.refl _).setCached ..) htry
  rw [show (lineReq op l data mask).op.reads = false from hwrites.1] at hreplied
  exact ⟨(hcached l).trans (State.cached_setCached_same ..), hreplied⟩

/-- WRITE of a line that is not owned asks for it. -/
theorem lineReq_write_miss (hwb : (s.cached a l).wb = false) (hst : (s.cached a l).st ≤ 1) :
    let t := s.takeReq a p (lineReq .write l data mask)
    t.cached a l = s.cached a l ∧ t.Holds a p true ∧ t.Sends .rdOwn a l 0 (s.cached a l).st := by
  extract_lets t
  obtain ⟨hline, hfree⟩ := asking_line (p := p) hrest l data mask .write
  rw [← hline] at hwb hst ⊢
  obtain ⟨hholds, hsends, hcached⟩ := State.takeReq_asks hrest p rfl rfl rfl (.refl _)
    (State.tryReq_write_miss (r := lineReq .write l data mask) rfl hwb hst hfree)
  exact ⟨hcached l, hholds, hsends⟩

/-- WRITE_NA of a line that is not owned drops it and sends the bytes. -/
theorem lineReq_writeNa_miss (hwb : (s.cached a l).wb = false) (hst : (s.cached a l).st ≤ 1) :
    let t := s.takeReq a p (lineReq .writeNa l data mask)
    t.cached a l = CLine.invalid ∧ t.Holds a p true ∧ t.Sends .wrPtl a l data mask := by
  extract_lets t
  obtain ⟨hline, hfree⟩ := asking_line (p := p) hrest l data mask .writeNa
  rw [← hline] at hwb hst
  obtain ⟨hholds, hsends, hcached⟩ := State.takeReq_asks hrest p rfl rfl rfl ((KeepsPorts.refl _).setCached ..)
    (State.tryReq_writeNa_miss (r := lineReq .writeNa l data mask) rfl hwb hst hfree)
  exact ⟨(hcached l).trans (State.cached_setCached_same ..), hholds, hsends⟩

/-- FLUSH of a line in M writes it back, and of one in E announces it. -/
theorem lineReq_flush_owned {kind : MsgKind} {d : Nat} (hwb : (s.cached a l).wb = false)
    (hst : ((s.cached a l).st = 3 ∧ kind = .wbDirty ∧ d = (s.cached a l).data) ∨ ((s.cached a l).st = 2 ∧ kind = .evictClean ∧ d = 0)) :
    let t := s.takeReq a p (lineReq .flush l data mask)
    t.cached a l = { s.cached a l with wb := true } ∧ t.Holds a p true ∧ t.Sends kind a l d 0 := by
  intro t
  obtain ⟨hline, hfree⟩ := asking_line (p := p) hrest l data mask .flush
  rw [← hline] at hwb hst ⊢
  have howned : 2 ≤ ((s.asking a p (lineReq .flush l data mask)).cached a l).st := by omega
  have hevict : ∃ u, (s.asking a p (lineReq .flush l data mask)).evictLine a l = u ∧ KeepsPorts (s.asking a p (lineReq .flush l data mask)) u ∧
      u.cached a l = { (s.asking a p (lineReq .flush l data mask)).cached a l with wb := true } ∧ u.Sends kind a l d 0 := by
    obtain ⟨h3, rfl, rfl⟩ | ⟨h2, rfl, rfl⟩ := hst
    · refine ⟨_, State.evictLine_modified hwb h3, (((KeepsPorts.refl _).setCached ..).post ..).perf .., ?_, State.sends_perf (State.sends_post ..) ..⟩
      simp [State.cached_perf]
    · refine ⟨_, State.evictLine_exclusive hwb h2, ((KeepsPorts.refl _).setCached ..).post .., ?_, State.sends_post ..⟩
      simp
  obtain ⟨u, hu, hkept, hcached, hsends⟩ := hevict
  have htry := State.tryReq_flush_owned (r := lineReq .flush l data mask) rfl hwb howned hfree
  obtain ⟨hholds, hlines, hmsgs⟩ := State.takeReq_stays hrest p rfl rfl rfl htry (hu ▸ hkept) rfl rfl
  exact ⟨(hlines l).trans (hu ▸ hcached), hholds, hmsgs _ _ _ _ (hu ▸ hsends)⟩

/-- FLUSH of a line that is not owned drops it. -/
theorem lineReq_flush_other (hwb : (s.cached a l).wb = false) (hst : (s.cached a l).st ≤ 1) :
    let t := s.takeReq a p (lineReq .flush l data mask)
    t.cached a l = CLine.invalid ∧ t.Replied a p 0 l none := by
  extract_lets t
  obtain ⟨hline, hfree⟩ := asking_line (p := p) hrest l data mask .flush
  rw [← hline] at hwb hst
  obtain ⟨hreplied, hcached⟩ := State.takeReq_ends hrest p rfl rfl rfl ((KeepsPorts.refl _).setCached ..)
    (State.tryReq_flush_other (r := lineReq .flush l data mask) rfl hwb hst hfree)
  exact ⟨(hcached l).trans (State.cached_setCached_same ..), hreplied⟩

end

/-- The header's tag names the operation that its port takes (R77). -/
theorem agentRequest_line (s : State) (a p : Nat) {h : WordToken} {op : AgentOp} (hop : opOf h.tag = op) (hline : op.onLine = true) (low high : HalfLine) :
    s.agentRequest a p h low high = s.takeReq a p (if op = .write ∨ op = .writeNa
      then lineReq op h.data (low.data + high.data * 2 ^ 256) (low.mask + high.mask * 2 ^ 32) else lineReq op h.data 0 0) := by
  cases op <;> cases hline <;> simp [State.agentRequest, hop, lineReq]

/-- Settles O49: the operations one by one, of a line that its port alone awaits. -/
theorem agentOperationsAreServed : Obligations.AgentOperationsAreServed := by
  intro a p h low high s hrest
  extract_lets l x data mask merged asks
  refine ⟨fun hwb c hc htag => ?_, fun hwb => ⟨fun htag => ?_, fun htag => ?_, fun htag => ?_, fun htag => ?_, fun htag => ?_, fun htag => ?_⟩⟩
  · have hwaits (op : AgentOp) (hline : op.onLine = true) (data mask : Nat) := lineReq_waits (p := p) (op := op) hrest l data mask hline hwb
    have hexec {op : AgentOp} (hline : op.onLine = true) (hop : opOf h.tag = op) (low high : HalfLine) :=
      congrArg (Host.Outcome.next (φ := Fault) (ρ := Refusal)) (agentRequest_line s a p hop hline low high)
    simp only [List.mem_cons, List.not_mem_nil, or_false] at hc
    obtain rfl | rfl | rfl | rfl | rfl | rfl := hc
    · exact ⟨_, hexec (op := .read) rfl (by rw [htag]; rfl) _ _, hwaits .read rfl 0 0⟩
    · exact ⟨_, hexec (op := .readOwn) rfl (by rw [htag]; rfl) _ _, hwaits .readOwn rfl 0 0⟩
    · exact ⟨_, hexec (op := .write) rfl (by rw [htag]; rfl) _ _, hwaits .write rfl data mask⟩
    · exact ⟨_, hexec (op := .writeNa) rfl (by rw [htag]; rfl) _ _, hwaits .writeNa rfl data mask⟩
    · exact ⟨_, hexec (op := .readNa) rfl (by rw [htag]; rfl) _ _, hwaits .readNa rfl 0 0⟩
    · exact ⟨_, hexec (op := .flush) rfl (by rw [htag]; rfl) _ _, hwaits .flush rfl 0 0⟩
  · have hop : opOf h.tag = .read := by rw [htag]; rfl
    exact ⟨_, congrArg Host.Outcome.next (agentRequest_line s a p hop rfl _ _), lineReq_read hrest l 0 0 (Or.inl ⟨rfl, rfl⟩) hwb⟩
  · have hop : opOf h.tag = .readOwn := by rw [htag]; rfl
    exact ⟨_, congrArg Host.Outcome.next (agentRequest_line s a p hop rfl _ _), lineReq_readOwn hrest l 0 0 hwb⟩
  · have hop : opOf h.tag = .write := by rw [htag]; rfl
    exact ⟨_, congrArg Host.Outcome.next (agentRequest_line s a p hop rfl _ _), lineReq_write_owned hrest l data mask (Or.inl rfl) hwb,
      lineReq_write_miss hrest l data mask hwb⟩
  · have hop : opOf h.tag = .writeNa := by rw [htag]; rfl
    exact ⟨_, congrArg Host.Outcome.next (agentRequest_line s a p hop rfl _ _), lineReq_write_owned hrest l data mask (Or.inr rfl) hwb,
      lineReq_writeNa_miss hrest l data mask hwb⟩
  · have hop : opOf h.tag = .readNa := by rw [htag]; rfl
    exact ⟨_, congrArg Host.Outcome.next (agentRequest_line s a p hop rfl _ _), lineReq_read hrest l 0 0 (Or.inr ⟨rfl, rfl⟩) hwb⟩
  · have hop : opOf h.tag = .flush := by rw [htag]; rfl
    exact ⟨_, congrArg Host.Outcome.next (agentRequest_line s a p hop rfl _ _),
      fun hst => lineReq_flush_owned hrest l 0 0 hwb (Or.inl ⟨hst, rfl, rfl⟩), fun hst => lineReq_flush_owned hrest l 0 0 hwb (Or.inr ⟨hst, rfl, rfl⟩),
      lineReq_flush_other hrest l 0 0 hwb⟩

end Sys2Proof.Machine
end

section
/-! PROOFS. Conversions of granules, from the command to the granule in its new state, O57. -/

namespace Sys2Proof.Machine

-- One proof after another: side by side they need more memory than a check has.
set_option Elab.async false

/-! ### A conversion begins (R321) -/

namespace State

/-- What a conversion command answers: refused as running, done already or exhausted, or begun. -/
theorem startConversion_answers (s : State) (g : Nat) (toSealed : Bool) :
    (s.on .SEAL_GRAN_RES_BUSY 0 = true → (s.startConversion g toSealed).fld .SEAL_GRAN_RES_RESULT 0 = 2) ∧
    (s.on .SEAL_GRAN_RES_BUSY 0 = false →
      (s.granule g = b2n toSealed → (s.startConversion g toSealed).fld .SEAL_GRAN_RES_RESULT 0 = 3) ∧
      (s.granule g ≠ b2n toSealed →
        (toSealed = true ∧ s.fld .SEAL_GRAN_EPOCH g = 2 ^ 24 - 1 → (s.startConversion g toSealed).fld .SEAL_GRAN_RES_RESULT 0 = 4) ∧
        (¬ (toSealed = true ∧ s.fld .SEAL_GRAN_EPOCH g = 2 ^ 24 - 1) →
          (s.startConversion g toSealed).granule g = 2 ∧ (s.startConversion g toSealed).on .SEAL_GRAN_RES_BUSY 0 = true ∧
            (s.startConversion g toSealed).seals.converting = some (g, toSealed)))) := by
  unfold State.startConversion
  refine ⟨fun hbusy => ?_, fun hfree => ⟨fun hdone => ?_, fun hother => ⟨fun hlast => ?_, fun hmore => ?_⟩⟩⟩
  · rw [if_pos hbusy, fld_put_same]
    rfl
  · rw [if_neg (by simp [hfree]), if_pos hdone, fld_put_same]
    rfl
  · rw [if_neg (by simp [hfree]), if_neg hother, if_pos (by simp [hlast]), fld_put_same]
    rfl
  · rw [if_neg (by simp [hfree]), if_neg hother, if_neg (by simpa using hmore)]
    extract_lets s1
    let begun : State := s1.setSeal fun x => { x with converting := some (g, toSealed) }
    have hafter : Goes (mask (.SEAL_LINE_STAT :: signals (counting [.MEM_HOME_CNT])) (signalled [.crossings, .memo])) begun
        (begun.showRoots.recallGranule g) := ((goes_showRoots begun).lift (by decide)).step (goes_recallGranule _ g) (by decide)
    have hstate : begun.granule g = 2 := 
      ((s.put .SEAL_GRAN_STATE g 2).fld_put_ne (f := .SEAL_GRAN_RES_BUSY) 0 g 1 (by decide)).trans (s.fld_put_same ..)
    exact ⟨(hafter.granule g).trans hstate, (hafter.onKept .SEAL_GRAN_RES_BUSY 0).trans ((s.put .SEAL_GRAN_STATE g 2).on_put_one .SEAL_GRAN_RES_BUSY 0 (by decide)),
      congrArg SealState.converting (hafter.within.2 .seals (by decide) :)⟩

end State

/-- A conversion command of the Postroom that takes place begins the conversion that it names. -/
theorem exec_granCmd {s : State} (h : s.takes .postroom true .SEAL_GRAN_CMD 0 = true) (g : BitVec 8) (toSealed : Bool) :
    exec (if toSealed = true then .granuleSeal .postroom g else .granuleUnseal .postroom g) s =
      .next ((s.passAccess .postroom true (Reg.domain .SEAL_GRAN_CMD 0)).startConversion g.toNat toSealed) := by
  have hg := g.isLt
  have hseal : (256 + g.toNat) / 256 % 4 = 1 ∧ (256 + g.toNat) % 256 = g.toNat := by omega
  have hunseal : (512 + g.toNat) / 256 % 4 = 2 ∧ (512 + g.toNat) % 256 = g.toNat := by omega
  cases toSealed with
  | true => exact congrArg Host.Outcome.next ((State.access_of_takes h _ _).trans (by simp only [State.granCmd, hseal, ne_eq, not_true_eq_false, if_false]))
  | false => exact congrArg Host.Outcome.next ((State.access_of_takes h _ _).trans (by simp only [State.granCmd, hunseal, ne_eq, not_true_eq_false, if_false]))

/-! ### A conversion ends (R322) -/

theorem ofLe_zeros (n : Nat) : ofLe ((List.range n).map fun _ => (0 : Byte)) = 0 := by
  have hzeros (m : Nat) : ofLe (List.replicate m (0 : Byte)) = 0 := by
    induction m with
    | zero => rfl
    | succ m ih => rw [List.replicate_succ, ofLe, ih]; rfl
  rw [List.map_const', List.length_range, hzeros]

namespace State

/-- A line whose bytes are zeros, and that no seal engine has written since its conversion, reads 0. -/
theorem lineAt_eq_zero {s : State} {l : Nat} (hbytes : ∀ a, a / 2 ^ 30 = lineGranule l → Tbl.find 0 s.memo.bytes a = 0)
    (htags : Tbl.find none s.seals.tags l = none) : s.lineAt l = 0 := by
  have hraw : s.rawLine l = 0 := by
    rw [State.rawLine, ← ofLe_zeros 64]
    congr 1
    refine List.map_congr_left fun k hk => hbytes _ ?_
    rw [List.mem_range] at hk
    unfold lineGranule
    omega
  rw [State.lineAt, State.sealedLine, htags, Option.isSome_none, if_neg Bool.false_ne_true, decryptLine_encryptLine s l (by positivity), hraw,
    ite_self]

/-- Granule `g` once it is zeros, in its new state. -/
def newGranule (s : State) (g : Nat) (toSealed : Bool) : State := if toSealed then s.sealGranule g else s.unsealGranule g

theorem tags_raiseRoots (s : State) (g : Nat) (l : List Nat) : (s.each l fun k s => s.raiseRoot k g).seals.tags = s.seals.tags :=
  State.each_keeps (P := fun t => t.seals.tags = s.seals.tags) (g := fun k s => s.raiseRoot k g) (fun _ _ _ ht => ht) rfl

theorem newGranule_state (s : State) (g : Nat) (toSealed : Bool) : (s.newGranule g toSealed).granule g = b2n toSealed := by
  cases toSealed with
  | true => exact ((goes_showRoots _).granule g).trans (fld_put_same ..)
  | false => exact ((goes_showRoots _).granule g).trans (fld_put_same ..)

theorem newGranule_tags (s : State) (g : Nat) (toSealed : Bool) :
    (s.newGranule g toSealed).seals.tags = Tbl.keep (fun l => lineGranule l != g) s.seals.tags := by
  cases toSealed with
  | true =>
    have hshown := (goes_showRoots (((s.zeroGranule g).addMod .SEAL_GRAN_EPOCH g 1 |>.each (List.range 4) fun k s => s.raiseRoot k g).put
      .SEAL_GRAN_STATE g 1)).within.2 .seals (by decide)
    exact (congrArg SealState.tags hshown).trans (tags_raiseRoots ((s.zeroGranule g).addMod .SEAL_GRAN_EPOCH g 1) g (List.range 4))
  | false => exact congrArg SealState.tags ((goes_showRoots ((s.zeroGranule g).put .SEAL_GRAN_STATE g 0)).within.2 .seals (by decide))

theorem newGranule_memo (s : State) (g : Nat) (toSealed : Bool) :
    (s.newGranule g toSealed).memo = { s.memo with bytes := Tbl.keep (fun a => a / 2 ^ 30 != g) s.memo.bytes } := by
  cases toSealed with
  | true =>
    have hraised := (Goes.refl (mask [] [.seals]) ((s.zeroGranule g).addMod .SEAL_GRAN_EPOCH g 1)).each (List.range 4) (fun k s => s.raiseRoot k g)
      fun k t => t.goes_raiseRoot k g
    exact (goes_showRoots _).memo.trans hraised.memo
  | false => exact (goes_showRoots _).memo

/-- Stacks at which nothing waits only show their counts. -/
theorem serveStacks_of_rest {s : State} (h : s.HomesRest) (l : List Nat) :
    Goes (mask [.MEM_HOME_STAT] []) s (s.each l fun k s => s.serveStack k) := by
  refine (State.each_keeps (P := fun t => t.HomesRest ∧ Goes (mask [.MEM_HOME_STAT] []) s t) (fun k _ t ht => ?_) ⟨h, Goes.refl _ s⟩).2
  obtain ⟨hrest, hgoes⟩ := ht
  rw [serveStack_of_rest hrest]
  exact ⟨hrest.of_onlyMsgs (.of_memo (t.memo_showHome k)), hgoes.trans (t.goes_showHome k)⟩

/-- The granule in its new state, with RESULT, before the event. -/
def granuleDone (s : State) (g : Nat) (toSealed : Bool) : State :=
  (((s.newGranule g toSealed).setSeal fun x => { x with converting := none }).put .SEAL_GRAN_RES_RESULT 0 1).put .SEAL_GRAN_RES_BUSY 0 0

theorem finishConversion_eq (s : State) (g : Nat) (toSealed : Bool) : s.finishConversion g toSealed =
    (((s.granuleDone g toSealed).raise 160).completeOn 0x0801 g .OK []).each (List.range 4) fun k s => s.serveStack k := rfl

theorem granuleDone_state (s : State) (g : Nat) (toSealed : Bool) : (s.granuleDone g toSealed).granule g = b2n toSealed :=
  (fld_put_ne _ _ _ _ (by decide)).trans ((fld_put_ne _ _ _ _ (by decide)).trans (s.newGranule_state g toSealed))

theorem granuleDone_bytes (s : State) (g : Nat) (toSealed : Bool) :
    (s.granuleDone g toSealed).memo.bytes = Tbl.keep (fun a => a / 2 ^ 30 != g) s.memo.bytes :=
  congrArg MemState.bytes (s.newGranule_memo g toSealed)

theorem granuleDone_tags (s : State) (g : Nat) (toSealed : Bool) :
    (s.granuleDone g toSealed).seals.tags = Tbl.keep (fun l => lineGranule l != g) s.seals.tags := s.newGranule_tags g toSealed

theorem granuleDone_result (s : State) (g : Nat) (toSealed : Bool) : (s.granuleDone g toSealed).fld .SEAL_GRAN_RES_RESULT 0 = 1 :=
  (fld_put_ne _ _ _ _ (by decide)).trans (fld_put_same ..)

theorem HomesRest.granuleDone {s : State} (h : s.HomesRest) (g : Nat) (toSealed : Bool) : (s.granuleDone g toSealed).HomesRest :=
  h.of_eq (congrArg MemState.writes (s.newGranule_memo g toSealed) :) (congrArg MemState.dir (s.newGranule_memo g toSealed) :)

/-- What the raise, the services that complete and the stacks leave of a conversion that has ended. -/
theorem finishConversion_after {s : State} (hrest : s.HomesRest) (g : Nat) (toSealed : Bool) :
    Goes (mask (.MEM_HOME_STAT :: signals (counting [])) (signalled [.svc])) (s.granuleDone g toSealed) (s.finishConversion g toSealed) ∧
      (s.finishConversion g toSealed).pends 160 = true := by
  rw [finishConversion_eq]
  have hcompleted : Goes (mask (.MEM_HOME_STAT :: signals (counting [])) (signalled [.svc])) (s.granuleDone g toSealed)
      (((s.granuleDone g toSealed).raise 160).completeOn 0x0801 g .OK []) :=
    ((Goes.refl _ _).raised 160 (by decide)).step (goes_completeOn _ 0x0801 g .OK []) (by decide)
  have hserved := serveStacks_of_rest ((hrest.granuleDone g toSealed).of_onlyMsgs (.of_memo hcompleted.memo)) (List.range 4)
  refine ⟨hcompleted.step hserved (by decide), (hserved.calm (by decide) (by decide)).pends 160 ?_⟩
  exact (calm_completeOn _ 0x0801 g .OK []).pends 160 (State.pends_raiseWith ..)

end State

/-- A conversion whose homes hold nothing of the granule, with every share ready, ends. -/
theorem exec_conversionComplete {s : State} {g : Nat} {toSealed : Bool} (hconv : s.seals.converting = some (g, toSealed))
    (hempty : ∀ e ∈ s.memo.dir, lineGranule e.1 = g → e.2.st = 0)
    (hready : ∀ k : Fin 4, s.on .SEAL_LINE_STAT_KEYS k = true ∧ s.domainWaits (some (18 + k.val)) = false ∧ s.on .MEM_STK_STAT_RESYNC k = false) :
    exec .conversionComplete s = .next (s.finishConversion g toSealed) := by
  have hheld : s.memo.dir.any (fun e => lineGranule e.1 == g && e.2.st != 0) = false := by
    rw [List.any_eq_false]
    intro e he
    by_cases h : lineGranule e.1 = g
    · simp [hempty e he h]
    · simp [h]
  have hshares : (List.range 4).all (fun k => s.on .SEAL_LINE_STAT_KEYS k && s.runs (18 + k) && !s.isHeld (18 + k) && !s.on .MEM_STK_STAT_RESYNC k) =
      true := by
    rw [List.all_eq_true]
    intro k hk
    obtain ⟨hkeys, hwaits, hresync⟩ := hready ⟨k, List.mem_range.mp hk⟩
    simp only [State.domainWaits, Bool.or_eq_false_iff, Bool.not_eq_false'] at hwaits hkeys hresync
    simp [hkeys, hwaits, hresync]
  refine congrArg Host.Outcome.next ?_
  simp only [hconv, hheld, hshares, Bool.not_true, Bool.or_self, Bool.false_eq_true, if_false]

/-- Settles O57: by what the start of a conversion answers, and by what its end leaves of the granule in its new state. -/
theorem granulesAreConverted : Obligations.GranulesAreConverted := by
  refine ⟨fun g toSealed s htakes => ?_, fun g toSealed s hconv hempty hready hrest => ?_⟩
  · have hpassed := (s.goes_passAccess .postroom true (Reg.domain .SEAL_GRAN_CMD 0)).within
    refine ⟨_, exec_granCmd htakes g toSealed, ?_⟩
    have hanswers := (s.passAccess .postroom true (Reg.domain .SEAL_GRAN_CMD 0)).startConversion_answers g.toNat toSealed
    rw [State.on, State.granule, hpassed.1 .SEAL_GRAN_RES_BUSY 0 (by decide), hpassed.1 .SEAL_GRAN_STATE _ (by decide),
      hpassed.1 .SEAL_GRAN_EPOCH _ (by decide)] at hanswers
    exact hanswers
  · obtain ⟨hafter, hpends⟩ := State.finishConversion_after hrest g toSealed
    refine ⟨_, exec_conversionComplete hconv hempty hready, ?_, ?_, ?_, hpends, ?_, fun l hl => ?_⟩
    · exact (hafter.granule g).trans (s.granuleDone_state g toSealed)
    · exact (hafter.onKept .SEAL_GRAN_RES_BUSY 0).trans (State.on_put_zero ..)
    · exact (hafter.within.1 .SEAL_GRAN_RES_RESULT 0 (by decide)).trans (s.granuleDone_result g toSealed)
    · exact congrArg SealState.converting (hafter.within.2 .seals (by decide) :)
    · refine State.lineAt_eq_zero (fun a ha => ?_) ?_
      · rw [(congrArg MemState.bytes hafter.memo :), State.granuleDone_bytes, Tbl.find_keep, if_neg (by simpa using ha.trans hl)]
      · rw [(congrArg SealState.tags (hafter.within.2 .seals (by decide) :) :), State.granuleDone_tags, Tbl.find_keep, if_neg (by simp [hl])]

end Sys2Proof.Machine
end

section
/-! PROOFS. Errors, temperatures, fills and resynchronisations of a stack, O56. -/

namespace Sys2Proof.Machine

-- One proof after another: side by side they need more memory than a check has.
set_option Elab.async false

/-! ### Errors, temperatures and fills of a stack (R310, R311, R315) -/

namespace State

theorem stackCorr_shows (s : State) (l : Nat) : (s.stackCorr l).on .MEM_STK_ERR_CORR (lineStack l) = true ∧
    (s.stackCorr l).fld .MEM_STK_ECNT_CORR_CNT (lineStack l) = min (s.fld .MEM_STK_ECNT_CORR_CNT (lineStack l) + 1) (2 ^ 16 - 1) := by
  refine ⟨(on_put_ne _ _ _ _ (by decide)).trans (on_put_one _ _ _ (by decide)), ?_⟩
  rw [State.stackCorr, fld_bump_same, fld_put_ne _ _ _ _ (by decide)]
  rfl

theorem stackUncorr_shows (s : State) (l : Nat) :
    (s.stackUncorr l).on .MEM_STK_ERR_UNCORR (lineStack l) = true ∧ (s.stackUncorr l).pends (148 + lineStack l) = true := by
  refine ⟨?_, pends_raiseWith ..⟩
  exact (State.goes_raiseWith _ _ _).onKept _ _ |>.trans ((on_put_ne _ _ _ _ (by decide)).trans (on_put_one _ _ _ (by decide)))

end State

theorem patrolRead_acts (l : BitVec 32) (s : State) (hpatrol : s.on .MEM_STK_CTL_PATROL (lineStack l.toNat) = true) (hopen : s.homeOpen l.toNat = true) :
    let k := lineStack l.toNat
    exec (.patrolRead l .clean) s = .next s ∧
    (∃ t, exec (.patrolRead l .corrected) s = .next t ∧ t.on .MEM_STK_ERR_CORR k = true ∧
      t.fld .MEM_STK_ECNT_CORR_CNT k = min (s.fld .MEM_STK_ECNT_CORR_CNT k + 1) (2 ^ 16 - 1)) ∧
    ∃ t, exec (.patrolRead l .uncorrectable) s = .next t ∧ t.on .MEM_STK_ERR_UNCORR k = true ∧ t.pends (148 + k) = true ∧
      Tbl.find 0 t.seals.failing l.toNat = 2 := by
  intro k
  have hreads : ¬ (!s.on .MEM_STK_CTL_PATROL (lineStack l.toNat) || !s.homeOpen l.toNat) = true := by simp [hpatrol, hopen]
  obtain ⟨huncorr, hpends⟩ := s.stackUncorr_shows l.toNat
  refine ⟨congrArg Host.Outcome.next (if_neg hreads), ⟨_, congrArg Host.Outcome.next (if_neg hreads), s.stackCorr_shows l.toNat⟩,
    ⟨_, congrArg Host.Outcome.next (if_neg hreads), ?_⟩⟩
  let failed : State := (s.stackUncorr l.toNat).setSeal fun z => { z with failing := Tbl.set 0 z.failing l.toNat 2 }
  have hafter : Goes (mask (signals (counting [.SEAL_LINE_CNT, .SEAL_LINE_ERR, .SEAL_LINE_ERRADDR])) (signalled [])) failed
      (failed.when (failed.isSealed l.toNat) (·.sealFail l.toNat false true)) := (Goes.refl _ _).when _ _ fun t => t.goes_sealFail_tight ..
  have hcalm : Calm failed (failed.when (failed.isSealed l.toNat) (·.sealFail l.toNat false true)) :=
    (Calm.refl _).when _ _ fun t => t.calm_sealFail ..
  have hfailing : Tbl.find 0 failed.seals.failing l.toNat = 2 := Tbl.find_set_same 0 (s.stackUncorr l.toNat).seals.failing l.toNat 2
  exact ⟨(hafter.onKept _ _).trans huncorr, hcalm.pends _ hpends,
    (congrArg (fun z : SealState => Tbl.find 0 z.failing l.toNat) (hafter.within.2 .seals (by decide)) :).trans hfailing⟩

theorem stackTempSample_shows (k : Fin 4) (temp : BitVec 8) (s : State) :
    ∃ t, exec (.stackTempSample k temp) s = .next t ∧ t.fld .MEM_STK_STAT_TEMP k = temp.toNat ∧
    (s.fld .MEM_STK_CTL_TEMP_WARN k < temp.toNat → t.on .MEM_STK_ERR_TEMP_HI k = true ∧
      (s.on .MEM_STK_ERR_TEMP_HI k = false → t.pends (148 + k) = true)) ∧
    (temp.toNat ≤ s.fld .MEM_STK_CTL_TEMP_WARN k → Within [.MEM_STK_STAT] [] s t) := by
  let s1 := s.put .MEM_STK_STAT_TEMP k temp.toNat
  have htemp : s1.fld .MEM_STK_STAT_TEMP k = temp.toNat := (State.fld_put_same ..).trans (Nat.mod_eq_of_lt temp.isLt)
  have hwarn : s1.fld .MEM_STK_CTL_TEMP_WARN k = s.fld .MEM_STK_CTL_TEMP_WARN k := State.fld_put_ne _ _ _ _ (by decide)
  have hclear : s1.on .MEM_STK_ERR_TEMP_HI k = s.on .MEM_STK_ERR_TEMP_HI k := State.on_put_ne _ _ _ _ (by decide)
  by_cases hhot : s.fld .MEM_STK_CTL_TEMP_WARN k < temp.toNat
  · have hraised := (Goes.refl (mask (signals []) (signalled [])) (s1.put .MEM_STK_ERR_TEMP_HI k 1)).when (!s1.on .MEM_STK_ERR_TEMP_HI k)
      (·.raise (148 + k)) fun t => t.goes_raiseWith _ _
    refine ⟨_, congrArg Host.Outcome.next (if_pos (hwarn ▸ hhot)), ?_, fun _ => ⟨?_, fun hlow => ?_⟩, fun hcool => absurd hhot (by omega)⟩
    · exact (hraised.within.1 .MEM_STK_STAT_TEMP k (by decide)).trans ((State.fld_put_ne _ _ _ _ (by decide)).trans htemp)
    · exact (hraised.onKept .MEM_STK_ERR_TEMP_HI k).trans (State.on_put_one _ _ _ (by decide))
    · have hrises : (!s1.on .MEM_STK_ERR_TEMP_HI k) = true := by simp [hclear, hlow]
      rw [hrises]
      exact State.pends_raiseWith ..
  · refine ⟨s1, congrArg Host.Outcome.next (if_neg (hwarn ▸ hhot)), htemp, fun h => absurd h hhot, fun _ => ?_⟩
    exact ((Goes.refl (mask [.MEM_STK_STAT] []) s).write _ _ _ (by decide)).within

/-- The state of the resets shows neither in a register nor among the events. -/
theorem State.shows_of_resets {s : State} {f : Fld} {i src : Nat} (hon : s.on f i = true) (hpends : s.pends src = true) (c : Bool) (r : ResetState) :
    (if c then { s with resets := r } else s).on f i = true ∧ (if c then { s with resets := r } else s).pends src = true := by
  cases c with
  | true => exact ⟨hon, hpends⟩
  | false => exact ⟨hon, hpends⟩

theorem stackFillDone_shows (k : Fin 4) (s : State) (hfill : s.on .MEM_STK_STAT_FILL_DONE k = false) (hlost : s.resets.lostStacks = true)
    (hstage : s.resets.stage = 0) :
    ∃ t, exec (.stackFillDone k) s = .next t ∧ t.on .MEM_STK_STAT_FILL_DONE k = true ∧ t.pends (148 + k) = true := by
  have hfills : ¬ (s.on .MEM_STK_STAT_FILL_DONE k || !s.resets.lostStacks || s.resets.stage != 0) = true := by simp [hfill, hlost, hstage]
  let raised := (s.put .MEM_STK_STAT_FILL_DONE k 1).raise (148 + k)
  let filled := raised.serveStack k
  have hdone : filled.on .MEM_STK_STAT_FILL_DONE k = true := ((State.goes_serveStack _ _).onKept _ _).trans
    (((State.goes_raiseWith _ _ _).onKept .MEM_STK_STAT_FILL_DONE k).trans (State.on_put_one _ _ _ (by decide)))
  have hpends : filled.pends (148 + k) = true := (raised.calm_serveStack k).pends _ (State.pends_raiseWith ..)
  exact ⟨_, congrArg Host.Outcome.next (if_neg hfills), State.shows_of_resets hdone hpends _ _⟩

/-! ### Resynchronisation (R313) -/

theorem Calm.resyncDone {s t : State} (h : Calm s t) (k : Nat) : t.resyncDone k = s.resyncDone k := congrArg (Tbl.find [] · k) h.resynced

/-- What a resynchronisation request makes of a line that an agent holds: written back if it is in M, else dropped. -/
def CLine.givenBack (x : CLine) : CLine := if x.st = 3 then { x with wb := true } else .invalid

theorem CLine.givenBack_givenBack (x : CLine) : x.givenBack.givenBack = x.givenBack := by
  unfold CLine.givenBack
  by_cases h : x.st = 3
  · simp [h]
  · simp [h, CLine.invalid]

namespace State

theorem cached_setCached_ne (s : State) {a b l n : Nat} (x : CLine) (hl : l < 2 ^ 32) (hn : n < 2 ^ 32) (hne : l ≠ n) :
    (s.setCached a l x).cached b n = s.cached b n := by
  rw [State.cached, memo_setCached]
  exact Tbl.find_set_ne _ _ (fun he => hne (cacheKey_inj hl hn he).2) _

/-- The agent gives a line back to its home. -/
def giveBack (s : State) (a l : Nat) : State :=
  if (s.cached a l).st = 3 then (s.setCached a l { s.cached a l with wb := true }).post .wbDirty a l (s.cached a l).data 0
  else s.setCached a l CLine.invalid

theorem cached_giveBack (s : State) (a : Nat) {l n : Nat} (hl : l < 2 ^ 32) (hn : n < 2 ^ 32) :
    (s.giveBack a l).cached a n = if l = n then (s.cached a n).givenBack else s.cached a n := by
  unfold State.giveBack CLine.givenBack
  by_cases hln : l = n
  · subst hln
    rw [if_pos rfl]
    split
    · rw [cached_post, cached_setCached_same]
    · rw [cached_setCached_same]
  · rw [if_neg hln]
    split
    · rw [cached_post, cached_setCached_ne _ _ hl hn hln]
    · rw [cached_setCached_ne _ _ hl hn hln]

theorem calm_giveBack (s : State) (a l : Nat) : Calm s (s.giveBack a l) :=
  Calm.ite ((s.calm_setCached ..).trans (calm_post ..)) (s.calm_setCached ..)

theorem linesOf_lt {s : State} {a l : Nat} (h : l ∈ s.linesOf a) : l < 2 ^ 32 := by
  obtain ⟨e, -, rfl⟩ := List.mem_map.mp h
  exact Nat.mod_lt _ (by positivity)

/-- A line that the table of the caches does not name is not held. -/
theorem cached_of_not_mem {s : State} {a l : Nat} (hl : l < 2 ^ 32) (h : l ∉ s.linesOf a) : s.cached a l = .invalid := by
  by_contra hheld
  have hmem := Tbl.mem_of_find_ne hheld
  refine h (List.mem_map.mpr ⟨_, List.mem_filter.mpr ⟨hmem, ?_⟩, ?_⟩)
  · simp only [cacheKey, beq_iff_eq]
    omega
  · simp only [cacheKey]
    omega

/-- The lines of stack `k` that agent `a` holds. -/
def linesIn (s : State) (a k : Nat) : List Nat := (s.linesOf a).filter fun l => lineStack l == k

theorem cached_giveBacks (s : State) (a k : Nat) {n : Nat} (hn : n < 2 ^ 32) (hk : lineStack n = k) :
    (s.each (s.linesIn a k) fun l s => s.giveBack a l).cached a n = (s.cached a n).givenBack := by
  have hlt : ∀ l ∈ s.linesIn a k, l < 2 ^ 32 := fun l hl => linesOf_lt (List.mem_filter.mp hl).1
  by_cases hmem : n ∈ s.linesIn a k
  · refine each_reaches (P := fun t => t.cached a n = s.cached a n) (Q := fun t => t.cached a n = (s.cached a n).givenBack) hmem
      (fun l hl hne t ht => ?_) (fun t ht => ?_) (fun l hl t ht => ?_) rfl
    · rw [cached_giveBack t a (hlt l hl) hn, if_neg hne, ht]
    · rw [cached_giveBack t a hn hn, if_pos rfl, ht]
    · rw [cached_giveBack t a (hlt l hl) hn, ht, CLine.givenBack_givenBack, ite_self]
  · have hnone : s.cached a n = .invalid := cached_of_not_mem hn fun h => hmem (List.mem_filter.mpr ⟨h, by simp [hk]⟩)
    have hgone : CLine.invalid.givenBack = .invalid := rfl
    rw [hnone, hgone]
    refine State.each_keeps (P := fun t => t.cached a n = .invalid) (fun l hl t ht => ?_) hnone
    rw [cached_giveBack t a (hlt l hl) hn, ht, hgone, ite_self]

theorem resyncAgent_gives (s : State) (k a : Nat) : (s.resyncAgent k a).resyncDone k = s.resyncDone k ++ [a] ∧
    ∀ n, n < 2 ^ 32 → lineStack n = k → (s.resyncAgent k a).cached a n = (s.cached a n).givenBack := by
  have hcalm : Calm s (s.each (s.linesIn a k) fun l s => s.giveBack a l) := (Calm.refl s).each _ _ fun l t => t.calm_giveBack a l
  refine ⟨?_, fun n hn hk => s.cached_giveBacks a k hn hk⟩
  have hreported : (s.resyncAgent k a).resyncDone k = (s.each (s.linesIn a k) fun l s => s.giveBack a l).resyncDone k ++ [a] :=
    Tbl.find_set_same ..
  rw [hreported, hcalm.resyncDone]

end State

theorem stackResyncRequest_acts (k : Fin 4) (a : Fin 20) (s : State) (hresync : s.on .MEM_STK_STAT_RESYNC k = true)
    (hnew : a.val ∉ s.resyncDone k) (halive : a.val ∉ s.deadCores) :
    ∃ t, exec (.stackResyncRequest k a) s = .next t ∧ t.resyncDone k = s.resyncDone k ++ [a.val] ∧
      ∀ l : BitVec 32, lineStack l.toNat = k.val →
        t.cached a l.toNat = if (s.cached a l.toNat).st = 3 then { s.cached a l.toNat with wb := true } else CLine.invalid := by
  have hasks : (s.on .MEM_STK_STAT_RESYNC k && !(s.resyncDone k).contains a.val && !s.deadCores.contains a.val) = true := by
    simp [hresync, hnew, halive]
  obtain ⟨hreported, hlines⟩ := s.resyncAgent_gives k a
  exact ⟨_, congrArg Host.Outcome.next (if_pos hasks), hreported, fun l hl => hlines l.toNat l.isLt hl⟩

/-- Once every agent has reported, the reports are cleared and the request is answered. -/
theorem exec_stackResyncDone {k : Fin 4} {s : State} (hresync : s.on .MEM_STK_STAT_RESYNC k = true)
    (hruns : s.domainWaits (some (18 + k.val)) = false) (hall : ∀ a : Fin 20, a.val ∈ s.resyncDone k ∨ a.val ∈ s.deadCores) :
    ∃ u : State, u.resyncDone k = [] ∧
      exec (.stackResyncDone k) s = .next (((u.put .MEM_STK_STAT_RESYNC k 0).raise (152 + k)).serveStack k) := by
  have hdone : (List.range 20).all (s.resyncDone k ++ s.deadCores).contains = true := by
    rw [List.all_eq_true]
    intro a ha
    simpa using hall ⟨a, List.mem_range.mp ha⟩
  have hends : ¬ (!s.on .MEM_STK_STAT_RESYNC k || s.domainWaits (some (18 + k)) || !(List.range 20).all (s.resyncDone k ++ s.deadCores).contains) =
      true := by simp [hresync, hruns, hdone]
  refine ⟨_, ?_, congrArg Host.Outcome.next (if_neg hends)⟩
  have hacked (m : Msg) (t : State) : Calm t ((t.memWrite m.line m.data Touch.clean none).1.post .wbAck m.who m.line 0 0) :=
    (t.calm_memWrite ..).trans (State.calm_post ..)
  have hdropped (a : Nat) (t : State) : Calm t (t.each ((t.linesOf a).filter fun l => lineStack l == k.val) fun l s => s.setCached a l CLine.invalid) :=
    (Calm.refl t).each _ _ fun l u => u.calm_setCached ..
  exact (Calm.resyncDone ((((Calm.refl _).each _ _ hacked).each _ _ hdropped).each _ _ fun l t => t.calm_setDir ..) k).trans
    (Tbl.find_set_same [] (s.dropMsgs _).memo.resynced k.val [])

theorem stackResyncDone_ends (k : Fin 4) (s : State) (hresync : s.on .MEM_STK_STAT_RESYNC k = true)
    (hruns : s.domainWaits (some (18 + k.val)) = false) (hall : ∀ a : Fin 20, a.val ∈ s.resyncDone k ∨ a.val ∈ s.deadCores) :
    ∃ t, exec (.stackResyncDone k) s = .next t ∧ t.on .MEM_STK_STAT_RESYNC k = false ∧ t.resyncDone k = [] ∧ t.pends (152 + k) = true := by
  obtain ⟨u, hu, hexec⟩ := exec_stackResyncDone hresync hruns hall
  let raised := (u.put .MEM_STK_STAT_RESYNC k 0).raise (152 + k)
  have hserved : Calm raised (raised.serveStack k) := State.calm_serveStack ..
  have hraised : Calm u raised := ((Calm.refl u).put _ _ _ (by decide)).raised _ _
  refine ⟨_, hexec, ?_, ?_, hserved.pends _ (State.pends_raiseWith ..)⟩
  · exact ((State.goes_serveStack _ _).onKept _ _).trans (((State.goes_raiseWith _ _ _).onKept .MEM_STK_STAT_RESYNC k).trans (u.on_put_zero ..))
  · exact ((hraised.trans hserved).resyncDone k).trans hu

/-- Settles O56: the events of a stack one by one, the resynchronisation by the lines that the agent gives back. -/
theorem stackEventsActOnTheStack : Obligations.StackEventsActOnTheStack :=
  ⟨patrolRead_acts, stackTempSample_shows, stackFillDone_shows, stackResyncRequest_acts, stackResyncDone_ends⟩

end Sys2Proof.Machine
end

section
/-! PROOFS. Starts of the device by their stages, O58. -/

namespace Sys2Proof.Machine

-- One proof after another: side by side they need more memory than a check has.
set_option Elab.async false

/-! ### Domains that run from the lock of their PLLs (R489 step 3) -/

namespace State

/-- A domain that starts runs, and no other stops. -/
theorem runs_startDomain (s : State) {d : Nat} (hd : d < 25) (e : Nat) : (s.startDomain d).runs e = (s.runs e || e == d) := by
  have hbit : (s.putBit .DEV_ISL_RUN_RUN 0 d true).runs e = (s.runs e || e == d) := by
    rw [State.runs, s.bitOf_putBit .DEV_ISL_RUN_RUN 0 hd]
    by_cases h : e = d <;> simp [h, State.runs]
  unfold State.startDomain
  by_cases hruns : s.runs d = true
  · rw [if_pos hruns]
    by_cases h : e = d <;> simp [h, hruns]
  · rw [if_neg hruns]
    extract_lets s1 s2
    have hkept : Goes (mask (.MEM_STK_STAT :: faultRegs) faultParts) s1 ((((s2.when (d == 23) (·.timebaseReturn)).when (d == 22) (·.refreshPins))).raise 4) :=
      (((((Goes.refl _ s1).writeIf _ _ _ _ (by decide)).when _ _ fun t => (t.goes_timebaseReturn).lift (by decide)).when _ _ fun t =>
        (t.goes_refreshPins).lift (by decide)).raised _ (by decide))
    split
    · exact hbit
    · exact (congrArg (bitOf · e) (hkept.within.1 .DEV_ISL_RUN_RUN 0 (by decide))).trans hbit

theorem runs_of_goes {rs : List Reg} {ps : List Part} {s t : State} (h : Goes (mask rs ps) s t) (d : Nat) (hr : Reg.DEV_ISL_RUN ∉ rs := by decide) :
    t.runs d = s.runs d := congrArg (bitOf · d) (h.within.1 .DEV_ISL_RUN_RUN 0 hr)

theorem mem_pllDomains (d : Nat) : d ∈ [18, 19, 20, 21, 22, 23] ↔ 18 ≤ d ∧ d ≤ 23 := by
  simp only [List.mem_cons, List.not_mem_nil, or_false]
  omega

theorem runs_lockPlls (s : State) {d : Nat} (hlow : 18 ≤ d) (hhigh : d ≤ 23) : s.lockPlls.runs d = true := by
  have hmem : d ∈ [18, 19, 20, 21, 22, 23] := (mem_pllDomains d).mpr ⟨hlow, hhigh⟩
  have hstarts (e : Nat) (he : e ∈ [18, 19, 20, 21, 22, 23]) (t : State) :
      ((t.startDomain e).when (decide (e < 22)) (·.put .MEM_STK_STAT_SELF_REFRESH (e - 18) (t.fld .MEM_STK_STAT_SELF_REFRESH (e - 18)))).runs d =
        (t.runs d || d == e) := by
    rw [runs_of_goes ((Goes.refl (mask [.MEM_STK_STAT] []) (t.startDomain e)).writeIf _ _ _ _ (by decide)), t.runs_startDomain (((mem_pllDomains e).mp he).2.trans_lt (by decide))]
  refine each_reaches (P := fun _ => True) (Q := fun t => t.runs d = true) (x := d) hmem (fun _ _ _ _ _ => trivial) (fun t _ => ?_)
    (fun e he t ht => ?_) trivial
  · rw [hstarts d hmem]
    simp
  · rw [hstarts e he, ht, Bool.true_or]

/-! ### The release of a reset (R487, R489) -/

/-- What a released reset shows, and what of the resets its release leaves. -/
structure Released (s t : State) : Prop where
  stage : t.resets.stage = if t.lifeCycle = 4 then 7 else 0
  shown : t.fld .DEV_RST_CAUSE_CAUSE 0 = s.resets.cause % 16
  cause : t.resets.cause = s.resets.cause
  resetN : t.resets.resetN = s.resets.resetN
  brown : t.resets.brown = s.resets.brown
  runs : ∀ d, 18 ≤ d → d ≤ 23 → t.runs d = true

theorem goes_running (s : State) (f : StartFacts) : Goes (mask [] [.crossings, .resets]) s (s.running f) :=
  ((Goes.refl _ s).each _ _ fun _ t => (t.goes_crossRelease ..).lift (by decide)).set_resets _ (mask_part (by decide))

theorem running_resets (s : State) (f : StartFacts) : (s.running f).resets.stage = 0 ∧ (s.running f).resets.cause = s.resets.cause ∧
    (s.running f).resets.resetN = s.resets.resetN ∧ (s.running f).resets.brown = s.resets.brown := by
  have hcrossed : (s.each [22, 23, 24] fun d s => s.crossRelease d true).resets = s.resets :=
    ((Goes.refl (mask [] [.crossings]) s).each _ _ fun d t => t.goes_crossRelease d true).within.2 .resets (by decide)
  exact ⟨rfl, (congrArg ResetState.cause hcrossed :), (congrArg ResetState.resetN hcrossed :), (congrArg ResetState.brown hcrossed :)⟩

theorem released_letGo (s : State) (f : StartFacts) : Released s (s.letGo f) := by
  rw [letGo_eq]
  generalize hread : s.lockPlls.readAtRelease f s.resets.cause = t
  have hgoes : Goes (mask (signals [.DEV_ID, .DEV_LC, .DEV_RST_CAUSE, .DEV_SEC_STAT, .DEV_UID, .PWR_THERM_CTL]) (signalled [.lease, .secure])) s.lockPlls t :=
    hread ▸ s.lockPlls.goes_readAtRelease f s.resets.cause
  have hresets : t.resets = s.resets := (hgoes.within.2 .resets (by decide)).trans ((s.goes_lockPlls).within.2 .resets (by decide))
  have hshown : t.fld .DEV_RST_CAUSE_CAUSE 0 = s.resets.cause % 16 := by
    rw [← hread]
    exact fld_put_same ..
  have hruns (d : Nat) (hlow : 18 ≤ d) (hhigh : d ≤ 23) : t.runs d = true := (runs_of_goes hgoes d).trans (s.runs_lockPlls hlow hhigh)
  by_cases hscrapped : t.lifeCycle = 4
  · rw [if_pos hscrapped]
    exact ⟨(if_pos hscrapped).symm, hshown, (congrArg ResetState.cause hresets :), (congrArg ResetState.resetN hresets :),
      (congrArg ResetState.brown hresets :), hruns⟩
  · rw [if_neg hscrapped]
    obtain ⟨hstage, hcause, hresetN, hbrown⟩ := t.running_resets f
    have hstarted := ((t.goes_running f).lift (by decide)).step (State.goes_startUp _ f) (by decide : Inside startUpRegs startUpParts startUpRegs (.resets :: startUpParts))
    have hkept : (((t.running f).startUp f)).resets = (t.running f).resets := ((t.running f).goes_startUp f).within.2 .resets (by decide)
    have hlife : ((t.running f).startUp f).lifeCycle ≠ 4 := fun h => hscrapped ((hstarted.within.1 .DEV_LC_STATE 0 (by decide)).symm.trans h)
    rw [hresets] at hcause hresetN hbrown
    exact ⟨(congrArg ResetState.stage hkept).trans (hstage.trans (if_neg hlife).symm), (hstarted.within.1 .DEV_RST_CAUSE_CAUSE 0 (by decide)).trans hshown,
      (congrArg ResetState.cause hkept).trans hcause, (congrArg ResetState.resetN hkept).trans hresetN, (congrArg ResetState.brown hkept).trans hbrown,
      fun d hlow hhigh => (runs_of_goes hstarted d).trans (hruns d hlow hhigh)⟩

end State

/-! ### Entry to a device-wide reset (R485, R486, R491) -/

namespace State

theorem enterReset_resets (s : State) (k : ResetKind) (cause : Nat) :
    (s.enterReset k cause).resets.cause = cause ∧ (s.enterReset k cause).resets.resetN = s.resets.resetN := by
  have hsteps : (s.enterReset k cause).resets = (s.clearedFor k cause).resets := (s.goes_enterReset_of_clearedFor k cause).within.2 .resets (by decide)
  rw [hsteps]
  exact ⟨rfl, (congrArg ResetState.resetN ((s.goes_restartServices k).within.2 .resets (by decide)) :)⟩

/-- An entered reset waits in the stage of its start, with its cause, RESET_N as it was. -/
theorem enter_resets (s : State) (k : ResetKind) (cause stage : Nat) : (s.enter k cause stage).resets.stage = stage ∧
    (s.enter k cause stage).resets.cause = cause ∧ (s.enter k cause stage).resets.resetN = s.resets.resetN := by
  obtain ⟨hcause, hresetN⟩ := s.enterReset_resets k cause
  let waits : State := { s.enterReset k cause with resets := { (s.enterReset k cause).resets with stage := stage, facts := none } }
  have hzeroised : (waits.when s.secure.scan (·.zeroised)).resets = waits.resets :=
    ((Goes.refl (mask (signals [.DEV_SEC_STAT]) (signalled [])) waits).when _ _ fun t => t.goes_zeroised).within.2 .resets (by decide)
  exact ⟨congrArg ResetState.stage hzeroised, (congrArg ResetState.cause hzeroised).trans hcause, (congrArg ResetState.resetN hzeroised).trans hresetN⟩

end State

theorem State.letGoIf_of_low {s : State} (h : s.resets.resetN = true) (stage : Nat) (f : StartFacts) : s.letGoIf stage f = s.atStage stage := if_pos h

theorem State.letGoIf_of_high {s : State} (h : s.resets.resetN = false) (stage : Nat) (f : StartFacts) : s.letGoIf stage f = s.letGo f := if_neg (by simp [h])

/-! ### The starts by their stages (R485..R491) -/

theorem vaonRise_starts {s : State} (h : s.resets.stage = 6) : ∃ t, exec .vaonRise s = .next t ∧ t.resets.stage = 1 ∧
    t.out = s.out ++ [.cfgDone true, .mainEn true] ∧ Within [] [.outputs, .resets] s t := by
  refine ⟨_, congrArg Host.Outcome.next (if_pos h), rfl, List.append_assoc .., ?_⟩
  exact (((Goes.refl (mask [] [.outputs, .resets]) s).set_resets _ (mask_part (by decide))).emit _ (mask_part (by decide))
    |>.emit _ (mask_part (by decide))).within

theorem vaonLoss_starts (s : State) : ∃ t, exec .vaonLoss s = .next t ∧ t.resets.stage = 6 ∧ t.resets.cause = 1 ∧ t.power.mainEn = false ∧
    .mainEn false ∈ t.out ∧ t.out.getLast? = some (.cfgDone false) := by
  obtain ⟨hstage, hcause, -⟩ := s.enter_resets .powerOn 1 6
  refine ⟨_, rfl, hstage, hcause, rfl, ?_, ?_⟩
  · simp [State.vaonLoss, State.emit]
  · simp [State.vaonLoss, State.emit]

/-- The state once the supply is stable. -/
def State.supplied (s : State) : State := { s with resets := { s.resets with brown := false } }

theorem supplyStable_starts (f : StartFacts) {s : State} (h : s.resets.stage = 1) :
    ∃ t, exec (.supplyStable f) s = .next t ∧ t.resets.stage = 2 ∧ t.resets.brown = false ∧ Within [] [.resets] s t :=
  ⟨_, congrArg Host.Outcome.next (if_pos h), rfl, rfl, ((Goes.refl (mask [] [.resets]) s).set_resets _ (mask_part (by decide))).within⟩

/-- A reset released, as the obligation says it. -/
theorem State.Released.shows {s t : State} (h : Released s t) {cause : Nat} (hc : s.resets.cause = cause) :
    t.resets.stage = (if t.lifeCycle = 4 then 7 else 0) ∧ t.fld .DEV_RST_CAUSE_CAUSE 0 = cause % 16 := ⟨h.stage, hc ▸ h.shown⟩

theorem brownOut_ends (f : StartFacts) {s : State} (h : s.resets.stage = 4) (hbrown : s.resets.brown = true) :
    ∃ t, exec (.supplyStable f) s = .next t ∧ t.resets.brown = false ∧
      (s.resets.resetN = true → Within [] [.resets] s t ∧ t.resets.stage = 4) ∧
      (s.resets.resetN = false → t.resets.stage = (if t.lifeCycle = 4 then 7 else 0) ∧ t.fld .DEV_RST_CAUSE_CAUSE 0 = s.resets.cause % 16) := by
  have hexec : exec (.supplyStable f) s = .next (s.supplied.letGoIf 4 f) :=
    congrArg Host.Outcome.next ((if_neg (by omega)).trans (if_pos (by simp [h, hbrown])))
  cases hlow : s.resets.resetN with
  | true =>
    rw [State.letGoIf_of_low (s := s.supplied) hlow] at hexec
    exact ⟨_, hexec, rfl, fun _ => ⟨((Goes.refl (mask [] [.resets]) s).set_resets _ (mask_part (by decide))).within, rfl⟩, nofun⟩
  | false =>
    rw [State.letGoIf_of_high (s := s.supplied) hlow] at hexec
    have hreleased := s.supplied.released_letGo f
    exact ⟨_, hexec, hreleased.brown, nofun, fun _ => hreleased.shows rfl⟩

theorem regulatorsUp_starts (f : StartFacts) {s : State} (h : s.resets.stage = 2) :
    ∃ t, exec (.regulatorsUp f) s = .next t ∧ (∀ d : Fin 25, 18 ≤ d.val → d.val ≤ 23 → t.runs d = true) ∧
      (s.resets.resetN = true → t.resets.stage = 3) ∧
      (s.resets.resetN = false → t.resets.stage = (if t.lifeCycle = 4 then 7 else 0) ∧ t.fld .DEV_RST_CAUSE_CAUSE 0 = s.resets.cause % 16) := by
  have hexec : exec (.regulatorsUp f) s = .next (s.lockPlls.letGoIf 3 f) := congrArg Host.Outcome.next (if_pos h)
  have hresets : s.lockPlls.resets = s.resets := (s.goes_lockPlls).within.2 .resets (by decide)
  have hkept : s.lockPlls.resets.resetN = s.resets.resetN := congrArg ResetState.resetN hresets
  cases hlow : s.resets.resetN with
  | true =>
    rw [State.letGoIf_of_low (hkept.trans hlow)] at hexec
    exact ⟨_, hexec, fun d hl hh => s.runs_lockPlls hl hh, fun _ => rfl, nofun⟩
  | false =>
    rw [State.letGoIf_of_high (hkept.trans hlow)] at hexec
    have hreleased := s.lockPlls.released_letGo f
    exact ⟨_, hexec, fun d hl hh => hreleased.runs d hl hh, nofun, fun _ => hreleased.shows (congrArg ResetState.cause hresets)⟩

theorem resetNLow_starts {s : State} (h : s.resets.stage = 0) (hscan : s.secure.scan = false) (hstate : s.fld .PWR_STATE_STATE 0 < 2) :
    ∃ t, exec .resetNLow s = .next t ∧ t.resets.resetN = true ∧ t.resets.stage = 4 ∧ t.resets.cause = 2 := by
  obtain ⟨hstage, hcause, -⟩ := s.enter_resets .pin 2 4
  have henters : s.resetLow = { s.enter .pin 2 4 with resets := { (s.enter .pin 2 4).resets with resetN := true } } := by
    unfold State.resetLow
    rw [if_neg (by simp [h]), if_neg (by simp [hscan]), if_neg (by omega), if_neg (show ¬ s.fld .PWR_STATE_STATE 0 = 2 by omega)]
  exact ⟨_, congrArg Host.Outcome.next henters, rfl, hstage, hcause⟩

theorem resetNHigh_starts (f : StartFacts) {s : State} (h : s.resets.stage = 3 ∨ (s.resets.stage = 4 ∧ s.resets.brown = false)) :
    ∃ t, exec (.resetNHigh f) s = .next t ∧ t.resets.resetN = false ∧
      t.resets.stage = (if t.lifeCycle = 4 then 7 else 0) ∧ t.fld .DEV_RST_CAUSE_CAUSE 0 = s.resets.cause % 16 := by
  have hreleased := State.released_letGo { s with resets := { s.resets with resetN := false } } f
  refine ⟨_, ?_, hreleased.resetN, hreleased.shows rfl⟩
  refine congrArg Host.Outcome.next ?_
  obtain hwaits | ⟨hwaits, hstable⟩ := h
  · exact if_pos hwaits
  · exact (if_neg (by simp [hwaits])).trans (if_pos (by simp [hwaits, hstable]))

theorem deviceResetEntry_starts (f : StartFacts) {s : State} (h : s.resets.stage = 5) :
    ∃ t, exec (.deviceResetEntry f) s = .next t ∧ t.resets.cause = 4 ∧ (s.resets.resetN = true → t.resets.stage = 4) ∧
      (s.resets.resetN = false → t.resets.stage = (if t.lifeCycle = 4 then 7 else 0) ∧ t.fld .DEV_RST_CAUSE_CAUSE 0 = 4 % 16) := by
  have hwritten : (s.writeBackCaches (List.range 20)).flushMeta.resets = s.resets :=
    ((State.goes_flushMeta _).within.2 .resets (by decide)).trans ((s.goes_writeBackCaches _).within.2 .resets (by decide))
  obtain ⟨-, hcause, hresetN⟩ := State.enter_resets (s.writeBackCaches (List.range 20)).flushMeta .device 4 4
  have hexec : exec (.deviceResetEntry f) s = .next (((s.writeBackCaches (List.range 20)).flushMeta.enter .device 4 4).letGoIf 4 f) :=
    congrArg Host.Outcome.next (if_neg (by simp [h]))
  have hkept := hresetN.trans (congrArg ResetState.resetN hwritten)
  generalize (s.writeBackCaches (List.range 20)).flushMeta.enter .device 4 4 = u at hexec hcause hkept
  cases hlow : s.resets.resetN with
  | true =>
    rw [State.letGoIf_of_low (hkept.trans hlow)] at hexec
    exact ⟨_, hexec, hcause, fun _ => rfl, nofun⟩
  | false =>
    rw [State.letGoIf_of_high (hkept.trans hlow)] at hexec
    have hreleased := u.released_letGo f
    exact ⟨_, hexec, hreleased.cause.trans hcause, nofun, fun _ => hreleased.shows hcause⟩

theorem mainSupplyGood_starts {s : State} (h : s.resets.stage = 0) (hstate : s.fld .PWR_STATE_STATE 0 = 3) (hmain : s.power.mainEn = true)
    (hwake : s.power.wake ≠ 0) : ∃ t, exec .mainSupplyGood s = .next t ∧ t.resets.stage = 2 ∧ t.resets.cause = s.resets.cause := by
  obtain ⟨hstage, hcause, -⟩ := s.enter_resets .wake s.resets.cause 2
  exact ⟨_, congrArg Host.Outcome.next (if_pos (by simp [h, hstate, hmain, hwake])), hstage, hcause⟩

/-- Settles O58: each start by its stage, the releases by what `letGo` shows. -/
theorem startsGoThroughTheirStages : Obligations.StartsGoThroughTheirStages :=
  fun f s => ⟨vaonRise_starts, vaonLoss_starts s, supplyStable_starts f, brownOut_ends f, regulatorsUp_starts f, resetNLow_starts, resetNHigh_starts f,
    deviceResetEntry_starts f, mainSupplyGood_starts⟩

end Sys2Proof.Machine
end

section
/-! PROOFS. The life cycle shows the fuses, and moves by its four services, O44 and O45. -/

namespace Sys2Proof.Machine

-- One proof after another: side by side they need more memory than a check has.
set_option Elab.async false

/-! ### The state that the fuses give (R501, R502) -/

/-- A filter that lets one more value pass ends in that value, or where it ended. -/
theorem getLast?_filter_or (l : List Nat) (p : Nat → Bool) (g : Nat) :
    (l.filter fun i => p i || i == g).getLast? = some g ∨ (l.filter fun i => p i || i == g).getLast? = (l.filter p).getLast? := by
  induction l using List.reverseRecOn with
  | nil => exact .inr rfl
  | append_singleton l a ih =>
    simp only [List.filter_append, List.filter_singleton]
    by_cases ha : p a = true
    · exact .inr (by simp [ha])
    · by_cases hg : a = g
      · exact .inl (by simp [hg])
      · have hother : (a == g) = false := by simp [hg]
        simpa [ha, hother] using ih

theorem fusedState_le (s : State) : s.fusedState ≤ 4 := by
  unfold State.fusedState
  cases (((List.range 12).filter s.blown).getLast?) with
  | none => exact Nat.zero_le 4
  | some g =>
    show (if g = 11 then 4 else g % 3 + 1) ≤ 4
    split <;> omega

namespace State

theorem fusedState_congr {s t : State} (h : t.secure.fuses = s.secure.fuses) : t.fusedState = s.fusedState := by
  have hblown : t.blown = s.blown := by
    funext g
    rw [State.blown, State.blown, State.fuse, State.fuse, h]
  rw [State.fusedState, State.fusedState, hblown]

theorem keyCycle_le (s : State) : s.keyCycle ≤ 3 := List.length_filter_le _ _

theorem showsFuses_showLifeCycle (s : State) : s.showLifeCycle.ShowsFuses := by
  have hshown : s.showLifeCycle.lifeCycle = s.fusedState % 2 ^ 3 :=
    ((s.put .DEV_LC_STATE 0 s.fusedState).fld_put_ne (f := .DEV_LC_CYCLE) 0 0 s.keyCycle (by decide)).trans (s.fld_put_same ..)
  exact hshown.trans ((Nat.mod_eq_of_lt ((fusedState_le s).trans_lt (by decide))).trans (fusedState_congr rfl).symm)

theorem ShowsFuses.of_life {s t : State} (h : KeepsLife s t) (hs : s.ShowsFuses) : t.ShowsFuses :=
  h.shown.trans (hs.trans (fusedState_congr h.fuses).symm)

/-- The state once the fuses of group `g` are blown, before it is shown. -/
def blowFuses (s : State) (g : Nat) : State := s.setSecure fun x => { x with fuses := (List.range 12).map fun i => if i = g then 8 else x.fuses.getD i 0 }

theorem blown_blowFuses (s : State) (g : Nat) {i : Nat} (hi : i < 12) : (s.blowFuses g).blown i = (s.blown i || i == g) := by
  have hfuse : (s.blowFuses g).fuse i = if i = g then 8 else s.fuse i := by
    simp only [State.fuse, State.blowFuses, State.setSecure]
    rw [List.getD_eq_getElem _ _ (by simpa using hi)]
    simp
  rw [State.blown, hfuse, State.blown]
  by_cases h : i = g <;> simp [h]

theorem fusedState_blowFuses (s : State) (g : Nat) :
    (s.blowFuses g).fusedState = groupState g ∨ (s.blowFuses g).fusedState = s.fusedState := by
  have hfilter : (List.range 12).filter (s.blowFuses g).blown = (List.range 12).filter fun i => s.blown i || i == g :=
    List.filter_congr fun i hi => s.blown_blowFuses g (List.mem_range.mp hi)
  unfold State.fusedState
  rw [hfilter]
  obtain h | h := getLast?_filter_or (List.range 12) s.blown g
  · exact .inl (by rw [h]; rfl)
  · exact .inr (by rw [h])

theorem showsFuses_blow (s : State) (g : Nat) : (s.blow g).ShowsFuses :=
  ((s.blowFuses g).showsFuses_showLifeCycle).of_life ((KeepsLife.refl _).raised _ _)

/-- A transition shows the state of the group that it blows, or that of a later group. -/
theorem lifeCycle_blow (s : State) (g : Nat) : (s.blow g).lifeCycle = groupState g ∨ (s.blow g).lifeCycle = s.fusedState := by
  have hfused : (s.blow g).fusedState = (s.blowFuses g).fusedState :=
    fusedState_congr ((KeepsLife.refl (s.blowFuses g).showLifeCycle).raised 242 _).fuses
  rw [showsFuses_blow, hfused]
  exact s.fusedState_blowFuses g

/-! ### Starts read the fuses anew -/

theorem showsFuses_readFuses (s : State) (fuses : List Nat) : (s.readFuses fuses).ShowsFuses := by
  unfold State.readFuses
  extract_lets s1
  have hshown : s1.ShowsFuses := showsFuses_showLifeCycle _
  exact hshown.of_life ((KeepsLife.refl s1).when _ fun t => ((KeepsLife.refl t).put _ _ _).raised _ _)

theorem showsFuses_letGo (s : State) (f : StartFacts) : (s.letGo f).ShowsFuses := by
  have hread : (s.lockPlls.readAtRelease f s.resets.cause).ShowsFuses :=
    (showsFuses_readFuses _ _).of_life (((KeepsLife.refl _).trans (life_readKeys ..)).put _ _ _)
  rw [letGo_eq]
  split
  · exact hread.of_life ((KeepsLife.refl _).set_resets _)
  · exact hread.of_life ((goes_running _ f).life.step (goes_startUp ..))

theorem ShowsFuses.letGoIf {s : State} (h : s.ShowsFuses) (stage : Nat) (f : StartFacts) : (s.letGoIf stage f).ShowsFuses := by
  unfold State.letGoIf
  split
  · exact h.of_life ((KeepsLife.refl _).set_resets _)
  · exact s.showsFuses_letGo f

end State

theorem showsFuses_supplyStable (f : StartFacts) {s t : State} (hs : s.ShowsFuses) (h : exec (.supplyStable f) s = .next t) : t.ShowsFuses := by
  rw [← Host.Outcome.next.inj h]
  have hstable : s.supplied.ShowsFuses := hs.of_life ((KeepsLife.refl s).set_resets _)
  dsimp only
  split
  · exact hstable.of_life ((KeepsLife.refl _).set_resets _)
  · split
    · exact hstable.letGoIf 4 f
    · exact hs

theorem showsFuses_regulatorsUp (f : StartFacts) {s t : State} (hs : s.ShowsFuses) (h : exec (.regulatorsUp f) s = .next t) : t.ShowsFuses := by
  rw [← Host.Outcome.next.inj h]
  split
  · exact (hs.of_life s.goes_lockPlls.life).letGoIf 3 f
  · exact hs

theorem showsFuses_resetNHigh (f : StartFacts) {s t : State} (hs : s.ShowsFuses) (h : exec (.resetNHigh f) s = .next t) : t.ShowsFuses := by
  rw [← Host.Outcome.next.inj h]
  dsimp only
  split
  · exact State.showsFuses_letGo ..
  · split
    · exact State.showsFuses_letGo ..
    · exact hs.of_life ((KeepsLife.refl s).set_resets _)

theorem showsFuses_deviceResetEntry (f : StartFacts) {s t : State} (hs : s.ShowsFuses) (h : exec (.deviceResetEntry f) s = .next t) :
    t.ShowsFuses := by
  rw [← Host.Outcome.next.inj h]
  split
  · exact hs
  · exact (hs.of_life (((s.goes_writeBackCaches _).life.step (State.goes_flushMeta _)).trans (State.life_enter ..))).letGoIf 4 f

/-! ### The four transitions (R503) -/

/-- From `s` to `t` the life cycle stands, or, where `ok` holds, the fuses of group `g` have been blown. -/
def MovesBy (ok : Prop) (g : Nat) (s t : State) : Prop := KeepsLife s t ∨ ok ∧ ∃ u, KeepsLife s u ∧ KeepsLife (u.blow g) t

namespace MovesBy

variable {ok : Prop} {g : Nat} {s t u : State}

theorem then_life (h : MovesBy ok g s t) (k : KeepsLife t u) : MovesBy ok g s u := by
  obtain h | ⟨hok, v, hv, h⟩ := h
  · exact .inl (h.trans k)
  · exact .inr ⟨hok, v, hv, h.trans k⟩

theorem showsFuses (h : MovesBy ok g s t) (hs : s.ShowsFuses) : t.ShowsFuses := by
  obtain h | ⟨-, v, -, h⟩ := h
  · exact hs.of_life h
  · exact (v.showsFuses_blow g).of_life h

theorem lifeCycle (h : MovesBy ok g s t) (hs : s.ShowsFuses) : t.lifeCycle = s.lifeCycle ∨ ok ∧ t.lifeCycle = groupState g := by
  obtain h | ⟨hok, v, hv, h⟩ := h
  · exact .inl h.shown
  · rw [h.shown]
    obtain hmoved | hstands := v.lifeCycle_blow g
    · exact .inr ⟨hok, hmoved⟩
    · exact .inl (hstands.trans ((State.fusedState_congr hv.fuses).trans hs.symm))

/-- A letter's service that moves the life cycle. -/
theorem of_serve {g : Nat} {svc : Service} (h : ∀ b, MovesBy ok g s (svc b s).1) (L : Letter) (o : Offer) (exempt : Bool) :
    MovesBy ok g s (s.serve L o exempt svc) := by
  obtain hrefused | ⟨b, hserved⟩ := s.life_serve_cases L o exempt svc
  · exact .inl hrefused
  · exact (h b).then_life hserved

theorem thenZeroise (h : MovesBy ok g s t) : MovesBy ok g s (s.thenZeroise t) :=
  h.then_life (KeepsLife.ite (KeepsLife.refl t) t.life_zeroise)

theorem stands (ok : Prop) (g : Nat) (s : State) : MovesBy ok g s s := .inl (KeepsLife.refl s)

theorem blows (hok : ok) (h : KeepsLife s u) : MovesBy ok g s (u.blow g) := .inr ⟨hok, u, h, KeepsLife.refl _⟩

end MovesBy

theorem movesBy_svcProvision (L : Letter) (unprogrammed : List (Fin 16)) (b : List Byte) (s : State) :
    MovesBy (s.lifeCycle = 0 ∨ s.lifeCycle = 3) (3 * s.keyCycle) s (svcProvision L unprogrammed b s).1 := by
  unfold svcProvision
  split
  · exact .stands ..
  · next hstate =>
    split
    · exact .stands ..
    · split
      · exact .stands ..
      · split
        · exact .stands ..
        · refine .blows ?_ (s.life_provision ..)
          simp only [Bool.or_eq_true, Bool.not_eq_true', not_or, Bool.not_eq_false, decide_eq_true_eq] at hstate
          exact hstate.1

theorem movesBy_svcKeyLock (L : Letter) (b : List Byte) (s : State) :
    MovesBy (s.lifeCycle = 1) (3 * s.keyCycle + 1) s (svcKeyLock L b s).1 := by
  unfold svcKeyLock
  split
  · exact .stands ..
  · next hstate =>
    split
    · exact .stands ..
    · refine .blows ?_ (KeepsLife.refl s)
      simp only [Bool.or_eq_true, not_or, decide_eq_true_eq, ne_eq, not_not] at hstate
      exact hstate.1

theorem movesBy_svcKeyReturn (L : Letter) (b : List Byte) (s : State) :
    MovesBy (s.lifeCycle = 2 ∧ s.keyCycle ≠ 3) (3 * s.keyCycle + 2) s (svcKeyReturn L b s).1 := by
  unfold svcKeyReturn
  split
  · exact .stands ..
  · next hstate =>
    split
    · exact .stands ..
    · next hcycle =>
      split
      · exact .stands ..
      · split
        · exact .stands ..
        · exact .blows ⟨not_not.mp hstate, hcycle⟩ (KeepsLife.refl s)

theorem movesBy_svcKeyScrap (L : Letter) (b : List Byte) (s : State) : MovesBy (s.lifeCycle ≠ 4) 11 s (svcKeyScrap L b s).1 := by
  unfold svcKeyScrap
  split
  · exact .stands ..
  · next hstate =>
    split
    · exact .stands ..
    · split
      · exact .stands ..
      · exact .blows hstate (KeepsLife.refl s)

theorem movesBy_keyProvision {L : Letter} {unprogrammed : List (Fin 16)} {s t : State} (h : exec (.keyProvision L unprogrammed) s = .next t) :
    MovesBy (s.lifeCycle = 0 ∨ s.lifeCycle = 3) (3 * s.keyCycle) s t :=
  Host.Outcome.next.inj h ▸ .of_serve (fun b => movesBy_svcProvision L unprogrammed b s) ..

theorem movesBy_keyLock {L : Letter} {s t : State} (h : exec (.keyLock L) s = .next t) : MovesBy (s.lifeCycle = 1) (3 * s.keyCycle + 1) s t :=
  Host.Outcome.next.inj h ▸ .of_serve (fun b => movesBy_svcKeyLock L b s) ..

theorem movesBy_keyReturn {L : Letter} {s t : State} (h : exec (.keyReturn L) s = .next t) :
    MovesBy (s.lifeCycle = 2 ∧ s.keyCycle ≠ 3) (3 * s.keyCycle + 2) s t :=
  Host.Outcome.next.inj h ▸ (MovesBy.of_serve (fun b => movesBy_svcKeyReturn L b s) ..).thenZeroise

theorem movesBy_keyScrap {L : Letter} {s t : State} (h : exec (.keyScrap L) s = .next t) : MovesBy (s.lifeCycle ≠ 4) 11 s t :=
  Host.Outcome.next.inj h ▸ (MovesBy.of_serve (fun b => movesBy_svcKeyScrap L b s) ..).thenZeroise

/-- Group 3k + i of key cycle k gives the state i + 1. -/
theorem groupState_of_cycle {k i : Nat} (hi : i ≤ 2) (hlast : 3 * k + i ≠ 11) : groupState (3 * k + i) = i + 1 := by
  rw [groupState, if_neg hlast]
  omega

/-! ### Every command -/

theorem life_of_not_movesLife {c : Instr} {s t : State} (hc : movesLife c = false) (h : exec c s = .next t) : KeepsLife s t := by
  obtain ⟨u, hexec, -, hlife⟩ := exec_answersWithin c s
  exact Host.Outcome.next.inj (hexec.symm.trans h) ▸ hlife hc

theorem showsFuses_exec {c : Instr} {s t : State} (hs : s.ShowsFuses) (h : exec c s = .next t) : t.ShowsFuses := by
  by_cases hc : movesLife c = false
  · exact hs.of_life (life_of_not_movesLife hc h)
  · unfold movesLife at hc
    split at hc
    · exact showsFuses_supplyStable _ hs h
    · exact showsFuses_regulatorsUp _ hs h
    · exact showsFuses_resetNHigh _ hs h
    · exact showsFuses_deviceResetEntry _ hs h
    · exact (movesBy_keyProvision h).showsFuses hs
    · exact (movesBy_keyLock h).showsFuses hs
    · exact (movesBy_keyReturn h).showsFuses hs
    · exact (movesBy_keyScrap h).showsFuses hs
    · exact absurd rfl hc

/-- Settles O44: commands but eight, and a tick, leave the life cycle alone; those eight end in showing the fuses that they read or blew. -/
theorem stepsKeepTheFusesShown : Obligations.StepsKeepTheFusesShown := by
  intro s t hs hstep
  unfold step at hstep
  split at hstep
  · next c rest hpending => exact showsFuses_exec (s := { s with pending := rest }) hs hstep
  · rw [← Host.Outcome.next.inj hstep]
    exact hs.of_life s.life_tick

/-- Settles O45: the state after a transition is that of the group it blew, unless a later one was blown before. -/
theorem lifeCycleMovesByItsServices : Obligations.LifeCycleMovesByItsServices := by
  intro c s t hs h hsupply hregulators hreset hentry
  have hcycle := s.keyCycle_le
  by_cases hc : movesLife c = false
  · exact .inl (life_of_not_movesLife hc h).shown
  · unfold movesLife at hc
    split at hc
    · exact absurd rfl (hsupply _)
    · exact absurd rfl (hregulators _)
    · exact absurd rfl (hreset _)
    · exact absurd rfl (hentry _)
    · obtain hstands | ⟨hok, hmoved⟩ := (movesBy_keyProvision h).lifeCycle hs
      · exact .inl hstands
      · exact .inr (.inl ⟨_, _, rfl, hok, hmoved.trans (groupState_of_cycle (i := 0) (by decide) (by omega))⟩)
    · obtain hstands | ⟨hok, hmoved⟩ := (movesBy_keyLock h).lifeCycle hs
      · exact .inl hstands
      · exact .inr (.inr (.inl ⟨_, rfl, hok, hmoved.trans (groupState_of_cycle (i := 1) (by decide) (by omega))⟩))
    · obtain hstands | ⟨⟨hok, hmore⟩, hmoved⟩ := (movesBy_keyReturn h).lifeCycle hs
      · exact .inl hstands
      · exact .inr (.inr (.inr (.inl ⟨_, rfl, hok, hmoved.trans (groupState_of_cycle (i := 2) (by decide) (by omega))⟩)))
    · obtain hstands | ⟨hok, hmoved⟩ := (movesBy_keyScrap h).lifeCycle hs
      · exact .inl hstands
      · exact .inr (.inr (.inr (.inr ⟨_, rfl, hok, hmoved⟩)))
    · exact absurd rfl hc

end Sys2Proof.Machine
end
